-- ==== Sys2Proof/Word.lean ====
section
/-! DEFINITION. The word types of the unit (00_scope.md R1): bit 0 is the least significant bit. -/

namespace Sys2Proof

/-- One byte of a structure, a store or a frame. -/
abbrev Byte := BitVec 8

/-- A 16-bit field. -/
abbrev Half := BitVec 16

/-- A 32-bit register, accumulator or instruction word. -/
abbrev Word := BitVec 32

/-- A 64-bit counter or lap number (R20). -/
abbrev DWord := BitVec 64

/-- A byte string: a frame, a package, a payload. Byte 0 is the head (R1). -/
abbrev Bytes := List Byte

end Sys2Proof
end

