-- ==== Sys2Proof/Syntax.lean ====
section
/-! DEFINITION. The commands of the unit: one constructor per row of spec/opcode_table.json, with the operands
the row's step takes from outside (a port, an address, a frame, a measured value). -/

namespace Sys2Proof

/-- The image areas of R136, in the order of their area codes 0x0 to 0xB. -/
inductive Area where
  | i | q | m | e | t | c | s | p | l | k | w | d
deriving DecidableEq, Repr

/-- The loaded system parts P0 to P6 (R70, R430). -/
inductive Part where
  | p0 | p1 | p2 | p3 | p4 | p5 | p6
deriving DecidableEq, Repr

/-- What PART_NOT_READY reports: a part that has not reported within its load step, or a ROM self-test that failed (R71, R439). -/
inductive LoadFailure where
  | part (p : Part)
  | selfTest
deriving DecidableEq, Repr

/-- The two lanes (R368). -/
inductive Lane where
  | a | b
deriving DecidableEq, Repr

/-- Kinds of a lane fault, in the order of SJ 0x0910's payload (R378). -/
inductive LaneFaultKind where
  | gap | sequence | exception | parity | notReady
deriving DecidableEq, Repr

/-- Kinds of a domain limit violation, in the order of SJ 0x0901's payload (R378); NOT_GOOD is DOMAIN_NOT_UP's. -/
inductive DomainFaultKind where
  | under | over | current
deriving DecidableEq, Repr

/-- A ring descriptor (R114). -/
structure Desc where
  buf   : Word := 0
  len   : Half := 0
  src   : Byte := 0
  flags : Byte := 0
  ts    : Word := 0
  tag   : Word := 0
deriving DecidableEq, Repr, Inhabited

/-- A landing-bus frame as it completes on the bus (R282): identifier, IDE, FDF, RTR, BRS, ESI, the data length
code, the data, and how many µs before its completion its start-of-frame bit was. The unit itself says in a frame that it
stores whether it sent it and whether it came outside its wake slot (R307): a command's frame leaves both false. -/
structure CanFrame where
  id        : BitVec 29 := 0
  ide       : Bool := false
  fdf       : Bool := false
  rtr       : Bool := false
  brs       : Bool := false
  esi       : Bool := false
  dlc       : Byte := 0
  data      : Bytes := []
  own       : Bool := false
  outOfSlot : Bool := false
  sofAgo    : Nat := 0
deriving DecidableEq, Repr, Inhabited

/-- What an error adds to an error counter by ISO 11898-1 (R290): nothing, one, or eight. -/
inductive ErrCount where
  | zero | one | eight
deriving DecidableEq, Repr

/-- The stores whose write can fail, in the order in which R377 names them: MRAM, flash. -/
inductive StoreId where
  | mram | flash
deriving DecidableEq, Repr

/-- How a request reaches the Marshal (R371): in bytes that arrive on SVC (R372), or as the oldest of the requests that wait, which
PX_REQUEST has authenticated and put there (R354) or which came over SVC behind them (R374). `fails` names a store that does not
take the request's writes (R377). -/
inductive Via where
  | svc (frame : Bytes) (fails : Option StoreId := none)
  | passed (fails : Option StoreId := none)
deriving DecidableEq, Repr

/-- An address of either family (R342). -/
inductive NetAddr where
  | v4 (a : Word)
  | v6 (a : BitVec 128)
deriving DecidableEq, Repr, Inhabited

/-- The sender of a PX frame, of an IP message or of a TCP connection: address, port and MAC address, the port of the unit to which
it sends (R343, R356), and the VLAN on which its frame reaches the CPU port (R315, R342). -/
structure NetSrc where
  ip     : NetAddr := .v4 0
  port   : Half := 41720
  mac    : BitVec 48 := 0
  toPort : Half := 41720
  vid    : Nat := 1
deriving DecidableEq, Repr, Inhabited

/-- The values of a group's four channels held at one instant: a raw sample before saturation, or an output point (R51, R252,
R261). -/
structure Point where
  c0 : Int := 0
  c1 : Int := 0
  c2 : Int := 0
  c3 : Int := 0
deriving DecidableEq, Repr, Inhabited

/-- A run of equal raw samples of both groups (R251), `count` of them: `a` holds AI0 to AI3, `b` AI4 to AI7. -/
structure SampleRun where
  count : Nat := 1
  a     : Point := {}
  b     : Point := {}
deriving DecidableEq, Repr, Inhabited

/-- The raw samples of one metering tick (R265, R266). SUPPLY_WARN carries those of the truncated tick (R274); during a press of
region 6 there are none, and their number alone counts, as the time that the tick has run. -/
structure TickSamples where
  runs : List SampleRun := []
deriving DecidableEq, Repr, Inhabited

/-- The number of samples of a tick. -/
def TickSamples.count (t : TickSamples) : Nat := (t.runs.map SampleRun.count).sum

/-- A run of equal raw samples of digital input `n`, one every 10 µs (R32): their value and their number. -/
structure RawRun where
  n       : Fin 32 := 0
  level   : Bool := true
  samples : Nat := 1
deriving DecidableEq, Repr, Inhabited

/-- A trip of output `k` (R43), and whether the last acknowledge of that output fell in the same clock (R44). -/
structure Trip where
  k       : Fin 16 := 0
  sameAck : Bool := false
deriving DecidableEq, Repr, Inhabited

/-- What 20 ms of measurement say of the load of output `k` (R45): too light a load, or a load. -/
structure LoadCheck where
  k     : Fin 16 := 0
  light : Bool := true
deriving DecidableEq, Repr, Inhabited

/-- The voltage at the terminal of output `k`, in mV (R46, R49). -/
structure Terminal where
  k  : Fin 16 := 0
  mv : Nat := 0
deriving DecidableEq, Repr, Inhabited

/-- What the other instruments do to trigger line `k`, after the glitch filter: they assert it or have released it (R53). -/
structure TrgEdge where
  k        : Fin 4 := 0
  asserted : Bool := true
deriving DecidableEq, Repr, Inhabited

/-- A sample of the sensor hub (R363): voltage in mV and current in mA of a domain, the voltages of the groups where the domain
has several (PD9, PD10), the number of consecutive samples like it, and the voltages at X1, L+A, L+B and BAT where taken. -/
structure HubSample where
  mv      : Half := 0
  ma      : Half := 0
  groups  : List Half := []
  samples : Nat := 10
  x1      : Option Half := none
  lplusA  : Option Half := none
  lplusB  : Option Half := none
  bat     : Option Half := none
deriving DecidableEq, Repr, Inhabited

/-- Stored parity that has gone bad: of an entry of a pipeline's MAC or prefix table (R326), or of a word of image memory (R159),
counted in words of 32 bits of its area (log 76). -/
inductive Upset where
  | entry (pipeW pfx : Bool) (index : Nat)
  | image (a : Area) (word : Nat)
deriving DecidableEq, Repr

/-- The last two consecutive samples of a temperature sensor, in 0.1 degC, signed (R365). -/
structure TempSamples where
  prev : Half := 0
  cur  : Half := 0
deriving DecidableEq, Repr, Inhabited

/-- The commands: one constructor per row of spec/opcode_table.json. -/
inductive Instr where
  -- registers
  | registerWrite (addr : Word) (width : Nat) (value : Word)
  | rcRead (addr : Word) (width : Nat)
  | loRead (addr : Word) (width : Nat)
  -- supply, field connections, wake detectors
  | supplyValid
  | supplyWarn (mv : Half) (tick : TickSamples)
  | supplyRestored
  | shutdown
  | pd0Loss
  | inputFilterTransition (e : RawRun)
  | diOpen (n : Fin 32)
  | diOpenCleared (n : Fin 32)
  | diGroupLost (g : Fin 4) (reversed : Bool)
  | diGroupRestored (g : Fin 4)
  | vsShort (g : Fin 4)
  | vsRetry (g : Fin 4) (above15V : Bool)
  | doTrip (e : Trip)
  | doRetry (k : Fin 16)
  | doRetryCountReset (k : Fin 16)
  | groupOverload (b : Bool)
  | doOpenLoad (e : LoadCheck)
  | backfeed (e : Terminal)
  | doSupplyLost (b : Bool) (reversed : Bool)
  | doSupplyRestored (b : Bool)
  | doAckWrite (value : Word)
  | trgAssert (e : TrgEdge)
  | polaritySet (port : Fin 4)
  | polarityCleared (port : Fin 4)
  | di00Wake
  | lb0Wake
  | row0Wake
  -- bring-up, states, Safe Service
  | manifestsVerified
  | mouldPressed (readbackFails : Option (Fin 4))
  | partReady (part : Part) (version : Word) (testedSet : Word)
  | partNotReady (part : LoadFailure)
  | firstFullLap
  | btpLap (ai0 : List Int) (ai1 : List Int) (ai2 : List Int)
  | lbNormalMode
  | pxJoinSend
  | haltEntered
  | hibernateEntered
  -- Queue Pool and re-press
  | queuePush (ring : BitVec 10) (d : Desc)
  | queuePop (ring : BitVec 10)
  | backpressureResume (ring : BitVec 10)
  | qpCiWrite (value : Word)
  | regionPressDone (readbackOk : Bool)
  -- the lap
  | lapStart
  | lapCommit
  | lapWatchdog
  -- bit path
  | nop
  | ld (a : Area) (index : BitVec 20)
  | ldn (a : Area) (index : BitVec 20)
  | bitAnd (a : Area) (index : BitVec 20)
  | bitAndn (a : Area) (index : BitVec 20)
  | bitOr (a : Area) (index : BitVec 20)
  | bitOrn (a : Area) (index : BitVec 20)
  | bitXor (a : Area) (index : BitVec 20)
  | bitXorn (a : Area) (index : BitVec 20)
  | openAnd (a : Area) (index : BitVec 20)
  | openAndn (a : Area) (index : BitVec 20)
  | openOr (a : Area) (index : BitVec 20)
  | openOrn (a : Area) (index : BitVec 20)
  | openXor (a : Area) (index : BitVec 20)
  | openXorn (a : Area) (index : BitVec 20)
  | close
  | st (a : Area) (index : BitVec 20)
  | bitSet (a : Area) (index : BitVec 20)
  | rst (a : Area) (index : BitVec 20)
  | bitNot
  | setba
  | clrba
  | fp (index : BitVec 20)
  | fn (index : BitVec 20)
  | jmp (offset : BitVec 20)
  | jmpc (offset : BitVec 20)
  | jmpcn (offset : BitVec 20)
  | btow
  | wtob
  | ldi (a : Area) (index : BitVec 20)
  | sti (a : Area) (index : BitVec 20)
  -- word path
  | l32 (a : Area) (index : BitVec 20)
  | l16 (a : Area) (index : BitVec 20)
  | st32 (a : Area) (index : BitVec 20)
  | st16 (a : Area) (index : BitVec 20)
  | lx32 (a : Area) (index : BitVec 20)
  | lx16 (a : Area) (index : BitVec 20)
  | sx32 (a : Area) (index : BitVec 20)
  | sx16 (a : Area) (index : BitVec 20)
  | li (imm : BitVec 24)
  | lih (imm : BitVec 16)
  | swap
  | dup
  | lo32 (a : Area) (index : BitVec 20)
  | lo16 (a : Area) (index : BitVec 20)
  | lio (imm : BitVec 24)
  | add
  | sub
  | mul
  | div
  | mod
  | neg
  | abs
  | addu
  | subu
  | mulu
  | divu
  | modu
  | wordAnd
  | wordOr
  | wordXor
  | inv
  | shl
  | shr
  | sar
  | rol
  | ror
  | eq
  | ne
  | lt
  | le
  | gt
  | ge
  | ltu
  | leu
  | gtu
  | geu
  | eqr
  | ner
  | ltr
  | ler
  | gtr
  | ger
  | addr
  | subr
  | mulr
  | divr
  | negr
  | absr
  | sqrtr
  | itor
  | utor
  | rtoi
  | rtoit
  | itos
  | clrx
  | addx
  | macx
  | sarx
  | stx (a : Area) (index : BitVec 20)
  | clrf
  | ldf
  | tstf (bit : BitVec 3)
  | call (number : BitVec 20)
  | calli
  | callsb (number : BitVec 7)
  | ret
  | retc
  | lk (literal : Word)
  -- system blocks
  | ton
  | tof
  | tp
  | counter
  | lapInfo
  | eventInfo
  | raise
  | rtcRead
  | reflexEn
  | fieldStatus
  | doAck
  | safeStatus
  | safeAck
  | mwTrigger
  | lbFilter
  | lbSend
  | beaconPlan
  | lbSleep
  | lbWake
  | pfxLoad
  | pfxLoadApply
  | mbWriteEn
  | encSet
  | panelLock
  | reflexStep
  -- requests
  | getState (via : Via)
  | setModeRun (via : Via)
  | setModeHalt (via : Via)
  | setModeBaton (via : Via)
  | setModeWithdraw (via : Via)
  | restart (via : Via)
  | loadMould (via : Via)
  | repress (via : Via)
  | editLoad (via : Via)
  | editTrialStart (via : Via)
  | editTrialAbort (via : Via)
  | editTrialReport (via : Via)
  | editAdopt (via : Via)
  | editDiscard (via : Via)
  | updStage (via : Via)
  | updApply (via : Via)
  | bankWritten (readbackFails : Option (Fin 3))
  | patchOperation (firstOk : Bool) (secondOk : Bool)
  | updActivate (via : Via)
  | logRead (via : Via)
  | rtcSet (via : Via)
  | lbRecover (via : Via)
  | search (via : Via)
  | tblNext (via : Via)
  | insert (via : Via)
  | delete (via : Via)
  | flushByPort (via : Via)
  | rehash (via : Via)
  | rehashDone
  | crcJobStart (via : Via)
  | crcJobResult (via : Via)
  | keyPolicySet (via : Via)
  | keyPolicyClear (via : Via)
  | keyPolicyList (via : Via)
  | hibernate (via : Via)
  | restoreManifest (via : Via)
  | restoreData (via : Via)
  | restoreFinish (via : Via)
  -- hot standby
  | editPeerTimeout
  | heartbeatSend
  | syncHelloSend
  | syncHello (frame : Bytes)
  | heartbeat (frame : Bytes)
  | lapstart (segments : List Bytes)
  | hash (frame : Bytes)
  | stateFrame (frame : Bytes)
  | resync (frame : Bytes)
  | resyncFailed
  | withdraw (frame : Bytes)
  | leave (frame : Bytes)
  | yield (frame : Bytes)
  | editFwd (frame : Bytes)
  | editResult (frame : Bytes)
  | editCmdTrialStart (frame : Bytes)
  | editCmdTrialAbort (frame : Bytes)
  | editCmdDiscard (frame : Bytes)
  | editCmdReport (frame : Bytes)
  | editReport (frame : Bytes)
  | pairRefused (frame : Bytes)
  | syncSilence
  | pxProbeSend
  | probeWindowEnd
  | pairingWindowEnd
  | switchOffTest (m : Fin 8) (readbackEven : Bool) (readbackOdd : Bool)
  | spairStuckOn (m : Fin 8)
  -- Mains Watch and metering
  | halfCycleEnd (ch : Fin 8) (head : List Int) (mid : Int) (reps : Nat) (tail : List Int)
  | recordTrigger (prev : Int) (cur : Int)
  | swTrigWrite (value : Word)
  | periodicTrigger
  | recordStored (runs : List (Nat × Point)) (tail : List Point)
  | meterTick (tick : TickSamples)
  | meterSnapshot
  -- landing buses
  | lbFrameReceived (port : Fin 4) (frame : CanFrame)
  | lbError (port : Fin 4) (kind : BitVec 4) (transmitter : Bool) (delta : ErrCount)
  | fdFrameSeen (port : Fin 4)
  | lbRecoveryDone (port : Fin 4)
  | lbTransmit (port : Fin 4) (completed : Option Nat)
  | lImageCut
  | tmCycleBoundary (port : Fin 4) (completed : Option Nat) (bitError : Bool)
  | beaconStatus (port : Fin 4) (node : BitVec 7) (boot : Bool) (data : Bytes)
  | nodeMissing (port : Fin 4) (node : BitVec 7)
  | beaconScheduler (port : Fin 4)
  | testReport (port : Fin 4) (node : BitVec 7) (data : Bytes)
  | testNoReport (port : Fin 4) (node : BitVec 7)
  | beaconVote (port : Fin 4) (node : BitVec 7) (data : Bytes)
  | voteTimeout (port : Fin 4)
  | settleWindowEnd (port : Fin 4)
  | wakeRequest (port : Fin 4)
  | timedWake (port : Fin 4)
  | wakeSlotEnd (port : Fin 4) (node : BitVec 7)
  -- backbone
  | bbFrameReceived (port : Fin 4) (fcsOk : Bool) (frame : Bytes) (begunAgo : Nat) (upsets : List Upset)
  | cpuPortTransmit (upsets : List Upset)
  | macAging
  | linkDown (port : Fin 4)
  | linkUp (port : Fin 4) (speed : BitVec 2) (full : Bool) (mdix : Bool)
  | scrub (upsets : List Upset)
  | topologyChange
  | ringOpen (port : Fin 2)
  | ringClosed
  | dmaStart (value : Word)
  | dmaDone
  | tblLockTake (agent : Byte)
  | tblLockRelease (agent : Byte)
  | lockTimeout
  -- Plant Exchange and Modbus
  | pxHelloSend
  | pxHello (src : NetSrc) (frame : Bytes)
  | pxJoin (src : NetSrc) (frame : Bytes)
  | pxImage (src : NetSrc) (frame : Bytes)
  | pxRequest (src : NetSrc) (frame : Bytes)
  | pxTime (src : NetSrc) (frame : Bytes)
  | pxTimeSend
  | pxMemberAbsent (member : Byte)
  | pxSourceUnblock (ip : NetAddr)
  | haltPublish
  | mbConnect (src : NetSrc)
  | mbIdleClose (conn : Nat)
  | readCoils (conn : Nat) (adu : Bytes)
  | readDiscreteInputs (conn : Nat) (adu : Bytes)
  | readHoldingRegisters (conn : Nat) (adu : Bytes)
  | readInputRegisters (conn : Nat) (adu : Bytes)
  | writeSingleCoil (conn : Nat) (adu : Bytes)
  | writeSingleRegister (conn : Nat) (adu : Bytes)
  | writeMultipleCoils (conn : Nat) (adu : Bytes)
  | writeMultipleRegisters (conn : Nat) (adu : Bytes)
  | readWriteRegisters (conn : Nat) (adu : Bytes)
  -- Marshal
  | domainFault (pd : Fin 12) (kind : DomainFaultKind) (value : HubSample)
  | domainNotUp (pd : Fin 12) (mv : Half)
  | tempWarning (sensor : Fin 6) (temp : TempSamples)
  | tempNormal (sensor : Fin 6) (temp : TempSamples)
  | tempShutdown (sensor : Fin 6) (temp : TempSamples)
  | laneKick (lane : Lane) (value : Half)
  | laneFault (lane : Lane) (kind : LaneFaultKind) (gapMs : Nat)
  | svcFrameTimeout
  | svcIdleClose
  | svcVbusLost
  -- records and checks
  | sjRecordWrite (firstOk : Bool) (secondOk : Bool)
  | trRecordWrite
  | optSave
  | timeAnchor
  | crcFrameJob (poly : Byte) (mode : Byte) (start : Word) (length : Word)
  | crcScanStart
  | crcScanDone
  -- clock and panel
  | rtcSecond
  | oscillatorStop
  | batMeasure (mv : Half)
  | keyPress (key : Fin 21)
  | keyRelease (key : Fin 21)
  | keyStuck (key : Fin 21)
  | encoderStep (up : Bool)
  | panelInactivityLock
  | hurdleTimeout
  | svcHeldKeys
  | aiOverRange (ch : Fin 8) (positive : Bool)
  | spairStuckCleared (m : Fin 8)
  | syncSignalLost
  | syncSignalLocked
  | trBlockErased
  | trigOutRelease
  | arpMessage (src : NetSrc) (opcode : Half) (senderIp : NetAddr) (senderMac : BitVec 48) (targetIp : NetAddr)
  | icmpEcho (src : NetSrc) (v6 : Bool) (ident : Half) (seq : Half) (data : Bytes)
deriving DecidableEq, Repr

end Sys2Proof
end

