-- ==== Sys2Proof/Decode.lean ====
section
/-! DEFINITION. The commands that words spell. No row of spec/opcode_table.json gives bits; the words of a program spell the Bolis
commands by the encodings of R152, R155 and R178. -/

namespace Sys2Proof

/-- The area of an area code (R136); codes 0xC to 0xF are reserved (R152). -/
def areaOfCode (c : Nat) : Option Area := [Area.i, .q, .m, .e, .t, .c, .s, .p, .l, .k, .w, .d][c]?

/-- The Bolis command of an instruction word (R152, R155, R178): OPCODE in [31:24], AREA in [23:20], INDEX in [19:0]; `literal` is
the word after it, which LK loads. None where the opcode, the area or the operand is reserved, or is of reflex rung code only
(DLYON, DLYOFF). Readable is every area but E, writable Q, M and D. -/
def bolisCommand (w literal : Word) : Option Instr :=
  let index := w.extractLsb' 0 20
  let code := (w.extractLsb' 20 4).toNat
  let alone := fun (i : Instr) => if code = 0 ∧ index = 0 then some i else none
  let inArea := fun (ok : Area → Bool) (f : Area → BitVec 20 → Instr) => (areaOfCode code).bind fun a => if ok a then some (f a index) else none
  let reads := inArea fun a => decide (a ≠ .e)
  let writes := inArea fun a => decide (a = .q) || decide (a = .m) || decide (a = .d)
  let cell := fun (f : BitVec 20 → Instr) => if code = 3 then some (f index) else none
  let bare := fun (f : BitVec 20 → Instr) => if code = 0 then some (f index) else none
  match (w.extractLsb' 24 8).toNat with
  | 0x00 => alone .nop
  | 0x01 => reads .ld
  | 0x02 => reads .ldn
  | 0x03 => reads .bitAnd
  | 0x04 => reads .bitAndn
  | 0x05 => reads .bitOr
  | 0x06 => reads .bitOrn
  | 0x07 => reads .bitXor
  | 0x08 => reads .bitXorn
  | 0x09 => reads .openAnd
  | 0x0A => reads .openAndn
  | 0x0B => reads .openOr
  | 0x0C => reads .openOrn
  | 0x0D => reads .openXor
  | 0x0E => reads .openXorn
  | 0x0F => alone .close
  | 0x10 => writes .st
  | 0x11 => writes .bitSet
  | 0x12 => writes .rst
  | 0x13 => alone .bitNot
  | 0x14 => alone .setba
  | 0x15 => alone .clrba
  | 0x18 => cell .fp
  | 0x19 => cell .fn
  | 0x20 => bare .jmp
  | 0x21 => bare .jmpc
  | 0x22 => bare .jmpcn
  | 0x40 => alone .btow
  | 0x41 => alone .wtob
  | 0x42 => reads .ldi
  | 0x43 => writes .sti
  | 0x50 => reads .l32
  | 0x51 => reads .l16
  | 0x52 => writes .st32
  | 0x53 => writes .st16
  | 0x54 => reads .lx32
  | 0x55 => reads .lx16
  | 0x56 => writes .sx32
  | 0x57 => writes .sx16
  | 0x58 => some (.li (w.extractLsb' 0 24))
  | 0x59 => if w.extractLsb' 16 8 = 0 then some (.lih (w.extractLsb' 0 16)) else none
  | 0x5A => alone .swap
  | 0x5B => alone .dup
  | 0x5C => reads .lo32
  | 0x5D => reads .lo16
  | 0x5E => some (.lio (w.extractLsb' 0 24))
  | 0x60 => alone .add
  | 0x61 => alone .sub
  | 0x62 => alone .mul
  | 0x63 => alone .div
  | 0x64 => alone .mod
  | 0x65 => alone .neg
  | 0x66 => alone .abs
  | 0x67 => alone .addu
  | 0x68 => alone .subu
  | 0x69 => alone .mulu
  | 0x6A => alone .divu
  | 0x6B => alone .modu
  | 0x70 => alone .wordAnd
  | 0x71 => alone .wordOr
  | 0x72 => alone .wordXor
  | 0x73 => alone .inv
  | 0x74 => alone .shl
  | 0x75 => alone .shr
  | 0x76 => alone .sar
  | 0x77 => alone .rol
  | 0x78 => alone .ror
  | 0x80 => alone .eq
  | 0x81 => alone .ne
  | 0x82 => alone .lt
  | 0x83 => alone .le
  | 0x84 => alone .gt
  | 0x85 => alone .ge
  | 0x86 => alone .ltu
  | 0x87 => alone .leu
  | 0x88 => alone .gtu
  | 0x89 => alone .geu
  | 0x8A => alone .eqr
  | 0x8B => alone .ner
  | 0x8C => alone .ltr
  | 0x8D => alone .ler
  | 0x8E => alone .gtr
  | 0x8F => alone .ger
  | 0x90 => alone .addr
  | 0x91 => alone .subr
  | 0x92 => alone .mulr
  | 0x93 => alone .divr
  | 0x94 => alone .negr
  | 0x95 => alone .absr
  | 0x96 => alone .sqrtr
  | 0x98 => alone .itor
  | 0x99 => alone .utor
  | 0x9A => alone .rtoi
  | 0x9B => alone .rtoit
  | 0x9C => alone .itos
  | 0xA0 => alone .clrx
  | 0xA1 => alone .addx
  | 0xA2 => alone .macx
  | 0xA3 => alone .sarx
  | 0xA4 => writes .stx
  | 0xB0 => alone .clrf
  | 0xB1 => alone .ldf
  | 0xB2 => if code = 0 ∧ index.toNat < 8 then some (.tstf (index.setWidth 3)) else none
  | 0xC0 => bare .call
  | 0xC1 => alone .calli
  | 0xC2 => if code = 0 ∧ index.toNat < 128 then some (.callsb (index.setWidth 7)) else none
  | 0xC3 => alone .ret
  | 0xC4 => alone .retc
  | 0xFF => if code = 0 ∧ index = 0 then some (.lk literal) else none
  | _ => none

/-- The command that `w` spells in `nbits` bits: an instruction word of 32 bits spells its Bolis command, and LK, whose literal is the
word that follows, does so in 64 bits alone (R152, R155, R178). No other command has an encoding. -/
def decodeTableWord (nbits w : Nat) : Option Instr :=
  let word := BitVec.ofNat 32 w
  if nbits = (if word.extractLsb' 24 8 = 0xFF then 64 else 32) then bolisCommand word (BitVec.ofNat 32 (w / 2 ^ 32)) else none

end Sys2Proof
end

