-- ==== Sys2Proof/Config.lean ====
section
/-! DEFINITION. What the manual leaves open: free values, and the constants of one unit. None has a body, so no
proof can rest on a value (log 3). -/

namespace Sys2Proof

/-- The value number n that the manual does not state: 32 bits. -/
opaque Config.freeWord : Nat → Word

/-- The bit number n that the manual does not state. -/
opaque Config.freeBit : Nat → Bool

/-- Whether the quotient of a metering amount that is no whole number is rounded up: the manual states the resolution
and not the direction (R265, R266, log 14). -/
opaque Config.roundUp : Int → Nat → Bool

/-- The Lolvoholt release key in Marshal ROM, under which system manifests verify (R431). -/
opaque Config.releaseKey : Bytes

/-- The unit's own MAC address (R321): a value of one unit, byte 0 in bits 47:40. -/
opaque Config.ownMac : BitVec 48

end Sys2Proof
end

