-- ==== Sys2Proof/Machine/State.lean ====
section
/-! DEFINITION. The state of the JL-4400 as plain data, one structure per block of the manual, and its reset.
A field's default is its reset value: the Reset column of its register (R5) where the manual gives one, else the
value named by the log entry in its docstring. -/

namespace Sys2Proof.Machine

/-- Why a step stops with a fault. No command of this model ends in one: every abnormal end the manual describes
(lap fault, lane fault, Safe Service, DEAD) is a next state. The type is closed and its one constructor is raised
by nothing; it stands because the host's interface asks for a fault type. Safe. -/
inductive Fault where
  /-- Raised by no command. Safe. -/
  | none
deriving DecidableEq, Repr

/-- Why a command has no meaning. -/
inductive Refusal where
  /-- Raised by exec for a row that has no meaning yet. Safe. -/
  | notModelled (mnemonic : String)
  /-- Raised by the Bolis instructions whose fixed operand the loader's verifier rejects (R157, R188): such a word
  never runs, and the manual gives it no effect. Safe. -/
  | verifierRejects (mnemonic : String)
deriving DecidableEq, Repr

/-- The operating states of R66. -/
inductive OpState where
  | off | hibernate | bringUp | run | safeService | halt | dead
deriving DecidableEq, Repr

/-- The roles of R11; none outside RUN (R66). -/
inductive Role where
  | none | solo | leader | pacer
deriving DecidableEq, Repr

/-- Kinds of a start (MGT.START_INFO.KIND). -/
inductive StartKind where
  | fromOff | wake | restart | restore
deriving DecidableEq, Repr

/-- A store or a sparse table: keys strictly rising, no entry equal to what an unlisted key reads as. -/
abbrev Sparse (α : Type) := List (Nat × α)

/-- A byte store (data memory, MRAM, flash): R22, R23. -/
abbrev Mem := List Host.Cell

/-- Calendar time with the free weekday counter, in the RTC layout of R211. -/
structure Time where
  year    : Nat := 2000
  month   : Nat := 1
  day     : Nat := 1
  hour    : Nat := 0
  minute  : Nat := 0
  second  : Nat := 0
  weekday : Nat := 0
deriving DecidableEq, Repr, Inhabited

/-- Time base of the model: µs since reset, and operating time in µs (R379). `freeCount` numbers the free values
drawn so far: the model's own field (DESIGN CHOICE, log 3). -/
structure Clock where
  wallUs    : Nat := 0
  opUs      : Nat := 0
  savedMs   : Nat := 0
  anchorMs  : Nat := 0
  freeCount : Nat := 0
  optHi     : Word := 0
deriving DecidableEq, Repr, Inhabited

/-- What an accepted state change waits for (R85, R86, R87, R93). -/
inductive Transit where
  | none | halt | run | hibernate
deriving DecidableEq, Repr

/-- Load steps of the bring-up timeline (R70). -/
inductive LoadStep where
  | idle | manifests | p0 | mould | p4 | p3 | laneA | laneB | p5 | p6 | handover
deriving DecidableEq, Repr

/-- One power-domain measurement (MGT.PD_VIn). -/
structure PdVi where
  mv : Half := 0
  ma : Half := 0
deriving DecidableEq, Repr, Inhabited

/-- One temperature sensor (MGT.TEMPn). -/
structure Temp where
  temp     : Half := 0
  warn     : Bool := false
  warnSeen : Bool := false
  shut     : Bool := false
deriving DecidableEq, Repr, Inhabited

/-- Operating state, power and sensors: 01, 03, 15. At reset the unit is OFF, before the first supply valid
(log 1), so only PD0 is on; MGT.STATE and MGT.PD_STATUS take their Reset values 2 and 0x003 at SUPPLY_VALID. `ssArmed` and
`ssPdOn` name what was watched when SAFE SERVICE was entered at `ssEntryMs`, for the further causes of that check (R369): lane A,
lane B and the lap; and the domains that were on. `hot` holds the unit OFF after a temperature (R366). -/
structure Power where
  state      : OpState := .off
  role       : Role := .none
  transit    : Transit := .none
  causes     : BitVec 10 := 0
  firstCause : Byte := 0
  startKind  : StartKind := .fromOff
  wakeSrc    : BitVec 4 := 0
  resume     : Bool := false
  pwrCycles  : Word := 0
  runTimeMs  : Half := 0
  refusals   : Half := 0
  busyPx     : Half := 0
  pfw        : Bool := false
  pfwUs      : Nat := 0
  t0Us       : Nat := 0
  runEntryUs : Nat := 0
  loadStep   : LoadStep := .idle
  pdOn       : BitVec 12 := 0x001
  pdTripped  : BitVec 12 := 0
  driversOn  : Bool := false
  pdLocked   : BitVec 12 := 0
  roleHistory : List Role := []
  ssEntryMs  : Nat := 0
  ssArmed    : BitVec 3 := 0
  ssPdOn     : BitVec 12 := 0
  pdUs       : Sparse Nat := []
  hot        : Bool := false
deriving DecidableEq, Repr, Inhabited

/-- Sensor values and cross-domain misses (15). -/
structure Sensors where
  xdomCount : Half := 0
  xdomBlock : Byte := 0
  pdVi      : Sparse PdVi := []
  temps     : Sparse Temp := []
  x1        : Half := 0
  bat       : Half := 0
  lplusA    : Half := 0
  lplusB    : Half := 0
deriving DecidableEq, Repr, Inhabited

/-- One lane's watchdog (R368). -/
structure Watchdog where
  armed  : Bool := false
  kicked : Bool := false
  last   : Half := 0
  lastUs : Nat := 0
  gap    : Byte := 0
deriving DecidableEq, Repr, Inhabited

/-- A response the unit gave to a request (R370): path code, CODE, STATUS, TAG, results. -/
structure Response where
  path    : Byte := 0
  code    : Byte := 0
  status  : Byte := 0
  tag     : Word := 0
  results : Bytes := []
deriving DecidableEq, Repr, Inhabited

/-- Marshal: requests, SVC, watchdogs, keys (15). Role keys and plant keys stand in the backup state region of
MRAM (R351, R431); `panelCopy` is the MRAM copy of R373: SALT, SVC_LEN, SVC_DIGEST. `asyncOpen` lists the accepted
requests that have not ended, CODE and path (R374); `onP0` tells that the Marshal runs P0 and not its ROM (R362), `storeFault` that
a store has not taken a request's writes (R377); `svcBuf` holds the bytes of a frame that has begun on SVC (R372). -/
structure Marshal where
  asyncCode   : Byte := 0
  asyncStatus : Byte := 0
  asyncOpen   : List (Byte × Byte) := []
  svcOpen     : Bool := false
  vbus        : Bool := false
  svcBad      : Half := 0
  svcLastUs   : Nat := 0
  wdA         : Watchdog := {}
  wdB         : Watchdog := {}
  issue       : BitVec 4 := 1
  rom         : Byte := 0
  testedSet   : Word := 0
  keyView     : Option Bytes := Option.none
  keyOperate  : Option Bytes := Option.none
  keyEngineer : Option Bytes := Option.none
  keyService  : Option Bytes := Option.none
  plantCurrent : Option Bytes := Option.none
  plantNext   : Option Bytes := Option.none
  panelCopy   : Option (Bytes × Nat × Bytes) := Option.none
  storeFault  : Bool := false
  svcBuf      : Bytes := []
  onP0        : Bool := false
deriving DecidableEq, Repr, Inhabited

/-- A journal or trace record waiting to be written (R382, R388). -/
structure Record where
  code       : Half := 0
  optMs      : Nat := 0
  cycles     : Word := 0
  source     : Byte := 0
  severity   : Byte := 0
  items      : Bytes := []
  notWritten : Nat := 0
deriving DecidableEq, Repr, Inhabited

/-- The last record of one code and unit of repetition (R65): its time and the records not written since. -/
structure Repeat where
  code   : Half
  key    : Nat
  lastMs : Nat
  missed : Nat
deriving DecidableEq, Repr, Inhabited

/-- Records (16): `sjQueue` and `trQueue` are the contents of the records whose descriptors stand in Q0002 and
Q0003, oldest first; `sjOwn` are the records that the Marshal itself puts into the next journal slots, before them (R386, R387).
`headValid` tells whether the last start found a valid copy of HEAD, `trSkipped` how many slots of the block in hand have been skipped
(R390). -/
structure Log where
  sjQueue   : List Record := []
  sjOwn     : List Record := []
  trQueue   : List Record := []
  repeats   : List Repeat := []
  sjHead    : BitVec 15 := 0
  sjWraps   : Word := 0
  trSeq     : DWord := 0
  trHi      : Word := 0
  trDrop    : Half := 0
  sjFails   : Half := 0
  corruptSj : Half := 0
  corruptTr : Half := 0
  anchor    : BitVec 15 := 0
  anchorValid : Bool := false
  rebuilt   : Bool := false
  erasing   : Bool := false
  erasingBlock : Nat := 0
  headValid : Bool := true
  trDropMissed : Nat := 0
  trDropMs  : Nat := 0
  trDropWritten : Bool := false
  trSkipped : Nat := 0
deriving DecidableEq, Repr, Inhabited

/-- One recent request job of the check-value unit (R402). -/
structure CrcJob where
  job   : Nat := 0
  state : Byte := 0
  value : Word := 0
deriving DecidableEq, Repr, Inhabited

/-- A scan job being carried out (R400). -/
structure ScanJob where
  job    : Half := 0
  src    : Byte := 0
  poly   : Byte := 0
  mode   : Byte := 0
  start  : Word := 0
  length : Word := 0
deriving DecidableEq, Repr, Inhabited

/-- Check-value unit (16). -/
structure Crc where
  scan       : Option ScanJob := Option.none
  frameBusy  : Bool := false
  lastJob    : Half := 0
  done       : Word := 0
  misScan    : Half := 0
  misFrame   : Half := 0
  refused    : Half := 0
  last       : Word := 0
  nextJob    : Nat := 1
  jobs       : List CrcJob := []
deriving DecidableEq, Repr, Inhabited

/-- A ring of the Queue Pool (R115 to R122). Its descriptors stand in data memory. -/
structure Ring where
  base     : Nat := 0
  log2     : Nat := 0
  policy   : BitVec 2 := 0
  producer : Byte := 0
  consumer : Byte := 0
  hwm      : BitVec 4 := 0
  pi       : Word := 0
  ci       : Word := 0
  peak     : BitVec 13 := 0
  count    : Word := 0
  flagHwm  : Bool := false
  flagOvf  : Bool := false
  unalloc  : Bool := false
  lost     : Bool := false
  waiting  : List Desc := []
deriving DecidableEq, Repr, Inhabited

/-- Queue Pool (04). -/
structure Queues where
  ringSel : BitVec 10 := 0
  rings   : Sparse Ring := []
  total   : BitVec 18 := 16384
deriving DecidableEq, Repr, Inhabited

/-- One DI group's flags (DIO.GRP_STATUS). -/
structure DiGroup where
  glost  : Bool := false
  rev    : Bool := false
  sscNow : Bool := false
  ssc    : Bool := false
deriving DecidableEq, Repr, Inhabited

/-- One output's retry state (R43): failed retries, a retry in progress, and the instant it last switched on. -/
structure DoRetryState where
  retries  : BitVec 4 := 0
  retrying : Bool := false
deriving DecidableEq, Repr, Inhabited

/-- Field I/O (02). `rawRun` counts the consecutive samples in which an input's raw value has differed from its filtered
value (R33); `ackPrev` keeps the retry states that the last acknowledge cleared (R44); `readback` the terminals that read 1
from outside (R49). `cmd` is DIO.DO_STATE.CMD, the Q value applied at the last commit; `tripOff` the outputs
switched off by a trip and not restarted; `waitCommit` the outputs that follow Q only from the next commit (R43,
R48); `on` the outputs that are driven on now. -/
structure Dio where
  raw        : BitVec 32 := 0
  filt       : BitVec 32 := 0
  rawRun     : Sparse Nat := []
  opens      : BitVec 32 := 0
  openLatch  : BitVec 32 := 0
  g0         : DiGroup := {}
  g1         : DiGroup := {}
  g2         : DiGroup := {}
  g3         : DiGroup := {}
  cmd        : BitVec 16 := 0
  readback   : BitVec 16 := 0
  latched    : BitVec 16 := 0
  openLoad   : BitVec 16 := 0
  backfeed   : BitVec 16 := 0
  tripped    : BitVec 16 := 0
  openSeen   : BitVec 16 := 0
  tripOff    : BitVec 16 := 0
  waitCommit : BitVec 16 := 0
  on         : BitVec 16 := 0
  retry      : Sparse DoRetryState := []
  ackPrev    : Sparse DoRetryState := []
deriving DecidableEq, Repr, Inhabited

/-- Field I/O, second part: output group supplies, triggers, configuration (02). `trgExt` are the trigger lines that other
instruments assert, `trgDrive` those that this unit drives (R53, R54). `diFilter`, `diLm`, `doPolicy`,
`doShared` are DIO.DI_CFGn and DIO.DO_CFGn. -/
structure DioCfg where
  lostA    : Bool := false
  revA     : Bool := false
  golA     : Bool := false
  lostB    : Bool := false
  revB     : Bool := false
  golB     : Bool := false
  trgExt   : BitVec 4 := 0
  trgDrive : BitVec 4 := 0
  trgPull  : BitVec 4 := 0
  diFilter : Sparse Byte := []
  diLm     : BitVec 32 := 0
  doPolicy : BitVec 16 := 0
  doShared : BitVec 16 := 0
  frozen   : List Word := [0, 0, 0, 0, 0]
  ackSb    : BitVec 16 := 0
deriving DecidableEq, Repr, Inhabited

/-- One input pair of IOMAP (R98, R233). -/
structure PairCfg where
  mode  : Byte := 0
  tdisc : Half := 0
deriving DecidableEq, Repr, Inhabited

/-- One output of IOMAP. -/
structure DoMap where
  policy : Bool := false
  shared : Bool := false
  stop   : Bool := false
  spair  : Bool := false
deriving DecidableEq, Repr, Inhabited

/-- One publication entry of IOMAP. -/
structure PubEntry where
  block  : Byte := 0
  area   : Byte := 1
  start  : Nat := 0
  length : Nat := 1
deriving DecidableEq, Repr, Inhabited

/-- One subscription entry of IOMAP. -/
structure SubEntry where
  member  : Byte := 0
  block   : Byte := 0
  staleK  : Nat := 1
  pOffset : Nat := 0
  ring    : Nat := 64
deriving DecidableEq, Repr, Inhabited

/-- One ring of QUEUES. -/
structure RingCfg where
  ring     : Nat := 64
  log2     : Nat := 4
  policy   : Byte := 0
  producer : Byte := 0
  consumer : Byte := 0
  hwm      : Byte := 1
deriving DecidableEq, Repr, Inhabited

/-- One controller of LBUS. -/
structure CtrlCfg where
  port     : Nat := 0
  fd       : Bool := false
  nomRate  : BitVec 2 := 0
  dataRate : BitVec 2 := 0
  spNom    : Nat := 80
  spData   : Nat := 80
  tmRole   : BitVec 2 := 0
  beacon   : Bool := false
  rxRing   : Nat := 64
  txRing   : Nat := 65
  refId    : Nat := 1
  cycleMs  : Nat := 10
  guardMs  : Nat := 2
deriving DecidableEq, Repr, Inhabited

/-- One VLAN of BBSW (R313). -/
structure Vlan where
  vid    : Nat := 1
  member : BitVec 5 := 0x1F
  untag  : BitVec 5 := 0x1F
deriving DecidableEq, Repr, Inhabited

/-- The switch configuration: BBSW (R313), or the ROM default of R338, which the defaults are. -/
structure BbswCfg where
  portEn     : BitVec 4 := 0xF
  mrpRole    : Byte := 0
  mrpProfile : Byte := 0
  speed      : List Byte := [0, 0, 0, 0]
  pvid       : List Nat := [1, 1, 1, 1, 1]
  mrpPrio    : Half := 0
  agingS     : Nat := 300
  seedE      : Half := 0x5A5A
  seedW      : Half := 0xA5A5
  cpuLimit   : Nat := 20000
  mrpDomain  : Bytes := []
  tcMap      : List Byte := [0, 1, 2, 3, 4, 5, 6, 7]
  vlans      : List Vlan := [{}]
deriving DecidableEq, Repr, Inhabited

/-- One analogue channel of ACQ (R263); `gain` is the REAL32 image. -/
structure ChCfg where
  gain   : Word := 0x3F800000
  unit   : Byte := 0
  hyst   : Nat := 1
  lowTh  : Nat := 0
  highTh : Nat := 0
  retTh  : Nat := 0
  hcMax  : Nat := 10
deriving DecidableEq, Repr, Inhabited

/-- One tariff schedule entry of ACQ. -/
structure SchedEntry where
  wday   : Byte := 0
  hour   : Nat := 0
  minute : Nat := 0
  tariff : Nat := 0
deriving DecidableEq, Repr, Inhabited

/-- The ACQ section (R263). -/
structure AcqCfg where
  grpEn    : BitVec 2 := 1
  kA       : Nat := 0
  kB       : Nat := 0
  pretrig  : Nat := 0
  recLen   : Nat := 64
  ring     : Nat := 64
  trigOut  : Byte := 0xFF
  trigEn   : BitVec 6 := 0
  diMask   : Word := 0
  diEdge   : Byte := 0
  diSrc    : Byte := 0
  trgMask  : BitVec 4 := 0
  aiCh     : Nat := 0
  aiLevel  : Int := 0
  aiSlope  : Nat := 1
  aiDir    : Byte := 0
  periodMs : Nat := 1
  ch       : List ChCfg := []
  phaseEn  : BitVec 3 := 0
  vSel     : BitVec 3 := 0
  failN    : Nat := 1
  retN     : Nat := 1
deriving DecidableEq, Repr, Inhabited

/-- The metering block of ACQ (R263). -/
structure MtrCfg where
  demandMin : Nat := 15
  tariffSrc : Byte := 0
  tariffDi  : Nat := 0
  defTariff : Nat := 0
  tariffP   : Nat := 0
  sched     : List SchedEntry := []
  ledger    : Bool := false
deriving DecidableEq, Repr, Inhabited

/-- Modes of a reflex network on its output (R160). -/
inductive NetMode where
  | or | and | replace
deriving DecidableEq, Repr

/-- One reflex network: output, mode and rung code words (R160). -/
structure Net where
  out  : Nat := 0
  mode : NetMode := .or
  code : List Word := []
deriving DecidableEq, Repr

/-- The REFLEX section (R98, R160). -/
structure ReflexCfg where
  nets    : List Net := []
  outMask : BitVec 16 := 0
  cells   : Nat := 1
deriving DecidableEq, Repr

/-- The PANEL section. -/
structure PanelCfg where
  lockS     : Nat := 0
  pressDeb  : Byte := 20
  relDeb    : Byte := 20
  stuckS    : Byte := 30
  contrast  : Byte := 128
  userLen   : Nat := 1
  svcLen    : Nat := 1
  salt      : Bytes := []
  userDig   : Bytes := []
  svcDig    : Bytes := []
deriving DecidableEq, Repr, Inhabited

/-- A retentive range of AREAS (R99): area, START, COUNT. -/
structure RetRange where
  area  : Area := .m
  start : Nat := 0
  count : Nat := 0
deriving DecidableEq, Repr

/-- A pressed Mould: every field of its header and sections (R95 to R99). -/
structure Mould where
  testedSet : Word := 0
  issues    : Half := 0
  build     : Word := 0
  digest    : Bytes := []
  plantId   : Half := 0
  member    : Byte := 0
  pair      : Bool := false
  partner   : Byte := 0
  shared    : Bool := false
  name      : Bytes := []
  clocks    : Byte := 0
  power     : Byte := 0
  iBase     : Nat := 0
  qBase     : Nat := 0
  di        : List (Nat × Bool) := []
  pairs     : List PairCfg := []
  douts     : List DoMap := []
  trgPull   : BitVec 4 := 0
  pubs      : List PubEntry := []
  subs      : List SubEntry := []
  rings     : List RingCfg := []
  term      : BitVec 4 := 0
  ctrls     : List CtrlCfg := []
  bbsw      : Option BbswCfg := Option.none
deriving DecidableEq, Repr

/-- The rest of a pressed Mould: ACQ, REFLEX, PANEL, LAP, AREAS and the bytes that pairing (R107) and REPRESS (R109) compare. -/
structure MouldRest where
  acq       : Option (AcqCfg × MtrCfg) := Option.none
  reflex    : Option ReflexCfg := Option.none
  panel     : PanelCfg := {}
  tLap      : Nat := 1
  wMult     : Nat := 2
  eventMask : Word := 0
  eventPrio : List Nat := []
  dSizeKib  : Nat := 4
  ret       : List RetRange := []
  pairBytes : Bytes := []
  scopeBytes : Bytes := []
  gapBytes  : Bytes := []
  placeBytes : Bytes := []
  flowBytes : Bytes := []
  openAt : List (Nat × Nat) := []
  lbusBytes : Bytes := []
  acqBytes  : Bytes := []
  reflexBytes : Bytes := []
deriving DecidableEq, Repr

/-- A re-press in progress (R110 to R112): new image, its bank, the regions still to press (head first), those
done (latest first), and whether old contents are being restored after `failed`. -/
structure Repress where
  mould   : Mould
  rest    : MouldRest
  bank    : Bool := false
  todo    : List Nat := []
  done    : List Nat := []
  failed  : Option Nat := Option.none
  restored : Nat := 0
deriving DecidableEq, Repr

/-- The Mould block (04): the pressed Mould and the MLD registers. -/
structure Mld where
  mould      : Option (Mould × MouldRest) := Option.none
  lastCode   : Byte := 0
  failSection : Half := 0
  failOffset : Half := 0
  regions    : List (BitVec 4) := [0, 0, 0, 0]
  build      : Word := 0
  hash       : Bytes := []
  okCount    : Half := 0
  failCount  : Half := 0
  repress    : Option Repress := Option.none
deriving DecidableEq, Repr

/-- One timer's state (R141); `inp` is IN at the last call, against which TP detects a rising IN (log 53). Pair n keeps its state in timer
4,080 + n (R235): `st` the code of R235, `start` t0, `ack` the flag of R240. `restored` marks a timer whose start
stamp is formed at its first call (R149). -/
structure Timer where
  run      : Bool := false
  q        : Bool := false
  et       : Word := 0
  start    : Word := 0
  st       : BitVec 4 := 0
  ack      : Bool := false
  restored : Bool := false
  inp      : Bool := false
deriving DecidableEq, Repr, Inhabited

/-- One counter's state (R143). -/
structure Counter where
  cv   : Word := 0
  cin  : Bool := false
  done : Bool := false
deriving DecidableEq, Repr, Inhabited

/-- The areas a program writes (R136, R141, R143): the running images, and in a trial the trial state (R197).
D itself stands in data memory, from 0 or, in the trial state, from 2 MiB. -/
structure Images where
  q        : BitVec 8192 := 0
  m        : BitVec 65536 := 0
  e        : BitVec 16384 := 0
  timers   : Sparse Timer := []
  counters : Sparse Counter := []
  fresh    : List Nat := []
deriving DecidableEq, Repr

/-- The areas latched at input freeze (R126, R136). -/
structure Frozen where
  i : BitVec 8192 := 0
  s : BitVec 1024 := 0
  p : BitVec 525312 := 0
  l : BitVec 4096 := 0
  k : BitVec 32 := 0
  w : BitVec 256 := 0
deriving DecidableEq, Repr

/-- The events of one type drained at housekeeping (R130). -/
structure EventInfo where
  type  : Nat := 0
  count : Nat := 0
  tag   : Word := 0
  ts    : Word := 0
  lost  : Bool := false
deriving DecidableEq, Repr, Inhabited

/-- System-block actions that wait for commit (R125 (c), R129), in call order. Tables and frame data are those of the
call (R173, log 52). -/
inductive Action where
  | raise (type : Nat)
  | reflexEn (m0 m1 : Word)
  | doAck (mask : Half)
  | safeAck (mask : Half)
  | mwTrigger
  | lbFilter (port : Nat) (table : Bytes)
  | lbSend (port : Nat) (id : Word) (data : Bytes)
  | beaconPlan (port : Nat) (fields : List Nat)
  | lbSleep (port : Nat) (sleep20 : Nat)
  | lbWake (port : Nat)
  | pfxLoad (slots : Bytes)
  | mbWriteEn (mask : BitVec 2)
  | encSet (count : Int)
  | panelLock
deriving DecidableEq, Repr

/-- What runs between freeze and commit: nothing, the unit's own or a shadow lap, or a trial lap (R125, R197). -/
inductive Running where
  | idle | lap | shadow | trial
deriving DecidableEq, Repr

/-- A Bolis code block (R168). -/
structure CodeBlock where
  typ    : BitVec 8 := 0
  sat    : Bool := false
  trapDz : Bool := false
  number : Nat := 0
  words  : List Word := []
deriving DecidableEq, Repr, Inhabited

/-- The lap sequencer (05): number, time base, phases, fault and event registers. `nowBase` is the operating time
in µs at which LAP.NOW_MS was 0, kept as an Int so that a token can set it (R212). -/
structure Lap where
  num       : DWord := 0
  numHi     : Word := 0
  nowMs     : Word := 0
  nowBase   : Int := 0
  lastUs    : Nat := 0
  maxUs     : Word := 0
  ovr       : Word := 0
  fault     : Half := 0
  faultType : BitVec 2 := 0
  faultBlock : Half := 0
  faultOff  : Half := 0
  evtDue    : Word := 0
  retTorn   : Bool := false
  retCutoff : Bool := false
  retKib    : Half := 0
  pClip     : Word := 0
  running   : Running := .idle
  freezeUs  : Nat := 0
  nextDueUs : Nat := 0
  overran   : Bool := false
  ovrMissed : Nat := 0
  ovrLastUs : Option Nat := Option.none
deriving DecidableEq, Repr

/-- The copy for Modbus reads made at the end of each commit (R357). `d` lists the non-zero bytes of D. -/
structure MbCopy where
  q      : BitVec 8192 := 0
  m      : BitVec 65536 := 0
  d      : Mem := []
  frz    : Frozen := {}
  num    : DWord := 0
  nowMs  : Word := 0
  mgt    : Byte := 0
  cycles : Word := 0
deriving DecidableEq, Repr

/-- The lap sequencer, second part: flags of the next lap's S bits, tokens, due events, actions. `lens` holds the length of each
subscription's last image (R139), `wtOld` the words that
the last write-through replaced, and `wtEndUs` when it is through (R147). -/
structure LapCtx where
  firstLap    : Bool := false
  haltResumed : Bool := false
  tornFlag    : Bool := false
  editFirst   : Bool := false
  events      : List EventInfo := []
  dueLeft     : List Nat := []
  ranTypes    : Word := 0
  current     : Option EventInfo := Option.none
  actions     : List Action := []
  rtc         : Time := {}
  rtcOsf      : Bool := false
  rtcLbv      : Bool := false
  field       : List Word := [0, 0, 0, 0, 0]
  prevUs      : Word := 0
  ages        : List Nat := []
  stale       : List Bool := []
  lens        : List Nat := []
  markerOpen  : Bool := false
  markerLap   : DWord := 0
  wtOld       : List (Nat × Bytes) := []
  wtEndUs     : Nat := 0
  cutoffSaid  : Bool := false
  lastWtLap   : DWord := 0
  mbCopy      : MbCopy := {}
  pairResult  : BitVec 16 := 0
  pairFault   : BitVec 16 := 0
  pairReady   : BitVec 16 := 0
deriving DecidableEq, Repr

/-- One entry of the branch stack (R154): BA, FC, and OP as 0 AND, 1 ANDN, 2 OR, 3 ORN, 4 XOR, 5 XORN. -/
structure BranchEntry where
  ba : Bool
  fc : Bool
  op : BitVec 3
deriving DecidableEq, Repr

/-- The Bit Unit (06). `stack` has its top at the head. `badParity` names image-memory words whose stored parity
is bad (R159): 32-bit words of an area, bad from the command that brings the upset until PD4 goes off (DESIGN CHOICE, log 76). -/
structure Bu where
  ba        : Bool := false
  fc        : Bool := true
  stack     : List BranchEntry := []
  trap      : Bool := false
  under     : Bool := false
  parity    : Bool := false
  maxDepth  : BitVec 5 := 0
  instr     : DWord := 0
  instrHi   : Word := 0
  lapBits   : Word := 0
  curBits   : Word := 0
  badParity : List (Area × Nat) := []
deriving DecidableEq, Repr

/-- The reflex networks (06): enable masks, results, delay counters per network, activity, held commands, and which outputs
enabled networks drove when the commands were held (R110). -/
structure Reflex where
  nets   : BitVec 7 := 0
  cells  : BitVec 13 := 0
  active : Bool := false
  en0    : Word := 0xFFFFFFFF
  en1    : Word := 0xFFFFFFFF
  res    : BitVec 64 := 0
  delays : List (List Nat) := []
  held   : BitVec 16 := 0
  driven : BitVec 16 := 0
  hold   : Bool := false
deriving DecidableEq, Repr, Inhabited

/-- A return position (R170): block type, number and word offset. -/
structure Frame where
  typ    : BitVec 8 := 0
  number : Nat := 0
  offset : Nat := 0
deriving DecidableEq, Repr, Inhabited

/-- The word path (07). `pos` is the position of the next instruction; `ended` tells that MAIN and every due event
block have returned. -/
structure Bx where
  acc1   : Word := 0
  acc2   : Word := 0
  acx    : BitVec 40 := 0
  z      : Bool := false
  n      : Bool := false
  c      : Bool := false
  v      : Bool := false
  vs     : Bool := false
  dz     : Bool := false
  gov    : Bool := false
  fe     : Bool := false
  pos    : Frame := {}
  ended  : Bool := false
  calls  : List Frame := []
  level  : BitVec 6 := 0
  maxLevel : BitVec 6 := 0
  statusFlags : Byte := 0
  lapSticky : Byte := 0
  curSticky : Byte := 0
  seen   : BitVec 4 := 0
  words  : DWord := 0
  wordsHi : Word := 0
  lapWords : Word := 0
  curWords : Word := 0
  dzCount : Word := 0
deriving DecidableEq, Repr

/-- The program store and the verifier's registers (07). `progHash` is the SHA-256 of the running program. -/
structure Program where
  blocks    : List CodeBlock := []
  progHash  : Bytes := []
  verCode   : Byte := 0
  verType   : BitVec 2 := 0
  verNumber : Half := 0
  verPos    : Word := 0
deriving DecidableEq, Repr, Inhabited

/-- Edit states (LAP.EDIT_STATUS.STATE). -/
inductive EditState where
  | none | loading | loaded | trial | ripe | adopting
deriving DecidableEq, Repr

/-- The held edit and the trial (08). `aborted` tells that the held edit's trial was aborted, `trialFirst` is its first trial lap,
`lap` the adoption lap while ADOPTING and `lastLap` that of the last adoption. -/
structure Edit where
  state     : EditState := .none
  result    : Byte := 0
  abort     : BitVec 4 := 0
  chain     : BitVec 12 := 0
  lap       : DWord := 0
  lapHi     : Word := 0
  trialRun  : BitVec 14 := 0
  trialDiff : BitVec 14 := 0
  prog      : List CodeBlock := []
  newHash   : Bytes := []
  newCells  : List Nat := []
  build     : Word := 0
  entries   : Nat := 0
  window    : Nat := 0
  trial     : Option Images := Option.none
  reports   : List Bytes := []
  faultCode : Half := 0
  peerWait  : Bool := false
  peerWaitUs : Nat := 0
  tries     : Nat := 0
  acked     : Bool := false
  adoptNow  : Bool := false
  fwdBytes  : Bytes := []
  peerReport : Bytes := []
  package   : Bytes := []
  confirmed : Bool := false
  aborted   : Bool := false
  trialFirst : DWord := 0
  lastLap   : DWord := 0
deriving DecidableEq, Repr

/-- Pacer and pairing conditions (SBY.STATUS.COND). -/
inductive Cond where
  | unpaired | tracking | resync | detached | withdrawn | refused | migrating | leading
deriving DecidableEq, Repr

/-- One lap's HASH values (R213). -/
structure HashVal where
  lap     : DWord := 0
  qCrc    : Word := 0
  present : Bool := false
  valid   : Bool := false
  ackAdopt : Bool := false
  ackBaton : Bool := false
  digest  : Word := 0
deriving DecidableEq, Repr, Inhabited

/-- Hot standby (09), the SBY registers. -/
structure Sby where
  lock      : Bool := false
  sfp       : Bool := false
  los       : Bool := false
  txFault   : Bool := false
  cond      : Cond := .unpaired
  window    : Bool := false
  reason    : BitVec 4 := 0
  pState    : BitVec 4 := 0
  pRole     : BitVec 4 := 0
  pCond     : BitVec 4 := 0
  pMember   : Byte := 0
  diverge   : Byte := 0
  late      : Byte := 0
  digestSkip : Byte := 0
  crcErr    : Byte := 0
  lagUs     : Half := 0
  lagLaps   : Half := 0
  rsMs      : BitVec 12 := 0
  rsPasses  : BitVec 4 := 0
  rsKib     : Half := 0
  rxPwr     : Half := 0
  txPwr     : Half := 0
  takeovers : Half := 0
  batons    : Half := 0
deriving DecidableEq, Repr, Inhabited

/-- Hot standby, the engine behind the registers (09). `lsQueue` holds complete LAPSTARTs that wait for the shadow lap
in progress (log 37). `admission` is what the last HELLO decided by R226: 0 nothing yet, 1 shadow-lap pairing, 2 migration,
2 + r refused with reason r. `everSeen` tells that the partner's HELLO or HEARTBEAT has come (R228), `prevSlackUs` is the previous
lap's slack (R217), `ownFreeze` tells that the first lap of a takeover freezes at the end of the commit in progress (R221). -/
structure SbyCtx where
  lastRxUs    : Option Nat := Option.none
  partnerRunMs : Nat := 0
  everSeen    : Bool := false
  probing     : Bool := false
  pxSeen      : Bool := false
  dualLead    : Bool := false
  saidReasons : List Nat := []
  missingSaid : Bool := false
  divTimes    : List Nat := []
  ownHashes   : List HashVal := []
  gotHashes   : List HashVal := []
  ignoring    : Bool := false
  digest      : Word := 0xFFFFFFFF
  digestValid : Bool := true
  digestSlice : Nat := 0
  rsActive    : Bool := false
  rsStartLap  : DWord := 0
  rsStartUs   : Nat := 0
  rsOffset    : Nat := 0
  rsMarked    : List Nat := []
  batonB      : DWord := 0
  batonConf   : Bool := false
  batonAck    : Bool := false
  adoptAck    : Bool := false
  lsRxUs      : Nat := 0
  shadowLap   : DWord := 0
  migrating   : Bool := false
  batonKeep   : Bool := false
  prevImg     : Images := {}
  prevD       : Mem := []
  prevEn      : DWord := 0
  held        : Bool := false
  lsQueue     : List (Nat × Bytes) := []
  admission   : Nat := 0
  prevSlackUs : Nat := 0
  ownFreeze   : Bool := false
  written     : List Nat := []
  trialDue    : Bool := false
deriving DecidableEq, Repr, Inhabited

/-- Safety inputs and outputs and the BTP (10). `result`, `fault`, `states` are the SAF registers as of the last
commit. -/
structure Saf where
  result     : BitVec 16 := 0
  fault      : BitVec 16 := 0
  states     : List (BitVec 4) := []
  stuck      : Byte := 0
  mismatch   : Byte := 0
  chFail     : BitVec 16 := 0
  disc       : Half := 0
  ackIgnored : Half := 0
  btpValid   : Bool := false
  mainsOk    : Bool := false
  transfer   : Bool := false
  rescue     : Bool := false
  failT      : Nat := 0
  retT       : Nat := 0
  btpFirst   : Bool := true
  btpOn      : Bool := false
deriving DecidableEq, Repr, Inhabited

/-- A capture in progress (R258). -/
structure Capture where
  trigUs  : Nat := 0
  sources : BitVec 6 := 0
  detail  : Word := 0
  extra   : Half := 0
  nextGroup : Nat := 0
  set     : Nat := 0
  armedUs : Nat := 0
deriving DecidableEq, Repr, Inhabited

/-- Phase state of the half-cycle evaluation (R255). -/
structure Phase where
  fail : Bool := true
  low  : Nat := 0
  ret  : Nat := 0
deriving DecidableEq, Repr, Inhabited

/-- The half-cycle window that runs on a channel (R253): samples so far, their sum of squares, whether one was over-range,
the side of the hysteresis last reached (0 none, 1 below, 2 above), and the last code. -/
structure Win where
  n     : Nat := 0
  sumSq : Nat := 0
  ovr   : Bool := false
  side  : Nat := 0
  last  : Int := 0
deriving DecidableEq, Repr, Inhabited

/-- Mains Watch (11): ACQ registers, W bits, records. `raisedDi` and `raisedTrg` are the DI and the TRG line that raised their
source first; `armWait` tells that the unit re-arms when a buffer set becomes free (R258). -/
structure Acq where
  sampling  : Bool := false
  startUs   : Nat := 0
  recSeq    : Word := 0
  lost      : Half := 0
  extra     : Half := 0
  ovrNow    : Byte := 0
  ovrSeen   : Byte := 0
  hcRms     : List (BitVec 24) := [0, 0, 0, 0, 0, 0, 0, 0]
  w         : BitVec 256 := 0
  ph0       : Phase := {}
  ph1       : Phase := {}
  ph2       : Phase := {}
  capture   : Option Capture := Option.none
  raised    : BitVec 6 := 0
  raisedDi  : Nat := 0
  raisedTrg : Nat := 0
  armedUs   : Nat := 0
  armWait   : Bool := false
  wins      : Sparse Win := []
deriving DecidableEq, Repr, Inhabited

/-- A demand interval (R269, R270): flags byte, start stamps, energies in µWh. -/
structure Interval where
  flags   : Byte := 0
  tariff  : Nat := 0
  rtc     : Time := {}
  optMs   : Nat := 0
  durMs   : Nat := 0
  eImp    : Nat := 0
  eExp    : Nat := 0
deriving DecidableEq, Repr, Inhabited

/-- A metering snapshot (R273). -/
structure Snapshot where
  seq     : Nat := 0
  imp     : List Nat := [0, 0, 0, 0]
  exp     : List Nat := [0, 0, 0, 0]
  md      : List Nat := [0, 0, 0, 0]
  chg     : Nat := 0
  dis     : Nat := 0
  tariff  : Nat := 0
  run     : Interval := {}
  iseq    : Word := 0
  rtc     : Time := {}
  optMs   : Nat := 0
  osf     : Bool := false
deriving DecidableEq, Repr, Inhabited

/-- The sums of one metering tick (R265, R266): of how many samples they are, how many samples' time the tick lasts, Σ v·i in raw
LSB² of phases 0 to 2, and Σ of the battery current channel AI6 in raw LSB. -/
structure TickSums where
  n    : Nat := 2500
  dur  : Nat := 2500
  vi0  : Int := 0
  vi1  : Int := 0
  vi2  : Int := 0
  batt : Int := 0
deriving DecidableEq, Repr, Inhabited

/-- Metering (11): MTR registers and the running interval. Energies in µWh, ledger in µAh. The two copies of the snapshot
stand in MRAM; `lastWasB` tells which was written last, `gridUs` when metering began at this start (R271). -/
structure Mtr where
  running   : Bool := false
  tariff    : Nat := 0
  frozen    : Bool := false
  frozenPfw : Bool := false
  snapLost  : Bool := false
  selTariff : BitVec 2 := 0
  selIndex  : BitVec 10 := 0
  imp       : List Nat := [0, 0, 0, 0]
  exp       : List Nat := [0, 0, 0, 0]
  md        : List Nat := [0, 0, 0, 0]
  power     : List Int := [0, 0, 0]
  chg       : Nat := 0
  dis       : Nat := 0
  logNext   : BitVec 10 := 0
  logWraps  : BitVec 22 := 0
  interval  : Interval := {}
  iseq      : Word := 0
  lastWasB  : Bool := true
  restored  : Option Snapshot := Option.none
  impHi     : Word := 0
  expHi     : Word := 0
  pendingSet : Bool := false
  gridUs    : Nat := 0
  lastTick  : TickSums := {}
deriving DecidableEq, Repr, Inhabited

/-- A filter table entry (R284). -/
structure FilterEntry where
  id      : Word := 0
  mask    : Word := 0
  srcBit  : Nat := 0
  width   : Nat := 1
  live    : Bool := false
  lIndex  : Nat := 0
  timeout : Nat := 0
deriving DecidableEq, Repr, Inhabited

/-- A test running on a node (R301, R302): TEST_ID, start, LENGTH in s or min. -/
structure RunningTest where
  id      : Word := 0
  startUs : Nat := 0
  length  : Nat := 0
  aborted : Bool := false
deriving DecidableEq, Repr, Inhabited

/-- A Beacon node as the unit sees it (R298, R302, R306, R307). `voter` marks a node PRESENT at the end of a proposal
or of the sleep, `heard` one heard since a timed wake, `resyncNew` a RESYNC set by the frame being processed. -/
structure Node where
  present   : Bool := false
  missing   : Bool := false
  faults    : Byte := 0
  lastUs    : Nat := 0
  resync    : Bool := false
  resyncNew : Bool := false
  heard     : Bool := false
  voter     : Bool := false
  voted     : Bool := false
deriving DecidableEq, Repr, Inhabited

/-- The record of a node's tests in MRAM: of the last function and the last duration test the day since 1 January 2000,
TEST_ID and result, and when the last duration test ended (R300); and the tests that run, `ft` the newest first (R305). -/
structure NodeTests where
  ftDay    : Nat := 0
  ftId     : Word := 0
  ftResult : Byte := 0
  dtDay    : Nat := 0
  dtId     : Word := 0
  dtResult : Byte := 0
  dtEndMs  : Option Nat := Option.none
  ft       : List RunningTest := []
  dt       : Option RunningTest := Option.none
deriving DecidableEq, Repr, Inhabited

/-- What the test schedule of a bus goes on from, in MRAM (R301, R305): the group last started, and the next TEST_ID. -/
structure BusSched where
  group      : Nat := 0
  started    : Bool := false
  nextTestId : Word := 0
deriving DecidableEq, Repr, Inhabited

/-- A Beacon plan (R299), with its defaults. -/
structure Plan where
  enable    : Bool := false
  ftDays    : Nat := 28
  ftSec     : Nat := 30
  dtDays    : Nat := 364
  dtMin     : Nat := 180
  sharePct  : Nat := 25
  testHour  : Nat := 2
  rechargeH : Nat := 24
deriving DecidableEq, Repr, Inhabited

/-- Controller states (LBn.STATUS.STATE). -/
inductive LbState where
  | absent | listen | normal | busOff | recovering | pressing
deriving DecidableEq, Repr

/-- Sleep phases (LBn.SLEEP.PHASE). -/
inductive SleepPhase where
  | awake | voting | settling | asleep
deriving DecidableEq, Repr

/-- One landing-bus port (12): LBn registers. -/
structure Lb where
  cfg       : Option CtrlCfg := Option.none
  term      : Bool := false
  state     : LbState := .absent
  passive   : Bool := false
  polarity  : Bool := false
  tm        : BitVec 3 := 0
  conflict  : Bool := false
  tec       : Nat := 0
  recCnt    : Nat := 0
  lastErr   : BitVec 4 := 0
  rx        : DWord := 0
  rxHi      : Word := 0
  tx        : DWord := 0
  txHi      : Word := 0
  rxDrop    : Half := 0
  txDiscard : Half := 0
  errFrames : Half := 0
  busOffs   : Byte := 0
  fdSeen    : Byte := 0
  short     : Half := 0
  cycle     : Word := 0
  masterUs  : DWord := 0
  masterHi  : Word := 0
  resumeState : LbState := .listen
  via       : Byte := 0
deriving DecidableEq, Repr, Inhabited

/-- One landing-bus port, the engines behind the registers: time master, filters, Beacon, sleep (12). `refRxUs` is the
start of the last REF_ID reference from another node, `refAnyUs` that of the last reference of either identifier
received; `refRxBndUs` and `seenBndUs` are the nominal boundaries of these, `seenCycle` and `seenUs` what the last one carried.
`bndCycle` and `bndUs` are cycle and time of the unit's own last boundary, `foreign` a deferral already noted (R295),
`refWait` a reference that waits under POLARITY, `waker` the node whose frame was stored first in the present settle window. -/
structure LbCtx where
  epoch      : Half := 0
  refRxUs    : Option Nat := Option.none
  refAnyUs   : Option Nat := Option.none
  refRxBndUs : Option Nat := Option.none
  seenBndUs  : Option Nat := Option.none
  seenCycle  : Word := 0
  seenUs     : DWord := 0
  bndCycle   : Word := 0
  bndUs      : DWord := 0
  foreign    : Bool := false
  refWait    : Option CanFrame := Option.none
  waker      : Option Nat := Option.none
  skip       : Nat := 0
  table      : List FilterEntry := []
  nextTable  : Option (List FilterEntry) := Option.none
  liveUs     : Sparse (Option Nat) := []
  inbox      : List (Nat × CanFrame) := []
  rxDropped  : Bool := false
  phase      : SleepPhase := .awake
  last       : BitVec 3 := 0
  timed      : Bool := false
  sleep20    : Byte := 0
  wantSleep20 : Nat := 0
  wake       : BitVec 2 := 0
  sleepEndUs : Nat := 0
  plan       : Plan := {}
  nodes      : Sparse Node := []
  group      : BitVec 5 := 0
deriving DecidableEq, Repr, Inhabited

/-- The landing buses and the L area (12). `tests`, keyed by 128 × port + node, and `sched`, keyed by port, stand in MRAM. `lLive` collects filter outputs; `lImage` is the last complete image. -/
structure Landing where
  p0     : Lb := {}
  p1     : Lb := {}
  p2     : Lb := {}
  p3     : Lb := {}
  x0     : LbCtx := {}
  x1     : LbCtx := {}
  x2     : LbCtx := {}
  x3     : LbCtx := {}
  tests  : Sparse NodeTests := []
  sched  : Sparse BusSched := []
  mainsOkUs : Option Nat := Option.none
  lOut   : BitVec 2048 := 0
  lImage : BitVec 4096 := 0
deriving DecidableEq, Repr, Inhabited

/-- A MAC table entry (R318); `perr` marks bad stored parity. -/
structure MacEntry where
  mac    : BitVec 48 := 0
  vid    : BitVec 12 := 0
  ports  : BitVec 5 := 0
  valid  : Bool := false
  static : Bool := false
  age    : Nat := 0
  perr   : Bool := false
  said   : Bool := false
deriving DecidableEq, Repr, Inhabited

/-- A prefix slot (R322). -/
structure PfxSlot where
  key    : Word := 0
  mask   : Word := 0
  vid    : BitVec 12 := 0
  typ    : Byte := 0
  plen   : Byte := 0
  action : Byte := 0
  cls    : Byte := 0
  perr   : Bool := false
  said   : Bool := false
deriving DecidableEq, Repr, Inhabited

/-- A deferred learning event (R332): MAC, VID, port. -/
structure LearnEvent where
  mac  : BitVec 48
  vid  : BitVec 12
  port : Nat
deriving DecidableEq, Repr

/-- One ingress pipeline (R316 to R332). MAC bytes in transmission order, byte 0 in bits 47:40. -/
structure Pipe where
  macs      : Sparse MacEntry := []
  pfx       : Sparse PfxSlot := []
  seed      : Half := 0
  learnFull : Word := 0
  moves     : Word := 0
  deferred  : Half := 0
  dropped   : Half := 0
  perrMac   : Half := 0
  perrPfx   : Half := 0
  infoIndex : BitVec 13 := 0
  infoPfx   : Bool := false
  rehashDrop : Word := 0
  queue     : List LearnEvent := []
deriving DecidableEq, Repr, Inhabited

/-- One switch port: its registers (BBS.Pn), its class queues in ascending class, and the frame that it sends with the bit
times left (R335). -/
structure Port where
  queues   : List (List (Bool × Bytes)) := [[], [], [], [], [], [], [], []]
  sending  : Option ((Bool × Bytes) × Nat) := Option.none
  up       : Bool := false
  speed    : BitVec 2 := 0
  full     : Bool := false
  mrp      : BitVec 2 := 0
  mdix     : Bool := false
  rx       : DWord := 0
  rxHi     : Word := 0
  tx       : DWord := 0
  txHi     : Word := 0
  rxErr    : Half := 0
  txDrop   : Half := 0
  ingress  : Half := 0
  pfx      : Half := 0
  flooded  : Half := 0
  filtered : Half := 0
deriving DecidableEq, Repr, Inhabited

/-- A change of the link of ring port `port` that an MRP client tells its manager: `left` MRP_LinkChange frames are still to be
sent, the next at `atUs` (log 45). -/
structure LinkChange where
  port : Nat
  up   : Bool
  left : Nat := 4
  atUs : Nat := 0
deriving DecidableEq, Repr

/-- The backbone switch (13). `flood` says that the flood limit of R338 is imposed (R340); `mrpSeq`, `mrpTrans` and
`mrpTestUs` are the MRP manager's sequence number, transition count and next test frame, `topoLeft` and `topoUs` the
MRP_TopologyChange frames that it still sends and when, `lnk` the client's link change (log 45). -/
structure Switch where
  config    : BitVec 2 := 0
  flood     : Bool := false
  mrpSeq    : Half := 0
  mrpTrans  : Half := 0
  mrpTestUs : Nat := 0
  topoLeft  : Nat := 0
  topoUs    : Nat := 0
  lnk       : Option LinkChange := Option.none
  ring      : BitVec 2 := 0
  ringOpenUs : Nat := 0
  mac       : BitVec 48 := 0
  cpuDrop   : Word := 0
  stormDrop : Word := 0
  topo      : Half := 0
  opens     : Half := 0
  cfg       : BbswCfg := {}
  ports     : List Port := [{}, {}, {}, {}, {}]
  tokens    : Nat := 0
  tokenUs   : Nat := 0
  storm     : List (Nat × Nat) := [(0, 0), (0, 0), (0, 0), (0, 0), (0, 0)]
deriving DecidableEq, Repr, Inhabited

/-- A DMA job as it was started (R331): table, pipeline, direction, offset, first index and count, when it was started, and how
many of its entries are moved. -/
structure DmaJob where
  table : Bool := false
  pipe  : Bool := false
  dir   : Bool := false
  addr  : Nat := 0
  first : Nat := 0
  count : Nat := 0
  atUs  : Nat := 0
  done  : Nat := 0
deriving DecidableEq, Repr, Inhabited

/-- The table interface (TBL registers); `dmaJob` is the running DMA job. -/
structure Tbl where
  e         : Pipe := {}
  w         : Pipe := {}
  args      : List Word := [0, 0, 0, 0]
  found     : Bool := false
  status    : Byte := 0
  res       : List Word := [0, 0, 0, 0]
  resIndex  : BitVec 13 := 0
  held      : Bool := false
  owner     : Byte := 0
  heldUs    : Nat := 0
  timeout   : Bool := false
  dmaTable  : Bool := false
  dmaPipe   : Bool := false
  dmaDir    : Bool := false
  dmaJob    : Option DmaJob := Option.none
  dmaErr    : BitVec 2 := 0
  dmaAddr   : BitVec 24 := 0
  dmaFirst  : BitVec 13 := 0
  dmaCount  : BitVec 14 := 0
  rehash    : Option (Bool × Half) := Option.none
  pfxWait   : Option Bytes := Option.none
deriving DecidableEq, Repr, Inhabited

/-- A plant member (R345, R349, R351, R353). -/
structure Member where
  present : Bool := false
  lastUs  : Nat := 0
  session : Option Word := Option.none
  imgSeq  : Option Word := Option.none
  joined  : Bool := false
  reqSeq  : Sparse Nat := []
deriving DecidableEq, Repr, Inhabited

/-- A request accepted from PX and waiting for its answer (R354). -/
structure PendingReq where
  member : Byte := 0
  role   : Byte := 0
  seq    : Word := 0
  src    : NetSrc := {}
  mac    : Bytes := []
  body   : Bytes := []
  path   : Byte := 2
  key    : Option Bytes := Option.none
deriving DecidableEq, Repr, Inhabited

/-- To whom a response goes: path code, CODE, TAG, and the PX request where the path is PX or the mailbox (R371). -/
structure Asked where
  path : Byte := 0
  code : Byte := 0
  tag  : Word := 0
  px   : Option PendingReq := Option.none
deriving DecidableEq, Repr, Inhabited

/-- The last request accepted from a member and role, with its stored response (R353). -/
structure LastReq where
  member   : Byte
  role     : Byte
  seq      : Word
  mac      : Bytes
  response : Bytes := []
deriving DecidableEq, Repr

/-- A Modbus connection: its number and peer. -/
structure MbConn where
  id  : Nat
  src : NetSrc
deriving DecidableEq, Repr

/-- A Modbus write waiting for the freeze (R359): function code, table address, values (bits or registers), and
for function 23 the read part. -/
structure MbWrite where
  conn   : Nat
  tid    : Half
  unit   : Byte
  fc     : Byte
  coil   : Bool
  addr   : Nat
  values : List Half
  rdAddr : Nat := 0
  rdQty  : Nat := 0
  state  : BitVec 2 := 0
deriving DecidableEq, Repr

/-- Plant Exchange and Modbus (14). `reportTo` lists the requests that wait for a trial-lap report of the pacer, at most one, behind which
the others are held (R195, R374); `preId` stands for MEMBER and PLANT_ID while no Mould is pressed (log 26). -/
structure Px where
  muted     : Bool := false
  duplicate : Bool := false
  mbEn      : BitVec 2 := 0
  conns     : List MbConn := []
  nextConn  : Nat := 0
  session   : Word := 0
  preId     : Word := 0
  auth      : Half := 0
  busy      : Half := 0
  bad       : Half := 0
  unmatched : Half := 0
  timeOff   : Word := 0
  members   : Sparse Member := []
  seqTx     : Word := 0
  blocked   : List NetAddr := []
  authFails : List (NetAddr × Nat) := []
  pending   : List PendingReq := []
  last      : List LastReq := []
  pubSeen   : List (Byte × Byte × Nat) := []
  pubSaidUs : Option Nat := Option.none
  writes    : List MbWrite := []
  reportTo  : List Asked := []
deriving DecidableEq, Repr

/-- A package in delta staging (R427). -/
structure Staged where
  pkg      : Word := 0
  total    : Nat := 0
  received : Nat := 0
  data     : Bytes := []
deriving DecidableEq, Repr, Inhabited

/-- An application bank's markers (R442): PKG, Tested Set, and the chained edits with the edited program (R194). -/
structure Bank where
  pkg   : Option Word := Option.none
  set   : Word := 0
  chain : List Bytes := []
  prog  : Bytes := []
deriving DecidableEq, Repr, Inhabited

/-- Update journal states (UPD.STATUS.STATE). -/
inductive JournalState where
  | idle | patching | committed | dead
deriving DecidableEq, Repr

/-- Updates (18): the update journal, staging, banks and UPD registers; all of it in MRAM or flash. `prepared` is
the block buffer with its operation number; `slot` is the manifest slot in force and `commits` the sequence number of the last
commit record. `headSeq` numbers the writes of the journal header, whose copies take them in turn (R435), `deadCause` is the cause of
DEAD in it (R440). `copiesOk` and `bufferOk` tell whether, at the last start that found PATCHING, a copy of the header and the block
buffer held their CRC in MRAM (R436). -/
structure Upd where
  journal   : JournalState := .idle
  accepting : Bool := false
  kind      : BitVec 2 := 0
  code      : Byte := 0
  part      : Byte := 0
  opsDone   : Nat := 0
  opsTotal  : Nat := 0
  prepared  : Option (Nat × Bytes) := Option.none
  bufferOk  : Bool := true
  copiesOk  : Bool := true
  sys       : Option Staged := Option.none
  app       : Option Staged := Option.none
  edit      : Option Staged := Option.none
  nextPkg   : Word := 1
  active    : Bool := false
  pending   : Bool := false
  attempts  : Nat := 0
  bankA     : Bank := {}
  bankB     : Bank := {}
  manifest  : Bytes := []
  newSet    : Word := 0
  slot      : Bool := false
  commits   : Word := 0
  headSeq   : Word := 0
  deadCause : Byte := 0
  partVer   : List Word := [0, 0, 0, 0, 0, 0, 0]
  running   : Byte := 0
  inUse     : Bool := false
  restore   : Option Bytes := Option.none
  restoreOk : Bool := false
deriving DecidableEq, Repr, Inhabited

/-- An event of the backup domain whose record waits for the next start (R426): OSF set by a cause, the alarm matched, LBV set or
cleared at a voltage in mV. -/
inductive RtcNote where
  | osf (cause : Nat)
  | alarm
  | lbv (set : Bool) (mv : Half)
deriving DecidableEq, Repr

/-- The real-time clock and backup registers (17), in PD0. `notes` are the events whose records the next start writes, oldest
first. -/
structure Rtc where
  time     : Time := {}
  secUs    : Nat := 0
  hiLatch  : Word := 0x07D00101
  subLatch : BitVec 15 := 0
  osf      : Bool := true
  notes    : List RtcNote := []
  lbv      : Bool := false
  alarmEn  : Bool := false
  alarmHit : Bool := false
  pwrOn    : Bool := false
  alarm    : Time := { year := 0xFFFF, month := 0xFF, day := 0xFF, hour := 0xFF, minute := 0xFF, second := 0xFF, weekday := 0xFF }
  bat      : Half := 0
  batLowUs : Nat := 0
  bkp      : List Word := [0, 0, 0, 0, 0, 0, 0, 0]
  armed    : Bool := false
  active   : BitVec 4 := 0
deriving DecidableEq, Repr, Inhabited

/-- The front panel (17). `raw` is the last scan, and `bounce` for how many scans a key's raw state has differed from its debounced one
(R415). `wrong` and `lockoutEnd` stand in the backup state region of MRAM (R422). -/
structure Panel where
  delivered : BitVec 21 := 0
  raw       : BitVec 21 := 0
  pressed   : BitVec 21 := 0
  stuck     : BitVec 21 := 0
  bounce    : List Nat := []
  pressUs   : Sparse Nat := []
  locked    : Bool := false
  entry     : Option (List Nat) := Option.none
  entryUs   : Nat := 0
  lastPushUs : Option Nat := Option.none
  wrong     : Nat := 0
  lockoutEnd : Option Nat := Option.none
  enc       : Int := 0
  lastActUs : Nat := 0
deriving DecidableEq, Repr, Inhabited

/-- A PX frame that the unit sends: to which address and port, from which port, its TTL where the manual gives one, and its bytes
(R343). -/
structure Datagram where
  ip      : NetAddr
  port    : Half := 41720
  srcPort : Half := 41720
  ttl     : Option Nat := Option.none
  frame   : Bytes := []
deriving DecidableEq, Repr

/-- An answer of ARP or of neighbour discovery: to which address and MAC address, and on which VLAN (R342). -/
structure ArpAnswer where
  ip  : NetAddr
  mac : BitVec 48
  vid : Nat := 1
deriving DecidableEq, Repr

/-- An echo reply: to which address and MAC address, on which VLAN, in which address family, and what it carries back (R342). -/
structure EchoAnswer where
  ip    : NetAddr
  mac   : BitVec 48
  vid   : Nat := 1
  v6    : Bool := false
  ident : Half := 0
  seq   : Half := 0
  data  : Bytes := []
deriving DecidableEq, Repr

/-- What the unit has put on its ports, newest first: the model's own record of its outputs (log 6). -/
structure Out where
  responses : List Response := []
  sync      : List Bytes := []
  svc       : List Bytes := []
  px        : List Datagram := []
  resets    : List (NetAddr × Half) := []
  modbus    : List (Nat × Bytes) := []
  can       : List (Nat × CanFrame) := []
  eth       : List (Nat × Bool × Bytes) := []
  arp       : List ArpAnswer := []
  echo      : List EchoAnswer := []
  readData  : Word := 0
deriving DecidableEq, Repr, Inhabited

/-- The machine: every block of the manual, the stores, and the queue of waiting commands, first in first out. -/
structure State where
  clk     : Clock := {}
  power   : Power := {}
  sens    : Sensors := {}
  mgt     : Marshal := {}
  log     : Log := {}
  crc     : Crc := {}
  queues  : Queues := {}
  dio     : Dio := {}
  dioc    : DioCfg := {}
  mld     : Mld := {}
  img     : Images := {}
  frz     : Frozen := {}
  lap     : Lap := {}
  ctx     : LapCtx := {}
  bu      : Bu := {}
  rfx     : Reflex := {}
  bx      : Bx := {}
  prog    : Program := {}
  edit    : Edit := {}
  sby     : Sby := {}
  sbx     : SbyCtx := {}
  saf     : Saf := {}
  acq     : Acq := {}
  mtr     : Mtr := {}
  lb      : Landing := {}
  sw      : Switch := {}
  tbl     : Tbl := {}
  px      : Px := {}
  upd     : Upd := {}
  rtc     : Rtc := {}
  pan     : Panel := {}
  out     : Out := {}
  data    : Mem := []
  mram    : Mem := []
  flash   : Mem := []
  pending : List Instr := []
deriving DecidableEq, Repr

/-- The system rings of R122: number, log2 of the depth, policy, producer and consumer ids of R115, base slot.
The manual names several producers or consumers for some rings; the id shown is the first it names (log 11). Where the rings lie
within slots 0 to 16,383 is not stated: the base slots are the model's (DESIGN CHOICE, log 69). -/
def systemRings : List (Nat × Ring) :=
  [(0, { log2 := 6, policy := 1, producer := 0x02, consumer := 0x01, base := 0 }),
   (1, { log2 := 6, policy := 1, producer := 0x01, consumer := 0x02, base := 64 }),
   (2, { log2 := 8, policy := 1, producer := 0x01, consumer := 0x01, base := 256 }),
   (3, { log2 := 10, policy := 0, producer := 0x01, consumer := 0x01, base := 1024 }),
   (4, { log2 := 9, policy := 1, producer := 0x02, consumer := 0x06, base := 512 }),
   (5, { log2 := 9, policy := 0, producer := 0x06, consumer := 0x02, base := 2048 }),
   (6, { log2 := 11, policy := 0, producer := 0x05, consumer := 0x03, base := 4096 }),
   (7, { log2 := 10, policy := 1, producer := 0x03, consumer := 0x05, base := 3072 }),
   (8, { log2 := 8, policy := 1, producer := 0x01, consumer := 0x01, base := 2560 }),
   (12, { log2 := 6, policy := 1, producer := 0x01, consumer := 0x0D, base := 128 }),
   (13, { log2 := 6, policy := 0, producer := 0x0D, consumer := 0x01, base := 192 }),
   (14, { log2 := 12, policy := 2, producer := 0x05, consumer := 0x01, base := 8192 })] ++
  (List.range 32).map fun t =>
    (16 + t, { log2 := 6, policy := 0, producer := 0x01, consumer := 0x02, base := 12288 + 64 * t })

/-- The machine right after reset: OFF, every field at its reset value, the system rings of R122 in place, nothing
stored, no command waiting. -/
def State.reset : State := { queues := { rings := systemRings } }

end Sys2Proof.Machine
end

