-- ==== Sys2Proof/Machine/Store.lean ====
section
/-! DEFINITION. Sparse stores, byte order (R2), check values (R396) and small list helpers. -/

namespace Sys2Proof.Machine

/-- The value at key `a`; `d` where no entry stands. -/
def sget {α : Type} (d : α) : Sparse α → Nat → α
  | [], _ => d
  | (k, v) :: m, a => if k = a then v else sget d m a

/-- The store with `v` at key `a`, in canonical form: keys strictly rising, no entry equal to `d`. -/
def sput {α : Type} [DecidableEq α] (d : α) : Sparse α → Nat → α → Sparse α
  | [], a, v => if v = d then [] else [(a, v)]
  | (k, w) :: m, a, v =>
    if a < k then (if v = d then (k, w) :: m else (a, v) :: (k, w) :: m)
    else if a = k then (if v = d then m else (a, v) :: m)
    else (k, w) :: sput d m a v

/-- The store with the value at `a` changed by `f`. -/
def smod {α : Type} [DecidableEq α] (d : α) (m : Sparse α) (a : Nat) (f : α → α) : Sparse α :=
  sput d m a (f (sget d m a))

/-- Keys above `lo` and strictly rising, no entry equal to `d`, every key below `lim`. -/
def swfFrom {α : Type} [DecidableEq α] (d : α) (lim : Nat) : Nat → Sparse α → Bool
  | _, [] => true
  | lo, (k, v) :: m => decide (lo ≤ k) && decide (k < lim) && decide (v ≠ d) && swfFrom d lim (k + 1) m

/-- The canonical form of a store of `lim` places. -/
def swf {α : Type} [DecidableEq α] (d : α) (lim : Nat) (m : Sparse α) : Bool := swfFrom d lim 0 m

/-- The sizes of data memory, MRAM and flash (R22). -/
def dataSize : Nat := 0x1000000
def mramSize : Nat := 0x800000
def flashSize : Nat := 0x8000000

/-- One byte of a store of `lim` bytes whose unlisted bytes read as `d`. -/
def memGet (d : Byte) (m : Mem) (a : Nat) : Byte := sget d m a

/-- One byte written; a byte outside the store is not written. -/
def memPut (d : Byte) (lim : Nat) (m : Mem) (a : Nat) (v : Byte) : Mem :=
  if a < lim then sput d m a v else m

/-- `n` bytes from `a` on. -/
def memRead (d : Byte) (m : Mem) (a : Nat) : Nat → Bytes
  | 0 => []
  | n + 1 => memGet d m a :: memRead d m (a + 1) n

/-- The bytes `bs` written from `a` on. -/
def memWrite (d : Byte) (lim : Nat) (m : Mem) (a : Nat) : Bytes → Mem
  | [] => m
  | b :: bs => memWrite d lim (memPut d lim m a b) (a + 1) bs

/-- `n` bytes from `a` on brought to what an unlisted byte reads as: a flash erase (R390). -/
def memErase (m : Mem) (a n : Nat) : Mem := m.filter fun c => !(decide (a ≤ c.1) && decide (c.1 < a + n))

/-- Canonical form of the three stores (log 4): unlisted bytes read 0x00 in data memory and MRAM, 0xFF in flash. -/
def Memory.wf (s : State) : Bool :=
  swf (0 : Byte) dataSize s.data && swf (0 : Byte) mramSize s.mram && swf (0xFF : Byte) flashSize s.flash

/-- Reads and writes of the three stores. -/
def dataRead (a n : Nat) (s : State) : Bytes := memRead 0 s.data a n
def dataWrite (a : Nat) (bs : Bytes) (s : State) : State := { s with data := memWrite 0 dataSize s.data a bs }
def mramRead (a n : Nat) (s : State) : Bytes := memRead 0 s.mram a n
def mramWrite (a : Nat) (bs : Bytes) (s : State) : State := { s with mram := memWrite 0 mramSize s.mram a bs }
def flashRead (a n : Nat) (s : State) : Bytes := memRead 0xFF s.flash a n
def flashWrite (a : Nat) (bs : Bytes) (s : State) : State :=
  { s with flash := memWrite 0xFF flashSize s.flash a bs }

def flashErase (a n : Nat) (s : State) : State := { s with flash := memErase s.flash a n }

/-- The number that little-endian bytes spell (R2). -/
def leNat : Bytes → Nat
  | [] => 0
  | b :: bs => b.toNat + 256 * leNat bs

/-- The number that big-endian bytes spell. -/
def beNat (bs : Bytes) : Nat := bs.foldl (fun a b => 256 * a + b.toNat) 0

/-- `n` little-endian bytes of `v` (R2). -/
def leBytes : Nat → Nat → Bytes
  | 0, _ => []
  | n + 1, v => BitVec.ofNat 8 v :: leBytes n (v / 256)

/-- `n` big-endian bytes of `v`. -/
def beBytes (n v : Nat) : Bytes := (leBytes n v).reverse

/-- Bytes `a` to `a + n - 1` of a byte string. -/
def slice (bs : Bytes) (a n : Nat) : Bytes := (bs.drop a).take n

/-- The little-endian field of `n` bytes at `a`. -/
def leAt (bs : Bytes) (a n : Nat) : Nat := leNat (slice bs a n)

/-- The big-endian field of `n` bytes at `a`. -/
def beAt (bs : Bytes) (a n : Nat) : Nat := beNat (slice bs a n)

/-- `n` zero bytes. -/
def zeros (n : Nat) : Bytes := List.replicate n 0

/-- A byte string cut or padded with zeros to `n` bytes. -/
def padTo (n : Nat) (bs : Bytes) : Bytes := (bs ++ zeros (n - bs.length)).take n

/-- The list with entry `i` replaced (unchanged where there is none). -/
def setAt {α : Type} (l : List α) (i : Nat) (v : α) : List α := l.set i v

/-- The list with entry `i` changed by `f`. -/
def modAt {α : Type} (l : List α) (i : Nat) (f : α → α) : List α := l.modify i f

/-- Entry `i`, or `d`. -/
def nth {α : Type} (d : α) (l : List α) (i : Nat) : α := l.getD i d

/-- Bit `i` of a number. -/
def bitOf (n i : Nat) : Bool := n.testBit i

/-- A bit vector with bit `i` set to `b`. -/
def setBit {w : Nat} (v : BitVec w) (i : Nat) (b : Bool) : BitVec w :=
  if b then v ||| (BitVec.ofNat w (2 ^ i)) else v &&& ~~~ (BitVec.ofNat w (2 ^ i))

/-- A bit vector with `n` bits from `i` replaced by the low bits of `x`. -/
def setField {w : Nat} (v : BitVec w) (i n x : Nat) : BitVec w :=
  (v &&& ~~~ (BitVec.ofNat w ((2 ^ n - 1) * 2 ^ i))) ||| BitVec.ofNat w ((x % 2 ^ n) * 2 ^ i)

/-- `n` bits of a number from bit `i`. -/
def bits (v i n : Nat) : Nat := v / 2 ^ i % 2 ^ n

/-- 0 or 1. -/
def b2n (b : Bool) : Nat := if b then 1 else 0

/-- The sum of bits given by a predicate: bit i set where `f i`. -/
def maskOf (n : Nat) (f : Nat → Bool) : Nat := (List.range n).foldl (fun a i => a + b2n (f i) * 2 ^ i) 0

/-- A count that saturates at all ones (R9). -/
def satInc {w : Nat} (c : BitVec w) : BitVec w := if c = BitVec.allOnes w then c else c + 1

/-- A saturating addition (R9). -/
def satAdd {w : Nat} (c : BitVec w) (n : Nat) : BitVec w := BitVec.ofNat w (min (c.toNat + n) (2 ^ w - 1))

/-- The signed value of a bit vector as bytes: `n` little-endian bytes of an integer in two's complement. -/
def leInt (n : Nat) (v : Int) : Bytes := leBytes n ((v % (256 ^ n : Nat)).toNat)

/-- The integer that `n` little-endian bytes spell in two's complement. -/
def sextNat (w v : Nat) : Int := if v < 2 ^ (w - 1) then (v : Int) else (v : Int) - (2 ^ w : Nat)

/-- Reversal of the low `w` bits. -/
def revBits : Nat → Nat → Nat
  | 0, _ => 0
  | w + 1, v => (v % 2) * 2 ^ w + revBits w (v / 2)

/-- One bit of a CRC of width `w`, most significant bit first. -/
def crcBit (w poly reg bit : Nat) : Nat :=
  let top := (reg / 2 ^ (w - 1) + bit) % 2
  let sh := reg * 2 % 2 ^ w
  if top = 1 then Nat.xor sh poly else sh

/-- One byte of a CRC: its bits from 7 down to 0, or from 0 up to 7 where the input is reflected. -/
def crcByte (w poly : Nat) (refl : Bool) (reg : Nat) (b : Byte) : Nat :=
  (List.range 8).foldl (fun r i => crcBit w poly r (b2n (b.getLsbD (if refl then i else 7 - i)))) reg

/-- A CRC by the columns of R396: width, polynomial, initial value, reflection in and out, final XOR. -/
def crcOf (w poly init : Nat) (refl : Bool) (xorOut : Nat) (bs : Bytes) : Nat :=
  let r := bs.foldl (crcByte w poly refl) init
  Nat.xor (if refl then revBits w r else r) xorOut

/-- The four check values of R396 by POLY. -/
def crc32c (bs : Bytes) : Nat := crcOf 32 0x1EDC6F41 0xFFFFFFFF true 0xFFFFFFFF bs
def crc32 (bs : Bytes) : Nat := crcOf 32 0x04C11DB7 0xFFFFFFFF true 0xFFFFFFFF bs
def crc16 (bs : Bytes) : Nat := crcOf 16 0x1021 0xFFFF false 0 bs
def crc8 (bs : Bytes) : Nat := crcOf 8 0x07 0 false 0 bs

/-- The width in bytes of a check value by POLY (R396). -/
def crcWidth (poly : Nat) : Nat := if poly = 0 ∨ poly = 1 then 4 else if poly = 2 then 2 else 1

/-- The check value by POLY (R396). -/
def crcPoly (poly : Nat) (bs : Bytes) : Nat :=
  if poly = 0 then crc32c bs else if poly = 1 then crc32 bs else if poly = 2 then crc16 bs else crc8 bs

/-- A CRC-32C appended little-endian. -/
def withCrcLe (bs : Bytes) : Bytes := bs ++ leBytes 4 (crc32c bs)

end Sys2Proof.Machine
end

