-- ==== Sys2Proof/Machine/Ops.lean ====
section
/-! DEFINITION. The shared operations: time, free values, rings, journal and trace records, event pushes,
status codes. -/

namespace Sys2Proof.Machine

/-- The three outcomes of a command. -/
abbrev Result := Host.Outcome State Fault Refusal

/-- The next state `s` when `c` stands, else no effect: a command whose condition does not stand changes nothing
(R67, log 10). -/
def whenever (c : Bool) (f : State → State) (s : State) : State := if c then f s else s

/-- Operating time in ms, saturating at 2^48 − 1 (R379). -/
def opMs (s : State) : Nat := min (s.clk.opUs / 1000) (2 ^ 48 - 1)

/-- The low 32 bits of the operating time in µs: a descriptor's TS (R114, R412). -/
def tsNow (s : State) : Word := BitVec.ofNat 32 s.clk.opUs

/-- The number of the next free value, and the state in which it has been drawn (log 3). -/
def drawn (s : State) : State := { s with clk := { s.clk with freeCount := s.clk.freeCount + 1 } }

/-- The next free 32-bit value. -/
def freeWord (s : State) : Word := Config.freeWord s.clk.freeCount

/-- Is power domain `d` on (MGT.PD_STATUS.ON)? -/
def pdIs (s : State) (d : Nat) : Bool := s.power.pdOn.getLsbD d

/-- MGT.STATE.STATE, with 0 OFF and 1 HIBERNATE (DEDUCED, log 15). -/
def stateCode : OpState → Nat
  | .off => 0
  | .hibernate => 1
  | .bringUp => 2
  | .run => 3
  | .safeService => 4
  | .halt => 5
  | .dead => 6

/-- MGT.STATE.ROLE. -/
def roleCode : Role → Nat
  | .none => 0
  | .solo => 1
  | .leader => 2
  | .pacer => 3

/-- Is the unit in one of the states that runs its own lap or waits in HALT? -/
def inRunOrHalt (s : State) : Bool := s.power.state = .run ∨ s.power.state = .halt

/-- Is the unit powered: any state but OFF. -/
def powered (s : State) : Bool := s.power.state ≠ .off

/-- Does the Marshal work: any state but OFF and HIBERNATE. -/
def awake (s : State) : Bool := s.power.state ≠ .off ∧ s.power.state ≠ .hibernate

/-! ### Descriptors and rings (R114 to R122) -/

/-- The 16 bytes of a descriptor (R114). -/
def descBytes (d : Desc) : Bytes :=
  leBytes 4 d.buf.toNat ++ leBytes 2 d.len.toNat ++ [d.src, d.flags] ++ leBytes 4 d.ts.toNat ++ leBytes 4 d.tag.toNat

/-- The descriptor that 16 bytes spell. -/
def descOf (bs : Bytes) : Desc :=
  { buf := BitVec.ofNat 32 (leAt bs 0 4), len := BitVec.ofNat 16 (leAt bs 4 2), src := nth 0 bs 6,
    flags := nth 0 bs 7, ts := BitVec.ofNat 32 (leAt bs 8 4), tag := BitVec.ofNat 32 (leAt bs 12 4) }

/-- Ring `n`. -/
def ringGet (s : State) (n : Nat) : Ring := sget {} s.queues.rings n

/-- The state with ring `n` replaced. -/
def ringSet (n : Nat) (r : Ring) (s : State) : State :=
  { s with queues := { s.queues with rings := sput {} s.queues.rings n r } }

/-- A ring's depth: 0 for an unallocated ring. -/
def ringDepth (r : Ring) : Nat := if r.log2 = 0 then 0 else 2 ^ r.log2

/-- A ring's fill, PI − CI modulo 2^32 (R115). -/
def ringFill (r : Ring) : Nat := (r.pi - r.ci).toNat

/-- The data memory offset of index `x` of a ring (R114, R115). -/
def ringAddr (r : Ring) (x : Word) : Nat := 0x400000 + 16 * (r.base + x.toNat % ringDepth r)

/-- The descriptors that ring `n` holds, oldest first. -/
def ringDescs (n : Nat) (s : State) : List Desc :=
  let r := ringGet s n
  (List.range (ringFill r)).map fun i => descOf (dataRead (ringAddr r (r.ci + BitVec.ofNat 32 i)) 16 s)

/-- Is the ring full? -/
def ringFull (r : Ring) : Bool := ringDepth r ≤ ringFill r

/-- COUNT and OVF after one drop, wait or overwrite (R116). -/
def ringCounted (r : Ring) : Ring := { r with count := satInc r.count, flagOvf := true }

/-- Has the fill first reached HWM × depth / 16 (R119)? A system ring has no watermark (log 16). -/
def ringReaches (r : Ring) : Bool :=
  decide (r.hwm ≠ 0) && decide (r.hwm.toNat * ringDepth r ≤ 16 * ringFill r) && !r.flagHwm

/-- A descriptor written at PI: the ring after it, with PEAK and HWM (R115, R119). -/
def ringAppended (r : Ring) : Ring :=
  let r1 := { r with pi := r.pi + 1 }
  { r1 with peak := BitVec.ofNat 13 (max r1.peak.toNat (ringFill r1)), flagHwm := r1.flagHwm || ringReaches r1 }

/-- Does a written descriptor first reach the watermark? -/
def ringMarks (r : Ring) : Bool := ringReaches { r with pi := r.pi + 1 }

/-- What a push did. -/
structure Pushed where
  overflow : Bool := false
  mark     : Bool := false
  dropped  : Bool := false
deriving DecidableEq, Repr

/-- A descriptor written at PI of ring `n`. -/
def ringStore (n : Nat) (r : Ring) (d : Desc) (s : State) : State :=
  ringSet n (ringAppended r) (dataWrite (ringAddr r r.pi) (descBytes d) s)

/-- A push to ring `n` (R116 to R119), without its trace records. A push behind waiting producers waits too, so that
descriptors keep their order (log 17). -/
def ringPut (n : Nat) (d : Desc) (s : State) : State × Pushed :=
  let r := ringGet s n
  if ringDepth r = 0 then (ringSet n { r with unalloc := true } s, { dropped := true })
  else if r.policy = 1 ∧ (ringFull r ∨ r.waiting ≠ []) then
    (ringSet n { r with waiting := r.waiting ++ [d] } s, {})
  else if !ringFull r then (ringStore n r d s, { mark := ringMarks r })
  else if r.policy = 0 then
    (ringSet n { ringCounted r with lost := true, flagHwm := r.flagHwm || ringReaches r } s,
      { overflow := true, mark := ringReaches r, dropped := true })
  else
    let r1 := { ringCounted r with ci := r.ci + 1, lost := true }
    (ringStore n r1 { d with flags := d.flags ||| 2 } s, { overflow := true, mark := ringMarks r1 })

/-- A pop from ring `n` (R115). -/
def ringTake (n : Nat) (s : State) : State × Option Desc :=
  let r := ringGet s n
  if ringDepth r = 0 ∨ ringFill r = 0 then (s, none)
  else (ringSet n { r with ci := r.ci + 1 } s, some (descOf (dataRead (ringAddr r r.ci) 16 s)))

/-! ### Records (R65, R382, R388) -/

/-- The producer id of the agent that pushes a record of a code (R115, R382): the block to which the chapter of the
code gives the event (DEDUCED, log 13). -/
def sourceOf (code : Nat) : Byte :=
  if code / 0x100 = 2 then (if code = 0x230 ∨ code = 0x231 then 4 else if code = 0x203 then 1 else 2)
  else if code / 0x100 = 3 then 2
  else if code / 0x100 = 4 then (if code ≥ 0x430 then 1 else 2)
  else if code / 0x100 = 5 then (if code ≤ 0x502 then 1 else 0x0E)
  else if code / 0x100 = 6 then 0x0C
  else if code / 0x100 = 7 then 3
  else if code / 0x100 = 8 then (if code ≤ 0x816 then 5 else 3)
  else if code = 0xC11 then 0x0D
  else 1

/-- A payload item of 4 bytes (R383). -/
def item (n : Nat) : Bytes := leBytes 4 n

/-- A payload item of 8 bytes: lap numbers and times in µs (R383). -/
def item8 (n : Nat) : Bytes := leBytes 8 n

/-- A record of an event made now. -/
def recordOf (code sev : Nat) (items : Bytes) (missed : Nat) (s : State) : Record :=
  { code := BitVec.ofNat 16 code, optMs := opMs s, cycles := s.power.pwrCycles, source := sourceOf code,
    severity := BitVec.ofNat 8 sev, items := items, notWritten := missed }

/-- The last record of a code and unit of repetition. -/
def repeatFind (s : State) (code key : Nat) : Option Repeat :=
  s.log.repeats.find? fun r => r.code.toNat = code ∧ r.key = key

/-- The repetition rule of R65: none while within 1 s of the last record, else the number of records not written. The time is the
operating time in whole ms, and a difference of exactly 1,000 ms is no longer within 1 s (DESIGN CHOICE, log 66). -/
def repeatGate (code key : Nat) (s : State) : State × Option Nat :=
  let others := s.log.repeats.filter fun r => !(r.code.toNat = code ∧ r.key = key)
  let put := fun r => { s with log := { s.log with repeats := r :: others } }
  match repeatFind s code key with
  | some r =>
    if opMs s < r.lastMs + 1000 then (put { r with missed := r.missed + 1 }, none)
    else (put { r with lastMs := opMs s, missed := 0 }, some r.missed)
  | none => (put { code := BitVec.ofNat 16 code, key := key, lastMs := opMs s, missed := 0 }, some 0)

/-- The descriptor of a record's write: its buffer is not stated, so BUF and TAG are free (log 3). -/
def recordDesc (r : Record) (s : State) : Desc :=
  { buf := freeWord s, len := 64, src := r.source, ts := tsNow s, tag := freeWord (drawn s) }

/-- Work for the Queue Pool: a descriptor for a ring, a journal record, a trace record. -/
inductive Work where
  | desc (ring : Nat) (d : Desc)
  | sj (r : Record)
  | tr (r : Record)
deriving DecidableEq, Repr

/-- The count of trace drops, and whether SJ 0x0C05 is due: at most once per 60 s (R389). -/
def trDropped (s : State) : State :=
  { s with log := { s.log with trDrop := satInc s.log.trDrop, trDropMissed := s.log.trDropMissed + 1 } }

/-- Is SJ 0x0C05 due? -/
def trDropDue (s : State) : Bool := !s.log.trDropWritten || decide (s.log.trDropMs + 60000 ≤ opMs s)

/-- SJ 0x0C05 written now. -/
def trDropSaid (s : State) : State :=
  { s with log := { s.log with trDropMissed := 0, trDropMs := opMs s, trDropWritten := true } }

/-- The Queue Pool at work (R116 to R119, R124, R384, R389): whoever pushes to a full Q0003, the drop is counted and reported. A push can cause trace records and a dropped trace
record a journal record, so the work carries a bound on that chain; 8 exceeds its longest. -/
def perform : Nat → Work → State → State
  | 0, _, s => s
  | k + 1, .desc n d, s =>
    let (s0, p) := ringPut n d s
    let r := ringGet s0 n
    let c := trDropped s0
    let s1 :=
      if n = 3 ∧ p.dropped then
        (if trDropDue c then perform k (.sj (recordOf 0xC05 1 (item c.log.trDropMissed) 0 s0)) (trDropSaid c) else c)
      else s0
    let s2 :=
      if p.overflow then
        match repeatGate 0x124 n s1 with
        | (t, some m) =>
          perform k (.tr (recordOf 0x124 1 (item n ++ item r.policy.toNat ++ item (m + 1)) m t)) t
        | (t, none) => t
      else s1
    if p.mark then
      match repeatGate 0x125 n s2 with
      | (t, some m) =>
        perform k (.tr (recordOf 0x125 0 (item n ++ item (ringFill r) ++ item (ringDepth r)) m t)) t
      | (t, none) => t
    else s2
  | k + 1, .sj r, s =>
    let d := recordDesc r s
    let s1 := drawn (drawn { s with log := { s.log with sjQueue := s.log.sjQueue ++ [r] } })
    perform k (.desc 2 d) s1
  | k + 1, .tr r, s =>
    let d := recordDesc r s
    if ringFull (ringGet s 3) then perform k (.desc 3 d) (drawn (drawn s))
    else
      perform k (.desc 3 d) (drawn (drawn { s with log := { s.log with trQueue := s.log.trQueue ++ [r] } }))

/-- A push of a descriptor to a ring. -/
def push (n : Nat) (d : Desc) (s : State) : State := perform 8 (.desc n d) s

/-- A journal record. -/
def sj (code sev : Nat) (items : Bytes) (s : State) : State := perform 8 (.sj (recordOf code sev items 0 s)) s

/-- A journal record that says how many before it were not written. -/
def sjMissed (code sev : Nat) (items : Bytes) (missed : Nat) (s : State) : State :=
  perform 8 (.sj (recordOf code sev items missed s)) s

/-- A journal record under the repetition rule of R65 with its unit of repetition. -/
def sjRep (code sev key : Nat) (items : Bytes) (s : State) : State :=
  match repeatGate code key s with
  | (t, some m) => perform 8 (.sj (recordOf code sev items m t)) t
  | (t, none) => t

/-- A trace record. -/
def tr (code sev : Nat) (items : Bytes) (s : State) : State := perform 8 (.tr (recordOf code sev items 0 s)) s

/-- A trace record under the repetition rule of R65. -/
def trRep (code sev key : Nat) (items : Bytes) (s : State) : State :=
  match repeatGate code key s with
  | (t, some m) => perform 8 (.tr (recordOf code sev items m t)) t
  | (t, none) => t

/-- A trace record under the repetition rule whose payload counts the events since the last record, this one
included. -/
def trRepCount (code sev key : Nat) (items : Nat → Bytes) (s : State) : State :=
  match repeatGate code key s with
  | (t, some m) => perform 8 (.tr (recordOf code sev (items (m + 1)) m t)) t
  | (t, none) => t

/-- A descriptor of event type `t` pushed to Q0016 + t (R130) by producer `src`. Its buffer is not stated: BUF is a
free value and LEN 0 (log 3). -/
def pushEvent (t : Nat) (src : Byte) (tag : Word) (s : State) : State :=
  push (16 + t) { buf := freeWord s, src := src, ts := tsNow s, tag := tag } (drawn s)

/-- A descriptor of event type `t` whose TAG the manual does not state: a free value. -/
def pushEventFree (t : Nat) (src : Byte) (s : State) : State := pushEvent t src (freeWord s) (drawn s)

/-- A pop of ring `n`, its descriptor discarded. -/
def drop1 (n : Nat) (s : State) : State := (ringTake n s).1

/-! ### Time of day -/

/-- A calendar time in the layout of R211: year (2), month, day, hour, minute, second, weekday. -/
def timeBytes (t : Time) : Bytes :=
  leBytes 2 t.year ++ leBytes 1 t.month ++ leBytes 1 t.day ++ leBytes 1 t.hour ++ leBytes 1 t.minute ++
    leBytes 1 t.second ++ leBytes 1 t.weekday

/-- The calendar time that 8 bytes spell. -/
def timeOf (bs : Bytes) : Time :=
  { year := leAt bs 0 2, month := leAt bs 2 1, day := leAt bs 3 1, hour := leAt bs 4 1, minute := leAt bs 5 1,
    second := leAt bs 6 1, weekday := leAt bs 7 1 }

/-- Leap years of the Gregorian calendar (R406). -/
def leapYear (y : Nat) : Bool := y % 4 = 0 ∧ (y % 100 ≠ 0 ∨ y % 400 = 0)

/-- Days of a month. -/
def daysIn (y m : Nat) : Nat :=
  if m = 2 then (if leapYear y then 29 else 28) else if m = 4 ∨ m = 6 ∨ m = 9 ∨ m = 11 then 30 else 31

/-- Days from 1 January 2000 to 1 January of year `2000 + n`. -/
def daysToYear : Nat → Nat
  | 0 => 0
  | n + 1 => daysToYear n + (if leapYear (2000 + n) then 366 else 365)

/-- Days from 1 January to the first of a month. -/
def daysToMonth (y : Nat) : Nat → Nat
  | 0 => 0
  | m + 1 => if m = 0 then 0 else daysToMonth y m + daysIn y m

/-- The day number since 1 January 2000. -/
def dayNumber (t : Time) : Nat := daysToYear (t.year - 2000) + daysToMonth t.year t.month + (t.day - 1)

/-- The date a day number names: year, month, day. `n` bounds the years. -/
def dateOfDay : Nat → Nat → Nat → Nat × Nat × Nat
  | 0, y, d => (y, 1, d + 1)
  | n + 1, y, d =>
    let len := if leapYear y then 366 else 365
    if d ≥ len then dateOfDay n (y + 1) (d - len)
    else
      let m := (List.range 12).foldl (fun m i => if daysToMonth y (i + 1) ≤ d then i + 1 else m) 1
      (y, m, d - daysToMonth y m + 1)

/-- The sub-second counter in units of 1/32,768 s (R406). -/
def subsec (s : State) : Nat := min (s.rtc.secUs * 32768 / 1000000) 32767

/-- Are OSF and LBV both 0 (R411)? -/
def rtcTrusted (s : State) : Bool := !s.rtc.osf && !s.rtc.lbv

/-- SJ 0x0101 TIME_ANCHOR of a kind: 0 start, 1 RTC_SET, 2 daily (R391, R392). `LOG.ANCHOR` takes its slot when it is
written (SJ_RECORD_WRITE). -/
def timeAnchor (kind : Nat) (s : State) : State :=
  let items := timeBytes s.rtc.time ++ leBytes 2 (subsec s) ++ leBytes 1 (b2n s.rtc.osf + 2 * b2n s.rtc.lbv) ++
    leBytes 1 kind ++ leBytes 8 s.clk.opUs
  sj 0x101 0 items { s with clk := { s.clk with anchorMs := opMs s } }

/-- SJ 0x0102 STATE_CHANGE: old state, new state, role, trigger. The manual gives the trigger no codes: that item is
a free value (log 3). -/
def sjStateChange (old new : OpState) (s : State) : State :=
  sj 0x102 0 (item (stateCode old) ++ item (stateCode new) ++ item (roleCode s.power.role) ++
    item (freeWord s).toNat) (drawn s)

/-! ### Longer requests (R374) -/

/-- A longer request accepted: the ASYNC fields of GET_STATE show it. -/
def asyncAccept (code path : Byte) (s : State) : State :=
  { s with mgt := { s.mgt with
      asyncCode := code, asyncStatus := 1
      asyncOpen := (code, path) :: s.mgt.asyncOpen.filter (fun x : Byte × Byte => decide (x.1 ≠ code)) } }

/-- The path of an accepted request that has not ended. -/
def asyncPath (code : Byte) (s : State) : Option Byte :=
  (s.mgt.asyncOpen.find? fun x => x.1 = code).map Prod.snd

/-- An accepted request ends with its final status: ASYNC_STATUS and SJ 0x0930. -/
def asyncDone (code status : Byte) (s : State) : State :=
  match asyncPath code s with
  | none => s
  | some p =>
    let open1 := s.mgt.asyncOpen.filter (fun x : Byte × Byte => decide (x.1 ≠ code))
    let st := if s.mgt.asyncCode = code then status else s.mgt.asyncStatus
    sj 0x930 0 (item code.toNat ++ item status.toNat ++ item p.toNat)
      { s with mgt := { s.mgt with asyncOpen := open1, asyncStatus := st } }

/-- An accepted request that ends without success where no status is given for it: the status is free (log 3). -/
def asyncDoneFree (code : Byte) (s : State) : State :=
  if (asyncPath code s).isSome then asyncDone code ((freeWord s).setWidth 8) (drawn s) else s

/-- Accepted requests that a change of state cuts end without success (R374, R378): SET_MODE, REPRESS, EDIT_LOAD, EDIT_ADOPT and
HIBERNATE, each with SJ 0x0930. The final status is not stated: free (log 3). -/
def asyncCut (s : State) : State := [0x02, 0x05, 0x06, 0x08, 0x12].foldl (fun t c => asyncDoneFree c t) s

end Sys2Proof.Machine
end

