-- ==== Sys2Proof/Machine/Real.lean ====
section
/-! DEFINITION. REAL32 arithmetic: IEEE 754 binary32, rounding to nearest even, subnormals kept (R183, R184). -/

namespace Sys2Proof.Machine

/-- The quiet NaN of R183. -/
def realNaN : Word := 0x7FC00000

/-- The infinity of a sign. -/
def realInf (neg : Bool) : Word := if neg then 0xFF800000 else 0x7F800000

/-- The zero of a sign. -/
def realZero (neg : Bool) : Word := if neg then 0x80000000 else 0

/-- A REAL32 taken apart: NaN, infinity, or (−1)^neg × mant × 2^exp. -/
inductive Real32 where
  | nan
  | inf (neg : Bool)
  | fin (neg : Bool) (mant : Nat) (exp : Int)
deriving DecidableEq, Repr

/-- The parts of a REAL32. -/
def realOf (w : Word) : Real32 :=
  let neg := w.getLsbD 31
  let e : Nat := w.toNat / 2 ^ 23 % 256
  let m : Nat := w.toNat % 2 ^ 23
  if e = 255 then (if m = 0 then .inf neg else .nan)
  else if e = 0 then .fin neg m (-149)
  else .fin neg (m + 2 ^ 23) ((e : Int) - 150)

/-- Is the value an infinity or a NaN? -/
def realSpecial (w : Word) : Bool := w.toNat / 2 ^ 23 % 256 = 255

/-- The number of bits of a natural number. -/
def bitLen (n : Nat) : Nat := if n = 0 then 0 else Nat.log2 n + 1

/-- The REAL32 nearest to (−1)^neg × m × 2^e, ties to even; `more` says that the exact value lies a little above m. -/
def realRound (neg : Bool) (m : Nat) (e : Int) (more : Bool) : Word :=
  if m = 0 then realZero neg
  else
    let q : Int := max (e + bitLen m - 24) (-149)
    let sh : Int := q - e
    let mant : Nat :=
      if sh ≤ 0 then m * 2 ^ (-sh).toNat
      else
        let k := sh.toNat
        let low := m % 2 ^ k
        let half := 2 ^ (k - 1)
        let t := m / 2 ^ k
        if low > half ∨ (low = half ∧ (more ∨ t % 2 = 1)) then t + 1 else t
    let enc : Nat := if mant < 2 ^ 23 then mant else (q + 149).toNat * 2 ^ 23 + mant
    if enc ≥ 0x7F800000 then realInf neg
    else BitVec.ofNat 32 (enc + (if neg then 2 ^ 31 else 0))

/-- A signed integer as sign and magnitude, rounded: m × 2^e. -/
def realOfInt (v : Int) (e : Int) (negZero : Bool) : Word :=
  if v = 0 then realZero negZero else realRound (v < 0) v.natAbs e false

/-- The signed mantissa. -/
def realInt (neg : Bool) (m : Nat) : Int := if neg then -(m : Int) else m

/-- ADDR. -/
def realAdd (a b : Word) : Word :=
  match realOf a, realOf b with
  | .nan, _ => realNaN
  | _, .nan => realNaN
  | .inf x, .inf y => if x = y then realInf x else realNaN
  | .inf x, _ => realInf x
  | _, .inf y => realInf y
  | .fin x m e, .fin y n f =>
    let g := min e f
    let v := realInt x m * 2 ^ (e - g).toNat + realInt y n * 2 ^ (f - g).toNat
    realOfInt v g (x && y)

/-- NEGR; a NaN gives the quiet NaN. -/
def realNeg (a : Word) : Word :=
  match realOf a with
  | .nan => realNaN
  | _ => a ^^^ 0x80000000

/-- ABSR; a NaN gives the quiet NaN. -/
def realAbs (a : Word) : Word :=
  match realOf a with
  | .nan => realNaN
  | _ => a &&& 0x7FFFFFFF

/-- SUBR. -/
def realSub (a b : Word) : Word :=
  match realOf b with
  | .nan => realNaN
  | _ => realAdd a (b ^^^ 0x80000000)

/-- MULR. -/
def realMul (a b : Word) : Word :=
  match realOf a, realOf b with
  | .nan, _ => realNaN
  | _, .nan => realNaN
  | .inf x, .inf y => realInf (x != y)
  | .inf x, .fin y n _ => if n = 0 then realNaN else realInf (x != y)
  | .fin x m _, .inf y => if m = 0 then realNaN else realInf (x != y)
  | .fin x m e, .fin y n f => realRound (x != y) (m * n) (e + f) false

/-- DIVR. -/
def realDiv (a b : Word) : Word :=
  match realOf a, realOf b with
  | .nan, _ => realNaN
  | _, .nan => realNaN
  | .inf _, .inf _ => realNaN
  | .inf x, .fin y _ _ => realInf (x != y)
  | .fin x _ _, .inf y => realZero (x != y)
  | .fin x m e, .fin y n f =>
    if n = 0 then (if m = 0 then realNaN else realInf (x != y))
    else realRound (x != y) (m * 2 ^ 64 / n) (e - f - 64) (m * 2 ^ 64 % n != 0)

/-- Does DIVR set DZ: a finite non-zero value divided by ±0? -/
def realDivZero (a b : Word) : Bool :=
  match realOf a, realOf b with
  | .fin _ m _, .fin _ n _ => m != 0 && n == 0
  | _, _ => false

/-- The integer square root, found bit by bit from bit `k` down. -/
def isqrtFuel (n : Nat) : Nat → Nat → Nat
  | 0, r => r
  | k + 1, r => isqrtFuel n k (if (r + 2 ^ k) * (r + 2 ^ k) ≤ n then r + 2 ^ k else r)

/-- The integer square root of a number below 2^(2k). -/
def isqrt (k n : Nat) : Nat := isqrtFuel n k 0

/-- SQRTR. -/
def realSqrt (a : Word) : Word :=
  match realOf a with
  | .nan => realNaN
  | .inf neg => if neg then realNaN else realInf false
  | .fin neg m e =>
    if m = 0 then realZero neg
    else if neg then realNaN
    else
      let odd : Nat := (e % 2).toNat
      let x := m * 2 ^ (64 + odd)
      let r := isqrt 46 x
      realRound false r ((e - odd) / 2 - 32) (r * r != x)

/-- How two REAL32 values compare: none where one is a NaN; else less and equal. -/
def realCmp (a b : Word) : Option (Bool × Bool) :=
  match realOf a, realOf b with
  | .nan, _ => none
  | _, .nan => none
  | .inf x, .inf y => some (x && !y, x == y)
  | .inf x, _ => some (x, false)
  | _, .inf y => some (!y, false)
  | .fin x m e, .fin y n f =>
    let g := min e f
    let v := realInt x m * 2 ^ (e - g).toNat
    let w := realInt y n * 2 ^ (f - g).toNat
    some (decide (v < w), decide (v = w))

/-- RTOI (to nearest even) and RTOIT (toward zero): the value and V (R184). -/
def realToInt (nearest : Bool) (a : Word) : Word × Bool :=
  match realOf a with
  | .nan => (0, true)
  | .inf neg => (if neg then 0x80000000 else 0x7FFFFFFF, true)
  | .fin neg m e =>
    let mag : Nat :=
      if e ≥ 0 then m * 2 ^ e.toNat
      else
        let k := (-e).toNat
        let t := m / 2 ^ k
        let low := m % 2 ^ k
        let half := 2 ^ (k - 1)
        if nearest ∧ (low > half ∨ (low = half ∧ t % 2 = 1)) then t + 1 else t
    let v := realInt neg mag
    if v > 2147483647 then (0x7FFFFFFF, true)
    else if v < -2147483648 then (0x80000000, true)
    else (BitVec.ofInt 32 v, false)

/-- ITOR and UTOR. -/
def realOfSigned (a : Word) : Word := realOfInt a.toInt 0 false
def realOfUnsigned (a : Word) : Word := realOfInt (a.toNat : Int) 0 false

end Sys2Proof.Machine
end

