-- ==== Sys2Proof/Machine/Metering.lean ====
section
/-! DEFINITION. Metering: energy, tariffs, demand intervals, snapshots, outages (R265 to R276), and the W bits that
metering keeps. -/

namespace Sys2Proof.Machine

/-- The group of an input. -/
def diGroup (s : State) (g : Nat) : DiGroup :=
  if g = 0 then s.dio.g0 else if g = 1 then s.dio.g1 else if g = 2 then s.dio.g2 else s.dio.g3

/-- The inputs whose group supply is lost. -/
def lostMask (s : State) : BitVec 32 :=
  BitVec.ofNat 32 (maskOf 32 fun n => (diGroup s (n / 8)).glost)

/-- The live filtered value: 0 for OPEN inputs and for inputs of a GLOST group (R36, R37). -/
def diFiltered (s : State) : BitVec 32 := s.dio.filt &&& ~~~s.dio.opens &&& ~~~lostMask s

/-- The ACQ section of the pressed Mould. -/
def acqCfg (s : State) : Option AcqCfg := s.mld.mould.bind fun m => m.2.acq.map Prod.fst

/-- The metering block of the pressed Mould's ACQ section, or its defaults. -/
def mtrCfg (s : State) : MtrCfg := ((s.mld.mould.bind fun m => m.2.acq.map Prod.snd).getD {})

/-- The enabled groups, 0 A and 1 B, and the channels of a group. -/
def mwGroups (c : AcqCfg) : List Nat := (List.range 2).filter fun g => c.grpEn.getLsbD g

/-- The size of a record, of a buffer set, and the number of sets (R259). -/
def recSize (c : AcqCfg) : Nat := 192 + 12 * c.recLen
def setSize (c : AcqCfg) : Nat := (recSize c + 63) / 64 * 64 * (mwGroups c).length
def setCount (c : AcqCfg) : Nat := 0x200000 / setSize c

/-- The buffers that unpopped descriptors of a ring name. -/
def ringBuffers (n : Nat) (s : State) : List Nat :=
  let r := ringGet s n
  (List.range (min (ringFill r) (ringDepth r))).map fun i => (descOf (dataRead (ringAddr r (r.ci + BitVec.ofNat 32 i)) 16 s)).buf.toNat

/-- The free buffer sets: those of whose records no unpopped descriptor in RECORD_RING names one (R259). -/
def freeSets (c : AcqCfg) (s : State) : List Nat :=
  let used := ringBuffers c.ring s
  (List.range (setCount c)).filter fun k =>
    !used.any fun b => decide (0xE00000 + k * setSize c ≤ b) && decide (b < 0xE00000 + (k + 1) * setSize c)

/-- The free slots of RECORD_RING. -/
def freeSlots (c : AcqCfg) (s : State) : Nat := ringDepth (ringGet s c.ring) - ringFill (ringGet s c.ring)

/-- ARMED: the next trigger starts a record (R258, R259). -/
def mwArmed (c : AcqCfg) (s : State) : Bool :=
  s.acq.sampling && s.acq.capture.isNone && decide (freeSets c s ≠ []) && decide ((mwGroups c).length ≤ freeSlots c s)

/-- Is region 6 being pressed or restored (R110)? -/
def mwPressing (s : State) : Bool := decide (nth 0 s.mld.regions 2 = 2) || decide (nth 0 s.mld.regions 2 = 3)

/-- Are raw samples flowing? -/
def mwRuns (s : State) : Bool := pdIs s 8 && s.acq.sampling && !mwPressing s

/-- Mains Watch re-arms when a buffer set is free (R258): at once, or when a pop frees one. -/
def rearm (c : AcqCfg) (s : State) : State :=
  if freeSets c s = [] then { s with acq := { s.acq with armWait := true } }
  else { s with acq := { s.acq with armWait := false, armedUs := s.clk.opUs } }

/-- A pop may free the buffer set for which Mains Watch waits (R258, R259). -/
def rearmAfterPop (s : State) : State :=
  match acqCfg s with
  | some c => if s.acq.armWait ∧ freeSets c s ≠ [] then rearm c s else s
  | none => s

/-- The live W bits, TIME_UNVERIFIED (R271) and ARMED among them: held during a press of region 6 (R110), 0 without an ACQ
section or while PD8 is off (R98, R364). -/
def wLive (s : State) : BitVec 256 :=
  match acqCfg s with
  | some c =>
    if !pdIs s 8 then 0
    else if mwPressing s then s.acq.w
    else setBit (setBit s.acq.w 42 (s.mtr.running && s.rtc.osf)) 44 (mwArmed c s)
  | none => 0

/-- The state with the W bits replaced. -/
def wSet (w : BitVec 256) (s : State) : State := { s with acq := { s.acq with w := w } }

/-- A gain as a signed mantissa and an exponent (R263: REAL32, finite). -/
def gainOf (w : Word) : Int × Int :=
  match realOf w with
  | .fin neg m e => (realInt neg m, e)
  | _ => (0, 0)

/-- num × 2^e / den as a whole number: exact, or rounded in the direction of Config.roundUp (log 14). -/
def scaled (num : Int) (e : Int) (den : Nat) : Int :=
  let n : Int := if e ≥ 0 then num * 2 ^ e.toNat else num
  let d : Nat := if e ≥ 0 then den else den * 2 ^ (-e).toNat
  let q := n / (d : Int)
  if n % (d : Int) = 0 then q else if Config.roundUp n d then q + 1 else q

/-- The voltage and current gains of phase p: the pair's channels by V_SEL (R255, R265). -/
def phaseGain (c : AcqCfg) (p : Nat) : Int × Int :=
  let g := gainOf (nth {} c.ch (2 * p)).gain
  let h := gainOf (nth {} c.ch (2 * p + 1)).gain
  (g.1 * h.1, g.2 + h.2)

/-- A raw sample as a 16-bit code: beyond full scale it saturates at 0x7FFF or 0x8000 (R50). -/
def aiCode (x : Int) : Int := max (-32768) (min 32767 x)

/-- v × i of one sample pair; the pairs of the phases are AI0 and AI1, AI2 and AI3, AI4 and AI5 (R255, R265). -/
def pairOf (x y : Int) : Int := aiCode x * aiCode y

/-- A tick's sums with one more run of samples (R265, R266). -/
def addRun (t : TickSums) (r : SampleRun) : TickSums :=
  { n := t.n + r.count, dur := t.dur + r.count
    vi0 := t.vi0 + r.count * pairOf r.a.c0 r.a.c1
    vi1 := t.vi1 + r.count * pairOf r.a.c2 r.a.c3
    vi2 := t.vi2 + r.count * pairOf r.b.c0 r.b.c1
    batt := t.batt + r.count * aiCode r.b.c2 }

/-- The sums over a tick's samples. -/
def tickSums (t : TickSamples) : TickSums := t.runs.foldl addRun { n := 0, dur := 0 }

/-- The tick's sums: of its samples, or during a press of region 6 the last tick's power values over the time it lasts (R110). -/
def tickUsed (tick : TickSamples) (s : State) : TickSums :=
  if mwPressing s then { s.mtr.lastTick with dur := tick.count } else tickSums tick

/-- Σ v·i of phase p in a tick's sums. -/
def phaseSum (t : TickSums) (p : Nat) : Int := if p = 0 then t.vi0 else if p = 1 then t.vi1 else t.vi2

/-- The energy of phase p over the tick in µWh: mean(v·i) × the tick's time, 4 µs a sample, with 1 LSB = 1/3,200 V (R50, R265). -/
def phaseEnergy (c : AcqCfg) (t : TickSums) (p : Nat) : Int :=
  let g := phaseGain c p
  scaled (phaseSum t p * g.1 * t.dur) g.2 (10240000 * 900 * t.n)

/-- The power of phase p over the tick in W, within INT32. -/
def phasePower (c : AcqCfg) (t : TickSums) (p : Nat) : Int :=
  let g := phaseGain c p
  if t.n = 0 then 0 else max (-2147483648) (min 2147483647 (scaled (phaseSum t p * g.1) g.2 (10240000 * t.n)))

/-- Is phase p enabled? -/
def phaseOn (c : AcqCfg) (p : Nat) : Bool := c.phaseEn.getLsbD p

/-- The time of day in µs. -/
def todUs (s : State) : Nat :=
  ((s.rtc.time.hour * 60 + s.rtc.time.minute) * 60 + s.rtc.time.second) * 1000000 + s.rtc.secUs

/-- A span in µs, closed at its start and open at its end. -/
structure Span where
  first : Int
  last  : Int
deriving DecidableEq, Repr

/-- The span of RTC time of day of a tick of `n` samples that ends now, or of its nominal 10 ms (R274). An RTC time that the tick's end
just reaches falls in the next tick (DEDUCED, log 14), so that RTC_SECOND between two ticks is in one of them. -/
def tickSpan (nominal : Bool) (n : Nat) (s : State) : Span :=
  let first : Int := (todUs s : Int) - 4 * n
  { first := first, last := if nominal then first + 10000 else todUs s }

/-- Does a multiple of `p` µs fall in the span? -/
def spanHits (p : Nat) (sp : Span) : Bool := decide ((sp.first - 1) / (p : Int) < (sp.last - 1) / (p : Int))

/-- Does time of day `t` µs, of this day or the next, fall in the span? -/
def spanHas (t : Nat) (sp : Span) : Bool := decide (sp.first ≤ t) && decide ((t : Int) < sp.last)

/-- The span of a tick in µs since metering began at this start, its end among it: the ticks make that grid (R271). -/
def gridSpan (nominal : Bool) (n : Nat) (s : State) : Span :=
  let first : Int := (s.clk.opUs : Int) - s.mtr.gridUs - 4 * n + 1
  { first := first, last := if nominal then first + 10000 else (s.clk.opUs : Int) - s.mtr.gridUs + 1 }

/-- What is left of a span after `n` samples. -/
def Span.after (sp : Span) (n : Nat) : Span := { sp with first := sp.first + 4 * n }

/-- Does an interval boundary fall in a span of RTC time, or with OSF set in a span `g` of the power-on grid: at multiples of
DEMAND_MIN (R269, R271)? -/
def boundaryIn (sp g : Span) (s : State) : Bool :=
  let dm := (mtrCfg s).demandMin * 60000000
  if s.rtc.osf then spanHits dm g && decide ((dm : Int) < g.last) else spanHits dm sp

/-- Is an interval boundary due in this tick? -/
def boundaryDue (nominal : Bool) (n : Nat) (s : State) : Bool := boundaryIn (tickSpan nominal n s) (gridSpan nominal n s) s

/-- Does schedule entry `e` fall due in the span, by the free weekday counter (R267, R268)? -/
def entryDue (sp : Span) (w : Nat) (e : SchedEntry) : Bool :=
  let t := (e.hour * 60 + e.minute) * 60000000
  e.wday.getLsbD 7 &&
    ((e.wday.getLsbD (w % 7) && spanHas t sp) ||
     (e.wday.getLsbD ((w + 1) % 7) && spanHas (t + 86400000000) sp))

/-- The tariff of the last entry of a list that meets `f`: the highest-numbered one (R267). -/
def lastMeeting (f : SchedEntry → Bool) (es : List SchedEntry) : Option Nat :=
  ((es.filter f).getLast?).map SchedEntry.tariff

/-- The minutes since entry `e` last fell due, within the last 7 days, at a time. -/
def entryAge (t : Time) (e : SchedEntry) : Option Nat :=
  let now := t.hour * 60 + t.minute
  let at0 := e.hour * 60 + e.minute
  if e.wday.getLsbD 7 then
    ((List.range 8).find? fun d =>
      e.wday.getLsbD ((t.weekday + 56 - d) % 7) && decide (at0 ≤ now + d * 1440) && decide (now + d * 1440 - at0 ≤ 10080)).map
        fun d => now + d * 1440 - at0
  else none

/-- The tariff of the entry most recently due no more than `limit` minutes ago (R272, R275). -/
def latestDue (t : Time) (limit : Nat) (es : List SchedEntry) : Option Nat :=
  let ages := es.filterMap fun e => (entryAge t e).bind fun a => if a ≤ limit then some (a, e.tariff) else none
  (ages.foldl (fun best x => match best with
    | some b => if x.1 ≤ b.1 then some x else some b
    | none => some x) none).map Prod.snd

/-- Minutes of calendar time. -/
def calMinutes (t : Time) : Nat := dayNumber t * 1440 + t.hour * 60 + t.minute

/-- The two copies of the snapshot in MRAM (R273): A at 0x380000, B at 0x380400. -/
def snapAddr (b : Bool) : Nat := if b then 0x380400 else 0x380000

/-- A running interval as 48 bytes (the model's layout, log 68). -/
def runBytes (i : Interval) : Bytes :=
  [i.flags] ++ leBytes 1 i.tariff ++ timeBytes i.rtc ++ leBytes 6 i.optMs ++ leBytes 8 i.durMs ++ leBytes 12 i.eImp ++ leBytes 12 i.eExp

/-- The running interval that 48 bytes spell. -/
def runOf (bs : Bytes) : Interval :=
  { flags := nth 0 bs 0, tariff := leAt bs 1 1, rtc := timeOf (slice bs 2 8), optMs := leAt bs 10 6, durMs := leAt bs 16 8,
    eImp := leAt bs 24 12, eExp := leAt bs 36 12 }

/-- A snapshot as bytes, with its CRC-32C (R273): the manual gives the contents and not their layout, which is the model's
(log 68). -/
def snapBytes (n : Snapshot) : Bytes :=
  withCrcLe (leBytes 8 n.seq ++ ((List.range 4).flatMap fun k => leBytes 12 (nth 0 n.imp k)) ++
    ((List.range 4).flatMap fun k => leBytes 12 (nth 0 n.exp k)) ++ ((List.range 4).flatMap fun k => leBytes 8 (nth 0 n.md k)) ++
    leBytes 12 n.chg ++ leBytes 12 n.dis ++ leBytes 1 n.tariff ++ runBytes n.run ++ leBytes 4 n.iseq.toNat ++
    timeBytes n.rtc ++ leBytes 6 n.optMs ++ leBytes 1 (b2n n.osf))

/-- The length of a snapshot without its CRC. -/
def snapLength : Nat := 228

/-- The snapshot that bytes spell; none where the CRC fails. -/
def snapParse (bs : Bytes) : Option Snapshot :=
  if crc32c (bs.take snapLength) ≠ leAt bs snapLength 4 then none
  else some {
    seq := leAt bs 0 8
    imp := (List.range 4).map fun k => leAt bs (8 + 12 * k) 12
    exp := (List.range 4).map fun k => leAt bs (56 + 12 * k) 12
    md := (List.range 4).map fun k => leAt bs (104 + 8 * k) 8
    chg := leAt bs 136 12, dis := leAt bs 148 12, tariff := leAt bs 160 1, run := runOf (slice bs 161 48)
    iseq := BitVec.ofNat 32 (leAt bs 209 4), rtc := timeOf (slice bs 213 8), optMs := leAt bs 221 6
    osf := decide (leAt bs 227 1 = 1) }

/-- A copy of the snapshot, where it is valid. -/
def snapCopy (b : Bool) (s : State) : Option Snapshot := snapParse (mramRead (snapAddr b) (snapLength + 4) s)

/-- The next snapshot's contents (R273). -/
def snapshotOf (s : State) : Snapshot :=
  let last := max (((snapCopy false s).map Snapshot.seq).getD 0) (((snapCopy true s).map Snapshot.seq).getD 0)
  { seq := last + 1, imp := s.mtr.imp, exp := s.mtr.exp, md := s.mtr.md, chg := s.mtr.chg, dis := s.mtr.dis,
    tariff := s.mtr.tariff, run := s.mtr.interval, iseq := s.mtr.iseq, rtc := s.rtc.time, optMs := opMs s,
    osf := s.rtc.osf }

/-- A snapshot written, alternately to the two copies (R273). -/
def takeSnapshot (s : State) : State :=
  mramWrite (snapAddr (!s.mtr.lastWasB)) (snapBytes (snapshotOf s)) { s with mtr := { s.mtr with lastWasB := !s.mtr.lastWasB } }

/-- The valid copy with the higher sequence (R273). -/
def lastSnapshot (s : State) : Option Snapshot :=
  match snapCopy false s, snapCopy true s with
  | some a, some b => some (if a.seq ≤ b.seq then b else a)
  | some a, none => some a
  | none, b => b

/-- The flags of an interval record (R270): 0 COMPLETE, 1 COINCIDENT, 2 PARTIAL, 3 OUTAGE,
4 TIME_UNVERIFIED, 5 TARIFF_CUT, 6 CLOCK_SET. -/
def flComplete : Byte := 1
def flCoincident : Byte := 2
def flPartial : Byte := 4
def flOutage : Byte := 8
def flUnverified : Byte := 16
def flTariffCut : Byte := 32
def flClockSet : Byte := 64

/-- The TIME_UNVERIFIED flag in force (R271). -/
def unverifiedNow (s : State) : Byte := if s.rtc.osf then flUnverified else 0

/-- DEMAND in W of an energy in µWh (R269). -/
def demandOf (s : State) (eImp : Nat) : Nat := eImp / 1000 * 60 / (1000 * (mtrCfg s).demandMin)

/-- The 64 bytes of an interval record (R270). -/
def intervalBytes (flags : Byte) (tariff : Nat) (i : Interval) (count demand : Nat) (s : State) : Bytes :=
  let body := leBytes 2 0x4D49 ++ [flags] ++ leBytes 1 tariff ++ timeBytes i.rtc ++ leBytes 6 i.optMs ++
    leBytes 4 i.durMs ++ leBytes 2 count ++ leBytes 8 (i.eImp / 1000) ++ leBytes 8 (i.eExp / 1000) ++
    leBytes 4 demand ++ leBytes 4 s.power.pwrCycles.toNat ++ leBytes 4 s.mtr.iseq.toNat ++ zeros 8
  withCrcLe body

/-- An interval record written into the log (R270), with SJ 0x0621 for one flagged PARTIAL or OUTAGE (R275). -/
def logInterval (flags : Byte) (tariff : Nat) (i : Interval) (count demand : Nat) (s : State) : State :=
  let bs := intervalBytes flags tariff i count demand s
  let s1 := mramWrite (0x380800 + 64 * s.mtr.logNext.toNat) bs s
  let wrap := s.mtr.logNext.toNat + 1 ≥ 992
  let s2 := { s1 with mtr := { s1.mtr with
    logNext := if wrap then 0 else s1.mtr.logNext + 1
    logWraps := if wrap then satInc s1.mtr.logWraps else s1.mtr.logWraps
    iseq := s1.mtr.iseq + 1 } }
  if flags &&& 12 ≠ 0 then
    sj 0x621 0 (item flags.toNat ++ item s.mtr.iseq.toNat ++ timeBytes i.rtc) s2
  else s2

/-- Does an interval of these flags update the maximum demand (R269)? -/
def demandCounts (flags : Byte) : Bool := flags &&& 1 ≠ 0 ∧ flags &&& 0x6C = 0

/-- The running interval closed with further flags, its record logged and the maximum demand updated (R269). -/
def closeInterval (flags : Byte) (s : State) : State :=
  let i := s.mtr.interval
  let fl := i.flags ||| flags ||| unverifiedNow s
  let i1 := { i with durMs := i.durMs / 1000 }
  let d := demandOf s i.eImp
  let s1 := logInterval fl i.tariff i1 1 d s
  if demandCounts fl ∧ nth 0 s.mtr.md i.tariff < d then
    tr 0x625 0 (item i.tariff ++ item d ++ item s.mtr.iseq.toNat)
      { s1 with mtr := { s1.mtr with md := setAt s1.mtr.md i.tariff d } }
  else s1

/-- A new running interval, TIME_UNVERIFIED where OSF is set (R271). `durMs` of the running interval counts µs until it is
closed. -/
def openInterval (flags : Byte) (s : State) : State :=
  { s with mtr := { s.mtr with interval :=
      { flags := flags ||| unverifiedNow s, tariff := s.mtr.tariff, rtc := s.rtc.time, optMs := opMs s, durMs := 0, eImp := 0, eExp := 0 } } }

/-- TARIFF of the W area (R254); W is held during a press of region 6 (R110). -/
def meterW (s : State) : State := if mwPressing s then s else wSet (setField s.acq.w 40 2 s.mtr.tariff) s

/-- A tariff takes effect: event type 12 and SJ 0x0620 (R267). The interval is not touched. -/
def applyTariff (new src : Nat) (s : State) : State :=
  let old := s.mtr.tariff
  if new = old then s
  else
    let s1 := meterW { s with mtr := { s.mtr with tariff := new } }
    let s2 := pushEvent 12 0x0C (BitVec.ofNat 32 (new + 256 * old + 65536 * src)) s1
    sj 0x620 0 (item old ++ item new ++ item src) s2

/-- A tariff change in a tick. Off a boundary it closes the running interval with TARIFF_CUT (R269). -/
def changeTariff (atBoundary : Bool) (new src : Nat) (s : State) : State :=
  if new = s.mtr.tariff then s
  else if atBoundary then
    let s1 := applyTariff new src s
    { s1 with mtr := { s1.mtr with interval := { s1.mtr.interval with tariff := new } } }
  else openInterval 0 (applyTariff new src (closeInterval flTariffCut s))

/-- The tariff the source asks for, the schedule in a span of RTC time (R267). -/
def tariffIn (sp : Span) (s : State) : Option Nat :=
  let c := mtrCfg s
  if c.tariffSrc = 1 then
    some (b2n ((diFiltered s).getLsbD c.tariffDi) + 2 * b2n ((diFiltered s).getLsbD (c.tariffDi + 1)))
  else if c.tariffSrc = 2 then
    some (b2n (s.frz.p.getLsbD c.tariffP) + 2 * b2n (s.frz.p.getLsbD (c.tariffP + 1)))
  else if s.rtc.osf then none
  else lastMeeting (entryDue sp s.rtc.time.weekday) c.sched

/-- The tariff the source asks for in this tick. -/
def tariffWanted (nominal : Bool) (n : Nat) (s : State) : Option Nat := tariffIn (tickSpan nominal n s) s

/-- The energy and ledger counts of a tick, to the tariff in force and the running interval (R265, R266). -/
def addEnergy (t : TickSums) (s : State) : State :=
  match acqCfg s with
  | none => s
  | some c =>
    let es := (List.range 3).map fun p => if phaseOn c p then phaseEnergy c t p else 0
    let imp := (es.map fun e => e.toNat).sum
    let exp := (es.map fun e => (-e).toNat).sum
    let g := gainOf (nth {} c.ch 6).gain
    let q : Int := if (mtrCfg s).ledger then scaled (t.batt * g.1 * t.dur) g.2 (2880000 * t.n) else 0
    { s with mtr := { s.mtr with
        imp := modAt s.mtr.imp s.mtr.tariff (· + imp)
        exp := modAt s.mtr.exp s.mtr.tariff (· + exp)
        power := (List.range 3).map fun p => if phaseOn c p then phasePower c t p else 0
        chg := s.mtr.chg + q.toNat
        dis := s.mtr.dis + (-q).toNat
        interval := { s.mtr.interval with
          flags := s.mtr.interval.flags ||| unverifiedNow s
          eImp := s.mtr.interval.eImp + imp
          eExp := s.mtr.interval.eExp + exp
          durMs := s.mtr.interval.durMs + 4 * t.dur } } }

/-- Interval end and tariff change in a span of RTC time and of the grid, in that order (R269, R274). Every interval that ends at a
boundary has COMPLETE, what TARIFF_CUT has left of one too, which can so be a maximum (DESIGN CHOICE, log 105). -/
def eventsIn (sp g : Span) (coincident : Byte) (s : State) : State :=
  let due := boundaryIn sp g s
  let want := tariffIn sp s
  let s1 := if due then openInterval 0 (closeInterval (flComplete ||| coincident) s) else s
  match want with
  | some t => changeTariff due t ((mtrCfg s).tariffSrc.toNat) s1
  | none => s1

/-- Those of a tick. -/
def tickEvents (nominal : Bool) (n : Nat) (coincident : Byte) (s : State) : State :=
  eventsIn (tickSpan nominal n s) (gridSpan nominal n s) coincident s

/-- The DI or PX source read at a tick at which the running interval has just begun (R267). -/
def sourceTariff (s : State) : State :=
  if (mtrCfg s).tariffSrc = 0 then s
  else match tariffWanted false 0 s with
    | some t => changeTariff true t ((mtrCfg s).tariffSrc.toNat) s
    | none => s

/-- The actions of an accepted RTC_SET at its tick (R272). -/
def clockSetTick (s : State) : State :=
  let s1 := openInterval flClockSet (closeInterval flClockSet s)
  let s2 := { s1 with mtr := { s1.mtr with pendingSet := false } }
  if (mtrCfg s).tariffSrc = 0 then
    match latestDue s.rtc.time 10080 (mtrCfg s).sched with
    | some t =>
      let s3 := applyTariff t 3 s2
      { s3 with mtr := { s3.mtr with interval := { s3.mtr.interval with tariff := s3.mtr.tariff } } }
    | none => s2
  else sourceTariff s2

/-- The OUTAGE record (R275 step 2), by the RTC where it is trusted (R411). Where the manual gives no value for a field of it, the field is free. -/
def outageRecord (sn : Snapshot) (s : State) : State × Nat :=
  let dm := (mtrCfg s).demandMin
  if !rtcTrusted s then
    let i : Interval := { rtc := sn.rtc, optMs := sn.optMs, durMs := (freeWord s).toNat }
    (logInterval (flOutage ||| flUnverified) 0xFF i 0 0 (drawn s), 0)
  else
    let now := calMinutes s.rtc.time / dm
    let cut := calMinutes sn.rtc / dm
    let count := min (now - cut - 1) 65535
    if count = 0 then (s, 0)
    else
      let m := (cut + 1) * dm
      let d := dateOfDay 200 2000 (m / 1440)
      let start : Time := { year := d.1, month := d.2.1, day := d.2.2, hour := m / 60 % 24, minute := m % 60,
                            second := 0, weekday := (sn.rtc.weekday + (m / 1440 - dayNumber sn.rtc)) % 7 }
      let i : Interval := { rtc := start, optMs := (freeWord s).toNat, durMs := count * dm * 60000 }
      (logInterval flOutage 0xFF i count 0 (drawn s), count)

/-- The first tick after an outage (R275), before this tick's energy. An entry fell due in the outage where its minute began
after the minute of the freeze. -/
def afterOutage (sn : Snapshot) (s : State) : State :=
  let s0 := { s with mtr := { s.mtr with restored := none, interval := sn.run } }
  let s1 := closeInterval flPartial s0
  let (s2, count) := outageRecord sn s1
  let outageMin := calMinutes s.rtc.time - calMinutes sn.rtc
  let s3 :=
    if (mtrCfg s).tariffSrc = 0 ∧ !s.rtc.osf then
      match (if outageMin = 0 then none else latestDue s.rtc.time (min 10080 (outageMin - 1)) (mtrCfg s).sched) with
      | some t => applyTariff t 3 s2
      | none => s2
    else s2
  sj 0x623 0 (item sn.seq ++ item count) (sourceTariff (openInterval flPartial s3))

/-- Metering frozen (step 3 of R274): the snapshot and SJ 0x0622, with cause 0 PFW, 1 SAFE SERVICE, 2 HIBERNATE. One that PFW has
frozen stays frozen over the return of the supply where a further cause freezes it (R276): its snapshot and record stand (DEDUCED,
log 78). -/
def freezeMeter (cause : Nat) (s : State) : State :=
  if s.mtr.running ∧ !s.mtr.frozen then
    let s1 := takeSnapshot { s with mtr := { s.mtr with frozen := true, frozenPfw := cause = 0 } }
    sj 0x622 0 (item cause ++ item (snapshotOf s).seq) s1
  else { s with mtr := { s.mtr with frozenPfw := s.mtr.frozenPfw && decide (cause = 0) } }

/-- What a truncated tick of `n` samples still does in its nominal 10 ms (R274): where the clock has been set in it, the interval is
closed with CLOCK_SET first, and what follows is due by the new time (R272). -/
def truncatedEvents (n : Nat) (s : State) : State :=
  if s.mtr.pendingSet then
    let t := clockSetTick s
    eventsIn ((tickSpan true n t).after n) ((gridSpan true n t).after n) flCoincident t
  else tickEvents true n flCoincident s

/-- The truncated tick at PFW, with the energy of its actual duration (R274); in a press of region 6 it is that of the last tick's
power over it (R110, DEDUCED, log 14). Where it is the first tick after an outage, the steps of R275 come first. -/
def truncatedTick (tick : TickSamples) (s : State) : State :=
  let t := tickUsed tick s
  if s.mtr.running ∧ !s.mtr.frozen ∧ pdIs s 8 then
    let s1 := match s.mtr.restored with
      | some sn => afterOutage sn s
      | none => s
    freezeMeter 0 (truncatedEvents t.dur (addEnergy t s1))
  else freezeMeter 0 s

/-- Metering at P6 ready: it resumes from the snapshot, or starts at 0 (R267, R273). -/
def startMeter (s : State) : State :=
  let s1 := { s with mtr := { s.mtr with running := true, frozen := false, frozenPfw := false, pendingSet := false,
                                         gridUs := s.clk.opUs } }
  match lastSnapshot s with
  | some sn =>
    let s2 := { s1 with mtr := { s1.mtr with imp := sn.imp, exp := sn.exp, md := sn.md, chg := sn.chg, dis := sn.dis,
                                             iseq := sn.iseq, interval := sn.run, restored := some sn } }
    meterW (applyTariff sn.tariff 4 s2)
  | none =>
    let s2 := { s1 with mtr := { s1.mtr with imp := [0, 0, 0, 0], exp := [0, 0, 0, 0], md := [0, 0, 0, 0], chg := 0,
                                             dis := 0, restored := none, snapLost := true } }
    let s3 := applyTariff (mtrCfg s).defTariff 4 s2
    meterW (openInterval (if s.rtc.osf then 0 else flPartial) (sj 0x624 2
      (item (b2n (snapCopy false s).isNone) ++ item (b2n (snapCopy true s).isNone)) s3))

/-- METER_TICK (R265): every 2,500 raw samples, 10 ms, while samples flow; during a press of region 6 a tick repeats the last one's
values (R110). Fewer or more samples make no tick. An RTC_SET that takes effect in the first tick after an outage acts after the steps of
R275 (R272). -/
def meterTick (tick : TickSamples) (s0 : State) : State :=
  if !(s0.mtr.running && !s0.mtr.frozen && pdIs s0 8 && decide (tick.count = 2500)) then s0
  else
    let t := tickUsed tick s0
    let s := { s0 with mtr := { s0.mtr with lastTick := t } }
    match s.mtr.restored with
    | some sn => meterW (whenever s.mtr.pendingSet clockSetTick (addEnergy t (afterOutage sn s)))
    | none =>
      let s1 := addEnergy t s
      if s.mtr.pendingSet then meterW (clockSetTick s1) else meterW (tickEvents false t.dur 0 s1)

/-- METER_TICK. -/
def execMeterTick (tick : TickSamples) (s : State) : Result := .next (meterTick tick s)

/-- METER_SNAPSHOT: every 1 s (R273). -/
def execMeterSnapshot (s : State) : Result :=
  .next (whenever (s.mtr.running && !s.mtr.frozen && pdIs s 1) takeSnapshot s)

end Sys2Proof.Machine
end

