-- ==== Sys2Proof/Machine/FieldIo.lean ====
section
/-! DEFINITION. Field inputs and outputs: filtering, monitoring, group faults, output protection and restart
(R32 to R54, R64, R65), and the output stage (R163, R242). -/

namespace Sys2Proof.Machine

/-- The pressed Mould's sections. -/
def mouldOf (s : State) : Option Mould := s.mld.mould.map Prod.fst
def restOf (s : State) : Option MouldRest := s.mld.mould.map Prod.snd

/-- The output's entry of IOMAP. -/
def doMap (s : State) (k : Nat) : DoMap := ((mouldOf s).map fun m => nth {} m.douts k).getD {}

/-- The stop values of the Mould (R85). -/
def stopValues (s : State) : BitVec 16 := BitVec.ofNat 16 (maskOf 16 fun k => (doMap s k).stop)

/-- The safety output pairs: bit m (R242). -/
def spairMask (s : State) : Nat := maskOf 8 fun m => (doMap s (2 * m)).spair

/-- Is network k enabled (R166)? -/
def netEnabled (s : State) (k : Nat) : Bool :=
  if k < 32 then s.rfx.en0.getLsbD k else s.rfx.en1.getLsbD (k - 32)

/-- The pressed networks with their numbers. -/
def netsOf (s : State) : List (Nat × Net) :=
  let ns := ((restOf s).bind fun r => r.reflex.map ReflexCfg.nets).getD []
  (List.range ns.length).zip ns

/-- The enabled networks that name output k. -/
def netsOn (s : State) (k : Nat) : List (Nat × Net) := (netsOf s).filter fun p => p.2.out = k ∧ netEnabled s p.1

/-- The outputs that enabled networks drive. -/
def drivenNow (s : State) : BitVec 16 := BitVec.ofNat 16 (maskOf 16 fun k => decide (netsOn s k ≠ []))

/-- The output stage's command for output k from the Q value and the networks (R163). -/
def combined (s : State) (k : Nat) : Bool :=
  let q := s.dio.cmd.getLsbD k
  match netsOn s k with
  | [] => q
  | (i, n) :: ns =>
    let any := ((i, n) :: ns).any fun p => s.rfx.res.getLsbD p.1
    let all := ((i, n) :: ns).all fun p => s.rfx.res.getLsbD p.1
    match n.mode with
    | .or => q || any
    | .and => q && all
    | .replace => any

/-- Is region 7 being pressed or restored (R110)? -/
def fabricPressing (s : State) : Bool := decide (nth 0 s.mld.regions 3 = 2) || decide (nth 0 s.mld.regions 3 = 3)

/-- Are the networks stopped for a press of region 7 alone: one that no entry to SAFE SERVICE has cut (R110, R165)? -/
def networksPressed (s : State) : Bool := inRunOrHalt s && fabricPressing s

/-- The output commands of R163 before protection and before safety output pairs: held, by the networks, or the last
commit's (R165). During a press of region 7 only the outputs that networks drove at the stop are held, whatever SB 8 enables
meanwhile (R110, R166); from an entry to SAFE SERVICE on all of them are. -/
def commands (s : State) : BitVec 16 :=
  if s.rfx.hold then
    (if networksPressed s then
      s.dio.cmd &&& ~~~s.rfx.driven ||| s.rfx.held &&& s.rfx.driven
     else s.rfx.held)
  else if s.rfx.active then BitVec.ofNat 16 (maskOf 16 (combined s)) else s.dio.cmd

/-- Do safety output pairs act: in RUN and HALT (R242, R246), from the first commit on, until which the outputs keep the BTP's
values (R76)? -/
def spairActs (s : State) (k : Nat) : Bool :=
  inRunOrHalt s && !(s.rfx.hold && s.rfx.active) && (doMap s (2 * (k / 2))).spair

/-- The command of output k with the OR of a safety output pair (R242). -/
def pairedCommand (s : State) (k : Nat) : Bool :=
  if spairActs s k then
    (commands s).getLsbD (2 * (k / 2)) || (commands s).getLsbD (2 * (k / 2) + 1)
  else (commands s).getLsbD k

/-- Has output k its supply: L+A for DO00 to DO07, L+B for DO08 to DO15 (R48)? -/
def doSupplied (s : State) (k : Nat) : Bool :=
  if k < 8 then !s.dioc.lostA && !s.dioc.revA else !s.dioc.lostB && !s.dioc.revB

/-- Is output k driven on: its command, and every protection of R40 to R48, the drivers of PD10, PD5 (R83), and the
hold of a pacer's outputs (R215)? -/
def outputOn (s : State) (k : Nat) : Bool :=
  s.power.driversOn && pdIs s 5 && !s.sbx.held && pairedCommand s k && !s.dio.latched.getLsbD k &&
    !s.dio.tripOff.getLsbD k && !s.dio.waitCommit.getLsbD k && doSupplied s k

/-- The outputs driven on now. -/
def outputsOn (s : State) : BitVec 16 := BitVec.ofNat 16 (maskOf 16 (outputOn s))

/-- The outputs follow their commands and protections. An output that changes loses its open-load and back-feed flags and
the level found at its terminal, which describe the state it left (DEDUCED, log 18). -/
def refreshOutputs (s : State) : State :=
  let now := outputsOn s
  let changed := now ^^^ s.dio.on
  { s with dio := { s.dio with on := now, openLoad := s.dio.openLoad &&& ~~~changed,
                               backfeed := s.dio.backfeed &&& ~~~changed, readback := s.dio.readback &&& ~~~changed } }

/-- The outputs of group b (0 A, 1 B). -/
def doGroupMask (b : Bool) : BitVec 16 := if b then 0xFF00 else 0x00FF

/-- The outputs whose group has no supply (R48). -/
def unsuppliedMask (s : State) : BitVec 16 :=
  (if s.dioc.lostA || s.dioc.revA then doGroupMask false else 0) ||| (if s.dioc.lostB || s.dioc.revB then doGroupMask true else 0)

/-- A commit applies values to all 16 outputs at once (R42): outputs that waited for a commit follow again, but for those
whose group has no supply, which wait for the next commit after its return (R48). -/
def applyOutputs (v : BitVec 16) (s : State) : State :=
  refreshOutputs { s with dio := { s.dio with cmd := v, waitCommit := s.dio.waitCommit &&& unsuppliedMask s } }

/-- The terminal readback of R49: an output that is on, or a terminal that reads 1 from outside; 0 in a group without
supply (R48). -/
def readback (s : State) : BitVec 16 := (s.dio.on ||| s.dio.readback) &&& ~~~unsuppliedMask s

/-- The level of the trigger lines as the unit reads them: wired-OR of its own drive and the other instruments (R53, R54). -/
def trgLevel (s : State) : BitVec 4 := s.dioc.trgExt ||| s.dioc.trgDrive

/-- The state with a group replaced. -/
def setGroup (g : Nat) (x : DiGroup) (s : State) : State :=
  { s with dio := if g = 0 then { s.dio with g0 := x } else if g = 1 then { s.dio with g1 := x }
                  else if g = 2 then { s.dio with g2 := x } else { s.dio with g3 := x } }

/-- The inputs of a group. -/
def groupMask (g : Nat) : BitVec 32 := BitVec.ofNat 32 (0xFF * 2 ^ (8 * g))

/-- A group's status byte (DIO.GRP_STATUS). -/
def groupByte (x : DiGroup) : Nat := b2n x.glost + 2 * b2n x.rev + 4 * b2n x.sscNow + 8 * b2n x.ssc

/-- DIO.GRP_STATUS, DIO.DO_OPEN and DIO.DO_GRP. -/
def grpStatus (s : State) : Word :=
  BitVec.ofNat 32 (groupByte s.dio.g0 + 256 * groupByte s.dio.g1 + 65536 * groupByte s.dio.g2 +
    16777216 * groupByte s.dio.g3)
def doOpenWord (s : State) : Word :=
  BitVec.ofNat 32 (s.dio.openLoad.toNat + 65536 * (s.dio.backfeed &&& ~~~s.dio.on).toNat)
def doGrpWord (s : State) : Word :=
  BitVec.ofNat 32 (b2n s.dioc.lostA + 2 * b2n s.dioc.revA + 4 * b2n s.dioc.golA + 8 * b2n s.power.pfw +
    16 * b2n s.dioc.lostB + 32 * b2n s.dioc.revB + 64 * b2n s.dioc.golB)

/-- The field status words of SB 16: DI_OPEN, GRP_STATUS, DO_LOCK, DO_OPEN, DO_GRP (R64). -/
def fieldWords (s : State) : List Word :=
  [s.dio.opens, grpStatus s, s.dio.latched.setWidth 32, doOpenWord s, doGrpWord s]

/-- Does the second list of words have a bit that the first lacks? -/
def newFlag (a b : List Word) : Bool := (a.zip b).any fun p => p.2 &&& ~~~p.1 ≠ 0

/-- A field change, with event type 5 FIELD_FAULT on any new flag of SB 16 (R131). Its TAG is not stated: free. -/
def withFieldEvent (f : State → State) (s : State) : State :=
  let t := f s
  if newFlag (fieldWords s) (fieldWords t) then pushEventFree 5 0x0E t else t

/-- A field command: it acts while PD5, which holds the I/O sequencer, is on. -/
def fieldCommand (f : State → State) (s : State) : State :=
  whenever (pdIs s 5) (withFieldEvent f) s

/-- A Mains Watch trigger source's condition is met (R256): its bit is raised for RECORD_TRIGGER, with the number of the DI or
the TRG line that met it first (R261, log 67). No source meets a condition while no samples flow (R110). -/
def raiseTrigger (bit which : Nat) (s : State) : State :=
  match acqCfg s with
  | some c =>
    if c.trigEn.getLsbD bit ∧ mwRuns s then
      { s with acq := { s.acq with
          raised := setBit s.acq.raised bit true
          raisedDi := if bit = 0 ∧ !s.acq.raised.getLsbD 0 then which else s.acq.raisedDi
          raisedTrg := if bit = 1 ∧ !s.acq.raised.getLsbD 1 then which else s.acq.raisedTrg } }
    else s
  | none => s

/-- Is this edge of input n a DI trigger, on filtered values (source 0) or on raw values (source 1) (R256)? -/
def diTriggers (src : Byte) (s : State) (n : Nat) (rising : Bool) : Bool :=
  match acqCfg s with
  | some c => c.diSrc = src ∧ c.diMask.getLsbD n ∧ (c.diEdge = 2 ∨ c.diEdge = (if rising then 0 else 1))
  | none => false

/-- The samples of R33 after which the filtered value of input n takes the raw value: the filter time over 10 µs. -/
def filterSamples (s : State) (n : Nat) : Nat := 10 * (sget 30 s.dioc.diFilter n).toNat

/-- R32: the raw value of input n as sampled; its edge may be a Mains Watch trigger (R256). -/
def rawSampled (n : Nat) (v : Bool) (s : State) : State :=
  let t := { s with dio := { s.dio with raw := setBit s.dio.raw n v } }
  if s.dio.raw.getLsbD n ≠ v ∧ diTriggers 1 s n v then raiseTrigger 0 n t else t

/-- R33: the filtered value of input n takes the raw value v. Its edge may be a Mains Watch trigger, one of an input that reads 0
because it is flagged OPEN too, but none in a group without supply (R256; DEDUCED, log 67). -/
def filterTakes (n : Nat) (v : Bool) (s : State) : State :=
  let t := { s with dio := { s.dio with filt := setBit s.dio.filt n v, rawRun := sput 0 s.dio.rawRun n 0 } }
  if s.dio.filt.getLsbD n ≠ v ∧ !(lostMask s).getLsbD n ∧ diTriggers 0 s n v then raiseTrigger 0 n t else t

/-- R32, R33: `k` further samples of input n read v. The filtered value takes the raw value once that has differed from it in
as many consecutive samples as the filter time holds. -/
def rawSamples (n : Nat) (v : Bool) (k : Nat) (s : State) : State :=
  if k = 0 then s
  else
    let s1 := rawSampled n v s
    let run := sget 0 s.dio.rawRun n + k
    if v = s.dio.filt.getLsbD n then { s1 with dio := { s1.dio with rawRun := sput 0 s1.dio.rawRun n 0 } }
    else if filterSamples s n ≤ run then filterTakes n v s1
    else { s1 with dio := { s1.dio with rawRun := sput 0 s1.dio.rawRun n run } }

/-- R36: input n is flagged OPEN, unless it is not monitored, its group has lost its supply (R37) or its sensor
supply is folded back (R39). -/
def diOpen (n : Nat) (s : State) : State :=
  let g := diGroup s (n / 8)
  if s.dioc.diLm.getLsbD n ∧ !g.glost ∧ !g.sscNow ∧ !s.dio.opens.getLsbD n then
    sjRep 0x510 2 n (item n)
      { s with dio := { s.dio with opens := setBit s.dio.opens n true, openLatch := setBit s.dio.openLatch n true } }
  else s

/-- R36: the OPEN flag of input n clears. -/
def diOpenCleared (n : Nat) (s : State) : State :=
  if s.dio.opens.getLsbD n then
    sjRep 0x511 0 n (item n) { s with dio := { s.dio with opens := setBit s.dio.opens n false } }
  else s

/-- R37: group g loses its supply; its OPEN flags are suppressed, for which no SJ 0x0511 is written (DEDUCED, log 66). A report for a
group that is lost already, as when it turns out to be reversed, is a further SJ 0x0512 under R65 (DESIGN CHOICE, log 66). -/
def diGroupLost (g : Nat) (reversed : Bool) (s : State) : State :=
  let x := diGroup s g
  let s1 := setGroup g { x with glost := true, rev := reversed } s
  sjRep 0x512 2 g (item g ++ item (b2n reversed))
    { s1 with dio := { s1.dio with opens := s1.dio.opens &&& ~~~groupMask g } }

/-- R37: the supply of group g returns. -/
def diGroupRestored (g : Nat) (s : State) : State :=
  let x := diGroup s g
  if x.glost then sjRep 0x513 0 g (item g) (setGroup g { x with glost := false, rev := false } s) else s

/-- R39: the sensor supply of group g folds back; the group's OPEN flags are suppressed. A short reported for a supply that is folded
back already is a further SJ 0x0514 under R65 (DESIGN CHOICE, log 66). -/
def vsShort (g : Nat) (s : State) : State :=
  let x := diGroup s g
  let s1 := setGroup g { x with sscNow := true, ssc := true } s
  sjRep 0x514 2 g (item g) { s1 with dio := { s1.dio with opens := s1.dio.opens &&& ~~~groupMask g } }

/-- R39: the retry of a folded-back sensor supply. It resumes above 15 V; otherwise it folds back again, which writes no
further SJ 0x0514, since the short has stood throughout (DEDUCED, log 66). -/
def vsRetry (g : Nat) (above15V : Bool) (s : State) : State :=
  let x := diGroup s g
  if x.sscNow then setGroup g (if above15V then { x with sscNow := false } else { x with ssc := true }) s else s

/-- The retry state of output k. -/
def retryOf (s : State) (k : Nat) : DoRetryState := sget {} s.dio.retry k

/-- The state with the retry state of output k replaced. -/
def setRetry (k : Nat) (r : DoRetryState) (s : State) : State :=
  { s with dio := { s.dio with retry := sput {} s.dio.retry k r } }

/-- R43: output k latched, with SJ 0x0521: cause 0 short, 1 group overload. -/
def latchOutput (cause k : Nat) (s : State) : State :=
  sjRep 0x521 2 k (item k ++ item cause) { s with dio := { s.dio with latched := setBit s.dio.latched k true } }

/-- R43: output k trips. Under LATCH it is latched at once, under AUTO after 10 failed retries. A trip that comes after a retry
and before the count is reset counts as a failed retry, and SJ 0x0520 carries the count before it (DEDUCED, log 66). -/
def tripOutput (k : Nat) (s : State) : State :=
  if s.dio.on.getLsbD k then
    let r := retryOf s k
    let n := if r.retrying then r.retries + 1 else r.retries
    let s1 := setRetry k { retries := n, retrying := false }
      { s with dio := { s.dio with tripped := setBit s.dio.tripped k true, tripOff := setBit s.dio.tripOff k true } }
    let s2 := sjRep 0x520 1 k (item k ++ item r.retries.toNat) s1
    let s3 := if s.dioc.doPolicy.getLsbD k ∨ n.toNat ≥ 10 then latchOutput 0 k s2 else s2
    refreshOutputs s3
  else s

/-- R43, R44: a trip. Where the last acknowledge of the output fell in the same clock the trip wins: what that acknowledge
cleared stands. -/
def doTrip (k : Nat) (sameAck : Bool) (s : State) : State :=
  tripOutput k (if sameAck ∧ s.dio.on.getLsbD k ∧ retryOf s k = {} then setRetry k (sget {} s.dio.ackPrev k) s else s)

/-- R43: the retry, every 1 s, of a tripped AUTO output that its command wants on. One that waits for its retry as its POLICY is set to
LATCH is neither retried nor latched, and an acknowledge does not let it on; it waits until the policy is AUTO again or PD5 goes off
(DESIGN CHOICE, log 66). -/
def doRetry (k : Nat) (s : State) : State :=
  if s.dio.tripOff.getLsbD k ∧ !s.dio.latched.getLsbD k ∧ !s.dioc.doPolicy.getLsbD k ∧ pairedCommand s k then
    refreshOutputs (setRetry k { retryOf s k with retrying := true }
      { s with dio := { s.dio with tripOff := setBit s.dio.tripOff k false } })
  else s

/-- R43: 10 s on without a trip. -/
def doRetryCountReset (k : Nat) (s : State) : State :=
  if s.dio.on.getLsbD k then setRetry k {} s else s

/-- R41: all outputs of group b (0 A, 1 B) switched off and latched. An output that is latched already, by a short or an earlier
overload, is a further SJ 0x0521 under R65 (DESIGN CHOICE, log 66). -/
def latchGroup (b : Bool) (s : State) : State :=
  let first := if b then 8 else 0
  let s1 := { s with dioc := if b then { s.dioc with golB := true } else { s.dioc with golA := true } }
  refreshOutputs ((List.range 8).foldl (fun t i => latchOutput 1 (first + i) t) s1)

/-- R45: output k is flagged open load, except while back-fed off (R46) or on and SHARED (R47); a load again clears the
flag. Of an output that is on and SHARED nothing is detected, so that a flag which stood as SHARED was set stays (DESIGN CHOICE,
log 66). A load still too light is a further SJ 0x0523 under R65 (DESIGN CHOICE, log 66). -/
def doOpenLoad (k : Nat) (light : Bool) (s : State) : State :=
  let on := s.dio.on.getLsbD k
  if (on ∧ s.dioc.doShared.getLsbD k) ∨ (!on ∧ s.dio.backfeed.getLsbD k) then s
  else if !light then { s with dio := { s.dio with openLoad := setBit s.dio.openLoad k false } }
  else
    sjRep 0x523 1 k (item k ++ item (if on then 0 else 1))
      { s with dio := { s.dio with openLoad := setBit s.dio.openLoad k true, openSeen := setBit s.dio.openSeen k true } }

/-- Does a terminal at this voltage read 1: above 12 V ±2 V (R49)? Within the tolerance the bit is free (log 3); a terminal at
10 V lies above no threshold. -/
def terminalHigh (mv : Nat) (s : State) : Bool :=
  if 14000 < mv then true else if mv ≤ 10000 then false else Config.freeBit s.clk.freeCount

/-- R46, R47, R49: the terminal of an output that is off stands at a voltage from outside. Above 8 V it sets BACKFEED and
suppresses off-state open-load detection; at 8 V or below both end. -/
def backfeed (k mv : Nat) (s : State) : State :=
  if s.dio.on.getLsbD k then s
  else
    let fed := decide (8000 < mv)
    { drawn s with dio := { s.dio with
        backfeed := setBit s.dio.backfeed k fed
        openLoad := if fed then setBit s.dio.openLoad k false else s.dio.openLoad
        readback := setBit s.dio.readback k (terminalHigh mv s) } }

/-- R48: the outputs of group b lose their supply. When it returns they wait for the next commit after that. A report for a group
that is lost already is a further SJ 0x0524 under R65 (DESIGN CHOICE, log 66). -/
def doSupplyLost (b reversed : Bool) (s : State) : State :=
  let s1 := { s with
    dioc := if b then { s.dioc with lostB := true, revB := reversed } else { s.dioc with lostA := true, revA := reversed }
    dio := { s.dio with waitCommit := s.dio.waitCommit ||| doGroupMask b } }
  refreshOutputs (sjRep 0x524 2 (b2n b) (item (b2n b) ++ item (b2n reversed)) s1)

/-- R48: the supply of group b returns. -/
def doSupplyRestored (b : Bool) (s : State) : State :=
  if (if b then s.dioc.lostB else s.dioc.lostA) then
    let s1 := { s with dioc := if b then { s.dioc with lostB := false, revB := false }
                               else { s.dioc with lostA := false, revA := false } }
    refreshOutputs (sjRep 0x525 0 (b2n b) (item (b2n b)) s1)
  else s

/-- R43: the acknowledge of output k: the latch is released, the retry count cleared, and an output that was latched
follows Q from the next commit. One that tripped and is not latched waits for its retry as before (DEDUCED, log 66). -/
def ackOutput (k : Nat) (s : State) : State :=
  let s1 := setRetry k {} s
  if s.dio.latched.getLsbD k then
    { s1 with dio := { s1.dio with
        latched := setBit s1.dio.latched k false
        tripOff := setBit s1.dio.tripOff k false
        waitCommit := setBit s1.dio.waitCommit k true } }
  else s1

/-- The retry states that an acknowledge of the outputs `mask` clears. -/
def clearedStates (mask : BitVec 16) (s : State) : Sparse DoRetryState := s.dio.retry.filter fun x => mask.getLsbD x.1

/-- SJ 0x0522 of an acknowledge (R65): repetition is judged for each output. The record names the outputs that are due one,
with the records not written of them all (DEDUCED, log 65). -/
def sjAcked (mask : BitVec 16) (source : Nat) (s : State) : State :=
  let gate := fun (acc : State × Nat × Nat) (k : Nat) =>
    if mask.getLsbD k then
      match repeatGate 0x522 k acc.1 with
      | (t, some m) => (t, acc.2.1 + 2 ^ k, acc.2.2 + m)
      | (t, none) => (t, acc.2)
    else acc
  let (t, due, missed) := (List.range 16).foldl gate (s, 0, 0)
  if due = 0 then t else sjMissed 0x522 0 (item due ++ item source) missed t

/-- R43, R64: an acknowledge mask, from the register (source 0) or SB 17 (source 1). -/
def ackOutputs (source : Nat) (mask : BitVec 16) (s : State) : State :=
  if mask = 0 then s
  else
    let s1 := (List.range 16).foldl (fun t k => if mask.getLsbD k then ackOutput k t else t) s
    refreshOutputs (sjAcked mask source { s1 with dio := { s1.dio with ackPrev := clearedStates mask s } })

/-- R53, R54: another instrument asserts trigger line k or has released it. An assertion of the line pushes event type 14 (its
TAG is not stated: free), and is a Mains Watch trigger unless this unit drives the line (R257). -/
def trgAssert (k : Nat) (asserted : Bool) (s : State) : State :=
  let s1 := { s with dioc := { s.dioc with trgExt := setBit s.dioc.trgExt k asserted } }
  if asserted ∧ !(trgLevel s).getLsbD k then
    let s2 := pushEventFree 14 0x0E s1
    match acqCfg s with
    | some c => if c.trgMask.getLsbD k then raiseTrigger 1 k s2 else s2
    | none => s2
  else s1

/-- R54, R257: this unit drives trigger line k. It sees the line asserted, which pushes event type 14 where the line was
released before, and is no trigger of its own. -/
def trgDriven (k : Nat) (s : State) : State :=
  let s1 := { s with dioc := { s.dioc with trgDrive := setBit s.dioc.trgDrive k true } }
  if (trgLevel s).getLsbD k then s1 else pushEventFree 14 0x0E s1

/-- R257: the trigger output is released after 100 µs. A line that another instrument asserts stays asserted (R53). -/
def trigOutRelease (s : State) : State := { s with dioc := { s.dioc with trgDrive := 0 } }

/-- INPUT_FILTER_TRANSITION. -/
def execInputFilterTransition (e : RawRun) (s : State) : Result := .next (fieldCommand (rawSamples e.n e.level e.samples) s)
/-- DI_OPEN. -/
def execDiOpen (n : Fin 32) (s : State) : Result := .next (fieldCommand (diOpen n) s)
/-- DI_OPEN_CLEARED. -/
def execDiOpenCleared (n : Fin 32) (s : State) : Result := .next (fieldCommand (diOpenCleared n) s)
/-- DI_GROUP_LOST. -/
def execDiGroupLost (g : Fin 4) (reversed : Bool) (s : State) : Result := .next (fieldCommand (diGroupLost g reversed) s)
/-- DI_GROUP_RESTORED. -/
def execDiGroupRestored (g : Fin 4) (s : State) : Result := .next (fieldCommand (diGroupRestored g) s)
/-- VS_SHORT. -/
def execVsShort (g : Fin 4) (s : State) : Result := .next (fieldCommand (vsShort g) s)
/-- VS_RETRY. -/
def execVsRetry (g : Fin 4) (above15V : Bool) (s : State) : Result := .next (fieldCommand (vsRetry g above15V) s)
/-- DO_TRIP. -/
def execDoTrip (e : Trip) (s : State) : Result := .next (fieldCommand (doTrip e.k e.sameAck) s)
/-- DO_RETRY. -/
def execDoRetry (k : Fin 16) (s : State) : Result := .next (fieldCommand (doRetry k) s)
/-- DO_RETRY_COUNT_RESET. -/
def execDoRetryCountReset (k : Fin 16) (s : State) : Result := .next (fieldCommand (doRetryCountReset k) s)
/-- GROUP_OVERLOAD. -/
def execGroupOverload (b : Bool) (s : State) : Result := .next (fieldCommand (latchGroup b) s)
/-- DO_OPEN_LOAD. -/
def execDoOpenLoad (e : LoadCheck) (s : State) : Result := .next (fieldCommand (doOpenLoad e.k e.light) s)
/-- BACKFEED. -/
def execBackfeed (e : Terminal) (s : State) : Result := .next (fieldCommand (backfeed e.k e.mv) s)
/-- DO_SUPPLY_LOST. -/
def execDoSupplyLost (b reversed : Bool) (s : State) : Result := .next (fieldCommand (doSupplyLost b reversed) s)
/-- DO_SUPPLY_RESTORED. -/
def execDoSupplyRestored (b : Bool) (s : State) : Result := .next (fieldCommand (doSupplyRestored b) s)
/-- TRG_ASSERT. -/
def execTrgAssert (e : TrgEdge) (s : State) : Result := .next (fieldCommand (trgAssert e.k e.asserted) s)
/-- TRIG_OUT_RELEASE. -/
def execTrigOutRelease (s : State) : Result := .next (fieldCommand trigOutRelease s)

end Sys2Proof.Machine
end

