-- ==== Sys2Proof/Machine/Btp.lean ====
section
/-! DEFINITION. The Safe Service table and the Basic Transfer Program (R73, R233, R244 to R246). -/

namespace Sys2Proof.Machine

/-- Is channel A of pair n good, and channel B, in a mode: 1 equivalent, 2 antivalent (R233)? `inputs` are I bits of
DI00 to DI31. -/
def goodA (inputs : Nat → Bool) (n : Nat) : Bool := inputs (2 * n)
def goodB (mode : Nat) (inputs opens lost : Nat → Bool) (n : Nat) : Bool :=
  if mode = 2 then !inputs (2 * n + 1) && !opens (2 * n + 1) && !lost (2 * n + 1) else inputs (2 * n + 1)

/-- The Safe Service table in MRAM (R244). -/
def ssTable (s : State) : Bytes := mramRead 0x390000 256 s

/-- A check of the table: a byte offset and whether the field there is good. -/
abbrev FieldCheck := Nat × Bool

/-- The checks of R244 and R245 in order; 0xFFFF stands for the CRC. The failing offset is that of the field's first byte, 36 for all the
reserved bytes behind; of the rules over two fields it is that of TRANSFER_DO where it equals RESCUE_DO, and that of LIGHT_MASK where
one of them lies in it (DESIGN CHOICE, log 104). -/
def ssChecks (t : Bytes) : List FieldCheck :=
  let f := fun a n => leAt t a n
  let light := f 8 2
  let isOut := fun v => decide (v ≤ 15) || decide (v = 0xFF)
  let lit := fun v => decide (v ≤ 15) && light.testBit v
  [(0, f 0 4 == 0x53535442), (4, f 4 2 == 1), (6, f 6 2 == 256), (0xFFFF, f 252 4 == crc32c (t.take 252)),
   (10, isOut (f 10 1)), (11, decide (f 11 1 ≤ 1)), (12, isOut (f 12 1)), (13, decide (f 13 1 ≤ 1)),
   (16, decide (Nat.land (f 16 2) (0xFFFF - f 14 2) = 0)),
   (18, (List.range 32).all fun k => !((f 18 4).testBit k && (f 14 2).testBit (k / 2))),
   (22, decide (100 ≤ f 22 2) && decide (f 22 2 ≤ 10000)), (24, decide (100 ≤ f 24 2)),
   (26, decide (f 26 1 % 8 ≠ 0) && decide (f 26 1 < 8)), (27, decide (50 ≤ f 27 1) && decide (f 27 1 ≤ 95)),
   (28, decide (f 27 1 < f 28 1) && decide (f 28 1 ≤ 100)), (29, f 29 1 == 0),
   (30, decide (100 ≤ f 30 2) && decide (f 30 2 ≤ 10000) && decide (f 30 2 % 100 = 0)),
   (32, decide (100 ≤ f 32 4) && decide (f 32 4 ≤ 600000) && decide (f 32 4 % 100 = 0)),
   (36, (slice t 36 216).all (· = 0)),
   (10, f 10 1 != f 12 1 || f 10 1 == 0xFF), (8, !lit (f 10 1) && !lit (f 12 1))]

/-- The first failing offset of the table. -/
def ssFailure (t : Bytes) : Option Nat := ((ssChecks t).find? fun c => !c.2).map Prod.fst

/-- The table's check without its record. A BTP that runs already goes on with its state (R71): a first BTP lap follows only
where none runs, and after a table that is not valid. While it is not valid MAINS_OK, TRANSFER and RESCUE of SAF.BTP read 0 (DESIGN
CHOICE, log 104). -/
def judgeTable (s : State) : State :=
  { s with saf :=
      if (ssFailure (ssTable s)).isNone then
        { s.saf with btpValid := true, btpFirst := s.saf.btpFirst || !s.saf.btpOn || !s.saf.btpValid, btpOn := true }
      else { s.saf with btpValid := false, btpFirst := true, btpOn := true, mainsOk := false, transfer := false, rescue := false } }

/-- The check of the table before the first BTP lap of a bring-up and at every entry to SAFE SERVICE (R245), with SJ 0x0430
once for that start or entry. -/
def checkTable (s : State) : State :=
  match ssFailure (ssTable s) with
  | none => judgeTable s
  | some off => sj 0x430 2 (item off) (judgeTable s)

/-- The squares of a phase's samples, in mV². -/
def sumSquares (xs : List Int) : Nat := (xs.map fun x => x.natAbs * x.natAbs).sum

/-- Does a phase's voltage lie below `pct` % of nominal (R246)? The comparison is of exact squares: RMS in mV times
V_PER_V / 100 against NOM_V × pct mV. -/
def phaseBelow (t : Bytes) (pct : Nat) (xs : List Int) : Bool :=
  decide (sumSquares xs * (leAt t 24 2) ^ 2 < (max xs.length 1) * 10000 * (leAt t 22 2 * pct) ^ 2)

/-- A phase voltage in 0.1 V for SJ 0x0431. The direction of rounding is not stated (log 14). -/
def phaseTenths (t : Bytes) (xs : List Int) : Nat :=
  let num := sumSquares xs * (leAt t 24 2) ^ 2
  let den := (max xs.length 1) * 100000000
  let r := isqrt 40 (num / den)
  if r * r * den = num then r else if Config.roundUp num den then r + 1 else r

/-- The monitored phases. -/
def monitored (t : Bytes) (ps : List (List Int)) : List (List Int) :=
  ((List.range 3).filter fun p => (leAt t 26 1).testBit p).map fun p => nth [] ps p

/-- mains_ok, fail_t and ret_t after a lap (R246). -/
def btpMains (t : Bytes) (ps : List (List Int)) (x : Saf) : Saf :=
  let low := (monitored t ps).any (phaseBelow t (leAt t 27 1))
  let high := (monitored t ps).all fun p => !phaseBelow t (leAt t 28 1) p
  if x.btpFirst then { x with mainsOk := high, failT := 0, retT := 0, btpFirst := false }
  else if x.mainsOk then
    let ft := if low then x.failT + 100 else 0
    if ft ≥ leAt t 30 2 then { x with failT := ft, mainsOk := false, retT := 0 } else { x with failT := ft }
  else
    let rt := if high then x.retT + 100 else 0
    if rt ≥ leAt t 32 4 then { x with retT := rt, mainsOk := true, failT := 0 } else { x with retT := rt }

/-- Rescue permission (R246). -/
def btpRescue (t : Bytes) (s : State) : Bool :=
  let di := fun k => (diFiltered s).getLsbD k
  let opens := fun k => s.dio.opens.getLsbD k
  let lost := fun k => (diGroup s (k / 8)).glost
  ((List.range 32).all fun k => !(leAt t 18 4).testBit k || di k) &&
  ((List.range 16).all fun n => !(leAt t 14 2).testBit n ||
    (goodA di n && goodB (if (leAt t 16 2).testBit n then 2 else 1) di opens lost n))

/-- The output values of a lap (R246). -/
def btpOutputs (t : Bytes) (mainsOk rescue : Bool) : BitVec 16 :=
  let put := fun (v : BitVec 16) d (b : Bool) => if d ≤ 15 then setBit v d b else v
  let o := BitVec.ofNat 16 (leAt t 8 2)
  let o1 := put o (leAt t 10 1) (!mainsOk != (leAt t 11 1 == 1))
  put o1 (leAt t 12 1) (rescue != (leAt t 13 1 == 1))

/-- A BTP commit: the BTP's values alone drive the outputs (R165). While PD5 is off it has no effect (R83). -/
def btpCommit (v : BitVec 16) (s : State) : State :=
  if pdIs s 5 then
    applyOutputs v { s with rfx := { s.rfx with hold := false, active := false }, sbx := { s.sbx with held := false } }
  else s

/-- One BTP lap (R246): all outputs off while the table is not valid (R245). The first lap, which sets mains_ok afresh, makes no state
transition and writes no SJ 0x0431 (DESIGN CHOICE, log 104). -/
def btpStep (ps : List (List Int)) (s : State) : State :=
  if !s.saf.btpValid then btpCommit 0 s
  else
    let t := ssTable s
    let x := btpMains t ps s.saf
    let r := btpRescue t s
    let s1 := { s with saf := { x with transfer := !x.mainsOk, rescue := r } }
    let s2 :=
      if !s.saf.btpFirst ∧ x.mainsOk ≠ s.saf.mainsOk then
        sj 0x431 1 (item (b2n x.mainsOk) ++ ((List.range 3).flatMap fun p => item (phaseTenths t (nth [] ps p)))) s1
      else s1
    btpCommit (btpOutputs t x.mainsOk r) s2

end Sys2Proof.Machine
end

