-- ==== Sys2Proof/Machine/Frames.lean ====
section
/-! DEFINITION. SYNC frames as bytes (R208, R209), and what the hot-standby engine shares with the other blocks. -/

namespace Sys2Proof.Machine

/-- A SYNC frame: header, payload and CRC-32C trailer, little-endian (R208). -/
def syncFrame (typ : Nat) (last : Bool) (lap seg : Nat) (payload : Bytes) : Bytes :=
  withCrcLe (leBytes 2 0x534C ++ leBytes 1 typ ++ leBytes 1 (b2n last) ++ leBytes 8 lap ++
    leBytes 2 payload.length ++ leBytes 2 seg ++ payload)

/-- The segments of a payload: at most 4,096 bytes each, LAST on the final one (R209). `n` bounds their number. -/
def syncSegments (typ lap : Nat) : Nat → Nat → Bytes → List Bytes
  | 0, seg, payload => [syncFrame typ true lap seg (payload.take 4096)]
  | n + 1, seg, payload =>
    if payload.length ≤ 4096 then [syncFrame typ true lap seg payload]
    else syncFrame typ false lap seg (payload.take 4096) :: syncSegments typ lap n (seg + 1) (payload.drop 4096)

/-- Frames put on the SYNC link, newest at the head of the outbox. None leaves while PD11 is off (R364), nor in
BRING-UP, SAFE SERVICE, HIBERNATE or DEAD (R210). -/
def syncSend (frames : List Bytes) (s : State) : State :=
  if pdIs s 11 ∧ inRunOrHalt s then { s with out := { s.out with sync := frames.reverse ++ s.out.sync } } else s

/-- One frame of one segment. -/
def syncSend1 (typ lap : Nat) (payload : Bytes) (s : State) : State := syncSend [syncFrame typ true lap 0 payload] s

/-- A CONTROL frame (R209): CODE, 3 reserved bytes, arguments. It refers to no lap: its LAP is the present lap number (DESIGN CHOICE,
log 91). -/
def syncControl (code : Nat) (args : Bytes) (s : State) : State :=
  syncSend1 6 s.lap.num.toNat (leBytes 1 code ++ zeros 3 ++ args) s

/-- A valid partner frame within the last 3 ms (R210, R219). -/
def syncSeen (s : State) : Bool :=
  match s.sbx.lastRxUs with
  | some t => decide (s.clk.wallUs ≤ t + 3000)
  | none => false

/-- CONTROL LEAVE before a restart (cause 1), HIBERNATE (2) or WITHDRAW (3), to a partner that is there (R219). -/
def sendLeave (cause : Nat) (s : State) : State :=
  if syncSeen s then syncControl 3 (leBytes 1 cause) s else s

/-- Does the Mould name a partner (R11)? -/
def partnerNamed (s : State) : Bool := ((mouldOf s).map Mould.pair).getD false

/-- OUT_MODE is SHARED (R223). -/
def sharedMode (s : State) : Bool := ((mouldOf s).map Mould.shared).getD false

/-- Does a pacer track this leader, or is this pacer tracking? -/
def tracking (s : State) : Bool :=
  (s.power.role = .pacer ∧ s.sby.cond = .tracking) ∨ (s.power.role = .leader ∧ s.sby.cond = .leading ∧ s.sbx.rsActive = false ∧ s.sbx.migrating = false)

/-- A role taken, noted in the role history of the backup state (R23). -/
def setRole (r : Role) (s : State) : State :=
  if s.power.role = r then s
  else { s with power := { s.power with role := r, roleHistory := r :: s.power.roleHistory } }

/-! ### What a change of role ends on the landing buses -/

/-- Port p, and the engines behind it. -/
def lbOf (s : State) (p : Nat) : Lb :=
  if p = 0 then s.lb.p0 else if p = 1 then s.lb.p1 else if p = 2 then s.lb.p2 else s.lb.p3
def lxOf (s : State) (p : Nat) : LbCtx :=
  if p = 0 then s.lb.x0 else if p = 1 then s.lb.x1 else if p = 2 then s.lb.x2 else s.lb.x3
def setLb (p : Nat) (b : Lb) (s : State) : State :=
  { s with lb := if p = 0 then { s.lb with p0 := b } else if p = 1 then { s.lb with p1 := b }
                 else if p = 2 then { s.lb with p2 := b } else { s.lb with p3 := b } }
def setLx (p : Nat) (x : LbCtx) (s : State) : State :=
  { s with lb := if p = 0 then { s.lb with x0 := x } else if p = 1 then { s.lb with x1 := x }
                 else if p = 2 then { s.lb with x2 := x } else { s.lb with x3 := x } }
def modLb (p : Nat) (f : Lb → Lb) (s : State) : State := setLb p (f (lbOf s p)) s
def modLx (p : Nat) (f : LbCtx → LbCtx) (s : State) : State := setLx p (f (lxOf s p)) s

/-- A request for sleep ends: LAST 2 REFUSED, 3 CANCELLED, 4 FAILED, with SJ 0x0721, which codes them 0, 1 and 2 (R306, R383). -/
def sleepEnds (p last node : Nat) (s : State) : State :=
  sj 0x721 0 (item p ++ item (last - 2) ++ item node)
    (modLx p (fun x => { x with phase := .awake, last := BitVec.ofNat 3 last, refWait := none }) s)

/-- The same where no node is concerned: that item is free (log 3). -/
def sleepEndsFree (p last : Nat) (s : State) : State := sleepEnds p last (freeWord s).toNat (drawn s)

/-- A port of a unit that becomes PACER: a pacer makes no sleep request (R305), so one that is not decided ends FAILED (DESIGN
CHOICE, log 85), and a reference with sleep flags that still waits is dropped; and it defers to no REF_ID, so that it defers
anew as master (R295). -/
def lbPaced (s : State) (p : Nat) : State :=
  let x := lxOf s p
  let s1 := if x.foreign ∨ x.refWait.isSome then setLx p { x with foreign := false, refWait := none } s else s
  if (lxOf s1 p).phase = .voting ∨ (lxOf s1 p).phase = .settling then sleepEndsFree p 4 s1 else s1

/-- A change of role in RUN: event type 4 ROLE_CHANGE (R131). Its TAG is not stated: free. -/
def changeRole (r : Role) (s : State) : State :=
  if s.power.role = r then s
  else
    let s1 := pushEventFree 4 1 (setRole r s)
    if r = .pacer then (List.range 4).foldl lbPaced s1 else s1

end Sys2Proof.Machine
end

