-- ==== Sys2Proof/Machine/Crypto.lean ====
section
/-! DEFINITION. The hashes and signatures the manual names by their standards: SHA-256 (FIPS 180-4), HMAC-SHA-256
(RFC 2104) and Ed25519 with SHA-512 (RFC 8032). PRESUMED from those standards (log 12). -/

namespace Sys2Proof.Machine

/-- The round constants of SHA-256. -/
def sha256K : List (BitVec 32) :=
  [0x428A2F98, 0x71374491, 0xB5C0FBCF, 0xE9B5DBA5, 0x3956C25B, 0x59F111F1, 0x923F82A4, 0xAB1C5ED5,
   0xD807AA98, 0x12835B01, 0x243185BE, 0x550C7DC3, 0x72BE5D74, 0x80DEB1FE, 0x9BDC06A7, 0xC19BF174] ++
  [0xE49B69C1, 0xEFBE4786, 0x0FC19DC6, 0x240CA1CC, 0x2DE92C6F, 0x4A7484AA, 0x5CB0A9DC, 0x76F988DA,
   0x983E5152, 0xA831C66D, 0xB00327C8, 0xBF597FC7, 0xC6E00BF3, 0xD5A79147, 0x06CA6351, 0x14292967] ++
  [0x27B70A85, 0x2E1B2138, 0x4D2C6DFC, 0x53380D13, 0x650A7354, 0x766A0ABB, 0x81C2C92E, 0x92722C85,
   0xA2BFE8A1, 0xA81A664B, 0xC24B8B70, 0xC76C51A3, 0xD192E819, 0xD6990624, 0xF40E3585, 0x106AA070] ++
  [0x19A4C116, 0x1E376C08, 0x2748774C, 0x34B0BCB5, 0x391C0CB3, 0x4ED8AA4A, 0x5B9CCA4F, 0x682E6FF3,
   0x748F82EE, 0x78A5636F, 0x84C87814, 0x8CC70208, 0x90BEFFFA, 0xA4506CEB, 0xBEF9A3F7, 0xC67178F2]

/-- The initial hash of SHA-256. -/
def sha256Init : List (BitVec 32) :=
  [0x6A09E667, 0xBB67AE85, 0x3C6EF372, 0xA54FF53A, 0x510E527F, 0x9B05688C, 0x1F83D9AB, 0x5BE0CD19]

/-- The round constants of SHA-512. -/
def sha512K : List (BitVec 64) :=
  [0x428A2F98D728AE22, 0x7137449123EF65CD, 0xB5C0FBCFEC4D3B2F, 0xE9B5DBA58189DBBC,
   0x3956C25BF348B538, 0x59F111F1B605D019, 0x923F82A4AF194F9B, 0xAB1C5ED5DA6D8118,
   0xD807AA98A3030242, 0x12835B0145706FBE, 0x243185BE4EE4B28C, 0x550C7DC3D5FFB4E2,
   0x72BE5D74F27B896F, 0x80DEB1FE3B1696B1, 0x9BDC06A725C71235, 0xC19BF174CF692694] ++
  [0xE49B69C19EF14AD2, 0xEFBE4786384F25E3, 0x0FC19DC68B8CD5B5, 0x240CA1CC77AC9C65,
   0x2DE92C6F592B0275, 0x4A7484AA6EA6E483, 0x5CB0A9DCBD41FBD4, 0x76F988DA831153B5,
   0x983E5152EE66DFAB, 0xA831C66D2DB43210, 0xB00327C898FB213F, 0xBF597FC7BEEF0EE4,
   0xC6E00BF33DA88FC2, 0xD5A79147930AA725, 0x06CA6351E003826F, 0x142929670A0E6E70] ++
  [0x27B70A8546D22FFC, 0x2E1B21385C26C926, 0x4D2C6DFC5AC42AED, 0x53380D139D95B3DF,
   0x650A73548BAF63DE, 0x766A0ABB3C77B2A8, 0x81C2C92E47EDAEE6, 0x92722C851482353B,
   0xA2BFE8A14CF10364, 0xA81A664BBC423001, 0xC24B8B70D0F89791, 0xC76C51A30654BE30,
   0xD192E819D6EF5218, 0xD69906245565A910, 0xF40E35855771202A, 0x106AA07032BBD1B8] ++
  [0x19A4C116B8D2D0C8, 0x1E376C085141AB53, 0x2748774CDF8EEB99, 0x34B0BCB5E19B48A8,
   0x391C0CB3C5C95A63, 0x4ED8AA4AE3418ACB, 0x5B9CCA4F7763E373, 0x682E6FF3D6B2B8A3,
   0x748F82EE5DEFB2FC, 0x78A5636F43172F60, 0x84C87814A1F0AB72, 0x8CC702081A6439EC,
   0x90BEFFFA23631E28, 0xA4506CEBDE82BDE9, 0xBEF9A3F7B2C67915, 0xC67178F2E372532B] ++
  [0xCA273ECEEA26619C, 0xD186B8C721C0C207, 0xEADA7DD6CDE0EB1E, 0xF57D4F7FEE6ED178,
   0x06F067AA72176FBA, 0x0A637DC5A2C898A6, 0x113F9804BEF90DAE, 0x1B710B35131C471B,
   0x28DB77F523047D84, 0x32CAAB7B40C72493, 0x3C9EBE0A15C9BEBC, 0x431D67C49C100D4C,
   0x4CC5D4BECB3E42B6, 0x597F299CFC657E2A, 0x5FCB6FAB3AD6FAEC, 0x6C44198C4A475817]

/-- The initial hash of SHA-512. -/
def sha512Init : List (BitVec 64) :=
  [0x6A09E667F3BCC908, 0xBB67AE8584CAA73B, 0x3C6EF372FE94F82B, 0xA54FF53A5F1D36F1,
   0x510E527FADE682D1, 0x9B05688C2B3E6C1F, 0x1F83D9ABFB41BD6B, 0x5BE0CD19137E2179]

/-- Rotation amounts of one hash: Σ0, Σ1, σ0 (two rotations, one shift), σ1. -/
structure ShaRot where
  bigA   : Nat × Nat × Nat
  bigE   : Nat × Nat × Nat
  small0 : Nat × Nat × Nat
  small1 : Nat × Nat × Nat
deriving DecidableEq, Repr

def sha256Rot : ShaRot := { bigA := (2, 13, 22), bigE := (6, 11, 25), small0 := (7, 18, 3), small1 := (17, 19, 10) }
def sha512Rot : ShaRot := { bigA := (28, 34, 39), bigE := (14, 18, 41), small0 := (1, 8, 7), small1 := (19, 61, 6) }

/-- The XOR of three rotations to the right. -/
def shaBig {w : Nat} (r : Nat × Nat × Nat) (x : BitVec w) : BitVec w :=
  x.rotateRight r.1 ^^^ x.rotateRight r.2.1 ^^^ x.rotateRight r.2.2

/-- The XOR of two rotations and a shift to the right. -/
def shaSmall {w : Nat} (r : Nat × Nat × Nat) (x : BitVec w) : BitVec w :=
  x.rotateRight r.1 ^^^ x.rotateRight r.2.1 ^^^ (x >>> r.2.2)

/-- The message schedule, latest word at the head, extended by `n` words. -/
def shaSchedule {w : Nat} (r : ShaRot) : Nat → List (BitVec w) → List (BitVec w)
  | 0, ws => ws
  | n + 1, ws =>
    let x := shaSmall r.small1 (ws.getD 1 0) + ws.getD 6 0 + shaSmall r.small0 (ws.getD 14 0) + ws.getD 15 0
    shaSchedule r n (x :: ws)

/-- One round on the eight working variables, a at the head. -/
def shaRound {w : Nat} (r : ShaRot) (v : List (BitVec w)) (kw : BitVec w × BitVec w) : List (BitVec w) :=
  match v with
  | [a, b, c, d, e, f, g, h] =>
    let t1 := h + shaBig r.bigE e + ((e &&& f) ^^^ (~~~e &&& g)) + kw.1 + kw.2
    let t2 := shaBig r.bigA a + ((a &&& b) ^^^ (a &&& c) ^^^ (b &&& c))
    [t1 + t2, a, b, c, d + t1, e, f, g]
  | other => other

/-- One block of a hash. -/
def shaBlock {w : Nat} (r : ShaRot) (k : List (BitVec w)) (hash block : List (BitVec w)) : List (BitVec w) :=
  let sched := (shaSchedule r (k.length - 16) block.reverse).reverse
  let out := (k.zip sched).foldl (shaRound r) hash
  (hash.zip out).map fun p => p.1 + p.2

/-- Big-endian words of `n` bytes. -/
def shaWords (w n : Nat) : Nat → Bytes → List (BitVec w)
  | 0, _ => []
  | k + 1, bs => BitVec.ofNat w (beNat (bs.take n)) :: shaWords w n k (bs.drop n)

/-- The blocks of a padded message, folded into the hash. -/
def shaBlocks (w n : Nat) (r : ShaRot) (k : List (BitVec w)) : Nat → List (BitVec w) → Bytes → List (BitVec w)
  | 0, hash, _ => hash
  | m + 1, hash, bs => shaBlocks w n r k m (shaBlock r k hash (shaWords w n 16 bs)) (bs.drop (16 * n))

/-- The padded message of a hash with blocks of 16 words of `n` bytes. -/
def shaPad (n : Nat) (bs : Bytes) : Bytes :=
  let blk := 16 * n
  let used := bs.length + 1 + 2 * n
  bs ++ (0x80 : Byte) :: zeros ((blk - used % blk) % blk) ++ beBytes (2 * n) (8 * bs.length)

/-- A hash of the SHA-2 family over words of `n` bytes. -/
def shaOf (w n : Nat) (r : ShaRot) (k init : List (BitVec w)) (bs : Bytes) : Bytes :=
  let p := shaPad n bs
  (shaBlocks w n r k (p.length / (16 * n)) init p).flatMap fun x => beBytes n x.toNat

/-- SHA-256 (R96). -/
def sha256 (bs : Bytes) : Bytes := shaOf 32 4 sha256Rot sha256K sha256Init bs

/-- SHA-512, which Ed25519 uses. -/
def sha512 (bs : Bytes) : Bytes := shaOf 64 8 sha512Rot sha512K sha512Init bs

/-- HMAC-SHA-256 of a message under a key (R351). -/
def hmacSha256 (key msg : Bytes) : Bytes :=
  let k := padTo 64 (if key.length > 64 then sha256 key else key)
  sha256 (k.map (· ^^^ 0x5C) ++ sha256 (k.map (· ^^^ 0x36) ++ msg))

/-- The field prime, the group order and the curve constant of Ed25519. -/
def edP : Nat := 2 ^ 255 - 19
def edL : Nat := 2 ^ 252 + 27742317777372353535851937790883648493
def edD : Nat := 37095705934669439343138083508754565189542113879843219016388785533085940283555

/-- `b ^ e mod m` by repeated squaring over `n` bits of the exponent. -/
def powModFuel (m : Nat) : Nat → Nat → Nat → Nat
  | 0, _, _ => 1 % m
  | n + 1, b, e =>
    let r := powModFuel m n (b * b % m) (e / 2)
    if e % 2 = 1 then r * b % m else r

def edPow (b e : Nat) : Nat := powModFuel edP 256 b e

/-- The inverse in the field. -/
def edInv (x : Nat) : Nat := edPow x (edP - 2)

/-- A point in extended coordinates X, Y, Z, T. -/
structure EdPoint where
  x : Nat
  y : Nat
  z : Nat
  t : Nat
deriving DecidableEq, Repr

/-- The difference of two field elements. -/
def edSub (a b : Nat) : Nat := (a + edP - b % edP) % edP

/-- The neutral point. -/
def edZero : EdPoint := { x := 0, y := 1, z := 1, t := 0 }

/-- The sum of two points. -/
def edAdd (p q : EdPoint) : EdPoint :=
  let a := edSub p.y p.x * edSub q.y q.x % edP
  let b := (p.y + p.x) * (q.y + q.x) % edP
  let c := 2 * p.t * q.t % edP * edD % edP
  let d := 2 * p.z * q.z % edP
  let e := edSub b a
  let f := edSub d c
  let g := (d + c) % edP
  let h := (b + a) % edP
  { x := e * f % edP, y := g * h % edP, z := f * g % edP, t := e * h % edP }

/-- `n` bits of a scalar times a point. -/
def edMulFuel : Nat → Nat → EdPoint → EdPoint
  | 0, _, _ => edZero
  | n + 1, k, p =>
    let r := edMulFuel n (k / 2) (edAdd p p)
    if k % 2 = 1 then edAdd r p else r

def edMul (k : Nat) (p : EdPoint) : EdPoint := edMulFuel 512 k p

/-- Equality of points. -/
def edEq (p q : EdPoint) : Bool :=
  decide (p.x * q.z % edP = q.x * p.z % edP) && decide (p.y * q.z % edP = q.y * p.z % edP)

/-- The x coordinate of a y with the wanted parity, where there is one. -/
def edRecoverX (y sign : Nat) : Option Nat :=
  let u := edSub (y * y % edP) 1
  let v := (edD * (y * y % edP) + 1) % edP
  let xx := u * edInv v % edP
  let r := edPow xx ((edP + 3) / 8)
  let r := if r * r % edP = xx then r else r * edPow 2 ((edP - 1) / 4) % edP
  if r * r % edP ≠ xx then none
  else if r = 0 ∧ sign = 1 then none
  else some (if r % 2 = sign then r else edP - r)

/-- A point from its 32 bytes. -/
def edDecode (bs : Bytes) : Option EdPoint :=
  let v := leNat bs
  let y := v % 2 ^ 255
  if bs.length = 32 ∧ y < edP then
    (edRecoverX y (v / 2 ^ 255)).map fun x => { x := x, y := y, z := 1, t := x * y % edP }
  else none

/-- The base point. -/
def edBase : EdPoint :=
  let y := 4 * edInv 5 % edP
  let x := (edRecoverX y 0).getD 0
  { x := x, y := y, z := 1, t := x * y % edP }

/-- Verification of an Ed25519 signature of `msg` under a public key, with the cofactored group equation. -/
def ed25519Verify (pub msg sig : Bytes) : Bool :=
  let s := leNat (slice sig 32 32)
  if sig.length = 64 ∧ s < edL then
    match edDecode pub, edDecode (sig.take 32) with
    | some a, some r =>
      let k := leNat (sha512 (sig.take 32 ++ pub ++ msg)) % edL
      edEq (edMul 8 (edMul s edBase)) (edMul 8 (edAdd r (edMul k a)))
    | _, _ => false
  else false

end Sys2Proof.Machine
end

