-- ==== Sys2Proof/Machine/Package.lean ====
section
/-! DEFINITION. Packages and manifests: fields, checks 0x01 to 0x09, system deltas, banks and staging (R427 to R434,
R436, R442, R445). -/

namespace Sys2Proof.Machine

/-! ### Manifests (R429 to R431) -/

/-- One part entry of a manifest. -/
structure PartEntry where
  id        : Nat
  full      : Bool
  flags     : Nat
  version   : Nat
  length    : Nat
  location  : Nat
  source    : Bytes
  target    : Bytes
  dataOff   : Nat
  dataCount : Nat
  clean     : Bool
deriving DecidableEq, Repr

/-- Part entry i of a manifest. -/
def partEntry (m : Bytes) (i : Nat) : PartEntry :=
  let a := 256 + 96 * i
  { id := leAt m a 1, full := bitOf (leAt m (a + 1) 1) 0, flags := leAt m (a + 1) 1, version := leAt m (a + 4) 4
    length := leAt m (a + 8) 4, location := leAt m (a + 12) 4, source := slice m (a + 16) 32, target := slice m (a + 48) 32
    dataOff := leAt m (a + 80) 4, dataCount := leAt m (a + 84) 4
    clean := decide (leAt m (a + 2) 2 = 0) && decide (leAt m (a + 88) 8 = 0) }

/-- The parts of a manifest of KIND 0 system, 1 application. -/
def kindParts (kind : Nat) : List Nat := if kind = 0 then [0, 1, 2, 3, 4, 5, 6] else [0x10, 0x11, 0x12]
def manLength (kind : Nat) : Nat := 256 + 96 * (kindParts kind).length
def manParts (kind : Nat) (m : Bytes) : List PartEntry := (List.range (kindParts kind).length).map (partEntry m)

/-- The entry of a part id. -/
def manPart (kind : Nat) (m : Bytes) (id : Nat) : Option PartEntry := (manParts kind m).find? fun e => e.id = id

/-- Header fields. -/
def manSet (m : Bytes) : Nat := leAt m 12 4
def manIssues (m : Bytes) : Nat := leAt m 16 2
def manBridges (m : Bytes) : List Nat := (List.range (leAt m 18 1)).map fun i => leAt m (128 + 4 * i) 4
def manSignKey (m : Bytes) : Bytes := slice m 176 32
def manNextKey (m : Bytes) : Bytes := slice m 208 32

/-- The blocks of a part's extent (R430): the first block and their number, in blocks of 4,096 bytes. -/
def extentOf (e : PartEntry) : Nat × Nat := (e.location / 4096, (e.length + 4095) / 4096)

/-- Check 0x01: the header and the reserved fields of R429; `total` is the staged TOTAL, none for a manifest alone. -/
def manFormat (kind : Nat) (total : Option Nat) (m : Bytes) : Bool :=
  let len := manLength kind
  decide (leAt m 0 4 = if kind = 0 then 0x4A534D46 else 0x4A414D46) && decide (leAt m 4 2 = 1) && decide (leAt m 6 1 = kind) &&
  decide (leAt m 7 1 = (kindParts kind).length) && decide (leAt m 8 4 = len) && decide (manSet m ≠ 0) &&
  decide (manIssues m ≤ 3) && decide (leAt m 18 1 ≤ 4) && decide (leAt m 19 1 = 0) &&
  (match total with
    | some t => decide (len + leAt m 24 4 = t)
    | none => true) &&
  decide (leAt m 28 4 = 0) &&
  ((List.range 4).all fun i => decide (i < leAt m 18 1) || decide (leAt m (128 + 4 * i) 4 = 0)) &&
  (decide (kind = 1) || (slice m 176 64).all (· = 0)) && (slice m 240 16).all (· = 0) &&
  (manParts kind m).all fun e => decide (e.flags ≤ 1) && e.clean && (!e.full || e.source.all (· = 0))

/-- DIGEST matches (R429). -/
def manDigest (kind : Nat) (m : Bytes) : Bool := decide (slice m 32 32 = sha256 (m.take 32 ++ slice m 128 (manLength kind - 128)))

/-- Is a SIGN_KEY admitted by the plant keys (R431)? -/
def keyAdmitted (s : State) (k : Bytes) : Bool :=
  (s.mgt.plantCurrent.isNone && s.mgt.plantNext.isNone) || decide (s.mgt.plantCurrent = some k) || decide (s.mgt.plantNext = some k)

/-- Check 0x02 (R431). -/
def manSigned (kind : Nat) (m : Bytes) (s : State) : Bool :=
  let key := if kind = 0 then Config.releaseKey else manSignKey m
  manDigest kind m && (decide (kind = 0) || keyAdmitted s key) && ed25519Verify key (slice m 32 32) (slice m 64 64)

/-- Check 0x03. -/
def manPayload (kind : Nat) (pkg : Bytes) : Bool := decide (slice pkg 144 32 = sha256 (pkg.drop (manLength kind)))

/-- Check 0x04: ISSUES includes the hardware issue. -/
def manIssue (m : Bytes) (s : State) : Bool := bitOf (manIssues m) (s.mgt.issue.toNat - 1)

/-- Check 0x05: the first part entry that does not meet R430. -/
def manBadPart (kind : Nat) (m : Bytes) : Option Nat :=
  let es := manParts kind m
  let ok := fun (i : Nat) => match es[i]? with
    | none => true
    | some e =>
      let x := extentOf e
      decide (e.id = nth 0 (kindParts kind) i) && decide (1 ≤ e.length) && decide (e.location % 4096 = 0) &&
      (if kind = 0 then decide (x.1 + x.2 ≤ 12288)
       else e.full && decide (4096 ≤ e.location) && decide (x.1 + x.2 ≤ 4096) && decide (e.dataCount = e.length)) &&
      (es.take i).all fun f =>
        let y := extentOf f
        decide (y.1 + y.2 ≤ x.1) || decide (x.1 + x.2 ≤ y.1)
  ((List.range es.length).find? fun i => !ok i).map fun i => nth 0 (kindParts kind) i

/-! ### System deltas (R432, R433) -/

/-- One operation record. -/
structure OpRec where
  at_    : Nat
  op     : Nat
  value  : Byte
  target : Nat
  source : Option Nat
  good   : Bool
  data   : Bytes
deriving DecidableEq, Repr

/-- The operation record that stands at payload offset `a`. -/
def opRec (p : Bytes) (a : Nat) : OpRec :=
  let op := leAt p a 1
  let src := leAt p (a + 8) 4
  let dat := if op = 2 then slice p (a + 16) 4096 else []
  let srcOk := decide (src ≤ 12287) || (decide (op = 2) && decide (src = 0xFFFFFFFF))
  { at_ := a, op := op, value := nth 0 p (a + 1), target := leAt p (a + 4) 4
    source := if src = 0xFFFFFFFF then none else some src, data := dat
    good := decide (1 ≤ op) && decide (op ≤ 3) && (decide (op = 3) || decide (leAt p (a + 1) 1 = 0)) && decide (leAt p (a + 2) 2 = 0) &&
      decide (leAt p (a + 4) 4 ≤ 12287) && srcOk &&
      decide (leAt p (a + 12) 4 = if op = 2 then crc32c dat else 0) }

/-- The records of a payload, which they fill exactly; the fuel bounds their number. -/
def opRecs (p : Bytes) : Nat → Nat → Option (List OpRec)
  | 0, _ => none
  | k + 1, a =>
    if a = p.length then some []
    else
      let r := opRec p a
      let n := if r.op = 2 then 4112 else 16
      if a + n ≤ p.length then (opRecs p k (a + n)).map (r :: ·) else none

/-- The records of a package's payload. -/
def payloadRecs (pkg : Bytes) : Option (List OpRec) :=
  let p := pkg.drop (manLength 0)
  opRecs p (p.length / 16 + 1) 0

/-- The records of a part: `n` of them from record `k` on. -/
def partRecs (rs : List OpRec) (k n : Nat) : List OpRec := (rs.drop k).take n

/-- Do the records of one part meet R433, the part beginning with record k? -/
def partOpsOk (rs : List OpRec) (k : Nat) (e : PartEntry) : Bool :=
  let mine := partRecs rs k e.dataCount
  let x := extentOf e
  let targets := mine.map OpRec.target
  decide (mine.length = e.dataCount) && (mine = [] || decide ((mine.head?.map OpRec.at_) = some e.dataOff)) &&
  decide (mine.length = x.2) && decide (targets.Nodup) &&
  mine.all fun r => r.good && decide (x.1 ≤ r.target) && decide (r.target < x.1 + x.2) &&
    (!e.full || decide (r.op = 3) || (decide (r.op = 2) && r.source.isNone))

/-- Is no SOURCE the TARGET of an earlier record? -/
def sourcesFresh : List Nat → List OpRec → Bool
  | _, [] => true
  | seen, r :: rs =>
    (match r.source with
      | some x => decide (x ∉ seen)
      | none => true) && sourcesFresh (r.target :: seen) rs

/-- Check 0x06: a failure, with the part where one is concerned. -/
def opsFailure (m : Bytes) (rs : Option (List OpRec)) : Option (Option Nat) :=
  match rs with
  | none => some none
  | some rs =>
    let es := manParts 0 m
    let start := fun i => ((es.take i).map PartEntry.dataCount).sum
    match (List.range es.length).find? fun i => match es[i]? with
        | some e => !partOpsOk rs (start i) e
        | none => false with
    | some i => some (some i)
    | none => if start es.length ≠ rs.length ∨ !sourcesFresh [] rs then some none else none

/-- The result block of an operation (R432) over the system image in flash. -/
def applyOp (r : OpRec) (s : State) : Bytes :=
  let blk := fun x => flashRead (4096 * x) 4096 s
  if r.op = 1 then blk (r.source.getD 0)
  else if r.op = 2 then
    let base := match r.source with
      | some x => blk x
      | none => zeros 4096
    (base.zip r.data).map fun z => z.1 + z.2
  else List.replicate 4096 r.value

/-- A system part's bytes by a manifest's entry, and a bank's. -/
def sysPart (e : PartEntry) (s : State) : Bytes := flashRead e.location e.length s
def bankBase (b : Bool) : Nat := if b then 0x4000000 else 0x3000000
def bankPart (b : Bool) (e : PartEntry) (s : State) : Bytes := flashRead (bankBase b + e.location) e.length s

/-- Check 0x07: the first part whose SOURCE_HASH is neither 0 nor the hash of the current part. -/
def sourceFailure (m : Bytes) (s : State) : Option Nat :=
  (((manParts 0 m).find? fun e => !(e.source.all (· = 0)) &&
    match manPart 0 s.upd.manifest e.id with
    | some c => decide (sha256 (sysPart c s) ≠ e.source)
    | none => true).map PartEntry.id)

/-- Check 0x09 on the system image: the first part that fails its TARGET_HASH. -/
def targetFailure (m : Bytes) (s : State) : Option Nat :=
  ((manParts 0 m).find? fun e => decide (sha256 (sysPart e s) ≠ e.target)).map PartEntry.id

/-- The hash that a part's TARGET_HASH names: of a Mould its DIGEST (R96, R429), else of its bytes. -/
def partHash (id : Nat) (bs : Bytes) : Bytes := if id = 0x10 then sha256 (bs.take 32 ++ bs.drop 128) else sha256 bs

/-- A part's body in an application package's payload. -/
def bodyOf (pkg : Bytes) (e : PartEntry) : Bytes := slice (pkg.drop (manLength 1)) e.dataOff e.length

/-- Check 0x09 on an application package. -/
def bodyFailure (pkg : Bytes) : Option Nat :=
  ((manParts 1 pkg).find? fun e => decide ((bodyOf pkg e).length ≠ e.length) || decide (partHash e.id (bodyOf pkg e) ≠ e.target)).map PartEntry.id

/-- A check code with the part, where one is concerned. -/
abbrev PkgFail := Nat × Option Nat

/-- Checks 0x01 to 0x05 on a package (R434, R442). -/
def pkgBasic (kind : Nat) (total : Option Nat) (pkg : Bytes) (s : State) : Option PkgFail :=
  if !manFormat kind total pkg then some (1, none)
  else if !manSigned kind pkg s then some (2, none)
  else if total.isSome ∧ !manPayload kind pkg then some (3, none)
  else if !manIssue pkg s then some (4, none)
  else (manBadPart kind pkg).map fun p => (5, some p)

/-! ### Banks (R442, R443) -/

/-- A bank's markers: A (`false`) or B. -/
def bankOf (b : Bool) (s : State) : Bank := if b then s.upd.bankB else s.upd.bankA
def setBank (b : Bool) (x : Bank) (s : State) : State :=
  { s with upd := if b then { s.upd with bankB := x } else { s.upd with bankA := x } }

/-- The bank that this start uses: the pending bank in place of the active one (R443). -/
def usedBank (s : State) : Bool := if s.upd.inUse then !s.upd.active else s.upd.active

/-- The manifest at offset 0 of a bank. -/
def bankManifest (b : Bool) (s : State) : Bytes := flashRead (bankBase b) (manLength 1) s

/-- The bank that holds a package by its PKG. -/
def bankHolding (pkg : Word) (s : State) : Option Bool :=
  if s.upd.bankA.pkg = some pkg then some false else if s.upd.bankB.pkg = some pkg then some true else none

/-- Check 0x08 for a system package: the bank that holds an application package of its Tested Set. -/
def bankOfSet (set : Nat) (s : State) : Option Bool :=
  let has := fun b => (bankOf b s).pkg.isSome && decide ((bankOf b s).set.toNat = set)
  if has s.upd.active then some s.upd.active else if has (!s.upd.active) then some (!s.upd.active) else none

/-- All checks of a system package (R434). -/
def sysChecks (st : Staged) (s : State) : Option PkgFail :=
  match pkgBasic 0 (some st.total) st.data s with
  | some f => some f
  | none =>
    match opsFailure st.data (payloadRecs st.data) with
    | some p => some (6, p)
    | none =>
      match sourceFailure st.data s with
      | some p => some (7, some p)
      | none => if (bankOfSet (manSet st.data) s).isSome then none else some (8, none)

/-- All checks of an application package (R442). -/
def appChecks (st : Staged) (s : State) : Option PkgFail :=
  match pkgBasic 1 (some st.total) st.data s with
  | some f => some f
  | none => (bodyFailure st.data).map fun p => (9, some p)

/-- The program bytes of a bank: its part, or the program of its last chained edit (R194, R445). -/
def bankProgram (b : Bool) (s : State) : Bytes :=
  if (bankOf b s).chain ≠ [] then (bankOf b s).prog
  else match manPart 1 (bankManifest b s) 0x11 with
    | some e => bankPart b e s
    | none => []

/-- Does an edit package verify under a plant signing key (R190, R431)? -/
def editSigned (key p : Bytes) : Bool :=
  decide (slice p 96 32 = sha256 (p.take 96 ++ p.drop 192)) && ed25519Verify key (slice p 96 32) (slice p 128 64)

/-- The hash at the end of an edit chain that starts from a base hash; none where a link or a signature fails. -/
def chainHash (key : Bytes) : Bytes → List Bytes → Option Bytes
  | h, [] => some h
  | h, p :: ps => if slice p 32 32 = h ∧ editSigned key p then chainHash key (slice p 64 32) ps else none

/-- R445: the program of a bank agrees with its manifest and chain. -/
def programChecked (b : Bool) (s : State) : Bool :=
  let m := bankManifest b s
  match manPart 1 m 0x11 with
  | some e => decide (chainHash (manSignKey m) e.target (bankOf b s).chain = some (sha256 (bankProgram b s)))
  | none => false

/-- Does an application manifest verify: format, DIGEST, SIGNATURE (R444)? -/
def appManifestOk (b : Bool) (s : State) : Bool := manFormat 1 none (bankManifest b s) && manSigned 1 (bankManifest b s) s

/-- Does a copy of the journal header hold its CRC-32C? -/
def headGood (a : Nat) (s : State) : Bool := decide (leAt (mramRead a 64 s) 60 4 = crc32c (mramRead a 60 s))

/-- Does the block buffer hold its CRC-32C, over the operation and the block? -/
def bufferGood (s : State) : Bool :=
  decide (leAt (mramRead 0x280084 4 s) 0 4 = crc32c (mramRead 0x280080 4 s ++ mramRead 0x281000 4096 s))

/-- What the ROM reads of the journal at a start that finds PATCHING (R436). -/
def readJournal (s : State) : State :=
  { s with upd := { s.upd with copiesOk := headGood 0x280000 s || headGood 0x280040 s, bufferOk := bufferGood s } }

/-- Why a resumed update cannot go on, as the cause of SJ 0x0A07: 0 journal, 1 buffer, 2 staging (R436). -/
def resumeFailure (s : State) : Option Nat :=
  if !s.upd.copiesOk then some 0
  else if s.upd.prepared.isSome ∧ !s.upd.bufferOk then some 1
  else match s.upd.sys with
    | some st => if manSigned 0 st.data s ∧ manPayload 0 st.data then none else some 2
    | none => some 2

/-! ### The update journal and staging in their stores (R23, R427, R428, R435, R437)

The manual gives their places and sizes and not their layout: that is the model's (DESIGN CHOICE, log 75). -/

/-- UPD.STATUS.STATE. -/
def journalCode : JournalState → Nat
  | .idle => 0
  | .patching => 1
  | .committed => 2
  | .dead => 3

/-- A staged package in the journal: PKG, TOTAL, bytes received. -/
def stagedHead (x : Option Staged) : Bytes :=
  match x with
  | none => zeros 12
  | some t => leBytes 4 t.pkg.toNat ++ leBytes 4 t.total ++ leBytes 4 t.received

/-- The head of the update journal, 64 bytes with its CRC-32C. -/
def journalHead (u : Upd) : Bytes :=
  let b := leBytes 1 (journalCode u.journal) ++ leBytes 1 (b2n u.accepting) ++ leBytes 1 (b2n u.prepared.isSome) ++ leBytes 1 u.deadCause.toNat ++
    leBytes 4 u.opsDone ++ leBytes 4 u.opsTotal ++ stagedHead u.sys ++ stagedHead u.app ++ stagedHead u.edit ++ leBytes 4 u.headSeq.toNat ++ zeros 8
  b ++ leBytes 4 (crc32c b)

/-- The head written, into the copy that is not the newer (R435). -/
def journalWrite (s : State) : State :=
  let u := { s.upd with headSeq := s.upd.headSeq + 1 }
  mramWrite (0x280000 + 0x40 * (u.headSeq.toNat % 2)) (journalHead u) { s with upd := u }

/-- Steps 2 and 3 of R435: the operation and its block in the block buffer with a CRC-32C over both, then PREPARED k in the
header. -/
def journalPrepared (k : Nat) (blk : Bytes) (s : State) : State :=
  journalWrite (mramWrite 0x281000 blk (mramWrite 0x280080 (leBytes 4 k ++ leBytes 4 (crc32c (leBytes 4 k ++ blk)))
    { s with upd := { s.upd with prepared := some (k, blk) } }))

/-- The journal test word of the ROM self-tests, written and read back; its value is not stated: free (R439, log 3). -/
def journalTestWord (s : State) : State := mramWrite 0x280140 (leBytes 4 (freeWord s).toNat) (drawn s)

/-- The active system manifest into the spare slot, then the 64-byte commit record that names it, with a sequence number
(R437). -/
def journalCommit (s : State) : State :=
  let u := { s.upd with slot := !s.upd.slot, commits := s.upd.commits + 1 }
  let b := leBytes 4 u.commits.toNat ++ leBytes 1 (b2n u.slot) ++ leBytes 1 (b2n u.active) ++ zeros 54
  journalWrite (mramWrite 0x280100 (b ++ leBytes 4 (crc32c b))
    (mramWrite (0x282000 + 0x1000 * b2n u.slot) u.manifest { s with upd := u }))

/-- The staged packages in delta staging, one behind the other in the order of their kinds. -/
def stagingBytes (u : Upd) : Bytes :=
  ([u.sys, u.app, u.edit].filterMap id).flatMap fun t => t.data ++ List.replicate (t.total - t.received) (0xFF : Byte)

/-- Delta staging written, with the counts in the journal (R428). -/
def stagingWrite (s : State) : State :=
  journalWrite (flashWrite 0x6000000 (stagingBytes s.upd) (flashErase 0x6000000 0x1000000 s))

end Sys2Proof.Machine
end

