-- ==== Sys2Proof/Machine/LaneMem.lean ====
section
/-! DEFINITION. Lane A's working memory: timer, counter and call states as the bytes of data memory in which they stand (R22). -/

namespace Sys2Proof.Machine

/-- A timer or counter state as bytes: the layout is the model's (log 29). -/
def timerBytes (t : Timer) : Bytes :=
  leBytes 4 t.et.toNat ++ leBytes 4 t.start.toNat ++
    leBytes 1 (b2n t.run + 2 * b2n t.q + 4 * b2n t.ack + 8 * b2n t.restored + 16 * b2n t.inp) ++ leBytes 1 t.st.toNat ++ zeros 6
def timerOfBytes (bs : Bytes) : Timer :=
  let f := leAt bs 8 1
  { et := BitVec.ofNat 32 (leAt bs 0 4), start := BitVec.ofNat 32 (leAt bs 4 4), run := bitOf f 0, q := bitOf f 1
    ack := bitOf f 2, restored := bitOf f 3, inp := bitOf f 4, st := BitVec.ofNat 4 (leAt bs 9 1) }
def counterBytes (c : Counter) : Bytes := leBytes 4 c.cv.toNat ++ leBytes 1 (b2n c.cin + 2 * b2n c.done) ++ zeros 3
def counterOfBytes (bs : Bytes) : Counter :=
  let f := leAt bs 4 1
  { cv := BitVec.ofNat 32 (leAt bs 0 4), cin := bitOf f 0, done := bitOf f 1 }

/-- A return position of the call stack as 8 bytes. -/
def retFrameBytes (f : Frame) : Bytes := leBytes 1 f.typ.toNat ++ zeros 1 ++ leBytes 2 f.number ++ leBytes 4 f.offset
def retFrameOfBytes (bs : Bytes) : Frame :=
  { typ := BitVec.ofNat 8 (leAt bs 0 1), number := leAt bs 2 2, offset := leAt bs 4 4 }

/-- The states that Lane A keeps from 0x800000 on, with the model's layout (DESIGN CHOICE, log 72): 4,096 timers of 16 bytes, 2,048
counters of 8 bytes, and from 0x820000 on the return positions of 8 bytes each, the outermost first. -/
def laneEnd : Nat := 0x820100
def inLane (a : Nat) : Bool := decide (0x800000 ≤ a) && (decide (a < 0x814000) || (decide (0x820000 ≤ a) && decide (a < laneEnd)))

/-- The byte of Lane A's states at data memory offset `a`. -/
def laneByte (s : State) (a : Nat) : Byte :=
  if a < 0x810000 then nth 0 (timerBytes (sget {} s.img.timers ((a - 0x800000) / 16))) (a % 16)
  else if a < 0x814000 then nth 0 (counterBytes (sget {} s.img.counters ((a - 0x810000) / 8))) (a % 8)
  else match s.bx.calls.reverse[(a - 0x820000) / 8]? with
    | some f => nth 0 (retFrameBytes f) (a % 8)
    | none => 0

/-- A byte of Lane A's states written. A return position beyond those that stand is not written. -/
def setLaneByte (a : Nat) (v : Byte) (s : State) : State :=
  let i := s.img
  if a < 0x810000 then
    let n := (a - 0x800000) / 16
    { s with img := { i with timers := sput {} i.timers n (timerOfBytes (setAt (timerBytes (sget {} i.timers n)) (a % 16) v)) } }
  else if a < 0x814000 then
    let n := (a - 0x810000) / 8
    { s with img := { i with counters := sput {} i.counters n (counterOfBytes (setAt (counterBytes (sget {} i.counters n)) (a % 8) v)) } }
  else
    { s with bx := { s.bx with
        calls := (modAt s.bx.calls.reverse ((a - 0x820000) / 8) fun f => retFrameOfBytes (setAt (retFrameBytes f) (a % 8) v)).reverse } }

/-- Bytes of data memory as the check-value unit and the table DMA address them: Lane A's states where they stand. -/
def unitRead (a n : Nat) (s : State) : Bytes :=
  if a + n ≤ 0x800000 ∨ laneEnd ≤ a then dataRead a n s
  else (List.range n).map fun k => if inLane (a + k) then laneByte s (a + k) else memGet 0 s.data (a + k)

/-- Bytes written there. -/
def unitWrite (a : Nat) (bs : Bytes) (s : State) : State :=
  if a + bs.length ≤ 0x800000 ∨ laneEnd ≤ a then dataWrite a bs s
  else (bs.zip (List.range bs.length)).foldl (fun t x =>
    if inLane (a + x.2) then setLaneByte (a + x.2) x.1 t else dataWrite (a + x.2) [x.1] t) s

end Sys2Proof.Machine
end

