-- ==== Sys2Proof/Machine/Records.lean ====
section
/-! DEFINITION. The Safety Journal, the Trace Ring, the check-value unit and the Queue Pool's commands
(R114 to R117, R379 to R402). -/

namespace Sys2Proof.Machine

/-- The 64 bytes of a journal record (R382). -/
def sjBytes (r : Record) : Bytes :=
  withCrcLe (leBytes 2 0x534A ++ leBytes 2 r.code.toNat ++ leBytes 6 r.optMs ++ leBytes 4 r.cycles.toNat ++
    [r.source, r.severity] ++ padTo 40 r.items ++ leBytes 4 r.notWritten)

/-- The 64 bytes of a trace record (R388). -/
def trBytes (seq : DWord) (r : Record) : Bytes :=
  withCrcLe (leBytes 2 0x5254 ++ leBytes 2 r.code.toNat ++ leBytes 8 seq.toNat ++ leBytes 6 r.optMs ++
    [r.source, r.severity] ++ padTo 36 r.items ++ leBytes 4 r.notWritten)

/-- The MRAM offset of a journal slot and the flash offset of a trace slot. -/
def sjSlot (n : Nat) : Nat := 0x80000 + 64 * n
def trSlot (n : Nat) : Nat := 0x5000000 + 64 * n

/-- The two copies of HEAD and the wrap count in the backup state region, each with its CRC-32C (R386); their place and layout are the
model's (log 75). -/
def headBytes (l : Log) : Bytes := withCrcLe (leBytes 4 l.sjHead.toNat ++ leBytes 4 l.sjWraps.toNat)
def headSave (s : State) : State := mramWrite 0x3DFC40 (headBytes s.log) (mramWrite 0x3DFC00 (headBytes s.log) s)

/-- A copy as HEAD and wrap count; none where its CRC fails. One that nothing has written is a new unit's: HEAD 0, no wraps (log 75). -/
def headCopy (a : Nat) (s : State) : Option (Nat × Nat) :=
  let bs := mramRead a 12 s
  if bs.all (· = 0) ∨ leAt bs 8 4 = crc32c (bs.take 8) then some (leAt bs 0 4, leAt bs 4 4) else none

/-- HEAD advanced by one slot, with the wrap count (R386). -/
def sjAdvance (s : State) : State :=
  headSave { s with log := { s.log with
      sjHead := s.log.sjHead + 1
      sjWraps := if s.log.sjHead = 0x7FFF then satInc s.log.sjWraps else s.log.sjWraps } }

/-- Bytes in the slot at HEAD, HEAD advanced. `LOG.ANCHOR` takes the slot of a TIME_ANCHOR (R392). -/
def sjPut (bs : Bytes) (anchor : Bool) (s : State) : State :=
  let s1 := mramWrite (sjSlot s.log.sjHead.toNat) bs s
  let s2 := if anchor then { s1 with log := { s1.log with anchor := s.log.sjHead, anchorValid := true } } else s1
  sjAdvance s2

/-- A record that the Marshal itself makes because of record `r`, for the next slot: it carries the operating time and power-cycle
count of `r`, so that neither decreases along the journal (R381; DEDUCED, log 75). -/
def sjDirect (r : Record) (code sev : Nat) (items : Bytes) (s : State) : State :=
  let d : Record := { code := BitVec.ofNat 16 code, optMs := r.optMs, cycles := r.cycles, source := sourceOf code
                      severity := BitVec.ofNat 8 sev, items := items }
  { s with log := { s.log with sjOwn := s.log.sjOwn ++ [d] } }

/-- SJ 0x0C01 as the first record after a wrap (R386). -/
def sjWrapNote (r : Record) (wrapped : Bool) (s : State) : State :=
  if wrapped then sjDirect r 0xC01 0 (item s.log.sjWraps.toNat) s else s

/-- A record stored at HEAD, with SJ 0x0C01 after a wrap. -/
def sjStore (r : Record) (s : State) : State :=
  sjWrapNote r (s.log.sjHead = 0x7FFF) (sjPut (sjBytes r) (r.code = 0x101) s)

/-- The journal slot that two read-backs found different: it is left as it stands, with contents the manual does not
give, HEAD is advanced, the failure is counted, and SJ 0x0C03 takes the next slot, behind the SJ 0x0C01 of a wrap (R386, R387). -/
def sjFailed (r : Record) (s : State) : State :=
  let bs := (List.range 16).flatMap fun k => leBytes 4 (Config.freeWord (s.clk.freeCount + k)).toNat
  let slot := s.log.sjHead.toNat
  let s1 := { s with clk := { s.clk with freeCount := s.clk.freeCount + 16 },
                     log := { s.log with sjFails := satInc s.log.sjFails } }
  sjDirect r 0xC03 2 (item slot ++ item r.code.toNat) (sjWrapNote r (slot = 0x7FFF) (sjPut bs false s1))

/-- The record to be written next and the state without it: one of the Marshal's own, else the oldest of Q0002. -/
def sjTake (s : State) : Option (Record × State) :=
  match s.log.sjOwn, s.log.sjQueue with
  | r :: rs, _ => some (r, { s with log := { s.log with sjOwn := rs } })
  | [], r :: rs => some (r, drop1 2 { s with log := { s.log with sjQueue := rs } })
  | [], [] => none

/-- SJ_RECORD_WRITE (R384, R387): `firstOk` and `secondOk` say whether the read-backs agree. -/
def sjRecordWrite (firstOk secondOk : Bool) (s : State) : State :=
  match sjTake s with
  | none => s
  | some (r, t) => if firstOk || secondOk then sjStore r t else sjFailed r t

/-- Every record that was pushed no later than `limit` ms of operating time, written (R385). The fuel bounds their number. -/
def sjFlush (limit : Nat) : Nat → State → State
  | 0, s => s
  | n + 1, s =>
    match sjTake s with
    | none => s
    | some (r, _) => if r.optMs ≤ limit then sjFlush limit n (sjRecordWrite true true s) else s

/-- How many records wait, with the SJ 0x0C01 that writing them may add. -/
def sjWaiting (s : State) : Nat := s.log.sjOwn.length + s.log.sjQueue.length + 1

/-- Is the 64-byte slot never written (R395)? -/
def slotEmpty (d : Byte) (bs : Bytes) : Bool := bs.all (· = d)

/-- Is a slot's record good: FORMAT and CRC (R395)? -/
def slotGood (format : Nat) (bs : Bytes) : Bool :=
  leAt bs 0 2 = format ∧ leAt bs 60 4 = crc32c (bs.take 60)

/-- The key of a valid journal slot in the order of R381: power-cycle count, operating time. -/
def sjOrder (bs : Bytes) : Nat := leAt bs 10 4 * 2 ^ 48 + leAt bs 4 6

/-- How far the next of the slots `ns` lies behind slot `n`, around the journal. -/
def nextGap (ns : List Nat) (n : Nat) : Nat :=
  (ns.map fun m => if m = n then 32768 else (m + 32768 - n) % 32768).foldl min 32768

/-- Of slots with equal order keys, the one written last: records are written one behind the other, so behind it the gap to the next of
them is the widest (R386; DEDUCED, log 75). -/
def lastSlot (ns : List Nat) : Option Nat :=
  (ns.foldl (fun b n => match b with
    | some y => if y.1 < nextGap ns n then some (nextGap ns n, n) else some y
    | none => some (nextGap ns n, n)) (none : Option (Nat × Nat))).map Prod.snd

/-- HEAD rebuilt by a scan of all slots: after the valid record that is last in the order of R381 (R386). -/
def sjRebuild (s : State) : State :=
  let good := (List.range 32768).filterMap fun n =>
    let bs := mramRead (sjSlot n) 64 s
    if slotGood 0x534A bs then some (sjOrder bs, n) else none
  let top := (good.map Prod.fst).foldl max 0
  let head := match lastSlot ((good.filter fun x => decide (x.1 = top)).map Prod.snd) with
    | some n => (n + 1) % 32768
    | none => 0
  let s1 := headSave { s with log := { s.log with
    sjHead := BitVec.ofNat 15 head, sjWraps := 0, rebuilt := true, headValid := false } }
  sj 0xC02 2 (item head ++ item good.length) s1

/-- HEAD and the wrap count at a start: of the first valid copy, else rebuilt (R386). -/
def sjAtStart (s : State) : State :=
  match (headCopy 0x3DFC00 s).or (headCopy 0x3DFC40 s) with
  | some (h, w) => { s with log := { s.log with
      sjHead := BitVec.ofNat 15 h, sjWraps := BitVec.ofNat 32 w, rebuilt := false, headValid := true } }
  | none => sjRebuild s

/-- The next trace SEQ; a new block begins with no slot skipped. -/
def trNext (s : State) : State :=
  { s with log := { s.log with trSeq := s.log.trSeq + 1
                               trSkipped := if (s.log.trSeq.toNat + 1) % 1024 = 0 then 0 else s.log.trSkipped } }

/-- TR_RECORD_WRITE (R389, R390): the 512th record of a block starts the erase of the next block. -/
def trRecordWrite (s : State) : State :=
  match s.log.trQueue with
  | [] => s
  | r :: rs =>
    let seq := s.log.trSeq
    let slot := seq.toNat % 262144
    let s1 := drop1 3 { s with log := { s.log with trQueue := rs } }
    let s2 := trNext (flashWrite (trSlot slot) (trBytes seq r) s1)
    if slot % 1024 = 511 + s.log.trSkipped then
      { s2 with log := { s2.log with erasing := true, erasingBlock := (slot / 1024 + 1) % 256 } }
    else s2

/-- TR_BLOCK_ERASED: the erase of a block completes. -/
def trBlockErased (s : State) : State :=
  if s.log.erasing then
    flashErase (trSlot (1024 * s.log.erasingBlock)) 65536 { s with log := { s.log with erasing := false } }
  else s

/-- A SEQ skipped. -/
def trSkipOne (s : State) : State :=
  trNext { s with log := { s.log with trSkipped := s.log.trSkipped + 1 } }

/-- At start, a SEQ whose slot is not erased is skipped (R390). -/
def trSkip (s : State) : State :=
  if slotEmpty 0xFF (flashRead (trSlot (s.log.trSeq.toNat % 262144)) 64 s) then s else trSkipOne s

/-! ### The check-value unit -/

/-- Bytes of the scan space (R399). -/
def scanRead (a n : Nat) (s : State) : Bytes :=
  if a < 0x10000000 then unitRead a n s
  else if a < 0x20000000 then mramRead (a - 0x10000000) n s
  else flashRead (a - 0x20000000) n s

/-- Does the range lie within one store of the scan space, outside the backup state region (R399)? -/
def scanRange (a n : Nat) : Bool :=
  (a + n ≤ dataSize) ||
  (decide (0x10000000 ≤ a) && decide (a + n ≤ 0x10000000 + mramSize) &&
    !(decide (a < 0x103E0000) && decide (0x103A0000 < a + n))) ||
  (decide (0x20000000 ≤ a) && decide (a + n ≤ 0x20000000 + flashSize))

/-- Do a job's POLY, MODE, START and LENGTH keep R397 and R399? -/
def jobGood (poly mode : Byte) (start length : Nat) : Bool :=
  let op := mode.toNat % 4
  let w := crcWidth poly.toNat
  decide (poly.toNat ≤ 3) && decide (mode.toNat < 8) && decide (op ≠ 3) && decide (1 ≤ length) &&
    decide (length ≤ 0x1000000) && (decide (op ≠ 2) || decide (w + 1 ≤ length)) &&
    scanRange start (if op = 1 then length + w else length) &&
    (decide (op ≠ 1) || decide (start + length + w ≤ dataSize))

/-- The bytes of a stored check value by ORDER (R397). -/
def orderBytes (mode : Byte) (w v : Nat) : Bytes := if mode.getLsbD 2 then beBytes w v else leBytes w v
def orderNat (mode : Byte) (bs : Bytes) : Nat := if mode.getLsbD 2 then beNat bs else leNat bs

/-- The result value of a job and whether it is a mismatch (R397). -/
def jobValue (poly mode : Byte) (start length : Nat) (s : State) : Nat × Bool :=
  let w := crcWidth poly.toNat
  if mode.toNat % 4 = 2 then
    let v := crcPoly poly.toNat (scanRead start (length - w) s)
    let x := Nat.xor v (orderNat mode (scanRead (start + length - w) w s))
    (x, decide (x ≠ 0))
  else (crcPoly poly.toNat (scanRead start length s), false)

/-- The append of a GENERATE_APPEND (R397). -/
def jobAppend (poly mode : Byte) (start length value : Nat) (s : State) : State :=
  if mode.toNat % 4 = 1 then
    unitWrite (start + length) (orderBytes mode (crcWidth poly.toNat) value) s
  else s

/-- The flash region that an accepted update request is writing (R401): an application bank, or the system image, also where the
update has been resumed after a start (R436). -/
def updRegion (s : State) : Option (Nat × Nat) :=
  if s.upd.journal = .patching then some (0x20000000, 0x3000000)
  else if s.upd.running = 0x0A then
    some (if s.upd.kind = 0 then (0x20000000, 0x3000000)
          else if s.upd.active then (0x23000000, 0x1000000) else (0x24000000, 0x1000000))
  else none

/-- Does a job touch that region? -/
def jobInUpdate (start length : Nat) (s : State) : Bool :=
  match updRegion s with
  | some (a, n) => decide (start < a + n) && decide (a < start + length)
  | none => false

/-- CRC_FRAME_JOB: one job of the frame channel, at most 4,116 bytes (R398). A refused one has no JOB and names no requester: those
items of TR 0x0C11 are free (R401, log 3). -/
def crcFrameJob (poly mode : Byte) (start length : Nat) (s : State) : State :=
  let good := jobGood poly mode start length && decide (length ≤ 4116)
  if good ∧ !jobInUpdate start length s then
    let (v, bad) := jobValue poly mode start length s
    let s1 := jobAppend poly mode start length v s
    if bad then { s1 with crc := { s1.crc with misFrame := satInc s1.crc.misFrame } } else s1
  else
    tr 0xC11 0 (item (freeWord s).toNat ++ item (freeWord (drawn s)).toNat ++ item (b2n good))
      (drawn (drawn { s with crc := { s.crc with refused := satInc s.crc.refused } }))

/-- The state of a request job changed (R402). -/
def setJob (job : Nat) (st : Byte) (v : Word) (s : State) : State :=
  { s with crc := { s.crc with jobs := s.crc.jobs.map fun j => if j.job = job then { j with state := st, value := v } else j } }

/-- A result descriptor on Q0013 (R400): outcome 0 done, 1 mismatch, 2 refused. -/
def crcResult (job : Half) (outcome : Nat) (value : Word) (s : State) : State :=
  push 13 { buf := value, len := 0, src := 0x0D, flags := if outcome = 0 then 0 else 1, ts := tsNow s,
            tag := BitVec.ofNat 32 (job.toNat + 65536 * outcome) } s

/-- A refused scan job (R401): its VALUE is not stated, so it is free. -/
def crcRefuse (job : Half) (src : Byte) (reason : Nat) (s : State) : State :=
  let s1 := { s with crc := { s.crc with refused := satInc s.crc.refused } }
  let s2 := tr 0xC11 0 (item job.toNat ++ item src.toNat ++ item reason) s1
  let s3 := if src = 1 then setJob job.toNat 3 (freeWord s2) (drawn s2) else s2
  crcResult job 2 (freeWord s3) (drawn s3)

/-- CRC_SCAN_START: the scan channel takes the job at the head of Q0012 (R398, R400, R401). -/
def crcScanStart (s : State) : State :=
  if s.crc.scan.isSome then s
  else
    match ringTake 12 s with
    | (_, none) => s
    | (t, some d) =>
      let r := unitRead d.buf.toNat 16 t
      let poly := nth 0 r 0
      let mode := nth 0 r 1
      let job := BitVec.ofNat 16 (leAt r 2 2)
      let start := leAt r 4 4
      let length := leAt r 8 4
      if !jobGood poly mode start length then crcRefuse job d.src 0 t
      else if jobInUpdate start length t then crcRefuse job d.src 1 t
      else
        let t1 := if d.src = 1 then setJob job.toNat 1 (freeWord t) (drawn t) else t
        let j : ScanJob := { job := job, src := d.src, poly := poly, mode := mode, start := BitVec.ofNat 32 start,
                             length := BitVec.ofNat 32 length }
        { t1 with crc := { t1.crc with lastJob := job, scan := some j } }

/-- CRC_SCAN_DONE: the running scan job completes (R397, R400). -/
def crcScanDone (s : State) : State :=
  match s.crc.scan with
  | none => s
  | some j =>
    let (v, bad) := jobValue j.poly j.mode j.start.toNat j.length.toNat s
    let s1 := jobAppend j.poly j.mode j.start.toNat j.length.toNat v s
    let w := BitVec.ofNat 32 v
    let s2 := { s1 with crc := { s1.crc with
      scan := none, done := satInc s1.crc.done, last := w
      misScan := if bad then satInc s1.crc.misScan else s1.crc.misScan } }
    let s3 := if j.src = 1 then setJob j.job.toNat 2 w s2 else s2
    crcResult j.job (if bad then 1 else 0) w s3

/-- SJ_RECORD_WRITE: the ROM writes records in every state except OFF and HIBERNATE (R384). -/
def execSjRecordWrite (firstOk secondOk : Bool) (s : State) : Result :=
  .next (whenever (awake s) (sjRecordWrite firstOk secondOk) s)
/-- TR_RECORD_WRITE. -/
def execTrRecordWrite (s : State) : Result := .next (whenever (awake s) trRecordWrite s)
/-- TR_BLOCK_ERASED. -/
def execTrBlockErased (s : State) : Result := .next (whenever (awake s) trBlockErased s)
/-- OPT_SAVE: the operating time saved to MRAM every 1,000 ms (R379). -/
def execOptSave (s : State) : Result :=
  .next (whenever (powered s) (fun s => { s with clk := { s.clk with savedMs := opMs s } }) s)
/-- TIME_ANCHOR: every 86,400,000 ms of operating time since the last anchor, while the RTC is trusted (R392). -/
def execTimeAnchor (s : State) : Result :=
  .next (whenever (awake s && rtcTrusted s && decide (s.clk.anchorMs + 86400000 ≤ opMs s)) (timeAnchor 2) s)
/-- CRC_FRAME_JOB. -/
def execCrcFrameJob (poly mode : Byte) (start length : Word) (s : State) : Result :=
  .next (whenever (awake s) (crcFrameJob poly mode start.toNat length.toNat) s)
/-- CRC_SCAN_START. -/
def execCrcScanStart (s : State) : Result := .next (whenever (awake s) crcScanStart s)
/-- CRC_SCAN_DONE. -/
def execCrcScanDone (s : State) : Result := .next (whenever (awake s) crcScanDone s)

/-- QUEUE_PUSH (R116). -/
def execQueuePush (ring : BitVec 10) (d : Desc) (s : State) : Result :=
  .next (whenever (awake s) (push ring.toNat d) s)
/-- QUEUE_POP (R115); a pop of RECORD_RING may free a buffer set (R259). A ring's LOST note belongs to the drain of event rings and is not touched. -/
def execQueuePop (ring : BitVec 10) (s : State) : Result := .next (whenever (awake s) (fun s => rearmAfterPop (drop1 ring.toNat s)) s)

/-- BACKPRESSURE_RESUME (R116): a waiting producer writes its descriptor into the slot a pop has freed, and the push
that waited is counted. -/
def backpressureResume (n : Nat) (s : State) : State :=
  let r := ringGet s n
  match r.waiting with
  | [] => s
  | d :: ds =>
    if ringFull r then s
    else
      let r1 := { ringCounted r with waiting := ds }
      let s1 := ringStore n r1 d s
      let s2 := trRepCount 0x124 1 n (fun k => item n ++ item r.policy.toNat ++ item k) s1
      if ringMarks r1 then
        trRep 0x125 0 n (item n ++ item (ringFill (ringGet s1 n)) ++ item (ringDepth r)) s2
      else s2

/-- BACKPRESSURE_RESUME. -/
def execBackpressureResume (ring : BitVec 10) (s : State) : Result :=
  .next (whenever (awake s) (backpressureResume ring.toNat) s)

/-- QP_CI_WRITE: the value is taken where the Marshal consumes the selected ring and it lies from the current CI to
PI (R115). -/
def qpCiWrite (v : Word) (s : State) : State :=
  let n := s.queues.ringSel.toNat
  let r := ringGet s n
  if r.consumer = 1 ∧ (v - r.ci).toNat ≤ ringFill r then rearmAfterPop (ringSet n { r with ci := v } s) else s


end Sys2Proof.Machine
end

