-- ==== Sys2Proof/Machine/PxFrames.lean ====
section
/-! DEFINITION. The addresses of Plant Exchange and its frames as they are sent (R342 to R344, R346). -/

namespace Sys2Proof.Machine

/-- Own member address, plant id and publishing identity (R342, R347). The manual gives no MEMBER and no PLANT_ID before a Mould is
pressed: they are free, drawn at the entry to BRING-UP (DESIGN CHOICE, log 26). -/
def ownMember (s : State) : Nat := ((mouldOf s).map fun m => m.member.toNat).getD (s.px.preId.toNat % 256)
def plantId (s : State) : Nat := ((mouldOf s).map fun m => m.plantId.toNat).getD (s.px.preId.toNat / 256 % 65536)
def ownPartner (s : State) : Nat := ((mouldOf s).map fun m => m.partner.toNat).getD 0
def ownPubId (s : State) : Nat :=
  if partnerNamed s then min (ownMember s) (ownPartner s) else ownMember s

/-- The unit's own IPv4 address, a member's, and the multicast group (R342, R343). -/
def memberIp (s : State) (m : Nat) : Word := BitVec.ofNat 32 (10 * 2 ^ 24 + plantId s * 256 + m)
def ownIp (s : State) : Word := memberIp s (ownMember s)
def groupIp (s : State) : Word := BitVec.ofNat 32 (239 * 2 ^ 24 + 192 * 2 ^ 16 + plantId s)

/-- The unit's IPv6 address: fe80::/64 with the modified EUI-64 of its MAC address (R342). -/
def ownIp6 : BitVec 128 :=
  let m := Config.ownMac
  (0xFE80 : BitVec 64).shiftLeft 48 ++ (m.extractLsb' 24 24 ^^^ 0x020000) ++ (0xFFFE : BitVec 16) ++ m.extractLsb' 0 24

/-- The UDP port of PX, and where its frames go: the multicast group, a member, the source of a frame (R343). -/
def groupTo (s : State) : NetAddr × Half := (.v4 (groupIp s), 41720)
def memberTo (s : State) (m : Nat) : NetAddr × Half := (.v4 (memberIp s m), 41720)
def replyTo (src : NetSrc) : NetAddr × Half := (src.ip, src.port)

/-- An address as an item of a record, which has 4 bytes (R383): of an IPv6 address those are not stated, a free value (log 58). -/
def addrItem : NetAddr → State → Bytes
  | .v4 a, _ => item a.toNat
  | .v6 _, s => item (freeWord s).toNat

/-- The state behind such an item. -/
def addrDrawn : NetAddr → State → State
  | .v4 _, s => s
  | .v6 _, s => drawn s

/-- An address as a key of repetitions. -/
def addrKey : NetAddr → Nat
  | .v4 a => a.toNat
  | .v6 a => 2 ^ 32 + a.toNat

/-- Does the unit take part in IP traffic: its CPU port runs, in BRING-UP, RUN, HALT and SAFE SERVICE? -/
def pxOn (s : State) : Bool := pdIs s 6 && awake s && decide (s.power.state ≠ .dead)

/-- A CRC-32C appended big-endian (R344). -/
def withCrcBe (bs : Bytes) : Bytes := bs ++ beBytes 4 (crc32c bs)

/-- A PX frame of this unit (R344). -/
def pxFrame (typ flags : Nat) (payload : Bytes) (s : State) : Bytes :=
  withCrcBe (beBytes 2 0x5058 ++ beBytes 1 1 ++ beBytes 1 typ ++ beBytes 1 (ownMember s) ++ beBytes 1 flags ++
    beBytes 2 (plantId s) ++ beBytes 4 s.px.seqTx.toNat ++ beBytes 2 payload.length ++ zeros 2 ++ payload)

/-- Bytes sent as a PX frame: SEQ counts every frame (R344), multicast goes with TTL 1 (R343). A muted unit sends none (R346), a
unit without its switch cannot. -/
def pxPut (dest : NetAddr × Half) (frame : Bytes) (s : State) : State :=
  if s.px.muted ∨ !pdIs s 6 then s
  else
    let d : Datagram := { ip := dest.1, port := dest.2, srcPort := 41720, ttl := if dest = groupTo s then some 1 else none, frame := frame }
    { s with out := { s.out with px := d :: s.out.px }, px := { s.px with seqTx := s.px.seqTx + 1 } }

/-- A PX frame of the unit sent. -/
def pxSend (dest : NetAddr × Half) (typ flags : Nat) (payload : Bytes) (s : State) : State :=
  pxPut dest (pxFrame typ flags payload s) s

end Sys2Proof.Machine
end

