-- ==== Sys2Proof/Machine/Respond.lean ====
section
/-! DEFINITION. Responses to requests, and their way out over SVC, PX and the mailbox (R352, R353, R370 to R374). -/

namespace Sys2Proof.Machine

/-- A response body (R370): little-endian on every path. -/
def responseBody (code : Byte) (tag : Word) (status : Byte) (results : Bytes) : Bytes :=
  [code, status] ++ leBytes 2 results.length ++ leBytes 4 tag.toNat ++ results

/-- The plant key of a role (R351): 0 VIEW, 1 OPERATE, 2 ENGINEER, 3 SERVICE. -/
def roleKey (s : State) (r : Nat) : Option Bytes :=
  if r = 0 then s.mgt.keyView else if r = 1 then s.mgt.keyOperate else if r = 2 then s.mgt.keyEngineer
  else if r = 3 then s.mgt.keyService else none

/-- The payload of a RESPONSE before its MAC (R344). -/
def responseHead (role status : Byte) (seq : Word) (body : Bytes) : Bytes :=
  [role, status, 0, 0] ++ beBytes 4 seq.toNat ++ body

/-- A RESPONSE payload with its MAC: HMAC-SHA-256 over header bytes 0 to 15 and the payload before it under the key of
ROLE (R351, R352); 32 zero bytes after 0x30 (R352), and where no key of the role is held (DESIGN CHOICE, log 101). -/
def signedResponse (key : Option Bytes) (head : Bytes) (s : State) : Bytes :=
  let header := (pxFrame 5 0 (head ++ zeros 32) s).take 16
  match key with
  | some k => head ++ hmacSha256 k (header ++ head)
  | none => head ++ zeros 32

/-- The frame of a RESPONSE under the key given (R344, R352). -/
def responseFrame (key : Option Bytes) (q : PendingReq) (status : Byte) (body : Bytes) (s : State) : Bytes :=
  pxFrame 5 0 (signedResponse key (responseHead q.role status q.seq body) s) s

/-- A RESPONSE to the source of a request (R343, R352), under the key given. -/
def sendResponse (key : Option Bytes) (q : PendingReq) (status : Byte) (body : Bytes) (s : State) : State :=
  pxPut (replyTo q.src) (responseFrame key q status body s) s

/-- The RESPONSE stored, as it goes out, for a repeat of the last accepted request of a sender and role (R353). -/
def storeResponse (q : PendingReq) (frame : Bytes) (s : State) : State :=
  { s with px := { s.px with last := s.px.last.map fun l =>
      if l.member = q.member ∧ l.role = q.role ∧ l.seq = q.seq then { l with response := frame } else l } }

/-- A descriptor of Q0001 pushed by the Marshal and taken by Lane B, which frames the response (R371). -/
def mailboxOut (n : Nat) (s : State) : State :=
  drop1 1 (push 1 { buf := freeWord s, len := BitVec.ofNat 16 n, src := 1, ts := tsNow s, tag := freeWord (drawn s) } (drawn (drawn s)))

/-- A body in its frame on SVC (R372): 0x53, 0x56, LEN, the body, and a CRC-32C over LEN and the body. -/
def svcFrame (body : Bytes) : Bytes :=
  let b := leBytes 2 body.length ++ body
  [0x53, 0x56] ++ b ++ leBytes 4 (crc32c b)

/-- The one response to a request (R370, R373): over SVC it is discarded once SVC has closed. The key is the one that
stood at receipt (R376). -/
def respondUnder (key : Option Bytes) (a : Asked) (status : Byte) (results : Bytes) (s : State) : State :=
  let r : Response := { path := a.path, code := a.code, status := status, tag := a.tag, results := results }
  let body := responseBody a.code a.tag status results
  match a.px with
  | none =>
    if s.mgt.svcOpen then { s with out := { s.out with responses := r :: s.out.responses, svc := svcFrame body :: s.out.svc } } else s
  | some q =>
    let s1 := { s with out := { s.out with responses := r :: s.out.responses } }
    let s2 := if a.path = 2 then mailboxOut body.length s1 else s1
    sendResponse key q status body (storeResponse q (responseFrame key q status body s2) s2)

/-- The response under the role's present key; that to a KEY_POLICY under the key that stood at its receipt (R376). -/
def respond (a : Asked) (status : Byte) (results : Bytes) (s : State) : State :=
  respondUnder (a.px.bind fun q => if a.code = 0x11 then q.key else roleKey s q.role.toNat) a status results s

/-- The record of a refusal (R91): SJ 0x0110, counted in MGT.REFUSED. Reasons: 1 STATE, 2 ROLE, 3 STUCK_KEY, 4 BLOCK_STATE,
5 LOCKED. -/
def refusalNote (code path status reason : Nat) (s : State) : State :=
  sj 0x110 1 (item code ++ item path ++ item status ++ item reason ++ item (stateCode s.power.state) ++ item (roleCode s.power.role))
    { s with power := { s.power with refusals := satInc s.power.refusals } }

/-- Requests that wait for a report when their pacer is lost are refused, with the record of R91: no pacer tracks (DESIGN
CHOICE, log 57). -/
def reportLost (s : State) : State :=
  s.px.reportTo.foldl (fun t a => respond a 0x21 [] (refusalNote a.code.toNat a.path.toNat 0x21 4 t)) { s with px := { s.px with reportTo := [] } }

/-- To whom the answer to a body goes. -/
def askedOf (path : Byte) (px : Option PendingReq) (body : Bytes) : Asked :=
  { path := path, code := nth 0 body 0, tag := BitVec.ofNat 32 (leAt body 4 4), px := px }

/-- To whom the answer to a waiting request goes. -/
def askedWaiting (q : PendingReq) : Asked := askedOf q.path (if q.path = 0 then none else some q) q.body

/-- What waits for an answer when the unit leaves its state for a bring-up, HIBERNATE or DEAD: each request that waits is answered
0x20, and each that waits for a report by reportLost, so that every request has its one response (R370; 0x20 is DEDUCED from R93,
log 57). -/
def answerWaiting (s : State) : State :=
  s.px.pending.foldl (fun t q => respond (askedWaiting q) 0x20 [] t) (reportLost { s with px := { s.px with pending := [] } })

end Sys2Proof.Machine
end

