-- ==== Sys2Proof/Machine/Power.lean ====
section
/-! DEFINITION. Power domains, starts, Safe Service, shutdown, hibernation, sensors and the lane watchdogs
(R14 to R16, R25 to R29, R66 to R70, R81 to R88, R363 to R369, R405, R413, R414). -/

namespace Sys2Proof.Machine

/-- The BTP's own state, which PD2 does not hold, kept over a reset of the SAF registers. -/
def keepBtp (o n : Saf) : Saf :=
  { n with btpValid := o.btpValid, mainsOk := o.mainsOk, transfer := o.transfer, rescue := o.rescue,
           failT := o.failT, retT := o.retT, btpFirst := o.btpFirst, btpOn := o.btpOn }

/-- The lap sequencer's registers and state when PD2 comes up; what AREAS pressing found, and the MRAM markers, stand
(R149). -/
def resetLap (s : State) : State :=
  { s with
    edit := { s.edit with lapHi := 0 }
    lap := { ({} : Lap) with retTorn := s.lap.retTorn }
    ctx := { ({} : LapCtx) with tornFlag := s.ctx.tornFlag, markerOpen := s.ctx.markerOpen, markerLap := s.ctx.markerLap }
    bx := {}, frz := {}, prog := {}, saf := keepBtp s.saf {} }

/-- The landing buses without PD7: the tests recorded in MRAM stand (R300), and so do the terminations that the Mould switched
in, while PD7 is off and in HIBERNATE (R55); that they stand through OFF too is the model's choice (DESIGN CHOICE, log 77). -/
def lbReset (o : Landing) : Landing :=
  { ({} : Landing) with
    tests := o.tests, sched := o.sched, p0 := { term := o.p0.term }, p1 := { term := o.p1.term }, p2 := { term := o.p2.term }
    p3 := { term := o.p3.term } }

/-- The ROM default configuration of the switch at the moment PD6 comes on (R74, R338). -/
def switchDefault (s : State) : State :=
  { s with
    sw := { ({} : Switch) with config := 1, flood := true, mac := Config.ownMac,
                               ports := [{}, {}, {}, {}, { up := true }] }
    tbl := { ({} : Tbl) with e := { seed := 0x5A5A }, w := { seed := 0xA5A5 } } }

/-- The registers of a domain at their Reset values, as when it comes up (R5), and with PD3 what Lane B keeps of the landing buses, the
L image with it. The images are set at AREAS pressing
(R103, R149). -/
def resetDomain (d : Nat) (s : State) : State :=
  if d = 2 then resetLap s
  else if d = 3 then { s with lb := lbReset s.lb }
  else if d = 4 then { s with bu := {} }
  else if d = 5 then { s with dio := {}, dioc := {}, rfx := {} }
  else if d = 6 then switchDefault s
  else if d = 7 then { s with lb := lbReset s.lb }
  else if d = 8 then { s with acq := {} }
  else if d = 11 then { s with sby := {} }
  else s

/-- Does the pressed Mould's POWER section enable the domain (R14)? -/
def domainEnabled (s : State) (d : Nat) : Bool :=
  match mouldOf s with
  | none => true
  | some m =>
    if d = 6 then m.power.getLsbD 0 else if d = 7 then m.power.getLsbD 1
    else if d = 8 then m.power.getLsbD 2 else if d = 11 then m.power.getLsbD 3 else true

/-- When a domain was last switched on. -/
def pdSince (s : State) (d : Nat) : Nat := sget 0 s.power.pdUs d

/-- A domain switched on at its step of the bring-up, with the instant, from which R367 counts its 5 ms, unless it is on, disabled, or switched off until the next
bring-up (R364, R367). -/
def domainOn (d : Nat) (s : State) : State :=
  if pdIs s d ∨ !domainEnabled s d ∨ s.power.pdLocked.getLsbD d then s
  else
    let s1 := resetDomain d s
    { s1 with power := { s1.power with pdOn := setBit s1.power.pdOn d true, pdUs := sput 0 s1.power.pdUs d s1.clk.opUs } }

/-- What stops with a domain: PD5 the outputs (R83), PD8 metering and sampling (R364), PD6 the ports, and a REHASH that runs, which
ends with a free status (R374, log 3). -/
def domainStops (d : Nat) (s : State) : State :=
  if d = 5 then refreshOutputs s
  else if d = 8 then { s with acq := { s.acq with sampling := false, capture := none } }
  else if d = 6 then asyncDoneFree 0x0F { s with sw := { s.sw with ports := s.sw.ports.map fun p => { p with up := false } } }
  else s

/-- A domain switched off: its voltage is then close to 0 V (R15), for which the model shows 0 (DESIGN CHOICE, log 70). -/
def domainOff (d : Nat) (s : State) : State :=
  domainStops d { s with power := { s.power with pdOn := setBit s.power.pdOn d false }
                         sens := { s.sens with pdVi := sput {} s.sens.pdVi d {} } }

/-- Several domains switched off, in the order given (R367). -/
def domainsOff (ds : List Nat) (s : State) : State := ds.foldl (fun t d => domainOff d t) s

/-- A domain switched off until the next bring-up, with TRIPPED (R364). -/
def tripDomain (d : Nat) (s : State) : State :=
  domainOff d { s with power := { s.power with pdTripped := setBit s.power.pdTripped d true,
                                               pdLocked := setBit s.power.pdLocked d true } }

/-- Program execution and the Bit Unit stop; a running lap is abandoned and its branch stack emptied (R82, R134,
R158). -/
def stopLap (s : State) : State :=
  { s with lap := { s.lap with running := .idle }, bu := { s.bu with stack := [] },
           bx := { s.bx with level := 0, calls := [] }, ctx := { s.ctx with actions := [], current := none } }

/-- The command that stands at the outputs, held, with the outputs that networks drive now (R110); networks stop. -/
def holdCommand (s : State) : State :=
  { s with rfx := { s.rfx with held := BitVec.ofNat 16 (maskOf 16 (pairedCommand s)), driven := drivenNow s, hold := true, active := false } }

/-- Reflex networks that run stop with the standing command held (R165). -/
def holdReflex (s : State) : State := if s.rfx.active then holdCommand s else s

/-- The command standing at an entry to SAFE SERVICE is held (R165), whether networks run or region 7 is being pressed. -/
def holdAtEntry (s : State) : State := if s.rfx.active || networksPressed s then holdCommand s else s

/-- SVC closes with a cause: 0 idle, 1 VBUS, 2 HIBERNATE, 3 shutdown (R373, R378). -/
def closeSvc (cause : Nat) (s : State) : State :=
  if s.mgt.svcOpen then sj 0x921 0 (item cause) { s with mgt := { s.mgt with svcOpen := false, svcBuf := [] } } else s

/-- Does an UPD_APPLY of an application package run? One of a system package goes on at the next start (R436). -/
def appRuns (s : State) : Bool := decide (s.upd.running = 0x0A) && decide (s.upd.kind = 1)

/-- What waits for an end when the unit leaves its state for a bring-up, HIBERNATE or DEAD: every request has its one response, and
the accepted requests that the change cuts end, the UPD_APPLY of an application package among them (R370, R374). -/
def requestsCut (s : State) : State := whenever (appRuns s) (asyncDoneFree 0x0A) (asyncCut (answerWaiting s))

/-- Is this the 1 ms check in which SAFE SERVICE was entered (R369)? -/
def sameCheck (s : State) : Bool := decide (s.power.state = .safeService) && decide (s.power.ssEntryMs = opMs s)

/-- Does the commit of the last lap still write through (R125, R147)? -/
def writing (s : State) : Bool := inRunOrHalt s && decide (s.clk.opUs < s.ctx.wtEndUs)

/-- What the check that enters SAFE SERVICE still watches: bit 0 lane A, 1 lane B, 2 the lap. -/
def watched (s : State) : BitVec 3 :=
  BitVec.ofNat 3 (b2n s.mgt.wdA.armed + 2 * b2n s.mgt.wdB.armed +
    4 * b2n (decide (s.lap.running = .lap) || decide (s.lap.running = .shadow) || writing s))

/-- A further cause in SAFE SERVICE: recorded (R81). In the same 1 ms check the lowest code stands in FIRST (R369). -/
def addCause (cause : Nat) (s : State) : State :=
  { s with power := { s.power with
      causes := setBit s.power.causes (cause - 1) true
      firstCause := if s.power.ssEntryMs = opMs s ∧ cause < s.power.firstCause.toNat then BitVec.ofNat 8 cause
                    else s.power.firstCause } }

/-- The power part of an entry to SAFE SERVICE. -/
def safeState (cause : Nat) (s : State) : State :=
  { s with power := { s.power with
      state := .safeService, role := .none, transit := .none
      roleHistory := if s.power.role = .none then s.power.roleHistory else .none :: s.power.roleHistory
      causes := setBit 0 (cause - 1) true, firstCause := BitVec.ofNat 8 cause, ssEntryMs := opMs s } }

/-- Requests that an entry to SAFE SERVICE leaves without an end: those for a report of the pacer are refused, those accepted end
(R370, R374). A request that waits is served by the Marshal. -/
def safeCut (s : State) : State := asyncCut (reportLost s)

/-- The service of R66, R70 and R367 that stands from the first steps of a bring-up on: PD5, then the drivers of PD10, PD6. -/
def serviceOn (s : State) : State :=
  let s1 := domainOn 5 s
  domainOn 6 { s1 with power := { s1.power with driversOn := true } }

/-- Its part in a bring-up, with the check of the table before the first BTP lap (R245), taken once. -/
def serviceUp (s : State) : State :=
  let s1 := serviceOn s
  if s1.saf.btpOn then s1 else checkTable s1

/-- Entry to SAFE SERVICE (R82) from BRING-UP, RUN or HALT: metering freezes (R276), the lanes and the BU stop, PD2,
PD3, PD4, PD7 and PD8 go off, PD5, PD6 and PD11 are on by R66, the standing output commands hold until the BTP's first
commit, and the Safe Service table is checked (R245). What MLD.REGION shows, and whether SJ 0x0123 is written, where the entry
cuts a re-press is not stated: the model drops the re-press without a record and leaves the region's state as it was
(DESIGN CHOICE, log 69). -/
def enterSafe (cause detail : Nat) (s : State) : State :=
  let old := s.power.state
  let seen : Power := { s.power with ssArmed := watched s, ssPdOn := s.power.pdOn }
  let s1 := domainsOff [8, 7, 3, 2, 4] (stopLap (holdAtEntry (freezeMeter 1 { s with power := seen })))
  let s2 := safeState cause (domainOn 11 (serviceOn { s1 with sw := { s1.sw with flood := false } }))
  let s3 := { s2 with
    mgt := { s2.mgt with wdA := { s2.mgt.wdA with armed := false }, wdB := { s2.mgt.wdB with armed := false } }
    mld := { s2.mld with repress := none }
    sby := { s2.sby with cond := .unpaired, window := false }
    sbx := { ({} : SbyCtx) with held := s2.sbx.held } }
  checkTable (safeCut (sj 0x106 2 (item cause ++ item detail) (sjStateChange old .safeService s3)))

/-- A Safe Service cause in any state (R81): SJ 0x0106 names the cause and a part id or fault code. -/
def safeService (cause detail : Nat) (s : State) : State :=
  match s.power.state with
  | .bringUp => enterSafe cause detail s
  | .run => enterSafe cause detail s
  | .halt => enterSafe cause detail s
  | .safeService => sj 0x106 2 (item cause ++ item detail) (addCause cause s)
  | _ => s

/-- A Safe Service cause whose SJ 0x0106 names no part and no fault code: that item is free (log 3). -/
def safeServiceFree (cause : Nat) (s : State) : State := safeService cause (freeWord s).toNat (drawn s)

/-- What loses its contents when PD1 goes off: everything but PD0, MRAM, flash, the records of the model's own and
the waiting commands (R5, R22). -/
def volatileReset (s : State) : State :=
  { State.reset with
    clk := { s.clk with optHi := 0 }
    power := { ({} : Power) with pwrCycles := s.power.pwrCycles, roleHistory := s.power.roleHistory, hot := s.power.hot }
    mgt := { s.mgt with
      asyncCode := 0, asyncStatus := 0, asyncOpen := [], svcOpen := false, svcBad := 0, svcLastUs := 0, svcBuf := []
      wdA := {}, wdB := {}, testedSet := 0, storeFault := false, onP0 := false }
    log := { ({} : Log) with
      sjHead := s.log.sjHead, sjWraps := s.log.sjWraps, trSeq := s.log.trSeq, headValid := s.log.headValid, trSkipped := s.log.trSkipped
      erasing := s.log.erasing, erasingBlock := s.log.erasingBlock }
    edit := { ({} : Edit) with state := s.edit.state, chain := s.edit.chain }
    mtr := { ({} : Mtr) with
      lastWasB := s.mtr.lastWasB, logNext := s.mtr.logNext
      logWraps := s.mtr.logWraps }
    upd := { s.upd with running := 0, kind := 0, code := 0, part := 0, partVer := ({} : Upd).partVer, restore := none, restoreOk := false }
    rtc := { s.rtc with bat := 0 }
    pan := { ({} : Panel) with wrong := s.pan.wrong, lockoutEnd := s.pan.lockoutEnd }
    lb := lbReset s.lb
    ctx := { ({} : LapCtx) with markerOpen := s.ctx.markerOpen, markerLap := s.ctx.markerLap }
    out := s.out, mram := s.mram, flash := s.flash, pending := s.pending }

/-- A write-through that a shutdown cuts (R147, R149): the marker stays open, and each replaced word holds its old or its new
bytes. Which words have been written is not stated: free (log 71). -/
def tearRetained (s : State) : State :=
  if s.clk.opUs < s.ctx.wtEndUs then
    let s1 := s.ctx.wtOld.foldl (fun t w => if (freeWord t).getLsbD 0 then mramWrite w.1 w.2 (drawn t) else drawn t) s
    { s1 with ctx := { s1.ctx with markerOpen := true } }
  else s

/-- Each byte of `new` or of `old`, as the bits of `mask` say. -/
def tornBytes (mask : DWord) (old new : Bytes) : Bytes :=
  (List.range new.length).map fun i => if mask.getLsbD i then nth 0 new i else nth 0 old i

/-- The record that is being written when the power goes: torn, it lies at HEAD, which has not moved (R384). Whether one is being
written, and which of its bytes are in MRAM, is not stated: free (log 71). -/
def tearRecord (s : State) : State :=
  match sjTake s with
  | none => s
  | some (r, _) =>
    let a := sjSlot s.log.sjHead.toNat
    mramWrite a (tornBytes (freeWord s ++ freeWord (drawn s)) (mramRead a 64 s) (sjBytes r)) (drawn (drawn s))

/-- The trace record that is being written then: torn, it lies in the slot of the next SEQ, which the next start skips (R390). Whether
one is being written, and which of its bytes are in flash, is not stated: free (log 71). -/
def tearTrace (s : State) : State :=
  match s.log.trQueue with
  | [] => s
  | r :: _ =>
    let a := trSlot (s.log.trSeq.toNat % 262144)
    flashWrite a (tornBytes (freeWord s ++ freeWord (drawn s)) (flashRead a 64 s) (trBytes s.log.trSeq r)) (drawn (drawn s))

/-- Shutdown (R29): all outputs off, the switched domains off in order, then PD1. Records pushed no later than 8 ms
after PFW are in MRAM before that (R385), SJ 0x0102 of the change to OFF among them where it is pushed in time; the first of the
others may be torn. In HIBERNATE no record is written (R384). A flash block whose erase is cut stands till the erase, begun again at the
next start, completes (DESIGN CHOICE, log 99). -/
def shutdown (s : State) : State :=
  let s0 := tearRetained (closeSvc 3 { s with power := { s.power with driversOn := false } })
  let s1 := if awake s then sjStateChange s.power.state .off s0 else s0
  let limit := if s.power.pfw then s.power.pfwUs / 1000 + 8 else opMs s
  let s2 := whenever (awake s) (fun t => tearTrace (tearRecord t)) (sjFlush limit (sjWaiting s1) s1)
  volatileReset (domainsOff [11, 8, 7, 3, 2, 4, 6, 5] (refreshOutputs s2))

/-- The record of an event of the backup domain (R426). An alarm that matched while no record could be made did so in OFF. -/
def rtcRecord (n : RtcNote) (s : State) : State :=
  match n with
  | .osf c => sj 0xB02 2 (item c) s
  | .alarm => tr 0xB05 0 (item (stateCode .off)) s
  | .lbv true mv => sj 0xB03 1 (item mv.toNat) s
  | .lbv false mv => sj 0xB04 0 (item mv.toNat) s

/-- The records of the events that waited for this start (R426): SJ 0x0B02 for a loss of PD0, and those of events in OFF (DEDUCED,
log 59). -/
def notesAtStart (s : State) : State :=
  s.rtc.notes.foldl (fun t n => rtcRecord n t) { s with rtc := { s.rtc with notes := [] } }

/-- An event of the backup domain: recorded now where the unit is powered, else at the next start. -/
def rtcNote (n : RtcNote) (s : State) : State :=
  if powered s then rtcRecord n s else { s with rtc := { s.rtc with notes := s.rtc.notes ++ [n] } }

/-- The panel locks with a cause: 0 start, 1 inactivity, 2 SB 28 (R420). -/
def lockPanel (cause : Nat) (s : State) : State :=
  tr 0xB11 0 (item cause) { s with pan := { s.pan with locked := true, entry := none, delivered := 0 } }

/-- Without a pressed PANEL section the panel is locked (R423). The cause of a locking that the loss of the section brings is not
stated: free (log 3). -/
def panelBare (s : State) : State :=
  if (restOf s).isNone ∧ !s.pan.locked then lockPanel (freeWord s).toNat (drawn s) else s

/-- Is an edit held that a restart discards: one LOADED, in TRIAL or RIPE (R204; log 83)? -/
def editHeld (s : State) : Bool :=
  match s.edit.state with
  | .loaded => true
  | .trial => true
  | .ripe => true
  | _ => false

/-- The edit dropped: state NONE; the registers of the last load, trial and adoption stand. -/
def editNone (s : State) : State :=
  { s with edit := { ({} : Edit) with
      result := s.edit.result, abort := s.edit.abort, chain := s.edit.chain, lastLap := s.edit.lastLap, lapHi := s.edit.lapHi
      trialRun := s.edit.trialRun, trialDiff := s.edit.trialDiff } }

/-- An edit LOADED, in TRIAL or RIPE is discarded in a unit that restarts (R204). SJ 0x0255 names the cause 1 restart, or 2 application
activation where this is the first start with a bank pending (R207, R443; DEDUCED, log 83). One still LOADING or ADOPTING is dropped
with no SJ 0x0255, and its bank is not marked empty (DESIGN CHOICE, log 83). -/
def discardAtRestart (s : State) : State :=
  let t := { s with edit := { ({} : Edit) with chain := s.edit.chain } }
  if editHeld s then sj 0x255 0 (item (if s.upd.pending ∧ s.upd.attempts = 1 then 2 else 1)) t else t

/-- The inactive application bank is marked empty (R195, R204). -/
def emptyInactive (s : State) : State :=
  { s with upd := if s.upd.active then { s.upd with bankA := {} } else { s.upd with bankB := {} } }

/-- The numeric code of a start kind (MGT.START_INFO.KIND). -/
def startCode : StartKind → Nat
  | .fromOff => 0
  | .wake => 1
  | .restart => 2
  | .restore => 3

/-- SESSION is a non-zero random value drawn at each entry to BRING-UP (R345): a free value; 1 stands for a 0. -/
def newSession (s : State) : Word := if freeWord s = 0 then 1 else freeWord s

/-- The blocks at the beginning of a bring-up: outputs off, domains PD0 and PD1 on, PD6 kept on over a RESTART
(R340), nothing pressed, the program not loaded, the panel unlocked by nothing. PD1 stays powered, and no rule says what a RESTART
or a wake does to its counts: the counts and flags of PXE, MLD and SBY.COUNTS start at 0 with their blocks, and those of MGT, LOG and
CRC stand (DESIGN CHOICE, log 77). An UPD_APPLY whose patching goes on at this start still runs (R374, R436). -/
def freshBlocks (keepPd6 : Bool) (s : State) : State :=
  let s0 := domainsOff [11, 8, 7, 3, 2, 4, 5] (stopLap (freezeMeter 1 (requestsCut s)))
  let s1 := if keepPd6 then { s0 with sw := { s0.sw with flood := false } } else domainOff 6 s0
  { s1 with
    power := { s1.power with driversOn := false, pdOn := 0x003 ||| (s1.power.pdOn &&& 0x040), pdLocked := 0 }
    mgt := { s1.mgt with wdA := {}, wdB := {}, onP0 := false }
    mld := {}
    prog := {}
    sby := {}
    sbx := {}
    upd := { s1.upd with running := if s1.upd.journal = .patching then 0x0A else 0 }
    px := { ({} : Px) with nextConn := s1.px.nextConn, session := newSession s, preId := freeWord (drawn s) }
    pan := { s1.pan with enc := 0, delivered := 0 }
    mtr := { s1.mtr with running := false, frozen := false, frozenPfw := false, restored := none, pendingSet := false }
    saf := { s1.saf with btpFirst := true, btpOn := false } }

/-- The power part of a bring-up's beginning, the mark of an acceptance start (R437) and the attempt count of a pending
bank, which is tried at most twice (R443). MGT.SS_CAUSE stands until the next entry to SAFE SERVICE, over BRING-UP and RUN (DESIGN
CHOICE, log 77). -/
def bringUpState (kind : StartKind) (src : BitVec 4) (resume : Bool) (s : State) : State :=
  { s with
    power := { s.power with
      state := .bringUp, role := .none, transit := .none, t0Us := s.clk.opUs,
      roleHistory := if s.power.role = .none then s.power.roleHistory else .none :: s.power.roleHistory,
      startKind := kind, wakeSrc := src, resume := resume, runTimeMs := 0, loadStep := .manifests }
    upd := { s.upd with accepting := decide (s.upd.journal = .committed)
                        attempts := if s.upd.pending then min 3 (s.upd.attempts + 1) else s.upd.attempts
                        inUse := s.upd.pending && decide (s.upd.attempts < 2) }
    rtc := { s.rtc with pwrOn := true, armed := false, active := 0 } }

/-- DEAD (R66): outputs de-energised, PD0, PD1 and PD11 on, only the ROM service loader running, which answers on SVC alone: a request
that waits is answered before, and an accepted UPD_APPLY ends (R370, R374). With the Mould gone the panel is locked (R423). A PD11
that tripped stays off until the next bring-up (R364). PD1 stays powered, and no rule says what the entry does to its MLD and SBY,
SBY.COUNTS and SBY.ROLES included: they go to their reset values (DESIGN CHOICE, log 77). -/
def enterDead (s : State) : State :=
  let old := s.power.state
  let s0 := asyncDoneFree 0x0A (requestsCut s)
  let s1 := domainsOff [8, 7, 3, 2, 4, 6, 5] (stopLap (freezeMeter 1 { s0 with power := { s0.power with driversOn := false } }))
  let hist : List Role := if s1.power.role = .none then s1.power.roleHistory else .none :: s1.power.roleHistory
  let s2 := { s1 with power := { s1.power with
    state := .dead, role := .none, transit := .none, roleHistory := hist } }
  let s3 := { s2 with mgt := { s2.mgt with wdA := {}, wdB := {}, onP0 := false }, mld := {}, sby := {}, sbx := {} }
  panelBare (sjStateChange old .dead (domainOn 11 s3))

/-- An unresumable update failure (R440): the journal records DEAD with the cause, then SJ 0x0A07 with the cause 0 journal, 1 buffer,
2 staging, 3 write, 4 TARGET, 5 self-test, 6 part, and the part, free where none is concerned (log 3). -/
def goDead (cause : Nat) (part : Option Nat) (s : State) : State :=
  let s1 := enterDead (journalWrite { s with upd := { s.upd with journal := .dead, deadCause := BitVec.ofNat 8 cause, accepting := false } })
  match part with
  | some p => sj 0xA07 2 (item cause ++ item p) s1
  | none => sj 0xA07 2 (item cause ++ item (freeWord s1).toNat) (drawn s1)

/-- Is an update to be resumed at this start (R436)? -/
def resumes (s : State) : Bool := decide (s.upd.journal = .patching)

/-- The start of a bring-up (R70): the state, SJ 0x0103 START and TIME_ANCHOR, the skip of a torn trace slot (R390),
the journal HEAD (R386), the panel lock (R420) and, where patching is resumed, SJ 0x0A04 and
the check of the staged package (R436). -/
def beginBringUp (kind : StartKind) (src : BitVec 4) (s : State) : State :=
  let old := s.power.state
  let s1 := bringUpState kind src (resumes s) (drawn (drawn (freshBlocks (decide (kind = .restart)) s)))
  let s2 := trSkip (sjAtStart s1)
  let s3 := sj 0x103 0 (item (startCode kind) ++ item src.toNat ++ item s2.power.pwrCycles.toNat)
    (sjStateChange old .bringUp s2)
  let s4 := notesAtStart (if rtcTrusted s3 then timeAnchor 0 s3 else s3)
  let held := editHeld s4
  let s5 := discardAtRestart s4
  let s6 := lockPanel 0 (if held then emptyInactive s5 else s5)
  if resumes s then
    let s7 := readJournal (sj 0xA04 1 (item s.upd.opsDone ++ item (b2n s.upd.prepared.isNone)) s6)
    match resumeFailure s7 with
    | some c => goDead c none s7
    | none => s7
  else s6

/-- The sources that asserted PWR_ON in OFF, shown by WAKE_SRC (R414). -/
def startSources (s : State) : BitVec 4 := s.rtc.active

/-- A start from OFF: the operating time continues from the saved value plus 1,000 ms (R379), and the power-cycle
count increments (R68). -/
def countStart (s : State) : State :=
  { s with clk := { s.clk with opUs := (s.clk.savedMs + 1000) * 1000, savedMs := s.clk.savedMs + 1000 }
           power := { s.power with pwrCycles := satInc s.power.pwrCycles } }

/-- SUPPLY_VALID (R25, R67, R69): from OFF into BRING-UP, or into DEAD where the update journal says so. A unit that a temperature
holds OFF does not start (R366). -/
def supplyValid (s : State) : State :=
  match s.power.state with
  | .off =>
    let s1 := countStart s
    if s.power.hot then s
    else if s.upd.journal = .dead then
      let s2 := { s1 with power := { s1.power with pdOn := 0x003, startKind := .fromOff, wakeSrc := startSources s,
                                                   t0Us := s1.clk.opUs }
                          rtc := { s1.rtc with active := 0 } }
      let s3 := sj 0x103 0 (item 0 ++ item (startSources s).toNat ++ item s2.power.pwrCycles.toNat)
        (trSkip (sjAtStart s2))
      notesAtStart (enterDead (lockPanel 0 (if rtcTrusted s3 then timeAnchor 0 s3 else s3)))
    else beginBringUp .fromOff (startSources s) s1
  | _ => s

/-- The wake sources active in HIBERNATE beside the one that wakes: an enabled alarm that has matched (R413). -/
def alarmSource (s : State) : BitVec 4 := if s.rtc.alarmEn ∧ s.rtc.alarmHit then 1 else 0

/-- A further source active at the wake instant: WAKE_SRC and the SJ 0x0103 that waits to be written name it too (R88; log 84). -/
def addSource (src : BitVec 4) (s : State) : State :=
  let w := s.power.wakeSrc ||| src
  { s with
    power := { s.power with wakeSrc := w }
    rtc := { s.rtc with pwrOn := true }
    log := { s.log with sjQueue := s.log.sjQueue.map fun r =>
      if r.code = 0x103 ∧ r.optMs = opMs s then { r with items := r.items.take 4 ++ item w.toNat ++ r.items.drop 8 } else r } }

/-- A wake from HIBERNATE with every source active at that instant (R88): the commands of the instant's further sources find
the bring-up just begun. The instant is the operating time's ms (DESIGN CHOICE, log 84). -/
def wakeUp (src : BitVec 4) (s : State) : State :=
  match s.power.state with
  | .hibernate => beginBringUp .wake (src ||| alarmSource s) s
  | .bringUp =>
    if s.power.startKind = .wake ∧ opMs s = s.power.t0Us / 1000 then addSource src s else s
  | .off => { s with rtc := { s.rtc with pwrOn := true, active := s.rtc.active ||| src } }
  | _ => s

/-- Steps 1 and 2 of R87: outputs off, SVC and metering closed, SJ 0x0105, the request's end, and that of what waits (R370, R374).
The role in SJ 0x0102 is here that before the change; R94 says role alone (DESIGN CHOICE, log 77). -/
def hibernateNotes (s : State) : State :=
  let path := (asyncPath 0x12 s).getD 0
  let s1 := refreshOutputs { s with power := { s.power with driversOn := false }, rfx := { s.rfx with active := false, hold := false } }
  let s2 := sjStateChange s.power.state .hibernate (closeSvc 2 (freezeMeter 2 s1))
  requestsCut (asyncDone 0x12 0 (sj 0x105 0 (item path.toNat) s2))

/-- Steps 3 to 5 of R87: domains off, detectors armed, PWR_ON released, PD1 minimal. -/
def hibernateState (s : State) : State :=
  let s3 := domainsOff [11, 8, 7, 3, 2, 4, 6, 5] (stopLap s)
  let hist : List Role := if s.power.role = .none then s3.power.roleHistory else .none :: s3.power.roleHistory
  { s3 with
    power := { s3.power with state := .hibernate, role := .none, transit := .none, pdOn := 0x003, roleHistory := hist }
    mgt := { s3.mgt with wdA := {}, wdB := {} }
    mld := { s3.mld with repress := none }
    rtc := { s3.rtc with armed := true, pwrOn := false, active := 0 } }

/-- When a commit that is over for the program has ended: with the write-through of its step (d) (R125, R147). -/
def commitEnd (s : State) : Nat := max s.clk.opUs s.ctx.wtEndUs

/-- Has the commit of the last lap ended? -/
def commitOver (s : State) : Bool := decide (s.lap.running = .idle) && decide (s.ctx.wtEndUs ≤ s.clk.opUs)

/-- HIBERNATE_ENTERED (R87, R276, R373, R414): at the end of the commit of the lap in progress. An enabled alarm that
matched since the acceptance wakes the unit as soon as the detectors are armed (R413). -/
def hibernateEntered (s : State) : State :=
  if s.power.transit = .hibernate ∧ commitOver s then
    let s4 := hibernateState (hibernateNotes s)
    if s4.rtc.alarmEn ∧ s4.rtc.alarmHit then wakeUp 1 { s4 with rtc := { s4.rtc with pwrOn := true } } else s4
  else s

/-- PFW raised (R26). -/
def raisePfw (s : State) : State := { s with power := { s.power with pfw := true, pfwUs := s.clk.opUs } }

/-- SUPPLY_WARN (R26, R274, R379): PFW, event type 3, the operating time saved, metering frozen. In HIBERNATE, where nothing measures
and no program runs, PFW is raised, the operating time, which counts there too, is saved, and SJ 0x0501 waits for the wake (R384); no
event is pushed (DESIGN CHOICE, log 93). -/
def supplyWarn (mv : Half) (tick : TickSamples) (s : State) : State :=
  let s0 := { s with sens := { s.sens with x1 := mv }, clk := { s.clk with savedMs := opMs s } }
  let warned := sjRep 0x501 1 0 (item mv.toNat)
  if s.power.pfw then s
  else if awake s then truncatedTick tick (pushEventFree 3 1 (warned (withFieldEvent raisePfw s0)))
  else if s.power.state = .hibernate then warned (raisePfw s0)
  else s

/-- SUPPLY_RESTORED (R28): PFW clears and the unit continues; metering resumes at the next tick (R274). -/
def supplyRestored (s : State) : State :=
  if s.power.pfw then
    let s1 := { s with power := { s.power with pfw := false }
                       mtr := if s.mtr.frozenPfw then { s.mtr with frozen := false, frozenPfw := false } else s.mtr }
    sjRep 0x502 0 0 (item8 (s.clk.opUs - s.power.pfwUs)) s1
  else s

/-- PD0_LOSS (R405, R414): every PD0 field resets, OSF is set and PWR_ON released. SJ 0x0B02 follows at the next
start (R426). -/
def pd0Loss (s : State) : State := { s with rtc := { ({} : Rtc) with notes := [.osf 0], bat := s.rtc.bat } }

/-- Kinds of a domain fault, coded in the order of SJ 0x0901: UNDER, OVER, CURRENT; NOT_GOOD is 3. -/
def domainFaultCode : DomainFaultKind → Nat
  | .under => 0
  | .over => 1
  | .current => 2

/-- The measured values of a domain (MGT.PD_VIn), whether it is on or off (R15). -/
def noteVi (d : Nat) (v : PdVi) (s : State) : State :=
  { s with sens := { s.sens with pdVi := sput {} s.sens.pdVi d v } }

/-- The voltage that MGT.PD_VIn shows: of PD9 the lowest group's. -/
def sampleMv (d : Nat) (v : HubSample) : Half :=
  if d = 9 then v.groups.foldl (fun a b => if b < a then b else a) (v.groups.headD v.mv) else v.mv

/-- A measurement of BAT (R410): LBV is set below 2.4 V, and cleared after 60 s of measurements at or above 2.6 V. -/
def batMeasure (mv : Half) (s : State) : State :=
  let low := decide (mv.toNat < 2600)
  let s1 := { s with rtc := { s.rtc with
    bat := if powered s then mv else s.rtc.bat
    batLowUs := if low then s.clk.wallUs else s.rtc.batLowUs } }
  let s2 := if powered s then { s1 with sens := { s1.sens with bat := mv } } else s1
  if mv.toNat < 2400 ∧ !s.rtc.lbv then rtcNote (.lbv true mv) { s2 with rtc := { s2.rtc with lbv := true } }
  else if !low ∧ s.rtc.lbv ∧ s.rtc.batLowUs + 60000000 ≤ s.clk.wallUs then
    rtcNote (.lbv false mv) { s2 with rtc := { s2.rtc with lbv := false } }
  else s2

/-- A sample of the sensor hub in the MGT registers (R363), its voltage of BAT a measurement of R410. -/
def noteSample (d : Nat) (v : HubSample) (s : State) : State :=
  let s1 := noteVi d { mv := sampleMv d v, ma := v.ma } s
  let s2 := { s1 with sens := { s1.sens with
      x1 := v.x1.getD s.sens.x1
      lplusA := v.lplusA.getD s.sens.lplusA, lplusB := v.lplusB.getD s.sens.lplusB } }
  match v.bat with
  | some mv => batMeasure mv s2
  | none => s2

/-- Rail nominal in mV and current limit in mA of a domain, 0 where the table of R363 gives none. -/
def railOf (d : Nat) : Nat × Nat :=
  nth (0, 0) [(1800, 0), (1000, 800), (900, 2500), (900, 2500), (900, 1500), (900, 3000), (1200, 2000), (5000, 400), (5000, 300),
    (0, 0), (0, 0), (3300, 1000)] d

/-- Do 10 consecutive samples violate the limit that `kind` names (R363)? Of PD9 and PD10 the table gives no rail voltage: the
command says that theirs is violated. -/
def outOfLimits (d : Nat) (kind : DomainFaultKind) (v : HubSample) : Bool :=
  let (nom, lim) := railOf d
  decide (10 ≤ v.samples) && match kind with
    | .under => decide (nom = 0) || decide (100 * v.mv.toNat < 92 * nom)
    | .over => decide (nom = 0) || decide (108 * nom < 100 * v.mv.toNat)
    | .current => decide (lim ≠ 0) && decide (lim < v.ma.toNat)

/-- A metering freeze whose cause SJ 0x0622 has no code for: that item is free (R364, log 3). -/
def freezeMeterFree (s : State) : State :=
  if s.mtr.running ∧ !s.mtr.frozen then
    let s1 := freezeMeter (freeWord s).toNat (drawn s)
    { s1 with mtr := { s1.mtr with frozenPfw := false } }
  else s

/-- A temperature sensor. -/
def tempOf (s : State) (n : Nat) : Temp := sget {} s.sens.temps n
def setTemp (n : Nat) (t : Temp) (s : State) : State := { s with sens := { s.sens with temps := sput {} s.sens.temps n t } }

/-- What a fault of a lane or of a domain of the machine leads to: SAFE SERVICE by `f`; at an acceptance start, which it fails, DEAD,
with the part that it concerns (R439, R440). -/
def faultEnds (part : Option Nat) (f : State → State) (s : State) : State :=
  if s.power.state = .bringUp ∧ s.upd.accepting then goDead 6 part s else f s

/-- The part that a domain's loss keeps from running: P1 by PD2, P2 by PD3, P3 by PD4. -/
def partOfDomain (d : Nat) : Option Nat := if d = 2 then some 1 else if d = 3 then some 2 else if d = 4 then some 3 else none

/-- A unit shutdown of R366. The unit stays OFF until T_MGT has fallen below 95 °C; PD1 counts as released once the shutdown has
switched it off (DEDUCED, log 79). -/
def heldOff (warm : Bool) (s : State) : State :=
  let t := shutdown s
  { t with power := { t.power with hot := warm } }

/-- What a switch-off of a domain causes (R363, R364, R366). SJ 0x0106 then names a domain, for which R94 gives no part id and no fault
code: the item is the domain's number (DESIGN CHOICE, log 87). -/
def domainLost (d : Nat) (s : State) : State :=
  if d = 1 then heldOff (decide (950 ≤ (tempOf s 0).temp.toInt)) s
  else if d = 2 ∨ d = 3 ∨ d = 4 ∨ d = 5 then faultEnds (partOfDomain d) (safeService 8 d) (tripDomain d s)
  else if d = 8 then tripDomain 8 (freezeMeterFree s)
  else if d = 6 ∨ d = 7 ∨ d = 11 then tripDomain d s
  else s

/-- The value in mV or mA that SJ 0x0901 carries. -/
def faultValue (d : Nat) (kind : DomainFaultKind) (v : HubSample) : Half :=
  match kind with
  | .current => v.ma
  | _ => sampleMv d v

/-- DOMAIN_FAULT (R363): the sample measured, and where it violates a limit SJ 0x0901 and, for a switched domain that is on, its
switch-off. PD0, PD9 and PD10 are reported only. A domain that the entry to SAFE SERVICE has just switched off is judged in that
check too (R369). -/
def domainFault (d : Nat) (kind : DomainFaultKind) (v : HubSample) (s : State) : State :=
  if awake s then
    if outOfLimits d kind v ∧ (pdIs s d ∨ d = 0 ∨ d = 9 ∨ d = 10 ∨ (sameCheck s ∧ s.power.ssPdOn.getLsbD d)) then
      domainLost d (sj 0x901 2 (item d ++ item (domainFaultCode kind) ++ item (faultValue d kind v).toNat) (noteSample d v s))
    else noteSample d v s
  else s

/-- Has a domain been switched on so lately that it may yet be found not up: in the 1 ms check after the 5 ms (R367, R369)? -/
def lateUp (s : State) (d : Nat) : Bool := decide (s.clk.opUs < pdSince s d + 6000)

/-- Is domain `d` one that this state switches on, or finds just switched on (R367): a bring-up its domains; the entry to SAFE SERVICE
those of PD5, PD6 and PD11 that were off, and the entry to DEAD PD11 (R66)? Those that a bring-up has switched on just before an entry
to SAFE SERVICE are awaited there, and PD11, the last of a bring-up, in RUN and HALT too. -/
def comesUp (d : Nat) (s : State) : Bool :=
  match s.power.state with
  | .bringUp => decide (d ∈ [2, 3, 4, 5, 6, 7, 8, 11])
  | .safeService => decide (d ∈ [5, 6, 11]) && (!s.power.ssPdOn.getLsbD d || lateUp s d)
  | .dead => decide (d = 11)
  | .run => decide (d = 11) && lateUp s d
  | .halt => decide (d = 11) && lateUp s d
  | _ => false

/-- DOMAIN_NOT_UP (R367): a domain that has been switched on is switched off again, with SJ 0x0901 of kind NOT_GOOD. For PD1 the
unit stays OFF, which changes nothing. -/
def domainNotUp (d : Nat) (mv : Half) (s : State) : State :=
  if comesUp d s ∧ pdIs s d ∧ domainEnabled s d then
    domainLost d (sj 0x901 2 (item d ++ item 3 ++ item mv.toNat) (noteVi d { mv := mv } s))
  else s

/-- Do two consecutive samples lie beyond a threshold, in 0.1 °C (R365)? -/
def bothAbove (x : TempSamples) (limit : Int) : Bool := decide (limit < x.prev.toInt) && decide (limit < x.cur.toInt)

/-- TEMP_WARNING (R365): the last sample noted; above 95 °C twice, the warning where it does not stand. -/
def tempWarning (n : Nat) (x : TempSamples) (s : State) : State :=
  let t := tempOf s n
  if bothAbove x 950 ∧ !t.warn then
    sj 0x903 1 (item n ++ item x.cur.toNat) (setTemp n { t with temp := x.cur, warn := true, warnSeen := true } s)
  else setTemp n { t with temp := x.cur } s

/-- TEMP_NORMAL (R365): a sample below 90 °C clears the warning. -/
def tempNormal (n : Nat) (x : TempSamples) (s : State) : State :=
  let t := tempOf s n
  if t.warn ∧ x.cur.toInt < 900 then sj 0x904 0 (item n) (setTemp n { t with temp := x.cur, warn := false } s)
  else setTemp n { t with temp := x.cur } s

/-- T_MGT below 95 °C ends the hold of R366, after which a valid supply starts the unit. In OFF nothing else of a sample is kept. -/
def tempCool (n : Nat) (x : TempSamples) (s : State) : State :=
  if n = 0 ∧ x.cur.toInt < 950 then { s with power := { s.power with hot := false } } else s

/-- A domain switched off by a temperature, with SJ 0x0901 where it is on (R364). Its kind and value, which name no temperature,
are free (log 3). -/
def tempOff (d : Nat) (s : State) : State :=
  let s1 := if pdIs s d then
      sj 0x901 2 (item d ++ item (freeWord s).toNat ++ item (freeWord (drawn s)).toNat) (drawn (drawn s))
    else s
  tripDomain d s1

/-- What a temperature shutdown switches off: T_MGT the unit, T_APP PD2 and PD3, T_FAB PD4 and PD5, T_NET PD6, T_DOA
and T_DOB an output group (R365). SJ 0x0106 names PD2 for T_APP and PD4 for T_FAB (DESIGN CHOICE, log 87). -/
def tempEffect (n : Nat) (s : State) : State :=
  if n = 0 then heldOff true s
  else if n = 1 then faultEnds none (safeService 8 2) (tempOff 2 (tempOff 3 s))
  else if n = 2 then faultEnds none (safeService 8 4) (tempOff 5 (tempOff 4 s))
  else if n = 3 then tempOff 6 s
  else if pdIs s 5 then withFieldEvent (latchGroup (n = 5)) s else s

/-- The third item of SJ 0x0905: the domains that the sensor's row of R365 switches off, bit d for PDd, or the output group, 0 A or
1 B. R365 gives the contents; that they are coded so is the model's choice (DESIGN CHOICE, log 80). -/
def tempItem (n : Nat) : Nat := nth 0 [0x9FE, 0x00C, 0x030, 0x040, 0, 1] n

/-- TEMP_SHUTDOWN (R365): the last sample noted; above 110 °C twice, the shutdown of the sensor's row, and the warning where it does
not stand. -/
def tempShutdown (n : Nat) (x : TempSamples) (s : State) : State :=
  let s1 := tempWarning n x s
  if bothAbove x 1100 then
    tempEffect n (sj 0x905 2 (item n ++ item x.cur.toNat ++ item (tempItem n)) (setTemp n { tempOf s1 n with shut := true } s1))
  else s1

/-- Codes of a lane and of a lane fault's kind in SJ 0x0910 (R378). -/
def laneCode : Lane → Nat
  | .a => 0
  | .b => 1
def laneKindCode : LaneFaultKind → Nat
  | .gap => 0
  | .sequence => 1
  | .exception => 2
  | .parity => 3
  | .notReady => 4

/-- A lane's watchdog. -/
def wdOf (s : State) : Lane → Watchdog
  | .a => s.mgt.wdA
  | .b => s.mgt.wdB
def setWd (l : Lane) (w : Watchdog) (s : State) : State :=
  match l with
  | .a => { s with mgt := { s.mgt with wdA := w } }
  | .b => { s with mgt := { s.mgt with wdB := w } }

/-- Is lane `l` watched: its watchdog armed, or armed when this check entered SAFE SERVICE, with no fault of it found yet (R369)? -/
def laneWatched (l : Lane) (s : State) : Bool := (wdOf s l).armed || (sameCheck s && s.power.ssArmed.getLsbD (laneCode l))

/-- May lane `l` report a fault of a kind (R369)? Watched, of every kind; an exception, and a parity error of its memory, also while it
loads and runs with its domain PD2 or PD3 on, armed or not. -/
def laneReports (l : Lane) (k : LaneFaultKind) (s : State) : Bool :=
  let d := 2 + laneCode l
  laneWatched l s || ((decide (k = .exception) || decide (k = .parity)) &&
    (pdIs s d || (sameCheck s && s.power.ssPdOn.getLsbD d && !s.power.causes.getLsbD d)))

/-- The watchdog of a lane whose fault has been found: it watches no longer. -/
def laneFound (l : Lane) (w : Watchdog) (s : State) : State :=
  let t := setWd l { w with armed := false } s
  { t with power := { t.power with ssArmed := setBit t.power.ssArmed (laneCode l) false } }

/-- A lane fault (R368, R369): SJ 0x0910 and Safe Service cause 0x03 or 0x04, at an acceptance start DEAD (R439). SJ 0x0106 concerns no part here, and R94 gives no fault
code: the item is the kind's code of SJ 0x0910 (DESIGN CHOICE, log 87). -/
def raiseLaneFault (l : Lane) (k : LaneFaultKind) (gapMs : Nat) (s : State) : State :=
  faultEnds (some (1 + laneCode l)) (safeService (3 + laneCode l) (laneKindCode k))
    (sj 0x910 2 (item (laneCode l) ++ item (laneKindCode k) ++ item gapMs) s)

/-- The gap since a lane's last kick, in ms. -/
def kickGap (w : Watchdog) (s : State) : Nat := (s.clk.wallUs - w.lastUs) / 1000

/-- Is the gap since a lane's last kick more than 50 ms (R368)? Before its first kick a lane has none (DEDUCED, log 88). -/
def kickLate (w : Watchdog) (s : State) : Bool := w.kicked && decide (w.lastUs + 50000 < s.clk.wallUs)

/-- LANE_KICK (R368): one more than the last value, or any value first after arming; a wrong value is a lane fault at
once. One that comes more than 50 ms after the last comes after the check that finds the gap, which is the fault (DEDUCED, log 88). -/
def laneKick (l : Lane) (v : Half) (s : State) : State :=
  let w := wdOf s l
  let g := kickGap w s
  let w1 := { w with kicked := true, last := v, lastUs := s.clk.wallUs, gap := BitVec.ofNat 8 (min 255 (max w.gap.toNat g)) }
  if !laneWatched l s then s
  else if kickLate w s then raiseLaneFault l .gap g (laneFound l w1 s)
  else if w.kicked ∧ v ≠ w.last + 1 then raiseLaneFault l .sequence g (laneFound l w1 s)
  else setWd l w1 s

/-- LANE_FAULT: a fault of a lane that may report it; a gap only where it is of more than 50 ms (R368). -/
def laneFault (l : Lane) (k : LaneFaultKind) (gapMs : Nat) (s : State) : State :=
  let w := wdOf s l
  if laneReports l k s ∧ (k = .gap → 50 < gapMs) then
    raiseLaneFault l k gapMs (laneFound l { w with gap := BitVec.ofNat 8 (min 255 (max w.gap.toNat gapMs)) } s)
  else s

/-- SUPPLY_VALID. -/
def execSupplyValid (s : State) : Result := .next (supplyValid s)
/-- SUPPLY_WARN. -/
def execSupplyWarn (mv : Half) (tick : TickSamples) (s : State) : Result := .next (supplyWarn mv tick s)
/-- SUPPLY_RESTORED. -/
def execSupplyRestored (s : State) : Result := .next (supplyRestored s)
/-- SHUTDOWN: any state but OFF goes to OFF (R67). -/
def execShutdown (s : State) : Result := .next (whenever (powered s) shutdown s)
/-- PD0_LOSS. -/
def execPd0Loss (s : State) : Result := .next (pd0Loss s)
/-- DI00_WAKE: a wake source in HIBERNATE and OFF (R38, R88, R414). -/
def execDi00Wake (s : State) : Result := .next (wakeUp 4 s)
/-- LB0_WAKE (R57, R88, R414). -/
def execLb0Wake (s : State) : Result := .next (wakeUp 8 s)
/-- ROW0_WAKE (R88, R414, R418). -/
def execRow0Wake (s : State) : Result := .next (wakeUp 2 s)
/-- HIBERNATE_ENTERED. -/
def execHibernateEntered (s : State) : Result := .next (hibernateEntered s)
/-- DOMAIN_FAULT. -/
def execDomainFault (pd : Fin 12) (kind : DomainFaultKind) (value : HubSample) (s : State) : Result :=
  .next (domainFault pd kind value s)
/-- DOMAIN_NOT_UP. -/
def execDomainNotUp (pd : Fin 12) (mv : Half) (s : State) : Result := .next (domainNotUp pd mv s)
/-- TEMP_WARNING. -/
def execTempWarning (sensor : Fin 6) (temp : TempSamples) (s : State) : Result :=
  .next (whenever (awake s) (tempWarning sensor temp) s)
/-- TEMP_NORMAL, in OFF too, where it may end the hold of R366. -/
def execTempNormal (sensor : Fin 6) (temp : TempSamples) (s : State) : Result :=
  .next (if awake s then tempNormal sensor temp s else tempCool sensor temp s)
/-- TEMP_SHUTDOWN. -/
def execTempShutdown (sensor : Fin 6) (temp : TempSamples) (s : State) : Result :=
  .next (whenever (awake s) (tempShutdown sensor temp) s)
/-- LANE_KICK. -/
def execLaneKick (lane : Lane) (value : Half) (s : State) : Result := .next (laneKick lane value s)
/-- LANE_FAULT. -/
def execLaneFault (lane : Lane) (kind : LaneFaultKind) (gapMs : Nat) (s : State) : Result :=
  .next (laneFault lane kind gapMs s)

/-- BTP_LAP: every 100 ms in BRING-UP and SAFE SERVICE (R66, R246). In a bring-up PD5, the drivers of PD10 and PD6 are on with the
first one (R70, R367), and the table is checked before it (R245). -/
def btpLap (ps : List (List Int)) (s : State) : State :=
  match s.power.state with
  | .bringUp => btpStep ps (if s.saf.btpOn then s else serviceUp s)
  | .safeService => btpStep ps s
  | _ => s

/-- BTP_LAP. -/
def execBtpLap (ai0 ai1 ai2 : List Int) (s : State) : Result := .next (btpLap [ai0, ai1, ai2] s)

end Sys2Proof.Machine
end

