-- ==== Sys2Proof/Machine/Operands.lean ====
section
/-! DEFINITION. The image areas as a Bolis program sees them: bits, elements, argument records, blocks, and the
effect of a lap fault (R126, R135 to R137, R158, R159, R168 to R175, R197, R198). -/

namespace Sys2Proof.Machine

/-- Is a program executing: a lap runs and its last due block has not ended? -/
def executing (s : State) : Bool := decide (s.lap.running ≠ .idle) && !s.bx.ended

/-- Does a trial lap run (R197)? -/
def inTrial (s : State) : Bool := decide (s.lap.running = .trial)

/-- The images the executing program acts on: the trial state in a trial lap (R197). -/
def imgOf (s : State) : Images := if inTrial s then s.edit.trial.getD s.img else s.img

/-- The state with those images replaced. -/
def setImg (i : Images) (s : State) : State :=
  if inTrial s then { s with edit := { s.edit with trial := some i } } else { s with img := i }

/-- D_SIZE_KIB of the pressed Mould (R99). -/
def dKib (s : State) : Nat := ((restOf s).map MouldRest.dSizeKib).getD 4

/-- The size of D in bytes, and the number of its bits that bit access reaches (R137, R157). -/
def dBytes (s : State) : Nat := 1024 * dKib s
def dBits (s : State) : Nat := min 1048576 (8 * dBytes s)

/-- Where D stands in data memory: from 2 MiB in a trial lap (R197). -/
def dBase (s : State) : Nat := if inTrial s then 0x200000 else 0

/-- A running lap has written bytes a to a + n − 1 of the state block of R217: while a resynchronisation or a migration runs, the leader
marks their 4 KiB pages, whether or not the bytes change (R217, R229). -/
def lapWrites (a n : Nat) (s : State) : State :=
  if s.power.role = .leader ∧ (s.sbx.rsActive ∨ s.sbx.migrating) ∧ !inTrial s then
    let ps := (List.range ((a % 4096 + n + 4095) / 4096)).map (a / 4096 + ·)
    { s with sbx := { s.sbx with written := s.sbx.written ++ ps.filter fun p => !s.sbx.written.contains p } }
  else s

/-- The size of an area in bits (R136). -/
def areaBits (s : State) : Area → Nat
  | .i => 8192
  | .q => 8192
  | .m => 65536
  | .e => 16384
  | .t => 4096
  | .c => 2048
  | .s => 1024
  | .p => 525312
  | .l => 4096
  | .k => 32
  | .w => 256
  | .d => dBits s

/-- The area codes of R136. -/
def areaCode : Area → Nat
  | .i => 0
  | .q => 1
  | .m => 2
  | .e => 3
  | .t => 4
  | .c => 5
  | .s => 6
  | .p => 7
  | .l => 8
  | .k => 9
  | .w => 10
  | .d => 11

/-- The operand columns of R155 and R178: readable is every area but E; writable is Q, M and D. -/
def readable (a : Area) : Bool := decide (a ≠ .e)
def writable (a : Area) : Bool := decide (a = .q) || decide (a = .m) || decide (a = .d)

/-- Timers and counters by number. -/
def timerOf (s : State) (n : Nat) : Timer := sget {} (imgOf s).timers n
def counterOf (s : State) (n : Nat) : Counter := sget {} (imgOf s).counters n

/-- Pair n's entry of IOMAP, and whether it is enabled (R233). -/
def pairCfg (s : State) (n : Nat) : PairCfg := ((mouldOf s).map fun m => nth {} m.pairs n).getD {}
def pairEnabled (s : State) (n : Nat) : Bool := decide ((pairCfg s n).mode ≠ 0)

/-- Is timer n reserved for an enabled pair (R235)? -/
def timerReserved (s : State) (n : Nat) : Bool := decide (4080 ≤ n) && decide (n < 4096) && pairEnabled s (n - 4080)

/-- The T done bit: 0 for a timer reserved for a pair (R235). -/
def doneBit (s : State) (n : Nat) : Bool := !timerReserved s n && (timerOf s n).q

/-- Bit i of an area (R136, R137). -/
def bitRead (s : State) (a : Area) (i : Nat) : Bool :=
  match a with
  | .i => s.frz.i.getLsbD i
  | .q => (imgOf s).q.getLsbD i
  | .m => (imgOf s).m.getLsbD i
  | .e => (imgOf s).e.getLsbD i
  | .t => doneBit s i
  | .c => (counterOf s i).done
  | .s => s.frz.s.getLsbD i
  | .p => s.frz.p.getLsbD i
  | .l => s.frz.l.getLsbD i
  | .k => s.frz.k.getLsbD i
  | .w => s.frz.w.getLsbD i
  | .d => (memGet 0 s.data (dBase s + i / 8)).getLsbD (i % 8)

/-- Bit i of Q, M or D written; another area is not written. -/
def bitWrite (a : Area) (i : Nat) (b : Bool) (s : State) : State :=
  match a with
  | .q => lapWrites (i / 8) 1 (setImg { imgOf s with q := setBit (imgOf s).q i b } s)
  | .m => lapWrites (1024 + i / 8) 1 (setImg { imgOf s with m := setBit (imgOf s).m i b } s)
  | .d =>
    let x := dBase s + i / 8
    lapWrites (93192 + i / 8) 1 (dataWrite x [setBit (memGet 0 s.data x) (i % 8) b] s)
  | _ => s

/-- Does element e of width w lie within the area (R174, R175)? -/
def elemFits (s : State) (a : Area) (w e : Nat) : Bool :=
  match a with
  | .d => decide ((e + 1) * w / 8 ≤ dBytes s)
  | _ => decide ((e + 1) * w ≤ areaBits s a)

/-- Element e of width w of an area (R174). -/
def elemRead (s : State) (a : Area) (w e : Nat) : Nat :=
  match a with
  | .i => (s.frz.i.extractLsb' (e * w) w).toNat
  | .q => ((imgOf s).q.extractLsb' (e * w) w).toNat
  | .m => ((imgOf s).m.extractLsb' (e * w) w).toNat
  | .s => (s.frz.s.extractLsb' (e * w) w).toNat
  | .p => (s.frz.p.extractLsb' (e * w) w).toNat
  | .l => (s.frz.l.extractLsb' (e * w) w).toNat
  | .k => (s.frz.k.extractLsb' (e * w) w).toNat
  | .w => (s.frz.w.extractLsb' (e * w) w).toNat
  | .d => leNat (dataRead (dBase s + e * (w / 8)) (w / 8) s)
  | _ => maskOf w fun k => bitRead s a (e * w + k)

/-- Element e of width w of Q, M or D written with the low bits of v; another area is not written. -/
def elemWrite (a : Area) (w e v : Nat) (s : State) : State :=
  match a with
  | .q => lapWrites (e * (w / 8)) (w / 8) (setImg { imgOf s with q := setField (imgOf s).q (e * w) w v } s)
  | .m => lapWrites (1024 + e * (w / 8)) (w / 8) (setImg { imgOf s with m := setField (imgOf s).m (e * w) w v } s)
  | .d => lapWrites (93192 + e * (w / 8)) (w / 8) (dataWrite (dBase s + e * (w / 8)) (leBytes (w / 8) (v % 2 ^ w)) s)
  | _ => s

/-- An argument record's word at byte offset o in D (R172). -/
def recWord (s : State) (o : Nat) : Word := BitVec.ofNat 32 (leNat (dataRead (dBase s + o) 4 s))

/-- Words written into D from byte offset o on. -/
def recPut (o : Nat) (ws : List Word) (s : State) : State :=
  lapWrites (93192 + o) (4 * ws.length) (dataWrite (dBase s + o) (ws.flatMap fun w => leBytes 4 w.toNat) s)

/-! ### Programs and blocks -/

/-- The program that executes: the edited one in a trial lap (R197). -/
def execProgram (s : State) : List CodeBlock := if inTrial s then s.edit.prog else s.prog.blocks

/-- The block of a type and number. -/
def findBlock (p : List CodeBlock) (typ : BitVec 8) (n : Nat) : Option CodeBlock :=
  p.find? fun b => b.typ = typ ∧ b.number = n

/-- The block that contains the next instruction. -/
def curBlock (s : State) : Option CodeBlock := findBlock (execProgram s) s.bx.pos.typ s.bx.pos.number

/-- MODE is SAT, and TRAP_DZ, of the block that contains the instruction (R169). -/
def satMode (s : State) : Bool := ((curBlock s).map CodeBlock.sat).getD false
def trapDz (s : State) : Bool := ((curBlock s).map CodeBlock.trapDz).getD false

/-- Is word t of a code an instruction word, and not the literal of an LK (R178, R188)? Position p is an instruction
word. -/
def isInstrWord : Nat → List Word → Nat → Bool
  | 0, _, _ => false
  | _, [], _ => false
  | k + 1, w :: ws, t =>
    if t = 0 then true
    else if w.toNat / 2 ^ 24 = 0xFF then (if t = 1 then false else isInstrWord k (ws.drop 1) (t - 2))
    else isInstrWord k ws (t - 1)

/-- May a jump of the executing block go to word offset t (R157)? A position outside the program has no block to
check. -/
def jumpTarget (s : State) (t : Int) : Bool :=
  match curBlock s with
  | some b => decide (0 ≤ t) && decide (t < b.words.length) && isInstrWord (b.words.length + 1) b.words t.toNat
  | none => decide (0 ≤ t)

/-! ### The course of execution (R125, R153, R170, R171) -/

/-- The start of MAIN or of an event block: accumulators and flags 0, BA 0, FC 1, an empty stack, call level 1
(R154, R170, R171). -/
def enterTop (typ : BitVec 8) (number : Nat) (s : State) : State :=
  { s with
    bx := { s.bx with
      acc1 := 0, acc2 := 0, acx := 0, z := false, n := false, c := false, v := false, vs := false, dz := false
      gov := false, fe := false, pos := { typ := typ, number := number, offset := 0 }, calls := [], level := 1
      maxLevel := BitVec.ofNat 6 (max s.bx.maxLevel.toNat 1), ended := false }
    bu := { s.bu with ba := false, fc := true, stack := [] } }

/-- The flag word of R177. -/
def flagWord (b : Bx) : Byte :=
  BitVec.ofNat 8 (b2n b.z + 2 * b2n b.n + 4 * b2n b.c + 8 * b2n b.v + 16 * b2n b.vs + 32 * b2n b.dz +
    64 * b2n b.gov + 128 * b2n b.fe)

/-- The sticky flags at the end of a block (BX.STATUS.LAP_STICKY). -/
def blockSticky (s : State) : State :=
  { s with bx := { s.bx with curSticky := s.bx.curSticky ||| (flagWord s.bx &&& 0xF0) } }

/-- At level 1 control passes to the next due event block, or execution ends (R125, R170). -/
def nextBlock (s : State) : State :=
  match s.ctx.dueLeft with
  | t :: ts =>
    enterTop 2 t { s with ctx := { s.ctx with dueLeft := ts, ranTypes := setBit s.ctx.ranTypes t true,
                                              current := s.ctx.events.find? fun e => e.type = t } }
  | [] => { s with bx := { s.bx with ended := true, level := 0 }, ctx := { s.ctx with current := none } }

/-- A block ends (R170): to the word after the call, with FC 1 (R154), or at level 1 to the next due block. -/
def blockEnds (s : State) : State :=
  let t := blockSticky s
  match t.bx.calls with
  | f :: fs =>
    { t with bx := { t.bx with pos := f, calls := fs, level := t.bx.level - 1 }, bu := { t.bu with fc := true } }
  | [] => nextBlock t

/-- Does the position lie after its block's last word? -/
def atEnd (s : State) : Bool := ((curBlock s).map fun b => decide (b.words.length ≤ s.bx.pos.offset)).getD false

/-- A block without a return at its end ends after its last word (R170); so may its callers, at most 32 deep. -/
def settle : Nat → State → State
  | 0, s => s
  | k + 1, s => if executing s ∧ atEnd s then settle k (blockEnds s) else s

/-- The position moved on by n words. -/
def advance (n : Nat) (s : State) : State :=
  settle 33 { s with bx := { s.bx with pos := { s.bx.pos with offset := s.bx.pos.offset + n } } }

/-- The position moved to word offset t of the same block. -/
def goTo (t : Nat) (s : State) : State := settle 33 { s with bx := { s.bx with pos := { s.bx.pos with offset := t } } }

/-- A call of FUNC number n (R170): the word after the call is kept, FC is 1 in the callee (R154). -/
def enterFunc (n : Nat) (s : State) : State :=
  let back := { s.bx.pos with offset := s.bx.pos.offset + 1 }
  let level := s.bx.level + 1
  { s with
    bx := { s.bx with pos := { typ := 1, number := n, offset := 0 }, calls := back :: s.bx.calls, level := level
                      maxLevel := BitVec.ofNat 6 (max s.bx.maxLevel.toNat level.toNat) }
    bu := { s.bu with fc := true } }

/-! ### Lap faults (R134, R135, R158, R159, R198) -/

/-- What abandons a lap from within an instruction. -/
inductive LapFault where
  | callDepth | indexRange | writeProtected | branchOverflow | divideTrap
  | parity (a : Area) (word : Nat)
deriving DecidableEq, Repr

/-- The code of a lap fault (R135); 0x0230 for a parity error (R159). -/
def lapFaultCode : LapFault → Nat
  | .callDepth => 0x211
  | .indexRange => 0x212
  | .writeProtected => 0x213
  | .branchOverflow => 0x231
  | .divideTrap => 0x241
  | .parity _ _ => 0x230

/-- The Safe Service cause of a lap fault (R135, R159). -/
def lapFaultCause : LapFault → Nat
  | .branchOverflow => 5
  | .parity _ _ => 5
  | _ => 3

/-- A trial ends with a reason of R198 and a fault code: 0 RIPE. SJ 0x0253 is info for RIPE and a warning for every other reason, a
requested abort too (R207 gives both; DESIGN CHOICE, log 83). The lap that runs is no longer a trial lap, and the
trial state is kept only while RIPE or LOADED may still report. -/
def endTrial (reason code : Nat) (s : State) : State :=
  let s1 := { s with
    edit := { s.edit with state := if reason = 0 then .ripe else .loaded, abort := BitVec.ofNat 4 reason, aborted := decide (reason ≠ 0)
                          faultCode := BitVec.ofNat 16 code, trial := none }
    lap := { s.lap with running := if inTrial s then .idle else s.lap.running }
    bu := if inTrial s then { s.bu with stack := [] } else s.bu
    bx := if inTrial s then { s.bx with level := 0, calls := [] } else s.bx
    ctx := if inTrial s then { s.ctx with actions := [], current := none } else s.ctx }
  sj 0x253 (if reason = 0 then 0 else 1)
    (item reason ++ item code ++ item s.edit.trialRun.toNat ++ item s.edit.trialDiff.toNat) s1

/-- A trial in progress ends with a reason (R198). -/
def abortTrial (reason : Nat) (s : State) : State :=
  if s.edit.state = .trial then endTrial reason 0 s else s

/-- LAP.FAULT and LAP.FAULT_POS (R135). -/
def noteFault (code : Nat) (s : State) : State :=
  { s with lap := { s.lap with
      fault := BitVec.ofNat 16 code, faultType := s.bx.pos.typ.setWidth 2
      faultBlock := BitVec.ofNat 16 s.bx.pos.number, faultOff := BitVec.ofNat 16 (min 65535 s.bx.pos.offset) } }

/-- A lap fault of R135: the SJ record with block type, number and offset, the registers, Safe Service. -/
def lapFaulted (code cause : Nat) (s : State) : State :=
  let items := item s.bx.pos.typ.toNat ++ item s.bx.pos.number ++ item s.bx.pos.offset
  safeService cause code (sj code 2 items (noteFault code s))

/-- What an instruction's fault does: in a trial lap the trial ends with reason FAULT (R198); otherwise the lap is
abandoned (R135, R159). In a trial lap a fault of R135 writes SJ 0x0253 with its code, and neither the event of that code nor
LAP.FAULT (DESIGN CHOICE, log 90). A parity error writes SJ 0x0230 in either. That one in a trial lap, whose code the table of R135 lacks, ends the
trial with reason 4 and code 0x0230 is the model's choice (DESIGN CHOICE, log 90). -/
def lapAbort (f : LapFault) (s : State) : State :=
  let code := lapFaultCode f
  match f with
  | .parity a w =>
    let s1 := sj 0x230 2 (item (areaCode a) ++ item w) { s with bu := { s.bu with parity := true } }
    if inTrial s then endTrial 4 code s1 else safeService 5 code s1
  | _ => if inTrial s then endTrial 4 code s else lapFaulted code (lapFaultCause f) s

/-- An operation of the program: the state after it, or a lap fault with the state at the fault. -/
abbrev Lapped := Except (LapFault × State) State

/-- The state after an operation, with its fault carried out. -/
def settled : Lapped → State
  | .ok t => t
  | .error (f, t) => lapAbort f t

/-- A bit-path or bit–word instruction counted (BU.INSTR, BU.LAP_BITS). -/
def countBit (s : State) : State :=
  let n := s.bu.instr + 1
  { s with bu := { s.bu with instr := n, curBits := satInc s.bu.curBits } }

/-- A word-path instruction counted (BX.WORDS, BX.LAP_WORDS). -/
def countWord (s : State) : State :=
  { s with bx := { s.bx with words := s.bx.words + 1, curWords := satInc s.bx.curWords } }

/-- The sticky bits of BX.SEEN: VS, DZ, GOV or FE has been 1. -/
def noteSeen (s : State) : State :=
  { s with bx := { s.bx with seen := s.bx.seen ||| (flagWord s.bx >>> 4).setWidth 4 } }

/-- One instruction of the executing program whose next word follows it: f, then n words on. While no program
executes the command has no effect (log 10). -/
def runSeq (count : State → State) (n : Nat) (f : State → Lapped) (s : State) : Result :=
  .next (if executing s then settled ((f (count s)).map fun t => advance n (noteSeen t)) else s)

/-- One instruction that places the position itself: a jump, a call, a return. -/
def runCtl (count : State → State) (f : State → Lapped) (s : State) : Result :=
  .next (if executing s then settled (f (count s)) else s)

end Sys2Proof.Machine
end

