-- ==== Sys2Proof/Machine/BitPath.lean ====
section
/-! DEFINITION. The bit path (R144, R153 to R158, R205): one meaning per bit-path and bit–word instruction. -/

namespace Sys2Proof.Machine

/-- An instruction whose operand the verifier rejects never runs (R157, R188): it is refused by name. Outside
execution it has no effect (log 10). -/
def checked (mn : String) (ok : State → Bool) (run : State → Result) (s : State) : Result :=
  if executing s && !ok s then .refused (.verifierRejects mn) else run s

/-- Operand rules of R157: a readable or writable bit at a fixed index. -/
def bitReadable (a : Area) (i : Nat) (s : State) : Bool := readable a && decide (i < areaBits s a)
def bitWritable (a : Area) (i : Nat) (s : State) : Bool := writable a && decide (i < areaBits s a)

/-- The areas that stand in image memory (R22). -/
def imageArea : Area → Bool
  | .i => true
  | .q => true
  | .m => true
  | .e => true
  | .t => true
  | .c => true
  | .s => false
  | .p => false
  | .l => false
  | .k => false
  | .w => false
  | .d => false

/-- A bit read by the BU, with the parity of its image-memory word checked (R159). A word is 32 bits of its area (DESIGN CHOICE,
log 76). -/
def fetchBit (a : Area) (i : Nat) (s : State) : Except (LapFault × State) Bool :=
  if imageArea a && s.bu.badParity.contains (a, i / 32) then .error (.parity a (i / 32), s) else .ok (bitRead s a i)

/-- BA written, with FC 0. -/
def setBa (b : Bool) (s : State) : State := { s with bu := { s.bu with ba := b, fc := false } }

/-- combine(k, v) of R155; k is 0 AND, 1 ANDN, 2 OR, 3 ORN, 4 XOR, 5 XORN. -/
def combine (k : BitVec 3) (v : Bool) (s : State) : Bool :=
  let x := if k.getLsbD 0 then !v else v
  if s.bu.fc then x
  else if k.toNat / 2 = 0 then s.bu.ba && x
  else if k.toNat / 2 = 1 then s.bu.ba || x
  else xor s.bu.ba x

/-- A combining instruction: ba := combine(k, op); fc := 0. -/
def combineOp (k : BitVec 3) (a : Area) (i : Nat) (s : State) : Lapped := do
  let v ← fetchBit a i s
  return setBa (combine k v s) s

/-- open(k, v) of R155; an open at depth 16 is lap fault 0x0231 (R158). -/
def openOp (k : BitVec 3) (a : Area) (i : Nat) (s : State) : Lapped := do
  let v ← fetchBit a i s
  if s.bu.stack.length ≥ 16 then
    .error (.branchOverflow, { s with bu := { s.bu with trap := true, under := false } })
  else
    let depth := s.bu.stack.length + 1
    return setBa v { s with bu := { s.bu with
      stack := { ba := s.bu.ba, fc := s.bu.fc, op := k } :: s.bu.stack
      maxDepth := BitVec.ofNat 5 (max s.bu.maxDepth.toNat depth) } }

/-- close of R155; a close at depth 0 is lap fault 0x0231 (R158). -/
def closeOp (s : State) : Lapped :=
  match s.bu.stack with
  | [] => .error (.branchOverflow, { s with bu := { s.bu with trap := true, under := true } })
  | e :: es =>
    let v := s.bu.ba
    let t := { s with bu := { s.bu with stack := es, ba := e.ba, fc := e.fc } }
    .ok (setBa (combine e.op v t) t)

/-- An edge cell: a fresh cell takes BA first, so its first execution gives 0 (R205); then R144. -/
def edgeOp (rising : Bool) (n : Nat) (s : State) : Lapped := do
  let old ← fetchBit .e n s
  let ba := s.bu.ba
  let i := imgOf s
  let e := if i.fresh.contains n then ba else old
  let result := if rising then ba && !e else !ba && e
  return setBa result (lapWrites (9216 + n / 8) 1 (setImg { i with e := setBit i.e n ba, fresh := i.fresh.filter (· ≠ n) } s))

/-- The word offset a jump goes to: the following word plus the signed INDEX (R155). -/
def jumpOffset (offset : BitVec 20) (s : State) : Int := (s.bx.pos.offset : Int) + 1 + offset.toInt

/-- A jump, taken or not: fc := 1 (R154). -/
def jumpOp (taken : Bool) (offset : BitVec 20) (s : State) : State :=
  let t := { s with bu := { s.bu with fc := true } }
  if taken then goTo (jumpOffset offset s).toNat t else advance 1 t

/-- A jump's target lies inside its block, on an instruction word (R157). -/
def jumpOk (offset : BitVec 20) (s : State) : Bool := jumpTarget s (jumpOffset offset s)

/-- A bit-word instruction counted: BU.INSTR counts it, BU.LAP_BITS does not (log 19). -/
def countBitWord (s : State) : State := { s with bu := { s.bu with instr := s.bu.instr + 1 } }

/-- An index formed at run time: INDEX + ACC1 as UINT32 values, summed without wrapping (R156, log 20). -/
def indexAt (index : BitVec 20) (acc : Word) : Nat := index.toNat + acc.toNat

/-- A combining instruction's meaning. -/
def runCombine (mn : String) (k : BitVec 3) (a : Area) (index : BitVec 20) (s : State) : Result :=
  checked mn (bitReadable a index.toNat) (runSeq countBit 1 (combineOp k a index.toNat)) s

/-- A nest open's meaning. -/
def runOpen (mn : String) (k : BitVec 3) (a : Area) (index : BitVec 20) (s : State) : Result :=
  checked mn (bitReadable a index.toNat) (runSeq countBit 1 (openOp k a index.toNat)) s

/-- A store's meaning: the operand written when `doit`, with `b`. -/
def runStore (mn : String) (doit b : State → Bool) (a : Area) (index : BitVec 20) (s : State) : Result :=
  checked mn (bitWritable a index.toNat)
    (runSeq countBit 1 fun t => .ok (if doit t then bitWrite a index.toNat (b t) t else t)) s

/-- NOP. -/
def execNop (s : State) : Result := runSeq countBit 1 .ok s
/-- LD. -/
def execLd (a : Area) (index : BitVec 20) (s : State) : Result :=
  checked "LD" (bitReadable a index.toNat) (runSeq countBit 1 fun t => do return setBa (← fetchBit a index.toNat t) t) s
/-- LDN. -/
def execLdn (a : Area) (index : BitVec 20) (s : State) : Result :=
  checked "LDN" (bitReadable a index.toNat) (runSeq countBit 1 fun t => do return setBa (!(← fetchBit a index.toNat t)) t) s
/-- AND. -/
def execBitAnd (a : Area) (index : BitVec 20) (s : State) : Result := runCombine "AND" 0 a index s
/-- ANDN. -/
def execBitAndn (a : Area) (index : BitVec 20) (s : State) : Result := runCombine "ANDN" 1 a index s
/-- OR. -/
def execBitOr (a : Area) (index : BitVec 20) (s : State) : Result := runCombine "OR" 2 a index s
/-- ORN. -/
def execBitOrn (a : Area) (index : BitVec 20) (s : State) : Result := runCombine "ORN" 3 a index s
/-- XOR. -/
def execBitXor (a : Area) (index : BitVec 20) (s : State) : Result := runCombine "XOR" 4 a index s
/-- XORN. -/
def execBitXorn (a : Area) (index : BitVec 20) (s : State) : Result := runCombine "XORN" 5 a index s
/-- AND( -/
def execOpenAnd (a : Area) (index : BitVec 20) (s : State) : Result := runOpen "OPEN_AND" 0 a index s
/-- ANDN( -/
def execOpenAndn (a : Area) (index : BitVec 20) (s : State) : Result := runOpen "OPEN_ANDN" 1 a index s
/-- OR( -/
def execOpenOr (a : Area) (index : BitVec 20) (s : State) : Result := runOpen "OPEN_OR" 2 a index s
/-- ORN( -/
def execOpenOrn (a : Area) (index : BitVec 20) (s : State) : Result := runOpen "OPEN_ORN" 3 a index s
/-- XOR( -/
def execOpenXor (a : Area) (index : BitVec 20) (s : State) : Result := runOpen "OPEN_XOR" 4 a index s
/-- XORN( -/
def execOpenXorn (a : Area) (index : BitVec 20) (s : State) : Result := runOpen "OPEN_XORN" 5 a index s
/-- The close. -/
def execClose (s : State) : Result := runSeq countBit 1 closeOp s
/-- ST: op := ba. -/
def execSt (a : Area) (index : BitVec 20) (s : State) : Result :=
  runStore "ST" (fun _ => true) (fun t => t.bu.ba) a index s
/-- SET: if ba = 1: op := 1. -/
def execBitSet (a : Area) (index : BitVec 20) (s : State) : Result :=
  runStore "SET" (fun t => t.bu.ba) (fun _ => true) a index s
/-- RST: if ba = 1: op := 0. -/
def execRst (a : Area) (index : BitVec 20) (s : State) : Result :=
  runStore "RST" (fun t => t.bu.ba) (fun _ => false) a index s
/-- NOT. -/
def execBitNot (s : State) : Result := runSeq countBit 1 (fun t => .ok (setBa (!t.bu.ba) t)) s
/-- SETBA. -/
def execSetba (s : State) : Result := runSeq countBit 1 (fun t => .ok (setBa true t)) s
/-- CLRBA. -/
def execClrba (s : State) : Result := runSeq countBit 1 (fun t => .ok (setBa false t)) s
/-- FP. -/
def execFp (index : BitVec 20) (s : State) : Result :=
  checked "FP" (fun _ => decide (index.toNat < 16384)) (runSeq countBit 1 (edgeOp true index.toNat)) s
/-- FN. -/
def execFn (index : BitVec 20) (s : State) : Result :=
  checked "FN" (fun _ => decide (index.toNat < 16384)) (runSeq countBit 1 (edgeOp false index.toNat)) s
/-- JMP. -/
def execJmp (offset : BitVec 20) (s : State) : Result :=
  checked "JMP" (jumpOk offset) (runCtl countBit fun t => .ok (jumpOp true offset t)) s
/-- JMPC. -/
def execJmpc (offset : BitVec 20) (s : State) : Result :=
  checked "JMPC" (jumpOk offset) (runCtl countBit fun t => .ok (jumpOp t.bu.ba offset t)) s
/-- JMPCN. -/
def execJmpcn (offset : BitVec 20) (s : State) : Result :=
  checked "JMPCN" (jumpOk offset) (runCtl countBit fun t => .ok (jumpOp (!t.bu.ba) offset t)) s
/-- BTOW. -/
def execBtow (s : State) : Result :=
  runSeq countBitWord 1 (fun t => .ok { t with bx := { t.bx with acc1 := BitVec.ofNat 32 (b2n t.bu.ba) } }) s
/-- WTOB. -/
def execWtob (s : State) : Result := runSeq countBitWord 1 (fun t => .ok (setBa (t.bx.acc1 ≠ 0) t)) s
/-- LDI: an index beyond the area is lap fault 0x0212 (R156). -/
def execLdi (a : Area) (index : BitVec 20) (s : State) : Result :=
  checked "LDI" (fun _ => readable a) (runSeq countBitWord 1 fun t =>
    let i := indexAt index t.bx.acc1
    if i < areaBits t a then do return setBa (← fetchBit a i t) t else .error (.indexRange, t)) s
/-- STI: a write to an area that R137 makes read-only is lap fault 0x0213 (R135, log 21), an index beyond the area
0x0212. -/
def execSti (a : Area) (index : BitVec 20) (s : State) : Result :=
  checked "STI" (fun _ => readable a) (runSeq countBitWord 1 fun t =>
    let i := indexAt index t.bx.acc1
    if !writable a then .error (.writeProtected, t)
    else if i < areaBits t a then .ok (bitWrite a i t.bu.ba t) else .error (.indexRange, t)) s

end Sys2Proof.Machine
end

