-- ==== Sys2Proof/Machine/Verify.lean ====
section
/-! DEFINITION. Programs as bytes and the loader's verifier (R157, R168, R169, R174, R175, R178, R188). -/

namespace Sys2Proof.Machine

/-- Where and why a program fails verification (BX.VERIFY, BX.VERIFY_POS). What has no block, or no word, has 0 there: a
program too long or without MAIN has neither; a header, a CRC, a repeated number and a missing event block, which is named by its type
and number, have no word (DESIGN CHOICE, log 103). -/
structure VerFail where
  code   : Nat
  typ    : Nat := 0
  number : Nat := 0
  pos    : Nat := 0
deriving DecidableEq, Repr

/-- A block as it stands in a program: header fields and instruction words. -/
structure RawBlock where
  bytes  : Bytes
  typ    : Nat
  flags  : Nat
  number : Nat
  words  : List Nat
deriving DecidableEq, Repr

/-- `n` 32-bit little-endian words from the head of a byte string. -/
def wordsOf : Nat → Bytes → List Nat
  | 0, _ => []
  | n + 1, bs => leNat (bs.take 4) :: wordsOf n (bs.drop 4)

/-- The block whose image begins a byte string: none where it does not fit. -/
def rawBlock (bs : Bytes) : Option RawBlock :=
  let len := leAt bs 4 4
  if bs.length < 16 ∨ len = 0 ∨ bs.length < 16 + 4 * len then none
  else some { bytes := bs.take (16 + 4 * len), typ := leAt bs 0 1, flags := leAt bs 1 1, number := leAt bs 2 2
              words := wordsOf len (bs.drop 16) }

/-- The blocks of a program in order, or the failing block's type and number. The fuel is the program's length: each
block takes bytes. -/
def splitBlocks : Nat → Bytes → List RawBlock × Option VerFail
  | 0, _ => ([], none)
  | k + 1, bs =>
    if bs = [] then ([], none)
    else match rawBlock bs with
      | none => ([], some { code := 1, typ := leAt bs 0 1, number := leAt bs 2 2 })
      | some b => let r := splitBlocks k (bs.drop b.bytes.length); (b :: r.1, r.2)

/-- The bytes of a valid block (R168). -/
def blockBytes (b : CodeBlock) : Bytes :=
  let head := [b.typ, BitVec.ofNat 8 (b2n b.sat + 2 * b2n b.trapDz)] ++ leBytes 2 b.number ++
    leBytes 4 b.words.length ++ zeros 4
  let code := b.words.flatMap fun w => leBytes 4 w.toNat
  head ++ leBytes 4 (crc32c (head ++ code)) ++ code

/-- The bytes of a program, and its hash (R190: SHA-256 of the program). -/
def programBytes (p : List CodeBlock) : Bytes := p.flatMap blockBytes
def programHash (p : List CodeBlock) : Bytes := sha256 (programBytes p)

/-- A verified block. -/
def codeBlock (r : RawBlock) : CodeBlock :=
  { typ := BitVec.ofNat 8 r.typ, sat := bitOf r.flags 0, trapDz := bitOf r.flags 1, number := r.number
    words := r.words.map (BitVec.ofNat 32) }

/-- The instruction words of a block with their offsets; the literal of an LK is not one (R178). -/
def instrWords : Nat → Nat → List Nat → List (Nat × Nat)
  | 0, _, _ => []
  | _, _, [] => []
  | k + 1, o, w :: ws =>
    (o, w) :: (if w / 2 ^ 24 = 0xFF then instrWords k (o + 2) (ws.drop 1) else instrWords k (o + 1) ws)

/-- The instruction words of a block. -/
def blockInstrs (b : RawBlock) : List (Nat × Nat) := instrWords (b.words.length + 1) 0 b.words

/-- Fields of an instruction word (R152). -/
def opOf (w : Nat) : Nat := bits w 24 8
def areaOf (w : Nat) : Nat := bits w 20 4
def indexOf (w : Nat) : Nat := bits w 0 20

/-- The signed INDEX of a jump. -/
def signedIndex (w : Nat) : Int := sextNat 20 (indexOf w)

/-- Operand columns of R155 and R178. -/
inductive OperandClass where
  | none | readBit | writeBit | cell | jump | delay
  | readElem (w : Nat) | writeElem (w : Nat)
  | imm24 | imm16 | flag | func | sysBlock | escape
deriving DecidableEq, Repr

/-- Is the word an LDI or STI, or an indexed element access? -/
def between (lo hi n : Nat) : Bool := decide (lo ≤ n) && decide (n ≤ hi)

/-- The operand column of an opcode; none where the opcode is reserved. -/
def operandClass (op : Nat) : Option OperandClass :=
  if op = 0 then some .none
  else if between 0x01 0x0E op then some .readBit
  else if op = 0x0F ∨ between 0x13 0x15 op ∨ op = 0x40 ∨ op = 0x41 then some .none
  else if between 0x10 0x12 op ∨ op = 0x43 then some .writeBit
  else if op = 0x18 ∨ op = 0x19 then some .cell
  else if between 0x20 0x22 op then some .jump
  else if op = 0x30 ∨ op = 0x31 then some .delay
  else if op = 0x42 then some .readBit
  else if op = 0x50 ∨ op = 0x54 ∨ op = 0x5C then some (.readElem 32)
  else if op = 0x51 ∨ op = 0x55 ∨ op = 0x5D then some (.readElem 16)
  else if op = 0x52 ∨ op = 0x56 ∨ op = 0xA4 then some (.writeElem 32)
  else if op = 0x53 ∨ op = 0x57 then some (.writeElem 16)
  else if op = 0x58 ∨ op = 0x5E then some .imm24
  else if op = 0x59 then some .imm16
  else if op = 0x5A ∨ op = 0x5B then some .none
  else if between 0x60 0x6B op ∨ between 0x70 0x78 op ∧ op ≠ 0x79 then some .none
  else if between 0x80 0x96 op ∨ between 0x98 0x9C op ∨ between 0xA0 0xA3 op then some .none
  else if op = 0xB0 ∨ op = 0xB1 then some .none
  else if op = 0xB2 then some .flag
  else if op = 0xC0 then some .func
  else if op = 0xC1 ∨ op = 0xC3 ∨ op = 0xC4 then some .none
  else if op = 0xC2 then some .sysBlock
  else if op = 0xFF then some .escape
  else none

/-- 0x04: no reserved opcode or escape sub-operation, no DLYON or DLYOFF. -/
def opcodeOk (w : Nat) : Bool :=
  match operandClass (opOf w) with
  | none => false
  | some .delay => false
  | some .escape => decide (bits w 0 8 = 0)
  | some _ => true

/-- 0x05: AREA and INDEX fit the operand column. -/
def operandOk (w : Nat) : Bool :=
  let a := areaOf w
  match operandClass (opOf w) with
  | some .none => decide (a = 0) && decide (indexOf w = 0)
  | some .readBit => decide (a ≤ 11) && decide (a ≠ 3)
  | some .writeBit => decide (a = 1) || decide (a = 2) || decide (a = 11)
  | some .cell => decide (a = 3)
  | some .jump => decide (a = 0)
  | some (.readElem _) => decide (a ≤ 11) && decide (a ≠ 3)
  | some (.writeElem _) => decide (a = 1) || decide (a = 2) || decide (a = 11)
  | some .imm24 => true
  | some .imm16 => decide (bits w 16 8 = 0)
  | some .flag => decide (a = 0) && decide (indexOf w ≤ 7)
  | some .func => decide (a = 0)
  | some .sysBlock => decide (a = 0) && decide (indexOf w ≤ 127)
  | some .escape => decide (a = 0) && decide (indexOf w < 256)
  | some .delay => false
  | none => false

/-- The size in bits of an area by its code, for D of `kib` KiB. -/
def sizeByCode (kib a : Nat) : Nat :=
  match a with
  | 0 => 8192
  | 1 => 8192
  | 2 => 65536
  | 3 => 16384
  | 4 => 4096
  | 5 => 2048
  | 6 => 1024
  | 7 => 525312
  | 8 => 4096
  | 9 => 32
  | 10 => 256
  | 11 => min 1048576 (8192 * kib)
  | _ => 0

/-- 0x06: every fixed index or element lies within its area. The INDEX of an indexed form is checked as it stands
(R157, R175; log 23). -/
def rangeOk (kib w : Nat) : Bool :=
  let a := areaOf w
  let i := indexOf w
  let elem := fun n => if a = 11 then decide ((i + 1) * n / 8 ≤ 1024 * kib) else decide ((i + 1) * n ≤ sizeByCode kib a)
  match operandClass (opOf w) with
  | some .readBit => decide (i < sizeByCode kib a)
  | some .writeBit => decide (i < sizeByCode kib a)
  | some .cell => decide (i < 16384)
  | some (.readElem n) => elem n
  | some (.writeElem n) => elem n
  | _ => true

/-- 0x07: a jump's target lies inside its block on an instruction word. -/
def jumpWordOk (instrs : List (Nat × Nat)) (o w : Nat) : Bool :=
  if between 0x20 0x22 (opOf w) then
    let t := (o : Int) + 1 + signedIndex w
    decide (0 ≤ t) && instrs.any fun p => decide ((p.1 : Int) = t)
  else true

/-- 0x0A: the system blocks this manual describes are those the active Tested Set provides (log 24). -/
def sysBlockKnown (n : Nat) : Bool := decide (n ≤ 8) || between 16 28 n
def sysBlockOk (w : Nat) : Bool := if opOf w = 0xC2 then sysBlockKnown (indexOf w) else true

/-- 0x0B: an escape word is followed by its literal inside the block. -/
def escapeOk (len o w : Nat) : Bool := if opOf w = 0xFF then decide (o + 1 < len) else true

/-- The first instruction word of the program that fails a test. -/
def firstBad (code : Nat) (test : RawBlock → List (Nat × Nat) → Nat → Nat → Bool) (bs : List RawBlock) : Option VerFail :=
  bs.findSome? fun b =>
    let is := blockInstrs b
    (is.find? fun p => !test b is p.1 p.2).map fun p => { code := code, typ := b.typ, number := b.number, pos := p.1 }

/-- One instruction's successors with their depth, or a failure at a word (R157): `d` is the depth that reaches it. -/
def depthNext (len o w d : Nat) : List (Nat × Nat) × Option Nat :=
  let op := opOf w
  let nxt := if op = 0xFF then o + 2 else o + 1
  let tgt := ((o : Int) + 1 + signedIndex w).toNat
  let d2 := if between 0x09 0x0E op then d + 1 else if op = 0x0F then d - 1 else d
  if op = 0x0F ∧ d = 0 then ([], some o)
  else if (op = 0xC3 ∨ op = 0xC4) ∧ d ≠ 0 then ([], some o)
  else if op = 0xC3 then ([], none)
  else if op = 0x20 then ([(tgt, d2)], none)
  else
    let jumps := if op = 0x21 ∨ op = 0x22 then [(tgt, d2)] else []
    if nxt ≥ len then (jumps, if d2 = 0 then none else some o) else ((nxt, d2) :: jumps, none)

/-- The depths that reach each instruction word, and the failing words. -/
structure Depths where
  at_   : List (Nat × Nat) := []
  fails : List Nat := []
deriving DecidableEq, Repr

/-- The walk over all paths: each word is entered once. -/
def depthWalk (len : Nat) (instrs : List (Nat × Nat)) : Nat → List (Nat × Nat) → Depths → Depths
  | 0, _, acc => acc
  | _, [], acc => acc
  | k + 1, (o, d) :: work, acc =>
    match acc.at_.find? fun p => p.1 = o with
    | some p => depthWalk len instrs k work (if p.2 = d then acc else { acc with fails := o :: acc.fails })
    | none =>
      if d > 16 then depthWalk len instrs k work { acc with fails := o :: acc.fails }
      else match instrs.find? fun p => p.1 = o with
        | none => depthWalk len instrs k work acc
        | some p =>
          let (succs, bad) := depthNext len o p.2 d
          depthWalk len instrs k (succs ++ work)
            { at_ := (o, d) :: acc.at_, fails := (bad.map fun b => b :: acc.fails).getD acc.fails }

/-- The depths of a block. -/
def blockDepths (b : RawBlock) : Depths :=
  depthWalk b.words.length (blockInstrs b) (3 * b.words.length + 3) [(0, 0)] {}

/-- The highest depth in a block: an open raises the depth of the word that follows it. -/
def blockMax (b : RawBlock) : Nat :=
  let ds := (blockDepths b).at_
  (blockInstrs b).foldl (fun m p =>
    match ds.find? fun q => q.1 = p.1 with
    | some q => max m (if between 0x09 0x0E (opOf p.2) then q.2 + 1 else q.2)
    | none => m) 0

/-- 0x08: the first failing word of the program. -/
def depthFail (bs : List RawBlock) : Option VerFail :=
  bs.findSome? fun b =>
    (blockDepths b).fails.min?.map fun o => { code := 8, typ := b.typ, number := b.number, pos := o }

/-- The fixed calls of a block: offset, FUNC number, depth at the call. -/
def blockCalls (b : RawBlock) : List (Nat × Nat × Nat) :=
  let ds := (blockDepths b).at_
  (blockInstrs b).filterMap fun p =>
    if opOf p.2 = 0xC0 then some (p.1, indexOf p.2, ((ds.find? fun q => q.1 = p.1).map Prod.snd).getD 0) else none

/-- What the call check knows of a FUNC block: number, calls, own maximum depth. -/
structure FuncInfo where
  number : Nat
  calls  : List (Nat × Nat × Nat)
  depth  : Nat
deriving DecidableEq, Repr

/-- One round of the chain values: levels and depths of every FUNC from those of its callees. -/
def chainRound (fs : List FuncInfo) (v : List (Nat × Nat × Nat)) : List (Nat × Nat × Nat) :=
  fs.map fun f =>
    let callees := f.calls.filterMap fun c => (v.find? fun x => x.1 = c.2.1).map fun x => (x.2.1, c.2.2 + x.2.2)
    (f.number, callees.foldl (fun m c => max m (c.1 + 1)) 1, callees.foldl (fun m c => max m c.2) f.depth)

/-- The chain values after k rounds: 33 rounds show every chain of up to 33 levels, and every cycle as longer. -/
def chainValues (fs : List FuncInfo) : Nat → List (Nat × Nat × Nat)
  | 0 => fs.map fun f => (f.number, 1, f.depth)
  | k + 1 => chainRound fs (chainValues fs k)

/-- 0x09: every CALL names a FUNC block; no cycle, no chain beyond 32 levels, no depth beyond 16. The calling block
counts as level 1. Of a cycle or a chain that is too long the first CALL in program order is named that leads into it (DESIGN CHOICE,
log 103). -/
def callFail (bs : List RawBlock) : Option VerFail :=
  let funcs := (bs.filter fun b => b.typ = 1).map fun b =>
    ({ number := b.number, calls := blockCalls b, depth := blockMax b } : FuncInfo)
  let v := chainValues funcs 33
  bs.findSome? fun b =>
    ((blockCalls b).find? fun c =>
      match v.find? fun x => x.1 = c.2.1 with
      | none => true
      | some x => decide (1 + x.2.1 > 32) || decide (c.2.2 + x.2.2 > 16)).map fun c =>
        { code := 9, typ := b.typ, number := b.number, pos := c.1 }

/-- 0x01: TYPE, NUMBER, FLAGS and reserved fields (R168). -/
def headerOk (b : RawBlock) : Bool :=
  decide (b.typ ≤ 2) && decide (b.flags ≤ 3) && decide (leAt b.bytes 8 4 = 0) &&
    (if b.typ = 0 then decide (b.number = 0) else if b.typ = 1 then decide (b.number ≤ 4095) else decide (b.number ≤ 31))

/-- 0x02: the block's CRC (R168). -/
def crcOk (b : RawBlock) : Bool :=
  decide (crc32c (b.bytes.take 12 ++ b.bytes.drop 16) = leAt b.bytes 12 4)

/-- 0x03: a block repeated before it, or no MAIN. -/
def duplicateFail : List RawBlock → List RawBlock → Option VerFail
  | seen, [] => if seen.any fun b => b.typ = 0 then none else some { code := 3 }
  | seen, b :: bs =>
    if seen.any fun x => x.typ = b.typ ∧ x.number = b.number then some { code := 3, typ := b.typ, number := b.number }
    else duplicateFail (b :: seen) bs

/-- 0x0C: an enabled event type without its EVENT block. -/
def eventFail (mask : Word) (bs : List RawBlock) : Option VerFail :=
  ((List.range 32).find? fun t => mask.getLsbD t && !bs.any fun b => b.typ = 2 ∧ b.number = t).map fun t =>
    { code := 0xC, typ := 2, number := t }

/-- The verifier of R188 over the blocks of a program: the checks in code order, each over the blocks in program
order and within a block in word order (log 25). -/
def verifyBlocks (kib : Nat) (mask : Word) (bs : List RawBlock) : Option VerFail :=
  let blockBad := fun code (ok : RawBlock → Bool) =>
    (bs.find? fun b => !ok b).map fun b => ({ code := code, typ := b.typ, number := b.number } : VerFail)
  (blockBad 1 headerOk).orElse fun _ =>
  (blockBad 2 crcOk).orElse fun _ =>
  (duplicateFail [] bs).orElse fun _ =>
  (firstBad 4 (fun _ _ _ w => opcodeOk w) bs).orElse fun _ =>
  (firstBad 5 (fun _ _ _ w => operandOk w) bs).orElse fun _ =>
  (firstBad 6 (fun _ _ _ w => rangeOk kib w) bs).orElse fun _ =>
  (firstBad 7 (fun _ is o w => jumpWordOk is o w) bs).orElse fun _ =>
  (depthFail bs).orElse fun _ =>
  (callFail bs).orElse fun _ =>
  (firstBad 10 (fun _ _ _ w => sysBlockOk w) bs).orElse fun _ =>
  (firstBad 11 (fun b _ o w => escapeOk b.words.length o w) bs).orElse fun _ =>
  eventFail mask bs

/-- A program of bytes verified: its blocks, or the failure. Check 0x01 goes through the blocks in program order, so that a bad
header comes before a later block that does not fit. -/
def verifyProgram (kib : Nat) (mask : Word) (bs : Bytes) : Except VerFail (List CodeBlock) :=
  if bs.length > 0x800000 then .error { code := 1 }
  else
    let (raw, short) := splitBlocks bs.length bs
    match raw.find? fun b => !headerOk b, short with
    | some b, _ => .error { code := 1, typ := b.typ, number := b.number }
    | none, some e => .error e
    | none, none =>
      match verifyBlocks kib mask raw with
      | some e => .error e
      | none => .ok (raw.map codeBlock)

/-- BX.VERIFY and BX.VERIFY_POS after a verification. Of a TYPE above 3 the two low bits show (DESIGN CHOICE, log 103). -/
def noteVerify (r : Option VerFail) (s : State) : State :=
  let f := r.getD { code := 0 }
  { s with prog := { s.prog with verCode := BitVec.ofNat 8 f.code, verType := BitVec.ofNat 2 f.typ
                                 verNumber := BitVec.ofNat 16 f.number, verPos := BitVec.ofNat 32 f.pos } }

/-- SJ 0x0240 PROGRAM_REJECTED with its source: 0 start, 1 bank load, 2 edit package (R189). -/
def programRejected (f : VerFail) (source : Nat) (s : State) : State :=
  sj 0x240 2 (item f.code ++ item f.typ ++ item f.number ++ item f.pos ++ item source) (noteVerify (some f) s)

/-- The edge cells used by an FP or FN of a program, ascending. -/
def cellsOf (p : List CodeBlock) : List Nat :=
  let cells := p.flatMap fun b =>
    (instrWords (b.words.length + 1) 0 (b.words.map BitVec.toNat)).filterMap fun x =>
      if opOf x.2 = 0x18 ∨ opOf x.2 = 0x19 then some (indexOf x.2) else none
  (cells.mergeSort (· ≤ ·)).dedup

end Sys2Proof.Machine
end

