-- ==== Sys2Proof/Machine/Reflex.lean ====
section
/-! DEFINITION. Reflex networks: the evaluation step, its start and stop, and the validation of rung code
(R160 to R166). -/

namespace Sys2Proof.Machine

/-- A network's own bit-path state during a step (R162): BA, FC, the stack, the delay counts left and those done. -/
structure RungState where
  ba    : Bool := false
  fc    : Bool := true
  stack : List BranchEntry := []
  left  : List Nat := []
  done  : List Nat := []
deriving DecidableEq, Repr

/-- combine(k, v) of R155 on a rung. -/
def rungCombine (k : Nat) (v : Bool) (r : RungState) : Bool :=
  let x := if k % 2 = 1 then !v else v
  if r.fc then x else if k / 2 = 0 then r.ba && x else if k / 2 = 1 then r.ba || x else xor r.ba x

/-- A live operand of a network: I the filtered inputs, Q the value applied at the last commit, W the live status
(R162). -/
def rungOperand (s : State) (w : Nat) : Bool :=
  let i := indexOf w
  let ib := ((mouldOf s).map Mould.iBase).getD 0
  let qb := ((mouldOf s).map Mould.qBase).getD 0
  if areaOf w = 0 then (diFiltered s).getLsbD (i - ib)
  else if areaOf w = 1 then s.dio.cmd.getLsbD (i - qb)
  else (wLive s).getLsbD i

/-- DLYON: the count and BA after it (R162). -/
def dlyOn (d cnt : Nat) (ba : Bool) : Nat × Bool :=
  let c := if ba then (if cnt < d then cnt + 1 else cnt) else 0
  (c, decide (c = d))

/-- DLYOFF: the count and BA after it (R162). -/
def dlyOff (d cnt : Nat) (ba : Bool) : Nat × Bool :=
  let c := if ba then 0 else (if cnt < d then cnt + 1 else cnt)
  (c, !decide (c = d))

/-- A delay element with its count. -/
def rungDelay (f : Nat → Nat → Bool → Nat × Bool) (d : Nat) (r : RungState) : RungState :=
  let x := f d (r.left.headD 0) r.ba
  { r with ba := x.2, left := r.left.drop 1, done := r.done ++ [x.1] }

/-- One rung code word. -/
def rungWord (s : State) (r : RungState) (w : Word) : RungState :=
  let n := w.toNat
  let op := opOf n
  if op = 1 then { r with ba := rungOperand s n, fc := false }
  else if op = 2 then { r with ba := !rungOperand s n, fc := false }
  else if between 3 8 op then { r with ba := rungCombine (op - 3) (rungOperand s n) r, fc := false }
  else if between 9 14 op then
    { r with stack := { ba := r.ba, fc := r.fc, op := BitVec.ofNat 3 (op - 9) } :: r.stack
             ba := rungOperand s n, fc := false }
  else if op = 15 then
    match r.stack with
    | [] => r
    | e :: es =>
      let t := { r with stack := es, ba := e.ba, fc := e.fc }
      { t with ba := rungCombine e.op.toNat r.ba t, fc := false }
  else if op = 0x13 then { r with ba := !r.ba, fc := false }
  else if op = 0x14 then { r with ba := true, fc := false }
  else if op = 0x15 then { r with ba := false, fc := false }
  else if op = 0x30 then rungDelay dlyOn (indexOf n) r
  else if op = 0x31 then rungDelay dlyOff (indexOf n) r
  else r

/-- A network's rung code run from BA 0, FC 1 and an empty stack. -/
def rungRun (s : State) (code : List Word) (delays : List Nat) : RungState :=
  code.foldl (rungWord s) { left := delays }

/-- The results of all networks and their delay counts: every network samples the same state (R162). -/
def reflexStep (s : State) : State :=
  if s.rfx.active then
    let runs := (netsOf s).map fun p => rungRun s p.2.code (nth [] s.rfx.delays p.1)
    let res := BitVec.ofNat 64 (maskOf 64 fun k => (nth {} runs k).ba)
    refreshOutputs { s with rfx := { s.rfx with res := res, delays := runs.map RungState.done } }
  else s

/-- The delay counts of a network on reset: 0 for DLYON, d for DLYOFF (R162). -/
def delayReset (code : List Word) : List Nat :=
  code.filterMap fun w =>
    if opOf w.toNat = 0x30 then some 0 else if opOf w.toNat = 0x31 then some (indexOf w.toNat) else none

/-- The networks in their reset state, evaluating; `hold` keeps the commands of the last commit. -/
def reflexReset (hold : Bool) (s : State) : State :=
  { s with rfx := { s.rfx with
    active := true, hold := hold, held := if hold then s.dio.cmd else s.rfx.held, res := 0
    delays := (netsOf s).map fun p => delayReset p.2.code } }

/-- The networks start again after a press (R110, R165). -/
def reflexStart (s : State) : State := refreshOutputs (reflexReset false s)

/-- The networks start with the first full lap (R75): they evaluate, and the outputs keep the BTP's values until that lap commits
(R76). -/
def reflexHandover (s : State) : State := refreshOutputs (reflexReset true s)

/-- The cells of a network (R161). -/
def netCells (code : List Word) : Nat := 4 + code.length + 15 * (delayReset code).length

/-- Is the word one that rung code may hold (R161)? -/
def rungWordOk (ib qb : Nat) (w : Nat) : Bool :=
  let op := opOf w
  let a := areaOf w
  let i := indexOf w
  if between 1 14 op then
    (decide (a = 0) && decide (ib ≤ i) && decide (i ≤ ib + 31)) ||
      (decide (a = 1) && decide (qb ≤ i) && decide (i ≤ qb + 15)) || (decide (a = 10) && decide (i ≤ 255))
  else if op = 0x0F ∨ between 0x13 0x15 op then decide (a = 0) && decide (i = 0)
  else if op = 0x30 ∨ op = 0x31 then decide (a = 0) && decide (1 ≤ i) && decide (i ≤ 65535)
  else false

/-- Stack depth along straight code: none where it leaves 0 to 16. -/
def rungDepth (code : List Word) : Option Nat :=
  code.foldl (fun d w => d.bind fun n =>
    let op := opOf w.toNat
    if between 9 14 op then (if n ≥ 16 then none else some (n + 1))
    else if op = 15 then (if n = 0 then none else some (n - 1)) else some n) (some 0)

/-- REFLEX_STEP. -/
def execReflexStep (s : State) : Result := .next (whenever (pdIs s 5) reflexStep s)

end Sys2Proof.Machine
end

