-- ==== Sys2Proof/Machine/Pairs.lean ====
section
/-! DEFINITION. Dual-channel input pairs and safety output pairs (R233 to R243). -/

namespace Sys2Proof.Machine

/-- What the evaluation of a pair reports. -/
inductive PairNote where
  | latch | resetFailed | cleared | ackIgnored
deriving DecidableEq, Repr

/-- R236 on one pair: `t.st` is the state code of R235, `t.start` t0, `t.ack` the acknowledge flag. -/
def pairEval (tdisc : Nat) (a b : Bool) (now : Word) (t : Timer) : Timer × List PairNote :=
  let dt := (now - t.start).toNat
  let st := t.st.toNat
  let r : Timer × List PairNote :=
    if st = 0 ∨ st = 4 then
      if a && b then ({ t with st := if st = 0 then 2 else 6 }, [])
      else if a || b then ({ t with start := now, st := if st = 0 then 1 else 5 }, [])
      else (t, [])
    else if st = 1 ∨ st = 5 then
      if dt > tdisc then ({ t with st := 3 }, [if st = 1 then .latch else .resetFailed])
      else if !a && !b then ({ t with st := if st = 1 then 0 else 4 }, [])
      else if a && b then ({ t with st := if st = 1 then 2 else 6 }, [])
      else (t, [])
    else if st = 2 ∨ st = 6 then
      if st = 6 ∧ (a && b && t.ack) then ({ t with st := 2 }, [.cleared])
      else if !a && !b then ({ t with st := if st = 2 then 0 else 4 }, [])
      else if !(a && b) then ({ t with start := now, st := if st = 2 then 1 else 5 }, [])
      else (t, [])
    else if st = 3 then
      if !a && !b then ({ t with st := 4 }, []) else (t, [])
    else (t, [])
  ({ r.1 with ack := false }, if t.ack ∧ r.1.st ≠ 2 then r.2 ++ [.ackIgnored] else r.2)

/-- Frozen I bit of DI n, and the frozen DI_OPEN and GRP_STATUS (R233). -/
def frozenDi (s : State) (n : Nat) : Bool := s.frz.i.getLsbD (((mouldOf s).map Mould.iBase).getD 0 + n)
def frozenOpen (s : State) (n : Nat) : Bool := (nth 0 s.ctx.field 0).getLsbD n
def frozenLost (s : State) (n : Nat) : Bool := (nth 0 s.ctx.field 1).getLsbD (8 * (n / 8))

/-- One pair's records, written outside trial laps (R234, R236). -/
def pairNotes (n : Nat) (dt : Nat) (a b : Bool) (notes : List PairNote) (s : State) : State :=
  notes.foldl (fun t x => match x with
    | .latch =>
      sj 0x410 2 (item n ++ item (pairCfg s n).mode.toNat ++ item dt ++ item (b2n a) ++ item (b2n b))
        { t with saf := { t.saf with disc := satInc t.saf.disc } }
    | .resetFailed => sj 0x412 1 (item n ++ item dt) t
    | .cleared => sj 0x411 0 (item n) t
    | .ackIgnored => { t with saf := { t.saf with ackIgnored := satInc t.saf.ackIgnored } }) s

/-- Evaluation of pair n at the captured NOW_MS: the state after it, and whether it was latched. -/
def pairStep (n : Nat) (s : State) : State × Bool :=
  let c := pairCfg s n
  if c.mode = 0 then (s, false)
  else
    let a := goodA (frozenDi s) n
    let b := goodB c.mode.toNat (frozenDi s) (frozenOpen s) (frozenLost s) n
    let t := timerOf s (4080 + n)
    let (u, notes) := pairEval c.tdisc.toNat a b s.lap.nowMs t
    let s1 := lapWrites (11264 + 16 * (4080 + n)) 16 (setImg { imgOf s with timers := sput {} (imgOf s).timers (4080 + n) u } s)
    let s2 := if inTrial s then s1 else pairNotes n (s.lap.nowMs - t.start).toNat a b notes s1
    (s2, notes.contains .latch)

/-- A mask over the enabled pairs in whose state code `f` holds. -/
def pairMask (s : State) (f : Nat → Bool) : BitVec 16 :=
  BitVec.ofNat 16 (maskOf 16 fun n => pairEnabled s n && f (timerOf s (4080 + n)).st.toNat)

/-- Every enabled pair evaluated once (R234): RESULT, FAULT and READY for SB 18, and the pairs latched. -/
def pairsEval (s : State) : State × Nat :=
  let (s1, m) := (List.range 16).foldl (fun (acc : State × Nat) n =>
    let (t, l) := pairStep n acc.1
    (t, acc.2 + b2n l * 2 ^ n)) (s, 0)
  ({ s1 with ctx := { s1.ctx with
      pairResult := pairMask s1 (fun c => decide (c = 2))
      pairFault := pairMask s1 (fun c => between 3 6 c)
      pairReady := pairMask s1 (fun c => decide (c = 6)) } }, m)

/-- Every enabled pair in state SAFE (R235): at the first lap after BRING-UP and after a cold takeover. -/
def pairsSafe (s : State) : State :=
  { s with img := { s.img with timers := (List.range 16).foldl (fun ts n =>
      if pairEnabled s n then sput {} ts (4080 + n) {} else ts) s.img.timers } }

/-- SAF.RESULT, SAF.STATE0 and SAF.STATE1 at the end of a commit. -/
def pairsPublish (s : State) : State :=
  { s with saf := { s.saf with
      result := s.ctx.pairResult, fault := s.ctx.pairFault
      states := (List.range 16).map fun n => if pairEnabled s n then (timerOf s (4080 + n)).st else 0 } }

/-- SB 19's acknowledges at commit step (c) (R240), in the running or the trial state. -/
def pairsAck (mask : Half) (s : State) : State :=
  let i := imgOf s
  let acked := (List.range 16).filter fun n => mask.getLsbD n && pairEnabled s n
  acked.foldl (fun t n => lapWrites (11264 + 16 * (4080 + n)) 16 t)
    (setImg { i with timers := acked.foldl (fun ts n => smod {} ts (4080 + n) (fun t => { t with ack := true })) i.timers } s)

/-- R242: the two commands of safety output pair m differ at a commit. -/
def spairCheck (s : State) : State :=
  (List.range 8).foldl (fun t m =>
    let e := (commands s).getLsbD (2 * m)
    let o := (commands s).getLsbD (2 * m + 1)
    if (doMap s (2 * m)).spair ∧ e ≠ o then
      sjRep 0x420 1 m (item m ++ item (b2n e) ++ item (b2n o))
        { t with saf := { t.saf with mismatch := setBit t.saf.mismatch m true } }
    else t) s

/-- One window of the switch-off test: output k is on alone; readback 0 fails it (R243). -/
def testWindow (k : Nat) (readback : Bool) (s : State) : State :=
  let s1 := { s with saf := { s.saf with chFail := setBit s.saf.chFail k (!readback) } }
  if readback then s1 else sj 0x422 2 (item k) s1

/-- SWITCH_OFF_TEST (R243): the pair is commanded on; output 2m off with 2m + 1 on alone, then the other way. While the outputs of a
pacer are held off (R215), no test runs (DESIGN CHOICE, log 106). -/
def switchOffTest (m : Nat) (even odd : Bool) (s : State) : State :=
  if spairActs s (2 * m) ∧ pairedCommand s (2 * m) ∧ !s.sbx.held then
    testWindow (2 * m) odd (testWindow (2 * m + 1) even s)
  else s

/-- The terminals of pair m read 1, or 0, from what drives them beside the unit's commands (R49). -/
def pairReadback (m : Nat) (v : Bool) (s : State) : State :=
  { s with dio := { s.dio with readback := setBit (setBit s.dio.readback (2 * m) v) (2 * m + 1) v } }

/-- SPAIR_STUCK_ON (R243): both outputs commanded off and the readback 1 for 20 ms. -/
def spairStuck (m : Nat) (s : State) : State :=
  if spairActs s (2 * m) ∧ !pairedCommand s (2 * m) ∧ !s.saf.stuck.getLsbD m then
    sj 0x421 2 (item m) (pairReadback m true { s with saf := { s.saf with stuck := setBit s.saf.stuck m true } })
  else s

/-- SPAIR_STUCK_CLEARED: readback 0 for 20 ms. -/
def spairFree (m : Nat) (s : State) : State :=
  pairReadback m false { s with saf := { s.saf with stuck := setBit s.saf.stuck m false } }

/-- SWITCH_OFF_TEST. -/
def execSwitchOffTest (m : Fin 8) (even odd : Bool) (s : State) : Result := .next (switchOffTest m even odd s)
/-- SPAIR_STUCK_ON. -/
def execSpairStuckOn (m : Fin 8) (s : State) : Result := .next (spairStuck m s)
/-- SPAIR_STUCK_CLEARED. -/
def execSpairStuckCleared (m : Fin 8) (s : State) : Result := .next (spairFree m s)

end Sys2Proof.Machine
end

