-- ==== Sys2Proof/Machine/Plant.lean ====
section
/-! DEFINITION. What Plant Exchange and Modbus do inside a lap: frames sent, publication, subscribed images,
deferred Modbus writes (R139, R342 to R350, R357 to R359). -/

namespace Sys2Proof.Machine

/-- Ms since entry to RUN, saturating; 0 outside RUN and HALT (R209, R344). -/
def runMs (s : State) : Nat :=
  if inRunOrHalt s then min ((s.clk.opUs - s.power.runEntryUs) / 1000) (2 ^ 32 - 1) else 0

/-- The HELLO payload (R344). -/
def helloPayload (s : State) : Bytes :=
  beBytes 1 (stateCode s.power.state) ++ beBytes 1 (roleCode s.power.role) ++
    beBytes 1 (b2n (partnerNamed s) + 2 * b2n s.px.muted) ++ beBytes 1 (ownPartner s) ++
    beBytes 4 s.mgt.testedSet.toNat ++ beBytes 4 s.px.session.toNat ++ beBytes 4 (runMs s) ++
    beBytes 2 (((restOf s).map MouldRest.tLap).getD 0) ++ zeros 2 ++ beBytes 4 s.power.pwrCycles.toNat

/-- The JOIN payload: PUB_COUNT is 0 in a pacer (R345). -/
def joinPayload (s : State) : Bytes :=
  let pubs := if s.power.role = .pacer then [] else ((mouldOf s).map Mould.pubs).getD []
  helloPayload s ++ beBytes 1 pubs.length ++ zeros 3 ++
    pubs.flatMap fun p => [p.block, 0] ++ beBytes 2 p.length

/-- Byte b of the area of a PUB entry: Q, M or D of the running images (R98, R348). -/
def pubByte (s : State) (a : Byte) (b : Nat) : Byte :=
  if a = 1 then s.img.q.extractLsb' (8 * b) 8
  else if a = 2 then s.img.m.extractLsb' (8 * b) 8
  else memGet 0 s.data b

/-- The IMAGE payload of a PUB entry (R344, R348). -/
def imagePayload (halt : Bool) (s : State) (p : PubEntry) : Bytes :=
  beBytes 1 (ownPubId s) ++ [p.block] ++ beBytes 1 (b2n halt) ++ [0] ++ beBytes 4 (s.lap.num.toNat % 2 ^ 32) ++
    (List.range p.length).map fun i => pubByte s p.area (p.start + i)

/-- One IMAGE per PUB entry, in PUB order (R348). -/
def publish (halt : Bool) (s : State) : State :=
  (((mouldOf s).map Mould.pubs).getD []).foldl (fun t p => pxSend (groupTo t) 3 0 (imagePayload halt t p) t) s

/-! ### Subscribed images -/

/-- The buffer of subscription entry e: Lane B working memory after the landing-bus buffers (log 27). -/
def subBuffer (e : Nat) : Nat := 0xA50000 + 1024 * e

/-- The subscription entries with their numbers. -/
def subsOf (s : State) : List (Nat × SubEntry) :=
  let xs := ((mouldOf s).map Mould.subs).getD []
  (List.range xs.length).zip xs

/-- The oldest descriptors of a ring, at most k. -/
def takeAll : Nat → Nat → State → State × List Desc
  | 0, _, s => (s, [])
  | k + 1, n, s =>
    match ringTake n s with
    | (s1, some d) => let (s2, ds) := takeAll k n s1; (s2, d :: ds)
    | (s1, none) => (s1, [])

/-- Everything in the subscribed rings taken at the freeze. -/
def drainSubs (s : State) : State × List Desc :=
  ((subsOf s).map fun p => p.2.ring).dedup.foldl (fun acc n =>
    let (t, ds) := takeAll 4096 n acc.1
    (t, acc.2 ++ ds)) (s, [])

/-- Bytes copied into P at an offset; bytes beyond 65,535 are not copied, and counted (R139). -/
def copyP (off : Nat) (bs : Bytes) (s : State) : State :=
  let kept := bs.take (65536 - off)
  let p := (kept.zip (List.range kept.length)).foldl (fun p x => setField p (8 * (off + x.2)) 8 x.1.toNat) s.frz.p
  { s with frz := { s.frz with p := p }, lap := { s.lap with pClip := satAdd s.lap.pClip (bs.length - (65536 - off)) } }

/-- A new image noted: its length. -/
def noteImage (e len : Nat) (s : State) : State := { s with ctx := { s.ctx with lens := setAt s.ctx.lens e len } }

/-- A STALE bit going from 0 to 1: SJ 0x0821 per entry, and event type 8 (R350). -/
def staleRaised (e : Nat) (sub : SubEntry) (s : State) : State :=
  pushEvent 8 3 (BitVec.ofNat 32 (sub.member.toNat + 256 * sub.block.toNat))
    (sjRep 0x821 1 e (item e ++ item sub.member.toNat ++ item sub.block.toNat) s)

/-- One subscription entry at the freeze (R126, R139, R350): its newest image, its age, its STALE bit. Every entry is copied, so that
of two that overlap the later entry's bytes stand; one without a new image is copied from its last, and its bytes beyond byte 65,535
are counted in LAP.P_CLIP at this freeze as at every other (DESIGN CHOICE, log 102). -/
def freezeSub (ds : List Desc) (s : State) (x : Nat × SubEntry) : State :=
  let (e, sub) := x
  let mine := ds.filter fun d => d.buf.toNat = subBuffer e
  let age := if mine = [] then min 255 (nth 0 s.ctx.ages e + 1) else 0
  let stale := decide (age ≥ sub.staleK)
  let s0 := match mine.getLast? with
    | some d => noteImage e d.len.toNat s
    | none => s
  let s1 := copyP sub.pOffset (dataRead (subBuffer e) (nth 0 s0.ctx.lens e) s0) s0
  let s2 := { s1 with ctx := { s1.ctx with ages := setAt s1.ctx.ages e age, stale := setAt s1.ctx.stale e stale }
                      frz := { s1.frz with p := setBit s1.frz.p (524288 + e) stale } }
  if stale ∧ !nth false s.ctx.stale e then staleRaised e sub s2 else s2

/-- P_LEN: one more than the highest P byte that the freeze has copied, of every entry that holds an image (R211). -/
def copiedLen (s : State) : Nat :=
  (subsOf s).foldl (fun m x =>
    if nth 0 s.ctx.lens x.1 = 0 then m else max m (min 65536 (x.2.pOffset + nth 0 s.ctx.lens x.1))) 0

/-- The P area latched at the freeze, in ascending entry order, and P_LEN (R139, R211). -/
def freezeP (s : State) : State × Nat :=
  let (s1, ds) := drainSubs s
  let s2 := (subsOf s).foldl (freezeSub ds) s1
  (s2, copiedLen s2)

/-- The entries that were not stale at the last freeze. Before the first freeze there is no STALE bit, and none goes from 0 to 1
(DEDUCED, log 74). -/
def subsFresh (s : State) : List (Nat × SubEntry) := (subsOf s).filter fun x => s.ctx.stale[x.1]? = some false

/-- At entry to RUN every age is STALE_K and every entry stale (R350); an entry that was not says so. -/
def subsReset (s : State) : State :=
  let subs : List (Nat × SubEntry) := subsOf s
  let ages : List Nat := subs.map fun (y : Nat × SubEntry) => y.2.staleK
  let bits : BitVec 525312 := subs.foldl (fun p (y : Nat × SubEntry) => setBit p (524288 + y.1) true) s.frz.p
  let lens : List Nat := if s.ctx.lens.length = subs.length then s.ctx.lens else subs.map fun _ => 0
  (subsFresh s).foldl (fun t x => staleRaised x.1 x.2 t)
    { s with ctx := { s.ctx with ages := ages, stale := subs.map fun _ => true, lens := lens }, frz := { s.frz with p := bits } }

/-! ### Modbus writes (R357 to R359) -/

/-- The peer of a connection. -/
def connSrc (s : State) (c : Nat) : NetAddr := ((s.px.conns.find? fun x => x.id = c).map fun x => x.src.ip).getD (.v4 0)

/-- Values written to the coils or holding registers of the running images. -/
def mbApply (w : MbWrite) (s : State) : State :=
  (w.values.zip (List.range w.values.length)).foldl (fun t (x : Half × Nat) =>
    if w.coil then lapWrites (1024 + (w.addr + x.2) / 8) 1 { t with img := { t.img with m := setBit t.img.m (w.addr + x.2) (decide (x.1 ≠ 0)) } }
    else lapWrites (93192 + 2 * (w.addr + x.2)) 2 (dataWrite (2 * (w.addr + x.2)) (leBytes 2 x.1.toNat) t)) s

/-- One write at the freeze: applied with TR 0x0827, or discarded where its area has been disabled (R359). The table
is coded 0 coils, 1 holding registers (log 28). -/
def mbFreezeOne (w : MbWrite) (s : State) : State × MbWrite :=
  if s.px.mbEn.getLsbD (if w.coil then 0 else 1) then
    (trRep 0x827 0 w.conn (addrItem (connSrc s w.conn) s ++ item (if w.coil then 0 else 1) ++ item w.addr ++
      item w.values.length) (addrDrawn (connSrc s w.conn) (mbApply w s)), { w with state := 1 })
  else (s, { w with state := 2 })

/-- Every write received since the previous freeze, in arrival order. -/
def mbFreeze (s : State) : State :=
  let (t, ws) := s.px.writes.foldl (fun (acc : State × List MbWrite) w =>
    if w.state = 0 then let (u, v) := mbFreezeOne w acc.1; (u, acc.2 ++ [v]) else (acc.1, acc.2 ++ [w])) (s, [])
  { t with px := { t.px with writes := ws } }

/-- A Modbus response: MBAP header and PDU. -/
def mbAdu (tid : Half) (unit fc : Byte) (pdu : Bytes) : Bytes :=
  beBytes 2 tid.toNat ++ zeros 2 ++ beBytes 2 (pdu.length + 2) ++ [unit, fc] ++ pdu

/-- A response sent on a connection that is still open. -/
def mbSend (conn : Nat) (bs : Bytes) (s : State) : State :=
  if s.px.conns.any fun c => c.id = conn then { s with out := { s.out with modbus := (conn, bs) :: s.out.modbus } } else s

/-- An exception response. -/
def mbException (conn : Nat) (tid : Half) (unit fc : Byte) (code : Nat) (s : State) : State :=
  mbSend conn (mbAdu tid unit (fc ||| 0x80) (leBytes 1 code)) s

/-- Holding register r of the commit's copy (R357). -/
def mbHolding (c : MbCopy) (r : Nat) : Nat := leNat (memRead 0 c.d (2 * r) 2)

/-- Bytes of register values, high byte first. -/
def regBytes (vs : List Nat) : Bytes := vs.flatMap (beBytes 2)

/-- The response of one write at the end of the commit: normal, or 0x01 where it was discarded (R359). -/
def mbRespond (w : MbWrite) (s : State) : State :=
  if w.state = 2 then mbException w.conn w.tid w.unit w.fc 1 s
  else
    let pdu :=
      if w.fc = 5 then beBytes 2 w.addr ++ (if nth 0 w.values 0 ≠ 0 then [0xFF, 0x00] else [0x00, 0x00])
      else if w.fc = 6 then beBytes 2 w.addr ++ beBytes 2 (nth 0 w.values 0).toNat
      else if w.fc = 23 then
        leBytes 1 (2 * w.rdQty) ++ regBytes ((List.range w.rdQty).map fun i => mbHolding s.ctx.mbCopy (w.rdAddr + i))
      else beBytes 2 w.addr ++ beBytes 2 w.values.length
    mbSend w.conn (mbAdu w.tid w.unit w.fc pdu) s

/-- MGT.STATE bits 7:0: the state and the role. -/
def mgtState (s : State) : Byte := BitVec.ofNat 8 (stateCode s.power.state + 16 * roleCode s.power.role)

/-- The copy for Modbus reads, and the responses of the writes applied in this lap (R357, R359). -/
def mbCommit (s : State) : State :=
  let copy : MbCopy := { q := s.img.q, m := s.img.m, d := s.data.filter (fun c => decide (c.1 < dBytes s)), frz := s.frz
                         num := s.lap.num, nowMs := s.lap.nowMs, mgt := mgtState s
                         cycles := s.power.pwrCycles }
  let s1 := { s with ctx := { s.ctx with mbCopy := copy } }
  let s2 := (s.px.writes.filter fun w => w.state ≠ 0).foldl (fun t w => mbRespond w t) s1
  { s2 with px := { s2.px with writes := s2.px.writes.filter fun w => w.state = 0 } }

end Sys2Proof.Machine
end

