-- ==== Sys2Proof/Machine/Standby.lean ====
section
/-! DEFINITION. Hot standby inside the lap: the state block and its digest, HASH comparison, divergence,
resynchronisation and migration transfers, tokens (R211 to R218, R229, R230). -/

namespace Sys2Proof.Machine

/-! ### The state block (R217) -/

/-- The length of the state block: D starts at offset 93,192. -/
def blockLen (s : State) : Nat := 93192 + dBytes s

/-- Byte x of the state block formed from images, D and the enable masks. -/
def blockByte (i : Images) (d : Mem) (en : DWord) (x : Nat) : Byte :=
  if x < 1024 then i.q.extractLsb' (8 * x) 8
  else if x < 9216 then i.m.extractLsb' (8 * (x - 1024)) 8
  else if x < 11264 then i.e.extractLsb' (8 * (x - 9216)) 8
  else if x < 76800 then nth 0 (timerBytes (sget {} i.timers ((x - 11264) / 16))) ((x - 11264) % 16)
  else if x < 93184 then nth 0 (counterBytes (sget {} i.counters ((x - 76800) / 8))) ((x - 76800) % 8)
  else if x < 93192 then en.extractLsb' (8 * (x - 93184)) 8
  else memGet 0 d (x - 93192)

/-- The enable masks of SB 8 as 8 bytes. -/
def enMasks (s : State) : DWord := s.rfx.en1 ++ s.rfx.en0

/-- Byte x of the running state block. -/
def stateByte (s : State) (x : Nat) : Byte := blockByte s.img s.data (enMasks s) x

/-- Bytes a to a + n − 1 of the running state block. -/
def stateBytes (s : State) (a n : Nat) : Bytes := (List.range n).map fun i => stateByte s (a + i)

/-- Byte x of the state block written. -/
def setStateByte (x : Nat) (v : Byte) (s : State) : State :=
  let i := s.img
  if x < 1024 then { s with img := { i with q := setField i.q (8 * x) 8 v.toNat } }
  else if x < 9216 then { s with img := { i with m := setField i.m (8 * (x - 1024)) 8 v.toNat } }
  else if x < 11264 then { s with img := { i with e := setField i.e (8 * (x - 9216)) 8 v.toNat } }
  else if x < 76800 then
    let n := (x - 11264) / 16
    let t := timerOfBytes (setAt (timerBytes (sget {} i.timers n)) ((x - 11264) % 16) v)
    { s with img := { i with timers := sput {} i.timers n t } }
  else if x < 93184 then
    let n := (x - 76800) / 8
    let c := counterOfBytes (setAt (counterBytes (sget {} i.counters n)) ((x - 76800) % 8) v)
    { s with img := { i with counters := sput {} i.counters n c } }
  else if x < 93192 then
    let en := setField (enMasks s) (8 * (x - 93184)) 8 v.toNat
    { s with rfx := { s.rfx with en0 := en.extractLsb' 0 32, en1 := en.extractLsb' 32 32 } }
  else if x < blockLen s then dataWrite (x - 93192) [v] s
  else s

/-- Bytes written into the state block from an offset on. -/
def setStateBytes (off : Nat) (bs : Bytes) (s : State) : State :=
  (bs.zip (List.range bs.length)).foldl (fun t p => setStateByte (off + p.2) p.1 t) s

/-! ### The rolling digest (R214) -/

/-- CRC-32C continued from a register value. -/
def crcMore (reg : Nat) (bs : Bytes) : Nat := bs.foldl (crcByte 32 0x1EDC6F41 true) reg

/-- Slice lap mod 100 scanned in the slack; a window with a slice not scanned, because the lap overran, is invalid
(log 30). -/
def digestScan (lap : Nat) (overran : Bool) (s : State) : State :=
  let k := lap % 100
  let z := blockLen s
  let a := k * z / 100
  let bs := stateBytes s a ((k + 1) * z / 100 - a)
  let reg := if k = 0 then 0xFFFFFFFF else s.sbx.digest.toNat
  let valid := !overran && (decide (k = 0) || (s.sbx.digestValid && decide (s.sbx.digestSlice = k)))
  { s with sbx := { s.sbx with digest := BitVec.ofNat 32 (crcMore reg bs), digestValid := valid, digestSlice := k + 1 } }

/-- The digest of a full window. -/
def digestValue (s : State) : Word := BitVec.ofNat 32 (Nat.xor (revBits 32 s.sbx.digest.toNat) 0xFFFFFFFF)

/-- The 1,024 bytes of the Q image. -/
def qBytes (s : State) : Bytes := (List.range 1024).map fun x => s.img.q.extractLsb' (8 * x) 8

/-- The unit's own HASH values of the lap just committed (R213). -/
def hashNow (s : State) : HashVal :=
  { lap := s.lap.num, qCrc := BitVec.ofNat 32 (crc32c (qBytes s)), present := decide (s.lap.num.toNat % 100 = 99)
    valid := s.sbx.digestValid, digest := digestValue s }

/-- The HASH payload (R213): 16 bytes. -/
def hashPayload (h : HashVal) : Bytes :=
  leBytes 4 h.qCrc.toNat ++ leBytes 1 (b2n h.present + 2 * b2n h.valid + 4 * b2n h.ackAdopt + 8 * b2n h.ackBaton) ++
    zeros 3 ++ leBytes 4 h.digest.toNat ++ zeros 4

/-- A HASH as received. -/
def hashOf (lap : Nat) (p : Bytes) : HashVal :=
  let f := leAt p 4 1
  { lap := BitVec.ofNat 64 lap, qCrc := BitVec.ofNat 32 (leAt p 0 4), present := bitOf f 0, valid := bitOf f 1
    ackAdopt := bitOf f 2, ackBaton := bitOf f 3, digest := BitVec.ofNat 32 (leAt p 8 4) }

/-! ### Divergence, resynchronisation and withdrawal (R216 to R218) -/

/-- Divergences of the preceding 3,600,000 ms (R218). -/
def divHour (s : State) : Nat := (s.sbx.divTimes.filter fun t => decide (opMs s < t + 3600000)).length

/-- A baton pass in progress is abandoned: reason 0 acknowledgement missing, 1 divergence, 2 silence (R230). -/
def batonFail (reason : Nat) (s : State) : State :=
  if s.sbx.batonB = 0 then s
  else asyncDoneFree 2 (sj 0x30B 1 (item reason) { s with sbx := { s.sbx with batonB := 0, batonConf := false, batonAck := false } })

/-- A resynchronisation begins at the leader (R217): CONTROL RESYNC with the starting lap, and the whole block to
send. Which lap is the starting lap is not stated: the next one (DESIGN CHOICE, log 91). Nor is the width of the arguments of CONTROL for
which R209 gives none: 8 bytes for this lap, 1 for each cause, reason, result code and command (DESIGN CHOICE, log 91). -/
def startResync (s : State) : State :=
  let lap := s.lap.num.toNat + 1
  let s1 := syncControl 1 (leBytes 8 lap) s
  sj 0x305 0 (item8 lap) { s1 with
    sby := { s1.sby with cond := .unpaired, rsPasses := 0, rsKib := 0 }
    sbx := { s1.sbx with
      rsActive := true, ignoring := true, rsStartLap := BitVec.ofNat 64 lap, rsStartUs := s1.clk.opUs, rsOffset := 0
      rsMarked := [], written := [], gotHashes := [], ownHashes := [], prevImg := s1.img
      prevD := s1.data.filter (fun c => decide (c.1 < dBytes s1)), prevEn := enMasks s1 } }

/-- The pacer is withdrawn by its leader (R218): cause 1 request, 2 divergences. The leader becomes SOLO. -/
def withdrawPacer (cause : Nat) (s : State) : State :=
  let s1 := syncControl 2 (leBytes 1 cause) s
  let s2 := sj 0x307 (if cause = 2 then 2 else 0) (item cause) (changeRole .solo s1)
  { s2 with sby := { s2.sby with cond := .unpaired }
            sbx := { s2.sbx with rsActive := false, migrating := false, ignoring := false, gotHashes := [], ownHashes := [] } }

/-- A divergence at the leader with its cause (0 Q, 1 DIGEST, 2 LATE, 3 RESYNC_FAILED) and lap (R216 to R218). -/
def divergence (cause lap : Nat) (s : State) : State :=
  let s1 := { s with sby := { s.sby with diverge := satInc s.sby.diverge }
                     sbx := { s.sbx with divTimes := opMs s :: s.sbx.divTimes, rsActive := false } }
  let n := divHour s1
  let s2 := abortTrial (if n ≥ 3 then 2 else 6) (batonFail 1 (sj 0x303 1 (item cause ++ item8 lap ++ item n) s1))
  if n ≥ 3 then withdrawPacer 2 s2 else startResync s2

/-- One HASH compared with the unit's own values of its lap: the cause of a divergence, or none. -/
def hashDiffers (own got : HashVal) : Option Nat :=
  if own.qCrc ≠ got.qCrc then some 0
  else if got.present && own.valid && got.valid && decide (own.digest ≠ got.digest) then some 1 else none

/-- HASHes of earlier laps compared at housekeeping of lap `now` (R213): the first divergence found, LATE included.
A digest window that is not compared is counted. -/
def compareHashes (now : Nat) (s : State) : State :=
  let got := s.sbx.gotHashes.filter fun h => decide (h.lap.toNat < now)
  let pairs := got.filterMap fun h => (s.sbx.ownHashes.find? fun o => o.lap = h.lap).map fun o => (o, h)
  let late := (got.filter fun h => decide (h.lap.toNat + 2 = now)).length
  let skipped := (pairs.filter fun p => p.2.present && !(p.1.valid && p.2.valid)).length
  let bad := pairs.findSome? fun p => (hashDiffers p.1 p.2).map fun c => (c, p.2.lap.toNat)
  let missing := s.sbx.ownHashes.find? fun o => decide (o.lap.toNat + 2 ≤ now) && !got.any fun h => h.lap = o.lap
  let s1 := { s with
    sby := { s.sby with late := satAdd s.sby.late late, digestSkip := satAdd s.sby.digestSkip skipped }
    sbx := { s.sbx with
      gotHashes := s.sbx.gotHashes.filter fun h => decide (now ≤ h.lap.toNat)
      ownHashes := s.sbx.ownHashes.filter fun o => !got.any fun h => h.lap = o.lap } }
  match bad with
  | some (c, l) => divergence c l s1
  | none =>
    match missing with
    | some o => divergence 2 o.lap.toNat s1
    | none => s1

/-! ### State transfer (R217, R229) -/

/-- The 4 KiB pages of the block that laps have written since the last transfer (R217), and those in which a byte has changed
otherwise (log 31). -/
def changedPages (s : State) : List Nat :=
  let z := blockLen s
  (List.range ((z + 4095) / 4096)).filter fun p =>
    s.sbx.written.contains p || (List.range (min 4096 (z - 4096 * p))).any fun i =>
      stateByte s (4096 * p + i) ≠ blockByte s.sbx.prevImg s.sbx.prevD s.sbx.prevEn (4096 * p + i)

/-- The contents to which the next lap's changes are compared; no page is written yet. -/
def snapPages (s : State) : State :=
  { s with sbx := { s.sbx with written := [], prevImg := s.img, prevD := s.data.filter (fun c => decide (c.1 < dBytes s)), prevEn := enMasks s } }

/-- STATE frames for bytes a to b − 1 of the block: OFFSET and up to 4,092 data bytes each; SEG counts them, LAST on
the final one where `last` (R209, log 32). The fuel bounds their number. -/
def stateFrames (lap : Nat) (last : Bool) (s : State) : Nat → Nat → Nat → Nat → List Bytes
  | 0, _, _, _ => []
  | k + 1, seg, a, b =>
    if a ≥ b then []
    else
      let n := min 4092 (b - a)
      syncFrame 5 (last && decide (a + n ≥ b)) lap seg (leBytes 4 a ++ stateBytes s a n) ::
        stateFrames lap last s k (seg + 1) (a + n) b

/-- STATE frames for a list of pages. -/
def pageFrames (lap : Nat) (last : Bool) (s : State) : Nat → List Nat → List Bytes
  | _, [] => []
  | seg, [p] => stateFrames lap last s 2 seg (4096 * p) (min (4096 * (p + 1)) (blockLen s))
  | seg, p :: ps =>
    let fs := stateFrames lap false s 2 seg (4096 * p) (min (4096 * (p + 1)) (blockLen s))
    fs ++ pageFrames lap last s (seg + fs.length) ps

/-- Bytes that a slack of `us` carries at 100 MB/s. -/
def slackBytes (us : Nat) : Nat := 100 * us

/-- One commit of a leader whose pacer resynchronises: the first pass goes on, then passes over the marked pages, and
when what is left is at most 256 KiB and fits the previous lap's slack it is sent with LAST and LAP = r (R217). -/
def resyncSend (slackUs : Nat) (s : State) : State :=
  let lap := s.lap.num.toNat
  let z := blockLen s
  let marked := (s.sbx.rsMarked ++ changedPages s).dedup
  let s0 := snapPages { s with sbx := { s.sbx with rsMarked := marked } }
  let count := fun (n : Nat) (t : State) => { t with sby := { t.sby with rsKib := satAdd t.sby.rsKib ((n + 1023) / 1024) } }
  if s.sbx.rsOffset < z then
    let b := min z (s.sbx.rsOffset + slackBytes slackUs)
    let s1 := count (b - s.sbx.rsOffset) (syncSend (stateFrames lap false s (z / 4092 + 1) 0 s.sbx.rsOffset b) s0)
    { s1 with sbx := { s1.sbx with rsOffset := b }
              sby := { s1.sby with rsPasses := if b = z then satInc s1.sby.rsPasses else s1.sby.rsPasses } }
  else
    let n := 4096 * marked.length
    if n ≤ 262144 ∧ n ≤ slackBytes s.sbx.prevSlackUs then
      let frames := if marked = [] then [syncFrame 5 true lap 0 (leBytes 4 0)] else pageFrames lap true s 0 marked
      let ms := (s.clk.opUs - s.sbx.rsStartUs) / 1000
      let s1 := count n (syncSend frames s0)
      let passes := satInc s1.sby.rsPasses
      sj 0x306 0 (item8 lap ++ item ms ++ item passes.toNat) { s1 with
        sbx := { s1.sbx with rsActive := false, ignoring := false, rsMarked := [], ownHashes := [], gotHashes := [] }
        sby := { s1.sby with cond := .leading, rsMs := BitVec.ofNat 12 (min ms 4095), rsPasses := passes } }
    else
      let k := slackBytes slackUs / 4096
      let s1 := count (4096 * min k marked.length) (syncSend (pageFrames lap false s 0 (marked.take k)) s0)
      { s1 with sbx := { s1.sbx with rsMarked := marked.drop k }
                sby := { s1.sby with rsPasses := if k ≥ marked.length then satInc s1.sby.rsPasses else s1.sby.rsPasses } }

/-- One commit of a leader with a migrating pacer: the pages written since the last transfer, LAST on the final frame
(R229). -/
def migrateSend (s : State) : State :=
  let marked := (s.sbx.rsMarked ++ changedPages s).dedup
  let lap := s.lap.num.toNat
  let frames := if marked = [] then [syncFrame 5 true lap 0 (leBytes 4 0)] else pageFrames lap true s 0 marked
  snapPages (syncSend frames { s with sbx := { s.sbx with rsMarked := [] } })

/-! ### Tokens (R211) -/

/-- An event entry of LAPSTART. -/
def eventBytes (e : EventInfo) : Bytes :=
  leBytes 1 e.type ++ leBytes 1 (b2n e.lost) ++ leBytes 2 e.count ++ leBytes 4 e.tag.toNat ++ leBytes 4 e.ts.toNat ++ zeros 4

/-- The event that such an entry names. -/
def eventOf (bs : Bytes) : EventInfo :=
  { type := leAt bs 0 1, lost := decide (leAt bs 1 1 ≠ 0), count := leAt bs 2 2, tag := BitVec.ofNat 32 (leAt bs 4 4)
    ts := BitVec.ofNat 32 (leAt bs 8 4) }

/-- A bit vector as bytes. -/
def bvBytes {w : Nat} (v : BitVec w) (n : Nat) : Bytes := (List.range n).map fun x => v.extractLsb' (8 * x) 8

/-- A bit vector of bytes. -/
def bvOf (w : Nat) (bs : Bytes) : BitVec w := BitVec.ofNat w (leNat bs)

/-- The adoption lap that LAPSTART of this lap carries: from two laps before it on (R201). -/
def adoptToken (s : State) : Nat :=
  if s.edit.state = .adopting ∧ s.lap.num.toNat + 2 ≥ s.edit.lap.toNat then s.edit.lap.toNat else 0

/-- The LAPSTART payload (R211). -/
def lapstartPayload (pLen : Nat) (s : State) : Bytes :=
  let subs := (((mouldOf s).map Mould.subs).getD []).length
  let ib := ((mouldOf s).map Mould.iBase).getD 0
  leBytes 4 s.lap.nowMs.toNat ++ timeBytes s.ctx.rtc ++ leBytes 1 (b2n s.ctx.rtcOsf + 2 * b2n s.ctx.rtcLbv) ++
    leBytes 1 s.ctx.events.length ++ leBytes 1 (b2n s.edit.confirmed + 2 * b2n s.sbx.batonConf) ++ zeros 1 ++
    leBytes 4 s.ctx.prevUs.toNat ++ (s.ctx.field.flatMap fun w => leBytes 4 w.toNat) ++
    leBytes 8 (adoptToken s) ++ leBytes 8 s.sbx.batonB.toNat ++ leBytes 4 pLen ++ zeros 4 ++
    s.ctx.events.flatMap eventBytes ++
    bvBytes (s.frz.i.extractLsb' ib 32) 4 ++ bvBytes s.frz.s 128 ++ bvBytes s.frz.k 4 ++ bvBytes s.frz.w 32 ++
    bvBytes s.frz.l 512 ++ bvBytes (s.frz.p.extractLsb' 524288 1024) ((subs + 7) / 8) ++
    (List.range pLen).map fun b => s.frz.p.extractLsb' (8 * b) 8

/-- The frozen areas, tokens and events of a LAPSTART payload taken in place of the unit's own (R128, R212). -/
def takeTokens (p : Bytes) (s : State) : State :=
  let subs := (((mouldOf s).map Mould.subs).getD []).length
  let ib := ((mouldOf s).map Mould.iBase).getD 0
  let nEv := leAt p 13 1
  let x := 64 + 16 * nEv
  let stB := (subs + 7) / 8
  let pLen := leAt p 56 4
  let y := x + 4 + 128 + 4 + 32 + 512
  let pBytes := slice p (y + stB) pLen
  let pArea := (pBytes.zip (List.range pBytes.length)).foldl (fun v z => setField v (8 * z.2) 8 z.1.toNat) s.frz.p
  { s with
    lap := { s.lap with nowMs := BitVec.ofNat 32 (leAt p 0 4) }
    frz := { i := setField 0 ib 32 (leAt p x 4), s := bvOf 1024 (slice p (x + 4) 128), k := bvOf 32 (slice p (x + 132) 4)
             w := bvOf 256 (slice p (x + 136) 32), l := bvOf 4096 (slice p (x + 168) 512)
             p := setField pArea 524288 1024 (leNat (slice p y stB)) }
    ctx := { s.ctx with
      rtc := timeOf (slice p 4 8), rtcOsf := bitOf (leAt p 12 1) 0, rtcLbv := bitOf (leAt p 12 1) 1
      prevUs := BitVec.ofNat 32 (leAt p 16 4)
      field := (List.range 5).map fun k => BitVec.ofNat 32 (leAt p (20 + 4 * k) 4)
      events := (List.range nEv).map fun k => eventOf (slice p (64 + 16 * k) 16) } }

end Sys2Proof.Machine
end

