-- ==== Sys2Proof/Machine/Landing.lean ====
section
/-! DEFINITION. Landing buses: controllers, frames, filter tables and the L image, transmission, fault confinement,
time master, Beacon nodes and tests, sleep and wake (R56, R79, R279 to R308). -/

namespace Sys2Proof.Machine

/-- The configuration of port p's controller. -/
def lbCfg (s : State) (p : Nat) : CtrlCfg := (lbOf s p).cfg.getD {}

/-- Has port p a controller, and PD7 on? -/
def lbThere (s : State) (p : Nat) : Bool := pdIs s 7 && (lbOf s p).cfg.isSome

/-- Is port p a Beacon bus? -/
def isBeacon (s : State) (p : Nat) : Bool := lbThere s p && (lbCfg s p).beacon

/-- LBn.STATUS.STATE. -/
def lbStateCode : LbState → Nat
  | .absent => 0
  | .listen => 1
  | .normal => 2
  | .busOff => 3
  | .recovering => 4
  | .pressing => 5

/-- The TAG of event type 7 (R291). -/
def lbTag (p : Nat) (old new : Lb) : Nat :=
  p + 16 * lbStateCode new.state + 256 * lbStateCode old.state + 4096 * b2n new.passive + 8192 * b2n new.polarity

/-- A change of a port: event type 7 on a change of STATE, PASSIVE or POLARITY, SJ 0x0701 on a change of STATE
(R291, R310). -/
def lbChange (p : Nat) (f : Lb → Lb) (s : State) : State :=
  let old := lbOf s p
  let new := f old
  let s1 := setLb p new s
  let s2 := if old.state ≠ new.state then
      sj 0x701 0 (item p ++ item (lbStateCode old.state) ++ item (lbStateCode new.state) ++ item new.tec ++ item new.recCnt) s1
    else s1
  if old.state ≠ new.state ∨ old.passive ≠ new.passive ∨ old.polarity ≠ new.polarity then
    pushEvent 7 (BitVec.ofNat 8 (8 + p)) (BitVec.ofNat 32 (lbTag p old new)) s2
  else s2

/-! ### Frames (R282, R283) -/

/-- Data bytes that a data length code names: 0 to 64 in FD frames, at most 8 in classic ones (ISO 11898-1,
PRESUMED, log 40). -/
def dlcLen (fdf : Bool) (dlc : Nat) : Nat :=
  if dlc ≤ 8 then dlc else if !fdf then 8 else nth 64 [12, 16, 20, 24, 32, 48, 64] (dlc - 9)

/-- A frame as the controller sends it (R279): an FD frame only in MODE 1, with BRS only where the data phase has a rate of
its own, ESI by the error-passive state, and as many data bytes as the data length code says, zeros behind those given. In
MODE 0 the FD bit of a buffer counts for nothing and the frame is classic (DESIGN CHOICE, log 40). -/
def frameSent (c : CtrlCfg) (passive : Bool) (f : CanFrame) : CanFrame :=
  let fdf := f.fdf && c.fd
  let dlc := if fdf then f.dlc.toNat % 16 else min f.dlc.toNat 8
  { f with fdf := fdf, brs := fdf && f.brs && decide (c.dataRate ≠ 0), esi := fdf && passive, dlc := BitVec.ofNat 8 dlc,
           data := if f.rtr ∧ !fdf then [] else padTo (dlcLen fdf dlc) f.data, own := true, outOfSlot := false }

/-- The smallest data length code that carries n bytes. -/
def lenDlc (n : Nat) : Nat := if n ≤ 8 then n else ((List.range 16).find? fun c => decide (n ≤ dlcLen true c)).getD 15

/-- The ID word (R282). -/
def idWord (f : CanFrame) : Nat :=
  f.id.toNat % (if f.ide then 2 ^ 29 else 2 ^ 11) + 2 ^ 29 * b2n f.ide + 2 ^ 30 * b2n f.fdf + 2 ^ 31 * b2n f.rtr

/-- The 80-byte buffer of R282. -/
def frameBytes (ts : Nat) (f : CanFrame) : Bytes :=
  leBytes 4 (idWord f) ++ [f.dlc] ++ leBytes 1 f.data.length ++
    leBytes 1 (b2n f.brs + 2 * b2n f.esi + 4 * b2n f.own + 8 * b2n f.outOfSlot) ++ [0] ++ leBytes 8 ts ++ padTo 64 f.data

/-- The frame that such a buffer names for transmission: TS and ECHO are ignored (R287). -/
def frameOf (bs : Bytes) : CanFrame :=
  let w := leAt bs 0 4
  let fl := leAt bs 6 1
  { id := BitVec.ofNat 29 (w % 2 ^ 29), ide := bitOf w 29, fdf := bitOf w 30, rtr := bitOf w 31, brs := bitOf fl 0
    esi := bitOf fl 1, dlc := nth 0 bs 4, data := slice bs 16 (min 64 (leAt bs 5 1)), own := true }

/-- The receive buffer of slot x of port p (R282), and a transmit buffer (log 41). -/
def rxBuffer (p x : Nat) : Nat := 0xA00000 + p * 0x14000 + 80 * (x % 1024)
def txBuffer (p x : Nat) : Nat := 0xB50000 + p * 0x50000 + 80 * (x % 4096)

/-- Further transmit buffers of port p, for frames whose own buffer still waits to be sent: six behind the buffers of the CPU port,
and a fourth of what the buffers of the subscriptions leave of theirs (log 41). -/
def txSpares (p : Nat) (s : State) : List Nat :=
  let n := (subsOf s).length
  let k := (1024 - n) * 1024 / 320
  (List.range 6).map (fun x => 0xDFF800 + 480 * p + 80 * x) ++ (List.range k).map fun x => 0xA50000 + 1024 * n + 80 * (k * p + x)

/-- The number of a Beacon node that an identifier of the ranges VOTE, STATUS, TEST_REPORT and BOOT names. -/
def beaconNode (f : CanFrame) : Option Nat :=
  let i := f.id.toNat
  let from_ := fun base => if base < i ∧ i ≤ base + 100 then some (i - base) else none
  if f.ide then none
  else (from_ 0x100).orElse fun _ => (from_ 0x180).orElse fun _ => (from_ 0x200).orElse fun _ => from_ 0x280

/-- Whose frame was the wake request of a settle window: the node of the first frame that is stored in it (R306). -/
def wakerOf (x : LbCtx) (f : CanFrame) : Option Nat :=
  if x.phase = .settling ∧ !f.own then x.waker.orElse fun _ => beaconNode f else x.waker

/-- A frame with its start-of-frame instant stored in its ring, or dropped and counted (R80, R282). -/
def storeFrame (p ts : Nat) (f : CanFrame) (s : State) : State :=
  let n := (lbCfg s p).rxRing
  let r := ringGet s n
  let buf := rxBuffer p r.pi.toNat
  let d : Desc := { buf := BitVec.ofNat 32 buf, len := 80, src := BitVec.ofNat 8 (8 + p), ts := BitVec.ofNat 32 ts
                    tag := BitVec.ofNat 32 (idWord f) }
  if ringFull r then
    let s1 := modLx p (fun x => { x with rxDropped := true }) (modLb p (fun b => { b with rxDrop := satInc b.rxDrop }) (push n d s))
    trRepCount 0x705 1 p (fun k => item p ++ item k) s1
  else
    let s1 := push n d (dataWrite buf (frameBytes ts f) s)
    modLx p (fun x => { x with inbox := x.inbox ++ [(ts, f)], waker := wakerOf x f }) (modLb p (fun b => { b with rx := b.rx + 1 }) s1)

/-- A frame put on the bus by port p. -/
def canOut (p : Nat) (f : CanFrame) (s : State) : State := { s with out := { s.out with can := (p, f) :: s.out.can } }

/-- A frame that the controller has sent: it stands on the bus and, with ECHO, in the receive ring (R288); it counts, and
the transmit error counter falls by one (R290, ISO 11898-1). -/
def txDone (p ts : Nat) (f : CanFrame) (s : State) : State :=
  lbChange p (fun b => { b with tx := b.tx + 1, tec := b.tec - 1, passive := decide (b.tec - 1 > 127 ∨ b.recCnt > 127) })
    (canOut p f (storeFrame p ts f s))

/-- The buffer of the next frame for TX_RING `n` of port p: the one of the descriptor's place in the ring, or, where a frame that
is still to be sent stands in that one, the first in which none does (R287, log 41). -/
def txFree (p n : Nat) (s : State) : Nat :=
  let r := ringGet s n
  let own := txBuffer p (r.pi.toNat + r.waiting.length)
  let used := (ringDescs n s ++ r.waiting).map fun d => d.buf.toNat
  if own ∉ used then own
  else ((txSpares p s ++ (List.range 4096).map (txBuffer p)).find? fun b => decide (b ∉ used)).getD own

/-- A frame pushed to TX_RING with its buffer, by Lane A for SB 22 (R309) and by Lane B for COMMAND frames (R287, R301). -/
def txPush (src : Byte) (p : Nat) (f : CanFrame) (s : State) : State :=
  let n := (lbCfg s p).txRing
  let r := ringGet s n
  let buf := txFree p n s
  let d : Desc := { buf := BitVec.ofNat 32 buf, len := 80, src := src, ts := tsNow s, tag := BitVec.ofNat 32 (idWord f) }
  push n d (if ringFull r ∧ r.policy = 0 then s else dataWrite buf (frameBytes s.clk.opUs f) s)

/-! ### Beacon frames -/

/-- Beacon node n of port p. -/
def nodeOf (s : State) (p n : Nat) : Node := sget {} (lxOf s p).nodes n
def setNode (p n : Nat) (x : Node) (s : State) : State := modLx p (fun c => { c with nodes := sput {} c.nodes n x }) s
def modNode (p n : Nat) (f : Node → Node) (s : State) : State := setNode p n (f (nodeOf s p n)) s

/-- A node's test record. -/
def testsOf (s : State) (p n : Nat) : NodeTests := sget {} s.lb.tests (128 * p + n)
def setTests (p n : Nat) (x : NodeTests) (s : State) : State :=
  { s with lb := { s.lb with tests := sput {} s.lb.tests (128 * p + n) x } }

/-- The nodes of a bus, 1 to 100, in which a condition holds. -/
def nodesWhere (s : State) (p : Nat) (f : Node → Bool) : List Nat :=
  ((List.range 100).map (· + 1)).filter fun n => f (nodeOf s p n)

/-- TEST_FAIL (R302): the last recorded result of a kind is 1, 2 or 5. -/
def failing (r : Byte) : Bool := decide (r = 1) || decide (r = 2) || decide (r = 5)
def testFail (s : State) (p n : Nat) : Bool := failing (testsOf s p n).ftResult || failing (testsOf s p n).dtResult

/-- G of R304, and the group of a node. -/
def groupsOf (pl : Plan) : Nat := (100 + pl.sharePct - 1) / pl.sharePct
def groupOf (pl : Plan) (n : Nat) : Nat := (n - 1) % groupsOf pl

/-- A COMMAND frame (R296): node field, CMD, GROUP, LENGTH, TEST_ID. -/
def commandFrame (node cmd group len id : Nat) : CanFrame :=
  { id := BitVec.ofNat 29 (0x80 + node), fdf := true, brs := true, dlc := 8, own := true
    data := leBytes 1 cmd ++ leBytes 1 group ++ leBytes 2 len ++ leBytes 4 id }

/-- A node marked RESYNC with SJ 0x0723; a unit that is not PACER sends COMMAND WAKE to its group (R305, R307). -/
def markResync (p n off : Nat) (s : State) : State :=
  let s1 := modNode p n (fun x => { x with resync := true }) s
  let s2 := if s.power.role = .pacer then s1 else txPush 3 p (commandFrame 0 8 (groupOf (lxOf s p).plan n) 0 0) s1
  sj 0x723 1 (item p ++ item n ++ item off) s2

/-- How far a frame of node n lies behind the middle of its wake slot, W + 2 ms × n, in µs (R307). -/
def slotOffset (s : State) (p n ts : Nat) : Int := (ts : Int) - ((lxOf s p).sleepEndUs + 2000 * n : Nat)

/-- Is a frame the first one after a timed wake of a node that was PRESENT at the commit, and outside its slot (R307)? A frame
that comes before the timed wake is a node wake (DEDUCED, log 73). -/
def outsideSlot (s : State) (p ts : Nat) (f : CanFrame) : Bool :=
  match beaconNode f with
  | none => false
  | some n =>
    let y := nodeOf s p n
    isBeacon s p && decide ((lxOf s p).phase = .awake) && decide ((lxOf s p).wake = 3) && y.voter && !y.heard &&
      decide (1000 * (lbCfg s p).guardMs < (slotOffset s p n ts).natAbs)

/-- Is the frame a node's STATUS (R296)? -/
def isStatusFrame (f : CanFrame) : Bool := !f.ide && decide (0x180 < f.id.toNat ∧ f.id.toNat ≤ 0x180 + 100)

/-- What a Beacon bus notes of a frame from a node: it is heard, and out of its wake slot it is marked (R298, R307). A STATUS
that is itself out of slot is not the next one, which clears the mark. SJ 0x0723 gives the offset in whole ms. -/
def beaconHeard (p ts : Nat) (f : CanFrame) (s : State) : State :=
  if !isBeacon s p then s
  else match beaconNode f with
    | none => s
    | some n =>
      let s1 := modNode p n (fun x => { x with lastUs := s.clk.opUs, heard := true }) s
      if f.outOfSlot then
        markResync p n (((slotOffset s p n ts).tdiv 1000) % 2 ^ 32).toNat
          (modNode p n (fun x => { x with resyncNew := isStatusFrame f }) s1)
      else s1

/-- A test command noted for node n: kind 1 function, 2 duration. -/
def noteTest (p kind : Nat) (t : RunningTest) (s : State) (n : Nat) : State :=
  let r := testsOf s p n
  setTests p n (if kind = 1 then { r with ft := t :: r.ft } else { r with dt := some t }) s

/-- TEST_ABORT noted for node n: its running tests are to end. -/
def noteAbort (p : Nat) (s : State) (n : Nat) : State :=
  let r := testsOf s p n
  setTests p n { r with ft := r.ft.map fun t => { t with aborted := true }, dt := r.dt.map fun t => { t with aborted := true } } s

/-- The nodes under a duration test, and those under any test. -/
def underDuration (s : State) (p : Nat) : List Nat :=
  ((List.range 100).map (· + 1)).filter fun n => (testsOf s p n).dt.isSome
def underTest (s : State) (p : Nat) : List Nat :=
  ((List.range 100).map (· + 1)).filter fun n => (testsOf s p n).dt.isSome || !(testsOf s p n).ft.isEmpty

/-- Where a bus's test schedule stands. -/
def schedOf (s : State) (p : Nat) : BusSched := sget {} s.lb.sched p
def setSched (p : Nat) (x : BusSched) (s : State) : State := { s with lb := { s.lb with sched := sput {} s.lb.sched p x } }

/-- A test noted as started: the next TEST_ID, and for a duration test of a group that group, in MRAM and in LBn.BEACON. -/
def noteStart (p kind group : Nat) (id : Word) (s : State) : State :=
  let x := schedOf s p
  if kind = 2 ∧ group ≠ 0xFF then
    modLx p (fun y => { y with group := BitVec.ofNat 5 group })
      (setSched p { group := group, started := true, nextTestId := id + 1 } s)
  else setSched p { x with nextTestId := id + 1 } s

/-- What a pacer records of the leader's COMMAND frames (R305): test commands, the group and TEST_ID they bear, and
TEST_ABORT. -/
def pacerCommand (p : Nat) (f : CanFrame) (s : State) : State :=
  let i := f.id.toNat
  if !isBeacon s p ∨ f.ide ∨ s.power.role ≠ .pacer ∨ i < 0x80 ∨ i > 0xE4 then s
  else
    let cmd := leAt f.data 0 1
    let id := BitVec.ofNat 32 (leAt f.data 4 4)
    let t : RunningTest := { id := id, startUs := s.clk.opUs, length := leAt f.data 2 2 }
    let grp := leAt f.data 1 1
    let nodes := if i = 0x80 then ((List.range 100).map (· + 1)).filter fun n => grp = 0xFF ∨ groupOf (lxOf s p).plan n = grp
                 else [i - 0x80]
    if cmd = 1 ∨ cmd = 2 then noteStart p cmd grp id (nodes.foldl (noteTest p cmd t) s)
    else if cmd = 3 then nodes.foldl (noteAbort p) s
    else s

/-- What a controller notes of a reference of another node (R286, R293 to R295). A reference with sleep flags is no cycle
reference: its time is that of the cycle reference before it, and its nominal boundary the last one before it came. A REF_ID
reference more than 3 cycles after the last one begins a new deferral. -/
def noteReference (p ts : Nat) (f : CanFrame) (s : State) : State :=
  let c := lbCfg s p
  let i := f.id.toNat
  if f.ide ∨ (i ≠ c.refId ∧ i ≠ c.refId + 1) ∨ f.data.length < 16 then s
  else
    let cyc := BitVec.ofNat 32 (leAt f.data 8 4)
    let us := BitVec.ofNat 64 (leAt f.data 0 8)
    let master := decide (i = c.refId)
    let extra := decide (leAt f.data 14 1 % 8 ≠ 0)
    modLx p (fun x => { x with
        epoch := BitVec.ofNat 16 (leAt f.data 12 2), refAnyUs := some ts, seenCycle := cyc, seenUs := us
        seenBndUs := if extra ∧ x.seenBndUs.isSome then x.seenBndUs else some ts
        refRxUs := if master then some ts else x.refRxUs
        foreign := x.foreign && (!master || (x.refRxUs.map fun t => decide (ts ≤ t + 3000 * c.cycleMs)).getD false)
        refRxBndUs :=
          if !master then x.refRxBndUs
          else match x.refRxBndUs with
            | some t => if extra then some (ts - (ts - t) % (1000 * c.cycleMs)) else some ts
            | none => some ts })
      (modLb p (fun b => { b with cycle := cyc, masterUs := us }) s)

/-- The receive error counter after a good frame (ISO 11898-1, PRESUMED, log 40): above 127 it takes a value from 119 to
127, which is free. -/
def recGood (b : Lb) (w : Word) : Nat := if b.recCnt > 127 then 119 + w.toNat % 9 else b.recCnt - 1

/-- Does port p's controller receive: not held, not bus-off, recovering or pressing (R110, R289, R290)? -/
def lbHears (s : State) (p : Nat) : Bool :=
  lbThere s p && (decide ((lbOf s p).state = .listen) || decide ((lbOf s p).state = .normal))

/-- Can the controller receive the frame: FD frames only in MODE 1, and with BRS only where DATA_RATE is not 0 (R279, the
note after R281)? -/
def lbTakes (c : CtrlCfg) (f : CanFrame) : Bool := (!f.fdf || c.fd) && (!f.brs || decide (c.dataRate ≠ 0))

/-- LB_FRAME_RECEIVED: a frame of another node completes without error (R282). -/
def lbFrame (p : Nat) (f : CanFrame) (s : State) : State :=
  let b := lbOf s p
  let ts := s.clk.opUs - f.sofAgo
  if lbHears s p ∧ lbTakes (lbCfg s p) f then
    let s1 := if b.state = .normal ∧ b.recCnt > 0 then
        drawn (lbChange p (fun x => let r := recGood x (freeWord s); { x with recCnt := r, passive := decide (x.tec > 127 ∨ r > 127) }) s)
      else s
    let g := { f with own := false, outOfSlot := outsideSlot s p ts f }
    pacerCommand p g (noteReference p ts g (beaconHeard p ts g (storeFrame p ts g s1)))
  else s

/-! ### Filter tables and the L image (R284 to R286) -/

/-- A filter entry of 16 bytes. -/
def filterEntry (bs : Bytes) : FilterEntry :=
  let idw := leAt bs 0 4
  { id := BitVec.ofNat 32 idw, mask := BitVec.ofNat 32 (leAt bs 4 4), srcBit := leAt bs 8 2, width := leAt bs 10 1
    live := bitOf (leAt bs 11 1) 0, lIndex := leAt bs 12 2, timeout := leAt bs 14 2 }

/-- Does an entry lie within R284? -/
def filterOk (bs : Bytes) : Bool :=
  let e := filterEntry bs
  decide (leAt bs 0 4 < 2 ^ 30) && decide (leAt bs 4 4 < 2 ^ 29) && decide (e.srcBit ≤ 511) && decide (1 ≤ e.width) &&
    decide (e.width ≤ 32) && decide (leAt bs 11 1 ≤ 1) && decide (e.lIndex + e.width + b2n e.live ≤ 2048) &&
    (if e.live then decide (1 ≤ e.timeout) else decide (e.timeout = 0))

/-- Does a frame match an entry? -/
def filterMatch (e : FilterEntry) (f : CanFrame) : Bool :=
  decide (f.ide = e.id.getLsbD 29) &&
    decide ((f.id &&& e.mask.setWidth 29) = (e.id.setWidth 29 &&& e.mask.setWidth 29))

/-- One frame against one entry of port p: bits copied, or counted as short. -/
def applyEntry (p : Nat) (ts : Nat) (f : CanFrame) (s : State) (k : Nat × FilterEntry) : State :=
  let e := k.2
  if !filterMatch e f then s
  else if 8 * f.data.length < e.srcBit + e.width then modLb p (fun b => { b with short := satInc b.short }) s
  else
    let v := leNat f.data / 2 ^ e.srcBit
    let s1 := { s with lb := { s.lb with lOut := setField s.lb.lOut e.lIndex e.width v } }
    if e.live then modLx p (fun x => { x with liveUs := sput none x.liveUs k.1 (some ts) }) s1 else s1

/-- The LIVE bits at the cut (R285). -/
def liveBits (p : Nat) (s : State) : State :=
  let x := lxOf s p
  ((List.range x.table.length).zip x.table).foldl (fun t k =>
    if k.2.live then
      let on := match sget none x.liveUs k.1 with
        | some ts => decide (s.clk.opUs ≤ ts + 1000 * k.2.timeout)
        | none => false
      { t with lb := { t.lb with lOut := setBit t.lb.lOut (k.2.lIndex + k.2.width) on } }
    else t) s

/-- A table loaded since the last cut applies from this one (R309). -/
def cutTable (s : State) (p : Nat) : State :=
  modLx p (fun x => match x.nextTable with
    | some t => { x with table := t, nextTable := none, liveUs := [] }
    | none => x) s

/-- One frame of port p against its table, in table order. -/
def applyFrame (s : State) (m : Nat × Nat × CanFrame) : State :=
  let t := (lxOf s m.1).table
  ((List.range t.length).zip t).foldl (fun u k => applyEntry m.1 m.2.1 m.2.2 u k) s

/-- A frame put behind those whose timestamp is not later. -/
def byTime (m : Nat × Nat × CanFrame) : List (Nat × Nat × CanFrame) → List (Nat × Nat × CanFrame)
  | [] => [m]
  | x :: xs => if m.2.1 < x.2.1 then m :: x :: xs else x :: byTime m xs

/-- The frames of all buses up to the cut, in the order of their timestamps: the later frame stands (R284, R286). Of equal
timestamps the lower port goes first (DESIGN CHOICE, log 73). -/
def cutFrames (s : State) : List (Nat × Nat × CanFrame) :=
  ((List.range 4).flatMap fun p => ((lxOf s p).inbox.filter fun m => decide (m.1 ≤ s.clk.opUs)).map fun m => (p, m)).foldl
    (fun l m => byTime m l) []

/-- The frames that a cut leaves for the next one. -/
def cutRest (s : State) (p : Nat) : State :=
  modLx p (fun x => { x with inbox := x.inbox.filter fun m => decide (s.clk.opUs < m.1) }) s

/-- The nibble of a Beacon node in L. -/
def nodeNibble (s : State) (p n : Nat) : Nat :=
  let x := nodeOf s p n
  b2n x.present + 2 * b2n (x.faults.getLsbD 0) + 4 * b2n (x.faults.getLsbD 1) + 8 * b2n (testFail s p n)

/-- Was a reference of either identifier received within the last k cycles? -/
def refWithin (s : State) (p k : Nat) (t : Option Nat) : Bool :=
  match t with
  | some u => decide (s.clk.opUs ≤ u + 1000 * k * (lbCfg s p).cycleMs)
  | none => false

/-- W bits 35 MAINS_FAIL and 36 MAINS_OK. -/
def mainsFail (s : State) : Bool := (wLive s).getLsbD 35
def mainsOkBit (s : State) : Bool := (wLive s).getLsbD 36

/-- Does a hold condition of R303 stand on bus p? -/
def testHold (s : State) (p : Nat) : Bool :=
  let x := lxOf s p
  let recent := match s.lb.mainsOkUs with
    | some t => decide (s.clk.opUs < t + 3600000000 * x.plan.rechargeH)
    | none => true
  !x.plan.enable || !rtcTrusted s || !mainsOkBit s || recent || decide (s.power.state ≠ .run) ||
    decide (s.power.role = .pacer) || decide ((lbOf s p).state ≠ .normal) || decide (x.phase ≠ .awake)

/-- The status bits of bus p (R286). -/
def busStatus (s : State) (p : Nat) : Nat :=
  let b := lbOf s p
  let x := lxOf s p
  maskOf 13 fun k =>
    lbThere s p && (
    if k = 0 then true
    else if k = 1 then decide (b.state = .normal)
    else if k = 2 then b.passive
    else if k = 3 then decide (b.state = .busOff)
    else if k = 4 then decide (b.state = .recovering)
    else if k = 5 then b.polarity
    else if k = 6 then x.rxDropped
    else if k = 7 then decide (b.tm = 1)
    else if k = 8 then decide (b.tm = 2)
    else if k = 9 then refWithin s p 3 x.refAnyUs
    else if k = 10 then b.conflict
    else if k = 11 then decide (x.phase = .settling) || decide (x.phase = .asleep)
    else isBeacon s p && testHold s p)

/-- The L image of the present instant. -/
def lImageOf (s : State) : BitVec 4096 :=
  let base : BitVec 4096 := s.lb.lOut.setWidth 4096
  let nodes := (List.range 4).foldl (fun v p =>
    if isBeacon s p then setField v (2048 + 400 * p) 400 ((List.range 100).foldl (fun a i => a + nodeNibble s p (i + 1) * 16 ^ i) 0) else v) base
  (List.range 4).foldl (fun v p => setField v (3840 + 64 * p) 64 (busStatus s p)) nodes

/-- L_IMAGE_CUT, every 500 µs, in Lane B, with its domain PD3 (R286). While PD7 is off no bus has a controller: all its status and
node bits read 0 (DESIGN CHOICE, log 96), and LIVE bits fall when their time is over. -/
def lImageCut (s : State) : State :=
  if inRunOrHalt s ∧ pdIs s 3 then
    let s0 := (List.range 4).foldl cutTable s
    let s1 := (List.range 4).foldl (fun t p => liveBits p (cutRest t p)) ((cutFrames s0).foldl applyFrame s0)
    let s2 := { s1 with lb := { s1.lb with lImage := lImageOf s1 } }
    (List.range 4).foldl (fun t p => modLx p (fun x => { x with rxDropped := false }) t) s2
  else s

/-! ### Transmission and fault confinement (R287 to R291) -/

/-- Sending of references stops: SJ 0x0711, whose cause has no codes (free, log 3). -/
def tmStop (p : Nat) (tm : BitVec 3) (s : State) : State :=
  let s1 := modLb p (fun b => { b with tm := tm }) s
  if (lbOf s p).tm = 1 ∨ (lbOf s p).tm = 2 then sj 0x711 0 (item p ++ item (freeWord s).toNat) (drawn s1) else s1

/-- The controller can send no more: where it sent references, that stops. -/
def tmHalt (p : Nat) (tm : BitVec 3) (s : State) : State :=
  if (lbOf s p).tm = 1 ∨ (lbOf s p).tm = 2 then tmStop p tm s else s

/-- What an error adds: a receiver's counter takes 1 or 8, a transmitter's 8 (ISO 11898-1, log 40). -/
def errDelta (transmitter : Bool) : ErrCount → Nat
  | .zero => 0
  | .one => if transmitter then 8 else 1
  | .eight => 8

/-- LB_ERROR: an error counter rises as ISO 11898-1 says; above 127 the node is error-passive, a transmit
counter above 255 is bus-off (R290, log 40). In listen-only mode the counters do not change (R289). -/
def lbError (p : Nat) (kind : BitVec 4) (transmitter : Bool) (count : ErrCount) (s : State) : State :=
  let b := lbOf s p
  let delta := errDelta transmitter count
  if !lbHears s p then s
  else
    let s1 := modLb p (fun x => { x with errFrames := satInc x.errFrames }) s
    if b.state = .listen then s1
    else
      let tec := if transmitter then b.tec + delta else b.tec
      let rcv := if transmitter then b.recCnt else min 255 (b.recCnt + delta)
      let off := decide (tec > 255)
      let s2 := lbChange p (fun x => { x with
        tec := min tec 511, recCnt := rcv, lastErr := kind, passive := decide (tec > 127 ∨ rcv > 127)
        state := if off then .busOff else x.state, busOffs := if off then satInc x.busOffs else x.busOffs }) s1
      if off then
        let s3 := tmHalt p 0 (modLx p (fun x => { x with refWait := none }) (sj 0x702 2 (item p ++ item kind.toNat) s2))
        let ph := (lxOf s3 p).phase
        if ph = .voting ∨ ph = .settling then sleepEndsFree p 4 s3 else s3
      else s2

/-- Is a frame a COMMAND of R296? -/
def isCommandFrame (f : CanFrame) : Bool := !f.ide && decide (0x80 ≤ f.id.toNat) && decide (f.id.toNat ≤ 0xE4)

/-- LB_TRANSMIT: the next TX descriptor (R287, R288). It is discarded in listen-only mode, bus-off and recovery; it waits
under POLARITY and while the bus settles or sleeps (R306). A COMMAND frame that the unit left in the ring of a Beacon bus when it
became PACER is dropped, for a pacer sends none (R305), and not counted (DESIGN CHOICE, log 85). `completed` gives the µs since the start-of-frame of a frame that
completes; a frame that is lost or ends in an error stays to be sent again. -/
def lbTransmit (p : Nat) (completed : Option Nat) (s : State) : State :=
  let b := lbOf s p
  let n := (lbCfg s p).txRing
  if !lbThere s p ∨ ringFill (ringGet s n) = 0 then s
  else if b.state = .listen ∨ b.state = .busOff ∨ b.state = .recovering then
    modLb p (fun x => { x with txDiscard := satInc x.txDiscard }) (drop1 n s)
  else if b.state ≠ .normal ∨ b.polarity ∨ (lxOf s p).phase = .settling ∨ (lxOf s p).phase = .asleep then s
  else
    match ringTake n s with
    | (s1, none) => s1
    | (s1, some d) =>
      let f := frameOf (dataRead d.buf.toNat 80 s)
      if s.power.role = .pacer ∧ isBeacon s p ∧ isCommandFrame f then s1
      else match completed with
        | none => s
        | some k => txDone p (s.clk.opUs - k) (frameSent (lbCfg s p) b.passive f) s1

/-- LB_RECOVERY_DONE (R290). -/
def recoveryDone (p : Nat) (s : State) : State :=
  let b := lbOf s p
  if lbThere s p ∧ b.state = .recovering then
    sj 0x703 0 (item p ++ item b.via.toNat)
      (lbChange p (fun x => { x with state := .normal, passive := false, tec := 0, recCnt := 0 }) s)
  else s

/-- Does port p defer to another node's REF_ID: a master that received one within the last 3 cycles (R292, R295)? -/
def deferring (s : State) (p : Nat) : Bool :=
  decide ((lbCfg s p).tmRole = 1) && decide (s.power.role ≠ .pacer) && refWithin s p 3 (lxOf s p).refRxUs

/-- A reference that waited under POLARITY goes out (R287); a master that defers does not send it (R295). -/
def sendWaiting (p : Nat) (s : State) : State :=
  match (lxOf s p).refWait with
  | some f =>
    let s1 := modLx p (fun x => { x with refWait := none }) s
    if deferring s p then s1 else txDone p s.clk.opUs f s1
  | none => s

/-- POLARITY set and cleared: while it stands the transmitter is disabled (R56, R291). SJ 0x0704 codes set 0, cleared 1 (R383). -/
def polarity (p : Nat) (on : Bool) (s : State) : State :=
  if lbThere s p ∧ (lbOf s p).polarity ≠ on then
    let s1 := sj 0x704 (if on then 2 else 0) (item p ++ item (b2n !on)) (lbChange p (fun x => { x with polarity := on }) s)
    if on then tmHalt p 0 s1 else sendWaiting p s1
  else s

/-- All controllers leave the reset in which they are held until entry to RUN: listen-only (R79, R283). -/
def lbListen (s : State) : State :=
  (List.range 4).foldl (fun t p =>
    if lbThere t p ∧ (lbOf t p).state = .absent then lbChange p (fun x => { x with state := .listen }) t else t) s

/-- LB_NORMAL_MODE: 200 ms after entry to RUN (R79) all controllers leave listen-only mode (R289); one that is being pressed resumes
in NORMAL (R110). -/
def lbNormal (s : State) : State :=
  if inRunOrHalt s then
    (List.range 4).foldl (fun t p =>
      if !lbThere t p then t
      else match (lbOf t p).state with
        | .listen => lbChange p (fun x => { x with state := .normal }) t
        | .pressing => modLb p (fun x => { x with resumeState := .normal }) t
        | _ => t) s
  else s

/-! ### Time master (R292 to R295) -/

/-- A reference message of a time and a cycle (R292). -/
def refFrame (p id flags sleep20 : Nat) (us : DWord) (cycle : Word) (s : State) : CanFrame :=
  frameSent (lbCfg s p) (lbOf s p).passive
    { id := BitVec.ofNat 29 id, fdf := true, brs := true, dlc := 10
      data := leBytes 8 us.toNat ++ leBytes 4 cycle.toNat ++ leBytes 2 (lxOf s p).epoch.toNat ++
        leBytes 1 flags ++ leBytes 1 sleep20 }

/-- Whole cycles since an instant, to the nearest. -/
def cyclesSince (s : State) (p t : Nat) : Nat :=
  let c := 1000 * (lbCfg s p).cycleMs
  (2 * (s.clk.opUs - t) + c) / (2 * c)

/-- May a new sender continue the time of the last reference received (R293): one within 3 cycles, or for a backup that starts
at the fourth boundary the one four cycles back (R294, log 42). Answers the cycles since. -/
def continuity (s : State) (p : Nat) (backup : Bool) : Option Nat :=
  let x := lxOf s p
  match x.seenBndUs with
  | some t =>
    let k := cyclesSince s p t
    if refWithin s p 3 x.refAnyUs ∨ (backup ∧ k = 4) then some k else none
  | none => none

/-- The next boundary's time and cycle: one cycle on while sending, else the sender's time continued or a new epoch
(R293). -/
def nextCycle (p : Nat) (sending backup : Bool) (s : State) : State :=
  let c := 1000 * (lbCfg s p).cycleMs
  if sending then
    modLx p (fun x => { x with bndCycle := x.bndCycle + 1, bndUs := x.bndUs + BitVec.ofNat 64 c }) s
  else match continuity s p backup with
    | some k => modLx p (fun x => { x with bndCycle := x.seenCycle + BitVec.ofNat 32 k, bndUs := x.seenUs + BitVec.ofNat 64 (c * k) }) s
    | none => modLx p (fun x => { x with epoch := x.epoch + 1, bndCycle := 0, bndUs := BitVec.ofNat 64 s.clk.opUs }) s

/-- TM_CONFLICT with SJ 0x0712: cause 0 foreign REF_ID, 1 bit error. What it sent stops (SJ 0x0711). -/
def tmConflict (p cause : Nat) (s : State) : State :=
  sj 0x712 1 (item p ++ item cause) (modLb p (fun b => { b with conflict := true }) (tmStop p 4 s))

/-- A cycle reference at this boundary. `completed` gives the µs by which its start-of-frame follows the boundary. It is
single-shot: not completed, it is not sent again (R292); a master's bit error makes it skip (member address + 1) cycles
(R295). -/
def tmSend (p : Nat) (backup : Bool) (completed : Option Nat) (bitError : Bool) (s : State) : State :=
  let mode : BitVec 3 := if backup then 2 else 1
  let sending := decide ((lbOf s p).tm = mode)
  let s1 := modLb p (fun b => { b with tm := mode }) (nextCycle p sending backup s)
  let x := lxOf s1 p
  let s2 := if sending then s1
    else sj 0x710 0 (item p ++ item (b2n backup) ++ item x.bndCycle.toNat ++ item x.epoch.toNat) s1
  match completed with
  | some d =>
    txDone p (s.clk.opUs + d) (refFrame p ((lbCfg s p).refId + b2n backup) (if backup then 8 else 0) 0 x.bndUs x.bndCycle s2)
      (modLb p (fun b => { b with cycle := x.bndCycle, masterUs := x.bndUs }) s2)
  | none => if bitError ∧ !backup then modLx p (fun y => { y with skip := ownMember s + 1 }) (tmConflict p 1 s2) else s2

/-- A master defers to a foreign REF_ID; the conflict is said once for each deferral (R295). -/
def tmDefer (p : Nat) (s : State) : State :=
  if (lxOf s p).foreign then s else modLx p (fun x => { x with foreign := true }) (tmConflict p 0 s)

/-- TM_CYCLE_BOUNDARY (R292 to R295): from 1,000 ms after entry to RUN, on a NORMAL bus that is not asleep. -/
def tmBoundary (p : Nat) (completed : Option Nat) (bitError : Bool) (s : State) : State :=
  let c := lbCfg s p
  let b := lbOf s p
  let x := lxOf s p
  if !lbThere s p ∨ c.tmRole = 0 ∨ !inRunOrHalt s ∨ b.state ≠ .normal ∨ b.polarity ∨ x.phase = .asleep ∨
      s.clk.opUs < s.power.runEntryUs + 1000000 then s
  else if c.tmRole = 1 ∧ s.power.role ≠ .pacer then
    let s1 := modLx p (fun y => { y with skip := y.skip - 1 }) s
    if refWithin s p 3 x.refRxUs then tmDefer p s1
    else
      let s2 := modLx p (fun y => { y with foreign := false }) s1
      if x.skip > 0 then s2 else tmSend p false completed bitError s2
  else
    let s1 := if x.foreign then modLx p (fun y => { y with foreign := false }) s else s
    match x.refRxBndUs with
    | some t => if cyclesSince s p t ≥ 4 then tmSend p true completed bitError s1 else tmStop p 3 s1
    | none => tmStop p 3 s1

/-! ### Beacon nodes and tests (R298 to R305) -/

/-- BEACON_STATUS (R298, R307): STATUS or BOOT of a node. -/
def beaconStatus (p n : Nat) (boot : Bool) (data : Bytes) (s : State) : State :=
  if !(isBeacon s p && lbHears s p) ∨ n = 0 ∨ n > 100 then s
  else
    let x := nodeOf s p n
    let faults := if boot then x.faults else nth 0 data 0
    let s1 := setNode p n { x with
      present := true, missing := false, faults := faults, lastUs := s.clk.opUs
      resync := x.resync && (boot || x.resyncNew), resyncNew := boot && x.resyncNew } s
    let s2 := if x.missing then sj 0x731 0 (item p ++ item n) s1 else s1
    if faults &&& ~~~x.faults ≠ 0 then sj 0x732 2 (item p ++ item n ++ item faults.toNat) s2 else s2

/-- NODE_MISSING (R298): only while the bus is awake. -/
def nodeMissing (p n : Nat) (s : State) : State :=
  if isBeacon s p ∧ (nodeOf s p n).present ∧ (lxOf s p).phase = .awake then
    sj 0x730 1 (item p ++ item n) (modNode p n (fun x => { x with present := false, missing := true }) s)
  else s

/-- Today as a day number. -/
def today (s : State) : Nat := dayNumber s.rtc.time

/-- Is a function test, and a duration test, due on a node (R300)? -/
def ftDue (s : State) (p n : Nat) : Bool := decide ((testsOf s p n).ftDay + (lxOf s p).plan.ftDays ≤ today s)
def dtDue (s : State) (p n : Nat) : Bool :=
  let t := testsOf s p n
  decide (t.dtDay + (lxOf s p).plan.dtDays ≤ today s) &&
    (match t.dtEndMs with
     | some e => decide (e + 3600000 * (lxOf s p).plan.rechargeH ≤ opMs s)
     | none => true)

/-- A test started on some nodes: one TEST_ID, one COMMAND a node, SJ 0x0740 (R301). Kind 1 function, 2 duration. TEST_IDs
count up (log 43). -/
def startTest (p kind group len : Nat) (nodes : List Nat) (s : State) : State :=
  if nodes = [] then s
  else
    let id := (schedOf s p).nextTestId
    let t : RunningTest := { id := id, startUs := s.clk.opUs, length := len }
    let s1 := nodes.foldl (fun u n => noteTest p kind t (txPush 3 p (commandFrame n kind group len id.toNat) u) n) s
    sj 0x740 0 (item p ++ item kind ++ item group ++ item id.toNat ++ item nodes.length) (noteStart p kind group id s1)

/-- The groups in cyclic order from the one after the group last started. -/
def groupOrder (plan : Plan) (x : BusSched) : List Nat :=
  let g := groupsOf plan
  let start := if x.started then x.group + 1 else 0
  (List.range g).map fun i => (start + i) % g

/-- BEACON_SCHEDULER: once a minute (R301, R303). -/
def beaconScheduler (p : Nat) (s : State) : State :=
  let x := lxOf s p
  if !isBeacon s p ∨ testHold s p ∨ s.rtc.time.hour ≠ x.plan.testHour then s
  else
    let fts := (nodesWhere s p Node.present).filter fun n => (testsOf s p n).dt.isNone && ftDue s p n
    let s1 := startTest p 1 0xFF x.plan.ftSec fts s
    if underDuration s1 p ≠ [] then s1
    else
      let due := (nodesWhere s1 p fun y => y.present).filter (dtDue s1 p)
      match (groupOrder x.plan (schedOf s1 p)).find? fun g => due.any fun n => groupOf x.plan n = g with
      | none => s1
      | some g =>
        startTest p 2 g x.plan.dtMin (due.filter fun n => groupOf x.plan n = g) s1

/-- A test's end (R302): SJ 0x0741, and its record except for result 3. -/
def endTest (p n kind id result minutes : Nat) (s : State) : State :=
  let t0 := testsOf s p n
  let r := BitVec.ofNat 8 result
  let t := if kind = 1 then { t0 with ft := t0.ft.filter fun x => decide (x.id.toNat ≠ id) }
           else { t0 with dt := t0.dt.filter fun x => decide (x.id.toNat ≠ id), dtEndMs := some (opMs s) }
  let u := if result = 3 then t
           else if kind = 1 then { t with ftDay := today s, ftId := BitVec.ofNat 32 id, ftResult := r }
           else { t with dtDay := today s, dtId := BitVec.ofNat 32 id, dtResult := r }
  sj 0x741 (if failing r then 2 else 0)
    (item p ++ item n ++ item kind ++ item id ++ item result ++ item minutes) (setTests p n u s)

/-- Does a test of the kind and TEST_ID run on node n? -/
def testRuns (s : State) (p n kind id : Nat) : Bool :=
  let r := testsOf s p n
  if kind = 1 then r.ft.any fun t => decide (t.id.toNat = id)
  else if kind = 2 then (r.dt.map fun t => decide (t.id.toNat = id)).getD false
  else false

/-- Is a TEST_REPORT one that this unit takes: of a test that runs here (R302), or in a pacer any (R305), also of a test whose command
it has not heard, which it records as an end like the others (DEDUCED, log 97)? -/
def reportTaken (s : State) (p n kind id : Nat) : Bool :=
  testRuns s p n kind id || (decide (s.power.role = .pacer) && (decide (kind = 1) || decide (kind = 2)))

/-- TEST_REPORT (R302, R305): it ends the test of its kind and TEST_ID. -/
def testReport (p n : Nat) (data : Bytes) (s : State) : State :=
  if (isBeacon s p && lbHears s p) ∧ reportTaken s p n (leAt data 4 1) (leAt data 0 4) then
    endTest p n (leAt data 4 1) (leAt data 0 4) (leAt data 5 1) (leAt data 6 2) s
  else s

/-- Has a running test passed LENGTH plus 120 s? -/
def overdue (s : State) (unitUs : Nat) (r : RunningTest) : Bool :=
  decide (r.startUs + unitUs * r.length + 120000000 ≤ s.clk.opUs)

/-- TEST_NO_REPORT (R302): result 5 for each test of the node whose time has passed; minutes 0. -/
def testNoReport (p n : Nat) (s : State) : State :=
  if isBeacon s p then
    let x := testsOf s p n
    let late := (x.ft.filter (overdue s 1000000)).map (fun t => (1, t.id.toNat)) ++
      (x.dt.toList.filter (overdue s 60000000)).map (fun t => (2, t.id.toNat))
    late.foldl (fun t k => endTest p n k.1 k.2 5 0 t) s
  else s

/-- W bit MAINS_FAIL rises: TEST_ABORT to all nodes of every Beacon bus of a SOLO or LEADER unit (R302). The TEST_ID of
SJ 0x0742 is that of a running test, else free. -/
def testAbort (s : State) : State :=
  if !inRunOrHalt s ∨ s.power.role = .pacer then s
  else (List.range 4).foldl (fun t p =>
    if isBeacon t p then
      let busy := underTest t p
      let ids := busy.flatMap fun n => ((testsOf t p n).dt.toList ++ (testsOf t p n).ft).map RunningTest.id
      let t1 := busy.foldl (noteAbort p) (txPush 3 p (commandFrame 0 3 0xFF 0 0) t)
      match ids with
      | i :: _ => sj 0x742 1 (item p ++ item i.toNat ++ item busy.length) t1
      | [] => sj 0x742 1 (item p ++ item (freeWord t1).toNat ++ item 0) (drawn t1)
    else t) s

/-! ### Sleep and wake (R306 to R308) -/

/-- A reference with sleep flags, time and cycle from the last cycle reference (R292); that of a controller with TM_ROLE 2, always a
backup, has the backup's identifier and flag. Under POLARITY it waits in the time-master buffer, in which a later one takes its place
(DEDUCED, log 73); a controller that is not NORMAL sends none, nor does one without PD7 (R364), a pacer (R305) or a master that defers
to another's REF_ID (R295; the request goes on without it, log 73). -/
def sleepRef (p flags : Nat) (s : State) : State :=
  let b := lbOf s p
  let backup := decide ((lbCfg s p).tmRole = 2)
  let f := refFrame p ((lbCfg s p).refId + b2n backup) (flags + 8 * b2n backup) (lxOf s p).sleep20.toNat b.masterUs b.cycle s
  if !lbThere s p ∨ b.state ≠ .normal ∨ s.power.role = .pacer ∨ deferring s p then s
  else if b.polarity then modLx p (fun x => { x with refWait := some f }) s
  else txDone p s.clk.opUs f s

/-- SLEEP_COMMIT: the settle window opens. From here on the nodes of the sleep are those PRESENT at the commit (R307). -/
def sleepCommit (p : Nat) (s : State) : State :=
  let s1 := modLx p (fun x => { x with phase := .settling, waker := none }) (sleepRef p 2 s)
  (nodesWhere s1 p fun _ => true).foldl (fun t k => modNode p k (fun y => { y with voter := y.present }) t) s1

/-- May a sleep of n × 20 s be timed (R308)? -/
def sleepTimed (s : State) (p n : Nat) : Bool :=
  decide (n ≤ 255) && decide (n * 20000 ≤ (lbCfg s p).guardMs * 10000) && decide (nodesWhere s p (fun x => x.resync) = [])

/-- SB 24 with ACTION 1 at commit step (c) (R306, R308): where the conditions do not hold, PD7 tripped since the call among them
(R364), it ends REFUSED. With no node PRESENT the commit follows at once. -/
def sleepRequest (p n : Nat) (s : State) : State :=
  let x := lxOf s p
  if !isBeacon s p ∨ s.power.role = .pacer ∨ (lbOf s p).state ≠ .normal ∨ x.phase ≠ .awake then
    sj 0x721 0 (item p ++ item 0 ++ item (freeWord s).toNat) (modLx p (fun y => { y with last := 2 }) (drawn s))
  else
    let timed := sleepTimed s p n
    let s1 := modLx p (fun y => { y with
      phase := .voting, timed := timed, wantSleep20 := n, sleep20 := if timed then BitVec.ofNat 8 n else 0 }) s
    let s2 := (nodesWhere s1 p fun _ => true).foldl (fun t k =>
      modNode p k (fun y => { y with voter := y.present, voted := false }) t) (sleepRef p 1 s1)
    if nodesWhere s2 p (fun y => y.voter) = [] then sleepCommit p s2 else s2

/-- BEACON_VOTE (R306). -/
def beaconVote (p n : Nat) (data : Bytes) (s : State) : State :=
  let x := nodeOf s p n
  if !(isBeacon s p && lbHears s p) ∨ (lxOf s p).phase ≠ .voting then s
  else if leAt data 0 1 = 2 then sleepEnds p 2 n s
  else if leAt data 0 1 = 1 ∧ x.voter then
    let s1 := setNode p n { x with voted := true } s
    if nodesWhere s1 p (fun y => y.voter && !y.voted) = [] then sleepCommit p s1 else s1
  else s

/-- VOTE_TIMEOUT: a PRESENT node has not voted READY (R306), also where PD7 has tripped since (R364). -/
def voteTimeout (p : Nat) (s : State) : State :=
  match nodesWhere s p (fun y => y.voter && !y.voted) with
  | n :: _ => if (lbCfg s p).beacon ∧ (lxOf s p).phase = .voting then sleepEnds p 2 n s else s
  | [] => s

/-- A wake request while the bus settles: CANCEL (R306). SJ 0x0721 names the node whose stored frame it was; where it was no frame
of a node, that item is free (log 3). -/
def sleepCancel (p : Nat) (s : State) : State :=
  sleepRef p 4 (match (lxOf s p).waker with
    | some n => sleepEnds p 3 n s
    | none => sleepEndsFree p 3 s)

/-- SETTLE_WINDOW_END (R306), also where PD7 has tripped since (R364): a TX descriptor that stands counts as a wake request. SJ 0x0720 codes timed 0, commanded 1 (R383). -/
def settleEnd (p : Nat) (s : State) : State :=
  let x := lxOf s p
  if !(lbCfg s p).beacon ∨ x.phase ≠ .settling then s
  else if ringFill (ringGet s (lbCfg s p).txRing) ≠ 0 then sleepCancel p s
  else
    sj 0x720 0 (item p ++ item x.sleep20.toNat ++ item (b2n !x.timed)) (tmHalt p 0 (modLx p (fun y => { y with
      phase := .asleep, last := 1, refWait := none, sleepEndUs := s.clk.opUs + y.wantSleep20 * 20000000 }) s))

/-- An ASLEEP bus wakes: kind 1 node, 2 commanded, 3 timed (R307). -/
def busWake (p kind : Nat) (s : State) : State :=
  sj 0x722 0 (item p ++ item kind) (modLx p (fun y => { y with phase := .awake, wake := BitVec.ofNat 2 kind }) s)

/-- WAKE_REQUEST (R306, R307); a port that is pressing sees none (R110). -/
def wakeRequest (p : Nat) (s : State) : State :=
  if !(isBeacon s p && lbHears s p) then s
  else match (lxOf s p).phase with
    | .settling => sleepCancel p s
    | .asleep => busWake p 1 s
    | _ => s

/-- TIMED_WAKE (R307): the end of a timed sleep, or of the unit's timer for a commanded wake. -/
def timedWake (p : Nat) (s : State) : State :=
  let x := lxOf s p
  if isBeacon s p ∧ x.phase = .asleep then
    let s1 := (nodesWhere s p fun y => y.voter).foldl (fun t n => modNode p n (fun y => { y with heard := false }) t) s
    busWake p (if x.timed then 3 else 2) s1
  else s

/-- WAKE_SLOT_END (R307): a node that was PRESENT at the commit and has sent no frame; the item of SJ 0x0723 for a missed
slot has no code and is free. -/
def wakeSlotEnd (p n : Nat) (s : State) : State :=
  let x := nodeOf s p n
  if isBeacon s p ∧ (lxOf s p).phase = .awake ∧ (lxOf s p).wake = 3 ∧ x.voter ∧ !x.heard then
    markResync p n (freeWord s).toNat (drawn s)
  else s

/-- SB 24 with ACTION 2 at commit step (c): an ASLEEP bus wakes (R307). -/
def lbWakeNow (p : Nat) (s : State) : State :=
  if isBeacon s p ∧ (lxOf s p).phase = .asleep ∧ s.power.role ≠ .pacer then busWake p 2 s else s

/-! ### Commands -/

/-- POLARITY_SET. -/
def execPolaritySet (port : Fin 4) (s : State) : Result := .next (polarity port true s)
/-- POLARITY_CLEARED. -/
def execPolarityCleared (port : Fin 4) (s : State) : Result := .next (polarity port false s)
/-- LB_NORMAL_MODE. -/
def execLbNormalMode (s : State) : Result := .next (lbNormal s)
/-- LB_FRAME_RECEIVED. -/
def execLbFrameReceived (port : Fin 4) (frame : CanFrame) (s : State) : Result := .next (lbFrame port frame s)
/-- LB_ERROR. -/
def execLbError (port : Fin 4) (kind : BitVec 4) (transmitter : Bool) (delta : ErrCount) (s : State) : Result :=
  .next (lbError port kind transmitter delta s)
/-- FD_FRAME_SEEN (R279). -/
def execFdFrameSeen (port : Fin 4) (s : State) : Result :=
  .next (whenever (lbHears s port && !(lbCfg s port).fd) (modLb port fun b => { b with fdSeen := satInc b.fdSeen }) s)
/-- LB_RECOVERY_DONE. -/
def execLbRecoveryDone (port : Fin 4) (s : State) : Result := .next (recoveryDone port s)
/-- LB_TRANSMIT. -/
def execLbTransmit (port : Fin 4) (completed : Option Nat) (s : State) : Result := .next (lbTransmit port completed s)
/-- L_IMAGE_CUT. -/
def execLImageCut (s : State) : Result := .next (lImageCut s)
/-- TM_CYCLE_BOUNDARY. -/
def execTmCycleBoundary (port : Fin 4) (completed : Option Nat) (bitError : Bool) (s : State) : Result :=
  .next (tmBoundary port completed bitError s)
/-- BEACON_STATUS. -/
def execBeaconStatus (port : Fin 4) (node : BitVec 7) (boot : Bool) (data : Bytes) (s : State) : Result :=
  .next (beaconStatus port node.toNat boot data s)
/-- NODE_MISSING. -/
def execNodeMissing (port : Fin 4) (node : BitVec 7) (s : State) : Result := .next (nodeMissing port node.toNat s)
/-- BEACON_SCHEDULER. -/
def execBeaconScheduler (port : Fin 4) (s : State) : Result := .next (beaconScheduler port s)
/-- TEST_REPORT. -/
def execTestReport (port : Fin 4) (node : BitVec 7) (data : Bytes) (s : State) : Result :=
  .next (testReport port node.toNat data s)
/-- TEST_NO_REPORT. -/
def execTestNoReport (port : Fin 4) (node : BitVec 7) (s : State) : Result := .next (testNoReport port node.toNat s)
/-- BEACON_VOTE. -/
def execBeaconVote (port : Fin 4) (node : BitVec 7) (data : Bytes) (s : State) : Result :=
  .next (beaconVote port node.toNat data s)
/-- VOTE_TIMEOUT. -/
def execVoteTimeout (port : Fin 4) (s : State) : Result := .next (voteTimeout port s)
/-- SETTLE_WINDOW_END. -/
def execSettleWindowEnd (port : Fin 4) (s : State) : Result := .next (settleEnd port s)
/-- WAKE_REQUEST. -/
def execWakeRequest (port : Fin 4) (s : State) : Result := .next (wakeRequest port s)
/-- TIMED_WAKE. -/
def execTimedWake (port : Fin 4) (s : State) : Result := .next (timedWake port s)
/-- WAKE_SLOT_END. -/
def execWakeSlotEnd (port : Fin 4) (node : BitVec 7) (s : State) : Result := .next (wakeSlotEnd port node.toNat s)

end Sys2Proof.Machine
end

