-- ==== Sys2Proof/Machine/MainsWatch.lean ====
section
/-! DEFINITION. Mains Watch: half-cycle evaluation, triggers, captures and records (R251 to R262, R276). -/

namespace Sys2Proof.Machine

/-- The integer square root, bit by bit from bit 31 down. -/
def rootOf (n : Nat) : Nat :=
  (List.range 32).foldl (fun r i => let t := r + 2 ^ (31 - i); if t * t ≤ n then t else r) 0

/-- The group of a channel, and whether it is enabled. -/
def chEnabled (c : AcqCfg) (ch : Nat) : Bool := c.grpEn.getLsbD (ch / 4)

/-- The channel that carries the voltage of phase p (R255). -/
def voltCh (c : AcqCfg) (p : Nat) : Nat := 2 * p + b2n (c.vSel.getLsbD p)

/-- Is a raw sample beyond full scale (R50)? -/
def aiOver (x : Int) : Bool := decide (aiCode x ≠ x)

/-! ### Half-cycle windows (R253 to R255) -/

/-- The samples that HC_MAX ms hold at 250 kS/s (R253). -/
def windowMax (c : AcqCfg) (ch : Nat) : Nat := 250 * (nth {} c.ch ch).hcMax

/-- Does code `x` cross zero: at or beyond HYST on one side after the other side was reached (R253)? -/
def crosses (hyst : Nat) (w : Win) (x : Int) : Bool :=
  (decide ((hyst : Int) ≤ x) && decide (w.side = 1)) || (decide (x ≤ -(hyst : Int)) && decide (w.side = 2))

/-- A channel's window with one more sample (R50, R253). -/
def windowAdd (hyst : Nat) (w : Win) (x : Int) : Win :=
  let y := aiCode x
  { n := w.n + 1, sumSq := w.sumSq + y.natAbs * y.natAbs, ovr := w.ovr || aiOver x, last := y
    side := if (hyst : Int) ≤ y then 2 else if y ≤ -(hyst : Int) then 1 else w.side }

/-- A channel's window, and the state with it replaced. -/
def winOf (s : State) (ch : Nat) : Win := sget {} s.acq.wins ch
def setWin (ch : Nat) (w : Win) (s : State) : State := { s with acq := { s.acq with wins := sput {} s.acq.wins ch w } }

/-- The RMS of a window in raw LSB with 8 fractional bits; the direction of rounding is not stated (log 14). -/
def windowRms (sumSq n : Nat) : Nat :=
  let q := rootOf (sumSq * 65536 / n)
  if q * q * n = sumSq * 65536 then q else if Config.roundUp (sumSq * 65536) n then q + 1 else q

/-- Phase p's state. -/
def phaseOf (s : State) (p : Nat) : Phase := if p = 0 then s.acq.ph0 else if p = 1 then s.acq.ph1 else s.acq.ph2
def setPhase (p : Nat) (x : Phase) (s : State) : State :=
  { s with acq := if p = 0 then { s.acq with ph0 := x } else if p = 1 then { s.acq with ph1 := x } else { s.acq with ph2 := x } }

/-- The PHASE_FAIL bits of the enabled phases. -/
def phaseFails (c : AcqCfg) (s : State) : Nat := maskOf 3 fun p => phaseOn c p && (phaseOf s p).fail

/-- PHASE_FAIL_p, MAINS_FAIL and MAINS_OK shown in the W bits. -/
def mainsW (c : AcqCfg) (s : State) : State :=
  let f := phaseFails c s
  let w := setField s.acq.w 32 3 f
  wSet (setBit (setBit w 35 (decide (f ≠ 0))) 36 (decide (c.phaseEn ≠ 0) && decide (f = 0))) s

/-- One window of a phase's voltage channel. -/
def phaseStep (c : AcqCfg) (rms lowTh retTh : Nat) (x : Phase) : Phase :=
  let low := if rms < 256 * lowTh then min 255 (x.low + 1) else 0
  let ret := if 256 * lowTh ≤ rms ∧ 256 * retTh ≤ rms then min 255 (x.ret + 1) else 0
  if !x.fail ∧ c.failN ≤ low then { fail := true, low := low, ret := ret }
  else if x.fail ∧ c.retN ≤ ret then { fail := false, low := low, ret := ret }
  else { x with low := low, ret := ret }

/-- The window RMS of each phase's voltage channel (SJ 0x0610, 0x0611). -/
def voltItems (c : AcqCfg) (s : State) : Bytes := (List.range 3).flatMap fun p => item (nth 0 s.acq.hcRms (voltCh c p)).toNat

/-- What a change of the shown mains bits from those in `w` raises: event types 1 and 2, the records, TEST_ABORT (R255, R302). -/
def mainsChanged (c : AcqCfg) (w : BitVec 256) (s : State) : State :=
  let f := phaseFails c s
  let tag := BitVec.ofNat 32 f
  let s1 := if BitVec.ofNat 3 f &&& ~~~w.extractLsb' 32 3 ≠ 0 then sj 0x610 1 (item f ++ voltItems c s) (pushEvent 1 0x0C tag s) else s
  let s2 := if !w.getLsbD 35 ∧ s.acq.w.getLsbD 35 then testAbort s1 else s1
  if !w.getLsbD 36 ∧ s.acq.w.getLsbD 36 then
    sj 0x611 0 (voltItems c s2) (pushEvent 2 0x0C tag { s2 with lb := { s2.lb with mainsOkUs := some s2.clk.opUs } })
  else s2

/-- The channel's RMS and its LOW, HIGH, OVR and VALID bits (R254). -/
def windowBits (c : AcqCfg) (ch rms : Nat) (crossing ovr : Bool) (s : State) : State :=
  let x := nth {} c.ch ch
  let w1 := setBit s.acq.w ch (decide (rms < 256 * x.lowTh))
  let w2 := setBit w1 (8 + ch) (decide (x.highTh ≠ 0) && decide (256 * x.highTh < rms))
  let w3 := setBit (setBit w2 (16 + ch) ovr) (24 + ch) crossing
  { s with acq := { s.acq with
    w := w3, hcRms := setAt s.acq.hcRms ch (BitVec.ofNat 24 rms)
    ovrNow := setBit s.acq.ovrNow ch ovr, ovrSeen := if ovr then setBit s.acq.ovrSeen ch true else s.acq.ovrSeen } }

/-- A window of a channel has ended (R254, R255): its RMS, its W bits, and the phase whose voltage it carries. -/
def windowEnd (c : AcqCfg) (ch : Nat) (w : Win) (crossing : Bool) (s : State) : State :=
  let rms := windowRms w.sumSq w.n
  let s1 := windowBits c ch rms crossing w.ovr s
  let p := ch / 2
  if p < 3 ∧ phaseOn c p ∧ voltCh c p = ch then
    let y := phaseStep c rms (nth {} c.ch ch).lowTh (nth {} c.ch ch).retTh (phaseOf s1 p)
    mainsChanged c s1.acq.w (mainsW c (setPhase p y s1))
  else s1

/-- One raw sample of a channel (R253): the window ends at the first zero crossing after its start or after HC_MAX ms. -/
def rawSample (c : AcqCfg) (ch : Nat) (s : State) (x : Int) : State :=
  let h := (nth {} c.ch ch).hyst
  let w := winOf s ch
  let w1 := windowAdd h w x
  let cr := crosses h w (aiCode x)
  if cr ∨ windowMax c ch ≤ w1.n then windowEnd c ch w1 cr (setWin ch { side := w1.side, last := w1.last } s)
  else setWin ch w1 s

/-- HALF_CYCLE_END: the next raw samples of a channel, among which a window may end. -/
def halfCycleEnd (ch : Nat) (xs : List Int) (s : State) : State :=
  match acqCfg s with
  | none => s
  | some c => if !mwRuns s ∨ !chEnabled c ch then s else xs.foldl (rawSample c ch) s

/-- Sampling starts (R251, R255): each PHASE_FAIL bit of an enabled phase is 1. -/
def samplingStart (s : State) : State :=
  match acqCfg s with
  | some c =>
    if pdIs s 8 then
      let s1 := { s with acq := { ({} : Acq) with sampling := true, startUs := s.clk.opUs, armedUs := s.clk.opUs } }
      mainsW c (wSet (setBit s1.acq.w 43 true) s1)
    else s
  | none => s

/-- Sampling resumes after a press of region 6: PHASE_FAIL states are kept, window counts restart (R276), no trigger source stands
raised, and Mains Watch arms anew, at once or when a buffer set is free (R258). The mains bits follow the new PHASE_EN at once, with
what their change raises (R254, R255; DEDUCED, log 67). -/
def samplingResume (s : State) : State :=
  let re := fun (x : Phase) => { x with low := 0, ret := 0 }
  let s1 := { s with acq := { s.acq with
    startUs := s.clk.opUs, raised := 0, wins := [], ph0 := re s.acq.ph0, ph1 := re s.acq.ph1, ph2 := re s.acq.ph2 } }
  match acqCfg s with
  | some c => rearm c (mainsChanged c s1.acq.w (mainsW c s1))
  | none => s1

/-- A record in capture discarded when region 6 stops, counted in ACQ.REC_LOST.LOST (R110). -/
def captureDrop (s : State) : State :=
  if s.acq.capture.isSome then { s with acq := { s.acq with capture := none, lost := satInc s.acq.lost } } else s

/-- AI_OVER_RANGE (R50, R278): the channel's code saturates on the side of the input and its window is over-range. -/
def aiOverRange (ch : Nat) (positive : Bool) (s : State) : State :=
  match acqCfg s with
  | some c =>
    if mwRuns s ∧ chEnabled c ch then
      sjRep 0x602 1 ch (item ch) { s with acq := { s.acq with
        wins := sput {} s.acq.wins ch { winOf s ch with ovr := true, last := if positive then 32767 else -32768 }
        ovrNow := setBit s.acq.ovrNow ch true, ovrSeen := setBit s.acq.ovrSeen ch true } }
    else s
  | none => s

/-! ### Triggers and capture (R256 to R259) -/

/-- SW_TRIG_WRITE and PERIODIC_TRIGGER: the source's condition is met. -/
def swTrigger (v : Word) (s : State) : State := if v.getLsbD 0 then raiseTrigger 4 0 s else s

/-- A trigger that starts no record: cause 0 no set, 1 ring full. -/
def triggerLost (sources : BitVec 6) (cause : Nat) (s : State) : State :=
  tr 0x601 1 (item sources.toNat ++ item cause) { s with acq := { s.acq with lost := satInc s.acq.lost } }

/-- Do two consecutive output points of AI_CH cross AI_LEVEL in AI_DIR: 0 rising, 1 falling, 2 either (R256)? A point on the level has
crossed it, and one that leaves it has not (DESIGN CHOICE, log 105). -/
def levelCrossed (c : AcqCfg) (prev cur : Int) : Bool :=
  (decide (c.aiDir ≠ 1) && decide (prev < c.aiLevel) && decide (c.aiLevel ≤ cur)) ||
    (decide (c.aiDir ≠ 0) && decide (c.aiLevel < prev) && decide (cur ≤ c.aiLevel))

/-- Do they differ by AI_SLOPE or more in AI_DIR (R256)? -/
def slopeMet (c : AcqCfg) (prev cur : Int) : Bool :=
  (decide (c.aiDir ≠ 1) && decide ((c.aiSlope : Int) ≤ cur - prev)) ||
    (decide (c.aiDir ≠ 0) && decide ((c.aiSlope : Int) ≤ prev - cur))

/-- The analogue sources that two consecutive output points of AI_CH meet: bit 2 level, bit 3 slope. -/
def aiSources (c : AcqCfg) (prev cur : Int) : BitVec 6 :=
  BitVec.ofNat 6 (4 * b2n (levelCrossed c prev cur) + 8 * b2n (slopeMet c prev cur))

/-- DETAIL of a record (R261): the DI number, the TRG line or the channel of the first source in bit order. For the software
and the periodic source the manual states none: it is free (log 3). -/
def triggerDetail (c : AcqCfg) (src : BitVec 6) (s : State) : Word :=
  if src.getLsbD 0 then BitVec.ofNat 32 s.acq.raisedDi
  else if src.getLsbD 1 then BitVec.ofNat 32 s.acq.raisedTrg
  else if src.getLsbD 2 || src.getLsbD 3 then BitVec.ofNat 32 c.aiCh
  else freeWord s

/-- RECORD_TRIGGER, with the last two output points of AI_CH: the enabled sources that have met their conditions, those raised
by other commands among them. -/
def recordTrigger (prev cur : Int) (s : State) : State :=
  match acqCfg s with
  | none => s
  | some c =>
    let src := (aiSources c prev cur ||| s.acq.raised) &&& c.trigEn
    if !mwRuns s ∨ src = 0 then s
    else
      let detail := triggerDetail c src s
      let s0 := if src &&& 15 = 0 then drawn s else s
      let s1 := { s0 with acq := { s0.acq with raised := 0 } }
      match s1.acq.capture with
      | some k =>
        { s1 with acq := { s1.acq with extra := satInc s1.acq.extra, capture := some { k with extra := satInc k.extra } } }
      | none =>
        match freeSets c s1 with
        | [] => triggerLost src 0 s1
        | k :: _ =>
          if freeSlots c s1 < (mwGroups c).length then triggerLost src 1 s1
          else
            let cap : Capture := { trigUs := s1.clk.opUs, sources := src, detail := detail, set := k, armedUs := s1.acq.armedUs
                                   nextGroup := (mwGroups c).headD 0 }
            let s2 := { s1 with acq := { s1.acq with capture := some cap } }
            if c.trigOut.toNat < 4 then trgDriven c.trigOut.toNat s2 else s2

/-! ### Measurements (R262) -/

/-- The 56-bit accumulator: a sum that leaves the range pins. -/
structure Acc56 where
  sum : Int := 0
  pin : Bool := false
deriving DecidableEq, Repr

/-- One addition. -/
def accAdd (a : Acc56) (x : Int) : Acc56 :=
  if a.pin then a
  else
    let t := a.sum + x
    if t > 2 ^ 55 - 1 then { sum := 2 ^ 55 - 1, pin := true }
    else if t < -(2 ^ 55 : Int) then { sum := -(2 ^ 55 - 1), pin := true }
    else { sum := t }

/-- Division rounded to nearest with halves away from zero. -/
def divNearest (x : Int) (n : Nat) : Int :=
  let q : Int := ((2 * x.natAbs + n) / (2 * n) : Nat)
  if x < 0 then -q else q

/-- Crossings found so far: which sides have been passed, the last point below 0 and the first after it, the times of
the first and the last rising crossing in ns. -/
structure Cross where
  low    : Bool := false
  high   : Bool := false
  neg    : Nat × Int := (0, 0)
  pos    : Option (Nat × Int) := none
  first  : Nat := 0
  last   : Nat := 0
  rising : Nat := 0
  total  : Nat := 0
deriving DecidableEq, Repr

/-- The interpolated time of the zero level between two points, to 1 ns; its rounding is not stated (log 14). -/
def crossTime (dt : Nat) (a b : Nat × Int) : Nat :=
  let num := dt * a.2.natAbs
  let den := (b.2 - a.2).natAbs
  dt * a.1 + num / den + (if num % den ≠ 0 ∧ Config.roundUp num den then 1 else 0)

/-- One point against a hysteresis. -/
def crossStep (dt : Nat) (h : Int) (x : Cross) (p : Nat × Int) : Cross :=
  let x1 := if p.2 < 0 then { x with neg := p, pos := none } else if x.pos.isNone then { x with pos := some p } else x
  let x2 :=
    if x1.low ∧ h ≤ p.2 then
      let t := crossTime dt x1.neg (x1.pos.getD p)
      { x1 with low := false, first := if x1.rising = 0 then t else x1.first, last := t, rising := x1.rising + 1, total := x1.total + 1 }
    else if x1.high ∧ p.2 ≤ -h then { x1 with high := false, total := x1.total + 1 }
    else x1
  { x2 with low := x2.low || decide (p.2 ≤ -h), high := x2.high || decide (h ≤ p.2) }

/-- A channel's measurement block, and whether its sums pinned. With no valid point the manual states no values: they
are free (log 3). A period of 2^32 ns or more is stored modulo 2^32, and FREQ_MHZ is that of the whole period (DESIGN CHOICE,
log 105). -/
def measure (k : Nat) (hyst : Nat) (ovr : Bool) (xs : List Int) (s : State) : Bytes × Bool × State :=
  let n := xs.length
  let sum := xs.foldl accAdd {}
  let sq := (xs.map fun x => x * x).foldl accAdd {}
  let sat := sum.pin || sq.pin
  let h : Int := hyst * 2 ^ (k / 2)
  let cr := (xs.zip (List.range n)).foldl (fun x (z : Int × Nat) => crossStep (4000 * 2 ^ k) h x (z.2, z.1)) ({} : Cross)
  let period := if cr.rising < 2 then 0 else (divNearest ((cr.last : Int) - cr.first) (cr.rising - 1)).toNat
  let freq := if period = 0 then 0 else (divNearest (10 ^ 12) period).toNat
  let tail := leBytes 4 period ++ leBytes 4 freq ++ leBytes 2 (min 65535 cr.total) ++
    leBytes 1 (b2n sat + 2 * b2n (decide (cr.rising < 2)) + 4 * b2n ovr) ++ zeros 1
  if n = 0 then
    let f := fun i => (Config.freeWord (s.clk.freeCount + i)).toNat
    (leBytes 4 (f 0) ++ leBytes 4 (f 1) ++ leBytes 4 (f 2) ++ leBytes 4 (f 3) ++ leBytes 4 (2 ^ 32 + f 3 - f 2) ++ tail, sat,
      drawn (drawn (drawn (drawn s))))
  else
    let lo := xs.foldl min (xs.headD 0)
    let hi := xs.foldl max (xs.headD 0)
    (leInt 4 (divNearest sum.sum n) ++ leBytes 4 (rootOf (sq.sum.toNat / n)) ++ leInt 4 lo ++ leInt 4 hi ++ leInt 4 (hi - lo) ++ tail, sat, s)

/-- The four channel values of a point. -/
def pointList (p : Point) : List Int := [p.c0, p.c1, p.c2, p.c3]

/-- The points acquired between arming and the trigger instant at a spacing of `p` µs (R258). -/
def pointsBefore (start armed trig p : Nat) : Nat := (trig - start - 1) / p - (armed - start) / p

/-- The averaging exponent of a group (R252). -/
def groupK (c : AcqCfg) (g : Nat) : Nat := if g = 0 then c.kA else c.kB

/-- The valid pre-trigger points of the capture's next record (R258). -/
def preValid (c : AcqCfg) (k : Capture) (s : State) : Nat :=
  min (c.recLen * c.pretrig / 100) (pointsBefore s.acq.startUs k.armedUs k.trigUs (4 * 2 ^ groupK c k.nextGroup))

/-- A record's bytes (R261), whether a sum pinned in which channels, and the state after the measurements. -/
def recordBytes (c : AcqCfg) (g : Nat) (k : Capture) (pts : List Point) (raw : BitVec 4) (seq : Word) (s : State) :
    Bytes × Nat × State :=
  let kk := groupK c g
  let n := c.recLen
  let p := n * c.pretrig / 100
  let pre := preValid c k s
  let valid := pts.drop (p - pre)
  let all := List.replicate (p - pre) ({} : Point) ++ valid
  let blocks := (List.range 4).foldl (fun (acc : List Bytes × Nat × State) ch =>
    let (b, sat, t) := measure kk (nth {} c.ch (4 * g + ch)).hyst (raw.getLsbD ch) (valid.map fun q => nth 0 (pointList q) ch) acc.2.2
    (acc.1 ++ [b], acc.2.1 + b2n sat * 2 ^ ch, t)) (([] : List Bytes), 0, s)
  let ovr := decide (raw ≠ 0)
  let sat := blocks.2.1
  let head := leBytes 2 0x4D52 ++ leBytes 1 g ++ leBytes 1 (b2n (decide (sat ≠ 0)) + 2 * b2n (decide (pre < p)) + 4 * b2n ovr) ++
    leBytes 4 seq.toNat ++ leBytes 4 (recSize c) ++ leBytes 1 kk ++ zeros 1 ++ leBytes 2 k.sources.toNat ++ leBytes 4 n ++
    leBytes 4 pre ++ leBytes 4 p ++ leBytes 8 k.trigUs ++ leBytes 4 s.power.pwrCycles.toNat ++ leBytes 4 k.detail.toNat ++
    leBytes 2 k.extra.toNat ++ zeros 14
  let body := blocks.1.flatMap id ++ all.flatMap fun q => (pointList q).flatMap (leInt 3)
  (head ++ leBytes 4 (crc32c (head ++ body)) ++ body, sat, blocks.2.2)

/-- One output point of a channel (R252): the sum of 2^k saturated raw samples, shifted right by k − floor(k / 2). -/
def outputPoint (k : Nat) (xs : List Int) : Int := (xs.map aiCode).sum / 2 ^ (k - k / 2)

/-- The output points that raw samples spell, `len` points of 2^k samples each (R252). -/
def outputPoints (k : Nat) : Nat → List Point → List Point
  | 0, _ => []
  | len + 1, raw =>
    let now := raw.take (2 ^ k)
    { c0 := outputPoint k (now.map Point.c0), c1 := outputPoint k (now.map Point.c1)
      c2 := outputPoint k (now.map Point.c2), c3 := outputPoint k (now.map Point.c3) } ::
      outputPoints k len (raw.drop (2 ^ k))

/-- The channels of a group with a raw sample over-range (R50, R262). -/
def overChannels (raw : List Point) : BitVec 4 :=
  BitVec.ofNat 4 (maskOf 4 fun ch => raw.any fun p => aiOver (nth 0 (pointList p) ch))

/-- Raw samples given as runs of equal ones. -/
def expandRuns (runs : List (Nat × Point)) (tail : List Point) : List Point :=
  (runs.flatMap fun r => List.replicate r.1 r.2) ++ tail

/-- RECORD_STORED: the record of the next group, with the raw samples of its points' intervals. -/
def recordStored (rawAll : List Point) (s : State) : State :=
  match acqCfg s with
  | none => s
  | some c =>
    match s.acq.capture with
    | none => s
    | some k =>
      if !mwRuns s ∨ rawAll.length ≠ c.recLen * 2 ^ groupK c k.nextGroup then s
      else
        let g := k.nextGroup
        let pts := outputPoints (groupK c g) c.recLen rawAll
        let raw := overChannels (rawAll.drop ((c.recLen * c.pretrig / 100 - preValid c k s) * 2 ^ groupK c g))
        let seq := s.acq.recSeq + 1
        let (bs, sat, s1) := recordBytes c g k pts raw seq s
        let isB := decide (g = 1)
        let buf := 0xE00000 + k.set * setSize c + (if isB ∧ c.grpEn.getLsbD 0 then setSize c / 2 else 0)
        let s2 := dataWrite buf bs { s1 with acq := { s1.acq with recSeq := seq } }
        let d : Desc := { buf := BitVec.ofNat 32 buf, len := if recSize c < 65536 then BitVec.ofNat 16 (recSize c) else 0, src := 0x0C
                          ts := BitVec.ofNat 32 k.trigUs, tag := seq }
        let s3 := push c.ring d s2
        let s4 := if sat ≠ 0 then tr 0x603 0 (item seq.toNat ++ item sat) s3 else s3
        if !isB ∧ c.grpEn.getLsbD 1 then { s4 with acq := { s4.acq with capture := some { k with nextGroup := 1 } } }
        else
          let s5 := push 27 { buf := freeWord s4, src := 0x0C, ts := BitVec.ofNat 32 k.trigUs, tag := seq } (drawn s4)
          rearm c { s5 with acq := { s5.acq with capture := none } }

/-! ### The commands -/

/-- HALF_CYCLE_END. -/
def execHalfCycleEnd (ch : Fin 8) (head : List Int) (mid : Int) (reps : Nat) (tail : List Int) (s : State) : Result :=
  .next (halfCycleEnd ch (head ++ List.replicate reps mid ++ tail) s)
/-- RECORD_TRIGGER. -/
def execRecordTrigger (prev cur : Int) (s : State) : Result := .next (recordTrigger prev cur s)
/-- PERIODIC_TRIGGER. -/
def execPeriodicTrigger (s : State) : Result := .next (raiseTrigger 5 0 s)
/-- RECORD_STORED. -/
def execRecordStored (runs : List (Nat × Point)) (tail : List Point) (s : State) : Result :=
  .next (recordStored (expandRuns runs tail) s)
/-- AI_OVER_RANGE. -/
def execAiOverRange (ch : Fin 8) (positive : Bool) (s : State) : Result := .next (aiOverRange ch positive s)

end Sys2Proof.Machine
end

