-- ==== Sys2Proof/Machine/Retain.lean ====
section
/-! DEFINITION. Retentive areas: the ranges of AREAS, write-through at commit step (d), restoring at start (R99, R147
to R149). -/

namespace Sys2Proof.Machine

/-- The retentive ranges of the pressed Mould. -/
def retRanges (s : State) : List RetRange := ((restOf s).map MouldRest.ret).getD []

/-- What a range costs in MRAM (R99). -/
def retCost (r : RetRange) : Nat :=
  match r.area with
  | .m => r.count / 8
  | .t => 8 * r.count
  | .c => 4 * r.count
  | _ => r.count

/-- The 8 retained bytes of a timer: ET, then its run, Q and input state (log 35). -/
def retTimer (t : Timer) : Bytes := leBytes 4 t.et.toNat ++ leBytes 1 (b2n t.run + 2 * b2n t.q + 4 * b2n t.inp) ++ zeros 3

/-- The retained bytes of a range. -/
def retBytes (s : State) (r : RetRange) : Bytes :=
  match r.area with
  | .m => (List.range (r.count / 8)).map fun k => s.img.m.extractLsb' (r.start + 8 * k) 8
  | .d => dataRead r.start r.count s
  | .t => (List.range r.count).flatMap fun k => retTimer (sget {} s.img.timers (r.start + k))
  | .c => (List.range r.count).flatMap fun k => leBytes 4 (sget {} s.img.counters (r.start + k)).cv.toNat
  | _ => []

/-- Is counter n in a retentive range? -/
def retCounter (s : State) (n : Nat) : Bool :=
  (retRanges s).any fun r => decide (r.area = .c) && decide (r.start ≤ n) && decide (n < r.start + r.count)

/-- 256 bytes of one bit per retained counter: stored count inputs, and done bits, kept in the backup state region
(log 35). -/
def retBits (s : State) (f : Counter → Bool) : Bytes :=
  (List.range 256).map fun k => BitVec.ofNat 8 (maskOf 8 fun b =>
    retCounter s (8 * k + b) && f (sget {} s.img.counters (8 * k + b)))

/-- The retained contents: at MRAM offset 0 the ranges in the order of AREAS, and the counters' bits. -/
def retImage (s : State) : List (Nat × Bytes) :=
  [(0, (retRanges s).flatMap (retBytes s)), (0x3DFE00, retBits s Counter.cin), (0x3DFF00, retBits s Counter.done)]

/-- The 8-byte MRAM words that differ from `bs` at `a`, with the bytes they hold. -/
def changedWords (a : Nat) (bs : Bytes) (s : State) : List (Nat × Bytes) :=
  (List.range ((bs.length + 7) / 8)).filterMap fun k =>
    let old := mramRead (a + 8 * k) (min 8 (bs.length - 8 * k)) s
    if slice bs (8 * k) 8 = old then none else some (a + 8 * k, old)

/-- Has the write-through cut-off of R148 come? From 8 ms after PFW no write-through begins. -/
def retainCut (s : State) : Bool := s.power.pfw && decide (s.power.pfwUs + 8000 ≤ s.clk.opUs)

/-- Commit step (d) (R147, R148): the differing words, with the size written in KiB, rounded up; from 8 ms after PFW
no write-through begins, and the first lap without one writes SJ 0x0204. The words go to MRAM at 50 MB/s between an open and a
closed marker: `wtEndUs` is when the closed one follows, before which a shutdown leaves the marker open (tearRetained). -/
def writeThrough (s : State) : State :=
  if retainCut s then
    let s1 := { s with lap := { s.lap with retCutoff := true }, ctx := { s.ctx with cutoffSaid := true } }
    if s.ctx.cutoffSaid then s1 else sj 0x204 1 (item8 s.ctx.lastWtLap.toNat) s1
  else
    let parts := retImage s
    let old := parts.flatMap fun p => changedWords p.1 p.2 s
    let n := old.length
    let s1 := parts.foldl (fun t p => mramWrite p.1 p.2 t) s
    { s1 with lap := { s1.lap with retCutoff := false, retKib := BitVec.ofNat 16 ((8 * n + 1023) / 1024) }
              ctx := { s1.ctx with
                cutoffSaid := false, markerOpen := false, markerLap := s1.lap.num, lastWtLap := s1.lap.num
                wtOld := old, wtEndUs := s1.clk.opUs + (8 * n + 49) / 50 } }

/-- A timer restored: its start stamp is formed at its first call (R149); a timer reserved for a pair is not restored
(R235). -/
def restoreTimer (n : Nat) (bs : Bytes) (s : State) : State :=
  let f := leAt bs 4 1
  let t : Timer := { et := BitVec.ofNat 32 (leAt bs 0 4), run := bitOf f 0, q := bitOf f 1, inp := bitOf f 2, restored := true }
  if timerReserved s n then s else { s with img := { s.img with timers := sput {} s.img.timers n t } }

/-- A counter restored. -/
def restoreCounter (n : Nat) (cv : Nat) (s : State) : State :=
  let bit := fun a => (memGet 0 s.mram (a + n / 8)).getLsbD (n % 8)
  { s with img := { s.img with counters := sput {} s.img.counters n { cv := BitVec.ofNat 32 cv, cin := bit 0x3DFE00, done := bit 0x3DFF00 } } }

/-- One range restored from MRAM offset `a`. -/
def restoreRange (a : Nat) (r : RetRange) (s : State) : State :=
  match r.area with
  | .m => { s with img := { s.img with m := setField s.img.m r.start r.count (leNat (mramRead a (r.count / 8) s)) } }
  | .d => dataWrite r.start (mramRead a r.count s) s
  | .t => (List.range r.count).foldl (fun t k => restoreTimer (r.start + k) (mramRead (a + 8 * k) 8 t) t) s
  | .c => (List.range r.count).foldl (fun t k => restoreCounter (r.start + k) (leNat (mramRead (a + 4 * k) 4 t)) t) s
  | _ => s

/-- The images and D at 0, and the ranges restored over them (R149). With the edge cells at 0 none stays fresh, one that R205 listed and
that has not been executed neither (DESIGN CHOICE, log 56). -/
def restoreRetentive (s : State) : State :=
  let s0 := { s with img := {}, data := memErase s.data 0 0x400000 }
  ((retRanges s).foldl (fun (acc : Nat × State) r => (acc.1 + retCost r, restoreRange acc.1 r acc.2)) (0, s0)).2

/-- Restoring at AREAS pressing: an open marker means torn data (R149). -/
def restoreAtStart (s : State) : State :=
  let s0 := restoreRetentive s
  let s1 := { s0 with lap := { s0.lap with retTorn := s.ctx.markerOpen }, ctx := { s0.ctx with tornFlag := s.ctx.markerOpen } }
  if s.ctx.markerOpen then sj 0x203 2 (item8 s.ctx.markerLap.toNat) s1 else s1

end Sys2Proof.Machine
end

