-- ==== Sys2Proof/Machine/Switch.lean ====
section
/-! DEFINITION. The backbone switch: frame path, MAC and prefix tables, parity, table commands, lock, DMA, rehash,
ring redundancy, configuration (R311 to R341). -/

namespace Sys2Proof.Machine

/-! ### Tables (R317, R318, R322) -/

/-- A pipeline: W (`true`) or E. -/
def pipeOf (w : Bool) (s : State) : Pipe := if w then s.tbl.w else s.tbl.e

/-- The state with a pipeline changed. -/
def modPipe (w : Bool) (f : Pipe → Pipe) (s : State) : State :=
  { s with tbl := if w then { s.tbl with w := f s.tbl.w } else { s.tbl with e := f s.tbl.e } }

/-- The pipeline that serves a port: E for BB0 and BB2, W for BB1, BB3 and the CPU port (R311). -/
def portPipe (p : Nat) : Bool := decide (p ≠ 0) && decide (p ≠ 2)

/-- An entry of a MAC table and a slot of a prefix table. -/
def macAt (t : Pipe) (i : Nat) : MacEntry := sget {} t.macs i
def pfxAt (t : Pipe) (i : Nat) : PfxSlot := sget {} t.pfx i

/-- An entry written, with fresh parity (R326). -/
def putMac (i : Nat) (e : MacEntry) (t : Pipe) : Pipe :=
  { t with macs := sput {} t.macs i { e with perr := false, said := false } }
def putPfx (i : Nat) (x : PfxSlot) (t : Pipe) : Pipe :=
  { t with pfx := sput {} t.pfx i { x with perr := false, said := false } }

/-- Every valid MAC entry changed by `f` (its index given); an entry that changes is written, with fresh parity (R326). -/
def mapMacs (f : Nat → MacEntry → MacEntry) (t : Pipe) : Pipe :=
  { t with macs := t.macs.foldl (fun (m : Sparse MacEntry) (x : Nat × MacEntry) =>
      if x.2.valid && decide (f x.1 x.2 ≠ x.2) then sput {} m x.1 { f x.1 x.2 with perr := false, said := false } else m) t.macs }

/-- The 6 bytes of a MAC address in transmission order, and the address that bytes spell. -/
def macBytes (m : BitVec 48) : Bytes := beBytes 6 m.toNat
def macOf (bs : Bytes) : BitVec 48 := BitVec.ofNat 48 (beNat (bs.take 6))

/-- The bucket of a key under a seed (R317). -/
def bucketOf (seed : Half) (mac : BitVec 48) (vid : BitVec 12) : Nat :=
  crcOf 16 0x1021 seed.toNat false 0 (beBytes 2 vid.toNat ++ macBytes mac) % 2048

/-- The indices of the four ways of a key's bucket. -/
def waysOf (t : Pipe) (mac : BitVec 48) (vid : BitVec 12) : List Nat :=
  (List.range 4).map fun k => 4 * bucketOf t.seed mac vid + k

/-- Is an entry good, valid and of the key? -/
def macHit (mac : BitVec 48) (vid : BitVec 12) (e : MacEntry) : Bool :=
  e.valid && !e.perr && decide (e.mac = mac) && decide (e.vid = vid)

/-- The lowest way that holds the key (R318). -/
def macFind (t : Pipe) (mac : BitVec 48) (vid : BitVec 12) : Option Nat :=
  (waysOf t mac vid).find? fun i => macHit mac vid (macAt t i)

/-- What a lookup or SEARCH finds: never the unit's own address (R321). -/
def macLookup (own : BitVec 48) (t : Pipe) (mac : BitVec 48) (vid : BitVec 12) : Option Nat :=
  if mac = own then none else macFind t mac vid

/-- The lowest way that is not VALID or has bad parity (R319, R326). -/
def macFree (t : Pipe) (mac : BitVec 48) (vid : BitVec 12) : Option Nat :=
  (waysOf t mac vid).find? fun i => !(macAt t i).valid || (macAt t i).perr

/-- The 16 bytes of a MAC entry and the entry that bytes spell (R318). -/
def macImage (e : MacEntry) : Bytes :=
  macBytes e.mac ++ leBytes 2 e.vid.toNat ++ [e.ports.zeroExtend 8] ++ leBytes 1 (b2n e.valid + 2 * b2n e.static) ++
    leBytes 4 e.age ++ [0] ++ leBytes 1 (b2n e.perr)
def macParse (bs : Bytes) : MacEntry :=
  { mac := macOf bs, vid := BitVec.ofNat 12 (leAt bs 6 2), ports := BitVec.ofNat 5 (leAt bs 8 1)
    valid := bitOf (leAt bs 9 1) 0, static := bitOf (leAt bs 9 1) 1, age := leAt bs 10 4 }

/-- The 16 bytes of a prefix slot and the slot that bytes spell (R322). -/
def pfxImage (x : PfxSlot) : Bytes :=
  beBytes 4 x.key.toNat ++ beBytes 4 x.mask.toNat ++ leBytes 2 x.vid.toNat ++ [x.typ, x.plen, x.action, x.cls, 0] ++
    leBytes 1 (b2n x.perr)
def pfxParse (bs : Bytes) : PfxSlot :=
  { key := BitVec.ofNat 32 (beAt bs 0 4), mask := BitVec.ofNat 32 (beAt bs 4 4), vid := BitVec.ofNat 12 (leAt bs 8 2)
    typ := nth 0 bs 10, plen := nth 0 bs 11, action := nth 0 bs 12, cls := nth 0 bs 13 }

/-! ### Parity (R326, R327) -/

/-- One upset: stored parity gone bad, of an entry of the switch (R326) or of a word of image memory (R159). -/
def applyUpset (u : Upset) (s : State) : State :=
  match u with
  | .entry w true i =>
    modPipe w (fun p => if i < 512 then { p with pfx := smod {} p.pfx i fun x => { x with perr := true } } else p) s
  | .entry w false i =>
    modPipe w (fun p => if i < 8192 then { p with macs := smod {} p.macs i fun x => { x with perr := true } } else p) s
  | .image a i => if pdIs s 4 then { s with bu := { s.bu with badParity := s.bu.badParity ++ [(a, i)] } } else s

/-- The upsets that have happened since the last access. -/
def applyUpsets (us : List Upset) (s : State) : State := us.foldl (fun t u => applyUpset u t) s

/-- Those of them that strike image memory, which PD6 does not supply. -/
def imageUpsets (us : List Upset) : List Upset := us.filter fun u => match u with | .image _ _ => true | .entry _ _ _ => false

/-- A bad entry found: counted and recorded, SJ 0x0811 once until it is written again (R326). The finder is coded
0 lookup, 1 learning, 2 scrubber. -/
def perrNote (w pfx : Bool) (finder i : Nat) (s : State) : State :=
  let t := pipeOf w s
  let bad := if pfx then (pfxAt t i).perr && !(pfxAt t i).said else (macAt t i).perr && !(macAt t i).said
  if bad then
    sj 0x811 2 (item (b2n w) ++ item (b2n pfx) ++ item i ++ item finder) (modPipe w (fun p =>
      let q := { p with infoIndex := BitVec.ofNat 13 i, infoPfx := pfx }
      if pfx then { q with perrPfx := satInc q.perrPfx, pfx := smod {} q.pfx i fun x => { x with said := true } }
      else { q with perrMac := satInc q.perrMac, macs := smod {} q.macs i fun x => { x with said := true } }) s)
  else s

/-- The bad entries of a bucket, noted. -/
def noteWays (w : Bool) (finder : Nat) (mac : BitVec 48) (vid : BitVec 12) (s : State) : State :=
  (waysOf (pipeOf w s) mac vid).foldl (fun t i => perrNote w false finder i t) s

/-- Does REHASH run in a pipeline (R330)? -/
def rehashing (w : Bool) (s : State) : Bool := (s.tbl.rehash.map Prod.fst) = some w

/-- One pass of the scrubber over one pipeline: a bad MAC entry is invalidated and its parity rewritten, a bad prefix
slot left as found (R327). -/
def scrubPipe (w : Bool) (s : State) : State :=
  let t := pipeOf w s
  let badM := (t.macs.filter fun x => x.2.perr).map Prod.fst
  let badP := (t.pfx.filter fun x => x.2.perr).map Prod.fst
  let s1 := badM.foldl (fun u i => modPipe w (fun p => putMac i { macAt p i with valid := false } p) (perrNote w false 2 i u)) s
  badP.foldl (fun u i => perrNote w true 2 i u) s1

/-- SCRUB: the pass pauses while the lock is held or a REHASH runs. -/
def scrub (us : List Upset) (s : State) : State :=
  if s.tbl.held ∨ s.tbl.rehash.isSome then applyUpsets us s else scrubPipe true (scrubPipe false (applyUpsets us s))

/-! ### Learning and aging (R319, R320, R332) -/

/-- A source key learned at once; `true` where learning failed. -/
def learnNow (w : Bool) (port : Nat) (mac : BitVec 48) (vid : BitVec 12) (s : State) : State × Bool :=
  let s1 := noteWays w 1 mac vid s
  let t := pipeOf w s1
  let bit : BitVec 5 := BitVec.ofNat 5 (2 ^ port)
  match macFind t mac vid with
  | some i =>
    let e := macAt t i
    if e.static then (s1, false)
    else (modPipe w (fun p => putMac i { e with ports := bit, age := 0 }
            { p with moves := if e.ports = bit then p.moves else satInc p.moves }) s1, false)
  | none =>
    match macFree t mac vid with
    | some i => (modPipe w (putMac i { mac := mac, vid := vid, ports := bit, valid := true }) s1, false)
    | none =>
      (trRep 0x810 1 (b2n w) (item (b2n w) ++ item (bucketOf t.seed mac vid))
        (modPipe w (fun p => { p with learnFull := satInc p.learnFull }) s1), true)

/-- A learning event queued, or dropped beyond 64 (R332). -/
def learnLater (w : Bool) (port : Nat) (mac : BitVec 48) (vid : BitVec 12) (s : State) : State :=
  modPipe w (fun p =>
    if p.queue.length < 64 then { p with queue := p.queue ++ [⟨mac, vid, port⟩], deferred := satInc p.deferred }
    else { p with dropped := satInc p.dropped }) s

/-- Step 4's learning: never of the unit's own address (R321), deferred under the lock and in a REHASH. -/
def learn (port : Nat) (mac : BitVec 48) (vid : BitVec 12) (s : State) : State × Bool :=
  let w := portPipe port
  if mac = s.sw.mac then (s, false)
  else if s.tbl.held ∨ rehashing w s then (learnLater w port mac vid s, false)
  else learnNow w port mac vid s

/-- The queued events of a pipeline applied in order. -/
def applyLearned (w : Bool) (s : State) : State :=
  (pipeOf w s).queue.foldl (fun t e => (learnNow w e.port e.mac e.vid t).1) (modPipe w (fun p => { p with queue := [] }) s)

/-- Aging of one pipeline. -/
def agePipe (agingS : Nat) (t : Pipe) : Pipe :=
  mapMacs (fun _ e =>
    if e.static || e.perr then e
    else
      let a := min (e.age + 1) (2 ^ 32 - 1)
      { e with age := a, valid := decide (a < agingS) }) t

/-- MAC_AGING: paused under the lock and, in a pipeline, in its REHASH. -/
def macAging (s : State) : State :=
  if s.tbl.held then s
  else
    let go := fun w t => if rehashing w t then t else modPipe w (agePipe t.sw.cfg.agingS) t
    go true (go false s)

/-- The learned entries that `f` names, invalidated. -/
def flushPipe (f : MacEntry → Bool) (t : Pipe) : Pipe :=
  mapMacs (fun _ e => if f e then { e with valid := false } else e) t

/-- How many valid entries `f` names. -/
def countMacs (f : MacEntry → Bool) (t : Pipe) : Nat := (t.macs.filter fun x => x.2.valid && f x.2).length

/-! ### The frame path (R315, R321 to R324, R335 to R338) -/

/-- One port's registers changed. -/
def modPort (p : Nat) (f : Port → Port) (s : State) : State :=
  { s with sw := { s.sw with ports := modAt s.sw.ports p f } }

/-- The VLAN entry of a VID. -/
def vlanOf (s : State) (vid : Nat) : Option Vlan := s.sw.cfg.vlans.find? fun v => v.vid = vid

/-- Is a ring port blocked: BB1 of a manager while the ring is closed, and a client's port whose link has come up while the other one
stands, until the manager answers or the client has told it often enough (IEC 62439-2, PRESUMED, log 45)? -/
def mrpBlocked (s : State) (p : Nat) : Bool :=
  if s.sw.cfg.mrpRole = 2 then decide (s.sw.ring = 2) && decide (p = 1)
  else match s.sw.lnk with
    | some x => decide (s.sw.cfg.mrpRole = 1) && x.up && decide (x.port = p)
    | none => false

/-- A ring port's MRP state: not a ring port, blocked, forwarding. -/
def mrpState (s : State) (p : Nat) : Nat :=
  if s.sw.cfg.mrpRole = 0 ∨ p > 1 then 0 else if mrpBlocked s p then 1 else 2

/-- MRP_STATE shown in the ports' registers. -/
def showMrp (s : State) : State :=
  modPort 1 (fun x => { x with mrp := BitVec.ofNat 2 (mrpState s 1) }) (modPort 0 (fun x => { x with mrp := BitVec.ofNat 2 (mrpState s 0) }) s)

/-- Is a connector port enabled, with link? -/
def linked (s : State) (p : Nat) : Bool := s.sw.cfg.portEn.getLsbD p && (nth {} s.sw.ports p).up

/-- Does a port forward a frame: enabled, with link, and not blocked unless it is an MRP frame (R333, R339, log 45)? The CPU
port does while PD6 is on. -/
def forwards (s : State) (p : Nat) (mrp : Bool) : Bool :=
  if p = 4 then pdIs s 6 else linked s p && (mrp || decide (mrpState s p ≠ 1))

/-- A frame inside the switch: its bytes from the destination address on without tag and FCS, its VID, PCP and DEI,
and whether it carried a tag. -/
structure Inner where
  body   : Bytes := []
  vid    : Nat := 0
  pcp    : Nat := 0
  dei    : Nat := 0
  tagged : Bool := false
deriving DecidableEq, Repr

/-- The frame of bytes from destination address to FCS. -/
def innerOf (frame : Bytes) : Inner :=
  let bs := frame.take (frame.length - 4)
  if beAt bs 12 2 = 0x8100 then
    let tci := beAt bs 14 2
    { body := bs.take 12 ++ bs.drop 16, vid := tci % 4096, pcp := tci / 8192, dei := tci / 4096 % 2, tagged := true }
  else { body := bs }

/-- The EtherType after at most one VLAN tag. -/
def etherType (f : Inner) : Nat := beAt f.body 12 2

/-- A pause frame: MAC control with opcode 1 (IEEE 802.3, PRESUMED, log 45). -/
def isPause (f : Inner) : Bool := etherType f = 0x8808 ∧ beAt f.body 14 2 = 1

/-- An MRP frame (IEC 62439-2, PRESUMED, log 45). -/
def isMrp (f : Inner) : Bool := etherType f = 0x88E3

/-- The domain of an MRP frame: the UUID of its MRP_Common TLV, type 1 (IEC 62439-2, PRESUMED, log 45). -/
def mrpDomainOf : Nat → Bytes → Option Bytes
  | 0, _ => none
  | n + 1, bs =>
    let t := leAt bs 0 1
    let l := leAt bs 1 1
    if bs.length < 2 ∨ t = 0 then none
    else if t = 1 ∧ l = 18 then some (slice bs 4 16)
    else mrpDomainOf n (bs.drop (2 + l))

/-- Is the frame one for the unit's MRP engine: own domain, ring port, a role (R315 step 2, R333)? -/
def forMrp (s : State) (p : Nat) (f : Inner) : Bool :=
  isMrp f && decide (s.sw.cfg.mrpRole ≠ 0) && decide (p ≤ 1) &&
    decide (mrpDomainOf 64 (f.body.drop 16) = some s.sw.cfg.mrpDomain)

/-- The destination and source addresses. -/
def dstOf (f : Inner) : BitVec 48 := macOf f.body
def srcOf (f : Inner) : BitVec 48 := macOf (f.body.drop 6)

/-- A multicast (or broadcast) address. -/
def isGroup (m : BitVec 48) : Bool := m.getLsbD 40
def isBroadcast (m : BitVec 48) : Bool := m = BitVec.allOnes 48

/-- The four words of an IPv6 entry at slot 4g match. -/
def pfxMatch6 (t : Pipe) (vid : Nat) (dst : Bytes) (g : Nat) : Bool :=
  let x0 := pfxAt t (4 * g)
  (decide (x0.vid = 0) || decide (x0.vid.toNat = vid)) && (List.range 4).all fun k =>
    let x := pfxAt t (4 * g + k)
    !x.perr && decide (x.typ.toNat = 2 + k) &&
      decide (BitVec.ofNat 32 (beAt dst (4 * k) 4) &&& x.mask = x.key &&& x.mask)

/-- An IPv4 slot matches. -/
def pfxMatch4 (vid : Nat) (dst : Bytes) (x : PfxSlot) : Bool :=
  decide (x.typ = 1) && !x.perr && (decide (x.vid = 0) || decide (x.vid.toNat = vid)) &&
    decide (BitVec.ofNat 32 (beAt dst 0 4) &&& x.mask = x.key &&& x.mask)

/-- The slot of the first match in ascending slot order (R323). -/
def pfxFind (t : Pipe) (f : Inner) : Option Nat :=
  if etherType f = 0x0800 then
    (t.pfx.find? fun x => pfxMatch4 f.vid (slice f.body 30 4) x.2).map Prod.fst
  else if etherType f = 0x86DD then
    ((List.range 128).find? fun g => pfxMatch6 t f.vid (slice f.body 38 16) g).map fun g => 4 * g
  else none

/-- The bad prefix slots that a lookup passes before its match, noted (R326, log 46). -/
def notePfx (w : Bool) (f : Inner) (s : State) : State :=
  if etherType f = 0x0800 ∨ etherType f = 0x86DD then
    let t := pipeOf w s
    let lim := (pfxFind t f).getD 512
    (t.pfx.filter fun x => x.2.perr && decide (x.1 < lim)).foldl (fun u x => perrNote w true 0 x.1 u) s
  else s

/-- The frames per second of the CPU limiter: CPU_LIMIT in RUN and HALT when the Mould has BBSW (R336). -/
def cpuRate (s : State) : Nat :=
  match (mouldOf s).bind Mould.bbsw with
  | some c => if inRunOrHalt s then c.cpuLimit else 20000
  | none => 20000

/-- The bucket refilled, in millionths of a frame, up to L / 100 frames. Where L has changed since the last refill, as at the entry
to RUN, the whole time since then counts at the new rate, up to the new depth (DESIGN CHOICE, log 98). -/
def cpuRefill (s : State) : State :=
  let t := min (s.sw.tokens + cpuRate s * (s.clk.wallUs - s.sw.tokenUs)) (cpuRate s * 10000)
  { s with sw := { s.sw with tokens := t, tokenUs := s.clk.wallUs } }

/-- The buffer of a Q0006 descriptor: 980 buffers of 1,536 bytes in Lane B working memory (log 47). -/
def cpuBuffer (x : Word) : Nat := 0xC90000 + 1536 * (x.toNat % 980)

/-- A frame for the CPU port: limiter, Q0006 (R336, R337). Its class queues pass a frame on at once, so they never fill (DESIGN
CHOICE, log 47). `ts` is the start of its reception. -/
def toCpu (port : Nat) (byPfx : Bool) (ts : Nat) (f : Inner) (s : State) : State :=
  let s1 := cpuRefill s
  if s1.sw.tokens < 1000000 then
    let s2 := { s1 with sw := { s1.sw with cpuDrop := satInc s1.sw.cpuDrop } }
    trRepCount 0x815 1 0 item s2
  else
    let s2 := { s1 with sw := { s1.sw with tokens := s1.sw.tokens - 1000000 } }
    let buf := cpuBuffer (ringGet s2 6).pi
    let tag := f.vid + 4096 * f.pcp + 65536 * port + 524288 * b2n (portPipe port) + 1048576 * b2n byPfx
    let d : Desc := { buf := BitVec.ofNat 32 buf, len := BitVec.ofNat 16 f.body.length, src := 5, ts := BitVec.ofNat 32 ts
                      tag := BitVec.ofNat 32 tag }
    let s3 := modPort 4 (fun x => { x with tx := x.tx + 1 }) s2
    if ringFull (ringGet s3 6) then push 6 d s3 else push 6 d (dataWrite buf f.body s3)

/-- The bytes that leave a port, without FCS: untagged where the port is in UNTAG (R315). -/
def egressBytes (s : State) (p : Nat) (f : Inner) : Bool × Bytes :=
  let untag := ((vlanOf s f.vid).map fun v => v.untag.getLsbD p).getD true
  if untag then (false, f.body)
  else (true, f.body.take 12 ++ [0x81, 0x00] ++ beBytes 2 (f.vid + 4096 * f.dei + 8192 * f.pcp) ++ f.body.drop 12)

/-- A frame put into a class queue of a connector port, 64 frames deep, or dropped where it is full (R315 step 8, R335). -/
def enqueue (p cls : Nat) (x : Bool × Bytes) (s : State) : State :=
  modPort p (fun y =>
    let q := nth [] y.queues cls
    if 64 ≤ q.length then { y with txDrop := satInc y.txDrop } else { y with queues := setAt y.queues cls (q ++ [x]) }) s

/-- A frame for a connector port. -/
def toPort (cls : Nat) (f : Inner) (s : State) (p : Nat) : State := enqueue p cls (egressBytes s p f) s

/-- Is a queued frame an MRP frame? `x.1` says that it carries a tag. -/
def queuedMrp (x : Bool × Bytes) : Bool := decide (beAt x.2 (if x.1 then 16 else 12) 2 = 0x88E3)

/-- The oldest frame of the highest class that has one that may go, and the queues without it; queues in ascending class (R335). -/
def nextQueued (may : Bool × Bytes → Bool) : List (List (Bool × Bytes)) → Option ((Bool × Bytes) × List (List (Bool × Bytes)))
  | [] => none
  | q :: qs =>
    match nextQueued may qs with
    | some (f, rest) => some (f, q :: rest)
    | none => match q.find? may with
      | some f => some (f, q.eraseP may :: qs)
      | none => none

/-- The bit times of a frame on the line: at least 64 bytes with its FCS, preamble and gap (IEEE 802.3, PRESUMED, log 45). -/
def lineBits (f : Bool × Bytes) : Nat := 8 * (max 60 f.2.length + 24)

/-- A port's transmitter over some bit times: it ends the frame that it sends, then takes the next. Answers the frames that
ended, the first ended first. -/
def portRun (may : Bool × Bytes → Bool) : Nat → Nat → Port → Port × List (Bool × Bytes)
  | 0, _, x => (x, [])
  | n + 1, b, x =>
    match x.sending with
    | some (f, left) =>
      if left ≤ b then
        let (y, fs) := portRun may n (b - left) { x with sending := none, tx := x.tx + 1 }
        (y, f :: fs)
      else ({ x with sending := some (f, left - b) }, [])
    | none =>
      match nextQueued may x.queues with
      | some (f, qs) => portRun may n b { x with queues := qs, sending := some (f, lineBits f) }
      | none => (x, [])

/-- One microsecond of a port's transmitter at its line rate in Mb/s. A port that PORT_EN disables sends nothing (R339), and a
blocked ring port begins MRP frames only (R333); what waits there goes on waiting (DESIGN CHOICE, log 47). -/
def portTick (s : State) (p : Nat) : State :=
  let x := nth {} s.sw.ports p
  if !linked s p then s
  else
    let (y, fs) := portRun (fun f => decide (mrpState s p ≠ 1) || queuedMrp f) 8 (nth 0 [0, 10, 100, 1000] x.speed.toNat) x
    fs.foldl (fun t f => { t with out := { t.out with eth := (p, f) :: t.out.eth } }) (modPort p (fun _ => y) s)

/-- Does the flood limit of the ROM default admit one more frame at a port (R338)? At most 10,000 in each second that
begins with the first frame (log 48). -/
def stormAdmit (port : Nat) (s : State) : State × Bool :=
  let x := nth (0, 0) s.sw.storm port
  let y := if x.1 + 1000000 ≤ s.clk.wallUs ∨ x.2 = 0 then (s.clk.wallUs, 0) else x
  if y.2 < 10000 then ({ s with sw := { s.sw with storm := setAt s.sw.storm port (y.1, y.2 + 1) } }, true)
  else
    let s1 := { s with sw := { s.sw with stormDrop := satInc s.sw.stormDrop } }
    (trRepCount 0x816 1 port (fun k => item port ++ item k) s1, false)

/-- Steps 6 to 8 for a frame with its set of step 5. -/
def egress (port : Nat) (set5 : BitVec 5) (members : BitVec 5) (ts : Nat) (f : Inner) (s : State) : State :=
  let w := portPipe port
  let s1 := notePfx w f s
  let x := (pfxFind (pipeOf w s1) f).map fun i => pfxAt (pipeOf w s1) i
  let act := (x.map PfxSlot.action).getD 0
  if act = 1 then modPort port (fun y => { y with pfx := satInc y.pfx }) s1
  else
    let mapped := if isMrp f then 7 else (nth 0 s1.sw.cfg.tcMap f.pcp).toNat
    let cls := match x with
      | some y => if y.cls.getLsbD 3 then y.cls.toNat % 8 else mapped
      | none => mapped
    let byPfx := decide (act = 2) || decide (act = 3)
    let normal := fun p => decide (act ≠ 2) && set5.getLsbD p && members.getLsbD p && forwards s1 p (isMrp f) && decide (p ≠ port)
    let cpu := (normal 4 || byPfx) && decide (port ≠ 4)
    let outs := (List.range 4).filter fun p => normal p
    if outs = [] ∧ !cpu then modPort port (fun y => { y with filtered := satInc y.filtered }) s1
    else
      let s2 := outs.foldl (toPort cls f) s1
      if cpu then toCpu port byPfx ts f s2 else s2

/-- Step 5: the destination. -/
def destination (port : Nat) (failed : Bool) (v : Vlan) (ts : Nat) (f : Inner) (s : State) : State :=
  let w := portPipe port
  let dst := dstOf f
  if dst = s.sw.mac ∧ v.member.getLsbD 4 then egress port 0x10 v.member ts f s
  else
    let s1 := noteWays w 0 dst (BitVec.ofNat 12 f.vid) s
    let hit := (macLookup s.sw.mac (pipeOf w s1) dst (BitVec.ofNat 12 f.vid)).map fun i => (macAt (pipeOf w s1) i).ports
    let limited := s1.sw.flood && decide (s1.sw.config = 1) && (isGroup dst || hit.isNone)
    let (s2, admitted) := if limited then stormAdmit port s1 else (s1, true)
    if !admitted then s2
    else
      let flood : BitVec 5 := if isGroup dst then v.member else v.member &&& 0x0F
      let floods := failed || isBroadcast dst || hit.isNone
      let set5 := if floods then flood else hit.getD 0
      let s3 := if floods then modPort port (fun y => { y with flooded := satInc y.flooded }) s2 else s2
      egress port set5 v.member ts f s3

/-- Steps 3 to 8 for a frame that enters a port. -/
def fromVlan (port ts : Nat) (f : Inner) (s : State) : State :=
  let vid := if f.vid = 0 then nth 1 s.sw.cfg.pvid port else f.vid
  let g := { f with vid := vid }
  match vlanOf s vid with
  | none => modPort port (fun y => { y with ingress := satInc y.ingress }) s
  | some v =>
    if !v.member.getLsbD port ∨ isGroup (srcOf g) then modPort port (fun y => { y with ingress := satInc y.ingress }) s
    else
      let (s1, failed) := learn port (srcOf g) (BitVec.ofNat 12 vid) s
      destination port failed v ts g s1

/-! ### The MRP engine (R333, IEC 62439-2, PRESUMED, log 45) -/

/-- An MRP frame of the unit: a group address of the protocol, one TLV of the frame's kind, the common TLV with sequence
number and domain, the end; untagged, in class 7 of a ring port that has link. -/
def mrpSend (p : Nat) (group : Byte) (tlv : Bytes) (s : State) : State :=
  if linked s p then
    let seq := s.sw.mrpSeq + 1
    let bs := [0x01, 0x15, 0x4E, 0x00, 0x00, group] ++ macBytes s.sw.mac ++ [0x88, 0xE3, 0x00, 0x01] ++ tlv ++
      [0x01, 0x12] ++ beBytes 2 seq.toNat ++ padTo 16 s.sw.cfg.mrpDomain ++ [0x00, 0x00]
    enqueue p 7 (false, bs ++ zeros (60 - bs.length)) { s with sw := { s.sw with mrpSeq := seq } }
  else s

/-- The manager's priority and address in a TLV. -/
def mrpWho (s : State) : Bytes := beBytes 2 s.sw.cfg.mrpPrio.toNat ++ macBytes s.sw.mac

/-- MRP_Test on ring port p: port role, ring state, transitions, time in ms. -/
def mrpTest (s : State) (p : Nat) : State :=
  mrpSend p 1 ([0x02, 0x12] ++ mrpWho s ++ beBytes 2 p ++ beBytes 2 (b2n (decide (s.sw.ring = 2))) ++
    beBytes 2 s.sw.mrpTrans.toNat ++ beBytes 4 (s.clk.opUs / 1000)) s

/-- The times of IEC 62439-2 for the recovery profile in ms: the manager's test interval, its short test interval, and the interval of
its MRP_TopologyChange frames, of which it sends 3; a client sends 4 MRP_LinkChange frames 20 ms apart. -/
def mrpDefault (s : State) : Nat := if s.sw.cfg.mrpProfile = 0 then 50 else 20
def mrpShort (s : State) : Nat := if s.sw.cfg.mrpProfile = 0 then 30 else 10
def mrpTopo (s : State) : Nat := if s.sw.cfg.mrpProfile = 0 then 20 else 10

/-- A manager's test frames on both ring ports, the next ones in `ms`. -/
def mrpTests (ms : Nat) (s : State) : State :=
  [0, 1].foldl mrpTest { s with sw := { s.sw with mrpTestUs := s.clk.opUs + 1000 * ms } }

/-- MRP_TopologyChange on both ring ports: its interval is the time until the last of those that are left. -/
def mrpTopology (left : Nat) (s : State) : State :=
  [0, 1].foldl (fun t p => mrpSend p 2 ([0x03, 0x0A] ++ mrpWho t ++ beBytes 2 (left * mrpTopo t)) t)
    { s with sw := { s.sw with topoLeft := left - 1, topoUs := s.clk.opUs + 1000 * mrpTopo s } }

/-- A client's MRP_LinkChange on the other ring port, with the time that is left to the change. After the last one the change
stands. -/
def mrpLink (x : LinkChange) (s : State) : State :=
  if x.left = 0 then { s with sw := { s.sw with lnk := none } }
  else
    mrpSend (1 - x.port) 2 ([if x.up then 0x05 else 0x04, 0x0C] ++ macBytes s.sw.mac ++ beBytes 2 x.port ++
        beBytes 2 (20 * x.left) ++ beBytes 2 1)
      { s with sw := { s.sw with lnk := some { x with left := x.left - 1, atUs := s.clk.opUs + 20000 } } }

/-- What the MRP engine sends by time: a manager's test frames, every 50 ms with the 500 ms profile and every 20 ms with the 200 ms
one, and its repeated MRP_TopologyChange; a client's MRP_LinkChange. -/
def mrpTick (s : State) : State :=
  if s.sw.cfg.mrpRole = 2 then
    let s1 := if s.sw.mrpTestUs ≤ s.clk.opUs then mrpTests (mrpDefault s) s else s
    if s1.sw.topoLeft ≠ 0 ∧ s1.sw.topoUs ≤ s1.clk.opUs then mrpTopology s1.sw.topoLeft s1 else s1
  else if s.sw.cfg.mrpRole = 1 then
    match s.sw.lnk with
    | some x => if x.atUs ≤ s.clk.opUs then showMrp (mrpLink x s) else s
    | none => s
  else s

/-- A frame of the own domain on a ring port: a client passes it on to the other ring port; a manager ends it, and tests the ring at
once and after the short interval where it is an MRP_LinkChange. -/
def mrpIn (p : Nat) (f : Inner) (s : State) : State :=
  if s.sw.cfg.mrpRole = 1 then (if linked s (1 - p) then enqueue (1 - p) 7 (false, f.body) s else s)
  else if s.sw.cfg.mrpRole = 2 ∧ (nth 0 f.body 16 = 4 ∨ nth 0 f.body 16 = 5) then mrpTests (mrpShort s) s
  else s

/-- The link of ring port p of a client has changed: it tells its manager over the other ring port, where that has a link. -/
def mrpLinkChanged (p : Nat) (up : Bool) (s : State) : State :=
  if s.sw.cfg.mrpRole = 1 ∧ p < 2 then
    showMrp { s with sw := { s.sw with
      lnk := if linked s (1 - p) then some { port := p, up := up, atUs := s.clk.opUs } else none } }
  else s

/-- BB_FRAME_RECEIVED (R315). `frame` runs from the destination address to the FCS, `begunAgo` is how many µs before this
instant its reception began. A port without link, or disabled, receives nothing; a blocked ring port passes MRP frames
only. -/
def bbFrame (port : Nat) (fcsOk : Bool) (frame : Bytes) (begunAgo : Nat) (us : List Upset) (s : State) : State :=
  if !(pdIs s 6 ∧ linked s port) then applyUpsets (imageUpsets us) s
  else
    let s0 := applyUpsets us s
    if !fcsOk ∨ frame.length < 64 ∨ 1522 < frame.length then modPort port (fun y => { y with rxErr := satInc y.rxErr }) s0
    else
      let f := innerOf frame
      let s1 := modPort port (fun y => { y with rx := y.rx + 1 }) s0
      if isPause f then s1
      else if forMrp s1 port f then mrpIn port f s1
      else if !forwards s1 port (isMrp f) then s1
      else fromVlan port (s.clk.opUs - begunAgo) f s1

/-- CPU_PORT_TRANSMIT (R337): the oldest frame of Q0007 enters W at step 3. -/
def cpuTransmit (us : List Upset) (s : State) : State :=
  if !pdIs s 6 then applyUpsets (imageUpsets us) s
  else
    match ringTake 7 s with
    | (_, none) => applyUpsets us s
    | (t, some d) =>
      let f : Inner := { body := dataRead d.buf.toNat d.len.toNat t, vid := d.tag.toNat % 4096, pcp := d.tag.toNat / 4096 % 8
                         tagged := false }
      fromVlan 4 s.clk.opUs f (modPort 4 (fun y => { y with rx := y.rx + 1 }) (applyUpsets us t))

/-! ### Links and ring (R320, R333, R334, R341) -/

/-- LINK_DOWN: the port's learned entries are invalidated at once. Frames that wait in its class queues are lost (DESIGN CHOICE,
log 47). -/
def linkDown (p : Nat) (s : State) : State :=
  if pdIs s 6 ∧ (nth {} s.sw.ports p).up then
    let s1 := modPort p (fun y => { y with up := false, speed := 0, full := false, queues := ({} : Port).queues, sending := none }) s
    mrpLinkChanged p false
      (sjRep 0x802 1 p (item p) (modPipe (portPipe p) (flushPipe fun e => !e.static && decide (e.ports = BitVec.ofNat 5 (2 ^ p))) s1))
  else s

/-- Speed and duplex of a link that comes up (R312): those of a forced SPEED, full duplex; else those that the two ends
negotiated, of which 1,000 Mb/s is full duplex. -/
def linkMode (cfg : Byte) (speed : BitVec 2) (full : Bool) : BitVec 2 × Bool :=
  if cfg = 0 then (speed, full || decide (speed = 3)) else (BitVec.ofNat 2 cfg.toNat, true)

/-- LINK_UP: an enabled port without link gets one, by the SPEED that holds now: one that changed while a link stood takes
effect here (R339). A link without a speed is none. -/
def linkUp (p : Nat) (speed : BitVec 2) (full mdix : Bool) (s : State) : State :=
  let m := linkMode (nth 0 s.sw.cfg.speed p) speed full
  if pdIs s 6 ∧ s.sw.cfg.portEn.getLsbD p ∧ !(nth {} s.sw.ports p).up ∧ m.1 ≠ 0 then
    mrpLinkChanged p true (sjRep 0x801 0 p (item p ++ item m.1.toNat ++ item (b2n m.2))
      (modPort p (fun y => { y with up := true, speed := m.1, full := m.2, mdix := mdix }) s))
  else s

/-- Is the unit a ring member: PD6 on and an MRP role? -/
def ringMember (s : State) : Bool := pdIs s 6 && decide (s.sw.cfg.mrpRole ≠ 0)

/-- A learned entry on a ring port. -/
def onRing (e : MacEntry) : Bool := !e.static && (decide (e.ports = 1) || decide (e.ports = 2))

/-- TOPOLOGY_CHANGE (R334): sent by the manager, so the sender's role is 2; a manager sends it on both ring ports, and at a client
it ends a link change. -/
def topologyChange (s : State) : State :=
  if ringMember s then
    let n := countMacs onRing s.tbl.e + countMacs onRing s.tbl.w
    let s1 := modPipe true (flushPipe onRing) (modPipe false (flushPipe onRing) s)
    let s2 := if s.sw.cfg.mrpRole = 2 then mrpTopology 3 s1 else showMrp { s1 with sw := { s1.sw with lnk := none } }
    tr 0x805 0 (item 2 ++ item n) { s2 with sw := { s2.sw with topo := satInc s2.sw.topo } }
  else s

/-- RING_OPEN at a manager whose ring was closed. -/
def ringOpen (p : Nat) (s : State) : State :=
  if ringMember s ∧ s.sw.cfg.mrpRole = 2 ∧ s.sw.ring = 2 then
    sj 0x803 2 (item p) (showMrp { s with sw := { s.sw with ring := 1, mrpTrans := s.sw.mrpTrans + 1, opens := satInc s.sw.opens, ringOpenUs := s.clk.opUs } })
  else s

/-- RING_CLOSED at a manager whose ring was open. -/
def ringClosed (s : State) : State :=
  if ringMember s ∧ s.sw.cfg.mrpRole = 2 ∧ s.sw.ring = 1 then
    sj 0x804 0 (item ((s.clk.opUs - s.sw.ringOpenUs) / 1000)) (showMrp { s with sw := { s.sw with ring := 2, mrpTrans := s.sw.mrpTrans + 1 } })
  else s

/-! ### Rehash (R330) -/

/-- Entries placed in order: each takes the lowest free way of its new bucket. Answers the table, whether every static
entry was placed, and how many learned entries were dropped. -/
def placeAll (seed : Half) (es : List MacEntry) : Sparse MacEntry × Bool × Nat :=
  es.foldl (fun acc e =>
    let (m, ok, n) := acc
    match macFree { macs := m, seed := seed } e.mac e.vid with
    | some i => (sput {} m i { e with perr := false, said := false }, ok, n)
    | none => if e.static then (m, false, n) else (m, ok, n + 1)) ([], true, 0)

/-- The order of placement: static entries by index, then learned ones by AGE and index. A bad entry is absent. -/
def placeOrder (t : Pipe) : List MacEntry :=
  let good := (t.macs.filter fun x => x.2.valid && !x.2.perr).map Prod.snd
  good.filter (fun e => e.static) ++ (good.filter fun e => !e.static).mergeSort (fun a b => decide (a.age ≤ b.age))

/-- A table rebuilt under a seed: the pipeline after it, whether it was rebuilt, and the entries dropped. -/
def rebuildPipe (seed : Half) (t : Pipe) : Pipe × Bool × Nat :=
  let (m, ok, n) := placeAll seed (placeOrder t)
  if ok then ({ t with macs := m, seed := seed, rehashDrop := satAdd t.rehashDrop n }, true, n) else (t, false, 0)

/-! ### Table commands (R328, R329) -/

/-- A command's arguments as `TBL.CMD` and `TBL.ARG0` to `TBL.ARG3` give them. -/
structure TblCmd where
  code  : Nat := 0
  pipe  : Nat := 0
  too   : Bool := false
  image : Bytes := []
deriving DecidableEq, Repr

/-- The pipelines a command names. -/
def tblPipes (c : TblCmd) : List Bool := (if bitOf c.pipe 0 then [false] else []) ++ (if bitOf c.pipe 1 then [true] else [])

/-- The key, port mask and kind in a command's image. -/
def tblMac (c : TblCmd) : BitVec 48 := macOf c.image
def tblVid (c : TblCmd) : Nat := leAt c.image 6 2
def tblMask (c : TblCmd) : Nat := leAt c.image 8 1
def tblStatic (c : TblCmd) : Bool := bitOf (leAt c.image 9 1) 1
def tblArg0 (c : TblCmd) : Nat := leAt c.image 0 4

/-- The number of bits set. -/
def popCount (n : Nat) : Nat := (List.range 32).foldl (fun a i => a + b2n (bitOf n i)) 0

/-- The argument rule of R329: does 0x10 BAD_ARG apply? -/
def tblBad (c : TblCmd) : Bool :=
  decide (c.code = 0) || decide (6 < c.code) || decide (c.pipe = 0) || decide (3 < c.pipe) ||
    ((decide (c.code ≤ 2) || decide (c.code = 6)) && decide (c.pipe = 3)) ||
    ((decide (c.code = 1) || decide (c.code = 3) || decide (c.code = 4)) &&
      (decide (tblVid c = 0) || decide (4094 < tblVid c))) ||
    (decide (c.code = 3) && (decide (31 < tblMask c) ||
      (!tblStatic c && (isGroup (tblMac c) || decide (popCount (tblMask c) ≠ 1))))) ||
    (decide (c.code = 5) && decide (4 < tblArg0 c % 8)) ||
    (decide (c.code = 2) && decide (8191 < tblArg0 c))

/-- A result: FOUND, index and entry image in the RES registers. -/
def tblResult (r : Option (Nat × MacEntry)) (s : State) : State :=
  match r with
  | none => { s with tbl := { s.tbl with found := false } }
  | some (i, e) =>
    let bs := macImage e
    { s with tbl := { s.tbl with
        found := true, resIndex := BitVec.ofNat 13 i
        res := (List.range 4).map fun k => BitVec.ofNat 32 (leAt bs (4 * k) 4) } }

/-- SEARCH. -/
def tblSearch (c : TblCmd) (s : State) : State :=
  let w := bitOf c.pipe 1
  let vid := BitVec.ofNat 12 (tblVid c)
  let s1 := noteWays w 0 (tblMac c) vid s
  tblResult ((macLookup s.sw.mac (pipeOf w s1) (tblMac c) vid).map fun i => (i, macAt (pipeOf w s1) i)) s1

/-- NEXT: the first VALID entry at an index ≥ START. -/
def tblNextEntry (c : TblCmd) (s : State) : State :=
  let t := pipeOf (bitOf c.pipe 1) s
  tblResult (t.macs.find? fun x => x.2.valid && decide (tblArg0 c ≤ x.1)) s

/-- The way that INSERT writes. -/
def insertWay (t : Pipe) (c : TblCmd) : Option Nat :=
  let vid := BitVec.ofNat 12 (tblVid c)
  (macFind t (tblMac c) vid).or (macFree t (tblMac c) vid)

/-- INSERT into every named pipeline; `false` where some pipeline has no way: neither is written. -/
def tblInsert (c : TblCmd) (s : State) : State × Bool :=
  let vid := BitVec.ofNat 12 (tblVid c)
  let s1 := (tblPipes c).foldl (fun t w => noteWays w 1 (tblMac c) vid t) s
  if (tblPipes c).all fun w => (insertWay (pipeOf w s1) c).isSome then
    let e : MacEntry := { mac := tblMac c, vid := vid, ports := BitVec.ofNat 5 (tblMask c), valid := true, static := tblStatic c }
    ((tblPipes c).foldl (fun t w => modPipe w (fun p => putMac ((insertWay p c).getD 0) e p) t) s1, true)
  else (s1, false)

/-- DELETE: FOUND 0 where no named pipeline holds the key. -/
def tblDelete (c : TblCmd) (s : State) : State :=
  let vid := BitVec.ofNat 12 (tblVid c)
  let s1 := (tblPipes c).foldl (fun t w => noteWays w 0 (tblMac c) vid t) s
  let found := (tblPipes c).any fun w => (macFind (pipeOf w s1) (tblMac c) vid).isSome
  let s2 := (tblPipes c).foldl (fun t w => modPipe w (fun p =>
    match macFind p (tblMac c) vid with
    | some i => putMac i { macAt p i with valid := false } p
    | none => p) t) s1
  { s2 with tbl := { s2.tbl with found := found } }

/-- FLUSH_BY_PORT. -/
def tblFlush (c : TblCmd) (s : State) : State :=
  let p := tblArg0 c % 8
  let f := fun (e : MacEntry) =>
    (!e.static && decide (e.ports = BitVec.ofNat 5 (2 ^ p))) || (c.too && e.static && e.ports.getLsbD p)
  (tblPipes c).foldl (fun t w => modPipe w (flushPipe f) t) s

/-- The conditions of R329 after the arguments: 0x20 BUSY while a REHASH runs, 0x23 LOCKED. -/
def tblBlocked (c : TblCmd) (s : State) : Option Byte :=
  if s.tbl.rehash.isSome then some 0x20 else if s.tbl.held ∧ c.code ≠ 1 then some 0x23 else none

/-- A command that R329 admits, carried out: its status. -/
def tblRun (c : TblCmd) (s : State) : State × Byte :=
  if c.code = 1 then (tblSearch c s, 0)
  else if c.code = 2 then (tblNextEntry c s, 0)
  else if c.code = 3 then let (t, ok) := tblInsert c s; (t, if ok then 0 else 0x41)
  else if c.code = 4 then (tblDelete c s, 0)
  else if c.code = 5 then (tblFlush c s, 0)
  else ({ s with tbl := { s.tbl with rehash := some (bitOf c.pipe 1, BitVec.ofNat 16 (tblArg0 c)) } }, 1)

/-- STATUS of the last command in `TBL.CMD_STATUS`. -/
def tblStatus (st : Byte) (s : State) : State := { s with tbl := { s.tbl with status := st } }

/-- REHASH_DONE: the final status in `TBL.CMD_STATUS`; TR 0x0812; the deferred learning follows (R330). -/
def rehashDone (s : State) : State :=
  match s.tbl.rehash with
  | none => s
  | some (w, seed) =>
    let (t, ok, n) := rebuildPipe seed (pipeOf w s)
    let st : Byte := if ok then 0 else 0x41
    let s1 := tblStatus st (modPipe w (fun _ => t) { s with tbl := { s.tbl with rehash := none } })
    asyncDone 0x0F st (applyLearned w (tr 0x812 0 (item (b2n w) ++ item seed.toNat ++ item st.toNat ++ item n) s1))

/-! ### Lock and DMA (R331, R332) -/

/-- TBL_LOCK_TAKE: taken where it is free and no REHASH runs. -/
def lockTake (agent : Byte) (s : State) : State :=
  if pdIs s 6 ∧ !s.tbl.held ∧ s.tbl.rehash.isNone then
    { s with tbl := { s.tbl with held := true, owner := agent, heldUs := s.clk.wallUs } }
  else s

/-- The lock released, the queued learning events applied. -/
def lockFree (s : State) : State :=
  applyLearned true (applyLearned false { s with tbl := { s.tbl with held := false, owner := 0 } })

/-- TBL_LOCK_RELEASE: by the owner only. -/
def lockRelease (agent : Byte) (s : State) : State :=
  if pdIs s 6 ∧ s.tbl.held ∧ s.tbl.owner = agent then lockFree s else s

/-- LOCK_TIMEOUT: after 1,000 ms, once any running DMA job has ended. -/
def lockTimeout (s : State) : State :=
  if s.tbl.held ∧ s.tbl.heldUs + 1000000 ≤ s.clk.wallUs ∧ s.tbl.dmaJob.isNone then
    let s1 := tr 0x813 1 (item s.tbl.owner.toNat) s
    lockFree { s1 with tbl := { s1.tbl with timeout := true } }
  else s

/-- Error of a job that an agent starts: 1 NOT_LOCKED, 2 RANGE, 3 ADDRESS, 0 none. -/
def dmaError (agent : Byte) (pfx : Bool) (s : State) : BitVec 2 :=
  let n := s.tbl.dmaCount.toNat
  if !(s.tbl.held ∧ s.tbl.owner = agent) then 1
  else if n = 0 ∨ (if pfx then 512 else 8192) < s.tbl.dmaFirst.toNat + n then 2
  else if dataSize < s.tbl.dmaAddr.toNat + 16 * n then 3 else 0

/-- A write of `TBL.DMA_CTRL` by an agent sets its RW fields; START starts a job with the registers as they stand, unless one
runs (log 49). -/
def dmaStart (agent : Byte) (v : Word) (s : State) : State :=
  if !pdIs s 6 then s
  else
    let s1 := { s with tbl := { s.tbl with dmaTable := v.getLsbD 1, dmaPipe := v.getLsbD 2, dmaDir := v.getLsbD 3 } }
    if v.getLsbD 0 ∧ s.tbl.dmaJob.isNone then
      let e := dmaError agent (v.getLsbD 1) s1
      let job : DmaJob := { table := v.getLsbD 1, pipe := v.getLsbD 2, dir := v.getLsbD 3, addr := s.tbl.dmaAddr.toNat,
                            first := s.tbl.dmaFirst.toNat, count := s.tbl.dmaCount.toNat, atUs := s.clk.wallUs }
      { s1 with tbl := { s1.tbl with dmaErr := e, dmaJob := if e = 0 then some job else none } }
    else s1

/-- One entry of a job. -/
def dmaEntry (j : DmaJob) (s : State) (k : Nat) : State :=
  let a := j.addr + 16 * k
  let i := j.first + k
  if j.dir then
    let bs := unitRead a 16 s
    modPipe j.pipe (if j.table then putPfx i (pfxParse bs) else putMac i (macParse bs)) s
  else unitWrite a (if j.table then pfxImage (pfxAt (pipeOf j.pipe s) i) else macImage (macAt (pipeOf j.pipe s) i)) s

/-- The entries of a job up to the n-th, in ascending order. -/
def dmaEntries (j : DmaJob) (n : Nat) (s : State) : State := (List.range' j.done (n - j.done)).foldl (dmaEntry j) s

/-- The entries that time has brought a running job, one in 4 of the 125 NET clocks of a microsecond (R331). The slots that a job
writes into a prefix table wait for its end (R324). -/
def dmaTick (s : State) : State :=
  match s.tbl.dmaJob with
  | none => s
  | some j =>
    if j.table && j.dir then s
    else
      let n := max j.done (min j.count (125 * (s.clk.wallUs - j.atUs) / 4))
      let s1 := dmaEntries j n s
      { s1 with tbl := { s1.tbl with dmaJob := some { j with done := n } } }

/-- DMA_DONE: the job's entries that are left. -/
def dmaDone (s : State) : State :=
  match s.tbl.dmaJob with
  | none => s
  | some j =>
    let s1 := dmaEntries j j.count s
    { s1 with tbl := { s1.tbl with dmaJob := none } }

/-- What the switch does in one microsecond: the MRP engine's frames, the transmitters, and the entries of a DMA job. -/
def switchTick (s : State) : State := if pdIs s 6 then dmaTick ((List.range 4).foldl portTick (mrpTick s)) else s

/-! ### Prefix load (R325) -/

/-- The slot images of a load. -/
def loadSlots (bs : Bytes) : List Bytes := (List.range (bs.length / 16)).map fun k => slice bs (16 * k) 16

/-- Is one slot image admissible: reserved bytes 0, TYPE at most 5? -/
def slotImageOk (bs : Bytes) : Bool :=
  decide ((nth 0 bs 10).toNat ≤ 5) && decide (nth 0 bs 14 = 0)

/-- Is every IPv6 word part of a complete, aligned entry? -/
def loadComplete (bss : List Bytes) : Bool :=
  (List.range bss.length).all fun i =>
    let ty := (nth 0 (nth [] bss i) 10).toNat
    ty < 2 || (decide (i % 4 = ty - 2) && (List.range 4).all fun k =>
      decide ((nth 0 (nth [] bss (i - i % 4 + k)) 10).toNat = 2 + k))

/-- A prefix table that holds the given slots and is empty beyond them. -/
def loadPipe (bss : List Bytes) (t : Pipe) : Pipe :=
  ((List.range bss.length).zip bss).foldl (fun p x => putPfx x.1 (pfxParse x.2) p) { t with pfx := [] }

/-- A waiting load taken once the lock is free: E then W, TR 0x0814. -/
def pfxApply (s : State) : State :=
  match s.tbl.pfxWait with
  | none => s
  | some bs =>
    if s.tbl.held ∨ s.tbl.rehash.isSome ∨ !pdIs s 6 then s
    else
      let bss := loadSlots bs
      let s1 := modPipe true (loadPipe bss) (modPipe false (loadPipe bss) { s with tbl := { s.tbl with pfxWait := none } })
      tr 0x814 0 (item bss.length) s1

/-- A load at commit step (c): at once where the lock is free, else waiting, in place of an earlier one. -/
def pfxCommit (bs : Bytes) (s : State) : State :=
  if pdIs s 6 then pfxApply { s with tbl := { s.tbl with pfxWait := some bs } } else s

/-! ### Configuration (R338, R339) -/

/-- Is an entry kept under a new VLAN table? -/
def macKept (vlans : List Vlan) (e : MacEntry) : Bool :=
  match vlans.find? fun v => v.vid = e.vid.toNat with
  | some v => decide (e.ports &&& ~~~v.member = 0)
  | none => false

/-- One pipeline under a new configuration (R339): the entries it leaves valid, rebuilt where the seed changes by the placement of
R330, in which an entry that does not fit is dropped, a static one too, for nothing is abandoned here. `TBL.Px_REHASH_DROP` counts the
entries that either drops. -/
def reconfigPipe (vlans : List Vlan) (seed : Half) (t : Pipe) : Pipe :=
  let t1 := { mapMacs (fun _ e => if macKept vlans e then e else { e with valid := false }) t with
    rehashDrop := satAdd t.rehashDrop (countMacs (fun e => !macKept vlans e) t) }
  if seed = t.seed then t1
  else
    let es := placeOrder t1
    let m := (placeAll seed es).1
    { t1 with macs := m, seed := seed, rehashDrop := satAdd t1.rehashDrop (es.length - m.length) }

/-- BBSW applied (R339): no link is taken down; SJ 0x0806 records the entries kept and dropped. The ring begins open
for a manager; RING of a client is not stated: free (log 45). -/
def applyBbsw (c : BbswCfg) (s : State) : State :=
  let n0 := countMacs (fun _ => true) s.tbl.e + countMacs (fun _ => true) s.tbl.w
  let s1 := modPipe true (reconfigPipe c.vlans c.seedW) (modPipe false (reconfigPipe c.vlans c.seedE) s)
  let n1 := countMacs (fun _ => true) s1.tbl.e + countMacs (fun _ => true) s1.tbl.w
  let same := decide (s.sw.cfg.mrpRole = c.mrpRole) && decide (s.sw.config = 2)
  let (s2, ring) : State × BitVec 2 :=
    if c.mrpRole = 0 then (s1, 0)
    else if same then (s1, s1.sw.ring)
    else if c.mrpRole = 2 then ({ s1 with sw := { s1.sw with ringOpenUs := s1.clk.opUs } }, 1)
    else (drawn s1, if (freeWord s1).getLsbD 0 then 1 else 2)
  let s3 := showMrp { s2 with sw := { s2.sw with 
    config := 2, cfg := c, ring := ring, topoLeft := if same then s2.sw.topoLeft else 0, lnk := if same then s2.sw.lnk else none } }
  sj 0x806 0 (item 2 ++ item n1 ++ item (n0 - n1)) s3

/-! ### The commands -/

/-- BB_FRAME_RECEIVED. -/
def execBbFrameReceived (port : Fin 4) (fcsOk : Bool) (frame : Bytes) (begunAgo : Nat) (upsets : List Upset)
    (s : State) : Result := .next (bbFrame port fcsOk frame begunAgo upsets s)
/-- CPU_PORT_TRANSMIT. -/
def execCpuPortTransmit (upsets : List Upset) (s : State) : Result := .next (cpuTransmit upsets s)
/-- MAC_AGING. -/
def execMacAging (s : State) : Result := .next (whenever (pdIs s 6) macAging s)
/-- LINK_DOWN. -/
def execLinkDown (port : Fin 4) (s : State) : Result := .next (linkDown port s)
/-- LINK_UP. -/
def execLinkUp (port : Fin 4) (speed : BitVec 2) (full mdix : Bool) (s : State) : Result :=
  .next (linkUp port speed full mdix s)
/-- SCRUB. -/
def execScrub (upsets : List Upset) (s : State) : Result := .next (if pdIs s 6 then scrub upsets s else applyUpsets (imageUpsets upsets) s)
/-- TOPOLOGY_CHANGE. -/
def execTopologyChange (s : State) : Result := .next (topologyChange s)
/-- RING_OPEN. -/
def execRingOpen (port : Fin 2) (s : State) : Result := .next (ringOpen port s)
/-- RING_CLOSED. -/
def execRingClosed (s : State) : Result := .next (ringClosed s)
/-- DMA_DONE. -/
def execDmaDone (s : State) : Result := .next (whenever (pdIs s 6) dmaDone s)
/-- LOCK_TIMEOUT. -/
def execLockTimeout (s : State) : Result := .next (whenever (pdIs s 6) lockTimeout s)
/-- PFX_LOAD_APPLY. -/
def execPfxLoadApply (s : State) : Result := .next (pfxApply s)

end Sys2Proof.Machine
end

