-- ==== Sys2Proof/Machine/Mould.lean ====
section
/-! DEFINITION. The Mould image: sections, fields, validation codes (R95 to R102, R120, R161, R264, R281, R313, R314).
The sizes that the manual does not give, of REFLEX's and AREAS' fields, are the model's (log 54). -/

namespace Sys2Proof.Machine

/-! ### Checks with the offset of the item -/

/-- A field within a range; reserved bytes 0; a rule at an offset. -/
def ckIn (b : Bytes) (a n lo hi : Nat) : FieldCheck := (a, decide (lo ≤ leAt b a n) && decide (leAt b a n ≤ hi))
def ckRes (b : Bytes) (a n : Nat) : FieldCheck := (a, decide (leAt b a n = 0))

/-- The first failing check's offset. -/
def badOffset (cs : List FieldCheck) : Option Nat := (cs.find? fun c => !c.2).map Prod.fst

/-- The section of an id by the table: OFFSET, LENGTH. -/
structure SecEntry where
  id     : Nat
  off    : Nat
  len    : Nat
  crc    : Nat
deriving DecidableEq, Repr

/-- The entries of the section table. -/
def secEntries (img : Bytes) : List SecEntry :=
  (List.range (leAt img 18 2)).map fun i =>
    let a := 128 + 16 * i
    { id := leAt img a 2, off := leAt img (a + 4) 4, len := leAt img (a + 8) 4, crc := leAt img (a + 12) 4 }

/-- A section's bytes. -/
def secOf (img : Bytes) (id : Nat) : Option Bytes :=
  ((secEntries img).find? fun e => e.id = id).map fun e => slice img e.off e.len

/-- The size that follows from a section's layout (R97). -/
def secSize (id : Nat) (b : Bytes) : Nat :=
  match id with
  | 1 => 32
  | 2 => 8
  | 3 => 8
  | 4 => 264 + 8 * leAt b 261 1 + 8 * leAt b (262 + 8 * leAt b 261 1) 2
  | 5 => 4 + 8 * leAt b 0 2
  | 6 => 4 + 32 * leAt b 1 1
  | 7 => 320
  | 8 => 256
  | 9 => 16 + leAt b 8 4
  | 10 => 88
  | 11 => 40
  | 12 => 4 + 12 * leAt b 2 1
  | _ => 0

/-! ### Fields (R98, R99, R161, R263, R264, R281, R313, R314) -/

/-- NAME is ASCII, padded with 0x00. -/
def nameOk (bs : Bytes) : Bool := bs.all (fun x => decide (x.toNat < 0x80)) && (bs.dropWhile (· ≠ 0)).all (· = 0)

/-- PLANT. -/
def ckPlant (b : Bytes) : List FieldCheck :=
  [ckIn b 3 1 0 1, (4, leAt b 3 1 ≠ 1 || leAt b 4 1 ≠ leAt b 2 1), ckIn b 5 1 0 1, ckRes b 6 2, (8, nameOk (slice b 8 16)),
   ckRes b 24 8]

/-- CLOCKS and POWER. -/
def ckEnables (b : Bytes) : List FieldCheck := [ckIn b 0 1 0 15, ckRes b 1 7]

/-- The size of an area that can be published: Q, M, or D of D_SIZE_KIB (log 54). -/
def pubSize (area kib : Nat) : Nat := if area = 1 then 1024 else if area = 2 then 8192 else 1024 * kib

/-- IOMAP. -/
def ckIomap (kib : Nat) (b : Bytes) : List FieldCheck :=
  let np := leAt b 261 1
  let ns := leAt b (262 + 8 * np) 2
  [(0, decide (leAt b 0 2 % 32 = 0) && decide (leAt b 0 2 ≤ 8160)), (2, decide (leAt b 2 2 % 16 = 0) && decide (leAt b 2 2 ≤ 8176))] ++
  ((List.range 32).flatMap fun k =>
    let a := 4 + 4 * k
    [ckIn b a 1 1 200, ckIn b (a + 1) 1 0 1, ckRes b (a + 2) 2]) ++
  ((List.range 16).flatMap fun k =>
    let a := 132 + 4 * k
    [ckIn b a 1 0 2, ckRes b (a + 1) 1, ckIn b (a + 2) 2 10 5000]) ++
  ((List.range 16).flatMap fun k =>
    let a := 196 + 4 * k
    [ckIn b a 1 0 1, ckIn b (a + 1) 1 0 1, ckIn b (a + 2) 1 0 1, ckIn b (a + 3) 1 0 (if k % 2 = 0 then 1 else 0)]) ++
  [ckIn b 260 1 0 15, ckIn b 261 1 0 16] ++
  ((List.range np).flatMap fun k =>
    let a := 262 + 8 * k
    let ar := leAt b (a + 1) 1
    [ckIn b a 1 0 15, (a + 1, ar = 1 || ar = 2 || ar = 0xB), ckRes b (a + 2) 2,
     (a + 4, decide (leAt b (a + 4) 2 + leAt b (a + 6) 2 ≤ pubSize ar kib)), ckIn b (a + 6) 2 1 1024]) ++
  [ckIn b (262 + 8 * np) 2 0 1024] ++
  ((List.range ns).flatMap fun k =>
    let a := 264 + 8 * np + 8 * k
    [ckIn b (a + 1) 1 0 15, ckIn b (a + 2) 1 1 255, ckRes b (a + 3) 1])

/-- QUEUES: the ring and depth limits of R120 belong to code 0x0C (log 54). -/
def ckQueues (b : Bytes) : List FieldCheck :=
  [ckIn b 0 2 0 960, ckRes b 2 2] ++
  ((List.range (leAt b 0 2)).flatMap fun k =>
    let a := 4 + 8 * k
    [ckIn b a 2 0 1023, ckIn b (a + 3) 1 0 2, ckIn b (a + 6) 1 1 15, ckRes b (a + 7) 1])

/-- LBUS (R281). -/
def ckLbus (b : Bytes) : List FieldCheck :=
  [ckIn b 0 1 0 15, ckIn b 1 1 0 4, ckRes b 2 2] ++
  ((List.range (leAt b 1 1)).flatMap fun k =>
    let a := 4 + 32 * k
    let f := fun o => leAt b (a + o) 1
    [(a, decide (f 0 ≤ 3) && (List.range k).all fun j => decide (leAt b (4 + 32 * j) 1 ≠ f 0)), ckIn b (a + 1) 1 0 1,
     ckIn b (a + 2) 1 0 3, ckIn b (a + 3) 1 0 (if f 1 = 0 then 0 else 3), ckIn b (a + 4) 1 60 90, ckIn b (a + 5) 1 60 90,
     (a + 6, decide (f 6 ≤ 2) && (f 6 = 0 || f 1 = 1)), (a + 7, decide (f 7 ≤ 1) && (f 7 = 0 || (f 1 = 1 && f 6 ≠ 0))),
     ckIn b (a + 12) 2 0 0x7FF, ckIn b (a + 14) 2 10 1000, ckIn b (a + 16) 2 2 500,
     (a + 18, decide ((slice b (a + 18) 14).all (· = 0)))])

/-- BBSW (R313, R314). -/
def ckBbsw (b : Bytes) : List FieldCheck :=
  let n := leAt b 3 1
  let vid := fun i => leAt b (64 + 4 * i) 2
  let mem := fun i => leAt b (66 + 4 * i) 1
  let unt := fun i => leAt b (67 + 4 * i) 1
  let mrp := leAt b 1 1
  [(0, decide (leAt b 0 1 ≤ 15) && (mrp = 0 || leAt b 0 1 % 4 = 3)), ckIn b 1 1 0 2, ckIn b 2 1 0 1, ckIn b 3 1 1 64] ++
  ((List.range 4).map fun k => ckIn b (4 + k) 1 0 3) ++
  ((List.range 5).map fun p =>
    let v := leAt b (8 + 2 * p) 2
    (8 + 2 * p, decide (1 ≤ v) && decide (v ≤ 4094) && (List.range n).any fun i => decide (vid i = v) && bitOf (mem i) p)) ++
  [ckIn b 20 4 1 1000000, ckIn b 28 4 1000 200000] ++
  ((List.range 8).map fun k => ckIn b (48 + k) 1 0 7) ++ [ckRes b 56 8] ++
  ((List.range 64).flatMap fun i =>
    let a := 64 + 4 * i
    if i < n then
      [(a, decide (1 ≤ vid i) && decide (vid i ≤ 4094) && (List.range i).all fun j => decide (vid j ≠ vid i)),
       (a + 2, decide (mem i ≤ 31) && (mrp = 0 || bitOf (mem i) 0 = bitOf (mem i) 1)),
       (a + 3, decide (Nat.land (unt i) (mem i) = unt i) && (mrp = 0 || bitOf (unt i) 0 = bitOf (unt i) 1))]
    else [ckRes b a 4])

/-- A finite and non-zero REAL32 image. -/
def gainOk (w : Nat) : Bool := decide (w / 2 ^ 23 % 256 ≠ 255) && decide (w % 2 ^ 31 ≠ 0)

/-- ACQ (R263, R264). -/
def ckAcq (b : Bytes) : List FieldCheck :=
  let grp := leAt b 0 1
  let ph := leAt b 164 1
  let unit := fun c => leAt b (36 + 16 * c + 4) 1
  let inGrp := fun c => if c < 4 then bitOf grp 0 else bitOf grp 1
  let len := leAt b 4 4
  let vCh := fun p => 2 * p + b2n (bitOf (leAt b 165 1) p)
  let iCh := fun p => 2 * p + 1 - b2n (bitOf (leAt b 165 1) p)
  [ckIn b 0 1 1 3, ckIn b 1 1 0 12, ckIn b 2 1 0 12, ckIn b 3 1 0 100,
   (4, (List.range 11).any fun k => decide (len = 64 * 2 ^ k)), ckIn b 8 2 64 1023,
   (10, decide (leAt b 10 1 ≤ 3) || leAt b 10 1 = 0xFF), ckIn b 11 1 0 63, ckIn b 16 1 0 2, ckIn b 17 1 0 1, ckIn b 18 1 0 15,
   (19, decide (leAt b 19 1 ≤ 7) && inGrp (leAt b 19 1)), ckIn b 24 4 1 (2 ^ 24), ckIn b 28 1 0 2, ckRes b 29 3,
   ckIn b 32 4 1 3600000] ++
  ((List.range 8).flatMap fun c =>
    let a := 36 + 16 * c
    [(a, gainOk (leAt b a 4)), ckIn b (a + 4) 1 0 2, ckRes b (a + 5) 1, ckIn b (a + 6) 2 1 16384, ckIn b (a + 8) 2 0 32767,
     ckIn b (a + 10) 2 0 32767, (a + 12, decide (leAt b (a + 12) 2 ≤ 32767) && decide (leAt b (a + 8) 2 ≤ leAt b (a + 12) 2)),
     ckIn b (a + 14) 1 10 50, ckRes b (a + 15) 1]) ++
  [(164, decide (ph ≤ 7) && (List.range 3).all fun p =>
      !bitOf ph p || (inGrp (2 * p) && unit (vCh p) = 0 && unit (iCh p) = 1)),
   ckIn b 165 1 0 7, ckIn b 166 1 1 255, ckIn b 167 1 1 255,
   (168, decide (leAt b 168 1 ∈ [5, 10, 15, 30, 60])), ckIn b 169 1 0 2,
   (170, leAt b 170 1 % 2 = 0 && decide (leAt b 170 1 ≤ 30)), ckIn b 171 1 0 3,
   (172, leAt b 172 4 % 2 = 0 && decide (leAt b 172 4 ≤ 524286))] ++
  ((List.range 16).flatMap fun k =>
    let a := 176 + 4 * k
    [ckIn b (a + 1) 1 0 23, ckIn b (a + 2) 1 0 59, ckIn b (a + 3) 1 0 3]) ++
  [(240, decide (leAt b 240 1 ≤ 1) && (leAt b 240 1 = 0 || (bitOf grp 1 && unit 6 = 1 && unit 7 = 0))),
   (241, decide ((slice b 241 15).all (· = 0)))]

/-- The networks of a REFLEX section: entries from byte 12, then the code words (R160, log 54). -/
def netOf (b : Bytes) (i : Nat) : Net :=
  let a := 12 + 8 * i
  let mode := leAt b (a + 1) 1
  let c := 12 + 8 * leAt b 0 1 + 4 * leAt b (a + 2) 2
  { out := leAt b a 1, mode := if mode = 0 then .or else if mode = 1 then .and else .replace
    code := (List.range (leAt b (a + 4) 2)).map fun k => BitVec.ofNat 32 (leAt b (c + 4 * k) 4) }

/-- The REFLEX section. -/
def reflexCfg (b : Bytes) : ReflexCfg :=
  { nets := (List.range (leAt b 0 1)).map (netOf b), outMask := BitVec.ofNat 16 (leAt b 2 2), cells := leAt b 4 2 }

/-- The rules of R161 on network i, whose entry lies at `a` and whose code at `c`. -/
def ckNet (ib qb : Nat) (outMask : BitVec 16) (nets : List Net) (i a c : Nat) : List FieldCheck :=
  let x := nth {} nets i
  [(a, outMask.getLsbD x.out), (a + 1, (nets.take i).all fun y => decide (y.out = x.out → y.mode = x.mode))] ++
  ((List.range x.code.length).flatMap fun j =>
    [(c + 4 * j, rungWordOk ib qb (nth 0 x.code j).toNat && (rungDepth (x.code.take (j + 1))).isSome &&
      decide ((delayReset (x.code.take (j + 1))).length ≤ 8))]) ++
  [(c + 4 * (x.code.length - 1), decide (rungDepth x.code = some 0))]

/-- REFLEX (R160, R161). -/
def ckReflex (ib qb : Nat) (b : Bytes) : List FieldCheck :=
  let n := leAt b 0 1
  let len := fun i => leAt b (12 + 8 * i + 4) 2
  let sum := fun i => ((List.range i).map len).sum
  [ckIn b 0 1 0 64, ckRes b 1 1, ckIn b 4 2 1 4096, ckRes b 6 2, (8, decide (8 * n + 4 * sum n ≤ leAt b 8 4))] ++
  ((List.range n).flatMap fun i =>
    let a := 12 + 8 * i
    [ckIn b a 1 0 15, ckIn b (a + 1) 1 0 2, (a + 2, decide (leAt b (a + 2) 2 = sum i)), ckIn b (a + 4) 2 1 256, ckRes b (a + 6) 2]) ++
  ((List.range n).flatMap fun i => ckNet ib qb (BitVec.ofNat 16 (leAt b 2 2)) (reflexCfg b).nets i (12 + 8 * i) (12 + 8 * n + 4 * sum i)) ++
  [(4, decide (((reflexCfg b).nets.map fun x => netCells x.code).sum ≤ leAt b 4 2))]

/-- PANEL. -/
def ckPanel (b : Bytes) : List FieldCheck :=
  [(0, leAt b 0 2 = 0 || (decide (10 ≤ leAt b 0 2) && decide (leAt b 0 2 ≤ 3600))), ckIn b 2 1 5 255, ckIn b 3 1 5 255,
   ckIn b 4 1 1 60, ckIn b 6 1 1 8, ckIn b 7 1 1 8]

/-- LAP: EVENT_PRIO is a permutation. -/
def ckLap (b : Bytes) : List FieldCheck :=
  [ckIn b 0 2 1 1000, ckIn b 2 1 2 10, ckRes b 3 1] ++ (List.range 32).map fun k =>
    (8 + k, decide (leAt b (8 + k) 1 ≤ 31) && (List.range k).all fun j => decide (leAt b (8 + j) 1 ≠ leAt b (8 + k) 1))

/-- A retentive range of AREAS. -/
def retOf (b : Bytes) (i : Nat) : RetRange :=
  let a := 4 + 12 * i
  let c := leAt b a 1
  { area := if c = 2 then .m else if c = 4 then .t else if c = 5 then .c else .d, start := leAt b (a + 4) 4, count := leAt b (a + 8) 4 }

/-- The ranges of AREAS. -/
def retsOf (b : Bytes) : List RetRange := (List.range (leAt b 2 1)).map (retOf b)

/-- AREAS (R99): a range lies in its area, ranges of one area do not overlap, the total fits. -/
def ckAreas (b : Bytes) : List FieldCheck :=
  let kib := leAt b 0 2
  let lim := fun (r : RetRange) => match r.area with
    | .m => 65536
    | .t => 4096
    | .c => 2048
    | _ => 1024 * kib
  let rs := retsOf b
  [(0, decide (4 ≤ kib) && decide (kib ≤ 4096) && kib % 4 = 0), (2, decide (leAt b 2 1 ≤ 16) && decide ((rs.map retCost).sum ≤ 524288)),
   ckRes b 3 1] ++
  ((List.range rs.length).flatMap fun i =>
    let a := 4 + 12 * i
    let r := nth {} rs i
    [(a, decide (leAt b a 1 ∈ [2, 4, 5, 11])), ckRes b (a + 1) 3,
     (a + 4, (r.area ≠ .m || (r.start % 8 = 0 && r.count % 8 = 0)) && decide (r.start + r.count ≤ lim r) &&
       (List.range i).all fun j =>
         let q := nth {} rs j
         decide (q.area ≠ r.area) || decide (q.start + q.count ≤ r.start) || decide (r.start + r.count ≤ q.start))])

/-! ### The parsed Mould -/

/-- The section's bytes, or none of them. -/
def sec (img : Bytes) (id : Nat) : Bytes := (secOf img id).getD []

/-- One controller of LBUS. -/
def ctrlOf (b : Bytes) (k : Nat) : CtrlCfg :=
  let a := 4 + 32 * k
  { port := leAt b a 1, fd := leAt b (a + 1) 1 = 1, nomRate := BitVec.ofNat 2 (leAt b (a + 2) 1)
    dataRate := BitVec.ofNat 2 (leAt b (a + 3) 1), spNom := leAt b (a + 4) 1, spData := leAt b (a + 5) 1
    tmRole := BitVec.ofNat 2 (leAt b (a + 6) 1), beacon := leAt b (a + 7) 1 = 1, rxRing := leAt b (a + 8) 2
    txRing := leAt b (a + 10) 2, refId := leAt b (a + 12) 2, cycleMs := leAt b (a + 14) 2, guardMs := leAt b (a + 16) 2 }

/-- One ring of QUEUES. -/
def ringCfgOf (b : Bytes) (k : Nat) : RingCfg :=
  let a := 4 + 8 * k
  { ring := leAt b a 2, log2 := leAt b (a + 2) 1, policy := nth 0 b (a + 3), producer := nth 0 b (a + 4)
    consumer := nth 0 b (a + 5), hwm := nth 0 b (a + 6) }

/-- BBSW. -/
def bbswOf (b : Bytes) : BbswCfg :=
  { portEn := BitVec.ofNat 4 (leAt b 0 1), mrpRole := nth 0 b 1, mrpProfile := nth 0 b 2, speed := slice b 4 4
    pvid := (List.range 5).map fun p => leAt b (8 + 2 * p) 2, mrpPrio := BitVec.ofNat 16 (leAt b 18 2), agingS := leAt b 20 4
    seedE := BitVec.ofNat 16 (leAt b 24 2), seedW := BitVec.ofNat 16 (leAt b 26 2), cpuLimit := leAt b 28 4
    mrpDomain := slice b 32 16, tcMap := slice b 48 8
    vlans := (List.range (leAt b 3 1)).map fun i =>
      { vid := leAt b (64 + 4 * i) 2, member := BitVec.ofNat 5 (leAt b (66 + 4 * i) 1), untag := BitVec.ofNat 5 (leAt b (67 + 4 * i) 1) } }

/-- ACQ and its metering block. -/
def acqOf (b : Bytes) : AcqCfg × MtrCfg :=
  ({ grpEn := BitVec.ofNat 2 (leAt b 0 1), kA := leAt b 1 1, kB := leAt b 2 1, pretrig := leAt b 3 1, recLen := leAt b 4 4
     ring := leAt b 8 2, trigOut := nth 0 b 10, trigEn := BitVec.ofNat 6 (leAt b 11 1), diMask := BitVec.ofNat 32 (leAt b 12 4)
     diEdge := nth 0 b 16, diSrc := nth 0 b 17, trgMask := BitVec.ofNat 4 (leAt b 18 1), aiCh := leAt b 19 1
     aiLevel := sextNat 32 (leAt b 20 4), aiSlope := leAt b 24 4, aiDir := nth 0 b 28, periodMs := leAt b 32 4
     ch := (List.range 8).map fun c =>
       let a := 36 + 16 * c
       { gain := BitVec.ofNat 32 (leAt b a 4), unit := nth 0 b (a + 4), hyst := leAt b (a + 6) 2, lowTh := leAt b (a + 8) 2
         highTh := leAt b (a + 10) 2, retTh := leAt b (a + 12) 2, hcMax := leAt b (a + 14) 1 }
     phaseEn := BitVec.ofNat 3 (leAt b 164 1), vSel := BitVec.ofNat 3 (leAt b 165 1), failN := leAt b 166 1, retN := leAt b 167 1 },
   { demandMin := leAt b 168 1, tariffSrc := nth 0 b 169, tariffDi := leAt b 170 1, defTariff := leAt b 171 1
     tariffP := leAt b 172 4, ledger := leAt b 240 1 = 1
     sched := (List.range 16).map fun k =>
       let a := 176 + 4 * k
       { wday := nth 0 b a, hour := leAt b (a + 1) 1, minute := leAt b (a + 2) 1, tariff := leAt b (a + 3) 1 } })

/-- PANEL. -/
def panelOf (b : Bytes) : PanelCfg :=
  { lockS := leAt b 0 2, pressDeb := nth 0 b 2, relDeb := nth 0 b 3, stuckS := nth 0 b 4, contrast := nth 0 b 5
    userLen := leAt b 6 1, svcLen := leAt b 7 1, salt := slice b 8 16, userDig := slice b 24 32, svcDig := slice b 56 32 }

/-- The first part of the Mould. -/
def mouldParse (img : Bytes) : Mould :=
  let p := sec img 1
  let io := sec img 4
  let np := leAt io 261 1
  let ns := leAt io (262 + 8 * np) 2
  let q := sec img 5
  let l := sec img 6
  { testedSet := BitVec.ofNat 32 (leAt img 12 4), issues := BitVec.ofNat 16 (leAt img 16 2), build := BitVec.ofNat 32 (leAt img 20 4)
    digest := slice img 32 32, plantId := BitVec.ofNat 16 (leAt p 0 2), member := nth 0 p 2, pair := leAt p 3 1 = 1
    partner := nth 0 p 4, shared := leAt p 5 1 = 1, name := slice p 8 16, clocks := nth 0 (sec img 2) 0, power := nth 0 (sec img 3) 0
    iBase := leAt io 0 2, qBase := leAt io 2 2
    di := (List.range 32).map fun k => (leAt io (4 + 4 * k) 1, bitOf (leAt io (5 + 4 * k) 1) 0)
    pairs := (List.range 16).map fun k => { mode := nth 0 io (132 + 4 * k), tdisc := BitVec.ofNat 16 (leAt io (134 + 4 * k) 2) }
    douts := (List.range 16).map fun k =>
      let f := fun o => decide (leAt io (196 + 4 * k + o) 1 = 1)
      { policy := f 0, shared := f 1, stop := f 2, spair := f 3 }
    trgPull := BitVec.ofNat 4 (leAt io 260 1)
    pubs := (List.range np).map fun k =>
      let a := 262 + 8 * k
      { block := nth 0 io a, area := nth 0 io (a + 1), start := leAt io (a + 4) 2, length := leAt io (a + 6) 2 }
    subs := (List.range ns).map fun k =>
      let a := 264 + 8 * np + 8 * k
      { member := nth 0 io a, block := nth 0 io (a + 1), staleK := leAt io (a + 2) 1, pOffset := leAt io (a + 4) 2, ring := leAt io (a + 6) 2 }
    rings := (List.range (leAt q 0 2)).map (ringCfgOf q)
    term := BitVec.ofNat 4 (leAt l 0 1), ctrls := (List.range (leAt l 1 1)).map (ctrlOf l), bbsw := (secOf img 7).map bbswOf }

/-- The rest of the Mould, with the bytes that pairing (R107) and REPRESS (R109) compare: of scope, the header's fields and the other
sections; of gap, each byte in a gap that is not 0, with the one of the other sections that it stands behind; of place, where the
other sections stand and every byte behind the table, those of LBUS, ACQ and REFLEX as 0, without the zeros at the end; of flow, the
bytes behind the table without those three and without the zeros of the gaps, and how many of these bytes stand before each of the
three. -/
def mouldRest (img : Bytes) : MouldRest :=
  let inSec := fun (i : Nat) => (secEntries img).any fun e => decide (e.off ≤ i) && decide (i < e.off + e.len)
  let es := secEntries img
  let tend := 128 + 16 * es.length
  let open_ := es.filter fun e => e.id = 6 ∨ e.id = 8 ∨ e.id = 9
  let rest := es.filter fun e => e.id ≠ 6 ∧ e.id ≠ 8 ∧ e.id ≠ 9
  let inOpen := fun (i : Nat) => open_.any fun e => decide (e.off ≤ i) && decide (i < e.off + e.len)
  let gaps := (List.range img.length).flatMap fun i =>
    let v := nth 0 img i
    if i < tend ∨ v = 0 ∨ inSec i then []
    else leBytes 1 ((rest.filter fun e => decide (e.off + e.len ≤ i)).foldl (fun (b : Nat × Nat) e => if b.1 ≤ e.off + e.len then (e.off + e.len, e.id) else b) (0, 0)).2 ++ [v]
  let place := (rest.flatMap fun e => leBytes 4 e.off) ++
    (((List.range img.length).map fun i => if i < tend ∨ inOpen i then 0 else nth 0 img i).reverse.dropWhile (· == 0)).reverse
  let flow := fun (a : Nat) => ((List.range (a - tend)).map (tend + ·)).filter fun i => !inOpen i && (inSec i || nth 0 img i != 0)
  let lp := sec img 11
  let p := sec img 1
  let keep := [1, 2, 3, 4, 5, 7, 10, 11, 12].flatMap fun id =>
    match secOf img id with
    | some b => (1 : Byte) :: b
    | none => [0]
  let opt := fun id => match secOf img id with
    | some b => (1 : Byte) :: b
    | none => [0]
  { acq := (secOf img 8).map acqOf, reflex := (secOf img 9).map reflexCfg, panel := panelOf (sec img 10)
    tLap := leAt lp 0 2, wMult := leAt lp 2 1, eventMask := BitVec.ofNat 32 (leAt lp 4 4)
    eventPrio := (slice lp 8 32).map BitVec.toNat, dSizeKib := leAt (sec img 12) 0 2, ret := retsOf (sec img 12)
    pairBytes := sec img 2 ++ sec img 4 ++ sec img 5 ++ sec img 11 ++ sec img 12 ++ slice p 0 2 ++ slice p 5 1
    scopeBytes := slice img 12 6 ++ slice img 20 12 ++ keep, gapBytes := gaps, placeBytes := place
    flowBytes := (flow img.length).map (nth 0 img), openAt := open_.map fun e => (e.id, (flow e.off).length), lbusBytes := opt 6, acqBytes := opt 8, reflexBytes := opt 9 }

/-! ### Validation (R100 to R102) -/

/-- A failure: code, section id (0 for header and table), byte offset. -/
structure MouldFail where
  code : Nat
  sect : Nat := 0
  off  : Nat := 0
deriving DecidableEq, Repr

/-- What a Mould is validated against: its image; the key, Mould hash and Tested Set of the application manifest; the
hardware issue; for REPRESS the mask and the active Mould. -/
structure MouldCtx where
  img   : Bytes
  key   : Bytes
  hash  : Bytes
  set   : Nat
  issue : Nat
  scope : Option (Nat × MouldRest) := none

/-- Codes 0x01 and 0x02. -/
def ckHeader (img : Bytes) : Option MouldFail :=
  let n := leAt img 8 4
  if n < 256 ∨ 4194304 < n ∨ n ≠ img.length then some { code := 1, off := 8 }
  else (badOffset [ckIn img 0 4 0x4A4D4C44 0x4A4D4C44, ckIn img 4 2 1 1, ckIn img 6 2 128 128, ckIn img 16 2 0 3, ckRes img 24 8]).map fun o => { code := 2, off := o }

/-- Codes 0x03 to 0x07. -/
def ckSigned (c : MouldCtx) : Option MouldFail :=
  let img := c.img
  let dig := slice img 32 32
  if dig ≠ sha256 (img.take 32 ++ img.drop 128) then some { code := 3, off := 32 }
  else if !ed25519Verify c.key dig (slice img 64 64) then some { code := 4, off := 64 }
  else if dig ≠ c.hash then some { code := 5, off := 32 }
  else if !bitOf (leAt img 16 2) (c.issue - 1) then some { code := 6, off := 16 }
  else if leAt img 12 4 ≠ c.set then some { code := 7, off := 12 }
  else none

/-- Code 0x08: the section table (R97). -/
def ckTable (img : Bytes) : Option MouldFail :=
  let n := leAt img 18 2
  let es := secEntries img
  let tend := 128 + 16 * n
  if n < 8 ∨ 12 < n ∨ img.length < tend then some { code := 8, off := 18 }
  else (badOffset ((List.range n).flatMap fun i =>
    let a := 128 + 16 * i
    let e := nth ⟨0, 0, 0, 0⟩ es i
    [(a, decide (1 ≤ e.id) && decide (e.id ≤ 12) && (i = 0 || decide ((nth ⟨0, 0, 0, 0⟩ es (i - 1)).id < e.id))), ckRes img (a + 2) 2,
     (a + 4, e.off % 16 = 0 && decide (tend ≤ e.off) && (List.range i).all fun j =>
       let f := nth ⟨0, 0, 0, 0⟩ es j
       decide (f.off + f.len ≤ e.off) || decide (e.off + e.len ≤ f.off)),
     (a + 8, decide (e.off + e.len ≤ img.length) && decide (e.len = secSize e.id (slice img e.off e.len)))])).map
    fun o => { code := 8, off := o }

/-- Code 0x09: mandatory sections; ACQ if and only if POWER enables PD8. -/
def ckMissing (img : Bytes) : Option MouldFail :=
  match [1, 2, 3, 4, 5, 10, 11, 12].find? fun id => (secOf img id).isNone with
  | some id => some { code := 9, sect := id }
  | none => if (secOf img 8).isSome ≠ bitOf (leAt (sec img 3) 0 1) 2 then some { code := 9, sect := 8 } else none

/-- Code 0x0A: each section matches its CRC. -/
def ckCrc (img : Bytes) : Option MouldFail :=
  ((secEntries img).find? fun e => decide (crc32c (slice img e.off e.len) ≠ e.crc)).map fun e => { code := 10, sect := e.id }

/-- The checks of one section's fields. -/
def secChecks (img : Bytes) (id : Nat) (b : Bytes) : List FieldCheck :=
  match id with
  | 1 => ckPlant b
  | 2 => ckEnables b
  | 3 => ckEnables b
  | 4 => ckIomap (leAt (sec img 12) 0 2) b
  | 5 => ckQueues b
  | 6 => ckLbus b
  | 7 => ckBbsw b
  | 8 => ckAcq b
  | 9 => ckReflex (leAt (sec img 4) 0 2) (leAt (sec img 4) 2 2) b
  | 10 => ckPanel b
  | 11 => ckLap b
  | _ => ckAreas b

/-- Code 0x0B: section by section in ID order. -/
def ckFields (img : Bytes) : Option MouldFail :=
  (secEntries img).findSome? fun e => (badOffset (secChecks img e.id (slice img e.off e.len))).map fun o => { code := 11, sect := e.id, off := o }

/-- Is a producer id internal (R115)? -/
def internalId (p : Byte) : Bool := decide (p.toNat ∈ [1, 2, 3, 4, 0x0D])

/-- Code 0x0C: the Queue Pool rules (R120). -/
def ckRings (rs : List RingCfg) : Option MouldFail :=
  match badOffset ((List.range rs.length).flatMap fun i =>
    let r := nth {} rs i
    let a := 4 + 8 * i
    [(a, decide (64 ≤ r.ring) && (List.range i).all fun j => decide ((nth {} rs j).ring ≠ r.ring)),
     (a + 2, decide (4 ≤ r.log2) && decide (r.log2 ≤ 12)), (a + 3, r.policy ≠ 1 || internalId r.producer)]) with
  | some o => some { code := 12, sect := 5, off := o }
  | none => if 245760 < (rs.map fun r => 2 ^ r.log2).sum then some { code := 12, sect := 5, off := 0 } else none

/-- Code 0x0D: STREAM matches STREAM_CRC; CELLS fits region 7 by its range. -/
def ckFabric (img : Bytes) : Option MouldFail :=
  match secOf img 9 with
  | none => none
  | some b => if crc32c (slice b 12 (leAt b 8 4)) ≠ leAt b (12 + leAt b 8 4) 4 then some { code := 13, sect := 9, off := 12 + leAt b 8 4 } else none

/-- Is an id that of Lane A or Lane B (R115)? -/
def lanes (p : Byte) : Bool := decide (p = 2) || decide (p = 3)

/-- The rings that LBUS, IOMAP and ACQ name: section, offset, ring, and what its QUEUES entry must hold. The producer
and consumer table that R101 announces is not in the manual: checked is what other rules state of both ends, that is Lane B
behind a controller's receive ring, a lane before its transmit ring, Lane B and Lane A at the ends of a subscription ring, Mains
Watch before the record ring, which the Marshal or a lane reads (log 54). -/
def namedRings (m : Mould) (acqRing : Option Nat) : List (Nat × Nat × Nat × (RingCfg → Bool)) :=
  ((List.range m.ctrls.length).flatMap fun i =>
    let c := nth {} m.ctrls i
    let a := 4 + 32 * i
    [(6, a + 8, c.rxRing, fun (r : RingCfg) => decide (r.log2 = 10) && decide (r.policy = 0) && decide (r.producer.toNat = 8 + c.port) &&
       decide (r.consumer = 3)),
     (6, a + 10, c.txRing, fun (r : RingCfg) => decide (r.consumer.toNat = 8 + c.port) && lanes r.producer)]) ++
  ((List.range m.subs.length).map fun i =>
    (4, 264 + 8 * m.pubs.length + 8 * i + 6, (nth {} m.subs i).ring, fun (r : RingCfg) => decide (r.policy = 2) && decide (r.producer = 3) &&
      decide (r.consumer = 2))) ++
  (match acqRing with
    | some n => [(8, 8, n, fun (r : RingCfg) => decide (r.producer = 0x0C) && (decide (r.consumer = 1) || lanes r.consumer))]
    | none => [])

/-- The size in bytes of the frozen input image that a leader sends (R211); a subscribed block counts with its largest
length (log 54). -/
def frozenSize (m : Mould) : Nat :=
  680 + (m.subs.length + 7) / 8 + min 65536 ((m.subs.map fun x => x.pOffset + 1024).foldl max 0)

/-- Code 0x0E: the rules of R101. -/
def ckConsistency (m : Mould) (r : MouldRest) : Option MouldFail :=
  let rings := namedRings m (r.acq.map fun a => a.1.ring)
  let fail := fun (s o : Nat) => some ({ code := 14, sect := s, off := o } : MouldFail)
  if m.power ≠ m.clocks then fail 3 0
  else if m.ctrls ≠ [] ∧ !m.power.getLsbD 1 then fail 6 1
  else if m.pair ∧ !m.power.getLsbD 3 then fail 1 3
  else if m.pair ∧ r.tLap < max 2 ((frozenSize m + 99999) / 100000) then fail 11 0
  else match (List.range rings.length).find? fun i =>
      let x := nth (0, 0, 0, fun _ => false) rings i
      !((m.rings.find? fun q => q.ring = x.2.2.1).map x.2.2.2).getD false ||
        (List.range i).any fun j => decide ((nth (0, 0, 0, fun _ => false) rings j).2.2.1 = x.2.2.1) with
    | some i => let x := nth (0, 0, 0, fun _ => false) rings i; fail x.1 x.2.1
    | none =>
      match (List.range 16).find? fun k => (nth {} m.douts k).shared && (nth {} m.douts (2 * (k / 2))).spair with
      | some k => fail 4 (196 + 4 * k + 1)
      | none => none

/-- Do all other bytes of two Moulds stand in one order, and each of LBUS, ACQ and REFLEX that both have at one place among them? -/
def sameFlow (r old : MouldRest) : Bool :=
  decide (r.flowBytes = old.flowBytes) && r.openAt.all fun x => old.openAt.all fun y => decide (x.1 = y.1 → x.2 = y.2)

/-- Are two Moulds byte-identical except in LBUS, ACQ and REFLEX (R109)? Every other byte stands in its place, where one of the three
may come, go, grow into the zeros of a gap or leave zeros behind; or, where one of the three changes its length, comes or goes, the
other bytes stand in their order and the zeros of the gaps may be more or fewer (DEDUCED, log 86). -/
def sameOutside (r old : MouldRest) : Bool :=
  let sizes := fun (x : MouldRest) => (x.lbusBytes.length, x.acqBytes.length, x.reflexBytes.length)
  decide (r.scopeBytes = old.scopeBytes) && (decide (r.placeBytes = old.placeBytes) ||
    (decide (sizes r ≠ sizes old) && decide (r.gapBytes = old.gapBytes) && sameFlow r old))

/-- Code 0x0F, for REPRESS (R109): byte-identical except in LBUS, ACQ and REFLEX, and the mask has the regions of what differs. -/
def ckScope (scope : Option (Nat × MouldRest)) (r : MouldRest) : Option MouldFail :=
  match scope with
  | none => none
  | some (mask, old) =>
    if !sameOutside r old then some { code := 15 }
    else if r.lbusBytes ≠ old.lbusBytes ∧ !(bitOf mask 4 ∧ bitOf mask 5) then some { code := 15, sect := 6 }
    else if r.acqBytes ≠ old.acqBytes ∧ !bitOf mask 6 then some { code := 15, sect := 8 }
    else if r.reflexBytes ≠ old.reflexBytes ∧ !bitOf mask 7 then some { code := 15, sect := 9 }
    else none

/-- Validation in the order of R100: the first failing check, or the Mould. -/
def mouldValidate (c : MouldCtx) : Except MouldFail (Mould × MouldRest) :=
  let m := mouldParse c.img
  let r := mouldRest c.img
  match (ckHeader c.img).orElse fun _ => (ckSigned c).orElse fun _ => (ckTable c.img).orElse fun _ => (ckMissing c.img).orElse fun _ =>
      (ckCrc c.img).orElse fun _ => (ckFields c.img).orElse fun _ => (ckRings m.rings).orElse fun _ => (ckFabric c.img).orElse fun _ =>
      (ckConsistency m r).orElse fun _ => ckScope c.scope r with
  | some f => .error f
  | none => .ok (m, r)

/-- A failure's registers and SJ 0x0121 (R102) with the request path, or 3 for a start (log 54). -/
def mouldInvalid (f : MouldFail) (via : Nat) (s : State) : State :=
  sj 0x121 2 (item f.code ++ item f.sect ++ item f.off ++ item via) { s with mld := { s.mld with
    lastCode := BitVec.ofNat 8 f.code, failSection := BitVec.ofNat 16 f.sect, failOffset := BitVec.ofNat 16 (min 65535 f.off) } }

end Sys2Proof.Machine
end

