-- ==== Sys2Proof/Machine/Press.lean ====
section
/-! DEFINITION. Pressing a Mould: the configuration at start and the re-press of regions 4 to 7 (R103 to R105,
R108 to R113, R121, R123). -/

namespace Sys2Proof.Machine

/-! ### The image of a bank -/

/-- The Mould of a bank against its manifest (R100). -/
def mouldCtx (b : Bool) (scope : Option (Nat × MouldRest)) (s : State) : MouldCtx :=
  let m := bankManifest b s
  let e := manPart 1 m 0x10
  { img := (e.map fun x => bankPart b x s).getD [], key := manSignKey m, hash := (e.map PartEntry.target).getD []
    set := manSet m, issue := s.mgt.issue.toNat, scope := scope }

/-- The hash of a bank's program: its manifest's, or that of the last chained edit (R194); and of its Safe Service
table. -/
def bankProgHash (b : Bool) (s : State) : Option Bytes :=
  match (bankOf b s).chain.getLast? with
  | some p => some (slice p 64 32)
  | none => (manPart 1 (bankManifest b s) 0x11).map PartEntry.target
def bankTableHash (b : Bool) (s : State) : Option Bytes := (manPart 1 (bankManifest b s) 0x12).map PartEntry.target

/-- Are program and Safe Service table of two banks the same (R106, R109)? -/
def sameCode (a b : Bool) (s : State) : Bool :=
  (bankProgHash a s).isSome && decide (bankProgHash a s = bankProgHash b s) && (bankTableHash a s).isSome &&
    decide (bankTableHash a s = bankTableHash b s)

/-! ### Sections pressed at start -/

/-- IOMAP into the DIO configuration (R104). -/
def pressIomap (m : Mould) (s : State) : State :=
  { s with dioc := { s.dioc with
    trgPull := m.trgPull
    diFilter := (List.range m.di.length).foldl (fun t k => sput 30 t k (BitVec.ofNat 8 (nth (30, false) m.di k).1)) []
    diLm := BitVec.ofNat 32 (maskOf 32 fun k => (nth (30, false) m.di k).2)
    doPolicy := BitVec.ofNat 16 (maskOf 16 fun k => (nth {} m.douts k).policy)
    doShared := BitVec.ofNat 16 (maskOf 16 fun k => (nth {} m.douts k).shared) } }

/-- The rings of a Mould in the order of their placement: descending depth, ascending number (R121). -/
def placeRings (rs : List RingCfg) : List RingCfg :=
  rs.mergeSort fun a b => decide (b.log2 < a.log2) || (decide (a.log2 = b.log2) && decide (a.ring ≤ b.ring))

/-- The rings placed from slot 16,384 upward (R121). Rings that fill all slots end at 262,144, for which END has no 18-bit value:
it then reads 0 (DESIGN CHOICE, log 69). -/
def pressQueues (m : Mould) (s : State) : State :=
  let system := s.queues.rings.filter fun x => decide (x.1 < 64)
  let (rings, top) := (placeRings m.rings).foldl (fun (acc : Sparse Ring × Nat) r =>
    (sput {} acc.1 r.ring { base := acc.2, log2 := r.log2, policy := BitVec.ofNat 2 r.policy.toNat, producer := r.producer
                            consumer := r.consumer, hwm := BitVec.ofNat 4 r.hwm.toNat }, acc.2 + 2 ^ r.log2)) (system, 16384)
  { s with queues := { s.queues with rings := rings, total := BitVec.ofNat 18 top } }

/-- Buffer i for an image received before pressing, of 2,583 in Lane B working memory below the buffers of the CPU port, where nothing
else stands until a Mould is pressed (log 27). An image lies there with the first 8 bytes of its payload before it. -/
def earlyAt (i : Nat) : Nat := 0xA00000 + 1040 * i

/-- The number of the buffer that a descriptor of Q0014 names; none where it names none of them. -/
def earlySlot (d : Desc) : Option Nat :=
  let x := d.buf.toNat - 0xA00008
  if 0xA00008 ≤ d.buf.toNat ∧ x % 1040 = 0 ∧ x / 1040 < 2583 then some (x / 1040) else none

/-- PUB_ID and BLOCK of the image in buffer i. -/
def earlyOf (i : Nat) (s : State) : Byte × Byte :=
  let h := dataRead (earlyAt i) 2 s
  (nth 0 h 0, nth 0 h 1)

/-- The buffer of an image received before pressing: that of the image of its PUB_ID and BLOCK that Q0014 holds, which keeps the latest
per member (R77), else the first that no image in Q0014 uses, and where all are used, the oldest image's (log 27). -/
def earlyBuffer (pub block : Byte) (s : State) : Nat :=
  let used := (ringDescs 14 s).filterMap earlySlot
  earlyAt ((used.find? fun i => earlyOf i s = (pub, block)).getD
    (((List.range 2583).find? fun i => !used.contains i).getD (nth 0 used 0)))

/-- The newest image of each subscribed member and block moved from Q0014 into its Mould ring, the rest discarded
(R123). All images are read before any is moved. A descriptor moved keeps SRC 5, the CPU port, whose frame the image is (DESIGN
CHOICE, log 27). -/
def moveEarly (s : State) : State :=
  let (s1, ds) := takeAll 4096 14 s
  let found := (subsOf s).filterMap fun (x : Nat × SubEntry) =>
    ((ds.filter fun d => (earlySlot d).any fun i => decide (earlyOf i s1 = (x.2.member, x.2.block))).getLast?).map fun d =>
      (x, d, dataRead d.buf.toNat d.len.toNat s1)
  found.foldl (fun t (y : (Nat × SubEntry) × Desc × Bytes) =>
    push y.1.2.ring { y.2.1 with buf := BitVec.ofNat 32 (subBuffer y.1.1) } (dataWrite (subBuffer y.1.1) y.2.2 t)) s1

/-- The section of a region: LBUS, LBUS, ACQ, REFLEX; and whether the Mould has it. -/
def regionSect (k : Nat) : Nat := if k < 2 then 6 else k + 6
def regionUsed (m : Mould) (r : MouldRest) (k : Nat) : Bool :=
  if k < 2 then m.ctrls.any fun c => c.port / 2 = k else if k = 2 then r.acq.isSome else r.reflex.isSome

/-- Region k (0 to 3 for 4 to 7) shown in a state. -/
def setRegion (k : Nat) (st : BitVec 4) (s : State) : State := { s with mld := { s.mld with regions := setAt s.mld.regions k st } }

/-- REFLEX.NETS and REFLEX.CELLS by the networks pressed. -/
def showReflex (r : MouldRest) (s : State) : State :=
  let nets := (r.reflex.map ReflexCfg.nets).getD []
  { s with rfx := { s.rfx with nets := BitVec.ofNat 7 nets.length, cells := BitVec.ofNat 13 (nets.map fun n => netCells n.code).sum } }

/-- The controllers and terminations of some ports by a Mould (R55, R280). -/
def pressPorts (ports : List Nat) (m : Mould) (s : State) : State :=
  ports.foldl (fun t p => modLb p (fun b => { b with cfg := m.ctrls.find? fun c => c.port = p, term := m.term.getLsbD p }) t) s

/-- The terminations of some ports by a Mould, PD7 on or off (R55). -/
def pressTerms (ports : List Nat) (m : Mould) (s : State) : State :=
  ports.foldl (fun t p => modLb p (fun b => { b with term := m.term.getLsbD p }) t) s

/-- PANEL: the copy of R373 in MRAM, and a panel that LOCK_S 0 never locks (R420). -/
def pressPanel (r : MouldRest) (s : State) : State :=
  { s with mgt := { s.mgt with panelCopy := some (r.panel.salt, r.panel.svcLen, r.panel.svcDig) }
           pan := { s.pan with locked := s.pan.locked && decide (r.panel.lockS ≠ 0) } }

/-- MLD.BUILD and MLD.HASH. -/
def showMould (m : Mould) (s : State) : State := { s with mld := { s.mld with build := m.build, hash := m.digest } }

/-- A valid Mould pressed section by section (R103), LBUS with the terminations that it configures (R55). BBSW, the controllers and the
microcode of the other regions take effect as their parts load. -/
def pressMould (m : Mould) (r : MouldRest) (s : State) : State :=
  let s1 := { s with mld := { s.mld with mould := some (m, r), regions := (List.range 4).map fun k => if regionUsed m r k then 1 else 0 } }
  let s2 := if m.power.getLsbD 0 then s1 else domainOff 6 s1
  showMould m (pressPanel r (showReflex r (pressTerms [0, 1, 2, 3] m (pressIomap m (moveEarly (pressQueues m (restoreAtStart s2)))))))

/-! ### Re-press (R108 to R113) -/

/-- The parts of the active Mould that region k carries, replaced by those of another. -/
def swapRegion (k : Nat) (m : Mould) (r : MouldRest) (s : State) : State :=
  match s.mld.mould with
  | none => s
  | some (m0, r0) =>
    let mine := fun (c : CtrlCfg) => decide (c.port / 2 = k)
    let m1 := if k < 2 then { m0 with ctrls := m0.ctrls.filter (fun c => !mine c) ++ m.ctrls.filter mine
                                      term := setField m0.term (2 * k) 2 (m.term.toNat / 2 ^ (2 * k)) } else m0
    let r1 := if k = 2 then { r0 with acq := r.acq } else if k = 3 then { r0 with reflex := r.reflex } else r0
    { s with mld := { s.mld with mould := some (m1, r1) } }

/-- A landing-bus controller stopped for a press (R110). One in bus-off or recovery resumes in NORMAL (R290). -/
def portStop (s : State) (p : Nat) : State :=
  if lbThere s p then
    lbChange p (fun b => { b with resumeState := if b.state = .listen then .listen else .normal, state := .pressing })
      (tmHalt p 0 (modLx p (fun x => { x with refWait := none }) s))
  else s

/-- A controller that resumes in the mode it had, with error counters at 0; a controller new to its port resumes in
NORMAL (log 54). EPOCH moves where CYCLE_MS changes (R292). -/
def portStart (m : Mould) (s : State) (p : Nat) : State :=
  let fresh := (lbOf s p).cfg.isNone
  let s0 := pressPorts [p] m s
  let s1 := if (lbOf s p).cfg.isSome ∧ (lbOf s0 p).cfg.isSome ∧ (lbCfg s p).cycleMs ≠ (lbCfg s0 p).cycleMs then
      modLx p (fun x => { x with epoch := x.epoch + 1 }) s0
    else s0
  if (lbOf s1 p).cfg.isNone then (if fresh then s1 else lbChange p (fun b => { b with state := .absent }) s1)
  else lbChange p (fun b => { b with
    state := if fresh then .normal else b.resumeState, tec := 0, recCnt := 0, passive := false }) s1

/-- The function of region k stops; it shows `st`, 2 pressing or 3 restoring. The W bits hold their last values (R110). -/
def regionStop (k : Nat) (st : BitVec 4) (s : State) : State :=
  if k < 2 then setRegion k st ([2 * k, 2 * k + 1].foldl portStop s)
  else if k = 2 then setRegion k st (captureDrop (wSet (wLive s) s))
  else setRegion k st (holdReflex s)

/-- Region k, read back correctly, starts its function again with the contents of a Mould. -/
def regionStart (k : Nat) (m : Mould) (r : MouldRest) (s : State) : State :=
  let s1 := setRegion k (if regionUsed m r k then 1 else 0) (swapRegion k m r s)
  if k < 2 then (if pdIs s 7 then [2 * k, 2 * k + 1].foldl (portStart m) s1 else pressTerms [2 * k, 2 * k + 1] m s1)
  else if k = 2 then (if s1.acq.sampling then samplingResume s1 else s1)
  else if inRunOrHalt s1 then reflexStart (showReflex r s1) else showReflex r s1

/-- The regions of a mask, ascending: 0 to 3 for bits 4 to 7. -/
def maskRegions (mask : Nat) : List Nat := (List.range 4).filter fun k => bitOf mask (4 + k)

/-- A re-press has made its application the active one (R111): an edit held till then, of the application before, is discarded with
cause 2, application activation (R207). No rule says when this cause arises; a trial that runs ends first, with reason 1, and no
bank is marked empty, as the one that held the edit is now the active one (DESIGN CHOICE, log 83). -/
def editSuperseded (s : State) : State :=
  if editHeld s then sj 0x255 0 (item 2) (editNone (abortTrial 1 s)) else s

/-- The re-press ended OK (R111), with the end of an edit held for the application before (R207). -/
def repressOk (x : Repress) (s : State) : State :=
  asyncDone 5 0 (editSuperseded (sj 0x123 0 (item 0 ++ item 0 ++ item 0) (showMould x.mould { s with
    upd := { s.upd with active := x.bank }
    mld := { s.mld with mould := some (x.mould, x.rest), repress := none, okCount := satInc s.mld.okCount } })))

/-- The re-press ended FAILED at a region (R112). The final status of the request is not stated: free (log 3). -/
def repressFailed (k restored : Nat) (s : State) : State :=
  asyncDoneFree 5 (sj 0x123 2 (item 1 ++ item (4 + k) ++ item restored)
    { s with mld := { s.mld with repress := none, failCount := satInc s.mld.failCount } })

/-- The old Mould: that of the active bank. -/
def oldMould (s : State) : Mould × MouldRest :=
  let img := (mouldCtx s.upd.active none s).img
  (mouldParse img, mouldRest img)

/-- The next region of a re-press, or its end. -/
def repressNext (x : Repress) (s : State) : State :=
  match x.todo, x.failed with
  | k :: _, none => regionStop k 2 { s with mld := { s.mld with repress := some x } }
  | k :: _, some f =>
    let s1 := { s with mld := { s.mld with repress := some x } }
    if k = f then setRegion k 3 s1 else regionStop k 3 s1
  | [], none => repressOk x s
  | [], some f => repressFailed f x.restored s

/-- An accepted REPRESS: SJ 0x0122 and the first region (R110). What a mask without regions does is not stated: the re-press
ends at once, OK (DESIGN CHOICE, log 69). -/
def beginRepress (mask : Nat) (bank : Bool) (m : Mould) (r : MouldRest) (s : State) : State :=
  repressNext { mould := m, rest := r, bank := bank, todo := maskRegions mask }
    (sj 0x122 0 (item mask ++ m.digest.take 8) s)

/-- REGION_PRESS_DONE. A region that cannot be restored is Safe Service; with region 7, the command standing then is held (R165). -/
def regionPressDone (ok : Bool) (s : State) : State :=
  match s.mld.repress with
  | none => s
  | some x =>
    match x.todo, x.failed with
    | [], _ => s
    | k :: ks, none =>
      if ok then repressNext { x with todo := ks, done := k :: x.done } (regionStart k x.mould x.rest s)
      else repressNext { x with todo := k :: x.done, failed := some k } s
    | k :: ks, some _ =>
      let old := oldMould s
      if ok then repressNext { x with todo := ks, restored := x.restored + 1 } (regionStart k old.1 old.2 s)
      else safeService 2 13 (setRegion k 4 (if k = 3 then holdCommand s else s))

/-- REGION_PRESS_DONE. -/
def execRegionPressDone (readbackOk : Bool) (s : State) : Result := .next (regionPressDone readbackOk s)

end Sys2Proof.Machine
end

