-- ==== Sys2Proof/Machine/Flags.lean ====
section
/-! DEFINITION. The word path's results and flag computations (R177, R179 to R187). -/

namespace Sys2Proof.Machine

/-- A result with the Z, N, C, V that it sets. -/
structure Res where
  val : Word
  z   : Bool
  n   : Bool
  c   : Bool
  v   : Bool
deriving DecidableEq, Repr

/-- A result whose Z and N describe the value (R177). -/
def resOf (val : Word) (c v : Bool) : Res := { val := val, z := val == 0, n := val.getLsbD 31, c := c, v := v }

/-- The bounds of a type: INT32 or UINT32. -/
def typeMin (signed : Bool) : Int := if signed then -2147483648 else 0
def typeMax (signed : Bool) : Int := if signed then 2147483647 else 4294967295

/-- Does the true result lie outside the type's range (R179)? -/
def outside (signed : Bool) (t : Int) : Bool := decide (t < typeMin signed) || decide (typeMax signed < t)

/-- The value written for a true result: its low 32 bits, or in SAT mode the nearest value of the range (R179). -/
def fitted (signed sat : Bool) (t : Int) : Word :=
  if sat ∧ outside signed t then BitVec.ofInt 32 (if t < typeMin signed then typeMin signed else typeMax signed)
  else BitVec.ofInt 32 t

/-- The value of an operand under a type. -/
def asInt (signed : Bool) (a : Word) : Int := if signed then a.toInt else a.toNat

/-- ADD and ADDU: C is the carry out of bit 31. -/
def resAdd (signed sat : Bool) (a b : Word) : Res :=
  let t := asInt signed a + asInt signed b
  resOf (fitted signed sat t) (decide (a.toNat + b.toNat ≥ 2 ^ 32)) (outside signed t)

/-- SUB and SUBU, and the comparisons: C is the borrow. -/
def resSub (signed sat : Bool) (a b : Word) : Res :=
  let t := asInt signed a - asInt signed b
  resOf (fitted signed sat t) (decide (a.toNat < b.toNat)) (outside signed t)

/-- MUL and MULU. -/
def resMul (signed sat : Bool) (a b : Word) : Res :=
  let t := asInt signed a * asInt signed b
  resOf (fitted signed sat t) false (outside signed t)

/-- DIV and DIVU by a divisor other than 0: truncation toward zero (R180). -/
def resDiv (signed sat : Bool) (a b : Word) : Res :=
  let t := (asInt signed a).tdiv (asInt signed b)
  resOf (fitted signed sat t) false (outside signed t)

/-- MOD and MODU by a divisor other than 0: the remainder has the dividend's sign (R180). -/
def resMod (signed : Bool) (a b : Word) : Res :=
  resOf (BitVec.ofInt 32 ((asInt signed a).tmod (asInt signed b))) false false

/-- The quotient of a division by 0 (R181). -/
def divZeroQuot (signed : Bool) (a : Word) : Word :=
  if signed then (if a.getLsbD 31 then 0x80000000 else 0x7FFFFFFF) else 0xFFFFFFFF

/-- NEG and ABS (R180). -/
def resNeg (sat : Bool) (a : Word) : Res := resOf (fitted true sat (-a.toInt)) false (outside true (-a.toInt))
def resAbs (sat : Bool) (a : Word) : Res :=
  let t : Int := a.toInt.natAbs
  resOf (fitted true sat t) false (outside true t)

/-- LOG class. -/
def resLog (val : Word) : Res := resOf val false false

/-- SHL (R182). -/
def resShl (a : Word) (c : Nat) : Res :=
  if c = 0 then resOf a false false
  else if c ≤ 32 then resOf (a <<< c) (a.getLsbD (32 - c)) false
  else resOf 0 false false

/-- SHR (R182). -/
def resShr (a : Word) (c : Nat) : Res :=
  if c = 0 then resOf a false false
  else if c ≤ 32 then resOf (a >>> c) (a.getLsbD (c - 1)) false
  else resOf 0 false false

/-- SAR (R182). -/
def resSar (a : Word) (c : Nat) : Res :=
  if c = 0 then resOf a false false
  else if c < 32 then resOf (a.sshiftRight c) (a.getLsbD (c - 1)) false
  else resOf (if a.getLsbD 31 then 0xFFFFFFFF else 0) (a.getLsbD 31) false

/-- ROL (R182). -/
def resRol (a : Word) (c : Nat) : Res :=
  let k := c % 32
  if k = 0 then resOf a false false else
    let r := a.rotateLeft k
    resOf r (r.getLsbD 0) false

/-- ROR (R182). -/
def resRor (a : Word) (c : Nat) : Res :=
  let k := c % 32
  if k = 0 then resOf a false false else
    let r := a.rotateRight k
    resOf r (r.getLsbD 31) false

/-- FLT class: Z for +0 or −0, N the sign bit. -/
def resFlt (val : Word) : Res :=
  { val := val, z := val &&& 0x7FFFFFFF == 0, n := val.getLsbD 31, c := false, v := false }

/-- ITOS (R185). -/
def resItos (sat : Bool) (a : Word) : Res :=
  let t := a.toInt
  if -32768 ≤ t ∧ t ≤ 32767 then resOf a false false
  else if sat then resOf (if t < 0 then 0xFFFF8000 else 0x7FFF) false true
  else resOf ((a.setWidth 16).signExtend 32) false true

/-- The sum of ACX and an addend: the new ACX and GOV (R186). -/
def acxSum (acx : BitVec 40) (addend : Int) : BitVec 40 × Bool :=
  let t := acx.toInt + addend
  if -(2 ^ 39 : Int) ≤ t ∧ t ≤ 2 ^ 39 - 1 then (BitVec.ofInt 40 t, false)
  else (BitVec.ofInt 40 (if t > 0 then 2 ^ 39 - 1 else -(2 ^ 39 - 1)), true)

/-- SARX (R187). -/
def acxSar (acx : BitVec 40) (c : Nat) : BitVec 40 :=
  if c ≥ 40 then (if acx.getLsbD 39 then BitVec.allOnes 40 else 0) else acx.sshiftRight c

/-- What STX stores (R187). -/
def resStx (acx : BitVec 40) : Res :=
  let t := acx.toInt
  if -2147483648 ≤ t ∧ t ≤ 2147483647 then resOf (acx.setWidth 32) false false
  else resOf (if t > 0 then 0x7FFFFFFF else 0x80000000) false true

end Sys2Proof.Machine
end

