-- ==== Sys2Proof/Machine/WordPath.lean ====
section
/-! DEFINITION. The word path (R170, R174 to R187): one meaning per word-path and escape instruction but CALLSB. -/

namespace Sys2Proof.Machine

/-- Operand rules of R174, R178: a readable or writable element of width w at a fixed INDEX. -/
def elemReadable (w : Nat) (a : Area) (i : Nat) (s : State) : Bool := readable a && elemFits s a w i
def elemWritable (w : Nat) (a : Area) (i : Nat) (s : State) : Bool := writable a && elemFits s a w i

/-- An element read, with the parity of its image-memory word checked (R159). -/
def fetchElem (w : Nat) (a : Area) (e : Nat) (s : State) : Except (LapFault × State) Nat :=
  if imageArea a && s.bu.badParity.contains (a, e * w / 32) then .error (.parity a (e * w / 32), s) else .ok (elemRead s a w e)

/-- An element as a register value: a 16-bit element is sign-extended. -/
def loaded (w v : Nat) : Word := if w = 16 then (BitVec.ofNat 16 v).signExtend 32 else BitVec.ofNat 32 v

/-- ACC1 and ACC2 written. -/
def setAcc1 (v : Word) (s : State) : State := { s with bx := { s.bx with acc1 := v } }
def setAcc2 (v : Word) (s : State) : State := { s with bx := { s.bx with acc2 := v } }

/-- Z, N, C and V written; VS becomes VS or V (R177). -/
def setFlags (r : Res) (s : State) : State :=
  { s with bx := { s.bx with z := r.z, n := r.n, c := r.c, v := r.v, vs := s.bx.vs || r.v } }

/-- A result written to ACC1 with its flags. -/
def putRes (r : Res) (s : State) : State := setAcc1 r.val (setFlags r s)

/-- FE is set where an operand or the result is an infinity or a NaN (R183). -/
def noteFe (special : Bool) (s : State) : State := { s with bx := { s.bx with fe := s.bx.fe || special } }

/-- A load of ACC1 or ACC2 from a fixed element. -/
def runLoad (mn : String) (w : Nat) (put : Word → State → State) (a : Area) (index : BitVec 20) (s : State) : Result :=
  checked mn (elemReadable w a index.toNat) (runSeq countWord 1 fun t => do
    return put (loaded w (← fetchElem w a index.toNat t)) t) s

/-- A store of a value at a fixed element. -/
def runStoreW (mn : String) (w : Nat) (a : Area) (index : BitVec 20) (s : State) : Result :=
  checked mn (elemWritable w a index.toNat)
    (runSeq countWord 1 fun t => .ok (elemWrite a w index.toNat t.bx.acc1.toNat t)) s

/-- An indexed load: element INDEX + ACC1 (R175). -/
def runLoadX (mn : String) (w : Nat) (a : Area) (index : BitVec 20) (s : State) : Result :=
  checked mn (fun _ => readable a) (runSeq countWord 1 fun t =>
    let e := indexAt index t.bx.acc1
    if elemFits t a w e then do return setAcc1 (loaded w (← fetchElem w a e t)) t else .error (.indexRange, t)) s

/-- An indexed store: element INDEX + ACC2 (R175); 0x0213 for an area that R137 makes read-only (R135, log 21). -/
def runStoreX (mn : String) (w : Nat) (a : Area) (index : BitVec 20) (s : State) : Result :=
  checked mn (fun _ => readable a) (runSeq countWord 1 fun t =>
    let e := indexAt index t.bx.acc2
    if !writable a then .error (.writeProtected, t)
    else if elemFits t a w e then .ok (elemWrite a w e t.bx.acc1.toNat t) else .error (.indexRange, t)) s

/-- An operation on the registers alone that cannot fault. -/
def runReg (f : State → State) (s : State) : Result := runSeq countWord 1 (fun t => .ok (f t)) s

/-- A binary operation ACC1 op ACC2 under the block's mode. -/
def runBin (f : Bool → Word → Word → Res) (s : State) : Result :=
  runReg (fun t => putRes (f (satMode t) t.bx.acc1 t.bx.acc2) t) s

/-- A shift or rotate of ACC1 by ACC2 bits [7:0] (R176, R182). -/
def runShift (f : Word → Nat → Res) (s : State) : Result :=
  runReg (fun t => putRes (f t.bx.acc1 (t.bx.acc2.toNat % 256)) t) s

/-- A division: by 0 a trap in a TRAP_DZ block, else DZ and the pinned result of R181. -/
def runDiv (quot : Word → Word) (f : Bool → Word → Word → Res) (s : State) : Result :=
  runSeq countWord 1 (fun t =>
    if t.bx.acc2 = 0 then
      if trapDz t then .error (.divideTrap, t)
      else
        let u := putRes (resOf (quot t.bx.acc1) false false) t
        .ok { u with bx := { u.bx with dz := true, dzCount := satInc u.bx.dzCount } }
    else .ok (putRes (f (satMode t) t.bx.acc1 t.bx.acc2) t)) s

/-- A comparison of the CMP class: BA, FC 0, and the flags of ACC1 − ACC2, formed as SUB or SUBU under the block's
mode (R177, log 22). -/
def runCmp (signed : Bool) (rel : Int → Int → Bool) (s : State) : Result :=
  runReg (fun t =>
    setBa (rel (asInt signed t.bx.acc1) (asInt signed t.bx.acc2))
      (setFlags (resSub signed (satMode t) t.bx.acc1 t.bx.acc2) t)) s

/-- A REAL32 comparison: Z equal, N less, C 0, V 0; a NaN gives `nan` and neither Z nor N (R178, R183). -/
def runCmpR (nan : Bool) (rel : Bool → Bool → Bool) (s : State) : Result :=
  runReg (fun t =>
    let a := t.bx.acc1
    let b := t.bx.acc2
    let c := realCmp a b
    let less := (c.map Prod.fst).getD false
    let equal := (c.map Prod.snd).getD false
    let ba := if c.isNone then nan else rel less equal
    setBa ba (noteFe (realSpecial a || realSpecial b)
      (setFlags { val := 0, z := equal, n := less, c := false, v := false } t))) s

/-- A REAL32 operation of two operands (FLT class). -/
def runBinR (f : Word → Word → Word) (s : State) : Result :=
  runReg (fun t =>
    let a := t.bx.acc1
    let b := t.bx.acc2
    let r := f a b
    noteFe (realSpecial a || realSpecial b || realSpecial r) (putRes (resFlt r) t)) s

/-- A REAL32 operation of one operand (FLT class). -/
def runUnR (f : Word → Word) (s : State) : Result :=
  runReg (fun t =>
    let a := t.bx.acc1
    let r := f a
    noteFe (realSpecial a || realSpecial r) (putRes (resFlt r) t)) s

/-- A conversion to REAL32 (FLT class): the operand is an integer. -/
def runToR (f : Word → Word) (s : State) : Result := runReg (fun t => putRes (resFlt (f t.bx.acc1)) t) s

/-- A conversion from REAL32 (CNV class, R184). -/
def runFromR (nearest : Bool) (s : State) : Result :=
  runReg (fun t =>
    let a := t.bx.acc1
    let (r, v) := realToInt nearest a
    noteFe (realSpecial a) (putRes (resOf r false v) t)) s

/-- ADDX and MACX (R186): nothing while GOV is 1. -/
def runAcx (addend : State → Int) (s : State) : Result :=
  runReg (fun t =>
    if t.bx.gov then t
    else
      let (x, g) := acxSum t.bx.acx (addend t)
      { t with bx := { t.bx with acx := x, gov := g } }) s

/-- L32. -/
def execL32 (a : Area) (index : BitVec 20) (s : State) : Result := runLoad "L32" 32 setAcc1 a index s
/-- L16. -/
def execL16 (a : Area) (index : BitVec 20) (s : State) : Result := runLoad "L16" 16 setAcc1 a index s
/-- ST32. -/
def execSt32 (a : Area) (index : BitVec 20) (s : State) : Result := runStoreW "ST32" 32 a index s
/-- ST16. -/
def execSt16 (a : Area) (index : BitVec 20) (s : State) : Result := runStoreW "ST16" 16 a index s
/-- LX32. -/
def execLx32 (a : Area) (index : BitVec 20) (s : State) : Result := runLoadX "LX32" 32 a index s
/-- LX16. -/
def execLx16 (a : Area) (index : BitVec 20) (s : State) : Result := runLoadX "LX16" 16 a index s
/-- SX32. -/
def execSx32 (a : Area) (index : BitVec 20) (s : State) : Result := runStoreX "SX32" 32 a index s
/-- SX16. -/
def execSx16 (a : Area) (index : BitVec 20) (s : State) : Result := runStoreX "SX16" 16 a index s
/-- LI. -/
def execLi (imm : BitVec 24) (s : State) : Result := runReg (setAcc1 (imm.signExtend 32)) s
/-- LIH. -/
def execLih (imm : BitVec 16) (s : State) : Result :=
  runReg (fun t => setAcc1 (imm ++ t.bx.acc1.setWidth 16) t) s
/-- SWAP. -/
def execSwap (s : State) : Result := runReg (fun t => setAcc2 t.bx.acc1 (setAcc1 t.bx.acc2 t)) s
/-- DUP. -/
def execDup (s : State) : Result := runReg (fun t => setAcc2 t.bx.acc1 t) s
/-- LO32. -/
def execLo32 (a : Area) (index : BitVec 20) (s : State) : Result := runLoad "LO32" 32 setAcc2 a index s
/-- LO16. -/
def execLo16 (a : Area) (index : BitVec 20) (s : State) : Result := runLoad "LO16" 16 setAcc2 a index s
/-- LIO. -/
def execLio (imm : BitVec 24) (s : State) : Result := runReg (setAcc2 (imm.signExtend 32)) s
/-- ADD. -/
def execAdd (s : State) : Result := runBin (resAdd true) s
/-- SUB. -/
def execSub (s : State) : Result := runBin (resSub true) s
/-- MUL. -/
def execMul (s : State) : Result := runBin (resMul true) s
/-- DIV. -/
def execDiv (s : State) : Result := runDiv (divZeroQuot true) (resDiv true) s
/-- MOD: by 0 it gives the dividend (R181). -/
def execMod (s : State) : Result := runDiv (fun a => a) (fun _ => resMod true) s
/-- NEG. -/
def execNeg (s : State) : Result := runBin (fun sat a _ => resNeg sat a) s
/-- ABS. -/
def execAbs (s : State) : Result := runBin (fun sat a _ => resAbs sat a) s
/-- ADDU. -/
def execAddu (s : State) : Result := runBin (resAdd false) s
/-- SUBU. -/
def execSubu (s : State) : Result := runBin (resSub false) s
/-- MULU. -/
def execMulu (s : State) : Result := runBin (resMul false) s
/-- DIVU. -/
def execDivu (s : State) : Result := runDiv (divZeroQuot false) (resDiv false) s
/-- MODU. -/
def execModu (s : State) : Result := runDiv (fun a => a) (fun _ => resMod false) s
/-- AND of the word path. -/
def execWordAnd (s : State) : Result := runBin (fun _ a b => resLog (a &&& b)) s
/-- OR of the word path. -/
def execWordOr (s : State) : Result := runBin (fun _ a b => resLog (a ||| b)) s
/-- XOR of the word path. -/
def execWordXor (s : State) : Result := runBin (fun _ a b => resLog (a ^^^ b)) s
/-- INV. -/
def execInv (s : State) : Result := runBin (fun _ a _ => resLog (~~~a)) s
/-- SHL. -/
def execShl (s : State) : Result := runShift resShl s
/-- SHR. -/
def execShr (s : State) : Result := runShift resShr s
/-- SAR. -/
def execSar (s : State) : Result := runShift resSar s
/-- ROL. -/
def execRol (s : State) : Result := runShift resRol s
/-- ROR. -/
def execRor (s : State) : Result := runShift resRor s
/-- EQ. -/
def execEq (s : State) : Result := runCmp true (fun a b => decide (a = b)) s
/-- NE. -/
def execNe (s : State) : Result := runCmp true (fun a b => decide (a ≠ b)) s
/-- LT. -/
def execLt (s : State) : Result := runCmp true (fun a b => decide (a < b)) s
/-- LE. -/
def execLe (s : State) : Result := runCmp true (fun a b => decide (a ≤ b)) s
/-- GT. -/
def execGt (s : State) : Result := runCmp true (fun a b => decide (a > b)) s
/-- GE. -/
def execGe (s : State) : Result := runCmp true (fun a b => decide (a ≥ b)) s
/-- LTU. -/
def execLtu (s : State) : Result := runCmp false (fun a b => decide (a < b)) s
/-- LEU. -/
def execLeu (s : State) : Result := runCmp false (fun a b => decide (a ≤ b)) s
/-- GTU. -/
def execGtu (s : State) : Result := runCmp false (fun a b => decide (a > b)) s
/-- GEU. -/
def execGeu (s : State) : Result := runCmp false (fun a b => decide (a ≥ b)) s
/-- EQR. -/
def execEqr (s : State) : Result := runCmpR false (fun _ e => e) s
/-- NER: a NaN gives 1. -/
def execNer (s : State) : Result := runCmpR true (fun _ e => !e) s
/-- LTR. -/
def execLtr (s : State) : Result := runCmpR false (fun l _ => l) s
/-- LER. -/
def execLer (s : State) : Result := runCmpR false (fun l e => l || e) s
/-- GTR. -/
def execGtr (s : State) : Result := runCmpR false (fun l e => !l && !e) s
/-- GER. -/
def execGer (s : State) : Result := runCmpR false (fun l _ => !l) s
/-- ADDR. -/
def execAddr (s : State) : Result := runBinR realAdd s
/-- SUBR. -/
def execSubr (s : State) : Result := runBinR realSub s
/-- MULR. -/
def execMulr (s : State) : Result := runBinR realMul s
/-- DIVR: a finite non-zero value by ±0 also sets DZ and never traps (R183). -/
def execDivr (s : State) : Result :=
  runReg (fun t =>
    let a := t.bx.acc1
    let b := t.bx.acc2
    let r := realDiv a b
    let u := noteFe (realSpecial a || realSpecial b || realSpecial r) (putRes (resFlt r) t)
    { u with bx := { u.bx with dz := u.bx.dz || realDivZero a b } }) s
/-- NEGR. -/
def execNegr (s : State) : Result := runUnR realNeg s
/-- ABSR. -/
def execAbsr (s : State) : Result := runUnR realAbs s
/-- SQRTR. -/
def execSqrtr (s : State) : Result := runUnR realSqrt s
/-- ITOR. -/
def execItor (s : State) : Result := runToR realOfSigned s
/-- UTOR. -/
def execUtor (s : State) : Result := runToR realOfUnsigned s
/-- RTOI. -/
def execRtoi (s : State) : Result := runFromR true s
/-- RTOIT. -/
def execRtoit (s : State) : Result := runFromR false s
/-- ITOS. -/
def execItos (s : State) : Result := runBin (fun sat a _ => resItos sat a) s
/-- CLRX. -/
def execClrx (s : State) : Result := runReg (fun t => { t with bx := { t.bx with acx := 0, gov := false } }) s
/-- ADDX. -/
def execAddx (s : State) : Result := runAcx (fun t => t.bx.acc1.toInt) s
/-- MACX. -/
def execMacx (s : State) : Result :=
  runAcx (fun t => (t.bx.acc1.setWidth 16).toInt * (t.bx.acc2.setWidth 16).toInt) s
/-- SARX. -/
def execSarx (s : State) : Result :=
  runReg (fun t =>
    if t.bx.gov then t else { t with bx := { t.bx with acx := acxSar t.bx.acx (t.bx.acc2.toNat % 256) } }) s
/-- STX. -/
def execStx (a : Area) (index : BitVec 20) (s : State) : Result :=
  checked "STX" (elemWritable 32 a index.toNat) (runReg fun t =>
    let r := resStx t.bx.acx
    elemWrite a 32 index.toNat r.val.toNat (setFlags r t)) s
/-- CLRF. -/
def execClrf (s : State) : Result :=
  runReg (fun t => { t with bx := { t.bx with vs := false, dz := false, fe := false } }) s
/-- LDF. -/
def execLdf (s : State) : Result := runReg (fun t => setAcc1 ((flagWord t.bx).setWidth 32) t) s
/-- TSTF. -/
def execTstf (bit : BitVec 3) (s : State) : Result :=
  runReg (fun t => setBa ((flagWord t.bx).getLsbD bit.toNat) t) s

/-- A call of an existing FUNC block: lap fault 0x0211 at call level 32 (R170). -/
def callOp (n : Nat) (s : State) : Lapped :=
  if s.bx.level.toNat ≥ 32 then .error (.callDepth, s) else .ok (enterFunc n s)

/-- Does FUNC number n exist in the executing program? -/
def funcExists (n : Nat) (s : State) : Bool := (findBlock (execProgram s) 1 n).isSome

/-- CALL: a number without a FUNC block fails verification (R188). -/
def execCall (number : BitVec 20) (s : State) : Result :=
  checked "CALL" (funcExists number.toNat) (runCtl countWord (callOp number.toNat)) s
/-- CALLI: a number that names no FUNC block is lap fault 0x0212 (R178). -/
def execCalli (s : State) : Result :=
  runCtl countWord (fun t =>
    if funcExists t.bx.acc1.toNat t then callOp t.bx.acc1.toNat t else .error (.indexRange, t)) s
/-- RET. -/
def execRet (s : State) : Result := runCtl countWord (fun t => .ok (settle 33 (blockEnds (noteSeen t)))) s
/-- RETC. -/
def execRetc (s : State) : Result :=
  runCtl countWord (fun t => .ok (if t.bu.ba then settle 33 (blockEnds (noteSeen t)) else advance 1 (noteSeen t))) s
/-- LK: the literal is the following word; execution goes on after it. -/
def execLk (literal : Word) (s : State) : Result := runSeq countWord 2 (fun t => .ok (setAcc1 literal t)) s

end Sys2Proof.Machine
end

