-- ==== Sys2Proof/Machine/SysBlocks.lean ====
section
/-! DEFINITION. The system blocks as a program calls them: argument records, timers, counters, values fixed at input
freeze or housekeeping, and the actions that wait for commit (R64, R141 to R143, R150, R166, R172, R173, R249, R277,
R309, R325, R360, R425). -/

namespace Sys2Proof.Machine

/-- What one call does: the state after it; its results, or none where the call has no effect; and V. -/
structure SbResult where
  state   : State
  results : Option (List Word) := some []
  v       : Bool := false

/-- A call without effect that sets V. Its result words stay as they stand (log 53). -/
def sbRefused (s : State) : SbResult := { state := s, results := none, v := true }

/-- An action that waits for commit (R125 (c), R129). -/
def queueAction (a : Action) (s : State) : State := { s with ctx := { s.ctx with actions := s.ctx.actions ++ [a] } }

/-- A truth value as a word (R172). -/
def boolWord (b : Bool) : Word := if b then 1 else 0

/-! ### Timers (R141, R142) -/

/-- A PT at or below 0 is 0 (R141). The argument word is signed, so that none is above 2^31 − 1 (DEDUCED, log 53). -/
def presetOf (pt : Word) : Word := if pt.toInt ≤ 0 then 0 else pt

/-- A timer as its call finds it: one restored takes start := NOW_MS − ET at its first call (R149). -/
def timerAtCall (now : Word) (t : Timer) : Timer :=
  if t.restored then { t with restored := false, start := if t.run then now - t.et else t.start } else t

/-- TON: the pseudocode of R141. -/
def tonStep (now : Word) (inp : Bool) (pt : Word) (t : Timer) : Timer :=
  let a := if !inp then { t with run := false, et := 0, q := false }
           else if !t.run && !t.q then { t with run := true, start := now } else t
  if a.run then
    let e := now - a.start
    if pt ≤ e then { a with et := pt, q := true, run := false } else { a with et := e }
  else a

/-- TOF. -/
def tofStep (now : Word) (inp : Bool) (pt : Word) (t : Timer) : Timer :=
  let a := if inp then { t with q := true, run := false, et := 0 }
           else if t.q && !t.run then { t with run := true, start := now } else t
  if a.run then
    let e := now - a.start
    if pt ≤ e then { a with et := pt, q := false, run := false } else { a with et := e }
  else a

/-- TP. ET returns to 0 when IN is 0 and no pulse runs, in the call that ends the pulse too (DESIGN CHOICE, log 53). -/
def tpStep (now : Word) (inp : Bool) (pt : Word) (t : Timer) : Timer :=
  let a := if inp && !t.inp && !t.q then { t with q := true, run := true, start := now, et := 0 } else t
  let b :=
    if a.run then
      let e := now - a.start
      if pt ≤ e then { a with et := pt, q := false, run := false } else { a with et := e }
    else a
  if !b.q && !b.run && !inp then { b with et := 0 } else b

/-- A timer replaced. -/
def setTimer (n : Nat) (t : Timer) (s : State) : State :=
  lapWrites (11264 + 16 * n) 16 (setImg { imgOf s with timers := sput {} (imgOf s).timers n t } s)

/-- A call of SB 0 to SB 2: n, IN, PT; ET, Q. A number reserved for a pair has no effect and sets V (R235). -/
def sbTimer (f : Word → Bool → Word → Timer → Timer) (args : List Word) (s : State) : SbResult :=
  let n := (nth 0 args 0).toNat
  if n ≥ 4096 ∨ timerReserved s n then sbRefused s
  else
    let inp := decide (nth 0 args 1 ≠ 0)
    let t := { f s.lap.nowMs inp (presetOf (nth 0 args 2)) (timerAtCall s.lap.nowMs (timerOf s n)) with inp := inp }
    { state := setTimer n t s, results := some [t.et, boolWord t.q] }

/-! ### Counters (R143) -/

/-- One call of a counter: mode DOWN, count input, R, LD, PV. -/
def counterStep (down cin r ld : Bool) (pv : Word) (c : Counter) : Counter :=
  let counted :=
    if cin && !c.cin then
      (if down then (if c.cv = 0x80000000 then c.cv else c.cv - 1) else (if c.cv = 0x7FFFFFFF then c.cv else c.cv + 1))
    else c.cv
  let cv := if ld then pv else if r then 0 else counted
  { cv := cv, cin := cin, done := if down then decide (cv.toInt ≤ 0) else decide (pv.toInt ≤ cv.toInt) }

/-- A call of SB 3: n, mode (0 UP, 1 DOWN), count input, R, LD, PV; CV, done bit (log 53). -/
def sbCounter (args : List Word) (s : State) : SbResult :=
  let n := (nth 0 args 0).toNat
  if n ≥ 2048 ∨ 1 < (nth 0 args 1).toNat then sbRefused s
  else
    let on := fun k => decide (nth 0 args k ≠ 0)
    let c := counterStep (decide (nth 0 args 1 = 1)) (on 2) (on 3) (on 4) (nth 0 args 5) (counterOf s n)
    { state := lapWrites (76800 + 8 * n) 8 (setImg { imgOf s with counters := sput {} (imgOf s).counters n c } s)
      results := some [c.cv, boolWord c.done] }

/-! ### Values fixed at input freeze or housekeeping -/

/-- SB 4 LAP_INFO: lap number, NOW_MS, T_lap, duration of the previous lap (R150). -/
def sbLapInfo (s : State) : SbResult :=
  { state := s
    results := some [s.lap.num.setWidth 32, s.lap.nowMs, BitVec.ofNat 32 (((restOf s).map MouldRest.tLap).getD 0), s.ctx.prevUs] }

/-- SB 5 EVENT_INFO: count, TAG, TS, LOST inside an event block; zeros elsewhere (R130, R150). -/
def sbEventInfo (s : State) : SbResult :=
  let e := s.ctx.current.getD {}
  { state := s, results := some [BitVec.ofNat 32 e.count, e.tag, e.ts, boolWord e.lost] }

/-- SB 7 RTC_READ: the fields of the reading in the order of R211, then OSF and LBV (R150, log 53). -/
def sbRtcRead (s : State) : SbResult :=
  let t := s.ctx.rtc
  { state := s
    results := some (([t.year, t.month, t.day, t.hour, t.minute, t.second, t.weekday].map (BitVec.ofNat 32)) ++
      [boolWord s.ctx.rtcOsf, boolWord s.ctx.rtcLbv]) }

/-- SB 16 FIELD_STATUS: DI_OPEN, GRP_STATUS, DO_LOCK, DO_OPEN, DO_GRP as of input freeze (R64). -/
def sbFieldStatus (s : State) : SbResult := { state := s, results := some ((List.range 5).map fun k => nth 0 s.ctx.field k) }

/-- SB 18 SAFE_STATUS: RESULT, FAULT, READY as evaluated at this lap's housekeeping (R249). -/
def sbSafeStatus (s : State) : SbResult :=
  { state := s
    results := some [s.ctx.pairResult.setWidth 32, s.ctx.pairFault.setWidth 32, s.ctx.pairReady.setWidth 32] }

/-! ### Actions -/

/-- A call whose arguments are in range queues an action; else it has no effect and sets V. -/
def sbAct (ok : Bool) (a : Action) (s : State) : SbResult := if ok then { state := queueAction a s } else sbRefused s

/-- SB 17 DO_ACK: bits above 15 name no output; they are ignored and set V (log 53). -/
def sbDoAck (m : Word) (s : State) : SbResult :=
  { state := queueAction (.doAck (m.setWidth 16)) s, v := decide (65536 ≤ m.toNat) }

/-- The enabled pairs as a mask. -/
def pairsEnabled (s : State) : Nat := maskOf 16 (pairEnabled s)

/-- SB 19 SAFE_ACK: bits of pairs with MODE 0 are ignored and set V (R240). -/
def sbSafeAck (m : Word) (s : State) : SbResult :=
  let on : Word := BitVec.ofNat 32 (pairsEnabled s)
  { state := queueAction (.safeAck ((m &&& on).setWidth 16)) s, v := decide (m &&& ~~~on ≠ 0) }

/-- Does port p have a controller, and is it a Beacon bus (R309)? With PD7 off no port has one (DESIGN CHOICE, log 96). -/
def sbPort (s : State) (p : Word) : Bool := decide (p.toNat < 4) && lbThere s p.toNat
def sbBeacon (s : State) (p : Word) : Bool := sbPort s p && (lbCfg s p.toNat).beacon

/-- SB 21 LB_FILTER: PORT, TABLE, COUNT. -/
def sbLbFilter (port table count : Word) (s : State) : SbResult :=
  let bs := dataRead (dBase s + table.toNat) (16 * count.toNat) s
  let ok := sbPort s port && decide (table.toNat % 4 = 0) && decide (count.toNat ≤ 256) &&
    decide (table.toNat + 16 * count.toNat ≤ dBytes s)
  sbAct (ok && (loadSlots bs).all filterOk) (.lbFilter port.toNat bs) s

/-- SB 22 LB_SEND: PORT, ID word, LEN, DATA. -/
def sbLbSend (port id len dat : Word) (s : State) : SbResult :=
  let ok := sbPort s port && decide (len.toNat ≤ 64) && decide (dat.toNat + len.toNat ≤ dBytes s)
  sbAct ok (.lbSend port.toNat id (dataRead (dBase s + dat.toNat) (min 64 len.toNat) s)) s

/-- The plan fields' ranges (R299). -/
def planRanges : List (Nat × Nat) := [(0, 1), (1, 365), (5, 600), (28, 1095), (10, 480), (5, 50), (0, 23), (0, 72)]

/-- SB 23 BEACON_PLAN: PORT and the eight plan fields. -/
def sbBeaconPlan (args : List Word) (s : State) : SbResult :=
  let fs := (args.drop 1).map BitVec.toNat
  let ok := (fs.zip planRanges).all fun x => decide (x.2.1 ≤ x.1) && decide (x.1 ≤ x.2.2)
  sbAct (sbBeacon s (nth 0 args 0) && ok) (.beaconPlan (nth 0 args 0).toNat fs) s

/-- SB 24 LB_SLEEP: PORT, ACTION, SLEEP_20S. -/
def sbLbSleep (port action n : Word) (s : State) : SbResult :=
  let ok := sbBeacon s port && (decide (action = 1) || decide (action = 2)) && decide (1 ≤ n.toNat) && decide (n.toNat ≤ 4320)
  sbAct ok (if action = 1 then .lbSleep port.toNat n.toNat else .lbWake port.toNat) s

/-- SB 25 PFX_LOAD: TABLE, COUNT (R325). -/
def sbPfxLoad (table count : Word) (s : State) : SbResult :=
  let inRange := decide (table.toNat % 16 = 0) && decide (count.toNat ≤ 512) && decide (table.toNat + 16 * count.toNat ≤ dBytes s)
  let bs := dataRead (dBase s + table.toNat) (16 * min 512 count.toNat) s
  let bss := loadSlots bs
  sbAct (inRange && bss.all slotImageOk && loadComplete bss) (.pfxLoad bs) s

/-- SB 26 MB_WRITE_EN: other mask bits set V (R360). -/
def sbMbWriteEn (m : Word) (s : State) : SbResult :=
  { state := queueAction (.mbWriteEn (m.setWidth 2)) s, v := decide (3 < m.toNat) }

/-- SB 27 ENC_SET (R425). -/
def sbEncSet (c : Word) (s : State) : SbResult :=
  sbAct (decide (-32767 ≤ c.toInt) && decide (c.toInt ≤ 32767)) (.encSet c.toInt) s

/-! ### The call (R172, R173) -/

/-- The argument and result words of a system block's record. -/
def sbShape (n : Nat) : Nat × Nat :=
  nth (0, 0) [(3, 2), (3, 2), (3, 2), (6, 2), (0, 4), (0, 4), (1, 0), (0, 9), (2, 0), (0, 0), (0, 0), (0, 0), (0, 0),
    (0, 0), (0, 0), (0, 0), (0, 5), (1, 0), (0, 3), (1, 0), (0, 0), (3, 0), (4, 0), (9, 0), (3, 0), (2, 0), (1, 0),
    (1, 0), (0, 0)] n

/-- The effect of system block n on its arguments. -/
def sbEffect (n : Nat) (args : List Word) (s : State) : SbResult :=
  let a := fun k => nth 0 args k
  match n with
  | 0 => sbTimer tonStep args s
  | 1 => sbTimer tofStep args s
  | 2 => sbTimer tpStep args s
  | 3 => sbCounter args s
  | 4 => sbLapInfo s
  | 5 => sbEventInfo s
  | 6 => sbAct (decide (16 ≤ (a 0).toNat) && decide ((a 0).toNat ≤ 31)) (.raise (a 0).toNat) s
  | 7 => sbRtcRead s
  | 8 => { state := queueAction (.reflexEn (a 0) (a 1)) s }
  | 16 => sbFieldStatus s
  | 17 => sbDoAck (a 0) s
  | 18 => sbSafeStatus s
  | 19 => sbSafeAck (a 0) s
  | 20 => { state := queueAction .mwTrigger s }
  | 21 => sbLbFilter (a 0) (a 1) (a 2) s
  | 22 => sbLbSend (a 0) (a 1) (a 2) (a 3) s
  | 23 => sbBeaconPlan args s
  | 24 => sbLbSleep (a 0) (a 1) (a 2) s
  | 25 => sbPfxLoad (a 0) (a 1) s
  | 26 => sbMbWriteEn (a 0) s
  | 27 => sbEncSet (a 0) s
  | 28 => { state := queueAction .panelLock s }
  | _ => sbRefused s

/-- A call of system block n: its record at ACC1, its results, ACC2, ACC1 and V (R172, R173). -/
def sbCall (n : Nat) (s : State) : Lapped :=
  let off := s.bx.acc1.toNat
  let (ni, no) := sbShape n
  if off % 4 ≠ 0 ∨ dBytes s < off + 4 * (ni + no) then .error (.indexRange, s)
  else
    let r := sbEffect n ((List.range ni).map fun k => recWord s (off + 4 * k)) s
    let t := match r.results with
      | some ws => recPut (off + 4 * ni) ws r.state
      | none => r.state
    let first := if no = 0 then 0 else recWord t (off + 4 * ni)
    .ok { t with bx := { t.bx with acc2 := s.bx.acc1, acc1 := first, v := r.v, vs := t.bx.vs || r.v } }

/-- One CALLSB instruction that names block n. -/
def runSb (n : Nat) (s : State) : Result := runSeq countWord 1 (sbCall n) s

/-- CALLSB (R172): a block that the Tested Set does not provide is rejected by the verifier (R188, 0x0A). -/
def execCallsb (number : BitVec 7) (s : State) : Result :=
  checked "CALLSB" (fun _ => sysBlockKnown number.toNat) (runSb number.toNat) s
/-- SB 0. -/
def execTon (s : State) : Result := runSb 0 s
/-- SB 1. -/
def execTof (s : State) : Result := runSb 1 s
/-- SB 2. -/
def execTp (s : State) : Result := runSb 2 s
/-- SB 3. -/
def execCounter (s : State) : Result := runSb 3 s
/-- SB 4. -/
def execLapInfo (s : State) : Result := runSb 4 s
/-- SB 5. -/
def execEventInfo (s : State) : Result := runSb 5 s
/-- SB 6. -/
def execRaise (s : State) : Result := runSb 6 s
/-- SB 7. -/
def execRtcRead (s : State) : Result := runSb 7 s
/-- SB 8. -/
def execReflexEn (s : State) : Result := runSb 8 s
/-- SB 16. -/
def execFieldStatus (s : State) : Result := runSb 16 s
/-- SB 17. -/
def execDoAck (s : State) : Result := runSb 17 s
/-- SB 18. -/
def execSafeStatus (s : State) : Result := runSb 18 s
/-- SB 19. -/
def execSafeAck (s : State) : Result := runSb 19 s
/-- SB 20. -/
def execMwTrigger (s : State) : Result := runSb 20 s
/-- SB 21. -/
def execLbFilter (s : State) : Result := runSb 21 s
/-- SB 22. -/
def execLbSend (s : State) : Result := runSb 22 s
/-- SB 23. -/
def execBeaconPlan (s : State) : Result := runSb 23 s
/-- SB 24. -/
def execLbSleep (s : State) : Result := runSb 24 s
/-- SB 24 with ACTION 2. -/
def execLbWake (s : State) : Result := runSb 24 s
/-- SB 25. -/
def execPfxLoad (s : State) : Result := runSb 25 s
/-- SB 26. -/
def execMbWriteEn (s : State) : Result := runSb 26 s
/-- SB 27. -/
def execEncSet (s : State) : Result := runSb 27 s
/-- SB 28. -/
def execPanelLock (s : State) : Result := runSb 28 s

end Sys2Proof.Machine
end

