-- ==== Sys2Proof/Machine/Lap.lean ====
section
/-! DEFINITION. The lap: freeze, housekeeping, execution's beginning, commit; the pacer's shadow and trial laps;
adoption and the baton at their laps (R125 to R134, R138 to R140, R197 to R205, R211 to R214, R230). -/

namespace Sys2Proof.Machine

/-- T_lap in ms of the pressed Mould. -/
def tLapMs (s : State) : Nat := ((restOf s).map MouldRest.tLap).getD 1

/-- Is an event type enabled by EVENT_MASK (R131)? -/
def eventOn (s : State) (t : Nat) : Bool := (((restOf s).map MouldRest.eventMask).getD 0).getLsbD t

/-! ### Input freeze (R126, R138) -/

/-- The S bits of R138. -/
def sBits (s : State) : BitVec 1024 :=
  BitVec.ofNat 1024 (b2n s.ctx.firstLap + 2 + 8 * b2n (decide (s.power.role = .solo)) +
    16 * b2n (decide (s.power.role = .leader)) + 32 * b2n (decide (s.power.role = .leader) && tracking s) +
    64 * b2n s.ctx.haltResumed + 128 * b2n s.ctx.tornFlag + 256 * b2n s.lap.overran + 512 * b2n s.power.pfw +
    1024 * b2n (rtcTrusted s) + 2048 * b2n s.ctx.editFirst)

/-- The unit's own sources latched at the freeze instant, and P_LEN. -/
def freezeOwn (s : State) : State × Nat :=
  let ib := ((mouldOf s).map Mould.iBase).getD 0
  let frz : Frozen := { i := setField 0 ib 32 (diFiltered s).toNat, s := sBits s, p := s.frz.p, l := s.lb.lImage
                        k := s.pan.delivered.setWidth 32, w := wLive s }
  let s1 := { s with frz := frz, ctx := { s.ctx with field := fieldWords s } }
  let (s2, n) := freezeP s1
  (mbFreeze s2, n)

/-! ### Housekeeping (R130, R140, R234, R238) -/

/-- LAP.NOW_MS and the RTC reading captured; the duration of the previous lap for SB 4. -/
def captureTime (s : State) : State :=
  { s with
    lap := { s.lap with nowMs := BitVec.ofInt 32 (((s.clk.opUs : Int) - s.lap.nowBase) / 1000) }
    ctx := { s.ctx with rtc := s.rtc.time, rtcOsf := s.rtc.osf, rtcLbv := s.rtc.lbv, prevUs := BitVec.ofNat 32 s.lap.lastUs } }

/-- The TAG of the newest event of a type: a KEY ring that has dropped descriptors still gives the present encoder count (R419). -/
def newestTag (t : Nat) (lost : Bool) (tag : Word) (s : State) : Word :=
  if t = 13 ∧ lost then setField tag 16 16 (s.pan.enc % 65536).toNat else tag

/-- Ring Q0016 + t drained up to its producer index: what SB 5 gives, where at least one descriptor was drained. -/
def drainEvent (t : Nat) (s : State) : State × Option EventInfo :=
  let r := ringGet s (16 + t)
  let n := ringFill r
  if n = 0 then (s, none)
  else
    let d := descOf (dataRead (ringAddr r (r.pi - 1)) 16 s)
    (ringSet (16 + t) { r with ci := r.pi, lost := false } s,
      some { type := t, count := min n 65535, tag := newestTag t r.lost d.tag s, ts := d.ts, lost := r.lost })

/-- Every event ring drained; the events of enabled types. -/
def drainEvents (s : State) : State :=
  let (s1, es) := (List.range 32).foldl (fun (acc : State × List EventInfo) t =>
    match drainEvent t acc.1 with
    | (u, some e) => (u, if eventOn s t then acc.2 ++ [e] else acc.2)
    | (u, none) => (u, acc.2)) (s, [])
  { s1 with ctx := { s1.ctx with events := es } }

/-- An event that the lap sequencer adds to those drained, where its type is enabled. -/
def addEvent (e : EventInfo) (s : State) : State :=
  if eventOn s e.type then { s with ctx := { s.ctx with events := s.ctx.events ++ [e] } } else s

/-- Event type 10 in the first lap of an adopted edit and the first trial lap (R197, R202). Its TAG and TS are not
stated: free. -/
def addAdopted (s : State) : State :=
  addEvent { type := 10, count := 1, tag := freeWord s, ts := freeWord (drawn s) } (drawn (drawn s))

/-- The pair evaluation of a lap of the unit's own, with event type 6 (R234, R238). -/
def ownPairs (s : State) : State :=
  let (s1, m) := pairsEval s
  if m = 0 then s1 else addEvent { type := 6, count := 1, tag := BitVec.ofNat 32 m } s1

/-! ### Execution begins (R125) -/

/-- MAIN begins, with the due event blocks in the order of EVENT_PRIO after it. -/
def beginExecution (r : Running) (s : State) : State :=
  let prio := ((restOf s).map MouldRest.eventPrio).getD []
  let due := prio.filter fun t => s.ctx.events.any fun e => e.type = t
  settle 33 (enterTop 0 0 { s with
    lap := { s.lap with running := r }
    ctx := { s.ctx with dueLeft := due, ranTypes := 0, current := none, actions := [] }
    bx := { s.bx with curWords := 0, curSticky := 0 }
    bu := { s.bu with curBits := 0 } })

/-! ### Adoption of an edit (R201 to R205) -/

/-- The three steps of R202, with SJ 0x0254. Cells listed by the edit start fresh, those still fresh stay so. In HALT the lap that
SJ 0x0254 and LAP.EDIT_LAP carry is the last one run (R203 names none: DESIGN CHOICE, log 83). -/
def adoptEdit (s : State) : State :=
  let e := s.edit
  let b := !s.upd.active
  let s1 := { s with
    upd := { s.upd with active := b }
    prog := { s.prog with blocks := e.prog, progHash := e.newHash }
    img := { s.img with fresh := (s.img.fresh ++ e.newCells).dedup }
    ctx := { s.ctx with editFirst := true }
    edit := { ({} : Edit) with
      result := e.result, abort := e.abort, lastLap := s.lap.num, lapHi := e.lapHi, trialRun := e.trialRun, trialDiff := e.trialDiff
      chain := BitVec.ofNat 12 (bankOf b s).chain.length } }
  asyncDone 8 0 (sj 0x254 0 (item8 s.lap.num.toNat ++ e.newHash.take 8 ++ item (roleCode s.power.role)) s1)

/-- At a freeze: adoption where it is due. Lap L of an acknowledged edit, or the first lap from it on that the unit runs (R204); the lap after acceptance in a unit without a
tracking pacer (R203), also where the pacer was lost before its acknowledgement (log 56). -/
def adoptDue (s : State) : State :=
  let due := s.edit.adoptNow || (s.edit.confirmed && decide (s.edit.lap ≤ s.lap.num)) ||
    (!s.edit.confirmed && decide (s.power.role = .solo))
  if s.edit.state = .adopting ∧ due then adoptEdit s else s

/-- At housekeeping of lap L − 1: the acknowledgement in the HASH of lap L − 2 found, or another try, at most three
(R201). -/
def adoptCheck (s : State) : State :=
  if s.edit.state = .adopting ∧ !s.edit.adoptNow ∧ !s.edit.confirmed ∧ s.lap.num + 1 = s.edit.lap then
    if s.sbx.gotHashes.any fun h => decide (h.lap + 1 = s.lap.num) && h.ackAdopt then
      { s with edit := { s.edit with confirmed := true } }
    else if s.edit.tries ≥ 2 then
      asyncDoneFree 8 (sj 0x251 1 (item 10 ++ item 0 ++ item 1) { s with edit := { s.edit with state := .ripe, tries := 0 } })
    else { s with edit := { s.edit with tries := s.edit.tries + 1, lap := s.lap.num + 3 } }
  else s

/-! ### The baton (R230) -/

/-- At housekeeping of lap B − 1: the acknowledgement of lap B − 2 found, or the pass abandoned. -/
def batonCheck (s : State) : State :=
  if s.sbx.batonB ≠ 0 ∧ !s.sbx.batonConf ∧ s.lap.num + 1 = s.sbx.batonB then
    if s.sbx.gotHashes.any fun h => decide (h.lap + 1 = s.lap.num) && h.ackBaton then
      { s with sbx := { s.sbx with batonConf := true } }
    else batonFail 0 s
  else s

/-- Lap B has come: SJ 0x030A in each unit. -/
def batonPassed (s : State) : State :=
  if s.sbx.batonB ≠ 0 ∧ s.sbx.batonConf ∧ s.lap.num = s.sbx.batonB then
    asyncDone 2 0 (sj 0x30A 0 (item8 s.lap.num.toNat ++ item (roleCode s.power.role)) { s with
      sby := { s.sby with batons := satInc s.sby.batons }
      sbx := { s.sbx with batonB := 0, batonConf := false, batonAck := false } })
  else s

/-- After the commit of lap B − 1 the old leader is a tracking pacer and sends its own HASH; in OWN mode it keeps its
outputs until its shadow commit of lap B. -/
def batonGive (s : State) : State :=
  if s.power.role = .leader ∧ s.sbx.batonConf ∧ s.lap.num + 1 = s.sbx.batonB then
    let s1 := abortTrial 5 (syncSend1 4 s.lap.num.toNat (hashPayload (hashNow s)) s)
    let s2 := changeRole .pacer s1
    { s2 with sby := { s2.sby with cond := .tracking }
              sbx := { s2.sbx with batonKeep := true, ownHashes := [], gotHashes := [], batonAck := false, adoptAck := false } }
  else s

/-- After its shadow commit of lap B − 1 the new leader leads, and freezes lap B T_lap after its receipt of LAPSTART
B − 1. -/
def batonTake (s : State) : State :=
  if s.power.role = .pacer ∧ s.sbx.batonConf ∧ s.lap.num + 1 = s.sbx.batonB then
    let s1 := changeRole .leader (abortTrial 5 s)
    { s1 with
      sby := { s1.sby with cond := .leading }
      lap := { s1.lap with nextDueUs := s1.sbx.lsRxUs + 1000 * tLapMs s1, overran := false }
      sbx := { s1.sbx with ownHashes := [hashNow s1], rsActive := false, migrating := false, ignoring := false, lsQueue := [] } }
  else s

/-! ### The lap of the unit's own -/

/-- What a leader does at housekeeping: acknowledgements, comparison of HASHes, LAPSTART (R211, R213), which a MIGRATING pacer gets
too. -/
def leaderDuties (pLen : Nat) (s : State) : State :=
  if s.power.role = .leader then
    let s1 := batonPassed s
    let s2 := if tracking s1 then compareHashes s1.lap.num.toNat (batonCheck (adoptCheck s1)) else adoptCheck s1
    if s2.power.role = .leader then
      syncSend (syncSegments 3 s2.lap.num.toNat 64 0 (lapstartPayload pLen s2)) s2
    else s2
  else s

/-- Input freeze and housekeeping of the next lap, and execution's beginning. -/
def ownLap (s : State) : State :=
  let s0 := { s with lap := { s.lap with
    num := s.lap.num + 1, freezeUs := s.clk.opUs, nextDueUs := s.clk.opUs + 1000 * tLapMs s } }
  let (s1, pLen) := freezeOwn (adoptDue s0)
  let s2 := drainEvents (captureTime s1)
  let s3 := ownPairs (if s2.ctx.editFirst then addAdopted s2 else s2)
  beginExecution .lap (leaderDuties pLen s3)

/-- A unit leaves HALT with its first lap (R86): SOLO again, every subscription stale until its first image (R350). Whether
this is the t = 0 of R79 and of RUN_MS anew, and whether a new pairing window of R228 opens, is not stated: the model keeps the first
entry to RUN and opens none (DESIGN CHOICE, log 69). -/
def leaveHalt (s : State) : State :=
  let s1 := subsReset { s with power := { s.power with state := .run, transit := .none }
                               ctx := { s.ctx with haltResumed := true } }
  asyncDone 2 0 (sjStateChange .halt .run (setRole .solo s1))

/-! ### SYNC frames as received (R208, R209) -/

/-- A SYNC frame that passes its checks. -/
structure SyncIn where
  typ     : Nat
  last    : Bool
  lap     : Nat
  seg     : Nat
  payload : Bytes
deriving DecidableEq, Repr

/-- A frame parsed; none where its CRC fails or its header is malformed. -/
def syncParse (f : Bytes) : Option SyncIn :=
  let n := leAt f 12 2
  let typ := leAt f 2 1
  if leAt f 0 2 = 0x534C ∧ n ≤ 4096 ∧ f.length = n + 20 ∧ 1 ≤ typ ∧ typ ≤ 6 ∧ leAt f 3 1 ≤ 1 ∧
      leAt f (n + 16) 4 = crc32c (f.take (n + 16)) then
    some { typ := typ, last := decide (leAt f 3 1 = 1), lap := leAt f 4 8, seg := leAt f 14 2, payload := slice f 16 n }
  else none

/-- Does the unit take part in SYNC (R210)? The receiver and its check of R208 need PD11 alone (R364). -/
def syncOn (s : State) : Bool := pdIs s 11 && inRunOrHalt s

/-- A frame discarded and counted (R208). -/
def syncBad (s : State) : State := { s with sby := { s.sby with crcErr := satInc s.sby.crcErr } }

/-- A valid frame noted (R210); it ends a silence before the takeover. -/
def syncHeard (s : State) : State :=
  { s with sbx := { s.sbx with lastRxUs := some s.clk.wallUs
                               probing := s.sbx.probing && decide (s.sby.cond = .detached) } }

/-- A frame of one type taken in. -/
def syncRx (typ : Nat) (frame : Bytes) (f : SyncIn → State → State) (s : State) : State :=
  if !pdIs s 11 then s
  else match syncParse frame with
    | none => syncBad s
    | some x => if !syncOn s then s else if x.typ = typ then f x (syncHeard s) else syncHeard s

/-! ### Shadow laps (R197, R212) -/

/-- The pacer's own event rings drained and their contents discarded. -/
def discardEvents (s : State) : State := (List.range 32).foldl (fun t k => (drainEvent k t).1) s

/-- ADOPT_L and its confirmation as a pacer takes them from LAPSTART (R201, R231). A trial that still runs ends first, with reason 1
(DESIGN CHOICE, log 83). -/
def takeAdopt (adoptL : Nat) (conf : Bool) (s : State) : State :=
  let held := decide (s.edit.state = .loaded) || decide (s.edit.state = .trial) || decide (s.edit.state = .ripe) ||
    decide (s.edit.state = .adopting)
  if adoptL = 0 then
    if s.edit.state = .adopting ∧ !s.edit.confirmed then
      { s with edit := { s.edit with state := .ripe }, sbx := { s.sbx with adoptAck := false } }
    else { s with sbx := { s.sbx with adoptAck := false } }
  else if held then
    let s1 := abortTrial 1 s
    { s1 with edit := { s1.edit with state := .adopting, lap := BitVec.ofNat 64 adoptL, confirmed := s1.edit.confirmed || conf
                                     acked := s1.edit.acked && decide (s1.edit.lap.toNat = adoptL) }
              sbx := { s1.sbx with adoptAck := true } }
  else s

/-- BATON_B and its confirmation (R230). -/
def takeBaton (b : Nat) (conf : Bool) (s : State) : State :=
  { s with sbx := { s.sbx with batonB := BitVec.ofNat 64 b, batonAck := decide (b ≠ 0), batonConf := conf && decide (b ≠ 0) } }

/-- The trial state at START: a copy of the pacer's state after its last shadow commit, D in bytes 2 MiB on (R197). -/
def trialCopy (s : State) : State :=
  if s.edit.state = .trial ∧ s.edit.trial.isNone then
    let kept := s.data.filter fun c => !(decide (0x200000 ≤ c.1) && decide (c.1 < 0x400000))
    let d := (s.data.filter fun c => decide (c.1 < min (dBytes s) 0x200000)).foldl (fun m c =>
      memPut 0 dataSize m (0x200000 + c.1) c.2) kept
    { s with edit := { s.edit with trial := some { s.img with fresh := (s.img.fresh ++ s.edit.newCells).dedup } }, data := d }
  else s

/-- Has lap L of a confirmed adoption come to a pacer (R201, R204)? -/
def adoptReady (s : State) : Bool :=
  decide (s.edit.state = .adopting) && s.edit.confirmed && decide (s.edit.lap ≤ s.lap.num)

/-- A LAPSTART in a pacer that runs no laps: its adoption token, and lap L, at which the confirmed edit is adopted though the lap is
not run (R204). The lap number stands, as no lap has completed; the cells it lists are fresh (R205). -/
def adoptHeard (n : Nat) (p : Bytes) (s : State) : State :=
  let s1 := takeAdopt (leAt p 40 8) (bitOf (leAt p 14 1) 0) s
  if adoptReady { s1 with lap := { s1.lap with num := BitVec.ofNat 64 n } } then
    let s2 := adoptEdit { s1 with lap := { s1.lap with num := BitVec.ofNat 64 n } }
    { s2 with lap := { s2.lap with num := s1.lap.num } }
  else s1

/-- NOW_MS of a complete LAPSTART loaded into the pacer's own count (R212). -/
def loadNow (p : Bytes) (s : State) : State :=
  { s with lap := { s.lap with nowBase := (s.clk.opUs : Int) - 1000 * (leAt p 0 4 : Int) } }

/-- Shadow lap n begins with its LAPSTART payload. -/
def shadowBegin (n : Nat) (p : Bytes) (s : State) : State :=
  let fl := leAt p 14 1
  let s1 := takeTokens p (discardEvents (trialCopy { s with
    lap := { s.lap with num := BitVec.ofNat 64 n, freezeUs := s.clk.opUs }
    sbx := { s.sbx with shadowLap := BitVec.ofNat 64 n } }))
  let s2 := if adoptReady s1 then adoptEdit s1 else s1
  let s3 := takeBaton (leAt p 48 8) (bitOf fl 1) (batonPassed (takeAdopt (leAt p 40 8) (bitOf fl 0) s2))
  beginExecution .shadow (pairsEval s3).1

/-- The oldest LAPSTART that waits begins its lap, once the commit before it has ended with its write-through (R125). -/
def waitingBegin (s : State) : State :=
  match s.sbx.lsQueue with
  | (n, p) :: rest => if commitOver s then shadowBegin n p { s with sbx := { s.sbx with lsQueue := rest } } else s
  | [] => s

/-- A complete LAPSTART: a trial lap that has not ended ends its trial (R198); behind a shadow lap and its write-through it waits
(log 37). -/
def lapstartDone (n : Nat) (p : Bytes) (s : State) : State :=
  let s0 := { s with sbx := { s.sbx with lsRxUs := s.clk.opUs, trialDue := false } }
  let joined := fun (t : State) => { t with sbx := { t.sbx with lsQueue := t.sbx.lsQueue ++ [(n, p)] } }
  match s.lap.running with
  | .shadow => joined s0
  | .trial => shadowBegin n p (endTrial 3 0 s0)
  | .idle => waitingBegin (joined (if s.sbx.trialDue then endTrial 3 0 s0 else s0))
  | .lap => s0

/-- The trial lap begins on the same areas, tokens and events (R197). -/
def trialBegin (s : State) : State :=
  let first := decide (s.edit.trialRun = 0)
  let s1 := { s with frz := { s.frz with s := setBit s.frz.s 11 first } }
  let s2 := { (if first then addAdopted s1 else s1) with lap := { s1.lap with running := .trial } }
  beginExecution .trial (pairsEval s2).1

/-- Is a trial lap due behind the shadow lap just committed (R197)? -/
def trialDue (s : State) : Bool := decide (s.edit.state = .trial) && s.edit.trial.isSome && decide (s.power.role = .pacer)

/-- What waits in a pacer for the end of a write-through begins: the next shadow lap, else the trial lap (R125; log 37). -/
def pacerBegin (s : State) : State :=
  if s.sby.cond ≠ .tracking then s
  else if s.sbx.lsQueue = [] ∧ s.sbx.trialDue ∧ trialDue s then trialBegin { s with sbx := { s.sbx with trialDue := false } }
  else waitingBegin s

/-- LAP_START: the input freeze falls due in a unit that runs laps of its own; in a pacer, what waits for the end of its write-through
begins. It does not begin before the commit in progress has ended, with its write-through (R125, R133). -/
def lapStart (s : State) : State :=
  if !commitOver s ∨ !pdIs s 2 ∨ (mouldOf s).isNone then s
  else match s.power.state with
    | .run => match s.power.role with
      | .solo => ownLap s
      | .leader => ownLap s
      | .pacer => pacerBegin s
      | _ => s
    | .halt => if s.power.transit = .run then ownLap (leaveHalt s) else s
    | _ => s

/-- The payload of complete segments: SEG from 0 on, one lap, LAST on the final one. -/
def joinSegments (fs : List SyncIn) : Option (Nat × Bytes) :=
  match fs with
  | [] => none
  | f :: _ =>
    if (List.range fs.length).all fun i => match fs[i]? with
        | some x => decide (x.typ = f.typ) && decide (x.lap = f.lap) && decide (x.seg = i) && (x.last == decide (i + 1 = fs.length))
        | none => false
    then some (f.lap, fs.flatMap SyncIn.payload) else none

/-- The lag of a MIGRATING pacer (R229): the laps that the leader has committed, of which `n` is the last, since the lap at which the
pacer's state stands (DEDUCED, log 95). -/
def noteLag (n : Nat) (s : State) : State :=
  { s with sby := { s.sby with lagLaps := BitVec.ofNat 16 (min 65535 (n - s.lap.num.toNat)) } }

/-- A complete LAPSTART in a pacer: its NOW_MS is loaded in every condition that obeys the leader, its lap run in TRACKING. One in
MIGRATING tells that the leader has committed the lap before. -/
def lapstartHeard (n : Nat) (p : Bytes) (s : State) : State :=
  if s.power.role ≠ .pacer then s
  else match s.sby.cond with
    | .tracking => lapstartDone n p (loadNow p s)
    | .resync => adoptHeard n p (loadNow p s)
    | .migrating => noteLag (n - 1) (loadNow p s)
    | _ => s

/-- LAPSTART: the segments that arrived. An incomplete one runs no lap (R212). -/
def lapstart (segments : List Bytes) (s : State) : State :=
  if !pdIs s 11 then s
  else
    let bad := (segments.filter fun f => (syncParse f).isNone).length
    let good := segments.filterMap syncParse
    let s1 := { s with sby := { s.sby with crcErr := satAdd s.sby.crcErr bad } }
    if !syncOn s then s1
    else
      let s2 := if good = [] then s1 else syncHeard s1
      match joinSegments (good.filter fun x => x.typ = 3) with
      | some (n, p) => lapstartHeard n p s2
      | none => s2

/-! ### Commit (R125, R129, R212) -/

/-- An SB 22 frame: BRS and ESI, which the ID word does not hold, are 0 (log 56). -/
def sendFrame (id : Word) (data : Bytes) : CanFrame :=
  { id := id.setWidth 29, ide := id.getLsbD 29, fdf := id.getLsbD 30, rtr := id.getLsbD 31
    dlc := BitVec.ofNat 8 (lenDlc data.length), data := data, own := true }

/-- The plan that SB 23's eight fields name (R299). -/
def planOf (fs : List Nat) : Plan :=
  { enable := decide (nth 0 fs 0 = 1), ftDays := nth 0 fs 1, ftSec := nth 0 fs 2, dtDays := nth 0 fs 3, dtMin := nth 0 fs 4
    sharePct := nth 0 fs 5, testHour := nth 0 fs 6, rechargeH := nth 0 fs 7 }

/-- An action of a system block at commit step (c). The masks of SB 8 are stored whole: a bit at or above NET_COUNT, which R166 ignores,
reads back in BU.RFX_EN0 and BU.RFX_EN1 and counts for the networks of a later press (DESIGN CHOICE, log 53). -/
def carryOut (s : State) (a : Action) : State :=
  match a with
  | .raise t => pushEventFree t 2 s
  | .reflexEn m0 m1 => lapWrites 93184 8 (refreshOutputs { s with rfx := { s.rfx with en0 := m0, en1 := m1 } })
  | .doAck mask => fieldCommand (ackOutputs 1 mask) s
  | .safeAck mask => pairsAck mask s
  | .mwTrigger => raiseTrigger 4 0 s
  | .lbFilter p bs => if lbThere s p then modLx p (fun x => { x with nextTable := some ((loadSlots bs).map filterEntry) }) s else s
  | .lbSend p id data => if lbThere s p then txPush 2 p (sendFrame id data) s else s
  | .beaconPlan p fs => if isBeacon s p then modLx p (fun x => { x with plan := planOf fs }) s else s
  | .lbSleep p n => sleepRequest p n s
  | .lbWake p => lbWakeNow p s
  | .pfxLoad bs => pfxCommit bs s
  | .mbWriteEn m => { s with px := { s.px with mbEn := m } }
  | .encSet c => { s with pan := { s.pan with enc := c } }
  | .panelLock => lockPanel 2 s

/-- Does a shadow lap discard the action (R212, R309)? -/
def pacerDiscards : Action → Bool
  | .raise _ => true
  | .lbSend _ _ _ => true
  | .lbSleep _ _ => true
  | .lbWake _ => true
  | _ => false

/-- Does a trial lap carry the action out (R198)? -/
def trialKeeps : Action → Bool
  | .safeAck _ => true
  | _ => false

/-- The Q values of the 16 outputs. -/
def qOutputs (s : State) : BitVec 16 := s.img.q.extractLsb' (((mouldOf s).map Mould.qBase).getD 0) 16

/-- Commit step (a) of a lap whose outputs act: the hold of the BTP's values ends with the first (R76). -/
def commitOutputs (s : State) : State :=
  spairCheck (applyOutputs (qOutputs s) { s with
    sbx := { s.sbx with held := false }, rfx := { s.rfx with hold := s.rfx.hold && !s.rfx.active } })

/-- The end of a commit: durations, up to the end of its write-through, counts of the completed lap, SAF registers, the copy for Modbus. -/
def commitDone (s : State) : State :=
  let us := commitEnd s - s.lap.freezeUs
  let s1 := { s with
    lap := { s.lap with running := .idle, lastUs := us, maxUs := BitVec.ofNat 32 (max s.lap.maxUs.toNat us), evtDue := s.ctx.ranTypes }
    bx := { s.bx with statusFlags := flagWord s.bx, lapSticky := s.bx.curSticky, lapWords := s.bx.curWords, level := 0 }
    bu := { s.bu with lapBits := s.bu.curBits }
    ctx := { s.ctx with firstLap := false, haltResumed := false, tornFlag := false, editFirst := false, actions := [], current := none } }
  mbCommit (pairsPublish s1)

/-- R133: the overrun counted, and SJ 0x0202 for the first and then at most once per second. Over what span its longest lap is
taken is not stated: the model gives LAP.MAX_US, the longest since its last read (DESIGN CHOICE, log 69). -/
def noteOverrun (s : State) : State :=
  if s.sbx.ownFreeze then
    { s with lap := { s.lap with overran := false, nextDueUs := commitEnd s }, sbx := { s.sbx with ownFreeze := false } }
  else if s.lap.nextDueUs < commitEnd s then
    let s1 := { s with lap := { s.lap with
      ovr := satInc s.lap.ovr, overran := true, nextDueUs := commitEnd s, ovrMissed := s.lap.ovrMissed + 1 } }
    if s.lap.ovrLastUs.all fun t => decide (t + 1000000 ≤ s.clk.opUs) then
      sj 0x202 1 (item s1.lap.ovrMissed ++ item8 s1.lap.maxUs.toNat)
        { s1 with lap := { s1.lap with ovrMissed := 0, ovrLastUs := some s.clk.opUs } }
    else s1
  else { s with lap := { s.lap with overran := false } }

/-- A leader counts the trial laps of its pacer from the first one on. No frame of R209 tells it of a lap's differences, nor of a
trial that ended by TIME or FAULT in the pacer: both are free values (log 36). -/
def leaderTrial (s : State) : State :=
  if s.power.role = .leader ∧ tracking s ∧ s.edit.state = .trial ∧ s.edit.trialFirst ≤ s.lap.num then
    let f := freeWord s
    let code := freeWord (drawn s)
    let s0 := drawn (drawn s)
    let s1 := { s0 with edit := { s0.edit with
      trialRun := s.edit.trialRun + 1, trialDiff := if f.getLsbD 0 then s.edit.trialDiff + 1 else s.edit.trialDiff } }
    if f.getLsbD 1 then endTrial (if f.getLsbD 2 then 4 else 3) (if f.getLsbD 2 then code.toNat else 0) s
    else if s.edit.trialRun.toNat + 1 ≥ s.edit.window then endTrial 0 0 s1 else s1
  else s

/-- What a leader does in its slack: its values for the HASH comparison, the digest slice, state transfers (R213, R214,
R217, R229). -/
def leaderSlack (s : State) : State :=
  if s.power.role = .leader then
    let slack := s.lap.nextDueUs - commitEnd s
    if s.sbx.migrating then migrateSend s
    else
      let s1 := digestScan s.lap.num.toNat s.lap.overran s
      if s1.sbx.rsActive then
        (if s1.sbx.rsStartLap ≤ s1.lap.num then resyncSend slack s1 else s1)
      else if tracking s1 then leaderTrial { s1 with sbx := { s1.sbx with ownHashes := s1.sbx.ownHashes ++ [hashNow s1] } }
      else s1
  else s

/-- The slack of the lap just committed, which the next lap's end of a resynchronisation asks for (R217). -/
def noteSlack (s : State) : State := { s with sbx := { s.sbx with prevSlackUs := s.lap.nextDueUs - commitEnd s } }

/-- The commit of a lap of the unit's own. -/
def ownCommit (s : State) : State :=
  let s1 := publish false (commitOutputs s)
  let s2 := writeThrough (s1.ctx.actions.foldl carryOut s1)
  batonGive (noteSlack (leaderSlack (noteOverrun (commitDone s2))))

/-! ### Commits of a pacer -/

/-- The differing bits of two images, as entries of R199. -/
def diffEntries {w : Nat} (area : Nat) (t r : BitVec w) : List Nat :=
  ((List.range w).filter fun i => t.getLsbD i ≠ r.getLsbD i).map fun i =>
    i + 65536 * area + 2 ^ 20 * b2n (t.getLsbD i) + 2 ^ 21 * b2n (r.getLsbD i)

/-- A trial-lap report (R199). -/
def trialReport (t r : Images) (count : Nat) (s : State) : Option Bytes :=
  let q := diffEntries 1 t.q r.q
  let m := diffEntries 2 t.m r.m
  let es := (q ++ m).take 256
  if es = [] then none
  else some (padTo 1056 (leBytes 2 0x4544 ++ leBytes 2 es.length ++ leBytes 8 s.lap.num.toNat ++ leBytes 4 q.length ++
    leBytes 4 m.length ++ leBytes 4 count ++ zeros 8 ++ es.flatMap (leBytes 4)))

/-- Slot 0 keeps the first report, slots 1 to 15 the most recent later ones, newest first. -/
def addReport (r : Bytes) : List Bytes → List Bytes
  | [] => [r]
  | x :: xs => x :: (r :: xs).take 15

/-- The end of a trial lap (R198 to R200). -/
def trialCommit (s : State) : State :=
  let s1 := (s.ctx.actions.filter trialKeeps).foldl carryOut s
  let n := s1.edit.trialRun + 1
  let rep := trialReport (s1.edit.trial.getD {}) s1.img n.toNat s1
  let s2 := { s1 with
    lap := { s1.lap with running := .idle }
    bx := { s1.bx with level := 0 }
    ctx := { s1.ctx with actions := [], current := none }
    edit := { s1.edit with
      trialRun := n
      trialDiff := if rep.isSome then s1.edit.trialDiff + 1 else s1.edit.trialDiff
      reports := match rep with
        | some r => addReport r s1.edit.reports
        | none => s1.edit.reports } }
  if n.toNat ≥ s2.edit.window then endTrial 0 0 s2 else s2

/-- HASH of the lap just committed, and SBY.LAG (R213). -/
def sendHash (s : State) : State :=
  let h := { hashNow s with ackAdopt := s.sbx.adoptAck, ackBaton := s.sbx.batonAck }
  { syncSend1 4 s.lap.num.toNat (hashPayload h) s with
    edit := { s.edit with acked := s.edit.acked || s.sbx.adoptAck }
    sby := { s.sby with lagUs := BitVec.ofNat 16 (min 65535 (commitEnd s - s.sbx.lsRxUs)) } }

/-- Commit step (a) of a shadow lap: the outputs follow in SHARED mode; in OWN mode they stay held off, an old leader's
from its shadow commit of lap B on (R212, R230). -/
def shadowOutputs (s : State) : State :=
  if sharedMode s ∧ s.sby.cond = .tracking then commitOutputs { s with sbx := { s.sbx with batonKeep := false } }
  else refreshOutputs { s with sbx := { s.sbx with held := true, batonKeep := false } }

/-- What follows a shadow commit, at once or when its write-through has ended: the next lap that waits, behind which a trial lap due in
this lap cannot have ended (R198), or the trial lap. -/
def afterShadow (s : State) : State :=
  if s.sbx.lsQueue ≠ [] then
    if s.power.role = .pacer ∧ s.sby.cond = .tracking then waitingBegin (if s.edit.trial.isSome then abortTrial 3 s else s)
    else { s with sbx := { s.sbx with lsQueue := [] } }
  else if trialDue s then (if commitOver s then trialBegin s else { s with sbx := { s.sbx with trialDue := true } })
  else s

/-- The commit of a shadow lap. -/
def shadowCommit (s : State) : State :=
  let s1 := (s.ctx.actions.filter fun a => !pacerDiscards a).foldl carryOut (shadowOutputs s)
  let s2 := commitDone (writeThrough s1)
  let s3 := sendHash (digestScan s2.lap.num.toNat (decide (s2.sbx.lsQueue ≠ [])) s2)
  afterShadow (batonTake s3)

/-- LAP_COMMIT: execution has ended. -/
def lapCommit (s : State) : State :=
  if !s.bx.ended then s
  else match s.lap.running with
    | .idle => s
    | .lap => ownCommit s
    | .shadow => shadowCommit s
    | .trial => trialCommit s

/-- The lap watchdog's fault, found once. -/
def lapLate (s : State) : State :=
  let t := lapFaulted 0x201 6 s
  { t with power := { t.power with ssArmed := setBit t.power.ssArmed 2 false } }

/-- LAP_WATCHDOG (R134): also while a commit whose program has ended still writes through. A trial lap never causes Safe Service (R198).
A lap that ran when this check entered SAFE SERVICE is judged too (R369). -/
def lapWatchdog (s : State) : State :=
  match s.lap.running with
  | .lap => lapLate s
  | .shadow => lapLate s
  | .trial => s
  | .idle => if writing s ∨ (sameCheck s ∧ s.power.ssArmed.getLsbD 2) then lapLate s else s

/-- LAP_START. -/
def execLapStart (s : State) : Result := .next (lapStart s)
/-- LAP_COMMIT. -/
def execLapCommit (s : State) : Result := .next (lapCommit s)
/-- LAP_WATCHDOG. -/
def execLapWatchdog (s : State) : Result := .next (lapWatchdog s)
/-- LAPSTART. -/
def execLapstart (segments : List Bytes) (s : State) : Result := .next (lapstart segments s)

end Sys2Proof.Machine
end

