-- ==== Sys2Proof/Machine/BringUp.lean ====
section
/-! DEFINITION. The bring-up from manifest verification to the first full lap, and HALT (R70 to R76, R85, R103, R362,
R367, R437, R439, R443 to R446). -/

namespace Sys2Proof.Machine

/-! ### Failures of a start (R71, R81, R443, R444) -/

/-- A pending bank fails: it is dropped, the old bank stays active, SJ 0x0A12 and cause 0x09. A third attempt has no
check code: that item is free (log 3). -/
def rejectBank (check : Option Nat) (s : State) : State :=
  let bank := b2n (!s.upd.active)
  let c := check.getD (freeWord s).toNat
  let s0 := if check.isSome then s else drawn s
  let s1 := sj 0xA12 2 (item bank ++ item c ++ item s.upd.attempts)
    { s0 with upd := { s0.upd with pending := false, inUse := false, attempts := 0 } }
  safeService 9 c s1

/-- An application check fails with its Safe Service cause and code. -/
def appFails (cause : Nat) (code : Option Nat) (s : State) : State :=
  if s.upd.inUse then rejectBank code s
  else match code with
    | some c => safeService cause c s
    | none => safeServiceFree cause s

/-- A system check fails: DEAD at an acceptance start, else cause 0x01, the part named where one is concerned. -/
def sysFails (part : Option Nat) (s : State) : State :=
  if s.upd.accepting then goDead 6 part s
  else match part with
    | some p => safeService 1 p s
    | none => safeServiceFree 1 s

/-! ### MANIFESTS_VERIFIED -/

/-- R446: a Safe Service table whose CRC fails, rewritten from the active bank; the BTP uses it from its next lap. SJ 0x0430 is
not written a second time for the start (R245). -/
def rewriteTable (s : State) : State :=
  let t := ssTable s
  match manPart 1 (bankManifest s.upd.active s) 0x12 with
  | some e =>
    if crc32c (t.take 252) ≠ leAt t 252 4 ∧ appManifestOk s.upd.active s then
      judgeTable (mramWrite 0x390000 ((bankPart s.upd.active e s).take 256) s)
    else s
  | none => s

/-- The checks of R444 that precede pressing, in its order. -/
def startChecks (s : State) : State :=
  let m := s.upd.manifest
  let b := usedBank s
  if !manFormat 0 none m ∨ !manSigned 0 m s ∨ !manIssue m s then sysFails none s
  else match targetFailure m s with
    | some p => sysFails (some p) s
    | none =>
      if s.upd.pending ∧ !s.upd.inUse then rejectBank none s
      else if !appManifestOk b s then appFails 2 (some 2) s
      else if manSet (bankManifest b s) ≠ manSet m then appFails 1 (some 8) s
      else if !programChecked b s then appFails 7 none s
      else { s with power := { s.power with loadStep := .p0 } }

/-- MANIFESTS_VERIFIED: by then PD5, the drivers and PD6 are on and the BTP has its table (R70, R245, R367). An acceptance start has
written the test word of its self-tests (R439). -/
def manifestsVerified (s : State) : State :=
  if s.power.state = .bringUp ∧ s.power.loadStep = .manifests ∧ s.upd.journal ≠ .patching then
    let s1 := serviceUp s
    let s2 := if s.upd.accepting then journalTestWord s1 else s1
    startChecks (rewriteTable { s2 with mgt := { s2.mgt with testedSet := BitVec.ofNat 32 (manSet s2.upd.manifest) } })
  else s

/-! ### MOULD_PRESSED -/

/-- The Mould of the bank in use validated and pressed; a region that is pressed and fails its readback fails the start
with code 0x0D (R103, R105). -/
def mouldPressed (readbackFails : Option Nat) (s : State) : State :=
  if s.power.state = .bringUp ∧ s.power.loadStep = .mould then
    match mouldValidate (mouldCtx (usedBank s) none s) with
    | .error f => appFails 2 (some f.code) (mouldInvalid f 3 s)
    | .ok (m, r) =>
      let bad := readbackFails.filter fun k => regionUsed m r k
      match bad with
      | some k =>
        let s1 := pressMould m r s
        let s2 := setRegion k 4 { s1 with mld := { s1.mld with mould := none } }
        appFails 2 (some 13) (mouldInvalid { code := 13, sect := regionSect k } 3 (panelBare s2))
      | none =>
        sj 0x120 0 (m.digest.take 8 ++ item m.build.toNat ++ item (b2n (usedBank s)))
          { pressMould m r s with power := { (pressMould m r s).power with loadStep := .p4 } }
  else s

/-! ### Load steps (R70, R71) -/

/-- The number of a part. -/
def partNo : Part → Nat
  | .p0 => 0
  | .p1 => 1
  | .p2 => 2
  | .p3 => 3
  | .p4 => 4
  | .p5 => 5
  | .p6 => 6

/-- The load step at which a part is awaited: P0 after manifest verification (R362), then, behind the Mould, P4, P3, P1, P2, P5, P6. -/
def partStep : Part → LoadStep
  | .p0 => .p0
  | .p4 => .p4
  | .p3 => .p3
  | .p1 => .laneA
  | .p2 => .laneB
  | .p5 => .p5
  | .p6 => .p6

/-- The load step after a part. -/
def nextStep : Part → LoadStep
  | .p0 => .mould
  | .p4 => .p3
  | .p3 => .laneA
  | .p1 => .laneB
  | .p2 => .p5
  | .p5 => .p6
  | .p6 => .handover

/-- P4: the switch takes the Mould's configuration (R74), then PD4 for the next load step. Under a Mould without BBSW a switch that
stayed on keeps the configuration that it has (R340 rather than R98: DESIGN CHOICE, log 77). -/
def switchReady (s : State) : State :=
  let s1 := match (mouldOf s).bind Mould.bbsw with
    | some c => if pdIs s 6 then applyBbsw c s else s
    | none => s
  domainOn 4 s1

/-- P1: Lane A with its program, which it verifies (R188); the lane's watchdog is armed (R368). That of a bank that LOAD_MOULD or
UPD_ACTIVATE has made pending is verified here and reported as source 1, bank load (DESIGN CHOICE, log 83). -/
def laneAReady (s : State) : State :=
  let b := usedBank s
  let bytes := bankProgram b s
  match verifyProgram (dKib s) (((restOf s).map MouldRest.eventMask).getD 0) bytes with
  | .error f => appFails 7 (some f.code) (programRejected f (b2n s.upd.inUse) s)
  | .ok p =>
    let s1 := noteVerify none s
    let s2 := { s1 with
      prog := { s1.prog with blocks := p, progHash := sha256 bytes }
      edit := { s1.edit with chain := BitVec.ofNat 12 (bankOf b s1).chain.length }
      mgt := { s1.mgt with wdA := { armed := true, lastUs := s1.clk.wallUs } } }
    domainOn 3 { s2 with power := { s2.power with loadStep := .laneB } }

/-- P2: Lane B; PD7 with the landing-bus controllers of LBUS (R279, R280); the terminations also where PD7 stays off
(R55). -/
def laneBReady (s : State) : State :=
  let s1 := domainOn 7 { s with mgt := { s.mgt with wdB := { armed := true, lastUs := s.clk.wallUs } } }
  match mouldOf s1 with
  | some m => (if pdIs s1 7 then pressPorts else pressTerms) [0, 1, 2, 3] m s1
  | none => s1

/-- An acceptance start has passed P6 (R439). -/
def accepted (s : State) : State :=
  if s.upd.accepting then
    sj 0xA06 0 (item (manSet s.upd.manifest)) (journalWrite { s with upd := { s.upd with
      journal := .idle, accepting := false, sys := none, newSet := 0 } })
  else s

/-- P6: sampling and metering start (R251, R273), the update is accepted, PD11. -/
def mainsWatchReady (s : State) : State :=
  let s1 := samplingStart s
  let s2 := if (acqCfg s1).isSome ∧ pdIs s1 8 then startMeter s1 else s1
  let s3 := accepted s2
  domainOn 11 s3

/-- What a part that reports ready brings. From P0 on the Marshal no longer runs from ROM (R362). -/
def partLoads (p : Part) (s : State) : State :=
  let s1 := { s with power := { s.power with loadStep := nextStep p } }
  match p with
  | .p0 => { s1 with mgt := { s1.mgt with onP0 := true } }
  | .p4 => switchReady s1
  | .p3 => domainOn 2 s1
  | .p1 => laneAReady { s1 with power := { s1.power with loadStep := .laneA } }
  | .p2 => laneBReady s1
  | .p5 => domainOn 8 s1
  | .p6 => mainsWatchReady s1

/-- PART_READY: the part's version and Tested Set against the active system manifest (R439, R444). -/
def partReady (p : Part) (version set : Word) (s : State) : State :=
  if s.power.state = .bringUp ∧ s.power.loadStep = partStep p then
    let n := partNo p
    let s1 := { s with upd := { s.upd with partVer := setAt s.upd.partVer n version } }
    let want := ((manPart 0 s.upd.manifest n).map PartEntry.version).getD 0
    if version.toNat ≠ want then
      sysFails (some n) (sj 0xA13 2 (item n ++ item want ++ item version.toNat) s1)
    else if set.toNat ≠ manSet s.upd.manifest then sysFails (some n) s1
    else partLoads p s1
  else s

/-- A part that does not report (R71, R444): P0 leaves the Marshal on ROM with cause 0x01, P3 is a BU fault, P1 and P2 are lane faults,
P4 to P6 cause 0x0A; at an acceptance start DEAD (R439), a lane fault with its SJ 0x0910 before (R369). -/
def partSilent (p : Part) (s : State) : State :=
  if s.power.state = .bringUp ∧ s.power.loadStep = partStep p then
    match p with
    | .p0 => faultEnds (some 0) (safeService 1 0) s
    | .p3 => faultEnds (some 3) (safeService 5 3) s
    | .p1 => raiseLaneFault .a .notReady 0 s
    | .p2 => raiseLaneFault .b .notReady 0 s
    | _ => faultEnds (some (partNo p)) (safeService 10 (partNo p)) s
  else s

/-- PART_NOT_READY: a part, or a self-test of an acceptance start, before the first part is loaded (R439). -/
def partNotReady (x : LoadFailure) (s : State) : State :=
  match x with
  | .part p => partSilent p s
  | .selfTest =>
    if s.power.state = .bringUp ∧ s.upd.accepting ∧ (s.power.loadStep = .manifests ∨ s.power.loadStep = .p0) then goDead 5 none s else s

/-! ### The first full lap (R75, R76, R79) -/

/-- The plant keys at the acceptance of a bank (R431). -/
def plantKeys (m : Bytes) (s : State) : State :=
  let k := manSignKey m
  let nk := manNextKey m
  let s1 :=
    if s.mgt.plantCurrent.isNone then sj 0xA14 0 (k.take 8) { s with mgt := { s.mgt with plantCurrent := some k } }
    else if s.mgt.plantNext = some k then { s with mgt := { s.mgt with plantCurrent := some k, plantNext := none } }
    else s
  if nk.all (· = 0) then s1 else { s1 with mgt := { s1.mgt with plantNext := some nk } }

/-- BANK_ACCEPTED (R443). -/
def acceptBank (s : State) : State :=
  if s.upd.pending ∧ s.upd.inUse then
    let b := !s.upd.active
    let m := bankManifest b s
    let s1 := { s with upd := { s.upd with active := b, pending := false, inUse := false } }
    let s2 := match manPart 1 m 0x12 with
      | some e => mramWrite 0x390000 ((bankPart b e s1).take 256) s1
      | none => s1
    let s3 := plantKeys m s2
    sj 0xA11 0 (item (b2n b) ++ item (manSet m) ++ item s.upd.attempts) { s3 with upd := { s3.upd with attempts := 0 } }
  else s

/-- Entry to RUN as SOLO: the states, SJ 0x0102 and 0x0104, MGT.RUN_TIME, the pairing window (R70, R228). -/
def enterRun (s : State) : State :=
  let ms := min 65535 ((s.clk.opUs - s.power.t0Us) / 1000)
  let s1 := setRole .solo { s with power := { s.power with
    state := .run, loadStep := .idle, runEntryUs := s.clk.opUs, runTimeMs := BitVec.ofNat 16 ms } }
  let s2 := sj 0x104 0 (item ((s.clk.opUs - s.power.t0Us) / 1000) ++ item s.mgt.testedSet.toNat) (sjStateChange .bringUp .run s1)
  { s2 with sby := { s2.sby with window := partnerNamed s2, cond := .unpaired } }

/-- FIRST_FULL_LAP: at the BTP lap boundary after the last load step. -/
def firstFullLap (s : State) : State :=
  if s.power.state = .bringUp ∧ s.power.loadStep = .handover then
    let s1 := enterRun (acceptBank { s with saf := { s.saf with btpOn := false } })
    let s2 := { s1 with lap := { s1.lap with num := 0, nowBase := s1.clk.opUs }, ctx := { s1.ctx with firstLap := true } }
    let s3 := lbListen (pairsSafe (subsReset s2))
    ownLap (reflexHandover (pushEventFree 0 2 s3))
  else s

/-! ### HALT (R85) -/

/-- HALT_ENTERED: at the end of the commit of the lap in progress the outputs take their stop values and execution
stops. -/
def haltEntered (s : State) : State :=
  if s.power.state = .run ∧ s.power.transit = .halt ∧ commitOver s then
    let s1 := setRole .none (applyOutputs (stopValues s) { s with power := { s.power with state := .halt, transit := .none } })
    asyncDone 2 0 (sjStateChange .run .halt s1)
  else s

/-- MANIFESTS_VERIFIED. -/
def execManifestsVerified (s : State) : Result := .next (manifestsVerified s)
/-- MOULD_PRESSED. -/
def execMouldPressed (readbackFails : Option (Fin 4)) (s : State) : Result := .next (mouldPressed (readbackFails.map Fin.val) s)
/-- PART_READY. -/
def execPartReady (part : Part) (version testedSet : Word) (s : State) : Result := .next (partReady part version testedSet s)
/-- PART_NOT_READY. -/
def execPartNotReady (part : LoadFailure) (s : State) : Result := .next (partNotReady part s)
/-- FIRST_FULL_LAP. -/
def execFirstFullLap (s : State) : Result := .next (firstFullLap s)
/-- HALT_ENTERED. -/
def execHaltEntered (s : State) : Result := .next (haltEntered s)

end Sys2Proof.Machine
end

