-- ==== Sys2Proof/Machine/Exchange.lean ====
section
/-! DEFINITION. Plant Exchange: frames received and sent, members, conflicts, images, request authentication, time,
and the IP services of the CPU port (R77, R342 to R355). -/

namespace Sys2Proof.Machine

/-! ### Frames as received (R344) -/

/-- A PX frame that passes its checks. -/
structure PxIn where
  typ     : Nat
  member  : Byte
  flags   : Nat
  seq     : Word
  header  : Bytes
  payload : Bytes
deriving DecidableEq, Repr

/-- Does a payload have the length of its type (R344)? The body of a REQUEST has at least its 8 bytes of head (R370); a RESPONSE
may have none. -/
def payloadLenOk (typ n : Nat) (p : Bytes) : Bool :=
  if typ = 1 then decide (n = 24)
  else if typ = 2 then decide (28 ≤ n) && decide (n = 28 + 4 * beAt p 24 1)
  else if typ = 3 then decide (9 ≤ n) && decide (n ≤ 1032)
  else if typ = 4 then decide (48 ≤ n)
  else if typ = 5 then decide (40 ≤ n)
  else if typ = 6 then decide (n = 16)
  else if typ = 7 then decide (n = 8)
  else true

/-- A frame parsed; none where its CRC, MAGIC, VERSION, LENGTH or PLANT_ID fails. -/
def pxParse (f : Bytes) (s : State) : Option PxIn :=
  let n := beAt f 12 2
  if beAt f 0 2 = 0x5058 ∧ beAt f 2 1 = 1 ∧ n ≤ 1200 ∧ f.length = n + 20 ∧ payloadLenOk (beAt f 3 1) n (slice f 16 n) ∧ beAt f 6 2 = plantId s ∧
      beAt f (n + 16) 4 = crc32c (f.take (n + 16)) then
    some { typ := beAt f 3 1, member := nth 0 f 4, flags := beAt f 5 1, seq := BitVec.ofNat 32 (beAt f 8 4), header := f.take 16
           payload := slice f 16 n }
  else none

/-- Member m's entry in the member table. -/
def memberOf (s : State) (m : Byte) : Member := sget {} s.px.members m.toNat
def setMember (m : Byte) (x : Member) (s : State) : State := { s with px := { s.px with members := sput {} s.px.members m.toNat x } }

/-- A valid frame notes its sender present (R345). -/
def memberHeard (m : Byte) (s : State) : State := setMember m { memberOf s m with present := true, lastUs := s.clk.wallUs } s

/-- A SESSION other than the one kept clears the stored SEQ values (R349). -/
def memberSession (m : Byte) (w : Word) (s : State) : State :=
  let x := memberOf s m
  if x.session = some w then s else setMember m { x with session := some w, imgSeq := none, reqSeq := [] } s

/-- A MAC address as an item of a record: 6 bytes in transmission order (R383). -/
def macItem (m : BitVec 48) : Bytes := beBytes 6 m.toNat

/-- An address conflict (R346): SJ 0x0823, with muted as 0 and not as 1 (R383), DUPLICATE, and muting where `mute` says so. -/
def conflict (mac : BitVec 48) (mute : Bool) (s : State) : State :=
  let muted := s.px.muted || mute
  sj 0x823 2 (macItem mac ++ item (b2n !muted)) { s with px := { s.px with duplicate := true, muted := muted } }

/-- Does a HELLO of the same MEMBER mute the unit: a higher RUN_MS, or an equal one with a lower MAC address? -/
def mutes (mac : BitVec 48) (x : PxIn) (s : State) : Bool :=
  decide (x.typ = 1) && decide (x.payload.length = 24) &&
    (decide (runMs s < beAt x.payload 12 4) || (decide (runMs s = beAt x.payload 12 4) && decide (mac < Config.ownMac)))

/-- A PX frame of one type taken in (R344, R346, R352): UDP to another port is dropped silently (R342), frames of a blocked source
are ignored, bad ones counted, and a conflict discards its frame. -/
def pxRx (typ : Nat) (src : NetSrc) (frame : Bytes) (f : PxIn → State → State) (s : State) : State :=
  if !pxOn s ∨ src.toPort ≠ 41720 ∨ s.px.blocked.contains src.ip then s
  else match pxParse frame s with
    | none => { s with px := { s.px with bad := satInc s.px.bad } }
    | some x =>
      if x.typ ≠ typ then s
      else if x.member.toNat = ownMember s then conflict src.mac (mutes src.mac x s) s
      else f x (memberHeard x.member s)

/-! ### HELLO and JOIN (R220, R345, R350) -/

/-- A live leader's answer to a probe (R220). -/
def probeAnswer (x : PxIn) (s : State) : State :=
  let h := x.payload
  if s.power.role = .pacer ∧ s.sbx.probing ∧ bitOf x.flags 1 ∧ x.member.toNat = ownPartner s ∧ beAt h 0 1 = 3 ∧
      (beAt h 1 1 = 1 ∨ beAt h 1 1 = 2) then
    { s with sbx := { s.sbx with pxSeen := true } }
  else s

/-- PX_HELLO: a probe is answered with REPLY. -/
def pxHello (src : NetSrc) (x : PxIn) (s : State) : State :=
  let s1 := probeAnswer x (memberSession x.member (BitVec.ofNat 32 (beAt x.payload 8 4)) s)
  if bitOf x.flags 0 then pxSend (replyTo src) 1 2 (helloPayload s1) s1 else s1

/-- The publishing identity that a HELLO payload shows (R347). -/
def pubIdOf (m : Byte) (h : Bytes) : Nat := if bitOf (beAt h 2 1) 0 then min m.toNat (beAt h 3 1) else m.toNat

/-- PX_JOIN: the first of a member since it was last absent writes TR 0x0820; event type 8 for a subscribed identity
(log 58). -/
def pxJoin (x : PxIn) (s : State) : State :=
  let h := x.payload
  let s1 := memberSession x.member (BitVec.ofNat 32 (beAt h 8 4)) s
  let m := memberOf s1 x.member
  let s2 := if m.joined then s1 else
    tr 0x820 0 (item x.member.toNat ++ item (beAt h 1 1) ++ item (beAt h 4 4)) (setMember x.member { m with joined := true } s1)
  let pub := pubIdOf x.member h
  if (subsOf s2).any fun e => decide (e.2.member.toNat = pub) then pushEvent 8 3 (BitVec.ofNat 32 (pub + 65536)) s2 else s2

/-! ### Images (R77, R349) -/

/-- Is a SEQ newer than the last one (R349)? -/
def newer (seq : Word) (last : Option Word) : Bool :=
  match last with
  | none => true
  | some l => decide (1 ≤ (seq - l).toNat) && decide ((seq - l).toNat < 2 ^ 31)

/-- A descriptor of a received image, pushed by the CPU port (5) into Q0014 and by Lane B (3) into a Mould ring (R114, R122, R349); its
TAG is not stated: free. -/
def imageDesc (src : Byte) (buf n : Nat) (s : State) : Desc :=
  { buf := BitVec.ofNat 32 buf, len := BitVec.ofNat 16 n, src := src, ts := tsNow s, tag := freeWord s }

/-- Images of one PUB_ID from two header members within 1 s: SJ 0x0824, at most once per minute. -/
def pubConflict (pub m : Byte) (s : State) : State :=
  let other := s.px.pubSeen.find? fun y => y.1 = pub ∧ y.2.1 ≠ m ∧ s.clk.wallUs < y.2.2 + 1000000
  let seen := (pub, m, s.clk.wallUs) :: s.px.pubSeen.filter fun y => !(decide (y.1 = pub) && decide (y.2.1 = m))
  let s1 := { s with px := { s.px with pubSeen := seen } }
  match other with
  | some y =>
    if s.px.pubSaidUs.all fun t => decide (t + 60000000 ≤ s.clk.wallUs) then
      sj 0x824 1 (item pub.toNat ++ item y.2.1.toNat ++ item m.toNat)
        { s1 with px := { s1.px with pubSaidUs := some s.clk.wallUs } }
    else s1
  | none => s1

/-- An image before the Mould is pressed: kept for its member and block on Q0014 (R77, R122), with its SEQ (R349). -/
def earlyImage (x : PxIn) (s : State) : State :=
  let m := memberOf s x.member
  let b := earlyBuffer (nth 0 x.payload 0) (nth 0 x.payload 1) s
  if newer x.seq m.imgSeq then
    let s1 := pubConflict (nth 0 x.payload 0) x.member (setMember x.member { m with imgSeq := some x.seq } s)
    push 14 (imageDesc 5 (b + 8) (x.payload.length - 8) s1) (drawn (dataWrite b x.payload s1))
  else { s with px := { s.px with unmatched := satInc s.px.unmatched } }

/-- PX_IMAGE: pushed into the ring of every matching subscription entry; an image that matches none, or is not newer, is
counted. -/
def pxImage (x : PxIn) (s : State) : State :=
  let pub := nth 0 x.payload 0
  let d := x.payload.drop 8
  if s.power.state = .safeService then s
  else if (mouldOf s).isNone then earlyImage x s
  else
    let m := memberOf s x.member
    let mine := (subsOf s).filter fun e => decide (e.2.member = pub) && decide (e.2.block = nth 0 x.payload 1)
    if mine = [] ∨ !newer x.seq m.imgSeq then { s with px := { s.px with unmatched := satInc s.px.unmatched } }
    else
      let s1 := pubConflict pub x.member (setMember x.member { m with imgSeq := some x.seq } s)
      mine.foldl (fun t e => push e.2.ring (imageDesc 3 (subBuffer e.1) d.length t) (drawn (dataWrite (subBuffer e.1) d t))) s1

/-! ### Requests (R77, R90, R351 to R354) -/

/-- The shape of an argument field: ARG_LEN is the length stated (R375), which for KEY_POLICY goes with its OP; `none` for an
unknown CODE. -/
def argLenOk (code op n : Nat) : Option Bool :=
  if code = 0x01 ∨ code = 0x03 ∨ code = 0x12 then some (decide (n = 0))
  else if code = 0x02 ∨ code = 0x04 ∨ code = 0x06 ∨ code = 0x07 ∨ code = 0x08 ∨ code = 0x0A ∨ code = 0x0B ∨ code = 0x0E then some (decide (n = 4))
  else if code = 0x05 ∨ code = 0x0C then some (decide (n = 8))
  else if code = 0x09 then some (decide (16 ≤ n) && decide (n ≤ 1040))
  else if code = 0x0D ∨ code = 0x0F then some (decide (n = 20))
  else if code = 0x10 then some (decide (n = 16))
  else if code = 0x11 then some (if op = 0 then decide (n = 36) else if op ≤ 2 then decide (n = 4) else decide (n = 4) || decide (n = 36))
  else if code = 0x20 then some (decide (12 ≤ n) && decide (n ≤ 1036))
  else none

/-- Is the length of a body right: ARG_LEN names the bytes that follow, and suits its CODE (R90, R375)? -/
def bodyLenOk (body : Bytes) : Bool :=
  decide (leAt body 2 2 + 8 = body.length) && ((argLenOk (leAt body 0 1) (leAt body 8 1) (leAt body 2 2)).getD true)

/-- Is a request permitted to a role by the table of R351? -/
def rolePermits (role code : Nat) : Bool :=
  let view := decide (code = 0x01) || decide (code = 0x0C)
  let operate := view || decide (code = 0x02) || decide (code = 0x03) || decide (code = 0x0D) || decide (code = 0x0E)
  let engineer := operate || (decide (0x04 ≤ code) && decide (code ≤ 0x09)) || decide (code = 0x0F) || decide (code = 0x10) || decide (code = 0x12)
  if role = 0 then view else if role = 1 then operate else if role = 2 then engineer else decide (role = 3)

/-- The body and the MAC of a REQUEST payload. -/
def reqBody (p : Bytes) : Bytes := slice p 8 (p.length - 40)
def reqMac (p : Bytes) : Bytes := p.drop (p.length - 32)

/-- The first failing check of R351, coded in its order: 0 SESSION, 1 no key, 2 MAC, 3 SEQ, 4 outside ROLE. -/
def authFailure (x : PxIn) (s : State) : Option Nat :=
  let p := x.payload
  let role := beAt p 0 1
  let last := (sget 0 (memberOf s x.member).reqSeq role)
  if BitVec.ofNat 32 (beAt p 4 4) ≠ s.px.session then some 0
  else match roleKey s role with
    | none => some 1
    | some k =>
      if hmacSha256 k (x.header ++ p.take (p.length - 32)) ≠ reqMac p then some 2
      else if !newer x.seq (if last = 0 then none else some (BitVec.ofNat 32 (last - 1))) then some 3
      else if !rolePermits role (leAt (reqBody p) 0 1) then some 4
      else none

/-- 0x30 answered: no BODY, a zero MAC, SJ 0x0822, and at the eighth within 60 s the source blocked (R352). -/
def authFailed (check : Nat) (src : NetSrc) (q : PendingReq) (s : State) : State :=
  let recent := (s.px.authFails.filter fun y => decide (y.1 = src.ip) && decide (s.clk.wallUs < y.2 + 60000000))
  let others := s.px.authFails.filter fun y => decide (y.1 ≠ src.ip)
  let s1 := sjRep 0x822 1 (addrKey src.ip) (addrItem src.ip s ++ item q.role.toNat ++ item check)
    (addrDrawn src.ip { s with px := { s.px with auth := satInc s.px.auth } })
  let s2 := sendResponse none q 0x30 [] s1
  if recent.length ≥ 7 then
    tr 0x825 1 (addrItem src.ip s2)
      (addrDrawn src.ip { s2 with px := { s2.px with authFails := others, blocked := src.ip :: s2.px.blocked } })
  else { s2 with px := { s2.px with authFails := (src.ip, s.clk.wallUs) :: recent ++ others } }

/-- A BUSY frame to the source (R343, R344). -/
def sendBusy (src : NetSrc) (seq : Word) (retry : Nat) (s : State) : State :=
  pxSend (replyTo src) 7 0 (beBytes 4 seq.toNat ++ beBytes 4 retry) s

/-- The retry-after time of R77: 4,000 ms while an update is being resumed. -/
def retryAfter (s : State) : Nat :=
  if s.upd.journal = .patching then 4000 else max 100 ((4000 - (s.clk.opUs - s.power.t0Us) / 1000 + 99) / 100 * 100)

/-- An authenticated request accepted: its SEQ and its place in the queue, in arrival order; Q0000 carries it to the
Marshal in RUN and HALT (R354, R371). -/
def acceptRequest (q : PendingReq) (s : State) : State :=
  let m := memberOf s q.member
  let s1 := setMember q.member { m with reqSeq := sput 0 m.reqSeq q.role.toNat (q.seq.toNat + 1) } s
  let keep := s1.px.last.filter fun l => !(decide (l.member = q.member) && decide (l.role = q.role))
  let s2 := { s1 with px := { s1.px with
    pending := s1.px.pending ++ [q]
    last := { member := q.member, role := q.role, seq := q.seq, mac := q.mac } :: keep } }
  if q.path = 2 then
    push 0 { buf := freeWord s2, len := BitVec.ofNat 16 q.body.length, src := 3, ts := tsNow s2
             tag := BitVec.ofNat 32 (q.role.toNat % 4 + 256 * q.member.toNat) } (drawn s2)
  else s2

/-- PX_REQUEST: BUSY in BRING-UP; a repeat gets the stored RESPONSE again, byte for byte (log 58); then length, authentication and
room. -/
def pxRequest (src : NetSrc) (x : PxIn) (s : State) : State :=
  let p := x.payload
  let path : Byte := if s.power.state = .safeService then 1 else 2
  let q : PendingReq := { member := x.member, role := nth 0 p 0, seq := x.seq, src := src, mac := reqMac p, body := reqBody p, path := path
                          key := roleKey s (leAt p 0 1) }
  let code := nth 0 q.body 0
  if s.px.muted then s
  else if s.power.state = .bringUp then
    sendBusy src x.seq (retryAfter s) { s with power := { s.power with busyPx := satInc s.power.busyPx } }
  else match s.px.last.find? fun l => l.member = x.member ∧ l.role = q.role ∧ l.seq = x.seq ∧ l.mac = q.mac with
    | some l => if l.response = [] then s else pxPut (replyTo src) l.response s
    | none =>
      if !bodyLenOk q.body then
        sendResponse (roleKey s q.role.toNat) q 0x11 (responseBody code (BitVec.ofNat 32 (leAt q.body 4 4)) 0x11 []) s
      else match authFailure x s with
        | some c => authFailed c src q s
        | none =>
          if (s.px.pending.filter fun q => decide (q.path ≠ 0)).length ≥ 16 then sendBusy src x.seq 100 { s with px := { s.px with busy := satInc s.px.busy } }
          else acceptRequest q s

/-! ### Time (R355) -/

/-- Seconds since 1 January 2000 of a calendar time. -/
def timeSeconds (t : Time) : Nat := 86400 * dayNumber t + 3600 * t.hour + 60 * t.minute + t.second

/-- The RTC field of a TIME frame, big-endian (R344). -/
def pxTimeOf (p : Bytes) : Time := { timeOf (p.take 8) with year := beAt p 0 2 }

/-- PX_TIME. -/
def pxTime (x : PxIn) (s : State) : State :=
  let off := (timeSeconds (pxTimeOf x.payload) : Int) - (timeSeconds s.rtc.time : Int)
  let s1 := { s with px := { s.px with timeOff := BitVec.ofInt 32 off } }
  if off < -2 ∨ 2 < off then tr 0x826 0 (item x.member.toNat ++ leInt 4 off) s1 else s1

/-- PX_TIME_SEND: every 60 s in RUN and HALT while the RTC is trusted. -/
def pxTimeSend (s : State) : State :=
  if inRunOrHalt s ∧ rtcTrusted s then
    let t := s.rtc.time
    pxSend (groupTo s) 6 0 (beBytes 2 t.year ++ (timeBytes t).drop 2 ++ leBytes 1 (b2n s.rtc.osf + 2 * b2n s.rtc.lbv) ++ zeros 1 ++
      beBytes 6 (opMs s)) s
  else s

/-! ### The unit's own frames and timers -/

/-- PX_HELLO_SEND: every 1,000 ms in BRING-UP, RUN, HALT and SAFE SERVICE (R345). -/
def pxHelloSend (s : State) : State := if pxOn s then pxSend (groupTo s) 1 0 (helloPayload s) s else s

/-- PX_JOIN_SEND: MEMBER × 4 ms after entry to RUN, and after every change of role (R79, R345). -/
def pxJoinSend (s : State) : State := if inRunOrHalt s then pxSend (groupTo s) 2 0 (joinPayload s) s else s

/-- HALT_PUBLISH (R348). -/
def haltPublish (s : State) : State := if s.power.state = .halt then publish true s else s

/-- PX_MEMBER_ABSENT: 3,000 ms without a valid frame (R345): the stored SEQ values are cleared, the SESSION is kept (R349). -/
def memberAbsent (m : Byte) (s : State) : State :=
  if (memberOf s m).present then
    setMember m { memberOf s m with present := false, imgSeq := none, reqSeq := [], joined := false } s
  else s

/-- PX_SOURCE_UNBLOCK: 60 s have passed (R352). -/
def sourceUnblock (ip : NetAddr) (s : State) : State :=
  { s with px := { s.px with blocked := s.px.blocked.filter fun x => decide (x ≠ ip) } }

/-! ### IP services (R342, R346) -/

/-- The PVID of the CPU port, on which alone the IP services answer (R342). -/
def cpuVid (s : State) : Nat := nth 1 s.sw.cfg.pvid 4

/-- ARP_MESSAGE: a claim of the unit's IPv4 address by another MAC address is a conflict (R346); a request for it on the CPU port's PVID
is answered there. A message with an IPv6 target is one of neighbour discovery, of which opcode 1 is a solicitation: it is answered
for the unit's IPv6 address (R342). -/
def arpMessage (vid : Nat) (opcode : Half) (senderIp : NetAddr) (senderMac : BitVec 48) (targetIp : NetAddr) (s : State) : State :=
  if !pxOn s then s
  else if senderIp = .v4 (ownIp s) ∧ senderMac ≠ Config.ownMac then conflict senderMac false s
  else if opcode = 1 ∧ vid = cpuVid s ∧ (targetIp = .v4 (ownIp s) ∨ targetIp = .v6 ownIp6) then
    { s with out := { s.out with arp := { ip := senderIp, mac := senderMac, vid := vid } :: s.out.arp } }
  else s

/-- ICMP_ECHO: answered to its sender in both address families, on the CPU port's PVID (R342). -/
def icmpEcho (src : NetSrc) (v6 : Bool) (ident seq : Half) (data : Bytes) (s : State) : State :=
  if pxOn s ∧ src.vid = cpuVid s then
    { s with out := { s.out with
        echo := { ip := src.ip, mac := src.mac, vid := src.vid, v6 := v6, ident := ident, seq := seq, data := data } :: s.out.echo } }
  else s

/-- PX_HELLO. -/
def execPxHello (src : NetSrc) (frame : Bytes) (s : State) : Result := .next (pxRx 1 src frame (pxHello src) s)
/-- PX_JOIN. -/
def execPxJoin (src : NetSrc) (frame : Bytes) (s : State) : Result := .next (pxRx 2 src frame pxJoin s)
/-- PX_IMAGE. -/
def execPxImage (src : NetSrc) (frame : Bytes) (s : State) : Result := .next (pxRx 3 src frame pxImage s)
/-- PX_REQUEST. -/
def execPxRequest (src : NetSrc) (frame : Bytes) (s : State) : Result := .next (pxRx 4 src frame (pxRequest src) s)
/-- PX_TIME. -/
def execPxTime (src : NetSrc) (frame : Bytes) (s : State) : Result := .next (pxRx 6 src frame pxTime s)
/-- PX_TIME_SEND. -/
def execPxTimeSend (s : State) : Result := .next (pxTimeSend s)
/-- PX_HELLO_SEND. -/
def execPxHelloSend (s : State) : Result := .next (pxHelloSend s)
/-- PX_JOIN_SEND. -/
def execPxJoinSend (s : State) : Result := .next (pxJoinSend s)
/-- HALT_PUBLISH. -/
def execHaltPublish (s : State) : Result := .next (haltPublish s)
/-- PX_MEMBER_ABSENT. -/
def execPxMemberAbsent (member : Byte) (s : State) : Result := .next (memberAbsent member s)
/-- PX_SOURCE_UNBLOCK. -/
def execPxSourceUnblock (ip : NetAddr) (s : State) : Result := .next (sourceUnblock ip s)
/-- ARP_MESSAGE. -/
def execArpMessage (src : NetSrc) (opcode : Half) (senderIp : NetAddr) (senderMac : BitVec 48) (targetIp : NetAddr) (s : State) : Result :=
  .next (arpMessage src.vid opcode senderIp senderMac targetIp s)
/-- ICMP_ECHO. -/
def execIcmpEcho (src : NetSrc) (v6 : Bool) (ident seq : Half) (data : Bytes) (s : State) : Result :=
  .next (icmpEcho src v6 ident seq data s)

end Sys2Proof.Machine
end

