-- ==== Sys2Proof/Machine/Modbus.lean ====
section
/-! DEFINITION. Modbus/TCP: connections, the map, the exceptions, and writes queued for the next freeze (R356 to R359).
Function codes, limits and the MBAP header are those of the Modbus application protocol (PRESUMED, log 58). -/

namespace Sys2Proof.Machine

/-- Is Modbus served: in RUN and HALT, unless muted (R356)? -/
def mbServed (s : State) : Bool := inRunOrHalt s && pdIs s 6 && !s.px.muted

/-- MB_CONNECT: a TCP connection attempt. On port 502 up to 8 connections are served; a further one, one in another state, and
one to another port is answered with a reset (R342, R356), while the CPU port runs. -/
def mbConnect (src : NetSrc) (s : State) : State :=
  if mbServed s ∧ src.toPort = 502 ∧ s.px.conns.length < 8 then
    { s with px := { s.px with conns := s.px.conns ++ [{ id := s.px.nextConn, src := src }], nextConn := s.px.nextConn + 1 } }
  else if pxOn s then { s with out := { s.out with resets := (src.ip, src.port) :: s.out.resets } }
  else s

/-- MB_IDLE_CLOSE. -/
def mbIdleClose (conn : Nat) (s : State) : State :=
  { s with px := { s.px with conns := s.px.conns.filter fun c => decide (c.id ≠ conn) } }

/-- A request: MBAP fields and the PDU after its function code. -/
structure MbReq where
  conn : Nat
  tid  : Half
  unit : Byte
  fc   : Nat
  pdu  : Bytes
deriving DecidableEq, Repr

/-- The two 16-bit fields that begin every served PDU: first address, and quantity or value. -/
def MbReq.addr (r : MbReq) : Nat := beAt r.pdu 0 2
def MbReq.qty (r : MbReq) : Nat := beAt r.pdu 2 2

/-- An ADU parsed; none where its header is malformed. -/
def mbParse (conn : Nat) (a : Bytes) : Option MbReq :=
  if 8 ≤ a.length ∧ beAt a 2 2 = 0 ∧ beAt a 4 2 + 6 = a.length then
    some { conn := conn, tid := BitVec.ofNat 16 (beAt a 0 2), unit := nth 0 a 6, fc := beAt a 7 1, pdu := a.drop 8 }
  else none

/-- The function codes served (R357). -/
def mbCodes : List Nat := [1, 2, 3, 4, 5, 6, 15, 16, 23]

/-- The exception of a request, in the order of R358, given whether its table may be used, its quantity is within the
limits, and its range lies in one row of the map. -/
def mbFault (allowed quantity range : Bool) : Nat := if !allowed then 1 else if !quantity then 3 else if !range then 2 else 0

/-- One request (R356): on an open connection, with a unit identifier of 0, 255 or MEMBER; a function code outside the list
gets 0x01. `f` serves the row's own function codes. -/
def mbRequest (fc conn : Nat) (adu : Bytes) (f : MbReq → State → State) (s : State) : State :=
  if !mbServed s ∨ !(s.px.conns.any fun c => c.id = conn) then s
  else
    let discarded := { s with px := { s.px with unmatched := satInc s.px.unmatched } }
    match mbParse conn adu with
    | none => discarded
    | some r =>
      if r.unit ≠ 0 ∧ r.unit ≠ 255 ∧ r.unit.toNat ≠ ownMember s then discarded
      else if !mbCodes.contains r.fc then mbException conn r.tid r.unit (BitVec.ofNat 8 r.fc) 1 s
      else if r.fc = fc then f r s
      else s

/-- A read answered from the commit's copy, or with its exception. -/
def mbAnswer (r : MbReq) (fault : Nat) (data : Bytes) (s : State) : State :=
  let fc := BitVec.ofNat 8 r.fc
  if fault = 0 then mbSend r.conn (mbAdu r.tid r.unit fc (leBytes 1 data.length ++ data)) s
  else mbException r.conn r.tid r.unit fc fault s

/-- Bits packed from bit 0 of the first byte on. -/
def packBits (bs : List Bool) : Bytes :=
  (List.range ((bs.length + 7) / 8)).map fun i => BitVec.ofNat 8 (maskOf 8 fun j => nth false bs (8 * i + j))

/-- A discrete input of the map; none where the row has no such address. -/
def mbDiscrete (c : MbCopy) (a : Nat) : Option Bool :=
  if a < 8192 then some (c.frz.i.getLsbD a)
  else if a < 16384 then some (c.q.getLsbD (a - 8192))
  else if a < 17408 then some (c.frz.s.getLsbD (a - 16384))
  else if a < 17664 then some (c.frz.w.getLsbD (a - 17408))
  else if a < 17696 then some (c.frz.k.getLsbD (a - 17664))
  else if a < 20480 then none
  else if a < 24576 then some (c.frz.l.getLsbD (a - 20480))
  else none

/-- An input register of the map; none where the row has no such address. -/
def mbInput (c : MbCopy) (r : Nat) : Option Nat :=
  let n := c.num.toNat
  if r < 32768 then some (256 * bits c.frz.p.toNat (16 * r) 8 + bits c.frz.p.toNat (16 * r + 8) 8)
  else if r = 32768 then some c.mgt.toNat
  else if r = 32769 then some (bits n 16 16)
  else if r = 32770 then some (bits n 0 16)
  else if r = 32771 then some (bits c.nowMs.toNat 16 16)
  else if r = 32772 then some (bits c.nowMs.toNat 0 16)
  else if r = 32773 then some (bits c.cycles.toNat 16 16)
  else if r = 32774 then some (bits c.cycles.toNat 0 16)
  else if r = 32775 then some (bits c.frz.w.toNat 32 16)
  else none

/-- Do `n` registers from `a` lie within the holding registers and D (R357)? -/
def mbHoldingIn (s : State) (a n : Nat) : Bool := decide (a + n ≤ 65536) && decide (2 * (a + n) ≤ dBytes s)

/-- May a table be written: its area is enabled and the unit is SOLO (R358)? -/
def mbMayWrite (s : State) (coil : Bool) : Bool :=
  s.px.mbEn.getLsbD (if coil then 0 else 1) && decide (s.power.role = .solo)

/-- An accepted write waits for the next freeze (R359). -/
def mbQueue (r : MbReq) (coil : Bool) (addr : Nat) (vs : List Half) (rdAddr rdQty fault : Nat) (s : State) : State :=
  if fault = 0 then
    let w : MbWrite := { conn := r.conn, tid := r.tid, unit := r.unit, fc := BitVec.ofNat 8 r.fc, coil := coil, addr := addr, values := vs
                         rdAddr := rdAddr, rdQty := rdQty }
    { s with px := { s.px with writes := s.px.writes ++ [w] } }
  else mbException r.conn r.tid r.unit (BitVec.ofNat 8 r.fc) fault s

/-- The bits and the registers that a write carries. -/
def bitValues (bs : Bytes) (n : Nat) : List Half :=
  (List.range n).map fun i => BitVec.ofNat 16 (b2n ((nth 0 bs (i / 8)).getLsbD (i % 8)))
def regValues (bs : Bytes) (n : Nat) : List Half := (List.range n).map fun i => BitVec.ofNat 16 (beAt bs (2 * i) 2)

/-- Function 1. -/
def readCoilsFn (r : MbReq) (s : State) : State :=
  let q := r.qty
  let ok := decide (r.pdu.length = 4) && decide (1 ≤ q) && decide (q ≤ 2000)
  mbAnswer r (mbFault true ok (decide (r.addr + q ≤ 65536))) (packBits ((List.range q).map fun i => s.ctx.mbCopy.m.getLsbD (r.addr + i))) s

/-- Function 2. -/
def readDiscreteFn (r : MbReq) (s : State) : State :=
  let q := r.qty
  let ok := decide (r.pdu.length = 4) && decide (1 ≤ q) && decide (q ≤ 2000)
  let vs := (List.range q).map fun i => mbDiscrete s.ctx.mbCopy (r.addr + i)
  mbAnswer r (mbFault true ok (vs.all Option.isSome)) (packBits (vs.map fun v => v.getD false)) s

/-- Function 3. -/
def readHoldingFn (r : MbReq) (s : State) : State :=
  let q := r.qty
  let ok := decide (r.pdu.length = 4) && decide (1 ≤ q) && decide (q ≤ 125)
  mbAnswer r (mbFault true ok (mbHoldingIn s r.addr q)) (regBytes ((List.range q).map fun i => mbHolding s.ctx.mbCopy (r.addr + i))) s

/-- Function 4. -/
def readInputFn (r : MbReq) (s : State) : State :=
  let q := r.qty
  let ok := decide (r.pdu.length = 4) && decide (1 ≤ q) && decide (q ≤ 125)
  let vs := (List.range q).map fun i => mbInput s.ctx.mbCopy (r.addr + i)
  mbAnswer r (mbFault true ok (vs.all Option.isSome)) (regBytes (vs.map fun v => v.getD 0)) s

/-- Function 5. -/
def writeCoilFn (r : MbReq) (s : State) : State :=
  let ok := decide (r.pdu.length = 4) && (decide (r.qty = 0xFF00) || decide (r.qty = 0))
  mbQueue r true r.addr [BitVec.ofNat 16 (b2n (decide (r.qty ≠ 0)))] 0 0 (mbFault (mbMayWrite s true) ok true) s

/-- Function 6. -/
def writeRegisterFn (r : MbReq) (s : State) : State :=
  let ok := decide (r.pdu.length = 4)
  mbQueue r false r.addr [BitVec.ofNat 16 r.qty] 0 0 (mbFault (mbMayWrite s false) ok (mbHoldingIn s r.addr 1)) s

/-- Function 15. -/
def writeCoilsFn (r : MbReq) (s : State) : State :=
  let q := r.qty
  let n := beAt r.pdu 4 1
  let ok := decide (1 ≤ q) && decide (q ≤ 1968) && decide (n = (q + 7) / 8) && decide (r.pdu.length = 5 + n)
  mbQueue r true r.addr (bitValues (r.pdu.drop 5) q) 0 0 (mbFault (mbMayWrite s true) ok (decide (r.addr + q ≤ 65536))) s

/-- Function 16. -/
def writeRegistersFn (r : MbReq) (s : State) : State :=
  let q := r.qty
  let n := beAt r.pdu 4 1
  let ok := decide (1 ≤ q) && decide (q ≤ 123) && decide (n = 2 * q) && decide (r.pdu.length = 5 + n)
  mbQueue r false r.addr (regValues (r.pdu.drop 5) q) 0 0 (mbFault (mbMayWrite s false) ok (mbHoldingIn s r.addr q)) s

/-- Function 23: the read range, then the written one. -/
def readWriteFn (r : MbReq) (s : State) : State :=
  let q := r.qty
  let wa := beAt r.pdu 4 2
  let wq := beAt r.pdu 6 2
  let n := beAt r.pdu 8 1
  let ok := decide (1 ≤ q) && decide (q ≤ 125) && decide (1 ≤ wq) && decide (wq ≤ 121) && decide (n = 2 * wq) &&
    decide (r.pdu.length = 9 + n)
  mbQueue r false wa (regValues (r.pdu.drop 9) wq) r.addr q
    (mbFault (mbMayWrite s false) ok (mbHoldingIn s r.addr q && mbHoldingIn s wa wq)) s

/-- MB_CONNECT. -/
def execMbConnect (src : NetSrc) (s : State) : Result := .next (mbConnect src s)
/-- MB_IDLE_CLOSE. -/
def execMbIdleClose (conn : Nat) (s : State) : Result := .next (mbIdleClose conn s)
/-- READ_COILS. -/
def execReadCoils (conn : Nat) (adu : Bytes) (s : State) : Result := .next (mbRequest 1 conn adu readCoilsFn s)
/-- READ_DISCRETE_INPUTS. -/
def execReadDiscreteInputs (conn : Nat) (adu : Bytes) (s : State) : Result := .next (mbRequest 2 conn adu readDiscreteFn s)
/-- READ_HOLDING_REGISTERS. -/
def execReadHoldingRegisters (conn : Nat) (adu : Bytes) (s : State) : Result := .next (mbRequest 3 conn adu readHoldingFn s)
/-- READ_INPUT_REGISTERS. -/
def execReadInputRegisters (conn : Nat) (adu : Bytes) (s : State) : Result := .next (mbRequest 4 conn adu readInputFn s)
/-- WRITE_SINGLE_COIL. -/
def execWriteSingleCoil (conn : Nat) (adu : Bytes) (s : State) : Result := .next (mbRequest 5 conn adu writeCoilFn s)
/-- WRITE_SINGLE_REGISTER. -/
def execWriteSingleRegister (conn : Nat) (adu : Bytes) (s : State) : Result := .next (mbRequest 6 conn adu writeRegisterFn s)
/-- WRITE_MULTIPLE_COILS. -/
def execWriteMultipleCoils (conn : Nat) (adu : Bytes) (s : State) : Result := .next (mbRequest 15 conn adu writeCoilsFn s)
/-- WRITE_MULTIPLE_REGISTERS. -/
def execWriteMultipleRegisters (conn : Nat) (adu : Bytes) (s : State) : Result :=
  .next (mbRequest 16 conn adu writeRegistersFn s)
/-- READ_WRITE_REGISTERS. -/
def execReadWriteRegisters (conn : Nat) (adu : Bytes) (s : State) : Result := .next (mbRequest 23 conn adu readWriteFn s)

end Sys2Proof.Machine
end

