-- ==== Sys2Proof/Machine/Panel.lean ====
section
/-! DEFINITION. The real-time clock, OSF and LBV, the alarm, keys, encoder, key lock and hurdle sequences
(R404 to R425). -/

namespace Sys2Proof.Machine

/-! ### Clock (R406, R407, R409, R410, R413) -/

/-- A calendar time one second later; the weekday counter moves at midnight. The flag tells the wrap after 2199. -/
def nextSecond (t : Time) : Time × Bool :=
  if t.second < 59 then ({ t with second := t.second + 1 }, false)
  else if t.minute < 59 then ({ t with second := 0, minute := t.minute + 1 }, false)
  else if t.hour < 23 then ({ t with second := 0, minute := 0, hour := t.hour + 1 }, false)
  else
    let t1 := { t with second := 0, minute := 0, hour := 0, weekday := (t.weekday + 1) % 7 }
    if t.day < daysIn t.year t.month then ({ t1 with day := t.day + 1 }, false)
    else if t.month < 12 then ({ t1 with day := 1, month := t.month + 1 }, false)
    else if t.year < 2199 then ({ t1 with day := 1, month := 1, year := t.year + 1 }, false)
    else ({ t1 with day := 1, month := 1, year := 2000 }, true)

/-- OSF set by a cause: 0 PD0 loss, 1 oscillator stop, 2 calendar wrap. SJ 0x0B02 is written when it is set, in OFF at the next start
(DEDUCED, log 59). -/
def setOsf (cause : Nat) (s : State) : State :=
  if s.rtc.osf then s else rtcNote (.osf cause) { s with rtc := { s.rtc with osf := true } }

/-- Does one field of the alarm agree, its wildcard being `w`? -/
def alarmField (w a v : Nat) : Bool := decide (a = w) || decide (a = v)

/-- Does the alarm match (R413)? -/
def alarmMatches (a t : Time) : Bool :=
  alarmField 0xFFFF a.year t.year && alarmField 0xFF a.month t.month && alarmField 0xFF a.day t.day &&
  alarmField 0xFF a.hour t.hour && alarmField 0xFF a.minute t.minute && alarmField 0xFF a.second t.second &&
  alarmField 0xFF a.weekday t.weekday

/-- A match: ALARM_HIT and TR 0x0B05 with the state at the match, whether or not the alarm is enabled; with it enabled PWR_ON and a
wake source too (R413, R414). In OFF the record waits for the next start (DEDUCED, log 59). -/
def alarmMatched (s : State) : State :=
  let s1 := { s with rtc := { s.rtc with alarmHit := true } }
  let s2 := if powered s then tr 0xB05 0 (item (stateCode s.power.state)) s1 else rtcNote .alarm s1
  if s.rtc.alarmEn then wakeUp 1 { s2 with rtc := { s2.rtc with pwrOn := true } } else s2

/-- RTC_SECOND. -/
def rtcSecond (s : State) : State :=
  let (t, wrap) := nextSecond s.rtc.time
  let s1 := { s with rtc := { s.rtc with time := t, secUs := 0 } }
  let s2 := if wrap then setOsf 2 s1 else s1
  if alarmMatches s2.rtc.alarm t then alarmMatched s2 else s2

/-! ### RTC_SET (R412) -/

/-- Is every field of TIME in range, with a day that exists? -/
def timeOk (t : Time) : Bool :=
  decide (2000 ≤ t.year) && decide (t.year ≤ 2199) && decide (1 ≤ t.month) && decide (t.month ≤ 12) && decide (1 ≤ t.day) &&
  decide (t.day ≤ daysIn t.year t.month) && decide (t.hour ≤ 23) && decide (t.minute ≤ 59) && decide (t.second ≤ 59) &&
  decide (t.weekday ≤ 6)

/-- Is every field of ALARM in range or its wildcard? -/
def alarmOk (t : Time) : Bool :=
  (decide (t.year = 0xFFFF) || (decide (2000 ≤ t.year) && decide (t.year ≤ 2199))) &&
  (decide (t.month = 0xFF) || (decide (1 ≤ t.month) && decide (t.month ≤ 12))) &&
  (decide (t.day = 0xFF) || (decide (1 ≤ t.day) && decide (t.day ≤ 31))) &&
  (decide (t.hour = 0xFF) || decide (t.hour ≤ 23)) && (decide (t.minute = 0xFF) || decide (t.minute ≤ 59)) &&
  (decide (t.second = 0xFF) || decide (t.second ≤ 59)) && (decide (t.weekday = 0xFF) || decide (t.weekday ≤ 6))

/-- Step 1: the time, OSF and SJ 0x0B01 with the path. -/
def rtcSetTime (t : Time) (path : Nat) (s : State) : State :=
  sj 0xB01 0 (timeBytes s.rtc.time ++ timeBytes t ++ item path)
    { s with rtc := { s.rtc with time := t, secUs := 0, osf := false } }

/-- An accepted RTC_SET: FLAGS, TIME and ALARM; the metering actions of R272 follow at the next metering tick. -/
def rtcSet (flags : Nat) (t a : Time) (path : Nat) (s : State) : State :=
  let s1 := if bitOf flags 0 then rtcSetTime t path s else s
  let s2 := if bitOf flags 1 then { s1 with rtc := { s1.rtc with alarm := a, alarmEn := bitOf flags 2 } } else s1
  let s3 := timeAnchor 1 s2
  pushEvent 9 1 (BitVec.ofNat 32 (flags % 4)) { s3 with mtr := { s3.mtr with pendingSet := s3.mtr.running } }

/-! ### Keys (R415 to R419) -/

/-- PRESS_DEB, REL_DEB and STUCK_S in force: of the pressed PANEL section, else 20 ms, 20 ms and 30 s (R415). -/
def keyTimes (s : State) : Nat × Nat × Nat :=
  match restOf s with
  | some r => (r.panel.pressDeb.toNat, r.panel.relDeb.toNat, r.panel.stuckS.toNat)
  | none => (20, 20, 30)

/-- Does a scan find the raw state of key k other than its debounced one? Which contacts are closed between two debounced changes no
command tells: each is a free bit, but never for the PRESS_DEB or REL_DEB consecutive scans that would make a change, which KEY_PRESS
and KEY_RELEASE bring (DESIGN CHOICE, log 100). -/
def bounces (s : State) (k : Nat) : Bool :=
  (freeWord s).getLsbD k &&
    decide (nth 0 s.pan.bounce k + 1 < if s.pan.pressed.getLsbD k then (keyTimes s).2.1 else (keyTimes s).1)

/-- The scan of the matrix and the encoder push, every 1 ms while the Marshal works (R415): the raw states, and for how many scans now
each has differed from the debounced one. -/
def keyScan (s : State) : State :=
  if awake s ∧ s.clk.opUs % 1000 = 0 then
    { drawn s with pan := { s.pan with
        raw := BitVec.ofNat 21 (maskOf 21 fun k => xor (s.pan.pressed.getLsbD k) (bounces s k))
        bounce := (List.range 21).map fun k => if bounces s k then nth 0 s.pan.bounce k + 1 else 0 } }
  else s

/-- A debounced change of key k: the last scan of those that make it found the raw state so (R415). -/
def debounced (k : Nat) (down : Bool) (s : State) : State :=
  { s with pan := { s.pan with
      raw := setBit s.pan.raw k down, bounce := setAt s.pan.bounce k 0, pressed := setBit s.pan.pressed k down
      pressUs := sput 0 s.pan.pressUs k (if down then s.clk.opUs else 0) } }

/-- Is each debounced change delivered (R416)? -/
def keysDelivered (s : State) : Bool := awake s && !s.pan.locked && decide (s.pan.entry = none)

/-- A KEY event: source, pressed, encoder count (R416). -/
def keyEvent (source : Nat) (down : Bool) (s : State) : State :=
  pushEvent 13 1 (BitVec.ofNat 32 (source + 256 * b2n down + 65536 * (s.pan.enc % 65536).toNat)) s

/-- A delivered change of key k. -/
def deliverKey (k : Nat) (down : Bool) (s : State) : State :=
  keyEvent k down { s with pan := { s.pan with
    delivered := setBit s.pan.delivered k down
    lastActUs := if down then s.clk.opUs else s.pan.lastActUs } }

/-- SALT, SVC_LEN and SVC_DIGEST against which the service unlock is judged: the pressed PANEL, else the MRAM copy
(R373). -/
def serviceSequence (s : State) : Option (Bytes × Nat × Bytes) :=
  match restOf s with
  | some r => some (r.panel.salt, r.panel.svcLen, r.panel.svcDig)
  | none => s.mgt.panelCopy

/-- May a press open an entry: there is a sequence to judge, and no lockout stands (R421 to R423)? -/
def entryMayOpen (s : State) : Bool :=
  (serviceSequence s).isSome && (match s.pan.lockoutEnd with
    | some e => decide (e ≤ opMs s)
    | none => true)

/-- An entry opens. From here on nothing is delivered, so no delivered state stands (DEDUCED, log 59). -/
def openEntry (ks : List Nat) (s : State) : State :=
  { s with pan := { s.pan with entry := some ks, entryUs := s.clk.opUs, delivered := 0, lastPushUs := none } }

/-- SVC opens (R373): SJ 0x0920 with the unlock source, 0 Mould PANEL, 1 MRAM copy. -/
def openSvc (source : Nat) (s : State) : State :=
  if s.mgt.svcOpen then s
  else sj 0x920 0 (item source) { s with mgt := { s.mgt with svcOpen := true, svcLastUs := s.clk.opUs } }

/-- An entry closed by a success (R421, R422): 0 user, 1 service. Without a pressed PANEL the panel stays locked (R423). -/
def entrySucceeds (service : Bool) (s : State) : State :=
  let s1 := sj 0xB10 0 (item (b2n service)) { s with pan := { s.pan with
    entry := none, wrong := 0, locked := s.pan.locked && (restOf s).isNone, lastActUs := s.clk.opUs } }
  if service then openSvc (b2n (restOf s).isNone) s1 else s1

/-- An entry closed as a wrong attempt: cause 0 judged, 1 timeout; the fifth starts a lockout (R422). -/
def entryFails (cause : Nat) (keys : Nat) (s : State) : State :=
  let w := s.pan.wrong + 1
  let s1 := sj 0xB12 1 (item keys ++ item w ++ item cause) { s with pan := { s.pan with entry := none, wrong := w } }
  if w ≥ 5 then
    sj 0xB13 1 (item (opMs s + 60000)) { s1 with pan := { s1.pan with wrong := 0, lockoutEnd := some (opMs s + 60000) } }
  else s1

/-- Does a recorded sequence agree with a length and a digest? An entry with more than 8 keys can only be wrong. -/
def sequenceIs (ks : List Nat) (salt : Bytes) (len : Nat) (dig : Bytes) : Bool :=
  decide (ks.length ≤ 8) && decide (ks.length = len) && decide (sha256 (salt ++ ks.map (BitVec.ofNat 8)) = dig)

/-- The entry judged at the encoder push (R421, R423). -/
def judgeEntry (ks : List Nat) (s : State) : State :=
  if ks = [] then { s with pan := { s.pan with entry := none } }
  else
    let service : Bool := match serviceSequence s with
      | some x => sequenceIs ks x.1 x.2.1 x.2.2
      | none => false
    let user : Bool := match restOf s with
      | some r => sequenceIs ks r.panel.salt r.panel.userLen r.panel.userDig
      | none => false
    if service then entrySucceeds true s else if user then entrySucceeds false s else entryFails 0 ks.length s

/-- A key recorded in the open entry; the 10 s run from the first. -/
def recordKey (k : Nat) (ks : List Nat) (s : State) : State :=
  { s with pan := { s.pan with entry := some (ks ++ [k]), entryUs := if ks = [] then s.clk.opUs else s.pan.entryUs } }

/-- A press of the encoder push that is delivered: the second within 500 ms opens an entry. -/
def deliverPush (s : State) : State :=
  let s1 := deliverKey 20 true s
  let second : Bool := match s.pan.lastPushUs with
    | some t => decide (s.clk.opUs ≤ t + 500000)
    | none => false
  if second ∧ entryMayOpen s then openEntry [] s1
  else { s1 with pan := { s1.pan with lastPushUs := some s.clk.opUs } }

/-- KEY_PRESS, at the scan that completes PRESS_DEB closed ones (R415): K00 to K19 are 0 to 19, the encoder push is 20. The opening press is the entry's first key (DEDUCED,
log 59). -/
def keyPress (k : Nat) (s : State) : State :=
  if !awake s ∨ s.pan.pressed.getLsbD k then s
  else
    let s1 := debounced k true s
    match s.pan.entry with
    | some ks => if k = 20 then judgeEntry ks s1 else recordKey k ks s1
    | none =>
      if !s.pan.locked then (if k = 20 then deliverPush s1 else deliverKey k true s1)
      else if k ≠ 20 ∧ entryMayOpen s then openEntry [k] s1
      else s1

/-- KEY_RELEASE, at the scan that completes REL_DEB open ones (R415 to R417). -/
def keyRelease (k : Nat) (s : State) : State :=
  if !awake s ∨ !s.pan.pressed.getLsbD k then s
  else
    let held := (s.clk.opUs - sget 0 s.pan.pressUs k) / 1000000
    let t := debounced k false s
    let s1 := { t with pan := { t.pan with stuck := setBit s.pan.stuck k false } }
    if s.pan.stuck.getLsbD k then sj 0xB21 0 (item k ++ item held) s1
    else if keysDelivered s then deliverKey k false s1
    else s1

/-- KEY_STUCK (R417). -/
def keyStuck (k : Nat) (s : State) : State :=
  if !awake s ∨ !s.pan.pressed.getLsbD k ∨ s.pan.stuck.getLsbD k then s
  else sj 0xB20 2 (item k) { s with pan := { s.pan with
    stuck := setBit s.pan.stuck k true, delivered := setBit s.pan.delivered k false } }

/-- ENCODER_STEP (R419). -/
def encoderStep (up : Bool) (s : State) : State :=
  if keysDelivered s then
    let n := if up then min 32767 (s.pan.enc + 1) else max (-32767) (s.pan.enc - 1)
    keyEvent 31 false { s with pan := { s.pan with enc := n, lastActUs := s.clk.opUs } }
  else s

/-- PANEL_INACTIVITY_LOCK (R420). An entry that is open stays open: only SB 28 is said to close one. -/
def inactivityLock (s : State) : State :=
  match restOf s with
  | some r =>
    if awake s ∧ r.panel.lockS ≠ 0 ∧ !s.pan.locked then
      let t := lockPanel 1 s
      { t with pan := { t.pan with entry := s.pan.entry } }
    else s
  | none => s

/-- HURDLE_TIMEOUT (R421). -/
def hurdleTimeout (s : State) : State :=
  match s.pan.entry with
  | some (_ :: ks) => if awake s then entryFails 1 (ks.length + 1) s else s
  | _ => s

/-- SVC_HELD_KEYS (R423): K00 and K04 held for 10 s open SVC where there is no sequence to judge. SJ 0x0B10 has source 2,
service by held keys; SJ 0x0920 names two unlock sources, and this is neither: free (log 3). -/
def svcHeldKeys (s : State) : State :=
  if awake s ∧ (serviceSequence s).isNone ∧ s.pan.pressed.getLsbD 0 ∧ s.pan.pressed.getLsbD 4 ∧ !s.mgt.svcOpen then
    let s1 := sj 0xB10 0 (item 2) s
    openSvc (freeWord s1).toNat (drawn s1)
  else s

/-- RTC_SECOND. -/
def execRtcSecond (s : State) : Result := .next (rtcSecond s)
/-- OSCILLATOR_STOP. -/
def execOscillatorStop (s : State) : Result := .next (setOsf 1 s)
/-- BAT_MEASURE. -/
def execBatMeasure (mv : Half) (s : State) : Result := .next (batMeasure mv s)
/-- KEY_PRESS. -/
def execKeyPress (key : Fin 21) (s : State) : Result := .next (keyPress key s)
/-- KEY_RELEASE. -/
def execKeyRelease (key : Fin 21) (s : State) : Result := .next (keyRelease key s)
/-- KEY_STUCK. -/
def execKeyStuck (key : Fin 21) (s : State) : Result := .next (keyStuck key s)
/-- ENCODER_STEP. -/
def execEncoderStep (up : Bool) (s : State) : Result := .next (encoderStep up s)
/-- PANEL_INACTIVITY_LOCK. -/
def execPanelInactivityLock (s : State) : Result := .next (inactivityLock s)
/-- HURDLE_TIMEOUT. -/
def execHurdleTimeout (s : State) : Result := .next (hurdleTimeout s)
/-- SVC_HELD_KEYS. -/
def execSvcHeldKeys (s : State) : Result := .next (svcHeldKeys s)

end Sys2Proof.Machine
end

