-- ==== Sys2Proof/Machine/EditPkg.lean ====
section
/-! DEFINITION. Edit packages: layout, checks 0x00 to 0x0A, the inactive bank, and the edit states that requests and
SYNC move (R190 to R198, R205, R231). -/

namespace Sys2Proof.Machine

/-! ### The package (R190, R191) -/

/-- One entry: OP 0 DELETE, 1 ADD, 2 REPLACE, with TYPE, NUMBER and the block image's offset. -/
structure EditEntry where
  op     : Nat
  typ    : Nat
  number : Nat
  offset : Nat
deriving DecidableEq, Repr

/-- The entries and the listed cells. -/
def editEntries (p : Bytes) : List EditEntry :=
  (List.range (leAt p 6 2)).map fun i =>
    let a := 192 + 8 * i
    { op := leAt p a 1, typ := leAt p (a + 1) 1, number := leAt p (a + 2) 2, offset := leAt p (a + 4) 4 }
def editCells (p : Bytes) : List Nat :=
  (List.range (leAt p 16 2)).map fun i => leAt p (192 + 8 * leAt p 6 2 + 2 * i) 2

/-- A block of a program as bytes under its type and number. -/
structure ProgBlock where
  typ    : Nat
  number : Nat
  bytes  : Bytes
deriving DecidableEq, Repr

/-- The running program's blocks. -/
def progBlocks (bs : List CodeBlock) : List ProgBlock :=
  bs.map fun b => { typ := b.typ.toNat, number := b.number, bytes := blockBytes b }

/-- The block image that an entry names. -/
def entryImage (p : Bytes) (e : EditEntry) : Bytes := ((rawBlock (p.drop e.offset)).map RawBlock.bytes).getD []

/-- One entry applied (R191): DELETE, REPLACE in place, ADD at the end. The block stands under the entry's TYPE and NUMBER; that a
header of its image which differs is not checked, and stands as it is, is the model's choice (DESIGN CHOICE, log 94). -/
def applyEntry1 (p : Bytes) (bs : List ProgBlock) (e : EditEntry) : List ProgBlock :=
  if e.op = 0 then bs.filter fun b => !(decide (b.typ = e.typ) && decide (b.number = e.number))
  else if e.op = 1 then bs ++ [{ typ := e.typ, number := e.number, bytes := entryImage p e }]
  else bs.map fun b => if b.typ = e.typ ∧ b.number = e.number then { b with bytes := entryImage p e } else b

/-- The bytes of the program after the edit (R191). -/
def editedBytes (p : Bytes) (bs : List CodeBlock) : Bytes :=
  ((editEntries p).foldl (applyEntry1 p) (progBlocks bs)).flatMap ProgBlock.bytes

/-! ### Checks (R192) -/

/-- 0x01 FORMAT. The ranges that R190 gives belong to it: ENTRY_COUNT, NEW_CELLS, OFFSET 0 for DELETE, strictly ascending cells, an OP
of 0 to 2, and a LENGTH that a block may have; the table of R192 names no code for them (DESIGN CHOICE, log 94). -/
def editFormat (p : Bytes) : Bool :=
  let n := leAt p 6 2
  let c := leAt p 16 2
  let cells := editCells p
  decide (192 ≤ p.length) && decide (leAt p 0 4 = 0x4A454454) && decide (leAt p 4 2 = 1) && decide (1 ≤ n) && decide (n ≤ 4096) &&
  decide (leAt p 8 4 = p.length) && decide (c ≤ 16384) && decide (leAt p 18 2 = 0) && decide (leAt p 24 8 = 0) &&
  decide (192 + 8 * n + 2 * c ≤ p.length) && decide (cells.Pairwise (· < ·)) &&
  (editEntries p).all fun e => decide (e.op ≤ 2) &&
    (if e.op = 0 then decide (e.offset = 0) else (rawBlock (p.drop e.offset)).isSome)

/-- 0x06 ENTRY. -/
def editEntriesOk (p : Bytes) (bs : List CodeBlock) : Bool :=
  let es := editEntries p
  let names : List (Nat × Nat) := es.map fun e => (e.typ, e.number)
  let there := fun (e : EditEntry) => bs.any fun b => decide (b.typ.toNat = e.typ) && decide (b.number = e.number)
  decide names.Nodup && es.all fun e =>
    !(decide (e.op = 0) && decide (e.typ = 0)) && (if e.op = 1 then !there e else there e)

/-- 0x09 CELLS: the listed cells are those used by the edited program and not by the running one. -/
def editCellsOk (p : Bytes) (old new : List CodeBlock) : Bool :=
  let oldCells := cellsOf old
  decide (editCells p = (cellsOf new).filter fun c => !oldCells.contains c)

/-- A failing check: its code, and the verifier's finding at 0x08. -/
structure EditFail where
  code   : Nat
  verify : Option VerFail := none
deriving DecidableEq, Repr

/-- The checks of R192 up to 0x09: the edited program, or the first failing check. -/
def editCheck (p : Bytes) (s : State) : Except EditFail (List CodeBlock) :=
  let key := manSignKey (bankManifest s.upd.active s)
  let bytes := editedBytes p s.prog.blocks
  if !editFormat p then .error { code := 1 }
  else if slice p 96 32 ≠ sha256 (p.take 96 ++ p.drop 192) then .error { code := 2 }
  else if !(keyAdmitted s key && editSigned key p) then .error { code := 3 }
  else if slice p 32 32 ≠ s.prog.progHash then .error { code := 4 }
  else if leAt p 12 4 ≠ s.mgt.testedSet.toNat then .error { code := 5 }
  else if !editEntriesOk p s.prog.blocks then .error { code := 6 }
  else if sha256 bytes ≠ slice p 64 32 then .error { code := 7 }
  else match verifyProgram (dKib s) (((restOf s).map MouldRest.eventMask).getD 0) bytes with
    | .error f => .error { code := 8, verify := some f }
    | .ok new => if editCellsOk p s.prog.blocks new then .ok new else .error { code := 9 }

/-- What the verifier's run leaves: BX.VERIFY, and SJ 0x0240 with source 2 at a rejection (R193). -/
def editVerifyNote (r : Except EditFail (List CodeBlock)) (s : State) : State :=
  match r with
  | .ok _ => noteVerify none s
  | .error f =>
    match f.verify with
    | some v => programRejected v 2 s
    | none => if f.code = 9 then noteVerify none s else s

/-! ### The inactive bank (R194) -/

/-- The contents of one bank copied over the other. -/
def copyBank (src : Bool) (s : State) : State :=
  let a := bankBase src
  let b := bankBase (!src)
  let s1 := flashErase b 0x1000000 s
  let cells := s.flash.filter fun c => decide (a ≤ c.1) && decide (c.1 < a + 0x1000000)
  { s1 with flash := cells.foldl (fun (m : Mem) c => memPut 0xFF flashSize m (c.1 - a + b) c.2) s1.flash }

/-- Where a bank holds an edited program of `n` bytes, and where its chain begins: the program at its part's place, or behind the
parts where its blocks do not hold it; the chain behind both (log 75). -/
def editPlaces (m : Bytes) (n : Nat) : Nat × Nat :=
  let tail := (manParts 1 m).foldl (fun a e => max a (4096 * ((extentOf e).1 + (extentOf e).2))) 4096
  match manPart 1 m 0x11 with
  | some e => if n ≤ 4096 * (extentOf e).2 then (e.location, tail) else (tail, tail + (n + 4095) / 4096 * 4096)
  | none => (tail, tail + (n + 4095) / 4096 * 4096)

/-- Bytes written into a bank from an offset on, as far as the bank goes. -/
def bankPut (b : Bool) (o : Nat) (bs : Bytes) (s : State) : State := flashWrite (bankBase b + o) (bs.take (0x1000000 - o)) s

/-- An edited program and its chain, each package behind its length in 4 bytes, in the flash of a bank. -/
def putEdit (b : Bool) (prog : Bytes) (chain : List Bytes) (s : State) : State :=
  let m := bankManifest b s
  let (o, c) := editPlaces m prog.length
  let s1 := match manPart 1 m 0x11 with
    | some e => flashErase (bankBase b + e.location) (4096 * (extentOf e).2) s
    | none => s
  bankPut b c (chain.flatMap fun p => leBytes 4 p.length ++ p) (bankPut b o prog s1)

/-- The edited program, the active application manifest and the chain ending with this edit in the inactive bank. -/
def writeEditBank (p : Bytes) (s : State) : State :=
  let x := bankOf s.upd.active s
  let b := !s.upd.active
  let y : Bank := { x with chain := x.chain ++ [p], prog := editedBytes p s.prog.blocks }
  putEdit b y.prog y.chain (setBank b y (copyBank s.upd.active s))

/-- LOADED: the edited program held, the bank written, SJ 0x0250 (R194, R207). -/
def editHeldNow (p : Bytes) (new : List CodeBlock) (s : State) : State :=
  let s1 := writeEditBank p s
  sj 0x250 0 (slice p 64 8 ++ item (leAt p 20 4) ++ item (leAt p 6 2) ++ item (leAt p 16 2)) { s1 with edit := { s1.edit with
    state := .loaded, result := 0, prog := new, newHash := slice p 64 32, newCells := editCells p
    build := BitVec.ofNat 32 (leAt p 20 4), entries := leAt p 6 2, package := p, peerWait := false, confirmed := false, acked := false
    adoptNow := false, tries := 0, trial := none, window := 0, aborted := false, reports := [] } }

/-- A rejected EDIT_LOAD (R193): SJ 0x0251 with the code, the verifier's code and the unit, 0 own or 1 pacer; the
request's final status is 0x31. -/
def editRejected (code ver unit : Nat) (s : State) : State :=
  let s1 := editNone s
  asyncDone 6 0x31 (sj 0x251 1 (item code ++ item ver ++ item unit)
    { s1 with edit := { s1.edit with result := BitVec.ofNat 8 code } })

/-! ### Movements of an edit (R195 to R198) -/

/-- Does this leader coordinate a pacer in shadow-lap pairing (R196)? -/
def leadsPacer (s : State) : Bool := decide (s.power.role = .leader) && !s.sbx.migrating

/-- The EDIT_FWD frames of a package: OFFSET and bytes, LAST on the final one (R209, R231). Each carries at most 4,088
bytes beside CODE and OFFSET. The fuel bounds their number. -/
def editFrames (lap : Nat) (p : Bytes) : Nat → Nat → List Bytes
  | 0, _ => []
  | k + 1, o =>
    let part := slice p o 4088
    let last := decide (p.length ≤ o + 4088)
    syncFrame 6 last lap (o / 4088) (leBytes 1 5 ++ zeros 3 ++ leBytes 4 o ++ part) :: (if last then [] else editFrames lap p k (o + 4088))

/-- EDIT_LOAD's checks in the unit itself, after acceptance; a leader then waits for its pacer (R196). -/
def editLoadOwn (p : Bytes) (s : State) : State :=
  let r := editCheck p s
  let s1 := editVerifyNote r { s with edit := { s.edit with state := .loading } }
  match r with
  | .error f => editRejected f.code ((f.verify.map VerFail.code).getD 0) 0 s1
  | .ok new =>
    if leadsPacer s1 then
      let s2 := { s1 with edit := { s1.edit with prog := new, package := p, peerWait := true, peerWaitUs := s1.clk.opUs } }
      syncSend (editFrames s2.lap.num.toNat p (p.length / 4088 + 1) 0) s2
    else asyncDone 6 0 (editHeldNow p new s1)

/-- EDIT_CMD to the pacer (R231). -/
def editCommand (args : Bytes) (s : State) : State := syncControl 7 args s

/-- A trial begins (R195, R197): window 0 is RIPE at once, with no trial lap, and with SJ 0x0253 alone (DESIGN CHOICE, log 83). -/
def trialStart (window first : Nat) (s : State) : State :=
  let s1 := { s with edit := { s.edit with 
    state := .trial, window := window, trialRun := 0, trialDiff := 0, reports := [], trial := none, aborted := false
    trialFirst := BitVec.ofNat 64 first } }
  if window = 0 then endTrial 0 0 s1 else sj 0x252 0 (item window ++ item8 first) s1

/-- The edit discarded by a request, cause 0; the inactive bank is marked empty (R195). For the causes 1 restart and 2 application
activation see discardAtRestart and editSuperseded. -/
def editDiscarded (cause : Nat) (s : State) : State := sj 0x255 0 (item cause) (editNone (emptyInactive s))

/-- The report of a slot (R199): an unused one has format 0 and zeros. -/
def reportSlot (slot : Nat) (s : State) : Bytes := nth (zeros 1056) s.edit.reports slot

end Sys2Proof.Machine
end

