-- ==== Sys2Proof/Machine/SyncCmds.lean ====
section
/-! DEFINITION. Hot standby between laps: HELLO, HEARTBEAT, pairing, CONTROL frames, silence, probing and takeover, and
the edit traffic of a pair (R196, R208 to R210, R215 to R231). -/

namespace Sys2Proof.Machine

/-! ### Frames that a unit sends of itself (R209, R210) -/

/-- SBY.STATUS.COND. -/
def condCode : Cond → Nat
  | .unpaired => 0
  | .tracking => 1
  | .resync => 2
  | .detached => 3
  | .withdrawn => 4
  | .refused => 5
  | .migrating => 6
  | .leading => 7

/-- The digest that R107 compares, and the Tested Sets of the system manifest's bridge list. -/
def pairDigest (s : State) : Bytes := sha256 (((restOf s).map MouldRest.pairBytes).getD [])
def ownBridges (s : State) : List Nat := manBridges s.upd.manifest

/-- The 64-byte HELLO payload. -/
def syncHelloPayload (s : State) : Bytes :=
  leBytes 4 s.mgt.testedSet.toNat ++ leBytes 1 (ownMember s) ++ leBytes 1 (ownPartner s) ++ leBytes 1 (stateCode s.power.state) ++
    leBytes 1 (roleCode s.power.role) ++ leBytes 4 (runMs s) ++ pairDigest s ++ leBytes 1 (ownBridges s).length ++ zeros 3 ++
    padTo 16 ((ownBridges s).flatMap (leBytes 4))

/-- The 8-byte HEARTBEAT payload. -/
def heartbeatPayload (s : State) : Bytes :=
  leBytes 1 (stateCode s.power.state) ++ leBytes 1 (roleCode s.power.role) ++ leBytes 1 (condCode s.sby.cond) ++ zeros 1 ++
    leBytes 4 (runMs s)

/-- SYNC_HELLO_SEND (R210): in RUN and HALT, with a partner named, outside a tracking pair. That a unit in HALT takes no part in
pairing (R225) its HELLO's STATE tells the partner. Its LAP is the present lap number (DESIGN CHOICE, log 91). -/
def syncHelloSend (s : State) : State :=
  if inRunOrHalt s ∧ partnerNamed s ∧ !tracking s then syncSend1 1 s.lap.num.toNat (syncHelloPayload s) s else s

/-- HEARTBEAT_SEND: in RUN and HALT. Its LAP is the present lap number (DESIGN CHOICE, log 91). -/
def heartbeatSend (s : State) : State := syncSend1 2 s.lap.num.toNat (heartbeatPayload s) s

/-! ### What a pacer does on entering a condition (R215) -/

/-- The outputs held off after protection and reflex networks. -/
def holdOutputs (s : State) : State := refreshOutputs { s with sbx := { s.sbx with held := true, batonKeep := false } }

/-- A pacer's laps stop: the lap that runs, a SOLO's own too that yields, is abandoned, waiting LAPSTARTs are dropped, a baton pass is forgotten. The lap number goes
back to that of the last completed lap, which the TAKEOVER record names (R232). -/
def pacerIdle (s : State) : State :=
  let s1 := stopLap s
  { s1 with lap := { s1.lap with num := if s.lap.running = .shadow ∨ s.lap.running = .lap then s1.lap.num - 1 else s1.lap.num }
            sbx := { s1.sbx with lsQueue := [], batonB := 0, batonConf := false, batonAck := false, adoptAck := false } }

/-- A pacer in a condition in which it runs no laps. -/
def pacerEnters (c : Cond) (s : State) : State :=
  holdOutputs { pacerIdle s with sby := { s.sby with cond := c } }

/-- RESYNC: the pacer's state discarded (R217 step 1), SJ 0x0305 with the starting lap. Which cells are fresh is no part of the state
block: an unexecuted one stays so (R205). -/
def pacerResync (lap : Nat) (s : State) : State :=
  let s1 := pacerEnters .resync (abortTrial 6 s)
  sj 0x305 0 (item8 lap) { s1 with
    img := { ({} : Images) with fresh := s1.img.fresh }, data := memErase s1.data 0 (dBytes s1), sbx := { s1.sbx with digestValid := false, rsStartUs := s1.clk.opUs } }

/-! ### Pairing (R225 to R228) -/

/-- Admission by R226: 1 shadow-lap pairing, 2 migration, 2 + r refused with reason r. -/
def admissionOf (h : Bytes) (s : State) : Nat :=
  let set := leAt h 0 4
  let bridges := (List.range (min 4 (leAt h 44 1))).map fun i => leAt h (48 + 4 * i) 4
  if leAt h 4 1 ≠ ownPartner s ∨ leAt h 5 1 ≠ ownMember s then 3
  else if slice h 12 32 ≠ pairDigest s then 4
  else if set = s.mgt.testedSet.toNat then 1
  else if (ownBridges s).contains set ∨ bridges.contains s.mgt.testedSet.toNat then 2
  else 5

/-- SJ 0x0301: shadow-lap 0 or migration 1, own role, partner's member address. -/
def saidPaired (a : Nat) (s : State) : State :=
  sj 0x301 0 (item (a - 1) ++ item (roleCode s.power.role) ++ item (ownPartner s)) s

/-- A refusal: REFUSED, PAIR_REFUSED, SJ 0x0304 once per reason. -/
def refusePairing (r set : Nat) (s : State) : State :=
  let s1 := syncControl 9 (leBytes 1 r) { s with sby := { s.sby with reason := BitVec.ofNat 4 r } }
  let s2 := if s1.sby.cond = .refused then s1 else pacerEnters .refused s1
  if s2.sbx.saidReasons.contains r then s2
  else sj 0x304 2 (item r ++ item set) { s2 with sbx := { s2.sbx with saidReasons := r :: s2.sbx.saidReasons } }

/-- The unit that does not lead takes the pacer role: YIELD, outputs held off, the condition of R226; SJ 0x030C where both
units have led (R227). -/
def yieldLead (a set : Nat) (s : State) : State :=
  let wasSolo := decide (s.power.role = .solo)
  let s1 := if wasSolo ∨ a ≤ 2 then syncControl 4 [] s else s
  let s2 := changeRole .pacer s1
  let s3 := if wasSolo ∧ s2.sbx.dualLead then sj 0x30C 2 (item (ownMember s2)) s2 else s2
  let s4 := { s3 with sbx := { s3.sbx with dualLead := false, probing := false, pxSeen := false } }
  if a = 1 then saidPaired 1 (pacerEnters .resync s4)
  else if a = 2 then saidPaired 2 (pacerEnters .migrating s4)
  else refusePairing (a - 2) set s4

/-- Does the partner of a SOLO unit lead (R227)? -/
def partnerLeads (theirMs : Nat) (s : State) : Bool :=
  if runMs s + 100 < theirMs then true
  else if theirMs + 100 < runMs s then false
  else decide (ownPartner s < ownMember s)

/-- The partner's fields as HELLO and HEARTBEAT give them. -/
def notePartner (state role runms : Nat) (s : State) : State :=
  { s with sby := { s.sby with pState := BitVec.ofNat 4 state, pRole := BitVec.ofNat 4 role }
           sbx := { s.sbx with partnerRunMs := runms, everSeen := true } }

/-- Must this unit take the pacer role, having heard a HELLO of a partner in RUN? -/
def mustYield (a role theirMs : Nat) (s : State) : Bool :=
  match s.power.role with
  | .solo => decide (role = 1) && partnerLeads theirMs s
  | .pacer =>
    match s.sby.cond with
    | .withdrawn => false
    | .tracking => false
    | .migrating => decide (role = 1) || decide (a ≠ 2)
    | _ => decide (role = 1)
  | _ => false

/-- SYNC_HELLO. -/
def syncHello (x : SyncIn) (s : State) : State :=
  let h := x.payload
  let role := leAt h 7 1
  let s1 := notePartner (leAt h 6 1) role (leAt h 8 4) { s with sby := { s.sby with pMember := BitVec.ofNat 8 (leAt h 4 1) } }
  if h.length = 64 ∧ s1.power.state = .run ∧ partnerNamed s1 ∧ leAt h 6 1 = 3 then
    let a := admissionOf h s1
    let s2 := { s1 with sbx := { s1.sbx with admission := a } }
    if mustYield a role (leAt h 8 4) s2 then yieldLead a (leAt h 0 4) s2 else s2
  else s1

/-- HEARTBEAT. -/
def heartbeat (x : SyncIn) (s : State) : State :=
  let h := x.payload
  notePartner (leAt h 0 1) (leAt h 1 1) (leAt h 4 4) { s with sby := { s.sby with pCond := BitVec.ofNat 4 (leAt h 2 1) } }

/-- Every page of the state block marked. -/
def markAll (s : State) : State :=
  snapPages { s with sbx := { s.sbx with rsMarked := List.range ((blockLen s + 4095) / 4096) } }

/-- YIELD: the partner takes the pacer role; this unit leads in the pairing that its own HELLO check gave. What a unit does with a YIELD
before it has checked a HELLO of the partner is not stated: nothing (DESIGN CHOICE, log 92). -/
def yieldHeard (s : State) : State :=
  let may := decide (s.power.role = .solo) || (decide (s.power.role = .leader) && s.sbx.migrating)
  if s.power.state = .run ∧ may ∧ (s.sbx.admission = 1 ∨ s.sbx.admission = 2) then
    let s1 := changeRole .leader { s with sbx := { s.sbx with dualLead := false } }
    if s.sbx.admission = 1 then startResync (saidPaired 1 { s1 with sbx := { s1.sbx with migrating := false } })
    else
      let s2 := saidPaired 2 { s1 with sby := { s1.sby with cond := .leading }, sbx := { s1.sbx with migrating := true, rsActive := false } }
      markAll s2
  else s

/-- PAIRING_WINDOW_END (R228). -/
def pairingWindowEnd (s : State) : State :=
  if s.sby.window then
    let s1 := { s with sby := { s.sby with window := false } }
    if partnerNamed s1 ∧ !s1.sbx.everSeen ∧ !s1.sbx.missingSaid then
      sj 0x30D 1 (item (ownPartner s1)) { s1 with sbx := { s1.sbx with missingSaid := true } }
    else s1
  else s

/-! ### The end of a pair at the leader (R218, R219) -/

/-- A leader becomes SOLO with SJ 0x0302: 0 silence, else the LEAVE cause. -/
def pacerLost (cause : Nat) (s : State) : State :=
  let s1 := abortTrial 2 (batonFail 2 s)
  let s2 := reportLost (sj 0x302 1 (item cause) (changeRole .solo s1))
  { s2 with
    sby := { s2.sby with cond := .unpaired }
    sbx := { s2.sbx with rsActive := false, migrating := false, ignoring := false, gotHashes := [], ownHashes := [] } }

/-! ### Takeover (R220 to R222, R229) -/

/-- The kind of a takeover by the pacer's condition: 0 WARM, 1 COLD, 2 STATE. -/
def takeoverKind (s : State) : Nat := if s.sby.cond = .tracking then 0 else if s.sby.cond = .migrating then 2 else 1

/-- A cold start of the program (R222): images 0, retentive ranges restored, S bit 0, event type 0, writes disabled
(R360), reflex networks enabled, pairs SAFE (R235). -/
def coldStart (s : State) : State :=
  let s1 := restoreRetentive (stopLap s)
  let s2 := pushEventFree 0 2 (pairsSafe { s1 with
    ctx := { s1.ctx with firstLap := true }
    px := { s1.px with mbEn := 0 }
    rfx := { s1.rfx with en0 := 0xFFFFFFFF, en1 := 0xFFFFFFFF } })
  refreshOutputs s2

/-- A pacer takes over: a running shadow lap completes as its own (R221); an edit whose adoption it has acknowledged is
adopted at L, another stays RIPE. -/
def takeover (s : State) : State :=
  let kind := takeoverKind s
  let s1 := changeRole .solo (abortTrial 5 s)
  let e := if s1.edit.state = .adopting ∧ !s1.edit.confirmed then
      (if s1.edit.acked then { s1.edit with confirmed := true } else { s1.edit with state := .ripe })
    else s1.edit
  let s2 := { s1 with
    edit := e
    lap := { s1.lap with running := if s1.lap.running = .shadow then .lap else s1.lap.running, nextDueUs := s1.clk.opUs }
    sby := { s1.sby with cond := .unpaired, takeovers := satInc s1.sby.takeovers }
    sbx := { s1.sbx with probing := false, pxSeen := false, lsQueue := [], batonB := 0, batonConf := false, batonAck := false
                         adoptAck := false, dualLead := true, gotHashes := [], ownHashes := []
                         ownFreeze := decide (s1.lap.running = .shadow) } }
  let s3 := if kind = 1 then coldStart s2 else s2
  sj 0x309 2 (item kind ++ item8 s3.lap.num.toNat ++ item8 (s3.lap.num.toNat + 1)) s3

/-- A HELLO probe to the leader's member address (R220). -/
def sendProbe (s : State) : State := pxSend (memberTo s (ownPartner s)) 1 1 (helloPayload s) s

/-- SYNC_SILENCE: 3 ms without a valid frame. -/
def syncSilence (s : State) : State :=
  if s.sbx.lastRxUs.isSome ∧ inRunOrHalt s then
    let s1 := { s with sbx := { s.sbx with lastRxUs := none } }
    match s1.power.role with
    | .leader => pacerLost 0 { s1 with sbx := { s1.sbx with dualLead := true } }
    | .pacer => sendProbe { batonFail 2 s1 with sbx := { (batonFail 2 s1).sbx with probing := true, pxSeen := false } }
    | _ => s1
  else s

/-- PX_PROBE_SEND: every 5 ms of probing, every 100 ms of a DETACHED pacer. -/
def pxProbeSend (s : State) : State := if s.power.role = .pacer ∧ s.sbx.probing then sendProbe s else s

/-- DETACHED, with the lap of the last shadow lap; a WITHDRAWN pacer stays so (R215). -/
def detach (s : State) : State :=
  if s.sby.cond = .detached ∨ s.sby.cond = .withdrawn then s
  else sj 0x308 2 (item8 s.sbx.shadowLap.toNat) (pacerEnters .detached (abortTrial 2 s))

/-- PROBE_WINDOW_END: 20 ms of probing pass. -/
def probeWindowEnd (s : State) : State :=
  if s.power.role = .pacer ∧ s.sbx.probing then
    if s.sbx.pxSeen then
      let s1 := detach { s with sbx := { s.sbx with pxSeen := false } }
      { s1 with sbx := { s1.sbx with probing := true } }
    else takeover s
  else s

/-! ### CONTROL frames -/

/-- A CONTROL frame of one code handled by `f` on its arguments. -/
def controlRx (code : Nat) (frame : Bytes) (f : SyncIn → Bytes → State → State) (s : State) : State :=
  syncRx 6 frame (fun x t => if leAt x.payload 0 1 = code ∧ 4 ≤ x.payload.length then f x (x.payload.drop 4) t else t) s

/-- Is this unit a pacer that obeys its leader: any condition but WITHDRAWN (R215)? -/
def obeys (s : State) : Bool := decide (s.power.role = .pacer) && decide (s.sby.cond ≠ .withdrawn)

/-- WITHDRAW at the pacer (R218). -/
def withdrawn (s : State) : State := if s.power.role = .pacer then pacerEnters .withdrawn (abortTrial 2 s) else s

/-- LEAVE (R218 to R220). -/
def leaveHeard (cause : Nat) (s : State) : State :=
  match s.power.role with
  | .leader =>
    let s1 := pacerLost cause s
    if cause = 3 then sj 0x307 0 (item 1) s1 else s1
  | .pacer => takeover s
  | _ => s

/-! ### HASH and STATE (R213, R217, R229) -/

/-- A HASH kept for comparison. -/
def hashHeard (x : SyncIn) (s : State) : State :=
  let takes := (decide (s.power.role = .leader) && tracking s) || (decide (s.power.role = .pacer) && s.sbx.batonConf)
  if takes ∧ !s.sbx.ignoring ∧ x.payload.length = 16 then
    { s with sbx := { s.sbx with gotHashes := s.sbx.gotHashes ++ [hashOf x.lap x.payload] } }
  else s

/-- SJ 0x0306 in the pacer: lap r and the time since RESYNC; the number of passes, which no frame tells it, is free (log 3). -/
def resyncEnded (r : Nat) (s : State) : State :=
  sj 0x306 0 (item8 r ++ item ((s.clk.opUs - s.sbx.rsStartUs) / 1000) ++ item (freeWord s).toNat) (drawn s)

/-- A STATE frame applied; LAST ends a resynchronisation or a transfer. -/
def stateHeard (x : SyncIn) (s : State) : State :=
  if s.power.role = .pacer ∧ (s.sby.cond = .resync ∨ s.sby.cond = .migrating) ∧ 4 ≤ x.payload.length then
    let s1 := setStateBytes (leAt x.payload 0 4) (x.payload.drop 4) s
    if !x.last then
      if s1.sby.cond = .migrating then noteLag x.lap s1 else s1
    else
      let s2 := { s1 with lap := { s1.lap with num := BitVec.ofNat 64 x.lap }, sby := { s1.sby with lagLaps := 0 } }
      if s2.sby.cond = .resync then
        resyncEnded x.lap { s2 with
          sby := { s2.sby with cond := .tracking }
          sbx := { s2.sbx with shadowLap := BitVec.ofNat 64 x.lap, lsQueue := [] } }
      else s2
  else s

/-- RESYNC_FAILED: 2 s without the end of the resynchronisation (R217). -/
def resyncFailed (s : State) : State :=
  if s.power.role = .leader ∧ s.sbx.rsActive then divergence 3 s.lap.num.toNat s else s

/-! ### Edits in a pair (R196, R231) -/

/-- EDIT_FWD at the pacer: a segment staged in delta staging, and the complete package checked; its result returns. -/
def editFwd (x : SyncIn) (args : Bytes) (s : State) : State :=
  if !obeys s then s
  else
    let off := leAt args 0 4
    let part := args.drop 4
    let have_ := if off = 0 then [] else s.edit.fwdBytes
    if have_.length ≠ off then s
    else
      let all := have_ ++ part
      let s1 := stagingWrite { s with
        edit := { s.edit with fwdBytes := if x.last then [] else all }
        upd := { s.upd with edit := some { total := if x.last then all.length else 0, received := all.length, data := all } } }
      if x.last then
        let r := editCheck all s1
        let s2 := editVerifyNote r s1
        match r with
        | .ok new => syncControl 6 (leBytes 1 0) (editHeldNow all new s2)
        | .error f =>
          syncControl 6 (leBytes 1 f.code) (editRejected f.code ((f.verify.map VerFail.code).getD 0) 0 s2)
      else s1

/-- EDIT_RESULT at the leader that waits for it. -/
def editResult (code : Nat) (s : State) : State :=
  if s.edit.peerWait then
    if code = 0 then asyncDone 6 0 (editHeldNow s.edit.package s.edit.prog s)
    else editRejected 10 0 1 s
  else s

/-- EDIT_PEER_TIMEOUT: dropped in both units. -/
def editPeerTimeout (s : State) : State :=
  if s.edit.peerWait then editRejected 10 0 1 (editCommand (leBytes 1 3) s) else s

/-- The shadow lap that begins next: the first that waits, else the one after the last (R197). -/
def nextShadow (s : State) : Nat := (s.sbx.lsQueue.head?.map Prod.fst).getD (s.lap.num.toNat + 1)

/-- EDIT_CMD TRIAL START at the pacer: its trial copy is taken as the next shadow lap begins, which is the first trial lap. -/
def peerTrialStart (window : Nat) (s : State) : State :=
  if obeys s ∧ s.edit.state = .loaded ∧ s.sby.cond = .tracking then
    trialStart window (nextShadow s) s
  else s

/-- EDIT_CMD DISCARD at the pacer. A trial that runs ends first, with reason 1 (DESIGN CHOICE, log 83). -/
def peerDiscard (s : State) : State :=
  if obeys s ∧ s.edit.state ≠ .none ∧ s.edit.state ≠ .adopting then editDiscarded 0 (abortTrial 1 s) else s

/-- EDIT_CMD REPORT at the pacer: the slot's report as segments of EDIT_REPORT. -/
def peerReport (slot : Nat) (s : State) : State := if obeys s then syncControl 8 (reportSlot slot s) s else s

/-- EDIT_REPORT at the leader: the request that waits for it is answered; those behind it come next (R374). -/
def editReport (x : SyncIn) (args : Bytes) (s : State) : State :=
  let all := s.edit.peerReport ++ args
  if x.last then
    let s1 := { s with edit := { s.edit with peerReport := [] } }
    match s1.px.reportTo with
    | a :: as => respond a 0 (padTo 1056 all) { s1 with px := { s1.px with reportTo := as } }
    | [] => s1
  else { s with edit := { s.edit with peerReport := all } }

/-! ### The commands -/

/-- HEARTBEAT_SEND. -/
def execHeartbeatSend (s : State) : Result := .next (heartbeatSend s)
/-- SYNC_HELLO_SEND. -/
def execSyncHelloSend (s : State) : Result := .next (syncHelloSend s)
/-- SYNC_HELLO. -/
def execSyncHello (frame : Bytes) (s : State) : Result := .next (syncRx 1 frame syncHello s)
/-- HEARTBEAT. -/
def execHeartbeat (frame : Bytes) (s : State) : Result := .next (syncRx 2 frame heartbeat s)
/-- HASH. -/
def execHash (frame : Bytes) (s : State) : Result := .next (syncRx 4 frame hashHeard s)
/-- STATE_FRAME. -/
def execStateFrame (frame : Bytes) (s : State) : Result := .next (syncRx 5 frame stateHeard s)
/-- RESYNC. -/
def execResync (frame : Bytes) (s : State) : Result :=
  .next (controlRx 1 frame (fun _ a t => if obeys t then pacerResync (leAt a 0 8) t else t) s)
/-- RESYNC_FAILED. -/
def execResyncFailed (s : State) : Result := .next (resyncFailed s)
/-- WITHDRAW. -/
def execWithdraw (frame : Bytes) (s : State) : Result := .next (controlRx 2 frame (fun _ _ t => withdrawn t) s)
/-- LEAVE. -/
def execLeave (frame : Bytes) (s : State) : Result := .next (controlRx 3 frame (fun _ a t => leaveHeard (leAt a 0 1) t) s)
/-- YIELD. -/
def execYield (frame : Bytes) (s : State) : Result := .next (controlRx 4 frame (fun _ _ t => yieldHeard t) s)
/-- EDIT_FWD. -/
def execEditFwd (frame : Bytes) (s : State) : Result := .next (controlRx 5 frame editFwd s)
/-- EDIT_RESULT. -/
def execEditResult (frame : Bytes) (s : State) : Result := .next (controlRx 6 frame (fun _ a t => editResult (leAt a 0 1) t) s)
/-- An EDIT_CMD frame of one operation. -/
def editCmdRx (op : Nat) (frame : Bytes) (f : Bytes → State → State) (s : State) : State :=
  controlRx 7 frame (fun _ a t => if leAt a 0 1 = op then f (a.drop 1) t else t) s
/-- EDIT_CMD_TRIAL_START. -/
def execEditCmdTrialStart (frame : Bytes) (s : State) : Result :=
  .next (editCmdRx 1 frame (fun a t => peerTrialStart (leAt a 0 2) t) s)
/-- EDIT_CMD_TRIAL_ABORT. -/
def execEditCmdTrialAbort (frame : Bytes) (s : State) : Result :=
  .next (editCmdRx 2 frame (fun _ t => if obeys t then abortTrial 1 t else t) s)
/-- EDIT_CMD_DISCARD. -/
def execEditCmdDiscard (frame : Bytes) (s : State) : Result := .next (editCmdRx 3 frame (fun _ t => peerDiscard t) s)
/-- EDIT_CMD_REPORT, with its slot in one byte (DESIGN CHOICE, log 91). -/
def execEditCmdReport (frame : Bytes) (s : State) : Result := .next (editCmdRx 4 frame (fun a t => peerReport (leAt a 0 1) t) s)
/-- EDIT_REPORT. -/
def execEditReport (frame : Bytes) (s : State) : Result := .next (controlRx 8 frame editReport s)
/-- PAIR_REFUSED: its reason is shown. -/
def execPairRefused (frame : Bytes) (s : State) : Result :=
  .next (controlRx 9 frame (fun _ a t => { t with sby := { t.sby with reason := BitVec.ofNat 4 (leAt a 0 1) } }) s)
/-- EDIT_PEER_TIMEOUT. -/
def execEditPeerTimeout (s : State) : Result := .next (editPeerTimeout s)
/-- SYNC_SILENCE. -/
def execSyncSilence (s : State) : Result := .next (syncSilence s)
/-- PX_PROBE_SEND. -/
def execPxProbeSend (s : State) : Result := .next (pxProbeSend s)
/-- PROBE_WINDOW_END. -/
def execProbeWindowEnd (s : State) : Result := .next (probeWindowEnd s)
/-- PAIRING_WINDOW_END. -/
def execPairingWindowEnd (s : State) : Result := .next (pairingWindowEnd s)
/-- What the module in the SYNC cage reports when the receiver locks to a signal or loses it (R59): fitted for certain, and without
loss of signal, at a lock. The rest the command does not say: it is free, and 0 where no module is fitted (log 81). -/
def syncSignal (lock : Bool) (s : State) : State :=
  let f := freeWord s
  let pwr := freeWord (drawn s)
  let fitted := lock || f.getLsbD 0
  { drawn (drawn s) with sby := { s.sby with
      lock := lock, sfp := fitted, los := fitted && !lock && f.getLsbD 1, txFault := fitted && f.getLsbD 2
      rxPwr := if fitted then pwr.setWidth 16 else 0, txPwr := if fitted then pwr.extractLsb' 16 16 else 0 } }

/-- SYNC_SIGNAL_LOST: SBY.STATUS.LOCK clears (R17). -/
def execSyncSignalLost (s : State) : Result := .next (whenever (pdIs s 11) (syncSignal false) s)
/-- SYNC_SIGNAL_LOCKED: it sets. -/
def execSyncSignalLocked (s : State) : Result := .next (whenever (pdIs s 11) (syncSignal true) s)

end Sys2Proof.Machine
end

