-- ==== Sys2Proof/Machine/Requests.lean ====
section
/-! DEFINITION. Requests: how they reach the Marshal, the checks in their order, refusals, and every request of R375 but
the update requests and RESTORE (R85 to R93, R106 to R109, R195, R290, R329, R370 to R377, R394, R402, R412). -/

namespace Sys2Proof.Machine

/-! ### Register words that responses carry -/

/-- MGT.STATE, MGT.SS_CAUSE and MGT.START_INFO. -/
def mgtStateWord (s : State) : Nat := (mgtState s).toNat + 256 * b2n (decide (s.power.transit ≠ .none))
def ssCauseWord (s : State) : Nat := s.power.causes.toNat + 2 ^ 24 * s.power.firstCause.toNat
def startInfoWord (s : State) : Nat :=
  startCode s.power.startKind + 16 * s.power.wakeSrc.toNat + 256 * b2n s.power.resume

/-! ### The rows of R375 and R92 -/

/-- What a row names: its CODE, its operation where one CODE has several rows, and its legality by state and role in the
order of R92: 0 legal, 1 refused 0x21, 2 refused 0x22; and the stores that carrying it out writes: 0 MRAM, 1 flash. -/
structure ReqRow where
  code   : Nat
  op     : Option Nat := none
  legal  : List Nat
  stores : List Nat := []
deriving DecidableEq, Repr

/-- The number of operations of a CODE, and the first; none where the CODE has one row only. -/
def opRange (code : Nat) : Option (Nat × Nat) :=
  if code = 0x02 then some (0, 3) else if code = 0x07 then some (0, 2) else if code = 0x08 then some (0, 1)
  else if code = 0x0F then some (1, 6) else if code = 0x10 then some (0, 1) else if code = 0x11 then some (0, 2)
  else if code = 0x20 then some (0, 2) else none

/-- Is an operation one that its CODE has? -/
def opKnown (code op : Nat) : Bool :=
  match opRange code with
  | some (a, b) => decide (a ≤ op) && decide (op ≤ b)
  | none => true

/-- Is a CODE known: RESTORE is a request of the service loader, in DEAD only (R375, R440)? -/
def codeKnown (code : Nat) (s : State) : Bool :=
  (argLenOk code 0 0).isSome && (decide (code ≠ 0x20) || decide (s.power.state = .dead))

/-- The column of R92. -/
def legalColumn (s : State) : Nat :=
  match s.power.state with
  | .run => if s.power.role = .leader then 2 else if s.power.role = .pacer then 3 else 1
  | .safeService => 4
  | .halt => 5
  | .dead => 6
  | _ => 0

/-! ### A request as it reaches the Marshal (R370 to R372) -/

/-- A request: to whom the answer goes, its body, and the sender's role key at receipt. -/
structure Req where
  asked : Asked
  body  : Bytes
deriving DecidableEq, Repr

def Req.code (r : Req) : Nat := leAt r.body 0 1
def Req.args (r : Req) : Bytes := r.body.drop 8
def Req.op (r : Req) : Nat := leAt r.args 0 1
def Req.path (r : Req) : Nat := r.asked.path.toNat

/-- What begins at a pair 0x53, 0x56 (R372): a whole frame with its body and the bytes behind it, a frame that still lacks bytes, or
one whose LEN is out of range or whose CRC fails. -/
inductive SvcFrame where
  | whole (body rest : Bytes)
  | begun
  | bad
deriving DecidableEq, Repr

/-- The frame at the beginning of `f`. -/
def svcAt (f : Bytes) : SvcFrame :=
  let n := leAt f 2 2
  if f.length < 4 then .begun
  else if n < 8 ∨ 1160 < n then .bad
  else if f.length < n + 8 then .begun
  else if leAt f (4 + n) 4 = crc32c (slice f 2 (n + 2)) then .whole (slice f 4 n) (f.drop (n + 8))
  else .bad

/-- The receiver of SVC over the bytes it holds (R372): the frames discarded, the first body, and the bytes it keeps. After a bad
frame it searches for the next pair 0x53, 0x56. -/
def svcScan : Bytes → Nat × Option Bytes × Bytes
  | [] => (0, none, [])
  | x :: xs =>
    if x = 0x53 ∧ (xs = [] ∨ xs.head? = some 0x56) then
      match svcAt (x :: xs) with
      | .whole b rest => (0, some b, rest)
      | .begun => (0, none, x :: xs)
      | .bad => ((svcScan xs).1 + 1, (svcScan xs).2)
    else svcScan xs

/-- The discarded frames counted, and the bytes kept; a host is attached (R372). -/
def svcTaken (bad : Nat) (rest : Bytes) (s : State) : State :=
  { s with mgt := { s.mgt with svcBad := satAdd s.mgt.svcBad bad, svcBuf := rest, vbus := true } }

/-- Does a row take a request? A request that names no row of its own, by an unknown CODE, an operation its CODE lacks or
a wrong length, is answered alike by every row that could carry it. -/
def rowTakes (row : ReqRow) (r : Req) (s : State) : Bool :=
  !codeKnown r.code s || (decide (r.code = row.code) &&
    (row.op.isNone || decide (row.op = some r.op) || !opKnown r.code r.op || !bodyLenOk r.body))

/-- A refusal (R91): its record and the status. -/
def refuse (r : Req) (status : Byte) (reason : Nat) (s : State) : State :=
  respond r.asked status [] (refusalNote r.code r.path status.toNat reason s)

/-- The checks of R90 in their order, then the request itself; `blockOk` is the block's own argument rule (R377). TRANSIT is checked
after length and authentication (R93, log 60). -/
def serve (row : ReqRow) (argsOk : Bytes → Bool) (blockOk : Req → State → Bool) (f : Req → State → State) (r : Req) (s : State) : State :=
  if !bodyLenOk r.body then respond r.asked 0x11 [] s
  else if s.power.transit ≠ .none ∧ r.code ≠ 0x01 ∧ r.code ≠ 0x0C then respond r.asked 0x20 [] s
  else if !codeKnown r.code s ∨ nth 0 r.body 1 ≠ 0 ∨ !opKnown r.code r.op ∨ !argsOk r.args ∨ !blockOk r s then respond r.asked 0x10 [] s
  else match nth 1 row.legal (legalColumn s) with
    | 0 => f r s
    | 1 => refuse r 0x21 1 s
    | _ => refuse r 0x22 2 s

/-- Is a request carried out or accepted where it is served: does it have a response with status 0x00 or 0x01? A response over SVC
counts though SVC has closed, where it is discarded (R373). -/
def carriedOut (row : ReqRow) (argsOk : Bytes → Bool) (blockOk : Req → State → Bool) (f : Req → State → State) (r : Req) (s : State) : Bool :=
  let t := serve row argsOk blockOk f r { s with mgt := { s.mgt with svcOpen := true } }
  (t.out.responses.take (t.out.responses.length - s.out.responses.length)).any fun x =>
    decide (x.path = r.asked.path) && decide (x.code = r.asked.code) && decide (x.tag = r.asked.tag) && decide (x.status.toNat ≤ 1)

/-- The code of a store in SJ 0x0932, in the order of R377 (R383). -/
def storeCode : StoreId → Nat
  | .mram => 0
  | .flash => 1

/-- 0x50 INTERNAL: a store has not taken a write that the request needs; it is not carried out, and SJ 0x0932 names CODE and store
(R377, R378). -/
def internalFault (r : Req) (x : StoreId) (s : State) : State :=
  respond r.asked 0x50 [] (sj 0x932 2 (item r.code ++ item (storeCode x)) { s with mgt := { s.mgt with storeFault := true } })

/-- A request served, with the failure of a store that it would have written. -/
def serveWith (row : ReqRow) (argsOk : Bytes → Bool) (blockOk : Req → State → Bool) (f : Req → State → State) (fails : Option StoreId)
    (r : Req) (s : State) : State :=
  match fails with
  | some x =>
    if row.stores.contains (storeCode x) ∧ carriedOut row argsOk blockOk f r s then internalFault r x s else serve row argsOk blockOk f r s
  | none => serve row argsOk blockOk f r s

/-- A valid SVC frame restarts the idle time (R373). -/
def svcHeard (s : State) : State := { s with mgt := { s.mgt with svcLastUs := s.clk.opUs } }

/-- The request at the head of those that PX passed is taken; one that came by the mailbox leaves Q0000 (R371). -/
def takePassed (q : PendingReq) (rest : List PendingReq) (s : State) : State :=
  let s1 := { s with px := { s.px with pending := rest } }
  if q.path = 2 then drop1 0 s1 else s1

/-- Is an EDIT_TRIAL REPORT under way, for which the pacer's report is awaited? The request after it is not carried out before (R374). -/
def reportAwaited (s : State) : Bool := !s.px.reportTo.isEmpty

/-- A request of a row, in bytes that arrive on SVC or as the oldest of those that wait. One that comes over SVC while others wait is
put behind them: requests are carried out one at a time, in order of arrival (R374). Bytes that hold another row's request are that
row's. -/
def request (row : ReqRow) (argsOk : Bytes → Bool) (f : Req → State → State) (via : Via) (s : State)
    (blockOk : Req → State → Bool := fun _ _ => true) : State :=
  match via with
  | .svc bytes fails =>
    if !awake s ∨ !s.mgt.svcOpen then s
    else
      let (bad, body, rest) := svcScan (s.mgt.svcBuf ++ bytes)
      let s1 := svcTaken bad rest s
      match body with
      | none => s1
      | some b =>
        let r : Req := { asked := askedOf 0 none b, body := b }
        if !rowTakes row r s then s
        else if s.px.pending ≠ [] ∨ reportAwaited s then
          svcHeard { s1 with px := { s1.px with pending := s1.px.pending ++ [{ path := 0, body := b }] } }
        else serveWith row argsOk blockOk f fails r (svcHeard s1)
  | .passed fails =>
    match s.px.pending with
    | [] => s
    | q :: rest =>
      let r : Req := { asked := askedWaiting q, body := q.body }
      if awake s ∧ !reportAwaited s ∧ rowTakes row r s then serveWith row argsOk blockOk f fails r (takePassed q rest s) else s

/-- 0x00 OK with results. -/
def answerOk (r : Req) (results : Bytes) (s : State) : State := respond r.asked 0 results s

/-- 0x01 ACCEPTED: the ASYNC fields show the request from here on (R374). -/
def accept (r : Req) (s : State) : State :=
  asyncAccept (nth 0 r.body 0) r.asked.path (respond r.asked 1 [] s)

/-- Bytes a to a + n − 1 of the arguments are 0: reserved bytes. -/
def resv (args : Bytes) (a n : Nat) : Bool := decide (leAt args a n = 0)

/-! ### State and mode requests (R85 to R89, R218, R230) -/

/-- GET_STATE (R375). -/
def rowGetState : ReqRow := { code := 1, legal := [0, 0, 0, 0, 0, 0, 0] }
def getState (r : Req) (s : State) : State :=
  answerOk r (leBytes 4 (mgtStateWord s) ++ leBytes 4 (ssCauseWord s) ++ leBytes 4 (startInfoWord s) ++
    leBytes 4 s.power.pwrCycles.toNat ++ leBytes 6 (opMs s) ++ leBytes 1 s.mgt.issue.toNat ++ leBytes 1 (ownMember s) ++
    leBytes 4 s.mgt.testedSet.toNat ++ [s.mgt.asyncCode, s.mgt.asyncStatus, 0, 0]) s

/-- SET_MODE's reserved bytes. -/
def modeArgs (args : Bytes) : Bool := resv args 1 3

/-- A change of state that waits for its instant (R85, R86, R87). -/
def beginTransit (t : Transit) (s : State) : State := { s with power := { s.power with transit := t } }

/-- SET_MODE RUN. -/
def rowModeRun : ReqRow := { code := 2, op := some 0, legal := [1, 1, 1, 1, 1, 0, 1] }
def modeRun (r : Req) (s : State) : State := beginTransit .run (accept r s)

/-- SET_MODE HALT. -/
def rowModeHalt : ReqRow := { code := 2, op := some 1, legal := [1, 0, 2, 2, 1, 1, 1] }
def modeHalt (r : Req) (s : State) : State := beginTransit .halt (accept r s)

/-- SET_MODE BATON: B = n + 3 (R230). One accepted while a pass is under way leaves that pass as it is (DESIGN CHOICE, log 82). -/
def rowModeBaton : ReqRow := { code := 2, op := some 2, legal := [1, 2, 0, 2, 1, 1, 1] }
def modeBaton (r : Req) (s : State) : State :=
  if !tracking s ∨ s.edit.state = .adopting then refuse r 0x21 4 s
  else
    let s1 := accept r s
    if s.sbx.batonB ≠ 0 then s1 else { s1 with sbx := { s1.sbx with batonB := s1.lap.num + 3, batonConf := false } }

/-- SET_MODE WITHDRAW: LEAVE with cause 3, then WITHDRAWN (R218, R219). -/
def rowModeWithdraw : ReqRow := { code := 2, op := some 3, legal := [1, 2, 2, 0, 1, 1, 1] }
def modeWithdraw (r : Req) (s : State) : State := withdrawn (sendLeave 3 (answerOk r [] s))

/-- A restart that follows an accepted request: LEAVE with cause 1 (R219), the new bring-up, the request's end. -/
def restartFor (r : Req) (s : State) : State :=
  asyncDone (nth 0 r.body 0) 0 (beginBringUp .restart 0 (sendLeave 1 s))

/-- RESTART. -/
def rowRestart : ReqRow := { code := 3, legal := [1, 0, 0, 0, 0, 0, 1] }
def restartReq (r : Req) (s : State) : State := restartFor r (accept r s)

/-- Is a row-0 key, K00 to K04, stuck (R89)? -/
def rowStuck (s : State) : Bool := (List.range 5).any fun k => s.pan.stuck.getLsbD k

/-- HIBERNATE: ALARM_HIT is cleared at acceptance (R413); outside RUN it takes effect at once (R87). -/
def rowHibernate : ReqRow := { code := 0x12, legal := [1, 0, 2, 0, 0, 0, 1] }
def hibernateReq (r : Req) (s : State) : State :=
  if rowStuck s then refuse r 0x21 3 s
  else
    let s1 := accept r s
    let s2 := sendLeave 2 { s1 with rtc := { s1.rtc with alarmHit := false } }
    if s.power.state = .run then beginTransit .hibernate s2 else hibernateState (hibernateNotes s2)

/-! ### The Mould (R106, R108, R109) -/

/-- The inactive bank, where it holds a package of this PKG and no edit has taken its place (R106, R194). -/
def inactiveHolds (pkg : Nat) (s : State) : Bool :=
  decide ((bankOf (!s.upd.active) s).pkg = some (BitVec.ofNat 32 pkg)) && decide (s.edit.state = .none)

/-- A Mould that fails validation: SJ 0x0121 with the request path, 0x31 with the code (R102, R375). -/
def mouldRefused (r : Req) (f : MouldFail) (s : State) : State :=
  respond r.asked 0x31 (leBytes 1 f.code) (mouldInvalid f r.path s)

/-- Check 0x08 of an activation: the Tested Set of the bank's package equals the active system's (R434, R443). -/
def bankSetOk (b : Bool) (s : State) : Bool := decide (manSet (bankManifest b s) = manSet s.upd.manifest)

/-- A failed check 0x08: UPD.STATUS.CODE and SJ 0x0A02, whose part is not stated: free (log 3). -/
def setRefused (pkg : Nat) (s : State) : State :=
  sj 0xA02 1 (item pkg ++ item 8 ++ item (freeWord s).toNat) (drawn { s with upd := { s.upd with code := 8 } })

/-- The inactive bank marked pending with no attempts (R443), then the restart. -/
def activateBank (r : Req) (s : State) : State :=
  let s1 := accept r s
  restartFor r { s1 with upd := { s1.upd with pending := true, attempts := 0 } }

/-- LOAD_MOULD. After a failed check 0x08 the result byte holds that code (18_manifests_and_updates.md, Edges and collisions). -/
def rowLoadMould : ReqRow := { code := 4, legal := [1, 1, 2, 0, 0, 0, 1], stores := [0] }

/-- R106: a PKG that no bank holds, and a package that differs in program or Safe Service table, are argument faults. -/
def mouldRules (r : Req) (s : State) : Bool := inactiveHolds (leAt r.args 0 4) s && sameCode s.upd.active (!s.upd.active) s

def loadMould (r : Req) (s : State) : State :=
  let pkg := leAt r.args 0 4
  let b := !s.upd.active
  match mouldValidate (mouldCtx b none s) with
    | .error f => mouldRefused r f s
    | .ok _ =>
      if bankSetOk b s then activateBank r s else respond r.asked 0x31 [8] (setRefused pkg s)

/-- Does another re-press, a resynchronisation or a trial lap bar a REPRESS (R108)? -/
def repressBarred (s : State) : Bool :=
  s.mld.repress.isSome || (decide (s.power.role = .pacer) && (decide (s.sby.cond = .resync) || decide (s.edit.state = .trial)))

/-- REPRESS: a program or Safe Service table other than the active one fails code 0x0F (R109). -/
def rowRepress : ReqRow := { code := 5, legal := [1, 2, 2, 0, 1, 0, 1], stores := [0] }

/-- R108: a PKG that no bank holds is an argument fault. -/
def repressRules (r : Req) (s : State) : Bool := inactiveHolds (leAt r.args 4 4) s

def repressArgs (args : Bytes) : Bool := decide (leAt args 0 1 % 16 = 0) && resv args 1 3
def repressReq (r : Req) (s : State) : State :=
  let mask := leAt r.args 0 1
  let b := !s.upd.active
  if repressBarred s then refuse r 0x21 4 s
  else match mouldValidate (mouldCtx b ((restOf s).map fun x => (mask, x)) s) with
    | .error f => mouldRefused r f s
    | .ok (m, x) =>
      if sameCode s.upd.active b s then beginRepress mask b m x (accept r s) else mouldRefused r { code := 15 } s

/-! ### Edits (R195, R196, R201, R203) -/

/-- Is an application package staged and not activated? -/
def appUnactivated (s : State) : Bool :=
  match s.upd.app with
  | some st => decide ((bankOf s.upd.active s).pkg ≠ some st.pkg)
  | none => false

/-- The staged edit package of a PKG, complete. -/
def stagedEdit (pkg : Nat) (s : State) : Option Staged :=
  s.upd.edit.filter fun st => decide (st.pkg.toNat = pkg) && decide (st.received = st.total)

/-- EDIT_LOAD, which writes the edited bank in flash (R194). -/
def rowEditLoad : ReqRow := { code := 6, legal := [1, 0, 0, 2, 1, 0, 1], stores := [1] }

/-- The PKG of a complete staged edit package. No rule states the status of any other PKG (R428 states it for UPD_APPLY and
UPD_ACTIVATE): 0x10, as an argument fault, before state and role (DESIGN CHOICE, log 89). -/
def editRules (r : Req) (s : State) : Bool := (stagedEdit (leAt r.args 0 4) s).isSome

def editLoad (r : Req) (s : State) : State :=
  match stagedEdit (leAt r.args 0 4) s with
  | none => respond r.asked 0x10 [] s
  | some st =>
    if s.edit.state ≠ .none ∨ appUnactivated s ∨ s.sbx.migrating then refuse r 0x21 4 s
    else if 255 ≤ (bankOf s.upd.active s).chain.length then refuse r 0x40 4 s
    else editLoadOwn st.data (accept r s)

/-- SLOT 0 to 15, WINDOW 0 to 10,000. -/
def trialArgs (args : Bytes) : Bool := decide (leAt args 1 1 ≤ 15) && decide (leAt args 2 2 ≤ 10000)

/-- EDIT_TRIAL START: the pacer gets the window, the leader counts the trial. -/
def rowTrialStart : ReqRow := { code := 7, op := some 0, legal := [1, 2, 0, 2, 1, 1, 1] }
def trialStartReq (r : Req) (s : State) : State :=
  if s.edit.state ≠ .loaded ∨ !tracking s ∨ s.sbx.rsActive ∨ 2048 < dKib s then refuse r 0x21 4 s
  else
    let w := leAt r.args 2 2
    answerOk r [] (trialStart w (s.lap.num.toNat + 1) (editCommand (leBytes 1 1 ++ leBytes 2 w) s))

/-- EDIT_TRIAL ABORT. -/
def rowTrialAbort : ReqRow := { code := 7, op := some 1, legal := [1, 2, 0, 2, 1, 1, 1] }
def trialAbortReq (r : Req) (s : State) : State :=
  if s.edit.state ≠ .trial then refuse r 0x21 4 s
  else answerOk r [] (abortTrial 1 (editCommand (leBytes 1 2) s))

/-- EDIT_TRIAL REPORT: the pacer holds the reports, also while it resynchronises, and returns the slot; a leader that holds reports of
a trial it ran itself before it took the lead, or has no pacer in shadow-lap pairing, returns its own. Until the report has come the
requests behind it wait. -/
def rowTrialReport : ReqRow := { code := 7, op := some 2, legal := [1, 2, 0, 2, 1, 1, 1] }
def trialReportReq (r : Req) (s : State) : State :=
  let slot := leAt r.args 1 1
  let may := decide (s.edit.state = .trial) || decide (s.edit.state = .ripe) || (decide (s.edit.state = .loaded) && s.edit.aborted)
  if !may then refuse r 0x21 4 s
  else if leadsPacer s ∧ s.edit.reports = [] then
    editCommand (leBytes 1 4 ++ leBytes 1 slot) { s with px := { s.px with reportTo := s.px.reportTo ++ [r.asked] } }
  else answerOk r (reportSlot slot s) s

/-- EDIT_ADOPT's reserved bytes. -/
def adoptArgs (args : Bytes) : Bool := resv args 1 3

/-- EDIT_ADOPT ADOPT, which writes the marker of the active bank in MRAM (R202): L = n + 3 with a tracking pacer, the next freeze without one, at once in HALT.
What becomes of an edit that a pacer which does not track still holds is not stated: it keeps it (DESIGN CHOICE, log 56). -/
def rowEditAdopt : ReqRow := { code := 8, op := some 0, legal := [1, 0, 0, 2, 1, 0, 1], stores := [0] }
def editAdoptReq (r : Req) (s : State) : State :=
  let want : EditState := if tracking s then .ripe else .loaded
  if s.edit.state ≠ want then refuse r 0x21 4 s
  else
    let s1 := accept r s
    if s.power.state = .halt then adoptEdit s1
    else if tracking s then
      { s1 with edit := { s1.edit with
          state := .adopting, lap := s1.lap.num + 3, tries := 0, confirmed := false, acked := false, adoptNow := false } }
    else { s1 with edit := { s1.edit with state := .adopting, adoptNow := true, confirmed := false, lap := s1.lap.num + 1 } }

/-- EDIT_ADOPT DISCARD, which marks that bank empty (R195): dropped in both units. A trial that runs ends first, with reason 1 and SJ 0x0253 (DESIGN CHOICE, log 83). -/
def rowEditDiscard : ReqRow := { code := 8, op := some 1, legal := [1, 0, 0, 2, 1, 0, 1], stores := [1] }
def editDiscardReq (r : Req) (s : State) : State :=
  if s.edit.state = .loaded ∨ s.edit.state = .trial ∨ s.edit.state = .ripe then
    let s1 := abortTrial 1 s
    answerOk r [] (editDiscarded 0 (if leadsPacer s1 then editCommand (leBytes 1 3) s1 else s1))
  else refuse r 0x21 4 s

/-! ### LOG_READ (R394, R395) -/

/-- The slots of a log: 0 SJ, 1 TR, 2 interval log. -/
def logSlots (log : Nat) : Nat := if log = 0 then 32768 else if log = 1 then 262144 else 992

/-- The 64 bytes of a slot. -/
def logSlot (log n : Nat) (s : State) : Bytes :=
  if log = 0 then mramRead (sjSlot n) 64 s else if log = 1 then flashRead (trSlot n) 64 s else mramRead (0x380800 + 64 * n) 64 s

/-- The FORMAT of a log's records (R382, R388, R270). -/
def logFormat (log : Nat) : Nat := if log = 0 then 0x534A else if log = 1 then 0x5254 else 0x4D49

/-- 0 OK, 1 CORRUPT, 2 EMPTY. -/
def slotStatus (log : Nat) (bs : Bytes) : Nat :=
  if slotEmpty (if log = 1 then 0xFF else 0) bs then 2 else if slotGood (logFormat log) bs then 0 else 1

/-- A CORRUPT slot read: counted for SJ and TR, and SJ 0x0C04 per slot. -/
def noteCorrupt (log n : Nat) (s : State) : State :=
  sjRep 0xC04 1 (n + 0x100000 * log) (item log ++ item n) { s with log := { s.log with
    corruptSj := if log = 0 then satInc s.log.corruptSj else s.log.corruptSj
    corruptTr := if log = 1 then satInc s.log.corruptTr else s.log.corruptTr } }

/-- HEAD and WRAPS. -/
def logHead (log : Nat) (s : State) : Nat × Nat :=
  if log = 0 then (s.log.sjHead.toNat, s.log.sjWraps.toNat)
  else if log = 1 then (s.log.trSeq.toNat % 262144, s.log.trSeq.toNat / 262144)
  else (s.mtr.logNext.toNat, s.mtr.logWraps.toNat)

/-- One slot of the answer. -/
def slotEntry (bs : Bytes) (log : Nat) : Bytes := leBytes 1 (slotStatus log bs) ++ zeros 3 ++ bs

/-- LOG_READ. -/
def rowLogRead : ReqRow := { code := 0x0C, legal := [0, 0, 0, 0, 0, 0, 0] }
def logArgs (args : Bytes) : Bool :=
  decide (leAt args 0 1 ≤ 2) && decide (1 ≤ leAt args 1 1) && decide (leAt args 1 1 ≤ 16) && resv args 2 2 &&
    decide (leAt args 4 4 < logSlots (leAt args 0 1))
def logRead (r : Req) (s : State) : State :=
  let log := leAt r.args 0 1
  let slots := (List.range (leAt r.args 1 1)).map fun i => (leAt r.args 4 4 + i) % logSlots log
  let h := logHead log s
  let out := slots.flatMap fun n => slotEntry (logSlot log n s) log
  let s1 := slots.foldl (fun t n => if slotStatus log (logSlot log n s) = 1 then noteCorrupt log n t else t) s
  answerOk r (leBytes 4 h.1 ++ leBytes 4 h.2 ++ leBytes 1 slots.length ++ zeros 3 ++ out) s1

/-! ### RTC_SET, LB_RECOVER, TBL_CMD -/

/-- RTC_SET (R412). -/
def rowRtcSet : ReqRow := { code := 0x0D, legal := [1, 0, 0, 0, 0, 0, 1] }
def rtcArgs (args : Bytes) : Bool :=
  let f := leAt args 0 1
  decide (f < 8) && decide (f % 4 ≠ 0) && resv args 1 3 && (!bitOf f 0 || timeOk (timeOf (slice args 4 8))) &&
    (!bitOf f 1 || alarmOk (timeOf (slice args 12 8)))
def rtcSetReq (r : Req) (s : State) : State :=
  answerOk r [] (rtcSet (leAt r.args 0 1) (timeOf (slice r.args 4 8)) (timeOf (slice r.args 12 8)) r.path s)

/-- LB_RECOVER (R290). -/
def rowLbRecover : ReqRow := { code := 0x0E, legal := [1, 0, 0, 0, 1, 0, 1] }
def recoverArgs (args : Bytes) : Bool := decide (leAt args 0 1 ≤ 3) && resv args 1 3
def lbRecoverReq (r : Req) (s : State) : State :=
  let p := leAt r.args 0 1
  if lbThere s p ∧ (lbOf s p).state = .busOff then answerOk r [] (lbChange p (fun b => { b with state := .recovering, via := BitVec.ofNat 8 r.path }) s)
  else refuse r 0x21 4 s

/-- The table command of a request. -/
def tblOf (args : Bytes) : TblCmd :=
  { code := leAt args 0 1, pipe := leAt args 1 1, too := bitOf (leAt args 2 1) 0, image := slice args 4 16 }
def tblArgs (args : Bytes) : Bool := decide (leAt args 2 1 ≤ 1) && resv args 3 1 && !tblBad (tblOf args)

/-- A table command by request (R328, R329); with the switch off it is refused (log 51). -/
def tblReq (r : Req) (s : State) : State :=
  let c := tblOf r.args
  if !pdIs s 6 then refuse r 0x21 4 s
  else match tblBlocked c s with
    | some 0x23 => refuse r 0x23 5 s
    | some b => respond r.asked b [] s
    | none =>
      let (s1, st) := tblRun c s
      if st = 0 then
        let t := s1.tbl
        answerOk r (leBytes 1 (b2n t.found) ++ zeros 1 ++ leBytes 2 t.resIndex.toNat ++ t.res.flatMap fun w => leBytes 4 w.toNat)
          (tblStatus 0 s1)
      else if st = 1 then accept r (tblStatus 1 s1)
      else refuse r st 4 (tblStatus st s1)

/-- The rows of TBL_CMD by command. -/
def rowTbl (code : Nat) : ReqRow := { code := 0x0F, op := some code, legal := [1, 0, 0, 0, 0, 0, 1] }

/-! ### CRC_JOB (R402) -/

/-- How many request jobs are queued or running. -/
def requestJobs (s : State) : Nat :=
  ((ringDescs 12 s ++ (ringGet s 12).waiting).filter fun d => d.src = 1).length + b2n ((s.crc.scan.map ScanJob.src) = some 1)

/-- The data memory offset of the next request job's record: in Lane A's working memory, the first of 64 places that holds none of a
queued job (DESIGN CHOICE, log 60). -/
def jobRecordAt (s : State) : Nat :=
  let used := (ringDescs 12 s ++ (ringGet s 12).waiting).map fun d => d.buf.toNat
  0x9FFC00 + 16 * (((List.range 64).find? fun k => !used.contains (0x9FFC00 + 16 * k)).getD 0)

/-- The outcomes kept: of the 16 most recent request jobs. -/
def keepJob (j : CrcJob) (s : State) : State :=
  { s with crc := { s.crc with jobs := (j :: s.crc.jobs).take 16, nextJob := if j.job = 65535 then 1 else j.job + 1 } }

/-- CRC_JOB START. A queued job has no VALUE yet, and a refused one none: free (log 3). -/
def rowCrcStart : ReqRow := { code := 0x10, op := some 0, legal := [1, 0, 0, 0, 0, 0, 1] }
def crcStartArgs (args : Bytes) : Bool :=
  resv args 3 1 && resv args 12 4 && jobGood (nth 0 args 1) (nth 0 args 2) (leAt args 4 4) (leAt args 8 4)
def crcStartReq (r : Req) (s : State) : State :=
  let job := s.crc.nextJob
  let full := decide (16 ≤ requestJobs s)
  let s1 := keepJob { job := job, state := if full then 3 else 0, value := freeWord s } (drawn s)
  let s2 :=
    if full then s1
    else
      let s3 := dataWrite (jobRecordAt s) (slice r.args 1 2 ++ leBytes 2 job ++ slice r.args 4 8 ++ zeros 4) s1
      push 12 { buf := BitVec.ofNat 32 (jobRecordAt s), len := 16, src := 1, ts := tsNow s, tag := freeWord s3 } (drawn s3)
  answerOk r (leBytes 2 job ++ zeros 2) s2

/-- CRC_JOB RESULT. -/
def rowCrcResult : ReqRow := { code := 0x10, op := some 1, legal := [1, 0, 0, 0, 0, 0, 1] }
def crcResultArgs (args : Bytes) : Bool := resv args 1 11 && resv args 14 2
def crcResultRules (r : Req) (s : State) : Bool := s.crc.jobs.any fun j => decide (j.job = leAt r.args 12 2)
def crcResultReq (r : Req) (s : State) : State :=
  match s.crc.jobs.find? fun j => j.job = leAt r.args 12 2 with
  | some j => answerOk r (leBytes 2 j.job ++ [j.state, 0] ++ leBytes 4 j.value.toNat) s
  | none => respond r.asked 0x10 [] s

/-! ### KEY_POLICY (R376) -/

/-- The plant key of a role replaced. -/
def setRoleKey (role : Nat) (k : Option Bytes) (s : State) : State :=
  { s with mgt :=
    if role = 0 then { s.mgt with keyView := k } else if role = 1 then { s.mgt with keyOperate := k }
    else if role = 2 then { s.mgt with keyEngineer := k } else { s.mgt with keyService := k } }

/-- A role's key changed after the response, which carries a MAC under the old key: SJ 0x0931 with 0 SET or 1 CLEAR. -/
def keyChange (k : Option Bytes) (r : Req) (s : State) : State :=
  let role := leAt r.args 1 1
  sj 0x931 0 (item role ++ item (b2n k.isNone) ++ item r.path) (setRoleKey role k (answerOk r [] s))

def keyArgs (args : Bytes) : Bool := decide (leAt args 1 1 ≤ 3) && resv args 2 2

/-- KEY_POLICY SET: an all-zero key is answered 0x10. -/
def rowKeySet : ReqRow := { code := 0x11, op := some 0, legal := [1, 0, 0, 0, 0, 0, 1], stores := [0] }
def keySetArgs (args : Bytes) : Bool := keyArgs args && !(slice args 4 32).all (· = 0)
def keySetReq (r : Req) (s : State) : State := keyChange (some (slice r.args 4 32)) r s

/-- KEY_POLICY CLEAR. -/
def rowKeyClear : ReqRow := { code := 0x11, op := some 1, legal := [1, 0, 0, 0, 0, 0, 1], stores := [0] }
def keyClearReq (r : Req) (s : State) : State := keyChange none r s

/-- KEY_POLICY LIST. -/
def rowKeyList : ReqRow := { code := 0x11, op := some 2, legal := [1, 0, 0, 0, 0, 0, 1] }
def keyListReq (r : Req) (s : State) : State :=
  answerOk r (leBytes 1 (maskOf 4 fun i => (roleKey s i).isSome) ++ zeros 3) s

/-- No argument bytes to check. -/
def noArgs (_ : Bytes) : Bool := true

/-! ### SVC timers (R372, R373) -/

/-- SVC_FRAME_TIMEOUT: the frame that has begun is discarded and counted (R372). -/
def svcFrameTimeout (s : State) : State :=
  if s.mgt.svcOpen ∧ s.mgt.svcBuf ≠ [] then { s with mgt := { s.mgt with svcBad := satInc s.mgt.svcBad, svcBuf := [] } } else s

/-! ### The commands -/

/-- GET_STATE. -/
def execGetState (via : Via) (s : State) : Result := .next (request rowGetState noArgs getState via s)
/-- SET_MODE RUN. -/
def execSetModeRun (via : Via) (s : State) : Result := .next (request rowModeRun modeArgs modeRun via s)
/-- SET_MODE HALT. -/
def execSetModeHalt (via : Via) (s : State) : Result := .next (request rowModeHalt modeArgs modeHalt via s)
/-- SET_MODE BATON. -/
def execSetModeBaton (via : Via) (s : State) : Result := .next (request rowModeBaton modeArgs modeBaton via s)
/-- SET_MODE WITHDRAW. -/
def execSetModeWithdraw (via : Via) (s : State) : Result := .next (request rowModeWithdraw modeArgs modeWithdraw via s)
/-- RESTART. -/
def execRestart (via : Via) (s : State) : Result := .next (request rowRestart noArgs restartReq via s)
/-- HIBERNATE. -/
def execHibernate (via : Via) (s : State) : Result := .next (request rowHibernate noArgs hibernateReq via s)
/-- LOAD_MOULD. -/
def execLoadMould (via : Via) (s : State) : Result := .next (request rowLoadMould noArgs loadMould via s mouldRules)
/-- REPRESS. -/
def execRepress (via : Via) (s : State) : Result := .next (request rowRepress repressArgs repressReq via s repressRules)
/-- EDIT_LOAD. -/
def execEditLoad (via : Via) (s : State) : Result := .next (request rowEditLoad noArgs editLoad via s editRules)
/-- EDIT_TRIAL START. -/
def execEditTrialStart (via : Via) (s : State) : Result := .next (request rowTrialStart trialArgs trialStartReq via s)
/-- EDIT_TRIAL ABORT. -/
def execEditTrialAbort (via : Via) (s : State) : Result := .next (request rowTrialAbort trialArgs trialAbortReq via s)
/-- EDIT_TRIAL REPORT. -/
def execEditTrialReport (via : Via) (s : State) : Result := .next (request rowTrialReport trialArgs trialReportReq via s)
/-- EDIT_ADOPT ADOPT. -/
def execEditAdopt (via : Via) (s : State) : Result := .next (request rowEditAdopt adoptArgs editAdoptReq via s)
/-- EDIT_ADOPT DISCARD. -/
def execEditDiscard (via : Via) (s : State) : Result := .next (request rowEditDiscard adoptArgs editDiscardReq via s)
/-- LOG_READ. -/
def execLogRead (via : Via) (s : State) : Result := .next (request rowLogRead logArgs logRead via s)
/-- RTC_SET. -/
def execRtcSet (via : Via) (s : State) : Result := .next (request rowRtcSet rtcArgs rtcSetReq via s)
/-- LB_RECOVER. -/
def execLbRecover (via : Via) (s : State) : Result := .next (request rowLbRecover recoverArgs lbRecoverReq via s)
/-- SEARCH. -/
def execSearch (via : Via) (s : State) : Result := .next (request (rowTbl 1) tblArgs tblReq via s)
/-- NEXT. -/
def execTblNext (via : Via) (s : State) : Result := .next (request (rowTbl 2) tblArgs tblReq via s)
/-- INSERT. -/
def execInsert (via : Via) (s : State) : Result := .next (request (rowTbl 3) tblArgs tblReq via s)
/-- DELETE. -/
def execDelete (via : Via) (s : State) : Result := .next (request (rowTbl 4) tblArgs tblReq via s)
/-- FLUSH_BY_PORT. -/
def execFlushByPort (via : Via) (s : State) : Result := .next (request (rowTbl 5) tblArgs tblReq via s)
/-- REHASH. -/
def execRehash (via : Via) (s : State) : Result := .next (request (rowTbl 6) tblArgs tblReq via s)
/-- REHASH_DONE. -/
def execRehashDone (s : State) : Result := .next (whenever (pdIs s 6) rehashDone s)
/-- CRC_JOB START. -/
def execCrcJobStart (via : Via) (s : State) : Result := .next (request rowCrcStart crcStartArgs crcStartReq via s)
/-- CRC_JOB RESULT. -/
def execCrcJobResult (via : Via) (s : State) : Result := .next (request rowCrcResult crcResultArgs crcResultReq via s crcResultRules)
/-- KEY_POLICY SET. -/
def execKeyPolicySet (via : Via) (s : State) : Result := .next (request rowKeySet keySetArgs keySetReq via s)
/-- KEY_POLICY CLEAR. -/
def execKeyPolicyClear (via : Via) (s : State) : Result := .next (request rowKeyClear keyArgs keyClearReq via s)
/-- KEY_POLICY LIST. -/
def execKeyPolicyList (via : Via) (s : State) : Result := .next (request rowKeyList keyArgs keyListReq via s)
/-- SVC_FRAME_TIMEOUT. -/
def execSvcFrameTimeout (s : State) : Result := .next (svcFrameTimeout s)
/-- SVC_IDLE_CLOSE. -/
def execSvcIdleClose (s : State) : Result := .next (closeSvc 0 s)
/-- SVC_VBUS_LOST. -/
def execSvcVbusLost (s : State) : Result :=
  let t := closeSvc 1 s
  .next { t with mgt := { t.mgt with vbus := false } }

end Sys2Proof.Machine
end

