-- ==== Sys2Proof/Machine/Registers.lean ====
section
/-! DEFINITION. Register accesses by the Marshal: the address map, what each register reads, what a read clears or latches,
and what a write sets (R3 to R10, R16, R18, R20, R408, R448, R449). -/

namespace Sys2Proof.Machine

/-! ### The address map (R448) -/

/-- The register blocks of R448. -/
inductive Block where
  | mgt | rtc | log | crc | upd | mld | pan | lap | bu | bx | sby | saf | dio | acq | mtr
  | lbn (port : Nat)
  | bbs | tbl | pxe | qp
deriving DecidableEq, Repr

/-- Address bits 31:16 of each block's base. -/
def blockOf (a : Nat) : Option Block :=
  match a / 0x10000 with
  | 0x4000 => some .mgt
  | 0x4001 => some .rtc
  | 0x4002 => some .log
  | 0x4003 => some .crc
  | 0x4004 => some .upd
  | 0x4005 => some .mld
  | 0x4006 => some .pan
  | 0x4010 => some .lap
  | 0x4011 => some .bu
  | 0x4012 => some .bx
  | 0x4013 => some .sby
  | 0x4014 => some .saf
  | 0x4015 => some .dio
  | 0x4020 => some .acq
  | 0x4021 => some .mtr
  | 0x4030 => some (.lbn 0)
  | 0x4031 => some (.lbn 1)
  | 0x4032 => some (.lbn 2)
  | 0x4033 => some (.lbn 3)
  | 0x4040 => some .bbs
  | 0x4041 => some .tbl
  | 0x4042 => some .pxe
  | 0x4050 => some .qp
  | _ => none

/-- The power domain in which a register lies (R14, R448). The manual places CD1 blocks with the Marshal, the lanes' blocks
LAP, BX and SAF with Lane A, and the SBY counters in CD1 (DEDUCED, log 61). -/
def domainOf (b : Block) (o : Nat) : Nat :=
  match b with
  | .lap | .bx | .saf => 2
  | .bu => 4
  | .dio => 5
  | .bbs | .tbl => 6
  | .lbn _ => 7
  | .acq => 8
  | .sby => if o = 0x08 ∨ o = 0x18 then 1 else 11
  | _ => 1

/-- Is offset `o` entry `n` of a row of `count` registers at `base`? -/
def inRow (o base count : Nat) : Bool := decide (base ≤ o) && decide (o < base + 4 * count)

/-- The entry that offset `o` selects in a row at `base`. -/
def rowIx (o base : Nat) : Nat := (o - base) / 4

/-- The low and high half of a 64-bit counter. -/
def loHalf (v : Nat) : Nat := v % 2 ^ 32
def hiHalf (v : Nat) : Word := BitVec.ofNat 32 (v / 2 ^ 32)

/-- Bit `b` as a number at position `i`. -/
def at1 (i : Nat) (b : Bool) : Nat := b2n b * 2 ^ i

/-! ### MGT (03, 15) -/

/-- A temperature register. -/
def tempWord (t : Temp) : Nat := t.temp.toNat + at1 16 t.warn + at1 17 t.warnSeen + at1 18 t.shut

/-- MGT.PD_STATUS.ON: beside the domains that the Marshal switches, PD9 shows on while PD5 is and a field group has its supply, PD10
while the drivers are enabled (DEDUCED, log 64). -/
def pdShown (s : State) : BitVec 12 :=
  setBit (setBit s.power.pdOn 9 (pdIs s 5 && (List.range 4).any fun g => !(diGroup s g).glost)) 10 s.power.driversOn

def rdMgt (o : Nat) (s : State) : Nat :=
  if inRow o 0x40 12 then
    let x := sget {} s.sens.pdVi (rowIx o 0x40)
    x.mv.toNat + 65536 * x.ma.toNat
  else if inRow o 0x80 6 then tempWord (sget {} s.sens.temps (rowIx o 0x80))
  else match o with
  | 0x00 => mgtStateWord s
  | 0x04 => ssCauseWord s
  | 0x08 => startInfoWord s
  | 0x0C => s.power.pwrCycles.toNat
  | 0x10 => s.power.runTimeMs.toNat
  | 0x14 => s.power.refusals.toNat + 65536 * s.power.busyPx.toNat
  | 0x18 => s.sens.xdomCount.toNat + 65536 * s.sens.xdomBlock.toNat
  | 0x20 => (pdShown s).toNat + 4096 * s.power.pdTripped.toNat
  | 0xA0 => s.sens.x1.toNat + 65536 * s.sens.bat.toNat
  | 0xA4 => s.sens.lplusA.toNat + 65536 * s.sens.lplusB.toNat
  | 0xC0 => s.mgt.wdA.gap.toNat + 256 * s.mgt.wdB.gap.toNat + at1 16 s.mgt.wdA.armed + at1 17 s.mgt.wdB.armed
  | 0xD0 => loHalf (opMs s)
  | 0xD4 => s.clk.optHi.toNat
  | 0xE0 => s.mgt.issue.toNat + 256 * s.mgt.rom.toNat
  | 0xE4 => s.mgt.testedSet.toNat
  | 0xF0 => at1 0 s.mgt.svcOpen + at1 1 s.mgt.vbus + 256 * min 255 s.px.pending.length + 65536 * s.mgt.svcBad.toNat
  | _ => 0

def onReadMgt (o : Nat) (s : State) : State :=
  match o with
  | 0x14 => { s with power := { s.power with refusals := 0, busyPx := 0 } }
  | 0x18 => { s with sens := { s.sens with xdomCount := 0 } }
  | 0xC0 => { s with mgt := { s.mgt with wdA := { s.mgt.wdA with gap := 0 }, wdB := { s.mgt.wdB with gap := 0 } } }
  | 0xD0 => { s with clk := { s.clk with optHi := hiHalf (opMs s) } }
  | 0xF0 => { s with mgt := { s.mgt with svcBad := 0 } }
  | _ => s

def wrMgt (o : Nat) (v : Word) (s : State) : State :=
  if inRow o 0x80 6 ∧ v.getLsbD 17 then
    { s with sens := { s.sens with temps := smod {} s.sens.temps (rowIx o 0x80) fun (t : Temp) => { t with warnSeen := false } } }
  else if o = 0x20 then
    { s with power := { s.power with pdTripped := s.power.pdTripped &&& ~~~(v.extractLsb' 12 12) } }
  else s

/-! ### RTC (17) -/

/-- The two words of a calendar time: low second, minute, hour, weekday; high day, month, year. -/
def timeLo (t : Time) : Nat := t.second + 256 * t.minute + 65536 * t.hour + 16777216 * t.weekday
def timeHi (t : Time) : Nat := t.day + 256 * t.month + 65536 * t.year

def rdRtc (o : Nat) (s : State) : Nat :=
  if inRow o 0x20 8 then (nth 0 s.rtc.bkp (rowIx o 0x20)).toNat
  else match o with
  | 0x00 => timeLo s.rtc.time
  | 0x04 => s.rtc.hiLatch.toNat
  | 0x08 => s.rtc.subLatch.toNat
  | 0x0C => at1 0 s.rtc.osf + at1 1 s.rtc.lbv + at1 2 s.rtc.alarmEn + at1 3 s.rtc.alarmHit + at1 4 s.rtc.pwrOn
  | 0x10 => timeLo s.rtc.alarm
  | 0x14 => timeHi s.rtc.alarm
  | 0x18 => s.rtc.bat.toNat
  | _ => 0

/-- A read of RTC.TIME_LO latches RTC.TIME_HI and RTC.SUBSEC (R408). -/
def onReadRtc (o : Nat) (s : State) : State :=
  if o = 0 then
    { s with rtc := { s.rtc with hiLatch := BitVec.ofNat 32 (timeHi s.rtc.time), subLatch := BitVec.ofNat 15 (subsec s) } }
  else s

def wrRtc (o : Nat) (v : Word) (s : State) : State :=
  if inRow o 0x20 8 then { s with rtc := { s.rtc with bkp := setAt s.rtc.bkp (rowIx o 0x20) v } }
  else if o = 0x0C ∧ v.getLsbD 3 then { s with rtc := { s.rtc with alarmHit := false } }
  else s

/-! ### LOG and CRC (16) -/

def rdLog (o : Nat) (s : State) : Nat :=
  match o with
  | 0x00 => s.log.sjHead.toNat
  | 0x04 => s.log.sjWraps.toNat
  | 0x08 => loHalf s.log.trSeq.toNat
  | 0x0C => s.log.trHi.toNat
  | 0x10 => s.log.trDrop.toNat + 65536 * s.log.sjFails.toNat
  | 0x14 => s.log.corruptSj.toNat + 65536 * s.log.corruptTr.toNat
  | 0x18 => s.log.anchor.toNat + at1 31 s.log.anchorValid
  | 0x1C => at1 0 s.log.rebuilt + at1 1 s.log.erasing
  | _ => 0

def onReadLog (o : Nat) (s : State) : State :=
  match o with
  | 0x08 => { s with log := { s.log with trHi := hiHalf s.log.trSeq.toNat } }
  | 0x10 => { s with log := { s.log with trDrop := 0, sjFails := 0 } }
  | 0x14 => { s with log := { s.log with corruptSj := 0, corruptTr := 0 } }
  | _ => s

/-- The JOB of the running scan job; 0 where none runs (DEDUCED, log 61). -/
def scanJobNo (s : State) : Nat := (s.crc.scan.map fun j => j.job.toNat).getD 0

def rdCrc (o : Nat) (s : State) : Nat :=
  match o with
  | 0x00 => at1 0 s.crc.scan.isSome + at1 1 s.crc.frameBusy + 256 * (ringFill (ringGet s 12) % 128) + 65536 * scanJobNo s
  | 0x04 => s.crc.done.toNat
  | 0x08 => s.crc.misScan.toNat + 65536 * s.crc.misFrame.toNat
  | 0x0C => s.crc.refused.toNat
  | 0x10 => s.crc.last.toNat
  | _ => 0

def onReadCrc (o : Nat) (s : State) : State :=
  match o with
  | 0x04 => { s with crc := { s.crc with done := 0 } }
  | 0x08 => { s with crc := { s.crc with misScan := 0, misFrame := 0 } }
  | 0x0C => { s with crc := { s.crc with refused := 0 } }
  | _ => s

/-! ### UPD and MLD (18, 04) -/

/-- The package in staging of KIND k. -/
def stagedKind (k : Nat) (s : State) : Option Staged := if k = 0 then s.upd.sys else if k = 1 then s.upd.app else s.upd.edit

def rdUpd (o : Nat) (s : State) : Nat :=
  if inRow o 0x10 3 then ((stagedKind (rowIx o 0x10) s).map fun p => p.received).getD 0 % 2 ^ 25
  else if inRow o 0x20 3 then ((stagedKind (rowIx o 0x20) s).map fun p => p.pkg.toNat).getD 0
  else if inRow o 0x40 7 then (nth 0 s.upd.partVer (rowIx o 0x40)).toNat
  else match o with
  | 0x00 => journalCode s.upd.journal + at1 2 s.upd.accepting + 16 * s.upd.kind.toNat + 256 * s.upd.code.toNat +
      65536 * s.upd.part.toNat
  | 0x04 => s.upd.opsDone % 65536 + 65536 * (s.upd.opsTotal % 65536)
  | 0x30 => at1 0 s.upd.active + at1 1 s.upd.pending + 4 * min 3 s.upd.attempts + at1 4 s.upd.bankA.pkg.isSome +
      at1 5 s.upd.bankB.pkg.isSome
  | 0x34 => s.upd.bankA.set.toNat
  | 0x38 => s.upd.bankB.set.toNat
  | 0x3C => s.upd.newSet.toNat
  | _ => 0

/-- The four region states of MLD.REGION. -/
def regionsWord (s : State) : Nat :=
  (nth 0 s.mld.regions 0).toNat + 256 * (nth 0 s.mld.regions 1).toNat + 65536 * (nth 0 s.mld.regions 2).toNat +
    16777216 * (nth 0 s.mld.regions 3).toNat

def rdMld (o : Nat) (s : State) : Nat :=
  if inRow o 0x10 8 then leAt s.mld.hash (4 * rowIx o 0x10) 4
  else match o with
  | 0x00 => at1 0 s.mld.mould.isSome + at1 1 s.upd.active + at1 2 s.mld.repress.isSome + 256 * s.mld.lastCode.toNat
  | 0x04 => s.mld.failSection.toNat + 65536 * s.mld.failOffset.toNat
  | 0x08 => regionsWord s
  | 0x0C => s.mld.build.toNat
  | 0x30 => s.mld.okCount.toNat + 65536 * s.mld.failCount.toNat
  | _ => 0

/-! ### PAN (17) -/

/-- Does a lockout stand (R422), where there is a sequence to judge (R423)? -/
def lockoutLeft (s : State) : Nat :=
  if (serviceSequence s).isSome then ((s.pan.lockoutEnd.map fun e => e - opMs s).getD 0) else 0

/-- PAN.LOCK.STATE: an open entry before a lockout before the lock (DEDUCED, log 61). -/
def panelState (s : State) : Nat :=
  if s.pan.entry.isSome then 2 else if lockoutLeft s ≠ 0 then 3 else if s.pan.locked then 1 else 0

/-- PAN.CFG: the values in force (R415). -/
def panelCfgWord (s : State) : Nat :=
  (keyTimes s).1 + 256 * (keyTimes s).2.1 + 65536 * (keyTimes s).2.2 + at1 24 (restOf s).isNone

/-- Is the display on (R424)? -/
def displayOn (s : State) : Bool := pdIs s 11 && awake s

def rdPan (o : Nat) (s : State) : Nat :=
  match o with
  | 0x00 => s.pan.delivered.toNat
  | 0x04 => s.pan.raw.toNat
  | 0x08 => s.pan.stuck.toNat
  | 0x0C => panelState s + 16 * (s.pan.wrong % 8) + 256 * (min ((s.pan.entry.map List.length).getD 0) 255) +
      65536 * min ((lockoutLeft s + 999) / 1000) 65535
  | 0x10 => (s.pan.enc % 65536).toNat
  | 0x14 => panelCfgWord s
  | 0x18 => at1 0 (displayOn s) + 256 * (((restOf s).map fun r => r.panel.contrast.toNat).getD 128)
  | _ => 0

/-! ### LAP (05, 08) -/

/-- LAP.EDIT_STATUS.STATE. -/
def editCode : EditState → Nat
  | .none => 0
  | .loading => 1
  | .loaded => 2
  | .trial => 3
  | .ripe => 4
  | .adopting => 5

/-- LAP.EDIT_LAP: L while ADOPTING, else the lap of the last adoption. -/
def editLapShown (s : State) : DWord := if s.edit.state = .adopting then s.edit.lap else s.edit.lastLap

def rdLap (o : Nat) (s : State) : Nat :=
  match o with
  | 0x00 => ((restOf s).map fun r => r.tLap % 1024 + 65536 * (r.wMult % 16)).getD 0
  | 0x04 => loHalf s.lap.num.toNat
  | 0x08 => s.lap.numHi.toNat
  | 0x0C => s.lap.nowMs.toNat
  | 0x10 => s.lap.lastUs % 2 ^ 32
  | 0x14 => s.lap.maxUs.toNat
  | 0x18 => s.lap.ovr.toNat
  | 0x1C => s.lap.fault.toNat + 65536 * s.lap.faultType.toNat
  | 0x20 => s.lap.faultBlock.toNat + 65536 * s.lap.faultOff.toNat
  | 0x24 => s.lap.evtDue.toNat
  | 0x28 => at1 0 s.lap.retTorn + at1 1 s.lap.retCutoff + 65536 * s.lap.retKib.toNat
  | 0x2C => s.lap.pClip.toNat
  | 0x40 => editCode s.edit.state + 256 * s.edit.result.toNat + 65536 * s.edit.abort.toNat + 1048576 * s.edit.chain.toNat
  | 0x44 => loHalf (editLapShown s).toNat
  | 0x48 => s.edit.lapHi.toNat
  | 0x4C => s.edit.trialRun.toNat + 16384 * s.edit.trialDiff.toNat
  | _ => 0

def onReadLap (o : Nat) (s : State) : State :=
  match o with
  | 0x04 => { s with lap := { s.lap with numHi := hiHalf s.lap.num.toNat } }
  | 0x14 => { s with lap := { s.lap with maxUs := 0 } }
  | 0x18 => { s with lap := { s.lap with ovr := 0 } }
  | 0x2C => { s with lap := { s.lap with pClip := 0 } }
  | 0x44 => { s with edit := { s.edit with lapHi := hiHalf (editLapShown s).toNat } }
  | _ => s

/-! ### BU and BX (06, 07) -/

/-- BU.STATUS.RUN: between freeze and commit with code left to run (DEDUCED, log 61). -/
def buRuns (s : State) : Bool := decide (s.lap.running ≠ .idle) && !s.bx.ended

/-- BU.RFX_OUT: the commands before protection, and which outputs have an enabled network. -/
def rfxOut (s : State) : Nat := (commands s).toNat + 65536 * (drivenNow s).toNat

def rdBu (o : Nat) (s : State) : Nat :=
  match o with
  | 0x00 => at1 0 (buRuns s) + at1 1 s.bu.trap + at1 2 s.bu.under + at1 3 s.bu.parity + 256 * (s.bu.stack.length % 32) +
      65536 * s.bu.maxDepth.toNat
  | 0x04 => loHalf s.bu.instr.toNat
  | 0x08 => s.bu.instrHi.toNat
  | 0x0C => s.bu.lapBits.toNat
  | 0x10 => s.rfx.nets.toNat + 65536 * s.rfx.cells.toNat + at1 29 s.rfx.active
  | 0x14 => s.rfx.en0.toNat
  | 0x18 => s.rfx.en1.toNat
  | 0x1C => loHalf s.rfx.res.toNat
  | 0x20 => s.rfx.res.toNat / 2 ^ 32
  | 0x24 => rfxOut s
  | _ => 0

def onReadBu (o : Nat) (s : State) : State :=
  match o with
  | 0x00 => { s with bu := { s.bu with maxDepth := 0 } }
  | 0x04 => { s with bu := { s.bu with instrHi := hiHalf s.bu.instr.toNat } }
  | _ => s

def wrBu (o : Nat) (v : Word) (s : State) : State :=
  if o = 0 then { s with bu := { s.bu with trap := s.bu.trap && !v.getLsbD 1, parity := s.bu.parity && !v.getLsbD 3 } } else s

def rdBx (o : Nat) (s : State) : Nat :=
  match o with
  | 0x00 => s.bx.statusFlags.toNat + 256 * s.bx.lapSticky.toNat + 65536 * s.bx.level.toNat + 16777216 * s.bx.maxLevel.toNat
  | 0x04 => 16 * s.bx.seen.toNat
  | 0x08 => loHalf s.bx.words.toNat
  | 0x0C => s.bx.wordsHi.toNat
  | 0x10 => s.bx.lapWords.toNat
  | 0x14 => s.bx.dzCount.toNat
  | 0x18 => s.prog.verCode.toNat + 256 * s.prog.verType.toNat + 65536 * s.prog.verNumber.toNat
  | 0x1C => s.prog.verPos.toNat
  | _ => 0

def onReadBx (o : Nat) (s : State) : State :=
  match o with
  | 0x00 => { s with bx := { s.bx with maxLevel := 0 } }
  | 0x08 => { s with bx := { s.bx with wordsHi := hiHalf s.bx.words.toNat } }
  | 0x14 => { s with bx := { s.bx with dzCount := 0 } }
  | _ => s

def wrBx (o : Nat) (v : Word) (s : State) : State :=
  if o = 4 then { s with bx := { s.bx with seen := s.bx.seen &&& ~~~(v.extractLsb' 4 4) } } else s

/-! ### SBY and SAF (09, 10) -/

def rdSby (o : Nat) (s : State) : Nat :=
  match o with
  | 0x00 => at1 0 s.sby.lock + at1 1 s.sby.sfp + at1 2 s.sby.los + at1 3 s.sby.txFault + 16 * condCode s.sby.cond +
      at1 8 (sharedMode s) + at1 9 s.sby.window + at1 10 (syncSeen s) + at1 11 s.sbx.pxSeen + 4096 * s.sby.reason.toNat +
      65536 * (if s.power.role = .leader then min (divHour s) 255 else 0)
  | 0x04 => s.sby.pState.toNat + 16 * s.sby.pRole.toNat + 256 * s.sby.pCond.toNat + 65536 * s.sby.pMember.toNat
  | 0x08 => s.sby.diverge.toNat + 256 * s.sby.late.toNat + 65536 * s.sby.digestSkip.toNat + 16777216 * s.sby.crcErr.toNat
  | 0x0C => s.sby.lagUs.toNat + 65536 * s.sby.lagLaps.toNat
  | 0x10 => s.sby.rsMs.toNat + 4096 * s.sby.rsPasses.toNat + 65536 * s.sby.rsKib.toNat
  | 0x14 => s.sby.rxPwr.toNat + 65536 * s.sby.txPwr.toNat
  | 0x18 => s.sby.takeovers.toNat + 65536 * s.sby.batons.toNat
  | _ => 0

def onReadSby (o : Nat) (s : State) : State :=
  if o = 8 then { s with sby := { s.sby with diverge := 0, late := 0, digestSkip := 0, crcErr := 0 } } else s

/-- The state codes of eight pairs from pair `k` on. -/
def pairStates (k : Nat) (s : State) : Nat :=
  (List.range 8).foldl (fun a i => a + (nth 0 s.saf.states (k + i)).toNat * 16 ^ i) 0

/-- SAF.CFG: the modes of the sixteen pairs. -/
def pairModes (s : State) : Nat :=
  match mouldOf s with
  | none => 0
  | some m => (List.range 16).foldl (fun a n => a + (nth {} m.pairs n).mode.toNat % 4 * 4 ^ n) 0

def rdSaf (o : Nat) (s : State) : Nat :=
  match o with
  | 0x00 => pairModes s
  | 0x04 => s.saf.result.toNat + 65536 * s.saf.fault.toNat
  | 0x08 => pairStates 0 s
  | 0x0C => pairStates 8 s
  | 0x10 => spairMask s + 256 * s.saf.stuck.toNat + 65536 * s.saf.mismatch.toNat
  | 0x14 => s.saf.chFail.toNat
  | 0x18 => s.saf.disc.toNat + 65536 * s.saf.ackIgnored.toNat
  | 0x1C => at1 0 s.saf.btpValid + at1 1 s.saf.mainsOk + at1 2 s.saf.transfer + at1 3 s.saf.rescue
  | _ => 0

def onReadSaf (o : Nat) (s : State) : State :=
  if o = 0x18 then { s with saf := { s.saf with disc := 0, ackIgnored := 0 } } else s

def wrSaf (o : Nat) (v : Word) (s : State) : State :=
  if o = 0x10 then { s with saf := { s.saf with mismatch := s.saf.mismatch &&& ~~~(v.extractLsb' 16 8) } } else s

/-! ### DIO (02) -/

def rdDio (o : Nat) (s : State) : Nat :=
  if inRow o 0x100 32 then
    let n := rowIx o 0x100
    (sget 30 s.dioc.diFilter n).toNat + at1 8 (s.dioc.diLm.getLsbD n)
  else if inRow o 0x180 16 then
    let k := rowIx o 0x180
    at1 0 (s.dioc.doPolicy.getLsbD k) + at1 1 (s.dioc.doShared.getLsbD k) + 65536 * (retryOf s k).retries.toNat
  else match o with
  | 0x00 => s.dio.raw.toNat
  | 0x04 => (diFiltered s).toNat
  | 0x08 => s.dio.opens.toNat
  | 0x0C => s.dio.openLatch.toNat
  | 0x10 => (grpStatus s).toNat
  | 0x20 => s.dio.cmd.toNat
  | 0x24 => (readback s).toNat
  | 0x28 => s.dio.latched.toNat
  | 0x30 => (doOpenWord s).toNat
  | 0x34 => s.dio.tripped.toNat + 65536 * s.dio.openSeen.toNat
  | 0x38 => (doGrpWord s).toNat
  | 0x3C => (trgLevel s).toNat + 16 * s.dioc.trgDrive.toNat + 256 * s.dioc.trgPull.toNat
  | _ => 0

/-- FILTER as it is stored: a written 0 is 1, a value above 200 is 200. -/
def filterStored (v : Nat) : Byte := BitVec.ofNat 8 (if v = 0 then 1 else min v 200)

/-- SSC of a group cleared where the written bit is 1. -/
def sscCleared (x : DiGroup) (b : Bool) : DiGroup := { x with ssc := x.ssc && !b }

/-- An override of DIO.DI_CFGn in HALT (R6, R10). An input without monitoring is not flagged OPEN (R36); for a flag
that goes so no SJ 0x0511 is written (DESIGN CHOICE, log 66). -/
def wrDiCfg (n : Nat) (v : Word) (s : State) : State :=
  if s.power.state = .halt then
    let lm := v.getLsbD 8
    { s with dioc := { s.dioc with diFilter := sput 30 s.dioc.diFilter n (filterStored (v.toNat % 256)), diLm := setBit s.dioc.diLm n lm }
             dio := { s.dio with opens := if lm then s.dio.opens else setBit s.dio.opens n false } }
  else s

/-- An override of DIO.DO_CFGn in HALT (R6, R10). -/
def wrDoCfg (k : Nat) (v : Word) (s : State) : State :=
  if s.power.state = .halt then
    { s with dioc := { s.dioc with doPolicy := setBit s.dioc.doPolicy k (v.getLsbD 0), doShared := setBit s.dioc.doShared k (v.getLsbD 1) } }
  else s

def wrDio (o : Nat) (v : Word) (s : State) : State :=
  if inRow o 0x100 32 then wrDiCfg (rowIx o 0x100) v s
  else if inRow o 0x180 16 then wrDoCfg (rowIx o 0x180) v s
  else match o with
  | 0x0C => { s with dio := { s.dio with openLatch := s.dio.openLatch &&& ~~~v } }
  | 0x10 => { s with dio := { s.dio with
      g0 := sscCleared s.dio.g0 (v.getLsbD 3), g1 := sscCleared s.dio.g1 (v.getLsbD 11)
      g2 := sscCleared s.dio.g2 (v.getLsbD 19), g3 := sscCleared s.dio.g3 (v.getLsbD 27) } }
  | 0x2C => fieldCommand (ackOutputs 0 (v.setWidth 16)) s
  | 0x34 => { s with dio := { s.dio with
      tripped := s.dio.tripped &&& ~~~(v.setWidth 16), openSeen := s.dio.openSeen &&& ~~~(v.extractLsb' 16 16) } }
  | 0x38 => { s with dioc := { s.dioc with golA := s.dioc.golA && !v.getLsbD 2, golB := s.dioc.golB && !v.getLsbD 6 } }
  | _ => s

/-! ### ACQ and MTR (11) -/

def acqStatus (s : State) : Nat :=
  match acqCfg s with
  | none => 0
  | some c =>
    at1 0 (mwRuns s) + at1 1 (mwArmed c s) + at1 2 s.acq.capture.isSome + 256 * min (freeSets c s).length 255 +
      65536 * min (setCount c) 255

def rdAcq (o : Nat) (s : State) : Nat :=
  if inRow o 0x20 8 then (nth 0 s.acq.hcRms (rowIx o 0x20)).toNat
  else if inRow o 0x40 8 then bits (wLive s).toNat (32 * rowIx o 0x40) 32
  else match o with
  | 0x00 => acqStatus s
  | 0x08 => s.acq.recSeq.toNat
  | 0x0C => s.acq.lost.toNat + 65536 * s.acq.extra.toNat
  | 0x10 => s.acq.ovrNow.toNat + 256 * s.acq.ovrSeen.toNat
  | _ => 0

def onReadAcq (o : Nat) (s : State) : State :=
  if o = 0x0C then { s with acq := { s.acq with lost := 0, extra := 0 } } else s

def wrAcq (o : Nat) (v : Word) (s : State) : State :=
  if o = 4 then swTrigger v s
  else if o = 0x10 then { s with acq := { s.acq with ovrSeen := s.acq.ovrSeen &&& ~~~(v.extractLsb' 8 8) } }
  else s

/-- An energy in µWh as the Wh that MTR shows, saturating at 64 bits. -/
def whOf (e : List Nat) (s : State) : Nat := min (nth 0 e s.mtr.selTariff.toNat / 1000000) (2 ^ 64 - 1)

/-- The 64 bytes of the selected interval record (R269). -/
def logWord (n : Nat) (s : State) : Nat := leNat (mramRead (0x380800 + 64 * s.mtr.selIndex.toNat + 4 * n) 4 s)

def rdMtr (o : Nat) (s : State) : Nat :=
  if inRow o 0x20 3 then (nth 0 s.mtr.power (rowIx o 0x20) % 2 ^ 32).toNat
  else if inRow o 0x40 16 then logWord (rowIx o 0x40) s
  else match o with
  | 0x00 => s.mtr.tariff % 4 + at1 2 s.rtc.osf + at1 3 s.mtr.frozen + at1 4 s.mtr.snapLost +
      256 * (if (acqCfg s).isSome then (mtrCfg s).demandMin % 256 else 0)
  | 0x04 => s.mtr.selTariff.toNat + 65536 * s.mtr.selIndex.toNat
  | 0x08 => loHalf (whOf s.mtr.imp s)
  | 0x0C => s.mtr.impHi.toNat
  | 0x10 => loHalf (whOf s.mtr.exp s)
  | 0x14 => s.mtr.expHi.toNat
  | 0x18 => nth 0 s.mtr.md s.mtr.selTariff.toNat
  | 0x30 => min (s.mtr.chg / 1000) (2 ^ 32 - 1)
  | 0x34 => min (s.mtr.dis / 1000) (2 ^ 32 - 1)
  | 0x38 => s.mtr.logNext.toNat + 1024 * s.mtr.logWraps.toNat
  | _ => 0

def onReadMtr (o : Nat) (s : State) : State :=
  match o with
  | 0x08 => { s with mtr := { s.mtr with impHi := hiHalf (whOf s.mtr.imp s) } }
  | 0x10 => { s with mtr := { s.mtr with expHi := hiHalf (whOf s.mtr.exp s) } }
  | _ => s

def wrMtr (o : Nat) (v : Word) (s : State) : State :=
  if o = 0 ∧ v.getLsbD 4 then { s with mtr := { s.mtr with snapLost := false } }
  else if o = 4 then
    { s with mtr := { s.mtr with selTariff := v.setWidth 2, selIndex := BitVec.ofNat 10 (min (bits v.toNat 16 10) 991) } }
  else s

/-! ### LBn (12) -/

/-- LBn.TIMING by R280: prescaler, and both segments of each phase. -/
def timingWord (c : CtrlCfg) : Nat :=
  let seg := fun (n sp : Nat) =>
    let t1 := (2 * n * sp + 100) / 200 - 1
    (t1, n - 1 - t1)
  let (n1, n2) := seg 80 c.spNom
  let dn := match c.dataRate.toNat with
    | 1 => 40
    | 2 => 20
    | 3 => 16
    | _ => 0
  let (d1, d2) := if dn = 0 then (0, 0) else seg dn c.spData
  2 ^ (3 - c.nomRate.toNat) + 16 * n1 + 2048 * n2 + 131072 * d1 + 8388608 * d2

/-- LBn.CFG of a pressed controller. -/
def lbCfgWord (b : Lb) : Nat :=
  at1 9 b.term + match b.cfg with
    | none => 0
    | some c => 1 + at1 1 c.fd + 4 * c.nomRate.toNat + 16 * c.dataRate.toNat + 64 * c.tmRole.toNat + at1 8 c.beacon

/-- LBn.SLEEP.PHASE. -/
def phaseCode : SleepPhase → Nat
  | .awake => 0
  | .voting => 1
  | .settling => 2
  | .asleep => 3

/-- LBn.BEACON. -/
def beaconWord (s : State) (p : Nat) : Nat :=
  if isBeacon s p then
    (nodesWhere s p Node.present).length % 128 + 256 * ((underDuration s p).length % 128) +
      65536 * (lxOf s p).group.toNat + 16777216 * (groupsOf (lxOf s p).plan % 32)
  else 0

/-- LBn.RESYNCj. -/
def resyncWord (s : State) (p j : Nat) : Nat :=
  maskOf 32 fun k => decide (32 * j + k + 1 ≤ 100) && (nodeOf s p (32 * j + k + 1)).resync

def rdLb (p o : Nat) (s : State) : Nat :=
  let b := lbOf s p
  let x := lxOf s p
  if inRow o 0x60 4 then resyncWord s p (rowIx o 0x60)
  else match o with
  | 0x00 => lbCfgWord b
  | 0x04 => (b.cfg.map timingWord).getD 0
  | 0x10 => lbStateCode b.state + at1 4 b.passive + at1 5 b.polarity + 64 * b.tm.toNat + at1 9 b.conflict
  | 0x14 => b.tec % 512 + 65536 * min b.recCnt 255 + 268435456 * b.lastErr.toNat
  | 0x20 => loHalf b.rx.toNat
  | 0x24 => b.rxHi.toNat
  | 0x28 => loHalf b.tx.toNat
  | 0x2C => b.txHi.toNat
  | 0x30 => b.rxDrop.toNat + 65536 * b.txDiscard.toNat
  | 0x34 => b.errFrames.toNat + 65536 * b.busOffs.toNat + 16777216 * b.fdSeen.toNat
  | 0x38 => b.short.toNat + 65536 * (x.table.length % 512)
  | 0x40 => b.cycle.toNat
  | 0x44 => loHalf b.masterUs.toNat
  | 0x48 => b.masterHi.toNat
  | 0x50 => phaseCode x.phase + 8 * x.last.toNat + at1 6 x.timed + 256 * x.sleep20.toNat + 65536 * x.wake.toNat
  | 0x54 => beaconWord s p
  | _ => 0

def onReadLb (p o : Nat) (s : State) : State :=
  match o with
  | 0x20 => modLb p (fun b => { b with rxHi := hiHalf b.rx.toNat }) s
  | 0x28 => modLb p (fun b => { b with txHi := hiHalf b.tx.toNat }) s
  | 0x30 => modLb p (fun b => { b with rxDrop := 0, txDiscard := 0 }) s
  | 0x34 => modLb p (fun b => { b with errFrames := 0, busOffs := 0, fdSeen := 0 }) s
  | 0x38 => modLb p (fun b => { b with short := 0 }) s
  | 0x44 => modLb p (fun b => { b with masterHi := hiHalf b.masterUs.toNat }) s
  | _ => s

def wrLb (p o : Nat) (v : Word) (s : State) : State :=
  if o = 0x10 ∧ v.getLsbD 9 then modLb p (fun b => { b with conflict := false }) s else s

/-! ### BBS and TBL (13) -/

/-- A port register of the switch at offset `o` within its 0x40 bytes. -/
def rdPort (n o : Nat) (s : State) : Nat :=
  let x := nth {} s.sw.ports n
  match o with
  | 0x00 => at1 0 (if n = 4 then pdIs s 6 else x.up) + 2 * x.speed.toNat + at1 3 x.full + 16 * x.mrp.toNat + at1 6 x.mdix
  | 0x04 => loHalf x.rx.toNat
  | 0x08 => x.rxHi.toNat
  | 0x0C => loHalf x.tx.toNat
  | 0x10 => x.txHi.toNat
  | 0x14 => x.rxErr.toNat + 65536 * x.txDrop.toNat
  | 0x18 => x.ingress.toNat + 65536 * x.pfx.toNat
  | 0x1C => x.flooded.toNat + 65536 * x.filtered.toNat
  | _ => 0

def onReadPort (n o : Nat) (s : State) : State :=
  match o with
  | 0x04 => modPort n (fun x => { x with rxHi := hiHalf x.rx.toNat }) s
  | 0x0C => modPort n (fun x => { x with txHi := hiHalf x.tx.toNat }) s
  | 0x14 => modPort n (fun x => { x with rxErr := 0, txDrop := 0 }) s
  | 0x18 => modPort n (fun x => { x with ingress := 0, pfx := 0 }) s
  | 0x1C => modPort n (fun x => { x with flooded := 0, filtered := 0 }) s
  | _ => s

/-- Is an offset one of a switch port, and which? -/
def bbsPort (o : Nat) : Option (Nat × Nat) :=
  if 0x100 ≤ o ∧ o < 0x240 then some ((o - 0x100) / 0x40, (o - 0x100) % 0x40) else none

def rdBbs (o : Nat) (s : State) : Nat :=
  match bbsPort o with
  | some (n, k) => rdPort n k s
  | none => match o with
    | 0x00 => s.sw.config.toNat + (if s.sw.config = 0 then 0 else 4 * (s.sw.cfg.mrpRole.toNat % 4) + 16 * (s.sw.cfg.mrpProfile.toNat % 2)) +
        32 * s.sw.ring.toNat
    | 0x04 => leAt (macBytes s.sw.mac) 0 4
    | 0x08 => leAt (macBytes s.sw.mac) 4 2
    | 0x10 => s.sw.cpuDrop.toNat
    | 0x14 => s.sw.stormDrop.toNat
    | 0x18 => s.sw.topo.toNat + 65536 * s.sw.opens.toNat
    | _ => 0

def onReadBbs (o : Nat) (s : State) : State :=
  match bbsPort o with
  | some (n, k) => onReadPort n k s
  | none => match o with
    | 0x10 => { s with sw := { s.sw with cpuDrop := 0 } }
    | 0x14 => { s with sw := { s.sw with stormDrop := 0 } }
    | _ => s

/-- A register of one pipeline. -/
def rdPipe (w : Bool) (o : Nat) (s : State) : Nat :=
  let t := pipeOf w s
  match o with
  | 0x00 => countMacs (fun _ => true) t + 65536 * ((t.pfx.filter fun (x : Nat × PfxSlot) => decide (x.2.typ ≠ 0)).length)
  | 0x04 => t.learnFull.toNat
  | 0x08 => t.moves.toNat
  | 0x0C => t.deferred.toNat + 65536 * t.dropped.toNat
  | 0x10 => t.perrMac.toNat + 65536 * t.perrPfx.toNat
  | 0x14 => t.infoIndex.toNat + at1 15 t.infoPfx
  | 0x18 => t.rehashDrop.toNat
  | 0x1C => at1 0 (rehashing w s)
  | _ => 0

def onReadPipe (w : Bool) (o : Nat) (s : State) : State :=
  match o with
  | 0x04 => modPipe w (fun t => { t with learnFull := 0 }) s
  | 0x08 => modPipe w (fun t => { t with moves := 0 }) s
  | 0x0C => modPipe w (fun t => { t with deferred := 0, dropped := 0 }) s
  | 0x10 => modPipe w (fun t => { t with perrMac := 0, perrPfx := 0 }) s
  | 0x18 => modPipe w (fun t => { t with rehashDrop := 0 }) s
  | _ => s

def rdTbl (o : Nat) (s : State) : Nat :=
  let t := s.tbl
  if inRow o 0x04 4 then (nth 0 t.args (rowIx o 0x04)).toNat
  else if inRow o 0x18 4 then (nth 0 t.res (rowIx o 0x18)).toNat
  else if inRow o 0x100 8 then rdPipe false (o - 0x100) s
  else if inRow o 0x140 8 then rdPipe true (o - 0x140) s
  else match o with
  | 0x14 => at1 0 t.rehash.isSome + at1 1 t.found + 256 * t.status.toNat
  | 0x28 => t.resIndex.toNat
  | 0x2C => t.e.seed.toNat + 65536 * t.w.seed.toNat
  | 0x30 => at1 0 t.held + 256 * t.owner.toNat + at1 16 t.timeout
  | 0x34 => at1 1 t.dmaTable + at1 2 t.dmaPipe + at1 3 t.dmaDir + at1 4 t.dmaJob.isSome + 256 * t.dmaErr.toNat
  | 0x38 => t.dmaAddr.toNat
  | 0x3C => t.dmaFirst.toNat + 65536 * t.dmaCount.toNat
  | _ => 0

def onReadTbl (o : Nat) (s : State) : State :=
  if inRow o 0x100 8 then onReadPipe false (o - 0x100) s
  else if inRow o 0x140 8 then onReadPipe true (o - 0x140) s
  else s

/-- The command that a write of TBL.CMD gives with the TBL.ARG registers. -/
def tblWritten (v : Word) (s : State) : TblCmd :=
  { code := bits v.toNat 0 4, pipe := bits v.toNat 4 2, too := v.getLsbD 6, image := s.tbl.args.flatMap fun w => leBytes 4 w.toNat }

/-- A write of TBL.CMD starts its command (R328, R329). BUSY shows as the status
until that of the REHASH that runs, and has no other effect; a LOCKED refusal follows R91, with the CODE of TBL_CMD and a path that has no code (free, log 3). -/
def wrTblCmd (v : Word) (s : State) : State :=
  let c := tblWritten v s
  if tblBad c then tblStatus 0x10 s
  else match tblBlocked c s with
    | some 0x23 => tblStatus 0x23 (refusalNote 0x0F (freeWord s).toNat 0x23 5 (drawn s))
    | some b => tblStatus b s
    | none =>
      let (s1, st) := tblRun c s
      tblStatus st s1

/-- A write of TBL.LOCK by the Marshal, agent 1 (R332). -/
def wrTblLock (v : Word) (s : State) : State :=
  let s1 := if v.getLsbD 16 then { s with tbl := { s.tbl with timeout := false } } else s
  if v.getLsbD 0 then lockTake 1 s1 else lockRelease 1 s1

def wrTbl (o : Nat) (v : Word) (s : State) : State :=
  if inRow o 0x04 4 then { s with tbl := { s.tbl with args := setAt s.tbl.args (rowIx o 0x04) v } }
  else match o with
  | 0x00 => wrTblCmd v s
  | 0x30 => wrTblLock v s
  | 0x34 => dmaStart 1 v s
  | 0x38 => { s with tbl := { s.tbl with dmaAddr := v.setWidth 24 &&& 0xFFFFF0 } }
  | 0x3C => { s with tbl := { s.tbl with dmaFirst := v.setWidth 13, dmaCount := v.extractLsb' 16 14 } }
  | _ => s

/-! ### PXE and QP (14, 04) -/

def rdPxe (o : Nat) (s : State) : Nat :=
  if inRow o 0x20 8 then maskOf 32 fun k => (sget {} s.px.members (32 * rowIx o 0x20 + k)).present
  else if inRow o 0x100 32 then maskOf 32 fun k => nth false s.ctx.stale (32 * rowIx o 0x100 + k)
  else match o with
  | 0x00 => at1 0 s.px.muted + at1 1 s.px.duplicate + 4 * s.px.mbEn.toNat + 16 * (s.px.conns.length % 16) + 256 * (ownPubId s % 256)
  | 0x04 => s.px.session.toNat
  | 0x08 => if (mouldOf s).isSome then (ownIp s).toNat else 0
  | 0x0C => s.px.auth.toNat + 65536 * s.px.busy.toNat
  | 0x10 => s.px.bad.toNat + 65536 * s.px.unmatched.toNat
  | 0x14 => s.px.timeOff.toNat
  | _ => 0

def onReadPxe (o : Nat) (s : State) : State :=
  match o with
  | 0x0C => { s with px := { s.px with auth := 0, busy := 0 } }
  | 0x10 => { s with px := { s.px with bad := 0, unmatched := 0 } }
  | _ => s

def wrPxe (o : Nat) (v : Word) (s : State) : State :=
  if o = 0 ∧ v.getLsbD 1 then { s with px := { s.px with duplicate := false } } else s

/-- The ring that the window shows. -/
def shownRing (s : State) : Ring := ringGet s s.queues.ringSel.toNat

/-- A ring's flags: HWM, OVF, UNALLOC. -/
def ringFlags (r : Ring) : Nat := at1 0 r.flagHwm + at1 1 r.flagOvf + at1 2 r.unalloc

def rdQp (o : Nat) (s : State) : Nat :=
  let r := shownRing s
  if inRow o 0x100 32 then maskOf 32 fun k => decide (ringFlags (ringGet s (32 * rowIx o 0x100 + k)) ≠ 0)
  else match o with
  | 0x00 => s.queues.ringSel.toNat
  | 0x04 => r.base
  | 0x08 => r.log2 + 16 * r.policy.toNat + 256 * r.producer.toNat + 65536 * r.consumer.toNat + 16777216 * r.hwm.toNat
  | 0x0C => r.pi.toNat
  | 0x10 => r.ci.toNat
  | 0x14 => ringFill r % 8192 + 65536 * r.peak.toNat
  | 0x18 => r.count.toNat
  | 0x1C => ringFlags r
  | 0x20 => s.queues.total.toNat
  | _ => 0

def onReadQp (o : Nat) (s : State) : State :=
  let n := s.queues.ringSel.toNat
  match o with
  | 0x14 => ringSet n { ringGet s n with peak := 0 } s
  | 0x18 => ringSet n { ringGet s n with count := 0 } s
  | _ => s

def wrQp (o : Nat) (v : Word) (s : State) : State :=
  let n := s.queues.ringSel.toNat
  let r := ringGet s n
  match o with
  | 0x00 => { s with queues := { s.queues with ringSel := v.setWidth 10 } }
  | 0x10 => qpCiWrite v s
  | 0x1C => ringSet n { r with
      flagHwm := r.flagHwm && !v.getLsbD 0, flagOvf := r.flagOvf && !v.getLsbD 1, unalloc := r.unalloc && !v.getLsbD 2 } s
  | _ => s

/-! ### Accesses -/

/-- What a register of a block reads (R4: 0 where none lies). -/
def regRead (b : Block) (o : Nat) (s : State) : Nat :=
  match b with
  | .mgt => rdMgt o s
  | .rtc => rdRtc o s
  | .log => rdLog o s
  | .crc => rdCrc o s
  | .upd => rdUpd o s
  | .mld => rdMld o s
  | .pan => rdPan o s
  | .lap => rdLap o s
  | .bu => rdBu o s
  | .bx => rdBx o s
  | .sby => rdSby o s
  | .saf => rdSaf o s
  | .dio => rdDio o s
  | .acq => rdAcq o s
  | .mtr => rdMtr o s
  | .lbn p => rdLb p o s
  | .bbs => rdBbs o s
  | .tbl => rdTbl o s
  | .pxe => rdPxe o s
  | .qp => rdQp o s

/-- What a read does to the block: RC fields clear (R8), a LO half latches its HI half (R20, R408). -/
def regOnRead (b : Block) (o : Nat) (s : State) : State :=
  match b with
  | .mgt => onReadMgt o s
  | .rtc => onReadRtc o s
  | .log => onReadLog o s
  | .crc => onReadCrc o s
  | .upd | .mld | .pan | .dio => s
  | .lap => onReadLap o s
  | .bu => onReadBu o s
  | .bx => onReadBx o s
  | .sby => onReadSby o s
  | .saf => onReadSaf o s
  | .acq => onReadAcq o s
  | .mtr => onReadMtr o s
  | .lbn p => onReadLb p o s
  | .bbs => onReadBbs o s
  | .tbl => onReadTbl o s
  | .pxe => onReadPxe o s
  | .qp => onReadQp o s

/-- What a write does to the block, by the access codes of R6. -/
def regWrite (b : Block) (o : Nat) (v : Word) (s : State) : State :=
  match b with
  | .mgt => wrMgt o v s
  | .rtc => wrRtc o v s
  | .log | .crc | .upd | .mld | .pan | .lap | .sby | .bbs => s
  | .bu => wrBu o v s
  | .bx => wrBx o v s
  | .saf => wrSaf o v s
  | .dio => wrDio o v s
  | .acq => wrAcq o v s
  | .mtr => wrMtr o v s
  | .lbn p => wrLb p o v s
  | .tbl => wrTbl o v s
  | .pxe => wrPxe o v s
  | .qp => wrQp o v s

/-- What becomes of an access: not performed, missed across domains, or performed on a block at an offset. -/
inductive Access where
  | none
  | miss (block : Byte)
  | at (b : Block) (o : Nat)
deriving DecidableEq, Repr

/-- R3, R16, R448, R449: the Marshal accesses registers, so there is no access while it does not work. -/
def accessOf (addr : Word) (width : Nat) (s : State) : Access :=
  let a := addr.toNat
  if !awake s ∨ width ≠ 4 ∨ a % 4 ≠ 0 then .none
  else match blockOf a with
    | none => .none
    | some b =>
      if pdIs s (domainOf b (a % 65536)) then .at b (a % 65536) else .miss (BitVec.ofNat 8 (a / 65536))

/-- R16: an access not performed is counted, with its block. -/
def xdomMiss (block : Byte) (s : State) : State :=
  { s with sens := { s.sens with xdomCount := satInc s.sens.xdomCount, xdomBlock := block } }

/-- The value that a read answers. -/
def answered (v : Nat) (s : State) : State := { s with out := { s.out with readData := BitVec.ofNat 32 v } }

/-- A read of any register: the value first, then what the read does to the block. -/
def readAccess (addr : Word) (width : Nat) (s : State) : State :=
  match accessOf addr width s with
  | .none => if awake s then answered 0 s else s
  | .miss b => answered 0 (xdomMiss b s)
  | .at b o => answered (regRead b o s) (regOnRead b o s)

/-- A write of any register. -/
def writeAccess (addr : Word) (width : Nat) (v : Word) (s : State) : State :=
  match accessOf addr width s with
  | .none => s
  | .miss b => xdomMiss b s
  | .at b o => regWrite b o v s

/-- REGISTER_WRITE (R6). -/
def execRegisterWrite (addr : Word) (width : Nat) (value : Word) (s : State) : Result := .next (writeAccess addr width value s)
/-- RC_READ (R8). -/
def execRcRead (addr : Word) (width : Nat) (s : State) : Result := .next (readAccess addr width s)
/-- LO_READ (R20, R408). -/
def execLoRead (addr : Word) (width : Nat) (s : State) : Result := .next (readAccess addr width s)
/-- DO_ACK_WRITE (R43): a write of DIO.DO_ACK. -/
def execDoAckWrite (value : Word) (s : State) : Result := .next (writeAccess 0x4015002C 4 value s)
/-- SW_TRIG_WRITE (R257): a write of ACQ.SW_TRIG. -/
def execSwTrigWrite (value : Word) (s : State) : Result := .next (writeAccess 0x40200004 4 value s)
/-- QP_CI_WRITE: a write of QP.CI. -/
def execQpCiWrite (value : Word) (s : State) : Result := .next (writeAccess 0x40500010 4 value s)
/-- Another agent than the Marshal acts on the table interface, PD6 permitting (R16, R332). -/
def laneLock (f : State → State) (s : State) : State :=
  if !awake s then s else if pdIs s 6 then f s else xdomMiss 0x41 s

/-- The agent of DMA_START, whose row names none: the one that holds the lock, the Marshal where none does (DESIGN CHOICE,
log 49). -/
def dmaAgent (s : State) : Byte := if s.tbl.held then s.tbl.owner else 1

/-- DMA_START (R331): a write of TBL.DMA_CTRL. -/
def execDmaStart (value : Word) (s : State) : Result :=
  .next (if dmaAgent s = 1 then writeAccess 0x40410034 4 value s else laneLock (dmaStart (dmaAgent s) value) s)
/-- TBL_LOCK_TAKE (R332): 1 written to TBL.LOCK.HELD, by the Marshal (agent 1) or another agent. -/
def execTblLockTake (agent : Byte) (s : State) : Result :=
  .next (if agent = 1 then writeAccess 0x40410030 4 1 s else laneLock (lockTake agent) s)
/-- TBL_LOCK_RELEASE (R332): 0 written to TBL.LOCK.HELD. -/
def execTblLockRelease (agent : Byte) (s : State) : Result :=
  .next (if agent = 1 then writeAccess 0x40410030 4 0 s else laneLock (lockRelease agent) s)

end Sys2Proof.Machine
end

