-- ==== Sys2Proof/Machine/Updates.lean ====
section
/-! DEFINITION. Staging, system deltas and their patching, application banks, activation, and the restore in DEAD
(R427, R428, R434 to R443). -/

namespace Sys2Proof.Machine

/-! ### Staging (R427, R428) -/

/-- The staged package of a KIND: 0 system, 1 application, 2 edit. -/
def stagedOf (kind : Nat) (s : State) : Option Staged := if kind = 0 then s.upd.sys else if kind = 1 then s.upd.app else s.upd.edit
def setStaged (kind : Nat) (x : Staged) (s : State) : State :=
  { s with upd := if kind = 0 then { s.upd with sys := some x } else if kind = 1 then { s.upd with app := some x }
                  else { s.upd with edit := some x } }

/-- Is the staged package of a KIND in use? -/
def inUse (kind : Nat) (s : State) : Bool :=
  if kind = 0 then decide (s.upd.journal ≠ .idle)
  else if kind = 1 then
    match s.mld.repress, s.upd.app with
    | some x, some st => decide ((bankOf x.bank s).pkg = some st.pkg)
    | _, _ => false
  else decide (s.edit.state ≠ .none)

/-- The TOTALs of the other kinds. -/
def otherTotals (kind : Nat) (s : State) : Nat :=
  (((List.range 3).filter fun k => decide (k ≠ kind)).map fun k => ((stagedOf k s).map Staged.total).getD 0).sum

/-- Is an update request running (R374)? -/
def updBusy (s : State) : Bool := decide (s.upd.running ≠ 0)

/-- DATA taken into a package: PKG and the bytes received are answered, and a complete package writes SJ 0x0A01. -/
def stageData (r : Req) (kind : Nat) (st : Staged) (data : Bytes) (s : State) : State :=
  let x := { st with received := st.received + data.length, data := st.data ++ data }
  let s1 := stagingWrite (setStaged kind x s)
  let s2 := if x.received = x.total then sj 0xA01 0 (item x.pkg.toNat ++ item kind ++ item x.total) s1 else s1
  answerOk r (leBytes 4 x.pkg.toNat ++ leBytes 4 x.received) s2

/-- The PKG that follows, wrapping and skipping 0. -/
def pkgAfter (p : Word) : Word := if p = 0xFFFFFFFF then 1 else p + 1

/-- An opening call: refused while the package of its kind is in use, or where it does not fit. -/
def stageOpen (r : Req) (kind total : Nat) (data : Bytes) (s : State) : State :=
  if inUse kind s then refuse r 0x21 4 s
  else if 16777216 < otherTotals kind s + total then refuse r 0x40 4 s
  else stageData r kind { pkg := s.upd.nextPkg, total := total } data { s with upd := { s.upd with nextPkg := pkgAfter s.upd.nextPkg } }

/-- UPD_STAGE. -/
def rowUpdStage : ReqRow := { code := 9, legal := [1, 0, 0, 0, 0, 0, 1], stores := [0, 1] }
def stageArgs (args : Bytes) : Bool := decide (leAt args 4 1 ≤ 2) && resv args 5 3

/-- The rules of R427 for an opening call, and for one that goes on with the package it names. -/
def stageRules (r : Req) (s : State) : Bool :=
  let pkg := leAt r.args 0 4
  let off := leAt r.args 8 4
  let total := leAt r.args 12 4
  let n := (r.args.drop 16).length
  if pkg = 0 then decide (off = 0) && decide (total ≠ 0) && decide (total ≤ 16777216) && decide (n ≤ total)
  else match stagedOf (leAt r.args 4 1) s with
    | none => false
    | some st => decide (st.pkg.toNat = pkg) && decide (st.total = total) && decide (st.received = off) && decide (off + n ≤ total)

def updStage (r : Req) (s : State) : State :=
  let kind := leAt r.args 4 1
  let data := r.args.drop 16
  if updBusy s then respond r.asked 0x20 [] s
  else if leAt r.args 0 4 = 0 then stageOpen r kind (leAt r.args 12 4) data s
  else stageData r kind ((stagedOf kind s).getD {}) data s

/-! ### UPD_APPLY (R434, R435, R442) -/

/-- A complete package of a kind by its PKG. -/
def completePkg (kind pkg : Nat) (s : State) : Option Staged :=
  (stagedOf kind s).filter fun st => decide (st.pkg.toNat = pkg) && decide (st.received = st.total)

/-- A failed check: UPD.STATUS, SJ 0x0A02 (the part is free where none is concerned, log 3), final status 0x31. -/
def updFailed (pkg : Nat) (f : PkgFail) (s : State) : State :=
  let part := f.2.getD (freeWord s).toNat
  let s1 := if f.2.isSome then s else drawn s
  let s2 := { s1 with upd := { s1.upd with
    code := BitVec.ofNat 8 f.1, part := match f.2 with
      | some p => BitVec.ofNat 8 p
      | none => s1.upd.part
    running := 0 } }
  asyncDone 0x0A 0x31 (sj 0xA02 1 (item pkg ++ item f.1 ++ item part) s2)

/-- The checks of a system package, then PATCHING with SJ 0x0A03. -/
def applySys (st : Staged) (s : State) : State :=
  let s1 := { s with upd := { s.upd with kind := 0 } }
  match sysChecks st s1 with
  | some f => updFailed st.pkg.toNat f s1
  | none =>
    let n := ((payloadRecs st.data).getD []).length
    sj 0xA03 0 (item st.pkg.toNat ++ item n ++ item (manSet st.data)) (journalWrite { s1 with upd := { s1.upd with
      journal := .patching, code := 0, opsDone := 0, opsTotal := n, prepared := none, running := 0x0A } })

/-- The checks of an application package; its parts are then written (BANK_WRITTEN). A failure marks the inactive bank
empty. -/
def applyApp (st : Staged) (s : State) : State :=
  let s1 := { s with upd := { s.upd with kind := 1 } }
  match appChecks st s1 with
  | some f => updFailed st.pkg.toNat f (emptyInactive s1)
  | none => { s1 with upd := { s1.upd with code := 0, running := 0x0A } }

/-- R428: the PKG of a complete system or application package. -/
def applyRules (r : Req) (s : State) : Bool := (completePkg 0 (leAt r.args 0 4) s).isSome || (completePkg 1 (leAt r.args 0 4) s).isSome

/-- UPD_APPLY. -/
def rowUpdApply : ReqRow := { code := 0x0A, legal := [1, 0, 2, 0, 0, 0, 1], stores := [0, 1] }
def updApply (r : Req) (s : State) : State :=
  let pkg := leAt r.args 0 4
  if updBusy s then respond r.asked 0x20 [] s
  else match completePkg 0 pkg s with
    | some st => if s.upd.journal ≠ .idle then refuse r 0x21 4 s else applySys st (accept r s)
    | none =>
      if s.edit.state ≠ .none ∨ s.mld.repress.isSome ∨ s.upd.pending then refuse r 0x21 4 s
      else applyApp ((completePkg 1 pkg s).getD {}) (accept r s)

/-- Bytes written into flash sectors that have been erased. -/
def writeSectors (a : Nat) (bs : Bytes) (s : State) : State :=
  flashWrite a bs (flashErase a ((bs.length + 4095) / 4096 * 4096) s)

/-- The manifest at offset 0 of the inactive bank, and the parts at their LOCATIONs. -/
def writeBank (st : Staged) (s : State) : State :=
  let a := bankBase (!s.upd.active)
  (manParts 1 st.data).foldl (fun t e => writeSectors (a + e.location) (bodyOf st.data e) t)
    (writeSectors a (st.data.take (manLength 1)) s)

/-- BANK_WRITTEN: the parts written and read back (R442). -/
def bankWritten (readbackFails : Option Nat) (s : State) : State :=
  match s.upd.app with
  | some st =>
    if s.upd.running = 0x0A ∧ s.upd.kind = 1 then
      let s1 := writeBank st s
      match readbackFails with
      | some i => updFailed st.pkg.toNat (9, some (0x10 + i)) (emptyInactive s1)
      | none =>
        let set := manSet st.data
        let s2 := setBank (!s1.upd.active) { pkg := some st.pkg, set := BitVec.ofNat 32 set } s1
        asyncDone 0x0A 0 (sj 0xA10 0 (item (b2n (!s1.upd.active)) ++ item st.pkg.toNat ++ item set)
          { s2 with upd := { s2.upd with running := 0 } })
    else s
  | none => s

/-! ### Patching (R435 to R437) -/

/-- The part whose records hold operation k. -/
def partOfOp (m : Bytes) (k : Nat) : Option Nat :=
  let es := manParts 0 m
  ((List.range es.length).find? fun i => decide (k < ((es.take (i + 1)).map PartEntry.dataCount).sum)).map fun i =>
    nth 0 (kindParts 0) i

/-- The commit record: the new manifest at the head of the package, the active bank, COMMITTED, SJ 0x0A05, final status OK. A resume goes on as the
acceptance start (R437, R438). -/
def commitSys (m : Bytes) (s : State) : State :=
  let old := manSet s.upd.manifest
  let s1 := { s with upd := { s.upd with
    manifest := m.take (manLength 0), journal := .committed, newSet := BitVec.ofNat 32 (manSet m), running := 0, prepared := none
    active := (bankOfSet (manSet m) s).getD s.upd.active
    accepting := decide (s.power.state = .bringUp) } }
  asyncDone 0x0A 0 (sj 0xA05 0 (item old ++ item (manSet m)) (journalCommit s1))

/-- After the last operation: every part against its TARGET_HASH; a mismatch is unresumable, with code 0x09. -/
def patchEnds (m : Bytes) (s : State) : State :=
  match targetFailure m s with
  | some p => goDead 4 (some p) { s with upd := { s.upd with code := 9, part := BitVec.ofNat 8 p, running := 0 } }
  | none => commitSys m s

/-- PATCH_OPERATION: the block of the next operation, from the buffer where it stands PREPARED, written and read back:
`firstOk` and `secondOk` tell whether the read-backs agree. A second difference is unresumable. -/
def patchOperation (firstOk secondOk : Bool) (s : State) : State :=
  match s.upd.sys with
  | some st =>
    let k := s.upd.opsDone
    match ((payloadRecs st.data).getD [])[k]? with
    | some op =>
      if s.upd.journal = .patching ∧ awake s then
        let blk := match s.upd.prepared with
          | some (j, b) => if j = k then b else applyOp op s
          | none => applyOp op s
        let s1 := writeSectors (4096 * op.target) blk
          (journalPrepared k blk s)
        if firstOk || secondOk then
          let s2 := journalWrite { s1 with upd := { s1.upd with prepared := none, opsDone := k + 1 } }
          if k + 1 = s.upd.opsTotal then patchEnds st.data s2 else s2
        else goDead 3 (partOfOp st.data k) { s1 with upd := { s1.upd with running := 0 } }
      else s
    | none => s
  | none => s

/-! ### UPD_ACTIVATE (R438, R443) -/

/-- R428, R442: the PKG of a complete staged package, for an application package one that the inactive bank holds. -/
def activateRules (r : Req) (s : State) : Bool :=
  let pkg := leAt r.args 0 4
  (completePkg 0 pkg s).isSome || ((completePkg 1 pkg s).isSome && inactiveHolds pkg s)

/-- UPD_ACTIVATE: a committed system package restarts the unit; an application package by the PKG of its bank is made
pending, after check 0x08. -/
def rowUpdActivate : ReqRow := { code := 0x0B, legal := [1, 0, 2, 0, 0, 0, 1], stores := [0] }
def updActivate (r : Req) (s : State) : State :=
  let pkg := leAt r.args 0 4
  if updBusy s then respond r.asked 0x20 [] s
  else match completePkg 0 pkg s with
    | some _ => if s.upd.journal = .committed then restartFor r (accept r s) else refuse r 0x21 4 s
    | none => if bankSetOk (!s.upd.active) s then activateBank r s else respond r.asked 0x31 [8] (setRefused pkg s)

/-! ### RESTORE (R441) -/

/-- The fields of a RESTORE. -/
def restoreOffset (r : Req) : Nat := leAt r.args 4 4
def restoreTotal (r : Req) : Nat := leAt r.args 8 4
def restoreData_ (r : Req) : Bytes := r.args.drop 12
def restoreArgs (args : Bytes) : Bool := resv args 1 3

/-- The legality of RESTORE: in DEAD only. -/
def rowRestore (op : Nat) : ReqRow := { code := 0x20, op := some op, legal := [1, 1, 1, 1, 1, 1, 0], stores := [0, 1] }

/-- RESTORE MANIFEST: its bytes in order, from OFFSET 0 anew; the complete manifest is checked. The request that completes a manifest
which fails has no side effect (R377). -/
def restoreManifest (r : Req) (s : State) : State :=
  let have_ := if restoreOffset r = 0 then [] else s.upd.restore.getD []
  let all := have_ ++ restoreData_ r
  if restoreTotal r ≠ 928 ∨ restoreOffset r ≠ have_.length ∨ 928 < all.length then respond r.asked 0x10 [] s
  else
    let s1 := { s with upd := { s.upd with restore := some all, restoreOk := false } }
    if all.length < 928 then answerOk r [] s1
    else match pkgBasic 0 none all s1 with
      | some f => respond r.asked 0x31 (leBytes 1 f.1) s
      | none => answerOk r [] (sj 0xA08 0 (item (manSet all)) { s1 with upd := { s1.upd with restoreOk := true } })

/-- The manifest of the restore, once it has passed. -/
def restoreMan (s : State) : Option Bytes := if s.upd.restoreOk then s.upd.restore else none

/-- RESTORE DATA: written into the system image where the range lies within a part extent. -/
def restoreData (r : Req) (s : State) : State :=
  let a := restoreOffset r
  let n := (restoreData_ r).length
  match restoreMan s with
  | none => respond r.asked 0x10 [] s
  | some m =>
    if (manParts 0 m).any fun e => decide (4096 * (extentOf e).1 ≤ a) && decide (a + n ≤ 4096 * ((extentOf e).1 + (extentOf e).2)) then
      answerOk r [] (flashWrite a (restoreData_ r) s)
    else respond r.asked 0x10 [] s

/-- RESTORE FINISH: 0x31 with code 0x09 and the part, or the commit record and an acceptance start of kind 3. -/
def restoreFinish (r : Req) (s : State) : State :=
  match restoreMan s with
  | none => respond r.asked 0x10 [] s
  | some m =>
    match targetFailure m s with
    | some p => respond r.asked 0x31 (leBytes 1 9 ++ leBytes 1 p) s
    | none =>
      let s1 := accept r s
      let s2 := { s1 with upd := { s1.upd with
        manifest := m, journal := .committed, newSet := BitVec.ofNat 32 (manSet m), restore := none, restoreOk := false
        active := (bankOfSet (manSet m) s).getD s.upd.active } }
      asyncDone 0x20 0 (beginBringUp .restore 0 (sj 0xA09 0 (item (manSet m)) (journalCommit s2)))

/-- UPD_STAGE. -/
def execUpdStage (via : Via) (s : State) : Result := .next (request rowUpdStage stageArgs updStage via s stageRules)
/-- UPD_APPLY. -/
def execUpdApply (via : Via) (s : State) : Result := .next (request rowUpdApply noArgs updApply via s applyRules)
/-- BANK_WRITTEN. -/
def execBankWritten (readbackFails : Option (Fin 3)) (s : State) : Result :=
  .next (whenever (awake s) (bankWritten (readbackFails.map Fin.val)) s)
/-- PATCH_OPERATION. -/
def execPatchOperation (firstOk secondOk : Bool) (s : State) : Result := .next (patchOperation firstOk secondOk s)
/-- UPD_ACTIVATE. -/
def execUpdActivate (via : Via) (s : State) : Result := .next (request rowUpdActivate noArgs updActivate via s activateRules)
/-- RESTORE MANIFEST. -/
def execRestoreManifest (via : Via) (s : State) : Result := .next (request (rowRestore 0) restoreArgs restoreManifest via s)
/-- RESTORE DATA. -/
def execRestoreData (via : Via) (s : State) : Result := .next (request (rowRestore 1) restoreArgs restoreData via s)
/-- RESTORE FINISH. -/
def execRestoreFinish (via : Via) (s : State) : Result := .next (request (rowRestore 2) restoreArgs restoreFinish via s)

end Sys2Proof.Machine
end

