-- ==== Sys2Proof/Machine/Dispatch.lean ====
section
/-! DEFINITION. The effect of each command: one arm per constructor, one direct call of its meaning. -/

namespace Sys2Proof.Machine

def exec (i : Instr) (s : State) : Host.Outcome State Fault Refusal :=
  match i with
  -- registers
  | .registerWrite addr width value => Sys2Proof.Machine.execRegisterWrite addr width value s
  | .rcRead addr width => Sys2Proof.Machine.execRcRead addr width s
  | .loRead addr width => Sys2Proof.Machine.execLoRead addr width s
  -- supply, field connections, wake detectors
  | .supplyValid => Sys2Proof.Machine.execSupplyValid s
  | .supplyWarn mv tick => Sys2Proof.Machine.execSupplyWarn mv tick s
  | .supplyRestored => Sys2Proof.Machine.execSupplyRestored s
  | .shutdown => Sys2Proof.Machine.execShutdown s
  | .pd0Loss => Sys2Proof.Machine.execPd0Loss s
  | .inputFilterTransition e => Sys2Proof.Machine.execInputFilterTransition e s
  | .diOpen n => Sys2Proof.Machine.execDiOpen n s
  | .diOpenCleared n => Sys2Proof.Machine.execDiOpenCleared n s
  | .diGroupLost g reversed => Sys2Proof.Machine.execDiGroupLost g reversed s
  | .diGroupRestored g => Sys2Proof.Machine.execDiGroupRestored g s
  | .vsShort g => Sys2Proof.Machine.execVsShort g s
  | .vsRetry g above15V => Sys2Proof.Machine.execVsRetry g above15V s
  | .doTrip e => Sys2Proof.Machine.execDoTrip e s
  | .doRetry k => Sys2Proof.Machine.execDoRetry k s
  | .doRetryCountReset k => Sys2Proof.Machine.execDoRetryCountReset k s
  | .groupOverload b => Sys2Proof.Machine.execGroupOverload b s
  | .doOpenLoad e => Sys2Proof.Machine.execDoOpenLoad e s
  | .backfeed e => Sys2Proof.Machine.execBackfeed e s
  | .doSupplyLost b reversed => Sys2Proof.Machine.execDoSupplyLost b reversed s
  | .doSupplyRestored b => Sys2Proof.Machine.execDoSupplyRestored b s
  | .doAckWrite value => Sys2Proof.Machine.execDoAckWrite value s
  | .trgAssert e => Sys2Proof.Machine.execTrgAssert e s
  | .polaritySet port => Sys2Proof.Machine.execPolaritySet port s
  | .polarityCleared port => Sys2Proof.Machine.execPolarityCleared port s
  | .di00Wake => Sys2Proof.Machine.execDi00Wake s
  | .lb0Wake => Sys2Proof.Machine.execLb0Wake s
  | .row0Wake => Sys2Proof.Machine.execRow0Wake s
  -- bring-up, states, Safe Service
  | .manifestsVerified => Sys2Proof.Machine.execManifestsVerified s
  | .mouldPressed readbackFails => Sys2Proof.Machine.execMouldPressed readbackFails s
  | .partReady part version testedSet => Sys2Proof.Machine.execPartReady part version testedSet s
  | .partNotReady part => Sys2Proof.Machine.execPartNotReady part s
  | .firstFullLap => Sys2Proof.Machine.execFirstFullLap s
  | .btpLap ai0 ai1 ai2 => Sys2Proof.Machine.execBtpLap ai0 ai1 ai2 s
  | .lbNormalMode => Sys2Proof.Machine.execLbNormalMode s
  | .pxJoinSend => Sys2Proof.Machine.execPxJoinSend s
  | .haltEntered => Sys2Proof.Machine.execHaltEntered s
  | .hibernateEntered => Sys2Proof.Machine.execHibernateEntered s
  -- Queue Pool and re-press
  | .queuePush ring d => Sys2Proof.Machine.execQueuePush ring d s
  | .queuePop ring => Sys2Proof.Machine.execQueuePop ring s
  | .backpressureResume ring => Sys2Proof.Machine.execBackpressureResume ring s
  | .qpCiWrite value => Sys2Proof.Machine.execQpCiWrite value s
  | .regionPressDone readbackOk => Sys2Proof.Machine.execRegionPressDone readbackOk s
  -- the lap
  | .lapStart => Sys2Proof.Machine.execLapStart s
  | .lapCommit => Sys2Proof.Machine.execLapCommit s
  | .lapWatchdog => Sys2Proof.Machine.execLapWatchdog s
  -- bit path
  | .nop => Sys2Proof.Machine.execNop s
  | .ld a index => Sys2Proof.Machine.execLd a index s
  | .ldn a index => Sys2Proof.Machine.execLdn a index s
  | .bitAnd a index => Sys2Proof.Machine.execBitAnd a index s
  | .bitAndn a index => Sys2Proof.Machine.execBitAndn a index s
  | .bitOr a index => Sys2Proof.Machine.execBitOr a index s
  | .bitOrn a index => Sys2Proof.Machine.execBitOrn a index s
  | .bitXor a index => Sys2Proof.Machine.execBitXor a index s
  | .bitXorn a index => Sys2Proof.Machine.execBitXorn a index s
  | .openAnd a index => Sys2Proof.Machine.execOpenAnd a index s
  | .openAndn a index => Sys2Proof.Machine.execOpenAndn a index s
  | .openOr a index => Sys2Proof.Machine.execOpenOr a index s
  | .openOrn a index => Sys2Proof.Machine.execOpenOrn a index s
  | .openXor a index => Sys2Proof.Machine.execOpenXor a index s
  | .openXorn a index => Sys2Proof.Machine.execOpenXorn a index s
  | .close => Sys2Proof.Machine.execClose s
  | .st a index => Sys2Proof.Machine.execSt a index s
  | .bitSet a index => Sys2Proof.Machine.execBitSet a index s
  | .rst a index => Sys2Proof.Machine.execRst a index s
  | .bitNot => Sys2Proof.Machine.execBitNot s
  | .setba => Sys2Proof.Machine.execSetba s
  | .clrba => Sys2Proof.Machine.execClrba s
  | .fp index => Sys2Proof.Machine.execFp index s
  | .fn index => Sys2Proof.Machine.execFn index s
  | .jmp offset => Sys2Proof.Machine.execJmp offset s
  | .jmpc offset => Sys2Proof.Machine.execJmpc offset s
  | .jmpcn offset => Sys2Proof.Machine.execJmpcn offset s
  | .btow => Sys2Proof.Machine.execBtow s
  | .wtob => Sys2Proof.Machine.execWtob s
  | .ldi a index => Sys2Proof.Machine.execLdi a index s
  | .sti a index => Sys2Proof.Machine.execSti a index s
  -- word path
  | .l32 a index => Sys2Proof.Machine.execL32 a index s
  | .l16 a index => Sys2Proof.Machine.execL16 a index s
  | .st32 a index => Sys2Proof.Machine.execSt32 a index s
  | .st16 a index => Sys2Proof.Machine.execSt16 a index s
  | .lx32 a index => Sys2Proof.Machine.execLx32 a index s
  | .lx16 a index => Sys2Proof.Machine.execLx16 a index s
  | .sx32 a index => Sys2Proof.Machine.execSx32 a index s
  | .sx16 a index => Sys2Proof.Machine.execSx16 a index s
  | .li imm => Sys2Proof.Machine.execLi imm s
  | .lih imm => Sys2Proof.Machine.execLih imm s
  | .swap => Sys2Proof.Machine.execSwap s
  | .dup => Sys2Proof.Machine.execDup s
  | .lo32 a index => Sys2Proof.Machine.execLo32 a index s
  | .lo16 a index => Sys2Proof.Machine.execLo16 a index s
  | .lio imm => Sys2Proof.Machine.execLio imm s
  | .add => Sys2Proof.Machine.execAdd s
  | .sub => Sys2Proof.Machine.execSub s
  | .mul => Sys2Proof.Machine.execMul s
  | .div => Sys2Proof.Machine.execDiv s
  | .mod => Sys2Proof.Machine.execMod s
  | .neg => Sys2Proof.Machine.execNeg s
  | .abs => Sys2Proof.Machine.execAbs s
  | .addu => Sys2Proof.Machine.execAddu s
  | .subu => Sys2Proof.Machine.execSubu s
  | .mulu => Sys2Proof.Machine.execMulu s
  | .divu => Sys2Proof.Machine.execDivu s
  | .modu => Sys2Proof.Machine.execModu s
  | .wordAnd => Sys2Proof.Machine.execWordAnd s
  | .wordOr => Sys2Proof.Machine.execWordOr s
  | .wordXor => Sys2Proof.Machine.execWordXor s
  | .inv => Sys2Proof.Machine.execInv s
  | .shl => Sys2Proof.Machine.execShl s
  | .shr => Sys2Proof.Machine.execShr s
  | .sar => Sys2Proof.Machine.execSar s
  | .rol => Sys2Proof.Machine.execRol s
  | .ror => Sys2Proof.Machine.execRor s
  | .eq => Sys2Proof.Machine.execEq s
  | .ne => Sys2Proof.Machine.execNe s
  | .lt => Sys2Proof.Machine.execLt s
  | .le => Sys2Proof.Machine.execLe s
  | .gt => Sys2Proof.Machine.execGt s
  | .ge => Sys2Proof.Machine.execGe s
  | .ltu => Sys2Proof.Machine.execLtu s
  | .leu => Sys2Proof.Machine.execLeu s
  | .gtu => Sys2Proof.Machine.execGtu s
  | .geu => Sys2Proof.Machine.execGeu s
  | .eqr => Sys2Proof.Machine.execEqr s
  | .ner => Sys2Proof.Machine.execNer s
  | .ltr => Sys2Proof.Machine.execLtr s
  | .ler => Sys2Proof.Machine.execLer s
  | .gtr => Sys2Proof.Machine.execGtr s
  | .ger => Sys2Proof.Machine.execGer s
  | .addr => Sys2Proof.Machine.execAddr s
  | .subr => Sys2Proof.Machine.execSubr s
  | .mulr => Sys2Proof.Machine.execMulr s
  | .divr => Sys2Proof.Machine.execDivr s
  | .negr => Sys2Proof.Machine.execNegr s
  | .absr => Sys2Proof.Machine.execAbsr s
  | .sqrtr => Sys2Proof.Machine.execSqrtr s
  | .itor => Sys2Proof.Machine.execItor s
  | .utor => Sys2Proof.Machine.execUtor s
  | .rtoi => Sys2Proof.Machine.execRtoi s
  | .rtoit => Sys2Proof.Machine.execRtoit s
  | .itos => Sys2Proof.Machine.execItos s
  | .clrx => Sys2Proof.Machine.execClrx s
  | .addx => Sys2Proof.Machine.execAddx s
  | .macx => Sys2Proof.Machine.execMacx s
  | .sarx => Sys2Proof.Machine.execSarx s
  | .stx a index => Sys2Proof.Machine.execStx a index s
  | .clrf => Sys2Proof.Machine.execClrf s
  | .ldf => Sys2Proof.Machine.execLdf s
  | .tstf bit => Sys2Proof.Machine.execTstf bit s
  | .call number => Sys2Proof.Machine.execCall number s
  | .calli => Sys2Proof.Machine.execCalli s
  | .callsb number => Sys2Proof.Machine.execCallsb number s
  | .ret => Sys2Proof.Machine.execRet s
  | .retc => Sys2Proof.Machine.execRetc s
  | .lk literal => Sys2Proof.Machine.execLk literal s
  -- system blocks
  | .ton => Sys2Proof.Machine.execTon s
  | .tof => Sys2Proof.Machine.execTof s
  | .tp => Sys2Proof.Machine.execTp s
  | .counter => Sys2Proof.Machine.execCounter s
  | .lapInfo => Sys2Proof.Machine.execLapInfo s
  | .eventInfo => Sys2Proof.Machine.execEventInfo s
  | .raise => Sys2Proof.Machine.execRaise s
  | .rtcRead => Sys2Proof.Machine.execRtcRead s
  | .reflexEn => Sys2Proof.Machine.execReflexEn s
  | .fieldStatus => Sys2Proof.Machine.execFieldStatus s
  | .doAck => Sys2Proof.Machine.execDoAck s
  | .safeStatus => Sys2Proof.Machine.execSafeStatus s
  | .safeAck => Sys2Proof.Machine.execSafeAck s
  | .mwTrigger => Sys2Proof.Machine.execMwTrigger s
  | .lbFilter => Sys2Proof.Machine.execLbFilter s
  | .lbSend => Sys2Proof.Machine.execLbSend s
  | .beaconPlan => Sys2Proof.Machine.execBeaconPlan s
  | .lbSleep => Sys2Proof.Machine.execLbSleep s
  | .lbWake => Sys2Proof.Machine.execLbWake s
  | .pfxLoad => Sys2Proof.Machine.execPfxLoad s
  | .pfxLoadApply => Sys2Proof.Machine.execPfxLoadApply s
  | .mbWriteEn => Sys2Proof.Machine.execMbWriteEn s
  | .encSet => Sys2Proof.Machine.execEncSet s
  | .panelLock => Sys2Proof.Machine.execPanelLock s
  | .reflexStep => Sys2Proof.Machine.execReflexStep s
  -- requests
  | .getState via => Sys2Proof.Machine.execGetState via s
  | .setModeRun via => Sys2Proof.Machine.execSetModeRun via s
  | .setModeHalt via => Sys2Proof.Machine.execSetModeHalt via s
  | .setModeBaton via => Sys2Proof.Machine.execSetModeBaton via s
  | .setModeWithdraw via => Sys2Proof.Machine.execSetModeWithdraw via s
  | .restart via => Sys2Proof.Machine.execRestart via s
  | .loadMould via => Sys2Proof.Machine.execLoadMould via s
  | .repress via => Sys2Proof.Machine.execRepress via s
  | .editLoad via => Sys2Proof.Machine.execEditLoad via s
  | .editTrialStart via => Sys2Proof.Machine.execEditTrialStart via s
  | .editTrialAbort via => Sys2Proof.Machine.execEditTrialAbort via s
  | .editTrialReport via => Sys2Proof.Machine.execEditTrialReport via s
  | .editAdopt via => Sys2Proof.Machine.execEditAdopt via s
  | .editDiscard via => Sys2Proof.Machine.execEditDiscard via s
  | .updStage via => Sys2Proof.Machine.execUpdStage via s
  | .updApply via => Sys2Proof.Machine.execUpdApply via s
  | .bankWritten readbackFails => Sys2Proof.Machine.execBankWritten readbackFails s
  | .patchOperation firstOk secondOk => Sys2Proof.Machine.execPatchOperation firstOk secondOk s
  | .updActivate via => Sys2Proof.Machine.execUpdActivate via s
  | .logRead via => Sys2Proof.Machine.execLogRead via s
  | .rtcSet via => Sys2Proof.Machine.execRtcSet via s
  | .lbRecover via => Sys2Proof.Machine.execLbRecover via s
  | .search via => Sys2Proof.Machine.execSearch via s
  | .tblNext via => Sys2Proof.Machine.execTblNext via s
  | .insert via => Sys2Proof.Machine.execInsert via s
  | .delete via => Sys2Proof.Machine.execDelete via s
  | .flushByPort via => Sys2Proof.Machine.execFlushByPort via s
  | .rehash via => Sys2Proof.Machine.execRehash via s
  | .rehashDone => Sys2Proof.Machine.execRehashDone s
  | .crcJobStart via => Sys2Proof.Machine.execCrcJobStart via s
  | .crcJobResult via => Sys2Proof.Machine.execCrcJobResult via s
  | .keyPolicySet via => Sys2Proof.Machine.execKeyPolicySet via s
  | .keyPolicyClear via => Sys2Proof.Machine.execKeyPolicyClear via s
  | .keyPolicyList via => Sys2Proof.Machine.execKeyPolicyList via s
  | .hibernate via => Sys2Proof.Machine.execHibernate via s
  | .restoreManifest via => Sys2Proof.Machine.execRestoreManifest via s
  | .restoreData via => Sys2Proof.Machine.execRestoreData via s
  | .restoreFinish via => Sys2Proof.Machine.execRestoreFinish via s
  -- hot standby
  | .editPeerTimeout => Sys2Proof.Machine.execEditPeerTimeout s
  | .heartbeatSend => Sys2Proof.Machine.execHeartbeatSend s
  | .syncHelloSend => Sys2Proof.Machine.execSyncHelloSend s
  | .syncHello frame => Sys2Proof.Machine.execSyncHello frame s
  | .heartbeat frame => Sys2Proof.Machine.execHeartbeat frame s
  | .lapstart segments => Sys2Proof.Machine.execLapstart segments s
  | .hash frame => Sys2Proof.Machine.execHash frame s
  | .stateFrame frame => Sys2Proof.Machine.execStateFrame frame s
  | .resync frame => Sys2Proof.Machine.execResync frame s
  | .resyncFailed => Sys2Proof.Machine.execResyncFailed s
  | .withdraw frame => Sys2Proof.Machine.execWithdraw frame s
  | .leave frame => Sys2Proof.Machine.execLeave frame s
  | .yield frame => Sys2Proof.Machine.execYield frame s
  | .editFwd frame => Sys2Proof.Machine.execEditFwd frame s
  | .editResult frame => Sys2Proof.Machine.execEditResult frame s
  | .editCmdTrialStart frame => Sys2Proof.Machine.execEditCmdTrialStart frame s
  | .editCmdTrialAbort frame => Sys2Proof.Machine.execEditCmdTrialAbort frame s
  | .editCmdDiscard frame => Sys2Proof.Machine.execEditCmdDiscard frame s
  | .editCmdReport frame => Sys2Proof.Machine.execEditCmdReport frame s
  | .editReport frame => Sys2Proof.Machine.execEditReport frame s
  | .pairRefused frame => Sys2Proof.Machine.execPairRefused frame s
  | .syncSilence => Sys2Proof.Machine.execSyncSilence s
  | .pxProbeSend => Sys2Proof.Machine.execPxProbeSend s
  | .probeWindowEnd => Sys2Proof.Machine.execProbeWindowEnd s
  | .pairingWindowEnd => Sys2Proof.Machine.execPairingWindowEnd s
  | .switchOffTest m readbackEven readbackOdd => Sys2Proof.Machine.execSwitchOffTest m readbackEven readbackOdd s
  | .spairStuckOn m => Sys2Proof.Machine.execSpairStuckOn m s
  -- Mains Watch and metering
  | .halfCycleEnd ch head mid reps tail => Sys2Proof.Machine.execHalfCycleEnd ch head mid reps tail s
  | .recordTrigger prev cur => Sys2Proof.Machine.execRecordTrigger prev cur s
  | .swTrigWrite value => Sys2Proof.Machine.execSwTrigWrite value s
  | .periodicTrigger => Sys2Proof.Machine.execPeriodicTrigger s
  | .recordStored runs tail => Sys2Proof.Machine.execRecordStored runs tail s
  | .meterTick tick => Sys2Proof.Machine.execMeterTick tick s
  | .meterSnapshot => Sys2Proof.Machine.execMeterSnapshot s
  -- landing buses
  | .lbFrameReceived port frame => Sys2Proof.Machine.execLbFrameReceived port frame s
  | .lbError port kind transmitter delta => Sys2Proof.Machine.execLbError port kind transmitter delta s
  | .fdFrameSeen port => Sys2Proof.Machine.execFdFrameSeen port s
  | .lbRecoveryDone port => Sys2Proof.Machine.execLbRecoveryDone port s
  | .lbTransmit port completed => Sys2Proof.Machine.execLbTransmit port completed s
  | .lImageCut => Sys2Proof.Machine.execLImageCut s
  | .tmCycleBoundary port completed bitError => Sys2Proof.Machine.execTmCycleBoundary port completed bitError s
  | .beaconStatus port node boot data => Sys2Proof.Machine.execBeaconStatus port node boot data s
  | .nodeMissing port node => Sys2Proof.Machine.execNodeMissing port node s
  | .beaconScheduler port => Sys2Proof.Machine.execBeaconScheduler port s
  | .testReport port node data => Sys2Proof.Machine.execTestReport port node data s
  | .testNoReport port node => Sys2Proof.Machine.execTestNoReport port node s
  | .beaconVote port node data => Sys2Proof.Machine.execBeaconVote port node data s
  | .voteTimeout port => Sys2Proof.Machine.execVoteTimeout port s
  | .settleWindowEnd port => Sys2Proof.Machine.execSettleWindowEnd port s
  | .wakeRequest port => Sys2Proof.Machine.execWakeRequest port s
  | .timedWake port => Sys2Proof.Machine.execTimedWake port s
  | .wakeSlotEnd port node => Sys2Proof.Machine.execWakeSlotEnd port node s
  -- backbone
  | .bbFrameReceived port fcsOk frame begunAgo upsets => Sys2Proof.Machine.execBbFrameReceived port fcsOk frame begunAgo upsets s
  | .cpuPortTransmit upsets => Sys2Proof.Machine.execCpuPortTransmit upsets s
  | .macAging => Sys2Proof.Machine.execMacAging s
  | .linkDown port => Sys2Proof.Machine.execLinkDown port s
  | .linkUp port speed full mdix => Sys2Proof.Machine.execLinkUp port speed full mdix s
  | .scrub upsets => Sys2Proof.Machine.execScrub upsets s
  | .topologyChange => Sys2Proof.Machine.execTopologyChange s
  | .ringOpen port => Sys2Proof.Machine.execRingOpen port s
  | .ringClosed => Sys2Proof.Machine.execRingClosed s
  | .dmaStart value => Sys2Proof.Machine.execDmaStart value s
  | .dmaDone => Sys2Proof.Machine.execDmaDone s
  | .tblLockTake agent => Sys2Proof.Machine.execTblLockTake agent s
  | .tblLockRelease agent => Sys2Proof.Machine.execTblLockRelease agent s
  | .lockTimeout => Sys2Proof.Machine.execLockTimeout s
  -- Plant Exchange and Modbus
  | .pxHelloSend => Sys2Proof.Machine.execPxHelloSend s
  | .pxHello src frame => Sys2Proof.Machine.execPxHello src frame s
  | .pxJoin src frame => Sys2Proof.Machine.execPxJoin src frame s
  | .pxImage src frame => Sys2Proof.Machine.execPxImage src frame s
  | .pxRequest src frame => Sys2Proof.Machine.execPxRequest src frame s
  | .pxTime src frame => Sys2Proof.Machine.execPxTime src frame s
  | .pxTimeSend => Sys2Proof.Machine.execPxTimeSend s
  | .pxMemberAbsent member => Sys2Proof.Machine.execPxMemberAbsent member s
  | .pxSourceUnblock ip => Sys2Proof.Machine.execPxSourceUnblock ip s
  | .haltPublish => Sys2Proof.Machine.execHaltPublish s
  | .mbConnect src => Sys2Proof.Machine.execMbConnect src s
  | .mbIdleClose conn => Sys2Proof.Machine.execMbIdleClose conn s
  | .readCoils conn adu => Sys2Proof.Machine.execReadCoils conn adu s
  | .readDiscreteInputs conn adu => Sys2Proof.Machine.execReadDiscreteInputs conn adu s
  | .readHoldingRegisters conn adu => Sys2Proof.Machine.execReadHoldingRegisters conn adu s
  | .readInputRegisters conn adu => Sys2Proof.Machine.execReadInputRegisters conn adu s
  | .writeSingleCoil conn adu => Sys2Proof.Machine.execWriteSingleCoil conn adu s
  | .writeSingleRegister conn adu => Sys2Proof.Machine.execWriteSingleRegister conn adu s
  | .writeMultipleCoils conn adu => Sys2Proof.Machine.execWriteMultipleCoils conn adu s
  | .writeMultipleRegisters conn adu => Sys2Proof.Machine.execWriteMultipleRegisters conn adu s
  | .readWriteRegisters conn adu => Sys2Proof.Machine.execReadWriteRegisters conn adu s
  -- Marshal
  | .domainFault pd kind value => Sys2Proof.Machine.execDomainFault pd kind value s
  | .domainNotUp pd mv => Sys2Proof.Machine.execDomainNotUp pd mv s
  | .tempWarning sensor temp => Sys2Proof.Machine.execTempWarning sensor temp s
  | .tempNormal sensor temp => Sys2Proof.Machine.execTempNormal sensor temp s
  | .tempShutdown sensor temp => Sys2Proof.Machine.execTempShutdown sensor temp s
  | .laneKick lane value => Sys2Proof.Machine.execLaneKick lane value s
  | .laneFault lane kind gapMs => Sys2Proof.Machine.execLaneFault lane kind gapMs s
  | .svcFrameTimeout => Sys2Proof.Machine.execSvcFrameTimeout s
  | .svcIdleClose => Sys2Proof.Machine.execSvcIdleClose s
  | .svcVbusLost => Sys2Proof.Machine.execSvcVbusLost s
  -- records and checks
  | .sjRecordWrite firstOk secondOk => Sys2Proof.Machine.execSjRecordWrite firstOk secondOk s
  | .trRecordWrite => Sys2Proof.Machine.execTrRecordWrite s
  | .optSave => Sys2Proof.Machine.execOptSave s
  | .timeAnchor => Sys2Proof.Machine.execTimeAnchor s
  | .crcFrameJob poly mode start length => Sys2Proof.Machine.execCrcFrameJob poly mode start length s
  | .crcScanStart => Sys2Proof.Machine.execCrcScanStart s
  | .crcScanDone => Sys2Proof.Machine.execCrcScanDone s
  -- clock and panel
  | .rtcSecond => Sys2Proof.Machine.execRtcSecond s
  | .oscillatorStop => Sys2Proof.Machine.execOscillatorStop s
  | .batMeasure mv => Sys2Proof.Machine.execBatMeasure mv s
  | .keyPress key => Sys2Proof.Machine.execKeyPress key s
  | .keyRelease key => Sys2Proof.Machine.execKeyRelease key s
  | .keyStuck key => Sys2Proof.Machine.execKeyStuck key s
  | .encoderStep up => Sys2Proof.Machine.execEncoderStep up s
  | .panelInactivityLock => Sys2Proof.Machine.execPanelInactivityLock s
  | .hurdleTimeout => Sys2Proof.Machine.execHurdleTimeout s
  | .svcHeldKeys => Sys2Proof.Machine.execSvcHeldKeys s
  | .aiOverRange ch positive => Sys2Proof.Machine.execAiOverRange ch positive s
  | .spairStuckCleared m => Sys2Proof.Machine.execSpairStuckCleared m s
  | .syncSignalLost => Sys2Proof.Machine.execSyncSignalLost s
  | .syncSignalLocked => Sys2Proof.Machine.execSyncSignalLocked s
  | .trBlockErased => Sys2Proof.Machine.execTrBlockErased s
  | .trigOutRelease => Sys2Proof.Machine.execTrigOutRelease s
  | .arpMessage src opcode senderIp senderMac targetIp => Sys2Proof.Machine.execArpMessage src opcode senderIp senderMac targetIp s
  | .icmpEcho src v6 ident seq data => Sys2Proof.Machine.execIcmpEcho src v6 ident seq data s

end Sys2Proof.Machine
end

