-- ==== Sys2Proof/Machine/Step.lean ====
section
/-! DEFINITION. One step of the block: the command at the front of the queue, or a microsecond of time on an empty one. -/

namespace Sys2Proof.Machine

/-- One microsecond passes (log 2): wall time; operating time unless the unit is OFF (R379); the RTC's position within its
second (R406); the switch's transmitters (R335); every 1 ms the scan of the keys (R415). -/
def tick (s : State) : State :=
  keyScan <| switchTick { s with
    clk := { s.clk with wallUs := s.clk.wallUs + 1, opUs := if s.power.state = .off then s.clk.opUs else s.clk.opUs + 1 }
    rtc := { s.rtc with secUs := min (s.rtc.secUs + 1) 999999 } }

/-- The command at the front of the queue is carried out with the queue's rest; an empty queue lets time pass. -/
def step (s : State) : Host.Outcome State Fault Refusal :=
  match s.pending with
  | [] => .next (tick s)
  | i :: rest => exec i { s with pending := rest }

/-- The state with the command that a word spells put at the front of the queue; unchanged where it spells none. -/
def State.withFetchWord (s : State) (nbits w : Nat) : State :=
  match decodeTableWord nbits w with
  | some i => { s with pending := i :: s.pending }
  | none => s

end Sys2Proof.Machine
end

