-- ==== Sys2Proof/Safety.lean ====
section
/-! DEFINITION. What counts as a safe run, and the words that the statements share. -/

namespace Sys2Proof.Safety

open Sys2Proof.Machine

/-- A step that ends in a next state. -/
def completes (o : Host.Outcome State Fault Refusal) : Prop := ∃ t, o = Host.Outcome.next t

/-- The name under which a Bolis word is refused whose operand the verifier rejects in this program (R157, R174, R178, R188); none for
every other command. -/
def rejected (s : State) (c : Instr) : Option String :=
  let stop := fun (ok : Bool) (mn : String) => if ok then none else some mn
  let reads := fun (a : Area) (i : BitVec 20) => stop (readable a && decide (i.toNat < areaBits s a))
  let writes := fun (a : Area) (i : BitVec 20) => stop (writable a && decide (i.toNat < areaBits s a))
  let takes := fun (a : Area) (i : BitVec 20) (w : Nat) => stop (readable a && elemFits s a w i.toNat)
  let puts := fun (a : Area) (i : BitVec 20) (w : Nat) => stop (writable a && elemFits s a w i.toNat)
  let jumps := fun (o : BitVec 20) => stop (jumpTarget s (s.bx.pos.offset + 1 + o.toInt))
  match c with
  | .ld a i => reads a i "LD"
  | .ldn a i => reads a i "LDN"
  | .bitAnd a i => reads a i "AND"
  | .bitAndn a i => reads a i "ANDN"
  | .bitOr a i => reads a i "OR"
  | .bitOrn a i => reads a i "ORN"
  | .bitXor a i => reads a i "XOR"
  | .bitXorn a i => reads a i "XORN"
  | .openAnd a i => reads a i "OPEN_AND"
  | .openAndn a i => reads a i "OPEN_ANDN"
  | .openOr a i => reads a i "OPEN_OR"
  | .openOrn a i => reads a i "OPEN_ORN"
  | .openXor a i => reads a i "OPEN_XOR"
  | .openXorn a i => reads a i "OPEN_XORN"
  | .st a i => writes a i "ST"
  | .bitSet a i => writes a i "SET"
  | .rst a i => writes a i "RST"
  | .fp i => stop (decide (i.toNat < 16384)) "FP"
  | .fn i => stop (decide (i.toNat < 16384)) "FN"
  | .jmp o => jumps o "JMP"
  | .jmpc o => jumps o "JMPC"
  | .jmpcn o => jumps o "JMPCN"
  | .ldi a _ => stop (readable a) "LDI"
  | .sti a _ => stop (readable a) "STI"
  | .lx32 a _ => stop (readable a) "LX32"
  | .lx16 a _ => stop (readable a) "LX16"
  | .sx32 a _ => stop (readable a) "SX32"
  | .sx16 a _ => stop (readable a) "SX16"
  | .l32 a i => takes a i 32 "L32"
  | .l16 a i => takes a i 16 "L16"
  | .lo32 a i => takes a i 32 "LO32"
  | .lo16 a i => takes a i 16 "LO16"
  | .st32 a i => puts a i 32 "ST32"
  | .st16 a i => puts a i 16 "ST16"
  | .stx a i => puts a i 32 "STX"
  | .call i => stop (funcExists i.toNat s) "CALL"
  | .callsb n => stop (sysBlockKnown n.toNat) "CALLSB"
  | _ => none

/-- The invariant of the stores: data memory, MRAM and flash keep their canonical form (log 4). -/
def storesWf (s : State) : Prop := Memory.wf s = true

/-- Byte `a` of data memory lies in a descriptor slot of one of the rings `ns` (R114, R115). -/
def inSlots (s : State) (ns : List Nat) (a : Nat) : Prop :=
  ∃ n ∈ ns, 0x400000 + 16 * (ringGet s n).base ≤ a ∧
    a < 0x400000 + 16 * ((ringGet s n).base + ringDepth (ringGet s n))

/-- The slots of ring `n` lie in the Queue Pool and apart from those of the rings 2 and 3, to which records are pushed (R22, R114). -/
def ringApart (n : Nat) (s : State) : Prop :=
  (ringGet s n).base + ringDepth (ringGet s n) ≤ 262144 ∧ ∀ a, inSlots s [n] a → ¬ inSlots s [2, 3] a

/-- The state `t` is `u` but for what journal records, trace records and pushes to the rings `ns` leave: their
descriptors, the indices, counts and flags of those rings, the records that wait to be written, the counters of record
repetition and of trace drops, and the number of free values drawn. Every other part of the state, every other ring and
every byte of data memory outside the slots of those rings is as in `u`. -/
structure Booked (ns : List Nat) (u t : State) : Prop where
  frame : t = { u with queues := t.queues, log := t.log, data := t.data, clk := { u.clk with freeCount := t.clk.freeCount } }
  logKept : t.log = { u.log with
    sjQueue := t.log.sjQueue, trQueue := t.log.trQueue, repeats := t.log.repeats, trDrop := t.log.trDrop,
    trDropMissed := t.log.trDropMissed, trDropMs := t.log.trDropMs, trDropWritten := t.log.trDropWritten }
  sjKept : u.log.sjQueue <+: t.log.sjQueue
  trKept : u.log.trQueue <+: t.log.trQueue
  poolKept : t.queues = { u.queues with rings := t.queues.rings }
  layout : ∀ n, (ringGet t n).base = (ringGet u n).base ∧ (ringGet t n).log2 = (ringGet u n).log2 ∧
    (ringGet t n).policy = (ringGet u n).policy ∧ (ringGet t n).producer = (ringGet u n).producer ∧
    (ringGet t n).consumer = (ringGet u n).consumer ∧ (ringGet t n).hwm = (ringGet u n).hwm
  ringsKept : ∀ n, n ∉ ns → ringGet t n = ringGet u n
  bytesKept : ∀ a, ¬ inSlots u ns a → memGet 0 t.data a = memGet 0 u.data a

/-- A record of code `code` with severity `sev` and payload items `items` joins the journal records that wait to be
written, with the operating time and the power-cycle count of now (R382). -/
def journals (code sev : Nat) (items : Bytes) (s t : State) : Prop :=
  ∃ r ∈ t.log.sjQueue.drop s.log.sjQueue.length, r.code = BitVec.ofNat 16 code ∧ r.severity = BitVec.ofNat 8 sev ∧
    r.items = items ∧ r.optMs = opMs s ∧ r.cycles = s.power.pwrCycles

/-- SAFE SERVICE has just been entered with one cause (R81, R82): no role, the cause alone in CAUSES and in FIRST, no lap,
PD2, PD3, PD4, PD7 and PD8 off. -/
def inSafeService (cause : Nat) (t : State) : Prop :=
  t.power.state = .safeService ∧ t.power.role = .none ∧ t.power.firstCause = BitVec.ofNat 8 cause ∧
    (∀ i : Fin 10, t.power.causes.getLsbD i = decide (i.val + 1 = cause)) ∧ t.lap.running = .idle ∧
    ∀ d ∈ [2, 3, 4, 7, 8], t.power.pdOn.getLsbD d = false

/-- A bit-path instruction ends with the Bit Unit at `b` (R153): it is counted, the sticky flags seen so far stand, and the
position moves on by one word; a block that has no further word ends (R170). -/
def bitDone (b : Bu) (s : State) : State :=
  settle 33 { s with
    bu := { b with instr := s.bu.instr + 1, curBits := satInc s.bu.curBits }
    bx := { s.bx with seen := s.bx.seen ||| (flagWord s.bx >>> 4).setWidth 4, pos := { s.bx.pos with offset := s.bx.pos.offset + 1 } } }

/-- A word-path instruction of `n` words ends with the word path at `b` (R170, R177): it is counted, the sticky flags are
noted, and the position moves on; a block that has no further word ends. -/
def wordDone (n : Nat) (b : Bx) (s : State) : State :=
  settle 33 { s with bx := { b with
    words := s.bx.words + 1, curWords := satInc s.bx.curWords, seen := s.bx.seen ||| (flagWord b >>> 4).setWidth 4
    pos := { s.bx.pos with offset := s.bx.pos.offset + n } } }

/-- A result in ACC1 with C and V: Z and N describe it, VS keeps a V (R177). -/
def result (val : Word) (c v : Bool) (s : State) : State :=
  wordDone 1 { s.bx with acc1 := val, z := val == 0, n := val.getLsbD 31, c := c, v := v, vs := s.bx.vs || v } s

/-- A request reaches the Marshal and no store fails: to whom it is answered, its body, and the state in which it is served. Over
SVC it comes as a frame with its CRC (R372), served at once where no request waits (R374); PX, the mailbox and SVC behind them have
put it at the head of the pending requests (R354). While a report of the pacer is awaited for a request before, none is served. -/
def arrives (via : Via) (s : State) : Option (Asked × Bytes × State) :=
  match via with
  | .svc f none =>
    if awake s ∧ s.mgt.svcOpen ∧ s.mgt.svcBuf = [] ∧ s.px.pending = [] ∧ !reportAwaited s then
      match svcScan f with
      | (0, some b, rest) => some (askedOf 0 none b, b, svcHeard (svcTaken 0 rest s))
      | _ => none
    else none
  | .passed none =>
    match s.px.pending with
    | [] => none
    | q :: rest => if awake s ∧ !reportAwaited s then some (askedWaiting q, q.body, takePassed q rest s) else none
  | .svc _ (some _) => none
  | .passed (some _) => none

/-- A request with a CODE and arguments reaches the Marshal while no change of state waits; its length field names its
arguments (R370). -/
structure Asks (via : Via) (code : Nat) (args : Bytes) (a : Asked) (s u : State) : Prop where
  came : arrives via s = some (a, a.code :: 0 :: (leBytes 2 args.length ++ leBytes 4 a.tag.toNat ++ args), u)
  isCode : a.code = BitVec.ofNat 8 code
  idle : s.power.transit = .none

end Sys2Proof.Safety
end

