-- ==== Sys2Proof/Certificates/Slice0/Obligations.lean ====
section
/-! DEFINITION. The statements about the unit, by chapter of the manual. `Booked`, `journals` and the other shared words stand
in Safety. -/

open Sys2Proof Sys2Proof.Machine

/-! ### The queue and the whole machine -/

/-- A step carries out the command at the front of the queue with the queue's rest. -/
def Obligations.StepRunsTheFrontCommand : Prop :=
  ∀ (c : Instr) (rest : List Instr) (s : State), s.pending = c :: rest → step s = exec c { s with pending := rest }

/-- On an empty queue a microsecond passes: wall time always, operating time unless the unit is OFF (R379), the RTC's position
within its second, which RTC_SECOND ends (R406), and, with PD6 on, the switch's transmitters and the MRP engine's frames (R333,
R335), a manager's test and topology frames, a client's link changes, and the entries of a DMA job, one in 4 NET clocks of 8 ns, but
for those that it writes into a prefix table (R324, R331). The model's choice (log 2). Every 1 ms while the Marshal works the keys are
scanned (R415): the raw state of a key differs from its debounced one for fewer than PRESS_DEB or REL_DEB consecutive scans, and which
of the two it is, is free; that is the model's choice too (log 100). -/
def Obligations.AnEmptyQueueLetsAMicrosecondPass : Prop :=
  ∀ s : State, s.pending = [] → ∃ t, step s = .next t ∧
    t = { s with
      clk := { s.clk with wallUs := s.clk.wallUs + 1, opUs := t.clk.opUs, freeCount := t.clk.freeCount }
      rtc := { s.rtc with secUs := t.rtc.secUs }, pan := { s.pan with raw := t.pan.raw, bounce := t.pan.bounce }
      sw := { s.sw with ports := t.sw.ports, mrpSeq := t.sw.mrpSeq, mrpTestUs := t.sw.mrpTestUs, topoLeft := t.sw.topoLeft
                        topoUs := t.sw.topoUs, lnk := t.sw.lnk }
      out := { s.out with eth := t.out.eth }, tbl := t.tbl, data := t.data, img := t.img, bx := t.bx } ∧
    (s.power.pdOn.getLsbD 6 = false ∨ s.tbl.dmaJob = none ∨ (∃ j, s.tbl.dmaJob = some j ∧ j.table = true ∧ j.dir = true) →
      t.tbl = s.tbl ∧ t.data = s.data ∧ t.img = s.img ∧ t.bx = s.bx) ∧
    (∀ j, s.power.pdOn.getLsbD 6 = true → s.tbl.dmaJob = some j → j.table = false ∨ j.dir = false →
      let n := max j.done (min j.count (125 * (s.clk.wallUs + 1 - j.atUs) / 4))
      t.tbl.dmaJob = some { j with done := n } ∧ (n = j.done → t.tbl = s.tbl ∧ t.data = s.data ∧ t.img = s.img ∧ t.bx = s.bx) ∧
      (j.dir = false → t.tbl = { s.tbl with dmaJob := t.tbl.dmaJob }) ∧ (j.dir = true → t.data = s.data ∧ t.img = s.img ∧ t.bx = s.bx)) ∧
    (s.power.state = .off → t.clk.opUs = s.clk.opUs) ∧ (s.power.state ≠ .off → t.clk.opUs = s.clk.opUs + 1) ∧
    (s.rtc.secUs < 999999 → t.rtc.secUs = s.rtc.secUs + 1) ∧
    (s.power.pdOn.getLsbD 6 = false → t.sw = s.sw ∧ t.out = s.out) ∧
    (s.sw.cfg.mrpRole ≠ 2 → t.sw.mrpTestUs = s.sw.mrpTestUs ∧ t.sw.topoLeft = s.sw.topoLeft ∧ t.sw.topoUs = s.sw.topoUs ∧
      (s.sw.lnk = none → t.sw.mrpSeq = s.sw.mrpSeq ∧ t.sw.lnk = none)) ∧ s.out.eth <:+ t.out.eth ∧
    (awake s = false ∨ (s.clk.opUs + 1) % 1000 ≠ 0 → t.pan = s.pan ∧ t.clk.freeCount = s.clk.freeCount) ∧
    (awake s = true → (s.clk.opUs + 1) % 1000 = 0 → ∀ k : Fin 21,
      (t.pan.raw.getLsbD k = s.pan.pressed.getLsbD k → nth 0 t.pan.bounce k = 0) ∧
      (t.pan.raw.getLsbD k ≠ s.pan.pressed.getLsbD k → nth 0 t.pan.bounce k = nth 0 s.pan.bounce k + 1 ∧
        nth 0 t.pan.bounce k < if s.pan.pressed.getLsbD k then (keyTimes s).2.1 else (keyTimes s).1))

/-- R22, R23: every step keeps data memory, MRAM and flash in canonical form, so every byte of each store has one value and
no byte outside a store is ever held. -/
def Obligations.EveryStepKeepsTheStoresCanonical : Prop :=
  ∀ s t : State, Safety.storesWf s → step s = .next t → Safety.storesWf t

/-- After reset the stores are canonical: nothing is listed. -/
def Obligations.ResetHasCanonicalStores : Prop := Safety.storesWf State.reset

/-- No command ends in a fault, and the only refusal is that of a Bolis word whose operand the verifier rejects, which is refused while a
program executes (R157, R174, R178, R188): every abnormal end that the manual describes is a next state. A command leaves the queue of
waiting commands as it is. -/
def Obligations.CommandsStopOnlyAtRejectedWords : Prop :=
  ∀ (c : Instr) (s : State),
    (executing s = false ∨ Safety.rejected s c = none → ∃ t, exec c s = .next t ∧ t.pending = s.pending) ∧
    (∀ m, executing s = true → Safety.rejected s c = some m → exec c s = .refused (.verifierRejects m))

/-- What reset leaves, by the Reset columns and R122: the system rings with their depths and policies and nothing in them,
the reflex enables all 1, DI filters of 30, the alarm's wildcards, OSF set, and 16,384 as QP.TOTAL.END. That the unit is OFF then,
where the Reset column of MGT.STATE gives 2, and that no command waits, is the model's choice (log 1). -/
def Obligations.ResetLeavesTheStatedValues : Prop :=
  (∀ n < 64, ringFill (ringGet State.reset n) = 0) ∧
  ringDepth (ringGet State.reset 2) = 256 ∧ (ringGet State.reset 2).policy = 1 ∧
  ringDepth (ringGet State.reset 3) = 1024 ∧ (ringGet State.reset 3).policy = 0 ∧
  ringDepth (ringGet State.reset 14) = 4096 ∧ (ringGet State.reset 14).policy = 2 ∧
  (∀ e < 32, ringDepth (ringGet State.reset (16 + e)) = 64) ∧ ringDepth (ringGet State.reset 64) = 0 ∧
  State.reset.rfx.en0 = 0xFFFFFFFF ∧ State.reset.rfx.en1 = 0xFFFFFFFF ∧
  (∀ n : Fin 32, rdDio (0x100 + 4 * n) State.reset = 30) ∧
  State.reset.rtc.osf = true ∧ rdRtc 0x04 State.reset = 0x07D00101 ∧ rdRtc 0x10 State.reset = 0xFFFFFFFF ∧
  rdRtc 0x14 State.reset = 0xFFFFFFFF ∧ rdRtc 0x0C State.reset = 1 ∧
  rdQp 0x20 State.reset = 16384 ∧ State.reset.power.state = .off ∧ State.reset.pending = []

/-! ### Register accesses (R3 to R10, R16, R20, R448, R449) -/

/-- R3: a narrower or unaligned access is not performed: a read answers 0 and a write is discarded, with no effect on any
register. -/
def Obligations.NarrowOrUnalignedAccessIsNotPerformed : Prop :=
  ∀ (addr : Word) (width : Nat) (v : Word) (s : State), awake s = true → (width ≠ 4 ∨ addr.toNat % 4 ≠ 0) →
    exec (.registerWrite addr width v) s = .next s ∧
    exec (.rcRead addr width) s = .next { s with out := { s.out with readData := 0 } } ∧
    exec (.loRead addr width) s = .next { s with out := { s.out with readData := 0 } }

/-- R16: an access into a block whose power domain is off is not performed, and it is counted with its block: the DIO block
in PD5, a landing-bus block in PD7, the table block in PD6, the BU block (0x4011) in PD4; and the LAP block (0x4010) in PD2, which is
the model's choice (log 61). R449: an access inside 0x4000_0000 to 0x4FFF_FFFF that lies in no
block is not performed and not counted. -/
def Obligations.AccessOutsideTheReachableBlocks : Prop :=
    (∀ (o : Fin 16384) (v : Word) (s : State), awake s = true →
       ∀ p ∈ [((0x4015 : Nat), (5 : Nat)), (0x4030, 7), (0x4031, 7), (0x4032, 7), (0x4033, 7), (0x4041, 6), (0x4011, 4), (0x4010, 2)],
         s.power.pdOn.getLsbD p.2 = false →
         let a := BitVec.ofNat 32 (p.1 * 65536 + 4 * o.val)
         let u := { s with sens := { s.sens with
           xdomCount := if s.sens.xdomCount = 0xFFFF then 0xFFFF else s.sens.xdomCount + 1, xdomBlock := BitVec.ofNat 8 p.1 } }
         exec (.registerWrite a 4 v) s = .next u ∧ exec (.rcRead a 4) s = .next { u with out := { u.out with readData := 0 } } ∧
         exec (.loRead a 4) s = .next { u with out := { u.out with readData := 0 } }) ∧
    (∀ (addr v : Word) (s : State), awake s = true → addr.toNat % 4 = 0 →
       0x4000 ≤ addr.toNat / 65536 → addr.toNat / 65536 ≤ 0x4FFF →
       addr.toNat / 65536 ∉ [0x4000, 0x4001, 0x4002, 0x4003, 0x4004, 0x4005, 0x4006, 0x4010, 0x4011, 0x4012, 0x4013, 0x4014,
         0x4015, 0x4020, 0x4021, 0x4030, 0x4031, 0x4032, 0x4033, 0x4040, 0x4041, 0x4042, 0x4050] →
       exec (.registerWrite addr 4 v) s = .next s ∧
       exec (.rcRead addr 4) s = .next { s with out := { s.out with readData := 0 } } ∧
       exec (.loRead addr 4) s = .next { s with out := { s.out with readData := 0 } })

/-- R6, R10: an RW field takes the value, a W1C bit clears where a 1 is written and stays where a 0 is, and an RWH field
takes the value in HALT only, where otherwise nothing changes: TBL.ARG0 and QP.RING_SEL, DIO.DI_OPEN_LATCH, and DIO.DO_CFGn.
R8, R20: reading an RC field answers it and clears it; reading the LO half of a 64-bit counter answers bits 31:0 and latches
bits 63:32 into HI. The trace sequence, the refusal counts, and a landing-bus receive counter. -/
def Obligations.RegisterAccessesFollowTheirAccessCodes : Prop :=
    (∀ (v : Word) (s : State), awake s = true →
       (s.power.pdOn.getLsbD 1 = true →
         exec (.registerWrite 0x40500000 4 v) s = .next { s with queues := { s.queues with ringSel := v.setWidth 10 } }) ∧
       (s.power.pdOn.getLsbD 6 = true →
         exec (.registerWrite 0x40410004 4 v) s = .next { s with tbl := { s.tbl with args := s.tbl.args.set 0 v } }) ∧
       (s.power.pdOn.getLsbD 5 = true →
         (∃ t, exec (.registerWrite 0x4015000C 4 v) s = .next t ∧
           t = { s with dio := { s.dio with openLatch := t.dio.openLatch } } ∧
           ∀ i < 32, t.dio.openLatch.getLsbD i = (s.dio.openLatch.getLsbD i && !v.getLsbD i)) ∧
         ∀ k : Fin 16,
           (s.power.state ≠ .halt → exec (.registerWrite (BitVec.ofNat 32 (0x40150180 + 4 * k)) 4 v) s = .next s) ∧
           (s.power.state = .halt → ∃ t, exec (.registerWrite (BitVec.ofNat 32 (0x40150180 + 4 * k)) 4 v) s = .next t ∧
             t = { s with dioc := { s.dioc with doPolicy := t.dioc.doPolicy, doShared := t.dioc.doShared } } ∧
             ∀ i : Fin 16, t.dioc.doPolicy.getLsbD i = (if i = k then v.getLsbD 0 else s.dioc.doPolicy.getLsbD i) ∧
               t.dioc.doShared.getLsbD i = (if i = k then v.getLsbD 1 else s.dioc.doShared.getLsbD i)))) ∧
    (∀ s : State, awake s = true → s.power.pdOn.getLsbD 1 = true →
       exec (.rcRead 0x40000014 4) s = .next { s with
         power := { s.power with refusals := 0, busyPx := 0 }
         out := { s.out with readData := s.power.busyPx ++ s.power.refusals } } ∧
       exec (.loRead 0x40020008 4) s = .next { s with
         log := { s.log with trHi := s.log.trSeq.extractLsb' 32 32 }
         out := { s.out with readData := s.log.trSeq.setWidth 32 } } ∧
       (s.power.pdOn.getLsbD 7 = true →
         exec (.loRead 0x40310020 4) s = .next { s with
           lb := { s.lb with p1 := { s.lb.p1 with rxHi := s.lb.p1.rx.extractLsb' 32 32 } }
           out := { s.out with readData := s.lb.p1.rx.setWidth 32 } }))

/-! ### Field inputs and outputs, trigger lines (R33 to R54) -/

/-- R32, R33: further samples of an input show in the raw value; the filtered value takes the raw value once that has
differed from it in as many consecutive samples as the filter time holds, a sample that agrees begins the count anew, and a
shorter pulse shows in the raw value alone. Nothing else changes but the trigger that a Mains Watch may take from the edge.
Needs PD5, which holds the I/O sequencer. R36, R37, R39: a monitored input of a healthy group is flagged OPEN, reads 0 and is
recorded; an input without monitoring is never flagged; the flag clears when DI_OPEN_CLEARED comes. -/
def Obligations.FieldInputsFilterAndFlagOpen : Prop :=
    (∀ (e : RawRun) (s : State), s.power.pdOn.getLsbD 5 = true → 0 < e.samples →
       ∃ t, exec (.inputFilterTransition e) s = .next t ∧
         t = { s with
           dio := { s.dio with raw := t.dio.raw, filt := t.dio.filt, rawRun := t.dio.rawRun }
           acq := { s.acq with raised := t.acq.raised, raisedDi := t.acq.raisedDi } } ∧
         (let run := sget 0 s.dio.rawRun e.n + e.samples
          let takes := decide (e.level ≠ s.dio.filt.getLsbD e.n) && decide (filterSamples s e.n ≤ run)
          (∀ i : Fin 32, t.dio.raw.getLsbD i = (if i = e.n then e.level else s.dio.raw.getLsbD i) ∧
            t.dio.filt.getLsbD i = (if i = e.n ∧ takes = true then e.level else s.dio.filt.getLsbD i)) ∧
          t.dio.rawRun = sput 0 s.dio.rawRun e.n (if e.level = s.dio.filt.getLsbD e.n ∨ takes = true then 0 else run)) ∧
         (∀ i : Fin 6, i ≠ 0 → t.acq.raised.getLsbD i = s.acq.raised.getLsbD i) ∧
         (acqCfg s = none → t.acq = s.acq)) ∧
    (∀ (n : Fin 32) (s : State), s.power.pdOn.getLsbD 5 = true →
       (s.dioc.diLm.getLsbD n = false → exec (.diOpen n) s = .next s) ∧
       (s.dioc.diLm.getLsbD n = true → (diGroup s (n / 8)).glost = false → (diGroup s (n / 8)).sscNow = false →
         s.dio.opens.getLsbD n = false →
         ∃ t, exec (.diOpen n) s = .next t ∧
           Safety.Booked [2, 3, 21] { s with dio := { s.dio with opens := t.dio.opens, openLatch := t.dio.openLatch } } t ∧
           (∀ i : Fin 32, t.dio.opens.getLsbD i = (decide (i = n) || s.dio.opens.getLsbD i) ∧
             t.dio.openLatch.getLsbD i = (decide (i = n) || s.dio.openLatch.getLsbD i)) ∧
           (diFiltered t).getLsbD n = false ∧
           (repeatFind s 0x510 n = none → Safety.journals 0x510 2 (item n) s t)) ∧
       (s.dio.opens.getLsbD n = true →
         ∃ t, exec (.diOpenCleared n) s = .next t ∧
           Safety.Booked [2, 3, 21] { s with dio := { s.dio with opens := t.dio.opens } } t ∧
           (∀ i : Fin 32, t.dio.opens.getLsbD i = (decide (i ≠ n) && s.dio.opens.getLsbD i)) ∧
           (repeatFind s 0x511 n = none → Safety.journals 0x511 0 (item n) s t)))

/-- R37: a group that loses its supply sets GLOST, and REV where it is reversed; all its inputs read 0 and its OPEN flags are
suppressed. When the supply returns both flags clear. Other groups keep theirs. R39: a folded-back sensor supply sets SSC and
suppresses the group's OPEN flags; the retry resumes above 15 V only, and the latched SSC stays until software clears it. -/
def Obligations.InputGroupsAndSensorSupplies : Prop :=
    (∀ (g : Fin 4) (rev : Bool) (s : State), s.power.pdOn.getLsbD 5 = true →
       (∃ t, exec (.diGroupLost g rev) s = .next t ∧
         Safety.Booked [2, 3, 21] { s with dio := { s.dio with g0 := t.dio.g0, g1 := t.dio.g1, g2 := t.dio.g2, g3 := t.dio.g3, opens := t.dio.opens } } t ∧
         diGroup t g = { diGroup s g with glost := true, rev := rev } ∧
         (∀ h : Fin 4, h ≠ g → diGroup t h = diGroup s h) ∧
         (∀ i : Fin 32, i.val / 8 = g → (diFiltered t).getLsbD i = false ∧ t.dio.opens.getLsbD i = false) ∧
         (∀ i : Fin 32, i.val / 8 ≠ g → t.dio.opens.getLsbD i = s.dio.opens.getLsbD i)) ∧
       ((diGroup s g).glost = true → ∃ t, exec (.diGroupRestored g) s = .next t ∧
         Safety.Booked [2, 3, 21] { s with dio := { s.dio with g0 := t.dio.g0, g1 := t.dio.g1, g2 := t.dio.g2, g3 := t.dio.g3 } } t ∧
         diGroup t g = { diGroup s g with glost := false, rev := false } ∧
         (∀ h : Fin 4, h ≠ g → diGroup t h = diGroup s h))) ∧
    (∀ (g : Fin 4) (s : State), s.power.pdOn.getLsbD 5 = true →
       (∃ t, exec (.vsShort g) s = .next t ∧
         Safety.Booked [2, 3, 21] { s with dio := { s.dio with g0 := t.dio.g0, g1 := t.dio.g1, g2 := t.dio.g2, g3 := t.dio.g3, opens := t.dio.opens } } t ∧
         diGroup t g = { diGroup s g with sscNow := true, ssc := true } ∧
         (∀ h : Fin 4, h ≠ g → diGroup t h = diGroup s h) ∧
         (∀ i : Fin 32, t.dio.opens.getLsbD i = (decide (i.val / 8 ≠ g) && s.dio.opens.getLsbD i))) ∧
       ((diGroup s g).sscNow = true →
         (∃ t, exec (.vsRetry g true) s = .next t ∧
           t = { s with dio := { s.dio with g0 := t.dio.g0, g1 := t.dio.g1, g2 := t.dio.g2, g3 := t.dio.g3 } } ∧
           diGroup t g = { diGroup s g with sscNow := false } ∧ ∀ h : Fin 4, h ≠ g → diGroup t h = diGroup s h) ∧
         (∃ t, exec (.vsRetry g false) s = .next t ∧
           Safety.Booked [2, 3, 21] { s with dio := { s.dio with g0 := t.dio.g0, g1 := t.dio.g1, g2 := t.dio.g2, g3 := t.dio.g3 } } t ∧
           diGroup t g = { diGroup s g with ssc := true } ∧ ∀ h : Fin 4, h ≠ g → diGroup t h = diGroup s h)))

/-- R43: an output that trips switches off and stays off, its TRIPPED bit sets, and its retry count rises where a retry has
failed. Under LATCH it is latched at once; under AUTO with the tenth failed retry and not before. R44: an acknowledge in the
same clock does not undo the trip: the count that it cleared stands (`ackPrev`). When a retry counts as failed, and what an
acknowledge does to an output that is not latched, is the model's reading (log 66). Nothing else but the records changes. R43:
an AUTO output that tripped, is not latched and is commanded on is tried again; the 10 s on without a trip set its retry count
to 0. R41: an overloaded group sets GOL, and all its eight outputs are off and latched whatever their policy; the other group's
latches stand. R43: a write to DIO.DO_ACK, 1 acknowledges the output: the latch is released, the retry count cleared, and an
output that was latched waits for the next commit. An output whose bit is 0 keeps its latch. -/
def Obligations.OutputsTripRetryLatchAndAreAcknowledged : Prop :=
    (∀ (e : Trip) (s : State), s.power.pdOn.getLsbD 5 = true → s.dio.on.getLsbD e.k = true →
       let u := if e.sameAck = true ∧ retryOf s e.k = {} then setRetry e.k (sget {} s.dio.ackPrev e.k) s else s
       let r := retryOf u e.k
       let n := if r.retrying then r.retries + 1 else r.retries
       ∃ t, exec (.doTrip e) s = .next t ∧
         Safety.Booked [2, 3, 21] { s with dio := { s.dio with
           tripped := t.dio.tripped, tripOff := t.dio.tripOff, retry := t.dio.retry, latched := t.dio.latched, on := t.dio.on,
           openLoad := t.dio.openLoad, backfeed := t.dio.backfeed, readback := t.dio.readback } } t ∧
         t.dio.on.getLsbD e.k = false ∧ t.dio.retry = sput {} u.dio.retry e.k { retries := n, retrying := false } ∧
         ∀ i : Fin 16, t.dio.tripped.getLsbD i = (decide (i = e.k) || s.dio.tripped.getLsbD i) ∧
           t.dio.tripOff.getLsbD i = (decide (i = e.k) || s.dio.tripOff.getLsbD i) ∧
           t.dio.latched.getLsbD i =
             ((decide (i = e.k) && (s.dioc.doPolicy.getLsbD e.k || decide (10 ≤ n.toNat))) || s.dio.latched.getLsbD i)) ∧
    (∀ (k : Fin 16) (s : State), s.power.pdOn.getLsbD 5 = true →
       (s.dio.tripOff.getLsbD k = true → s.dio.latched.getLsbD k = false → s.dioc.doPolicy.getLsbD k = false →
         pairedCommand s k = true →
         ∃ t, exec (.doRetry k) s = .next t ∧
           Safety.Booked [2, 3, 21] { s with dio := { s.dio with
             tripOff := t.dio.tripOff, retry := sput {} s.dio.retry k { retryOf s k with retrying := true }, on := t.dio.on,
             openLoad := t.dio.openLoad, backfeed := t.dio.backfeed, readback := t.dio.readback } } t ∧
           (∀ i : Fin 16, t.dio.tripOff.getLsbD i = (decide (i ≠ k) && s.dio.tripOff.getLsbD i)) ∧
           t.dio.on.getLsbD k = outputOn t k) ∧
       (s.dio.on.getLsbD k = true →
         exec (.doRetryCountReset k) s = .next { s with dio := { s.dio with retry := sput {} s.dio.retry k {} } }) ∧
       (s.dio.on.getLsbD k = true → s.dioc.doPolicy.getLsbD k = false → (retryOf s k).retries.toNat = 9 →
         (retryOf s k).retrying = true → ∃ t, exec (.doTrip { k := k }) s = .next t ∧ t.dio.latched.getLsbD k = true)) ∧
    (∀ (b : Bool) (s : State), s.power.pdOn.getLsbD 5 = true →
       ∃ t, exec (.groupOverload b) s = .next t ∧
         Safety.Booked [2, 3, 21] { s with
           dio := { s.dio with latched := t.dio.latched, on := t.dio.on, openLoad := t.dio.openLoad, backfeed := t.dio.backfeed
                               readback := t.dio.readback }
           dioc := { s.dioc with golA := !b || s.dioc.golA, golB := b || s.dioc.golB } } t ∧
         ∀ i : Fin 16, t.dio.latched.getLsbD i = (decide (i.val / 8 = b2n b) || s.dio.latched.getLsbD i) ∧
           (i.val / 8 = b2n b → t.dio.on.getLsbD i = false)) ∧
    (∀ (v : Word) (s : State), awake s = true → s.power.pdOn.getLsbD 5 = true →
       (v.setWidth 16 = (0 : BitVec 16) → exec (.doAckWrite v) s = .next s) ∧
       (v.setWidth 16 ≠ (0 : BitVec 16) → ∃ t, exec (.doAckWrite v) s = .next t ∧
         Safety.Booked [2, 3, 21] { s with dio := { s.dio with
           latched := t.dio.latched, tripOff := t.dio.tripOff, waitCommit := t.dio.waitCommit, on := t.dio.on
           openLoad := t.dio.openLoad, backfeed := t.dio.backfeed, readback := t.dio.readback
           ackPrev := s.dio.retry.filter fun x => v.getLsbD x.1 && decide (x.1 < 16)
           retry := (List.range 16).foldl (fun m k => if v.getLsbD k then sput {} m k {} else m) s.dio.retry } } t ∧
         ∀ i : Fin 16, t.dio.latched.getLsbD i = (s.dio.latched.getLsbD i && !v.getLsbD i) ∧
           t.dio.tripOff.getLsbD i = (s.dio.tripOff.getLsbD i && !(v.getLsbD i && s.dio.latched.getLsbD i)) ∧
           t.dio.waitCommit.getLsbD i = (s.dio.waitCommit.getLsbD i || (v.getLsbD i && s.dio.latched.getLsbD i)) ∧
           (t.dio.waitCommit.getLsbD i = true → t.dio.on.getLsbD i = false)))

/-- R45, R46, R47: open load is flagged on an output with too light a load and not on one with a load, unless its detection
is off (a SHARED output that is on, an output back-fed while off); an output that is off sets BACKFEED while its terminal
stands above 8 V, and its off-state open-load detection is then suppressed. R49: a terminal well above 12 V reads 1 and one
well below reads 0; within the tolerance the bit is a free value (log 3). R48: a group whose L+ is absent is off and flags
LPLUS_LOST, and REV where the supply is reversed; when the supply returns, the outputs stay off until the next commit. R53,
R54, R256, R257: a trigger line that another instrument asserts reads as asserted; where it was released before, event type 14
goes to Q0030 and a Mains Watch trigger may come of it; a line that it releases stays asserted while the unit drives it. The
trigger output is released after its time, and a line that another instrument asserts stays asserted. -/
def Obligations.OutputFlagsSupplyAndTriggerLines : Prop :=
    (∀ (e : LoadCheck) (s : State), s.power.pdOn.getLsbD 5 = true →
       (s.dio.on.getLsbD e.k = true → s.dioc.doShared.getLsbD e.k = true → exec (.doOpenLoad e) s = .next s) ∧
       (s.dio.on.getLsbD e.k = false → s.dio.backfeed.getLsbD e.k = true → exec (.doOpenLoad e) s = .next s) ∧
       ((s.dio.on.getLsbD e.k = true ∧ s.dioc.doShared.getLsbD e.k = false ∨
         s.dio.on.getLsbD e.k = false ∧ s.dio.backfeed.getLsbD e.k = false) →
         ∃ t, exec (.doOpenLoad e) s = .next t ∧
           (e.light = true →
             Safety.Booked [2, 3, 21] { s with dio := { s.dio with openLoad := t.dio.openLoad, openSeen := t.dio.openSeen } } t ∧
             ∀ i : Fin 16, t.dio.openLoad.getLsbD i = (decide (i = e.k) || s.dio.openLoad.getLsbD i) ∧
               t.dio.openSeen.getLsbD i = (decide (i = e.k) || s.dio.openSeen.getLsbD i)) ∧
           (e.light = false → t = { s with dio := { s.dio with openLoad := t.dio.openLoad } } ∧
             ∀ i : Fin 16, t.dio.openLoad.getLsbD i = (decide (i ≠ e.k) && s.dio.openLoad.getLsbD i)))) ∧
    (∀ (e : Terminal) (s : State), s.power.pdOn.getLsbD 5 = true →
       (s.dio.on.getLsbD e.k = true → exec (.backfeed e) s = .next s) ∧
       (s.dio.on.getLsbD e.k = false →
         ∃ t, exec (.backfeed e) s = .next t ∧
           Safety.Booked [2, 3, 21] { s with dio := { s.dio with backfeed := t.dio.backfeed, openLoad := t.dio.openLoad, readback := t.dio.readback } } t ∧
           (14000 < e.mv → t.dio.readback.getLsbD e.k = true) ∧ (e.mv < 10000 → t.dio.readback.getLsbD e.k = false) ∧
           ∀ i : Fin 16, t.dio.backfeed.getLsbD i = (if i = e.k then decide (8000 < e.mv) else s.dio.backfeed.getLsbD i) ∧
             t.dio.openLoad.getLsbD i = (s.dio.openLoad.getLsbD i && !(decide (i = e.k) && decide (8000 < e.mv))) ∧
             (i ≠ e.k → t.dio.readback.getLsbD i = s.dio.readback.getLsbD i))) ∧
    (∀ (b rev : Bool) (s : State), s.power.pdOn.getLsbD 5 = true →
       (∃ t, exec (.doSupplyLost b rev) s = .next t ∧
         Safety.Booked [2, 3, 21] { s with
           dio := { s.dio with waitCommit := t.dio.waitCommit, on := t.dio.on, openLoad := t.dio.openLoad, backfeed := t.dio.backfeed
                               readback := t.dio.readback }
           dioc := if b then { s.dioc with lostB := true, revB := rev } else { s.dioc with lostA := true, revA := rev } } t ∧
         ∀ i : Fin 16, i.val / 8 = b2n b → t.dio.on.getLsbD i = false ∧ t.dio.waitCommit.getLsbD i = true ∧
           (readback t).getLsbD i = false) ∧
       ((if b then s.dioc.lostB else s.dioc.lostA) = true →
         ∃ t, exec (.doSupplyRestored b) s = .next t ∧
           Safety.Booked [2, 3, 21] { s with
             dio := { s.dio with on := t.dio.on, openLoad := t.dio.openLoad, backfeed := t.dio.backfeed, readback := t.dio.readback }
             dioc := if b then { s.dioc with lostB := false, revB := false } else { s.dioc with lostA := false, revA := false } } t ∧
           ∀ i : Fin 16, s.dio.waitCommit.getLsbD i = true → t.dio.on.getLsbD i = false)) ∧
    (∀ (e : TrgEdge) (s : State), s.power.pdOn.getLsbD 5 = true →
       (∃ t, exec (.trgAssert e) s = .next t ∧
         Safety.Booked [30, 2, 3] { s with
           dioc := { s.dioc with trgExt := t.dioc.trgExt }
           acq := { s.acq with raised := t.acq.raised, raisedTrg := t.acq.raisedTrg } } t ∧
         (∀ i : Fin 4, t.dioc.trgExt.getLsbD i = (if i = e.k then e.asserted else s.dioc.trgExt.getLsbD i) ∧
           (trgLevel t).getLsbD i = (t.dioc.trgExt.getLsbD i || s.dioc.trgDrive.getLsbD i)) ∧
         (e.asserted = false ∨ (trgLevel s).getLsbD e.k = true → t = { s with dioc := { s.dioc with trgExt := t.dioc.trgExt } }) ∧
         (e.asserted = true → (trgLevel s).getLsbD e.k = false →
           ringDepth (ringGet s 30) ≠ 0 → ringFull (ringGet s 30) = false → (ringGet s 30).policy = 0 →
           (ringGet t 30).pi = (ringGet s 30).pi + 1)) ∧
       exec .trigOutRelease s = .next { s with dioc := { s.dioc with trgDrive := 0 } })

/-! ### Rings, records, check jobs (R114 to R122, R377 to R403) -/

/-- R114, R115: a push to a ring with room, no watermark and nobody waiting writes the 16 bytes of its descriptor at the slot
base + PI mod depth, increments PI, and changes no other ring and no other byte; a pop reads at CI and increments CI. R116,
R118: a push to a full DROP_NEWEST ring writes no descriptor and counts; a push to a full BACKPRESSURE ring waits; a push to
a full OVERWRITE_OLDEST ring writes the descriptor, with OVW set in it, over the oldest, and increments CI; a push to a ring of depth 0
is discarded and sets UNALLOC. R119: the push that first brings the fill to HWM × depth / 16 sets the HWM flag and writes TR 0x0125
with ring, fill and depth, where the repetition rule lets it (R65). A pop may re-arm a Mains Watch that waits for a buffer set (R258, R259), and changes nothing else. A waiting push writes its descriptor as soon as a pop has freed a slot, and is counted. QP.CI: a value written
where the Marshal consumes the selected ring and that lies from the current CI to PI becomes CI; any other value, or another
consumer's ring, is left alone. -/
def Obligations.RingsPushPopAndFollowTheirPolicies : Prop :=
    (∀ (n : BitVec 10) (d : Desc) (s : State), awake s = true → Safety.storesWf s →
       let r := ringGet s n.toNat
       (ringDepth r ≠ 0 → ringFull r = false → r.waiting = [] → r.hwm = 0 → r.base + ringDepth r ≤ 262144 →
         ∃ t, exec (.queuePush n d) s = .next t ∧ Safety.Booked [n.toNat] s t ∧ t.log = s.log ∧ t.clk = s.clk ∧
           ringGet t n.toNat = { r with pi := r.pi + 1, peak := BitVec.ofNat 13 (max r.peak.toNat (r.pi + 1 - r.ci).toNat) } ∧
           dataRead (0x400000 + 16 * (r.base + r.pi.toNat % ringDepth r)) 16 t =
             leBytes 4 d.buf.toNat ++ leBytes 2 d.len.toNat ++ [d.src, d.flags] ++ leBytes 4 d.ts.toNat ++ leBytes 4 d.tag.toNat) ∧
       (ringDepth r ≠ 0 → ringFill r ≠ 0 →
         ∃ t, exec (.queuePop n) s = .next t ∧
           Safety.Booked [n.toNat] { s with acq := { s.acq with armWait := t.acq.armWait, armedUs := t.acq.armedUs } } t ∧
           (s.acq.armWait = false → t.acq = s.acq) ∧ t.log = s.log ∧ t.clk = s.clk ∧ t.data = s.data ∧
           ringGet t n.toNat = { r with ci := r.ci + 1 }) ∧
       (ringFill r = 0 → s.acq.armWait = false → exec (.queuePop n) s = .next s)) ∧
    (∀ (n : BitVec 10) (d : Desc) (s : State), awake s = true → n ≠ 2 → n ≠ 3 →
       let r := ringGet s n.toNat
       let bytes := fun (flags : Byte) (d : Desc) =>
         leBytes 4 d.buf.toNat ++ leBytes 2 d.len.toNat ++ [d.src, flags] ++ leBytes 4 d.ts.toNat ++ leBytes 4 d.tag.toNat
       (ringDepth r = 0 → ∃ t, exec (.queuePush n d) s = .next t ∧ Safety.Booked [n.toNat] s t ∧ t.data = s.data ∧
         ringGet t n.toNat = { r with unalloc := true }) ∧
       (let fill := (r.pi + 1 - r.ci).toNat
        let reaches := decide (r.hwm ≠ 0) && decide (r.hwm.toNat * ringDepth r ≤ 16 * fill) && !r.flagHwm
        ringDepth r ≠ 0 → ringFull r = false → r.waiting = [] → ∃ t, exec (.queuePush n d) s = .next t ∧ Safety.Booked [n.toNat, 2, 3] s t ∧
          ringGet t n.toNat = { r with pi := r.pi + 1, peak := BitVec.ofNat 13 (max r.peak.toNat fill), flagHwm := r.flagHwm || reaches } ∧
          (reaches = false → t.log = s.log ∧ ∀ m, m ≠ n.toNat → ringGet t m = ringGet s m) ∧
          (reaches = true → ringFull (ringGet s 3) = false →
            (∀ x ∈ s.log.repeats, x.code.toNat = 0x125 → x.key = n.toNat → x.lastMs + 1000 ≤ opMs s) →
            ∃ x ∈ t.log.trQueue.drop s.log.trQueue.length, x.code = 0x125 ∧ x.severity = 0 ∧ x.optMs = opMs s ∧
              x.items = item n.toNat ++ item fill ++ item (ringDepth r))) ∧
       (ringDepth r ≠ 0 → ringFull r = true →
         (r.policy = 0 → ∃ t, exec (.queuePush n d) s = .next t ∧ Safety.Booked [n.toNat, 2, 3] s t ∧
           (∀ a, Safety.inSlots s [n.toNat] a → ¬ Safety.inSlots s [2, 3] a → memGet 0 t.data a = memGet 0 s.data a) ∧
           (ringGet t n.toNat).pi = r.pi ∧ (ringGet t n.toNat).ci = r.ci ∧ (ringGet t n.toNat).flagOvf = true ∧
           (ringGet t n.toNat).count = (if r.count = 0xFFFFFFFF then r.count else r.count + 1)) ∧
         (r.policy = 1 → ∃ t, exec (.queuePush n d) s = .next t ∧ Safety.Booked [n.toNat] s t ∧ t.data = s.data ∧
           ringGet t n.toNat = { r with waiting := r.waiting ++ [d] }) ∧
         (r.policy = 2 → ∃ t, exec (.queuePush n d) s = .next t ∧ Safety.Booked [n.toNat, 2, 3] s t ∧
           (Safety.storesWf s → Safety.ringApart n.toNat s →
             dataRead (ringAddr r r.pi) 16 t = bytes (d.flags ||| 2) d ∧ (bytes (d.flags ||| 2) d)[7]?.map (·.getLsbD 1) = some true ∧
             (ringFill r = ringDepth r → ringAddr r r.pi = 0x400000 + 16 * (r.base + r.ci.toNat % ringDepth r))) ∧
           (ringGet t n.toNat).pi = r.pi + 1 ∧ (ringGet t n.toNat).ci = r.ci + 1 ∧ (ringGet t n.toNat).flagOvf = true ∧
           (ringGet t n.toNat).count = (if r.count = 0xFFFFFFFF then r.count else r.count + 1))) ∧
       (∀ (w : Desc) (ws : List Desc), r.waiting = w :: ws → ringDepth r ≠ 0 → ringFull r = false →
         ∃ t, exec (.backpressureResume n) s = .next t ∧ Safety.Booked [n.toNat, 2, 3] s t ∧
           (Safety.storesWf s → Safety.ringApart n.toNat s → dataRead (ringAddr r r.pi) 16 t = bytes w.flags w) ∧
           (ringGet t n.toNat).waiting = ws ∧ (ringGet t n.toNat).pi = r.pi + 1 ∧ (ringGet t n.toNat).ci = r.ci ∧
           (ringGet t n.toNat).count = (if r.count = 0xFFFFFFFF then r.count else r.count + 1))) ∧
    (∀ (v : Word) (s : State), awake s = true → s.power.pdOn.getLsbD 1 = true →
       let n := s.queues.ringSel.toNat
       let r := ringGet s n
       (r.consumer = 1 → (v - r.ci).toNat ≤ (r.pi - r.ci).toNat →
         ∃ t, exec (.qpCiWrite v) s = .next t ∧
           t = { s with queues := { s.queues with rings := t.queues.rings }
                        acq := { s.acq with armWait := t.acq.armWait, armedUs := t.acq.armedUs } } ∧
           (s.acq.armWait = false → t.acq = s.acq) ∧ ringGet t n = { r with ci := v } ∧ ∀ m, m ≠ n → ringGet t m = ringGet s m) ∧
       (r.consumer ≠ 1 ∨ (r.pi - r.ci).toNat < (v - r.ci).toNat → exec (.qpCiWrite v) s = .next s))

/-- R382, R384: the record at the head of Q0002 is written to the slot at HEAD, with FORMAT 0x534A, its fields little-endian
and its CRC-32C, and then HEAD advances; no other byte of MRAM changes but the two copies of HEAD and the wrap count, and nothing else
but the ring. R386, R387: a slot whose second read-back differs is left, HEAD passes it, the failure is counted, and SJ 0x0C03 with the
slot and the code waits to take the next slot; when HEAD passes slot 32,767 it returns to 0, the wrap count increments and SJ 0x0C01 is
to be the first record after. A record of the Marshal's own goes before those of Q0002, and one that fails is left and counted like any
other. What the failed slot holds is open: free values (log 3). The places of the copies, and the operating time of the Marshal's own
records, are the model's choice (log 75). -/
def Obligations.JournalRecordsTakeTheirSlots : Prop :=
    (∀ (ok : Bool) (r : Record) (rs : List Record) (s : State), awake s = true → Safety.storesWf s →
       s.log.sjQueue = r :: rs → s.log.sjOwn = [] → s.log.sjHead ≠ 0x7FFF → r.optMs < 2 ^ 48 → r.notWritten < 2 ^ 32 →
       ∃ t, exec (.sjRecordWrite true ok) s = .next t ∧ exec (.sjRecordWrite ok true) s = .next t ∧
         t = { s with mram := t.mram, queues := t.queues, log := { s.log with
           sjQueue := rs, sjHead := s.log.sjHead + 1, anchor := t.log.anchor, anchorValid := t.log.anchorValid } } ∧
         (∀ m, m ≠ 2 → ringGet t m = ringGet s m) ∧
         (∀ a, (a < 0x80000 + 64 * s.log.sjHead.toNat ∨ 0x80000 + 64 * s.log.sjHead.toNat + 64 ≤ a) →
           (a < 0x3DFC00 ∨ 0x3DFC0C ≤ a) → (a < 0x3DFC40 ∨ 0x3DFC4C ≤ a) → memGet 0 t.mram a = memGet 0 s.mram a) ∧
         (∀ c ∈ [0x3DFC00, 0x3DFC40], headCopy c t = some (s.log.sjHead.toNat + 1, s.log.sjWraps.toNat)) ∧
         (let b := mramRead (0x80000 + 64 * s.log.sjHead.toNat) 64 t
          leAt b 0 2 = 0x534A ∧ leAt b 2 2 = r.code.toNat ∧ leAt b 4 6 = r.optMs ∧ leAt b 10 4 = r.cycles.toNat ∧
          nth 0 b 14 = r.source ∧ nth 0 b 15 = r.severity ∧ leAt b 56 4 = r.notWritten ∧ leAt b 60 4 = crc32c (b.take 60)) ∧
         (r.code = 0x101 → t.log.anchor = s.log.sjHead ∧ t.log.anchorValid = true) ∧
         (r.code ≠ 0x101 → t.log.anchor = s.log.anchor)) ∧
    (∀ (r : Record) (rs : List Record) (s : State), awake s = true → Safety.storesWf s → s.log.sjOwn = [] → s.log.sjQueue = r :: rs →
       let own := fun (d : Record) (code sev : Nat) (items : Bytes) =>
         d.code = BitVec.ofNat 16 code ∧ d.severity = BitVec.ofNat 8 sev ∧ d.items = items ∧ d.optMs = r.optMs ∧ d.cycles = r.cycles
       let wraps := if s.log.sjWraps = 0xFFFFFFFF then s.log.sjWraps else s.log.sjWraps + 1
       (s.log.sjHead ≠ 0x7FFF →
         ∃ t d, exec (.sjRecordWrite false false) s = .next t ∧ t.log.sjHead = s.log.sjHead + 1 ∧ t.log.sjQueue = rs ∧
           t.log.sjOwn = [d] ∧ own d 0xC03 2 (item s.log.sjHead.toNat ++ item r.code.toNat) ∧
           t.log.sjWraps = s.log.sjWraps ∧ t.log.sjFails = (if s.log.sjFails = 0xFFFF then s.log.sjFails else s.log.sjFails + 1) ∧
           (∀ a, (a < 0x80000 + 64 * s.log.sjHead.toNat ∨ 0x80000 + 64 * s.log.sjHead.toNat + 64 ≤ a) →
             (a < 0x3DFC00 ∨ 0x3DFC0C ≤ a) → (a < 0x3DFC40 ∨ 0x3DFC4C ≤ a) → memGet 0 t.mram a = memGet 0 s.mram a) ∧
           t.data = s.data ∧ t.flash = s.flash ∧ t.power = s.power) ∧
       (s.log.sjHead = 0x7FFF →
         (∃ t d, exec (.sjRecordWrite true true) s = .next t ∧ t.log.sjHead = 0 ∧ t.log.sjWraps = wraps ∧
           t.log.sjOwn = [d] ∧ own d 0xC01 0 (item wraps.toNat)) ∧
         (∃ t d e, exec (.sjRecordWrite false false) s = .next t ∧ t.log.sjHead = 0 ∧ t.log.sjWraps = wraps ∧
           t.log.sjOwn = [d, e] ∧ own d 0xC01 0 (item wraps.toNat) ∧ own e 0xC03 2 (item 0x7FFF ++ item r.code.toNat)))) ∧
    (∀ (d : Record) (ds : List Record) (s : State), awake s = true → Safety.storesWf s → s.log.sjOwn = d :: ds →
       s.log.sjHead ≠ 0x7FFF → d.optMs < 2 ^ 48 →
       (∃ t, exec (.sjRecordWrite true true) s = .next t ∧ t.log.sjOwn = ds ∧ t.log.sjQueue = s.log.sjQueue ∧ t.queues = s.queues ∧
         t.log.sjHead = s.log.sjHead + 1 ∧
         (let b := mramRead (0x80000 + 64 * s.log.sjHead.toNat) 64 t
          leAt b 0 2 = 0x534A ∧ leAt b 2 2 = d.code.toNat ∧ leAt b 4 6 = d.optMs ∧ leAt b 60 4 = crc32c (b.take 60))) ∧
       (∃ t, exec (.sjRecordWrite false false) s = .next t ∧ t.log.sjHead = s.log.sjHead + 1 ∧ t.log.sjQueue = s.log.sjQueue ∧
         t.log.sjFails = (if s.log.sjFails = 0xFFFF then s.log.sjFails else s.log.sjFails + 1) ∧
         t.log.sjOwn.map Record.code = ds.map Record.code ++ [0xC03]))

/-- R388 to R390: the record at the head of Q0003 is written at slot SEQ mod 262,144 with FORMAT 0x5254, its fields little-endian, its
payload items in bytes 20 to 55 and its CRC-32C, and SEQ increments;
the 512th record of a block, slots that a start has skipped not counted, starts the erase of the next, and an erased block reads 0xFF
throughout. -/
def Obligations.TraceRecordTakesTheSlotOfItsSeq : Prop :=
  ∀ s : State, awake s = true → Safety.storesWf s →
    (∀ (r : Record) (rs : List Record), s.log.trQueue = r :: rs →
      ∃ t, exec .trRecordWrite s = .next t ∧
        t = { s with flash := t.flash, queues := t.queues, log := { s.log with
          trQueue := rs, trSeq := s.log.trSeq + 1, erasing := t.log.erasing, erasingBlock := t.log.erasingBlock
          trSkipped := if (s.log.trSeq.toNat + 1) % 1024 = 0 then 0 else s.log.trSkipped } } ∧
        (∀ m, m ≠ 3 → ringGet t m = ringGet s m) ∧
        (let a := 0x5000000 + 64 * (s.log.trSeq.toNat % 262144)
         (∀ x, (x < a ∨ a + 64 ≤ x) → memGet 0xFF t.flash x = memGet 0xFF s.flash x) ∧
         let b := flashRead a 64 t
         leAt b 0 2 = 0x5254 ∧ leAt b 2 2 = r.code.toNat ∧ leAt b 4 8 = s.log.trSeq.toNat ∧ leAt b 12 6 = r.optMs % 2 ^ 48 ∧
         nth 0 b 18 = r.source ∧ nth 0 b 19 = r.severity ∧ (∀ k : Fin 36, nth 0 b (20 + k) = nth 0 r.items k) ∧
         leAt b 56 4 = r.notWritten % 2 ^ 32 ∧ leAt b 60 4 = crc32c (b.take 60)) ∧
        (s.log.trSeq.toNat % 1024 = 511 + s.log.trSkipped → t.log.erasing = true ∧ t.log.erasingBlock = (s.log.trSeq.toNat % 262144 / 1024 + 1) % 256) ∧
        (s.log.trSeq.toNat % 1024 ≠ 511 + s.log.trSkipped → t.log.erasing = s.log.erasing)) ∧
    (s.log.erasing = true →
      ∃ t, exec .trBlockErased s = .next t ∧ t = { s with flash := t.flash, log := { s.log with erasing := false } } ∧
        (∀ x, 0x5000000 + 65536 * s.log.erasingBlock ≤ x → x < 0x5000000 + 65536 * s.log.erasingBlock + 65536 →
          memGet 0xFF t.flash x = 0xFF) ∧
        (∀ x, (x < 0x5000000 + 65536 * s.log.erasingBlock ∨ 0x5000000 + 65536 * s.log.erasingBlock + 65536 ≤ x) →
          memGet 0xFF t.flash x = memGet 0xFF s.flash x))

/-- R379, R391, R392: the operating time is saved as it stands; after 86,400,000 ms of operating time without an anchor and
with OSF and LBV both 0, SJ 0x0101 carries the RTC, its flags, kind 2 and the operating time in µs. -/
def Obligations.OperatingTimeIsSavedAndAnchored : Prop :=
  ∀ s : State,
    (s.power.state ≠ .off → exec .optSave s = .next { s with clk := { s.clk with savedMs := min (s.clk.opUs / 1000) (2 ^ 48 - 1) } }) ∧
    (awake s = true → s.rtc.osf = false → s.rtc.lbv = false → s.clk.anchorMs + 86400000 ≤ opMs s →
      ∃ t, exec .timeAnchor s = .next t ∧ Safety.Booked [2, 3] { s with clk := { s.clk with anchorMs := opMs s } } t ∧
        Safety.journals 0x101 0 (timeBytes s.rtc.time ++ leBytes 2 (subsec s) ++ [0, 2] ++ leBytes 8 s.clk.opUs) s t) ∧
    (awake s = true → s.rtc.osf = true ∨ s.rtc.lbv = true → exec .timeAnchor s = .next s)

/-- R397 to R399: a frame job that computes changes nothing in memory; one that generates appends the CRC to data memory
after the range and writes no other byte, and where Lane A's states stand in data memory (log 72) it changes these; a check that
differs is counted; a job that breaks the rules, whose range with the appended bytes does not lie within one store or touches the
backup state region, that would append outside data memory, or that overlaps a region that an update writes, is refused and counted, with no scan, no
write and a trace record. R398, R400, R401: the scan channel takes the job at the head of Q0012 when it is idle; a
good job becomes the running one; when it completes, DONE counts, LAST holds the value and a descriptor goes to Q0013. -/
def Obligations.CheckJobsComputeAppendAndReport : Prop :=
    (∀ (poly mode : Byte) (start length : Word) (s : State), awake s = true →
       (jobGood poly mode start.toNat length.toNat = true → length.toNat ≤ 4116 → jobInUpdate start.toNat length.toNat s = false →
         (mode.toNat % 4 = 0 → exec (.crcFrameJob poly mode start length) s = .next s) ∧
         (mode.toNat % 4 = 1 → ∃ t, exec (.crcFrameJob poly mode start length) s = .next t ∧
           t = { s with data := t.data, img := { s.img with timers := t.img.timers, counters := t.img.counters }
                        bx := { s.bx with calls := t.bx.calls } } ∧
           (start.toNat + length.toNat + crcWidth poly.toNat ≤ 0x800000 ∨ 0x820100 ≤ start.toNat + length.toNat →
             t = { s with data := t.data }) ∧
           (∀ a, (a < start.toNat + length.toNat ∨ start.toNat + length.toNat + crcWidth poly.toNat ≤ a) →
             memGet 0 t.data a = memGet 0 s.data a) ∧
           (Safety.storesWf s → poly = 0 → mode = 1 → start.toNat + length.toNat + 4 ≤ 0x800000 →
             leAt (dataRead (start.toNat + length.toNat) 4 t) 0 4 = crc32c (dataRead start.toNat length.toNat s))) ∧
         (mode.toNat % 4 = 2 → ∃ t, exec (.crcFrameJob poly mode start length) s = .next t ∧
           t = { s with crc := { s.crc with misFrame := t.crc.misFrame } } ∧
           ((jobValue poly mode start.toNat length.toNat s).1 = 0 → t.crc.misFrame = s.crc.misFrame) ∧
           ((jobValue poly mode start.toNat length.toNat s).1 ≠ 0 →
             t.crc.misFrame = if s.crc.misFrame = 0xFFFF then s.crc.misFrame else s.crc.misFrame + 1))) ∧
       (4116 < length.toNat ∨ poly.toNat > 3 ∨ mode.toNat % 4 = 3 ∨ mode.toNat ≥ 8 ∨ length = 0 ∨
         jobInUpdate start.toNat length.toNat s = true ∨
         (mode.toNat % 4 = 1 ∧ 0x1000000 < start.toNat + length.toNat + crcWidth poly.toNat) ∨
         (mode.toNat % 4 = 2 ∧ length.toNat ≤ crcWidth poly.toNat) ∨
         (let e := start.toNat + length.toNat + if mode.toNat % 4 = 1 then crcWidth poly.toNat else 0
          0x1000000 < e ∧ ¬ (0x10000000 ≤ start.toNat ∧ e ≤ 0x10800000 ∧ (e ≤ 0x103A0000 ∨ 0x103E0000 ≤ start.toNat)) ∧
            ¬ (0x20000000 ≤ start.toNat ∧ e ≤ 0x28000000)) →
         ∃ t, exec (.crcFrameJob poly mode start length) s = .next t ∧
           Safety.Booked [2, 3] { s with crc := { s.crc with
             refused := if s.crc.refused = 0xFFFF then s.crc.refused else s.crc.refused + 1 } } t ∧
           (ringFull (ringGet s 3) = false → ∃ r ∈ t.log.trQueue.drop s.log.trQueue.length, r.code = 0xC11))) ∧
    (∀ s : State, awake s = true →
       (s.crc.scan.isSome = true → exec .crcScanStart s = .next s) ∧
       (s.crc.scan = none → ringDepth (ringGet s 12) ≠ 0 → ringFill (ringGet s 12) ≠ 0 →
         let d := descOf (dataRead (ringAddr (ringGet s 12) (ringGet s 12).ci) 16 s)
         let b := unitRead d.buf.toNat 16 s
         ∃ t, exec .crcScanStart s = .next t ∧ (ringGet t 12).ci = (ringGet s 12).ci + 1 ∧ t.mram = s.mram ∧ t.flash = s.flash ∧
           (jobGood (nth 0 b 0) (nth 0 b 1) (leAt b 4 4) (leAt b 8 4) = true → jobInUpdate (leAt b 4 4) (leAt b 8 4) s = false →
             t.crc.scan = some { job := BitVec.ofNat 16 (leAt b 2 2), src := d.src, poly := nth 0 b 0, mode := nth 0 b 1,
                                 start := BitVec.ofNat 32 (leAt b 4 4), length := BitVec.ofNat 32 (leAt b 8 4) } ∧ t.data = s.data) ∧
           (jobGood (nth 0 b 0) (nth 0 b 1) (leAt b 4 4) (leAt b 8 4) = false → t.crc.scan = none ∧
             t.crc.refused = if s.crc.refused = 0xFFFF then s.crc.refused else s.crc.refused + 1)) ∧
       (∀ j, s.crc.scan = some j →
         ∃ t, exec .crcScanDone s = .next t ∧ t.crc.scan = none ∧
           t.crc.done = (if s.crc.done = 0xFFFFFFFF then s.crc.done else s.crc.done + 1) ∧
           t.crc.last = BitVec.ofNat 32 (jobValue j.poly j.mode j.start.toNat j.length.toNat s).1 ∧
           t.mram = s.mram ∧ t.flash = s.flash ∧
           (ringDepth (ringGet s 13) ≠ 0 → ringFull (ringGet s 13) = false → (ringGet s 13).policy = 0 →
             (ringGet t 13).pi = (ringGet s 13).pi + 1)))

/-! ### Power, bring-up, lap, Safe Service (R25 to R88, R125 to R138, R363 to R369) -/

/-- R67 to R69, R379: SUPPLY_VALID starts a unit that is OFF and that no temperature holds there (R366), and no other: the operating time continues from the saved value
plus 1,000 ms, the power-cycle count increments, the panel is locked, and with the update journal in DEAD the unit is DEAD
with PD0, PD1 and PD11 on; else it is in BRING-UP with PD0 and PD1 on and nothing pressed. R88, R413, R414: the DI00, landing bus
and K00 detectors each wake a unit in HIBERNATE, which starts a bring-up of kind WAKE that shows every source active at that
instant, an alarm that has matched and the detectors that follow within its millisecond among them, which is how the model takes R88's instant
(its choice, log 84); in OFF they are latched and assert PWR_ON; otherwise they do nothing. R426: an OSF that a loss of PD0 set is
recorded at the start; that an OSF of another cause, set in OFF, is recorded there too is the model's choice (log 59, DEDUCED). -/
def Obligations.TheUnitStartsAndWakes : Prop :=
    (∀ s : State,
       (s.power.state ≠ .off ∨ s.power.hot = true → exec .supplyValid s = .next s) ∧
       (s.power.state = .off → s.power.hot = false → ∃ t, exec .supplyValid s = .next t ∧
         t.power.pwrCycles = (if s.power.pwrCycles = 0xFFFFFFFF then s.power.pwrCycles else s.power.pwrCycles + 1) ∧
         t.clk.opUs = (s.clk.savedMs + 1000) * 1000 ∧ t.power.startKind = .fromOff ∧ t.power.wakeSrc = s.rtc.active ∧
         t.power.role = .none ∧ t.pan.locked = true ∧ t.mld.mould = none ∧ t.flash = s.flash ∧
         (∀ c, RtcNote.osf c ∈ s.rtc.notes → ∃ r ∈ t.log.sjQueue, r.code = 0xB02 ∧ r.items = item c) ∧
         (s.upd.journal = .dead → t.power.state = .dead ∧ (s.power.pdLocked.getLsbD 11 = false → t.power.pdOn = 0x803)) ∧
         (s.upd.journal ≠ .dead → s.upd.journal ≠ .patching →
           t.power.state = .bringUp ∧ t.power.loadStep = .manifests ∧ t.power.pdOn = 0x003 ∧ t.power.driversOn = false) ∧
         (s.upd.journal = .patching → t.power.state = .bringUp ∨ t.power.state = .dead))) ∧
    (∀ s : State, ∀ p ∈ [(Instr.di00Wake, (4 : BitVec 4)), (.lb0Wake, 8), (.row0Wake, 2)],
       (s.power.state = .off →
         exec p.1 s = .next { s with rtc := { s.rtc with pwrOn := true, active := s.rtc.active ||| p.2 } }) ∧
       (s.power.state = .hibernate → s.upd.journal ≠ .patching → ∃ t, exec p.1 s = .next t ∧
         t.power.state = .bringUp ∧ t.power.startKind = .wake ∧ t.power.wakeSrc = p.2 ||| (if s.rtc.alarmEn && s.rtc.alarmHit then 1 else 0) ∧
         t.power.pwrCycles = s.power.pwrCycles ∧ t.clk.opUs = s.clk.opUs ∧ t.power.pdOn = 0x003 ∧ t.pan.locked = true) ∧
       (s.power.state = .bringUp → s.power.startKind = .wake → opMs s = s.power.t0Us / 1000 → ∃ t, exec p.1 s = .next t ∧
         t = { s with power := { s.power with wakeSrc := s.power.wakeSrc ||| p.2 }, rtc := { s.rtc with pwrOn := true }
                      log := { s.log with sjQueue := t.log.sjQueue } } ∧
         t.log.sjQueue.map Record.code = s.log.sjQueue.map Record.code ∧
         ∀ r ∈ s.log.sjQueue, r.code ≠ 0x103 → r ∈ t.log.sjQueue) ∧
       (s.power.state ≠ .off → s.power.state ≠ .hibernate →
         ¬ (s.power.state = .bringUp ∧ s.power.startKind = .wake ∧ opMs s = s.power.t0Us / 1000) → exec p.1 s = .next s))

/-- R26, R28, R29, R274, R379, R405: a supply warning sets PFW, saves the operating time, freezes metering and changes no
output, image or program; when the supply is good again PFW clears and metering runs on; SHUTDOWN leaves OFF with PD0 alone,
outputs off and volatile memory lost, while the power-cycle count stands, and flash but for the slot of the trace record that is being
written (R390); in HIBERNATE a warning raises PFW and saves the operating time, and its record waits, with no event (log 93, DESIGN
CHOICE), and in OFF it does nothing; the loss of PD0 sets OSF and every backup
register to its reset value, and its record waits for the next start (R426). That every byte of data memory reads 0 after the loss is
the model's choice (log 4; R22 says that it is volatile). -/
def Obligations.SupplyFailureKeepsWhatMustStand : Prop :=
  ∀ (mv : Half) (tick : TickSamples) (s : State),
    (awake s = true → s.power.pfw = false → ∃ t, exec (.supplyWarn mv tick) s = .next t ∧
      t.power = { s.power with pfw := true, pfwUs := s.clk.opUs } ∧ t.clk.savedMs = opMs s ∧ t.clk.opUs = s.clk.opUs ∧
      t.sens = { s.sens with x1 := mv } ∧ (s.mtr.running = true → t.mtr.frozen = true) ∧
      t.dio = s.dio ∧ t.img = s.img ∧ t.lap = s.lap ∧ t.prog = s.prog ∧ t.flash = s.flash) ∧
    (s.power.state = .hibernate → s.power.pfw = false → ∃ t, exec (.supplyWarn mv tick) s = .next t ∧
      Safety.Booked [2, 3] { s with power := { s.power with pfw := true, pfwUs := s.clk.opUs }, sens := { s.sens with x1 := mv }
                                    clk := { s.clk with savedMs := opMs s } } t) ∧
    (s.power.state = .off ∨ s.power.pfw = true → exec (.supplyWarn mv tick) s = .next s) ∧
    (s.power.pfw = true → ∃ t, exec .supplyRestored s = .next t ∧
      Safety.Booked [2, 3] { s with
        power := { s.power with pfw := false }
        mtr := { s.mtr with frozen := s.mtr.frozen && !s.mtr.frozenPfw, frozenPfw := false } } t) ∧
    (s.power.state ≠ .off → ∃ t, exec .shutdown s = .next t ∧
      t.power.state = .off ∧ t.power.pdOn = 0x001 ∧ t.power.pwrCycles = s.power.pwrCycles ∧ t.dio = {} ∧ t.img = {} ∧
      t.data = [] ∧ (awake s = false ∨ s.log.trQueue = [] → t.flash = s.flash) ∧
      (let a := 0x5000000 + 64 * (s.log.trSeq.toNat % 262144)
       ∀ x, x < a ∨ a + 64 ≤ x → memGet 0xFF t.flash x = memGet 0xFF s.flash x) ∧ t.clk.wallUs = s.clk.wallUs ∧ t.clk.opUs = s.clk.opUs ∧
      t.rtc = { s.rtc with bat := 0 } ∧ t.mgt.svcOpen = false) ∧
    (∃ t, exec .pd0Loss s = .next t ∧ t = { s with rtc := { ({} : Rtc) with notes := [.osf 0], bat := s.rtc.bat } } ∧
      t.rtc.osf = true ∧ t.rtc.pwrOn = false ∧ (∀ k < 8, nth 1 t.rtc.bkp k = 0))

/-- R85, R87, R276: HALT is entered at the end of the commit of the lap in progress: the outputs are commanded to their stop
values, the role is none, and images and program stand; HIBERNATE then too: outputs off, PD0 and PD1 alone, metering frozen,
SVC closed, the wake detectors armed and PWR_ON released, unless an enabled alarm has already matched. While the lap runs, or
its write-through, neither happens. -/
def Obligations.HaltAndHibernateWaitForTheCommit : Prop :=
  ∀ s : State,
    (s.lap.running ≠ .idle ∨ s.clk.opUs < s.ctx.wtEndUs → exec .haltEntered s = .next s ∧ exec .hibernateEntered s = .next s) ∧
    (s.power.state = .run → s.power.transit = .halt → s.lap.running = .idle → s.ctx.wtEndUs ≤ s.clk.opUs → ∃ t, exec .haltEntered s = .next t ∧
      t.power.state = .halt ∧ t.power.role = .none ∧ t.power.transit = .none ∧
      (∀ k : Fin 16, t.dio.cmd.getLsbD k = (doMap s k).stop) ∧
      t.dio.waitCommit = s.dio.waitCommit &&& unsuppliedMask s ∧ t.img = s.img ∧ t.prog = s.prog ∧
      t.lap = s.lap ∧ t.power.pdOn = s.power.pdOn) ∧
    (s.power.transit = .hibernate → s.lap.running = .idle → s.ctx.wtEndUs ≤ s.clk.opUs → (s.rtc.alarmEn && s.rtc.alarmHit) = false →
      ∃ t, exec .hibernateEntered s = .next t ∧
      t.power.state = .hibernate ∧ t.power.role = .none ∧ t.power.transit = .none ∧ t.power.pdOn = 0x003 ∧ t.dio.on = 0 ∧
      t.rtc = { s.rtc with armed := true, pwrOn := false, active := 0 } ∧ t.mgt.svcOpen = false ∧
      (s.mtr.running = true → t.mtr.frozen = true) ∧ t.flash = s.flash)

/-- R70, R367, R444: manifest verification acts in a bring-up at its first load step only, with PD5, the drivers and PD6 on, and
goes on to P0 exactly where every check passes. A failed check of the system manifest is Safe Service cause 0x01, at an
acceptance start DEAD (R437); a pending bank tried twice is cause 0x09; a failed check of the application is its own cause, or
0x09 while the bank is pending (R443). R70, R103, R105: a Mould that validates is pressed and shown, with SJ 0x0120, and P4
follows; one that does not, and a region that fails its readback, are Safe Service, the latter with the panel locked (R423). It happens
once, at its load step. R55: the bus terminations stand as the pressed Mould has them. -/
def Obligations.ManifestsAndMouldAreCheckedAndPressed : Prop :=
    (∀ s : State,
       (s.power.state ≠ .bringUp ∨ s.power.loadStep ≠ .manifests ∨ s.upd.journal = .patching →
         exec .manifestsVerified s = .next s) ∧
       (s.power.state = .bringUp → s.power.loadStep = .manifests → s.upd.journal ≠ .patching →
         s.mld.mould = none → s.power.pdLocked = 0 →
         ∃ u t, exec .manifestsVerified s = .next t ∧
           u.power = { s.power with pdOn := s.power.pdOn ||| 0x060, driversOn := true, pdUs := u.power.pdUs } ∧ u.upd = s.upd ∧ u.flash = s.flash ∧
           u.mgt = { s.mgt with testedSet := BitVec.ofNat 32 (manSet s.upd.manifest) } ∧ u.mld = s.mld ∧ u.lap = s.lap ∧
           (let m := s.upd.manifest
            let b := usedBank u
            let sysOk := manFormat 0 none m && manSigned 0 m u && manIssue m u && (targetFailure m u).isNone
            let spent := s.upd.pending && !s.upd.inUse
            let cause := fun (n : Nat) => if s.upd.inUse then 9 else n
            (sysOk = true → spent = false → appManifestOk b u = true → manSet (bankManifest b u) = manSet m →
              programChecked b u = true → t = { u with power := { u.power with loadStep := .p0 } }) ∧
            (sysOk = false → s.upd.accepting = false → Safety.inSafeService 1 t) ∧
            (sysOk = false → s.upd.accepting = true → t.power.state = .dead) ∧
            (sysOk = true → spent = true → Safety.inSafeService 9 t) ∧
            (sysOk = true → spent = false → appManifestOk b u = false → Safety.inSafeService (cause 2) t) ∧
            (sysOk = true → spent = false → appManifestOk b u = true → manSet (bankManifest b u) ≠ manSet m →
              Safety.inSafeService (cause 1) t) ∧
            (sysOk = true → spent = false → appManifestOk b u = true → manSet (bankManifest b u) = manSet m →
              programChecked b u = false → Safety.inSafeService (cause 7) t)))) ∧
    (∀ (k : Option (Fin 4)) (s : State),
       (s.power.state ≠ .bringUp ∨ s.power.loadStep ≠ .mould → exec (.mouldPressed k) s = .next s) ∧
       (s.power.state = .bringUp → s.power.loadStep = .mould → ∃ t, exec (.mouldPressed k) s = .next t ∧
         (∀ m r, mouldValidate (mouldCtx (usedBank s) none s) = .ok (m, r) →
           ((∀ j, k = some j → regionUsed m r j = false) → t.power.state = .bringUp ∧ t.power.loadStep = .p4 ∧
             t.mld.mould = some (m, r) ∧ (∀ p : Fin 4, (lbOf t p).term = m.term.getLsbD p) ∧
             t.mld.build = m.build ∧ t.mld.hash = m.digest ∧ t.dioc.trgPull = m.trgPull ∧
             (∀ n : Fin 16, t.dioc.doPolicy.getLsbD n = (nth {} m.douts n).policy) ∧
             Safety.journals 0x120 0 (m.digest.take 8 ++ item m.build.toNat ++ item (b2n (usedBank s))) s t) ∧
           (∀ j, k = some j → regionUsed m r j = true → t.power.state = .safeService ∧ t.mld.mould = none ∧ t.pan.locked = true ∧
             ∀ p : Fin 4, (lbOf t p).term = m.term.getLsbD p)) ∧
         (∀ f, mouldValidate (mouldCtx (usedBank s) none s) = .error f → t.power.state = .safeService ∧ t.mld = { s.mld with
           lastCode := t.mld.lastCode, failSection := t.mld.failSection, failOffset := t.mld.failOffset, repress := none })))

/-- R70, R71, R368, R439, R444: a part that reports ready with the version and the Tested Set of the system manifest takes
the bring-up to the next load step and switches on the domain that step needs; with P0 the Marshal leaves its ROM (R362); P1 verifies the program and arms its lane, P2
arms its own; a wrong version, with SJ 0x0A13, and a wrong Tested Set are Safe Service cause 0x01, and a part that does not become ready
is Safe Service with the part's cause, P1 and P2 with the SJ 0x0910 of a lane fault (R369); at an acceptance start each of these is
DEAD with cause 6 and SJ 0x0A07, as is a self-test that fails there (R439). R70, R75, R76,
R228: FIRST_FULL_LAP at the end of the bring-up enters RUN as SOLO, ends the BTP, and begins lap 1. -/
def Obligations.PartsLoadInOrderUpToRun : Prop :=
    (∀ (p : Part) (version set : Word) (s : State), s.power.state = .bringUp → s.power.loadStep = partStep p →
       let want := ((manPart 0 s.upd.manifest (partNo p)).map PartEntry.version).getD 0
       let failedStart := fun (t : State) => t.power.state = .dead ∧ t.upd.journal = .dead ∧ t.upd.deadCause = 6 ∧
         Safety.journals 0xA07 2 (item 6 ++ item (partNo p)) s t
       let laneFault := fun (t : State) => (p = .p1 → Safety.journals 0x910 2 (item 0 ++ item 4 ++ item 0) s t) ∧
         (p = .p2 → Safety.journals 0x910 2 (item 1 ++ item 4 ++ item 0) s t)
       (∃ t, exec (.partReady p version set) s = .next t ∧
         t.upd.partVer = s.upd.partVer.set (partNo p) version ∧
         (version.toNat = want → set.toNat = manSet s.upd.manifest → p ≠ .p1 →
           t.power.state = .bringUp ∧ t.power.loadStep = nextStep p ∧
           (∀ q ∈ [(Part.p4, 4), (.p3, 2), (.p2, 7), (.p5, 8), (.p6, 11)], q.1 = p → domainEnabled s q.2 = true →
             s.power.pdLocked.getLsbD q.2 = false → t.power.pdOn.getLsbD q.2 = true) ∧
           (p = .p0 → t.mgt.onP0 = true) ∧ (p = .p2 → t.mgt.wdB = { armed := true, lastUs := s.clk.wallUs })) ∧
         (version.toNat = want → set.toNat = manSet s.upd.manifest → p = .p1 →
           ∀ bs, verifyProgram (dKib s) (((restOf s).map MouldRest.eventMask).getD 0) (bankProgram (usedBank s) s) = .ok bs →
             t.power.loadStep = .laneB ∧ t.prog.blocks = bs ∧ t.mgt.wdA = { armed := true, lastUs := s.clk.wallUs }) ∧
         (version.toNat ≠ want ∨ set.toNat ≠ manSet s.upd.manifest → s.upd.accepting = false → Safety.inSafeService 1 t) ∧
         (version.toNat ≠ want ∨ set.toNat ≠ manSet s.upd.manifest → s.upd.accepting = true → failedStart t) ∧
         (version.toNat ≠ want → Safety.journals 0xA13 2 (item (partNo p) ++ item want ++ item version.toNat) s t)) ∧
       (s.upd.accepting = false → ∃ t, exec (.partNotReady (.part p)) s = .next t ∧ laneFault t ∧
         Safety.inSafeService (match p with
           | .p0 => 1
           | .p3 => 5
           | .p1 => 3
           | .p2 => 4
           | _ => 10) t) ∧
       (s.upd.accepting = true → ∃ t, exec (.partNotReady (.part p)) s = .next t ∧ laneFault t ∧ failedStart t)) ∧
    (∀ s : State,
       (s.upd.accepting = false → exec (.partNotReady .selfTest) s = .next s) ∧
       (s.power.state = .bringUp → s.power.loadStep = .manifests ∨ s.power.loadStep = .p0 → s.upd.accepting = true →
         ∃ t, exec (.partNotReady .selfTest) s = .next t ∧ t.power.state = .dead ∧ t.upd.journal = .dead ∧ t.upd.deadCause = 5) ∧
       (s.power.state ≠ .bringUp ∨ s.power.loadStep ≠ .handover → exec .firstFullLap s = .next s) ∧
       (s.power.state = .bringUp → s.power.loadStep = .handover → s.power.role = .none → ∃ t, exec .firstFullLap s = .next t ∧
         t.power.state = .run ∧ t.power.role = .solo ∧ t.power.loadStep = .idle ∧ t.power.runEntryUs = s.clk.opUs ∧
         t.saf.btpOn = false ∧ t.lap.num = 1 ∧ t.lap.running = .lap ∧ t.rfx.active = true))

/-- R125, R126, R138: a SOLO unit in RUN begins a lap at LAP_START: the number counts, the filtered inputs stand in I from
I_BASE on, MAIN is entered with clear accumulators, BA 0 and FC 1, and the outputs stand; from HALT it leaves HALT so, as
SOLO. With a lap or its write-through in progress nothing happens. R125, R129, R198: the commit of an ended lap of a SOLO unit
applies the Q image of the 16 outputs at once and ends the lap, whose duration up to the end of the write-through is shown; that of a trial lap changes no output and counts the
trial lap. A lap whose program has not ended, and no lap, is not committed. -/
def Obligations.LapsFreezeInputsAndCommitOutputs : Prop :=
    (∀ (s : State) (m : Mould) (r : MouldRest),
       (s.lap.running ≠ .idle ∨ s.clk.opUs < s.ctx.wtEndUs → exec .lapStart s = .next s) ∧
       (s.lap.running = .idle → s.ctx.wtEndUs ≤ s.clk.opUs → s.power.pdOn.getLsbD 2 = true → s.mld.mould = some (m, r) → m.iBase + 32 ≤ 8192 →
         (s.power.state = .run ∧ s.power.role = .solo ∨ s.power.state = .halt ∧ s.power.transit = .run) →
         ∃ t, exec .lapStart s = .next t ∧ t.power.state = .run ∧ t.power.role = .solo ∧
           t.lap.num = s.lap.num + 1 ∧ t.lap.running = .lap ∧ t.lap.freezeUs = s.clk.opUs ∧
           (∀ n : Fin 32, t.frz.i.getLsbD (m.iBase + n) = (diFiltered s).getLsbD n) ∧
           t.frz.l = s.lb.lImage ∧ t.bx.acc1 = 0 ∧ t.bx.acc2 = 0 ∧ t.bx.acx = 0 ∧ t.bu.ba = false ∧ t.bu.fc = true ∧
           t.bu.stack = [] ∧ t.dio = s.dio)) ∧
    (∀ s : State,
       (s.bx.ended = false ∨ s.lap.running = .idle → exec .lapCommit s = .next s) ∧
       (s.bx.ended = true → s.lap.running = .lap → s.power.role = .solo → ∃ t, exec .lapCommit s = .next t ∧
         t.lap.running = .idle ∧ t.lap.num = s.lap.num ∧ t.lap.lastUs = max s.clk.opUs t.ctx.wtEndUs - s.lap.freezeUs ∧
         (∀ k : Fin 16, t.dio.cmd.getLsbD k = s.img.q.getLsbD (((mouldOf s).map Mould.qBase).getD 0 + k)) ∧
         t.ctx.actions = [] ∧ t.prog = s.prog) ∧
       (s.bx.ended = true → s.lap.running = .trial → ∃ t, exec .lapCommit s = .next t ∧
         t.lap.running = .idle ∧ t.dio = s.dio ∧ t.edit.trialRun = s.edit.trialRun + 1))

/-- R81, R82, R134, R363, R365, R367, R368, R369: what leads from BRING-UP, RUN or HALT into SAFE SERVICE, and the cause it
shows: a lap, or its commit, that runs past its watchdog, a fault (10 samples beyond a limit of R363) of PD2 to PD5 or a missing rise of one that is
being switched on, a temperature of the application or the fabric sensor above 110 °C in two consecutive samples, a fault of an armed
lane, an exception or a parity error of any lane that runs, a gap being one of more than 50 ms, and a lane kick out of sequence or after
such a gap, which is found before it (log 88, DEDUCED); at an acceptance start each of these, but the lap's, is DEAD (R439). The lap
is abandoned. A SYNC domain not up as RUN is entered is switched off (R367), and so is a domain of SAFE SERVICE not up that the entry,
or the bring-up within 6 ms before, has switched on. R369: in the check that has entered SAFE SERVICE a lane's fault adds its
cause, and FIRST shows the lowest. R366: T_MGT above 110 °C takes the unit to OFF, where it is held until T_MGT is below 95 °C; that a sample in OFF ends the hold, PD1
counting as released, is the model's choice (log 79, DEDUCED). R363 to R365, R368:
what stays short of SAFE SERVICE: a lane kick in sequence is noted with its gap; a lane that is not armed is not supervised;
a sample within the limits shows in MGT.PD_VIn and does nothing else; a fault of the switch, a landing bus or the SYNC domain
switches that domain off until the next bring-up, and a REHASH that runs then ends (R374), and one of Mains Watch does so with metering
frozen and no sampling; one of PD1 is the unit shutdown of R366; a fault of PD0, PD9 or PD10 is reported only; a temperature above 95 °C in two
consecutive samples is flagged and recorded once, and a sample below 90 °C clears it; a BAT voltage below 2.4 V sets LBV (R410). -/
def Obligations.SafeServiceHasItsCauses : Prop :=
    (∀ s : State, s.power.state = .bringUp ∨ s.power.state = .run ∨ s.power.state = .halt →
       let accepts := s.power.state = .bringUp ∧ s.upd.accepting = true
       let ends := fun (c : Instr) (p : State → Prop) => ∃ t, exec c s = .next t ∧
         (accepts → t.power.state = .dead ∧ t.upd.journal = .dead ∧ t.upd.deadCause = 6) ∧ (¬ accepts → p t)
       (s.lap.running = .lap ∨ s.lap.running = .shadow → ∃ t, exec .lapWatchdog s = .next t ∧
         Safety.inSafeService 6 t ∧ t.lap.fault = 0x201 ∧ t.lap.running = .idle ∧ t.bu.stack = []) ∧
       (s.lap.running = .idle → s.power.state ≠ .bringUp → s.clk.opUs < s.ctx.wtEndUs → ∃ t, exec .lapWatchdog s = .next t ∧
         Safety.inSafeService 6 t ∧ t.lap.fault = 0x201) ∧
       (s.lap.running = .trial ∨ s.lap.running = .idle ∧ (s.power.state = .bringUp ∨ s.ctx.wtEndUs ≤ s.clk.opUs) →
         exec .lapWatchdog s = .next s) ∧
       (∀ (d : Fin 12) (k : DomainFaultKind) (v : HubSample) (mv : Half), d.val ∈ [2, 3, 4, 5] →
         (s.power.pdOn.getLsbD d = true → outOfLimits d k v = true →
           ends (.domainFault d k v) fun t => Safety.inSafeService 8 t ∧
             t.power.pdTripped.getLsbD d = true ∧ t.power.pdOn.getLsbD d = false) ∧
         (s.power.state = .bringUp → s.power.pdOn.getLsbD d = true → domainEnabled s d = true →
           ends (.domainNotUp d mv) fun t => Safety.inSafeService 8 t ∧ t.power.pdTripped.getLsbD d = true) ∧
         (s.power.state ≠ .bringUp ∨ s.power.pdOn.getLsbD d = false ∨ domainEnabled s d = false →
           exec (.domainNotUp d mv) s = .next s)) ∧
       (∀ n : Fin 6, n = 1 ∨ n = 2 → ∀ v : TempSamples, 1100 < v.prev.toInt → 1100 < v.cur.toInt → ends (.tempShutdown n v) fun t =>
         Safety.inSafeService 8 t ∧ (tempOf t n).shut = true) ∧
       (∀ (l : Lane) (k : LaneFaultKind) (g : Nat),
         let runs := (k = .exception ∨ k = .parity) ∧ s.power.pdOn.getLsbD (if l = .a then 2 else 3) = true
         ((wdOf s l).armed = true ∨ runs → (k = .gap → 50 < g) →
           ends (.laneFault l k g) fun t => Safety.inSafeService (if l = .a then 3 else 4) t) ∧
         ((wdOf s l).armed = false ∧ ¬ runs ∨ k = .gap ∧ g ≤ 50 → exec (.laneFault l k g) s = .next s)) ∧
       (∀ (l : Lane) (v : Half), (wdOf s l).armed = true → (wdOf s l).kicked = true →
         v ≠ (wdOf s l).last + 1 ∨ (wdOf s l).lastUs + 50000 < s.clk.wallUs →
         ends (.laneKick l v) fun t => Safety.inSafeService (if l = .a then 3 else 4) t)) ∧
    (∀ (l : Lane) (k : LaneFaultKind) (g : Nat) (s : State), s.power.state = .safeService → s.power.ssEntryMs = opMs s →
       s.power.ssArmed.getLsbD (if l = .a then 0 else 1) = true →
       let cause := if l = .a then 3 else 4
       (k = .gap → 50 < g) → ∃ t, exec (.laneFault l k g) s = .next t ∧ t.power.state = .safeService ∧
         (∀ i : Fin 10, t.power.causes.getLsbD i = (decide (i.val + 1 = cause) || s.power.causes.getLsbD i)) ∧
         t.power.firstCause.toNat = min s.power.firstCause.toNat cause) ∧
    (∀ (l : Lane) (v : Half) (n : Fin 6) (x : TempSamples) (s : State), awake s = true →
       (s.power.state ≠ .safeService → (wdOf s l).armed = false → exec (.laneKick l v) s = .next s) ∧
       ((wdOf s l).armed = true →
         (wdOf s l).kicked = false ∨ v = (wdOf s l).last + 1 ∧ s.clk.wallUs ≤ (wdOf s l).lastUs + 50000 →
         exec (.laneKick l v) s = .next (setWd l { wdOf s l with
           kicked := true, last := v, lastUs := s.clk.wallUs
           gap := BitVec.ofNat 8 (min 255 (max (wdOf s l).gap.toNat ((s.clk.wallUs - (wdOf s l).lastUs) / 1000))) } s)) ∧
       (∀ mv : Half, s.power.state = .run ∨ s.power.state = .halt → s.power.pdOn.getLsbD 11 = true → domainEnabled s 11 = true →
         (s.clk.opUs < pdSince s 11 + 6000 → ∃ t, exec (.domainNotUp 11 mv) s = .next t ∧
           t.power = { s.power with pdOn := t.power.pdOn, pdTripped := t.power.pdTripped, pdLocked := t.power.pdLocked } ∧
           t.power.pdTripped.getLsbD 11 = true ∧ (∀ i : Fin 12, t.power.pdOn.getLsbD i = (decide (i ≠ 11) && s.power.pdOn.getLsbD i)) ∧
           Safety.journals 0x901 2 (item 11 ++ item 3 ++ item mv.toNat) s t) ∧
         (pdSince s 11 + 6000 ≤ s.clk.opUs → exec (.domainNotUp 11 mv) s = .next s)) ∧
       (∀ (d : Fin 12) (k : DomainFaultKind) (x : HubSample), outOfLimits d k x = false →
         let shown := { s.sens with
           pdVi := sput {} s.sens.pdVi d { mv := sampleMv d x, ma := x.ma }, x1 := x.x1.getD s.sens.x1, bat := x.bat.getD s.sens.bat
           lplusA := x.lplusA.getD s.sens.lplusA, lplusB := x.lplusB.getD s.sens.lplusB }
         (x.bat = none → exec (.domainFault d k x) s = .next { s with sens := shown }) ∧
         (∀ mv, x.bat = some mv → ∃ t, exec (.domainFault d k x) s = .next t ∧
           Safety.Booked [2, 3] { s with sens := shown, rtc := { s.rtc with bat := mv, batLowUs := t.rtc.batLowUs, lbv := t.rtc.lbv } } t ∧
           (mv.toNat < 2400 → t.rtc.lbv = true ∧ (s.rtc.lbv = false → Safety.journals 0xB03 1 (item mv.toNat) s t)) ∧
           (2400 ≤ mv.toNat → s.rtc.lbv = false → t.rtc.lbv = false))) ∧
       (∀ (d : Fin 12) (k : DomainFaultKind) (x : HubSample), d.val = 0 ∨ d.val = 9 ∨ d.val = 10 → outOfLimits d k x = true →
         ∃ t, exec (.domainFault d k x) s = .next t ∧ Safety.Booked [2, 3] { s with sens := t.sens, rtc := { s.rtc with bat := t.rtc.bat, batLowUs := t.rtc.batLowUs, lbv := t.rtc.lbv } } t ∧
           t.sens.temps = s.sens.temps ∧
           Safety.journals 0x901 2 (item d ++ item (domainFaultCode k) ++ item (faultValue d k x).toNat) s t) ∧
       (∀ (d : Fin 12) (k : DomainFaultKind) (x : HubSample), d.val = 6 ∨ d.val = 7 ∨ d.val = 11 →
         s.power.pdOn.getLsbD d = true → outOfLimits d k x = true →
         ∃ t, exec (.domainFault d k x) s = .next t ∧
           Safety.Booked [2, 3] { s with
             sens := t.sens, rtc := { s.rtc with bat := t.rtc.bat, batLowUs := t.rtc.batLowUs, lbv := t.rtc.lbv }
             sw := { s.sw with ports := if d.val = 6 then s.sw.ports.map fun y => { y with up := false } else s.sw.ports }
             mgt := { s.mgt with asyncOpen := t.mgt.asyncOpen, asyncStatus := t.mgt.asyncStatus }
             power := { s.power with pdOn := t.power.pdOn, pdTripped := t.power.pdTripped, pdLocked := t.power.pdLocked } } t ∧
           t.mgt.asyncOpen = (if d.val = 6 then s.mgt.asyncOpen.filter fun x => decide (x.1 ≠ 0x0F) else s.mgt.asyncOpen) ∧
           (d.val ≠ 6 ∨ s.mgt.asyncCode ≠ 0x0F → t.mgt.asyncStatus = s.mgt.asyncStatus) ∧
           t.sens.temps = s.sens.temps ∧ ∀ i : Fin 12, t.power.pdOn.getLsbD i = (decide (i ≠ d) && s.power.pdOn.getLsbD i) ∧
             t.power.pdTripped.getLsbD i = (decide (i = d) || s.power.pdTripped.getLsbD i) ∧
             t.power.pdLocked.getLsbD i = (decide (i = d) || s.power.pdLocked.getLsbD i)) ∧
       (∀ (k : DomainFaultKind) (x : HubSample), s.power.pdOn.getLsbD 8 = true → outOfLimits 8 k x = true →
         ∃ t, exec (.domainFault 8 k x) s = .next t ∧
           t.power = { s.power with pdOn := t.power.pdOn, pdTripped := t.power.pdTripped, pdLocked := t.power.pdLocked } ∧
           (∀ i : Fin 12, t.power.pdOn.getLsbD i = (decide (i ≠ 8) && s.power.pdOn.getLsbD i) ∧
             t.power.pdTripped.getLsbD i = (decide (i = 8) || s.power.pdTripped.getLsbD i) ∧
             t.power.pdLocked.getLsbD i = (decide (i = 8) || s.power.pdLocked.getLsbD i)) ∧
           t.acq = { s.acq with sampling := false, capture := none } ∧ (s.mtr.running = true → t.mtr.frozen = true) ∧
           t.dio = s.dio ∧ t.lap = s.lap ∧
           Safety.journals 0x901 2 (item 8 ++ item (domainFaultCode k) ++ item (faultValue 8 k x).toNat) s t) ∧
       (∀ (k : DomainFaultKind) (x : HubSample), s.power.pdOn.getLsbD 1 = true → outOfLimits 1 k x = true →
         ∃ t, exec (.domainFault 1 k x) s = .next t ∧ t.power.state = .off ∧ t.power.hot = decide (950 ≤ (tempOf s 0).temp.toInt) ∧
           t.dio.on = 0 ∧ t.power.pdOn = 0x001) ∧
       (∀ (d : Fin 12) (mv : Half), d.val = 5 ∨ d.val = 6 ∨ d.val = 11 → s.power.state = .safeService →
         s.power.pdOn.getLsbD d = true → domainEnabled s d = true →
         (s.power.ssPdOn.getLsbD d = false ∨ s.clk.opUs < pdSince s d + 6000 → ∃ t, exec (.domainNotUp d mv) s = .next t ∧
           t.power.state = .safeService ∧ t.power.pdOn.getLsbD d = false ∧ t.power.pdTripped.getLsbD d = true ∧
           Safety.journals 0x901 2 (item d ++ item 3 ++ item mv.toNat) s t) ∧
         (s.power.ssPdOn.getLsbD d = true → pdSince s d + 6000 ≤ s.clk.opUs → exec (.domainNotUp d mv) s = .next s)) ∧
       (let raised := !(tempOf s n).warn && decide (950 < x.prev.toInt) && decide (950 < x.cur.toInt)
        ∃ t, exec (.tempWarning n x) s = .next t ∧ Safety.Booked [2, 3] { s with sens := { s.sens with temps := t.sens.temps } } t ∧
         tempOf t n = { tempOf s n with temp := x.cur, warn := (tempOf s n).warn || raised, warnSeen := (tempOf s n).warnSeen || raised } ∧
         (∀ m : Fin 6, m ≠ n → tempOf t m = tempOf s m) ∧
         (raised = true → Safety.journals 0x903 1 (item n ++ item x.cur.toNat) s t) ∧
         (x.prev.toInt ≤ 1100 ∨ x.cur.toInt ≤ 1100 → exec (.tempShutdown n x) s = .next t)) ∧
       (∃ t, exec (.tempNormal n x) s = .next t ∧ Safety.Booked [2, 3] { s with sens := { s.sens with temps := t.sens.temps } } t ∧
         tempOf t n = { tempOf s n with temp := x.cur, warn := (tempOf s n).warn && decide (900 ≤ x.cur.toInt) } ∧
         (∀ m : Fin 6, m ≠ n → tempOf t m = tempOf s m) ∧
         ((tempOf s n).warn = true → x.cur.toInt < 900 → Safety.journals 0x904 0 (item n) s t))) ∧
    (∀ (x : TempSamples) (s : State),
       (awake s = true → 1100 < x.prev.toInt → 1100 < x.cur.toInt → ∃ t, exec (.tempShutdown 0 x) s = .next t ∧
         t.power.state = .off ∧ t.power.hot = true) ∧
       (s.power.state = .off → exec (.tempNormal 0 x) s = .next
         (if x.cur.toInt < 950 then { s with power := { s.power with hot := false } } else s)))

/-! ### Safety, reflex networks, the bit path (R144 to R163, R240 to R246) -/

/-- R245, R246: while the table is not valid the BTP commands every output off; with a valid table it judges the mains by its monitored
phases, counting the time of a failure and of a return, and the rescue permission by its inputs and pairs, and commands the light
outputs, the transfer output and the rescue output accordingly; a change of the mains is recorded; it alone drives the outputs. So in
SAFE SERVICE and in each lap of BRING-UP; the first one there has PD5, the drivers and PD6 on. In any other state it does nothing. R242, R243: the switch-off test of a safety output pair that is
commanded on shows in CH_FAIL the channels whose readback was not as commanded; a pair commanded off whose readback stays 1
is STUCK and recorded, and clears when it reads 0; the readback shows it (R49). R162, R163: one reflex step runs every network's rung code from BA 0 and
FC 1 on the live inputs and the last commit's outputs, gives its result bit and its delay counts, and the outputs follow;
while the networks do not evaluate, or PD5 is off, nothing happens. -/
def Obligations.SafetyAndReflexDriveTheOutputs : Prop :=
    (∀ (a b c : List Int) (s : State),
       (s.power.state ≠ .bringUp → s.power.state ≠ .safeService → exec (.btpLap a b c) s = .next s) ∧
       (s.power.state = .safeService ∨ s.power.state = .bringUp ∧ s.saf.btpOn = true → s.power.pdOn.getLsbD 5 = true →
         let f := fun (i n : Nat) => leAt (ssTable s) i n
         let below := fun (pct : Nat) (xs : List Int) =>
           decide ((xs.map fun x => x.natAbs * x.natAbs).sum * f 24 2 ^ 2 < max xs.length 1 * 10000 * (f 22 2 * pct) ^ 2)
         let phases := ((List.range 3).filter fun p => (f 26 1).testBit p).map fun p => nth [] [a, b, c] p
         let low := phases.any (below (f 27 1))
         let high := phases.all fun p => !below (f 28 1) p
         let ft := if low then s.saf.failT + 100 else 0
         let rt := if high then s.saf.retT + 100 else 0
         let mains := if s.saf.btpFirst then (high, 0, 0)
           else if s.saf.mainsOk then (if f 30 2 ≤ ft then (false, ft, 0) else (true, ft, s.saf.retT))
           else (if f 32 4 ≤ rt then (true, 0, rt) else (false, s.saf.failT, rt))
         let di := fun (k : Nat) => (diFiltered s).getLsbD k
         let rescue := (∀ k < 32, (f 18 4).testBit k = true → di k = true) ∧
           ∀ n < 16, (f 14 2).testBit n = true → di (2 * n) = true ∧
             (if (f 16 2).testBit n = true then di (2 * n + 1) = false ∧ s.dio.opens.getLsbD (2 * n + 1) = false ∧
               (diGroup s ((2 * n + 1) / 8)).glost = false else di (2 * n + 1) = true)
         ∃ t, exec (.btpLap a b c) s = .next t ∧
         Safety.Booked [2, 3] { s with saf := t.saf, dio := t.dio, rfx := { s.rfx with hold := false, active := false }
                                       sbx := { s.sbx with held := false } } t ∧
         t.dio.waitCommit = s.dio.waitCommit &&& unsuppliedMask s ∧
         (s.saf.btpValid = false → t.dio.cmd = 0 ∧ t.saf = s.saf) ∧
         (s.saf.btpValid = true → t.dio.cmd = btpOutputs (ssTable s) t.saf.mainsOk t.saf.rescue ∧
           t.saf.transfer = !t.saf.mainsOk ∧ (t.saf.rescue = true ↔ rescue) ∧
           (t.saf.mainsOk, t.saf.failT, t.saf.retT) = mains ∧ t.saf.btpFirst = false ∧
           (∀ k : Fin 16, t.dio.cmd.getLsbD k = (if k.val = f 12 1 then (t.saf.rescue != (f 13 1 == 1))
             else if k.val = f 10 1 then (!t.saf.mainsOk != (f 11 1 == 1)) else (f 8 2).testBit k)) ∧
           (s.saf.btpFirst = false → t.saf.mainsOk ≠ s.saf.mainsOk → ∃ r ∈ t.log.sjQueue.drop s.log.sjQueue.length,
             r.code = 0x431 ∧ r.severity = 1 ∧ r.optMs = opMs s ∧ r.items.take 4 = item (b2n t.saf.mainsOk)))) ∧
       (s.power.state = .bringUp → s.saf.btpOn = false → s.power.pdLocked.getLsbD 5 = false →
         ∃ t, exec (.btpLap a b c) s = .next t ∧ t.saf.btpOn = true ∧ t.power.driversOn = true ∧
           t.power.pdOn.getLsbD 5 = true ∧ (s.power.pdLocked.getLsbD 6 = false → domainEnabled s 6 = true →
             t.power.pdOn.getLsbD 6 = true) ∧ t.power.state = .bringUp ∧ t.power.loadStep = s.power.loadStep)) ∧
    (∀ (m : Fin 8) (even odd : Bool) (s : State),
       (spairActs s (2 * m) = true → pairedCommand s (2 * m) = true → s.sbx.held = false →
         ∃ t, exec (.switchOffTest m even odd) s = .next t ∧
           Safety.Booked [2, 3] { s with saf := { s.saf with chFail := t.saf.chFail } } t ∧
           (∀ k : Fin 16, t.saf.chFail.getLsbD k =
             (if k.val = 2 * m then !odd else if k.val = 2 * m + 1 then !even else s.saf.chFail.getLsbD k)) ∧
           (odd = false → Safety.journals 0x422 2 (item (2 * m)) s t) ∧
           (even = false → Safety.journals 0x422 2 (item (2 * m + 1)) s t)) ∧
       (spairActs s (2 * m) = true → pairedCommand s (2 * m) = false → s.saf.stuck.getLsbD m = false →
         ∃ t, exec (.spairStuckOn m) s = .next t ∧
           Safety.Booked [2, 3] { s with saf := { s.saf with stuck := t.saf.stuck }, dio := { s.dio with readback := t.dio.readback } } t ∧
           (∀ k : Fin 8, t.saf.stuck.getLsbD k = (decide (k = m) || s.saf.stuck.getLsbD k)) ∧
           (∀ k : Fin 16, t.dio.readback.getLsbD k = (decide (k.val / 2 = m) || s.dio.readback.getLsbD k)) ∧
           Safety.journals 0x421 2 (item m) s t) ∧
       (∃ t, exec (.spairStuckCleared m) s = .next t ∧
         t = { s with saf := { s.saf with stuck := t.saf.stuck }, dio := { s.dio with readback := t.dio.readback } } ∧
         (∀ k : Fin 8, t.saf.stuck.getLsbD k = (decide (k ≠ m) && s.saf.stuck.getLsbD k)) ∧
         ∀ k : Fin 16, t.dio.readback.getLsbD k = (decide (k.val / 2 ≠ m) && s.dio.readback.getLsbD k))) ∧
    (∀ s : State,
       (s.rfx.active = false ∨ s.power.pdOn.getLsbD 5 = false → exec .reflexStep s = .next s) ∧
       (s.rfx.active = true → s.power.pdOn.getLsbD 5 = true → ∃ t, exec .reflexStep s = .next t ∧
         t = { s with rfx := { s.rfx with res := t.rfx.res, delays := t.rfx.delays }
                      dio := { s.dio with on := t.dio.on, openLoad := t.dio.openLoad, backfeed := t.dio.backfeed
                                          readback := t.dio.readback } } ∧
         (∀ k, k < 64 → ∀ n : Net, (netsOf s)[k]? = some (k, n) →
           t.rfx.res.getLsbD k = (rungRun s n.code (nth [] s.rfx.delays k)).ba ∧
           t.rfx.delays[k]? = some (rungRun s n.code (nth [] s.rfx.delays k)).done) ∧
         (∀ k : Fin 16, t.dio.on.getLsbD k = outputOn t k)))

/-- R154, R155: a load takes its operand into BA; AND, OR and XOR and their negated forms combine it with BA, or load it
where FC is 1; FC is 0 after each. An open saves BA, FC and its operation and loads its operand; the close combines BA with
what was saved. Nothing else changes but counts and the position. -/
def Obligations.LoadsCombineAndNest : Prop :=
  ∀ (a : Area) (i : BitVec 20) (s : State), executing s = true →
    let v := bitRead s a i.toNat
    let op := fun (x : Bool) (f : Bool → Bool → Bool) =>
      { s.bu with ba := if s.bu.fc then x else f s.bu.ba x, fc := false }
    let nest := fun (k : BitVec 3) => { s.bu with
      ba := v, fc := false, stack := { ba := s.bu.ba, fc := s.bu.fc, op := k } :: s.bu.stack
      maxDepth := BitVec.ofNat 5 (max s.bu.maxDepth.toNat (s.bu.stack.length + 1)) }
    (readable a = true → i.toNat < areaBits s a → s.bu.badParity.contains (a, i.toNat / 32) = false →
      exec (.ld a i) s = .next (Safety.bitDone { s.bu with ba := v, fc := false } s) ∧
      exec (.ldn a i) s = .next (Safety.bitDone { s.bu with ba := !v, fc := false } s) ∧
      exec (.bitAnd a i) s = .next (Safety.bitDone (op v and) s) ∧
      exec (.bitAndn a i) s = .next (Safety.bitDone (op (!v) and) s) ∧
      exec (.bitOr a i) s = .next (Safety.bitDone (op v or) s) ∧
      exec (.bitOrn a i) s = .next (Safety.bitDone (op (!v) or) s) ∧
      exec (.bitXor a i) s = .next (Safety.bitDone (op v xor) s) ∧
      exec (.bitXorn a i) s = .next (Safety.bitDone (op (!v) xor) s) ∧
      (s.bu.stack.length < 16 → exec (.openAnd a i) s = .next (Safety.bitDone (nest 0) s) ∧
        exec (.openAndn a i) s = .next (Safety.bitDone (nest 1) s) ∧
        exec (.openOr a i) s = .next (Safety.bitDone (nest 2) s) ∧
        exec (.openOrn a i) s = .next (Safety.bitDone (nest 3) s) ∧
        exec (.openXor a i) s = .next (Safety.bitDone (nest 4) s) ∧
        exec (.openXorn a i) s = .next (Safety.bitDone (nest 5) s))) ∧
    (∀ (e : BranchEntry) (es : List BranchEntry), s.bu.stack = e :: es →
      let x := if e.op.getLsbD 0 then !s.bu.ba else s.bu.ba
      exec .close s = .next (Safety.bitDone { s.bu with
        stack := es, fc := false
        ba := if e.fc then x else if e.op.toNat / 2 = 0 then e.ba && x else if e.op.toNat / 2 = 1 then e.ba || x
              else xor e.ba x } s)) ∧
    exec .nop s = .next (Safety.bitDone s.bu s) ∧
    exec .bitNot s = .next (Safety.bitDone { s.bu with ba := !s.bu.ba, fc := false } s) ∧
    exec .setba s = .next (Safety.bitDone { s.bu with ba := true, fc := false } s) ∧
    exec .clrba s = .next (Safety.bitDone { s.bu with ba := false, fc := false } s)

/-- R137, R155, R156: ST writes BA into its operand in Q, M or D, SET a 1 and RST a 0 where BA is 1; no other bit of the area
changes. LDI and STI reach the bit INDEX + ACC1; BTOW and WTOB move BA to ACC1 and back. R144, R205: FP gives 1 where BA has
risen against its cell, FN where it has fallen, and the cell takes BA; a cell that is fresh gives 0 at its first execution.
R155, R157: a jump goes to the following word plus its signed offset, JMPC where BA is 1 and JMPCN where it is 0, and sets
FC. That BTOW, WTOB, LDI and STI leave BU.LAP_BITS uncounted is the model's choice (log 19, DEDUCED), and so is the sum INDEX + ACC1
that does not wrap (log 20, DEDUCED). -/
def Obligations.BitStoresEdgesAndJumps : Prop :=
    (∀ (a : Area) (i : BitVec 20) (s : State), executing s = true → Safety.storesWf s →
       (writable a = true → i.toNat < areaBits s a →
         exec (.st a i) s = .next (Safety.bitDone s.bu (bitWrite a i.toNat s.bu.ba s)) ∧
         exec (.bitSet a i) s = .next (Safety.bitDone s.bu (if s.bu.ba then bitWrite a i.toNat true s else s)) ∧
         exec (.rst a i) s = .next (Safety.bitDone s.bu (if s.bu.ba then bitWrite a i.toNat false s else s)) ∧
         ∀ b, bitRead (bitWrite a i.toNat b s) a i.toNat = b ∧
           ∀ j, j ≠ i.toNat → j < areaBits s a → bitRead (bitWrite a i.toNat b s) a j = bitRead s a j) ∧
       (let n := i.toNat + s.bx.acc1.toNat
        let word := fun (bu : Bu) (bx : Bx) (t : State) => settle 33 { t with
          bu := { bu with instr := s.bu.instr + 1 }
          bx := { bx with seen := s.bx.seen ||| (flagWord s.bx >>> 4).setWidth 4, pos := { s.bx.pos with offset := s.bx.pos.offset + 1 } } }
        exec .btow s = .next (word s.bu { s.bx with acc1 := if s.bu.ba then 1 else 0 } s) ∧
        exec .wtob s = .next (word { s.bu with ba := decide (s.bx.acc1 ≠ 0), fc := false } s.bx s) ∧
        (readable a = true → n < areaBits s a → s.bu.badParity.contains (a, n / 32) = false →
          exec (.ldi a i) s = .next (word { s.bu with ba := bitRead s a n, fc := false } s.bx s)) ∧
        (writable a = true → n < areaBits s a →
          exec (.sti a i) s = .next (word s.bu s.bx (bitWrite a n s.bu.ba s))))) ∧
    (∀ (i : BitVec 20) (s : State), executing s = true →
       (i.toNat < 16384 → s.bu.badParity.contains (.e, i.toNat / 32) = false →
         let img := imgOf s
         let cell := if img.fresh.contains i.toNat then s.bu.ba else img.e.getLsbD i.toNat
         let after := lapWrites (9216 + i.toNat / 8) 1
           (setImg { img with e := setBit img.e i.toNat s.bu.ba, fresh := img.fresh.filter (· ≠ i.toNat) } s)
         exec (.fp i) s = .next (Safety.bitDone { s.bu with ba := s.bu.ba && !cell, fc := false } after) ∧
         exec (.fn i) s = .next (Safety.bitDone { s.bu with ba := !s.bu.ba && cell, fc := false } after)) ∧
       (let target : Int := s.bx.pos.offset + 1 + i.toInt
        let at_ := fun (n : Nat) => settle 33 { s with
          bu := { s.bu with fc := true, instr := s.bu.instr + 1, curBits := satInc s.bu.curBits }
          bx := { s.bx with pos := { s.bx.pos with offset := n } } }
        jumpTarget s target = true →
          exec (.jmp i) s = .next (at_ target.toNat) ∧
          exec (.jmpc i) s = .next (at_ (if s.bu.ba then target.toNat else s.bx.pos.offset + 1)) ∧
          exec (.jmpcn i) s = .next (at_ (if s.bu.ba then s.bx.pos.offset + 1 else target.toNat))))

/-- R134, R135, R156, R158, R159, R170, R175, R181: what abandons a lap of a unit in RUN from within an instruction, with the fault
code and the Safe Service cause: an open at depth 16 and a close at depth 0 (0x0231); a parity error in image memory under any
load, open, combination, edge or element read (0x0230); an index out of range under LDI, STI, LX and SX (0x0212); an indexed
store to an area that is read-only (0x0213); a call at level 32 (0x0211); a division by 0 in a TRAP_DZ block (0x0241).
The sum INDEX + ACC that does not wrap (log 20, DEDUCED), 0x0213 over the verifier's rejection (log 21), and image memory's words
of 32 bits (log 76) are the model's choices. -/
def Obligations.FaultsAbandonTheLap : Prop :=
  ∀ (a : Area) (i : BitVec 20) (s : State), executing s = true → s.lap.running = .lap ∨ s.lap.running = .shadow →
    s.power.state = .run →
    let stops := fun (c : Instr) (code : Half) (cause : Nat) =>
      ∃ t, exec c s = .next t ∧ Safety.inSafeService cause t ∧ (code ≠ 0x230 → t.lap.fault = code)
    let n := i.toNat + s.bx.acc1.toNat
    let n2 := i.toNat + s.bx.acc2.toNat
    let bad := fun (b : Area) (k : Nat) => s.bu.badParity.contains (b, k / 32) = true
    (readable a = true → imageArea a = true → i.toNat < areaBits s a → bad a i.toNat →
      ∀ c ∈ [Instr.ld a i, .ldn a i, .bitAnd a i, .bitAndn a i, .bitOr a i, .bitOrn a i, .bitXor a i, .bitXorn a i, .openAnd a i,
        .openAndn a i, .openOr a i, .openOrn a i, .openXor a i, .openXorn a i], stops c 0x230 5) ∧
    (readable a = true → imageArea a = true → n < areaBits s a → bad a n → stops (.ldi a i) 0x230 5) ∧
    (i.toNat < 16384 → bad .e i.toNat → stops (.fp i) 0x230 5 ∧ stops (.fn i) 0x230 5) ∧
    (readable a = true → imageArea a = true → elemFits s a 32 i.toNat = true → bad a (i.toNat * 32) →
      stops (.l32 a i) 0x230 5 ∧ stops (.lo32 a i) 0x230 5) ∧
    (readable a = true → imageArea a = true → elemFits s a 16 i.toNat = true → bad a (i.toNat * 16) →
      stops (.l16 a i) 0x230 5 ∧ stops (.lo16 a i) 0x230 5) ∧
    (readable a = true → imageArea a = true → elemFits s a 32 n = true → bad a (n * 32) → stops (.lx32 a i) 0x230 5) ∧
    (readable a = true → imageArea a = true → elemFits s a 16 n = true → bad a (n * 16) → stops (.lx16 a i) 0x230 5) ∧
    (readable a = true → i.toNat < areaBits s a → s.bu.badParity.contains (a, i.toNat / 32) = false →
      16 ≤ s.bu.stack.length →
      stops (.openAnd a i) 0x231 5 ∧ stops (.openAndn a i) 0x231 5 ∧ stops (.openOr a i) 0x231 5 ∧
      stops (.openOrn a i) 0x231 5 ∧ stops (.openXor a i) 0x231 5 ∧ stops (.openXorn a i) 0x231 5) ∧
    (s.bu.stack = [] → stops .close 0x231 5) ∧
    (readable a = true → areaBits s a ≤ n → stops (.ldi a i) 0x212 3) ∧
    (writable a = true → areaBits s a ≤ n → stops (.sti a i) 0x212 3) ∧
    (readable a = true → writable a = false → stops (.sti a i) 0x213 3 ∧ stops (.sx32 a i) 0x213 3 ∧ stops (.sx16 a i) 0x213 3) ∧
    (readable a = true → elemFits s a 32 n = false → stops (.lx32 a i) 0x212 3) ∧
    (readable a = true → elemFits s a 16 n = false → stops (.lx16 a i) 0x212 3) ∧
    (writable a = true → elemFits s a 32 n2 = false → stops (.sx32 a i) 0x212 3) ∧
    (writable a = true → elemFits s a 16 n2 = false → stops (.sx16 a i) 0x212 3) ∧
    (32 ≤ s.bx.level.toNat → funcExists i.toNat s = true → stops (.call i) 0x211 3) ∧
    (32 ≤ s.bx.level.toNat → funcExists s.bx.acc1.toNat s = true → stops .calli 0x211 3) ∧
    (funcExists s.bx.acc1.toNat s = false → stops .calli 0x212 3) ∧
    (s.bx.acc2 = 0 → trapDz s = true → stops .div 0x241 3 ∧ stops .mod 0x241 3 ∧ stops .divu 0x241 3 ∧ stops .modu 0x241 3)

/-- R157, R174, R178, R188: an instruction word whose operand the verifier rejects never runs: the model refuses it under its
name, and it has no other effect. While no program executes no instruction has an effect (log 10). -/
def Obligations.RejectedOperandsAreRefused : Prop :=
  ∀ (a : Area) (i : BitVec 20) (n : BitVec 7) (s : State),
    (executing s = true →
      (readable a = false ∨ areaBits s a ≤ i.toNat → ∀ p ∈ [(Instr.ld a i, "LD"), (.ldn a i, "LDN"), (.bitAnd a i, "AND"),
          (.bitAndn a i, "ANDN"), (.bitOr a i, "OR"), (.bitOrn a i, "ORN"), (.bitXor a i, "XOR"), (.bitXorn a i, "XORN"),
          (.openAnd a i, "OPEN_AND"), (.openAndn a i, "OPEN_ANDN"), (.openOr a i, "OPEN_OR"), (.openOrn a i, "OPEN_ORN"),
          (.openXor a i, "OPEN_XOR"), (.openXorn a i, "OPEN_XORN")],
        exec p.1 s = .refused (.verifierRejects p.2)) ∧
      (writable a = false ∨ areaBits s a ≤ i.toNat → ∀ p ∈ [(Instr.st a i, "ST"), (.bitSet a i, "SET"), (.rst a i, "RST")],
        exec p.1 s = .refused (.verifierRejects p.2)) ∧
      (16384 ≤ i.toNat → exec (.fp i) s = .refused (.verifierRejects "FP") ∧ exec (.fn i) s = .refused (.verifierRejects "FN")) ∧
      (jumpTarget s (s.bx.pos.offset + 1 + i.toInt) = false → ∀ p ∈ [(Instr.jmp i, "JMP"), (.jmpc i, "JMPC"), (.jmpcn i, "JMPCN")],
        exec p.1 s = .refused (.verifierRejects p.2)) ∧
      (readable a = false → ∀ p ∈ [(Instr.ldi a i, "LDI"), (.sti a i, "STI"), (.lx32 a i, "LX32"), (.lx16 a i, "LX16"),
          (.sx32 a i, "SX32"), (.sx16 a i, "SX16")], exec p.1 s = .refused (.verifierRejects p.2)) ∧
      (readable a = false ∨ elemFits s a 32 i.toNat = false →
        exec (.l32 a i) s = .refused (.verifierRejects "L32") ∧ exec (.lo32 a i) s = .refused (.verifierRejects "LO32")) ∧
      (readable a = false ∨ elemFits s a 16 i.toNat = false →
        exec (.l16 a i) s = .refused (.verifierRejects "L16") ∧ exec (.lo16 a i) s = .refused (.verifierRejects "LO16")) ∧
      (writable a = false ∨ elemFits s a 32 i.toNat = false →
        exec (.st32 a i) s = .refused (.verifierRejects "ST32") ∧ exec (.stx a i) s = .refused (.verifierRejects "STX")) ∧
      (writable a = false ∨ elemFits s a 16 i.toNat = false → exec (.st16 a i) s = .refused (.verifierRejects "ST16")) ∧
      (funcExists i.toNat s = false → exec (.call i) s = .refused (.verifierRejects "CALL")) ∧
      (sysBlockKnown n.toNat = false → exec (.callsb n) s = .refused (.verifierRejects "CALLSB"))) ∧
    (executing s = false → ∀ c ∈ [Instr.nop, .ld a i, .st a i, .close, .jmp i, .ldi a i, .l32 a i, .st32 a i, .add, .div, .lt,
      .addr, .macx, .call i, .callsb n, .ret, .ton, .raise, .lbSend], exec c s = .next s)

/-! ### The word path (R170 to R187) -/

/-- R174, R175, R176, R178: what the loads give. A 16-bit element is sign-extended; L32, L16, LX32, LX16, LI, LIH and LK load
ACC1; LO32, LO16 and LIO load ACC2; LX takes element INDEX + ACC1; SWAP exchanges and DUP copies. Nothing else changes but
the counts and the position, which LK moves by two words. -/
def Obligations.WordLoadsReachTheirElements : Prop :=
  ∀ (a : Area) (i : BitVec 20) (imm : BitVec 24) (hi : BitVec 16) (lit : Word) (s : State), executing s = true →
    let ok := fun (w e : Nat) => readable a = true ∧ elemFits s a w e = true ∧ s.bu.badParity.contains (a, e * w / 32) = false
    let at32 := fun (e : Nat) => BitVec.ofNat 32 (elemRead s a 32 e)
    let at16 := fun (e : Nat) => (BitVec.ofNat 16 (elemRead s a 16 e)).signExtend 32
    let x := i.toNat + s.bx.acc1.toNat
    let acc1 := fun (n : Nat) (v : Word) => Safety.wordDone n { s.bx with acc1 := v } s
    let acc2 := fun (v : Word) => Safety.wordDone 1 { s.bx with acc2 := v } s
    (ok 32 i.toNat → exec (.l32 a i) s = .next (acc1 1 (at32 i.toNat)) ∧ exec (.lo32 a i) s = .next (acc2 (at32 i.toNat))) ∧
    (ok 16 i.toNat → exec (.l16 a i) s = .next (acc1 1 (at16 i.toNat)) ∧ exec (.lo16 a i) s = .next (acc2 (at16 i.toNat))) ∧
    (ok 32 x → exec (.lx32 a i) s = .next (acc1 1 (at32 x))) ∧
    (ok 16 x → exec (.lx16 a i) s = .next (acc1 1 (at16 x))) ∧
    exec (.li imm) s = .next (acc1 1 (imm.signExtend 32)) ∧
    exec (.lio imm) s = .next (acc2 (imm.signExtend 32)) ∧
    exec (.lih hi) s = .next (acc1 1 (hi ++ s.bx.acc1.setWidth 16)) ∧
    exec (.lk lit) s = .next (acc1 2 lit) ∧
    exec .swap s = .next (Safety.wordDone 1 { s.bx with acc1 := s.bx.acc2, acc2 := s.bx.acc1 } s) ∧
    exec .dup s = .next (acc2 s.bx.acc1)

/-- R137, R174, R175, R187: a store writes ACC1, or its low 16 bits, to one element of Q, M or D; SX takes element INDEX +
ACC2; STX stores ACX, clamped to 32 bits with V. Reading that element gives what was stored, and every other bit of the area
reads as before. -/
def Obligations.WordStoresWriteOneElement : Prop :=
  ∀ (a : Area) (i : BitVec 20) (s : State), executing s = true → writable a = true → Safety.storesWf s →
    let x := i.toNat + s.bx.acc2.toNat
    let put := fun (w e v : Nat) => Safety.wordDone 1 s.bx (elemWrite a w e v s)
    (elemFits s a 32 i.toNat = true → exec (.st32 a i) s = .next (put 32 i.toNat s.bx.acc1.toNat)) ∧
    (elemFits s a 16 i.toNat = true → exec (.st16 a i) s = .next (put 16 i.toNat s.bx.acc1.toNat)) ∧
    (elemFits s a 32 x = true → exec (.sx32 a i) s = .next (put 32 x s.bx.acc1.toNat)) ∧
    (elemFits s a 16 x = true → exec (.sx16 a i) s = .next (put 16 x s.bx.acc1.toNat)) ∧
    (elemFits s a 32 i.toNat = true →
      let t := s.bx.acx.toInt
      let v := decide (t < -2147483648) || decide (2147483647 < t)
      let w : Word := BitVec.ofInt 32 (max (-2147483648) (min 2147483647 t))
      exec (.stx a i) s = .next (Safety.wordDone 1
        { s.bx with z := w == 0, n := w.getLsbD 31, c := false, v := v, vs := s.bx.vs || v }
        (elemWrite a 32 i.toNat w.toNat s))) ∧
    ∀ w ∈ [16, 32], ∀ e v : Nat, elemFits s a w e = true →
      elemRead (elemWrite a w e v s) a w e = v % 2 ^ w ∧
      (∀ k, (k < e * w ∨ (e + 1) * w ≤ k) → k < areaBits s a → bitRead (elemWrite a w e v s) a k = bitRead s a k) ∧
      ∀ b : Area, b ≠ a → ∀ k, bitRead (elemWrite a w e v s) b k = bitRead s b k

/-- R177, R179 to R181, R185: integer arithmetic on ACC1 and ACC2. The true result that leaves its type sets V and, in a SAT
block, is clamped, else wraps; C is the carry or the borrow; division truncates toward zero and the remainder has the
dividend's sign; a division by 0 in a block without TRAP_DZ sets DZ, counts, and gives the pinned results. R176, R177, R182:
the logical operations, shifts and rotates of ACC1. A shift takes ACC2 bits 7:0 as its count; C is the last bit moved out,
and a count of 0 clears it; a long shift gives zeros, or for SAR the sign. -/
def Obligations.IntegerArithmeticAndShifts : Prop :=
    (∀ s : State, executing s = true →
       let a := s.bx.acc1
       let b := s.bx.acc2
       let out := fun (signed : Bool) (t : Int) =>
         if signed then decide (t < -2147483648) || decide (2147483647 < t) else decide (t < 0) || decide (4294967295 < t)
       let fit := fun (signed : Bool) (t : Int) => BitVec.ofInt 32
         (if satMode s then (if signed then max (-2147483648) (min 2147483647 t) else max 0 (min 4294967295 t)) else t)
       let gives := fun (c : Instr) (signed : Bool) (t : Int) (carry : Bool) =>
         exec c s = .next (Safety.result (fit signed t) carry (out signed t) s)
       let byZero := fun (c : Instr) (w : Word) => exec c s = .next (Safety.wordDone 1
         { s.bx with acc1 := w, z := w == 0, n := w.getLsbD 31, c := false, v := false, dz := true, dzCount := satInc s.bx.dzCount } s)
       gives .add true (a.toInt + b.toInt) (decide (2 ^ 32 ≤ a.toNat + b.toNat)) ∧
       gives .sub true (a.toInt - b.toInt) (decide (a.toNat < b.toNat)) ∧
       gives .mul true (a.toInt * b.toInt) false ∧
       gives .neg true (-a.toInt) false ∧
       gives .abs true |a.toInt| false ∧
       gives .addu false (a.toNat + b.toNat) (decide (2 ^ 32 ≤ a.toNat + b.toNat)) ∧
       gives .subu false (a.toNat - b.toNat) (decide (a.toNat < b.toNat)) ∧
       gives .mulu false (a.toNat * b.toNat) false ∧
       (b ≠ 0 →
         gives .div true (a.toInt.tdiv b.toInt) false ∧
         gives .divu false (a.toNat / b.toNat) false ∧
         exec .mod s = .next (Safety.result (BitVec.ofInt 32 (a.toInt.tmod b.toInt)) false false s) ∧
         exec .modu s = .next (Safety.result (BitVec.ofNat 32 (a.toNat % b.toNat)) false false s)) ∧
       (b = 0 → trapDz s = false →
         byZero .div (if a.toInt < 0 then 0x80000000 else 0x7FFFFFFF) ∧ byZero .divu 0xFFFFFFFF ∧
         byZero .mod a ∧ byZero .modu a) ∧
       (let low := (a.setWidth 16).signExtend 32
        exec .itos s = .next (Safety.result
          (if low = a then a else if satMode s then (if a.toInt < 0 then 0xFFFF8000 else 0x7FFF) else low) false (decide (low ≠ a)) s))) ∧
    (∀ s : State, executing s = true →
       let a := s.bx.acc1
       let b := s.bx.acc2
       let c := b.toNat % 256
       let gives := fun (i : Instr) (w : Word) (carry : Bool) => exec i s = .next (Safety.result w carry false s)
       gives .wordAnd (a &&& b) false ∧ gives .wordOr (a ||| b) false ∧ gives .wordXor (a ^^^ b) false ∧ gives .inv (~~~a) false ∧
       gives .shl (a <<< c) (decide (1 ≤ c) && decide (c ≤ 32) && a.getLsbD (32 - c)) ∧
       gives .shr (a >>> c) (decide (1 ≤ c) && a.getLsbD (c - 1)) ∧
       gives .sar (a.sshiftRight (min c 31)) (decide (1 ≤ c) && a.getLsbD (min (c - 1) 31)) ∧
       gives .rol (a.rotateLeft (c % 32)) (decide (c % 32 ≠ 0) && (a.rotateLeft (c % 32)).getLsbD 0) ∧
       gives .ror (a.rotateRight (c % 32)) (decide (c % 32 ≠ 0) && (a.rotateRight (c % 32)).getLsbD 31))

/-- R177, R178, R183: a comparison gives BA, with FC 0, and leaves both operands. The integer ones set the flags of ACC1 −
ACC2 under the block's mode (log 22); the REAL32 ones show equal in Z and less in N, and with a NaN all give 0 but NER. -/
def Obligations.ComparisonsGiveBA : Prop :=
  ∀ s : State, executing s = true →
    let a := s.bx.acc1
    let b := s.bx.acc2
    let cmp := fun (i : Instr) (t : Int) (lo hi : Int) (ba : Bool) =>
      let v := decide (t < lo) || decide (hi < t)
      let w := BitVec.ofInt 32 (if satMode s then max lo (min hi t) else t)
      exec i s = .next (Safety.wordDone 1
        { s.bx with z := w == 0, n := w.getLsbD 31, c := decide (a.toNat < b.toNat), v := v, vs := s.bx.vs || v }
        { s with bu := { s.bu with ba := ba, fc := false } })
    let cmpS := fun (i : Instr) (ba : Bool) => cmp i (a.toInt - b.toInt) (-2147483648) 2147483647 ba
    let cmpU := fun (i : Instr) (ba : Bool) => cmp i (a.toNat - b.toNat) 0 4294967295 ba
    let cmpR := fun (i : Instr) (less equal : Bool) (ba : Bool) => exec i s = .next (Safety.wordDone 1
      { s.bx with z := equal, n := less, c := false, v := false, fe := s.bx.fe || (realSpecial a || realSpecial b) }
      { s with bu := { s.bu with ba := ba, fc := false } })
    cmpS .eq (a == b) ∧ cmpS .ne (a != b) ∧ cmpS .lt (BitVec.slt a b) ∧ cmpS .le (BitVec.sle a b) ∧
    cmpS .gt (BitVec.slt b a) ∧ cmpS .ge (BitVec.sle b a) ∧
    cmpU .ltu (BitVec.ult a b) ∧ cmpU .leu (BitVec.ule a b) ∧ cmpU .gtu (BitVec.ult b a) ∧ cmpU .geu (BitVec.ule b a) ∧
    (∀ less equal, realCmp a b = some (less, equal) →
      cmpR .eqr less equal equal ∧ cmpR .ner less equal (!equal) ∧ cmpR .ltr less equal less ∧
      cmpR .ler less equal (less || equal) ∧ cmpR .gtr less equal (!(less || equal)) ∧ cmpR .ger less equal (!less)) ∧
    (realOf a = .nan ∨ realOf b = .nan →
      (∀ i ∈ [Instr.eqr, .ltr, .ler, .gtr, .ger], cmpR i false false false) ∧ cmpR .ner false false true)

/-- R177, R183, R184: a REAL32 operation writes ACC1 with Z for either zero, N its sign, C and V 0; FE where an operand or
the result is an infinity or a NaN; DIVR sets DZ for a finite value other than 0 by 0. A NaN operand gives 0x7FC00000; a
conversion to an integer shows in V what it could not hold. R183, R184: a whole number of at most 24 bits survives the way to
REAL32 and back, by either rounding, without V; so it does not depend on how a result is rounded. R183: whole numbers whose sum,
difference, product, quotient or root is whole and of at most 24 bits are added, subtracted, multiplied, divided and rooted
exactly; a finite value other than 0 divided by either zero is the infinity of the two signs; opposed infinities, a zero by a
zero and the root of a value below −0 give the quiet NaN; a tie goes to the even neighbour and a subnormal is kept. -/
def Obligations.RealArithmeticAndConversions : Prop :=
    (∀ s : State, executing s = true →
       let a := s.bx.acc1
       let b := s.bx.acc2
       let flt := fun (w : Word) (fe dz : Bool) => Safety.wordDone 1
         { s.bx with acc1 := w, z := w == 0 || w == 0x80000000, n := w.getLsbD 31, c := false, v := false
                     fe := s.bx.fe || fe, dz := s.bx.dz || dz } s
       let two := fun (i : Instr) (w : Word) (dz : Bool) =>
         exec i s = .next (flt w (realSpecial a || realSpecial b || realSpecial w) dz) ∧
         (realOf a = .nan ∨ realOf b = .nan → w = 0x7FC00000)
       let one := fun (i : Instr) (w : Word) =>
         exec i s = .next (flt w (realSpecial a || realSpecial w) false) ∧ (realOf a = .nan → w = 0x7FC00000)
       let toInt := fun (i : Instr) (near : Bool) =>
         let r := realToInt near a
         exec i s = .next (Safety.wordDone 1
           { s.bx with acc1 := r.1, z := r.1 == 0, n := r.1.getLsbD 31, c := false, v := r.2, vs := s.bx.vs || r.2
                       fe := s.bx.fe || realSpecial a } s) ∧
         (realOf a = .nan → r = (0, true)) ∧
         (realSpecial a = true → realOf a ≠ .nan → r = (if a.getLsbD 31 then 0x80000000 else 0x7FFFFFFF, true))
       two .addr (realAdd a b) false ∧ two .subr (realSub a b) false ∧ two .mulr (realMul a b) false ∧
       two .divr (realDiv a b) (realDivZero a b) ∧
       (realDivZero a b = true ↔ realSpecial a = false ∧ a &&& 0x7FFFFFFF ≠ 0 ∧ b &&& 0x7FFFFFFF = 0) ∧
       one .negr (realNeg a) ∧ one .absr (realAbs a) ∧ one .sqrtr (realSqrt a) ∧
       exec .itor s = .next (flt (realOfSigned a) false false) ∧ exec .utor s = .next (flt (realOfUnsigned a) false false) ∧
       toInt .rtoi true ∧ toInt .rtoit false) ∧
    (∀ (near : Bool) (a : Word),
       (-16777216 ≤ a.toInt → a.toInt ≤ 16777216 → realToInt near (realOfSigned a) = (a, false)) ∧
       (a.toNat ≤ 16777216 → realToInt near (realOfUnsigned a) = (a, false)) ∧
       realNeg (realNeg (realOfSigned a)) = realOfSigned a) ∧
    (∀ x y : Int,
       let r := fun (n : Int) => realOfSigned (BitVec.ofInt 32 n)
       (|x| + |y| ≤ 16777216 → realAdd (r x) (r y) = r (x + y) ∧ realSub (r x) (r y) = r (x - y)) ∧
       (|x| ≤ 16777216 → |y| ≤ 16777216 → |x * y| ≤ 16777216 →
         (x * y ≠ 0 → realMul (r x) (r y) = r (x * y) ∧ realDiv (r (x * y)) (r y) = r x) ∧
         (x * y = 0 → realMul (r x) (r y) = if x < 0 ∨ y < 0 then 0x80000000 else 0)) ∧
       (0 ≤ x → x ≤ 4096 → realSqrt (r (x * x)) = r x)) ∧
    (∀ a b : Word,
       (realDivZero a b = true → realDiv a b = if a.getLsbD 31 = b.getLsbD 31 then 0x7F800000 else 0xFF800000) ∧
       (a &&& 0x7FFFFFFF = 0 → b &&& 0x7FFFFFFF = 0 → realDiv a b = 0x7FC00000 ∧ realSqrt a = a) ∧
       (realSpecial a = true → realOf a ≠ .nan → realSub a a = 0x7FC00000 ∧ realAdd a a = a ∧ realDiv a a = 0x7FC00000) ∧
       (realOf a ≠ .nan → a.getLsbD 31 = true → a &&& 0x7FFFFFFF ≠ 0 → realSqrt a = 0x7FC00000) ∧
       (a.toNat < 0x800000 → b.toNat < 0x800000 → realAdd a b = a + b)) ∧
    (∀ n, n < 8388608 → realOfUnsigned (BitVec.ofNat 32 (16777216 + 2 * n + 1)) =
       realOfUnsigned (BitVec.ofNat 32 (16777216 + 2 * (n + n % 2))))

/-- R177, R186, R187: CLRX clears ACX and GOV; ADDX adds ACC1 and MACX the product of the two low halves, and a sum that
leaves 40 bits is clamped to the largest magnitude and sets GOV, while which nothing accumulates or shifts; SARX shifts by
ACC2 bits 7:0. CLRF clears VS, DZ and FE; LDF shows all eight flags; TSTF tests one. -/
def Obligations.AccumulatorAndFlags : Prop :=
  ∀ (bit : BitVec 3) (s : State), executing s = true →
    let x := s.bx.acx
    let flags : List Bool := [s.bx.z, s.bx.n, s.bx.c, s.bx.v, s.bx.vs, s.bx.dz, s.bx.gov, s.bx.fe]
    let sum := fun (t : Int) =>
      if s.bx.gov then s.bx
      else if 549755813887 < t then { s.bx with acx := 549755813887, gov := true }
      else if t < -549755813888 then { s.bx with acx := BitVec.ofInt 40 (-549755813887), gov := true }
      else { s.bx with acx := BitVec.ofInt 40 t, gov := false }
    exec .clrx s = .next (Safety.wordDone 1 { s.bx with acx := 0, gov := false } s) ∧
    exec .addx s = .next (Safety.wordDone 1 (sum (x.toInt + s.bx.acc1.toInt)) s) ∧
    exec .macx s = .next (Safety.wordDone 1
      (sum (x.toInt + (s.bx.acc1.setWidth 16).toInt * (s.bx.acc2.setWidth 16).toInt)) s) ∧
    exec .sarx s = .next (Safety.wordDone 1
      (if s.bx.gov then s.bx else { s.bx with acx := x.sshiftRight (min 39 (s.bx.acc2.toNat % 256)) }) s) ∧
    exec .clrf s = .next (Safety.wordDone 1 { s.bx with vs := false, dz := false, fe := false } s) ∧
    (∃ w : Word, exec .ldf s = .next (Safety.wordDone 1 { s.bx with acc1 := w } s) ∧
      (∀ k, k < 8 → w.getLsbD k = (flags[k]?).getD false) ∧ w.toNat < 256) ∧
    exec (.tstf bit) s = .next (Safety.wordDone 1 s.bx
      { s with bu := { s.bu with ba := (flags[bit.toNat]?).getD false, fc := false } })

/-- R154, R170: CALL and CALLI enter a function at its first word with FC 1 and one level more, keeping the word after the
call; RET, and RETC where BA is 1, go back to it with FC 1; at level 1 the next due block follows, or the program ends. -/
def Obligations.CallsNestAndReturn : Prop :=
  ∀ (n : BitVec 20) (s : State), executing s = true →
    let bx0 := { s.bx with words := s.bx.words + 1, curWords := satInc s.bx.curWords }
    let into := fun (f : Nat) => ({ s with
      bx := { bx0 with
        pos := { typ := 1, number := f, offset := 0 }
        calls := { s.bx.pos with offset := s.bx.pos.offset + 1 } :: s.bx.calls, level := s.bx.level + 1
        maxLevel := BitVec.ofNat 6 (max s.bx.maxLevel.toNat (s.bx.level + 1).toNat) }
      bu := { s.bu with fc := true } } : State)
    let sticky := s.bx.curSticky ||| (flagWord s.bx &&& 0xF0)
    let seen := s.bx.seen ||| (flagWord s.bx >>> 4).setWidth 4
    (s.bx.level.toNat < 32 →
      (funcExists n.toNat s = true → exec (.call n) s = .next (into n.toNat)) ∧
      (funcExists s.bx.acc1.toNat s = true → exec .calli s = .next (into s.bx.acc1.toNat))) ∧
    (∀ (f : Frame) (fs : List Frame), s.bx.calls = f :: fs →
      let back := settle 33 { s with
        bx := { bx0 with seen := seen, curSticky := sticky, pos := f, calls := fs, level := s.bx.level - 1 }
        bu := { s.bu with fc := true } }
      exec .ret s = .next back ∧ (s.bu.ba = true → exec .retc s = .next back)) ∧
    (s.bx.calls = [] → s.ctx.dueLeft = [] →
      let ended := { s with
        bx := { bx0 with seen := seen, curSticky := sticky, ended := true, level := 0 }
        ctx := { s.ctx with current := none } }
      exec .ret s = .next ended ∧ (s.bu.ba = true → exec .retc s = .next ended)) ∧
    (s.bx.calls = [] → ∀ k ks, s.ctx.dueLeft = k :: ks → ∃ t, exec .ret s = .next t ∧
      (s.bu.ba = true → exec .retc s = .next t) ∧
      ∃ u, t = settle 33 u ∧ u.bx.pos = { typ := 2, number := k, offset := 0 } ∧ u.bx.level = 1 ∧ u.ctx.dueLeft = ks ∧
        u.bx.acc1 = 0 ∧ u.bx.acc2 = 0 ∧ u.bx.acx = 0 ∧ u.bu.ba = false ∧ u.bu.fc = true ∧ u.bu.stack = [] ∧
        u.ctx.current = s.ctx.events.find? (fun e => e.type = k)) ∧
    (s.bu.ba = false → exec .retc s = .next (Safety.wordDone 1 s.bx s))

/-! ### System blocks (R141 to R143, R172) -/

/-- R141 to R143, R150, R172, R173, R235: SB 0 to SB 3 advance one timer or counter, and SB 4, 5, 7, 16 and 18 read what the
freeze fixed. The arguments stand in D from ACC1 on and the results follow them; then ACC2 holds the record's offset, ACC1
the first result, V whether the call was turned away; CALLSB n is the same call. A number out of range, a counter's mode above 1 or a
timer that a pair holds (R235) is turned away: nothing is written, V is 1 and ACC1 the word that stands at the record's first result
(log 53). A record not on a word, or one that reaches beyond D, is lap fault 0x0212.
R141: what the three timers do. TON: no IN, no time and no Q; while it runs, Q at PT. TOF: IN gives Q; a fall starts it and Q
goes at PT. TP: a rise while Q is 0 starts it, and Q goes at PT whatever IN does. All times are modulo 2^32. That SB 3 takes mode 0
as UP and 1 as DOWN and gives CV before the done bit, the order of SB 7's fields, and that TP judges a rise against IN at its last call
are the model's choices (log 53, DEDUCED). -/
def Obligations.SystemBlocksAndTimers : Prop :=
    (∀ s : State, executing s = true → Safety.storesWf s →
       let off := s.bx.acc1.toNat
       let arg := fun (k : Nat) => recWord s (off + 4 * k)
       let fits := fun (n : Nat) => off % 4 = 0 ∧ off + 4 * n ≤ dBytes s
       let answers := fun (c : Instr) (n : BitVec 7) (ni : Nat) (ws : List Word) (u : State) =>
         ∀ r ∈ [exec c s, exec (.callsb n) s], r = .next (Safety.wordDone 1
           { s.bx with acc1 := ws.headD 0, acc2 := s.bx.acc1, v := false } (recPut (off + 4 * ni) ws u))
       let turnedAway := fun (c : Instr) (n : BitVec 7) (ni : Nat) =>
         ∀ r ∈ [exec c s, exec (.callsb n) s], r = .next (Safety.wordDone 1
           { s.bx with acc1 := arg ni, acc2 := s.bx.acc1, v := true, vs := true } s)
       let bit := fun (b : Bool) => (if b then 1 else 0 : Word)
       let now := s.lap.nowMs
       let timer := fun (c : Instr) (n : BitVec 7) (f : Word → Bool → Word → Timer → Timer) =>
         fits 5 → (4096 ≤ (arg 0).toNat ∨ timerReserved s (arg 0).toNat = true → turnedAway c n 3) ∧
         ((arg 0).toNat < 4096 → timerReserved s (arg 0).toNat = false →
         let old := timerOf s (arg 0).toNat
         let at_ := if old.restored then { old with restored := false, start := if old.run then now - old.et else old.start } else old
         let t := { f now (arg 1 != 0) (if (arg 2).toInt ≤ 0 then 0 else arg 2) at_ with inp := arg 1 != 0 }
         answers c n 3 [t.et, bit t.q]
           (lapWrites (11264 + 16 * (arg 0).toNat) 16 (setImg { imgOf s with timers := sput {} (imgOf s).timers (arg 0).toNat t } s)))
       timer .ton 0 tonStep ∧ timer .tof 1 tofStep ∧ timer .tp 2 tpStep ∧
       (fits 8 → 2048 ≤ (arg 0).toNat ∨ 1 < (arg 1).toNat → turnedAway .counter 3 6) ∧
       (fits 8 → (arg 0).toNat < 2048 → (arg 1).toNat ≤ 1 →
         let old := counterOf s (arg 0).toNat
         let down := arg 1 == 1
         let rises := arg 2 != 0 && !old.cin
         let counted : Int := old.cv.toInt + (if rises then (if down then -1 else 1) else 0)
         let cv : Word := if arg 4 != 0 then arg 5 else if arg 3 != 0 then 0
           else BitVec.ofInt 32 (max (-2147483648) (min 2147483647 counted))
         let done := if down then decide (cv.toInt ≤ 0) else decide ((arg 5).toInt ≤ cv.toInt)
         answers .counter 3 6 [cv, bit done]
           (lapWrites (76800 + 8 * (arg 0).toNat) 8 (setImg { imgOf s with
             counters := sput {} (imgOf s).counters (arg 0).toNat { cv := cv, cin := arg 2 != 0, done := done } } s))) ∧
       (fits 4 →
         answers .lapInfo 4 0 [s.lap.num.setWidth 32, now, BitVec.ofNat 32 (((restOf s).map MouldRest.tLap).getD 0), s.ctx.prevUs] s ∧
         answers .eventInfo 5 0 (match s.ctx.current with
           | some e => [BitVec.ofNat 32 e.count, e.tag, e.ts, bit e.lost]
           | none => [0, 0, 0, 0]) s) ∧
       (fits 9 → let r := s.ctx.rtc
         answers .rtcRead 7 0 ([r.year, r.month, r.day, r.hour, r.minute, r.second, r.weekday].map (BitVec.ofNat 32) ++
           [bit s.ctx.rtcOsf, bit s.ctx.rtcLbv]) s) ∧
       (fits 5 → answers .fieldStatus 16 0 ((List.range 5).map fun k => s.ctx.field.getD k 0) s) ∧
       (fits 3 → answers .safeStatus 18 0
         [s.ctx.pairResult.setWidth 32, s.ctx.pairFault.setWidth 32, s.ctx.pairReady.setWidth 32] s) ∧
       (∀ c ∈ [(Instr.ton, 5), (.tof, 5), (.tp, 5), (.counter, 8), (.lapInfo, 4), (.eventInfo, 4), (.raise, 1), (.rtcRead, 9),
           (.reflexEn, 2), (.fieldStatus, 5), (.doAck, 1), (.safeStatus, 3), (.safeAck, 1), (.mwTrigger, 0), (.lbFilter, 3),
           (.lbSend, 4), (.beaconPlan, 9), (.lbSleep, 3), (.lbWake, 3), (.pfxLoad, 2), (.mbWriteEn, 1), (.encSet, 1), (.panelLock, 0)],
         off % 4 ≠ 0 ∨ dBytes s < off + 4 * c.2 → (s.lap.running = .lap ∨ s.lap.running = .shadow) → s.power.state = .run →
         ∃ t, exec c.1 s = .next t ∧ Safety.inSafeService 3 t ∧ t.lap.fault = 0x212)) ∧
    (∀ (now pt : Word) (t : Timer),
       (tonStep now false pt t).q = false ∧ (tonStep now false pt t).et = 0 ∧ (tonStep now false pt t).run = false ∧
       (t.run = false → t.q = false → (tonStep now true pt t).q = (pt == 0) ∧ (tonStep now true pt t).et = 0) ∧
       (∀ f ∈ [tonStep now true pt t, tofStep now false pt t, tpStep now true pt t, tpStep now false pt t],
         t.run = true → t.q = true ∨ f = tonStep now true pt t →
           (now - t.start < pt → f.run = true ∧ f.et = now - t.start ∧ f.q = t.q) ∧
           (pt ≤ now - t.start → f.run = false)) ∧
       (t.run = true → pt ≤ now - t.start → (tonStep now true pt t).q = true ∧ (tonStep now true pt t).et = pt ∧
         (tofStep now false pt t).q = false ∧ (t.q = true → (tpStep now true pt t).q = false)) ∧
       ((tofStep now true pt t).q = true ∧ (tofStep now true pt t).et = 0) ∧
       (t.q = true → t.run = false → pt ≠ 0 → (tofStep now false pt t).q = true ∧ (tofStep now false pt t).start = now) ∧
       (t.q = false → t.run = false → t.inp = false → pt ≠ 0 →
         (tpStep now true pt t).q = true ∧ (tpStep now true pt t).start = now ∧ (tpStep now true pt t).run = true) ∧
       (t.q = false → t.run = false → t.inp = true → tpStep now true pt t = t))

/-- R125, R129, R172, R150, R166, R240, R277, R309, R325, R360, R425: the other blocks have no effect at the call: an action
whose arguments are in range waits for the commit, one that is not is turned away with V. ACC2 holds the record's offset and
ACC1 becomes 0. That a PORT whose bus is off with PD7 is turned away so too (log 96, DESIGN CHOICE), that SB 17 ignores mask bits above 15 and sets V (log 53, DEDUCED), and that tables and frame data are those that
stood in D at the call (log 52, DEDUCED), are the model's choices. -/
def Obligations.SystemBlockActionsWaitForTheCommit : Prop :=
  ∀ s : State, executing s = true →
    let off := s.bx.acc1.toNat
    let arg := fun (k : Nat) => recWord s (off + 4 * k)
    let n := fun (k : Nat) => (arg k).toNat
    let called := fun (v : Bool) (u : State) => Safety.wordDone 1
      { s.bx with acc1 := 0, acc2 := s.bx.acc1, v := v, vs := s.bx.vs || v } u
    let acts := fun (c : Instr) (num : BitVec 7) (ni : Nat) (ok : Prop) (v : Bool) (x : Action) =>
      off % 4 = 0 → off + 4 * ni ≤ dBytes s → ∀ r ∈ [exec c s, exec (.callsb num) s],
      (ok → r = .next (called v { s with ctx := { s.ctx with actions := s.ctx.actions ++ [x] } })) ∧
      (¬ ok → r = .next (called true s))
    let port := n 0 < 4 ∧ (lbOf s (n 0)).cfg.isSome = true ∧ s.power.pdOn.getLsbD 7 = true
    let beacon := port ∧ (lbCfg s (n 0)).beacon = true
    let plan : List (Nat × Nat) := [(0, 1), (1, 365), (5, 600), (28, 1095), (10, 480), (5, 50), (0, 23), (0, 72)]
    let table := dataRead (dBase s + n 1) (16 * n 2) s
    let slots := dataRead (dBase s + n 0) (16 * n 1) s
    let pairs := maskOf 16 (pairEnabled s)
    acts .raise 6 1 (16 ≤ n 0 ∧ n 0 ≤ 31) false (.raise (n 0)) ∧
    acts .reflexEn 8 2 True false (.reflexEn (arg 0) (arg 1)) ∧
    acts .doAck 17 1 True (decide (65536 ≤ n 0)) (.doAck ((arg 0).setWidth 16)) ∧
    acts .safeAck 19 1 True ((arg 0 &&& ~~~ BitVec.ofNat 32 pairs) != 0)
      (.safeAck ((arg 0).setWidth 16 &&& BitVec.ofNat 16 pairs)) ∧
    acts .mwTrigger 20 0 True false .mwTrigger ∧
    acts .lbFilter 21 3 (port ∧ n 1 % 4 = 0 ∧ n 2 ≤ 256 ∧ n 1 + 16 * n 2 ≤ dBytes s ∧ ∀ e ∈ loadSlots table, filterOk e = true)
      false (.lbFilter (n 0) table) ∧
    acts .lbSend 22 4 (port ∧ n 2 ≤ 64 ∧ n 3 + n 2 ≤ dBytes s) false (.lbSend (n 0) (arg 1) (dataRead (dBase s + n 3) (n 2) s)) ∧
    acts .beaconPlan 23 9 (beacon ∧ ∀ k < 8, (nth (0, 0) plan k).1 ≤ n (k + 1) ∧ n (k + 1) ≤ (nth (0, 0) plan k).2)
      false (.beaconPlan (n 0) ((List.range 8).map fun k => n (k + 1))) ∧
    (arg 1 = 1 → acts .lbSleep 24 3 (beacon ∧ 1 ≤ n 2 ∧ n 2 ≤ 4320) false (.lbSleep (n 0) (n 2))) ∧
    (arg 1 = 2 → acts .lbWake 24 3 (beacon ∧ 1 ≤ n 2 ∧ n 2 ≤ 4320) false (.lbWake (n 0))) ∧
    (arg 1 ≠ 1 → arg 1 ≠ 2 → acts .lbSleep 24 3 False false .panelLock ∧ acts .lbWake 24 3 False false .panelLock) ∧
    acts .pfxLoad 25 2 (n 0 % 16 = 0 ∧ n 1 ≤ 512 ∧ n 0 + 16 * n 1 ≤ dBytes s ∧
      (∀ e ∈ loadSlots slots, slotImageOk e = true) ∧ loadComplete (loadSlots slots) = true) false (.pfxLoad slots) ∧
    acts .mbWriteEn 26 1 True (decide (3 < n 0)) (.mbWriteEn ((arg 0).setWidth 2)) ∧
    acts .encSet 27 1 (-32767 ≤ (arg 0).toInt ∧ (arg 0).toInt ≤ 32767) false (.encSet (arg 0).toInt) ∧
    acts .panelLock 28 0 True false .panelLock

/-! ### Requests (R85 to R112, R190 to R206, R370 to R376, R427 to R443) -/

/-- R90 to R93, R374, R375, R440: what every request meets before it acts: a wrong length is answered 0x11; while a change of
state waits, 0x20, but for GET_STATE and LOG_READ; a FLAGS byte other than 0, an argument out of range, or one that the block's own rule
turns away (a PKG that no bank holds in R106 and R108, or that is not staged whole in R428, a call out of step in R427, an unknown JOB),
0x10; and then, where the row of R92 forbids it in this state or role, 0x21 or 0x22 with SJ 0x0110 and the refusal counted. That TRANSIT
is checked after the length is log 60, and the rule for the PKG of EDIT_LOAD log 89 (DESIGN CHOICE). -/
def Obligations.RequestsAreCheckedInOrder : Prop :=
  ∀ (via : Via) (s u : State) (a : Asked) (body : Bytes), Safety.arrives via s = some (a, body, u) →
    let col := match s.power.state with
      | .run => (match s.power.role with
        | .leader => 2
        | .pacer => 3
        | _ => 1)
      | .safeService => 4
      | .halt => 5
      | .dead => 6
      | _ => 0
    let rows : List (Instr × Nat × Option Nat × (Bytes → Bool) × List Nat) := [
      (.getState via, 1, none, noArgs, [0, 0, 0, 0, 0, 0, 0]), (.setModeRun via, 2, some 0, modeArgs, [1, 1, 1, 1, 1, 0, 1]),
      (.setModeHalt via, 2, some 1, modeArgs, [1, 0, 2, 2, 1, 1, 1]), (.setModeBaton via, 2, some 2, modeArgs, [1, 2, 0, 2, 1, 1, 1]),
      (.setModeWithdraw via, 2, some 3, modeArgs, [1, 2, 2, 0, 1, 1, 1]), (.restart via, 3, none, noArgs, [1, 0, 0, 0, 0, 0, 1]),
      (.loadMould via, 4, none, noArgs, [1, 1, 2, 0, 0, 0, 1]), (.repress via, 5, none, repressArgs, [1, 2, 2, 0, 1, 0, 1]),
      (.editLoad via, 6, none, noArgs, [1, 0, 0, 2, 1, 0, 1]), (.editTrialStart via, 7, some 0, trialArgs, [1, 2, 0, 2, 1, 1, 1]),
      (.editTrialAbort via, 7, some 1, trialArgs, [1, 2, 0, 2, 1, 1, 1]), (.editTrialReport via, 7, some 2, trialArgs, [1, 2, 0, 2, 1, 1, 1]),
      (.editAdopt via, 8, some 0, adoptArgs, [1, 0, 0, 2, 1, 0, 1]), (.editDiscard via, 8, some 1, adoptArgs, [1, 0, 0, 2, 1, 0, 1]),
      (.updStage via, 9, none, stageArgs, [1, 0, 0, 0, 0, 0, 1]), (.updApply via, 0xA, none, noArgs, [1, 0, 2, 0, 0, 0, 1]),
      (.updActivate via, 0xB, none, noArgs, [1, 0, 2, 0, 0, 0, 1]), (.logRead via, 0xC, none, logArgs, [0, 0, 0, 0, 0, 0, 0]),
      (.rtcSet via, 0xD, none, rtcArgs, [1, 0, 0, 0, 0, 0, 1]), (.lbRecover via, 0xE, none, recoverArgs, [1, 0, 0, 0, 1, 0, 1]),
      (.search via, 0xF, some 1, tblArgs, [1, 0, 0, 0, 0, 0, 1]), (.tblNext via, 0xF, some 2, tblArgs, [1, 0, 0, 0, 0, 0, 1]),
      (.insert via, 0xF, some 3, tblArgs, [1, 0, 0, 0, 0, 0, 1]), (.delete via, 0xF, some 4, tblArgs, [1, 0, 0, 0, 0, 0, 1]),
      (.flushByPort via, 0xF, some 5, tblArgs, [1, 0, 0, 0, 0, 0, 1]), (.rehash via, 0xF, some 6, tblArgs, [1, 0, 0, 0, 0, 0, 1]),
      (.crcJobStart via, 0x10, some 0, crcStartArgs, [1, 0, 0, 0, 0, 0, 1]), (.crcJobResult via, 0x10, some 1, crcResultArgs, [1, 0, 0, 0, 0, 0, 1]),
      (.keyPolicySet via, 0x11, some 0, keySetArgs, [1, 0, 0, 0, 0, 0, 1]), (.keyPolicyClear via, 0x11, some 1, keyArgs, [1, 0, 0, 0, 0, 0, 1]),
      (.keyPolicyList via, 0x11, some 2, keyArgs, [1, 0, 0, 0, 0, 0, 1]), (.hibernate via, 0x12, none, noArgs, [1, 0, 2, 0, 0, 0, 1])]
    let r : Req := { asked := a, body := body }
    let ruled := fun (c : Instr) =>
      if c = .loadMould via then mouldRules r u else if c = .repress via then repressRules r u
      else if c = .editLoad via then editRules r u else if c = .updStage via then stageRules r u
      else if c = .updApply via then applyRules r u else if c = .updActivate via then activateRules r u
      else if c = .crcJobResult via then crcResultRules r u else true
    ∀ row ∈ rows, leAt body 0 1 = row.2.1 →
      let refused := fun (st : Byte) (reason : Nat) => respond a st []
        (sj 0x110 1 (item row.2.1 ++ item a.path.toNat ++ item st.toNat ++ item reason ++ item (stateCode s.power.state) ++
          item (roleCode s.power.role)) { u with power := { u.power with refusals := satInc u.power.refusals } })
      let right := bodyLenOk body = true ∧ (row.2.2.1 = none ∨ row.2.2.1 = some (leAt body 8 1))
      let free := s.power.transit = .none ∨ row.2.1 = 1 ∨ row.2.1 = 0xC
      (bodyLenOk body = false → exec row.1 s = .next (respond a 0x11 [] u)) ∧
      (right → ¬ free → exec row.1 s = .next (respond a 0x20 [] u)) ∧
      (right → free → nth 0 body 1 ≠ 0 ∨ row.2.2.2.1 (body.drop 8) = false ∨ ruled row.1 = false →
        exec row.1 s = .next (respond a 0x10 [] u)) ∧
      (right → free → nth 0 body 1 = 0 → row.2.2.2.1 (body.drop 8) = true → ruled row.1 = true →
        (nth 1 row.2.2.2.2 col = 1 → exec row.1 s = .next (refused 0x21 1)) ∧
        (nth 1 row.2.2.2.2 col = 2 → exec row.1 s = .next (refused 0x22 2)))

/-- R85 to R89, R218, R219, R230, R375: GET_STATE answers with the unit's state and changes nothing; SET_MODE RUN in HALT and
HALT in RUN are accepted and wait for their instant; BATON sets lap n + 3, and that one during a pass leaves the pass under way as it is
is the model's choice (log 82, DESIGN CHOICE); WITHDRAW makes the pacer WITHDRAWN; RESTART begins
a bring-up; HIBERNATE waits for the commit of a unit in RUN, is at once elsewhere, and is refused with a stuck row-0 key. -/
def Obligations.ModeRequestsChangeTheState : Prop :=
  ∀ (via : Via) (a : Asked) (s u : State),
    let accepted := fun (t : State) =>
      let v := respond a 1 [] t
      ({ v with mgt := { v.mgt with asyncCode := a.code, asyncStatus := 1
                                    asyncOpen := (a.code, a.path) :: v.mgt.asyncOpen.filter fun x => decide (x.1 ≠ a.code) } } : State)
    let waits := fun (w : Transit) => let v := accepted u; ({ v with power := { v.power with transit := w } } : State)
    let refused := fun (reason : Nat) => respond a 0x21 []
      (sj 0x110 1 (item a.code.toNat ++ item a.path.toNat ++ item 0x21 ++ item reason ++ item (stateCode s.power.state) ++
        item (roleCode s.power.role)) { u with power := { u.power with refusals := satInc u.power.refusals } })
    (Safety.Asks via 1 [] a s u → exec (.getState via) s = .next (respond a 0
      (leBytes 4 (stateCode s.power.state + 16 * roleCode s.power.role) ++
        leBytes 4 (s.power.causes.toNat + 2 ^ 24 * s.power.firstCause.toNat) ++
        leBytes 4 (startCode s.power.startKind + 16 * s.power.wakeSrc.toNat + 256 * b2n s.power.resume) ++
        leBytes 4 s.power.pwrCycles.toNat ++ leBytes 6 (opMs s) ++ leBytes 1 s.mgt.issue.toNat ++ leBytes 1 (ownMember s) ++
        leBytes 4 s.mgt.testedSet.toNat ++ [s.mgt.asyncCode, s.mgt.asyncStatus, 0, 0]) u)) ∧
    (Safety.Asks via 2 [0, 0, 0, 0] a s u → s.power.state = .halt → exec (.setModeRun via) s = .next (waits .run)) ∧
    (Safety.Asks via 2 [1, 0, 0, 0] a s u → s.power.state = .run → s.power.role = .solo →
      exec (.setModeHalt via) s = .next (waits .halt)) ∧
    (Safety.Asks via 2 [2, 0, 0, 0] a s u → s.power.state = .run → s.power.role = .leader →
      (tracking s = true → s.edit.state ≠ .adopting → let v := accepted u
        exec (.setModeBaton via) s = .next (if s.sbx.batonB = 0 then
          { v with sbx := { v.sbx with batonB := s.lap.num + 3, batonConf := false } } else v)) ∧
      (tracking s = false ∨ s.edit.state = .adopting → exec (.setModeBaton via) s = .next (refused 4))) ∧
    (Safety.Asks via 2 [3, 0, 0, 0] a s u → s.power.state = .run → s.power.role = .pacer → ∃ t,
      exec (.setModeWithdraw via) s = .next t ∧ t.sby.cond = .withdrawn ∧ t.power = s.power ∧ t.sbx.held = true ∧
      t.lap.running = .idle) ∧
    (Safety.Asks via 3 [] a s u → s.power.state ∈ [.run, .safeService, .halt] → s.upd.journal ≠ .patching → ∃ t,
      exec (.restart via) s = .next t ∧ t.power.state = .bringUp ∧ t.power.startKind = .restart ∧ t.power.role = .none ∧
      t.power.pwrCycles = s.power.pwrCycles ∧ t.power.pdOn = 0x003 ||| (s.power.pdOn &&& 0x040) ∧ t.mld.mould = none ∧
      t.mgt.asyncStatus = 0) ∧
    (Safety.Asks via 0x12 [] a s u → (∀ k < 5, s.pan.stuck.getLsbD k = false) →
      (s.power.state = .run → s.power.role ≠ .leader → ∃ t, exec (.hibernate via) s = .next t ∧
        t.power = { s.power with transit := .hibernate } ∧ t.rtc = { s.rtc with alarmHit := false }) ∧
      (s.power.state = .halt ∨ s.power.state = .safeService → ∃ t, exec (.hibernate via) s = .next t ∧
        t.power.state = .hibernate ∧ t.power.role = .none ∧ t.power.pdOn = 0x003 ∧ t.dio.on = 0 ∧ t.mgt.svcOpen = false)) ∧
    (Safety.Asks via 0x12 [] a s u → s.power.state = .halt → (∃ k < 5, s.pan.stuck.getLsbD k = true) →
      exec (.hibernate via) s = .next (refused 3))

/-- R106, R108 to R112, R190 to R206: LOAD_MOULD validates the inactive bank's Mould and restarts into it, or answers 0x31;
REPRESS, in HALT or asked of a PACER that neither resynchronises nor runs a trial, presses the regions of its mask, and
REGION_PRESS_DONE carries it to the new Mould, or back, or to Safe Service;
EDIT_LOAD checks a staged edit; a trial starts, ends and reports; ADOPT makes the edited program run and the inactive bank
active, in HALT at once; DISCARD drops the edit and empties the bank. That an EDIT_LOAD of a PKG that is not staged is answered 0x10
is the model's choice (log 89, DESIGN CHOICE), and so is that the EDIT_CMD by which the leader asks its pacer for a report has one byte
each of operation, 4, and slot (log 91, DESIGN CHOICE). -/
def Obligations.MouldsAndEditsAreLoadedTriedAndAdopted : Prop :=
  ∀ (via : Via) (a : Asked) (s u : State) (pkg : Word),
    let v := respond a 1 [] u
    let accepted : State := { v with mgt := { v.mgt with
      asyncCode := a.code, asyncStatus := 1
      asyncOpen := (a.code, a.path) :: v.mgt.asyncOpen.filter fun x => decide (x.1 ≠ a.code) } }
    let b := !s.upd.active
    (Safety.Asks via 4 (leBytes 4 pkg.toNat) a s u →
      (s.power.state = .halt ∨ s.power.state = .safeService ∨ s.power.state = .run ∧ s.power.role = .pacer) →
      (inactiveHolds pkg.toNat u = false ∨ sameCode s.upd.active b u = false → exec (.loadMould via) s = .next (respond a 0x10 [] u)) ∧
      (inactiveHolds pkg.toNat u = true → sameCode s.upd.active b u = true →
        (∀ f, mouldValidate (mouldCtx b none u) = .error f →
          exec (.loadMould via) s = .next (respond a 0x31 (leBytes 1 f.code) (mouldInvalid f a.path.toNat u))) ∧
        (∀ m, mouldValidate (mouldCtx b none u) = .ok m → bankSetOk b u = true → s.upd.journal ≠ .patching → ∃ t,
          exec (.loadMould via) s = .next t ∧ t.power.state = .bringUp ∧ t.power.startKind = .restart ∧
          t.upd.pending = true ∧ t.upd.inUse = true ∧ t.upd.active = s.upd.active))) ∧
    (∀ mask : Fin 16, Safety.Asks via 5 ([BitVec.ofNat 8 (16 * mask), 0, 0, 0] ++ leBytes 4 pkg.toNat) a s u →
      (s.power.state = .halt ∧ s.power.role = .none ∨
        s.power.state = .run ∧ s.power.role = .pacer ∧ s.sby.cond ≠ .resync ∧ s.edit.state ≠ .trial) →
      s.mld.repress = none → inactiveHolds pkg.toNat u = true → sameCode s.upd.active b u = true →
      ∀ m r, mouldValidate (mouldCtx b ((restOf u).map fun x => (16 * mask.val, x)) u) = .ok (m, r) →
        exec (.repress via) s = .next (beginRepress (16 * mask) b m r accepted)) ∧
    (∀ (k : Nat) (ks : List Nat) (x : Repress) (ok : Bool), s.mld.repress = some x → x.todo = k :: ks →
      ∃ t, exec (.regionPressDone ok) s = .next t ∧
      (x.failed = none → ok = true → ks = [] → t.mld.mould = some (x.mould, x.rest) ∧ t.mld.repress = none ∧
        t.upd.active = x.bank ∧ t.mld.okCount = satInc s.mld.okCount) ∧
      (x.failed = none → ok = true → ks ≠ [] → t.mld.repress = some { x with todo := ks, done := k :: x.done }) ∧
      (x.failed = none → ok = false → t.mld.repress = some { x with todo := k :: x.done, failed := some k }) ∧
      (∀ j, x.failed = some j → ok = true → ks = [] → t.mld.repress = none ∧ t.mld.failCount = satInc s.mld.failCount) ∧
      (x.failed ≠ none → ok = false → s.power.state = .run → Safety.inSafeService 2 t)) ∧
    (Safety.Asks via 6 (leBytes 4 pkg.toNat) a s u → s.power.state = .run → s.power.role = .solo →
      (stagedEdit pkg.toNat u = none → exec (.editLoad via) s = .next (respond a 0x10 [] u)) ∧
      (∀ st, stagedEdit pkg.toNat u = some st → s.edit.state = .none → appUnactivated s = false → s.sbx.migrating = false →
        (bankOf s.upd.active s).chain.length < 255 → ∃ t, exec (.editLoad via) s = .next t ∧
        (∀ new, editCheck st.data accepted = .ok new → t.edit.state = .loaded ∧ t.edit.prog = new ∧ t.prog.blocks = s.prog.blocks) ∧
        (∀ f, editCheck st.data accepted = .error f → t.edit.state = .none ∧ t.edit.result = BitVec.ofNat 8 f.code ∧
          t.mgt.asyncStatus = 0x31))) ∧
    (∀ (slot : Fin 16) (w : Nat), w ≤ 10000 → s.power.state = .run → s.power.role = .leader → tracking s = true →
      let args := fun (op : Byte) => [op, BitVec.ofNat 8 slot] ++ leBytes 2 w
      (Safety.Asks via 7 (args 0) a s u → s.edit.state = .loaded → dKib s ≤ 2048 → ∃ t,
        exec (.editTrialStart via) s = .next t ∧ t.edit.state = (if w = 0 then .ripe else .trial) ∧ t.edit.window = w ∧
        t.edit.trialRun = 0 ∧ t.edit.trialDiff = 0) ∧
      (Safety.Asks via 7 (args 1) a s u → s.edit.state = .trial → ∃ t, exec (.editTrialAbort via) s = .next t ∧
        t.edit.state = .loaded ∧ t.edit.abort = 1 ∧ t.edit.prog = s.edit.prog)) ∧
    (∀ slot : Fin 16, Safety.Asks via 7 [2, BitVec.ofNat 8 slot, 0, 0] a s u → s.power.state = .run → s.power.role = .leader →
      s.edit.state ∈ [.trial, .ripe] ∨ s.edit.state = .loaded ∧ s.edit.aborted = true →
      (s.sbx.migrating = false → s.edit.reports = [] → exec (.editTrialReport via) s =
        .next (editCommand ([4] ++ [BitVec.ofNat 8 slot]) { u with px := { u.px with reportTo := u.px.reportTo ++ [a] } })) ∧
      (s.sbx.migrating = true ∨ s.edit.reports ≠ [] →
        exec (.editTrialReport via) s = .next (respond a 0 (s.edit.reports.getD slot (zeros 1056)) u))) ∧
    (Safety.Asks via 8 [0, 0, 0, 0] a s u →
      (s.power.state = .halt → tracking s = false → s.edit.state = .loaded → ∃ t, exec (.editAdopt via) s = .next t ∧
        t.prog.blocks = s.edit.prog ∧ t.prog.progHash = s.edit.newHash ∧ t.upd.active = b ∧ t.edit.state = .none ∧
        t.mgt.asyncStatus = 0) ∧
      (s.power.state = .run → s.power.role = .leader → tracking s = true → s.edit.state = .ripe →
        exec (.editAdopt via) s = .next { accepted with edit := { s.edit with
          state := .adopting, lap := s.lap.num + 3, tries := 0, confirmed := false, acked := false, adoptNow := false } }) ∧
      (s.power.state = .run → s.power.role = .solo → s.edit.state = .loaded →
        exec (.editAdopt via) s = .next { accepted with edit := { s.edit with
          state := .adopting, adoptNow := true, confirmed := false, lap := s.lap.num + 1 } })) ∧
    (Safety.Asks via 8 [1, 0, 0, 0] a s u → s.power.state = .run → s.power.role ≠ .pacer →
      s.edit.state ∈ [.loaded, .trial, .ripe] → ∃ t, exec (.editDiscard via) s = .next t ∧ t.edit.state = .none ∧
      bankOf b t = {} ∧ t.prog = s.prog)

/-- R427, R428, R434 to R443: UPD_STAGE opens a package under the next PKG and appends its bytes in order; UPD_APPLY checks a
system package and enters PATCHING, or writes an application package to the inactive bank; PATCH_OPERATION writes one block
and counts it, where that the journal's head takes two sequence numbers with each is the model's choice (log 75, DESIGN CHOICE), and
two differing read-backs are DEAD; the last operation ends in a part that fails its TARGET_HASH, which is DEAD with code 0x09, or in the
commit: the package's manifest, the bank that holds its application package, COMMITTED and SJ 0x0A05, and a resume goes on as the
acceptance start (R437, R438, R440). UPD_ACTIVATE restarts; in DEAD, RESTORE takes a manifest and data and
finishes with the new commit record and an acceptance start. -/
def Obligations.UpdatesAreStagedAppliedAndRestored : Prop :=
  ∀ (via : Via) (a : Asked) (s u : State) (pkg : Word),
    let v := respond a 1 [] u
    let accepted : State := { v with mgt := { v.mgt with
      asyncCode := a.code, asyncStatus := 1
      asyncOpen := (a.code, a.path) :: v.mgt.asyncOpen.filter fun x => decide (x.1 ≠ a.code) } }
    let works := s.power.state ∈ [OpState.run, .safeService, .halt]
    let b := !s.upd.active
    (∀ (kind : Fin 3) (off total : Nat) (data : Bytes), works → s.upd.running = 0 → data.length ≤ 1024 →
      total ≤ 16777216 → off + data.length ≤ total →
      Safety.Asks via 9 (leBytes 4 pkg.toNat ++ [BitVec.ofNat 8 kind, 0, 0, 0] ++ leBytes 4 off ++ leBytes 4 total ++ data) a s u →
      (pkg = 0 → off = 0 → 0 < total → inUse kind s = false → otherTotals kind s + total ≤ 16777216 → ∃ t,
        exec (.updStage via) s = .next t ∧ t.upd.nextPkg = (if s.upd.nextPkg = 0xFFFFFFFF then 1 else s.upd.nextPkg + 1) ∧
        stagedOf kind t = some { pkg := s.upd.nextPkg, total := total, received := data.length, data := data } ∧
        (∀ k < 3, k ≠ kind.val → stagedOf k t = stagedOf k s) ∧
        ∀ x, (x < 0x6000000 ∨ 0x7000000 ≤ x ∧ 0x6000000 + (stagingBytes t.upd).length ≤ x) →
          memGet 0xFF t.flash x = memGet 0xFF s.flash x) ∧
      (∀ st, stagedOf kind s = some st → pkg ≠ 0 → st.pkg = pkg → st.total = total → st.received = off → ∃ t,
        exec (.updStage via) s = .next t ∧ stagedOf kind t = some { st with received := off + data.length, data := st.data ++ data } ∧
        (∀ k < 3, k ≠ kind.val → stagedOf k t = stagedOf k s) ∧ t.upd.nextPkg = s.upd.nextPkg) ∧
      (∀ st, stagedOf kind s = some st → pkg ≠ 0 → st.received ≠ off → exec (.updStage via) s = .next (respond a 0x10 [] u))) ∧
    (Safety.Asks via 0xA (leBytes 4 pkg.toNat) a s u → works → s.power.role ≠ .leader → s.upd.running = 0 →
      (∀ st, completePkg 0 pkg.toNat s = some st → s.upd.journal = .idle → ∃ t, exec (.updApply via) s = .next t ∧
        (sysChecks st { accepted with upd := { accepted.upd with kind := 0 } } = none →
          t.upd.journal = .patching ∧ t.upd.opsDone = 0 ∧ t.upd.running = 0xA) ∧
        (∀ f, sysChecks st { accepted with upd := { accepted.upd with kind := 0 } } = some f →
          t.upd.journal = .idle ∧ t.upd.code = BitVec.ofNat 8 f.1 ∧ t.mgt.asyncStatus = 0x31)) ∧
      (∀ st, completePkg 0 pkg.toNat s = none → completePkg 1 pkg.toNat s = some st → s.edit.state = .none →
        s.mld.repress = none → s.upd.pending = false → ∃ t, exec (.updApply via) s = .next t ∧ t.upd.journal = s.upd.journal ∧
        (appChecks st { accepted with upd := { accepted.upd with kind := 1 } } = none → t.upd.running = 0xA ∧ t.upd.kind = 1) ∧
        (∀ f, appChecks st { accepted with upd := { accepted.upd with kind := 1 } } = some f → bankOf b t = {} ∧ t.mgt.asyncStatus = 0x31)) ∧
      (completePkg 0 pkg.toNat s = none → completePkg 1 pkg.toNat s = none → exec (.updApply via) s = .next (respond a 0x10 [] u))) ∧
    (∀ st, s.upd.app = some st → s.upd.running = 0xA → s.upd.kind = 1 → awake s = true →
      (∃ t, exec (.bankWritten none) s = .next t ∧ t.upd.running = 0 ∧ (bankOf b t).pkg = some st.pkg ∧
        bankOf s.upd.active t = bankOf s.upd.active s ∧ t.flash = (writeBank st s).flash) ∧
      (∀ i, ∃ t, exec (.bankWritten (some i)) s = .next t ∧ t.upd.running = 0 ∧ t.upd.code = 9 ∧ bankOf b t = {})) ∧
    (∀ (st : Staged) (op : OpRec) (first second : Bool), s.upd.sys = some st → s.upd.journal = .patching → awake s = true →
      ((payloadRecs st.data).getD [])[s.upd.opsDone]? = some op → s.upd.prepared = none → ∃ t,
      exec (.patchOperation first second) s = .next t ∧
      t.flash = (writeSectors (4096 * op.target) (applyOp op s) s).flash ∧
      (first = true ∨ second = true → s.upd.opsDone + 1 ≠ s.upd.opsTotal →
        t.upd = { s.upd with opsDone := s.upd.opsDone + 1, headSeq := s.upd.headSeq + 2 } ∧ t.power = s.power) ∧
      (first = true ∨ second = true → s.upd.opsDone + 1 = s.upd.opsTotal →
        let written : State := { s with flash := t.flash }
        t.upd.opsDone = s.upd.opsTotal ∧ t.upd.running = 0 ∧
        (∀ p, targetFailure st.data written = some p → t.power.state = .dead ∧ t.upd.journal = .dead ∧ t.upd.deadCause = 4 ∧
          t.upd.code = 9 ∧ t.upd.part = BitVec.ofNat 8 p ∧ t.upd.manifest = s.upd.manifest ∧ t.dio.on = 0 ∧
          Safety.journals 0xA07 2 (item 4 ++ item p) s t) ∧
        (targetFailure st.data written = none → t.power = s.power ∧ t.dio = s.dio ∧ t.upd.journal = .committed ∧
          t.upd.manifest = st.data.take 928 ∧ t.upd.active = (bankOfSet (manSet st.data) s).getD s.upd.active ∧
          t.upd.accepting = decide (s.power.state = .bringUp) ∧ t.upd.sys = s.upd.sys ∧
          Safety.journals 0xA05 0 (item (manSet s.upd.manifest) ++ item (manSet st.data)) s t)) ∧
      (first = false → second = false → t.power.state = .dead ∧ t.upd.journal = .dead ∧ t.upd.deadCause = 3 ∧
        t.upd.opsDone = s.upd.opsDone)) ∧
    (Safety.Asks via 0xB (leBytes 4 pkg.toNat) a s u → works → s.power.role ≠ .leader → s.upd.running = 0 →
      (∀ st, completePkg 0 pkg.toNat s = some st → s.upd.journal = .committed → ∃ t, exec (.updActivate via) s = .next t ∧
        t.power.state = .bringUp ∧ t.upd.accepting = true ∧ t.upd.journal = .committed) ∧
      (completePkg 0 pkg.toNat s = none → (completePkg 1 pkg.toNat s).isSome = true → inactiveHolds pkg.toNat u = true →
        (bankSetOk b u = true → s.upd.journal = .idle →
          ∃ t, exec (.updActivate via) s = .next t ∧ t.power.state = .bringUp ∧ t.upd.pending = true ∧ t.upd.inUse = true) ∧
        (bankSetOk b u = false → exec (.updActivate via) s = .next (respond a 0x31 [8] (setRefused pkg.toNat u)))) ∧
      (completePkg 0 pkg.toNat s = none → completePkg 1 pkg.toNat s = none ∨ inactiveHolds pkg.toNat u = false →
        exec (.updActivate via) s = .next (respond a 0x10 [] u))) ∧
    (s.power.state = .dead → ∀ (off total : Nat) (data : Bytes), off < 2 ^ 32 → total < 2 ^ 32 → data.length ≤ 1024 →
      let args := fun (op : Byte) => [op, 0, 0, 0] ++ leBytes 4 off ++ leBytes 4 total ++ data
      let all := (if off = 0 then [] else s.upd.restore.getD []) ++ data
      let held : State := { u with upd := { u.upd with restore := some all, restoreOk := false } }
      (Safety.Asks via 0x20 (args 0) a s u → total = 928 → all.length = off + data.length →
        (all.length < 928 → exec (.restoreManifest via) s = .next (respond a 0 [] held)) ∧
        (all.length = 928 → pkgBasic 0 none all held = none → ∃ t, exec (.restoreManifest via) s = .next t ∧
          t.upd.restore = some all ∧ t.upd.restoreOk = true ∧ t.power = s.power) ∧
        (∀ e, all.length = 928 → pkgBasic 0 none all held = some e →
          exec (.restoreManifest via) s = .next (respond a 0x31 (leBytes 1 e.1) u))) ∧
      (Safety.Asks via 0x20 (args 1) a s u → ∀ m, s.upd.restore = some m → s.upd.restoreOk = true →
        (∀ e ∈ manParts 0 m, 4096 * (extentOf e).1 ≤ off → off + data.length ≤ 4096 * ((extentOf e).1 + (extentOf e).2) →
          exec (.restoreData via) s = .next (respond a 0 [] (flashWrite off data u)))) ∧
      (Safety.Asks via 0x20 (args 2) a s u → ∀ m, s.upd.restore = some m → s.upd.restoreOk = true → targetFailure m s = none →
        ∃ t, exec (.restoreFinish via) s = .next t ∧ t.power.state = .bringUp ∧ t.power.startKind = .restore ∧
        t.upd.journal = .committed ∧ t.upd.manifest = m ∧ t.upd.accepting = true))

/-- R290, R329, R330, R373, R376, R394, R395, R402, R412: LOG_READ answers with HEAD, WRAPS and slots, and a corrupt slot comes as it is
stored, counted in LOG.CORRUPT and with SJ 0x0C04; RTC_SET sets time and alarm;
LB_RECOVER starts a recovery from BUS_OFF only; the six table commands act and answer, and while PD6 is off each is refused 0x21 with
reason 0x04, which is the model's choice (log 51); CRC_JOB numbers a job and tells its
outcome; KEY_POLICY sets, clears and lists plant keys, the answer going out under the old key; SVC closes, and a begun frame
that stops is counted. -/
def Obligations.ServiceRequestsAnswer : Prop :=
  ∀ (via : Via) (a : Asked) (s u : State),
    let works := s.power.state ∈ [OpState.run, .safeService, .halt]
    (∀ (log : Fin 3) (n : Fin 17) (first : Nat), 1 ≤ n.val → first < logSlots log →
      Safety.Asks via 0xC ([BitVec.ofNat 8 log, BitVec.ofNat 8 n, 0, 0] ++ leBytes 4 first) a s u →
      let slots := (List.range n).map fun i => (first + i) % logSlots log
      let corrupt := slots.filter fun k => decide (slotStatus log (logSlot log k u) = 1)
      ∃ v, exec (.logRead via) s = .next (respond a 0 (leBytes 4 (logHead log u).1 ++ leBytes 4 (logHead log u).2 ++
        [BitVec.ofNat 8 n, 0, 0, 0] ++ slots.flatMap fun k =>
          [BitVec.ofNat 8 (slotStatus log (logSlot log k u)), 0, 0, 0] ++ logSlot log k u) v) ∧ (corrupt = [] → v = u) ∧
        Safety.Booked [2, 3] { u with log := { u.log with
          corruptSj := if log = 0 then satAdd u.log.corruptSj corrupt.length else u.log.corruptSj
          corruptTr := if log = 1 then satAdd u.log.corruptTr corrupt.length else u.log.corruptTr } } v ∧
        ∀ k ∈ corrupt, (∀ x ∈ u.log.repeats, x.code ≠ 0xC04) → Safety.journals 0xC04 1 (item log ++ item k) u v) ∧
    (∀ (f : Fin 8) (time alarm : Bytes), time.length = 8 → alarm.length = 8 → works →
      let args := [BitVec.ofNat 8 f, 0, 0, 0] ++ time ++ alarm
      Safety.Asks via 0xD args a s u → rtcArgs args = true → ∃ t, exec (.rtcSet via) s = .next t ∧
        t.rtc = (let r := if f.val % 2 = 1 then { s.rtc with time := timeOf time, secUs := 0, osf := false } else s.rtc
          if f.val / 2 % 2 = 1 then { r with alarm := timeOf alarm, alarmEn := decide (4 ≤ f.val) } else r) ∧
        t.mtr.pendingSet = s.mtr.running) ∧
    (∀ p : Fin 4, Safety.Asks via 0xE [BitVec.ofNat 8 p, 0, 0, 0] a s u → s.power.state = .run ∨ s.power.state = .halt →
      (lbThere s p = true → (lbOf s p).state = .busOff → ∃ t, exec (.lbRecover via) s = .next t ∧
        lbOf t p = { lbOf s p with state := .recovering, via := a.path } ∧ ∀ q : Fin 4, q ≠ p → lbOf t q = lbOf s q) ∧
      (lbThere s p = false ∨ (lbOf s p).state ≠ .busOff → ∃ t, exec (.lbRecover via) s = .next t ∧ t.lb = s.lb ∧
        t.power = { s.power with refusals := satInc s.power.refusals })) ∧
    (∀ args : Bytes, works → s.power.pdOn.getLsbD 6 = true → args.length = 20 → tblArgs args = true → Safety.Asks via 0xF args a s u →
      ∀ p ∈ [(Instr.search via, 1), (.tblNext via, 2), (.insert via, 3), (.delete via, 4), (.flushByPort via, 5), (.rehash via, 6)],
      leAt args 0 1 = p.2 → s.tbl.rehash = none → s.tbl.held = false ∨ p.2 = 1 →
      let x := (tblRun (tblOf args) u).1
      ∃ t, exec p.1 s = .next t ∧
        ((tblRun (tblOf args) u).2 = 0 → p.2 ≤ 5 ∧ t = respond a 0 ([BitVec.ofNat 8 (b2n x.tbl.found), 0] ++ leBytes 2 x.tbl.resIndex.toNat ++
          x.tbl.res.flatMap fun w => leBytes 4 w.toNat) { x with tbl := { x.tbl with status := 0 } }) ∧
        ((tblRun (tblOf args) u).2 ≠ 0 → p.2 = 3 ∧ t = respond a 0x41 [] (sj 0x110 1
            (item a.code.toNat ++ item a.path.toNat ++ item 0x41 ++ item 4 ++ item (stateCode s.power.state) ++
              item (roleCode s.power.role))
            { x with tbl := { x.tbl with status := 0x41 }, power := { x.power with refusals := satInc s.power.refusals } }) ∨
          p.2 = 6 ∧ t.tbl.rehash = some (bitOf (leAt args 1 1) 1, BitVec.ofNat 16 (tblArg0 (tblOf args))) ∧ t.tbl.status = 1)) ∧
    (∀ args : Bytes, works → s.power.pdOn.getLsbD 6 = false → args.length = 20 → tblArgs args = true → Safety.Asks via 0xF args a s u →
      ∀ p ∈ [(Instr.search via, 1), (.tblNext via, 2), (.insert via, 3), (.delete via, 4), (.flushByPort via, 5), (.rehash via, 6)],
      leAt args 0 1 = p.2 → exec p.1 s = .next (respond a 0x21 [] (sj 0x110 1
        (item a.code.toNat ++ item a.path.toNat ++ item 0x21 ++ item 4 ++ item (stateCode s.power.state) ++ item (roleCode s.power.role))
        { u with power := { u.power with refusals := satInc s.power.refusals } }))) ∧
    (∀ (w : Bool) (seed : Half), s.power.pdOn.getLsbD 6 = true → s.tbl.rehash = some (w, seed) → ∃ t, exec .rehashDone s = .next t ∧
      t.tbl.rehash = none ∧ (t.tbl.status = 0 ∨ t.tbl.status = 0x41)) ∧
    (∀ args : Bytes, works → args.length = 15 → crcStartArgs (0 :: args) = true → Safety.Asks via 0x10 (0 :: args) a s u → ∃ t,
      exec (.crcJobStart via) s = .next t ∧ t.crc.nextJob = (if s.crc.nextJob = 65535 then 1 else s.crc.nextJob + 1) ∧
      ∃ j, t.crc.jobs = (j :: s.crc.jobs).take 16 ∧ j.job = s.crc.nextJob ∧ j.state = (if 16 ≤ requestJobs u then 3 else 0)) ∧
    (∀ (n : Half) (j : CrcJob), works → Safety.Asks via 0x10 ([1] ++ zeros 11 ++ leBytes 2 n.toNat ++ [0, 0]) a s u →
      (s.crc.jobs.find? fun j => decide (j.job = n.toNat)) = some j →
      exec (.crcJobResult via) s = .next (respond a 0 (leBytes 2 j.job ++ [j.state, 0] ++ leBytes 4 j.value.toNat) u)) ∧
    (∀ (role : Fin 4) (key : Bytes), works → key.length = 32 →
      let keys := fun (op : Nat) (k : Option Bytes) (c : Instr) => ∃ t, exec c s = .next t ∧ roleKey t role = k ∧
        (∀ q : Fin 4, q ≠ role → roleKey t q = roleKey s q) ∧ t.mgt.svcOpen = s.mgt.svcOpen ∧
        t = sj 0x931 0 (item role ++ item op ++ item a.path.toNat) { respond a 0 [] u with mgt := t.mgt }
      (Safety.Asks via 0x11 ([0, BitVec.ofNat 8 role, 0, 0] ++ key) a s u → (∃ x ∈ key, x ≠ 0) → keys 0 (some key) (.keyPolicySet via)) ∧
      (Safety.Asks via 0x11 [1, BitVec.ofNat 8 role, 0, 0] a s u → keys 1 none (.keyPolicyClear via)) ∧
      (Safety.Asks via 0x11 [2, BitVec.ofNat 8 role, 0, 0] a s u → exec (.keyPolicyList via) s = .next (respond a 0
        [BitVec.ofNat 8 (maskOf 4 fun i => (roleKey s i).isSome), 0, 0, 0] u))) ∧
    (s.mgt.svcOpen = true →
      exec .svcFrameTimeout s = .next (if s.mgt.svcBuf = [] then s else
        { s with mgt := { s.mgt with svcBad := satInc s.mgt.svcBad, svcBuf := [] } }) ∧
      (∃ t, exec .svcIdleClose s = .next t ∧ Safety.Booked [2, 3] { s with mgt := { s.mgt with svcOpen := false, svcBuf := [] } } t ∧
        Safety.journals 0x921 0 (item 0) s t) ∧
      (∃ t, exec .svcVbusLost s = .next t ∧
        Safety.Booked [2, 3] { s with mgt := { s.mgt with svcOpen := false, svcBuf := [], vbus := false } } t ∧
        Safety.journals 0x921 0 (item 1) s t))

/-! ### Hot standby (R196 to R231) -/

/-- R208, R209: a SYNC frame arrives as it was sent. Whatever type, LAST bit, lap, segment and payload of at most 4,096 bytes
it is built of, the receiver's checks pass and read the same. -/
def Obligations.SyncFramesParseAsSent : Prop :=
  ∀ (typ : Nat) (last : Bool) (lap seg : Nat) (payload : Bytes), 1 ≤ typ → typ ≤ 6 → lap < 2 ^ 64 → seg < 2 ^ 16 →
    payload.length ≤ 4096 →
    syncParse (syncFrame typ last lap seg payload) =
      some { typ := typ, last := last, lap := lap, seg := seg, payload := payload }

/-- R208 to R213, R217, R228, R364: what SYNC carries. With PD11 on in RUN or HALT the unit sends HEARTBEAT and, outside a
tracking pair, HELLO; with PD11 on, in any state, a frame that fails its CRC is counted and nothing else; in RUN and HALT a
valid one ends the silence, shows the partner, keeps a HASH, writes STATE bytes, or loads NOW_MS and starts a shadow lap; while the
last one still writes through it waits (R125; that it then begins with LAP_START, log 37, is the model's choice, DEDUCED). With
PD11 off no frame has an effect, in another state no valid one has. That the LAP of HELLO and HEARTBEAT, which refer to no lap, is the
unit's own lap number, and that the reason in PAIR_REFUSED has one byte, are the model's choices (log 91, DESIGN CHOICE). What the SYNC cage's module reports with a loss or a lock of the
signal is free but for what the event itself says (log 81, DESIGN CHOICE). -/
def Obligations.SyncFramesAreSentAndHeard : Prop :=
  ∀ (f : Bytes) (s : State),
    let on := s.power.pdOn.getLsbD 11 = true ∧ (s.power.state = .run ∨ s.power.state = .halt)
    let sends := fun (typ : Nat) (payload : Bytes) =>
      ({ s with out := { s.out with sync := syncFrame typ true s.lap.num.toNat 0 payload :: s.out.sync } } : State)
    let h : State := { s with sbx := { s.sbx with lastRxUs := some s.clk.wallUs
                                                  probing := s.sbx.probing && decide (s.sby.cond = .detached) } }
    let frames := [Instr.syncHello f, .heartbeat f, .lapstart [f], .hash f, .stateFrame f, .resync f, .withdraw f, .leave f, .yield f, .editFwd f,
      .editResult f, .editCmdTrialStart f, .editCmdTrialAbort f, .editCmdDiscard f, .editCmdReport f, .editReport f, .pairRefused f]
    (¬ on → exec .heartbeatSend s = .next s ∧ exec .syncHelloSend s = .next s ∧
      (s.power.pdOn.getLsbD 11 = false ∨ (syncParse f).isSome = true → ∀ c ∈ frames, exec c s = .next s)) ∧
    (on → exec .heartbeatSend s = .next (sends 2 ([BitVec.ofNat 8 (stateCode s.power.state), BitVec.ofNat 8 (roleCode s.power.role),
        BitVec.ofNat 8 (condCode s.sby.cond), 0] ++ leBytes 4 (runMs s))) ∧
      (partnerNamed s = true → tracking s = false →
        exec .syncHelloSend s = .next (sends 1 (syncHelloPayload s)))) ∧
    (partnerNamed s = false ∨ tracking s = true → exec .syncHelloSend s = .next s) ∧
    (s.power.pdOn.getLsbD 11 = true → syncParse f = none → ∀ c ∈ frames,
      exec c s = .next { s with sby := { s.sby with crcErr := satInc s.sby.crcErr } }) ∧
    (on → ∀ x, syncParse f = some x →
      (x.typ ≠ 1 → exec (.syncHello f) s = .next h) ∧ (x.typ ≠ 2 → exec (.heartbeat f) s = .next h) ∧
      (x.typ ≠ 4 → exec (.hash f) s = .next h) ∧ (x.typ ≠ 5 → exec (.stateFrame f) s = .next h) ∧
      (x.typ = 2 → exec (.heartbeat f) s = .next { h with
        sby := { s.sby with pState := BitVec.ofNat 4 (leAt x.payload 0 1), pRole := BitVec.ofNat 4 (leAt x.payload 1 1)
                            pCond := BitVec.ofNat 4 (leAt x.payload 2 1) }
        sbx := { h.sbx with partnerRunMs := leAt x.payload 4 4, everSeen := true } }) ∧
      (x.typ = 4 → s.power.role = .leader → tracking s = true → s.sbx.ignoring = false → x.payload.length = 16 →
        exec (.hash f) s = .next { h with sbx := { h.sbx with gotHashes := s.sbx.gotHashes ++ [hashOf x.lap x.payload] } }) ∧
      (x.typ = 5 → s.power.role = .pacer → s.sby.cond = .resync → 4 ≤ x.payload.length →
        let off := leAt x.payload 0 4
        let bs := x.payload.drop 4
        ∃ t, exec (.stateFrame f) s = .next t ∧ t.sby.cond = (if x.last then .tracking else .resync) ∧
          t.lap.num = (if x.last then BitVec.ofNat 64 x.lap else s.lap.num) ∧ t.power = s.power ∧ t.dio = s.dio ∧
          (off + bs.length ≤ 1024 → ∀ i < bs.length, t.img.q.extractLsb' (8 * (off + i)) 8 = nth 0 bs i)) ∧
      (x.typ = 3 → x.last = true → x.seg = 0 → s.power.role = .pacer → s.sby.cond = .tracking → s.lap.running = .idle →
        s.edit.state = .none → s.sbx.batonB = 0 → s.sbx.lsQueue = [] → s.sbx.trialDue = false → ∃ t, exec (.lapstart [f]) s = .next t ∧
        if s.clk.opUs < s.ctx.wtEndUs then t.lap.running = .idle ∧ t.lap.num = s.lap.num ∧ t.sbx.lsQueue = [(x.lap, x.payload)] else
        t.lap.running = .shadow ∧ t.lap.num = BitVec.ofNat 64 x.lap ∧ t.lap.nowMs = BitVec.ofNat 32 (leAt x.payload 0 4) ∧
        t.lap.nowBase = (s.clk.opUs : Int) - 1000 * (leAt x.payload 0 4 : Int) ∧ t.sbx.shadowLap = BitVec.ofNat 64 x.lap ∧
        t.power.role = .pacer) ∧
      (x.typ = 6 → 4 ≤ x.payload.length → leAt x.payload 0 1 = 9 → exec (.pairRefused f) s = .next { h with
        sby := { s.sby with reason := BitVec.ofNat 4 (leAt x.payload 4 1) } })) ∧
    (s.power.pdOn.getLsbD 11 = true →
      ∀ p ∈ [(Instr.syncSignalLost, false), (.syncSignalLocked, true)], ∃ t, exec p.1 s = .next t ∧
        t = { s with
          clk := { s.clk with freeCount := t.clk.freeCount }
          sby := { s.sby with lock := p.2, sfp := t.sby.sfp, los := t.sby.los, txFault := t.sby.txFault
                              rxPwr := t.sby.rxPwr, txPwr := t.sby.txPwr } } ∧
        (p.2 = true → t.sby.sfp = true ∧ t.sby.los = false) ∧
        (t.sby.sfp = false → t.sby.los = false ∧ t.sby.txFault = false ∧ t.sby.rxPwr = 0 ∧ t.sby.txPwr = 0))

/-- R215 to R222, R225 to R230: pairing, parting and takeover. The unit that does not lead takes the pacer role in the
condition that R226 gives, and of two SOLO units that have run equally long to 100 ms the one of the lower member address leads; a pacer
in any condition but TRACKING and WITHDRAWN, a REFUSED one too, takes its role anew where its partner is SOLO (R227); a YIELD makes its partner the leader; silence makes a leader SOLO and a pacer probe; a pacer that
hears nothing, or a LEAVE, takes over; WITHDRAW and RESYNC set its condition; a failed resynchronisation is a divergence. That the
resynchronisation that follows a YIELD starts with the lap after the leader's present one is the model's choice (log 91, DESIGN CHOICE). -/
def Obligations.PairsFormPartAndTakeOver : Prop :=
  ∀ (f : Bytes) (x : SyncIn) (s : State),
    let on := s.power.pdOn.getLsbD 11 = true ∧ s.power.state = .run ∧ syncParse f = some x
    let control := fun (code : Nat) => on ∧ x.typ = 6 ∧ 4 ≤ x.payload.length ∧ leAt x.payload 0 1 = code
    let theirMs := leAt x.payload 8 4
    let tookOver := fun (t : State) => t.power.role = .solo ∧ t.power.state = .run ∧ t.sby.cond = .unpaired ∧
      t.sby.takeovers = satInc s.sby.takeovers ∧ t.sbx.probing = false ∧
      (s.sby.cond = .tracking → t.img = s.img ∧ t.dio = s.dio ∧ t.lap.num = s.lap.num)
    (on → x.typ = 1 → x.payload.length = 64 → partnerNamed s = true → leAt x.payload 6 1 = 3 →
      let a := admissionOf x.payload s
      let near := theirMs ≤ runMs s + 100 ∧ runMs s ≤ theirMs + 100
      (s.power.role = .leader ∨ s.power.role = .solo ∧ (theirMs + 100 < runMs s ∨ near ∧ ownMember s ≤ ownPartner s) → ∃ t,
        exec (.syncHello f) s = .next t ∧ t = { s with
          sby := { s.sby with pMember := BitVec.ofNat 8 (leAt x.payload 4 1), pState := 3, pRole := BitVec.ofNat 4 (leAt x.payload 7 1) }
          sbx := { s.sbx with lastRxUs := some s.clk.wallUs, everSeen := true, partnerRunMs := theirMs, admission := a
                              probing := s.sbx.probing && decide (s.sby.cond = .detached) } }) ∧
      let stays := s.sby.cond = .refused ∧ a ≠ 1 ∧ a ≠ 2
      let taken := fun (t : State) => t.power.role = .pacer ∧ t.power.state = .run ∧
        t.sby.cond = (if a = 1 then .resync else if a = 2 then .migrating else .refused) ∧
        (¬ stays → t.sbx.held = true ∧ t.lap.running = .idle) ∧ (stays → t.sbx.held = s.sbx.held ∧ t.lap.running = s.lap.running)
      (s.power.role = .solo → leAt x.payload 7 1 = 1 → runMs s + 100 < theirMs ∨ near ∧ ownPartner s < ownMember s → ∃ t,
        exec (.syncHello f) s = .next t ∧ taken t) ∧
      (s.power.role = .pacer → s.sby.cond ≠ .tracking → s.sby.cond ≠ .withdrawn → leAt x.payload 7 1 = 1 → ∃ t,
        exec (.syncHello f) s = .next t ∧ taken t)) ∧
    (control 4 → s.power.role = .solo →
      (s.sbx.admission = 1 → ∃ t, exec (.yield f) s = .next t ∧ t.power.role = .leader ∧ t.sbx.rsActive = true ∧
        t.sbx.rsStartLap = s.lap.num + 1 ∧ t.sbx.migrating = false) ∧
      (s.sbx.admission = 2 → ∃ t, exec (.yield f) s = .next t ∧ t.power.role = .leader ∧ t.sby.cond = .leading ∧
        t.sbx.migrating = true)) ∧
    (s.power.state = .run → s.sbx.lastRxUs.isSome = true →
      (s.power.role = .leader → ∃ t, exec .syncSilence s = .next t ∧ t.power.role = .solo ∧ t.sby.cond = .unpaired ∧
        t.sbx.lastRxUs = none ∧ t.sbx.dualLead = true) ∧
      (s.power.role = .pacer → ∃ t, exec .syncSilence s = .next t ∧ t.sbx.probing = true ∧ t.sbx.lastRxUs = none ∧
        t.power = s.power ∧ t.sby = s.sby) ∧
      (s.power.role = .solo → exec .syncSilence s = .next { s with sbx := { s.sbx with lastRxUs := none } })) ∧
    (s.sbx.lastRxUs = none → exec .syncSilence s = .next s) ∧
    (s.power.role = .pacer → s.sbx.probing = true →
      exec .pxProbeSend s = .next (pxSend (memberTo s (ownPartner s)) 1 1 (helloPayload s) s) ∧
      (s.sbx.pxSeen = true → s.sby.cond ≠ .withdrawn → ∃ t, exec .probeWindowEnd s = .next t ∧ t.sby.cond = .detached ∧
        t.power.role = .pacer ∧ t.sbx.probing = true) ∧
      (s.sbx.pxSeen = false → s.power.state = .run → ∃ t, exec .probeWindowEnd s = .next t ∧ tookOver t)) ∧
    (s.power.role ≠ .pacer ∨ s.sbx.probing = false → exec .pxProbeSend s = .next s ∧ exec .probeWindowEnd s = .next s) ∧
    (control 3 →
      (s.power.role = .pacer → ∃ t, exec (.leave f) s = .next t ∧ tookOver t) ∧
      (s.power.role = .leader → ∃ t, exec (.leave f) s = .next t ∧ t.power.role = .solo ∧ t.sby.cond = .unpaired)) ∧
    (control 2 → s.power.role = .pacer → ∃ t, exec (.withdraw f) s = .next t ∧ t.sby.cond = .withdrawn ∧ t.power.role = .pacer ∧
      t.sbx.held = true) ∧
    (control 1 → s.power.role = .pacer → s.sby.cond ≠ .withdrawn → ∃ t, exec (.resync f) s = .next t ∧ t.sby.cond = .resync ∧
      t.img = { fresh := s.img.fresh } ∧ t.sbx.held = true ∧ t.power.role = .pacer) ∧
    (s.power.role = .leader → s.sbx.rsActive = true → ∃ t, exec .resyncFailed s = .next t ∧
      t.sby.diverge = satInc s.sby.diverge ∧ (t.power.role = .solo ∨ t.power.role = .leader ∧ t.sbx.rsActive = true)) ∧
    (s.sby.window = true → ∃ t, exec .pairingWindowEnd s = .next t ∧
      Safety.Booked [2, 3] { s with sby := { s.sby with window := false }, sbx := { s.sbx with missingSaid := t.sbx.missingSaid } } t ∧
      (partnerNamed s = true → s.sbx.everSeen = false → s.sbx.missingSaid = false → Safety.journals 0x30D 1 (item (ownPartner s)) s t))

/-- R23, R196 to R199, R231: the edit traffic of a pair. EDIT_FWD builds the package at the pacer, in delta staging, and it is checked whole; its
result, or none in time, decides at the leader; EDIT_CMD starts, aborts and drops at the pacer as the leader says; a report
comes back in segments and answers the request that waits. That the operation in EDIT_CMD and the result code of EDIT_RESULT are one
byte wide, so that the window of 2 bytes and the slot of 1 byte stand right behind the operation, is the model's choice (log 91, DESIGN
CHOICE). -/
def Obligations.EditsCrossThePair : Prop :=
  ∀ (f : Bytes) (x : SyncIn) (s : State),
    let h : State := { s with sbx := { s.sbx with lastRxUs := some s.clk.wallUs
                                                  probing := s.sbx.probing && decide (s.sby.cond = .detached) } }
    let arg := fun (k n : Nat) => leAt x.payload (4 + k) n
    let control := fun (code : Nat) => s.power.pdOn.getLsbD 11 = true ∧ s.power.state = .run ∧ syncParse f = some x ∧
      x.typ = 6 ∧ 4 ≤ x.payload.length ∧ leAt x.payload 0 1 = code
    (control 5 → s.power.role = .pacer → s.sby.cond ≠ .withdrawn →
      let all := (if arg 0 4 = 0 then [] else s.edit.fwdBytes) ++ x.payload.drop 8
      let staged := fun (n : Nat) (k : Bytes) => stagingWrite { h with
        edit := { s.edit with fwdBytes := k }, upd := { s.upd with edit := some { total := n, received := all.length, data := all } } }
      (if arg 0 4 = 0 then 0 else s.edit.fwdBytes.length) = arg 0 4 →
      (x.last = false → exec (.editFwd f) s = .next (staged 0 all)) ∧
      (x.last = true → ∃ t, exec (.editFwd f) s = .next t ∧
        (∀ new, editCheck all (staged all.length []) = .ok new → t.edit.state = .loaded ∧ t.edit.prog = new) ∧
        (∀ e, editCheck all (staged all.length []) = .error e → t.edit.state = .none ∧ t.edit.result = BitVec.ofNat 8 e.code))) ∧
    (control 6 → s.edit.peerWait = true → ∃ t, exec (.editResult f) s = .next t ∧
      (arg 0 1 = 0 → t.edit.state = .loaded ∧ t.edit.prog = s.edit.prog) ∧
      (arg 0 1 ≠ 0 → t.edit.state = .none ∧ t.edit.result = 10)) ∧
    (s.edit.peerWait = true → ∃ t, exec .editPeerTimeout s = .next t ∧ t.edit.state = .none ∧ t.edit.result = 10 ∧ t.prog = s.prog) ∧
    (s.edit.peerWait = false → exec .editPeerTimeout s = .next s) ∧
    (control 7 → s.power.role = .pacer → s.sby.cond = .tracking →
      (arg 0 1 = 1 → s.edit.state = .loaded → ∃ t, exec (.editCmdTrialStart f) s = .next t ∧
        t.edit.state = (if arg 1 2 = 0 then .ripe else .trial) ∧ t.edit.window = arg 1 2) ∧
      (arg 0 1 = 2 → s.edit.state = .trial → ∃ t, exec (.editCmdTrialAbort f) s = .next t ∧ t.edit.state = .loaded ∧
        t.edit.abort = 1) ∧
      (arg 0 1 = 3 → s.edit.state ∈ [.loaded, .trial, .ripe] → ∃ t, exec (.editCmdDiscard f) s = .next t ∧ t.edit.state = .none ∧
        bankOf (!s.upd.active) t = {}) ∧
      (arg 0 1 = 4 → exec (.editCmdReport f) s = .next (syncControl 8 (s.edit.reports.getD (arg 1 1) (zeros 1056)) h))) ∧
    (control 8 →
      let all := s.edit.peerReport ++ x.payload.drop 4
      (x.last = false → exec (.editReport f) s = .next { h with edit := { s.edit with peerReport := all } }) ∧
      (x.last = true → ∀ a as, s.px.reportTo = a :: as → exec (.editReport f) s = .next (respond a 0 (padTo 1056 all)
        { h with edit := { s.edit with peerReport := [] }, px := { s.px with reportTo := as } })))

/-! ### Mains Watch and metering (R251 to R276) -/

/-- R50, R253 to R259, R276: a channel takes its raw samples one by one; a code saturates and is then over-range; a window ends
with the sample that crosses zero against HYST, or that completes HC_MAX ms, and gives its channel's RMS with 8 fractional bits
(its rounding is open, log 14) and W bits, and moves its phase. A raised trigger source, or an output point that crosses the
level or differs by the slope, starts a capture where the source is enabled, none runs and buffers are free, or is counted;
DETAIL is the DI, the TRG line or the channel, and otherwise free (log 3); that a point on AI_LEVEL has crossed it, and one that leaves it
has not, is the model's choice (log 105, DESIGN CHOICE). The raw samples of a record's points end the capture
or go on to group B; the record stands in its buffer, with its header, its points, the leading ones that were never acquired as 0, and
of each channel's valid points mean, RMS, extremes and flags, and its descriptor goes to the record ring (R259 to R262). While no samples flow nothing happens. -/
def Obligations.MainsWatchFollowsTheSamples : Prop :=
  ∀ (c : AcqCfg) (ch : Fin 8) (x : Int) (head : List Int) (mid : Int) (reps : Nat) (tail : List Int) (prev cur : Int) (pos : Bool)
    (v : Word) (runs : List (Nat × Point)) (pts : List Point) (s : State), acqCfg s = some c →
    (mwRuns s = false → exec (.halfCycleEnd ch head mid reps tail) s = .next s ∧ exec (.recordTrigger prev cur) s = .next s ∧
      exec .periodicTrigger s = .next s ∧ exec (.recordStored runs pts) s = .next s ∧ exec (.aiOverRange ch pos) s = .next s) ∧
    (mwRuns s = true →
      (chEnabled c ch = false → exec (.halfCycleEnd ch head mid reps tail) s = .next s) ∧
      (chEnabled c ch = true → exec (.halfCycleEnd ch head mid reps tail) s =
        .next ((head ++ List.replicate reps mid ++ tail).foldl (rawSample c ch) s)) ∧
      (chEnabled c ch = true →
        let hyst : Int := (nth {} c.ch ch).hyst
        let w := winOf s ch
        let y : Int := max (-32768) (min 32767 x)
        let n := w.n + 1
        let sumSq := w.sumSq + y.natAbs * y.natAbs
        let ovr := w.ovr || decide (y ≠ x)
        let side := if hyst ≤ y then 2 else if y ≤ -hyst then 1 else w.side
        let cross := (decide (hyst ≤ y) && decide (w.side = 1)) || (decide (y ≤ -hyst) && decide (w.side = 2))
        (cross = false → n < 250 * (nth {} c.ch ch).hcMax → exec (.halfCycleEnd ch [x] 0 0 []) s = .next { s with acq := { s.acq with
          wins := sput {} s.acq.wins ch { n := n, sumSq := sumSq, ovr := ovr, side := side, last := y } } }) ∧
        (cross = true ∨ 250 * (nth {} c.ch ch).hcMax ≤ n → s.acq.hcRms.length = 8 → sumSq * 65536 < n * 2 ^ 48 →
          ∃ t, exec (.halfCycleEnd ch [x] 0 0 []) s = .next t ∧ t.acq.wins = sput {} s.acq.wins ch { side := side, last := y } ∧
          ∃ q rms : Nat, q * q * n ≤ sumSq * 65536 ∧ sumSq * 65536 < (q + 1) * (q + 1) * n ∧
            (rms = q ∨ rms = q + 1 ∧ q * q * n ≠ sumSq * 65536) ∧
            nth 0 t.acq.hcRms ch = BitVec.ofNat 24 rms ∧
            t.acq.w.getLsbD ch = decide (rms < 256 * (nth {} c.ch ch).lowTh) ∧
            t.acq.w.getLsbD (8 + ch) = (decide ((nth {} c.ch ch).highTh ≠ 0) && decide (256 * (nth {} c.ch ch).highTh < rms)) ∧
            t.acq.w.getLsbD (16 + ch) = ovr ∧ t.acq.w.getLsbD (24 + ch) = cross ∧ t.acq.ovrNow.getLsbD ch = ovr ∧
            t.acq.ovrSeen.getLsbD ch = (ovr || s.acq.ovrSeen.getLsbD ch) ∧
            (∀ p : Fin 3, phaseOf t p = (if phaseOn c p && decide (voltCh c p = ch.val) then
              phaseStep c rms (nth {} c.ch ch).lowTh (nth {} c.ch ch).retTh (phaseOf s p) else phaseOf s p)) ∧
            t.acq.capture = s.acq.capture ∧ t.dio = s.dio)) ∧
      (chEnabled c ch = true → ∃ t, exec (.aiOverRange ch pos) s = .next t ∧
        Safety.Booked [2, 3] { s with acq := { s.acq with
          ovrNow := t.acq.ovrNow, ovrSeen := t.acq.ovrSeen
          wins := sput {} s.acq.wins ch { winOf s ch with ovr := true, last := if pos then 32767 else -32768 } } } t ∧
        ∀ k : Fin 8, t.acq.ovrNow.getLsbD k = (decide (k = ch) || s.acq.ovrNow.getLsbD k) ∧
          t.acq.ovrSeen.getLsbD k = (decide (k = ch) || s.acq.ovrSeen.getLsbD k)) ∧
      (awake s = true → ∀ p ∈ [(Instr.swTrigWrite v, 4, v.getLsbD 0), (.periodicTrigger, 5, true)], ∃ t, exec p.1 s = .next t ∧
        t = { s with acq := { s.acq with raised := t.acq.raised } } ∧
        ∀ i : Fin 6, t.acq.raised.getLsbD i = (s.acq.raised.getLsbD i || (decide (i.val = p.2.1) && p.2.2 && c.trigEn.getLsbD i))) ∧
      (let src := (aiSources c prev cur ||| s.acq.raised) &&& c.trigEn
       (src = 0 → exec (.recordTrigger prev cur) s = .next s) ∧
       (src ≠ 0 → ∀ k, s.acq.capture = some k → ∃ t, exec (.recordTrigger prev cur) s = .next t ∧ t = { s with
          clk := { s.clk with freeCount := t.clk.freeCount }
          acq := { s.acq with raised := 0, extra := satInc s.acq.extra, capture := some { k with extra := satInc k.extra } } }) ∧
       (src ≠ 0 → s.acq.capture = none → (freeSets c s = [] ∨ freeSlots c s < (mwGroups c).length) →
          ∃ t, exec (.recordTrigger prev cur) s = .next t ∧
          Safety.Booked [2, 3] { s with acq := { s.acq with raised := 0, lost := satInc s.acq.lost } } t) ∧
       (src ≠ 0 → s.acq.capture = none → ∀ k ks, freeSets c s = k :: ks → (mwGroups c).length ≤ freeSlots c s →
          ∃ t detail, exec (.recordTrigger prev cur) s = .next t ∧
          Safety.Booked [30, 2, 3] { s with
            acq := { s.acq with raised := 0, capture := some {
              trigUs := s.clk.opUs, sources := src, detail := detail, set := k, armedUs := s.acq.armedUs
              nextGroup := (mwGroups c).headD 0 } }
            dioc := { s.dioc with trgDrive := t.dioc.trgDrive } } t ∧
          (src.getLsbD 0 = true → detail = BitVec.ofNat 32 s.acq.raisedDi) ∧
          (src.getLsbD 0 = false → src.getLsbD 1 = true → detail = BitVec.ofNat 32 s.acq.raisedTrg) ∧
          (src.getLsbD 0 = false → src.getLsbD 1 = false → src.getLsbD 2 = true ∨ src.getLsbD 3 = true →
            detail = BitVec.ofNat 32 c.aiCh) ∧
          ∀ i : Fin 4, t.dioc.trgDrive.getLsbD i = (decide (c.trigOut.toNat = i.val) || s.dioc.trgDrive.getLsbD i))) ∧
      (∀ k, s.acq.capture = some k →
        ((expandRuns runs pts).length ≠ c.recLen * 2 ^ groupK c k.nextGroup → exec (.recordStored runs pts) s = .next s) ∧
        ((expandRuns runs pts).length = c.recLen * 2 ^ groupK c k.nextGroup → ∃ t, exec (.recordStored runs pts) s = .next t ∧
          t.acq.recSeq = s.acq.recSeq + 1 ∧
          t.acq.capture = (if k.nextGroup ≠ 1 ∧ c.grpEn.getLsbD 1 = true then some { k with nextGroup := 1 } else none) ∧
          t.acq.lost = s.acq.lost ∧ t.acq.w = s.acq.w) ∧
        (let g := k.nextGroup
         let e := groupK c g
         let trig := c.recLen * c.pretrig / 100
         let pre := min trig ((k.trigUs - s.acq.startUs - 1) / (4 * 2 ^ e) - (k.armedUs - s.acq.startUs) / (4 * 2 ^ e))
         let miss := trig - pre
         let size := 192 + 12 * c.recLen
         let a := 0xE00000 + k.set * setSize c + (if g = 1 ∧ c.grpEn.getLsbD 0 = true then setSize c / 2 else 0)
         let chan := fun (i : Nat) (p : Point) => nth 0 [p.c0, p.c1, p.c2, p.c3] i
         let code := fun (y : Int) => max (-32768) (min 32767 y)
         let raw := expandRuns runs pts
         let point := fun (i j : Nat) => (((raw.drop (j * 2 ^ e)).take (2 ^ e)).map fun p => code (chan i p)).sum / 2 ^ (e - e / 2)
         let xs := fun (i : Nat) => (List.range (c.recLen - miss)).map fun j => point i (miss + j)
         let n := c.recLen - miss
         let sq := fun (i : Nat) => ((xs i).map fun y => y * y).sum
         let beyond := fun (i : Nat) => (raw.drop (miss * 2 ^ e)).any fun p => decide (code (chan i p) ≠ chan i p)
         raw.length = c.recLen * 2 ^ e → c.pretrig ≤ 100 → Safety.storesWf s → a + size ≤ 16777216 →
         (∀ m ∈ [c.ring, 27, 2, 3], (ringGet s m).base + ringDepth (ringGet s m) ≤ 262144) → ∃ t, exec (.recordStored runs pts) s = .next t ∧
           (∀ y, y < a ∨ a + size ≤ y → ¬ Safety.inSlots s [c.ring, 27, 2, 3] y → memGet 0 t.data y = memGet 0 s.data y) ∧
           (let b := dataRead a size t
            leAt b 0 2 = 0x4D52 ∧ leAt b 2 1 = g % 256 ∧ leAt b 4 4 = (s.acq.recSeq + 1).toNat ∧ leAt b 8 4 = size ∧
            leAt b 12 1 = e % 256 ∧ leAt b 14 2 = k.sources.toNat ∧ leAt b 16 4 = c.recLen ∧ leAt b 20 4 = pre ∧ leAt b 24 4 = trig ∧
            leAt b 28 8 = k.trigUs % 2 ^ 64 ∧ leAt b 36 4 = s.power.pwrCycles.toNat ∧ leAt b 40 4 = k.detail.toNat ∧
            leAt b 44 2 = k.extra.toNat ∧ leAt b 60 4 = crc32c (b.take 60 ++ b.drop 64) ∧
            ((leAt b 3 1).testBit 0 = true ↔ ∃ i < 4, 2 ^ 55 - 1 < sq i) ∧ (leAt b 3 1).testBit 1 = decide (pre < trig) ∧
            ((leAt b 3 1).testBit 2 = true ↔ ∃ i < 4, beyond i = true) ∧
            (∀ j < c.recLen, ∀ i < 4, slice b (192 + 3 * (4 * j + i)) 3 = leInt 3 (if j < miss then 0 else point i j)) ∧
            (∀ i < 4, ((leAt b (94 + 32 * i) 1).testBit 0 = true ↔ 2 ^ 55 - 1 < sq i) ∧ (leAt b (94 + 32 * i) 1).testBit 2 = beyond i ∧
              ((leAt b (94 + 32 * i) 1).testBit 1 = true → leAt b (84 + 32 * i) 8 = 0) ∧
              (0 < n →
                (sq i ≤ 2 ^ 55 - 1 → let mean : Int := ((2 * (xs i).sum.natAbs + n) / (2 * n) : Nat)
                  slice b (64 + 32 * i) 4 = leInt 4 (if (xs i).sum < 0 then -mean else mean)) ∧
                (let rms := leAt b (68 + 32 * i) 4
                 let q := (min (sq i) (2 ^ 55 - 1)).toNat
                 rms * rms * n ≤ q ∧ q < (rms + 1) * (rms + 1) * n) ∧
                ∃ lo ∈ xs i, ∃ hi ∈ xs i, (∀ y ∈ xs i, lo ≤ y ∧ y ≤ hi) ∧
                  slice b (72 + 32 * i) 12 = leInt 4 lo ++ leInt 4 hi ++ leInt 4 (hi - lo)))) ∧
           (let r := ringGet s c.ring
            c.ring ∉ [27, 2, 3] → Safety.ringApart c.ring s → (∀ y, Safety.inSlots s [c.ring] y → ¬ Safety.inSlots s [27] y) →
            ringDepth r ≠ 0 → ringFull r = false → (r.policy = 1 → r.waiting = []) →
              (ringGet t c.ring).pi = r.pi + 1 ∧ dataRead (ringAddr r r.pi) 16 t = leBytes 4 a ++
                leBytes 2 (if size < 65536 then size else 0) ++ [0x0C, 0] ++ leBytes 4 k.trigUs ++ leBytes 4 (s.acq.recSeq + 1).toNat))))

/-- R50, R265 to R275: a metering tick of 2,500 samples forms Σ v·i of each phase's pair and Σ of AI6 in saturated codes, scales the
mean by the gains, and counts what comes of it: µWh of each enabled phase to the tariff in force and to the running interval,
its record, with the tick's energy and its demand, stands in the log, and a demand above the maximum of its tariff is the new maximum,
unless the interval is partial or was cut (R269). A tariff that the source asks for off a boundary takes effect at once, closes the
interval with TARIFF_CUT and is recorded; of the schedule it is the last enabled entry of the day whose time the tick holds (R267).
The first tick after an outage writes the cut interval with PARTIAL and one OUTAGE record of the whole intervals between, or of none
with TIME_UNVERIFIED where the RTC is not trusted, applies the entry overdue and opens a new interval with PARTIAL (R275), or one with
CLOCK_SET where the clock has been set (R272). At PFW the tick ends with the energy of its actual duration, and what falls in its
nominal 10 ms still comes: a boundary with COMPLETE and COINCIDENT, a tariff; then metering freezes, with a snapshot and SJ 0x0622
(R274). During a press of region
6 the tick repeats the last one's values (R110). Fewer or more samples make no tick. A snapshot keeps the counts in MRAM,
alternately in two copies at 0x380000 and 0x380400, with a rising sequence and a CRC-32C. A frozen meter, and one without PD8, does
not count. The places within a copy (log 68), the direction in which a scaled value is rounded (log 14), and that COMPLETE stands in every
interval that ends at a boundary, one that a TARIFF_CUT began too (log 105, DESIGN CHOICE), are the model's choices; which of the entries
overdue is the latest is read by calendar minutes (R275). -/
def Obligations.MeteringCountsAndKeepsItsCounts : Prop :=
  ∀ (c : AcqCfg) (tick : TickSamples) (s : State),
    let code := fun (x : Int) => max (-32768) (min 32767 x)
    let total := fun (f : SampleRun → Int) => (tick.runs.map fun r => (r.count : Int) * f r).sum
    let used : TickSums := if mwPressing s then { s.mtr.lastTick with dur := tick.count } else
      { n := tick.count, dur := tick.count, vi0 := total fun r => code r.a.c0 * code r.a.c1
        vi1 := total fun r => code r.a.c2 * code r.a.c3, vi2 := total fun r => code r.b.c0 * code r.b.c1
        batt := total fun r => code r.b.c2 }
    let es := (List.range 3).map fun p => if phaseOn c p then phaseEnergy c used p else 0
    let imp := (es.map Int.toNat).sum
    let exp := (es.map fun e => (-e).toNat).sum
    (s.mtr.running = false ∨ s.mtr.frozen = true ∨ s.power.pdOn.getLsbD 8 = false ∨ tick.count ≠ 2500 →
      exec (.meterTick tick) s = .next s) ∧
    (acqCfg s = some c → s.mtr.running = true → s.mtr.frozen = false → s.power.pdOn.getLsbD 8 = true → tick.count = 2500 →
      let gain := fun (ch : Nat) => gainOf (nth {} c.ch ch).gain
      let near := fun (q num e : Int) (den : Nat) =>
        if 0 ≤ e then (q * den - num * 2 ^ e.toNat).natAbs < den else (q * (den * 2 ^ (-e).toNat) - num).natAbs < den * 2 ^ (-e).toNat
      (used.n ≠ 0 → ∀ p < 3, near (phaseEnergy c used p)
        ((if p = 0 then used.vi0 else if p = 1 then used.vi1 else used.vi2) * ((gain (2 * p)).1 * (gain (2 * p + 1)).1) * used.dur)
        ((gain (2 * p)).2 + (gain (2 * p + 1)).2) (9216000000 * used.n)) ∧
      ∃ t, exec (.meterTick tick) s = .next t ∧
        t.mtr.power = (List.range 3).map (fun p => if phaseOn c p then phasePower c used p else 0) ∧
        t.mtr.lastTick = used ∧
        ((mtrCfg s).ledger = false → t.mtr.chg = s.mtr.chg ∧ t.mtr.dis = s.mtr.dis) ∧
        ((mtrCfg s).ledger = true → used.n ≠ 0 → ∃ q, near q (used.batt * (gain 6).1 * used.dur) (gain 6).2 (2880000 * used.n) ∧
          t.mtr.chg = s.mtr.chg + q.toNat ∧ t.mtr.dis = s.mtr.dis + (-q).toNat) ∧
        (s.mtr.restored = none →
          t.mtr.imp = s.mtr.imp.modify s.mtr.tariff (· + imp) ∧ t.mtr.exp = s.mtr.exp.modify s.mtr.tariff (· + exp) ∧
          t.mtr.pendingSet = false ∧ (∀ x < 0x380800, memGet 0 t.mram x = memGet 0 s.mram x) ∧
          (s.mtr.pendingSet = false → boundaryDue false 2500 s = false → tariffWanted false 2500 s ∈ [none, some s.mtr.tariff] →
            t.mtr.interval.eImp = s.mtr.interval.eImp + imp ∧ t.mtr.interval.eExp = s.mtr.interval.eExp + exp ∧
            t.mtr.interval.durMs = s.mtr.interval.durMs + 10000 ∧ t.mtr.interval.tariff = s.mtr.interval.tariff ∧
            t.mtr.tariff = s.mtr.tariff) ∧
          (s.mtr.pendingSet = false → boundaryDue false 2500 s = true → s.mtr.logNext.toNat < 992 →
            Safety.storesWf s →
            let r := mramRead (0x380800 + 64 * s.mtr.logNext.toNat) 64 t
            t.mtr.interval.eImp = 0 ∧ t.mtr.interval.eExp = 0 ∧ t.mtr.interval.durMs = 0 ∧ t.mtr.iseq = s.mtr.iseq + 1 ∧
            leAt r 24 8 = (s.mtr.interval.eImp + imp) / 1000 % 2 ^ 64 ∧ leAt r 32 8 = (s.mtr.interval.eExp + exp) / 1000 % 2 ^ 64 ∧
            (let demand := (s.mtr.interval.eImp + imp) / 1000 * 60 / (1000 * (mtrCfg s).demandMin)
             let rises := s.mtr.interval.flags &&& 0x6C = 0 ∧ nth 0 s.mtr.md s.mtr.interval.tariff < demand
             leAt r 40 4 = demand % 2 ^ 32 ∧ (leAt r 2 1).testBit 0 = true ∧
             (¬ rises → t.mtr.md = s.mtr.md) ∧
             (rises → t.mtr.md = s.mtr.md.set s.mtr.interval.tariff demand ∧ (ringFull (ringGet s 3) = false →
               tariffWanted false 2500 s ∈ [none, some s.mtr.tariff] → ∃ x ∈ t.log.trQueue.drop s.log.trQueue.length, x.code = 0x625 ∧
                 x.items = item s.mtr.interval.tariff ++ item demand ++ item s.mtr.iseq.toNat)))) ∧
          (s.mtr.pendingSet = false → boundaryDue false 2500 s = false → s.mtr.logNext.toNat < 992 → Safety.storesWf s →
            ∀ new, tariffWanted false 2500 s = some new → new ≠ s.mtr.tariff →
            let r := mramRead (0x380800 + 64 * s.mtr.logNext.toNat) 64 t
            t.mtr.tariff = new ∧ t.mtr.interval.tariff = new ∧ t.mtr.interval.eImp = 0 ∧ t.mtr.interval.eExp = 0 ∧
            t.mtr.interval.durMs = 0 ∧ t.mtr.iseq = s.mtr.iseq + 1 ∧ t.mtr.md = s.mtr.md ∧
            (leAt r 2 1).testBit 5 = true ∧ leAt r 3 1 = s.mtr.interval.tariff % 256 ∧
            leAt r 24 8 = (s.mtr.interval.eImp + imp) / 1000 % 2 ^ 64 ∧ leAt r 32 8 = (s.mtr.interval.eExp + exp) / 1000 % 2 ^ 64 ∧
            Safety.journals 0x620 0 (item s.mtr.tariff ++ item new ++ item (mtrCfg s).tariffSrc.toNat) s t) ∧
          ((mtrCfg s).tariffSrc = 1 → tariffWanted false 2500 s = some (b2n ((diFiltered s).getLsbD (mtrCfg s).tariffDi) +
            2 * b2n ((diFiltered s).getLsbD ((mtrCfg s).tariffDi + 1)))) ∧
          ((mtrCfg s).tariffSrc = 2 → tariffWanted false 2500 s = some (b2n (s.frz.p.getLsbD (mtrCfg s).tariffP) +
            2 * b2n (s.frz.p.getLsbD ((mtrCfg s).tariffP + 1)))) ∧
          ((mtrCfg s).tariffSrc = 0 → todUs s < 86400000000 →
            let falls := fun (e : SchedEntry) => e.wday.getLsbD 7 && e.wday.getLsbD (s.rtc.time.weekday % 7) &&
              decide (todUs s ≤ (60 * e.hour + e.minute) * 60000000 + 10000) && decide ((60 * e.hour + e.minute) * 60000000 < todUs s)
            tariffWanted false 2500 s = if s.rtc.osf then none else ((mtrCfg s).sched.filter falls).getLast?.map SchedEntry.tariff)) ∧
        (s.mtr.restored ≠ none → t.mtr.restored = none ∧ t.mtr.pendingSet = false ∧
          (s.mtr.pendingSet = false →
            t.mtr.imp = s.mtr.imp.modify t.mtr.tariff (· + imp) ∧ t.mtr.exp = s.mtr.exp.modify t.mtr.tariff (· + exp) ∧
            t.mtr.interval.eImp = imp ∧ t.mtr.interval.eExp = exp ∧ t.mtr.interval.flags.getLsbD 2 = true ∧ t.mtr.md = s.mtr.md ∧
            ∀ sn, s.mtr.restored = some sn → Safety.storesWf s → s.mtr.logNext.toNat < 991 →
              let cut := mramRead (0x380800 + 64 * s.mtr.logNext.toNat) 64 t
              let out := mramRead (0x380840 + 64 * s.mtr.logNext.toNat) 64 t
              let dm := (mtrCfg s).demandMin
              let count := min (calMinutes s.rtc.time / dm - calMinutes sn.rtc / dm - 1) 65535
              let away := calMinutes s.rtc.time - calMinutes sn.rtc
              (leAt cut 2 1).testBit 2 = true ∧ leAt cut 3 1 = sn.run.tariff % 256 ∧ leAt cut 24 8 = sn.run.eImp / 1000 % 2 ^ 64 ∧
              leAt cut 32 8 = sn.run.eExp / 1000 % 2 ^ 64 ∧
              Safety.journals 0x621 0 (item (leAt cut 2 1) ++ item s.mtr.iseq.toNat ++ slice cut 4 8) s t ∧
              (rtcTrusted s = true → count = 0 → (mtrCfg s).tariffSrc = 0 → t.mtr.logNext = s.mtr.logNext + 1) ∧
              (rtcTrusted s = true → count ≠ 0 → leAt out 2 1 = 8 ∧ leAt out 22 2 = count ∧
                leAt out 18 4 = count * dm * 60000 % 2 ^ 32) ∧
              (rtcTrusted s = false → leAt out 2 1 = 24 ∧ leAt out 22 2 = 0) ∧
              (rtcTrusted s = false ∨ count ≠ 0 → leAt out 24 8 = 0 ∧ leAt out 32 8 = 0 ∧ leAt out 40 4 = 0 ∧
                Safety.journals 0x621 0 (item (leAt out 2 1) ++ item (s.mtr.iseq + 1).toNat ++ slice out 4 8) s t) ∧
              ((mtrCfg s).tariffSrc = 0 → s.rtc.osf = false → t.mtr.tariff =
                ((if away = 0 then none else latestDue s.rtc.time (min 10080 (away - 1)) (mtrCfg s).sched).getD s.mtr.tariff)) ∧
              Safety.journals 0x623 0 (item sn.seq ++ item (if rtcTrusted s then count else 0)) s t) ∧
          (s.mtr.pendingSet = true → t.mtr.interval.eImp = 0 ∧ t.mtr.interval.eExp = 0 ∧ t.mtr.interval.flags.getLsbD 6 = true))) ∧
    (∀ mv : Half, acqCfg s = some c → awake s = true → s.power.pfw = false → s.mtr.running = true → s.mtr.frozen = false →
      s.power.pdOn.getLsbD 8 = true → s.mtr.restored = none → s.mtr.pendingSet = false → ∃ t, exec (.supplyWarn mv tick) s = .next t ∧
      t.mtr.frozen = true ∧ t.mtr.frozenPfw = true ∧ t.mtr.lastWasB = !s.mtr.lastWasB ∧
      t.mtr.imp = s.mtr.imp.modify s.mtr.tariff (· + imp) ∧ t.mtr.exp = s.mtr.exp.modify s.mtr.tariff (· + exp) ∧
      (boundaryDue true tick.count s = false → tariffWanted true tick.count s ∈ [none, some s.mtr.tariff] →
        t.mtr.interval.eImp = s.mtr.interval.eImp + imp ∧ t.mtr.interval.eExp = s.mtr.interval.eExp + exp ∧
        t.mtr.interval.durMs = s.mtr.interval.durMs + 4 * tick.count ∧ t.mtr.tariff = s.mtr.tariff) ∧
      (boundaryDue true tick.count s = true → s.mtr.logNext.toNat < 992 → Safety.storesWf s →
        let r := mramRead (0x380800 + 64 * s.mtr.logNext.toNat) 64 t
        t.mtr.interval.eImp = 0 ∧ t.mtr.interval.eExp = 0 ∧ t.mtr.interval.durMs = 0 ∧ t.mtr.iseq = s.mtr.iseq + 1 ∧
        (leAt r 2 1).testBit 0 = true ∧ (leAt r 2 1).testBit 1 = true ∧ leAt r 3 1 = s.mtr.interval.tariff % 256 ∧
        leAt r 24 8 = (s.mtr.interval.eImp + imp) / 1000 % 2 ^ 64 ∧ leAt r 32 8 = (s.mtr.interval.eExp + exp) / 1000 % 2 ^ 64) ∧
      (∀ new, tariffWanted true tick.count s = some new → new ≠ s.mtr.tariff → t.mtr.tariff = new ∧ t.mtr.interval.tariff = new ∧
        t.mtr.interval.eImp = 0 ∧ t.mtr.interval.eExp = 0 ∧
        Safety.journals 0x620 0 (item s.mtr.tariff ++ item new ++ item (mtrCfg s).tariffSrc.toNat) s t) ∧
      (Safety.storesWf s →
        let b := mramRead (if s.mtr.lastWasB then 0x380000 else 0x380400) 232 t
        (∀ k < 4, leAt b (8 + 12 * k) 12 = nth 0 t.mtr.imp k % 2 ^ 96 ∧ leAt b (56 + 12 * k) 12 = nth 0 t.mtr.exp k % 2 ^ 96) ∧
        leAt b 160 1 = t.mtr.tariff % 256 ∧ Safety.journals 0x622 0 (item 0 ++ item (leAt b 0 8)) s t)) ∧
    (s.mtr.running = true → s.mtr.frozen = false → s.power.pdOn.getLsbD 1 = true →
      let a := if s.mtr.lastWasB then 0x380000 else 0x380400
      ∃ t, exec .meterSnapshot s = .next t ∧ t = { s with mram := t.mram, mtr := { s.mtr with lastWasB := !s.mtr.lastWasB } } ∧
        (∀ x, (x < a ∨ a + 232 ≤ x) → memGet 0 t.mram x = memGet 0 s.mram x) ∧
        (Safety.storesWf s →
          let b := mramRead a 232 t
          leAt b 228 4 = crc32c (b.take 228) ∧
          (∀ k < 4, leAt b (8 + 12 * k) 12 = nth 0 s.mtr.imp k % 2 ^ 96 ∧ leAt b (56 + 12 * k) 12 = nth 0 s.mtr.exp k % 2 ^ 96 ∧
            leAt b (104 + 8 * k) 8 = nth 0 s.mtr.md k % 2 ^ 64) ∧
          leAt b 136 12 = s.mtr.chg % 2 ^ 96 ∧ leAt b 148 12 = s.mtr.dis % 2 ^ 96 ∧ leAt b 160 1 = s.mtr.tariff % 256 ∧
          ∀ y, snapCopy false s = some y ∨ snapCopy true s = some y →
            (∀ z, snapCopy false s = some z ∨ snapCopy true s = some z → z.seq + 1 < 2 ^ 64) → y.seq < leAt b 0 8)) ∧
    (s.mtr.running = false ∨ s.mtr.frozen = true → exec .meterSnapshot s = .next s)

/-! ### Landing buses (R279 to R310) -/

/-- R56, R79, R279 to R291, R310: what a landing-bus port does. POLARITY stops what the time master sends and holds a reference,
which goes out when POLARITY clears; 200 ms after entry to RUN a listen-only bus becomes NORMAL; a received frame with its
start-of-frame instant stands in its buffer and ring and goes to the next cut; an error moves the error counters up to
bus-off; recovery clears them; a TX descriptor is sent with ECHO, discarded or kept; that a pacer drops a COMMAND frame left in its
ring, for it sends none (R305), is the model's choice (log 85, DESIGN CHOICE). A reference held under POLARITY is not sent by a master
that defers (R295; log 73, DEDUCED). In a NORMAL bus a good frame lets the receive error counter fall; a reference of another node gives the time of the bus, its cycle and its epoch; a frame of a Beacon node shows that
it is heard, and outside its wake slot it marks the node. A change of STATE, PASSIVE or POLARITY pushes event 7 with its TAG and time, of STATE
SJ 0x0701 too (R291), and a frame dropped for want of room writes TR 0x0705. A port without a controller, or without PD7, does nothing. The counters'
arithmetic is ISO 11898-1's (log 40, PRESUMED). -/
def Obligations.LandingBusPortsFollowTheirStates : Prop :=
  ∀ (p : Fin 4) (f : CanFrame) (kind : BitVec 4) (cnt : ErrCount) (on : Bool) (done : Option Nat) (s : State),
    let b := lbOf s p
    let c := lbCfg s p
    let rx := ringGet s c.rxRing
    let hears := b.state = .listen ∨ b.state = .normal
    let r7 := ringGet s 23
    let event := fun (t : State) => ringDepth r7 ≠ 0 → ringFull r7 = false → r7.waiting = [] → (ringGet t 23).pi = r7.pi + 1 ∧
      (Safety.storesWf s → Safety.ringApart 23 s →
        let d := dataRead (ringAddr r7 r7.pi) 16 t
        leAt d 8 4 = s.clk.opUs % 2 ^ 32 ∧ leAt d 12 4 = p + 16 * lbStateCode (lbOf t p).state + 256 * lbStateCode b.state +
          4096 * b2n (lbOf t p).passive + 8192 * b2n (lbOf t p).polarity)
    let changed := fun (q : Fin 4) (t : State) => Safety.journals 0x701 0 (item q ++ item (lbStateCode (lbOf s q).state) ++
      item (lbStateCode (lbOf t q).state) ++ item (lbOf t q).tec ++ item (lbOf t q).recCnt) s t
    (lbThere s p = false → ∀ i ∈ [Instr.polaritySet p, .polarityCleared p, .lbFrameReceived p f, .lbError p kind on cnt, .fdFrameSeen p,
      .lbRecoveryDone p, .lbTransmit p done, .tmCycleBoundary p done false], exec i s = .next s) ∧
    (¬ hears → ∀ i ∈ [Instr.lbFrameReceived p f, .lbError p kind on cnt, .fdFrameSeen p], exec i s = .next s) ∧
    (lbThere s p = true →
      (b.polarity = true → exec (.polaritySet p) s = .next s) ∧ (b.polarity = false → exec (.polarityCleared p) s = .next s) ∧
      (b.polarity = false → ∃ t, exec (.polaritySet p) s = .next t ∧ Safety.Booked [2, 3, 23] (setLb p { b with
          polarity := true, tm := if b.tm = 1 ∨ b.tm = 2 then 0 else b.tm } s) t ∧ Safety.journals 0x704 2 (item p ++ item 0) s t ∧
        event t ∧
        (b.tm = 1 ∨ b.tm = 2 → ∃ cause, Safety.journals 0x711 0 (item p ++ item cause) s t)) ∧
      (b.polarity = true → (lxOf s p).refWait = none → ∃ t, exec (.polarityCleared p) s = .next t ∧
        Safety.Booked [2, 3, 23] (setLb p { b with polarity := false } s) t ∧ Safety.journals 0x704 0 (item p ++ item 1) s t ∧
        event t) ∧
      (∀ w, b.polarity = true → (lxOf s p).refWait = some w → ∃ t, exec (.polarityCleared p) s = .next t ∧
        (if c.tmRole = 1 ∧ s.power.role ≠ .pacer ∧ refWithin s p 3 (lxOf s p).refRxUs = true then t.out = s.out ∧ (lbOf t p).tx = b.tx
         else t.out.can = (p.val, w) :: s.out.can ∧ (lbOf t p).tx = b.tx + 1) ∧
        (lbOf t p).polarity = false ∧ (lxOf t p).refWait = none ∧ Safety.journals 0x704 0 (item p ++ item 1) s t)) ∧
    (s.power.state = .run ∨ s.power.state = .halt → ∃ t, exec .lbNormalMode s = .next t ∧
      (∀ q : Fin 4, lbOf t q =
        (if lbThere s q && decide ((lbOf s q).state = .listen) then { lbOf s q with state := .normal }
         else if lbThere s q && decide ((lbOf s q).state = .pressing) then { lbOf s q with resumeState := .normal } else lbOf s q)) ∧
      (∀ q : Fin 4, lbThere s q = true → (lbOf s q).state = .listen → changed q t) ∧
      (lbThere s p = true → b.state = .listen → (∀ q : Fin 4, q ≠ p → lbThere s q = false ∨ (lbOf s q).state ≠ .listen) → event t)) ∧
    (let g : CanFrame := { f with own := false, outOfSlot := false }
     let ts := s.clk.opUs - f.sofAgo
     let plain := lbThere s p = true ∧ b.state = .listen ∧ lbTakes c f = true ∧ c.beacon = false ∧
       (f.id.toNat ≠ c.refId ∧ f.id.toNat ≠ c.refId + 1 ∨ f.ide = true)
     (lbThere s p = true → lbTakes c f = false → exec (.lbFrameReceived p f) s = .next s) ∧
     (plain → ringFull rx = false → ∃ t, exec (.lbFrameReceived p f) s = .next t ∧ lbOf t p = { b with rx := b.rx + 1 } ∧
        (lxOf t p).inbox = (lxOf s p).inbox ++ [(ts, g)] ∧ (∀ q : Fin 4, q ≠ p → lbOf t q = lbOf s q ∧ lxOf t q = lxOf s q) ∧
        (c.rxRing ≠ 2 → c.rxRing ≠ 3 → (rx.policy = 1 → rx.waiting = []) → (ringGet t c.rxRing).pi = rx.pi + 1 ∧
          (Safety.storesWf s → (∀ n ∈ [c.rxRing, 2, 3], (ringGet s n).base + ringDepth (ringGet s n) ≤ 262144) →
            dataRead (rxBuffer p rx.pi.toNat) 80 t = frameBytes ts g))) ∧
     (plain → ringFull rx = true → ∃ t, exec (.lbFrameReceived p f) s = .next t ∧ lbOf t p = { b with rxDrop := satInc b.rxDrop } ∧
        (lxOf t p).rxDropped = true ∧ (lxOf t p).inbox = (lxOf s p).inbox ∧
        (c.rxRing ≠ 2 → c.rxRing ≠ 3 → ringFill (ringGet s 3) + 8 ≤ ringDepth (ringGet s 3) →
          (∀ x ∈ s.log.repeats, x.code ≠ 0x705 ∨ x.key ≠ p) → ∃ r ∈ t.log.trQueue.drop s.log.trQueue.length,
            r.code = 0x705 ∧ r.severity = 1 ∧ r.items = item p ++ item 1)) ∧
     (lbThere s p = true → hears → lbTakes c f = true →
       let late := outsideSlot s p ts f
       let stored := fun (t : State) => b.state = .listen ∨ c.rxRing ∉ [2, 3, 23] →
         (ringFull rx = false → (lbOf t p).rx = b.rx + 1 ∧ (lxOf t p).inbox = (lxOf s p).inbox ++ [(ts, { g with outOfSlot := late })]) ∧
         (ringFull rx = true → (lbOf t p).rxDrop = satInc b.rxDrop ∧ (lxOf t p).rxDropped = true ∧ (lxOf t p).inbox = (lxOf s p).inbox)
       ∃ t, exec (.lbFrameReceived p f) s = .next t ∧ stored t ∧ (lbOf t p).state = b.state ∧ (lbOf t p).tec = b.tec ∧
         (b.state = .listen ∨ b.recCnt = 0 → (lbOf t p).recCnt = b.recCnt ∧ (lbOf t p).passive = b.passive) ∧
         (b.state = .normal → b.recCnt ≠ 0 →
           (b.recCnt ≤ 127 → (lbOf t p).recCnt = b.recCnt - 1) ∧
           (127 < b.recCnt → 119 ≤ (lbOf t p).recCnt ∧ (lbOf t p).recCnt ≤ 127) ∧
           (lbOf t p).passive = (decide (127 < b.tec) || decide (127 < (lbOf t p).recCnt))) ∧
         (f.ide = false → f.id.toNat = c.refId ∨ f.id.toNat = c.refId + 1 → 16 ≤ f.data.length →
           (lbOf t p).masterUs = BitVec.ofNat 64 (leAt f.data 0 8) ∧ (lbOf t p).cycle = BitVec.ofNat 32 (leAt f.data 8 4) ∧
           (lxOf t p).epoch = BitVec.ofNat 16 (leAt f.data 12 2) ∧ (lxOf t p).refAnyUs = some ts ∧
           (lxOf t p).refRxUs = if f.id.toNat = c.refId then some ts else (lxOf s p).refRxUs) ∧
         (f.ide = true ∨ f.id.toNat ≠ c.refId ∧ f.id.toNat ≠ c.refId + 1 →
           (lbOf t p).masterUs = b.masterUs ∧ (lbOf t p).cycle = b.cycle ∧ (lxOf t p).refAnyUs = (lxOf s p).refAnyUs) ∧
         (c.beacon = true → ∀ n, beaconNode f = some n → (∀ k, k ≠ n → nodeOf t p k = nodeOf s p k) ∧
           (late = false → nodeOf t p n = { nodeOf s p n with lastUs := s.clk.opUs, heard := true }) ∧
           (late = true → (nodeOf t p n).resync = true ∧ (nodeOf t p n).heard = true ∧
             ∃ off, Safety.journals 0x723 1 (item p ++ item n ++ item off) s t)))) ∧
    (lbThere s p = true → b.state = .listen →
      exec (.lbError p kind on cnt) s = .next (setLb p { b with errFrames := satInc b.errFrames } s)) ∧
    (lbThere s p = true → b.state = .normal →
      let tec := if on then b.tec + errDelta true cnt else b.tec
      let rcv := if on then b.recCnt else min 255 (b.recCnt + errDelta false cnt)
      ∃ t, exec (.lbError p kind on cnt) s = .next t ∧ lbOf t p = { b with
        errFrames := satInc b.errFrames, tec := min tec 511, recCnt := rcv, lastErr := kind
        passive := decide (127 < tec) || decide (127 < rcv), state := if 255 < tec then .busOff else .normal
        busOffs := if 255 < tec then satInc b.busOffs else b.busOffs
        tm := if 255 < tec ∧ (b.tm = 1 ∨ b.tm = 2) then 0 else b.tm } ∧
      (255 < tec → (lxOf t p).refWait = none ∧ Safety.journals 0x702 2 (item p ++ item kind.toNat) s t ∧ changed p t) ∧
      (255 < tec ∨ (lbOf t p).passive ≠ b.passive → event t) ∧
      (tec ≤ 255 → (lbOf t p).passive = b.passive → ringGet t 23 = r7) ∧
      (255 < tec → (lxOf s p).phase = .voting ∨ (lxOf s p).phase = .settling → (lxOf t p).phase = .awake ∧ (lxOf t p).last = 4)) ∧
    (lbThere s p = true → hears → exec (.fdFrameSeen p) s =
      .next (if c.fd then s else setLb p { b with fdSeen := satInc b.fdSeen } s)) ∧
    (lbThere s p = true →
      (b.state ≠ .recovering → exec (.lbRecoveryDone p) s = .next s) ∧
      (b.state = .recovering → ∃ t, exec (.lbRecoveryDone p) s = .next t ∧ Safety.Booked [2, 3, 23]
        (setLb p { b with state := .normal, passive := false, tec := 0, recCnt := 0 } s) t ∧
        Safety.journals 0x703 0 (item p ++ item b.via.toNat) s t ∧ changed p t ∧ event t)) ∧
    (ringFill (ringGet s c.txRing) = 0 → exec (.lbTransmit p done) s = .next s) ∧
    (lbThere s p = true → ringFill (ringGet s c.txRing) ≠ 0 → ringDepth (ringGet s c.txRing) ≠ 0 →
      (b.state = .listen ∨ b.state = .busOff ∨ b.state = .recovering → exec (.lbTransmit p done) s =
        .next (setLb p { b with txDiscard := satInc b.txDiscard } (ringTake c.txRing s).1)) ∧
      (b.state = .normal → b.polarity = false → (lxOf s p).phase ≠ .settling → (lxOf s p).phase ≠ .asleep →
        ∃ d, (ringTake c.txRing s).2 = some d ∧
        let f := frameOf (dataRead d.buf.toNat 80 s)
        let barred := s.power.role = .pacer ∧ c.beacon = true ∧ f.ide = false ∧ 0x80 ≤ f.id.toNat ∧ f.id.toNat ≤ 0xE4
        (barred → exec (.lbTransmit p done) s = .next (ringTake c.txRing s).1) ∧
        (¬ barred → exec (.lbTransmit p none) s = .next s) ∧
        ∀ k : Nat, ¬ barred → ∃ t, exec (.lbTransmit p (some k)) s = .next t ∧
          let sent := frameSent c b.passive f
          t.out.can = (p.val, sent) :: s.out.can ∧ (lbOf t p).tx = b.tx + 1 ∧ (lbOf t p).tec = b.tec - 1 ∧
          (lbOf t p).passive = (decide (127 < b.tec - 1) || decide (127 < b.recCnt)) ∧ (lbOf t p).state = .normal ∧
          (ringFull (ringGet (ringTake c.txRing s).1 c.rxRing) = false →
            (lxOf t p).inbox = (lxOf s p).inbox ++ [(s.clk.opUs - k, sent)] ∧ (lbOf t p).rx = b.rx + 1) ∧
          (ringFull (ringGet (ringTake c.txRing s).1 c.rxRing) = true →
            (lxOf t p).rxDropped = true ∧ (lbOf t p).rxDrop = satInc b.rxDrop)) ∧
      (b.state = .normal ∧ (b.polarity = true ∨ (lxOf s p).phase = .settling ∨ (lxOf s p).phase = .asleep) ∨
        b.state = .absent ∨ b.state = .pressing → exec (.lbTransmit p done) s = .next s))

/-- R284 to R286: the cut, which goes on with PD3 while PD7 is off, where the status of every bus and node reads 0 (log 96, DESIGN
CHOICE), takes the frames received up to now, copies the bits a filter entry names into L, the later frame of
two buses standing, and shows the state of each bus. R292 to R295: the time master counts its cycle on at each boundary and
sends a reference with that boundary's time; it continues the time of a sender heard within 3 cycles, else starts a new epoch
at 0; a foreign reference makes it defer, a bit error skip its member address + 1 cycles; a backup sends from the fourth cycle
without a master. A LIVE bit tells whether the frame's start lies within TIMEOUT_MS; the status of a Beacon bus has TEST_HOLD and four
bits for each node. BRS and ESI of a reference and the transmit error counter that falls after it are ISO 11898-1's, the model's choice
(log 40, PRESUMED). -/
def Obligations.LImageAndTimeMaster : Prop :=
  ∀ (p : Fin 4) (done : Option Nat) (be : Bool) (s : State),
    let b := lbOf s p
    let c := lbCfg s p
    let x := lxOf s p
    (s.power.pdOn.getLsbD 3 = false ∨ (s.power.state ≠ .run ∧ s.power.state ≠ .halt) → exec .lImageCut s = .next s) ∧
    (s.power.pdOn.getLsbD 3 = true → s.power.state = .run ∨ s.power.state = .halt → ∃ t, exec .lImageCut s = .next t ∧
      t.dio = s.dio ∧ t.frz = s.frz ∧
      (∀ q : Fin 4, (lxOf t q).inbox = (lxOf s q).inbox.filter (fun m => decide (s.clk.opUs < m.1)) ∧
        (lxOf t q).rxDropped = false ∧ (lbOf t q).state = (lbOf s q).state ∧
        (let y := lbOf s q
         ∀ k ∈ [(0, true), (1, decide (y.state = .normal)), (2, y.passive), (3, decide (y.state = .busOff)),
           (4, decide (y.state = .recovering)), (5, y.polarity), (6, (lxOf s q).rxDropped), (7, decide (y.tm = 1)),
           (8, decide (y.tm = 2)), (9, refWithin s q 3 (lxOf s q).refAnyUs), (10, y.conflict),
           (11, decide ((lxOf s q).phase = .settling) || decide ((lxOf s q).phase = .asleep)), (12, (lbCfg s q).beacon && testHold s q)],
           t.lb.lImage.getLsbD (3840 + 64 * q + k.1) = (lbThere s q && k.2)) ∧
        ∀ n : Nat, 1 ≤ n → n ≤ 100 → ∀ k ∈ [(0, (nodeOf s q n).present), (1, (nodeOf s q n).faults.getLsbD 0),
            (2, (nodeOf s q n).faults.getLsbD 1), (3, testFail s q n)],
          t.lb.lImage.getLsbD (2048 + 400 * q + 4 * (n - 1) + k.1) = (isBeacon s q && k.2)) ∧
      (∀ (e : FilterEntry) (ts : Nat) (f : CanFrame), x.table = [e] → x.nextTable = none → x.inbox = [(ts, f)] → ts ≤ s.clk.opUs →
        (∀ q : Fin 4, q ≠ p → (lxOf s q).table = [] ∧ (lxOf s q).nextTable = none) →
        filterMatch e f = true → e.live = true → e.lIndex + e.width < 2048 → e.srcBit + e.width ≤ 8 * f.data.length →
        (∀ k < e.width, t.lb.lImage.getLsbD (e.lIndex + k) = (leNat f.data).testBit (e.srcBit + k)) ∧
        t.lb.lImage.getLsbD (e.lIndex + e.width) = decide (s.clk.opUs ≤ ts + 1000 * e.timeout)) ∧
      (∀ (e : FilterEntry) (ts : Nat) (f : CanFrame), x.table = [e] → x.nextTable = none → x.inbox = [(ts, f)] → ts ≤ s.clk.opUs →
        filterMatch e f = true → e.live = false → e.lIndex + e.width ≤ 2048 →
        ((∀ q : Fin 4, q ≠ p → (lxOf s q).table = [] ∧ (lxOf s q).nextTable = none) →
          (e.srcBit + e.width ≤ 8 * f.data.length → ∀ k < e.width,
            t.lb.lImage.getLsbD (e.lIndex + k) = (leNat f.data).testBit (e.srcBit + k)) ∧
          (8 * f.data.length < e.srcBit + e.width → t.lb.lOut = s.lb.lOut ∧ (lbOf t p).short = satInc b.short)) ∧
        (∀ (q : Fin 4) (us : Nat) (g : CanFrame), q ≠ p → (lxOf s q).table = [e] → (lxOf s q).nextTable = none →
          (lxOf s q).inbox = [(us, g)] → us ≤ s.clk.opUs → ts < us → filterMatch e g = true → e.srcBit + e.width ≤ 8 * g.data.length →
          (∀ r : Fin 4, r ≠ p → r ≠ q → (lxOf s r).table = [] ∧ (lxOf s r).nextTable = none) →
          ∀ k < e.width, t.lb.lImage.getLsbD (e.lIndex + k) = (leNat g.data).testBit (e.srcBit + k)))) ∧
    (let may := lbThere s p = true ∧ (s.power.state = .run ∨ s.power.state = .halt) ∧ b.state = .normal ∧ b.polarity = false ∧
       x.phase ≠ .asleep ∧ s.power.runEntryUs + 1000000 ≤ s.clk.opUs
     let cycleUs := 1000 * c.cycleMs
     let stopped := fun (t : State) => b.tm = 1 ∨ b.tm = 2 → ∃ cause, Safety.journals 0x711 0 (item p ++ item cause) s t
     let ref := fun (id flags : Nat) (us : DWord) (cycle : Word) (epoch : Half) =>
       ({ id := BitVec.ofNat 29 id, fdf := true, brs := decide (c.dataRate ≠ 0), esi := b.passive, dlc := 10, own := true
          data := leBytes 8 us.toNat ++ leBytes 4 cycle.toNat ++ leBytes 2 epoch.toNat ++ leBytes 1 flags ++ [0] } : CanFrame)
     (¬ may ∨ c.tmRole = 0 → exec (.tmCycleBoundary p done be) s = .next s) ∧
     (may → c.tmRole = 1 → s.power.role ≠ .pacer →
       (refWithin s p 3 x.refRxUs = true → x.foreign = true →
         exec (.tmCycleBoundary p done be) s = .next (setLx p { x with skip := x.skip - 1 } s)) ∧
       (refWithin s p 3 x.refRxUs = true → x.foreign = false → ∃ t, exec (.tmCycleBoundary p done be) s = .next t ∧
         lbOf t p = { b with tm := 4, conflict := true } ∧ lxOf t p = { x with skip := x.skip - 1, foreign := true } ∧
         t.out = s.out ∧ Safety.journals 0x712 1 (item p ++ item 0) s t ∧ stopped t) ∧
       (refWithin s p 3 x.refRxUs = false → 0 < x.skip →
         exec (.tmCycleBoundary p done be) s = .next (setLx p { x with skip := x.skip - 1, foreign := false } s)) ∧
       (refWithin s p 3 x.refRxUs = false → x.skip = 0 →
         let on := { x with foreign := false, bndCycle := x.bndCycle + 1, bndUs := x.bndUs + BitVec.ofNat 64 cycleUs }
         (b.tm = 1 →
           (exec (.tmCycleBoundary p none false) s = .next (setLx p on s)) ∧
           (∃ t, exec (.tmCycleBoundary p none true) s = .next t ∧ lbOf t p = { b with tm := 4, conflict := true } ∧
             lxOf t p = { on with skip := ownMember s + 1 } ∧ t.out = s.out ∧ Safety.journals 0x712 1 (item p ++ item 1) s t ∧ stopped t) ∧
           (c.fd = true → ∀ d : Nat, ∃ t, exec (.tmCycleBoundary p (some d) be) s = .next t ∧
             t.out.can = (p.val, ref c.refId 0 on.bndUs on.bndCycle x.epoch) :: s.out.can ∧ (lbOf t p).cycle = on.bndCycle ∧
             (lbOf t p).masterUs = on.bndUs ∧ (lbOf t p).tx = b.tx + 1 ∧ (lbOf t p).tec = b.tec - 1 ∧ (lbOf t p).tm = 1)) ∧
         (b.tm ≠ 1 →
           (refWithin s p 3 x.refAnyUs = false → ∃ t, exec (.tmCycleBoundary p none false) s = .next t ∧
             lbOf t p = { b with tm := 1 } ∧ lxOf t p = { x with
               foreign := false, epoch := x.epoch + 1, bndCycle := 0, bndUs := BitVec.ofNat 64 s.clk.opUs } ∧
             t.out = s.out ∧ Safety.journals 0x710 0 (item p ++ item 0 ++ item 0 ++ item (x.epoch + 1).toNat) s t) ∧
           (∀ u, refWithin s p 3 x.refAnyUs = true → x.seenBndUs = some u → ∃ t, exec (.tmCycleBoundary p none false) s = .next t ∧
             lbOf t p = { b with tm := 1 } ∧ lxOf t p = { x with
               foreign := false, bndCycle := x.seenCycle + BitVec.ofNat 32 (cyclesSince s p u)
               bndUs := x.seenUs + BitVec.ofNat 64 (cycleUs * cyclesSince s p u) } ∧ t.out = s.out)))) ∧
     (may → c.tmRole ≠ 0 → c.tmRole ≠ 1 ∨ s.power.role = .pacer →
       ((∀ u, x.refRxBndUs = some u → cyclesSince s p u < 4) → ∃ t, exec (.tmCycleBoundary p done be) s = .next t ∧
         lbOf t p = { b with tm := 3 } ∧ lxOf t p = { x with foreign := false } ∧ t.out = s.out ∧ stopped t) ∧
       (∀ u, x.refRxBndUs = some u → 4 ≤ cyclesSince s p u →
         (b.tm = 2 → c.fd = true → ∀ d : Nat, ∃ t, exec (.tmCycleBoundary p (some d) be) s = .next t ∧
           t.out.can = (p.val, ref (c.refId + 1) 8 (x.bndUs + BitVec.ofNat 64 cycleUs) (x.bndCycle + 1) x.epoch) :: s.out.can ∧
           (lbOf t p).tm = 2) ∧
         (b.tm ≠ 2 → ∃ t, exec (.tmCycleBoundary p none be) s = .next t ∧ lbOf t p = { b with tm := 2 } ∧ t.out = s.out ∧
           ∃ cycle epoch, Safety.journals 0x710 0 (item p ++ item 1 ++ item cycle ++ item epoch) s t))))

/-- R296 to R305: what the unit keeps of a Beacon node. STATUS and BOOT make it present and give its faults; a silent one is
missing; a report, or none in time, ends the test of its kind and TEST_ID and is recorded; the scheduler starts the function
test of a node that is due, or the duration test of a group that is due, and nothing while a hold stands. R306, R307: a Beacon
bus goes to sleep by vote and wakes. A NOT_READY vote, or a missing one, ends the request; the last READY opens the settle
window with a reference that says COMMIT; its end is sleep, unless a frame waits; a wake request cancels it or wakes the bus;
the timer wakes it; a node that missed its wake slot is marked and woken again. A controller that does not receive hears no node. A test
start sends one COMMAND frame to each node of its test, for every number of due nodes, by the TX ring; so does the waking of a node, to
its group; a node that missed its slot is in SJ 0x0723. As MAINS_FAIL rises TEST_ABORT goes to all nodes, SJ 0x0742 is written and the
running tests are to end, with what was recorded of the nodes as it stands (R302). A reference with sleep flags is a backup's where
TM_ROLE is 2 (R292). That a pacer records a report of a test that it does not know to run, with SJ 0x0741 and the date, is the model's
inference (log 97, DEDUCED). That TEST_IDs count up (log 43, DEDUCED), where a transmit buffer lies (log 41, DESIGN CHOICE), and that with a reference heard
within 3 cycles by a time-master node the last READY goes on to settle with nothing sent (log 73, DEDUCED) are the model's choices. -/
def Obligations.BeaconNodesAndBuses : Prop :=
    (∀ (p : Fin 4) (n : BitVec 7) (boot : Bool) (bytes : Bytes) (s : State), lbHears s p = false →
       ∀ i ∈ [Instr.beaconStatus p n boot bytes, .testReport p n bytes, .beaconVote p n bytes, .wakeRequest p], exec i s = .next s) ∧
    (∀ (p : Fin 4) (n : BitVec 7) (boot : Bool) (bytes : Bytes) (s : State), isBeacon s p = true → 1 ≤ n.toNat → n.toNat ≤ 100 →
       let x := nodeOf s p n.toNat
       let y := testsOf s p n.toNat
       let plan := (lxOf s p).plan
       let day := dayNumber s.rtc.time
       let id := (schedOf s p).nextTestId
       let buses := fun (t : State) => (∀ q : Fin 4, lbOf t q = lbOf s q) ∧ ∀ q : Fin 4, q ≠ p → lxOf t q = lxOf s q
       let ring := lbCfg s p |>.txRing
       let pushes := fun (fs : List CanFrame) (t : State) =>
         let r := ringGet s ring
         ringFill r + fs.length ≤ ringDepth r → r.waiting = [] → ring ≠ 2 → ring ≠ 3 → Safety.storesWf s →
         (∀ k ∈ [ring, 2, 3], (ringGet s k).base + ringDepth (ringGet s k) ≤ 262144) → Safety.ringApart ring s →
         (∀ d ∈ ringDescs ring s, ∀ k < fs.length, d.buf.toNat ≠ txBuffer p (r.pi.toNat + k)) →
         (ringGet t ring).pi = r.pi + BitVec.ofNat _ fs.length ∧
         ∀ (k : Nat) (f : CanFrame), fs[k]? = some f → dataRead (txBuffer p (r.pi.toNat + k)) 80 t = frameBytes s.clk.opUs f
       let others := fun (t : State) => (∀ k : Nat, k ≠ n.toNat → nodeOf t p k = nodeOf s p k) ∧ buses t ∧
         t.lb.tests = s.lb.tests ∧ t.lb.sched = s.lb.sched
       let ends := fun (t : State) => buses t ∧ lxOf t p = lxOf s p ∧ t.lb.sched = s.lb.sched ∧
         ∀ k : Nat, k ≠ n.toNat → testsOf t p k = testsOf s p k
       let ended := fun (kind result minutes : Nat) (r : RunningTest) (t : State) =>
         Safety.journals 0x741 (if result = 1 ∨ result = 2 ∨ result = 5 then 2 else 0)
           (item p ++ item n.toNat ++ item kind ++ item r.id.toNat ++ item result ++ item minutes) s t
       (let faults := if boot then x.faults else nth 0 bytes 0
        lbHears s p = true → ∃ t, exec (.beaconStatus p n boot bytes) s = .next t ∧ others t ∧
         nodeOf t p n.toNat = { x with present := true, missing := false, faults := faults, lastUs := s.clk.opUs
                                       resync := x.resync && (boot || x.resyncNew), resyncNew := boot && x.resyncNew } ∧
         (x.missing = true → Safety.journals 0x731 0 (item p ++ item n.toNat) s t) ∧
         (faults &&& ~~~x.faults ≠ 0 → Safety.journals 0x732 2 (item p ++ item n.toNat ++ item faults.toNat) s t)) ∧
       (x.present = true → (lxOf s p).phase = .awake → ∃ t, exec (.nodeMissing p n) s = .next t ∧ others t ∧
         nodeOf t p n.toNat = { x with present := false, missing := true } ∧ Safety.journals 0x730 1 (item p ++ item n.toNat) s t) ∧
       (x.present = false ∨ (lxOf s p).phase ≠ .awake → exec (.nodeMissing p n) s = .next s) ∧
       (∀ (r : RunningTest) (result : Byte) (minutes : Half), lbHears s p = true →
         let rep := fun (kind : Byte) => leBytes 4 r.id.toNat ++ [kind, result] ++ leBytes 2 minutes.toNat
         (r ∈ y.ft → ∃ t, exec (.testReport p n (rep 1)) s = .next t ∧ ends t ∧ ended 1 result.toNat minutes.toNat r t ∧
           let u := { y with ft := y.ft.filter fun z => decide (z.id.toNat ≠ r.id.toNat) }
           let v := if result = 3 then u else { u with ftDay := day, ftId := r.id, ftResult := result }
           (v ≠ {} ∨ (s.lb.tests.map Prod.fst).Pairwise (· < ·)) → testsOf t p n.toNat = v) ∧
         (y.dt = some r → ∃ t, exec (.testReport p n (rep 2)) s = .next t ∧ ends t ∧ ended 2 result.toNat minutes.toNat r t ∧
           let u := { y with dt := none, dtEndMs := some (opMs s) }
           testsOf t p n.toNat = if result = 3 then u else { u with dtDay := day, dtId := r.id, dtResult := result }) ∧
         (s.power.role ≠ .pacer → (∀ z ∈ y.ft, z.id ≠ r.id) → exec (.testReport p n (rep 1)) s = .next s) ∧
         (s.power.role ≠ .pacer → y.dt = none → exec (.testReport p n (rep 2)) s = .next s) ∧
         (s.power.role = .pacer → (∀ z ∈ y.ft, z.id ≠ r.id) → ∃ t, exec (.testReport p n (rep 1)) s = .next t ∧ ends t ∧
           ended 1 result.toNat minutes.toNat r t ∧
           let v := if result = 3 then y else { y with ftDay := day, ftId := r.id, ftResult := result }
           (v ≠ {} ∨ (s.lb.tests.map Prod.fst).Pairwise (· < ·)) → testsOf t p n.toNat = v) ∧
         (s.power.role = .pacer → y.dt = none → ∃ t, exec (.testReport p n (rep 2)) s = .next t ∧ ends t ∧
           ended 2 result.toNat minutes.toNat r t ∧
           let u := { y with dtEndMs := some (opMs s) }
           testsOf t p n.toNat = if result = 3 then u else { u with dtDay := day, dtId := r.id, dtResult := result })) ∧
       (let late := fun (unitUs : Nat) (r : RunningTest) => r.startUs + unitUs * r.length + 120000000 ≤ s.clk.opUs
        (∀ r, y.ft = [r] → y.dt = none → late 1000000 r → ∃ t, exec (.testNoReport p n) s = .next t ∧ ends t ∧ ended 1 5 0 r t ∧
          testsOf t p n.toNat = { y with ft := [], ftDay := day, ftId := r.id, ftResult := 5 }) ∧
        (∀ r, y.ft = [] → y.dt = some r → late 60000000 r → ∃ t, exec (.testNoReport p n) s = .next t ∧ ends t ∧ ended 2 5 0 r t ∧
          testsOf t p n.toNat = { y with dt := none, dtEndMs := some (opMs s), dtDay := day, dtId := r.id, dtResult := 5 }) ∧
        ((∀ r ∈ y.ft, ¬ late 1000000 r) → (∀ r, y.dt = some r → ¬ late 60000000 r) → exec (.testNoReport p n) s = .next s)) ∧
       (testHold s p = true ∨ s.rtc.time.hour ≠ plan.testHour → exec (.beaconScheduler p) s = .next s) ∧
       ((∀ k, (nodeOf s p k).present = true → ftDue s p k = false ∧ dtDue s p k = false) → exec (.beaconScheduler p) s = .next s) ∧
       (testHold s p = false → s.rtc.time.hour = plan.testHour → x.present = true → (∀ k, (nodeOf s p k).present = true → k = n.toNat) →
         (ftDue s p n.toNat = true → y.dt = none → dtDue s p n.toNat = false → ∃ t, exec (.beaconScheduler p) s = .next t ∧
           testsOf t p n.toNat = { y with ft := { id := id, startUs := s.clk.opUs, length := plan.ftSec } :: y.ft } ∧
           (id + 1 ≠ 0 → schedOf t p = { schedOf s p with nextTestId := id + 1 }) ∧
           Safety.journals 0x740 0 (item p ++ item 1 ++ item 255 ++ item id.toNat ++ item 1) s t) ∧
         (ftDue s p n.toNat = false → dtDue s p n.toNat = true → underDuration s p = [] → 0 < plan.sharePct →
           ∃ t, exec (.beaconScheduler p) s = .next t ∧
           testsOf t p n.toNat = { y with dt := some { id := id, startUs := s.clk.opUs, length := plan.dtMin } } ∧
           schedOf t p = { group := groupOf plan n.toNat, started := true, nextTestId := id + 1 } ∧
           Safety.journals 0x740 0 (item p ++ item 2 ++ item (groupOf plan n.toNat) ++ item id.toNat ++ item 1) s t)) ∧
       (let nodes := (List.range 100).map (· + 1)
        let fts := nodes.filter fun k => (nodeOf s p k).present && (testsOf s p k).dt.isNone && ftDue s p k
        let due := nodes.filter fun k => (nodeOf s p k).present && dtDue s p k
        let G := (100 + plan.sharePct - 1) / plan.sharePct
        let first := if (schedOf s p).started then (schedOf s p).group + 1 else 0
        let rest := fun (ks : List Nat) (t : State) => (∀ k ∈ nodes, k ∉ ks → testsOf t p k = testsOf s p k) ∧
          ∀ k : Nat, nodeOf t p k = nodeOf s p k
        testHold s p = false → s.rtc.time.hour = plan.testHour →
        (fts ≠ [] → underDuration s p ≠ [] ∨ due = [] → ∃ t, exec (.beaconScheduler p) s = .next t ∧ rest fts t ∧
          (∀ k ∈ fts, testsOf t p k =
            { testsOf s p k with ft := { id := id, startUs := s.clk.opUs, length := plan.ftSec } :: (testsOf s p k).ft }) ∧
          pushes (fts.map fun k => commandFrame k 1 0xFF plan.ftSec id.toNat) t ∧
          Safety.journals 0x740 0 (item p ++ item 1 ++ item 255 ++ item id.toNat ++ item fts.length) s t) ∧
        (∀ d < G, fts = [] → underDuration s p = [] →
          let g := (first + d) % G
          let dts := due.filter fun k => decide ((k - 1) % G = g)
          dts ≠ [] → (∀ e < d, ∀ k ∈ due, (k - 1) % G ≠ (first + e) % G) → ∃ t, exec (.beaconScheduler p) s = .next t ∧ rest dts t ∧
          (∀ k ∈ dts, testsOf t p k =
            { testsOf s p k with dt := some { id := id, startUs := s.clk.opUs, length := plan.dtMin } }) ∧
          schedOf t p = { group := g, started := true, nextTestId := id + 1 } ∧
          pushes (dts.map fun k => commandFrame k 2 g plan.dtMin id.toNat) t ∧
          Safety.journals 0x740 0 (item p ++ item 2 ++ item g ++ item id.toNat ++ item dts.length) s t)) ∧
       ((lxOf s p).phase = .awake → (lxOf s p).wake = 3 → x.voter = true → x.heard = false → ∃ t, exec (.wakeSlotEnd p n) s = .next t ∧
         nodeOf t p n.toNat = { x with resync := true } ∧
         (∃ missed, Safety.journals 0x723 1 (item p ++ item n.toNat ++ item missed) s t) ∧
         (s.power.role ≠ .pacer → pushes [commandFrame 0 8 (groupOf plan n.toNat) 0 0] t) ∧
         (s.power.role = .pacer → ringGet t ring = ringGet s ring ∨ ring = 2 ∨ ring = 3))) ∧
    (∀ (p : Fin 4) (n : BitVec 7) (bytes : Bytes) (s : State), isBeacon s p = true → 1 ≤ n.toNat → n.toNat ≤ 100 →
       let b := lbOf s p
       let x := lxOf s p
       let waiting := nodesWhere s p fun y => y.voter && !y.voted
       let defers := (lbCfg s p).tmRole = 1 ∧ refWithin s p 3 x.refRxUs = true
       let sends := (lbCfg s p).fd = true ∧ b.state = .normal ∧ b.polarity = false ∧ s.power.role ≠ .pacer ∧ ¬ defers
       let refused := { x with phase := .awake, last := 2, refWait := none }
       let flagged := fun (flags : Byte) (t : State) => ∃ f, t.out.can = (p.val, f) :: s.out.can ∧
         f.id = BitVec.ofNat 29 ((lbCfg s p).refId + if (lbCfg s p).tmRole = 2 then 1 else 0) ∧
         nth 0 f.data 14 = flags + if (lbCfg s p).tmRole = 2 then 8 else 0
       let cancelled := fun (t : State) => (lxOf t p).phase = .awake ∧ (lxOf t p).last = 3 ∧ (sends → flagged 4 t)
       (x.phase = .voting →
         (lbHears s p = true → leAt bytes 0 1 = 2 → ∃ t, exec (.beaconVote p n bytes) s = .next t ∧
           Safety.Booked [2, 3] (setLx p refused s) t ∧ Safety.journals 0x721 0 (item p ++ item 0 ++ item n.toNat) s t) ∧
         (lbHears s p = true → leAt bytes 0 1 = 1 → waiting = [n.toNat] → ∃ t, exec (.beaconVote p n bytes) s = .next t ∧
           (lxOf t p).phase = .settling ∧
           nodeOf t p n.toNat = { nodeOf s p n.toNat with voted := true, voter := (nodeOf s p n.toNat).present } ∧
           (∀ k : Nat, 1 ≤ k → k ≤ 100 → (nodeOf t p k).voter = (nodeOf s p k).present) ∧ (sends → flagged 2 t) ∧
           (b.state = .normal → b.polarity = true → s.power.role ≠ .pacer → ¬ defers → t.out = s.out ∧ (lxOf t p).refWait ≠ none) ∧
           (s.power.role = .pacer ∨ defers → t.out = s.out)) ∧
         (∀ k ks, waiting = k :: ks → ∃ t, exec (.voteTimeout p) s = .next t ∧
           Safety.Booked [2, 3] (setLx p refused s) t ∧ Safety.journals 0x721 0 (item p ++ item 0 ++ item k) s t)) ∧
       (x.phase ≠ .voting → exec (.beaconVote p n bytes) s = .next s ∧ exec (.voteTimeout p) s = .next s) ∧
       (x.phase = .settling →
         (ringFill (ringGet s (lbCfg s p).txRing) = 0 → ∃ t, exec (.settleWindowEnd p) s = .next t ∧ Safety.Booked [2, 3]
           (setLb p { b with tm := if b.tm = 1 ∨ b.tm = 2 then 0 else b.tm } (setLx p { x with
             phase := .asleep, last := 1, refWait := none, sleepEndUs := s.clk.opUs + x.wantSleep20 * 20000000 } s)) t ∧
           Safety.journals 0x720 0 (item p ++ item x.sleep20.toNat ++ item (if x.timed then 0 else 1)) s t) ∧
         (ringFill (ringGet s (lbCfg s p).txRing) ≠ 0 → ∃ t, exec (.settleWindowEnd p) s = .next t ∧ cancelled t) ∧
         (lbHears s p = true → ∃ t, exec (.wakeRequest p) s = .next t ∧ cancelled t)) ∧
       (x.phase ≠ .settling → exec (.settleWindowEnd p) s = .next s) ∧
       (x.phase = .asleep →
         (lbHears s p = true → ∃ t, exec (.wakeRequest p) s = .next t ∧
           Safety.Booked [2, 3] (setLx p { x with phase := .awake, wake := 1 } s) t ∧ Safety.journals 0x722 0 (item p ++ item 1) s t) ∧
         ∃ t, exec (.timedWake p) s = .next t ∧ (lxOf t p).phase = .awake ∧ (lxOf t p).wake = (if x.timed then 3 else 2)) ∧
       (x.phase ≠ .asleep → exec (.timedWake p) s = .next s) ∧
       (x.phase = .awake ∨ x.phase = .voting → exec (.wakeRequest p) s = .next s) ∧
       (let y := nodeOf s p n.toNat
        (x.phase = .awake → x.wake = 3 → y.voter = true → y.heard = false → ∃ t, exec (.wakeSlotEnd p n) s = .next t ∧
          nodeOf t p n.toNat = { y with resync := true }) ∧
        (x.phase ≠ .awake ∨ x.wake ≠ 3 ∨ y.voter = false ∨ y.heard = true → exec (.wakeSlotEnd p n) s = .next s))) ∧
    (∀ (c : AcqCfg) (ch : Fin 8) (x : Int) (p : Fin 4) (s : State), acqCfg s = some c → mwRuns s = true → chEnabled c ch = true →
       ∃ t, exec (.halfCycleEnd ch [x] 0 0 []) s = .next t ∧
       (s.acq.w.getLsbD 35 = false → t.acq.w.getLsbD 35 = true → s.power.state = .run ∨ s.power.state = .halt → s.power.role ≠ .pacer →
         isBeacon s p = true → (∀ q : Fin 4, q ≠ p → isBeacon s q = false) →
         let ring := (lbCfg s p).txRing
         let r := ringGet s ring
         let tested := ((List.range 100).map (· + 1)).filter fun k => (testsOf s p k).dt.isSome || !(testsOf s p k).ft.isEmpty
         (∃ id, Safety.journals 0x742 1 (item p ++ item id ++ item tested.length) s t ∧ (tested ≠ [] → ∃ k ∈ tested, ∃ z : RunningTest,
           (z ∈ (testsOf s p k).ft ∨ (testsOf s p k).dt = some z) ∧ id = z.id.toNat)) ∧
         (∀ k : Nat, testsOf t p k = if k ∈ tested then { testsOf s p k with
             ft := (testsOf s p k).ft.map fun z => { z with aborted := true }
             dt := (testsOf s p k).dt.map fun z => { z with aborted := true } } else testsOf s p k) ∧
         (ringFill r + 1 ≤ ringDepth r → r.waiting = [] → ring ∉ [2, 3, 17] → Safety.storesWf s →
           (∀ k ∈ [ring, 2, 3, 17], (ringGet s k).base + ringDepth (ringGet s k) ≤ 262144) → Safety.ringApart ring s →
           (∀ y, Safety.inSlots s [ring] y → ¬ Safety.inSlots s [17] y) → (∀ d ∈ ringDescs ring s, d.buf.toNat ≠ txBuffer p r.pi.toNat) →
           (ringGet t ring).pi = r.pi + 1 ∧
           dataRead (txBuffer p r.pi.toNat) 80 t = frameBytes s.clk.opUs (commandFrame 0 3 0xFF 0 0))))

/-! ### Backbone switch (R313 to R341) -/

/-- R315, R319, R321, R333, R335 to R337: a frame at a port without PD6, enablement or link does not enter; one with a bad
FCS or length is an error; an MRP frame of the own domain goes to the MRP engine, which a client passes on in class 7; one of no
VLAN, of a foreign VLAN or with a group source is an ingress drop; else its source is learned for its port, a broadcast joins
the class queue of every other forwarding member port that has room, and a frame to the unit's own address goes to Q0006
while the CPU limiter has a token. A unicast goes to the ports of the entry that holds its key, and with none to the others; a multicast
likewise, and a broadcast to every member; the CPU port takes its copy of either through the same limiter. A known
station's entry follows it to its port, a static one stands, and where the bucket is full nothing is learned and the frame is flooded.
The first prefix match drops a frame, gives it to the CPU port alone or too, or replaces its class. The CPU port's frames enter at VLAN
admission. What a client passes on, what a manager answers to an MRP_LinkChange, and the format of pause and MRP frames are the model's
choices (log 45, PRESUMED). That a frame for the CPU port goes to the limiter and Q0006 at once and never waits in a class queue of that
port, which so never fills, is the model's choice (log 47, DESIGN CHOICE), where R315 and R335 give every egress port class queues.
Upsets of image memory reach it though PD6 is off (R159); that they come with this command, and which 32 bits a word of an area is, are
the model's choices too (log 76, DESIGN CHOICE). -/
def Obligations.BackboneFramesAreLearnedAndFlooded : Prop :=
  ∀ (port : Fin 4) (ok : Bool) (frame : Bytes) (ago : Nat) (us : List Upset) (s : State),
    let count := fun (p : Nat) (f : Port → Port) => ({ s with sw := { s.sw with ports := s.sw.ports.modify p f } } : State)
    let enters := s.power.pdOn.getLsbD 6 = true ∧ s.sw.cfg.portEn.getLsbD port = true ∧ (nth {} s.sw.ports port).up = true
    let good := ok = true ∧ 64 ≤ frame.length ∧ frame.length ≤ 1522
    let f := innerOf frame
    let received := count port fun y => { y with rx := y.rx + 1 }
    let queue := fun (t : State) (k c : Nat) => nth [] (nth {} t.sw.ports k).queues c
    let whole := ∀ k < 4, k < s.sw.ports.length ∧ (nth {} s.sw.ports k).queues.length = 8
    let passesOn := s.sw.cfg.mrpRole = 1 ∧ linked s (1 - port) = true
    let linkChange := s.sw.cfg.mrpRole = 2 ∧ (nth 0 f.body 16 = 4 ∨ nth 0 f.body 16 = 5)
    let inside := fun (p : Nat) (f : Inner) => ({ f with vid := if f.vid = 0 then nth 1 s.sw.cfg.pvid p else f.vid } : Inner)
    let plain := fun (g : Inner) => etherType g ≠ 0x0800 ∧ etherType g ≠ 0x86DD
    let classOf := fun (g : Inner) => if isMrp g then 7 else (nth 0 s.sw.cfg.tcMap g.pcp).toNat
    let floods := fun (p : Nat) (g : Inner) (v : Vlan) (t : State) => t.out.eth = s.out.eth ∧ (whole → classOf g < 8 → ∀ k < 4, ∀ c < 8,
      queue t k c = if v.member.getLsbD k && forwards s k (isMrp g) && decide (k ≠ p) && decide (c = classOf g) &&
          decide ((queue s k c).length < 64) then queue s k c ++ [egressBytes s k g] else queue s k c)
    let admits := fun (p : Nat) (g : Inner) (v : Vlan) => vlanOf s g.vid = some v ∧ v.member.getLsbD p = true ∧ isGroup (srcOf g) = false
    let broadcast := fun (g : Inner) => plain g ∧ isBroadcast (dstOf g) = true ∧ dstOf g ≠ s.sw.mac ∧
      ¬ (s.sw.flood = true ∧ s.sw.config = 1)
    (¬ enters → exec (.bbFrameReceived port ok frame ago us) s = .next (applyUpsets (imageUpsets us) s)) ∧
    (∀ (a : Area) (i : Nat), applyUpset (.image a i) s =
      if s.power.pdOn.getLsbD 4 then { s with bu := { s.bu with badParity := s.bu.badParity ++ [(a, i)] } } else s) ∧
    (enters → ¬ good → exec (.bbFrameReceived port ok frame ago []) s = .next (count port fun y => { y with rxErr := satInc y.rxErr })) ∧
    (enters → good → isPause f = true ∨ (forMrp s port f = true ∧ ¬ passesOn ∧ ¬ linkChange) ∨
        (forMrp s port f = false ∧ forwards s port (isMrp f) = false) →
      exec (.bbFrameReceived port ok frame ago []) s = .next received) ∧
    (enters → good → isPause f = false → forMrp s port f = true → passesOn → ∃ t, exec (.bbFrameReceived port ok frame ago []) s = .next t ∧
      t.tbl = s.tbl ∧ t.out = s.out ∧ (whole → (queue s (1 - port) 7).length < 64 →
        queue t (1 - port) 7 = queue s (1 - port) 7 ++ [(false, f.body)])) ∧
    (enters → good → isPause f = false → forMrp s port f = true → linkChange → ∃ t, exec (.bbFrameReceived port ok frame ago []) s = .next t ∧
      t.tbl = s.tbl ∧ t.out = s.out ∧ t.sw.mrpTestUs = s.clk.opUs + (if s.sw.cfg.mrpProfile = 0 then 30000 else 10000) ∧
      (whole → ∀ k < 2, linked s k = true → (queue s k 7).length < 64 → ∃ b, queue t k 7 = queue s k 7 ++ [(false, b)] ∧
        b.take 6 = [0x01, 0x15, 0x4E, 0x00, 0x00, 0x01])) ∧
    (enters → good → isPause f = false → forMrp s port f = false → forwards s port (isMrp f) = true →
      let g := inside port f
      (vlanOf s g.vid = none ∨ (∃ v, vlanOf s g.vid = some v ∧ (v.member.getLsbD port = false ∨ isGroup (srcOf g) = true)) →
        exec (.bbFrameReceived port ok frame ago []) s =
          .next (count port fun y => { y with rx := y.rx + 1, ingress := satInc y.ingress })) ∧
      (∀ v, admits port g v → broadcast g → ∃ t, exec (.bbFrameReceived port ok frame ago []) s = .next t ∧ floods port g v t ∧
        t.sw.cfg = s.sw.cfg ∧ t.lb = s.lb ∧ t.dio = s.dio ∧
        (srcOf g ≠ s.sw.mac → s.tbl.held = false → s.tbl.rehash = none →
          let w := portPipe port
          macFind (pipeOf w s) (srcOf g) (BitVec.ofNat 12 g.vid) = none →
          ∀ i, macFree (pipeOf w s) (srcOf g) (BitVec.ofNat 12 g.vid) = some i → macAt (pipeOf w t) i =
            { mac := srcOf g, vid := BitVec.ofNat 12 g.vid, ports := BitVec.ofNat 5 (2 ^ port.val), valid := true })) ∧
      (let w := portPipe port
       let vid := BitVec.ofNat 12 g.vid
       let learns := srcOf g ≠ s.sw.mac ∧ s.tbl.held = false ∧ s.tbl.rehash = none
       let full := learns ∧ macFind (pipeOf w s) (srcOf g) vid = none ∧ macFree (pipeOf w s) (srcOf g) vid = none
       let limited := s.sw.flood = true ∧ s.sw.config = 1
       let joins := fun (dest : Nat → Bool) (cls : Nat) (t : State) => whole → cls < 8 → ∀ k < 4, ∀ c < 8,
         queue t k c = if dest k && forwards s k (isMrp g) && decide (k ≠ port.val) && decide (c = cls) && decide ((queue s k c).length < 64)
           then queue s k c ++ [egressBytes s k g] else queue s k c
       ∀ v, admits port g v →
         (learns → ∃ t, exec (.bbFrameReceived port ok frame ago []) s = .next t ∧
           (∀ i, macFind (pipeOf w s) (srcOf g) vid = some i → let e := macAt (pipeOf w s) i
             macAt (pipeOf w t) i = (if e.static then e else
               { e with ports := BitVec.ofNat 5 (2 ^ port.val), age := 0, perr := false, said := false }) ∧
             (pipeOf w t).moves = if e.static = true ∨ e.ports = BitVec.ofNat 5 (2 ^ port.val) then (pipeOf w s).moves
               else satInc (pipeOf w s).moves) ∧
           (full → (pipeOf w t).learnFull = satInc (pipeOf w s).learnFull ∧ (pipeOf w t).moves = (pipeOf w s).moves ∧
             ∀ i, (macAt (pipeOf w t) i).mac = (macAt (pipeOf w s) i).mac ∧ (macAt (pipeOf w t) i).valid = (macAt (pipeOf w s) i).valid)) ∧
         (plain g → isGroup (dstOf g) = false → dstOf g ≠ s.sw.mac → ¬ limited → ∃ t, exec (.bbFrameReceived port ok frame ago []) s = .next t ∧
           let hit := if full then none else (macFind (pipeOf w t) (dstOf g) vid).map fun i => (macAt (pipeOf w t) i).ports
           t.out.eth = s.out.eth ∧
           joins (fun k => v.member.getLsbD k && (match hit with | some m => m.getLsbD k | none => true)) (classOf g) t ∧
           (whole → (nth {} t.sw.ports port).flooded =
             if hit = none then satInc (nth {} s.sw.ports port).flooded else (nth {} s.sw.ports port).flooded)) ∧
         (plain g → isGroup (dstOf g) = true → dstOf g ≠ s.sw.mac → ¬ limited → ∃ t, exec (.bbFrameReceived port ok frame ago []) s = .next t ∧
           let hit := if full ∨ isBroadcast (dstOf g) = true then none
             else (macFind (pipeOf w t) (dstOf g) vid).map fun i => (macAt (pipeOf w t) i).ports
           let set5 := hit.getD v.member &&& v.member
           let r := ringGet s 6
           let refilled := cpuRefill s
           t.out.eth = s.out.eth ∧ joins (fun k => set5.getLsbD k) (classOf g) t ∧
           (set5.getLsbD 4 = false → ringGet t 6 = r ∧ t.sw.cpuDrop = s.sw.cpuDrop ∧ t.sw.tokens = s.sw.tokens) ∧
           (set5.getLsbD 4 = true → refilled.sw.tokens < 1000000 →
             ringGet t 6 = r ∧ t.sw.cpuDrop = satInc s.sw.cpuDrop ∧ t.sw.tokens = refilled.sw.tokens) ∧
           (set5.getLsbD 4 = true → 1000000 ≤ refilled.sw.tokens →
             t.sw.tokens = refilled.sw.tokens - 1000000 ∧ t.sw.cpuDrop = s.sw.cpuDrop ∧
             (ringFull r = false → (r.policy = 1 → r.waiting = []) → (ringGet t 6).pi = r.pi + 1))) ∧
         (∀ i, ¬ limited → pfxFind (pipeOf w s) g = some i →
           let x := pfxAt (pipeOf w s) i
           let cls := if x.cls.getLsbD 3 then x.cls.toNat % 8 else classOf g
           (x.action = 1 → ∃ t, exec (.bbFrameReceived port ok frame ago []) s = .next t ∧ joins (fun _ => false) 0 t ∧
             ringGet t 6 = ringGet s 6 ∧ (whole → (nth {} t.sw.ports port).pfx = satInc (nth {} s.sw.ports port).pfx)) ∧
           (x.action = 2 → ∃ t, exec (.bbFrameReceived port ok frame ago []) s = .next t ∧ joins (fun _ => false) 0 t ∧
             ((cpuRefill s).sw.tokens < 1000000 → ringGet t 6 = ringGet s 6 ∧ t.sw.cpuDrop = satInc s.sw.cpuDrop) ∧
             (1000000 ≤ (cpuRefill s).sw.tokens → ringFull (ringGet s 6) = false → ((ringGet s 6).policy = 1 → (ringGet s 6).waiting = []) →
               (ringGet t 6).pi = (ringGet s 6).pi + 1)) ∧
           (isBroadcast (dstOf g) = true → dstOf g ≠ s.sw.mac → x.action = 0 ∨ x.action = 3 →
             ∃ t, exec (.bbFrameReceived port ok frame ago []) s = .next t ∧ joins (fun k => v.member.getLsbD k) cls t ∧
               (x.action = 3 → 1000000 ≤ (cpuRefill s).sw.tokens → t.sw.tokens = (cpuRefill s).sw.tokens - 1000000)))) ∧
      (∀ v, admits port g v → plain g → dstOf g = s.sw.mac → v.member.getLsbD 4 = true →
        let tokens := (cpuRefill s).sw.tokens
        let r := ringGet s 6
        ∃ t, exec (.bbFrameReceived port ok frame ago []) s = .next t ∧ t.out.eth = s.out.eth ∧
          (tokens < 1000000 → t.sw.tokens = tokens ∧ t.sw.cpuDrop = satInc s.sw.cpuDrop ∧ ringGet t 6 = r) ∧
          (1000000 ≤ tokens → t.sw.tokens = tokens - 1000000 ∧ t.sw.cpuDrop = s.sw.cpuDrop ∧
            (ringFull r = false → (r.policy = 1 → r.waiting = []) → (ringGet t 6).pi = r.pi + 1)))) ∧
    (s.power.pdOn.getLsbD 6 = false → exec (.cpuPortTransmit us) s = .next (applyUpsets (imageUpsets us) s)) ∧
    (s.power.pdOn.getLsbD 6 = true → (ringTake 7 s).2 = none → exec (.cpuPortTransmit us) s = .next (applyUpsets us s)) ∧
    (s.power.pdOn.getLsbD 6 = true → ∀ d, (ringTake 7 s).2 = some d →
      let g := inside 4 { body := dataRead d.buf.toNat d.len.toNat s, vid := d.tag.toNat % 4096, pcp := d.tag.toNat / 4096 % 8 }
      ∃ t, exec (.cpuPortTransmit []) s = .next t ∧ (ringGet t 7).ci = (ringGet s 7).ci + 1 ∧ (nth {} t.sw.ports 4).rx = (if
        4 < s.sw.ports.length then (nth {} s.sw.ports 4).rx + 1 else 0) ∧
      ∀ v, admits 4 g v → broadcast g → floods 4 g v t)

/-- R312, R320, R325 to R327, R329, R331 to R334, R341: aging, flushes and scrubbing over the tables, which write fresh parity;
the links, a forced SPEED at full duplex; the ring of a manager, which announces a topology change on its ring ports; the lock
with its owner and time limit, and the count of an access to it without PD6, the Marshal's too (R16); DMA jobs, which read or write the entries that
time has not yet moved, and the prefix load that waits for the lock; 0x20 for a command during a REHASH (R329). That a DMA_START
while a job runs is not taken (log 49, DEDUCED), that it is one of the agent that holds the lock (log 49, DESIGN CHOICE), that the class queues of a port are emptied as its
link is lost (log 47, DESIGN CHOICE), and how an MRP frame is written, how often a manager repeats its MRP_TopologyChange and what a
client tells of its own links (log 45, PRESUMED) are the model's choices. -/
def Obligations.BackboneTablesLinksAndRing : Prop :=
  ∀ (port : Fin 4) (speed : BitVec 2) (full mdix : Bool) (v : Word) (s : State),
   (s.power.pdOn.getLsbD 6 = false → awake s = true → ∀ agent : Byte, ∀ i ∈ [Instr.tblLockTake agent, .tblLockRelease agent],
     exec i s = .next { s with sens := { s.sens with xdomCount := satInc s.sens.xdomCount, xdomBlock := 0x41 } }) ∧
   (s.power.pdOn.getLsbD 6 = true →
    let keys := fun (w : Bool) => ((pipeOf w s).macs.map Prod.fst).Nodup
    let flushed := fun (t : State) (f : MacEntry → Bool) => ∀ w, keys w → ∀ i, macAt (pipeOf w t) i =
      (let e := macAt (pipeOf w s) i
       if e.valid && !e.static && f e then { e with valid := false, perr := false, said := false } else e)
    (s.tbl.held = true → exec .macAging s = .next s) ∧
    (s.tbl.held = false → s.tbl.rehash = none → ∃ t, exec .macAging s = .next t ∧ t.sw = s.sw ∧ ∀ w, keys w → ∀ i,
      macAt (pipeOf w t) i = (let e := macAt (pipeOf w s) i
        let age := min (e.age + 1) (2 ^ 32 - 1)
        let aged := { e with age := age, valid := decide (age < s.sw.cfg.agingS) }
        if !e.valid || e.static || e.perr || decide (aged = e) then e else { aged with said := false })) ∧
    let client := s.sw.cfg.mrpRole = 1 ∧ port.val < 2
    let change := fun (up : Bool) => if linked s (1 - port.val) then
      some ({ port := port.val, up := up, left := 4, atUs := s.clk.opUs } : LinkChange) else none
    let shows := fun (blocked : Nat → Bool) (ps : List Port) (t : State) => t.sw.ports.length = ps.length ∧ ∀ k, nth {} t.sw.ports k =
      (if k < 2 ∧ k < ps.length then { nth {} ps k with mrp := if blocked k then 1 else 2 } else nth {} ps k)
    ((nth {} s.sw.ports port).up = true → ∃ t, exec (.linkDown port) s = .next t ∧
      (let moved := s.sw.ports.modify port fun y => { y with
         up := false, speed := 0, full := false, queues := ({} : Port).queues, sending := none }
       (¬ client → t.sw = { s.sw with ports := moved }) ∧
       (client → t.sw = { s.sw with ports := t.sw.ports, lnk := change false } ∧ shows (fun _ => false) moved t)) ∧
      (∀ w, keys w → ∀ i, macAt (pipeOf w t) i = (let e := macAt (pipeOf w s) i
        if e.valid && !e.static && decide (e.ports = BitVec.ofNat 5 (2 ^ port.val)) && decide (w = portPipe port) then
          { e with valid := false, perr := false, said := false } else e))) ∧
    ((nth {} s.sw.ports port).up = false → exec (.linkDown port) s = .next s) ∧
    (let forced := nth 0 s.sw.cfg.speed port
     let rate : BitVec 2 := if forced = 0 then speed else BitVec.ofNat 2 forced.toNat
     ((nth {} s.sw.ports port).up = false → s.sw.cfg.portEn.getLsbD port = true → rate ≠ 0 → ∃ t,
       exec (.linkUp port speed full mdix) s = .next t ∧
       let moved := s.sw.ports.modify port fun y =>
         { y with up := true, speed := rate, full := full || decide (forced ≠ 0) || decide (speed = 3), mdix := mdix }
       (¬ client → Safety.Booked [2, 3] { s with sw := { s.sw with ports := moved } } t) ∧
       (client → Safety.Booked [2, 3] { s with sw := { s.sw with ports := t.sw.ports, lnk := change true } } t ∧
         shows (fun k => decide (k = port.val) && linked s (1 - port.val)) moved t)) ∧
     ((nth {} s.sw.ports port).up = true ∨ s.sw.cfg.portEn.getLsbD port = false ∨ rate = 0 →
       exec (.linkUp port speed full mdix) s = .next s)) ∧
    (s.tbl.held = true ∨ s.tbl.rehash.isSome = true → exec (.scrub []) s = .next s) ∧
    (s.tbl.held = false → s.tbl.rehash = none → ∃ t, exec (.scrub []) s = .next t ∧ t.sw = s.sw ∧ ∀ w i,
      let e := macAt (pipeOf w s) i
      e.perr = true → e.mac ≠ 0 ∨ ((pipeOf w s).macs.map Prod.fst).Pairwise (· < ·) → macAt (pipeOf w t) i = { e with valid := false, perr := false, said := false }) ∧
    (s.sw.cfg.mrpRole ≠ 0 → ∃ t, exec .topologyChange s = .next t ∧
      t.sw = { s.sw with topo := satInc s.sw.topo, ports := t.sw.ports, mrpSeq := t.sw.mrpSeq
                         lnk := if s.sw.cfg.mrpRole = 2 then s.sw.lnk else none
                         topoLeft := if s.sw.cfg.mrpRole = 2 then 2 else s.sw.topoLeft
                         topoUs := if s.sw.cfg.mrpRole = 2 then s.clk.opUs + (if s.sw.cfg.mrpProfile = 0 then 20000 else 10000)
                           else s.sw.topoUs } ∧
      (s.sw.cfg.mrpRole ≠ 2 → shows (fun _ => false) s.sw.ports t ∧ t.sw.mrpSeq = s.sw.mrpSeq) ∧
      (s.sw.cfg.mrpRole = 2 → ∀ p < 2, linked s p = true → p < s.sw.ports.length →
        let queue := fun (u : State) => nth [] (nth {} u.sw.ports p).queues 7
        7 < (nth {} s.sw.ports p).queues.length → (queue s).length < 64 → ∃ b, queue t = queue s ++ [(false, b)] ∧
          b.take 6 = [0x01, 0x15, 0x4E, 0x00, 0x00, 0x02] ∧ slice b 6 8 = macBytes s.sw.mac ++ [0x88, 0xE3]) ∧
      flushed t fun e => decide (e.ports = 1) || decide (e.ports = 2)) ∧
    (s.sw.cfg.mrpRole = 0 → exec .topologyChange s = .next s) ∧
    (∀ p : Fin 2, s.sw.cfg.mrpRole = 2 →
      (s.sw.ring = 2 → exec .ringClosed s = .next s ∧ ∃ t, exec (.ringOpen p) s = .next t ∧ t.sw.ring = 1 ∧
        t.sw.opens = satInc s.sw.opens ∧ t.sw.ringOpenUs = s.clk.opUs ∧ t.sw.mrpTrans = s.sw.mrpTrans + 1 ∧ t.tbl = s.tbl ∧ Safety.journals 0x803 2 (item p) s t) ∧
      (s.sw.ring = 1 → exec (.ringOpen p) s = .next s ∧ ∃ t, exec .ringClosed s = .next t ∧ t.sw.ring = 2 ∧ t.sw.opens = s.sw.opens ∧
        t.tbl = s.tbl ∧ Safety.journals 0x804 0 (item ((s.clk.opUs - s.sw.ringOpenUs) / 1000)) s t)) ∧
    (awake s = true → ∀ agent : Byte,
      (s.tbl.held = false → s.tbl.rehash = none → agent ≠ 1 →
        exec (.tblLockTake agent) s = .next { s with tbl := { s.tbl with held := true, owner := agent, heldUs := s.clk.wallUs } }) ∧
      (s.tbl.held = true → agent ≠ 1 → exec (.tblLockTake agent) s = .next s) ∧
      (s.tbl.held = false → s.tbl.rehash = none → ∃ t, exec (.tblLockTake 1) s = .next t ∧ t.tbl.held = true ∧ t.tbl.owner = 1 ∧
        t.tbl.heldUs = s.clk.wallUs ∧ t.tbl.e = s.tbl.e ∧ t.tbl.w = s.tbl.w) ∧
      (s.tbl.held = true → s.tbl.owner = agent → s.tbl.e.queue = [] → s.tbl.w.queue = [] → ∃ t,
        exec (.tblLockRelease agent) s = .next t ∧ t.tbl.held = false ∧ t.tbl.owner = 0 ∧ t.tbl.e = s.tbl.e ∧ t.tbl.w = s.tbl.w) ∧
      (s.tbl.held = true → s.tbl.owner ≠ agent → agent ≠ 1 → exec (.tblLockRelease agent) s = .next s)) ∧
    (s.tbl.held = true → s.tbl.heldUs + 1000000 ≤ s.clk.wallUs → s.tbl.dmaJob = none → ∃ t, exec .lockTimeout s = .next t ∧
      t.tbl.held = false ∧ t.tbl.owner = 0 ∧ t.tbl.timeout = true) ∧
    (s.tbl.held = false ∨ s.clk.wallUs < s.tbl.heldUs + 1000000 ∨ s.tbl.dmaJob.isSome = true → exec .lockTimeout s = .next s) ∧
    (awake s = true →
      let n := s.tbl.dmaCount.toNat
      let err : BitVec 2 := if s.tbl.held = false then 1
        else if n = 0 ∨ (if v.getLsbD 1 then 512 else 8192) < s.tbl.dmaFirst.toNat + n then 2
        else if 16777216 < s.tbl.dmaAddr.toNat + 16 * n then 3 else 0
      let regs := { s.tbl with dmaTable := v.getLsbD 1, dmaPipe := v.getLsbD 2, dmaDir := v.getLsbD 3 }
      let job : DmaJob := { table := v.getLsbD 1, pipe := v.getLsbD 2, dir := v.getLsbD 3, addr := s.tbl.dmaAddr.toNat
                            first := s.tbl.dmaFirst.toNat, count := n, atUs := s.clk.wallUs }
      let tbl := if v.getLsbD 0 = true ∧ s.tbl.dmaJob = none then
          { regs with dmaErr := err, dmaJob := if err = 0 then some job else none }
        else regs
      exec (.dmaStart v) s = .next { s with tbl := tbl }) ∧
    (s.tbl.dmaJob = none → exec .dmaDone s = .next s) ∧
    (∀ j, s.tbl.dmaJob = some j → ∃ t, exec .dmaDone s = .next t ∧ t.tbl.dmaJob = none ∧
      (j.dir = false → t.tbl = { s.tbl with dmaJob := none } ∧ (j.count = 1 → j.done = 0 → j.table = false → Safety.storesWf s →
        j.addr + 16 ≤ 0x800000 ∨ (0x820100 ≤ j.addr ∧ j.addr + 16 ≤ 16777216) → dataRead j.addr 16 t = macImage (macAt (pipeOf j.pipe s) j.first))) ∧
      (j.dir = true → t.data = s.data ∧ (j.count = 1 → (j.done = 0 → j.table = false →
          ((pipeOf j.pipe s).macs.map Prod.fst).Pairwise (· < ·) → macAt (pipeOf j.pipe t) j.first = macParse (unitRead j.addr 16 s) ∧ (macAt (pipeOf j.pipe t) j.first).perr = false ∧
          ∀ i, i ≠ j.first → macAt (pipeOf j.pipe t) i = macAt (pipeOf j.pipe s) i) ∧
        (j.done = 0 → j.table = true →
          ((pipeOf j.pipe s).pfx.map Prod.fst).Pairwise (· < ·) → pfxAt (pipeOf j.pipe t) j.first = pfxParse (unitRead j.addr 16 s) ∧ (pfxAt (pipeOf j.pipe t) j.first).perr = false ∧
          ∀ i, i ≠ j.first → pfxAt (pipeOf j.pipe t) i = pfxAt (pipeOf j.pipe s) i) ∧
        pipeOf (!j.pipe) t = pipeOf (!j.pipe) s))) ∧
    (∀ j, s.tbl.dmaJob = some j → j.count ≤ j.done → exec .dmaDone s = .next { s with tbl := { s.tbl with dmaJob := none } }) ∧
    (∀ w : Word, s.tbl.rehash.isSome = true → awake s = true → tblBad (tblWritten w s) = false →
      exec (.registerWrite 0x40410000 4 w) s = .next { s with tbl := { s.tbl with status := 0x20 } }) ∧
    (∀ bs, s.tbl.pfxWait = some bs → s.tbl.held = false → s.tbl.rehash = none → ∃ t, exec .pfxLoadApply s = .next t ∧
      t.tbl = { s.tbl with pfxWait := none, e := loadPipe (loadSlots bs) s.tbl.e, w := loadPipe (loadSlots bs) s.tbl.w }) ∧
    (s.tbl.pfxWait = none ∨ s.tbl.held = true ∨ s.tbl.rehash.isSome = true → exec .pfxLoadApply s = .next s))

/-! ### Plant Exchange and Modbus (R342 to R359) -/

/-- R344, R345, R348, R355: the frames that the unit sends of itself (HELLO, JOIN, TIME and the images of HALT), and that a
frame sent parses as what was sent. A member without a valid frame for 3,000 ms is absent, its stored values cleared (R345,
R349), its SESSION kept; R346, R342: an address conflict over ARP, an ARP request or a neighbour solicitation, and an echo
request, both answered on the CPU port's PVID alone. Multicast frames go to the group with TTL 1, a reply to the source of the
request, all from port 41720 (R343). MEMBER and PLANT_ID before a
Mould is pressed are open (log 26). R344, R346, R349, R352, R355: what is taken from a received frame, and what its own
MEMBER in it does; a HELLO, a JOIN, a TIME and an IMAGE taken in. The tags of image descriptors are open (log 3), and the buffers
that subBuffer and earlyBuffer give an image are the model's choice (log 27, DESIGN CHOICE). -/
def Obligations.PlantExchangeFramesAreSentAndTakenIn : Prop :=
    (∀ (m : Byte) (ip senderIp targetIp : NetAddr) (senderMac : BitVec 48) (src : NetSrc) (op ident seq : Half) (v6 : Bool)
       (data : Bytes) (s : State),
       let on := s.power.pdOn.getLsbD 6 = true ∧ awake s = true ∧ s.power.state ≠ .dead
       let sends := s.px.muted = false ∧ s.power.pdOn.getLsbD 6 = true
       let lapping := s.power.state = .run ∨ s.power.state = .halt
       let toGroup := fun (frame : Bytes) => ({ ip := .v4 (groupIp s), port := 41720, srcPort := 41720, ttl := some 1, frame := frame } : Datagram)
       let put := fun (typ : Nat) (p : Bytes) => ({ s with
         out := { s.out with px := toGroup (pxFrame typ 0 p s) :: s.out.px }, px := { s.px with seqTx := s.px.seqTx + 1 } } : State)
       (∀ typ flags : Nat, ∀ p : Bytes, typ < 256 → flags < 256 → p.length ≤ 1200 → payloadLenOk typ p.length p = true → ∃ x, pxParse (pxFrame typ flags p s) s = some x ∧
         x.typ = typ ∧ x.flags = flags ∧ x.seq = s.px.seqTx ∧ x.member.toNat = ownMember s ∧ x.payload = p) ∧
       (on → sends → exec .pxHelloSend s = .next (put 1 (helloPayload s))) ∧
       (lapping → sends → exec .pxJoinSend s = .next (put 2 (joinPayload s))) ∧
       (lapping → sends → s.rtc.osf = false → s.rtc.lbv = false → exec .pxTimeSend s = .next (put 6
         (beBytes 2 s.rtc.time.year ++ (timeBytes s.rtc.time).drop 2 ++ zeros 2 ++ beBytes 6 (opMs s)))) ∧
       (s.power.state = .halt → sends → ∃ t, exec .haltPublish s = .next t ∧
         t = { s with out := { s.out with px := t.out.px }, px := { s.px with seqTx := t.px.seqTx } } ∧
         t.px.seqTx = s.px.seqTx + BitVec.ofNat 32 (((mouldOf s).map Mould.pubs).getD []).length ∧
         s.out.px <:+ t.out.px ∧
         ∀ k p, (((mouldOf s).map Mould.pubs).getD [])[k]? = some p →
           toGroup (pxFrame 3 0 (imagePayload true s p)
             { s with px := { s.px with seqTx := s.px.seqTx + BitVec.ofNat 32 k } }) ∈ t.out.px) ∧
       (¬ sends → ∀ c ∈ [Instr.pxHelloSend, .pxJoinSend, .pxTimeSend, .haltPublish], exec c s = .next s) ∧
       (¬ on → exec .pxHelloSend s = .next s) ∧ (¬ lapping → exec .pxJoinSend s = .next s) ∧
       (¬ lapping ∨ s.rtc.osf = true ∨ s.rtc.lbv = true → exec .pxTimeSend s = .next s) ∧
       (s.power.state ≠ .halt → exec .haltPublish s = .next s) ∧
       ((memberOf s m).present = false → exec (.pxMemberAbsent m) s = .next s) ∧
       ((memberOf s m).present = true → (s.px.members.map Prod.fst).Pairwise (· < ·) →
         ∃ t, exec (.pxMemberAbsent m) s = .next t ∧ t = { s with px := { s.px with members := t.px.members } } ∧
           memberOf t m = { lastUs := (memberOf s m).lastUs, session := (memberOf s m).session } ∧ ∀ k, k ≠ m → memberOf t k = memberOf s k) ∧
       (∃ t, exec (.pxSourceUnblock ip) s = .next t ∧ t = { s with px := { s.px with blocked := t.px.blocked } } ∧
         ∀ x, x ∈ t.px.blocked ↔ x ∈ s.px.blocked ∧ x ≠ ip) ∧
       (on → senderIp = .v4 (ownIp s) → senderMac ≠ Config.ownMac →
         ∃ t, exec (.arpMessage src op senderIp senderMac targetIp) s = .next t ∧
           Safety.Booked [2, 3] { s with px := { s.px with duplicate := true } } t ∧
           Safety.journals 0x823 2 (beBytes 6 senderMac.toNat ++ item (b2n !s.px.muted)) s t) ∧
       (on → senderIp ≠ .v4 (ownIp s) ∨ senderMac = Config.ownMac → exec (.arpMessage src op senderIp senderMac targetIp) s =
         .next (if op = 1 ∧ src.vid = nth 1 s.sw.cfg.pvid 4 ∧ (targetIp = .v4 (ownIp s) ∨ targetIp = .v6 ownIp6) then
           { s with out := { s.out with arp := { ip := senderIp, mac := senderMac, vid := nth 1 s.sw.cfg.pvid 4 } :: s.out.arp } } else s)) ∧
       (¬ on → exec (.arpMessage src op senderIp senderMac targetIp) s = .next s) ∧
       (on → src.vid = nth 1 s.sw.cfg.pvid 4 →
         exec (.icmpEcho src v6 ident seq data) s = .next { s with out := { s.out with echo := {
           ip := src.ip, mac := src.mac, vid := nth 1 s.sw.cfg.pvid 4, v6 := v6, ident := ident, seq := seq, data := data } :: s.out.echo } }) ∧
       (¬ on ∨ src.vid ≠ nth 1 s.sw.cfg.pvid 4 → exec (.icmpEcho src v6 ident seq data) s = .next s)) ∧
    (∀ (src : NetSrc) (frame : Bytes) (x : PxIn) (s : State),
       let on := s.power.pdOn.getLsbD 6 = true ∧ awake s = true ∧ s.power.state ≠ .dead
       let enters := on ∧ src.toPort = 41720 ∧ src.ip ∉ s.px.blocked
       let typed := [(Instr.pxHello src frame, 1), (.pxJoin src frame, 2), (.pxImage src frame, 3), (.pxRequest src frame, 4),
         (.pxTime src frame, 6)]
       let h := memberHeard x.member s
       let session := BitVec.ofNat 32 (beAt x.payload 8 4)
       let noted := fun (t : State) => (memberOf t x.member).session = some session ∧ (memberOf t x.member).present = true ∧
         (memberOf t x.member).lastUs = s.clk.wallUs ∧
         ((memberOf s x.member).session ≠ some session → (memberOf t x.member).imgSeq = none ∧ (memberOf t x.member).reqSeq = []) ∧
         ((memberOf s x.member).session = some session → (memberOf t x.member).imgSeq = (memberOf s x.member).imgSeq ∧
           (memberOf t x.member).reqSeq = (memberOf s x.member).reqSeq) ∧
         ∀ k, k ≠ x.member → memberOf t k = memberOf s k
       let image := x.payload.drop 8
       let pub := nth 0 x.payload 0
       let mine := (subsOf s).filter fun e => decide (e.2.member = pub) && decide (e.2.block = nth 0 x.payload 1)
       let isNew := ∀ l, (memberOf s x.member).imgSeq = some l → 1 ≤ (x.seq - l).toNat ∧ (x.seq - l).toNat < 2 ^ 31
       let twoMembers := (∃ y ∈ s.px.pubSeen, y.1 = pub ∧ y.2.1 ≠ x.member ∧ s.clk.wallUs < y.2.2 + 1000000) ∧
         ∀ w, s.px.pubSaidUs = some w → w + 60000000 ≤ s.clk.wallUs
       let n := beAt frame 12 2
       let lengths := ∀ k ∈ [(1, n = 24), (2, n = 28 + 4 * beAt frame 40 1), (3, 9 ≤ n ∧ n ≤ 1032), (4, 48 ≤ n), (5, 40 ≤ n), (6, n = 16),
         (7, n = 8)], beAt frame 3 1 = k.1 → k.2
       ((pxParse frame s).isSome = true ↔ frame.length ≤ 1220 ∧ beAt frame 0 2 = 0x5058 ∧ beAt frame 2 1 = 1 ∧
         n + 20 = frame.length ∧ lengths ∧ beAt frame 6 2 = plantId s ∧
         beAt frame (frame.length - 4) 4 = crc32c (frame.take (frame.length - 4))) ∧
       (∀ p ∈ typed,
         (¬ enters → exec p.1 s = .next s) ∧
         (enters → pxParse frame s = none → exec p.1 s = .next { s with px := { s.px with bad := satInc s.px.bad } }) ∧
         (enters → pxParse frame s = some x → x.typ ≠ p.2 → exec p.1 s = .next s) ∧
         (enters → pxParse frame s = some x → x.typ = p.2 → x.member.toNat = ownMember s →
           let mutes := decide (x.typ = 1) && (decide (runMs s < beAt x.payload 12 4) ||
             decide (runMs s = beAt x.payload 12 4) && decide (src.mac < Config.ownMac))
           ∃ t, exec p.1 s = .next t ∧
             Safety.Booked [2, 3] { s with px := { s.px with duplicate := true, muted := s.px.muted || mutes } } t ∧
             Safety.journals 0x823 2 (beBytes 6 src.mac.toNat ++ item (b2n !(s.px.muted || mutes))) s t)) ∧
       (enters → pxParse frame s = some x → x.member.toNat ≠ ownMember s →
         (x.typ = 1 → ∃ t, exec (.pxHello src frame) s = .next t ∧ noted t ∧
           t.out.px = (if x.flags.testBit 0 ∧ s.px.muted = false then
             { ip := src.ip, port := src.port, ttl := if (src.ip, src.port) = groupTo s then some 1 else none
               frame := pxFrame 1 2 (helloPayload s) s } :: s.out.px else s.out.px) ∧
           t = { s with out := { s.out with px := t.out.px }, sbx := t.sbx
                        px := { s.px with members := t.px.members, seqTx := t.px.seqTx } } ∧
           t.sbx = (if s.power.role = .pacer ∧ s.sbx.probing = true ∧ x.flags.testBit 1 = true ∧ x.member.toNat = ownPartner s ∧
               beAt x.payload 0 1 = 3 ∧ (beAt x.payload 1 1 = 1 ∨ beAt x.payload 1 1 = 2) then
             { s.sbx with pxSeen := true } else s.sbx)) ∧
         (x.typ = 2 → ∃ t, exec (.pxJoin src frame) s = .next t ∧ noted t ∧
           (memberOf t x.member).joined = true ∧
           Safety.Booked [24, 2, 3] { s with px := { s.px with members := t.px.members } } t ∧
           (((subsOf s).all fun e => decide (e.2.member.toNat ≠ pubIdOf x.member x.payload)) = true →
             ringGet t 24 = ringGet s 24)) ∧
         (x.typ = 6 →
           let off := (timeSeconds (pxTimeOf x.payload) : Int) - (timeSeconds s.rtc.time : Int)
           ∃ t, exec (.pxTime src frame) s = .next t ∧
             Safety.Booked [2, 3] { h with px := { h.px with timeOff := BitVec.ofInt 32 off } } t ∧
             (-2 ≤ off → off ≤ 2 → t = { h with px := { h.px with timeOff := BitVec.ofInt 32 off } })) ∧
         (x.typ = 3 → s.power.state = .safeService → exec (.pxImage src frame) s = .next h) ∧
         (x.typ = 3 → s.power.state ≠ .safeService → (mouldOf s).isSome = true →
           (mine = [] ∨ ¬ isNew → exec (.pxImage src frame) s = .next { h with px := { h.px with unmatched := satInc s.px.unmatched } }) ∧
           (mine ≠ [] → isNew → ∃ t, exec (.pxImage src frame) s = .next t ∧ (memberOf t x.member).imgSeq = some x.seq ∧
             t.px.unmatched = s.px.unmatched ∧ t.px.timeOff = s.px.timeOff ∧ t.out = s.out ∧ t.img = s.img ∧ t.frz = s.frz ∧
             (∀ e sub, mine = [(e, sub)] → (∀ y ∈ s.px.pubSeen, y.1 = pub → y.2.1 = x.member) →
               Safety.Booked [sub.ring, 2, 3] (dataWrite (subBuffer e) image { s with px := t.px }) t) ∧
             (twoMembers → ∃ o, Safety.journals 0x824 1 (item pub.toNat ++ item o ++ item x.member.toNat) s t))) ∧
         (x.typ = 3 → s.power.state ≠ .safeService → mouldOf s = none →
           (¬ isNew → exec (.pxImage src frame) s = .next { h with px := { h.px with unmatched := satInc s.px.unmatched } }) ∧
           (isNew → ∃ t, exec (.pxImage src frame) s = .next t ∧
             t.px = { s.px with members := t.px.members, pubSeen := t.px.pubSeen, pubSaidUs := t.px.pubSaidUs } ∧
             (memberOf t x.member).imgSeq = some x.seq ∧
             (twoMembers → ∃ o, Safety.journals 0x824 1 (item pub.toNat ++ item o ++ item x.member.toNat) s t) ∧
             Safety.Booked [14, 2, 3] (dataWrite (earlyBuffer pub (nth 0 x.payload 1) s) x.payload { s with px := t.px }) t))))

/-- R77, R90, R343, R344, R351 to R354: a PX request is answered with BUSY in BRING-UP, answered with the stored response where it
is a repeat, refused with 0x11 or 0x30, answered with BUSY where 16 are pending, and otherwise put last among the pending
requests, its SEQ kept. Every answer goes to the address and port that the request came from. That a response sent again counts in
the unit's own SEQ is the model's choice (log 58, DEDUCED), and so is that the 0x11 response of a role without a key carries a MAC of 32
zero bytes (log 101, DESIGN CHOICE), which R352 says of the one after 0x30 alone. -/
def Obligations.PlantRequestsAreAuthenticated : Prop :=
  ∀ (src : NetSrc) (frame : Bytes) (x : PxIn) (s : State), s.power.pdOn.getLsbD 6 = true → awake s = true →
    s.power.state ≠ .dead → src.toPort = 41720 → src.ip ∉ s.px.blocked → pxParse frame s = some x → x.typ = 4 →
    x.member.toNat ≠ ownMember s →
    let c : Instr := .pxRequest src frame
    let h := memberHeard x.member s
    let p := x.payload
    let role := nth 0 p 0
    let body := slice p 8 (p.length - 40)
    let mac := p.drop (p.length - 32)
    let q : PendingReq := { member := x.member, role := role, seq := x.seq, src := src, mac := mac, body := body
                            key := roleKey s role.toNat
                            path := if s.power.state = .safeService then 1 else 2 }
    let back := fun (frame : Bytes) => ({
      ip := src.ip, port := src.port, srcPort := 41720, ttl := if (src.ip, src.port) = groupTo s then some 1 else none, frame := frame } : Datagram)
    let sentAs := fun (frame : Bytes) (u : State) => ({ u with
      out := { u.out with px := back frame :: u.out.px }, px := { u.px with seqTx := u.px.seqTx + 1 } } : State)
    let sent := fun (typ : Nat) (pay : Bytes) (u : State) => sentAs (pxFrame typ 0 pay u) u
    let answered := fun (status : Byte) (b : Bytes) (t : State) =>
      let head := [role, status, 0, 0] ++ beBytes 4 x.seq.toNat ++ b
      ∃ m, t = sent 5 (head ++ m) h ∧
        (∀ k, roleKey s role.toNat = some k → m = hmacSha256 k ((pxFrame 5 0 (head ++ zeros 32) h).take 16 ++ head)) ∧
        (roleKey s role.toNat = none → m = zeros 32)
    let repeated := fun (l : LastReq) => s.px.last.find? (fun l => l.member = x.member ∧ l.role = role ∧ l.seq = x.seq ∧ l.mac = mac) = some l
    let fresh := s.px.last.find? (fun l => l.member = x.member ∧ l.role = role ∧ l.seq = x.seq ∧ l.mac = mac) = none
    let last := sget 0 (memberOf s x.member).reqSeq role.toNat
    let authentic := BitVec.ofNat 32 (beAt p 4 4) = s.px.session ∧
      (∃ k, roleKey s role.toNat = some k ∧ hmacSha256 k (x.header ++ p.take (p.length - 32)) = mac) ∧
      (last ≠ 0 → 1 ≤ (x.seq - BitVec.ofNat 32 (last - 1)).toNat ∧ (x.seq - BitVec.ofNat 32 (last - 1)).toNat < 2 ^ 31) ∧
      rolePermits role.toNat (leAt body 0 1) = true
    let waiting := (s.px.pending.filter fun y => decide (y.path ≠ 0)).length
    (s.px.muted = true → exec c s = .next h) ∧
    (s.px.muted = false →
      (s.power.state = .bringUp → ∃ retry : Nat,
        exec c s = .next (sent 7 (beBytes 4 x.seq.toNat ++ beBytes 4 retry)
          { h with power := { s.power with busyPx := satInc s.power.busyPx } }) ∧
        (s.upd.journal = .patching → retry = 4000) ∧
        (s.upd.journal ≠ .patching → 100 ≤ retry ∧ retry % 100 = 0 ∧ 4000 ≤ retry + (s.clk.opUs - s.power.t0Us) / 1000)) ∧
      (s.power.state ≠ .bringUp →
          (∀ l, repeated l → (l.response = [] → exec c s = .next h) ∧ (l.response ≠ [] → exec c s = .next (sentAs l.response h))) ∧
          (fresh →
            (bodyLenOk body = false → ∃ t, exec c s = .next t ∧
              answered 0x11 ([nth 0 body 0, 0x11, 0, 0] ++ leBytes 4 (leAt body 4 4)) t) ∧
            (bodyLenOk body = true → ¬ authentic → ∃ t, exec c s = .next t ∧
              t.px.auth = satInc s.px.auth ∧ t.px.pending = s.px.pending ∧ t.px.last = s.px.last ∧
              (memberOf t x.member).reqSeq = (memberOf s x.member).reqSeq ∧
              t.out.px = back (pxFrame 5 0 ([role, 0x30, 0, 0] ++ beBytes 4 x.seq.toNat ++ zeros 32) s) :: s.out.px ∧
              (7 ≤ (s.px.authFails.filter fun y => decide (y.1 = src.ip) && decide (s.clk.wallUs < y.2 + 60000000)).length →
                src.ip ∈ t.px.blocked) ∧
              ((s.px.authFails.filter fun y => decide (y.1 = src.ip) && decide (s.clk.wallUs < y.2 + 60000000)).length < 7 →
                t.px.blocked = s.px.blocked ∧ (src.ip, s.clk.wallUs) ∈ t.px.authFails)) ∧
            (bodyLenOk body = true → authentic → 16 ≤ waiting → exec c s = .next
              (sent 7 (beBytes 4 x.seq.toNat ++ beBytes 4 100) { h with px := { h.px with busy := satInc s.px.busy } })) ∧
            (bodyLenOk body = true → authentic → waiting < 16 → ∃ t, exec c s = .next t ∧
              t.px.pending = s.px.pending ++ [q] ∧ t.px.busy = s.px.busy ∧ t.px.seqTx = s.px.seqTx ∧
              sget 0 (memberOf t x.member).reqSeq role.toNat = x.seq.toNat + 1 ∧
              { member := x.member, role := role, seq := x.seq, mac := mac } ∈ t.px.last ∧
              Safety.Booked [0, 2, 3] { s with px := t.px } t ∧
              (s.power.state = .safeService → ringGet t 0 = ringGet s 0)))))

/-- R342, R356 to R359: Modbus connections, of which one too many, in another state or to another port gets a reset; the checks of a request, the reads from the commit's copy and the writes that wait for
the next freeze, with the exceptions in the order of R358. The function codes' fields and limits are those of the Modbus
application protocol (log 58). -/
def Obligations.ModbusReadsTheCopyAndQueuesWrites : Prop :=
  ∀ (src : NetSrc) (conn : Nat) (adu : Bytes) (s : State),
    let served := (s.power.state = .run ∨ s.power.state = .halt) ∧ s.power.pdOn.getLsbD 6 = true ∧ s.px.muted = false
    let coded := [(Instr.readCoils conn adu, 1), (.readDiscreteInputs conn adu, 2), (.readHoldingRegisters conn adu, 3),
      (.readInputRegisters conn adu, 4), (.writeSingleCoil conn adu, 5), (.writeSingleRegister conn adu, 6),
      (.writeMultipleCoils conn adu, 15), (.writeMultipleRegisters conn adu, 16), (.readWriteRegisters conn adu, 23)]
    let held := (s.px.conns.any fun c => decide (c.id = conn)) = true
    let whole := 8 ≤ adu.length ∧ beAt adu 2 2 = 0 ∧ beAt adu 4 2 + 6 = adu.length
    let unit := nth 0 adu 6
    let ours := unit = 0 ∨ unit = 255 ∨ unit.toNat = ownMember s
    let fc := beAt adu 7 1
    let reply := fun (code : Nat) (pdu : Bytes) => ({ s with out := { s.out with modbus :=
      (conn, adu.take 2 ++ zeros 2 ++ beBytes 2 (pdu.length + 2) ++ [unit, BitVec.ofNat 8 code] ++ pdu) :: s.out.modbus } } : State)
    let raises := fun (n : Nat) => reply (fc + 128) [BitVec.ofNat 8 n]
    let addr := beAt adu 8 2
    let qty := beAt adu 10 2
    let mayWrite := fun (area : Nat) => s.px.mbEn.getLsbD area = true ∧ s.power.role = .solo
    let waits := fun (w : MbWrite) => ({ s with px := { s.px with writes := s.px.writes ++ [w] } } : State)
    let tid := BitVec.ofNat 16 (beAt adu 0 2)
    let inD := fun (a n : Nat) => a + n ≤ 65536 ∧ 2 * (a + n) ≤ dBytes s
    let on := s.power.pdOn.getLsbD 6 = true ∧ awake s = true ∧ s.power.state ≠ .dead
    (served → src.toPort = 502 → s.px.conns.length < 8 → exec (.mbConnect src) s = .next { s with px := { s.px with
      conns := s.px.conns ++ [{ id := s.px.nextConn, src := src }], nextConn := s.px.nextConn + 1 } }) ∧
    (¬ served ∨ src.toPort ≠ 502 ∨ 8 ≤ s.px.conns.length → exec (.mbConnect src) s = .next (if on then
      { s with out := { s.out with resets := (src.ip, src.port) :: s.out.resets } } else s)) ∧
    (∃ t, exec (.mbIdleClose conn) s = .next t ∧ t = { s with px := { s.px with conns := t.px.conns } } ∧
      ∀ c, c ∈ t.px.conns ↔ c ∈ s.px.conns ∧ c.id ≠ conn) ∧
    (∀ p ∈ coded,
      (¬ served ∨ ¬ held → exec p.1 s = .next s) ∧
      (served → held → ¬ whole ∨ ¬ ours → exec p.1 s = .next { s with px := { s.px with unmatched := satInc s.px.unmatched } }) ∧
      (served → held → whole → ours → fc ∉ [1, 2, 3, 4, 5, 6, 15, 16, 23] →
        exec p.1 s = .next (reply (fc ||| 128) [1]))) ∧
    (served → held → whole → ours →
      (fc = 1 → exec (.readCoils conn adu) s = .next (
        if adu.length ≠ 12 ∨ qty = 0 ∨ 2000 < qty then raises 3 else if 65536 < addr + qty then raises 2
        else reply 1 (BitVec.ofNat 8 ((qty + 7) / 8) :: packBits ((List.range qty).map fun i => s.ctx.mbCopy.m.getLsbD (addr + i))))) ∧
      (fc = 2 → exec (.readDiscreteInputs conn adu) s = .next (
        let vs := (List.range qty).map fun i => mbDiscrete s.ctx.mbCopy (addr + i)
        if adu.length ≠ 12 ∨ qty = 0 ∨ 2000 < qty then raises 3 else if none ∈ vs then raises 2
        else reply 2 (BitVec.ofNat 8 ((qty + 7) / 8) :: packBits (vs.map fun v => v.getD false)))) ∧
      (fc = 3 → exec (.readHoldingRegisters conn adu) s = .next (
        if adu.length ≠ 12 ∨ qty = 0 ∨ 125 < qty then raises 3 else if ¬ inD addr qty then raises 2
        else reply 3 (BitVec.ofNat 8 (2 * qty) :: regBytes ((List.range qty).map fun i => mbHolding s.ctx.mbCopy (addr + i))))) ∧
      (fc = 4 → exec (.readInputRegisters conn adu) s = .next (
        let vs := (List.range qty).map fun i => mbInput s.ctx.mbCopy (addr + i)
        if adu.length ≠ 12 ∨ qty = 0 ∨ 125 < qty then raises 3 else if none ∈ vs then raises 2
        else reply 4 (BitVec.ofNat 8 (2 * qty) :: regBytes (vs.map fun v => v.getD 0)))) ∧
      (fc = 5 → exec (.writeSingleCoil conn adu) s = .next (
        if ¬ mayWrite 0 then raises 1 else if adu.length ≠ 12 ∨ qty ≠ 0xFF00 ∧ qty ≠ 0 then raises 3
        else waits { conn := conn, tid := tid, unit := unit, fc := 5, coil := true, addr := addr, values := [if qty = 0 then 0 else 1] })) ∧
      (fc = 6 → exec (.writeSingleRegister conn adu) s = .next (
        if ¬ mayWrite 1 then raises 1 else if adu.length ≠ 12 then raises 3 else if ¬ inD addr 1 then raises 2
        else waits { conn := conn, tid := tid, unit := unit, fc := 6, coil := false, addr := addr, values := [BitVec.ofNat 16 qty] })) ∧
      (fc = 15 → exec (.writeMultipleCoils conn adu) s = .next (
        let n := beAt adu 12 1
        if ¬ mayWrite 0 then raises 1
        else if qty = 0 ∨ 1968 < qty ∨ n ≠ (qty + 7) / 8 ∨ adu.length ≠ 13 + n then raises 3
        else if 65536 < addr + qty then raises 2
        else waits { conn := conn, tid := tid, unit := unit, fc := 15, coil := true, addr := addr
                     values := bitValues (adu.drop 13) qty })) ∧
      (fc = 16 → exec (.writeMultipleRegisters conn adu) s = .next (
        let n := beAt adu 12 1
        if ¬ mayWrite 1 then raises 1
        else if qty = 0 ∨ 123 < qty ∨ n ≠ 2 * qty ∨ adu.length ≠ 13 + n then raises 3
        else if ¬ inD addr qty then raises 2
        else waits { conn := conn, tid := tid, unit := unit, fc := 16, coil := false, addr := addr
                     values := regValues (adu.drop 13) qty })) ∧
      (fc = 23 → exec (.readWriteRegisters conn adu) s = .next (
        let wa := beAt adu 12 2
        let wq := beAt adu 14 2
        let n := beAt adu 16 1
        if ¬ mayWrite 1 then raises 1
        else if qty = 0 ∨ 125 < qty ∨ wq = 0 ∨ 121 < wq ∨ n ≠ 2 * wq ∨ adu.length ≠ 17 + n then raises 3
        else if ¬ inD addr qty ∨ ¬ inD wa wq then raises 2
        else waits { conn := conn, tid := tid, unit := unit, fc := 23, coil := false, addr := wa
                     values := regValues (adu.drop 17) wq, rdAddr := addr, rdQty := qty })))

/-! ### Clock and panel (R404 to R425) -/

/-- R406, R407, R409, R410, R413, R414: each second the calendar moves on by one second and the weekday at midnight, the wrap
after 2199 sets OSF, and a match of the alarm is noted, asserting PWR_ON and waking where it is enabled, or shown among the sources of a wake in that
millisecond; an oscillator stop sets OSF; LBV follows the battery's measurements. That what follows within the millisecond of a wake is
active at its instant (R88) is the model's choice (log 84, DEDUCED); that an event in OFF is recorded at the next start is its reading
(log 59, DEDUCED). R415
to R423: a debounced key, whose change KEY_PRESS and KEY_RELEASE bring (log 100), is delivered, recorded in a hurdle entry, opens one, or does nothing; the encoder push judges the
entry; a stuck key says nothing more; the encoder counts; the panel locks by inactivity, an entry times out, and SVC opens by
held keys where there is nothing to judge; a service entry that is right opens SVC and unlocks a pressed panel. That an entry's opening key is its first and that nothing stands delivered while
it is open are the model's readings (log 59). -/
def Obligations.ClockAndPanel : Prop :=
    (∀ (mv : Half) (s : State), timeOk s.rtc.time = true →
       let now := s.rtc.time
       let last := now.year = 2199 ∧ now.month = 12 ∧ now.day = 31 ∧ now.hour = 23 ∧ now.minute = 59 ∧ now.second = 59
       let agrees := fun (w a v : Nat) => a = w ∨ a = v
       let matched := fun (a n : Time) => agrees 0xFFFF a.year n.year ∧ agrees 0xFF a.month n.month ∧ agrees 0xFF a.day n.day ∧
         agrees 0xFF a.hour n.hour ∧ agrees 0xFF a.minute n.minute ∧ agrees 0xFF a.second n.second ∧ agrees 0xFF a.weekday n.weekday
       let waking := s.power.state = .bringUp ∧ s.power.startKind = .wake ∧ opMs s = s.power.t0Us / 1000
       (∃ t, exec .rtcSecond s = .next t ∧ t.rtc.secUs = 0 ∧ timeOk t.rtc.time = true ∧
         (¬ last → timeSeconds t.rtc.time = timeSeconds now + 1 ∧ t.rtc.osf = s.rtc.osf) ∧
         (last → timeSeconds t.rtc.time = 0 ∧ t.rtc.osf = true ∧
           (s.rtc.osf = false → awake s = true → Safety.journals 0xB02 2 (item 2) s t)) ∧
         t.rtc.time.weekday = (if now.hour = 23 ∧ now.minute = 59 ∧ now.second = 59 then (now.weekday + 1) % 7 else now.weekday) ∧
         t.rtc.alarm = s.rtc.alarm ∧ t.rtc.alarmEn = s.rtc.alarmEn ∧
         (¬ matched s.rtc.alarm t.rtc.time → t.rtc.alarmHit = s.rtc.alarmHit ∧ t.rtc.pwrOn = s.rtc.pwrOn ∧ t.power = s.power) ∧
         (matched s.rtc.alarm t.rtc.time →
           (s.rtc.alarmEn = false → t.rtc.alarmHit = true ∧ t.rtc.pwrOn = s.rtc.pwrOn ∧ t.power = s.power) ∧
           (s.rtc.alarmEn = true → t.rtc.pwrOn = true ∧
             (s.power.state = .hibernate → s.upd.journal ≠ .patching → t.power.state = .bringUp) ∧
             (s.power.state = .off → t.rtc.alarmHit = true ∧ t.rtc.active = s.rtc.active ||| 1 ∧ t.power = s.power ∧
               RtcNote.alarm ∈ t.rtc.notes) ∧
             (awake s = true → t.rtc.alarmHit = true ∧
               t.power = if waking then { s.power with wakeSrc := s.power.wakeSrc ||| 1 } else s.power))) ∧
         (awake s = true → ¬ waking → Safety.Booked [2, 3] { s with rtc := t.rtc } t)) ∧
       (s.rtc.osf = true → exec .oscillatorStop s = .next s) ∧
       (s.rtc.osf = false →
         (s.power.state = .off →
           exec .oscillatorStop s = .next { s with rtc := { s.rtc with osf := true, notes := s.rtc.notes ++ [.osf 1] } }) ∧
         (s.power.state ≠ .off → ∃ t, exec .oscillatorStop s = .next t ∧
           Safety.Booked [2, 3] { s with rtc := { s.rtc with osf := true } } t ∧
           Safety.journals 0xB02 2 (item 1) s t)) ∧
       (∃ t, exec (.batMeasure mv) s = .next t ∧
         Safety.Booked [2, 3] { s with
           rtc := { s.rtc with lbv := t.rtc.lbv, bat := t.rtc.bat, batLowUs := t.rtc.batLowUs, notes := t.rtc.notes }, sens := { s.sens with bat := t.sens.bat } } t ∧
         t.rtc.lbv = (decide (mv.toNat < 2400) ||
           s.rtc.lbv && (decide (mv.toNat < 2600) || decide (s.clk.wallUs < s.rtc.batLowUs + 60000000))) ∧
         t.rtc.batLowUs = (if mv.toNat < 2600 then s.clk.wallUs else s.rtc.batLowUs) ∧
         (s.power.state = .off → t.rtc.bat = s.rtc.bat ∧ t.sens.bat = s.sens.bat ∧ t.log = s.log ∧
           t.rtc.notes = s.rtc.notes ++ (if t.rtc.lbv = s.rtc.lbv then [] else [.lbv t.rtc.lbv mv])) ∧
         (s.power.state ≠ .off → t.rtc.bat = mv ∧ t.sens.bat = mv ∧ t.rtc.notes = s.rtc.notes ∧
           (s.rtc.lbv = false → t.rtc.lbv = true → Safety.journals 0xB03 1 (item mv.toNat) s t) ∧
           (s.rtc.lbv = true → t.rtc.lbv = false → Safety.journals 0xB04 0 (item mv.toNat) s t)))) ∧
    (∀ (k : Fin 21) (up : Bool) (s : State),
       (awake s = false → ∀ c ∈ [Instr.keyPress k, .keyRelease k, .keyStuck k, .encoderStep up, .panelInactivityLock,
         .hurdleTimeout, .svcHeldKeys], exec c s = .next s) ∧
       (awake s = true →
         let judged := fun (ks : List Nat) (salt : Bytes) (len : Nat) (dig : Bytes) =>
           ks.length ≤ 8 ∧ ks.length = len ∧ sha256 (salt ++ ks.map (BitVec.ofNat 8)) = dig
         let service := fun ks => ∃ x, serviceSequence s = some x ∧ judged ks x.1 x.2.1 x.2.2
         let user := fun ks => ∃ r, restOf s = some r ∧ judged ks r.panel.salt r.panel.userLen r.panel.userDig
         let mayOpen := (serviceSequence s).isSome = true ∧ ∀ e, s.pan.lockoutEnd = some e → e ≤ opMs s
         let open29 := ringDepth (ringGet s 29) ≠ 0 ∧ ringFull (ringGet s 29) = false ∧ (ringGet s 29).hwm = 0 ∧
           (ringGet s 29).waiting = [] ∧ Safety.storesWf s ∧ ringAddr (ringGet s 29) (ringGet s 29).pi + 16 ≤ 16777216
         let event := fun (source : Nat) (down : Bool) (n : Int) (t : State) => open29 → ∃ d : Desc,
           dataRead (ringAddr (ringGet s 29) (ringGet s 29).pi) 16 t = descBytes d ∧ d.ts = BitVec.ofNat 32 s.clk.opUs ∧ d.src = 1 ∧
           d.tag = BitVec.ofNat 32 (source + (if down then 256 else 0) + 65536 * (n % 65536).toNat)
         let onlyPanel := fun (ns : List Nat) (t : State) => Safety.Booked ns { s with pan := t.pan } t
         let wrong := fun (n cause : Nat) (t : State) => t.pan.entry = none ∧ t.pan.locked = s.pan.locked ∧ t.mgt = s.mgt ∧
           Safety.journals 0xB12 1 (item n ++ item (s.pan.wrong + 1) ++ item cause) s t ∧
           (s.pan.wrong < 4 → t.pan.wrong = s.pan.wrong + 1 ∧ t.pan.lockoutEnd = s.pan.lockoutEnd) ∧
           (4 ≤ s.pan.wrong → t.pan.wrong = 0 ∧ t.pan.lockoutEnd = some (opMs s + 60000) ∧
             Safety.journals 0xB13 1 (item (opMs s + 60000)) s t)
         (s.pan.pressed.getLsbD k = true → exec (.keyPress k) s = .next s) ∧
         (s.pan.pressed.getLsbD k = false → ∃ t, exec (.keyPress k) s = .next t ∧
           (∀ j : Fin 21, t.pan.pressed.getLsbD j = (decide (j = k) || s.pan.pressed.getLsbD j) ∧
             t.pan.raw.getLsbD j = (decide (j = k) || s.pan.raw.getLsbD j)) ∧
           t.pan.stuck = s.pan.stuck ∧ t.pan.enc = s.pan.enc ∧
           (s.pan.entry = none →
             (s.pan.locked = false → k.val ≠ 20 → onlyPanel [29, 2, 3] t ∧ t.pan.entry = none ∧ t.pan.lastActUs = s.clk.opUs ∧
               event k true s.pan.enc t ∧
               ∀ j : Fin 21, t.pan.delivered.getLsbD j = (decide (j = k) || s.pan.delivered.getLsbD j)) ∧
             (s.pan.locked = false → k.val = 20 → onlyPanel [29, 2, 3] t ∧ event 20 true s.pan.enc t ∧
               (mayOpen ∧ (∃ p, s.pan.lastPushUs = some p ∧ s.clk.opUs ≤ p + 500000) →
                 t.pan.entry = some [] ∧ t.pan.delivered = 0 ∧ t.pan.entryUs = s.clk.opUs) ∧
               (¬ (mayOpen ∧ ∃ p, s.pan.lastPushUs = some p ∧ s.clk.opUs ≤ p + 500000) →
                 t.pan.entry = none ∧ t.pan.lastPushUs = some s.clk.opUs)) ∧
             (s.pan.locked = true → onlyPanel [] t ∧
               (k.val ≠ 20 → mayOpen → t.pan.entry = some [k.val] ∧ t.pan.delivered = 0 ∧ t.pan.entryUs = s.clk.opUs) ∧
               (k.val = 20 ∨ ¬ mayOpen → t.pan.entry = none ∧ t.pan.delivered = s.pan.delivered))) ∧
           (∀ ks, s.pan.entry = some ks →
             t.pan.delivered = s.pan.delivered ∧
             (k.val ≠ 20 → onlyPanel [] t ∧ t.pan.entry = some (ks ++ [k.val]) ∧
               t.pan.entryUs = (if ks = [] then s.clk.opUs else s.pan.entryUs)) ∧
             (k.val = 20 → ks = [] → onlyPanel [] t ∧ t.pan.entry = none ∧ t.pan.wrong = s.pan.wrong ∧ t.pan.locked = s.pan.locked) ∧
             (k.val = 20 → ks ≠ [] →
               (service ks → t.pan.entry = none ∧ t.pan.wrong = 0 ∧ t.mgt.svcOpen = true ∧ Safety.journals 0xB10 0 (item 1) s t ∧
                 t.pan.locked = (s.pan.locked && (restOf s).isNone) ∧
                 (s.mgt.svcOpen = false → Safety.journals 0x920 0 (item (b2n (restOf s).isNone)) s t)) ∧
               (user ks → t.pan.entry = none ∧ t.pan.wrong = 0 ∧ t.pan.locked = false) ∧
               (user ks → ¬ service ks → t.mgt = s.mgt ∧ Safety.journals 0xB10 0 (item 0) s t) ∧
               (¬ service ks → ¬ user ks → onlyPanel [2, 3] t ∧ wrong ks.length 0 t)))) ∧
         (s.pan.pressed.getLsbD k = false → exec (.keyRelease k) s = .next s ∧ exec (.keyStuck k) s = .next s) ∧
         (s.pan.pressed.getLsbD k = true → ∃ t, exec (.keyRelease k) s = .next t ∧ onlyPanel [29, 2, 3] t ∧
           (∀ j : Fin 21, t.pan.pressed.getLsbD j = (!decide (j = k) && s.pan.pressed.getLsbD j) ∧
             t.pan.stuck.getLsbD j = (!decide (j = k) && s.pan.stuck.getLsbD j)) ∧
           t.pan.entry = s.pan.entry ∧ t.pan.enc = s.pan.enc ∧ t.pan.lastActUs = s.pan.lastActUs ∧
           (s.pan.stuck.getLsbD k = true → t.pan.delivered = s.pan.delivered ∧ ringGet t 29 = ringGet s 29 ∧
             Safety.journals 0xB21 0 (item k ++ item ((s.clk.opUs - sget 0 s.pan.pressUs k) / 1000000)) s t) ∧
           (s.pan.stuck.getLsbD k = false →
             (s.pan.locked = false → s.pan.entry = none → event k false s.pan.enc t ∧
               ∀ j : Fin 21, t.pan.delivered.getLsbD j = (!decide (j = k) && s.pan.delivered.getLsbD j)) ∧
             (s.pan.locked = true ∨ s.pan.entry ≠ none → t.pan.delivered = s.pan.delivered ∧ ringGet t 29 = ringGet s 29))) ∧
         (s.pan.pressed.getLsbD k = true → s.pan.stuck.getLsbD k = true → exec (.keyStuck k) s = .next s) ∧
         (s.pan.pressed.getLsbD k = true → s.pan.stuck.getLsbD k = false → ∃ t, exec (.keyStuck k) s = .next t ∧
           Safety.Booked [2, 3] { s with pan := { s.pan with stuck := t.pan.stuck, delivered := t.pan.delivered } } t ∧
           Safety.journals 0xB20 2 (item k) s t ∧
           ∀ j : Fin 21, t.pan.stuck.getLsbD j = (decide (j = k) || s.pan.stuck.getLsbD j) ∧
             t.pan.delivered.getLsbD j = (!decide (j = k) && s.pan.delivered.getLsbD j)) ∧
         (s.pan.locked = true ∨ s.pan.entry ≠ none → exec (.encoderStep up) s = .next s) ∧
         (s.pan.locked = false → s.pan.entry = none → -32767 ≤ s.pan.enc → s.pan.enc ≤ 32767 →
           ∃ t, exec (.encoderStep up) s = .next t ∧
             Safety.Booked [29, 2, 3] { s with pan := { s.pan with enc := t.pan.enc, lastActUs := s.clk.opUs } } t ∧
             t.pan.enc = (if up then (if s.pan.enc = 32767 then 32767 else s.pan.enc + 1)
               else (if s.pan.enc = -32767 then -32767 else s.pan.enc - 1)) ∧
             event 31 false t.pan.enc t) ∧
         (∀ r, restOf s = some r →
           (r.panel.lockS = 0 ∨ s.pan.locked = true → exec .panelInactivityLock s = .next s) ∧
           (r.panel.lockS ≠ 0 → s.pan.locked = false → ∃ t, exec .panelInactivityLock s = .next t ∧
             Safety.Booked [2, 3] { s with pan := { s.pan with locked := true, delivered := 0 } } t)) ∧
         (restOf s = none → exec .panelInactivityLock s = .next s) ∧
         (s.pan.entry = none ∨ s.pan.entry = some [] → exec .hurdleTimeout s = .next s) ∧
         (∀ a ks, s.pan.entry = some (a :: ks) → ∃ t, exec .hurdleTimeout s = .next t ∧ onlyPanel [2, 3] t ∧
           wrong (ks.length + 1) 1 t) ∧
         (let bare := serviceSequence s = none ∧ s.pan.pressed.getLsbD 0 = true ∧ s.pan.pressed.getLsbD 4 = true ∧ s.mgt.svcOpen = false
          (¬ bare → exec .svcHeldKeys s = .next s) ∧
          (bare → ∃ t, exec .svcHeldKeys s = .next t ∧
            Safety.Booked [2, 3] { s with mgt := { s.mgt with svcOpen := true, svcLastUs := s.clk.opUs } } t ∧
            Safety.journals 0xB10 0 (item 2) s t))))

/-! ### The words of a Bolis program (R152, R155, R178) -/

/-- R136, R152, R155, R178: OPCODE, AREA and INDEX of an instruction word pick its Bolis command. A reading opcode takes every
area but E, a writing one Q, M and D, FP and FN take E, jumps and CALL no area, and an operand-less one neither area nor index;
LI and LIO take 24 bits, LIH 16, TSTF and CALLSB an index in their range, and LK the word that follows. A reserved area code,
an operand of another column and an opcode that is not listed, or of rung code only, spell none. A word of 32 bits that is no escape, and LK with its
literal in 64, is that command put at the front of the queue, and the next step carries it out; that these words stand for the rows to
which the table gives no bits is the model's choice (log 62). -/
def Obligations.BolisWordsSpellTheirCommands : Prop :=
  ∀ (a : Area) (code : BitVec 4) (index : BitVec 20) (imm : BitVec 24) (literal : Word),
    let word := fun (op : Byte) (c : BitVec 4) (x : BitVec 20) => (op ++ c ++ x : Word)
    let reads : List (Byte × (Area → BitVec 20 → Instr)) := [(0x01, .ld), (0x02, .ldn), (0x03, .bitAnd), (0x04, .bitAndn),
      (0x05, .bitOr), (0x06, .bitOrn), (0x07, .bitXor), (0x08, .bitXorn), (0x09, .openAnd), (0x0A, .openAndn), (0x0B, .openOr),
      (0x0C, .openOrn), (0x0D, .openXor), (0x0E, .openXorn), (0x42, .ldi), (0x50, .l32), (0x51, .l16), (0x54, .lx32), (0x55, .lx16),
      (0x5C, .lo32), (0x5D, .lo16)]
    let writes : List (Byte × (Area → BitVec 20 → Instr)) := [(0x10, .st), (0x11, .bitSet), (0x12, .rst), (0x43, .sti), (0x52, .st32),
      (0x53, .st16), (0x56, .sx32), (0x57, .sx16), (0xA4, .stx)]
    let cells : List (Byte × (BitVec 20 → Instr)) := [(0x18, .fp), (0x19, .fn)]
    let bare : List (Byte × (BitVec 20 → Instr)) := [(0x20, .jmp), (0x21, .jmpc), (0x22, .jmpcn), (0xC0, .call)]
    let alone : List (Byte × Instr) := [(0x00, .nop), (0x0F, .close), (0x13, .bitNot), (0x14, .setba), (0x15, .clrba), (0x40, .btow),
      (0x41, .wtob), (0x5A, .swap), (0x5B, .dup), (0x60, .add), (0x61, .sub), (0x62, .mul), (0x63, .div), (0x64, .mod), (0x65, .neg),
      (0x66, .abs), (0x67, .addu), (0x68, .subu), (0x69, .mulu), (0x6A, .divu), (0x6B, .modu), (0x70, .wordAnd), (0x71, .wordOr),
      (0x72, .wordXor), (0x73, .inv), (0x74, .shl), (0x75, .shr), (0x76, .sar), (0x77, .rol), (0x78, .ror), (0x80, .eq), (0x81, .ne),
      (0x82, .lt), (0x83, .le), (0x84, .gt), (0x85, .ge), (0x86, .ltu), (0x87, .leu), (0x88, .gtu), (0x89, .geu), (0x8A, .eqr),
      (0x8B, .ner), (0x8C, .ltr), (0x8D, .ler), (0x8E, .gtr), (0x8F, .ger), (0x90, .addr), (0x91, .subr), (0x92, .mulr), (0x93, .divr),
      (0x94, .negr), (0x95, .absr), (0x96, .sqrtr), (0x98, .itor), (0x99, .utor), (0x9A, .rtoi), (0x9B, .rtoit), (0x9C, .itos),
      (0xA0, .clrx), (0xA1, .addx), (0xA2, .macx), (0xA3, .sarx), (0xB0, .clrf), (0xB1, .ldf), (0xC1, .calli), (0xC3, .ret),
      (0xC4, .retc)]
    let others : List Byte := [0x58, 0x59, 0x5E, 0xB2, 0xC2, 0xFF]
    (∀ p ∈ reads, bolisCommand (word p.1 (BitVec.ofNat 4 (areaCode a)) index) literal = if readable a then some (p.2 a index) else none) ∧
    (∀ p ∈ writes, bolisCommand (word p.1 (BitVec.ofNat 4 (areaCode a)) index) literal = if writable a then some (p.2 a index) else none) ∧
    (∀ p ∈ reads ++ writes, 12 ≤ code.toNat → bolisCommand (word p.1 code index) literal = none) ∧
    (∀ p ∈ cells, bolisCommand (word p.1 code index) literal = if code = 3 then some (p.2 index) else none) ∧
    (∀ p ∈ bare, bolisCommand (word p.1 code index) literal = if code = 0 then some (p.2 index) else none) ∧
    (∀ p ∈ alone, bolisCommand (word p.1 code index) literal = if code = 0 ∧ index = 0 then some p.2 else none) ∧
    bolisCommand ((0x58 : Byte) ++ imm) literal = some (.li imm) ∧ bolisCommand ((0x5E : Byte) ++ imm) literal = some (.lio imm) ∧
    bolisCommand ((0x59 : Byte) ++ imm) literal = (if imm.toNat < 65536 then some (.lih (imm.setWidth 16)) else none) ∧
    bolisCommand (word 0xB2 code index) literal = (if code = 0 ∧ index.toNat < 8 then some (.tstf (index.setWidth 3)) else none) ∧
    bolisCommand (word 0xC2 code index) literal = (if code = 0 ∧ index.toNat < 128 then some (.callsb (index.setWidth 7)) else none) ∧
    bolisCommand (word 0xFF code index) literal = (if code = 0 ∧ index = 0 then some (.lk literal) else none) ∧
    (∀ op : Byte, op ∉ reads.map Prod.fst ++ writes.map Prod.fst ++ cells.map Prod.fst ++ bare.map Prod.fst ++ alone.map Prod.fst ++ others →
      bolisCommand (word op code index) literal = none) ∧
    (∀ w : Word, decodeTableWord 32 w.toNat = if w.extractLsb' 24 8 = 0xFF then none else bolisCommand w 0) ∧
    decodeTableWord 64 (0xFF000000 + 2 ^ 32 * literal.toNat) = some (.lk literal) ∧
    (∀ (w : Word) (s : State),
      (∀ i, decodeTableWord 32 w.toNat = some i →
        (s.withFetchWord 32 w.toNat).pending = i :: s.pending ∧ step (s.withFetchWord 32 w.toNat) = exec i s) ∧
      (decodeTableWord 32 w.toNat = none → s.withFetchWord 32 w.toNat = s))
end

