-- ==== Sys2Proof/Laws/State.lean ====
section
/-! SUPPORT. What the named updates of State leave alone and set, one lemma a field, so that no proof unfolds a record
update. -/

namespace Sys2Proof.Machine

@[simp] theorem drawn_power (s : State) : (drawn s).power = s.power := rfl
@[simp] theorem drawn_sens (s : State) : (drawn s).sens = s.sens := rfl
@[simp] theorem drawn_mgt (s : State) : (drawn s).mgt = s.mgt := rfl
@[simp] theorem drawn_log (s : State) : (drawn s).log = s.log := rfl
@[simp] theorem drawn_crc (s : State) : (drawn s).crc = s.crc := rfl
@[simp] theorem drawn_queues (s : State) : (drawn s).queues = s.queues := rfl
@[simp] theorem drawn_dio (s : State) : (drawn s).dio = s.dio := rfl
@[simp] theorem drawn_dioc (s : State) : (drawn s).dioc = s.dioc := rfl
@[simp] theorem drawn_mld (s : State) : (drawn s).mld = s.mld := rfl
@[simp] theorem drawn_img (s : State) : (drawn s).img = s.img := rfl
@[simp] theorem drawn_frz (s : State) : (drawn s).frz = s.frz := rfl
@[simp] theorem drawn_lap (s : State) : (drawn s).lap = s.lap := rfl
@[simp] theorem drawn_ctx (s : State) : (drawn s).ctx = s.ctx := rfl
@[simp] theorem drawn_bu (s : State) : (drawn s).bu = s.bu := rfl
@[simp] theorem drawn_rfx (s : State) : (drawn s).rfx = s.rfx := rfl
@[simp] theorem drawn_bx (s : State) : (drawn s).bx = s.bx := rfl
@[simp] theorem drawn_prog (s : State) : (drawn s).prog = s.prog := rfl
@[simp] theorem drawn_edit (s : State) : (drawn s).edit = s.edit := rfl
@[simp] theorem drawn_sby (s : State) : (drawn s).sby = s.sby := rfl
@[simp] theorem drawn_sbx (s : State) : (drawn s).sbx = s.sbx := rfl
@[simp] theorem drawn_saf (s : State) : (drawn s).saf = s.saf := rfl
@[simp] theorem drawn_acq (s : State) : (drawn s).acq = s.acq := rfl
@[simp] theorem drawn_mtr (s : State) : (drawn s).mtr = s.mtr := rfl
@[simp] theorem drawn_lb (s : State) : (drawn s).lb = s.lb := rfl
@[simp] theorem drawn_sw (s : State) : (drawn s).sw = s.sw := rfl
@[simp] theorem drawn_tbl (s : State) : (drawn s).tbl = s.tbl := rfl
@[simp] theorem drawn_px (s : State) : (drawn s).px = s.px := rfl
@[simp] theorem drawn_upd (s : State) : (drawn s).upd = s.upd := rfl
@[simp] theorem drawn_rtc (s : State) : (drawn s).rtc = s.rtc := rfl
@[simp] theorem drawn_pan (s : State) : (drawn s).pan = s.pan := rfl
@[simp] theorem drawn_out (s : State) : (drawn s).out = s.out := rfl
@[simp] theorem drawn_data (s : State) : (drawn s).data = s.data := rfl
@[simp] theorem drawn_mram (s : State) : (drawn s).mram = s.mram := rfl
@[simp] theorem drawn_flash (s : State) : (drawn s).flash = s.flash := rfl
@[simp] theorem drawn_pending (s : State) : (drawn s).pending = s.pending := rfl

@[simp] theorem ringSet_clk (n : Nat) (r : Ring) (s : State) : (ringSet n r s).clk = s.clk := rfl
@[simp] theorem ringSet_power (n : Nat) (r : Ring) (s : State) : (ringSet n r s).power = s.power := rfl
@[simp] theorem ringSet_sens (n : Nat) (r : Ring) (s : State) : (ringSet n r s).sens = s.sens := rfl
@[simp] theorem ringSet_mgt (n : Nat) (r : Ring) (s : State) : (ringSet n r s).mgt = s.mgt := rfl
@[simp] theorem ringSet_log (n : Nat) (r : Ring) (s : State) : (ringSet n r s).log = s.log := rfl
@[simp] theorem ringSet_crc (n : Nat) (r : Ring) (s : State) : (ringSet n r s).crc = s.crc := rfl
@[simp] theorem ringSet_dio (n : Nat) (r : Ring) (s : State) : (ringSet n r s).dio = s.dio := rfl
@[simp] theorem ringSet_dioc (n : Nat) (r : Ring) (s : State) : (ringSet n r s).dioc = s.dioc := rfl
@[simp] theorem ringSet_mld (n : Nat) (r : Ring) (s : State) : (ringSet n r s).mld = s.mld := rfl
@[simp] theorem ringSet_img (n : Nat) (r : Ring) (s : State) : (ringSet n r s).img = s.img := rfl
@[simp] theorem ringSet_frz (n : Nat) (r : Ring) (s : State) : (ringSet n r s).frz = s.frz := rfl
@[simp] theorem ringSet_lap (n : Nat) (r : Ring) (s : State) : (ringSet n r s).lap = s.lap := rfl
@[simp] theorem ringSet_ctx (n : Nat) (r : Ring) (s : State) : (ringSet n r s).ctx = s.ctx := rfl
@[simp] theorem ringSet_bu (n : Nat) (r : Ring) (s : State) : (ringSet n r s).bu = s.bu := rfl
@[simp] theorem ringSet_rfx (n : Nat) (r : Ring) (s : State) : (ringSet n r s).rfx = s.rfx := rfl
@[simp] theorem ringSet_bx (n : Nat) (r : Ring) (s : State) : (ringSet n r s).bx = s.bx := rfl
@[simp] theorem ringSet_prog (n : Nat) (r : Ring) (s : State) : (ringSet n r s).prog = s.prog := rfl
@[simp] theorem ringSet_edit (n : Nat) (r : Ring) (s : State) : (ringSet n r s).edit = s.edit := rfl
@[simp] theorem ringSet_sby (n : Nat) (r : Ring) (s : State) : (ringSet n r s).sby = s.sby := rfl
@[simp] theorem ringSet_sbx (n : Nat) (r : Ring) (s : State) : (ringSet n r s).sbx = s.sbx := rfl
@[simp] theorem ringSet_saf (n : Nat) (r : Ring) (s : State) : (ringSet n r s).saf = s.saf := rfl
@[simp] theorem ringSet_acq (n : Nat) (r : Ring) (s : State) : (ringSet n r s).acq = s.acq := rfl
@[simp] theorem ringSet_mtr (n : Nat) (r : Ring) (s : State) : (ringSet n r s).mtr = s.mtr := rfl
@[simp] theorem ringSet_lb (n : Nat) (r : Ring) (s : State) : (ringSet n r s).lb = s.lb := rfl
@[simp] theorem ringSet_sw (n : Nat) (r : Ring) (s : State) : (ringSet n r s).sw = s.sw := rfl
@[simp] theorem ringSet_tbl (n : Nat) (r : Ring) (s : State) : (ringSet n r s).tbl = s.tbl := rfl
@[simp] theorem ringSet_px (n : Nat) (r : Ring) (s : State) : (ringSet n r s).px = s.px := rfl
@[simp] theorem ringSet_upd (n : Nat) (r : Ring) (s : State) : (ringSet n r s).upd = s.upd := rfl
@[simp] theorem ringSet_rtc (n : Nat) (r : Ring) (s : State) : (ringSet n r s).rtc = s.rtc := rfl
@[simp] theorem ringSet_pan (n : Nat) (r : Ring) (s : State) : (ringSet n r s).pan = s.pan := rfl
@[simp] theorem ringSet_out (n : Nat) (r : Ring) (s : State) : (ringSet n r s).out = s.out := rfl
@[simp] theorem ringSet_data (n : Nat) (r : Ring) (s : State) : (ringSet n r s).data = s.data := rfl
@[simp] theorem ringSet_mram (n : Nat) (r : Ring) (s : State) : (ringSet n r s).mram = s.mram := rfl
@[simp] theorem ringSet_flash (n : Nat) (r : Ring) (s : State) : (ringSet n r s).flash = s.flash := rfl
@[simp] theorem ringSet_pending (n : Nat) (r : Ring) (s : State) : (ringSet n r s).pending = s.pending := rfl

@[simp] theorem dataWrite_clk (a : Nat) (bs : Bytes) (s : State) : (dataWrite a bs s).clk = s.clk := rfl
@[simp] theorem dataWrite_power (a : Nat) (bs : Bytes) (s : State) : (dataWrite a bs s).power = s.power := rfl
@[simp] theorem dataWrite_sens (a : Nat) (bs : Bytes) (s : State) : (dataWrite a bs s).sens = s.sens := rfl
@[simp] theorem dataWrite_mgt (a : Nat) (bs : Bytes) (s : State) : (dataWrite a bs s).mgt = s.mgt := rfl
@[simp] theorem dataWrite_log (a : Nat) (bs : Bytes) (s : State) : (dataWrite a bs s).log = s.log := rfl
@[simp] theorem dataWrite_crc (a : Nat) (bs : Bytes) (s : State) : (dataWrite a bs s).crc = s.crc := rfl
@[simp] theorem dataWrite_queues (a : Nat) (bs : Bytes) (s : State) : (dataWrite a bs s).queues = s.queues := rfl
@[simp] theorem dataWrite_dio (a : Nat) (bs : Bytes) (s : State) : (dataWrite a bs s).dio = s.dio := rfl
@[simp] theorem dataWrite_dioc (a : Nat) (bs : Bytes) (s : State) : (dataWrite a bs s).dioc = s.dioc := rfl
@[simp] theorem dataWrite_mld (a : Nat) (bs : Bytes) (s : State) : (dataWrite a bs s).mld = s.mld := rfl
@[simp] theorem dataWrite_img (a : Nat) (bs : Bytes) (s : State) : (dataWrite a bs s).img = s.img := rfl
@[simp] theorem dataWrite_frz (a : Nat) (bs : Bytes) (s : State) : (dataWrite a bs s).frz = s.frz := rfl
@[simp] theorem dataWrite_lap (a : Nat) (bs : Bytes) (s : State) : (dataWrite a bs s).lap = s.lap := rfl
@[simp] theorem dataWrite_ctx (a : Nat) (bs : Bytes) (s : State) : (dataWrite a bs s).ctx = s.ctx := rfl
@[simp] theorem dataWrite_bu (a : Nat) (bs : Bytes) (s : State) : (dataWrite a bs s).bu = s.bu := rfl
@[simp] theorem dataWrite_rfx (a : Nat) (bs : Bytes) (s : State) : (dataWrite a bs s).rfx = s.rfx := rfl
@[simp] theorem dataWrite_bx (a : Nat) (bs : Bytes) (s : State) : (dataWrite a bs s).bx = s.bx := rfl
@[simp] theorem dataWrite_prog (a : Nat) (bs : Bytes) (s : State) : (dataWrite a bs s).prog = s.prog := rfl
@[simp] theorem dataWrite_edit (a : Nat) (bs : Bytes) (s : State) : (dataWrite a bs s).edit = s.edit := rfl
@[simp] theorem dataWrite_sby (a : Nat) (bs : Bytes) (s : State) : (dataWrite a bs s).sby = s.sby := rfl
@[simp] theorem dataWrite_sbx (a : Nat) (bs : Bytes) (s : State) : (dataWrite a bs s).sbx = s.sbx := rfl
@[simp] theorem dataWrite_saf (a : Nat) (bs : Bytes) (s : State) : (dataWrite a bs s).saf = s.saf := rfl
@[simp] theorem dataWrite_acq (a : Nat) (bs : Bytes) (s : State) : (dataWrite a bs s).acq = s.acq := rfl
@[simp] theorem dataWrite_mtr (a : Nat) (bs : Bytes) (s : State) : (dataWrite a bs s).mtr = s.mtr := rfl
@[simp] theorem dataWrite_lb (a : Nat) (bs : Bytes) (s : State) : (dataWrite a bs s).lb = s.lb := rfl
@[simp] theorem dataWrite_sw (a : Nat) (bs : Bytes) (s : State) : (dataWrite a bs s).sw = s.sw := rfl
@[simp] theorem dataWrite_tbl (a : Nat) (bs : Bytes) (s : State) : (dataWrite a bs s).tbl = s.tbl := rfl
@[simp] theorem dataWrite_px (a : Nat) (bs : Bytes) (s : State) : (dataWrite a bs s).px = s.px := rfl
@[simp] theorem dataWrite_upd (a : Nat) (bs : Bytes) (s : State) : (dataWrite a bs s).upd = s.upd := rfl
@[simp] theorem dataWrite_rtc (a : Nat) (bs : Bytes) (s : State) : (dataWrite a bs s).rtc = s.rtc := rfl
@[simp] theorem dataWrite_pan (a : Nat) (bs : Bytes) (s : State) : (dataWrite a bs s).pan = s.pan := rfl
@[simp] theorem dataWrite_out (a : Nat) (bs : Bytes) (s : State) : (dataWrite a bs s).out = s.out := rfl
@[simp] theorem dataWrite_mram (a : Nat) (bs : Bytes) (s : State) : (dataWrite a bs s).mram = s.mram := rfl
@[simp] theorem dataWrite_flash (a : Nat) (bs : Bytes) (s : State) : (dataWrite a bs s).flash = s.flash := rfl
@[simp] theorem dataWrite_pending (a : Nat) (bs : Bytes) (s : State) : (dataWrite a bs s).pending = s.pending := rfl

@[simp] theorem mramWrite_clk (a : Nat) (bs : Bytes) (s : State) : (mramWrite a bs s).clk = s.clk := rfl
@[simp] theorem mramWrite_power (a : Nat) (bs : Bytes) (s : State) : (mramWrite a bs s).power = s.power := rfl
@[simp] theorem mramWrite_sens (a : Nat) (bs : Bytes) (s : State) : (mramWrite a bs s).sens = s.sens := rfl
@[simp] theorem mramWrite_mgt (a : Nat) (bs : Bytes) (s : State) : (mramWrite a bs s).mgt = s.mgt := rfl
@[simp] theorem mramWrite_log (a : Nat) (bs : Bytes) (s : State) : (mramWrite a bs s).log = s.log := rfl
@[simp] theorem mramWrite_crc (a : Nat) (bs : Bytes) (s : State) : (mramWrite a bs s).crc = s.crc := rfl
@[simp] theorem mramWrite_queues (a : Nat) (bs : Bytes) (s : State) : (mramWrite a bs s).queues = s.queues := rfl
@[simp] theorem mramWrite_dio (a : Nat) (bs : Bytes) (s : State) : (mramWrite a bs s).dio = s.dio := rfl
@[simp] theorem mramWrite_dioc (a : Nat) (bs : Bytes) (s : State) : (mramWrite a bs s).dioc = s.dioc := rfl
@[simp] theorem mramWrite_mld (a : Nat) (bs : Bytes) (s : State) : (mramWrite a bs s).mld = s.mld := rfl
@[simp] theorem mramWrite_img (a : Nat) (bs : Bytes) (s : State) : (mramWrite a bs s).img = s.img := rfl
@[simp] theorem mramWrite_frz (a : Nat) (bs : Bytes) (s : State) : (mramWrite a bs s).frz = s.frz := rfl
@[simp] theorem mramWrite_lap (a : Nat) (bs : Bytes) (s : State) : (mramWrite a bs s).lap = s.lap := rfl
@[simp] theorem mramWrite_ctx (a : Nat) (bs : Bytes) (s : State) : (mramWrite a bs s).ctx = s.ctx := rfl
@[simp] theorem mramWrite_bu (a : Nat) (bs : Bytes) (s : State) : (mramWrite a bs s).bu = s.bu := rfl
@[simp] theorem mramWrite_rfx (a : Nat) (bs : Bytes) (s : State) : (mramWrite a bs s).rfx = s.rfx := rfl
@[simp] theorem mramWrite_bx (a : Nat) (bs : Bytes) (s : State) : (mramWrite a bs s).bx = s.bx := rfl
@[simp] theorem mramWrite_prog (a : Nat) (bs : Bytes) (s : State) : (mramWrite a bs s).prog = s.prog := rfl
@[simp] theorem mramWrite_edit (a : Nat) (bs : Bytes) (s : State) : (mramWrite a bs s).edit = s.edit := rfl
@[simp] theorem mramWrite_sby (a : Nat) (bs : Bytes) (s : State) : (mramWrite a bs s).sby = s.sby := rfl
@[simp] theorem mramWrite_sbx (a : Nat) (bs : Bytes) (s : State) : (mramWrite a bs s).sbx = s.sbx := rfl
@[simp] theorem mramWrite_saf (a : Nat) (bs : Bytes) (s : State) : (mramWrite a bs s).saf = s.saf := rfl
@[simp] theorem mramWrite_acq (a : Nat) (bs : Bytes) (s : State) : (mramWrite a bs s).acq = s.acq := rfl
@[simp] theorem mramWrite_mtr (a : Nat) (bs : Bytes) (s : State) : (mramWrite a bs s).mtr = s.mtr := rfl
@[simp] theorem mramWrite_lb (a : Nat) (bs : Bytes) (s : State) : (mramWrite a bs s).lb = s.lb := rfl
@[simp] theorem mramWrite_sw (a : Nat) (bs : Bytes) (s : State) : (mramWrite a bs s).sw = s.sw := rfl
@[simp] theorem mramWrite_tbl (a : Nat) (bs : Bytes) (s : State) : (mramWrite a bs s).tbl = s.tbl := rfl
@[simp] theorem mramWrite_px (a : Nat) (bs : Bytes) (s : State) : (mramWrite a bs s).px = s.px := rfl
@[simp] theorem mramWrite_upd (a : Nat) (bs : Bytes) (s : State) : (mramWrite a bs s).upd = s.upd := rfl
@[simp] theorem mramWrite_rtc (a : Nat) (bs : Bytes) (s : State) : (mramWrite a bs s).rtc = s.rtc := rfl
@[simp] theorem mramWrite_pan (a : Nat) (bs : Bytes) (s : State) : (mramWrite a bs s).pan = s.pan := rfl
@[simp] theorem mramWrite_out (a : Nat) (bs : Bytes) (s : State) : (mramWrite a bs s).out = s.out := rfl
@[simp] theorem mramWrite_data (a : Nat) (bs : Bytes) (s : State) : (mramWrite a bs s).data = s.data := rfl
@[simp] theorem mramWrite_flash (a : Nat) (bs : Bytes) (s : State) : (mramWrite a bs s).flash = s.flash := rfl
@[simp] theorem mramWrite_pending (a : Nat) (bs : Bytes) (s : State) : (mramWrite a bs s).pending = s.pending := rfl

@[simp] theorem flashWrite_clk (a : Nat) (bs : Bytes) (s : State) : (flashWrite a bs s).clk = s.clk := rfl
@[simp] theorem flashWrite_power (a : Nat) (bs : Bytes) (s : State) : (flashWrite a bs s).power = s.power := rfl
@[simp] theorem flashWrite_sens (a : Nat) (bs : Bytes) (s : State) : (flashWrite a bs s).sens = s.sens := rfl
@[simp] theorem flashWrite_mgt (a : Nat) (bs : Bytes) (s : State) : (flashWrite a bs s).mgt = s.mgt := rfl
@[simp] theorem flashWrite_log (a : Nat) (bs : Bytes) (s : State) : (flashWrite a bs s).log = s.log := rfl
@[simp] theorem flashWrite_crc (a : Nat) (bs : Bytes) (s : State) : (flashWrite a bs s).crc = s.crc := rfl
@[simp] theorem flashWrite_queues (a : Nat) (bs : Bytes) (s : State) : (flashWrite a bs s).queues = s.queues := rfl
@[simp] theorem flashWrite_dio (a : Nat) (bs : Bytes) (s : State) : (flashWrite a bs s).dio = s.dio := rfl
@[simp] theorem flashWrite_dioc (a : Nat) (bs : Bytes) (s : State) : (flashWrite a bs s).dioc = s.dioc := rfl
@[simp] theorem flashWrite_mld (a : Nat) (bs : Bytes) (s : State) : (flashWrite a bs s).mld = s.mld := rfl
@[simp] theorem flashWrite_img (a : Nat) (bs : Bytes) (s : State) : (flashWrite a bs s).img = s.img := rfl
@[simp] theorem flashWrite_frz (a : Nat) (bs : Bytes) (s : State) : (flashWrite a bs s).frz = s.frz := rfl
@[simp] theorem flashWrite_lap (a : Nat) (bs : Bytes) (s : State) : (flashWrite a bs s).lap = s.lap := rfl
@[simp] theorem flashWrite_ctx (a : Nat) (bs : Bytes) (s : State) : (flashWrite a bs s).ctx = s.ctx := rfl
@[simp] theorem flashWrite_bu (a : Nat) (bs : Bytes) (s : State) : (flashWrite a bs s).bu = s.bu := rfl
@[simp] theorem flashWrite_rfx (a : Nat) (bs : Bytes) (s : State) : (flashWrite a bs s).rfx = s.rfx := rfl
@[simp] theorem flashWrite_bx (a : Nat) (bs : Bytes) (s : State) : (flashWrite a bs s).bx = s.bx := rfl
@[simp] theorem flashWrite_prog (a : Nat) (bs : Bytes) (s : State) : (flashWrite a bs s).prog = s.prog := rfl
@[simp] theorem flashWrite_edit (a : Nat) (bs : Bytes) (s : State) : (flashWrite a bs s).edit = s.edit := rfl
@[simp] theorem flashWrite_sby (a : Nat) (bs : Bytes) (s : State) : (flashWrite a bs s).sby = s.sby := rfl
@[simp] theorem flashWrite_sbx (a : Nat) (bs : Bytes) (s : State) : (flashWrite a bs s).sbx = s.sbx := rfl
@[simp] theorem flashWrite_saf (a : Nat) (bs : Bytes) (s : State) : (flashWrite a bs s).saf = s.saf := rfl
@[simp] theorem flashWrite_acq (a : Nat) (bs : Bytes) (s : State) : (flashWrite a bs s).acq = s.acq := rfl
@[simp] theorem flashWrite_mtr (a : Nat) (bs : Bytes) (s : State) : (flashWrite a bs s).mtr = s.mtr := rfl
@[simp] theorem flashWrite_lb (a : Nat) (bs : Bytes) (s : State) : (flashWrite a bs s).lb = s.lb := rfl
@[simp] theorem flashWrite_sw (a : Nat) (bs : Bytes) (s : State) : (flashWrite a bs s).sw = s.sw := rfl
@[simp] theorem flashWrite_tbl (a : Nat) (bs : Bytes) (s : State) : (flashWrite a bs s).tbl = s.tbl := rfl
@[simp] theorem flashWrite_px (a : Nat) (bs : Bytes) (s : State) : (flashWrite a bs s).px = s.px := rfl
@[simp] theorem flashWrite_upd (a : Nat) (bs : Bytes) (s : State) : (flashWrite a bs s).upd = s.upd := rfl
@[simp] theorem flashWrite_rtc (a : Nat) (bs : Bytes) (s : State) : (flashWrite a bs s).rtc = s.rtc := rfl
@[simp] theorem flashWrite_pan (a : Nat) (bs : Bytes) (s : State) : (flashWrite a bs s).pan = s.pan := rfl
@[simp] theorem flashWrite_out (a : Nat) (bs : Bytes) (s : State) : (flashWrite a bs s).out = s.out := rfl
@[simp] theorem flashWrite_data (a : Nat) (bs : Bytes) (s : State) : (flashWrite a bs s).data = s.data := rfl
@[simp] theorem flashWrite_mram (a : Nat) (bs : Bytes) (s : State) : (flashWrite a bs s).mram = s.mram := rfl
@[simp] theorem flashWrite_pending (a : Nat) (bs : Bytes) (s : State) : (flashWrite a bs s).pending = s.pending := rfl

@[simp] theorem flashErase_clk (a n : Nat) (s : State) : (flashErase a n s).clk = s.clk := rfl
@[simp] theorem flashErase_power (a n : Nat) (s : State) : (flashErase a n s).power = s.power := rfl
@[simp] theorem flashErase_sens (a n : Nat) (s : State) : (flashErase a n s).sens = s.sens := rfl
@[simp] theorem flashErase_mgt (a n : Nat) (s : State) : (flashErase a n s).mgt = s.mgt := rfl
@[simp] theorem flashErase_log (a n : Nat) (s : State) : (flashErase a n s).log = s.log := rfl
@[simp] theorem flashErase_crc (a n : Nat) (s : State) : (flashErase a n s).crc = s.crc := rfl
@[simp] theorem flashErase_queues (a n : Nat) (s : State) : (flashErase a n s).queues = s.queues := rfl
@[simp] theorem flashErase_dio (a n : Nat) (s : State) : (flashErase a n s).dio = s.dio := rfl
@[simp] theorem flashErase_dioc (a n : Nat) (s : State) : (flashErase a n s).dioc = s.dioc := rfl
@[simp] theorem flashErase_mld (a n : Nat) (s : State) : (flashErase a n s).mld = s.mld := rfl
@[simp] theorem flashErase_img (a n : Nat) (s : State) : (flashErase a n s).img = s.img := rfl
@[simp] theorem flashErase_frz (a n : Nat) (s : State) : (flashErase a n s).frz = s.frz := rfl
@[simp] theorem flashErase_lap (a n : Nat) (s : State) : (flashErase a n s).lap = s.lap := rfl
@[simp] theorem flashErase_ctx (a n : Nat) (s : State) : (flashErase a n s).ctx = s.ctx := rfl
@[simp] theorem flashErase_bu (a n : Nat) (s : State) : (flashErase a n s).bu = s.bu := rfl
@[simp] theorem flashErase_rfx (a n : Nat) (s : State) : (flashErase a n s).rfx = s.rfx := rfl
@[simp] theorem flashErase_bx (a n : Nat) (s : State) : (flashErase a n s).bx = s.bx := rfl
@[simp] theorem flashErase_prog (a n : Nat) (s : State) : (flashErase a n s).prog = s.prog := rfl
@[simp] theorem flashErase_edit (a n : Nat) (s : State) : (flashErase a n s).edit = s.edit := rfl
@[simp] theorem flashErase_sby (a n : Nat) (s : State) : (flashErase a n s).sby = s.sby := rfl
@[simp] theorem flashErase_sbx (a n : Nat) (s : State) : (flashErase a n s).sbx = s.sbx := rfl
@[simp] theorem flashErase_saf (a n : Nat) (s : State) : (flashErase a n s).saf = s.saf := rfl
@[simp] theorem flashErase_acq (a n : Nat) (s : State) : (flashErase a n s).acq = s.acq := rfl
@[simp] theorem flashErase_mtr (a n : Nat) (s : State) : (flashErase a n s).mtr = s.mtr := rfl
@[simp] theorem flashErase_lb (a n : Nat) (s : State) : (flashErase a n s).lb = s.lb := rfl
@[simp] theorem flashErase_sw (a n : Nat) (s : State) : (flashErase a n s).sw = s.sw := rfl
@[simp] theorem flashErase_tbl (a n : Nat) (s : State) : (flashErase a n s).tbl = s.tbl := rfl
@[simp] theorem flashErase_px (a n : Nat) (s : State) : (flashErase a n s).px = s.px := rfl
@[simp] theorem flashErase_upd (a n : Nat) (s : State) : (flashErase a n s).upd = s.upd := rfl
@[simp] theorem flashErase_rtc (a n : Nat) (s : State) : (flashErase a n s).rtc = s.rtc := rfl
@[simp] theorem flashErase_pan (a n : Nat) (s : State) : (flashErase a n s).pan = s.pan := rfl
@[simp] theorem flashErase_out (a n : Nat) (s : State) : (flashErase a n s).out = s.out := rfl
@[simp] theorem flashErase_data (a n : Nat) (s : State) : (flashErase a n s).data = s.data := rfl
@[simp] theorem flashErase_mram (a n : Nat) (s : State) : (flashErase a n s).mram = s.mram := rfl
@[simp] theorem flashErase_pending (a n : Nat) (s : State) : (flashErase a n s).pending = s.pending := rfl

@[simp] theorem trDropped_clk (s : State) : (trDropped s).clk = s.clk := rfl
@[simp] theorem trDropped_power (s : State) : (trDropped s).power = s.power := rfl
@[simp] theorem trDropped_sens (s : State) : (trDropped s).sens = s.sens := rfl
@[simp] theorem trDropped_mgt (s : State) : (trDropped s).mgt = s.mgt := rfl
@[simp] theorem trDropped_crc (s : State) : (trDropped s).crc = s.crc := rfl
@[simp] theorem trDropped_queues (s : State) : (trDropped s).queues = s.queues := rfl
@[simp] theorem trDropped_dio (s : State) : (trDropped s).dio = s.dio := rfl
@[simp] theorem trDropped_dioc (s : State) : (trDropped s).dioc = s.dioc := rfl
@[simp] theorem trDropped_mld (s : State) : (trDropped s).mld = s.mld := rfl
@[simp] theorem trDropped_img (s : State) : (trDropped s).img = s.img := rfl
@[simp] theorem trDropped_frz (s : State) : (trDropped s).frz = s.frz := rfl
@[simp] theorem trDropped_lap (s : State) : (trDropped s).lap = s.lap := rfl
@[simp] theorem trDropped_ctx (s : State) : (trDropped s).ctx = s.ctx := rfl
@[simp] theorem trDropped_bu (s : State) : (trDropped s).bu = s.bu := rfl
@[simp] theorem trDropped_rfx (s : State) : (trDropped s).rfx = s.rfx := rfl
@[simp] theorem trDropped_bx (s : State) : (trDropped s).bx = s.bx := rfl
@[simp] theorem trDropped_prog (s : State) : (trDropped s).prog = s.prog := rfl
@[simp] theorem trDropped_edit (s : State) : (trDropped s).edit = s.edit := rfl
@[simp] theorem trDropped_sby (s : State) : (trDropped s).sby = s.sby := rfl
@[simp] theorem trDropped_sbx (s : State) : (trDropped s).sbx = s.sbx := rfl
@[simp] theorem trDropped_saf (s : State) : (trDropped s).saf = s.saf := rfl
@[simp] theorem trDropped_acq (s : State) : (trDropped s).acq = s.acq := rfl
@[simp] theorem trDropped_mtr (s : State) : (trDropped s).mtr = s.mtr := rfl
@[simp] theorem trDropped_lb (s : State) : (trDropped s).lb = s.lb := rfl
@[simp] theorem trDropped_sw (s : State) : (trDropped s).sw = s.sw := rfl
@[simp] theorem trDropped_tbl (s : State) : (trDropped s).tbl = s.tbl := rfl
@[simp] theorem trDropped_px (s : State) : (trDropped s).px = s.px := rfl
@[simp] theorem trDropped_upd (s : State) : (trDropped s).upd = s.upd := rfl
@[simp] theorem trDropped_rtc (s : State) : (trDropped s).rtc = s.rtc := rfl
@[simp] theorem trDropped_pan (s : State) : (trDropped s).pan = s.pan := rfl
@[simp] theorem trDropped_out (s : State) : (trDropped s).out = s.out := rfl
@[simp] theorem trDropped_data (s : State) : (trDropped s).data = s.data := rfl
@[simp] theorem trDropped_mram (s : State) : (trDropped s).mram = s.mram := rfl
@[simp] theorem trDropped_flash (s : State) : (trDropped s).flash = s.flash := rfl
@[simp] theorem trDropped_pending (s : State) : (trDropped s).pending = s.pending := rfl

@[simp] theorem trDropSaid_clk (s : State) : (trDropSaid s).clk = s.clk := rfl
@[simp] theorem trDropSaid_power (s : State) : (trDropSaid s).power = s.power := rfl
@[simp] theorem trDropSaid_sens (s : State) : (trDropSaid s).sens = s.sens := rfl
@[simp] theorem trDropSaid_mgt (s : State) : (trDropSaid s).mgt = s.mgt := rfl
@[simp] theorem trDropSaid_crc (s : State) : (trDropSaid s).crc = s.crc := rfl
@[simp] theorem trDropSaid_queues (s : State) : (trDropSaid s).queues = s.queues := rfl
@[simp] theorem trDropSaid_dio (s : State) : (trDropSaid s).dio = s.dio := rfl
@[simp] theorem trDropSaid_dioc (s : State) : (trDropSaid s).dioc = s.dioc := rfl
@[simp] theorem trDropSaid_mld (s : State) : (trDropSaid s).mld = s.mld := rfl
@[simp] theorem trDropSaid_img (s : State) : (trDropSaid s).img = s.img := rfl
@[simp] theorem trDropSaid_frz (s : State) : (trDropSaid s).frz = s.frz := rfl
@[simp] theorem trDropSaid_lap (s : State) : (trDropSaid s).lap = s.lap := rfl
@[simp] theorem trDropSaid_ctx (s : State) : (trDropSaid s).ctx = s.ctx := rfl
@[simp] theorem trDropSaid_bu (s : State) : (trDropSaid s).bu = s.bu := rfl
@[simp] theorem trDropSaid_rfx (s : State) : (trDropSaid s).rfx = s.rfx := rfl
@[simp] theorem trDropSaid_bx (s : State) : (trDropSaid s).bx = s.bx := rfl
@[simp] theorem trDropSaid_prog (s : State) : (trDropSaid s).prog = s.prog := rfl
@[simp] theorem trDropSaid_edit (s : State) : (trDropSaid s).edit = s.edit := rfl
@[simp] theorem trDropSaid_sby (s : State) : (trDropSaid s).sby = s.sby := rfl
@[simp] theorem trDropSaid_sbx (s : State) : (trDropSaid s).sbx = s.sbx := rfl
@[simp] theorem trDropSaid_saf (s : State) : (trDropSaid s).saf = s.saf := rfl
@[simp] theorem trDropSaid_acq (s : State) : (trDropSaid s).acq = s.acq := rfl
@[simp] theorem trDropSaid_mtr (s : State) : (trDropSaid s).mtr = s.mtr := rfl
@[simp] theorem trDropSaid_lb (s : State) : (trDropSaid s).lb = s.lb := rfl
@[simp] theorem trDropSaid_sw (s : State) : (trDropSaid s).sw = s.sw := rfl
@[simp] theorem trDropSaid_tbl (s : State) : (trDropSaid s).tbl = s.tbl := rfl
@[simp] theorem trDropSaid_px (s : State) : (trDropSaid s).px = s.px := rfl
@[simp] theorem trDropSaid_upd (s : State) : (trDropSaid s).upd = s.upd := rfl
@[simp] theorem trDropSaid_rtc (s : State) : (trDropSaid s).rtc = s.rtc := rfl
@[simp] theorem trDropSaid_pan (s : State) : (trDropSaid s).pan = s.pan := rfl
@[simp] theorem trDropSaid_out (s : State) : (trDropSaid s).out = s.out := rfl
@[simp] theorem trDropSaid_data (s : State) : (trDropSaid s).data = s.data := rfl
@[simp] theorem trDropSaid_mram (s : State) : (trDropSaid s).mram = s.mram := rfl
@[simp] theorem trDropSaid_flash (s : State) : (trDropSaid s).flash = s.flash := rfl
@[simp] theorem trDropSaid_pending (s : State) : (trDropSaid s).pending = s.pending := rfl

@[simp] theorem drawn_wallUs (s : State) : (drawn s).clk.wallUs = s.clk.wallUs := rfl
@[simp] theorem drawn_opUs (s : State) : (drawn s).clk.opUs = s.clk.opUs := rfl
@[simp] theorem drawn_savedMs (s : State) : (drawn s).clk.savedMs = s.clk.savedMs := rfl
@[simp] theorem drawn_anchorMs (s : State) : (drawn s).clk.anchorMs = s.clk.anchorMs := rfl
@[simp] theorem drawn_freeCount (s : State) : (drawn s).clk.freeCount = s.clk.freeCount + 1 := rfl
@[simp] theorem ringSet_ringSel (n : Nat) (r : Ring) (s : State) : (ringSet n r s).queues.ringSel = s.queues.ringSel := rfl
@[simp] theorem ringSet_rings (n : Nat) (r : Ring) (s : State) :
    (ringSet n r s).queues.rings = sput {} s.queues.rings n r := rfl
@[simp] theorem dataWrite_data (a : Nat) (bs : Bytes) (s : State) :
    (dataWrite a bs s).data = memWrite 0 dataSize s.data a bs := rfl
@[simp] theorem mramWrite_mram (a : Nat) (bs : Bytes) (s : State) :
    (mramWrite a bs s).mram = memWrite 0 mramSize s.mram a bs := rfl
@[simp] theorem flashWrite_flash (a : Nat) (bs : Bytes) (s : State) :
    (flashWrite a bs s).flash = memWrite 0xFF flashSize s.flash a bs := rfl
@[simp] theorem flashErase_flash (a n : Nat) (s : State) : (flashErase a n s).flash = memErase s.flash a n := rfl

end Sys2Proof.Machine
end

