-- ==== Sys2Proof/Laws/Store.lean ====
section
/-! SUPPORT. The sparse stores: canonical form, read after write, and that every memory operation keeps the form. -/

namespace Sys2Proof.Machine

variable {α : Type} [DecidableEq α]

/-- A canonical store stays canonical above a lower start. -/
theorem swfFrom_mono (d : α) (lim lo lo' : Nat) (m : Sparse α) (h : lo' ≤ lo) (w : swfFrom d lim lo m = true) :
    swfFrom d lim lo' m = true := by
  cases m with
  | nil => rfl
  | cons c m =>
    obtain ⟨k, v⟩ := c
    simp only [swfFrom, Bool.and_eq_true, decide_eq_true_eq] at *
    exact ⟨⟨⟨by omega, w.1.1.2⟩, w.1.2⟩, w.2⟩

/-- A key below every listed key reads as the default. -/
theorem sget_below (d : α) (lim lo : Nat) (m : Sparse α) (a : Nat) (w : swfFrom d lim lo m = true) (h : a < lo) :
    sget d m a = d := by
  induction m generalizing lo with
  | nil => rfl
  | cons c m ih =>
    obtain ⟨k, v⟩ := c
    simp only [swfFrom, Bool.and_eq_true, decide_eq_true_eq] at w
    simp only [sget]
    rw [if_neg (by omega)]
    exact ih (k + 1) w.2 (by omega)

/-- A write to a canonical store keeps the form. -/
theorem swfFrom_sput (d : α) (lim lo : Nat) (m : Sparse α) (a : Nat) (v : α) (w : swfFrom d lim lo m = true)
    (hlo : lo ≤ a) (ha : a < lim) : swfFrom d lim lo (sput d m a v) = true := by
  induction m generalizing lo with
  | nil =>
    simp only [sput]
    split
    · rfl
    · simp_all [swfFrom]
  | cons c m ih =>
    obtain ⟨k, u⟩ := c
    simp only [swfFrom, Bool.and_eq_true, decide_eq_true_eq] at w
    obtain ⟨⟨⟨h1, h2⟩, h3⟩, h4⟩ := w
    simp only [sput]
    split
    · split
      · simp [swfFrom, *]
      · rename_i hak hv
        simp only [swfFrom, Bool.and_eq_true, decide_eq_true_eq]
        exact ⟨⟨⟨hlo, ha⟩, hv⟩, ⟨⟨⟨by omega, h2⟩, h3⟩, h4⟩⟩
    · split
      · split
        · exact swfFrom_mono d lim (k + 1) lo m (by omega) h4
        · rename_i hak hak2 hv
          simp only [swfFrom, Bool.and_eq_true, decide_eq_true_eq]
          subst hak2
          exact ⟨⟨⟨h1, h2⟩, hv⟩, h4⟩
      · simp only [swfFrom, Bool.and_eq_true, decide_eq_true_eq]
        exact ⟨⟨⟨h1, h2⟩, h3⟩, ih (k + 1) h4 (by omega)⟩

/-- What a write wrote is read back, and every other place reads as before. -/
theorem sget_sput (d : α) (lim lo : Nat) (m : Sparse α) (a b : Nat) (v : α) (w : swfFrom d lim lo m = true) :
    sget d (sput d m a v) b = if b = a then v else sget d m b := by
  induction m generalizing lo with
  | nil =>
    by_cases hb : b = a
    · subst hb; by_cases hv : v = d <;> simp [sput, sget, hv]
    · by_cases hv : v = d <;> simp [sput, sget, hv, hb, Ne.symm hb]
  | cons c m ih =>
    obtain ⟨k, u⟩ := c
    simp only [swfFrom, Bool.and_eq_true, decide_eq_true_eq] at w
    obtain ⟨⟨⟨h1, h2⟩, h3⟩, h4⟩ := w
    simp only [sput]
    split
    · rename_i hak
      by_cases hb : b = a
      · subst hb
        have hk : k ≠ b := by omega
        have hz : sget d m b = d := sget_below d lim (k + 1) m b h4 (by omega)
        by_cases hv : v = d <;> simp [sget, hv, hk, hz]
      · by_cases hv : v = d <;> simp [sget, hv, hb, Ne.symm hb]
    · split
      · rename_i hak hak2
        subst hak2
        by_cases hb : b = a
        · subst hb
          have hz : sget d m b = d := sget_below d lim (b + 1) m b h4 (by omega)
          by_cases hv : v = d <;> simp [sget, hv, hz]
        · by_cases hv : v = d <;> simp [sget, hv, hb, Ne.symm hb]
      · rename_i hak hak2
        simp only [sget]
        by_cases hb : b = a
        · subst hb
          simp [Ne.symm hak2, ih (k + 1) h4]
        · by_cases hkb : k = b
          · simp [hkb, hb]
          · simp [hkb, ih (k + 1) h4, hb]

/-- A filtered canonical store is canonical. -/
theorem swfFrom_filter (d : α) (lim lo : Nat) (m : Sparse α) (p : Nat × α → Bool) (w : swfFrom d lim lo m = true) :
    swfFrom d lim lo (m.filter p) = true := by
  induction m generalizing lo with
  | nil => rfl
  | cons c m ih =>
    obtain ⟨k, v⟩ := c
    simp only [swfFrom, Bool.and_eq_true, decide_eq_true_eq] at w
    rw [List.filter_cons]
    split
    · simp only [swfFrom, Bool.and_eq_true, decide_eq_true_eq]
      exact ⟨w.1, ih (k + 1) w.2⟩
    · exact swfFrom_mono d lim (k + 1) lo _ (by omega) (ih (k + 1) w.2)

/-- A byte write keeps the canonical form. -/
theorem memPut_wf (d : Byte) (lim : Nat) (m : Mem) (a : Nat) (v : Byte) (w : swf d lim m = true) :
    swf d lim (memPut d lim m a v) = true := by
  unfold memPut
  split
  · exact swfFrom_sput d lim 0 m a v w (Nat.zero_le _) ‹_›
  · exact w

/-- A write of bytes keeps the canonical form. -/
theorem memWrite_wf (d : Byte) (lim : Nat) (m : Mem) (a : Nat) (bs : Bytes) (w : swf d lim m = true) :
    swf d lim (memWrite d lim m a bs) = true := by
  induction bs generalizing m a with
  | nil => exact w
  | cons b bs ih => exact ih _ _ (memPut_wf d lim m a b w)

/-- An erase keeps the canonical form. -/
theorem memErase_wf (d : Byte) (lim : Nat) (m : Mem) (a n : Nat) (w : swf d lim m = true) :
    swf d lim (memErase m a n) = true := swfFrom_filter d lim 0 m _ w

/-- The byte at a place after one byte write. -/
theorem memGet_memPut (d : Byte) (lim : Nat) (m : Mem) (a b : Nat) (v : Byte) (w : swf d lim m = true) :
    memGet d (memPut d lim m a v) b = if b = a ∧ a < lim then v else memGet d m b := by
  unfold memPut memGet
  split
  · rename_i h; rw [sget_sput d lim 0 m a b v w]; simp [h]
  · rename_i h; simp [h]

/-- The byte at a place after a write of bytes: the written byte inside it, the old one elsewhere. -/
theorem memGet_memWrite (d : Byte) (lim : Nat) (m : Mem) (a b : Nat) (bs : Bytes) (w : swf d lim m = true)
    (h : a + bs.length ≤ lim) :
    memGet d (memWrite d lim m a bs) b = if a ≤ b ∧ b < a + bs.length then bs.getD (b - a) 0 else memGet d m b := by
  induction bs generalizing m a with
  | nil => simp [memWrite]
  | cons x bs ih =>
    simp only [List.length_cons] at h
    rw [memWrite, ih _ _ (memPut_wf d lim m a x w) (by omega), memGet_memPut d lim m a b x w]
    by_cases h1 : b = a
    · subst h1; simp [show ¬ (b + 1 ≤ b) by omega, show b < lim by omega]
    · by_cases h2 : a + 1 ≤ b ∧ b < a + 1 + bs.length
      · rw [if_pos h2, if_pos (by simp; omega)]
        obtain ⟨c, rfl⟩ : ∃ c, b = a + 1 + c := ⟨b - (a + 1), by omega⟩
        have e1 : a + 1 + c - a = c + 1 := by omega
        simp [e1]
      · rw [if_neg h2, if_neg (by simp [h1]), if_neg (by simp; omega)]

/-- The bytes read at the place of a write are the bytes written. -/
theorem memRead_memWrite (d : Byte) (lim : Nat) (m : Mem) (a : Nat) (bs : Bytes) (w : swf d lim m = true) (h : a + bs.length ≤ lim) :
    memRead d (memWrite d lim m a bs) a bs.length = bs := by
  suffices H : ∀ k j, j + k = bs.length → memRead d (memWrite d lim m a bs) (a + j) k = bs.drop j by simpa using H bs.length 0 (by omega)
  intro k
  induction k with
  | zero => intro j e; simp [memRead, List.drop_eq_nil_of_le (show bs.length ≤ j by omega)]
  | succ k ih =>
    intro j e
    have hj : j < bs.length := by omega
    rw [memRead, memGet_memWrite d lim m a (a + j) bs w h, if_pos (by omega), show a + j + 1 = a + (j + 1) by omega, ih (j + 1) (by omega),
      List.drop_eq_getElem_cons hj]
    simp [hj]

/-- A read apart from a write finds what stood there. -/
theorem memRead_memWrite_apart (d : Byte) (lim : Nat) (m : Mem) (a : Nat) (bs : Bytes) (w : swf d lim m = true) (h : a + bs.length ≤ lim)
    (b n : Nat) (apart : b + n ≤ a ∨ a + bs.length ≤ b) : memRead d (memWrite d lim m a bs) b n = memRead d m b n := by
  induction n generalizing b with
  | zero => rfl
  | succ n ih => rw [memRead, memRead, memGet_memWrite d lim m a b bs w h, if_neg (by omega), ih (b + 1) (by omega)]

/-- The canonical form of the three stores after a write or an erase. -/
theorem dataWrite_wf (a : Nat) (bs : Bytes) (s : State) (w : Memory.wf s = true) : Memory.wf (dataWrite a bs s) = true := by
  simp only [Memory.wf, Bool.and_eq_true] at *
  exact ⟨⟨memWrite_wf _ _ _ _ _ w.1.1, w.1.2⟩, w.2⟩

@[simp] theorem setLaneByte_stores (a : Nat) (v : Byte) (s : State) :
    (setLaneByte a v s).data = s.data ∧ (setLaneByte a v s).mram = s.mram ∧ (setLaneByte a v s).flash = s.flash := by
  simp only [setLaneByte]
  split_ifs <;> exact ⟨rfl, rfl, rfl⟩

/-- A write of the check-value unit or of the table DMA keeps the memories' canonical form. -/
theorem unitWrite_wf (a : Nat) (bs : Bytes) (s : State) (w : Memory.wf s = true) : Memory.wf (unitWrite a bs s) = true := by
  unfold unitWrite
  split_ifs
  · exact dataWrite_wf a bs s w
  · generalize bs.zip (List.range bs.length) = l
    induction l generalizing s with
    | nil => exact w
    | cons x xs ih =>
      refine ih _ ?_
      dsimp only
      split_ifs
      · obtain ⟨h1, h2, h3⟩ := setLaneByte_stores (a + x.2) x.1 s
        simpa only [Memory.wf, h1, h2, h3] using w
      · exact dataWrite_wf _ _ s w

theorem mramWrite_wf (a : Nat) (bs : Bytes) (s : State) (w : Memory.wf s = true) : Memory.wf (mramWrite a bs s) = true := by
  simp only [Memory.wf, Bool.and_eq_true] at *
  exact ⟨⟨w.1.1, memWrite_wf _ _ _ _ _ w.1.2⟩, w.2⟩

theorem flashWrite_wf (a : Nat) (bs : Bytes) (s : State) (w : Memory.wf s = true) :
    Memory.wf (flashWrite a bs s) = true := by
  simp only [Memory.wf, Bool.and_eq_true] at *
  exact ⟨w.1, memWrite_wf _ _ _ _ _ w.2⟩

theorem flashErase_wf (a n : Nat) (s : State) (w : Memory.wf s = true) : Memory.wf (flashErase a n s) = true := by
  simp only [Memory.wf, Bool.and_eq_true] at *
  exact ⟨w.1, memErase_wf _ _ _ _ _ w.2⟩

end Sys2Proof.Machine
end

