-- ==== Sys2Proof/Laws/Ops.lean ====
section
/-! SUPPORT. What the Queue Pool and the record operations can do: they change the rings, the record queues, the number of
free values drawn and data memory, and nothing else; data memory keeps its canonical form. -/

namespace Sys2Proof.Machine

/-- A state that differs from another only in what the Queue Pool and the records keep. -/
def Bookkept (s t : State) : Prop :=
  ∃ q l n d, t = { s with queues := q, log := l, clk := { s.clk with freeCount := n }, data := d } ∧
    (swf (0 : Byte) dataSize s.data = true → swf (0 : Byte) dataSize d = true)

theorem Bookkept.refl (s : State) : Bookkept s s := ⟨s.queues, s.log, s.clk.freeCount, s.data, rfl, id⟩

theorem Bookkept.trans {s t u : State} (h : Bookkept s t) (k : Bookkept t u) : Bookkept s u := by
  obtain ⟨q, l, n, d, rfl, w⟩ := h
  obtain ⟨q', l', n', d', rfl, w'⟩ := k
  exact ⟨q', l', n', d', rfl, fun x => w' (w x)⟩

theorem Bookkept.wf {s t : State} (h : Bookkept s t) (w : Memory.wf s = true) : Memory.wf t = true := by
  obtain ⟨q, l, n, d, rfl, k⟩ := h
  simp only [Memory.wf, Bool.and_eq_true] at *
  exact ⟨⟨k w.1.1, w.1.2⟩, w.2⟩

theorem drawn_bookkept (s : State) : Bookkept s (drawn s) := ⟨s.queues, s.log, s.clk.freeCount + 1, s.data, rfl, id⟩

theorem ringSet_bookkept (n : Nat) (r : Ring) (s : State) : Bookkept s (ringSet n r s) :=
  ⟨(ringSet n r s).queues, s.log, s.clk.freeCount, s.data, rfl, id⟩

theorem dataWrite_bookkept (a : Nat) (bs : Bytes) (s : State) : Bookkept s (dataWrite a bs s) :=
  ⟨s.queues, s.log, s.clk.freeCount, memWrite 0 dataSize s.data a bs, rfl, fun w => memWrite_wf _ _ _ _ _ w⟩

theorem logSet_bookkept (l : Log) (s : State) : Bookkept s { s with log := l } :=
  ⟨s.queues, l, s.clk.freeCount, s.data, rfl, id⟩

theorem ringStore_bookkept (n : Nat) (r : Ring) (d : Desc) (s : State) : Bookkept s (ringStore n r d s) :=
  (dataWrite_bookkept _ _ s).trans (ringSet_bookkept _ _ _)

/-- A push changes one ring and its descriptor's place. -/
theorem ringPut_bookkept (n : Nat) (d : Desc) (s : State) : Bookkept s (ringPut n d s).1 := by
  unfold ringPut
  simp only
  split
  · exact ringSet_bookkept _ _ _
  · split
    · exact ringSet_bookkept _ _ _
    · split
      · exact ringStore_bookkept _ _ _ _
      · split
        · exact ringSet_bookkept _ _ _
        · exact ringStore_bookkept _ _ _ _

/-- A pop moves CI of one ring. -/
theorem ringTake_bookkept (n : Nat) (s : State) : Bookkept s (ringTake n s).1 := by
  unfold ringTake
  simp only
  split
  · exact Bookkept.refl s
  · exact ringSet_bookkept _ _ _

theorem repeatGate_bookkept (code key : Nat) (s : State) : Bookkept s (repeatGate code key s).1 := by
  unfold repeatGate
  simp only
  split
  · split <;> exact logSet_bookkept _ _
  · exact logSet_bookkept _ _

theorem trDropped_bookkept (s : State) : Bookkept s (trDropped s) := logSet_bookkept _ _

theorem trDropSaid_bookkept (s : State) : Bookkept s (trDropSaid s) := logSet_bookkept _ _

/-- The Queue Pool at work, with every record it causes. -/
theorem perform_bookkept (k : Nat) (w : Work) (s : State) : Bookkept s (perform k w s) := by
  induction k generalizing w s with
  | zero => exact Bookkept.refl s
  | succ k ih =>
    cases w with
    | desc n d =>
      have h1 : Bookkept s (ringPut n d s).1 := ringPut_bookkept n d s
      simp only [perform]
      have h2 : ∀ u, Bookkept s u → ∀ (code key : Nat) (f : Nat → State → Work),
          Bookkept s (match repeatGate code key u with
            | (t, some m) => perform k (f m t) t
            | (t, none) => t) := by
        intro u hu code key f
        have hg := repeatGate_bookkept code key u
        split
        · rename_i t m he
          rw [he] at hg
          exact (hu.trans hg).trans (ih _ _)
        · rename_i t he
          rw [he] at hg
          exact hu.trans hg
      have h3 : Bookkept s (if n = 3 ∧ (ringPut n d s).2.dropped then
          (if trDropDue (trDropped (ringPut n d s).1) then
            perform k (.sj (recordOf 0xC05 1 (item (trDropped (ringPut n d s).1).log.trDropMissed) 0 (ringPut n d s).1))
              (trDropSaid (trDropped (ringPut n d s).1))
          else trDropped (ringPut n d s).1) else (ringPut n d s).1) := by
        have hc := h1.trans (trDropped_bookkept _)
        split
        · split
          · exact (hc.trans (trDropSaid_bookkept _)).trans (ih _ _)
          · exact hc
        · exact h1
      have h4 : ∀ u, Bookkept s u → Bookkept s (if (ringPut n d s).2.overflow then
          (match repeatGate 0x124 n u with
            | (t, some m) => perform k (.tr (recordOf 0x124 1 (item n ++ item (ringGet (ringPut n d s).1 n).policy.toNat ++ item (m + 1)) m t)) t
            | (t, none) => t) else u) := by
        intro u hu
        split
        · exact h2 _ hu _ _ (fun m t => Work.tr (recordOf 0x124 1 (item n ++ item (ringGet (ringPut n d s).1 n).policy.toNat ++ item (m + 1)) m t))
        · exact hu
      split
      · exact h2 _ (h4 _ h3) _ _ (fun m t => Work.tr (recordOf 0x125 0 (item n ++ item (ringFill (ringGet (ringPut n d s).1 n)) ++ item (ringDepth (ringGet (ringPut n d s).1 n))) m t))
      · exact h4 _ h3
    | sj r =>
      simp only [perform]
      exact (((logSet_bookkept _ s).trans (drawn_bookkept _)).trans (drawn_bookkept _)).trans (ih _ _)
    | tr r =>
      simp only [perform]
      split
      · exact ((drawn_bookkept s).trans (drawn_bookkept _)).trans (ih _ _)
      · exact (((logSet_bookkept _ s).trans (drawn_bookkept _)).trans (drawn_bookkept _)).trans (ih _ _)

theorem push_bookkept (n : Nat) (d : Desc) (s : State) : Bookkept s (push n d s) := perform_bookkept _ _ _

theorem sj_bookkept (code sev : Nat) (items : Bytes) (s : State) : Bookkept s (sj code sev items s) := perform_bookkept _ _ _

theorem sjMissed_bookkept (code sev : Nat) (items : Bytes) (m : Nat) (s : State) :
    Bookkept s (sjMissed code sev items m s) := perform_bookkept _ _ _

theorem tr_bookkept (code sev : Nat) (items : Bytes) (s : State) : Bookkept s (tr code sev items s) := perform_bookkept _ _ _

theorem sjRep_bookkept (code sev key : Nat) (items : Bytes) (s : State) : Bookkept s (sjRep code sev key items s) := by
  have hg := repeatGate_bookkept code key s
  unfold sjRep
  split <;> rename_i he <;> rw [he] at hg
  · exact hg.trans (perform_bookkept _ _ _)
  · exact hg

theorem trRep_bookkept (code sev key : Nat) (items : Bytes) (s : State) : Bookkept s (trRep code sev key items s) := by
  have hg := repeatGate_bookkept code key s
  unfold trRep
  split <;> rename_i he <;> rw [he] at hg
  · exact hg.trans (perform_bookkept _ _ _)
  · exact hg

theorem trRepCount_bookkept (code sev key : Nat) (items : Nat → Bytes) (s : State) :
    Bookkept s (trRepCount code sev key items s) := by
  have hg := repeatGate_bookkept code key s
  unfold trRepCount
  split <;> rename_i he <;> rw [he] at hg
  · exact hg.trans (perform_bookkept _ _ _)
  · exact hg

theorem pushEvent_bookkept (t : Nat) (src : Byte) (tag : Word) (s : State) : Bookkept s (pushEvent t src tag s) :=
  (drawn_bookkept s).trans (push_bookkept _ _ _)

theorem pushEventFree_bookkept (t : Nat) (src : Byte) (s : State) : Bookkept s (pushEventFree t src s) :=
  (drawn_bookkept s).trans (pushEvent_bookkept _ _ _ _)

theorem drop1_bookkept (n : Nat) (s : State) : Bookkept s (drop1 n s) := ringTake_bookkept n s

theorem sjStateChange_bookkept (old new : OpState) (s : State) : Bookkept s (sjStateChange old new s) :=
  (drawn_bookkept s).trans (sj_bookkept _ _ _ _)

/-- What a bookkept state shares with the one it came from. -/
theorem Bookkept.fields {s t : State} (h : Bookkept s t) :
    t.power = s.power ∧ t.sens = s.sens ∧ t.mgt = s.mgt ∧ t.crc = s.crc ∧ t.dio = s.dio ∧ t.dioc = s.dioc ∧
    t.mld = s.mld ∧ t.img = s.img ∧ t.frz = s.frz ∧ t.lap = s.lap ∧ t.ctx = s.ctx ∧ t.bu = s.bu ∧
    t.rfx = s.rfx ∧ t.bx = s.bx ∧ t.prog = s.prog ∧ t.edit = s.edit ∧ t.sby = s.sby ∧ t.sbx = s.sbx ∧
    t.saf = s.saf ∧ t.acq = s.acq ∧ t.mtr = s.mtr ∧ t.lb = s.lb ∧ t.sw = s.sw ∧ t.tbl = s.tbl ∧ t.px = s.px ∧
    t.upd = s.upd ∧ t.rtc = s.rtc ∧ t.pan = s.pan ∧ t.out = s.out ∧ t.mram = s.mram ∧ t.flash = s.flash ∧
    t.pending = s.pending ∧ t.clk.wallUs = s.clk.wallUs ∧ t.clk.opUs = s.clk.opUs ∧
    t.clk.savedMs = s.clk.savedMs ∧ t.clk.anchorMs = s.clk.anchorMs ∧ t.clk.optHi = s.clk.optHi := by
  obtain ⟨q, l, n, d, rfl, -⟩ := h
  simp

theorem Bookkept.power {s t : State} (h : Bookkept s t) : t.power = s.power := by
  obtain ⟨_, _, _, _, rfl, -⟩ := h; rfl
theorem Bookkept.sens {s t : State} (h : Bookkept s t) : t.sens = s.sens := by
  obtain ⟨_, _, _, _, rfl, -⟩ := h; rfl
theorem Bookkept.mgt {s t : State} (h : Bookkept s t) : t.mgt = s.mgt := by
  obtain ⟨_, _, _, _, rfl, -⟩ := h; rfl
theorem Bookkept.crc {s t : State} (h : Bookkept s t) : t.crc = s.crc := by
  obtain ⟨_, _, _, _, rfl, -⟩ := h; rfl
theorem Bookkept.dio {s t : State} (h : Bookkept s t) : t.dio = s.dio := by
  obtain ⟨_, _, _, _, rfl, -⟩ := h; rfl
theorem Bookkept.dioc {s t : State} (h : Bookkept s t) : t.dioc = s.dioc := by
  obtain ⟨_, _, _, _, rfl, -⟩ := h; rfl
theorem Bookkept.mld {s t : State} (h : Bookkept s t) : t.mld = s.mld := by
  obtain ⟨_, _, _, _, rfl, -⟩ := h; rfl
theorem Bookkept.img {s t : State} (h : Bookkept s t) : t.img = s.img := by
  obtain ⟨_, _, _, _, rfl, -⟩ := h; rfl
theorem Bookkept.frz {s t : State} (h : Bookkept s t) : t.frz = s.frz := by
  obtain ⟨_, _, _, _, rfl, -⟩ := h; rfl
theorem Bookkept.lap {s t : State} (h : Bookkept s t) : t.lap = s.lap := by
  obtain ⟨_, _, _, _, rfl, -⟩ := h; rfl
theorem Bookkept.ctx {s t : State} (h : Bookkept s t) : t.ctx = s.ctx := by
  obtain ⟨_, _, _, _, rfl, -⟩ := h; rfl
theorem Bookkept.bu {s t : State} (h : Bookkept s t) : t.bu = s.bu := by
  obtain ⟨_, _, _, _, rfl, -⟩ := h; rfl
theorem Bookkept.rfx {s t : State} (h : Bookkept s t) : t.rfx = s.rfx := by
  obtain ⟨_, _, _, _, rfl, -⟩ := h; rfl
theorem Bookkept.bx {s t : State} (h : Bookkept s t) : t.bx = s.bx := by
  obtain ⟨_, _, _, _, rfl, -⟩ := h; rfl
theorem Bookkept.prog {s t : State} (h : Bookkept s t) : t.prog = s.prog := by
  obtain ⟨_, _, _, _, rfl, -⟩ := h; rfl
theorem Bookkept.edit {s t : State} (h : Bookkept s t) : t.edit = s.edit := by
  obtain ⟨_, _, _, _, rfl, -⟩ := h; rfl
theorem Bookkept.sby {s t : State} (h : Bookkept s t) : t.sby = s.sby := by
  obtain ⟨_, _, _, _, rfl, -⟩ := h; rfl
theorem Bookkept.sbx {s t : State} (h : Bookkept s t) : t.sbx = s.sbx := by
  obtain ⟨_, _, _, _, rfl, -⟩ := h; rfl
theorem Bookkept.saf {s t : State} (h : Bookkept s t) : t.saf = s.saf := by
  obtain ⟨_, _, _, _, rfl, -⟩ := h; rfl
theorem Bookkept.acq {s t : State} (h : Bookkept s t) : t.acq = s.acq := by
  obtain ⟨_, _, _, _, rfl, -⟩ := h; rfl
theorem Bookkept.mtr {s t : State} (h : Bookkept s t) : t.mtr = s.mtr := by
  obtain ⟨_, _, _, _, rfl, -⟩ := h; rfl
theorem Bookkept.lb {s t : State} (h : Bookkept s t) : t.lb = s.lb := by
  obtain ⟨_, _, _, _, rfl, -⟩ := h; rfl
theorem Bookkept.sw {s t : State} (h : Bookkept s t) : t.sw = s.sw := by
  obtain ⟨_, _, _, _, rfl, -⟩ := h; rfl
theorem Bookkept.tbl {s t : State} (h : Bookkept s t) : t.tbl = s.tbl := by
  obtain ⟨_, _, _, _, rfl, -⟩ := h; rfl
theorem Bookkept.px {s t : State} (h : Bookkept s t) : t.px = s.px := by
  obtain ⟨_, _, _, _, rfl, -⟩ := h; rfl
theorem Bookkept.upd {s t : State} (h : Bookkept s t) : t.upd = s.upd := by
  obtain ⟨_, _, _, _, rfl, -⟩ := h; rfl
theorem Bookkept.rtc {s t : State} (h : Bookkept s t) : t.rtc = s.rtc := by
  obtain ⟨_, _, _, _, rfl, -⟩ := h; rfl
theorem Bookkept.pan {s t : State} (h : Bookkept s t) : t.pan = s.pan := by
  obtain ⟨_, _, _, _, rfl, -⟩ := h; rfl
theorem Bookkept.out {s t : State} (h : Bookkept s t) : t.out = s.out := by
  obtain ⟨_, _, _, _, rfl, -⟩ := h; rfl
theorem Bookkept.mram {s t : State} (h : Bookkept s t) : t.mram = s.mram := by
  obtain ⟨_, _, _, _, rfl, -⟩ := h; rfl
theorem Bookkept.flash {s t : State} (h : Bookkept s t) : t.flash = s.flash := by
  obtain ⟨_, _, _, _, rfl, -⟩ := h; rfl
theorem Bookkept.pending {s t : State} (h : Bookkept s t) : t.pending = s.pending := by
  obtain ⟨_, _, _, _, rfl, -⟩ := h; rfl
theorem Bookkept.wallUs {s t : State} (h : Bookkept s t) : t.clk.wallUs = s.clk.wallUs := by
  obtain ⟨_, _, _, _, rfl, -⟩ := h; rfl
theorem Bookkept.opUs {s t : State} (h : Bookkept s t) : t.clk.opUs = s.clk.opUs := by
  obtain ⟨_, _, _, _, rfl, -⟩ := h; rfl
theorem Bookkept.savedMs {s t : State} (h : Bookkept s t) : t.clk.savedMs = s.clk.savedMs := by
  obtain ⟨_, _, _, _, rfl, -⟩ := h; rfl
theorem Bookkept.anchorMs {s t : State} (h : Bookkept s t) : t.clk.anchorMs = s.clk.anchorMs := by
  obtain ⟨_, _, _, _, rfl, -⟩ := h; rfl

@[simp] theorem push_power (n : Nat) (d : Desc) (s : State) : (push n d s).power = s.power := (push_bookkept n d s).power
@[simp] theorem push_sens (n : Nat) (d : Desc) (s : State) : (push n d s).sens = s.sens := (push_bookkept n d s).sens
@[simp] theorem push_mgt (n : Nat) (d : Desc) (s : State) : (push n d s).mgt = s.mgt := (push_bookkept n d s).mgt
@[simp] theorem push_crc (n : Nat) (d : Desc) (s : State) : (push n d s).crc = s.crc := (push_bookkept n d s).crc
@[simp] theorem push_dio (n : Nat) (d : Desc) (s : State) : (push n d s).dio = s.dio := (push_bookkept n d s).dio
@[simp] theorem push_dioc (n : Nat) (d : Desc) (s : State) : (push n d s).dioc = s.dioc := (push_bookkept n d s).dioc
@[simp] theorem push_mld (n : Nat) (d : Desc) (s : State) : (push n d s).mld = s.mld := (push_bookkept n d s).mld
@[simp] theorem push_img (n : Nat) (d : Desc) (s : State) : (push n d s).img = s.img := (push_bookkept n d s).img
@[simp] theorem push_frz (n : Nat) (d : Desc) (s : State) : (push n d s).frz = s.frz := (push_bookkept n d s).frz
@[simp] theorem push_lap (n : Nat) (d : Desc) (s : State) : (push n d s).lap = s.lap := (push_bookkept n d s).lap
@[simp] theorem push_ctx (n : Nat) (d : Desc) (s : State) : (push n d s).ctx = s.ctx := (push_bookkept n d s).ctx
@[simp] theorem push_bu (n : Nat) (d : Desc) (s : State) : (push n d s).bu = s.bu := (push_bookkept n d s).bu
@[simp] theorem push_rfx (n : Nat) (d : Desc) (s : State) : (push n d s).rfx = s.rfx := (push_bookkept n d s).rfx
@[simp] theorem push_bx (n : Nat) (d : Desc) (s : State) : (push n d s).bx = s.bx := (push_bookkept n d s).bx
@[simp] theorem push_prog (n : Nat) (d : Desc) (s : State) : (push n d s).prog = s.prog := (push_bookkept n d s).prog
@[simp] theorem push_edit (n : Nat) (d : Desc) (s : State) : (push n d s).edit = s.edit := (push_bookkept n d s).edit
@[simp] theorem push_sby (n : Nat) (d : Desc) (s : State) : (push n d s).sby = s.sby := (push_bookkept n d s).sby
@[simp] theorem push_sbx (n : Nat) (d : Desc) (s : State) : (push n d s).sbx = s.sbx := (push_bookkept n d s).sbx
@[simp] theorem push_saf (n : Nat) (d : Desc) (s : State) : (push n d s).saf = s.saf := (push_bookkept n d s).saf
@[simp] theorem push_acq (n : Nat) (d : Desc) (s : State) : (push n d s).acq = s.acq := (push_bookkept n d s).acq
@[simp] theorem push_mtr (n : Nat) (d : Desc) (s : State) : (push n d s).mtr = s.mtr := (push_bookkept n d s).mtr
@[simp] theorem push_lb (n : Nat) (d : Desc) (s : State) : (push n d s).lb = s.lb := (push_bookkept n d s).lb
@[simp] theorem push_sw (n : Nat) (d : Desc) (s : State) : (push n d s).sw = s.sw := (push_bookkept n d s).sw
@[simp] theorem push_tbl (n : Nat) (d : Desc) (s : State) : (push n d s).tbl = s.tbl := (push_bookkept n d s).tbl
@[simp] theorem push_px (n : Nat) (d : Desc) (s : State) : (push n d s).px = s.px := (push_bookkept n d s).px
@[simp] theorem push_upd (n : Nat) (d : Desc) (s : State) : (push n d s).upd = s.upd := (push_bookkept n d s).upd
@[simp] theorem push_rtc (n : Nat) (d : Desc) (s : State) : (push n d s).rtc = s.rtc := (push_bookkept n d s).rtc
@[simp] theorem push_pan (n : Nat) (d : Desc) (s : State) : (push n d s).pan = s.pan := (push_bookkept n d s).pan
@[simp] theorem push_out (n : Nat) (d : Desc) (s : State) : (push n d s).out = s.out := (push_bookkept n d s).out
@[simp] theorem push_mram (n : Nat) (d : Desc) (s : State) : (push n d s).mram = s.mram := (push_bookkept n d s).mram
@[simp] theorem push_flash (n : Nat) (d : Desc) (s : State) : (push n d s).flash = s.flash := (push_bookkept n d s).flash
@[simp] theorem push_pending (n : Nat) (d : Desc) (s : State) : (push n d s).pending = s.pending := (push_bookkept n d s).pending
@[simp] theorem push_wallUs (n : Nat) (d : Desc) (s : State) : (push n d s).clk.wallUs = s.clk.wallUs := (push_bookkept n d s).wallUs
@[simp] theorem push_opUs (n : Nat) (d : Desc) (s : State) : (push n d s).clk.opUs = s.clk.opUs := (push_bookkept n d s).opUs
@[simp] theorem push_savedMs (n : Nat) (d : Desc) (s : State) : (push n d s).clk.savedMs = s.clk.savedMs := (push_bookkept n d s).savedMs
@[simp] theorem push_anchorMs (n : Nat) (d : Desc) (s : State) : (push n d s).clk.anchorMs = s.clk.anchorMs := (push_bookkept n d s).anchorMs

@[simp] theorem sj_power (code sev : Nat) (items : Bytes) (s : State) : (sj code sev items s).power = s.power := (sj_bookkept code sev items s).power
@[simp] theorem sj_sens (code sev : Nat) (items : Bytes) (s : State) : (sj code sev items s).sens = s.sens := (sj_bookkept code sev items s).sens
@[simp] theorem sj_mgt (code sev : Nat) (items : Bytes) (s : State) : (sj code sev items s).mgt = s.mgt := (sj_bookkept code sev items s).mgt
@[simp] theorem sj_crc (code sev : Nat) (items : Bytes) (s : State) : (sj code sev items s).crc = s.crc := (sj_bookkept code sev items s).crc
@[simp] theorem sj_dio (code sev : Nat) (items : Bytes) (s : State) : (sj code sev items s).dio = s.dio := (sj_bookkept code sev items s).dio
@[simp] theorem sj_dioc (code sev : Nat) (items : Bytes) (s : State) : (sj code sev items s).dioc = s.dioc := (sj_bookkept code sev items s).dioc
@[simp] theorem sj_mld (code sev : Nat) (items : Bytes) (s : State) : (sj code sev items s).mld = s.mld := (sj_bookkept code sev items s).mld
@[simp] theorem sj_img (code sev : Nat) (items : Bytes) (s : State) : (sj code sev items s).img = s.img := (sj_bookkept code sev items s).img
@[simp] theorem sj_frz (code sev : Nat) (items : Bytes) (s : State) : (sj code sev items s).frz = s.frz := (sj_bookkept code sev items s).frz
@[simp] theorem sj_lap (code sev : Nat) (items : Bytes) (s : State) : (sj code sev items s).lap = s.lap := (sj_bookkept code sev items s).lap
@[simp] theorem sj_ctx (code sev : Nat) (items : Bytes) (s : State) : (sj code sev items s).ctx = s.ctx := (sj_bookkept code sev items s).ctx
@[simp] theorem sj_bu (code sev : Nat) (items : Bytes) (s : State) : (sj code sev items s).bu = s.bu := (sj_bookkept code sev items s).bu
@[simp] theorem sj_rfx (code sev : Nat) (items : Bytes) (s : State) : (sj code sev items s).rfx = s.rfx := (sj_bookkept code sev items s).rfx
@[simp] theorem sj_bx (code sev : Nat) (items : Bytes) (s : State) : (sj code sev items s).bx = s.bx := (sj_bookkept code sev items s).bx
@[simp] theorem sj_prog (code sev : Nat) (items : Bytes) (s : State) : (sj code sev items s).prog = s.prog := (sj_bookkept code sev items s).prog
@[simp] theorem sj_edit (code sev : Nat) (items : Bytes) (s : State) : (sj code sev items s).edit = s.edit := (sj_bookkept code sev items s).edit
@[simp] theorem sj_sby (code sev : Nat) (items : Bytes) (s : State) : (sj code sev items s).sby = s.sby := (sj_bookkept code sev items s).sby
@[simp] theorem sj_sbx (code sev : Nat) (items : Bytes) (s : State) : (sj code sev items s).sbx = s.sbx := (sj_bookkept code sev items s).sbx
@[simp] theorem sj_saf (code sev : Nat) (items : Bytes) (s : State) : (sj code sev items s).saf = s.saf := (sj_bookkept code sev items s).saf
@[simp] theorem sj_acq (code sev : Nat) (items : Bytes) (s : State) : (sj code sev items s).acq = s.acq := (sj_bookkept code sev items s).acq
@[simp] theorem sj_mtr (code sev : Nat) (items : Bytes) (s : State) : (sj code sev items s).mtr = s.mtr := (sj_bookkept code sev items s).mtr
@[simp] theorem sj_lb (code sev : Nat) (items : Bytes) (s : State) : (sj code sev items s).lb = s.lb := (sj_bookkept code sev items s).lb
@[simp] theorem sj_sw (code sev : Nat) (items : Bytes) (s : State) : (sj code sev items s).sw = s.sw := (sj_bookkept code sev items s).sw
@[simp] theorem sj_tbl (code sev : Nat) (items : Bytes) (s : State) : (sj code sev items s).tbl = s.tbl := (sj_bookkept code sev items s).tbl
@[simp] theorem sj_px (code sev : Nat) (items : Bytes) (s : State) : (sj code sev items s).px = s.px := (sj_bookkept code sev items s).px
@[simp] theorem sj_upd (code sev : Nat) (items : Bytes) (s : State) : (sj code sev items s).upd = s.upd := (sj_bookkept code sev items s).upd
@[simp] theorem sj_rtc (code sev : Nat) (items : Bytes) (s : State) : (sj code sev items s).rtc = s.rtc := (sj_bookkept code sev items s).rtc
@[simp] theorem sj_pan (code sev : Nat) (items : Bytes) (s : State) : (sj code sev items s).pan = s.pan := (sj_bookkept code sev items s).pan
@[simp] theorem sj_out (code sev : Nat) (items : Bytes) (s : State) : (sj code sev items s).out = s.out := (sj_bookkept code sev items s).out
@[simp] theorem sj_mram (code sev : Nat) (items : Bytes) (s : State) : (sj code sev items s).mram = s.mram := (sj_bookkept code sev items s).mram
@[simp] theorem sj_flash (code sev : Nat) (items : Bytes) (s : State) : (sj code sev items s).flash = s.flash := (sj_bookkept code sev items s).flash
@[simp] theorem sj_pending (code sev : Nat) (items : Bytes) (s : State) : (sj code sev items s).pending = s.pending := (sj_bookkept code sev items s).pending
@[simp] theorem sj_wallUs (code sev : Nat) (items : Bytes) (s : State) : (sj code sev items s).clk.wallUs = s.clk.wallUs := (sj_bookkept code sev items s).wallUs
@[simp] theorem sj_opUs (code sev : Nat) (items : Bytes) (s : State) : (sj code sev items s).clk.opUs = s.clk.opUs := (sj_bookkept code sev items s).opUs
@[simp] theorem sj_savedMs (code sev : Nat) (items : Bytes) (s : State) : (sj code sev items s).clk.savedMs = s.clk.savedMs := (sj_bookkept code sev items s).savedMs
@[simp] theorem sj_anchorMs (code sev : Nat) (items : Bytes) (s : State) : (sj code sev items s).clk.anchorMs = s.clk.anchorMs := (sj_bookkept code sev items s).anchorMs

@[simp] theorem sjMissed_power (code sev : Nat) (items : Bytes) (m : Nat) (s : State) : (sjMissed code sev items m s).power = s.power := (sjMissed_bookkept code sev items m s).power
@[simp] theorem sjMissed_sens (code sev : Nat) (items : Bytes) (m : Nat) (s : State) : (sjMissed code sev items m s).sens = s.sens := (sjMissed_bookkept code sev items m s).sens
@[simp] theorem sjMissed_mgt (code sev : Nat) (items : Bytes) (m : Nat) (s : State) : (sjMissed code sev items m s).mgt = s.mgt := (sjMissed_bookkept code sev items m s).mgt
@[simp] theorem sjMissed_crc (code sev : Nat) (items : Bytes) (m : Nat) (s : State) : (sjMissed code sev items m s).crc = s.crc := (sjMissed_bookkept code sev items m s).crc
@[simp] theorem sjMissed_dio (code sev : Nat) (items : Bytes) (m : Nat) (s : State) : (sjMissed code sev items m s).dio = s.dio := (sjMissed_bookkept code sev items m s).dio
@[simp] theorem sjMissed_dioc (code sev : Nat) (items : Bytes) (m : Nat) (s : State) : (sjMissed code sev items m s).dioc = s.dioc := (sjMissed_bookkept code sev items m s).dioc
@[simp] theorem sjMissed_mld (code sev : Nat) (items : Bytes) (m : Nat) (s : State) : (sjMissed code sev items m s).mld = s.mld := (sjMissed_bookkept code sev items m s).mld
@[simp] theorem sjMissed_img (code sev : Nat) (items : Bytes) (m : Nat) (s : State) : (sjMissed code sev items m s).img = s.img := (sjMissed_bookkept code sev items m s).img
@[simp] theorem sjMissed_frz (code sev : Nat) (items : Bytes) (m : Nat) (s : State) : (sjMissed code sev items m s).frz = s.frz := (sjMissed_bookkept code sev items m s).frz
@[simp] theorem sjMissed_lap (code sev : Nat) (items : Bytes) (m : Nat) (s : State) : (sjMissed code sev items m s).lap = s.lap := (sjMissed_bookkept code sev items m s).lap
@[simp] theorem sjMissed_ctx (code sev : Nat) (items : Bytes) (m : Nat) (s : State) : (sjMissed code sev items m s).ctx = s.ctx := (sjMissed_bookkept code sev items m s).ctx
@[simp] theorem sjMissed_bu (code sev : Nat) (items : Bytes) (m : Nat) (s : State) : (sjMissed code sev items m s).bu = s.bu := (sjMissed_bookkept code sev items m s).bu
@[simp] theorem sjMissed_rfx (code sev : Nat) (items : Bytes) (m : Nat) (s : State) : (sjMissed code sev items m s).rfx = s.rfx := (sjMissed_bookkept code sev items m s).rfx
@[simp] theorem sjMissed_bx (code sev : Nat) (items : Bytes) (m : Nat) (s : State) : (sjMissed code sev items m s).bx = s.bx := (sjMissed_bookkept code sev items m s).bx
@[simp] theorem sjMissed_prog (code sev : Nat) (items : Bytes) (m : Nat) (s : State) : (sjMissed code sev items m s).prog = s.prog := (sjMissed_bookkept code sev items m s).prog
@[simp] theorem sjMissed_edit (code sev : Nat) (items : Bytes) (m : Nat) (s : State) : (sjMissed code sev items m s).edit = s.edit := (sjMissed_bookkept code sev items m s).edit
@[simp] theorem sjMissed_sby (code sev : Nat) (items : Bytes) (m : Nat) (s : State) : (sjMissed code sev items m s).sby = s.sby := (sjMissed_bookkept code sev items m s).sby
@[simp] theorem sjMissed_sbx (code sev : Nat) (items : Bytes) (m : Nat) (s : State) : (sjMissed code sev items m s).sbx = s.sbx := (sjMissed_bookkept code sev items m s).sbx
@[simp] theorem sjMissed_saf (code sev : Nat) (items : Bytes) (m : Nat) (s : State) : (sjMissed code sev items m s).saf = s.saf := (sjMissed_bookkept code sev items m s).saf
@[simp] theorem sjMissed_acq (code sev : Nat) (items : Bytes) (m : Nat) (s : State) : (sjMissed code sev items m s).acq = s.acq := (sjMissed_bookkept code sev items m s).acq
@[simp] theorem sjMissed_mtr (code sev : Nat) (items : Bytes) (m : Nat) (s : State) : (sjMissed code sev items m s).mtr = s.mtr := (sjMissed_bookkept code sev items m s).mtr
@[simp] theorem sjMissed_lb (code sev : Nat) (items : Bytes) (m : Nat) (s : State) : (sjMissed code sev items m s).lb = s.lb := (sjMissed_bookkept code sev items m s).lb
@[simp] theorem sjMissed_sw (code sev : Nat) (items : Bytes) (m : Nat) (s : State) : (sjMissed code sev items m s).sw = s.sw := (sjMissed_bookkept code sev items m s).sw
@[simp] theorem sjMissed_tbl (code sev : Nat) (items : Bytes) (m : Nat) (s : State) : (sjMissed code sev items m s).tbl = s.tbl := (sjMissed_bookkept code sev items m s).tbl
@[simp] theorem sjMissed_px (code sev : Nat) (items : Bytes) (m : Nat) (s : State) : (sjMissed code sev items m s).px = s.px := (sjMissed_bookkept code sev items m s).px
@[simp] theorem sjMissed_upd (code sev : Nat) (items : Bytes) (m : Nat) (s : State) : (sjMissed code sev items m s).upd = s.upd := (sjMissed_bookkept code sev items m s).upd
@[simp] theorem sjMissed_rtc (code sev : Nat) (items : Bytes) (m : Nat) (s : State) : (sjMissed code sev items m s).rtc = s.rtc := (sjMissed_bookkept code sev items m s).rtc
@[simp] theorem sjMissed_pan (code sev : Nat) (items : Bytes) (m : Nat) (s : State) : (sjMissed code sev items m s).pan = s.pan := (sjMissed_bookkept code sev items m s).pan
@[simp] theorem sjMissed_out (code sev : Nat) (items : Bytes) (m : Nat) (s : State) : (sjMissed code sev items m s).out = s.out := (sjMissed_bookkept code sev items m s).out
@[simp] theorem sjMissed_mram (code sev : Nat) (items : Bytes) (m : Nat) (s : State) : (sjMissed code sev items m s).mram = s.mram := (sjMissed_bookkept code sev items m s).mram
@[simp] theorem sjMissed_flash (code sev : Nat) (items : Bytes) (m : Nat) (s : State) : (sjMissed code sev items m s).flash = s.flash := (sjMissed_bookkept code sev items m s).flash
@[simp] theorem sjMissed_pending (code sev : Nat) (items : Bytes) (m : Nat) (s : State) : (sjMissed code sev items m s).pending = s.pending := (sjMissed_bookkept code sev items m s).pending
@[simp] theorem sjMissed_wallUs (code sev : Nat) (items : Bytes) (m : Nat) (s : State) : (sjMissed code sev items m s).clk.wallUs = s.clk.wallUs := (sjMissed_bookkept code sev items m s).wallUs
@[simp] theorem sjMissed_opUs (code sev : Nat) (items : Bytes) (m : Nat) (s : State) : (sjMissed code sev items m s).clk.opUs = s.clk.opUs := (sjMissed_bookkept code sev items m s).opUs
@[simp] theorem sjMissed_savedMs (code sev : Nat) (items : Bytes) (m : Nat) (s : State) : (sjMissed code sev items m s).clk.savedMs = s.clk.savedMs := (sjMissed_bookkept code sev items m s).savedMs
@[simp] theorem sjMissed_anchorMs (code sev : Nat) (items : Bytes) (m : Nat) (s : State) : (sjMissed code sev items m s).clk.anchorMs = s.clk.anchorMs := (sjMissed_bookkept code sev items m s).anchorMs

@[simp] theorem sjRep_power (code sev key : Nat) (items : Bytes) (s : State) : (sjRep code sev key items s).power = s.power := (sjRep_bookkept code sev key items s).power
@[simp] theorem sjRep_sens (code sev key : Nat) (items : Bytes) (s : State) : (sjRep code sev key items s).sens = s.sens := (sjRep_bookkept code sev key items s).sens
@[simp] theorem sjRep_mgt (code sev key : Nat) (items : Bytes) (s : State) : (sjRep code sev key items s).mgt = s.mgt := (sjRep_bookkept code sev key items s).mgt
@[simp] theorem sjRep_crc (code sev key : Nat) (items : Bytes) (s : State) : (sjRep code sev key items s).crc = s.crc := (sjRep_bookkept code sev key items s).crc
@[simp] theorem sjRep_dio (code sev key : Nat) (items : Bytes) (s : State) : (sjRep code sev key items s).dio = s.dio := (sjRep_bookkept code sev key items s).dio
@[simp] theorem sjRep_dioc (code sev key : Nat) (items : Bytes) (s : State) : (sjRep code sev key items s).dioc = s.dioc := (sjRep_bookkept code sev key items s).dioc
@[simp] theorem sjRep_mld (code sev key : Nat) (items : Bytes) (s : State) : (sjRep code sev key items s).mld = s.mld := (sjRep_bookkept code sev key items s).mld
@[simp] theorem sjRep_img (code sev key : Nat) (items : Bytes) (s : State) : (sjRep code sev key items s).img = s.img := (sjRep_bookkept code sev key items s).img
@[simp] theorem sjRep_frz (code sev key : Nat) (items : Bytes) (s : State) : (sjRep code sev key items s).frz = s.frz := (sjRep_bookkept code sev key items s).frz
@[simp] theorem sjRep_lap (code sev key : Nat) (items : Bytes) (s : State) : (sjRep code sev key items s).lap = s.lap := (sjRep_bookkept code sev key items s).lap
@[simp] theorem sjRep_ctx (code sev key : Nat) (items : Bytes) (s : State) : (sjRep code sev key items s).ctx = s.ctx := (sjRep_bookkept code sev key items s).ctx
@[simp] theorem sjRep_bu (code sev key : Nat) (items : Bytes) (s : State) : (sjRep code sev key items s).bu = s.bu := (sjRep_bookkept code sev key items s).bu
@[simp] theorem sjRep_rfx (code sev key : Nat) (items : Bytes) (s : State) : (sjRep code sev key items s).rfx = s.rfx := (sjRep_bookkept code sev key items s).rfx
@[simp] theorem sjRep_bx (code sev key : Nat) (items : Bytes) (s : State) : (sjRep code sev key items s).bx = s.bx := (sjRep_bookkept code sev key items s).bx
@[simp] theorem sjRep_prog (code sev key : Nat) (items : Bytes) (s : State) : (sjRep code sev key items s).prog = s.prog := (sjRep_bookkept code sev key items s).prog
@[simp] theorem sjRep_edit (code sev key : Nat) (items : Bytes) (s : State) : (sjRep code sev key items s).edit = s.edit := (sjRep_bookkept code sev key items s).edit
@[simp] theorem sjRep_sby (code sev key : Nat) (items : Bytes) (s : State) : (sjRep code sev key items s).sby = s.sby := (sjRep_bookkept code sev key items s).sby
@[simp] theorem sjRep_sbx (code sev key : Nat) (items : Bytes) (s : State) : (sjRep code sev key items s).sbx = s.sbx := (sjRep_bookkept code sev key items s).sbx
@[simp] theorem sjRep_saf (code sev key : Nat) (items : Bytes) (s : State) : (sjRep code sev key items s).saf = s.saf := (sjRep_bookkept code sev key items s).saf
@[simp] theorem sjRep_acq (code sev key : Nat) (items : Bytes) (s : State) : (sjRep code sev key items s).acq = s.acq := (sjRep_bookkept code sev key items s).acq
@[simp] theorem sjRep_mtr (code sev key : Nat) (items : Bytes) (s : State) : (sjRep code sev key items s).mtr = s.mtr := (sjRep_bookkept code sev key items s).mtr
@[simp] theorem sjRep_lb (code sev key : Nat) (items : Bytes) (s : State) : (sjRep code sev key items s).lb = s.lb := (sjRep_bookkept code sev key items s).lb
@[simp] theorem sjRep_sw (code sev key : Nat) (items : Bytes) (s : State) : (sjRep code sev key items s).sw = s.sw := (sjRep_bookkept code sev key items s).sw
@[simp] theorem sjRep_tbl (code sev key : Nat) (items : Bytes) (s : State) : (sjRep code sev key items s).tbl = s.tbl := (sjRep_bookkept code sev key items s).tbl
@[simp] theorem sjRep_px (code sev key : Nat) (items : Bytes) (s : State) : (sjRep code sev key items s).px = s.px := (sjRep_bookkept code sev key items s).px
@[simp] theorem sjRep_upd (code sev key : Nat) (items : Bytes) (s : State) : (sjRep code sev key items s).upd = s.upd := (sjRep_bookkept code sev key items s).upd
@[simp] theorem sjRep_rtc (code sev key : Nat) (items : Bytes) (s : State) : (sjRep code sev key items s).rtc = s.rtc := (sjRep_bookkept code sev key items s).rtc
@[simp] theorem sjRep_pan (code sev key : Nat) (items : Bytes) (s : State) : (sjRep code sev key items s).pan = s.pan := (sjRep_bookkept code sev key items s).pan
@[simp] theorem sjRep_out (code sev key : Nat) (items : Bytes) (s : State) : (sjRep code sev key items s).out = s.out := (sjRep_bookkept code sev key items s).out
@[simp] theorem sjRep_mram (code sev key : Nat) (items : Bytes) (s : State) : (sjRep code sev key items s).mram = s.mram := (sjRep_bookkept code sev key items s).mram
@[simp] theorem sjRep_flash (code sev key : Nat) (items : Bytes) (s : State) : (sjRep code sev key items s).flash = s.flash := (sjRep_bookkept code sev key items s).flash
@[simp] theorem sjRep_pending (code sev key : Nat) (items : Bytes) (s : State) : (sjRep code sev key items s).pending = s.pending := (sjRep_bookkept code sev key items s).pending
@[simp] theorem sjRep_wallUs (code sev key : Nat) (items : Bytes) (s : State) : (sjRep code sev key items s).clk.wallUs = s.clk.wallUs := (sjRep_bookkept code sev key items s).wallUs
@[simp] theorem sjRep_opUs (code sev key : Nat) (items : Bytes) (s : State) : (sjRep code sev key items s).clk.opUs = s.clk.opUs := (sjRep_bookkept code sev key items s).opUs
@[simp] theorem sjRep_savedMs (code sev key : Nat) (items : Bytes) (s : State) : (sjRep code sev key items s).clk.savedMs = s.clk.savedMs := (sjRep_bookkept code sev key items s).savedMs
@[simp] theorem sjRep_anchorMs (code sev key : Nat) (items : Bytes) (s : State) : (sjRep code sev key items s).clk.anchorMs = s.clk.anchorMs := (sjRep_bookkept code sev key items s).anchorMs

@[simp] theorem tr_power (code sev : Nat) (items : Bytes) (s : State) : (tr code sev items s).power = s.power := (tr_bookkept code sev items s).power
@[simp] theorem tr_sens (code sev : Nat) (items : Bytes) (s : State) : (tr code sev items s).sens = s.sens := (tr_bookkept code sev items s).sens
@[simp] theorem tr_mgt (code sev : Nat) (items : Bytes) (s : State) : (tr code sev items s).mgt = s.mgt := (tr_bookkept code sev items s).mgt
@[simp] theorem tr_crc (code sev : Nat) (items : Bytes) (s : State) : (tr code sev items s).crc = s.crc := (tr_bookkept code sev items s).crc
@[simp] theorem tr_dio (code sev : Nat) (items : Bytes) (s : State) : (tr code sev items s).dio = s.dio := (tr_bookkept code sev items s).dio
@[simp] theorem tr_dioc (code sev : Nat) (items : Bytes) (s : State) : (tr code sev items s).dioc = s.dioc := (tr_bookkept code sev items s).dioc
@[simp] theorem tr_mld (code sev : Nat) (items : Bytes) (s : State) : (tr code sev items s).mld = s.mld := (tr_bookkept code sev items s).mld
@[simp] theorem tr_img (code sev : Nat) (items : Bytes) (s : State) : (tr code sev items s).img = s.img := (tr_bookkept code sev items s).img
@[simp] theorem tr_frz (code sev : Nat) (items : Bytes) (s : State) : (tr code sev items s).frz = s.frz := (tr_bookkept code sev items s).frz
@[simp] theorem tr_lap (code sev : Nat) (items : Bytes) (s : State) : (tr code sev items s).lap = s.lap := (tr_bookkept code sev items s).lap
@[simp] theorem tr_ctx (code sev : Nat) (items : Bytes) (s : State) : (tr code sev items s).ctx = s.ctx := (tr_bookkept code sev items s).ctx
@[simp] theorem tr_bu (code sev : Nat) (items : Bytes) (s : State) : (tr code sev items s).bu = s.bu := (tr_bookkept code sev items s).bu
@[simp] theorem tr_rfx (code sev : Nat) (items : Bytes) (s : State) : (tr code sev items s).rfx = s.rfx := (tr_bookkept code sev items s).rfx
@[simp] theorem tr_bx (code sev : Nat) (items : Bytes) (s : State) : (tr code sev items s).bx = s.bx := (tr_bookkept code sev items s).bx
@[simp] theorem tr_prog (code sev : Nat) (items : Bytes) (s : State) : (tr code sev items s).prog = s.prog := (tr_bookkept code sev items s).prog
@[simp] theorem tr_edit (code sev : Nat) (items : Bytes) (s : State) : (tr code sev items s).edit = s.edit := (tr_bookkept code sev items s).edit
@[simp] theorem tr_sby (code sev : Nat) (items : Bytes) (s : State) : (tr code sev items s).sby = s.sby := (tr_bookkept code sev items s).sby
@[simp] theorem tr_sbx (code sev : Nat) (items : Bytes) (s : State) : (tr code sev items s).sbx = s.sbx := (tr_bookkept code sev items s).sbx
@[simp] theorem tr_saf (code sev : Nat) (items : Bytes) (s : State) : (tr code sev items s).saf = s.saf := (tr_bookkept code sev items s).saf
@[simp] theorem tr_acq (code sev : Nat) (items : Bytes) (s : State) : (tr code sev items s).acq = s.acq := (tr_bookkept code sev items s).acq
@[simp] theorem tr_mtr (code sev : Nat) (items : Bytes) (s : State) : (tr code sev items s).mtr = s.mtr := (tr_bookkept code sev items s).mtr
@[simp] theorem tr_lb (code sev : Nat) (items : Bytes) (s : State) : (tr code sev items s).lb = s.lb := (tr_bookkept code sev items s).lb
@[simp] theorem tr_sw (code sev : Nat) (items : Bytes) (s : State) : (tr code sev items s).sw = s.sw := (tr_bookkept code sev items s).sw
@[simp] theorem tr_tbl (code sev : Nat) (items : Bytes) (s : State) : (tr code sev items s).tbl = s.tbl := (tr_bookkept code sev items s).tbl
@[simp] theorem tr_px (code sev : Nat) (items : Bytes) (s : State) : (tr code sev items s).px = s.px := (tr_bookkept code sev items s).px
@[simp] theorem tr_upd (code sev : Nat) (items : Bytes) (s : State) : (tr code sev items s).upd = s.upd := (tr_bookkept code sev items s).upd
@[simp] theorem tr_rtc (code sev : Nat) (items : Bytes) (s : State) : (tr code sev items s).rtc = s.rtc := (tr_bookkept code sev items s).rtc
@[simp] theorem tr_pan (code sev : Nat) (items : Bytes) (s : State) : (tr code sev items s).pan = s.pan := (tr_bookkept code sev items s).pan
@[simp] theorem tr_out (code sev : Nat) (items : Bytes) (s : State) : (tr code sev items s).out = s.out := (tr_bookkept code sev items s).out
@[simp] theorem tr_mram (code sev : Nat) (items : Bytes) (s : State) : (tr code sev items s).mram = s.mram := (tr_bookkept code sev items s).mram
@[simp] theorem tr_flash (code sev : Nat) (items : Bytes) (s : State) : (tr code sev items s).flash = s.flash := (tr_bookkept code sev items s).flash
@[simp] theorem tr_pending (code sev : Nat) (items : Bytes) (s : State) : (tr code sev items s).pending = s.pending := (tr_bookkept code sev items s).pending
@[simp] theorem tr_wallUs (code sev : Nat) (items : Bytes) (s : State) : (tr code sev items s).clk.wallUs = s.clk.wallUs := (tr_bookkept code sev items s).wallUs
@[simp] theorem tr_opUs (code sev : Nat) (items : Bytes) (s : State) : (tr code sev items s).clk.opUs = s.clk.opUs := (tr_bookkept code sev items s).opUs
@[simp] theorem tr_savedMs (code sev : Nat) (items : Bytes) (s : State) : (tr code sev items s).clk.savedMs = s.clk.savedMs := (tr_bookkept code sev items s).savedMs
@[simp] theorem tr_anchorMs (code sev : Nat) (items : Bytes) (s : State) : (tr code sev items s).clk.anchorMs = s.clk.anchorMs := (tr_bookkept code sev items s).anchorMs

@[simp] theorem trRep_power (code sev key : Nat) (items : Bytes) (s : State) : (trRep code sev key items s).power = s.power := (trRep_bookkept code sev key items s).power
@[simp] theorem trRep_sens (code sev key : Nat) (items : Bytes) (s : State) : (trRep code sev key items s).sens = s.sens := (trRep_bookkept code sev key items s).sens
@[simp] theorem trRep_mgt (code sev key : Nat) (items : Bytes) (s : State) : (trRep code sev key items s).mgt = s.mgt := (trRep_bookkept code sev key items s).mgt
@[simp] theorem trRep_crc (code sev key : Nat) (items : Bytes) (s : State) : (trRep code sev key items s).crc = s.crc := (trRep_bookkept code sev key items s).crc
@[simp] theorem trRep_dio (code sev key : Nat) (items : Bytes) (s : State) : (trRep code sev key items s).dio = s.dio := (trRep_bookkept code sev key items s).dio
@[simp] theorem trRep_dioc (code sev key : Nat) (items : Bytes) (s : State) : (trRep code sev key items s).dioc = s.dioc := (trRep_bookkept code sev key items s).dioc
@[simp] theorem trRep_mld (code sev key : Nat) (items : Bytes) (s : State) : (trRep code sev key items s).mld = s.mld := (trRep_bookkept code sev key items s).mld
@[simp] theorem trRep_img (code sev key : Nat) (items : Bytes) (s : State) : (trRep code sev key items s).img = s.img := (trRep_bookkept code sev key items s).img
@[simp] theorem trRep_frz (code sev key : Nat) (items : Bytes) (s : State) : (trRep code sev key items s).frz = s.frz := (trRep_bookkept code sev key items s).frz
@[simp] theorem trRep_lap (code sev key : Nat) (items : Bytes) (s : State) : (trRep code sev key items s).lap = s.lap := (trRep_bookkept code sev key items s).lap
@[simp] theorem trRep_ctx (code sev key : Nat) (items : Bytes) (s : State) : (trRep code sev key items s).ctx = s.ctx := (trRep_bookkept code sev key items s).ctx
@[simp] theorem trRep_bu (code sev key : Nat) (items : Bytes) (s : State) : (trRep code sev key items s).bu = s.bu := (trRep_bookkept code sev key items s).bu
@[simp] theorem trRep_rfx (code sev key : Nat) (items : Bytes) (s : State) : (trRep code sev key items s).rfx = s.rfx := (trRep_bookkept code sev key items s).rfx
@[simp] theorem trRep_bx (code sev key : Nat) (items : Bytes) (s : State) : (trRep code sev key items s).bx = s.bx := (trRep_bookkept code sev key items s).bx
@[simp] theorem trRep_prog (code sev key : Nat) (items : Bytes) (s : State) : (trRep code sev key items s).prog = s.prog := (trRep_bookkept code sev key items s).prog
@[simp] theorem trRep_edit (code sev key : Nat) (items : Bytes) (s : State) : (trRep code sev key items s).edit = s.edit := (trRep_bookkept code sev key items s).edit
@[simp] theorem trRep_sby (code sev key : Nat) (items : Bytes) (s : State) : (trRep code sev key items s).sby = s.sby := (trRep_bookkept code sev key items s).sby
@[simp] theorem trRep_sbx (code sev key : Nat) (items : Bytes) (s : State) : (trRep code sev key items s).sbx = s.sbx := (trRep_bookkept code sev key items s).sbx
@[simp] theorem trRep_saf (code sev key : Nat) (items : Bytes) (s : State) : (trRep code sev key items s).saf = s.saf := (trRep_bookkept code sev key items s).saf
@[simp] theorem trRep_acq (code sev key : Nat) (items : Bytes) (s : State) : (trRep code sev key items s).acq = s.acq := (trRep_bookkept code sev key items s).acq
@[simp] theorem trRep_mtr (code sev key : Nat) (items : Bytes) (s : State) : (trRep code sev key items s).mtr = s.mtr := (trRep_bookkept code sev key items s).mtr
@[simp] theorem trRep_lb (code sev key : Nat) (items : Bytes) (s : State) : (trRep code sev key items s).lb = s.lb := (trRep_bookkept code sev key items s).lb
@[simp] theorem trRep_sw (code sev key : Nat) (items : Bytes) (s : State) : (trRep code sev key items s).sw = s.sw := (trRep_bookkept code sev key items s).sw
@[simp] theorem trRep_tbl (code sev key : Nat) (items : Bytes) (s : State) : (trRep code sev key items s).tbl = s.tbl := (trRep_bookkept code sev key items s).tbl
@[simp] theorem trRep_px (code sev key : Nat) (items : Bytes) (s : State) : (trRep code sev key items s).px = s.px := (trRep_bookkept code sev key items s).px
@[simp] theorem trRep_upd (code sev key : Nat) (items : Bytes) (s : State) : (trRep code sev key items s).upd = s.upd := (trRep_bookkept code sev key items s).upd
@[simp] theorem trRep_rtc (code sev key : Nat) (items : Bytes) (s : State) : (trRep code sev key items s).rtc = s.rtc := (trRep_bookkept code sev key items s).rtc
@[simp] theorem trRep_pan (code sev key : Nat) (items : Bytes) (s : State) : (trRep code sev key items s).pan = s.pan := (trRep_bookkept code sev key items s).pan
@[simp] theorem trRep_out (code sev key : Nat) (items : Bytes) (s : State) : (trRep code sev key items s).out = s.out := (trRep_bookkept code sev key items s).out
@[simp] theorem trRep_mram (code sev key : Nat) (items : Bytes) (s : State) : (trRep code sev key items s).mram = s.mram := (trRep_bookkept code sev key items s).mram
@[simp] theorem trRep_flash (code sev key : Nat) (items : Bytes) (s : State) : (trRep code sev key items s).flash = s.flash := (trRep_bookkept code sev key items s).flash
@[simp] theorem trRep_pending (code sev key : Nat) (items : Bytes) (s : State) : (trRep code sev key items s).pending = s.pending := (trRep_bookkept code sev key items s).pending
@[simp] theorem trRep_wallUs (code sev key : Nat) (items : Bytes) (s : State) : (trRep code sev key items s).clk.wallUs = s.clk.wallUs := (trRep_bookkept code sev key items s).wallUs
@[simp] theorem trRep_opUs (code sev key : Nat) (items : Bytes) (s : State) : (trRep code sev key items s).clk.opUs = s.clk.opUs := (trRep_bookkept code sev key items s).opUs
@[simp] theorem trRep_savedMs (code sev key : Nat) (items : Bytes) (s : State) : (trRep code sev key items s).clk.savedMs = s.clk.savedMs := (trRep_bookkept code sev key items s).savedMs
@[simp] theorem trRep_anchorMs (code sev key : Nat) (items : Bytes) (s : State) : (trRep code sev key items s).clk.anchorMs = s.clk.anchorMs := (trRep_bookkept code sev key items s).anchorMs

@[simp] theorem trRepCount_power (code sev key : Nat) (items : Nat → Bytes) (s : State) : (trRepCount code sev key items s).power = s.power := (trRepCount_bookkept code sev key items s).power
@[simp] theorem trRepCount_sens (code sev key : Nat) (items : Nat → Bytes) (s : State) : (trRepCount code sev key items s).sens = s.sens := (trRepCount_bookkept code sev key items s).sens
@[simp] theorem trRepCount_mgt (code sev key : Nat) (items : Nat → Bytes) (s : State) : (trRepCount code sev key items s).mgt = s.mgt := (trRepCount_bookkept code sev key items s).mgt
@[simp] theorem trRepCount_crc (code sev key : Nat) (items : Nat → Bytes) (s : State) : (trRepCount code sev key items s).crc = s.crc := (trRepCount_bookkept code sev key items s).crc
@[simp] theorem trRepCount_dio (code sev key : Nat) (items : Nat → Bytes) (s : State) : (trRepCount code sev key items s).dio = s.dio := (trRepCount_bookkept code sev key items s).dio
@[simp] theorem trRepCount_dioc (code sev key : Nat) (items : Nat → Bytes) (s : State) : (trRepCount code sev key items s).dioc = s.dioc := (trRepCount_bookkept code sev key items s).dioc
@[simp] theorem trRepCount_mld (code sev key : Nat) (items : Nat → Bytes) (s : State) : (trRepCount code sev key items s).mld = s.mld := (trRepCount_bookkept code sev key items s).mld
@[simp] theorem trRepCount_img (code sev key : Nat) (items : Nat → Bytes) (s : State) : (trRepCount code sev key items s).img = s.img := (trRepCount_bookkept code sev key items s).img
@[simp] theorem trRepCount_frz (code sev key : Nat) (items : Nat → Bytes) (s : State) : (trRepCount code sev key items s).frz = s.frz := (trRepCount_bookkept code sev key items s).frz
@[simp] theorem trRepCount_lap (code sev key : Nat) (items : Nat → Bytes) (s : State) : (trRepCount code sev key items s).lap = s.lap := (trRepCount_bookkept code sev key items s).lap
@[simp] theorem trRepCount_ctx (code sev key : Nat) (items : Nat → Bytes) (s : State) : (trRepCount code sev key items s).ctx = s.ctx := (trRepCount_bookkept code sev key items s).ctx
@[simp] theorem trRepCount_bu (code sev key : Nat) (items : Nat → Bytes) (s : State) : (trRepCount code sev key items s).bu = s.bu := (trRepCount_bookkept code sev key items s).bu
@[simp] theorem trRepCount_rfx (code sev key : Nat) (items : Nat → Bytes) (s : State) : (trRepCount code sev key items s).rfx = s.rfx := (trRepCount_bookkept code sev key items s).rfx
@[simp] theorem trRepCount_bx (code sev key : Nat) (items : Nat → Bytes) (s : State) : (trRepCount code sev key items s).bx = s.bx := (trRepCount_bookkept code sev key items s).bx
@[simp] theorem trRepCount_prog (code sev key : Nat) (items : Nat → Bytes) (s : State) : (trRepCount code sev key items s).prog = s.prog := (trRepCount_bookkept code sev key items s).prog
@[simp] theorem trRepCount_edit (code sev key : Nat) (items : Nat → Bytes) (s : State) : (trRepCount code sev key items s).edit = s.edit := (trRepCount_bookkept code sev key items s).edit
@[simp] theorem trRepCount_sby (code sev key : Nat) (items : Nat → Bytes) (s : State) : (trRepCount code sev key items s).sby = s.sby := (trRepCount_bookkept code sev key items s).sby
@[simp] theorem trRepCount_sbx (code sev key : Nat) (items : Nat → Bytes) (s : State) : (trRepCount code sev key items s).sbx = s.sbx := (trRepCount_bookkept code sev key items s).sbx
@[simp] theorem trRepCount_saf (code sev key : Nat) (items : Nat → Bytes) (s : State) : (trRepCount code sev key items s).saf = s.saf := (trRepCount_bookkept code sev key items s).saf
@[simp] theorem trRepCount_acq (code sev key : Nat) (items : Nat → Bytes) (s : State) : (trRepCount code sev key items s).acq = s.acq := (trRepCount_bookkept code sev key items s).acq
@[simp] theorem trRepCount_mtr (code sev key : Nat) (items : Nat → Bytes) (s : State) : (trRepCount code sev key items s).mtr = s.mtr := (trRepCount_bookkept code sev key items s).mtr
@[simp] theorem trRepCount_lb (code sev key : Nat) (items : Nat → Bytes) (s : State) : (trRepCount code sev key items s).lb = s.lb := (trRepCount_bookkept code sev key items s).lb
@[simp] theorem trRepCount_sw (code sev key : Nat) (items : Nat → Bytes) (s : State) : (trRepCount code sev key items s).sw = s.sw := (trRepCount_bookkept code sev key items s).sw
@[simp] theorem trRepCount_tbl (code sev key : Nat) (items : Nat → Bytes) (s : State) : (trRepCount code sev key items s).tbl = s.tbl := (trRepCount_bookkept code sev key items s).tbl
@[simp] theorem trRepCount_px (code sev key : Nat) (items : Nat → Bytes) (s : State) : (trRepCount code sev key items s).px = s.px := (trRepCount_bookkept code sev key items s).px
@[simp] theorem trRepCount_upd (code sev key : Nat) (items : Nat → Bytes) (s : State) : (trRepCount code sev key items s).upd = s.upd := (trRepCount_bookkept code sev key items s).upd
@[simp] theorem trRepCount_rtc (code sev key : Nat) (items : Nat → Bytes) (s : State) : (trRepCount code sev key items s).rtc = s.rtc := (trRepCount_bookkept code sev key items s).rtc
@[simp] theorem trRepCount_pan (code sev key : Nat) (items : Nat → Bytes) (s : State) : (trRepCount code sev key items s).pan = s.pan := (trRepCount_bookkept code sev key items s).pan
@[simp] theorem trRepCount_out (code sev key : Nat) (items : Nat → Bytes) (s : State) : (trRepCount code sev key items s).out = s.out := (trRepCount_bookkept code sev key items s).out
@[simp] theorem trRepCount_mram (code sev key : Nat) (items : Nat → Bytes) (s : State) : (trRepCount code sev key items s).mram = s.mram := (trRepCount_bookkept code sev key items s).mram
@[simp] theorem trRepCount_flash (code sev key : Nat) (items : Nat → Bytes) (s : State) : (trRepCount code sev key items s).flash = s.flash := (trRepCount_bookkept code sev key items s).flash
@[simp] theorem trRepCount_pending (code sev key : Nat) (items : Nat → Bytes) (s : State) : (trRepCount code sev key items s).pending = s.pending := (trRepCount_bookkept code sev key items s).pending
@[simp] theorem trRepCount_wallUs (code sev key : Nat) (items : Nat → Bytes) (s : State) : (trRepCount code sev key items s).clk.wallUs = s.clk.wallUs := (trRepCount_bookkept code sev key items s).wallUs
@[simp] theorem trRepCount_opUs (code sev key : Nat) (items : Nat → Bytes) (s : State) : (trRepCount code sev key items s).clk.opUs = s.clk.opUs := (trRepCount_bookkept code sev key items s).opUs
@[simp] theorem trRepCount_savedMs (code sev key : Nat) (items : Nat → Bytes) (s : State) : (trRepCount code sev key items s).clk.savedMs = s.clk.savedMs := (trRepCount_bookkept code sev key items s).savedMs
@[simp] theorem trRepCount_anchorMs (code sev key : Nat) (items : Nat → Bytes) (s : State) : (trRepCount code sev key items s).clk.anchorMs = s.clk.anchorMs := (trRepCount_bookkept code sev key items s).anchorMs

@[simp] theorem pushEvent_power (t : Nat) (src : Byte) (tag : Word) (s : State) : (pushEvent t src tag s).power = s.power := (pushEvent_bookkept t src tag s).power
@[simp] theorem pushEvent_sens (t : Nat) (src : Byte) (tag : Word) (s : State) : (pushEvent t src tag s).sens = s.sens := (pushEvent_bookkept t src tag s).sens
@[simp] theorem pushEvent_mgt (t : Nat) (src : Byte) (tag : Word) (s : State) : (pushEvent t src tag s).mgt = s.mgt := (pushEvent_bookkept t src tag s).mgt
@[simp] theorem pushEvent_crc (t : Nat) (src : Byte) (tag : Word) (s : State) : (pushEvent t src tag s).crc = s.crc := (pushEvent_bookkept t src tag s).crc
@[simp] theorem pushEvent_dio (t : Nat) (src : Byte) (tag : Word) (s : State) : (pushEvent t src tag s).dio = s.dio := (pushEvent_bookkept t src tag s).dio
@[simp] theorem pushEvent_dioc (t : Nat) (src : Byte) (tag : Word) (s : State) : (pushEvent t src tag s).dioc = s.dioc := (pushEvent_bookkept t src tag s).dioc
@[simp] theorem pushEvent_mld (t : Nat) (src : Byte) (tag : Word) (s : State) : (pushEvent t src tag s).mld = s.mld := (pushEvent_bookkept t src tag s).mld
@[simp] theorem pushEvent_img (t : Nat) (src : Byte) (tag : Word) (s : State) : (pushEvent t src tag s).img = s.img := (pushEvent_bookkept t src tag s).img
@[simp] theorem pushEvent_frz (t : Nat) (src : Byte) (tag : Word) (s : State) : (pushEvent t src tag s).frz = s.frz := (pushEvent_bookkept t src tag s).frz
@[simp] theorem pushEvent_lap (t : Nat) (src : Byte) (tag : Word) (s : State) : (pushEvent t src tag s).lap = s.lap := (pushEvent_bookkept t src tag s).lap
@[simp] theorem pushEvent_ctx (t : Nat) (src : Byte) (tag : Word) (s : State) : (pushEvent t src tag s).ctx = s.ctx := (pushEvent_bookkept t src tag s).ctx
@[simp] theorem pushEvent_bu (t : Nat) (src : Byte) (tag : Word) (s : State) : (pushEvent t src tag s).bu = s.bu := (pushEvent_bookkept t src tag s).bu
@[simp] theorem pushEvent_rfx (t : Nat) (src : Byte) (tag : Word) (s : State) : (pushEvent t src tag s).rfx = s.rfx := (pushEvent_bookkept t src tag s).rfx
@[simp] theorem pushEvent_bx (t : Nat) (src : Byte) (tag : Word) (s : State) : (pushEvent t src tag s).bx = s.bx := (pushEvent_bookkept t src tag s).bx
@[simp] theorem pushEvent_prog (t : Nat) (src : Byte) (tag : Word) (s : State) : (pushEvent t src tag s).prog = s.prog := (pushEvent_bookkept t src tag s).prog
@[simp] theorem pushEvent_edit (t : Nat) (src : Byte) (tag : Word) (s : State) : (pushEvent t src tag s).edit = s.edit := (pushEvent_bookkept t src tag s).edit
@[simp] theorem pushEvent_sby (t : Nat) (src : Byte) (tag : Word) (s : State) : (pushEvent t src tag s).sby = s.sby := (pushEvent_bookkept t src tag s).sby
@[simp] theorem pushEvent_sbx (t : Nat) (src : Byte) (tag : Word) (s : State) : (pushEvent t src tag s).sbx = s.sbx := (pushEvent_bookkept t src tag s).sbx
@[simp] theorem pushEvent_saf (t : Nat) (src : Byte) (tag : Word) (s : State) : (pushEvent t src tag s).saf = s.saf := (pushEvent_bookkept t src tag s).saf
@[simp] theorem pushEvent_acq (t : Nat) (src : Byte) (tag : Word) (s : State) : (pushEvent t src tag s).acq = s.acq := (pushEvent_bookkept t src tag s).acq
@[simp] theorem pushEvent_mtr (t : Nat) (src : Byte) (tag : Word) (s : State) : (pushEvent t src tag s).mtr = s.mtr := (pushEvent_bookkept t src tag s).mtr
@[simp] theorem pushEvent_lb (t : Nat) (src : Byte) (tag : Word) (s : State) : (pushEvent t src tag s).lb = s.lb := (pushEvent_bookkept t src tag s).lb
@[simp] theorem pushEvent_sw (t : Nat) (src : Byte) (tag : Word) (s : State) : (pushEvent t src tag s).sw = s.sw := (pushEvent_bookkept t src tag s).sw
@[simp] theorem pushEvent_tbl (t : Nat) (src : Byte) (tag : Word) (s : State) : (pushEvent t src tag s).tbl = s.tbl := (pushEvent_bookkept t src tag s).tbl
@[simp] theorem pushEvent_px (t : Nat) (src : Byte) (tag : Word) (s : State) : (pushEvent t src tag s).px = s.px := (pushEvent_bookkept t src tag s).px
@[simp] theorem pushEvent_upd (t : Nat) (src : Byte) (tag : Word) (s : State) : (pushEvent t src tag s).upd = s.upd := (pushEvent_bookkept t src tag s).upd
@[simp] theorem pushEvent_rtc (t : Nat) (src : Byte) (tag : Word) (s : State) : (pushEvent t src tag s).rtc = s.rtc := (pushEvent_bookkept t src tag s).rtc
@[simp] theorem pushEvent_pan (t : Nat) (src : Byte) (tag : Word) (s : State) : (pushEvent t src tag s).pan = s.pan := (pushEvent_bookkept t src tag s).pan
@[simp] theorem pushEvent_out (t : Nat) (src : Byte) (tag : Word) (s : State) : (pushEvent t src tag s).out = s.out := (pushEvent_bookkept t src tag s).out
@[simp] theorem pushEvent_mram (t : Nat) (src : Byte) (tag : Word) (s : State) : (pushEvent t src tag s).mram = s.mram := (pushEvent_bookkept t src tag s).mram
@[simp] theorem pushEvent_flash (t : Nat) (src : Byte) (tag : Word) (s : State) : (pushEvent t src tag s).flash = s.flash := (pushEvent_bookkept t src tag s).flash
@[simp] theorem pushEvent_pending (t : Nat) (src : Byte) (tag : Word) (s : State) : (pushEvent t src tag s).pending = s.pending := (pushEvent_bookkept t src tag s).pending
@[simp] theorem pushEvent_wallUs (t : Nat) (src : Byte) (tag : Word) (s : State) : (pushEvent t src tag s).clk.wallUs = s.clk.wallUs := (pushEvent_bookkept t src tag s).wallUs
@[simp] theorem pushEvent_opUs (t : Nat) (src : Byte) (tag : Word) (s : State) : (pushEvent t src tag s).clk.opUs = s.clk.opUs := (pushEvent_bookkept t src tag s).opUs
@[simp] theorem pushEvent_savedMs (t : Nat) (src : Byte) (tag : Word) (s : State) : (pushEvent t src tag s).clk.savedMs = s.clk.savedMs := (pushEvent_bookkept t src tag s).savedMs
@[simp] theorem pushEvent_anchorMs (t : Nat) (src : Byte) (tag : Word) (s : State) : (pushEvent t src tag s).clk.anchorMs = s.clk.anchorMs := (pushEvent_bookkept t src tag s).anchorMs

@[simp] theorem pushEventFree_power (t : Nat) (src : Byte) (s : State) : (pushEventFree t src s).power = s.power := (pushEventFree_bookkept t src s).power
@[simp] theorem pushEventFree_sens (t : Nat) (src : Byte) (s : State) : (pushEventFree t src s).sens = s.sens := (pushEventFree_bookkept t src s).sens
@[simp] theorem pushEventFree_mgt (t : Nat) (src : Byte) (s : State) : (pushEventFree t src s).mgt = s.mgt := (pushEventFree_bookkept t src s).mgt
@[simp] theorem pushEventFree_crc (t : Nat) (src : Byte) (s : State) : (pushEventFree t src s).crc = s.crc := (pushEventFree_bookkept t src s).crc
@[simp] theorem pushEventFree_dio (t : Nat) (src : Byte) (s : State) : (pushEventFree t src s).dio = s.dio := (pushEventFree_bookkept t src s).dio
@[simp] theorem pushEventFree_dioc (t : Nat) (src : Byte) (s : State) : (pushEventFree t src s).dioc = s.dioc := (pushEventFree_bookkept t src s).dioc
@[simp] theorem pushEventFree_mld (t : Nat) (src : Byte) (s : State) : (pushEventFree t src s).mld = s.mld := (pushEventFree_bookkept t src s).mld
@[simp] theorem pushEventFree_img (t : Nat) (src : Byte) (s : State) : (pushEventFree t src s).img = s.img := (pushEventFree_bookkept t src s).img
@[simp] theorem pushEventFree_frz (t : Nat) (src : Byte) (s : State) : (pushEventFree t src s).frz = s.frz := (pushEventFree_bookkept t src s).frz
@[simp] theorem pushEventFree_lap (t : Nat) (src : Byte) (s : State) : (pushEventFree t src s).lap = s.lap := (pushEventFree_bookkept t src s).lap
@[simp] theorem pushEventFree_ctx (t : Nat) (src : Byte) (s : State) : (pushEventFree t src s).ctx = s.ctx := (pushEventFree_bookkept t src s).ctx
@[simp] theorem pushEventFree_bu (t : Nat) (src : Byte) (s : State) : (pushEventFree t src s).bu = s.bu := (pushEventFree_bookkept t src s).bu
@[simp] theorem pushEventFree_rfx (t : Nat) (src : Byte) (s : State) : (pushEventFree t src s).rfx = s.rfx := (pushEventFree_bookkept t src s).rfx
@[simp] theorem pushEventFree_bx (t : Nat) (src : Byte) (s : State) : (pushEventFree t src s).bx = s.bx := (pushEventFree_bookkept t src s).bx
@[simp] theorem pushEventFree_prog (t : Nat) (src : Byte) (s : State) : (pushEventFree t src s).prog = s.prog := (pushEventFree_bookkept t src s).prog
@[simp] theorem pushEventFree_edit (t : Nat) (src : Byte) (s : State) : (pushEventFree t src s).edit = s.edit := (pushEventFree_bookkept t src s).edit
@[simp] theorem pushEventFree_sby (t : Nat) (src : Byte) (s : State) : (pushEventFree t src s).sby = s.sby := (pushEventFree_bookkept t src s).sby
@[simp] theorem pushEventFree_sbx (t : Nat) (src : Byte) (s : State) : (pushEventFree t src s).sbx = s.sbx := (pushEventFree_bookkept t src s).sbx
@[simp] theorem pushEventFree_saf (t : Nat) (src : Byte) (s : State) : (pushEventFree t src s).saf = s.saf := (pushEventFree_bookkept t src s).saf
@[simp] theorem pushEventFree_acq (t : Nat) (src : Byte) (s : State) : (pushEventFree t src s).acq = s.acq := (pushEventFree_bookkept t src s).acq
@[simp] theorem pushEventFree_mtr (t : Nat) (src : Byte) (s : State) : (pushEventFree t src s).mtr = s.mtr := (pushEventFree_bookkept t src s).mtr
@[simp] theorem pushEventFree_lb (t : Nat) (src : Byte) (s : State) : (pushEventFree t src s).lb = s.lb := (pushEventFree_bookkept t src s).lb
@[simp] theorem pushEventFree_sw (t : Nat) (src : Byte) (s : State) : (pushEventFree t src s).sw = s.sw := (pushEventFree_bookkept t src s).sw
@[simp] theorem pushEventFree_tbl (t : Nat) (src : Byte) (s : State) : (pushEventFree t src s).tbl = s.tbl := (pushEventFree_bookkept t src s).tbl
@[simp] theorem pushEventFree_px (t : Nat) (src : Byte) (s : State) : (pushEventFree t src s).px = s.px := (pushEventFree_bookkept t src s).px
@[simp] theorem pushEventFree_upd (t : Nat) (src : Byte) (s : State) : (pushEventFree t src s).upd = s.upd := (pushEventFree_bookkept t src s).upd
@[simp] theorem pushEventFree_rtc (t : Nat) (src : Byte) (s : State) : (pushEventFree t src s).rtc = s.rtc := (pushEventFree_bookkept t src s).rtc
@[simp] theorem pushEventFree_pan (t : Nat) (src : Byte) (s : State) : (pushEventFree t src s).pan = s.pan := (pushEventFree_bookkept t src s).pan
@[simp] theorem pushEventFree_out (t : Nat) (src : Byte) (s : State) : (pushEventFree t src s).out = s.out := (pushEventFree_bookkept t src s).out
@[simp] theorem pushEventFree_mram (t : Nat) (src : Byte) (s : State) : (pushEventFree t src s).mram = s.mram := (pushEventFree_bookkept t src s).mram
@[simp] theorem pushEventFree_flash (t : Nat) (src : Byte) (s : State) : (pushEventFree t src s).flash = s.flash := (pushEventFree_bookkept t src s).flash
@[simp] theorem pushEventFree_pending (t : Nat) (src : Byte) (s : State) : (pushEventFree t src s).pending = s.pending := (pushEventFree_bookkept t src s).pending
@[simp] theorem pushEventFree_wallUs (t : Nat) (src : Byte) (s : State) : (pushEventFree t src s).clk.wallUs = s.clk.wallUs := (pushEventFree_bookkept t src s).wallUs
@[simp] theorem pushEventFree_opUs (t : Nat) (src : Byte) (s : State) : (pushEventFree t src s).clk.opUs = s.clk.opUs := (pushEventFree_bookkept t src s).opUs
@[simp] theorem pushEventFree_savedMs (t : Nat) (src : Byte) (s : State) : (pushEventFree t src s).clk.savedMs = s.clk.savedMs := (pushEventFree_bookkept t src s).savedMs
@[simp] theorem pushEventFree_anchorMs (t : Nat) (src : Byte) (s : State) : (pushEventFree t src s).clk.anchorMs = s.clk.anchorMs := (pushEventFree_bookkept t src s).anchorMs

@[simp] theorem drop1_power (n : Nat) (s : State) : (drop1 n s).power = s.power := (drop1_bookkept n s).power
@[simp] theorem drop1_sens (n : Nat) (s : State) : (drop1 n s).sens = s.sens := (drop1_bookkept n s).sens
@[simp] theorem drop1_mgt (n : Nat) (s : State) : (drop1 n s).mgt = s.mgt := (drop1_bookkept n s).mgt
@[simp] theorem drop1_crc (n : Nat) (s : State) : (drop1 n s).crc = s.crc := (drop1_bookkept n s).crc
@[simp] theorem drop1_dio (n : Nat) (s : State) : (drop1 n s).dio = s.dio := (drop1_bookkept n s).dio
@[simp] theorem drop1_dioc (n : Nat) (s : State) : (drop1 n s).dioc = s.dioc := (drop1_bookkept n s).dioc
@[simp] theorem drop1_mld (n : Nat) (s : State) : (drop1 n s).mld = s.mld := (drop1_bookkept n s).mld
@[simp] theorem drop1_img (n : Nat) (s : State) : (drop1 n s).img = s.img := (drop1_bookkept n s).img
@[simp] theorem drop1_frz (n : Nat) (s : State) : (drop1 n s).frz = s.frz := (drop1_bookkept n s).frz
@[simp] theorem drop1_lap (n : Nat) (s : State) : (drop1 n s).lap = s.lap := (drop1_bookkept n s).lap
@[simp] theorem drop1_ctx (n : Nat) (s : State) : (drop1 n s).ctx = s.ctx := (drop1_bookkept n s).ctx
@[simp] theorem drop1_bu (n : Nat) (s : State) : (drop1 n s).bu = s.bu := (drop1_bookkept n s).bu
@[simp] theorem drop1_rfx (n : Nat) (s : State) : (drop1 n s).rfx = s.rfx := (drop1_bookkept n s).rfx
@[simp] theorem drop1_bx (n : Nat) (s : State) : (drop1 n s).bx = s.bx := (drop1_bookkept n s).bx
@[simp] theorem drop1_prog (n : Nat) (s : State) : (drop1 n s).prog = s.prog := (drop1_bookkept n s).prog
@[simp] theorem drop1_edit (n : Nat) (s : State) : (drop1 n s).edit = s.edit := (drop1_bookkept n s).edit
@[simp] theorem drop1_sby (n : Nat) (s : State) : (drop1 n s).sby = s.sby := (drop1_bookkept n s).sby
@[simp] theorem drop1_sbx (n : Nat) (s : State) : (drop1 n s).sbx = s.sbx := (drop1_bookkept n s).sbx
@[simp] theorem drop1_saf (n : Nat) (s : State) : (drop1 n s).saf = s.saf := (drop1_bookkept n s).saf
@[simp] theorem drop1_acq (n : Nat) (s : State) : (drop1 n s).acq = s.acq := (drop1_bookkept n s).acq
@[simp] theorem drop1_mtr (n : Nat) (s : State) : (drop1 n s).mtr = s.mtr := (drop1_bookkept n s).mtr
@[simp] theorem drop1_lb (n : Nat) (s : State) : (drop1 n s).lb = s.lb := (drop1_bookkept n s).lb
@[simp] theorem drop1_sw (n : Nat) (s : State) : (drop1 n s).sw = s.sw := (drop1_bookkept n s).sw
@[simp] theorem drop1_tbl (n : Nat) (s : State) : (drop1 n s).tbl = s.tbl := (drop1_bookkept n s).tbl
@[simp] theorem drop1_px (n : Nat) (s : State) : (drop1 n s).px = s.px := (drop1_bookkept n s).px
@[simp] theorem drop1_upd (n : Nat) (s : State) : (drop1 n s).upd = s.upd := (drop1_bookkept n s).upd
@[simp] theorem drop1_rtc (n : Nat) (s : State) : (drop1 n s).rtc = s.rtc := (drop1_bookkept n s).rtc
@[simp] theorem drop1_pan (n : Nat) (s : State) : (drop1 n s).pan = s.pan := (drop1_bookkept n s).pan
@[simp] theorem drop1_out (n : Nat) (s : State) : (drop1 n s).out = s.out := (drop1_bookkept n s).out
@[simp] theorem drop1_mram (n : Nat) (s : State) : (drop1 n s).mram = s.mram := (drop1_bookkept n s).mram
@[simp] theorem drop1_flash (n : Nat) (s : State) : (drop1 n s).flash = s.flash := (drop1_bookkept n s).flash
@[simp] theorem drop1_pending (n : Nat) (s : State) : (drop1 n s).pending = s.pending := (drop1_bookkept n s).pending
@[simp] theorem drop1_wallUs (n : Nat) (s : State) : (drop1 n s).clk.wallUs = s.clk.wallUs := (drop1_bookkept n s).wallUs
@[simp] theorem drop1_opUs (n : Nat) (s : State) : (drop1 n s).clk.opUs = s.clk.opUs := (drop1_bookkept n s).opUs
@[simp] theorem drop1_savedMs (n : Nat) (s : State) : (drop1 n s).clk.savedMs = s.clk.savedMs := (drop1_bookkept n s).savedMs
@[simp] theorem drop1_anchorMs (n : Nat) (s : State) : (drop1 n s).clk.anchorMs = s.clk.anchorMs := (drop1_bookkept n s).anchorMs

@[simp] theorem sjStateChange_power (old new : OpState) (s : State) : (sjStateChange old new s).power = s.power := (sjStateChange_bookkept old new s).power
@[simp] theorem sjStateChange_sens (old new : OpState) (s : State) : (sjStateChange old new s).sens = s.sens := (sjStateChange_bookkept old new s).sens
@[simp] theorem sjStateChange_mgt (old new : OpState) (s : State) : (sjStateChange old new s).mgt = s.mgt := (sjStateChange_bookkept old new s).mgt
@[simp] theorem sjStateChange_crc (old new : OpState) (s : State) : (sjStateChange old new s).crc = s.crc := (sjStateChange_bookkept old new s).crc
@[simp] theorem sjStateChange_dio (old new : OpState) (s : State) : (sjStateChange old new s).dio = s.dio := (sjStateChange_bookkept old new s).dio
@[simp] theorem sjStateChange_dioc (old new : OpState) (s : State) : (sjStateChange old new s).dioc = s.dioc := (sjStateChange_bookkept old new s).dioc
@[simp] theorem sjStateChange_mld (old new : OpState) (s : State) : (sjStateChange old new s).mld = s.mld := (sjStateChange_bookkept old new s).mld
@[simp] theorem sjStateChange_img (old new : OpState) (s : State) : (sjStateChange old new s).img = s.img := (sjStateChange_bookkept old new s).img
@[simp] theorem sjStateChange_frz (old new : OpState) (s : State) : (sjStateChange old new s).frz = s.frz := (sjStateChange_bookkept old new s).frz
@[simp] theorem sjStateChange_lap (old new : OpState) (s : State) : (sjStateChange old new s).lap = s.lap := (sjStateChange_bookkept old new s).lap
@[simp] theorem sjStateChange_ctx (old new : OpState) (s : State) : (sjStateChange old new s).ctx = s.ctx := (sjStateChange_bookkept old new s).ctx
@[simp] theorem sjStateChange_bu (old new : OpState) (s : State) : (sjStateChange old new s).bu = s.bu := (sjStateChange_bookkept old new s).bu
@[simp] theorem sjStateChange_rfx (old new : OpState) (s : State) : (sjStateChange old new s).rfx = s.rfx := (sjStateChange_bookkept old new s).rfx
@[simp] theorem sjStateChange_bx (old new : OpState) (s : State) : (sjStateChange old new s).bx = s.bx := (sjStateChange_bookkept old new s).bx
@[simp] theorem sjStateChange_prog (old new : OpState) (s : State) : (sjStateChange old new s).prog = s.prog := (sjStateChange_bookkept old new s).prog
@[simp] theorem sjStateChange_edit (old new : OpState) (s : State) : (sjStateChange old new s).edit = s.edit := (sjStateChange_bookkept old new s).edit
@[simp] theorem sjStateChange_sby (old new : OpState) (s : State) : (sjStateChange old new s).sby = s.sby := (sjStateChange_bookkept old new s).sby
@[simp] theorem sjStateChange_sbx (old new : OpState) (s : State) : (sjStateChange old new s).sbx = s.sbx := (sjStateChange_bookkept old new s).sbx
@[simp] theorem sjStateChange_saf (old new : OpState) (s : State) : (sjStateChange old new s).saf = s.saf := (sjStateChange_bookkept old new s).saf
@[simp] theorem sjStateChange_acq (old new : OpState) (s : State) : (sjStateChange old new s).acq = s.acq := (sjStateChange_bookkept old new s).acq
@[simp] theorem sjStateChange_mtr (old new : OpState) (s : State) : (sjStateChange old new s).mtr = s.mtr := (sjStateChange_bookkept old new s).mtr
@[simp] theorem sjStateChange_lb (old new : OpState) (s : State) : (sjStateChange old new s).lb = s.lb := (sjStateChange_bookkept old new s).lb
@[simp] theorem sjStateChange_sw (old new : OpState) (s : State) : (sjStateChange old new s).sw = s.sw := (sjStateChange_bookkept old new s).sw
@[simp] theorem sjStateChange_tbl (old new : OpState) (s : State) : (sjStateChange old new s).tbl = s.tbl := (sjStateChange_bookkept old new s).tbl
@[simp] theorem sjStateChange_px (old new : OpState) (s : State) : (sjStateChange old new s).px = s.px := (sjStateChange_bookkept old new s).px
@[simp] theorem sjStateChange_upd (old new : OpState) (s : State) : (sjStateChange old new s).upd = s.upd := (sjStateChange_bookkept old new s).upd
@[simp] theorem sjStateChange_rtc (old new : OpState) (s : State) : (sjStateChange old new s).rtc = s.rtc := (sjStateChange_bookkept old new s).rtc
@[simp] theorem sjStateChange_pan (old new : OpState) (s : State) : (sjStateChange old new s).pan = s.pan := (sjStateChange_bookkept old new s).pan
@[simp] theorem sjStateChange_out (old new : OpState) (s : State) : (sjStateChange old new s).out = s.out := (sjStateChange_bookkept old new s).out
@[simp] theorem sjStateChange_mram (old new : OpState) (s : State) : (sjStateChange old new s).mram = s.mram := (sjStateChange_bookkept old new s).mram
@[simp] theorem sjStateChange_flash (old new : OpState) (s : State) : (sjStateChange old new s).flash = s.flash := (sjStateChange_bookkept old new s).flash
@[simp] theorem sjStateChange_pending (old new : OpState) (s : State) : (sjStateChange old new s).pending = s.pending := (sjStateChange_bookkept old new s).pending
@[simp] theorem sjStateChange_wallUs (old new : OpState) (s : State) : (sjStateChange old new s).clk.wallUs = s.clk.wallUs := (sjStateChange_bookkept old new s).wallUs
@[simp] theorem sjStateChange_opUs (old new : OpState) (s : State) : (sjStateChange old new s).clk.opUs = s.clk.opUs := (sjStateChange_bookkept old new s).opUs
@[simp] theorem sjStateChange_savedMs (old new : OpState) (s : State) : (sjStateChange old new s).clk.savedMs = s.clk.savedMs := (sjStateChange_bookkept old new s).savedMs
@[simp] theorem sjStateChange_anchorMs (old new : OpState) (s : State) : (sjStateChange old new s).clk.anchorMs = s.clk.anchorMs := (sjStateChange_bookkept old new s).anchorMs

@[simp] theorem timeAnchor_power (kind : Nat) (s : State) : (timeAnchor kind s).power = s.power := by simp [timeAnchor]

end Sys2Proof.Machine
end

