-- ==== Sys2Proof/Laws/Records.lean ====
section
/-! SUPPORT. What pushes and records leave alone, ring by ring and byte by byte: the relation Booked. -/

namespace Sys2Proof.Safety

open Sys2Proof.Machine

/-- A write to one key leaves every other key alone, canonical form or not. -/
theorem sget_sput_ne {α : Type} [DecidableEq α] (d : α) (m : Sparse α) (a b : Nat) (v : α) (h : b ≠ a) :
    sget d (sput d m a v) b = sget d m b := by
  induction m with
  | nil => by_cases hv : v = d <;> simp [sput, sget, hv, Ne.symm h]
  | cons c m ih =>
    obtain ⟨k, u⟩ := c
    simp only [sput]
    split
    · by_cases hv : v = d <;> simp [sget, hv, Ne.symm h]
    · split
      · rename_i hk; subst hk
        by_cases hv : v = d <;> simp [sget, hv, Ne.symm h]
      · simp only [sget, ih]

/-- A value that is no default is read back, canonical form or not. -/
theorem sget_sput_self {α : Type} [DecidableEq α] (d : α) (m : Sparse α) (a : Nat) (v : α) (h : v ≠ d) :
    sget d (sput d m a v) a = v := by
  induction m with
  | nil => simp [sput, sget, h]
  | cons c m ih =>
    obtain ⟨k, u⟩ := c
    simp only [sput]
    split
    · simp [sget]
    · split
      · rename_i hk; subst hk; simp [sget]
      · rename_i hk; simp [sget, ih, Ne.symm hk]

theorem ringGet_ringSet_ne (n m : Nat) (r : Ring) (s : State) (h : m ≠ n) : ringGet (ringSet n r s) m = ringGet s m :=
  sget_sput_ne _ _ _ _ _ h

theorem ringGet_ringSet_self (n : Nat) (r : Ring) (s : State) (h : r ≠ {}) : ringGet (ringSet n r s) n = r :=
  sget_sput_self _ _ _ _ h

/-- A write of bytes leaves the bytes outside it alone, canonical form or not. -/
theorem memGet_memWrite_outside (d : Byte) (lim : Nat) (m : Mem) (a b : Nat) (bs : Bytes)
    (h : b < a ∨ a + bs.length ≤ b) : memGet d (memWrite d lim m a bs) b = memGet d m b := by
  induction bs generalizing m a with
  | nil => rfl
  | cons x bs ih =>
    simp only [List.length_cons] at h
    rw [memWrite, ih _ _ (by omega)]
    unfold memPut memGet
    split
    · exact sget_sput_ne _ _ _ _ _ (by omega)
    · rfl

theorem Booked.refl (ns : List Nat) (s : State) : Booked ns s s :=
  ⟨rfl, rfl, List.prefix_rfl, List.prefix_rfl, rfl, fun _ => ⟨rfl, rfl, rfl, rfl, rfl, rfl⟩, fun _ _ => rfl, fun _ _ => rfl⟩

theorem inSlots_congr {ns : List Nat} {u t : State} (h : Booked ns u t) (a : Nat) : inSlots t ns a ↔ inSlots u ns a := by
  simp only [inSlots, ringDepth, (h.layout _).1, (h.layout _).2.1]

theorem Booked.trans {ns : List Nat} {s t u : State} (h : Booked ns s t) (k : Booked ns t u) : Booked ns s u where
  frame := by rw [k.frame, h.frame]
  logKept := by rw [k.logKept, h.logKept]
  sjKept := h.sjKept.trans k.sjKept
  trKept := h.trKept.trans k.trKept
  poolKept := by rw [k.poolKept, h.poolKept]
  layout n := by
    obtain ⟨a1, a2, a3, a4, a5, a6⟩ := h.layout n
    obtain ⟨b1, b2, b3, b4, b5, b6⟩ := k.layout n
    exact ⟨b1.trans a1, b2.trans a2, b3.trans a3, b4.trans a4, b5.trans a5, b6.trans a6⟩
  ringsKept n hn := (k.ringsKept n hn).trans (h.ringsKept n hn)
  bytesKept a ha := (k.bytesKept a (fun x => ha ((inSlots_congr h a).1 x))).trans (h.bytesKept a ha)

theorem Booked.mono {ns ms : List Nat} {s t : State} (h : Booked ns s t) (hs : ns ⊆ ms) : Booked ms s t :=
  { h with
    ringsKept := fun n hn => h.ringsKept n (fun x => hn (hs x))
    bytesKept := fun a ha => h.bytesKept a (fun ⟨n, hn, x⟩ => ha ⟨n, hs hn, x⟩) }

theorem drawn_booked (ns : List Nat) (s : State) : Booked ns s (drawn s) :=
  ⟨rfl, rfl, List.prefix_rfl, List.prefix_rfl, rfl, fun _ => ⟨rfl, rfl, rfl, rfl, rfl, rfl⟩, fun _ _ => rfl, fun _ _ => rfl⟩

/-- A ring of the same layout put in place of ring n. -/
theorem ringSet_booked (n : Nat) (r : Ring) (s : State) (hr : r ≠ {})
    (hl : r.base = (ringGet s n).base ∧ r.log2 = (ringGet s n).log2 ∧ r.policy = (ringGet s n).policy ∧
      r.producer = (ringGet s n).producer ∧ r.consumer = (ringGet s n).consumer ∧ r.hwm = (ringGet s n).hwm) :
    Booked [n] s (ringSet n r s) where
  frame := rfl
  logKept := rfl
  sjKept := List.prefix_rfl
  trKept := List.prefix_rfl
  poolKept := rfl
  layout m := by
    by_cases h : m = n
    · subst h; rw [ringGet_ringSet_self _ _ _ hr]; exact hl
    · rw [ringGet_ringSet_ne _ _ _ _ h]; exact ⟨rfl, rfl, rfl, rfl, rfl, rfl⟩
  ringsKept m h := ringGet_ringSet_ne _ _ _ _ (by simpa using h)
  bytesKept _ _ := rfl

/-- The slot of an index of an allocated ring. -/
theorem descWrite_booked (n : Nat) (x : Word) (d : Desc) (s : State) (hd : ringDepth (ringGet s n) ≠ 0) :
    Booked [n] s (dataWrite (ringAddr (ringGet s n) x) (descBytes d) s) where
  frame := rfl
  logKept := rfl
  sjKept := List.prefix_rfl
  trKept := List.prefix_rfl
  poolKept := rfl
  layout _ := ⟨rfl, rfl, rfl, rfl, rfl, rfl⟩
  ringsKept _ _ := rfl
  bytesKept a ha := by
    apply memGet_memWrite_outside
    have hl : (descBytes d).length = 16 := by simp [descBytes, leBytes]
    have hm : x.toNat % ringDepth (ringGet s n) < ringDepth (ringGet s n) := Nat.mod_lt _ (by omega)
    simp only [inSlots, List.mem_singleton, exists_eq_left, not_and, not_lt] at ha
    simp only [ringAddr, hl]
    omega

theorem ringStore_booked (n : Nat) (r : Ring) (d : Desc) (s : State) (hd : ringDepth (ringGet s n) ≠ 0)
    (hl : r.base = (ringGet s n).base ∧ r.log2 = (ringGet s n).log2 ∧ r.policy = (ringGet s n).policy ∧
      r.producer = (ringGet s n).producer ∧ r.consumer = (ringGet s n).consumer ∧ r.hwm = (ringGet s n).hwm) :
    Booked [n] s (ringStore n r d s) := by
  have e : ringAddr r r.pi = ringAddr (ringGet s n) r.pi := by simp [ringAddr, ringDepth, hl.1, hl.2.1]
  have hlog : r.log2 ≠ 0 := by rw [hl.2.1]; intro h; exact hd (by simp [ringDepth, h])
  unfold ringStore
  rw [e]
  refine (descWrite_booked n r.pi d s hd).trans (ringSet_booked n _ _ ?_ hl)
  intro h
  exact hlog (congrArg Ring.log2 h)

/-- A push changes one ring and its slots. -/
theorem ringPut_booked (n : Nat) (d : Desc) (s : State) : Booked [n] s (ringPut n d s).1 := by
  have log_ne : ringDepth (ringGet s n) ≠ 0 → (ringGet s n).log2 ≠ 0 := fun h e => h (by simp [ringDepth, e])
  unfold ringPut
  simp only
  split
  · exact ringSet_booked _ _ _ (fun h => by simpa using congrArg Ring.unalloc h) ⟨rfl, rfl, rfl, rfl, rfl, rfl⟩
  · rename_i hd
    split
    · exact ringSet_booked _ _ _ (fun h => log_ne hd (congrArg Ring.log2 h)) ⟨rfl, rfl, rfl, rfl, rfl, rfl⟩
    · split
      · exact ringStore_booked _ _ _ _ hd ⟨rfl, rfl, rfl, rfl, rfl, rfl⟩
      · split
        · exact ringSet_booked _ _ _ (fun h => log_ne hd (congrArg Ring.log2 h)) ⟨rfl, rfl, rfl, rfl, rfl, rfl⟩
        · exact ringStore_booked _ _ _ _ hd ⟨rfl, rfl, rfl, rfl, rfl, rfl⟩

/-- A pop moves CI of one ring. -/
theorem ringTake_booked (n : Nat) (s : State) : Booked [n] s (ringTake n s).1 := by
  unfold ringTake
  simp only
  split
  · exact Booked.refl _ s
  · rename_i h
    refine ringSet_booked _ _ _ (fun e => ?_) ⟨rfl, rfl, rfl, rfl, rfl, rfl⟩
    exact h (Or.inl (by simp [ringDepth, show (ringGet s n).log2 = 0 from congrArg Ring.log2 e]))

/-- What the record operations do to the log. -/
theorem log_booked (ns : List Nat) (l : Log) (s : State) (h1 : l = { s.log with
    sjQueue := l.sjQueue, trQueue := l.trQueue, repeats := l.repeats, trDrop := l.trDrop,
    trDropMissed := l.trDropMissed, trDropMs := l.trDropMs, trDropWritten := l.trDropWritten })
    (h2 : s.log.sjQueue <+: l.sjQueue) (h3 : s.log.trQueue <+: l.trQueue) : Booked ns s { s with log := l } :=
  ⟨rfl, h1, h2, h3, rfl, fun _ => ⟨rfl, rfl, rfl, rfl, rfl, rfl⟩, fun _ _ => rfl, fun _ _ => rfl⟩

theorem repeatGate_booked (ns : List Nat) (code key : Nat) (s : State) : Booked ns s (repeatGate code key s).1 := by
  unfold repeatGate
  simp only
  split
  · split <;> exact log_booked ns _ _ rfl List.prefix_rfl List.prefix_rfl
  · exact log_booked ns _ _ rfl List.prefix_rfl List.prefix_rfl

theorem trDropped_booked (ns : List Nat) (s : State) : Booked ns s (trDropped s) :=
  log_booked ns _ _ rfl List.prefix_rfl List.prefix_rfl

theorem trDropSaid_booked (ns : List Nat) (s : State) : Booked ns s (trDropSaid s) :=
  log_booked ns _ _ rfl List.prefix_rfl List.prefix_rfl

/-- The rings that a piece of work touches: its own, and the journal's and trace queues Q0002 and Q0003. -/
def workRings : Work → List Nat
  | .desc n _ => [n, 2, 3]
  | .sj _ => [2, 3]
  | .tr _ => [2, 3]

theorem perform_booked (k : Nat) (w : Work) (s : State) : Booked (workRings w) s (perform k w s) := by
  induction k generalizing w s with
  | zero => exact Booked.refl _ s
  | succ k ih =>
    cases w with
    | desc n d =>
      have h1 : Booked [n, 2, 3] s (ringPut n d s).1 := (ringPut_booked n d s).mono (by simp)
      simp only [perform]
      have h2 : ∀ u, Booked [n, 2, 3] s u → ∀ (code key : Nat) (f : Nat → State → Record),
          Booked [n, 2, 3] s (match repeatGate code key u with
            | (t, some m) => perform k (.tr (f m t)) t
            | (t, none) => t) := by
        intro u hu code key f
        have hg := repeatGate_booked [n, 2, 3] code key u
        split
        · rename_i t m he
          rw [he] at hg
          exact (hu.trans hg).trans ((ih (.tr (f m t)) t).mono (by simp [workRings]))
        · rename_i t he
          rw [he] at hg
          exact hu.trans hg
      have h3 : Booked [n, 2, 3] s (if n = 3 ∧ (ringPut n d s).2.dropped then
          (if trDropDue (trDropped (ringPut n d s).1) then
            perform k (.sj (recordOf 0xC05 1 (item (trDropped (ringPut n d s).1).log.trDropMissed) 0 (ringPut n d s).1))
              (trDropSaid (trDropped (ringPut n d s).1))
          else trDropped (ringPut n d s).1) else (ringPut n d s).1) := by
        have hc := h1.trans (trDropped_booked _ _)
        split
        · split
          · exact (hc.trans (trDropSaid_booked _ _)).trans ((ih (.sj _) _).mono (by simp [workRings]))
          · exact hc
        · exact h1
      have h4 : ∀ u, Booked [n, 2, 3] s u → Booked [n, 2, 3] s (if (ringPut n d s).2.overflow then
          (match repeatGate 0x124 n u with
            | (t, some m) => perform k (.tr (recordOf 0x124 1 (item n ++ item (ringGet (ringPut n d s).1 n).policy.toNat ++ item (m + 1)) m t)) t
            | (t, none) => t) else u) := by
        intro u hu
        split
        · exact h2 _ hu _ _ (fun m t => recordOf 0x124 1 (item n ++ item (ringGet (ringPut n d s).1 n).policy.toNat ++ item (m + 1)) m t)
        · exact hu
      split
      · exact h2 _ (h4 _ h3) _ _ (fun m t => recordOf 0x125 0 (item n ++ item (ringFill (ringGet (ringPut n d s).1 n)) ++ item (ringDepth (ringGet (ringPut n d s).1 n))) m t)
      · exact h4 _ h3
    | sj r =>
      simp only [perform, workRings]
      have h0 : Booked [2, 3] s { s with log := { s.log with sjQueue := s.log.sjQueue ++ [r] } } :=
        log_booked _ _ _ rfl (List.prefix_append _ _) List.prefix_rfl
      exact ((h0.trans (drawn_booked _ _)).trans (drawn_booked _ _)).trans ((ih (.desc 2 _) _).mono (by simp [workRings]))
    | tr r =>
      simp only [perform, workRings]
      have hd : ∀ t, Booked [2, 3] t (perform k (.desc 3 (recordDesc r s)) t) :=
        fun t => (ih (.desc 3 _) t).mono (by simp [workRings])
      split
      · exact ((drawn_booked _ s).trans (drawn_booked _ _)).trans (hd _)
      · have h0 : Booked [2, 3] s { s with log := { s.log with trQueue := s.log.trQueue ++ [r] } } :=
          log_booked _ _ _ rfl List.prefix_rfl (List.prefix_append _ _)
        exact ((h0.trans (drawn_booked _ _)).trans (drawn_booked _ _)).trans (hd _)

theorem push_booked (n : Nat) (d : Desc) (s : State) : Booked [n, 2, 3] s (push n d s) := perform_booked 8 (.desc n d) s

theorem sj_booked (code sev : Nat) (items : Bytes) (s : State) : Booked [2, 3] s (sj code sev items s) :=
  perform_booked 8 (.sj _) s

theorem sjMissed_booked (code sev : Nat) (items : Bytes) (m : Nat) (s : State) :
    Booked [2, 3] s (sjMissed code sev items m s) := perform_booked 8 (.sj _) s

theorem tr_booked (code sev : Nat) (items : Bytes) (s : State) : Booked [2, 3] s (tr code sev items s) :=
  perform_booked 8 (.tr _) s

theorem sjRep_booked (code sev key : Nat) (items : Bytes) (s : State) :
    Booked [2, 3] s (sjRep code sev key items s) := by
  have hg := repeatGate_booked [2, 3] code key s
  unfold sjRep
  split <;> rename_i he <;> rw [he] at hg
  · exact hg.trans (perform_booked 8 (.sj _) _)
  · exact hg

theorem trRep_booked (code sev key : Nat) (items : Bytes) (s : State) :
    Booked [2, 3] s (trRep code sev key items s) := by
  have hg := repeatGate_booked [2, 3] code key s
  unfold trRep
  split <;> rename_i he <;> rw [he] at hg
  · exact hg.trans (perform_booked 8 (.tr _) _)
  · exact hg

theorem trRepCount_booked (code sev key : Nat) (items : Nat → Bytes) (s : State) :
    Booked [2, 3] s (trRepCount code sev key items s) := by
  have hg := repeatGate_booked [2, 3] code key s
  unfold trRepCount
  split <;> rename_i he <;> rw [he] at hg
  · exact hg.trans (perform_booked 8 (.tr _) _)
  · exact hg

theorem pushEvent_booked (e : Nat) (src : Byte) (tag : Word) (s : State) :
    Booked [16 + e, 2, 3] s (pushEvent e src tag s) := (drawn_booked _ s).trans (push_booked _ _ _)

theorem pushEventFree_booked (e : Nat) (src : Byte) (s : State) :
    Booked [16 + e, 2, 3] s (pushEventFree e src s) := (drawn_booked _ s).trans (pushEvent_booked _ _ _ _)

theorem sjStateChange_booked (old new : OpState) (s : State) : Booked [2, 3] s (sjStateChange old new s) :=
  (drawn_booked _ s).trans (sj_booked _ _ _ _)

/-- A journal record joins the queue of the records that wait to be written. -/
theorem sj_queue (code sev : Nat) (items : Bytes) (s : State) :
    s.log.sjQueue ++ [recordOf code sev items 0 s] <+: (sj code sev items s).log.sjQueue :=
  ((perform_booked 7 (.desc 2 (recordDesc (recordOf code sev items 0 s) s))
    (drawn (drawn { s with log := { s.log with sjQueue := s.log.sjQueue ++ [recordOf code sev items 0 s] } }))).sjKept)

end Sys2Proof.Safety
end

