-- ==== Sys2Proof/Laws/Landing.lean ====
section
/-! SUPPORT. Reading a port of the landing buses after a write of one, and a node's tests after a write of them. -/

namespace Sys2Proof.Machine

@[simp] theorem lbOf_setLb (p q : Fin 4) (b : Lb) (s : State) : lbOf (setLb p b s) q = if q = p then b else lbOf s q := by
  fin_cases p <;> fin_cases q <;> rfl

@[simp] theorem lxOf_setLx (p q : Fin 4) (x : LbCtx) (s : State) : lxOf (setLx p x s) q = if q = p then x else lxOf s q := by
  fin_cases p <;> fin_cases q <;> rfl

@[simp] theorem lxOf_setLb (p q : Nat) (b : Lb) (s : State) : lxOf (setLb p b s) q = lxOf s q := by
  unfold setLb lxOf; split_ifs <;> rfl

@[simp] theorem lbOf_setLx (p q : Nat) (x : LbCtx) (s : State) : lbOf (setLx p x s) q = lbOf s q := by
  unfold setLx lbOf; split_ifs <;> rfl

@[simp] theorem lbOf_setTests (p n q : Nat) (x : NodeTests) (s : State) : lbOf (setTests p n x s) q = lbOf s q := rfl

@[simp] theorem lxOf_setTests (p n q : Nat) (x : NodeTests) (s : State) : lxOf (setTests p n x s) q = lxOf s q := rfl

@[simp] theorem lbOf_setSched (p q : Nat) (x : BusSched) (s : State) : lbOf (setSched p x s) q = lbOf s q := rfl

@[simp] theorem lxOf_setSched (p q : Nat) (x : BusSched) (s : State) : lxOf (setSched p x s) q = lxOf s q := rfl

/-- Of the other nodes of a bus nothing changes. -/
theorem testsOf_setTests_ne (p n k : Nat) (x : NodeTests) (s : State) (h : k ≠ n) :
    testsOf (setTests p n x s) p k = testsOf s p k :=
  Safety.sget_sput_ne _ _ _ _ _ (by omega)

theorem testsOf_setTests_self (p n : Nat) (x : NodeTests) (s : State) (h : x ≠ {}) : testsOf (setTests p n x s) p n = x :=
  Safety.sget_sput_self _ _ _ _ h

theorem nodeOf_setNode_ne (p : Fin 4) (n k : Nat) (x : Node) (s : State) (h : k ≠ n) : nodeOf (setNode p n x s) p k = nodeOf s p k := by
  simp only [nodeOf, setNode, modLx, lxOf_setLx, if_pos]
  exact Safety.sget_sput_ne _ _ _ _ _ h

end Sys2Proof.Machine
end

