-- ==== Sys2Proof/Laws/Operands.lean ====
section
/-! SUPPORT. What marking the pages that a lap writes leaves alone. -/

namespace Sys2Proof.Machine

/-- Only the pages noted as written change. -/
theorem lapWrites_frame (a n : Nat) (s : State) :
    lapWrites a n s = { s with sbx := { s.sbx with written := (lapWrites a n s).sbx.written } } := by
  unfold lapWrites; split <;> rfl

/-- A unit that leads no resynchronisation and no migration marks nothing. -/
theorem lapWrites_idle (a n : Nat) (s : State) (h : ¬ (s.power.role = .leader ∧ (s.sbx.rsActive ∨ s.sbx.migrating) ∧ !inTrial s)) :
    lapWrites a n s = s := if_neg h

@[simp] theorem lapWrites_img (a n : Nat) (s : State) : (lapWrites a n s).img = s.img := by unfold lapWrites; split <;> rfl
@[simp] theorem lapWrites_data (a n : Nat) (s : State) : (lapWrites a n s).data = s.data := by unfold lapWrites; split <;> rfl
@[simp] theorem lapWrites_mram (a n : Nat) (s : State) : (lapWrites a n s).mram = s.mram := by unfold lapWrites; split <;> rfl
@[simp] theorem lapWrites_flash (a n : Nat) (s : State) : (lapWrites a n s).flash = s.flash := by unfold lapWrites; split <;> rfl
@[simp] theorem lapWrites_power (a n : Nat) (s : State) : (lapWrites a n s).power = s.power := by unfold lapWrites; split <;> rfl
@[simp] theorem lapWrites_lap (a n : Nat) (s : State) : (lapWrites a n s).lap = s.lap := by unfold lapWrites; split <;> rfl
@[simp] theorem lapWrites_edit (a n : Nat) (s : State) : (lapWrites a n s).edit = s.edit := by unfold lapWrites; split <;> rfl
@[simp] theorem lapWrites_bu (a n : Nat) (s : State) : (lapWrites a n s).bu = s.bu := by unfold lapWrites; split <;> rfl
@[simp] theorem lapWrites_bx (a n : Nat) (s : State) : (lapWrites a n s).bx = s.bx := by unfold lapWrites; split <;> rfl
@[simp] theorem lapWrites_mld (a n : Nat) (s : State) : (lapWrites a n s).mld = s.mld := by unfold lapWrites; split <;> rfl
@[simp] theorem lapWrites_pending (a n : Nat) (s : State) : (lapWrites a n s).pending = s.pending := by unfold lapWrites; split <;> rfl
@[simp] theorem imgOf_lapWrites (a n : Nat) (s : State) : imgOf (lapWrites a n s) = imgOf s := by unfold lapWrites; split <;> rfl

end Sys2Proof.Machine
end

