-- ==== Sys2Proof/WellFormed.lean ====
section
/-! DEFINITION. Which commands the outside can send: the checks on operands that a row's step takes for granted. The
meanings do not rest on them: a command that fails a check still has a next state. -/

namespace Sys2Proof

/-- A Marshal register access: 8, 16 or 32 bits wide, to an address of R449's range. -/
def WellFormed.access (addr : Word) (width : Nat) : Bool :=
  (decide (width = 1) || decide (width = 2) || decide (width = 4)) && decide (addr.toNat / 0x10000000 = 4)

/-- The number of data bytes of a data length code: classic up to 8, FD up to 64. -/
def WellFormed.dataBytes (fdf : Bool) (dlc : Nat) : Nat :=
  if dlc ≤ 8 then dlc
  else if fdf then ([12, 16, 20, 24, 32, 48, 64] : List Nat).getD (dlc - 9) 64
  else 8

/-- A landing-bus frame: an 11-bit identifier unless IDE is set, a 4-bit length code, as many bytes as it says (none in
a remote frame), BRS only in an FD frame, and not marked as the unit's own or out of slot. -/
def WellFormed.canFrame (f : CanFrame) : Bool :=
  (f.ide || decide (f.id.toNat < 2048)) && decide (f.dlc.toNat ≤ 15) &&
    decide (f.data.length = if f.rtr then 0 else WellFormed.dataBytes f.fdf f.dlc.toNat) && (f.fdf || !f.brs) && !f.own && !f.outOfSlot

/-- A Beacon node number (R296). -/
def WellFormed.node (n : BitVec 7) : Bool := decide (1 ≤ n.toNat) && decide (n.toNat ≤ 100)

/-- The samples of at most one tick of 2,500 (R265). -/
def WellFormed.tick (t : TickSamples) : Bool := decide (t.count ≤ 2500)

/-- Is a command well formed? -/
def WellFormed (i : Instr) : Bool :=
  match i with
  | .registerWrite a w _ => WellFormed.access a w
  | .rcRead a w => WellFormed.access a w
  | .loRead a w => WellFormed.access a w
  | .supplyWarn _ t => WellFormed.tick t
  | .meterTick t => WellFormed.tick t
  | .inputFilterTransition e => decide (0 < e.samples)
  | .lbFrameReceived _ f => WellFormed.canFrame f
  | .lbError _ _ transmitter delta => !transmitter || decide (delta ≠ .one)
  | .beaconStatus _ n _ _ => WellFormed.node n
  | .nodeMissing _ n => WellFormed.node n
  | .testReport _ n _ => WellFormed.node n
  | .testNoReport _ n => WellFormed.node n
  | .beaconVote _ n _ => WellFormed.node n
  | .wakeSlotEnd _ n => WellFormed.node n
  | _ => true

end Sys2Proof
end

