-- ==== Sys2Proof/Tests/Slice0.lean ====
section
/-! SUPPORT. The author's tests: ill-formed commands refused, single steps with results of the manual, and for each statement
a state that meets its hypotheses. -/

namespace Sys2Proof.Tests

open Sys2Proof.Machine

-- One theorem after another: tests that wait for the kernel side by side each take a thread.
set_option Elab.async false

/-! ### Well-formed commands: each check refuses an ill-formed one -/

/-- R3, R449: the width of an access, and its range. -/
theorem test_wf_access : WellFormed (.registerWrite 0x40000000 4 0) = true ∧ WellFormed (.registerWrite 0x40000000 3 0) = false ∧
    WellFormed (.rcRead 0x50000000 4) = false ∧ WellFormed (.loRead 0x3FFFFFFC 4) = false := by decide

/-- R265, R274: at most 2,500 samples in a tick. R32: a run of an input has a sample. -/
theorem test_wf_samples : WellFormed (.meterTick { runs := [{ count := 2400 }, { count := 101 }] }) = false ∧
    WellFormed (.supplyWarn 0 { runs := [{ count := 2501 }] }) = false ∧
    WellFormed (.inputFilterTransition { samples := 0 }) = false ∧ WellFormed (.meterTick { runs := [{ count := 2500 }] }) = true ∧
    WellFormed (.inputFilterTransition { samples := 1 }) = true := by decide

/-- R290, ISO 11898-1: a transmitter's error counter rises by 8. -/
theorem test_wf_errors : WellFormed (.lbError 0 0 true .one) = false ∧ WellFormed (.lbError 0 0 true .eight) = true ∧
    WellFormed (.lbError 0 0 false .one) = true := by decide

/-- A frame's identifier, length code and BRS. -/
theorem test_wf_can_frame : WellFormed (.lbFrameReceived 0 { id := 2048 }) = false ∧ WellFormed (.lbFrameReceived 0 { dlc := 16 }) = false ∧
    WellFormed (.lbFrameReceived 0 { dlc := 1 }) = false ∧ WellFormed (.lbFrameReceived 0 { brs := true }) = false ∧
    WellFormed (.lbFrameReceived 0 { dlc := 1, data := [7] }) = true := by decide

/-- R296: Beacon nodes are 1 to 100. -/
theorem test_wf_nodes : WellFormed (.beaconStatus 0 0 false []) = false ∧ WellFormed (.nodeMissing 0 101) = false ∧
    WellFormed (.testReport 0 0 []) = false ∧ WellFormed (.testNoReport 0 127) = false ∧ WellFormed (.beaconVote 0 0 []) = false ∧
    WellFormed (.wakeSlotEnd 0 101) = false ∧ WellFormed (.wakeSlotEnd 0 100) = true := by decide

/-! ### Small states -/

/-- A unit in a state and a role with every domain on. -/
def unit (st : OpState) (role : Role) : State :=
  { State.reset with power := { State.reset.power with state := st, role := role, pdOn := 0xFFF } }

/-- A SOLO unit in RUN with a Mould. -/
def solo : State := { unit .run .solo with mld := { State.reset.mld with mould := some ({}, {}) } }

/-- It executes MAIN. -/
def runs : State := { solo with lap := { solo.lap with running := .lap } }

/-- What a step says about a next state; `d` for any other end. -/
def after {α : Type} (d : α) (f : State → α) (o : Host.Outcome State Fault Refusal) : α :=
  match o with
  | .next t => f t
  | _ => d

/-! ### Single steps -/

/-- R82, R134: an open at depth 16 abandons the lap. -/
theorem test_open_at_16 : after 0 (fun t => t.lap.fault.toNat)
    (exec (.openAnd .m 0) { runs with bu := { runs.bu with stack := List.replicate 16 { ba := false, fc := false, op := 0 } } }) = 0x231 := by decide

/-- R180: −7 / 2 is −3, remainder −1. -/
theorem test_div_truncates :
    after 0 (fun t => t.bx.acc1) (exec .div { runs with bx := { runs.bx with acc1 := -7, acc2 := 2 } }) = -3 ∧
    after 0 (fun t => t.bx.acc1) (exec .mod { runs with bx := { runs.bx with acc1 := -7, acc2 := 2 } }) = -1 := by decide

/-- R182: a shift left by 32 gives 0, and C is the last bit out; by 0 it clears C. -/
theorem test_shift_left :
    after (1, false) (fun t => (t.bx.acc1, t.bx.c)) (exec .shl { runs with bx := { runs.bx with acc1 := 1, acc2 := 32 } }) = (0, true) ∧
    after (1, true) (fun t => (t.bx.acc1, t.bx.c)) (exec .shl { runs with bx := { runs.bx with acc1 := 5, acc2 := 256, c := true } }) =
      (5, false) := by decide

/-- R118: a push to an unallocated ring sets UNALLOC. -/
theorem test_push_unallocated : after false (fun t => (ringGet t 100).unalloc) (exec (.queuePush 100 {}) solo) = true := by decide

/-- R16: an access into PD7 while it is off is counted with its block. -/
theorem test_xdom_miss : after (0, 0) (fun t => (t.sens.xdomCount.toNat, t.sens.xdomBlock.toNat))
    (exec (.registerWrite 0x40300000 4 1) { solo with power := { solo.power with pdOn := 0xF7F } }) = (1, 0x30) := by decide

/-- R67 to R69: a valid supply starts the unit. -/
theorem test_supply_valid : after (.off, 0) (fun t => (t.power.state, t.power.pwrCycles.toNat)) (exec .supplyValid State.reset) =
    (.bringUp, 1) := by decide

/-- R406: 28 February 2000 is followed by 29 February; 2100 has none. -/
theorem test_leap_years :
    after 0 (fun t => t.rtc.time.day) (exec .rtcSecond { solo with rtc := { solo.rtc with
      time := { year := 2000, month := 2, day := 28, hour := 23, minute := 59, second := 59 } } }) = 29 ∧
    after 0 (fun t => t.rtc.time.month) (exec .rtcSecond { solo with rtc := { solo.rtc with
      time := { year := 2100, month := 2, day := 28, hour := 23, minute := 59, second := 59 } } }) = 3 := by decide

/-- R419: the encoder saturates. -/
theorem test_encoder_saturates : after 0 (fun t => t.pan.enc) (exec (.encoderStep true) { solo with pan := { solo.pan with enc := 32767 } }) =
    32767 := by decide

/-- R357: a Modbus read of an input register answers P big-endian: byte 0 of P is 0x12, byte 1 is 0x34. -/
theorem test_modbus_input_register : after [] (fun t => t.out.modbus) (exec (.readInputRegisters 0 [0, 1, 0, 0, 0, 6, 0, 4, 0, 0, 0, 1])
    { solo with
      px := { solo.px with conns := [{ id := 0, src := {} }] }
      ctx := { solo.ctx with mbCopy := { solo.ctx.mbCopy with frz := { solo.frz with p := 0x3412 } } } }) =
    [(0, [0, 1, 0, 0, 0, 5, 0, 4, 2, 0x12, 0x34])] := by decide +kernel

/-- R395: the check value of the bytes "123456789" under CRC-32C. -/
theorem test_crc32c : crc32c [0x31, 0x32, 0x33, 0x34, 0x35, 0x36, 0x37, 0x38, 0x39] = 0xE3069283 := by decide +kernel

/-- R155: the ten words of the worked nested rung, and R178: LIH of 0x4120, and LK. -/
theorem test_bolis_words : ([0x03000000, 0x04000001, 0x0B000000, 0x0320000A, 0x09000000, 0x05000002, 0x05000003, 0x0F000000, 0x0F000000,
    0x10100000, 0x59004120, 0xFF000000].map fun w => bolisCommand w 0x41200000) = [some (.bitAnd .i 0), some (.bitAndn .i 1),
      some (.openOr .i 0), some (.bitAnd .m 10), some (.openAnd .i 0), some (.bitOr .i 2), some (.bitOr .i 3), some .close, some .close,
      some (.st .q 0), some (.lih 0x4120), some (.lk 0x41200000)] := by decide

/-- A reserved opcode, a rung-code opcode, a reserved area, a write to I, an element of E, an operand of NOT. -/
theorem test_bolis_reserved : ([0x16000000, 0x30000001, 0x01C00000, 0x10000000, 0x50300000, 0x13000001].map fun w => bolisCommand w 0) =
    List.replicate 6 none := by decide

/-- R152: the words of the worked rung as the table's words; LK with its literal; a width that no word has. -/
theorem test_decode_table_word : decodeTableWord 32 0x03000000 = some (.bitAnd .i 0) ∧ decodeTableWord 32 0x10100000 = some (.st .q 0) ∧
    decodeTableWord 32 0x60000000 = some .add ∧ decodeTableWord 64 0x41200000FF000000 = some (.lk 0x41200000) ∧ decodeTableWord 32 0xFF000000 = none ∧
    decodeTableWord 16 0x0300 = none ∧ decodeTableWord 64 0x03000000 = none ∧ (State.reset.withFetchWord 32 0x60000000).pending = [.add] := by
  decide +kernel

/-! ### Witnesses: states that meet the hypotheses of the statements -/

/-- What waits for the Marshal as a request of a CODE with arguments. -/
def asked (code : Byte) (args : Bytes) : PendingReq := { body := code :: 0 :: (leBytes 2 args.length ++ leBytes 4 0 ++ args) }

/-- A unit to which that request has come over the mailbox. -/
def asks (code : Byte) (args : Bytes) (s : State) : State := { s with px := { s.px with pending := [asked code args] } }

/-- Every request can come in every state in which the Marshal works, no change of state waits and no report is awaited. -/
theorem asks_come (code : Nat) (args : Bytes) (s : State) (h : awake s = true) (i : s.power.transit = .none) (r : s.px.reportTo = []) :
    Safety.Asks .passed code args (askedOf 2 (some (asked (BitVec.ofNat 8 code) args)) (asked (BitVec.ofNat 8 code) args).body)
      (asks (BitVec.ofNat 8 code) args s) (takePassed (asked (BitVec.ofNat 8 code) args) [] (asks (BitVec.ofNat 8 code) args s)) where
  came := (if_pos ⟨h, by simp [reportAwaited, asks, r]⟩).trans rfl
  isCode := rfl
  idle := i

theorem witness_StepRunsTheFrontCommand : ({ solo with pending := [.nop] } : State).pending = .nop :: [] := rfl

theorem witness_AnEmptyQueueLetsAMicrosecondPass : State.reset.pending = [] ∧ State.reset.power.state = .off ∧ solo.pending = [] ∧
    solo.power.state ≠ .off ∧ solo.rtc.secUs < 999999 ∧ State.reset.power.pdOn.getLsbD 6 = false ∧ solo.sw.cfg.mrpRole ≠ 2 := by decide +kernel

/-- A scan of the keys is due, is not, and is not while the Marshal does not work; a key down, and one up. -/
theorem witness_key_scan : (∀ x ∈ [((999 : Nat), true), (998, false)], let s := { solo with clk := { solo.clk with opUs := x.1 } }
      awake s = true ∧ decide ((s.clk.opUs + 1) % 1000 = 0) = x.2) ∧ awake State.reset = false ∧
    (let s := { solo with pan := { solo.pan with pressed := 0x100000, raw := 0x100000 } }
     s.pan.pressed.getLsbD 20 = true ∧ s.pan.pressed.getLsbD 0 = false) := by decide +kernel

/-- DMA jobs of either direction over the MAC table, of which time has moved an entry, or none; one that writes into a prefix table. -/
theorem witness_dma_in_time : (∀ b ∈ [true, false], ∀ us ∈ [0, 5],
      let j : DmaJob := { dir := b, count := 100, atUs := 0 }
      let s := { solo with tbl := { solo.tbl with dmaJob := some j }, clk := { solo.clk with wallUs := us } }
      s.power.pdOn.getLsbD 6 = true ∧ s.tbl.dmaJob = some j ∧ (j.table = false ∨ j.dir = false) ∧
        max j.done (min j.count (125 * (s.clk.wallUs + 1 - j.atUs) / 4)) ≠ j.done) ∧
    max 31 (min 100 (125 * (0 + 1 - 0) / 4)) = 31 ∧ (({ table := true, dir := true } : DmaJob).table = true) := by decide +kernel

/-- The stores of a unit after reset are canonical, and a step answers a next state. -/
theorem witness_EveryStepKeepsTheStoresCanonical : Safety.storesWf solo ∧ ∃ t, step solo = .next t := ⟨rfl, _, rfl⟩

theorem witness_CommandsStopOnlyAtRejectedWords : (∃ t, exec .nop solo = .next t) ∧ executing solo = false ∧ executing runs = true ∧
    Safety.rejected runs .nop = none ∧ Safety.rejected runs (.ld .m 65535) = none ∧ Safety.rejected runs (.ld .m 65536) = some "LD" :=
  ⟨⟨_, rfl⟩, by decide +kernel⟩

theorem witness_NarrowOrUnalignedAccessIsNotPerformed : awake solo = true ∧ (2 ≠ 4 ∨ (0x40000000 : Word).toNat % 4 ≠ 0) ∧
    (4 ≠ 4 ∨ (0x40000001 : Word).toNat % 4 ≠ 0) := by decide +kernel

/-- A unit with only PD0 and PD1 on; pages on either side of the register space's blocks. -/
theorem witness_AccessOutsideTheReachableBlocks :
    (let s := { solo with power := { solo.power with pdOn := 3 } }
     awake s = true ∧ s.power.pdOn.getLsbD 2 = false ∧ s.power.pdOn.getLsbD 4 = false ∧ s.power.pdOn.getLsbD 5 = false ∧
      s.power.pdOn.getLsbD 6 = false ∧ s.power.pdOn.getLsbD 7 = false) ∧
    (0x4FFFFFFC : Word).toNat % 4 = 0 ∧ (0x4FFFFFFC : Word).toNat / 65536 = 0x4FFF ∧
    (∀ p ∈ [0x4007, 0x4FFF], 0x4000 ≤ p ∧ p ≤ 0x4FFF ∧
      p ∉ [0x4000, 0x4001, 0x4002, 0x4003, 0x4004, 0x4005, 0x4006, 0x4010, 0x4011, 0x4012, 0x4013, 0x4014,
        0x4015, 0x4020, 0x4021, 0x4030, 0x4031, 0x4032, 0x4033, 0x4040, 0x4041, 0x4042, 0x4050]) := by decide +kernel

theorem witness_RegisterAccessesFollowTheirAccessCodes : awake solo = true ∧ solo.power.pdOn.getLsbD 1 = true ∧
    solo.power.pdOn.getLsbD 5 = true ∧ solo.power.pdOn.getLsbD 6 = true ∧ solo.power.pdOn.getLsbD 7 = true ∧
    solo.power.state ≠ .halt ∧ (unit .halt .none).power.state = .halt ∧ awake (unit .halt .none) = true := by decide +kernel

/-- Inputs 0 and 31: a run that reaches the filter time, and one that does not; monitored, healthy, not flagged; flagged; not
monitored. -/
theorem witness_FieldInputsFilterAndFlagOpen :
    (∀ n ∈ [(0 : Fin 32), 31], ∀ k ∈ [0, 1],
      let e : RawRun := { n := n, samples := 1 }
      let s := { solo with dio := { solo.dio with rawRun := [(n.val, filterSamples solo n - 1 - k)] } }
      s.power.pdOn.getLsbD 5 = true ∧ 0 < e.samples ∧ e.level ≠ s.dio.filt.getLsbD n ∧
        decide (filterSamples s n ≤ sget 0 s.dio.rawRun n + e.samples) = decide (k = 0)) ∧
    (let s := { solo with dioc := { solo.dioc with diLm := 0x80000001 } }
     ∀ n ∈ [0, 31], s.power.pdOn.getLsbD 5 = true ∧ s.dioc.diLm.getLsbD n = true ∧ (diGroup s (n / 8)).glost = false ∧
      (diGroup s (n / 8)).sscNow = false ∧ s.dio.opens.getLsbD n = false) ∧
    solo.dioc.diLm.getLsbD 31 = false ∧ acqCfg solo = none ∧
    ({ solo with dio := { solo.dio with opens := 0x80000000 } } : State).dio.opens.getLsbD 31 = true ∧
    repeatFind solo 0x510 31 = none ∧ repeatFind solo 0x511 31 = none := by decide +kernel

theorem witness_InputGroupsAndSensorSupplies : solo.power.pdOn.getLsbD 5 = true ∧
    (diGroup { solo with dio := { solo.dio with g3 := { solo.dio.g3 with glost := true } } } 3).glost = true ∧
    (diGroup { solo with dio := { solo.dio with g0 := { solo.dio.g0 with sscNow := true } } } 0).sscNow = true := by decide +kernel

/-- A SOLO unit whose outputs 0 and 15 are commanded on and driven. -/
def drives : State :=
  { solo with power := { solo.power with driversOn := true }, dio := { solo.dio with cmd := 0x8001, on := 0x8001 } }

theorem witness_OutputsTripRetryLatchAndAreAcknowledged : drives.power.pdOn.getLsbD 5 = true ∧ awake drives = true ∧
    (∀ k ∈ [0, 15], drives.dio.on.getLsbD k = true ∧ drives.dioc.doPolicy.getLsbD k = false ∧ (retryOf drives k).retries.toNat < 9 ∧
      drives.dio.latched.getLsbD k = false ∧ pairedCommand drives k = true) ∧
    ({ drives with dioc := { drives.dioc with doPolicy := 0x8000 } } : State).dioc.doPolicy.getLsbD 15 = true ∧
    ({ drives with dio := { drives.dio with tripOff := 0x8000 } } : State).dio.tripOff.getLsbD 15 = true ∧
    (let s := { drives with dio := { drives.dio with retry := [(15, { retries := 9, retrying := true })] } }
     (retryOf s 15).retries.toNat = 9 ∧ (retryOf s 15).retrying = true) ∧
    (let s := { drives with dio := { drives.dio with ackPrev := [(15, { retries := 9, retrying := true })] } }
     let e : Trip := { k := 15, sameAck := true }
     e.sameAck = true ∧ retryOf s e.k = {} ∧ (retryOf (setRetry e.k (sget {} s.dio.ackPrev e.k) s) e.k).retrying = true) ∧
    ({ drives with dio := { drives.dio with latched := 0x8000 } } : State).dio.latched.getLsbD 15 = true ∧
    (0x10000 : Word).setWidth 16 = (0 : BitVec 16) ∧ (0x8000 : Word).setWidth 16 ≠ (0 : BitVec 16) := by decide +kernel

theorem witness_OutputFlagsSupplyAndTriggerLines : drives.power.pdOn.getLsbD 5 = true ∧
    (drives.dio.on.getLsbD 15 = true ∧ drives.dioc.doShared.getLsbD 15 = false) ∧
    ({ drives with dioc := { drives.dioc with doShared := 1 } } : State).dioc.doShared.getLsbD 0 = true ∧
    (drives.dio.on.getLsbD 1 = false ∧ drives.dio.backfeed.getLsbD 1 = false) ∧
    ({ drives with dio := { drives.dio with backfeed := 2 } } : State).dio.backfeed.getLsbD 1 = true ∧
    ({ drives with dioc := { drives.dioc with lostA := true, lostB := true } } : State).dioc.lostB = true ∧
    ({ drives with dioc := { drives.dioc with trgDrive := 8 } } : State).dioc.trgDrive.getLsbD 3 = true ∧
    (trgLevel drives).getLsbD 3 = false ∧
    (trgLevel { drives with dioc := { drives.dioc with trgExt := 8 } }).getLsbD 3 = true ∧
    (∀ b ∈ [true, false], ({ light := b } : LoadCheck).light = b ∧ ({ asserted := b } : TrgEdge).asserted = b) ∧
    14000 < ({ mv := 14001 } : Terminal).mv ∧ ({ mv := 9999 } : Terminal).mv < 10000 ∧ 8000 < ({ mv := 8001 } : Terminal).mv ∧
    ¬ 8000 < ({ mv := 8000 } : Terminal).mv ∧
    (ringDepth (ringGet drives 30) ≠ 0 ∧ ringFull (ringGet drives 30) = false ∧ (ringGet drives 30).policy = 0) := by decide +kernel

/-- Ring 100 with 16 descriptors of room, empty or full, under a policy. -/
def ring100 (policy : BitVec 2) (pi : Word) (ws : List Desc) : State :=
  ringSet 100 { base := 10000, log2 := 4, policy := policy, consumer := 1, pi := pi, waiting := ws } solo

theorem witness_RingsPushPopAndFollowTheirPolicies : awake solo = true ∧ solo.acq.armWait = false ∧ Memory.wf (ring100 0 1 []) = true ∧
    (let r := ringGet (ring100 0 1 []) 100
     ringDepth r ≠ 0 ∧ ringFull r = false ∧ r.waiting = [] ∧ r.hwm = 0 ∧ r.base + ringDepth r ≤ 262144 ∧ ringFill r ≠ 0) ∧
    ringFill (ringGet (ring100 0 0 []) 100) = 0 ∧ ringDepth (ringGet solo 100) = 0 ∧
    (∀ p ∈ [(0 : BitVec 2), 1, 2], ringFull (ringGet (ring100 p 16 []) 100) = true ∧ (ringGet (ring100 p 16 []) 100).policy = p) ∧
    ((ringGet (ring100 1 15 [{}]) 100).waiting = {} :: [] ∧ ringFull (ringGet (ring100 1 15 [{}]) 100) = false) ∧
    (let s := { ring100 0 5 [] with queues := { (ring100 0 5 []).queues with ringSel := 100 } }
     let r := ringGet s s.queues.ringSel.toNat
     s.power.pdOn.getLsbD 1 = true ∧ r.consumer = 1 ∧ ((5 : Word) - r.ci).toNat ≤ (r.pi - r.ci).toNat ∧
     (r.pi - r.ci).toNat < ((6 : Word) - r.ci).toNat) ∧ (ringGet solo 100).consumer ≠ 1 := by decide +kernel

/-- Ring 100 with a mark at half its depth, at or before it. -/
def markedRing (pi : Word) (said : Bool) : State :=
  ringSet 100 { base := 10000, log2 := 4, hwm := 8, flagHwm := said, consumer := 1, pi := pi } solo

/-- Does the next push bring the fill of ring 100 to its mark? -/
def reachesMark (s : State) : Bool :=
  let r := ringGet s 100
  decide (r.hwm ≠ 0) && decide (r.hwm.toNat * ringDepth r ≤ 16 * (r.pi + 1 - r.ci).toNat) && !r.flagHwm

/-- It does, or not, or its flag stands. -/
theorem witness_high_water : reachesMark (markedRing 7 false) = true ∧ reachesMark (markedRing 6 false) = false ∧
    reachesMark (markedRing 7 true) = false ∧ ringDepth (ringGet (markedRing 7 false) 100) ≠ 0 ∧
    ringFull (ringGet (markedRing 7 false) 100) = false ∧ (ringGet (markedRing 7 false) 100).waiting = [] ∧
    ringFull (ringGet (markedRing 7 false) 3) = false ∧ (markedRing 7 false).log.repeats = [] := by decide +kernel

/-- Its slots lie apart from those of Q0002 and Q0003. -/
theorem ring100_apart (s : State)
    (h : ([100, 2, 3].map fun n => ((ringGet s n).base, ringDepth (ringGet s n))) = [(10000, 16), (256, 256), (1024, 1024)]) :
    Safety.ringApart 100 s := by
  simp only [List.map_cons, List.map_nil, List.cons.injEq, Prod.mk.injEq] at h
  refine ⟨by omega, ?_⟩
  rintro a ⟨n, hn, h1, h2⟩ ⟨m, hm, h3, h4⟩
  simp only [List.mem_cons, List.not_mem_nil, or_false] at hn hm
  subst hn
  rcases hm with rfl | rfl <;> omega

theorem witness_rings_apart : Safety.ringApart 100 (ring100 2 16 []) ∧ Safety.ringApart 100 (ring100 1 15 [{}]) ∧
    Memory.wf (ring100 2 16 []) = true ∧ ringFill (ringGet (ring100 2 16 []) 100) = ringDepth (ringGet (ring100 2 16 []) 100) :=
  ⟨ring100_apart _ (by decide +kernel), ring100_apart _ (by decide +kernel), by decide +kernel, by decide +kernel⟩

/-- A record of a time anchor. -/
def anchorRecord : Record := { code := 0x101, optMs := 0, cycles := 1, source := 1, severity := 0, items := [], notWritten := 0 }

/-- It waits, with HEAD at a slot. -/
def journalsAt (h : BitVec 15) : State := { solo with log := { solo.log with sjQueue := [anchorRecord], sjHead := h } }

theorem witness_JournalRecordsTakeTheirSlots :
    (∀ h ∈ [0, 0x7FFD], let s := journalsAt (BitVec.ofNat 15 h)
      s.log.sjQueue = anchorRecord :: [] ∧ Memory.wf s = true ∧ awake s = true ∧ s.log.sjHead ≠ 0x7FFF ∧ s.log.sjHead.toNat < 0x7FFE) ∧
    (journalsAt 0x7FFF).log.sjHead = 0x7FFF ∧ Memory.wf (journalsAt 0x7FFF) = true ∧
    anchorRecord.optMs < 0x1000000000000 ∧ anchorRecord.notWritten < 0x100000000 ∧ anchorRecord.code = 0x101 := by decide +kernel

/-- A record of the Marshal's own that waits; none. -/
theorem witness_own_record : ({ journalsAt 5 with log := { (journalsAt 5).log with sjOwn := [anchorRecord] } } : State).log.sjOwn =
    anchorRecord :: [] ∧ (journalsAt 0).log.sjOwn = [] ∧ (journalsAt 0x7FFF).log.sjOwn = [] ∧ Safety.storesWf (journalsAt 0x7FFF) :=
  ⟨rfl, rfl, rfl, rfl⟩

theorem witness_TraceRecordTakesTheSlotOfItsSeq :
    (let s := { solo with log := { solo.log with trQueue := [recordOf 0x820 0 [] 0 solo], trSeq := 511 } }
     awake s = true ∧ Memory.wf s = true ∧ s.log.trQueue = recordOf 0x820 0 [] 0 solo :: [] ∧ s.log.trSeq.toNat % 1024 = 511) ∧
    solo.log.trSeq.toNat % 1024 ≠ 511 ∧ ({ solo with log := { solo.log with erasing := true, erasingBlock := 255 } } : State).log.erasing = true := by
  decide +kernel

/-- The 512th record of a block from which a start has skipped one slot. -/
theorem witness_trace_skipped : (let s := { solo with log := { solo.log with trSeq := 512, trSkipped := 1 } }
    s.log.trSeq.toNat % 1024 = 511 + s.log.trSkipped) ∧ solo.log.trSeq.toNat % 1024 ≠ 511 + solo.log.trSkipped := by decide +kernel

theorem witness_OperatingTimeIsSavedAndAnchored : solo.power.state ≠ .off ∧
    (let s := { solo with clk := { solo.clk with opUs := 86400000000 }, rtc := { solo.rtc with osf := false } }
     awake s = true ∧ s.rtc.osf = false ∧ s.rtc.lbv = false ∧ s.clk.anchorMs + 86400000 ≤ opMs s) ∧ solo.rtc.osf = true := by decide +kernel

theorem witness_CheckJobsComputeAppendAndReport : awake solo = true ∧
    (∀ m ∈ [(0 : Byte), 1, 2], jobGood 0 m 0 4116 = true) ∧ (4116 : Word).toNat ≤ 4116 ∧ 4116 < (4117 : Word).toNat ∧ Memory.wf solo = true ∧
    solo.crc.scan = none ∧
    ({ solo with crc := { solo.crc with scan := some { job := 1, src := 0, poly := 0, mode := 0, start := 0, length := 4 } } } : State).crc.scan.isSome = true ∧
    (let s := ringSet 12 { ringGet solo 12 with pi := 1 } solo
     ringDepth (ringGet s 12) ≠ 0 ∧ ringFill (ringGet s 12) ≠ 0) ∧
    (ringDepth (ringGet solo 13) ≠ 0 ∧ ringFull (ringGet solo 13) = false) := by decide +kernel

/-- Refused frame jobs: one that ends outside data memory, one that would append there, one over the backup state region, one that checks
no payload. -/
theorem witness_job_outside : (0x1000000 < 0xFFFFFE + 4 ∧ ¬ 0x10000000 ≤ 0xFFFFFE) ∧
    ((1 : Byte).toNat % 4 = 1 ∧ 0x1000000 < 0xFFFFF8 + 8 + crcWidth 0) ∧
    (0x1000000 < 0x103DFFFE + 4 ∧ ¬ (0x103DFFFE + 4 ≤ 0x103A0000 ∨ 0x103E0000 ≤ 0x103DFFFE) ∧ ¬ 0x20000000 ≤ 0x103DFFFE) ∧
    ((2 : Byte).toNat % 4 = 2 ∧ (4 : Word).toNat ≤ crcWidth 0) := by decide

/-- A job over the system image, while an update writes it and while none does; ends of a range on either side of Lane A's states. -/
theorem witness_job_in_update : jobInUpdate 0x20000000 4 { solo with upd := { solo.upd with journal := .patching } } = true ∧
    jobInUpdate 0x20000000 4 solo = false ∧ ringFull (ringGet solo 3) = false ∧ 0x7FFFF8 + 4 + 4 ≤ 0x800000 ∧ 0x820100 ≤ 0x8200FC + 4 := by
  decide +kernel

theorem witness_TheUnitStartsAndWakes : State.reset.power.state = .off ∧ State.reset.upd.journal ≠ .dead ∧ State.reset.upd.journal ≠ .patching ∧
    ({ State.reset with upd := { State.reset.upd with journal := .dead } } : State).upd.journal = .dead ∧ solo.power.state ≠ .off ∧
    solo.power.state ≠ .hibernate ∧ (unit .hibernate .none).power.state = .hibernate ∧ (unit .hibernate .none).upd.journal ≠ .patching ∧
    State.reset.power.pdLocked.getLsbD 11 = false ∧
    (let s := unit .bringUp .none
     let w := { s with power := { s.power with startKind := .wake } }
     w.power.state = .bringUp ∧ w.power.startKind = .wake ∧ opMs w = w.power.t0Us / 1000) := by
  decide +kernel

/-- A unit that a temperature holds in OFF; one whose OSF waits to be recorded. -/
theorem witness_held_off : State.reset.power.hot = false ∧
    ({ State.reset with power := { State.reset.power with hot := true } } : State).power.hot = true ∧
    RtcNote.osf 0 ∈ ({ State.reset with rtc := { State.reset.rtc with notes := [.osf 0] } } : State).rtc.notes := by decide +kernel

theorem witness_SupplyFailureKeepsWhatMustStand : awake solo = true ∧ solo.power.pfw = false ∧ solo.power.state ≠ .off ∧
    ({ solo with power := { solo.power with pfw := true } } : State).power.pfw = true ∧
    ({ solo with mtr := { solo.mtr with running := true } } : State).mtr.running = true ∧
    ((unit .hibernate .none).power.state = .hibernate ∧ (unit .hibernate .none).power.pfw = false ∧ awake (unit .hibernate .none) = false) ∧
    State.reset.power.state = .off ∧ solo.log.trQueue = [] := by decide +kernel

/-- A unit that waits to leave RUN. -/
def leaves (w : Transit) : State := { solo with power := { solo.power with transit := w } }

theorem witness_HaltAndHibernateWaitForTheCommit : runs.lap.running ≠ .idle ∧
    ((leaves .halt).power.state = .run ∧ (leaves .halt).power.transit = .halt ∧ (leaves .halt).lap.running = .idle) ∧
    ((leaves .hibernate).power.transit = .hibernate ∧ (leaves .hibernate).lap.running = .idle ∧
      ((leaves .hibernate).rtc.alarmEn && (leaves .hibernate).rtc.alarmHit) = false) := by decide +kernel

/-- A write-through that goes on, and none. -/
theorem witness_write_through : solo.clk.opUs < ({ solo with ctx := { solo.ctx with wtEndUs := 1 } } : State).ctx.wtEndUs ∧
    (∀ w ∈ [Transit.halt, .hibernate], (leaves w).ctx.wtEndUs ≤ (leaves w).clk.opUs) ∧ solo.ctx.wtEndUs ≤ solo.clk.opUs := by decide +kernel

/-- A bring-up at a load step, with nothing pressed. -/
def loads (k : LoadStep) : State := let s := unit .bringUp .none; { s with power := { s.power with loadStep := k } }

theorem witness_ManifestsAndMouldAreCheckedAndPressed : solo.power.state ≠ .bringUp ∧ (loads .p4).power.loadStep ≠ .mould ∧
    ((loads .manifests).power.state = .bringUp ∧ (loads .manifests).power.loadStep = .manifests ∧ (loads .manifests).upd.journal ≠ .patching ∧
      (loads .manifests).mld.mould = none ∧ (loads .manifests).power.pdLocked = 0 ∧ manFormat 0 none (loads .manifests).upd.manifest = false ∧
      (loads .manifests).upd.accepting = false) ∧
    (let s := loads .manifests
     ({ s with upd := { s.upd with accepting := true } } : State).upd.accepting = true ∧ (s.upd.pending && !s.upd.inUse) = false ∧
      (let t := { s with upd := { s.upd with pending := true } }
       (t.upd.pending && !t.upd.inUse) = true ∧ t.upd.inUse = false)) ∧
    ((loads .mould).power.state = .bringUp ∧ (loads .mould).power.loadStep = .mould) := by decide +kernel

/-- The Mould of an empty bank does not validate. -/
theorem witness_mould_refused : (match mouldValidate (mouldCtx (usedBank (loads .mould)) none (loads .mould)) with
    | .error _ => true
    | .ok _ => false) = true := by decide +kernel

theorem witness_PartsLoadInOrderUpToRun :
    (∀ p ∈ [Part.p0, .p1, .p2, .p3, .p4, .p5, .p6], (loads (partStep p)).power.state = .bringUp ∧ (loads (partStep p)).power.loadStep = partStep p ∧
      (0 : Word).toNat = ((manPart 0 (loads (partStep p)).upd.manifest (partNo p)).map PartEntry.version).getD 0 ∧
      (0 : Word).toNat = manSet (loads (partStep p)).upd.manifest ∧ (loads (partStep p)).upd.accepting = false) ∧
    (∀ d ∈ [2, 4, 7, 8, 11], domainEnabled (loads .p4) d = true ∧ (loads .p4).power.pdLocked.getLsbD d = false) ∧
    (∀ acc ∈ [true, false], let s := { loads (partStep .p1) with upd := { (loads (partStep .p1)).upd with accepting := acc } }
      s.power.loadStep = partStep .p1 ∧ s.upd.accepting = acc ∧
        (1 : Word).toNat ≠ ((manPart 0 s.upd.manifest 1).map PartEntry.version).getD 0 ∧ (1 : Word).toNat ≠ manSet s.upd.manifest) ∧
    ((loads .handover).power.loadStep = .handover ∧ (loads .handover).power.role = .none) := by decide +kernel

/-- An acceptance start, whose self-test fails or whose part does not report. -/
theorem witness_acceptance_start : (∀ k ∈ [LoadStep.manifests, .p0, .p6],
    let s := { loads k with upd := { (loads k).upd with accepting := true } }
    s.upd.accepting = true ∧ s.power.state = .bringUp ∧ s.power.loadStep = k) := by decide +kernel

theorem witness_LapsFreezeInputsAndCommitOutputs : runs.lap.running ≠ .idle ∧
    (solo.lap.running = .idle ∧ solo.power.pdOn.getLsbD 2 = true ∧ solo.mld.mould = some ({}, {}) ∧ ({} : Mould).iBase + 32 ≤ 8192 ∧
      solo.power.state = .run ∧ solo.power.role = .solo) ∧
    (let s := { unit .halt .none with power := { (unit .halt .none).power with transit := .run } }
     s.power.state = .halt ∧ s.power.transit = .run) ∧
    runs.bx.ended = false ∧
    (∀ k ∈ [Running.lap, .trial], let s := { runs with bx := { runs.bx with ended := true }, lap := { runs.lap with running := k } }
      s.bx.ended = true ∧ s.lap.running = k ∧ s.power.role = .solo) := by decide +kernel

/-- A unit whose lanes are armed and have been kicked. -/
def armed : State := let w : Watchdog := { armed := true, kicked := true, last := 0xFFFF }
  { solo with mgt := { solo.mgt with wdA := w, wdB := w } }

theorem witness_SafeServiceHasItsCauses : (∀ st ∈ [OpState.bringUp, .run, .halt], (unit st .none).power.state = .bringUp ∨
      (unit st .none).power.state = .run ∨ (unit st .none).power.state = .halt) ∧
    runs.lap.running = .lap ∧ solo.lap.running = .idle ∧ solo.power.pdOn.getLsbD 2 = true ∧ solo.power.pdOn.getLsbD 5 = true ∧
    (∀ l ∈ [Lane.a, .b], (wdOf armed l).armed = true ∧ (wdOf armed l).kicked = true ∧ (1 : Half) ≠ (wdOf armed l).last + 1 ∧
      (0 : Half) = (wdOf armed l).last + 1 ∧ (wdOf solo l).armed = false) ∧ awake armed = true ∧
    solo.power.pdOn.getLsbD 7 = true ∧ solo.power.pdOn.getLsbD 11 = true ∧ (tempOf solo 5).warn = false ∧
    -- R363: the limits of PD2 (900 mV, 2,500 mA) and of PD11 (3,300 mV), at their boundaries.
    (outOfLimits 2 .under { mv := 827 } = true ∧ outOfLimits 2 .under { mv := 828 } = false ∧ outOfLimits 2 .over { mv := 973 } = true ∧
      outOfLimits 2 .over { mv := 972 } = false ∧ outOfLimits 2 .current { ma := 2501 } = true ∧ outOfLimits 2 .current { ma := 2500 } = false ∧
      outOfLimits 2 .under { mv := 827, samples := 9 } = false) ∧
    (∀ d ∈ [2, 3, 4, 5, 6, 7, 9, 10, 11, 0], outOfLimits d .under { mv := 1 } = true) ∧
    (∀ d ∈ [2, 3, 4, 5], solo.power.pdOn.getLsbD d = true) := by decide +kernel

/-- Faults of PD1 and PD8, which are on; domains that an entry to SAFE SERVICE found on, switched on 5,999 µs or 6,000 µs before. -/
theorem witness_domains_one_and_eight : (∀ d ∈ [1, 8], solo.power.pdOn.getLsbD d = true ∧ outOfLimits d .under { mv := 1 } = true) ∧
    (∀ us ∈ [5999, 6000], ∀ d ∈ [5, 6, 11],
      let s := { unit .safeService .none with power := { (unit .safeService .none).power with ssPdOn := 0xFFF }, clk := { solo.clk with opUs := us } }
      s.power.state = .safeService ∧ s.power.pdOn.getLsbD d = true ∧ domainEnabled s d = true ∧ s.power.ssPdOn.getLsbD d = true ∧
        decide (s.clk.opUs < pdSince s d + 6000) = decide (us = 5999)) := by decide +kernel

/-- A commit that still writes through; a lane that runs and is not armed; a kick 50 ms after the last, and one 1 µs later. -/
theorem witness_late_laps_and_lanes :
    (let s := { solo with ctx := { solo.ctx with wtEndUs := 1 } }
     s.lap.running = .idle ∧ s.power.state ≠ .bringUp ∧ s.clk.opUs < s.ctx.wtEndUs) ∧
    (∀ l ∈ [Lane.a, .b], (wdOf solo l).armed = false ∧ solo.power.pdOn.getLsbD (if l = .a then 2 else 3) = true) ∧
    (∀ k ∈ [0, 1], let s := { armed with clk := { armed.clk with wallUs := 50000 + k } }
      decide ((wdOf s .a).lastUs + 50000 < s.clk.wallUs) = decide (k = 1)) := by decide +kernel

/-- The check in which SAFE SERVICE was entered, with both lanes armed before it. -/
theorem witness_one_check : (let s := { unit .safeService .none with power := { (unit .safeService .none).power with ssArmed := 3 } }
    s.power.state = .safeService ∧ s.power.ssEntryMs = opMs s ∧ s.power.ssArmed.getLsbD 0 = true ∧ s.power.ssArmed.getLsbD 1 = true) := by
  decide +kernel

/-- Temperatures on both sides of their limits, and a unit in OFF. -/
theorem witness_temperatures : 1100 < (1101 : Half).toInt ∧ (899 : Half).toInt ≤ 1100 ∧ (899 : Half).toInt < 900 ∧ 950 < (1101 : Half).toInt ∧
    (tempOf solo 1).warn = false ∧ (tempOf { solo with sens := { solo.sens with temps := [(1, { warn := true })] } } 1).warn = true ∧
    State.reset.power.state = .off := by decide +kernel

/-- A domain that is being switched on, and one that is not. -/
theorem witness_switched_on : (unit .bringUp .none).power.pdOn.getLsbD 4 = true ∧ domainEnabled (unit .bringUp .none) 4 = true ∧
    State.reset.power.pdOn.getLsbD 4 = false ∧ (2399 : Half).toNat < 2400 ∧ 2400 ≤ (2400 : Half).toNat := by decide +kernel

/-- An acceptance start, in which each of these is DEAD, and one that is none; a SYNC domain that is checked within 6 ms, and later. -/
theorem witness_acceptance_faults :
    (let s := { unit .bringUp .none with upd := { State.reset.upd with accepting := true } }
     s.power.state = .bringUp ∧ s.upd.accepting = true ∧ s.power.pdOn.getLsbD 2 = true) ∧ solo.upd.accepting = false ∧
    (∀ us ∈ [5999, 6000], ∀ st ∈ [OpState.run, .halt],
      let s := { unit st .none with clk := { solo.clk with opUs := us } }
      (s.power.state = .run ∨ s.power.state = .halt) ∧ s.power.pdOn.getLsbD 11 = true ∧ domainEnabled s 11 = true ∧
        decide (s.clk.opUs < pdSince s 11 + 6000) = decide (us = 5999)) := by decide +kernel

/-- A SOLO unit whose output pair 7 is a safety pair, commanded on or off. -/
def paired (cmd : BitVec 16) : State :=
  { solo with mld := { solo.mld with mould := some ({ douts := List.replicate 16 { spair := true } }, {}) }, dio := { solo.dio with cmd := cmd } }

theorem witness_SafetyAndReflexDriveTheOutputs : solo.power.state ≠ .bringUp ∧ solo.power.state ≠ .safeService ∧
    ((unit .safeService .none).power.state = .safeService ∧ (unit .safeService .none).power.pdOn.getLsbD 5 = true ∧
      (unit .safeService .none).saf.btpValid = false) ∧
    ({ unit .safeService .none with saf := { State.reset.saf with btpValid := true } } : State).saf.btpValid = true ∧
    (∀ first ∈ [true, false], ∀ ok ∈ [true, false],
      let s := { loads .p4 with saf := { State.reset.saf with btpOn := true, btpValid := true, btpFirst := first, mainsOk := ok } }
      s.power.state = .bringUp ∧ s.saf.btpOn = true ∧ s.power.pdOn.getLsbD 5 = true ∧ s.saf.btpValid = true ∧ s.saf.btpFirst = first) ∧
    ((loads .p4).saf.btpOn = false ∧ (loads .p4).power.pdLocked.getLsbD 5 = false ∧ (loads .p4).power.pdLocked.getLsbD 6 = false ∧
      domainEnabled (loads .p4) 6 = true) ∧
    (spairActs (paired 0xC000) 14 = true ∧ pairedCommand (paired 0xC000) 14 = true ∧ (paired 0xC000).sbx.held = false) ∧
    (spairActs (paired 0) 14 = true ∧ pairedCommand (paired 0) 14 = false ∧ (paired 0).saf.stuck.getLsbD 7 = false) ∧
    solo.rfx.active = false ∧
    (let s := { solo with rfx := { solo.rfx with active := true }
                          mld := { solo.mld with mould := some ({}, { reflex := some { nets := [{ out := 0 }] } }) } }
     s.rfx.active = true ∧ s.power.pdOn.getLsbD 5 = true ∧ (netsOf s)[0]? = some (0, { out := 0 })) := by decide +kernel

theorem witness_BolisWordsSpellTheirCommands : 12 ≤ (12 : BitVec 4).toNat ∧ 12 ≤ (15 : BitVec 4).toNat ∧
    ∀ op ∈ [(0x16 : Byte), 0x30, 0x97, 0xFE], op ∉ [(0x15 : Byte), 0x18, 0x22, 0x40, 0x96, 0x98, 0xC4, 0xFF] := by decide

/-- The first and the last bit of M, and the last of D. -/
theorem witness_LoadsCombineAndNest : executing runs = true ∧ readable .m = true ∧ (0 : BitVec 20).toNat < areaBits runs .m ∧
    (65535 : BitVec 20).toNat < areaBits runs .m ∧ (32767 : BitVec 20).toNat < areaBits runs .d ∧ runs.bu.badParity.contains (.m, 2047) = false ∧
    runs.bu.stack.length < 16 ∧
    (let e : BranchEntry := { ba := true, fc := false, op := 5 }
     ({ runs with bu := { runs.bu with stack := [e] } } : State).bu.stack = e :: []) := by decide +kernel

theorem witness_BitStoresEdgesAndJumps : executing runs = true ∧ Memory.wf runs = true ∧ writable .q = true ∧
    (8191 : BitVec 20).toNat < areaBits runs .q ∧ (let s := { runs with bx := { runs.bx with acc1 := 8191 } }
      (0 : BitVec 20).toNat + s.bx.acc1.toNat < areaBits s .q) ∧
    (16383 : BitVec 20).toNat < 16384 ∧ runs.bu.badParity.contains (.e, 511) = false ∧ jumpTarget runs 1 = true ∧
    jumpTarget runs (runs.bx.pos.offset + 1 + (-1 : BitVec 20).toInt) = true := by decide +kernel

/-- Out of range by one, and each of the other conditions. -/
theorem witness_FaultsAbandonTheLap : executing runs = true ∧ runs.lap.running = .lap ∧ runs.power.state = .run ∧
    (let s := { runs with bu := { runs.bu with badParity := [(.m, 0)] } }
     s.bu.badParity.contains (.m, (31 : BitVec 20).toNat / 32) = true ∧ imageArea .m = true) ∧
    (let s := { runs with bu := { runs.bu with stack := List.replicate 16 { ba := false, fc := false, op := 0 } } }
     16 ≤ s.bu.stack.length) ∧ runs.bu.stack = [] ∧
    (let s := { runs with bx := { runs.bx with acc1 := 8192 } }
     areaBits s .q ≤ (0 : BitVec 20).toNat + s.bx.acc1.toNat ∧ elemFits s .q 32 ((0 : BitVec 20).toNat + s.bx.acc1.toNat) = false ∧
     elemFits s .q 16 ((0 : BitVec 20).toNat + s.bx.acc1.toNat) = false ∧ funcExists s.bx.acc1.toNat s = false) ∧
    readable .i = true ∧ writable .i = false ∧
    (let s := { runs with bx := { runs.bx with level := 32 }, prog := { runs.prog with blocks := [{ typ := 1, number := 0 }] } }
     32 ≤ s.bx.level.toNat ∧ funcExists (0 : BitVec 20).toNat s = true ∧ funcExists s.bx.acc1.toNat s = true) ∧
    (let s := { runs with prog := { runs.prog with blocks := [{ trapDz := true }] } }
     s.bx.acc2 = 0 ∧ trapDz s = true) := by decide +kernel

/-- Bad words of image memory at the ends of areas, as every load, edge and element read meets them. -/
theorem witness_bad_words :
    (let s := { runs with bu := { runs.bu with badParity := [(.e, 511), (.m, 2047)] }, bx := { runs.bx with acc1 := 1, acc2 := 2047 } }
     (16383 : BitVec 20).toNat < 16384 ∧ s.bu.badParity.contains (.e, (16383 : BitVec 20).toNat / 32) = true ∧ imageArea .m = true ∧
      (65534 : BitVec 20).toNat + s.bx.acc1.toNat < areaBits s .m ∧ s.bu.badParity.contains (.m, ((65534 : BitVec 20).toNat + s.bx.acc1.toNat) / 32) = true ∧
      elemFits s .m 32 2047 = true ∧ s.bu.badParity.contains (.m, 2047 * 32 / 32) = true ∧ elemFits s .m 16 4095 = true ∧
      s.bu.badParity.contains (.m, 4095 * 16 / 32) = true ∧ elemFits s .m 32 ((2046 : BitVec 20).toNat + s.bx.acc1.toNat) = true ∧
      elemFits s .m 16 ((4094 : BitVec 20).toNat + s.bx.acc1.toNat) = true ∧ writable .m = true ∧
      elemFits s .m 32 ((1 : BitVec 20).toNat + s.bx.acc2.toNat) = false ∧ elemFits s .m 16 ((2049 : BitVec 20).toNat + s.bx.acc2.toNat) = false) := by
  decide +kernel

theorem witness_RejectedOperandsAreRefused : executing runs = true ∧ executing solo = false ∧ readable .e = false ∧ writable .i = false ∧
    areaBits runs .m ≤ (65536 : BitVec 20).toNat ∧ 16384 ≤ (16384 : BitVec 20).toNat ∧
    jumpTarget runs (runs.bx.pos.offset + 1 + (-2 : BitVec 20).toInt) = false ∧ elemFits runs .m 32 (2048 : BitVec 20).toNat = false ∧
    elemFits runs .m 16 (4096 : BitVec 20).toNat = false ∧ funcExists (5 : BitVec 20).toNat runs = false ∧
    sysBlockKnown (127 : BitVec 7).toNat = false := by decide +kernel

theorem witness_WordLoadsAndStores : executing runs = true ∧ readable .m = true ∧ writable .m = true ∧ Memory.wf runs = true ∧
    elemFits runs .m 32 2047 = true ∧ elemFits runs .m 16 4095 = true ∧ elemFits runs .d 32 1023 = true ∧
    runs.bu.badParity.contains (.m, 2047 * 32 / 32) = false ∧ areaBits runs .m = 65536 ∧ Area.q ≠ .m := by decide +kernel

theorem witness_IntegerArithmeticAndShifts : executing runs = true ∧ runs.bx.acc2 = 0 ∧ trapDz runs = false ∧
    ({ runs with bx := { runs.bx with acc2 := -1 } } : State).bx.acc2 ≠ 0 := by decide +kernel

/-- 1.0 and 2.0 compare; 0x7FC00000 is a NaN. -/
theorem witness_ComparisonsAndReals : executing runs = true ∧ realCmp 0x3F800000 0x40000000 = some (true, false) ∧
    realOf 0x7FC00000 = .nan ∧ realSpecial 0x7F800000 = true ∧ realOf 0x7F800000 ≠ .nan ∧
    (-16777216 ≤ (16777216 : Word).toInt ∧ (16777216 : Word).toInt ≤ 16777216) := by decide +kernel

/-- Whole numbers at the ends of the exact range; a finite value by a zero; infinities, a NaN, a negative value, a subnormal. -/
theorem witness_exact_reals : |(16777215 : Int)| + |(-1 : Int)| ≤ 16777216 ∧ |(4096 : Int) * (-4096)| ≤ 16777216 ∧ (4096 : Int) * (-4096) ≠ 0 ∧
    (0 : Int) * (-5) = 0 ∧ realDivZero 0x3F800000 0x80000000 = true ∧ realSpecial 0xFF800000 = true ∧ realOf 0xFF800000 ≠ .nan ∧
    realOf 0xBF800000 ≠ .nan ∧ (0xBF800000 : Word).getLsbD 31 = true ∧ (0xBF800000 : Word) &&& 0x7FFFFFFF ≠ 0 ∧ (1 : Word).toNat < 0x800000 := by
  decide +kernel

/-- R183: 2 / 3 of the nearest REAL32; 16,777,217 lies between two and goes to the even one; 1 / 3 + 1 / 3 is 2 / 3. -/
theorem test_real_nearest : realDiv 0x40000000 0x40400000 = 0x3F2AAAAB ∧ realOfUnsigned 16777217 = 0x4B800000 ∧
    realAdd (realDiv 0x3F800000 0x40400000) (realDiv 0x3F800000 0x40400000) = 0x3F2AAAAB := by decide +kernel

theorem witness_CallsNestAndReturn :
    (let s := { runs with prog := { runs.prog with blocks := [{ typ := 1, number := 7 }] }, bx := { runs.bx with level := 31, acc1 := 7 } }
     s.bx.level.toNat < 32 ∧ funcExists (7 : BitVec 20).toNat s = true ∧ funcExists s.bx.acc1.toNat s = true) ∧
    ({ runs with bx := { runs.bx with calls := [{}] } } : State).bx.calls = {} :: [] ∧ runs.bx.calls = [] ∧ runs.ctx.dueLeft = [] ∧
    ({ runs with ctx := { runs.ctx with dueLeft := [3] } } : State).ctx.dueLeft = 3 :: [] ∧
    ({ runs with bu := { runs.bu with ba := true } } : State).bu.ba = true ∧ runs.bu.ba = false := by decide +kernel

/-- A record at the end of D, and one out of place. -/
theorem witness_SystemBlocksAndTimers : executing runs = true ∧ Memory.wf runs = true ∧
    (let s := { runs with bx := { runs.bx with acc1 := 4060 } }
     let off := s.bx.acc1.toNat
     off % 4 = 0 ∧ off + 36 ≤ dBytes s ∧ (recWord s off).toNat < 2048 ∧ timerReserved s (recWord s off).toNat = false ∧
      (recWord s (off + 4)).toNat ≤ 1) ∧
    ({ runs with bx := { runs.bx with acc1 := 2 } } : State).bx.acc1.toNat % 4 ≠ 0 ∧
    (let t : Timer := { run := true, start := 0 }
     t.run = true ∧ t.q = false ∧ (5 : Word) - t.start < 6 ∧ (6 : Word) ≤ 6 - t.start) ∧
    (let t : Timer := { q := true }
     t.q = true ∧ t.run = false ∧ (1 : Word) ≠ 0) ∧ (({} : Timer).q = false ∧ ({} : Timer).inp = false) := by decide +kernel

/-- D with a number in the first word of a record and another in the second: no timer, no counter, no mode; a record that ends with D
and one that ends behind it. -/
theorem witness_turned_away :
    (let d := fun (a : Nat) (b : Byte) => ({ runs with data := [(a, b)] } : State)
     (d 1 0x10).bx.acc1.toNat + 32 ≤ dBytes (d 1 0x10) ∧ executing (d 1 0x10) = true ∧ (d 1 0x10).power.state = .run ∧
      4096 ≤ (recWord (d 1 0x10) 0).toNat ∧ 2048 ≤ (recWord (d 1 0x08) 0).toNat ∧ 1 < (recWord (d 4 2) 4).toNat) ∧
    (let s := { runs with bx := { runs.bx with acc1 := 4080 } }
     s.bx.acc1.toNat % 4 = 0 ∧ s.bx.acc1.toNat + 4 * 4 ≤ dBytes s ∧ dBytes s < s.bx.acc1.toNat + 4 * 5) := by decide +kernel

/-- Each request over the mailbox, with a right length and a wrong one. -/
theorem witness_RequestsAreCheckedInOrder : Safety.arrives .passed (asks 2 [0, 0, 0, 0] solo) =
      some (askedOf 2 (some (asked 2 [0, 0, 0, 0])) (asked 2 [0, 0, 0, 0]).body, (asked 2 [0, 0, 0, 0]).body,
        takePassed (asked 2 [0, 0, 0, 0]) [] (asks 2 [0, 0, 0, 0] solo)) ∧
    bodyLenOk (asked 2 [0, 0, 0, 0]).body = true ∧ bodyLenOk (asked 2 [0, 0]).body = false ∧
    leAt (asked 2 [0, 0, 0, 0]).body 8 1 = 0 ∧ modeArgs ((asked 2 [0, 0, 0, 0]).body.drop 8) = true ∧ solo.power.transit = .none ∧
    ({ solo with power := { solo.power with transit := .halt } } : State).power.transit ≠ .none := by decide +kernel

/-- The rule of the block itself: EDIT_LOAD of a package that a pacer holds staged, and LOAD_MOULD and EDIT_LOAD of one that no unit holds. -/
theorem witness_block_rules :
    (let s := { unit .run .pacer with upd := { State.reset.upd with edit := some { pkg := 7, total := 1, received := 1 } } }
     awake s = true ∧ editRules { asked := {}, body := (asked 6 (leBytes 4 7)).body } s = true ∧ bodyLenOk (asked 6 (leBytes 4 7)).body = true) ∧
    editRules { asked := {}, body := (asked 6 (leBytes 4 7)).body } solo = false ∧
    mouldRules { asked := {}, body := (asked 4 (leBytes 4 7)).body } solo = false := by decide +kernel

/-- The states of the mode requests; in each of them every request can come (`asks_come`). -/
theorem witness_ModeRequestsChangeTheState :
    (awake (unit .halt .none) = true ∧ (unit .halt .none).power.transit = .none ∧ (unit .halt .none).power.state = .halt) ∧
    (awake solo = true ∧ solo.power.transit = .none ∧ solo.power.role = .solo ∧ solo.upd.journal ≠ .patching ∧
      ∀ k < 5, solo.pan.stuck.getLsbD k = false) ∧
    (let s := { unit .run .leader with sby := { State.reset.sby with cond := .leading } }
     awake s = true ∧ s.edit.state ≠ .adopting) ∧
    (awake (unit .run .pacer) = true ∧ (unit .run .pacer).power.role = .pacer) ∧
    (awake (unit .safeService .none) = true) ∧
    (let s := { unit .halt .none with pan := { State.reset.pan with stuck := 4 } }
     awake s = true ∧ s.pan.stuck.getLsbD 2 = true) := by decide +kernel

/-- A leader whose baton has not passed yet. -/
theorem witness_baton_waits : (unit .run .leader).sbx.batonB = 0 ∧
    ({ unit .run .leader with sbx := { State.reset.sbx with batonB := 9 } } : State).sbx.batonB ≠ 0 := by decide +kernel

/-- A leader with its pacer in TRACKING, or with one that is being resynchronised. -/
def leads (track : Bool) (e : Edit) : State :=
  let s := unit .run .leader
  { s with sby := { s.sby with cond := .leading }, sbx := { s.sbx with rsActive := !track }, edit := e }

/-- A package of PKG 7 staged whole. -/
def whole7 : Staged := { pkg := 7, total := 1, received := 1, data := [0xAA] }

theorem witness_MouldsAndEditsAreLoadedTriedAndAdopted :
    (let s := { unit .halt .none with upd := { State.reset.upd with bankB := { pkg := some 7 } } }
     awake s = true ∧ s.power.state = .halt ∧ inactiveHolds 7 s = true ∧ inactiveHolds 8 s = false ∧ sameCode s.upd.active true s = false ∧
      s.mld.repress = none) ∧
    (∀ ok ∈ [true, false], ∀ failed ∈ [none, some 1], ∀ ks ∈ [[], [6]],
      let s := { solo with mld := { solo.mld with repress := some { mould := {}, rest := {}, todo := 4 :: ks, failed := failed } } }
      s.power.state = .run ∧ (ok = true ∨ ok = false) ∧ s.mld.repress.map Repress.todo = some (4 :: ks)) ∧
    (let s := { solo with upd := { solo.upd with edit := some whole7 } }
     awake s = true ∧ s.power.transit = .none ∧ stagedEdit 7 s = some whole7 ∧ stagedEdit 8 s = none ∧ s.edit.state = .none ∧
      appUnactivated s = false ∧ s.sbx.migrating = false ∧ (bankOf s.upd.active s).chain.length < 255 ∧
      (match editCheck whole7.data s with
        | .error e => decide (e.code = 1)
        | .ok _ => false) = true) ∧
    (∀ st ∈ [EditState.loaded, .trial, .ripe], let s := leads true { state := st }
      awake s = true ∧ tracking s = true ∧ s.edit.state = st ∧ dKib s ≤ 2048) ∧
    (tracking (leads false { state := .ripe }) = false ∧ awake (leads false { state := .ripe }) = true ∧ (leads false {}).sbx.rsActive = true) ∧
    (let s := { unit .halt .none with edit := { state := .loaded } }
     awake s = true ∧ tracking s = false ∧ s.edit.state = .loaded) ∧
    (let s := { solo with edit := { state := .loaded } }
     awake s = true ∧ s.power.role ≠ .pacer ∧ s.edit.state = .loaded) ∧
    ((leads true { state := .ripe }).edit.reports = [] ∧
      (let s := leads true { state := .loaded, aborted := true }
       s.edit.state = .loaded ∧ s.edit.aborted = true)) := by decide +kernel

/-- A pacer of which REPRESS may be asked; a leader whose pacer resynchronises, or that migrates, or that holds reports, in each state that
has a report. -/
theorem witness_pacer_and_reports :
    (let s := { unit .run .pacer with sby := { State.reset.sby with cond := .tracking }
                                      upd := { State.reset.upd with bankB := { pkg := some 7 } } }
     awake s = true ∧ s.power.role = .pacer ∧ s.sby.cond ≠ .resync ∧ s.edit.state ≠ .trial ∧ s.mld.repress = none ∧
      inactiveHolds 7 s = true) ∧
    (∀ e ∈ [({ state := .ripe } : Edit), { state := .trial }, { state := .loaded, aborted := true }, { state := .ripe, reports := [[1]] }],
      ∀ m ∈ [true, false],
      let s := { leads false e with sbx := { (leads false e).sbx with migrating := m } }
      awake s = true ∧ s.power.role = .leader ∧ s.sbx.migrating = m ∧ s.edit.reports = e.reports ∧
        (s.edit.state ∈ [.trial, .ripe] ∨ s.edit.state = .loaded ∧ s.edit.aborted = true)) := by decide +kernel

theorem witness_UpdatesAreStagedAppliedAndRestored :
    (∀ kind < 3, awake solo = true ∧ solo.upd.running = 0 ∧ inUse kind solo = false ∧ otherTotals kind solo + 16777216 ≤ 16777216 ∧
      (let s := setStaged kind { pkg := 7, total := 2048, received := 1024, data := [] } solo
       (stagedOf kind s).map Staged.received = some 1024 ∧ (stagedOf kind s).map Staged.pkg = some 7)) ∧
    (let s := { solo with upd := { solo.upd with sys := some whole7 } }
     completePkg 0 7 s = some whole7 ∧ completePkg 0 8 s = none ∧ completePkg 1 8 s = none ∧ s.upd.journal = .idle ∧ s.power.role ≠ .leader) ∧
    (let s := { solo with upd := { solo.upd with app := some whole7 } }
     completePkg 0 7 s = none ∧ completePkg 1 7 s = some whole7 ∧ s.edit.state = .none ∧ s.mld.repress = none ∧ s.upd.pending = false) ∧
    (let s := { solo with upd := { solo.upd with app := some whole7, running := 0xA, kind := 1 } }
     s.upd.app = some whole7 ∧ s.upd.running = 0xA ∧ s.upd.kind = 1 ∧ awake s = true) ∧
    (let op : Bytes := [3, 0x55, 0, 0] ++ leBytes 4 12287 ++ zeros 8
     let s := { solo with upd := { solo.upd with sys := some { data := zeros 928 ++ op ++ op }, journal := .patching, opsDone := 1, opsTotal := 2 } }
     ((s.upd.sys.bind fun st => ((payloadRecs st.data).getD [])[s.upd.opsDone]?).map OpRec.target) = some 12287 ∧ s.upd.prepared = none ∧
      s.upd.journal = .patching ∧ awake s = true ∧ s.upd.opsDone + 1 = s.upd.opsTotal) ∧
    (let s := { solo with upd := { solo.upd with sys := some whole7, journal := .committed } }
     completePkg 0 7 s = some whole7 ∧ s.upd.journal = .committed) ∧
    (let s := { solo with upd := { solo.upd with bankB := { pkg := some 7 }, manifest := flashRead 0x4000000 928 solo } }
     completePkg 0 7 s = none ∧ inactiveHolds 7 s = true ∧ bankSetOk true s = true ∧ s.upd.journal = .idle) ∧
    (let s := unit .dead .none
     awake s = true ∧ s.power.transit = .none ∧ s.power.state = .dead ∧ (zeros 512).length = 0 + (zeros 512).length ∧ (zeros 512).length < 928 ∧
      (let m := zeros 928
       let t := { s with upd := { s.upd with restore := some m, restoreOk := true } }
       t.upd.restore = some m ∧ t.upd.restoreOk = true ∧
        ∀ e ∈ manParts 0 m, 4096 * (extentOf e).1 ≤ 0 ∧ 0 + ([] : Bytes).length ≤ 4096 * ((extentOf e).1 + (extentOf e).2))) := by decide +kernel

/-- UPD_ACTIVATE of an application package: staged, in the bank and fitting or not; not staged; a manifest that fails its check. -/
theorem witness_application_activated :
    (let s := { solo with upd := { solo.upd with app := some whole7, bankB := { pkg := some 7 }, manifest := flashRead 0x4000000 928 solo } }
     completePkg 0 7 s = none ∧ (completePkg 1 7 s).isSome = true ∧ inactiveHolds 7 s = true ∧ bankSetOk true s = true ∧ s.upd.journal = .idle) ∧
    (let s := { solo with upd := { solo.upd with app := some whole7, bankB := { pkg := some 7 }, manifest := zeros 4 ++ [1] ++ zeros 923 } }
     (completePkg 1 7 s).isSome = true ∧ inactiveHolds 7 s = true ∧ bankSetOk true s = false) ∧
    completePkg 1 7 solo = none ∧ inactiveHolds 7 solo = false ∧ (zeros 928).length = 928 ∧
    (pkgBasic 0 none (zeros 928) (unit .dead .none)).isSome = true := by decide +kernel

/-- The last operation of a package: its image has the parts that the manifest names, or part 0 fails. -/
theorem witness_last_operation :
    let ops : Bytes := [3, 0x55, 0, 0] ++ leBytes 4 12287 ++ zeros 8
    let m := zeros 256 ++ (List.range 7).flatMap fun _ => zeros 48 ++ sha256 [] ++ zeros 16
    ∀ x ∈ [(m, none), (zeros 928, some 0)],
      let s := { solo with upd := { solo.upd with sys := some { data := x.1 ++ ops }, journal := .patching, opsTotal := 1 } }
      s.upd.opsDone + 1 = s.upd.opsTotal ∧ s.upd.journal = .patching ∧ s.upd.prepared = none ∧
        ((payloadRecs (x.1 ++ ops)).getD [])[s.upd.opsDone]?.isSome = true ∧ ∀ op ∈ (payloadRecs (x.1 ++ ops)).getD [],
          targetFailure (x.1 ++ ops) { s with flash := (writeSectors (4096 * op.target) (applyOp op s) s).flash } = x.2 := by decide +kernel

/-- The restore target is right: a manifest whose parts of no length have the hash of no bytes. -/
theorem witness_restore_target :
    (let m := zeros 256 ++ (List.range 7).flatMap fun _ => zeros 48 ++ sha256 [] ++ zeros 16
     targetFailure m (unit .dead .none) = none) := by decide +kernel

theorem witness_ServiceRequestsAnswer :
    (∀ log < 3, 1 < logSlots log ∧ slotStatus log (logSlot log 1 solo) ≠ 1) ∧
    (let time : Bytes := leBytes 2 2199 ++ [12, 31, 23, 59, 59, 2]
     time.length = 8 ∧ ∀ f ∈ [1, 2, 3, 5, 6, 7], rtcArgs ([BitVec.ofNat 8 f, 0, 0, 0] ++ time ++ time) = true) ∧
    (let s := setLb 2 { State.reset.lb.p2 with cfg := some {}, state := .busOff } solo
     lbThere s 2 = true ∧ (lbOf s 2).state = .busOff ∧ lbThere s 1 = false) ∧
    (∀ op ∈ [1, 2, 3, 4, 5, 6], tblArgs ([BitVec.ofNat 8 op, 1, 0, 0] ++ zeros 6 ++ [1, 0, 1] ++ zeros 7) = true) ∧
    crcStartArgs (0 :: (zeros 7 ++ [1] ++ zeros 7)) = true ∧
    solo.power.pdOn.getLsbD 6 = true ∧ solo.tbl.rehash = none ∧ solo.tbl.held = false ∧
    (({ solo with tbl := { solo.tbl with rehash := some (true, 0x5A5A) } } : State).tbl.rehash = some (true, 0x5A5A)) ∧
    (let s := { solo with mram := memWrite 0 mramSize [] (sjSlot 1) [7] }
     slotStatus 0 (logSlot 0 1 s) = 1 ∧ s.log.repeats = []) ∧
    (let s := { solo with power := { solo.power with pdOn := 0xFBF } }
     s.power.pdOn.getLsbD 6 = false ∧ awake s = true ∧ s.power.state = .run) ∧
    (let j : CrcJob := { job := 65535, state := 2 }
     let s := { solo with crc := { solo.crc with jobs := [j] } }
     (s.crc.jobs.find? fun j => decide (j.job = 65535)) = some j) ∧
    (List.replicate 32 (1 : Byte)).length = 32 ∧ (∃ x ∈ List.replicate 32 (1 : Byte), x ≠ 0) ∧
    ({ solo with mgt := { solo.mgt with svcOpen := true } } : State).mgt.svcOpen = true := by decide +kernel

/-- A frame of SVC that has begun, and none. -/
theorem witness_svc_begun : solo.mgt.svcBuf = [] ∧ ({ solo with mgt := { solo.mgt with svcBuf := [0x53] } } : State).mgt.svcBuf ≠ [] := by decide +kernel

/-- The empty frame of a type and the longest payload. -/
theorem witness_SyncFramesParseAsSent : 1 ≤ 6 ∧ 6 ≤ 6 ∧ 18446744073709551615 < 2 ^ 64 ∧ 65535 < 2 ^ 16 ∧ (zeros 4096).length ≤ 4096 ∧
    (zeros 0).length ≤ 4096 :=
  ⟨by decide, by decide, by norm_num, by norm_num, (List.length_replicate ..).le, by decide⟩

/-- A frame that a unit with PD11 on hears in RUN, as its checks read it. -/
def hears (typ : Nat) (lap : Nat) (p : Bytes) : Bool :=
  decide (syncParse (syncFrame typ true lap 0 p) = some { typ := typ, last := true, lap := lap, seg := 0, payload := p })

/-- A control frame of a code. -/
def hearsControl (code : Nat) : Bool := hears 6 9 (leBytes 4 code ++ [0, 0])

theorem witness_SyncFramesAreSentAndHeard : (solo.power.pdOn.getLsbD 11 = true ∧ solo.power.state = .run) ∧
    ((unit .safeService .none).power.pdOn.getLsbD 11 = true ∧ (unit .safeService .none).power.state = .safeService) ∧
    (unit .bringUp .none).power.state ≠ .run ∧ syncParse [1] = none ∧ hears 2 9 (zeros 8) = true ∧ hears 4 9 (zeros 16) = true ∧
    hears 5 9 ([0, 0, 0, 0, 7]) = true ∧ hears 3 9 (zeros 64) = true ∧ hearsControl 9 = true ∧
    (let s := leads true {}
     s.power.role = .leader ∧ tracking s = true ∧ s.sbx.ignoring = false) ∧
    (let s := { unit .run .pacer with sby := { State.reset.sby with cond := .resync } }
     s.power.role = .pacer ∧ s.sby.cond = .resync) ∧
    (let s := { unit .run .pacer with sby := { State.reset.sby with cond := .tracking } }
     s.sby.cond = .tracking ∧ s.lap.running = .idle ∧ s.edit.state = .none ∧ s.sbx.batonB = 0 ∧ s.sbx.lsQueue = [] ∧
      s.sbx.trialDue = false ∧ ¬ s.clk.opUs < s.ctx.wtEndUs) ∧
    (let s := { solo with mld := { solo.mld with mould := some ({ pair := true }, {}) } }
     partnerNamed s = true ∧ tracking s = false) := by decide +kernel

/-- A HELLO's payload: Tested Set, member, partner, RUN, role, running time, digest, no bridges. -/
def helloOf (member partner role ms : Nat) : Bytes :=
  zeros 4 ++ [BitVec.ofNat 8 member, BitVec.ofNat 8 partner, 3, BitVec.ofNat 8 role] ++ leBytes 4 ms ++ zeros 52

theorem witness_PairsFormPartAndTakeOver :
    (let s := { solo with mld := { solo.mld with mould := some ({ pair := true, member := 1, partner := 2 }, {}) } }
     hears 1 0 (helloOf 2 1 1 1000) = true ∧ (helloOf 2 1 1 1000).length = 64 ∧ partnerNamed s = true ∧
      leAt (helloOf 2 1 1 1000) 6 1 = 3 ∧ leAt (helloOf 2 1 1 1000) 7 1 = 1 ∧ runMs s + 100 < leAt (helloOf 2 1 1 1000) 8 4 ∧
      s.power.role = .solo ∧ s.sby.cond ≠ .refused) ∧
    (∀ c ∈ [Cond.unpaired, .resync, .detached, .migrating], let s := { unit .run .pacer with
        mld := { solo.mld with mould := some ({ pair := true, member := 1, partner := 2 }, {}) }, sby := { solo.sby with cond := c } }
      s.power.pdOn.getLsbD 11 = true ∧ s.power.role = .pacer ∧ s.sby.cond ∈ [.unpaired, .resync, .detached, .migrating] ∧
        partnerNamed s = true) ∧
    (leads true {}).power.role = .leader ∧
    (∀ c ∈ [1, 2, 3, 4], hearsControl c = true ∧ leAt (leBytes 4 c ++ [0, 0]) 0 1 = c) ∧
    (∀ a ∈ [1, 2], let s := { solo with sbx := { solo.sbx with admission := a } }
      s.power.role = .solo ∧ s.sbx.admission = a) ∧
    (∀ r ∈ [Role.leader, .pacer, .solo], let s := { unit .run r with sbx := { State.reset.sbx with lastRxUs := some 0 } }
      s.power.state = .run ∧ s.sbx.lastRxUs.isSome = true ∧ s.power.role = r) ∧
    solo.sbx.lastRxUs = none ∧
    (∀ seen ∈ [true, false], let s := { unit .run .pacer with sbx := { State.reset.sbx with probing := true, pxSeen := seen } }
      s.power.role = .pacer ∧ s.sbx.probing = true ∧ s.sbx.pxSeen = seen ∧ s.sby.cond ≠ .withdrawn) ∧
    ((leads false {}).power.role = .leader ∧ (leads false {}).sbx.rsActive = true) ∧
    (let s := { solo with
       mld := { solo.mld with mould := some ({ pair := true }, {}) }, sby := { solo.sby with window := true } }
     s.sby.window = true ∧ partnerNamed s = true ∧ s.sbx.everSeen = false ∧ s.sbx.missingSaid = false) := by decide +kernel

/-- Two SOLO units that have run equally long to 100 ms: this one of the higher member address, and of the lower. -/
theorem witness_two_solo : ∀ p ∈ [(2, 1), (1, 2)],
    let s := { solo with mld := { solo.mld with mould := some ({ pair := true, member := p.1, partner := p.2 }, {}) } }
    s.power.role = .solo ∧ partnerNamed s = true ∧ (ownPartner s < ownMember s ↔ p = (2, 1)) ∧
      ∀ ms ∈ [0, 100], hears 1 0 (helloOf p.2 p.1 1 ms) = true ∧ (helloOf p.2 p.1 1 ms).length = 64 ∧
        leAt (helloOf p.2 p.1 1 ms) 6 1 = 3 ∧ leAt (helloOf p.2 p.1 1 ms) 7 1 = 1 ∧
        leAt (helloOf p.2 p.1 1 ms) 8 4 ≤ runMs s + 100 ∧ runMs s ≤ leAt (helloOf p.2 p.1 1 ms) 8 4 + 100 := by decide +kernel

/-- A REFUSED unit, SOLO or pacer, hears a HELLO of its partner that is SOLO and has run longer; the admission lets it in, or refuses it
again. -/
theorem witness_refused_pair :
    (∀ r ∈ [Role.solo, .pacer], let s := { unit .run r with
        mld := { solo.mld with mould := some ({ pair := true, member := 1, partner := 2 }, {}) }, sby := { solo.sby with cond := .refused } }
      s.power.pdOn.getLsbD 11 = true ∧ s.power.state = .run ∧ s.power.role = r ∧ s.sby.cond = .refused ∧ s.sby.cond ≠ .tracking ∧
        s.sby.cond ≠ .withdrawn ∧ partnerNamed s = true ∧ hears 1 0 (helloOf 2 1 1 1000) = true ∧ leAt (helloOf 2 1 1 1000) 6 1 = 3 ∧
        leAt (helloOf 2 1 1 1000) 7 1 = 1 ∧ runMs s + 100 < leAt (helloOf 2 1 1 1000) 8 4 ∧ admissionOf (helloOf 2 1 1 1000) s ≠ 1 ∧
        admissionOf (helloOf 2 1 1 1000) s ≠ 2) ∧
    (let s := { unit .run .pacer with
        mld := { solo.mld with mould := some ({ pair := true, member := 1, partner := 2 }, {}) }, sby := { solo.sby with cond := .refused } }
     let h := (helloOf 2 1 1 1000).take 12 ++ pairDigest s ++ zeros 20
     h.length = 64 ∧ hears 1 0 h = true ∧ admissionOf h s = 1 ∧ s.power.role = .pacer ∧ s.sby.cond = .refused) := by decide +kernel

theorem witness_EditsCrossThePair :
    (∀ c ∈ [5, 6, 7, 8], hearsControl c = true) ∧
    (let s := { unit .run .pacer with sby := { State.reset.sby with cond := .tracking } }
     s.power.role = .pacer ∧ s.sby.cond ≠ .withdrawn ∧ s.edit.fwdBytes.length = 0) ∧
    (let f := syncFrame 6 false 9 0 (leBytes 4 5 ++ zeros 4 ++ [7])
     (syncParse f).map SyncIn.last = some false) ∧
    (let s := { leads true {} with edit := { State.reset.edit with peerWait := true } }
     s.edit.peerWait = true) ∧ solo.edit.peerWait = false ∧
    (∀ st ∈ [EditState.loaded, .trial, .ripe],
      let s := { unit .run .pacer with sby := { State.reset.sby with cond := .tracking }, edit := { state := st } }
      s.power.role = .pacer ∧ s.sby.cond = .tracking ∧ s.edit.state = st) ∧
    (∀ op ∈ [1, 2, 3, 4], hears 6 9 (leBytes 4 7 ++ [BitVec.ofNat 8 op, 0, 0, 0]) = true) ∧
    (let s := { solo with px := { solo.px with reportTo := [{ path := 1 }] } }
     s.px.reportTo = { path := 1 } :: []) := by decide +kernel

/-- A unit that samples with an ACQ section. -/
def samples (c : AcqCfg) : State :=
  { solo with
    mld := { solo.mld with mould := some ({}, { acq := some (c, {}) }) }
    queues := { solo.queues with rings := [(64, { log2 := 4 })] }
    acq := { solo.acq with sampling := true }
    mtr := { solo.mtr with running := true } }

/-- An ACQ section with every source on, a level of 100 that AI3 crosses upwards, a slope of 50, and channels with HYST 10. -/
def watches : AcqCfg :=
  { trigEn := 0x3F, aiCh := 3, aiLevel := 100, aiSlope := 50, aiDir := 0, ch := List.replicate 8 { hyst := 10, hcMax := 20, lowTh := 200 } }

/-- A window ends at a crossing of the zero (10 after a side below) and at its 5,000th sample; a sample of 40,000 saturates. -/
theorem witness_MainsWatchFollowsTheSamples :
    (let s := samples watches
     acqCfg s = some watches ∧ mwRuns s = true ∧ chEnabled watches 3 = true ∧ s.acq.hcRms.length = 8 ∧ awake s = true ∧
      (winOf s 3).n + 1 < 250 * (nth {} watches.ch 3).hcMax ∧
      (let w : Win := { n := 4999, sumSq := 4999 * 32768 * 32768, side := 1 }
       250 * (nth {} watches.ch 3).hcMax ≤ w.n + 1 ∧ (nth {} watches.ch 3).hyst ≤ (10 : Int) ∧ w.side = 1 ∧
        (w.sumSq + 32768 * 32768) * 65536 < (w.n + 1) * 2 ^ 48) ∧
      max (-32768) (min 32767 (40000 : Int)) ≠ 40000 ∧
      aiSources watches 99 100 = 4 ∧ aiSources watches 0 50 = 8 ∧ aiSources watches 0 49 = 0 ∧
      (aiSources watches 99 100 ||| s.acq.raised) &&& watches.trigEn ≠ 0 ∧ (aiSources watches 0 0 ||| s.acq.raised) &&& watches.trigEn = 0 ∧
      s.acq.capture = none ∧ (freeSets watches s).head? = some 0 ∧ (mwGroups watches).length ≤ freeSlots watches s) ∧
    (∀ r ∈ [(1 : BitVec 6), 2, 16, 32], let s := { samples watches with acq := { (samples watches).acq with raised := r } }
      (aiSources watches 0 0 ||| s.acq.raised) &&& watches.trigEn = r) ∧ chEnabled watches 4 = false ∧
    (let c : AcqCfg := { ring := 65, trigEn := 0x3F }
     let s := samples c
     freeSlots c s < (mwGroups c).length) ∧
    (let k : Capture := {}
     let s := { samples watches with acq := { (samples watches).acq with capture := some k } }
     s.acq.capture = some k ∧ (expandRuns [(watches.recLen * 2 ^ groupK watches k.nextGroup, {})] []).length =
       watches.recLen * 2 ^ groupK watches k.nextGroup ∧ (expandRuns [] []).length ≠ watches.recLen * 2 ^ groupK watches k.nextGroup) ∧
    mwRuns solo = false := by decide +kernel

/-- A record of 64 points of group A whose trigger comes 13 points after the sampling began, with a ring of its own. -/
theorem witness_record_stored :
    (let c : AcqCfg := { watches with pretrig := 50 }
     let k : Capture := { trigUs := 1052, sources := 5, armedUs := 1009 }
     let s0 := samples c
     let s := { s0 with acq := { s0.acq with capture := some k, startUs := 1000 }
                        queues := { s0.queues with rings := solo.queues.rings ++ [(64, { base := 16384, log2 := 4 })] } }
     acqCfg s = some c ∧ mwRuns s = true ∧ s.acq.capture = some k ∧ c.pretrig ≤ 100 ∧ Memory.wf s = true ∧
      (expandRuns [(c.recLen * 2 ^ groupK c k.nextGroup, {})] []).length = c.recLen * 2 ^ groupK c k.nextGroup ∧
      0xE00000 + k.set * setSize c + (192 + 12 * c.recLen) ≤ 16777216 ∧
      (∀ m ∈ [c.ring, 27, 2, 3], (ringGet s m).base + ringDepth (ringGet s m) ≤ 262144) ∧ c.ring ∉ [27, 2, 3] ∧
      (∀ m ∈ [27, 2, 3], (ringGet s m).base + ringDepth (ringGet s m) ≤ (ringGet s c.ring).base) ∧
      ringDepth (ringGet s c.ring) ≠ 0 ∧ ringFull (ringGet s c.ring) = false ∧ (ringGet s c.ring).waiting = [] ∧
      (let trig := c.recLen * c.pretrig / 100
       0 < c.recLen - (trig - min trig ((k.trigUs - s.acq.startUs - 1) / (4 * 2 ^ groupK c 0) -
         (k.armedUs - s.acq.startUs) / (4 * 2 ^ groupK c 0))))) := by decide +kernel

theorem witness_MeteringCountsAndKeepsItsCounts : solo.mtr.running = false ∧
    (acqCfg (samples {}) = some {} ∧ (samples {}).mtr.running = true ∧ (samples {}).mtr.frozen = false ∧
      (samples {}).power.pdOn.getLsbD 8 = true ∧ (samples {}).mtr.restored = none ∧ (samples {}).power.pdOn.getLsbD 1 = true ∧
      Memory.wf (samples {}) = true) := by decide +kernel

/-- A meter of gain 2 on AI0 and AI1 and 10 on AI6, at a time of day. -/
def meters (c : AcqCfg) (minute secUs : Nat) : State :=
  let s := samples { c with phaseEn := 1, ch := [{ gain := 0x40000000 }, { gain := 0x40000000 }, {}, {}, {}, {}, { gain := 0x41200000 }, {}] }
  { s with rtc := { s.rtc with osf := false, secUs := secUs, time := { s.rtc.time with hour := 1, minute := minute } } }

/-- Ticks of 2,500 samples and of one less; on an interval boundary and off it; the first tick after an outage. -/
theorem witness_metering_ticks : ({ runs := [{ count := 2400 }, { count := 100 }] } : TickSamples).count = 2500 ∧
    ({ runs := [{ count := 2499 }] } : TickSamples).count ≠ 2500 ∧
    (let s := meters {} 7 5000
     s.mtr.running = true ∧ s.mtr.frozen = false ∧ s.power.pdOn.getLsbD 8 = true ∧ mwPressing s = false ∧ s.mtr.restored = none ∧
      s.mtr.pendingSet = false ∧ boundaryDue false 2500 s = false ∧ tariffWanted false 2500 s ∈ [none, some s.mtr.tariff]) ∧
    (let s := meters {} 0 5000
     boundaryDue false 2500 s = true ∧ s.mtr.pendingSet = false ∧ s.mtr.logNext.toNat < 992 ∧ Memory.wf s = true) ∧
    (let s := { meters {} 7 0 with mtr := { (meters {} 7 0).mtr with restored := some { seq := 3 } } }
     s.mtr.restored ≠ none) ∧
    (let s := { meters {} 7 0 with mld := { (meters {} 7 0).mld with regions := [0, 0, 2] }
                                   mtr := { (meters {} 7 0).mtr with lastTick := { n := 2500, dur := 2500 } } }
     mwPressing s = true ∧ s.mtr.lastTick.n ≠ 0) := by decide +kernel

/-- A boundary at which the demand rises above the maximum, or does not, or counts not; a tariff that inputs 4 and 5, or P, ask for off
a boundary; the first tick after an outage, with the clock set since, or not. -/
theorem witness_demand_and_tariff :
    (∀ x ∈ [((0 : Byte), 0, true), (0, 2001, false), (4, 0, false)],
      let s0 := meters {} 0 5000
      let s := { s0 with mtr := { s0.mtr with md := [x.2.1, 0, 0, 0], interval := { s0.mtr.interval with eImp := 500000000, flags := x.1 } }
                         queues := solo.queues }
      boundaryDue false 2500 s = true ∧ s.mtr.pendingSet = false ∧ s.mtr.restored = none ∧ s.mtr.logNext.toNat < 992 ∧ Memory.wf s = true ∧
        ringFull (ringGet s 3) = false ∧ tariffWanted false 2500 s = none ∧
        decide (s.mtr.interval.flags &&& 0x6C = 0 ∧ nth 0 s.mtr.md s.mtr.interval.tariff <
          (s.mtr.interval.eImp + 100) / 1000 * 60 / (1000 * (mtrCfg s).demandMin)) = x.2.2) ∧
    (∀ src ∈ [(1 : Byte), 2],
      let s0 := meters {} 7 5000
      let s := { s0 with
        mld := { s0.mld with mould := s0.mld.mould.map fun m => (m.1, { m.2 with acq := m.2.acq.map fun x =>
          (x.1, { x.2 with tariffSrc := src, tariffDi := 4, tariffP := 8 }) }) }
        dio := { s0.dio with filt := 0x20 }, frz := { s0.frz with p := 0x200 } }
      (mtrCfg s).tariffSrc = src ∧ boundaryDue false 2500 s = false ∧ s.mtr.logNext.toNat < 992 ∧ Memory.wf s = true ∧
        tariffWanted false 2500 s = some 2 ∧ s.mtr.tariff ≠ 2) ∧
    (∀ set ∈ [true, false], let s0 := meters {} 7 0
      let s := { s0 with mtr := { s0.mtr with restored := some { seq := 3 }, pendingSet := set } }
      s.mtr.restored ≠ none ∧ s.mtr.pendingSet = set) := by decide +kernel

/-- The schedule: two entries of the day that the tick reaches, the later one counting. An outage of no whole interval, of three, and one
with the clock not trusted. A tick that PFW cuts on a boundary, and off it, with a tariff that P asks for or none. -/
theorem witness_schedule_and_outage :
    (let s0 := meters {} 7 5000
     let e : SchedEntry := { wday := 0xFF, hour := 1, minute := 7 }
     let s := { s0 with mld := { s0.mld with mould := s0.mld.mould.map fun m => (m.1, { m.2 with acq := m.2.acq.map fun x =>
       (x.1, { x.2 with sched := [{ e with tariff := 1 }, { e with tariff := 2 }, { e with wday := 0x7F, tariff := 3 }] }) }) } }
     (mtrCfg s).tariffSrc = 0 ∧ todUs s < 86400000000 ∧ s.rtc.osf = false ∧ tariffWanted false 2500 s = some 2) ∧
    (∀ x ∈ [((0 : Nat), true, (0 : Nat)), (1, true, 3), (1, false, 3)],
      let s0 := meters {} 7 0
      let sn : Snapshot := { seq := 3, rtc := { s0.rtc.time with hour := 0, minute := 7 } }
      let s := { s0 with
        rtc := { s0.rtc with lbv := !x.2.1, time := { s0.rtc.time with hour := x.1 } }
        mtr := { s0.mtr with restored := some sn } }
      s.mtr.restored = some sn ∧ s.mtr.pendingSet = false ∧ s.mtr.logNext.toNat < 991 ∧ Memory.wf s = true ∧ rtcTrusted s = x.2.1 ∧
        min (calMinutes s.rtc.time / (mtrCfg s).demandMin - calMinutes sn.rtc / (mtrCfg s).demandMin - 1) 65535 = x.2.2) ∧
    (∀ x ∈ [((0 : Nat), (0 : Byte)), (0, 2), (7, 0), (7, 2)],
      let s0 := meters {} x.1 5000
      let s := { s0 with mld := { s0.mld with mould := s0.mld.mould.map fun m => (m.1, { m.2 with acq := m.2.acq.map fun y =>
        (y.1, { y.2 with tariffSrc := x.2, tariffP := 8 }) }) }, frz := { s0.frz with p := 0x200 } }
      awake s = true ∧ s.power.pfw = false ∧ s.mtr.running = true ∧ s.mtr.frozen = false ∧ s.power.pdOn.getLsbD 8 = true ∧
        s.mtr.restored = none ∧ s.mtr.pendingSet = false ∧ boundaryDue true 2000 s = decide (x.1 = 0) ∧
        tariffWanted true 2000 s = (if x.2 = 2 then some 2 else none) ∧ s.mtr.tariff ≠ 2 ∧ Memory.wf s = true) := by decide +kernel

/-- R50, R265: 9,600 codes behind a gain of 2 are 6 V: 36 W, and 100 µWh in 10 ms. -/
theorem test_meter_tick : (let s := meterTick { runs := [{ count := 2500, a := { c0 := 9600, c1 := 9600 } }] } (meters {} 7 5000)
    s.mtr.power.headD 0 = 36 ∧ s.mtr.interval.eImp = 100 ∧ s.mtr.interval.eExp = 0) := by decide +kernel

/-- Snapshot 7, of nothing counted. -/
def snap7 : Bytes := snapBytes { seq := 7 }

/-- R273: a copy of it in MRAM is valid, and the other copy, never written, is not. -/
theorem witness_snapshot_valid : snapLength + 4 = snap7.length ∧ (snapParse snap7).map Snapshot.seq = some 7 ∧ snapParse (zeros 232) = none := by
  decide +kernel


/-- A unit with a controller at port 2, in a state. -/
def buses (c : CtrlCfg) (b : LbState) (x : LbCtx) : State :=
  setLx 2 x (setLb 2 { State.reset.lb.p2 with cfg := some c, state := b, tm := 1 } solo)

theorem witness_LandingBusPortsFollowTheirStates : lbThere solo 2 = false ∧
    (let s := { buses {} .listen {} with queues := { solo.queues with rings := [(64, { base := 16384, log2 := 4 })] } }
     let f : CanFrame := { sofAgo := 130 }
     lbThere s 2 = true ∧ (lbOf s 2).state = .listen ∧ (lbOf s 2).polarity = false ∧ (lbCfg s 2).beacon = false ∧ (lbCfg s 2).tmRole = 0 ∧
      lbTakes (lbCfg s 2) f = true ∧ f.id.toNat ≠ (lbCfg s 2).refId ∧ f.id.toNat ≠ (lbCfg s 2).refId + 1 ∧
      lbTakes (lbCfg s 2) { fdf := true } = false ∧ lbTakes { fd := true } { fdf := true } = true ∧
      ringFull (ringGet s 64) = false ∧ (lbCfg s 2).rxRing = 64 ∧ Memory.wf s = true ∧
      ∀ n ∈ [64, 2, 3], (ringGet s n).base + ringDepth (ringGet s n) ≤ 262144) ∧
    (let s := { buses {} .listen {} with queues := { solo.queues with rings := [(64, { log2 := 4, pi := 16 })] } }
     ringFull (ringGet s 64) = true) ∧
    (∀ b ∈ [LbState.absent, .pressing, .busOff, .recovering], (lbOf (buses {} b {}) 2).state ≠ .listen ∧ (lbOf (buses {} b {}) 2).state ≠ .normal) ∧
    -- POLARITY with and without a reference that waits.
    (∀ w ∈ [none, some ({} : CanFrame)], ∀ pol ∈ [true, false],
      let s := setLx 2 { refWait := w } (setLb 2 { (lbOf (buses {} .normal {}) 2) with polarity := pol } (buses {} .normal {}))
      lbThere s 2 = true ∧ (lbOf s 2).polarity = pol ∧ (lxOf s 2).refWait = w ∧ (lbOf s 2).tm = 1) ∧
    -- The counters at their limits.
    (∀ tec ∈ [247, 248], ∀ ph ∈ [SleepPhase.awake, .voting, .settling],
      let s := setLx 2 { phase := ph } (setLb 2 { (lbOf (buses {} .normal {}) 2) with tec := tec, recCnt := 254 } (buses {} .normal {}))
      lbThere s 2 = true ∧ (lbOf s 2).state = .normal ∧ (lxOf s 2).phase = ph ∧
        decide (255 < (lbOf s 2).tec + errDelta true .eight) = decide (tec = 248) ∧ min 255 ((lbOf s 2).recCnt + errDelta false .one) = 255) ∧
    (∀ b ∈ [LbState.listen, .normal, .busOff, .recovering],
      let s := { buses {} b {} with queues := { solo.queues with rings := [(65, { log2 := 4, pi := 1 })] } }
      lbThere s 2 = true ∧ (lbOf s 2).state = b ∧ ringFill (ringGet s 65) ≠ 0 ∧ ringDepth (ringGet s 65) ≠ 0 ∧ (lbOf s 2).polarity = false ∧
        (lxOf s 2).phase ≠ .settling ∧ (lxOf s 2).phase ≠ .asleep) := by decide +kernel

/-- Ring 23 of events with room, apart from the rings of records; a listening port and one that is pressing; a trace ring with room as a
frame is dropped. -/
def watched23 (b : LbState) : State :=
  { buses {} b {} with queues := { solo.queues with rings := [(2, { base := 256, log2 := 8 }), (3, { base := 1024, log2 := 10 }), (23, { log2 := 6 })] } }

theorem witness_port_events : (∀ b ∈ [LbState.listen, .pressing, .recovering, .normal], lbThere (watched23 b) 2 = true ∧ (lbOf (watched23 b) 2).state = b ∧
      ringDepth (ringGet (watched23 b) 23) ≠ 0 ∧ ringFull (ringGet (watched23 b) 23) = false ∧ (ringGet (watched23 b) 23).waiting = [] ∧
      Memory.wf (watched23 b) = true ∧ (∀ q ∈ [0, 1, 3], lbThere (watched23 b) q = false) ∧
      ringFill (ringGet (watched23 b) 3) + 8 ≤ ringDepth (ringGet (watched23 b) 3) ∧ (watched23 b).log.repeats = []) ∧
    Safety.ringApart 23 (watched23 .listen) := by
  refine ⟨by decide +kernel, by decide +kernel, ?_⟩
  have h : ([23, 2, 3].map fun n => ((ringGet (watched23 .listen) n).base, ringDepth (ringGet (watched23 .listen) n))) =
      [(0, 64), (256, 256), (1024, 1024)] := by decide +kernel
  simp only [List.map_cons, List.map_nil, List.cons.injEq, Prod.mk.injEq] at h
  rintro a ⟨n, hn, h1, h2⟩ ⟨m, hm, h3, h4⟩
  simp only [List.mem_cons, List.not_mem_nil, or_false] at hn hm
  subst hn
  rcases hm with rfl | rfl <;> omega

/-- A TX ring whose descriptor names a COMMAND frame, or none, on the Beacon bus of a pacer; a master under POLARITY that defers. -/
theorem witness_barred_frames :
    (∀ k ∈ [(0x80, true), (0xE4, true), (0xE5, false)],
      let s0 := { setLb 2 { (lbOf solo 2) with cfg := some { beacon := true }, state := .normal } (unit .run .pacer) with
        queues := { solo.queues with rings := [(65, { log2 := 4, pi := 1 })] } }
      let s := dataWrite (txBuffer 2 0) (frameBytes 0 (commandFrame (k.1 - 0x80) 1 0 0 0))
        (dataWrite 0x400000 (descBytes { buf := BitVec.ofNat 32 (txBuffer 2 0), len := 80 }) s0)
      let f := frameOf (dataRead (txBuffer 2 0) 80 s)
      s.power.role = .pacer ∧ (lbCfg s 2).beacon = true ∧ ringFill (ringGet s 65) ≠ 0 ∧
        f.ide = false ∧ f.id.toNat = k.1 ∧ isCommandFrame f = k.2) ∧
    (let s := setLx 2 { refWait := some {}, refRxUs := some 0 } (setLb 2 { (lbOf (buses { tmRole := 1 } .normal {}) 2) with polarity := true }
       (buses { tmRole := 1 } .normal {}))
     deferring s 2 = true ∧ (lxOf s 2).refWait = some {} ∧ (lbOf s 2).polarity = true) := by decide +kernel

/-- R116, R287: a frame that waits to be sent keeps its buffer. -/
theorem test_tx_buffer_kept : (let s0 := { solo with queues := { solo.queues with rings := [(65, { log2 := 4, pi := 1 })] } }
    let named := fun (x : Nat) => dataWrite 0x400000 (descBytes { buf := BitVec.ofNat 32 (txBuffer 2 x), len := 80 }) s0
    txFree 2 65 (named 0) = txBuffer 2 1 ∧ txFree 2 65 (named 1) = 0xDFF800 + 960) := by decide +kernel

/-- A NORMAL bus with a receive error counter on both sides of its limit; references of both identifiers, and one of a standard frame
that is too short; a Beacon node in its slot and out of it. -/
theorem witness_normal_reception :
    (∀ rec ∈ [0, 1, 127, 128],
      let s := setLb 2 { (lbOf (buses { fd := true, dataRate := 1, rxRing := 64 } .normal {}) 2) with recCnt := rec } (buses { fd := true, dataRate := 1, rxRing := 64 } .normal {})
      lbThere s 2 = true ∧ (lbOf s 2).state = .normal ∧ lbTakes (lbCfg s 2) { fdf := true, brs := true } = true ∧ (lbOf s 2).recCnt = rec ∧
        (lbCfg s 2).rxRing ∉ [2, 3, 23]) ∧
    (∀ k ∈ [0, 1], let f : CanFrame := { id := BitVec.ofNat 29 (({} : CtrlCfg).refId + k), fdf := true, dlc := 10, data := zeros 16 }
      f.ide = false ∧ (f.id.toNat = ({} : CtrlCfg).refId ∨ f.id.toNat = ({} : CtrlCfg).refId + 1) ∧ 16 ≤ f.data.length) ∧
    ({ ide := true } : CanFrame).ide = true ∧
    (∀ k ∈ [0, 9999999], let f : CanFrame := { id := 0x181, dlc := 8, data := zeros 8 }
      let s := { buses { beacon := true, fd := true, guardMs := 10 } .normal { wake := 3, sleepEndUs := 20000000, nodes := [(1, { present := true, voter := true })] } with
        clk := { solo.clk with opUs := 20002000 + k } }
      (lbCfg s 2).beacon = true ∧ beaconNode f = some 1 ∧ outsideSlot s 2 (s.clk.opUs - f.sofAgo) f = decide (k ≠ 0)) := by decide +kernel

/-- A bus with a reference heard, or none, at 1 s. -/
def hearsRef (c : CtrlCfg) (tm : BitVec 3) (x : LbCtx) : State :=
  let s := buses c .normal x
  { setLb 2 { (lbOf s 2) with tm := tm } s with clk := { solo.clk with opUs := 1000000 } }

theorem witness_LImageAndTimeMaster :
    (let e : FilterEntry := { id := 7, mask := 0x7FF, width := 8, lIndex := 2040 }
     let f : CanFrame := { id := 7, dlc := 1, data := [0xA5] }
     let s := buses {} .normal { table := [e], inbox := [(0, f)] }
     let s2 := setLx 1 { table := [e], inbox := [(1, f)] } (setLb 1 { cfg := some {}, state := .normal } { s with clk := { s.clk with opUs := 1 } })
     s.power.pdOn.getLsbD 3 = true ∧ s.power.state = .run ∧ (lxOf s 2).table = [e] ∧ (lxOf s 2).nextTable = none ∧
      (lxOf s2 1).table = [e] ∧ (lxOf s2 1).inbox = [(1, f)] ∧ (lxOf s2 2).inbox = [(0, f)] ∧ s2.clk.opUs = 1 ∧
      (lxOf s 2).inbox = [(0, f)] ∧ filterMatch e f = true ∧ e.live = false ∧ e.lIndex + e.width ≤ 2048 ∧
      e.srcBit + e.width ≤ 8 * f.data.length ∧ 8 * ({} : CanFrame).data.length < e.srcBit + e.width ∧
      (lxOf s 0).table = [] ∧ (lxOf s 1).table = [] ∧ (lxOf s 3).table = [] ∧ (lxOf s 3).nextTable = none) ∧
    (unit .bringUp .none).power.state ≠ .run := by decide +kernel

/-- A LIVE entry at the end of L's frame bits. -/
theorem witness_live_entry : (let e : FilterEntry := { id := 7, mask := 0x7FF, width := 8, lIndex := 2039, live := true, timeout := 1 }
    let f : CanFrame := { id := 7, dlc := 1, data := [0xA5] }
    filterMatch e f = true ∧ e.live = true ∧ e.lIndex + e.width < 2048 ∧ e.srcBit + e.width ≤ 8 * f.data.length ∧
      1001 > 0 + 1000 * e.timeout ∧ 1000 ≤ 0 + 1000 * e.timeout) := by decide

/-- The main time master: deferring to a foreign reference, skipping, sending, starting anew, and continuing a time. -/
theorem witness_main_time_master :
    (∀ tm ∈ [(0 : BitVec 3), 1, 4], ∀ skip ∈ [0, 1], ∀ foreign ∈ [true, false], ∀ ref ∈ [none, some 900000, some 990000],
      ∀ seen ∈ [none, some 980000],
      let s := hearsRef { tmRole := 1, fd := true } tm { skip := skip, foreign := foreign, refRxUs := ref, refAnyUs := ref, seenBndUs := seen }
      lbThere s 2 = true ∧ (lbOf s 2).state = .normal ∧ (lbOf s 2).polarity = false ∧ (lxOf s 2).phase ≠ .asleep ∧ (lbCfg s 2).fd = true ∧
        s.power.runEntryUs + 1000000 ≤ s.clk.opUs ∧ s.power.state = .run ∧ s.power.role ≠ .pacer ∧ (lbOf s 2).tm = tm ∧
        (lxOf s 2).skip = skip ∧ (lxOf s 2).foreign = foreign ∧ (lbCfg s 2).tmRole = 1 ∧
        refWithin s 2 3 (lxOf s 2).refRxUs = decide (ref = some 990000) ∧
        refWithin s 2 3 (lxOf s 2).refAnyUs = decide (ref = some 990000) ∧ (lxOf s 2).seenBndUs = seen) ∧
    (let s := hearsRef { tmRole := 1 } 0 { refRxUs := some 900000, refAnyUs := some 990000, seenBndUs := some 980000 }
     refWithin s 2 3 (lxOf s 2).refRxUs = false ∧ refWithin s 2 3 (lxOf s 2).refAnyUs = true) := by decide +kernel

/-- A backup before and from the fourth cycle without a reference (10 ms a cycle), and one that never heard any. -/
theorem witness_backup_time_master :
    (∀ tm ∈ [(2 : BitVec 3), 3], ∀ ref ∈ [none, some 960000, some 970000], let s := hearsRef { tmRole := 2, fd := true } tm { refRxBndUs := ref }
      (lbCfg s 2).tmRole ≠ 0 ∧ (lbCfg s 2).tmRole ≠ 1 ∧ (lbOf s 2).tm = tm ∧ (lxOf s 2).refRxBndUs = ref ∧ cyclesSince s 2 960000 = 4 ∧
        cyclesSince s 2 970000 = 3) := by decide +kernel

/-- A Beacon bus whose scheduler may start a test: the mains stand, the recharge time is over, the clock is trusted. -/
def tests : State :=
  let s := buses { beacon := true } .normal { plan := { enable := true, testHour := 0 }, nodes := [(100, { present := true })] }
  { s with
    mld := { s.mld with mould := some ({}, { acq := some ({}, {}) }) }
    acq := { s.acq with w := 0x1000000000 }
    clk := { s.clk with opUs := 86400000000 }
    rtc := { s.rtc with osf := false, time := { s.rtc.time with year := 2001 } }
    lb := { s.lb with mainsOkUs := some 0, tests := [(356, { dtDay := 100 })] } }

theorem witness_BeaconNodesAreWatchedAndTested : isBeacon tests 2 = true ∧ (1 : BitVec 7).toNat ≤ 100 ∧ (100 : BitVec 7).toNat ≤ 100 ∧
    lbHears tests 2 = true ∧ lbHears (buses { beacon := true } .busOff {}) 2 = false ∧
    (let r : RunningTest := { id := 9, startUs := 5, length := 30 }
     let f := { buses { beacon := true } .normal { nodes := [(100, { present := true }), (101, { missing := true })] } with
       lb := { (buses { beacon := true } .normal { nodes := [(100, { present := true }), (101, { missing := true })] }).lb with
         tests := [(356, { ft := [r] }), (355, { dt := some r })] } }
     isBeacon f 2 = true ∧ lbHears f 2 = true ∧ (nodeOf f 2 100).present = true ∧ (nodeOf f 2 1).present = false ∧
      (nodeOf f 2 101).missing = true ∧ (lxOf f 2).phase = .awake ∧ testHold f 2 = true ∧
      r ∈ (testsOf f 2 100).ft ∧ (testsOf f 2 100).ft = [r] ∧ (testsOf f 2 100).dt = none ∧
      (testsOf f 2 99).ft = [] ∧ (testsOf f 2 99).dt = some r ∧ (∀ z ∈ (testsOf f 2 99).ft, z.id ≠ r.id) ∧
      ({ ftDay := 1 } : NodeTests) ≠ {} ∧ ([356].Pairwise (· < ·)) ∧ f.clk.opUs < r.startUs + 1000000 * r.length + 120000000 ∧
      r.startUs + 1000000 * r.length + 120000000 ≤ tests.clk.opUs ∧ r.startUs + 60000000 * r.length + 120000000 ≤ tests.clk.opUs) ∧
    testHold tests 2 = false ∧ tests.rtc.time.hour = (lxOf tests 2).plan.testHour ∧ (nodeOf tests 2 100).present = true ∧
    (lxOf tests 2).nodes.map Prod.fst = [100] ∧ (testsOf tests 2 100).dt = none ∧
    ftDue tests 2 100 = true ∧ dtDue tests 2 100 = false ∧ (schedOf tests 2).nextTestId + 1 ≠ 0 ∧
    (let s := { tests with lb := { tests.lb with tests := [(356, { ftDay := 366 })] } }
     testHold s 2 = false ∧ ftDue s 2 100 = false ∧ dtDue s 2 100 = true ∧ underDuration s 2 = [] ∧ 0 < (lxOf s 2).plan.sharePct) := by
  decide +kernel

/-- A pacer that hears a report of a test it has not noted, and a leader that does. -/
theorem witness_report_of_unknown_test : (∀ role ∈ [Role.pacer, .leader], let r : RunningTest := { id := 9 }
    let s := { tests with power := { tests.power with role := role } }
    isBeacon s 2 = true ∧ lbHears s 2 = true ∧ s.power.role = role ∧ (∀ z ∈ (testsOf s 2 100).ft, z.id ≠ r.id) ∧
      (testsOf s 2 100).dt = none ∧ (s.lb.tests.map Prod.fst).Pairwise (· < ·)) := by decide +kernel

/-- Three nodes of which a function test, or a duration test of the second group, is due, and a TX ring with room; a node that missed
its wake slot. -/
def testsOfThree (ft dt : Nat) (x : LbCtx) : State :=
  let r : NodeTests := { ftDay := ft, dtDay := dt }
  { tests with
    lb := { (setLx 2 { x with plan := { enable := true, testHour := 0, sharePct := 30 }
                              nodes := [(3, { present := true }), (7, { present := true, voter := true }), (100, { present := true })] }
               (setLb 2 { (lbOf tests 2) with cfg := some { beacon := true, txRing := 65 } } tests)).lb with
      tests := [(259, r), (263, r), (356, r)] }
    queues := { tests.queues with rings := [(65, { base := 20000, log2 := 6, policy := 1 })] } }

theorem witness_several_nodes :
    (let s := testsOfThree 0 365 {}
     isBeacon s 2 = true ∧ testHold s 2 = false ∧ (lbCfg s 2).txRing = 65 ∧ underDuration s 2 = [] ∧
      ((List.range 100).map (· + 1)).filter (fun k => (nodeOf s 2 k).present && (testsOf s 2 k).dt.isNone && ftDue s 2 k) = [3, 7, 100] ∧
      ((List.range 100).map (· + 1)).filter (fun k => (nodeOf s 2 k).present && dtDue s 2 k) = [] ∧
      ringFill (ringGet s 65) + 3 ≤ ringDepth (ringGet s 65) ∧ (ringGet s 65).waiting = [] ∧ ringDescs 65 s = [] ∧
      ∀ k ∈ [65, 2, 3], (ringGet s k).base + ringDepth (ringGet s k) ≤ 262144) ∧
    (let s := testsOfThree 366 0 {}
     ((List.range 100).map (· + 1)).filter (fun k => (nodeOf s 2 k).present && (testsOf s 2 k).dt.isNone && ftDue s 2 k) = [] ∧
      ((List.range 100).map (· + 1)).filter (fun k => (nodeOf s 2 k).present && dtDue s 2 k) = [3, 7, 100] ∧ (schedOf s 2).started = false ∧
      (100 + (lxOf s 2).plan.sharePct - 1) / (lxOf s 2).plan.sharePct = 4 ∧ (3 - 1) % 4 = (0 + 2) % 4 ∧ (100 - 1) % 4 = 3) ∧
    (let s := testsOfThree 366 365 { wake := 3 }
     (lxOf s 2).phase = .awake ∧ (lxOf s 2).wake = 3 ∧ (nodeOf s 2 7).voter = true ∧ (nodeOf s 2 7).heard = false ∧ s.power.role ≠ .pacer) := by
  decide +kernel

/-- In it the TX ring stands apart from the rings of records. -/
theorem witness_tx_ring_apart : Safety.ringApart 65 (testsOfThree 0 365 {}) := by
  refine ⟨by decide +kernel, ?_⟩
  have h : ∀ n ∈ [2, 3], ringDepth (ringGet (testsOfThree 0 365 {}) n) = 0 := by decide +kernel
  rintro a - ⟨n, hn, h1, h2⟩
  have := h n hn
  omega

/-- MAINS_FAIL rises with the next sample, while a test runs on the one Beacon bus. -/
def failing : State :=
  let s := buses { beacon := true } .normal { nodes := [(100, { present := true })] }
  { s with
    mld := { s.mld with mould := some ({}, { acq := some ({ phaseEn := 1, failN := 1, ch := List.replicate 8 { lowTh := 200 } }, {}) }) }
    acq := { s.acq with sampling := true, wins := [(0, { n := 4999 })] }
    queues := { s.queues with rings := [(65, { log2 := 4 })] }
    lb := { s.lb with tests := [(356, { ft := [{ id := 9 }] })] } }

theorem witness_mains_fail : ((acqCfg failing).map fun c => chEnabled c 0) = some true ∧ mwRuns failing = true ∧ failing.acq.w.getLsbD 35 = false ∧
    after false (fun t => t.acq.w.getLsbD 35) (exec (.halfCycleEnd 0 [0] 0 0 []) failing) = true ∧ failing.power.state = .run ∧
    failing.power.role = .solo ∧ isBeacon failing 2 = true ∧ (∀ q ∈ [0, 1, 3], isBeacon failing q = false) ∧
    (((List.range 100).map (· + 1)).filter fun k => (testsOf failing 2 k).dt.isSome || !(testsOf failing 2 k).ft.isEmpty) = [100] ∧
    (lbCfg failing 2).txRing = 65 ∧ ringFill (ringGet failing 65) + 1 ≤ ringDepth (ringGet failing 65) ∧ Memory.wf failing = true ∧
    ringDescs 65 failing = [] ∧ (∀ k ∈ [65, 2, 3, 17], (ringGet failing k).base + ringDepth (ringGet failing k) ≤ 262144) ∧
    Safety.ringApart 65 failing := by
  refine ⟨by decide +kernel, by decide +kernel, by decide +kernel, by decide +kernel, by decide +kernel, by decide +kernel, by decide +kernel,
    by decide +kernel, by decide +kernel, by decide +kernel, by decide +kernel, by decide +kernel, by decide +kernel, by decide +kernel,
    by decide +kernel, ?_⟩
  have h : ∀ n ∈ [2, 3], ringDepth (ringGet failing n) = 0 := by decide +kernel
  rintro a - ⟨n, hn, h1, h2⟩
  have := h n hn
  omega

/-- A Beacon bus in a sleep phase, with one node that votes; it can send, or POLARITY stands. -/
def sleeps (ph : SleepPhase) (wake : BitVec 2) (pol : Bool := false) : State :=
  let s := buses { beacon := true, fd := true } .normal { phase := ph, wake := wake, nodes := [(1, { present := true, voter := true })] }
  setLb 2 { (lbOf s 2) with polarity := pol } s

theorem witness_BeaconBusesSleepAndWake : (∀ ph ∈ [SleepPhase.awake, .voting, .settling, .asleep], ∀ pol ∈ [true, false],
      let s := sleeps ph 0 pol
      isBeacon s 2 = true ∧ (lxOf s 2).phase = ph ∧ lbHears s 2 = true ∧ (lbCfg s 2).fd = true ∧ (lbOf s 2).state = .normal ∧
        (lbOf s 2).polarity = pol) ∧
    leAt [2] 0 1 = 2 ∧ leAt [1] 0 1 = 1 ∧ (nodesWhere (sleeps .voting 0) 2 fun y => y.voter && !y.voted) = [1] ∧
    ringFill (ringGet (sleeps .settling 0) 65) = 0 ∧
    (let s := { sleeps .settling 0 with queues := { solo.queues with rings := [(65, { log2 := 4, pi := 1 })] } }
     ringFill (ringGet s (lbCfg s 2).txRing) ≠ 0) ∧
    (let s := sleeps .awake 3
     (lxOf s 2).wake = 3 ∧ (nodeOf s 2 1).voter = true ∧ (nodeOf s 2 1).heard = false) := by decide +kernel

/-- A unit with a link at ports BB0 to BB2 and the tables of `t`. -/
def links (t : Tbl) (ring : BitVec 2) (role : Byte) : State :=
  { solo with
    tbl := t
    sw := { solo.sw with ring := ring, cfg := { solo.sw.cfg with mrpRole := role }, ports := [{ up := true }, { up := true }, { up := true }, {}, {}] } }

theorem witness_BackboneFramesAreLearnedAndFlooded :
    (let frame : Bytes := List.replicate 6 0xFF ++ [2, 0, 0, 0, 0, 1, 0x08, 0x06] ++ zeros 50
     let s := links {} 0 0
     let f : Inner := { innerOf frame with vid := 1 }
     s.power.pdOn.getLsbD 6 = true ∧ s.sw.cfg.portEn.getLsbD 2 = true ∧ (nth {} s.sw.ports 2).up = true ∧ (nth {} s.sw.ports 3).up = false ∧
      64 ≤ frame.length ∧ frame.length ≤ 1522 ∧ isPause f = false ∧ forMrp s 2 f = false ∧ forwards s 2 (isMrp f) = true ∧
      (∀ k < 4, k < s.sw.ports.length ∧ (nth {} s.sw.ports k).queues.length = 8) ∧ (nth 0 s.sw.cfg.tcMap f.pcp).toNat < 8 ∧
      (vlanOf s f.vid).isSome = true ∧ vlanOf s 2 = none ∧ isGroup (srcOf f) = false ∧ etherType f ≠ 0x0800 ∧ etherType f ≠ 0x86DD ∧
      isBroadcast (dstOf f) = true ∧ s.sw.config ≠ 1 ∧ dstOf f ≠ s.sw.mac ∧ srcOf f ≠ s.sw.mac ∧ s.tbl.held = false ∧ s.tbl.rehash = none ∧
      macFind (pipeOf (portPipe 2) s) (srcOf f) 1 = none ∧ (macFree (pipeOf (portPipe 2) s) (srcOf f) 1).isSome = true) ∧
    -- An MRP frame of the own domain at a client's ring port, and one at a blocked ring port.
    (let frame : Bytes := [1, 0x15, 0x4E, 0, 0, 2, 2, 0, 0, 0, 0, 1, 0x88, 0xE3, 0, 1, 1, 18, 0, 1] ++ zeros 16 ++ zeros 28
     let s := { links {} 0 1 with sw := { (links {} 0 1).sw with cfg := { (links {} 0 1).sw.cfg with mrpDomain := zeros 16 } } }
     64 ≤ frame.length ∧ isMrp (innerOf frame) = true ∧ forMrp s 0 (innerOf frame) = true ∧ s.sw.cfg.mrpRole = 1 ∧ linked s 1 = true ∧
      forMrp (links {} 0 0) 0 (innerOf frame) = false ∧ (nth [] (nth {} s.sw.ports 1).queues 7).length < 64) ∧
    forwards (links {} 0 0) 3 false = false ∧
    -- A frame to the unit's own address, with and without a token.
    (let s := { links {} 0 0 with sw := { (links {} 0 0).sw with mac := 5 } }
     let frame : Bytes := zeros 5 ++ [5, 2, 0, 0, 0, 0, 1, 0x08, 0x06] ++ zeros 50
     let f : Inner := { innerOf frame with vid := 1 }
     dstOf f = s.sw.mac ∧ ((vlanOf s 1).map fun v => v.member.getLsbD 4) = some true ∧ 1000000 ≤ (cpuRefill { s with sw := { s.sw with tokens := 9000000 } }).sw.tokens ∧
      (cpuRefill { s with sw := { s.sw with tokens := 0 } }).sw.tokens < 1000000 ∧ ringFull (ringGet s 6) = false) ∧
    (let s := { links {} 0 0 with queues := { solo.queues with rings := [(7, { log2 := 4, pi := 1 })] } }
     (ringTake 7 s).2.isSome = true ∧ (ringTake 7 (links {} 0 0)).2 = none) := by decide +kernel

/-- A unicast of station 9 at BB2 to station 5: station 5 known or not; station 9 known at its port, at another, as a static entry, or its
bucket full; the flood limit not imposed. -/
theorem witness_unicasts :
    (let frame : Bytes := zeros 5 ++ [5] ++ zeros 5 ++ [9, 0x08, 0x06] ++ zeros 50
     let f : Inner := { innerOf frame with vid := 1 }
     let at_ := fun (mac : BitVec 48) => 4 * bucketOf 0 mac 1
     let e : MacEntry := { mac := 9, vid := 1, ports := 1, valid := true }
     let full := (List.range 4).map fun k => (at_ 9 + k, { e with mac := 100 })
     dstOf f = 5 ∧ srcOf f = 9 ∧ isGroup (dstOf f) = false ∧ isGroup (srcOf f) = false ∧ etherType f = 0x0806 ∧ portPipe 2 = false ∧
      (let s := links { e := { macs := [(at_ 5, { e with mac := 5 })] } } 0 0
       dstOf f ≠ s.sw.mac ∧ srcOf f ≠ s.sw.mac ∧ s.sw.flood = false ∧ macFind (pipeOf false s) 5 1 = some (at_ 5)) ∧
      (∀ b ∈ [true, false], let s := links { e := { macs := [(at_ 9, { e with static := b })] } } 0 0
       macFind (pipeOf false s) 9 1 = some (at_ 9) ∧ (macAt (pipeOf false s) (at_ 9)).static = b) ∧
      (let s := links { e := { macs := full } } 0 0
       macFind (pipeOf false s) 9 1 = none ∧ macFree (pipeOf false s) 9 1 = none ∧ s.tbl.held = false ∧ s.tbl.rehash = none)) := by decide +kernel

/-- A multicast with no entry, with one that names the CPU port, and with one that does not, and a broadcast; a token, and none. -/
theorem witness_multicasts : (∀ ports ∈ [none, some (0x12 : BitVec 5), some 0x02], ∀ tokens ∈ [0, 3000000],
    let group : Bytes := [1, 0, 0x5E, 0, 0, 9]
    let frame : Bytes := group ++ zeros 5 ++ [9, 0x08, 0x06] ++ zeros 50
    let f : Inner := { innerOf frame with vid := 1 }
    let i := 4 * bucketOf 0 0x01005E000009 1
    let macs : Sparse MacEntry := match ports with
      | none => []
      | some m => [(i, { mac := 0x01005E000009, vid := 1, ports := m, valid := true, static := true })]
    let s0 := links { e := { macs := macs } } 0 0
    let s := { s0 with sw := { s0.sw with tokens := tokens } }
    64 ≤ frame.length ∧ isGroup (dstOf f) = true ∧ isBroadcast (dstOf f) = false ∧ dstOf f ≠ s.sw.mac ∧ s.sw.flood = false ∧
      etherType f = 0x0806 ∧ (vlanOf s 1).map Vlan.member = some 0x1F ∧
      (macFind (pipeOf false s) (dstOf f) 1).map (fun k => (macAt (pipeOf false s) k).ports) = ports ∧
      decide ((cpuRefill s).sw.tokens < 1000000) = decide (tokens = 0) ∧ ringFull (ringGet s 6) = false ∧ (ringGet s 6).policy = 0) := by
  decide +kernel

/-- An IPv4 frame to 10.0.9.5 that a prefix of each action matches. -/
theorem witness_prefix_actions : ∀ act ∈ [(0 : Byte), 1, 2, 3],
    (let frame : Bytes := List.replicate 6 0xFF ++ zeros 5 ++ [9, 0x08, 0x00] ++ zeros 16 ++ [10, 0, 9, 5] ++ zeros 30
     let f : Inner := { innerOf frame with vid := 1 }
     let s := links { e := { pfx := [(7, { typ := 1, key := 0x0A000900, mask := 0xFFFFFF00, action := act, cls := 13 })] } } 0 0
     pfxFind (pipeOf false s) f = some 7 ∧ (pfxAt (pipeOf false s) 7).action = act ∧ isBroadcast (dstOf f) = true ∧ dstOf f ≠ s.sw.mac ∧
      (ringFull (ringGet s 6) = false ∧ (ringGet s 6).policy = 0 ∧ (ringGet s 6).waiting = [])) := by decide +kernel

/-- An MRP_LinkChange of the own domain at a manager. -/
theorem witness_link_change : (let frame : Bytes := [1, 0x15, 0x4E, 0, 0, 2, 2, 0, 0, 0, 0, 1, 0x88, 0xE3, 0, 1, 4, 12] ++ zeros 12 ++ [1, 18, 0, 1] ++ zeros 30
    let s := { links {} 0 2 with sw := { (links {} 0 2).sw with cfg := { (links {} 0 2).sw.cfg with mrpDomain := zeros 16 } } }
    64 ≤ frame.length ∧ forMrp s 0 (innerOf frame) = true ∧ nth 0 (innerOf frame).body 16 = 4 ∧ s.sw.cfg.mrpRole = 2 ∧ linked s 0 = true ∧
      linked s 1 = true) := by decide +kernel

theorem witness_BackboneTablesLinksAndRing :
    (let e : MacEntry := { mac := 5, vid := 1, ports := 1, valid := true, age := 299 }
     let s := links { e := { macs := [(3, e)] }, w := { macs := [(4, { e with perr := true })] } } 2 2
     s.power.pdOn.getLsbD 6 = true ∧ ((pipeOf false s).macs.map Prod.fst).Nodup ∧ ((pipeOf true s).macs.map Prod.fst).Nodup ∧ s.tbl.held = false ∧
      s.tbl.rehash = none ∧ (nth {} s.sw.ports 0).up = true ∧ (nth {} s.sw.ports 3).up = false ∧ s.sw.cfg.portEn.getLsbD 3 = true ∧
      (macAt (pipeOf true s) 4).perr = true ∧ (macAt (pipeOf true s) 4).mac ≠ 0 ∧ s.sw.cfg.mrpRole = 2 ∧ s.sw.ring = 2 ∧ awake s = true) ∧
    (let s := { solo with power := { solo.power with pdOn := 0xFBF } }
     s.power.pdOn.getLsbD 6 = false ∧ awake s = true) ∧
    (let s := links { w := { macs := [(4, { perr := true }), (9, { mac := 5, perr := true })] } } 0 0
     (macAt (pipeOf true s) 4).perr = true ∧ (macAt (pipeOf true s) 4).mac = 0 ∧ ((pipeOf true s).macs.map Prod.fst).Pairwise (· < ·)) ∧
    (∀ sp ∈ [(0 : Byte), 1], let s : State := { solo with sw := { solo.sw with cfg := { solo.sw.cfg with speed := [sp, 0, 0, 0] }, ports := [{}, {}, {}, {}, {}] } }
     (nth {} s.sw.ports 0).up = false ∧ s.sw.cfg.portEn.getLsbD 0 = true ∧ nth 0 s.sw.cfg.speed 0 = sp) ∧
    (∀ p < 2, linked (links {} 2 2) p = true ∧ p < (links {} 2 2).sw.ports.length ∧ 7 < (nth {} (links {} 2 2).sw.ports p).queues.length ∧
      (nth [] (nth {} (links {} 2 2).sw.ports p).queues 7).length < 64) ∧
    (links {} 1 2).sw.ring = 1 ∧ (links {} 0 0).sw.cfg.mrpRole = 0 ∧
    (let s := { links { held := true, owner := 1 } 0 0 with clk := { solo.clk with wallUs := 1000000 } }
     s.tbl.held = true ∧ s.tbl.owner = 1 ∧ (2 : Byte) ≠ 1 ∧ s.tbl.owner ≠ 2 ∧ s.tbl.e.queue = [] ∧ s.tbl.w.queue = [] ∧
      s.tbl.heldUs + 1000000 ≤ s.clk.wallUs ∧ s.tbl.dmaJob = none) ∧
    (let j : DmaJob := { addr := 16777200, first := 8191, count := 1 }
     let s := links { held := true, owner := 1, dmaJob := some j } 0 0
     s.tbl.dmaJob = some j ∧ Memory.wf s = true ∧ j.addr + 16 ≤ 16777216 ∧ j.table = false ∧ j.dir = false) ∧
    (let s := links { pfxWait := some (zeros 32) } 0 0
     s.tbl.pfxWait = some (zeros 32) ∧ s.tbl.held = false ∧ s.tbl.rehash = none) := by decide +kernel

/-- A DMA job that writes a table, or reads one, of which nothing or all has moved; a command of TBL.CMD during a REHASH. -/
theorem witness_dma_and_busy :
    (∀ table ∈ [true, false], ∀ dir ∈ [true, false], ∀ done ∈ [0, 1],
      let j : DmaJob := { table := table, dir := dir, first := 7, count := 1, done := done }
      let e : MacEntry := { mac := 5, vid := 1, ports := 1, valid := true }
      let s := links { held := true, owner := 2, dmaJob := some j, e := { macs := [(3, e), (9, e)] } } 0 0
      s.tbl.dmaJob = some j ∧ s.power.pdOn.getLsbD 6 = true ∧ j.count = 1 ∧ Memory.wf s = true ∧ decide (j.count ≤ j.done) = decide (done = 1) ∧
        ((pipeOf j.pipe s).macs.map Prod.fst).Pairwise (· < ·) ∧ ((pipeOf j.pipe s).pfx.map Prod.fst).Pairwise (· < ·)) ∧
    (let s := links { rehash := some (true, 5) } 0 0
     s.tbl.rehash.isSome = true ∧ awake s = true ∧ tblBad (tblWritten 0x15 s) = false) := by decide +kernel

/-- A client whose ring port loses its link, or gets one, while the other one stands or does not; a DMA job beside Lane A's states. -/
theorem witness_client_link : (∀ b ∈ [true, false],
      let s := { links {} 0 1 with sw := { (links {} 0 1).sw with ports := [{ up := b }, { up := true }, {}, {}, {}] } }
      s.sw.cfg.mrpRole = 1 ∧ (nth {} s.sw.ports 0).up = b ∧ linked s 1 = true ∧ linked s 0 = b ∧ s.sw.cfg.portEn.getLsbD 0 = true) ∧
    (links {} 0 2).sw.cfg.mrpRole ≠ 1 ∧ (0x7FFFF0 + 16 ≤ 0x800000 ∧ 0x820100 ≤ 0x820100) := by decide +kernel

/-- A unit with a Mould of plant 9, member 5, which publishes and subscribes, and a trusted clock. -/
def plant (st : OpState) (role : Role) : State :=
  let s := unit st role
  { s with
    mld := { s.mld with mould := some ({ plantId := 9, member := 5, subs := [{ member := 3, block := 1, ring := 70 }] }, {}) }
    rtc := { s.rtc with osf := false }
    queues := { s.queues with rings := [(70, { log2 := 4, policy := 2 })] } }

theorem witness_PlantExchangeFramesAreSent : 255 < 256 ∧ (zeros 1200).length ≤ 1200 ∧
    (∀ st ∈ [OpState.run, .halt], let s := plant st .solo
      s.power.pdOn.getLsbD 6 = true ∧ awake s = true ∧ s.power.state ≠ .dead ∧ s.px.muted = false ∧ (mouldOf s).isSome = true ∧
        s.rtc.osf = false ∧ s.rtc.lbv = false ∧ s.power.state = st) ∧
    (mouldOf State.reset).isSome = false ∧ (unit .bringUp .none).power.state ≠ .halt ∧
    (let s := { plant .run .solo with px := { solo.px with members := [(3, { present := true })] } }
     (memberOf s 3).present = true ∧ (s.px.members.map Prod.fst).Pairwise (· < ·) ∧ (memberOf s 4).present = false) ∧
    ownIp (plant .run .solo) = 0x0A000905 ∧ NetAddr.v4 0x0A000905 ≠ .v6 ownIp6 ∧ payloadLenOk 1 24 (zeros 24) = true ∧
    payloadLenOk 8 1200 (zeros 1200) = true ∧ payloadLenOk 1 25 (zeros 25) = false := by decide +kernel

/-- An address other than the unit's own exists, whatever it is (log 3). -/
theorem witness_arp_foreign : ∃ m : BitVec 48, m ≠ Config.ownMac := ⟨Config.ownMac + 1, by bv_omega⟩

/-- A neighbour's messages on the CPU port's PVID, and on another VLAN. -/
theorem witness_cpu_pvid : ({} : NetSrc).vid = nth 1 (plant .run .solo).sw.cfg.pvid 4 ∧
    ({ vid := 2 } : NetSrc).vid ≠ nth 1 (plant .run .solo).sw.cfg.pvid 4 := by decide +kernel

/-- A frame of type TYP from a member, as a unit of plant 9 takes it. -/
def px (typ member flags : Nat) (p : Bytes) : Bytes :=
  withCrcBe (beBytes 2 0x5058 ++ [1, BitVec.ofNat 8 typ, BitVec.ofNat 8 member, BitVec.ofNat 8 flags] ++ beBytes 2 9 ++ beBytes 4 77 ++
    beBytes 2 p.length ++ zeros 2 ++ p)

/-- Is it taken as that? -/
def pxTaken (typ member : Nat) (p : Bytes) : Bool :=
  (pxParse (px typ member 1 p) (plant .run .solo)).any fun x => decide (x.typ = typ) && decide (x.member.toNat = member) && decide (x.payload = p)

theorem witness_PlantExchangeFramesAreTakenIn :
    pxTaken 1 3 (zeros 24) = true ∧ pxTaken 1 5 (zeros 24) = true ∧ pxTaken 2 3 (zeros 28) = true ∧ pxTaken 6 3 (zeros 16) = true ∧
    pxTaken 3 3 ([3, 1, 0, 0, 0, 0, 0, 0] ++ [0xAA]) = true ∧ pxParse [0] (plant .run .solo) = none ∧ NetAddr.v4 0 ∉ solo.px.blocked ∧ ({} : NetSrc).toPort = 41720 ∧
    ({ toPort := 502 } : NetSrc).toPort ≠ 41720 ∧
    ownMember (plant .run .solo) = 5 ∧
    (((subsOf (plant .run .solo)).filter fun e => decide (e.2.member = 3) && decide (e.2.block = 1)).map Prod.fst) = [0] ∧
    (memberOf (plant .run .solo) 3).imgSeq = none ∧
    (let s := { plant .run .solo with px := { solo.px with members := [(3, { imgSeq := some 4 })] } }
     (memberOf s 3).imgSeq.map BitVec.toNat = some 4) ∧ ((5 : Word) - 4).toNat = 1 ∧ ((5 : Word) - 5).toNat = 0 ∧
    (let s := { plant .run .solo with px := { solo.px with pubSeen := [(3, 4, 0)] } }
     (∃ y ∈ s.px.pubSeen, y.1 = 3 ∧ y.2.1 ≠ 3 ∧ s.clk.wallUs < y.2.2 + 1000000) ∧ s.px.pubSaidUs = none) ∧
    (let s := { plant .run .pacer with sbx := { solo.sbx with probing := true } }
     s.power.role = .pacer ∧ s.sbx.probing = true) ∧
    (let s := { unit .bringUp .none with px := { solo.px with preId := 0x905 } }
     mouldOf s = none ∧ (pxParse (px 3 3 0 (zeros 9)) s).isSome = true ∧ ownMember s = 5) := by decide +kernel

/-- A request's payload without its MAC: GET_STATE under role 1 with session 0. -/
def pxAsk : Bytes := [1, 0, 0, 0] ++ zeros 4 ++ (asked 1 []).body

/-- Its header. -/
def pxHead : Bytes := beBytes 2 0x5058 ++ [1, 4, 3, 1] ++ beBytes 2 9 ++ beBytes 4 77 ++ beBytes 2 (pxAsk.length + 32) ++ zeros 2

/-- It is authentic under the key of that role, so far unused; under another key it is not. -/
theorem witness_PlantRequestsAreAuthenticated :
    (let key : Bytes := List.replicate 32 7
     let s := { plant .run .solo with mgt := { solo.mgt with keyOperate := some key } }
     let p := pxAsk ++ hmacSha256 key (pxHead ++ pxAsk)
     (pxParse (px 4 3 1 p) s).map (fun x => authFailure x s) = some none ∧
      (pxParse (px 4 3 1 (pxAsk ++ zeros 32)) s).map (fun x => authFailure x s) = some (some 2) ∧
      pxTaken 4 3 p = true ∧ 48 ≤ p.length ∧ (p.drop 1).take 3 = zeros 3 ∧ bodyLenOk (asked 1 []).body = true ∧
      bodyLenOk (asked 1 [1]).body = false ∧ roleKey s 1 = some key ∧ BitVec.ofNat 32 (beAt p 4 4) = s.px.session ∧
      slice p 8 (p.length - 40) = (asked 1 []).body ∧ sget 0 (memberOf s 3).reqSeq 1 = 0 ∧ rolePermits 1 1 = true ∧
      rolePermits 0 2 = false ∧ s.px.last = [] ∧ s.px.pending.length < 16 ∧ s.px.authFails = []) ∧
    (∀ st ∈ [OpState.run, .halt, .safeService, .bringUp], awake (plant st .none) = true) ∧
    (let s := plant .bringUp .none
     s.upd.journal ≠ .patching ∧ ({ s with upd := { s.upd with journal := .patching } } : State).upd.journal = .patching) ∧
    (let l : LastReq := { member := 3, role := 1, seq := 1, mac := zeros 32, response := [1] }
     let s := { plant .run .solo with px := { solo.px with last := [l] } }
     (s.px.last.find? fun l => l.member = 3 ∧ l.role = 1 ∧ l.seq = 1 ∧ l.mac = zeros 32) = some l ∧ l.response ≠ []) ∧
    (List.replicate 16 (asked 1 [])).length = 16 := by decide +kernel

/-- Sixteen requests of PX wait; those of SVC are not counted. -/
theorem witness_sixteen_wait : ((List.replicate 16 { asked 1 [] with path := 2 } ++ [{ asked 1 [] with path := 0 }]).filter
    fun (y : PendingReq) => decide (y.path ≠ 0)).length = 16 := by decide

/-- A Modbus request of a function code at an address. -/
def adu (fc : Nat) (rest : Bytes) : Bytes := [0, 1, 0, 0] ++ beBytes 2 (rest.length + 2) ++ [5, BitVec.ofNat 8 fc] ++ rest

theorem witness_ModbusReadsTheCopyAndQueuesWrites :
    (let s := { plant .run .solo with px := { solo.px with conns := [{ id := 0, src := {} }], mbEn := 3 } }
     (s.power.pdOn.getLsbD 6 = true ∧ s.px.muted = false ∧ s.px.conns.length < 8 ∧ ownMember s = 5) ∧
      ({ toPort := 502 } : NetSrc).toPort = 502 ∧ ({} : NetSrc).toPort ≠ 502 ∧ 8 ≤ (List.replicate 8 ({ id := 0, src := {} } : MbConn)).length ∧
      (s.px.conns.any fun c => decide (c.id = 0)) = true ∧ s.px.mbEn.getLsbD 0 = true ∧ s.px.mbEn.getLsbD 1 = true ∧ 65535 + 1 ≤ 65536 ∧
      2 * (2047 + 1) ≤ dBytes s) ∧
    (∀ fc ∈ [1, 2, 3, 4, 5, 6, 15, 16, 23, 7], let a := adu fc [0, 0, 0, 1]
      8 ≤ a.length ∧ beAt a 2 2 = 0 ∧ beAt a 4 2 + 6 = a.length ∧ nth 0 a 6 = 5 ∧ beAt a 7 1 = fc) ∧
    (adu 1 [0, 0, 0, 1]).length = 12 := by decide +kernel

theorem witness_ClockCountsAndItsFlagsFollow :
    (let t : Time := { year := 2199, month := 12, day := 31, hour := 23, minute := 59, second := 59 }
     timeOk t = true ∧ timeOk {} = true ∧ solo.rtc.osf = true ∧ awake solo = true ∧ awake State.reset = false ∧
      ({ solo with rtc := { solo.rtc with osf := false } } : State).rtc.osf = false) ∧
    (let s := { unit .bringUp .none with power := { (unit .bringUp .none).power with startKind := .wake } }
     s.power.state = .bringUp ∧ s.power.startKind = .wake ∧ opMs s = s.power.t0Us / 1000 ∧ awake s = true) ∧
    (solo.power.state ≠ .bringUp ∧ (unit .hibernate .none).power.state = .hibernate ∧ (unit .hibernate .none).upd.journal ≠ .patching) := by decide +kernel

theorem witness_KeysAreDeliveredOrJudged : awake solo = true ∧ awake State.reset = false ∧ solo.pan.pressed.getLsbD 20 = false ∧
    solo.pan.entry = none ∧ (restOf solo).isSome = true ∧ (serviceSequence solo).isSome = true ∧ solo.pan.lockoutEnd = none ∧
    (let s := { solo with pan := { solo.pan with pressed := 0x11, stuck := 1, locked := true, entry := some [3] } }
     s.pan.pressed.getLsbD 0 = true ∧ s.pan.stuck.getLsbD 0 = true ∧ s.pan.stuck.getLsbD 4 = false ∧ s.pan.entry = some (3 :: []) ∧
      s.pan.locked = true) ∧
    -32767 ≤ solo.pan.enc ∧ solo.pan.enc ≤ 32767 ∧
    (let s := { solo with queues := { solo.queues with rings := [(29, { log2 := 4, hwm := 0 })] } }
     ringDepth (ringGet s 29) ≠ 0 ∧ ringFull (ringGet s 29) = false ∧ (ringGet s 29).hwm = 0 ∧ (ringGet s 29).waiting = [] ∧
      Memory.wf s = true ∧ ringAddr (ringGet s 29) (ringGet s 29).pi + 16 ≤ 16777216) ∧
    (let s := { unit .safeService .none with pan := { solo.pan with pressed := 0x11 } }
     serviceSequence s = none ∧ s.pan.pressed.getLsbD 0 = true ∧ s.pan.pressed.getLsbD 4 = true ∧ s.mgt.svcOpen = false) := by decide +kernel

/-- Key 3 is the sequence of a panel whose digest is of the salt and that key. -/
theorem witness_hurdle_sequence :
    (let c : PanelCfg := { salt := [1], svcDig := sha256 [1, 3], userDig := sha256 [1, 4] }
     [3].length = c.svcLen ∧ sha256 (c.salt ++ [3].map (BitVec.ofNat 8)) = c.svcDig ∧
      sha256 (c.salt ++ [3].map (BitVec.ofNat 8)) ≠ c.userDig) := by decide +kernel

/-! ### Images that pass their checks. The key is the neutral point, under which the neutral point with scalar 0 signs everything. -/

/-- The key. -/
def openKey : Bytes := 1 :: zeros 31

/-- A Mould of the mandatory sections, which enables no optional domain, and its DIGEST. -/
def mouldBytes : Bytes := leBytes 48 0x5D4CEC33E9685A02C2BBBC164B8AE2480000000000000000000000010008000300000003000002F4008000014A4D4C44 ++
  leBytes 48 0x16D1EDD6FA245D9D4D3729B9025349790 ++
  leBytes 48 0x1CBB53E50000002000000100000000010000000000000000000000000000000000000000000000000000000000000000 ++
  leBytes 48 0x5C42716F0000010800000140000000048C28B28A0000000800000130000000038C28B28A000000080000012000000002 ++
  leBytes 48 0xCFCCAD5200000028000002C00000000B0AEA9B3B00000058000002600000000A48674BC7000000040000025000000005 ++
  leBytes 48 0x5000933457A3400000004000002F00000000C ++
  leBytes 48 0x10000000100000001000000000000000000000000000000000000000000000000000000000000000000000000 ++
  leBytes 48 0x10000000100000001000000010000000100000001000000010000000100000001000000010000000100000001 ++
  leBytes 48 0x10000000100000001000000010000000100000001000000010000000100000001000000010000000100000001 ++
  leBytes 48 0xA0000000A0000000A0000000A0000000A0000000A0000000A00000000000100000001000000010000000100000001 ++
  leBytes 48 0xA0000000A0000000A0000000A0000000A0000000A0000000A0000000A0000000A0000 ++
  zeros 48 ++
  leBytes 48 0x101801E141400000000000000000000000000000000000000000000000000000000000000000000 ++
  zeros 48 ++
  leBytes 48 0x70605040302010000000000000200010000000000000000000000000000000000000000000000000000000000000000 ++
  leBytes 36 0x400000000000000001F1E1D1C1B1A191817161514131211100F0E0D0C0B0A0908
def mouldDigest : Bytes := slice mouldBytes 32 32

/-- The manifest of an application of that Mould, a program of one NOP and a Safe Service table of one byte. -/
def appManifest : Bytes := leBytes 48 0xF3D36253C31BE0998E66E3ED62477736000000000000030900000000000000030000000300000220030100014A414D46 ++
  leBytes 48 0x13B62F2FCDFC410B9DAD672F87050BD50 ++
  zeros 48 ++
  leBytes 48 0x12336B0633747CD8BB2F67BA99714F3DD82B1CAE3C3AA31AB7FC74585960A0726 ++
  zeros 48 ++
  leBytes 48 0x1000000002F4000000010000011000000000000000000000000000000000 ++
  leBytes 48 0x6D1EDD6FA245D9D4D3729B90253497905D4CEC33E9685A02C2BBBC164B8AE24800000000000000000000000000000000 ++
  leBytes 48 0x20000000001400000001000001110000000000000000000002F400000000 ++
  leBytes 48 0x25A472D6A749CFAB52C1BE26E295CF9C5F2EB285D7A2F3A718507CD21DC4442300000000000000000000000000000000 ++
  leBytes 48 0x3000000000010000000100000112000000000000000000000014000002F4 ++
  leBytes 48 0x1DA0AF1706A31185763837B33F1D90782C0A78BBE644A59C987AB3FF9C0B346E00000000000000000000000000000000 ++
  leBytes 16 0x100000308

/-- The program. -/
def nopProgram : Bytes := leBytes 20 0x73014EDA000000000000000100000000

/-- An edit that replaces MAIN by two NOPs. -/
def editBytes : Bytes := leBytes 48 0x5F2EB285D7A2F3A718507CD21DC444230000000000000000000000020000000000000000000000E0000100014A454454 ++
  leBytes 48 0x2554CCC0603DAFCC727EB5DEAA1AA134796B7CABD8AC22270192736DDA2B718025A472D6A749CFAB52C1BE26E295CF9C ++
  leBytes 48 0x16454428F2EFA9ADA1DC367C09BF9677ADB92EE689154D5BC5E27198E1A6D6461 ++
  zeros 48 ++
  leBytes 32 0x5D313B33000000000000000200000000000000C800000002

theorem mould_sections : secEntries mouldBytes = [⟨1, 256, 32, 482038757⟩, ⟨2, 288, 8, 2351477386⟩, ⟨3, 304, 8, 2351477386⟩,
    ⟨4, 320, 264, 1547858287⟩, ⟨5, 592, 4, 1214729159⟩, ⟨10, 608, 88, 183147323⟩, ⟨11, 704, 40, 3486297426⟩, ⟨12, 752, 4, 860191284⟩] := by
  decide +kernel

/-- The CRC of IOMAP, in two halves. -/
theorem mould_iomap_crc : crc32c (slice mouldBytes 320 264) = 1547858287 := by
  have h : (slice mouldBytes 320 132).foldl (crcByte 32 0x1EDC6F41 true) 0xFFFFFFFF = 3143792398 := by decide +kernel
  rw [show slice mouldBytes 320 264 = slice mouldBytes 320 132 ++ slice mouldBytes 452 132 by decide +kernel, crc32c, crcOf,
    List.foldl_append, h]
  decide +kernel

theorem mould_crc : ckCrc mouldBytes = none := by
  have h : ∀ e ∈ secEntries mouldBytes, crc32c (slice mouldBytes e.off e.len) = e.crc := by
    rw [mould_sections]
    simp only [List.forall_mem_cons, mould_iomap_crc]
    decide +kernel
  rw [ckCrc, List.find?_eq_none.2 (by simpa using h)]
  rfl

theorem mould_signed (scope : Option (Nat × MouldRest)) :
    ckSigned { img := mouldBytes, key := openKey, hash := mouldDigest, set := 3, issue := 1, scope := scope } = none := by
  have h : ckSigned { img := mouldBytes, key := openKey, hash := mouldDigest, set := 3, issue := 1 } = none := by decide +kernel
  simpa only [ckSigned] using h

theorem mould_fields : ckFields mouldBytes = none := by decide +kernel

/-- R100: a Mould that meets every check validates. -/
theorem mould_accepted (c : MouldCtx) (h1 : ckHeader c.img = none) (h2 : ckSigned c = none) (h3 : ckTable c.img = none)
    (h4 : ckMissing c.img = none) (h5 : ckCrc c.img = none) (h6 : ckFields c.img = none) (h7 : ckRings (mouldParse c.img).rings = none)
    (h8 : ckFabric c.img = none) (h9 : ckConsistency (mouldParse c.img) (mouldRest c.img) = none)
    (h10 : ckScope c.scope (mouldRest c.img) = none) : mouldValidate c = .ok (mouldParse c.img, mouldRest c.img) := by
  simp [mouldValidate, h1, h2, h3, h4, h5, h6, h7, h8, h9, h10]

/-- A unit in HALT whose banks hold that application, with that Mould pressed. -/
def banked : State :=
  { unit .halt .none with
    mld := { State.reset.mld with mould := some (mouldParse mouldBytes, mouldRest mouldBytes) }
    flash := memWrite 0xFF flashSize (memWrite 0xFF flashSize (memWrite 0xFF flashSize [] 0x3000000 appManifest) 0x4000000 appManifest)
      0x4001000 mouldBytes
    upd := { State.reset.upd with bankB := { pkg := some 7, set := 3 }, manifest := zeros 12 ++ leBytes 4 3 ++ zeros 912 } }

theorem banked_flash : banked.flash = memWrite 0xFF flashSize
    (memWrite 0xFF flashSize (memWrite 0xFF flashSize [] 0x3000000 appManifest) 0x4000000 appManifest) 0x4001000 mouldBytes := by
  simp only [banked]

theorem appManifest_length : appManifest.length = 544 := by decide +kernel

theorem mouldBytes_length : mouldBytes.length = 756 := by decide +kernel

theorem banked_manifest (b : Bool) : bankManifest b banked = appManifest := by
  have l := appManifest_length
  have k := mouldBytes_length
  have w0 := memWrite_wf 0xFF flashSize [] 0x3000000 appManifest rfl
  have w := memWrite_wf 0xFF flashSize _ 0x4000000 appManifest w0
  have h0 := memRead_memWrite 0xFF flashSize [] 0x3000000 appManifest rfl (by rw [l]; decide)
  have h := memRead_memWrite 0xFF flashSize _ 0x4000000 appManifest w0 (by rw [l]; decide)
  rw [l] at h0 h
  have far := fun x ap => memRead_memWrite_apart 0xFF flashSize _ 0x4001000 mouldBytes w (by rw [k]; decide) x 544 ap
  rw [bankManifest, flashRead, banked_flash, show manLength 1 = 544 from rfl]
  cases b
  · rw [show bankBase false = 0x3000000 from rfl, far _ (.inl (by decide)),
      memRead_memWrite_apart 0xFF flashSize _ 0x4000000 appManifest w0 (by rw [l]; decide) 0x3000000 544 (.inl (by decide)), h0]
  · rw [show bankBase true = 0x4000000 from rfl, far _ (.inl (by decide)), h]

theorem banked_mould (e : PartEntry) (a : e.location = 4096) (n : e.length = 756) : bankPart true e banked = mouldBytes := by
  have k := mouldBytes_length
  have w := memWrite_wf 0xFF flashSize _ 0x4000000 appManifest (memWrite_wf 0xFF flashSize [] 0x3000000 appManifest rfl)
  have h := memRead_memWrite 0xFF flashSize _ 0x4001000 mouldBytes w (by rw [k]; decide)
  rw [k] at h
  rw [bankPart, a, n, flashRead, banked_flash, show bankBase true + 4096 = 0x4001000 from rfl, h]

/-- What the Mould of the inactive bank is validated against. -/
theorem banked_ctx (scope : Option (Nat × MouldRest)) : mouldCtx true scope banked =
    { img := mouldBytes, key := openKey, hash := mouldDigest, set := 3, issue := 1, scope := scope } := by
  obtain ⟨e, h, a, n, d⟩ : ∃ e, manPart 1 appManifest 0x10 = some e ∧ e.location = 4096 ∧ e.length = 756 ∧ e.target = mouldDigest :=
    ⟨partEntry appManifest 0, by decide +kernel, by decide +kernel, by decide +kernel, by decide +kernel⟩
  simp only [mouldCtx, banked_manifest, h, Option.map_some, Option.getD_some, banked_mould e a n, d]
  rw [show manSignKey appManifest = openKey by decide +kernel, show manSet appManifest = 3 by decide +kernel]
  rfl

/-- R100: in a unit, the Mould passes its checks against the manifest's key, hash and Tested Set, for a REPRESS of any mask too. -/
theorem witness_mould_accepted (scope : Option (Nat × MouldRest)) (h : ∀ x, scope = some x → x.2 = mouldRest mouldBytes) :
    mouldValidate (mouldCtx true scope banked) = .ok (mouldParse mouldBytes, mouldRest mouldBytes) := by
  rw [banked_ctx]
  have h1 : ckHeader mouldBytes = none := by decide +kernel
  have h3 : ckTable mouldBytes = none := by decide +kernel
  have h4 : ckMissing mouldBytes = none := by decide +kernel
  have h7 : ckRings (mouldParse mouldBytes).rings = none := by decide +kernel
  have h8 : ckFabric mouldBytes = none := by decide +kernel
  have h9 : ckConsistency (mouldParse mouldBytes) (mouldRest mouldBytes) = none := by decide +kernel
  refine mould_accepted _ h1 (mould_signed scope) h3 h4 mould_crc mould_fields h7 h8 h9 ?_
  cases scope with
  | none => rfl
  | some x => simp [ckScope, sameOutside, h x rfl]

/-- Its banks hold the same program and table, and its inactive bank holds package 7 of the active Tested Set. -/
theorem witness_bank_accepted : inactiveHolds 7 banked = true ∧ sameCode false true banked = true ∧ bankSetOk true banked = true ∧
    (restOf banked).map (fun x => (16, x)) = some (16, mouldRest mouldBytes) := by
  refine ⟨by decide +kernel, ?_, ?_, by rfl⟩
  · simp only [sameCode, bankProgHash, bankTableHash, banked_manifest]
    rw [show (bankOf false banked).chain.getLast? = none by decide +kernel, show (bankOf true banked).chain.getLast? = none by decide +kernel,
      show (manPart 1 appManifest 0x11).map PartEntry.target = some (sha256 nopProgram) by decide +kernel,
      show (manPart 1 appManifest 0x12).map PartEntry.target = some (sha256 [0]) by decide +kernel]
    simp
  · rw [bankSetOk, banked_manifest]
    decide +kernel

/-- A unit that runs the program which the edit edits; the key stands in its active bank. -/
def editable : State :=
  { solo with
    prog := { solo.prog with blocks := [{ typ := 0, number := 0, words := [0] }], progHash := slice editBytes 32 32 }
    flash := (openKey.zipIdx.map fun x => (0x30000B0 + x.2, x.1)) }

/-- R192: the edit passes its checks. -/
theorem witness_edit_accepted :
    (match editCheck editBytes editable with
      | .ok new => decide (new = [{ typ := 0, number := 0, words := [0, 0] }])
      | .error _ => false) = true := by decide +kernel

/-- R188: the program of one NOP is accepted. -/
theorem witness_program_accepted :
    (match verifyProgram 4 0 nopProgram with
      | .ok new => decide (new = [{ typ := 0, number := 0, words := [0] }])
      | .error _ => false) = true := by decide +kernel

/-! ### A start whose checks pass, where the release key is that key: it has no value in the model (Config) -/

/-- A system manifest of Tested Set 3 for hardware issues 1 and 2, with seven parts of no length. -/
def sysHead : Bytes := leBytes 4 0x4A534D46 ++ leBytes 2 1 ++ [0, 7] ++ leBytes 4 928 ++ leBytes 4 3 ++ leBytes 2 3 ++ zeros 14
def sysParts : Bytes := zeros 128 ++ (List.range 7).flatMap fun _ => zeros 48 ++ sha256 [] ++ zeros 16
def sysManifest : Bytes := sysHead ++ sha256 (sysHead ++ sysParts) ++ (1 :: zeros 63) ++ sysParts

/-- The flash of a unit whose active bank A holds the application: its manifest and its program. -/
def startFlash : Mem := memWrite 0xFF flashSize (memWrite 0xFF flashSize [] 0x3000000 appManifest) 0x3002000 nopProgram

theorem start_manifest (u : State) (f : u.flash = startFlash) : bankManifest false u = appManifest := by
  have l := appManifest_length
  have w0 := memWrite_wf 0xFF flashSize [] 0x3000000 appManifest rfl
  have h0 := memRead_memWrite 0xFF flashSize [] 0x3000000 appManifest rfl (by rw [l]; decide)
  rw [l] at h0
  rw [bankManifest, flashRead, f, startFlash, show manLength 1 = 544 from rfl, show bankBase false = 0x3000000 from rfl,
    memRead_memWrite_apart 0xFF flashSize _ 0x3002000 nopProgram w0 (by decide +kernel) 0x3000000 544 (.inl (by decide)), h0]

/-- R444: every check of MANIFESTS_VERIFIED passes. -/
theorem witness_manifests_verified (k : Config.releaseKey = openKey) (u : State) (f : u.flash = startFlash)
    (g : u.mgt = { State.reset.mgt with testedSet := 3 }) (p : u.upd = { State.reset.upd with manifest := sysManifest }) :
    manFormat 0 none u.upd.manifest = true ∧ manSigned 0 u.upd.manifest u = true ∧ manIssue u.upd.manifest u = true ∧
      targetFailure u.upd.manifest u = none ∧ appManifestOk false u = true ∧ manSet (bankManifest false u) = manSet u.upd.manifest ∧ programChecked false u = true ∧
      usedBank u = false ∧ (u.upd.pending && !u.upd.inUse) = false := by
  have m : u.upd.manifest = sysManifest := by rw [p]
  have c : bankOf false u = {} := by simp only [bankOf, p]; rfl
  rw [m, start_manifest u f]
  refine ⟨by decide +kernel, ?_, ?_, ?_, ?_, by decide +kernel, ?_, ?_, ?_⟩
  · rw [manSigned, k, if_pos rfl, decide_eq_true (rfl : 0 = 0), Bool.true_or, Bool.and_true]
    decide +kernel
  · simp only [manIssue, g]
    decide +kernel
  · have h : ∀ e ∈ manParts 0 sysManifest, e.length = 0 ∧ e.target = sha256 [] := by decide +kernel
    rw [targetFailure, List.find?_eq_none.2 fun e i => by simp [sysPart, (h e i).1, (h e i).2, flashRead, memRead]]
    rfl
  · rw [appManifestOk, start_manifest u f, manSigned, keyAdmitted, g]
    decide +kernel
  · obtain ⟨e, h, a, n, d⟩ : ∃ e, manPart 1 appManifest 0x11 = some e ∧ e.location = 0x2000 ∧ e.length = 20 ∧ e.target = sha256 nopProgram :=
      ⟨partEntry appManifest 1, by decide +kernel, by decide +kernel, by decide +kernel, by decide +kernel⟩
    have q : bankProgram false u = nopProgram := by
      have r := memRead_memWrite 0xFF flashSize _ 0x3002000 nopProgram (memWrite_wf 0xFF flashSize [] 0x3000000 appManifest rfl) (by decide +kernel)
      rw [show nopProgram.length = 20 by decide +kernel] at r
      simp only [bankProgram, c, start_manifest u f, h, bankPart, a, n, flashRead, f, startFlash, show bankBase false + 0x2000 = 0x3002000 from rfl, r]
      rfl
    simp [programChecked, start_manifest u f, h, c, chainHash, d, q]
  · simp only [usedBank, p]; rfl
  · simp only [p]; rfl

end Sys2Proof.Tests
end

section
/-! SUPPORT. Register accesses (R3): each access command by the shared access it makes, and what an access that is not
performed answers and leaves. -/

namespace Sys2Proof.Machine

theorem exec_registerWrite (addr : Word) (width : Nat) (v : Word) (s : State) :
    exec (.registerWrite addr width v) s = .next (writeAccess addr width v s) := rfl

theorem exec_rcRead (addr : Word) (width : Nat) (s : State) :
    exec (.rcRead addr width) s = .next (readAccess addr width s) := rfl

theorem exec_loRead (addr : Word) (width : Nat) (s : State) :
    exec (.loRead addr width) s = .next (readAccess addr width s) := rfl

theorem accessOf_of_narrow_or_unaligned {addr : Word} {width : Nat} (s : State) (h : width ≠ 4 ∨ addr.toNat % 4 ≠ 0) :
    accessOf addr width s = .none := if_pos (.inr h)

theorem writeAccess_of_not_performed {addr : Word} {width : Nat} {s : State} (v : Word) (h : accessOf addr width s = .none) :
    writeAccess addr width v s = s := by
  rw [writeAccess, h]

/-- Only a working Marshal reads, so only then is there an answer. -/
theorem readAccess_of_not_performed {addr : Word} {width : Nat} {s : State} (hawake : awake s = true)
    (h : accessOf addr width s = .none) : readAccess addr width s = { s with out := { s.out with readData := 0 } } := by
  rw [readAccess, h]
  exact if_pos hawake

/-- Settles O7: a narrow or unaligned address selects no register (R3), so both reads answer 0 and the write leaves the
state as it was. -/
theorem narrowOrUnalignedAccessIsNotPerformed : Obligations.NarrowOrUnalignedAccessIsNotPerformed := by
  intro addr width v s hawake hbad
  have hnone := accessOf_of_narrow_or_unaligned s hbad
  have hread := readAccess_of_not_performed hawake hnone
  refine ⟨?write, ?rcRead, ?loRead⟩
  case write => rw [exec_registerWrite, writeAccess_of_not_performed v hnone]
  case rcRead => rw [exec_rcRead, hread]
  case loRead => rw [exec_loRead, hread]

end Sys2Proof.Machine
end

section
/-! SUPPORT. The words of a Bolis program (R152): the fields of a word put together from its fields, and, for each operand
column of R155 and R178, its opcodes and the command that a word with one of them spells; then the two widths of
decodeTableWord, and a fetched word at the front of the queue. -/

namespace Sys2Proof

open Machine (State readable writable areaCode exec step)

/-- An instruction word from its fields (R152): OPCODE in [31:24], AREA in [23:20], INDEX in [19:0]. -/
def instrWord (op : Byte) (code : BitVec 4) (index : BitVec 20) : Word := op ++ code ++ index

@[simp] theorem instrWord_opcode (op : Byte) (code : BitVec 4) (index : BitVec 20) :
    (instrWord op code index).extractLsb' 24 8 = op := by
  rw [instrWord, BitVec.extractLsb'_append_eq_of_le (by decide)]
  exact BitVec.extractLsb'_append_eq_left

@[simp] theorem instrWord_area (op : Byte) (code : BitVec 4) (index : BitVec 20) :
    (instrWord op code index).extractLsb' 20 4 = code := by
  rw [instrWord, BitVec.extractLsb'_append_eq_of_le (by decide)]
  exact BitVec.extractLsb'_append_eq_right

@[simp] theorem instrWord_index (op : Byte) (code : BitVec 4) (index : BitVec 20) :
    (instrWord op code index).extractLsb' 0 20 = index := BitVec.extractLsb'_append_eq_right

/-- The opcodes whose operand is any area but E. -/
def readOps : List (Byte × (Area → BitVec 20 → Instr)) := [(0x01, .ld), (0x02, .ldn), (0x03, .bitAnd), (0x04, .bitAndn),
  (0x05, .bitOr), (0x06, .bitOrn), (0x07, .bitXor), (0x08, .bitXorn), (0x09, .openAnd), (0x0A, .openAndn), (0x0B, .openOr),
  (0x0C, .openOrn), (0x0D, .openXor), (0x0E, .openXorn), (0x42, .ldi), (0x50, .l32), (0x51, .l16), (0x54, .lx32), (0x55, .lx16),
  (0x5C, .lo32), (0x5D, .lo16)]

/-- The opcodes whose operand is an area that a program writes: Q, M or D. -/
def writeOps : List (Byte × (Area → BitVec 20 → Instr)) := [(0x10, .st), (0x11, .bitSet), (0x12, .rst), (0x43, .sti), (0x52, .st32),
  (0x53, .st16), (0x56, .sx32), (0x57, .sx16), (0xA4, .stx)]

/-- The edge detectors, whose operand is a cell of E. -/
def cellOps : List (Byte × (BitVec 20 → Instr)) := [(0x18, .fp), (0x19, .fn)]

/-- The jumps and CALL, whose operand is an index without an area. -/
def bareOps : List (Byte × (BitVec 20 → Instr)) := [(0x20, .jmp), (0x21, .jmpc), (0x22, .jmpcn), (0xC0, .call)]

/-- The opcodes without an operand. -/
def aloneOps : List (Byte × Instr) := [(0x00, .nop), (0x0F, .close), (0x13, .bitNot), (0x14, .setba), (0x15, .clrba), (0x40, .btow),
  (0x41, .wtob), (0x5A, .swap), (0x5B, .dup), (0x60, .add), (0x61, .sub), (0x62, .mul), (0x63, .div), (0x64, .mod), (0x65, .neg),
  (0x66, .abs), (0x67, .addu), (0x68, .subu), (0x69, .mulu), (0x6A, .divu), (0x6B, .modu), (0x70, .wordAnd), (0x71, .wordOr),
  (0x72, .wordXor), (0x73, .inv), (0x74, .shl), (0x75, .shr), (0x76, .sar), (0x77, .rol), (0x78, .ror), (0x80, .eq), (0x81, .ne),
  (0x82, .lt), (0x83, .le), (0x84, .gt), (0x85, .ge), (0x86, .ltu), (0x87, .leu), (0x88, .gtu), (0x89, .geu), (0x8A, .eqr),
  (0x8B, .ner), (0x8C, .ltr), (0x8D, .ler), (0x8E, .gtr), (0x8F, .ger), (0x90, .addr), (0x91, .subr), (0x92, .mulr), (0x93, .divr),
  (0x94, .negr), (0x95, .absr), (0x96, .sqrtr), (0x98, .itor), (0x99, .utor), (0x9A, .rtoi), (0x9B, .rtoit), (0x9C, .itos),
  (0xA0, .clrx), (0xA1, .addx), (0xA2, .macx), (0xA3, .sarx), (0xB0, .clrf), (0xB1, .ldf), (0xC1, .calli), (0xC3, .ret),
  (0xC4, .retc)]

/-- The opcodes with an operand of their own: LI, LIH, LIO, TSTF, CALLSB and the escape of LK. -/
def otherOps : List Byte := [0x58, 0x59, 0x5E, 0xB2, 0xC2, 0xFF]

/-- Every opcode that spells a command (R155, R178). -/
def bolisOpcodes : List Byte :=
  readOps.map Prod.fst ++ writeOps.map Prod.fst ++ cellOps.map Prod.fst ++ bareOps.map Prod.fst ++ aloneOps.map Prod.fst ++ otherOps

theorem areaOfCode_areaCode (a : Area) : areaOfCode (BitVec.ofNat 4 (areaCode a)).toNat = some a := by cases a <;> rfl

theorem areaOfCode_reserved {c : Nat} (h : 12 ≤ c) : areaOfCode c = none := List.getElem?_eq_none h

theorem code_eq_zero_iff_toNat {code : BitVec 4} : code = 0 ↔ code.toNat = 0 := by bv_omega

section
variable (code : BitVec 4) (index : BitVec 20) (literal : Word)

/-! ### One equation for each operand column (R155, R178) -/

theorem bolisCommand_readOps : ∀ p ∈ readOps, bolisCommand (instrWord p.1 code index) literal =
    (areaOfCode code.toNat).bind fun a => if readable a then some (p.2 a index) else none := by
  intro p hp
  rw [bolisCommand, instrWord_opcode, instrWord_area, instrWord_index]
  fin_cases hp <;> rfl

theorem bolisCommand_writeOps : ∀ p ∈ writeOps, bolisCommand (instrWord p.1 code index) literal =
    (areaOfCode code.toNat).bind fun a => if writable a then some (p.2 a index) else none := by
  intro p hp
  rw [bolisCommand, instrWord_opcode, instrWord_area, instrWord_index]
  fin_cases hp <;> rfl

theorem bolisCommand_cellOps : ∀ p ∈ cellOps, bolisCommand (instrWord p.1 code index) literal =
    if code = 3 then some (p.2 index) else none := by
  intro p hp
  rw [bolisCommand, instrWord_opcode, instrWord_area, instrWord_index,
    if_congr (show code = 3 ↔ code.toNat = 3 by bv_omega) rfl rfl]
  fin_cases hp <;> rfl

theorem bolisCommand_bareOps : ∀ p ∈ bareOps, bolisCommand (instrWord p.1 code index) literal =
    if code = 0 then some (p.2 index) else none := by
  intro p hp
  rw [bolisCommand, instrWord_opcode, instrWord_area, instrWord_index,
    if_congr code_eq_zero_iff_toNat rfl rfl]
  fin_cases hp <;> rfl

theorem bolisCommand_aloneOps : ∀ p ∈ aloneOps, bolisCommand (instrWord p.1 code index) literal =
    if code = 0 ∧ index = 0 then some p.2 else none := by
  intro p hp
  rw [bolisCommand, instrWord_opcode, instrWord_area, instrWord_index,
    if_congr (and_congr_left' code_eq_zero_iff_toNat) rfl rfl]
  fin_cases hp <;> rfl

theorem bolisCommand_tstf : bolisCommand (instrWord 0xB2 code index) literal =
    if code = 0 ∧ index.toNat < 8 then some (.tstf (index.setWidth 3)) else none := by
  rw [bolisCommand, instrWord_opcode, instrWord_area, instrWord_index,
    if_congr (and_congr_left' code_eq_zero_iff_toNat) rfl rfl]
  rfl

theorem bolisCommand_callsb : bolisCommand (instrWord 0xC2 code index) literal =
    if code = 0 ∧ index.toNat < 128 then some (.callsb (index.setWidth 7)) else none := by
  rw [bolisCommand, instrWord_opcode, instrWord_area, instrWord_index,
    if_congr (and_congr_left' code_eq_zero_iff_toNat) rfl rfl]
  rfl

theorem bolisCommand_lk : bolisCommand (instrWord 0xFF code index) literal =
    if code = 0 ∧ index = 0 then some (.lk literal) else none := by
  rw [bolisCommand, instrWord_opcode, instrWord_area, instrWord_index,
    if_congr (and_congr_left' code_eq_zero_iff_toNat) rfl rfl]
  rfl

variable (imm : BitVec 24)

theorem bolisCommand_li : bolisCommand ((0x58 : Byte) ++ imm) literal = some (.li imm) := by
  rw [bolisCommand, BitVec.extractLsb'_append_eq_left, BitVec.extractLsb'_append_eq_right (a := (0x58 : Byte)) (b := imm)]
  rfl

theorem bolisCommand_lio : bolisCommand ((0x5E : Byte) ++ imm) literal = some (.lio imm) := by
  rw [bolisCommand, BitVec.extractLsb'_append_eq_left, BitVec.extractLsb'_append_eq_right (a := (0x5E : Byte)) (b := imm)]
  rfl

theorem bolisCommand_lih : bolisCommand ((0x59 : Byte) ++ imm) literal =
    if imm.toNat < 65536 then some (.lih (imm.setWidth 16)) else none := by
  have hhigh : ((0x59 : Byte) ++ imm).extractLsb' 16 8 = imm.extractLsb' 16 8 :=
    BitVec.extractLsb'_append_eq_of_add_le (by decide)
  have hlow : ((0x59 : Byte) ++ imm).extractLsb' 0 16 = imm.setWidth 16 := by
    rw [BitVec.extractLsb'_append_eq_of_add_le (by decide), BitVec.setWidth_eq_extractLsb' (by decide)]
  have hfits : imm.toNat < 65536 ↔ imm.extractLsb' 16 8 = 0 := by
    rw [← BitVec.toNat_inj, BitVec.extractLsb'_toNat, Nat.shiftRight_eq_div_pow]
    bv_omega
  rw [bolisCommand, BitVec.extractLsb'_append_eq_left, hhigh, hlow, if_congr hfits rfl rfl]
  rfl
end

/-- Every arm but the last has a listed opcode. -/
theorem bolisCommand_eq_none_of_not_mem_bolisOpcodes {w : Word} (h : w.extractLsb' 24 8 ∉ bolisOpcodes) (literal : Word) :
    bolisCommand w literal = none := by
  have hnat : (w.extractLsb' 24 8).toNat ∉ bolisOpcodes.map BitVec.toNat := by
    rwa [List.mem_map_of_injective BitVec.toNat_injective]
  unfold bolisCommand
  generalize (w.extractLsb' 24 8).toNat = op at hnat
  split
  rotate_right
  · rfl
  all_goals exact absurd (by decide) hnat

/-! ### Words of 32 and of 64 bits, and the queue -/

theorem decodeTableWord_32 (w : Word) :
    decodeTableWord 32 w.toNat = if w.extractLsb' 24 8 = 0xFF then none else bolisCommand w 0 := by
  have hliteral : BitVec.ofNat 32 (w.toNat / 2 ^ 32) = 0 := by rw [Nat.div_eq_of_lt w.isLt]; rfl
  rw [decodeTableWord, BitVec.ofNat_toNat, BitVec.setWidth_eq, hliteral]
  split <;> rfl

theorem decodeTableWord_lk (literal : Word) :
    decodeTableWord 64 (0xFF000000 + 2 ^ 32 * literal.toNat) = some (.lk literal) := by
  have hword : BitVec.ofNat 32 (0xFF000000 + 2 ^ 32 * literal.toNat) = instrWord 0xFF 0 0 := by
    apply BitVec.eq_of_toNat_eq
    rw [BitVec.toNat_ofNat, Nat.add_mul_mod_self_left]
    rfl
  have hliteral : (0xFF000000 + 2 ^ 32 * literal.toNat) / 2 ^ 32 = literal.toNat := by omega
  rw [decodeTableWord, hword, hliteral, instrWord_opcode, BitVec.ofNat_toNat, BitVec.setWidth_eq, bolisCommand_lk]
  rfl

theorem withFetchWord_of_some {nbits n : Nat} {i : Instr} (s : State) (h : decodeTableWord nbits n = some i) :
    s.withFetchWord nbits n = { s with pending := i :: s.pending } := by
  rw [State.withFetchWord, h]

theorem withFetchWord_of_none {nbits n : Nat} (s : State) (h : decodeTableWord nbits n = none) :
    s.withFetchWord nbits n = s := by
  rw [State.withFetchWord, h]

theorem step_cons_pending (i : Instr) (s : State) : step { s with pending := i :: s.pending } = exec i s := rfl

/-- Settles O60: each clause about words is the equation of its operand column, with the area code of R136 put in for the
columns that take an area; a word that spells a command leaves it at the front of the queue, where the step takes it. -/
theorem bolisWordsSpellTheirCommands : Obligations.BolisWordsSpellTheirCommands := by
  intro a code index imm literal word reads writes cells bare alone others
  refine ⟨?reads, ?writes, ?reserved, bolisCommand_cellOps code index literal, bolisCommand_bareOps code index literal,
    bolisCommand_aloneOps code index literal, bolisCommand_li literal imm, bolisCommand_lio literal imm, bolisCommand_lih literal imm,
    bolisCommand_tstf code index literal, bolisCommand_callsb code index literal, bolisCommand_lk code index literal, ?unlisted,
    decodeTableWord_32, decodeTableWord_lk literal, fun w s => ⟨fun i h => ?spelt, withFetchWord_of_none s⟩⟩
  case reads =>
    intro p hp
    have h := bolisCommand_readOps (BitVec.ofNat 4 (areaCode a)) index literal p hp
    rwa [areaOfCode_areaCode] at h
  case writes =>
    intro p hp
    have h := bolisCommand_writeOps (BitVec.ofNat 4 (areaCode a)) index literal p hp
    rwa [areaOfCode_areaCode] at h
  case reserved =>
    intro p hp hcode
    rcases List.mem_append.1 hp with hread | hwrite
    · have h := bolisCommand_readOps code index literal p hread
      rwa [areaOfCode_reserved hcode] at h
    · have h := bolisCommand_writeOps code index literal p hwrite
      rwa [areaOfCode_reserved hcode] at h
  case unlisted =>
    intro op hop
    refine bolisCommand_eq_none_of_not_mem_bolisOpcodes (w := instrWord op code index) ?_ literal
    rwa [instrWord_opcode]
  case spelt =>
    rw [withFetchWord_of_some s h]
    exact ⟨rfl, step_cons_pending i s⟩

end Sys2Proof
end

section
/-! SUPPORT. What a word-path operation on the registers gives (R177, R179 to R182): the shapes runBin, runShift and runDiv end
as Safety.result says, with the fit of a true result to its type and the shifts written without cases. -/

namespace Sys2Proof.Machine

/-! ### The end of an operation -/

@[simp] theorem countWord_acc1 (s : State) : (countWord s).bx.acc1 = s.bx.acc1 := rfl
@[simp] theorem countWord_acc2 (s : State) : (countWord s).bx.acc2 = s.bx.acc2 := rfl
@[simp] theorem satMode_countWord (s : State) : satMode (countWord s) = satMode s := rfl
@[simp] theorem trapDz_countWord (s : State) : trapDz (countWord s) = trapDz s := rfl

theorem runSeq_of_executing {s : State} (h : executing s = true) (count : State → State) (n : Nat) (f : State → Lapped) :
    runSeq count n f s = .next (settled ((f (count s)).map fun t => advance n (noteSeen t))) := by
  rw [runSeq, if_pos h]

theorem runReg_of_executing {s : State} (h : executing s = true) (f : State → State) :
    runReg f s = .next (advance 1 (noteSeen (f (countWord s)))) :=
  runSeq_of_executing h countWord 1 fun t => .ok (f t)

/-- A counted instruction that leaves the word path at `b`, with the position and BX.SEEN as they were, ends as R170 says. -/
theorem advance_noteSeen_eq_wordDone (n : Nat) (b : Bx) (s : State) :
    advance n (noteSeen { s with bx := { b with
      words := s.bx.words + 1, curWords := satInc s.bx.curWords, pos := s.bx.pos, seen := s.bx.seen } }) =
      Safety.wordDone n b s := by
  rw [advance, noteSeen, Safety.wordDone]
  exact congrArg (settle 33) rfl

/-- A counted instruction that writes a result with its flags ends as R177 says. -/
theorem advance_putRes_resOf (val : Word) (c v : Bool) (s : State) :
    advance 1 (noteSeen (putRes (resOf val c v) (countWord s))) = Safety.result val c v s := by
  rw [Safety.result, ← advance_noteSeen_eq_wordDone]
  exact congrArg (fun t => advance 1 (noteSeen t)) rfl

theorem putRes_resOf_without_overflow (val : Word) (c : Bool) (s : State) :
    putRes (resOf val c false) s =
      { s with bx := { s.bx with acc1 := val, z := val == 0, n := val.getLsbD 31, c := c, v := false } } := by
  have hvs : (s.bx.vs || false) = s.bx.vs := Bool.or_false _
  rw [putRes, setFlags, resOf, setAcc1, hvs]

section
variable {s : State} {val : Word} {c v : Bool}

theorem runBin_of_resOf (f : Bool → Word → Word → Res) (h : executing s = true)
    (hf : f (satMode s) s.bx.acc1 s.bx.acc2 = resOf val c v) : runBin f s = .next (Safety.result val c v s) := by
  rw [runBin, runReg_of_executing h, satMode_countWord, countWord_acc1, countWord_acc2, hf, advance_putRes_resOf]

theorem runShift_of_resOf (f : Word → Nat → Res) (h : executing s = true)
    (hf : f s.bx.acc1 (s.bx.acc2.toNat % 256) = resOf val c v) : runShift f s = .next (Safety.result val c v s) := by
  rw [runShift, runReg_of_executing h, countWord_acc1, countWord_acc2, hf, advance_putRes_resOf]

theorem runDiv_of_resOf (quot : Word → Word) (f : Bool → Word → Word → Res) (h : executing s = true) (hb : s.bx.acc2 ≠ 0)
    (hf : f (satMode s) s.bx.acc1 s.bx.acc2 = resOf val c v) : runDiv quot f s = .next (Safety.result val c v s) := by
  rw [runDiv, runSeq_of_executing h, countWord_acc2, if_neg hb, satMode_countWord, countWord_acc1, hf]
  exact congrArg Host.Outcome.next (advance_putRes_resOf val c v s)

/-- R181: a division by 0 that does not trap writes its pinned result with C and V 0, sets DZ and counts; VS stands. -/
theorem runDiv_by_zero (quot : Word → Word) (f : Bool → Word → Word → Res) (h : executing s = true) (hb : s.bx.acc2 = 0)
    (htrap : trapDz s = false) (hq : quot s.bx.acc1 = val) :
    runDiv quot f s = .next (Safety.wordDone 1
      { s.bx with acc1 := val, z := val == 0, n := val.getLsbD 31, c := false, v := false, dz := true
                  dzCount := satInc s.bx.dzCount } s) := by
  rw [runDiv, runSeq_of_executing h, countWord_acc2, if_pos hb, trapDz_countWord, htrap, countWord_acc1, hq,
    putRes_resOf_without_overflow, ← advance_noteSeen_eq_wordDone]
  exact congrArg (fun t => Host.Outcome.next (advance 1 (noteSeen t))) rfl

end

/-! ### The fit of a true result to its type (R179) -/

theorem outside_eq (signed : Bool) (t : Int) : outside signed t =
    if signed then decide (t < -2147483648) || decide (2147483647 < t) else decide (t < 0) || decide (4294967295 < t) := by
  cases signed <;> rfl

theorem fitted_eq_ofInt_clamp (signed sat : Bool) (t : Int) : fitted signed sat t = BitVec.ofInt 32
    (if sat then (if signed then max (-2147483648) (min 2147483647 t) else max 0 (min 4294967295 t)) else t) := by
  have hclamp : ∀ lo hi : Int, lo ≤ hi →
      max lo (min hi t) = if t < lo ∨ hi < t then (if t < lo then lo else hi) else t := by omega
  cases sat
  · simp [fitted]
  · cases signed <;> simp [fitted, outside, typeMin, typeMax, hclamp, apply_ite (BitVec.ofInt 32)]

/-! ### Division (R180), the magnitude and ITOS (R185) -/

theorem resDiv_unsigned (sat : Bool) (a b : Word) : resDiv false sat a b =
    resOf (fitted false sat ((a.toNat : Int) / b.toNat)) false (outside false ((a.toNat : Int) / b.toNat)) := by
  rw [resDiv, asInt, asInt]
  simp [Int.tdiv_eq_ediv_of_nonneg]

theorem resMod_unsigned (a b : Word) : resMod false a b = resOf (BitVec.ofNat 32 (a.toNat % b.toNat)) false false := by
  have hmod : (a.toNat : Int).tmod b.toNat = (a.toNat % b.toNat : Nat) := rfl
  rw [resMod, asInt, asInt, if_neg Bool.false_ne_true, if_neg Bool.false_ne_true, hmod, BitVec.ofInt_natCast]

theorem resAbs_eq (sat : Bool) (a : Word) :
    resAbs sat a = resOf (fitted true sat |a.toInt|) false (outside true |a.toInt|) := by
  rw [resAbs, Int.natCast_natAbs]

theorem getLsbD_31_eq_decide_toInt_neg (a : Word) : a.getLsbD 31 = decide (a.toInt < 0) := by
  rw [← BitVec.msb_eq_toInt, BitVec.msb_eq_getLsbD_last]

theorem divZeroQuot_signed (a : Word) : divZeroQuot true a = if a.toInt < 0 then 0x80000000 else 0x7FFFFFFF := by
  rw [divZeroQuot, if_pos rfl, getLsbD_31_eq_decide_toInt_neg]
  simp only [decide_eq_true_eq]

/-- The low half, sign-extended, is the value itself exactly where the value is an INT16. -/
theorem signExtend_low_half_eq_iff (a : Word) :
    (a.setWidth 16).signExtend 32 = a ↔ -32768 ≤ a.toInt ∧ a.toInt ≤ 32767 := by
  rw [← BitVec.toInt_inj, BitVec.toInt_signExtend_of_le (by decide), BitVec.toInt_setWidth, BitVec.toInt_eq_toNat_bmod,
    Int.bmod_def, Int.bmod_def]
  have hlt := a.isLt
  omega

theorem resItos_eq (sat : Bool) (a : Word) :
    let low := (a.setWidth 16).signExtend 32
    resItos sat a = resOf (if low = a then a else if sat then (if a.toInt < 0 then 0xFFFF8000 else 0x7FFF) else low) false
      (decide (low ≠ a)) := by
  intro low
  rw [resItos]
  by_cases hlow : low = a
  · rw [if_pos ((signExtend_low_half_eq_iff a).1 hlow), if_pos hlow, decide_eq_false (not_not_intro hlow)]
  · rw [if_neg (mt (signExtend_low_half_eq_iff a).2 hlow), if_neg hlow, decide_eq_true hlow]
    cases sat <;> rfl

/-! ### Shifts and rotates (R182) -/

theorem resShl_eq (a : Word) (c : Nat) :
    resShl a c = resOf (a <<< c) (decide (1 ≤ c) && decide (c ≤ 32) && a.getLsbD (32 - c)) false := by
  rw [resShl]
  split_ifs with hzero hshort
  · simp [hzero]
  · simp [Nat.one_le_iff_ne_zero.2 hzero, hshort]
  · simp [hshort, BitVec.shiftLeft_eq_zero (Nat.le_of_not_le hshort)]

theorem resShr_eq (a : Word) (c : Nat) :
    resShr a c = resOf (a >>> c) (decide (1 ≤ c) && a.getLsbD (c - 1)) false := by
  rw [resShr]
  split_ifs with hzero hshort
  · simp [hzero]
  · simp [Nat.one_le_iff_ne_zero.2 hzero]
  · have hlong : 32 ≤ c - 1 := by omega
    simp [BitVec.ushiftRight_eq_zero (Nat.le_of_not_le hshort), BitVec.getLsbD_of_ge a _ hlong]

/-- A shift by 31 leaves nothing but the sign: −1 or 0. -/
theorem sshiftRight_31_eq_sign (a : Word) : a.sshiftRight 31 = if a.getLsbD 31 then 0xFFFFFFFF else 0 := by
  have hlow : -2 ^ 31 ≤ a.toInt := a.le_toInt
  have hhigh : a.toInt < 2 ^ 31 := a.toInt_lt
  apply BitVec.eq_of_toInt_eq
  rw [BitVec.toInt_sshiftRight, Int.shiftRight_eq_div_pow, getLsbD_31_eq_decide_toInt_neg]
  by_cases hneg : a.toInt < 0
  · rw [decide_eq_true hneg]
    change a.toInt / 2 ^ 31 = -1
    omega
  · rw [decide_eq_false hneg]
    change a.toInt / 2 ^ 31 = 0
    omega

theorem resSar_eq (a : Word) (c : Nat) :
    resSar a c = resOf (a.sshiftRight (min c 31)) (decide (1 ≤ c) && a.getLsbD (min (c - 1) 31)) false := by
  rw [resSar, ← sshiftRight_31_eq_sign]
  split_ifs with hzero hshort
  · simp [hzero]
  · rw [min_eq_left (by omega), min_eq_left (by omega), decide_eq_true (Nat.one_le_iff_ne_zero.2 hzero), Bool.true_and]
  · rw [min_eq_right (by omega), min_eq_right (by omega), decide_eq_true (Nat.one_le_iff_ne_zero.2 hzero), Bool.true_and]

theorem rotateLeft_zero (a : Word) : a.rotateLeft 0 = a := by
  simp [BitVec.rotateLeft_def, BitVec.ushiftRight_eq_zero (x := a) (Nat.le_refl 32)]

theorem rotateRight_zero (a : Word) : a.rotateRight 0 = a := by
  simp [BitVec.rotateRight_def]

theorem resRol_eq (a : Word) (c : Nat) : resRol a c =
    resOf (a.rotateLeft (c % 32)) (decide (c % 32 ≠ 0) && (a.rotateLeft (c % 32)).getLsbD 0) false := by
  rw [resRol]
  split_ifs with hzero
  · simp [hzero, rotateLeft_zero]
  · simp [hzero]

theorem resRor_eq (a : Word) (c : Nat) : resRor a c =
    resOf (a.rotateRight (c % 32)) (decide (c % 32 ≠ 0) && (a.rotateRight (c % 32)).getLsbD 31) false := by
  rw [resRor]
  split_ifs with hzero
  · simp [hzero, rotateRight_zero]
  · simp [hzero]

/-- Settles O33: each instruction is runBin, runShift or runDiv of its result, which is the stated one by definition but for the
unsigned division, ABS, ITOS and the shifts; where a true result is fitted to its type, the fit is the clamp or the wrap. -/
theorem integerArithmeticAndShifts : Obligations.IntegerArithmeticAndShifts := by
  refine ⟨fun s h => ?arithmetic, fun s h => ?logic⟩
  case arithmetic =>
    intro a b out fit gives byZero
    have fits {c : Instr} {signed : Bool} {t : Int} {carry : Bool}
        (hc : exec c s = .next (Safety.result (fitted signed (satMode s) t) carry (outside signed t) s)) :
        gives c signed t carry := by
      rwa [fitted_eq_ofInt_clamp, outside_eq] at hc
    refine ⟨fits (runBin_of_resOf (resAdd true) h rfl), fits (runBin_of_resOf (resSub true) h rfl),
      fits (runBin_of_resOf (resMul true) h rfl), fits (runBin_of_resOf (fun sat x _ => resNeg sat x) h rfl),
      fits (runBin_of_resOf (fun sat x _ => resAbs sat x) h (resAbs_eq _ a)), fits (runBin_of_resOf (resAdd false) h rfl),
      fits (runBin_of_resOf (resSub false) h rfl), fits (runBin_of_resOf (resMul false) h rfl), fun hb => ?nonzero,
      fun hb htrap => ?zero, runBin_of_resOf (fun sat x _ => resItos sat x) h (resItos_eq _ a)⟩
    case nonzero =>
      exact ⟨fits (runDiv_of_resOf (divZeroQuot true) (resDiv true) h hb rfl),
        fits (runDiv_of_resOf (divZeroQuot false) (resDiv false) h hb (resDiv_unsigned _ a b)),
        runDiv_of_resOf id (fun _ => resMod true) h hb rfl, runDiv_of_resOf id (fun _ => resMod false) h hb (resMod_unsigned a b)⟩
    case zero =>
      exact ⟨runDiv_by_zero (divZeroQuot true) (resDiv true) h hb htrap (divZeroQuot_signed a),
        runDiv_by_zero (divZeroQuot false) (resDiv false) h hb htrap rfl,
        runDiv_by_zero id (fun _ => resMod true) h hb htrap rfl, runDiv_by_zero id (fun _ => resMod false) h hb htrap rfl⟩
  case logic =>
    intro a b c gives
    exact ⟨runBin_of_resOf (fun _ x y => resLog (x &&& y)) h rfl, runBin_of_resOf (fun _ x y => resLog (x ||| y)) h rfl,
      runBin_of_resOf (fun _ x y => resLog (x ^^^ y)) h rfl, runBin_of_resOf (fun _ x _ => resLog (~~~x)) h rfl,
      runShift_of_resOf resShl h (resShl_eq a c), runShift_of_resOf resShr h (resShr_eq a c),
      runShift_of_resOf resSar h (resSar_eq a c), runShift_of_resOf resRol h (resRol_eq a c),
      runShift_of_resOf resRor h (resRor_eq a c)⟩

end Sys2Proof.Machine
end

section
/-! SUPPORT. What every command keeps: the queue of waiting commands, and the canonical form of the three stores (R22, R23, log 4).
One lemma a function of the model, in the order of the model's files, each built from those of the functions that it calls; its
cases are the cases of the function. -/

namespace Sys2Proof.Machine

/-- The state `t` has the queue of `s`, and its stores are canonical where those of `s` are. -/
structure Kept (s t : State) : Prop where
  pending : t.pending = s.pending
  wf : Memory.wf s = true → Memory.wf t = true

section
variable {s t u : State}

-- One theorem after another: proofs that wait for the kernel side by side each take a thread.
set_option Elab.async false

theorem Kept.refl (s : State) : Kept s s := ⟨rfl, id⟩

theorem Kept.trans (h : Kept s t) (k : Kept t u) : Kept s u := ⟨k.pending.trans h.pending, k.wf ∘ h.wf⟩

/-- An update of other parts of the state. -/
theorem Kept.set (h : Kept s t) (hdata : u.data = t.data := by rfl) (hmram : u.mram = t.mram := by rfl)
    (hflash : u.flash = t.flash := by rfl) (hpending : u.pending = t.pending := by rfl) : Kept s u :=
  ⟨hpending.trans h.pending, fun w => by rw [Memory.wf, hdata, hmram, hflash]; exact h.wf w⟩

/-- An update of data memory that keeps its form. -/
theorem Kept.setData (h : Kept s t) (hdata : swf (0 : Byte) dataSize t.data = true → swf (0 : Byte) dataSize u.data = true)
    (hmram : u.mram = t.mram := by rfl) (hflash : u.flash = t.flash := by rfl) (hpending : u.pending = t.pending := by rfl) :
    Kept s u := by
  refine ⟨hpending.trans h.pending, fun w => ?_⟩
  have ht := h.wf w
  rw [Memory.wf, Bool.and_eq_true, Bool.and_eq_true] at ht ⊢
  rw [hmram, hflash]
  exact ⟨⟨hdata ht.1.1, ht.1.2⟩, ht.2⟩

/-- An update of flash that keeps its form. -/
theorem Kept.setFlash (h : Kept s t) (hflash : swf (0xFF : Byte) flashSize t.flash = true → swf (0xFF : Byte) flashSize u.flash = true)
    (hdata : u.data = t.data := by rfl) (hmram : u.mram = t.mram := by rfl) (hpending : u.pending = t.pending := by rfl) :
    Kept s u := by
  refine ⟨hpending.trans h.pending, fun w => ?_⟩
  have ht := h.wf w
  rw [Memory.wf, Bool.and_eq_true] at ht ⊢
  rw [hdata, hmram]
  exact ⟨ht.1, hflash ht.2⟩

theorem Kept.ite {c : Prop} {_ : Decidable c} (h : Kept s t) (k : Kept s u) : Kept s (if c then t else u) := by
  split
  · exact h
  · exact k

theorem Kept.ite_fst {β : Type} {c : Prop} {_ : Decidable c} {p q : State × β} (h : Kept s p.1) (k : Kept s q.1) :
    Kept s (if c then p else q).1 := by
  split
  · exact h
  · exact k

theorem Kept.pair {β : Type} {b : β} (h : Kept s t) : Kept s (t, b).1 := h

theorem Kept.foldl {α : Type} {f : State → α → State} {l : List α} (h : Kept s t)
    (hf : ∀ {u : State} {a : α}, Kept s u → Kept s (f u a)) : Kept s (l.foldl f t) := by
  induction l generalizing t with
  | nil => exact h
  | cons a l ih => exact ih (hf h)

theorem Kept.foldl_fst {α β : Type} {f : State × β → α → State × β} {l : List α} {p : State × β} (h : Kept s p.1)
    (hf : ∀ {q : State × β} {a : α}, Kept s q.1 → Kept s (f q a).1) : Kept s (l.foldl f p).1 := by
  induction l generalizing p with
  | nil => exact h
  | cons a l ih => exact ih (hf h)

theorem Kept.foldl_snd {α β : Type} {f : β × State → α → β × State} {l : List α} {p : β × State} (h : Kept s p.2)
    (hf : ∀ {q : β × State} {a : α}, Kept s q.2 → Kept s (f q a).2) : Kept s (l.foldl f p).2 := by
  induction l generalizing p with
  | nil => exact h
  | cons a l ih => exact ih (hf h)

theorem Kept.bookkept (h : Kept s t) (k : Bookkept t u) : Kept s u := h.trans ⟨k.pending, k.wf⟩

/-- Bytes written one by one keep a store canonical. -/
theorem foldl_memPut_wf {α : Type} (d : Byte) (lim : Nat) (place : α → Nat) (val : α → Byte) (l : List α) (m : Mem)
    (w : swf d lim m = true) : swf d lim (l.foldl (fun m c => memPut d lim m (place c) (val c)) m) = true := by
  induction l generalizing m with
  | nil => exact w
  | cons c l ih => exact ih _ (memPut_wf d lim m _ _ w)


/-! ### Store -/

theorem dataWrite_kept {a : Nat} {bs : Bytes} (h : Kept s t) : Kept s (dataWrite a bs t) := h.trans ⟨rfl, dataWrite_wf a bs t⟩

theorem mramWrite_kept {a : Nat} {bs : Bytes} (h : Kept s t) : Kept s (mramWrite a bs t) := h.trans ⟨rfl, mramWrite_wf a bs t⟩

theorem flashWrite_kept {a : Nat} {bs : Bytes} (h : Kept s t) : Kept s (flashWrite a bs t) := h.trans ⟨rfl, flashWrite_wf a bs t⟩

theorem flashErase_kept {a n : Nat} (h : Kept s t) : Kept s (flashErase a n t) := h.trans ⟨rfl, flashErase_wf a n t⟩

/-! ### Ops -/

theorem whenever_kept {c : Bool} {f : State → State} (h : Kept s t) (hf : ∀ {u : State}, Kept s u → Kept s (f u)) :
    Kept s (whenever c f t) := .ite (hf h) h

theorem drawn_kept (h : Kept s t) : Kept s (drawn t) := h.set

theorem ringSet_kept {n : Nat} {r : Ring} (h : Kept s t) : Kept s (ringSet n r t) := h.set

theorem ringStore_kept {n : Nat} {r : Ring} {d : Desc} (h : Kept s t) : Kept s (ringStore n r d t) :=
  ringSet_kept (dataWrite_kept h)

theorem ringPut_kept {n : Nat} {d : Desc} (h : Kept s t) : Kept s (ringPut n d t).1 := by
  unfold ringPut
  extract_lets
  split
  · exact .pair (ringSet_kept h)
  · split
    · exact .pair (ringSet_kept h)
    · split
      · exact .pair (ringStore_kept h)
      · split
        · exact .pair (ringSet_kept h)
        · exact .pair (ringStore_kept h)

theorem ringTake_kept {n : Nat} (h : Kept s t) : Kept s (ringTake n t).1 := by
  unfold ringTake
  extract_lets
  split
  · exact h
  · exact .pair (ringSet_kept h)

theorem repeatGate_kept {code key : Nat} (h : Kept s t) : Kept s (repeatGate code key t).1 := by
  unfold repeatGate
  split
  · split
    · exact h.set
    · exact h.set
  · exact h.set

theorem trDropped_kept (h : Kept s t) : Kept s (trDropped t) := h.set

theorem trDropSaid_kept (h : Kept s t) : Kept s (trDropSaid t) := h.set

theorem perform_kept {k : Nat} {w : Work} (h : Kept s t) : Kept s (perform k w t) := h.bookkept (perform_bookkept k w t)

theorem push_kept {n : Nat} {d : Desc} (h : Kept s t) : Kept s (push n d t) := perform_kept h

theorem sj_kept {code sev : Nat} {items : Bytes} (h : Kept s t) : Kept s (sj code sev items t) := perform_kept h

theorem sjMissed_kept {code sev : Nat} {items : Bytes} {missed : Nat} (h : Kept s t) : Kept s (sjMissed code sev items missed t) :=
  perform_kept h

theorem sjRep_kept {code sev key : Nat} {items : Bytes} (h : Kept s t) : Kept s (sjRep code sev key items t) :=
  h.bookkept (sjRep_bookkept code sev key items t)

theorem tr_kept {code sev : Nat} {items : Bytes} (h : Kept s t) : Kept s (tr code sev items t) := perform_kept h

theorem trRep_kept {code sev key : Nat} {items : Bytes} (h : Kept s t) : Kept s (trRep code sev key items t) :=
  h.bookkept (trRep_bookkept code sev key items t)

theorem trRepCount_kept {code sev key : Nat} {items : Nat → Bytes} (h : Kept s t) : Kept s (trRepCount code sev key items t) :=
  h.bookkept (trRepCount_bookkept code sev key items t)

theorem pushEvent_kept {t₁ : Nat} {src : Byte} {tag : Word} (h : Kept s t) : Kept s (pushEvent t₁ src tag t) :=
  push_kept (drawn_kept h)

theorem pushEventFree_kept {t₁ : Nat} {src : Byte} (h : Kept s t) : Kept s (pushEventFree t₁ src t) :=
  pushEvent_kept (drawn_kept h)

theorem drop1_kept {n : Nat} (h : Kept s t) : Kept s (drop1 n t) := ringTake_kept h

theorem timeAnchor_kept {kind : Nat} (h : Kept s t) : Kept s (timeAnchor kind t) := sj_kept h.set

theorem sjStateChange_kept {old new : OpState} (h : Kept s t) : Kept s (sjStateChange old new t) :=
  sj_kept (drawn_kept h)

theorem asyncAccept_kept {code path : Byte} (h : Kept s t) : Kept s (asyncAccept code path t) := h.set

theorem asyncDone_kept {code status : Byte} (h : Kept s t) : Kept s (asyncDone code status t) := by
  unfold asyncDone
  extract_lets
  split
  · exact h
  · exact sj_kept h.set

theorem asyncDoneFree_kept {code : Byte} (h : Kept s t) : Kept s (asyncDoneFree code t) :=
  .ite (asyncDone_kept (drawn_kept h)) h

theorem asyncCut_kept (h : Kept s t) : Kept s (asyncCut t) := .foldl h fun h => asyncDoneFree_kept h

/-! ### Metering -/

theorem rearm_kept {c : AcqCfg} (h : Kept s t) : Kept s (rearm c t) := .ite h.set h.set

theorem rearmAfterPop_kept (h : Kept s t) : Kept s (rearmAfterPop t) := by
  unfold rearmAfterPop
  split
  · exact .ite (rearm_kept h) h
  · exact h

theorem wSet_kept {w : BitVec 256} (h : Kept s t) : Kept s (wSet w t) := h.set

theorem takeSnapshot_kept (h : Kept s t) : Kept s (takeSnapshot t) := mramWrite_kept h.set

theorem logInterval_kept {flags : Byte} {tariff : Nat} {i : Interval} {count demand : Nat} (h : Kept s t) : Kept s (logInterval
    flags tariff i count demand t) := by
  unfold logInterval
  extract_lets bs s1
  have hs1 : Kept s s1 := mramWrite_kept h
  clear_value s1
  exact .ite (sj_kept hs1.set) hs1.set

theorem closeInterval_kept {flags : Byte} (h : Kept s t) : Kept s (closeInterval flags t) := by
  unfold closeInterval
  extract_lets i fl i1 d s1
  have hs1 : Kept s s1 := logInterval_kept h
  clear_value s1
  exact .ite (tr_kept hs1.set) hs1

theorem openInterval_kept {flags : Byte} (h : Kept s t) : Kept s (openInterval flags t) := h.set

theorem meterW_kept (h : Kept s t) : Kept s (meterW t) := .ite h (wSet_kept h)

theorem applyTariff_kept {new src : Nat} (h : Kept s t) : Kept s (applyTariff new src t) :=
  .ite h (sj_kept (pushEvent_kept (meterW_kept h.set)))

theorem changeTariff_kept {atBoundary : Bool} {new src : Nat} (h : Kept s t) : Kept s (changeTariff atBoundary new src t) := by
  unfold changeTariff
  extract_lets s1
  have hs1 : Kept s s1 := applyTariff_kept h
  clear_value s1
  exact .ite h (.ite hs1.set (openInterval_kept (applyTariff_kept (closeInterval_kept h))))

theorem addEnergy_kept {t₁ : TickSums} (h : Kept s t) : Kept s (addEnergy t₁ t) := by
  unfold addEnergy
  extract_lets
  split
  · exact h
  · exact h.set

theorem eventsIn_kept {sp g : Span} {coincident : Byte} (h : Kept s t) : Kept s (eventsIn sp g coincident t) := by
  have hs1 : Kept s (if boundaryIn sp g t then openInterval 0 (closeInterval (flComplete ||| coincident) t) else t) :=
    .ite (openInterval_kept (closeInterval_kept h)) h
  rw [eventsIn]
  cases tariffIn sp t with
  | some => exact changeTariff_kept hs1
  | none => exact hs1

theorem tickEvents_kept {nominal : Bool} {n : Nat} {coincident : Byte} (h : Kept s t) : Kept s (tickEvents nominal n coincident
    t) :=
  eventsIn_kept h

theorem sourceTariff_kept (h : Kept s t) : Kept s (sourceTariff t) := by
  unfold sourceTariff
  split
  · exact h
  · split
    · exact changeTariff_kept h
    · exact h

theorem clockSetTick_kept (h : Kept s t) : Kept s (clockSetTick t) := by
  unfold clockSetTick
  extract_lets s1
  have hs1 : Kept s s1 := openInterval_kept (closeInterval_kept h)
  clear_value s1
  split
  · split
    · extract_lets s3
      have hs3 : Kept s s3 := applyTariff_kept hs1.set
      exact hs3.set
    · exact hs1.set
  · exact sourceTariff_kept hs1.set

theorem outageRecord_kept {sn : Snapshot} (h : Kept s t) : Kept s (outageRecord sn t).1 := by
  unfold outageRecord
  extract_lets
  split
  · exact .pair (logInterval_kept (drawn_kept h))
  · split
    · exact h
    · exact .pair (logInterval_kept (drawn_kept h))

theorem afterOutage_kept {sn : Snapshot} (h : Kept s t) : Kept s (afterOutage sn t) := by
  unfold afterOutage
  extract_lets src s0 s1
  have hs0 : Kept s s0 := h.set
  have hs1 : Kept s s1 := closeInterval_kept hs0
  refine sj_kept ?_
  refine sourceTariff_kept ?_
  refine openInterval_kept ?_
  split
  · split
    · exact applyTariff_kept ((outageRecord_kept hs1))
    · exact (outageRecord_kept hs1)
  · exact (outageRecord_kept hs1)

theorem freezeMeter_kept {cause : Nat} (h : Kept s t) : Kept s (freezeMeter cause t) := .ite (sj_kept (takeSnapshot_kept h.set))
    h.set

theorem truncatedEvents_kept {n : Nat} (h : Kept s t) : Kept s (truncatedEvents n t) :=
  .ite (eventsIn_kept (clockSetTick_kept h)) (tickEvents_kept h)

theorem truncatedTick_kept {tick : TickSamples} (h : Kept s t) : Kept s (truncatedTick tick t) := by
  unfold truncatedTick
  extract_lets t' s1
  have hs1 : Kept s s1 := by
    unfold s1
    split
    · exact afterOutage_kept h
    · exact h
  exact .ite (freezeMeter_kept (truncatedEvents_kept (addEnergy_kept hs1))) (freezeMeter_kept h)

-- The body is put in place of the name before the argument stands: with it, the kernel would evaluate the last snapshot.
theorem startMeter_kept (h : Kept s t) : Kept s (startMeter t) := by
  obtain ⟨f, hf⟩ : ∃ f, f = startMeter := ⟨_, rfl⟩
  rw [← hf]
  delta startMeter at hf
  subst hf
  beta_reduce
  split
  · exact meterW_kept (applyTariff_kept h.set)
  · exact meterW_kept (openInterval_kept (sj_kept (applyTariff_kept h.set)))

theorem meterTick_kept {tick : TickSamples} (h : Kept s t) : Kept s (meterTick tick t) := by
  unfold meterTick
  extract_lets t' src s' s1
  have hs' : Kept s s' := h.set
  have hs1 : Kept s s1 := addEnergy_kept hs'
  split
  · exact h
  · split
    · exact meterW_kept (whenever_kept (addEnergy_kept (afterOutage_kept hs')) clockSetTick_kept)
    · exact .ite (meterW_kept (clockSetTick_kept hs1)) (meterW_kept (tickEvents_kept hs1))

/-! ### FieldIo -/

theorem refreshOutputs_kept (h : Kept s t) : Kept s (refreshOutputs t) := h.set

theorem applyOutputs_kept {v : BitVec 16} (h : Kept s t) : Kept s (applyOutputs v t) := refreshOutputs_kept h.set

theorem setGroup_kept {g : Nat} {x : DiGroup} (h : Kept s t) : Kept s (setGroup g x t) := h.set

theorem withFieldEvent_kept {f : State → State} (h : Kept s t) (hf : ∀ {u : State}, Kept s u → Kept s (f u)) :
    Kept s (withFieldEvent f t) := .ite (pushEventFree_kept (hf h)) (hf h)

theorem fieldCommand_kept {f : State → State} (h : Kept s t) (hf : ∀ {u : State}, Kept s u → Kept s (f u)) :
    Kept s (fieldCommand f t) := whenever_kept h fun h => withFieldEvent_kept h hf

theorem raiseTrigger_kept {bit which : Nat} (h : Kept s t) : Kept s (raiseTrigger bit which t) := by
  unfold raiseTrigger
  extract_lets
  split
  · exact .ite h.set h
  · exact h

theorem rawSampled_kept {n : Nat} {v : Bool} (h : Kept s t) : Kept s (rawSampled n v t) := .ite (raiseTrigger_kept h.set) h.set

theorem filterTakes_kept {n : Nat} {v : Bool} (h : Kept s t) : Kept s (filterTakes n v t) := .ite (raiseTrigger_kept h.set) h.set

theorem rawSamples_kept {n : Nat} {v : Bool} {k : Nat} (h : Kept s t) : Kept s (rawSamples n v k t) := by
  unfold rawSamples
  extract_lets s1
  have hs1 : Kept s s1 := rawSampled_kept h
  clear_value s1
  exact .ite h (.ite hs1.set (.ite (filterTakes_kept hs1) hs1.set))

theorem diOpen_kept {n : Nat} (h : Kept s t) : Kept s (diOpen n t) := .ite (sjRep_kept h.set) h

theorem diOpenCleared_kept {n : Nat} (h : Kept s t) : Kept s (diOpenCleared n t) := .ite (sjRep_kept h.set) h

theorem diGroupLost_kept {g : Nat} {reversed : Bool} (h : Kept s t) : Kept s (diGroupLost g reversed t) := sjRep_kept h.set

theorem diGroupRestored_kept {g : Nat} (h : Kept s t) : Kept s (diGroupRestored g t) := .ite (sjRep_kept (setGroup_kept h)) h

theorem vsShort_kept {g : Nat} (h : Kept s t) : Kept s (vsShort g t) := sjRep_kept h.set

theorem vsRetry_kept {g : Nat} {above15V : Bool} (h : Kept s t) : Kept s (vsRetry g above15V t) := .ite (setGroup_kept h) h

theorem setRetry_kept {k : Nat} {r : DoRetryState} (h : Kept s t) : Kept s (setRetry k r t) := h.set

theorem latchOutput_kept {cause k : Nat} (h : Kept s t) : Kept s (latchOutput cause k t) := sjRep_kept h.set

theorem tripOutput_kept {k : Nat} (h : Kept s t) : Kept s (tripOutput k t) :=
  .ite (refreshOutputs_kept (.ite (latchOutput_kept (sjRep_kept (setRetry_kept h.set))) (sjRep_kept (setRetry_kept h.set)))) h

theorem doTrip_kept {k : Nat} {sameAck : Bool} (h : Kept s t) : Kept s (doTrip k sameAck t) := tripOutput_kept (.ite
    (setRetry_kept h) h)

theorem doRetry_kept {k : Nat} (h : Kept s t) : Kept s (doRetry k t) := .ite (refreshOutputs_kept (setRetry_kept h.set)) h

theorem doRetryCountReset_kept {k : Nat} (h : Kept s t) : Kept s (doRetryCountReset k t) := .ite (setRetry_kept h) h

theorem latchGroup_kept {b : Bool} (h : Kept s t) : Kept s (latchGroup b t) :=
  refreshOutputs_kept (.foldl h.set fun h => latchOutput_kept h)

theorem doOpenLoad_kept {k : Nat} {light : Bool} (h : Kept s t) : Kept s (doOpenLoad k light t) := .ite h (.ite h.set (sjRep_kept
    h.set))

theorem backfeed_kept {k mv : Nat} (h : Kept s t) : Kept s (backfeed k mv t) := .ite h h.set

theorem doSupplyLost_kept {b reversed : Bool} (h : Kept s t) : Kept s (doSupplyLost b reversed t) :=
  refreshOutputs_kept (sjRep_kept h.set)

theorem doSupplyRestored_kept {b : Bool} (h : Kept s t) : Kept s (doSupplyRestored b t) :=
  .ite (refreshOutputs_kept (sjRep_kept h.set)) h

theorem ackOutput_kept {k : Nat} (h : Kept s t) : Kept s (ackOutput k t) := .ite h.set (setRetry_kept h)

theorem sjAcked_kept {mask : BitVec 16} {source : Nat} (h : Kept s t) : Kept s (sjAcked mask source t) := by
  unfold sjAcked
  extract_lets gate
  have hgate : Kept s ((List.range 16).foldl gate (t, 0, 0)).1 := by
    refine .foldl_fst h fun {q k} h => ?_
    have hrep := repeatGate_kept (code := 0x522) (key := k) h
    unfold gate
    split
    · split <;> rename_i he <;> rw [he] at hrep <;> exact hrep
    · exact h
  exact .ite hgate (sjMissed_kept hgate)

theorem ackOutputs_kept {source : Nat} {mask : BitVec 16} (h : Kept s t) : Kept s (ackOutputs source mask t) := by
  unfold ackOutputs
  extract_lets s1
  have hs1 : Kept s s1 := .foldl h fun h => .ite (ackOutput_kept h) h
  clear_value s1
  exact .ite h (refreshOutputs_kept (sjAcked_kept hs1.set))

theorem trgAssert_kept {k : Nat} {asserted : Bool} (h : Kept s t) : Kept s (trgAssert k asserted t) := by
  unfold trgAssert
  extract_lets src s1 s2
  have hs1 : Kept s s1 := h.set
  have hs2 : Kept s s2 := pushEventFree_kept hs1
  split
  · split
    · exact .ite (raiseTrigger_kept hs2) hs2
    · exact hs2
  · exact hs1

theorem trgDriven_kept {k : Nat} (h : Kept s t) : Kept s (trgDriven k t) := .ite h.set (pushEventFree_kept h.set)

theorem trigOutRelease_kept (h : Kept s t) : Kept s (trigOutRelease t) := h.set

/-! ### Btp -/

theorem judgeTable_kept (h : Kept s t) : Kept s (judgeTable t) := h.set

theorem checkTable_kept (h : Kept s t) : Kept s (checkTable t) := by
  unfold checkTable
  split
  · exact judgeTable_kept h
  · exact sj_kept (judgeTable_kept h)

theorem btpCommit_kept {v : BitVec 16} (h : Kept s t) : Kept s (btpCommit v t) := .ite (applyOutputs_kept h.set) h

theorem btpStep_kept {ps : List (List Int)} (h : Kept s t) : Kept s (btpStep ps t) :=
  .ite (btpCommit_kept h) (btpCommit_kept (.ite (sj_kept h.set) h.set))

/-! ### Frames -/

theorem syncSend_kept {frames : List Bytes} (h : Kept s t) : Kept s (syncSend frames t) := .ite h.set h

theorem syncSend1_kept {typ lap : Nat} {payload : Bytes} (h : Kept s t) : Kept s (syncSend1 typ lap payload t) :=
  syncSend_kept h

theorem syncControl_kept {code : Nat} {args : Bytes} (h : Kept s t) : Kept s (syncControl code args t) := syncSend1_kept h

theorem sendLeave_kept {cause : Nat} (h : Kept s t) : Kept s (sendLeave cause t) := .ite (syncControl_kept h) h

theorem setRole_kept {r : Role} (h : Kept s t) : Kept s (setRole r t) := .ite h h.set

theorem setLb_kept {p : Nat} {b : Lb} (h : Kept s t) : Kept s (setLb p b t) := h.set

theorem setLx_kept {p : Nat} {x : LbCtx} (h : Kept s t) : Kept s (setLx p x t) := h.set

theorem modLb_kept {p : Nat} {f : Lb → Lb} (h : Kept s t) : Kept s (modLb p f t) := setLb_kept h

theorem modLx_kept {p : Nat} {f : LbCtx → LbCtx} (h : Kept s t) : Kept s (modLx p f t) :=
  setLx_kept h

theorem sleepEnds_kept {p last node : Nat} (h : Kept s t) : Kept s (sleepEnds p last node t) := sj_kept (modLx_kept h)

theorem sleepEndsFree_kept {p last : Nat} (h : Kept s t) : Kept s (sleepEndsFree p last t) := sleepEnds_kept (drawn_kept h)

theorem lbPaced_kept {p : Nat} (h : Kept s t) : Kept s (lbPaced t p) :=
  .ite (sleepEndsFree_kept (.ite (setLx_kept h) h)) (.ite (setLx_kept h) h)

theorem changeRole_kept {r : Role} (h : Kept s t) : Kept s (changeRole r t) :=
  .ite h (.ite (.foldl (pushEventFree_kept (setRole_kept h)) fun h => lbPaced_kept h) (pushEventFree_kept (setRole_kept h)))

/-! ### Package -/

theorem setBank_kept {b : Bool} {x : Bank} (h : Kept s t) : Kept s (setBank b x t) := h.set

theorem readJournal_kept (h : Kept s t) : Kept s (readJournal t) := h.set

theorem journalWrite_kept (h : Kept s t) : Kept s (journalWrite t) := mramWrite_kept h.set

theorem journalPrepared_kept {k : Nat} {blk : Bytes} (h : Kept s t) : Kept s (journalPrepared k blk t) :=
  journalWrite_kept (mramWrite_kept (mramWrite_kept h.set))

theorem journalTestWord_kept (h : Kept s t) : Kept s (journalTestWord t) := mramWrite_kept (drawn_kept h)

theorem journalCommit_kept (h : Kept s t) : Kept s (journalCommit t) := journalWrite_kept (mramWrite_kept (mramWrite_kept h.set))

theorem stagingWrite_kept (h : Kept s t) : Kept s (stagingWrite t) := journalWrite_kept (flashWrite_kept (flashErase_kept h))

/-! ### LaneMem -/

theorem setLaneByte_kept {a : Nat} {v : Byte} (h : Kept s t) : Kept s (setLaneByte a v t) := .ite h.set (.ite h.set h.set)

theorem unitWrite_kept {a : Nat} {bs : Bytes} (h : Kept s t) : Kept s (unitWrite a bs t) :=
  .ite (dataWrite_kept h) (.foldl h fun h => .ite (setLaneByte_kept h) (dataWrite_kept h))

/-! ### Records -/

theorem headSave_kept (h : Kept s t) : Kept s (headSave t) := mramWrite_kept (mramWrite_kept h)

theorem sjAdvance_kept (h : Kept s t) : Kept s (sjAdvance t) := headSave_kept h.set

theorem sjPut_kept {bs : Bytes} {anchor : Bool} (h : Kept s t) : Kept s (sjPut bs anchor t) := by
  unfold sjPut
  extract_lets s1 src s2
  have hs1 : Kept s s1 := mramWrite_kept h
  clear_value s1
  have hs2 : Kept s s2 := .ite hs1.set hs1
  exact sjAdvance_kept hs2

theorem sjDirect_kept {r : Record} {code sev : Nat} {items : Bytes} (h : Kept s t) : Kept s (sjDirect r code sev items t) :=
  h.set

theorem sjWrapNote_kept {r : Record} {wrapped : Bool} (h : Kept s t) : Kept s (sjWrapNote r wrapped t) :=
  .ite (sjDirect_kept h) h

theorem sjStore_kept {r : Record} (h : Kept s t) : Kept s (sjStore r t) := sjWrapNote_kept (sjPut_kept h)

theorem sjFailed_kept {r : Record} (h : Kept s t) : Kept s (sjFailed r t) :=
  sjDirect_kept (sjWrapNote_kept (sjPut_kept h.set))

theorem sjTake_kept {r : Record} (h : Kept s t) (he : sjTake t = some (r, u)) : Kept s u := by
  unfold sjTake at he
  split at he
  · cases he; exact h.set
  · cases he; exact drop1_kept h.set
  · cases he

theorem sjRecordWrite_kept {firstOk secondOk : Bool} (h : Kept s t) : Kept s (sjRecordWrite firstOk secondOk t) := by
  unfold sjRecordWrite
  split
  · exact h
  · rename_i he
    exact .ite (sjStore_kept (sjTake_kept h he)) (sjFailed_kept (sjTake_kept h he))

theorem sjFlush_kept {limit n : Nat} (h : Kept s t) : Kept s (sjFlush limit n t) := by
  induction n generalizing t with
  | zero => exact h
  | succ n ih =>
    unfold sjFlush
    split
    · exact h
    · exact .ite (ih (sjRecordWrite_kept h)) h

theorem sjRebuild_kept (h : Kept s t) : Kept s (sjRebuild t) := sj_kept (headSave_kept h.set)

theorem sjAtStart_kept (h : Kept s t) : Kept s (sjAtStart t) := by
  unfold sjAtStart
  extract_lets
  split
  · exact h.set
  · exact sjRebuild_kept h

theorem trNext_kept (h : Kept s t) : Kept s (trNext t) := h.set

theorem trRecordWrite_kept (h : Kept s t) : Kept s (trRecordWrite t) := by
  unfold trRecordWrite
  extract_lets
  split
  · exact h
  · extract_lets s1 s2
    have hs1 : Kept s s1 := drop1_kept h.set
    have hs2 : Kept s s2 := trNext_kept (flashWrite_kept hs1)
    clear_value s2
    exact .ite hs2.set hs2

theorem trBlockErased_kept (h : Kept s t) : Kept s (trBlockErased t) := .ite (flashErase_kept h.set) h

theorem trSkipOne_kept (h : Kept s t) : Kept s (trSkipOne t) := trNext_kept h.set

theorem trSkip_kept (h : Kept s t) : Kept s (trSkip t) := .ite h (trSkipOne_kept h)

theorem jobAppend_kept {poly mode : Byte} {start length value : Nat} (h : Kept s t) : Kept s (jobAppend poly mode start length
    value t) :=
  .ite (unitWrite_kept h) h

theorem crcFrameJob_kept {poly mode : Byte} {start length : Nat} (h : Kept s t) : Kept s (crcFrameJob poly mode start length t)
    := by
  unfold crcFrameJob
  extract_lets
  split
  · split
    · extract_lets s1
      have hs1 : Kept s s1 := jobAppend_kept h
      clear_value s1
      exact .ite hs1.set hs1
  · exact tr_kept (drawn_kept (drawn_kept h.set))

theorem setJob_kept {job : Nat} {st : Byte} {v : Word} (h : Kept s t) : Kept s (setJob job st v t) := h.set

theorem crcResult_kept {job : Half} {outcome : Nat} {value : Word} (h : Kept s t) : Kept s (crcResult job outcome value t) :=
  push_kept h

theorem crcRefuse_kept {job : Half} {src : Byte} {reason : Nat} (h : Kept s t) : Kept s (crcRefuse job src reason t) :=
  crcResult_kept (drawn_kept (.ite (setJob_kept (drawn_kept (tr_kept h.set))) (tr_kept h.set)))

theorem crcScanStart_kept (h : Kept s t) : Kept s (crcScanStart t) := by
  refine .ite h ?_
  have htake := ringTake_kept (n := 12) h
  split <;> rename_i he <;> rw [he] at htake
  · exact h
  · exact .ite (crcRefuse_kept htake)
      (.ite (crcRefuse_kept htake) (Kept.set (.ite (setJob_kept (drawn_kept htake)) htake)))

theorem crcScanDone_kept (h : Kept s t) : Kept s (crcScanDone t) := by
  unfold crcScanDone
  split
  · exact h
  · split
    · extract_lets s1 w src s2 s3
      have hs1 : Kept s s1 := jobAppend_kept h
      clear_value s1
      have hs3 : Kept s s3 := .ite (setJob_kept hs1.set) hs1.set
      exact crcResult_kept hs3

theorem backpressureResume_kept {n : Nat} (h : Kept s t) : Kept s (backpressureResume n t) := by
  unfold backpressureResume
  extract_lets
  split
  · exact h
  · exact .ite h (.ite (trRep_kept (trRepCount_kept (ringStore_kept h))) (trRepCount_kept (ringStore_kept h)))

theorem qpCiWrite_kept {v : Word} (h : Kept s t) : Kept s (qpCiWrite v t) := .ite (rearmAfterPop_kept (ringSet_kept h)) h

/-! ### PxFrames -/

theorem addrDrawn_kept {a : NetAddr} (h : Kept s t) : Kept s (addrDrawn a t) := by
  cases a with
  | v4 => exact h
  | v6 => exact drawn_kept h

theorem pxPut_kept {dest : NetAddr × Half} {frame : Bytes} (h : Kept s t) : Kept s (pxPut dest frame t) :=
  .ite h h.set

theorem pxSend_kept {dest : NetAddr × Half} {typ flags : Nat} {payload : Bytes} (h : Kept s t) : Kept s (pxSend dest typ flags
    payload t) :=
  pxPut_kept h

/-! ### Respond -/

theorem sendResponse_kept {key : Option Bytes} {q : PendingReq} {status : Byte} {body : Bytes} (h : Kept s t) : Kept s
    (sendResponse key q status body t) :=
  pxPut_kept h

theorem storeResponse_kept {q : PendingReq} {frame : Bytes} (h : Kept s t) : Kept s (storeResponse q frame t) :=
  h.set

theorem mailboxOut_kept {n : Nat} (h : Kept s t) : Kept s (mailboxOut n t) := drop1_kept (push_kept (drawn_kept (drawn_kept h)))

theorem respondUnder_kept {key : Option Bytes} {a : Asked} {status : Byte} {results : Bytes} (h : Kept s t) : Kept s
    (respondUnder key a status results t) := by
  unfold respondUnder
  extract_lets r body src s1 s2
  have hs1 : Kept s s1 := h.set
  have hs2 : Kept s s2 := .ite (mailboxOut_kept hs1) hs1
  split
  · exact .ite h.set h
  · exact sendResponse_kept (storeResponse_kept hs2)

theorem respond_kept {a : Asked} {status : Byte} {results : Bytes} (h : Kept s t) : Kept s (respond a status results t) :=
  respondUnder_kept h

theorem refusalNote_kept {code path status reason : Nat} (h : Kept s t) : Kept s (refusalNote code path status reason t) :=
  sj_kept h.set

theorem reportLost_kept (h : Kept s t) : Kept s (reportLost t) := .foldl h.set fun h => respond_kept (refusalNote_kept h)

theorem answerWaiting_kept (h : Kept s t) : Kept s (answerWaiting t) := .foldl (reportLost_kept h.set) fun h => respond_kept h

/-! ### Power -/

theorem resetLap_kept (h : Kept s t) : Kept s (resetLap t) := h.set

theorem switchDefault_kept (h : Kept s t) : Kept s (switchDefault t) := h.set

theorem resetDomain_kept {d : Nat} (h : Kept s t) : Kept s (resetDomain d t) :=
  .ite (resetLap_kept h) (.ite h.set (.ite h.set (.ite h.set (.ite (switchDefault_kept h) (.ite h.set (.ite h.set (.ite h.set
      h)))))))

theorem domainOn_kept {d : Nat} (h : Kept s t) : Kept s (domainOn d t) := by
  unfold domainOn
  extract_lets s1
  have hs1 : Kept s s1 := resetDomain_kept h
  clear_value s1
  exact .ite h hs1.set

theorem domainStops_kept {d : Nat} (h : Kept s t) : Kept s (domainStops d t) :=
  .ite (refreshOutputs_kept h) (.ite h.set (.ite (asyncDoneFree_kept h.set) h))

theorem domainOff_kept {d : Nat} (h : Kept s t) : Kept s (domainOff d t) := domainStops_kept h.set

theorem domainsOff_kept {ds : List Nat} (h : Kept s t) : Kept s (domainsOff ds t) := .foldl h fun h => domainOff_kept h

theorem tripDomain_kept {d : Nat} (h : Kept s t) : Kept s (tripDomain d t) := domainOff_kept h.set

theorem stopLap_kept (h : Kept s t) : Kept s (stopLap t) := h.set

theorem holdCommand_kept (h : Kept s t) : Kept s (holdCommand t) := h.set

theorem holdReflex_kept (h : Kept s t) : Kept s (holdReflex t) := .ite (holdCommand_kept h) h

theorem holdAtEntry_kept (h : Kept s t) : Kept s (holdAtEntry t) := .ite (holdCommand_kept h) h

theorem closeSvc_kept {cause : Nat} (h : Kept s t) : Kept s (closeSvc cause t) := .ite (sj_kept h.set) h

theorem requestsCut_kept (h : Kept s t) : Kept s (requestsCut t) :=
  whenever_kept (asyncCut_kept (answerWaiting_kept h)) asyncDoneFree_kept

theorem addCause_kept {cause : Nat} (h : Kept s t) : Kept s (addCause cause t) := h.set

theorem safeState_kept {cause : Nat} (h : Kept s t) : Kept s (safeState cause t) := h.set

theorem safeCut_kept (h : Kept s t) : Kept s (safeCut t) := asyncCut_kept (reportLost_kept h)

theorem serviceOn_kept (h : Kept s t) : Kept s (serviceOn t) := by
  unfold serviceOn
  extract_lets s1
  have hs1 : Kept s s1 := domainOn_kept h
  clear_value s1
  exact domainOn_kept hs1.set

theorem serviceUp_kept (h : Kept s t) : Kept s (serviceUp t) := .ite (serviceOn_kept h) (checkTable_kept (serviceOn_kept h))

theorem enterSafe_kept {cause detail : Nat} (h : Kept s t) : Kept s (enterSafe cause detail t) := by
  unfold enterSafe
  extract_lets old src seen s1 src' s2
  have hs1 : Kept s s1 := domainsOff_kept (stopLap_kept (holdAtEntry_kept (freezeMeter_kept h.set)))
  clear_value s1
  have hs2 : Kept s s2 := safeState_kept (domainOn_kept (serviceOn_kept hs1.set))
  clear_value s2
  exact checkTable_kept (safeCut_kept (sj_kept (sjStateChange_kept hs2.set)))

theorem safeService_kept {cause detail : Nat} (h : Kept s t) : Kept s (safeService cause detail t) := by
  unfold safeService
  split
  · exact enterSafe_kept h
  · exact enterSafe_kept h
  · exact enterSafe_kept h
  · exact sj_kept (addCause_kept h)
  · exact h

theorem safeServiceFree_kept {cause : Nat} (h : Kept s t) : Kept s (safeServiceFree cause t) := safeService_kept (drawn_kept h)

theorem volatileReset_kept (h : Kept s t) : Kept s (volatileReset t) := h.setData fun _ => rfl

theorem tearRetained_kept (h : Kept s t) : Kept s (tearRetained t) := by
  unfold tearRetained
  extract_lets s1
  have hs1 : Kept s s1 := .foldl h fun h => .ite (mramWrite_kept (drawn_kept h)) (drawn_kept h)
  clear_value s1
  exact .ite hs1.set h

theorem tearRecord_kept (h : Kept s t) : Kept s (tearRecord t) := by
  unfold tearRecord
  extract_lets
  split
  · exact h
  · exact mramWrite_kept (drawn_kept (drawn_kept h))

theorem tearTrace_kept (h : Kept s t) : Kept s (tearTrace t) := by
  unfold tearTrace
  extract_lets
  split
  · exact h
  · exact flashWrite_kept (drawn_kept (drawn_kept h))

theorem shutdown_kept (h : Kept s t) : Kept s (shutdown t) :=
  volatileReset_kept (domainsOff_kept (refreshOutputs_kept (whenever_kept (sjFlush_kept (.ite (sjStateChange_kept
      (tearRetained_kept (closeSvc_kept h.set))) (tearRetained_kept (closeSvc_kept h.set)))) (fun h => tearTrace_kept
      (tearRecord_kept h)))))

theorem rtcRecord_kept {n : RtcNote} (h : Kept s t) : Kept s (rtcRecord n t) := by
  unfold rtcRecord
  split
  · exact sj_kept h
  · exact tr_kept h
  · exact sj_kept h
  · exact sj_kept h

theorem notesAtStart_kept (h : Kept s t) : Kept s (notesAtStart t) := .foldl h.set fun h => rtcRecord_kept h

theorem rtcNote_kept {n : RtcNote} (h : Kept s t) : Kept s (rtcNote n t) := .ite (rtcRecord_kept h) h.set

theorem lockPanel_kept {cause : Nat} (h : Kept s t) : Kept s (lockPanel cause t) := tr_kept h.set

theorem panelBare_kept (h : Kept s t) : Kept s (panelBare t) := .ite (lockPanel_kept (drawn_kept h)) h

theorem editNone_kept (h : Kept s t) : Kept s (editNone t) := h.set

theorem discardAtRestart_kept (h : Kept s t) : Kept s (discardAtRestart t) := .ite (sj_kept h.set) h.set

theorem emptyInactive_kept (h : Kept s t) : Kept s (emptyInactive t) := h.set

theorem freshBlocks_kept {keepPd6 : Bool} (h : Kept s t) : Kept s (freshBlocks keepPd6 t) := by
  unfold freshBlocks
  extract_lets s0 src s1
  have hs0 : Kept s s0 := domainsOff_kept (stopLap_kept (freezeMeter_kept (requestsCut_kept h)))
  clear_value s0
  have hs1 : Kept s s1 := .ite hs0.set (domainOff_kept hs0)
  clear_value s1
  exact hs1.set

theorem bringUpState_kept {kind : StartKind} {src : BitVec 4} {resume : Bool} (h : Kept s t) : Kept s (bringUpState kind src
    resume t) :=
  h.set

theorem enterDead_kept (h : Kept s t) : Kept s (enterDead t) := by
  unfold enterDead
  extract_lets old s0 src s1
  have hs0 : Kept s s0 := asyncDoneFree_kept (requestsCut_kept h)
  clear_value s0
  have hs1 : Kept s s1 := domainsOff_kept (stopLap_kept (freezeMeter_kept hs0.set))
  clear_value s1
  exact panelBare_kept (sjStateChange_kept (domainOn_kept hs1.set.set))

theorem goDead_kept {cause : Nat} {part : Option Nat} (h : Kept s t) : Kept s (goDead cause part t) := by
  unfold goDead
  extract_lets src s1
  have hs1 : Kept s s1 := enterDead_kept (journalWrite_kept h.set)
  split
  · exact sj_kept hs1
  · exact sj_kept (drawn_kept hs1)

theorem beginBringUp_kept {kind : StartKind} {src : BitVec 4} (h : Kept s t) : Kept s (beginBringUp kind src t) := by
  unfold beginBringUp
  extract_lets old s1 s2 s3 s4 held s5 s6 s7
  have hs1 : Kept s s1 := bringUpState_kept (drawn_kept (drawn_kept (freshBlocks_kept h)))
  have hs2 : Kept s s2 := trSkip_kept (sjAtStart_kept hs1)
  have hs3 : Kept s s3 := sj_kept (sjStateChange_kept hs2)
  have hs4 : Kept s s4 := notesAtStart_kept (.ite (timeAnchor_kept hs3) hs3)
  have hs5 : Kept s s5 := discardAtRestart_kept hs4
  have hs6 : Kept s s6 := lockPanel_kept (.ite (emptyInactive_kept hs5) hs5)
  have hs7 : Kept s s7 := readJournal_kept (sj_kept hs6)
  split
  · split
    · exact goDead_kept hs7
    · exact hs7
  · exact hs6

theorem countStart_kept (h : Kept s t) : Kept s (countStart t) := h.set

theorem supplyValid_kept (h : Kept s t) : Kept s (supplyValid t) := by
  unfold supplyValid
  extract_lets s1 src src' s2 s3
  have hs1 : Kept s s1 := countStart_kept h
  clear_value s1
  have hs3 : Kept s s3 := sj_kept (trSkip_kept (sjAtStart_kept hs1.set))
  split
  · exact .ite h (.ite (notesAtStart_kept (enterDead_kept (lockPanel_kept (.ite (timeAnchor_kept hs3) hs3)))) (beginBringUp_kept
        hs1))
  · exact h

theorem addSource_kept {src : BitVec 4} (h : Kept s t) : Kept s (addSource src t) := h.set

theorem wakeUp_kept {src : BitVec 4} (h : Kept s t) : Kept s (wakeUp src t) := by
  unfold wakeUp
  extract_lets
  split
  · exact beginBringUp_kept h
  · exact .ite (addSource_kept h) h
  · exact h.set
  · exact h

theorem hibernateNotes_kept (h : Kept s t) : Kept s (hibernateNotes t) :=
  requestsCut_kept (asyncDone_kept (sj_kept (sjStateChange_kept (closeSvc_kept (freezeMeter_kept (refreshOutputs_kept h.set))))))

theorem hibernateState_kept (h : Kept s t) : Kept s (hibernateState t) := by
  unfold hibernateState
  extract_lets s3
  have hs3 : Kept s s3 := domainsOff_kept (stopLap_kept h)
  clear_value s3
  exact hs3.set

theorem hibernateEntered_kept (h : Kept s t) : Kept s (hibernateEntered t) := by
  unfold hibernateEntered
  extract_lets s4
  have hs4 : Kept s s4 := hibernateState_kept (hibernateNotes_kept h)
  clear_value s4
  exact .ite (.ite (wakeUp_kept hs4.set) hs4) h

theorem raisePfw_kept (h : Kept s t) : Kept s (raisePfw t) := h.set

theorem supplyWarn_kept {mv : Half} {tick : TickSamples} (h : Kept s t) : Kept s (supplyWarn mv tick t) :=
  .ite h (.ite (truncatedTick_kept (pushEventFree_kept (sjRep_kept (withFieldEvent_kept h.set raisePfw_kept)))) (.ite (sjRep_kept
      (raisePfw_kept h.set)) h))

theorem supplyRestored_kept (h : Kept s t) : Kept s (supplyRestored t) := .ite (sjRep_kept h.set) h

theorem pd0Loss_kept (h : Kept s t) : Kept s (pd0Loss t) := h.set

theorem noteVi_kept {d : Nat} {v : PdVi} (h : Kept s t) : Kept s (noteVi d v t) := h.set

theorem batMeasure_kept {mv : Half} (h : Kept s t) : Kept s (batMeasure mv t) := by
  unfold batMeasure
  extract_lets low src s1 src' s2
  have hs1 : Kept s s1 := h.set
  have hs2 : Kept s s2 := .ite hs1.set hs1
  clear_value s2
  exact .ite (rtcNote_kept hs2.set) (.ite (rtcNote_kept hs2.set) hs2)

theorem noteSample_kept {d : Nat} {v : HubSample} (h : Kept s t) : Kept s (noteSample d v t) := by
  unfold noteSample
  extract_lets s1
  have hs1 : Kept s s1 := noteVi_kept h
  clear_value s1
  split
  · exact batMeasure_kept hs1.set
  · exact hs1.set

theorem freezeMeterFree_kept (h : Kept s t) : Kept s (freezeMeterFree t) := by
  unfold freezeMeterFree
  extract_lets s1
  have hs1 : Kept s s1 := freezeMeter_kept (drawn_kept h)
  clear_value s1
  exact .ite hs1.set h

theorem setTemp_kept {n : Nat} {t₁ : Temp} (h : Kept s t) : Kept s (setTemp n t₁ t) := h.set

theorem faultEnds_kept {part : Option Nat} {f : State → State} (h : Kept s t) (hf : ∀ {u : State}, Kept s u → Kept s (f u)) :
    Kept s (faultEnds part f t) := .ite (goDead_kept h) (hf h)

theorem heldOff_kept {warm : Bool} (h : Kept s t) : Kept s (heldOff warm t) := by
  unfold heldOff
  extract_lets t'
  have ht' : Kept s t' := shutdown_kept h
  clear_value t'
  exact ht'.set

theorem domainLost_kept {d : Nat} (h : Kept s t) : Kept s (domainLost d t) :=
  .ite (heldOff_kept h) (.ite (faultEnds_kept (tripDomain_kept h) safeService_kept) (.ite (tripDomain_kept (freezeMeterFree_kept
      h)) (.ite (tripDomain_kept h) h)))

theorem domainFault_kept {d : Nat} {kind : DomainFaultKind} {v : HubSample} (h : Kept s t) : Kept s (domainFault d kind v t) :=
  .ite (.ite (domainLost_kept (sj_kept (noteSample_kept h))) (noteSample_kept h)) h

theorem domainNotUp_kept {d : Nat} {mv : Half} (h : Kept s t) : Kept s (domainNotUp d mv t) :=
  .ite (domainLost_kept (sj_kept (noteVi_kept h))) h

theorem tempWarning_kept {n : Nat} {x : TempSamples} (h : Kept s t) : Kept s (tempWarning n x t) :=
  .ite (sj_kept (setTemp_kept h)) (setTemp_kept h)

theorem tempNormal_kept {n : Nat} {x : TempSamples} (h : Kept s t) : Kept s (tempNormal n x t) :=
  .ite (sj_kept (setTemp_kept h)) (setTemp_kept h)

theorem tempCool_kept {n : Nat} {x : TempSamples} (h : Kept s t) : Kept s (tempCool n x t) := .ite h.set h

theorem tempOff_kept {d : Nat} (h : Kept s t) : Kept s (tempOff d t) := tripDomain_kept (.ite (sj_kept (drawn_kept (drawn_kept
    h))) h)

theorem tempEffect_kept {n : Nat} (h : Kept s t) : Kept s (tempEffect n t) :=
  .ite (heldOff_kept h) (.ite (faultEnds_kept (tempOff_kept (tempOff_kept h)) safeService_kept) (.ite (faultEnds_kept
      (tempOff_kept (tempOff_kept h)) safeService_kept) (.ite (tempOff_kept h) (.ite (withFieldEvent_kept h latchGroup_kept) h))))

theorem tempShutdown_kept {n : Nat} {x : TempSamples} (h : Kept s t) : Kept s (tempShutdown n x t) :=
  .ite (tempEffect_kept (sj_kept (setTemp_kept (tempWarning_kept h)))) (tempWarning_kept h)

theorem setWd_kept {l : Lane} {w : Watchdog} (h : Kept s t) : Kept s (setWd l w t) := by
  unfold setWd
  extract_lets
  split <;> exact h.set

theorem laneFound_kept {l : Lane} {w : Watchdog} (h : Kept s t) : Kept s (laneFound l w t) := by
  unfold laneFound
  extract_lets t'
  have ht' : Kept s t' := setWd_kept h
  clear_value t'
  exact ht'.set

theorem raiseLaneFault_kept {l : Lane} {k : LaneFaultKind} {gapMs : Nat} (h : Kept s t) : Kept s (raiseLaneFault l k gapMs t) :=
  faultEnds_kept (sj_kept h) safeService_kept

theorem laneKick_kept {l : Lane} {v : Half} (h : Kept s t) : Kept s (laneKick l v t) :=
  .ite h (.ite (raiseLaneFault_kept (laneFound_kept h)) (.ite (raiseLaneFault_kept (laneFound_kept h)) (setWd_kept h)))

theorem laneFault_kept {l : Lane} {k : LaneFaultKind} {gapMs : Nat} (h : Kept s t) : Kept s (laneFault l k gapMs t) :=
  .ite (raiseLaneFault_kept (laneFound_kept h)) h

theorem btpLap_kept {ps : List (List Int)} (h : Kept s t) : Kept s (btpLap ps t) := by
  unfold btpLap
  split
  · exact btpStep_kept (.ite h (serviceUp_kept h))
  · exact btpStep_kept h
  · exact h

/-! ### Operands -/

theorem setImg_kept {i : Images} (h : Kept s t) : Kept s (setImg i t) := .ite h.set h.set

theorem lapWrites_kept {a n : Nat} (h : Kept s t) : Kept s (lapWrites a n t) := .ite h.set h

theorem bitWrite_kept {a : Area} {i : Nat} {b : Bool} (h : Kept s t) : Kept s (bitWrite a i b t) := by
  unfold bitWrite
  extract_lets
  split
  · exact lapWrites_kept (setImg_kept h)
  · exact lapWrites_kept (setImg_kept h)
  · exact lapWrites_kept (dataWrite_kept h)
  · exact h

theorem elemWrite_kept {a : Area} {w e v : Nat} (h : Kept s t) : Kept s (elemWrite a w e v t) := by
  unfold elemWrite
  extract_lets
  split
  · exact lapWrites_kept (setImg_kept h)
  · exact lapWrites_kept (setImg_kept h)
  · exact lapWrites_kept (dataWrite_kept h)
  · exact h

theorem recPut_kept {o : Nat} {ws : List Word} (h : Kept s t) : Kept s (recPut o ws t) := lapWrites_kept (dataWrite_kept h)

theorem enterTop_kept {typ : BitVec 8} {number : Nat} (h : Kept s t) : Kept s (enterTop typ number t) := h.set

theorem blockSticky_kept (h : Kept s t) : Kept s (blockSticky t) := h.set

theorem nextBlock_kept (h : Kept s t) : Kept s (nextBlock t) := by
  unfold nextBlock
  extract_lets
  split
  · exact enterTop_kept h.set
  · exact h.set

theorem blockEnds_kept (h : Kept s t) : Kept s (blockEnds t) := by
  unfold blockEnds
  extract_lets t'
  have ht' : Kept s t' := blockSticky_kept h
  clear_value t'
  split
  · exact ht'.set
  · exact nextBlock_kept ht'

theorem settle_kept {k : Nat} (h : Kept s t) : Kept s (settle k t) := by
  induction k generalizing t with
  | zero => exact h
  | succ k ih => exact .ite (ih (blockEnds_kept h)) h

theorem advance_kept {n : Nat} (h : Kept s t) : Kept s (advance n t) := settle_kept h.set

theorem goTo_kept {t₁ : Nat} (h : Kept s t) : Kept s (goTo t₁ t) := settle_kept h.set

theorem enterFunc_kept {n : Nat} (h : Kept s t) : Kept s (enterFunc n t) := h.set

theorem endTrial_kept {reason code : Nat} (h : Kept s t) : Kept s (endTrial reason code t) := sj_kept h.set

theorem abortTrial_kept {reason : Nat} (h : Kept s t) : Kept s (abortTrial reason t) := .ite (endTrial_kept h) h

theorem noteFault_kept {code : Nat} (h : Kept s t) : Kept s (noteFault code t) := h.set

theorem lapFaulted_kept {code cause : Nat} (h : Kept s t) : Kept s (lapFaulted code cause t) :=
  safeService_kept (sj_kept (noteFault_kept h))

theorem lapAbort_kept {f : LapFault} (h : Kept s t) : Kept s (lapAbort f t) := by
  unfold lapAbort
  extract_lets
  split
  · exact .ite (endTrial_kept (sj_kept h.set)) (safeService_kept (sj_kept h.set))
  · exact .ite (endTrial_kept h) (lapFaulted_kept h)

/-- The state in which an instruction or its lap fault leaves the unit. -/
def lappedState : Lapped → State
  | .ok t => t
  | .error (_, t) => t

theorem settled_kept {r : Lapped} {f : State → State} (h : Kept s (lappedState r)) (hf : ∀ {u : State}, Kept s u → Kept s (f u)) :
    Kept s (settled (r.map f)) := by
  cases r with
  | ok t => exact hf h
  | error e => exact lapAbort_kept h

theorem countBit_kept (h : Kept s t) : Kept s (countBit t) := h.set

theorem countWord_kept (h : Kept s t) : Kept s (countWord t) := h.set

theorem noteSeen_kept (h : Kept s t) : Kept s (noteSeen t) := h.set

/-! ### BitPath -/

theorem fetchBit_kept {a : Area} {i : Nat} {f : Bool → Lapped} (h : Kept s t) (hf : ∀ b, Kept s (lappedState (f b))) :
    Kept s (lappedState (fetchBit a i t >>= f)) := by
  unfold fetchBit
  split
  · exact h
  · exact hf _

theorem setBa_kept {b : Bool} (h : Kept s t) : Kept s (setBa b t) := h.set

theorem combineOp_kept {k : BitVec 3} {a : Area} {i : Nat} (h : Kept s t) : Kept s (lappedState (combineOp k a i t)) :=
  fetchBit_kept h fun _ => setBa_kept h

theorem openOp_kept {k : BitVec 3} {a : Area} {i : Nat} (h : Kept s t) : Kept s (lappedState (openOp k a i t)) := by
  refine fetchBit_kept h fun _ => ?_
  split
  · exact h.set
  · exact setBa_kept h.set

theorem closeOp_kept (h : Kept s t) : Kept s (lappedState (closeOp t)) := by
  unfold closeOp
  split
  · exact h.set
  · exact setBa_kept h.set

theorem edgeOp_kept {rising : Bool} {n : Nat} (h : Kept s t) : Kept s (lappedState (edgeOp rising n t)) :=
  fetchBit_kept h fun _ => setBa_kept (lapWrites_kept (setImg_kept h))

theorem jumpOp_kept {taken : Bool} {offset : BitVec 20} (h : Kept s t) : Kept s (jumpOp taken offset t) :=
  .ite (goTo_kept h.set) (advance_kept h.set)

theorem countBitWord_kept (h : Kept s t) : Kept s (countBitWord t) := h.set

/-! ### Verify -/

theorem noteVerify_kept {r : Option VerFail} (h : Kept s t) : Kept s (noteVerify r t) := h.set

theorem programRejected_kept {f : VerFail} {source : Nat} (h : Kept s t) : Kept s (programRejected f source t) :=
  sj_kept (noteVerify_kept h)

/-! ### Reflex -/

theorem reflexStep_kept (h : Kept s t) : Kept s (reflexStep t) := .ite (refreshOutputs_kept h.set) h

theorem reflexReset_kept {hold : Bool} (h : Kept s t) : Kept s (reflexReset hold t) := h.set

theorem reflexStart_kept (h : Kept s t) : Kept s (reflexStart t) := refreshOutputs_kept (reflexReset_kept h)

theorem reflexHandover_kept (h : Kept s t) : Kept s (reflexHandover t) := refreshOutputs_kept (reflexReset_kept h)

/-! ### Pairs -/

theorem pairNotes_kept {n dt : Nat} {a b : Bool} {notes : List PairNote} (h : Kept s t) : Kept s (pairNotes n dt a b notes t) := by
  unfold pairNotes
  refine .foldl h fun h => ?_
  extract_lets
  split
  · exact sj_kept h.set
  · exact sj_kept h
  · exact sj_kept h
  · exact h.set

theorem pairStep_kept {n : Nat} (h : Kept s t) : Kept s (pairStep n t).1 := by
  unfold pairStep
  extract_lets
  split
  · exact h
  · split
    exact .pair (.ite (lapWrites_kept (setImg_kept h)) (pairNotes_kept (lapWrites_kept (setImg_kept h))))

theorem pairsEval_kept (h : Kept s t) : Kept s (pairsEval t).1 := by
  unfold pairsEval
  generalize hp : List.foldl _ _ _ = p
  have hpairs : Kept s p.1 := hp ▸ .foldl_fst h fun h => pairStep_kept h
  obtain ⟨s1, m⟩ := p
  exact Kept.pair hpairs.set

theorem pairsSafe_kept (h : Kept s t) : Kept s (pairsSafe t) := h.set

theorem pairsPublish_kept (h : Kept s t) : Kept s (pairsPublish t) := h.set

theorem pairsAck_kept {mask : Half} (h : Kept s t) : Kept s (pairsAck mask t) :=
  .foldl (setImg_kept h) fun h => lapWrites_kept h

theorem spairCheck_kept (h : Kept s t) : Kept s (spairCheck t) := .foldl h fun h => .ite (sjRep_kept h.set) h

theorem testWindow_kept {k : Nat} {readback : Bool} (h : Kept s t) : Kept s (testWindow k readback t) := .ite h.set (sj_kept h.set)

theorem switchOffTest_kept {m : Nat} {even odd : Bool} (h : Kept s t) : Kept s (switchOffTest m even odd t) :=
  .ite (testWindow_kept (testWindow_kept h)) h

theorem pairReadback_kept {m : Nat} {v : Bool} (h : Kept s t) : Kept s (pairReadback m v t) := h.set

theorem spairStuck_kept {m : Nat} (h : Kept s t) : Kept s (spairStuck m t) := .ite (sj_kept (pairReadback_kept h.set)) h

theorem spairFree_kept {m : Nat} (h : Kept s t) : Kept s (spairFree m t) := pairReadback_kept h.set

/-! ### Plant -/

theorem publish_kept {halt : Bool} (h : Kept s t) : Kept s (publish halt t) := .foldl h fun h => pxSend_kept h

theorem takeAll_kept {k n : Nat} (h : Kept s t) : Kept s (takeAll k n t).1 := by
  induction k generalizing t with
  | zero => exact h
  | succ k ih =>
    have htake := ringTake_kept (n := n) h
    unfold takeAll
    split <;> rename_i he <;> rw [he] at htake
    · exact ih htake
    · exact htake

theorem drainSubs_kept (h : Kept s t) : Kept s (drainSubs t).1 := .foldl_fst h fun h => takeAll_kept h

theorem copyP_kept {off : Nat} {bs : Bytes} (h : Kept s t) : Kept s (copyP off bs t) := h.set

theorem noteImage_kept {e len : Nat} (h : Kept s t) : Kept s (noteImage e len t) := h.set

theorem staleRaised_kept {e : Nat} {sub : SubEntry} (h : Kept s t) : Kept s (staleRaised e sub t) :=
  pushEvent_kept (sjRep_kept h)

theorem freezeSub_kept {ds : List Desc} {x : Nat × SubEntry} (h : Kept s t) : Kept s (freezeSub ds t x) := by
  unfold freezeSub
  split
  · extract_lets mine age stale s0 s1
    have hs0 : Kept s s0 := by
      unfold s0
      split
      · exact noteImage_kept h
      · exact h
    have hs1 : Kept s s1 := copyP_kept hs0
    clear_value s1
    exact .ite (staleRaised_kept hs1.set) hs1.set

theorem freezeP_kept (h : Kept s t) : Kept s (freezeP t).1 := .pair (.foldl ((drainSubs_kept h)) fun h => freezeSub_kept h)

theorem subsReset_kept (h : Kept s t) : Kept s (subsReset t) := .foldl h.set fun h => staleRaised_kept h

theorem mbApply_kept {w : MbWrite} (h : Kept s t) : Kept s (mbApply w t) :=
  .foldl h fun h => .ite (lapWrites_kept h.set) (lapWrites_kept (dataWrite_kept h))

theorem mbFreezeOne_kept {w : MbWrite} (h : Kept s t) : Kept s (mbFreezeOne w t).1 :=
  .ite_fst (.pair (trRep_kept (addrDrawn_kept (mbApply_kept h)))) h

theorem mbFreeze_kept (h : Kept s t) : Kept s (mbFreeze t) := by
  refine Kept.set (.foldl_fst h fun h => ?_)
  split
  · exact mbFreezeOne_kept h
  · exact h

theorem mbSend_kept {conn : Nat} {bs : Bytes} (h : Kept s t) : Kept s (mbSend conn bs t) := .ite h.set h

theorem mbException_kept {conn : Nat} {tid : Half} {unit fc : Byte} {code : Nat} (h : Kept s t) : Kept s (mbException conn tid
    unit fc code t) :=
  mbSend_kept h

theorem mbRespond_kept {w : MbWrite} (h : Kept s t) : Kept s (mbRespond w t) :=
  .ite (mbException_kept h) (mbSend_kept h)

theorem mbCommit_kept (h : Kept s t) : Kept s (mbCommit t) := by
  unfold mbCommit
  extract_lets copy src s1 s2
  have hs1 : Kept s s1 := h.set
  have hs2 : Kept s s2 := .foldl hs1 fun h => mbRespond_kept h
  clear_value s2
  exact hs2.set

/-! ### Standby -/

theorem setStateByte_kept {x : Nat} {v : Byte} (h : Kept s t) : Kept s (setStateByte x v t) :=
  .ite h.set (.ite h.set (.ite h.set (.ite h.set (.ite h.set (.ite h.set (.ite (dataWrite_kept h) h))))))

theorem setStateBytes_kept {off : Nat} {bs : Bytes} (h : Kept s t) : Kept s (setStateBytes off bs t) :=
  .foldl h fun h => setStateByte_kept h

theorem digestScan_kept {lap : Nat} {overran : Bool} (h : Kept s t) : Kept s (digestScan lap overran t) := h.set

theorem batonFail_kept {reason : Nat} (h : Kept s t) : Kept s (batonFail reason t) := .ite h (asyncDoneFree_kept (sj_kept h.set))

theorem startResync_kept (h : Kept s t) : Kept s (startResync t) := by
  unfold startResync
  extract_lets lap s1
  have hs1 : Kept s s1 := syncControl_kept h
  clear_value s1
  exact sj_kept hs1.set

theorem withdrawPacer_kept {cause : Nat} (h : Kept s t) : Kept s (withdrawPacer cause t) := by
  unfold withdrawPacer
  extract_lets s1 s2
  have hs1 : Kept s s1 := syncControl_kept h
  have hs2 : Kept s s2 := sj_kept (changeRole_kept hs1)
  clear_value s2
  exact hs2.set

theorem divergence_kept {cause lap : Nat} (h : Kept s t) : Kept s (divergence cause lap t) :=
  .ite (withdrawPacer_kept (abortTrial_kept (batonFail_kept (sj_kept h.set)))) (startResync_kept (abortTrial_kept (batonFail_kept
      (sj_kept h.set))))

theorem compareHashes_kept {now : Nat} (h : Kept s t) : Kept s (compareHashes now t) := by
  unfold compareHashes
  extract_lets got pairs late skipped bad missing
  cases bad with
  | some => exact divergence_kept h.set
  | none =>
    cases missing with
    | some => exact divergence_kept h.set
    | none => exact h.set

theorem snapPages_kept (h : Kept s t) : Kept s (snapPages t) := h.set

theorem resyncSend_kept {slackUs : Nat} (h : Kept s t) : Kept s (resyncSend slackUs t) := by
  have hsend (fs : List Bytes) (ps : List Nat) :
      Kept s (syncSend fs (snapPages { t with sbx := { t.sbx with rsMarked := ps } })) := syncSend_kept (snapPages_kept h.set)
  have hset {u v : State} (hu : Kept s u) (e : (v.pending, v.data, v.mram, v.flash) = (u.pending, u.data, u.mram, u.flash)) :
      Kept s v := by
    obtain ⟨hp, hd, hm, hf⟩ : _ ∧ _ ∧ _ ∧ _ := by simpa only [Prod.mk.injEq] using e
    exact hu.set hd hm hf hp
  unfold resyncSend
  extract_lets
  split
  · exact hset (hsend _ _) rfl
  · split
    · exact sj_kept (hset (hsend _ _) rfl)
    · exact hset (hsend _ _) rfl

theorem migrateSend_kept (h : Kept s t) : Kept s (migrateSend t) := snapPages_kept (syncSend_kept h.set)

theorem takeTokens_kept {p : Bytes} (h : Kept s t) : Kept s (takeTokens p t) := h.set

/-! ### Landing -/

theorem lbChange_kept {p : Nat} {f : Lb → Lb} (h : Kept s t) : Kept s (lbChange p f t) :=
  .ite (pushEvent_kept (.ite (sj_kept (setLb_kept h)) (setLb_kept h))) (.ite (sj_kept (setLb_kept h)) (setLb_kept h))

theorem storeFrame_kept {p ts : Nat} {f : CanFrame} (h : Kept s t) : Kept s (storeFrame p ts f t) :=
  .ite (trRepCount_kept (modLx_kept (modLb_kept (push_kept h)))) (modLx_kept (modLb_kept (push_kept (dataWrite_kept h))))

theorem canOut_kept {p : Nat} {f : CanFrame} (h : Kept s t) : Kept s (canOut p f t) := h.set

theorem txDone_kept {p ts : Nat} {f : CanFrame} (h : Kept s t) : Kept s (txDone p ts f t) :=
  lbChange_kept (canOut_kept (storeFrame_kept h))

theorem txPush_kept {src : Byte} {p : Nat} {f : CanFrame} (h : Kept s t) : Kept s (txPush src p f t) :=
  push_kept (.ite h (dataWrite_kept h))

theorem setNode_kept {p n : Nat} {x : Node} (h : Kept s t) : Kept s (setNode p n x t) := modLx_kept h

theorem modNode_kept {p n : Nat} {f : Node → Node} (h : Kept s t) : Kept s (modNode p n f t) :=
  setNode_kept h

theorem setTests_kept {p n : Nat} {x : NodeTests} (h : Kept s t) : Kept s (setTests p n x t) := h.set

theorem markResync_kept {p n off : Nat} (h : Kept s t) : Kept s (markResync p n off t) :=
  sj_kept (.ite (modNode_kept h) (txPush_kept (modNode_kept h)))

theorem beaconHeard_kept {p ts : Nat} {f : CanFrame} (h : Kept s t) : Kept s (beaconHeard p ts f t) := by
  unfold beaconHeard
  split
  · exact h
  · split
    · exact h
    · exact .ite (markResync_kept (modNode_kept (modNode_kept h))) (modNode_kept h)

theorem noteTest_kept {p kind : Nat} {t₁ : RunningTest} {n : Nat} (h : Kept s t) : Kept s (noteTest p kind t₁ t n) :=
  setTests_kept h

theorem noteAbort_kept {p n : Nat} (h : Kept s t) : Kept s (noteAbort p t n) := setTests_kept h

theorem setSched_kept {p : Nat} {x : BusSched} (h : Kept s t) : Kept s (setSched p x t) := h.set

theorem noteStart_kept {p kind group : Nat} {id : Word} (h : Kept s t) : Kept s (noteStart p kind group id t) :=
  .ite (modLx_kept (setSched_kept h)) (setSched_kept h)

theorem pacerCommand_kept {p : Nat} {f : CanFrame} (h : Kept s t) : Kept s (pacerCommand p f t) :=
  .ite h (.ite (noteStart_kept (.foldl h fun h => noteTest_kept h)) (.ite (.foldl h fun h => noteAbort_kept h) h))

theorem noteReference_kept {p ts : Nat} {f : CanFrame} (h : Kept s t) : Kept s (noteReference p ts f t) :=
  .ite h (modLx_kept (modLb_kept h))

theorem lbFrame_kept {p : Nat} {f : CanFrame} (h : Kept s t) : Kept s (lbFrame p f t) :=
  .ite (pacerCommand_kept (noteReference_kept (beaconHeard_kept (storeFrame_kept (.ite (drawn_kept (lbChange_kept h)) h))))) h

theorem applyEntry_kept {p ts : Nat} {f : CanFrame} {k : Nat × FilterEntry} (h : Kept s t) : Kept s (applyEntry p ts f t k) :=
  .ite h (.ite (modLb_kept h) (.ite (modLx_kept h.set) h.set))

theorem liveBits_kept {p : Nat} (h : Kept s t) : Kept s (liveBits p t) := .foldl h fun h => .ite h.set h

theorem cutTable_kept {p : Nat} (h : Kept s t) : Kept s (cutTable t p) := modLx_kept h

theorem applyFrame_kept {m : Nat × Nat × CanFrame} (h : Kept s t) : Kept s (applyFrame t m) :=
  .foldl h fun h => applyEntry_kept h

theorem cutRest_kept {p : Nat} (h : Kept s t) : Kept s (cutRest t p) := modLx_kept h

theorem lImageCut_kept (h : Kept s t) : Kept s (lImageCut t) := by
  unfold lImageCut
  extract_lets s0 s1
  have hs0 : Kept s s0 := .foldl h fun h => cutTable_kept h
  have hs1 : Kept s s1 := .foldl (.foldl hs0 fun h => applyFrame_kept h) fun h => liveBits_kept (cutRest_kept h)
  clear_value s1
  exact .ite (.foldl hs1.set fun h => modLx_kept h) h

theorem tmStop_kept {p : Nat} {tm : BitVec 3} (h : Kept s t) : Kept s (tmStop p tm t) :=
  .ite (sj_kept (drawn_kept (modLb_kept h))) (modLb_kept h)

theorem tmHalt_kept {p : Nat} {tm : BitVec 3} (h : Kept s t) : Kept s (tmHalt p tm t) := .ite (tmStop_kept h) h

theorem lbError_kept {p : Nat} {kind : BitVec 4} {transmitter : Bool} {count : ErrCount} (h : Kept s t) : Kept s (lbError p kind
    transmitter count t) :=
  .ite h (.ite (modLb_kept h) (.ite (.ite (sleepEndsFree_kept (tmHalt_kept (modLx_kept (sj_kept (lbChange_kept (modLb_kept
      h)))))) (tmHalt_kept (modLx_kept (sj_kept (lbChange_kept (modLb_kept h)))))) (lbChange_kept (modLb_kept h))))

theorem lbTransmit_kept {p : Nat} {completed : Option Nat} (h : Kept s t) : Kept s (lbTransmit p completed t) := by
  unfold lbTransmit
  extract_lets b n
  refine .ite h (.ite (modLb_kept (drop1_kept h)) (.ite h ?_))
  have htake := ringTake_kept (n := n) h
  split <;> rename_i he <;> rw [he] at htake
  · exact htake
  · refine .ite htake ?_
    split
    · exact h
    · exact txDone_kept htake

theorem recoveryDone_kept {p : Nat} (h : Kept s t) : Kept s (recoveryDone p t) := .ite (sj_kept (lbChange_kept h)) h

theorem sendWaiting_kept {p : Nat} (h : Kept s t) : Kept s (sendWaiting p t) := by
  unfold sendWaiting
  extract_lets s1
  have hs1 : Kept s s1 := modLx_kept h
  split
  · exact .ite hs1 (txDone_kept hs1)
  · exact h

theorem polarity_kept {p : Nat} {on : Bool} (h : Kept s t) : Kept s (polarity p on t) :=
  .ite (.ite (tmHalt_kept (sj_kept (lbChange_kept h))) (sendWaiting_kept (sj_kept (lbChange_kept h)))) h

theorem lbListen_kept (h : Kept s t) : Kept s (lbListen t) := .foldl h fun h => .ite (lbChange_kept h) h

theorem lbNormal_kept (h : Kept s t) : Kept s (lbNormal t) := by
  unfold lbNormal
  split
  · refine .foldl h fun h => ?_
    split
    · exact h
    · split
      · exact lbChange_kept h
      · exact modLb_kept h
      · exact h
  · exact h

theorem nextCycle_kept {p : Nat} {sending backup : Bool} (h : Kept s t) : Kept s (nextCycle p sending backup t) := by
  unfold nextCycle
  extract_lets
  split
  · exact modLx_kept h
  · split <;> exact modLx_kept h

theorem tmConflict_kept {p cause : Nat} (h : Kept s t) : Kept s (tmConflict p cause t) := sj_kept (modLb_kept (tmStop_kept h))

theorem tmSend_kept {p : Nat} {backup : Bool} {completed : Option Nat} {bitError : Bool} (h : Kept s t) : Kept s (tmSend p backup
    completed bitError t) := by
  unfold tmSend
  extract_lets mode sending s1 x s2
  have hs1 : Kept s s1 := modLb_kept (nextCycle_kept h)
  have hs2 : Kept s s2 := .ite hs1 (sj_kept hs1)
  split
  · exact txDone_kept (modLb_kept hs2)
  · exact .ite (modLx_kept (tmConflict_kept hs2)) hs2

theorem tmDefer_kept {p : Nat} (h : Kept s t) : Kept s (tmDefer p t) := .ite h (modLx_kept (tmConflict_kept h))

theorem tmBoundary_kept {p : Nat} {completed : Option Nat} {bitError : Bool} (h : Kept s t) : Kept s (tmBoundary p completed
    bitError t) := by
  unfold tmBoundary
  extract_lets c b x s1 s2 s1'
  have hs1 : Kept s s1 := modLx_kept h
  have hs2 : Kept s s2 := modLx_kept hs1
  have hs1' : Kept s s1' := .ite (modLx_kept h) h
  split
  · exact h
  · split
    · exact .ite (tmDefer_kept hs1) (.ite hs2 (tmSend_kept hs2))
    · split
      · exact .ite (tmSend_kept hs1') (tmStop_kept hs1')
      · exact tmStop_kept hs1'

theorem beaconStatus_kept {p n : Nat} {boot : Bool} {data : Bytes} (h : Kept s t) : Kept s (beaconStatus p n boot data t) :=
  .ite h (.ite (sj_kept (.ite (sj_kept (setNode_kept h)) (setNode_kept h))) (.ite (sj_kept (setNode_kept h)) (setNode_kept h)))

theorem nodeMissing_kept {p n : Nat} (h : Kept s t) : Kept s (nodeMissing p n t) := .ite (sj_kept (modNode_kept h)) h

theorem startTest_kept {p kind group len : Nat} {nodes : List Nat} (h : Kept s t) : Kept s (startTest p kind group len nodes t) :=
  .ite h (sj_kept (noteStart_kept (.foldl h fun h => noteTest_kept (txPush_kept h))))

theorem beaconScheduler_kept {p : Nat} (h : Kept s t) : Kept s (beaconScheduler p t) := by
  unfold beaconScheduler
  extract_lets x fts s1
  have hs1 : Kept s s1 := startTest_kept h
  split
  · exact h
  · split
    · exact hs1
    · split
      · exact hs1
      · exact startTest_kept hs1

theorem endTest_kept {p n kind id result minutes : Nat} (h : Kept s t) : Kept s (endTest p n kind id result minutes t) :=
  sj_kept (setTests_kept h)

theorem testReport_kept {p n : Nat} {data : Bytes} (h : Kept s t) : Kept s (testReport p n data t) :=
  .ite (endTest_kept h) h

theorem testNoReport_kept {p n : Nat} (h : Kept s t) : Kept s (testNoReport p n t) := .ite (.foldl h fun h => endTest_kept h) h

theorem testAbort_kept (h : Kept s t) : Kept s (testAbort t) := by
  refine .ite h (.foldl h fun h => .ite ?_ h)
  extract_lets busy ids t1
  have ht1 : Kept s t1 := .foldl (txPush_kept h) fun h => noteAbort_kept h
  cases ids with
  | cons => exact sj_kept ht1
  | nil => exact sj_kept (drawn_kept ht1)

theorem sleepRef_kept {p flags : Nat} (h : Kept s t) : Kept s (sleepRef p flags t) := .ite h (.ite (modLx_kept h) (txDone_kept h))

theorem sleepCommit_kept {p : Nat} (h : Kept s t) : Kept s (sleepCommit p t) :=
  .foldl (modLx_kept (sleepRef_kept h)) fun h => modNode_kept h

theorem sleepRequest_kept {p n : Nat} (h : Kept s t) : Kept s (sleepRequest p n t) :=
  .ite (sj_kept (modLx_kept (drawn_kept h))) (.ite (sleepCommit_kept (.foldl (sleepRef_kept (modLx_kept h)) fun h => modNode_kept
      h)) (.foldl (sleepRef_kept (modLx_kept h)) fun h => modNode_kept h))

theorem beaconVote_kept {p n : Nat} {data : Bytes} (h : Kept s t) : Kept s (beaconVote p n data t) :=
  .ite h (.ite (sleepEnds_kept h) (.ite (.ite (sleepCommit_kept (setNode_kept h)) (setNode_kept h)) h))

theorem voteTimeout_kept {p : Nat} (h : Kept s t) : Kept s (voteTimeout p t) := by
  unfold voteTimeout
  split
  · exact .ite (sleepEnds_kept h) h
  · exact h

theorem sleepCancel_kept {p : Nat} (h : Kept s t) : Kept s (sleepCancel p t) := by
  unfold sleepCancel
  refine sleepRef_kept ?_
  split
  · exact sleepEnds_kept h
  · exact sleepEndsFree_kept h

theorem settleEnd_kept {p : Nat} (h : Kept s t) : Kept s (settleEnd p t) :=
  .ite h (.ite (sleepCancel_kept h) (sj_kept (tmHalt_kept (modLx_kept h))))

theorem busWake_kept {p kind : Nat} (h : Kept s t) : Kept s (busWake p kind t) := sj_kept (modLx_kept h)

theorem wakeRequest_kept {p : Nat} (h : Kept s t) : Kept s (wakeRequest p t) := by
  unfold wakeRequest
  split
  · exact h
  · split
    · exact sleepCancel_kept h
    · exact busWake_kept h
    · exact h

theorem timedWake_kept {p : Nat} (h : Kept s t) : Kept s (timedWake p t) := .ite (busWake_kept (.foldl h fun h => modNode_kept h)) h

theorem wakeSlotEnd_kept {p n : Nat} (h : Kept s t) : Kept s (wakeSlotEnd p n t) := .ite (markResync_kept (drawn_kept h)) h

theorem lbWakeNow_kept {p : Nat} (h : Kept s t) : Kept s (lbWakeNow p t) := .ite (busWake_kept h) h

/-! ### MainsWatch -/

theorem setWin_kept {ch : Nat} {w : Win} (h : Kept s t) : Kept s (setWin ch w t) := h.set

theorem setPhase_kept {p : Nat} {x : Phase} (h : Kept s t) : Kept s (setPhase p x t) := h.set

theorem mainsW_kept {c : AcqCfg} (h : Kept s t) : Kept s (mainsW c t) := wSet_kept h

theorem mainsChanged_kept {c : AcqCfg} {w : BitVec 256} (h : Kept s t) : Kept s (mainsChanged c w t) := by
  unfold mainsChanged
  extract_lets f tag s1 s2
  have hs1 : Kept s s1 := .ite (sj_kept (pushEvent_kept h)) h
  have hs2 : Kept s s2 := .ite (testAbort_kept hs1) hs1
  clear_value s2
  exact .ite (sj_kept (pushEvent_kept hs2.set)) hs2

theorem windowBits_kept {c : AcqCfg} {ch rms : Nat} {crossing ovr : Bool} (h : Kept s t) : Kept s (windowBits c ch rms crossing
    ovr t) :=
  h.set

theorem windowEnd_kept {c : AcqCfg} {ch : Nat} {w : Win} {crossing : Bool} (h : Kept s t) : Kept s (windowEnd c ch w crossing t) :=
  .ite (mainsChanged_kept (mainsW_kept (setPhase_kept (windowBits_kept h)))) (windowBits_kept h)

theorem rawSample_kept {c : AcqCfg} {ch : Nat} {x : Int} (h : Kept s t) : Kept s (rawSample c ch t x) :=
  .ite (windowEnd_kept (setWin_kept h)) (setWin_kept h)

theorem halfCycleEnd_kept {ch : Nat} {xs : List Int} (h : Kept s t) : Kept s (halfCycleEnd ch xs t) := by
  unfold halfCycleEnd
  split
  · exact h
  · exact .ite h (.foldl h fun h => rawSample_kept h)

theorem samplingStart_kept (h : Kept s t) : Kept s (samplingStart t) := by
  unfold samplingStart
  extract_lets src s1
  have hs1 : Kept s s1 := h.set
  split
  · exact .ite (mainsW_kept (wSet_kept hs1)) h
  · exact h

theorem samplingResume_kept (h : Kept s t) : Kept s (samplingResume t) := by
  unfold samplingResume
  extract_lets re src s1
  have hs1 : Kept s s1 := h.set
  split
  · exact rearm_kept (mainsChanged_kept (mainsW_kept hs1))
  · exact hs1

theorem captureDrop_kept (h : Kept s t) : Kept s (captureDrop t) := .ite h.set h

theorem aiOverRange_kept {ch : Nat} {positive : Bool} (h : Kept s t) : Kept s (aiOverRange ch positive t) := by
  unfold aiOverRange
  extract_lets
  split
  · exact .ite (sjRep_kept h.set) h
  · exact h

theorem swTrigger_kept {v : Word} (h : Kept s t) : Kept s (swTrigger v t) := .ite (raiseTrigger_kept h) h

theorem triggerLost_kept {sources : BitVec 6} {cause : Nat} (h : Kept s t) : Kept s (triggerLost sources cause t) := tr_kept h.set

theorem recordTrigger_kept {prev cur : Int} (h : Kept s t) : Kept s (recordTrigger prev cur t) := by
  unfold recordTrigger
  split
  · exact h
  · extract_lets src detail s0
    have hs0 : Kept s s0 := .ite (drawn_kept h) h
    clear_value s0
    split
    · exact h
    · split
      · exact hs0.set.set
      · split
        · exact triggerLost_kept hs0.set
        · exact .ite (triggerLost_kept hs0.set) (.ite (trgDriven_kept hs0.set.set) hs0.set.set)

theorem measure_kept {k hyst : Nat} {ovr : Bool} {xs : List Int} (h : Kept s t) : Kept s (measure k hyst ovr xs t).2.2 := by
  unfold measure
  extract_lets
  split
  · exact drawn_kept (drawn_kept (drawn_kept (drawn_kept h)))
  · exact h

theorem foldl_blocks_kept {f : List Bytes × Nat × State → Nat → List Bytes × Nat × State} {l : List Nat} {p : List Bytes × Nat ×
    State}
    (h : Kept s p.2.2) (hf : ∀ {q a}, Kept s q.2.2 → Kept s (f q a).2.2) : Kept s (l.foldl f p).2.2 := by
  induction l generalizing p with
  | nil => exact h
  | cons a l ih => exact ih (hf h)

theorem recordBytes_kept {c : AcqCfg} {g : Nat} {k : Capture} {pts : List Point} {raw : BitVec 4} {seq : Word} (h : Kept s t) :
    Kept s (recordBytes c g k pts raw seq t).2.2 := foldl_blocks_kept h fun h => measure_kept h

theorem recordStored_kept {rawAll : List Point} (h : Kept s t) : Kept s (recordStored rawAll t) := by
  unfold recordStored
  split
  · exact h
  · rename_i c _
    split
    · exact h
    · rename_i k _
      refine .ite h ?_
      extract_lets g pts raw seq
      have hrecord : Kept s (recordBytes c g k pts raw seq t).2.2 := recordBytes_kept h
      split
      rename_i bs sat s1 he
      rw [he] at hrecord
      extract_lets acq s2 s3 s4 acq4 s5
      have hs2 : Kept s s2 := dataWrite_kept hrecord.set
      have hs4 : Kept s s4 := .ite (tr_kept (push_kept hs2)) (push_kept hs2)
      have hs5 : Kept s s5 := push_kept (drawn_kept hs4)
      clear_value s4 s5
      exact .ite hs4.set (rearm_kept hs5.set)

/-! ### Retain -/

theorem writeThrough_kept (h : Kept s t) : Kept s (writeThrough t) := by
  unfold writeThrough
  extract_lets src src' s1 parts old n s1'
  have hs1 : Kept s s1 := h.set
  have hs1' : Kept s s1' := .foldl h fun h => mramWrite_kept h
  clear_value s1'
  exact .ite (.ite hs1 (sj_kept hs1)) hs1'.set

theorem restoreTimer_kept {n : Nat} {bs : Bytes} (h : Kept s t) : Kept s (restoreTimer n bs t) := .ite h h.set

theorem restoreCounter_kept {n cv : Nat} (h : Kept s t) : Kept s (restoreCounter n cv t) := h.set

theorem restoreRange_kept {a : Nat} {r : RetRange} (h : Kept s t) : Kept s (restoreRange a r t) := by
  unfold restoreRange
  extract_lets
  split
  · exact h.set
  · exact dataWrite_kept h
  · exact .foldl h fun h => restoreTimer_kept h
  · exact .foldl h fun h => restoreCounter_kept h
  · exact h

theorem restoreRetentive_kept (h : Kept s t) : Kept s (restoreRetentive t) :=
  .foldl_snd (h.setData (memErase_wf _ _ _ _ _)) fun h => restoreRange_kept h

theorem restoreAtStart_kept (h : Kept s t) : Kept s (restoreAtStart t) := by
  unfold restoreAtStart
  extract_lets s0
  have hs0 : Kept s s0 := restoreRetentive_kept h
  clear_value s0
  exact .ite (sj_kept hs0.set) hs0.set

/-! ### Switch -/

theorem modPipe_kept {w : Bool} {f : Pipe → Pipe} (h : Kept s t) : Kept s (modPipe w f t) := h.set

theorem applyUpset_kept {u₁ : Upset} (h : Kept s t) : Kept s (applyUpset u₁ t) := by
  unfold applyUpset
  extract_lets
  split
  · exact modPipe_kept h
  · exact modPipe_kept h
  · exact .ite h.set h

theorem applyUpsets_kept {us : List Upset} (h : Kept s t) : Kept s (applyUpsets us t) := .foldl h fun h => applyUpset_kept h

theorem perrNote_kept {w pfx : Bool} {finder i : Nat} (h : Kept s t) : Kept s (perrNote w pfx finder i t) :=
  .ite (sj_kept (modPipe_kept h)) h

theorem noteWays_kept {w : Bool} {finder : Nat} {mac : BitVec 48} {vid : BitVec 12} (h : Kept s t) : Kept s (noteWays w finder
    mac vid t) :=
  .foldl h fun h => perrNote_kept h

theorem scrubPipe_kept {w : Bool} (h : Kept s t) : Kept s (scrubPipe w t) :=
  .foldl (.foldl h fun h => modPipe_kept (perrNote_kept h)) fun h => perrNote_kept h

theorem scrub_kept {us : List Upset} (h : Kept s t) : Kept s (scrub us t) :=
  .ite (applyUpsets_kept h) (scrubPipe_kept (scrubPipe_kept (applyUpsets_kept h)))

theorem learnNow_kept {w : Bool} {port : Nat} {mac : BitVec 48} {vid : BitVec 12} (h : Kept s t) : Kept s (learnNow w port mac
    vid t).1 := by
  unfold learnNow
  extract_lets s1
  have hs1 : Kept s s1 := noteWays_kept h
  split
  · extract_lets
    split
    · exact hs1
    · exact .pair (modPipe_kept hs1)
  · split
    · exact .pair (modPipe_kept hs1)
    · exact .pair (trRep_kept (modPipe_kept hs1))

theorem learnLater_kept {w : Bool} {port : Nat} {mac : BitVec 48} {vid : BitVec 12} (h : Kept s t) : Kept s (learnLater w port
    mac vid t) :=
  modPipe_kept h

theorem learn_kept {port : Nat} {mac : BitVec 48} {vid : BitVec 12} (h : Kept s t) : Kept s (learn port mac vid t).1 := by
  unfold learn
  extract_lets
  split
  · exact h
  · split
    · exact .pair (learnLater_kept h)
    · exact learnNow_kept h

theorem applyLearned_kept {w : Bool} (h : Kept s t) : Kept s (applyLearned w t) := .foldl (modPipe_kept h) fun h => learnNow_kept h

theorem macAging_kept (h : Kept s t) : Kept s (macAging t) :=
  .ite h (.ite (.ite h (modPipe_kept h)) (modPipe_kept (.ite h (modPipe_kept h))))

theorem modPort_kept {p : Nat} {f : Port → Port} (h : Kept s t) : Kept s (modPort p f t) := h.set

theorem showMrp_kept (h : Kept s t) : Kept s (showMrp t) := modPort_kept (modPort_kept h)

theorem notePfx_kept {w : Bool} {f : Inner} (h : Kept s t) : Kept s (notePfx w f t) :=
  .ite (.foldl h fun h => perrNote_kept h) h

theorem cpuRefill_kept (h : Kept s t) : Kept s (cpuRefill t) := h.set

theorem toCpu_kept {port : Nat} {byPfx : Bool} {ts : Nat} {f : Inner} (h : Kept s t) : Kept s (toCpu port byPfx ts f t) :=
  .ite (trRepCount_kept h.set) (.ite (push_kept (modPort_kept h.set)) (push_kept (dataWrite_kept (modPort_kept h.set))))

theorem enqueue_kept {p cls : Nat} {x : Bool × Bytes} (h : Kept s t) : Kept s (enqueue p cls x t) := modPort_kept h

theorem toPort_kept {cls : Nat} {f : Inner} {p : Nat} (h : Kept s t) : Kept s (toPort cls f t p) := enqueue_kept h

theorem portTick_kept {p : Nat} (h : Kept s t) : Kept s (portTick t p) := by
  unfold portTick
  extract_lets
  split
  · exact h
  · split
    exact .foldl (modPort_kept h) fun h => h.set

theorem stormAdmit_kept {port : Nat} (h : Kept s t) : Kept s (stormAdmit port t).1 := by
  unfold stormAdmit
  extract_lets x y src s1
  have hs1 : Kept s s1 := h.set
  split
  · exact h.set
  · exact .pair (trRepCount_kept hs1)

theorem egress_kept {port : Nat} {set5 members : BitVec 5} {ts : Nat} {f : Inner} (h : Kept s t) : Kept s (egress port set5
    members ts f t) :=
  .ite (modPort_kept (notePfx_kept h)) (.ite (modPort_kept (notePfx_kept h)) (.ite (toCpu_kept (.foldl (notePfx_kept h) fun h =>
      toPort_kept h)) (.foldl (notePfx_kept h) fun h => toPort_kept h)))

theorem destination_kept {port : Nat} {failed : Bool} {v : Vlan} {ts : Nat} {f : Inner} (h : Kept s t) :
    Kept s (destination port failed v ts f t) := by
  unfold destination
  extract_lets w dst s1 hit limited
  have hs1 : Kept s s1 := noteWays_kept h
  have hadmission : Kept s (if limited then stormAdmit port s1 else (s1, true)).1 := by
    split
    · exact stormAdmit_kept hs1
    · exact hs1
  exact .ite (egress_kept h) (.ite hadmission (egress_kept (.ite (modPort_kept hadmission) hadmission)))

theorem fromVlan_kept {port ts : Nat} {f : Inner} (h : Kept s t) : Kept s (fromVlan port ts f t) := by
  unfold fromVlan
  extract_lets
  split
  · exact modPort_kept h
  · exact .ite (modPort_kept h) (destination_kept ((learn_kept h)))

theorem mrpSend_kept {p : Nat} {group : Byte} {tlv : Bytes} (h : Kept s t) : Kept s (mrpSend p group tlv t) :=
  .ite (enqueue_kept h.set) h

theorem mrpTest_kept {p : Nat} (h : Kept s t) : Kept s (mrpTest t p) := mrpSend_kept h

theorem mrpTests_kept {ms : Nat} (h : Kept s t) : Kept s (mrpTests ms t) := .foldl h.set fun h => mrpTest_kept h

theorem mrpTopology_kept {left : Nat} (h : Kept s t) : Kept s (mrpTopology left t) := .foldl h.set fun h => mrpSend_kept h

theorem mrpLink_kept {x : LinkChange} (h : Kept s t) : Kept s (mrpLink x t) := .ite h.set (mrpSend_kept h.set)

theorem mrpTick_kept (h : Kept s t) : Kept s (mrpTick t) := by
  unfold mrpTick
  extract_lets s1
  have hs1 : Kept s s1 := .ite (mrpTests_kept h) h
  split
  · exact .ite (mrpTopology_kept hs1) hs1
  · split
    · split
      · exact .ite (showMrp_kept (mrpLink_kept h)) h
      · exact h
    · exact h

theorem mrpIn_kept {p : Nat} {f : Inner} (h : Kept s t) : Kept s (mrpIn p f t) :=
  .ite (.ite (enqueue_kept h) h) (.ite (mrpTests_kept h) h)

theorem mrpLinkChanged_kept {p : Nat} {up : Bool} (h : Kept s t) : Kept s (mrpLinkChanged p up t) := .ite (showMrp_kept h.set) h

theorem bbFrame_kept {port : Nat} {fcsOk : Bool} {frame : Bytes} {begunAgo : Nat} {us : List Upset} (h : Kept s t) : Kept s
    (bbFrame port fcsOk frame begunAgo us t) := by
  unfold bbFrame
  extract_lets s0 f s1
  have hs0 : Kept s s0 := applyUpsets_kept h
  have hs1 : Kept s s1 := modPort_kept hs0
  exact .ite (applyUpsets_kept h) (.ite (modPort_kept hs0) (.ite hs1 (.ite (mrpIn_kept hs1) (.ite hs1 (fromVlan_kept hs1)))))

theorem cpuTransmit_kept {us : List Upset} (h : Kept s t) : Kept s (cpuTransmit us t) := by
  refine .ite (applyUpsets_kept h) ?_
  have htake := ringTake_kept (n := 7) h
  split <;> rename_i he <;> rw [he] at htake
  · exact applyUpsets_kept h
  · exact fromVlan_kept (modPort_kept (applyUpsets_kept htake))

theorem linkDown_kept {p : Nat} (h : Kept s t) : Kept s (linkDown p t) :=
  .ite (mrpLinkChanged_kept (sjRep_kept (modPipe_kept (modPort_kept h)))) h

theorem linkUp_kept {p : Nat} {speed : BitVec 2} {full mdix : Bool} (h : Kept s t) : Kept s (linkUp p speed full mdix t) :=
  .ite (mrpLinkChanged_kept (sjRep_kept (modPort_kept h))) h

theorem topologyChange_kept (h : Kept s t) : Kept s (topologyChange t) := by
  unfold topologyChange
  extract_lets n s1 src s2
  have hs1 : Kept s s1 := modPipe_kept (modPipe_kept h)
  clear_value s1
  have hs2 : Kept s s2 := .ite (mrpTopology_kept hs1) (showMrp_kept hs1.set)
  clear_value s2
  exact .ite (tr_kept hs2.set) h

theorem ringOpen_kept {p : Nat} (h : Kept s t) : Kept s (ringOpen p t) := .ite (sj_kept (showMrp_kept h.set)) h

theorem ringClosed_kept (h : Kept s t) : Kept s (ringClosed t) := .ite (sj_kept (showMrp_kept h.set)) h

theorem tblResult_kept {r : Option (Nat × MacEntry)} (h : Kept s t) : Kept s (tblResult r t) := by
  unfold tblResult
  extract_lets
  split <;> exact h.set

theorem tblSearch_kept {c : TblCmd} (h : Kept s t) : Kept s (tblSearch c t) := tblResult_kept (noteWays_kept h)

theorem tblNextEntry_kept {c : TblCmd} (h : Kept s t) : Kept s (tblNextEntry c t) := tblResult_kept h

theorem tblInsert_kept {c : TblCmd} (h : Kept s t) : Kept s (tblInsert c t).1 := by
  unfold tblInsert
  extract_lets vid s1
  have hs1 : Kept s s1 := .foldl h fun h => noteWays_kept h
  split
  · exact .pair (.foldl hs1 fun h => modPipe_kept h)
  · exact hs1

theorem tblDelete_kept {c : TblCmd} (h : Kept s t) : Kept s (tblDelete c t) := by
  unfold tblDelete
  extract_lets vid s1 found s2
  have hs1 : Kept s s1 := .foldl h fun h => noteWays_kept h
  have hs2 : Kept s s2 := .foldl hs1 fun h => modPipe_kept h
  clear_value s2
  exact hs2.set

theorem tblFlush_kept {c : TblCmd} (h : Kept s t) : Kept s (tblFlush c t) := .foldl h fun h => modPipe_kept h

theorem tblRun_kept {c : TblCmd} (h : Kept s t) : Kept s (tblRun c t).1 := by
  unfold tblRun
  extract_lets
  split
  · exact .pair (tblSearch_kept h)
  · split
    · exact .pair (tblNextEntry_kept h)
    · split
      · exact .pair ((tblInsert_kept h))
      · split
        · exact .pair (tblDelete_kept h)
        · split
          · exact .pair (tblFlush_kept h)
          · exact h.set

theorem tblStatus_kept {st : Byte} (h : Kept s t) : Kept s (tblStatus st t) := h.set

theorem rehashDone_kept (h : Kept s t) : Kept s (rehashDone t) := by
  unfold rehashDone
  extract_lets
  split
  · exact h
  · split
    exact asyncDone_kept (applyLearned_kept (tr_kept (tblStatus_kept (modPipe_kept h.set))))

theorem lockTake_kept {agent : Byte} (h : Kept s t) : Kept s (lockTake agent t) := .ite h.set h

theorem lockFree_kept (h : Kept s t) : Kept s (lockFree t) := applyLearned_kept (applyLearned_kept h.set)

theorem lockRelease_kept {agent : Byte} (h : Kept s t) : Kept s (lockRelease agent t) := .ite (lockFree_kept h) h

theorem lockTimeout_kept (h : Kept s t) : Kept s (lockTimeout t) := by
  unfold lockTimeout
  extract_lets s1
  have hs1 : Kept s s1 := tr_kept h
  clear_value s1
  exact .ite (lockFree_kept hs1.set) h

theorem dmaStart_kept {agent : Byte} {v : Word} (h : Kept s t) : Kept s (dmaStart agent v t) :=
  .ite h (.ite h.set h.set)

theorem dmaEntry_kept {j : DmaJob} {k : Nat} (h : Kept s t) : Kept s (dmaEntry j t k) :=
  .ite (modPipe_kept h) (unitWrite_kept h)

theorem dmaEntries_kept {j : DmaJob} {n : Nat} (h : Kept s t) : Kept s (dmaEntries j n t) :=
  .foldl h fun h => dmaEntry_kept h

theorem dmaTick_kept (h : Kept s t) : Kept s (dmaTick t) := by
  unfold dmaTick
  split
  · exact h
  · extract_lets n s1
    have hs1 : Kept s s1 := dmaEntries_kept h
    clear_value s1
    exact .ite h hs1.set

theorem dmaDone_kept (h : Kept s t) : Kept s (dmaDone t) := by
  unfold dmaDone
  split
  · exact h
  · extract_lets s1
    have hs1 : Kept s s1 := dmaEntries_kept h
    clear_value s1
    exact hs1.set

theorem switchTick_kept (h : Kept s t) : Kept s (switchTick t) :=
  .ite (dmaTick_kept (.foldl (mrpTick_kept h) fun h => portTick_kept h)) h

theorem pfxApply_kept (h : Kept s t) : Kept s (pfxApply t) := by
  unfold pfxApply
  extract_lets
  split
  · exact h
  · exact .ite h (tr_kept (modPipe_kept (modPipe_kept h.set)))

theorem pfxCommit_kept {bs : Bytes} (h : Kept s t) : Kept s (pfxCommit bs t) := .ite (pfxApply_kept h.set) h

theorem applyBbsw_kept {c : BbswCfg} (h : Kept s t) : Kept s (applyBbsw c t) := by
  unfold applyBbsw
  extract_lets n0 s1 n1 same src
  have hs1 : Kept s s1 := modPipe_kept (modPipe_kept h)
  clear_value src s1
  generalize hp : (if c.mrpRole = 0 then _ else _ : State × BitVec 2) = p
  have hring : Kept s p.1 := hp ▸ .ite_fst hs1 (.ite_fst hs1 (.ite_fst hs1.set (drawn_kept hs1)))
  obtain ⟨s2, ring⟩ := p
  exact sj_kept (showMrp_kept hring.set)

/-! ### Mould -/

theorem mouldInvalid_kept {f : MouldFail} {via : Nat} (h : Kept s t) : Kept s (mouldInvalid f via t) := sj_kept h.set

/-! ### Press -/

theorem pressIomap_kept {m : Mould} (h : Kept s t) : Kept s (pressIomap m t) := h.set

theorem pressQueues_kept {m : Mould} (h : Kept s t) : Kept s (pressQueues m t) := by
  unfold pressQueues
  extract_lets
  split
  exact h.set

theorem moveEarly_kept (h : Kept s t) : Kept s (moveEarly t) := by
  have htake := takeAll_kept (k := 4096) (n := 14) h
  unfold moveEarly
  generalize takeAll 4096 14 t = p at htake ⊢
  obtain ⟨s1, ds⟩ := p
  exact .foldl htake fun h => push_kept (dataWrite_kept h)

theorem setRegion_kept {k : Nat} {st : BitVec 4} (h : Kept s t) : Kept s (setRegion k st t) := h.set

theorem showReflex_kept {r : MouldRest} (h : Kept s t) : Kept s (showReflex r t) := h.set

theorem pressPorts_kept {ports : List Nat} {m : Mould} (h : Kept s t) : Kept s (pressPorts ports m t) :=
  .foldl h fun h => modLb_kept h

theorem pressTerms_kept {ports : List Nat} {m : Mould} (h : Kept s t) : Kept s (pressTerms ports m t) :=
  .foldl h fun h => modLb_kept h

theorem pressPanel_kept {r : MouldRest} (h : Kept s t) : Kept s (pressPanel r t) := h.set

theorem showMould_kept {m : Mould} (h : Kept s t) : Kept s (showMould m t) := h.set

theorem pressMould_kept {m : Mould} {r : MouldRest} (h : Kept s t) : Kept s (pressMould m r t) :=
  showMould_kept (pressPanel_kept (showReflex_kept (pressTerms_kept (pressIomap_kept (moveEarly_kept (pressQueues_kept
      (restoreAtStart_kept (.ite h.set (domainOff_kept h.set)))))))))

theorem swapRegion_kept {k : Nat} {m : Mould} {r : MouldRest} (h : Kept s t) : Kept s (swapRegion k m r t) := by
  unfold swapRegion
  extract_lets
  split
  · exact h
  · exact h.set

theorem portStop_kept {p : Nat} (h : Kept s t) : Kept s (portStop t p) := .ite (lbChange_kept (tmHalt_kept (modLx_kept h))) h

theorem portStart_kept {m : Mould} {p : Nat} (h : Kept s t) : Kept s (portStart m t p) :=
  .ite (.ite (.ite (modLx_kept (pressPorts_kept h)) (pressPorts_kept h)) (lbChange_kept (.ite (modLx_kept (pressPorts_kept h))
      (pressPorts_kept h)))) (lbChange_kept (.ite (modLx_kept (pressPorts_kept h)) (pressPorts_kept h)))

theorem regionStop_kept {k : Nat} {st : BitVec 4} (h : Kept s t) : Kept s (regionStop k st t) :=
  .ite (setRegion_kept (.foldl h fun h => portStop_kept h)) (.ite (setRegion_kept (captureDrop_kept (wSet_kept h)))
      (setRegion_kept (holdReflex_kept h)))

theorem regionStart_kept {k : Nat} {m : Mould} {r : MouldRest} (h : Kept s t) : Kept s (regionStart k m r t) := by
  unfold regionStart
  extract_lets s1
  have hs1 : Kept s s1 := setRegion_kept (swapRegion_kept h)
  exact .ite (.ite (.foldl hs1 fun h => portStart_kept h) (pressTerms_kept hs1)) (.ite (.ite (samplingResume_kept hs1) hs1) (.ite
      (reflexStart_kept (showReflex_kept hs1)) (showReflex_kept hs1)))

theorem editSuperseded_kept (h : Kept s t) : Kept s (editSuperseded t) := .ite (sj_kept (editNone_kept (abortTrial_kept h))) h

theorem repressOk_kept {x : Repress} (h : Kept s t) : Kept s (repressOk x t) :=
  asyncDone_kept (editSuperseded_kept (sj_kept (showMould_kept h.set)))

theorem repressFailed_kept {k restored : Nat} (h : Kept s t) : Kept s (repressFailed k restored t) :=
  asyncDoneFree_kept (sj_kept h.set)

theorem repressNext_kept {x : Repress} (h : Kept s t) : Kept s (repressNext x t) := by
  unfold repressNext
  extract_lets src s1
  have hs1 : Kept s s1 := h.set
  split
  · exact regionStop_kept h.set
  · exact .ite (setRegion_kept hs1) (regionStop_kept hs1)
  · exact repressOk_kept h
  · exact repressFailed_kept h

theorem beginRepress_kept {mask : Nat} {bank : Bool} {m : Mould} {r : MouldRest} (h : Kept s t) : Kept s (beginRepress mask bank
    m r t) :=
  repressNext_kept (sj_kept h)

theorem regionPressDone_kept {ok : Bool} (h : Kept s t) : Kept s (regionPressDone ok t) := by
  unfold regionPressDone
  extract_lets
  split
  · exact h
  · split
    · exact h
    · exact .ite (repressNext_kept (regionStart_kept h)) (repressNext_kept h)
    · exact .ite (repressNext_kept (regionStart_kept h)) (safeService_kept (setRegion_kept (.ite (holdCommand_kept h) h)))

/-! ### WordPath -/

theorem fetchElem_kept {w : Nat} {a : Area} {e : Nat} {f : Nat → Lapped} (h : Kept s t) (hf : ∀ n, Kept s (lappedState (f n))) :
    Kept s (lappedState (fetchElem w a e t >>= f)) := by
  unfold fetchElem
  split
  · exact h
  · exact hf _

theorem setAcc1_kept {v : Word} (h : Kept s t) : Kept s (setAcc1 v t) := h.set

theorem setAcc2_kept {v : Word} (h : Kept s t) : Kept s (setAcc2 v t) := h.set

theorem setFlags_kept {r : Res} (h : Kept s t) : Kept s (setFlags r t) := h.set

theorem putRes_kept {r : Res} (h : Kept s t) : Kept s (putRes r t) := setAcc1_kept (setFlags_kept h)

theorem noteFe_kept {special : Bool} (h : Kept s t) : Kept s (noteFe special t) := h.set

theorem callOp_kept {n : Nat} (h : Kept s t) : Kept s (lappedState (callOp n t)) := by
  unfold callOp
  split
  · exact h
  · exact enterFunc_kept h

/-! ### SysBlocks -/

theorem sbRefused_kept (h : Kept s t) : Kept s (sbRefused t).state := h

theorem queueAction_kept {a : Action} (h : Kept s t) : Kept s (queueAction a t) := h.set

theorem setTimer_kept {n : Nat} {t₁ : Timer} (h : Kept s t) : Kept s (setTimer n t₁ t) :=
  lapWrites_kept (setImg_kept h)

theorem sbTimer_kept {f : Word → Bool → Word → Timer → Timer} {args : List Word} (h : Kept s t) : Kept s (sbTimer f args t).state
    := by
  unfold sbTimer
  extract_lets
  split
  · exact sbRefused_kept h
  · exact setTimer_kept h

theorem sbCounter_kept {args : List Word} (h : Kept s t) : Kept s (sbCounter args t).state := by
  unfold sbCounter
  extract_lets
  split
  · exact sbRefused_kept h
  · exact lapWrites_kept (setImg_kept h)

theorem sbLapInfo_kept (h : Kept s t) : Kept s (sbLapInfo t).state := h

theorem sbEventInfo_kept (h : Kept s t) : Kept s (sbEventInfo t).state := h

theorem sbRtcRead_kept (h : Kept s t) : Kept s (sbRtcRead t).state := h

theorem sbFieldStatus_kept (h : Kept s t) : Kept s (sbFieldStatus t).state := h

theorem sbSafeStatus_kept (h : Kept s t) : Kept s (sbSafeStatus t).state := h

theorem sbAct_kept {ok : Bool} {a : Action} (h : Kept s t) : Kept s (sbAct ok a t).state := by
  unfold sbAct
  split
  · exact queueAction_kept h
  · exact sbRefused_kept h

theorem sbDoAck_kept {m : Word} (h : Kept s t) : Kept s (sbDoAck m t).state := queueAction_kept h

theorem sbSafeAck_kept {m : Word} (h : Kept s t) : Kept s (sbSafeAck m t).state := queueAction_kept h

theorem sbLbFilter_kept {port table count : Word} (h : Kept s t) : Kept s (sbLbFilter port table count t).state :=
  sbAct_kept h

theorem sbLbSend_kept {port id len dat : Word} (h : Kept s t) : Kept s (sbLbSend port id len dat t).state :=
  sbAct_kept h

theorem sbBeaconPlan_kept {args : List Word} (h : Kept s t) : Kept s (sbBeaconPlan args t).state := sbAct_kept h

theorem sbLbSleep_kept {port action n : Word} (h : Kept s t) : Kept s (sbLbSleep port action n t).state :=
  sbAct_kept h

theorem sbPfxLoad_kept {table count : Word} (h : Kept s t) : Kept s (sbPfxLoad table count t).state :=
  sbAct_kept h

theorem sbMbWriteEn_kept {m : Word} (h : Kept s t) : Kept s (sbMbWriteEn m t).state := queueAction_kept h

theorem sbEncSet_kept {c : Word} (h : Kept s t) : Kept s (sbEncSet c t).state := sbAct_kept h

theorem sbEffect_kept {n : Nat} {args : List Word} (h : Kept s t) : Kept s (sbEffect n args t).state := by
  unfold sbEffect
  extract_lets
  split
  · exact sbTimer_kept h
  · exact sbTimer_kept h
  · exact sbTimer_kept h
  · exact sbCounter_kept h
  · exact sbLapInfo_kept h
  · exact sbEventInfo_kept h
  · exact sbAct_kept h
  · exact sbRtcRead_kept h
  · exact queueAction_kept h
  · exact sbFieldStatus_kept h
  · exact sbDoAck_kept h
  · exact sbSafeStatus_kept h
  · exact sbSafeAck_kept h
  · exact queueAction_kept h
  · exact sbLbFilter_kept h
  · exact sbLbSend_kept h
  · exact sbBeaconPlan_kept h
  · exact sbLbSleep_kept h
  · exact sbPfxLoad_kept h
  · exact sbMbWriteEn_kept h
  · exact sbEncSet_kept h
  · exact queueAction_kept h
  · exact sbRefused_kept h

theorem sbCall_kept {n : Nat} (h : Kept s t) : Kept s (lappedState (sbCall n t)) := by
  unfold sbCall
  extract_lets off
  split
  extract_lets r u first
  have hu : Kept s u := by
    unfold u
    split
    · exact recPut_kept (sbEffect_kept h)
    · exact sbEffect_kept h
  split
  · exact h
  · exact hu.set

/-! ### Lap -/

theorem freezeOwn_kept (h : Kept s t) : Kept s (freezeOwn t).1 := .pair (mbFreeze_kept ((freezeP_kept h.set)))

theorem captureTime_kept (h : Kept s t) : Kept s (captureTime t) := h.set

theorem drainEvent_kept {t₁ : Nat} (h : Kept s t) : Kept s (drainEvent t₁ t).1 := by
  unfold drainEvent
  extract_lets
  split
  · exact h
  · exact .pair (ringSet_kept h)

theorem drainEvents_kept (h : Kept s t) : Kept s (drainEvents t) := by
  unfold drainEvents
  generalize hp : List.foldl _ _ _ = p
  have hdrained : Kept s p.1 := by
    refine hp ▸ .foldl_fst h fun {q k} h => ?_
    have hdrain := drainEvent_kept (t₁ := k) h
    split <;> rename_i he <;> rw [he] at hdrain <;> exact hdrain
  obtain ⟨s1, es⟩ := p
  exact hdrained.set

theorem addEvent_kept {e : EventInfo} (h : Kept s t) : Kept s (addEvent e t) := .ite h.set h

theorem addAdopted_kept (h : Kept s t) : Kept s (addAdopted t) := addEvent_kept (drawn_kept (drawn_kept h))

theorem ownPairs_kept (h : Kept s t) : Kept s (ownPairs t) := by
  have hpairs := pairsEval_kept h
  unfold ownPairs
  generalize pairsEval t = p at hpairs ⊢
  obtain ⟨s1, m⟩ := p
  exact .ite hpairs (addEvent_kept hpairs)

theorem beginExecution_kept {r : Running} (h : Kept s t) : Kept s (beginExecution r t) :=
  settle_kept (enterTop_kept h.set)

theorem adoptEdit_kept (h : Kept s t) : Kept s (adoptEdit t) := asyncDone_kept (sj_kept h.set)

theorem adoptDue_kept (h : Kept s t) : Kept s (adoptDue t) := .ite (adoptEdit_kept h) h

theorem adoptCheck_kept (h : Kept s t) : Kept s (adoptCheck t) := .ite (.ite h.set (.ite (asyncDoneFree_kept (sj_kept h.set))
    h.set)) h

theorem batonCheck_kept (h : Kept s t) : Kept s (batonCheck t) := .ite (.ite h.set (batonFail_kept h)) h

theorem batonPassed_kept (h : Kept s t) : Kept s (batonPassed t) := .ite (asyncDone_kept (sj_kept h.set)) h

theorem batonGive_kept (h : Kept s t) : Kept s (batonGive t) := by
  unfold batonGive
  extract_lets s1 s2
  have hs1 : Kept s s1 := abortTrial_kept (syncSend1_kept h)
  have hs2 : Kept s s2 := changeRole_kept hs1
  clear_value s2
  exact .ite hs2.set h

theorem batonTake_kept (h : Kept s t) : Kept s (batonTake t) := by
  unfold batonTake
  extract_lets s1
  have hs1 : Kept s s1 := changeRole_kept (abortTrial_kept h)
  clear_value s1
  exact .ite hs1.set h

theorem leaderDuties_kept {pLen : Nat} (h : Kept s t) : Kept s (leaderDuties pLen t) := by
  unfold leaderDuties
  extract_lets s1 s2
  have hs1 : Kept s s1 := batonPassed_kept h
  have hs2 : Kept s s2 := .ite (compareHashes_kept (batonCheck_kept (adoptCheck_kept hs1))) (adoptCheck_kept hs1)
  exact .ite (.ite (syncSend_kept hs2) hs2) h

theorem ownLap_kept (h : Kept s t) : Kept s (ownLap t) :=
  beginExecution_kept (leaderDuties_kept (ownPairs_kept (.ite (addAdopted_kept (drainEvents_kept (captureTime_kept
      ((freezeOwn_kept (adoptDue_kept h.set)))))) (drainEvents_kept (captureTime_kept ((freezeOwn_kept (adoptDue_kept h.set))))))))

theorem leaveHalt_kept (h : Kept s t) : Kept s (leaveHalt t) :=
  asyncDone_kept (sjStateChange_kept (setRole_kept (subsReset_kept h.set)))

theorem syncBad_kept (h : Kept s t) : Kept s (syncBad t) := h.set

theorem syncHeard_kept (h : Kept s t) : Kept s (syncHeard t) := h.set

theorem syncRx_kept {typ : Nat} {frame : Bytes} {f : SyncIn → State → State} (h : Kept s t)
    (hf : ∀ {x u}, Kept s u → Kept s (f x u)) : Kept s (syncRx typ frame f t) := by
  refine .ite h ?_
  split
  · exact syncBad_kept h
  · exact .ite h (.ite (hf (syncHeard_kept h)) (syncHeard_kept h))

theorem discardEvents_kept (h : Kept s t) : Kept s (discardEvents t) := .foldl h fun h => drainEvent_kept h

theorem takeAdopt_kept {adoptL : Nat} {conf : Bool} (h : Kept s t) : Kept s (takeAdopt adoptL conf t) := by
  unfold takeAdopt
  extract_lets held src src' s1
  have hs1 : Kept s s1 := abortTrial_kept h
  clear_value s1
  exact .ite (.ite h.set h.set) (.ite hs1.set h)

theorem takeBaton_kept {b : Nat} {conf : Bool} (h : Kept s t) : Kept s (takeBaton b conf t) := h.set

theorem trialCopy_kept (h : Kept s t) : Kept s (trialCopy t) :=
  .ite (h.setData fun w => foldl_memPut_wf _ _ _ _ _ _ (swfFrom_filter _ _ _ _ _ w)) h

theorem adoptHeard_kept {n : Nat} {p : Bytes} (h : Kept s t) : Kept s (adoptHeard n p t) := by
  unfold adoptHeard
  extract_lets s1 src s2
  have hs1 : Kept s s1 := takeAdopt_kept h
  clear_value s1
  have hs2 : Kept s s2 := adoptEdit_kept hs1.set
  exact .ite hs2.set hs1

theorem loadNow_kept {p : Bytes} (h : Kept s t) : Kept s (loadNow p t) := h.set

theorem shadowBegin_kept {n : Nat} {p : Bytes} (h : Kept s t) : Kept s (shadowBegin n p t) :=
  beginExecution_kept (pairsEval_kept (takeBaton_kept (batonPassed_kept (takeAdopt_kept (.ite (adoptEdit_kept (takeTokens_kept
      (discardEvents_kept (trialCopy_kept h.set)))) (takeTokens_kept (discardEvents_kept (trialCopy_kept h.set))))))))

theorem waitingBegin_kept (h : Kept s t) : Kept s (waitingBegin t) := by
  unfold waitingBegin
  extract_lets
  split
  · exact .ite (shadowBegin_kept h.set) h
  · exact h

theorem lapstartDone_kept {n : Nat} {p : Bytes} (h : Kept s t) : Kept s (lapstartDone n p t) := by
  unfold lapstartDone
  extract_lets sbx s0 joined
  have hs0 : Kept s s0 := h.set
  have hjoined {u : State} (h : Kept s u) : Kept s (joined u) := h.set
  clear_value s0 joined
  split
  · exact hjoined hs0
  · exact shadowBegin_kept (endTrial_kept hs0)
  · exact waitingBegin_kept (hjoined (.ite (endTrial_kept hs0) hs0))
  · exact hs0

theorem trialBegin_kept (h : Kept s t) : Kept s (trialBegin t) := by
  unfold trialBegin
  extract_lets first src s1 src'
  have hs1 : Kept s s1 := h.set
  have hsrc' : Kept s src' := .ite (addAdopted_kept hs1) hs1
  clear_value src'
  exact beginExecution_kept (pairsEval_kept hsrc'.set)

theorem pacerBegin_kept (h : Kept s t) : Kept s (pacerBegin t) := .ite h (.ite (trialBegin_kept h.set) (waitingBegin_kept h))

theorem lapStart_kept (h : Kept s t) : Kept s (lapStart t) := by
  unfold lapStart
  split
  · exact h
  · split
    · split
      · exact ownLap_kept h
      · exact ownLap_kept h
      · exact pacerBegin_kept h
      · exact h
    · exact .ite (ownLap_kept (leaveHalt_kept h)) h
    · exact h

theorem noteLag_kept {n : Nat} (h : Kept s t) : Kept s (noteLag n t) := h.set

theorem lapstartHeard_kept {n : Nat} {p : Bytes} (h : Kept s t) : Kept s (lapstartHeard n p t) := by
  unfold lapstartHeard
  split
  · exact h
  · split
    · exact lapstartDone_kept (loadNow_kept h)
    · exact adoptHeard_kept (loadNow_kept h)
    · exact noteLag_kept (loadNow_kept h)
    · exact h

theorem lapstart_kept {segments : List Bytes} (h : Kept s t) : Kept s (lapstart segments t) := by
  unfold lapstart
  extract_lets bad good src s1 s2
  have hs1 : Kept s s1 := h.set
  have hs2 : Kept s s2 := .ite hs1 (syncHeard_kept hs1)
  split
  · exact h
  · split
    · exact hs1
    · split
      · exact lapstartHeard_kept hs2
      · exact hs2

theorem carryOut_kept {a : Action} (h : Kept s t) : Kept s (carryOut t a) := by
  unfold carryOut
  extract_lets
  split
  · exact pushEventFree_kept h
  · exact lapWrites_kept (refreshOutputs_kept h.set)
  · exact fieldCommand_kept h ackOutputs_kept
  · exact pairsAck_kept h
  · exact raiseTrigger_kept h
  · exact .ite (modLx_kept h) h
  · exact .ite (txPush_kept h) h
  · exact .ite (modLx_kept h) h
  · exact sleepRequest_kept h
  · exact lbWakeNow_kept h
  · exact pfxCommit_kept h
  · exact h.set
  · exact h.set
  · exact lockPanel_kept h

theorem commitOutputs_kept (h : Kept s t) : Kept s (commitOutputs t) := spairCheck_kept (applyOutputs_kept h.set)

theorem commitDone_kept (h : Kept s t) : Kept s (commitDone t) := mbCommit_kept (pairsPublish_kept h.set)

theorem noteOverrun_kept (h : Kept s t) : Kept s (noteOverrun t) := .ite h.set (.ite (.ite (sj_kept h.set) h.set) h.set)

theorem leaderTrial_kept (h : Kept s t) : Kept s (leaderTrial t) := .ite (.ite (endTrial_kept h) (.ite (endTrial_kept h.set)
    h.set)) h

theorem leaderSlack_kept (h : Kept s t) : Kept s (leaderSlack t) :=
  .ite (.ite (migrateSend_kept h) (.ite (.ite (resyncSend_kept (digestScan_kept h)) (digestScan_kept h)) (.ite (leaderTrial_kept
      h.set) (digestScan_kept h)))) h

theorem noteSlack_kept (h : Kept s t) : Kept s (noteSlack t) := h.set

theorem ownCommit_kept (h : Kept s t) : Kept s (ownCommit t) :=
  batonGive_kept (noteSlack_kept (leaderSlack_kept (noteOverrun_kept (commitDone_kept (writeThrough_kept (.foldl (publish_kept
      (commitOutputs_kept h)) fun h => carryOut_kept h))))))

theorem trialCommit_kept (h : Kept s t) : Kept s (trialCommit t) := by
  unfold trialCommit
  extract_lets s1
  have hs1 : Kept s s1 := .foldl h fun h => carryOut_kept h
  clear_value s1
  exact .ite (endTrial_kept hs1.set) hs1.set

theorem sendHash_kept (h : Kept s t) : Kept s (sendHash t) := by
  unfold sendHash
  extract_lets src h' src'
  have hsrc' : Kept s src' := syncSend1_kept h
  clear_value src'
  exact hsrc'.set

theorem shadowOutputs_kept (h : Kept s t) : Kept s (shadowOutputs t) := .ite (commitOutputs_kept h.set) (refreshOutputs_kept h.set)

theorem afterShadow_kept (h : Kept s t) : Kept s (afterShadow t) :=
  .ite (.ite (waitingBegin_kept (.ite (abortTrial_kept h) h)) h.set) (.ite (.ite (trialBegin_kept h) h.set) h)

theorem shadowCommit_kept (h : Kept s t) : Kept s (shadowCommit t) :=
  afterShadow_kept (batonTake_kept (sendHash_kept (digestScan_kept (commitDone_kept (writeThrough_kept (.foldl
      (shadowOutputs_kept h) fun h => carryOut_kept h))))))

theorem lapCommit_kept (h : Kept s t) : Kept s (lapCommit t) := by
  unfold lapCommit
  split
  · exact h
  · split
    · exact h
    · exact ownCommit_kept h
    · exact shadowCommit_kept h
    · exact trialCommit_kept h

theorem lapLate_kept (h : Kept s t) : Kept s (lapLate t) := by
  unfold lapLate
  extract_lets t'
  have ht' : Kept s t' := lapFaulted_kept h
  clear_value t'
  exact ht'.set

theorem lapWatchdog_kept (h : Kept s t) : Kept s (lapWatchdog t) := by
  unfold lapWatchdog
  split
  · exact lapLate_kept h
  · exact lapLate_kept h
  · exact h
  · exact .ite (lapLate_kept h) h

/-! ### BringUp -/

theorem rejectBank_kept {check : Option Nat} (h : Kept s t) : Kept s (rejectBank check t) := by
  unfold rejectBank
  extract_lets bank c s0 src s1
  have hs0 : Kept s s0 := .ite h (drawn_kept h)
  clear_value s0
  have hs1 : Kept s s1 := sj_kept hs0.set
  exact safeService_kept hs1

theorem appFails_kept {cause : Nat} {code : Option Nat} (h : Kept s t) : Kept s (appFails cause code t) := by
  unfold appFails
  split
  · exact rejectBank_kept h
  · split
    · exact safeService_kept h
    · exact safeServiceFree_kept h

theorem sysFails_kept {part : Option Nat} (h : Kept s t) : Kept s (sysFails part t) := by
  unfold sysFails
  split
  · exact goDead_kept h
  · split
    · exact safeService_kept h
    · exact safeServiceFree_kept h

theorem rewriteTable_kept (h : Kept s t) : Kept s (rewriteTable t) := by
  unfold rewriteTable
  extract_lets
  split
  · exact .ite (judgeTable_kept (mramWrite_kept h)) h
  · exact h

theorem startChecks_kept (h : Kept s t) : Kept s (startChecks t) := by
  unfold startChecks
  extract_lets
  split
  · exact sysFails_kept h
  · split
    · exact sysFails_kept h
    · exact .ite (rejectBank_kept h) (.ite (appFails_kept h) (.ite (appFails_kept h) (.ite (appFails_kept h) h.set)))

theorem manifestsVerified_kept (h : Kept s t) : Kept s (manifestsVerified t) := by
  unfold manifestsVerified
  extract_lets s1 s2
  have hs1 : Kept s s1 := serviceUp_kept h
  have hs2 : Kept s s2 := .ite (journalTestWord_kept hs1) hs1
  clear_value s2
  exact .ite (startChecks_kept (rewriteTable_kept hs2.set)) h

theorem mouldPressed_kept {readbackFails : Option Nat} (h : Kept s t) : Kept s (mouldPressed readbackFails t) := by
  refine .ite ?_ h
  split
  · exact appFails_kept (mouldInvalid_kept h)
  · rename_i m r he
    have hpress : Kept s (pressMould m r t) := pressMould_kept h
    extract_lets bad
    cases bad with
    | some => exact appFails_kept (mouldInvalid_kept (panelBare_kept (setRegion_kept hpress.set)))
    | none => exact sj_kept hpress.set

theorem switchReady_kept (h : Kept s t) : Kept s (switchReady t) := by
  unfold switchReady
  extract_lets s1
  have hs1 : Kept s s1 := by
    unfold s1
    split
    · exact .ite (applyBbsw_kept h) h
    · exact h
  exact domainOn_kept hs1

theorem laneAReady_kept (h : Kept s t) : Kept s (laneAReady t) := by
  unfold laneAReady
  extract_lets
  split
  · exact appFails_kept (programRejected_kept h)
  · exact domainOn_kept h.set

theorem laneBReady_kept (h : Kept s t) : Kept s (laneBReady t) := by
  have hon : Kept s (domainOn 7 { t with mgt := { t.mgt with wdB := { armed := true, lastUs := t.clk.wallUs } } }) :=
    domainOn_kept h.set
  unfold laneBReady
  extract_lets
  split
  · split
    · exact pressPorts_kept hon
    · exact pressTerms_kept hon
  · exact hon

theorem accepted_kept (h : Kept s t) : Kept s (accepted t) := .ite (sj_kept (journalWrite_kept h.set)) h

theorem mainsWatchReady_kept (h : Kept s t) : Kept s (mainsWatchReady t) :=
  domainOn_kept (accepted_kept (.ite (startMeter_kept (samplingStart_kept h)) (samplingStart_kept h)))

theorem partLoads_kept {p : Part} (h : Kept s t) : Kept s (partLoads p t) := by
  unfold partLoads
  extract_lets src s1
  have hs1 : Kept s s1 := h.set
  split
  · exact hs1.set
  · exact switchReady_kept hs1
  · exact domainOn_kept hs1
  · exact laneAReady_kept hs1.set
  · exact laneBReady_kept hs1
  · exact domainOn_kept hs1
  · exact mainsWatchReady_kept hs1

theorem partReady_kept {p : Part} {version set : Word} (h : Kept s t) : Kept s (partReady p version set t) :=
  .ite (.ite (sysFails_kept (sj_kept h.set)) (.ite (sysFails_kept h.set) (partLoads_kept h.set))) h

theorem partSilent_kept {p : Part} (h : Kept s t) : Kept s (partSilent p t) := by
  unfold partSilent
  split
  · split
    · exact faultEnds_kept h safeService_kept
    · exact faultEnds_kept h safeService_kept
    · exact raiseLaneFault_kept h
    · exact raiseLaneFault_kept h
    · exact faultEnds_kept h safeService_kept
  · exact h

theorem partNotReady_kept {x : LoadFailure} (h : Kept s t) : Kept s (partNotReady x t) := by
  unfold partNotReady
  split
  · exact partSilent_kept h
  · exact .ite (goDead_kept h) h

theorem plantKeys_kept {m : Bytes} (h : Kept s t) : Kept s (plantKeys m t) := by
  unfold plantKeys
  extract_lets k nk src s1
  have hs1 : Kept s s1 := .ite (sj_kept h.set) (.ite h.set h)
  clear_value s1
  exact .ite hs1 hs1.set

theorem acceptBank_kept (h : Kept s t) : Kept s (acceptBank t) := by
  unfold acceptBank
  extract_lets b m src s1 s2 s3
  have hs1 : Kept s s1 := h.set
  have hs2 : Kept s s2 := by
    unfold s2
    split
    · exact mramWrite_kept hs1
    · exact hs1
  have hs3 : Kept s s3 := plantKeys_kept hs2
  clear_value s3
  exact .ite (sj_kept hs3.set) h

theorem enterRun_kept (h : Kept s t) : Kept s (enterRun t) := by
  unfold enterRun
  extract_lets ms src s1 s2
  have hs1 : Kept s s1 := setRole_kept h.set
  have hs2 : Kept s s2 := sj_kept (sjStateChange_kept hs1)
  clear_value s2
  exact hs2.set

theorem firstFullLap_kept (h : Kept s t) : Kept s (firstFullLap t) := by
  unfold firstFullLap
  extract_lets src s1 src' src'' s2 s3
  have hs1 : Kept s s1 := enterRun_kept (acceptBank_kept h.set)
  clear_value s1
  have hs3 : Kept s s3 := lbListen_kept (pairsSafe_kept (subsReset_kept hs1.set))
  exact .ite (ownLap_kept (reflexHandover_kept (pushEventFree_kept hs3))) h

theorem haltEntered_kept (h : Kept s t) : Kept s (haltEntered t) :=
  .ite (asyncDone_kept (sjStateChange_kept (setRole_kept (applyOutputs_kept h.set)))) h

/-! ### Exchange -/

theorem setMember_kept {m : Byte} {x : Member} (h : Kept s t) : Kept s (setMember m x t) := h.set

theorem memberHeard_kept {m : Byte} (h : Kept s t) : Kept s (memberHeard m t) := setMember_kept h

theorem memberSession_kept {m : Byte} {w : Word} (h : Kept s t) : Kept s (memberSession m w t) :=
  .ite h (setMember_kept h)

theorem conflict_kept {mac : BitVec 48} {mute : Bool} (h : Kept s t) : Kept s (conflict mac mute t) := sj_kept h.set

theorem pxRx_kept {typ : Nat} {src : NetSrc} {frame : Bytes} {f : PxIn → State → State} (h : Kept s t)
    (hf : ∀ {x u}, Kept s u → Kept s (f x u)) : Kept s (pxRx typ src frame f t) := by
  refine .ite h ?_
  split
  · exact h.set
  · exact .ite h (.ite (conflict_kept h) (hf (memberHeard_kept h)))

theorem probeAnswer_kept {x : PxIn} (h : Kept s t) : Kept s (probeAnswer x t) := .ite h.set h

theorem pxHello_kept {src : NetSrc} {x : PxIn} (h : Kept s t) : Kept s (pxHello src x t) :=
  .ite (pxSend_kept (probeAnswer_kept (memberSession_kept h))) (probeAnswer_kept (memberSession_kept h))

theorem pxJoin_kept {x : PxIn} (h : Kept s t) : Kept s (pxJoin x t) :=
  .ite (pushEvent_kept (.ite (memberSession_kept h) (tr_kept (setMember_kept (memberSession_kept h))))) (.ite (memberSession_kept
      h) (tr_kept (setMember_kept (memberSession_kept h))))

theorem pubConflict_kept {pub m : Byte} (h : Kept s t) : Kept s (pubConflict pub m t) := by
  unfold pubConflict
  extract_lets other
  cases other with
  | some => exact .ite (sj_kept h.set) h.set
  | none => exact h.set

theorem earlyImage_kept {x : PxIn} (h : Kept s t) : Kept s (earlyImage x t) :=
  .ite (push_kept (drawn_kept (dataWrite_kept (pubConflict_kept (setMember_kept h))))) h.set

theorem pxImage_kept {x : PxIn} (h : Kept s t) : Kept s (pxImage x t) :=
  .ite h (.ite (earlyImage_kept h) (.ite h.set (.foldl (pubConflict_kept (setMember_kept h)) fun h => push_kept (drawn_kept
      (dataWrite_kept h)))))

theorem authFailed_kept {check : Nat} {src : NetSrc} {q : PendingReq} (h : Kept s t) : Kept s (authFailed check src q t) := by
  unfold authFailed
  extract_lets recent others src s1 s2
  have hs1 : Kept s s1 := sjRep_kept (addrDrawn_kept h.set)
  have hs2 : Kept s s2 := sendResponse_kept hs1
  clear_value s2
  exact .ite (tr_kept (addrDrawn_kept hs2.set)) hs2.set

theorem sendBusy_kept {src : NetSrc} {seq : Word} {retry : Nat} (h : Kept s t) : Kept s (sendBusy src seq retry t) :=
  pxSend_kept h

theorem acceptRequest_kept {q : PendingReq} (h : Kept s t) : Kept s (acceptRequest q t) :=
  .ite (push_kept (drawn_kept h.set)) h.set

theorem pxRequest_kept {src : NetSrc} {x : PxIn} (h : Kept s t) : Kept s (pxRequest src x t) := by
  unfold pxRequest
  extract_lets
  split
  · exact h
  · split
    · exact sendBusy_kept h.set
    · split
      · exact .ite h (pxPut_kept h)
      · split
        · exact sendResponse_kept h
        · split
          · exact authFailed_kept h
          · exact .ite (sendBusy_kept h.set) (acceptRequest_kept h)

theorem pxTime_kept {x : PxIn} (h : Kept s t) : Kept s (pxTime x t) := .ite (tr_kept h.set) h.set

theorem pxTimeSend_kept (h : Kept s t) : Kept s (pxTimeSend t) := .ite (pxSend_kept h) h

theorem pxHelloSend_kept (h : Kept s t) : Kept s (pxHelloSend t) := .ite (pxSend_kept h) h

theorem pxJoinSend_kept (h : Kept s t) : Kept s (pxJoinSend t) := .ite (pxSend_kept h) h

theorem haltPublish_kept (h : Kept s t) : Kept s (haltPublish t) := .ite (publish_kept h) h

theorem memberAbsent_kept {m : Byte} (h : Kept s t) : Kept s (memberAbsent m t) := .ite (setMember_kept h) h

theorem sourceUnblock_kept {ip : NetAddr} (h : Kept s t) : Kept s (sourceUnblock ip t) := h.set

theorem arpMessage_kept {vid : Nat} {opcode : Half} {senderIp : NetAddr} {senderMac : BitVec 48} {targetIp : NetAddr} (h : Kept s
    t) : Kept s (arpMessage vid opcode senderIp senderMac targetIp t) :=
  .ite h (.ite (conflict_kept h) (.ite h.set h))

theorem icmpEcho_kept {src : NetSrc} {v6 : Bool} {ident seq : Half} {data : Bytes} (h : Kept s t) : Kept s (icmpEcho src v6 ident
    seq data t) :=
  .ite h.set h

/-! ### Modbus -/

theorem mbConnect_kept {src : NetSrc} (h : Kept s t) : Kept s (mbConnect src t) := .ite h.set (.ite h.set h)

theorem mbIdleClose_kept {conn : Nat} (h : Kept s t) : Kept s (mbIdleClose conn t) := h.set

theorem mbRequest_kept {fc conn : Nat} {adu : Bytes} {f : MbReq → State → State} (h : Kept s t)
    (hf : ∀ {r : MbReq} {u : State}, Kept s u → Kept s (f r u)) : Kept s (mbRequest fc conn adu f t) := by
  refine .ite h ?_
  extract_lets
  split
  · exact h.set
  · exact .ite h.set (.ite (mbException_kept h) (.ite (hf h) h))

theorem mbAnswer_kept {r : MbReq} {fault : Nat} {data : Bytes} (h : Kept s t) : Kept s (mbAnswer r fault data t) :=
  .ite (mbSend_kept h) (mbException_kept h)

theorem mbQueue_kept {r : MbReq} {coil : Bool} {addr : Nat} {vs : List Half} {rdAddr rdQty fault : Nat} (h : Kept s t) : Kept s
    (mbQueue r coil addr vs rdAddr rdQty fault t) :=
  .ite h.set (mbException_kept h)

theorem readCoilsFn_kept {r : MbReq} (h : Kept s t) : Kept s (readCoilsFn r t) := mbAnswer_kept h

theorem readDiscreteFn_kept {r : MbReq} (h : Kept s t) : Kept s (readDiscreteFn r t) := mbAnswer_kept h

theorem readHoldingFn_kept {r : MbReq} (h : Kept s t) : Kept s (readHoldingFn r t) := mbAnswer_kept h

theorem readInputFn_kept {r : MbReq} (h : Kept s t) : Kept s (readInputFn r t) := mbAnswer_kept h

theorem writeCoilFn_kept {r : MbReq} (h : Kept s t) : Kept s (writeCoilFn r t) := mbQueue_kept h

theorem writeRegisterFn_kept {r : MbReq} (h : Kept s t) : Kept s (writeRegisterFn r t) := mbQueue_kept h

theorem writeCoilsFn_kept {r : MbReq} (h : Kept s t) : Kept s (writeCoilsFn r t) := mbQueue_kept h

theorem writeRegistersFn_kept {r : MbReq} (h : Kept s t) : Kept s (writeRegistersFn r t) := mbQueue_kept h

theorem readWriteFn_kept {r : MbReq} (h : Kept s t) : Kept s (readWriteFn r t) := mbQueue_kept h

/-! ### Panel -/

theorem setOsf_kept {cause : Nat} (h : Kept s t) : Kept s (setOsf cause t) := .ite h (rtcNote_kept h.set)

theorem alarmMatched_kept (h : Kept s t) : Kept s (alarmMatched t) := by
  unfold alarmMatched
  extract_lets src s1 s2
  have hs1 : Kept s s1 := h.set
  have hs2 : Kept s s2 := .ite (tr_kept hs1) (rtcNote_kept hs1)
  clear_value s2
  exact .ite (wakeUp_kept hs2.set) hs2

theorem rtcSecond_kept (h : Kept s t) : Kept s (rtcSecond t) := by
  unfold rtcSecond
  extract_lets
  split
  exact .ite (alarmMatched_kept (.ite (setOsf_kept h.set) h.set)) (.ite (setOsf_kept h.set) h.set)

theorem rtcSetTime_kept {t₁ : Time} {path : Nat} (h : Kept s t) : Kept s (rtcSetTime t₁ path t) := sj_kept h.set

theorem rtcSet_kept {flags : Nat} {t₁ a : Time} {path : Nat} (h : Kept s t) : Kept s (rtcSet flags t₁ a path t) := by
  unfold rtcSet
  extract_lets s1 src s2 s3
  have hs1 : Kept s s1 := .ite (rtcSetTime_kept h) h
  clear_value s1
  have hs2 : Kept s s2 := .ite hs1.set hs1
  have hs3 : Kept s s3 := timeAnchor_kept hs2
  clear_value s3
  exact pushEvent_kept hs3.set

theorem keyScan_kept (h : Kept s t) : Kept s (keyScan t) := .ite h.set h

theorem debounced_kept {k : Nat} {down : Bool} (h : Kept s t) : Kept s (debounced k down t) := h.set

theorem keyEvent_kept {source : Nat} {down : Bool} (h : Kept s t) : Kept s (keyEvent source down t) := pushEvent_kept h

theorem deliverKey_kept {k : Nat} {down : Bool} (h : Kept s t) : Kept s (deliverKey k down t) := keyEvent_kept h.set

theorem openEntry_kept {ks : List Nat} (h : Kept s t) : Kept s (openEntry ks t) := h.set

theorem openSvc_kept {source : Nat} (h : Kept s t) : Kept s (openSvc source t) := .ite h (sj_kept h.set)

theorem entrySucceeds_kept {service : Bool} (h : Kept s t) : Kept s (entrySucceeds service t) :=
  .ite (openSvc_kept (sj_kept h.set)) (sj_kept h.set)

theorem entryFails_kept {cause keys : Nat} (h : Kept s t) : Kept s (entryFails cause keys t) := by
  unfold entryFails
  extract_lets w src s1
  have hs1 : Kept s s1 := sj_kept h.set
  exact .ite (sj_kept hs1.set) hs1

theorem judgeEntry_kept {ks : List Nat} (h : Kept s t) : Kept s (judgeEntry ks t) :=
  .ite h.set (.ite (entrySucceeds_kept h) (.ite (entrySucceeds_kept h) (entryFails_kept h)))

theorem recordKey_kept {k : Nat} {ks : List Nat} (h : Kept s t) : Kept s (recordKey k ks t) := h.set

theorem deliverPush_kept (h : Kept s t) : Kept s (deliverPush t) := by
  unfold deliverPush
  extract_lets s1
  have hs1 : Kept s s1 := deliverKey_kept h
  clear_value s1
  exact .ite (openEntry_kept hs1) hs1.set

theorem keyPress_kept {k : Nat} (h : Kept s t) : Kept s (keyPress k t) := by
  unfold keyPress
  extract_lets s1
  have hs1 : Kept s s1 := debounced_kept h
  split
  · exact h
  · split
    · exact .ite (judgeEntry_kept hs1) (recordKey_kept hs1)
    · exact .ite (.ite (deliverPush_kept hs1) (deliverKey_kept hs1)) (.ite (openEntry_kept hs1) hs1)

theorem keyRelease_kept {k : Nat} (h : Kept s t) : Kept s (keyRelease k t) :=
  .ite h (.ite (sj_kept h.set) (.ite (deliverKey_kept h.set) h.set))

theorem keyStuck_kept {k : Nat} (h : Kept s t) : Kept s (keyStuck k t) := .ite h (sj_kept h.set)

theorem encoderStep_kept {up : Bool} (h : Kept s t) : Kept s (encoderStep up t) := .ite (keyEvent_kept h.set) h

theorem inactivityLock_kept (h : Kept s t) : Kept s (inactivityLock t) := by
  unfold inactivityLock
  extract_lets t'
  have ht' : Kept s t' := lockPanel_kept h
  clear_value t'
  split
  · exact .ite ht'.set h
  · exact h

theorem hurdleTimeout_kept (h : Kept s t) : Kept s (hurdleTimeout t) := by
  unfold hurdleTimeout
  split
  · exact .ite (entryFails_kept h) h
  · exact h

theorem svcHeldKeys_kept (h : Kept s t) : Kept s (svcHeldKeys t) := .ite (openSvc_kept (drawn_kept (sj_kept h))) h

/-! ### EditPkg -/

theorem editVerifyNote_kept {r : Except EditFail (List CodeBlock)} (h : Kept s t) : Kept s (editVerifyNote r t) := by
  unfold editVerifyNote
  split
  · exact noteVerify_kept h
  · split
    · exact programRejected_kept h
    · exact .ite (noteVerify_kept h) h

theorem copyBank_kept {src : Bool} (h : Kept s t) : Kept s (copyBank src t) :=
  (flashErase_kept h).setFlash fun w => foldl_memPut_wf _ _ _ _ _ _ w

theorem bankPut_kept {b : Bool} {o : Nat} {bs : Bytes} (h : Kept s t) : Kept s (bankPut b o bs t) := flashWrite_kept h

theorem putEdit_kept {b : Bool} {prog : Bytes} {chain : List Bytes} (h : Kept s t) : Kept s (putEdit b prog chain t) := by
  unfold putEdit
  extract_lets m s1
  have hs1 : Kept s s1 := by
    unfold s1
    split
    · exact flashErase_kept h
    · exact h
  split
  exact bankPut_kept (bankPut_kept hs1)

theorem writeEditBank_kept {p : Bytes} (h : Kept s t) : Kept s (writeEditBank p t) :=
  putEdit_kept (setBank_kept (copyBank_kept h))

theorem editHeldNow_kept {p : Bytes} {new : List CodeBlock} (h : Kept s t) : Kept s (editHeldNow p new t) := by
  unfold editHeldNow
  extract_lets s1
  have hs1 : Kept s s1 := writeEditBank_kept h
  clear_value s1
  exact sj_kept hs1.set

theorem editRejected_kept {code ver unit : Nat} (h : Kept s t) : Kept s (editRejected code ver unit t) :=
  asyncDone_kept (sj_kept h.set)

theorem editLoadOwn_kept {p : Bytes} (h : Kept s t) : Kept s (editLoadOwn p t) := by
  have hnote : Kept s (editVerifyNote (editCheck p t) { t with edit := { t.edit with state := .loading } }) :=
    editVerifyNote_kept h.set
  unfold editLoadOwn
  extract_lets r src s1
  change Kept s s1 at hnote
  clear_value s1 r
  cases r with
  | error => exact editRejected_kept hnote
  | ok => exact .ite (syncSend_kept hnote.set) (asyncDone_kept (editHeldNow_kept hnote))

theorem editCommand_kept {args : Bytes} (h : Kept s t) : Kept s (editCommand args t) := syncControl_kept h

theorem trialStart_kept {window first : Nat} (h : Kept s t) : Kept s (trialStart window first t) :=
  .ite (endTrial_kept h.set) (sj_kept h.set)

theorem editDiscarded_kept {cause : Nat} (h : Kept s t) : Kept s (editDiscarded cause t) :=
  sj_kept (editNone_kept (emptyInactive_kept h))

/-! ### SyncCmds -/

theorem syncHelloSend_kept (h : Kept s t) : Kept s (syncHelloSend t) := .ite (syncSend1_kept h) h

theorem heartbeatSend_kept (h : Kept s t) : Kept s (heartbeatSend t) := syncSend1_kept h

theorem holdOutputs_kept (h : Kept s t) : Kept s (holdOutputs t) := refreshOutputs_kept h.set

theorem pacerIdle_kept (h : Kept s t) : Kept s (pacerIdle t) := h.set

theorem pacerEnters_kept {c : Cond} (h : Kept s t) : Kept s (pacerEnters c t) := holdOutputs_kept h.set

theorem pacerResync_kept {lap : Nat} (h : Kept s t) : Kept s (pacerResync lap t) :=
  sj_kept ((pacerEnters_kept (abortTrial_kept h)).setData (memErase_wf _ _ _ _ _))

theorem saidPaired_kept {a : Nat} (h : Kept s t) : Kept s (saidPaired a t) := sj_kept h

theorem refusePairing_kept {r set : Nat} (h : Kept s t) : Kept s (refusePairing r set t) := by
  unfold refusePairing
  extract_lets src s1 s2
  have hs1 : Kept s s1 := syncControl_kept h.set
  have hs2 : Kept s s2 := .ite hs1 (pacerEnters_kept hs1)
  clear_value s2
  exact .ite hs2 (sj_kept hs2.set)

theorem yieldLead_kept {a set : Nat} (h : Kept s t) : Kept s (yieldLead a set t) := by
  unfold yieldLead
  extract_lets wasSolo s1 s2 s3
  have hs1 : Kept s s1 := .ite (syncControl_kept h) h
  have hs2 : Kept s s2 := changeRole_kept hs1
  have hs3 : Kept s s3 := .ite (sj_kept hs2) hs2
  clear_value s3
  exact .ite (saidPaired_kept (pacerEnters_kept hs3.set)) (.ite (saidPaired_kept (pacerEnters_kept hs3.set)) (refusePairing_kept
      hs3.set))

theorem notePartner_kept {state role runms : Nat} (h : Kept s t) : Kept s (notePartner state role runms t) := h.set

theorem syncHello_kept {x : SyncIn} (h : Kept s t) : Kept s (syncHello x t) :=
  .ite (.ite (yieldLead_kept h.set) h.set) (notePartner_kept h.set)

theorem heartbeat_kept {x : SyncIn} (h : Kept s t) : Kept s (heartbeat x t) := notePartner_kept h.set

theorem markAll_kept (h : Kept s t) : Kept s (markAll t) := snapPages_kept h.set

theorem yieldHeard_kept (h : Kept s t) : Kept s (yieldHeard t) := by
  unfold yieldHeard
  extract_lets may src s1 src' src'' s2
  have hs1 : Kept s s1 := changeRole_kept h.set
  have hs2 : Kept s s2 := saidPaired_kept hs1.set
  exact .ite (.ite (startResync_kept (saidPaired_kept hs1.set)) (markAll_kept hs2)) h

theorem pairingWindowEnd_kept (h : Kept s t) : Kept s (pairingWindowEnd t) := .ite (.ite (sj_kept h.set) h.set) h

theorem pacerLost_kept {cause : Nat} (h : Kept s t) : Kept s (pacerLost cause t) := by
  unfold pacerLost
  extract_lets s1 s2
  have hs1 : Kept s s1 := abortTrial_kept (batonFail_kept h)
  have hs2 : Kept s s2 := reportLost_kept (sj_kept (changeRole_kept hs1))
  clear_value s2
  exact hs2.set

theorem coldStart_kept (h : Kept s t) : Kept s (coldStart t) := by
  unfold coldStart
  extract_lets s1 src src' src'' s2
  have hs1 : Kept s s1 := restoreRetentive_kept (stopLap_kept h)
  clear_value s1
  have hs2 : Kept s s2 := pushEventFree_kept (pairsSafe_kept hs1.set)
  exact refreshOutputs_kept hs2

theorem takeover_kept (h : Kept s t) : Kept s (takeover t) := by
  unfold takeover
  extract_lets kind s1 src e src' src'' src''' s2 s3
  have hs1 : Kept s s1 := changeRole_kept (abortTrial_kept h)
  clear_value s1
  have hs3 : Kept s s3 := .ite (coldStart_kept hs1.set) hs1.set
  exact sj_kept hs3

theorem sendProbe_kept (h : Kept s t) : Kept s (sendProbe t) := pxSend_kept h

theorem syncSilence_kept (h : Kept s t) : Kept s (syncSilence t) := by
  unfold syncSilence
  extract_lets src s1 src' src''
  have hs1 : Kept s s1 := h.set
  have hsrc'' : Kept s src'' := batonFail_kept hs1
  clear_value src''
  split
  · split
    · exact pacerLost_kept hs1.set
    · exact sendProbe_kept hsrc''.set
    · exact hs1
  · exact h

theorem pxProbeSend_kept (h : Kept s t) : Kept s (pxProbeSend t) := .ite (sendProbe_kept h) h

theorem detach_kept (h : Kept s t) : Kept s (detach t) := .ite h (sj_kept (pacerEnters_kept (abortTrial_kept h)))

theorem probeWindowEnd_kept (h : Kept s t) : Kept s (probeWindowEnd t) := by
  unfold probeWindowEnd
  extract_lets src s1
  have hs1 : Kept s s1 := detach_kept h.set
  exact .ite (.ite hs1.set (takeover_kept h)) h

theorem controlRx_kept {code : Nat} {frame : Bytes} {f : SyncIn → Bytes → State → State} (h : Kept s t)
    (hf : ∀ {x a u}, Kept s u → Kept s (f x a u)) : Kept s (controlRx code frame f t) :=
  syncRx_kept h fun h => .ite (hf h) h

theorem withdrawn_kept (h : Kept s t) : Kept s (withdrawn t) := .ite (pacerEnters_kept (abortTrial_kept h)) h

theorem leaveHeard_kept {cause : Nat} (h : Kept s t) : Kept s (leaveHeard cause t) := by
  unfold leaveHeard
  extract_lets s1
  have hs1 : Kept s s1 := pacerLost_kept h
  split
  · exact .ite (sj_kept hs1) hs1
  · exact takeover_kept h
  · exact h

theorem hashHeard_kept {x : SyncIn} (h : Kept s t) : Kept s (hashHeard x t) := .ite h.set h

theorem resyncEnded_kept {r : Nat} (h : Kept s t) : Kept s (resyncEnded r t) := sj_kept (drawn_kept h)

theorem stateHeard_kept {x : SyncIn} (h : Kept s t) : Kept s (stateHeard x t) := by
  have hbytes : Kept s (setStateBytes (leAt x.payload 0 4) (x.payload.drop 4) t) := setStateBytes_kept h
  unfold stateHeard
  generalize setStateBytes _ _ t = s1 at hbytes ⊢
  exact .ite (.ite (.ite (noteLag_kept hbytes) hbytes) (.ite (resyncEnded_kept hbytes.set) hbytes.set)) h

theorem resyncFailed_kept (h : Kept s t) : Kept s (resyncFailed t) := .ite (divergence_kept h) h

theorem editFwd_kept {x : SyncIn} {args : Bytes} (h : Kept s t) : Kept s (editFwd x args t) := by
  unfold editFwd
  extract_lets off part have_ all edit upd s1 r s2
  have hs1 : Kept s s1 := stagingWrite_kept h.set
  have hs2 : Kept s s2 := editVerifyNote_kept hs1
  clear_value s2 r
  refine .ite h (.ite h (.ite ?_ hs1))
  cases r with
  | ok => exact syncControl_kept (editHeldNow_kept hs2)
  | error => exact syncControl_kept (editRejected_kept hs2)

theorem editResult_kept {code : Nat} (h : Kept s t) : Kept s (editResult code t) :=
  .ite (.ite (asyncDone_kept (editHeldNow_kept h)) (editRejected_kept h)) h

theorem editPeerTimeout_kept (h : Kept s t) : Kept s (editPeerTimeout t) := .ite (editRejected_kept (editCommand_kept h)) h

theorem peerTrialStart_kept {window : Nat} (h : Kept s t) : Kept s (peerTrialStart window t) := .ite (trialStart_kept h) h

theorem peerDiscard_kept (h : Kept s t) : Kept s (peerDiscard t) := .ite (editDiscarded_kept (abortTrial_kept h)) h

theorem peerReport_kept {slot : Nat} (h : Kept s t) : Kept s (peerReport slot t) := .ite (syncControl_kept h) h

theorem editReport_kept {x : SyncIn} {args : Bytes} (h : Kept s t) : Kept s (editReport x args t) := by
  unfold editReport
  extract_lets all src s1
  have hs1 : Kept s s1 := h.set
  split
  · split
    · exact respond_kept hs1.set
    · exact hs1
  · exact h.set

theorem editCmdRx_kept {op : Nat} {frame : Bytes} {f : Bytes → State → State} (h : Kept s t)
    (hf : ∀ {a u}, Kept s u → Kept s (f a u)) : Kept s (editCmdRx op frame f t) :=
  controlRx_kept h fun h => .ite (hf h) h

theorem syncSignal_kept {lock : Bool} (h : Kept s t) : Kept s (syncSignal lock t) := h.set

/-! ### Requests -/

theorem svcTaken_kept {bad : Nat} {rest : Bytes} (h : Kept s t) : Kept s (svcTaken bad rest t) := h.set

theorem refuse_kept {r : Req} {status : Byte} {reason : Nat} (h : Kept s t) : Kept s (refuse r status reason t) :=
  respond_kept (refusalNote_kept h)

theorem serve_kept {row : ReqRow} {argsOk : Bytes → Bool} {blockOk : Req → State → Bool} {f : Req → State → State} {r : Req}
    (h : Kept s t) (hf : ∀ {r : Req} {u : State}, Kept s u → Kept s (f r u)) : Kept s (serve row argsOk blockOk f r t) := by
  refine .ite (respond_kept h) (.ite (respond_kept h) (.ite (respond_kept h) ?_))
  split
  · exact hf h
  · exact refuse_kept h
  · exact refuse_kept h

theorem internalFault_kept {r : Req} {x : StoreId} (h : Kept s t) : Kept s (internalFault r x t) :=
  respond_kept (sj_kept h.set)

theorem serveWith_kept {row : ReqRow} {argsOk : Bytes → Bool} {blockOk : Req → State → Bool} {f : Req → State → State}
    {fails : Option StoreId} {r : Req} (h : Kept s t) (hf : ∀ {r : Req} {u : State}, Kept s u → Kept s (f r u)) :
    Kept s (serveWith row argsOk blockOk f fails r t) := by
  unfold serveWith
  split
  · exact .ite (internalFault_kept h) (serve_kept h hf)
  · exact serve_kept h hf

theorem svcHeard_kept (h : Kept s t) : Kept s (svcHeard t) := h.set

theorem takePassed_kept {q : PendingReq} {rest : List PendingReq} (h : Kept s t) : Kept s (takePassed q rest t) :=
  .ite (drop1_kept h.set) h.set

theorem request_kept {row : ReqRow} {argsOk : Bytes → Bool} {f : Req → State → State} {via : Via} {blockOk : Req → State → Bool}
    (h : Kept s t) (hf : ∀ {r : Req} {u : State}, Kept s u → Kept s (f r u)) : Kept s (request row argsOk f via t blockOk) := by
  unfold request
  split
  · refine .ite h ?_
    split
    extract_lets s1
    have hs1 : Kept s s1 := svcTaken_kept h
    split
    · exact hs1
    · exact .ite h (.ite (svcHeard_kept hs1.set) (serveWith_kept (svcHeard_kept hs1) hf))
  · split
    · exact h
    · exact .ite (serveWith_kept (takePassed_kept h) hf) h

theorem answerOk_kept {r : Req} {results : Bytes} (h : Kept s t) : Kept s (answerOk r results t) :=
  respond_kept h

theorem accept_kept {r : Req} (h : Kept s t) : Kept s (accept r t) := asyncAccept_kept (respond_kept h)

theorem getState_kept {r : Req} (h : Kept s t) : Kept s (getState r t) := answerOk_kept h

theorem beginTransit_kept {t₁ : Transit} (h : Kept s t) : Kept s (beginTransit t₁ t) := h.set

theorem modeRun_kept {r : Req} (h : Kept s t) : Kept s (modeRun r t) := beginTransit_kept (accept_kept h)

theorem modeHalt_kept {r : Req} (h : Kept s t) : Kept s (modeHalt r t) := beginTransit_kept (accept_kept h)

theorem modeBaton_kept {r : Req} (h : Kept s t) : Kept s (modeBaton r t) := by
  unfold modeBaton
  extract_lets s1
  have hs1 : Kept s s1 := accept_kept h
  clear_value s1
  exact .ite (refuse_kept h) (.ite hs1 hs1.set)

theorem modeWithdraw_kept {r : Req} (h : Kept s t) : Kept s (modeWithdraw r t) :=
  withdrawn_kept (sendLeave_kept (answerOk_kept h))

theorem restartFor_kept {r : Req} (h : Kept s t) : Kept s (restartFor r t) :=
  asyncDone_kept (beginBringUp_kept (sendLeave_kept h))

theorem restartReq_kept {r : Req} (h : Kept s t) : Kept s (restartReq r t) := restartFor_kept (accept_kept h)

theorem hibernateReq_kept {r : Req} (h : Kept s t) : Kept s (hibernateReq r t) := by
  unfold hibernateReq
  extract_lets s1 src s2
  have hs1 : Kept s s1 := accept_kept h
  clear_value s1
  have hs2 : Kept s s2 := sendLeave_kept hs1.set
  exact .ite (refuse_kept h) (.ite (beginTransit_kept hs2) (hibernateState_kept (hibernateNotes_kept hs2)))

theorem mouldRefused_kept {r : Req} {f : MouldFail} (h : Kept s t) : Kept s (mouldRefused r f t) :=
  respond_kept (mouldInvalid_kept h)

theorem setRefused_kept {pkg : Nat} (h : Kept s t) : Kept s (setRefused pkg t) := sj_kept (drawn_kept h.set)

theorem activateBank_kept {r : Req} (h : Kept s t) : Kept s (activateBank r t) := by
  unfold activateBank
  extract_lets s1
  have hs1 : Kept s s1 := accept_kept h
  clear_value s1
  exact restartFor_kept hs1.set

theorem loadMould_kept {r : Req} (h : Kept s t) : Kept s (loadMould r t) := by
  unfold loadMould
  extract_lets
  split
  · exact mouldRefused_kept h
  · exact .ite (activateBank_kept h) (respond_kept (setRefused_kept h))

theorem repressReq_kept {r : Req} (h : Kept s t) : Kept s (repressReq r t) := by
  unfold repressReq
  extract_lets
  split
  · exact refuse_kept h
  · split
    · exact mouldRefused_kept h
    · exact .ite (beginRepress_kept (accept_kept h)) (mouldRefused_kept h)

theorem editLoad_kept {r : Req} (h : Kept s t) : Kept s (editLoad r t) := by
  unfold editLoad
  split
  · exact respond_kept h
  · exact .ite (refuse_kept h) (.ite (refuse_kept h) (editLoadOwn_kept (accept_kept h)))

theorem trialStartReq_kept {r : Req} (h : Kept s t) : Kept s (trialStartReq r t) :=
  .ite (refuse_kept h) (answerOk_kept (trialStart_kept (editCommand_kept h)))

theorem trialAbortReq_kept {r : Req} (h : Kept s t) : Kept s (trialAbortReq r t) :=
  .ite (refuse_kept h) (answerOk_kept (abortTrial_kept (editCommand_kept h)))

theorem trialReportReq_kept {r : Req} (h : Kept s t) : Kept s (trialReportReq r t) :=
  .ite (refuse_kept h) (.ite (editCommand_kept h.set) (answerOk_kept h))

theorem editAdoptReq_kept {r : Req} (h : Kept s t) : Kept s (editAdoptReq r t) := by
  unfold editAdoptReq
  extract_lets want s1
  have hs1 : Kept s s1 := accept_kept h
  clear_value s1
  exact .ite (refuse_kept h) (.ite (adoptEdit_kept hs1) (.ite hs1.set hs1.set))

theorem editDiscardReq_kept {r : Req} (h : Kept s t) : Kept s (editDiscardReq r t) :=
  .ite (answerOk_kept (editDiscarded_kept (.ite (editCommand_kept (abortTrial_kept h)) (abortTrial_kept h)))) (refuse_kept h)

theorem noteCorrupt_kept {log n : Nat} (h : Kept s t) : Kept s (noteCorrupt log n t) := sjRep_kept h.set

theorem logRead_kept {r : Req} (h : Kept s t) : Kept s (logRead r t) :=
  answerOk_kept (.foldl h fun h => .ite (noteCorrupt_kept h) h)

theorem rtcSetReq_kept {r : Req} (h : Kept s t) : Kept s (rtcSetReq r t) := answerOk_kept (rtcSet_kept h)

theorem lbRecoverReq_kept {r : Req} (h : Kept s t) : Kept s (lbRecoverReq r t) :=
  .ite (answerOk_kept (lbChange_kept h)) (refuse_kept h)

theorem tblReq_kept {r : Req} (h : Kept s t) : Kept s (tblReq r t) := by
  unfold tblReq
  extract_lets
  split
  · exact refuse_kept h
  · split
    · exact refuse_kept h
    · exact respond_kept h
    · exact .ite (answerOk_kept (tblStatus_kept ((tblRun_kept h)))) (.ite (accept_kept (tblStatus_kept ((tblRun_kept h))))
          (refuse_kept (tblStatus_kept ((tblRun_kept h)))))

theorem keepJob_kept {j : CrcJob} (h : Kept s t) : Kept s (keepJob j t) := h.set

theorem crcStartReq_kept {r : Req} (h : Kept s t) : Kept s (crcStartReq r t) :=
  answerOk_kept (.ite (keepJob_kept (drawn_kept h)) (push_kept (drawn_kept (dataWrite_kept (keepJob_kept (drawn_kept h))))))

theorem crcResultReq_kept {r : Req} (h : Kept s t) : Kept s (crcResultReq r t) := by
  unfold crcResultReq
  split
  · exact answerOk_kept h
  · exact respond_kept h

theorem setRoleKey_kept {role : Nat} {k : Option Bytes} (h : Kept s t) : Kept s (setRoleKey role k t) := h.set

theorem keyChange_kept {k : Option Bytes} {r : Req} (h : Kept s t) : Kept s (keyChange k r t) :=
  sj_kept (setRoleKey_kept (answerOk_kept h))

theorem keySetReq_kept {r : Req} (h : Kept s t) : Kept s (keySetReq r t) := keyChange_kept h

theorem keyClearReq_kept {r : Req} (h : Kept s t) : Kept s (keyClearReq r t) := keyChange_kept h

theorem keyListReq_kept {r : Req} (h : Kept s t) : Kept s (keyListReq r t) := answerOk_kept h

theorem svcFrameTimeout_kept (h : Kept s t) : Kept s (svcFrameTimeout t) := .ite h.set h

/-! ### Registers -/

theorem onReadMgt_kept {o : Nat} (h : Kept s t) : Kept s (onReadMgt o t) := by
  unfold onReadMgt
  extract_lets
  split
  · exact h.set
  · exact h.set
  · exact h.set
  · exact h.set
  · exact h.set
  · exact h

theorem wrMgt_kept {o : Nat} {v : Word} (h : Kept s t) : Kept s (wrMgt o v t) := .ite h.set (.ite h.set h)

theorem onReadRtc_kept {o : Nat} (h : Kept s t) : Kept s (onReadRtc o t) := .ite h.set h

theorem wrRtc_kept {o : Nat} {v : Word} (h : Kept s t) : Kept s (wrRtc o v t) := .ite h.set (.ite h.set h)

theorem onReadLog_kept {o : Nat} (h : Kept s t) : Kept s (onReadLog o t) := by
  unfold onReadLog
  extract_lets
  split
  · exact h.set
  · exact h.set
  · exact h.set
  · exact h

theorem onReadCrc_kept {o : Nat} (h : Kept s t) : Kept s (onReadCrc o t) := by
  unfold onReadCrc
  extract_lets
  split
  · exact h.set
  · exact h.set
  · exact h.set
  · exact h

theorem onReadLap_kept {o : Nat} (h : Kept s t) : Kept s (onReadLap o t) := by
  unfold onReadLap
  extract_lets
  split
  · exact h.set
  · exact h.set
  · exact h.set
  · exact h.set
  · exact h.set
  · exact h

theorem onReadBu_kept {o : Nat} (h : Kept s t) : Kept s (onReadBu o t) := by
  unfold onReadBu
  extract_lets
  split
  · exact h.set
  · exact h.set
  · exact h

theorem wrBu_kept {o : Nat} {v : Word} (h : Kept s t) : Kept s (wrBu o v t) := .ite h.set h

theorem onReadBx_kept {o : Nat} (h : Kept s t) : Kept s (onReadBx o t) := by
  unfold onReadBx
  extract_lets
  split
  · exact h.set
  · exact h.set
  · exact h.set
  · exact h

theorem wrBx_kept {o : Nat} {v : Word} (h : Kept s t) : Kept s (wrBx o v t) := .ite h.set h

theorem onReadSby_kept {o : Nat} (h : Kept s t) : Kept s (onReadSby o t) := .ite h.set h

theorem onReadSaf_kept {o : Nat} (h : Kept s t) : Kept s (onReadSaf o t) := .ite h.set h

theorem wrSaf_kept {o : Nat} {v : Word} (h : Kept s t) : Kept s (wrSaf o v t) := .ite h.set h

theorem wrDiCfg_kept {n : Nat} {v : Word} (h : Kept s t) : Kept s (wrDiCfg n v t) := .ite h.set h

theorem wrDoCfg_kept {k : Nat} {v : Word} (h : Kept s t) : Kept s (wrDoCfg k v t) := .ite h.set h

theorem wrDio_kept {o : Nat} {v : Word} (h : Kept s t) : Kept s (wrDio o v t) := by
  unfold wrDio
  extract_lets
  split
  · exact wrDiCfg_kept h
  · split
    · exact wrDoCfg_kept h
    · split
      · exact h.set
      · exact h.set
      · exact fieldCommand_kept h ackOutputs_kept
      · exact h.set
      · exact h.set
      · exact h

theorem onReadAcq_kept {o : Nat} (h : Kept s t) : Kept s (onReadAcq o t) := .ite h.set h

theorem wrAcq_kept {o : Nat} {v : Word} (h : Kept s t) : Kept s (wrAcq o v t) := .ite (swTrigger_kept h) (.ite h.set h)

theorem onReadMtr_kept {o : Nat} (h : Kept s t) : Kept s (onReadMtr o t) := by
  unfold onReadMtr
  extract_lets
  split
  · exact h.set
  · exact h.set
  · exact h

theorem wrMtr_kept {o : Nat} {v : Word} (h : Kept s t) : Kept s (wrMtr o v t) := .ite h.set (.ite h.set h)

theorem onReadLb_kept {p o : Nat} (h : Kept s t) : Kept s (onReadLb p o t) := by
  unfold onReadLb
  split
  · exact modLb_kept h
  · exact modLb_kept h
  · exact modLb_kept h
  · exact modLb_kept h
  · exact modLb_kept h
  · exact modLb_kept h
  · exact h

theorem wrLb_kept {p o : Nat} {v : Word} (h : Kept s t) : Kept s (wrLb p o v t) := .ite (modLb_kept h) h

theorem onReadPort_kept {n o : Nat} (h : Kept s t) : Kept s (onReadPort n o t) := by
  unfold onReadPort
  split
  · exact modPort_kept h
  · exact modPort_kept h
  · exact modPort_kept h
  · exact modPort_kept h
  · exact modPort_kept h
  · exact h

theorem onReadBbs_kept {o : Nat} (h : Kept s t) : Kept s (onReadBbs o t) := by
  unfold onReadBbs
  extract_lets
  split
  · exact onReadPort_kept h
  · split
    · exact h.set
    · exact h.set
    · exact h

theorem onReadPipe_kept {w : Bool} {o : Nat} (h : Kept s t) : Kept s (onReadPipe w o t) := by
  unfold onReadPipe
  split
  · exact modPipe_kept h
  · exact modPipe_kept h
  · exact modPipe_kept h
  · exact modPipe_kept h
  · exact modPipe_kept h
  · exact h

theorem onReadTbl_kept {o : Nat} (h : Kept s t) : Kept s (onReadTbl o t) := .ite (onReadPipe_kept h) (.ite (onReadPipe_kept h) h)

theorem wrTblCmd_kept {v : Word} (h : Kept s t) : Kept s (wrTblCmd v t) := by
  unfold wrTblCmd
  extract_lets
  split
  · exact tblStatus_kept h
  · split
    · exact tblStatus_kept (refusalNote_kept (drawn_kept h))
    · exact tblStatus_kept h
    · exact tblStatus_kept ((tblRun_kept h))

theorem wrTblLock_kept {v : Word} (h : Kept s t) : Kept s (wrTblLock v t) :=
  .ite (lockTake_kept (.ite h.set h)) (lockRelease_kept (.ite h.set h))

theorem wrTbl_kept {o : Nat} {v : Word} (h : Kept s t) : Kept s (wrTbl o v t) := by
  unfold wrTbl
  extract_lets
  split
  · exact h.set
  · split
    · exact wrTblCmd_kept h
    · exact wrTblLock_kept h
    · exact dmaStart_kept h
    · exact h.set
    · exact h.set
    · exact h

theorem onReadPxe_kept {o : Nat} (h : Kept s t) : Kept s (onReadPxe o t) := by
  unfold onReadPxe
  extract_lets
  split
  · exact h.set
  · exact h.set
  · exact h

theorem wrPxe_kept {o : Nat} {v : Word} (h : Kept s t) : Kept s (wrPxe o v t) := .ite h.set h

theorem onReadQp_kept {o : Nat} (h : Kept s t) : Kept s (onReadQp o t) := by
  unfold onReadQp
  extract_lets
  split
  · exact ringSet_kept h
  · exact ringSet_kept h
  · exact h

theorem wrQp_kept {o : Nat} {v : Word} (h : Kept s t) : Kept s (wrQp o v t) := by
  unfold wrQp
  extract_lets
  split
  · exact h.set
  · exact qpCiWrite_kept h
  · exact ringSet_kept h
  · exact h

theorem regOnRead_kept {b : Block} {o : Nat} (h : Kept s t) : Kept s (regOnRead b o t) := by
  unfold regOnRead
  split
  · exact onReadMgt_kept h
  · exact onReadRtc_kept h
  · exact onReadLog_kept h
  · exact onReadCrc_kept h
  · exact h
  · exact h
  · exact h
  · exact h
  · exact onReadLap_kept h
  · exact onReadBu_kept h
  · exact onReadBx_kept h
  · exact onReadSby_kept h
  · exact onReadSaf_kept h
  · exact onReadAcq_kept h
  · exact onReadMtr_kept h
  · exact onReadLb_kept h
  · exact onReadBbs_kept h
  · exact onReadTbl_kept h
  · exact onReadPxe_kept h
  · exact onReadQp_kept h

theorem regWrite_kept {b : Block} {o : Nat} {v : Word} (h : Kept s t) : Kept s (regWrite b o v t) := by
  unfold regWrite
  split
  · exact wrMgt_kept h
  · exact wrRtc_kept h
  · exact h
  · exact h
  · exact h
  · exact h
  · exact h
  · exact h
  · exact h
  · exact h
  · exact wrBu_kept h
  · exact wrBx_kept h
  · exact wrSaf_kept h
  · exact wrDio_kept h
  · exact wrAcq_kept h
  · exact wrMtr_kept h
  · exact wrLb_kept h
  · exact wrTbl_kept h
  · exact wrPxe_kept h
  · exact wrQp_kept h

theorem xdomMiss_kept {block : Byte} (h : Kept s t) : Kept s (xdomMiss block t) := h.set

theorem answered_kept {v : Nat} (h : Kept s t) : Kept s (answered v t) := h.set

theorem readAccess_kept {addr : Word} {width : Nat} (h : Kept s t) : Kept s (readAccess addr width t) := by
  unfold readAccess
  split
  · exact .ite (answered_kept h) h
  · exact answered_kept (xdomMiss_kept h)
  · exact answered_kept (regOnRead_kept h)

theorem writeAccess_kept {addr : Word} {width : Nat} {v : Word} (h : Kept s t) : Kept s (writeAccess addr width v t) := by
  unfold writeAccess
  split
  · exact h
  · exact xdomMiss_kept h
  · exact regWrite_kept h

theorem laneLock_kept {f : State → State} (h : Kept s t) (hf : ∀ {u : State}, Kept s u → Kept s (f u)) : Kept s (laneLock f t) :=
  .ite h (.ite (hf h) (xdomMiss_kept h))

/-! ### Updates -/

theorem setStaged_kept {kind : Nat} {x : Staged} (h : Kept s t) : Kept s (setStaged kind x t) := h.set

theorem stageData_kept {r : Req} {kind : Nat} {st : Staged} {data : Bytes} (h : Kept s t) : Kept s (stageData r kind st data t) :=
  answerOk_kept (.ite (sj_kept (stagingWrite_kept (setStaged_kept h))) (stagingWrite_kept (setStaged_kept h)))

theorem stageOpen_kept {r : Req} {kind total : Nat} {data : Bytes} (h : Kept s t) : Kept s (stageOpen r kind total data t) :=
  .ite (refuse_kept h) (.ite (refuse_kept h) (stageData_kept h.set))

theorem updStage_kept {r : Req} (h : Kept s t) : Kept s (updStage r t) :=
  .ite (respond_kept h) (.ite (stageOpen_kept h) (stageData_kept h))

theorem updFailed_kept {pkg : Nat} {f : PkgFail} (h : Kept s t) : Kept s (updFailed pkg f t) := by
  unfold updFailed
  extract_lets part s1
  have hs1 : Kept s s1 := .ite h (drawn_kept h)
  clear_value s1
  exact asyncDone_kept (sj_kept hs1.set)

theorem applySys_kept {st : Staged} (h : Kept s t) : Kept s (applySys st t) := by
  unfold applySys
  extract_lets src s1
  have hs1 : Kept s s1 := h.set
  split
  · exact updFailed_kept hs1
  · exact sj_kept (journalWrite_kept hs1.set)

theorem applyApp_kept {st : Staged} (h : Kept s t) : Kept s (applyApp st t) := by
  unfold applyApp
  extract_lets src s1
  have hs1 : Kept s s1 := h.set
  split
  · exact updFailed_kept (emptyInactive_kept hs1)
  · exact hs1.set

theorem updApply_kept {r : Req} (h : Kept s t) : Kept s (updApply r t) := by
  unfold updApply
  extract_lets
  split
  · exact respond_kept h
  · split
    · exact .ite (refuse_kept h) (applySys_kept (accept_kept h))
    · exact .ite (refuse_kept h) (applyApp_kept (accept_kept h))

theorem writeSectors_kept {a : Nat} {bs : Bytes} (h : Kept s t) : Kept s (writeSectors a bs t) :=
  flashWrite_kept (flashErase_kept h)

theorem writeBank_kept {st : Staged} (h : Kept s t) : Kept s (writeBank st t) :=
  .foldl (writeSectors_kept h) fun h => writeSectors_kept h

theorem bankWritten_kept {readbackFails : Option Nat} (h : Kept s t) : Kept s (bankWritten readbackFails t) := by
  unfold bankWritten
  split
  · extract_lets s1 set s2
    have hs1 : Kept s s1 := writeBank_kept h
    have hs2 : Kept s s2 := setBank_kept hs1
    clear_value s2
    split
    · split
      · exact updFailed_kept (emptyInactive_kept hs1)
      · exact asyncDone_kept (sj_kept hs2.set)
    · exact h
  · exact h

theorem commitSys_kept {m : Bytes} (h : Kept s t) : Kept s (commitSys m t) :=
  asyncDone_kept (sj_kept (journalCommit_kept h.set))

theorem patchEnds_kept {m : Bytes} (h : Kept s t) : Kept s (patchEnds m t) := by
  unfold patchEnds
  extract_lets
  split
  · exact goDead_kept h.set
  · exact commitSys_kept h

theorem patchOperation_kept {firstOk secondOk : Bool} (h : Kept s t) : Kept s (patchOperation firstOk secondOk t) := by
  unfold patchOperation
  extract_lets
  split
  · split
    · extract_lets blk s1 src s2
      have hs1 : Kept s s1 := writeSectors_kept (journalPrepared_kept h)
      clear_value s1
      have hs2 : Kept s s2 := journalWrite_kept hs1.set
      exact .ite (.ite (.ite (patchEnds_kept hs2) hs2) (goDead_kept hs1.set)) h
    · exact h
  · exact h

theorem updActivate_kept {r : Req} (h : Kept s t) : Kept s (updActivate r t) := by
  unfold updActivate
  extract_lets
  split
  · exact respond_kept h
  · split
    · exact .ite (restartFor_kept (accept_kept h)) (refuse_kept h)
    · exact .ite (activateBank_kept h) (respond_kept (setRefused_kept h))

theorem restoreManifest_kept {r : Req} (h : Kept s t) : Kept s (restoreManifest r t) := by
  unfold restoreManifest
  extract_lets have_ all src s1
  have hs1 : Kept s s1 := h.set
  split
  · exact respond_kept h
  · split
    · exact answerOk_kept hs1
    · split
      · exact respond_kept h
      · exact answerOk_kept (sj_kept hs1.set)

theorem restoreData_kept {r : Req} (h : Kept s t) : Kept s (restoreData r t) := by
  unfold restoreData
  extract_lets
  split
  · exact respond_kept h
  · exact .ite (answerOk_kept (flashWrite_kept h)) (respond_kept h)

theorem restoreFinish_kept {r : Req} (h : Kept s t) : Kept s (restoreFinish r t) := by
  unfold restoreFinish
  extract_lets s1
  have hs1 : Kept s s1 := accept_kept h
  clear_value s1
  split
  · exact respond_kept h
  · extract_lets
    split
    · exact respond_kept h
    · exact asyncDone_kept (beginBringUp_kept (sj_kept (journalCommit_kept hs1.set)))

/-! ### Step -/

theorem tick_kept (h : Kept s t) : Kept s (tick t) := keyScan_kept (switchTick_kept h.set)

/-! ### The operations of the executing program -/

/-- What a command does: where `bad` names no refusal, or no program executes, it goes to a next state that keeps the queue and the
canonical form of the stores; a refusal that `bad` names comes while a program executes. -/
structure Answers (bad : Option String) (s : State) (o : Result) : Prop where
  goes : executing s = false ∨ bad = none → ∃ t, o = .next t ∧ Kept s t
  refuses : ∀ m, executing s = true → bad = some m → o = .refused (.verifierRejects m)

theorem Answers.next (h : Kept s t) : Answers none s (.next t) := ⟨fun _ => ⟨t, rfl, h⟩, fun _ _ hm => nomatch hm⟩

theorem checked_answers {mn : String} {ok : State → Bool} {run : State → Result} (hrun : Answers none s (run s)) :
    Answers (if ok s then none else some mn) s (checked mn ok run s) := by
  obtain ⟨t, hrun, ht⟩ := hrun.goes (.inr rfl)
  unfold checked
  rw [hrun]
  cases hok : ok s with
  | true => exact ⟨fun _ => ⟨t, by simp, ht⟩, fun m _ hm => nomatch hm⟩
  | false =>
    constructor
    · rintro (hexec | hbad)
      · exact ⟨t, by simp [hexec], ht⟩
      · exact nomatch hbad
    · rintro m hexec hm
      cases hm
      simp [hexec]

section
variable {f : State → Lapped} {count g : State → State} {n : Nat}

theorem runSeq_answers (hf : Kept s (lappedState (f (count s)))) : Answers none s (runSeq count n f s) :=
  .next (.ite (settled_kept hf fun h => advance_kept (noteSeen_kept h)) (.refl s))

theorem runCtl_answers (hf : Kept s (lappedState (f (count s)))) : Answers none s (runCtl count f s) := by
  have hsettled : Kept s (settled ((f (count s)).map id)) := settled_kept hf id
  rw [Except.map_id] at hsettled
  exact .next (.ite hsettled (.refl s))

theorem runReg_answers (hg : Kept s (g (countWord s))) : Answers none s (runReg g s) := runSeq_answers hg

end

section
variable {mn : String} {k : BitVec 3} {w : Nat} {a : Area} {index offset : BitVec 20}

theorem runLd_answers {b : Bool → Bool} :
    Answers (if bitReadable a index.toNat s then none else some mn) s
      (checked mn (bitReadable a index.toNat) (runSeq countBit 1 fun t => do return setBa (b (← fetchBit a index.toNat t)) t) s) :=
  checked_answers (runSeq_answers (fetchBit_kept (countBit_kept (.refl s)) fun _ => setBa_kept (countBit_kept (.refl s))))

theorem runCombine_answers : Answers (if bitReadable a index.toNat s then none else some mn) s (runCombine mn k a index s) :=
  checked_answers (runSeq_answers (combineOp_kept (countBit_kept (.refl s))))

theorem runOpen_answers : Answers (if bitReadable a index.toNat s then none else some mn) s (runOpen mn k a index s) :=
  checked_answers (runSeq_answers (openOp_kept (countBit_kept (.refl s))))

theorem runStore_answers {doit b : State → Bool} :
    Answers (if bitWritable a index.toNat s then none else some mn) s (runStore mn doit b a index s) :=
  have h := countBit_kept (.refl s)
  checked_answers (runSeq_answers (.ite (bitWrite_kept h) h))

theorem runEdge_answers {rising : Bool} :
    Answers (if decide (index.toNat < 16384) then none else some mn) s
      (checked mn (fun _ => decide (index.toNat < 16384)) (runSeq countBit 1 (edgeOp rising index.toNat)) s) :=
  checked_answers (ok := fun _ => decide (index.toNat < 16384)) (runSeq_answers (edgeOp_kept (countBit_kept (.refl s))))

theorem runJump_answers {taken : State → Bool} :
    Answers (if jumpOk offset s then none else some mn) s
      (checked mn (jumpOk offset) (runCtl countBit fun t => .ok (jumpOp (taken t) offset t)) s) :=
  checked_answers (runCtl_answers (jumpOp_kept (countBit_kept (.refl s))))

theorem execLdi_answers : Answers (if readable a then none else some "LDI") s (execLdi a index s) := by
  have h := countBitWord_kept (.refl s)
  refine checked_answers (ok := fun _ => readable a) (runSeq_answers ?_)
  dsimp only
  split
  · exact fetchBit_kept h fun _ => setBa_kept h
  · exact h

theorem execSti_answers : Answers (if readable a then none else some "STI") s (execSti a index s) := by
  have h := countBitWord_kept (.refl s)
  refine checked_answers (ok := fun _ => readable a) (runSeq_answers ?_)
  dsimp only
  split
  · exact h
  · split
    · exact bitWrite_kept h
    · exact h

theorem runLoad_answers {put : Word → State → State} (hput : ∀ {v : Word} {u : State}, Kept s u → Kept s (put v u)) :
    Answers (if elemReadable w a index.toNat s then none else some mn) s (runLoad mn w put a index s) :=
  checked_answers (runSeq_answers (fetchElem_kept (countWord_kept (.refl s)) fun _ => hput (countWord_kept (.refl s))))

theorem runStoreW_answers : Answers (if elemWritable w a index.toNat s then none else some mn) s (runStoreW mn w a index s) :=
  checked_answers (runSeq_answers (elemWrite_kept (countWord_kept (.refl s))))

theorem runLoadX_answers : Answers (if readable a then none else some mn) s (runLoadX mn w a index s) := by
  have h := countWord_kept (.refl s)
  refine checked_answers (ok := fun _ => readable a) (runSeq_answers ?_)
  dsimp only
  split
  · exact fetchElem_kept h fun _ => setAcc1_kept h
  · exact h

theorem runStoreX_answers : Answers (if readable a then none else some mn) s (runStoreX mn w a index s) := by
  have h := countWord_kept (.refl s)
  refine checked_answers (ok := fun _ => readable a) (runSeq_answers ?_)
  dsimp only
  split
  · exact h
  · split
    · exact elemWrite_kept h
    · exact h

end

theorem runBin_answers {f : Bool → Word → Word → Res} : Answers none s (runBin f s) :=
  runReg_answers (putRes_kept (countWord_kept (.refl s)))

theorem runShift_answers {f : Word → Nat → Res} : Answers none s (runShift f s) :=
  runReg_answers (putRes_kept (countWord_kept (.refl s)))

theorem runDiv_answers {quot : Word → Word} {f : Bool → Word → Word → Res} : Answers none s (runDiv quot f s) := by
  have h := countWord_kept (.refl s)
  refine runSeq_answers ?_
  dsimp only
  split
  · split
    · exact h
    · exact (putRes_kept (r := resOf (quot (countWord s).bx.acc1) false false) h).set
  · exact putRes_kept h

theorem runCmp_answers {signed : Bool} {rel : Int → Int → Bool} : Answers none s (runCmp signed rel s) :=
  runReg_answers (setBa_kept (setFlags_kept (countWord_kept (.refl s))))

theorem runCmpR_answers {nan : Bool} {rel : Bool → Bool → Bool} : Answers none s (runCmpR nan rel s) :=
  runReg_answers (setBa_kept (noteFe_kept (setFlags_kept (countWord_kept (.refl s)))))

theorem runBinR_answers {f : Word → Word → Word} : Answers none s (runBinR f s) :=
  runReg_answers (noteFe_kept (putRes_kept (countWord_kept (.refl s))))

theorem runUnR_answers {f : Word → Word} : Answers none s (runUnR f s) :=
  runReg_answers (noteFe_kept (putRes_kept (countWord_kept (.refl s))))

theorem runToR_answers {f : Word → Word} : Answers none s (runToR f s) :=
  runReg_answers (putRes_kept (countWord_kept (.refl s)))

theorem runFromR_answers {nearest : Bool} : Answers none s (runFromR nearest s) :=
  runReg_answers (noteFe_kept (putRes_kept (countWord_kept (.refl s))))

theorem runAcx_answers {addend : State → Int} : Answers none s (runAcx addend s) :=
  runReg_answers (.ite (countWord_kept (.refl s)) (countWord_kept (.refl s)).set)

theorem execStx_answers {a : Area} {index : BitVec 20} :
    Answers (if elemWritable 32 a index.toNat s then none else some "STX") s (execStx a index s) :=
  checked_answers (runReg_answers (elemWrite_kept (setFlags_kept (countWord_kept (.refl s)))))

theorem execCall_answers {number : BitVec 20} :
    Answers (if funcExists number.toNat s then none else some "CALL") s (execCall number s) :=
  checked_answers (runCtl_answers (callOp_kept (countWord_kept (.refl s))))

theorem execCalli_answers : Answers none s (execCalli s) := by
  have h := countWord_kept (.refl s)
  refine runCtl_answers ?_
  split
  · exact callOp_kept h
  · exact h

theorem execRet_answers : Answers none s (execRet s) :=
  runCtl_answers (settle_kept (blockEnds_kept (noteSeen_kept (countWord_kept (.refl s)))))

theorem execRetc_answers : Answers none s (execRetc s) :=
  have h := noteSeen_kept (countWord_kept (.refl s))
  runCtl_answers (.ite (settle_kept (blockEnds_kept h)) (advance_kept h))

theorem runSb_answers {n : Nat} : Answers none s (runSb n s) := runSeq_answers (sbCall_kept (countWord_kept (.refl s)))

theorem execCallsb_answers {number : BitVec 7} :
    Answers (if sysBlockKnown number.toNat then none else some "CALLSB") s (execCallsb number s) :=
  checked_answers (ok := fun _ => sysBlockKnown number.toNat) runSb_answers

theorem execNop_answers : Answers none s (execNop s) := runSeq_answers (countBit_kept (.refl s))

theorem execClose_answers : Answers none s (execClose s) := runSeq_answers (closeOp_kept (countBit_kept (.refl s)))

theorem execBitNot_answers : Answers none s (execBitNot s) :=
  runSeq_answers (f := fun t => .ok (setBa (!t.bu.ba) t)) (setBa_kept (countBit_kept (.refl s)))

theorem execSetba_answers : Answers none s (execSetba s) :=
  runSeq_answers (f := fun t => .ok (setBa true t)) (setBa_kept (countBit_kept (.refl s)))

theorem execClrba_answers : Answers none s (execClrba s) :=
  runSeq_answers (f := fun t => .ok (setBa false t)) (setBa_kept (countBit_kept (.refl s)))

theorem execBtow_answers : Answers none s (execBtow s) :=
  have h := countBitWord_kept (.refl s)
  runSeq_answers (f := fun t => .ok { t with bx := { t.bx with acc1 := BitVec.ofNat 32 (b2n t.bu.ba) } }) h.set

theorem execWtob_answers : Answers none s (execWtob s) :=
  runSeq_answers (f := fun t => .ok (setBa (t.bx.acc1 ≠ 0) t)) (setBa_kept (countBitWord_kept (.refl s)))

theorem execLk_answers {literal : Word} : Answers none s (execLk literal s) :=
  runSeq_answers (f := fun t => .ok (setAcc1 literal t)) (setAcc1_kept (countWord_kept (.refl s)))

theorem execLi_answers {imm : BitVec 24} : Answers none s (execLi imm s) := runReg_answers (setAcc1_kept (countWord_kept (.refl s)))

theorem execLih_answers {imm : BitVec 16} : Answers none s (execLih imm s) :=
  runReg_answers (setAcc1_kept (countWord_kept (.refl s)))

theorem execSwap_answers : Answers none s (execSwap s) :=
  runReg_answers (setAcc2_kept (setAcc1_kept (countWord_kept (.refl s))))

theorem execDup_answers : Answers none s (execDup s) := runReg_answers (setAcc2_kept (countWord_kept (.refl s)))

theorem execLio_answers {imm : BitVec 24} : Answers none s (execLio imm s) :=
  runReg_answers (setAcc2_kept (countWord_kept (.refl s)))

theorem execDivr_answers : Answers none s (execDivr s) := by
  refine runReg_answers ?_
  extract_lets a b r u
  have hu : Kept s u := noteFe_kept (putRes_kept (countWord_kept (.refl s)))
  clear_value u
  exact hu.set

theorem execClrx_answers : Answers none s (execClrx s) := runReg_answers (countWord_kept (.refl s)).set

theorem execSarx_answers : Answers none s (execSarx s) :=
  runReg_answers (.ite (countWord_kept (.refl s)) (countWord_kept (.refl s)).set)

theorem execClrf_answers : Answers none s (execClrf s) := runReg_answers (countWord_kept (.refl s)).set

theorem execLdf_answers : Answers none s (execLdf s) := runReg_answers (setAcc1_kept (countWord_kept (.refl s)))

theorem execTstf_answers {bit : BitVec 3} : Answers none s (execTstf bit s) :=
  runReg_answers (setBa_kept (countWord_kept (.refl s)))

/-! ### Every command -/

theorem exec_answers (c : Instr) (s : State) : Answers (Safety.rejected s c) s (exec c s) :=
  have h : Kept s s := .refl s
  match c with
  | .registerWrite _ _ _ => .next (writeAccess_kept h)
  | .rcRead _ _ => .next (readAccess_kept h)
  | .loRead _ _ => .next (readAccess_kept h)
  | .supplyValid => .next (supplyValid_kept h)
  | .supplyWarn _ _ => .next (supplyWarn_kept h)
  | .supplyRestored => .next (supplyRestored_kept h)
  | .shutdown => .next (whenever_kept h shutdown_kept)
  | .pd0Loss => .next (pd0Loss_kept h)
  | .inputFilterTransition _ => .next (fieldCommand_kept h rawSamples_kept)
  | .diOpen _ => .next (fieldCommand_kept h diOpen_kept)
  | .diOpenCleared _ => .next (fieldCommand_kept h diOpenCleared_kept)
  | .diGroupLost _ _ => .next (fieldCommand_kept h diGroupLost_kept)
  | .diGroupRestored _ => .next (fieldCommand_kept h diGroupRestored_kept)
  | .vsShort _ => .next (fieldCommand_kept h vsShort_kept)
  | .vsRetry _ _ => .next (fieldCommand_kept h vsRetry_kept)
  | .doTrip _ => .next (fieldCommand_kept h doTrip_kept)
  | .doRetry _ => .next (fieldCommand_kept h doRetry_kept)
  | .doRetryCountReset _ => .next (fieldCommand_kept h doRetryCountReset_kept)
  | .groupOverload _ => .next (fieldCommand_kept h latchGroup_kept)
  | .doOpenLoad _ => .next (fieldCommand_kept h doOpenLoad_kept)
  | .backfeed _ => .next (fieldCommand_kept h backfeed_kept)
  | .doSupplyLost _ _ => .next (fieldCommand_kept h doSupplyLost_kept)
  | .doSupplyRestored _ => .next (fieldCommand_kept h doSupplyRestored_kept)
  | .doAckWrite _ => .next (writeAccess_kept h)
  | .trgAssert _ => .next (fieldCommand_kept h trgAssert_kept)
  | .polaritySet _ => .next (polarity_kept h)
  | .polarityCleared _ => .next (polarity_kept h)
  | .di00Wake => .next (wakeUp_kept h)
  | .lb0Wake => .next (wakeUp_kept h)
  | .row0Wake => .next (wakeUp_kept h)
  | .manifestsVerified => .next (manifestsVerified_kept h)
  | .mouldPressed _ => .next (mouldPressed_kept h)
  | .partReady _ _ _ => .next (partReady_kept h)
  | .partNotReady _ => .next (partNotReady_kept h)
  | .firstFullLap => .next (firstFullLap_kept h)
  | .btpLap _ _ _ => .next (btpLap_kept h)
  | .lbNormalMode => .next (lbNormal_kept h)
  | .pxJoinSend => .next (pxJoinSend_kept h)
  | .haltEntered => .next (haltEntered_kept h)
  | .hibernateEntered => .next (hibernateEntered_kept h)
  | .queuePush _ _ => .next (whenever_kept h push_kept)
  | .queuePop _ => .next (whenever_kept h (fun h => rearmAfterPop_kept (drop1_kept h)))
  | .backpressureResume _ => .next (whenever_kept h backpressureResume_kept)
  | .qpCiWrite _ => .next (writeAccess_kept h)
  | .regionPressDone _ => .next (regionPressDone_kept h)
  | .lapStart => .next (lapStart_kept h)
  | .lapCommit => .next (lapCommit_kept h)
  | .lapWatchdog => .next (lapWatchdog_kept h)
  | .nop => execNop_answers
  | .ld _ _ => runLd_answers (b := id)
  | .ldn _ _ => runLd_answers (b := not)
  | .bitAnd _ _ => runCombine_answers
  | .bitAndn _ _ => runCombine_answers
  | .bitOr _ _ => runCombine_answers
  | .bitOrn _ _ => runCombine_answers
  | .bitXor _ _ => runCombine_answers
  | .bitXorn _ _ => runCombine_answers
  | .openAnd _ _ => runOpen_answers
  | .openAndn _ _ => runOpen_answers
  | .openOr _ _ => runOpen_answers
  | .openOrn _ _ => runOpen_answers
  | .openXor _ _ => runOpen_answers
  | .openXorn _ _ => runOpen_answers
  | .close => execClose_answers
  | .st _ _ => runStore_answers
  | .bitSet _ _ => runStore_answers
  | .rst _ _ => runStore_answers
  | .bitNot => execBitNot_answers
  | .setba => execSetba_answers
  | .clrba => execClrba_answers
  | .fp _ => runEdge_answers
  | .fn _ => runEdge_answers
  | .jmp _ => runJump_answers (taken := fun _ => true)
  | .jmpc _ => runJump_answers (taken := fun t => t.bu.ba)
  | .jmpcn _ => runJump_answers (taken := fun t => !t.bu.ba)
  | .btow => execBtow_answers
  | .wtob => execWtob_answers
  | .ldi _ _ => execLdi_answers
  | .sti _ _ => execSti_answers
  | .l32 _ _ => runLoad_answers setAcc1_kept
  | .l16 _ _ => runLoad_answers setAcc1_kept
  | .st32 _ _ => runStoreW_answers
  | .st16 _ _ => runStoreW_answers
  | .lx32 _ _ => runLoadX_answers
  | .lx16 _ _ => runLoadX_answers
  | .sx32 _ _ => runStoreX_answers
  | .sx16 _ _ => runStoreX_answers
  | .li _ => execLi_answers
  | .lih _ => execLih_answers
  | .swap => execSwap_answers
  | .dup => execDup_answers
  | .lo32 _ _ => runLoad_answers setAcc2_kept
  | .lo16 _ _ => runLoad_answers setAcc2_kept
  | .lio _ => execLio_answers
  | .add => runBin_answers
  | .sub => runBin_answers
  | .mul => runBin_answers
  | .div => runDiv_answers
  | .mod => (runDiv_answers : Answers none s (execMod s))
  | .neg => (runBin_answers : Answers none s (execNeg s))
  | .abs => (runBin_answers : Answers none s (execAbs s))
  | .addu => runBin_answers
  | .subu => runBin_answers
  | .mulu => runBin_answers
  | .divu => runDiv_answers
  | .modu => (runDiv_answers : Answers none s (execModu s))
  | .wordAnd => (runBin_answers : Answers none s (execWordAnd s))
  | .wordOr => (runBin_answers : Answers none s (execWordOr s))
  | .wordXor => (runBin_answers : Answers none s (execWordXor s))
  | .inv => (runBin_answers : Answers none s (execInv s))
  | .shl => runShift_answers
  | .shr => runShift_answers
  | .sar => runShift_answers
  | .rol => runShift_answers
  | .ror => runShift_answers
  | .eq => (runCmp_answers : Answers none s (execEq s))
  | .ne => (runCmp_answers : Answers none s (execNe s))
  | .lt => (runCmp_answers : Answers none s (execLt s))
  | .le => (runCmp_answers : Answers none s (execLe s))
  | .gt => (runCmp_answers : Answers none s (execGt s))
  | .ge => (runCmp_answers : Answers none s (execGe s))
  | .ltu => (runCmp_answers : Answers none s (execLtu s))
  | .leu => (runCmp_answers : Answers none s (execLeu s))
  | .gtu => (runCmp_answers : Answers none s (execGtu s))
  | .geu => (runCmp_answers : Answers none s (execGeu s))
  | .eqr => (runCmpR_answers : Answers none s (execEqr s))
  | .ner => (runCmpR_answers : Answers none s (execNer s))
  | .ltr => (runCmpR_answers : Answers none s (execLtr s))
  | .ler => (runCmpR_answers : Answers none s (execLer s))
  | .gtr => (runCmpR_answers : Answers none s (execGtr s))
  | .ger => (runCmpR_answers : Answers none s (execGer s))
  | .addr => runBinR_answers
  | .subr => runBinR_answers
  | .mulr => runBinR_answers
  | .divr => execDivr_answers
  | .negr => runUnR_answers
  | .absr => runUnR_answers
  | .sqrtr => runUnR_answers
  | .itor => runToR_answers
  | .utor => runToR_answers
  | .rtoi => runFromR_answers
  | .rtoit => runFromR_answers
  | .itos => (runBin_answers : Answers none s (execItos s))
  | .clrx => execClrx_answers
  | .addx => (runAcx_answers : Answers none s (execAddx s))
  | .macx => (runAcx_answers : Answers none s (execMacx s))
  | .sarx => execSarx_answers
  | .stx _ _ => execStx_answers
  | .clrf => execClrf_answers
  | .ldf => execLdf_answers
  | .tstf _ => execTstf_answers
  | .call _ => execCall_answers
  | .calli => execCalli_answers
  | .callsb _ => execCallsb_answers
  | .ret => execRet_answers
  | .retc => execRetc_answers
  | .lk _ => execLk_answers
  | .ton => runSb_answers
  | .tof => runSb_answers
  | .tp => runSb_answers
  | .counter => runSb_answers
  | .lapInfo => runSb_answers
  | .eventInfo => runSb_answers
  | .raise => runSb_answers
  | .rtcRead => runSb_answers
  | .reflexEn => runSb_answers
  | .fieldStatus => runSb_answers
  | .doAck => runSb_answers
  | .safeStatus => runSb_answers
  | .safeAck => runSb_answers
  | .mwTrigger => runSb_answers
  | .lbFilter => runSb_answers
  | .lbSend => runSb_answers
  | .beaconPlan => runSb_answers
  | .lbSleep => runSb_answers
  | .lbWake => runSb_answers
  | .pfxLoad => runSb_answers
  | .pfxLoadApply => .next (pfxApply_kept h)
  | .mbWriteEn => runSb_answers
  | .encSet => runSb_answers
  | .panelLock => runSb_answers
  | .reflexStep => .next (whenever_kept h reflexStep_kept)
  | .getState _ => .next (request_kept h getState_kept)
  | .setModeRun _ => .next (request_kept h modeRun_kept)
  | .setModeHalt _ => .next (request_kept h modeHalt_kept)
  | .setModeBaton _ => .next (request_kept h modeBaton_kept)
  | .setModeWithdraw _ => .next (request_kept h modeWithdraw_kept)
  | .restart _ => .next (request_kept h restartReq_kept)
  | .loadMould _ => .next (request_kept h loadMould_kept)
  | .repress _ => .next (request_kept h repressReq_kept)
  | .editLoad _ => .next (request_kept h editLoad_kept)
  | .editTrialStart _ => .next (request_kept h trialStartReq_kept)
  | .editTrialAbort _ => .next (request_kept h trialAbortReq_kept)
  | .editTrialReport _ => .next (request_kept h trialReportReq_kept)
  | .editAdopt _ => .next (request_kept h editAdoptReq_kept)
  | .editDiscard _ => .next (request_kept h editDiscardReq_kept)
  | .updStage _ => .next (request_kept h updStage_kept)
  | .updApply _ => .next (request_kept h updApply_kept)
  | .bankWritten _ => .next (whenever_kept h bankWritten_kept)
  | .patchOperation _ _ => .next (patchOperation_kept h)
  | .updActivate _ => .next (request_kept h updActivate_kept)
  | .logRead _ => .next (request_kept h logRead_kept)
  | .rtcSet _ => .next (request_kept h rtcSetReq_kept)
  | .lbRecover _ => .next (request_kept h lbRecoverReq_kept)
  | .search _ => .next (request_kept h tblReq_kept)
  | .tblNext _ => .next (request_kept h tblReq_kept)
  | .insert _ => .next (request_kept h tblReq_kept)
  | .delete _ => .next (request_kept h tblReq_kept)
  | .flushByPort _ => .next (request_kept h tblReq_kept)
  | .rehash _ => .next (request_kept h tblReq_kept)
  | .rehashDone => .next (whenever_kept h rehashDone_kept)
  | .crcJobStart _ => .next (request_kept h crcStartReq_kept)
  | .crcJobResult _ => .next (request_kept h crcResultReq_kept)
  | .keyPolicySet _ => .next (request_kept h keySetReq_kept)
  | .keyPolicyClear _ => .next (request_kept h keyClearReq_kept)
  | .keyPolicyList _ => .next (request_kept h keyListReq_kept)
  | .hibernate _ => .next (request_kept h hibernateReq_kept)
  | .restoreManifest _ => .next (request_kept h restoreManifest_kept)
  | .restoreData _ => .next (request_kept h restoreData_kept)
  | .restoreFinish _ => .next (request_kept h restoreFinish_kept)
  | .editPeerTimeout => .next (editPeerTimeout_kept h)
  | .heartbeatSend => .next (heartbeatSend_kept h)
  | .syncHelloSend => .next (syncHelloSend_kept h)
  | .syncHello _ => .next (syncRx_kept h syncHello_kept)
  | .heartbeat _ => .next (syncRx_kept h heartbeat_kept)
  | .lapstart _ => .next (lapstart_kept h)
  | .hash _ => .next (syncRx_kept h hashHeard_kept)
  | .stateFrame _ => .next (syncRx_kept h stateHeard_kept)
  | .resync _ => .next (controlRx_kept h (fun h => .ite (pacerResync_kept h) h))
  | .resyncFailed => .next (resyncFailed_kept h)
  | .withdraw _ => .next (controlRx_kept h (fun h => withdrawn_kept h))
  | .leave _ => .next (controlRx_kept h (fun h => leaveHeard_kept h))
  | .yield _ => .next (controlRx_kept h (fun h => yieldHeard_kept h))
  | .editFwd _ => .next (controlRx_kept h editFwd_kept)
  | .editResult _ => .next (controlRx_kept h (fun h => editResult_kept h))
  | .editCmdTrialStart _ => .next (editCmdRx_kept h (fun h => peerTrialStart_kept h))
  | .editCmdTrialAbort _ => .next (editCmdRx_kept h (fun h => .ite (abortTrial_kept h) h))
  | .editCmdDiscard _ => .next (editCmdRx_kept h (fun h => peerDiscard_kept h))
  | .editCmdReport _ => .next (editCmdRx_kept h (fun h => peerReport_kept h))
  | .editReport _ => .next (controlRx_kept h editReport_kept)
  | .pairRefused _ => .next (controlRx_kept h (fun h => h.set))
  | .syncSilence => .next (syncSilence_kept h)
  | .pxProbeSend => .next (pxProbeSend_kept h)
  | .probeWindowEnd => .next (probeWindowEnd_kept h)
  | .pairingWindowEnd => .next (pairingWindowEnd_kept h)
  | .switchOffTest _ _ _ => .next (switchOffTest_kept h)
  | .spairStuckOn _ => .next (spairStuck_kept h)
  | .halfCycleEnd _ _ _ _ _ => .next (halfCycleEnd_kept h)
  | .recordTrigger _ _ => .next (recordTrigger_kept h)
  | .swTrigWrite _ => .next (writeAccess_kept h)
  | .periodicTrigger => .next (raiseTrigger_kept h)
  | .recordStored _ _ => .next (recordStored_kept h)
  | .meterTick _ => .next (meterTick_kept h)
  | .meterSnapshot => .next (whenever_kept h takeSnapshot_kept)
  | .lbFrameReceived _ _ => .next (lbFrame_kept h)
  | .lbError _ _ _ _ => .next (lbError_kept h)
  | .fdFrameSeen _ => .next (whenever_kept h modLb_kept)
  | .lbRecoveryDone _ => .next (recoveryDone_kept h)
  | .lbTransmit _ _ => .next (lbTransmit_kept h)
  | .lImageCut => .next (lImageCut_kept h)
  | .tmCycleBoundary _ _ _ => .next (tmBoundary_kept h)
  | .beaconStatus _ _ _ _ => .next (beaconStatus_kept h)
  | .nodeMissing _ _ => .next (nodeMissing_kept h)
  | .beaconScheduler _ => .next (beaconScheduler_kept h)
  | .testReport _ _ _ => .next (testReport_kept h)
  | .testNoReport _ _ => .next (testNoReport_kept h)
  | .beaconVote _ _ _ => .next (beaconVote_kept h)
  | .voteTimeout _ => .next (voteTimeout_kept h)
  | .settleWindowEnd _ => .next (settleEnd_kept h)
  | .wakeRequest _ => .next (wakeRequest_kept h)
  | .timedWake _ => .next (timedWake_kept h)
  | .wakeSlotEnd _ _ => .next (wakeSlotEnd_kept h)
  | .bbFrameReceived _ _ _ _ _ => .next (bbFrame_kept h)
  | .cpuPortTransmit _ => .next (cpuTransmit_kept h)
  | .macAging => .next (whenever_kept h macAging_kept)
  | .linkDown _ => .next (linkDown_kept h)
  | .linkUp _ _ _ _ => .next (linkUp_kept h)
  | .scrub _ => .next (.ite (scrub_kept h) (applyUpsets_kept h))
  | .topologyChange => .next (topologyChange_kept h)
  | .ringOpen _ => .next (ringOpen_kept h)
  | .ringClosed => .next (ringClosed_kept h)
  | .dmaStart _ => .next (.ite (writeAccess_kept h) (laneLock_kept h dmaStart_kept))
  | .dmaDone => .next (whenever_kept h dmaDone_kept)
  | .tblLockTake _ => .next (.ite (writeAccess_kept h) (laneLock_kept h lockTake_kept))
  | .tblLockRelease _ => .next (.ite (writeAccess_kept h) (laneLock_kept h lockRelease_kept))
  | .lockTimeout => .next (whenever_kept h lockTimeout_kept)
  | .pxHelloSend => .next (pxHelloSend_kept h)
  | .pxHello _ _ => .next (pxRx_kept h pxHello_kept)
  | .pxJoin _ _ => .next (pxRx_kept h pxJoin_kept)
  | .pxImage _ _ => .next (pxRx_kept h pxImage_kept)
  | .pxRequest _ _ => .next (pxRx_kept h pxRequest_kept)
  | .pxTime _ _ => .next (pxRx_kept h pxTime_kept)
  | .pxTimeSend => .next (pxTimeSend_kept h)
  | .pxMemberAbsent _ => .next (memberAbsent_kept h)
  | .pxSourceUnblock _ => .next (sourceUnblock_kept h)
  | .haltPublish => .next (haltPublish_kept h)
  | .mbConnect _ => .next (mbConnect_kept h)
  | .mbIdleClose _ => .next (mbIdleClose_kept h)
  | .readCoils _ _ => .next (mbRequest_kept h readCoilsFn_kept)
  | .readDiscreteInputs _ _ => .next (mbRequest_kept h readDiscreteFn_kept)
  | .readHoldingRegisters _ _ => .next (mbRequest_kept h readHoldingFn_kept)
  | .readInputRegisters _ _ => .next (mbRequest_kept h readInputFn_kept)
  | .writeSingleCoil _ _ => .next (mbRequest_kept h writeCoilFn_kept)
  | .writeSingleRegister _ _ => .next (mbRequest_kept h writeRegisterFn_kept)
  | .writeMultipleCoils _ _ => .next (mbRequest_kept h writeCoilsFn_kept)
  | .writeMultipleRegisters _ _ => .next (mbRequest_kept h writeRegistersFn_kept)
  | .readWriteRegisters _ _ => .next (mbRequest_kept h readWriteFn_kept)
  | .domainFault _ _ _ => .next (domainFault_kept h)
  | .domainNotUp _ _ => .next (domainNotUp_kept h)
  | .tempWarning _ _ => .next (whenever_kept h tempWarning_kept)
  | .tempNormal _ _ => .next (.ite (tempNormal_kept h) (tempCool_kept h))
  | .tempShutdown _ _ => .next (whenever_kept h tempShutdown_kept)
  | .laneKick _ _ => .next (laneKick_kept h)
  | .laneFault _ _ _ => .next (laneFault_kept h)
  | .svcFrameTimeout => .next (svcFrameTimeout_kept h)
  | .svcIdleClose => .next (closeSvc_kept h)
  | .svcVbusLost => .next (Kept.set (closeSvc_kept h))
  | .sjRecordWrite _ _ => .next (whenever_kept h sjRecordWrite_kept)
  | .trRecordWrite => .next (whenever_kept h trRecordWrite_kept)
  | .optSave => .next (whenever_kept h (fun h => h.set))
  | .timeAnchor => .next (whenever_kept h timeAnchor_kept)
  | .crcFrameJob _ _ _ _ => .next (whenever_kept h crcFrameJob_kept)
  | .crcScanStart => .next (whenever_kept h crcScanStart_kept)
  | .crcScanDone => .next (whenever_kept h crcScanDone_kept)
  | .rtcSecond => .next (rtcSecond_kept h)
  | .oscillatorStop => .next (setOsf_kept h)
  | .batMeasure _ => .next (batMeasure_kept h)
  | .keyPress _ => .next (keyPress_kept h)
  | .keyRelease _ => .next (keyRelease_kept h)
  | .keyStuck _ => .next (keyStuck_kept h)
  | .encoderStep _ => .next (encoderStep_kept h)
  | .panelInactivityLock => .next (inactivityLock_kept h)
  | .hurdleTimeout => .next (hurdleTimeout_kept h)
  | .svcHeldKeys => .next (svcHeldKeys_kept h)
  | .aiOverRange _ _ => .next (aiOverRange_kept h)
  | .spairStuckCleared _ => .next (spairFree_kept h)
  | .syncSignalLost => .next (whenever_kept h syncSignal_kept)
  | .syncSignalLocked => .next (whenever_kept h syncSignal_kept)
  | .trBlockErased => .next (whenever_kept h trBlockErased_kept)
  | .trigOutRelease => .next (fieldCommand_kept h trigOutRelease_kept)
  | .arpMessage _ _ _ _ _ => .next (arpMessage_kept h)
  | .icmpEcho _ _ _ _ _ => .next (icmpEcho_kept h)

end
end Sys2Proof.Machine

section
open Sys2Proof Sys2Proof.Machine

/-- Settles O5: `exec_answers` says of each command where it goes, and that it keeps the queue. -/
theorem commandsStopOnlyAtRejectedWords : Obligations.CommandsStopOnlyAtRejectedWords := by
  intro c s
  refine ⟨fun hfree => ?_, (exec_answers c s).refuses⟩
  obtain ⟨t, hexec, hkept⟩ := (exec_answers c s).goes hfree
  exact ⟨t, hexec, hkept.pending⟩

/-- Settles O3: an empty queue lets time pass (`tick_kept`); a command at the front that comes to a next state was not
refused, and each that is not keeps the stores canonical (`exec_answers`). -/
theorem everyStepKeepsTheStoresCanonical : Obligations.EveryStepKeepsTheStoresCanonical := by
  intro s t hwf hstep
  unfold step at hstep
  split at hstep
  · cases hstep
    exact (tick_kept (.refl s)).wf hwf
  · rename_i c rest _
    have hanswers := exec_answers c { s with pending := rest }
    by_cases hfree : executing { s with pending := rest } = false ∨ Safety.rejected { s with pending := rest } c = none
    · obtain ⟨u, hexec, hkept⟩ := hanswers.goes hfree
      rw [hexec] at hstep
      cases hstep
      exact hkept.wf hwf
    · rw [not_or, Bool.not_eq_false] at hfree
      obtain ⟨hexec, hbad⟩ := hfree
      obtain ⟨mn, hmn⟩ := Option.ne_none_iff_exists'.mp hbad
      rw [hanswers.refuses mn hexec hmn] at hstep
      exact nomatch hstep

end
end

section
/-! SUPPORT. Instructions in the executing program (R153 to R157, R170, R174 to R187): what `checked`, `runSeq` and `runCtl` do with
an instruction that the verifier has passed, with one that it rejects, and outside execution; then the bit path's loads, nests and
flags, and the word path's loads, accumulator and comparisons. -/

namespace Sys2Proof.Machine

section
variable {s : State}

set_option Elab.async false

/-! ### The reset state and the queue -/

/-- Settles O1. -/
theorem stepRunsTheFrontCommand : Obligations.StepRunsTheFrontCommand := by
  intro c rest s hpending
  rw [step, hpending]

/-- Settles O4: the reset state lists no byte of any store. -/
theorem resetHasCanonicalStores : Obligations.ResetHasCanonicalStores := by
  unfold Obligations.ResetHasCanonicalStores Safety.storesWf
  decide

/-! ### Words that the verifier rejects, and words outside execution -/

theorem exec_of_rejected {c : Instr} {mn : String} (h : executing s = true) (hc : Safety.rejected s c = some mn) :
    exec c s = .refused (.verifierRejects mn) := (exec_answers c s).refuses mn h hc

theorem runSeq_of_idle (h : executing s = false) (count : State → State) (n : Nat) (f : State → Lapped) :
    runSeq count n f s = .next s := by
  rw [runSeq, h]
  rfl

theorem runReg_of_idle (h : executing s = false) (f : State → State) : runReg f s = .next s := runSeq_of_idle h ..

theorem runCtl_of_idle (h : executing s = false) (count : State → State) (f : State → Lapped) : runCtl count f s = .next s := by
  rw [runCtl, h]
  rfl

theorem checked_of_idle (h : executing s = false) (mn : String) (ok : State → Bool) (run : State → Result) :
    checked mn ok run s = run s := by
  rw [checked, h]
  rfl

/-- Settles O30: the names are those of `Safety.rejected`, under which `exec_answers` has each word refused; outside execution
`runSeq` and `runCtl`, of which each listed instruction is one, leave the state. -/
theorem rejectedOperandsAreRefused : Obligations.RejectedOperandsAreRefused := by
  intro a i n s
  refine ⟨fun h => ⟨fun hbad => ?reads, fun hbad => ?writes, fun hbad => ?cells, fun hbad => ?jumps, fun hbad => ?indexed,
    fun hbad => ?loads32, fun hbad => ?loads16, fun hbad => ?stores32, fun hbad => ?stores16, fun hbad => ?calls,
    fun hbad => ?blocks⟩, fun h => ?idle⟩
  case reads =>
    have hok : (readable a && decide (i.toNat < areaBits s a)) = false := Bool.and_eq_false_iff.2 (hbad.imp_right fun h => decide_eq_false (not_lt_of_ge h))
    have hname : ∀ p ∈ [(Instr.ld a i, "LD"), (.ldn a i, "LDN"), (.bitAnd a i, "AND"),
          (.bitAndn a i, "ANDN"), (.bitOr a i, "OR"), (.bitOrn a i, "ORN"), (.bitXor a i, "XOR"), (.bitXorn a i, "XORN"),
          (.openAnd a i, "OPEN_AND"), (.openAndn a i, "OPEN_ANDN"), (.openOr a i, "OPEN_OR"), (.openOrn a i, "OPEN_ORN"),
          (.openXor a i, "OPEN_XOR"), (.openXorn a i, "OPEN_XORN")], Safety.rejected s p.1 = some p.2 := by
      simp only [Safety.rejected, hok, List.forall_mem_cons]
      simp
    exact fun p hp => exec_of_rejected h (hname p hp)
  case writes =>
    have hok : (writable a && decide (i.toNat < areaBits s a)) = false := Bool.and_eq_false_iff.2 (hbad.imp_right fun h => decide_eq_false (not_lt_of_ge h))
    have hname : ∀ p ∈ [(Instr.st a i, "ST"), (.bitSet a i, "SET"), (.rst a i, "RST")], Safety.rejected s p.1 = some p.2 := by
      simp only [Safety.rejected, hok, List.forall_mem_cons]
      simp
    exact fun p hp => exec_of_rejected h (hname p hp)
  case cells =>
    have hok : decide (i.toNat < 16384) = false := by simpa using hbad
    exact ⟨exec_of_rejected h (by simp [Safety.rejected, hok]), exec_of_rejected h (by simp [Safety.rejected, hok])⟩
  case jumps =>
    have hname : ∀ p ∈ [(Instr.jmp i, "JMP"), (.jmpc i, "JMPC"), (.jmpcn i, "JMPCN")], Safety.rejected s p.1 = some p.2 := by
      simp [Safety.rejected, hbad]
    exact fun p hp => exec_of_rejected h (hname p hp)
  case indexed =>
    have hname : ∀ p ∈ [(Instr.ldi a i, "LDI"), (.sti a i, "STI"), (.lx32 a i, "LX32"), (.lx16 a i, "LX16"),
        (.sx32 a i, "SX32"), (.sx16 a i, "SX16")], Safety.rejected s p.1 = some p.2 := by
      simp [Safety.rejected, hbad]
    exact fun p hp => exec_of_rejected h (hname p hp)
  case loads32 =>
    have hok : (readable a && elemFits s a 32 i.toNat) = false := Bool.and_eq_false_iff.2 hbad
    exact ⟨exec_of_rejected h (by simp [Safety.rejected, hok]), exec_of_rejected h (by simp [Safety.rejected, hok])⟩
  case loads16 =>
    have hok : (readable a && elemFits s a 16 i.toNat) = false := Bool.and_eq_false_iff.2 hbad
    exact ⟨exec_of_rejected h (by simp [Safety.rejected, hok]), exec_of_rejected h (by simp [Safety.rejected, hok])⟩
  case stores32 =>
    have hok : (writable a && elemFits s a 32 i.toNat) = false := Bool.and_eq_false_iff.2 hbad
    exact ⟨exec_of_rejected h (by simp [Safety.rejected, hok]), exec_of_rejected h (by simp [Safety.rejected, hok])⟩
  case stores16 =>
    have hok : (writable a && elemFits s a 16 i.toNat) = false := Bool.and_eq_false_iff.2 hbad
    exact exec_of_rejected h (by simp [Safety.rejected, hok])
  case calls => exact exec_of_rejected h (by simp [Safety.rejected, hbad])
  case blocks => exact exec_of_rejected h (by simp [Safety.rejected, hbad])
  case idle =>
    have hseq := runSeq_of_idle h
    have hctl := runCtl_of_idle h
    have hchecked := checked_of_idle h
    simp only [List.forall_mem_cons]
    have hboth (mn : String) (ok : State → Bool) (count : State → State) (k : Nat) (f : State → Lapped) :
        checked mn ok (runSeq count k f) s = .next s := (hchecked ..).trans (hseq ..)
    have hreg := runReg_of_idle h
    have hadd : execAdd s = .next s := by rw [execAdd, runBin, hreg]
    have hdiv : execDiv s = .next s := by rw [execDiv, runDiv, hseq]
    have hlt : execLt s = .next s := by rw [execLt, runCmp, hreg]
    have haddr : execAddr s = .next s := by rw [execAddr, runBinR, hreg]
    have hmacx : execMacx s = .next s := by rw [execMacx, runAcx, hreg]
    exact ⟨(hseq .. : execNop s = _), (hboth .. : execLd a i s = _), (hboth .. : execSt a i s = _), (hseq .. : execClose s = _),
      ((hchecked ..).trans (hctl ..) : execJmp i s = _), (hboth .. : execLdi a i s = _), (hboth .. : execL32 a i s = _),
      (hboth .. : execSt32 a i s = _), hadd, hdiv, hlt, haddr, hmacx, ((hchecked ..).trans (hctl ..) : execCall i s = _),
      (hboth .. : execCallsb n s = _), (hctl .. : execRet s = _), (hseq .. : execTon s = _), (hseq .. : execRaise s = _),
      (hseq .. : execLbSend s = _), fun _ hc => absurd hc List.not_mem_nil⟩

end
end Sys2Proof.Machine
end

section
namespace Sys2Proof.Safety

open Sys2Proof.Machine

/-- A record that a sj writes on the way from `s` to `t` is among those that wait to be written in `t` and did not in `s`. -/
theorem journals_of_sj {code sev : Nat} {items : Bytes} {s u t : State} (hfrom : s.log.sjQueue <+: u.log.sjQueue)
    (hto : (sj code sev items u).log.sjQueue <+: t.log.sjQueue) (hop : opMs u = opMs s := by rfl)
    (hcycles : u.power.pwrCycles = s.power.pwrCycles := by rfl) : journals code sev items s t := by
  obtain ⟨before, hbefore⟩ := hfrom
  obtain ⟨after, hafter⟩ := (sj_queue code sev items u).trans hto
  refine ⟨recordOf code sev items 0 u, ?_, rfl, rfl, rfl, hop, hcycles⟩
  rw [← hafter, ← hbefore]
  simp

end Sys2Proof.Safety
namespace Sys2Proof.Machine

/-- Settles O17: outside OFF the operating time is saved, and an anchor that is due is a journal record. -/
theorem operatingTimeIsSavedAndAnchored : Obligations.OperatingTimeIsSavedAndAnchored := by
  intro s
  refine ⟨fun hon => ?save, fun hawake hosf hlbv hdue => ?anchor, fun _ hflags => ?untrusted⟩
  case save =>
    have hpowered : powered s = true := decide_eq_true hon
    change Host.Outcome.next (whenever (powered s) _ s) = _
    rw [hpowered]
    rfl
  case anchor =>
    have hdo : (awake s && rtcTrusted s && decide (s.clk.anchorMs + 86400000 ≤ opMs s)) = true := by
      simp [hawake, rtcTrusted, hosf, hlbv, hdue]
    have hitems : timeBytes s.rtc.time ++ leBytes 2 (subsec s) ++ leBytes 1 (b2n s.rtc.osf + 2 * b2n s.rtc.lbv) ++
        leBytes 1 2 ++ leBytes 8 s.clk.opUs = timeBytes s.rtc.time ++ leBytes 2 (subsec s) ++ [0, 2] ++ leBytes 8 s.clk.opUs := by
      have hflags : leBytes 1 (b2n s.rtc.osf + 2 * b2n s.rtc.lbv) ++ leBytes 1 2 = [0, 2] := by rw [hosf, hlbv]; rfl
      rw [List.append_assoc (timeBytes s.rtc.time ++ leBytes 2 (subsec s)), hflags]
    have hjournals := Safety.journals_of_sj (code := 0x101) (sev := 0)
      (items := timeBytes s.rtc.time ++ leBytes 2 (subsec s) ++ [0, 2] ++ leBytes 8 s.clk.opUs) (s := s)
      (u := { s with clk := { s.clk with anchorMs := opMs s } }) List.prefix_rfl List.prefix_rfl
    refine ⟨_, ?_, Safety.sj_booked 0x101 0 _ _, hjournals⟩
    change Host.Outcome.next (whenever _ (timeAnchor 2) s) = _
    rw [hdo, ← hitems]
    rfl
  case untrusted =>
    have hskip : (awake s && rtcTrusted s && decide (s.clk.anchorMs + 86400000 ≤ opMs s)) = false := by
      rcases hflags with h | h <;> simp [rtcTrusted, h]
    change Host.Outcome.next (whenever _ (timeAnchor 2) s) = _
    rw [hskip]
    rfl

/-- Settles O6: each value is read off the reset state. -/
theorem resetLeavesTheStatedValues : Obligations.ResetLeavesTheStatedValues := by
  unfold Obligations.ResetLeavesTheStatedValues
  decide +kernel

end Sys2Proof.Machine
end

section
/-! SUPPORT. Instructions whose operands pass the verifier: how a bit-path or word-path instruction ends, and what the loads, nests,
comparisons and the accumulator give (R144, R153 to R157, R170, R174 to R178, R183, R186, R187). -/

namespace Sys2Proof.Machine

section
variable {s : State}

set_option Elab.async false

/-! ### The end of an instruction -/

theorem checked_of_ok {mn : String} {ok : State → Bool} (hok : ok s = true) (run : State → Result) :
    checked mn ok run s = run s := by
  rw [checked, hok, Bool.not_true, Bool.and_false]
  exact if_neg Bool.false_ne_true

theorem runCtl_of_executing (h : executing s = true) (count : State → State) (f : State → Lapped) :
    runCtl count f s = .next (settled (f (count s))) := by
  rw [runCtl, if_pos h]

/-- A bit-path instruction that leaves the Bit Unit at `b` but for its counts. -/
theorem advance_noteSeen_eq_bitDone (b : Bu) (s : State) :
    advance 1 (noteSeen { s with bu := { b with instr := s.bu.instr + 1, curBits := satInc s.bu.curBits } }) =
      Safety.bitDone b s := by
  rw [advance, noteSeen, Safety.bitDone]

theorem runSeq_countBit_done (h : executing s = true) (b : Bu) {f : State → Lapped}
    (hf : f (countBit s) = .ok { s with bu := { b with instr := s.bu.instr + 1, curBits := satInc s.bu.curBits } }) :
    runSeq countBit 1 f s = .next (Safety.bitDone b s) := by
  rw [runSeq_of_executing h, hf, ← advance_noteSeen_eq_bitDone]
  rfl

theorem runSeq_countWord_done (h : executing s = true) (n : Nat) (b : Bx) {f : State → Lapped}
    (hf : f (countWord s) = .ok { s with bx := { b with
      words := s.bx.words + 1, curWords := satInc s.bx.curWords, pos := s.bx.pos, seen := s.bx.seen } }) :
    runSeq countWord n f s = .next (Safety.wordDone n b s) := by
  rw [runSeq_of_executing h, hf, ← advance_noteSeen_eq_wordDone]
  rfl

theorem runReg_done (h : executing s = true) {f : State → State} (b : Bx) (u : Bu)
    (hf : f (countWord s) = { s with bu := u, bx := { b with
      words := s.bx.words + 1, curWords := satInc s.bx.curWords, pos := s.bx.pos, seen := s.bx.seen } }) :
    runReg f s = .next (Safety.wordDone 1 b { s with bu := u }) := by
  rw [runReg_of_executing h, hf]
  exact congrArg Host.Outcome.next (advance_noteSeen_eq_wordDone 1 b { s with bu := u })

/-! ### Bits with good parity, combined and nested -/

theorem fetchBit_of_parity {a : Area} {i : Nat} (h : s.bu.badParity.contains (a, i / 32) = false) :
    fetchBit a i s = .ok (bitRead s a i) := by
  rw [fetchBit, h, Bool.and_false]
  rfl

theorem fetchElem_of_parity {w : Nat} {a : Area} {e : Nat} (h : s.bu.badParity.contains (a, e * w / 32) = false) :
    fetchElem w a e s = .ok (elemRead s a w e) := by
  rw [fetchElem, h, Bool.and_false]
  rfl

section
variable {a : Area} {i : BitVec 20} (h : executing s = true) (hok : bitReadable a i.toNat s = true)
  (hparity : s.bu.badParity.contains (a, i.toNat / 32) = false)
include h hok hparity

theorem runLd_done (mn : String) (b : Bool → Bool) :
    checked mn (bitReadable a i.toNat) (runSeq countBit 1 fun t => do return setBa (b (← fetchBit a i.toNat t)) t) s =
      .next (Safety.bitDone { s.bu with ba := b (bitRead s a i.toNat), fc := false } s) := by
  have hfetch : fetchBit a i.toNat (countBit s) = .ok (bitRead s a i.toNat) := fetchBit_of_parity hparity
  rw [checked_of_ok hok]
  apply runSeq_countBit_done h
  rw [hfetch]
  rfl

theorem runCombine_done (mn : String) (k : BitVec 3) : runCombine mn k a i s =
    .next (Safety.bitDone { s.bu with ba := combine k (bitRead s a i.toNat) s, fc := false } s) := by
  have hfetch : fetchBit a i.toNat (countBit s) = .ok (bitRead s a i.toNat) := fetchBit_of_parity hparity
  rw [runCombine, checked_of_ok hok]
  apply runSeq_countBit_done h
  rw [combineOp, hfetch]
  rfl

theorem runOpen_done (mn : String) (k : BitVec 3) (hdepth : s.bu.stack.length < 16) : runOpen mn k a i s =
    .next (Safety.bitDone { s.bu with
      ba := bitRead s a i.toNat, fc := false, stack := { ba := s.bu.ba, fc := s.bu.fc, op := k } :: s.bu.stack
      maxDepth := BitVec.ofNat 5 (max s.bu.maxDepth.toNat (s.bu.stack.length + 1)) } s) := by
  have hfetch : fetchBit a i.toNat (countBit s) = .ok (bitRead s a i.toNat) := fetchBit_of_parity hparity
  have hroom : ¬ (countBit s).bu.stack.length ≥ 16 := not_le_of_gt hdepth
  rw [runOpen, checked_of_ok hok]
  apply runSeq_countBit_done h
  rw [openOp, hfetch]
  exact if_neg hroom

end

theorem closeOp_of_stack {e : BranchEntry} {es : List BranchEntry} (hstack : s.bu.stack = e :: es) :
    closeOp s = .ok (setBa (combine e.op s.bu.ba { s with bu := { s.bu with stack := es, ba := e.ba, fc := e.fc } })
      { s with bu := { s.bu with stack := es, ba := e.ba, fc := e.fc } }) := by
  rw [closeOp, hstack]

/-- Settles O27: each load is `runLd_done`, `runCombine_done` or `runOpen_done` of its operation. -/
theorem loadsCombineAndNest : Obligations.LoadsCombineAndNest := by
  intro a i s h v op nest
  refine ⟨fun hread hfits hparity => ?loads, fun e es hstack => ?close, ?nop, ?not, ?set, ?clear⟩
  case loads =>
    have hok : bitReadable a i.toNat s = true := by simp [bitReadable, hread, hfits]
    have hcombine := runCombine_done h hok hparity
    have hopen := runOpen_done h hok hparity
    exact ⟨runLd_done h hok hparity "LD" id, runLd_done h hok hparity "LDN" not, hcombine "AND" 0, hcombine "ANDN" 1,
      hcombine "OR" 2, hcombine "ORN" 3, hcombine "XOR" 4, hcombine "XORN" 5, fun hdepth => ⟨hopen "OPEN_AND" 0 hdepth,
        hopen "OPEN_ANDN" 1 hdepth, hopen "OPEN_OR" 2 hdepth, hopen "OPEN_ORN" 3 hdepth, hopen "OPEN_XOR" 4 hdepth,
        hopen "OPEN_XORN" 5 hdepth⟩⟩
  case close =>
    intro x
    exact runSeq_countBit_done h _ (closeOp_of_stack (s := countBit s) hstack)
  case nop => exact (runSeq_countBit_done h s.bu rfl : execNop s = _)
  case not => exact (runSeq_countBit_done h { s.bu with ba := !s.bu.ba, fc := false } rfl : execBitNot s = _)
  case set => exact (runSeq_countBit_done h { s.bu with ba := true, fc := false } rfl : execSetba s = _)
  case clear => exact (runSeq_countBit_done h { s.bu with ba := false, fc := false } rfl : execClrba s = _)

/-! ### The word path's loads -/

section
variable {a : Area} {i : BitVec 20} {w : Nat}

theorem runLoad_done (h : executing s = true) (mn : String) {put : Word → State → State} (hok : elemReadable w a i.toNat s = true)
    (hparity : s.bu.badParity.contains (a, i.toNat * w / 32) = false) (b : Bx)
    (hput : put (loaded w (elemRead s a w i.toNat)) (countWord s) = { s with bx := { b with
      words := s.bx.words + 1, curWords := satInc s.bx.curWords, pos := s.bx.pos, seen := s.bx.seen } }) :
    runLoad mn w put a i s = .next (Safety.wordDone 1 b s) := by
  have hfetch : fetchElem w a i.toNat (countWord s) = .ok (elemRead s a w i.toNat) := fetchElem_of_parity hparity
  rw [runLoad, checked_of_ok hok]
  apply runSeq_countWord_done h
  rw [hfetch]
  exact congrArg Except.ok hput

theorem runLoadX_done (h : executing s = true) (mn : String) (hread : readable a = true)
    (hfits : elemFits s a w (i.toNat + s.bx.acc1.toNat) = true)
    (hparity : s.bu.badParity.contains (a, (i.toNat + s.bx.acc1.toNat) * w / 32) = false) :
    runLoadX mn w a i s =
      .next (Safety.wordDone 1 { s.bx with acc1 := loaded w (elemRead s a w (i.toNat + s.bx.acc1.toNat)) } s) := by
  have hfetch : fetchElem w a (indexAt i (countWord s).bx.acc1) (countWord s) =
      .ok (elemRead s a w (i.toNat + s.bx.acc1.toNat)) := fetchElem_of_parity hparity
  have hfits' : elemFits (countWord s) a w (indexAt i (countWord s).bx.acc1) = true := hfits
  rw [runLoadX, checked_of_ok hread]
  apply runSeq_countWord_done h
  dsimp only
  rw [if_pos hfits', hfetch]
  rfl

end

/-- Settles O31: the loads of elements are `runLoad_done` and `runLoadX_done`, the others one register write. -/
theorem wordLoadsReachTheirElements : Obligations.WordLoadsReachTheirElements := by
  intro a i imm hi lit s h ok at32 at16 x acc1 acc2
  refine ⟨fun ⟨hread, hfits, hparity⟩ => ?wide, fun ⟨hread, hfits, hparity⟩ => ?narrow,
    fun ⟨hread, hfits, hparity⟩ => runLoadX_done h "LX32" hread hfits hparity,
    fun ⟨hread, hfits, hparity⟩ => runLoadX_done h "LX16" hread hfits hparity, ?li, ?lio, ?lih, ?lk, ?swap, ?dup⟩
  case wide =>
    have hok : elemReadable 32 a i.toNat s = true := by rw [elemReadable, hread, hfits]; rfl
    exact ⟨runLoad_done h "L32" hok hparity { s.bx with acc1 := at32 i.toNat } rfl,
      runLoad_done h "LO32" hok hparity { s.bx with acc2 := at32 i.toNat } rfl⟩
  case narrow =>
    have hok : elemReadable 16 a i.toNat s = true := by rw [elemReadable, hread, hfits]; rfl
    exact ⟨runLoad_done h "L16" hok hparity { s.bx with acc1 := at16 i.toNat } rfl,
      runLoad_done h "LO16" hok hparity { s.bx with acc2 := at16 i.toNat } rfl⟩
  case li => exact (runReg_done h { s.bx with acc1 := imm.signExtend 32 } s.bu rfl : execLi imm s = _)
  case lio => exact (runReg_done h { s.bx with acc2 := imm.signExtend 32 } s.bu rfl : execLio imm s = _)
  case lih => exact (runReg_done h { s.bx with acc1 := hi ++ s.bx.acc1.setWidth 16 } s.bu rfl : execLih hi s = _)
  case lk => exact (runSeq_countWord_done h 2 { s.bx with acc1 := lit } rfl : execLk lit s = _)
  case swap => exact (runReg_done h { s.bx with acc1 := s.bx.acc2, acc2 := s.bx.acc1 } s.bu rfl : execSwap s = _)
  case dup => exact (runReg_done h { s.bx with acc2 := s.bx.acc1 } s.bu rfl : execDup s = _)

/-! ### The accumulator and the flags -/

/-- A sum within 40 bits is ACX; one beyond is clamped to the largest magnitude and sets the guard. -/
theorem acxSum_eq (x : BitVec 40) (addend : Int) :
    acxSum x addend =
      if 549755813887 < x.toInt + addend then (549755813887, true)
      else if x.toInt + addend < -549755813888 then (BitVec.ofInt 40 (-549755813887), true)
      else (BitVec.ofInt 40 (x.toInt + addend), false) := by
  rw [acxSum]
  split_ifs <;> first | rfl | omega

theorem runAcx_done (h : executing s = true) (addend : State → Int) (hcount : addend (countWord s) = addend s) :
    runAcx addend s = .next (Safety.wordDone 1
      (if s.bx.gov then s.bx
        else if 549755813887 < s.bx.acx.toInt + addend s then { s.bx with acx := 549755813887, gov := true }
        else if s.bx.acx.toInt + addend s < -549755813888 then { s.bx with acx := BitVec.ofInt 40 (-549755813887), gov := true }
        else { s.bx with acx := BitVec.ofInt 40 (s.bx.acx.toInt + addend s), gov := false }) s) := by
  rw [runAcx]
  refine runReg_done h _ s.bu ?_
  have hgov : (countWord s).bx.gov = s.bx.gov := rfl
  have hacx : (countWord s).bx.acx = s.bx.acx := rfl
  rw [hgov, hacx, hcount, acxSum_eq]
  split_ifs <;> rfl

/-- A shift by 40 or more leaves nothing but the sign. -/
theorem acxSar_eq (x : BitVec 40) (c : Nat) : acxSar x c = x.sshiftRight (min 39 c) := by
  rw [acxSar]
  split_ifs with hlong hneg
  · rw [min_eq_left (by omega)]
    apply BitVec.eq_of_getLsbD_eq
    intro k hk
    rw [BitVec.getLsbD_sshiftRight, BitVec.getLsbD_allOnes]
    have hmsb : x.msb = true := by rw [BitVec.msb_eq_getLsbD_last]; exact hneg
    by_cases hzero : 39 + k < 40
    · obtain rfl : k = 0 := by omega
      simpa using hneg
    · simp [hk, hzero, hmsb]
  · rw [min_eq_left (by omega)]
    apply BitVec.eq_of_getLsbD_eq
    intro k hk
    rw [BitVec.getLsbD_sshiftRight]
    have hmsb : x.msb = false := by rw [BitVec.msb_eq_getLsbD_last]; exact Bool.eq_false_of_not_eq_true hneg
    by_cases hzero : 39 + k < 40
    · obtain rfl : k = 0 := by omega
      simpa using hneg
    · simp [hzero, hmsb]
  · rw [min_eq_right (by omega)]

/-- The eight flags in the order of R177. -/
def flagList (b : Bx) : List Bool := [b.z, b.n, b.c, b.v, b.vs, b.dz, b.gov, b.fe]

theorem getLsbD_of_eight_bits : ∀ (z n c v vs dz gov fe : Bool) (k : Fin 8),
    (BitVec.ofNat 8 (b2n z + 2 * b2n n + 4 * b2n c + 8 * b2n v + 16 * b2n vs + 32 * b2n dz + 64 * b2n gov + 128 * b2n fe)).getLsbD
      k = (([z, n, c, v, vs, dz, gov, fe])[k.val]?).getD false := by
  decide +kernel

theorem flagWord_getLsbD (b : Bx) (k : Nat) : (flagWord b).getLsbD k = ((flagList b)[k]?).getD false := by
  by_cases hk : k < 8
  · exact getLsbD_of_eight_bits b.z b.n b.c b.v b.vs b.dz b.gov b.fe ⟨k, hk⟩
  · rw [BitVec.getLsbD_of_ge _ _ (by omega), List.getElem?_eq_none (by simp [flagList]; omega)]
    rfl

/-- Settles O36. -/
theorem accumulatorAndFlags : Obligations.AccumulatorAndFlags := by
  intro bit s h x flags sum
  refine ⟨?clrx, ?addx, ?macx, ?sarx, ?clrf, ⟨(flagWord s.bx).setWidth 32, ?ldf, ?bits, ?small⟩, ?tstf⟩
  case clrx => exact (runReg_done h { s.bx with acx := 0, gov := false } s.bu rfl : execClrx s = _)
  case addx => exact runAcx_done h (fun t => t.bx.acc1.toInt) rfl
  case macx => exact runAcx_done h (fun t => (t.bx.acc1.setWidth 16).toInt * (t.bx.acc2.setWidth 16).toInt) rfl
  case sarx =>
    refine (runReg_done h _ s.bu ?_ : execSarx s = _)
    have hgov : (countWord s).bx.gov = s.bx.gov := rfl
    rw [acxSar_eq, hgov]
    split_ifs <;> rfl
  case clrf => exact (runReg_done h { s.bx with vs := false, dz := false, fe := false } s.bu rfl : execClrf s = _)
  case ldf => exact (runReg_done h { s.bx with acc1 := (flagWord s.bx).setWidth 32 } s.bu rfl : execLdf s = _)
  case bits =>
    intro k hk
    rw [BitVec.getLsbD_setWidth, flagWord_getLsbD]
    simp only [show k < 32 by omega, decide_true, Bool.true_and]
    rfl
  case small =>
    rw [BitVec.toNat_setWidth]
    have := (flagWord s.bx).isLt
    omega
  case tstf =>
    have hflag : (flagList s.bx)[bit.toNat]?.getD false = (flagWord s.bx).getLsbD bit.toNat := (flagWord_getLsbD ..).symm
    change execTstf bit s = .next (Safety.wordDone 1 s.bx { s with bu := { s.bu with ba := (flagList s.bx)[bit.toNat]?.getD false, fc := false } })
    rw [hflag]
    exact runReg_done h s.bx { s.bu with ba := (flagWord s.bx).getLsbD bit.toNat, fc := false } rfl

/-! ### Comparisons -/

theorem runCmp_done (h : executing s = true) (signed : Bool) (rel : Int → Int → Bool) {ba : Bool}
    (hrel : rel (asInt signed s.bx.acc1) (asInt signed s.bx.acc2) = ba) :
    let r := resSub signed (satMode s) s.bx.acc1 s.bx.acc2
    runCmp signed rel s = .next (Safety.wordDone 1
      { s.bx with z := r.z, n := r.n, c := r.c, v := r.v, vs := s.bx.vs || r.v }
      { s with bu := { s.bu with ba := ba, fc := false } }) := by
  intro r
  subst hrel
  exact runReg_done h { s.bx with z := r.z, n := r.n, c := r.c, v := r.v, vs := s.bx.vs || r.v }
    { s.bu with ba := rel (asInt signed s.bx.acc1) (asInt signed s.bx.acc2), fc := false } rfl

theorem runCmpR_of_some (h : executing s = true) (nan : Bool) (rel : Bool → Bool → Bool) {less equal : Bool}
    (hc : realCmp s.bx.acc1 s.bx.acc2 = some (less, equal)) :
    runCmpR nan rel s = .next (Safety.wordDone 1
      { s.bx with z := equal, n := less, c := false, v := false
                  fe := s.bx.fe || (realSpecial s.bx.acc1 || realSpecial s.bx.acc2) }
      { s with bu := { s.bu with ba := rel less equal, fc := false } }) := by
  have hc' : realCmp (countWord s).bx.acc1 (countWord s).bx.acc2 = some (less, equal) := hc
  have hvs : ((countWord s).bx.vs || false) = s.bx.vs := Bool.or_false _
  rw [runCmpR]
  refine runReg_done h _ _ ?_
  dsimp only
  rw [hc', setFlags, hvs]
  rfl

theorem runCmpR_of_none (h : executing s = true) (nan : Bool) (rel : Bool → Bool → Bool)
    (hc : realCmp s.bx.acc1 s.bx.acc2 = none) :
    runCmpR nan rel s = .next (Safety.wordDone 1
      { s.bx with z := false, n := false, c := false, v := false
                  fe := s.bx.fe || (realSpecial s.bx.acc1 || realSpecial s.bx.acc2) }
      { s with bu := { s.bu with ba := nan, fc := false } }) := by
  have hc' : realCmp (countWord s).bx.acc1 (countWord s).bx.acc2 = none := hc
  have hvs : ((countWord s).bx.vs || false) = s.bx.vs := Bool.or_false _
  rw [runCmpR]
  refine runReg_done h _ _ ?_
  dsimp only
  rw [hc', setFlags, hvs]
  rfl

theorem realCmp_of_nan {a b : Word} (h : realOf a = .nan ∨ realOf b = .nan) : realCmp a b = none := by
  rw [realCmp]
  rcases h with h | h
  · rw [h]
  · rw [h]
    cases realOf a <;> rfl

/-- Settles O34: a comparison is `runCmp_done` of its relation, or `runCmpR_of_some` or `runCmpR_of_none`, by what `realCmp` says. -/
theorem comparisonsGiveBA : Obligations.ComparisonsGiveBA := by
  intro s h a b cmp cmpS cmpU cmpR
  have signed {c : Instr} {rel : Int → Int → Bool} {ba : Bool} (hc : exec c s = runCmp true rel s)
      (hrel : rel a.toInt b.toInt = ba) : cmpS c ba := by
    have hdone := runCmp_done h true rel hrel
    rw [← hc, resSub, fitted_eq_ofInt_clamp, outside_eq] at hdone
    exact hdone
  have unsigned {c : Instr} {rel : Int → Int → Bool} {ba : Bool} (hc : exec c s = runCmp false rel s)
      (hrel : rel a.toNat b.toNat = ba) : cmpU c ba := by
    have hdone := runCmp_done h false rel hrel
    rw [← hc, resSub, fitted_eq_ofInt_clamp, outside_eq] at hdone
    exact hdone
  have heq : decide (a.toInt = b.toInt) = (a == b) := by rw [Bool.beq_eq_decide_eq, decide_eq_decide, BitVec.toInt_inj]
  have hlt (x y : Word) : decide ((x.toNat : Int) < y.toNat) = BitVec.ult x y := by rw [BitVec.ult, decide_eq_decide, Nat.cast_lt]
  have hle (x y : Word) : decide ((x.toNat : Int) ≤ y.toNat) = BitVec.ule x y := by rw [BitVec.ule, decide_eq_decide, Nat.cast_le]
  refine ⟨signed (rel := fun x y => decide (x = y)) rfl heq, signed (rel := fun x y => decide (x ≠ y)) rfl ?ne,
    signed (rel := fun x y => decide (x < y)) rfl rfl, signed (rel := fun x y => decide (x ≤ y)) rfl rfl,
    signed (rel := fun x y => decide (x > y)) rfl rfl, signed (rel := fun x y => decide (x ≥ y)) rfl rfl,
    unsigned (rel := fun x y => decide (x < y)) rfl (hlt a b), unsigned (rel := fun x y => decide (x ≤ y)) rfl (hle a b),
    unsigned (rel := fun x y => decide (x > y)) rfl (hlt b a), unsigned (rel := fun x y => decide (x ≥ y)) rfl (hle b a),
    fun less equal hcmp => ?ordered, fun hnan => ?nan⟩
  case ne => rw [decide_not, heq]; rfl
  case ordered =>
    have real {c : Instr} {nan ba : Bool} {rel : Bool → Bool → Bool} (hc : exec c s = runCmpR nan rel s)
        (hrel : rel less equal = ba) : cmpR c less equal ba := by
      subst hrel
      exact hc.trans (runCmpR_of_some h nan rel hcmp)
    exact ⟨real (nan := false) (rel := fun _ e => e) rfl rfl, real (nan := true) (rel := fun _ e => !e) rfl rfl,
      real (nan := false) (rel := fun l _ => l) rfl rfl, real (nan := false) (rel := fun l e => l || e) rfl rfl,
      real (nan := false) (rel := fun l e => !l && !e) rfl (Bool.not_or ..).symm, real (nan := false) (rel := fun l _ => !l) rfl rfl⟩
  case nan =>
    have real {c : Instr} {nan : Bool} {rel : Bool → Bool → Bool} (hc : exec c s = runCmpR nan rel s) : cmpR c false false nan :=
      hc.trans (runCmpR_of_none h nan rel (realCmp_of_nan hnan))
    refine ⟨?_, real (rel := fun _ e => !e) rfl⟩
    simp only [List.forall_mem_cons]
    exact ⟨real (rel := fun _ e => e) rfl, real (rel := fun l _ => l) rfl, real (rel := fun l e => l || e) rfl,
      real (rel := fun l e => !l && !e) rfl, real (rel := fun l _ => !l) rfl, fun _ hc => absurd hc List.not_mem_nil⟩

/-! ### Calls and returns -/

theorem settle_of_ended {n : Nat} (h : s.bx.ended = true) : settle n s = s := by
  have hidle : executing s = false := by rw [executing, h, Bool.not_true, Bool.and_false]
  cases n with
  | zero => rfl
  | succ n => rw [settle, hidle, if_neg (by simp)]

/-- The flags of a block that ends, in the counted state. -/
theorem blockSticky_noteSeen_countWord (s : State) : blockSticky (noteSeen (countWord s)) =
    { s with bx := { s.bx with
      words := s.bx.words + 1, curWords := satInc s.bx.curWords, seen := s.bx.seen ||| (flagWord s.bx >>> 4).setWidth 4
      curSticky := s.bx.curSticky ||| (flagWord s.bx &&& 0xF0) } } := rfl

/-- A return goes back to where the call was. -/
theorem blockEnds_of_calls {f : Frame} {fs : List Frame} (hcalls : s.bx.calls = f :: fs) :
    blockEnds s = { blockSticky s with
      bx := { (blockSticky s).bx with pos := f, calls := fs, level := s.bx.level - 1 }, bu := { s.bu with fc := true } } := by
  have hcalls' : (blockSticky s).bx.calls = f :: fs := hcalls
  rw [blockEnds]
  dsimp only
  rw [hcalls']
  rfl

theorem blockEnds_of_no_calls (hcalls : s.bx.calls = []) : blockEnds s = nextBlock (blockSticky s) := by
  have hcalls' : (blockSticky s).bx.calls = [] := hcalls
  rw [blockEnds]
  dsimp only
  rw [hcalls']

theorem execRet_done (h : executing s = true) : execRet s = .next (settle 33 (blockEnds (noteSeen (countWord s)))) :=
  runCtl_of_executing h countWord fun t => .ok (settle 33 (blockEnds (noteSeen t)))

theorem execRetc_of_ba (h : executing s = true) (hba : s.bu.ba = true) : execRetc s = execRet s := by
  have hba' : (countWord s).bu.ba = true := hba
  rw [execRet_done h, execRetc, runCtl_of_executing h, if_pos hba']
  rfl

theorem execRetc_of_not_ba (h : executing s = true) (hba : s.bu.ba = false) :
    execRetc s = .next (Safety.wordDone 1 s.bx s) := by
  have hba' : ¬ (countWord s).bu.ba = true := by rw [Bool.not_eq_true]; exact hba
  rw [execRetc, runCtl_of_executing h, if_neg hba', ← advance_noteSeen_eq_wordDone]
  rfl

theorem callOp_of_room {f : Nat} (hlevel : s.bx.level.toNat < 32) : callOp f s = .ok (enterFunc f s) := if_neg (by omega)

/-- Settles O37. -/
theorem callsNestAndReturn : Obligations.CallsNestAndReturn := by
  intro n s h bx0 into sticky seen
  refine ⟨fun hlevel => ⟨fun hexists => ?call, fun hexists => ?calli⟩, fun f fs hcalls => ?back, fun hcalls hdue => ?ended,
    fun hcalls k ks hdue => ?next, execRetc_of_not_ba h⟩
  case call =>
    change checked _ _ _ s = _
    have hcall : callOp n.toNat (countWord s) = .ok (enterFunc n.toNat (countWord s)) := callOp_of_room hlevel
    rw [checked_of_ok hexists, runCtl_of_executing h, hcall]
    rfl
  case calli =>
    have hcall : callOp s.bx.acc1.toNat (countWord s) = .ok (enterFunc s.bx.acc1.toNat (countWord s)) := callOp_of_room hlevel
    have hexists' : funcExists (countWord s).bx.acc1.toNat (countWord s) = true := hexists
    change execCalli s = _
    rw [execCalli, runCtl_of_executing h, if_pos hexists', countWord_acc1, hcall]
    rfl
  case back =>
    intro back
    have hret : execRet s = .next back := by
      have hcalls' : (noteSeen (countWord s)).bx.calls = f :: fs := hcalls
      rw [execRet_done h, blockEnds_of_calls hcalls', blockSticky_noteSeen_countWord]
      rfl
    exact ⟨hret, fun hba => (execRetc_of_ba h hba).trans hret⟩
  case ended =>
    intro ended
    have hret : execRet s = .next ended := by
      have hcalls' : (noteSeen (countWord s)).bx.calls = [] := hcalls
      have hnext : nextBlock (blockSticky (noteSeen (countWord s))) = ended := by
        have hdue' : (blockSticky (noteSeen (countWord s))).ctx.dueLeft = [] := hdue
        rw [nextBlock, hdue', blockSticky_noteSeen_countWord]
      rw [execRet_done h, blockEnds_of_no_calls hcalls', hnext, settle_of_ended rfl]
    exact ⟨hret, fun hba => (execRetc_of_ba h hba).trans hret⟩
  case next =>
    have hcalls' : (noteSeen (countWord s)).bx.calls = [] := hcalls
    have hdue' : (blockSticky (noteSeen (countWord s))).ctx.dueLeft = k :: ks := hdue
    refine ⟨_, execRet_done h, fun hba => (execRetc_of_ba h hba).trans (execRet_done h), _, rfl, ?_⟩
    rw [blockEnds_of_no_calls hcalls', nextBlock, hdue']
    exact ⟨rfl, rfl, rfl, rfl, rfl, rfl, rfl, rfl, rfl, rfl⟩

/-! ### Stores to elements and bits -/

/-- Refutes O32: the state type does not bound the size of D. Where a Mould gives it 20,000 KiB, more than data memory holds, the
element at 16 MiB fits D, and what is stored there is not held. -/
theorem not_wordStoresWriteOneElement : ¬ Obligations.WordStoresWriteOneElement := by
  intro h
  let s : State := { State.reset with
    lap := { State.reset.lap with running := .lap }
    mld := { State.reset.mld with mould := some ({}, { dSizeKib := 20000 }) } }
  obtain ⟨-, -, -, -, -, hread⟩ := h .d 0 s (by decide) (by decide) resetHasCanonicalStores
  have hstored := (hread 32 (by decide) 0x400000 1 (by decide)).1
  have hlost : elemRead (elemWrite .d 32 0x400000 1 s) .d 32 0x400000 = 0 := by decide
  rw [hlost] at hstored
  exact absurd hstored (by decide)

theorem getLsbD_setBit {w : Nat} (v : BitVec w) (i j : Nat) (b : Bool) (hi : i < w) :
    (setBit v i b).getLsbD j = if j = i then b else v.getLsbD j := by
  have htwo : BitVec.ofNat w (2 ^ i) = BitVec.twoPow w i := by
    apply BitVec.eq_of_toNat_eq
    rw [BitVec.toNat_ofNat, BitVec.toNat_twoPow]
  rw [setBit, htwo]
  by_cases hj : j = i
  · subst hj
    cases b <;> simp [hi]
  · cases b with
    | true => simp [hj, Ne.symm hj]
    | false =>
      by_cases hw : j < w
      · simp [hj, hw]
      · simp [hj, BitVec.getLsbD_of_ge v j (by omega)]

@[simp] theorem imgOf_setImg (img : Images) (s : State) : imgOf (setImg img s) = img := by
  rw [setImg]
  split
  · rename_i h
    exact (if_pos h).trans rfl
  · rename_i h
    exact if_neg h

@[simp] theorem dBase_lapWrites (x n : Nat) (s : State) : dBase (lapWrites x n s) = dBase s := by
  simp [dBase, inTrial]

theorem dBase_le (s : State) : dBase s ≤ 0x200000 := by
  rw [dBase]
  split <;> omega

/-- A bit written in a writable area reads as written, and every other bit of the area as before. -/
theorem bitRead_bitWrite {a : Area} {i j : Nat} (b : Bool) (hwf : Memory.wf s = true) (ha : writable a = true)
    (hi : i < areaBits s a) (hj : j < areaBits s a) :
    bitRead (bitWrite a i b s) a j = if j = i then b else bitRead s a j := by
  have harea : a = .q ∨ a = .m ∨ a = .d := by simpa [writable, or_assoc] using ha
  rcases harea with rfl | rfl | rfl
  · rw [bitWrite, bitRead, imgOf_lapWrites, imgOf_setImg]
    exact getLsbD_setBit _ _ _ _ hi
  · rw [bitWrite, bitRead, imgOf_lapWrites, imgOf_setImg]
    exact getLsbD_setBit _ _ _ _ hi
  · have hbase := dBase_le s
    have hi' : i < 1048576 := lt_of_lt_of_le hi (min_le_left ..)
    have hdata : swf (0 : Byte) dataSize s.data = true := by
      rw [Memory.wf, Bool.and_eq_true, Bool.and_eq_true] at hwf
      exact hwf.1.1
    have hfits : dBase s + i / 8 + [setBit (memGet 0 s.data (dBase s + i / 8)) (i % 8) b].length ≤ dataSize := by
      simp only [List.length_singleton, dataSize]
      omega
    have hbyte := memGet_memWrite 0 dataSize s.data (dBase s + i / 8) (dBase s + j / 8)
      [setBit (memGet 0 s.data (dBase s + i / 8)) (i % 8) b] hdata hfits
    have hread : bitRead (bitWrite .d i b s) .d j =
        (memGet 0 (memWrite 0 dataSize s.data (dBase s + i / 8) [setBit (memGet 0 s.data (dBase s + i / 8)) (i % 8) b])
          (dBase s + j / 8)).getLsbD (j % 8) := by
      rw [bitRead, bitWrite, dBase_lapWrites, lapWrites_data]
      rfl
    rw [hread, hbyte, List.length_singleton]
    by_cases hsame : j / 8 = i / 8
    · rw [if_pos (by omega), hsame, Nat.sub_self]
      refine (getLsbD_setBit _ (i % 8) (j % 8) b (Nat.mod_lt _ (by decide))).trans ?_
      by_cases hij : j = i
      · rw [if_pos hij, if_pos (by rw [hij])]
      · rw [if_neg hij, if_neg (by omega), bitRead, hsame]
    · rw [if_neg (by omega), if_neg (by omega), bitRead]

/-! ### Writes of the program and the Bit Unit's counts -/

theorem setImg_of_bu (img : Images) (bu : Bu) (s : State) : setImg img { s with bu := bu } = { setImg img s with bu := bu } := by
  have hc : inTrial { s with bu := bu } = inTrial s := rfl
  rw [setImg, setImg, hc]
  split <;> rfl

theorem lapWrites_of_bu (x n : Nat) (bu : Bu) (s : State) :
    lapWrites x n { s with bu := bu } = { lapWrites x n s with bu := bu } := by
  have hc : inTrial { s with bu := bu } = inTrial s := rfl
  rw [lapWrites, lapWrites, hc]
  split <;> rfl

theorem bitWrite_of_bu (a : Area) (i : Nat) (b : Bool) (bu : Bu) (s : State) :
    bitWrite a i b { s with bu := bu } = { bitWrite a i b s with bu := bu } := by
  cases a
  case q => exact (congrArg (lapWrites _ _) (setImg_of_bu _ bu s)).trans (lapWrites_of_bu _ _ bu _)
  case m => exact (congrArg (lapWrites _ _) (setImg_of_bu _ bu s)).trans (lapWrites_of_bu _ _ bu _)
  case d =>
    exact lapWrites_of_bu _ _ bu (dataWrite (dBase s + i / 8) [setBit (memGet 0 s.data (dBase s + i / 8)) (i % 8) b] s)
  all_goals rfl

theorem bitWrite_bu (a : Area) (i : Nat) (b : Bool) (s : State) : (bitWrite a i b s).bu = s.bu := by
  have h := congrArg State.bu (bitWrite_of_bu a i b s.bu s)
  exact h

theorem setImg_bu (img : Images) (s : State) : (setImg img s).bu = s.bu := by
  rw [setImg]
  split <;> rfl

theorem setImg_bx (img : Images) (s : State) : (setImg img s).bx = s.bx := by
  rw [setImg]
  split <;> rfl

theorem bitWrite_bx (a : Area) (i : Nat) (b : Bool) (s : State) : (bitWrite a i b s).bx = s.bx := by
  cases a
  case q => exact (lapWrites_bx ..).trans (setImg_bx ..)
  case m => exact (lapWrites_bx ..).trans (setImg_bx ..)
  case d => exact lapWrites_bx ..
  all_goals rfl

/-- A bit-path instruction that writes operands and leaves the Bit Unit at `b` ends as one that writes nothing does. -/
theorem advance_noteSeen_of_write (b : Bu) {t : State} (hbu : t.bu = s.bu) :
    advance 1 (noteSeen { t with bu := { b with instr := s.bu.instr + 1, curBits := satInc s.bu.curBits } }) =
      Safety.bitDone b t := by
  rw [← hbu, advance_noteSeen_eq_bitDone]

theorem runStore_done {a : Area} {i : BitVec 20} (h : executing s = true) (mn : String) (doit b : State → Bool)
    (hok : bitWritable a i.toNat s = true) (hdoit : doit (countBit s) = doit s) (hb : b (countBit s) = b s) :
    runStore mn doit b a i s = .next (Safety.bitDone s.bu (if doit s then bitWrite a i.toNat (b s) s else s)) := by
  have hwrite : bitWrite a i.toNat (b s) (countBit s) =
      { bitWrite a i.toNat (b s) s with bu := { s.bu with instr := s.bu.instr + 1, curBits := satInc s.bu.curBits } } :=
    bitWrite_of_bu ..
  rw [runStore, checked_of_ok hok, runSeq_of_executing h, hdoit, hb, hwrite]
  split
  · exact congrArg Host.Outcome.next (advance_noteSeen_of_write s.bu (bitWrite_bu ..))
  · exact congrArg Host.Outcome.next (advance_noteSeen_of_write s.bu rfl)

/-! ### Edges and jumps -/

theorem imgOf_countBit (s : State) : imgOf (countBit s) = imgOf s := rfl

theorem edgeOp_of_parity (rising : Bool) (n : Nat) (hparity : s.bu.badParity.contains (.e, n / 32) = false) :
    let img := imgOf s
    let cell := if img.fresh.contains n then s.bu.ba else img.e.getLsbD n
    edgeOp rising n s = .ok (setBa (if rising then s.bu.ba && !cell else !s.bu.ba && cell)
      (lapWrites (9216 + n / 8) 1
        (setImg { img with e := setBit img.e n s.bu.ba, fresh := img.fresh.filter (· ≠ n) } s))) := by
  intro img cell
  rw [edgeOp, fetchBit_of_parity hparity]
  rfl

theorem runEdge_done {i : BitVec 20} (h : executing s = true) (mn : String) (rising : Bool) (hcell : i.toNat < 16384)
    (hparity : s.bu.badParity.contains (.e, i.toNat / 32) = false) :
    let img := imgOf s
    let cell := if img.fresh.contains i.toNat then s.bu.ba else img.e.getLsbD i.toNat
    checked mn (fun _ => decide (i.toNat < 16384)) (runSeq countBit 1 (edgeOp rising i.toNat)) s =
      .next (Safety.bitDone { s.bu with ba := if rising then s.bu.ba && !cell else !s.bu.ba && cell, fc := false }
        (lapWrites (9216 + i.toNat / 8) 1
          (setImg { img with e := setBit img.e i.toNat s.bu.ba, fresh := img.fresh.filter (· ≠ i.toNat) } s))) := by
  intro img cell
  have hedge := edgeOp_of_parity (s := countBit s) rising i.toNat hparity
  have hwrite := (congrArg (lapWrites (9216 + i.toNat / 8) 1) (setImg_of_bu
    { img with e := setBit img.e i.toNat s.bu.ba, fresh := img.fresh.filter (· ≠ i.toNat) }
    { s.bu with instr := s.bu.instr + 1, curBits := satInc s.bu.curBits } s)).trans (lapWrites_of_bu ..)
  have hbu (j : Images) : (lapWrites (9216 + i.toNat / 8) 1 (setImg j s)).bu = s.bu :=
    (lapWrites_bu ..).trans (setImg_bu ..)
  rw [checked_of_ok (decide_eq_true hcell), runSeq_of_executing h]
  refine (congrArg (fun r => Host.Outcome.next (settled (r.map fun t => advance 1 (noteSeen t))))
    (hedge.trans (congrArg (fun t => Except.ok (setBa (if rising then s.bu.ba && !cell else !s.bu.ba && cell) t)) hwrite))).trans ?_
  exact congrArg Host.Outcome.next (advance_noteSeen_of_write
    { s.bu with ba := if rising then s.bu.ba && !cell else !s.bu.ba && cell, fc := false } (hbu _))

/-- A jump, taken or not, in the counted state. -/
theorem runJump_done {i : BitVec 20} (h : executing s = true) (mn : String) (taken : State → Bool)
    (htarget : jumpTarget s (s.bx.pos.offset + 1 + i.toInt) = true) (htaken : taken (countBit s) = taken s) :
    checked mn (jumpOk i) (runCtl countBit fun t => .ok (jumpOp (taken t) i t)) s = .next (settle 33 { s with
      bu := { s.bu with fc := true, instr := s.bu.instr + 1, curBits := satInc s.bu.curBits }
      bx := { s.bx with pos := { s.bx.pos with
        offset := if taken s then ((s.bx.pos.offset : Int) + 1 + i.toInt).toNat else s.bx.pos.offset + 1 } } }) := by
  rw [checked_of_ok htarget, runCtl_of_executing h, htaken]
  change Host.Outcome.next (jumpOp (taken s) i (countBit s)) = _
  rw [jumpOp]
  cases taken s <;> rfl

/-! ### Bit–word instructions -/

/-- A bit–word instruction, which BU.LAP_BITS does not count (log 19). -/
theorem runSeq_countBitWord_done (h : executing s = true) {f : State → Lapped} {t : State} (bu : Bu) (bx : Bx)
    (hf : f (countBitWord s) = .ok { t with
      bu := { bu with instr := s.bu.instr + 1 }, bx := { bx with seen := s.bx.seen, pos := s.bx.pos } })
    (hflags : flagWord bx = flagWord s.bx) :
    runSeq countBitWord 1 f s = .next (settle 33 { t with
      bu := { bu with instr := s.bu.instr + 1 }
      bx := { bx with seen := s.bx.seen ||| (flagWord s.bx >>> 4).setWidth 4, pos := { s.bx.pos with offset := s.bx.pos.offset + 1 } } }) := by
  rw [runSeq_of_executing h, hf, ← hflags]
  rfl

/-- Settles O28. -/
theorem bitStoresEdgesAndJumps : Obligations.BitStoresEdgesAndJumps := by
  refine ⟨fun a i s h hwf => ⟨fun hwrite hfits => ?stores, ?words⟩, fun i s h => ⟨fun hcell hparity => ?edges, ?jumps⟩⟩
  case stores =>
    have hok : bitWritable a i.toNat s = true := by simp [bitWritable, hwrite, hfits]
    refine ⟨runStore_done h "ST" (fun _ => true) (fun t => t.bu.ba) hok rfl rfl,
      runStore_done h "SET" (fun t => t.bu.ba) (fun _ => true) hok rfl rfl,
      runStore_done h "RST" (fun t => t.bu.ba) (fun _ => false) hok rfl rfl, fun b => ⟨?same, fun j hne hj => ?other⟩⟩
    case same => rw [bitRead_bitWrite b hwf hwrite hfits hfits, if_pos rfl]
    case other => rw [bitRead_bitWrite b hwf hwrite hfits hj, if_neg hne]
  case words =>
    intro n word
    have hacc : BitVec.ofNat 32 (b2n s.bu.ba) = if s.bu.ba then 1 else 0 := by cases s.bu.ba <;> rfl
    refine ⟨?btow, ?wtob, fun hread hn hparity => ?ldi, fun hwrite hn => ?sti⟩
    case btow =>
      rw [← hacc]
      exact (runSeq_countBitWord_done h (t := s) s.bu { s.bx with acc1 := BitVec.ofNat 32 (b2n s.bu.ba) } rfl rfl : execBtow s = _)
    case wtob =>
      exact (runSeq_countBitWord_done h (t := s) { s.bu with ba := decide (s.bx.acc1 ≠ 0), fc := false } s.bx rfl rfl :
        execWtob s = _)
    case ldi =>
      change execLdi a i s = _
      have hfetch : fetchBit a n (countBitWord s) = .ok (bitRead s a n) := fetchBit_of_parity hparity
      have hn' : indexAt i (countBitWord s).bx.acc1 < areaBits (countBitWord s) a := hn
      rw [execLdi, checked_of_ok hread]
      refine runSeq_countBitWord_done h (t := s) { s.bu with ba := bitRead s a n, fc := false } s.bx ?_ rfl
      dsimp only
      rw [if_pos hn']
      exact (congrArg (· >>= fun b => pure (setBa b (countBitWord s))) hfetch).trans rfl
    case sti =>
      change execSti a i s = _
      have hread : readable a = true := by cases a <;> first | rfl | exact hwrite
      have hn' : indexAt i (countBitWord s).bx.acc1 < areaBits (countBitWord s) a := hn
      have hstored : bitWrite a n s.bu.ba (countBitWord s) = { bitWrite a n s.bu.ba s with
          bu := { s.bu with instr := s.bu.instr + 1 }, bx := { s.bx with seen := s.bx.seen, pos := s.bx.pos } } := by
        rw [← bitWrite_bx a n s.bu.ba s]
        exact bitWrite_of_bu ..
      rw [execSti, checked_of_ok hread]
      refine runSeq_countBitWord_done h (t := bitWrite a n s.bu.ba s) s.bu s.bx ?_ rfl
      dsimp only
      rw [if_neg (by simp [hwrite]), if_pos hn']
      exact congrArg Except.ok hstored
  case edges => exact ⟨runEdge_done h "FP" true hcell hparity, runEdge_done h "FN" false hcell hparity⟩
  case jumps =>
    intro target at_ htarget
    refine ⟨runJump_done h "JMP" (fun _ => true) htarget rfl, runJump_done h "JMPC" (fun t => t.bu.ba) htarget rfl, ?_⟩
    refine (runJump_done h "JMPCN" (fun t => !t.bu.ba) htarget rfl).trans ?_
    cases s.bu.ba <;> rfl

end
end Sys2Proof.Machine
end

section
/-! SUPPORT. Register accesses that reach a block, miss one whose domain is off, or lie in none (R6 to R10, R16, R20, R448, R449). -/

namespace Sys2Proof.Machine

section
variable {s : State} {addr : Word} {b : Block}

set_option Elab.async false

/-! ### What becomes of an access -/

theorem accessOf_eq (hawake : awake s = true) (haligned : addr.toNat % 4 = 0) : accessOf addr 4 s =
    match blockOf addr.toNat with
    | none => .none
    | some b => if pdIs s (domainOf b (addr.toNat % 65536)) then .at b (addr.toNat % 65536)
        else .miss (BitVec.ofNat 8 (addr.toNat / 65536)) := by
  rw [accessOf]
  refine (if_neg ?_).trans ?_
  · simp [hawake, haligned]
  · cases blockOf addr.toNat <;> rfl

theorem accessOf_at (hawake : awake s = true) (haligned : addr.toNat % 4 = 0) (hblock : blockOf addr.toNat = some b)
    (hon : s.power.pdOn.getLsbD (domainOf b (addr.toNat % 65536)) = true) :
    accessOf addr 4 s = .at b (addr.toNat % 65536) := by
  rw [accessOf_eq hawake haligned, hblock]
  exact if_pos hon

theorem accessOf_miss (hawake : awake s = true) (haligned : addr.toNat % 4 = 0) (hblock : blockOf addr.toNat = some b)
    (hoff : s.power.pdOn.getLsbD (domainOf b (addr.toNat % 65536)) = false) :
    accessOf addr 4 s = .miss (BitVec.ofNat 8 (addr.toNat / 65536)) := by
  rw [accessOf_eq hawake haligned, hblock]
  exact if_neg (by rw [pdIs, hoff]; exact Bool.false_ne_true)

theorem accessOf_none (hawake : awake s = true) (haligned : addr.toNat % 4 = 0) (hblock : blockOf addr.toNat = none) :
    accessOf addr 4 s = .none := by
  rw [accessOf_eq hawake haligned, hblock]

theorem writeAccess_of_at {o : Nat} (v : Word) (h : accessOf addr 4 s = .at b o) : writeAccess addr 4 v s = regWrite b o v s := by
  rw [writeAccess, h]

theorem readAccess_of_at {o : Nat} (h : accessOf addr 4 s = .at b o) :
    readAccess addr 4 s = answered (regRead b o s) (regOnRead b o s) := by
  rw [readAccess, h]

theorem writeAccess_of_miss {x : Byte} (v : Word) (h : accessOf addr 4 s = .miss x) : writeAccess addr 4 v s = xdomMiss x s := by
  rw [writeAccess, h]

theorem readAccess_of_miss {x : Byte} (h : accessOf addr 4 s = .miss x) : readAccess addr 4 s = answered 0 (xdomMiss x s) := by
  rw [readAccess, h]

/-- The block of an address is that of its upper half. -/
theorem blockOf_congr {a c : Nat} (h : a / 65536 = c / 65536) : blockOf a = blockOf c := by
  unfold blockOf
  rw [show a / 0x10000 = c / 0x10000 from h]

theorem blockOf_eq_none {a : Nat} (h : a / 65536 ∉ [0x4000, 0x4001, 0x4002, 0x4003, 0x4004, 0x4005, 0x4006, 0x4010, 0x4011, 0x4012,
    0x4013, 0x4014, 0x4015, 0x4020, 0x4021, 0x4030, 0x4031, 0x4032, 0x4033, 0x4040, 0x4041, 0x4042, 0x4050]) :
    blockOf a = none := by
  unfold blockOf
  rw [show a / 0x10000 = a / 65536 from rfl]
  generalize a / 65536 = x at h
  split
  rotate_right
  · rfl
  all_goals exact absurd (by decide) h

/-- An access that misses its block, whose domain is off, is counted with it (R16). -/
theorem access_missed (hawake : awake s = true) (v : Word) {p d : Nat} {o : Fin 16384} (hp : p < 65536)
    (hblock : blockOf (p * 65536) = some b) (hdomain : domainOf b (4 * o.val) = d) (hoff : s.power.pdOn.getLsbD d = false) :
    let a := BitVec.ofNat 32 (p * 65536 + 4 * o.val)
    let u := { s with sens := { s.sens with
      xdomCount := if s.sens.xdomCount = 0xFFFF then 0xFFFF else s.sens.xdomCount + 1, xdomBlock := BitVec.ofNat 8 p } }
    exec (.registerWrite a 4 v) s = .next u ∧ exec (.rcRead a 4) s = .next { u with out := { u.out with readData := 0 } } ∧
    exec (.loRead a 4) s = .next { u with out := { u.out with readData := 0 } } := by
  intro a u
  have hlt := o.isLt
  have haddr : a.toNat = p * 65536 + 4 * o.val := by
    rw [BitVec.toNat_ofNat, Nat.mod_eq_of_lt (by omega)]
  have hhigh : a.toNat / 65536 = p := by omega
  have hlow : a.toNat % 65536 = 4 * o.val := by omega
  have hcount : satInc s.sens.xdomCount = if s.sens.xdomCount = 0xFFFF then 0xFFFF else s.sens.xdomCount + 1 := by
    rw [satInc, show BitVec.allOnes 16 = 0xFFFF from rfl]
    split
    · assumption
    · rfl
  have hblock' : blockOf a.toNat = some b := by rw [← hblock]; exact blockOf_congr (by omega)
  have hmiss : accessOf a 4 s = .miss (BitVec.ofNat 8 p) := by
    rw [accessOf_miss hawake (by omega) hblock' (by rw [hlow, hdomain]; exact hoff), hhigh]
  have hu : xdomMiss (BitVec.ofNat 8 p) s = u := by rw [xdomMiss, hcount]
  refine ⟨?_, ?_, ?_⟩
  · rw [exec_registerWrite, writeAccess_of_miss v hmiss, hu]
  · rw [exec_rcRead, readAccess_of_miss hmiss, hu]
    rfl
  · rw [exec_loRead, readAccess_of_miss hmiss, hu]
    rfl

/-- Settles O8: each listed block is `access_missed` in its domain; an address in no block selects nothing. -/
theorem accessOutsideTheReachableBlocks : Obligations.AccessOutsideTheReachableBlocks := by
  refine ⟨fun o v s hawake => ?off, fun addr v s hawake haligned _ _ houtside => ?outside⟩
  case off =>
    have hmissed {p d : Nat} {b : Block} (hp : p < 65536) (hblock : blockOf (p * 65536) = some b)
        (hdomain : domainOf b (4 * o.val) = d) (hoff : s.power.pdOn.getLsbD d = false) :=
      access_missed hawake v (o := o) hp hblock hdomain hoff
    simp only [List.forall_mem_cons]
    exact ⟨hmissed (by decide) rfl rfl, hmissed (by decide) rfl rfl, hmissed (by decide) rfl rfl, hmissed (by decide) rfl rfl,
      hmissed (by decide) rfl rfl, hmissed (by decide) rfl rfl, hmissed (by decide) rfl rfl, hmissed (by decide) rfl rfl,
      fun _ hp => absurd hp List.not_mem_nil⟩
  case outside =>
    have hnone := accessOf_none hawake haligned (blockOf_eq_none houtside)
    have hread := readAccess_of_not_performed hawake hnone
    refine ⟨?_, ?_, ?_⟩
    · rw [exec_registerWrite, writeAccess_of_not_performed v hnone]
    · rw [exec_rcRead, hread]
    · rw [exec_loRead, hread]

/-! ### The access codes -/

theorem getLsbD_and_not {w : Nat} (x y : BitVec w) {i : Nat} (hi : i < w) : (x &&& ~~~y).getLsbD i = (x.getLsbD i && !y.getLsbD i) := by
  simp [hi]

theorem ofNat_loHalf (x : DWord) : BitVec.ofNat 32 (loHalf x.toNat) = x.setWidth 32 := by
  apply BitVec.eq_of_toNat_eq
  rw [BitVec.toNat_ofNat, BitVec.toNat_setWidth, loHalf, Nat.mod_mod]

theorem hiHalf_toNat (x : DWord) : hiHalf x.toNat = x.extractLsb' 32 32 := by
  apply BitVec.eq_of_toNat_eq
  rw [hiHalf, BitVec.toNat_ofNat, BitVec.extractLsb'_toNat, Nat.shiftRight_eq_div_pow]

/-- A DO_CFG register is written in HALT only (R10). -/
theorem write_doCfg (hawake : awake s = true) (hon : s.power.pdOn.getLsbD 5 = true) (k : Fin 16) (v : Word) :
    exec (.registerWrite (BitVec.ofNat 32 (0x40150180 + 4 * k)) 4 v) s = .next (wrDoCfg k v s) := by
  have hk := k.isLt
  have haddr : (BitVec.ofNat 32 (0x40150180 + 4 * k.val)).toNat = 0x40150180 + 4 * k.val := by
    rw [BitVec.toNat_ofNat, Nat.mod_eq_of_lt (by omega)]
  have hlow : (BitVec.ofNat 32 (0x40150180 + 4 * k.val)).toNat % 65536 = 0x180 + 4 * k.val := by omega
  have hblock : blockOf (BitVec.ofNat 32 (0x40150180 + 4 * k.val)).toNat = some .dio := by
    rw [← show blockOf 0x40150000 = some .dio from rfl]
    exact blockOf_congr (by omega)
  have hat := accessOf_at hawake (by omega) hblock hon
  have hdi : inRow (0x180 + 4 * k.val) 0x100 32 = false := by simp [inRow]
  have hdo : inRow (0x180 + 4 * k.val) 0x180 16 = true := by simp [inRow]; omega
  have hix : rowIx (0x180 + 4 * k.val) 0x180 = k := by simp [rowIx]
  rw [exec_registerWrite, writeAccess_of_at v hat, hlow]
  change Host.Outcome.next (wrDio (0x180 + 4 * k.val) v s) = _
  unfold wrDio
  rw [hdi, hdo, hix]
  rfl

/-- Settles O9: each access reaches its register, whose write or read is the stated one. -/
theorem registerAccessesFollowTheirAccessCodes : Obligations.RegisterAccessesFollowTheirAccessCodes := by
  refine ⟨fun v s hawake => ⟨fun hon => ?ringSel, fun hon => ?args, fun hon => ⟨?openLatch, fun k => ⟨fun hhalt => ?locked,
    fun hhalt => ?cfg⟩⟩⟩, fun s hawake hon => ⟨?refusals, ?sequence, fun hon7 => ?received⟩⟩
  case ringSel =>
    have hat := accessOf_at (addr := 0x40500000) hawake rfl rfl hon
    rw [exec_registerWrite, writeAccess_of_at v hat]
    rfl
  case args =>
    have hat := accessOf_at (addr := 0x40410004) hawake rfl rfl hon
    rw [exec_registerWrite, writeAccess_of_at v hat]
    rfl
  case openLatch =>
    have hat := accessOf_at (addr := 0x4015000C) hawake rfl rfl hon
    have hwrite : exec (.registerWrite 0x4015000C 4 v) s =
        .next { s with dio := { s.dio with openLatch := s.dio.openLatch &&& ~~~v } } := by
      rw [exec_registerWrite, writeAccess_of_at v hat]
      rfl
    exact ⟨_, hwrite, rfl, fun i hi => getLsbD_and_not s.dio.openLatch v hi⟩
  case locked =>
    rw [write_doCfg hawake hon, wrDoCfg, if_neg hhalt]
  case cfg =>
    have hbit (x : BitVec 16) (c : Bool) (i : Fin 16) : (setBit x k c).getLsbD i = if i = k then c else x.getLsbD i := by
      rw [getLsbD_setBit _ _ _ _ k.isLt]
      exact if_congr Fin.val_inj rfl rfl
    have hwrite := write_doCfg hawake hon k v
    rw [wrDoCfg, if_pos hhalt] at hwrite
    exact ⟨_, hwrite, rfl, fun i => ⟨hbit .., hbit ..⟩⟩
  case refusals =>
    have hat := accessOf_at (addr := 0x40000014) hawake rfl rfl hon
    have hvalue : BitVec.ofNat 32 (s.power.refusals.toNat + 65536 * s.power.busyPx.toNat) = s.power.busyPx ++ s.power.refusals := by
      apply BitVec.eq_of_toNat_eq
      have hlow := s.power.refusals.isLt
      have hhigh := s.power.busyPx.isLt
      rw [BitVec.toNat_append, ← Nat.shiftLeft_add_eq_or_of_lt hlow, BitVec.toNat_ofNat, Nat.shiftLeft_eq]
      omega
    rw [exec_rcRead, readAccess_of_at hat, ← hvalue]
    rfl
  case sequence =>
    have hat := accessOf_at (addr := 0x40020008) hawake rfl rfl hon
    rw [exec_loRead, readAccess_of_at hat, ← ofNat_loHalf, ← hiHalf_toNat]
    rfl
  case received =>
    have hat := accessOf_at (addr := 0x40310020) hawake rfl rfl hon7
    rw [exec_loRead, readAccess_of_at hat, ← ofNat_loHalf, ← hiHalf_toNat]
    rfl

end
end Sys2Proof.Machine
end

section
/-! SUPPORT. The I/O sequencer (R32 to R49): bits of masks and flag words, what a field command leaves as it was and when it raises
event type 5, and the records with a repetition rule. -/

namespace Sys2Proof.Safety

open Sys2Proof.Machine

theorem journals_mono {code sev : Nat} {items : Bytes} {s t u : State} (h : journals code sev items s t)
    (hqueue : t.log.sjQueue <+: u.log.sjQueue) : journals code sev items s u := by
  obtain ⟨r, hr, hrest⟩ := h
  obtain ⟨after, hafter⟩ := hqueue
  refine ⟨r, ?_, hrest⟩
  rw [← hafter, List.drop_append]
  exact List.mem_append_left _ hr

/-- The state in which a record under the repetition rule is written for the first time. -/
def repeatNoted (code key : Nat) (s : State) : State :=
  { s with log := { s.log with
      repeats := { code := BitVec.ofNat 16 code, key := key, lastMs := opMs s, missed := 0 } ::
        s.log.repeats.filter fun r => !(r.code.toNat = code ∧ r.key = key) } }

/-- A record whose code and key are not under the repetition rule is written. -/
theorem sjRep_of_fresh {code key : Nat} {s : State} (h : repeatFind s code key = none) (sev : Nat) (items : Bytes) :
    sjRep code sev key items s = sj code sev items (repeatNoted code key s) := by
  rw [sjRep, repeatGate, h]
  rfl

theorem journals_of_sjRep {code sev key : Nat} {items : Bytes} {s u t : State} (hfresh : repeatFind u code key = none)
    (hfrom : s.log.sjQueue <+: u.log.sjQueue) (hto : (sjRep code sev key items u).log.sjQueue <+: t.log.sjQueue)
    (hop : opMs u = opMs s := by rfl) (hcycles : u.power.pwrCycles = s.power.pwrCycles := by rfl) : journals code sev items s t := by
  rw [sjRep_of_fresh hfresh] at hto
  exact journals_of_sj (u := repeatNoted code key u) hfrom hto hop hcycles

end Sys2Proof.Safety

namespace Sys2Proof.Machine

open Safety (Booked)

section
variable {s t u : State}

set_option Elab.async false

/-! ### Masks and flag words -/

theorem maskOf_succ (n : Nat) (f : Nat → Bool) : maskOf (n + 1) f = 2 ^ n * b2n (f n) + maskOf n f := by
  rw [maskOf, maskOf, List.range_succ, List.foldl_append, Nat.add_comm, Nat.mul_comm]
  rfl

theorem maskOf_lt (n : Nat) (f : Nat → Bool) : maskOf n f < 2 ^ n := by
  induction n with
  | zero => exact Nat.zero_lt_one
  | succ n ih =>
    rw [maskOf_succ, Nat.pow_succ]
    cases f n <;> simp [b2n] <;> omega

theorem testBit_maskOf (n : Nat) (f : Nat → Bool) (i : Nat) : (maskOf n f).testBit i = (decide (i < n) && f i) := by
  induction n with
  | zero => simp [maskOf]
  | succ n ih =>
    rw [maskOf_succ, Nat.testBit_two_pow_mul_add _ (maskOf_lt n f)]
    split
    · rename_i hlt
      rw [ih]
      simp [hlt, show i < n + 1 by omega]
    · rename_i hge
      by_cases heq : i = n
      · subst heq
        cases hf : f i <;> simp [b2n]
      · obtain ⟨k, hk⟩ : ∃ k, i - n = k + 1 := ⟨i - n - 1, by omega⟩
        rw [hk, decide_eq_false (by omega), Bool.false_and]
        cases f n <;> simp [b2n, Nat.testBit_succ]

theorem getLsbD_ofNat_maskOf {w n i : Nat} (f : Nat → Bool) (hi : i < n) (hw : i < w) :
    (BitVec.ofNat w (maskOf n f)).getLsbD i = f i := by
  rw [BitVec.getLsbD_ofNat, testBit_maskOf]
  simp [hi, hw]

theorem groupMask_getLsbD : ∀ (g : Fin 4) (i : Fin 32), (groupMask g).getLsbD i = decide (i.val / 8 = g) := by decide

/-- No flag is new where every flag of the second list stands in the first. -/
theorem newFlag_eq_false {a b : List Word} (h : ∀ p ∈ a.zip b, p.2 &&& ~~~p.1 = 0) : newFlag a b = false := by
  rw [newFlag, List.any_eq_false]
  intro p hp
  simp [h p hp]

theorem newFlag_self (a : List Word) : newFlag a a = false := by
  apply newFlag_eq_false
  intro p hp
  rw [List.zip_eq_zipWith, List.zipWith_self, List.mem_map] at hp
  obtain ⟨x, -, rfl⟩ := hp
  exact BitVec.and_not_self x

/-! ### Field commands -/

theorem fieldCommand_of_on (hon : s.power.pdOn.getLsbD 5 = true) (f : State → State) :
    fieldCommand f s = withFieldEvent f s := by
  rw [fieldCommand, whenever, pdIs, hon]
  rfl

/-- A command that sets none of the flags of R64 raises no event. -/
theorem withFieldEvent_quiet {f : State → State} (h : newFlag (fieldWords s) (fieldWords (f s)) = false) :
    withFieldEvent f s = f s := by
  rw [withFieldEvent, h]
  rfl

theorem withFieldEvent_same {f : State → State} (h : fieldWords (f s) = fieldWords s) : withFieldEvent f s = f s :=
  withFieldEvent_quiet (by rw [h]; exact newFlag_self _)

theorem withFieldEvent_booked (f : State → State) (s : State) : Booked [2, 3, 21] (f s) (withFieldEvent f s) := by
  rw [withFieldEvent]
  split
  · exact (Safety.pushEventFree_booked 5 0x0E (f s)).mono (by decide)
  · exact .refl _ _

theorem withFieldEvent_bookkept (f : State → State) (s : State) : Bookkept (f s) (withFieldEvent f s) := by
  rw [withFieldEvent]
  split
  · exact pushEventFree_bookkept 5 0x0E (f s)
  · exact .refl _

theorem withFieldEvent_dio (f : State → State) (s : State) : (withFieldEvent f s).dio = (f s).dio :=
  (withFieldEvent_bookkept f s).dio

theorem withFieldEvent_dioc (f : State → State) (s : State) : (withFieldEvent f s).dioc = (f s).dioc :=
  (withFieldEvent_bookkept f s).dioc

/-- What a field command that only writes records besides its own part leaves. -/
theorem withFieldEvent_booked_of {f : State → State} (h : Booked [2, 3] u (f s)) : Booked [2, 3, 21] u (withFieldEvent f s) :=
  (h.mono (by decide)).trans (withFieldEvent_booked f s)

/-! ### Inputs (R33, R36) -/

/-- The state `t` is `u` but for a Mains Watch trigger from a DI (R256). -/
structure DiRaised (u t : State) : Prop where
  frame : t = { u with acq := { u.acq with raised := t.acq.raised, raisedDi := t.acq.raisedDi } }
  others : ∀ i : Fin 6, i ≠ 0 → t.acq.raised.getLsbD i = u.acq.raised.getLsbD i
  unset : acqCfg u = none → t.acq = u.acq

theorem DiRaised.refl (s : State) : DiRaised s s := ⟨rfl, fun _ _ => rfl, fun _ => rfl⟩

theorem raiseTrigger_raised (which : Nat) (s : State) : DiRaised s (raiseTrigger 0 which s) := by
  unfold raiseTrigger
  split
  · split
    · refine ⟨rfl, fun i hi => ?_, fun hnone => ?_⟩
      · have hi' : i.val ≠ 0 := fun h => hi (Fin.ext h)
        exact (getLsbD_setBit _ _ _ _ (by decide)).trans (if_neg hi')
      · simp_all
    · exact .refl s
  · exact .refl s

/-- A trigger and an update of the inputs do not meet. -/
theorem DiRaised.withDio (h : DiRaised u t) (d : Dio) : DiRaised { u with dio := d } { t with dio := d } := by
  refine ⟨?_, h.others, h.unset⟩
  have hframe := congrArg (fun x : State => { x with dio := d }) h.frame
  exact hframe

theorem DiRaised.dio (h : DiRaised u t) : t.dio = u.dio := by rw [h.frame]

theorem DiRaised.acqCfg_eq (h : DiRaised u t) : acqCfg t = acqCfg u := by rw [h.frame]; rfl

theorem DiRaised.trans (h : DiRaised s t) (k : DiRaised t u) : DiRaised s u where
  frame := by rw [k.frame, h.frame]
  others i hi := (k.others i hi).trans (h.others i hi)
  unset hnone := (k.unset (h.acqCfg_eq.trans hnone)).trans (h.unset hnone)

theorem rawSampled_raised (n : Nat) (v : Bool) (s : State) :
    DiRaised { s with dio := { s.dio with raw := setBit s.dio.raw n v } } (rawSampled n v s) := by
  rw [rawSampled]
  split
  · exact raiseTrigger_raised n _
  · exact .refl _

theorem filterTakes_raised (n : Nat) (v : Bool) (s : State) :
    DiRaised { s with dio := { s.dio with filt := setBit s.dio.filt n v, rawRun := sput 0 s.dio.rawRun n 0 } } (filterTakes n v s) := by
  rw [filterTakes]
  split
  · exact raiseTrigger_raised n _
  · exact .refl _

/-- What further samples of an input do to it (R33). -/
theorem rawSamples_raised (n : Nat) (v : Bool) {k : Nat} (hk : 0 < k) (s : State) :
    let run := sget 0 s.dio.rawRun n + k
    let takes := decide (v ≠ s.dio.filt.getLsbD n) && decide (filterSamples s n ≤ run)
    DiRaised { s with dio := { s.dio with
      raw := setBit s.dio.raw n v, filt := if takes then setBit s.dio.filt n v else s.dio.filt
      rawRun := sput 0 s.dio.rawRun n (if v = s.dio.filt.getLsbD n ∨ takes = true then 0 else run) } } (rawSamples n v k s) := by
  intro run takes
  have hraw := rawSampled_raised n v s
  have hdio := hraw.dio
  rw [rawSamples, if_neg hk.ne']
  dsimp only
  by_cases hsame : v = s.dio.filt.getLsbD n
  · have htakes : takes = false := by simp [takes, hsame]
    have hrun : (if v = s.dio.filt.getLsbD n ∨ takes = true then 0 else run) = 0 := if_pos (.inl hsame)
    rw [if_pos hsame, hrun, htakes, hdio]
    exact hraw.withDio _
  · rw [if_neg hsame]
    by_cases hlong : filterSamples s n ≤ run
    · have htakes : takes = true := by simp [takes, hsame, hlong]
      have hfilter := filterTakes_raised n v (rawSampled n v s)
      have hrun : (if v = s.dio.filt.getLsbD n ∨ takes = true then 0 else run) = 0 := if_pos (.inr htakes)
      rw [if_pos hlong, hrun, htakes]
      rw [hdio] at hfilter
      exact (hraw.withDio _).trans hfilter
    · have htakes : takes = false := by simp [takes, hlong]
      have hrun : (if v = s.dio.filt.getLsbD n ∨ takes = true then 0 else run) = run := if_neg (by simp [hsame, htakes])
      rw [if_neg hlong, hrun, htakes, hdio]
      exact hraw.withDio _

theorem diFiltered_getLsbD (s : State) (i : Fin 32) :
    (diFiltered s).getLsbD i = (s.dio.filt.getLsbD i && !s.dio.opens.getLsbD i && !(diGroup s (i / 8)).glost) := by
  have hmask : (lostMask s).getLsbD i = (diGroup s (i / 8)).glost := getLsbD_ofNat_maskOf _ i.isLt i.isLt
  rw [diFiltered, getLsbD_and_not _ _ i.isLt, getLsbD_and_not _ _ i.isLt, hmask]

/-- Settles O10. -/
theorem fieldInputsFilterAndFlagOpen : Obligations.FieldInputsFilterAndFlagOpen := by
  refine ⟨fun e s hon hsamples => ?samples, fun n s hon => ⟨fun hlm => ?unmonitored, fun hlm hlost hssc hclosed => ?opened,
    fun hopen => ?cleared⟩⟩
  case samples =>
    have hraised := rawSamples_raised e.n e.level hsamples s
    have hbit (x : BitVec 32) (c : Bool) (i : Fin 32) : (setBit x e.n c).getLsbD i = if i = e.n then c else x.getLsbD i := by
      rw [getLsbD_setBit _ _ _ _ e.n.isLt]
      exact if_congr Fin.val_inj rfl rfl
    have hdio := hraised.dio
    have hquiet : fieldCommand (rawSamples e.n e.level e.samples) s = rawSamples e.n e.level e.samples s := by
      rw [fieldCommand_of_on hon]
      exact withFieldEvent_same (by rw [hraised.frame]; rfl)
    refine ⟨_, congrArg Host.Outcome.next hquiet, ?_, ⟨fun i => ⟨?_, ?_⟩, ?_⟩, hraised.others, hraised.unset⟩
    · rw [hdio]
      exact hraised.frame
    · rw [hdio]
      exact hbit ..
    · rw [hdio]
      dsimp only
      split
      · rename_i htakes
        rw [hbit]
        exact if_congr (by rw [and_iff_left htakes]) rfl rfl
      · rename_i htakes
        exact (if_neg fun h => htakes h.2).symm
    · rw [hdio]
  case unmonitored =>
    have hskip : diOpen n s = s := by rw [diOpen]; exact if_neg (by rw [hlm]; simp)
    change Host.Outcome.next (fieldCommand (diOpen n) s) = _
    rw [fieldCommand_of_on hon, withFieldEvent_same (by rw [hskip]), hskip]
  case opened =>
    have hdoes : diOpen n s = sjRep 0x510 2 n (item n)
        { s with dio := { s.dio with opens := setBit s.dio.opens n true, openLatch := setBit s.dio.openLatch n true } } :=
      if_pos (by rw [hlm, hlost, hssc, hclosed]; simp)
    have hbooked : Booked [2, 3] _ (diOpen n s) := hdoes ▸ Safety.sjRep_booked 0x510 2 n (item n) _
    have hdio : (withFieldEvent (diOpen n) s).dio =
        { s.dio with opens := setBit s.dio.opens n true, openLatch := setBit s.dio.openLatch n true } := by
      rw [withFieldEvent_dio, hdoes, sjRep_dio]
    have hbit (x : BitVec 32) (i : Fin 32) : (setBit x n true).getLsbD i = (decide (i = n) || x.getLsbD i) := by
      rw [getLsbD_setBit _ _ _ _ n.isLt]
      by_cases h : i = n <;> simp [h, Fin.val_inj]
    refine ⟨_, congrArg Host.Outcome.next (fieldCommand_of_on hon _), ?_, fun i => ⟨?_, ?_⟩, ?_, fun hfresh => ?_⟩
    · rw [hdio]
      exact withFieldEvent_booked_of hbooked
    · rw [hdio]
      exact hbit ..
    · rw [hdio]
      exact hbit ..
    · rw [diFiltered_getLsbD, hdio]
      simp [hbit]
    · exact Safety.journals_of_sjRep (u := { s with dio := { s.dio with
        opens := setBit s.dio.opens n true, openLatch := setBit s.dio.openLatch n true } }) hfresh List.prefix_rfl
        (hdoes ▸ (withFieldEvent_booked (diOpen n) s).sjKept)
  case cleared =>
    have hdoes : diOpenCleared n s = sjRep 0x511 0 n (item n) { s with dio := { s.dio with opens := setBit s.dio.opens n false } } :=
      if_pos hopen
    have hbooked : Booked [2, 3] _ (diOpenCleared n s) := hdoes ▸ Safety.sjRep_booked 0x511 0 n (item n) _
    have hdio : (withFieldEvent (diOpenCleared n) s).dio = { s.dio with opens := setBit s.dio.opens n false } := by
      rw [withFieldEvent_dio, hdoes, sjRep_dio]
    refine ⟨_, congrArg Host.Outcome.next (fieldCommand_of_on hon _), ?_, fun i => ?_, fun hfresh => ?_⟩
    · rw [hdio]
      exact withFieldEvent_booked_of hbooked
    · rw [hdio]
      refine (getLsbD_setBit _ _ _ _ n.isLt).trans ?_
      by_cases h : i = n <;> simp [h, Fin.val_inj]
    · exact Safety.journals_of_sjRep (u := { s with dio := { s.dio with opens := setBit s.dio.opens n false } }) hfresh
        List.prefix_rfl (hdoes ▸ (withFieldEvent_booked (diOpenCleared n) s).sjKept)

/-! ### Input groups and sensor supplies (R37, R39) -/

/-- The state `t` is `s` with its input groups in place. -/
def withGroups (s t : State) : State :=
  { s with dio := { s.dio with g0 := t.dio.g0, g1 := t.dio.g1, g2 := t.dio.g2, g3 := t.dio.g3 } }

theorem setGroup_frame (g : Nat) (x : DiGroup) (s : State) : setGroup g x s = withGroups s (setGroup g x s) := by
  rw [withGroups, setGroup]
  split_ifs <;> rfl

theorem diGroup_setGroup (g h : Fin 4) (x : DiGroup) (s : State) :
    diGroup (setGroup g x s) h = if h = g then x else diGroup s h := by
  fin_cases g <;> fin_cases h <;> rfl

theorem diGroup_congr (h : t.dio.g0 = s.dio.g0 ∧ t.dio.g1 = s.dio.g1 ∧ t.dio.g2 = s.dio.g2 ∧ t.dio.g3 = s.dio.g3) (g : Nat) :
    diGroup t g = diGroup s g := by
  obtain ⟨h0, h1, h2, h3⟩ := h
  rw [diGroup, diGroup, h0, h1, h2, h3]

theorem diGroup_of_dio (h : t.dio = s.dio) (g : Nat) : diGroup t g = diGroup s g := by
  rw [diGroup, diGroup, h]

theorem groupByte_lt (x : DiGroup) : groupByte x < 256 := by
  rw [groupByte]
  cases x.glost <;> cases x.rev <;> cases x.sscNow <;> cases x.ssc <;> decide

/-- A bit of GRP_STATUS is that of its group's byte. -/
theorem grpStatus_getLsbD (s : State) (i : Fin 32) :
    (grpStatus s).getLsbD i = (groupByte (diGroup s (i / 8))).testBit (i % 8) := by
  have hlt := i.isLt
  have hsum : groupByte s.dio.g0 + 256 * groupByte s.dio.g1 + 65536 * groupByte s.dio.g2 + 16777216 * groupByte s.dio.g3 =
      2 ^ 8 * (2 ^ 8 * (2 ^ 8 * groupByte s.dio.g3 + groupByte s.dio.g2) + groupByte s.dio.g1) + groupByte s.dio.g0 := by omega
  rw [grpStatus, BitVec.getLsbD_ofNat, decide_eq_true hlt, Bool.true_and, hsum,
    Nat.testBit_two_pow_mul_add _ (groupByte_lt _), Nat.testBit_two_pow_mul_add _ (groupByte_lt _),
    Nat.testBit_two_pow_mul_add _ (groupByte_lt _)]
  rcases (by omega : i.val / 8 = 0 ∨ i.val / 8 = 1 ∨ i.val / 8 = 2 ∨ i.val / 8 = 3) with h | h | h | h
  · rw [h, if_pos (by omega), show i.val % 8 = i by omega]
    rfl
  · rw [h, if_neg (by omega), if_pos (by omega), show i.val % 8 = i - 8 by omega]
    rfl
  · rw [h, if_neg (by omega), if_neg (by omega), if_pos (by omega), show i.val % 8 = i - 8 - 8 by omega]
    rfl
  · rw [h, if_neg (by omega), if_neg (by omega), if_neg (by omega), show i.val % 8 = i - 8 - 8 - 8 by omega]
    rfl

theorem and_not_eq_zero {x y : Word} (h : ∀ i : Fin 32, y.getLsbD i = true → x.getLsbD i = true) : y &&& ~~~x = 0 := by
  apply BitVec.eq_of_getLsbD_eq
  intro i hi
  rw [getLsbD_and_not _ _ hi]
  cases hy : y.getLsbD i with
  | false => simp
  | true => simp [h ⟨i, hi⟩ hy]

theorem groupByte_resumes (x : DiGroup) (i : Nat) (h : (groupByte { x with sscNow := false }).testBit i = true) :
    (groupByte x).testBit i = true := by
  have hlt : i < 8 := by
    by_contra hge
    have hsmall := Nat.testBit_lt_two_pow (lt_of_lt_of_le (groupByte_lt { x with sscNow := false })
      (Nat.pow_le_pow_right (by decide : 0 < 2) (by omega : 8 ≤ i)))
    rw [hsmall] at h
    exact Bool.false_ne_true h
  revert h
  rw [groupByte, groupByte]
  cases x.glost <;> cases x.rev <;> cases x.sscNow <;> cases x.ssc <;> (interval_cases i <;> decide)

/-- A change of a group and of the OPEN flags touches no other part of the field connections. -/
theorem setGroup_opens (g : Fin 4) (x : DiGroup) (o : BitVec 32) (s : State) :
    let u := { setGroup g x s with dio := { (setGroup g x s).dio with opens := o } }
    { s with dio := { s.dio with g0 := u.dio.g0, g1 := u.dio.g1, g2 := u.dio.g2, g3 := u.dio.g3, opens := u.dio.opens } } = u := by
  fin_cases g <;> rfl

theorem setGroup_dio_opens (g : Fin 4) (x : DiGroup) (s : State) : (setGroup g x s).dio.opens = s.dio.opens := by
  fin_cases g <;> rfl

theorem opens_without_group (o : BitVec 32) (g : Fin 4) (i : Fin 32) :
    (o &&& ~~~groupMask g).getLsbD i = (decide (i.val / 8 ≠ g) && o.getLsbD i) := by
  rw [getLsbD_and_not _ _ i.isLt, groupMask_getLsbD, decide_not, Bool.and_comm]

/-- What a field command that writes one record besides its own part `u` leaves. -/
theorem recordedCommand {f : State → State} {code sev key : Nat} {items : Bytes} (hon : s.power.pdOn.getLsbD 5 = true)
    (hf : f s = sjRep code sev key items u) :
    fieldCommand f s = withFieldEvent f s ∧ Booked [2, 3, 21] u (withFieldEvent f s) ∧ (withFieldEvent f s).dio = u.dio :=
  ⟨fieldCommand_of_on hon f, withFieldEvent_booked_of (hf ▸ Safety.sjRep_booked code sev key items u),
    (withFieldEvent_dio f s).trans (by rw [hf, sjRep_dio])⟩

theorem diFiltered_of_lost (hlost : (diGroup s (i.val / 8)).glost = true) : (diFiltered s).getLsbD (i : Fin 32) = false := by
  rw [diFiltered_getLsbD, hlost, Bool.not_true, Bool.and_false]

/-- A supply that resumes clears a flag and sets none. -/
theorem setGroup_resumes_quiet (g : Fin 4) (s : State) :
    newFlag (fieldWords s) (fieldWords (setGroup g { diGroup s g with sscNow := false } s)) = false := by
  have hgroups : grpStatus (setGroup g { diGroup s g with sscNow := false } s) &&& ~~~grpStatus s = 0 := by
    apply and_not_eq_zero
    intro i hi
    rw [grpStatus_getLsbD] at hi ⊢
    have hgroup := diGroup_setGroup g ⟨i.val / 8, by omega⟩ { diGroup s g with sscNow := false } s
    dsimp only at hgroup
    rw [hgroup] at hi
    split at hi
    · rename_i heq
      rw [show i.val / 8 = g from congrArg Fin.val heq]
      exact groupByte_resumes _ _ hi
    · exact hi
  have hsame : fieldWords (setGroup g { diGroup s g with sscNow := false } s) =
      [s.dio.opens, grpStatus (setGroup g { diGroup s g with sscNow := false } s), s.dio.latched.setWidth 32, doOpenWord s,
        doGrpWord s] := by
    fin_cases g <;> rfl
  rw [hsame]
  apply newFlag_eq_false
  intro p hp
  simp only [fieldWords, List.zip_cons_cons, List.zip_nil_right, List.mem_cons, List.not_mem_nil, or_false] at hp
  rcases hp with rfl | rfl | rfl | rfl | rfl
  · exact BitVec.and_not_self _
  · exact hgroups
  · exact BitVec.and_not_self _
  · exact BitVec.and_not_self _
  · exact BitVec.and_not_self _

/-- Settles O11. -/
theorem inputGroupsAndSensorSupplies : Obligations.InputGroupsAndSensorSupplies := by
  refine ⟨fun g rev s hon => ⟨?lost, fun hlost => ?restored⟩, fun g s hon => ⟨?short, fun hshort => ⟨?resumes, ?stays⟩⟩⟩
  case lost =>
    let x := { diGroup s g with glost := true, rev := rev }
    obtain ⟨hdoes, hbooked, hdio⟩ := recordedCommand (f := diGroupLost g rev)
      (u := { setGroup g x s with dio := { (setGroup g x s).dio with opens := (setGroup g x s).dio.opens &&& ~~~groupMask g } }) hon rfl
    have hgroup (h : Fin 4) : diGroup (withFieldEvent (diGroupLost g rev) s) h = if h = g then x else diGroup s h :=
      (diGroup_of_dio hdio h).trans ((diGroup_congr (s := setGroup g x s) ⟨rfl, rfl, rfl, rfl⟩ h).trans (diGroup_setGroup g h x s))
    have hopens (i : Fin 32) : (withFieldEvent (diGroupLost g rev) s).dio.opens.getLsbD i =
        (decide (i.val / 8 ≠ g) && s.dio.opens.getLsbD i) := by
      rw [hdio]
      exact (opens_without_group _ g i).trans (by rw [setGroup_dio_opens])
    refine ⟨_, congrArg Host.Outcome.next hdoes, ?_, (hgroup g).trans (if_pos rfl), fun h hh => (hgroup h).trans (if_neg hh),
      fun i hi => ⟨diFiltered_of_lost ?_, ?_⟩, fun i hi => ?_⟩
    · rw [hdio, setGroup_opens]
      exact hbooked
    · rw [hi, hgroup g, if_pos rfl]
    · rw [hopens, decide_eq_false (not_not_intro hi), Bool.false_and]
    · rw [hopens, decide_eq_true hi, Bool.true_and]
  case restored =>
    let x := { diGroup s g with glost := false, rev := false }
    obtain ⟨hdoes, hbooked, hdio⟩ := recordedCommand (f := diGroupRestored g) (u := setGroup g x s) hon (if_pos hlost)
    have hgroup (h : Fin 4) : diGroup (withFieldEvent (diGroupRestored g) s) h = if h = g then x else diGroup s h :=
      (diGroup_of_dio hdio h).trans (diGroup_setGroup g h x s)
    refine ⟨_, congrArg Host.Outcome.next hdoes, ?_, (hgroup g).trans (if_pos rfl), fun h hh => (hgroup h).trans (if_neg hh)⟩
    rw [hdio]
    exact setGroup_frame g x s ▸ hbooked
  case short =>
    let x := { diGroup s g with sscNow := true, ssc := true }
    obtain ⟨hdoes, hbooked, hdio⟩ := recordedCommand (f := vsShort g)
      (u := { setGroup g x s with dio := { (setGroup g x s).dio with opens := (setGroup g x s).dio.opens &&& ~~~groupMask g } }) hon rfl
    have hgroup (h : Fin 4) : diGroup (withFieldEvent (vsShort g) s) h = if h = g then x else diGroup s h :=
      (diGroup_of_dio hdio h).trans ((diGroup_congr (s := setGroup g x s) ⟨rfl, rfl, rfl, rfl⟩ h).trans (diGroup_setGroup g h x s))
    refine ⟨_, congrArg Host.Outcome.next hdoes, ?_, (hgroup g).trans (if_pos rfl), fun h hh => (hgroup h).trans (if_neg hh),
      fun i => ?_⟩
    · rw [hdio, setGroup_opens]
      exact hbooked
    · rw [hdio]
      exact (opens_without_group _ g i).trans (by rw [setGroup_dio_opens])
  case resumes =>
    have hdoes : vsRetry g true s = setGroup g { diGroup s g with sscNow := false } s := if_pos hshort
    have hquiet : fieldCommand (vsRetry g true) s = setGroup g { diGroup s g with sscNow := false } s := by
      rw [fieldCommand_of_on hon, withFieldEvent_quiet (hdoes ▸ setGroup_resumes_quiet g s), hdoes]
    exact ⟨_, congrArg Host.Outcome.next hquiet, setGroup_frame g _ s, (diGroup_setGroup g g _ s).trans (if_pos rfl),
      fun h hh => (diGroup_setGroup g h _ s).trans (if_neg hh)⟩
  case stays =>
    let x := { diGroup s g with ssc := true }
    have hdoes : vsRetry g false s = setGroup g x s := if_pos hshort
    have hdio : (withFieldEvent (vsRetry g false) s).dio = (setGroup g x s).dio := by rw [withFieldEvent_dio, hdoes]
    have hgroup (h : Fin 4) : diGroup (withFieldEvent (vsRetry g false) s) h = if h = g then x else diGroup s h :=
      (diGroup_of_dio hdio h).trans (diGroup_setGroup g h x s)
    refine ⟨_, congrArg Host.Outcome.next (fieldCommand_of_on hon _), ?_, (hgroup g).trans (if_pos rfl),
      fun h hh => (hgroup h).trans (if_neg hh)⟩
    have hbooked := withFieldEvent_booked (vsRetry g false) s
    rw [hdoes] at hbooked
    rw [hdio]
    exact (setGroup_frame g x s).symm ▸ hbooked

end
end Sys2Proof.Machine
end

section
/-! SUPPORT. The outputs of the field connections (R41 to R49) and the trigger lines (R53, R54): how the commanded outputs follow the
state, what a trip, a latch and an acknowledgement leave. -/

namespace Sys2Proof.Safety

open Sys2Proof.Machine

/-- A change of the field connections does not meet the records. -/
theorem Booked.withDio {ns : List Nat} {u t : State} (h : Booked ns u t) (d : Dio) :
    Booked ns { u with dio := d } { t with dio := d } where
  frame := congrArg (fun x : State => { x with dio := d }) h.frame
  logKept := h.logKept
  sjKept := h.sjKept
  trKept := h.trKept
  poolKept := h.poolKept
  layout := h.layout
  ringsKept := h.ringsKept
  bytesKept := h.bytesKept

theorem Booked.withAcq {ns : List Nat} {u t : State} (h : Booked ns u t) (a : Acq) :
    Booked ns { u with acq := a } { t with acq := a } where
  frame := congrArg (fun x : State => { x with acq := a }) h.frame
  logKept := h.logKept
  sjKept := h.sjKept
  trKept := h.trKept
  poolKept := h.poolKept
  layout := h.layout
  ringsKept := h.ringsKept
  bytesKept := h.bytesKept

/-- After the push itself only records follow: an overflow, a watermark or a lost trace record. -/
theorem perform_desc_booked (k n : Nat) (d : Desc) (s : State) : Booked [2, 3] (ringPut n d s).1 (perform (k + 1) (.desc n d) s) := by
  have hwork (u : State) (w : Work) (hw : workRings w = [2, 3]) : Booked [2, 3] u (perform k w u) := hw ▸ perform_booked k w u
  have hgated (u : State) (code key : Nat) (f : Nat → State → Record) :
      Booked [2, 3] u (match repeatGate code key u with
        | (t, some m) => perform k (.tr (f m t)) t
        | (t, none) => t) := by
    have hgate := repeatGate_booked [2, 3] code key u
    split <;> rename_i heq <;> rw [heq] at hgate
    · exact hgate.trans (hwork _ _ rfl)
    · exact hgate
  have hite {c : Prop} [Decidable c] {u t : State} (h : Booked [2, 3] u t) : Booked [2, 3] u (if c then t else u) := by
    split
    · exact h
    · exact .refl _ _
  have hdropped : Booked [2, 3] (ringPut n d s).1 (if n = 3 ∧ (ringPut n d s).2.dropped then
      (if trDropDue (trDropped (ringPut n d s).1) then
        perform k (.sj (recordOf 0xC05 1 (item (trDropped (ringPut n d s).1).log.trDropMissed) 0 (ringPut n d s).1))
          (trDropSaid (trDropped (ringPut n d s).1))
      else trDropped (ringPut n d s).1) else (ringPut n d s).1) := by
    refine hite ((trDropped_booked _ _).trans (hite ?_))
    exact (trDropSaid_booked _ _).trans (hwork _ _ rfl)
  refine (hdropped.trans (hite ?_)).trans (hite ?_)
  · exact hgated _ _ _ fun m t => recordOf 0x124 1 (item n ++ item (ringGet (ringPut n d s).1 n).policy.toNat ++ item (m + 1)) m t
  · exact hgated _ _ _ fun m t =>
      recordOf 0x125 0 (item n ++ item (ringFill (ringGet (ringPut n d s).1 n)) ++ item (ringDepth (ringGet (ringPut n d s).1 n))) m t

end Sys2Proof.Safety

namespace Sys2Proof.Machine

open Safety (Booked)

section
variable {s t u w : State}

set_option Elab.async false

theorem decide_fin_eq {n : Nat} (i k : Fin n) : decide (i.val = k.val) = decide (i = k) := by simp [Fin.val_inj]

/-- Setting a bit: its own place reads 1 and the others as before. -/
theorem getLsbD_setBit_true (x : BitVec 16) (k i : Fin 16) : (setBit x k true).getLsbD i = (decide (i = k) || x.getLsbD i) := by
  rw [getLsbD_setBit _ _ _ _ k.isLt]
  by_cases h : i = k <;> simp [h, Fin.val_inj]

theorem getLsbD_setBit_false (x : BitVec 16) (k i : Fin 16) : (setBit x k false).getLsbD i = (decide (i ≠ k) && x.getLsbD i) := by
  rw [getLsbD_setBit _ _ _ _ k.isLt]
  by_cases h : i = k <;> simp [h, Fin.val_inj]

/-! ### The outputs that are on -/

theorem refreshOutputs_on (s : State) (i : Fin 16) : (refreshOutputs s).dio.on.getLsbD i = outputOn s i :=
  getLsbD_ofNat_maskOf _ i.isLt i.isLt

theorem outputOn_refreshOutputs (s : State) (i : Fin 16) : outputOn (refreshOutputs s) i = outputOn s i := rfl

theorem outputOn_of_tripOff {i : Nat} (h : s.dio.tripOff.getLsbD i = true) : outputOn s i = false := by
  rw [outputOn, h]
  simp

theorem outputOn_of_latched {i : Nat} (h : s.dio.latched.getLsbD i = true) : outputOn s i = false := by
  rw [outputOn, h]
  simp

theorem outputOn_of_waitCommit {i : Nat} (h : s.dio.waitCommit.getLsbD i = true) : outputOn s i = false := by
  rw [outputOn, h]
  simp

theorem outputOn_of_unsupplied {i : Nat} (h : doSupplied s i = false) : outputOn s i = false := by
  rw [outputOn, h]
  simp

/-- What decides on an output stands in parts of the state that no record touches. -/
theorem Bookkept.outputOn_eq (h : Bookkept s t) (i : Nat) : outputOn t i = outputOn s i := by
  obtain ⟨_, _, _, _, rfl, -⟩ := h
  rfl

/-- A field command that writes records and then lets the outputs follow. -/
theorem drivenCommand {f : State → State} (hon : s.power.pdOn.getLsbD 5 = true) (hf : f s = refreshOutputs w)
    (hw : Booked [2, 3] u w) :
    fieldCommand f s = withFieldEvent f s ∧ (withFieldEvent f s).dio = (refreshOutputs w).dio ∧
      Booked [2, 3, 21] { u with dio := (refreshOutputs w).dio } (withFieldEvent f s) ∧
      Bookkept (refreshOutputs w) (withFieldEvent f s) := by
  have hdriven : Booked [2, 3] { u with dio := (refreshOutputs w).dio } (f s) := by
    rw [hf]
    exact hw.withDio _
  refine ⟨fieldCommand_of_on hon f, ?_, withFieldEvent_booked_of hdriven, ?_⟩
  · rw [withFieldEvent_dio, hf]
  · rw [← hf]
    exact withFieldEvent_bookkept f s

/-! ### Latches -/

theorem latchOutput_dio (cause k : Nat) (s : State) :
    (latchOutput cause k s).dio = { s.dio with latched := setBit s.dio.latched k true } := by
  rw [latchOutput, sjRep_dio]

theorem latchOutput_booked (cause k : Nat) (s : State) :
    Booked [2, 3] { s with dio := { s.dio with latched := setBit s.dio.latched k true } } (latchOutput cause k s) :=
  Safety.sjRep_booked ..

theorem latchOutputs_booked (cause : Nat) (ks : List (Fin 16)) (s : State) :
    let t := ks.foldl (fun (t : State) (k : Fin 16) => latchOutput cause k t) s
    t.dio = { s.dio with latched := t.dio.latched } ∧ Booked [2, 3] { s with dio := { s.dio with latched := t.dio.latched } } t ∧
      ∀ i : Fin 16, t.dio.latched.getLsbD i = (decide (i ∈ ks) || s.dio.latched.getLsbD i) := by
  induction ks generalizing s with
  | nil => exact ⟨rfl, .refl _ _, fun i => by simp⟩
  | cons k ks ih =>
    obtain ⟨hdio, hbooked, hbits⟩ := ih (latchOutput cause k s)
    have hfirst := latchOutput_dio cause k s
    refine ⟨hdio.trans (by rw [hfirst]; rfl), ?_, fun i => ?_⟩
    · have hstep := (latchOutput_booked cause k s).withDio { s.dio with
        latched := (ks.foldl (fun (t : State) (k : Fin 16) => latchOutput cause k t) (latchOutput cause k s)).dio.latched }
      rw [hfirst] at hbooked
      exact hstep.trans hbooked
    · refine (hbits i).trans ?_
      rw [hfirst]
      dsimp only
      rw [getLsbD_setBit_true]
      by_cases hik : i = k <;> simp [hik]

/-! ### Acknowledgements -/

theorem sjAcked_gate (mask : BitVec 16) (ks : List Nat) (acc : State × Nat × Nat) :
    let gate := fun (acc : State × Nat × Nat) (k : Nat) =>
      if mask.getLsbD k then
        match repeatGate 0x522 k acc.1 with
        | (t, some m) => (t, acc.2.1 + 2 ^ k, acc.2.2 + m)
        | (t, none) => (t, acc.2)
      else acc
    Booked [2, 3] acc.1 (ks.foldl gate acc).1 ∧ Bookkept acc.1 (ks.foldl gate acc).1 := by
  intro gate
  have hstep (acc : State × Nat × Nat) (k : Nat) : Booked [2, 3] acc.1 (gate acc k).1 ∧ Bookkept acc.1 (gate acc k).1 := by
    have hbooked := Safety.repeatGate_booked [2, 3] 0x522 k acc.1
    have hkept := repeatGate_bookkept 0x522 k acc.1
    simp only [gate]
    split
    · split <;> rename_i heq <;> rw [heq] at hbooked hkept <;> exact ⟨hbooked, hkept⟩
    · exact ⟨.refl _ _, .refl _⟩
  induction ks generalizing acc with
  | nil => exact ⟨.refl _ _, .refl _⟩
  | cons k ks ih =>
    exact ⟨(hstep acc k).1.trans (ih (gate acc k)).1, (hstep acc k).2.trans (ih (gate acc k)).2⟩

theorem sjAcked_booked (mask : BitVec 16) (source : Nat) (s : State) :
    Booked [2, 3] s (sjAcked mask source s) ∧ Bookkept s (sjAcked mask source s) := by
  obtain ⟨hbooked, hkept⟩ := sjAcked_gate mask (List.range 16) (s, 0, 0)
  unfold sjAcked
  dsimp only
  split
  · exact ⟨hbooked, hkept⟩
  · exact ⟨hbooked.trans (Safety.sjMissed_booked ..), hkept.trans (sjMissed_bookkept ..)⟩

/-- What acknowledging the outputs `ks` of `mask` does to them (R43). -/
theorem ackOutput_fold (mask : BitVec 16) (ks : List (Fin 16)) (s : State) :
    let t := ks.foldl (fun (t : State) (k : Fin 16) => if mask.getLsbD k then ackOutput k t else t) s
    t = { s with dio := { s.dio with latched := t.dio.latched, tripOff := t.dio.tripOff, waitCommit := t.dio.waitCommit
                                     retry := ks.foldl (fun (m : Sparse DoRetryState) (k : Fin 16) => if mask.getLsbD k then sput {} m k {} else m) s.dio.retry } } ∧
      ∀ i : Fin 16, t.dio.latched.getLsbD i = (s.dio.latched.getLsbD i && !(decide (i ∈ ks) && mask.getLsbD i)) ∧
        t.dio.tripOff.getLsbD i = (s.dio.tripOff.getLsbD i && !(decide (i ∈ ks) && mask.getLsbD i && s.dio.latched.getLsbD i)) ∧
        t.dio.waitCommit.getLsbD i =
          (s.dio.waitCommit.getLsbD i || (decide (i ∈ ks) && mask.getLsbD i && s.dio.latched.getLsbD i)) := by
  induction ks generalizing s with
  | nil => exact ⟨rfl, fun i => by simp⟩
  | cons k ks ih =>
    obtain ⟨hframe, hbits⟩ := ih (if mask.getLsbD k then ackOutput k s else s)
    cases hmask : mask.getLsbD k with
    | false =>
      rw [hmask] at hframe hbits
      rw [List.foldl_cons, List.foldl_cons, hmask]
      refine ⟨hframe, fun i => ?_⟩
      obtain ⟨hl, ht, hw⟩ := hbits i
      by_cases hik : i = k
      · rw [hik] at hl ht hw ⊢
        rw [hl, ht, hw, hmask]
        simp
      · rw [hl, ht, hw]
        simp [hik]
    | true =>
      rw [hmask] at hframe hbits
      rw [List.foldl_cons, List.foldl_cons, hmask]
      cases hlatched : s.dio.latched.getLsbD k with
      | false =>
        have hdoes : ackOutput k s = setRetry k {} s := by rw [ackOutput, hlatched]; rfl
        rw [if_pos rfl, hdoes] at hframe hbits ⊢
        refine ⟨hframe, fun i => ?_⟩
        generalize ks.foldl (fun (t : State) (k : Fin 16) => if mask.getLsbD k then ackOutput k t else t) (setRetry k {} s) = t at hbits ⊢
        obtain ⟨hl, ht, hw⟩ := hbits i
        dsimp only [setRetry] at hl ht hw
        by_cases hik : i = k
        · rw [hik] at hl ht hw ⊢
          rw [hl, ht, hw, hlatched]
          simp
        · rw [hl, ht, hw]
          simp [hik]
      | true =>
        have hdoes : ackOutput k s = { s with dio := { s.dio with
            retry := sput {} s.dio.retry k {}, latched := setBit s.dio.latched k false, tripOff := setBit s.dio.tripOff k false
            waitCommit := setBit s.dio.waitCommit k true } } := by rw [ackOutput, hlatched]; rfl
        rw [if_pos rfl, hdoes] at hframe hbits ⊢
        refine ⟨hframe, fun i => ?_⟩
        obtain ⟨hl, ht, hw⟩ := hbits i
        dsimp only at hl ht hw
        rw [getLsbD_setBit_false] at hl ht hw
        rw [getLsbD_setBit_false] at ht
        rw [getLsbD_setBit_true] at hw
        by_cases hik : i = k
        · rw [hik] at hl ht hw ⊢
          rw [hl, ht, hw, hlatched, hmask]
          simp
        · rw [hl, ht, hw]
          simp [hik]

/-! ### Trips, retries and overloads (R41, R43, R44) -/

/-- An output that trips, before the outputs follow: its TRIPPED bit, its retry count and, where it latches, its latch. -/
theorem tripOutput_of_on (k : Fin 16) (hon : s.dio.on.getLsbD k = true) :
    let r := retryOf s k
    let n := if r.retrying then r.retries + 1 else r.retries
    ∃ w latched, tripOutput k s = refreshOutputs w ∧ Booked [2, 3] { s with dio := w.dio } w ∧
      w.dio = { s.dio with
        tripped := setBit s.dio.tripped k true, tripOff := setBit s.dio.tripOff k true
        retry := sput {} s.dio.retry k { retries := n, retrying := false }, latched := latched } ∧
      ∀ i : Fin 16, latched.getLsbD i =
        ((decide (i = k) && (s.dioc.doPolicy.getLsbD k || decide (10 ≤ n.toNat))) || s.dio.latched.getLsbD i) := by
  intro r n
  let s1 := setRetry k { retries := n, retrying := false }
      { s with dio := { s.dio with tripped := setBit s.dio.tripped k true, tripOff := setBit s.dio.tripOff k true } }
  let s2 := sjRep 0x520 1 k (item k ++ item r.retries.toNat) s1
  have hdoes : tripOutput k s = refreshOutputs (if s.dioc.doPolicy.getLsbD k ∨ n.toNat ≥ 10 then latchOutput 0 k s2 else s2) := by
    rw [tripOutput, if_pos hon]
  have hrecord : Booked [2, 3] s1 s2 := Safety.sjRep_booked ..
  have hdio : s2.dio = s1.dio := sjRep_dio ..
  by_cases hlatch : s.dioc.doPolicy.getLsbD k = true ∨ n.toNat ≥ 10
  · rw [if_pos hlatch] at hdoes
    have hlatched := latchOutput_dio 0 k s2
    refine ⟨latchOutput 0 k s2, setBit s.dio.latched k true, hdoes, ?_, ?_, fun i => ?_⟩
    · have hbooked := latchOutput_booked 0 k s2
      rw [← hlatched] at hbooked
      exact (hrecord.withDio (latchOutput 0 k s2).dio).trans hbooked
    · rw [hlatched, hdio]
      rfl
    · rw [getLsbD_setBit_true]
      have hdecide : (s.dioc.doPolicy.getLsbD k || decide (10 ≤ n.toNat)) = true := by
        rw [Bool.or_eq_true, decide_eq_true_iff]
        exact hlatch
      rw [hdecide, Bool.and_true]
  · rw [if_neg hlatch] at hdoes
    rw [not_or, Bool.not_eq_true] at hlatch
    obtain ⟨hpolicy, hfew⟩ := hlatch
    refine ⟨s2, s.dio.latched, hdoes, ?_, hdio, fun i => ?_⟩
    · have hbooked := hrecord.withDio s2.dio
      exact hbooked
    · rw [hpolicy, decide_eq_false hfew, Bool.or_false, Bool.and_false, Bool.false_or]

/-- What a trip leaves of an output that is on. -/
theorem doTrip_leaves (e : Trip) (hpd : s.power.pdOn.getLsbD 5 = true) (hon : s.dio.on.getLsbD e.k = true) :
    let u := if e.sameAck = true ∧ retryOf s e.k = {} then setRetry e.k (sget {} s.dio.ackPrev e.k) s else s
    let r := retryOf u e.k
    let n := if r.retrying then r.retries + 1 else r.retries
    ∃ t, exec (.doTrip e) s = .next t ∧
      Booked [2, 3, 21] { s with dio := { s.dio with
        tripped := t.dio.tripped, tripOff := t.dio.tripOff, retry := t.dio.retry, latched := t.dio.latched, on := t.dio.on,
        openLoad := t.dio.openLoad, backfeed := t.dio.backfeed, readback := t.dio.readback } } t ∧
      t.dio.on.getLsbD e.k = false ∧ t.dio.retry = sput {} u.dio.retry e.k { retries := n, retrying := false } ∧
      ∀ i : Fin 16, t.dio.tripped.getLsbD i = (decide (i = e.k) || s.dio.tripped.getLsbD i) ∧
        t.dio.tripOff.getLsbD i = (decide (i = e.k) || s.dio.tripOff.getLsbD i) ∧
        t.dio.latched.getLsbD i =
          ((decide (i = e.k) && (s.dioc.doPolicy.getLsbD e.k || decide (10 ≤ n.toNat))) || s.dio.latched.getLsbD i) := by
  intro u r n
  have hdoes : doTrip e.k e.sameAck s = tripOutput e.k u := by
    rw [doTrip]
    congr 1
    exact if_congr (by rw [hon]; simp) rfl rfl
  obtain ⟨m, hu⟩ : ∃ m, u = { s with dio := { s.dio with retry := m } } := by
    by_cases hack : e.sameAck = true ∧ retryOf s e.k = {}
    · exact ⟨_, if_pos hack⟩
    · exact ⟨_, if_neg hack⟩
  clear_value u
  obtain ⟨w, latched, hw, hbooked, hdio, hlatched⟩ := tripOutput_of_on (s := u) e.k (by rw [hu]; exact hon)
  obtain ⟨hcommand, hleft, hleaves, -⟩ := drivenCommand hpd (hdoes.trans hw) hbooked
  have hout : outputOn w e.k = false := outputOn_of_tripOff (by rw [hdio, getLsbD_setBit_true]; simp)
  have hdriven : (refreshOutputs w).dio = { w.dio with
      on := (refreshOutputs w).dio.on, openLoad := (refreshOutputs w).dio.openLoad, backfeed := (refreshOutputs w).dio.backfeed
      readback := (refreshOutputs w).dio.readback } := rfl
  rw [hdio, hu] at hdriven
  refine ⟨_, congrArg Host.Outcome.next hcommand, ?_, ?_, ?_, fun i => ⟨?_, ?_, ?_⟩⟩
  · rw [hleft]
    rw [hu] at hleaves
    exact (congrArg (fun d : Dio => Booked [2, 3, 21] { s with dio := d } (withFieldEvent (doTrip e.k e.sameAck) s))
      (by rw [hdriven])).mp hleaves
  · rw [hleft, refreshOutputs_on, hout]
  · rw [hleft]
    exact congrArg Dio.retry hdio
  · rw [hleft]
    exact (congrArg (fun d : Dio => d.tripped.getLsbD i) hdio).trans (by rw [hu]; exact getLsbD_setBit_true ..)
  · rw [hleft]
    exact (congrArg (fun d : Dio => d.tripOff.getLsbD i) hdio).trans (by rw [hu]; exact getLsbD_setBit_true ..)
  · rw [hleft]
    exact (congrArg (fun d : Dio => d.latched.getLsbD i) hdio).trans
      ((hlatched i).trans (by rw [show u.dioc = s.dioc by rw [hu], show u.dio.latched = s.dio.latched by rw [hu]]))

theorem doRetry_leaves (k : Fin 16) (hpd : s.power.pdOn.getLsbD 5 = true) (hoff : s.dio.tripOff.getLsbD k = true)
    (hlatched : s.dio.latched.getLsbD k = false) (hauto : s.dioc.doPolicy.getLsbD k = false) (hcmd : pairedCommand s k = true) :
    ∃ t, exec (.doRetry k) s = .next t ∧
      Booked [2, 3, 21] { s with dio := { s.dio with
        tripOff := t.dio.tripOff, retry := sput {} s.dio.retry k { retryOf s k with retrying := true }, on := t.dio.on,
        openLoad := t.dio.openLoad, backfeed := t.dio.backfeed, readback := t.dio.readback } } t ∧
      (∀ i : Fin 16, t.dio.tripOff.getLsbD i = (decide (i ≠ k) && s.dio.tripOff.getLsbD i)) ∧
      t.dio.on.getLsbD k = outputOn t k := by
  have hdoes : doRetry k s = refreshOutputs (setRetry k { retryOf s k with retrying := true }
      { s with dio := { s.dio with tripOff := setBit s.dio.tripOff k false } }) := by
    rw [doRetry, if_pos]
    rw [hoff, hlatched, hauto, hcmd]
    simp
  obtain ⟨hcommand, hleft, hleaves, hkept⟩ := drivenCommand hpd hdoes (.refl _ _)
  refine ⟨_, congrArg Host.Outcome.next hcommand, ?_, fun i => ?_, ?_⟩
  · rw [hleft]
    exact hleaves
  · rw [hleft]
    exact getLsbD_setBit_false ..
  · rw [hleft, hkept.outputOn_eq, outputOn_refreshOutputs, refreshOutputs_on]

/-- The outputs of a group (R41): the first eight are group A. -/
def groupOutputs (b : Bool) : List (Fin 16) :=
  if b then [8, 9, 10, 11, 12, 13, 14, 15] else [0, 1, 2, 3, 4, 5, 6, 7]

theorem mem_groupOutputs : ∀ (b : Bool) (i : Fin 16), decide (i ∈ groupOutputs b) = decide (i.val / 8 = b2n b) := by decide

theorem latchGroup_leaves (b : Bool) (hpd : s.power.pdOn.getLsbD 5 = true) :
    ∃ t, exec (.groupOverload b) s = .next t ∧
      Booked [2, 3, 21] { s with
        dio := { s.dio with latched := t.dio.latched, on := t.dio.on, openLoad := t.dio.openLoad, backfeed := t.dio.backfeed
                            readback := t.dio.readback }
        dioc := { s.dioc with golA := !b || s.dioc.golA, golB := b || s.dioc.golB } } t ∧
      ∀ i : Fin 16, t.dio.latched.getLsbD i = (decide (i.val / 8 = b2n b) || s.dio.latched.getLsbD i) ∧
        (i.val / 8 = b2n b → t.dio.on.getLsbD i = false) := by
  let s1 := { s with dioc := { s.dioc with golA := !b || s.dioc.golA, golB := b || s.dioc.golB } }
  let w := (groupOutputs b).foldl (fun (t : State) (k : Fin 16) => latchOutput 1 k t) s1
  have hdoes : latchGroup b s = refreshOutputs w := by cases b <;> rfl
  obtain ⟨hdio, hbooked, hlatched⟩ := latchOutputs_booked 1 (groupOutputs b) s1
  obtain ⟨hcommand, hleft, hleaves, -⟩ := drivenCommand hpd hdoes hbooked
  have hbit (i : Fin 16) : (refreshOutputs w).dio.latched.getLsbD i = (decide (i.val / 8 = b2n b) || s.dio.latched.getLsbD i) :=
    (hlatched i).trans (by rw [mem_groupOutputs])
  have hdriven : (refreshOutputs w).dio = { w.dio with
      on := (refreshOutputs w).dio.on, openLoad := (refreshOutputs w).dio.openLoad, backfeed := (refreshOutputs w).dio.backfeed
      readback := (refreshOutputs w).dio.readback } := rfl
  rw [show w.dio = { s.dio with latched := w.dio.latched } from hdio] at hdriven
  refine ⟨_, congrArg Host.Outcome.next hcommand, ?_, fun i => ⟨?_, fun hi => ?_⟩⟩
  · rw [hleft]
    exact (congrArg (fun d : Dio => Booked [2, 3, 21] { s1 with dio := d } (withFieldEvent (latchGroup b) s)) hdriven).mp hleaves
  · rw [hleft]
    exact hbit i
  · rw [hleft, refreshOutputs_on]
    exact outputOn_of_latched ((hbit i).trans (by rw [decide_eq_true hi, Bool.true_or]))

theorem write_doAck (hawake : awake s = true) (hpd : s.power.pdOn.getLsbD 5 = true) (v : Word) :
    exec (.doAckWrite v) s = .next (fieldCommand (ackOutputs 0 (v.setWidth 16)) s) := by
  have hat := accessOf_at (addr := 0x4015002C) hawake rfl rfl hpd
  exact congrArg Host.Outcome.next ((writeAccess_of_at v hat).trans rfl)

theorem range_sixteen : List.range 16 = (List.finRange 16).map Fin.val := by decide

theorem ackOutputs_leaves (v : Word) (hpd : s.power.pdOn.getLsbD 5 = true) (hany : v.setWidth 16 ≠ (0 : BitVec 16)) :
    let t := fieldCommand (ackOutputs 0 (v.setWidth 16)) s
    Booked [2, 3, 21] { s with dio := { s.dio with
      latched := t.dio.latched, tripOff := t.dio.tripOff, waitCommit := t.dio.waitCommit, on := t.dio.on
      openLoad := t.dio.openLoad, backfeed := t.dio.backfeed, readback := t.dio.readback
      ackPrev := s.dio.retry.filter fun x => v.getLsbD x.1 && decide (x.1 < 16)
      retry := (List.range 16).foldl (fun m k => if v.getLsbD k then sput {} m k {} else m) s.dio.retry } } t ∧
    ∀ i : Fin 16, t.dio.latched.getLsbD i = (s.dio.latched.getLsbD i && !v.getLsbD i) ∧
      t.dio.tripOff.getLsbD i = (s.dio.tripOff.getLsbD i && !(v.getLsbD i && s.dio.latched.getLsbD i)) ∧
      t.dio.waitCommit.getLsbD i = (s.dio.waitCommit.getLsbD i || (v.getLsbD i && s.dio.latched.getLsbD i)) ∧
      (t.dio.waitCommit.getLsbD i = true → t.dio.on.getLsbD i = false) := by
  intro t
  let mask : BitVec 16 := v.setWidth 16
  have hmask (i : Fin 16) : mask.getLsbD i = v.getLsbD i := by
    rw [BitVec.getLsbD_setWidth, decide_eq_true i.isLt, Bool.true_and]
  have hretry : (List.finRange 16).foldl (fun (m : Sparse DoRetryState) (k : Fin 16) => if mask.getLsbD k then sput {} m k {} else m)
      s.dio.retry = (List.range 16).foldl (fun m k => if v.getLsbD k then sput {} m k {} else m) s.dio.retry := by
    rw [range_sixteen, List.foldl_map]
    congr 1
    funext m k
    rw [hmask]
  have hcleared : clearedStates mask s = s.dio.retry.filter fun x => v.getLsbD x.1 && decide (x.1 < 16) := by
    rw [clearedStates]
    congr 1
    funext x
    rw [BitVec.getLsbD_setWidth, Bool.and_comm]
  obtain ⟨hframe, hbits⟩ := ackOutput_fold mask (List.finRange 16) s
  rw [hretry] at hframe
  have hrange : (List.range 16).foldl (fun t k => if mask.getLsbD k then ackOutput k t else t) s =
      (List.finRange 16).foldl (fun (t : State) (k : Fin 16) => if mask.getLsbD k then ackOutput k t else t) s := by
    rw [range_sixteen, List.foldl_map]
  generalize (List.finRange 16).foldl (fun (t : State) (k : Fin 16) => if mask.getLsbD k then ackOutput k t else t) s = u at *
  let u1 := { u with dio := { u.dio with ackPrev := clearedStates mask s } }
  let w := sjAcked mask 0 u1
  obtain ⟨hbooked, hkept⟩ := sjAcked_booked mask 0 u1
  have hdoes : ackOutputs 0 mask s = refreshOutputs w := by
    rw [ackOutputs, if_neg hany]
    dsimp only
    rw [hrange]
  have hw : w.dio = u1.dio := hkept.dio
  obtain ⟨hcommand, hleft, hleaves, -⟩ := drivenCommand hpd hdoes hbooked
  have ht : t = withFieldEvent (ackOutputs 0 mask) s := hcommand
  clear_value t
  subst ht
  have hdriven : (refreshOutputs w).dio = { w.dio with
      on := (refreshOutputs w).dio.on, openLoad := (refreshOutputs w).dio.openLoad, backfeed := (refreshOutputs w).dio.backfeed
      readback := (refreshOutputs w).dio.readback } := rfl
  rw [hw] at hdriven
  have hbit (i : Fin 16) : decide (i ∈ List.finRange 16) = true := decide_eq_true (List.mem_finRange i)
  have hlatched : (refreshOutputs w).dio.latched = u.dio.latched := by rw [hdriven]
  have htrip : (refreshOutputs w).dio.tripOff = u.dio.tripOff := by rw [hdriven]
  have hwait : (refreshOutputs w).dio.waitCommit = u.dio.waitCommit := by rw [hdriven]
  refine ⟨?_, fun i => ?_⟩
  · rw [hleft, ← hcleared, hlatched, htrip, hwait]
    have hu1 : { s with dio := (refreshOutputs w).dio } = { u1 with dio := (refreshOutputs w).dio } := by
      rw [show u1 = { u with dio := { u.dio with ackPrev := clearedStates mask s } } from rfl, hframe]
    rw [← hu1] at hleaves
    rw [show u1.dio = { u.dio with ackPrev := clearedStates mask s } from rfl,
      show u.dio = _ from congrArg State.dio hframe] at hdriven
    exact (congrArg (fun d : Dio => Booked [2, 3, 21] { s with dio := d } (withFieldEvent (ackOutputs 0 mask) s)) hdriven).mp hleaves
  · obtain ⟨hl, ht, hc⟩ := hbits i
    rw [hbit, hmask, Bool.true_and] at hl ht hc
    rw [hleft]
    refine ⟨hlatched ▸ hl, htrip ▸ ht, hwait ▸ hc, fun hwaits => ?_⟩
    · rw [refreshOutputs_on]
      exact outputOn_of_waitCommit hwaits

/-- Settles O12. -/
theorem outputsTripRetryLatchAndAreAcknowledged : Obligations.OutputsTripRetryLatchAndAreAcknowledged := by
  refine ⟨fun e s hpd hon => doTrip_leaves e hpd hon, fun k s hpd => ⟨fun hoff hlatched hauto hcmd => ?retried, fun hon => ?reset,
    fun hon hauto hnine hretrying => ?tenth⟩, fun b s hpd => latchGroup_leaves b hpd, fun v s hawake hpd => ⟨fun hnone => ?none,
    fun hany => ?acked⟩⟩
  case retried => exact doRetry_leaves k hpd hoff hlatched hauto hcmd
  case reset =>
    have hdoes : doRetryCountReset k s = setRetry k {} s := if_pos hon
    change Host.Outcome.next (fieldCommand (doRetryCountReset k) s) = _
    rw [fieldCommand_of_on hpd, withFieldEvent_same (by rw [hdoes]; rfl), hdoes]
    rfl
  case tenth =>
    obtain ⟨t, hdoes, -, -, -, hbits⟩ := doTrip_leaves { k := k } hpd hon
    refine ⟨t, hdoes, ?_⟩
    rw [(hbits k).2.2]
    have hunacked : ¬ (false = true ∧ retryOf s k = {}) := fun h => Bool.false_ne_true h.1
    have hten : 10 ≤ ((retryOf s k).retries + 1).toNat := by
      rw [BitVec.toNat_add, hnine]
      decide
    rw [if_neg hunacked, if_pos hretrying, decide_eq_true hten]
    simp
  case none =>
    have hnothing : ackOutputs 0 (v.setWidth 16) s = s := by rw [ackOutputs, if_pos hnone]
    rw [write_doAck hawake hpd, fieldCommand_of_on hpd, withFieldEvent_same (by rw [hnothing]), hnothing]
  case acked =>
    exact ⟨_, write_doAck hawake hpd v, ackOutputs_leaves v hpd hany⟩

/-! ### Open load, back-feed and missing supply (R45 to R48) -/

theorem doOpenWord_getLsbD (s : State) (i : Fin 32) : (doOpenWord s).getLsbD i =
    if i.val < 16 then s.dio.openLoad.getLsbD i else (s.dio.backfeed &&& ~~~s.dio.on).getLsbD (i - 16) := by
  have hlow := s.dio.openLoad.isLt
  rw [doOpenWord, BitVec.getLsbD_ofNat, decide_eq_true i.isLt, Bool.true_and, Nat.add_comm, show (65536 : Nat) = 2 ^ 16 from rfl,
    Nat.testBit_two_pow_mul_add _ hlow]
  rfl

/-- A change of the open-load flags that sets none raises no event. -/
theorem clearOpenLoad_quiet (k : Nat) (hk : k < 16) (s : State) :
    let t := { s with dio := { s.dio with openLoad := setBit s.dio.openLoad k false } }
    newFlag (fieldWords s) (fieldWords t) = false := by
  intro t
  have hopen : doOpenWord t &&& ~~~doOpenWord s = 0 := by
    apply and_not_eq_zero
    intro i hi
    rw [doOpenWord_getLsbD] at hi ⊢
    split at hi
    · rename_i hlow
      rw [if_pos hlow]
      rw [show t.dio.openLoad = setBit s.dio.openLoad k false from rfl, getLsbD_setBit _ _ _ _ hk] at hi
      split at hi
      · exact absurd hi Bool.false_ne_true
      · exact hi
    · rename_i hhigh
      rw [if_neg hhigh]
      exact hi
  apply newFlag_eq_false
  intro p hp
  simp only [fieldWords, List.zip_cons_cons, List.zip_nil_right, List.mem_cons, List.not_mem_nil, or_false] at hp
  rcases hp with rfl | rfl | rfl | rfl | rfl
  · exact BitVec.and_not_self _
  · exact BitVec.and_not_self _
  · exact BitVec.and_not_self _
  · exact hopen
  · exact BitVec.and_not_self _

theorem doOpenLoad_skipped (e : LoadCheck) (hpd : s.power.pdOn.getLsbD 5 = true)
    (h : s.dio.on.getLsbD e.k = true ∧ s.dioc.doShared.getLsbD e.k = true ∨
      s.dio.on.getLsbD e.k = false ∧ s.dio.backfeed.getLsbD e.k = true) : exec (.doOpenLoad e) s = .next s := by
  have hskip : doOpenLoad e.k e.light s = s := by
    rw [doOpenLoad]
    refine if_pos (h.imp id fun h => ?_)
    rw [h.1, h.2]
    exact ⟨rfl, rfl⟩
  change Host.Outcome.next (fieldCommand (doOpenLoad e.k e.light) s) = _
  rw [fieldCommand_of_on hpd, withFieldEvent_same (by rw [hskip]), hskip]

/-- The open-load detection of an output that is looked at (R45). -/
theorem doOpenLoad_of_seen (e : LoadCheck) (h : s.dio.on.getLsbD e.k = true ∧ s.dioc.doShared.getLsbD e.k = false ∨
      s.dio.on.getLsbD e.k = false ∧ s.dio.backfeed.getLsbD e.k = false) :
    doOpenLoad e.k e.light s =
      if !e.light then { s with dio := { s.dio with openLoad := setBit s.dio.openLoad e.k false } }
      else sjRep 0x523 1 e.k (item e.k ++ item (if s.dio.on.getLsbD e.k then 0 else 1))
        { s with dio := { s.dio with openLoad := setBit s.dio.openLoad e.k true, openSeen := setBit s.dio.openSeen e.k true } } := by
  rw [doOpenLoad]
  refine if_neg fun hskip => ?_
  rcases h with ⟨hon, hshared⟩ | ⟨hoff, hfed⟩
  · rw [hon, hshared] at hskip
    simp at hskip
  · rw [hoff, hfed] at hskip
    simp at hskip

theorem doOpenLoad_leaves (e : LoadCheck) (hpd : s.power.pdOn.getLsbD 5 = true)
    (h : s.dio.on.getLsbD e.k = true ∧ s.dioc.doShared.getLsbD e.k = false ∨
      s.dio.on.getLsbD e.k = false ∧ s.dio.backfeed.getLsbD e.k = false) :
    ∃ t, exec (.doOpenLoad e) s = .next t ∧
      (e.light = true →
        Booked [2, 3, 21] { s with dio := { s.dio with openLoad := t.dio.openLoad, openSeen := t.dio.openSeen } } t ∧
        ∀ i : Fin 16, t.dio.openLoad.getLsbD i = (decide (i = e.k) || s.dio.openLoad.getLsbD i) ∧
          t.dio.openSeen.getLsbD i = (decide (i = e.k) || s.dio.openSeen.getLsbD i)) ∧
      (e.light = false → t = { s with dio := { s.dio with openLoad := t.dio.openLoad } } ∧
        ∀ i : Fin 16, t.dio.openLoad.getLsbD i = (decide (i ≠ e.k) && s.dio.openLoad.getLsbD i)) := by
  have hdoes := doOpenLoad_of_seen e h
  by_cases hlight : e.light = true
  · obtain ⟨hcommand, hbooked, hdio⟩ := recordedCommand hpd (hdoes.trans (if_neg (by rw [hlight]; decide)))
    refine ⟨_, congrArg Host.Outcome.next hcommand, fun _ => ⟨?_, fun i => ?_⟩, fun hheavy => ?_⟩
    · rw [hdio]
      exact hbooked
    · rw [hdio]
      exact ⟨getLsbD_setBit_true .., getLsbD_setBit_true ..⟩
    · exact absurd (hheavy.symm.trans hlight) Bool.false_ne_true
  · have hclears := hdoes.trans (if_pos (by rw [Bool.not_eq_true] at hlight; rw [hlight]; rfl))
    have hquiet := clearOpenLoad_quiet e.k e.k.isLt s
    have hcommand := fieldCommand_of_on hpd (doOpenLoad e.k e.light)
    rw [withFieldEvent_quiet (by rw [hclears]; exact hquiet), hclears] at hcommand
    exact ⟨_, congrArg Host.Outcome.next hcommand, fun h => absurd h hlight, fun _ => ⟨rfl, fun i => getLsbD_setBit_false ..⟩⟩

theorem backfeed_leaves (e : Terminal) (hpd : s.power.pdOn.getLsbD 5 = true) (hoff : s.dio.on.getLsbD e.k = false) :
    ∃ t, exec (.backfeed e) s = .next t ∧
      Booked [2, 3, 21] { s with dio := { s.dio with
        backfeed := t.dio.backfeed, openLoad := t.dio.openLoad, readback := t.dio.readback } } t ∧
      (14000 < e.mv → t.dio.readback.getLsbD e.k = true) ∧ (e.mv < 10000 → t.dio.readback.getLsbD e.k = false) ∧
      ∀ i : Fin 16, t.dio.backfeed.getLsbD i = (if i = e.k then decide (8000 < e.mv) else s.dio.backfeed.getLsbD i) ∧
        t.dio.openLoad.getLsbD i = (s.dio.openLoad.getLsbD i && !(decide (i = e.k) && decide (8000 < e.mv))) ∧
        (i ≠ e.k → t.dio.readback.getLsbD i = s.dio.readback.getLsbD i) := by
  let d : Dio := { s.dio with
    backfeed := setBit s.dio.backfeed e.k (decide (8000 < e.mv))
    openLoad := if decide (8000 < e.mv) then setBit s.dio.openLoad e.k false else s.dio.openLoad
    readback := setBit s.dio.readback e.k (terminalHigh e.mv s) }
  have hdoes : Machine.backfeed e.k e.mv s = { drawn s with dio := d } := by rw [Machine.backfeed, hoff]; rfl
  have hbooked : Booked [2, 3] { s with dio := d } (Machine.backfeed e.k e.mv s) := by
    rw [hdoes]
    exact (Safety.drawn_booked [2, 3] s).withDio d
  have hdio : (withFieldEvent (Machine.backfeed e.k e.mv) s).dio = d := by rw [withFieldEvent_dio, hdoes]
  have hbit (x : BitVec 16) (v : Bool) (i : Fin 16) : (setBit x e.k v).getLsbD i = if i = e.k then v else x.getLsbD i := by
    rw [getLsbD_setBit _ _ _ _ e.k.isLt]
    exact if_congr Fin.val_inj rfl rfl
  refine ⟨_, congrArg Host.Outcome.next (fieldCommand_of_on hpd _), ?_, fun hhigh => ?_, fun hlow => ?_, fun i => ⟨?_, ?_, fun hi => ?_⟩⟩
  · rw [hdio]
    exact withFieldEvent_booked_of hbooked
  · rw [hdio]
    refine (hbit ..).trans ((if_pos rfl).trans ?_)
    rw [terminalHigh, if_pos hhigh]
  · rw [hdio]
    refine (hbit ..).trans ((if_pos rfl).trans ?_)
    rw [terminalHigh, if_neg (by omega), if_pos (by omega)]
  · rw [hdio]
    exact hbit ..
  · rw [hdio]
    change (if decide (8000 < e.mv) then setBit s.dio.openLoad e.k false else s.dio.openLoad).getLsbD i = _
    cases decide (8000 < e.mv)
    · simp
    · rw [if_pos rfl, hbit]
      by_cases hi : i = e.k <;> simp [hi]
  · rw [hdio]
    exact (hbit ..).trans (if_neg hi)

theorem doGroupMask_getLsbD : ∀ (b : Bool) (i : Fin 16), (doGroupMask b).getLsbD i = decide (i.val / 8 = b2n b) := by decide

theorem readback_of_lost (b : Bool) (i : Fin 16) (hi : i.val / 8 = b2n b)
    (hlost : (if b then s.dioc.lostB else s.dioc.lostA) = true) : (readback s).getLsbD i = false := by
  have hmask : (unsuppliedMask s).getLsbD i = true := by
    rw [unsuppliedMask, BitVec.getLsbD_or]
    cases b with
    | true =>
      rw [show s.dioc.lostB = true from hlost, Bool.true_or, if_pos rfl, doGroupMask_getLsbD true i, decide_eq_true hi, Bool.or_true]
    | false =>
      rw [show s.dioc.lostA = true from hlost, Bool.true_or, if_pos rfl, doGroupMask_getLsbD false i, decide_eq_true hi, Bool.true_or]
  rw [readback, BitVec.getLsbD_and, BitVec.getLsbD_not, hmask]
  simp

theorem doSupplyLost_leaves (b rev : Bool) (hpd : s.power.pdOn.getLsbD 5 = true) :
    ∃ t, exec (.doSupplyLost b rev) s = .next t ∧
      Booked [2, 3, 21] { s with
        dio := { s.dio with waitCommit := t.dio.waitCommit, on := t.dio.on, openLoad := t.dio.openLoad, backfeed := t.dio.backfeed
                            readback := t.dio.readback }
        dioc := if b then { s.dioc with lostB := true, revB := rev } else { s.dioc with lostA := true, revA := rev } } t ∧
      ∀ i : Fin 16, i.val / 8 = b2n b → t.dio.on.getLsbD i = false ∧ t.dio.waitCommit.getLsbD i = true ∧
        (readback t).getLsbD i = false := by
  let s1 := { s with
    dioc := if b then { s.dioc with lostB := true, revB := rev } else { s.dioc with lostA := true, revA := rev }
    dio := { s.dio with waitCommit := s.dio.waitCommit ||| doGroupMask b } }
  let w := sjRep 0x524 2 (b2n b) (item (b2n b) ++ item (b2n rev)) s1
  have hw : w.dio = s1.dio := sjRep_dio ..
  obtain ⟨hcommand, hleft, hleaves, hkept⟩ := drivenCommand (f := doSupplyLost b rev) (w := w) hpd rfl (Safety.sjRep_booked ..)
  have hdriven : (refreshOutputs w).dio = { w.dio with
      on := (refreshOutputs w).dio.on, openLoad := (refreshOutputs w).dio.openLoad, backfeed := (refreshOutputs w).dio.backfeed
      readback := (refreshOutputs w).dio.readback } := rfl
  rw [hw] at hdriven
  have hwait : (refreshOutputs w).dio.waitCommit = s.dio.waitCommit ||| doGroupMask b := by rw [hdriven]
  refine ⟨_, congrArg Host.Outcome.next hcommand, ?_, fun i hi => ?_⟩
  · rw [hleft, hwait]
    exact (congrArg (fun d : Dio => Booked [2, 3, 21] { s1 with dio := d } (withFieldEvent (doSupplyLost b rev) s)) hdriven).mp hleaves
  · have hwaits : (refreshOutputs w).dio.waitCommit.getLsbD i = true := by
      rw [hwait, BitVec.getLsbD_or, doGroupMask_getLsbD, decide_eq_true hi, Bool.or_true]
    have hdioc : (withFieldEvent (doSupplyLost b rev) s).dioc = s1.dioc := hkept.dioc.trans (sjRep_dioc ..)
    refine ⟨?_, ?_, readback_of_lost b i hi ?_⟩
    · rw [hleft, refreshOutputs_on]
      exact outputOn_of_waitCommit hwaits
    · rw [hleft, hwaits]
    · rw [hdioc]
      cases b <;> rfl

theorem doSupplyRestored_leaves (b : Bool) (hpd : s.power.pdOn.getLsbD 5 = true)
    (hlost : (if b then s.dioc.lostB else s.dioc.lostA) = true) :
    ∃ t, exec (.doSupplyRestored b) s = .next t ∧
      Booked [2, 3, 21] { s with
        dio := { s.dio with on := t.dio.on, openLoad := t.dio.openLoad, backfeed := t.dio.backfeed, readback := t.dio.readback }
        dioc := if b then { s.dioc with lostB := false, revB := false } else { s.dioc with lostA := false, revA := false } } t ∧
      ∀ i : Fin 16, s.dio.waitCommit.getLsbD i = true → t.dio.on.getLsbD i = false := by
  let s1 := { s with
    dioc := if b then { s.dioc with lostB := false, revB := false } else { s.dioc with lostA := false, revA := false } }
  let w := sjRep 0x525 0 (b2n b) (item (b2n b)) s1
  have hw : w.dio = s.dio := sjRep_dio ..
  obtain ⟨hcommand, hleft, hleaves, -⟩ := drivenCommand (f := doSupplyRestored b) (w := w) hpd (if_pos hlost) (Safety.sjRep_booked ..)
  have hdriven : (refreshOutputs w).dio = { w.dio with
      on := (refreshOutputs w).dio.on, openLoad := (refreshOutputs w).dio.openLoad, backfeed := (refreshOutputs w).dio.backfeed
      readback := (refreshOutputs w).dio.readback } := rfl
  rw [hw] at hdriven
  refine ⟨_, congrArg Host.Outcome.next hcommand, ?_, fun i hi => ?_⟩
  · rw [hleft]
    exact (congrArg (fun d : Dio => Booked [2, 3, 21] { s1 with dio := d } (withFieldEvent (doSupplyRestored b) s)) hdriven).mp hleaves
  · rw [hleft, refreshOutputs_on]
    exact outputOn_of_waitCommit (by rw [hw]; exact hi)

/-! ### Trigger lines (R53, R54) -/

theorem Bookkept.fieldWords_eq (h : Bookkept s t) : fieldWords t = fieldWords s := by
  obtain ⟨_, _, _, _, rfl, -⟩ := h
  rfl

/-- A Mains Watch trigger from a trigger line changes the triggers alone (R256). -/
theorem raiseTrigger_trg (which : Nat) (s : State) :
    raiseTrigger 1 which s = { s with acq := { s.acq with
      raised := (raiseTrigger 1 which s).acq.raised, raisedTrg := (raiseTrigger 1 which s).acq.raisedTrg } } := by
  unfold raiseTrigger
  split
  · split <;> rfl
  · rfl

/-- A descriptor that meets a ring with room under another policy than BACKPRESSURE is appended. -/
theorem ringPut_of_room {n : Nat} (d : Desc) (hdepth : ringDepth (ringGet s n) ≠ 0) (hroom : ringFull (ringGet s n) = false)
    (hpolicy : (ringGet s n).policy ≠ 1 ∨ (ringGet s n).waiting = []) :
    ringPut n d s = (ringStore n (ringGet s n) d s, { mark := ringMarks (ringGet s n) }) := by
  have hnow : ¬ ((ringGet s n).policy = 1 ∧ (ringFull (ringGet s n) = true ∨ (ringGet s n).waiting ≠ [])) := by
    rintro ⟨hone, hwaits⟩
    rcases hwaits with hfull | hwaits
    · exact Bool.false_ne_true (hroom.symm.trans hfull)
    · exact hpolicy.elim (fun h => h hone) hwaits
  rw [ringPut]
  dsimp only
  rw [if_neg hdepth, if_neg hnow, hroom]
  rfl

theorem ring_ne_of_depth {r : Ring} (hdepth : ringDepth r ≠ 0) : r ≠ {} := fun h => hdepth (by rw [h]; rfl)

theorem ringGet_ringStore {n : Nat} {r : Ring} (hdepth : ringDepth r ≠ 0) (d : Desc) (s : State) :
    ringGet (ringStore n r d s) n = ringAppended r :=
  Safety.ringGet_ringSet_self n _ _ (ring_ne_of_depth (r := ringAppended r) hdepth)

/-- What a push leaves of a ring that no record goes to. -/
theorem ringGet_push {n : Nat} (hn : n ≠ 2 ∧ n ≠ 3) (d : Desc) (s : State) :
    ringGet (push n d s) n = ringGet (ringPut n d s).1 n :=
  (Safety.perform_desc_booked 7 n d s).ringsKept n (by simp [hn])

/-- The event of a trigger line takes its place in Q0030 (R53). -/
theorem pushEventFree_trg (src : Byte) (hdepth : ringDepth (ringGet s 30) ≠ 0) (hroom : ringFull (ringGet s 30) = false)
    (hpolicy : (ringGet s 30).policy = 0) : (ringGet (pushEventFree 14 src s) 30).pi = (ringGet s 30).pi + 1 := by
  have hpolicy' : (ringGet s 30).policy ≠ 1 := by rw [hpolicy]; decide
  have hpush (u : State) (hu : ringGet u 30 = ringGet s 30) (d : Desc) : (ringGet (push 30 d u) 30).pi = (ringGet s 30).pi + 1 := by
    rw [ringGet_push (by decide), ringPut_of_room d (by rwa [hu]) (by rwa [hu]) (.inl (by rwa [hu])),
      ringGet_ringStore (by rwa [hu]), hu]
    rfl
  exact hpush (drawn (drawn s)) rfl _

theorem trgAssert_edge {k : Nat} (hedge : (trgLevel s).getLsbD k = false) :
    let s2 := pushEventFree 14 0x0E { s with dioc := { s.dioc with trgExt := setBit s.dioc.trgExt k true } }
    trgAssert k true s = s2 ∨ trgAssert k true s = raiseTrigger 1 k s2 := by
  intro s2
  rw [trgAssert, if_pos ⟨rfl, by rw [hedge]; rfl⟩]
  split
  · split
    · exact .inr rfl
    · exact .inl rfl
  · exact .inl rfl

theorem trgAssert_leaves (e : TrgEdge) (hpd : s.power.pdOn.getLsbD 5 = true) :
    ∃ t, exec (.trgAssert e) s = .next t ∧
      Booked [30, 2, 3] { s with
        dioc := { s.dioc with trgExt := t.dioc.trgExt }
        acq := { s.acq with raised := t.acq.raised, raisedTrg := t.acq.raisedTrg } } t ∧
      (∀ i : Fin 4, t.dioc.trgExt.getLsbD i = (if i = e.k then e.asserted else s.dioc.trgExt.getLsbD i) ∧
        (trgLevel t).getLsbD i = (t.dioc.trgExt.getLsbD i || s.dioc.trgDrive.getLsbD i)) ∧
      (e.asserted = false ∨ (trgLevel s).getLsbD e.k = true → t = { s with dioc := { s.dioc with trgExt := t.dioc.trgExt } }) ∧
      (e.asserted = true → (trgLevel s).getLsbD e.k = false →
        ringDepth (ringGet s 30) ≠ 0 → ringFull (ringGet s 30) = false → (ringGet s 30).policy = 0 →
        (ringGet t 30).pi = (ringGet s 30).pi + 1) := by
  let s1 := { s with dioc := { s.dioc with trgExt := setBit s.dioc.trgExt e.k e.asserted } }
  have hbits (t : State) (ht : t.dioc = s1.dioc) (i : Fin 4) :
      t.dioc.trgExt.getLsbD i = (if i = e.k then e.asserted else s.dioc.trgExt.getLsbD i) ∧
        (trgLevel t).getLsbD i = (t.dioc.trgExt.getLsbD i || s.dioc.trgDrive.getLsbD i) := by
    refine ⟨?_, ?_⟩
    · rw [ht]
      exact (getLsbD_setBit _ _ _ _ e.k.isLt).trans (if_congr Fin.val_inj rfl rfl)
    · rw [trgLevel, ht, BitVec.getLsbD_or]
  by_cases hedge : e.asserted = true ∧ (trgLevel s).getLsbD e.k = false
  · let s2 := pushEventFree 14 0x0E s1
    have hbooked : Booked [30, 2, 3] s1 s2 := Safety.pushEventFree_booked 14 0x0E s1
    have hkept : Bookkept s1 s2 := pushEventFree_bookkept 14 0x0E s1
    obtain ⟨t, ht, hframe⟩ : ∃ t, trgAssert e.k e.asserted s = t ∧
        t = { s2 with acq := { s2.acq with raised := t.acq.raised, raisedTrg := t.acq.raisedTrg } } := by
      have hraise := trgAssert_edge hedge.2
      rw [← hedge.1] at hraise
      rcases hraise with h | h
      · exact ⟨s2, h, rfl⟩
      · exact ⟨_, h, raiseTrigger_trg e.k s2⟩
    have hquiet : fieldCommand (trgAssert e.k e.asserted) s = t := by
      have hwords : fieldWords t = fieldWords s2 := by rw [hframe]; rfl
      rw [fieldCommand_of_on hpd, withFieldEvent_same, ht]
      rw [ht, hwords, hkept.fieldWords_eq]
      rfl
    have hdioc : t.dioc = s1.dioc := by
      rw [hframe]
      exact hkept.dioc
    have hring : ringGet t 30 = ringGet s2 30 := by rw [hframe]; rfl
    refine ⟨t, congrArg Host.Outcome.next hquiet, ?_, hbits t hdioc, fun h => ?_, fun _ _ hdepth hroom hpolicy => ?_⟩
    · rw [hdioc]
      have hraised := hbooked.withAcq { s2.acq with raised := t.acq.raised, raisedTrg := t.acq.raisedTrg }
      rw [hkept.acq] at hraised hframe
      rw [← hframe] at hraised
      exact hraised
    · rcases h with h | h
      · exact absurd (h.symm.trans hedge.1) Bool.false_ne_true
      · exact absurd (hedge.2.symm.trans h) Bool.false_ne_true
    · rw [hring]
      exact pushEventFree_trg 0x0E hdepth hroom hpolicy
  · have hdoes : trgAssert e.k e.asserted s = s1 := by
      rw [trgAssert, if_neg]
      rwa [Bool.not_eq_true']
    have hquiet : fieldCommand (trgAssert e.k e.asserted) s = s1 := by
      rw [fieldCommand_of_on hpd, withFieldEvent_same, hdoes]
      rw [hdoes]
      rfl
    exact ⟨s1, congrArg Host.Outcome.next hquiet, .refl _ _, hbits s1 rfl, fun _ => rfl, fun h k => absurd ⟨h, k⟩ hedge⟩

/-- Settles O13. -/
theorem outputFlagsSupplyAndTriggerLines : Obligations.OutputFlagsSupplyAndTriggerLines := by
  refine ⟨fun e s hpd => ⟨fun hon hshared => doOpenLoad_skipped e hpd (.inl ⟨hon, hshared⟩),
    fun hoff hfed => doOpenLoad_skipped e hpd (.inr ⟨hoff, hfed⟩), doOpenLoad_leaves e hpd⟩,
    fun e s hpd => ⟨fun hon => ?driven, backfeed_leaves e hpd⟩,
    fun b rev s hpd => ⟨doSupplyLost_leaves b rev hpd, doSupplyRestored_leaves b hpd⟩,
    fun e s hpd => ⟨trgAssert_leaves e hpd, ?released⟩⟩
  case driven =>
    have hskip : Machine.backfeed e.k e.mv s = s := if_pos hon
    change Host.Outcome.next (fieldCommand (Machine.backfeed e.k e.mv) s) = _
    rw [fieldCommand_of_on hpd, withFieldEvent_same (by rw [hskip]), hskip]
  case released =>
    change Host.Outcome.next (fieldCommand trigOutRelease s) = _
    rw [fieldCommand_of_on hpd, withFieldEvent_same rfl]
    rfl

end
end Sys2Proof.Machine
end

section
/-! SUPPORT. The rings (R114 to R119): what a push, a pop and a resumed push do to their ring, when a push writes nothing else, and the
trace record of a watermark. -/

namespace Sys2Proof.Machine

open Safety (Booked)

section
variable {s t u : State} {n : Nat} {d : Desc}

set_option Elab.async false

theorem opMs_of_opUs (h : t.clk.opUs = s.clk.opUs) : opMs t = opMs s := by rw [opMs, opMs, h]

theorem satInc_word (c : Word) : satInc c = if c = 0xFFFFFFFF then c else c + 1 := rfl

/-- Exchanging one ring leaves the others. -/
theorem ringGet_ringStore_ne {m : Nat} (hm : m ≠ n) (r : Ring) (d : Desc) (s : State) : ringGet (ringStore n r d s) m = ringGet s m :=
  Safety.ringGet_ringSet_ne n m _ _ hm

theorem ringAppended_eq (r : Ring) : ringAppended r =
    { r with pi := r.pi + 1, peak := BitVec.ofNat 13 (max r.peak.toNat (r.pi + 1 - r.ci).toNat), flagHwm := r.flagHwm || ringMarks r } :=
  rfl

/-! ### What a push does besides (R116 to R119) -/

/-- A push that neither overflows, nor marks, nor loses its descriptor writes no record. -/
theorem push_of_plain (h : (ringPut n d s).2 = {}) : push n d s = (ringPut n d s).1 := by
  rcases hput : ringPut n d s with ⟨u, p⟩
  rw [hput] at h
  subst h
  rw [push, perform, hput]
  exact (if_neg Bool.false_ne_true).trans ((if_neg Bool.false_ne_true).trans (if_neg fun h => Bool.false_ne_true h.2))

/-- A push that only loses its descriptor writes no record, but for a trace record. -/
theorem push_of_dropped (hn : n ≠ 3) (h : (ringPut n d s).2 = { dropped := true }) : push n d s = (ringPut n d s).1 := by
  rcases hput : ringPut n d s with ⟨u, p⟩
  rw [hput] at h
  subst h
  rw [push, perform, hput]
  exact (if_neg Bool.false_ne_true).trans ((if_neg Bool.false_ne_true).trans (if_neg fun h => hn h.1))

theorem ringReaches_of_hwm_zero {r : Ring} (h : r.hwm = 0) : ringReaches r = false := by simp [ringReaches, h]

/-- A trace record waits to be written once it is made, where its ring has room. -/
theorem perform_tr_queued (k : Nat) (r : Record) (hroom : ringFull (ringGet s 3) = false) :
    s.log.trQueue ++ [r] <+: (perform (k + 1) (.tr r) s).log.trQueue := by
  rw [perform, hroom]
  exact (Safety.perform_booked k (.desc 3 (recordDesc r s))
    (drawn (drawn { s with log := { s.log with trQueue := s.log.trQueue ++ [r] } }))).trKept

/-- A code and key that have not come within the last second are let through (R65). -/
theorem repeatGate_of_old {code key : Nat}
    (hold : ∀ x ∈ s.log.repeats, x.code.toNat = code → x.key = key → x.lastMs + 1000 ≤ opMs s) :
    ∃ m, (repeatGate code key s).2 = some m := by
  rw [repeatGate]
  cases hfind : repeatFind s code key with
  | none => exact ⟨0, rfl⟩
  | some r =>
    have hmatch := List.find?_some hfind
    rw [decide_eq_true_iff] at hmatch
    have hlast := hold r (List.mem_of_find?_eq_some hfind) hmatch.1 hmatch.2
    refine ⟨r.missed, ?_⟩
    dsimp only
    rw [if_neg (by omega)]

theorem mem_drop_of_prefix {α : Type} {xs ys : List α} {x : α} (h : xs ++ [x] <+: ys) : x ∈ ys.drop xs.length := by
  obtain ⟨after, hafter⟩ := h
  rw [← hafter, List.append_assoc, List.drop_left]
  exact List.mem_cons_self

theorem repeatGate_trQueue (code key : Nat) (s : State) : (repeatGate code key s).1.log.trQueue = s.log.trQueue := by
  rw [repeatGate]
  dsimp only
  split
  · split <;> rfl
  · rfl

/-- The push that reaches the watermark writes TR 0x0125 (R119). -/
theorem push_marks (hn : n ≠ 3) (hput : (ringPut n d s).2 = { mark := true }) (hroom : ringFull (ringGet s 3) = false)
    (hold : ∀ x ∈ s.log.repeats, x.code.toNat = 0x125 → x.key = n → x.lastMs + 1000 ≤ opMs s) :
    ∃ x ∈ (push n d s).log.trQueue.drop s.log.trQueue.length, x.code = 0x125 ∧ x.severity = 0 ∧ x.optMs = opMs s ∧
      x.items = item n ++ item (ringFill (ringGet (ringPut n d s).1 n)) ++ item (ringDepth (ringGet (ringPut n d s).1 n)) := by
  have hlog : (ringPut n d s).1.log = s.log ∧ (ringPut n d s).1.clk = s.clk := by
    rw [ringPut]
    dsimp only
    split
    · exact ⟨rfl, rfl⟩
    · split
      · exact ⟨rfl, rfl⟩
      · split
        · exact ⟨rfl, rfl⟩
        · split <;> exact ⟨rfl, rfl⟩
  have hring := (Safety.ringPut_booked n d s).ringsKept 3 (by simp [hn.symm])
  rcases hpair : ringPut n d s with ⟨u, p⟩
  rw [hpair] at hput hlog hring
  dsimp only at hput hlog hring ⊢
  subst hput
  obtain ⟨hlog, hclk⟩ := hlog
  have hop : opMs u = opMs s := opMs_of_opUs (by rw [hclk])
  obtain ⟨m, hm⟩ := repeatGate_of_old (s := u) (code := 0x125) (key := n) (by rw [hlog, hop]; exact hold)
  rcases hgate : repeatGate 0x125 n u with ⟨t, o⟩
  rw [hgate] at hm
  dsimp only at hm
  subst hm
  have hkept := Safety.repeatGate_booked [] 0x125 n u
  have hgated := repeatGate_trQueue 0x125 n u
  rw [hgate] at hkept hgated
  let r := recordOf 0x125 0 (item n ++ item (ringFill (ringGet u n)) ++ item (ringDepth (ringGet u n))) m t
  have hdoes : push n d s = perform 7 (.tr r) t := by
    rw [push, perform, hpair]
    dsimp only
    rw [if_pos rfl, if_neg Bool.false_ne_true, if_neg fun h => hn h.1, hgate]
  have hqueued := perform_tr_queued (s := t) 6 r (by rw [hkept.ringsKept 3 (by simp), hring]; exact hroom)
  rw [hgated, hlog] at hqueued
  rw [hdoes]
  refine ⟨r, mem_drop_of_prefix hqueued, rfl, rfl, ?_, rfl⟩
  rw [← hop]
  have hframe := hkept.frame
  dsimp only at hframe
  exact opMs_of_opUs (show t.clk.opUs = u.clk.opUs by rw [hframe])

/-! ### The slot of a descriptor (R114, R115) -/

theorem memRead_congr {x : Byte} {m m' : Mem} {a k : Nat} (h : ∀ b, a ≤ b → b < a + k → memGet x m b = memGet x m' b) :
    memRead x m a k = memRead x m' a k := by
  induction k generalizing a with
  | zero => rfl
  | succ k ih => rw [memRead, memRead, h a (by omega) (by omega), ih fun b hb hlt => h b (by omega) (by omega)]

/-- What a push has written stands after the records that follow it. -/
theorem dataRead_of_booked {ns : List Nat} (h : Booked ns u t) {a k : Nat}
    (hapart : ∀ b, a ≤ b → b < a + k → ¬ Safety.inSlots u ns b) : dataRead a k t = dataRead a k u :=
  memRead_congr fun b hb hlt => h.bytesKept b (hapart b hb hlt)

theorem ringAddr_inSlots {r : Ring} (x : Word) (hdepth : ringDepth r ≠ 0) (hr : r.base = (ringGet s n).base)
    (hd : ringDepth r = ringDepth (ringGet s n)) {b : Nat} (hb : ringAddr r x ≤ b) (hlt : b < ringAddr r x + 16) :
    Safety.inSlots s [n] b := by
  have hmod : x.toNat % ringDepth r < ringDepth r := Nat.mod_lt _ (by omega)
  rw [ringAddr] at hb hlt
  refine ⟨n, List.mem_singleton_self n, ?_, ?_⟩
  · rw [← hr]
    omega
  · rw [← hr, ← hd]
    omega

theorem descBytes_length (d : Desc) : (descBytes d).length = 16 := by simp [descBytes, leBytes]

/-- An appended descriptor stands in its slot. -/
theorem dataRead_ringStore {r : Ring} (hwf : Safety.storesWf s) (hdepth : ringDepth r ≠ 0) (hpool : r.base + ringDepth r ≤ 262144) :
    dataRead (ringAddr r r.pi) 16 (ringStore n r d s) = descBytes d := by
  have hmod : r.pi.toNat % ringDepth r < ringDepth r := Nat.mod_lt _ (by omega)
  have hdata : swf 0 dataSize s.data = true := by
    simp only [Safety.storesWf, Memory.wf, Bool.and_eq_true] at hwf
    exact hwf.1.1
  have hread := memRead_memWrite 0 dataSize s.data (ringAddr r r.pi) (descBytes d) hdata (by
    rw [descBytes_length, ringAddr, show dataSize = 0x800000 + 0x800000 from rfl]
    omega)
  rw [descBytes_length] at hread
  exact hread

theorem ringDepth_eq {r : Ring} (h : ringDepth r ≠ 0) : ringDepth r = 2 ^ r.log2 := by
  rw [ringDepth] at h ⊢
  split at h
  · exact absurd rfl h
  · rename_i hlog
    exact if_neg hlog

/-- The slot at PI of a full ring is that at CI. -/
theorem ringAddr_full {r : Ring} (hdepth : ringDepth r ≠ 0) (hfull : ringFill r = ringDepth r) :
    ringAddr r r.pi = 0x400000 + 16 * (r.base + r.ci.toNat % ringDepth r) := by
  have hpow := ringDepth_eq hdepth
  have hfill : (r.pi - r.ci).toNat = ringDepth r := hfull
  have hsmall : ringDepth r < 2 ^ 32 := hfill ▸ (r.pi - r.ci).isLt
  have hdvd : ringDepth r ∣ 2 ^ 32 := by
    rw [hpow] at hsmall ⊢
    exact Nat.pow_dvd_pow 2 (Nat.le_of_lt ((Nat.pow_lt_pow_iff_right (by decide)).mp hsmall))
  have hpi : r.pi.toNat = (r.ci.toNat + ringDepth r) % 2 ^ 32 := by
    rw [← hfill, ← BitVec.toNat_add, BitVec.add_comm, BitVec.sub_add_cancel]
  rw [ringAddr, hpi, Nat.mod_mod_of_dvd _ hdvd, Nat.add_mod_right]

/-! ### Pushes by the state of their ring (R114 to R119) -/

/-- A push to a ring with room under its watermark (R114, R115). -/
theorem queuePush_plain (hawake : awake s = true) (hwf : Safety.storesWf s) (n : BitVec 10) (d : Desc)
    (hdepth : ringDepth (ringGet s n.toNat) ≠ 0) (hroom : ringFull (ringGet s n.toNat) = false)
    (hwaits : (ringGet s n.toNat).waiting = []) (hhwm : (ringGet s n.toNat).hwm = 0)
    (hpool : (ringGet s n.toNat).base + ringDepth (ringGet s n.toNat) ≤ 262144) :
    let r := ringGet s n.toNat
    ∃ t, exec (.queuePush n d) s = .next t ∧ Booked [n.toNat] s t ∧ t.log = s.log ∧ t.clk = s.clk ∧
      ringGet t n.toNat = { r with pi := r.pi + 1, peak := BitVec.ofNat 13 (max r.peak.toNat (r.pi + 1 - r.ci).toNat) } ∧
      dataRead (0x400000 + 16 * (r.base + r.pi.toNat % ringDepth r)) 16 t =
        leBytes 4 d.buf.toNat ++ leBytes 2 d.len.toNat ++ [d.src, d.flags] ++ leBytes 4 d.ts.toNat ++ leBytes 4 d.tag.toNat := by
  intro r
  have hmark : ringMarks r = false := ringReaches_of_hwm_zero hhwm
  have hput := ringPut_of_room d hdepth hroom (.inr hwaits)
  have hpush : push n.toNat d s = ringStore n.toNat r d s := by
    rw [push_of_plain (by rw [hput]; exact congrArg (fun m => ({ mark := m } : Pushed)) hmark), hput]
  have hbooked := Safety.ringPut_booked n.toNat d s
  rw [hput] at hbooked
  refine ⟨_, congrArg Host.Outcome.next ((if_pos hawake).trans hpush), hbooked, rfl, rfl, ?_, dataRead_ringStore hwf hdepth hpool⟩
  rw [ringGet_ringStore hdepth, ringAppended_eq, show ringMarks r = false from hmark, Bool.or_false]

theorem exec_queuePush (hawake : awake s = true) (n : BitVec 10) (d : Desc) :
    exec (.queuePush n d) s = .next (push n.toNat d s) := congrArg Host.Outcome.next (if_pos hawake)

theorem push_booked_put (n : Nat) (d : Desc) (s : State) : Booked [2, 3] (ringPut n d s).1 (push n d s) :=
  Safety.perform_desc_booked 7 n d s

theorem queuePush_unallocated (hawake : awake s = true) (n : BitVec 10) (d : Desc) (hn : n.toNat ≠ 3)
    (hdepth : ringDepth (ringGet s n.toNat) = 0) :
    ∃ t, exec (.queuePush n d) s = .next t ∧ Booked [n.toNat] s t ∧ t.data = s.data ∧
      ringGet t n.toNat = { ringGet s n.toNat with unalloc := true } := by
  have hput : ringPut n.toNat d s = (ringSet n.toNat { ringGet s n.toNat with unalloc := true } s, { dropped := true }) := if_pos hdepth
  have hbooked := Safety.ringPut_booked n.toNat d s
  have hpush := push_of_dropped hn (congrArg Prod.snd hput)
  rw [hput] at hbooked hpush
  refine ⟨_, (exec_queuePush hawake n d).trans (congrArg Host.Outcome.next hpush), hbooked, rfl, ?_⟩
  exact Safety.ringGet_ringSet_self _ _ _ fun h => Bool.false_ne_true (congrArg Ring.unalloc h).symm

/-- A push to a ring with room and nobody waiting, by its watermark (R119). -/
theorem queuePush_room (hawake : awake s = true) (n : BitVec 10) (d : Desc) (h2 : n.toNat ≠ 2) (h3 : n.toNat ≠ 3) :
    let r := ringGet s n.toNat
    let fill := (r.pi + 1 - r.ci).toNat
    let reaches := decide (r.hwm ≠ 0) && decide (r.hwm.toNat * ringDepth r ≤ 16 * fill) && !r.flagHwm
    ringDepth r ≠ 0 → ringFull r = false → r.waiting = [] → ∃ t, exec (.queuePush n d) s = .next t ∧ Booked [n.toNat, 2, 3] s t ∧
      ringGet t n.toNat = { r with pi := r.pi + 1, peak := BitVec.ofNat 13 (max r.peak.toNat fill), flagHwm := r.flagHwm || reaches } ∧
      (reaches = false → t.log = s.log ∧ ∀ m, m ≠ n.toNat → ringGet t m = ringGet s m) ∧
      (reaches = true → ringFull (ringGet s 3) = false →
        (∀ x ∈ s.log.repeats, x.code.toNat = 0x125 → x.key = n.toNat → x.lastMs + 1000 ≤ opMs s) →
        ∃ x ∈ t.log.trQueue.drop s.log.trQueue.length, x.code = 0x125 ∧ x.severity = 0 ∧ x.optMs = opMs s ∧
          x.items = item n.toNat ++ item fill ++ item (ringDepth r)) := by
  intro r fill reaches hdepth hroom hwaits
  have hmarks : ringMarks r = reaches := rfl
  have hput := ringPut_of_room d hdepth hroom (.inr hwaits)
  have hring : ringGet (ringPut n.toNat d s).1 n.toNat = ringAppended r := by rw [hput, ringGet_ringStore hdepth]
  refine ⟨_, exec_queuePush hawake n d, Safety.push_booked n.toNat d s, (ringGet_push ⟨h2, h3⟩ d s).trans hring, fun hunder => ?_,
    fun hreaches hroom3 hold => ?_⟩
  · have hpush : push n.toNat d s = ringStore n.toNat r d s := by
      rw [push_of_plain (by rw [hput]; exact congrArg (fun m => ({ mark := m } : Pushed)) (hmarks.trans hunder)), hput]
    rw [hpush]
    exact ⟨rfl, fun m hm => ringGet_ringStore_ne hm r d s⟩
  · obtain ⟨x, hx, hcode, hsev, hop, hitems⟩ := push_marks (d := d) h3
      (by rw [hput]; exact congrArg (fun m => ({ mark := m } : Pushed)) (hmarks.trans hreaches)) hroom3 hold
    rw [hring] at hitems
    exact ⟨x, hx, hcode, hsev, hop, hitems⟩

/-- A push to a full ring: what of it goes into the ring (R116, R118). -/
theorem ringPut_of_full (n : Nat) (d : Desc) (hdepth : ringDepth (ringGet s n) ≠ 0) (hfull : ringFull (ringGet s n) = true) :
    let r := ringGet s n
    let oldestOut := { ringCounted r with ci := r.ci + 1, lost := true }
    (r.policy = 0 → ringPut n d s = (ringSet n { ringCounted r with lost := true, flagHwm := r.flagHwm || ringReaches r } s,
      { overflow := true, mark := ringReaches r, dropped := true })) ∧
    (r.policy = 1 → ringPut n d s = (ringSet n { r with waiting := r.waiting ++ [d] } s, {})) ∧
    (r.policy = 2 → ringPut n d s = (ringStore n oldestOut { d with flags := d.flags ||| 2 } s,
      { overflow := true, mark := ringMarks oldestOut })) := by
  intro r oldestOut
  have hnoroom : ¬ ((!ringFull r) = true) := by rw [show ringFull r = true from hfull]; decide
  refine ⟨fun hpolicy => ?_, fun hpolicy => ?_, fun hpolicy => ?_⟩ <;> rw [ringPut] <;> dsimp only <;> rw [if_neg hdepth]
  · have hone : ¬ ((ringGet s n).policy = 1 ∧ (ringFull (ringGet s n) = true ∨ (ringGet s n).waiting ≠ [])) := fun h =>
      absurd (hpolicy.symm.trans h.1) (by decide)
    rw [if_neg hone, if_neg hnoroom, if_pos hpolicy]
  · rw [if_pos ⟨hpolicy, .inl hfull⟩]
  · have hone : ¬ ((ringGet s n).policy = 1 ∧ (ringFull (ringGet s n) = true ∨ (ringGet s n).waiting ≠ [])) := fun h =>
      absurd (hpolicy.symm.trans h.1) (by decide)
    have hzero : ¬ (ringGet s n).policy = 0 := fun h => absurd (hpolicy.symm.trans h) (by decide)
    rw [if_neg hone, if_neg hnoroom, if_neg hzero]

/-- What the records after a push leave of the slot it has written. -/
theorem dataRead_push (n : Nat) (r : Ring) (hwf : Safety.storesWf s) (hapart : Safety.ringApart n s)
    (hdepth : ringDepth (ringGet s n) ≠ 0) (hbase : r.base = (ringGet s n).base) (hlog2 : r.log2 = (ringGet s n).log2)
    (hbooked : Booked [n] s (ringStore n r d s)) (ht : Booked [2, 3] (ringStore n r d s) t) :
    dataRead (ringAddr r r.pi) 16 t = descBytes d := by
  have hsize : ringDepth r = ringDepth (ringGet s n) := by rw [ringDepth, ringDepth, hlog2]
  obtain ⟨hpool, hslots⟩ := hapart
  rw [dataRead_of_booked ht, dataRead_ringStore hwf (hsize ▸ hdepth) (by rw [hbase, hsize]; exact hpool)]
  intro b hb hlt hin
  have hown := ringAddr_inSlots (s := s) (n := n) r.pi (hsize ▸ hdepth) hbase hsize hb hlt
  refine hslots b hown ?_
  obtain ⟨m, hm, hlo, hhi⟩ := hin
  obtain ⟨hb', hl', -⟩ := hbooked.layout m
  rw [ringDepth, hb', hl'] at hhi
  rw [hb'] at hlo
  exact ⟨m, hm, hlo, hhi⟩

theorem queuePush_full (hawake : awake s = true) (n : BitVec 10) (d : Desc) (h2 : n.toNat ≠ 2) (h3 : n.toNat ≠ 3)
    (hdepth : ringDepth (ringGet s n.toNat) ≠ 0) (hfull : ringFull (ringGet s n.toNat) = true) :
    let r := ringGet s n.toNat
    let d2 := { d with flags := d.flags ||| 2 }
    (r.policy = 0 → ∃ t, exec (.queuePush n d) s = .next t ∧ Booked [n.toNat, 2, 3] s t ∧
      (∀ a, Safety.inSlots s [n.toNat] a → ¬ Safety.inSlots s [2, 3] a → memGet 0 t.data a = memGet 0 s.data a) ∧
      (ringGet t n.toNat).pi = r.pi ∧ (ringGet t n.toNat).ci = r.ci ∧ (ringGet t n.toNat).flagOvf = true ∧
      (ringGet t n.toNat).count = (if r.count = 0xFFFFFFFF then r.count else r.count + 1)) ∧
    (r.policy = 1 → ∃ t, exec (.queuePush n d) s = .next t ∧ Booked [n.toNat] s t ∧ t.data = s.data ∧
      ringGet t n.toNat = { r with waiting := r.waiting ++ [d] }) ∧
    (r.policy = 2 → ∃ t, exec (.queuePush n d) s = .next t ∧ Booked [n.toNat, 2, 3] s t ∧
      (Safety.storesWf s → Safety.ringApart n.toNat s →
        dataRead (ringAddr r r.pi) 16 t = descBytes d2 ∧ (descBytes d2)[7]?.map (·.getLsbD 1) = some true ∧
        (ringFill r = ringDepth r → ringAddr r r.pi = 0x400000 + 16 * (r.base + r.ci.toNat % ringDepth r))) ∧
      (ringGet t n.toNat).pi = r.pi + 1 ∧ (ringGet t n.toNat).ci = r.ci + 1 ∧ (ringGet t n.toNat).flagOvf = true ∧
      (ringGet t n.toNat).count = (if r.count = 0xFFFFFFFF then r.count else r.count + 1)) := by
  intro r d2
  obtain ⟨hnewest, hpressed, holdest⟩ := ringPut_of_full n.toNat d hdepth hfull
  have hne {r' : Ring} (h : r'.log2 = r.log2) : r' ≠ {} := ring_ne_of_depth (by rw [ringDepth, h]; exact hdepth)
  refine ⟨fun hpolicy => ?_, fun hpolicy => ?_, fun hpolicy => ?_⟩
  · have hput := hnewest hpolicy
    have hrecords := push_booked_put n.toNat d s
    rw [hput] at hrecords
    have hring := ringGet_push ⟨h2, h3⟩ d s
    rw [hput] at hring
    replace hring := hring.trans (Safety.ringGet_ringSet_self _ _ _ (hne rfl))
    refine ⟨_, exec_queuePush hawake n d, Safety.push_booked n.toNat d s, fun a _ hout => ?_, ?_⟩
    · refine hrecords.bytesKept a fun hin => hout ?_
      obtain ⟨m, hm, hlo, hhi⟩ := hin
      have hkeep : ringGet (ringSet n.toNat { ringCounted r with lost := true, flagHwm := r.flagHwm || ringReaches r } s) m =
          ringGet s m := by
        refine Safety.ringGet_ringSet_ne _ _ _ _ fun h => ?_
        rw [h] at hm
        simp [h2, h3] at hm
      rw [hkeep] at hlo hhi
      exact ⟨m, hm, hlo, hhi⟩
    · rw [hring]
      exact ⟨rfl, rfl, rfl, satInc_word r.count⟩
  · have hput := hpressed hpolicy
    have hbooked := Safety.ringPut_booked n.toNat d s
    have hpush := push_of_plain (congrArg Prod.snd hput)
    rw [hput] at hbooked hpush
    exact ⟨_, (exec_queuePush hawake n d).trans (congrArg Host.Outcome.next hpush), hbooked, rfl,
      Safety.ringGet_ringSet_self _ _ _ (hne rfl)⟩
  · have hput := holdest hpolicy
    have hbooked := Safety.ringPut_booked n.toNat d s
    have hrecords := push_booked_put n.toNat d s
    have hring := ringGet_push ⟨h2, h3⟩ d s
    rw [hput] at hbooked hrecords hring
    rw [ringGet_ringStore (by exact hdepth)] at hring
    refine ⟨_, exec_queuePush hawake n d, Safety.push_booked n.toNat d s, fun hwf hapart => ⟨?_, ?_, ringAddr_full hdepth⟩, ?_⟩
    · exact dataRead_push n.toNat { ringCounted r with ci := r.ci + 1, lost := true } hwf hapart hdepth rfl rfl hbooked hrecords
    · have hflag : (d.flags ||| 2).getLsbD 1 = true := by simp
      exact congrArg some hflag
    · rw [hring]
      exact ⟨rfl, rfl, rfl, satInc_word r.count⟩

/-- A waiting push goes on as a slot is free (R116). -/
theorem backpressureResume_leaves (hawake : awake s = true) (n : BitVec 10) (h2 : n.toNat ≠ 2) (h3 : n.toNat ≠ 3) (w : Desc)
    (ws : List Desc) (hwaits : (ringGet s n.toNat).waiting = w :: ws) (hdepth : ringDepth (ringGet s n.toNat) ≠ 0)
    (hroom : ringFull (ringGet s n.toNat) = false) :
    let r := ringGet s n.toNat
    ∃ t, exec (.backpressureResume n) s = .next t ∧ Booked [n.toNat, 2, 3] s t ∧
      (Safety.storesWf s → Safety.ringApart n.toNat s → dataRead (ringAddr r r.pi) 16 t = descBytes w) ∧
      (ringGet t n.toNat).waiting = ws ∧ (ringGet t n.toNat).pi = r.pi + 1 ∧ (ringGet t n.toNat).ci = r.ci ∧
      (ringGet t n.toNat).count = (if r.count = 0xFFFFFFFF then r.count else r.count + 1) := by
  intro r
  let r1 := { ringCounted r with waiting := ws }
  have hstored : Booked [n.toNat] s (ringStore n.toNat r1 w s) :=
    Safety.ringStore_booked n.toNat r1 w s hdepth ⟨rfl, rfl, rfl, rfl, rfl, rfl⟩
  have hrecords : Booked [2, 3] (ringStore n.toNat r1 w s) (backpressureResume n.toNat s) := by
    have hcount := Safety.trRepCount_booked 0x124 1 n.toNat (fun k => item n.toNat ++ item r.policy.toNat ++ item k)
      (ringStore n.toNat r1 w s)
    rw [backpressureResume]
    dsimp only
    rw [hwaits]
    dsimp only
    rw [hroom, if_neg Bool.false_ne_true]
    split
    · exact hcount.trans (Safety.trRep_booked ..)
    · exact hcount
  have hring : ringGet (backpressureResume n.toNat s) n.toNat = ringAppended r1 := by
    rw [hrecords.ringsKept n.toNat (by simp [h2, h3]), ringGet_ringStore (by exact hdepth)]
  refine ⟨_, congrArg Host.Outcome.next (if_pos hawake), (hstored.mono (by simp)).trans (hrecords.mono (by simp)),
    fun hwf hapart => ?_, ?_⟩
  · exact dataRead_push n.toNat r1 hwf hapart hdepth rfl rfl hstored hrecords
  · rw [hring]
    exact ⟨rfl, rfl, rfl, satInc_word r.count⟩

/-! ### Pops and CI (R114, R258, R259) -/

/-- A pop may re-arm a Mains Watch that waits for a buffer set. -/
theorem rearmAfterPop_frame (s : State) :
    rearmAfterPop s = { s with acq := { s.acq with
      armWait := (rearmAfterPop s).acq.armWait, armedUs := (rearmAfterPop s).acq.armedUs } } := by
  rw [rearmAfterPop]
  split
  · split
    · rw [rearm]
      split <;> rfl
    · rfl
  · rfl

theorem rearmAfterPop_of_armed (h : s.acq.armWait = false) : rearmAfterPop s = s := by
  rw [rearmAfterPop]
  split
  · refine if_neg fun hwaits => ?_
    rw [h] at hwaits
    exact Bool.false_ne_true hwaits.1
  · rfl

theorem queuePop_leaves (hawake : awake s = true) (n : BitVec 10) (hdepth : ringDepth (ringGet s n.toNat) ≠ 0)
    (hfill : ringFill (ringGet s n.toNat) ≠ 0) :
    ∃ t, exec (.queuePop n) s = .next t ∧
      Booked [n.toNat] { s with acq := { s.acq with armWait := t.acq.armWait, armedUs := t.acq.armedUs } } t ∧
      (s.acq.armWait = false → t.acq = s.acq) ∧ t.log = s.log ∧ t.clk = s.clk ∧ t.data = s.data ∧
      ringGet t n.toNat = { ringGet s n.toNat with ci := (ringGet s n.toNat).ci + 1 } := by
  have hbooked := Safety.ringTake_booked n.toNat s
  have hdrop : drop1 n.toNat s = ringSet n.toNat { ringGet s n.toNat with ci := (ringGet s n.toNat).ci + 1 } s := by
    rw [drop1, ringTake]
    dsimp only
    rw [if_neg (not_or.mpr ⟨hdepth, hfill⟩)]
  rw [← drop1, hdrop] at hbooked
  have hframe := rearmAfterPop_frame (drop1 n.toNat s)
  have harmed := rearmAfterPop_of_armed (s := drop1 n.toNat s)
  rw [hdrop] at hframe harmed
  obtain ⟨t, ht⟩ : ∃ t, t = rearmAfterPop (drop1 n.toNat s) := ⟨_, rfl⟩
  rw [hdrop] at ht
  rw [← ht] at hframe harmed
  have hring : ringGet t n.toNat = { ringGet s n.toNat with ci := (ringGet s n.toNat).ci + 1 } := by
    rw [hframe]
    exact Safety.ringGet_ringSet_self _ _ _ (ring_ne_of_depth (by exact hdepth))
  refine ⟨t, congrArg Host.Outcome.next ((if_pos hawake).trans (show rearmAfterPop (drop1 n.toNat s) = t by rw [hdrop]; exact ht.symm)), ?_, fun h => ?_, ?_, ?_, ?_, hring⟩
  · have hpop := hbooked.withAcq { s.acq with armWait := t.acq.armWait, armedUs := t.acq.armedUs }
    exact hframe ▸ hpop
  · rw [harmed h]
    rfl
  · rw [hframe]
    rfl
  · rw [hframe]
    rfl
  · rw [hframe]
    rfl

theorem queuePop_empty (n : BitVec 10) (hfill : ringFill (ringGet s n.toNat) = 0) (harmed : s.acq.armWait = false) :
    exec (.queuePop n) s = .next s := by
  have hdrop : drop1 n.toNat s = s := by
    rw [drop1, ringTake, if_pos (.inr hfill)]
  refine congrArg Host.Outcome.next ?_
  rw [whenever]
  split
  · rw [hdrop, rearmAfterPop_of_armed harmed]
  · rfl

theorem qpCiWrite_exec (hawake : awake s = true) (hpd : s.power.pdOn.getLsbD 1 = true) (v : Word) :
    exec (.qpCiWrite v) s = .next (qpCiWrite v s) := by
  have hat := accessOf_at (addr := 0x40500010) hawake rfl rfl hpd
  exact congrArg Host.Outcome.next ((writeAccess_of_at v hat).trans rfl)

theorem qpCiWrite_leaves (v : Word) (hawake : awake s = true) (hpd : s.power.pdOn.getLsbD 1 = true)
    (hconsumer : (ringGet s s.queues.ringSel.toNat).consumer = 1)
    (hrange : (v - (ringGet s s.queues.ringSel.toNat).ci).toNat ≤
      ((ringGet s s.queues.ringSel.toNat).pi - (ringGet s s.queues.ringSel.toNat).ci).toNat) :
    let n := s.queues.ringSel.toNat
    ∃ t, exec (.qpCiWrite v) s = .next t ∧
      t = { s with queues := { s.queues with rings := t.queues.rings }
                   acq := { s.acq with armWait := t.acq.armWait, armedUs := t.acq.armedUs } } ∧
      (s.acq.armWait = false → t.acq = s.acq) ∧ ringGet t n = { ringGet s n with ci := v } ∧
      ∀ m, m ≠ n → ringGet t m = ringGet s m := by
  intro n
  let u := ringSet n { ringGet s n with ci := v } s
  have hdoes : qpCiWrite v s = rearmAfterPop u := if_pos ⟨hconsumer, hrange⟩
  have hframe := rearmAfterPop_frame u
  have harmed := rearmAfterPop_of_armed (s := u)
  generalize rearmAfterPop u = t at hdoes hframe harmed
  have hring (m : Nat) : ringGet t m = ringGet u m := by rw [hframe]; rfl
  refine ⟨t, (qpCiWrite_exec hawake hpd v).trans (congrArg Host.Outcome.next hdoes), ?_, fun h => ?_, ?_, fun m hm => ?_⟩
  · rw [show t.queues.rings = u.queues.rings by rw [hframe]]
    exact hframe
  · rw [harmed h]
    rfl
  · rw [hring]
    refine Safety.ringGet_ringSet_self _ _ _ fun h => ?_
    have hzero : (ringGet s n).consumer = 0 := congrArg Ring.consumer h
    exact absurd (hzero.symm.trans hconsumer) (by decide)
  · rw [hring]
    exact Safety.ringGet_ringSet_ne _ _ _ _ hm

theorem qpCiWrite_ignored (v : Word) (hawake : awake s = true) (hpd : s.power.pdOn.getLsbD 1 = true)
    (h : (ringGet s s.queues.ringSel.toNat).consumer ≠ 1 ∨
      ((ringGet s s.queues.ringSel.toNat).pi - (ringGet s s.queues.ringSel.toNat).ci).toNat <
        (v - (ringGet s s.queues.ringSel.toNat).ci).toNat) : exec (.qpCiWrite v) s = .next s := by
  refine (qpCiWrite_exec hawake hpd v).trans (congrArg Host.Outcome.next (if_neg fun htaken => ?_))
  obtain ⟨hconsumer, hrange⟩ := htaken
  exact h.elim (fun hne => hne hconsumer) fun hlt => absurd hrange (Nat.not_le.mpr hlt)

/-- Settles O14. -/
theorem ringsPushPopAndFollowTheirPolicies : Obligations.RingsPushPopAndFollowTheirPolicies := by
  refine ⟨fun n d s hawake hwf => ⟨fun hdepth hroom hwaits hhwm hpool => queuePush_plain hawake hwf n d hdepth hroom hwaits hhwm hpool,
    fun hdepth hfill => queuePop_leaves hawake n hdepth hfill, fun hfill harmed => queuePop_empty n hfill harmed⟩,
    fun n d s hawake h2 h3 => ?_, fun v s hawake hpd => ⟨qpCiWrite_leaves v hawake hpd, qpCiWrite_ignored v hawake hpd⟩⟩
  have h2' : n.toNat ≠ 2 := fun h => h2 (BitVec.eq_of_toNat_eq h)
  have h3' : n.toNat ≠ 3 := fun h => h3 (BitVec.eq_of_toNat_eq h)
  exact ⟨queuePush_unallocated hawake n d h3', queuePush_room hawake n d h2' h3', queuePush_full hawake n d h2' h3',
    fun w ws hwaits hdepth hroom => backpressureResume_leaves hawake n h2' h3' w ws hwaits hdepth hroom⟩

end
end Sys2Proof.Machine
end

section
/-! SUPPORT. Byte strings: little-endian numbers, what stands at a place of a concatenation, the size of a CRC, and the journal's and the
trace's records in their slots (R382 to R390). -/

namespace Sys2Proof.Machine

open Safety (Booked)

section
variable {s t u : State}

set_option Elab.async false

/-! ### Little-endian numbers -/

@[simp] theorem leBytes_length (n v : Nat) : (leBytes n v).length = n := by
  induction n generalizing v with
  | zero => rfl
  | succ n ih => rw [leBytes, List.length_cons, ih]

theorem leNat_leBytes (n v : Nat) : leNat (leBytes n v) = v % 256 ^ n := by
  induction n generalizing v with
  | zero => rw [leBytes, leNat, Nat.pow_zero, Nat.mod_one]
  | succ n ih =>
    rw [leBytes, leNat, ih, BitVec.toNat_ofNat, show (256 : Nat) ^ (n + 1) = 256 * 256 ^ n from Nat.pow_succ', Nat.mod_mul]

@[simp] theorem padTo_length (n : Nat) (bs : Bytes) : (padTo n bs).length = n := by
  simp [padTo, zeros]
  omega

@[simp] theorem slice_length (bs : Bytes) (a n : Nat) (h : a + n ≤ bs.length) : (slice bs a n).length = n := by
  simp [slice]
  omega

theorem slice_append_skip {xs ys : Bytes} {a n : Nat} (h : xs.length ≤ a) : slice (xs ++ ys) a n = slice ys (a - xs.length) n := by
  rw [slice, slice, List.drop_append, List.drop_of_length_le h, List.nil_append]

theorem slice_append_head (xs ys : Bytes) : slice (xs ++ ys) 0 xs.length = xs := by
  rw [slice, List.drop_zero, List.take_left]

theorem leAt_skip {xs ys : Bytes} {a n : Nat} (h : xs.length ≤ a) : leAt (xs ++ ys) a n = leAt ys (a - xs.length) n := by
  rw [leAt, leAt, slice_append_skip h]

theorem leAt_skip_leBytes {ys : Bytes} {m v a n : Nat} (h : m ≤ a) : leAt (leBytes m v ++ ys) a n = leAt ys (a - m) n := by
  rw [leAt_skip (by rw [leBytes_length]; exact h), leBytes_length]

theorem leAt_skip_padTo {xs ys : Bytes} {m a n : Nat} (h : m ≤ a) : leAt (padTo m xs ++ ys) a n = leAt ys (a - m) n := by
  rw [leAt_skip (by rw [padTo_length]; exact h), padTo_length]

theorem leAt_skip_cons {b : Byte} {ys : Bytes} {a n : Nat} (h : 1 ≤ a) : leAt (b :: ys) a n = leAt ys (a - 1) n :=
  leAt_skip (xs := [b]) h

theorem leAt_leBytes_append (n v : Nat) (ys : Bytes) : leAt (leBytes n v ++ ys) 0 n = v % 256 ^ n := by
  have hhead := slice_append_head (leBytes n v) ys
  rw [leBytes_length] at hhead
  rw [leAt, hhead, leNat_leBytes]

theorem leAt_leBytes (n v : Nat) : leAt (leBytes n v) 0 n = v % 256 ^ n := by
  have hhead := leAt_leBytes_append n v []
  rwa [List.append_nil] at hhead

theorem nth_skip {xs ys : Bytes} {i : Nat} (h : xs.length ≤ i) : nth 0 (xs ++ ys) i = nth 0 ys (i - xs.length) := by
  rw [nth, nth, List.getD_append_right _ _ _ _ h]

theorem nth_skip_leBytes {ys : Bytes} {m v i : Nat} (h : m ≤ i) : nth 0 (leBytes m v ++ ys) i = nth 0 ys (i - m) := by
  rw [nth_skip (by rw [leBytes_length]; exact h), leBytes_length]

theorem nth_skip_cons {b : Byte} {ys : Bytes} {i : Nat} (h : 1 ≤ i) : nth 0 (b :: ys) i = nth 0 ys (i - 1) := nth_skip (xs := [b]) h

theorem nth_cons_zero (b : Byte) (ys : Bytes) : nth 0 (b :: ys) 0 = b := rfl

theorem nth_padTo_append {n i : Nat} (hi : i < n) (xs ys : Bytes) : nth 0 (padTo n xs ++ ys) i = nth 0 xs i := by
  rw [nth, nth, List.getD_append _ _ _ _ (by rw [padTo_length]; exact hi), padTo, List.getD_eq_getElem?_getD,
    List.getD_eq_getElem?_getD, List.getElem?_take, if_pos hi, List.getElem?_append]
  split
  · rfl
  · rename_i hout
    rw [List.getElem?_eq_none (l := xs) (by omega), zeros, List.getElem?_replicate]
    split <;> rfl

/-! ### CRC-32C -/

theorem revBits_lt (w v : Nat) : revBits w v < 2 ^ w := by
  induction w generalizing v with
  | zero => exact Nat.zero_lt_one
  | succ w ih =>
    have hlow := ih (v / 2)
    rw [revBits, Nat.pow_succ]
    rcases Nat.mod_two_eq_zero_or_one v with h | h <;> rw [h] <;> omega

theorem crc32c_lt (bs : Bytes) : crc32c bs < 2 ^ 32 := by
  rw [crc32c, crcOf]
  exact Nat.xor_lt_two_pow (revBits_lt 32 _) (by decide)

/-- A CRC appended to bytes stands behind them. -/
theorem leAt_withCrcLe {bs : Bytes} {n : Nat} (h : bs.length = n) : leAt (withCrcLe bs) n 4 = crc32c bs := by
  rw [withCrcLe, leAt_skip (Nat.le_of_eq h), h, Nat.sub_self,
    leAt_leBytes]
  exact Nat.mod_eq_of_lt (crc32c_lt bs)

theorem take_withCrcLe {bs : Bytes} {n : Nat} (h : bs.length = n) : (withCrcLe bs).take n = bs := by
  rw [withCrcLe, List.take_append_of_le_length (Nat.le_of_eq h.symm), ← h, List.take_length]

theorem withCrcLe_length (bs : Bytes) : (withCrcLe bs).length = bs.length + 4 := by
  rw [withCrcLe, List.length_append, leBytes_length]

/-! ### The journal's slots and the copies of HEAD (R382 to R387) -/

theorem wf_mram (h : Safety.storesWf s) : swf 0 mramSize s.mram = true := by
  simp only [Safety.storesWf, Memory.wf, Bool.and_eq_true] at h
  exact h.1.2

theorem wf_flash (h : Safety.storesWf s) : swf 0xFF flashSize s.flash = true := by
  simp only [Safety.storesWf, Memory.wf, Bool.and_eq_true] at h
  exact h.2

/-- The log after HEAD has passed a slot (R384, R387). -/
def logAdvanced (anchor : Bool) (l : Log) : Log :=
  { l with
    sjHead := l.sjHead + 1
    sjWraps := if l.sjHead = 0x7FFF then satInc l.sjWraps else l.sjWraps
    anchor := if anchor then l.sjHead else l.anchor
    anchorValid := anchor || l.anchorValid }

theorem sjPut_eq (bs : Bytes) (anchor : Bool) (s : State) :
    sjPut bs anchor s =
      { s with
        log := logAdvanced anchor s.log
        mram := memWrite 0 mramSize (memWrite 0 mramSize (memWrite 0 mramSize s.mram (sjSlot s.log.sjHead.toNat) bs)
          0x3DFC00 (headBytes (logAdvanced anchor s.log))) 0x3DFC40 (headBytes (logAdvanced anchor s.log)) } := by
  cases anchor <;> rfl

theorem headBytes_length (l : Log) : (headBytes l).length = 12 := by
  rw [headBytes, withCrcLe_length, List.length_append, leBytes_length, leBytes_length]

theorem sjSlot_bounds (h : BitVec 15) : 0x80000 ≤ sjSlot h.toNat ∧ sjSlot h.toNat + 64 ≤ 0x3DFC00 := by
  have hlt := h.isLt
  rw [sjSlot]
  omega

/-- The bytes of MRAM after a journal record: its slot and the two copies of HEAD. -/
theorem sjWrites_mram {m : Mem} {p : Nat} {bs hb : Bytes} (hwf : swf 0 mramSize m = true) (hlen : bs.length = 64) (hhead : hb.length = 12)
    (hlow : 0x80000 ≤ p) (hhigh : p + 64 ≤ 0x3DFC00) :
    let m3 := memWrite 0 mramSize (memWrite 0 mramSize (memWrite 0 mramSize m p bs) 0x3DFC00 hb) 0x3DFC40 hb
    memRead 0 m3 p 64 = bs ∧ memRead 0 m3 0x3DFC00 12 = hb ∧ memRead 0 m3 0x3DFC40 12 = hb ∧
      ∀ a, (a < p ∨ p + 64 ≤ a) → (a < 0x3DFC00 ∨ 0x3DFC0C ≤ a) → (a < 0x3DFC40 ∨ 0x3DFC4C ≤ a) → memGet 0 m3 a = memGet 0 m a := by
  have hsize : mramSize = 0x800000 := rfl
  have hwf1 := memWrite_wf 0 mramSize m p bs hwf
  have hwf2 := memWrite_wf 0 mramSize _ 0x3DFC00 hb hwf1
  have hslot := memRead_memWrite 0 mramSize m p bs hwf (by omega)
  have hfirst := memRead_memWrite 0 mramSize _ 0x3DFC00 hb hwf1 (by omega)
  have hsecond := memRead_memWrite 0 mramSize _ 0x3DFC40 hb hwf2 (by omega)
  rw [hlen] at hslot
  rw [hhead] at hfirst hsecond
  refine ⟨?_, ?_, hsecond, fun a hout hcopy hcopy2 => ?_⟩
  · exact (memRead_memWrite_apart 0 mramSize _ 0x3DFC40 hb hwf2 (by omega) p 64 (by omega)).trans
      ((memRead_memWrite_apart 0 mramSize _ 0x3DFC00 hb hwf1 (by omega) p 64 (by omega)).trans hslot)
  · exact (memRead_memWrite_apart 0 mramSize _ 0x3DFC40 hb hwf2 (by omega) 0x3DFC00 12 (by omega)).trans hfirst
  · rw [memGet_memWrite 0 mramSize _ 0x3DFC40 a hb hwf2 (by omega), if_neg (by omega),
      memGet_memWrite 0 mramSize _ 0x3DFC00 a hb hwf1 (by omega), if_neg (by omega),
      memGet_memWrite 0 mramSize m p a bs hwf (by omega), if_neg (by omega)]

theorem sjPut_mram (bs : Bytes) (hlen : bs.length = 64) (anchor : Bool) (hwf : swf 0 mramSize s.mram = true) :
    mramRead (sjSlot s.log.sjHead.toNat) 64 (sjPut bs anchor s) = bs ∧
      mramRead 0x3DFC00 12 (sjPut bs anchor s) = headBytes (logAdvanced anchor s.log) ∧
      mramRead 0x3DFC40 12 (sjPut bs anchor s) = headBytes (logAdvanced anchor s.log) ∧
      ∀ a, (a < sjSlot s.log.sjHead.toNat ∨ sjSlot s.log.sjHead.toNat + 64 ≤ a) → (a < 0x3DFC00 ∨ 0x3DFC0C ≤ a) →
        (a < 0x3DFC40 ∨ 0x3DFC4C ≤ a) → memGet 0 (sjPut bs anchor s).mram a = memGet 0 s.mram a := by
  obtain ⟨hlow, hhigh⟩ := sjSlot_bounds s.log.sjHead
  have hmram := congrArg State.mram (sjPut_eq bs anchor s)
  dsimp only at hmram
  rw [mramRead, mramRead, mramRead, hmram]
  exact sjWrites_mram hwf hlen (headBytes_length _) hlow hhigh

/-- The copies of HEAD and the wrap count read as they were saved. -/
theorem headCopy_of_read {c : Nat} {l : Log} (h : mramRead c 12 t = headBytes l) :
    headCopy c t = some (l.sjHead.toNat, l.sjWraps.toNat) := by
  have hlen : (leBytes 4 l.sjHead.toNat ++ leBytes 4 l.sjWraps.toNat).length = 8 := by simp
  have hhead : leAt (headBytes l) 0 4 = l.sjHead.toNat := by
    rw [headBytes, withCrcLe, List.append_assoc, leAt_leBytes_append]
    exact Nat.mod_eq_of_lt (Nat.lt_trans l.sjHead.isLt (by decide))
  have hwraps : leAt (headBytes l) 4 4 = l.sjWraps.toNat := by
    rw [headBytes, withCrcLe, List.append_assoc, leAt_skip_leBytes (Nat.le_refl 4), Nat.sub_self, leAt_leBytes_append]
    exact Nat.mod_eq_of_lt l.sjWraps.isLt
  have hcrc : leAt (headBytes l) 8 4 = crc32c ((headBytes l).take 8) := by
    rw [headBytes, leAt_withCrcLe hlen, take_withCrcLe hlen]
  rw [headCopy, h, if_pos (.inr hcrc), hhead, hwraps]

/-- The first 60 bytes of a journal record. -/
def sjBody (r : Record) : Bytes :=
  leBytes 2 0x534A ++ leBytes 2 r.code.toNat ++ leBytes 6 r.optMs ++ leBytes 4 r.cycles.toNat ++ [r.source, r.severity] ++
    padTo 40 r.items ++ leBytes 4 r.notWritten

theorem sjBody_length (r : Record) : (sjBody r).length = 60 := by
  simp [sjBody]

theorem sjBytes_eq (r : Record) : sjBytes r = withCrcLe (sjBody r) := rfl

theorem sjBytes_length (r : Record) : (sjBytes r).length = 64 := by rw [sjBytes_eq, withCrcLe_length, sjBody_length]

/-- The fields of a journal record stand at their places (R382). -/
theorem sjBytes_fields (r : Record) (hop : r.optMs < 2 ^ 48) :
    leAt (sjBytes r) 0 2 = 0x534A ∧ leAt (sjBytes r) 2 2 = r.code.toNat ∧ leAt (sjBytes r) 4 6 = r.optMs ∧
      leAt (sjBytes r) 10 4 = r.cycles.toNat ∧ nth 0 (sjBytes r) 14 = r.source ∧ nth 0 (sjBytes r) 15 = r.severity ∧
      leAt (sjBytes r) 56 4 = r.notWritten % 2 ^ 32 ∧ leAt (sjBytes r) 60 4 = crc32c ((sjBytes r).take 60) := by
  have hflat : sjBytes r = leBytes 2 0x534A ++ (leBytes 2 r.code.toNat ++ (leBytes 6 r.optMs ++ (leBytes 4 r.cycles.toNat ++
      (r.source :: r.severity :: (padTo 40 r.items ++ (leBytes 4 r.notWritten ++ leBytes 4 (crc32c (sjBody r)))))))) := by
    rw [sjBytes_eq, withCrcLe]
    generalize crc32c (sjBody r) = crc
    rw [sjBody]
    simp only [List.append_assoc, List.cons_append, List.nil_append]
  have hcrc : leAt (sjBytes r) 60 4 = crc32c ((sjBytes r).take 60) := by
    rw [sjBytes_eq, leAt_withCrcLe (sjBody_length r), take_withCrcLe (sjBody_length r)]
  refine ⟨?_, ?_, ?_, ?_, ?_, ?_, ?_, hcrc⟩ <;> rw [hflat]
  · rw [leAt_leBytes_append]
    rfl
  · rw [leAt_skip_leBytes (by decide), leAt_leBytes_append]
    exact Nat.mod_eq_of_lt r.code.isLt
  · rw [leAt_skip_leBytes (by decide), leAt_skip_leBytes (by decide), leAt_leBytes_append]
    exact Nat.mod_eq_of_lt hop
  · rw [leAt_skip_leBytes (by decide), leAt_skip_leBytes (by decide), leAt_skip_leBytes (by decide), leAt_leBytes_append]
    exact Nat.mod_eq_of_lt r.cycles.isLt
  · rw [nth_skip_leBytes (by decide), nth_skip_leBytes (by decide), nth_skip_leBytes (by decide), nth_skip_leBytes (by decide)]
    rfl
  · rw [nth_skip_leBytes (by decide), nth_skip_leBytes (by decide), nth_skip_leBytes (by decide), nth_skip_leBytes (by decide)]
    rfl
  · rw [leAt_skip_leBytes (by decide), leAt_skip_leBytes (by decide), leAt_skip_leBytes (by decide), leAt_skip_leBytes (by decide),
      leAt_skip_cons (by decide), leAt_skip_cons (by decide), leAt_skip_padTo (by decide), leAt_leBytes_append]
    rfl

/-! ### Records taken from their queues -/

theorem drop1_frame (n : Nat) (s : State) : drop1 n s = { s with queues := (drop1 n s).queues } := by
  rw [drop1, ringTake]
  split <;> rfl

theorem ringGet_drop1 {n m : Nat} (hm : m ≠ n) (s : State) : ringGet (drop1 n s) m = ringGet s m :=
  (Safety.ringTake_booked n s).ringsKept m (by simp [hm])

/-- The state once the head of Q0002 is taken (R384). -/
def sjTaken (rs : List Record) (s : State) : State := drop1 2 { s with log := { s.log with sjQueue := rs } }

theorem sjTaken_frame (rs : List Record) (s : State) :
    sjTaken rs s = { s with queues := (sjTaken rs s).queues, log := { s.log with sjQueue := rs } } := drop1_frame 2 _

theorem sjTake_of_queue {r : Record} {rs : List Record} (hown : s.log.sjOwn = []) (hqueue : s.log.sjQueue = r :: rs) :
    sjTake s = some (r, sjTaken rs s) := by
  rw [sjTake, hown, hqueue]
  rfl

theorem sjTake_of_own {d : Record} {ds : List Record} (hown : s.log.sjOwn = d :: ds) :
    sjTake s = some (d, { s with log := { s.log with sjOwn := ds } }) := by
  rw [sjTake, hown]

theorem exec_sjRecordWrite (hawake : awake s = true) {r : Record} {u : State} (htake : sjTake s = some (r, u)) (first second : Bool) :
    exec (.sjRecordWrite first second) s = .next (if first || second then sjStore r u else sjFailed r u) := by
  refine congrArg Host.Outcome.next ((if_pos hawake).trans ?_)
  rw [sjRecordWrite, htake]

theorem sjStore_of_early {r : Record} (h : s.log.sjHead ≠ 0x7FFF) : sjStore r s = sjPut (sjBytes r) (r.code = 0x101) s := by
  rw [sjStore, decide_eq_false h]
  rfl

theorem sjStore_of_last {r : Record} (h : s.log.sjHead = 0x7FFF) :
    sjStore r s = sjDirect r 0xC01 0 (item (sjPut (sjBytes r) (r.code = 0x101) s).log.sjWraps.toNat)
      (sjPut (sjBytes r) (r.code = 0x101) s) := by
  rw [sjStore, decide_eq_true h]
  rfl

/-- The 64 bytes that a failed write leaves in its slot are open (log 3). -/
def openSlot (s : State) : Bytes := (List.range 16).flatMap fun k => leBytes 4 (Config.freeWord (s.clk.freeCount + k)).toNat

theorem openSlot_length (s : State) : (openSlot s).length = 64 := by
  simp [openSlot, List.length_flatMap]

/-- The state of a failed write before its slot is passed (R386). -/
def sjFailing (s : State) : State :=
  { s with clk := { s.clk with freeCount := s.clk.freeCount + 16 }, log := { s.log with sjFails := satInc s.log.sjFails } }

theorem sjFailed_of_early (r : Record) (h : s.log.sjHead ≠ 0x7FFF) :
    sjFailed r s = sjDirect r 0xC03 2 (item s.log.sjHead.toNat ++ item r.code.toNat) (sjPut (openSlot s) false (sjFailing s)) := by
  have hslot : s.log.sjHead.toNat ≠ 0x7FFF := fun heq => h (BitVec.eq_of_toNat_eq heq)
  rw [sjFailed]
  dsimp only
  rw [decide_eq_false hslot]
  rfl

theorem sjFailed_of_last (r : Record) (h : s.log.sjHead = 0x7FFF) :
    sjFailed r s = sjDirect r 0xC03 2 (item 0x7FFF ++ item r.code.toNat)
      (sjDirect r 0xC01 0 (item (sjPut (openSlot s) false (sjFailing s)).log.sjWraps.toNat) (sjPut (openSlot s) false (sjFailing s))) := by
  have hslot : s.log.sjHead.toNat = 0x7FFF := congrArg BitVec.toNat h
  rw [sjFailed]
  dsimp only
  rw [decide_eq_true hslot, hslot]
  rfl

theorem satInc_half (c : Half) : satInc c = if c = 0xFFFF then c else c + 1 := rfl

/-- The records that the Marshal makes of its own of one it writes (R386, R387). -/
def ownRecord (r : Record) (code sev : Nat) (items : Bytes) : Record :=
  { code := BitVec.ofNat 16 code, optMs := r.optMs, cycles := r.cycles, source := sourceOf code, severity := BitVec.ofNat 8 sev
    items := items }

theorem sjDirect_eq (r : Record) (code sev : Nat) (items : Bytes) (s : State) :
    sjDirect r code sev items s = { s with log := { s.log with sjOwn := s.log.sjOwn ++ [ownRecord r code sev items] } } := rfl

theorem sjHead_succ {h : BitVec 15} (hlast : h ≠ 0x7FFF) : (h + 1).toNat = h.toNat + 1 := by
  have hne : h.toNat ≠ 0x7FFF := fun heq => hlast (BitVec.eq_of_toNat_eq heq)
  have hlt := h.isLt
  rw [BitVec.toNat_add]
  exact Nat.mod_eq_of_lt (by simp; omega)

theorem logAdvanced_early {l : Log} (anchor : Bool) (h : l.sjHead ≠ 0x7FFF) : (logAdvanced anchor l).sjWraps = l.sjWraps := if_neg h

theorem logAdvanced_last {l : Log} (anchor : Bool) (h : l.sjHead = 0x7FFF) :
    (logAdvanced anchor l).sjHead = 0 ∧
      (logAdvanced anchor l).sjWraps = (if l.sjWraps = 0xFFFFFFFF then l.sjWraps else l.sjWraps + 1) := by
  refine ⟨?_, (if_pos h).trans (satInc_word _)⟩
  change l.sjHead + 1 = 0
  rw [h]
  rfl

/-- A record of Q0002 that is written (R382, R384). -/
theorem sjStore_leaves {r : Record} {rs : List Record} (hwf : Safety.storesWf s) (hlast : s.log.sjHead ≠ 0x7FFF)
    (hop : r.optMs < 2 ^ 48) (hlost : r.notWritten < 2 ^ 32) :
    let t := sjStore r (sjTaken rs s)
    t = { s with mram := t.mram, queues := t.queues, log := { s.log with
      sjQueue := rs, sjHead := s.log.sjHead + 1, anchor := t.log.anchor, anchorValid := t.log.anchorValid } } ∧
    (∀ m, m ≠ 2 → ringGet t m = ringGet s m) ∧
    (∀ a, (a < 0x80000 + 64 * s.log.sjHead.toNat ∨ 0x80000 + 64 * s.log.sjHead.toNat + 64 ≤ a) →
      (a < 0x3DFC00 ∨ 0x3DFC0C ≤ a) → (a < 0x3DFC40 ∨ 0x3DFC4C ≤ a) → memGet 0 t.mram a = memGet 0 s.mram a) ∧
    (∀ c ∈ [0x3DFC00, 0x3DFC40], headCopy c t = some (s.log.sjHead.toNat + 1, s.log.sjWraps.toNat)) ∧
    (let b := mramRead (0x80000 + 64 * s.log.sjHead.toNat) 64 t
     leAt b 0 2 = 0x534A ∧ leAt b 2 2 = r.code.toNat ∧ leAt b 4 6 = r.optMs ∧ leAt b 10 4 = r.cycles.toNat ∧
     nth 0 b 14 = r.source ∧ nth 0 b 15 = r.severity ∧ leAt b 56 4 = r.notWritten ∧ leAt b 60 4 = crc32c (b.take 60)) ∧
    (r.code = 0x101 → t.log.anchor = s.log.sjHead ∧ t.log.anchorValid = true) ∧
    (r.code ≠ 0x101 → t.log.anchor = s.log.anchor) := by
  intro t
  have htaken := sjTaken_frame rs s
  have hlog : (sjTaken rs s).log = { s.log with sjQueue := rs } := by rw [htaken]
  have hmram : (sjTaken rs s).mram = s.mram := by rw [htaken]
  have hput : t = sjPut (sjBytes r) (r.code = 0x101) (sjTaken rs s) := sjStore_of_early (by rw [hlog]; exact hlast)
  obtain ⟨hslot, hfirst, hsecond, hout⟩ := sjPut_mram (s := sjTaken rs s) (sjBytes r) (sjBytes_length r) (r.code = 0x101)
    (by rw [hmram]; exact wf_mram hwf)
  have heq := sjPut_eq (sjBytes r) (r.code = 0x101) (sjTaken rs s)
  rw [← hput] at hslot hfirst hsecond hout heq
  clear_value t
  have htlog : t.log = logAdvanced (r.code = 0x101) { s.log with sjQueue := rs } := by rw [heq, hlog]
  have hqueues : t.queues = (sjTaken rs s).queues := by rw [heq]
  have hhead : (logAdvanced (r.code = 0x101) { s.log with sjQueue := rs }).sjWraps = s.log.sjWraps :=
    logAdvanced_early (l := { s.log with sjQueue := rs }) _ hlast
  have hcopy {c : Nat} (h : mramRead c 12 t = headBytes (logAdvanced (r.code = 0x101) (sjTaken rs s).log)) :
      headCopy c t = some (s.log.sjHead.toNat + 1, s.log.sjWraps.toNat) := by
    rw [hlog] at h
    rw [headCopy_of_read h, hhead, ← sjHead_succ hlast]
    rfl
  rw [hlog] at hslot hout
  rw [hmram] at hout
  have hlogged : t.log = { s.log with
      sjQueue := rs, sjHead := s.log.sjHead + 1, anchor := t.log.anchor, anchorValid := t.log.anchorValid } := by
    have hadvanced : logAdvanced (r.code = 0x101) { s.log with sjQueue := rs } = { s.log with
        sjQueue := rs, sjHead := s.log.sjHead + 1
        sjWraps := (logAdvanced (r.code = 0x101) { s.log with sjQueue := rs }).sjWraps
        anchor := (logAdvanced (r.code = 0x101) { s.log with sjQueue := rs }).anchor
        anchorValid := (logAdvanced (r.code = 0x101) { s.log with sjQueue := rs }).anchorValid } := rfl
    rw [hhead] at hadvanced
    rw [htlog]
    exact hadvanced
  refine ⟨?_, fun m hm => ?_, hout, fun c hc => ?_, ?_, fun hanchor => ?_, fun hother => ?_⟩
  · have hkept : t = { sjTaken rs s with log := t.log, mram := t.mram } := by rw [heq]
    rw [htaken, ← hqueues] at hkept
    rw [← hlogged]
    exact hkept
  · have hring := ringGet_drop1 hm { s with log := { s.log with sjQueue := rs } }
    rw [ringGet, hqueues]
    exact hring
  · rw [List.mem_cons, List.mem_singleton] at hc
    rcases hc with rfl | rfl
    · exact hcopy hfirst
    · exact hcopy hsecond
  · have hfields := sjBytes_fields r hop
    rw [Nat.mod_eq_of_lt hlost] at hfields
    intro b
    rw [show b = sjBytes r from hslot]
    exact hfields
  · rw [htlog]
    exact ⟨if_pos (decide_eq_true hanchor), by rw [logAdvanced, decide_eq_true hanchor, Bool.true_or]⟩
  · rw [htlog]
    exact if_neg (by rw [decide_eq_false hother]; decide)

theorem sjPut_log (bs : Bytes) (anchor : Bool) (s : State) : (sjPut bs anchor s).log = logAdvanced anchor s.log :=
  congrArg State.log (sjPut_eq bs anchor s)

/-- A record that fails is left, and HEAD passes its slot (R386). -/
theorem sjFailed_leaves {r : Record} (hwf : swf 0 mramSize s.mram = true) (hlast : s.log.sjHead ≠ 0x7FFF) :
    let t := sjFailed r s
    let d := ownRecord r 0xC03 2 (item s.log.sjHead.toNat ++ item r.code.toNat)
    t.log.sjHead = s.log.sjHead + 1 ∧ t.log.sjQueue = s.log.sjQueue ∧ t.log.sjOwn = s.log.sjOwn ++ [d] ∧
      t.log.sjWraps = s.log.sjWraps ∧ t.log.sjFails = (if s.log.sjFails = 0xFFFF then s.log.sjFails else s.log.sjFails + 1) ∧
      (∀ a, (a < 0x80000 + 64 * s.log.sjHead.toNat ∨ 0x80000 + 64 * s.log.sjHead.toNat + 64 ≤ a) →
        (a < 0x3DFC00 ∨ 0x3DFC0C ≤ a) → (a < 0x3DFC40 ∨ 0x3DFC4C ≤ a) → memGet 0 t.mram a = memGet 0 s.mram a) ∧
      t.data = s.data ∧ t.flash = s.flash ∧ t.power = s.power := by
  intro t d
  have hput := sjPut_eq (openSlot s) false (sjFailing s)
  obtain ⟨-, -, -, hout⟩ := sjPut_mram (s := sjFailing s) (openSlot s) (openSlot_length s) false hwf
  have ht : t = sjDirect r 0xC03 2 (item s.log.sjHead.toNat ++ item r.code.toNat) (sjPut (openSlot s) false (sjFailing s)) :=
    sjFailed_of_early r hlast
  clear_value t
  rw [ht, sjDirect_eq]
  generalize sjPut (openSlot s) false (sjFailing s) = u at hput hout
  have hlog : u.log = logAdvanced false (sjFailing s).log := by rw [hput]
  refine ⟨?_, ?_, ?_, ?_, ?_, hout, ?_, ?_, ?_⟩ <;> dsimp only
  · rw [hlog]
    rfl
  · rw [hlog]
    rfl
  · rw [hlog]
    rfl
  · rw [hlog]
    exact logAdvanced_early (l := (sjFailing s).log) false hlast
  · rw [hlog]
    exact satInc_half s.log.sjFails
  · rw [hput]
    rfl
  · rw [hput]
    rfl
  · rw [hput]
    rfl

/-- Settles O15. -/
theorem journalRecordsTakeTheirSlots : Obligations.JournalRecordsTakeTheirSlots := by
  refine ⟨fun ok r rs s hawake hwf hqueue hown hlast hop hlost => ?written, fun r rs s hawake hwf hown hqueue => ?failed,
    fun d ds s hawake hwf hown hlast hop => ?own⟩
  case written =>
    have hexec := exec_sjRecordWrite hawake (sjTake_of_queue hown hqueue)
    refine ⟨sjStore r (sjTaken rs s), (hexec true ok).trans rfl, (hexec ok true).trans ?_, sjStore_leaves hwf hlast hop hlost⟩
    rw [Bool.or_true]
    rfl
  case failed =>
    have hexec := exec_sjRecordWrite hawake (sjTake_of_queue hown hqueue)
    have htaken := sjTaken_frame rs s
    have hlog : (sjTaken rs s).log = { s.log with sjQueue := rs } := by rw [htaken]
    have hmram : (sjTaken rs s).mram = s.mram := by rw [htaken]
    have hstores : (sjTaken rs s).data = s.data ∧ (sjTaken rs s).flash = s.flash ∧ (sjTaken rs s).power = s.power := by
      rw [htaken]
      exact ⟨rfl, rfl, rfl⟩
    intro own wraps
    refine ⟨fun hearly => ?_, fun hlast => ⟨?_, ?_⟩⟩
    · obtain ⟨hhead, hrest, hmade, hwraps, hfails, hout, hdata, hflash, hpower⟩ := sjFailed_leaves (s := sjTaken rs s) (r := r)
        (by rw [hmram]; exact wf_mram hwf) (by rw [hlog]; exact hearly)
      rw [hlog] at hhead hrest hmade hwraps hfails hout
      rw [hown] at hmade
      rw [hmram] at hout
      obtain ⟨hdata', hflash', hpower'⟩ := hstores
      exact ⟨_, _, hexec false false, hhead, hrest, hmade, ⟨rfl, rfl, rfl, rfl, rfl⟩, hwraps, hfails, hout, hdata.trans hdata',
        hflash.trans hflash', hpower.trans hpower'⟩
    · have hstore := sjStore_of_last (r := r) (s := sjTaken rs s) (by rw [hlog]; exact hlast)
      have hput := sjPut_log (sjBytes r) (r.code = 0x101) (sjTaken rs s)
      obtain ⟨hhead, hwraps⟩ := logAdvanced_last (l := (sjTaken rs s).log) (decide (r.code = 0x101)) (by rw [hlog]; exact hlast)
      rw [← hput] at hhead hwraps
      rw [show (sjTaken rs s).log.sjWraps = s.log.sjWraps by rw [hlog]] at hwraps
      have hmade : (sjPut (sjBytes r) (r.code = 0x101) (sjTaken rs s)).log.sjOwn = [] := by
        rw [hput, hlog]
        exact hown
      refine ⟨_, ownRecord r 0xC01 0 (item wraps.toNat), (hexec true true).trans (congrArg Host.Outcome.next hstore), ?_, ?_, ?_,
        rfl, rfl, rfl, rfl, rfl⟩ <;> rw [sjDirect_eq] <;> dsimp only
      · exact hhead
      · exact hwraps
      · rw [hmade, hwraps]
        rfl
    · have hstore := sjFailed_of_last (s := sjTaken rs s) r (by rw [hlog]; exact hlast)
      have hput := sjPut_log (openSlot (sjTaken rs s)) false (sjFailing (sjTaken rs s))
      obtain ⟨hhead, hwraps⟩ := logAdvanced_last (l := (sjFailing (sjTaken rs s)).log) false (by
        rw [show (sjFailing (sjTaken rs s)).log.sjHead = (sjTaken rs s).log.sjHead from rfl, hlog]; exact hlast)
      rw [← hput] at hhead hwraps
      rw [show (sjFailing (sjTaken rs s)).log.sjWraps = s.log.sjWraps from
        (show (sjTaken rs s).log.sjWraps = s.log.sjWraps by rw [hlog])] at hwraps
      have hmade : (sjPut (openSlot (sjTaken rs s)) false (sjFailing (sjTaken rs s))).log.sjOwn = [] := by
        rw [hput, show (sjFailing (sjTaken rs s)).log = { (sjTaken rs s).log with sjFails := satInc (sjTaken rs s).log.sjFails }
          from rfl, hlog]
        exact hown
      refine ⟨_, ownRecord r 0xC01 0 (item wraps.toNat), ownRecord r 0xC03 2 (item 0x7FFF ++ item r.code.toNat),
        (hexec false false).trans (congrArg Host.Outcome.next hstore), ?_, ?_, ?_, ⟨rfl, rfl, rfl, rfl, rfl⟩, rfl, rfl, rfl, rfl, rfl⟩ <;>
        rw [sjDirect_eq, sjDirect_eq] <;> dsimp only
      · exact hhead
      · exact hwraps
      · rw [hmade, hwraps]
        rfl
  case own =>
    have hexec := exec_sjRecordWrite hawake (sjTake_of_own hown)
    refine ⟨⟨_, hexec true true, ?_⟩, ⟨_, hexec false false, ?_⟩⟩
    · rw [show (if (true || true) = true then sjStore d { s with log := { s.log with sjOwn := ds } }
        else sjFailed d { s with log := { s.log with sjOwn := ds } }) = sjStore d { s with log := { s.log with sjOwn := ds } } from rfl,
        sjStore_of_early (by exact hlast)]
      obtain ⟨hslot, -, -, -⟩ := sjPut_mram (s := { s with log := { s.log with sjOwn := ds } }) (sjBytes d) (sjBytes_length d)
        (d.code = 0x101) (wf_mram hwf)
      have hput := sjPut_eq (sjBytes d) (d.code = 0x101) { s with log := { s.log with sjOwn := ds } }
      generalize sjPut (sjBytes d) (decide (d.code = 0x101)) { s with log := { s.log with sjOwn := ds } } = t at hslot hput ⊢
      obtain ⟨hformat, hcode, hop', -, -, -, -, hcrc⟩ := sjBytes_fields d hop
      have hlog : t.log = logAdvanced (d.code = 0x101) { s.log with sjOwn := ds } := by rw [hput]
      refine ⟨?_, ?_, ?_, ?_, ?_⟩
      · rw [hlog]
        rfl
      · rw [hlog]
        rfl
      · rw [hput]
      · rw [hlog]
        rfl
      · intro b
        rw [show b = sjBytes d from hslot]
        exact ⟨hformat, hcode, hop', hcrc⟩
    · obtain ⟨hhead, hrest, hmade, -, hfails, -⟩ := sjFailed_leaves (s := { s with log := { s.log with sjOwn := ds } }) (r := d)
        (wf_mram hwf) hlast
      refine ⟨hhead, hrest, hfails, ?_⟩
      exact (congrArg (List.map Record.code) hmade).trans (List.map_append ..)

/-! ### The trace (R388 to R390) -/

/-- The first 60 bytes of a trace record. -/
def trBody (seq : DWord) (r : Record) : Bytes :=
  leBytes 2 0x5254 ++ leBytes 2 r.code.toNat ++ leBytes 8 seq.toNat ++ leBytes 6 r.optMs ++ [r.source, r.severity] ++
    padTo 36 r.items ++ leBytes 4 r.notWritten

theorem trBytes_eq (seq : DWord) (r : Record) : trBytes seq r = withCrcLe (trBody seq r) := rfl

theorem trBody_length (seq : DWord) (r : Record) : (trBody seq r).length = 60 := by
  simp [trBody]

theorem trBytes_length (seq : DWord) (r : Record) : (trBytes seq r).length = 64 := by
  rw [trBytes_eq, withCrcLe_length, trBody_length]

/-- The fields of a trace record stand at their places (R388). -/
theorem trBytes_fields (seq : DWord) (r : Record) :
    let b := trBytes seq r
    leAt b 0 2 = 0x5254 ∧ leAt b 2 2 = r.code.toNat ∧ leAt b 4 8 = seq.toNat ∧ leAt b 12 6 = r.optMs % 2 ^ 48 ∧
      nth 0 b 18 = r.source ∧ nth 0 b 19 = r.severity ∧ (∀ k : Fin 36, nth 0 b (20 + k) = nth 0 r.items k) ∧
      leAt b 56 4 = r.notWritten % 2 ^ 32 ∧ leAt b 60 4 = crc32c (b.take 60) := by
  intro b
  have hflat : b = leBytes 2 0x5254 ++ (leBytes 2 r.code.toNat ++ (leBytes 8 seq.toNat ++ (leBytes 6 r.optMs ++
      (r.source :: r.severity :: (padTo 36 r.items ++ (leBytes 4 r.notWritten ++ leBytes 4 (crc32c (trBody seq r)))))))) := by
    change trBytes seq r = _
    rw [trBytes_eq, withCrcLe]
    generalize crc32c (trBody seq r) = crc
    rw [trBody]
    simp only [List.append_assoc, List.cons_append, List.nil_append]
  have hcrc : leAt b 60 4 = crc32c (b.take 60) := by
    change leAt (trBytes seq r) 60 4 = crc32c ((trBytes seq r).take 60)
    rw [trBytes_eq, leAt_withCrcLe (trBody_length seq r), take_withCrcLe (trBody_length seq r)]
  refine ⟨?_, ?_, ?_, ?_, ?_, ?_, fun k => ?_, ?_, hcrc⟩ <;> rw [hflat]
  · rw [leAt_leBytes_append]
    rfl
  · rw [leAt_skip_leBytes (by decide), leAt_leBytes_append]
    exact Nat.mod_eq_of_lt r.code.isLt
  · rw [leAt_skip_leBytes (by decide), leAt_skip_leBytes (by decide), leAt_leBytes_append]
    exact Nat.mod_eq_of_lt seq.isLt
  · rw [leAt_skip_leBytes (by decide), leAt_skip_leBytes (by decide), leAt_skip_leBytes (by decide), leAt_leBytes_append]
    rfl
  · rw [nth_skip_leBytes (by decide), nth_skip_leBytes (by decide), nth_skip_leBytes (by decide), nth_skip_leBytes (by decide)]
    rfl
  · rw [nth_skip_leBytes (by decide), nth_skip_leBytes (by decide), nth_skip_leBytes (by decide), nth_skip_leBytes (by decide)]
    rfl
  · rw [nth_skip_leBytes (by omega), nth_skip_leBytes (by omega), nth_skip_leBytes (by omega), nth_skip_leBytes (by omega),
      nth_skip_cons (by omega), nth_skip_cons (by omega), show 20 + k.val - 2 - 2 - 8 - 6 - 1 - 1 = k by omega, nth_padTo_append k.isLt]
  · rw [leAt_skip_leBytes (by decide), leAt_skip_leBytes (by decide), leAt_skip_leBytes (by decide), leAt_skip_leBytes (by decide),
      leAt_skip_cons (by decide), leAt_skip_cons (by decide), leAt_skip_padTo (by decide), leAt_leBytes_append]
    rfl

theorem memGet_memErase (m : Mem) (a n x : Nat) :
    memGet 0xFF (memErase m a n) x = if a ≤ x ∧ x < a + n then 0xFF else memGet 0xFF m x := by
  induction m with
  | nil => simp [memErase, memGet, sget]
  | cons c m ih =>
    have hhead : memGet 0xFF (c :: m) x = if c.1 = x then c.2 else memGet 0xFF m x := rfl
    by_cases hin : a ≤ c.1 ∧ c.1 < a + n
    · have hdrop : memErase (c :: m) a n = memErase m a n := List.filter_cons_of_neg (by simp [hin])
      rw [hdrop, ih, hhead]
      by_cases hx : a ≤ x ∧ x < a + n
      · rw [if_pos hx, if_pos hx]
      · rw [if_neg hx, if_neg hx, if_neg fun (heq : c.1 = x) => hx (heq ▸ hin)]
    · have hkeep : memErase (c :: m) a n = c :: memErase m a n :=
        List.filter_cons_of_pos (by simp; omega)
      have hhead' : memGet 0xFF (c :: memErase m a n) x = if c.1 = x then c.2 else memGet 0xFF (memErase m a n) x := rfl
      rw [hkeep, hhead', ih, hhead]
      by_cases hx : c.1 = x
      · rw [if_pos hx, if_pos hx, if_neg fun h => hin (hx.symm ▸ h)]
      · rw [if_neg hx, if_neg hx]

/-- The state once the head of Q0003 is taken and its record stands in its slot (R388). -/
def trWritten (r : Record) (rs : List Record) (s : State) : State :=
  trNext (flashWrite (trSlot (s.log.trSeq.toNat % 262144)) (trBytes s.log.trSeq r)
    (drop1 3 { s with log := { s.log with trQueue := rs } }))

theorem trWritten_eq (r : Record) (rs : List Record) (s : State) :
    trWritten r rs s = { s with
      flash := memWrite 0xFF flashSize s.flash (trSlot (s.log.trSeq.toNat % 262144)) (trBytes s.log.trSeq r)
      queues := (drop1 3 { s with log := { s.log with trQueue := rs } }).queues
      log := { s.log with
        trQueue := rs, trSeq := s.log.trSeq + 1
        trSkipped := if (s.log.trSeq.toNat + 1) % 1024 = 0 then 0 else s.log.trSkipped } } := by
  rw [trWritten, drop1_frame]
  rfl

theorem trRecordWrite_of_queue {r : Record} {rs : List Record} (hqueue : s.log.trQueue = r :: rs) :
    trRecordWrite s =
      if s.log.trSeq.toNat % 1024 = 511 + s.log.trSkipped then
        { trWritten r rs s with log := { (trWritten r rs s).log with
            erasing := true, erasingBlock := (s.log.trSeq.toNat % 262144 / 1024 + 1) % 256 } }
      else trWritten r rs s := by
  rw [trRecordWrite, hqueue, ← Nat.mod_mod_of_dvd s.log.trSeq.toNat (show 1024 ∣ 262144 by decide)]
  rfl

theorem trWritten_flash (hwf : Safety.storesWf s) (r : Record) (rs : List Record) (ht : t.flash = (trWritten r rs s).flash) :
    let a := 0x5000000 + 64 * (s.log.trSeq.toNat % 262144)
    (∀ x, (x < a ∨ a + 64 ≤ x) → memGet 0xFF t.flash x = memGet 0xFF s.flash x) ∧
      flashRead a 64 t = trBytes s.log.trSeq r := by
  intro a
  have hlt : s.log.trSeq.toNat % 262144 < 262144 := Nat.mod_lt _ (by decide)
  have hsize : flashSize = 0x8000000 := rfl
  have hlen := trBytes_length s.log.trSeq r
  have ha : a = 0x5000000 + 64 * (s.log.trSeq.toNat % 262144) := rfl
  have hflash : t.flash = memWrite 0xFF flashSize s.flash a (trBytes s.log.trSeq r) :=
    ht.trans (congrArg State.flash (trWritten_eq r rs s))
  have hread := memRead_memWrite 0xFF flashSize s.flash a (trBytes s.log.trSeq r) (wf_flash hwf) (by omega)
  rw [hlen] at hread
  clear_value a
  refine ⟨fun x hx => ?_, ?_⟩
  · rw [hflash, memGet_memWrite 0xFF flashSize s.flash a x _ (wf_flash hwf) (by omega), if_neg (by omega)]
  · rw [flashRead, hflash, hread]

/-- Settles O16. -/
theorem traceRecordTakesTheSlotOfItsSeq : Obligations.TraceRecordTakesTheSlotOfItsSeq := by
  refine fun s hawake hwf => ⟨fun r rs hqueue => ?written, fun herasing => ?erased⟩
  case written =>
    have hdoes := trRecordWrite_of_queue hqueue
    have hwritten := trWritten_eq r rs s
    have hrings (m : Nat) (hm : m ≠ 3) : ringGet (trWritten r rs s) m = ringGet s m := by
      rw [ringGet, hwritten]
      exact ringGet_drop1 hm { s with log := { s.log with trQueue := rs } }
    obtain ⟨t, ht⟩ : ∃ t, t = trRecordWrite s := ⟨_, rfl⟩
    have hexec : exec .trRecordWrite s = .next t := congrArg Host.Outcome.next ((if_pos hawake).trans ht.symm)
    rw [hdoes] at ht
    have hflash : t.flash = (trWritten r rs s).flash := by
      rw [ht]
      split <;> rfl
    have hqueues : t.queues = (trWritten r rs s).queues := by
      rw [ht]
      split <;> rfl
    obtain ⟨hout, hread⟩ := trWritten_flash hwf r rs hflash
    refine ⟨t, hexec, ?_, fun m hm => ?_, ⟨hout, ?_⟩, fun hstarts => ?_, fun hnot => ?_⟩
    · rw [ht]
      split <;> rw [hwritten]
    · rw [ringGet, hqueues]
      exact hrings m hm
    · intro b
      rw [show b = trBytes s.log.trSeq r from hread]
      exact trBytes_fields s.log.trSeq r
    · rw [ht, if_pos hstarts]
      exact ⟨rfl, rfl⟩
    · rw [ht, if_neg hnot, hwritten]
  case erased =>
    have hdoes : trBlockErased s = flashErase (trSlot (1024 * s.log.erasingBlock)) 65536
        { s with log := { s.log with erasing := false } } := if_pos herasing
    have hplace : trSlot (1024 * s.log.erasingBlock) = 0x5000000 + 65536 * s.log.erasingBlock := by
      rw [trSlot]
      omega
    rw [hplace] at hdoes
    refine ⟨_, congrArg Host.Outcome.next ((if_pos hawake).trans hdoes), rfl, fun x hlow hhigh => ?_, fun x hout => ?_⟩
    · rw [flashErase_flash, memGet_memErase, if_pos ⟨hlow, hhigh⟩]
    · rw [flashErase_flash, memGet_memErase, if_neg (by omega)]

end
end Sys2Proof.Machine
end

section
/-! SUPPORT. Check jobs (R397 to R401): what the appending of a CRC leaves, which jobs break the rules, and the scan channel. -/

namespace Sys2Proof.Machine

open Safety (Booked)

section
variable {s t u : State}

set_option Elab.async false

/-! ### Writing over the unit's data (log 72) -/

/-- The state `t` is `s` but for data memory and the states of Lane A that stand in it (log 72). -/
def Laned (s t : State) : Prop :=
  t = { s with data := t.data, img := { s.img with timers := t.img.timers, counters := t.img.counters }
               bx := { s.bx with calls := t.bx.calls } }

theorem Laned.refl (s : State) : Laned s s := rfl

theorem Laned.trans (h : Laned s t) (k : Laned t u) : Laned s u := by
  rw [Laned] at *
  rw [k, h]

theorem setLaneByte_laned (a : Nat) (v : Byte) (s : State) : Laned s (setLaneByte a v s) := by
  rw [setLaneByte]
  split
  · rfl
  · split <;> rfl

/-- One byte of a range that reaches over Lane A's states. -/
def laneStep (a : Nat) (t : State) (x : Byte × Nat) : State :=
  if inLane (a + x.2) then setLaneByte (a + x.2) x.1 t else dataWrite (a + x.2) [x.1] t

theorem laneStep_laned (a : Nat) (s : State) (x : Byte × Nat) : Laned s (laneStep a s x) := by
  rw [laneStep]
  split
  · exact setLaneByte_laned ..
  · rfl

theorem laneStep_data (a : Nat) (s : State) (x : Byte × Nat) {b : Nat} (hb : b ≠ a + x.2) :
    memGet 0 (laneStep a s x).data b = memGet 0 s.data b := by
  rw [laneStep]
  split
  · rw [(setLaneByte_stores _ _ _).1]
  · exact Safety.memGet_memWrite_outside _ _ _ _ _ _ (by simp; omega)

theorem laneSteps (a : Nat) (xs : List (Byte × Nat)) (s : State) :
    Laned s (xs.foldl (laneStep a) s) ∧
      ∀ b, (∀ x ∈ xs, b ≠ a + x.2) → memGet 0 (xs.foldl (laneStep a) s).data b = memGet 0 s.data b := by
  induction xs generalizing s with
  | nil => exact ⟨.refl s, fun _ _ => rfl⟩
  | cons x xs ih =>
    obtain ⟨hlaned, hdata⟩ := ih (laneStep a s x)
    refine ⟨(laneStep_laned a s x).trans hlaned, fun b hb => ?_⟩
    exact (hdata b fun y hy => hb y (List.mem_cons_of_mem _ hy)).trans (laneStep_data a s x (hb x List.mem_cons_self))

/-- What a write over the unit's data leaves. -/
theorem unitWrite_leaves (a : Nat) (bs : Bytes) (s : State) :
    Laned s (unitWrite a bs s) ∧
      (a + bs.length ≤ 0x800000 ∨ 0x820100 ≤ a → unitWrite a bs s = { s with data := (unitWrite a bs s).data }) ∧
      ∀ b, (b < a ∨ a + bs.length ≤ b) → memGet 0 (unitWrite a bs s).data b = memGet 0 s.data b := by
  by_cases hplain : a + bs.length ≤ 0x800000 ∨ laneEnd ≤ a
  · have hdoes : unitWrite a bs s = dataWrite a bs s := if_pos hplain
    rw [hdoes]
    exact ⟨rfl, fun _ => rfl, fun b hb => Safety.memGet_memWrite_outside _ _ _ _ _ _ hb⟩
  · have hdoes : unitWrite a bs s = (bs.zip (List.range bs.length)).foldl (laneStep a) s := if_neg hplain
    obtain ⟨hlaned, hdata⟩ := laneSteps a (bs.zip (List.range bs.length)) s
    rw [hdoes]
    refine ⟨hlaned, fun h => absurd h hplain, fun b hb => hdata b fun x hx => ?_⟩
    have hlt := List.mem_range.mp (List.of_mem_zip hx).2
    omega

theorem orderBytes_length (mode : Byte) (w v : Nat) : (orderBytes mode w v).length = w := by
  rw [orderBytes]
  split
  · rw [beBytes, List.length_reverse, leBytes_length]
  · exact leBytes_length w v

theorem crcPoly_zero (bs : Bytes) : crcPoly (BitVec.toNat (0 : Byte)) bs = crc32c bs := if_pos rfl

theorem orderBytes_one (v : Nat) : orderBytes 1 (crcWidth (BitVec.toNat (0 : Byte))) v = leBytes 4 v := rfl

theorem jobAppend_of_other {poly mode : Byte} {start length value : Nat} (h : mode.toNat % 4 ≠ 1) :
    jobAppend poly mode start length value s = s := if_neg h

theorem jobAppend_laned (poly mode : Byte) (start length value : Nat) (s : State) :
    Laned s (jobAppend poly mode start length value s) := by
  rw [jobAppend]
  split
  · exact (unitWrite_leaves ..).1
  · exact .refl s

/-! ### Frame jobs (R397 to R399) -/

theorem jobValue_of_compute {poly mode : Byte} {start length : Nat} (h : mode.toNat % 4 ≠ 2) (s : State) :
    jobValue poly mode start length s = (crcPoly poly.toNat (scanRead start length s), false) := if_neg h

theorem jobValue_of_check {poly mode : Byte} {start length : Nat} (h : mode.toNat % 4 = 2) (s : State) :
    (jobValue poly mode start length s).2 = decide ((jobValue poly mode start length s).1 ≠ 0) := by
  rw [jobValue, if_pos h]

theorem crcFrameJob_of_good {poly mode : Byte} {start length : Nat} (hgood : jobGood poly mode start length = true)
    (hlength : length ≤ 4116) (hupdate : jobInUpdate start length s = false) :
    crcFrameJob poly mode start length s =
      if (jobValue poly mode start length s).2 then
        { jobAppend poly mode start length (jobValue poly mode start length s).1 s with
          crc := { (jobAppend poly mode start length (jobValue poly mode start length s).1 s).crc with
            misFrame := satInc (jobAppend poly mode start length (jobValue poly mode start length s).1 s).crc.misFrame } }
      else jobAppend poly mode start length (jobValue poly mode start length s).1 s := by
  rw [crcFrameJob]
  dsimp only
  rw [if_pos (by rw [hgood, decide_eq_true hlength, hupdate]; decide)]

/-- The jobs that break the rules of R399, and those that R398 leaves to the scan channel or keeps from an update's region. -/
theorem jobGood_eq_false {poly mode : Byte} {start length : Nat}
    (h : poly.toNat > 3 ∨ mode.toNat % 4 = 3 ∨ mode.toNat ≥ 8 ∨ length = 0 ∨
      (mode.toNat % 4 = 1 ∧ 0x1000000 < start + length + crcWidth poly.toNat) ∨
      (mode.toNat % 4 = 2 ∧ length ≤ crcWidth poly.toNat) ∨
      (let e := start + length + if mode.toNat % 4 = 1 then crcWidth poly.toNat else 0
       0x1000000 < e ∧ ¬ (0x10000000 ≤ start ∧ e ≤ 0x10800000 ∧ (e ≤ 0x103A0000 ∨ 0x103E0000 ≤ start)) ∧
         ¬ (0x20000000 ≤ start ∧ e ≤ 0x28000000))) : jobGood poly mode start length = false := by
  have hdata : dataSize = 0x1000000 := rfl
  have hmram : mramSize = 0x800000 := rfl
  have hflash : flashSize = 0x8000000 := rfl
  rw [Bool.eq_false_iff]
  intro hgood
  simp only [jobGood, scanRange, hdata, hmram, hflash, Bool.and_eq_true, Bool.or_eq_true, Bool.not_eq_true',
    Bool.and_eq_false_iff, decide_eq_true_eq, decide_eq_false_iff_not] at hgood
  obtain ⟨⟨⟨⟨⟨⟨⟨hpoly, hmode⟩, hop⟩, hone⟩, hlong⟩, hcheck⟩, hrange⟩, happend⟩ := hgood
  dsimp only at h
  split at h <;> rename_i hone' <;> simp only [hone', if_true, if_false] at hrange <;> omega

theorem frameJob_refused (poly mode : Byte) (start length : Nat) (hawake : awake s = true)
    (h : (jobGood poly mode start length && decide (length ≤ 4116)) = false ∨ jobInUpdate start length s = true) :
    ∃ t, .next (whenever (awake s) (crcFrameJob poly mode start length) s) = (.next t : Result) ∧
      Booked [2, 3] { s with crc := { s.crc with
        refused := if s.crc.refused = 0xFFFF then s.crc.refused else s.crc.refused + 1 } } t ∧
      (ringFull (ringGet s 3) = false → ∃ r ∈ t.log.trQueue.drop s.log.trQueue.length, r.code = 0xC11) := by
  let good := jobGood poly mode start length && decide (length ≤ 4116)
  let s1 := drawn (drawn { s with crc := { s.crc with refused := satInc s.crc.refused } })
  let items := item (freeWord s).toNat ++ item (freeWord (drawn s)).toNat ++ item (b2n good)
  have hdoes : crcFrameJob poly mode start length s = tr 0xC11 0 items s1 := by
    rw [crcFrameJob]
    refine if_neg fun htaken => ?_
    obtain ⟨hgood, hfree⟩ := htaken
    rcases h with h | h
    · exact Bool.false_ne_true (h.symm.trans hgood)
    · rw [h] at hfree
      exact Bool.false_ne_true hfree
  refine ⟨_, congrArg Host.Outcome.next ((if_pos hawake).trans hdoes), ?_, fun hroom => ?_⟩
  · exact ((Safety.drawn_booked _ _).trans (Safety.drawn_booked _ _)).trans (Safety.tr_booked 0xC11 0 items s1)
  · exact ⟨recordOf 0xC11 0 items 0 s1, mem_drop_of_prefix (perform_tr_queued (s := s1) 7 _ hroom), rfl⟩

/-- A frame job that generates writes its CRC behind the range (R398). -/
theorem frameJob_generates (poly mode : Byte) (start length : Word) (hawake : awake s = true)
    (hgood : jobGood poly mode start.toNat length.toNat = true) (hlength : length.toNat ≤ 4116)
    (hupdate : jobInUpdate start.toNat length.toNat s = false) (hop : mode.toNat % 4 = 1) :
    ∃ t, exec (.crcFrameJob poly mode start length) s = .next t ∧ Laned s t ∧
      (start.toNat + length.toNat + crcWidth poly.toNat ≤ 0x800000 ∨ 0x820100 ≤ start.toNat + length.toNat →
        t = { s with data := t.data }) ∧
      (∀ a, (a < start.toNat + length.toNat ∨ start.toNat + length.toNat + crcWidth poly.toNat ≤ a) →
        memGet 0 t.data a = memGet 0 s.data a) ∧
      (Safety.storesWf s → poly = 0 → mode = 1 → start.toNat + length.toNat + 4 ≤ 0x800000 →
        leAt (dataRead (start.toNat + length.toNat) 4 t) 0 4 = crc32c (dataRead start.toNat length.toNat s)) := by
  have hvalue := jobValue_of_compute (poly := poly) (start := start.toNat) (length := length.toNat)
    (show mode.toNat % 4 ≠ 2 by omega) s
  have hdoes := crcFrameJob_of_good hgood hlength hupdate
  rw [hvalue] at hdoes
  let v := crcPoly poly.toNat (scanRead start.toNat length.toNat s)
  let bs := orderBytes mode (crcWidth poly.toNat) v
  have happend : jobAppend poly mode start.toNat length.toNat v s = unitWrite (start.toNat + length.toNat) bs s := if_pos hop
  have hexec : exec (.crcFrameJob poly mode start length) s = .next (unitWrite (start.toNat + length.toNat) bs s) :=
    congrArg Host.Outcome.next ((if_pos hawake).trans (hdoes.trans happend))
  obtain ⟨hlaned, hplain, hout⟩ := unitWrite_leaves (start.toNat + length.toNat) bs s
  have hlen : bs.length = crcWidth poly.toNat := orderBytes_length ..
  rw [hlen] at hplain hout
  refine ⟨_, hexec, hlaned, hplain, hout, fun hwf hpoly hmode hlow => ?_⟩
  subst hpoly hmode
  have hbs : bs = leBytes 4 (crc32c (dataRead start.toNat length.toNat s)) := by
    have hread : scanRead start.toNat length.toNat s = dataRead start.toNat length.toNat s := by
      rw [scanRead, if_pos (by omega), unitRead, if_pos (.inl (by omega))]
    rw [show bs = orderBytes 1 (crcWidth (BitVec.toNat 0)) (crcPoly (BitVec.toNat 0) (scanRead start.toNat length.toNat s)) from rfl,
      hread, crcPoly_zero, orderBytes_one]
  have hwrite : unitWrite (start.toNat + length.toNat) bs s = dataWrite (start.toNat + length.toNat) bs s :=
    if_pos (.inl (by rw [hlen]; exact hlow))
  have hdata : swf 0 dataSize s.data = true := by
    simp only [Safety.storesWf, Memory.wf, Bool.and_eq_true] at hwf
    exact hwf.1.1
  have hsize : dataSize = 0x1000000 := rfl
  have hlen4 : bs.length = 4 := hlen
  have hstands := memRead_memWrite 0 dataSize s.data (start.toNat + length.toNat) bs hdata (by omega)
  rw [hlen4] at hstands
  rw [hwrite, dataRead, dataWrite_data, hstands, hbs, leAt_leBytes]
  exact Nat.mod_eq_of_lt (crc32c_lt _)

theorem frameJob_checks (poly mode : Byte) (start length : Word) (hawake : awake s = true)
    (hgood : jobGood poly mode start.toNat length.toNat = true) (hlength : length.toNat ≤ 4116)
    (hupdate : jobInUpdate start.toNat length.toNat s = false) (hop : mode.toNat % 4 = 2) :
    ∃ t, exec (.crcFrameJob poly mode start length) s = .next t ∧
      t = { s with crc := { s.crc with misFrame := t.crc.misFrame } } ∧
      ((jobValue poly mode start.toNat length.toNat s).1 = 0 → t.crc.misFrame = s.crc.misFrame) ∧
      ((jobValue poly mode start.toNat length.toNat s).1 ≠ 0 →
        t.crc.misFrame = if s.crc.misFrame = 0xFFFF then s.crc.misFrame else s.crc.misFrame + 1) := by
  have hdoes := crcFrameJob_of_good hgood hlength hupdate
  rw [jobAppend_of_other (by omega), jobValue_of_check hop] at hdoes
  have hexec : exec (.crcFrameJob poly mode start length) s = _ := congrArg Host.Outcome.next ((if_pos hawake).trans hdoes)
  by_cases hzero : (jobValue poly mode start.toNat length.toNat s).1 = 0
  · rw [if_neg (by rw [decide_eq_true_iff]; exact not_not_intro hzero)] at hexec
    exact ⟨s, hexec, rfl, fun _ => rfl, fun h => absurd hzero h⟩
  · rw [if_pos (decide_eq_true hzero)] at hexec
    exact ⟨_, hexec, rfl, fun h => absurd h hzero, fun _ => satInc_half _⟩

/-! ### The scan channel (R398, R400, R401) -/

theorem ringTake_of_filled {n : Nat} (hdepth : ringDepth (ringGet s n) ≠ 0) (hfill : ringFill (ringGet s n) ≠ 0) :
    ringTake n s = (ringSet n { ringGet s n with ci := (ringGet s n).ci + 1 } s,
      some (descOf (dataRead (ringAddr (ringGet s n) (ringGet s n).ci) 16 s))) := by
  rw [ringTake]
  exact if_neg (not_or.mpr ⟨hdepth, hfill⟩)

/-- What a refused scan job leaves: the count, and records and answers. -/
theorem crcRefuse_leaves (job : Half) (src : Byte) (reason : Nat) (s : State) :
    let t := crcRefuse job src reason s
    ringGet t 12 = ringGet s 12 ∧ t.mram = s.mram ∧ t.flash = s.flash ∧ t.crc.scan = s.crc.scan ∧
      t.crc.refused = satInc s.crc.refused := by
  intro t
  let s1 := { s with crc := { s.crc with refused := satInc s.crc.refused } }
  let s2 := tr 0xC11 0 (item job.toNat ++ item src.toNat ++ item reason) s1
  let s3 := if src = 1 then setJob job.toNat 3 (freeWord s2) (drawn s2) else s2
  have hkept2 : Bookkept s1 s2 := tr_bookkept ..
  have hring2 : ringGet s2 12 = ringGet s1 12 := (Safety.tr_booked ..).ringsKept 12 (by decide)
  have hs3 : ringGet s3 12 = ringGet s2 12 ∧ s3.mram = s2.mram ∧ s3.flash = s2.flash ∧ s3.crc.scan = s2.crc.scan ∧
      s3.crc.refused = s2.crc.refused := by
    by_cases hsrc : src = 1
    · rw [show s3 = setJob job.toNat 3 (freeWord s2) (drawn s2) from if_pos hsrc]
      exact ⟨rfl, rfl, rfl, rfl, rfl⟩
    · rw [show s3 = s2 from if_neg hsrc]
      exact ⟨rfl, rfl, rfl, rfl, rfl⟩
  have ht : t = crcResult job 2 (freeWord s3) (drawn s3) := rfl
  have hkept : Bookkept (drawn s3) t := push_bookkept ..
  have hring : ringGet t 12 = ringGet (drawn s3) 12 := (Safety.push_booked ..).ringsKept 12 (by decide)
  clear_value t
  obtain ⟨hring3, hmram3, hflash3, hscan3, hrefused3⟩ := hs3
  have hcrc2 : s2.crc = s1.crc := hkept2.crc
  refine ⟨(hring.trans hring3).trans hring2, (hkept.mram.trans hmram3).trans hkept2.mram,
    (hkept.flash.trans hflash3).trans hkept2.flash, ?_, ?_⟩
  · rw [hkept.crc]
    exact hscan3.trans (by rw [hcrc2])
  · rw [hkept.crc]
    exact hrefused3.trans (by rw [hcrc2])

theorem scanStart_leaves (hawake : awake s = true) (hidle : s.crc.scan = none) (hdepth : ringDepth (ringGet s 12) ≠ 0)
    (hfill : ringFill (ringGet s 12) ≠ 0) :
    let d := descOf (dataRead (ringAddr (ringGet s 12) (ringGet s 12).ci) 16 s)
    let b := unitRead d.buf.toNat 16 s
    ∃ t, exec .crcScanStart s = .next t ∧ (ringGet t 12).ci = (ringGet s 12).ci + 1 ∧ t.mram = s.mram ∧ t.flash = s.flash ∧
      (jobGood (nth 0 b 0) (nth 0 b 1) (leAt b 4 4) (leAt b 8 4) = true → jobInUpdate (leAt b 4 4) (leAt b 8 4) s = false →
        t.crc.scan = some { job := BitVec.ofNat 16 (leAt b 2 2), src := d.src, poly := nth 0 b 0, mode := nth 0 b 1,
                            start := BitVec.ofNat 32 (leAt b 4 4), length := BitVec.ofNat 32 (leAt b 8 4) } ∧ t.data = s.data) ∧
      (jobGood (nth 0 b 0) (nth 0 b 1) (leAt b 4 4) (leAt b 8 4) = false → t.crc.scan = none ∧
        t.crc.refused = if s.crc.refused = 0xFFFF then s.crc.refused else s.crc.refused + 1) := by
  intro d b
  let u := ringSet 12 { ringGet s 12 with ci := (ringGet s 12).ci + 1 } s
  have hring : ringGet u 12 = { ringGet s 12 with ci := (ringGet s 12).ci + 1 } :=
    Safety.ringGet_ringSet_self _ _ _ (ring_ne_of_depth (by exact hdepth))
  let j : ScanJob := { job := BitVec.ofNat 16 (leAt b 2 2), src := d.src, poly := nth 0 b 0, mode := nth 0 b 1,
                       start := BitVec.ofNat 32 (leAt b 4 4), length := BitVec.ofNat 32 (leAt b 8 4) }
  have hdoes : crcScanStart s =
      if !jobGood (nth 0 b 0) (nth 0 b 1) (leAt b 4 4) (leAt b 8 4) then crcRefuse (BitVec.ofNat 16 (leAt b 2 2)) d.src 0 u
      else if jobInUpdate (leAt b 4 4) (leAt b 8 4) u then crcRefuse (BitVec.ofNat 16 (leAt b 2 2)) d.src 1 u
      else
        let t1 := if d.src = 1 then setJob (BitVec.ofNat 16 (leAt b 2 2)).toNat 1 (freeWord u) (drawn u) else u
        { t1 with crc := { t1.crc with lastJob := BitVec.ofNat 16 (leAt b 2 2), scan := some j } } := by
    rw [crcScanStart, hidle, ringTake_of_filled hdepth hfill]
    rfl
  have hrefuse (reason : Nat) := crcRefuse_leaves (BitVec.ofNat 16 (leAt b 2 2)) d.src reason u
  have hupdate : jobInUpdate (leAt b 4 4) (leAt b 8 4) u = jobInUpdate (leAt b 4 4) (leAt b 8 4) s := rfl
  refine ⟨_, congrArg Host.Outcome.next ((if_pos hawake).trans hdoes), ?_⟩
  cases hgood : jobGood (nth 0 b 0) (nth 0 b 1) (leAt b 4 4) (leAt b 8 4) with
  | false =>
    obtain ⟨hci, hmram, hflash, hscan, hrefused⟩ := hrefuse 0
    rw [if_pos (by rfl)]
    exact ⟨by rw [hci, hring], hmram, hflash, fun h => absurd h Bool.false_ne_true,
      fun _ => ⟨hscan.trans hidle, hrefused.trans (satInc_half _)⟩⟩
  | true =>
    rw [if_neg (by decide), hupdate]
    cases hin : jobInUpdate (leAt b 4 4) (leAt b 8 4) s with
    | true =>
      obtain ⟨hci, hmram, hflash, -, -⟩ := hrefuse 1
      rw [if_pos rfl]
      exact ⟨by rw [hci, hring], hmram, hflash, fun _ h => absurd h.symm Bool.false_ne_true,
        fun h => absurd h.symm Bool.false_ne_true⟩
    | false =>
      rw [if_neg Bool.false_ne_true]
      refine ⟨?_, ?_, ?_, fun _ _ => ⟨rfl, ?_⟩, fun h => absurd h.symm Bool.false_ne_true⟩
      · refine Eq.trans ?_ (congrArg Ring.ci hring)
        by_cases hsrc : d.src = 1
        · simp only [if_pos hsrc]
          rfl
        · simp only [if_neg hsrc]
          rfl
      all_goals
        by_cases hsrc : d.src = 1
        · simp only [if_pos hsrc]
          rfl
        · simp only [if_neg hsrc]
          rfl

theorem scanDone_leaves {j : ScanJob} (hawake : awake s = true) (hscan : s.crc.scan = some j) :
    ∃ t, exec .crcScanDone s = .next t ∧ t.crc.scan = none ∧
      t.crc.done = (if s.crc.done = 0xFFFFFFFF then s.crc.done else s.crc.done + 1) ∧
      t.crc.last = BitVec.ofNat 32 (jobValue j.poly j.mode j.start.toNat j.length.toNat s).1 ∧
      t.mram = s.mram ∧ t.flash = s.flash ∧
      (ringDepth (ringGet s 13) ≠ 0 → ringFull (ringGet s 13) = false → (ringGet s 13).policy = 0 →
        (ringGet t 13).pi = (ringGet s 13).pi + 1) := by
  obtain ⟨v, bad, hvalue⟩ : ∃ v bad, jobValue j.poly j.mode j.start.toNat j.length.toNat s = (v, bad) := ⟨_, _, rfl⟩
  obtain ⟨s1, hs1⟩ : ∃ s1, s1 = jobAppend j.poly j.mode j.start.toNat j.length.toNat v s := ⟨_, rfl⟩
  have hlaned : Laned s s1 := hs1 ▸ jobAppend_laned ..
  let s2 := { s1 with crc := { s1.crc with
    scan := none, done := satInc s1.crc.done, last := BitVec.ofNat 32 v
    misScan := if bad then satInc s1.crc.misScan else s1.crc.misScan } }
  obtain ⟨s3, hs3⟩ : ∃ s3, s3 = if j.src = 1 then setJob j.job.toNat 2 (BitVec.ofNat 32 v) s2 else s2 := ⟨_, rfl⟩
  have hdoes : crcScanDone s = crcResult j.job (if bad then 1 else 0) (BitVec.ofNat 32 v) s3 := by
    rw [crcScanDone, hscan]
    dsimp only
    rw [hvalue, hs3]
    subst hs1
    rfl
  have hparts : s1.crc = s.crc ∧ s1.mram = s.mram ∧ s1.flash = s.flash ∧ s1.queues = s.queues := by
    rw [show s1 = _ from hlaned]
    exact ⟨rfl, rfl, rfl, rfl⟩
  obtain ⟨hcrc, hmram, hflash, hqueues⟩ := hparts
  have hleft : s3.crc.scan = none ∧ s3.crc.done = satInc s1.crc.done ∧ s3.crc.last = BitVec.ofNat 32 v ∧ s3.mram = s1.mram ∧
      s3.flash = s1.flash ∧ s3.queues = s1.queues := by
    rw [hs3]
    split <;> exact ⟨rfl, rfl, rfl, rfl, rfl, rfl⟩
  obtain ⟨hscan3, hdone3, hlast3, hmram3, hflash3, hqueues3⟩ := hleft
  have hkept : Bookkept s3 (crcResult j.job (if bad then 1 else 0) (BitVec.ofNat 32 v) s3) := push_bookkept ..
  refine ⟨_, congrArg Host.Outcome.next ((if_pos hawake).trans hdoes), ?_, ?_, ?_, ?_, ?_, fun hdepth hroom hpolicy => ?_⟩
  · rw [hkept.crc, hscan3]
  · rw [hkept.crc, hdone3, hcrc]
    exact satInc_word _
  · rw [hkept.crc, hlast3, hvalue]
  · rw [hkept.mram, hmram3, hmram]
  · rw [hkept.flash, hflash3, hflash]
  · have hring : ringGet s3 13 = ringGet s 13 := by rw [ringGet, ringGet, hqueues3, hqueues]
    have hone : (ringGet s3 13).policy ≠ 1 := by
      rw [hring, hpolicy]
      decide
    rw [crcResult, ringGet_push (by decide), ringPut_of_room _ (by rwa [hring]) (by rwa [hring]) (.inl hone),
      ringGet_ringStore (by rwa [hring]), hring]
    rfl

/-- Settles O18. -/
theorem checkJobsComputeAppendAndReport : Obligations.CheckJobsComputeAppendAndReport := by
  refine ⟨fun poly mode start length s hawake => ⟨fun hgood hlength hupdate => ⟨fun hop => ?computed,
    frameJob_generates poly mode start length hawake hgood hlength hupdate,
    frameJob_checks poly mode start length hawake hgood hlength hupdate⟩, fun hbroken => ?refused⟩,
    fun s hawake => ⟨fun hbusy => ?busy, scanStart_leaves hawake, fun j => scanDone_leaves hawake⟩⟩
  case computed =>
    have hdoes := crcFrameJob_of_good hgood hlength hupdate
    rw [jobValue_of_compute (by omega), jobAppend_of_other (by omega)] at hdoes
    exact congrArg Host.Outcome.next ((if_pos hawake).trans hdoes)
  case refused =>
    refine frameJob_refused poly mode start.toNat length.toNat hawake ?_
    have hrules (h : jobGood poly mode start.toNat length.toNat = false) :
        (jobGood poly mode start.toNat length.toNat && decide (length.toNat ≤ 4116)) = false := by rw [h, Bool.false_and]
    rcases hbroken with h | h | h | h | h | h | h | h | h
    · exact .inl (by rw [decide_eq_false (Nat.not_le.mpr h), Bool.and_false])
    · exact .inl (hrules (jobGood_eq_false (.inl h)))
    · exact .inl (hrules (jobGood_eq_false (.inr (.inl h))))
    · exact .inl (hrules (jobGood_eq_false (.inr (.inr (.inl h)))))
    · exact .inl (hrules (jobGood_eq_false (.inr (.inr (.inr (.inl (congrArg BitVec.toNat h)))))))
    · exact .inr h
    · exact .inl (hrules (jobGood_eq_false (.inr (.inr (.inr (.inr (.inl h)))))))
    · exact .inl (hrules (jobGood_eq_false (.inr (.inr (.inr (.inr (.inr (.inl h))))))))
    · exact .inl (hrules (jobGood_eq_false (.inr (.inr (.inr (.inr (.inr (.inr h))))))))
  case busy => exact congrArg Host.Outcome.next ((if_pos hawake).trans (if_pos hbusy))

end
end Sys2Proof.Machine
end

section
/-! SUPPORT. The refutation of O25: a temperature that is noted in a state whose list of temperatures holds a sensor twice. -/

namespace Sys2Proof.Machine

section

/-- A unit in RUN whose list of temperatures holds the entry of sensor 1 twice: the state's type allows it, and no step makes it. -/
def sensorTwice : State :=
  { State.reset with
    power := { ({} : Power) with state := .run }
    sens := { ({} : Sensors) with temps := [(1, { temp := 5 }), (1, { temp := 7 })] } }

/-- Noting 0 for sensor 1 takes its first entry away, and the second shows. -/
theorem tempNormal_sensorTwice :
    exec (.tempNormal 1 {}) sensorTwice =
      .next { sensorTwice with sens := { sensorTwice.sens with temps := [(1, { temp := 7 })] } } := by
  rfl

/-- Refutes O25: where the list of temperatures holds a sensor twice, a sample that equals the reset value does not show (R364). -/
theorem not_safeServiceHasItsCauses : ¬ Obligations.SafeServiceHasItsCauses := by
  intro h
  obtain ⟨-, -, hsensors, -⟩ := h
  obtain ⟨-, -, -, -, -, -, -, -, -, -, ⟨t, hexec, -, htemp, -⟩⟩ := hsensors .a 0 1 {} sensorTwice (by decide)
  rw [tempNormal_sensorTwice] at hexec
  injection hexec with ht
  rw [← ht] at htemp
  exact absurd htemp (by decide)

end
end Sys2Proof.Machine
end

section
/-! SUPPORT. SYNC frames as bytes (R208, R209). -/

namespace Sys2Proof.Machine

section
set_option Elab.async false

/-- The header of a SYNC frame (R208). -/
def syncHeader (typ : Nat) (last : Bool) (lap len seg : Nat) : Bytes :=
  leBytes 2 0x534C ++ leBytes 1 typ ++ leBytes 1 (b2n last) ++ leBytes 8 lap ++ leBytes 2 len ++ leBytes 2 seg

theorem syncHeader_length (typ : Nat) (last : Bool) (lap len seg : Nat) : (syncHeader typ last lap len seg).length = 16 := by
  simp only [syncHeader, List.length_append, leBytes_length]

theorem syncFrame_eq (typ : Nat) (last : Bool) (lap seg : Nat) (payload : Bytes) :
    syncFrame typ last lap seg payload = withCrcLe (syncHeader typ last lap payload.length seg ++ payload) := rfl

theorem slice_append_behind {xs ys zs : Bytes} {a n : Nat} (hx : xs.length = a) (hy : ys.length = n) :
    slice (xs ++ ys ++ zs) a n = ys := by
  rw [List.append_assoc, slice_append_skip (Nat.le_of_eq hx), hx, Nat.sub_self, ← hy, slice_append_head]

/-- The fields of the header read from any bytes that it opens. -/
theorem syncHeader_fields (typ : Nat) (last : Bool) (lap len seg : Nat) (ys : Bytes) (htyp : typ ≤ 6) (hlap : lap < 2 ^ 64)
    (hseg : seg < 2 ^ 16) (hlen : len ≤ 4096) :
    let f := syncHeader typ last lap len seg ++ ys
    leAt f 0 2 = 0x534C ∧ leAt f 2 1 = typ ∧ leAt f 3 1 = b2n last ∧ leAt f 4 8 = lap ∧ leAt f 12 2 = len ∧ leAt f 14 2 = seg := by
  have hlast : b2n last < 2 := by cases last <;> decide
  simp only [syncHeader, List.append_assoc]
  refine ⟨?_, ?_, ?_, ?_, ?_, ?_⟩ <;>
    simp only [leAt_skip_leBytes, leAt_leBytes_append, Nat.reduceLeDiff, Nat.reduceSub, Nat.le_refl, Nat.sub_self] <;>
    omega

/-- Settles O45: the header's fields stand at their places, and the CRC behind header and payload is theirs. -/
theorem syncFramesParseAsSent : Obligations.SyncFramesParseAsSent := by
  intro typ last lap seg payload htyp htyp6 hlap hseg hlen
  rw [syncFrame_eq]
  have hbody : (syncHeader typ last lap payload.length seg ++ payload).length = payload.length + 16 := by
    rw [List.length_append, syncHeader_length, Nat.add_comm]
  have hcrc := leAt_withCrcLe hbody
  have htake := take_withCrcLe hbody
  have htotal := withCrcLe_length (syncHeader typ last lap payload.length seg ++ payload)
  have hpay : slice (withCrcLe (syncHeader typ last lap payload.length seg ++ payload)) 16 payload.length = payload :=
    slice_append_behind (syncHeader_length _ _ _ _ _) rfl
  obtain ⟨hmagic, ht, hl, hlapAt, hn, hs⟩ := syncHeader_fields typ last lap payload.length seg
    (payload ++ leBytes 4 (crc32c (syncHeader typ last lap payload.length seg ++ payload))) htyp6 hlap hseg hlen
  rw [← List.append_assoc] at hmagic ht hl hlapAt hn hs
  change leAt (withCrcLe _) _ _ = _ at hmagic ht hl hlapAt hn hs
  have hlast : b2n last ≤ 1 ∧ decide (b2n last = 1) = last := by cases last <;> decide
  rw [syncParse]
  rw [hn, ht, hl, hlapAt, hs, hcrc, htake, hpay, hlast.2, if_pos]
  exact ⟨hmagic, hlen, by omega, htyp, htyp6, hlast.1, rfl⟩

end
end Sys2Proof.Machine
end

section
/-! SUPPORT. What a microsecond changes (log 2): the MRP engine, the transmitters, the entries of a DMA job and the scan of the keys. -/

namespace Sys2Proof.Machine

section
set_option Elab.async false

/-! ### The MRP engine and the transmitters in a microsecond (R333, R335) -/

theorem mrpSend_frame (p : Nat) (group : Byte) (tlv : Bytes) (s : State) :
    ∃ ps n, mrpSend p group tlv s = { s with sw := { s.sw with ports := ps, mrpSeq := n } } := by
  unfold mrpSend
  split
  · exact ⟨_, _, rfl⟩
  · exact ⟨s.sw.ports, s.sw.mrpSeq, rfl⟩

/-- Frames sent one after another on several ports. -/
theorem mrpSends_frame {group : Byte} {tlv : State → Nat → Bytes} (l : List Nat) (s : State) :
    ∃ ps n, l.foldl (fun t p => mrpSend p group (tlv t p) t) s = { s with sw := { s.sw with ports := ps, mrpSeq := n } } := by
  induction l generalizing s with
  | nil => exact ⟨s.sw.ports, s.sw.mrpSeq, rfl⟩
  | cons p l ih =>
    obtain ⟨ps, n, hone⟩ := mrpSend_frame p group (tlv s p) s
    obtain ⟨ps', n', hrest⟩ := ih { s with sw := { s.sw with ports := ps, mrpSeq := n } }
    exact ⟨ps', n', by rw [List.foldl_cons, hone, hrest]⟩

theorem mrpTests_frame (ms : Nat) (s : State) :
    ∃ ps n us, mrpTests ms s = { s with sw := { s.sw with ports := ps, mrpSeq := n, mrpTestUs := us } } := by
  obtain ⟨ps, n, h⟩ := mrpSends_frame [0, 1] { s with sw := { s.sw with mrpTestUs := s.clk.opUs + 1000 * ms } }
  exact ⟨ps, n, _, h⟩

theorem mrpTopology_frame (left : Nat) (s : State) :
    ∃ ps n k us, mrpTopology left s = { s with sw := { s.sw with ports := ps, mrpSeq := n, topoLeft := k, topoUs := us } } := by
  obtain ⟨ps, n, h⟩ := mrpSends_frame [0, 1] { s with sw := { s.sw with topoLeft := left - 1, topoUs := s.clk.opUs + 1000 * mrpTopo s } }
  exact ⟨ps, n, _, _, h⟩

theorem mrpLink_frame (x : LinkChange) (s : State) :
    ∃ ps n y, mrpLink x s = { s with sw := { s.sw with ports := ps, mrpSeq := n, lnk := y } } := by
  unfold mrpLink
  split
  · exact ⟨s.sw.ports, s.sw.mrpSeq, none, rfl⟩
  · obtain ⟨ps, n, h⟩ := mrpSend_frame (1 - x.port) 2 ([if x.up then 0x05 else 0x04, 0x0C] ++ macBytes s.sw.mac ++ beBytes 2 x.port ++
        beBytes 2 (20 * x.left) ++ beBytes 2 1)
      { s with sw := { s.sw with lnk := some { x with left := x.left - 1, atUs := s.clk.opUs + 20000 } } }
    exact ⟨ps, n, _, h⟩

/-- What the MRP engine may change of the switch; without a manager's role its own times stand, and without a link change its sequence. -/
theorem mrpTick_frame (s : State) : ∃ ps n us k tus y,
    mrpTick s = { s with sw := { s.sw with ports := ps, mrpSeq := n, mrpTestUs := us, topoLeft := k, topoUs := tus, lnk := y } } ∧
      (s.sw.cfg.mrpRole ≠ 2 → us = s.sw.mrpTestUs ∧ k = s.sw.topoLeft ∧ tus = s.sw.topoUs ∧
        (s.sw.lnk = none → n = s.sw.mrpSeq ∧ y = none)) := by
  unfold mrpTick
  by_cases hmanager : s.sw.cfg.mrpRole = 2
  · rw [if_pos hmanager]
    have htests : ∃ ps n us, (if s.sw.mrpTestUs ≤ s.clk.opUs then mrpTests (mrpDefault s) s else s) =
        { s with sw := { s.sw with ports := ps, mrpSeq := n, mrpTestUs := us } } := by
      split
      · exact mrpTests_frame _ s
      · exact ⟨s.sw.ports, s.sw.mrpSeq, s.sw.mrpTestUs, rfl⟩
    obtain ⟨ps, n, us, h⟩ := htests
    dsimp only
    rw [h]
    split
    · obtain ⟨ps', n', k, tus, h'⟩ := mrpTopology_frame s.sw.topoLeft { s with sw := { s.sw with ports := ps, mrpSeq := n, mrpTestUs := us } }
      exact ⟨ps', n', us, k, tus, s.sw.lnk, h', fun hno => absurd hmanager hno⟩
    · exact ⟨ps, n, us, s.sw.topoLeft, s.sw.topoUs, s.sw.lnk, rfl, fun hno => absurd hmanager hno⟩
  · have hstands : ∃ ps n us k tus y,
        s = { s with sw := { s.sw with ports := ps, mrpSeq := n, mrpTestUs := us, topoLeft := k, topoUs := tus, lnk := y } } ∧
          (s.sw.cfg.mrpRole ≠ 2 → us = s.sw.mrpTestUs ∧ k = s.sw.topoLeft ∧ tus = s.sw.topoUs ∧
            (s.sw.lnk = none → n = s.sw.mrpSeq ∧ y = none)) :=
      ⟨s.sw.ports, s.sw.mrpSeq, s.sw.mrpTestUs, s.sw.topoLeft, s.sw.topoUs, s.sw.lnk, rfl, fun _ => ⟨rfl, rfl, rfl, fun h => ⟨rfl, h⟩⟩⟩
    rw [if_neg hmanager]
    split
    · split
      · rename_i x hlnk
        split
        · obtain ⟨ps, n, y, h⟩ := mrpLink_frame x s
          rw [h]
          exact ⟨_, n, s.sw.mrpTestUs, s.sw.topoLeft, s.sw.topoUs, y, rfl,
            fun _ => ⟨rfl, rfl, rfl, fun hnone => absurd (hlnk.symm.trans hnone) (by simp)⟩⟩
        · exact hstands
      · exact hstands
    · exact hstands

/-- A transmitter changes its port, and what it has sent joins the frames that left. -/
theorem portTick_frame (s : State) (p : Nat) :
    ∃ ps fs, portTick s p = { s with sw := { s.sw with ports := ps }, out := { s.out with eth := fs ++ s.out.eth } } := by
  have hsent : ∀ (l : List (Bool × Bytes)) (t : State),
      ∃ fs, l.foldl (fun t f => { t with out := { t.out with eth := (p, f) :: t.out.eth } }) t =
        { t with out := { t.out with eth := fs ++ t.out.eth } } := by
    intro l
    induction l with
    | nil => exact fun t => ⟨[], rfl⟩
    | cons f l ih =>
      intro t
      obtain ⟨fs, h⟩ := ih { t with out := { t.out with eth := (p, f) :: t.out.eth } }
      exact ⟨fs ++ [(p, f)], by rw [List.foldl_cons, h, List.append_assoc]; rfl⟩
  unfold portTick
  dsimp only
  split
  · exact ⟨s.sw.ports, [], rfl⟩
  · obtain ⟨fs, h⟩ := hsent (portRun (fun f => decide (mrpState s p ≠ 1) || queuedMrp f) 8
        (nth 0 [0, 10, 100, 1000] (nth {} s.sw.ports p).speed.toNat) (nth {} s.sw.ports p)).2
      (modPort p (fun _ => (portRun (fun f => decide (mrpState s p ≠ 1) || queuedMrp f) 8
        (nth 0 [0, 10, 100, 1000] (nth {} s.sw.ports p).speed.toNat) (nth {} s.sw.ports p)).1) s)
    exact ⟨_, fs, h⟩

theorem portTicks_frame (l : List Nat) (s : State) :
    ∃ ps fs, l.foldl portTick s = { s with sw := { s.sw with ports := ps }, out := { s.out with eth := fs ++ s.out.eth } } := by
  induction l generalizing s with
  | nil => exact ⟨s.sw.ports, [], rfl⟩
  | cons p l ih =>
    obtain ⟨ps, fs, hone⟩ := portTick_frame s p
    obtain ⟨ps', fs', hrest⟩ := ih { s with sw := { s.sw with ports := ps }, out := { s.out with eth := fs ++ s.out.eth } }
    exact ⟨ps', fs' ++ fs, by rw [List.foldl_cons, hone, hrest, List.append_assoc]⟩

/-! ### The entries of a DMA job (R331) -/

/-- A write by the check-value unit or the table DMA changes data memory, and Lane A's states where they stand (log 72). -/
theorem unitWrite_frame (a : Nat) (bs : Bytes) (s : State) :
    ∃ d i x, unitWrite a bs s = { s with data := d, img := i, bx := x } := by
  unfold unitWrite
  split
  · exact ⟨_, s.img, s.bx, rfl⟩
  · generalize bs.zip (List.range bs.length) = l
    induction l generalizing s with
    | nil => exact ⟨s.data, s.img, s.bx, rfl⟩
    | cons y l ih =>
      have hone : ∃ d i x, (if inLane (a + y.2) then setLaneByte (a + y.2) y.1 s else dataWrite (a + y.2) [y.1] s) =
          { s with data := d, img := i, bx := x } := by
        split
        · simp only [setLaneByte]
          split
          · exact ⟨s.data, _, s.bx, rfl⟩
          · split
            · exact ⟨s.data, _, s.bx, rfl⟩
            · exact ⟨s.data, s.img, _, rfl⟩
        · exact ⟨_, s.img, s.bx, rfl⟩
      obtain ⟨d, i, x, hone⟩ := hone
      obtain ⟨d', i', x', hrest⟩ := ih { s with data := d, img := i, bx := x }
      exact ⟨d', i', x', by rw [List.foldl_cons, hone, hrest]⟩

/-- Entries that a job reads from the tables go to memory; those that it writes go to the tables. -/
theorem dmaMoves_frame (j : DmaJob) (l : List Nat) (s : State) : ∃ tb d i x,
    l.foldl (dmaEntry j) s = { s with tbl := tb, data := d, img := i, bx := x } ∧ tb.dmaJob = s.tbl.dmaJob ∧
      (j.dir = false → tb = s.tbl) ∧ (j.dir = true → d = s.data ∧ i = s.img ∧ x = s.bx) := by
  induction l generalizing s with
  | nil => exact ⟨s.tbl, s.data, s.img, s.bx, rfl, rfl, fun _ => rfl, fun _ => ⟨rfl, rfl, rfl⟩⟩
  | cons k l ih =>
    by_cases hdir : j.dir
    · have hone : ∃ tb, dmaEntry j s k = { s with tbl := tb } ∧ tb.dmaJob = s.tbl.dmaJob := by
        simp only [dmaEntry, hdir, if_true, modPipe]
        split <;> exact ⟨_, rfl, rfl⟩
      obtain ⟨tb, hone, hjob⟩ := hone
      obtain ⟨tb', d, i, x, hrest, hjob', -, hmem⟩ := ih { s with tbl := tb }
      exact ⟨tb', d, i, x, by rw [List.foldl_cons, hone, hrest], hjob'.trans hjob, fun hno => absurd hdir (by simp [hno]), hmem⟩
    · have hone : ∃ d i x, dmaEntry j s k = { s with data := d, img := i, bx := x } := by
        simp only [dmaEntry, hdir]
        exact unitWrite_frame _ _ s
      obtain ⟨d, i, x, hone⟩ := hone
      obtain ⟨tb, d', i', x', hrest, hjob, htbl, -⟩ := ih { s with data := d, img := i, bx := x }
      exact ⟨tb, d', i', x', by rw [List.foldl_cons, hone, hrest], hjob, htbl, fun hyes => absurd hyes hdir⟩

/-- How far time has brought a job. -/
def dmaReached (j : DmaJob) (wallUs : Nat) : Nat := max j.done (min j.count (125 * (wallUs - j.atUs) / 4))

theorem dmaTick_idle (s : State) (h : s.tbl.dmaJob = none ∨ ∃ j, s.tbl.dmaJob = some j ∧ j.table = true ∧ j.dir = true) :
    dmaTick s = s := by
  unfold dmaTick
  rcases h with h | ⟨j, h, htable, hdir⟩
  · rw [h]
  · rw [h]
    simp only [htable, hdir, Bool.and_self, if_true]

theorem dmaTick_moves (s : State) (j : DmaJob) (hjob : s.tbl.dmaJob = some j) (hfree : j.table = false ∨ j.dir = false) : ∃ tb d i x,
    dmaTick s = { s with tbl := tb, data := d, img := i, bx := x } ∧ tb.dmaJob = some { j with done := dmaReached j s.clk.wallUs } ∧
      (dmaReached j s.clk.wallUs = j.done → tb = s.tbl ∧ d = s.data ∧ i = s.img ∧ x = s.bx) ∧
      (j.dir = false → tb = { s.tbl with dmaJob := tb.dmaJob }) ∧ (j.dir = true → d = s.data ∧ i = s.img ∧ x = s.bx) := by
  have hgoes : (j.table && j.dir) = false := by rcases hfree with h | h <;> simp [h]
  obtain ⟨tb, d, i, x, h, hkept, htbl, hmem⟩ :=
    dmaMoves_frame j (List.range' j.done (dmaReached j s.clk.wallUs - j.done)) s
  refine ⟨{ tb with dmaJob := some { j with done := dmaReached j s.clk.wallUs } }, d, i, x, ?_, rfl, fun hnone => ?_,
    fun hdir => by rw [htbl hdir], hmem⟩
  · unfold dmaTick
    simp only [hjob, hgoes]
    exact congrArg (fun u : State => { u with tbl := { u.tbl with dmaJob := some { j with done := dmaReached j s.clk.wallUs } } }) h
  · rw [hnone, Nat.sub_self] at h
    obtain ⟨htb, hd, hi, hx⟩ : s.tbl = tb ∧ s.data = d ∧ s.img = i ∧ s.bx = x :=
      ⟨congrArg State.tbl h, congrArg State.data h, congrArg State.img h, congrArg State.bx h⟩
    subst htb hd hi hx
    refine ⟨?_, rfl, rfl, rfl⟩
    rw [hnone]
    cases hs : s.tbl
    rw [hs] at hjob
    subst hjob
    rfl

/-! ### The switch in a microsecond -/

/-- What the switch changes in a microsecond, and what stands without PD6, without a job that moves, and without a manager's role. -/
structure SwitchTicked (s t : State) : Prop where
  frame : t = { s with
    sw := { s.sw with ports := t.sw.ports, mrpSeq := t.sw.mrpSeq, mrpTestUs := t.sw.mrpTestUs, topoLeft := t.sw.topoLeft
                      topoUs := t.sw.topoUs, lnk := t.sw.lnk }
    out := { s.out with eth := t.out.eth }, tbl := t.tbl, data := t.data, img := t.img, bx := t.bx }
  sent : s.out.eth <:+ t.out.eth
  off : s.power.pdOn.getLsbD 6 = false → t = s
  idle : s.tbl.dmaJob = none ∨ (∃ j, s.tbl.dmaJob = some j ∧ j.table = true ∧ j.dir = true) →
    t.tbl = s.tbl ∧ t.data = s.data ∧ t.img = s.img ∧ t.bx = s.bx
  moves : ∀ j, s.power.pdOn.getLsbD 6 = true → s.tbl.dmaJob = some j → j.table = false ∨ j.dir = false →
    t.tbl.dmaJob = some { j with done := dmaReached j s.clk.wallUs } ∧
      (dmaReached j s.clk.wallUs = j.done → t.tbl = s.tbl ∧ t.data = s.data ∧ t.img = s.img ∧ t.bx = s.bx) ∧
      (j.dir = false → t.tbl = { s.tbl with dmaJob := t.tbl.dmaJob }) ∧ (j.dir = true → t.data = s.data ∧ t.img = s.img ∧ t.bx = s.bx)
  noManager : s.sw.cfg.mrpRole ≠ 2 → t.sw.mrpTestUs = s.sw.mrpTestUs ∧ t.sw.topoLeft = s.sw.topoLeft ∧ t.sw.topoUs = s.sw.topoUs ∧
    (s.sw.lnk = none → t.sw.mrpSeq = s.sw.mrpSeq ∧ t.sw.lnk = none)

theorem switchTick_ticked (s : State) : SwitchTicked s (switchTick s) := by
  by_cases hpd : pdIs s 6
  · obtain ⟨ps, n, us, k, tus, y, hmrp, hrole⟩ := mrpTick_frame s
    obtain ⟨ps', fs, hports⟩ := portTicks_frame (List.range 4)
      { s with sw := { s.sw with ports := ps, mrpSeq := n, mrpTestUs := us, topoLeft := k, topoUs := tus, lnk := y } }
    have hon : s.power.pdOn.getLsbD 6 ≠ false := by rw [← pdIs, hpd]; exact Bool.noConfusion
    rw [switchTick, if_pos hpd, hmrp, hports]
    generalize hu : State.mk .. = u
    by_cases hidle : s.tbl.dmaJob = none ∨ (∃ j, s.tbl.dmaJob = some j ∧ j.table = true ∧ j.dir = true)
    · rw [dmaTick_idle u (hu ▸ hidle)]
      subst hu
      exact ⟨rfl, List.suffix_append _ _, fun h => absurd h hon, fun _ => ⟨rfl, rfl, rfl, rfl⟩, fun j _ hj hf => by
        rcases hidle with h | ⟨j', h, ht, hd⟩
        · exact absurd (h.symm.trans hj) nofun
        · obtain rfl : j' = j := Option.some.inj (h.symm.trans hj)
          rcases hf with h | h
          · exact absurd (h.symm.trans ht) nofun
          · exact absurd (h.symm.trans hd) nofun, hrole⟩
    · obtain ⟨j, hj⟩ := Option.ne_none_iff_exists'.mp (fun h => hidle (Or.inl h))
      have hfree : j.table = false ∨ j.dir = false := by
        by_contra hno
        simp only [not_or, Bool.not_eq_false] at hno
        exact hidle (Or.inr ⟨j, hj, hno⟩)
      obtain ⟨tb, d, i, x, hdma, hdone, hsame, htbl, hmem⟩ := dmaTick_moves u j (hu ▸ hj) hfree
      rw [hdma]
      subst hu
      exact ⟨rfl, List.suffix_append _ _, fun h => absurd h hon, fun h => absurd h hidle, fun j' _ hj' _ => by
        obtain rfl : j = j' := Option.some.inj (hj.symm.trans hj')
        exact ⟨hdone, hsame, htbl, hmem⟩, hrole⟩
  · rw [switchTick, if_neg hpd]
    exact ⟨rfl, List.suffix_rfl, fun _ => rfl, fun _ => ⟨rfl, rfl, rfl, rfl⟩, fun j hon => absurd hon hpd,
      fun _ => ⟨rfl, rfl, rfl, fun h => ⟨rfl, h⟩⟩⟩

/-! ### The microsecond as a whole (log 2) -/

/-- Time itself in a microsecond: the clocks and the RTC's position within its second. -/
def timePasses (s : State) : State :=
  { s with
    clk := { s.clk with wallUs := s.clk.wallUs + 1, opUs := if s.power.state = .off then s.clk.opUs else s.clk.opUs + 1 }
    rtc := { s.rtc with secUs := min (s.rtc.secUs + 1) 999999 } }

theorem tick_eq (s : State) : tick s = keyScan (switchTick (timePasses s)) := rfl

/-- What a scan of the keys changes (log 100). -/
theorem keyScan_frame (s : State) :
    keyScan s = { s with clk := { s.clk with freeCount := (keyScan s).clk.freeCount }
                         pan := { s.pan with raw := (keyScan s).pan.raw, bounce := (keyScan s).pan.bounce } } := by
  unfold keyScan
  split <;> rfl

theorem keyScan_none (s : State) (h : awake s = false ∨ s.clk.opUs % 1000 ≠ 0) : keyScan s = s :=
  if_neg (by rcases h with h | h <;> simp [h])

/-- A scan leaves each key either at rest, or one scan further with a raw state that differs from the debounced one. -/
theorem keyScan_key (s : State) (hawake : awake s = true) (hdue : s.clk.opUs % 1000 = 0) (k : Fin 21) :
    ((keyScan s).pan.raw.getLsbD k = s.pan.pressed.getLsbD k → nth 0 (keyScan s).pan.bounce k = 0) ∧
      ((keyScan s).pan.raw.getLsbD k ≠ s.pan.pressed.getLsbD k → nth 0 (keyScan s).pan.bounce k = nth 0 s.pan.bounce k + 1 ∧
        nth 0 (keyScan s).pan.bounce k < if s.pan.pressed.getLsbD k then (keyTimes s).2.1 else (keyTimes s).1) := by
  have hscan : keyScan s = _ := if_pos ⟨hawake, hdue⟩
  have hraw : (keyScan s).pan.raw.getLsbD k = xor (s.pan.pressed.getLsbD k) (bounces s k) := by
    rw [hscan]
    exact getLsbD_ofNat_maskOf _ k.isLt k.isLt
  have hbounce : nth 0 (keyScan s).pan.bounce k = if bounces s k then nth 0 s.pan.bounce k + 1 else 0 := by
    rw [hscan]
    simp [nth]
  rw [hraw, hbounce]
  cases hb : bounces s k with
  | false => simp
  | true => 
    simp only [bounces, Bool.and_eq_true, decide_eq_true_eq] at hb
    simpa using hb.2

/-- Settles O2: time, the MRP engine, the transmitters, the job's entries and the scan of the keys, each with its own frame. -/
theorem anEmptyQueueLetsAMicrosecondPass : Obligations.AnEmptyQueueLetsAMicrosecondPass := by
  intro s hqueue
  have hstep : step s = .next (tick s) := by rw [step, hqueue]
  refine ⟨tick s, hstep, ?_⟩
  have hswitch := switchTick_ticked (timePasses s)
  have hscan := keyScan_frame (switchTick (timePasses s))
  rw [tick_eq]
  generalize switchTick (timePasses s) = u at hswitch hscan
  obtain ⟨hframe, hsent, hoff, hidle, hmoves, hnoManager⟩ := hswitch
  have hawake : awake u = awake s := by rw [hframe]; rfl
  have htime : u.clk.opUs = (timePasses s).clk.opUs := by rw [hframe]
  have hlate : awake s = true → u.clk.opUs = s.clk.opUs + 1 := fun h => htime.trans (if_neg (of_decide_eq_true h).1)
  have hkeys : u.pan = s.pan ∧ u.mld = s.mld := by rw [hframe]; exact ⟨rfl, rfl⟩
  have hkey := keyScan_key u
  have hnone := keyScan_none u
  generalize keyScan u = t at hscan hkey hnone
  obtain ⟨htbl, hdata, himg, hbx, hsw, hout⟩ :
      t.tbl = u.tbl ∧ t.data = u.data ∧ t.img = u.img ∧ t.bx = u.bx ∧ t.sw = u.sw ∧ t.out = u.out := by
    rw [hscan]; exact ⟨rfl, rfl, rfl, rfl, rfl, rfl⟩
  obtain ⟨hopUs, hsecUs⟩ : t.clk.opUs = (timePasses s).clk.opUs ∧ t.rtc.secUs = (timePasses s).rtc.secUs := by
    rw [hscan, hframe]; exact ⟨rfl, rfl⟩
  rw [htbl, hdata, himg, hbx, hsw, hout]
  refine ⟨?_, fun h => ?_, hmoves, fun h => hopUs.trans (if_pos h), fun h => hopUs.trans (if_neg h), fun h => ?_, fun h => ?_, hnoManager,
    hsent, fun h => ?_, fun h hdue k => ?_⟩
  · rw [hscan, hframe]; rfl
  · rcases h with h | h
    · rw [hoff h]; exact ⟨rfl, rfl, rfl, rfl⟩
    · exact hidle h
  · rw [hsecUs]
    exact Nat.min_eq_left h
  · rw [hoff h]; exact ⟨rfl, rfl⟩
  · have hstill : t = u := hnone (by
      rw [hawake]
      by_cases ha : awake s = true
      · exact Or.inr (by rw [hlate ha]; exact h.resolve_left (by simp [ha]))
      · exact Or.inl (by simpa using ha))
    rw [hstill, hkeys.1]
    exact ⟨rfl, by rw [hframe]; rfl⟩
  · have hk := hkey (hawake.trans h) (by rw [hlate h]; exact hdue) k
    have htimes : keyTimes u = keyTimes s := by rw [keyTimes, keyTimes, restOf, restOf, hkeys.2]
    rwa [hkeys.1, htimes] at hk

end
end Sys2Proof.Machine
end

section
/-! SUPPORT. What a function of the model leaves alone: the state cut into parts, and the parts outside of which two states agree. -/

namespace Sys2Proof.Machine

section
set_option Elab.async false

/-- The parts of the state: one for each field of State, and several for the clock, the power block and the Marshal. -/
inductive Part where
  | wallUs | opUs | savedMs | anchorMs | optHi | freeCount
  | opState | role | transit | causes | start | pwrCycles | refusals | pfw | runEntry | pdOn | pdTripped | drivers | history | pdUs | hot
  | sens
  | async | svc | watchdogs | issue | testedSet | keys | storeFault | onP0
  | sjGrows | trGrows | trSeq | logRest | records | crc | rings | layout | poolRest
  | outputs | cmd | dioRest | dioc | mld | img | frzP | frzRest | running | lapNum | lapTimes | lapRest | wtEnd | ctxRest | bu | rfx | bx | prog | edit | sby | sbx | saf | acq
  | frozen | metering | mtrRest | lb | sw | tbl | pxSeq | pxLast | pxReport | pxPending | pxRest | journal | updHead | updRest
  | notes | rtcRest | locked | panRest | answers | responses | svcOut | pxOut | outRest | data | mram | flash | pending
deriving DecidableEq

/-- Two states agree in a part. -/
def Part.Same (p : Part) (s t : State) : Prop :=
  match p with
  | .wallUs => t.clk.wallUs = s.clk.wallUs
  | .opUs => t.clk.opUs = s.clk.opUs
  | .savedMs => t.clk.savedMs = s.clk.savedMs
  | .anchorMs => t.clk.anchorMs = s.clk.anchorMs
  | .optHi => t.clk.optHi = s.clk.optHi
  | .freeCount => t.clk.freeCount = s.clk.freeCount
  | .opState => t.power.state = s.power.state
  | .role => t.power.role = s.power.role
  | .transit => t.power.transit = s.power.transit
  | .causes => t.power.causes = s.power.causes ∧ t.power.firstCause = s.power.firstCause ∧ t.power.ssEntryMs = s.power.ssEntryMs ∧
      t.power.ssArmed = s.power.ssArmed ∧ t.power.ssPdOn = s.power.ssPdOn
  | .start => t.power.startKind = s.power.startKind ∧ t.power.wakeSrc = s.power.wakeSrc ∧ t.power.resume = s.power.resume ∧
      t.power.t0Us = s.power.t0Us ∧ t.power.loadStep = s.power.loadStep ∧ t.power.runTimeMs = s.power.runTimeMs
  | .pwrCycles => t.power.pwrCycles = s.power.pwrCycles
  | .refusals => t.power.refusals = s.power.refusals ∧ t.power.busyPx = s.power.busyPx
  | .pfw => t.power.pfw = s.power.pfw ∧ t.power.pfwUs = s.power.pfwUs
  | .runEntry => t.power.runEntryUs = s.power.runEntryUs
  | .pdOn => t.power.pdOn = s.power.pdOn
  | .pdTripped => t.power.pdTripped = s.power.pdTripped ∧ t.power.pdLocked = s.power.pdLocked
  | .drivers => t.power.driversOn = s.power.driversOn
  | .history => t.power.roleHistory = s.power.roleHistory
  | .pdUs => t.power.pdUs = s.power.pdUs
  | .hot => t.power.hot = s.power.hot
  | .sens => t.sens = s.sens
  | .async => t.mgt.asyncCode = s.mgt.asyncCode ∧ t.mgt.asyncStatus = s.mgt.asyncStatus ∧ t.mgt.asyncOpen = s.mgt.asyncOpen
  | .svc => t.mgt.svcOpen = s.mgt.svcOpen ∧ t.mgt.vbus = s.mgt.vbus ∧ t.mgt.svcBad = s.mgt.svcBad ∧
      t.mgt.svcLastUs = s.mgt.svcLastUs ∧ t.mgt.svcBuf = s.mgt.svcBuf
  | .watchdogs => t.mgt.wdA = s.mgt.wdA ∧ t.mgt.wdB = s.mgt.wdB
  | .issue => t.mgt.issue = s.mgt.issue ∧ t.mgt.rom = s.mgt.rom
  | .testedSet => t.mgt.testedSet = s.mgt.testedSet
  | .keys => t.mgt.keyView = s.mgt.keyView ∧ t.mgt.keyOperate = s.mgt.keyOperate ∧ t.mgt.keyEngineer = s.mgt.keyEngineer ∧
      t.mgt.keyService = s.mgt.keyService ∧ t.mgt.plantCurrent = s.mgt.plantCurrent ∧ t.mgt.plantNext = s.mgt.plantNext ∧
      t.mgt.panelCopy = s.mgt.panelCopy
  | .storeFault => t.mgt.storeFault = s.mgt.storeFault
  | .onP0 => t.mgt.onP0 = s.mgt.onP0
  | .sjGrows => s.log.sjQueue <+: t.log.sjQueue
  | .trGrows => s.log.trQueue <+: t.log.trQueue
  | .trSeq => t.log.trSeq = s.log.trSeq
  | .logRest => t.log = { s.log with
      trSeq := t.log.trSeq
      sjQueue := t.log.sjQueue, trQueue := t.log.trQueue, repeats := t.log.repeats, trDrop := t.log.trDrop,
      trDropMissed := t.log.trDropMissed, trDropMs := t.log.trDropMs, trDropWritten := t.log.trDropWritten }
  | .records => t.log.sjQueue = s.log.sjQueue ∧ t.log.trQueue = s.log.trQueue ∧ t.log.repeats = s.log.repeats ∧
      t.log.trDrop = s.log.trDrop ∧ t.log.trDropMissed = s.log.trDropMissed ∧ t.log.trDropMs = s.log.trDropMs ∧
      t.log.trDropWritten = s.log.trDropWritten
  | .crc => t.crc = s.crc
  | .rings => t.queues.rings = s.queues.rings
  | .layout => ∀ n, (ringGet t n).base = (ringGet s n).base ∧ (ringGet t n).log2 = (ringGet s n).log2 ∧
      (ringGet t n).policy = (ringGet s n).policy ∧ (ringGet t n).producer = (ringGet s n).producer ∧
      (ringGet t n).consumer = (ringGet s n).consumer ∧ (ringGet t n).hwm = (ringGet s n).hwm
  | .poolRest => t.queues = { s.queues with rings := t.queues.rings }
  | .outputs => t.dio.on = s.dio.on ∧ t.dio.openLoad = s.dio.openLoad ∧ t.dio.backfeed = s.dio.backfeed ∧ t.dio.readback = s.dio.readback
  | .cmd => t.dio.cmd = s.dio.cmd
  | .dioRest => t.dio = { s.dio with
      cmd := t.dio.cmd
      on := t.dio.on, openLoad := t.dio.openLoad, backfeed := t.dio.backfeed, readback := t.dio.readback }
  | .dioc => t.dioc = s.dioc
  | .mld => t.mld = s.mld
  | .img => t.img = s.img
  | .frzP => t.frz.p = s.frz.p
  | .frzRest => t.frz = { s.frz with p := t.frz.p }
  | .running => t.lap.running = s.lap.running
  | .lapNum => t.lap.num = s.lap.num
  | .lapTimes => t.lap.freezeUs = s.lap.freezeUs ∧ t.lap.lastUs = s.lap.lastUs
  | .lapRest => t.lap = { s.lap with
      running := t.lap.running, num := t.lap.num, freezeUs := t.lap.freezeUs, lastUs := t.lap.lastUs }
  | .wtEnd => t.ctx.wtEndUs = s.ctx.wtEndUs
  | .ctxRest => t.ctx = { s.ctx with wtEndUs := t.ctx.wtEndUs }
  | .bu => t.bu = s.bu
  | .rfx => t.rfx = s.rfx
  | .bx => t.bx = s.bx
  | .prog => t.prog = s.prog
  | .edit => t.edit = s.edit
  | .sby => t.sby = s.sby
  | .sbx => t.sbx = s.sbx
  | .saf => t.saf = s.saf
  | .acq => t.acq = s.acq
  | .frozen => t.mtr.frozen = s.mtr.frozen ∧ t.mtr.frozenPfw = s.mtr.frozenPfw ∧ t.mtr.lastWasB = s.mtr.lastWasB
  | .metering => t.mtr.running = s.mtr.running
  | .mtrRest => t.mtr = { s.mtr with running := t.mtr.running, frozen := t.mtr.frozen, frozenPfw := t.mtr.frozenPfw, lastWasB := t.mtr.lastWasB }
  | .lb => t.lb = s.lb
  | .sw => t.sw = s.sw
  | .tbl => t.tbl = s.tbl
  | .pxSeq => t.px.seqTx = s.px.seqTx
  | .pxLast => t.px.last = s.px.last
  | .pxReport => t.px.reportTo = s.px.reportTo
  | .pxPending => t.px.pending = s.px.pending
  | .pxRest => t.px = { s.px with seqTx := t.px.seqTx, last := t.px.last, reportTo := t.px.reportTo, pending := t.px.pending }
  | .journal => t.upd.journal = s.upd.journal
  | .updHead => t.upd.headSeq = s.upd.headSeq
  | .updRest => t.upd = { s.upd with journal := t.upd.journal, headSeq := t.upd.headSeq }
  | .notes => t.rtc.notes = s.rtc.notes
  | .rtcRest => t.rtc = { s.rtc with notes := t.rtc.notes }
  | .locked => t.pan.locked = s.pan.locked
  | .panRest => t.pan = { s.pan with locked := t.pan.locked }
  | .answers => s.out.responses <:+ t.out.responses
  | .responses => t.out.responses = s.out.responses
  | .svcOut => t.out.svc = s.out.svc
  | .pxOut => t.out.px = s.out.px
  | .outRest => t.out = { s.out with responses := t.out.responses, svc := t.out.svc, px := t.out.px }
  | .data => t.data = s.data
  | .mram => t.mram = s.mram
  | .flash => t.flash = s.flash
  | .pending => t.pending = s.pending

theorem Part.same_refl (p : Part) (s : State) : p.Same s s := by
  cases p <;> simp [Part.Same]

theorem Part.same_trans {p : Part} {s t u : State} (h : p.Same s t) (k : p.Same t u) : p.Same s u := by
  cases p
  case sjGrows => exact List.IsPrefix.trans h k
  case trGrows => exact List.IsPrefix.trans h k
  case answers => exact List.IsSuffix.trans h k
  case layout =>
    intro n
    obtain ⟨hbase, hlog2, hpolicy, hproducer, hconsumer, hhwm⟩ := h n
    obtain ⟨kbase, klog2, kpolicy, kproducer, kconsumer, khwm⟩ := k n
    exact ⟨kbase.trans hbase, klog2.trans hlog2, kpolicy.trans hpolicy, kproducer.trans hproducer, kconsumer.trans hconsumer, khwm.trans hhwm⟩
  case logRest => rw [Part.Same] at h k ⊢; rw [k, h]
  case poolRest => rw [Part.Same] at h k ⊢; rw [k, h]
  case dioRest => rw [Part.Same] at h k ⊢; rw [k, h]
  case frzRest => rw [Part.Same] at h k ⊢; rw [k, h]
  case lapRest => rw [Part.Same] at h k ⊢; rw [k, h]
  case ctxRest => rw [Part.Same] at h k ⊢; rw [k, h]
  case mtrRest => rw [Part.Same] at h k ⊢; rw [k, h]
  case pxRest => rw [Part.Same] at h k ⊢; rw [k, h]
  case updRest => rw [Part.Same] at h k ⊢; rw [k, h]
  case rtcRest => rw [Part.Same] at h k ⊢; rw [k, h]
  case panRest => rw [Part.Same] at h k ⊢; rw [k, h]
  case outRest => rw [Part.Same] at h k ⊢; rw [k, h]
  all_goals simp_all [Part.Same]

/-- Are the parts `ps` among the parts `qs`? -/
def within (ps qs : List Part) : Bool := ps.all fun p => qs.any fun q => Nat.beq p.ctorIdx q.ctorIdx

theorem mem_of_within {ps qs : List Part} (h : within ps qs = true) {p : Part} (hp : p ∈ ps) : p ∈ qs := by
  obtain ⟨q, hq, heq⟩ := List.any_eq_true.1 (List.all_eq_true.1 h p hp)
  exact Function.LeftInverse.injective Part.ofNat_ctorIdx (Nat.eq_of_beq_eq_true heq) ▸ hq

/-- Do the parts `qs` lie apart from the parts `ps`? -/
def apart (qs ps : List Part) : Bool := qs.all fun q => ps.all fun p => !Nat.beq q.ctorIdx p.ctorIdx

theorem apart_of_not_mem {p : Part} {ps : List Part} (h : p ∉ ps) : apart [p] ps = true := by
  simp only [apart, List.all_cons, List.all_nil, Bool.and_true, List.all_eq_true, Bool.not_eq_true']
  intro q hq
  refine Bool.eq_false_iff.2 fun heq => h ?_
  exact Function.LeftInverse.injective Part.ofNat_ctorIdx (Nat.eq_of_beq_eq_true heq) ▸ hq

/-- Outside the parts `ps` the state `t` agrees with `s`. -/
structure Changes (ps : List Part) (s t : State) : Prop where
  same : ∀ p, p ∉ ps → p.Same s t

section
variable {ps qs : List Part} {s t u : State}

theorem Changes.refl (ps : List Part) (s : State) : Changes ps s s := ⟨fun p _ => p.same_refl s⟩

theorem Changes.mono (h : Changes ps s t) (hsub : within ps qs = true := by rfl) : Changes qs s t :=
  ⟨fun p hp => h.same p (fun hin => hp (mem_of_within hsub hin))⟩

/-- One change after another, of parts that are among the first ones. -/
theorem Changes.trans (h : Changes qs s t) (k : Changes ps t u) (hsub : within ps qs = true := by rfl) : Changes qs s u :=
  ⟨fun p hp => Part.same_trans (h.same p hp) (k.same p (fun hin => hp (mem_of_within hsub hin)))⟩

theorem Changes.join (h : Changes ps s t) (k : Changes ps t u) : Changes ps s u :=
  ⟨fun p hp => Part.same_trans (h.same p hp) (k.same p hp)⟩

theorem Changes.ite {c : Prop} {_ : Decidable c} (h : Changes ps s t) (k : Changes ps s u) : Changes ps s (if c then t else u) := by
  split
  · exact h
  · exact k

theorem Changes.foldl {α : Type} {f : State → α → State} (hf : ∀ u a, Changes ps u (f u a)) (l : List α) (s : State) :
    Changes ps s (l.foldl f s) := by
  induction l generalizing s with
  | nil => exact Changes.refl ps s
  | cons a l ih => exact (hf s a).join (ih (f s a))

/-- A fold that carries a value beside the state. -/
theorem Changes.foldl_fst {α β : Type} {f : State × β → α → State × β} (hf : ∀ acc a, Changes ps acc.1 (f acc a).1) (l : List α)
    (acc : State × β) : Changes ps acc.1 (l.foldl f acc).1 := by
  induction l generalizing acc with
  | nil => exact Changes.refl ps acc.1
  | cons a l ih => exact (hf acc a).join (ih (f acc a))

/-- An update that leaves the other parts as they are, of which each is seen by unfolding. -/
theorem Changes.of (h : ∀ p, apart [p] ps = true → p.Same s t := by
      intro p hp
      cases p <;> first | exact Bool.noConfusion (show false = true from hp) | simp [Part.Same, ringGet]) : Changes ps s t :=
  ⟨fun p hp => h p (apart_of_not_mem hp)⟩

/-- After a change an update of the parts `ps`. -/
theorem Changes.also (h : Changes qs s t) (ps : List Part) (k : ∀ p, apart [p] ps = true → p.Same t u := by
      intro p hp
      cases p <;> first | exact Bool.noConfusion (show false = true from hp) | simp [Part.Same, ringGet])
    (hsub : within ps qs = true := by rfl) : Changes qs s u := h.trans (Changes.of k) hsub

/-- What pushes and records change. -/
def bookParts : List Part := [.rings, .records, .freeCount, .data]

theorem changes_of_booked {ns : List Nat} (h : Safety.Booked ns s t) : Changes bookParts s t := by
  refine ⟨fun p hp => ?_⟩
  have hframe := h.frame
  cases p
  case sjGrows => exact h.sjKept
  case trGrows => exact h.trKept
  case layout => exact h.layout
  case trSeq => rw [Part.Same, h.logKept]
  case logRest =>
    have hseq : t.log.trSeq = s.log.trSeq := by rw [h.logKept]
    rw [Part.Same, hseq]
    exact h.logKept
  case poolRest => exact h.poolKept
  case rings => exact absurd (by decide) hp
  case records => exact absurd (by decide) hp
  case freeCount => exact absurd (by decide) hp
  case data => exact absurd (by decide) hp
  all_goals rw [hframe]; simp [Part.Same]

theorem not_mem_of_apart {p : Part} (h : apart qs ps = true) (hp : p ∈ qs) : p ∉ ps := by
  intro hin
  have hne := List.all_eq_true.1 (List.all_eq_true.1 h p hp) p hin
  simp [Nat.beq_refl] at hne

/-- Two states agree in a part that stands. -/
theorem Changes.get (h : Changes ps s t) (p : Part) (hp : apart [p] ps = true := by rfl) : p.Same s t :=
  h.same p (not_mem_of_apart hp (by simp))

/-- The parts of a field of the state, for the fields that are cut into several. -/
def powerParts : List Part := [.opState, .role, .transit, .causes, .start, .pwrCycles, .refusals, .pfw, .runEntry, .pdOn, .pdTripped,
  .drivers, .history, .pdUs, .hot]
def mgtParts : List Part := [.async, .svc, .watchdogs, .issue, .testedSet, .keys, .storeFault, .onP0]

theorem Changes.power (h : Changes ps s t) (hp : apart powerParts ps = true := by rfl) : t.power = s.power := by
  have all : ∀ p ∈ powerParts, p.Same s t := fun p hin => h.same p (not_mem_of_apart hp hin)
  simp only [powerParts, List.forall_mem_cons, Part.Same] at all
  rcases hs : s.power
  rcases ht : t.power
  simp_all

theorem Changes.mgt (h : Changes ps s t) (hp : apart mgtParts ps = true := by rfl) : t.mgt = s.mgt := by
  have all : ∀ p ∈ mgtParts, p.Same s t := fun p hin => h.same p (not_mem_of_apart hp hin)
  simp only [mgtParts, List.forall_mem_cons, Part.Same] at all
  rcases hs : s.mgt
  rcases ht : t.mgt
  simp_all

theorem Changes.dio (h : Changes ps s t) (hp : apart [.outputs, .cmd, .dioRest] ps = true := by rfl) : t.dio = s.dio := by
  have houtputs : Part.Same .outputs s t := h.same _ (not_mem_of_apart hp (by simp))
  have hcmd : Part.Same .cmd s t := h.same _ (not_mem_of_apart hp (by simp))
  have hrest : Part.Same .dioRest s t := h.same _ (not_mem_of_apart hp (by simp))
  simp only [Part.Same] at houtputs hcmd hrest
  obtain ⟨hon, hopen, hback, hread⟩ := houtputs
  rw [hrest, hcmd, hon, hopen, hback, hread]

theorem Changes.lap (h : Changes ps s t) (hp : apart [.running, .lapNum, .lapTimes, .lapRest] ps = true := by rfl) : t.lap = s.lap := by
  have hrunning : Part.Same .running s t := h.same _ (not_mem_of_apart hp (by simp))
  have hnum : Part.Same .lapNum s t := h.same _ (not_mem_of_apart hp (by simp))
  have htimes : Part.Same .lapTimes s t := h.same _ (not_mem_of_apart hp (by simp))
  have hrest : Part.Same .lapRest s t := h.same _ (not_mem_of_apart hp (by simp))
  simp only [Part.Same] at hrunning hnum htimes hrest
  obtain ⟨hfreeze, hlast⟩ := htimes
  rw [hrest, hrunning, hnum, hfreeze, hlast]

theorem Changes.frz (h : Changes ps s t) (hp : apart [.frzP, .frzRest] ps = true := by rfl) : t.frz = s.frz := by
  have hp' : Part.Same .frzP s t := h.same _ (not_mem_of_apart hp (by simp))
  have hrest : Part.Same .frzRest s t := h.same _ (not_mem_of_apart hp (by simp))
  simp only [Part.Same] at hp' hrest
  rw [hrest, hp']

theorem Changes.ctx (h : Changes ps s t) (hp : apart [.wtEnd, .ctxRest] ps = true := by rfl) : t.ctx = s.ctx := by
  have hwtEnd : Part.Same .wtEnd s t := h.same _ (not_mem_of_apart hp (by simp))
  have hrest : Part.Same .ctxRest s t := h.same _ (not_mem_of_apart hp (by simp))
  simp only [Part.Same] at hwtEnd hrest
  rw [hrest, hwtEnd]

theorem Changes.mtr (h : Changes ps s t) (hp : apart [.frozen, .metering, .mtrRest] ps = true := by rfl) : t.mtr = s.mtr := by
  have hfrozen : Part.Same .frozen s t := h.same _ (not_mem_of_apart hp (by simp))
  have hmetering : Part.Same .metering s t := h.same _ (not_mem_of_apart hp (by simp))
  have hrest : Part.Same .mtrRest s t := h.same _ (not_mem_of_apart hp (by simp))
  simp only [Part.Same] at hfrozen hmetering hrest
  obtain ⟨hfrozen, hpfw, hlast⟩ := hfrozen
  rw [hrest, hmetering, hfrozen, hpfw, hlast]

theorem Changes.px (h : Changes ps s t) (hp : apart [.pxSeq, .pxLast, .pxReport, .pxPending, .pxRest] ps = true := by rfl) : t.px = s.px := by
  have hpxSeq : Part.Same .pxSeq s t := h.same _ (not_mem_of_apart hp (by simp))
  have hpxLast : Part.Same .pxLast s t := h.same _ (not_mem_of_apart hp (by simp))
  have hpxReport : Part.Same .pxReport s t := h.same _ (not_mem_of_apart hp (by simp))
  have hpxPending : Part.Same .pxPending s t := h.same _ (not_mem_of_apart hp (by simp))
  have hrest : Part.Same .pxRest s t := h.same _ (not_mem_of_apart hp (by simp))
  simp only [Part.Same] at hpxSeq hpxLast hpxReport hpxPending hrest
  rw [hrest, hpxSeq, hpxLast, hpxReport, hpxPending]

theorem Changes.upd (h : Changes ps s t) (hp : apart [.journal, .updHead, .updRest] ps = true := by rfl) : t.upd = s.upd := by
  have hjournal : Part.Same .journal s t := h.same _ (not_mem_of_apart hp (by simp))
  have hupdHead : Part.Same .updHead s t := h.same _ (not_mem_of_apart hp (by simp))
  have hrest : Part.Same .updRest s t := h.same _ (not_mem_of_apart hp (by simp))
  simp only [Part.Same] at hjournal hupdHead hrest
  rw [hrest, hjournal, hupdHead]

theorem Changes.rtc (h : Changes ps s t) (hp : apart [.notes, .rtcRest] ps = true := by rfl) : t.rtc = s.rtc := by
  have hnotes : Part.Same .notes s t := h.same _ (not_mem_of_apart hp (by simp))
  have hrest : Part.Same .rtcRest s t := h.same _ (not_mem_of_apart hp (by simp))
  simp only [Part.Same] at hnotes hrest
  rw [hrest, hnotes]

theorem Changes.pan (h : Changes ps s t) (hp : apart [.locked, .panRest] ps = true := by rfl) : t.pan = s.pan := by
  have hlocked : Part.Same .locked s t := h.same _ (not_mem_of_apart hp (by simp))
  have hrest : Part.Same .panRest s t := h.same _ (not_mem_of_apart hp (by simp))
  simp only [Part.Same] at hlocked hrest
  rw [hrest, hlocked]

theorem Changes.out (h : Changes ps s t) (hp : apart [.responses, .svcOut, .pxOut, .outRest] ps = true := by rfl) : t.out = s.out := by
  have hresponses : Part.Same .responses s t := h.same _ (not_mem_of_apart hp (by simp))
  have hsvcOut : Part.Same .svcOut s t := h.same _ (not_mem_of_apart hp (by simp))
  have hpxOut : Part.Same .pxOut s t := h.same _ (not_mem_of_apart hp (by simp))
  have hrest : Part.Same .outRest s t := h.same _ (not_mem_of_apart hp (by simp))
  simp only [Part.Same] at hresponses hsvcOut hpxOut hrest
  rw [hrest, hresponses, hsvcOut, hpxOut]

theorem Changes.queues (h : Changes ps s t) (hp : apart [.rings, .poolRest] ps = true := by rfl) : t.queues = s.queues := by
  have hrings : Part.Same .rings s t := h.same _ (not_mem_of_apart hp (by simp))
  have hrest : Part.Same .poolRest s t := h.same _ (not_mem_of_apart hp (by simp))
  simp only [Part.Same] at hrings hrest
  rw [hrest, hrings]

theorem Changes.log (h : Changes ps s t) (hp : apart [.records, .trSeq, .logRest] ps = true := by rfl) : t.log = s.log := by
  have hrecords : Part.Same .records s t := h.same _ (not_mem_of_apart hp (by simp))
  have htrSeq : Part.Same .trSeq s t := h.same _ (not_mem_of_apart hp (by simp))
  have hrest : Part.Same .logRest s t := h.same _ (not_mem_of_apart hp (by simp))
  simp only [Part.Same] at hrecords htrSeq hrest
  obtain ⟨hsj, htr, hrepeats, hdrop, hmissed, hms, hwritten⟩ := hrecords
  rw [hrest, htrSeq, hsj, htr, hrepeats, hdrop, hmissed, hms, hwritten]

end

end
end Sys2Proof.Machine
end

section
/-! SUPPORT. Which parts of the state the functions of the records, the responses and the power domains change, one lemma a function,
in the order of the model's files. -/

namespace Sys2Proof.Machine

section
set_option Elab.async false

/-! ### Records, events and memory -/

theorem drawn_changes (s : State) : Changes bookParts s (drawn s) := changes_of_booked (Safety.drawn_booked [] s)
theorem sj_changes (code sev : Nat) (items : Bytes) (s : State) : Changes bookParts s (sj code sev items s) :=
  changes_of_booked (Safety.sj_booked ..)
theorem tr_changes (code sev : Nat) (items : Bytes) (s : State) : Changes bookParts s (tr code sev items s) :=
  changes_of_booked (Safety.tr_booked ..)
theorem sjRep_changes (code sev key : Nat) (items : Bytes) (s : State) : Changes bookParts s (sjRep code sev key items s) :=
  changes_of_booked (Safety.sjRep_booked ..)
theorem trRep_changes (code sev key : Nat) (items : Bytes) (s : State) : Changes bookParts s (trRep code sev key items s) :=
  changes_of_booked (Safety.trRep_booked ..)
theorem sjStateChange_changes (old new : OpState) (s : State) : Changes bookParts s (sjStateChange old new s) :=
  changes_of_booked (Safety.sjStateChange_booked ..)
theorem push_changes (n : Nat) (d : Desc) (s : State) : Changes bookParts s (push n d s) := changes_of_booked (Safety.push_booked ..)
theorem drop1_changes (n : Nat) (s : State) : Changes bookParts s (drop1 n s) := changes_of_booked (Safety.ringTake_booked ..)
theorem pushEvent_changes (e : Nat) (src : Byte) (tag : Word) (s : State) : Changes bookParts s (pushEvent e src tag s) :=
  changes_of_booked (Safety.pushEvent_booked ..)
theorem pushEventFree_changes (e : Nat) (src : Byte) (s : State) : Changes bookParts s (pushEventFree e src s) :=
  changes_of_booked (Safety.pushEventFree_booked ..)
theorem mramWrite_changes (a : Nat) (bs : Bytes) (s : State) : Changes [.mram] s (mramWrite a bs s) := by
  unfold mramWrite
  exact .of
theorem flashWrite_changes (a : Nat) (bs : Bytes) (s : State) : Changes [.flash] s (flashWrite a bs s) := by
  unfold flashWrite
  exact .of

theorem whenever_changes {ps : List Part} {f : State → State} {c : Bool} {s : State} (h : Changes ps s (f s)) :
    Changes ps s (whenever c f s) := Changes.ite h (.refl ps s)

theorem withFieldEvent_changes {ps : List Part} {f : State → State} {s : State} (h : Changes ps s (f s))
    (hps : within bookParts ps = true := by rfl) : Changes ps s (withFieldEvent f s) :=
  Changes.ite (h.trans (pushEventFree_changes ..) hps) h

theorem timeAnchor_changes (kind : Nat) (s : State) : Changes (.anchorMs :: bookParts) s (timeAnchor kind s) :=
  ((Changes.refl _ s).also [.anchorMs]).trans (sj_changes ..)

/-! ### Accepted requests and their responses -/

theorem asyncDone_changes (code status : Byte) (s : State) : Changes (.async :: bookParts) s (asyncDone code status s) := by
  unfold asyncDone
  split
  · exact .refl _ s
  · exact ((Changes.refl _ s).also [.async]).trans (sj_changes ..)

theorem asyncDoneFree_changes (code : Byte) (s : State) : Changes (.async :: bookParts) s (asyncDoneFree code s) :=
  .ite ((drawn_changes s).mono.trans (asyncDone_changes ..)) (.refl _ s)

theorem asyncCut_changes (s : State) : Changes (.async :: bookParts) s (asyncCut s) :=
  .foldl (fun u c => asyncDoneFree_changes c u) _ s

theorem pxPut_changes (dest : NetAddr × Half) (frame : Bytes) (s : State) : Changes [.pxSeq, .pxOut] s (pxPut dest frame s) :=
  .ite (.refl _ s) .of

theorem mailboxOut_changes (n : Nat) (s : State) : Changes bookParts s (mailboxOut n s) :=
  ((drawn_changes s).join (drawn_changes _)).join ((push_changes ..).join (drop1_changes ..))

/-- What a response changes. -/
def respondParts : List Part := .pxSeq :: .pxLast :: .responses :: .svcOut :: .pxOut :: bookParts

theorem sendResponse_changes (key : Option Bytes) (q : PendingReq) (status : Byte) (body : Bytes) (s : State) :
    Changes [.pxSeq, .pxOut] s (sendResponse key q status body s) := pxPut_changes ..

theorem storeResponse_changes (q : PendingReq) (frame : Bytes) (s : State) : Changes [.pxLast] s (storeResponse q frame s) := by
  unfold storeResponse
  exact .of

theorem respondUnder_changes (key : Option Bytes) (a : Asked) (status : Byte) (results : Bytes) (s : State) :
    Changes respondParts s (respondUnder key a status results s) := by
  unfold respondUnder
  split
  · exact .ite .of (.refl _ s)
  · exact ((Changes.ite (((Changes.refl _ s).also [.responses]).trans (mailboxOut_changes ..)) .of).trans (storeResponse_changes ..)).trans
      (sendResponse_changes ..)

theorem respond_changes (a : Asked) (status : Byte) (results : Bytes) (s : State) :
    Changes respondParts s (respond a status results s) := respondUnder_changes ..

theorem refusalNote_changes (code path status reason : Nat) (s : State) :
    Changes (.refusals :: bookParts) s (refusalNote code path status reason s) :=
  ((Changes.refl _ s).also [.refusals]).trans (sj_changes ..)

theorem reportLost_changes (s : State) : Changes (.refusals :: .pxReport :: respondParts) s (reportLost s) :=
  ((Changes.refl _ s).also [.pxReport]).join
    (.foldl (fun _ _ => (refusalNote_changes ..).mono.trans (respond_changes ..)) _ _)

theorem answerWaiting_changes (s : State) :
    Changes (.refusals :: .pxReport :: .pxPending :: respondParts) s (answerWaiting s) :=
  (((Changes.refl _ s).also [.pxPending]).trans (reportLost_changes ..)).trans (.foldl (fun _ _ => respond_changes ..) _ _)

/-- What the end of every request changes (R370, R374). -/
def cutParts : List Part := .async :: .refusals :: .pxReport :: .pxPending :: respondParts

theorem requestsCut_changes (s : State) : Changes cutParts s (requestsCut s) :=
  ((answerWaiting_changes s).mono.trans (asyncCut_changes ..)).trans (whenever_changes (asyncDoneFree_changes ..))

/-! ### Metering, outputs and the table of SAFE SERVICE -/

theorem takeSnapshot_changes (s : State) : Changes [.frozen, .mram] s (takeSnapshot s) :=
  ((Changes.refl _ s).also [.frozen]).trans (mramWrite_changes ..)

theorem freezeMeter_changes (cause : Nat) (s : State) :
    Changes (.frozen :: .mram :: bookParts) s (freezeMeter cause s) :=
  .ite ((((Changes.refl _ s).also [.frozen]).trans (takeSnapshot_changes ..)).trans (sj_changes ..)) .of

theorem refreshOutputs_changes (s : State) : Changes [.outputs] s (refreshOutputs s) := by
  unfold refreshOutputs
  exact .of

theorem judgeTable_changes (s : State) : Changes [.saf] s (judgeTable s) := by
  unfold judgeTable
  exact .of

theorem checkTable_changes (s : State) : Changes (.saf :: bookParts) s (checkTable s) := by
  unfold checkTable
  split
  · exact (judgeTable_changes s).mono
  · exact (judgeTable_changes s).mono.trans (sj_changes ..)

/-! ### The journal and the trace at a start -/

theorem headSave_changes (s : State) : Changes [.mram] s (headSave s) := (mramWrite_changes ..).join (mramWrite_changes ..)

theorem sjRebuild_changes (s : State) : Changes (.logRest :: .mram :: bookParts) s (sjRebuild s) :=
  (((Changes.refl _ s).also [.logRest]).trans (headSave_changes ..)).trans (sj_changes ..)

theorem sjAtStart_changes (s : State) : Changes (.logRest :: .mram :: bookParts) s (sjAtStart s) := by
  unfold sjAtStart
  split
  · exact .also (.refl _ s) [.logRest]
  · exact sjRebuild_changes s

theorem trSkip_changes (s : State) : Changes [.trSeq, .logRest] s (trSkip s) :=
  .ite (.refl _ s) (by unfold trSkipOne trNext; exact .of)

theorem journalWrite_changes (s : State) : Changes [.updHead, .mram] s (journalWrite s) :=
  ((Changes.refl _ s).also [.updHead]).trans (mramWrite_changes ..)

/-! ### Power domains -/

theorem stopLap_changes (s : State) : Changes [.running, .bu, .bx, .ctxRest] s (stopLap s) := by
  unfold stopLap
  exact .of

theorem domainStops_changes (d : Nat) (s : State) :
    Changes (.outputs :: .acq :: .sw :: .async :: bookParts) s (domainStops d s) :=
  .ite (refreshOutputs_changes s).mono (.ite (.also (.refl _ s) [.acq])
    (.ite (((Changes.refl _ s).also [.sw]).trans (asyncDoneFree_changes ..)) (.refl _ s)))

/-- What a domain's going off changes (R83, R364). -/
def offParts : List Part := .pdOn :: .sens :: .outputs :: .acq :: .sw :: .async :: bookParts

theorem domainOff_changes (d : Nat) (s : State) : Changes offParts s (domainOff d s) :=
  ((Changes.refl _ s).also [.pdOn, .sens]).trans (domainStops_changes ..)

theorem domainsOff_changes (ds : List Nat) (s : State) : Changes offParts s (domainsOff ds s) :=
  .foldl (fun u d => domainOff_changes d u) ds s

theorem tripDomain_changes (d : Nat) (s : State) : Changes (.pdTripped :: offParts) s (tripDomain d s) :=
  ((Changes.refl _ s).also [.pdTripped]).trans (domainOff_changes ..)

/-- What a domain's coming up resets (R5). -/
def resetParts : List Part := [.edit, .running, .lapNum, .lapTimes, .lapRest, .wtEnd, .ctxRest, .bx, .frzP, .frzRest, .prog, .saf, .lb, .bu, .outputs, .cmd, .dioRest, .dioc, .rfx,
  .sw, .tbl, .acq, .sby]

theorem resetDomain_changes (d : Nat) (s : State) : Changes resetParts s (resetDomain d s) := by
  have hlap : Changes resetParts s (resetLap s) := by unfold resetLap; exact .of
  have hswitch : Changes resetParts s (switchDefault s) := by unfold switchDefault; exact .of
  exact .ite hlap (.ite .of (.ite .of (.ite .of (.ite hswitch (.ite .of (.ite .of (.ite .of (.refl _ s))))))))

theorem domainOn_changes_of {ps : List Part} {d : Nat} {s : State} (h : Changes ps s (resetDomain d s))
    (hps : within [.pdOn, .pdUs] ps = true := by rfl) : Changes ps s (domainOn d s) :=
  .ite (.refl _ s) (h.also [.pdOn, .pdUs] (hsub := hps))

theorem domainOn_changes (d : Nat) (s : State) : Changes (.pdOn :: .pdUs :: resetParts) s (domainOn d s) :=
  domainOn_changes_of (resetDomain_changes d s).mono

/-- What the service of the first steps of a bring-up changes (R66, R70). -/
def serviceParts : List Part := [.pdOn, .pdUs, .drivers, .outputs, .cmd, .dioRest, .dioc, .rfx, .sw, .tbl]

theorem domainOn5_changes (s : State) : Changes [.pdOn, .pdUs, .outputs, .cmd, .dioRest, .dioc, .rfx] s (domainOn 5 s) :=
  domainOn_changes_of (by simp only [resetDomain]; exact .of)

theorem domainOn6_changes (s : State) : Changes [.pdOn, .pdUs, .sw, .tbl] s (domainOn 6 s) :=
  domainOn_changes_of (by simp only [resetDomain, switchDefault]; exact .of)

theorem domainOn11_changes (s : State) : Changes [.pdOn, .pdUs, .sby] s (domainOn 11 s) :=
  domainOn_changes_of (by simp only [resetDomain]; exact .of)

theorem serviceOn_changes (s : State) : Changes serviceParts s (serviceOn s) :=
  ((domainOn5_changes s).mono.also [.drivers]).trans (domainOn6_changes ..)

theorem serviceUp_changes (s : State) : Changes (.saf :: serviceParts ++ bookParts) s (serviceUp s) :=
  .ite (serviceOn_changes s).mono ((serviceOn_changes s).mono.trans (checkTable_changes ..))

/-! ### SVC, the panel and the backup domain -/

theorem closeSvc_changes (cause : Nat) (s : State) : Changes (.svc :: bookParts) s (closeSvc cause s) :=
  .ite (((Changes.refl _ s).also [.svc]).trans (sj_changes ..)) (.refl _ s)

theorem lockPanel_changes (cause : Nat) (s : State) : Changes (.locked :: .panRest :: bookParts) s (lockPanel cause s) :=
  ((Changes.refl _ s).also [.locked, .panRest]).trans (tr_changes ..)

theorem panelBare_changes (s : State) : Changes (.locked :: .panRest :: bookParts) s (panelBare s) :=
  .ite ((drawn_changes s).mono.trans (lockPanel_changes ..)) (.refl _ s)

theorem rtcRecord_changes (n : RtcNote) (s : State) : Changes bookParts s (rtcRecord n s) := by
  unfold rtcRecord
  split
  · exact sj_changes ..
  · exact tr_changes ..
  · exact sj_changes ..
  · exact sj_changes ..

theorem notesAtStart_changes (s : State) : Changes (.notes :: bookParts) s (notesAtStart s) :=
  ((Changes.refl _ s).also [.notes]).trans (.foldl (fun u n => rtcRecord_changes n u) _ _)

theorem rtcNote_changes (n : RtcNote) (s : State) : Changes (.notes :: bookParts) s (rtcNote n s) :=
  .ite (rtcRecord_changes n s).mono .of

theorem discardAtRestart_changes (s : State) : Changes (.edit :: bookParts) s (discardAtRestart s) :=
  .ite (((Changes.refl _ s).also [.edit]).trans (sj_changes ..)) .of

theorem emptyInactive_changes (s : State) : Changes [.updRest] s (emptyInactive s) := by
  unfold emptyInactive
  split <;> exact .of

end
end Sys2Proof.Machine
end

section
/-! PROOF. HALT and HIBERNATE (R85, R87, R276). -/

namespace Sys2Proof.Machine

section
set_option Elab.async false

/-! ### Outputs -/

theorem outputsOn_of_driversOff {s : State} (h : s.power.driversOn = false) : outputsOn s = 0 := by
  refine BitVec.eq_of_getLsbD_eq fun i hi => ?_
  rw [outputsOn, getLsbD_ofNat_maskOf _ hi hi]
  simp [outputOn, h]

theorem refreshOutputs_off {s : State} (h : s.power.driversOn = false) : (refreshOutputs s).dio.on = 0 := outputsOn_of_driversOff h

theorem domainStops_off {d : Nat} {s : State} (h : s.power.driversOn = false) (hon : s.dio.on = 0) : (domainStops d s).dio.on = 0 := by
  unfold domainStops
  split_ifs
  · exact refreshOutputs_off h
  · exact hon
  · have hdio : (asyncDoneFree 0x0F { s with sw := { s.sw with ports := s.sw.ports.map fun p => { p with up := false } } }).dio = s.dio :=
      (asyncDoneFree_changes ..).dio
    rw [hdio, hon]
  · exact hon

/-- With the drivers off no output is on, whichever domains go off. -/
theorem domainsOff_off (ds : List Nat) {s : State} (h : s.power.driversOn = false) (hon : s.dio.on = 0) :
    (domainsOff ds s).dio.on = 0 := by
  induction ds generalizing s with
  | nil => exact hon
  | cons d ds ih => exact ih ((domainOff_changes d s).get .drivers |>.trans h) (domainStops_off h hon)

theorem applyOutputs_changes (v : BitVec 16) (s : State) : Changes [.outputs, .cmd, .dioRest] s (applyOutputs v s) :=
  ((Changes.refl _ s).also [.cmd, .dioRest]).trans (refreshOutputs_changes ..)

theorem setRole_changes (r : Role) (s : State) : Changes [.role, .history] s (setRole r s) := .ite (.refl _ s) .of

theorem setRole_role (r : Role) (s : State) : (setRole r s).power.role = r := by
  unfold setRole
  split
  · assumption
  · rfl

theorem stopValues_getLsbD (s : State) (k : Fin 16) : (stopValues s).getLsbD k = (doMap s k).stop :=
  getLsbD_ofNat_maskOf _ k.isLt k.isLt

/-! ### The two entries -/

theorem freezeMeter_frozen (cause : Nat) {s : State} (h : s.mtr.running = true) : (freezeMeter cause s).mtr.frozen = true := by
  unfold freezeMeter
  split_ifs with hfree
  · exact congrArg Mtr.frozen (sj_changes ..).mtr
  · simpa [h] using hfree

theorem closeSvc_closed (cause : Nat) (s : State) : (closeSvc cause s).mgt.svcOpen = false := by
  unfold closeSvc
  split_ifs with hopen
  · exact congrArg Marshal.svcOpen (sj_changes ..).mgt
  · simpa using hopen

theorem commitOver_iff {s : State} : commitOver s = true ↔ s.lap.running = .idle ∧ s.ctx.wtEndUs ≤ s.clk.opUs := by
  simp [commitOver]

theorem not_commitOver {s : State} (h : s.lap.running ≠ .idle ∨ s.clk.opUs < s.ctx.wtEndUs) : commitOver s = false := by
  simpa [commitOver] using imp_iff_not_or.2 h

/-- The outputs, metering and SVC as HIBERNATE closes them, before its records and the ends of requests. -/
def hibernateClosed (s : State) : State :=
  closeSvc 2 (freezeMeter 2 (refreshOutputs { s with
    power := { s.power with driversOn := false }, rfx := { s.rfx with active := false, hold := false } }))

theorem hibernateClosed_changes (s : State) :
    Changes (.drivers :: .outputs :: .rfx :: .frozen :: .mram :: .svc :: bookParts) s (hibernateClosed s) :=
  ((((Changes.refl _ s).also [.drivers, .rfx]).trans (refreshOutputs_changes ..)).trans (freezeMeter_changes ..)).trans
    (closeSvc_changes ..)

theorem hibernateClosed_off (s : State) : (hibernateClosed s).power.driversOn = false ∧ (hibernateClosed s).dio.on = 0 := by
  have hfreeze (u : State) : Changes (.frozen :: .mram :: .svc :: bookParts) u (closeSvc 2 (freezeMeter 2 u)) :=
    (freezeMeter_changes ..).mono.trans (closeSvc_changes ..)
  refine ⟨(hfreeze _).get .drivers, ?_⟩
  rw [hibernateClosed, (hfreeze _).dio]
  exact refreshOutputs_off rfl

theorem hibernateClosed_closed (s : State) : (hibernateClosed s).mgt.svcOpen = false := by rw [hibernateClosed, closeSvc_closed]

theorem hibernateClosed_frozen {s : State} (h : s.mtr.running = true) : (hibernateClosed s).mtr.frozen = true := by
  rw [hibernateClosed, (closeSvc_changes ..).mtr]
  exact freezeMeter_frozen 2 (by rwa [(refreshOutputs_changes _).mtr])

/-- What the records of HIBERNATE and the ends of requests change besides. -/
theorem hibernateNotes_changes (s : State) : Changes cutParts (hibernateClosed s) (hibernateNotes s) :=
  ((((Changes.refl _ _).trans (sjStateChange_changes ..)).trans (sj_changes ..)).trans (asyncDone_changes ..)).trans
    (requestsCut_changes ..)

/-- Domains off, and the parts that go with them. -/
def hibernateStopped (s : State) : State := domainsOff [11, 8, 7, 3, 2, 4, 6, 5] (stopLap s)

theorem hibernateStopped_changes (s : State) :
    Changes (.running :: .bu :: .bx :: .ctxRest :: offParts) s (hibernateStopped s) :=
  ((Changes.refl _ s).trans (stopLap_changes ..)).trans (domainsOff_changes ..)

theorem hibernateStopped_off {s : State} (h : s.power.driversOn = false) (hon : s.dio.on = 0) : (hibernateStopped s).dio.on = 0 :=
  domainsOff_off _ (((stopLap_changes s).get .drivers).trans h) (by rw [(stopLap_changes s).dio, hon])

theorem hibernateState_eq (s : State) : hibernateState s = { hibernateStopped s with
    power := { (hibernateStopped s).power with
      state := .hibernate, role := .none, transit := .none, pdOn := 0x003
      roleHistory := if s.power.role = .none then (hibernateStopped s).power.roleHistory else .none :: (hibernateStopped s).power.roleHistory }
    mgt := { (hibernateStopped s).mgt with wdA := {}, wdB := {} }
    mld := { (hibernateStopped s).mld with repress := none }
    rtc := { (hibernateStopped s).rtc with armed := true, pwrOn := false, active := 0 } } := rfl

/-- Settles O21: HALT is a change of the outputs, of the role and of requests alone; in HIBERNATE the outputs go off with the drivers, and
nothing that follows switches them on, opens SVC or lets metering run. -/
theorem haltAndHibernateWaitForTheCommit : Obligations.HaltAndHibernateWaitForTheCommit := by
  intro s
  refine ⟨fun hbusy => ?waits, fun hrun htransit hidle hwt => ?halt, fun htransit hidle hwt halarm => ?hibernate⟩
  case waits =>
    have hover := not_commitOver hbusy
    refine ⟨congrArg Host.Outcome.next ?_, congrArg Host.Outcome.next ?_⟩
    · rw [haltEntered, if_neg (by simp [hover])]
    · rw [hibernateEntered, if_neg (by simp [hover])]
  case halt =>
    have hover : commitOver s = true := commitOver_iff.2 ⟨hidle, hwt⟩
    let v := applyOutputs (stopValues s) { s with power := { s.power with state := .halt, transit := .none } }
    have hnotes : Changes (.async :: bookParts) (setRole .none v) (haltEntered s) := by
      rw [haltEntered, if_pos ⟨hrun, htransit, hover⟩]
      exact (sjStateChange_changes ..).mono.trans (asyncDone_changes ..)
    have hrole : Changes [.role, .history] v (setRole .none v) := setRole_changes ..
    have hfrom : Changes [.role, .history, .opState, .transit, .outputs, .cmd, .dioRest] s (setRole .none v) :=
      (((Changes.refl _ s).also [.opState, .transit]).trans (applyOutputs_changes ..)).trans (setRole_changes ..)
    have hdio : (haltEntered s).dio = v.dio := hnotes.dio.trans hrole.dio
    refine ⟨haltEntered s, rfl, ?inHalt, ?noRole, ?done, fun k => ?command, ?awaited, ?images, ?program, ?lapStands, ?domains⟩
    case inHalt => exact (hnotes.get .opState).trans (hrole.get .opState)
    case noRole => exact (hnotes.get .role).trans (setRole_role ..)
    case done => exact (hnotes.get .transit).trans (hrole.get .transit)
    case command => rw [hdio]; exact stopValues_getLsbD s k
    case awaited => rw [hdio]; rfl
    case images => exact (hnotes.get .img).trans (hfrom.get .img)
    case program => exact (hnotes.get .prog).trans (hfrom.get .prog)
    case lapStands => exact hnotes.lap.trans hfrom.lap
    case domains => exact (hnotes.get .pdOn).trans (hfrom.get .pdOn)
  case hibernate =>
    have hover : commitOver s = true := commitOver_iff.2 ⟨hidle, hwt⟩
    have hclosed := hibernateClosed_changes s
    have hnotes := hibernateNotes_changes s
    have hstop := hibernateStopped_changes (hibernateNotes s)
    have hrtc : (hibernateStopped (hibernateNotes s)).rtc = s.rtc := hstop.rtc.trans (hnotes.rtc.trans hclosed.rtc)
    have hentered : hibernateEntered s = hibernateState (hibernateNotes s) := by
      have hquiet : ¬ ((hibernateState (hibernateNotes s)).rtc.alarmEn = true ∧ (hibernateState (hibernateNotes s)).rtc.alarmHit = true) := by
        rw [hibernateState_eq]
        simpa [hrtc] using halarm
      rw [hibernateEntered, if_pos ⟨htransit, hover⟩]
      simp only [hquiet, if_false]
    refine ⟨hibernateEntered s, rfl, ?_⟩
    rw [hentered, hibernateState_eq]
    obtain ⟨hdrivers, hon⟩ := hibernateClosed_off s
    have hoff := hibernateStopped_off ((hnotes.get .drivers).trans hdrivers) (by rw [hnotes.dio, hon])
    obtain ⟨hopen, -⟩ := hstop.get .svc
    obtain ⟨hnotesOpen, -⟩ := hnotes.get .svc
    obtain ⟨hfrozen, -⟩ := hstop.get .frozen
    obtain ⟨hnotesFrozen, -⟩ := hnotes.get .frozen
    have hflash := (hstop.get .flash).trans ((hnotes.get .flash).trans (hclosed.get .flash))
    have hshut := hopen.trans (hnotesOpen.trans (hibernateClosed_closed s))
    generalize hibernateStopped (hibernateNotes s) = w at *
    refine ⟨rfl, rfl, rfl, rfl, hoff, ?clock, hshut, fun hrun => ?meterFrozen, hflash⟩
    case clock => rw [hrtc]
    case meterFrozen => exact hfrozen.trans (hnotesFrozen.trans (hibernateClosed_frozen hrun))

end
end Sys2Proof.Machine
end

section
/-! PROOF. A shutdown and the trace record that it makes itself (R29, R65, R390). -/

namespace Sys2Proof.Machine

section
set_option Elab.async false

/-! ### The records written before the power goes (R385) -/

/-- What writing journal records changes; the records of the trace that wait stand. -/
def flushParts : List Part := .sjGrows :: .logRest :: .mram :: bookParts

theorem sjPut_changes (bs : Bytes) (anchor : Bool) (s : State) : Changes flushParts s (sjPut bs anchor s) := by
  have hslot : Changes flushParts s (if anchor then
      { mramWrite (sjSlot s.log.sjHead.toNat) bs s with
        log := { (mramWrite (sjSlot s.log.sjHead.toNat) bs s).log with anchor := s.log.sjHead, anchorValid := true } }
      else mramWrite (sjSlot s.log.sjHead.toNat) bs s) :=
    have hwrite := mramWrite_changes (sjSlot s.log.sjHead.toNat) bs s
    .ite (hwrite.mono.also [.logRest]) hwrite.mono
  have hadvance (u : State) : Changes flushParts u (sjAdvance u) := ((Changes.refl _ u).also [.logRest]).trans (headSave_changes _)
  exact hslot.join (hadvance _)

theorem sjDirect_changes (r : Record) (code sev : Nat) (items : Bytes) (s : State) :
    Changes flushParts s (sjDirect r code sev items s) := by
  unfold sjDirect
  exact (Changes.refl _ s).also [.logRest]

theorem sjWrapNote_changes (r : Record) (wrapped : Bool) (s : State) : Changes flushParts s (sjWrapNote r wrapped s) :=
  .ite (sjDirect_changes ..) (.refl _ s)

theorem sjStore_changes (r : Record) (s : State) : Changes flushParts s (sjStore r s) :=
  (sjPut_changes ..).join (sjWrapNote_changes ..)

theorem sjTake_changes {s t : State} {r : Record} (h : sjTake s = some (r, t)) : Changes flushParts s t := by
  unfold sjTake at h
  split at h
  · obtain ⟨-, rfl⟩ := Prod.mk.inj (Option.some.inj h)
    exact (Changes.refl _ s).also [.logRest]
  · obtain ⟨-, rfl⟩ := Prod.mk.inj (Option.some.inj h)
    exact ((Changes.refl _ s).also [.sjGrows, .records]).trans (drop1_changes ..)
  · cases h

theorem sjRecordWrite_changes (s : State) : Changes flushParts s (sjRecordWrite true true s) := by
  unfold sjRecordWrite
  split
  · exact .refl _ s
  · next htake => exact (sjTake_changes htake).join (sjStore_changes ..)

theorem sjFlush_changes (limit n : Nat) (s : State) : Changes flushParts s (sjFlush limit n s) := by
  induction n generalizing s with
  | zero => exact .refl _ s
  | succ n ih =>
    rw [sjFlush]
    split
    · exact .refl _ s
    · exact .ite ((sjRecordWrite_changes s).join (ih _)) (.refl _ s)

theorem tearRecord_changes (s : State) : Changes (.mram :: bookParts) s (tearRecord s) := by
  unfold tearRecord
  split
  · exact .refl _ s
  · exact ((drawn_changes s).mono.trans (drawn_changes _)).trans (mramWrite_changes ..)

theorem tearTrace_flash {r : Record} {rs : List Record} {s : State} (h : s.log.trQueue = r :: rs) :
    ∃ b bs, (tearTrace s).flash = memWrite 0xFF flashSize s.flash (trSlot (s.log.trSeq.toNat % 262144)) (b :: bs) := by
  obtain ⟨b, bs, hbytes⟩ : ∃ b bs, tornBytes (freeWord s ++ freeWord (drawn s))
      (flashRead (trSlot (s.log.trSeq.toNat % 262144)) 64 s) (trBytes s.log.trSeq r) = b :: bs :=
    List.exists_cons_of_length_pos (by simp [tornBytes, trBytes_length])
  refine ⟨b, bs, ?_⟩
  rw [tearTrace, h, ← hbytes]
  rfl

/-- A unit in RUN whose journal queue Q0002 is full under policy 0, with room in the trace queue Q0003 and no trace record waiting; an
erased byte of the first trace slot is listed. -/
def journalFull : State :=
  { State.reset with
    power := { State.reset.power with state := .run, role := .solo, pdOn := 0xFFF }
    queues := { rings := [(2, { log2 := 1, pi := 2 }), (3, { base := 2, log2 := 1 })] }
    flash := [(0x5000000, 0xFF)] }

/-- Its change to OFF (R29). -/
def journalFullOff : State := sjStateChange .run .off { journalFull with power := { journalFull.power with driversOn := false } }

/-- SJ 0x0102 of the change overflows Q0002, and TR 0x0124 of that overflow waits (R116). -/
theorem journalFullOff_trQueue : journalFullOff.log.trQueue.length = 1 := by decide

/-- A shutdown that closes no SVC and cuts no write-through. -/
theorem shutdown_of_awake {s : State} (hawake : awake s = true) (hsvc : s.mgt.svcOpen = false) (hpfw : s.power.pfw = false)
    (hwt : ¬ s.clk.opUs < s.ctx.wtEndUs) :
    let u := sjStateChange s.power.state .off { s with power := { s.power with driversOn := false } }
    shutdown s = volatileReset (domainsOff [11, 8, 7, 3, 2, 4, 6, 5] (refreshOutputs
      (tearTrace (tearRecord (sjFlush (opMs s) (sjWaiting u) u))))) := by
  simp only [shutdown, closeSvc, tearRetained, whenever, hawake, hsvc, hpfw, hwt, if_true, if_false, Bool.false_eq_true]

/-- An erased byte that is listed is not in canonical form, and a write at its place is. -/
theorem memWrite_listed_ne (a : Nat) (b : Byte) (bs : Bytes) (ha : a < flashSize) :
    memWrite 0xFF flashSize [(a, 0xFF)] a (b :: bs) ≠ [(a, 0xFF)] := by
  have hput : swf (0xFF : Byte) flashSize (memPut 0xFF flashSize [(a, 0xFF)] a b) = true := by
    by_cases hb : b = 255#8 <;> simp [memPut, sput, swf, swfFrom, ha, hb]
  have hwf : swf (0xFF : Byte) flashSize (memWrite 0xFF flashSize [(a, 0xFF)] a (b :: bs)) = true :=
    memWrite_wf _ _ _ (a + 1) bs hput
  intro heq
  rw [heq] at hwf
  simp [swf, swfFrom] at hwf

/-- In `journalFull` no trace record waits, and the shutdown writes in flash. -/
theorem shutdown_journalFull_flash : (shutdown journalFull).flash ≠ journalFull.flash := by
  let u := tearRecord (sjFlush 0 (sjWaiting journalFullOff) journalFullOff)
  have hu : Changes flushParts journalFullOff u := (sjFlush_changes ..).trans (tearRecord_changes _)
  have hoff : Changes bookParts { journalFull with power := { journalFull.power with driversOn := false } } journalFullOff :=
    sjStateChange_changes ..
  have hgrows : journalFullOff.log.trQueue <+: u.log.trQueue := hu.get .trGrows
  obtain ⟨r, rs, hqueue⟩ : ∃ r rs, u.log.trQueue = r :: rs :=
    List.exists_cons_of_length_pos (by have := hgrows.length_le; rw [journalFullOff_trQueue] at this; omega)
  obtain ⟨b, bs, hwritten⟩ := tearTrace_flash hqueue
  have hflash : u.flash = [(0x5000000, 0xFF)] := (hu.get .flash).trans (hoff.get .flash)
  have hseq : u.log.trSeq = 0 := (hu.get .trSeq).trans (hoff.get .trSeq)
  have hshut : (shutdown journalFull).flash = (tearTrace u).flash := by
    rw [shutdown_of_awake rfl rfl rfl (by decide)]
    exact ((domainsOff_changes ..).get .flash).trans ((refreshOutputs_changes _).get .flash)
  rw [hshut, hwritten, hflash, hseq]
  exact memWrite_listed_ne _ _ _ (by decide)

/-- Refutes O20: no trace record waits, but the shutdown's own SJ 0x0102 overflows a full Q0002, and the TR 0x0124 of that overflow is then
the trace record that is being written as the power goes (R116, R390). -/
theorem not_supplyFailureKeepsWhatMustStand : ¬ Obligations.SupplyFailureKeepsWhatMustStand := by
  intro h
  obtain ⟨-, -, -, -, hshutdown, -⟩ := h 0 {} journalFull
  obtain ⟨t, ht, -, -, -, -, -, -, hflash, -⟩ := hshutdown (by decide)
  obtain rfl : shutdown journalFull = t := by
    change Host.Outcome.next (whenever (powered journalFull) shutdown journalFull) = _ at ht
    exact Host.Outcome.next.inj ht
  exact shutdown_journalFull_flash (hflash (Or.inr rfl))

end
end Sys2Proof.Machine
end

section
/-! PROOF. The start from OFF and the wake from HIBERNATE (R67 to R69, R88, R413, R414, R426). -/

namespace Sys2Proof.Machine

section
set_option Elab.async false

/-! ### A domain's bit in MGT.PD -/

theorem domainOff_pdOn (d : Nat) (s : State) : (domainOff d s).power.pdOn = setBit s.power.pdOn d false :=
  (domainStops_changes d _).get .pdOn

theorem domainsOff_pdOn (ds : List Nat) (s : State) :
    (domainsOff ds s).power.pdOn = ds.foldl (fun v d => setBit v d false) s.power.pdOn := by
  induction ds generalizing s with
  | nil => rfl
  | cons d ds ih => exact (ih (domainOff d s)).trans (by rw [domainOff_pdOn]; rfl)

theorem resetDomain_changes_power (d : Nat) (s : State) : (resetDomain d s).power = s.power := (resetDomain_changes d s).power

theorem domainOn_pdOn {d : Nat} {s : State} (hoff : pdIs s d = false) (hen : domainEnabled s d = true)
    (hlocked : s.power.pdLocked.getLsbD d = false) : (domainOn d s).power.pdOn = setBit s.power.pdOn d true := by
  rw [domainOn, if_neg (by simp [hoff, hen, hlocked])]
  simp only [resetDomain_changes_power]

/-! ### The blocks at the beginning of a bring-up -/

/-- Requests ended, metering frozen, the lap stopped and the domains off. -/
def blocksStopped (s : State) : State := domainsOff [11, 8, 7, 3, 2, 4, 5] (stopLap (freezeMeter 1 (requestsCut s)))

/-- What the stop of the blocks changes. -/
def stopParts : List Part := .running :: .bu :: .bx :: .ctxRest :: .frozen :: .mram :: .pdOn :: .sens :: .outputs :: .acq :: .sw :: cutParts

theorem blocksStopped_changes (s : State) : Changes stopParts s (blocksStopped s) :=
  (((requestsCut_changes s).mono.trans (freezeMeter_changes ..)).trans (stopLap_changes ..)).trans (domainsOff_changes ..)

/-- What the fresh blocks of a bring-up change. -/
def freshParts : List Part := .drivers :: .pdTripped :: .watchdogs :: .onP0 :: .mld :: .prog :: .sby :: .sbx :: .updRest :: .pxRest ::
  .panRest :: .metering :: .mtrRest :: .saf :: stopParts

/-- The blocks stopped, with PD6 off unless it is kept on (R340). -/
def blocksKept (keepPd6 : Bool) (s : State) : State :=
  if keepPd6 then { blocksStopped s with sw := { (blocksStopped s).sw with flood := false } } else domainOff 6 (blocksStopped s)

theorem blocksKept_changes (keepPd6 : Bool) (s : State) : Changes stopParts s (blocksKept keepPd6 s) :=
  have hstop := blocksStopped_changes s
  .ite (hstop.also [.sw]) (hstop.trans (domainOff_changes ..))

/-- The blocks as a bring-up begins with them. -/
def blocksFresh (session preId : Word) (s : State) : State := { s with
  power := { s.power with driversOn := false, pdOn := 0x003 ||| (s.power.pdOn &&& 0x040), pdLocked := 0 }
  mgt := { s.mgt with wdA := {}, wdB := {}, onP0 := false }
  mld := {}, prog := {}, sby := {}, sbx := {}
  upd := { s.upd with running := if s.upd.journal = .patching then 0x0A else 0 }
  px := { ({} : Px) with nextConn := s.px.nextConn, session := session, preId := preId }
  pan := { s.pan with enc := 0, delivered := 0 }
  mtr := { s.mtr with running := false, frozen := false, frozenPfw := false, restored := none, pendingSet := false }
  saf := { s.saf with btpFirst := true, btpOn := false } }

theorem freshBlocks_eq (keepPd6 : Bool) (s : State) :
    freshBlocks keepPd6 s = blocksFresh (newSession s) (freeWord (drawn s)) (blocksKept keepPd6 s) := rfl

theorem blocksFresh_changes (session preId : Word) (s : State) : Changes freshParts s (blocksFresh session preId s) := by
  unfold blocksFresh
  exact .of

theorem freshBlocks_changes (keepPd6 : Bool) (s : State) : Changes freshParts s (freshBlocks keepPd6 s) := by
  rw [freshBlocks_eq]
  exact (blocksKept_changes keepPd6 s).mono.join (blocksFresh_changes ..)

/-- PD0 and PD1 alone are on, unless the start keeps PD6. -/
theorem freshBlocks_pdOn (s : State) : (freshBlocks false s).power.pdOn = 0x003 := by
  rw [freshBlocks_eq]
  change 0x003#12 ||| ((domainOff 6 (blocksStopped s)).power.pdOn &&& 0x040) = 0x003
  rw [domainOff_pdOn, setBit, if_neg (by decide), BitVec.and_assoc]
  simp

/-! ### The start of a bring-up -/

theorem bringUpState_changes (kind : StartKind) (src : BitVec 4) (resume : Bool) (s : State) :
    Changes [.opState, .role, .transit, .start, .history, .updRest, .rtcRest] s (bringUpState kind src resume s) := by
  unfold bringUpState
  exact .of

/-- The blocks fresh, in BRING-UP. -/
def bringUpBegun (kind : StartKind) (src : BitVec 4) (s : State) : State :=
  bringUpState kind src (resumes s) (drawn (drawn (freshBlocks (decide (kind = .restart)) s)))

def begunParts : List Part := .opState :: .role :: .transit :: .start :: .history :: .rtcRest :: freshParts

theorem bringUpBegun_changes (kind : StartKind) (src : BitVec 4) (s : State) : Changes begunParts s (bringUpBegun kind src s) :=
  (((freshBlocks_changes _ s).mono.trans (drawn_changes _)).trans (drawn_changes _)).trans (bringUpState_changes ..)

/-- The records of the start: the journal's HEAD, the trace's slot, SJ 0x0102 and 0x0103, the TIME_ANCHOR (R386, R390, R392). -/
def startRecorded (kind : StartKind) (src : BitVec 4) (old : OpState) (s : State) : State :=
  let s2 := trSkip (sjAtStart s)
  let s3 := sj 0x103 0 (item (startCode kind) ++ item src.toNat ++ item s2.power.pwrCycles.toNat) (sjStateChange old .bringUp s2)
  if rtcTrusted s3 then timeAnchor 0 s3 else s3

/-- What the records of a start change. -/
def startParts : List Part := .trSeq :: .logRest :: .mram :: .anchorMs :: bookParts

theorem startRecorded_changes (kind : StartKind) (src : BitVec 4) (old : OpState) (s : State) :
    Changes startParts s (startRecorded kind src old s) := by
  have hskip : Changes startParts s (trSkip (sjAtStart s)) := (sjAtStart_changes s).mono.trans (trSkip_changes _)
  have hsaid (items : Bytes) : Changes startParts s (sj 0x103 0 items (sjStateChange old .bringUp (trSkip (sjAtStart s)))) :=
    (hskip.trans (sjStateChange_changes ..)).trans (sj_changes ..)
  unfold startRecorded
  exact .ite ((hsaid _).trans (timeAnchor_changes ..)) (hsaid _)

/-- What waited for a start is recorded, an edit held is discarded, and the panel is locked (R204, R420, R426). -/
def startClosed (s : State) : State :=
  let s4 := notesAtStart s
  lockPanel 0 (if editHeld s4 then emptyInactive (discardAtRestart s4) else discardAtRestart s4)

theorem startClosed_changes (s : State) :
    Changes (.edit :: .updRest :: .locked :: .panRest :: bookParts) (notesAtStart s) (startClosed s) :=
  (Changes.ite ((discardAtRestart_changes _).mono.trans (emptyInactive_changes _)) (discardAtRestart_changes _).mono).trans
    (lockPanel_changes ..)

/-- The start of a bring-up, before a resume. -/
def started (kind : StartKind) (src : BitVec 4) (s : State) : State :=
  startClosed (startRecorded kind src s.power.state (bringUpBegun kind src s))

/-- A resumed start: SJ 0x0A04 and the check of the staged package (R436). -/
def resumeSaid (kind : StartKind) (src : BitVec 4) (s : State) : State :=
  readJournal (sj 0xA04 1 (item s.upd.opsDone ++ item (b2n s.upd.prepared.isNone)) (started kind src s))

theorem beginBringUp_eq (kind : StartKind) (src : BitVec 4) (s : State) :
    beginBringUp kind src s = if resumes s then
        (resumeFailure (resumeSaid kind src s)).elim (resumeSaid kind src s) fun c => goDead c none (resumeSaid kind src s)
      else started kind src s := by
  unfold beginBringUp
  lift_lets
  intro old s1 s2 s3 s4 held s5 s6 s7
  have h4 : s4 = notesAtStart (startRecorded kind src s.power.state (bringUpBegun kind src s)) := rfl
  have h6 : s6 = started kind src s := by rw [started, startClosed, ← h4]
  have h7 : s7 = resumeSaid kind src s := by rw [resumeSaid, ← h6]
  rw [← h6, ← h7]
  clear_value s6 s7
  cases resumeFailure s7 <;> rfl
/-! ### DEAD -/

/-- Requests ended, the lap stopped and the domains off, as DEAD is entered. -/
def deadStopped (s : State) : State :=
  let s0 := asyncDoneFree 0x0A (requestsCut s)
  domainsOff [8, 7, 3, 2, 4, 6, 5] (stopLap (freezeMeter 1 { s0 with power := { s0.power with driversOn := false } }))

theorem deadStopped_changes (s : State) : Changes (.drivers :: stopParts) s (deadStopped s) :=
  ((((requestsCut_changes s).mono.trans (asyncDoneFree_changes 0x0A _)).also [.drivers]).trans (freezeMeter_changes ..)).trans
    (stopLap_changes ..) |>.trans (domainsOff_changes ..)

/-- The unit in DEAD with nothing pressed. -/
def deadState (s : State) : State := { s with
  power := { s.power with
    state := .dead, role := .none, transit := .none
    roleHistory := if s.power.role = .none then s.power.roleHistory else .none :: s.power.roleHistory }
  mgt := { s.mgt with wdA := {}, wdB := {}, onP0 := false }
  mld := {}, sby := {}, sbx := {} }

theorem deadState_changes (s : State) :
    Changes [.opState, .role, .transit, .history, .watchdogs, .onP0, .mld, .sby, .sbx] s (deadState s) := by
  unfold deadState
  exact .of

theorem enterDead_eq (s : State) :
    enterDead s = panelBare (sjStateChange s.power.state .dead (domainOn 11 (deadState (deadStopped s)))) := by
  unfold enterDead
  lift_lets
  intro old s0 power0 s1 hist power1 s2 mgt2 s3
  have h1 : s1 = deadStopped s := rfl
  have h3 : s3 = deadState (deadStopped s) := by rw [← h1]; rfl
  rw [← h3]

/-- What follows the state itself: PD11 on, the record and the panel's lock. -/
theorem enterDead_tail (s : State) :
    Changes (.pdOn :: .pdUs :: .sby :: .locked :: .panRest :: bookParts) (deadState (deadStopped s)) (enterDead s) := by
  rw [enterDead_eq]
  exact ((domainOn11_changes _).mono.trans (sjStateChange_changes ..)).trans (panelBare_changes _)

def deadParts : List Part := .opState :: .role :: .transit :: .history :: .watchdogs :: .onP0 :: .mld :: .sby :: .sbx :: .pdUs :: .locked ::
  .panRest :: .drivers :: stopParts

theorem enterDead_changes (s : State) : Changes deadParts s (enterDead s) :=
  ((deadStopped_changes s).mono.trans (deadState_changes _)).trans (enterDead_tail s)

theorem enterDead_state (s : State) : (enterDead s).power.state = .dead := (enterDead_tail s).get .opState

theorem enterDead_role (s : State) : (enterDead s).power.role = .none := (enterDead_tail s).get .role

theorem enterDead_mld (s : State) : (enterDead s).mld = {} := (enterDead_tail s).get .mld

theorem panelBare_locked {s : State} (h : s.pan.locked = true) : panelBare s = s := by
  rw [panelBare, if_neg (by simp [h])]

theorem enterDead_locked {s : State} (h : s.pan.locked = true) : (enterDead s).pan.locked = true := by
  have hbefore : Changes (.pdOn :: .pdUs :: .sby :: bookParts) (deadState (deadStopped s))
      (sjStateChange s.power.state .dead (domainOn 11 (deadState (deadStopped s)))) :=
    (domainOn11_changes _).mono.trans (sjStateChange_changes ..)
  have hlocked := (hbefore.get .locked).trans (((deadState_changes _).get .locked).trans (((deadStopped_changes s).get .locked).trans h))
  rw [enterDead_eq, panelBare_locked hlocked]
  exact hlocked

/-- In DEAD PD11 is on, unless it tripped, and with it the domains that were on and are not switched. -/
theorem enterDead_pdOn {s : State} (hon : s.power.pdOn = 0x003) (hlocked : s.power.pdLocked.getLsbD 11 = false) :
    (enterDead s).power.pdOn = 0x803 := by
  have htail : Changes (.locked :: .panRest :: bookParts) (domainOn 11 (deadState (deadStopped s))) (enterDead s) := by
    rw [enterDead_eq]
    exact (sjStateChange_changes ..).mono.trans (panelBare_changes _)
  have hpd : (deadState (deadStopped s)).power.pdOn = 0x003 := by
    have hbefore : Changes (.drivers :: .running :: .bu :: .bx :: .ctxRest :: .frozen :: .mram :: cutParts) s
        (stopLap (freezeMeter 1 { asyncDoneFree 0x0A (requestsCut s) with
          power := { (asyncDoneFree 0x0A (requestsCut s)).power with driversOn := false } })) :=
      ((((requestsCut_changes s).mono.trans (asyncDoneFree_changes 0x0A _)).also [.drivers]).trans (freezeMeter_changes ..)).trans
        (stopLap_changes ..)
    refine ((deadState_changes _).get .pdOn).trans ?_
    rw [deadStopped, domainsOff_pdOn, hbefore.get .pdOn, hon]
    decide
  obtain ⟨-, htrip⟩ := (deadState_changes (deadStopped s)).get .pdTripped
  obtain ⟨-, hstop⟩ := (deadStopped_changes s).get .pdTripped
  rw [htail.get .pdOn, domainOn_pdOn]
  · rw [hpd]; rfl
  · rw [pdIs, hpd]; rfl
  · rfl
  · rw [htrip, hstop, hlocked]

theorem goDead_tail (cause : Nat) (part : Option Nat) (s : State) :
    Changes bookParts (enterDead (journalWrite { s with upd := { s.upd with
      journal := .dead, deadCause := BitVec.ofNat 8 cause, accepting := false } })) (goDead cause part s) := by
  unfold goDead
  dsimp only
  split
  · exact sj_changes ..
  · exact (drawn_changes _).join (sj_changes ..)

theorem goDead_changes (cause : Nat) (part : Option Nat) (s : State) :
    Changes (.journal :: .updHead :: .updRest :: deadParts) s (goDead cause part s) :=
  ((((Changes.refl _ s).also [.journal, .updRest]).trans (journalWrite_changes _)).trans (enterDead_changes _)).trans
    (goDead_tail cause part s)

theorem goDead_state (cause : Nat) (part : Option Nat) (s : State) : (goDead cause part s).power.state = .dead :=
  ((goDead_tail cause part s).get .opState).trans (enterDead_state _)

theorem goDead_role (cause : Nat) (part : Option Nat) (s : State) : (goDead cause part s).power.role = .none :=
  ((goDead_tail cause part s).get .role).trans (enterDead_role _)

theorem goDead_mould (cause : Nat) (part : Option Nat) (s : State) : (goDead cause part s).mld.mould = none :=
  congrArg Mld.mould (((goDead_tail cause part s).get .mld).trans (enterDead_mld _))

theorem goDead_locked (cause : Nat) (part : Option Nat) {s : State} (h : s.pan.locked = true) : (goDead cause part s).pan.locked = true := by
  have hwrite : Changes [.journal, .updRest, .updHead, .mram] s
      (journalWrite { s with upd := { s.upd with journal := .dead, deadCause := BitVec.ofNat 8 cause, accepting := false } }) :=
    ((Changes.refl _ s).also [.journal, .updRest]).trans (journalWrite_changes _)
  exact ((goDead_tail cause part s).get .locked).trans (enterDead_locked ((hwrite.get .locked).trans h))

/-! ### The records of the start (R426) -/

theorem rtcRecord_osf (c : Nat) (s : State) : ∃ r ∈ (rtcRecord (.osf c) s).log.sjQueue, r.code = 0xB02 ∧ r.items = item c :=
  ⟨recordOf 0xB02 2 (item c) 0 s, (Safety.sj_queue 0xB02 2 (item c) s).subset (by simp), rfl, rfl⟩

/-- Every loss of the oscillator that waited is recorded. -/
theorem notesAtStart_records {c : Nat} {s : State} (h : RtcNote.osf c ∈ s.rtc.notes) :
    ∃ r ∈ (notesAtStart s).log.sjQueue, r.code = 0xB02 ∧ r.items = item c := by
  obtain ⟨before, after, hnotes⟩ := List.append_of_mem h
  have hgrows (l : List RtcNote) (u : State) : Changes bookParts u (l.foldl (fun t n => rtcRecord n t) u) :=
    .foldl (fun u n => rtcRecord_changes n u) l u
  rw [notesAtStart, hnotes, List.foldl_append, List.foldl_cons]
  obtain ⟨r, hin, hr⟩ := rtcRecord_osf c (before.foldl (fun t n => rtcRecord n t) { s with rtc := { s.rtc with notes := [] } })
  exact ⟨r, ((hgrows after _).get .sjGrows).subset hin, hr⟩

/-! ### What a start shows -/

/-- A unit that has begun to start: the cycle count, the times, the source and the locked panel, nothing pressed, flash as it stood, and every
oscillator stop that waited recorded. -/
structure Started (kind : StartKind) (src : BitVec 4) (s t : State) : Prop where
  cycles : t.power.pwrCycles = s.power.pwrCycles
  opUs : t.clk.opUs = s.clk.opUs
  startKind : t.power.startKind = kind
  wakeSrc : t.power.wakeSrc = src
  role : t.power.role = .none
  locked : t.pan.locked = true
  bare : t.mld.mould = none
  flash : t.flash = s.flash
  notes : ∀ c, RtcNote.osf c ∈ s.rtc.notes → ∃ r ∈ t.log.sjQueue, r.code = 0xB02 ∧ r.items = item c

theorem bringUpState_shows (kind : StartKind) (src : BitVec 4) (resume : Bool) (s : State) :
    let t := bringUpState kind src resume s
    t.power.state = .bringUp ∧ t.power.role = .none ∧ t.power.startKind = kind ∧ t.power.wakeSrc = src ∧
      t.power.loadStep = .manifests := ⟨rfl, rfl, rfl, rfl, rfl⟩

theorem bringUpBegun_shows (kind : StartKind) (src : BitVec 4) (s : State) :
    let t := bringUpBegun kind src s
    t.power.state = .bringUp ∧ t.power.role = .none ∧ t.power.startKind = kind ∧ t.power.wakeSrc = src ∧
      t.power.loadStep = .manifests := by
  unfold bringUpBegun
  exact bringUpState_shows ..

theorem blocksFresh_shows (session preId : Word) (s : State) :
    (blocksFresh session preId s).mld = {} ∧ (blocksFresh session preId s).power.driversOn = false := ⟨rfl, rfl⟩

/-- What the bring-up's beginning changes after its fresh blocks. -/
theorem bringUpBegun_tail (kind : StartKind) (src : BitVec 4) (s : State) :
    Changes (.opState :: .role :: .transit :: .start :: .history :: .updRest :: .rtcRest :: bookParts)
      (freshBlocks (decide (kind = .restart)) s) (bringUpBegun kind src s) :=
  ((drawn_changes _).mono.trans (drawn_changes _)).trans (bringUpState_changes ..)

/-- What follows a bring-up's beginning in a start. -/
theorem started_tail (kind : StartKind) (src : BitVec 4) (s : State) :
    Changes (.notes :: .edit :: .updRest :: .locked :: .panRest :: startParts) (bringUpBegun kind src s) (started kind src s) :=
  ((startRecorded_changes kind src s.power.state _).mono.trans (notesAtStart_changes _)).trans (startClosed_changes _)

theorem lockPanel_locked (cause : Nat) (s : State) : (lockPanel cause s).pan.locked = true := (tr_changes ..).get .locked

theorem started_started (kind : StartKind) (src : BitVec 4) (s : State) : Started kind src s (started kind src s) := by
  have htail := started_tail kind src s
  have hbegun := bringUpBegun_changes kind src s
  obtain ⟨-, hrole, hkind, hsrc, -⟩ := bringUpBegun_shows kind src s
  obtain ⟨htailKind, htailSrc, -⟩ := htail.get .start
  constructor
  case cycles => exact (htail.get .pwrCycles).trans (hbegun.get .pwrCycles)
  case opUs => exact (htail.get .opUs).trans (hbegun.get .opUs)
  case startKind => exact htailKind.trans hkind
  case wakeSrc => exact htailSrc.trans hsrc
  case role => exact (htail.get .role).trans hrole
  case locked => rw [started, startClosed, lockPanel_locked]
  case bare =>
    have hmld : (freshBlocks (decide (kind = .restart)) s).mld = {} := by rw [freshBlocks_eq]; rfl
    have hstarted : (started kind src s).mld = {} := (htail.get .mld).trans (((bringUpBegun_tail kind src s).get .mld).trans hmld)
    rw [hstarted]
  case flash => exact (htail.get .flash).trans (hbegun.get .flash)
  case notes =>
    intro c hc
    have hwaits : (startRecorded kind src s.power.state (bringUpBegun kind src s)).rtc.notes = s.rtc.notes :=
      ((startRecorded_changes ..).get .notes).trans (hbegun.get .notes)
    rw [← hwaits] at hc
    obtain ⟨r, hin, hr⟩ := notesAtStart_records hc
    have hgrows := (startClosed_changes (startRecorded kind src s.power.state (bringUpBegun kind src s))).get .sjGrows
    rw [started]
    generalize startClosed (startRecorded kind src s.power.state (bringUpBegun kind src s)) = t at hgrows ⊢
    exact ⟨r, hgrows.subset hin, hr⟩

theorem readJournal_changes (s : State) : Changes [.updRest] s (readJournal s) := by
  unfold readJournal
  exact .of

theorem resumeSaid_changes (kind : StartKind) (src : BitVec 4) (s : State) :
    Changes (.updRest :: bookParts) (started kind src s) (resumeSaid kind src s) :=
  (sj_changes ..).mono.trans (readJournal_changes _)

/-- What follows leaves a start as it shows, where nothing is pressed and the panel stays locked. -/
theorem Started.later {kind : StartKind} {src : BitVec 4} {s t u : State} {ps : List Part} (h : Started kind src s t)
    (hlater : Changes ps t u) (hrole : u.power.role = .none) (hlocked : u.pan.locked = true) (hbare : u.mld.mould = none)
    (hps : apart [.pwrCycles, .opUs, .start, .flash, .sjGrows] ps = true := by rfl) : Started kind src s u := by
  have hcycles : Part.Same .pwrCycles t u := hlater.same _ (not_mem_of_apart hps (by simp))
  have hop : Part.Same .opUs t u := hlater.same _ (not_mem_of_apart hps (by simp))
  have hstart : Part.Same .start t u := hlater.same _ (not_mem_of_apart hps (by simp))
  have hflash : Part.Same .flash t u := hlater.same _ (not_mem_of_apart hps (by simp))
  have hgrows : Part.Same .sjGrows t u := hlater.same _ (not_mem_of_apart hps (by simp))
  obtain ⟨hkind, hsrc, -⟩ := hstart
  refine ⟨hcycles.trans h.cycles, hop.trans h.opUs, hkind.trans h.startKind, hsrc.trans h.wakeSrc, hrole, hlocked, hbare,
    hflash.trans h.flash, fun c hc => ?_⟩
  obtain ⟨r, hin, hr⟩ := h.notes c hc
  exact ⟨r, hgrows.subset hin, hr⟩

/-- Every start shows so, whether an update is resumed in it or fails. -/
theorem beginBringUp_started (kind : StartKind) (src : BitVec 4) (s : State) : Started kind src s (beginBringUp kind src s) := by
  have hstarted := started_started kind src s
  have hsaid := resumeSaid_changes kind src s
  have hresumed : Started kind src s (resumeSaid kind src s) :=
    hstarted.later hsaid ((hsaid.get .role).trans hstarted.role) ((hsaid.get .locked).trans hstarted.locked)
      (by rw [hsaid.get .mld]; exact hstarted.bare)
  rw [beginBringUp_eq]
  split
  · cases resumeFailure (resumeSaid kind src s) with
    | none => exact hresumed
    | some c =>
      rw [Option.elim_some]
      exact hresumed.later (goDead_changes ..) (goDead_role ..) (goDead_locked _ _ hresumed.locked) (goDead_mould ..)
  · exact hstarted

/-- A start without a resume is a bring-up at its first step. -/
theorem beginBringUp_bringUp {kind : StartKind} {src : BitVec 4} {s : State} (h : resumes s = false) (hkind : kind ≠ .restart) :
    let t := beginBringUp kind src s
    t.power.state = .bringUp ∧ t.power.loadStep = .manifests ∧ t.power.pdOn = 0x003 ∧ t.power.driversOn = false := by
  have htail := started_tail kind src s
  have hbegun := bringUpBegun_tail kind src s
  obtain ⟨hstate, -, -, -, hstep⟩ := bringUpBegun_shows kind src s
  obtain ⟨-, -, -, -, hload, -⟩ := htail.get .start
  rw [decide_eq_false hkind] at hbegun
  have hfresh : (freshBlocks false s).power.driversOn = false := by rw [freshBlocks_eq]; rfl
  rw [beginBringUp_eq, h, if_neg Bool.false_ne_true]
  refine ⟨(htail.get .opState).trans hstate, hload.trans hstep, ?_, ?_⟩
  · exact (htail.get .pdOn).trans ((hbegun.get .pdOn).trans (freshBlocks_pdOn s))
  · exact (htail.get .drivers).trans ((hbegun.get .drivers).trans hfresh)

/-- A start is a bring-up, or in DEAD where its resume fails. -/
theorem beginBringUp_state (kind : StartKind) (src : BitVec 4) (s : State) :
    (beginBringUp kind src s).power.state = .bringUp ∨ (beginBringUp kind src s).power.state = .dead := by
  have hstarted : (started kind src s).power.state = .bringUp :=
    ((started_tail kind src s).get .opState).trans (bringUpBegun_shows kind src s).1
  rw [beginBringUp_eq]
  split
  · cases resumeFailure (resumeSaid kind src s) with
    | none => exact Or.inl (((resumeSaid_changes kind src s).get .opState).trans hstarted)
    | some c => rw [Option.elim_some]; exact Or.inr (goDead_state ..)
  · exact Or.inl hstarted

end
end Sys2Proof.Machine
end

section
/-! PROOF. The start from OFF and the wake from HIBERNATE: the commands (R67 to R69, R88, R413, R414, R426). -/

namespace Sys2Proof.Machine

section
set_option Elab.async false

/-- The unit that starts where the update journal says DEAD, with its records, the panel locked. -/
def deadStart (s : State) : State :=
  let s1 := countStart s
  let s2 := { s1 with
    power := { s1.power with pdOn := 0x003, startKind := .fromOff, wakeSrc := startSources s, t0Us := s1.clk.opUs }
    rtc := { s1.rtc with active := 0 } }
  let s3 := sj 0x103 0 (item 0 ++ item (startSources s).toNat ++ item s2.power.pwrCycles.toNat) (trSkip (sjAtStart s2))
  lockPanel 0 (if rtcTrusted s3 then timeAnchor 0 s3 else s3)

/-- The count of a start, its sources and PD0 and PD1. -/
def deadCounted (s : State) : State :=
  { countStart s with
    power := { (countStart s).power with
      pdOn := 0x003, startKind := .fromOff, wakeSrc := startSources s, t0Us := (countStart s).clk.opUs }
    rtc := { (countStart s).rtc with active := 0 } }

theorem deadStart_changes (s : State) : Changes (.locked :: .panRest :: startParts) (deadCounted s) (deadStart s) := by
  have hskip : Changes startParts (deadCounted s) (trSkip (sjAtStart (deadCounted s))) :=
    (sjAtStart_changes _).mono.trans (trSkip_changes _)
  have hsaid (items : Bytes) : Changes startParts (deadCounted s) (sj 0x103 0 items (trSkip (sjAtStart (deadCounted s)))) :=
    hskip.trans (sj_changes ..)
  have hanchor (items : Bytes) : Changes startParts (deadCounted s)
      (if rtcTrusted (sj 0x103 0 items (trSkip (sjAtStart (deadCounted s)))) then
        timeAnchor 0 (sj 0x103 0 items (trSkip (sjAtStart (deadCounted s))))
      else sj 0x103 0 items (trSkip (sjAtStart (deadCounted s)))) := .ite ((hsaid _).trans (timeAnchor_changes ..)) (hsaid _)
  unfold deadStart
  exact (hanchor _).mono.trans (lockPanel_changes ..)

theorem deadStart_locked (s : State) : (deadStart s).pan.locked = true := by rw [deadStart, lockPanel_locked]

theorem supplyValid_of_dead {s : State} (hoff : s.power.state = .off) (hcool : s.power.hot = false) (hdead : s.upd.journal = .dead) :
    supplyValid s = notesAtStart (enterDead (deadStart s)) := by
  unfold supplyValid
  rw [hoff]
  dsimp only
  rw [if_neg (by simp [hcool]), if_pos hdead]
  rfl

theorem supplyValid_of_alive {s : State} (hoff : s.power.state = .off) (hcool : s.power.hot = false) (halive : s.upd.journal ≠ .dead) :
    supplyValid s = beginBringUp .fromOff s.rtc.active (countStart s) := by
  unfold supplyValid
  rw [hoff]
  dsimp only
  rw [if_neg (by simp [hcool]), if_neg halive]
  rfl

theorem supplyValid_of_idle {s : State} (h : s.power.state ≠ .off ∨ s.power.hot = true) : supplyValid s = s := by
  unfold supplyValid
  split
  · next hoff => exact if_pos (h.resolve_left (not_not_intro hoff))
  · rfl

/-- What a start into DEAD shows. -/
theorem deadStart_started (s : State) : Started .fromOff s.rtc.active (countStart s) (notesAtStart (enterDead (deadStart s))) := by
  have hcount := deadStart_changes s
  have hdead := enterDead_changes (deadStart s)
  have hnotes := notesAtStart_changes (enterDead (deadStart s))
  obtain ⟨hkind, hsrc, -⟩ := hcount.get .start
  obtain ⟨hdeadKind, hdeadSrc, -⟩ := hdead.get .start
  obtain ⟨hnotesKind, hnotesSrc, -⟩ := hnotes.get .start
  constructor
  case cycles => exact (hnotes.get .pwrCycles).trans ((hdead.get .pwrCycles).trans (hcount.get .pwrCycles))
  case opUs => exact (hnotes.get .opUs).trans ((hdead.get .opUs).trans (hcount.get .opUs))
  case startKind => exact hnotesKind.trans (hdeadKind.trans hkind)
  case wakeSrc => exact hnotesSrc.trans (hdeadSrc.trans hsrc)
  case role => exact (hnotes.get .role).trans (enterDead_role _)
  case locked => exact (hnotes.get .locked).trans (enterDead_locked (deadStart_locked s))
  case bare => exact congrArg Mld.mould ((hnotes.get .mld).trans (enterDead_mld _))
  case flash => exact (hnotes.get .flash).trans ((hdead.get .flash).trans (hcount.get .flash))
  case notes =>
    intro c hc
    have hwaits : (enterDead (deadStart s)).rtc.notes = s.rtc.notes := (hdead.get .notes).trans (hcount.get .notes)
    exact notesAtStart_records (hwaits ▸ hc)

theorem supplyValid_started {s : State} (hoff : s.power.state = .off) (hcool : s.power.hot = false) :
    Started .fromOff s.rtc.active (countStart s) (supplyValid s) := by
  by_cases hdead : s.upd.journal = .dead
  · rw [supplyValid_of_dead hoff hcool hdead]
    exact deadStart_started s
  · rw [supplyValid_of_alive hoff hcool hdead]
    exact beginBringUp_started ..

/-! ### Wakes -/

theorem alarmSource_eq (s : State) : alarmSource s = if s.rtc.alarmEn && s.rtc.alarmHit then 1 else 0 := by
  simp [alarmSource]

theorem wakeUp_of_off {src : BitVec 4} {s : State} (h : s.power.state = .off) :
    wakeUp src s = { s with rtc := { s.rtc with pwrOn := true, active := s.rtc.active ||| src } } := by
  rw [wakeUp, h]

theorem wakeUp_of_hibernate {src : BitVec 4} {s : State} (h : s.power.state = .hibernate) :
    wakeUp src s = beginBringUp .wake (src ||| alarmSource s) s := by
  rw [wakeUp, h]

theorem wakeUp_of_instant {src : BitVec 4} {s : State} (h : s.power.state = .bringUp) (hkind : s.power.startKind = .wake)
    (hinstant : opMs s = s.power.t0Us / 1000) : wakeUp src s = addSource src s := by
  rw [wakeUp, h]
  exact if_pos ⟨hkind, hinstant⟩

theorem wakeUp_of_idle {src : BitVec 4} {s : State} (hoff : s.power.state ≠ .off) (hsleep : s.power.state ≠ .hibernate)
    (hinstant : ¬ (s.power.state = .bringUp ∧ s.power.startKind = .wake ∧ opMs s = s.power.t0Us / 1000)) : wakeUp src s = s := by
  unfold wakeUp
  split
  · next h => exact absurd h hsleep
  · next h => exact if_neg fun hi => hinstant ⟨h, hi⟩
  · next h => exact absurd h hoff
  · rfl

theorem addSource_eq (src : BitVec 4) (s : State) :
    let t := addSource src s
    t = { s with power := { s.power with wakeSrc := s.power.wakeSrc ||| src }, rtc := { s.rtc with pwrOn := true }
                 log := { s.log with sjQueue := t.log.sjQueue } } := rfl

theorem addSource_codes (src : BitVec 4) (s : State) :
    (addSource src s).log.sjQueue.map Record.code = s.log.sjQueue.map Record.code := by
  simp only [addSource, List.map_map]
  refine List.map_congr_left fun r _ => ?_
  simp only [Function.comp_apply]
  split <;> rfl

theorem addSource_keeps (src : BitVec 4) {s : State} {r : Record} (h : r ∈ s.log.sjQueue) (hcode : r.code ≠ 0x103) :
    r ∈ (addSource src s).log.sjQueue :=
  List.mem_map.2 ⟨r, h, if_neg fun hc => hcode hc.1⟩

/-- What a wake source does, whichever it is. -/
theorem wakeUp_answers (src : BitVec 4) (s : State) :
    (s.power.state = .off → wakeUp src s = { s with rtc := { s.rtc with pwrOn := true, active := s.rtc.active ||| src } }) ∧
    (s.power.state = .hibernate → s.upd.journal ≠ .patching →
      let t := wakeUp src s
      t.power.state = .bringUp ∧ t.power.startKind = .wake ∧
        t.power.wakeSrc = src ||| (if s.rtc.alarmEn && s.rtc.alarmHit then 1 else 0) ∧
        t.power.pwrCycles = s.power.pwrCycles ∧ t.clk.opUs = s.clk.opUs ∧ t.power.pdOn = 0x003 ∧ t.pan.locked = true) := by
  refine ⟨wakeUp_of_off, fun hsleep hjournal => ?_⟩
  have hstarted := beginBringUp_started .wake (src ||| alarmSource s) s
  obtain ⟨hstate, -, hpd, -⟩ := beginBringUp_bringUp (src := src ||| alarmSource s)
    (show resumes s = false from decide_eq_false hjournal) (show StartKind.wake ≠ .restart by decide)
  rw [wakeUp_of_hibernate hsleep, ← alarmSource_eq]
  exact ⟨hstate, hstarted.startKind, hstarted.wakeSrc, hstarted.cycles, hstarted.opUs, hpd, hstarted.locked⟩

/-- Settles O19: a start shows what `Started` says, by its bring-up or by DEAD; the three detectors are wakeUp with their source. -/
theorem theUnitStartsAndWakes : Obligations.TheUnitStartsAndWakes := by
  refine ⟨fun s => ⟨fun hidle => ?idle, fun hoff hcool => ?starts⟩, fun s p hp => ?wakes⟩
  case idle => exact congrArg Host.Outcome.next (supplyValid_of_idle hidle)
  case starts =>
    have hstarted := supplyValid_started hoff hcool
    refine ⟨supplyValid s, rfl, hstarted.cycles.trans (satInc_word _), hstarted.opUs, hstarted.startKind, hstarted.wakeSrc, hstarted.role,
      hstarted.locked, hstarted.bare, hstarted.flash, hstarted.notes, fun hdead => ?toDead, fun hdead hpatching => ?toBringUp,
      fun hpatching => ?toResume⟩
    case toDead =>
      have hnotes := notesAtStart_changes (enterDead (deadStart s))
      have hcount := deadStart_changes s
      obtain ⟨-, hlocked⟩ := hcount.get .pdTripped
      rw [supplyValid_of_dead hoff hcool hdead]
      exact ⟨(hnotes.get .opState).trans (enterDead_state _), fun hpd11 =>
        (hnotes.get .pdOn).trans (enterDead_pdOn (hcount.get .pdOn) (by rw [hlocked]; exact hpd11))⟩
    case toBringUp =>
      rw [supplyValid_of_alive hoff hcool hdead]
      exact beginBringUp_bringUp (decide_eq_false hpatching) (by decide)
    case toResume =>
      rw [supplyValid_of_alive hoff hcool (by rw [hpatching]; decide)]
      exact beginBringUp_state ..
  case wakes =>
    have hexec : exec p.1 s = .next (wakeUp p.2 s) := by
      simp only [List.mem_cons, List.not_mem_nil, or_false] at hp
      obtain rfl | rfl | rfl := hp <;> rfl
    rw [hexec]
    obtain ⟨hoffs, hwakes⟩ := wakeUp_answers p.2 s
    refine ⟨fun hoff => congrArg _ (hoffs hoff), fun hsleep hjournal => ⟨_, rfl, hwakes hsleep hjournal⟩,
      fun hstate hkind hinstant => ⟨_, rfl, ?_⟩, fun hoff hsleep hinstant => congrArg _ (wakeUp_of_idle hoff hsleep hinstant)⟩
    rw [wakeUp_of_instant hstate hkind hinstant]
    exact ⟨addSource_eq p.2 s, addSource_codes p.2 s, fun r hr hcode => addSource_keeps p.2 hr hcode⟩

end
end Sys2Proof.Machine
end

section
/-! SUPPORT. Which parts the landing buses, the pairs, the subscriptions and the lap change. -/

namespace Sys2Proof.Machine

section
set_option Elab.async false

/-! ### The landing buses (R279 to R308) -/

/-- What a landing bus changes: its own registers and state, what it sends, and what it records. -/
def landParts : List Part := .lb :: .outRest :: bookParts

theorem setLb_changes (p : Nat) (b : Lb) (s : State) : Changes [.lb] s (setLb p b s) := by
  unfold setLb
  exact .of

theorem modLb_changes (p : Nat) (f : Lb → Lb) (s : State) : Changes [.lb] s (modLb p f s) := setLb_changes ..

theorem setLx_changes (p : Nat) (x : LbCtx) (s : State) : Changes [.lb] s (setLx p x s) := by
  unfold setLx
  exact .of

theorem modLx_changes (p : Nat) (f : LbCtx → LbCtx) (s : State) : Changes [.lb] s (modLx p f s) := setLx_changes ..

theorem setNode_changes (p n : Nat) (x : Node) (s : State) : Changes [.lb] s (setNode p n x s) := modLx_changes ..

theorem modNode_changes (p n : Nat) (f : Node → Node) (s : State) : Changes [.lb] s (modNode p n f s) := setNode_changes ..

theorem dataWrite_changes (a : Nat) (bs : Bytes) (s : State) : Changes [.data] s (dataWrite a bs s) := by
  unfold dataWrite
  exact .of

theorem trRepCount_changes (code sev key : Nat) (items : Nat → Bytes) (s : State) :
    Changes bookParts s (trRepCount code sev key items s) := changes_of_booked (Safety.trRepCount_booked ..)

theorem lbChange_changes (p : Nat) (f : Lb → Lb) (s : State) : Changes landParts s (lbChange p f s) := by
  have hset (b : Lb) : Changes landParts s (setLb p b s) := (setLb_changes p b s).mono
  exact .ite ((Changes.ite ((hset _).trans (sj_changes ..)) (hset _)).trans (pushEvent_changes ..))
    (.ite ((hset _).trans (sj_changes ..)) (hset _))

theorem storeFrame_changes (p ts : Nat) (f : CanFrame) (s : State) : Changes landParts s (storeFrame p ts f s) :=
  .ite ((((push_changes ..).mono.trans (modLb_changes ..)).trans (modLx_changes ..)).trans (trRepCount_changes ..))
    ((((dataWrite_changes ..).mono.trans (push_changes ..)).trans (modLb_changes ..)).trans (modLx_changes ..))

theorem canOut_changes (p : Nat) (f : CanFrame) (s : State) : Changes [.outRest] s (canOut p f s) := by
  unfold canOut
  exact .of

theorem txDone_changes (p ts : Nat) (f : CanFrame) (s : State) : Changes landParts s (txDone p ts f s) :=
  ((storeFrame_changes ..).trans (canOut_changes ..)).trans (lbChange_changes ..)

theorem txPush_changes (src : Byte) (p : Nat) (f : CanFrame) (s : State) : Changes bookParts s (txPush src p f s) :=
  (Changes.ite (.refl _ s) (dataWrite_changes ..).mono).join (push_changes ..)

theorem sleepRef_changes (p flags : Nat) (s : State) : Changes landParts s (sleepRef p flags s) :=
  .ite (.refl _ s) (.ite (modLx_changes ..).mono (txDone_changes ..))

theorem sleepCommit_changes (p : Nat) (s : State) : Changes landParts s (sleepCommit p s) :=
  ((sleepRef_changes ..).trans (modLx_changes ..)).join (.foldl (fun _ _ => (modNode_changes ..).mono) _ _)

theorem sleepRequest_changes (p n : Nat) (s : State) : Changes landParts s (sleepRequest p n s) := by
  have hvoting (f : LbCtx → LbCtx) (g : Node → Node) (l : List Nat) :
      Changes landParts s (l.foldl (fun t k => modNode p k g t) (sleepRef p 1 (modLx p f s))) :=
    ((modLx_changes ..).mono.join (sleepRef_changes ..)).join (.foldl (fun _ _ => (modNode_changes ..).mono) _ _)
  exact .ite (((drawn_changes s).mono.trans (modLx_changes ..)).trans (sj_changes ..))
    (.ite ((hvoting ..).join (sleepCommit_changes ..)) (hvoting ..))

theorem busWake_changes (p kind : Nat) (s : State) : Changes landParts s (busWake p kind s) :=
  (modLx_changes ..).mono.trans (sj_changes ..)

theorem lbWakeNow_changes (p : Nat) (s : State) : Changes landParts s (lbWakeNow p s) :=
  .ite (busWake_changes ..) (.refl _ s)

theorem lbListen_changes (s : State) : Changes landParts s (lbListen s) :=
  .foldl (fun u _ => .ite (lbChange_changes ..) (.refl _ u)) _ s

/-! ### Outputs and pairs -/

theorem sjAcked_changes (mask : BitVec 16) (source : Nat) (s : State) : Changes bookParts s (sjAcked mask source s) :=
  changes_of_booked (sjAcked_booked mask source s).1

theorem setRetry_changes (k : Nat) (x : DoRetryState) (s : State) : Changes [.dioRest] s (setRetry k x s) := by
  unfold setRetry
  exact .of

theorem ackOutput_changes (k : Nat) (s : State) : Changes [.dioRest] s (ackOutput k s) := by
  have hretry := setRetry_changes k {} s
  exact .ite (hretry.also [.dioRest]) hretry

theorem ackOutputs_changes (source : Nat) (mask : BitVec 16) (s : State) :
    Changes (.dioRest :: .outputs :: bookParts) s (ackOutputs source mask s) := by
  have hall : Changes [.dioRest] s ((List.range 16).foldl (fun t k => if mask.getLsbD k then ackOutput k t else t) s) :=
    .foldl (fun u k => .ite (ackOutput_changes k u) (.refl _ u)) _ s
  exact .ite (.refl _ s) (((hall.mono.also [.dioRest]).trans (sjAcked_changes ..)).trans (refreshOutputs_changes _))

theorem fieldCommand_changes {ps : List Part} {f : State → State} {s : State} (h : Changes ps s (f s))
    (hps : within bookParts ps = true := by rfl) : Changes ps s (fieldCommand f s) :=
  whenever_changes (withFieldEvent_changes h hps)

theorem lapWrites_changes (a n : Nat) (s : State) : Changes [.sbx] s (lapWrites a n s) := .ite .of (.refl _ s)

theorem setImg_changes (i : Images) (s : State) : Changes [.img, .edit] s (setImg i s) := by
  unfold setImg
  split <;> exact .of

/-- What the evaluation of pairs changes. -/
def pairParts : List Part := .img :: .edit :: .sbx :: .saf :: bookParts

theorem pairNotes_changes (n dt : Nat) (a b : Bool) (notes : List PairNote) (s : State) :
    Changes pairParts s (pairNotes n dt a b notes s) := by
  refine .foldl (fun u x => ?_) notes s
  cases x
  case latch => exact ((Changes.refl _ u).also [.saf]).trans (sj_changes ..)
  case resetFailed => exact (sj_changes ..).mono
  case cleared => exact (sj_changes ..).mono
  case ackIgnored => exact .of

theorem pairStep_changes (n : Nat) (s : State) : Changes pairParts s (pairStep n s).1 := by
  have hset (i : Images) (a k : Nat) : Changes pairParts s (lapWrites a k (setImg i s)) :=
    (setImg_changes i s).mono.trans (lapWrites_changes ..)
  unfold pairStep
  dsimp only
  split_ifs
  · exact .refl _ s
  · exact hset ..
  · exact (hset ..).join (pairNotes_changes ..)

theorem pairsEval_changes (s : State) : Changes (.ctxRest :: pairParts) s (pairsEval s).1 := by
  have hall (l : List Nat) := Changes.foldl_fst (f := fun (acc : State × Nat) n =>
      let (t, k) := pairStep n acc.1
      (t, acc.2 + b2n k * 2 ^ n)) (fun acc n => pairStep_changes n acc.1) l (s, 0)
  unfold pairsEval
  specialize hall (List.range 16)
  generalize List.foldl _ (s, 0) _ = r at hall ⊢
  exact hall.mono.also [.ctxRest]

theorem pairsAck_changes (mask : Half) (s : State) : Changes [.img, .edit, .sbx] s (pairsAck mask s) :=
  (setImg_changes ..).mono.join (.foldl (fun _ _ => (lapWrites_changes ..).mono) _ _)

theorem spairCheck_changes (s : State) : Changes (.saf :: bookParts) s (spairCheck s) :=
  .foldl (fun u _ => .ite (((Changes.refl _ u).also [.saf]).trans (sjRep_changes ..)) (.refl _ u)) _ s

end
end Sys2Proof.Machine
end

section
/-! PROOF. A lap begins (R125, R126, R138). -/

namespace Sys2Proof.Machine

section
set_option Elab.async false

/-! ### The freeze of subscriptions and of Modbus writes -/

theorem ringTake_changes (n : Nat) (s : State) : Changes bookParts s (ringTake n s).1 := changes_of_booked (Safety.ringTake_booked ..)

theorem takeAll_changes (k n : Nat) (s : State) : Changes bookParts s (takeAll k n s).1 := by
  induction k generalizing s with
  | zero => exact .refl _ s
  | succ k ih =>
    have htake := ringTake_changes n s
    rw [takeAll]
    split
    · next h => rw [h] at htake; exact htake.join (ih _)
    · next h => rw [h] at htake; exact htake

theorem drainSubs_changes (s : State) : Changes bookParts s (drainSubs s).1 :=
  .foldl_fst (f := fun (acc : State × List Desc) n =>
    let (t, ds) := takeAll 4096 n acc.1
    (t, acc.2 ++ ds)) (fun acc n => takeAll_changes 4096 n acc.1) _ (s, [])

/-- What the freeze of the subscriptions changes: the P area, the lap's own notes and its records. -/
def subsParts : List Part := .frzP :: .lapRest :: .ctxRest :: bookParts

theorem copyP_changes (off : Nat) (bs : Bytes) (s : State) : Changes subsParts s (copyP off bs s) := by
  unfold copyP
  exact (Changes.refl _ s).also [.frzP, .lapRest]

theorem noteImage_changes (e len : Nat) (s : State) : Changes subsParts s (noteImage e len s) := by
  unfold noteImage
  exact (Changes.refl _ s).also [.ctxRest]

theorem staleRaised_changes (e : Nat) (sub : SubEntry) (s : State) : Changes bookParts s (staleRaised e sub s) :=
  (sjRep_changes ..).join (pushEvent_changes ..)

theorem freezeSub_changes (ds : List Desc) (s : State) (x : Nat × SubEntry) : Changes subsParts s (freezeSub ds s x) := by
  have hnoted (last : Option Desc) : Changes subsParts s (match last with
      | some d => noteImage x.1 d.len.toNat s
      | none => s) := by
    cases last with
    | none => exact .refl _ s
    | some d => exact noteImage_changes ..
  have hset (u : State) (h : Changes subsParts s u) (ages : List Nat) (stale : List Bool) (p : BitVec 525312) :
      Changes subsParts s { u with ctx := { u.ctx with ages := ages, stale := stale }, frz := { u.frz with p := p } } :=
    h.also [.frzP, .ctxRest]
  have hcopied (last : Option Desc) (bs : Bytes) := (hnoted last).join (copyP_changes x.2.pOffset bs _)
  exact .ite ((hset _ (hcopied ..) ..).trans (staleRaised_changes ..)) (hset _ (hcopied ..) ..)

theorem freezeP_changes (s : State) : Changes subsParts s (freezeP s).1 :=
  (drainSubs_changes s).mono.join (.foldl (fun u x => freezeSub_changes _ u x) _ _)

theorem subsReset_changes (s : State) : Changes subsParts s (subsReset s) :=
  ((Changes.refl _ s).also [.frzP, .ctxRest]).join (.foldl (fun _ _ => (staleRaised_changes ..).mono) _ _)

/-- What Modbus writes change as they are applied (R359). -/
def writeParts : List Part := .img :: .sbx :: .pxRest :: bookParts

theorem mbApply_changes (w : MbWrite) (s : State) : Changes [.img, .sbx, .data] s (mbApply w s) :=
  .foldl (fun u _ => .ite (((Changes.refl _ u).also [.img]).trans (lapWrites_changes ..))
    ((dataWrite_changes ..).mono.trans (lapWrites_changes ..))) _ s

theorem addrDrawn_changes (a : NetAddr) (s : State) : Changes bookParts s (addrDrawn a s) := by
  cases a with
  | v4 x => exact .refl _ s
  | v6 x => exact drawn_changes s

theorem mbFreezeOne_changes (w : MbWrite) (s : State) : Changes writeParts s (mbFreezeOne w s).1 := by
  unfold mbFreezeOne
  by_cases hen : s.px.mbEn.getLsbD (if w.coil then 0 else 1) = true
  · rw [if_pos hen]
    exact ((mbApply_changes w s).mono.trans (addrDrawn_changes ..)).trans (trRep_changes ..)
  · rw [if_neg hen]
    exact .refl _ s

theorem mbFreeze_changes (s : State) : Changes writeParts s (mbFreeze s) := by
  have hall (l : List MbWrite) := Changes.foldl_fst (ps := writeParts) (f := fun (acc : State × List MbWrite) w =>
      if w.state = 0 then let (u, v) := mbFreezeOne w acc.1; (u, acc.2 ++ [v]) else (acc.1, acc.2 ++ [w])) (fun acc w => by
        dsimp only
        split
        · exact mbFreezeOne_changes w acc.1
        · exact .refl _ acc.1) l (s, [])
  unfold mbFreeze
  specialize hall s.px.writes
  generalize List.foldl _ (s, []) _ = r at hall ⊢
  exact hall.also [.pxRest]

/-! ### The freeze of the unit's own sources (R126) -/

theorem diFiltered_congr {s t : State} (h : t.dio = s.dio) : diFiltered t = diFiltered s := by
  simp only [diFiltered, lostMask, diGroup, h]

/-- The image bits that the filtered inputs take. -/
theorem getLsbD_setField_in {w i n k x : Nat} (v : BitVec w) (hk : k < n) (hw : i + k < w) :
    (setField v i n x).getLsbD (i + k) = x.testBit k := by
  have hmask : (BitVec.ofNat w ((2 ^ n - 1) * 2 ^ i)).getLsbD (i + k) = true := by
    rw [BitVec.getLsbD_ofNat, Nat.testBit_mul_two_pow]
    simp [hw, hk]
  have hfield : (BitVec.ofNat w (x % 2 ^ n * 2 ^ i)).getLsbD (i + k) = x.testBit k := by
    rw [BitVec.getLsbD_ofNat, Nat.testBit_mul_two_pow]
    simp [hw, hk]
  rw [setField, BitVec.getLsbD_or, BitVec.getLsbD_and, BitVec.getLsbD_not, hmask, hfield]
  simp

/-- What the freeze latches of the unit's own sources. -/
def latched (s : State) : State := { s with
  frz := { i := setField 0 (((mouldOf s).map Mould.iBase).getD 0) 32 (diFiltered s).toNat, s := sBits s, p := s.frz.p, l := s.lb.lImage
           k := s.pan.delivered.setWidth 32, w := wLive s }
  ctx := { s.ctx with field := fieldWords s } }

theorem freezeOwn_eq (s : State) : freezeOwn s = (mbFreeze (freezeP (latched s)).1, (freezeP (latched s)).2) := rfl

theorem freezeOwn_changes (s : State) :
    Changes (.frzRest :: .img :: .sbx :: .pxRest :: subsParts) s (freezeOwn s).1 := by
  rw [freezeOwn_eq]
  have hlatched : Changes [.frzP, .frzRest, .ctxRest] s (latched s) := by
    unfold latched
    exact .of
  exact (hlatched.mono.trans (freezeP_changes _)).trans (mbFreeze_changes _)

theorem freezeOwn_tail (s : State) : Changes (.img :: .sbx :: .pxRest :: subsParts) (latched s) (freezeOwn s).1 := by
  rw [freezeOwn_eq]
  exact (freezeP_changes _).mono.trans (mbFreeze_changes _)

/-- The image areas but P are those latched. -/
theorem freezeOwn_latched (s : State) : (freezeOwn s).1.frz.i = (latched s).frz.i ∧ (freezeOwn s).1.frz.l = s.lb.lImage := by
  have hrest : Part.Same .frzRest (latched s) (freezeOwn s).1 := (freezeOwn_tail s).get .frzRest
  simp only [Part.Same] at hrest
  rw [hrest]
  exact ⟨rfl, rfl⟩

/-! ### Housekeeping and the beginning of execution (R130, R138) -/

theorem captureTime_changes (s : State) : Changes [.lapRest, .ctxRest] s (captureTime s) := by
  unfold captureTime
  exact .of

theorem ringSet_changes (n : Nat) (r : Ring) (s : State) : Changes [.rings, .layout] s (ringSet n r s) := by
  unfold ringSet
  exact .of

theorem drainEvent_changes (k : Nat) (s : State) : Changes (.layout :: bookParts) s (drainEvent k s).1 := by
  let r := ringGet s (16 + k)
  by_cases hempty : ringFill r = 0
  · have hnone : drainEvent k s = (s, none) := if_pos hempty
    rw [hnone]
    exact .refl _ s
  · have hdrained : (drainEvent k s).1 = ringSet (16 + k) { r with ci := r.pi, lost := false } s := congrArg Prod.fst (if_neg hempty)
    rw [hdrained]
    exact (ringSet_changes ..).mono

theorem drainEvents_changes (s : State) : Changes (.layout :: .ctxRest :: bookParts) s (drainEvents s) := by
  have hall (l : List Nat) := Changes.foldl_fst (ps := .layout :: bookParts) (f := fun (acc : State × List EventInfo) k =>
      match drainEvent k acc.1 with
      | (u, some e) => (u, if eventOn s k then acc.2 ++ [e] else acc.2)
      | (u, none) => (u, acc.2)) (fun acc k => by
        have hone := drainEvent_changes k acc.1
        split
        · next h => rw [h] at hone; exact hone
        · next h => rw [h] at hone; exact hone) l (s, [])
  unfold drainEvents
  specialize hall (List.range 32)
  generalize List.foldl _ (s, []) _ = r at hall ⊢
  exact hall.mono.also [.ctxRest]

theorem addEvent_changes (e : EventInfo) (s : State) : Changes [.ctxRest] s (addEvent e s) := .ite .of (.refl _ s)

theorem addAdopted_changes (s : State) : Changes (.ctxRest :: bookParts) s (addAdopted s) :=
  ((drawn_changes s).join (drawn_changes _)).mono.trans (addEvent_changes ..)

theorem ownPairs_changes (s : State) : Changes (.ctxRest :: pairParts) s (ownPairs s) :=
by
  have heval := pairsEval_changes s
  unfold ownPairs
  generalize pairsEval s = r at heval ⊢
  exact .ite heval (heval.trans (addEvent_changes ..))

/-- What an adoption changes (R202). -/
def adoptParts : List Part := .updRest :: .prog :: .img :: .ctxRest :: .edit :: .async :: bookParts

theorem adoptEdit_changes (s : State) : Changes adoptParts s (adoptEdit s) :=
  (((Changes.refl _ s).also [.updRest, .prog, .img, .ctxRest, .edit]).trans (sj_changes ..)).trans (asyncDone_changes ..)

theorem adoptDue_changes (s : State) : Changes adoptParts s (adoptDue s) := .ite (adoptEdit_changes s) (.refl _ s)

/-- MAIN, or an event block, entered: accumulators clear, BA 0, FC 1, no open bracket and no call (R170, R154). -/
structure Fresh (s : State) : Prop where
  acc1 : s.bx.acc1 = 0
  acc2 : s.bx.acc2 = 0
  acx : s.bx.acx = 0
  ba : s.bu.ba = false
  fc : s.bu.fc = true
  stack : s.bu.stack = []
  calls : s.bx.calls = []

theorem enterTop_fresh (typ : BitVec 8) (number : Nat) (s : State) : Fresh (enterTop typ number s) := ⟨rfl, rfl, rfl, rfl, rfl, rfl, rfl⟩

/-- The next block of the lap is entered afresh, and none leaves what the last one left. -/
theorem nextBlock_fresh {s : State} (h : Fresh s) : Fresh (nextBlock s) := by
  unfold nextBlock
  split
  · exact enterTop_fresh ..
  · exact ⟨h.acc1, h.acc2, h.acx, h.ba, h.fc, h.stack, h.calls⟩

theorem settle_fresh (k : Nat) {s : State} (h : Fresh s) : Fresh (settle k s) := by
  induction k generalizing s with
  | zero => exact h
  | succ k ih =>
    rw [settle]
    split
    · rw [blockEnds_of_no_calls h.calls]
      exact ih (nextBlock_fresh ⟨h.acc1, h.acc2, h.acx, h.ba, h.fc, h.stack, h.calls⟩)
    · exact h

theorem nextBlock_changes (s : State) : Changes [.bu, .bx, .ctxRest] s (nextBlock s) := by
  unfold nextBlock enterTop
  split <;> exact .of

theorem blockEnds_changes (s : State) : Changes [.bu, .bx, .ctxRest] s (blockEnds s) := by
  have hsticky : Changes [.bu, .bx, .ctxRest] s (blockSticky s) := by unfold blockSticky; exact .of
  unfold blockEnds
  dsimp only
  split
  · exact hsticky.also [.bu, .bx]
  · exact hsticky.join (nextBlock_changes _)

theorem settle_changes (k : Nat) (s : State) : Changes [.bu, .bx, .ctxRest] s (settle k s) := by
  induction k generalizing s with
  | zero => exact .refl _ s
  | succ k ih => exact .ite ((blockEnds_changes s).join (ih _)) (.refl _ s)

theorem beginExecution_fresh (r : Running) (s : State) : Fresh (beginExecution r s) := settle_fresh 33 (enterTop_fresh ..)

theorem beginExecution_changes (r : Running) (s : State) : Changes [.running, .bu, .bx, .ctxRest] s (beginExecution r s) := by
  unfold beginExecution
  dsimp only
  refine Changes.trans ?_ (settle_changes ..)
  unfold enterTop
  exact .of

theorem beginExecution_running (r : Running) (s : State) : (beginExecution r s).lap.running = r :=
  (settle_changes ..).get .running

end
end Sys2Proof.Machine
end

section
/-! PROOF. A lap starts and is committed (R125, R126, R198). -/

namespace Sys2Proof.Machine

section
set_option Elab.async false

/-! ### The lap's start -/

/-- The lap counted, before its freeze. -/
def lapCounted (s : State) : State := { s with lap := { s.lap with
    num := s.lap.num + 1, freezeUs := s.clk.opUs, nextDueUs := s.clk.opUs + 1000 * tLapMs s } }

/-- The lap frozen, with its housekeeping, before execution begins. -/
def lapHoused (s : State) : State := drainEvents (captureTime (freezeOwn (adoptDue (lapCounted s))).1)

/-- The lap with its pairs evaluated. -/
def lapReady (s : State) : State := ownPairs (if (lapHoused s).ctx.editFirst then addAdopted (lapHoused s) else lapHoused s)

theorem ownLap_eq (s : State) :
    ownLap s = beginExecution .lap (leaderDuties (freezeOwn (adoptDue (lapCounted s))).2 (lapReady s)) := by
  unfold ownLap
  rw [lapReady, lapHoused, lapCounted]

/-- What adoption, freeze, housekeeping and pairs change. -/
def readyParts : List Part := .updRest :: .prog :: .frzP :: .frzRest :: .lapRest :: .layout :: .async :: .pxRest :: .ctxRest :: pairParts

theorem lapReady_later (s : State) :
    Changes (.lapRest :: .layout :: .ctxRest :: pairParts) (freezeOwn (adoptDue (lapCounted s))).1 (lapReady s) := by
  have hhoused := (captureTime_changes (freezeOwn (adoptDue (lapCounted s))).1).mono
    (qs := .lapRest :: .layout :: .ctxRest :: pairParts) |>.trans (drainEvents_changes _)
  exact (Changes.ite (hhoused.trans (addAdopted_changes _)) hhoused).trans (ownPairs_changes _)

theorem lapReady_changes (s : State) : Changes readyParts (lapCounted s) (lapReady s) :=
  (((adoptDue_changes _).mono.trans (freezeOwn_changes _)).trans (lapReady_later s))

/-- A lap of the unit's own that has just begun. -/
structure LapBegun (m : Mould) (s t : State) : Prop where
  state : t.power.state = s.power.state
  role : t.power.role = s.power.role
  num : t.lap.num = s.lap.num + 1
  running : t.lap.running = .lap
  freezeUs : t.lap.freezeUs = s.clk.opUs
  inputs : ∀ n : Fin 32, t.frz.i.getLsbD (m.iBase + n) = (diFiltered s).getLsbD n
  landing : t.frz.l = s.lb.lImage
  fresh : Fresh t
  outputs : t.dio = s.dio

theorem leaderDuties_of_solo {n : Nat} {s : State} (h : s.power.role = .solo) : leaderDuties n s = s := if_neg (by simp [h])

theorem ownLap_begun {m : Mould} {r : MouldRest} {s : State} (hmould : s.mld.mould = some (m, r)) (hbase : m.iBase + 32 ≤ 8192)
    (hrole : s.power.role = .solo) : LapBegun m s (ownLap s) := by
  have hready := lapReady_changes s
  have hrun := beginExecution_changes .lap (lapReady s)
  have hduties : ownLap s = beginExecution .lap (lapReady s) := by
    rw [ownLap_eq, leaderDuties_of_solo ((hready.get .role).trans hrole)]
  have hfrozen : (beginExecution .lap (lapReady s)).frz.i = (latched (adoptDue (lapCounted s))).frz.i ∧
      (beginExecution .lap (lapReady s)).frz.l = s.lb.lImage := by
    obtain ⟨hinputs, hlanding⟩ := freezeOwn_latched (adoptDue (lapCounted s))
    have hlater : Part.Same .frzRest _ _ := (lapReady_later s).get .frzRest
    have hran : Part.Same .frzRest _ _ := hrun.get .frzRest
    simp only [Part.Same] at hlater hran
    rw [hran, hlater]
    exact ⟨hinputs, hlanding.trans (congrArg Landing.lImage ((adoptDue_changes (lapCounted s)).get .lb))⟩
  obtain ⟨hinputs, hlanding⟩ := hfrozen
  rw [hduties]
  refine ⟨?_, ?_, ?_, beginExecution_running .., ?_, fun n => ?_, hlanding, beginExecution_fresh .., ?_⟩
  · exact (hrun.get .opState).trans (hready.get .opState)
  · exact (hrun.get .role).trans (hready.get .role)
  · exact (hrun.get .lapNum).trans (hready.get .lapNum)
  · exact (And.left (hrun.get .lapTimes)).trans (And.left (hready.get .lapTimes))
  · have hadopted := adoptDue_changes (lapCounted s)
    have hfiltered : diFiltered (adoptDue (lapCounted s)) = diFiltered s := diFiltered_congr hadopted.dio
    have hmld : (adoptDue (lapCounted s)).mld = s.mld := hadopted.get .mld
    have hpressed : mouldOf (adoptDue (lapCounted s)) = some m := by simp [mouldOf, hmld, hmould]
    rw [hinputs]
    simp only [latched, hpressed, hfiltered, Option.map_some, Option.getD_some]
    rw [getLsbD_setField_in _ n.isLt (by omega)]
    simp [BitVec.getLsbD]
  · exact hrun.dio.trans hready.dio

/-- A unit that leaves HALT, before its role and its records. -/
def haltLeft (s : State) : State := subsReset { s with
  power := { s.power with state := .run, transit := .none }, ctx := { s.ctx with haltResumed := true } }

theorem haltLeft_changes (s : State) : Changes (.opState :: .transit :: subsParts) s (haltLeft s) :=
  ((Changes.refl _ s).also [.opState, .transit, .ctxRest]).trans (subsReset_changes _)

theorem leaveHalt_later (s : State) : Changes (.async :: bookParts) (setRole .solo (haltLeft s)) (leaveHalt s) := by
  rw [leaveHalt, ← haltLeft]
  exact (sjStateChange_changes ..).mono.trans (asyncDone_changes ..)

theorem leaveHalt_changes (s : State) :
    Changes (.opState :: .transit :: .role :: .history :: .async :: subsParts) s (leaveHalt s) :=
  ((haltLeft_changes s).mono.trans (setRole_changes .solo _)).trans (leaveHalt_later s)

theorem leaveHalt_run (s : State) : (leaveHalt s).power.state = .run ∧ (leaveHalt s).power.role = .solo := by
  refine ⟨?_, ((leaveHalt_later s).get .role).trans (setRole_role ..)⟩
  exact ((leaveHalt_later s).get .opState).trans (((setRole_changes ..).get .opState).trans ((subsReset_changes _).get .opState))

/-! ### The commit -/

theorem publish_changes (halt : Bool) (s : State) : Changes [.pxSeq, .pxOut] s (publish halt s) :=
  .foldl (fun _ _ => pxPut_changes ..) _ s

theorem modPipe_changes (cpu : Bool) (f : Pipe → Pipe) (s : State) : Changes [.tbl] s (modPipe cpu f s) := by
  unfold modPipe
  exact .of

theorem pfxApply_changes (s : State) : Changes (.tbl :: bookParts) s (pfxApply s) := by
  unfold pfxApply
  split
  · exact .refl _ s
  · exact .ite (.refl _ s) (((((Changes.refl _ s).also [.tbl]).trans (modPipe_changes ..)).trans (modPipe_changes ..)).trans
      (tr_changes ..))

theorem pfxCommit_changes (bs : Bytes) (s : State) : Changes (.tbl :: bookParts) s (pfxCommit bs s) :=
  .ite (((Changes.refl _ s).also [.tbl]).join (pfxApply_changes _)) (.refl _ s)

theorem raiseTrigger_changes (bit which : Nat) (s : State) : Changes [.acq] s (raiseTrigger bit which s) := by
  unfold raiseTrigger
  split
  · exact .ite .of (.refl _ s)
  · exact .refl _ s

/-- What the actions of system blocks change. -/
def actionParts : List Part := .sbx :: .outputs :: .dioRest :: .rfx :: .img :: .edit :: .acq :: .tbl :: .pxRest :: .locked :: .panRest :: landParts

theorem carryOut_changes (a : Action) (s : State) : Changes actionParts s (carryOut s a) := by
  cases a with
  | raise t => exact (pushEventFree_changes ..).mono
  | reflexEn m0 m1 => exact (((Changes.refl _ s).also [.rfx]).trans (refreshOutputs_changes _)).trans (lapWrites_changes ..)
  | doAck mask => exact fieldCommand_changes (ackOutputs_changes ..).mono
  | safeAck mask => exact (pairsAck_changes ..).mono
  | mwTrigger => exact (raiseTrigger_changes ..).mono
  | lbFilter p bs => exact .ite (modLx_changes ..).mono (.refl _ s)
  | lbSend p id data => exact .ite (txPush_changes ..).mono (.refl _ s)
  | beaconPlan p fs => exact .ite (modLx_changes ..).mono (.refl _ s)
  | lbSleep p n => exact (sleepRequest_changes ..).mono
  | lbWake p => exact (lbWakeNow_changes ..).mono
  | pfxLoad bs => exact (pfxCommit_changes ..).mono
  | mbWriteEn m =>
    unfold carryOut
    exact .also (.refl _ s) [.pxRest]
  | encSet c =>
    unfold carryOut
    exact .also (.refl _ s) [.panRest]
  | panelLock => exact (lockPanel_changes ..).mono

theorem writeThrough_changes (s : State) :
    Changes (.lapRest :: .wtEnd :: .ctxRest :: .mram :: bookParts) s (writeThrough s) := by
  have hcut (b c : Bool) : Changes (.lapRest :: .wtEnd :: .ctxRest :: .mram :: bookParts) s
      { s with lap := { s.lap with retCutoff := b }, ctx := { s.ctx with cutoffSaid := c } } := by
    exact .also (.refl _ s) [.lapRest, .ctxRest]
  have hall (l : List (Nat × Bytes)) : Changes (.lapRest :: .wtEnd :: .ctxRest :: .mram :: bookParts) s
      (l.foldl (fun t p => mramWrite p.1 p.2 t) s) := .foldl (fun _ _ => (mramWrite_changes ..).mono) l s
  unfold writeThrough
  split
  · exact .ite (hcut ..) ((hcut ..).trans (sj_changes ..))
  · have hwritten := hall (retImage s)
    dsimp only
    generalize List.foldl _ s _ = u at hwritten ⊢
    exact hwritten.also [.lapRest, .ctxRest, .wtEnd]

theorem mbSend_changes (conn : Nat) (bs : Bytes) (s : State) : Changes [.outRest] s (mbSend conn bs s) := by
  unfold mbSend
  exact .ite .of (.refl _ s)

theorem mbRespond_changes (w : MbWrite) (s : State) : Changes [.outRest] s (mbRespond w s) :=
  .ite (mbSend_changes ..) (mbSend_changes ..)

theorem mbCommit_changes (s : State) : Changes [.ctxRest, .outRest, .pxRest] s (mbCommit s) := by
  have hall (u : State) (l : List MbWrite) : Changes [.outRest] u (l.foldl (fun t w => mbRespond w t) u) :=
    .foldl (fun t w => mbRespond_changes w t) l u
  have hcopied (c : MbCopy) (l : List MbWrite) : Changes [.ctxRest, .outRest, .pxRest] s
      (l.foldl (fun t w => mbRespond w t) { s with ctx := { s.ctx with mbCopy := c } }) :=
    ((Changes.refl _ s).also [.ctxRest]).trans (hall ..)
  unfold mbCommit
  dsimp only
  specialize hcopied { q := s.img.q, m := s.img.m, d := s.data.filter (fun c => decide (c.1 < dBytes s)), frz := s.frz
                       num := s.lap.num, nowMs := s.lap.nowMs, mgt := mgtState s
                       cycles := s.power.pwrCycles } (s.px.writes.filter fun w => w.state ≠ 0)
  generalize List.foldl _ _ _ = u at hcopied ⊢
  exact hcopied.also [.pxRest]

theorem pairsPublish_changes (s : State) : Changes [.saf] s (pairsPublish s) := by
  unfold pairsPublish
  exact .of

/-- The lap's registers as the end of a commit leaves them, before SAF's registers and the copy for Modbus. -/
def lapClosed (s : State) : State := { s with
    lap := { s.lap with running := .idle, lastUs := commitEnd s - s.lap.freezeUs, maxUs := BitVec.ofNat 32 (max s.lap.maxUs.toNat (commitEnd s - s.lap.freezeUs)), evtDue := s.ctx.ranTypes }
    bx := { s.bx with statusFlags := flagWord s.bx, lapSticky := s.bx.curSticky, lapWords := s.bx.curWords, level := 0 }
    bu := { s.bu with lapBits := s.bu.curBits }
    ctx := { s.ctx with firstLap := false, haltResumed := false, tornFlag := false, editFirst := false, actions := [], current := none } }

theorem commitDone_eq (s : State) : commitDone s = mbCommit (pairsPublish (lapClosed s)) := rfl

theorem lapClosed_changes (s : State) : Changes [.running, .lapTimes, .lapRest, .bx, .bu, .ctxRest] s (lapClosed s) := by
  unfold lapClosed
  exact .of

theorem commitDone_later (s : State) : Changes [.saf, .ctxRest, .outRest, .pxRest] (lapClosed s) (commitDone s) := by
  rw [commitDone_eq]
  exact (pairsPublish_changes _).mono.trans (mbCommit_changes _)

theorem noteOverrun_changes (s : State) : Changes (.lapRest :: .sbx :: bookParts) s (noteOverrun s) := by
  unfold noteOverrun
  dsimp only
  split_ifs
  · exact .also (.refl _ s) [.lapRest, .sbx]
  · exact ((Changes.refl _ s).also [.lapRest]).trans (sj_changes ..)
  · exact .also (.refl _ s) [.lapRest]
  · exact .also (.refl _ s) [.lapRest]

theorem leaderSlack_of_solo {s : State} (h : s.power.role = .solo) : leaderSlack s = s := if_neg (by simp [h])

theorem batonGive_of_solo {s : State} (h : s.power.role = .solo) : batonGive s = s := if_neg (by simp [h])

theorem commitOutputs_changes (s : State) :
    Changes (.outputs :: .cmd :: .dioRest :: .sbx :: .rfx :: .saf :: bookParts) s (commitOutputs s) :=
  (((Changes.refl _ s).also [.sbx, .rfx]).trans (applyOutputs_changes ..)).trans (spairCheck_changes ..)

theorem commitOutputs_cmd (s : State) : (commitOutputs s).dio.cmd = qOutputs s :=
  ((spairCheck_changes _).get .cmd).trans ((refreshOutputs_changes _).get .cmd)

/-- A commit up to its write-through. -/
def committed (s : State) : State :=
  writeThrough ((publish false (commitOutputs s)).ctx.actions.foldl carryOut (publish false (commitOutputs s)))

/-- What follows the outputs of a commit. -/
def committedParts : List Part := .lapRest :: .wtEnd :: .ctxRest :: .mram :: .pxSeq :: .pxOut :: actionParts

theorem committed_later (s : State) : Changes committedParts (commitOutputs s) (committed s) :=
  ((publish_changes ..).mono.join (.mono (.foldl (fun u a => carryOut_changes a u) _ _))).trans (writeThrough_changes _)

theorem committed_changes (s : State) : Changes (.cmd :: .saf :: committedParts) s (committed s) :=
  (commitOutputs_changes s).mono.trans (committed_later s)

theorem ownCommit_eq (s : State) :
    ownCommit s = batonGive (noteSlack (leaderSlack (noteOverrun (commitDone (committed s))))) := rfl

/-- What follows the closing of the lap's registers in a SOLO unit. -/
theorem ownCommit_later {s : State} (hrole : s.power.role = .solo) :
    Changes (.saf :: .ctxRest :: .outRest :: .pxRest :: .lapRest :: .sbx :: bookParts) (lapClosed (committed s)) (ownCommit s) ∧
      (ownCommit s).ctx.actions = [] := by
  have hcommitted := committed_changes s
  have hdone : Changes (.saf :: .ctxRest :: .outRest :: .pxRest :: .lapRest :: .sbx :: bookParts) (lapClosed (committed s))
      (noteOverrun (commitDone (committed s))) :=
    (commitDone_later _).mono.trans (noteOverrun_changes _)
  have hsolo : (noteOverrun (commitDone (committed s))).power.role = .solo :=
    (hdone.get .role).trans (((lapClosed_changes _).get .role).trans ((hcommitted.get .role).trans hrole))
  have hcommit : ownCommit s = noteSlack (noteOverrun (commitDone (committed s))) := by
    rw [ownCommit_eq, leaderSlack_of_solo hsolo, batonGive_of_solo]
    exact hsolo
  rw [hcommit]
  refine ⟨by unfold noteSlack; exact hdone.also [.sbx], ?_⟩
  have hctx : (noteOverrun (commitDone (committed s))).ctx = (commitDone (committed s)).ctx := (noteOverrun_changes _).ctx
  have hresponded (u : State) (l : List MbWrite) : (l.foldl (fun t w => mbRespond w t) u).ctx = u.ctx :=
    Changes.ctx (ps := [.outRest]) (.foldl (fun t w => mbRespond_changes w t) l u)
  change (noteOverrun (commitDone (committed s))).ctx.actions = []
  rw [hctx, commitDone_eq, mbCommit]
  dsimp only
  rw [hresponded]
  rfl

/-! ### The commit of a trial lap -/

theorem setImg_trialRun (i : Images) (s : State) : (setImg i s).edit.trialRun = s.edit.trialRun := by
  unfold setImg
  split <;> rfl

theorem pairsAck_trialRun (mask : Half) (s : State) : (pairsAck mask s).edit.trialRun = s.edit.trialRun := by
  have hwrites (u : State) (l : List Nat) : (l.foldl (fun t n => lapWrites (11264 + 16 * (4080 + n)) 16 t) u).edit = u.edit :=
    Changes.get (ps := [.sbx]) (.foldl (fun _ _ => lapWrites_changes ..) l u) .edit
  rw [pairsAck, hwrites, setImg_trialRun]

theorem carryOut_of_trialKeeps {a : Action} (h : trialKeeps a = true) (s : State) :
    Changes [.img, .edit, .sbx] s (carryOut s a) ∧ (carryOut s a).edit.trialRun = s.edit.trialRun := by
  cases a with
  | safeAck mask => exact ⟨pairsAck_changes mask s, pairsAck_trialRun mask s⟩
  | _ => exact Bool.noConfusion (show false = true from h)

theorem trialActions (l : List Action) (s : State) (h : ∀ a ∈ l, trialKeeps a = true) :
    Changes [.img, .edit, .sbx] s (l.foldl carryOut s) ∧ (l.foldl carryOut s).edit.trialRun = s.edit.trialRun := by
  induction l generalizing s with
  | nil => exact ⟨.refl _ s, rfl⟩
  | cons a l ih =>
    obtain ⟨hone, hrun⟩ := carryOut_of_trialKeeps (h a (by simp)) s
    obtain ⟨hall, hruns⟩ := ih (carryOut s a) fun b hb => h b (by simp [hb])
    exact ⟨hone.join hall, hruns.trans hrun⟩

theorem endTrial_idle (reason code : Nat) {s : State} (h : s.lap.running = .idle) :
    (endTrial reason code s).lap.running = .idle ∧ (endTrial reason code s).dio = s.dio ∧
      (endTrial reason code s).edit.trialRun = s.edit.trialRun := by
  have hended : (endTrial reason code s).lap.running = if inTrial s then .idle else s.lap.running := (sj_changes ..).get .running
  have hsaid (u : State) (code sev : Nat) (items : Bytes) : (sj code sev items u).edit = u.edit := (sj_changes ..).get .edit
  exact ⟨by simp [hended, h], (sj_changes ..).dio, by rw [endTrial, hsaid]⟩

/-- A trial lap counted, with its report where it differs. -/
def trialClosed (u : State) : State :=
  let rep := trialReport (u.edit.trial.getD {}) u.img (u.edit.trialRun + 1).toNat u
  { u with
    lap := { u.lap with running := .idle }
    bx := { u.bx with level := 0 }
    ctx := { u.ctx with actions := [], current := none }
    edit := { u.edit with
      trialRun := u.edit.trialRun + 1
      trialDiff := if rep.isSome then u.edit.trialDiff + 1 else u.edit.trialDiff
      reports := match rep with
        | some r => addReport r u.edit.reports
        | none => u.edit.reports } }

theorem trialCommit_eq {s u : State} (h : (s.ctx.actions.filter trialKeeps).foldl carryOut s = u) :
    trialCommit s = if (u.edit.trialRun + 1).toNat ≥ u.edit.window then endTrial 0 0 (trialClosed u) else trialClosed u := by
  subst h
  unfold trialCommit trialClosed
  generalize (s.ctx.actions.filter trialKeeps).foldl carryOut s = u
  dsimp only <;>
    (generalize trialReport _ _ _ u = report
     cases report <;> rfl)

/-- Settles O24: a lap begins from the counted state by adoption, freeze, housekeeping and pairs, none of which touches the outputs; a
commit applies the Q image first, and neither an action nor what closes the lap commands an output. -/
theorem lapsFreezeInputsAndCommitOutputs : Obligations.LapsFreezeInputsAndCommitOutputs := by
  refine ⟨fun s m r => ⟨fun hbusy => ?waits, fun hidle hwt hlane hmould hbase hstate => ?begins⟩,
    fun s => ⟨fun hopen => ?idle, fun hended hrunning hrole => ?own, fun hended hrunning => ?trial⟩⟩
  case waits =>
    refine congrArg Host.Outcome.next ?_
    rw [lapStart, if_pos (by simp [not_commitOver hbusy])]
  case begins =>
    have hdue : ¬ ((!commitOver s) = true ∨ (!pdIs s 2) = true ∨ (mouldOf s).isNone = true) := by
      simp [commitOver_iff.2 ⟨hidle, hwt⟩, pdIs, hlane, mouldOf, hmould]
    have of_begun {u : State} (hu : LapBegun m u (ownLap u)) (hrun : u.power.state = .run) (hrole : u.power.role = .solo)
        (hnum : u.lap.num = s.lap.num) (hus : u.clk.opUs = s.clk.opUs) (hlb : u.lb = s.lb) (hdio : u.dio = s.dio)
        (hstart : lapStart s = ownLap u) : ∃ t, exec .lapStart s = .next t ∧ t.power.state = .run ∧ t.power.role = .solo ∧
           t.lap.num = s.lap.num + 1 ∧ t.lap.running = .lap ∧ t.lap.freezeUs = s.clk.opUs ∧
           (∀ n : Fin 32, t.frz.i.getLsbD (m.iBase + n) = (diFiltered s).getLsbD n) ∧
           t.frz.l = s.lb.lImage ∧ t.bx.acc1 = 0 ∧ t.bx.acc2 = 0 ∧ t.bx.acx = 0 ∧ t.bu.ba = false ∧ t.bu.fc = true ∧
           t.bu.stack = [] ∧ t.dio = s.dio :=
      ⟨ownLap u, congrArg Host.Outcome.next hstart, hu.state.trans hrun, hu.role.trans hrole, hu.num.trans (by rw [hnum]), hu.running, hu.freezeUs.trans hus,
        fun n => by rw [hu.inputs, diFiltered_congr hdio], hu.landing.trans (congrArg Landing.lImage hlb), hu.fresh.acc1, hu.fresh.acc2, hu.fresh.acx, hu.fresh.ba, hu.fresh.fc,
        hu.fresh.stack, hu.outputs.trans hdio⟩
    rcases hstate with ⟨hrun, hrole⟩ | ⟨hhalt, hdemand⟩
    · have hstart : lapStart s = ownLap s := by
        unfold lapStart
        simp only [if_neg hdue, hrun, hrole]
      exact of_begun (ownLap_begun hmould hbase hrole) hrun hrole rfl rfl rfl rfl hstart
    · have hleft := leaveHalt_changes s
      obtain ⟨hrun, hrole⟩ := leaveHalt_run s
      have hpressed : (leaveHalt s).mld.mould = some (m, r) := (congrArg Mld.mould (hleft.get .mld)).trans hmould
      exact of_begun (ownLap_begun hpressed hbase hrole) hrun hrole (hleft.get .lapNum) (hleft.get .opUs)
        (hleft.get .lb) hleft.dio (by rw [lapStart, if_neg hdue, hhalt]; exact if_pos hdemand)
  case idle =>
    refine congrArg Host.Outcome.next ?_
    rcases hopen with hopen | hidle
    · rw [lapCommit, if_pos (by simp [hopen])]
    · rw [lapCommit, hidle]
      exact ite_self s
  case own =>
    obtain ⟨hlater, hactions⟩ := ownCommit_later hrole
    have hclosed := lapClosed_changes (committed s)
    have hcommitted := committed_changes s
    refine ⟨ownCommit s, ?_, ?_, ?_, ?_, fun k => ?_, hactions, ?_⟩
    · refine congrArg Host.Outcome.next ?_
      rw [lapCommit, if_neg (by simp [hended]), hrunning]
    · exact hlater.get .running
    · exact (hlater.get .lapNum).trans ((hclosed.get .lapNum).trans (hcommitted.get .lapNum))
    · obtain ⟨-, hlast⟩ := hlater.get .lapTimes
      obtain ⟨hfreeze, -⟩ := hcommitted.get .lapTimes
      have hus : (committed s).clk.opUs = s.clk.opUs := hcommitted.get .opUs
      have hwt : (ownCommit s).ctx.wtEndUs = (committed s).ctx.wtEndUs := (hlater.get .wtEnd).trans (hclosed.get .wtEnd)
      rw [hlast, hwt, ← hus, ← hfreeze]
      rfl
    · have hcmd : (ownCommit s).dio.cmd = qOutputs s :=
        (hlater.get .cmd).trans ((hclosed.get .cmd).trans (((committed_later s).get .cmd).trans (commitOutputs_cmd s)))
      rw [hcmd, qOutputs, BitVec.getLsbD_extractLsb']
      simp
    · exact (hlater.get .prog).trans ((hclosed.get .prog).trans (hcommitted.get .prog))
  case trial =>
    obtain ⟨hacted, hruns⟩ := trialActions (s.ctx.actions.filter trialKeeps) s fun a ha => (List.mem_filter.1 ha).2
    refine ⟨trialCommit s, ?_, ?_⟩
    · refine congrArg Host.Outcome.next ?_
      rw [lapCommit, if_neg (by simp [hended]), hrunning]
    · have hdio := hacted.dio
      generalize hu : List.foldl carryOut s _ = u at hruns hdio
      have hcount : (trialClosed u).edit.trialRun = s.edit.trialRun + 1 := congrArg (· + 1) hruns
      rw [trialCommit_eq hu]
      split
      · obtain ⟨hidle, hout, hcounts⟩ := endTrial_idle 0 0 (s := trialClosed u) rfl
        exact ⟨hidle, hout.trans hdio, hcounts.trans hcount⟩
      · exact ⟨rfl, hdio, hcount⟩

end
end Sys2Proof.Machine
end

section
/-! PROOF. SAFE SERVICE is entered (R80 to R82), as by the faults of a lap (R135, R159). -/

namespace Sys2Proof.Machine

section
set_option Elab.async false

/-! ### SAFE SERVICE entered -/

/-- The lap, metering and the domains stopped, as the entry begins. -/
def safeStopped (s : State) : State :=
  domainsOff [8, 7, 3, 2, 4] (stopLap (holdAtEntry (freezeMeter 1 { s with power := { s.power with
    ssArmed := watched s, ssPdOn := s.power.pdOn } })))

def safeStopParts : List Part := .running :: .bu :: .bx :: .rfx :: .ctxRest :: .frozen :: .mram :: .causes :: offParts

theorem safeStopped_changes (s : State) : Changes safeStopParts s (safeStopped s) := by
  have hhold (u : State) : Changes [.rfx] u (holdAtEntry u) := by
    unfold holdAtEntry holdCommand
    exact .ite .of (.refl _ u)
  exact (((((Changes.refl _ s).also [.causes]).trans (freezeMeter_changes 1 _)).trans (hhold _)).trans (stopLap_changes _)).trans
    (domainsOff_changes ..)

theorem safeStopped_idle (s : State) : (safeStopped s).lap.running = .idle := (domainsOff_changes ..).get .running

/-- The domains that SAFE SERVICE keeps off. -/
theorem safeStopped_pdOn (s : State) : ∀ d ∈ [2, 3, 4, 7, 8], (safeStopped s).power.pdOn.getLsbD d = false := by
  rw [safeStopped, domainsOff_pdOn]
  simp [getLsbD_setBit]

/-- PD5, the drivers, PD6 and PD11 on, with no flood of a flush before. -/
def safeServed (s : State) : State := domainOn 11 (serviceOn { safeStopped s with sw := { (safeStopped s).sw with flood := false } })

theorem safeServed_changes (s : State) : Changes (.sw :: .sby :: serviceParts) (safeStopped s) (safeServed s) :=
  (((Changes.refl _ (safeStopped s)).also [.sw]).trans (serviceOn_changes _)).trans (domainOn11_changes _)

theorem domainOn_pdOn_ne {d e : Nat} (hd : d < 12) (h : e ≠ d) (s : State) :
    (domainOn d s).power.pdOn.getLsbD e = s.power.pdOn.getLsbD e := by
  have hpower : (resetDomain d s).power = s.power := resetDomain_changes_power d s
  unfold domainOn
  split
  · rfl
  · simp [getLsbD_setBit _ _ _ _ hd, h, hpower]

theorem safeServed_pdOn (s : State) : ∀ d ∈ [2, 3, 4, 7, 8], (safeServed s).power.pdOn.getLsbD d = false := by
  intro d hd
  have hne : d ≠ 5 ∧ d ≠ 6 ∧ d ≠ 11 := by
    rcases List.mem_cons.1 hd with rfl | hd
    · decide
    · revert d; decide
  obtain ⟨h5, h6, h11⟩ := hne
  have hstopped := safeStopped_pdOn s d hd
  rw [safeServed, domainOn_pdOn_ne (by decide) h11, serviceOn, domainOn_pdOn_ne (by decide) h6]
  exact (domainOn_pdOn_ne (by decide) h5 _).trans hstopped

/-- The unit in SAFE SERVICE with its lanes disarmed and unpaired. -/
def safeEntered (cause : Nat) (s : State) : State :=
  let s2 := safeState cause s
  { s2 with
    mgt := { s2.mgt with wdA := { s2.mgt.wdA with armed := false }, wdB := { s2.mgt.wdB with armed := false } }
    mld := { s2.mld with repress := none }
    sby := { s2.sby with cond := .unpaired, window := false }
    sbx := { ({} : SbyCtx) with held := s2.sbx.held } }

theorem safeEntered_changes (cause : Nat) (s : State) :
    Changes [.opState, .role, .transit, .history, .causes, .watchdogs, .mld, .sby, .sbx] s (safeEntered cause s) := by
  unfold safeEntered safeState
  exact .of

theorem enterSafe_eq (cause detail : Nat) (s : State) : enterSafe cause detail s =
    checkTable (safeCut (sj 0x106 2 (item cause ++ item detail)
      (sjStateChange s.power.state .safeService (safeEntered cause (safeServed s))))) := by
  unfold enterSafe
  lift_lets
  intro old power0 seen s1 sw1 s2 mgt2 wdA2 wdB2 mld2 sby2 sbx2 s3
  have h2 : s2 = safeState cause (safeServed s) := rfl
  have h3 : s3 = safeEntered cause (safeServed s) := by
    rw [safeEntered, ← h2]
  rw [← h3]

theorem safeCut_changes (s : State) : Changes cutParts s (safeCut s) := (reportLost_changes s).mono.trans (asyncCut_changes _)

/-- What follows the entry itself: its records, the end of requests, the judgement of the table. -/
theorem enterSafe_tail (cause detail : Nat) (s : State) :
    Changes (.saf :: cutParts) (safeEntered cause (safeServed s)) (enterSafe cause detail s) := by
  rw [enterSafe_eq]
  exact (((sjStateChange_changes ..).mono.trans (sj_changes ..)).trans (safeCut_changes _)).trans (checkTable_changes _)

def safeParts : List Part := .opState :: .role :: .transit :: .history :: .watchdogs :: .mld :: .sby :: .sbx :: .saf :: .refusals ::
  .pxReport :: .pxPending :: .pxSeq :: .pxLast :: .responses :: .svcOut :: .pxOut :: .pdUs :: .drivers :: .cmd :: .dioRest :: .dioc :: .tbl ::
  safeStopParts

theorem enterSafe_changes (cause detail : Nat) (s : State) : Changes safeParts s (enterSafe cause detail s) :=
  (((safeStopped_changes s).mono.trans (safeServed_changes s)).trans (safeEntered_changes cause _)).trans (enterSafe_tail cause detail s)

theorem enterSafe_inSafeService {cause : Nat} (hpos : 0 < cause) (hle : cause ≤ 10) (detail : Nat) (s : State) :
    Safety.inSafeService cause (enterSafe cause detail s) := by
  have htail := enterSafe_tail cause detail s
  obtain ⟨hcauses, hfirst, -⟩ := htail.get .causes
  refine ⟨htail.get .opState, htail.get .role, hfirst, fun i => ?_, ?_, fun d hd => ?_⟩
  · rw [hcauses]
    change (setBit 0 (cause - 1) true).getLsbD i = decide (i.val + 1 = cause)
    rw [getLsbD_setBit _ _ _ _ (by omega)]
    by_cases h : i.val + 1 = cause
    · simp [← h]
    · simp [h, show i.val ≠ cause - 1 by omega]
  · exact (htail.get .running).trans (((safeEntered_changes cause _).get .running).trans
      (((safeServed_changes s).get .running).trans (safeStopped_idle s)))
  · rw [htail.get .pdOn, (safeEntered_changes cause _).get .pdOn]
    exact safeServed_pdOn s d hd

theorem safeService_of_entry {cause detail : Nat} {s : State} (h : s.power.state = .bringUp ∨ s.power.state = .run ∨ s.power.state = .halt) :
    safeService cause detail s = enterSafe cause detail s := by
  unfold safeService
  rcases h with h | h | h <;> rw [h]

/-! ### A lap abandoned (R135, R159) -/

theorem lapFaulted_run {code cause : Nat} {s : State} (hrun : s.power.state = .run) (hpos : 0 < cause) (hle : cause ≤ 10) :
    Safety.inSafeService cause (lapFaulted code cause s) ∧ (lapFaulted code cause s).lap.fault = BitVec.ofNat 16 code := by
  have hnoted (items : Bytes) : Changes bookParts (noteFault code s) (sj code 2 items (noteFault code s)) := sj_changes ..
  unfold lapFaulted
  dsimp only
  specialize hnoted (item s.bx.pos.typ.toNat ++ item s.bx.pos.number ++ item s.bx.pos.offset)
  generalize sj _ _ _ (noteFault code s) = u at hnoted ⊢
  have hstate : u.power.state = .run := (hnoted.get .opState).trans hrun
  have hlap : u.lap = (noteFault code s).lap := hnoted.lap
  rw [safeService_of_entry (.inr (.inl hstate))]
  refine ⟨enterSafe_inSafeService hpos hle _ _, ?_⟩
  have hkept : Part.Same .lapRest _ _ := (enterSafe_changes cause code u).get .lapRest
  simp only [Part.Same] at hkept
  rw [hkept, hlap]
  rfl

theorem lapAbort_run (f : LapFault) {s : State} (hrun : s.power.state = .run) (hlap : inTrial s = false) :
    Safety.inSafeService (lapFaultCause f) (lapAbort f s) ∧
      (lapFaultCode f ≠ 0x230 → (lapAbort f s).lap.fault = BitVec.ofNat 16 (lapFaultCode f)) := by
  have hfaulted (hcause : 0 < lapFaultCause f ∧ lapFaultCause f ≤ 10) (hnot : lapAbort f s = lapFaulted (lapFaultCode f) (lapFaultCause f) s) :
      Safety.inSafeService (lapFaultCause f) (lapAbort f s) ∧
      (lapFaultCode f ≠ 0x230 → (lapAbort f s).lap.fault = BitVec.ofNat 16 (lapFaultCode f)) := by
    obtain ⟨hsafe, hfault⟩ := lapFaulted_run (code := lapFaultCode f) hrun hcause.1 hcause.2
    rw [hnot]
    exact ⟨hsafe, fun _ => hfault⟩
  cases f with
  | parity a w =>
    have hsaid (items : Bytes) : Changes (.bu :: bookParts) s (sj 0x230 2 items { s with bu := { s.bu with parity := true } }) :=
      ((Changes.refl _ s).also [.bu]).trans (sj_changes ..)
    refine ⟨?_, fun h => absurd rfl h⟩
    unfold lapAbort
    dsimp only
    specialize hsaid (item (areaCode a) ++ item w)
    generalize sj 0x230 2 (item (areaCode a) ++ item w) _ = u at hsaid ⊢
    rw [hlap, if_neg (by simp), safeService_of_entry (.inr (.inl ((hsaid.get .opState).trans hrun)))]
    exact enterSafe_inSafeService (show 0 < 5 by decide) (show 5 ≤ 10 by decide) _ _
  | callDepth => exact hfaulted (by decide) (if_neg (by simp [hlap]))
  | indexRange => exact hfaulted (by decide) (if_neg (by simp [hlap]))
  | writeProtected => exact hfaulted (by decide) (if_neg (by simp [hlap]))
  | branchOverflow => exact hfaulted (by decide) (if_neg (by simp [hlap]))
  | divideTrap => exact hfaulted (by decide) (if_neg (by simp [hlap]))

end
end Sys2Proof.Machine
end

section
/-! PROOF. What abandons a lap from within an instruction (R134, R135, R156, R158, R159, R170, R175, R181). -/

namespace Sys2Proof.Machine

section
set_option Elab.async false

/-- An instruction of a lap in RUN that ends in a fault, found in a state whose power block and lap are the lap's, stops as the fault says. -/
theorem stops_of_lapAbort {c : Instr} {f : LapFault} {s u : State} (hexec : exec c s = .next (lapAbort f u))
    (hrun : s.power.state = .run) (hlap : s.lap.running = .lap ∨ s.lap.running = .shadow)
    (hpower : u.power = s.power) (hsame : u.lap = s.lap) :
    ∃ t, exec c s = .next t ∧ Safety.inSafeService (lapFaultCause f) t ∧
      (BitVec.ofNat 16 (lapFaultCode f) ≠ 0x230 → t.lap.fault = BitVec.ofNat 16 (lapFaultCode f)) := by
  have htrial : inTrial u = false := by
    rw [inTrial, hsame]
    rcases hlap with h | h <;> rw [h] <;> rfl
  obtain ⟨hsafe, hfault⟩ := lapAbort_run f (hpower ▸ hrun) htrial
  exact ⟨_, hexec, hsafe, fun hcode => hfault fun heq => hcode (by rw [heq]; rfl)⟩

section
variable {s u : State} {g : LapFault} {a : Area} {i : Nat}

theorem runSeq_of_error {count : State → State} {n : Nat} {f : State → Lapped} (h : executing s = true) (hf : f (count s) = .error (g, u)) :
    runSeq count n f s = .next (lapAbort g u) := by
  rw [runSeq, if_pos h, hf]
  rfl

theorem runCtl_of_error {count : State → State} {f : State → Lapped} (h : executing s = true) (hf : f (count s) = .error (g, u)) :
    runCtl count f s = .next (lapAbort g u) := by
  rw [runCtl, if_pos h, hf]
  rfl

theorem fetchBit_of_bad (ha : imageArea a = true) (h : s.bu.badParity.contains (a, i / 32) = true) :
    fetchBit a i s = .error (.parity a (i / 32), s) := by
  rw [fetchBit, if_pos (by rw [ha, h]; rfl)]

theorem fetchElem_of_bad {w : Nat} (ha : imageArea a = true) (h : s.bu.badParity.contains (a, i * w / 32) = true) :
    fetchElem w a i s = .error (.parity a (i * w / 32), s) := by
  rw [fetchElem, if_pos (by rw [ha, h]; rfl)]

theorem openOp_full {k : BitVec 3} (hparity : s.bu.badParity.contains (a, i / 32) = false) (hdepth : 16 ≤ s.bu.stack.length) :
    openOp k a i s = .error (.branchOverflow, { s with bu := { s.bu with trap := true, under := false } }) := by
  rw [openOp, fetchBit_of_parity hparity]
  exact if_pos hdepth

end

/-- Settles O29: each clause is a fault of `fetchBit`, `fetchElem` or of the operation itself, met in the counted state. -/
theorem faultsAbandonTheLap : Obligations.FaultsAbandonTheLap := by
  intro a i s h hlap hrun
  have faulted {c : Instr} (f : LapFault) {u : State} (hexec : exec c s = .next (lapAbort f u)) (hpower : u.power = s.power)
      (hsame : u.lap = s.lap) := stops_of_lapAbort hexec hrun hlap hpower hsame
  intro stops n n2 bad
  have reads {mn : String} {run : State → Result} (hread : readable a = true) : checked mn (fun _ => readable a) run s = run s :=
    checked_of_ok hread ..
  have ok {ok : State → Bool} {mn : String} {run : State → Result} (hok : ok s = true) : checked mn ok run s = run s := checked_of_ok hok ..
  refine ⟨fun hread himage hin hbad c hc => ?bits, fun hread himage hin hbad => ?ldi, fun hin hbad => ?edges,
    fun hread himage hfits hbad => ?words, fun hread himage hfits hbad => ?halves, fun hread himage hfits hbad => ?lx32,
    fun hread himage hfits hbad => ?lx16, fun hread hin hparity hdepth => ?opens, fun hstack => ?close, fun hread hout => ?ldiOut,
    fun hwrite hout => ?stiOut, fun hread hwrite => ?protect, fun hread hfits => ?lx32Out, fun hread hfits => ?lx16Out,
    fun hwrite hfits => ?sx32Out, fun hwrite hfits => ?sx16Out, fun hlevel hexists => ?call, fun hlevel hexists => ?calli,
    fun hexists => ?calliOut, fun hzero htrap => ?divide⟩
  case bits =>
    have hok : bitReadable a i.toNat s = true := by simp [bitReadable, hread, hin]
    have hfetch : fetchBit a i.toNat (countBit s) = .error (.parity a (i.toNat / 32), countBit s) := fetchBit_of_bad himage hbad
    have hld (mn : String) (b : Bool → Bool) := (ok (mn := mn) hok).trans (runSeq_of_error (n := 1)
      (f := fun t => do return setBa (b (← fetchBit a i.toNat t)) t) h (by rw [hfetch]; rfl))
    have hcombine (mn : String) (k : BitVec 3) : runCombine mn k a i s = _ :=
      (ok hok).trans (runSeq_of_error h (by rw [combineOp, hfetch]; rfl))
    have hopen (mn : String) (k : BitVec 3) : runOpen mn k a i s = _ := (ok hok).trans (runSeq_of_error h (by rw [openOp, hfetch]; rfl))
    simp only [List.mem_cons, List.not_mem_nil, or_false] at hc
    rcases hc with rfl | rfl | rfl | rfl | rfl | rfl | rfl | rfl | rfl | rfl | rfl | rfl | rfl | rfl
    · exact faulted (.parity a (i.toNat / 32)) (hld "LD" id) rfl rfl
    · exact faulted (.parity a (i.toNat / 32)) (hld "LDN" not) rfl rfl
    · exact faulted (.parity a (i.toNat / 32)) (hcombine "AND" 0) rfl rfl
    · exact faulted (.parity a (i.toNat / 32)) (hcombine "ANDN" 1) rfl rfl
    · exact faulted (.parity a (i.toNat / 32)) (hcombine "OR" 2) rfl rfl
    · exact faulted (.parity a (i.toNat / 32)) (hcombine "ORN" 3) rfl rfl
    · exact faulted (.parity a (i.toNat / 32)) (hcombine "XOR" 4) rfl rfl
    · exact faulted (.parity a (i.toNat / 32)) (hcombine "XORN" 5) rfl rfl
    · exact faulted (.parity a (i.toNat / 32)) (hopen "OPEN_AND" 0) rfl rfl
    · exact faulted (.parity a (i.toNat / 32)) (hopen "OPEN_ANDN" 1) rfl rfl
    · exact faulted (.parity a (i.toNat / 32)) (hopen "OPEN_OR" 2) rfl rfl
    · exact faulted (.parity a (i.toNat / 32)) (hopen "OPEN_ORN" 3) rfl rfl
    · exact faulted (.parity a (i.toNat / 32)) (hopen "OPEN_XOR" 4) rfl rfl
    · exact faulted (.parity a (i.toNat / 32)) (hopen "OPEN_XORN" 5) rfl rfl
  case ldi =>
    refine faulted (.parity a (n / 32)) ((reads hread).trans (runSeq_of_error (u := countBitWord s) h ?_)) rfl rfl
    refine (if_pos hin).trans ?_
    rw [fetchBit_of_bad (s := countBitWord s) (i := indexAt i (countBitWord s).bx.acc1) himage hbad]
    rfl
  case edges =>
    have hok : decide (i.toNat < 16384) = true := decide_eq_true hin
    have hedge (mn : String) (rising : Bool) := (ok (mn := mn) (ok := fun _ => decide (i.toNat < 16384)) hok).trans
      (runSeq_of_error (n := 1) (f := edgeOp rising i.toNat) h (by rw [edgeOp, fetchBit_of_bad (s := countBit s) rfl hbad]; rfl))
    exact ⟨faulted (.parity .e (i.toNat / 32)) (hedge "FP" true) rfl rfl, faulted (.parity .e (i.toNat / 32)) (hedge "FN" false) rfl rfl⟩
  case words =>
    have hload (mn : String) (put : Word → State → State) : runLoad mn 32 put a i s = _ :=
      (ok (by simp [elemReadable, hread, hfits])).trans (runSeq_of_error h (by rw [fetchElem_of_bad (s := countWord s) himage hbad]; rfl))
    exact ⟨faulted (.parity a (i.toNat * 32 / 32)) (hload "L32" setAcc1) rfl rfl, faulted (.parity a (i.toNat * 32 / 32)) (hload "LO32" setAcc2) rfl rfl⟩
  case halves =>
    have hload (mn : String) (put : Word → State → State) : runLoad mn 16 put a i s = _ :=
      (ok (by simp [elemReadable, hread, hfits])).trans (runSeq_of_error h (by rw [fetchElem_of_bad (s := countWord s) himage hbad]; rfl))
    exact ⟨faulted (.parity a (i.toNat * 16 / 32)) (hload "L16" setAcc1) rfl rfl, faulted (.parity a (i.toNat * 16 / 32)) (hload "LO16" setAcc2) rfl rfl⟩
  case lx32 =>
    refine faulted (.parity a (n * 32 / 32)) ((reads hread).trans (runSeq_of_error (u := countWord s) h ?_)) rfl rfl
    refine (if_pos hfits).trans ?_
    rw [fetchElem_of_bad (s := countWord s) (i := indexAt i (countWord s).bx.acc1) himage hbad]
    rfl
  case lx16 =>
    refine faulted (.parity a (n * 16 / 32)) ((reads hread).trans (runSeq_of_error (u := countWord s) h ?_)) rfl rfl
    refine (if_pos hfits).trans ?_
    rw [fetchElem_of_bad (s := countWord s) (i := indexAt i (countWord s).bx.acc1) himage hbad]
    rfl
  case opens =>
    have hok : bitReadable a i.toNat s = true := by simp [bitReadable, hread, hin]
    have hopen (mn : String) (k : BitVec 3) : runOpen mn k a i s = _ :=
      (ok hok).trans (runSeq_of_error h (openOp_full (s := countBit s) hparity hdepth))
    exact ⟨faulted .branchOverflow (hopen "OPEN_AND" 0) rfl rfl, faulted .branchOverflow (hopen "OPEN_ANDN" 1) rfl rfl, faulted .branchOverflow (hopen "OPEN_OR" 2) rfl rfl,
      faulted .branchOverflow (hopen "OPEN_ORN" 3) rfl rfl, faulted .branchOverflow (hopen "OPEN_XOR" 4) rfl rfl, faulted .branchOverflow (hopen "OPEN_XORN" 5) rfl rfl⟩
  case close =>
    refine faulted .branchOverflow (runSeq_of_error (u := { countBit s with bu := { (countBit s).bu with trap := true, under := true } }) h ?_) rfl rfl
    rw [closeOp, show (countBit s).bu.stack = [] from hstack]
  case ldiOut =>
    refine faulted .indexRange (u := countBitWord s) ((reads hread).trans (runSeq_of_error h ?_)) rfl rfl
    exact if_neg (Nat.not_lt.2 hout)
  case stiOut =>
    have hread : readable a = true := by cases a <;> first | rfl | cases hwrite
    refine faulted .indexRange (u := countBitWord s) ((reads hread).trans (runSeq_of_error h ?_)) rfl rfl
    exact (if_neg (by simp [hwrite])).trans (if_neg (Nat.not_lt.2 hout))
  case protect =>
    have hsx (mn : String) (w : Nat) : runStoreX mn w a i s = .next (lapAbort .writeProtected (countWord s)) :=
      (reads hread).trans (runSeq_of_error h (if_pos (by simp [hwrite])))
    refine ⟨faulted .writeProtected (u := countBitWord s) ((reads hread).trans (runSeq_of_error h ?_)) rfl rfl,
      faulted .writeProtected (hsx "SX32" 32) rfl rfl, faulted .writeProtected (hsx "SX16" 16) rfl rfl⟩
    exact if_pos (by simp [hwrite])
  case lx32Out =>
    refine faulted .indexRange (u := countWord s) ((reads hread).trans (runSeq_of_error h ?_)) rfl rfl
    exact if_neg (Bool.eq_false_iff.1 hfits)
  case lx16Out =>
    refine faulted .indexRange (u := countWord s) ((reads hread).trans (runSeq_of_error h ?_)) rfl rfl
    exact if_neg (Bool.eq_false_iff.1 hfits)
  case sx32Out =>
    have hread : readable a = true := by cases a <;> first | rfl | cases hwrite
    refine faulted .indexRange (u := countWord s) ((reads hread).trans (runSeq_of_error h ?_)) rfl rfl
    exact (if_neg (by simp [hwrite])).trans (if_neg (Bool.eq_false_iff.1 hfits))
  case sx16Out =>
    have hread : readable a = true := by cases a <;> first | rfl | cases hwrite
    refine faulted .indexRange (u := countWord s) ((reads hread).trans (runSeq_of_error h ?_)) rfl rfl
    exact (if_neg (by simp [hwrite])).trans (if_neg (Bool.eq_false_iff.1 hfits))
  case call =>
    refine faulted .callDepth (u := countWord s) ((ok hexists).trans (runCtl_of_error h ?_)) rfl rfl
    exact if_pos hlevel
  case calli =>
    have hcall : execCalli s = .next (lapAbort .callDepth (countWord s)) := by
      refine runCtl_of_error h ?_
      exact (if_pos hexists).trans (if_pos hlevel)
    exact faulted .callDepth hcall rfl rfl
  case calliOut =>
    have hcall : execCalli s = .next (lapAbort .indexRange (countWord s)) := by
      refine runCtl_of_error h ?_
      exact if_neg (Bool.eq_false_iff.1 hexists)
    exact faulted .indexRange hcall rfl rfl
  case divide =>
    have hdiv (quot : Word → Word) (f : Bool → Word → Word → Res) :
        runDiv quot f s = .next (lapAbort .divideTrap (countWord s)) := by
      refine runSeq_of_error h ?_
      rw [if_pos (show (countWord s).bx.acc2 = 0 from hzero), if_pos (show trapDz (countWord s) = true from htrap)]
    exact ⟨faulted .divideTrap (hdiv (divZeroQuot true) (resDiv true)) rfl rfl,
      faulted .divideTrap (hdiv (fun a => a) (fun _ => resMod true)) rfl rfl,
      faulted .divideTrap (hdiv (divZeroQuot false) (resDiv false)) rfl rfl,
      faulted .divideTrap (hdiv (fun a => a) (fun _ => resMod false)) rfl rfl⟩

end
end Sys2Proof.Machine
end

section
/-! PROOF. System blocks (R141 to R143, R150, R172, R173). -/

namespace Sys2Proof.Machine

section
set_option Elab.async false

/-- A lap whose Mould gives D 20,000 KiB, more than data memory holds, about to call a block with its record at 16 MiB. -/
def recordBeyondMemory : State := { State.reset with
  lap := { State.reset.lap with running := .lap, num := 1 }
  mld := { State.reset.mld with mould := some ({}, { dSizeKib := 20000 }) }
  bx := { State.reset.bx with acc1 := 0x1000000 } }

/-- ACC1 after an instruction that comes to a next state. -/
def nextAcc1 : Result → Option Word
  | .next t => some t.bx.acc1
  | _ => none

theorem lapInfo_lost : nextAcc1 (exec .lapInfo recordBeyondMemory) = some 0 := by decide

/-- Refutes O38: the state type does not bound the size of D, and neither does the form of the stores. With a D of 20,000 KiB the record
of LAP_INFO at 16 MiB fits it; its results are not held, so ACC1 becomes 0 in lap 1, where the first result is 1. -/
theorem not_systemBlocksAndTimers : ¬ Obligations.SystemBlocksAndTimers := by
  rintro ⟨hblocks, -⟩
  obtain ⟨-, -, -, -, -, hinfo, -⟩ := hblocks recordBeyondMemory (by decide) resetHasCanonicalStores
  have hanswer := (hinfo ⟨by decide, by decide⟩).1 _ (List.mem_cons_self ..)
  have hacc := lapInfo_lost
  rw [hanswer] at hacc
  exact absurd hacc (by decide)

end
end Sys2Proof.Machine
end

section
/-! PROOF. The system blocks that act (R125, R129, R172). -/

namespace Sys2Proof.Machine

section
set_option Elab.async false

/-- A lap of a leader that resynchronises its pacer, about to call a block with its record at the start of D. -/
def actsWhileResynchronising : State := { State.reset with
  lap := { State.reset.lap with running := .lap }
  power := { State.reset.power with role := .leader }
  sbx := { State.reset.sbx with rsActive := true } }

/-- The pages noted as written since the resynchronisation's last pass (R217), after an instruction that comes to a next state. -/
def nextWritten : Result → Option (List Nat)
  | .next t => some t.sbx.written
  | _ => none

theorem panelLock_writes : nextWritten (exec .panelLock actsWhileResynchronising) = some [22] := by decide

/-- Refutes O39: a block without results still ends by writing its empty list of results to its record, and a write of no bytes that does
not start at a page notes the page it would start in. So the call changes what a leader that resynchronises has still to send, beside the
action that waits. -/
theorem not_systemBlockActionsWaitForTheCommit : ¬ Obligations.SystemBlockActionsWaitForTheCommit := by
  intro h
  obtain ⟨-, -, -, -, -, -, -, -, -, -, -, -, -, -, hlock⟩ := h actsWhileResynchronising (by decide)
  have hnext := (hlock (by decide) (by decide) _ (List.mem_cons_self ..)).1 trivial
  have hwritten := panelLock_writes
  rw [hnext] at hwritten
  exact absurd hwritten (by decide)

end
end Sys2Proof.Machine
end

section
/-! PROOF. Requests as they are checked (R90 to R93, R371, R372, R374). -/

namespace Sys2Proof.Machine

section
set_option Elab.async false

/-- The state in which a request is served: only its arrival is noted. -/
def arrivalParts : List Part := .svc :: .pxPending :: bookParts

theorem arrives_changes {via : Via} {s u : State} {a : Asked} {body : Bytes} (h : Safety.arrives via s = some (a, body, u)) :
    Changes arrivalParts s u := by
  unfold Safety.arrives at h
  split at h
  · split at h
    · split at h
      · cases h
        unfold svcHeard svcTaken
        exact .of
      · cases h
    · cases h
  · split at h
    · cases h
    · next q rest _ =>
      split at h
      · cases h
        exact .ite (((Changes.refl _ s).also [.pxPending]).trans (drop1_changes ..)) (.also (.refl _ s) [.pxPending])
      · cases h
  · cases h
  · cases h

theorem arrives_awake {via : Via} {s u : State} {a : Asked} {body : Bytes} (h : Safety.arrives via s = some (a, body, u)) :
    awake s = true := by
  unfold Safety.arrives at h
  split at h
  · split at h
    · next hopen => exact hopen.1
    · cases h
  · split at h
    · cases h
    · split at h
      · next hawake => exact hawake.1
      · cases h
  · cases h
  · cases h

/-- What arrives reaches the row that takes it. -/
theorem request_of_arrives {via : Via} {s u : State} {a : Asked} {body : Bytes} (h : Safety.arrives via s = some (a, body, u))
    {row : ReqRow} {argsOk : Bytes → Bool} {f : Req → State → State} {blockOk : Req → State → Bool}
    (htakes : rowTakes row { asked := a, body := body } s = true) :
    request row argsOk f via s blockOk = serve row argsOk blockOk f { asked := a, body := body } u := by
  unfold Safety.arrives at h
  split at h
  · next f' =>
    split at h
    · next hopen =>
      obtain ⟨hawake, hsvc, hbuf, hpending, hreport⟩ := hopen
      split at h
      · next b rest hscan =>
        cases h
        have hwaits : ¬ (s.px.pending ≠ [] ∨ reportAwaited s = true) := by simpa [hpending] using hreport
        unfold request
        dsimp only
        rw [if_neg (by simp [hawake, hsvc]), hbuf, List.nil_append, hscan]
        dsimp only
        rw [if_neg (by simpa using htakes), if_neg hwaits]
        rfl
      · cases h
    · cases h
  · next =>
    split at h
    · cases h
    · next q rest hpending =>
      split at h
      · next hfree =>
        obtain ⟨hawake, hreport⟩ := hfree
        cases h
        unfold request
        dsimp only
        rw [hpending]
        dsimp only
        rw [if_pos ⟨hawake, hreport, htakes⟩]
        rfl
      · cases h
  · cases h
  · cases h

/-- An operation stands first among the arguments. -/
theorem leAt_drop (bs : Bytes) (m n : Nat) : leAt (bs.drop m) 0 n = leAt bs m n := by
  simp [leAt, slice, List.drop_drop]

/-- A row of R375 whose CODE is known, with an operation that the CODE has where it has several. -/
def RowStands (row : ReqRow) : Prop :=
  (argLenOk row.code 0 0).isSome = true ∧ row.code ≠ 0x20 ∧ match row.op with
    | some k => opKnown row.code k = true
    | none => ∀ k, opKnown row.code k = true

section
variable {row : ReqRow} {argsOk : Bytes → Bool} {f : Req → State → State} {blockOk : Req → State → Bool} {a : Asked} {body : Bytes}
  {s u : State}

/-- A request of the row's CODE and operation, or one of a wrong length, is the row's. -/
theorem rowTakes_of_code (hcode : leAt body 0 1 = row.code)
    (hright : bodyLenOk body = false ∨ row.op = none ∨ row.op = some (leAt body 8 1)) :
    rowTakes row { asked := a, body := body } s = true := by
  have hop : ({ asked := a, body := body } : Req).op = leAt body 8 1 := leAt_drop body 8 1
  have hcode' : ({ asked := a, body := body } : Req).code = row.code := hcode
  unfold rowTakes
  rw [hop, hcode']
  rcases hright with hlen | hnone | hsome
  · simp [hlen]
  · simp [hnone]
  · simp [hsome]

theorem serve_badLength (hlen : bodyLenOk body = false) : serve row argsOk blockOk f { asked := a, body := body } u = respond a 0x11 [] u := by
  rw [serve, if_pos (by simp [hlen])]

theorem serve_waits (hlen : bodyLenOk body = true) (hwaits : u.power.transit ≠ .none) (hstate : leAt body 0 1 ≠ 1)
    (hlog : leAt body 0 1 ≠ 0xC) : serve row argsOk blockOk f { asked := a, body := body } u = respond a 0x20 [] u := by
  rw [serve, if_neg (by simp [hlen]), if_pos ⟨hwaits, hstate, hlog⟩]

section
variable (hlen : bodyLenOk body = true) (hfree : u.power.transit = .none ∨ leAt body 0 1 = 1 ∨ leAt body 0 1 = 0xC)
include hlen hfree

/-- A request whose length is right while nothing waits meets the rules of its arguments. -/
theorem serve_of_free : serve row argsOk blockOk f { asked := a, body := body } u =
    if !codeKnown (leAt body 0 1) u ∨ nth 0 body 1 ≠ 0 ∨ !opKnown (leAt body 0 1) (leAt body 8 1) ∨ !argsOk (body.drop 8) ∨
        !blockOk { asked := a, body := body } u then respond a 0x10 [] u
    else match nth 1 row.legal (legalColumn u) with
      | 0 => f { asked := a, body := body } u
      | 1 => refuse { asked := a, body := body } 0x21 1 u
      | _ => refuse { asked := a, body := body } 0x22 2 u := by
  have hop : ({ asked := a, body := body } : Req).op = leAt body 8 1 := leAt_drop body 8 1
  have hready : ¬ (u.power.transit ≠ .none ∧ leAt body 0 1 ≠ 1 ∧ leAt body 0 1 ≠ 0xC) := by tauto
  rw [serve, if_neg (by simp [hlen])]
  refine (if_neg hready).trans ?_
  rw [hop]
  rfl

theorem serve_badArgs (hbad : nth 0 body 1 ≠ 0 ∨ argsOk (body.drop 8) = false ∨ blockOk { asked := a, body := body } u = false) :
    serve row argsOk blockOk f { asked := a, body := body } u = respond a 0x10 [] u := by
  rw [serve_of_free hlen hfree, if_pos]
  rcases hbad with h | h | h
  · exact .inr (.inl h)
  · exact .inr (.inr (.inr (.inl (by simp [h]))))
  · exact .inr (.inr (.inr (.inr (by simp [h]))))

/-- A request that meets every rule but the row of R92 is judged by that row. -/
theorem serve_of_right (hstands : RowStands row) (hcode : leAt body 0 1 = row.code) (hop : row.op = none ∨ row.op = some (leAt body 8 1))
    (hflags : nth 0 body 1 = 0) (hargs : argsOk (body.drop 8) = true) (hrules : blockOk { asked := a, body := body } u = true) :
    serve row argsOk blockOk f { asked := a, body := body } u = match nth 1 row.legal (legalColumn u) with
      | 0 => f { asked := a, body := body } u
      | 1 => refuse { asked := a, body := body } 0x21 1 u
      | _ => refuse { asked := a, body := body } 0x22 2 u := by
  obtain ⟨hknown, hnot, hops⟩ := hstands
  have hcodeKnown : codeKnown (leAt body 0 1) u = true := by simp [codeKnown, hcode, hknown, hnot]
  have hopKnown : opKnown (leAt body 0 1) (leAt body 8 1) = true := by
    rw [hcode]
    rcases hop with h | h
    · rw [h] at hops; exact hops _
    · rw [h] at hops; exact hops
  rw [serve_of_free hlen hfree, if_neg]
  rintro (h | h | h | h | h)
  · simp [hcodeKnown] at h
  · exact h hflags
  · simp [hopKnown] at h
  · simp [hargs] at h
  · simp [hrules] at h

end

end

end
end Sys2Proof.Machine
end

section
/-! PROOF. What every request meets before it acts (R90 to R93). -/

namespace Sys2Proof.Machine

section
set_option Elab.async false

/-- The answer of a refusal by R92, with its record and its count. -/
def refusalOf (a : Asked) (code : Nat) (st : Byte) (reason : Nat) (s u : State) : State :=
  respond a st [] (sj 0x110 1 (item code ++ item a.path.toNat ++ item st.toNat ++ item reason ++ item (stateCode s.power.state) ++
    item (roleCode s.power.role)) { u with power := { u.power with refusals := satInc u.power.refusals } })

theorem refuse_eq {a : Asked} {body : Bytes} {s u : State} (hpower : u.power = s.power) {code : Nat} (hcode : leAt body 0 1 = code)
    (st : Byte) (reason : Nat) : refuse { asked := a, body := body } st reason u = refusalOf a code st reason s u := by
  have hcode' : ({ asked := a, body := body } : Req).code = code := hcode
  rw [refuse, refusalNote, hcode', refusalOf, ← hpower]
  rfl

/-- The checks of R90 to R93 for one row, of which `ok` says whether the block's own rule admits the request. -/
theorem request_checked {via : Via} {s u : State} {a : Asked} {body : Bytes} (harr : Safety.arrives via s = some (a, body, u)) (c : Instr)
    (row : ReqRow) (argsOk : Bytes → Bool) (f : Req → State → State) (blockOk : Req → State → Bool)
    (hexec : exec c s = .next (request row argsOk f via s blockOk)) (hstands : RowStands row) (hcode : leAt body 0 1 = row.code)
    {ok : Bool} (hrules : ok = blockOk { asked := a, body := body } u) :
    let right := bodyLenOk body = true ∧ (row.op = none ∨ row.op = some (leAt body 8 1))
    let free := s.power.transit = .none ∨ row.code = 1 ∨ row.code = 0xC
    (bodyLenOk body = false → exec c s = .next (respond a 0x11 [] u)) ∧
    (right → ¬ free → exec c s = .next (respond a 0x20 [] u)) ∧
    (right → free → nth 0 body 1 ≠ 0 ∨ argsOk (body.drop 8) = false ∨ ok = false → exec c s = .next (respond a 0x10 [] u)) ∧
    (right → free → nth 0 body 1 = 0 → argsOk (body.drop 8) = true → ok = true →
      (nth 1 row.legal (legalColumn s) = 1 → exec c s = .next (refusalOf a row.code 0x21 1 s u)) ∧
      (nth 1 row.legal (legalColumn s) = 2 → exec c s = .next (refusalOf a row.code 0x22 2 s u))) := by
  intro right free
  have hpower := (arrives_changes harr).power
  have hserved (hright : bodyLenOk body = false ∨ row.op = none ∨ row.op = some (leAt body 8 1)) :
      exec c s = .next (serve row argsOk blockOk f { asked := a, body := body } u) :=
    hexec.trans (congrArg Host.Outcome.next (request_of_arrives harr (rowTakes_of_code hcode hright)))
  have hfrees (h : free) : u.power.transit = .none ∨ leAt body 0 1 = 1 ∨ leAt body 0 1 = 0xC := by rw [hpower, hcode]; exact h
  have hcolumn : legalColumn u = legalColumn s := by rw [legalColumn, legalColumn, hpower]
  refine ⟨fun hlen => ?_, fun hright hwaits => ?_, fun hright hfree hbad => ?_, fun hright hfree hflags hargs hok => ?_⟩
  · rw [hserved (.inl hlen), serve_badLength hlen]
  · obtain ⟨hlen, hop⟩ := hright
    simp only [free, not_or] at hwaits
    obtain ⟨htransit, hstate, hlog⟩ := hwaits
    rw [hserved (.inr hop), serve_waits hlen (by rwa [hpower]) (by rwa [hcode]) (by rwa [hcode])]
  · obtain ⟨hlen, hop⟩ := hright
    rw [hserved (.inr hop), serve_badArgs hlen (hfrees hfree) (by rwa [← hrules])]
  · obtain ⟨hlen, hop⟩ := hright
    have hjudged := serve_of_right (f := f) hlen (hfrees hfree) hstands hcode hop hflags hargs (hrules.symm.trans hok)
    rw [hcolumn] at hjudged
    refine ⟨fun hlegal => ?_, fun hlegal => ?_⟩
    · rw [hlegal] at hjudged
      rw [hserved (.inr hop), hjudged, ← refuse_eq hpower hcode]
      rfl
    · rw [hlegal] at hjudged
      rw [hserved (.inr hop), hjudged, ← refuse_eq hpower hcode]
      rfl

/-- Settles O40: every row of the table is `request_checked` of the model's row. -/
theorem requestsAreCheckedInOrder : Obligations.RequestsAreCheckedInOrder := by
  intro via s u a body harr col rows r ruled row hrow hcode
  have hcol : col = legalColumn s := by
    simp only [col, legalColumn]
    cases s.power.state <;> first | rfl | (cases s.power.role <;> rfl)
  rw [hcol]
  have checked := fun c => request_checked harr c
  simp only [rows, List.mem_cons, List.not_mem_nil, or_false] at hrow
  rcases hrow with rfl | rfl | rfl | rfl | rfl | rfl | rfl | rfl | rfl | rfl | rfl | rfl | rfl | rfl | rfl | rfl | rfl | rfl | rfl | rfl | rfl | rfl | rfl | rfl | rfl | rfl | rfl | rfl | rfl | rfl | rfl | rfl
  · exact checked _ rowGetState noArgs getState _ rfl ⟨rfl, by decide, fun _ => rfl⟩ hcode (by simp [ruled])
  · exact checked _ rowModeRun modeArgs modeRun _ rfl ⟨rfl, by decide, rfl⟩ hcode (by simp [ruled])
  · exact checked _ rowModeHalt modeArgs modeHalt _ rfl ⟨rfl, by decide, rfl⟩ hcode (by simp [ruled])
  · exact checked _ rowModeBaton modeArgs modeBaton _ rfl ⟨rfl, by decide, rfl⟩ hcode (by simp [ruled])
  · exact checked _ rowModeWithdraw modeArgs modeWithdraw _ rfl ⟨rfl, by decide, rfl⟩ hcode (by simp [ruled])
  · exact checked _ rowRestart noArgs restartReq _ rfl ⟨rfl, by decide, fun _ => rfl⟩ hcode (by simp [ruled])
  · exact checked _ rowLoadMould noArgs loadMould mouldRules rfl ⟨rfl, by decide, fun _ => rfl⟩ hcode (by simp [ruled, r])
  · exact checked _ rowRepress repressArgs repressReq repressRules rfl ⟨rfl, by decide, fun _ => rfl⟩ hcode (by simp [ruled, r])
  · exact checked _ rowEditLoad noArgs editLoad editRules rfl ⟨rfl, by decide, fun _ => rfl⟩ hcode (by simp [ruled, r])
  · exact checked _ rowTrialStart trialArgs trialStartReq _ rfl ⟨rfl, by decide, rfl⟩ hcode (by simp [ruled])
  · exact checked _ rowTrialAbort trialArgs trialAbortReq _ rfl ⟨rfl, by decide, rfl⟩ hcode (by simp [ruled])
  · exact checked _ rowTrialReport trialArgs trialReportReq _ rfl ⟨rfl, by decide, rfl⟩ hcode (by simp [ruled])
  · exact checked _ rowEditAdopt adoptArgs editAdoptReq _ rfl ⟨rfl, by decide, rfl⟩ hcode (by simp [ruled])
  · exact checked _ rowEditDiscard adoptArgs editDiscardReq _ rfl ⟨rfl, by decide, rfl⟩ hcode (by simp [ruled])
  · exact checked _ rowUpdStage stageArgs updStage stageRules rfl ⟨rfl, by decide, fun _ => rfl⟩ hcode (by simp [ruled, r])
  · exact checked _ rowUpdApply noArgs updApply applyRules rfl ⟨rfl, by decide, fun _ => rfl⟩ hcode (by simp [ruled, r])
  · exact checked _ rowUpdActivate noArgs updActivate activateRules rfl ⟨rfl, by decide, fun _ => rfl⟩ hcode (by simp [ruled, r])
  · exact checked _ rowLogRead logArgs logRead _ rfl ⟨rfl, by decide, fun _ => rfl⟩ hcode (by simp [ruled])
  · exact checked _ rowRtcSet rtcArgs rtcSetReq _ rfl ⟨rfl, by decide, fun _ => rfl⟩ hcode (by simp [ruled])
  · exact checked _ rowLbRecover recoverArgs lbRecoverReq _ rfl ⟨rfl, by decide, fun _ => rfl⟩ hcode (by simp [ruled])
  · exact checked _ (rowTbl 1) tblArgs tblReq _ rfl ⟨rfl, by decide, rfl⟩ hcode (by simp [ruled])
  · exact checked _ (rowTbl 2) tblArgs tblReq _ rfl ⟨rfl, by decide, rfl⟩ hcode (by simp [ruled])
  · exact checked _ (rowTbl 3) tblArgs tblReq _ rfl ⟨rfl, by decide, rfl⟩ hcode (by simp [ruled])
  · exact checked _ (rowTbl 4) tblArgs tblReq _ rfl ⟨rfl, by decide, rfl⟩ hcode (by simp [ruled])
  · exact checked _ (rowTbl 5) tblArgs tblReq _ rfl ⟨rfl, by decide, rfl⟩ hcode (by simp [ruled])
  · exact checked _ (rowTbl 6) tblArgs tblReq _ rfl ⟨rfl, by decide, rfl⟩ hcode (by simp [ruled])
  · exact checked _ rowCrcStart crcStartArgs crcStartReq _ rfl ⟨rfl, by decide, rfl⟩ hcode (by simp [ruled])
  · exact checked _ rowCrcResult crcResultArgs crcResultReq crcResultRules rfl ⟨rfl, by decide, rfl⟩ hcode (by simp [ruled, r])
  · exact checked _ rowKeySet keySetArgs keySetReq _ rfl ⟨rfl, by decide, rfl⟩ hcode (by simp [ruled])
  · exact checked _ rowKeyClear keyArgs keyClearReq _ rfl ⟨rfl, by decide, rfl⟩ hcode (by simp [ruled])
  · exact checked _ rowKeyList keyArgs keyListReq _ rfl ⟨rfl, by decide, rfl⟩ hcode (by simp [ruled])
  · exact checked _ rowHibernate noArgs hibernateReq _ rfl ⟨rfl, by decide, fun _ => rfl⟩ hcode (by simp [ruled])

end
end Sys2Proof.Machine
end

section
/-! SUPPORT. A request with its arguments, served (R370 to R375). -/

namespace Sys2Proof.Machine

section
set_option Elab.async false

/-- The body of a request without flags (R370). -/
def askBody (a : Asked) (args : Bytes) : Bytes := a.code :: 0 :: (leBytes 2 args.length ++ leBytes 4 a.tag.toNat ++ args)

section
variable (a : Asked) (args : Bytes)

theorem askBody_length : (askBody a args).length = args.length + 8 := by simp [askBody, leBytes_length]; omega

theorem askBody_drop : (askBody a args).drop 8 = args := by
  have hlen : (leBytes 2 args.length ++ leBytes 4 a.tag.toNat).length = 6 := by simp [leBytes_length]
  rw [askBody, List.drop_succ_cons, List.drop_succ_cons, ← hlen, List.drop_left]

theorem askBody_code : leAt (askBody a args) 0 1 = a.code.toNat := by simp [askBody, leAt, slice, leNat]

theorem askBody_op : leAt (askBody a args) 8 1 = leAt args 0 1 := by rw [← leAt_drop, askBody_drop]

theorem askBody_len (h : args.length < 65536) : leAt (askBody a args) 2 2 = args.length := by
  rw [askBody, leAt_skip_cons (by omega), leAt_skip_cons (by omega), List.append_assoc, leAt_leBytes_append]
  omega

theorem askBody_flags : nth 0 (askBody a args) 1 = 0 := rfl

theorem askBody_first : nth 0 (askBody a args) 0 = a.code := rfl

end

theorem serve_of_asks {via : Via} {code : Nat} {args : Bytes} {a : Asked} {s u : State} (h : Safety.Asks via code args a s u) {c : Instr}
    {row : ReqRow} {argsOk : Bytes → Bool} {f : Req → State → State} {blockOk : Req → State → Bool}
    (hexec : exec c s = .next (request row argsOk f via s blockOk)) (hstands : RowStands row) (hcode : row.code = code)
    (hbyte : code < 256) (hop : row.op = none ∨ row.op = some (leAt args 0 1))
    (hlen : argLenOk code (leAt args 0 1) args.length = some true) (hsmall : args.length < 65536) (hargs : argsOk args = true)
    (hrules : blockOk { asked := a, body := askBody a args } u = true) :
    exec c s = .next (match nth 1 row.legal (legalColumn u) with
      | 0 => f { asked := a, body := askBody a args } u
      | 1 => refuse { asked := a, body := askBody a args } 0x21 1 u
      | _ => refuse { asked := a, body := askBody a args } 0x22 2 u) := by
  obtain ⟨hcame, hnamed, hidle⟩ := h
  have hpower := (arrives_changes hcame).power
  have hbody : leAt (askBody a args) 0 1 = row.code := by
    rw [askBody_code, hnamed, hcode]
    simpa using hbyte
  have hbodyLen : bodyLenOk (askBody a args) = true := by
    rw [bodyLenOk, askBody_len a args hsmall, askBody_length, hbody, askBody_op, hcode, hlen]
    simp
  have hopRow : row.op = none ∨ row.op = some (leAt (askBody a args) 8 1) := by rwa [askBody_op]
  have hargs' : argsOk ((askBody a args).drop 8) = true := by rwa [askBody_drop]
  rw [hexec, request_of_arrives hcame (rowTakes_of_code hbody (.inr hopRow))]
  exact congrArg Host.Outcome.next
    (serve_of_right hbodyLen (.inl (by rw [hpower, hidle])) hstands hbody hopRow (askBody_flags a args) hargs' hrules)

/-- A request that its row admits in this state is carried out. -/
theorem exec_of_asks {via : Via} {code : Nat} {args : Bytes} {a : Asked} {s u : State} (h : Safety.Asks via code args a s u) {c : Instr}
    (row : ReqRow) (argsOk : Bytes → Bool) (f : Req → State → State) {blockOk : Req → State → Bool}
    (hexec : exec c s = .next (request row argsOk f via s blockOk)) (hstands : RowStands row) (hcode : row.code = code)
    (hlegal : nth 1 row.legal (legalColumn s) = 0) (hlen : argLenOk code (leAt args 0 1) args.length = some true)
    (hargs : argsOk args = true) (hrules : blockOk { asked := a, body := askBody a args } u = true) (hbyte : code < 256)
    (hop : row.op = none ∨ row.op = some (leAt args 0 1)) (hsmall : args.length < 65536) :
    exec c s = .next (f { asked := a, body := askBody a args } u) := by
  have hcolumn : legalColumn u = legalColumn s := by rw [legalColumn, legalColumn, (arrives_changes h.came).power]
  have hserved := serve_of_asks (f := f) h hexec hstands hcode hbyte hop hlen hsmall hargs hrules
  rw [hcolumn, hlegal] at hserved
  exact hserved

section
variable {s : State}

theorem legalColumn_halt (h : s.power.state = .halt) : legalColumn s = 5 := by rw [legalColumn, h]
theorem legalColumn_safe (h : s.power.state = .safeService) : legalColumn s = 4 := by rw [legalColumn, h]
theorem legalColumn_dead (h : s.power.state = .dead) : legalColumn s = 6 := by rw [legalColumn, h]
theorem legalColumn_leader (h : s.power.state = .run) (hrole : s.power.role = .leader) : legalColumn s = 2 := by
  rw [legalColumn, h]
  exact if_pos hrole
theorem legalColumn_pacer (h : s.power.state = .run) (hrole : s.power.role = .pacer) : legalColumn s = 3 := by
  rw [legalColumn, h]
  exact (if_neg (by simp [hrole])).trans (if_pos hrole)
theorem legalColumn_solo (h : s.power.state = .run) (hrole : s.power.role = .solo) : legalColumn s = 1 := by
  rw [legalColumn, h]
  exact (if_neg (by simp [hrole])).trans (if_neg (by simp [hrole]))
theorem legalColumn_run (h : s.power.state = .run) : legalColumn s = 1 ∨ legalColumn s = 2 ∨ legalColumn s = 3 := by
  rw [legalColumn, h]
  dsimp only
  split_ifs <;> simp

end

end
end Sys2Proof.Machine
end

section
/-! PROOF. The requests that change the state of the unit (R85 to R89, R218, R219, R230). -/

namespace Sys2Proof.Machine

section
set_option Elab.async false

/-! ### What SYNC and trials change -/

theorem syncSend_changes (frames : List Bytes) (s : State) : Changes [.outRest] s (syncSend frames s) := .ite .of (.refl _ s)

theorem syncControl_changes (code : Nat) (args : Bytes) (s : State) : Changes [.outRest] s (syncControl code args s) := syncSend_changes ..

theorem sendLeave_changes (cause : Nat) (s : State) : Changes [.outRest] s (sendLeave cause s) := .ite (syncControl_changes ..) (.refl _ s)

def trialParts : List Part := .edit :: .running :: .bu :: .bx :: .ctxRest :: bookParts

theorem endTrial_changes (reason code : Nat) (s : State) : Changes trialParts s (endTrial reason code s) := by
  have hclosed : Changes trialParts s { s with
      edit := { s.edit with state := if reason = 0 then .ripe else .loaded, abort := BitVec.ofNat 4 reason, aborted := decide (reason ≠ 0)
                            faultCode := BitVec.ofNat 16 code, trial := none }
      lap := { s.lap with running := if inTrial s then .idle else s.lap.running }
      bu := if inTrial s then { s.bu with stack := [] } else s.bu
      bx := if inTrial s then { s.bx with level := 0, calls := [] } else s.bx
      ctx := if inTrial s then { s.ctx with actions := [], current := none } else s.ctx } := by
    split <;> exact .of
  exact hclosed.trans (sj_changes ..)

theorem abortTrial_changes (reason : Nat) (s : State) : Changes trialParts s (abortTrial reason s) := .ite (endTrial_changes ..) (.refl _ s)

theorem holdOutputs_changes (s : State) : Changes [.sbx, .outputs] s (holdOutputs s) :=
  ((Changes.refl _ s).also [.sbx]).trans (refreshOutputs_changes _)

def idleParts : List Part := [.running, .lapNum, .bu, .bx, .ctxRest, .sbx, .sby, .outputs]

theorem pacerIdle_changes (s : State) : Changes idleParts s (pacerIdle s) := by
  unfold pacerIdle
  exact (stopLap_changes s).mono.also [.lapNum, .sbx]

theorem pacerEnters_changes (c : Cond) (s : State) : Changes idleParts s (pacerEnters c s) :=
  ((pacerIdle_changes s).also [.sby]).trans (holdOutputs_changes _)

/-- A pacer that enters a condition runs no lap and holds its outputs. -/
theorem pacerEnters_shows (c : Cond) (s : State) :
    (pacerEnters c s).sby.cond = c ∧ (pacerEnters c s).sbx.held = true ∧ (pacerEnters c s).lap.running = .idle :=
  ⟨rfl, rfl, rfl⟩

/-! ### A longer request under way (R374) -/

/-- The ASYNC fields show the request `c`, which has not ended. -/
def Shown (c : Byte) (s : State) : Prop := (asyncPath c s).isSome = true ∧ s.mgt.asyncCode = c

section
variable {c d st : Byte} {s t : State}

theorem asyncPath_congr (h : Part.Same .async s t) : asyncPath c t = asyncPath c s := by
  obtain ⟨-, -, hopen⟩ := h
  rw [asyncPath, asyncPath, hopen]

theorem Shown.later {ps : List Part} (h : Shown c s) (k : Changes ps s t) (hp : apart [.async] ps = true := by rfl) : Shown c t := by
  have hsame : Part.Same .async s t := k.get .async hp
  exact ⟨by rw [asyncPath_congr hsame]; exact h.1, hsame.1.trans h.2⟩

theorem asyncDone_of_path {p : Byte} (h : asyncPath c s = some p) : asyncDone c st s = sj 0x930 0 (item c.toNat ++ item st.toNat ++ item p.toNat)
    { s with mgt := { s.mgt with
      asyncOpen := s.mgt.asyncOpen.filter fun x => decide (x.1 ≠ c)
      asyncStatus := if s.mgt.asyncCode = c then st else s.mgt.asyncStatus } } := by
  rw [asyncDone, h]

/-- The request's own end shows its status. -/
theorem Shown.done (h : Shown c s) : (asyncDone c st s).mgt.asyncStatus = st := by
  obtain ⟨hpath, hcode⟩ := h
  obtain ⟨p, hp⟩ := Option.isSome_iff_exists.1 hpath
  obtain ⟨-, hstatus, -⟩ : Part.Same .async _ (asyncDone c st s) := by
    rw [asyncDone_of_path hp]
    exact (sj_changes ..).get .async
  rw [hstatus]
  exact if_pos hcode

/-- Another request's end leaves it. -/
theorem Shown.other_done (h : Shown c s) (hne : c ≠ d) : Shown c (asyncDone d st s) := by
  obtain ⟨hpath, hcode⟩ := h
  cases hd : asyncPath d s with
  | none =>
    rw [asyncDone, hd]
    exact ⟨hpath, hcode⟩
  | some p =>
    rw [asyncDone_of_path hd]
    refine Shown.later ?_ (sj_changes ..)
    refine ⟨?_, hcode⟩
    simp only [asyncPath, Option.isSome_map, List.find?_isSome, List.mem_filter] at hpath ⊢
    obtain ⟨x, hin, hx⟩ := hpath
    refine ⟨x, ⟨hin, ?_⟩, hx⟩
    simp only [decide_eq_true_eq] at hx ⊢
    rw [hx]
    exact hne

theorem Shown.other_free (h : Shown c s) (hne : c ≠ d) : Shown c (asyncDoneFree d s) := by
  unfold asyncDoneFree
  split
  · exact (h.later (drawn_changes s)).other_done hne
  · exact h

theorem Shown.cut (h : Shown c s) (hc : c ∉ [0x02, 0x05, 0x06, 0x08, 0x12]) : Shown c (asyncCut s) := by
  have hall (l : List Byte) (u : State) (hu : Shown c u) (hl : c ∉ l) : Shown c (l.foldl (fun t d => asyncDoneFree d t) u) := by
    induction l generalizing u with
    | nil => exact hu
    | cons d l ih =>
      rw [List.mem_cons, not_or] at hl
      exact ih _ (hu.other_free hl.1) hl.2
  exact hall _ s h hc

theorem Shown.requestsCut (h : Shown c s) (hc : c ∉ [0x02, 0x05, 0x06, 0x08, 0x12]) (happ : c ≠ 0x0A) : Shown c (requestsCut s) := by
  unfold Machine.requestsCut whenever
  have hcut := (h.later (answerWaiting_changes s)).cut hc
  split
  · exact hcut.other_free happ
  · exact hcut

theorem Shown.stops (h : Shown c s) (hc : c ≠ 0x0F) (k : Nat) : Shown c (domainStops k s) := by
  unfold domainStops
  split_ifs
  · exact h.later (refreshOutputs_changes s)
  · exact h.later (ps := [.acq]) .of
  · exact (h.later (ps := [.sw]) .of).other_free hc
  · exact h

theorem Shown.domainsOff (h : Shown c s) (hc : c ≠ 0x0F) (ks : List Nat) : Shown c (domainsOff ks s) := by
  induction ks generalizing s with
  | nil => exact h
  | cons k ks ih =>
    refine ih (s := domainOff k s) ?_
    unfold domainOff
    exact (h.later (ps := [.pdOn, .sens]) .of).stops hc k

/-- A restart keeps the request that it answers open to its end. -/
theorem Shown.beginBringUp (h : Shown c s) (hc : c ∉ [0x02, 0x05, 0x06, 0x08, 0x12]) (happ : c ≠ 0x0A) (hpd6 : c ≠ 0x0F)
    (hresumes : resumes s = false) (kind : StartKind) (src : BitVec 4) : Shown c (beginBringUp kind src s) := by
  have hstopped : Shown c (blocksStopped s) := by
    unfold blocksStopped
    exact (((h.requestsCut hc happ).later (freezeMeter_changes 1 _)).later (stopLap_changes _)).domainsOff hpd6 _
  have hkept (keep : Bool) : Shown c (blocksKept keep s) := by
    unfold blocksKept
    split
    · exact hstopped.later (ps := [.sw]) .of
    · unfold domainOff
      exact (hstopped.later (ps := [.pdOn, .sens]) .of).stops hpd6 6
  have hfresh (keep : Bool) : Shown c (freshBlocks keep s) := by
    rw [freshBlocks_eq]
    exact hkept keep
  rw [beginBringUp_eq, hresumes, if_neg Bool.false_ne_true]
  exact ((hfresh _).later (bringUpBegun_tail kind src s)).later (started_tail kind src s)

end

/-! ### The requests -/

theorem setBit_false_and_pd6 (v : BitVec 12) {k : Nat} (hk : k ∈ [11, 8, 7, 3, 2, 4, 5]) : setBit v k false &&& 0x040 = v &&& 0x040 := by
  have hmask : ∀ k ∈ [11, 8, 7, 3, 2, 4, 5], (~~~ BitVec.ofNat 12 (2 ^ k)) &&& 0x040 = (0x040 : BitVec 12) := by decide
  rw [setBit, if_neg (by decide), BitVec.and_assoc, hmask k hk]

/-- A restart keeps PD6 on or off as it stands (R340). -/
theorem freshBlocks_pdOn_restart (s : State) : (freshBlocks true s).power.pdOn = 0x003 ||| (s.power.pdOn &&& 0x040) := by
  have hfold (l : List Nat) (v : BitVec 12) (hl : ∀ k ∈ l, k ∈ [11, 8, 7, 3, 2, 4, 5]) :
      l.foldl (fun v d => setBit v d false) v &&& 0x040 = v &&& 0x040 := by
    induction l generalizing v with
    | nil => rfl
    | cons k l ih => rw [List.foldl_cons, ih _ fun j hj => hl j (by simp [hj]), setBit_false_and_pd6 _ (hl k (by simp))]
  have hbefore : (stopLap (freezeMeter 1 (requestsCut s))).power.pdOn = s.power.pdOn :=
    ((stopLap_changes _).get .pdOn).trans (((freezeMeter_changes 1 _).get .pdOn).trans ((requestsCut_changes s).get .pdOn))
  have hstopped : (blocksStopped s).power.pdOn &&& 0x040 = s.power.pdOn &&& 0x040 := by
    rw [blocksStopped, domainsOff_pdOn, hfold _ _ (fun _ h => h), hbefore]
  rw [freshBlocks_eq]
  exact congrArg (0x003#12 ||| ·) hstopped

theorem respond_power (a : Asked) (st : Byte) (results : Bytes) (s : State) : (respond a st results s).power = s.power :=
  (respond_changes ..).power

/-- What a longer request's acceptance changes. -/
theorem accept_changes (r : Req) (s : State) : Changes (.async :: respondParts) s (accept r s) := by
  have hasync (u : State) (c p : Byte) : Changes [.async] u (asyncAccept c p u) := by unfold asyncAccept; exact .of
  exact (respond_changes ..).mono.trans (hasync ..)

theorem accept_shown (r : Req) (s : State) : Shown (nth 0 r.body 0) (accept r s) := by
  refine ⟨?_, rfl⟩
  simp [asyncPath, accept, asyncAccept]

theorem tracking_congr {s u : State} (h : Changes arrivalParts s u) : tracking u = tracking s := by
  rw [tracking, tracking, h.power, h.get .sby, h.get .sbx]

/-- Settles O41: each request that its row admits is carried out as its function says; what follows SET_MODE WITHDRAW, RESTART and
HIBERNATE is read off the parts that they change. -/
theorem modeRequestsChangeTheState : Obligations.ModeRequestsChangeTheState := by
  intro via a s u accepted waits refused
  refine ⟨fun h => ?state, fun h hhalt => ?run, fun h hrun hsolo => ?halt, fun h hrun hleader => ⟨fun htrack hedit => ?baton, fun hnot => ?noBaton⟩,
    fun h hrun hpacer => ?withdraw, fun h hstate hjournal => ?restart, fun h hkeys => ⟨fun hrun hrole => ?later, fun hstate => ?now⟩,
    fun h hhalt hstuck => ?stuck⟩
  all_goals have hu := arrives_changes h.came
  case state =>
    have hserved := exec_of_asks h (c := .getState via) rowGetState noArgs getState rfl ⟨rfl, by decide, fun _ => rfl⟩ rfl
      (by rw [legalColumn]; cases s.power.state <;> first | rfl | (dsimp only; split_ifs <;> rfl)) rfl rfl rfl (by decide) (.inl rfl) (by decide)
    have hstate : mgtStateWord u = stateCode s.power.state + 16 * roleCode s.power.role := by
      rw [mgtStateWord, mgtState, hu.power, h.idle]
      cases s.power.state <;> cases s.power.role <;> rfl
    have hop : opMs u = opMs s := by rw [opMs, opMs, hu.get .opUs]
    have hmember : ownMember u = ownMember s := by
      have hpx : Part.Same .pxRest s u := hu.get .pxRest
      simp only [Part.Same] at hpx
      rw [ownMember, ownMember, mouldOf, mouldOf, hu.get .mld, hpx]
    obtain ⟨hcode, hstatus, -⟩ := hu.get .async
    obtain ⟨hissue, -⟩ := hu.get .issue
    rw [hserved, getState, answerOk, hstate, ssCauseWord, startInfoWord, hu.power, hop, hmember, hissue, hu.get .testedSet, hcode, hstatus]
  case run =>
    rw [exec_of_asks h (c := .setModeRun via) rowModeRun modeArgs modeRun rfl ⟨rfl, by decide, rfl⟩ rfl
      (by rw [legalColumn_halt hhalt]; rfl) rfl rfl rfl (by decide) (.inr rfl) (by decide)]
    rfl
  case halt =>
    rw [exec_of_asks h (c := .setModeHalt via) rowModeHalt modeArgs modeHalt rfl ⟨rfl, by decide, rfl⟩ rfl
      (by rw [legalColumn_solo hrun hsolo]; rfl) rfl rfl rfl (by decide) (.inr rfl) (by decide)]
    rfl
  case baton =>
    have hnext := exec_of_asks h (c := .setModeBaton via) rowModeBaton modeArgs modeBaton rfl ⟨rfl, by decide, rfl⟩ rfl
      (by rw [legalColumn_leader hrun hleader]; rfl) rfl rfl rfl (by decide) (.inr rfl) (by decide)
    have hready : ¬ ((!tracking u) = true ∨ u.edit.state = .adopting) := by
      rw [tracking_congr hu, hu.get .edit]
      simp [htrack, hedit]
    have hnum : (accept { asked := a, body := askBody a [2, 0, 0, 0] } u).lap.num = s.lap.num :=
      ((accept_changes _ u).get .lapNum).trans (hu.get .lapNum)
    have hpass : u.sbx = s.sbx := hu.get .sbx
    rw [hnext, modeBaton, if_neg hready]
    dsimp only
    rw [hnum, hpass]
    by_cases hidle : s.sbx.batonB = 0
    · rw [if_neg (not_not.2 hidle), if_pos hidle]
      rfl
    · rw [if_pos hidle, if_neg hidle]
      rfl
  case noBaton =>
    have hnext := exec_of_asks h (c := .setModeBaton via) rowModeBaton modeArgs modeBaton rfl ⟨rfl, by decide, rfl⟩ rfl
      (by rw [legalColumn_leader hrun hleader]; rfl) rfl rfl rfl (by decide) (.inr rfl) (by decide)
    have hready : (!tracking u) = true ∨ u.edit.state = .adopting := by
      rw [tracking_congr hu, hu.get .edit]
      simpa using hnot
    rw [hnext, modeBaton, if_pos hready, refuse_eq hu.power (askBody_code a _)]
    rfl
  case withdraw =>
    have hnext := exec_of_asks h (c := .setModeWithdraw via) rowModeWithdraw modeArgs modeWithdraw rfl ⟨rfl, by decide, rfl⟩ rfl
      (by rw [legalColumn_pacer hrun hpacer]; rfl) rfl rfl rfl (by decide) (.inr rfl) (by decide)
    let v := sendLeave 3 (respond a 0 [] u)
    have hv : Changes (.svc :: .pxPending :: .outRest :: respondParts) s v :=
      (hu.mono.trans (respond_changes ..)).trans (sendLeave_changes 3 _)
    have hleaves : modeWithdraw { asked := a, body := askBody a [3, 0, 0, 0] } u = pacerEnters .withdrawn (abortTrial 2 v) :=
      if_pos ((hv.get .role).trans hpacer)
    obtain ⟨hcond, hheld, hidle⟩ := pacerEnters_shows .withdrawn (abortTrial 2 v)
    refine ⟨_, hnext.trans (congrArg Host.Outcome.next hleaves), hcond, ?_, hheld, hidle⟩
    exact (pacerEnters_changes ..).power.trans ((abortTrial_changes ..).power.trans hv.power)
  case restart =>
    have hnext := exec_of_asks h (c := .restart via) rowRestart noArgs restartReq rfl ⟨rfl, by decide, fun _ => rfl⟩ rfl
      (by
        simp only [List.mem_cons, List.not_mem_nil, or_false] at hstate
        rcases hstate with hrun | hsafe | hhalt
        · rcases legalColumn_run hrun with hcol | hcol | hcol <;> rw [hcol] <;> rfl
        · rw [legalColumn_safe hsafe]; rfl
        · rw [legalColumn_halt hhalt]; rfl) rfl rfl rfl (by decide) (.inl rfl) (by decide)
    let v := sendLeave 1 (accept { asked := a, body := askBody a [] } u)
    have hv : Changes (.svc :: .pxPending :: .outRest :: .async :: respondParts) s v :=
      (hu.mono.trans (accept_changes ..)).trans (sendLeave_changes 1 _)
    have hresumes : resumes v = false := by rw [resumes, hv.get .journal]; exact decide_eq_false hjournal
    have hcode : a.code = 3 := h.isCode
    have hshown : Shown 3 v := by
      have haccepted := accept_shown { asked := a, body := askBody a [] } u
      rw [show nth 0 (askBody a []) 0 = (3 : Byte) from hcode] at haccepted
      exact haccepted.later (sendLeave_changes 1 _)
    have hbegun : Shown 3 (beginBringUp .restart 0 v) := hshown.beginBringUp (by decide) (by decide) (by decide) hresumes ..
    have hrestarts : restartReq { asked := a, body := askBody a [] } u = asyncDone 3 0 (beginBringUp .restart 0 v) := by
      rw [← hcode]
      rfl
    have hdone := asyncDone_changes 3 0 (beginBringUp .restart 0 v)
    have hstarted := beginBringUp_started .restart 0 v
    have hstays : beginBringUp .restart 0 v = started .restart 0 v := by rw [beginBringUp_eq, hresumes, if_neg Bool.false_ne_true]
    obtain ⟨hkind, -⟩ := hdone.get .start
    refine ⟨_, hnext.trans (congrArg Host.Outcome.next hrestarts), ?_, hkind.trans hstarted.startKind, (hdone.get .role).trans hstarted.role,
      (hdone.get .pwrCycles).trans (hstarted.cycles.trans (hv.get .pwrCycles)), ?_, ?_, hbegun.done⟩
    · rw [hdone.get .opState, hstays]
      exact ((started_tail .restart 0 v).get .opState).trans (bringUpBegun_shows .restart 0 v).1
    · rw [hdone.get .pdOn, hstays, (started_tail .restart 0 v).get .pdOn, (bringUpBegun_tail .restart 0 v).get .pdOn]
      exact (freshBlocks_pdOn_restart v).trans (by rw [hv.get .pdOn])
    · exact (congrArg Mld.mould (hdone.get .mld)).trans hstarted.bare
  case stuck =>
    have hnext := exec_of_asks h (c := .hibernate via) rowHibernate noArgs hibernateReq rfl ⟨rfl, by decide, fun _ => rfl⟩ rfl
      (by rw [legalColumn_halt hhalt]; rfl) rfl rfl rfl (by decide) (.inl rfl) (by decide)
    have hrow : rowStuck u = true := by
      obtain ⟨k, hk, hbit⟩ := hstuck
      rw [rowStuck, hu.pan, List.any_eq_true]
      exact ⟨k, List.mem_range.2 hk, hbit⟩
    rw [hnext, hibernateReq, if_pos hrow, refuse_eq hu.power (askBody_code a _)]
    rfl
  all_goals
    have hrow : ¬ rowStuck u = true := by
      rw [rowStuck, hu.pan, List.any_eq_true]
      rintro ⟨k, hk, hbit⟩
      exact Bool.false_ne_true ((hkeys k (List.mem_range.1 hk)).symm.trans hbit)
    have haccept := hu.mono.trans (accept_changes { asked := a, body := askBody a [] } u) (qs := .svc :: .pxPending :: .async :: respondParts)
  case later =>
    have hnext := exec_of_asks h (c := .hibernate via) rowHibernate noArgs hibernateReq rfl ⟨rfl, by decide, fun _ => rfl⟩ rfl
      (by
        rcases legalColumn_run hrun with hcol | hcol | hcol
        · rw [hcol]; rfl
        · exact absurd (by rw [legalColumn, hrun] at hcol; by_contra hne; simp [hne] at hcol; split at hcol <;> cases hcol) hrole
        · rw [hcol]; rfl) rfl rfl rfl (by decide) (.inl rfl) (by decide)
    have hstate : u.power.state = .run := hu.power ▸ hrun
    refine ⟨_, hnext, ?_⟩
    rw [hibernateReq, if_neg hrow]
    dsimp only
    rw [if_pos hstate]
    have hleave := sendLeave_changes 2 { accept { asked := a, body := askBody a [] } u with
      rtc := { (accept { asked := a, body := askBody a [] } u).rtc with alarmHit := false } }
    generalize sendLeave 2 _ = w at hleave ⊢
    refine ⟨?_, ?_⟩
    · exact congrArg (fun p : Power => { p with transit := .hibernate }) (hleave.power.trans haccept.power)
    · exact hleave.rtc.trans (congrArg (fun r : Rtc => { r with alarmHit := false }) haccept.rtc)
  case now =>
    have hnext := exec_of_asks h (c := .hibernate via) rowHibernate noArgs hibernateReq rfl ⟨rfl, by decide, fun _ => rfl⟩ rfl
      (by
        rcases hstate with hhalt | hsafe
        · rw [legalColumn_halt hhalt]; rfl
        · rw [legalColumn_safe hsafe]; rfl) rfl rfl rfl (by decide) (.inl rfl) (by decide)
    have hnot : ¬ u.power.state = .run := by
      rw [hu.power]
      rcases hstate with hhalt | hsafe
      · simp [hhalt]
      · simp [hsafe]
    refine ⟨_, hnext, ?_⟩
    rw [hibernateReq, if_neg hrow]
    dsimp only
    rw [if_neg hnot]
    generalize sendLeave 2 _ = w
    obtain ⟨hdrivers, hon⟩ := hibernateClosed_off w
    have hnotes := hibernateNotes_changes w
    have hoff := hibernateStopped_off ((hnotes.get .drivers).trans hdrivers) (by rw [hnotes.dio, hon])
    obtain ⟨hopen, -⟩ := (hibernateStopped_changes (hibernateNotes w)).get .svc
    obtain ⟨hnotesOpen, -⟩ := hnotes.get .svc
    have hshut := hopen.trans (hnotesOpen.trans (hibernateClosed_closed w))
    rw [hibernateState_eq]
    generalize hibernateStopped (hibernateNotes w) = x at hoff hshut ⊢
    exact ⟨rfl, rfl, rfl, hoff, hshut⟩

end
end Sys2Proof.Machine
end

section
/-! PROOF. The basic table program, the safety output pairs and the reflex networks (R242 to R246, R162, R163). -/

namespace Sys2Proof.Safety

open Sys2Proof.Machine

/-- The blocks of safety do not meet the records. -/
theorem Booked.withSaf {ns : List Nat} {u t : State} (h : Booked ns u t) (x : Saf) :
    Booked ns { u with saf := x } { t with saf := x } where
  frame := congrArg (fun y : State => { y with saf := x }) h.frame
  logKept := h.logKept
  sjKept := h.sjKept
  trKept := h.trKept
  poolKept := h.poolKept
  layout := h.layout
  ringsKept := h.ringsKept
  bytesKept := h.bytesKept

end Sys2Proof.Safety

namespace Sys2Proof.Machine

section
set_option Elab.async false

/-! ### The lap of the basic table program -/

/-- The state in which a lap of a valid table is judged, before its record: mains, transfer and rescue. -/
def btpJudged (ps : List (List Int)) (s : State) : State :=
  let x := btpMains (ssTable s) ps s.saf
  { s with saf := { x with transfer := !x.mainsOk, rescue := btpRescue (ssTable s) s } }

/-- The payload of SJ 0x0431. -/
def mainsItems (ps : List (List Int)) (s : State) : Bytes :=
  item (b2n (btpMains (ssTable s) ps s.saf).mainsOk) ++
    ((List.range 3).flatMap fun p => item (phaseTenths (ssTable s) (nth [] ps p)))

/-- With its record where the mains change. -/
def btpNoted (ps : List (List Int)) (s : State) : State :=
  if !s.saf.btpFirst ∧ (btpMains (ssTable s) ps s.saf).mainsOk ≠ s.saf.mainsOk then sj 0x431 1 (mainsItems ps s) (btpJudged ps s)
  else btpJudged ps s

theorem btpStep_of_valid {ps : List (List Int)} {s : State} (h : s.saf.btpValid = true) :
    btpStep ps s = btpCommit (btpOutputs (ssTable s) (btpMains (ssTable s) ps s.saf).mainsOk (btpRescue (ssTable s) s)) (btpNoted ps s) := by
  rw [btpStep, h]
  rfl

theorem btpStep_of_invalid {ps : List (List Int)} {s : State} (h : s.saf.btpValid = false) : btpStep ps s = btpCommit 0 s := by
  rw [btpStep, h]
  rfl

theorem btpNoted_booked (ps : List (List Int)) (s : State) : Safety.Booked [2, 3] (btpJudged ps s) (btpNoted ps s) := by
  unfold btpNoted
  split
  · exact Safety.sj_booked ..
  · exact .refl ..

theorem btpNoted_changes (ps : List (List Int)) (s : State) : Changes (.saf :: bookParts) s (btpNoted ps s) := by
  have hjudged : Changes [.saf] s (btpJudged ps s) := by
    unfold btpJudged
    exact Changes.of
  exact Changes.ite (hjudged.mono.trans (sj_changes ..)) hjudged.mono

theorem btpNoted_saf (ps : List (List Int)) (s : State) : (btpNoted ps s).saf = (btpJudged ps s).saf := by
  unfold btpNoted
  split
  · exact (sj_changes ..).get .saf
  · rfl

/-- The commit of the BTP: its values alone drive the outputs, and the outputs of a group without supply wait on. -/
theorem btpCommit_booked {v : BitVec 16} {s u : State} (hon : u.power.pdOn.getLsbD 5 = true) (h : Safety.Booked [2, 3] s u) :
    Safety.Booked [2, 3] { s with dio := (btpCommit v u).dio, rfx := { s.rfx with hold := false, active := false }
                                  sbx := { s.sbx with held := false } } (btpCommit v u) := by
  rw [btpCommit, if_pos (show pdIs u 5 = true from hon)]
  exact
    { frame := by rw [h.frame]; rfl
      logKept := h.logKept, sjKept := h.sjKept, trKept := h.trKept, poolKept := h.poolKept
      layout := h.layout, ringsKept := h.ringsKept, bytesKept := h.bytesKept }

theorem btpCommit_changes (v : BitVec 16) (s : State) : Changes [.outputs, .cmd, .dioRest, .rfx, .sbx] s (btpCommit v s) :=
  .ite (((Changes.refl _ s).also [.rfx, .sbx]).trans (applyOutputs_changes ..)) (.refl _ s)

theorem btpCommit_cmd {v : BitVec 16} {s : State} (hon : s.power.pdOn.getLsbD 5 = true) :
    (btpCommit v s).dio.cmd = v ∧ (btpCommit v s).dio.waitCommit = s.dio.waitCommit &&& unsuppliedMask s := by
  rw [btpCommit, if_pos (show pdIs s 5 = true from hon)]
  exact ⟨rfl, rfl⟩

theorem btpStep_changes (ps : List (List Int)) (s : State) :
    Changes ([.outputs, .cmd, .dioRest, .rfx, .sbx] ++ .saf :: bookParts) s (btpStep ps s) := by
  cases hvalid : s.saf.btpValid with
  | false =>
    rw [btpStep_of_invalid hvalid]
    exact (btpCommit_changes ..).mono
  | true =>
    rw [btpStep_of_valid hvalid]
    exact (btpNoted_changes ps s).mono.trans (btpCommit_changes ..)

/-- The outputs of a lap: the rescue output by the permission, the transfer output by the mains, the others by LIGHT_MASK. -/
theorem btpOutputs_bit (t : Bytes) (mainsOk rescue : Bool) (k : Fin 16) :
    (btpOutputs t mainsOk rescue).getLsbD k = (if k.val = leAt t 12 1 then (rescue != (leAt t 13 1 == 1))
      else if k.val = leAt t 10 1 then (!mainsOk != (leAt t 11 1 == 1)) else (leAt t 8 2).testBit k) := by
  have hput : ∀ (v : BitVec 16) (d : Nat) (b : Bool),
      (if d ≤ 15 then setBit v d b else v).getLsbD k = if k.val = d then b else v.getLsbD k := by
    intro v d b
    split
    next hd => exact getLsbD_setBit _ _ _ _ (by omega)
    next hd => rw [if_neg (by omega)]
  simp only [btpOutputs, hput]
  rw [BitVec.getLsbD_ofNat, decide_eq_true k.isLt, Bool.true_and]

/-- The permission of the rescue, input by input and pair by pair. -/
theorem btpRescue_iff (t : Bytes) (s : State) :
    btpRescue t s = true ↔ (∀ k < 32, (leAt t 18 4).testBit k = true → (diFiltered s).getLsbD k = true) ∧
      ∀ n < 16, (leAt t 14 2).testBit n = true → (diFiltered s).getLsbD (2 * n) = true ∧
        (if (leAt t 16 2).testBit n = true then
          (diFiltered s).getLsbD (2 * n + 1) = false ∧ s.dio.opens.getLsbD (2 * n + 1) = false ∧
            (diGroup s ((2 * n + 1) / 8)).glost = false
         else (diFiltered s).getLsbD (2 * n + 1) = true) := by
  have himp : ∀ a b : Bool, (!a || b) = true ↔ (a = true → b = true) := by decide
  simp only [btpRescue, Bool.and_eq_true, List.all_eq_true, List.mem_range, himp, goodA]
  refine and_congr Iff.rfl (forall₂_congr fun n _ => imp_congr Iff.rfl (and_congr Iff.rfl ?_))
  cases (leAt t 16 2).testBit n <;> simp [goodB, and_assoc]

/-- mains_ok, fail_t and ret_t of a lap; the first lap is then over, and the program runs on. -/
theorem btpMains_shows (t : Bytes) (ps : List (List Int)) (x : Saf) :
    let low := (monitored t ps).any (phaseBelow t (leAt t 27 1))
    let high := (monitored t ps).all fun p => !phaseBelow t (leAt t 28 1) p
    let ft := if low then x.failT + 100 else 0
    let rt := if high then x.retT + 100 else 0
    ((btpMains t ps x).mainsOk, (btpMains t ps x).failT, (btpMains t ps x).retT) =
        (if x.btpFirst then (high, 0, 0)
         else if x.mainsOk then (if leAt t 30 2 ≤ ft then (false, ft, 0) else (true, ft, x.retT))
         else (if leAt t 32 4 ≤ rt then (true, 0, rt) else (false, x.failT, rt))) ∧
      (btpMains t ps x).btpFirst = false ∧ (btpMains t ps x).btpOn = x.btpOn := by
  intro low high ft rt
  have hdef : btpMains t ps x = if x.btpFirst then { x with mainsOk := high, failT := 0, retT := 0, btpFirst := false }
      else if x.mainsOk then
        (if ft ≥ leAt t 30 2 then { x with failT := ft, mainsOk := false, retT := 0 } else { x with failT := ft })
      else (if rt ≥ leAt t 32 4 then { x with retT := rt, mainsOk := true, failT := 0 } else { x with retT := rt }) := rfl
  rw [hdef]
  cases hfirst : x.btpFirst
  · cases hmains : x.mainsOk
    · by_cases hr : leAt t 32 4 ≤ rt <;> simp [hr]
    · by_cases hf : leAt t 30 2 ≤ ft <;> simp [hf]
  · simp

theorem opMs_btpJudged (ps : List (List Int)) (s : State) : opMs (btpJudged ps s) = opMs s := rfl

/-- A change of the mains is recorded. -/
theorem btpNoted_records {ps : List (List Int)} {s : State} (hfirst : s.saf.btpFirst = false)
    (hne : (btpJudged ps s).saf.mainsOk ≠ s.saf.mainsOk) : Safety.journals 0x431 1 (mainsItems ps s) s (btpNoted ps s) := by
  have hnoted : btpNoted ps s = sj 0x431 1 (mainsItems ps s) (btpJudged ps s) := if_pos ⟨by rw [hfirst]; rfl, hne⟩
  rw [hnoted]
  exact Safety.journals_of_sj (u := btpJudged ps s) List.prefix_rfl List.prefix_rfl

/-! ### The first lap of a bring-up -/

theorem domainEnabled_congr {s t : State} (h : t.mld = s.mld) (d : Nat) : domainEnabled t d = domainEnabled s d := by
  simp only [domainEnabled, mouldOf, h]

theorem btpStep_btpOn (ps : List (List Int)) (s : State) : (btpStep ps s).saf.btpOn = s.saf.btpOn := by
  cases hvalid : s.saf.btpValid with
  | false =>
    rw [btpStep_of_invalid hvalid, (btpCommit_changes ..).get .saf]
  | true =>
    rw [btpStep_of_valid hvalid, (btpCommit_changes ..).get .saf, btpNoted_saf]
    exact (btpMains_shows ..).2.2

/-- A domain that is enabled and not locked is on after it has been switched on. -/
theorem domainOn_on {d : Nat} {s : State} (hd : d < 12) (hen : domainEnabled s d = true) (hfree : s.power.pdLocked.getLsbD d = false) :
    (domainOn d s).power.pdOn.getLsbD d = true := by
  cases hon : pdIs s d with
  | true =>
    have hsame : domainOn d s = s := if_pos (.inl hon)
    rw [hsame]
    exact hon
  | false =>
    rw [domainOn_pdOn hon hen hfree, getLsbD_setBit _ _ _ _ hd, if_pos rfl]

theorem checkTable_btpOn (s : State) : (checkTable s).saf.btpOn = true := by
  have hjudged : (judgeTable s).saf.btpOn = true := by
    unfold judgeTable
    split <;> rfl
  unfold checkTable
  split
  · exact hjudged
  · exact congrArg Saf.btpOn ((sj_changes ..).get .saf) |>.trans hjudged

/-- PD5 and the drivers are on after `serviceOn`, and PD6 where it may be. -/
theorem serviceOn_shows {s : State} (h5 : s.power.pdLocked.getLsbD 5 = false) :
    (serviceOn s).power.pdOn.getLsbD 5 = true ∧ (serviceOn s).power.driversOn = true ∧
      (s.power.pdLocked.getLsbD 6 = false → domainEnabled s 6 = true → (serviceOn s).power.pdOn.getLsbD 6 = true) := by
  have hen5 : domainEnabled s 5 = true := by
    unfold domainEnabled
    split <;> rfl
  have h1 := domainOn5_changes s
  refine ⟨?_, ?_, fun h6 hen => ?_⟩
  · rw [serviceOn, domainOn_pdOn_ne (by decide) (by decide)]
    exact domainOn_on (by decide) hen5 h5
  · exact (domainOn6_changes _).get .drivers
  · obtain ⟨-, hlocked⟩ := h1.get .pdTripped
    exact domainOn_on (by decide) ((domainEnabled_congr (h1.get .mld) 6).trans hen) (hlocked ▸ h6)

/-- The first lap of a bring-up: PD5 and the drivers on, PD6 where it may be, and the unit still in the same place. -/
theorem firstLap_shows {ps : List (List Int)} {s : State} (h5 : s.power.pdLocked.getLsbD 5 = false) :
    (btpStep ps (serviceUp s)).saf.btpOn = true ∧ (btpStep ps (serviceUp s)).power.driversOn = true ∧
      (btpStep ps (serviceUp s)).power.pdOn.getLsbD 5 = true ∧
      (s.power.pdLocked.getLsbD 6 = false → domainEnabled s 6 = true → (btpStep ps (serviceUp s)).power.pdOn.getLsbD 6 = true) ∧
      (btpStep ps (serviceUp s)).power.state = s.power.state ∧
      (btpStep ps (serviceUp s)).power.loadStep = s.power.loadStep := by
  obtain ⟨hpd5, hdrivers, hpd6⟩ := serviceOn_shows h5
  have hup := serviceUp_changes s
  have hstep := btpStep_changes ps (serviceUp s)
  have hserved : (serviceUp s).power.pdOn = (serviceOn s).power.pdOn ∧
      (serviceUp s).power.driversOn = (serviceOn s).power.driversOn := by
    unfold serviceUp
    dsimp only
    split
    · exact ⟨rfl, rfl⟩
    · exact ⟨(checkTable_changes _).get .pdOn, (checkTable_changes _).get .drivers⟩
  obtain ⟨hpds, hdrv⟩ := hserved
  have hon : (serviceUp s).saf.btpOn = true := by
    unfold serviceUp
    dsimp only
    split
    next h => exact h
    next => exact checkTable_btpOn _
  rw [hstep.get .pdOn, hstep.get .drivers, hpds, hdrv]
  refine ⟨(btpStep_btpOn ..).trans hon, hdrivers, hpd5, hpd6, ?_, ?_⟩
  · rw [hstep.get .opState, hup.get .opState]
  · obtain ⟨-, -, -, -, hup', -⟩ := hup.get .start
    obtain ⟨-, -, -, -, hst', -⟩ := hstep.get .start
    rw [hst', hup']

/-! ### The switch-off test and a stuck pair -/

theorem testWindow_booked (k : Nat) (v : Bool) (s : State) :
    Safety.Booked [2, 3] { s with saf := { s.saf with chFail := setBit s.saf.chFail k (!v) } } (testWindow k v s) := by
  unfold testWindow
  dsimp only
  split
  · exact .refl ..
  · exact Safety.sj_booked ..

theorem testWindow_changes (k : Nat) (v : Bool) (s : State) : Changes (.saf :: bookParts) s (testWindow k v s) := by
  unfold testWindow
  exact .ite (Changes.of (ps := [.saf])).mono (((Changes.refl (ps := [.saf]) s).also [.saf]).mono.trans (sj_changes ..))

theorem testWindow_saf (k : Nat) (v : Bool) (s : State) :
    (testWindow k v s).saf = { s.saf with chFail := setBit s.saf.chFail k (!v) } := by
  unfold testWindow
  dsimp only
  split
  · rfl
  · exact (sj_changes ..).get .saf

theorem testWindow_records {k : Nat} {s u t : State} (hfrom : s.log.sjQueue <+: u.log.sjQueue)
    (hto : (testWindow k false u).log.sjQueue <+: t.log.sjQueue) (hop : opMs u = opMs s)
    (hcycles : u.power.pwrCycles = s.power.pwrCycles) : Safety.journals 0x422 2 (item k) s t :=
  Safety.journals_of_sj (u := { u with saf := { u.saf with chFail := setBit u.saf.chFail k true } }) hfrom hto hop hcycles

/-! ### The statement -/

/-- A lap of the running program and what it leaves (R165, R245, R246). -/
theorem btpStep_shows {a b c : List Int} {s : State} (hon : s.power.pdOn.getLsbD 5 = true) :
    let t := btpStep [a, b, c] s
    Safety.Booked [2, 3] { s with saf := t.saf, dio := t.dio, rfx := { s.rfx with hold := false, active := false }
                                  sbx := { s.sbx with held := false } } t ∧
    t.dio.waitCommit = s.dio.waitCommit &&& unsuppliedMask s ∧
    (s.saf.btpValid = false → t.dio.cmd = 0 ∧ t.saf = s.saf) ∧
    (s.saf.btpValid = true → t.saf = (btpJudged [a, b, c] s).saf ∧
      t.dio.cmd = btpOutputs (ssTable s) t.saf.mainsOk t.saf.rescue ∧
      (s.saf.btpFirst = false → t.saf.mainsOk ≠ s.saf.mainsOk → Safety.journals 0x431 1 (mainsItems [a, b, c] s) s t)) := by
  intro t
  cases hvalid : s.saf.btpValid with
  | false =>
    have ht : t = btpCommit 0 s := btpStep_of_invalid hvalid
    rw [ht]
    obtain ⟨hcmd, hwait⟩ := btpCommit_cmd (v := 0) hon
    have hsaf : (btpCommit 0 s).saf = s.saf := (btpCommit_changes ..).get .saf
    refine ⟨?_, hwait, fun _ => ⟨hcmd, hsaf⟩, nofun⟩
    rw [hsaf]
    exact btpCommit_booked hon (.refl ..)
  | true =>
    have ht : t = btpCommit _ (btpNoted [a, b, c] s) := btpStep_of_valid hvalid
    have hnoted := btpNoted_changes [a, b, c] s
    have hn : (btpNoted [a, b, c] s).power.pdOn.getLsbD 5 = true := by rw [hnoted.get .pdOn, hon]
    obtain ⟨hcmd, hwait⟩ := btpCommit_cmd
      (v := btpOutputs (ssTable s) (btpMains (ssTable s) [a, b, c] s.saf).mainsOk (btpRescue (ssTable s) s)) hn
    have hcommit := btpCommit_changes
      (btpOutputs (ssTable s) (btpMains (ssTable s) [a, b, c] s.saf).mainsOk (btpRescue (ssTable s) s)) (btpNoted [a, b, c] s)
    have hsaf : t.saf = (btpJudged [a, b, c] s).saf := by rw [ht, hcommit.get .saf, btpNoted_saf]
    have hsupply : unsuppliedMask (btpNoted [a, b, c] s) = unsuppliedMask s := by
      have hdioc : (btpNoted [a, b, c] s).dioc = s.dioc := hnoted.get .dioc
      rw [unsuppliedMask, hdioc]
      rfl
    refine ⟨?_, ?_, nofun, fun _ => ⟨hsaf, ?_, fun hfirst hne => ?_⟩⟩
    · rw [hsaf, ht]
      exact btpCommit_booked hn (btpNoted_booked [a, b, c] s)
    · rw [ht, hwait, hsupply, hnoted.dio]
    · rw [hsaf, ht, hcmd]
      rfl
    · rw [hsaf] at hne
      refine Safety.journals_mono (btpNoted_records hfirst hne) ?_
      rw [ht, hcommit.log]

/-- R162, R163: one step of the networks on one and the same state. -/
theorem reflexStep_shows {s : State} (hact : s.rfx.active = true) :
    let t := reflexStep s
    t = { s with rfx := { s.rfx with res := t.rfx.res, delays := t.rfx.delays }
                 dio := { s.dio with on := t.dio.on, openLoad := t.dio.openLoad, backfeed := t.dio.backfeed
                                     readback := t.dio.readback } } ∧
    (∀ k, k < 64 → ∀ n : Net, (netsOf s)[k]? = some (k, n) →
      t.rfx.res.getLsbD k = (rungRun s n.code (nth [] s.rfx.delays k)).ba ∧
      t.rfx.delays[k]? = some (rungRun s n.code (nth [] s.rfx.delays k)).done) ∧
    (∀ k : Fin 16, t.dio.on.getLsbD k = outputOn t k) := by
  intro t
  let runs := (netsOf s).map fun p => rungRun s p.2.code (nth [] s.rfx.delays p.1)
  have ht : t = refreshOutputs { s with rfx := { s.rfx with
      res := BitVec.ofNat 64 (maskOf 64 fun k => (nth {} runs k).ba), delays := runs.map RungState.done } } :=
    if_pos hact
  rw [ht]
  refine ⟨rfl, fun k hk n hn => ?_, fun k => refreshOutputs_on _ k⟩
  have hrun : runs[k]? = some (rungRun s n.code (nth [] s.rfx.delays k)) := by simp [runs, hn]
  refine ⟨?_, ?_⟩
  · refine (getLsbD_ofNat_maskOf _ hk hk).trans ?_
    simp only [nth, List.getD_eq_getElem?_getD, hrun, Option.getD_some]
  · change (runs.map RungState.done)[k]? = _
    simp [hrun]

/-- R243: the switch-off test of a pair that is commanded on. -/
theorem switchOffTest_shows {m : Fin 8} {even odd : Bool} {s : State} (hacts : spairActs s (2 * m) = true)
    (hcmd : pairedCommand s (2 * m) = true) (hheld : s.sbx.held = false) :
    let t := switchOffTest m even odd s
    Safety.Booked [2, 3] { s with saf := { s.saf with chFail := t.saf.chFail } } t ∧
    (∀ k : Fin 16, t.saf.chFail.getLsbD k =
      (if k.val = 2 * m then !odd else if k.val = 2 * m + 1 then !even else s.saf.chFail.getLsbD k)) ∧
    (odd = false → Safety.journals 0x422 2 (item (2 * m)) s t) ∧
    (even = false → Safety.journals 0x422 2 (item (2 * m + 1)) s t) := by
  intro t
  have ht : t = testWindow (2 * m) odd (testWindow (2 * m + 1) even s) := if_pos ⟨hacts, hcmd, by rw [hheld]; rfl⟩
  have h1 := testWindow_booked (2 * m + 1) even s
  have h2 := testWindow_booked (2 * m) odd (testWindow (2 * m + 1) even s)
  have hfail : t.saf = { s.saf with chFail := setBit (setBit s.saf.chFail (2 * m + 1) (!even)) (2 * m) (!odd) } := by
    rw [ht, testWindow_saf, testWindow_saf]
  refine ⟨?_, fun k => ?_, fun hodd => ?_, fun heven => ?_⟩
  · rw [hfail, ht]
    refine Safety.Booked.trans ?_ h2
    rw [testWindow_saf]
    exact h1.withSaf _
  · rw [hfail]
    dsimp only
    rw [getLsbD_setBit _ _ _ _ (by omega), getLsbD_setBit _ _ _ _ (by omega)]
  · subst hodd
    have hc := testWindow_changes (2 * m + 1) even s
    have hop : (testWindow (2 * m + 1) even s).clk.opUs = s.clk.opUs := hc.get .opUs
    exact testWindow_records h1.sjKept (by rw [ht]) (by rw [opMs, hop]; rfl) (hc.get .pwrCycles)
  · subst heven
    exact testWindow_records (u := s) List.prefix_rfl (by rw [ht]; exact h2.sjKept) rfl rfl

/-- R49, R243: the readback of a pair. -/
theorem pairReadback_bit (m : Fin 8) (v : Bool) (s : State) (k : Fin 16) :
    (pairReadback m v s).dio.readback.getLsbD k = if k.val / 2 = m then v else s.dio.readback.getLsbD k := by
  change (setBit (setBit s.dio.readback (2 * m) v) (2 * m + 1) v).getLsbD k = _
  rw [getLsbD_setBit _ _ _ _ (by omega), getLsbD_setBit _ _ _ _ (by omega)]
  by_cases h1 : k.val = 2 * m + 1
  · rw [if_pos h1, if_pos (by omega)]
  · by_cases h0 : k.val = 2 * m
    · rw [if_neg h1, if_pos h0, if_pos (by omega)]
    · rw [if_neg h1, if_neg h0, if_neg (by omega)]

theorem stuckBit (x : BitVec 8) (m k : Fin 8) (v : Bool) :
    (setBit x m v).getLsbD k = if k = m then v else x.getLsbD k := by
  rw [getLsbD_setBit _ _ _ _ m.isLt]
  simp only [Fin.val_inj]

/-- R243: a pair that is stuck on. -/
theorem spairStuck_shows {m : Fin 8} {s : State} (hacts : spairActs s (2 * m) = true)
    (hcmd : pairedCommand s (2 * m) = false) (hnew : s.saf.stuck.getLsbD m = false) :
    let t := spairStuck m s
    Safety.Booked [2, 3] { s with saf := { s.saf with stuck := t.saf.stuck }, dio := { s.dio with readback := t.dio.readback } } t ∧
    (∀ k : Fin 8, t.saf.stuck.getLsbD k = (decide (k = m) || s.saf.stuck.getLsbD k)) ∧
    (∀ k : Fin 16, t.dio.readback.getLsbD k = (decide (k.val / 2 = m) || s.dio.readback.getLsbD k)) ∧
    Safety.journals 0x421 2 (item m) s t := by
  intro t
  let u := pairReadback m true { s with saf := { s.saf with stuck := setBit s.saf.stuck m true } }
  have ht : t = sj 0x421 2 (item m) u := if_pos ⟨hacts, by rw [hcmd]; rfl, by rw [hnew]; rfl⟩
  have hc := sj_changes 0x421 2 (item m) u
  have hsaf : t.saf = u.saf := by rw [ht, hc.get .saf]
  have hdio : t.dio = u.dio := by rw [ht, hc.dio]
  refine ⟨?_, fun k => ?_, fun k => ?_, ?_⟩
  · rw [hsaf, hdio, ht]
    exact Safety.sj_booked 0x421 2 (item m) u
  · rw [hsaf]
    refine (stuckBit ..).trans ?_
    by_cases h : k = m <;> simp [h]
  · rw [hdio]
    refine (pairReadback_bit ..).trans ?_
    by_cases h : k.val / 2 = m <;> simp [h]
  · rw [ht]
    exact Safety.journals_of_sj (u := u) List.prefix_rfl List.prefix_rfl

/-- Settles O26: the three parts are the lemmas above, lap by lap, pair by pair and step by step. -/
theorem safetyAndReflexDriveTheOutputs : Obligations.SafetyAndReflexDriveTheOutputs := by
  refine ⟨fun a b c s => ⟨fun hb hs => ?other, fun hin hon => ?lap, fun hbring hoff hfree => ?first⟩,
    fun m even odd s => ⟨fun hacts hcmd hheld => ?test, fun hacts hcmd hnew => ?stuck, ?cleared⟩,
    fun s => ⟨fun hidle => ?still, fun hact hon => ?networks⟩⟩
  case other =>
    change Host.Outcome.next (btpLap _ s) = _
    unfold btpLap
    split
    next h => exact absurd h hb
    next h => exact absurd h hs
    next => rfl
  case lap =>
    have hexec : exec (.btpLap a b c) s = .next (btpStep [a, b, c] s) := by
      change Host.Outcome.next (btpLap _ s) = _
      rcases hin with h | ⟨h, hbtp⟩
      · simp only [btpLap, h]
      · simp only [btpLap, h, hbtp, if_true]
    obtain ⟨hbooked, hwait, hinvalid, hvalid⟩ := btpStep_shows (a := a) (b := b) (c := c) hon
    intro f below phases low high ft rt mains di rescue
    refine ⟨_, hexec, hbooked, hwait, hinvalid, fun hv => ?_⟩
    obtain ⟨hsaf, hcmd, hrecord⟩ := hvalid hv
    obtain ⟨hmains, hnotFirst, -⟩ := btpMains_shows (ssTable s) [a, b, c] s.saf
    refine ⟨hcmd, by rw [hsaf]; rfl, by rw [hsaf]; exact btpRescue_iff .., by rw [hsaf]; exact hmains, by rw [hsaf]; exact hnotFirst,
      fun k => ?_, fun hfirst hne => ?_⟩
    · rw [hcmd]
      exact btpOutputs_bit ..
    · obtain ⟨r, hr, hcode, hsev, hitems, hms, -⟩ := hrecord hfirst hne
      refine ⟨r, hr, hcode, hsev, hms, ?_⟩
      rw [hitems, hsaf]
      rfl
  case first =>
    have hexec : exec (.btpLap a b c) s = .next (btpStep [a, b, c] (serviceUp s)) := by
      change Host.Outcome.next (btpLap _ s) = _
      simp only [btpLap, hbring, hoff]
      rfl
    obtain ⟨hbtp, hdrivers, h5, h6, hstate, hstep⟩ := firstLap_shows (ps := [a, b, c]) hfree
    exact ⟨_, hexec, hbtp, hdrivers, h5, h6, hstate.trans hbring, hstep⟩
  case test => exact ⟨_, rfl, switchOffTest_shows hacts hcmd hheld⟩
  case stuck => exact ⟨_, rfl, spairStuck_shows hacts hcmd hnew⟩
  case cleared =>
    refine ⟨_, rfl, rfl, fun k => (stuckBit ..).trans ?_, fun k => (pairReadback_bit ..).trans ?_⟩
    · by_cases h : k = m <;> simp [h]
    · by_cases h : k.val / 2 = m <;> simp [h]
  case still =>
    change Host.Outcome.next (whenever (pdIs s 5) reflexStep s) = _
    rcases hidle with h | h
    · have hsame : reflexStep s = s := if_neg (by rw [h]; decide)
      rw [whenever, hsame, ite_self]
    · rw [whenever, pdIs, h]
      rfl
  case networks =>
    have hexec : exec .reflexStep s = .next (reflexStep s) := by
      change Host.Outcome.next (whenever (pdIs s 5) reflexStep s) = _
      rw [whenever, pdIs, hon, if_pos rfl]
    exact ⟨_, hexec, reflexStep_shows hact⟩

end
end Sys2Proof.Machine
end

section
/-! PROOF. The edit traffic of a pair (R196 to R199, R231). -/

namespace Sys2Proof.Machine

section
set_option Elab.async false

/-! ### A frame as the receiver takes it -/

theorem syncOn_of {s : State} (h11 : s.power.pdOn.getLsbD 11 = true) (hstate : s.power.state = .run ∨ s.power.state = .halt) :
    syncOn s = true := by
  have hin : inRunOrHalt s = true := by
    rcases hstate with h | h <;> rw [inRunOrHalt, h] <;> rfl
  rw [syncOn, hin, Bool.and_true]
  exact h11

/-- R208, R210: a valid frame, taken in a unit that takes part in SYNC. -/
theorem syncRx_of_parse {typ : Nat} {frame : Bytes} {f : SyncIn → State → State} {x : SyncIn} {s : State}
    (hon : syncOn s = true) (hparse : syncParse frame = some x) :
    syncRx typ frame f s = if x.typ = typ then f x (syncHeard s) else syncHeard s := by
  have h11 : pdIs s 11 = true := (Bool.and_eq_true_iff.1 hon).1
  simp only [syncRx, h11, hparse, hon, Bool.not_true, Bool.false_eq_true, if_false]

/-- A CONTROL frame of its code is handled with its arguments. -/
theorem controlRx_of_parse {code : Nat} {frame : Bytes} {f : SyncIn → Bytes → State → State} {x : SyncIn} {s : State}
    (hon : syncOn s = true) (hparse : syncParse frame = some x) (htyp : x.typ = 6) (hlen : 4 ≤ x.payload.length)
    (hcode : leAt x.payload 0 1 = code) : controlRx code frame f s = f x (x.payload.drop 4) (syncHeard s) := by
  rw [controlRx, syncRx_of_parse hon hparse, if_pos htyp, if_pos ⟨hcode, hlen⟩]

theorem syncHeard_changes (s : State) : Changes [.sbx] s (syncHeard s) := by
  unfold syncHeard
  exact Changes.of

/-- An edit command of its operation is handled with what follows it. -/
theorem editCmdRx_of_parse {op : Nat} {frame : Bytes} {f : Bytes → State → State} {x : SyncIn} {s : State}
    (hon : syncOn s = true) (hparse : syncParse frame = some x) (htyp : x.typ = 6) (hlen : 4 ≤ x.payload.length)
    (hcode : leAt x.payload 0 1 = 7) (hop : leAt x.payload 4 1 = op) :
    editCmdRx op frame f s = f (x.payload.drop 5) (syncHeard s) := by
  have harg : leAt (x.payload.drop 4) 0 1 = op := by rw [leAt_drop, hop]
  rw [editCmdRx, controlRx_of_parse hon hparse htyp hlen hcode, if_pos harg, List.drop_drop]

/-! ### What the edit's end in either unit leaves -/

theorem editVerifyNote_changes (r : Except EditFail (List CodeBlock)) (s : State) :
    Changes (.prog :: bookParts) s (editVerifyNote r s) := by
  have hnote : ∀ v (u : State), Changes [.prog] u (noteVerify v u) := fun v u => by
    unfold noteVerify
    exact Changes.of
  unfold editVerifyNote
  split
  · exact (hnote ..).mono
  · split
    · exact (hnote ..).mono.trans (sj_changes ..)
    · exact Changes.ite (hnote ..).mono (.refl _ s)

theorem syncControl_edit (code : Nat) (args : Bytes) (s : State) : (syncControl code args s).edit = s.edit :=
  (syncControl_changes ..).get .edit

/-- A checked edit is held, with its program. -/
theorem editHeldNow_shows (p : Bytes) (new : List CodeBlock) (s : State) :
    (editHeldNow p new s).edit.state = .loaded ∧ (editHeldNow p new s).edit.prog = new := by
  unfold editHeldNow
  dsimp only
  rw [(sj_changes ..).get .edit]
  exact ⟨rfl, rfl⟩

theorem asyncDone_edit (code status : Byte) (s : State) : (asyncDone code status s).edit = s.edit :=
  (asyncDone_changes ..).get .edit

/-- A rejected edit is dropped, its code shown. -/
theorem editRejected_shows (code ver unit : Nat) (s : State) :
    (editRejected code ver unit s).edit.state = .none ∧ (editRejected code ver unit s).edit.result = BitVec.ofNat 8 code := by
  unfold editRejected
  dsimp only
  rw [asyncDone_edit, (sj_changes ..).get .edit]
  exact ⟨rfl, rfl⟩

theorem editNone_changes (s : State) : Changes [.edit] s (editNone s) := by
  unfold editNone
  exact Changes.of

theorem editRejected_changes (code ver unit : Nat) (s : State) :
    Changes (.edit :: .async :: bookParts) s (editRejected code ver unit s) :=
  ((((editNone_changes s).mono.also [.edit]).trans (sj_changes ..))).trans (asyncDone_changes ..)

theorem endTrial_shows (reason code : Nat) (s : State) :
    (endTrial reason code s).edit.state = (if reason = 0 then .ripe else .loaded) ∧
      (endTrial reason code s).edit.abort = BitVec.ofNat 4 reason ∧ (endTrial reason code s).edit.window = s.edit.window := by
  unfold endTrial
  dsimp only
  rw [(sj_changes ..).get .edit]
  exact ⟨rfl, rfl, rfl⟩

/-- R197: a trial starts with its window, or is over at once where the window is 0. -/
theorem trialStart_shows (window first : Nat) (s : State) :
    (trialStart window first s).edit.state = (if window = 0 then .ripe else .trial) ∧
      (trialStart window first s).edit.window = window := by
  unfold trialStart
  dsimp only
  split
  next h =>
    obtain ⟨hstate, -, hwindow⟩ := endTrial_shows 0 0 { s with edit := { s.edit with
      state := .trial, window := window, trialRun := 0, trialDiff := 0, reports := [], trial := none, aborted := false
      trialFirst := BitVec.ofNat 64 first } }
    exact ⟨hstate, hwindow⟩
  next =>
    rw [(sj_changes ..).get .edit]
    exact ⟨rfl, rfl⟩

/-- A dropped edit leaves no edit and an empty inactive bank. -/
theorem editDiscarded_shows (cause : Nat) (s : State) :
    (editDiscarded cause s).edit.state = .none ∧ bankOf (!s.upd.active) (editDiscarded cause s) = {} := by
  have hc : Changes (.edit :: bookParts) (emptyInactive s) (editDiscarded cause s) :=
    (editNone_changes _).mono.trans (sj_changes ..)
  refine ⟨?_, ?_⟩
  · rw [editDiscarded, (sj_changes ..).get .edit]
    rfl
  · have hupd : (editDiscarded cause s).upd = (emptyInactive s).upd := hc.upd
    rw [bankOf, hupd, emptyInactive]
    cases s.upd.active <;> rfl

theorem obeys_of_tracking {s : State} (hrole : s.power.role = .pacer) (hcond : s.sby.cond ≠ .withdrawn) : obeys s = true := by
  simp [obeys, hrole, hcond]

/-! ### The frames of an edit -/

/-- The bytes of the package held after a segment, from those held before. -/
def forwarded (x : SyncIn) (held : Bytes) : Bytes :=
  (if leAt x.payload 4 4 = 0 then [] else held) ++ x.payload.drop 8

/-- The state with these bytes in delta staging. -/
def forwardStaged (total : Nat) (kept all : Bytes) (s : State) : State :=
  stagingWrite { s with
    edit := { s.edit with fwdBytes := kept }, upd := { s.upd with edit := some { total := total, received := all.length, data := all } } }

theorem editFwd_of_more {x : SyncIn} {s : State} (hobeys : obeys s = true)
    (hnext : (if leAt x.payload 4 4 = 0 then [] else s.edit.fwdBytes).length = leAt x.payload 4 4) (hmore : x.last = false) :
    editFwd x (x.payload.drop 4) s = forwardStaged 0 (forwarded x s.edit.fwdBytes) (forwarded x s.edit.fwdBytes) s := by
  simp only [editFwd, hobeys, leAt_drop, hmore, List.drop_drop, Bool.not_true, Bool.false_eq_true, if_false]
  rw [if_neg (not_not.2 hnext)]
  rfl

/-- The last segment: the package is checked whole and its result returns. -/
theorem editFwd_of_last {x : SyncIn} {s : State} (hobeys : obeys s = true)
    (hnext : (if leAt x.payload 4 4 = 0 then [] else s.edit.fwdBytes).length = leAt x.payload 4 4) (hlast : x.last = true) :
    let s1 := forwardStaged (forwarded x s.edit.fwdBytes).length [] (forwarded x s.edit.fwdBytes) s
    (∀ new, editCheck (forwarded x s.edit.fwdBytes) s1 = .ok new → (editFwd x (x.payload.drop 4) s).edit.state = .loaded ∧
      (editFwd x (x.payload.drop 4) s).edit.prog = new) ∧
    (∀ e, editCheck (forwarded x s.edit.fwdBytes) s1 = .error e → (editFwd x (x.payload.drop 4) s).edit.state = .none ∧
      (editFwd x (x.payload.drop 4) s).edit.result = BitVec.ofNat 8 e.code) := by
  intro s1
  have hdef : editFwd x (x.payload.drop 4) s =
      (fun r => match r with
        | .ok new => syncControl 6 (leBytes 1 0) (editHeldNow (forwarded x s.edit.fwdBytes) new (editVerifyNote r s1))
        | .error f => syncControl 6 (leBytes 1 f.code)
            (editRejected f.code ((f.verify.map VerFail.code).getD 0) 0 (editVerifyNote r s1))) (editCheck (forwarded x s.edit.fwdBytes) s1) := by
    simp only [editFwd, hobeys, leAt_drop, hlast, List.drop_drop, Bool.not_true, Bool.false_eq_true, if_false]
    rw [if_neg (not_not.2 hnext)]
    rfl
  rw [hdef]
  generalize editCheck (forwarded x s.edit.fwdBytes) s1 = r
  refine ⟨fun new h => ?_, fun e h => ?_⟩
  · subst h
    change (syncControl 6 _ (editHeldNow (forwarded x s.edit.fwdBytes) new _)).edit.state = _ ∧ _
    rw [syncControl_edit]
    exact editHeldNow_shows ..
  · subst h
    change (syncControl 6 _ (editRejected e.code _ 0 _)).edit.state = _ ∧ _
    rw [syncControl_edit]
    exact editRejected_shows ..

/-! ### The statement -/

/-- The operations of EDIT_CMD at a tracking pacer. -/
theorem editCommands_show {f : Bytes} {x : SyncIn} {s : State} (hon : syncOn s = true) (hparse : syncParse f = some x)
    (htyp : x.typ = 6) (hlen : 4 ≤ x.payload.length) (hcode : leAt x.payload 0 1 = 7)
    (hrole : s.power.role = .pacer) (hcond : s.sby.cond = .tracking) :
    (leAt x.payload 4 1 = 1 → s.edit.state = .loaded → ∃ t, exec (.editCmdTrialStart f) s = .next t ∧
      t.edit.state = (if leAt x.payload 5 2 = 0 then .ripe else .trial) ∧ t.edit.window = leAt x.payload 5 2) ∧
    (leAt x.payload 4 1 = 2 → s.edit.state = .trial → ∃ t, exec (.editCmdTrialAbort f) s = .next t ∧ t.edit.state = .loaded ∧
      t.edit.abort = 1) ∧
    (leAt x.payload 4 1 = 3 → s.edit.state ∈ [.loaded, .trial, .ripe] → ∃ t, exec (.editCmdDiscard f) s = .next t ∧
      t.edit.state = .none ∧ bankOf (!s.upd.active) t = {}) ∧
    (leAt x.payload 4 1 = 4 → exec (.editCmdReport f) s =
      .next (syncControl 8 (s.edit.reports.getD (leAt x.payload 5 1) (zeros 1056)) (syncHeard s))) := by
  have hobeys : obeys (syncHeard s) = true := obeys_of_tracking hrole (by rw [show (syncHeard s).sby = s.sby from rfl, hcond]; decide)
  refine ⟨fun hop hloaded => ?start, fun hop htrial => ?abort, fun hop hheld => ?discard, fun hop => ?report⟩
  case start =>
    have hnext : exec (.editCmdTrialStart f) s = .next (trialStart (leAt x.payload 5 2) (nextShadow (syncHeard s)) (syncHeard s)) := by
      change Host.Outcome.next (editCmdRx 1 f _ s) = _
      rw [editCmdRx_of_parse hon hparse htyp hlen hcode hop, leAt_drop, peerTrialStart, if_pos ⟨hobeys, hloaded, hcond⟩]
    exact ⟨_, hnext, trialStart_shows ..⟩
  case abort =>
    have hnext : exec (.editCmdTrialAbort f) s = .next (endTrial 1 0 (syncHeard s)) := by
      change Host.Outcome.next (editCmdRx 2 f _ s) = _
      rw [editCmdRx_of_parse hon hparse htyp hlen hcode hop, if_pos hobeys, abortTrial,
        if_pos (show (syncHeard s).edit.state = .trial from htrial)]
    obtain ⟨hstate, habort, -⟩ := endTrial_shows 1 0 (syncHeard s)
    exact ⟨_, hnext, hstate, habort⟩
  case discard =>
    have hother : s.edit.state ≠ .none ∧ s.edit.state ≠ .adopting := by
      revert hheld
      cases s.edit.state <;> decide
    have hnext : exec (.editCmdDiscard f) s = .next (editDiscarded 0 (abortTrial 1 (syncHeard s))) := by
      change Host.Outcome.next (editCmdRx 3 f _ s) = _
      rw [editCmdRx_of_parse hon hparse htyp hlen hcode hop, peerDiscard, if_pos ⟨hobeys, hother⟩]
    obtain ⟨hstate, hbank⟩ := editDiscarded_shows 0 (abortTrial 1 (syncHeard s))
    have hactive : (abortTrial 1 (syncHeard s)).upd = s.upd := (abortTrial_changes ..).upd
    rw [hactive] at hbank
    exact ⟨_, hnext, hstate, hbank⟩
  case report =>
    change Host.Outcome.next (editCmdRx 4 f _ s) = _
    rw [editCmdRx_of_parse hon hparse htyp hlen hcode hop, leAt_drop, peerReport, if_pos hobeys]
    rfl

theorem forward_length {x : SyncIn} {s : State}
    (h : (if leAt x.payload 4 4 = 0 then 0 else s.edit.fwdBytes.length) = leAt x.payload 4 4) :
    (if leAt x.payload 4 4 = 0 then [] else s.edit.fwdBytes).length = leAt x.payload 4 4 := by
  refine Eq.trans ?_ h
  split <;> rfl

/-- EDIT_FWD at a pacer that obeys its leader. -/
theorem editForward_shows {f : Bytes} {x : SyncIn} {s : State} (hon : syncOn s = true) (hparse : syncParse f = some x)
    (htyp : x.typ = 6) (hlen : 4 ≤ x.payload.length) (hcode : leAt x.payload 0 1 = 5)
    (hrole : s.power.role = .pacer) (hcond : s.sby.cond ≠ .withdrawn)
    (hnext : (if leAt x.payload 4 4 = 0 then 0 else s.edit.fwdBytes.length) = leAt x.payload 4 4) :
    let all := forwarded x s.edit.fwdBytes
    let staged := forwardStaged all.length [] all (syncHeard s)
    (x.last = false → exec (.editFwd f) s = .next (forwardStaged 0 all all (syncHeard s))) ∧
    (x.last = true → ∃ t, exec (.editFwd f) s = .next t ∧
      (∀ new, editCheck all staged = .ok new → t.edit.state = .loaded ∧ t.edit.prog = new) ∧
      (∀ e, editCheck all staged = .error e → t.edit.state = .none ∧ t.edit.result = BitVec.ofNat 8 e.code)) := by
  have hobeys : obeys (syncHeard s) = true := obeys_of_tracking hrole hcond
  have hsame : (syncHeard s).edit = s.edit := rfl
  have hlength := forward_length (s := syncHeard s) (by rw [hsame]; exact hnext)
  have hexec : exec (.editFwd f) s = .next (editFwd x (x.payload.drop 4) (syncHeard s)) := by
    change Host.Outcome.next (controlRx 5 f editFwd s) = _
    rw [controlRx_of_parse hon hparse htyp hlen hcode]
  intro all staged
  refine ⟨fun hmore => ?_, fun hlast => ?_⟩
  · rw [hexec, editFwd_of_more hobeys hlength hmore, hsame]
  · have hchecked := editFwd_of_last hobeys hlength hlast
    rw [hsame] at hchecked
    exact ⟨_, hexec, hchecked⟩

/-- EDIT_RESULT at the leader that waits for it. -/
theorem editResult_shows {code : Nat} {s : State} (hwait : s.edit.peerWait = true) :
    (code = 0 → (editResult code s).edit.state = .loaded ∧ (editResult code s).edit.prog = s.edit.prog) ∧
      (code ≠ 0 → (editResult code s).edit.state = .none ∧ (editResult code s).edit.result = 10) := by
  refine ⟨fun hok => ?_, fun hbad => ?_⟩
  · rw [editResult, if_pos hwait, if_pos hok, asyncDone_edit]
    exact editHeldNow_shows ..
  · rw [editResult, if_pos hwait, if_neg hbad]
    exact editRejected_shows ..

/-- Settles O48: each frame is handled with its arguments, and what it leaves of the edit is shown above. -/
theorem editsCrossThePair : Obligations.EditsCrossThePair := by
  intro f x s h arg control
  have hcontrol : ∀ {code}, control code → syncOn s = true ∧ syncParse f = some x ∧ x.typ = 6 ∧ 4 ≤ x.payload.length ∧
      leAt x.payload 0 1 = code := by
    rintro code ⟨h11, hrun, hparse, htyp, hlen, hcode⟩
    exact ⟨syncOn_of h11 (.inl hrun), hparse, htyp, hlen, hcode⟩
  refine ⟨fun hc hrole hcond hnext => ?forward, fun hc hwait => ?result, fun hwait => ?timeout, fun hwait => ?idle,
    fun hc hrole hcond => ?commands, fun hc => ?report⟩
  case forward =>
    obtain ⟨hon, hparse, htyp, hlen, hcode⟩ := hcontrol hc
    exact editForward_shows hon hparse htyp hlen hcode hrole hcond hnext
  case result =>
    obtain ⟨hon, hparse, htyp, hlen, hcode⟩ := hcontrol hc
    have hexec : exec (.editResult f) s = .next (editResult (leAt x.payload 4 1) (syncHeard s)) := by
      change Host.Outcome.next (controlRx 6 f (fun _ a t => editResult (leAt a 0 1) t) s) = _
      rw [controlRx_of_parse hon hparse htyp hlen hcode, leAt_drop]
    exact ⟨_, hexec, editResult_shows (s := syncHeard s) hwait⟩
  case timeout =>
    have hexec : exec .editPeerTimeout s = .next (editRejected 10 0 1 (editCommand (leBytes 1 3) s)) := by
      change Host.Outcome.next (editPeerTimeout s) = _
      rw [editPeerTimeout, if_pos hwait]
    obtain ⟨hstate, hresult⟩ := editRejected_shows 10 0 1 (editCommand (leBytes 1 3) s)
    refine ⟨_, hexec, hstate, hresult, ?_⟩
    rw [(editRejected_changes ..).get .prog]
    exact (syncControl_changes ..).get .prog
  case idle =>
    change Host.Outcome.next (editPeerTimeout s) = _
    rw [editPeerTimeout, hwait]
    rfl
  case commands =>
    obtain ⟨hon, hparse, htyp, hlen, hcode⟩ := hcontrol hc
    exact editCommands_show hon hparse htyp hlen hcode hrole hcond
  case report =>
    obtain ⟨hon, hparse, htyp, hlen, hcode⟩ := hcontrol hc
    have hexec : exec (.editReport f) s = .next (editReport x (x.payload.drop 4) (syncHeard s)) := by
      change Host.Outcome.next (controlRx 8 f editReport s) = _
      rw [controlRx_of_parse hon hparse htyp hlen hcode]
    refine ⟨fun hmore => ?_, fun hlast a as hto => ?_⟩
    · rw [hexec, editReport, hmore]
      rfl
    · rw [hexec, editReport, hlast]
      have hto' : (syncHeard s).px.reportTo = a :: as := hto
      simp only [if_true, hto']
      rfl

end
end Sys2Proof.Machine
end

section
/-! PROOF. What SYNC carries (R208 to R213, R217, R228, R364). -/

namespace Sys2Proof.Machine

section
set_option Elab.async false

/-! ### Bytes of an image -/

/-- A bit outside the field stands. -/
theorem getLsbD_setField_out {w i n j x : Nat} (v : BitVec w) (hj : j < i ∨ i + n ≤ j) :
    (setField v i n x).getLsbD j = v.getLsbD j := by
  by_cases hw : j < w
  · have hmask : ((2 ^ n - 1) * 2 ^ i).testBit j = false := by
      rw [Nat.testBit_mul_two_pow, Nat.testBit_two_pow_sub_one]
      rcases hj with h | h
      · simp [Nat.not_le.2 h]
      · simp [show ¬ j - i < n by omega]
    have hfield : (x % 2 ^ n * 2 ^ i).testBit j = false := by
      rw [Nat.testBit_mul_two_pow]
      rcases hj with h | h
      · simp [Nat.not_le.2 h]
      · simp [Nat.testBit_mod_two_pow, show ¬ j - i < n by omega]
    rw [setField, BitVec.getLsbD_or, BitVec.getLsbD_and, BitVec.getLsbD_not, BitVec.getLsbD_ofNat, BitVec.getLsbD_ofNat, hmask, hfield]
    simp [hw]
  · rw [BitVec.getLsbD_of_ge _ _ (by omega), BitVec.getLsbD_of_ge _ _ (by omega)]

/-- Byte `y` after byte `x` has been set. -/
theorem byte_setField {w x y : Nat} (q : BitVec w) (v : Byte) (hx : 8 * x + 8 ≤ w) :
    (setField q (8 * x) 8 v.toNat).extractLsb' (8 * y) 8 = if y = x then v else q.extractLsb' (8 * y) 8 := by
  apply BitVec.eq_of_getLsbD_eq
  intro k hk
  rw [BitVec.getLsbD_extractLsb', decide_eq_true hk, Bool.true_and]
  by_cases h : y = x
  · subst h
    rw [if_pos rfl, getLsbD_setField_in _ hk (by omega)]
    rfl
  · rw [if_neg h, BitVec.getLsbD_extractLsb', decide_eq_true hk, Bool.true_and]
    exact getLsbD_setField_out _ (by omega)

/-! ### STATE frames -/

def stateParts : List Part := [.img, .rfx, .data]

theorem setStateByte_changes (x : Nat) (v : Byte) (s : State) : Changes stateParts s (setStateByte x v s) := by
  unfold setStateByte
  dsimp only
  split_ifs
  all_goals first
    | exact (dataWrite_changes ..).mono
    | exact Changes.refl ..
    | exact Changes.of

/-- Bytes with their places, written one by one. -/
def writeStateBytes (off : Nat) (l : List (Byte × Nat)) (s : State) : State :=
  l.foldl (fun t p => setStateByte (off + p.2) p.1 t) s

theorem writeStateBytes_changes (off : Nat) (l : List (Byte × Nat)) (s : State) :
    Changes stateParts s (writeStateBytes off l s) := .foldl (fun _ _ => setStateByte_changes ..) _ s

theorem setStateByte_q {x : Nat} (hx : x < 1024) (v : Byte) (s : State) (y : Nat) :
    (setStateByte x v s).img.q.extractLsb' (8 * y) 8 = if y = x then v else s.img.q.extractLsb' (8 * y) 8 := by
  have hset : setStateByte x v s = { s with img := { s.img with q := setField s.img.q (8 * x) 8 v.toNat } } := if_pos hx
  rw [hset]
  exact byte_setField _ v (by omega)

/-- Bytes written to places of their own in Q stand there, and the others as before. -/
theorem writeStateBytes_q (off : Nat) (l : List (Byte × Nat)) (s : State) (hplace : ∀ p ∈ l, off + p.2 < 1024)
    (hdistinct : (l.map Prod.snd).Nodup) :
    (∀ p ∈ l, (writeStateBytes off l s).img.q.extractLsb' (8 * (off + p.2)) 8 = p.1) ∧
      ∀ k ∉ l.map Prod.snd, (writeStateBytes off l s).img.q.extractLsb' (8 * (off + k)) 8 = s.img.q.extractLsb' (8 * (off + k)) 8 := by
  induction l generalizing s with
  | nil => exact ⟨nofun, fun _ _ => rfl⟩
  | cons a l ih =>
    rw [List.map_cons, List.nodup_cons] at hdistinct
    obtain ⟨hfresh, hdistinct⟩ := hdistinct
    obtain ⟨hin, hout⟩ := ih (setStateByte (off + a.2) a.1 s) (fun p hp => hplace p (.tail _ hp)) hdistinct
    have hfirst := setStateByte_q (hplace a (.head _)) a.1 s
    refine ⟨fun p hp => ?_, fun k hk => ?_⟩
    · rcases List.mem_cons.1 hp with rfl | hp
      · exact (hout _ hfresh).trans ((hfirst _).trans (if_pos rfl))
      · exact hin p hp
    · rw [List.map_cons, List.mem_cons, not_or] at hk
      obtain ⟨hne, hk⟩ := hk
      exact (hout k hk).trans ((hfirst _).trans (if_neg (by omega)))

theorem setStateBytes_changes (off : Nat) (bs : Bytes) (s : State) : Changes stateParts s (setStateBytes off bs s) :=
  writeStateBytes_changes ..

/-- Bytes of Q written from an offset on. -/
theorem setStateBytes_q {off : Nat} {bs : Bytes} {s : State} (hfits : off + bs.length ≤ 1024) {i : Nat} (hi : i < bs.length) :
    (setStateBytes off bs s).img.q.extractLsb' (8 * (off + i)) 8 = nth 0 bs i := by
  have hsnd : (bs.zip (List.range bs.length)).map Prod.snd = List.range bs.length :=
    List.map_snd_zip (by rw [List.length_range])
  have hplace : ∀ p ∈ bs.zip (List.range bs.length), off + p.2 < 1024 := by
    intro p hp
    have hk : p.2 ∈ List.range bs.length := hsnd ▸ List.mem_map_of_mem hp
    have := List.mem_range.1 hk
    omega
  obtain ⟨hin, -⟩ := writeStateBytes_q off _ s hplace (by rw [hsnd]; exact List.nodup_range)
  have hmem : (nth 0 bs i, i) ∈ bs.zip (List.range bs.length) := by
    rw [List.mem_iff_getElem]
    refine ⟨i, by simpa using hi, ?_⟩
    simp [nth, hi]
  exact hin _ hmem

theorem resyncEnded_changes (r : Nat) (s : State) : Changes bookParts s (resyncEnded r s) :=
  (drawn_changes s).mono.trans (sj_changes ..)

/-- R217: a STATE frame at a resynchronising pacer. -/
theorem stateHeard_shows {x : SyncIn} {s : State} (hrole : s.power.role = .pacer) (hcond : s.sby.cond = .resync)
    (hlen : 4 ≤ x.payload.length) :
    (stateHeard x s).sby.cond = (if x.last then .tracking else .resync) ∧
      (stateHeard x s).lap.num = (if x.last then BitVec.ofNat 64 x.lap else s.lap.num) ∧
      (stateHeard x s).power = s.power ∧ (stateHeard x s).dio = s.dio ∧
      (stateHeard x s).img = (setStateBytes (leAt x.payload 0 4) (x.payload.drop 4) s).img := by
  have hset := setStateBytes_changes (leAt x.payload 0 4) (x.payload.drop 4) s
  unfold stateHeard
  rw [if_pos ⟨hrole, .inl hcond, hlen⟩]
  generalize setStateBytes (leAt x.payload 0 4) (x.payload.drop 4) s = u at hset
  have hsame : u.sby.cond = .resync := by rw [hset.get .sby, hcond]
  cases hlast : x.last with
  | false =>
    simp only [Bool.not_false, if_true, hsame, reduceCtorEq, if_false]
    exact ⟨trivial, hset.get .lapNum, hset.power, hset.dio, trivial⟩
  | true =>
    simp only [Bool.not_true, Bool.false_eq_true, if_false, hsame, if_true]
    have hend := resyncEnded_changes x.lap { u with
      lap := { u.lap with num := BitVec.ofNat 64 x.lap }
      sby := { u.sby with lagLaps := 0, cond := .tracking }
      sbx := { u.sbx with shadowLap := BitVec.ofNat 64 x.lap, lsQueue := [] } }
    exact ⟨congrArg Sby.cond (hend.get .sby), hend.get .lapNum, hend.power.trans hset.power, hend.dio.trans hset.dio,
      hend.get .img⟩

/-! ### A shadow lap -/

theorem discardEvents_changes (s : State) : Changes (.layout :: bookParts) s (discardEvents s) :=
  .foldl (fun _ _ => drainEvent_changes ..) _ s

/-- Only a leader notes what it writes. -/
theorem lapWrites_of_pacer {s : State} (h : s.power.role = .pacer) (a n : Nat) : lapWrites a n s = s :=
  if_neg fun hwrites => by
    rw [h] at hwrites
    exact nomatch hwrites.1

theorem pairNotes_sbx (n dt : Nat) (a b : Bool) (notes : List PairNote) (s : State) :
    Changes (.saf :: bookParts) s (pairNotes n dt a b notes s) := by
  refine .foldl (fun u x => ?_) notes s
  cases x
  case latch => exact ((Changes.refl _ u).also [.saf]).trans (sj_changes ..)
  case resetFailed => exact (sj_changes ..).mono
  case cleared => exact (sj_changes ..).mono
  case ackIgnored => exact .of

/-- What the evaluation of pairs changes in a pacer. -/
def pacerPairParts : List Part := .img :: .edit :: .saf :: bookParts

theorem pairStep_pacer (n : Nat) {s : State} (h : s.power.role = .pacer) : Changes pacerPairParts s (pairStep n s).1 := by
  have hset (i : Images) (a k : Nat) : Changes pacerPairParts s (lapWrites a k (setImg i s)) := by
    have himg := setImg_changes i s
    rw [lapWrites_of_pacer (by rw [himg.get .role, h])]
    exact himg.mono
  unfold pairStep
  dsimp only
  split_ifs
  · exact .refl _ s
  · exact hset ..
  · exact (hset ..).trans (pairNotes_sbx ..)

theorem pairsEval_pacer {s : State} (h : s.power.role = .pacer) : Changes (.ctxRest :: pacerPairParts) s (pairsEval s).1 := by
  have hall : ∀ (l : List Nat) (acc : State × Nat), acc.1.power.role = .pacer →
      Changes pacerPairParts acc.1 (l.foldl (fun (acc : State × Nat) n =>
        let (t, k) := pairStep n acc.1
        (t, acc.2 + b2n k * 2 ^ n)) acc).1 := by
    intro l
    induction l with
    | nil => exact fun acc _ => .refl ..
    | cons n l ih =>
      intro acc hacc
      have hone := pairStep_pacer n hacc
      exact hone.join (ih ((pairStep n acc.1).1, acc.2 + b2n (pairStep n acc.1).2 * 2 ^ n) ((hone.get .role).trans hacc))
  have hrange := hall (List.range 16) (s, 0) h
  unfold pairsEval
  generalize List.foldl _ (s, 0) _ = r at hrange ⊢
  exact hrange.mono.also [.ctxRest]

/-- With no edit at all, the adoption token is noted at most. -/
theorem takeAdopt_of_none {s : State} (h : s.edit.state = .none) (lap : Nat) (conf : Bool) :
    ∃ b, takeAdopt lap conf s = { s with sbx := { s.sbx with adoptAck := b } } := by
  unfold takeAdopt
  simp only [h, reduceCtorEq, false_and, decide_false, Bool.or_self, Bool.false_eq_true, if_false]
  split
  · exact ⟨false, rfl⟩
  · exact ⟨s.sbx.adoptAck, rfl⟩

theorem batonPassed_of_none {s : State} (h : s.sbx.batonB = 0) : batonPassed s = s := if_neg fun hpass => hpass.1 h

theorem adoptReady_of_none {s : State} (h : s.edit.state = .none) : adoptReady s = false := by
  simp [adoptReady, h]

theorem trialCopy_of_none {s : State} (h : s.edit.state = .none) : trialCopy s = s := if_neg fun htrial => by
  rw [h] at htrial
  exact nomatch htrial.1

/-- The state in which the tokens of a LAPSTART have been taken, with no edit and no baton pass. -/
def shadowNumbered (n : Nat) (p : Bytes) (s : State) : State :=
  takeTokens p (discardEvents { s with
    lap := { s.lap with num := BitVec.ofNat 64 n, freezeUs := s.clk.opUs }, sbx := { s.sbx with shadowLap := BitVec.ofNat 64 n } })

theorem shadowNumbered_shows (n : Nat) (p : Bytes) (s : State) :
    (shadowNumbered n p s).lap = { s.lap with
      num := BitVec.ofNat 64 n, freezeUs := s.clk.opUs, nowMs := BitVec.ofNat 32 (leAt p 0 4) } ∧
      (shadowNumbered n p s).sbx = { s.sbx with shadowLap := BitVec.ofNat 64 n } ∧
      (shadowNumbered n p s).edit = s.edit ∧ (shadowNumbered n p s).power = s.power := by
  have hd := discardEvents_changes { s with
    lap := { s.lap with num := BitVec.ofNat 64 n, freezeUs := s.clk.opUs }, sbx := { s.sbx with shadowLap := BitVec.ofNat 64 n } }
  unfold shadowNumbered
  generalize discardEvents _ = d at hd
  refine ⟨?_, hd.get .sbx, hd.get .edit, hd.power⟩
  exact congrArg (fun l : Lap => { l with nowMs := BitVec.ofNat 32 (leAt p 0 4) }) hd.lap

/-- A shadow lap with no edit and no baton pass is begun from the numbered state, the tokens of both noted. -/
theorem shadowBegin_eq {n : Nat} {p : Bytes} {s : State} (hedit : s.edit.state = .none) (hbaton : s.sbx.batonB = 0) :
    ∃ b, shadowBegin n p s = beginExecution .shadow (pairsEval (takeBaton (leAt p 48 8) (bitOf (leAt p 14 1) 1)
      { shadowNumbered n p s with sbx := { (shadowNumbered n p s).sbx with adoptAck := b } })).1 := by
  obtain ⟨-, hsbx, hnoEdit, -⟩ := shadowNumbered_shows n p s
  have hnone : (shadowNumbered n p s).edit.state = .none := by rw [hnoEdit, hedit]
  obtain ⟨b, htaken⟩ := takeAdopt_of_none hnone (leAt p 40 8) (bitOf (leAt p 14 1) 0)
  refine ⟨b, ?_⟩
  unfold shadowBegin
  rw [trialCopy_of_none (s := { s with
    lap := { s.lap with num := BitVec.ofNat 64 n, freezeUs := s.clk.opUs }
    sbx := { s.sbx with shadowLap := BitVec.ofNat 64 n } }) hedit]
  change beginExecution .shadow (pairsEval (takeBaton (leAt p 48 8) (bitOf (leAt p 14 1) 1) (batonPassed
    (takeAdopt (leAt p 40 8) (bitOf (leAt p 14 1) 0)
      (if adoptReady (shadowNumbered n p s) then adoptEdit (shadowNumbered n p s) else shadowNumbered n p s))))).1 = _
  generalize shadowNumbered n p s = u at hsbx hnone htaken ⊢
  rw [adoptReady_of_none hnone, if_neg Bool.false_ne_true, htaken, batonPassed_of_none]
  exact (congrArg SbyCtx.batonB hsbx).trans hbaton

/-- A shadow lap begins with NOW_MS of its LAPSTART, where no edit and no baton pass stands. -/
theorem shadowBegin_shows {n : Nat} {p : Bytes} {s : State} (hrole : s.power.role = .pacer) (hedit : s.edit.state = .none)
    (hbaton : s.sbx.batonB = 0) :
    let t := shadowBegin n p s
    t.lap.running = .shadow ∧ t.lap.num = BitVec.ofNat 64 n ∧ t.lap.nowMs = BitVec.ofNat 32 (leAt p 0 4) ∧
      t.lap.nowBase = s.lap.nowBase ∧ t.sbx.shadowLap = BitVec.ofNat 64 n ∧ t.power.role = .pacer := by
  obtain ⟨hlap, hsbx, -, hpower⟩ := shadowNumbered_shows n p s
  obtain ⟨b, hbegun⟩ := shadowBegin_eq (n := n) (p := p) hedit hbaton
  intro t
  generalize shadowNumbered n p s = v at hlap hsbx hpower hbegun
  obtain ⟨u, hu⟩ : ∃ u, u = takeBaton (leAt p 48 8) (bitOf (leAt p 14 1) 1) { v with sbx := { v.sbx with adoptAck := b } } := ⟨_, rfl⟩
  rw [← hu] at hbegun
  have hupower : u.power = s.power := by rw [hu]; exact hpower
  have hulap : u.lap = v.lap := by rw [hu]; rfl
  have hushadow : u.sbx.shadowLap = BitVec.ofNat 64 n := by rw [hu]; exact congrArg SbyCtx.shadowLap hsbx
  have hpairs := pairsEval_pacer (s := u) (by rw [hupower, hrole])
  have hc : Changes (.running :: .bu :: .bx :: .ctxRest :: pacerPairParts) u t := by
    rw [show t = beginExecution .shadow (pairsEval u).1 from hbegun]
    exact hpairs.mono.trans (beginExecution_changes ..)
  have hrest : Part.Same .lapRest u t := hc.get .lapRest
  simp only [Part.Same] at hrest
  have hnum : t.lap.num = u.lap.num := hc.get .lapNum
  refine ⟨?_, ?_, ?_, ?_, ?_, ?_⟩
  · rw [show t = beginExecution .shadow (pairsEval u).1 from hbegun, beginExecution_running]
  · rw [hnum, hulap, hlap]
  · rw [hrest, hulap, hlap]
  · rw [hrest, hulap, hlap]
  · rw [hc.get .sbx, hushadow]
  · rw [hc.get .role, hupower, hrole]

/-! ### LAPSTART as one frame -/

/-- The pacer with its one LAPSTART waiting. -/
def shadowWaits (x : SyncIn) (s : State) : State :=
  { syncHeard s with
    lap := { s.lap with nowBase := (s.clk.opUs : Int) - 1000 * (leAt x.payload 0 4 : Int) }
    sbx := { (syncHeard s).sbx with lsRxUs := s.clk.opUs, trialDue := false, lsQueue := [(x.lap, x.payload)] } }

theorem satAdd_zero {w : Nat} (c : BitVec w) : satAdd c 0 = c := by
  have hlt := c.isLt
  rw [satAdd, Nat.add_zero, Nat.min_eq_left (by omega), BitVec.ofNat_toNat, BitVec.setWidth_eq]

theorem satAdd_one {w : Nat} (c : BitVec w) : satAdd c 1 = satInc c := by
  have hlt := c.isLt
  rw [satAdd, satInc]
  split_ifs
  next h =>
    have : c.toNat = 2 ^ w - 1 := by rw [h, BitVec.toNat_allOnes]
    rw [this, Nat.min_eq_right (by omega), h]
    apply BitVec.eq_of_toNat_eq
    rw [BitVec.toNat_ofNat, BitVec.toNat_allOnes, Nat.mod_eq_of_lt (by omega)]
  next h =>
    have hne : c.toNat ≠ 2 ^ w - 1 := fun hc => h (BitVec.eq_of_toNat_eq (by rw [hc, BitVec.toNat_allOnes]))
    rw [Nat.min_eq_left (by omega)]
    apply BitVec.eq_of_toNat_eq
    rw [BitVec.toNat_ofNat, BitVec.toNat_add]
    simp

/-- One whole LAPSTART at an idle tracking pacer. -/
theorem lapstart_of_frame {f : Bytes} {x : SyncIn} {s : State} (hon : syncOn s = true) (hparse : syncParse f = some x)
    (htyp : x.typ = 3) (hlast : x.last = true) (hseg : x.seg = 0) (hrole : s.power.role = .pacer) (hcond : s.sby.cond = .tracking)
    (hidle : s.lap.running = .idle) (hqueue : s.sbx.lsQueue = []) (hdue : s.sbx.trialDue = false) :
    lapstart [f] s = waitingBegin (shadowWaits x s) := by
  have h11 : pdIs s 11 = true := (Bool.and_eq_true_iff.1 hon).1
  have hbad : ([f].filter fun f => (syncParse f).isNone).length = 0 := by simp [hparse]
  have hgood : [f].filterMap syncParse = [x] := by simp [hparse]
  have hjoin : joinSegments ([x].filter fun x => x.typ = 3) = some (x.lap, x.payload) := by
    simp [joinSegments, htyp, hlast, hseg]
  simp only [lapstart, h11, Bool.not_true, Bool.false_eq_true, if_false, hbad, hgood, hjoin, satAdd_zero]
  change (if (!syncOn s) = true then s else lapstartHeard x.lap x.payload (if [x] = [] then s else syncHeard s)) = _
  rw [hon, if_neg (by decide), if_neg (by simp), lapstartHeard]
  have hrole' : (syncHeard s).power.role = .pacer := hrole
  have hcond' : (syncHeard s).sby.cond = .tracking := hcond
  rw [if_neg (not_not.2 hrole'), hcond']
  change lapstartDone x.lap x.payload (loadNow x.payload (syncHeard s)) = _
  have hidle' : (loadNow x.payload (syncHeard s)).lap.running = .idle := hidle
  have hdue' : (loadNow x.payload (syncHeard s)).sbx.trialDue = false := hdue
  unfold lapstartDone
  simp only [hidle', hdue', Bool.false_eq_true, if_false]
  unfold shadowWaits loadNow syncHeard
  simp only [hqueue, List.nil_append]

/-- R125, R212: the lap begins, or it waits for the write-through of the one before. -/
theorem lapstart_shows {f : Bytes} {x : SyncIn} {s : State} (hon : syncOn s = true) (hparse : syncParse f = some x)
    (htyp : x.typ = 3) (hlast : x.last = true) (hseg : x.seg = 0) (hrole : s.power.role = .pacer) (hcond : s.sby.cond = .tracking)
    (hidle : s.lap.running = .idle) (hedit : s.edit.state = .none) (hbaton : s.sbx.batonB = 0) (hqueue : s.sbx.lsQueue = [])
    (hdue : s.sbx.trialDue = false) :
    ∃ t, exec (.lapstart [f]) s = .next t ∧
      if s.clk.opUs < s.ctx.wtEndUs then t.lap.running = .idle ∧ t.lap.num = s.lap.num ∧ t.sbx.lsQueue = [(x.lap, x.payload)] else
      t.lap.running = .shadow ∧ t.lap.num = BitVec.ofNat 64 x.lap ∧ t.lap.nowMs = BitVec.ofNat 32 (leAt x.payload 0 4) ∧
      t.lap.nowBase = (s.clk.opUs : Int) - 1000 * (leAt x.payload 0 4 : Int) ∧ t.sbx.shadowLap = BitVec.ofNat 64 x.lap ∧
      t.power.role = .pacer := by
  have hexec : exec (.lapstart [f]) s = .next (waitingBegin (shadowWaits x s)) :=
    congrArg Host.Outcome.next (lapstart_of_frame hon hparse htyp hlast hseg hrole hcond hidle hqueue hdue)
  have hwaits : waitingBegin (shadowWaits x s) = if commitOver (shadowWaits x s) then
      shadowBegin x.lap x.payload { shadowWaits x s with sbx := { (shadowWaits x s).sbx with lsQueue := [] } } else shadowWaits x s := rfl
  have hover : commitOver (shadowWaits x s) = decide (s.ctx.wtEndUs ≤ s.clk.opUs) := by
    change (decide (s.lap.running = .idle) && decide (s.ctx.wtEndUs ≤ s.clk.opUs)) = _
    rw [hidle, decide_eq_true rfl, Bool.true_and]
  refine ⟨_, hexec, ?_⟩
  rw [hwaits, hover]
  by_cases hwt : s.clk.opUs < s.ctx.wtEndUs
  · rw [if_pos hwt, decide_eq_false (by omega), if_neg Bool.false_ne_true]
    exact ⟨hidle, rfl, rfl⟩
  · rw [if_neg hwt, decide_eq_true (by omega), if_pos rfl]
    exact shadowBegin_shows (s := { shadowWaits x s with sbx := { (shadowWaits x s).sbx with lsQueue := [] } }) hrole hedit hbaton

/-! ### Frames that have no effect, or only count -/

/-- The commands by which a frame is received. -/
def frameCommands (f : Bytes) : List Instr :=
  [.syncHello f, .heartbeat f, .lapstart [f], .hash f, .stateFrame f, .resync f, .withdraw f, .leave f, .yield f, .editFwd f,
    .editResult f, .editCmdTrialStart f, .editCmdTrialAbort f, .editCmdDiscard f, .editCmdReport f, .editReport f, .pairRefused f]

/-- All but LAPSTART go through one receiver. -/
theorem frameCommands_of_syncRx {f : Bytes} {s u : State} (hsync : ∀ typ g, syncRx typ f g s = u) (hlap : lapstart [f] s = u) :
    ∀ c ∈ frameCommands f, exec c s = .next u := by
  have hcontrol : ∀ code g, controlRx code f g s = u := fun code g => hsync 6 _
  have hcmd : ∀ op g, editCmdRx op f g s = u := fun op g => hcontrol 7 _
  simp only [frameCommands, List.forall_mem_cons]
  exact ⟨congrArg _ (hsync 1 syncHello), congrArg _ (hsync 2 heartbeat), congrArg _ hlap, congrArg _ (hsync 4 hashHeard),
    congrArg _ (hsync 5 stateHeard), congrArg _ (hcontrol 1 _), congrArg _ (hcontrol 2 _), congrArg _ (hcontrol 3 _),
    congrArg _ (hcontrol 4 _), congrArg _ (hcontrol 5 _), congrArg _ (hcontrol 6 _), congrArg _ (hcmd 1 _), congrArg _ (hcmd 2 _),
    congrArg _ (hcmd 3 _), congrArg _ (hcmd 4 _), congrArg _ (hcontrol 8 _), congrArg _ (hcontrol 9 _), nofun⟩

/-- With PD11 off, and for a valid frame where the unit takes no part in SYNC, nothing happens. -/
theorem frames_ignored {f : Bytes} {s : State} (hoff : syncOn s = false)
    (h : s.power.pdOn.getLsbD 11 = false ∨ (syncParse f).isSome = true) : ∀ c ∈ frameCommands f, exec c s = .next s := by
  cases h11 : pdIs s 11 with
  | false =>
    refine frameCommands_of_syncRx (fun typ g => ?_) ?_
    · simp [syncRx, h11]
    · simp [lapstart, h11]
  | true =>
    have hsome : (syncParse f).isSome = true := h.resolve_left (by rw [show s.power.pdOn.getLsbD 11 = true from h11]; decide)
    obtain ⟨x, hparse⟩ := Option.isSome_iff_exists.1 hsome
    refine frameCommands_of_syncRx (fun typ g => ?_) ?_
    · simp [syncRx, h11, hparse, hoff]
    · simp [lapstart, h11, hparse, hoff, satAdd_zero]

/-- A frame that fails its check is counted. -/
theorem frames_counted {f : Bytes} {s : State} (h11 : s.power.pdOn.getLsbD 11 = true) (hparse : syncParse f = none) :
    ∀ c ∈ frameCommands f, exec c s = .next { s with sby := { s.sby with crcErr := satInc s.sby.crcErr } } := by
  have hon : pdIs s 11 = true := h11
  refine frameCommands_of_syncRx (fun typ g => ?_) ?_
  · simp only [syncRx, hon, hparse, Bool.not_true, Bool.false_eq_true, if_false]
    rfl
  · have hbad : ([f].filter fun f => (syncParse f).isNone).length = 1 := by simp [hparse]
    have hgood : [f].filterMap syncParse = [] := by simp [hparse]
    simp only [lapstart, hon, hbad, hgood, satAdd_one, Bool.not_true, Bool.false_eq_true, if_false, List.filter_nil, joinSegments, if_true,
      ite_self]

/-! ### The statement -/

theorem syncSend_of_on {s : State} (hon : syncOn s = true) (typ lap : Nat) (payload : Bytes) :
    syncSend1 typ lap payload s = { s with out := { s.out with sync := syncFrame typ true lap 0 payload :: s.out.sync } } :=
  if_pos (Bool.and_eq_true_iff.1 hon)

theorem syncSend_of_off {s : State} (hoff : syncOn s = false) (typ lap : Nat) (payload : Bytes) : syncSend1 typ lap payload s = s := by
  refine if_neg fun h => ?_
  rw [syncOn, h.1, h.2] at hoff
  exact nomatch hoff

theorem syncOn_iff (s : State) :
    syncOn s = true ↔ s.power.pdOn.getLsbD 11 = true ∧ (s.power.state = .run ∨ s.power.state = .halt) := by
  simp [syncOn, pdIs, inRunOrHalt]

theorem leBytes_one (v : Nat) : leBytes 1 v = [BitVec.ofNat 8 v] := rfl

/-- R210: a HELLO goes out with a partner named and outside a tracking pair only. -/
theorem syncHelloSend_idle {s : State} (h : partnerNamed s = false ∨ tracking s = true ∨ syncOn s = false) : syncHelloSend s = s := by
  unfold syncHelloSend
  split
  next hsend =>
    obtain ⟨-, hnamed, htrack⟩ := hsend
    rcases h with h | h | h
    · rw [h] at hnamed; exact nomatch hnamed
    · rw [h] at htrack; exact nomatch htrack
    · exact syncSend_of_off h ..
  next => rfl

/-- A HASH that a tracking leader keeps. -/
theorem hashHeard_of_leader {x : SyncIn} {s : State} (hrole : s.power.role = .leader) (htrack : tracking s = true)
    (hignoring : s.sbx.ignoring = false) (hlen : x.payload.length = 16) :
    hashHeard x s = { s with sbx := { s.sbx with gotHashes := s.sbx.gotHashes ++ [hashOf x.lap x.payload] } } := by
  simp [hashHeard, hrole, htrack, hignoring, hlen]

/-- R59: what the module in the cage reports. -/
theorem syncSignal_shows (lock : Bool) (s : State) :
    let t := syncSignal lock s
    t = { s with
      clk := { s.clk with freeCount := t.clk.freeCount }
      sby := { s.sby with lock := lock, sfp := t.sby.sfp, los := t.sby.los, txFault := t.sby.txFault
                          rxPwr := t.sby.rxPwr, txPwr := t.sby.txPwr } } ∧
    (lock = true → t.sby.sfp = true ∧ t.sby.los = false) ∧
    (t.sby.sfp = false → t.sby.los = false ∧ t.sby.txFault = false ∧ t.sby.rxPwr = 0 ∧ t.sby.txPwr = 0) := by
  intro t
  refine ⟨rfl, fun hlock => ?_, fun hnone => ?_⟩
  · subst hlock
    exact ⟨rfl, rfl⟩
  · have hfit : (lock || (freeWord s).getLsbD 0) = false := hnone
    have ht : t.sby = { s.sby with
        lock := lock, sfp := lock || (freeWord s).getLsbD 0
        los := (lock || (freeWord s).getLsbD 0) && !lock && (freeWord s).getLsbD 1
        txFault := (lock || (freeWord s).getLsbD 0) && (freeWord s).getLsbD 2
        rxPwr := if lock || (freeWord s).getLsbD 0 then (freeWord (drawn s)).setWidth 16 else 0
        txPwr := if lock || (freeWord s).getLsbD 0 then (freeWord (drawn s)).extractLsb' 16 16 else 0 } := rfl
    rw [ht, hfit]
    exact ⟨rfl, rfl, rfl, rfl⟩

/-- A frame of its type is handled; one of another type is only heard. -/
theorem exec_of_syncRx {c : Instr} {typ : Nat} {f : Bytes} {g : SyncIn → State → State} {x : SyncIn} {s : State}
    (hexec : exec c s = .next (syncRx typ f g s)) (hon : syncOn s = true) (hparse : syncParse f = some x) :
    (x.typ ≠ typ → exec c s = .next (syncHeard s)) ∧ (x.typ = typ → exec c s = .next (g x (syncHeard s))) := by
  rw [hexec, syncRx_of_parse hon hparse]
  exact ⟨fun h => by rw [if_neg h], fun h => by rw [if_pos h]⟩

/-- R217: a STATE frame, with what it leaves of Q. -/
theorem stateFrame_shows {f : Bytes} {x : SyncIn} {s : State} (hon : syncOn s = true) (hparse : syncParse f = some x)
    (htyp : x.typ = 5) (hrole : s.power.role = .pacer) (hcond : s.sby.cond = .resync) (hlen : 4 ≤ x.payload.length) :
    ∃ t, exec (.stateFrame f) s = .next t ∧ t.sby.cond = (if x.last then .tracking else .resync) ∧
      t.lap.num = (if x.last then BitVec.ofNat 64 x.lap else s.lap.num) ∧ t.power = s.power ∧ t.dio = s.dio ∧
      (leAt x.payload 0 4 + (x.payload.drop 4).length ≤ 1024 → ∀ i < (x.payload.drop 4).length,
        t.img.q.extractLsb' (8 * (leAt x.payload 0 4 + i)) 8 = nth 0 (x.payload.drop 4) i) := by
  obtain ⟨hc, hnum, hpower, hdio, himg⟩ := stateHeard_shows (s := syncHeard s) hrole hcond hlen
  obtain ⟨-, htaken⟩ := exec_of_syncRx (c := .stateFrame f) rfl hon hparse
  refine ⟨_, htaken htyp, hc, hnum, hpower, hdio, fun hfits i hi => ?_⟩
  rw [himg]
  exact setStateBytes_q hfits hi

/-- Settles O46: what is sent, what each frame leaves, and what the module in the cage reports. -/
theorem syncFramesAreSentAndHeard : Obligations.SyncFramesAreSentAndHeard := by
  intro f s on sends h frames
  refine ⟨fun hoff => ?silent, fun hon => ?sent, fun hidle => ?quiet, fun h11 hparse => frames_counted h11 hparse,
    fun hon x hparse => ?heard, fun h11 => ?signal⟩
  case silent =>
    have hoff' : syncOn s = false := by
      rw [← Bool.not_eq_true, syncOn_iff]
      exact hoff
    exact ⟨congrArg Host.Outcome.next (syncSend_of_off hoff' ..), congrArg Host.Outcome.next (syncHelloSend_idle (.inr (.inr hoff'))),
      frames_ignored hoff'⟩
  case sent =>
    have hon' : syncOn s = true := (syncOn_iff s).2 hon
    refine ⟨congrArg Host.Outcome.next (syncSend_of_on hon' ..), fun hnamed htrack => ?_⟩
    have hsends : syncHelloSend s = syncSend1 1 s.lap.num.toNat (syncHelloPayload s) s :=
      if_pos ⟨(Bool.and_eq_true_iff.1 hon').2, hnamed, by rw [htrack]; rfl⟩
    exact congrArg Host.Outcome.next (hsends.trans (syncSend_of_on hon' ..))
  case quiet => exact congrArg Host.Outcome.next (syncHelloSend_idle (hidle.imp_right .inl))
  case heard =>
    have hon' : syncOn s = true := (syncOn_iff s).2 hon
    obtain ⟨hnot1, -⟩ := exec_of_syncRx (c := .syncHello f) rfl hon' hparse
    obtain ⟨hnot2, his2⟩ := exec_of_syncRx (c := .heartbeat f) rfl hon' hparse
    obtain ⟨hnot4, his4⟩ := exec_of_syncRx (c := .hash f) rfl hon' hparse
    obtain ⟨hnot5, -⟩ := exec_of_syncRx (c := .stateFrame f) rfl hon' hparse
    refine ⟨hnot1, hnot2, hnot4, hnot5, his2, fun htyp hrole htrack hignoring hlen => ?_,
      fun htyp hrole hcond hlen => stateFrame_shows hon' hparse htyp hrole hcond hlen,
      fun htyp hlast hseg hrole hcond hrunning hedit hbaton hqueue hdue =>
        lapstart_shows hon' hparse htyp hlast hseg hrole hcond hrunning hedit hbaton hqueue hdue,
      fun htyp hlen hcode => ?_⟩
    · rw [his4 htyp, hashHeard_of_leader (s := syncHeard s) hrole htrack hignoring hlen]
      rfl
    · refine congrArg Host.Outcome.next ?_
      change controlRx 9 f _ s = _
      rw [controlRx_of_parse hon' hparse htyp hlen hcode, leAt_drop]
      rfl
  case signal =>
    have hexec : ∀ lock, whenever (pdIs s 11) (syncSignal lock) s = syncSignal lock s := fun lock => if_pos h11
    exact List.forall_mem_cons.2 ⟨⟨_, congrArg Host.Outcome.next (hexec false), syncSignal_shows false s⟩,
      List.forall_mem_cons.2 ⟨⟨_, congrArg Host.Outcome.next (hexec true), syncSignal_shows true s⟩, nofun⟩⟩

end
end Sys2Proof.Machine
end

section
/-! PROOF. Pairing, parting and takeover (R215 to R222, R225 to R230). -/

namespace Sys2Proof.Machine

section
set_option Elab.async false

/-! ### Roles -/

def roleParts : List Part := .role :: .history :: landParts

theorem sleepEnds_changes (p last node : Nat) (s : State) : Changes landParts s (sleepEnds p last node s) :=
  (modLx_changes ..).mono.trans (sj_changes ..)

theorem lbPaced_changes (s : State) (p : Nat) : Changes landParts s (lbPaced s p) := by
  have hheld : Changes landParts s (if (lxOf s p).foreign ∨ (lxOf s p).refWait.isSome then
      setLx p { lxOf s p with foreign := false, refWait := none } s else s) := .ite (setLx_changes ..).mono (.refl _ s)
  have hends (u : State) : Changes landParts u (sleepEndsFree p 4 u) := (drawn_changes u).mono.trans (sleepEnds_changes ..)
  exact hheld.join (.ite (hends _) (.refl ..))

theorem changeRole_changes (r : Role) (s : State) : Changes roleParts s (changeRole r s) := by
  have hset : Changes roleParts s (pushEventFree 4 1 (setRole r s)) := (setRole_changes r s).mono.trans (pushEventFree_changes ..)
  exact .ite (.refl _ s) (.ite (hset.trans (.foldl (ps := landParts) lbPaced_changes _ _)) hset)

theorem changeRole_role (r : Role) (s : State) : (changeRole r s).power.role = r := by
  have hset : (pushEventFree 4 1 (setRole r s)).power.role = r := ((pushEventFree_changes ..).get .role).trans (setRole_role r s)
  unfold changeRole
  split
  next h => exact h
  next =>
    dsimp only
    split
    · exact ((Changes.foldl (ps := landParts) lbPaced_changes _ _).get .role).trans hset
    · exact hset

/-! ### The pacer takes its role (R226, R227) -/

theorem saidPaired_changes (a : Nat) (s : State) : Changes bookParts s (saidPaired a s) := sj_changes ..

/-- A condition entered, and said. -/
theorem pairedIn_shows (a : Nat) (c : Cond) (s : State) :
    (saidPaired a (pacerEnters c s)).sby.cond = c ∧ (saidPaired a (pacerEnters c s)).sbx.held = true ∧
      (saidPaired a (pacerEnters c s)).lap.running = .idle ∧ (saidPaired a (pacerEnters c s)).power.role = s.power.role ∧
      (saidPaired a (pacerEnters c s)).power.state = s.power.state := by
  obtain ⟨hcond, hheld, hidle⟩ := pacerEnters_shows c s
  have hsaid := saidPaired_changes a (pacerEnters c s)
  have henters := pacerEnters_changes c s
  refine ⟨?_, ?_, (hsaid.get .running).trans hidle, (hsaid.get .role).trans (henters.get .role),
    (hsaid.get .opState).trans (henters.get .opState)⟩
  · rw [hsaid.get .sby, hcond]
  · rw [hsaid.get .sbx, hheld]

/-- A refusal's entry to REFUSED: not from REFUSED itself. -/
def refusedIn (r : Nat) (s : State) : State :=
  let s1 := syncControl 9 (leBytes 1 r) { s with sby := { s.sby with reason := BitVec.ofNat 4 r } }
  if s1.sby.cond = .refused then s1 else pacerEnters .refused s1

theorem refusePairing_changes (r set : Nat) (s : State) : Changes (.sbx :: bookParts) (refusedIn r s) (refusePairing r set s) := by
  have hdef : refusePairing r set s = if (refusedIn r s).sbx.saidReasons.contains r then refusedIn r s
    else sj 0x304 2 (item r ++ item set) { refusedIn r s with
      sbx := { (refusedIn r s).sbx with saidReasons := r :: (refusedIn r s).sbx.saidReasons } } := rfl
  rw [hdef]
  exact .ite (.refl ..) (((Changes.refl (ps := [.sbx]) _).also [.sbx]).mono.trans (sj_changes ..))

theorem refusePairing_held (r set : Nat) (s : State) : (refusePairing r set s).sbx.held = (refusedIn r s).sbx.held := by
  have hdef : refusePairing r set s = if (refusedIn r s).sbx.saidReasons.contains r then refusedIn r s
    else sj 0x304 2 (item r ++ item set) { refusedIn r s with
      sbx := { (refusedIn r s).sbx with saidReasons := r :: (refusedIn r s).sbx.saidReasons } } := rfl
  rw [hdef]
  split
  · rfl
  · rw [(sj_changes ..).get .sbx]

/-- A refused pacer holds its outputs and runs no lap from the entry on; one that is REFUSED stays as it is. -/
theorem refusePairing_shows (r set : Nat) (s : State) :
    (refusePairing r set s).sby.cond = .refused ∧ (refusePairing r set s).power.role = s.power.role ∧
      (refusePairing r set s).power.state = s.power.state ∧
      (s.sby.cond ≠ .refused → (refusePairing r set s).sbx.held = true ∧ (refusePairing r set s).lap.running = .idle) ∧
      (s.sby.cond = .refused → (refusePairing r set s).sbx.held = s.sbx.held ∧
        (refusePairing r set s).lap.running = s.lap.running) := by
  have hsend := syncControl_changes 9 (leBytes 1 r) { s with sby := { s.sby with reason := BitVec.ofNat 4 r } }
  have hsaid := refusePairing_changes r set s
  have hheld := refusePairing_held r set s
  have hcond1 : (syncControl 9 (leBytes 1 r) { s with sby := { s.sby with reason := BitVec.ofNat 4 r } }).sby.cond = s.sby.cond := by
    rw [hsend.get .sby]
  by_cases hc : s.sby.cond = .refused
  · have hin : refusedIn r s = syncControl 9 (leBytes 1 r) { s with sby := { s.sby with reason := BitVec.ofNat 4 r } } :=
      if_pos (hcond1.trans hc)
    rw [hin] at hsaid hheld
    refine ⟨?_, (hsaid.get .role).trans (hsend.get .role), (hsaid.get .opState).trans (hsend.get .opState), fun h => absurd hc h,
      fun _ => ⟨?_, (hsaid.get .running).trans (hsend.get .running)⟩⟩
    · rw [hsaid.get .sby, hcond1, hc]
    · rw [hheld, hsend.get .sbx]
  · have hin : refusedIn r s =
        pacerEnters .refused (syncControl 9 (leBytes 1 r) { s with sby := { s.sby with reason := BitVec.ofNat 4 r } }) :=
      if_neg fun h => hc (hcond1.symm.trans h)
    rw [hin] at hsaid hheld
    obtain ⟨hentered, hholds, hidle⟩ := pacerEnters_shows .refused
      (syncControl 9 (leBytes 1 r) { s with sby := { s.sby with reason := BitVec.ofNat 4 r } })
    have henters := pacerEnters_changes .refused
      (syncControl 9 (leBytes 1 r) { s with sby := { s.sby with reason := BitVec.ofNat 4 r } })
    refine ⟨?_, (hsaid.get .role).trans ((henters.get .role).trans (hsend.get .role)),
      (hsaid.get .opState).trans ((henters.get .opState).trans (hsend.get .opState)), fun _ => ⟨?_, ?_⟩, fun h => absurd h hc⟩
    · rw [hsaid.get .sby, hentered]
    · rw [hheld, hholds]
    · rw [hsaid.get .running, hidle]

/-- The state in which the unit that yields has its new role. -/
def yielded (a : Nat) (s : State) : State :=
  let wasSolo := decide (s.power.role = .solo)
  let s1 := if wasSolo ∨ a ≤ 2 then syncControl 4 [] s else s
  let s2 := changeRole .pacer s1
  let s3 := if wasSolo ∧ s2.sbx.dualLead then sj 0x30C 2 (item (ownMember s2)) s2 else s2
  { s3 with sbx := { s3.sbx with dualLead := false, probing := false, pxSeen := false } }

theorem yielded_shows (a : Nat) (s : State) :
    (yielded a s).power.role = .pacer ∧ (yielded a s).power.state = s.power.state ∧ (yielded a s).sby = s.sby ∧
      (yielded a s).sbx.held = s.sbx.held ∧ (yielded a s).lap.running = s.lap.running := by
  have h1 : Changes [.outRest] s (if decide (s.power.role = .solo) = true ∨ a ≤ 2 then syncControl 4 [] s else s) :=
    .ite (syncControl_changes ..) (.refl _ s)
  unfold yielded
  dsimp only
  generalize (if decide (s.power.role = .solo) = true ∨ a ≤ 2 then syncControl 4 [] s else s) = u at h1 ⊢
  have h2 := changeRole_changes .pacer u
  have hrole := changeRole_role .pacer u
  generalize changeRole .pacer u = v at h2 hrole ⊢
  have h3 : Changes bookParts v (if decide (s.power.role = .solo) = true ∧ v.sbx.dualLead = true then
      sj 0x30C 2 (item (ownMember v)) v else v) := .ite (sj_changes ..) (.refl _ v)
  generalize (if decide (s.power.role = .solo) = true ∧ v.sbx.dualLead = true then
      sj 0x30C 2 (item (ownMember v)) v else v) = w at h3 ⊢
  have hall : Changes roleParts s w := (h1.mono.trans h2).trans h3
  refine ⟨(h3.get .role).trans hrole, hall.get .opState, hall.get .sby, ?_, hall.get .running⟩
  change w.sbx.held = _
  rw [hall.get .sbx]

/-- R226, R227: the role taken, in the condition that the admission gives. -/
theorem yieldLead_shows (a set : Nat) (s : State) :
    let t := yieldLead a set s
    let stays := s.sby.cond = .refused ∧ a ≠ 1 ∧ a ≠ 2
    t.power.role = .pacer ∧ t.power.state = s.power.state ∧
      t.sby.cond = (if a = 1 then .resync else if a = 2 then .migrating else .refused) ∧
      (¬ stays → t.sbx.held = true ∧ t.lap.running = .idle) ∧
      (stays → t.sbx.held = s.sbx.held ∧ t.lap.running = s.lap.running) := by
  obtain ⟨hrole, hstate, hsby, hheld, hrunning⟩ := yielded_shows a s
  have hdef : yieldLead a set s = if a = 1 then saidPaired 1 (pacerEnters .resync (yielded a s))
    else if a = 2 then saidPaired 2 (pacerEnters .migrating (yielded a s)) else refusePairing (a - 2) set (yielded a s) := rfl
  intro t stays
  have ht : t = if a = 1 then saidPaired 1 (pacerEnters .resync (yielded a s))
    else if a = 2 then saidPaired 2 (pacerEnters .migrating (yielded a s)) else refusePairing (a - 2) set (yielded a s) := hdef
  generalize yielded a s = u at hrole hstate hsby hheld hrunning ht
  rw [ht]
  by_cases h1 : a = 1
  · rw [if_pos h1, if_pos h1]
    obtain ⟨hc, hh, hi, hr, hs⟩ := pairedIn_shows 1 .resync u
    exact ⟨hr.trans hrole, hs.trans hstate, hc, fun _ => ⟨hh, hi⟩, fun hst => absurd h1 hst.2.1⟩
  · rw [if_neg h1, if_neg h1]
    by_cases h2 : a = 2
    · rw [if_pos h2, if_pos h2]
      obtain ⟨hc, hh, hi, hr, hs⟩ := pairedIn_shows 2 .migrating u
      exact ⟨hr.trans hrole, hs.trans hstate, hc, fun _ => ⟨hh, hi⟩, fun hst => absurd h2 hst.2.2⟩
    · rw [if_neg h2, if_neg h2]
      obtain ⟨hc, hr, hs, hnew, hold⟩ := refusePairing_shows (a - 2) set u
      rw [hsby] at hnew hold
      refine ⟨hr.trans hrole, hs.trans hstate, hc, fun hst => hnew fun href => hst ⟨href, h1, h2⟩, fun hst => ?_⟩
      obtain ⟨hh, hi⟩ := hold hst.1
      exact ⟨hh.trans hheld, hi.trans hrunning⟩

/-! ### A pair's end (R218, R219) -/

/-- A failed baton pass is forgotten. -/
theorem batonFail_changes (reason : Nat) (s : State) : Changes (.sbx :: .async :: bookParts) s (batonFail reason s) :=
  .ite (.refl _ s) ((((Changes.refl (ps := [.sbx]) s).also [.sbx]).mono.trans (sj_changes ..)).trans (asyncDoneFree_changes ..))

theorem batonFail_sbx (reason : Nat) (s : State) :
    (batonFail reason s).sbx = { s.sbx with batonB := (batonFail reason s).sbx.batonB
                                            batonConf := (batonFail reason s).sbx.batonConf
                                            batonAck := (batonFail reason s).sbx.batonAck } := by
  by_cases h : s.sbx.batonB = 0
  · have hsame : batonFail reason s = s := if_pos h
    rw [hsame]
  · have hfail : batonFail reason s = asyncDoneFree 2 (sj 0x30B 1 (item reason) { s with
        sbx := { s.sbx with batonB := 0, batonConf := false, batonAck := false } }) := if_neg h
    rw [hfail, (asyncDoneFree_changes ..).get .sbx, (sj_changes ..).get .sbx]

/-- A leader that loses its pacer is SOLO. -/
theorem pacerLost_shows (cause : Nat) (s : State) :
    (pacerLost cause s).power.role = .solo ∧ (pacerLost cause s).sby.cond = .unpaired ∧
      (pacerLost cause s).sbx.lastRxUs = s.sbx.lastRxUs ∧ (pacerLost cause s).sbx.dualLead = s.sbx.dualLead := by
  have hbaton := batonFail_sbx 2 s
  unfold pacerLost
  dsimp only
  generalize batonFail 2 s = b at hbaton ⊢
  have htrial := abortTrial_changes 2 b
  generalize abortTrial 2 b = u at htrial ⊢
  have hrole := changeRole_role .solo u
  have hsolo := changeRole_changes .solo u
  generalize changeRole .solo u = v at hrole hsolo ⊢
  have hsaid := sj_changes 0x302 1 (item cause) v
  generalize sj 0x302 1 (item cause) v = w at hsaid ⊢
  have hlost := reportLost_changes w
  generalize reportLost w = x at hlost ⊢
  have hsbx : x.sbx = b.sbx := by rw [hlost.get .sbx, hsaid.get .sbx, hsolo.get .sbx, htrial.get .sbx]
  refine ⟨?_, rfl, ?_, ?_⟩
  · rw [hlost.get .role, hsaid.get .role, hrole]
  · rw [hsbx, hbaton]
  · rw [hsbx, hbaton]

theorem withdrawPacer_shows (cause : Nat) (s : State) :
    (withdrawPacer cause s).power.role = .solo ∧ (withdrawPacer cause s).sby.diverge = s.sby.diverge := by
  unfold withdrawPacer
  dsimp only
  have hsend := syncControl_changes 2 (leBytes 1 cause) s
  generalize syncControl 2 (leBytes 1 cause) s = u at hsend ⊢
  have hrole := changeRole_role .solo u
  have hsolo := changeRole_changes .solo u
  generalize changeRole .solo u = v at hrole hsolo ⊢
  have hsaid := sj_changes 0x307 (if cause = 2 then 2 else 0) (item cause) v
  generalize sj 0x307 (if cause = 2 then 2 else 0) (item cause) v = w at hsaid ⊢
  refine ⟨?_, ?_⟩
  · rw [hsaid.get .role, hrole]
  · rw [hsaid.get .sby, hsolo.get .sby, hsend.get .sby]

/-! ### A resynchronisation begins, or has failed (R217) -/

theorem startResync_changes (s : State) : Changes (.sby :: .sbx :: .outRest :: bookParts) s (startResync s) :=
  (((syncControl_changes 1 (leBytes 8 (s.lap.num.toNat + 1)) s).mono.also [.sby, .sbx])).trans (sj_changes ..)

theorem startResync_shows (s : State) :
    (startResync s).sbx.rsActive = true ∧ (startResync s).sbx.rsStartLap = s.lap.num + 1 ∧
      (startResync s).sbx.migrating = s.sbx.migrating ∧ (startResync s).sby.diverge = s.sby.diverge ∧
      (startResync s).power.role = s.power.role := by
  have hnext : BitVec.ofNat 64 (s.lap.num.toNat + 1) = s.lap.num + 1 := by
    apply BitVec.eq_of_toNat_eq
    rw [BitVec.toNat_ofNat, BitVec.toNat_add]
    rfl
  have hsend := syncControl_changes 1 (leBytes 8 (s.lap.num.toNat + 1)) s
  refine ⟨?_, ?_, ?_, ?_, (startResync_changes s).get .role⟩
  · rw [startResync, (sj_changes ..).get .sbx]
  · rw [startResync, (sj_changes ..).get .sbx]
    exact hnext
  · rw [startResync, (sj_changes ..).get .sbx]
    change (syncControl 1 _ s).sbx.migrating = _
    rw [hsend.get .sbx]
  · rw [startResync, (sj_changes ..).get .sby]
    change (syncControl 1 _ s).sby.diverge = _
    rw [hsend.get .sby]

/-- A divergence counted, and the resynchronisation that ran stopped. -/
def divergeCounted (s : State) : State :=
  { s with sby := { s.sby with diverge := satInc s.sby.diverge }
           sbx := { s.sbx with divTimes := opMs s :: s.sbx.divTimes, rsActive := false } }

/-- It is recorded; a baton pass and a trial end. -/
def diverged (cause lap n : Nat) (s : State) : State :=
  abortTrial (if n ≥ 3 then 2 else 6) (batonFail 1 (sj 0x303 1 (item cause ++ item8 lap ++ item n) (divergeCounted s)))

theorem divergence_eq (cause lap : Nat) (s : State) :
    divergence cause lap s = if divHour (divergeCounted s) ≥ 3 then withdrawPacer 2 (diverged cause lap (divHour (divergeCounted s)) s)
      else startResync (diverged cause lap (divHour (divergeCounted s)) s) := rfl

theorem diverged_shows (cause lap n : Nat) (s : State) :
    (diverged cause lap n s).sby.diverge = satInc s.sby.diverge ∧ (diverged cause lap n s).power.role = s.power.role := by
  have h1 : Changes [.sby, .sbx] s (divergeCounted s) := by
    unfold divergeCounted
    exact Changes.of
  have hrest : Changes (.sbx :: .async :: trialParts) (divergeCounted s) (diverged cause lap n s) :=
    (((sj_changes ..).mono.trans (batonFail_changes ..))).trans (abortTrial_changes ..)
  refine ⟨?_, (hrest.get .role).trans (h1.get .role)⟩
  rw [hrest.get .sby]
  rfl

/-- R217: a failed resynchronisation is a divergence, and at the third the pacer is withdrawn. -/
theorem divergence_shows (cause lap : Nat) {s : State} (hrole : s.power.role = .leader) :
    (divergence cause lap s).sby.diverge = satInc s.sby.diverge ∧
      ((divergence cause lap s).power.role = .solo ∨
        (divergence cause lap s).power.role = .leader ∧ (divergence cause lap s).sbx.rsActive = true) := by
  obtain ⟨hdiverge, hleads⟩ := diverged_shows cause lap (divHour (divergeCounted s)) s
  rw [divergence_eq]
  generalize divHour (divergeCounted s) = n at hdiverge hleads ⊢
  generalize diverged cause lap n s = w at hdiverge hleads ⊢
  split
  · obtain ⟨hsolo, hkept⟩ := withdrawPacer_shows 2 w
    exact ⟨hkept.trans hdiverge, .inl hsolo⟩
  · obtain ⟨hactive, -, -, hkept, hstill⟩ := startResync_shows w
    exact ⟨hkept.trans hdiverge, .inr ⟨hstill.trans (hleads.trans hrole), hactive⟩⟩

/-! ### YIELD (R226) -/

theorem markAll_changes (s : State) : Changes [.sbx] s (markAll s) := by
  unfold markAll snapPages
  exact .of

/-- A YIELD makes a SOLO unit lead, in the pairing that its own check gave. -/
theorem yieldHeard_shows {s : State} (hrun : s.power.state = .run) (hsolo : s.power.role = .solo) :
    (s.sbx.admission = 1 → (yieldHeard s).power.role = .leader ∧ (yieldHeard s).sbx.rsActive = true ∧
      (yieldHeard s).sbx.rsStartLap = s.lap.num + 1 ∧ (yieldHeard s).sbx.migrating = false) ∧
    (s.sbx.admission = 2 → (yieldHeard s).power.role = .leader ∧ (yieldHeard s).sby.cond = .leading ∧
      (yieldHeard s).sbx.migrating = true) := by
  have hmay : (decide (s.power.role = .solo) || (decide (s.power.role = .leader) && s.sbx.migrating)) = true := by
    rw [decide_eq_true hsolo, Bool.true_or]
  have hrole := changeRole_role .leader { s with sbx := { s.sbx with dualLead := false } }
  have hlead := changeRole_changes .leader { s with sbx := { s.sbx with dualLead := false } }
  have hnum : (changeRole .leader { s with sbx := { s.sbx with dualLead := false } }).lap.num = s.lap.num := hlead.get .lapNum
  refine ⟨fun h1 => ?_, fun h2 => ?_⟩
  · unfold yieldHeard
    rw [if_pos ⟨hrun, hmay, .inl h1⟩]
    dsimp only
    rw [if_pos h1]
    generalize changeRole .leader _ = u at hrole hnum ⊢
    have hsaid := saidPaired_changes 1 { u with sbx := { u.sbx with migrating := false } }
    obtain ⟨hactive, hstart, hmigrating, -, hstill⟩ :=
      startResync_shows (saidPaired 1 { u with sbx := { u.sbx with migrating := false } })
    refine ⟨?_, hactive, ?_, ?_⟩
    · rw [hstill, hsaid.get .role, hrole]
    · rw [hstart, hsaid.get .lapNum, hnum]
    · rw [hmigrating, hsaid.get .sbx]
  · unfold yieldHeard
    rw [if_pos ⟨hrun, hmay, .inr h2⟩]
    dsimp only
    rw [if_neg (by rw [h2]; decide)]
    generalize changeRole .leader _ = u at hrole ⊢
    have hsaid := saidPaired_changes 2 { u with
      sby := { u.sby with cond := .leading }, sbx := { u.sbx with migrating := true, rsActive := false } }
    generalize saidPaired 2 _ = v at hsaid ⊢
    have hmark := markAll_changes v
    refine ⟨?_, ?_, ?_⟩
    · rw [hmark.get .role, hsaid.get .role, hrole]
    · rw [hmark.get .sby, hsaid.get .sby]
    · change v.sbx.migrating = true
      rw [hsaid.get .sbx]

/-! ### Takeover (R220 to R222) -/

theorem restoreTimer_changes (n : Nat) (bs : Bytes) (s : State) : Changes [.img, .data] s (restoreTimer n bs s) :=
  .ite (.refl _ s) .of

theorem restoreCounter_changes (n cv : Nat) (s : State) : Changes [.img, .data] s (restoreCounter n cv s) := by
  unfold restoreCounter
  exact .of

theorem restoreRange_changes (a : Nat) (r : RetRange) (s : State) : Changes [.img, .data] s (restoreRange a r s) := by
  unfold restoreRange
  split
  · exact .of
  · exact (dataWrite_changes ..).mono
  · exact .foldl (fun _ _ => restoreTimer_changes ..) _ s
  · exact .foldl (fun _ _ => restoreCounter_changes ..) _ s
  · exact .refl _ s

theorem restoreRanges_changes (l : List RetRange) (acc : Nat × State) : Changes [.img, .data] acc.2
    (l.foldl (fun (acc : Nat × State) r => (acc.1 + retCost r, restoreRange acc.1 r acc.2)) acc).2 := by
  induction l generalizing acc with
  | nil => exact .refl _ acc.2
  | cons r l ih => exact (restoreRange_changes acc.1 r acc.2).join (ih (acc.1 + retCost r, restoreRange acc.1 r acc.2))

theorem restoreRetentive_changes (s : State) : Changes [.img, .data] s (restoreRetentive s) := by
  have hclear : Changes [.img, .data] s { s with img := {}, data := memErase s.data 0 0x400000 } := .of
  exact hclear.join (restoreRanges_changes (retRanges s) (0, { s with img := {}, data := memErase s.data 0 0x400000 }))

def coldParts : List Part := .img :: .running :: .bu :: .bx :: .ctxRest :: .pxRest :: .rfx :: .outputs :: bookParts

theorem pairsSafe_changes (s : State) : Changes [.img] s (pairsSafe s) := by
  unfold pairsSafe
  exact .of

/-- The program starts cold: what it may touch. -/
theorem coldStart_changes (s : State) : Changes coldParts s (coldStart s) := by
  have hrestored : Changes coldParts s (restoreRetentive (stopLap s)) :=
    (stopLap_changes s).mono.trans (restoreRetentive_changes ..)
  exact (((hrestored.also [.ctxRest, .pxRest, .rfx]).trans (pairsSafe_changes ..)).trans (pushEventFree_changes ..)).trans
    (refreshOutputs_changes ..)

/-- The edit of a pacer that takes over. -/
def takenEdit (e : Edit) : Edit :=
  if e.state = .adopting ∧ !e.confirmed then (if e.acked then { e with confirmed := true } else { e with state := .ripe }) else e

/-- The pacer that takes over, before a cold start. -/
def takenOver (s : State) : State :=
  let s1 := changeRole .solo (abortTrial 5 s)
  { s1 with
    edit := takenEdit s1.edit
    lap := { s1.lap with running := if s1.lap.running = .shadow then .lap else s1.lap.running, nextDueUs := s1.clk.opUs }
    sby := { s1.sby with cond := .unpaired, takeovers := satInc s1.sby.takeovers }
    sbx := { s1.sbx with probing := false, pxSeen := false, lsQueue := [], batonB := 0, batonConf := false, batonAck := false
                         adoptAck := false, dualLead := true, gotHashes := [], ownHashes := []
                         ownFreeze := decide (s1.lap.running = .shadow) } }

theorem takeover_eq (s : State) :
    takeover s = sj 0x309 2 (item (takeoverKind s) ++ item8 (if takeoverKind s = 1 then coldStart (takenOver s) else takenOver s).lap.num.toNat ++
        item8 ((if takeoverKind s = 1 then coldStart (takenOver s) else takenOver s).lap.num.toNat + 1))
      (if takeoverKind s = 1 then coldStart (takenOver s) else takenOver s) := rfl

theorem takenOver_shows (s : State) :
    (takenOver s).power.role = .solo ∧ (takenOver s).power.state = s.power.state ∧ (takenOver s).sby.cond = .unpaired ∧
      (takenOver s).sby.takeovers = satInc s.sby.takeovers ∧ (takenOver s).sbx.probing = false ∧ (takenOver s).img = s.img ∧
      (takenOver s).dio = s.dio ∧ (takenOver s).lap.num = s.lap.num := by
  have htrial := abortTrial_changes 5 s
  unfold takenOver
  dsimp only
  generalize abortTrial 5 s = u at htrial ⊢
  have hrole := changeRole_role .solo u
  have hsolo := changeRole_changes .solo u
  generalize changeRole .solo u = v at hrole hsolo ⊢
  refine ⟨hrole, (hsolo.get .opState).trans (htrial.get .opState), rfl, ?_, rfl, (hsolo.get .img).trans (htrial.get .img),
    hsolo.dio.trans htrial.dio, (hsolo.get .lapNum).trans (htrial.get .lapNum)⟩
  rw [hsolo.get .sby, htrial.get .sby]

/-- R221, R222: the pacer is SOLO; one that tracked keeps its images, its outputs and the lap's number. -/
theorem takeover_shows (s : State) :
    (takeover s).power.role = .solo ∧ (takeover s).power.state = s.power.state ∧ (takeover s).sby.cond = .unpaired ∧
      (takeover s).sby.takeovers = satInc s.sby.takeovers ∧ (takeover s).sbx.probing = false ∧
      (s.sby.cond = .tracking → (takeover s).img = s.img ∧ (takeover s).dio = s.dio ∧ (takeover s).lap.num = s.lap.num) := by
  obtain ⟨hrole, hstate, hcond, htakeovers, hprobing, himg, hdio, hnum⟩ := takenOver_shows s
  rw [takeover_eq]
  have hcold : Changes coldParts (takenOver s) (if takeoverKind s = 1 then coldStart (takenOver s) else takenOver s) :=
    .ite (coldStart_changes _) (.refl ..)
  have hwarm : s.sby.cond = .tracking → (if takeoverKind s = 1 then coldStart (takenOver s) else takenOver s) = takenOver s := fun h =>
    if_neg (by rw [takeoverKind, if_pos h]; decide)
  generalize takenOver s = u at hrole hstate hcond htakeovers hprobing himg hdio hnum hcold hwarm ⊢
  generalize (if takeoverKind s = 1 then coldStart u else u) = v at hcold hwarm ⊢
  have hsaid := sj_changes 0x309 2 (item (takeoverKind s) ++ item8 v.lap.num.toNat ++ item8 (v.lap.num.toNat + 1)) v
  generalize sj 0x309 2 _ v = w at hsaid ⊢
  have hall : Changes coldParts u w := hcold.trans hsaid
  refine ⟨(hall.get .role).trans hrole, (hall.get .opState).trans hstate, ?_, ?_, ?_, fun htracking => ?_⟩
  · rw [hall.get .sby, hcond]
  · rw [hall.get .sby, htakeovers]
  · rw [hall.get .sbx, hprobing]
  · rw [hwarm htracking] at hsaid
    exact ⟨(hsaid.get .img).trans himg, hsaid.dio.trans hdio, (hsaid.get .lapNum).trans hnum⟩

/-! ### A HELLO -/

/-- The unit with its partner's HELLO noted and judged. -/
def helloNoted (x : SyncIn) (s : State) : State :=
  { syncHeard s with
    sby := { s.sby with pMember := BitVec.ofNat 8 (leAt x.payload 4 1), pState := BitVec.ofNat 4 (leAt x.payload 6 1)
                        pRole := BitVec.ofNat 4 (leAt x.payload 7 1) }
    sbx := { (syncHeard s).sbx with partnerRunMs := leAt x.payload 8 4, everSeen := true, admission := admissionOf x.payload s } }

theorem syncHello_eq {x : SyncIn} {s : State} (hlen : x.payload.length = 64) (hrun : s.power.state = .run)
    (hnamed : partnerNamed s = true) (hpartner : leAt x.payload 6 1 = 3) :
    syncHello x (syncHeard s) =
      if mustYield (admissionOf x.payload s) (leAt x.payload 7 1) (leAt x.payload 8 4) (helloNoted x s)
      then yieldLead (admissionOf x.payload s) (leAt x.payload 0 4) (helloNoted x s) else helloNoted x s := by
  unfold syncHello
  dsimp only
  rw [if_pos ⟨hlen, hrun, hnamed, hpartner⟩]
  rfl

theorem runMs_helloNoted (x : SyncIn) (s : State) : runMs (helloNoted x s) = runMs s := rfl

theorem partnerLeads_of_longer {theirMs : Nat} {s : State}
    (h : theirMs + 100 < runMs s ∨ (theirMs ≤ runMs s + 100 ∧ runMs s ≤ theirMs + 100) ∧ ownMember s ≤ ownPartner s) :
    partnerLeads theirMs s = false := by
  unfold partnerLeads
  rcases h with h | ⟨⟨h1, h2⟩, h3⟩
  · rw [if_neg (by omega), if_pos h]
  · rw [if_neg (by omega), if_neg (by omega), decide_eq_false (by omega)]

theorem partnerLeads_of_shorter {theirMs : Nat} {s : State}
    (h : runMs s + 100 < theirMs ∨ (theirMs ≤ runMs s + 100 ∧ runMs s ≤ theirMs + 100) ∧ ownPartner s < ownMember s) :
    partnerLeads theirMs s = true := by
  unfold partnerLeads
  rcases h with h | ⟨⟨h1, h2⟩, h3⟩
  · rw [if_pos h]
  · rw [if_neg (by omega), if_neg (by omega), decide_eq_true h3]

/-- R225 to R227: what a HELLO of a partner in RUN does. -/
theorem hello_shows {f : Bytes} {x : SyncIn} {s : State} (hon : syncOn s = true) (hrun : s.power.state = .run)
    (hparse : syncParse f = some x) (htyp : x.typ = 1) (hlen : x.payload.length = 64) (hnamed : partnerNamed s = true)
    (hpartner : leAt x.payload 6 1 = 3) :
    let a := admissionOf x.payload s
    let theirMs := leAt x.payload 8 4
    let near := theirMs ≤ runMs s + 100 ∧ runMs s ≤ theirMs + 100
    let stays := s.sby.cond = .refused ∧ a ≠ 1 ∧ a ≠ 2
    let taken := fun (t : State) => t.power.role = .pacer ∧ t.power.state = .run ∧
      t.sby.cond = (if a = 1 then .resync else if a = 2 then .migrating else .refused) ∧
      (¬ stays → t.sbx.held = true ∧ t.lap.running = .idle) ∧ (stays → t.sbx.held = s.sbx.held ∧ t.lap.running = s.lap.running)
    (s.power.role = .leader ∨ s.power.role = .solo ∧ (theirMs + 100 < runMs s ∨ near ∧ ownMember s ≤ ownPartner s) →
      exec (.syncHello f) s = .next (helloNoted x s)) ∧
    (s.power.role = .solo → leAt x.payload 7 1 = 1 → runMs s + 100 < theirMs ∨ near ∧ ownPartner s < ownMember s →
      ∃ t, exec (.syncHello f) s = .next t ∧ taken t) ∧
    (s.power.role = .pacer → s.sby.cond ≠ .tracking → s.sby.cond ≠ .withdrawn → leAt x.payload 7 1 = 1 →
      ∃ t, exec (.syncHello f) s = .next t ∧ taken t) := by
  obtain ⟨-, hheard⟩ := exec_of_syncRx (c := .syncHello f) rfl hon hparse
  have hexec := hheard htyp
  rw [syncHello_eq hlen hrun hnamed hpartner] at hexec
  intro a theirMs near stays taken
  have hyield : mustYield a (leAt x.payload 7 1) theirMs (helloNoted x s) = true →
      ∃ t, exec (.syncHello f) s = .next t ∧ taken t := by
    intro hmust
    rw [if_pos hmust] at hexec
    obtain ⟨hrole, hstate, hcond, hnew, hold⟩ := yieldLead_shows a (leAt x.payload 0 4) (helloNoted x s)
    exact ⟨_, hexec, hrole, hstate.trans hrun, hcond, hnew, hold⟩
  have hrole : (helloNoted x s).power.role = s.power.role := rfl
  have hcond : (helloNoted x s).sby.cond = s.sby.cond := rfl
  refine ⟨fun hstays => ?_, fun hsolo htheirs hshorter => hyield ?_, fun hpacer htrack hwithdrawn htheirs => hyield ?_⟩
  · rw [hexec, if_neg]
    rw [Bool.not_eq_true]
    unfold mustYield
    rcases hstays with h | ⟨h, hlonger⟩
    · rw [hrole, h]
    · rw [hrole, h]
      change (_ && partnerLeads theirMs (helloNoted x s)) = false
      rw [partnerLeads_of_longer (s := helloNoted x s) hlonger, Bool.and_false]
  · unfold mustYield
    rw [hrole, hsolo]
    change (decide (leAt x.payload 7 1 = 1) && partnerLeads theirMs (helloNoted x s)) = true
    rw [partnerLeads_of_shorter (s := helloNoted x s) hshorter, decide_eq_true htheirs, Bool.and_true]
  · unfold mustYield
    rw [hrole, hpacer, hcond]
    revert htrack hwithdrawn
    cases s.sby.cond <;> simp [htheirs]

/-! ### Silence and probing (R220) -/

theorem pxSend_changes (dest : NetAddr × Half) (typ flags : Nat) (payload : Bytes) (s : State) :
    Changes [.pxSeq, .pxOut] s (pxSend dest typ flags payload s) := pxPut_changes ..

theorem inRunOrHalt_of_run {s : State} (h : s.power.state = .run) : inRunOrHalt s = true := by
  rw [inRunOrHalt, h]
  rfl

/-- The unit to which SYNC has fallen silent. -/
def silent (s : State) : State := { s with sbx := { s.sbx with lastRxUs := none } }

/-- The leader that is silent to is SOLO; the pacer probes. -/
def ledAlone (s : State) : State := { silent s with sbx := { (silent s).sbx with dualLead := true } }
def silentLeader (s : State) : State := pacerLost 0 (ledAlone s)
def silentPacer (s : State) : State :=
  sendProbe { batonFail 2 (silent s) with sbx := { (batonFail 2 (silent s)).sbx with probing := true, pxSeen := false } }

theorem syncSilence_eq {s : State} (hrun : s.power.state = .run) (hrx : s.sbx.lastRxUs.isSome = true) :
    syncSilence s = match (silent s).power.role with
      | .leader => silentLeader s
      | .pacer => silentPacer s
      | _ => silent s := by
  unfold syncSilence
  rw [if_pos ⟨hrx, inRunOrHalt_of_run hrun⟩] <;> rfl

theorem silentPacer_shows (s : State) :
    (silentPacer s).sbx.probing = true ∧ (silentPacer s).sbx.lastRxUs = none ∧ (silentPacer s).power = s.power ∧
      (silentPacer s).sby = s.sby := by
  have hfail := batonFail_changes 2 (silent s)
  have hsbx := batonFail_sbx 2 (silent s)
  unfold silentPacer
  generalize batonFail 2 (silent s) = u at hfail hsbx ⊢
  have hprobe : Changes [.pxSeq, .pxOut] { u with sbx := { u.sbx with probing := true, pxSeen := false } }
      (sendProbe { u with sbx := { u.sbx with probing := true, pxSeen := false } }) := pxSend_changes ..
  refine ⟨?_, ?_, hprobe.power.trans hfail.power, ?_⟩
  · rw [hprobe.get .sbx]
  · rw [hprobe.get .sbx]
    exact congrArg SbyCtx.lastRxUs hsbx
  · rw [hprobe.get .sby, hfail.get .sby]
    rfl

theorem silentLeader_shows (s : State) :
    (silentLeader s).power.role = .solo ∧ (silentLeader s).sby.cond = .unpaired ∧ (silentLeader s).sbx.lastRxUs = none ∧
      (silentLeader s).sbx.dualLead = true := by
  obtain ⟨hsolo, hcond, hlast, hdual⟩ := pacerLost_shows 0 (ledAlone s)
  exact ⟨hsolo, hcond, hlast, hdual⟩

/-- What a silence does, by the unit's role. -/
theorem syncSilence_of_role {s : State} (hrun : s.power.state = .run) (hrx : s.sbx.lastRxUs.isSome = true) :
    (s.power.role = .leader → exec .syncSilence s = .next (silentLeader s)) ∧
    (s.power.role = .pacer → exec .syncSilence s = .next (silentPacer s)) ∧
    (s.power.role = .solo → exec .syncSilence s = .next (silent s)) := by
  have hexec : exec .syncSilence s = .next (syncSilence s) := rfl
  have hrole : (silent s).power.role = s.power.role := rfl
  rw [hexec, syncSilence_eq hrun hrx, hrole]
  exact ⟨fun h => by rw [h], fun h => by rw [h], fun h => by rw [h]⟩

/-- A pacer that still hears its leader over PX is DETACHED. -/
theorem detach_shows {s : State} (hother : s.sby.cond ≠ .withdrawn) :
    (detach s).sby.cond = .detached ∧ (detach s).power.role = s.power.role := by
  unfold detach
  split
  next h => exact ⟨h.resolve_right hother, rfl⟩
  next =>
    have hsaid := sj_changes 0x308 2 (item8 s.sbx.shadowLap.toNat) (pacerEnters .detached (abortTrial 2 s))
    obtain ⟨hcond, -, -⟩ := pacerEnters_shows .detached (abortTrial 2 s)
    refine ⟨?_, (hsaid.get .role).trans (((pacerEnters_changes ..).get .role).trans ((abortTrial_changes ..).get .role))⟩
    rw [hsaid.get .sby, hcond]

/-- R220: the probes of a pacer, and the end of the probing window. -/
theorem probing_shows {s : State} (hrole : s.power.role = .pacer) (hprobing : s.sbx.probing = true) :
    exec .pxProbeSend s = .next (pxSend (memberTo s (ownPartner s)) 1 1 (helloPayload s) s) ∧
    (s.sbx.pxSeen = true → s.sby.cond ≠ .withdrawn → ∃ t, exec .probeWindowEnd s = .next t ∧ t.sby.cond = .detached ∧
      t.power.role = .pacer ∧ t.sbx.probing = true) ∧
    (s.sbx.pxSeen = false → exec .probeWindowEnd s = .next (takeover s)) := by
  refine ⟨congrArg Host.Outcome.next (if_pos ⟨hrole, hprobing⟩), fun hseen hother => ?_, fun hseen => ?_⟩
  · have hend : probeWindowEnd s = { detach { s with sbx := { s.sbx with pxSeen := false } } with
        sbx := { (detach { s with sbx := { s.sbx with pxSeen := false } }).sbx with probing := true } } := by
      rw [probeWindowEnd, if_pos ⟨hrole, hprobing⟩, if_pos hseen]
    obtain ⟨hcond, hstill⟩ := detach_shows (s := { s with sbx := { s.sbx with pxSeen := false } }) hother
    exact ⟨_, congrArg Host.Outcome.next hend, hcond, hstill.trans hrole, rfl⟩
  · change Host.Outcome.next (probeWindowEnd s) = _
    rw [probeWindowEnd, if_pos ⟨hrole, hprobing⟩, if_neg (by rw [hseen]; decide)]

/-! ### The pairing window (R228) -/

theorem pairingWindowEnd_shows {s : State} (hwindow : s.sby.window = true) :
    let t := pairingWindowEnd s
    Safety.Booked [2, 3] { s with sby := { s.sby with window := false }, sbx := { s.sbx with missingSaid := t.sbx.missingSaid } } t ∧
      (partnerNamed s = true → s.sbx.everSeen = false → s.sbx.missingSaid = false →
        Safety.journals 0x30D 1 (item (ownPartner s)) s t) := by
  intro t
  let u : State := { s with sby := { s.sby with window := false }, sbx := { s.sbx with missingSaid := true } }
  by_cases hsay : partnerNamed s = true ∧ s.sbx.everSeen = false ∧ s.sbx.missingSaid = false
  · have ht : t = sj 0x30D 1 (item (ownPartner s)) u := by
      obtain ⟨hnamed, hever, hsaid⟩ := hsay
      change pairingWindowEnd s = _
      rw [pairingWindowEnd, if_pos hwindow]
      exact if_pos ⟨hnamed, by rw [hever]; rfl, by rw [hsaid]; rfl⟩
    have hmissing : t.sbx.missingSaid = true := by rw [ht, (sj_changes ..).get .sbx]
    refine ⟨?_, fun _ _ _ => ?_⟩
    · rw [hmissing, ht]
      exact Safety.sj_booked ..
    · rw [ht]
      exact Safety.journals_of_sj (u := u) List.prefix_rfl List.prefix_rfl
  · have ht : t = { s with sby := { s.sby with window := false } } := by
      change pairingWindowEnd s = _
      rw [pairingWindowEnd, if_pos hwindow]
      refine if_neg fun h => hsay ?_
      obtain ⟨hnamed, hever, hsaid⟩ := h
      exact ⟨hnamed, Bool.not_eq_true' _ ▸ hever, Bool.not_eq_true' _ ▸ hsaid⟩
    refine ⟨?_, fun h1 h2 h3 => absurd ⟨h1, h2, h3⟩ hsay⟩
    rw [ht]
    exact .refl ..

/-! ### The statement -/

/-- LEAVE, WITHDRAW and RESYNC as they are heard (R217 to R220). -/
theorem leaveHeard_shows (cause : Nat) {s : State} (hrole : s.power.role = .leader) :
    (leaveHeard cause s).power.role = .solo ∧ (leaveHeard cause s).sby.cond = .unpaired := by
  obtain ⟨hsolo, hcond, -, -⟩ := pacerLost_shows cause s
  have hleave : leaveHeard cause s = if cause = 3 then sj 0x307 0 (item 1) (pacerLost cause s) else pacerLost cause s := by
    rw [leaveHeard, hrole]
  have hsaid : Changes bookParts (pacerLost cause s) (leaveHeard cause s) := by
    rw [hleave]
    exact .ite (sj_changes ..) (.refl ..)
  refine ⟨(hsaid.get .role).trans hsolo, ?_⟩
  rw [hsaid.get .sby, hcond]

theorem withdrawn_shows {s : State} (hrole : s.power.role = .pacer) :
    (withdrawn s).sby.cond = .withdrawn ∧ (withdrawn s).power.role = .pacer ∧ (withdrawn s).sbx.held = true := by
  have hdef : withdrawn s = pacerEnters .withdrawn (abortTrial 2 s) := if_pos hrole
  obtain ⟨hcond, hheld, -⟩ := pacerEnters_shows .withdrawn (abortTrial 2 s)
  rw [hdef]
  exact ⟨hcond, ((pacerEnters_changes ..).get .role).trans (((abortTrial_changes ..).get .role).trans hrole), hheld⟩

theorem pacerResync_shows (lap : Nat) (s : State) :
    (pacerResync lap s).sby.cond = .resync ∧ (pacerResync lap s).img = { fresh := s.img.fresh } ∧
      (pacerResync lap s).sbx.held = true ∧ (pacerResync lap s).power.role = s.power.role := by
  have htrial := abortTrial_changes 6 s
  obtain ⟨hcond, hheld, -⟩ := pacerEnters_shows .resync (abortTrial 6 s)
  have henters := pacerEnters_changes .resync (abortTrial 6 s)
  have himg : (pacerEnters .resync (abortTrial 6 s)).img = s.img := (henters.get .img).trans (htrial.get .img)
  unfold pacerResync
  dsimp only
  generalize pacerEnters .resync (abortTrial 6 s) = u at hcond hheld henters himg ⊢
  rw [(sj_changes ..).get .sby, (sj_changes ..).get .img, (sj_changes ..).get .sbx, (sj_changes ..).get .role]
  refine ⟨hcond, ?_, hheld, (henters.get .role).trans (htrial.get .role)⟩
  rw [himg]

/-- Settles O47: what each frame and each timer leaves is shown above, function by function. -/
theorem pairsFormPartAndTakeOver : Obligations.PairsFormPartAndTakeOver := by
  intro f x s on control theirMs tookOver
  have htaken : s.power.state = .run → tookOver (takeover s) := by
    intro hrun
    obtain ⟨hrole, hstate, hcond, htakeovers, hprobing, hkept⟩ := takeover_shows s
    exact ⟨hrole, hstate.trans hrun, hcond, htakeovers, hprobing, hkept⟩
  have hheardTaken : s.power.state = .run → tookOver (takeover (syncHeard s)) := by
    intro hrun
    obtain ⟨hrole, hstate, hcond, htakeovers, hprobing, hkept⟩ := takeover_shows (syncHeard s)
    exact ⟨hrole, hstate.trans hrun, hcond, htakeovers, hprobing, hkept⟩
  have hcontrol : ∀ {code}, control code → s.power.state = .run ∧ ∀ g : SyncIn → Bytes → State → State,
      controlRx code f g s = g x (x.payload.drop 4) (syncHeard s) := by
    rintro code ⟨⟨h11, hrun, hparse⟩, htyp, hlen, hcode⟩
    exact ⟨hrun, fun g => controlRx_of_parse (syncOn_of h11 (.inl hrun)) hparse htyp hlen hcode⟩
  clear_value tookOver
  refine ⟨fun hon htyp hlen hnamed hpartner => ?hello, fun hc hsolo => ?yield, fun hrun hrx => ?silence, fun hrx => ?quiet,
    fun hrole hprobing => ?probing, fun hnot => ?still, fun hc => ?leave, fun hc hrole => ?withdraw, fun hc hrole hcond => ?resync,
    fun hrole hactive => ?failed, fun hwindow => ?window⟩
  case hello =>
    obtain ⟨h11, hrun, hparse⟩ := hon
    obtain ⟨hleads, hyields, hpacer⟩ := hello_shows (syncOn_of h11 (.inl hrun)) hrun hparse htyp hlen hnamed hpartner
    refine ⟨fun h => ⟨_, hleads h, ?_⟩, hyields, hpacer⟩
    unfold helloNoted syncHeard
    rw [hpartner]
    rfl
  case yield =>
    obtain ⟨hrun, hrx⟩ := hcontrol hc
    obtain ⟨hfirst, hsecond⟩ := yieldHeard_shows (s := syncHeard s) hrun hsolo
    have hexec : exec (.yield f) s = .next (yieldHeard (syncHeard s)) := congrArg Host.Outcome.next (hrx fun _ _ t => yieldHeard t)
    exact ⟨fun h => ⟨_, hexec, hfirst h⟩, fun h => ⟨_, hexec, hsecond h⟩⟩
  case silence =>
    obtain ⟨hleader, hpacer, hsolo⟩ := syncSilence_of_role hrun hrx
    exact ⟨fun h => ⟨_, hleader h, silentLeader_shows s⟩, fun h => ⟨_, hpacer h, silentPacer_shows s⟩, hsolo⟩
  case quiet =>
    refine congrArg Host.Outcome.next (if_neg fun h => ?_)
    rw [hrx] at h
    exact nomatch h.1
  case probing =>
    obtain ⟨hsend, hseen, hunseen⟩ := probing_shows hrole hprobing
    exact ⟨hsend, hseen, fun h hrun => ⟨_, hunseen h, htaken hrun⟩⟩
  case still =>
    have hno : ¬ (s.power.role = .pacer ∧ s.sbx.probing = true) := by
      rintro ⟨hr, hp⟩
      rcases hnot with h | h
      · exact h hr
      · rw [hp] at h
        exact nomatch h
    exact ⟨congrArg Host.Outcome.next (if_neg hno), congrArg Host.Outcome.next (if_neg hno)⟩
  case leave =>
    obtain ⟨hrun, hrx⟩ := hcontrol hc
    have hexec : exec (.leave f) s = .next (leaveHeard (leAt (x.payload.drop 4) 0 1) (syncHeard s)) :=
      congrArg Host.Outcome.next (hrx fun _ a t => leaveHeard (leAt a 0 1) t)
    refine ⟨fun hpacer => ⟨_, hexec, ?_⟩, fun hleader => ⟨_, hexec, leaveHeard_shows _ hleader⟩⟩
    have htakes : leaveHeard (leAt (x.payload.drop 4) 0 1) (syncHeard s) = takeover (syncHeard s) := by
      have hpacer' : (syncHeard s).power.role = .pacer := hpacer
      rw [leaveHeard, hpacer']
    rw [htakes]
    exact hheardTaken hrun
  case withdraw =>
    obtain ⟨hrun, hrx⟩ := hcontrol hc
    exact ⟨_, congrArg Host.Outcome.next (hrx fun _ _ t => withdrawn t), withdrawn_shows (s := syncHeard s) hrole⟩
  case resync =>
    obtain ⟨hrun, hrx⟩ := hcontrol hc
    have hobeys : obeys (syncHeard s) = true := obeys_of_tracking hrole hcond
    have hexec : exec (.resync f) s = .next (pacerResync (leAt (x.payload.drop 4) 0 8) (syncHeard s)) := by
      refine congrArg Host.Outcome.next ((hrx fun _ a t => if obeys t then pacerResync (leAt a 0 8) t else t).trans ?_)
      rw [if_pos hobeys]
    obtain ⟨hshown, himg, hheld, hstill⟩ := pacerResync_shows (leAt (x.payload.drop 4) 0 8) (syncHeard s)
    exact ⟨_, hexec, hshown, himg, hheld, hstill.trans hrole⟩
  case failed =>
    have hfails : resyncFailed s = divergence 3 s.lap.num.toNat s := if_pos ⟨hrole, hactive⟩
    exact ⟨_, congrArg Host.Outcome.next hfails, divergence_shows _ _ hrole⟩
  case window => exact ⟨_, rfl, pairingWindowEnd_shows hwindow⟩

end
end Sys2Proof.Machine
end

section
/-! PROOF. Beacon nodes (R306, R307). -/

namespace Sys2Proof.Machine

section
set_option Elab.async false

/-- A listening Beacon bus whose vote node 1 ends. Node 5 is listed twice, first as a node of which nothing is known. -/
def voteWithNodeListedTwice : State := { State.reset with
  power := { State.reset.power with pdOn := 0x80 }
  lb := { State.reset.lb with
    p0 := { cfg := some { beacon := true }, state := .listen }
    x0 := { phase := .voting, nodes := [(1, { voter := true }), (5, {}), (5, { voter := true })] } } }

/-- Is node 5 of port 0 a node of the sleep, after an instruction that comes to a next state? -/
def nextVoterFive : Result → Option Bool
  | .next t => some (nodeOf t 0 5).voter
  | _ => none

theorem lastVote_voterFive : nextVoterFive (exec (.beaconVote 0 1 [1]) voteWithNodeListedTwice) = some true := by decide +kernel

/-- Refutes O53: the state type does not bound the list of nodes to one entry for each. Where the first of two entries of a node that is not
present says nothing, the commit's write of the node takes that entry away and the second one shows, a voter. -/
theorem not_beaconNodesAndBuses : ¬ Obligations.BeaconNodesAndBuses := by
  rintro ⟨-, -, hvotes, -⟩
  obtain ⟨hvoting, -⟩ := hvotes 0 1 [1] voteWithNodeListedTwice (by decide) (by decide) (by decide)
  obtain ⟨t, ht, -, -, hvoters, -⟩ := (hvoting rfl).2.1 (by decide) (by decide) (by decide +kernel)
  have hfive := lastVote_voterFive
  rw [ht] at hfive
  have hshown : (nodeOf t 0 5).voter = true := Option.some.inj hfive
  have hpresent : (nodeOf t 0 5).voter = false := hvoters 5 (by decide) (by decide)
  exact absurd (hshown.symm.trans hpresent) (by decide)

end
end Sys2Proof.Machine
end

section
/-! PROOF. Plant Exchange requests (R77, R351 to R354). -/

namespace Sys2Proof.Machine

section
set_option Elab.async false
variable {src : NetSrc} {frame : Bytes} {x : PxIn} {s t : State}

/-! ### Bytes and members -/

theorem slice_one (bs : Bytes) (a : Nat) : slice bs a 1 = if a < bs.length then [nth 0 bs a] else [] := by
  unfold slice nth
  split
  case isTrue h => rw [List.drop_eq_getElem_cons h, List.getD_eq_getElem _ _ h]; rfl
  case isFalse h => rw [List.drop_eq_nil_of_le (Nat.le_of_not_lt h), List.take_nil]

/-- One byte reads the same in either order. -/
theorem leAt_one (bs : Bytes) (a : Nat) : leAt bs a 1 = (nth 0 bs a).toNat := by
  rw [leAt, slice_one]
  split
  case isTrue => rfl
  case isFalse h => rw [nth, List.getD_eq_default _ _ (Nat.le_of_not_lt h)]; rfl

theorem beAt_one (bs : Bytes) (a : Nat) : beAt bs a 1 = (nth 0 bs a).toNat := by
  rw [beAt, slice_one]
  split
  case isTrue => simp [beNat]
  case isFalse h => rw [nth, List.getD_eq_default _ _ (Nat.le_of_not_lt h)]; rfl

theorem leNat_lt (bs : Bytes) : leNat bs < 256 ^ bs.length := by
  induction bs with
  | nil => decide
  | cons b bs ih =>
    have hb : b.toNat < 256 := b.isLt
    simp only [leNat, List.length_cons, Nat.pow_succ]
    omega

theorem leAt_lt (bs : Bytes) (a n : Nat) : leAt bs a n < 256 ^ n :=
  Nat.lt_of_lt_of_le (leNat_lt _) (Nat.pow_le_pow_right (by decide) (List.length_take_le ..))

theorem memberOf_setMember {m : Byte} {y : Member} (h : y ≠ ({} : Member)) : memberOf (setMember m y s) m = y :=
  Safety.sget_sput_self ({} : Member) s.px.members m.toNat y h

theorem memberOf_memberHeard (m : Byte) :
    memberOf (memberHeard m s) m = { memberOf s m with present := true, lastUs := s.clk.wallUs } :=
  memberOf_setMember fun h => by simpa using congrArg Member.present h

theorem memberOf_congr (h : t.px.members = s.px.members) (m : Byte) : memberOf t m = memberOf s m := by
  rw [memberOf, memberOf, h]

/-! ### Frames sent -/

/-- A frame put on the way to the source of a request. -/
def sentBack (src : NetSrc) (frame : Bytes) (s : State) : State :=
  { s with
    out := { s.out with px := { ip := src.ip, port := src.port, srcPort := 41720
                                ttl := if (src.ip, src.port) = groupTo s then some 1 else none, frame := frame } :: s.out.px }
    px := { s.px with seqTx := s.px.seqTx + 1 } }

theorem pxPut_replyTo (hmuted : s.px.muted = false) (hpd : s.power.pdOn.getLsbD 6 = true) (frame : Bytes) :
    pxPut (replyTo src) frame s = sentBack src frame s := by
  have hsends : ¬ (s.px.muted = true ∨ (!pdIs s 6) = true) := by simp [hmuted, pdIs, hpd]
  rw [pxPut, if_neg hsends]
  rfl

theorem pxFrame_congr (hmld : t.mld = s.mld) (hseq : t.px.seqTx = s.px.seqTx) (hpre : t.px.preId = s.px.preId) (typ flags : Nat)
    (p : Bytes) : pxFrame typ flags p t = pxFrame typ flags p s := by
  simp only [pxFrame, ownMember, plantId, mouldOf, hmld, hseq, hpre]

theorem groupTo_congr (hmld : t.mld = s.mld) (hpre : t.px.preId = s.px.preId) : groupTo t = groupTo s := by
  simp only [groupTo, groupIp, plantId, mouldOf, hmld, hpre]

/-! ### What a request meets -/

/-- A frame of the right type from another member is taken in. -/
theorem pxRx_taken {typ : Nat} (f : PxIn → State → State) (hon : pxOn s = true) (hport : src.toPort = 41720) (hsrc : src.ip ∉ s.px.blocked)
    (hparse : pxParse frame s = some x) (htyp : x.typ = typ) (hmember : x.member.toNat ≠ ownMember s) :
    pxRx typ src frame f s = f x (memberHeard x.member s) := by
  have henters : ¬ ((!pxOn s) = true ∨ src.toPort ≠ 41720 ∨ s.px.blocked.contains src.ip = true) := by simp [hon, hport, hsrc]
  rw [pxRx, if_neg henters, hparse]
  simp only [htyp, hmember, ne_eq, not_true_eq_false, if_false]

/-- The request that a frame brings. -/
def requestOf (src : NetSrc) (x : PxIn) (s : State) : PendingReq :=
  { member := x.member, role := nth 0 x.payload 0, seq := x.seq, src := src, mac := reqMac x.payload, body := reqBody x.payload
    path := if s.power.state = .safeService then 1 else 2, key := roleKey s (nth 0 x.payload 0).toNat }

/-- The last accepted request that it repeats. -/
def repeatOf (x : PxIn) (s : State) : Option LastReq :=
  s.px.last.find? fun l => l.member = x.member ∧ l.role = nth 0 x.payload 0 ∧ l.seq = x.seq ∧ l.mac = reqMac x.payload

theorem pxRequest_muted (h : s.px.muted = true) : pxRequest src x s = s := by
  unfold pxRequest
  rw [if_pos h]

theorem pxRequest_bringUp (hmuted : s.px.muted = false) (h : s.power.state = .bringUp) :
    pxRequest src x s = sendBusy src x.seq (retryAfter s) { s with power := { s.power with busyPx := satInc s.power.busyPx } } := by
  unfold pxRequest
  simp only [hmuted, Bool.false_eq_true, if_false, h, if_true]

theorem pxRequest_repeat {l : LastReq} (hmuted : s.px.muted = false) (hstate : s.power.state ≠ .bringUp) (h : repeatOf x s = some l) :
    pxRequest src x s = if l.response = [] then s else pxPut (replyTo src) l.response s := by
  unfold repeatOf at h
  unfold pxRequest
  simp only [hmuted, Bool.false_eq_true, if_false, hstate, h]

/-- A request that repeats none meets the length, the checks of its authenticity, and the room. -/
theorem pxRequest_fresh (hmuted : s.px.muted = false) (hstate : s.power.state ≠ .bringUp) (h : repeatOf x s = none) :
    pxRequest src x s =
      if bodyLenOk (reqBody x.payload) = false then
        sendResponse (roleKey s (nth 0 x.payload 0).toNat) (requestOf src x s) 0x11
          (responseBody (nth 0 (reqBody x.payload) 0) (BitVec.ofNat 32 (leAt (reqBody x.payload) 4 4)) 0x11 []) s
      else match authFailure x s with
        | some c => authFailed c src (requestOf src x s) s
        | none =>
          if (s.px.pending.filter fun q => decide (q.path ≠ 0)).length ≥ 16 then
            sendBusy src x.seq 100 { s with px := { s.px with busy := satInc s.px.busy } }
          else acceptRequest (requestOf src x s) s := by
  unfold repeatOf at h
  unfold pxRequest requestOf
  simp only [hmuted, Bool.false_eq_true, if_false, hstate, h, leAt_one]
  cases bodyLenOk (reqBody x.payload) <;> rfl

/-! ### Authenticity (R351) -/

/-- The checks of R351, in their order. -/
def Authentic (x : PxIn) (s : State) : Prop :=
  let role := nth 0 x.payload 0
  let last := sget 0 (memberOf s x.member).reqSeq role.toNat
  BitVec.ofNat 32 (beAt x.payload 4 4) = s.px.session ∧
    (∃ k, roleKey s role.toNat = some k ∧ hmacSha256 k (x.header ++ x.payload.take (x.payload.length - 32)) = reqMac x.payload) ∧
    (last ≠ 0 → 1 ≤ (x.seq - BitVec.ofNat 32 (last - 1)).toNat ∧ (x.seq - BitVec.ofNat 32 (last - 1)).toNat < 2 ^ 31) ∧
    rolePermits role.toNat (leAt (reqBody x.payload) 0 1) = true

theorem newer_iff (seq : Word) (last : Nat) :
    newer seq (if last = 0 then none else some (BitVec.ofNat 32 (last - 1))) = true ↔
      (last ≠ 0 → 1 ≤ (seq - BitVec.ofNat 32 (last - 1)).toNat ∧ (seq - BitVec.ofNat 32 (last - 1)).toNat < 2 ^ 31) := by
  split
  case isTrue h => simp [newer, h]
  case isFalse h => simp only [newer, Bool.and_eq_true, decide_eq_true_eq, ne_eq, h, not_false_eq_true, forall_const]

theorem authFailure_none_iff : authFailure x s = none ↔ Authentic x s := by
  unfold authFailure Authentic
  simp only [beAt_one]
  by_cases hsession : BitVec.ofNat 32 (beAt x.payload 4 4) = s.px.session
  case neg => simp only [hsession, ne_eq, not_false_eq_true, if_true, false_and, reduceCtorEq]
  cases hkey : roleKey s (nth 0 x.payload 0).toNat with
  | none => simp [hsession]
  | some k =>
    by_cases hmac : hmacSha256 k (x.header ++ x.payload.take (x.payload.length - 32)) = reqMac x.payload
    case neg => simp [hsession, hmac]
    simp only [← newer_iff]
    cases newer x.seq (if sget 0 (memberOf s x.member).reqSeq (nth 0 x.payload 0).toNat = 0 then none
        else some (BitVec.ofNat 32 (sget 0 (memberOf s x.member).reqSeq (nth 0 x.payload 0).toNat - 1))) <;>
      cases rolePermits (nth 0 x.payload 0).toNat (leAt (reqBody x.payload) 0 1) <;> simp [hsession, hmac]

/-- A request as authentic after its frame has been noted as before. -/
theorem authentic_memberHeard : Authentic x (memberHeard x.member s) ↔ Authentic x s := by
  unfold Authentic
  rw [memberOf_memberHeard]
  rfl

/-! ### The outcomes -/

/-- BUSY tells a time in whole tenths of a second, that of a start but for what has passed of it (R77). -/
theorem retryAfter_bounds (hpatching : s.upd.journal ≠ .patching) :
    100 ≤ retryAfter s ∧ retryAfter s % 100 = 0 ∧ 4000 ≤ retryAfter s + (s.clk.opUs - s.power.t0Us) / 1000 := by
  rw [retryAfter, if_neg hpatching]
  omega

/-- 0x30 answered (R352): what it changes and sends. -/
theorem authFailed_shows {c : Nat} {q : PendingReq} (hmuted : s.px.muted = false) (hpd : s.power.pdOn.getLsbD 6 = true) :
    let t := authFailed c q.src q s
    let recent := s.px.authFails.filter fun y => decide (y.1 = q.src.ip) && decide (s.clk.wallUs < y.2 + 60000000)
    t.px.auth = satInc s.px.auth ∧ t.px.pending = s.px.pending ∧ t.px.last = s.px.last ∧ t.px.members = s.px.members ∧
      t.out.px = (sentBack q.src (pxFrame 5 0 ([q.role, 0x30, 0, 0] ++ beBytes 4 q.seq.toNat ++ zeros 32) s) s).out.px ∧
      (7 ≤ recent.length → q.src.ip ∈ t.px.blocked) ∧
      (recent.length < 7 → t.px.blocked = s.px.blocked ∧ (q.src.ip, s.clk.wallUs) ∈ t.px.authFails) := by
  intro t recent
  let s1 := sjRep 0x822 1 (addrKey q.src.ip) (addrItem q.src.ip s ++ item q.role.toNat ++ item c)
    (addrDrawn q.src.ip { s with px := { s.px with auth := satInc s.px.auth } })
  have hdrawn (u : State) : Changes bookParts u (addrDrawn q.src.ip u) := by
    cases q.src.ip
    · exact .refl _ u
    · exact drawn_changes u
  have h1 : Changes bookParts { s with px := { s.px with auth := satInc s.px.auth } } s1 := (hdrawn _).join (sjRep_changes ..)
  have hpx : s1.px = { s.px with auth := satInc s.px.auth } := h1.px
  have hmld : s1.mld = s.mld := h1.get .mld
  have hresponse : sendResponse none q 0x30 [] s1 = sentBack q.src (responseFrame none q 0x30 [] s1) s1 :=
    pxPut_replyTo (by rw [hpx, hmuted]) (by rw [h1.get .pdOn, hpd]) _
  have hframe : responseFrame none q 0x30 [] s1 = pxFrame 5 0 ([q.role, 0x30, 0, 0] ++ beBytes 4 q.seq.toNat ++ zeros 32) s := by
    rw [responseFrame, pxFrame_congr hmld (by rw [hpx]) (by rw [hpx])]
    simp [signedResponse, responseHead]
  have hout : (sentBack q.src (responseFrame none q 0x30 [] s1) s1).out.px =
      (sentBack q.src (pxFrame 5 0 ([q.role, 0x30, 0, 0] ++ beBytes 4 q.seq.toNat ++ zeros 32) s) s).out.px := by
    rw [hframe]
    simp only [sentBack]
    rw [h1.get .pxOut, groupTo_congr hmld (by rw [hpx])]
  have ht : t = if recent.length ≥ 7 then
      tr 0x825 1 (addrItem q.src.ip (sendResponse none q 0x30 [] s1)) (addrDrawn q.src.ip { sendResponse none q 0x30 [] s1 with
        px := { (sendResponse none q 0x30 [] s1).px with
          authFails := s.px.authFails.filter fun y => decide (y.1 ≠ q.src.ip)
          blocked := q.src.ip :: (sendResponse none q 0x30 [] s1).px.blocked } })
    else { sendResponse none q 0x30 [] s1 with px := { (sendResponse none q 0x30 [] s1).px with
      authFails := (q.src.ip, s.clk.wallUs) :: recent ++ s.px.authFails.filter fun y => decide (y.1 ≠ q.src.ip) } } := rfl
  rw [hresponse] at ht
  generalize hu : sentBack q.src (responseFrame none q 0x30 [] s1) s1 = u at ht hout
  have hupx : u.px = { s1.px with seqTx := s1.px.seqTx + 1 } := by rw [← hu]; rfl
  rw [hpx] at hupx
  have hauth : u.px.auth = satInc s.px.auth := by rw [hupx]
  have hpending : u.px.pending = s.px.pending := by rw [hupx]
  have hlast : u.px.last = s.px.last := by rw [hupx]
  have hmembers : u.px.members = s.px.members := by rw [hupx]
  have hblocked : u.px.blocked = s.px.blocked := by rw [hupx]
  rw [ht]
  by_cases hseven : 7 ≤ recent.length
  case pos =>
    rw [if_pos hseven]
    have htr := (hdrawn { u with px := { u.px with
      authFails := s.px.authFails.filter fun y => decide (y.1 ≠ q.src.ip), blocked := q.src.ip :: u.px.blocked } }).join
      (tr_changes 0x825 1 (addrItem q.src.ip u) _)
    rw [htr.px, htr.get .pxOut]
    exact ⟨hauth, hpending, hlast, hmembers, hout,
      fun _ => List.mem_cons_self .., fun hfew => absurd hseven (Nat.not_le_of_lt hfew)⟩
  case neg =>
    rw [if_neg hseven]
    exact ⟨hauth, hpending, hlast, hmembers, hout,
      fun h => absurd h hseven, fun _ => ⟨hblocked, List.mem_cons_self ..⟩⟩

/-- An accepted request is the last one that waits (R354). -/
theorem acceptRequest_shows (q : PendingReq) :
    let t := acceptRequest q s
    t.px.pending = s.px.pending ++ [q] ∧ t.px.busy = s.px.busy ∧ t.px.seqTx = s.px.seqTx ∧
      sget 0 (memberOf t q.member).reqSeq q.role.toNat = q.seq.toNat + 1 ∧
      { member := q.member, role := q.role, seq := q.seq, mac := q.mac } ∈ t.px.last ∧
      Safety.Booked [0, 2, 3] { s with px := t.px } t ∧ (q.path ≠ 2 → ringGet t 0 = ringGet s 0) := by
  intro t
  let m : Member := { memberOf s q.member with
    reqSeq := sput 0 (memberOf s q.member).reqSeq q.role.toNat (q.seq.toNat + 1) }
  let s2 : State := { setMember q.member m s with px := { (setMember q.member m s).px with
    pending := s.px.pending ++ [q]
    last := { member := q.member, role := q.role, seq := q.seq, mac := q.mac } ::
      s.px.last.filter fun l => !(decide (l.member = q.member) && decide (l.role = q.role)) } }
  have ht : t = if q.path = 2 then
      push 0 { buf := freeWord s2, len := BitVec.ofNat 16 q.body.length, src := 3, ts := tsNow s2
               tag := BitVec.ofNat 32 (q.role.toNat % 4 + 256 * q.member.toNat) } (drawn s2) else s2 := rfl
  have hseq : sget 0 m.reqSeq q.role.toNat = q.seq.toNat + 1 := Safety.sget_sput_self 0 _ _ _ (Nat.succ_ne_zero _)
  have hmember : memberOf s2 q.member = m := by
    refine memberOf_setMember fun h => ?_
    rw [h] at hseq
    exact absurd hseq (Nat.succ_ne_zero _).symm
  have hbooked : Safety.Booked [0, 2, 3] s2 t := by
    rw [ht]
    split
    · exact (Safety.drawn_booked _ s2).trans (Safety.push_booked 0 _ (drawn s2))
    · exact .refl _ s2
  have hpx : t.px = s2.px := (changes_of_booked hbooked).px
  have hmembers : memberOf t q.member = m := (memberOf_congr (by rw [hpx]) _).trans hmember
  refine ⟨by rw [hpx], by rw [hpx]; rfl, by rw [hpx]; rfl, by rw [hmembers, hseq], ?_, ?_, fun hpath => ?_⟩
  · rw [hpx]
    exact List.mem_cons_self ..
  · rw [hpx]
    exact hbooked
  · rw [ht, if_neg hpath]
    rfl

/-- Settles O57: each outcome of a request, from the equation for the checks that it passes. -/
theorem plantRequestsAreAuthenticated : Obligations.PlantRequestsAreAuthenticated := by
  unfold Obligations.PlantRequestsAreAuthenticated
  intro src frame x s hpd hawake hdead hport hsrc hparse htyp hmember
  intro c h p role body mac q back sentAs sent answered repeated fresh last authentic waiting
  have hon : pxOn s = true := by simp [pxOn, pdIs, hpd, hawake, hdead]
  have hexec : exec c s = .next (pxRequest src x h) :=
    congrArg Host.Outcome.next (pxRx_taken _ hon hport hsrc hparse htyp hmember)
  have hgroup : groupTo h = groupTo s := rfl
  have hquest : requestOf src x h = q := rfl
  refine ⟨fun hmuted => by rw [hexec, pxRequest_muted (s := h) hmuted], fun hmuted => ⟨fun hstate => ?bringUp, fun hstate => ⟨?repeats, ?anew⟩⟩⟩
  case bringUp =>
    refine ⟨retryAfter h, ?_, fun hpatching => if_pos hpatching, fun hpatching => retryAfter_bounds (s := h) hpatching⟩
    rw [hexec, pxRequest_bringUp (s := h) hmuted hstate]
    exact congrArg Host.Outcome.next (pxPut_replyTo (by exact hmuted) (by exact hpd) _)
  case repeats =>
    intro l hl
    rw [hexec, pxRequest_repeat (s := h) hmuted hstate hl]
    exact ⟨fun hnone => by rw [if_pos hnone],
      fun hsome => by rw [if_neg hsome]; exact congrArg Host.Outcome.next (pxPut_replyTo (by exact hmuted) (by exact hpd) _)⟩
  case anew =>
    intro hfresh
    have hchecks := pxRequest_fresh (src := src) (s := h) hmuted hstate hfresh
    have hauth : authFailure x h = none ↔ authentic := authFailure_none_iff.trans authentic_memberHeard
    refine ⟨fun hlen => ?length, fun hlen hnot => ?failed, fun hlen hyes hfull => ?full, fun hlen hyes hroom => ?room⟩
    case length =>
      have hlen' : bodyLenOk (reqBody x.payload) = false := hlen
      rw [if_pos hlen'] at hchecks
      refine ⟨_, by rw [hexec, hchecks], ?_⟩
      have hbody : responseBody (nth 0 (reqBody x.payload) 0) (BitVec.ofNat 32 (leAt (reqBody x.payload) 4 4)) 0x11 [] =
          [nth 0 body 0, 0x11, 0, 0] ++ leBytes 4 (leAt body 4 4) := by
        rw [responseBody, BitVec.toNat_ofNat, Nat.mod_eq_of_lt (by exact leAt_lt _ 4 4), List.append_nil]
        rfl
      rw [hbody]
      refine ⟨match roleKey s role.toNat with
        | some k => hmacSha256 k ((pxFrame 5 0 ([role, 0x11, 0, 0] ++ beBytes 4 x.seq.toNat ++
            ([nth 0 body 0, 0x11, 0, 0] ++ leBytes 4 (leAt body 4 4)) ++ zeros 32) h).take 16 ++
            ([role, 0x11, 0, 0] ++ beBytes 4 x.seq.toNat ++ ([nth 0 body 0, 0x11, 0, 0] ++ leBytes 4 (leAt body 4 4))))
        | none => zeros 32, ?_, fun k hk => by rw [hk], fun hk => by rw [hk]⟩
      rw [sendResponse]
      refine (pxPut_replyTo (by exact hmuted) (by exact hpd) _).trans ?_
      have hkey : roleKey h (nth 0 x.payload 0).toNat = roleKey s role.toNat := rfl
      rw [responseFrame, hkey]
      cases roleKey s role.toNat <;> rfl
    case failed =>
      have hlen' : ¬ bodyLenOk (reqBody x.payload) = false := ne_false_of_eq_true hlen
      rw [if_neg hlen'] at hchecks
      obtain ⟨c, hc⟩ : ∃ c, authFailure x h = some c := Option.ne_none_iff_exists'.mp fun hnone => hnot (hauth.mp hnone)
      rw [hc] at hchecks
      obtain ⟨hcount, hpending, hlast, hmembers, hout, hmany, hfew⟩ :=
        authFailed_shows (c := c) (q := requestOf src x h) (s := h) hmuted hpd
      refine ⟨authFailed c src (requestOf src x h) h, by rw [hexec, hchecks], hcount, hpending, hlast, ?_, hout, hmany, hfew⟩
      refine (congrArg Member.reqSeq (memberOf_congr hmembers x.member)).trans ?_
      have hheard : memberOf h x.member = _ := memberOf_memberHeard (s := s) x.member
      rw [hheard]
    case full =>
      have hlen' : ¬ bodyLenOk (reqBody x.payload) = false := ne_false_of_eq_true hlen
      rw [if_neg hlen', hauth.mpr hyes, if_pos (by exact hfull)] at hchecks
      rw [hexec, hchecks]
      exact congrArg Host.Outcome.next (pxPut_replyTo (by exact hmuted) (by exact hpd) _)
    case room =>
      have hlen' : ¬ bodyLenOk (reqBody x.payload) = false := ne_false_of_eq_true hlen
      rw [if_neg hlen', hauth.mpr hyes, if_neg (by exact Nat.not_le_of_lt hroom)] at hchecks
      obtain ⟨hpending, hbusy, hseq, hnoted, hlast, hbooked, hring⟩ := acceptRequest_shows (s := h) (requestOf src x h)
      refine ⟨_, by rw [hexec, hchecks], hpending, hbusy, hseq, hnoted, hlast, hbooked, fun hsafe => hring ?_⟩
      rw [hquest]
      simp only [q, hsafe, if_true]
      decide

end
end Sys2Proof.Machine
end

section
/-! PROOF. Modbus (R342, R356 to R359). -/

namespace Sys2Proof.Machine

section
set_option Elab.async false
variable {conn : Nat} {adu : Bytes} {s : State} {r : MbReq}

/-! ### Bytes -/

theorem beAt_drop (bs : Bytes) (m a n : Nat) : beAt (bs.drop m) a n = beAt bs (m + a) n := by
  rw [beAt, beAt, slice, slice, List.drop_drop]

/-- Two bytes are the field that they spell. -/
theorem beBytes_beAt_two (h : 2 ≤ adu.length) : beBytes 2 (beAt adu 0 2) = adu.take 2 := by
  obtain ⟨a, b, rest, rfl⟩ : ∃ a b rest, adu = a :: b :: rest := by
    match adu, h with
    | a :: b :: rest, _ => exact ⟨a, b, rest, rfl⟩
  have ha := a.isLt
  have hb := b.isLt
  have hlow : BitVec.ofNat 8 (256 * a.toNat + b.toNat) = b := by
    apply BitVec.eq_of_toNat_eq
    rw [BitVec.toNat_ofNat]
    omega
  have hhigh : BitVec.ofNat 8 ((256 * a.toNat + b.toNat) / 256) = a := by
    apply BitVec.eq_of_toNat_eq
    rw [BitVec.toNat_ofNat]
    omega
  have hfield : beAt (a :: b :: rest) 0 2 = 256 * a.toNat + b.toNat := by simp [beAt, beNat, slice]
  rw [hfield]
  simp [beBytes, leBytes, hlow, hhigh]

theorem beAt_two_lt (bs : Bytes) (a : Nat) : beAt bs a 2 < 65536 := by
  rw [beAt]
  have hlen : (slice bs a 2).length ≤ 2 := List.length_take_le ..
  match h : slice bs a 2, hlen with
  | [], _ => decide
  | [x], _ => have := x.isLt; simp only [beNat, List.foldl]; omega
  | [x, y], _ => have := x.isLt; have := y.isLt; simp only [beNat, List.foldl]; omega

theorem packBits_length (bs : List Bool) : (packBits bs).length = (bs.length + 7) / 8 := by simp [packBits]

theorem regBytes_length (vs : List Nat) : (regBytes vs).length = 2 * vs.length := by
  rw [regBytes, List.length_flatMap, List.map_congr_left (g := fun _ => 2) fun v _ => by simp [beBytes]]
  simp [Nat.mul_comm]

/-! ### Requests -/

/-- The request that an ADU brings. -/
def mbReqOf (conn : Nat) (adu : Bytes) : MbReq :=
  { conn := conn, tid := BitVec.ofNat 16 (beAt adu 0 2), unit := nth 0 adu 6, fc := beAt adu 7 1, pdu := adu.drop 8 }

theorem mbReqOf_addr : (mbReqOf conn adu).addr = beAt adu 8 2 := beAt_drop ..
theorem mbReqOf_qty : (mbReqOf conn adu).qty = beAt adu 10 2 := beAt_drop ..
theorem mbReqOf_length : (mbReqOf conn adu).pdu.length = adu.length - 8 := List.length_drop ..

/-- Is a connection held? -/
def MbHeld (s : State) (conn : Nat) : Prop := (s.px.conns.any fun c => decide (c.id = conn)) = true

/-- Is an ADU whole, and for this unit? -/
def MbWhole (adu : Bytes) : Prop := 8 ≤ adu.length ∧ beAt adu 2 2 = 0 ∧ beAt adu 4 2 + 6 = adu.length
def MbOurs (adu : Bytes) (s : State) : Prop := nth 0 adu 6 = 0 ∨ nth 0 adu 6 = 255 ∨ (nth 0 adu 6).toNat = ownMember s

theorem mbServed_iff : mbServed s = true ↔
    (s.power.state = .run ∨ s.power.state = .halt) ∧ s.power.pdOn.getLsbD 6 = true ∧ s.px.muted = false := by
  simp [mbServed, inRunOrHalt, pdIs, and_assoc]

theorem mbRequest_closed {fc : Nat} {f : MbReq → State → State} (h : ¬ mbServed s = true ∨ ¬ MbHeld s conn) :
    mbRequest fc conn adu f s = s := by
  have hclosed : (!mbServed s) = true ∨ (!(s.px.conns.any fun c => decide (c.id = conn))) = true := by simpa [MbHeld] using h
  unfold mbRequest
  rw [if_pos hclosed]

/-- What an open connection does with an ADU. -/
theorem mbRequest_open {fc : Nat} {f : MbReq → State → State} (hserved : mbServed s = true) (hheld : MbHeld s conn) :
    mbRequest fc conn adu f s =
      match mbParse conn adu with
      | none => { s with px := { s.px with unmatched := satInc s.px.unmatched } }
      | some r =>
        if r.unit ≠ 0 ∧ r.unit ≠ 255 ∧ r.unit.toNat ≠ ownMember s then { s with px := { s.px with unmatched := satInc s.px.unmatched } }
        else if !mbCodes.contains r.fc then mbException conn r.tid r.unit (BitVec.ofNat 8 r.fc) 1 s
        else if r.fc = fc then f r s
        else s := by
  have hopen : ¬ ((!mbServed s) = true ∨ (!(s.px.conns.any fun c => decide (c.id = conn))) = true) := by
    rw [hserved, show (s.px.conns.any fun c => decide (c.id = conn)) = true from hheld]
    decide
  unfold mbRequest
  rw [if_neg hopen] <;> rfl

theorem mbParse_whole (h : MbWhole adu) : mbParse conn adu = some (mbReqOf conn adu) := if_pos h
theorem mbParse_not_whole (h : ¬ MbWhole adu) : mbParse conn adu = none := if_neg h

theorem mbOurs_iff : MbOurs adu s ↔
    ¬ ((mbReqOf conn adu).unit ≠ 0 ∧ (mbReqOf conn adu).unit ≠ 255 ∧ (mbReqOf conn adu).unit.toNat ≠ ownMember s) := by
  unfold MbOurs mbReqOf
  tauto

theorem mbRequest_discards {fc : Nat} {f : MbReq → State → State} (hserved : mbServed s = true) (hheld : MbHeld s conn)
    (h : ¬ MbWhole adu ∨ ¬ MbOurs adu s) :
    mbRequest fc conn adu f s = { s with px := { s.px with unmatched := satInc s.px.unmatched } } := by
  rw [mbRequest_open hserved hheld]
  by_cases hwhole : MbWhole adu
  case neg => rw [mbParse_not_whole hwhole]
  case pos =>
    rw [mbParse_whole hwhole]
    have hother := h.resolve_left (not_not_intro hwhole)
    rw [mbOurs_iff (conn := conn), not_not] at hother
    exact if_pos hother

theorem mbRequest_unknown {fc : Nat} {f : MbReq → State → State} (hserved : mbServed s = true) (hheld : MbHeld s conn)
    (hwhole : MbWhole adu) (hours : MbOurs adu s) (h : beAt adu 7 1 ∉ mbCodes) :
    mbRequest fc conn adu f s =
      mbException conn (mbReqOf conn adu).tid (mbReqOf conn adu).unit (BitVec.ofNat 8 (beAt adu 7 1)) 1 s := by
  rw [mbRequest_open hserved hheld, mbParse_whole hwhole]
  refine (if_neg (mbOurs_iff.mp hours)).trans (if_pos ?_)
  simpa [mbReqOf] using h

theorem mbRequest_serves {fc : Nat} {f : MbReq → State → State} (hserved : mbServed s = true) (hheld : MbHeld s conn)
    (hwhole : MbWhole adu) (hours : MbOurs adu s) (hfc : beAt adu 7 1 = fc) (hcode : fc ∈ mbCodes) :
    mbRequest fc conn adu f s = f (mbReqOf conn adu) s := by
  rw [mbRequest_open hserved hheld, mbParse_whole hwhole]
  refine (if_neg (mbOurs_iff.mp hours)).trans ((if_neg ?_).trans (if_pos hfc))
  simpa [mbReqOf, hfc] using hcode

/-! ### Answers -/

/-- An answer on its way: the transaction and the unit of the request, a code and a PDU. -/
def mbReplied (conn : Nat) (adu : Bytes) (code : Nat) (pdu : Bytes) (s : State) : State :=
  { s with out := { s.out with modbus :=
    (conn, adu.take 2 ++ zeros 2 ++ beBytes 2 (pdu.length + 2) ++ [nth 0 adu 6, BitVec.ofNat 8 code] ++ pdu) :: s.out.modbus } }

theorem mbSend_replied (hheld : MbHeld s conn) (hwhole : MbWhole adu) (code : Nat) (pdu : Bytes) :
    mbSend conn (mbAdu (mbReqOf conn adu).tid (mbReqOf conn adu).unit (BitVec.ofNat 8 code) pdu) s = mbReplied conn adu code pdu s := by
  have htid : beBytes 2 (mbReqOf conn adu).tid.toNat = adu.take 2 := by
    have hlt := beAt_two_lt adu 0
    rw [mbReqOf, BitVec.toNat_ofNat, Nat.mod_eq_of_lt hlt]
    exact beBytes_beAt_two (by have := hwhole.1; omega)
  have hheld' : (s.px.conns.any fun c => decide (c.id = conn)) = true := hheld
  rw [mbSend, if_pos hheld', mbAdu, htid]
  rfl

theorem mbException_replied (hheld : MbHeld s conn) (hwhole : MbWhole adu) (fc n : Nat) :
    mbException conn (mbReqOf conn adu).tid (mbReqOf conn adu).unit (BitVec.ofNat 8 fc) n s =
      mbReplied conn adu (fc ||| 128) [BitVec.ofNat 8 n] s := by
  rw [mbException, show (BitVec.ofNat 8 fc ||| 0x80) = BitVec.ofNat 8 (fc ||| 128) from (BitVec.ofNat_or).symm]
  exact mbSend_replied hheld hwhole ..

section
variable {fc : Nat} (hheld : MbHeld s conn) (hwhole : MbWhole adu) (hfc : beAt adu 7 1 = fc) (hcode : fc ∈ mbCodes)
include hheld hwhole hfc hcode

/-- An exception has the function code with its top bit set, and the codes served are below that bit. -/
theorem mbException_raised (n : Nat) :
    mbException (mbReqOf conn adu).conn (mbReqOf conn adu).tid (mbReqOf conn adu).unit (BitVec.ofNat 8 (mbReqOf conn adu).fc) n s =
      mbReplied conn adu (beAt adu 7 1 + 128) [BitVec.ofNat 8 n] s := by
  have hor : ∀ c ∈ mbCodes, c ||| 128 = c + 128 := by decide
  rw [hfc, ← hor fc hcode, ← hfc]
  exact mbException_replied hheld hwhole ..

/-- A read is answered, or meets the exceptions 3 and 2 in this order. -/
theorem mbAnswer_eq {ok range : Bool} {A B : Prop} [Decidable A] [Decidable B] {data : Bytes} (hok : ok = !decide A)
    (hrange : range = !decide B) :
    mbAnswer (mbReqOf conn adu) (mbFault true ok range) data s =
      if A then mbReplied conn adu (beAt adu 7 1 + 128) [3] s else if B then mbReplied conn adu (beAt adu 7 1 + 128) [2] s
      else mbReplied conn adu fc (BitVec.ofNat 8 data.length :: data) s := by
  subst hok hrange
  have hraised := mbException_raised hheld hwhole hfc hcode (s := s)
  unfold mbAnswer
  by_cases hA : A
  · simp only [hA, mbFault]
    exact hraised 3
  by_cases hB : B
  · simp only [hA, hB, mbFault]
    exact hraised 2
  simp only [hA, hB, mbFault]
  rw [← hfc]
  exact mbSend_replied hheld hwhole ..

/-- A write waits for the freeze, or meets the exceptions 1, 3 and 2 in this order. -/
theorem mbQueue_eq {coil : Bool} {addr rdAddr rdQty : Nat} {vs : List Half} {allowed ok range : Bool} {M A B : Prop} [Decidable M]
    [Decidable A] [Decidable B] (hallowed : allowed = decide M) (hok : ok = !decide A) (hrange : range = !decide B) :
    mbQueue (mbReqOf conn adu) coil addr vs rdAddr rdQty (mbFault allowed ok range) s =
      if ¬ M then mbReplied conn adu (beAt adu 7 1 + 128) [1] s else if A then mbReplied conn adu (beAt adu 7 1 + 128) [3] s
      else if B then mbReplied conn adu (beAt adu 7 1 + 128) [2] s
      else { s with px := { s.px with writes := s.px.writes ++ [
        { conn := conn, tid := BitVec.ofNat 16 (beAt adu 0 2), unit := nth 0 adu 6, fc := BitVec.ofNat 8 fc, coil := coil, addr := addr
          values := vs, rdAddr := rdAddr, rdQty := rdQty }] } } := by
  subst hallowed hok hrange
  have hraised := mbException_raised hheld hwhole hfc hcode (s := s)
  unfold mbQueue
  by_cases hM : M
  case neg =>
    simp only [hM, mbFault]
    exact hraised 1
  by_cases hA : A
  · simp only [hM, hA, mbFault]
    exact hraised 3
  by_cases hB : B
  · simp only [hM, hA, hB, mbFault]
    exact hraised 2
  simp only [hM, hA, hB, mbFault]
  rw [← hfc]
  rfl

end

/-! ### The conditions of the rows -/

theorem mbMayWrite_coil : mbMayWrite s true = decide (s.px.mbEn.getLsbD 0 = true ∧ s.power.role = .solo) := by simp [mbMayWrite]
theorem mbMayWrite_register : mbMayWrite s false = decide (s.px.mbEn.getLsbD 1 = true ∧ s.power.role = .solo) := by simp [mbMayWrite]

theorem decide_le_eq (a b : Nat) : decide (a ≤ b) = !decide (b < a) := by rw [← decide_not, decide_eq_decide, not_lt]

theorem mbHoldingIn_eq (a n : Nat) : mbHoldingIn s a n = !decide (¬ (a + n ≤ 65536 ∧ 2 * (a + n) ≤ dBytes s)) := by
  rw [mbHoldingIn, decide_not, Bool.not_not, Bool.decide_and]

theorem all_isSome_eq {α : Type} [DecidableEq α] (vs : List (Option α)) : vs.all Option.isSome = !decide (none ∈ vs) := by
  induction vs with
  | nil => rfl
  | cons v vs ih => cases v <;> simp [ih]

/-- The shape of a read: two fields, and a quantity from 1 to a limit. -/
theorem readOk_eq (hwhole : MbWhole adu) (limit : Nat) :
    (decide ((mbReqOf conn adu).pdu.length = 4) && decide (1 ≤ beAt adu 10 2) && decide (beAt adu 10 2 ≤ limit)) =
      !decide (adu.length ≠ 12 ∨ beAt adu 10 2 = 0 ∨ limit < beAt adu 10 2) := by
  have hlen := hwhole.1
  rw [mbReqOf_length, Bool.eq_iff_iff]
  simp only [Bool.and_eq_true, decide_eq_true_eq, Bool.not_eq_true', decide_eq_false_iff_not]
  omega

/-- Settles O58: the connections by their definitions, the requests row by row. -/
theorem modbusReadsTheCopyAndQueuesWrites : Obligations.ModbusReadsTheCopyAndQueuesWrites := by
  unfold Obligations.ModbusReadsTheCopyAndQueuesWrites
  intro src conn adu s served coded held whole unit ours fc reply raises addr qty mayWrite waits tid inD on
  have hon : pxOn s = true ↔ on := by simp [pxOn, pdIs, on, and_assoc]
  refine ⟨fun hserved hport hroom => ?connects, fun hnot => ?resets, ⟨_, rfl, rfl, fun c => ?closes⟩, fun p hp => ?common,
    fun hserved hheld hwhole hours => ?rows⟩
  case connects => exact congrArg Host.Outcome.next (if_pos ⟨mbServed_iff.mpr hserved, hport, hroom⟩)
  case resets =>
    have hnone : ¬ (mbServed s = true ∧ src.toPort = 502 ∧ s.px.conns.length < 8) := by
      rw [mbServed_iff]
      rintro ⟨hserved, hport, hroom⟩
      exact hnot.elim (fun h => h hserved) fun h => h.elim (fun h => h hport) fun h => absurd hroom (Nat.not_lt_of_le h)
    refine congrArg Host.Outcome.next ((if_neg hnone).trans ?_)
    by_cases h : on
    · rw [if_pos h, if_pos (hon.mpr h)]
    · rw [if_neg h, if_neg (fun h' => h (hon.mp h'))]
  case closes =>
    refine List.mem_filter.trans (and_congr_right fun _ => ?_)
    rw [decide_eq_true_eq]
  case common =>
    obtain ⟨f, hf⟩ : ∃ f, exec p.1 s = .next (mbRequest p.2 conn adu f s) := by
      simp only [coded, List.mem_cons, List.not_mem_nil, or_false] at hp
      obtain rfl | rfl | rfl | rfl | rfl | rfl | rfl | rfl | rfl := hp <;> exact ⟨_, rfl⟩
    rw [hf]
    refine ⟨fun hclosed => ?_, fun hserved hheld hnot => ?_, fun hserved hheld hwhole hours hunknown => ?_⟩
    · rw [mbRequest_closed (by rw [mbServed_iff]; exact hclosed)]
    · rw [mbRequest_discards (mbServed_iff.mpr hserved) hheld hnot]
    · rw [mbRequest_unknown (mbServed_iff.mpr hserved) hheld hwhole hours hunknown, mbException_replied hheld hwhole]
      rfl
  case rows =>
    have hlen : 8 ≤ adu.length := hwhole.1
    have hserves {n : Nat} (f : MbReq → State → State) (hn : fc = n) (hcode : n ∈ mbCodes) :
        mbRequest n conn adu f s = f (mbReqOf conn adu) s :=
      mbRequest_serves (mbServed_iff.mpr hserved) hheld hwhole hours hn hcode
    refine ⟨fun h => ?_, fun h => ?_, fun h => ?_, fun h => ?_, fun h => ?_, fun h => ?_, fun h => ?_, fun h => ?_, fun h => ?_⟩ <;>
      refine congrArg Host.Outcome.next ((hserves _ h (by decide)).trans ?_)
    · have hrow := mbAnswer_eq (data := packBits ((List.range qty).map fun i => s.ctx.mbCopy.m.getLsbD (addr + i))) (s := s) hheld hwhole h
        (by decide) (readOk_eq (conn := conn) hwhole 2000) (decide_le_eq (addr + qty) 65536)
      rw [packBits_length, List.length_map, List.length_range] at hrow
      rw [readCoilsFn, mbReqOf_addr, mbReqOf_qty]
      exact hrow
    · have hrow := mbAnswer_eq (data := packBits (((List.range qty).map fun i => mbDiscrete s.ctx.mbCopy (addr + i)).map fun v => v.getD false))
        (s := s) hheld hwhole h (by decide) (readOk_eq (conn := conn) hwhole 2000)
        (all_isSome_eq ((List.range qty).map fun i => mbDiscrete s.ctx.mbCopy (addr + i)))
      rw [packBits_length, List.length_map, List.length_map, List.length_range] at hrow
      rw [readDiscreteFn, mbReqOf_addr, mbReqOf_qty]
      exact hrow
    · have hrow := mbAnswer_eq (data := regBytes ((List.range qty).map fun i => mbHolding s.ctx.mbCopy (addr + i))) (s := s) hheld hwhole h
        (by decide) (readOk_eq (conn := conn) hwhole 125) (mbHoldingIn_eq (s := s) addr qty)
      rw [regBytes_length, List.length_map, List.length_range] at hrow
      rw [readHoldingFn, mbReqOf_addr, mbReqOf_qty]
      exact hrow
    · have hrow := mbAnswer_eq (data := regBytes (((List.range qty).map fun i => mbInput s.ctx.mbCopy (addr + i)).map fun v => v.getD 0))
        (s := s) hheld hwhole h (by decide) (readOk_eq (conn := conn) hwhole 125)
        (all_isSome_eq ((List.range qty).map fun i => mbInput s.ctx.mbCopy (addr + i)))
      rw [regBytes_length, List.length_map, List.length_map, List.length_range] at hrow
      rw [readInputFn, mbReqOf_addr, mbReqOf_qty]
      exact hrow
    · have hok : (decide ((mbReqOf conn adu).pdu.length = 4) && (decide (qty = 0xFF00) || decide (qty = 0))) =
          !decide (adu.length ≠ 12 ∨ qty ≠ 0xFF00 ∧ qty ≠ 0) := by
        rw [mbReqOf_length, Bool.eq_iff_iff]
        simp only [Bool.and_eq_true, Bool.or_eq_true, decide_eq_true_eq, Bool.not_eq_true', decide_eq_false_iff_not]
        omega
      have hrow := mbQueue_eq (coil := true) (addr := addr) (rdAddr := 0) (rdQty := 0) (vs := [BitVec.ofNat 16 (b2n (decide (qty ≠ 0)))])
        (s := s) hheld hwhole h (by decide) (mbMayWrite_coil (s := s)) hok (range := true) (B := False) (by simp)
      have hvalue : BitVec.ofNat 16 (b2n (decide (qty ≠ 0))) = if qty = 0 then 0 else 1 := by
        by_cases hzero : qty = 0 <;> simp [hzero, b2n]
      rw [writeCoilFn, mbReqOf_addr, mbReqOf_qty]
      refine hrow.trans ?_
      rw [hvalue]
      simp only [if_false]
      rfl
    · have hok : decide ((mbReqOf conn adu).pdu.length = 4) = !decide (adu.length ≠ 12) := by
        rw [mbReqOf_length, Bool.eq_iff_iff]
        simp only [decide_eq_true_eq, Bool.not_eq_true', decide_eq_false_iff_not]
        omega
      rw [writeRegisterFn, mbReqOf_addr, mbReqOf_qty]
      exact mbQueue_eq hheld hwhole h (by decide) (mbMayWrite_register (s := s)) hok (mbHoldingIn_eq (s := s) addr 1)
    · have hok : (decide (1 ≤ qty) && decide (qty ≤ 1968) && decide (beAt adu 12 1 = (qty + 7) / 8) &&
          decide ((mbReqOf conn adu).pdu.length = 5 + beAt adu 12 1)) =
          !decide (qty = 0 ∨ 1968 < qty ∨ beAt adu 12 1 ≠ (qty + 7) / 8 ∨ adu.length ≠ 13 + beAt adu 12 1) := by
        rw [mbReqOf_length, Bool.eq_iff_iff]
        simp only [Bool.and_eq_true, decide_eq_true_eq, Bool.not_eq_true', decide_eq_false_iff_not]
        omega
      have hrest : (mbReqOf conn adu).pdu.drop 5 = adu.drop 13 := List.drop_drop ..
      have hcount : beAt (mbReqOf conn adu).pdu 4 1 = beAt adu 12 1 := beAt_drop ..
      rw [writeCoilsFn, mbReqOf_addr, mbReqOf_qty, hrest, hcount]
      exact mbQueue_eq hheld hwhole h (by decide) (mbMayWrite_coil (s := s)) hok (decide_le_eq (addr + qty) 65536)
    · have hok : (decide (1 ≤ qty) && decide (qty ≤ 123) && decide (beAt adu 12 1 = 2 * qty) &&
          decide ((mbReqOf conn adu).pdu.length = 5 + beAt adu 12 1)) =
          !decide (qty = 0 ∨ 123 < qty ∨ beAt adu 12 1 ≠ 2 * qty ∨ adu.length ≠ 13 + beAt adu 12 1) := by
        rw [mbReqOf_length, Bool.eq_iff_iff]
        simp only [Bool.and_eq_true, decide_eq_true_eq, Bool.not_eq_true', decide_eq_false_iff_not]
        omega
      have hrest : (mbReqOf conn adu).pdu.drop 5 = adu.drop 13 := List.drop_drop ..
      have hcount : beAt (mbReqOf conn adu).pdu 4 1 = beAt adu 12 1 := beAt_drop ..
      rw [writeRegistersFn, mbReqOf_addr, mbReqOf_qty, hrest, hcount]
      exact mbQueue_eq hheld hwhole h (by decide) (mbMayWrite_register (s := s)) hok (mbHoldingIn_eq (s := s) addr qty)
    · have hok : (decide (1 ≤ qty) && decide (qty ≤ 125) && decide (1 ≤ beAt adu 14 2) && decide (beAt adu 14 2 ≤ 121) &&
          decide (beAt adu 16 1 = 2 * beAt adu 14 2) && decide ((mbReqOf conn adu).pdu.length = 9 + beAt adu 16 1)) =
          !decide (qty = 0 ∨ 125 < qty ∨ beAt adu 14 2 = 0 ∨ 121 < beAt adu 14 2 ∨ beAt adu 16 1 ≠ 2 * beAt adu 14 2 ∨
            adu.length ≠ 17 + beAt adu 16 1) := by
        rw [mbReqOf_length, Bool.eq_iff_iff]
        simp only [Bool.and_eq_true, decide_eq_true_eq, Bool.not_eq_true', decide_eq_false_iff_not]
        omega
      have hrange : (mbHoldingIn s addr qty && mbHoldingIn s (beAt adu 12 2) (beAt adu 14 2)) =
          !decide (¬ inD addr qty ∨ ¬ inD (beAt adu 12 2) (beAt adu 14 2)) := by
        rw [mbHoldingIn_eq, mbHoldingIn_eq, Bool.eq_iff_iff]
        simp [inD]
      have hrest : (mbReqOf conn adu).pdu.drop 9 = adu.drop 17 := List.drop_drop ..
      have hcount : beAt (mbReqOf conn adu).pdu 8 1 = beAt adu 16 1 := beAt_drop ..
      have hwa : beAt (mbReqOf conn adu).pdu 4 2 = beAt adu 12 2 := beAt_drop ..
      have hwq : beAt (mbReqOf conn adu).pdu 6 2 = beAt adu 14 2 := beAt_drop ..
      rw [readWriteFn, mbReqOf_addr, mbReqOf_qty, hrest, hcount, hwa, hwq]
      exact mbQueue_eq hheld hwhole h (by decide) (mbMayWrite_register (s := s)) hok hrange

end
end Sys2Proof.Machine
end

section
/-! PROOF. The service requests: logs, clock, landing buses, tables, CRC jobs and keys (R290, R328 to R330, R372, R373, R376, R394,
R402, R412). -/

namespace Sys2Proof.Machine

section
set_option Elab.async false

/-! ### Saturating counts -/

theorem satAdd_toNat {w : Nat} (c : BitVec w) (n : Nat) : (satAdd c n).toNat = min (c.toNat + n) (2 ^ w - 1) := by
  have hpos : 0 < 2 ^ w := Nat.two_pow_pos w
  rw [satAdd, BitVec.toNat_ofNat, Nat.mod_eq_of_lt (by omega)]

theorem satInc_satAdd {w : Nat} (c : BitVec w) (n : Nat) : satInc (satAdd c n) = satAdd c (n + 1) := by
  apply BitVec.eq_of_toNat_eq
  rw [← satAdd_one, satAdd_toNat, satAdd_toNat, satAdd_toNat]
  omega

/-! ### LOG_READ (R394) -/

/-- The counts of corrupt slots, `n` more of log `log` (R394). -/
def corruptMore (log n : Nat) (s : State) : State :=
  { s with log := { s.log with
      corruptSj := if log = 0 then satAdd s.log.corruptSj n else s.log.corruptSj
      corruptTr := if log = 1 then satAdd s.log.corruptTr n else s.log.corruptTr } }

theorem corruptMore_zero (log : Nat) (s : State) : corruptMore log 0 s = s := by
  simp only [corruptMore, satAdd_zero, ite_self]

theorem corruptMore_succ (log n : Nat) (s : State) : corruptMore log 1 (corruptMore log n s) = corruptMore log (n + 1) s := by
  simp only [corruptMore, satAdd_one]
  split_ifs <;> simp only [satInc_satAdd]

theorem corruptMore_booked {u v : State} (h : Safety.Booked [2, 3] u v) (log n : Nat) :
    Safety.Booked [2, 3] (corruptMore log n u) (corruptMore log n v) := by
  obtain ⟨hframe, hlog, hsj, htr, hpool, hlayout, hrings, hbytes⟩ := h
  have hcounts : v.log.corruptSj = u.log.corruptSj ∧ v.log.corruptTr = u.log.corruptTr := by rw [hlog]; exact ⟨rfl, rfl⟩
  obtain ⟨hcsj, hctr⟩ := hcounts
  refine ⟨?_, ?_, hsj, htr, hpool, hlayout, hrings, hbytes⟩
  · exact congrArg (fun z : State => { z with log := (corruptMore log n v).log }) hframe
  · simp only [corruptMore, hcsj, hctr]
    exact congrArg (fun l : Log => { l with
      corruptSj := if log = 0 then satAdd u.log.corruptSj n else u.log.corruptSj
      corruptTr := if log = 1 then satAdd u.log.corruptTr n else u.log.corruptTr }) hlog

theorem noteCorrupt_eq (log n : Nat) (s : State) :
    noteCorrupt log n s = sjRep 0xC04 1 (n + 0x100000 * log) (item log ++ item n) (corruptMore log 1 s) := by
  rw [noteCorrupt, corruptMore]
  simp only [satAdd_one]

/-- What LOG_READ does about the slots it reads. -/
def notedSlots (log : Nat) (bad : Nat → Bool) (slots : List Nat) (s : State) : State :=
  slots.foldl (fun t n => if bad n then noteCorrupt log n t else t) s

theorem notedSlots_cons (log : Nat) (bad : Nat → Bool) (n : Nat) (slots : List Nat) (s : State) :
    notedSlots log bad (n :: slots) s = notedSlots log bad slots (if bad n then noteCorrupt log n s else s) := rfl

theorem notedSlots_booked_from (log : Nat) (bad : Nat → Bool) (slots : List Nat) {u w : State} {k : Nat}
    (h : Safety.Booked [2, 3] (corruptMore log k u) w) :
    Safety.Booked [2, 3] (corruptMore log (k + (slots.filter bad).length) u) (notedSlots log bad slots w) := by
  induction slots generalizing w k with
  | nil => exact h
  | cons n slots ih =>
    rw [notedSlots_cons]
    cases hn : bad n with
    | false => simpa [hn] using ih h
    | true =>
      have hone : Safety.Booked [2, 3] (corruptMore log (k + 1) u) (noteCorrupt log n w) := by
        rw [noteCorrupt_eq, ← corruptMore_succ]
        exact (corruptMore_booked h log 1).trans (Safety.sjRep_booked ..)
      have := ih hone
      rw [List.filter_cons_of_pos hn, List.length_cons, show k + ((slots.filter bad).length + 1) = k + 1 + (slots.filter bad).length by omega]
      simpa using this

theorem notedSlots_booked (log : Nat) (bad : Nat → Bool) (slots : List Nat) (s : State) :
    Safety.Booked [2, 3] (corruptMore log (slots.filter bad).length s) (notedSlots log bad slots s) := by
  have h := notedSlots_booked_from log bad slots (u := s) (w := s) (k := 0)
    (by rw [corruptMore_zero]; exact Safety.Booked.refl _ s)
  rwa [Nat.zero_add] at h

/-! ### A repetition rule's own entries (R65) -/

theorem repeatFind_repeatGate {code key code' key' : Nat} {s : State} (hne : code' % 65536 ≠ code ∨ key' ≠ key)
    (h : repeatFind s code key = none) : repeatFind (repeatGate code' key' s).1 code key = none := by
  simp only [repeatFind, List.find?_eq_none, decide_eq_true_eq] at h ⊢
  unfold repeatGate
  cases hfind : repeatFind s code' key' with
  | none =>
    intro x hx
    rcases List.mem_cons.1 hx with rfl | hx
    · rintro ⟨hcode, hkey⟩
      exact hne.elim (fun hc => hc (by simpa using hcode)) fun hk => hk hkey
    · exact h x (List.mem_of_mem_filter hx)
  | some r =>
    have hr : r.code.toNat = code' ∧ r.key = key' := by simpa using List.find?_some hfind
    have hcode : r.code.toNat % 65536 = r.code.toNat := Nat.mod_eq_of_lt r.code.isLt
    dsimp only
    split_ifs
    all_goals
      intro x hx
      rcases List.mem_cons.1 hx with rfl | hx
      · rintro ⟨hsame, hkey⟩
        exact hne.elim (fun hc => hc (by rw [← hr.1, hcode]; exact hsame)) fun hk => hk (hr.2.symm.trans hkey)
      · exact h x (List.mem_of_mem_filter hx)

theorem ringPut_log (n : Nat) (d : Desc) (s : State) : (ringPut n d s).1.log = s.log := by
  unfold ringPut ringStore
  dsimp only
  split_ifs <;> rfl

/-- A record written leaves the entries of other records' rules. -/
theorem repeatFind_perform {code key : Nat} (hfull : code ≠ 0x124) (hmark : code ≠ 0x125) (k : Nat) (w : Work) {s : State}
    (h : repeatFind s code key = none) : repeatFind (perform k w s) code key = none := by
  induction k generalizing w s with
  | zero => exact h
  | succ k ih =>
    have hcongr {t u : State} (hlog : t.log.repeats = u.log.repeats) (hu : repeatFind u code key = none) : repeatFind t code key = none := by
      rwa [repeatFind, hlog]
    cases w with
    | desc n d =>
      have hgate {u : State} (c : Nat) (hc : c % 65536 ≠ code) (f : Nat → State → Record) (hu : repeatFind u code key = none) :
          repeatFind (match repeatGate c n u with
            | (t, some m) => perform k (.tr (f m t)) t
            | (t, none) => t) code key = none := by
        have hg := repeatFind_repeatGate (key' := n) (.inl hc) hu
        split
        · next t m heq => rw [heq] at hg; exact ih _ hg
        · next t heq => rw [heq] at hg; exact hg
      have hput : repeatFind (ringPut n d s).1 code key = none := hcongr (by rw [ringPut_log]) h
      have hdrop : repeatFind (if n = 3 ∧ (ringPut n d s).2.dropped then
          (if trDropDue (trDropped (ringPut n d s).1) then
            perform k (.sj (recordOf 0xC05 1 (item (trDropped (ringPut n d s).1).log.trDropMissed) 0 (ringPut n d s).1))
              (trDropSaid (trDropped (ringPut n d s).1))
          else trDropped (ringPut n d s).1) else (ringPut n d s).1) code key = none := by
        split_ifs
        · exact ih _ (hcongr (u := (ringPut n d s).1) rfl hput)
        · exact hcongr (u := (ringPut n d s).1) rfl hput
        · exact hput
      have hover {u : State} (hu : repeatFind u code key = none) : repeatFind (if (ringPut n d s).2.overflow then
          (match repeatGate 0x124 n u with
            | (t, some m) => perform k (.tr (recordOf 0x124 1 (item n ++ item (ringGet (ringPut n d s).1 n).policy.toNat ++ item (m + 1)) m t)) t
            | (t, none) => t) else u) code key = none := by
        split
        · exact hgate 0x124 (by omega)
            (fun m t => recordOf 0x124 1 (item n ++ item (ringGet (ringPut n d s).1 n).policy.toNat ++ item (m + 1)) m t) hu
        · exact hu
      simp only [perform]
      split
      · exact hgate 0x125 (by omega) (fun m t => recordOf 0x125 0
          (item n ++ item (ringFill (ringGet (ringPut n d s).1 n)) ++ item (ringDepth (ringGet (ringPut n d s).1 n))) m t) (hover hdrop)
      · exact hover hdrop
    | sj r => exact ih _ (hcongr (u := s) rfl h)
    | tr r =>
      simp only [perform]
      split
      · exact ih _ (hcongr (u := s) rfl h)
      · exact ih _ (hcongr (u := s) rfl h)

/-- A record under its rule leaves the entries of other units of repetition. -/
theorem repeatFind_sjRep {code key key' sev : Nat} {items : Bytes} {s : State} (hfull : code ≠ 0x124) (hmark : code ≠ 0x125)
    (hne : key' ≠ key) (h : repeatFind s code key = none) : repeatFind (sjRep code sev key' items s) code key = none := by
  have hg := repeatFind_repeatGate (code' := code) (.inr hne) h
  unfold sjRep
  split
  · next t m heq =>
    rw [heq] at hg
    exact repeatFind_perform hfull hmark 8 _ hg
  · next t heq =>
    rw [heq] at hg
    exact hg

/-- The first slot of its number is recorded, and stands among the records at the end. -/
theorem notedSlots_journals {log k : Nat} {bad : Nat → Bool} {s u : State} (slots : List Nat) (hk : k ∈ slots) (hbad : bad k = true)
    (hfresh : repeatFind u 0xC04 (k + 0x100000 * log) = none) (hfrom : s.log.sjQueue <+: u.log.sjQueue) (hop : opMs u = opMs s)
    (hcycles : u.power.pwrCycles = s.power.pwrCycles) :
    Safety.journals 0xC04 1 (item log ++ item k) s (notedSlots log bad slots u) := by
  induction slots generalizing u with
  | nil => cases hk
  | cons n slots ih =>
    rw [notedSlots_cons]
    have hnoted : Safety.Booked [2, 3] (corruptMore log 1 u) (noteCorrupt log n u) := by
      rw [noteCorrupt_eq]
      exact Safety.sjRep_booked ..
    by_cases hn : n = k
    · subst hn
      rw [if_pos hbad]
      have hto := (notedSlots_booked log bad slots (noteCorrupt log n u)).sjKept
      rw [noteCorrupt_eq] at hto ⊢
      exact Safety.journals_of_sjRep (u := corruptMore log 1 u) hfresh hfrom hto hop hcycles
    · have hin : k ∈ slots := (List.mem_cons.1 hk).resolve_left fun h => hn h.symm
      split_ifs
      · refine ih hin ?_ (hfrom.trans hnoted.sjKept) ?_ ?_
        · rw [noteCorrupt_eq]
          exact repeatFind_sjRep (by decide) (by decide) (by omega) hfresh
        · rw [hnoted.frame, ← hop]
          rfl
        · rw [hnoted.frame, ← hcycles]
          rfl
      · exact ih hin hfresh hfrom hop hcycles

/-! ### Accesses to the table leave its lock and a rehash -/

/-- What belongs to the table but its two pipelines. -/
def tableFrame (t : Tbl) : Tbl := { t with e := {}, w := {} }

/-- Only the pipelines of the table change, and what their records book. -/
structure PipesOnly (s t : State) : Prop where
  changes : Changes (.tbl :: bookParts) s t
  frame : tableFrame t.tbl = tableFrame s.tbl

theorem PipesOnly.refl (s : State) : PipesOnly s s := ⟨.refl _ s, rfl⟩

theorem PipesOnly.trans {s t u : State} (h : PipesOnly s t) (k : PipesOnly t u) : PipesOnly s u :=
  ⟨h.changes.join k.changes, k.frame.trans h.frame⟩

theorem PipesOnly.of_booked {s t : State} (h : Changes bookParts s t) : PipesOnly s t := ⟨h.mono, by rw [h.get .tbl]⟩

theorem PipesOnly.foldl {α : Type} {f : State → α → State} (hf : ∀ u x, PipesOnly u (f u x)) (xs : List α) (s : State) :
    PipesOnly s (xs.foldl f s) := by
  induction xs generalizing s with
  | nil => exact .refl s
  | cons x xs ih => exact (hf s x).trans (ih _)

theorem PipesOnly.ite {c : Prop} [Decidable c] {s t u : State} (h : PipesOnly s t) (k : PipesOnly s u) : PipesOnly s (if c then t else u) := by
  split
  · exact h
  · exact k

theorem modPipe_only (w : Bool) (f : Pipe → Pipe) (s : State) : PipesOnly s (modPipe w f s) := by
  refine ⟨?_, ?_⟩
  · unfold modPipe
    exact .of
  · cases w <;> rfl

theorem perrNote_only (w pfx : Bool) (finder i : Nat) (s : State) : PipesOnly s (perrNote w pfx finder i s) :=
  .ite ((modPipe_only ..).trans (.of_booked (sj_changes ..))) (.refl s)

theorem noteWays_only (w : Bool) (finder : Nat) (mac : BitVec 48) (vid : BitVec 12) (s : State) : PipesOnly s (noteWays w finder mac vid s) :=
  .foldl (fun _ _ => perrNote_only ..) _ s

theorem learnNow_only (w : Bool) (port : Nat) (mac : BitVec 48) (vid : BitVec 12) (s : State) :
    PipesOnly s (learnNow w port mac vid s).1 := by
  have hways := noteWays_only w 1 mac vid s
  unfold learnNow
  dsimp only
  generalize noteWays w 1 mac vid s = u at hways ⊢
  split
  · split
    · exact hways
    · dsimp only
      exact hways.trans (modPipe_only ..)
  · split
    · exact hways.trans (modPipe_only ..)
    · exact (hways.trans (modPipe_only ..)).trans (.of_booked (trRep_changes ..))

theorem applyLearned_only (w : Bool) (s : State) : PipesOnly s (applyLearned w s) :=
  (modPipe_only ..).trans (.foldl (fun _ _ => learnNow_only ..) _ _)

/-- A command that R329 admits ends at once, but for a REHASH, and only INSERT finds no way. -/
theorem tblRun_status (c : TblCmd) (s : State) (hc : 1 ≤ c.code ∧ c.code ≤ 6) :
    ((tblRun c s).2 = 0 → c.code ≤ 5) ∧ ((tblRun c s).2 ≠ 0 → c.code = 3 ∧ (tblRun c s).2 = 0x41 ∨
      c.code = 6 ∧ (tblRun c s).2 = 1 ∧ (tblRun c s).1 =
        { s with tbl := { s.tbl with rehash := some (bitOf c.pipe 1, BitVec.ofNat 16 (tblArg0 c)) } }) := by
  obtain ⟨hlow, hhigh⟩ := hc
  unfold tblRun
  split_ifs with h1 h2 h3 h4 h5
  · exact ⟨fun _ => by omega, fun h => absurd rfl h⟩
  · exact ⟨fun _ => by omega, fun h => absurd rfl h⟩
  · refine ⟨fun _ => by omega, fun h => .inl ⟨h3, ?_⟩⟩
    dsimp only at h ⊢
    split_ifs at h ⊢
    · exact absurd rfl h
    · rfl
  · exact ⟨fun _ => by omega, fun h => absurd rfl h⟩
  · exact ⟨fun _ => by omega, fun h => absurd rfl h⟩
  · exact ⟨fun h => absurd (show (1 : Byte) = 0 from h) (by decide), fun _ => .inr ⟨by omega, rfl, rfl⟩⟩

theorem tblResult_changes (r : Option (Nat × MacEntry)) (s : State) : Changes [.tbl] s (tblResult r s) := by
  unfold tblResult
  split <;> exact .of

theorem found_changes (b : Bool) (s : State) : Changes [.tbl] s { s with tbl := { s.tbl with found := b } } := .of

theorem tblRun_changes (c : TblCmd) (s : State) : Changes (.tbl :: bookParts) s (tblRun c s).1 := by
  have hways (f : Nat) (l : List Bool) : Changes (.tbl :: bookParts) s
      (l.foldl (fun t w => noteWays w f (tblMac c) (BitVec.ofNat 12 (tblVid c)) t) s) :=
    .foldl (fun _ _ => (noteWays_only ..).changes) _ s
  unfold tblRun
  split_ifs
  · exact (noteWays_only ..).changes.join (tblResult_changes ..).mono
  · exact (tblResult_changes ..).mono
  · unfold tblInsert
    dsimp only
    split
    · exact (hways ..).join (.foldl (fun _ _ => (modPipe_only ..).changes) _ _)
    · exact hways ..
  · unfold tblDelete
    exact ((hways 0 (tblPipes c)).join (.foldl (fun _ _ => (modPipe_only ..).changes) (tblPipes c) _)).join (found_changes ..).mono
  · exact .foldl (fun _ _ => (modPipe_only ..).changes) _ s
  · exact .of

end
end Sys2Proof.Machine
end

section
/-! PROOF. The service requests act and answer (R290, R328 to R330, R372, R373, R376, R394, R402, R412). -/

namespace Sys2Proof.Machine

section
set_option Elab.async false

/-- In RUN, SAFE SERVICE and HALT. -/
def works (s : State) : Prop := s.power.state ∈ [OpState.run, .safeService, .halt]

theorem legalColumn_works {s : State} (h : works s) : legalColumn s ∈ [1, 2, 3, 4, 5] := by
  simp only [works, List.mem_cons, List.not_mem_nil, or_false] at h
  rcases h with h | h | h
  · rcases legalColumn_run h with hc | hc | hc <;> rw [hc] <;> decide
  · rw [legalColumn_safe h]; decide
  · rw [legalColumn_halt h]; decide

theorem legal_works {s : State} (h : works s) : nth 1 [1, 0, 0, 0, 0, 0, 1] (legalColumn s) = 0 := by
  have hcol := legalColumn_works h
  simp only [List.mem_cons, List.not_mem_nil, or_false] at hcol
  rcases hcol with hc | hc | hc | hc | hc <;> rw [hc] <;> rfl

theorem legal_always (s : State) : nth 1 [0, 0, 0, 0, 0, 0, 0] (legalColumn s) = 0 := by
  rw [legalColumn]
  cases s.power.state <;> first | rfl | (dsimp only; split_ifs <;> rfl)

theorem arrives_svcOpen {via : Via} {s u : State} {a : Asked} {body : Bytes} (h : Safety.arrives via s = some (a, body, u)) :
    u.mgt.svcOpen = s.mgt.svcOpen := by
  unfold Safety.arrives at h
  split at h
  · split at h
    · split at h
      · cases h
        rfl
      · cases h
    · cases h
  · split at h
    · cases h
    · next q rest _ =>
      split at h
      · cases h
        have hc : Changes (.pxPending :: bookParts) s (takePassed q rest s) :=
          .ite (((Changes.refl _ s).also [.pxPending]).trans (drop1_changes ..)) (.also (.refl _ s) [.pxPending])
        exact (hc.get .svc).1
      · cases h
  · cases h
  · cases h

/-! ### LOG_READ -/

section
variable {via : Via} {a : Asked} {s u : State}

/-- LOG_READ's arguments as the manual lays them out. -/
def logReadArgs (log n first : Nat) : Bytes := [BitVec.ofNat 8 log, BitVec.ofNat 8 n, 0, 0] ++ leBytes 4 first

/-- The slots that LOG_READ names. -/
def slotsRead (log n first : Nat) : List Nat := (List.range n).map fun i => (first + i) % logSlots log

def slotCorrupt (log : Nat) (s : State) (k : Nat) : Bool := decide (slotStatus log (logSlot log k s) = 1)

theorem logRead_eq {log n first : Nat} (hlog : log < 3) (hn : n < 17) (hfirst : first < logSlots log) (a : Asked) (u : State) :
    logRead { asked := a, body := askBody a (logReadArgs log n first) } u =
      respond a 0 (leBytes 4 (logHead log u).1 ++ leBytes 4 (logHead log u).2 ++ leBytes 1 n ++ zeros 3 ++
        (slotsRead log n first).flatMap fun k => slotEntry (logSlot log k u) log)
        (notedSlots log (slotCorrupt log u) (slotsRead log n first) u) := by
  have hargs : ({ asked := a, body := askBody a (logReadArgs log n first) } : Req).args = logReadArgs log n first := askBody_drop a _
  have hslots : logSlots log < 2 ^ 32 := by unfold logSlots; split_ifs <;> omega
  have h0 : leAt (logReadArgs log n first) 0 1 = log := by
    rw [leAt_one]
    simpa [logReadArgs, nth] using (by omega : log < 256)
  have h1 : leAt (logReadArgs log n first) 1 1 = n := by
    rw [leAt_one]
    simpa [logReadArgs, nth] using (by omega : n < 256)
  have h4 : leAt (logReadArgs log n first) 4 4 = first := by
    rw [logReadArgs, leAt_skip (by simp), List.length_cons, show 4 - _ = 0 from rfl, leAt_leBytes]
    omega
  rw [logRead, hargs, h0, h1, h4]
  simp only [answerOk, notedSlots, slotsRead, slotCorrupt, List.length_map, List.length_range, decide_eq_true_eq]

theorem logRead_serves {log n first : Nat} (hlog : log < 3) (hone : 1 ≤ n) (hn : n < 17) (hfirst : first < logSlots log)
    (h : Safety.Asks via 0xC (logReadArgs log n first) a s u) :
    exec (.logRead via) s = .next (logRead { asked := a, body := askBody a (logReadArgs log n first) } u) := by
  have hslots : first < 2 ^ 32 := by unfold logSlots at hfirst; split_ifs at hfirst <;> omega
  have hlen : (logReadArgs log n first).length = 8 := by simp [logReadArgs]
  refine exec_of_asks h (c := .logRead via) rowLogRead logArgs logRead rfl ⟨rfl, by decide, fun _ => rfl⟩ rfl (legal_always s)
    (by rw [hlen]; rfl) ?_ rfl (by decide) (.inl rfl) (by rw [hlen]; decide)
  have h0 : leAt (logReadArgs log n first) 0 1 = log := by
    rw [leAt_one]
    simpa [logReadArgs, nth] using (by omega : log < 256)
  have h1 : leAt (logReadArgs log n first) 1 1 = n := by
    rw [leAt_one]
    simpa [logReadArgs, nth] using (by omega : n < 256)
  have h2 : leAt (logReadArgs log n first) 2 2 = 0 := rfl
  have h4 : leAt (logReadArgs log n first) 4 4 = first := by
    rw [logReadArgs, leAt_skip (by simp), List.length_cons, show 4 - _ = 0 from rfl, leAt_leBytes]
    omega
  simp only [logArgs, resv, h0, h1, h2, h4]
  simp only [Bool.and_eq_true, decide_eq_true_eq]
  exact ⟨⟨⟨⟨by omega, hone⟩, by omega⟩, trivial⟩, hfirst⟩

/-! ### RTC_SET and LB_RECOVER -/

theorem rtcSetTime_changes (t : Time) (path : Nat) (s : State) : Changes (.rtcRest :: bookParts) s (rtcSetTime t path s) :=
  ((Changes.refl _ s).also [.rtcRest]).trans (sj_changes ..)

/-- What RTC_SET leaves in the clock. -/
def clockSet (flags : Nat) (t al : Time) (r : Rtc) : Rtc :=
  let r1 := if bitOf flags 0 then { r with time := t, secUs := 0, osf := false } else r
  if bitOf flags 1 then { r1 with alarm := al, alarmEn := bitOf flags 2 } else r1

theorem rtcSet_shows (flags : Nat) (t al : Time) (path : Nat) (s : State) :
    (rtcSet flags t al path s).rtc = clockSet flags t al s.rtc ∧ (rtcSet flags t al path s).mtr.pendingSet = s.mtr.running := by
  have htime : (if bitOf flags 0 then rtcSetTime t path s else s).rtc =
      (if bitOf flags 0 then { s.rtc with time := t, secUs := 0, osf := false } else s.rtc) ∧
      (if bitOf flags 0 then rtcSetTime t path s else s).mtr = s.mtr := by
    split
    · exact ⟨(sj_changes ..).rtc, (rtcSetTime_changes t path s).mtr⟩
    · exact ⟨rfl, rfl⟩
  unfold rtcSet
  dsimp only
  generalize (if bitOf flags 0 then rtcSetTime t path s else s) = v at htime ⊢
  obtain ⟨hrtc, hmtr⟩ := htime
  have hset : (if bitOf flags 1 then { v with rtc := { v.rtc with alarm := al, alarmEn := bitOf flags 2 } } else v).rtc =
      clockSet flags t al s.rtc ∧
      (if bitOf flags 1 then { v with rtc := { v.rtc with alarm := al, alarmEn := bitOf flags 2 } } else v).mtr = s.mtr := by
    rw [clockSet, ← hrtc]
    split <;> exact ⟨rfl, hmtr⟩
  generalize (if bitOf flags 1 then { v with rtc := { v.rtc with alarm := al, alarmEn := bitOf flags 2 } } else v) = w at hset ⊢
  obtain ⟨hwrtc, hwmtr⟩ := hset
  have hanchor := timeAnchor_changes 1 w
  have hevent (x : State) := pushEvent_changes 9 1 (BitVec.ofNat 32 (flags % 4)) x
  refine ⟨(hevent _).rtc.trans (hanchor.rtc.trans hwrtc), ?_⟩
  rw [(hevent _).mtr]
  exact (congrArg Mtr.running hanchor.mtr).trans (congrArg Mtr.running hwmtr)

theorem lbOf_congr {s t : State} (h : t.lb = s.lb) (q : Nat) : lbOf t q = lbOf s q := by rw [lbOf, lbOf, h]

/-- A change of one port changes that port alone. -/
theorem lbOf_lbChange (p q : Fin 4) (f : Lb → Lb) (s : State) : lbOf (lbChange p f s) q = if q = p then f (lbOf s p) else lbOf s q := by
  rw [← lbOf_setLb]
  refine lbOf_congr ?_ q
  have hrec {c : Prop} [Decidable c] (items : Bytes) (v : State) : (if c then sj 0x701 0 items v else v).lb = v.lb := by
    split
    · exact (sj_changes ..).get .lb
    · rfl
  unfold lbChange
  dsimp only
  split
  · rw [(pushEvent_changes ..).get .lb, hrec]
  · rw [hrec]

/-! ### Table commands -/

/-- The table commands and their codes. -/
def tableCommands (via : Via) : List (Instr × Nat) :=
  [(.search via, 1), (.tblNext via, 2), (.insert via, 3), (.delete via, 4), (.flushByPort via, 5), (.rehash via, 6)]

theorem tableCommands_row {p : Instr × Nat} (hp : p ∈ tableCommands via) :
    exec p.1 s = .next (request (rowTbl p.2) tblArgs tblReq via s) ∧ RowStands (rowTbl p.2) ∧ 1 ≤ p.2 ∧ p.2 ≤ 6 := by
  simp only [tableCommands, List.mem_cons, List.not_mem_nil, or_false] at hp
  rcases hp with rfl | rfl | rfl | rfl | rfl | rfl
  all_goals exact ⟨rfl, ⟨rfl, (by decide : (0x0F : Nat) ≠ 0x20), rfl⟩, Nat.le_of_ble_eq_true rfl, Nat.le_of_ble_eq_true rfl⟩

theorem tableCommand_serves {args : Bytes} (hworks : works s) (hlen : args.length = 20) (hargs : tblArgs args = true)
    (h : Safety.Asks via 0xF args a s u) {p : Instr × Nat} (hp : p ∈ tableCommands via) (hcode : leAt args 0 1 = p.2) :
    exec p.1 s = .next (tblReq { asked := a, body := askBody a args } u) := by
  obtain ⟨hexec, hstands, -, -⟩ := tableCommands_row (s := s) hp
  exact exec_of_asks h (rowTbl p.2) tblArgs tblReq hexec hstands rfl (legal_works hworks) (by rw [hlen]; rfl) hargs rfl (by decide)
    (.inr (by rw [hcode]; rfl)) (by rw [hlen]; decide)

/-- REHASH_DONE ends the rehash and shows how it went. -/
theorem rehashDone_shows {w : Bool} {seed : Half} (h : s.tbl.rehash = some (w, seed)) :
    (rehashDone s).tbl.rehash = none ∧ ((rehashDone s).tbl.status = 0 ∨ (rehashDone s).tbl.status = 0x41) := by
  unfold rehashDone
  rw [h]
  dsimp only
  generalize rebuildPipe seed (pipeOf w s) = x
  let v := modPipe w (fun _ => x.1) { s with tbl := { s.tbl with rehash := none } }
  have hv : v.tbl.rehash = none := congrArg Tbl.rehash (modPipe_only ..).frame
  generalize hst : (if x.2.1 then 0 else 0x41 : Byte) = st
  have hst' : st = 0 ∨ st = 0x41 := by rw [← hst]; split <;> simp
  generalize hitems : item (b2n w) ++ item seed.toNat ++ item st.toNat ++ item x.2.2 = items
  have hframe := ((PipesOnly.of_booked (tr_changes 0x812 0 items (tblStatus st v))).trans (applyLearned_only w _)).frame
  have htbl := (asyncDone_changes 0x0F st (applyLearned w (tr 0x812 0 items (tblStatus st v)))).get .tbl
  rw [htbl]
  exact ⟨(congrArg Tbl.rehash hframe).trans hv, by rw [show (applyLearned w _).tbl.status = st from congrArg Tbl.status hframe]; exact hst'⟩

/-! ### CRC jobs -/

/-- The new job of a START and what it becomes. -/
def newJob (s : State) : CrcJob := { job := s.crc.nextJob, state := if decide (16 ≤ requestJobs s) then 3 else 0, value := freeWord s }

/-- A job whose record is written at `place` of working memory and queued. -/
def jobQueued (place ts : Nat) (bs : Bytes) (v : State) : State :=
  push 12 { buf := BitVec.ofNat 32 place, len := 16, src := 1, ts := BitVec.ofNat 32 ts, tag := freeWord (dataWrite place bs v) }
    (drawn (dataWrite place bs v))

theorem jobQueued_changes (place ts : Nat) (bs : Bytes) (v : State) : Changes bookParts v (jobQueued place ts bs v) :=
  ((dataWrite_changes ..).mono.join (drawn_changes _)).join (push_changes ..)

theorem crcStartReq_eq (r : Req) (s : State) : ∃ place ts bs, crcStartReq r s = respond r.asked 0 (leBytes 2 s.crc.nextJob ++ zeros 2)
    (if decide (16 ≤ requestJobs s) then keepJob (newJob s) (drawn s) else jobQueued place ts bs (keepJob (newJob s) (drawn s))) :=
  ⟨_, _, _, rfl⟩

theorem crcStartReq_shows (r : Req) (s : State) :
    (crcStartReq r s).crc.nextJob = (if s.crc.nextJob = 65535 then 1 else s.crc.nextJob + 1) ∧
    ∃ j, (crcStartReq r s).crc.jobs = (j :: s.crc.jobs).take 16 ∧ j.job = s.crc.nextJob ∧ j.state = (if 16 ≤ requestJobs s then 3 else 0) := by
  obtain ⟨place, ts, bs, heq⟩ := crcStartReq_eq r s
  have hcrc : (crcStartReq r s).crc = (keepJob (newJob s) (drawn s)).crc := by
    rw [heq, (respond_changes ..).get .crc]
    split
    · rfl
    · exact (jobQueued_changes ..).get .crc
  rw [hcrc]
  exact ⟨rfl, newJob s, rfl, rfl, by simp only [newJob, decide_eq_true_eq]⟩

/-- RESULT's arguments. -/
def resultArgs (n : Nat) : Bytes := [1] ++ zeros 11 ++ leBytes 2 n ++ [0, 0]

theorem resultArgs_shows (n : Half) : (resultArgs n.toNat).length = 16 ∧ leAt (resultArgs n.toNat) 0 1 = 1 ∧
    leAt (resultArgs n.toNat) 12 2 = n.toNat ∧ crcResultArgs (resultArgs n.toNat) = true := by
  have h1 : leAt (resultArgs n.toNat) 1 11 = 0 := by
    rw [leAt, show slice (resultArgs n.toNat) 1 11 = zeros 11 by simp [resultArgs, slice, zeros]]
    decide
  have h14 : leAt (resultArgs n.toNat) 14 2 = 0 := by
    rw [resultArgs, leAt_skip (by simp [zeros])]
    simp [zeros, leAt, slice, leNat]
  refine ⟨by simp [resultArgs, zeros], rfl, ?_, by simp [crcResultArgs, resv, h1, h14]⟩
  rw [resultArgs, List.append_assoc, leAt_skip (by simp [zeros]), show 12 - ([1] ++ zeros 11 : Bytes).length = 0 from rfl,
    leAt_leBytes_append]
  exact Nat.mod_eq_of_lt n.isLt

theorem crcResult_serves {n : Half} {j : CrcJob} (hw : works s) (h : Safety.Asks via 0x10 (resultArgs n.toNat) a s u)
    (hfind : (s.crc.jobs.find? fun j => decide (j.job = n.toNat)) = some j) :
    exec (.crcJobResult via) s = .next (respond a 0 (leBytes 2 j.job ++ [j.state, 0] ++ leBytes 4 j.value.toNat) u) := by
  have hu := arrives_changes h.came
  obtain ⟨hlen, hop, hjob, hargs⟩ := resultArgs_shows n
  generalize resultArgs n.toNat = args at h hlen hop hjob hargs
  have hreq : ({ asked := a, body := askBody a args } : Req).args = args := askBody_drop a _
  have hkept : (u.crc.jobs.find? fun j => decide (j.job = n.toNat)) = some j := by rw [hu.get .crc]; exact hfind
  have hrules : crcResultRules { asked := a, body := askBody a args } u = true := by
    rw [crcResultRules, hreq, hjob, List.any_eq_true]
    exact ⟨j, List.mem_of_find?_eq_some hkept, List.find?_some (p := fun j : CrcJob => decide (j.job = n.toNat)) hkept⟩
  rw [exec_of_asks h (c := .crcJobResult via) rowCrcResult crcResultArgs crcResultReq rfl ⟨rfl, by decide, rfl⟩ rfl
    (legal_works hw) (by rw [hlen]; rfl) hargs hrules (by decide) (.inr (by rw [hop]; rfl)) (by rw [hlen]; decide),
    crcResultReq, hreq, hjob, hkept]
  rfl

/-! ### Plant keys -/

theorem roleKey_congr {s t : State} (h : Part.Same .keys s t) (q : Nat) : roleKey t q = roleKey s q := by
  obtain ⟨hview, hoperate, hengineer, hservice, -⟩ := h
  rw [roleKey, roleKey, hview, hoperate, hengineer, hservice]

theorem roleKey_setRoleKey (role q : Fin 4) (k : Option Bytes) (s : State) :
    roleKey (setRoleKey role k s) q = if q = role then k else roleKey s q := by
  fin_cases role <;> fin_cases q <;> rfl

/-- The unit without a supply on its service connector. -/
def withoutBus (s : State) : State := { s with mgt := { s.mgt with vbus := false } }

/-- SVC's closing is booked. -/
theorem closeSvc_open (h : s.mgt.svcOpen = true) (cause : Nat) :
    closeSvc cause s = sj 0x921 0 (item cause) { s with mgt := { s.mgt with svcOpen := false, svcBuf := [] } } := if_pos h

/-- A change of a role's key: the answer goes out under the old one, and SJ 0x0931. -/
theorem keyChange_shows {role : Fin 4} {k : Option Bytes} {r : Req} (hrole : leAt r.args 1 1 = role) (hasked : r.asked = a)
    (hu : Changes arrivalParts s u) (hopen : u.mgt.svcOpen = s.mgt.svcOpen) :
    roleKey (keyChange k r u) role = k ∧ (∀ q : Fin 4, q ≠ role → roleKey (keyChange k r u) q = roleKey s q) ∧
      (keyChange k r u).mgt.svcOpen = s.mgt.svcOpen ∧
      keyChange k r u = sj 0x931 0 (item role ++ item (b2n k.isNone) ++ item a.path.toNat)
        { respond a 0 [] u with mgt := (keyChange k r u).mgt } := by
  have heq : keyChange k r u = sj 0x931 0 (item role ++ item (b2n k.isNone) ++ item a.path.toNat) (setRoleKey role k (respond a 0 [] u)) := by
    rw [keyChange, answerOk, hrole, Req.path, hasked]
  have hrespond := respond_changes a 0 [] u
  have hmgt : (keyChange k r u).mgt = (setRoleKey role k (respond a 0 [] u)).mgt := by
    rw [heq]
    exact (sj_changes ..).mgt
  have hkey (q : Fin 4) : roleKey (keyChange k r u) q = if q = role then k else roleKey s q := by
    rw [← roleKey_congr (hu.get .keys), ← roleKey_congr (hrespond.get .keys), ← roleKey_setRoleKey, roleKey, roleKey, hmgt]
  refine ⟨by rw [hkey, if_pos rfl], fun q hq => by rw [hkey, if_neg hq], ?_, ?_⟩
  · rw [hmgt, ← hopen, ← (hrespond.get .svc).1]
    unfold setRoleKey
    split_ifs <;> rfl
  · rw [hmgt, heq]
    rfl

end

/-- Settles O44: each request is carried out as its function says; LOG_READ's records and the table's frame are inductions over the
slots and the entries. -/
theorem serviceRequestsAnswer : Obligations.ServiceRequestsAnswer := by
  intro via a s u hworks
  refine ⟨fun log n first hone hfirst h => ?log, fun f time alarm htime halarm hw => ?clock, fun p h hstate => ?bus,
    fun args hw hpd hlen hargs h p hp hcode hrehash hheld => ?table, fun args hw hpd hlen hargs h p hp hcode => ?tableOff,
    fun w seed hpd hrehash => ?rehash, fun args hw hlen hargs h => ?start, fun n j hw h hfind => ?result,
    fun role key hw hkey => ?keys, fun hopen => ⟨?timeout, ?idle, ?vbus⟩⟩
  case log =>
    intro slots corrupt
    have hbooked := notedSlots_booked log (slotCorrupt log u) (slotsRead log n first) u
    refine ⟨notedSlots log (slotCorrupt log u) (slotsRead log n first) u, ?_, fun hnone => ?_, ?_, fun k hk hfresh => ?_⟩
    · rw [logRead_serves log.isLt hone n.isLt hfirst h, logRead_eq log.isLt n.isLt hfirst]
      simp only [slotEntry, leBytes_one]
      rfl
    · have hall : ∀ k ∈ slotsRead log n first, ¬ slotCorrupt log u k = true := List.filter_eq_nil_iff.1 hnone
      have hstays (l : List Nat) (hl : ∀ k ∈ l, ¬ slotCorrupt log u k = true) : notedSlots log (slotCorrupt log u) l u = u := by
        induction l with
        | nil => rfl
        | cons k l ih =>
          rw [notedSlots_cons, if_neg (hl k (by simp))]
          exact ih fun j hj => hl j (by simp [hj])
      exact hstays _ hall
    · simp only [Fin.ext_iff]
      exact hbooked
    · obtain ⟨hin, hbad⟩ := List.mem_filter.1 hk
      refine notedSlots_journals _ hin hbad ?_ List.prefix_rfl rfl rfl
      simp only [repeatFind, List.find?_eq_none, decide_eq_true_eq]
      rintro x hx ⟨hcode, -⟩
      exact hfresh x hx (BitVec.eq_of_toNat_eq hcode)
  case clock =>
    intro args h hargs
    have hlen : args.length = 20 := by simp [args, htime, halarm]
    have hnext := exec_of_asks h (c := .rtcSet via) rowRtcSet rtcArgs rtcSetReq rfl ⟨rfl, by decide, fun _ => rfl⟩ rfl
      (legal_works hw) (by rw [hlen]; rfl) hargs rfl (by decide) (.inl rfl) (by rw [hlen]; decide)
    have hu := arrives_changes h.came
    have hreq : ({ asked := a, body := askBody a args } : Req).args = args := askBody_drop a _
    have hf : leAt args 0 1 = f.val := by
      rw [leAt_one]
      simpa [args, nth] using (by omega : f.val < 256)
    have ht : slice args 4 8 = time := by
      simp [args, slice, htime]
    have hal : slice args 12 8 = alarm := by
      simp only [args, slice]
      rw [List.drop_append_of_le_length, List.take_of_length_le] <;> simp [htime, halarm]
    obtain ⟨hrtc, hmtr⟩ := rtcSet_shows f.val (timeOf time) (timeOf alarm) a.path.toNat u
    refine ⟨_, hnext, ?_, ?_⟩
    · rw [rtcSetReq, answerOk, (respond_changes ..).rtc, hreq, hf, ht, hal]
      refine hrtc.trans ?_
      rw [hu.rtc, clockSet]
      have hbits : ∀ f : Fin 8, bitOf f.val 0 = decide (f.val % 2 = 1) ∧ bitOf f.val 1 = decide (f.val / 2 % 2 = 1) ∧
          bitOf f.val 2 = decide (4 ≤ f.val) := by decide
      obtain ⟨h0, h1, h2⟩ := hbits f
      simp only [h0, h1, h2, decide_eq_true_eq]
    · rw [rtcSetReq, answerOk, (respond_changes ..).mtr, hreq, hf, ht, hal]
      exact hmtr.trans (congrArg Mtr.running hu.mtr)
  case bus =>
    have hrow : nth 1 [1, 0, 0, 0, 1, 0, 1] (legalColumn s) = 0 := by
      rcases hstate with hrun | hhalt
      · rcases legalColumn_run hrun with hc | hc | hc <;> rw [hc] <;> rfl
      · rw [legalColumn_halt hhalt]; rfl
    have hp : leAt [BitVec.ofNat 8 p, 0, 0, 0] 0 1 = p.val := by
      rw [leAt_one]
      simpa [nth] using (by omega : p.val < 256)
    have hargs : recoverArgs [BitVec.ofNat 8 p, 0, 0, 0] = true := by
      rw [recoverArgs, hp]
      simpa [resv, leAt, slice, leNat] using (by omega : p.val ≤ 3)
    have hnext := exec_of_asks h (c := .lbRecover via) rowLbRecover recoverArgs lbRecoverReq rfl ⟨rfl, by decide, fun _ => rfl⟩ rfl hrow rfl hargs
      rfl (by decide) (.inl rfl) (by simp)
    have hu := arrives_changes h.came
    have hlb (q : Nat) : lbOf u q = lbOf s q := lbOf_congr (hu.get .lb) q
    have hthere : lbThere u p = lbThere s p := by rw [lbThere, lbThere, hlb, pdIs, pdIs, hu.get .pdOn]
    have hreq : ({ asked := a, body := askBody a [BitVec.ofNat 8 p, 0, 0, 0] } : Req).args = [BitVec.ofNat 8 p, 0, 0, 0] := askBody_drop a _
    refine ⟨fun hon hoff => ?_, fun hnot => ?_⟩
    · have heq : lbRecoverReq { asked := a, body := askBody a [BitVec.ofNat 8 p, 0, 0, 0] } u =
          respond a 0 [] (lbChange p (fun b => { b with state := .recovering, via := BitVec.ofNat 8 a.path.toNat }) u) := by
        rw [lbRecoverReq, hreq, hp, if_pos ⟨hthere.trans hon, by rw [hlb, hoff]⟩]
        rfl
      have hport (q : Fin 4) : lbOf (lbRecoverReq { asked := a, body := askBody a [BitVec.ofNat 8 p, 0, 0, 0] } u) q =
          if q = p then { lbOf s p with state := .recovering, via := a.path } else lbOf s q := by
        rw [heq, lbOf_congr ((respond_changes ..).get .lb), lbOf_lbChange, hlb, hlb, BitVec.ofNat_toNat, BitVec.setWidth_eq]
      exact ⟨_, hnext, by rw [hport, if_pos rfl], fun q hq => by rw [hport, if_neg hq]⟩
    · have heq : lbRecoverReq { asked := a, body := askBody a [BitVec.ofNat 8 p, 0, 0, 0] } u = refusalOf a a.code.toNat 0x21 4 s u := by
        rw [lbRecoverReq, hreq, hp, if_neg (by
          rintro ⟨hon, hoff⟩
          rcases hnot with hnot | hnot
          · rw [hthere, hnot] at hon
            exact Bool.false_ne_true hon
          · exact hnot (by rw [← hlb]; exact hoff)), refuse_eq hu.power (askBody_code a _)]
      refine ⟨_, hnext, ?_⟩
      rw [heq, refusalOf, (respond_changes ..).get .lb, (respond_changes ..).power, (sj_changes ..).get .lb, (sj_changes ..).power]
      exact ⟨hu.get .lb, by rw [hu.power]⟩
  case rehash =>
    refine ⟨rehashDone s, congrArg Host.Outcome.next (if_pos hpd), rehashDone_shows hrehash⟩
  case table =>
    intro x
    have hu := arrives_changes h.came
    obtain ⟨-, -, hlow, hhigh⟩ := tableCommands_row (s := s) hp
    have hreq : ({ asked := a, body := askBody a args } : Req).args = args := askBody_drop a _
    have hon : pdIs u 6 = true := by rw [pdIs, hu.get .pdOn]; exact hpd
    have hcmd : (tblOf args).code = p.2 := hcode
    have hfree : tblBlocked (tblOf args) u = none := by
      rw [tblBlocked, hu.get .tbl, hrehash, hcmd]
      rcases hheld with hheld | hheld
      · rw [hheld]; rfl
      · rw [hheld]; simp
    have hserved := tableCommand_serves hw hlen hargs h hp hcode
    obtain ⟨hdone, hother⟩ := tblRun_status (tblOf args) u (by rw [hcmd]; exact ⟨hlow, hhigh⟩)
    have hpower : x.power = s.power := (tblRun_changes ..).power.trans hu.power
    have hrun : tblReq { asked := a, body := askBody a args } u =
        if (tblRun (tblOf args) u).2 = 0 then
          answerOk { asked := a, body := askBody a args } (leBytes 1 (b2n x.tbl.found) ++ zeros 1 ++ leBytes 2 x.tbl.resIndex.toNat ++
            x.tbl.res.flatMap fun w => leBytes 4 w.toNat) (tblStatus 0 x)
        else if (tblRun (tblOf args) u).2 = 1 then accept { asked := a, body := askBody a args } (tblStatus 1 x)
        else refuse { asked := a, body := askBody a args } (tblRun (tblOf args) u).2 4 (tblStatus (tblRun (tblOf args) u).2 x) := by
      rw [tblReq, hreq]
      dsimp only
      rw [hon, hfree]
      rfl
    refine ⟨_, hserved, fun hok => ⟨hcmd ▸ hdone hok, ?_⟩, fun hnot => ?_⟩
    · rw [hrun, if_pos hok, leBytes_one]
      rfl
    · rcases hother hnot with ⟨hinsert, hfull⟩ | ⟨hrehashed, hasync, hstate⟩
      · refine .inl ⟨hcmd ▸ hinsert, ?_⟩
        rw [hrun, hfull, if_neg (by decide), if_neg (by decide),
          refuse_eq (s := x) (u := tblStatus 0x41 x) rfl (askBody_code a _), refusalOf, hpower]
        exact congrArg (respond a 0x41 []) (congrArg (sj 0x110 1 _) (by rw [show (tblStatus 0x41 x).power = s.power from hpower, tblStatus, hpower]))
      · refine .inr ⟨hcmd ▸ hrehashed, ?_⟩
        rw [hrun, if_neg hnot, if_pos hasync, (accept_changes ..).get .tbl, show x = _ from hstate]
        exact ⟨rfl, rfl⟩
  case tableOff =>
    have hu := arrives_changes h.came
    have hoff : pdIs u 6 = false := by rw [pdIs, hu.get .pdOn]; exact hpd
    rw [tableCommand_serves hw hlen hargs h hp hcode, tblReq]
    dsimp only
    rw [hoff, if_pos (by rfl), refuse_eq hu.power (askBody_code a _), refusalOf, hu.power]
    rfl
  case start =>
    have hu := arrives_changes h.came
    have hnext := exec_of_asks h (c := .crcJobStart via) rowCrcStart crcStartArgs crcStartReq rfl ⟨rfl, by decide, rfl⟩ rfl
      (legal_works hw) (by rw [List.length_cons, hlen]; rfl) hargs rfl (by decide) (.inr rfl) (by rw [List.length_cons, hlen]; decide)
    have hshows := crcStartReq_shows { asked := a, body := askBody a (0 :: args) } u
    rw [hu.get .crc] at hshows
    exact ⟨_, hnext, hshows⟩
  case result =>
    exact crcResult_serves hw h hfind
  case keys =>
    intro keys
    have hrole0 (b : Byte) (rest : Bytes) : leAt (b :: BitVec.ofNat 8 role :: rest) 1 1 = role.val := by
      rw [leAt_one]
      simpa [nth] using (by omega : role.val < 256)
    have hreserved (b c : Byte) (rest : Bytes) : resv (b :: c :: 0 :: 0 :: rest) 2 2 = true := rfl
    have hlow : role.val ≤ 3 := by omega
    refine ⟨fun h hne => ?set, fun h => ?clear, fun h => ?list⟩
    all_goals have hu := arrives_changes h.came
    case set =>
      let args := [0, BitVec.ofNat 8 role, 0, 0] ++ key
      have hlen : args.length = 36 := by simp [args, hkey]
      have hslice : slice args 4 32 = key := by simp [args, slice, hkey]
      have hargs : keySetArgs args = true := by
        obtain ⟨y, hy, hy0⟩ := hne
        have hnot : ((slice args 4 32).all fun b => decide (b = 0)) = false := by
          rw [hslice, List.all_eq_false]
          exact ⟨y, hy, by simpa using hy0⟩
        rw [keySetArgs, keyArgs, hnot, show leAt args 1 1 = role.val from hrole0 0 _, decide_eq_true hlow]
        rfl
      have hnext := exec_of_asks h (c := .keyPolicySet via) rowKeySet keySetArgs keySetReq rfl ⟨rfl, by decide, rfl⟩ rfl (legal_works hw)
        (by rw [hlen]; rfl) hargs rfl (by decide) (.inr rfl) (by rw [hlen]; decide)
      have hreq : ({ asked := a, body := askBody a args } : Req).args = args := askBody_drop a _
      have hkeep := keyChange_shows (a := a) (k := some key) (r := { asked := a, body := askBody a args }) (role := role)
        (by rw [hreq]; exact hrole0 0 _) rfl hu (arrives_svcOpen h.came)
      refine ⟨_, hnext, ?_⟩
      rw [keySetReq, hreq, hslice]
      exact hkeep
    case clear =>
      let args : Bytes := [1, BitVec.ofNat 8 role, 0, 0]
      have hargs : keyArgs args = true := by
        rw [keyArgs, show leAt args 1 1 = role.val from hrole0 1 _, decide_eq_true hlow]
        rfl
      have hnext := exec_of_asks h (c := .keyPolicyClear via) rowKeyClear keyArgs keyClearReq rfl ⟨rfl, by decide, rfl⟩ rfl (legal_works hw)
        rfl hargs rfl (by decide) (.inr rfl) (by simp)
      have hreq : ({ asked := a, body := askBody a args } : Req).args = args := askBody_drop a _
      exact ⟨_, hnext, keyChange_shows (a := a) (k := none) (r := { asked := a, body := askBody a args }) (role := role)
        (by rw [hreq]; exact hrole0 1 _) rfl hu (arrives_svcOpen h.came)⟩
    case list =>
      let args : Bytes := [2, BitVec.ofNat 8 role, 0, 0]
      have hargs : keyArgs args = true := by
        rw [keyArgs, show leAt args 1 1 = role.val from hrole0 2 _, decide_eq_true hlow]
        rfl
      rw [exec_of_asks h (c := .keyPolicyList via) rowKeyList keyArgs keyListReq rfl ⟨rfl, by decide, rfl⟩ rfl (legal_works hw)
        rfl hargs rfl (by decide) (.inr rfl) (by simp), keyListReq, leBytes_one]
      have hmask : (fun i => (roleKey u i).isSome) = fun i => (roleKey s i).isSome := by
        funext i
        rw [roleKey_congr (hu.get .keys)]
      rw [hmask]
      rfl
  case timeout =>
    have hexec : exec .svcFrameTimeout s = .next (svcFrameTimeout s) := rfl
    rw [hexec, svcFrameTimeout]
    by_cases hempty : s.mgt.svcBuf = []
    · rw [if_pos hempty, if_neg fun h => h.2 hempty]
    · rw [if_neg hempty, if_pos ⟨hopen, hempty⟩]
  case idle =>
    have hclosed := closeSvc_open hopen 0
    refine ⟨closeSvc 0 s, rfl, ?_, ?_⟩
    · rw [hclosed]
      exact Safety.sj_booked ..
    · rw [hclosed]
      exact Safety.journals_of_sj (u := { s with mgt := { s.mgt with svcOpen := false, svcBuf := [] } }) List.prefix_rfl List.prefix_rfl
  case vbus =>
    have hclosed := closeSvc_open hopen 1
    have hbooked := Safety.sj_booked 0x921 0 (item 1) { s with mgt := { s.mgt with svcOpen := false, svcBuf := [] } }
    have hjournals : Safety.journals 0x921 0 (item 1) s (sj 0x921 0 (item 1) { s with mgt := { s.mgt with svcOpen := false, svcBuf := [] } }) :=
      Safety.journals_of_sj (u := { s with mgt := { s.mgt with svcOpen := false, svcBuf := [] } }) List.prefix_rfl List.prefix_rfl
    refine ⟨withoutBus (closeSvc 1 s), rfl, ?_⟩
    rw [hclosed]
    generalize sj 0x921 0 (item 1) { s with mgt := { s.mgt with svcOpen := false, svcBuf := [] } } = t at hbooked hjournals
    obtain ⟨hframe, hlog, hsj, htr, hpool, hlayout, hrings, hbytes⟩ := hbooked
    exact ⟨⟨congrArg withoutBus hframe, hlog, hsj, htr, hpool, hlayout, hrings, hbytes⟩, hjournals⟩

end
end Sys2Proof.Machine
end

section
/-! SUPPORT. The calendar's seconds, a key's event, and what a wake does to the clock (R406, R413, R416). -/

namespace Sys2Proof.Safety

open Sys2Proof.Machine

/-- A change of the panel does not meet the records. -/
theorem Booked.withPan {ns : List Nat} {u t : State} (h : Booked ns u t) (p : Panel) : Booked ns { u with pan := p } { t with pan := p } where
  frame := congrArg (fun x : State => { x with pan := p }) h.frame
  logKept := h.logKept
  sjKept := h.sjKept
  trKept := h.trKept
  poolKept := h.poolKept
  layout := h.layout
  ringsKept := h.ringsKept
  bytesKept := h.bytesKept

/-- A change of the Marshal's part does not meet the records. -/
theorem Booked.withMgt {ns : List Nat} {u t : State} (h : Booked ns u t) (m : Marshal) : Booked ns { u with mgt := m } { t with mgt := m } where
  frame := congrArg (fun x : State => { x with mgt := m }) h.frame
  logKept := h.logKept
  sjKept := h.sjKept
  trKept := h.trKept
  poolKept := h.poolKept
  layout := h.layout
  ringsKept := h.ringsKept
  bytesKept := h.bytesKept

/-- A change of the clock does not meet the records. -/
theorem Booked.withRtc {ns : List Nat} {u t : State} (h : Booked ns u t) (r : Rtc) : Booked ns { u with rtc := r } { t with rtc := r } where
  frame := congrArg (fun x : State => { x with rtc := r }) h.frame
  logKept := h.logKept
  sjKept := h.sjKept
  trKept := h.trKept
  poolKept := h.poolKept
  layout := h.layout
  ringsKept := h.ringsKept
  bytesKept := h.bytesKept

end Sys2Proof.Safety

namespace Sys2Proof.Machine

section
set_option Elab.async false

/-! ### The calendar -/

theorem daysToMonth_succ (y : Nat) {m : Nat} (h : 1 ≤ m) : daysToMonth y (m + 1) = daysToMonth y m + daysIn y m := if_neg (by omega)

/-- Eleven months and a December are a year. -/
theorem daysToMonth_december (y : Nat) : daysToMonth y 12 + 31 = if leapYear y then 366 else 365 := by
  cases hleap : leapYear y <;> simp [daysToMonth, daysIn, hleap]

theorem daysToYear_next {y : Nat} (h : 2000 ≤ y) : daysToYear (y + 1 - 2000) = daysToYear (y - 2000) + (if leapYear y then 366 else 365) := by
  obtain ⟨n, rfl⟩ := Nat.exists_eq_add_of_le h
  rw [show 2000 + n + 1 - 2000 = n + 1 by omega, show 2000 + n - 2000 = n by omega]
  rfl

/-- The last second that the calendar holds. -/
def lastSecond (t : Time) : Prop := t.year = 2199 ∧ t.month = 12 ∧ t.day = 31 ∧ t.hour = 23 ∧ t.minute = 59 ∧ t.second = 59

theorem timeOk_iff (t : Time) : timeOk t = true ↔ (2000 ≤ t.year ∧ t.year ≤ 2199) ∧ (1 ≤ t.month ∧ t.month ≤ 12) ∧
    (1 ≤ t.day ∧ t.day ≤ daysIn t.year t.month) ∧ t.hour ≤ 23 ∧ t.minute ≤ 59 ∧ t.second ≤ 59 ∧ t.weekday ≤ 6 := by
  simp only [timeOk, Bool.and_eq_true, decide_eq_true_eq, and_assoc]

theorem daysIn_bounds (y m : Nat) : 28 ≤ daysIn y m ∧ daysIn y m ≤ 31 := by
  unfold daysIn
  split_ifs <;> omega

theorem daysIn_december (y : Nat) : daysIn y 12 = 31 := rfl

/-- A second later. -/
theorem nextSecond_moves {t : Time} (h : timeOk t = true) :
    timeOk (nextSecond t).1 = true ∧
    (¬ lastSecond t → timeSeconds (nextSecond t).1 = timeSeconds t + 1 ∧ (nextSecond t).2 = false) ∧
    (lastSecond t → timeSeconds (nextSecond t).1 = 0 ∧ (nextSecond t).2 = true) ∧
    (nextSecond t).1.weekday = (if t.hour = 23 ∧ t.minute = 59 ∧ t.second = 59 then (t.weekday + 1) % 7 else t.weekday) := by
  rw [timeOk_iff] at h ⊢
  obtain ⟨⟨hy0, hy1⟩, ⟨hm0, hm1⟩, ⟨hd0, hd1⟩, hhour, hminute, hsecond, hweek⟩ := h
  have hdec := daysToMonth_december t.year
  have hyear := daysToYear_next hy0
  have hmonth := daysToMonth_succ t.year hm0
  have hlong := daysIn_december t.year
  have hnextDays := daysIn_bounds t.year (t.month + 1)
  have hjan (y : Nat) : daysIn y 1 = 31 := rfl
  have hzero (y : Nat) : daysToMonth y 1 = 0 := rfl
  have hlast : lastSecond t ↔ t.year = 2199 ∧ t.month = 12 ∧ t.day = 31 ∧ t.hour = 23 ∧ t.minute = 59 ∧ t.second = 59 := Iff.rfl
  rw [hlast]
  generalize hday : (if t.hour = 23 ∧ t.minute = 59 ∧ t.second = 59 then (t.weekday + 1) % 7 else t.weekday) = weekday
  unfold nextSecond
  split_ifs with hs hmi hh hd hmo hyr <;> simp only [timeSeconds, dayNumber]
  · rw [if_neg (by omega)] at hday
    exact ⟨by omega, fun _ => ⟨by omega, trivial⟩, fun hl => by omega, hday⟩
  · rw [if_neg (by omega)] at hday
    exact ⟨by omega, fun _ => ⟨by omega, trivial⟩, fun hl => by omega, hday⟩
  · rw [if_neg (by omega)] at hday
    exact ⟨by omega, fun _ => ⟨by omega, trivial⟩, fun hl => by omega, hday⟩
  all_goals rw [if_pos (by omega)] at hday
  · refine ⟨by omega, fun _ => ⟨by omega, trivial⟩, fun hl => ?_, hday⟩
    rw [hl.2.1] at hd
    omega
  · exact ⟨by omega, fun _ => ⟨by omega, trivial⟩, fun hl => by omega, hday⟩
  all_goals
    have hm12 : t.month = 12 := by omega
    rw [hm12] at hd hd1
  · refine ⟨by rw [hjan]; omega, fun _ => ⟨?_, trivial⟩, fun hl => by omega, hday⟩
    rw [hzero, hyear, hm12]
    omega
  · exact ⟨by rw [hjan]; omega, fun hl => absurd (by omega) hl, fun _ => ⟨rfl, trivial⟩, hday⟩

/-! ### Wakes and the clock -/

theorem beginBringUp_rtc (kind : StartKind) (src : BitVec 4) (s : State) : (beginBringUp kind src s).rtc =
    { s.rtc with pwrOn := true, armed := false, active := 0, notes := (beginBringUp kind src s).rtc.notes } := by
  have hfresh : (freshBlocks (decide (kind = .restart)) s).rtc = s.rtc := (freshBlocks_changes ..).rtc
  have hbegun : (bringUpBegun kind src s).rtc = { s.rtc with pwrOn := true, armed := false, active := 0 } := by
    rw [← hfresh, ← (drawn_changes (freshBlocks (decide (kind = .restart)) s)).rtc, ← (drawn_changes (drawn _)).rtc]
    rfl
  have hrest {ps : List Part} {t : State} (h : Changes ps (bringUpBegun kind src s) t) (hp : apart [.rtcRest] ps = true) :
      t.rtc = { s.rtc with pwrOn := true, armed := false, active := 0, notes := t.rtc.notes } := by
    have hsame : Part.Same .rtcRest (bringUpBegun kind src s) t := h.get .rtcRest hp
    simp only [Part.Same] at hsame
    rw [hbegun] at hsame
    exact hsame
  have hlater {u v : State} (h : u.rtc = { v.rtc with notes := u.rtc.notes })
      (hv : v.rtc = { s.rtc with pwrOn := true, armed := false, active := 0, notes := v.rtc.notes }) :
      u.rtc = { s.rtc with pwrOn := true, armed := false, active := 0, notes := u.rtc.notes } := by
    rw [hv] at h
    exact h
  have htail := started_tail kind src s
  rw [beginBringUp_eq]
  split
  · have hsaid := htail.trans (resumeSaid_changes kind src s)
    cases resumeFailure (resumeSaid kind src s) with
    | none => exact hrest hsaid rfl
    | some c =>
      have hdead := (goDead_changes c none (resumeSaid kind src s)).get .rtcRest
      simp only [Part.Same] at hdead
      have hkept := hrest hsaid rfl
      rw [Option.elim_some]
      exact hlater hdead hkept
  · exact hrest htail rfl

/-- The clock but for what a wake touches. -/
def clockPart (r : Rtc) : Rtc := { r with pwrOn := false, armed := false, active := 0, notes := [] }

theorem wakeUp_clock (src : BitVec 4) (s : State) : clockPart (wakeUp src s).rtc = clockPart s.rtc ∧
    (s.rtc.pwrOn = true → (wakeUp src s).rtc.pwrOn = true) := by
  unfold wakeUp
  split
  · rw [beginBringUp_rtc]
    exact ⟨rfl, fun _ => rfl⟩
  · split
    · exact ⟨rfl, fun _ => rfl⟩
    · exact ⟨rfl, id⟩
  · exact ⟨rfl, fun _ => rfl⟩
  · exact ⟨rfl, id⟩

/-- A further source of a wake leaves every record but SJ 0x0103. -/
theorem journals_addSource {code sev : Nat} {items : Bytes} {s t : State} (h : Safety.journals code sev items s t) (src : BitVec 4)
    (hcode : BitVec.ofNat 16 code ≠ 0x103) : Safety.journals code sev items s (addSource src t) := by
  obtain ⟨r, hr, hrc, hrest⟩ := h
  refine ⟨r, ?_, hrc, hrest⟩
  have hqueue : (addSource src t).log.sjQueue.drop s.log.sjQueue.length = (t.log.sjQueue.drop s.log.sjQueue.length).map fun r : Record =>
      if r.code = 0x103 ∧ r.optMs = opMs t then
        { r with items := r.items.take 4 ++ item (t.power.wakeSrc ||| src).toNat ++ r.items.drop 8 } else r := by
    exact List.map_drop.symm
  rw [hqueue]
  refine List.mem_map.2 ⟨r, hr, if_neg fun hc => hcode ?_⟩
  rw [← hrc]
  exact hc.1

/-! ### OSF and the alarm -/

/-- What is booked beside a change of the clock. -/
def ClockBooked (s t : State) : Prop := Safety.Booked [2, 3] { s with rtc := t.rtc } t

theorem ClockBooked.books {s t u : State} (h : ClockBooked s t) (k : Safety.Booked [2, 3] t u) : ClockBooked s u := by
  have hrtc : u.rtc = t.rtc := by rw [k.frame]
  rw [ClockBooked, hrtc]
  exact Safety.Booked.trans h k

theorem ClockBooked.sets {s t : State} (h : ClockBooked s t) (r : Rtc) : ClockBooked s { t with rtc := r } :=
  Safety.Booked.withRtc h r

theorem ClockBooked.refl (s : State) : ClockBooked s s := Safety.Booked.refl _ s

theorem rtcRecord_booked (n : RtcNote) (s : State) : Safety.Booked [2, 3] s (rtcRecord n s) := by
  unfold rtcRecord
  split
  · exact Safety.sj_booked ..
  · exact Safety.tr_booked ..
  · exact Safety.sj_booked ..
  · exact Safety.sj_booked ..

/-- What a note of the clock leaves. -/
theorem rtcNote_shows (n : RtcNote) (s : State) : (rtcNote n s).rtc = { s.rtc with notes := (rtcNote n s).rtc.notes } ∧
    Changes (.notes :: bookParts) s (rtcNote n s) ∧ (powered s = true → Safety.Booked [2, 3] s (rtcNote n s)) ∧
    (powered s = false → (rtcNote n s).rtc.notes = s.rtc.notes ++ [n]) := by
  unfold rtcNote
  split
  next h =>
    have hrtc := (changes_of_booked (rtcRecord_booked n s)).rtc
    exact ⟨by rw [hrtc], (changes_of_booked (rtcRecord_booked n s)).mono, fun _ => rtcRecord_booked n s,
      fun hno => absurd (h.symm.trans hno) (by decide)⟩
  next h =>
    exact ⟨rfl, .of, fun hyes => absurd hyes h, fun _ => rfl⟩

theorem setOsf_of_set {cause : Nat} {s : State} (h : s.rtc.osf = true) : setOsf cause s = s := if_pos h

theorem setOsf_of_clear {cause : Nat} {s : State} (h : s.rtc.osf = false) :
    setOsf cause s = rtcNote (.osf cause) { s with rtc := { s.rtc with osf := true } } := if_neg (by simp [h])

theorem setOsf_shows (cause : Nat) (s : State) : (setOsf cause s).rtc = { s.rtc with osf := true, notes := (setOsf cause s).rtc.notes } ∧
    Changes (.notes :: .rtcRest :: bookParts) s (setOsf cause s) ∧ (powered s = true → ClockBooked s (setOsf cause s)) := by
  cases h : s.rtc.osf with
  | true =>
    rw [setOsf_of_set h, ← h]
    exact ⟨rfl, .refl _ s, fun _ => .refl s⟩
  | false =>
    rw [setOsf_of_clear h]
    obtain ⟨hrtc, hchanges, hbooked, -⟩ := rtcNote_shows (.osf cause) { s with rtc := { s.rtc with osf := true } }
    exact ⟨hrtc, ((Changes.refl _ s).also [.rtcRest]).trans hchanges,
      fun hp => ((ClockBooked.refl s).sets _).books (hbooked hp)⟩

/-- The match of the alarm, noted (R413). -/
def alarmNoted (s : State) : State :=
  if powered s then tr 0xB05 0 (item (stateCode s.power.state)) { s with rtc := { s.rtc with alarmHit := true } }
  else rtcNote .alarm { s with rtc := { s.rtc with alarmHit := true } }

theorem alarmMatched_eq (s : State) : alarmMatched s =
    if s.rtc.alarmEn then wakeUp 1 { alarmNoted s with rtc := { (alarmNoted s).rtc with pwrOn := true } } else alarmNoted s := rfl

theorem alarmNoted_shows (s : State) : (alarmNoted s).rtc = { s.rtc with alarmHit := true, notes := (alarmNoted s).rtc.notes } ∧
    Changes (.notes :: .rtcRest :: bookParts) s (alarmNoted s) ∧ (powered s = true → ClockBooked s (alarmNoted s)) ∧
    (powered s = false → RtcNote.alarm ∈ (alarmNoted s).rtc.notes) := by
  unfold alarmNoted
  split
  next h =>
    have hbooked := Safety.tr_booked 0xB05 0 (item (stateCode s.power.state)) { s with rtc := { s.rtc with alarmHit := true } }
    have hrtc := (changes_of_booked hbooked).rtc
    exact ⟨by rw [hrtc], ((Changes.refl _ s).also [.rtcRest]).trans (changes_of_booked hbooked),
      fun _ => ((ClockBooked.refl s).sets _).books hbooked, fun hno => absurd (h.symm.trans hno) (by decide)⟩
  next h =>
    obtain ⟨hrtc, hchanges, -, hnotes⟩ := rtcNote_shows .alarm { s with rtc := { s.rtc with alarmHit := true } }
    have hoff : powered s = false := by simpa using h
    exact ⟨hrtc, ((Changes.refl _ s).also [.rtcRest]).trans hchanges, fun hyes => absurd hyes h, fun _ => by
      rw [hnotes hoff]
      exact List.mem_append_right _ (by simp)⟩

end
end Sys2Proof.Machine
end

section
/-! PROOF. The clock and the keys of the panel (R404 to R425). -/

namespace Sys2Proof.Machine

section
set_option Elab.async false

/-! ### RTC_SECOND -/

section
variable {s : State}

theorem awake_powered (h : awake s = true) : powered s = true := by
  simp only [awake, Bool.decide_and, Bool.and_eq_true, decide_eq_true_eq] at h
  simpa [powered] using h.1

/-- The second counted. -/
def secondCounted (s : State) : State := { s with rtc := { s.rtc with time := (nextSecond s.rtc.time).1, secUs := 0 } }

/-- The second, with OSF after the wrap. -/
def secondPassed (s : State) : State := if (nextSecond s.rtc.time).2 then setOsf 2 (secondCounted s) else secondCounted s

theorem rtcSecond_eq (s : State) : rtcSecond s =
    if alarmMatches (secondPassed s).rtc.alarm (nextSecond s.rtc.time).1 then alarmMatched (secondPassed s) else secondPassed s := rfl

theorem secondPassed_shows (s : State) :
    (secondPassed s).rtc = { s.rtc with
      time := (nextSecond s.rtc.time).1, secUs := 0, osf := (nextSecond s.rtc.time).2 || s.rtc.osf, notes := (secondPassed s).rtc.notes } ∧
    Changes (.notes :: .rtcRest :: bookParts) s (secondPassed s) ∧ (powered s = true → ClockBooked s (secondPassed s)) ∧
    ((nextSecond s.rtc.time).2 = true → s.rtc.osf = false → powered s = true → Safety.journals 0xB02 2 (item 2) s (secondPassed s)) := by
  have hcounted : Changes (.notes :: .rtcRest :: bookParts) s (secondCounted s) := by
    unfold secondCounted
    exact .of
  have hfirst : ClockBooked s (secondCounted s) := .refl (secondCounted s)
  obtain ⟨hrtc, hchanges, hbooked⟩ := setOsf_shows 2 (secondCounted s)
  unfold secondPassed
  cases (nextSecond s.rtc.time).2 with
  | true =>
    rw [if_pos rfl, Bool.true_or]
    refine ⟨hrtc, hcounted.trans hchanges, fun hp => hbooked hp, fun _ hosf hp => ?_⟩
    have hclear : (secondCounted s).rtc.osf = false := hosf
    have hpow : powered { secondCounted s with rtc := { (secondCounted s).rtc with osf := true } } = true := hp
    rw [setOsf_of_clear hclear, rtcNote, if_pos hpow, rtcRecord]
    exact Safety.journals_of_sj (u := { secondCounted s with rtc := { (secondCounted s).rtc with osf := true } }) List.prefix_rfl
      List.prefix_rfl
  | false =>
    rw [if_neg Bool.false_ne_true, Bool.false_or]
    exact ⟨rfl, hcounted, fun _ => hfirst, fun h => absurd h Bool.false_ne_true⟩

/-- What a matched alarm leaves of the second that has passed. -/
theorem alarmMatched_keeps (s : State) : clockPart (alarmMatched s).rtc = clockPart { s.rtc with alarmHit := true } ∧
    (s.rtc.alarmEn = false → alarmMatched s = alarmNoted s) ∧ (s.rtc.alarmEn = true → (alarmMatched s).rtc.pwrOn = true) := by
  obtain ⟨hrtc, -⟩ := alarmNoted_shows s
  rw [alarmMatched_eq]
  cases hen : s.rtc.alarmEn with
  | false =>
    rw [if_neg Bool.false_ne_true]
    refine ⟨?_, fun _ => rfl, fun h => absurd h Bool.false_ne_true⟩
    rw [hrtc]
    rfl
  | true =>
    rw [if_pos rfl]
    obtain ⟨hclock, hon⟩ := wakeUp_clock 1 { alarmNoted s with rtc := { (alarmNoted s).rtc with pwrOn := true } }
    refine ⟨hclock.trans ?_, fun h => absurd h.symm Bool.false_ne_true, fun _ => hon rfl⟩
    change clockPart (alarmNoted s).rtc = _
    rw [hrtc]
    rfl

/-- Does the alarm match (R413)? -/
def alarmAgrees (a n : Time) : Prop :=
  (a.year = 0xFFFF ∨ a.year = n.year) ∧ (a.month = 0xFF ∨ a.month = n.month) ∧ (a.day = 0xFF ∨ a.day = n.day) ∧
    (a.hour = 0xFF ∨ a.hour = n.hour) ∧ (a.minute = 0xFF ∨ a.minute = n.minute) ∧ (a.second = 0xFF ∨ a.second = n.second) ∧
    (a.weekday = 0xFF ∨ a.weekday = n.weekday)

theorem alarmMatches_iff (a n : Time) : alarmMatches a n = true ↔ alarmAgrees a n := by
  simp only [alarmMatches, alarmField, alarmAgrees, Bool.and_eq_true, Bool.or_eq_true, decide_eq_true_eq, and_assoc]

/-- The instant of a wake (R88). -/
def wakeInstant (s : State) : Prop := s.power.state = .bringUp ∧ s.power.startKind = .wake ∧ opMs s = s.power.t0Us / 1000

/-- A matched and enabled alarm in each state of the unit. -/
theorem alarmMatched_wakes (hen : s.rtc.alarmEn = true) :
    (s.power.state = .hibernate → s.upd.journal ≠ .patching → (alarmMatched s).power.state = .bringUp) ∧
    (s.power.state = .off → (alarmMatched s).rtc.alarmHit = true ∧ (alarmMatched s).rtc.active = s.rtc.active ||| 1 ∧
      (alarmMatched s).power = s.power ∧ RtcNote.alarm ∈ (alarmMatched s).rtc.notes) ∧
    (awake s = true → (wakeInstant s → (alarmMatched s).power = { s.power with wakeSrc := s.power.wakeSrc ||| 1 } ∧
        ∀ (u : State) (code sev : Nat) (items : Bytes), BitVec.ofNat 16 code ≠ 0x103 → Safety.journals code sev items u s →
          Safety.journals code sev items u (alarmMatched s)) ∧
      (¬ wakeInstant s → (alarmMatched s).power = s.power ∧ ClockBooked s (alarmMatched s))) := by
  obtain ⟨hrtc, hchanges, hbooked, hnotes⟩ := alarmNoted_shows s
  let v : State := { alarmNoted s with rtc := { (alarmNoted s).rtc with pwrOn := true } }
  have hv : alarmMatched s = wakeUp 1 v := by rw [alarmMatched_eq, if_pos hen]
  have hpower : v.power = s.power := hchanges.power
  have hop : opMs v = opMs s := by rw [opMs, opMs, show v.clk.opUs = s.clk.opUs from hchanges.get .opUs]
  rw [hv]
  refine ⟨fun hsleep hjournal => ?_, fun hoff => ?_, fun hawake => ⟨fun hinstant => ?_, fun hnot => ?_⟩⟩
  · have hupd : v.upd = s.upd := hchanges.upd
    exact ((wakeUp_answers 1 v).2 (by rw [hpower]; exact hsleep) (by rw [hupd]; exact hjournal)).1
  · have hpoff : powered s = false := by simp [powered, hoff]
    rw [wakeUp_of_off (by rw [hpower]; exact hoff)]
    refine ⟨?_, ?_, hpower, hnotes hpoff⟩
    · exact congrArg Rtc.alarmHit hrtc
    · have hactive : (alarmNoted s).rtc.active = s.rtc.active := by rw [hrtc]
      change (alarmNoted s).rtc.active ||| 1 = _
      rw [hactive]
  · obtain ⟨hstate, hkind, hms⟩ := hinstant
    rw [wakeUp_of_instant (by rw [hpower]; exact hstate) (by rw [hpower]; exact hkind) (by rw [hop, hpower]; exact hms)]
    refine ⟨?_, fun u code sev items hcode hj => ?_⟩
    · change { v.power with wakeSrc := v.power.wakeSrc ||| 1 } = _
      rw [hpower]
    · have hgrows : s.log.sjQueue <+: v.log.sjQueue := hchanges.get .sjGrows
      exact journals_addSource (Safety.journals_mono hj hgrows) 1 hcode
  · have hpow := awake_powered hawake
    simp only [awake, Bool.decide_and, Bool.and_eq_true, decide_eq_true_eq] at hawake
    rw [wakeUp_of_idle (by rw [hpower]; exact hawake.1) (by rw [hpower]; exact hawake.2) (by rw [hop, hpower]; exact hnot)]
    exact ⟨hpower, (hbooked hpow).sets _⟩

/-- RTC_SECOND (R406, R407, R413). -/
theorem rtcSecond_shows (hok : timeOk s.rtc.time = true) :
    let t := rtcSecond s
    t.rtc.secUs = 0 ∧ timeOk t.rtc.time = true ∧
      (¬ lastSecond s.rtc.time → timeSeconds t.rtc.time = timeSeconds s.rtc.time + 1 ∧ t.rtc.osf = s.rtc.osf) ∧
      (lastSecond s.rtc.time → timeSeconds t.rtc.time = 0 ∧ t.rtc.osf = true ∧
        (s.rtc.osf = false → awake s = true → Safety.journals 0xB02 2 (item 2) s t)) ∧
      t.rtc.time.weekday = (if s.rtc.time.hour = 23 ∧ s.rtc.time.minute = 59 ∧ s.rtc.time.second = 59 then (s.rtc.time.weekday + 1) % 7
        else s.rtc.time.weekday) ∧
      t.rtc.alarm = s.rtc.alarm ∧ t.rtc.alarmEn = s.rtc.alarmEn ∧
      (¬ alarmAgrees s.rtc.alarm t.rtc.time → t.rtc.alarmHit = s.rtc.alarmHit ∧ t.rtc.pwrOn = s.rtc.pwrOn ∧ t.power = s.power) ∧
      (alarmAgrees s.rtc.alarm t.rtc.time →
        (s.rtc.alarmEn = false → t.rtc.alarmHit = true ∧ t.rtc.pwrOn = s.rtc.pwrOn ∧ t.power = s.power) ∧
        (s.rtc.alarmEn = true → t.rtc.pwrOn = true ∧
          (s.power.state = .hibernate → s.upd.journal ≠ .patching → t.power.state = .bringUp) ∧
          (s.power.state = .off → t.rtc.alarmHit = true ∧ t.rtc.active = s.rtc.active ||| 1 ∧ t.power = s.power ∧
            RtcNote.alarm ∈ t.rtc.notes) ∧
          (awake s = true → t.rtc.alarmHit = true ∧
            (wakeInstant s → t.power = { s.power with wakeSrc := s.power.wakeSrc ||| 1 }) ∧
            (¬ wakeInstant s → t.power = s.power)))) ∧
      (awake s = true → ¬ wakeInstant s → Safety.Booked [2, 3] { s with rtc := t.rtc } t) := by
  intro t
  obtain ⟨hnextOk, hmoves, hwraps, hweek⟩ := nextSecond_moves hok
  obtain ⟨hrtc, hchanges, hbooked, hjournal⟩ := secondPassed_shows s
  have hpower : (secondPassed s).power = s.power := hchanges.power
  have hupd : (secondPassed s).upd = s.upd := hchanges.upd
  have hop : opMs (secondPassed s) = opMs s := by rw [opMs, opMs, hchanges.get .opUs]
  have hawake : awake (secondPassed s) = awake s := by rw [awake, awake, hpower]
  have hinstant : wakeInstant (secondPassed s) ↔ wakeInstant s := by rw [wakeInstant, wakeInstant, hpower, hop]
  have halarm : (secondPassed s).rtc.alarm = s.rtc.alarm := by rw [hrtc]
  have hen : (secondPassed s).rtc.alarmEn = s.rtc.alarmEn := by rw [hrtc]
  have hactive : (secondPassed s).rtc.active = s.rtc.active := by rw [hrtc]
  have hhit : (secondPassed s).rtc.alarmHit = s.rtc.alarmHit ∧ (secondPassed s).rtc.pwrOn = s.rtc.pwrOn := by rw [hrtc]; exact ⟨rfl, rfl⟩
  obtain ⟨hclock, hunarmed, harmed⟩ := alarmMatched_keeps (secondPassed s)
  have hcases : (alarmAgrees s.rtc.alarm (nextSecond s.rtc.time).1 ∧ t = alarmMatched (secondPassed s)) ∨
      (¬ alarmAgrees s.rtc.alarm (nextSecond s.rtc.time).1 ∧ t = secondPassed s) := by
    rw [← alarmMatches_iff, ← halarm]
    by_cases hm : alarmMatches (secondPassed s).rtc.alarm (nextSecond s.rtc.time).1 = true
    · exact .inl ⟨hm, by simp only [t]; rw [rtcSecond_eq, if_pos hm]⟩
    · exact .inr ⟨hm, by simp only [t]; rw [rtcSecond_eq, if_neg hm]⟩
  have hkeeps : ∃ hit, clockPart t.rtc = clockPart { (secondPassed s).rtc with alarmHit := hit } := by
    rcases hcases with ⟨-, ht⟩ | ⟨-, ht⟩ <;> rw [ht]
    · exact ⟨true, hclock⟩
    · exact ⟨_, rfl⟩
  obtain ⟨hit, hkeeps⟩ := hkeeps
  rw [hrtc] at hkeeps
  have htime : t.rtc.time = (nextSecond s.rtc.time).1 := congrArg Rtc.time hkeeps
  have hosf : t.rtc.osf = ((nextSecond s.rtc.time).2 || s.rtc.osf) := congrArg Rtc.osf hkeeps
  have halarmLater := congrArg Rtc.alarm hkeeps
  have henLater := congrArg Rtc.alarmEn hkeeps
  rw [htime]
  refine ⟨congrArg Rtc.secUs hkeeps, hnextOk, fun hnot => ?notLast, fun hlast => ⟨(hwraps hlast).1, ?wrapped, fun hclear hup => ?recorded⟩, hweek,
    halarmLater, henLater, fun hnot => ?unmatched, fun hmatch => ?matched, fun hup hnot => ?booked⟩
  case notLast =>
    obtain ⟨hsec, hwrap⟩ := hmoves hnot
    exact ⟨hsec, by rw [hosf, hwrap, Bool.false_or]⟩
  case wrapped => rw [hosf, (hwraps hlast).2, Bool.true_or]
  case recorded =>
    have hj := hjournal (hwraps hlast).2 hclear (awake_powered hup)
    rcases hcases with ⟨-, ht⟩ | ⟨-, ht⟩ <;> rw [ht]
    · cases hena : (secondPassed s).rtc.alarmEn with
      | false =>
        rw [hunarmed hena]
        exact Safety.journals_mono hj ((alarmNoted_shows (secondPassed s)).2.1.get .sjGrows)
      | true =>
        obtain ⟨-, -, hwake⟩ := alarmMatched_wakes hena
        obtain ⟨hat, hnotAt⟩ := hwake (hawake.trans hup)
        by_cases hi : wakeInstant (secondPassed s)
        · exact (hat hi).2 s 0xB02 2 (item 2) (by decide) hj
        · exact Safety.journals_mono hj (hnotAt hi).2.sjKept
    · exact hj
  case unmatched =>
    rcases hcases with ⟨hm, -⟩ | ⟨-, ht⟩
    · exact absurd hm hnot
    · rw [ht]
      exact ⟨hhit.1, hhit.2, hpower⟩
  case matched =>
    rcases hcases with ⟨-, ht⟩ | ⟨hm, -⟩
    · have hthit : t.rtc.alarmHit = true := by
        rw [ht]
        exact congrArg Rtc.alarmHit hclock
      refine ⟨fun hena => ?_, fun hena => ?_⟩
      · rw [← hen] at hena
        obtain ⟨hnoted, hnotedChanges, -⟩ := alarmNoted_shows (secondPassed s)
        refine ⟨hthit, ?_, ?_⟩
        · rw [ht, hunarmed hena, hnoted, ← hhit.2]
        · rw [ht, hunarmed hena, hnotedChanges.power, hpower]
      · rw [← hen] at hena
        obtain ⟨hsleep, hoff, hup⟩ := alarmMatched_wakes hena
        rw [hpower, hupd, hactive] at *
        refine ⟨by rw [ht]; exact harmed hena, by rw [ht]; exact hsleep, by rw [ht]; exact hoff, fun hw => ⟨hthit, fun hi => ?_, fun hi => ?_⟩⟩
        · rw [ht]
          exact ((hup (hawake.trans hw)).1 (hinstant.2 hi)).1
        · rw [ht]
          exact ((hup (hawake.trans hw)).2 (fun h => hi (hinstant.1 h))).1
    · exact absurd hmatch hm
  case booked =>
    have hpow := awake_powered hup
    have hpassed := hbooked hpow
    have hlater {u : State} (h : ClockBooked (secondPassed s) u) : ClockBooked s u := by
      rw [ClockBooked] at h hpassed ⊢
      exact Safety.Booked.trans (Safety.Booked.withRtc hpassed u.rtc) h
    rcases hcases with ⟨-, ht⟩ | ⟨-, ht⟩ <;> rw [ht]
    · cases hena : (secondPassed s).rtc.alarmEn with
      | false =>
        rw [hunarmed hena]
        exact hlater ((alarmNoted_shows (secondPassed s)).2.2.1 (by rw [powered, hpower]; exact hpow))
      | true =>
        obtain ⟨-, -, hwake⟩ := alarmMatched_wakes hena
        exact hlater ((hwake (hawake.trans hup)).2 (fun h => hnot (hinstant.1 h))).2
    · exact hpassed

end

end
end Sys2Proof.Machine
end

section
/-! PROOF. The battery's measurements and the keys of the panel (R410, R415 to R423). -/

namespace Sys2Proof.Machine

section
set_option Elab.async false

section
variable {s : State}

/-! ### The battery -/

/-- A measurement shown, before LBV follows. -/
def batShown (mv : Half) (s : State) : State :=
  let s1 : State := { s with rtc := { s.rtc with
    bat := if powered s then mv else s.rtc.bat
    batLowUs := if decide (mv.toNat < 2600) then s.clk.wallUs else s.rtc.batLowUs } }
  if powered s then { s1 with sens := { s1.sens with bat := mv } } else s1

/-- LBV that changes. -/
def lbvTurned (b : Bool) (mv : Half) (s : State) : State := rtcNote (.lbv b mv) { s with rtc := { s.rtc with lbv := b } }

theorem batMeasure_eq (mv : Half) (s : State) : batMeasure mv s =
    if mv.toNat < 2400 ∧ !s.rtc.lbv then lbvTurned true mv (batShown mv s)
    else if !decide (mv.toNat < 2600) ∧ s.rtc.lbv ∧ s.rtc.batLowUs + 60000000 ≤ s.clk.wallUs then lbvTurned false mv (batShown mv s)
    else batShown mv s := rfl

/-- LBV after a measurement. -/
def lbvAfter (mv : Half) (s : State) : Bool :=
  decide (mv.toNat < 2400) || s.rtc.lbv && (decide (mv.toNat < 2600) || decide (s.clk.wallUs < s.rtc.batLowUs + 60000000))

theorem batMeasure_of_lbv (mv : Half) (s : State) : batMeasure mv s =
    if lbvAfter mv s = s.rtc.lbv then batShown mv s else lbvTurned (lbvAfter mv s) mv (batShown mv s) := by
  rw [batMeasure_eq, lbvAfter]
  cases s.rtc.lbv <;> by_cases hlow : mv.toNat < 2400 <;> by_cases hmid : mv.toNat < 2600 <;>
    by_cases hlong : s.clk.wallUs < s.rtc.batLowUs + 60000000 <;> simp [hlow, hmid, hlong] <;> omega

theorem batShown_shows (mv : Half) (s : State) :
    batShown mv s = { s with
      rtc := { s.rtc with bat := (batShown mv s).rtc.bat, batLowUs := if mv.toNat < 2600 then s.clk.wallUs else s.rtc.batLowUs }
      sens := { s.sens with bat := (batShown mv s).sens.bat } } ∧
    (powered s = true → (batShown mv s).rtc.bat = mv ∧ (batShown mv s).sens.bat = mv) ∧
    (powered s = false → (batShown mv s).rtc.bat = s.rtc.bat ∧ (batShown mv s).sens.bat = s.sens.bat) := by
  unfold batShown
  dsimp only
  cases powered s with
  | true => simp only [if_true, decide_eq_true_eq, true_and]; simp
  | false => simp only [decide_eq_true_eq]; simp

/-- The state before a measurement with what the measurement shows. -/
def batBase (s t : State) : State := { s with
  rtc := { s.rtc with lbv := t.rtc.lbv, bat := t.rtc.bat, batLowUs := t.rtc.batLowUs, notes := t.rtc.notes }
  sens := { s.sens with bat := t.sens.bat } }

theorem batBase_congr {s t u : State} (hrtc : u.rtc = t.rtc) (hsens : u.sens = t.sens) : batBase s u = batBase s t := by
  rw [batBase, batBase, hrtc, hsens]

theorem batBase_batShown (mv : Half) (s : State) : batBase s (batShown mv s) = batShown mv s := by
  unfold batShown
  dsimp only
  cases powered s <;> rfl

/-- Where LBV alone moves on beside. -/
theorem batBase_moved (mv : Half) (b : Bool) (notes : List RtcNote) (s : State) :
    batBase s { batShown mv s with rtc := { (batShown mv s).rtc with lbv := b, notes := notes } } =
      { batShown mv s with rtc := { (batShown mv s).rtc with lbv := b, notes := notes } } := by
  unfold batShown
  dsimp only
  cases powered s <;> rfl

theorem batMeasure_shows (mv : Half) (s : State) :
    let t := batMeasure mv s
    Safety.Booked [2, 3] (batBase s t) t ∧ t.rtc.lbv = lbvAfter mv s ∧
      t.rtc.batLowUs = (if mv.toNat < 2600 then s.clk.wallUs else s.rtc.batLowUs) ∧
      (s.power.state = .off → t.rtc.bat = s.rtc.bat ∧ t.sens.bat = s.sens.bat ∧ t.log = s.log ∧
        t.rtc.notes = s.rtc.notes ++ (if t.rtc.lbv = s.rtc.lbv then [] else [.lbv t.rtc.lbv mv])) ∧
      (s.power.state ≠ .off → t.rtc.bat = mv ∧ t.sens.bat = mv ∧ t.rtc.notes = s.rtc.notes ∧
        (s.rtc.lbv = false → t.rtc.lbv = true → Safety.journals 0xB03 1 (item mv.toNat) s t) ∧
        (s.rtc.lbv = true → t.rtc.lbv = false → Safety.journals 0xB04 0 (item mv.toNat) s t)) := by
  intro t
  obtain ⟨hshown, hon, hoff⟩ := batShown_shows mv s
  have hpow : powered s = true ↔ s.power.state ≠ .off := by simp [powered]
  have hpowers : (batShown mv s).power = s.power := by rw [hshown]
  have hlow : (batShown mv s).rtc.batLowUs = if mv.toNat < 2600 then s.clk.wallUs else s.rtc.batLowUs := by rw [hshown]
  have hlbv : (batShown mv s).rtc.lbv = s.rtc.lbv := by rw [hshown]
  have hnotes : (batShown mv s).rtc.notes = s.rtc.notes := by rw [hshown]
  have hlog : (batShown mv s).log = s.log := by rw [hshown]
  have hclk : (batShown mv s).clk = s.clk := by rw [hshown]
  by_cases hsame : lbvAfter mv s = s.rtc.lbv
  · have ht : t = batShown mv s := by simp only [t]; rw [batMeasure_of_lbv, if_pos hsame]
    rw [ht, batBase_batShown, hlbv, hnotes, if_pos rfl, List.append_nil]
    refine ⟨.refl _ _, hsame.symm, hlow, fun hstate => ?_, fun hstate => ?_⟩
    · have hp : powered s = false := by simp [powered, hstate]
      exact ⟨(hoff hp).1, (hoff hp).2, hlog, rfl⟩
    · obtain ⟨hbat, hsens⟩ := hon (hpow.2 hstate)
      exact ⟨hbat, hsens, rfl, fun hf ht => absurd (hf.symm.trans ht) (by decide), fun hf ht => absurd (hf.symm.trans ht) (by decide)⟩
  · have ht : t = lbvTurned (lbvAfter mv s) mv (batShown mv s) := by simp only [t]; rw [batMeasure_of_lbv, if_neg hsame]
    generalize lbvAfter mv s = b at hsame ht
    have hturn : powered { batShown mv s with rtc := { (batShown mv s).rtc with lbv := b } } = powered s := by
      rw [powered, powered, hpowers]
    cases hp : powered s with
    | true =>
      have hstate := hpow.1 hp
      obtain ⟨hbat, hsens⟩ := hon hp
      have hrec : t = rtcRecord (.lbv b mv) { batShown mv s with rtc := { (batShown mv s).rtc with lbv := b } } := by
        rw [ht, lbvTurned, rtcNote, if_pos (hturn.trans hp)]
      have hbooked := rtcRecord_booked (.lbv b mv) { batShown mv s with rtc := { (batShown mv s).rtc with lbv := b } }
      rw [← hrec] at hbooked
      have hrtc : t.rtc = { (batShown mv s).rtc with lbv := b } := (changes_of_booked hbooked).rtc
      have hsens' : t.sens = (batShown mv s).sens := by rw [hbooked.frame]
      have hbase : batBase s t = { batShown mv s with rtc := { (batShown mv s).rtc with lbv := b } } := by
        rw [batBase_congr (t := { batShown mv s with rtc := { (batShown mv s).rtc with lbv := b } }) hrtc hsens']
        exact batBase_moved mv b _ s
      refine ⟨by rw [hbase]; exact hbooked, by rw [hrtc], by rw [hrtc]; exact hlow, fun h => absurd h hstate, fun _ => ⟨by rw [hrtc]; exact hbat,
        by rw [hsens']; exact hsens, by rw [hrtc]; exact hnotes, fun _ hb => ?_, fun _ hb => ?_⟩⟩
      · rw [hrtc] at hb
        obtain rfl : b = true := hb
        rw [hrec]
        exact Safety.journals_of_sj (u := { batShown mv s with rtc := { (batShown mv s).rtc with lbv := true } })
          (by rw [show ({ batShown mv s with rtc := { (batShown mv s).rtc with lbv := true } } : State).log = s.log from hlog])
          List.prefix_rfl (by rw [opMs, opMs, ← hclk]) (by rw [← hpowers])
      · rw [hrtc] at hb
        obtain rfl : b = false := hb
        rw [hrec]
        exact Safety.journals_of_sj (u := { batShown mv s with rtc := { (batShown mv s).rtc with lbv := false } })
          (by rw [show ({ batShown mv s with rtc := { (batShown mv s).rtc with lbv := false } } : State).log = s.log from hlog])
          List.prefix_rfl (by rw [opMs, opMs, ← hclk]) (by rw [← hpowers])
    | false =>
      have hstate : s.power.state = .off := by simpa [powered] using hp
      obtain ⟨hbat, hsens⟩ := hoff hp
      have hrec : t = { batShown mv s with rtc := { (batShown mv s).rtc with lbv := b, notes := (batShown mv s).rtc.notes ++ [.lbv b mv] } } := by
        rw [ht, lbvTurned, rtcNote, if_neg (by rw [hturn, hp]; exact Bool.false_ne_true)]
      have hbase : batBase s t = t := by
        rw [hrec]
        exact batBase_moved mv b _ s
      rw [hbase]
      have hlbvT : t.rtc.lbv = b := by rw [hrec]
      rw [hlbvT, if_neg hsame]
      refine ⟨.refl _ _, rfl, by rw [hrec]; exact hlow, fun _ => ⟨by rw [hrec]; exact hbat, by rw [hrec]; exact hsens, by rw [hrec]; exact hlog, ?_⟩,
        fun h => absurd hstate h⟩
      rw [← hnotes, hrec]

end

end
end Sys2Proof.Machine
end

section
/-! PROOF. The keys, the encoder and the hurdle entries of the panel (R415 to R423). -/

namespace Sys2Proof.Machine

section
set_option Elab.async false

section
variable {s t u : State}

/-! ### What is booked beside a change of the panel -/

/-- What is booked beside a change of the panel. -/
def PanelBooked (ns : List Nat) (s t : State) : Prop := Safety.Booked ns { s with pan := t.pan } t

theorem PanelBooked.refl (ns : List Nat) (s : State) : PanelBooked ns s s := Safety.Booked.refl ns s

theorem PanelBooked.books {ns : List Nat} (h : PanelBooked ns s t) (k : Safety.Booked ns t u) : PanelBooked ns s u := by
  have hpan : u.pan = t.pan := by rw [k.frame]
  rw [PanelBooked, hpan]
  exact Safety.Booked.trans h k

theorem PanelBooked.sets {ns : List Nat} (h : PanelBooked ns s t) (p : Panel) : PanelBooked ns s { t with pan := p } :=
  Safety.Booked.withPan h p

theorem PanelBooked.mono {ns ms : List Nat} (h : PanelBooked ns s t) (hs : ns ⊆ ms) : PanelBooked ms s t := Safety.Booked.mono h hs

/-! ### A key's event -/

/-- Q0029 takes a descriptor in its next slot, and no mark is due (R113, R117). -/
def keySlotFree (s : State) : Prop :=
  ringDepth (ringGet s 29) ≠ 0 ∧ ringFull (ringGet s 29) = false ∧ (ringGet s 29).hwm = 0 ∧ (ringGet s 29).waiting = [] ∧
    Safety.storesWf s ∧ ringAddr (ringGet s 29) (ringGet s 29).pi + 16 ≤ 16777216

/-- The descriptor of a KEY event stands in that slot (R416). -/
def keyNoted (source : Nat) (down : Bool) (n : Int) (s t : State) : Prop := keySlotFree s → ∃ d : Desc,
  dataRead (ringAddr (ringGet s 29) (ringGet s 29).pi) 16 t = descBytes d ∧ d.ts = BitVec.ofNat 32 s.clk.opUs ∧ d.src = 1 ∧
    d.tag = BitVec.ofNat 32 (source + (if down then 256 else 0) + 65536 * (n % 65536).toNat)

theorem keyEvent_booked (source : Nat) (down : Bool) (s : State) : Safety.Booked [29, 2, 3] s (keyEvent source down s) :=
  Safety.pushEvent_booked 13 1 _ s

theorem keyEvent_noted (source : Nat) (down : Bool) (hq : u.queues = s.queues) (hd : u.data = s.data) (hop : u.clk.opUs = s.clk.opUs) :
    keyNoted source down u.pan.enc s (keyEvent source down u) := by
  rintro ⟨hdepth, hroom, hhwm, hwaits, hwf, hfits⟩
  let d : Desc := { buf := freeWord u, src := 1, ts := tsNow u,
                    tag := BitVec.ofNat 32 (source + 256 * b2n down + 65536 * (u.pan.enc % 65536).toNat) }
  have hring : ringGet (drawn u) 29 = ringGet s 29 := by
    rw [ringGet, ringGet, show (drawn u).queues = s.queues from hq]
  have hput := ringPut_of_room (s := drawn u) (n := 29) d (by rw [hring]; exact hdepth) (by rw [hring]; exact hroom)
    (.inr (by rw [hring]; exact hwaits))
  have hmarks : ringMarks (ringGet (drawn u) 29) = false := by
    rw [hring, ringMarks, ringReaches]
    simp [hhwm]
  have hevent : keyEvent source down u = ringStore 29 (ringGet (drawn u) 29) d (drawn u) := by
    rw [hmarks] at hput
    have hpush := push_of_plain (s := drawn u) (n := 29) (d := d) (by rw [hput])
    rw [hput] at hpush
    exact hpush
  refine ⟨d, ?_, by rw [← hop]; rfl, rfl, ?_⟩
  · rw [hevent, hring]
    have hdata : swf 0 dataSize u.data = true := by
      simp only [Safety.storesWf, Memory.wf, Bool.and_eq_true] at hwf
      rw [hd]
      exact hwf.1.1
    have hread := memRead_memWrite 0 dataSize u.data (ringAddr (ringGet s 29) (ringGet s 29).pi) (descBytes d) hdata (by
      rw [descBytes_length]
      exact hfits)
    rw [descBytes_length] at hread
    exact hread
  · cases down <;> rfl

/-! ### Debounced changes -/

theorem debounced_bits (k j : Fin 21) (down : Bool) (s : State) :
    (debounced k down s).pan.pressed.getLsbD j = (if j = k then down else s.pan.pressed.getLsbD j) ∧
    (debounced k down s).pan.raw.getLsbD j = (if j = k then down else s.pan.raw.getLsbD j) := by
  have hbit (v : BitVec 21) : (setBit v k down).getLsbD j = if j = k then down else v.getLsbD j := by
    rw [getLsbD_setBit v k j down k.isLt]
    simp only [Fin.ext_iff]
  exact ⟨hbit _, hbit _⟩

theorem setBit_set (v : BitVec 21) (k j : Fin 21) : (setBit v k true).getLsbD j = (decide (j = k) || v.getLsbD j) := by
  rw [getLsbD_setBit v k j true k.isLt]
  by_cases h : j = k
  · simp [h]
  · rw [if_neg fun hv => h (Fin.ext hv), decide_eq_false h, Bool.false_or]

theorem setBit_clear (v : BitVec 21) (k j : Fin 21) : (setBit v k false).getLsbD j = (!decide (j = k) && v.getLsbD j) := by
  rw [getLsbD_setBit v k j false k.isLt]
  by_cases h : j = k
  · simp [h]
  · rw [if_neg fun hv => h (Fin.ext hv), decide_eq_false h, Bool.not_false, Bool.true_and]

/-- What stands in the panel beside what a press may change. -/
def keyPart (p : Panel) : Panel :=
  { p with delivered := 0, locked := false, entry := none, entryUs := 0, lastPushUs := none, wrong := 0, lockoutEnd := none, lastActUs := 0 }

/-! ### Entries -/

/-- Does the service sequence agree? -/
def servicePasses (ks : List Nat) (s : State) : Bool :=
  match serviceSequence s with
  | some x => sequenceIs ks x.1 x.2.1 x.2.2
  | none => false

/-- Does the user's sequence agree? -/
def userPasses (ks : List Nat) (s : State) : Bool :=
  match restOf s with
  | some r => sequenceIs ks r.panel.salt r.panel.userLen r.panel.userDig
  | none => false

theorem judgeEntry_eq (ks : List Nat) (s : State) : judgeEntry ks s =
    if ks = [] then { s with pan := { s.pan with entry := none } }
    else if servicePasses ks s then entrySucceeds true s
    else if userPasses ks s then entrySucceeds false s else entryFails 0 ks.length s := rfl

theorem sequenceIs_iff (ks : List Nat) (salt : Bytes) (len : Nat) (dig : Bytes) : sequenceIs ks salt len dig = true ↔
    ks.length ≤ 8 ∧ ks.length = len ∧ sha256 (salt ++ ks.map (BitVec.ofNat 8)) = dig := by
  simp only [sequenceIs, Bool.and_eq_true, decide_eq_true_eq, and_assoc]

theorem servicePasses_iff (ks : List Nat) (s : State) : servicePasses ks s = true ↔ ∃ x, serviceSequence s = some x ∧
    ks.length ≤ 8 ∧ ks.length = x.2.1 ∧ sha256 (x.1 ++ ks.map (BitVec.ofNat 8)) = x.2.2 := by
  unfold servicePasses
  cases serviceSequence s with
  | none => simp
  | some x => simp [sequenceIs_iff]

theorem userPasses_iff (ks : List Nat) (s : State) : userPasses ks s = true ↔ ∃ r, restOf s = some r ∧
    ks.length ≤ 8 ∧ ks.length = r.panel.userLen ∧ sha256 (r.panel.salt ++ ks.map (BitVec.ofNat 8)) = r.panel.userDig := by
  unfold userPasses
  cases restOf s with
  | none => simp
  | some r => simp [sequenceIs_iff]

theorem entryMayOpen_iff (s : State) : entryMayOpen s = true ↔
    (serviceSequence s).isSome = true ∧ ∀ e, s.pan.lockoutEnd = some e → e ≤ opMs s := by
  rw [entryMayOpen, Bool.and_eq_true]
  cases s.pan.lockoutEnd with
  | none => simp
  | some e => simp

/-- A wrong entry closed (R422). -/
theorem entryFails_shows (cause n : Nat) (s : State) :
    let t := entryFails cause n s
    PanelBooked [2, 3] s t ∧ keyPart t.pan = keyPart s.pan ∧ t.pan.delivered = s.pan.delivered ∧ t.pan.entry = none ∧
      t.pan.locked = s.pan.locked ∧ t.mgt = s.mgt ∧
      Safety.journals 0xB12 1 (item n ++ item (s.pan.wrong + 1) ++ item cause) s t ∧
      (s.pan.wrong < 4 → t.pan.wrong = s.pan.wrong + 1 ∧ t.pan.lockoutEnd = s.pan.lockoutEnd) ∧
      (4 ≤ s.pan.wrong → t.pan.wrong = 0 ∧ t.pan.lockoutEnd = some (opMs s + 60000) ∧
        Safety.journals 0xB13 1 (item (opMs s + 60000)) s t) := by
  let u : State := { s with pan := { s.pan with entry := none, wrong := s.pan.wrong + 1 } }
  let v : State := sj 0xB12 1 (item n ++ item (s.pan.wrong + 1) ++ item cause) u
  have hv : Safety.Booked [2, 3] u v := Safety.sj_booked ..
  have hvpan : v.pan = u.pan := by rw [hv.frame]
  have hvmgt : v.mgt = s.mgt := by rw [hv.frame]
  have hubooked : PanelBooked [2, 3] s u := .refl _ u
  have hvj : Safety.journals 0xB12 1 (item n ++ item (s.pan.wrong + 1) ++ item cause) s v :=
    Safety.journals_of_sj (u := u) List.prefix_rfl List.prefix_rfl
  intro t
  by_cases hfive : s.pan.wrong + 1 ≥ 5
  · let w : State := { v with pan := { v.pan with wrong := 0, lockoutEnd := some (opMs s + 60000) } }
    have ht : t = sj 0xB13 1 (item (opMs s + 60000)) w := if_pos hfive
    have htb : Safety.Booked [2, 3] w t := by rw [ht]; exact Safety.sj_booked ..
    have htpan : t.pan = { u.pan with wrong := 0, lockoutEnd := some (opMs s + 60000) } := by
      rw [← hvpan, htb.frame]
    have hclk : opMs w = opMs s := by
      have h : v.clk.opUs = s.clk.opUs := by rw [hv.frame]
      rw [opMs, opMs, show w.clk.opUs = s.clk.opUs from h]
    have hcycles : w.power.pwrCycles = s.power.pwrCycles := by
      change v.power.pwrCycles = _
      rw [hv.frame]
    refine ⟨((hubooked.books hv).sets _).books htb, by rw [htpan]; rfl, by rw [htpan], by rw [htpan], by rw [htpan], ?_, ?_, fun h => by omega,
      fun _ => ⟨by rw [htpan], by rw [htpan], ?_⟩⟩
    · rw [← hvmgt, htb.frame]
    · exact Safety.journals_mono hvj (show v.log.sjQueue <+: t.log.sjQueue from htb.sjKept)
    · rw [ht]
      exact Safety.journals_of_sj (u := w) hv.sjKept List.prefix_rfl hclk hcycles
  · have ht : t = v := if_neg hfive
    rw [ht, hvpan]
    exact ⟨hubooked.books hv, rfl, rfl, rfl, rfl, hvmgt, hvj, fun _ => ⟨rfl, rfl⟩, fun h => by omega⟩

theorem openSvc_of_open (h : s.mgt.svcOpen = true) (source : Nat) : openSvc source s = s := if_pos h

theorem openSvc_of_shut (h : s.mgt.svcOpen = false) (source : Nat) :
    openSvc source s = sj 0x920 0 (item source) { s with mgt := { s.mgt with svcOpen := true, svcLastUs := s.clk.opUs } } :=
  if_neg (by simp [h])

/-- An entry closed as right, before SVC opens. -/
def entryTaken (service : Bool) (s : State) : State :=
  sj 0xB10 0 (item (b2n service)) { s with pan := { s.pan with
    entry := none, wrong := 0, locked := s.pan.locked && (restOf s).isNone, lastActUs := s.clk.opUs } }

theorem entrySucceeds_eq (service : Bool) (s : State) : entrySucceeds service s =
    if service then openSvc (b2n (restOf s).isNone) (entryTaken service s) else entryTaken service s := rfl

/-- An entry that is right: service or user (R421, R423). -/
theorem entrySucceeds_shows (service : Bool) (s : State) :
    let t := entrySucceeds service s
    t.pan = { s.pan with entry := none, wrong := 0, locked := s.pan.locked && (restOf s).isNone, lastActUs := s.clk.opUs } ∧
      Safety.journals 0xB10 0 (item (b2n service)) s t ∧ (service = false → t.mgt = s.mgt) ∧
      (service = true → t.mgt.svcOpen = true ∧
        (s.mgt.svcOpen = false → Safety.journals 0x920 0 (item (b2n (restOf s).isNone)) s t)) := by
  let u : State := { s with pan := { s.pan with
    entry := none, wrong := 0, locked := s.pan.locked && (restOf s).isNone, lastActUs := s.clk.opUs } }
  let v : State := entryTaken service s
  have hv : Safety.Booked [2, 3] u v := Safety.sj_booked ..
  have hvpan : v.pan = u.pan := by rw [hv.frame]
  have hvmgt : v.mgt = s.mgt := by rw [hv.frame]
  have hvj : Safety.journals 0xB10 0 (item (b2n service)) s v := Safety.journals_of_sj (u := u) List.prefix_rfl List.prefix_rfl
  intro t
  cases service with
  | false =>
    have ht : t = v := (entrySucceeds_eq false s).trans (if_neg Bool.false_ne_true)
    rw [ht]
    exact ⟨hvpan, hvj, fun _ => hvmgt, fun h => absurd h Bool.false_ne_true⟩
  | true =>
    have ht : t = openSvc (b2n (restOf s).isNone) v := (entrySucceeds_eq true s).trans (if_pos rfl)
    cases hopen : v.mgt.svcOpen with
    | true =>
      rw [ht, openSvc_of_open hopen]
      exact ⟨hvpan, hvj, fun h => absurd h.symm Bool.false_ne_true, fun _ => ⟨hopen, fun hshut => absurd (hshut.symm.trans (hvmgt ▸ hopen)) (by decide)⟩⟩
    | false =>
      let w : State := { v with mgt := { v.mgt with svcOpen := true, svcLastUs := v.clk.opUs } }
      have heq : t = sj 0x920 0 (item (b2n (restOf s).isNone)) w := ht.trans (openSvc_of_shut hopen _)
      have htb : Safety.Booked [2, 3] w t := by rw [heq]; exact Safety.sj_booked ..
      have hclk : opMs w = opMs s := by
        have h : v.clk.opUs = s.clk.opUs := by rw [hv.frame]
        rw [opMs, opMs, show w.clk.opUs = s.clk.opUs from h]
      have hcycles : w.power.pwrCycles = s.power.pwrCycles := by
        change v.power.pwrCycles = _
        rw [hv.frame]
      refine ⟨?_, Safety.journals_mono hvj htb.sjKept, fun h => absurd h.symm Bool.false_ne_true, fun _ => ⟨?_, fun _ => ?_⟩⟩
      · rw [htb.frame]
        exact hvpan
      · rw [htb.frame]
      · rw [heq]
        exact Safety.journals_of_sj (u := w) hv.sjKept List.prefix_rfl hclk hcycles

end

end
end Sys2Proof.Machine
end

section
/-! PROOF. The clock and the panel (R404 to R425). -/

namespace Sys2Proof.Machine

section
set_option Elab.async false

section
variable {s : State} {k : Fin 21}

/-! ### KEY_PRESS by what stands before -/

/-- A press that the panel sees. -/
theorem keyPress_eq (hawake : awake s = true) (hup : s.pan.pressed.getLsbD k = false) : keyPress k s =
    match s.pan.entry with
    | some ks => if k.val = 20 then judgeEntry ks (debounced k true s) else recordKey k ks (debounced k true s)
    | none =>
      if !s.pan.locked then (if k.val = 20 then deliverPush (debounced k true s) else deliverKey k true (debounced k true s))
      else if k.val ≠ 20 ∧ entryMayOpen s then openEntry [k.val] (debounced k true s)
      else debounced k true s :=
  if_neg (by rw [hawake, hup]; decide)

theorem deliverKey_shows (k : Nat) (down : Bool) (v : State) (hq : v.queues = s.queues) (hd : v.data = s.data) (hop : v.clk.opUs = s.clk.opUs)
    (hb : PanelBooked [29, 2, 3] s v) :
    let t := deliverKey k down v
    PanelBooked [29, 2, 3] s t ∧ t.pan = { v.pan with
      delivered := setBit v.pan.delivered k down, lastActUs := if down then v.clk.opUs else v.pan.lastActUs } ∧
      keyNoted k down v.pan.enc s t := by
  intro t
  let w : State := { v with pan := { v.pan with
    delivered := setBit v.pan.delivered k down, lastActUs := if down then v.clk.opUs else v.pan.lastActUs } }
  have hbooked : Safety.Booked [29, 2, 3] w t := keyEvent_booked k down w
  refine ⟨(hb.sets _).books hbooked, by rw [hbooked.frame], keyEvent_noted (u := w) k down hq hd hop⟩

/-- A delivered push: the second within 500 ms opens an entry (R421). -/
def pushSecond (v : State) : Prop := ∃ p, v.pan.lastPushUs = some p ∧ v.clk.opUs ≤ p + 500000

theorem deliverPush_eq (v : State) :
    (pushSecond v ∧ entryMayOpen v = true → deliverPush v = openEntry [] (deliverKey 20 true v)) ∧
    (¬ (pushSecond v ∧ entryMayOpen v = true) →
      deliverPush v = { deliverKey 20 true v with pan := { (deliverKey 20 true v).pan with lastPushUs := some v.clk.opUs } }) := by
  have hsecond : (match v.pan.lastPushUs with
      | some t => decide (v.clk.opUs ≤ t + 500000)
      | none => false) = true ↔ pushSecond v := by
    unfold pushSecond
    cases v.pan.lastPushUs with
    | none => simp
    | some p => simp
  constructor <;> intro h
  · exact if_pos ⟨hsecond.2 h.1, h.2⟩
  · exact if_neg fun hboth => h ⟨hsecond.1 hboth.1, hboth.2⟩

/-- Every press leaves what it does not name. -/
theorem keyPress_keeps (hawake : awake s = true) (hup : s.pan.pressed.getLsbD k = false) :
    keyPart (keyPress k s).pan = keyPart (debounced k true s).pan := by
  have hdeliver (j : Nat) (v : State) : keyPart (deliverKey j true v).pan = keyPart v.pan := by
    rw [deliverKey, (keyEvent_booked j true _).frame]
    rfl
  rw [keyPress_eq hawake hup]
  generalize debounced k true s = v
  split
  · split_ifs
    · rw [judgeEntry_eq]
      split_ifs
      · rfl
      · rw [(entrySucceeds_shows true v).1]
        rfl
      · rw [(entrySucceeds_shows false v).1]
        rfl
      · exact (entryFails_shows 0 _ v).2.1
    · rfl
  · split_ifs
    · by_cases hsecond : pushSecond v ∧ entryMayOpen v = true
      · rw [(deliverPush_eq v).1 hsecond]
        exact hdeliver 20 v
      · rw [(deliverPush_eq v).2 hsecond]
        exact hdeliver 20 v
    · exact hdeliver k v
    · rfl
    · rfl

theorem debounced_booked (ns : List Nat) (down : Bool) (s : State) : PanelBooked ns s (debounced k down s) := .refl ns (debounced k down s)

/-! ### What a press does -/

/-- A press where no entry is open and the panel is unlocked (R416, R421). -/
theorem keyPress_unlocked (hawake : awake s = true) (hup : s.pan.pressed.getLsbD k = false) (hnone : s.pan.entry = none)
    (hopen : s.pan.locked = false) :
    let t := keyPress k s
    PanelBooked [29, 2, 3] s t ∧ keyNoted k true s.pan.enc s t ∧
      (k.val ≠ 20 → t.pan.entry = none ∧ t.pan.lastActUs = s.clk.opUs ∧
        ∀ j : Fin 21, t.pan.delivered.getLsbD j = (decide (j = k) || s.pan.delivered.getLsbD j)) ∧
      (k.val = 20 →
        (entryMayOpen s = true ∧ pushSecond s → t.pan.entry = some [] ∧ t.pan.delivered = 0 ∧ t.pan.entryUs = s.clk.opUs) ∧
        (¬ (entryMayOpen s = true ∧ pushSecond s) → t.pan.entry = none ∧ t.pan.lastPushUs = some s.clk.opUs)) := by
  intro t
  have hdeliver (j : Nat) := deliverKey_shows (s := s) j true (debounced k true s) rfl rfl rfl (debounced_booked _ true s)
  have hv : (debounced k true s).pan.enc = s.pan.enc := rfl
  have hmay : entryMayOpen (debounced k true s) = entryMayOpen s := rfl
  have hsecond : pushSecond (debounced k true s) ↔ pushSecond s := Iff.rfl
  have hshape : t = if k.val = 20 then deliverPush (debounced k true s) else deliverKey k true (debounced k true s) := by
    refine (keyPress_eq hawake hup).trans ?_
    rw [hnone]
    exact if_pos (by rw [hopen]; rfl)
  by_cases hk : k.val = 20
  · rw [if_pos hk] at hshape
    obtain ⟨hbooked, hpan, hnoted⟩ := hdeliver 20
    rw [hk]
    obtain ⟨hopens, hwaits⟩ := deliverPush_eq (debounced k true s)
    rw [hmay, hsecond] at hopens hwaits
    by_cases hboth : pushSecond s ∧ entryMayOpen s = true
    · have ht : t = openEntry [] (deliverKey 20 true (debounced k true s)) := hshape.trans (hopens hboth)
      have hclk : (deliverKey 20 true (debounced k true s)).clk.opUs = s.clk.opUs := by
        have h : (deliverKey 20 true (debounced k true s)).clk.opUs = (debounced k true s).clk.opUs := by
          rw [deliverKey, (keyEvent_booked 20 true _).frame]
        exact h
      rw [ht]
      refine ⟨hbooked.sets _, hnoted, fun h => absurd rfl h, fun _ => ⟨fun _ => ⟨rfl, rfl, hclk⟩, fun h => absurd hboth.symm h⟩⟩
    · have ht := hshape.trans (hwaits hboth)
      rw [ht]
      refine ⟨hbooked.sets _, hnoted, fun h => absurd rfl h, fun _ => ⟨fun h => absurd h.symm hboth, fun _ => ⟨?_, rfl⟩⟩⟩
      change (deliverKey 20 true (debounced k true s)).pan.entry = none
      rw [hpan]
      exact hnone
  · rw [if_neg hk] at hshape
    obtain ⟨hbooked, hpan, hnoted⟩ := hdeliver k
    rw [hshape]
    refine ⟨hbooked, hnoted, fun _ => ⟨?_, ?_, fun j => ?_⟩, fun h => absurd h hk⟩
    · rw [hpan]
      exact hnone
    · rw [hpan]
      rfl
    · rw [hpan]
      exact setBit_set s.pan.delivered k j

/-- A press where no entry is open and the panel is locked (R420, R421). -/
theorem keyPress_locked (hawake : awake s = true) (hup : s.pan.pressed.getLsbD k = false) (hnone : s.pan.entry = none)
    (hlocked : s.pan.locked = true) :
    let t := keyPress k s
    PanelBooked [] s t ∧
      (k.val ≠ 20 → entryMayOpen s = true → t.pan.entry = some [k.val] ∧ t.pan.delivered = 0 ∧ t.pan.entryUs = s.clk.opUs) ∧
      (k.val = 20 ∨ ¬ entryMayOpen s = true → t.pan.entry = none ∧ t.pan.delivered = s.pan.delivered) := by
  intro t
  have hshape : t = if k.val ≠ 20 ∧ entryMayOpen s then openEntry [k.val] (debounced k true s) else debounced k true s := by
    refine (keyPress_eq hawake hup).trans ?_
    rw [hnone]
    exact if_neg (by rw [hlocked]; decide)
  have hbooked := debounced_booked (k := k) [] true s
  by_cases hopens : k.val ≠ 20 ∧ entryMayOpen s = true
  · rw [hshape, if_pos hopens]
    exact ⟨hbooked.sets _, fun _ _ => ⟨rfl, rfl, rfl⟩, fun h => absurd h (by rintro (h | h); exacts [hopens.1 h, h hopens.2])⟩
  · rw [hshape, if_neg hopens]
    exact ⟨hbooked, fun h h' => absurd ⟨h, h'⟩ hopens, fun _ => ⟨hnone, rfl⟩⟩

/-- A press while an entry is open (R421 to R423). -/
theorem keyPress_entry (hawake : awake s = true) (hup : s.pan.pressed.getLsbD k = false) {ks : List Nat} (hentry : s.pan.entry = some ks) :
    let t := keyPress k s
    t.pan.delivered = s.pan.delivered ∧
      (k.val ≠ 20 → PanelBooked [] s t ∧ t.pan.entry = some (ks ++ [k.val]) ∧
        t.pan.entryUs = (if ks = [] then s.clk.opUs else s.pan.entryUs)) ∧
      (k.val = 20 → ks = [] → PanelBooked [] s t ∧ t.pan.entry = none ∧ t.pan.wrong = s.pan.wrong ∧ t.pan.locked = s.pan.locked) ∧
      (k.val = 20 → ks ≠ [] → t = if servicePasses ks s then entrySucceeds true (debounced k true s)
        else if userPasses ks s then entrySucceeds false (debounced k true s)
        else entryFails 0 ks.length (debounced k true s)) := by
  intro t
  have hshape : t = if k.val = 20 then judgeEntry ks (debounced k true s) else recordKey k ks (debounced k true s) := by
    refine (keyPress_eq hawake hup).trans ?_
    rw [hentry]
  have hbooked := debounced_booked (k := k) [] true s
  by_cases hk : k.val = 20
  · rw [if_pos hk, judgeEntry_eq] at hshape
    by_cases hempty : ks = []
    · rw [if_pos hempty] at hshape
      rw [hshape]
      exact ⟨rfl, fun h => absurd hk h, fun _ _ => ⟨hbooked.sets _, rfl, rfl, rfl⟩, fun _ h => absurd hempty h⟩
    · rw [if_neg hempty] at hshape
      refine ⟨?_, fun h => absurd hk h, fun _ h => absurd h hempty, fun _ _ => hshape⟩
      rw [hshape]
      split_ifs
      · rw [(entrySucceeds_shows true _).1]
        rfl
      · rw [(entrySucceeds_shows false _).1]
        rfl
      · exact (entryFails_shows 0 _ _).2.2.1
  · rw [if_neg hk] at hshape
    rw [hshape]
    exact ⟨rfl, fun _ => ⟨hbooked.sets _, rfl, rfl⟩, fun h => absurd h hk, fun h => absurd h hk⟩

end

end
end Sys2Proof.Machine
end

section
/-! PROOF. The clock and the panel as a whole (R404 to R425). -/

namespace Sys2Proof.Machine

section
set_option Elab.async false

section
variable {s : State} {k : Fin 21}

/-! ### Releases, stuck keys, the encoder, the lock and SVC's held keys -/

/-- A change of a key that the panel is not told of. -/
theorem keyRelease_eq (hawake : awake s = true) (hdown : s.pan.pressed.getLsbD k = true) : keyRelease k s =
    let t := debounced k false s
    let s1 := { t with pan := { t.pan with stuck := setBit s.pan.stuck k false } }
    if s.pan.stuck.getLsbD k then sj 0xB21 0 (item k ++ item ((s.clk.opUs - sget 0 s.pan.pressUs k) / 1000000)) s1
    else if keysDelivered s then deliverKey k false s1
    else s1 := by
  rw [keyRelease, if_neg (by rw [hawake, hdown]; decide)]

theorem keysDelivered_iff (hawake : awake s = true) : keysDelivered s = true ↔ s.pan.locked = false ∧ s.pan.entry = none := by
  simp [keysDelivered, hawake]

/-- A key released, and no longer stuck. -/
def keyFreed (k : Nat) (s : State) : State :=
  { debounced k false s with pan := { (debounced k false s).pan with stuck := setBit s.pan.stuck k false } }

/-- A release (R415 to R417). -/
theorem keyRelease_shows (hawake : awake s = true) (hdown : s.pan.pressed.getLsbD k = true) :
    let t := keyRelease k s
    PanelBooked [29, 2, 3] s t ∧
      (∀ j : Fin 21, t.pan.pressed.getLsbD j = (!decide (j = k) && s.pan.pressed.getLsbD j) ∧
        t.pan.stuck.getLsbD j = (!decide (j = k) && s.pan.stuck.getLsbD j)) ∧
      t.pan.entry = s.pan.entry ∧ t.pan.enc = s.pan.enc ∧ t.pan.lastActUs = s.pan.lastActUs ∧
      (s.pan.stuck.getLsbD k = true → t.pan.delivered = s.pan.delivered ∧ ringGet t 29 = ringGet s 29 ∧
        Safety.journals 0xB21 0 (item k ++ item ((s.clk.opUs - sget 0 s.pan.pressUs k) / 1000000)) s t) ∧
      (s.pan.stuck.getLsbD k = false →
        (s.pan.locked = false → s.pan.entry = none → keyNoted k false s.pan.enc s t ∧
          ∀ j : Fin 21, t.pan.delivered.getLsbD j = (!decide (j = k) && s.pan.delivered.getLsbD j)) ∧
        (s.pan.locked = true ∨ s.pan.entry ≠ none → t.pan.delivered = s.pan.delivered ∧ ringGet t 29 = ringGet s 29)) := by
  intro t
  have hfreed : PanelBooked [29, 2, 3] s (keyFreed k s) := .refl _ (keyFreed k s)
  have hbits (j : Fin 21) : (keyFreed k s).pan.pressed.getLsbD j = (!decide (j = k) && s.pan.pressed.getLsbD j) ∧
      (keyFreed k s).pan.stuck.getLsbD j = (!decide (j = k) && s.pan.stuck.getLsbD j) :=
    ⟨setBit_clear s.pan.pressed k j, setBit_clear s.pan.stuck k j⟩
  have hshape : t = if s.pan.stuck.getLsbD k then
        sj 0xB21 0 (item k ++ item ((s.clk.opUs - sget 0 s.pan.pressUs k) / 1000000)) (keyFreed k s)
      else if keysDelivered s then deliverKey k false (keyFreed k s) else keyFreed k s := keyRelease_eq hawake hdown
  cases hstuck : s.pan.stuck.getLsbD k with
  | true =>
    rw [hstuck, if_pos rfl] at hshape
    have hbooked := Safety.sj_booked 0xB21 0 (item k ++ item ((s.clk.opUs - sget 0 s.pan.pressUs k) / 1000000)) (keyFreed k s)
    have hpan : t.pan = (keyFreed k s).pan := by rw [hshape, hbooked.frame]
    rw [hpan]
    refine ⟨by rw [hshape]; exact hfreed.books (Safety.Booked.mono hbooked (by decide)), hbits, rfl, rfl, rfl, fun _ => ⟨rfl, ?_, ?_⟩,
      fun h => absurd h.symm Bool.false_ne_true⟩
    · rw [hshape]
      exact hbooked.ringsKept 29 (by decide)
    · rw [hshape]
      exact Safety.journals_of_sj (u := keyFreed k s) List.prefix_rfl List.prefix_rfl
  | false =>
    rw [hstuck, if_neg Bool.false_ne_true] at hshape
    by_cases hto : keysDelivered s = true
    · rw [if_pos hto] at hshape
      obtain ⟨hbooked, hpan, hnoted⟩ := deliverKey_shows (s := s) k false (keyFreed k s) rfl rfl rfl hfreed
      rw [hshape, hpan]
      refine ⟨hbooked, hbits, rfl, rfl, rfl, fun h => absurd h Bool.false_ne_true, fun _ => ⟨fun _ _ => ⟨hnoted, fun j => ?_⟩, fun h => ?_⟩⟩
      · exact setBit_clear s.pan.delivered k j
      · obtain ⟨hopen, hnone⟩ := (keysDelivered_iff hawake).1 hto
        rcases h with h | h
        · exact absurd (hopen.symm.trans h) Bool.false_ne_true
        · exact absurd hnone h
    · rw [if_neg hto] at hshape
      rw [hshape]
      exact ⟨hfreed, hbits, rfl, rfl, rfl, fun h => absurd h Bool.false_ne_true, fun _ =>
        ⟨fun hopen hnone => absurd ((keysDelivered_iff hawake).2 ⟨hopen, hnone⟩) hto, fun _ => ⟨rfl, rfl⟩⟩⟩

/-- A key stuck (R417). -/
theorem keyStuck_shows (hawake : awake s = true) (hdown : s.pan.pressed.getLsbD k = true) (hfree : s.pan.stuck.getLsbD k = false) :
    let t := keyStuck k s
    Safety.Booked [2, 3] { s with pan := { s.pan with stuck := t.pan.stuck, delivered := t.pan.delivered } } t ∧
      Safety.journals 0xB20 2 (item k) s t ∧
      ∀ j : Fin 21, t.pan.stuck.getLsbD j = (decide (j = k) || s.pan.stuck.getLsbD j) ∧
        t.pan.delivered.getLsbD j = (!decide (j = k) && s.pan.delivered.getLsbD j) := by
  intro t
  let u : State := { s with pan := { s.pan with stuck := setBit s.pan.stuck k true, delivered := setBit s.pan.delivered k false } }
  have ht : t = sj 0xB20 2 (item k) u := by
    simp only [t]
    rw [keyStuck, if_neg (by rw [hawake, hdown, hfree]; decide)]
  have hbooked := Safety.sj_booked 0xB20 2 (item k) u
  rw [← ht] at hbooked
  have hpan : t.pan = u.pan := by rw [hbooked.frame]
  rw [hpan]
  refine ⟨hbooked, ?_, fun j => ⟨setBit_set s.pan.stuck k j, setBit_clear s.pan.delivered k j⟩⟩
  rw [ht]
  exact Safety.journals_of_sj (u := u) List.prefix_rfl List.prefix_rfl

/-- A step of the encoder (R419). -/
theorem encoderStep_shows (up : Bool) (hawake : awake s = true) (hopen : s.pan.locked = false) (hnone : s.pan.entry = none)
    (hlow : -32767 ≤ s.pan.enc) (hhigh : s.pan.enc ≤ 32767) :
    let t := encoderStep up s
    Safety.Booked [29, 2, 3] { s with pan := { s.pan with enc := t.pan.enc, lastActUs := s.clk.opUs } } t ∧
      t.pan.enc = (if up then (if s.pan.enc = 32767 then 32767 else s.pan.enc + 1)
        else (if s.pan.enc = -32767 then -32767 else s.pan.enc - 1)) ∧
      keyNoted 31 false t.pan.enc s t := by
  intro t
  let n : Int := if up then min 32767 (s.pan.enc + 1) else max (-32767) (s.pan.enc - 1)
  let u : State := { s with pan := { s.pan with enc := n, lastActUs := s.clk.opUs } }
  have ht : t = keyEvent 31 false u := if_pos ((keysDelivered_iff hawake).2 ⟨hopen, hnone⟩)
  have hbooked := keyEvent_booked 31 false u
  have hnoted := keyEvent_noted (u := u) (s := s) 31 false rfl rfl rfl
  rw [← ht] at hbooked hnoted
  have hpan : t.pan = u.pan := by rw [hbooked.frame]
  rw [hpan]
  refine ⟨hbooked, ?_, hnoted⟩
  cases up with
  | true =>
    change min 32767 (s.pan.enc + 1) = _
    rw [if_pos rfl]
    split <;> omega
  | false =>
    change max (-32767) (s.pan.enc - 1) = _
    rw [if_neg Bool.false_ne_true]
    split <;> omega

theorem inactivityLock_some {r : MouldRest} (h : restOf s = some r) : inactivityLock s =
    if awake s ∧ r.panel.lockS ≠ 0 ∧ !s.pan.locked then
      { lockPanel 1 s with pan := { (lockPanel 1 s).pan with entry := s.pan.entry } }
    else s := by
  rw [inactivityLock, h]

theorem inactivityLock_none (h : restOf s = none) : inactivityLock s = s := by
  rw [inactivityLock, h]

/-- The lock by inactivity (R420). -/
theorem inactivityLock_locks {r : MouldRest} (h : restOf s = some r) (hawake : awake s = true) (hlock : r.panel.lockS ≠ 0)
    (hopen : s.pan.locked = false) :
    Safety.Booked [2, 3] { s with pan := { s.pan with locked := true, delivered := 0 } } (inactivityLock s) := by
  rw [inactivityLock_some h, if_pos ⟨hawake, hlock, by rw [hopen]; rfl⟩]
  have hbooked := Safety.tr_booked 0xB11 0 (item 1) { s with pan := { s.pan with locked := true, entry := none, delivered := 0 } }
  have hpan : (lockPanel 1 s).pan = { s.pan with locked := true, entry := none, delivered := 0 } := by
    rw [lockPanel, hbooked.frame]
  rw [hpan]
  exact Safety.Booked.withPan hbooked { s.pan with locked := true, delivered := 0 }

/-- An entry that times out (R421). -/
theorem hurdleTimeout_of_keys (hawake : awake s = true) {a : Nat} {ks : List Nat} (h : s.pan.entry = some (a :: ks)) :
    hurdleTimeout s = entryFails 1 (ks.length + 1) s := by
  unfold hurdleTimeout
  split
  next b js heq =>
    rw [h, Option.some_inj, List.cons.injEq] at heq
    rw [if_pos hawake, heq.2]
  next hno => exact absurd h (hno a ks)

theorem hurdleTimeout_of_none (h : s.pan.entry = none ∨ s.pan.entry = some []) : hurdleTimeout s = s := by
  unfold hurdleTimeout
  split
  next b js heq => rcases h with h | h <;> rw [h] at heq <;> cases heq
  next => rfl

/-- K00 and K04 are held where there is nothing to judge (R423). -/
def heldBare (s : State) : Prop :=
  serviceSequence s = none ∧ s.pan.pressed.getLsbD 0 = true ∧ s.pan.pressed.getLsbD 4 = true ∧ s.mgt.svcOpen = false

theorem svcHeldKeys_shows (hawake : awake s = true) :
    (¬ heldBare s → svcHeldKeys s = s) ∧
    (heldBare s → Safety.Booked [2, 3] { s with mgt := { s.mgt with svcOpen := true, svcLastUs := s.clk.opUs } } (svcHeldKeys s) ∧
      Safety.journals 0xB10 0 (item 2) s (svcHeldKeys s)) := by
  have hiff : (awake s = true ∧ (serviceSequence s).isNone = true ∧ s.pan.pressed.getLsbD 0 = true ∧ s.pan.pressed.getLsbD 4 = true ∧
      (!s.mgt.svcOpen) = true) ↔ heldBare s := by
    simp only [heldBare, hawake, true_and, Option.isNone_iff_eq_none, Bool.not_eq_true']
  refine ⟨fun hnot => if_neg fun h => hnot (hiff.1 h), fun hbare => ?_⟩
  have hshut : s.mgt.svcOpen = false := by
    obtain ⟨-, -, -, h⟩ := hbare
    exact h
  let v : State := drawn (sj 0xB10 0 (item 2) s)
  have hv : Safety.Booked [2, 3] s v := (Safety.sj_booked ..).trans (Safety.drawn_booked _ _)
  have hmgt : v.mgt = s.mgt := by rw [hv.frame]
  have hop : v.clk.opUs = s.clk.opUs := by rw [hv.frame]
  let w : State := { v with mgt := { v.mgt with svcOpen := true, svcLastUs := v.clk.opUs } }
  have hw : Safety.Booked [2, 3] { s with mgt := { s.mgt with svcOpen := true, svcLastUs := s.clk.opUs } } w := by
    have h := Safety.Booked.withMgt hv { s.mgt with svcOpen := true, svcLastUs := s.clk.opUs }
    rw [← hmgt, ← hop] at h ⊢
    exact h
  have ht : svcHeldKeys s = sj 0x920 0 (item (freeWord (sj 0xB10 0 (item 2) s)).toNat) w :=
    (if_pos (hiff.2 hbare)).trans (openSvc_of_shut (s := v) (by rw [hmgt]; exact hshut) _)
  have htb := Safety.sj_booked 0x920 0 (item (freeWord (sj 0xB10 0 (item 2) s)).toNat) w
  rw [ht]
  refine ⟨hw.trans htb, Safety.journals_mono ?_ htb.sjKept⟩
  exact Safety.journals_of_sj (u := s) List.prefix_rfl List.prefix_rfl

end

theorem keyPart_same {p q : Panel} (h : keyPart p = keyPart q) :
    p.pressed = q.pressed ∧ p.raw = q.raw ∧ p.stuck = q.stuck ∧ p.enc = q.enc := by
  have hpressed := congrArg Panel.pressed h
  have hraw := congrArg Panel.raw h
  have hstuck := congrArg Panel.stuck h
  have henc := congrArg Panel.enc h
  exact ⟨hpressed, hraw, hstuck, henc⟩

/-- Settles O59: RTC_SECOND is the calendar's step and the alarm's; each key command is one function of the panel, told by what stands
before it. -/
theorem clockAndPanel : Obligations.ClockAndPanel := by
  refine ⟨fun mv s hok => ?clock, fun k up s => ⟨fun hasleep => ?asleep, fun hawake => ?panel⟩⟩
  case clock =>
    intro now last agrees matched waking
    refine ⟨?second, fun hset => ?stopped, fun hclear => ⟨fun hoff => ?stopsOff, fun hon => ?stops⟩, ?battery⟩
    case second =>
      obtain ⟨hsec, hvalid, hnotLast, hlast, hweek, halarm, hen, hunmatched, hmatched, hbooked⟩ := rtcSecond_shows hok
      refine ⟨rtcSecond s, rfl, hsec, hvalid, hnotLast, hlast, hweek, halarm, hen, hunmatched, fun hm => ?_, hbooked⟩
      obtain ⟨hquiet, harmed⟩ := hmatched hm
      refine ⟨hquiet, fun hena => ?_⟩
      obtain ⟨hpwr, hsleep, hoff, hwake⟩ := harmed hena
      refine ⟨hpwr, hsleep, hoff, fun hup => ?_⟩
      obtain ⟨hhit, hat, hnotAt⟩ := hwake hup
      refine ⟨hhit, ?_⟩
      by_cases hi : wakeInstant s
      · rw [hat hi]
        exact (if_pos hi).symm
      · rw [hnotAt hi]
        exact (if_neg hi).symm
    case stopped => exact congrArg Host.Outcome.next (setOsf_of_set hset)
    case stopsOff =>
      have hpow : ¬ powered { s with rtc := { s.rtc with osf := true } } = true := by simp [powered, hoff]
      refine congrArg Host.Outcome.next ((setOsf_of_clear hclear).trans ?_)
      rw [rtcNote, if_neg hpow]
    case stops =>
      have hpow : powered { s with rtc := { s.rtc with osf := true } } = true := decide_eq_true hon
      have hset : setOsf 1 s = sj 0xB02 2 (item 1) { s with rtc := { s.rtc with osf := true } } :=
        (setOsf_of_clear hclear).trans (by rw [rtcNote, if_pos hpow, rtcRecord])
      refine ⟨setOsf 1 s, rfl, ?_⟩
      rw [hset]
      exact ⟨Safety.sj_booked .., Safety.journals_of_sj (u := { s with rtc := { s.rtc with osf := true } }) List.prefix_rfl List.prefix_rfl⟩
    case battery =>
      obtain ⟨hbooked, hlbv, hlow, hoff, hon⟩ := batMeasure_shows mv s
      exact ⟨batMeasure mv s, rfl, hbooked, hlbv, hlow, hoff, hon⟩
  case asleep =>
    have hnot : ¬ (awake s = true) := by rw [hasleep]; exact Bool.false_ne_true
    have hdelivered : keysDelivered s = false := by simp [keysDelivered, hasleep]
    intro c hc
    simp only [List.mem_cons, List.not_mem_nil, or_false] at hc
    rcases hc with rfl | rfl | rfl | rfl | rfl | rfl | rfl
    · exact congrArg Host.Outcome.next (if_pos (.inl (by rw [hasleep]; rfl)))
    · exact congrArg Host.Outcome.next (if_pos (.inl (by rw [hasleep]; rfl)))
    · exact congrArg Host.Outcome.next (if_pos (.inl (by rw [hasleep]; rfl)))
    · exact congrArg Host.Outcome.next (if_neg (by rw [hdelivered]; exact Bool.false_ne_true))
    · refine congrArg Host.Outcome.next ?_
      cases hrest : restOf s with
      | none => exact inactivityLock_none hrest
      | some r => rw [inactivityLock_some hrest, if_neg fun h => hnot h.1]
    · refine congrArg Host.Outcome.next ?_
      unfold hurdleTimeout
      split
      · rw [if_neg hnot]
      · rfl
    · exact congrArg Host.Outcome.next (if_neg fun h => hnot h.1)
  case panel =>
    intro judged service user mayOpen open29 event onlyPanel wrong
    have hmay : entryMayOpen s = true ↔ mayOpen := entryMayOpen_iff s
    refine ⟨fun hdown => ?held, fun hup => ?press, fun hup => ?notPressed, fun hdown => ?release, fun hdown hstuck => ?stuckAlready,
      fun hdown hfree => ?sticks, fun hbarred => ?encoderBarred, fun hopen hnone hlow hhigh => ?encoder, fun r hr => ⟨fun hoff => ?lockOff, fun hlock hopen => ?locks⟩,
      fun hnone => ?noPanel, fun hnone => ?noEntry, fun a ks hentry => ?timeout, ?heldKeys⟩
    case held => exact congrArg Host.Outcome.next (if_pos (.inr hdown))
    case press =>
      obtain ⟨hpressed, hraw, hstuck, henc⟩ := keyPart_same (keyPress_keeps hawake hup)
      refine ⟨keyPress k s, rfl, fun j => ?bits, hstuck, henc,
        fun hnone => ⟨fun hopen hk => ?delivered, fun hopen hk => ?push, fun hlocked => ?locked⟩, fun ks hentry => ?entry⟩
      case bits =>
        rw [hpressed, hraw]
        exact ⟨setBit_set s.pan.pressed k j, setBit_set s.pan.raw k j⟩
      case delivered =>
        obtain ⟨hbooked, hnoted, hkey, -⟩ := keyPress_unlocked hawake hup hnone hopen
        obtain ⟨hentry, hact, hbits⟩ := hkey hk
        exact ⟨hbooked, hentry, hact, hnoted, hbits⟩
      case push =>
        obtain ⟨hbooked, hnoted, -, hpush⟩ := keyPress_unlocked hawake hup hnone hopen
        obtain ⟨hopens, hwaits⟩ := hpush hk
        rw [hmay] at hopens hwaits
        exact ⟨hbooked, hk ▸ hnoted, hopens, hwaits⟩
      case locked =>
        obtain ⟨hbooked, hopens, hstays⟩ := keyPress_locked hawake hup hnone hlocked
        rw [hmay] at hopens hstays
        exact ⟨hbooked, hopens, hstays⟩
      case entry =>
        obtain ⟨hdel, hrecord, hempty, hjudge⟩ := keyPress_entry hawake hup hentry
        refine ⟨hdel, hrecord, hempty, fun hk hkeys => ?_⟩
        have hshape := hjudge hk hkeys
        have hservice : servicePasses ks s = true ↔ service ks := servicePasses_iff ks s
        have huser : userPasses ks s = true ↔ user ks := userPasses_iff ks s
        have hsome (hu : user ks) : (restOf s).isNone = false := by
          obtain ⟨r, hr, -⟩ := hu
          rw [hr]
          rfl
        rw [hshape]
        refine ⟨fun hs => ?_, fun hu => ?_, fun hu hs => ?_, fun hs hu => ?_⟩
        · rw [if_pos (hservice.2 hs)]
          obtain ⟨hpan, hj, -, hsvc⟩ := entrySucceeds_shows true (debounced k true s)
          obtain ⟨hsvcOpen, hsvcJ⟩ := hsvc rfl
          rw [hpan]
          exact ⟨rfl, rfl, hsvcOpen, hj, rfl, hsvcJ⟩
        · have hlock (service : Bool) : (entrySucceeds service (debounced k true s)).pan.entry = none ∧
              (entrySucceeds service (debounced k true s)).pan.wrong = 0 ∧ (entrySucceeds service (debounced k true s)).pan.locked = false := by
            rw [(entrySucceeds_shows service (debounced k true s)).1]
            refine ⟨rfl, rfl, ?_⟩
            change (s.pan.locked && (restOf s).isNone) = false
            rw [hsome hu, Bool.and_false]
          split_ifs with h1 h2
          · exact hlock true
          · exact hlock false
          · exact absurd (huser.2 hu) h2
        · rw [if_neg fun h => hs (hservice.1 h), if_pos (huser.2 hu)]
          obtain ⟨-, hj, hmgt, -⟩ := entrySucceeds_shows false (debounced k true s)
          exact ⟨hmgt rfl, hj⟩
        · rw [if_neg fun h => hs (hservice.1 h), if_neg fun h => hu (huser.1 h)]
          obtain ⟨hbooked, -, -, hentry', hlock', hmgt, hj, hfew, hmany⟩ := entryFails_shows 0 ks.length (debounced k true s)
          exact ⟨hbooked, hentry', hlock', hmgt, hj, hfew, hmany⟩
    case notPressed =>
      have hshut : (!s.pan.pressed.getLsbD k) = true := by rw [hup]; rfl
      exact ⟨congrArg Host.Outcome.next (if_pos (.inr hshut)), congrArg Host.Outcome.next (if_pos (.inr (.inl hshut)))⟩
    case release => exact ⟨keyRelease k s, rfl, keyRelease_shows hawake hdown⟩
    case stuckAlready => exact congrArg Host.Outcome.next (if_pos (.inr (.inr hstuck)))
    case sticks => exact ⟨keyStuck k s, rfl, keyStuck_shows hawake hdown hfree⟩
    case encoderBarred =>
      refine congrArg Host.Outcome.next (if_neg fun h => ?_)
      obtain ⟨hopen, hnone⟩ := (keysDelivered_iff hawake).1 h
      rcases hbarred with hb | hb
      · exact Bool.false_ne_true (hopen.symm.trans hb)
      · exact hb hnone
    case encoder => exact ⟨encoderStep up s, rfl, encoderStep_shows up hawake hopen hnone hlow hhigh⟩
    case lockOff =>
      refine congrArg Host.Outcome.next ((inactivityLock_some hr).trans (if_neg ?_))
      rintro ⟨-, hlock, hopen⟩
      rcases hoff with h | h
      · exact hlock h
      · rw [h] at hopen
        exact Bool.false_ne_true hopen
    case locks => exact ⟨inactivityLock s, rfl, inactivityLock_locks hr hawake hlock hopen⟩
    case noPanel => exact congrArg Host.Outcome.next (inactivityLock_none hnone)
    case noEntry => exact congrArg Host.Outcome.next (hurdleTimeout_of_none hnone)
    case timeout =>
      obtain ⟨hbooked, -, -, hentry', hlock', hmgt, hj, hfew, hmany⟩ := entryFails_shows 1 (ks.length + 1) s
      exact ⟨_, congrArg Host.Outcome.next (hurdleTimeout_of_keys hawake hentry), hbooked, hentry', hlock', hmgt, hj, hfew, hmany⟩
    case heldKeys =>
      intro bare
      obtain ⟨hnot, hbare⟩ := svcHeldKeys_shows hawake
      exact ⟨fun h => congrArg Host.Outcome.next (hnot h), fun h => ⟨svcHeldKeys s, rfl, hbare h⟩⟩

end
end Sys2Proof.Machine
end

section
/-! SUPPORT. REAL32 words of whole numbers: how they are formed, and what they hold (R183). -/

namespace Sys2Proof.Machine

section
set_option Elab.async false

/-! ### The number of bits -/

theorem bitLen_iff {n L : Nat} (hn : n ≠ 0) : bitLen n = L + 1 ↔ 2 ^ L ≤ n ∧ n < 2 ^ (L + 1) := by
  rw [bitLen, if_neg hn, Nat.add_right_cancel_iff, Nat.log2_eq_iff hn]

theorem bitLen_bounds {n : Nat} (hn : n ≠ 0) : ∃ L, bitLen n = L + 1 ∧ 2 ^ L ≤ n ∧ n < 2 ^ (L + 1) :=
  ⟨n.log2, if_neg hn, (bitLen_iff hn).1 (if_neg hn)⟩

theorem bitLen_shift {n : Nat} (hn : n ≠ 0) (k : Nat) : bitLen (n * 2 ^ k) = bitLen n + k := by
  obtain ⟨L, hlen, hlow, hhigh⟩ := bitLen_bounds hn
  have hpos : 0 < 2 ^ k := Nat.two_pow_pos k
  rw [hlen, show L + 1 + k = (L + k) + 1 by omega, bitLen_iff (by positivity), Nat.pow_add, show L + k + 1 = (L + 1) + k by omega, Nat.pow_add]
  exact ⟨Nat.mul_le_mul_right _ hlow, Nat.mul_lt_mul_of_pos_right hhigh hpos⟩

/-! ### The word of a whole number of at most 24 bits -/

/-- The mantissa that holds a whole number. -/
def wholeMant (v : Nat) : Nat := v * 2 ^ 24 / 2 ^ bitLen v

/-- The word that holds a whole number. -/
def wholeWord (neg : Bool) (v : Nat) : Word :=
  BitVec.ofNat 32 ((bitLen v + 125) * 2 ^ 23 + wholeMant v + if neg then 2 ^ 31 else 0)

section
variable {v : Nat} (hpos : v ≠ 0) (hmax : v ≤ 2 ^ 24)
include hpos hmax

theorem bitLen_whole : 1 ≤ bitLen v ∧ bitLen v ≤ 25 ∧ (v < 2 ^ 24 → bitLen v ≤ 24) := by
  obtain ⟨L, hlen, hlow, hhigh⟩ := bitLen_bounds hpos
  have hle (a : Nat) (h : v < 2 ^ a) : L < a := (Nat.pow_lt_pow_iff_right (by decide : 1 < 2)).1 (lt_of_le_of_lt hlow h)
  have h25 := hle 25 (by omega)
  exact ⟨by omega, by omega, fun h => by have := hle 24 h; omega⟩

theorem wholeMant_exact : wholeMant v * 2 ^ bitLen v = v * 2 ^ 24 ∧ 2 ^ 23 ≤ wholeMant v ∧ wholeMant v < 2 ^ 24 := by
  obtain ⟨L, hlen, hlow, hhigh⟩ := bitLen_bounds hpos
  obtain ⟨-, h25, h24⟩ := bitLen_whole hpos hmax
  have hdvd : 2 ^ bitLen v ∣ v * 2 ^ 24 := by
    by_cases hsmall : v < 2 ^ 24
    · exact Dvd.dvd.mul_left (Nat.pow_dvd_pow 2 (h24 hsmall)) v
    · have hv : v = 2 ^ 24 := by omega
      rw [hv, ← Nat.pow_add]
      rw [hv] at h25
      exact Nat.pow_dvd_pow 2 (by omega)
  have hexact : wholeMant v * 2 ^ bitLen v = v * 2 ^ 24 := Nat.div_mul_cancel hdvd
  have hp : 0 < 2 ^ L := Nat.two_pow_pos L
  rw [hlen, Nat.pow_succ] at hexact
  rw [Nat.pow_succ] at hhigh
  refine ⟨by rw [hlen, Nat.pow_succ]; exact hexact, ?_, ?_⟩
  · by_contra hlt
    have := Nat.mul_le_mul_right (2 ^ L) (show wholeMant v + 1 ≤ 2 ^ 23 by omega)
    nlinarith
  · by_contra hge
    have := Nat.mul_le_mul_right (2 ^ L) (show 2 ^ 24 ≤ wholeMant v by omega)
    nlinarith

/-- A whole number, however its mantissa is scaled, is rounded to its word. -/
theorem realRound_whole (neg : Bool) (k : Nat) : realRound neg (v * 2 ^ k) (-(k : Int)) false = wholeWord neg v := by
  obtain ⟨hone, h25, -⟩ := bitLen_whole hpos hmax
  obtain ⟨hexact, hlow, hhigh⟩ := wholeMant_exact hpos hmax
  have hne : v * 2 ^ k ≠ 0 := by positivity
  have hlen := bitLen_shift hpos k
  have hq : max (-(k : Int) + (bitLen (v * 2 ^ k) : Int) - 24) (-149) = (bitLen v : Int) - 24 := by
    rw [hlen]
    push_cast
    omega
  have hfield : ((bitLen v : Int) - 24 + 149).toNat = bitLen v + 125 := by omega
  have hmant : (if (bitLen v : Int) - 24 - -(k : Int) ≤ 0 then v * 2 ^ k * 2 ^ (-((bitLen v : Int) - 24 - -(k : Int))).toNat
      else
        if v * 2 ^ k % 2 ^ ((bitLen v : Int) - 24 - -(k : Int)).toNat > 2 ^ (((bitLen v : Int) - 24 - -(k : Int)).toNat - 1) ∨
            (v * 2 ^ k % 2 ^ ((bitLen v : Int) - 24 - -(k : Int)).toNat = 2 ^ (((bitLen v : Int) - 24 - -(k : Int)).toNat - 1) ∧
              (false = true ∨ v * 2 ^ k / 2 ^ ((bitLen v : Int) - 24 - -(k : Int)).toNat % 2 = 1))
        then v * 2 ^ k / 2 ^ ((bitLen v : Int) - 24 - -(k : Int)).toNat + 1
        else v * 2 ^ k / 2 ^ ((bitLen v : Int) - 24 - -(k : Int)).toNat) = wholeMant v := by
    split
    next hle =>
      have hj : (-((bitLen v : Int) - 24 - -(k : Int))).toNat = 24 - bitLen v - k := by omega
      have hsum : k + (24 - bitLen v - k) + bitLen v = 24 := by omega
      rw [hj, Nat.mul_assoc, ← Nat.pow_add]
      apply Nat.eq_of_mul_eq_mul_right (Nat.two_pow_pos (bitLen v))
      rw [hexact, Nat.mul_assoc, ← Nat.pow_add, hsum]
    next hgt =>
      obtain ⟨j, hj⟩ : ∃ j, ((bitLen v : Int) - 24 - -(k : Int)).toNat = j + 1 := ⟨bitLen v + k - 25, by omega⟩
      have hsum : j + 1 + 24 = bitLen v + k := by omega
      rw [hj]
      have hscaled : v * 2 ^ k = wholeMant v * 2 ^ (j + 1) := by
        apply Nat.eq_of_mul_eq_mul_right (Nat.two_pow_pos 24)
        rw [Nat.mul_assoc (wholeMant v), ← Nat.pow_add, hsum, Nat.pow_add, ← Nat.mul_assoc, hexact]
        ring
      have hhalf : 0 < 2 ^ (j + 1 - 1) := Nat.two_pow_pos _
      rw [hscaled, Nat.mul_mod_left, Nat.mul_div_cancel _ (Nat.two_pow_pos _), if_neg (by omega)]
  unfold realRound
  rw [if_neg hne]
  dsimp only
  rw [hq, hfield]
  have hm : ∀ m, m = wholeMant v → (if (if m < 2 ^ 23 then m else (bitLen v + 125) * 2 ^ 23 + m) ≥ 0x7F800000 then realInf neg
      else BitVec.ofNat 32 ((if m < 2 ^ 23 then m else (bitLen v + 125) * 2 ^ 23 + m) + (if neg then 2 ^ 31 else 0))) = wholeWord neg v := by
    rintro m rfl
    rw [if_neg (by omega : ¬ wholeMant v < 2 ^ 23), if_neg (by omega)]
    rfl
  exact hm _ hmant

end

/-! ### What a word holds -/

theorem getLsbD_top (w : Word) : w.getLsbD 31 = decide (2 ^ 31 ≤ w.toNat) := by
  have h := w.isLt
  rw [BitVec.getLsbD, Nat.testBit_eq_decide_div_mod_eq]
  congr 1
  apply propext
  omega

theorem realOf_of_parts {w : Word} {neg : Bool} {e m : Nat} (hneg : w.getLsbD 31 = neg) (hexp : w.toNat / 2 ^ 23 % 256 = e)
    (hmant : w.toNat % 2 ^ 23 = m) : realOf w = if e = 255 then (if m = 0 then .inf neg else .nan)
      else if e = 0 then .fin neg m (-149) else .fin neg (m + 2 ^ 23) ((e : Int) - 150) := by
  subst hneg hexp hmant
  rfl

theorem realOf_whole {v : Nat} (hpos : v ≠ 0) (hmax : v ≤ 2 ^ 24) (neg : Bool) :
    realOf (wholeWord neg v) = .fin neg (wholeMant v) ((bitLen v : Int) - 24) := by
  obtain ⟨hone, h25, -⟩ := bitLen_whole hpos hmax
  obtain ⟨-, hlow, hhigh⟩ := wholeMant_exact hpos hmax
  have hnat : (wholeWord neg v).toNat = (bitLen v + 125) * 2 ^ 23 + wholeMant v + if neg then 2 ^ 31 else 0 := by
    rw [wholeWord, BitVec.toNat_ofNat]
    apply Nat.mod_eq_of_lt
    split <;> omega
  have hneg : (wholeWord neg v).getLsbD 31 = neg := by
    rw [getLsbD_top, hnat]
    cases neg with
    | true => exact decide_eq_true (by rw [if_pos rfl]; omega)
    | false => exact decide_eq_false (by rw [if_neg Bool.false_ne_true]; omega)
  have hexp : (wholeWord neg v).toNat / 2 ^ 23 % 256 = bitLen v + 126 := by
    rw [hnat]
    split <;> omega
  have hmant : (wholeWord neg v).toNat % 2 ^ 23 = wholeMant v - 2 ^ 23 := by
    rw [hnat]
    split <;> omega
  have hparts := realOf_of_parts hneg hexp hmant
  have hexponent : ((bitLen v + 126 : Nat) : Int) - 150 = (bitLen v : Int) - 24 := by omega
  rw [if_neg (by omega), if_neg (by omega), Nat.sub_add_cancel hlow, hexponent] at hparts
  exact hparts

/-- The parts with the other sign. -/
def realFlip : Real32 → Real32
  | .nan => .nan
  | .inf neg => .inf (!neg)
  | .fin neg m e => .fin (!neg) m e

/-- The sign bit alone turns the sign. -/
theorem realOf_xor (w : Word) : realOf (w ^^^ 0x80000000) = realFlip (realOf w) := by
  have hmant : (w ^^^ 0x80000000).toNat % 2 ^ 23 = w.toNat % 2 ^ 23 := by
    have h : (w ^^^ 0x80000000).extractLsb' 0 23 = w.extractLsb' 0 23 := by
      rw [BitVec.extractLsb'_xor, show (0x80000000 : Word).extractLsb' 0 23 = 0#23 by decide, BitVec.xor_zero]
    simpa using congrArg BitVec.toNat h
  have hexp : (w ^^^ 0x80000000).toNat / 2 ^ 23 % 256 = w.toNat / 2 ^ 23 % 256 := by
    have h : (w ^^^ 0x80000000).extractLsb' 23 8 = w.extractLsb' 23 8 := by
      rw [BitVec.extractLsb'_xor, show (0x80000000 : Word).extractLsb' 23 8 = 0#8 by decide, BitVec.xor_zero]
    have hn := congrArg BitVec.toNat h
    rwa [BitVec.extractLsb'_toNat, BitVec.extractLsb'_toNat, Nat.shiftRight_eq_div_pow, Nat.shiftRight_eq_div_pow] at hn
  have hneg : (w ^^^ 0x80000000).getLsbD 31 = !w.getLsbD 31 := by
    rw [BitVec.getLsbD_xor]
    simp
  rw [realOf_of_parts hneg hexp hmant, realOf_of_parts rfl rfl rfl]
  split_ifs <;> rfl

end
end Sys2Proof.Machine
end

section
/-! SUPPORT. REAL32 arithmetic on whole numbers (R183, R184). -/

namespace Sys2Proof.Machine

section
set_option Elab.async false

/-- The word of a whole number. -/
def wholeReal (x : Int) : Word := realOfInt x 0 false

theorem wholeReal_zero : wholeReal 0 = 0 := rfl

section
variable {x y : Int}

theorem wholeReal_of_ne (hne : x ≠ 0) (hmax : x.natAbs ≤ 16777216) : wholeReal x = wholeWord (decide (x < 0)) x.natAbs := by
  have h := realRound_whole (v := x.natAbs) (by omega) (by omega) (decide (x < 0)) 0
  rw [Nat.pow_zero, Nat.mul_one] at h
  rw [wholeReal, realOfInt, if_neg hne]
  exact h

/-- A sum of scaled mantissas that makes a whole number is rounded to its word. -/
theorem realOfInt_scaled {v g : Int} {negZero : Bool} (hmax : x.natAbs ≤ 16777216) (hv : v = x * 2 ^ (-g).toNat) (hg : g ≤ 0)
    (hzero : x = 0 → negZero = false) : realOfInt v g negZero = wholeReal x := by
  by_cases hx : x = 0
  · rw [hx, Int.zero_mul] at hv
    rw [hx, hv, hzero hx, wholeReal, realOfInt, if_pos rfl, realOfInt, if_pos rfl]
  · have hpow : (0 : Int) < 2 ^ (-g).toNat := by positivity
    have hne : v ≠ 0 := by rw [hv]; exact mul_ne_zero hx (ne_of_gt hpow)
    have hsign : decide (v < 0) = decide (x < 0) := by
      rw [hv, decide_eq_decide]
      exact ⟨fun h => by_contra fun hn => absurd h (not_lt.2 (mul_nonneg (not_lt.1 hn) hpow.le)), fun h => mul_neg_of_neg_of_pos h hpow⟩
    have habs : v.natAbs = x.natAbs * 2 ^ (-g).toNat := by
      rw [hv, Int.natAbs_mul, Int.natAbs_pow]
      rfl
    have hexp : g = -((-g).toNat : Int) := by omega
    rw [wholeReal_of_ne hx hmax, realOfInt, if_neg hne, hsign, habs]
    conv_lhs => rw [hexp]
    rw [Int.neg_neg, Int.toNat_natCast]
    exact realRound_whole (by omega) (by omega) _ _

/-- A word that holds a whole number: mantissa and exponent are this number's. -/
structure Holds (w : Word) (x : Int) (neg : Bool) (m : Nat) (e : Int) : Prop where
  parts : realOf w = .fin neg m e
  value : m * 2 ^ (e + 149).toNat = x.natAbs * 2 ^ 149
  sign : x ≠ 0 → neg = decide (x < 0)
  least : -149 ≤ e
  most : e ≤ 1
  small : x.natAbs < 16777216 → e ≤ 0
  narrow : m < 2 ^ 24

theorem holds_zero (neg : Bool) {w : Word} (h : realOf w = .fin neg 0 (-149)) : Holds w 0 neg 0 (-149) :=
  ⟨h, by simp, fun h => absurd rfl h, by decide, by decide, fun _ => by decide, by decide⟩

theorem holds_whole (hne : x ≠ 0) (hmax : x.natAbs ≤ 16777216) :
    Holds (wholeReal x) x (decide (x < 0)) (wholeMant x.natAbs) ((bitLen x.natAbs : Int) - 24) := by
  have hpos : x.natAbs ≠ 0 := by omega
  have hle : x.natAbs ≤ 2 ^ 24 := by omega
  obtain ⟨hone, h25, h24⟩ := bitLen_whole hpos hle
  obtain ⟨hexact, -, hhigh⟩ := wholeMant_exact hpos hle
  refine ⟨by rw [wholeReal_of_ne hne hmax, realOf_whole hpos hle], ?_, fun _ => rfl, by omega, by omega, fun h => ?_, hhigh⟩
  · rw [show ((bitLen x.natAbs : Int) - 24 + 149).toNat = bitLen x.natAbs + 125 by omega, Nat.pow_add, ← Nat.mul_assoc, hexact,
      Nat.mul_assoc, ← Nat.pow_add]
  · have := h24 (by omega)
    omega

/-- Every whole number of at most 24 bits has its word. -/
theorem exists_holds (hmax : x.natAbs ≤ 16777216) : ∃ m e, Holds (wholeReal x) x (decide (x < 0)) m e := by
  by_cases hx : x = 0
  · subst hx
    exact ⟨0, -149, holds_zero false rfl⟩
  · exact ⟨_, _, holds_whole hx hmax⟩

/-- With the sign turned it holds the opposite. -/
theorem Holds.turned {w : Word} {neg : Bool} {m : Nat} {e : Int} (h : Holds w x neg m e) : Holds (w ^^^ 0x80000000) (-x) (!neg) m e := by
  refine ⟨by rw [realOf_xor, h.parts, realFlip], by rw [Int.natAbs_neg]; exact h.value, fun hne => ?_, h.least, h.most, fun hs => h.small (by rwa [Int.natAbs_neg] at hs), h.narrow⟩
  rw [h.sign (by omega)]
  by_cases hx : x < 0
  · rw [decide_eq_true hx, decide_eq_false (by omega)]
    rfl
  · rw [decide_eq_false hx, decide_eq_true (by omega)]
    rfl

/-- The signed mantissa, in units of the least exponent. -/
theorem Holds.signed {w : Word} {neg : Bool} {m : Nat} {e : Int} (h : Holds w x neg m e) :
    realInt neg m * 2 ^ (e + 149).toNat = x * 2 ^ 149 := by
  have hvalue : ((m * 2 ^ (e + 149).toNat : Nat) : Int) = ((x.natAbs * 2 ^ 149 : Nat) : Int) := by rw [h.value]
  push_cast at hvalue
  by_cases hx : x = 0
  · subst hx
    have hm : m = 0 := by
      have := h.value
      simpa using this
    subst hm
    cases neg <;> simp [realInt]
  · rw [h.sign hx]
    by_cases hlt : x < 0
    · rw [realInt, if_pos (decide_eq_true hlt), neg_mul, hvalue, abs_of_neg hlt]
      ring
    · rw [realInt, if_neg (by simpa using hlt), hvalue, abs_of_nonneg (by omega)]
      norm_num

/-! ### Sums and differences -/

theorem realAdd_holds {a b : Word} {sx sy : Bool} {m n : Nat} {e f : Int} (ha : Holds a x sx m e) (hb : Holds b y sy n f)
    (hmax : x.natAbs + y.natAbs ≤ 16777216) (hzero : x + y = 0 → (sx && sy) = false) : realAdd a b = wholeReal (x + y) := by
  have hsum : (x + y).natAbs ≤ 16777216 := by omega
  have hg : min e f ≤ 0 := by
    by_contra hpos
    have hx : ¬ x.natAbs < 16777216 := fun h => by have := ha.small h; omega
    have hy : ¬ y.natAbs < 16777216 := fun h => by have := hb.small h; omega
    omega
  have hlow : -149 ≤ min e f := le_min ha.least hb.least
  have heq : realAdd a b = realOfInt (realInt sx m * 2 ^ (e - min e f).toNat + realInt sy n * 2 ^ (f - min e f).toNat) (min e f) (sx && sy) := by
    rw [realAdd, ha.parts, hb.parts]
  generalize hgdef : min e f = g at *
  have hge : g ≤ e := hgdef ▸ min_le_left e f
  have hgf : g ≤ f := hgdef ▸ min_le_right e f
  rw [heq]
  refine realOfInt_scaled hsum ?_ hg hzero
  have hpow : (0 : Int) < 2 ^ (g + 149).toNat := by positivity
  apply mul_right_cancel₀ (ne_of_gt hpow)
  have he : (e - g).toNat + (g + 149).toNat = (e + 149).toNat := by omega
  have hf : (f - g).toNat + (g + 149).toNat = (f + 149).toNat := by omega
  have h149 : (-g).toNat + (g + 149).toNat = 149 := by omega
  rw [add_mul, mul_assoc, mul_assoc, ← pow_add, ← pow_add, he, hf, ha.signed, hb.signed, mul_assoc, ← pow_add, h149]
  ring

theorem realAdd_whole (hmax : x.natAbs + y.natAbs ≤ 16777216) : realAdd (wholeReal x) (wholeReal y) = wholeReal (x + y) := by
  obtain ⟨m, e, ha⟩ := exists_holds (x := x) (by omega)
  obtain ⟨n, f, hb⟩ := exists_holds (x := y) (by omega)
  refine realAdd_holds ha hb hmax fun h => ?_
  by_cases hx : x < 0
  · rw [decide_eq_false (show ¬ y < 0 by omega), Bool.and_false]
  · rw [decide_eq_false hx, Bool.false_and]

theorem realSub_of_number {a b : Word} (hb : realOf b ≠ .nan) : realSub a b = realAdd a (b ^^^ 0x80000000) := by
  unfold realSub
  split
  next h => exact absurd h hb
  next => rfl

theorem realSub_whole (hmax : x.natAbs + y.natAbs ≤ 16777216) : realSub (wholeReal x) (wholeReal y) = wholeReal (x - y) := by
  obtain ⟨m, e, ha⟩ := exists_holds (x := x) (by omega)
  obtain ⟨n, f, hb⟩ := exists_holds (x := y) (by omega)
  rw [realSub_of_number (by rw [hb.parts]; exact Real32.noConfusion), Int.sub_eq_add_neg]
  refine realAdd_holds ha hb.turned (by rwa [Int.natAbs_neg]) fun h => ?_
  by_cases hx : x < 0
  · rw [decide_eq_true (show y < 0 by omega), Bool.not_true, Bool.and_false]
  · rw [decide_eq_false hx, Bool.false_and]

/-! ### Products, quotients and roots -/

theorem realMul_holds {a b : Word} {sx sy : Bool} {m n : Nat} {e f : Int} (ha : realOf a = .fin sx m e) (hb : realOf b = .fin sy n f) :
    realMul a b = realRound (sx != sy) (m * n) (e + f) false := by
  rw [realMul, ha, hb]

theorem sign_product (hx : x ≠ 0) (hy : y ≠ 0) : decide (x * y < 0) = (decide (x < 0) != decide (y < 0)) := by
  rcases lt_or_gt_of_ne hx with hx' | hx' <;> rcases lt_or_gt_of_ne hy with hy' | hy'
  · rw [decide_eq_true hx', decide_eq_true hy', decide_eq_false (not_lt.2 (mul_pos_of_neg_of_neg hx' hy').le)]
    rfl
  · rw [decide_eq_true hx', decide_eq_false (not_lt.2 hy'.le), decide_eq_true (mul_neg_of_neg_of_pos hx' hy')]
    rfl
  · rw [decide_eq_false (not_lt.2 hx'.le), decide_eq_true hy', decide_eq_true (mul_neg_of_pos_of_neg hx' hy')]
    rfl
  · rw [decide_eq_false (not_lt.2 hx'.le), decide_eq_false (not_lt.2 hy'.le), decide_eq_false (not_lt.2 (mul_pos hx' hy').le)]
    rfl

theorem realMul_whole (hx : x.natAbs ≤ 16777216) (hy : y.natAbs ≤ 16777216) (hxy : (x * y).natAbs ≤ 16777216) (hne : x * y ≠ 0) :
    realMul (wholeReal x) (wholeReal y) = wholeReal (x * y) := by
  have hx0 : x ≠ 0 := left_ne_zero_of_mul hne
  have hy0 : y ≠ 0 := right_ne_zero_of_mul hne
  have ha := holds_whole hx0 hx
  have hb := holds_whole hy0 hy
  have hprod : x.natAbs * y.natAbs ≤ 2 ^ 24 := by rw [← Int.natAbs_mul]; omega
  have hsum : (bitLen x.natAbs : Int) - 24 + ((bitLen y.natAbs : Int) - 24) ≤ 0 := by
    obtain ⟨L, hL, hLlow, -⟩ := bitLen_bounds (n := x.natAbs) (by omega)
    obtain ⟨K, hK, hKlow, -⟩ := bitLen_bounds (n := y.natAbs) (by omega)
    have hpow : 2 ^ (L + K) ≤ 2 ^ 24 := by rw [Nat.pow_add]; exact (Nat.mul_le_mul hLlow hKlow).trans hprod
    have := (Nat.pow_le_pow_iff_right (by decide : 1 < 2)).1 hpow
    rw [hL, hK]
    omega
  have hvalue := congrArg₂ (· * ·) ha.value hb.value
  rw [realMul_holds ha.parts hb.parts, ← sign_product hx0 hy0, wholeReal_of_ne hne hxy]
  have hleastx := ha.least
  have hleasty := hb.least
  generalize wholeMant x.natAbs = m at *
  generalize wholeMant y.natAbs = n at *
  generalize (bitLen x.natAbs : Int) - 24 = e at *
  generalize (bitLen y.natAbs : Int) - 24 = f at *
  have hscaled : m * n = (x * y).natAbs * 2 ^ (-(e + f)).toNat := by
    apply Nat.eq_of_mul_eq_mul_right (Nat.two_pow_pos ((e + 149).toNat + (f + 149).toNat))
    have hexps : (-(e + f)).toNat + ((e + 149).toNat + (f + 149).toNat) = 149 + 149 := by omega
    rw [Nat.mul_assoc (x * y).natAbs, ← Nat.pow_add, hexps, Nat.pow_add 2 (e + 149).toNat, Int.natAbs_mul]
    calc m * n * (2 ^ (e + 149).toNat * 2 ^ (f + 149).toNat) = (m * 2 ^ (e + 149).toNat) * (n * 2 ^ (f + 149).toNat) := by ring
      _ = (x.natAbs * 2 ^ 149) * (y.natAbs * 2 ^ 149) := hvalue
      _ = x.natAbs * y.natAbs * 2 ^ (149 + 149) := by rw [Nat.pow_add]; ring
  rw [hscaled]
  have hexp : e + f = -((-(e + f)).toNat : Int) := by omega
  conv_lhs => rw [hexp]
  rw [Int.neg_neg, Int.toNat_natCast]
  exact realRound_whole (by omega) (by omega) _ _

theorem realMul_zero (hx : x.natAbs ≤ 16777216) (hy : y.natAbs ≤ 16777216) (h : x * y = 0) :
    realMul (wholeReal x) (wholeReal y) = if x < 0 ∨ y < 0 then 0x80000000 else 0 := by
  obtain ⟨m, e, ha⟩ := exists_holds (x := x) hx
  obtain ⟨n, f, hb⟩ := exists_holds (x := y) hy
  have hmn : m * n = 0 := by
    rcases mul_eq_zero.1 h with h0 | h0
    · have := ha.value
      rw [h0] at this
      simp only [Int.natAbs_zero, Nat.zero_mul, Nat.mul_eq_zero] at this
      rw [this.resolve_right (by positivity), Nat.zero_mul]
    · have := hb.value
      rw [h0] at this
      simp only [Int.natAbs_zero, Nat.zero_mul, Nat.mul_eq_zero] at this
      rw [this.resolve_right (by positivity), Nat.mul_zero]
  rw [realMul_holds ha.parts hb.parts, hmn]
  rcases mul_eq_zero.1 h with h0 | h0 <;> subst h0
  · by_cases hlt : y < 0
    · rw [if_pos (.inr hlt), decide_eq_true hlt]
      rfl
    · rw [if_neg (by omega), decide_eq_false hlt]
      rfl
  · by_cases hlt : x < 0
    · rw [if_pos (.inl hlt), decide_eq_true hlt]
      rfl
    · rw [if_neg (by omega), decide_eq_false hlt]
      rfl

theorem realDiv_whole (hx : x.natAbs ≤ 16777216) (hy : y.natAbs ≤ 16777216) (hxy : (x * y).natAbs ≤ 16777216) (hne : x * y ≠ 0) :
    realDiv (wholeReal (x * y)) (wholeReal y) = wholeReal x := by
  have hx0 : x ≠ 0 := left_ne_zero_of_mul hne
  have hy0 : y ≠ 0 := right_ne_zero_of_mul hne
  have ha := holds_whole hne hxy
  have hb := holds_whole hy0 hy
  obtain ⟨hyone, hy25, -⟩ := bitLen_whole (v := y.natAbs) (by omega) (by omega)
  have hpos := (wholeMant_exact (v := y.natAbs) (by omega) (by omega)).2.1
  have hsign : (decide (x * y < 0) != decide (y < 0)) = decide (x < 0) := by
    rw [sign_product hx0 hy0]
    cases decide (x < 0) <;> cases decide (y < 0) <;> rfl
  have hva := ha.value
  have hvb := hb.value
  have hmost := ha.most
  have hleast := ha.least
  have heq : realDiv (wholeReal (x * y)) (wholeReal y) = if wholeMant y.natAbs = 0 then
        (if wholeMant (x * y).natAbs = 0 then realNaN else realInf (decide (x * y < 0) != decide (y < 0)))
      else realRound (decide (x * y < 0) != decide (y < 0)) (wholeMant (x * y).natAbs * 2 ^ 64 / wholeMant y.natAbs)
        ((bitLen (x * y).natAbs : Int) - 24 - ((bitLen y.natAbs : Int) - 24) - 64)
        (wholeMant (x * y).natAbs * 2 ^ 64 % wholeMant y.natAbs != 0) := by
    rw [realDiv, ha.parts, hb.parts]
  rw [if_neg (by omega), hsign] at heq
  rw [heq, wholeReal_of_ne hx0 hx]
  have hfleast : -23 ≤ (bitLen y.natAbs : Int) - 24 := by omega
  generalize wholeMant (x * y).natAbs = m at *
  generalize wholeMant y.natAbs = n at *
  generalize (bitLen (x * y).natAbs : Int) - 24 = e at *
  generalize (bitLen y.natAbs : Int) - 24 = f at *
  have hscaled : m * 2 ^ 64 = n * (x.natAbs * 2 ^ (64 + f - e).toNat) := by
    apply Nat.eq_of_mul_eq_mul_right (Nat.two_pow_pos (e + 149).toNat)
    have hexps : (64 + f - e).toNat + (e + 149).toNat = 64 + (f + 149).toNat := by omega
    calc m * 2 ^ 64 * 2 ^ (e + 149).toNat = m * 2 ^ (e + 149).toNat * 2 ^ 64 := by ring
      _ = x.natAbs * (y.natAbs * 2 ^ 149) * 2 ^ 64 := by rw [hva, Int.natAbs_mul]; ring
      _ = x.natAbs * (n * 2 ^ (f + 149).toNat) * 2 ^ 64 := by rw [hvb]
      _ = n * x.natAbs * 2 ^ (64 + (f + 149).toNat) := by rw [Nat.pow_add]; ring
      _ = n * (x.natAbs * 2 ^ (64 + f - e).toNat) * 2 ^ (e + 149).toNat := by rw [← hexps, Nat.pow_add]; ring
  have hexp : e - f - 64 = -((64 + f - e).toNat : Int) := by omega
  rw [hscaled, Nat.mul_div_cancel_left _ (by omega), Nat.mul_mod_right, hexp]
  exact realRound_whole (by omega) (by omega) _ _

theorem isqrtFuel_sqrt (n k r : Nat) (hlow : r * r ≤ n) (hhigh : n < (r + 2 ^ k) * (r + 2 ^ k)) : isqrtFuel n k r = Nat.sqrt n := by
  induction k generalizing r with
  | zero =>
    rw [isqrtFuel]
    exact (Nat.eq_sqrt.2 ⟨hlow, hhigh⟩)
  | succ k ih =>
    rw [isqrtFuel]
    split
    next h => exact ih _ h (by rwa [Nat.add_assoc, ← Nat.two_mul, ← Nat.pow_succ'])
    next h => exact ih _ hlow (by omega)

theorem realSqrt_zero : realSqrt (wholeReal (0 * 0)) = wholeReal 0 := by
  rw [Int.mul_zero, wholeReal_zero]
  decide

/-- The root of a scaled square. -/
theorem isqrt_square {m r : Nat} {odd : Nat} (hm : m < 2 ^ 24) (hodd : odd ≤ 1) (h : m * 2 ^ (64 + odd) = r * r) :
    isqrt 46 (m * 2 ^ (64 + odd)) = r := by
  have hfits : m * 2 ^ (64 + odd) < (0 + 2 ^ 46) * (0 + 2 ^ 46) := by
    have hodd2 : 2 ^ (64 + odd) ≤ 2 ^ 65 := Nat.pow_le_pow_right (by decide) (by omega)
    rw [Nat.zero_add, ← Nat.pow_add]
    calc m * 2 ^ (64 + odd) < 2 ^ 24 * 2 ^ (64 + odd) := Nat.mul_lt_mul_of_pos_right hm (Nat.two_pow_pos _)
      _ ≤ 2 ^ 24 * 2 ^ 65 := Nat.mul_le_mul_left _ hodd2
      _ ≤ 2 ^ (46 + 46) := by rw [← Nat.pow_add]; exact Nat.pow_le_pow_right (by decide) (by decide)
  rw [isqrt, isqrtFuel_sqrt _ 46 0 (Nat.zero_le _) hfits, h, Nat.sqrt_eq]

theorem realSqrt_holds {a : Word} {m : Nat} {e : Int} (h : realOf a = .fin false m e) : realSqrt a = if m = 0 then realZero false
    else realRound false (isqrt 46 (m * 2 ^ (64 + (e % 2).toNat))) ((e - ((e % 2).toNat : Int)) / 2 - 32)
      (isqrt 46 (m * 2 ^ (64 + (e % 2).toNat)) * isqrt 46 (m * 2 ^ (64 + (e % 2).toNat)) != m * 2 ^ (64 + (e % 2).toNat)) := by
  simp only [realSqrt, h, Bool.false_eq_true, if_false]

theorem realSqrt_whole (h0 : 0 ≤ x) (hmax : x ≤ 4096) : realSqrt (wholeReal (x * x)) = wholeReal x := by
  by_cases hx : x = 0
  · subst hx
    exact realSqrt_zero
  have hsq0 : 0 < x * x := by positivity
  have hsq : x * x ≤ 4096 * 4096 := mul_le_mul hmax hmax h0 (by norm_num)
  have hp := holds_whole (x := x * x) (ne_of_gt hsq0) (by omega)
  rw [decide_eq_false (not_lt.2 hsq0.le)] at hp
  have hvalue := hp.value
  have hleast := hp.least
  have hmost := hp.most
  have hm0 := (wholeMant_exact (v := (x * x).natAbs) (by omega) (by omega)).2
  have heq := realSqrt_holds hp.parts
  rw [if_neg (by omega)] at heq
  rw [heq, wholeReal_of_ne hx (by omega), decide_eq_false (not_lt.2 h0)]
  generalize wholeMant (x * x).natAbs = m at *
  generalize (bitLen (x * x).natAbs : Int) - 24 = e at *
  generalize hodd : (e % 2).toNat = odd at *
  have hparity : e % 2 = odd := by omega
  obtain ⟨h, hh⟩ : ∃ h : Nat, (64 + odd : Int) - e = 2 * h := ⟨((64 + odd - e) / 2).toNat, by omega⟩
  have hscaled : m * 2 ^ (64 + odd) = (x.natAbs * 2 ^ h) * (x.natAbs * 2 ^ h) := by
    apply Nat.eq_of_mul_eq_mul_right (Nat.two_pow_pos (e + 149).toNat)
    have hexps : h + h + (e + 149).toNat = 64 + odd + 149 := by omega
    calc m * 2 ^ (64 + odd) * 2 ^ (e + 149).toNat = m * 2 ^ (e + 149).toNat * 2 ^ (64 + odd) := by ring
      _ = x.natAbs * x.natAbs * 2 ^ (64 + odd + 149) := by rw [hvalue, Int.natAbs_mul, Nat.pow_add 2 (64 + odd)]; ring
      _ = x.natAbs * 2 ^ h * (x.natAbs * 2 ^ h) * 2 ^ (e + 149).toNat := by rw [← hexps, Nat.pow_add, Nat.pow_add]; ring
  have hroot := isqrt_square hm0.2 (by omega) hscaled
  have hexp : (e - odd) / 2 - 32 = -(h : Int) := by omega
  rw [hroot, hscaled, hexp, bne_self_eq_false]
  exact realRound_whole (by omega) (by omega) _ _

end

end
end Sys2Proof.Machine
end

section
/-! PROOF. REAL32 arithmetic and conversions (R183, R184). -/

namespace Sys2Proof.Machine

section
set_option Elab.async false

/-! ### Back to integers -/

/-- The magnitude that a conversion to an integer rounds to. -/
def roundedMag (near : Bool) (m : Nat) (e : Int) : Nat :=
  if e ≥ 0 then m * 2 ^ e.toNat
  else if near = true ∧ (m % 2 ^ (-e).toNat > 2 ^ ((-e).toNat - 1) ∨ (m % 2 ^ (-e).toNat = 2 ^ ((-e).toNat - 1) ∧ m / 2 ^ (-e).toNat % 2 = 1))
    then m / 2 ^ (-e).toNat + 1 else m / 2 ^ (-e).toNat

theorem realToInt_of_fin {near neg : Bool} {m : Nat} {e : Int} {a : Word} (h : realOf a = .fin neg m e) : realToInt near a =
    if realInt neg (roundedMag near m e) > 2147483647 then (0x7FFFFFFF, true)
    else if realInt neg (roundedMag near m e) < -2147483648 then (0x80000000, true)
    else (BitVec.ofInt 32 (realInt neg (roundedMag near m e)), false) := by
  rw [realToInt, h, roundedMag]

theorem roundedMag_whole {x : Int} {w : Word} {neg : Bool} {m : Nat} {e : Int} (h : Holds w x neg m e) (near : Bool) :
    roundedMag near m e = x.natAbs := by
  have hvalue := h.value
  have hleast := h.least
  unfold roundedMag
  split
  next he =>
    apply Nat.eq_of_mul_eq_mul_right (Nat.two_pow_pos 149)
    rw [← hvalue, Nat.mul_assoc, ← Nat.pow_add, show e.toNat + 149 = (e + 149).toNat by omega]
  next he =>
    have hm : m = x.natAbs * 2 ^ (-e).toNat := by
      apply Nat.eq_of_mul_eq_mul_right (Nat.two_pow_pos (e + 149).toNat)
      rw [hvalue, Nat.mul_assoc, ← Nat.pow_add, show (-e).toNat + (e + 149).toNat = 149 by omega]
    have hhalf : 0 < 2 ^ ((-e).toNat - 1) := Nat.two_pow_pos _
    rw [hm, Nat.mul_mod_left, Nat.mul_div_cancel _ (Nat.two_pow_pos _), if_neg (by omega)]

theorem realInt_whole {x : Int} {w : Word} {neg : Bool} {m : Nat} {e : Int} (h : Holds w x neg m e) : realInt neg x.natAbs = x := by
  by_cases hx : x = 0
  · subst hx
    cases neg <;> rfl
  · rw [h.sign hx]
    by_cases hlt : x < 0
    · rw [realInt, if_pos (decide_eq_true hlt)]
      omega
    · rw [realInt, if_neg (by simpa using hlt)]
      omega

theorem realToInt_whole {x : Int} (hmax : x.natAbs ≤ 16777216) (near : Bool) : realToInt near (wholeReal x) = (BitVec.ofInt 32 x, false) := by
  obtain ⟨m, e, h⟩ := exists_holds hmax
  rw [realToInt_of_fin h.parts, roundedMag_whole h, realInt_whole h, if_neg (by omega), if_neg (by omega)]

/-- A rounded word is no NaN. -/
theorem realOf_realRound (neg : Bool) (m : Nat) (e : Int) (more : Bool) : realOf (realRound neg m e more) ≠ .nan := by
  have hfinite (enc : Nat) (h : enc < 0x7F800000) : realOf (BitVec.ofNat 32 (enc + if neg then 2 ^ 31 else 0)) ≠ .nan := by
    have hexp : (BitVec.ofNat 32 (enc + if neg then 2 ^ 31 else 0)).toNat / 2 ^ 23 % 256 ≠ 255 := by
      cases neg with
      | true => rw [if_pos rfl, BitVec.toNat_ofNat, Nat.mod_eq_of_lt (show enc + 2 ^ 31 < 2 ^ 32 by omega)]; omega
      | false => rw [if_neg Bool.false_ne_true, BitVec.toNat_ofNat, Nat.mod_eq_of_lt (show enc + 0 < 2 ^ 32 by omega)]; omega
    generalize BitVec.ofNat 32 (enc + if neg then 2 ^ 31 else 0) = w at hexp ⊢
    rw [realOf_of_parts (w := w) rfl rfl rfl, if_neg hexp]
    split <;> exact Real32.noConfusion
  have hinf : realOf (realInf neg) ≠ .nan := by cases neg <;> decide
  have hzero : realOf (realZero neg) ≠ .nan := by cases neg <;> decide
  have hany (enc : Nat) : realOf (if enc ≥ 0x7F800000 then realInf neg else BitVec.ofNat 32 (enc + if neg then 2 ^ 31 else 0)) ≠ .nan := by
    split
    · exact hinf
    · exact hfinite enc (by omega)
  unfold realRound
  split
  · exact hzero
  · exact hany _

theorem realNeg_twice {w : Word} (h : realOf w ≠ .nan) : realNeg (realNeg w) = w := by
  have hone {v : Word} (hv : realOf v ≠ .nan) : realNeg v = v ^^^ 0x80000000 := by
    unfold realNeg
    split
    next hn => exact absurd hn hv
    next => rfl
  have hflip : realOf (w ^^^ 0x80000000) ≠ .nan := by
    rw [realOf_xor]
    cases hw : realOf w with
    | nan => exact absurd hw h
    | inf => exact Real32.noConfusion
    | fin => exact Real32.noConfusion
  rw [hone h, hone hflip, BitVec.xor_assoc, BitVec.xor_self, BitVec.xor_zero]

/-! ### Words apart -/

/-- Which kind of value a word is. -/
theorem realSpecial_iff (w : Word) : realSpecial w = true ↔ realOf w = .nan ∨ realOf w = .inf (w.getLsbD 31) := by
  rw [realSpecial, decide_eq_true_eq, realOf_of_parts (w := w) rfl rfl rfl]
  split_ifs with h1 h2 h3
  · exact iff_of_true h1 (.inr rfl)
  · exact iff_of_true h1 (.inl rfl)
  · exact iff_of_false h1 (by rintro (h | h) <;> cases h)
  · exact iff_of_false h1 (by rintro (h | h) <;> cases h)

theorem realOf_finite {w : Word} (h : realSpecial w = false) : ∃ m e, realOf w = .fin (w.getLsbD 31) m e ∧ (m = 0 ↔ w &&& 0x7FFFFFFF = 0) := by
  have hexp : ¬ w.toNat / 2 ^ 23 % 256 = 255 := by simpa [realSpecial] using h
  have hmag : w &&& 0x7FFFFFFF = 0 ↔ w.toNat % 2 ^ 31 = 0 := by
    rw [← BitVec.toNat_inj, BitVec.toNat_and, show (0x7FFFFFFF : Word).toNat = 2 ^ 31 - 1 from rfl, Nat.and_two_pow_sub_one_eq_mod]
    rfl
  rw [realOf_of_parts (w := w) rfl rfl rfl, if_neg hexp, hmag]
  split
  next he =>
    refine ⟨_, _, rfl, ?_⟩
    omega
  next he =>
    refine ⟨_, _, rfl, ?_⟩
    omega

theorem realOf_of_zero {w : Word} (h : w &&& 0x7FFFFFFF = 0) : realOf w = .fin (w.getLsbD 31) 0 (-149) ∧ realZero (w.getLsbD 31) = w := by
  have hnat : w.toNat % 2 ^ 31 = 0 := by
    rw [← BitVec.toNat_inj, BitVec.toNat_and, show (0x7FFFFFFF : Word).toNat = 2 ^ 31 - 1 from rfl, Nat.and_two_pow_sub_one_eq_mod] at h
    exact h
  have hlt := w.isLt
  have hcases : w = 0 ∨ w = 0x80000000 := by
    by_cases hz : w.toNat = 0
    · exact .inl (BitVec.eq_of_toNat_eq hz)
    · exact .inr (BitVec.eq_of_toNat_eq (by rw [show (0x80000000 : Word).toNat = 2147483648 from rfl]; omega))
  rcases hcases with rfl | rfl <;> decide

theorem realDivZero_iff (a b : Word) : realDivZero a b = true ↔ realSpecial a = false ∧ a &&& 0x7FFFFFFF ≠ 0 ∧ b &&& 0x7FFFFFFF = 0 := by
  cases ha : realSpecial a with
  | true =>
    have hnot : realDivZero a b = false := by
      rcases (realSpecial_iff a).1 ha with h | h <;> rw [realDivZero, h]
    rw [hnot]
    simp
  | false =>
    obtain ⟨m, e, hpa, hm⟩ := realOf_finite ha
    cases hb : realSpecial b with
    | true =>
      have hnot : realDivZero a b = false := by
        rcases (realSpecial_iff b).1 hb with h | h <;> rw [realDivZero, hpa, h]
      have hb0 : b &&& 0x7FFFFFFF ≠ 0 := by
        intro h
        rcases (realSpecial_iff b).1 hb with h' | h' <;> rw [(realOf_of_zero h).1] at h' <;> cases h'
      rw [hnot]
      exact iff_of_false Bool.false_ne_true fun h => hb0 h.2.2
    | false =>
      obtain ⟨n, f, hpb, hn⟩ := realOf_finite hb
      rw [realDivZero, hpa, hpb]
      simp only [Bool.and_eq_true, bne_iff_ne, beq_iff_eq, ne_eq, hm, hn, true_and]

theorem inf_word {w : Word} (h : realSpecial w = true) (hnum : realOf w ≠ .nan) : realOf w = .inf (w.getLsbD 31) ∧ realInf (w.getLsbD 31) = w := by
  have hinf := ((realSpecial_iff w).1 h).resolve_left hnum
  refine ⟨hinf, ?_⟩
  have hexp : w.toNat / 2 ^ 23 % 256 = 255 := by simpa [realSpecial] using h
  have hmant : w.toNat % 2 ^ 23 = 0 := by
    by_contra hne
    refine hnum ?_
    rw [realOf_of_parts (w := w) rfl rfl rfl, if_pos hexp, if_neg hne]
  have hlt := w.isLt
  apply BitVec.eq_of_toNat_eq
  rw [getLsbD_top]
  by_cases htop : 2 ^ 31 ≤ w.toNat
  · rw [decide_eq_true htop, show (realInf true).toNat = 4286578688 from rfl]
    omega
  · rw [decide_eq_false htop, show (realInf false).toNat = 2139095040 from rfl]
    omega

/-! ### Subnormals and ties -/

theorem realRound_subnormal {v : Nat} (hv : v < 2 ^ 24) : realRound false v (-149) false = BitVec.ofNat 32 v := by
  by_cases h0 : v = 0
  · subst h0
    rfl
  · obtain ⟨hone, -, h24⟩ := bitLen_whole h0 hv.le
    have hlen := h24 hv
    have hq : max ((-149 : Int) + (bitLen v : Int) - 24) (-149) = -149 := by omega
    have hlt : ¬ (if v < 2 ^ 23 then v else (-149 + 149 : Int).toNat * 2 ^ 23 + v) ≥ 0x7F800000 := by split <;> omega
    have henc : (if v < 2 ^ 23 then v else (-149 + 149 : Int).toNat * 2 ^ 23 + v) + (if false = true then 2 ^ 31 else 0) = v := by
      rw [if_neg Bool.false_ne_true]
      split <;> omega
    have hm : ∀ m, m = v → (if (if m < 2 ^ 23 then m else (-149 + 149 : Int).toNat * 2 ^ 23 + m) ≥ 0x7F800000 then realInf false
        else BitVec.ofNat 32 ((if m < 2 ^ 23 then m else (-149 + 149 : Int).toNat * 2 ^ 23 + m) + (if false = true then 2 ^ 31 else 0))) =
        BitVec.ofNat 32 v := by
      rintro m rfl
      rw [if_neg hlt, henc]
    unfold realRound
    rw [if_neg h0]
    dsimp only
    rw [hq]
    refine hm _ ?_
    rw [if_pos (by decide)]
    simp

theorem realOf_subnormal {w : Word} (h : w.toNat < 0x800000) : realOf w = .fin false w.toNat (-149) := by
  have hneg : w.getLsbD 31 = false := by
    rw [getLsbD_top]
    exact decide_eq_false (by omega)
  rw [realOf_of_parts (w := w) hneg rfl rfl, if_neg (by omega), if_pos (by omega), Nat.mod_eq_of_lt (show w.toNat < 2 ^ 23 from h)]

theorem realAdd_subnormal {a b : Word} (ha : a.toNat < 0x800000) (hb : b.toNat < 0x800000) : realAdd a b = a + b := by
  have hsum : realAdd a b = realOfInt (realInt false a.toNat * 2 ^ ((-149 : Int) - min (-149) (-149)).toNat +
      realInt false b.toNat * 2 ^ ((-149 : Int) - min (-149) (-149)).toNat) (min (-149) (-149)) (false && false) := by
    rw [realAdd, realOf_subnormal ha, realOf_subnormal hb]
  have hscale : ((-149 : Int) - min (-149) (-149)).toNat = 0 := by decide
  have hint (n : Nat) : realInt false n = (n : Int) := rfl
  have hword : a + b = BitVec.ofNat 32 (a.toNat + b.toNat) := by
    apply BitVec.eq_of_toNat_eq
    rw [BitVec.toNat_add, BitVec.toNat_ofNat]
  rw [hsum, hscale, hint, hint, Int.pow_zero, Int.mul_one, Int.mul_one, min_self, hword, ← Int.natCast_add, realOfInt]
  split
  next h0 =>
    have hz : a.toNat + b.toNat = 0 := by omega
    rw [hz]
    rfl
  next h0 =>
    rw [decide_eq_false (by omega), Int.natAbs_natCast]
    exact realRound_subnormal (by omega)

/-- A number of 25 bits loses its last one: to the even neighbour (R183). -/
theorem realRound_wide {v : Nat} (hlow : 2 ^ 24 ≤ v) (hhigh : v < 2 ^ 25) :
    realRound false v 0 false = BitVec.ofNat 32 (150 * 2 ^ 23 + (v / 2 + v % 2 * (v / 2 % 2))) := by
  have hlen : bitLen v = 25 := (bitLen_iff (by omega)).2 ⟨hlow, hhigh⟩
  have hq : max ((0 : Int) + (bitLen v : Int) - 24) (-149) = 1 := by rw [hlen]; decide
  have hm : ∀ m, m = v / 2 + v % 2 * (v / 2 % 2) →
      (if (if m < 2 ^ 23 then m else (1 + 149 : Int).toNat * 2 ^ 23 + m) ≥ 0x7F800000 then realInf false
        else BitVec.ofNat 32 ((if m < 2 ^ 23 then m else (1 + 149 : Int).toNat * 2 ^ 23 + m) + (if false = true then 2 ^ 31 else 0))) =
        BitVec.ofNat 32 (150 * 2 ^ 23 + (v / 2 + v % 2 * (v / 2 % 2))) := by
    rintro m hm
    have hsmall : v % 2 * (v / 2 % 2) ≤ 1 := by
      rcases Nat.mod_two_eq_zero_or_one v with h | h <;> rw [h] <;> omega
    have hlt : ¬ m < 2 ^ 23 := by omega
    rw [if_neg hlt, ← hm, if_neg (by omega), if_neg Bool.false_ne_true]
    rfl
  unfold realRound
  rw [if_neg (by omega)]
  dsimp only
  rw [hq]
  refine hm _ ?_
  rw [if_neg (by decide), show ((1 : Int) - 0).toNat = 1 from rfl, show 1 - 1 = 0 from rfl, Nat.pow_one, Nat.pow_zero]
  split
  next h =>
    obtain h | ⟨h, hodd⟩ := h
    · omega
    · rw [h, hodd.resolve_left Bool.false_ne_true]
  next h =>
    rcases Nat.mod_two_eq_zero_or_one v with h0 | h0
    · rw [h0, Nat.zero_mul]
      rfl
    · rcases Nat.mod_two_eq_zero_or_one (v / 2) with h1 | h1
      · rw [h1, Nat.mul_zero]
        rfl
      · exact absurd (.inr ⟨h0, .inr h1⟩) h

theorem realOfUnsigned_ofNat {v : Nat} (hpos : v ≠ 0) (hlt : v < 2 ^ 32) : realOfUnsigned (BitVec.ofNat 32 v) = realRound false v 0 false := by
  rw [realOfUnsigned, BitVec.toNat_ofNat, Nat.mod_eq_of_lt hlt, realOfInt, if_neg (by omega), decide_eq_false (by omega), Int.natAbs_natCast]

theorem realOfUnsigned_tie {n : Nat} (h : n < 8388608) : realOfUnsigned (BitVec.ofNat 32 (16777216 + 2 * n + 1)) =
    realOfUnsigned (BitVec.ofNat 32 (16777216 + 2 * (n + n % 2))) := by
  rw [realOfUnsigned_ofNat (by omega) (by omega), realRound_wide (by omega) (by omega), show (16777216 + 2 * n + 1) % 2 = 1 by omega, Nat.one_mul,
    show (16777216 + 2 * n + 1) / 2 = 8388608 + n by omega, show (8388608 + n) % 2 = n % 2 by omega]
  by_cases hlast : n + n % 2 = 8388608
  · rw [hlast, show 8388608 + n + n % 2 = 16777216 by omega]
    decide
  · rw [realOfUnsigned_ofNat (by omega) (by omega), realRound_wide (by omega) (by omega), show (16777216 + 2 * (n + n % 2)) % 2 = 0 by omega,
      Nat.zero_mul, show (16777216 + 2 * (n + n % 2)) / 2 + 0 = 8388608 + n + n % 2 by omega]

/-! ### The instructions -/

section
variable {s : State}

/-- The state after a REAL32 result. -/
def realDone (w : Word) (fe dz : Bool) (s : State) : State := Safety.wordDone 1
  { s.bx with acc1 := w, z := w == 0 || w == 0x80000000, n := w.getLsbD 31, c := false, v := false
              fe := s.bx.fe || fe, dz := s.bx.dz || dz } s

theorem runReal_done (h : executing s = true) (f : State → State) (w : Word) (fe dz : Bool)
    (hf : f (countWord s) = { countWord s with bx := { (countWord s).bx with
      acc1 := w, z := w == 0 || w == 0x80000000, n := w.getLsbD 31, c := false, v := false
      fe := s.bx.fe || fe, dz := s.bx.dz || dz } }) : runReg f s = .next (realDone w fe dz s) :=
  runReg_done h { s.bx with
      acc1 := w, z := w == 0 || w == 0x80000000, n := w.getLsbD 31, c := false, v := false
      fe := s.bx.fe || fe, dz := s.bx.dz || dz } s.bu hf

theorem zero_word_iff (w : Word) : (w &&& 0x7FFFFFFF == 0) = (w == 0 || w == 0x80000000) := by
  rw [Bool.eq_iff_iff, Bool.or_eq_true, beq_iff_eq, beq_iff_eq, beq_iff_eq]
  refine ⟨fun h => ?_, ?_⟩
  · rw [← (realOf_of_zero h).2]
    cases w.getLsbD 31
    · exact .inl rfl
    · exact .inr rfl
  · rintro (rfl | rfl) <;> decide

theorem putRes_flt (w : Word) (t : State) : putRes (resFlt w) t = { t with bx := { t.bx with
    acc1 := w, z := w == 0 || w == 0x80000000, n := w.getLsbD 31, c := false, v := false } } := by
  have hvs : (t.bx.vs || false) = t.bx.vs := Bool.or_false _
  rw [putRes, setAcc1, setFlags, resFlt]
  dsimp only
  rw [hvs, zero_word_iff]

theorem runBinR_done (h : executing s = true) (f : Word → Word → Word) : runBinR f s = .next (realDone (f s.bx.acc1 s.bx.acc2)
    (realSpecial s.bx.acc1 || realSpecial s.bx.acc2 || realSpecial (f s.bx.acc1 s.bx.acc2)) false s) := by
  rw [runBinR]
  refine runReal_done h _ _ _ _ ?_
  dsimp only
  rw [putRes_flt, noteFe, Bool.or_false s.bx.dz]
  rfl

theorem runUnR_done (h : executing s = true) (f : Word → Word) : runUnR f s = .next (realDone (f s.bx.acc1)
    (realSpecial s.bx.acc1 || realSpecial (f s.bx.acc1)) false s) := by
  rw [runUnR]
  refine runReal_done h _ _ _ _ ?_
  dsimp only
  rw [putRes_flt, noteFe, Bool.or_false s.bx.dz]
  rfl

theorem runToR_done (h : executing s = true) (f : Word → Word) : runToR f s = .next (realDone (f s.bx.acc1) false false s) := by
  rw [runToR]
  refine runReal_done h _ _ _ _ ?_
  dsimp only
  rw [putRes_flt, Bool.or_false s.bx.dz, Bool.or_false s.bx.fe]
  rfl

theorem execDivr_done (h : executing s = true) : execDivr s = .next (realDone (realDiv s.bx.acc1 s.bx.acc2)
    (realSpecial s.bx.acc1 || realSpecial s.bx.acc2 || realSpecial (realDiv s.bx.acc1 s.bx.acc2)) (realDivZero s.bx.acc1 s.bx.acc2) s) := by
  rw [execDivr]
  refine runReal_done h _ _ _ _ ?_
  dsimp only
  rw [putRes_flt, noteFe]
  rfl

/-- The state after a conversion to an integer. -/
def intDone (r : Word × Bool) (s : State) : State := Safety.wordDone 1
  { s.bx with acc1 := r.1, z := r.1 == 0, n := r.1.getLsbD 31, c := false, v := r.2, vs := s.bx.vs || r.2
              fe := s.bx.fe || realSpecial s.bx.acc1 } s

theorem putRes_int (w : Word) (v : Bool) (t : State) : putRes (resOf w false v) t = { t with bx := { t.bx with
    acc1 := w, z := w == 0, n := w.getLsbD 31, c := false, v := v, vs := t.bx.vs || v } } := rfl

/-- A conversion by any rule. -/
theorem runConversion_done (h : executing s = true) (g : Word → Word × Bool) : runReg (fun t =>
    let a := t.bx.acc1
    let (r, v) := g a
    noteFe (realSpecial a) (putRes (resOf r false v) t)) s = .next (intDone (g s.bx.acc1) s) := by
  obtain ⟨r, hr⟩ : ∃ r, g s.bx.acc1 = r := ⟨_, rfl⟩
  rw [hr]
  refine runReg_done h { s.bx with
    acc1 := r.1, z := r.1 == 0, n := r.1.getLsbD 31, c := false, v := r.2
    vs := s.bx.vs || r.2, fe := s.bx.fe || realSpecial s.bx.acc1 } s.bu ?_
  have hacc : g (countWord s).bx.acc1 = r := hr
  dsimp only
  rw [hacc, putRes_int, noteFe]
  rfl

theorem runFromR_done (h : executing s = true) (near : Bool) : runFromR near s = .next (intDone (realToInt near s.bx.acc1) s) := by
  rw [runFromR]
  exact runConversion_done h (realToInt near)

end

/-! ### NaN and infinities -/

section
variable {a b : Word}

theorem real_nan (h : realOf a = .nan ∨ realOf b = .nan) :
    realAdd a b = 0x7FC00000 ∧ realSub a b = 0x7FC00000 ∧ realMul a b = 0x7FC00000 ∧ realDiv a b = 0x7FC00000 := by
  rcases h with h | h
  · refine ⟨by rw [realAdd, h]; rfl, ?_, by rw [realMul, h]; rfl, by rw [realDiv, h]; rfl⟩
    unfold realSub
    split
    · rfl
    · rw [realAdd, h]
      rfl
  · refine ⟨?_, by rw [realSub, h]; rfl, ?_, ?_⟩
    · rw [realAdd, h]
      cases realOf a <;> rfl
    · rw [realMul, h]
      cases realOf a <;> rfl
    · rw [realDiv, h]
      cases realOf a <;> rfl

theorem real_nan_one (h : realOf a = .nan) : realNeg a = 0x7FC00000 ∧ realAbs a = 0x7FC00000 ∧ realSqrt a = 0x7FC00000 :=
  ⟨by rw [realNeg, h]; rfl, by rw [realAbs, h]; rfl, by rw [realSqrt, h]; rfl⟩

theorem realDiv_by_zero (h : realDivZero a b = true) : realDiv a b = if a.getLsbD 31 = b.getLsbD 31 then 0x7F800000 else 0xFF800000 := by
  obtain ⟨ha, hne, hb⟩ := (realDivZero_iff a b).1 h
  obtain ⟨m, e, hpa, hm⟩ := realOf_finite ha
  have hm0 : m ≠ 0 := fun h0 => hne (hm.1 h0)
  rw [realDiv, hpa, (realOf_of_zero hb).1]
  dsimp only
  rw [if_pos rfl, if_neg hm0]
  cases a.getLsbD 31 <;> cases b.getLsbD 31 <;> rfl

theorem real_infinite (h : realSpecial a = true) (hnum : realOf a ≠ .nan) :
    realSub a a = 0x7FC00000 ∧ realAdd a a = a ∧ realDiv a a = 0x7FC00000 := by
  obtain ⟨hinf, hword⟩ := inf_word h hnum
  refine ⟨?_, ?_, ?_⟩
  · rw [realSub_of_number hnum, realAdd, realOf_xor, hinf, realFlip]
    dsimp only
    cases a.getLsbD 31 <;> rfl
  · rw [realAdd, hinf]
    dsimp only
    rw [if_pos rfl, hword]
  · rw [realDiv, hinf]
    rfl

theorem realSqrt_below (hnum : realOf a ≠ .nan) (hneg : a.getLsbD 31 = true) (hne : a &&& 0x7FFFFFFF ≠ 0) : realSqrt a = 0x7FC00000 := by
  cases hs : realSpecial a with
  | true =>
    rw [realSqrt, (inf_word hs hnum).1, hneg]
    rfl
  | false =>
    obtain ⟨m, e, hpa, hm⟩ := realOf_finite hs
    rw [realSqrt, hpa, hneg]
    dsimp only
    rw [if_neg fun h0 => hne (hm.1 h0), if_pos rfl]
    rfl

theorem realToInt_special (near : Bool) : (realOf a = .nan → realToInt near a = (0, true)) ∧
    (realSpecial a = true → realOf a ≠ .nan → realToInt near a = (if a.getLsbD 31 then 0x80000000 else 0x7FFFFFFF, true)) := by
  refine ⟨fun h => by rw [realToInt, h], fun h hnum => ?_⟩
  rw [realToInt, (inf_word h hnum).1]

end

theorem realOfSigned_ofInt {x : Int} (h : x.natAbs ≤ 16777216) : realOfSigned (BitVec.ofInt 32 x) = wholeReal x := by
  rw [realOfSigned, wholeReal, BitVec.toInt_ofInt, Int.bmod_eq_of_le (by omega) (by omega)]

/-- Settles O35: an instruction's result is its function's; a whole number's mantissa and exponent are `Holds`, which each operation keeps. -/
theorem realArithmeticAndConversions : Obligations.RealArithmeticAndConversions := by
  refine ⟨fun s h => ?instructions, fun near a => ⟨fun hlow hhigh => ?signed, fun hmax => ?unsigned, ?negated⟩,
    fun x y => ?whole, fun a b => ⟨realDiv_by_zero, fun ha hb => ?zeros, real_infinite, realSqrt_below, realAdd_subnormal⟩,
    fun n hn => realOfUnsigned_tie hn⟩
  case instructions =>
    intro a b flt two one toInt
    have hnan (hn : realOf a = .nan ∨ realOf b = .nan) := real_nan hn
    have hone (hn : realOf a = .nan) := real_nan_one hn
    exact ⟨⟨runBinR_done h realAdd, fun hn => (hnan hn).1⟩, ⟨runBinR_done h realSub, fun hn => (hnan hn).2.1⟩,
      ⟨runBinR_done h realMul, fun hn => (hnan hn).2.2.1⟩, ⟨execDivr_done h, fun hn => (hnan hn).2.2.2⟩, realDivZero_iff a b,
      ⟨runUnR_done h realNeg, fun hn => (hone hn).1⟩, ⟨runUnR_done h realAbs, fun hn => (hone hn).2.1⟩,
      ⟨runUnR_done h realSqrt, fun hn => (hone hn).2.2⟩, runToR_done h realOfSigned, runToR_done h realOfUnsigned,
      ⟨runFromR_done h true, realToInt_special true⟩, ⟨runFromR_done h false, realToInt_special false⟩⟩
  case signed =>
    have hwhole := realToInt_whole (x := a.toInt) (by omega) near
    rw [BitVec.ofInt_toInt] at hwhole
    exact hwhole
  case unsigned =>
    have hwhole := realToInt_whole (x := (a.toNat : Int)) (by omega) near
    rw [BitVec.ofInt_natCast, BitVec.ofNat_toNat, BitVec.setWidth_eq] at hwhole
    exact hwhole
  case negated =>
    refine realNeg_twice ?_
    rw [realOfSigned, realOfInt]
    split
    · decide
    · exact realOf_realRound _ _ _ _
  case whole =>
    intro r
    simp only [Int.abs_eq_natAbs]
    refine ⟨fun hmax => ?_, fun hx hy hxy => ⟨fun hne => ?_, fun h0 => ?_⟩, fun h0 hmax => ?_⟩
    · simp only [r]
      rw [realOfSigned_ofInt (x := x) (by omega), realOfSigned_ofInt (x := y) (by omega), realOfSigned_ofInt (x := x + y) (by omega),
        realOfSigned_ofInt (x := x - y) (by omega)]
      exact ⟨realAdd_whole (by omega), realSub_whole (by omega)⟩
    · simp only [r]
      rw [realOfSigned_ofInt (x := x) (by omega), realOfSigned_ofInt (x := y) (by omega), realOfSigned_ofInt (x := x * y) (by omega)]
      exact ⟨realMul_whole (by omega) (by omega) (by omega) hne, realDiv_whole (by omega) (by omega) (by omega) hne⟩
    · simp only [r]
      rw [realOfSigned_ofInt (x := x) (by omega), realOfSigned_ofInt (x := y) (by omega)]
      exact realMul_zero (by omega) (by omega) h0
    · have hsq : x * x ≤ 4096 * 4096 := mul_le_mul hmax hmax h0 (by norm_num)
      have hsq0 : 0 ≤ x * x := mul_self_nonneg x
      simp only [r]
      rw [realOfSigned_ofInt (x := x * x) (by omega), realOfSigned_ofInt (x := x) (by omega)]
      exact realSqrt_whole h0 hmax
  case zeros =>
    refine ⟨?_, ?_⟩
    · rw [realDiv, (realOf_of_zero ha).1, (realOf_of_zero hb).1]
      rfl
    · rw [realSqrt, (realOf_of_zero ha).1]
      exact (realOf_of_zero ha).2

end
end Sys2Proof.Machine
end

section
/-! SUPPORT. The ports of the landing buses through what is done to them, and the time master (R292 to R295). -/

namespace Sys2Proof.Machine

section
set_option Elab.async false

/-! ### The ports of the landing buses after a record, a message and a write -/

theorem lxOf_congr {s t : State} (h : t.lb = s.lb) (q : Nat) : lxOf t q = lxOf s q := by rw [lxOf, lxOf, h]

@[simp] theorem lbOf_modLb (p q : Fin 4) (f : Lb → Lb) (s : State) : lbOf (modLb p f s) q = if q = p then f (lbOf s p) else lbOf s q :=
  lbOf_setLb ..
@[simp] theorem lxOf_modLx (p q : Fin 4) (f : LbCtx → LbCtx) (s : State) :
    lxOf (modLx p f s) q = if q = p then f (lxOf s p) else lxOf s q := lxOf_setLx ..
@[simp] theorem lxOf_modLb (p q : Nat) (f : Lb → Lb) (s : State) : lxOf (modLb p f s) q = lxOf s q := lxOf_setLb ..
@[simp] theorem lbOf_modLx (p q : Nat) (f : LbCtx → LbCtx) (s : State) : lbOf (modLx p f s) q = lbOf s q := lbOf_setLx ..

@[simp] theorem lbOf_sj (c v : Nat) (i : Bytes) (s : State) (q : Nat) : lbOf (sj c v i s) q = lbOf s q := lbOf_congr ((sj_changes ..).get .lb) q
@[simp] theorem lxOf_sj (c v : Nat) (i : Bytes) (s : State) (q : Nat) : lxOf (sj c v i s) q = lxOf s q := lxOf_congr ((sj_changes ..).get .lb) q
@[simp] theorem lbOf_drawn (s : State) (q : Nat) : lbOf (drawn s) q = lbOf s q := rfl
@[simp] theorem lxOf_drawn (s : State) (q : Nat) : lxOf (drawn s) q = lxOf s q := rfl
@[simp] theorem lbOf_canOut (p : Nat) (f : CanFrame) (s : State) (q : Nat) : lbOf (canOut p f s) q = lbOf s q := rfl
@[simp] theorem lxOf_canOut (p : Nat) (f : CanFrame) (s : State) (q : Nat) : lxOf (canOut p f s) q = lxOf s q := rfl

@[simp] theorem out_modLb (p : Nat) (f : Lb → Lb) (s : State) : (modLb p f s).out = s.out := (modLb_changes ..).out
@[simp] theorem out_modLx (p : Nat) (f : LbCtx → LbCtx) (s : State) : (modLx p f s).out = s.out := (modLx_changes ..).out
@[simp] theorem out_sj (c v : Nat) (i : Bytes) (s : State) : (sj c v i s).out = s.out := (sj_changes ..).out
@[simp] theorem out_drawn (s : State) : (drawn s).out = s.out := rfl

/-- A record written on the way of a bus. -/
theorem journals_of_land {code sev : Nat} {items : Bytes} {s u t : State} (hfrom : Changes landParts s u)
    (hto : Changes landParts (sj code sev items u) t) : Safety.journals code sev items s t :=
  Safety.journals_of_sj (hfrom.get .sjGrows) (hto.get .sjGrows) (by rw [opMs, opMs, hfrom.get .opUs]) (hfrom.get .pwrCycles)

/-- What a bus does afterwards does not take a record back. -/
theorem journals_land {code sev : Nat} {items : Bytes} {s t u : State} (h : Safety.journals code sev items s t) (k : Changes landParts t u) :
    Safety.journals code sev items s u := Safety.journals_mono h (k.get .sjGrows)

/-! ### A frame sent (R287) -/

theorem lbChange_inside (p : Nat) (f : Lb → Lb) (s : State) : Changes (.lb :: bookParts) s (lbChange p f s) := by
  have hset (b : Lb) : Changes (.lb :: bookParts) s (setLb p b s) := (setLb_changes p b s).mono
  exact .ite ((Changes.ite ((hset _).trans (sj_changes ..)) (hset _)).trans (pushEvent_changes ..))
    (.ite ((hset _).trans (sj_changes ..)) (hset _))

theorem storeFrame_inside (p ts : Nat) (f : CanFrame) (s : State) : Changes (.lb :: bookParts) s (storeFrame p ts f s) :=
  .ite ((((push_changes ..).mono.trans (modLb_changes ..)).trans (modLx_changes ..)).trans (trRepCount_changes ..))
    ((((dataWrite_changes ..).mono.trans (push_changes ..)).trans (modLb_changes ..)).trans (modLx_changes ..))

/-- Storing a frame changes the two counters of its port alone. -/
theorem lbOf_storeFrame (p : Fin 4) (ts : Nat) (f : CanFrame) (s : State) :
    ∃ rx rxDrop, lbOf (storeFrame p ts f s) p = { lbOf s p with rx := rx, rxDrop := rxDrop } := by
  by_cases hfull : ringFull (ringGet s (lbCfg s p).rxRing) = true
  · refine ⟨(lbOf s p).rx, satInc (lbOf s p).rxDrop, ?_⟩
    unfold storeFrame
    dsimp only
    rw [if_pos hfull, lbOf_congr ((trRepCount_changes ..).get .lb), lbOf_modLx, lbOf_modLb, if_pos rfl, lbOf_congr ((push_changes ..).get .lb)]
  · refine ⟨(lbOf s p).rx + 1, (lbOf s p).rxDrop, ?_⟩
    unfold storeFrame
    dsimp only
    rw [if_neg hfull, lbOf_modLx, lbOf_modLb, if_pos rfl, lbOf_congr ((push_changes ..).get .lb), lbOf_congr ((dataWrite_changes ..).get .lb)]

/-- A frame sent: it leaves, it is counted, and the transmit error counter falls. -/
theorem txDone_shows (p : Fin 4) (ts : Nat) (f : CanFrame) (s : State) :
    (txDone p ts f s).out.can = (p.val, f) :: s.out.can ∧
      ∃ rx rxDrop passive, lbOf (txDone p ts f s) p =
        { lbOf s p with rx := rx, rxDrop := rxDrop, tx := (lbOf s p).tx + 1, tec := (lbOf s p).tec - 1, passive := passive } := by
  obtain ⟨rx, rxDrop, hstored⟩ := lbOf_storeFrame p ts f s
  constructor
  · rw [txDone, (lbChange_inside ..).out, canOut, (storeFrame_inside ..).out]
  · refine ⟨rx, rxDrop, decide ((lbOf s p).tec - 1 > 127 ∨ (lbOf s p).recCnt > 127), ?_⟩
    rw [txDone, lbOf_lbChange, if_pos rfl, lbOf_canOut, hstored]

/-! ### The time master stops, meets a conflict and defers (R295) -/

theorem tmStop_changes (p : Nat) (tm : BitVec 3) (s : State) : Changes (.lb :: bookParts) s (tmStop p tm s) :=
  .ite (((modLb_changes ..).mono.trans (drawn_changes _)).trans (sj_changes ..)) (modLb_changes ..).mono

@[simp] theorem lbOf_tmStop (p q : Fin 4) (tm : BitVec 3) (s : State) :
    lbOf (tmStop p tm s) q = if q = p then { lbOf s p with tm := tm } else lbOf s q := by
  unfold tmStop
  split
  · rw [lbOf_sj, lbOf_drawn, lbOf_modLb]
  · rw [lbOf_modLb]

@[simp] theorem lxOf_tmStop (p q : Nat) (tm : BitVec 3) (s : State) : lxOf (tmStop p tm s) q = lxOf s q := by
  unfold tmStop
  split
  · rw [lxOf_sj, lxOf_drawn, lxOf_modLb]
  · rw [lxOf_modLb]

/-- That references stop is recorded where they were sent. -/
theorem tmStop_journals {p : Nat} {tm : BitVec 3} {s u t : State} (hfrom : Changes landParts s u)
    (hsent : (lbOf u p).tm = 1 ∨ (lbOf u p).tm = 2) (hto : Changes landParts (tmStop p tm u) t) :
    ∃ cause, Safety.journals 0x711 0 (item p ++ item cause) s t := by
  rw [tmStop, if_pos hsent] at hto
  exact ⟨_, journals_of_land (hfrom.join ((modLb_changes ..).mono.trans (drawn_changes _))) hto⟩

theorem tmConflict_changes (p cause : Nat) (s : State) : Changes (.lb :: bookParts) s (tmConflict p cause s) :=
  ((tmStop_changes ..).trans (modLb_changes ..)).trans (sj_changes ..)

/-- A conflict: the port defers with its conflict shown, what it sent stops, and nothing is sent. -/
theorem tmConflict_shows (p : Fin 4) (cause : Nat) {s u t : State} (hfrom : Changes landParts s u)
    (hto : Changes landParts (tmConflict p cause u) t) :
    lbOf (tmConflict p cause u) p = { lbOf u p with tm := 4, conflict := true } ∧ lxOf (tmConflict p cause u) p = lxOf u p ∧
      Safety.journals 0x712 1 (item p ++ item cause) s t ∧
      ((lbOf u p).tm = 1 ∨ (lbOf u p).tm = 2 → ∃ why, Safety.journals 0x711 0 (item p ++ item why) s t) := by
  refine ⟨by simp [tmConflict], by simp [tmConflict], ?_, fun hsent => ?_⟩
  · exact journals_of_land (hfrom.join ((tmStop_changes ..).mono.trans (modLb_changes ..))) hto
  · refine tmStop_journals (tm := 4) hfrom hsent (Changes.join ?_ hto)
    exact (modLb_changes ..).mono.trans (sj_changes ..)

end
end Sys2Proof.Machine
end

section
/-! SUPPORT. The boundary of a time master's cycle (R292 to R295). -/

namespace Sys2Proof.Machine

section
set_option Elab.async false

/-! ### Writes of one port -/

theorem setLx_setLx (p : Nat) (x y : LbCtx) (s : State) : setLx p x (setLx p y s) = setLx p x s := by
  unfold setLx
  split_ifs <;> rfl

theorem setLb_self (p : Nat) (s : State) : setLb p (lbOf s p) s = s := by
  unfold setLb lbOf
  split_ifs <;> rfl

theorem modLb_tm {p : Nat} {tm : BitVec 3} {s : State} (h : (lbOf s p).tm = tm) : modLb p (fun b => { b with tm := tm }) s = s := by
  have hself (b : Lb) (hb : b.tm = tm) : { b with tm := tm } = b := by rw [← hb]
  rw [modLb, hself _ h, setLb_self]

theorem setLx_self (p : Nat) (s : State) : setLx p (lxOf s p) s = s := by
  unfold setLx lxOf
  split_ifs <;> rfl

theorem modLx_modLx (p : Fin 4) (f g : LbCtx → LbCtx) (s : State) : modLx p f (modLx p g s) = setLx p (f (g (lxOf s p))) s := by
  rw [modLx, lxOf_modLx, if_pos rfl, modLx, setLx_setLx]

theorem modLx_setLx (p : Fin 4) (f : LbCtx → LbCtx) (x : LbCtx) (s : State) : modLx p f (setLx p x s) = setLx p (f x) s := by
  rw [modLx, lxOf_setLx, if_pos rfl, setLx_setLx]

@[simp] theorem out_setLx (p : Nat) (x : LbCtx) (s : State) : (setLx p x s).out = s.out := (setLx_changes ..).out
theorem opUs_setLx (p : Nat) (x : LbCtx) (s : State) : (setLx p x s).clk.opUs = s.clk.opUs := rfl
theorem lbCfg_setLx (p : Nat) (x : LbCtx) (s : State) : lbCfg (setLx p x s) p = lbCfg s p := by rw [lbCfg, lbOf_setLx, lbCfg]

/-! ### Who acts at a boundary -/

/-- A boundary counts for a bus that is NORMAL, with its transmitter on and awake, 1,000 ms after entry to RUN. -/
def TimeRuns (s : State) (p : Nat) : Prop :=
  lbThere s p = true ∧ (s.power.state = .run ∨ s.power.state = .halt) ∧ (lbOf s p).state = .normal ∧ (lbOf s p).polarity = false ∧
    (lxOf s p).phase ≠ .asleep ∧ s.power.runEntryUs + 1000000 ≤ s.clk.opUs

theorem timeRuns_iff (s : State) (p : Nat) : ¬ (TimeRuns s p ∧ (lbCfg s p).tmRole ≠ 0) ↔
    (!lbThere s p ∨ (lbCfg s p).tmRole = 0 ∨ !inRunOrHalt s ∨ (lbOf s p).state ≠ .normal ∨ (lbOf s p).polarity ∨
      (lxOf s p).phase = .asleep ∨ s.clk.opUs < s.power.runEntryUs + 1000000) := by
  rw [TimeRuns, inRunOrHalt]
  constructor
  · intro h
    by_contra hnot
    push Not at hnot
    obtain ⟨hthere, hrole, hrun, hstate, hpol, hphase, htime⟩ := hnot
    exact h ⟨⟨by simpa using hthere, by simpa [or_iff_not_imp_left] using hrun, hstate, by simpa using hpol, hphase, htime⟩, hrole⟩
  · rintro h ⟨⟨hthere, hrun, hstate, hpol, hphase, htime⟩, hrole⟩
    rcases h with h | h | h | h | h | h | h
    · simp [hthere] at h
    · exact hrole h
    · simp [hrun] at h
    · exact h hstate
    · simp [hpol] at h
    · exact hphase h
    · omega

theorem tmBoundary_idle {p : Nat} {s : State} (h : ¬ TimeRuns s p ∨ (lbCfg s p).tmRole = 0) (done : Option Nat) (be : Bool) :
    tmBoundary p done be s = s := by
  unfold tmBoundary
  dsimp only
  rw [if_pos ((timeRuns_iff s p).1 fun hboth => ?_)]
  exact h.elim (fun hnot => hnot hboth.1) fun hzero => hboth.2 hzero

/-- A master's boundary. -/
theorem tmBoundary_master {p : Fin 4} {s : State} (hruns : TimeRuns s p) (hrole : (lbCfg s p).tmRole = 1) (hpacer : s.power.role ≠ .pacer)
    (done : Option Nat) (be : Bool) : tmBoundary p done be s =
      if refWithin s p 3 (lxOf s p).refRxUs = true then tmDefer p (modLx p (fun y => { y with skip := y.skip - 1 }) s)
      else if (lxOf s p).skip > 0 then setLx p { lxOf s p with skip := (lxOf s p).skip - 1, foreign := false } s
      else tmSend p false done be (setLx p { lxOf s p with skip := (lxOf s p).skip - 1, foreign := false } s) := by
  have hacts : TimeRuns s p ∧ (lbCfg s p).tmRole ≠ 0 := ⟨hruns, by rw [hrole]; decide⟩
  unfold tmBoundary
  dsimp only
  rw [if_neg (fun h => (timeRuns_iff s p).2 h hacts), if_pos ⟨hrole, hpacer⟩, modLx_modLx]

/-- A backup's boundary, with a master heard of late and without. -/
theorem tmBoundary_backup {p : Fin 4} {s : State} (hruns : TimeRuns s p) (hrole : (lbCfg s p).tmRole ≠ 0)
    (hbackup : (lbCfg s p).tmRole ≠ 1 ∨ s.power.role = .pacer) (done : Option Nat) (be : Bool) :
    ((∀ t, (lxOf s p).refRxBndUs = some t → cyclesSince s p t < 4) →
      tmBoundary p done be s = tmStop p 3 (setLx p { lxOf s p with foreign := false } s)) ∧
    ∀ t, (lxOf s p).refRxBndUs = some t → 4 ≤ cyclesSince s p t →
      tmBoundary p done be s = tmSend p true done be (setLx p { lxOf s p with foreign := false } s) := by
  have hforeign : (if (lxOf s p).foreign then modLx p (fun y => { y with foreign := false }) s else s) =
      setLx p { lxOf s p with foreign := false } s := by
    by_cases hf : (lxOf s p).foreign = true
    · rw [if_pos hf]
      rfl
    · rw [if_neg hf]
      have hsame (x : LbCtx) (h : x.foreign = false) : { x with foreign := false } = x := by rw [← h]
      rw [hsame _ (Bool.not_eq_true _ ▸ hf), setLx_self]
  unfold tmBoundary
  dsimp only
  rw [if_neg (fun h => (timeRuns_iff s p).2 h ⟨hruns, hrole⟩), if_neg (fun h => hbackup.elim (· h.1) h.2), hforeign]
  refine ⟨fun hearly => ?_, fun t ht hlate => ?_⟩
  · split
    next t ht => exact if_neg (Nat.not_le.2 (hearly t ht))
    next => rfl
  · split
    next u hu => exact if_pos (Option.some.inj (ht.symm.trans hu) ▸ hlate)
    next hu => exact absurd (hu.symm.trans ht) (Option.some_ne_none t).symm

/-! ### Deferring -/

theorem tmDefer_of_foreign {p : Nat} {s : State} (h : (lxOf s p).foreign = true) : tmDefer p s = s := if_pos h

theorem tmDefer_shows (p : Fin 4) {s u : State} (hfrom : Changes landParts s u) (h : (lxOf u p).foreign = false) :
    lbOf (tmDefer p u) p = { lbOf u p with tm := 4, conflict := true } ∧ lxOf (tmDefer p u) p = { lxOf u p with foreign := true } ∧
      (tmDefer p u).out = u.out ∧ Safety.journals 0x712 1 (item p ++ item 0) s (tmDefer p u) ∧
      ((lbOf u p).tm = 1 ∨ (lbOf u p).tm = 2 → ∃ why, Safety.journals 0x711 0 (item p ++ item why) s (tmDefer p u)) := by
  have heq : tmDefer p u = modLx p (fun x => { x with foreign := true }) (tmConflict p 0 u) := if_neg (by simp [h])
  have hto : Changes landParts (tmConflict p 0 u) (tmDefer p u) := heq ▸ (modLx_changes ..).mono
  obtain ⟨hlb, hlx, hconflict, hstop⟩ := tmConflict_shows p 0 hfrom hto
  refine ⟨?_, ?_, ?_, hconflict, hstop⟩
  · rw [heq, lbOf_modLx, hlb]
  · rw [heq, lxOf_modLx, if_pos rfl, hlx]
  · rw [heq, out_modLx, (tmConflict_changes ..).out]

/-! ### The next cycle (R293) -/

/-- One cycle on. -/
def cycleOn (us : Nat) (x : LbCtx) : LbCtx := { x with bndCycle := x.bndCycle + 1, bndUs := x.bndUs + BitVec.ofNat 64 us }

theorem nextCycle_sending (p : Fin 4) (backup : Bool) (x : LbCtx) (s : State) :
    nextCycle p true backup (setLx p x s) = setLx p (cycleOn (1000 * (lbCfg s p).cycleMs) x) s := by
  unfold nextCycle
  dsimp only
  rw [if_pos rfl, modLx_setLx, lbCfg_setLx]
  rfl

theorem continuity_none {p : Nat} {s : State} (h : refWithin s p 3 (lxOf s p).refAnyUs = false) : continuity s p false = none := by
  unfold continuity
  dsimp only
  cases (lxOf s p).seenBndUs <;> simp [h]

theorem continuity_some {p : Nat} {s : State} {u : Nat} (h : refWithin s p 3 (lxOf s p).refAnyUs = true)
    (hseen : (lxOf s p).seenBndUs = some u) (backup : Bool) : continuity s p backup = some (cyclesSince s p u) := by
  unfold continuity
  dsimp only
  rw [hseen]
  simp [h]

theorem refWithin_setLx (p k : Nat) (x : LbCtx) (s : State) (t : Option Nat) : refWithin (setLx p x s) p k t = refWithin s p k t := by
  unfold refWithin
  rw [lbCfg_setLx, opUs_setLx]

theorem cyclesSince_setLx (p t : Nat) (x : LbCtx) (s : State) : cyclesSince (setLx p x s) p t = cyclesSince s p t := by
  unfold cyclesSince
  rw [lbCfg_setLx, opUs_setLx]

/-- With no reference of the last 3 cycles a new epoch starts at 0. -/
theorem nextCycle_new {p : Fin 4} {x : LbCtx} {s : State} (h : refWithin s p 3 x.refAnyUs = false) :
    nextCycle p false false (setLx p x s) =
      setLx p { x with epoch := x.epoch + 1, bndCycle := 0, bndUs := BitVec.ofNat 64 s.clk.opUs } s := by
  have hnone : continuity (setLx p x s) p false = none :=
    continuity_none (by rw [lxOf_setLx, if_pos rfl, refWithin_setLx, h])
  unfold nextCycle
  dsimp only
  rw [if_neg Bool.false_ne_true, hnone]
  dsimp only
  rw [modLx_setLx, opUs_setLx]

/-- With one the time of its sender goes on. -/
theorem nextCycle_seen {p : Fin 4} {x : LbCtx} {s : State} {u : Nat} (h : refWithin s p 3 x.refAnyUs = true) (hseen : x.seenBndUs = some u) :
    nextCycle p false false (setLx p x s) =
      setLx p { x with
        bndCycle := x.seenCycle + BitVec.ofNat 32 (cyclesSince s p u)
        bndUs := x.seenUs + BitVec.ofNat 64 (1000 * (lbCfg s p).cycleMs * cyclesSince s p u) } s := by
  have hsome : continuity (setLx p x s) p false = some (cyclesSince s p u) := by
    rw [continuity_some (u := u) (by rw [lxOf_setLx, if_pos rfl, refWithin_setLx, h]) (by rw [lxOf_setLx, if_pos rfl, hseen]), cyclesSince_setLx]
  unfold nextCycle
  dsimp only
  rw [if_neg Bool.false_ne_true, hsome]
  dsimp only
  rw [modLx_setLx, lbCfg_setLx]

theorem nextCycle_changes (p : Nat) (sending backup : Bool) (s : State) : Changes [.lb] s (nextCycle p sending backup s) := by
  unfold nextCycle
  dsimp only
  split_ifs
  · exact modLx_changes ..
  · split
    · exact modLx_changes ..
    · exact modLx_changes ..

theorem lbOf_nextCycle (p q : Nat) (sending backup : Bool) (s : State) : lbOf (nextCycle p sending backup s) q = lbOf s q := by
  unfold nextCycle
  dsimp only
  split_ifs
  · rw [lbOf_modLx]
  · split
    · rw [lbOf_modLx]
    · rw [lbOf_modLx]

/-! ### Sending at the boundary -/

/-- What the sender's kind is called in TM. -/
def senderMode (backup : Bool) : BitVec 3 := if backup then 2 else 1

/-- A reference as a bus with CAN FD sends it (R292). -/
theorem refFrame_of_fd {p id flags : Nat} {us : DWord} {cycle : Word} {s : State} (h : (lbCfg s p).fd = true) :
    refFrame p id flags 0 us cycle s =
      { id := BitVec.ofNat 29 id, fdf := true, brs := decide ((lbCfg s p).dataRate ≠ 0), esi := (lbOf s p).passive, dlc := 10, own := true
        data := leBytes 8 us.toNat ++ leBytes 4 cycle.toNat ++ leBytes 2 (lxOf s p).epoch.toNat ++ leBytes 1 flags ++ [0] } := by
  have hdata (e : Half) : padTo 16 (leBytes 8 us.toNat ++ leBytes 4 cycle.toNat ++ leBytes 2 e.toNat ++ leBytes 1 flags ++ leBytes 1 0) =
      leBytes 8 us.toNat ++ leBytes 4 cycle.toNat ++ leBytes 2 e.toNat ++ leBytes 1 flags ++ [0] := by
    rw [padTo, List.take_left' (by simp)]
    rfl
  rw [refFrame, frameSent, h]
  simp only [Bool.and_true, if_true, Bool.true_and, Bool.not_true, Bool.false_eq_true, and_false, if_false]
  exact congrArg (fun d => ({ id := BitVec.ofNat 29 id, fdf := true, brs := decide ((lbCfg s p).dataRate ≠ 0), esi := (lbOf s p).passive
                              dlc := 10, own := true, data := d } : CanFrame)) (hdata (lxOf s p).epoch)

/-- One that sends goes on sending: its next reference leaves with the next cycle's time. -/
theorem tmSend_sent {p : Fin 4} {backup : Bool} {x : LbCtx} {s : State} (hsending : (lbOf s p).tm = senderMode backup)
    (hfd : (lbCfg s p).fd = true) (d : Nat) (be : Bool) :
    let on := cycleOn (1000 * (lbCfg s p).cycleMs) x
    let t := tmSend p backup (some d) be (setLx p x s)
    t.out.can = (p.val, { id := BitVec.ofNat 29 ((lbCfg s p).refId + b2n backup), fdf := true, brs := decide ((lbCfg s p).dataRate ≠ 0)
                          esi := (lbOf s p).passive, dlc := 10, own := true
                          data := leBytes 8 on.bndUs.toNat ++ leBytes 4 on.bndCycle.toNat ++ leBytes 2 x.epoch.toNat ++
                            leBytes 1 (if backup then 8 else 0) ++ [0] }) :: s.out.can ∧
      ∃ rx rxDrop passive, lbOf t p = { lbOf s p with
        cycle := on.bndCycle, masterUs := on.bndUs, rx := rx, rxDrop := rxDrop, tx := (lbOf s p).tx + 1, tec := (lbOf s p).tec - 1
        passive := passive } := by
  intro on t
  have hmode : (if backup then 2 else 1 : BitVec 3) = (lbOf s p).tm := hsending.symm
  have hstate : modLb p (fun b => { b with tm := if backup then 2 else 1 }) (nextCycle p true backup (setLx p x s)) = setLx p on s := by
    rw [nextCycle_sending, hmode, modLb_tm (by rw [lbOf_setLx])]
  have ht : t = txDone p (s.clk.opUs + d) (refFrame p ((lbCfg s p).refId + b2n backup) (if backup then 8 else 0) 0 on.bndUs on.bndCycle (setLx p on s))
      (modLb p (fun b => { b with cycle := on.bndCycle, masterUs := on.bndUs }) (setLx p on s)) := by
    have hyes : decide ((lbOf (setLx p x s) p).tm = (if backup then 2 else 1)) = true := by rw [lbOf_setLx, hmode]; exact decide_eq_true rfl
    simp only [t, tmSend, hyes, hstate, if_true, lxOf_setLx, lbCfg_setLx, opUs_setLx]
  obtain ⟨hcan, rx, rxDrop, passive, hlb⟩ := txDone_shows p (s.clk.opUs + d)
    (refFrame p ((lbCfg s p).refId + b2n backup) (if backup then 8 else 0) 0 on.bndUs on.bndCycle (setLx p on s))
    (modLb p (fun b => { b with cycle := on.bndCycle, masterUs := on.bndUs }) (setLx p on s))
  constructor
  · rw [ht, hcan, refFrame_of_fd (by rw [lbCfg_setLx, hfd]), lbCfg_setLx, lbOf_setLx, lxOf_setLx, if_pos rfl, out_modLb, out_setLx]
    rfl
  · refine ⟨rx, rxDrop, passive, ?_⟩
    rw [ht, hlb, lbOf_modLb, if_pos rfl, lbOf_setLx]

/-- Where nothing is completed nothing leaves; one that sends is not recorded anew. -/
theorem tmSend_quiet {p : Fin 4} {x : LbCtx} {s : State} (hsending : (lbOf s p).tm = 1) :
    tmSend p false none false (setLx p x s) = setLx p (cycleOn (1000 * (lbCfg s p).cycleMs) x) s := by
  have hstate : modLb p (fun b => { b with tm := 1 }) (nextCycle p true false (setLx p x s)) =
      setLx p (cycleOn (1000 * (lbCfg s p).cycleMs) x) s := by
    rw [nextCycle_sending, modLb_tm (by rw [lbOf_setLx, hsending])]
  have hyes : decide ((lbOf (setLx p x s) p).tm = 1) = true := by rw [lbOf_setLx, hsending]; rfl
  simp only [tmSend, if_false, Bool.false_eq_true, hyes, hstate, if_true, false_and]

/-- A bit error: the master defers with a conflict and skips. -/
theorem tmSend_bitError {p : Fin 4} {x : LbCtx} {s r : State} (hsending : (lbOf s p).tm = 1) (hfrom : Changes landParts r s) :
    let t := tmSend p false none true (setLx p x s)
    lbOf t p = { lbOf s p with tm := 4, conflict := true } ∧
      lxOf t p = { cycleOn (1000 * (lbCfg s p).cycleMs) x with skip := ownMember s + 1 } ∧ t.out = s.out ∧
      Safety.journals 0x712 1 (item p ++ item 1) r t ∧ ∃ why, Safety.journals 0x711 0 (item p ++ item why) r t := by
  intro t
  have hstate : modLb p (fun b => { b with tm := 1 }) (nextCycle p true false (setLx p x s)) =
      setLx p (cycleOn (1000 * (lbCfg s p).cycleMs) x) s := by
    rw [nextCycle_sending, modLb_tm (by rw [lbOf_setLx, hsending])]
  have hyes : decide ((lbOf (setLx p x s) p).tm = 1) = true := by rw [lbOf_setLx, hsending]; rfl
  generalize cycleOn (1000 * (lbCfg s p).cycleMs) x = on at hstate ⊢
  have ht : t = modLx p (fun y => { y with skip := ownMember (setLx p x s) + 1 }) (tmConflict p 1 (setLx p on s)) := by
    simp only [t, tmSend, if_false, Bool.false_eq_true, hyes, hstate, if_true, Bool.not_false, and_self]
  have hto : Changes landParts (tmConflict p 1 (setLx p on s)) t := ht ▸ (modLx_changes ..).mono
  obtain ⟨hlb, hlx, hconflict, hstop⟩ := tmConflict_shows p 1 (hfrom.join (setLx_changes p on s).mono) hto
  refine ⟨?_, ?_, ?_, hconflict, hstop (.inl (by rw [lbOf_setLx, hsending]))⟩
  · rw [ht, lbOf_modLx, hlb, lbOf_setLx]
  · rw [ht, lxOf_modLx, if_pos rfl, hlx, lxOf_setLx, if_pos rfl]
    rfl
  · rw [ht, out_modLx, (tmConflict_changes ..).out, out_setLx]

/-- One that begins to send is shown and recorded with its cycle and epoch; what is not completed does not leave. -/
theorem tmSend_begins {p : Fin 4} {backup be : Bool} {s r : State} (hquiet : (lbOf s p).tm ≠ senderMode backup) (hbe : ¬ (be ∧ !backup))
    (hfrom : Changes landParts r s) :
    let t := tmSend p backup none be s
    let x := lxOf (nextCycle p false backup s) p
    lbOf t p = { lbOf s p with tm := senderMode backup } ∧ lxOf t p = x ∧ t.out = s.out ∧
      Safety.journals 0x710 0 (item p ++ item (b2n backup) ++ item x.bndCycle.toNat ++ item x.epoch.toNat) r t := by
  intro t x
  have hno : decide ((lbOf s p).tm = (if backup then 2 else 1)) = false := decide_eq_false hquiet
  have hx : lxOf (modLb p (fun b => { b with tm := senderMode backup }) (nextCycle p false backup s)) p = x := lxOf_modLb ..
  have ht : t = sj 0x710 0 (item p ++ item (b2n backup) ++ item x.bndCycle.toNat ++ item x.epoch.toNat)
      (modLb p (fun b => { b with tm := senderMode backup }) (nextCycle p false backup s)) := by
    have hsend : t = let s1 := modLb p (fun b => { b with tm := senderMode backup }) (nextCycle p false backup s)
        let s2 := sj 0x710 0 (item p ++ item (b2n backup) ++ item (lxOf s1 p).bndCycle.toNat ++ item (lxOf s1 p).epoch.toNat) s1
        if be ∧ !backup then modLx p (fun y => { y with skip := ownMember s + 1 }) (tmConflict p 1 s2) else s2 := by
      simp only [t, tmSend, hno]
      rfl
    rw [hsend]
    dsimp only
    rw [if_neg hbe, hx]
  refine ⟨?_, ?_, ?_, ?_⟩
  · rw [ht, lbOf_sj, lbOf_modLb, if_pos rfl, lbOf_nextCycle]
  · rw [ht, lxOf_sj, hx]
  · rw [ht, out_sj, out_modLb, (nextCycle_changes ..).out]
  · rw [ht]
    exact journals_of_land (hfrom.join ((nextCycle_changes ..).mono.trans (modLb_changes ..))) (.refl _ _)

end
end Sys2Proof.Machine
end

section
/-! SUPPORT. The cut of the L image: its bits, its frames and its LIVE bits (R284 to R286). -/

namespace Sys2Proof.Machine

section
set_option Elab.async false

/-! ### The bits of the image -/

/-- A sum of digits of base 16 has the digits as its nibbles. -/
theorem testBit_nibbles {f : Nat → Nat} (hf : ∀ i, f i < 16) (N : Nat) :
    (List.range N).foldl (fun a i => a + f i * 16 ^ i) 0 < 16 ^ N ∧
      ∀ i < N, ∀ k < 4, ((List.range N).foldl (fun a i => a + f i * 16 ^ i) 0).testBit (4 * i + k) = (f i).testBit k := by
  have hpow (n : Nat) : 16 ^ n = 2 ^ (4 * n) := by rw [Nat.pow_mul]
  induction N with
  | zero => exact ⟨Nat.one_pos, fun i hi => absurd hi (Nat.not_lt_zero i)⟩
  | succ N ih =>
    obtain ⟨hlt, hbits⟩ := ih
    rw [List.range_succ, List.foldl_append]
    generalize List.foldl (fun a i => a + f i * 16 ^ i) 0 (List.range N) = low at hlt hbits
    have hsum : [N].foldl (fun a i => a + f i * 16 ^ i) low = 2 ^ (4 * N) * f N + low := by
      rw [List.foldl_cons, List.foldl_nil, hpow, Nat.add_comm, Nat.mul_comm]
    rw [hsum]
    rw [hpow] at hlt
    constructor
    · have := Nat.mul_le_mul_left (2 ^ (4 * N)) (Nat.le_of_lt_succ (hf N))
      rw [Nat.pow_succ, hpow]
      omega
    · intro i hi k hk
      rw [Nat.testBit_two_pow_mul_add _ hlt]
      by_cases hin : i < N
      · rw [if_pos (by omega), hbits i hin k hk]
      · have hlast : i = N := by omega
        rw [if_neg (by omega), hlast, Nat.add_sub_cancel_left]

theorem nodeNibble_bits (s : State) (p n : Nat) : nodeNibble s p n < 16 ∧
    ∀ k ∈ [(0, (nodeOf s p n).present), (1, (nodeOf s p n).faults.getLsbD 0), (2, (nodeOf s p n).faults.getLsbD 1), (3, testFail s p n)],
      (nodeNibble s p n).testBit k.1 = k.2 := by
  have hall (a b c d : Bool) : b2n a + 2 * b2n b + 4 * b2n c + 8 * b2n d < 16 ∧
      ∀ k ∈ [(0, a), (1, b), (2, c), (3, d)], (b2n a + 2 * b2n b + 4 * b2n c + 8 * b2n d).testBit k.1 = k.2 := by
    cases a <;> cases b <;> cases c <;> cases d <;> decide
  exact hall ..

/-- The nibbles of the nodes of a bus. -/
def nodesWord (s : State) (p : Nat) : Nat := (List.range 100).foldl (fun a i => a + nodeNibble s p (i + 1) * 16 ^ i) 0

/-- The image with the nodes of one bus. -/
def withNodes (s : State) (v : BitVec 4096) (p : Nat) : BitVec 4096 := if isBeacon s p then setField v (2048 + 400 * p) 400 (nodesWord s p) else v

/-- The image with the status of one bus. -/
def withStatus (s : State) (v : BitVec 4096) (p : Nat) : BitVec 4096 := setField v (3840 + 64 * p) 64 (busStatus s p)

theorem lImageOf_eq (s : State) :
    lImageOf s = (List.range 4).foldl (withStatus s) ((List.range 4).foldl (withNodes s) (s.lb.lOut.setWidth 4096)) := by
  with_unfolding_all rfl

/-- Writes of four fields, none of them here. -/
theorem foldl_four_out {w j : Nat} {g : BitVec w → Nat → BitVec w} (hout : ∀ v, ∀ p < 4, (g v p).getLsbD j = v.getLsbD j) (v : BitVec w) :
    ((List.range 4).foldl g v).getLsbD j = v.getLsbD j := by
  change (g (g (g (g v 0) 1) 2) 3).getLsbD j = _
  rw [hout _ 3 (by omega), hout _ 2 (by omega), hout _ 1 (by omega), hout _ 0 (by omega)]

/-- Writes of four fields, the bit in one of them. -/
theorem foldl_four_in {w j : Nat} {g : BitVec w → Nat → BitVec w} {v : BitVec w} {b : Bool} (q : Fin 4)
    (hout : ∀ (u : BitVec w) (p : Nat), p < 4 → p ≠ q.val → (g u p).getLsbD j = u.getLsbD j) (hin : ∀ u, u.getLsbD j = v.getLsbD j → (g u q).getLsbD j = b) :
    ((List.range 4).foldl g v).getLsbD j = b := by
  change (g (g (g (g v 0) 1) 2) 3).getLsbD j = _
  fin_cases q
  · rw [hout _ 3 (by omega) (by decide), hout _ 2 (by omega) (by decide), hout _ 1 (by omega) (by decide)]
    exact hin _ rfl
  · rw [hout _ 3 (by omega) (by decide), hout _ 2 (by omega) (by decide)]
    exact hin _ (hout _ 0 (by omega) (by decide))
  · rw [hout _ 3 (by omega) (by decide)]
    exact hin _ (by rw [hout _ 1 (by omega) (by decide), hout _ 0 (by omega) (by decide)])
  · exact hin _ (by rw [hout _ 2 (by omega) (by decide), hout _ 1 (by omega) (by decide), hout _ 0 (by omega) (by decide)])

theorem withNodes_out {s : State} {v : BitVec 4096} {p j : Nat} (hj : j < 2048 + 400 * p ∨ 2048 + 400 * p + 400 ≤ j) :
    (withNodes s v p).getLsbD j = v.getLsbD j := by
  unfold withNodes
  split
  · exact getLsbD_setField_out v hj
  · rfl

theorem withNodes_in {s : State} {v : BitVec 4096} {p i : Nat} (hp : p < 4) (hi : i < 400) (hv : v.getLsbD (2048 + 400 * p + i) = false) :
    (withNodes s v p).getLsbD (2048 + 400 * p + i) = (isBeacon s p && (nodesWord s p).testBit i) := by
  unfold withNodes
  cases hb : isBeacon s p
  · simpa using hv
  · rw [if_pos rfl, getLsbD_setField_in v hi (by omega), Bool.true_and]

theorem withStatus_out {s : State} {v : BitVec 4096} {p j : Nat} (hj : j < 3840 + 64 * p ∨ 3840 + 64 * p + 64 ≤ j) :
    (withStatus s v p).getLsbD j = v.getLsbD j := getLsbD_setField_out v hj

/-- Below the nodes the image has what the frames wrote. -/
theorem lImageOf_low {s : State} {j : Nat} (hj : j < 2048) : (lImageOf s).getLsbD j = s.lb.lOut.getLsbD j := by
  rw [lImageOf_eq, foldl_four_out fun v p _ => withStatus_out (by omega), foldl_four_out fun v p _ => withNodes_out (by omega),
    BitVec.getLsbD_setWidth, decide_eq_true (by omega), Bool.true_and]

/-- The status field of each bus. -/
theorem lImageOf_status (s : State) (q : Fin 4) {k : Nat} (hk : k < 64) :
    (lImageOf s).getLsbD (3840 + 64 * q.val + k) = (busStatus s q).testBit k := by
  rw [lImageOf_eq]
  exact foldl_four_in q (fun v p _ hp => withStatus_out (by omega)) fun v _ => getLsbD_setField_in v hk (by omega)

/-- The nibble of each node. -/
theorem lImageOf_nodes (s : State) (q : Fin 4) {n k : Nat} (h1 : 1 ≤ n) (h100 : n ≤ 100) (hk : k < 4) :
    (lImageOf s).getLsbD (2048 + 400 * q.val + 4 * (n - 1) + k) = (isBeacon s q && (nodeNibble s q n).testBit k) := by
  have hword : (nodesWord s q).testBit (4 * (n - 1) + k) = (nodeNibble s q n).testBit k := by
    have h := (testBit_nibbles (f := fun i => nodeNibble s q (i + 1)) (fun i => (nodeNibble_bits ..).1) 100).2 (n - 1) (by omega) k hk
    rwa [show n - 1 + 1 = n from by omega] at h
  have hi : 4 * (n - 1) + k < 400 := by omega
  rw [lImageOf_eq, Nat.add_assoc, ← hword]
  generalize 4 * (n - 1) + k = i at hi
  have hbase : (s.lb.lOut.setWidth 4096).getLsbD (2048 + 400 * q.val + i) = false := by
    rw [BitVec.getLsbD_setWidth, BitVec.getLsbD_of_ge _ _ (by omega), Bool.and_false]
  rw [foldl_four_out fun v p _ => withStatus_out (by omega)]
  exact foldl_four_in q (fun v p _ hp => withNodes_out (by omega)) fun v hv => withNodes_in q.isLt hi (hv.trans hbase)

end
end Sys2Proof.Machine
end

section
/-! SUPPORT. What a cut of the L image takes in and leaves (R284 to R286). -/

namespace Sys2Proof.Machine

section
set_option Elab.async false

/-! ### Folds over the four ports -/

theorem foldl_four_one {α : Type} {g : α → Nat → α} (p : Fin 4) (h : ∀ (a : α) (q : Nat), q < 4 → q ≠ p.val → g a q = a) (a : α) :
    (List.range 4).foldl g a = g a p := by
  change g (g (g (g a 0) 1) 2) 3 = _
  fin_cases p
  · rw [h _ 3 (by omega) (by decide), h _ 2 (by omega) (by decide), h _ 1 (by omega) (by decide)]
  · rw [h _ 3 (by omega) (by decide), h _ 2 (by omega) (by decide), h _ 0 (by omega) (by decide)]
  · rw [h _ 3 (by omega) (by decide), h _ 1 (by omega) (by decide), h _ 0 (by omega) (by decide)]
  · rw [h _ 2 (by omega) (by decide), h _ 1 (by omega) (by decide), h _ 0 (by omega) (by decide)]

theorem foldl_same {α β : Type} {f : α → β → α} {a : α} {l : List β} (h : ∀ x ∈ l, f a x = a) : l.foldl f a = a := by
  induction l with
  | nil => rfl
  | cons x xs ih => rw [List.foldl_cons, h x List.mem_cons_self, ih fun y hy => h y (List.mem_cons_of_mem _ hy)]

/-! ### The frames in the order of their timestamps -/

theorem byTime_perm (m : Nat × Nat × CanFrame) (l : List (Nat × Nat × CanFrame)) : (byTime m l).Perm (m :: l) := by
  induction l with
  | nil => exact .refl _
  | cons x xs ih =>
    rw [byTime]
    split
    · exact .refl _
    · exact (ih.cons x).trans (.swap m x xs)

/-- Timestamps that do not fall. -/
def Ordered (l : List (Nat × Nat × CanFrame)) : Prop := l.Pairwise fun a b => a.2.1 ≤ b.2.1

theorem byTime_ordered {m : Nat × Nat × CanFrame} {l : List (Nat × Nat × CanFrame)} (h : Ordered l) : Ordered (byTime m l) := by
  induction l with
  | nil => exact List.pairwise_singleton ..
  | cons x xs ih =>
    have hxs := List.pairwise_cons.1 h
    rw [byTime]
    split
    case isTrue hlt =>
      refine List.pairwise_cons.2 ⟨fun y hy => ?_, h⟩
      rcases List.mem_cons.1 hy with rfl | hy
      · exact Nat.le_of_lt hlt
      · exact Nat.le_trans (Nat.le_of_lt hlt) (hxs.1 y hy)
    case isFalse hge =>
      refine List.pairwise_cons.2 ⟨fun y hy => ?_, ih hxs.2⟩
      rcases List.mem_cons.1 ((byTime_perm m xs).mem_iff.1 hy) with rfl | hy
      · exact Nat.le_of_not_lt hge
      · exact hxs.1 y hy

theorem foldl_byTime (xs l : List (Nat × Nat × CanFrame)) :
    (xs.foldl (fun l m => byTime m l) l).Perm (xs ++ l) ∧ (Ordered l → Ordered (xs.foldl (fun l m => byTime m l) l)) := by
  induction xs generalizing l with
  | nil => exact ⟨.refl _, id⟩
  | cons x xs ih =>
    obtain ⟨hperm, hordered⟩ := ih (byTime x l)
    refine ⟨hperm.trans ?_, fun h => hordered (byTime_ordered h)⟩
    exact ((byTime_perm x l).append_left xs).trans List.perm_middle

/-- The frames of one port that a cut takes. -/
def framesAt (s : State) (p : Nat) : List (Nat × Nat × CanFrame) :=
  ((lxOf s p).inbox.filter fun m => decide (m.1 ≤ s.clk.opUs)).map fun m => (p, m)

theorem cutFrames_perm (s : State) : (cutFrames s).Perm ((List.range 4).flatMap (framesAt s)) ∧ Ordered (cutFrames s) := by
  obtain ⟨hperm, hordered⟩ := foldl_byTime ((List.range 4).flatMap (framesAt s)) []
  exact ⟨hperm.trans (.of_eq (List.append_nil _)), hordered List.Pairwise.nil⟩

theorem port_of_framesAt {s : State} {p : Nat} {m : Nat × Nat × CanFrame} (h : m ∈ framesAt s p) : m.1 = p := by
  obtain ⟨x, -, rfl⟩ := List.mem_map.1 h
  rfl

theorem port_of_cutFrames {s : State} {m : Nat × Nat × CanFrame} (h : m ∈ cutFrames s) : ∃ p : Fin 4, m.1 = p.val := by
  obtain ⟨p, hp, hm⟩ := List.mem_flatMap.1 ((cutFrames_perm s).1.mem_iff.1 h)
  exact ⟨⟨p, List.mem_range.1 hp⟩, port_of_framesAt hm⟩

/-- The frames of chosen ports. -/
theorem cutFrames_filter (s : State) (has : Nat → Bool) :
    ((cutFrames s).filter fun m => has m.1).Perm ((List.range 4).flatMap fun p => if has p then framesAt s p else []) ∧
      Ordered ((cutFrames s).filter fun m => has m.1) := by
  obtain ⟨hperm, hordered⟩ := cutFrames_perm s
  refine ⟨(hperm.filter _).trans (.of_eq ?_), hordered.filter _⟩
  rw [List.filter_flatMap]
  refine List.flatMap_congr fun p _ => ?_
  have hall (m : Nat × Nat × CanFrame) (hm : m ∈ framesAt s p) : has m.1 = has p := by rw [port_of_framesAt hm]
  cases hp : has p
  · rw [if_neg Bool.false_ne_true]
    exact List.filter_eq_nil_iff.2 fun m hm => by rw [hall m hm, hp]; exact Bool.false_ne_true
  · rw [if_pos rfl]
    exact List.filter_eq_self.2 fun m hm => by rw [hall m hm, hp]

/-- With one port chosen, its frames. -/
theorem flatMap_four_one {α : Type} {B : Nat → List α} (p : Fin 4) (h : ∀ q < 4, q ≠ p.val → B q = []) :
    (List.range 4).flatMap B = B p := by
  change B 0 ++ (B 1 ++ (B 2 ++ (B 3 ++ []))) = _
  fin_cases p
  · rw [h 1 (by omega) (by decide), h 2 (by omega) (by decide), h 3 (by omega) (by decide)]; exact List.append_nil _
  · rw [h 0 (by omega) (by decide), h 2 (by omega) (by decide), h 3 (by omega) (by decide)]; exact List.append_nil _
  · rw [h 0 (by omega) (by decide), h 1 (by omega) (by decide), h 3 (by omega) (by decide)]; exact List.append_nil _
  · rw [h 0 (by omega) (by decide), h 1 (by omega) (by decide), h 2 (by omega) (by decide)]; exact List.append_nil _

/-- With two, theirs. -/
theorem flatMap_four_two {α : Type} {B : Nat → List α} {p q : Fin 4} (hpq : q ≠ p) (h : ∀ r < 4, r ≠ p.val → r ≠ q.val → B r = []) :
    ((List.range 4).flatMap B).Perm (B p ++ B q) := by
  have hsplit : ((List.range 4).flatMap B).Perm
      ((List.range 4).flatMap (fun k => if k = p.val then B k else []) ++ (List.range 4).flatMap fun k => if k = p.val then [] else B k) := by
    refine .trans (.of_eq (List.flatMap_congr fun k _ => ?_)) (List.flatMap_append_perm ..).symm
    by_cases hk : k = p.val <;> simp [hk]
  refine hsplit.trans (.of_eq ?_)
  rw [flatMap_four_one p fun r _ hr => if_neg hr, flatMap_four_one q, if_pos rfl, if_neg fun h => hpq (Fin.ext h)]
  intro r hr hrq
  by_cases hp : r = p.val
  · exact if_pos hp
  · rw [if_neg hp, h r hr hp hrq]

theorem perm_pair {l : List (Nat × Nat × CanFrame)} {a b : Nat × Nat × CanFrame} (hperm : l.Perm [a, b]) (hordered : Ordered l)
    (hlt : a.2.1 < b.2.1) : l = [a, b] := by
  refine List.Perm.eq_of_pairwise (le := fun x y : Nat × Nat × CanFrame => x.2.1 ≤ y.2.1) ?_ hordered (List.pairwise_pair.2 (Nat.le_of_lt hlt)) hperm
  intro x y hx hy hxy hyx
  have hx' := hperm.mem_iff.1 hx
  simp only [List.mem_cons, List.not_mem_nil, or_false] at hx' hy
  rcases hx' with rfl | rfl <;> rcases hy with rfl | rfl
  · rfl
  · exact absurd (Nat.lt_of_lt_of_le hlt hyx) (Nat.lt_irrefl _)
  · exact absurd (Nat.lt_of_lt_of_le hlt hxy) (Nat.lt_irrefl _)
  · rfl

end
end Sys2Proof.Machine
end

section
/-! SUPPORT. The state through a cut of the L image (R284 to R286). -/

namespace Sys2Proof.Machine

section
set_option Elab.async false

/-! ### What a cut leaves -/

/-- A port's context with a table loaded since the last cut. -/
def cutCtx (x : LbCtx) : LbCtx :=
  match x.nextTable with
  | some t => { x with table := t, nextTable := none, liveUs := [] }
  | none => x

/-- A state on the way of a cut of `s`: the counters of short frames, the LIVE marks and the L bits apart, a port has its tables as
the cut takes them and these frames in its inbox. -/
structure Cutting (s : State) (inbox : Nat → List (Nat × CanFrame)) (t : State) : Prop where
  frame : t = { s with lb := t.lb }
  tests : t.lb.tests = s.lb.tests
  mains : t.lb.mainsOkUs = s.lb.mainsOkUs
  port : ∀ q : Fin 4, ∃ short, lbOf t q = { lbOf s q with short := short }
  ctx : ∀ q : Fin 4, ∃ live, lxOf t q = { cutCtx (lxOf s q) with liveUs := live, inbox := inbox q }

theorem setLb_frame (p : Nat) (b : Lb) (s : State) : setLb p b s = { s with lb := (setLb p b s).lb } ∧
    (setLb p b s).lb.tests = s.lb.tests ∧ (setLb p b s).lb.mainsOkUs = s.lb.mainsOkUs ∧ (setLb p b s).lb.lOut = s.lb.lOut := by
  unfold setLb
  split_ifs <;> exact ⟨rfl, rfl, rfl, rfl⟩

theorem setLx_frame (p : Nat) (x : LbCtx) (s : State) : setLx p x s = { s with lb := (setLx p x s).lb } ∧
    (setLx p x s).lb.tests = s.lb.tests ∧ (setLx p x s).lb.mainsOkUs = s.lb.mainsOkUs ∧ (setLx p x s).lb.lOut = s.lb.lOut := by
  unfold setLx
  split_ifs <;> exact ⟨rfl, rfl, rfl, rfl⟩

variable {s t : State} {inbox : Nat → List (Nat × CanFrame)}

theorem Cutting.writesLb (h : Cutting s inbox t) (p : Fin 4) {b : Lb} (hb : ∃ short, b = { lbOf t p with short := short }) :
    Cutting s inbox (setLb p b t) := by
  obtain ⟨hframe, htests, hmains, -⟩ := setLb_frame p b t
  refine ⟨hframe.trans (by rw [h.frame]), htests.trans h.tests, hmains.trans h.mains, fun q => ?_, fun q => ?_⟩
  · rw [lbOf_setLb]
    split
    case isTrue hq =>
      subst hq
      obtain ⟨short, rfl⟩ := hb
      obtain ⟨old, hold⟩ := h.port q
      exact ⟨short, by rw [hold]⟩
    case isFalse => exact h.port q
  · rw [lxOf_setLb]
    exact h.ctx q

theorem Cutting.writesLx (h : Cutting s inbox t) (p : Fin 4) {x : LbCtx} {inbox' : Nat → List (Nat × CanFrame)}
    (hx : ∃ live, x = { lxOf t p with liveUs := live, inbox := inbox' p }) (hrest : ∀ q : Fin 4, q ≠ p → inbox' q = inbox q) :
    Cutting s inbox' (setLx p x t) := by
  obtain ⟨hframe, htests, hmains, -⟩ := setLx_frame p x t
  refine ⟨hframe.trans (by rw [h.frame]), htests.trans h.tests, hmains.trans h.mains, fun q => ?_, fun q => ?_⟩
  · rw [lbOf_setLx]
    exact h.port q
  · rw [lxOf_setLx]
    split
    case isTrue hq =>
      subst hq
      obtain ⟨live, rfl⟩ := hx
      obtain ⟨old, hold⟩ := h.ctx q
      exact ⟨live, by rw [hold]⟩
    case isFalse hq =>
      rw [hrest q hq]
      exact h.ctx q

theorem Cutting.marks (h : Cutting s inbox t) (p : Fin 4) (live : Sparse (Option Nat)) :
    Cutting s inbox (setLx p { lxOf t p with liveUs := live } t) := by
  refine h.writesLx p ⟨live, ?_⟩ fun _ _ => rfl
  obtain ⟨old, hold⟩ := h.ctx p
  rw [hold]

theorem Cutting.writesOut (h : Cutting s inbox t) (o : BitVec 2048) : Cutting s inbox { t with lb := { t.lb with lOut := o } } :=
  ⟨by rw [h.frame], h.tests, h.mains, h.port, h.ctx⟩

/-- The tables stand as the cut takes them. -/
theorem Cutting.table (h : Cutting s inbox t) (q : Fin 4) : (lxOf t q).table = (cutCtx (lxOf s q)).table := by
  obtain ⟨live, hlive⟩ := h.ctx q
  rw [hlive]

theorem Cutting.opUs (h : Cutting s inbox t) : t.clk.opUs = s.clk.opUs := by rw [h.frame]

/-! ### The status that the image shows -/

theorem cutCtx_kept (x : LbCtx) : (cutCtx x).refAnyUs = x.refAnyUs ∧ (cutCtx x).phase = x.phase ∧ (cutCtx x).rxDropped = x.rxDropped ∧
    (cutCtx x).plan = x.plan ∧ (cutCtx x).nodes = x.nodes ∧ (cutCtx x).inbox = x.inbox := by
  unfold cutCtx
  split <;> exact ⟨rfl, rfl, rfl, rfl, rfl, rfl⟩

theorem Cutting.kept (h : Cutting s inbox t) (q : Fin 4) : (lxOf t q).refAnyUs = (lxOf s q).refAnyUs ∧ (lxOf t q).phase = (lxOf s q).phase ∧
    (lxOf t q).rxDropped = (lxOf s q).rxDropped ∧ (lxOf t q).plan = (lxOf s q).plan ∧ (lxOf t q).nodes = (lxOf s q).nodes := by
  obtain ⟨live, hlive⟩ := h.ctx q
  obtain ⟨href, hphase, hdropped, hplan, hnodes, -⟩ := cutCtx_kept (lxOf s q)
  rw [hlive]
  exact ⟨href, hphase, hdropped, hplan, hnodes⟩

theorem Cutting.lbThere (h : Cutting s inbox t) (q : Fin 4) : lbThere t q = lbThere s q := by
  obtain ⟨short, hshort⟩ := h.port q
  rw [Machine.lbThere, hshort, h.frame]
  rfl

theorem Cutting.lbCfg (h : Cutting s inbox t) (q : Fin 4) : lbCfg t q = lbCfg s q := by
  obtain ⟨short, hshort⟩ := h.port q
  rw [Machine.lbCfg, hshort]
  rfl

theorem Cutting.isBeacon (h : Cutting s inbox t) (q : Fin 4) : isBeacon t q = isBeacon s q := by
  rw [Machine.isBeacon, h.lbThere, h.lbCfg, Machine.isBeacon]

theorem Cutting.testHold (h : Cutting s inbox t) (q : Fin 4) : testHold t q = testHold s q := by
  obtain ⟨short, hshort⟩ := h.port q
  obtain ⟨-, hphase, -, hplan, -⟩ := h.kept q
  have hrtc : rtcTrusted t = rtcTrusted s := by rw [h.frame]; rfl
  have hok : mainsOkBit t = mainsOkBit s := by rw [h.frame]; rfl
  have hpower : t.power = s.power := by rw [h.frame]
  simp only [Machine.testHold, hshort, hphase, hplan, hrtc, hok, hpower, h.mains, h.opUs]

theorem Cutting.busStatus (h : Cutting s inbox t) (q : Fin 4) : busStatus t q = busStatus s q := by
  obtain ⟨short, hshort⟩ := h.port q
  obtain ⟨href, hphase, hdropped, -, -⟩ := h.kept q
  simp only [Machine.busStatus, h.lbThere, h.isBeacon, h.testHold, hshort, href, hphase, hdropped, refWithin, h.lbCfg, h.opUs]

theorem Cutting.nodeNibble (h : Cutting s inbox t) (q : Fin 4) (n : Nat) : nodeNibble t q n = nodeNibble s q n := by
  obtain ⟨-, -, -, -, hnodes⟩ := h.kept q
  simp only [Machine.nodeNibble, nodeOf, testFail, testsOf, hnodes, h.tests]

/-! ### The steps of a cut -/

theorem lbOf_cutTable (p q : Nat) (s : State) : lbOf (cutTable s p) q = lbOf s q := lbOf_modLx ..

theorem lxOf_cutTable (p q : Fin 4) (s : State) : lxOf (cutTable s p) q = if q = p then cutCtx (lxOf s p) else lxOf s q := lxOf_modLx ..

theorem foldl_range_four {α : Type} (g : α → Nat → α) (a : α) : (List.range 4).foldl g a =
    g (g (g (g a (0 : Fin 4).val) (1 : Fin 4).val) (2 : Fin 4).val) (3 : Fin 4).val := rfl

/-- The state in which every port has the table of this cut. -/
def cutStart (s : State) : State := (List.range 4).foldl cutTable s

theorem cutting_cutStart (s : State) : Cutting s (fun q => (lxOf s q).inbox) (cutStart s) := by
  have hone (u : State) (p : Nat) := setLx_frame p (cutCtx (lxOf u p)) u
  have hctx (q : Fin 4) : lxOf (cutStart s) q = cutCtx (lxOf s q) := by
    have h (u : State) (p : Fin 4) := lxOf_cutTable p q u
    rw [cutStart, foldl_range_four, h, h, h, h]
    fin_cases q <;> rfl
  have hall (l : List Nat) (u : State) : l.foldl cutTable u = { u with lb := (l.foldl cutTable u).lb } ∧
      (l.foldl cutTable u).lb.tests = u.lb.tests ∧ (l.foldl cutTable u).lb.mainsOkUs = u.lb.mainsOkUs ∧
      ∀ q, lbOf (l.foldl cutTable u) q = lbOf u q := by
    induction l generalizing u with
    | nil => exact ⟨rfl, rfl, rfl, fun _ => rfl⟩
    | cons p ps ih =>
      obtain ⟨hframe, htests, hmains, hport⟩ := ih (cutTable u p)
      obtain ⟨hf, ht, hm, -⟩ := hone u p
      exact ⟨hframe.trans (by rw [show cutTable u p = _ from hf]; rfl), htests.trans ht, hmains.trans hm,
        fun q => (hport q).trans (lbOf_cutTable ..)⟩
  obtain ⟨hframe, htests, hmains, hport⟩ := hall (List.range 4) s
  refine ⟨hframe, htests, hmains, fun q => ⟨(lbOf s q).short, hport q⟩, fun q => ⟨(cutCtx (lxOf s q)).liveUs, ?_⟩⟩
  rw [hctx, ← (cutCtx_kept (lxOf s q)).2.2.2.2.2]

/-- Without new tables the cut starts with the state as it is. -/
theorem cutStart_same (h : ∀ q : Fin 4, (lxOf s q).nextTable = none) : cutStart s = s := by
  refine foldl_same fun p hp => ?_
  have hctx : cutCtx (lxOf s p) = lxOf s p := by
    rw [cutCtx, h ⟨p, List.mem_range.1 hp⟩]
  exact (congrArg (fun x => setLx p x s) hctx).trans (setLx_self p s)

theorem cutting_applyEntry (h : Cutting s inbox t) (p : Fin 4) (ts : Nat) (f : CanFrame) (k : Nat × FilterEntry) :
    Cutting s inbox (applyEntry p ts f t k) := by
  have hout := h.writesOut (setField t.lb.lOut k.2.lIndex k.2.width (leNat f.data / 2 ^ k.2.srcBit))
  unfold applyEntry
  dsimp only
  split_ifs
  · exact h
  · exact h.writesLb p ⟨_, rfl⟩
  · exact hout.marks p _
  · exact hout

theorem cutting_foldl {α : Type} {g : State → α → State} {l : List α} (h : Cutting s inbox t)
    (hg : ∀ u, Cutting s inbox u → ∀ x ∈ l, Cutting s inbox (g u x)) : Cutting s inbox (l.foldl g t) := by
  induction l generalizing t with
  | nil => exact h
  | cons x xs ih => exact ih (hg t h x List.mem_cons_self) fun u hu y hy => hg u hu y (List.mem_cons_of_mem _ hy)

theorem cutting_applyFrame (h : Cutting s inbox t) {m : Nat × Nat × CanFrame} (hm : ∃ p : Fin 4, m.1 = p.val) :
    Cutting s inbox (applyFrame t m) := by
  obtain ⟨p, hp⟩ := hm
  unfold applyFrame
  dsimp only
  rw [hp]
  exact cutting_foldl h fun u hu k _ => cutting_applyEntry hu p m.2.1 m.2.2 k

/-- Does a LIVE bit stand? -/
def marked (now : Nat) (live : Sparse (Option Nat)) (k : Nat × FilterEntry) : Bool :=
  match sget none live k.1 with
  | some ts => decide (now ≤ ts + 1000 * k.2.timeout)
  | none => false

/-- One entry's LIVE bit. -/
def liveMark (now : Nat) (live : Sparse (Option Nat)) (o : BitVec 2048) (k : Nat × FilterEntry) : BitVec 2048 :=
  if k.2.live then setBit o (k.2.lIndex + k.2.width) (marked now live k) else o

/-- The LIVE bits of a table. -/
def liveMarks (now : Nat) (table : List FilterEntry) (live : Sparse (Option Nat)) (o : BitVec 2048) : BitVec 2048 :=
  ((List.range table.length).zip table).foldl (liveMark now live) o

/-- One entry's LIVE bit in the state. -/
def liveWrite (now : Nat) (live : Sparse (Option Nat)) (t : State) (k : Nat × FilterEntry) : State :=
  if k.2.live then { t with lb := { t.lb with lOut := setBit t.lb.lOut (k.2.lIndex + k.2.width) (marked now live k) } } else t

/-- A state with these L bits. -/
def withOut (u : State) (o : BitVec 2048) : State := { u with lb := { u.lb with lOut := o } }

theorem liveWrite_withOut (now : Nat) (live : Sparse (Option Nat)) (u : State) (o : BitVec 2048) (k : Nat × FilterEntry) :
    liveWrite now live (withOut u o) k = withOut u (liveMark now live o k) := by
  unfold liveWrite liveMark
  split <;> rfl

theorem liveBits_eq (p : Nat) (u : State) :
    liveBits p u = withOut u (liveMarks u.clk.opUs (lxOf u p).table (lxOf u p).liveUs u.lb.lOut) := by
  have hall (l : List (Nat × FilterEntry)) (o : BitVec 2048) : l.foldl (liveWrite u.clk.opUs (lxOf u p).liveUs) (withOut u o) =
      withOut u (l.foldl (liveMark u.clk.opUs (lxOf u p).liveUs) o) := by
    induction l generalizing o with
    | nil => rfl
    | cons k ks ih => rw [List.foldl_cons, List.foldl_cons, liveWrite_withOut, ih]
  exact hall _ u.lb.lOut

/-- The frames of a port that a cut leaves for the next one. -/
def later (s : State) (q : Nat) : List (Nat × CanFrame) := (lxOf s q).inbox.filter fun m => decide (s.clk.opUs < m.1)

/-- A port's LIVE bits, and its inbox emptied. -/
def liveStep (t : State) (p : Nat) : State := liveBits p (cutRest t p)

theorem cutting_liveStep (h : Cutting s inbox t) (p : Fin 4) :
    Cutting s (fun q => if q = p.val then (inbox q).filter fun m => decide (s.clk.opUs < m.1) else inbox q) (liveStep t p) := by
  rw [liveStep, liveBits_eq]
  refine Cutting.writesOut (h.writesLx p ⟨(lxOf t p).liveUs, ?_⟩ fun q hq => if_neg fun hp => hq (Fin.ext hp)) _
  obtain ⟨live, hlive⟩ := h.ctx p
  rw [if_pos rfl, hlive, h.opUs]

theorem cutting_liveRun (h : Cutting s (fun q => (lxOf s q).inbox) t) : Cutting s (later s) ((List.range 4).foldl liveStep t) := by
  have hstep := cutting_liveStep (cutting_liveStep (cutting_liveStep (cutting_liveStep h 0) 1) 2) 3
  rw [foldl_range_four]
  refine ⟨hstep.frame, hstep.tests, hstep.mains, hstep.port, fun q => ?_⟩
  obtain ⟨live, hlive⟩ := hstep.ctx q
  refine ⟨live, hlive.trans ?_⟩
  fin_cases q <;> rfl

/-- The state in which a cut has taken its frames in. -/
def cutTaken (s : State) : State := (cutFrames (cutStart s)).foldl applyFrame (cutStart s)

theorem cutting_cutTaken (s : State) : Cutting s (fun q => (lxOf s q).inbox) (cutTaken s) :=
  cutting_foldl (cutting_cutStart s) fun _ hu _ hm => cutting_applyFrame hu (port_of_cutFrames hm)

/-- The state in which a cut has its bits. -/
def cutDone (s : State) : State := (List.range 4).foldl liveStep (cutTaken s)

theorem cutting_cutDone (s : State) : Cutting s (later s) (cutDone s) := cutting_liveRun (cutting_cutTaken s)

/-- That a frame was dropped is shown once. -/
def dropShown (t : State) (p : Nat) : State := modLx p (fun x => { x with rxDropped := false }) t

theorem foldl_dropShown (l : List Nat) (v : State) : (l.foldl dropShown v).dio = v.dio ∧ (l.foldl dropShown v).frz = v.frz ∧
    (l.foldl dropShown v).lb.lOut = v.lb.lOut ∧ (l.foldl dropShown v).lb.lImage = v.lb.lImage ∧
    ∀ q, lbOf (l.foldl dropShown v) q = lbOf v q := by
  have hmod (v : State) (p : Nat) : (dropShown v p).dio = v.dio ∧ (dropShown v p).frz = v.frz ∧
      (dropShown v p).lb.lOut = v.lb.lOut ∧ (dropShown v p).lb.lImage = v.lb.lImage := by
    unfold dropShown modLx setLx
    split_ifs <;> exact ⟨rfl, rfl, rfl, rfl⟩
  induction l generalizing v with
  | nil => exact ⟨rfl, rfl, rfl, rfl, fun _ => rfl⟩
  | cons p ps ih =>
    obtain ⟨hdio, hfrz, hout, himage, hport⟩ := ih (dropShown v p)
    obtain ⟨kdio, kfrz, kout, kimage⟩ := hmod v p
    exact ⟨hdio.trans kdio, hfrz.trans kfrz, hout.trans kout, himage.trans kimage, fun q => (hport q).trans (lbOf_modLx ..)⟩

theorem lxOf_dropShown (v : State) (p q : Fin 4) :
    lxOf (dropShown v p) q = { lxOf v q with rxDropped := (lxOf v q).rxDropped && !decide (q = p) } := by
  rw [dropShown, lxOf_modLx]
  by_cases h : q = p
  · subst h
    simp
  · simp [h]

theorem lxOf_foldl_dropShown (v : State) (q : Fin 4) : lxOf ((List.range 4).foldl dropShown v) q = { lxOf v q with rxDropped := false } := by
  have hnone (r : Bool) : ((((r && !decide (q = 0)) && !decide (q = 1)) && !decide (q = 2)) && !decide (q = 3)) = false := by
    revert q r
    decide
  have h (u : State) (p : Fin 4) := lxOf_dropShown u p q
  rw [foldl_range_four, h, h, h, h]
  dsimp only
  rw [hnone]

/-- The cut with its image. -/
def imaged (t : State) : State := { t with lb := { t.lb with lImage := lImageOf t } }

theorem lImageCut_eq (s : State) :
    lImageCut s = if inRunOrHalt s ∧ pdIs s 3 then (List.range 4).foldl dropShown (imaged (cutDone s)) else s := by
  have hlive : liveStep = fun t p => liveBits p (cutRest t p) := rfl
  have hdrop : dropShown = fun t p => modLx p (fun x => { x with rxDropped := false }) t := rfl
  rw [imaged, cutDone, cutTaken, cutStart, hlive, hdrop]
  unfold lImageCut
  dsimp only

/-- What a cut shows: the image of its bits; that a frame was dropped is shown once. -/
theorem lImageCut_shows (hpd : pdIs s 3 = true) (hrun : inRunOrHalt s = true) :
    (lImageCut s).dio = s.dio ∧ (lImageCut s).frz = s.frz ∧ (lImageCut s).lb.lOut = (cutDone s).lb.lOut ∧
      (lImageCut s).lb.lImage = lImageOf (cutDone s) ∧
      ∀ q : Fin 4, lbOf (lImageCut s) q = lbOf (cutDone s) q ∧ lxOf (lImageCut s) q = { lxOf (cutDone s) q with rxDropped := false } := by
  have hframe := (cutting_cutDone s).frame
  rw [lImageCut_eq, if_pos ⟨hrun, hpd⟩]
  generalize cutDone s = u at hframe ⊢
  obtain ⟨hdio, hfrz, hout, himage, hport⟩ := foldl_dropShown (List.range 4) (imaged u)
  have hd : (imaged u).dio = s.dio := by rw [imaged, hframe]
  have hf : (imaged u).frz = s.frz := by rw [imaged, hframe]
  exact ⟨hdio.trans hd, hfrz.trans hf, hout, himage, fun q => ⟨hport q, lxOf_foldl_dropShown ..⟩⟩

end
end Sys2Proof.Machine
end

section
/-! PROOF. The L image and the time master of the landing buses (R284 to R286, R292 to R295). -/

namespace Sys2Proof.Machine

section
set_option Elab.async false

/-! ### Frames against the tables -/

theorem cutCtx_of_none {x : LbCtx} (h : x.nextTable = none) : cutCtx x = x := by rw [cutCtx, h]

/-- Is there a table for a port's frames? -/
def tabled (s : State) (p : Nat) : Bool := !(cutCtx (lxOf s p)).table.isEmpty

/-- Only the frames of ports with a table count. -/
theorem foldl_applyFrame_tabled {s t : State} {inbox : Nat → List (Nat × CanFrame)} (h : Cutting s inbox t) {l : List (Nat × Nat × CanFrame)}
    (hl : ∀ m ∈ l, ∃ p : Fin 4, m.1 = p.val) : l.foldl applyFrame t = (l.filter fun m => tabled s m.1).foldl applyFrame t := by
  induction l generalizing t with
  | nil => rfl
  | cons m ms ih =>
    have hms := fun x hx => hl x (List.mem_cons_of_mem m hx)
    obtain ⟨p, hp⟩ := hl m List.mem_cons_self
    by_cases htab : tabled s m.1 = true
    · rw [List.filter_cons_of_pos (p := fun m : Nat × Nat × CanFrame => tabled s m.1) htab, List.foldl_cons, List.foldl_cons]
      exact ih (cutting_applyFrame h ⟨p, hp⟩) hms
    · have hsame : applyFrame t m = t := by
        have hempty : (lxOf t m.1).table = [] := by
          rw [hp, h.table, ← List.isEmpty_iff, ← hp]
          simpa [tabled] using htab
        unfold applyFrame
        dsimp only
        rw [hempty]
        rfl
      rw [List.filter_cons_of_neg (p := fun m : Nat × Nat × CanFrame => tabled s m.1) htab, List.foldl_cons, hsame]
      exact ih h hms

theorem applyFrame_one {s : State} {p : Nat} {e : FilterEntry} (h : (lxOf s p).table = [e]) (ts : Nat) (f : CanFrame) :
    applyFrame s (p, ts, f) = applyEntry p ts f s (0, e) := by
  unfold applyFrame
  dsimp only
  rw [h]
  rfl

theorem framesAt_one {s : State} {p ts : Nat} {f : CanFrame} (h : (lxOf s p).inbox = [(ts, f)]) (hts : ts ≤ s.clk.opUs) :
    framesAt s p = [(p, ts, f)] := by
  rw [framesAt, h]
  simp [hts]

/-- No port but these has a table, and none has a new one. -/
def TablesOf (s : State) (ps : List (Fin 4)) (e : FilterEntry) : Prop :=
  ∀ q : Fin 4, (lxOf s q).nextTable = none ∧ (lxOf s q).table = if q ∈ ps then [e] else []

theorem TablesOf.cut {s : State} {ps : List (Fin 4)} {e : FilterEntry} (h : TablesOf s ps e) (q : Fin 4) :
    (cutCtx (lxOf s q)).table = if q ∈ ps then [e] else [] := by
  rw [cutCtx_of_none (h q).1, (h q).2]

theorem TablesOf.isTabled {s : State} {ps : List (Fin 4)} {e : FilterEntry} (h : TablesOf s ps e) (q : Fin 4) : tabled s q = decide (q ∈ ps) := by
  rw [tabled, h.cut]
  split <;> rename_i hq <;> simp [hq]

theorem TablesOf.taken {s : State} {ps : List (Fin 4)} {e : FilterEntry} (h : TablesOf s ps e) :
    cutTaken s = ((cutFrames s).filter fun m => tabled s m.1).foldl applyFrame s := by
  have hstart : cutStart s = s := cutStart_same fun q => (h q).1
  have hcut := cutting_cutStart s
  rw [hstart] at hcut
  rw [cutTaken, hstart, foldl_applyFrame_tabled hcut fun _ hm => port_of_cutFrames hm]

/-- The frame of the one port with a table is taken in. -/
theorem cutTaken_one {s : State} {p : Fin 4} {e : FilterEntry} {ts : Nat} {f : CanFrame} (h : TablesOf s [p] e)
    (hin : (lxOf s p).inbox = [(ts, f)]) (hts : ts ≤ s.clk.opUs) : cutTaken s = applyEntry p ts f s (0, e) := by
  have hframes : (cutFrames s).filter (fun m => tabled s m.1) = [(p.val, ts, f)] := by
    have hall := (cutFrames_filter s (tabled s)).1
    rw [flatMap_four_one p] at hall
    · rw [h.isTabled, decide_eq_true (List.mem_singleton.2 rfl), if_pos rfl, framesAt_one hin hts] at hall
      exact List.perm_singleton.1 hall
    · intro q hq hne
      have hnot := h.isTabled ⟨q, hq⟩
      rw [decide_eq_false fun hmem => hne (congrArg Fin.val (List.mem_singleton.1 hmem))] at hnot
      exact if_neg (by rw [hnot]; exact Bool.false_ne_true)
  rw [h.taken, hframes]
  exact applyFrame_one (by rw [(h p).2, if_pos (List.mem_singleton.2 rfl)]) ts f

/-- Of two ports with the table, the earlier frame and then the later one. -/
theorem cutTaken_two {s : State} {p q : Fin 4} {e : FilterEntry} {ts us : Nat} {f g : CanFrame} (hqp : q ≠ p) (h : TablesOf s [p, q] e)
    (hin : (lxOf s p).inbox = [(ts, f)]) (hts : ts ≤ s.clk.opUs) (hin' : (lxOf s q).inbox = [(us, g)]) (hus : us ≤ s.clk.opUs)
    (hlt : ts < us) : cutTaken s = applyEntry q us g (applyEntry p ts f s (0, e)) (0, e) := by
  have htab {r : Fin 4} (hr : r ∈ [p, q]) : (lxOf s r).table = [e] := by rw [(h r).2, if_pos hr]
  have hp : p ∈ [p, q] := List.mem_cons_self
  have hq : q ∈ [p, q] := List.mem_cons_of_mem _ (List.mem_singleton.2 rfl)
  have hframes : (cutFrames s).filter (fun m => tabled s m.1) = [(p.val, ts, f), (q.val, us, g)] := by
    obtain ⟨hall, hordered⟩ := cutFrames_filter s (tabled s)
    refine perm_pair (hall.trans ((flatMap_four_two hqp ?_).trans (.of_eq ?_))) hordered hlt
    · intro r hr hrp hrq
      have hnot := h.isTabled ⟨r, hr⟩
      rw [decide_eq_false fun hmem => by
        simp only [List.mem_cons, List.not_mem_nil, or_false] at hmem
        exact hmem.elim (fun h => hrp (congrArg Fin.val h)) fun h => hrq (congrArg Fin.val h)] at hnot
      exact if_neg (by rw [hnot]; exact Bool.false_ne_true)
    · rw [h.isTabled, h.isTabled, decide_eq_true hp, decide_eq_true hq, if_pos rfl, if_pos rfl, framesAt_one hin hts, framesAt_one hin' hus]
      rfl
  have hcut := cutting_cutStart s
  rw [cutStart_same fun q => (h q).1] at hcut
  have hsecond : (lxOf (applyEntry p ts f s (0, e)) q).table = [e] := by
    rw [(cutting_applyEntry hcut p ts f (0, e)).table, h.cut, if_pos hq]
  rw [h.taken, hframes, List.foldl_cons, List.foldl_cons, List.foldl_nil, applyFrame_one (htab hp), applyFrame_one hsecond]

/-! ### The L bits of a frame -/

/-- A frame that holds the field is copied. -/
theorem lOut_applyEntry {p ts : Nat} {f : CanFrame} {s : State} {k : Nat × FilterEntry} (hmatch : filterMatch k.2 f = true)
    (hfits : k.2.srcBit + k.2.width ≤ 8 * f.data.length) :
    (applyEntry p ts f s k).lb.lOut = setField s.lb.lOut k.2.lIndex k.2.width (leNat f.data / 2 ^ k.2.srcBit) := by
  unfold applyEntry
  dsimp only
  rw [if_neg (by simp [hmatch]), if_neg (by omega)]
  split
  · exact (setLx_frame ..).2.2.2
  · rfl

/-- The instant of a frame under a LIVE entry. -/
theorem liveUs_applyEntry {p : Fin 4} {ts : Nat} {f : CanFrame} {s : State} {k : Nat × FilterEntry} (hmatch : filterMatch k.2 f = true)
    (hfits : k.2.srcBit + k.2.width ≤ 8 * f.data.length) (hlive : k.2.live = true) :
    sget none (lxOf (applyEntry p ts f s k) p).liveUs k.1 = some ts := by
  unfold applyEntry
  dsimp only
  rw [if_neg (by simp [hmatch]), if_neg (by omega), if_pos hlive, lxOf_modLx, if_pos rfl]
  exact Safety.sget_sput_self _ _ _ _ (Option.some_ne_none ts)

/-- A frame too short for the field counts. -/
theorem applyEntry_short {p ts : Nat} {f : CanFrame} {s : State} {k : Nat × FilterEntry} (hmatch : filterMatch k.2 f = true)
    (hshort : 8 * f.data.length < k.2.srcBit + k.2.width) :
    applyEntry p ts f s k = modLb p (fun b => { b with short := satInc b.short }) s := by
  unfold applyEntry
  dsimp only
  rw [if_neg (by simp [hmatch]), if_pos hshort]

/-- The bits of the field in L. -/
theorem copied_bits {o : BitVec 2048} {e : FilterEntry} {data : Bytes} (hfits : e.lIndex + e.width ≤ 2048) :
    ∀ k < e.width, (setField o e.lIndex e.width (leNat data / 2 ^ e.srcBit)).getLsbD (e.lIndex + k) = (leNat data).testBit (e.srcBit + k) := by
  intro k hk
  rw [getLsbD_setField_in o hk (by omega), Nat.testBit_div_two_pow, Nat.add_comm]

/-! ### The LIVE bits of all ports -/

theorem liveStep_shows (t : State) (p : Nat) : (∀ q, lbOf (liveStep t p) q = lbOf t q) ∧ (liveStep t p).clk.opUs = t.clk.opUs ∧
    (∀ q, (lxOf (liveStep t p) q).table = (lxOf t q).table ∧ (lxOf (liveStep t p) q).liveUs = (lxOf t q).liveUs) ∧
    (liveStep t p).lb.lOut = liveMarks t.clk.opUs (lxOf t p).table (lxOf t p).liveUs t.lb.lOut := by
  have hrest (q : Nat) : (lxOf (cutRest t p) q).table = (lxOf t q).table ∧ (lxOf (cutRest t p) q).liveUs = (lxOf t q).liveUs := by
    unfold cutRest modLx setLx lxOf
    split_ifs <;> exact ⟨rfl, rfl⟩
  rw [liveStep, liveBits_eq]
  refine ⟨fun q => lbOf_modLx .., rfl, hrest, ?_⟩
  rw [(hrest p).1, (hrest p).2]
  exact congrArg (liveMarks t.clk.opUs (lxOf t p).table (lxOf t p).liveUs) (setLx_frame ..).2.2.2

theorem foldl_liveStep (l : List Nat) (t : State) : (∀ q, lbOf (l.foldl liveStep t) q = lbOf t q) ∧
    (l.foldl liveStep t).lb.lOut = l.foldl (fun o p => liveMarks t.clk.opUs (lxOf t p).table (lxOf t p).liveUs o) t.lb.lOut := by
  induction l generalizing t with
  | nil => exact ⟨fun _ => rfl, rfl⟩
  | cons p ps ih =>
    obtain ⟨hport, hop, hctx, hout⟩ := liveStep_shows t p
    obtain ⟨hports, houts⟩ := ih (liveStep t p)
    refine ⟨fun q => (hports q).trans (hport q), ?_⟩
    rw [List.foldl_cons, List.foldl_cons, houts, hop, hout]
    congr 1
    funext o q
    rw [(hctx q).1, (hctx q).2]

/-- The L bits after a cut where only these ports have a table, of one entry. -/
theorem lOut_cutDone {s : State} {ps : List (Fin 4)} {e : FilterEntry} (h : TablesOf s ps e) :
    (cutDone s).lb.lOut = (List.range 4).foldl (fun o p => if ∃ q ∈ ps, q.val = p then
      liveMark s.clk.opUs (lxOf (cutTaken s) p).liveUs o (0, e) else o) (cutTaken s).lb.lOut := by
  have hcut := cutting_cutTaken s
  have hmark (o : BitVec 2048) (p : Fin 4) : liveMarks (cutTaken s).clk.opUs (lxOf (cutTaken s) p).table (lxOf (cutTaken s) p).liveUs o =
      if ∃ q ∈ ps, q.val = p.val then liveMark s.clk.opUs (lxOf (cutTaken s) p).liveUs o (0, e) else o := by
    rw [hcut.table, hcut.opUs, h.cut]
    by_cases hp : p ∈ ps
    · rw [if_pos hp, if_pos ⟨p, hp, rfl⟩]
      rfl
    · rw [if_neg hp, if_neg fun ⟨q, hq, hval⟩ => hp (Fin.ext hval ▸ hq)]
      rfl
  rw [cutDone, (foldl_liveStep ..).2, foldl_range_four, foldl_range_four]
  simp only [hmark]

/-- Without LIVE the L bits are those of the frames. -/
theorem lOut_cutDone_plain {s : State} {ps : List (Fin 4)} {e : FilterEntry} (h : TablesOf s ps e) (hlive : e.live = false) :
    (cutDone s).lb.lOut = (cutTaken s).lb.lOut := by
  rw [lOut_cutDone h]
  refine foldl_same fun p _ => ?_
  have hsame (o : BitVec 2048) : liveMark s.clk.opUs (lxOf (cutTaken s) p).liveUs o (0, e) = o := if_neg (by simp [hlive])
  rw [hsame, ite_self]

/-- With LIVE the bit behind the field tells of the frame's start. -/
theorem lOut_cutDone_live {s : State} {p : Fin 4} {e : FilterEntry} (h : TablesOf s [p] e) (hlive : e.live = true) :
    (cutDone s).lb.lOut =
      setBit (cutTaken s).lb.lOut (e.lIndex + e.width) (marked s.clk.opUs (lxOf (cutTaken s) p).liveUs (0, e)) := by
  rw [lOut_cutDone h, foldl_four_one p]
  · rw [if_pos ⟨p, List.mem_singleton.2 rfl, rfl⟩, liveMark, if_pos hlive]
  · rintro o q - hq
    exact if_neg fun ⟨r, hr, hval⟩ => hq (by rw [← hval, List.mem_singleton.1 hr])

/-! ### The cut -/

variable {s : State}

theorem cutDone_lb (q : Nat) : lbOf (cutDone s) q = lbOf (cutTaken s) q := (foldl_liveStep ..).1 q

/-- The status of a bus as the manual lists it. -/
theorem busStatus_bits (s : State) (q : Nat) :
    ∀ k ∈ [(0, true), (1, decide ((lbOf s q).state = .normal)), (2, (lbOf s q).passive), (3, decide ((lbOf s q).state = .busOff)),
        (4, decide ((lbOf s q).state = .recovering)), (5, (lbOf s q).polarity), (6, (lxOf s q).rxDropped), (7, decide ((lbOf s q).tm = 1)),
        (8, decide ((lbOf s q).tm = 2)), (9, refWithin s q 3 (lxOf s q).refAnyUs), (10, (lbOf s q).conflict),
        (11, decide ((lxOf s q).phase = .settling) || decide ((lxOf s q).phase = .asleep)), (12, (lbCfg s q).beacon && testHold s q)],
      (busStatus s q).testBit k.1 = (lbThere s q && k.2) ∧ k.1 < 64 := by
  intro k hk
  unfold busStatus
  dsimp only
  rw [testBit_maskOf]
  simp only [List.mem_cons, List.not_mem_nil, or_false] at hk
  rcases hk with rfl | rfl | rfl | rfl | rfl | rfl | rfl | rfl | rfl | rfl | rfl | rfl | rfl
  all_goals simp [isBeacon, Bool.and_assoc]

/-- What a cut shows of the buses and nodes. -/
theorem lImageCut_status (hpd : pdIs s 3 = true) (hrun : inRunOrHalt s = true) (q : Fin 4) :
    (lxOf (lImageCut s) q).inbox = later s q ∧ (lxOf (lImageCut s) q).rxDropped = false ∧ (lbOf (lImageCut s) q).state = (lbOf s q).state ∧
      (∀ k < 64, (lImageCut s).lb.lImage.getLsbD (3840 + 64 * q.val + k) = (busStatus s q).testBit k) ∧
      ∀ n k : Nat, 1 ≤ n → n ≤ 100 → k < 4 → (lImageCut s).lb.lImage.getLsbD (2048 + 400 * q.val + 4 * (n - 1) + k) =
        (isBeacon s q && (nodeNibble s q n).testBit k) := by
  obtain ⟨-, -, -, himage, hports⟩ := lImageCut_shows hpd hrun
  have hcut := cutting_cutDone s
  obtain ⟨live, hctx⟩ := hcut.ctx q
  obtain ⟨short, hport⟩ := hcut.port q
  refine ⟨?_, ?_, ?_, fun k hk => ?_, fun n k h1 h100 hk => ?_⟩
  · rw [(hports q).2, hctx]
  · rw [(hports q).2]
  · rw [(hports q).1, hport]
  · rw [himage, lImageOf_status _ q hk, hcut.busStatus]
  · rw [himage, lImageOf_nodes _ q h1 h100 hk, hcut.isBeacon, hcut.nodeNibble]

/-- Below the nodes the image shows the L bits. -/
theorem lImageCut_low (hpd : pdIs s 3 = true) (hrun : inRunOrHalt s = true) {j : Nat} (hj : j < 2048) :
    (lImageCut s).lb.lImage.getLsbD j = (cutDone s).lb.lOut.getLsbD j := by
  rw [(lImageCut_shows hpd hrun).2.2.2.1, lImageOf_low hj]

theorem tablesOf_one {p : Fin 4} {e : FilterEntry} (ht : (lxOf s p).table = [e]) (hn : (lxOf s p).nextTable = none)
    (hrest : ∀ q : Fin 4, q ≠ p → (lxOf s q).table = [] ∧ (lxOf s q).nextTable = none) : TablesOf s [p] e := by
  intro q
  by_cases hq : q = p
  · rw [hq, if_pos (List.mem_singleton.2 rfl)]
    exact ⟨hn, ht⟩
  · rw [if_neg fun h => hq (List.mem_singleton.1 h)]
    exact (hrest q hq).symm

theorem tablesOf_two {p q : Fin 4} {e : FilterEntry} (ht : (lxOf s p).table = [e]) (hn : (lxOf s p).nextTable = none)
    (ht' : (lxOf s q).table = [e]) (hn' : (lxOf s q).nextTable = none)
    (hrest : ∀ r : Fin 4, r ≠ p → r ≠ q → (lxOf s r).table = [] ∧ (lxOf s r).nextTable = none) : TablesOf s [p, q] e := by
  intro r
  by_cases hp : r = p
  · rw [hp, if_pos List.mem_cons_self]
    exact ⟨hn, ht⟩
  · by_cases hq : r = q
    · rw [hq, if_pos (List.mem_cons_of_mem _ (List.mem_singleton.2 rfl))]
      exact ⟨hn', ht'⟩
    · rw [if_neg (by simp [hp, hq])]
      exact (hrest r hp hq).symm

section
variable {p : Fin 4} {e : FilterEntry} {ts : Nat} {f : CanFrame} (hpd : pdIs s 3 = true) (hrun : inRunOrHalt s = true)

include hpd hrun

/-- A LIVE entry: the field, and whether its frame is recent. -/
theorem lImageCut_live (htab : TablesOf s [p] e) (hin : (lxOf s p).inbox = [(ts, f)]) (hts : ts ≤ s.clk.opUs)
    (hmatch : filterMatch e f = true) (hlive : e.live = true) (hidx : e.lIndex + e.width < 2048)
    (hfits : e.srcBit + e.width ≤ 8 * f.data.length) :
    (∀ k < e.width, (lImageCut s).lb.lImage.getLsbD (e.lIndex + k) = (leNat f.data).testBit (e.srcBit + k)) ∧
      (lImageCut s).lb.lImage.getLsbD (e.lIndex + e.width) = decide (s.clk.opUs ≤ ts + 1000 * e.timeout) := by
  have hdone : (cutDone s).lb.lOut = setBit (setField s.lb.lOut e.lIndex e.width (leNat f.data / 2 ^ e.srcBit)) (e.lIndex + e.width)
      (marked s.clk.opUs (lxOf (applyEntry p ts f s (0, e)) p).liveUs (0, e)) := by
    rw [lOut_cutDone_live htab hlive, cutTaken_one htab hin hts, lOut_applyEntry (k := (0, e)) hmatch hfits]
  refine ⟨fun k hk => ?_, ?_⟩
  · rw [lImageCut_low hpd hrun (by omega), hdone, getLsbD_setBit _ _ _ _ hidx, if_neg (by omega), copied_bits (by omega) k hk]
  · rw [lImageCut_low hpd hrun hidx, hdone, getLsbD_setBit _ _ _ _ hidx, if_pos rfl, marked, liveUs_applyEntry (k := (0, e)) hmatch hfits hlive]

/-- Another entry: the field. -/
theorem lImageCut_plain (htab : TablesOf s [p] e) (hin : (lxOf s p).inbox = [(ts, f)]) (hts : ts ≤ s.clk.opUs)
    (hmatch : filterMatch e f = true) (hlive : e.live = false) (hidx : e.lIndex + e.width ≤ 2048)
    (hfits : e.srcBit + e.width ≤ 8 * f.data.length) :
    ∀ k < e.width, (lImageCut s).lb.lImage.getLsbD (e.lIndex + k) = (leNat f.data).testBit (e.srcBit + k) := by
  intro k hk
  rw [lImageCut_low hpd hrun (by omega), lOut_cutDone_plain htab hlive, cutTaken_one htab hin hts,
    lOut_applyEntry (k := (0, e)) hmatch hfits, copied_bits hidx k hk]

/-- A frame that does not hold the field counts as short. -/
theorem lImageCut_short (htab : TablesOf s [p] e) (hin : (lxOf s p).inbox = [(ts, f)]) (hts : ts ≤ s.clk.opUs)
    (hmatch : filterMatch e f = true) (hlive : e.live = false) (hshort : 8 * f.data.length < e.srcBit + e.width) :
    (lImageCut s).lb.lOut = s.lb.lOut ∧ (lbOf (lImageCut s) p).short = satInc (lbOf s p).short := by
  obtain ⟨-, -, hout, -, hports⟩ := lImageCut_shows hpd hrun
  have htaken : cutTaken s = modLb p (fun b => { b with short := satInc b.short }) s := by
    rw [cutTaken_one htab hin hts, applyEntry_short (k := (0, e)) hmatch hshort]
  refine ⟨?_, ?_⟩
  · rw [hout, lOut_cutDone_plain htab hlive, htaken]
    exact (setLb_frame ..).2.2.2
  · rw [(hports p).1, cutDone_lb, htaken, lbOf_modLb, if_pos rfl]

/-- Of two ports the later frame stands. -/
theorem lImageCut_later {q : Fin 4} {us : Nat} {g : CanFrame} (hqp : q ≠ p) (htab : TablesOf s [p, q] e)
    (hin : (lxOf s p).inbox = [(ts, f)]) (hts : ts ≤ s.clk.opUs) (hin' : (lxOf s q).inbox = [(us, g)]) (hus : us ≤ s.clk.opUs) (hlt : ts < us)
    (hmatch : filterMatch e g = true) (hlive : e.live = false) (hidx : e.lIndex + e.width ≤ 2048)
    (hfits : e.srcBit + e.width ≤ 8 * g.data.length) :
    ∀ k < e.width, (lImageCut s).lb.lImage.getLsbD (e.lIndex + k) = (leNat g.data).testBit (e.srcBit + k) := by
  intro k hk
  rw [lImageCut_low hpd hrun (by omega), lOut_cutDone_plain htab hlive, cutTaken_two hqp htab hin hts hin' hus hlt,
    lOut_applyEntry (k := (0, e)) hmatch hfits, copied_bits hidx k hk]

end

end

section
set_option Elab.async false

/-- Settles O52, part by part: the cut shows its status bits and the bits of its frames in the order of their timestamps; a boundary
goes on, defers, sends or stops as its role says. -/
theorem lImageAndTimeMaster : Obligations.LImageAndTimeMaster := by
  intro p done be s b c x
  refine ⟨?_, ?_, ?_⟩
  · intro h
    refine congrArg Host.Outcome.next (if_neg fun ⟨hrun, hpd⟩ => ?_)
    rcases h with h | ⟨hr, hh⟩
    · rw [pdIs, h] at hpd
      cases hpd
    · simp [inRunOrHalt, hr, hh] at hrun
  · intro hpd hrun
    have hrun' : inRunOrHalt s = true := by simpa [inRunOrHalt, or_iff_not_imp_left] using hrun
    obtain ⟨hdio, hfrz, -, -, -⟩ := lImageCut_shows (s := s) hpd hrun'
    refine ⟨lImageCut s, rfl, hdio, hfrz, fun q => ?_, ?_, ?_⟩
    · obtain ⟨hin, hdropped, hstate, hstatus, hnodes⟩ := lImageCut_status (s := s) hpd hrun' q
      refine ⟨hin, hdropped, hstate, fun k hk => ?_, fun n h1 h100 k hk => ?_⟩
      · obtain ⟨hbit, hlt⟩ := busStatus_bits s q k hk
        rw [hstatus _ hlt, hbit]
      · have hlt : k.1 < 4 := by
          simp only [List.mem_cons, List.not_mem_nil, or_false] at hk
          rcases hk with rfl | rfl | rfl | rfl <;> exact Nat.le_of_ble_eq_true rfl
        rw [hnodes n _ h1 h100 hlt, (nodeNibble_bits s q n).2 k hk]
    · exact fun e ts f ht hn hin hts hrest hmatch hlive hidx hfits =>
        lImageCut_live hpd hrun' (tablesOf_one ht hn hrest) hin hts hmatch hlive hidx hfits
    · intro e ts f ht hn hin hts hmatch hlive hidx
      exact ⟨fun hrest =>
          ⟨fun hfits => lImageCut_plain hpd hrun' (tablesOf_one ht hn hrest) hin hts hmatch hlive hidx hfits,
            lImageCut_short hpd hrun' (tablesOf_one ht hn hrest) hin hts hmatch hlive⟩,
        fun q us g hqp ht' hn' hin' hus hlt hmatch' hfits hrest =>
          lImageCut_later hpd hrun' hqp (tablesOf_two ht hn ht' hn' hrest) hin hts hin' hus hlt hmatch' hlive hidx hfits⟩
  · intro may cycleUs stopped ref
    refine ⟨fun h => congrArg Host.Outcome.next (tmBoundary_idle h done be), fun hmay hrole hpacer => ⟨fun hheard hforeign => ?_,
      fun hheard hforeign => ?_, fun hheard hskip => ?_, fun hheard hskip => ?_⟩, fun hmay hrole hbackup => ?_⟩
    · refine congrArg Host.Outcome.next ((tmBoundary_master hmay hrole hpacer done be).trans ?_)
      rw [if_pos hheard]
      exact tmDefer_of_foreign (by rw [lxOf_modLx, if_pos rfl]; exact hforeign)
    · refine ⟨_, congrArg Host.Outcome.next ((tmBoundary_master hmay hrole hpacer done be).trans (if_pos hheard)), ?_⟩
      obtain ⟨hlb, hlx, hout, hconflict, hstop⟩ := tmDefer_shows p (s := s) (u := modLx p (fun y => { y with skip := y.skip - 1 }) s)
        (modLx_changes ..).mono (by rw [lxOf_modLx, if_pos rfl]; exact hforeign)
      rw [lbOf_modLx] at hlb hstop
      rw [lxOf_modLx, if_pos rfl] at hlx
      exact ⟨hlb, hlx, hout.trans (out_modLx ..), hconflict, hstop⟩
    · refine congrArg Host.Outcome.next ((tmBoundary_master hmay hrole hpacer done be).trans ?_)
      rw [if_neg (by rw [hheard]; exact Bool.false_ne_true), if_pos hskip]
    · have hsend (d : Option Nat) (e : Bool) : exec (.tmCycleBoundary p d e) s =
          .next (tmSend p false d e (setLx p { x with foreign := false } s)) := by
        refine congrArg Host.Outcome.next ((tmBoundary_master hmay hrole hpacer d e).trans ?_)
        rw [if_neg (by rw [hheard]; exact Bool.false_ne_true), if_neg (by rw [hskip]; exact Nat.lt_irrefl 0)]
        have hsame : { x with skip := x.skip - 1, foreign := false } = { x with foreign := false } := by rw [hskip]
        exact congrArg (fun y => tmSend p false d e (setLx p y s)) hsame
      intro on
      refine ⟨fun htm => ⟨?_, ?_, fun hfd d => ?_⟩, fun htm => ⟨fun hany => ?_, fun u hany hseen => ?_⟩⟩
      · exact (hsend none false).trans (congrArg Host.Outcome.next (tmSend_quiet htm))
      · obtain ⟨hlb, hlx, hout, hconflict, hstop⟩ := tmSend_bitError (x := { x with foreign := false }) (r := s) htm (.refl _ s)
        exact ⟨_, hsend none true, hlb, hlx, hout, hconflict, fun _ => hstop⟩
      · obtain ⟨hcan, rx, rxDrop, passive, hlb⟩ := tmSend_sent (p := p) (backup := false) (x := { x with foreign := false }) htm hfd d be
        refine ⟨_, hsend (some d) be, hcan, ?_, ?_, ?_, ?_, ?_⟩
        · rw [hlb]; rfl
        · rw [hlb]; rfl
        · rw [hlb]
        · rw [hlb]
        · rw [hlb]; exact htm
      · obtain ⟨hlb, hlx, hout, hbegin⟩ := tmSend_begins (p := p) (backup := false) (be := false) (r := s)
          (s := setLx p { x with foreign := false } s) (by rw [lbOf_setLx]; exact htm) (by decide) (setLx_changes ..).mono
        rw [nextCycle_new (x := { x with foreign := false }) hany, lxOf_setLx, if_pos rfl] at hlx hbegin
        rw [lbOf_setLx] at hlb
        exact ⟨_, hsend none false, hlb, hlx, hout.trans (out_setLx ..), hbegin⟩
      · obtain ⟨hlb, hlx, hout, -⟩ := tmSend_begins (p := p) (backup := false) (be := false) (r := s)
          (s := setLx p { x with foreign := false } s) (by rw [lbOf_setLx]; exact htm) (by decide) (setLx_changes ..).mono
        rw [nextCycle_seen (x := { x with foreign := false }) hany hseen, lxOf_setLx, if_pos rfl] at hlx
        rw [lbOf_setLx] at hlb
        exact ⟨_, hsend none false, hlb, hlx, hout.trans (out_setLx ..)⟩
    · have hbound (d : Option Nat) (e : Bool) := tmBoundary_backup hmay hrole hbackup d e
      refine ⟨fun hearly => ?_, fun u hu hlate => ⟨fun htm hfd d => ?_, fun htm => ?_⟩⟩
      · refine ⟨_, congrArg Host.Outcome.next ((hbound done be).1 hearly), ?_, ?_, ?_, fun hsent => ?_⟩
        · rw [lbOf_tmStop, if_pos rfl, lbOf_setLx]
        · rw [lxOf_tmStop, lxOf_setLx, if_pos rfl]
        · rw [(tmStop_changes ..).out, out_setLx]
        · exact tmStop_journals (tm := 3) (setLx_changes ..).mono (by rw [lbOf_setLx]; exact hsent) (.refl _ _)
      · have hsent := (hbound (some d) be).2 u hu hlate
        obtain ⟨hcan, rx, rxDrop, passive, hlb⟩ := tmSend_sent (p := p) (backup := true) (x := { x with foreign := false }) htm hfd d be
        exact ⟨_, congrArg Host.Outcome.next hsent, hcan, by rw [hlb]; exact htm⟩
      · have hsent := (hbound none be).2 u hu hlate
        obtain ⟨hlb, -, hout, hbegin⟩ := tmSend_begins (p := p) (backup := true) (be := be) (r := s)
          (s := setLx p { x with foreign := false } s) (by rw [lbOf_setLx]; exact htm) (by simp) (setLx_changes ..).mono
        rw [lbOf_setLx] at hlb
        exact ⟨_, congrArg Host.Outcome.next hsent, hlb, hout.trans (out_setLx ..), _, _, hbegin⟩

end
end Sys2Proof.Machine
end

section
/-! SUPPORT. What a landing bus records beside its own state, the event of a changed port (R291), and room for trace records. -/

namespace Sys2Proof.Safety

open Sys2Proof.Machine

/-- A change of the landing buses does not meet the records. -/
theorem Booked.withLb {ns : List Nat} {u t : State} (h : Booked ns u t) (l : Landing) : Booked ns { u with lb := l } { t with lb := l } where
  frame := congrArg (fun x : State => { x with lb := l }) h.frame
  logKept := h.logKept
  sjKept := h.sjKept
  trKept := h.trKept
  poolKept := h.poolKept
  layout := h.layout
  ringsKept := h.ringsKept
  bytesKept := h.bytesKept

end Sys2Proof.Safety

namespace Sys2Proof.Machine

open Safety (Booked)

section
set_option Elab.async false

variable {s t u v : State} {ns : List Nat}

/-! ### Records beside the landing buses -/

/-- The state `t` is `u` but for the landing buses, records and pushes to the rings `ns`. -/
def LandBooked (ns : List Nat) (u t : State) : Prop := Booked ns { u with lb := t.lb } t

theorem LandBooked.of_booked (h : Booked ns u t) : LandBooked ns u t := by
  have hlb : t.lb = u.lb := by rw [h.frame]
  rw [LandBooked, hlb]
  exact h

theorem LandBooked.refl (ns : List Nat) (s : State) : LandBooked ns s s := .of_booked (Safety.Booked.refl ns s)

theorem LandBooked.trans (h : LandBooked ns s t) (k : LandBooked ns t u) : LandBooked ns s u :=
  (Safety.Booked.withLb h u.lb).trans k

theorem LandBooked.mono {ms : List Nat} (h : LandBooked ns s t) (hs : ns ⊆ ms) : LandBooked ms s t := Safety.Booked.mono h hs

theorem LandBooked.lands (h : LandBooked ns s t) (l : Landing) : LandBooked ns s { t with lb := l } := Safety.Booked.withLb h l

theorem LandBooked.setsLb (h : LandBooked ns s t) (p : Nat) (b : Lb) : LandBooked ns s (setLb p b t) := by
  rw [(setLb_frame p b t).1]
  exact h.lands _

theorem LandBooked.setsLx (h : LandBooked ns s t) (p : Nat) (x : LbCtx) : LandBooked ns s (setLx p x t) := by
  rw [(setLx_frame p x t).1]
  exact h.lands _

/-- A state with the port's change and its records is booked on the changed state. -/
theorem LandBooked.booked (h : LandBooked ns s t) {v : State} (hv : v = { s with lb := v.lb }) (hlb : t.lb = v.lb) : Booked ns v t := by
  rw [hv, ← hlb]
  exact h

theorem LandBooked.ring (h : LandBooked ns s t) {n : Nat} (hn : n ∉ ns) : ringGet t n = ringGet s n := h.ringsKept n hn

theorem LandBooked.opUs (h : LandBooked ns s t) : t.clk.opUs = s.clk.opUs := by rw [h.frame]

theorem sj_land (c sv : Nat) (i : Bytes) (s : State) : LandBooked [2, 3] s (sj c sv i s) := .of_booked (Safety.sj_booked ..)
theorem drawn_land (s : State) : LandBooked ns s (drawn s) := .of_booked (Safety.drawn_booked ns s)

/-! ### A push in its place -/

/-- A push to a ring with room takes the next slot, and stands there through records (R114, R115). -/
theorem push_place {n : Nat} (hn : n ≠ 2 ∧ n ≠ 3) (d : Desc) (hdepth : ringDepth (ringGet u n) ≠ 0) (hroom : ringFull (ringGet u n) = false)
    (hwaits : (ringGet u n).policy ≠ 1 ∨ (ringGet u n).waiting = []) (ht : LandBooked [2, 3] (push n d u) t) :
    (ringGet t n).pi = (ringGet u n).pi + 1 ∧
      (Safety.storesWf u → Safety.ringApart n u → dataRead (ringAddr (ringGet u n) (ringGet u n).pi) 16 t = descBytes d) := by
  have hput := ringPut_of_room d hdepth hroom hwaits
  have hstored : LandBooked [2, 3] (ringStore n (ringGet u n) d u) t := by
    have hpush := LandBooked.of_booked (push_booked_put n d u)
    rw [hput] at hpush
    exact hpush.trans ht
  constructor
  · rw [hstored.ring (by simp [hn]), ringGet_ringStore hdepth]
    rfl
  · intro hwf hapart
    have hown : Booked [n] u (ringStore n (ringGet u n) d u) := by
      have := Safety.ringPut_booked n d u
      rwa [hput] at this
    exact dataRead_push (s := { u with lb := t.lb }) n (ringGet u n) hwf hapart hdepth rfl rfl (Safety.Booked.withLb hown t.lb) hstored

theorem leAt_descBytes (d : Desc) : leAt (descBytes d) 8 4 = d.ts.toNat ∧ leAt (descBytes d) 12 4 = d.tag.toNat := by
  have hall (a b c e : Nat) (x y : Byte) : leAt (leBytes 4 a ++ leBytes 2 b ++ [x, y] ++ leBytes 4 c ++ leBytes 4 e) 8 4 = c % 256 ^ 4 ∧
      leAt (leBytes 4 a ++ leBytes 2 b ++ [x, y] ++ leBytes 4 c ++ leBytes 4 e) 12 4 = e % 256 ^ 4 := by
    simp only [List.append_assoc, List.cons_append, List.nil_append]
    rw [leAt_skip_leBytes (by decide), leAt_skip_leBytes (by decide), leAt_skip_cons (by decide), leAt_skip_cons (by decide),
      leAt_leBytes_append, leAt_skip_leBytes (by decide), leAt_skip_leBytes (by decide), leAt_skip_cons (by decide),
      leAt_skip_cons (by decide), leAt_skip_leBytes (by decide), leAt_leBytes]
    exact ⟨rfl, rfl⟩
  obtain ⟨hts, htag⟩ := hall d.buf.toNat d.len.toNat d.ts.toNat d.tag.toNat d.src d.flags
  exact ⟨hts.trans (Nat.mod_eq_of_lt d.ts.isLt), htag.trans (Nat.mod_eq_of_lt d.tag.isLt)⟩

/-! ### The event of a changed port (R291) -/

/-- The event of port `p` that a change from `s` to `t` pushes. -/
def PortEvent (p : Fin 4) (s t : State) : Prop :=
  ringDepth (ringGet s 23) ≠ 0 → ringFull (ringGet s 23) = false → (ringGet s 23).waiting = [] →
    (ringGet t 23).pi = (ringGet s 23).pi + 1 ∧
    (Safety.storesWf s → Safety.ringApart 23 s →
      let d := dataRead (ringAddr (ringGet s 23) (ringGet s 23).pi) 16 t
      leAt d 8 4 = s.clk.opUs % 2 ^ 32 ∧ leAt d 12 4 = p + 16 * lbStateCode (lbOf t p).state + 256 * lbStateCode (lbOf s p).state +
        4096 * b2n (lbOf t p).passive + 8192 * b2n (lbOf t p).polarity)

theorem lbStateCode_le (x : LbState) : lbStateCode x ≤ 5 := by cases x <;> decide

theorem b2n_le (b : Bool) : b2n b ≤ 1 := by cases b <;> decide

/-- What stands before a port's event: the change, and its record where the state changes. -/
def portSaid (p : Nat) (new : Lb) (s : State) : State :=
  if (lbOf s p).state ≠ new.state then
    sj 0x701 0 (item p ++ item (lbStateCode (lbOf s p).state) ++ item (lbStateCode new.state) ++ item new.tec ++ item new.recCnt) (setLb p new s)
  else setLb p new s

theorem portSaid_land (p : Nat) (new : Lb) (s : State) : LandBooked [2, 3] s (portSaid p new s) := by
  have hset : LandBooked [2, 3] s (setLb p new s) := (LandBooked.refl _ s).setsLb p new
  unfold portSaid
  split
  · exact hset.trans (sj_land ..)
  · exact hset

theorem lbChange_of_changed {p : Nat} {f : Lb → Lb} (h : (lbOf s p).state ≠ (f (lbOf s p)).state ∨
      (lbOf s p).passive ≠ (f (lbOf s p)).passive ∨ (lbOf s p).polarity ≠ (f (lbOf s p)).polarity) :
    lbChange p f s = pushEvent 7 (BitVec.ofNat 8 (8 + p)) (BitVec.ofNat 32 (lbTag p (lbOf s p) (f (lbOf s p)))) (portSaid p (f (lbOf s p)) s) :=
  if_pos h

theorem lbChange_of_same {p : Nat} {f : Lb → Lb} (h : (lbOf s p).state = (f (lbOf s p)).state ∧
      (lbOf s p).passive = (f (lbOf s p)).passive ∧ (lbOf s p).polarity = (f (lbOf s p)).polarity) :
    lbChange p f s = setLb p (f (lbOf s p)) s := by
  obtain ⟨hstate, hpassive, hpol⟩ := h
  exact (if_neg (by rintro (h | h | h) <;> contradiction)).trans (if_neg fun h => h hstate)

theorem lbChange_land (p : Nat) (f : Lb → Lb) (s : State) : LandBooked [23, 2, 3] s (lbChange p f s) := by
  by_cases h : (lbOf s p).state ≠ (f (lbOf s p)).state ∨ (lbOf s p).passive ≠ (f (lbOf s p)).passive ∨
      (lbOf s p).polarity ≠ (f (lbOf s p)).polarity
  · rw [lbChange_of_changed h]
    exact ((portSaid_land ..).mono (by simp)).trans (.of_booked (Safety.pushEvent_booked 7 _ _ _))
  · push Not at h
    rw [lbChange_of_same h]
    exact (LandBooked.refl _ s).setsLb p _

theorem lbChange_lb (p : Nat) (f : Lb → Lb) (s : State) : (lbChange p f s).lb = (setLb p (f (lbOf s p)) s).lb := by
  have hsaid : (portSaid p (f (lbOf s p)) s).lb = (setLb p (f (lbOf s p)) s).lb := by
    unfold portSaid
    split
    · exact (sj_changes ..).get .lb
    · rfl
  by_cases h : (lbOf s p).state ≠ (f (lbOf s p)).state ∨ (lbOf s p).passive ≠ (f (lbOf s p)).passive ∨
      (lbOf s p).polarity ≠ (f (lbOf s p)).polarity
  · rw [lbChange_of_changed h, (pushEvent_changes ..).get .lb, hsaid]
  · push Not at h
    rw [lbChange_of_same h]

@[simp] theorem lxOf_lbChange (p q : Nat) (f : Lb → Lb) (s : State) : lxOf (lbChange p f s) q = lxOf s q := by
  rw [lxOf_congr (lbChange_lb p f s), lxOf_setLb]

theorem portSaid_wf {p : Nat} {new : Lb} (hwf : Safety.storesWf s) : Safety.storesWf (portSaid p new s) := by
  have hset : Kept s (setLb p new s) := setLb_kept (Kept.refl s)
  unfold portSaid
  split
  · exact (sj_kept hset).wf hwf
  · exact hset.wf hwf

/-- The event of a change stands in its ring through the records that follow. -/
theorem lbChange_event {p : Fin 4} {f : Lb → Lb} (h : (lbOf s p).state ≠ (f (lbOf s p)).state ∨
      (lbOf s p).passive ≠ (f (lbOf s p)).passive ∨ (lbOf s p).polarity ≠ (f (lbOf s p)).polarity)
    (ht : LandBooked [2, 3] (lbChange p f s) t) (hstate : (lbOf t p).state = (f (lbOf s p)).state)
    (hpassive : (lbOf t p).passive = (f (lbOf s p)).passive) (hpol : (lbOf t p).polarity = (f (lbOf s p)).polarity) : PortEvent p s t := by
  intro hdepth hroom hwaits
  have hsaid := portSaid_land p (f (lbOf s p)) s
  have hring : ringGet (drawn (portSaid p (f (lbOf s p)) s)) 23 = ringGet s 23 := hsaid.ring (by decide)
  rw [lbChange_of_changed h] at ht
  obtain ⟨hpi, hslot⟩ := push_place (u := drawn (portSaid p (f (lbOf s p)) s)) (n := 23) (by decide) _ (by rwa [hring]) (by rwa [hring])
    (.inr (by rwa [hring])) ht
  rw [hring] at hpi hslot
  refine ⟨hpi, fun hwf hapart => ?_⟩
  have hslot := hslot (portSaid_wf hwf) (by
    obtain ⟨hfits, hslots⟩ := hapart
    have hin (ns : List Nat) (a : Nat) : Safety.inSlots (drawn (portSaid p (f (lbOf s p)) s)) ns a ↔ Safety.inSlots s ns a := by
      have hl (n : Nat) := hsaid.layout n
      have hb (n : Nat) : (ringGet (drawn (portSaid p (f (lbOf s p)) s)) n).base = (ringGet s n).base := (hl n).1
      have hd (n : Nat) : ringDepth (ringGet (drawn (portSaid p (f (lbOf s p)) s)) n) = ringDepth (ringGet s n) := by
        rw [ringDepth, ringDepth]
        exact congrArg (fun k => if k = 0 then 0 else 2 ^ k) (hl n).2.1
      simp only [Safety.inSlots, hb, hd]
    refine ⟨by rwa [hring], fun a ha => ?_⟩
    rw [hin] at ha ⊢
    exact hslots a ha)
  intro d
  obtain ⟨hts, htag⟩ := leAt_descBytes { buf := freeWord (portSaid p (f (lbOf s p)) s), src := BitVec.ofNat 8 (8 + p)
                                         ts := tsNow (portSaid p (f (lbOf s p)) s)
                                         tag := BitVec.ofNat 32 (lbTag p (lbOf s p) (f (lbOf s p))) }
  have hd : d = _ := hslot
  rw [hd, hts, htag, hstate, hpassive, hpol]
  refine ⟨?_, ?_⟩
  · exact (BitVec.toNat_ofNat ..).trans (by rw [hsaid.opUs])
  · have h1 := lbStateCode_le (f (lbOf s p)).state
    have h2 := lbStateCode_le (lbOf s p).state
    have h3 := b2n_le (f (lbOf s p)).passive
    have h4 := b2n_le (f (lbOf s p)).polarity
    exact (BitVec.toNat_ofNat ..).trans (Nat.mod_eq_of_lt (by rw [lbTag]; omega))

/-- A change of STATE is recorded (R291, R310). -/
theorem lbChange_journals {p : Nat} {f : Lb → Lb} {r : State} (hfrom : Changes landParts r s) (h : (lbOf s p).state ≠ (f (lbOf s p)).state)
    (ht : Changes landParts (lbChange p f s) t) :
    Safety.journals 0x701 0 (item p ++ item (lbStateCode (lbOf s p).state) ++ item (lbStateCode (f (lbOf s p)).state) ++
      item (f (lbOf s p)).tec ++ item (f (lbOf s p)).recCnt) r t := by
  refine journals_of_land (hfrom.join (setLb_changes p (f (lbOf s p)) s).mono) ?_
  rw [lbChange_of_changed (.inl h), portSaid, if_pos h] at ht
  exact (pushEvent_changes ..).mono.join ht

end
end Sys2Proof.Machine
end

section
/-! SUPPORT. Room in the trace ring through a push (R116 to R119). -/

namespace Sys2Proof.Machine

open Safety (Booked)

section
set_option Elab.async false

variable {s t u v : State}

/-- How full the trace ring is. -/
def traceFill (s : State) : Nat := ringFill (ringGet s 3)
def traceDepth (s : State) : Nat := ringDepth (ringGet s 3)

/-- The trace ring is as deep, and holds at most `n` descriptors more. -/
def TraceGrows (n : Nat) (s t : State) : Prop := traceDepth t = traceDepth s ∧ traceFill t ≤ traceFill s + n

theorem TraceGrows.refl (n : Nat) (s : State) : TraceGrows n s s := ⟨rfl, Nat.le_add_right ..⟩

theorem TraceGrows.of_queues {n : Nat} (h : t.queues = s.queues) : TraceGrows n s t := by
  have hring : ringGet t 3 = ringGet s 3 := by rw [ringGet, h, ringGet]
  rw [TraceGrows, traceDepth, traceFill, hring]
  exact ⟨rfl, Nat.le_add_right ..⟩

theorem TraceGrows.trans {m n : Nat} (h : TraceGrows m s t) (k : TraceGrows n t u) : TraceGrows (m + n) s u :=
  ⟨k.1.trans h.1, by have := h.2; have := k.2; omega⟩

theorem TraceGrows.mono {m n : Nat} (h : TraceGrows m s t) (hle : m ≤ n) : TraceGrows n s t := ⟨h.1, Nat.le_trans h.2 (by omega)⟩

theorem repeatGate_queues (code key : Nat) (s : State) : (repeatGate code key s).1.queues = s.queues := by
  unfold repeatGate
  dsimp only
  split
  · split <;> rfl
  · rfl

/-- A record under the repetition rule adds what its writing adds. -/
theorem traceGrows_gate {n : Nat} {r : State → Nat → Record} {k : Nat} (code key : Nat) (s : State)
    (h : ∀ t m, t.queues = s.queues → TraceGrows n s (perform k (.tr (r t m)) t)) :
    TraceGrows n s (match repeatGate code key s with
      | (t, some m) => perform k (.tr (r t m)) t
      | (t, none) => t) := by
  have hq := repeatGate_queues code key s
  rcases hgate : repeatGate code key s with ⟨t, m⟩
  rw [hgate] at hq
  cases m with
  | none => exact .of_queues hq
  | some m => exact h t m hq

/-- A descriptor put into a trace ring with room. -/
theorem traceGrows_put (d : Desc) (hroom : traceFill s + 1 ≤ traceDepth s) :
    TraceGrows 1 s (ringPut 3 d s).1 ∧ ∃ mark, (ringPut 3 d s).2 = { mark := mark } := by
  have hdepth : ringDepth (ringGet s 3) ≠ 0 := by rw [traceDepth] at hroom; omega
  have hne {r : Ring} (h : r.log2 = (ringGet s 3).log2) : r ≠ {} := ring_ne_of_depth (by rw [ringDepth, h]; exact hdepth)
  have hfull : ringFull (ringGet s 3) = false := by
    rw [ringFull, decide_eq_false]
    rw [traceDepth, traceFill] at hroom
    omega
  by_cases hwaits : (ringGet s 3).policy ≠ 1 ∨ (ringGet s 3).waiting = []
  · rw [ringPut_of_room d hdepth hfull hwaits]
    have hring : ringGet (ringStore 3 (ringGet s 3) d s) 3 = ringAppended (ringGet s 3) := ringGet_ringStore hdepth ..
    refine ⟨⟨?_, ?_⟩, _, rfl⟩
    · rw [traceDepth, hring]
      rfl
    · rw [traceFill, hring, traceFill]
      have hadd : (ringAppended (ringGet s 3)).pi - (ringAppended (ringGet s 3)).ci = (ringGet s 3).pi - (ringGet s 3).ci + 1 := by
        change (ringGet s 3).pi + 1 - (ringGet s 3).ci = _
        bv_omega
      rw [ringFill, hadd, ringFill, BitVec.toNat_add]
      exact Nat.mod_le ..
  · push Not at hwaits
    have hput : ringPut 3 d s = (ringSet 3 { ringGet s 3 with waiting := (ringGet s 3).waiting ++ [d] } s, {}) := by
      rw [ringPut]
      dsimp only
      rw [if_neg hdepth, if_pos ⟨hwaits.1, .inr hwaits.2⟩]
    have hring : ringGet (ringSet 3 { ringGet s 3 with waiting := (ringGet s 3).waiting ++ [d] } s) 3 =
        { ringGet s 3 with waiting := (ringGet s 3).waiting ++ [d] } := Safety.ringGet_ringSet_self _ _ _ (hne rfl)
    rw [hput]
    refine ⟨⟨?_, ?_⟩, false, rfl⟩
    · rw [traceDepth, hring]
      rfl
    · rw [traceFill, hring]
      exact Nat.le_succ _

/-- A trace record adds at most half as many descriptors as its bound, where there is room for them: each one may bring the mark of the
trace ring, once in two steps. -/
theorem traceGrows_tr (k : Nat) : (∀ d s, traceFill s + (k + 1) / 2 ≤ traceDepth s → TraceGrows ((k + 1) / 2) s (perform k (.desc 3 d) s)) ∧
    ∀ r s, traceFill s + k / 2 ≤ traceDepth s → TraceGrows (k / 2) s (perform k (.tr r) s) := by
  induction k with
  | zero => exact ⟨fun d s _ => .refl _ s, fun r s _ => .refl _ s⟩
  | succ k ih =>
    obtain ⟨ihdesc, ihtr⟩ := ih
    refine ⟨fun d s hroom => ?_, fun r s hroom => ?_⟩
    · obtain ⟨hgrows, mark, hmark⟩ := traceGrows_put (s := s) d (by omega)
      rw [perform]
      rcases hput : ringPut 3 d s with ⟨s0, p⟩
      rw [hput] at hgrows hmark
      subst hmark
      dsimp only at hgrows ⊢
      simp only [Bool.false_eq_true, and_false, if_false]
      split
      · have hlater := traceGrows_gate (n := k / 2) (k := k) 0x125 3 s0
          (r := fun t m => recordOf 0x125 0 (item 3 ++ item (ringFill (ringGet s0 3)) ++ item (ringDepth (ringGet s0 3))) m t) fun t m hq => by
            have hsame : TraceGrows 0 s0 t := .of_queues hq
            have := hgrows.1
            have := hgrows.2
            have := hsame.1
            have := hsame.2
            exact ((hsame.trans (ihtr _ t (by omega))).mono (by omega))
        exact (hgrows.trans hlater).mono (by omega)
      · exact hgrows.mono (by omega)
    · rw [perform]
      dsimp only
      split
      all_goals
        refine (TraceGrows.trans (m := 0) (.of_queues rfl) (ihdesc _ _ ?_)).mono (by omega)
        exact hroom

theorem traceGrows_push {n : Nat} (hn : n ≠ 3) (d : Desc) (hroom : traceFill s + 6 ≤ traceDepth s) : TraceGrows 6 s (push n d s) := by
  have hput := (Safety.ringPut_booked n d s).ringsKept 3 (by simp [Ne.symm hn])
  rw [push, perform]
  rcases hdone : ringPut n d s with ⟨s0, p⟩
  rw [hdone] at hput
  dsimp only at hput ⊢
  have hstart : TraceGrows 0 s s0 := by
    rw [TraceGrows, traceDepth, traceFill, hput]
    exact ⟨rfl, Nat.le_refl _⟩
  rw [if_neg (show ¬ (n = 3 ∧ p.dropped = true) from fun h => hn h.1)]
  have hgate (code key : Nat) (r : State → Nat → Record) (v : State) (hv : traceFill v + 3 ≤ traceDepth v) :
      TraceGrows 3 v (match repeatGate code key v with
        | (t, some m) => perform 7 (.tr (r t m)) t
        | (t, none) => t) := by
    refine traceGrows_gate code key v fun t m hq => ?_
    have hsame : TraceGrows 0 v t := .of_queues hq
    have := hsame.1
    have := hsame.2
    exact (hsame.trans ((traceGrows_tr 7).2 _ t (by omega))).mono (by omega)
  have hover : TraceGrows 3 s (if p.overflow then
        match repeatGate 0x124 n s0 with
        | (t, some m) =>
          perform 7 (.tr (recordOf 0x124 1 (item n ++ item (ringGet s0 n).policy.toNat ++ item (m + 1)) m t)) t
        | (t, none) => t
      else s0) := by
    split
    · have h1 := hstart.1
      have h2 := hstart.2
      exact (hstart.trans (hgate 0x124 n (fun t m => recordOf 0x124 1 (item n ++ item (ringGet s0 n).policy.toNat ++ item (m + 1)) m t) s0
        (by omega))).mono (by omega)
    · exact hstart.mono (by omega)
  generalize (if p.overflow then
        match repeatGate 0x124 n s0 with
        | (t, some m) =>
          perform 7 (.tr (recordOf 0x124 1 (item n ++ item (ringGet s0 n).policy.toNat ++ item (m + 1)) m t)) t
        | (t, none) => t
      else s0) = v at hover ⊢
  split
  · have h1 := hover.1
    have h2 := hover.2
    exact hover.trans (hgate 0x125 n
      (fun t m => recordOf 0x125 0 (item n ++ item (ringFill (ringGet s0 n)) ++ item (ringDepth (ringGet s0 n))) m t) v (by omega))
  · exact hover.mono (by omega)

end
end Sys2Proof.Machine
end

section
/-! SUPPORT. A frame received on a landing bus, step by step (R282, R290, R293, R298, R305, R307). -/

namespace Sys2Proof.Machine

open Safety (Booked)

section
set_option Elab.async false

variable {s t u v : State} {p : Fin 4} {ts : Nat} {f : CanFrame}

/-! ### The ports through a message and a write of data -/

@[simp] theorem lbOf_push (n : Nat) (d : Desc) (s : State) (q : Nat) : lbOf (push n d s) q = lbOf s q := lbOf_congr ((push_changes ..).get .lb) q
@[simp] theorem lxOf_push (n : Nat) (d : Desc) (s : State) (q : Nat) : lxOf (push n d s) q = lxOf s q := lxOf_congr ((push_changes ..).get .lb) q
@[simp] theorem lbOf_dataWrite (a : Nat) (bs : Bytes) (s : State) (q : Nat) : lbOf (dataWrite a bs s) q = lbOf s q := rfl
@[simp] theorem lxOf_dataWrite (a : Nat) (bs : Bytes) (s : State) (q : Nat) : lxOf (dataWrite a bs s) q = lxOf s q := rfl
@[simp] theorem lbOf_trRepCount (c v k : Nat) (i : Nat → Bytes) (s : State) (q : Nat) : lbOf (trRepCount c v k i s) q = lbOf s q :=
  lbOf_congr ((trRepCount_changes ..).get .lb) q
@[simp] theorem lxOf_trRepCount (c v k : Nat) (i : Nat → Bytes) (s : State) (q : Nat) : lxOf (trRepCount c v k i s) q = lxOf s q :=
  lxOf_congr ((trRepCount_changes ..).get .lb) q

/-! ### Stored or dropped (R282) -/

/-- The descriptor of a received frame. -/
def rxDesc (p : Fin 4) (ts : Nat) (f : CanFrame) (s : State) : Desc :=
  { buf := BitVec.ofNat 32 (rxBuffer p (ringGet s (lbCfg s p).rxRing).pi.toNat), len := 80, src := BitVec.ofNat 8 (8 + p)
    ts := BitVec.ofNat 32 ts, tag := BitVec.ofNat 32 (idWord f) }

theorem storeFrame_of_room (h : ringFull (ringGet s (lbCfg s p).rxRing) = false) : storeFrame p ts f s =
    modLx p (fun x => { x with inbox := x.inbox ++ [(ts, f)], waker := wakerOf x f }) (modLb p (fun b => { b with rx := b.rx + 1 })
      (push (lbCfg s p).rxRing (rxDesc p ts f s)
        (dataWrite (rxBuffer p (ringGet s (lbCfg s p).rxRing).pi.toNat) (frameBytes ts f) s))) :=
  if_neg (by rw [h]; exact Bool.false_ne_true)

theorem storeFrame_of_full (h : ringFull (ringGet s (lbCfg s p).rxRing) = true) : storeFrame p ts f s =
    trRepCount 0x705 1 p (fun k => item p ++ item k) (modLx p (fun x => { x with rxDropped := true })
      (modLb p (fun b => { b with rxDrop := satInc b.rxDrop }) (push (lbCfg s p).rxRing (rxDesc p ts f s) s))) := if_pos h

/-- A frame with room counts and goes to the next cut. -/
theorem storeFrame_room (h : ringFull (ringGet s (lbCfg s p).rxRing) = false) (q : Fin 4) :
    lbOf (storeFrame p ts f s) q = (if q = p then { lbOf s p with rx := (lbOf s p).rx + 1 } else lbOf s q) ∧
    lxOf (storeFrame p ts f s) q =
      (if q = p then { lxOf s p with inbox := (lxOf s p).inbox ++ [(ts, f)], waker := wakerOf (lxOf s p) f } else lxOf s q) := by
  rw [storeFrame_of_room h]
  simp

/-- One without is dropped and counted. -/
theorem storeFrame_full (h : ringFull (ringGet s (lbCfg s p).rxRing) = true) (q : Fin 4) :
    lbOf (storeFrame p ts f s) q = (if q = p then { lbOf s p with rxDrop := satInc (lbOf s p).rxDrop } else lbOf s q) ∧
    lxOf (storeFrame p ts f s) q = (if q = p then { lxOf s p with rxDropped := true } else lxOf s q) := by
  rw [storeFrame_of_full h]
  simp

/-- What storing leaves of a port's context. -/
theorem storeFrame_ctx (p : Fin 4) (ts : Nat) (f : CanFrame) (s : State) :
    ∃ inbox waker dropped, lxOf (storeFrame p ts f s) p = { lxOf s p with inbox := inbox, waker := waker, rxDropped := dropped } := by
  cases h : ringFull (ringGet s (lbCfg s p).rxRing) with
  | false => exact ⟨_, _, (lxOf s p).rxDropped, by rw [(storeFrame_room h p).2, if_pos rfl]⟩
  | true => exact ⟨(lxOf s p).inbox, (lxOf s p).waker, true, by rw [(storeFrame_full h p).2, if_pos rfl]⟩

theorem lbCfg_storeFrame (p : Fin 4) (ts : Nat) (f : CanFrame) (s : State) : lbCfg (storeFrame p ts f s) p = lbCfg s p := by
  obtain ⟨rx, rxDrop, hlb⟩ := lbOf_storeFrame p ts f s
  rw [lbCfg, hlb]
  rfl

theorem lbThere_congr (hpd : t.power.pdOn = s.power.pdOn) (hcfg : (lbOf t p).cfg = (lbOf s p).cfg) : lbThere t p = lbThere s p := by
  rw [lbThere, pdIs, hpd, hcfg]
  rfl

theorem isBeacon_congr (hpd : t.power.pdOn = s.power.pdOn) (hcfg : (lbOf t p).cfg = (lbOf s p).cfg) : isBeacon t p = isBeacon s p := by
  rw [isBeacon, lbThere_congr hpd hcfg, lbCfg, hcfg]
  rfl

/-! ### A node heard (R298, R307) -/

theorem lxOf_setNode (p q : Fin 4) (n : Nat) (x : Node) (s : State) :
    lxOf (setNode p n x s) q = if q = p then { lxOf s p with nodes := sput {} (lxOf s p).nodes n x } else lxOf s q := lxOf_modLx ..

@[simp] theorem lbOf_setNode (p n : Nat) (x : Node) (s : State) (q : Nat) : lbOf (setNode p n x s) q = lbOf s q := lbOf_modLx ..

theorem nodeOf_setNode_self (p : Fin 4) (n : Nat) {x : Node} (s : State) (hx : x ≠ {}) : nodeOf (setNode p n x s) p n = x := by
  rw [nodeOf, lxOf_setNode, if_pos rfl]
  exact Safety.sget_sput_self _ _ _ _ hx

theorem txPush_lb (src : Byte) (p : Nat) (f : CanFrame) (s : State) : (txPush src p f s).lb = s.lb := (txPush_changes ..).get .lb

theorem markResync_changes (p n off : Nat) (s : State) : Changes landParts s (markResync p n off s) := by
  unfold markResync
  dsimp only
  refine Changes.trans ?_ (sj_changes ..)
  split
  · exact (modNode_changes ..).mono
  · exact (modNode_changes ..).mono.trans (txPush_changes ..)

theorem markResync_journals {p n off : Nat} {r s : State} (h : Changes landParts r s) :
    Safety.journals 0x723 1 (item p ++ item n ++ item off) r (markResync p n off s) := by
  unfold markResync
  dsimp only
  refine journals_of_land (h.join ?_) (.refl _ _)
  split
  · exact (modNode_changes ..).mono
  · exact (modNode_changes ..).mono.trans (txPush_changes ..)

/-- A node marked: its own entry. -/
theorem markResync_shows (p : Fin 4) (n off : Nat) (s : State) :
    (∀ q, lbOf (markResync p n off s) q = lbOf s q) ∧
    (∀ q, lxOf (markResync p n off s) q = lxOf (modNode p n (fun x => { x with resync := true }) s) q) := by
  have hstep (f : CanFrame) (u : State) : (if s.power.role = .pacer then u else txPush 3 p f u).lb = u.lb := by
    split
    · rfl
    · exact txPush_lb ..
  constructor <;> intro q
  · unfold markResync
    dsimp only
    rw [lbOf_sj, lbOf_congr (hstep _ _), modNode, lbOf_setNode]
  · unfold markResync
    dsimp only
    rw [lxOf_sj, lxOf_congr (hstep _ _)]

theorem beaconHeard_changes (p ts : Nat) (f : CanFrame) (s : State) : Changes landParts s (beaconHeard p ts f s) := by
  unfold beaconHeard
  split
  · exact .refl _ s
  · split
    · exact .refl _ s
    · dsimp only
      split
      · exact ((modNode_changes ..).mono.trans (modNode_changes ..)).join (markResync_changes ..)
      · exact (modNode_changes ..).mono

/-- What hearing a frame leaves: the nodes of the bus alone change. -/
theorem beaconHeard_keeps (p : Fin 4) (ts : Nat) (f : CanFrame) (s : State) : (∀ q, lbOf (beaconHeard p ts f s) q = lbOf s q) ∧
    ∃ nodes, lxOf (beaconHeard p ts f s) p = { lxOf s p with nodes := nodes } := by
  have hsame : ∃ nodes, lxOf s p = { lxOf s p with nodes := nodes } := ⟨_, rfl⟩
  have hmod (n : Nat) (g : Node → Node) (u : State) (hu : ∃ nodes, lxOf u p = { lxOf s p with nodes := nodes }) :
      ∃ nodes, lxOf (modNode p n g u) p = { lxOf s p with nodes := nodes } := by
    obtain ⟨nodes, hnodes⟩ := hu
    refine ⟨sput {} nodes n (g (nodeOf u p n)), ?_⟩
    rw [modNode, lxOf_setNode, if_pos rfl, hnodes]
  unfold beaconHeard
  split
  · exact ⟨fun _ => rfl, hsame⟩
  · split
    · exact ⟨fun _ => rfl, hsame⟩
    · dsimp only
      split
      · obtain ⟨hlb, hlx⟩ := markResync_shows p _ _ _
        refine ⟨fun q => ?_, ?_⟩
        · rw [hlb, modNode, lbOf_setNode, modNode, lbOf_setNode]
        · rw [hlx]
          exact hmod _ _ _ (hmod _ _ _ (hmod _ _ _ hsame))
      · exact ⟨fun q => by rw [modNode, lbOf_setNode], hmod _ _ _ hsame⟩

/-- A frame of node `n` of a Beacon bus. -/
theorem beaconHeard_node {n : Nat} (hbeacon : isBeacon s p = true) (hnode : beaconNode f = some n) :
    (∀ k, k ≠ n → nodeOf (beaconHeard p ts f s) p k = nodeOf s p k) ∧
    (f.outOfSlot = false → nodeOf (beaconHeard p ts f s) p n = { nodeOf s p n with lastUs := s.clk.opUs, heard := true }) ∧
    (f.outOfSlot = true → (nodeOf (beaconHeard p ts f s) p n).resync = true ∧ (nodeOf (beaconHeard p ts f s) p n).heard = true ∧
      ∀ r, Changes landParts r s → ∃ off, Safety.journals 0x723 1 (item p ++ item n ++ item off) r (beaconHeard p ts f s)) := by
  have hx (x : Node) (h : x.heard = true) : x ≠ {} := fun h' => Bool.false_ne_true ((congrArg Node.heard h').symm.trans h)
  have hself (g : Node → Node) (u : State) (hg : (g (nodeOf u p n)).heard = true) : nodeOf (modNode p n g u) p n = g (nodeOf u p n) :=
    nodeOf_setNode_self p n u (hx _ hg)
  have hne (g : Node → Node) (u : State) (k : Nat) (hk : k ≠ n) : nodeOf (modNode p n g u) p k = nodeOf u p k := nodeOf_setNode_ne p n k _ u hk
  let s1 := modNode p n (fun x => { x with lastUs := s.clk.opUs, heard := true }) s
  let s2 := modNode p n (fun x => { x with resyncNew := isStatusFrame f }) s1
  have h1 : nodeOf s1 p n = { nodeOf s p n with lastUs := s.clk.opUs, heard := true } := hself _ s rfl
  have h2 : (nodeOf s2 p n).heard = true := by
    rw [show nodeOf s2 p n = _ from hself _ s1 (by rw [h1]), h1]
  have hheard : beaconHeard p ts f s = if f.outOfSlot then
      markResync p n (((slotOffset s p n ts).tdiv 1000) % 2 ^ 32).toNat s2 else s1 := by
    unfold beaconHeard
    rw [if_neg (by rw [hbeacon]; decide), hnode]
  have hmarked (off k : Nat) : nodeOf (markResync p n off s2) p k = nodeOf (modNode p n (fun x => { x with resync := true }) s2) p k := by
    rw [nodeOf, (markResync_shows p n off s2).2 p, nodeOf]
  rw [hheard]
  cases f.outOfSlot with
  | false =>
    rw [if_neg Bool.false_ne_true]
    exact ⟨fun k hk => hne _ s k hk, fun _ => h1, fun h => absurd h Bool.false_ne_true⟩
  | true =>
    rw [if_pos rfl]
    refine ⟨fun k hk => ?_, fun h => absurd h.symm Bool.false_ne_true, fun _ => ⟨?_, ?_, fun r hr => ⟨(((slotOffset s p n ts).tdiv 1000) % 2 ^ 32).toNat, ?_⟩⟩⟩
    · rw [hmarked, hne _ _ k hk, hne _ _ k hk, hne _ _ k hk]
    · rw [hmarked, hself _ s2 h2]
    · rw [hmarked, hself _ s2 h2]
      exact h2
    · exact markResync_journals ((hr.trans (modNode_changes ..)).trans (modNode_changes ..))

/-! ### A reference heard (R293) -/

/-- Is the frame a reference of this bus, and long enough? -/
def isReference (c : CtrlCfg) (f : CanFrame) : Prop :=
  f.ide = false ∧ (f.id.toNat = c.refId ∨ f.id.toNat = c.refId + 1) ∧ 16 ≤ f.data.length

theorem noteReference_changes (p ts : Nat) (f : CanFrame) (s : State) : Changes [.lb] s (noteReference p ts f s) := by
  unfold noteReference
  dsimp only
  split
  · exact .refl _ s
  · exact (modLb_changes ..).join (modLx_changes ..)

theorem noteReference_other (h : ¬ isReference (lbCfg s p) f) : noteReference p ts f s = s := by
  refine if_pos ?_
  by_contra hnot
  push Not at hnot
  obtain ⟨hide, hid, hlen⟩ := hnot
  exact h ⟨by simpa using hide, by by_cases hfirst : f.id.toNat = (lbCfg s p).refId <;> tauto, hlen⟩

/-- The cycle, the time and the epoch of a reference. -/
theorem noteReference_shows (h : isReference (lbCfg s p) f) :
    lbOf (noteReference p ts f s) p =
      { lbOf s p with cycle := BitVec.ofNat 32 (leAt f.data 8 4), masterUs := BitVec.ofNat 64 (leAt f.data 0 8) } ∧
    ∃ seenBnd foreign rxBnd, lxOf (noteReference p ts f s) p = { lxOf s p with
      epoch := BitVec.ofNat 16 (leAt f.data 12 2), refAnyUs := some ts, seenCycle := BitVec.ofNat 32 (leAt f.data 8 4)
      seenUs := BitVec.ofNat 64 (leAt f.data 0 8), seenBndUs := seenBnd, foreign := foreign, refRxBndUs := rxBnd
      refRxUs := if f.id.toNat = (lbCfg s p).refId then some ts else (lxOf s p).refRxUs } := by
  obtain ⟨hide, hid, hlen⟩ := h
  have hnot : ¬ (f.ide = true ∨ (f.id.toNat ≠ (lbCfg s p).refId ∧ f.id.toNat ≠ (lbCfg s p).refId + 1) ∨ f.data.length < 16) := by
    rw [hide]
    rintro (h | ⟨hfirst, hsecond⟩ | h)
    · cases h
    · exact hid.elim hfirst hsecond
    · omega
  have hport : lbOf (noteReference p ts f s) p =
      { lbOf s p with cycle := BitVec.ofNat 32 (leAt f.data 8 4), masterUs := BitVec.ofNat 64 (leAt f.data 0 8) } := by
    unfold noteReference
    dsimp only
    rw [if_neg hnot, lbOf_modLx, lbOf_modLb, if_pos rfl]
  refine ⟨hport, (lxOf (noteReference p ts f s) p).seenBndUs, (lxOf (noteReference p ts f s) p).foreign,
    (lxOf (noteReference p ts f s) p).refRxBndUs, ?_⟩
  unfold noteReference
  dsimp only
  rw [if_neg hnot, lxOf_modLx, if_pos rfl, lxOf_modLb]
  simp only [decide_eq_true_eq]

theorem noteReference_keeps (p : Fin 4) (ts : Nat) (f : CanFrame) (s : State) :
    (∃ cycle master, lbOf (noteReference p ts f s) p = { lbOf s p with cycle := cycle, masterUs := master }) ∧
    (lxOf (noteReference p ts f s) p).inbox = (lxOf s p).inbox ∧ (lxOf (noteReference p ts f s) p).rxDropped = (lxOf s p).rxDropped ∧
    (lxOf (noteReference p ts f s) p).nodes = (lxOf s p).nodes := by
  by_cases h : isReference (lbCfg s p) f
  · obtain ⟨hlb, _, _, _, hlx⟩ := noteReference_shows (ts := ts) h
    rw [hlb, hlx]
    exact ⟨⟨_, _, rfl⟩, rfl, rfl, rfl⟩
  · rw [noteReference_other h]
    exact ⟨⟨_, _, rfl⟩, rfl, rfl, rfl⟩

/-! ### A command that a pacer hears (R305) -/

theorem foldl_lb {α : Type} {g : State → α → State} {Q : State → State → Prop} (hrefl : ∀ u, Q u u) (htrans : ∀ {a b c}, Q a b → Q b c → Q a c)
    (hg : ∀ u x, Q u (g u x)) (l : List α) (u : State) : Q u (l.foldl g u) := by
  induction l generalizing u with
  | nil => exact hrefl u
  | cons x xs ih => exact htrans (hg u x) (ih (g u x))

/-- Only the tests, their schedule and the group of a bus may differ. -/
def TestsOnly (p : Fin 4) (s t : State) : Prop := Changes [.lb] s t ∧ (∀ q, lbOf t q = lbOf s q) ∧ ∃ group, lxOf t p = { lxOf s p with group := group }

theorem TestsOnly.refl (p : Fin 4) (s : State) : TestsOnly p s s := ⟨.refl _ s, fun _ => rfl, _, rfl⟩

theorem TestsOnly.trans (h : TestsOnly p s t) (k : TestsOnly p t u) : TestsOnly p s u := by
  obtain ⟨hch, hlb, g, hlx⟩ := h
  obtain ⟨kch, klb, g', klx⟩ := k
  exact ⟨hch.join kch, fun q => (klb q).trans (hlb q), g', by rw [klx, hlx]⟩

theorem setTests_only (p : Fin 4) (n : Nat) (x : NodeTests) (s : State) : TestsOnly p s (setTests p n x s) :=
  ⟨by unfold setTests; exact .of, fun _ => rfl, _, rfl⟩

theorem setSched_only (p : Fin 4) (x : BusSched) (s : State) : TestsOnly p s (setSched p x s) :=
  ⟨by unfold setSched; exact .of, fun _ => rfl, _, rfl⟩

theorem noteStart_only (p : Fin 4) (kind group : Nat) (id : Word) (s : State) : TestsOnly p s (noteStart p kind group id s) := by
  unfold noteStart
  dsimp only
  split
  · refine (setSched_only p _ s).trans ⟨modLx_changes .., fun q => lbOf_modLx .., BitVec.ofNat 5 group, ?_⟩
    rw [lxOf_modLx, if_pos rfl]
  · exact setSched_only ..

theorem pacerCommand_only (p : Fin 4) (f : CanFrame) (s : State) : TestsOnly p s (pacerCommand p f s) := by
  have hall {g : State → Nat → State} (hg : ∀ u x, TestsOnly p u (g u x)) (l : List Nat) (u : State) : TestsOnly p u (l.foldl g u) :=
    foldl_lb (TestsOnly.refl p) TestsOnly.trans hg l u
  unfold pacerCommand
  dsimp only
  split_ifs
  all_goals first
    | exact TestsOnly.refl p s
    | exact (hall (fun u n => setTests_only ..) _ s).trans (noteStart_only ..)
    | exact hall (fun u n => setTests_only ..) _ s

/-! ### The receive error counter (R290) -/

/-- A good frame on a NORMAL bus lets the counter fall. -/
def counterFallen (p : Fin 4) (s : State) : State :=
  if (lbOf s p).state = .normal ∧ (lbOf s p).recCnt > 0 then
    drawn (lbChange p (fun x => let r := recGood x (freeWord s); { x with recCnt := r, passive := decide (x.tec > 127 ∨ r > 127) }) s)
  else s

theorem counterFallen_land (p : Fin 4) (s : State) : LandBooked [23, 2, 3] s (counterFallen p s) := by
  unfold counterFallen
  split
  · exact (lbChange_land ..).trans (drawn_land _)
  · exact .refl _ s

theorem counterFallen_changes (p : Fin 4) (s : State) : Changes landParts s (counterFallen p s) := by
  unfold counterFallen
  split
  · exact (lbChange_changes ..).trans (drawn_changes _)
  · exact .refl _ s

@[simp] theorem lxOf_counterFallen (p : Fin 4) (q : Nat) (s : State) : lxOf (counterFallen p s) q = lxOf s q := by
  unfold counterFallen
  split
  · rw [lxOf_drawn, lxOf_lbChange]
  · rfl

theorem lbOf_counterFallen (p : Fin 4) (s : State) : ∃ rec passive, lbOf (counterFallen p s) p = { lbOf s p with recCnt := rec, passive := passive } ∧
    ((lbOf s p).state ≠ .normal ∨ (lbOf s p).recCnt = 0 → rec = (lbOf s p).recCnt ∧ passive = (lbOf s p).passive) ∧
    ((lbOf s p).state = .normal → (lbOf s p).recCnt ≠ 0 → ((lbOf s p).recCnt ≤ 127 → rec = (lbOf s p).recCnt - 1) ∧
      (127 < (lbOf s p).recCnt → 119 ≤ rec ∧ rec ≤ 127) ∧ passive = (decide (127 < (lbOf s p).tec) || decide (127 < rec))) := by
  by_cases h : (lbOf s p).state = .normal ∧ (lbOf s p).recCnt > 0
  · refine ⟨recGood (lbOf s p) (freeWord s), decide ((lbOf s p).tec > 127 ∨ recGood (lbOf s p) (freeWord s) > 127), ?_, fun hnot => ?_,
      fun _ _ => ⟨fun hle => ?_, fun hlt => ?_, ?_⟩⟩
    · rw [counterFallen, if_pos h, lbOf_drawn, lbOf_lbChange, if_pos rfl]
    · exact hnot.elim (fun hs => absurd h.1 hs) fun hz => absurd hz (Nat.ne_of_gt h.2)
    · exact if_neg (Nat.not_lt.2 hle)
    · rw [recGood, if_pos hlt]
      omega
    · simp [gt_iff_lt]
  · refine ⟨(lbOf s p).recCnt, (lbOf s p).passive, by rw [counterFallen, if_neg h], fun _ => ⟨rfl, rfl⟩, fun hs hz => ?_⟩
    exact absurd ⟨hs, Nat.pos_of_ne_zero hz⟩ h

end
end Sys2Proof.Machine
end

section
/-! PROOF. What a landing-bus port does (R56, R79, R279 to R291, R310). -/

namespace Sys2Proof.Machine

open Safety (Booked)

section
set_option Elab.async false

variable {s t u v : State} {p : Fin 4} {ts : Nat} {f : CanFrame}

/-! ### A frame received -/

/-- The frame as it is stored. -/
def heardFrame (p : Fin 4) (f : CanFrame) (s : State) : CanFrame :=
  { f with own := false, outOfSlot := outsideSlot s p (s.clk.opUs - f.sofAgo) f }

theorem lbHears_iff (s : State) (p : Fin 4) : lbHears s p = true ↔ lbThere s p = true ∧ ((lbOf s p).state = .listen ∨ (lbOf s p).state = .normal) := by
  simp [lbHears]

theorem lbFrame_idle (h : ¬ (lbHears s p = true ∧ lbTakes (lbCfg s p) f = true)) : lbFrame p f s = s := if_neg h

/-- The state in which the frame is stored, with the counter fallen. -/
def frameStored (p : Fin 4) (f : CanFrame) (s : State) : State :=
  storeFrame p (s.clk.opUs - f.sofAgo) (heardFrame p f s) (counterFallen p s)

theorem lbFrame_eq (hhears : lbHears s p = true) (htakes : lbTakes (lbCfg s p) f = true) : lbFrame p f s =
    pacerCommand p (heardFrame p f s) (noteReference p (s.clk.opUs - f.sofAgo) (heardFrame p f s)
      (beaconHeard p (s.clk.opUs - f.sofAgo) (heardFrame p f s) (frameStored p f s))) := if_pos ⟨hhears, htakes⟩

theorem frameStored_changes (p : Fin 4) (f : CanFrame) (s : State) : Changes landParts s (frameStored p f s) :=
  (counterFallen_changes ..).join (storeFrame_changes ..)

/-- What a received frame leaves of its port: the counters of the store, and the time of a reference. -/
theorem lbFrame_port (hhears : lbHears s p = true) (htakes : lbTakes (lbCfg s p) f = true) :
    (∃ cycle master, lbOf (lbFrame p f s) p = { lbOf (frameStored p f s) p with cycle := cycle, masterUs := master }) ∧
    (lxOf (lbFrame p f s) p).inbox = (lxOf (frameStored p f s) p).inbox ∧
    (lxOf (lbFrame p f s) p).rxDropped = (lxOf (frameStored p f s) p).rxDropped := by
  rw [lbFrame_eq hhears htakes]
  obtain ⟨-, klb, _, klx⟩ := pacerCommand_only p (heardFrame p f s) (noteReference p (s.clk.opUs - f.sofAgo) (heardFrame p f s)
    (beaconHeard p (s.clk.opUs - f.sofAgo) (heardFrame p f s) (frameStored p f s)))
  obtain ⟨⟨cycle, master, rlb⟩, rin, rdrop, -⟩ := noteReference_keeps p (s.clk.opUs - f.sofAgo) (heardFrame p f s)
    (beaconHeard p (s.clk.opUs - f.sofAgo) (heardFrame p f s) (frameStored p f s))
  obtain ⟨hlb, _, hlx⟩ := beaconHeard_keeps p (s.clk.opUs - f.sofAgo) (heardFrame p f s) (frameStored p f s)
  refine ⟨⟨cycle, master, ?_⟩, ?_, ?_⟩
  · exact (klb p).trans (rlb.trans (by rw [hlb]))
  · exact (congrArg LbCtx.inbox klx).trans (rin.trans (by rw [hlx]))
  · exact (congrArg LbCtx.rxDropped klx).trans (rdrop.trans (by rw [hlx]))

theorem lbOf_frameStored (p : Fin 4) (f : CanFrame) (s : State) :
    ∃ rx rxDrop, lbOf (frameStored p f s) p = { lbOf (counterFallen p s) p with rx := rx, rxDrop := rxDrop } := lbOf_storeFrame ..

theorem cfg_frameStored (p : Fin 4) (f : CanFrame) (s : State) : (lbOf (frameStored p f s) p).cfg = (lbOf s p).cfg := by
  obtain ⟨_, _, hstored⟩ := lbOf_frameStored p f s
  obtain ⟨_, _, hfallen, -⟩ := lbOf_counterFallen p s
  rw [hstored, hfallen]

/-- The reference of another node. -/
theorem lbFrame_reference (hhears : lbHears s p = true) (htakes : lbTakes (lbCfg s p) f = true) (h : isReference (lbCfg s p) f) :
    (lbOf (lbFrame p f s) p).masterUs = BitVec.ofNat 64 (leAt f.data 0 8) ∧
    (lbOf (lbFrame p f s) p).cycle = BitVec.ofNat 32 (leAt f.data 8 4) ∧
    (lxOf (lbFrame p f s) p).epoch = BitVec.ofNat 16 (leAt f.data 12 2) ∧ (lxOf (lbFrame p f s) p).refAnyUs = some (s.clk.opUs - f.sofAgo) ∧
    (lxOf (lbFrame p f s) p).refRxUs = if f.id.toNat = (lbCfg s p).refId then some (s.clk.opUs - f.sofAgo) else (lxOf s p).refRxUs := by
  have hcfg : lbCfg (beaconHeard p (s.clk.opUs - f.sofAgo) (heardFrame p f s) (frameStored p f s)) p = lbCfg s p := by
    rw [lbCfg, (beaconHeard_keeps ..).1, cfg_frameStored, lbCfg]
  obtain ⟨-, klb, _, klx⟩ := pacerCommand_only p (heardFrame p f s) (noteReference p (s.clk.opUs - f.sofAgo) (heardFrame p f s)
    (beaconHeard p (s.clk.opUs - f.sofAgo) (heardFrame p f s) (frameStored p f s)))
  obtain ⟨rlb, _, _, _, rlx⟩ := noteReference_shows (ts := s.clk.opUs - f.sofAgo) (f := heardFrame p f s)
    (s := beaconHeard p (s.clk.opUs - f.sofAgo) (heardFrame p f s) (frameStored p f s)) (by rw [hcfg]; exact h)
  obtain ⟨-, _, hlx⟩ := beaconHeard_keeps p (s.clk.opUs - f.sofAgo) (heardFrame p f s) (frameStored p f s)
  obtain ⟨_, _, _, hctx⟩ := storeFrame_ctx p (s.clk.opUs - f.sofAgo) (heardFrame p f s) (counterFallen p s)
  have href : (lxOf (beaconHeard p (s.clk.opUs - f.sofAgo) (heardFrame p f s) (frameStored p f s)) p).refRxUs = (lxOf s p).refRxUs := by
    rw [hlx, frameStored, hctx, lxOf_counterFallen]
  rw [lbFrame_eq hhears htakes, klb p, rlb, klx, rlx]
  refine ⟨rfl, rfl, rfl, rfl, ?_⟩
  rw [href, hcfg]
  rfl

/-- Any other frame. -/
theorem lbFrame_plain (hhears : lbHears s p = true) (htakes : lbTakes (lbCfg s p) f = true) (h : ¬ isReference (lbCfg s p) f) :
    (lbOf (lbFrame p f s) p).masterUs = (lbOf s p).masterUs ∧ (lbOf (lbFrame p f s) p).cycle = (lbOf s p).cycle ∧
    (lxOf (lbFrame p f s) p).refAnyUs = (lxOf s p).refAnyUs := by
  have hcfg : lbCfg (beaconHeard p (s.clk.opUs - f.sofAgo) (heardFrame p f s) (frameStored p f s)) p = lbCfg s p := by
    rw [lbCfg, (beaconHeard_keeps ..).1, cfg_frameStored, lbCfg]
  obtain ⟨-, klb, _, klx⟩ := pacerCommand_only p (heardFrame p f s)
    (beaconHeard p (s.clk.opUs - f.sofAgo) (heardFrame p f s) (frameStored p f s))
  obtain ⟨hlb, _, hlx⟩ := beaconHeard_keeps p (s.clk.opUs - f.sofAgo) (heardFrame p f s) (frameStored p f s)
  obtain ⟨_, _, hstored⟩ := lbOf_frameStored p f s
  obtain ⟨_, _, hfallen, -⟩ := lbOf_counterFallen p s
  obtain ⟨_, _, _, hctx⟩ := storeFrame_ctx p (s.clk.opUs - f.sofAgo) (heardFrame p f s) (counterFallen p s)
  have hport := (klb p).trans ((hlb p).trans (hstored.trans (by rw [hfallen])))
  have hlater := congrArg LbCtx.refAnyUs (klx.trans (by rw [hlx, frameStored, hctx, lxOf_counterFallen]))
  rw [lbFrame_eq hhears htakes, noteReference_other (by rw [hcfg]; exact h), hport]
  exact ⟨rfl, rfl, hlater⟩

/-- The node that a Beacon frame names. -/
theorem lbFrame_node {n : Nat} (hhears : lbHears s p = true) (htakes : lbTakes (lbCfg s p) f = true) (hbeacon : isBeacon s p = true)
    (hnode : beaconNode f = some n) :
    (∀ k, k ≠ n → nodeOf (lbFrame p f s) p k = nodeOf s p k) ∧
    (outsideSlot s p (s.clk.opUs - f.sofAgo) f = false →
      nodeOf (lbFrame p f s) p n = { nodeOf s p n with lastUs := s.clk.opUs, heard := true }) ∧
    (outsideSlot s p (s.clk.opUs - f.sofAgo) f = true → (nodeOf (lbFrame p f s) p n).resync = true ∧ (nodeOf (lbFrame p f s) p n).heard = true ∧
      ∃ off, Safety.journals 0x723 1 (item p ++ item n ++ item off) s (lbFrame p f s)) := by
  have hstored := frameStored_changes p f s
  have hb : isBeacon (frameStored p f s) p = true := (isBeacon_congr (hstored.get .pdOn) (cfg_frameStored ..)).trans hbeacon
  obtain ⟨hothers, hin, hlate⟩ := beaconHeard_node (ts := s.clk.opUs - f.sofAgo) (f := heardFrame p f s) hb hnode
  obtain ⟨kch, -, _, klx⟩ := pacerCommand_only p (heardFrame p f s) (noteReference p (s.clk.opUs - f.sofAgo) (heardFrame p f s)
    (beaconHeard p (s.clk.opUs - f.sofAgo) (heardFrame p f s) (frameStored p f s)))
  obtain ⟨-, -, -, rnodes⟩ := noteReference_keeps p (s.clk.opUs - f.sofAgo) (heardFrame p f s)
    (beaconHeard p (s.clk.opUs - f.sofAgo) (heardFrame p f s) (frameStored p f s))
  have hafter : Changes landParts (beaconHeard p (s.clk.opUs - f.sofAgo) (heardFrame p f s) (frameStored p f s)) (lbFrame p f s) := by
    rw [lbFrame_eq hhears htakes]
    exact (noteReference_changes ..).mono.trans kch
  have hnodes (k : Nat) : nodeOf (lbFrame p f s) p k =
      nodeOf (beaconHeard p (s.clk.opUs - f.sofAgo) (heardFrame p f s) (frameStored p f s)) p k := by
    rw [lbFrame_eq hhears htakes, nodeOf, nodeOf]
    exact congrArg (fun l => sget {} l k) ((congrArg LbCtx.nodes klx).trans rnodes)
  obtain ⟨_, _, _, hctx⟩ := storeFrame_ctx p (s.clk.opUs - f.sofAgo) (heardFrame p f s) (counterFallen p s)
  have hbefore (k : Nat) : nodeOf (frameStored p f s) p k = nodeOf s p k := by
    rw [nodeOf, frameStored, hctx, lxOf_counterFallen, nodeOf]
  refine ⟨fun k hk => ?_, fun hslot => ?_, fun hslot => ?_⟩
  · rw [hnodes, hothers k hk, hbefore]
  · rw [hnodes, hin hslot, hbefore, hstored.get .opUs]
  · obtain ⟨hresync, hheard, hrecord⟩ := hlate hslot
    obtain ⟨off, hoff⟩ := hrecord s hstored
    rw [hnodes]
    exact ⟨hresync, hheard, off, journals_land hoff hafter⟩

end
end Sys2Proof.Machine
end

section
/-! PROOF. What a landing-bus port does (R56, R79, R279 to R291, R310). -/

namespace Sys2Proof.Machine

open Safety (Booked)

section
set_option Elab.async false

variable {s t u v : State} {p : Fin 4} {f : CanFrame}

/-! ### The ring of a received frame -/

/-- The receive ring stands while the counter falls, but for the rings of records and events. -/
theorem ringGet_counterFallen {n : Nat} (h : (lbOf s p).state = .listen ∨ n ∉ [2, 3, 23]) : ringGet (counterFallen p s) n = ringGet s n := by
  rcases h with h | h
  · rw [counterFallen, if_neg (by rw [h]; simp)]
  · exact (counterFallen_land p s).ring (by simpa [and_comm, and_left_comm, and_assoc] using h)

theorem lbCfg_counterFallen (p : Fin 4) (s : State) : lbCfg (counterFallen p s) p = lbCfg s p := by
  obtain ⟨_, _, hlb, -⟩ := lbOf_counterFallen p s
  rw [lbCfg, hlb]
  rfl

/-- What a received frame counts and keeps. -/
theorem lbFrame_stored (hhears : lbHears s p = true) (htakes : lbTakes (lbCfg s p) f = true)
    (hring : (lbOf s p).state = .listen ∨ (lbCfg s p).rxRing ∉ [2, 3, 23]) :
    (ringFull (ringGet s (lbCfg s p).rxRing) = false → (lbOf (lbFrame p f s) p).rx = (lbOf s p).rx + 1 ∧
      (lxOf (lbFrame p f s) p).inbox = (lxOf s p).inbox ++ [(s.clk.opUs - f.sofAgo, heardFrame p f s)]) ∧
    (ringFull (ringGet s (lbCfg s p).rxRing) = true → (lbOf (lbFrame p f s) p).rxDrop = satInc (lbOf s p).rxDrop ∧
      (lxOf (lbFrame p f s) p).rxDropped = true ∧ (lxOf (lbFrame p f s) p).inbox = (lxOf s p).inbox) := by
  obtain ⟨⟨_, _, hport⟩, hin, hdropped⟩ := lbFrame_port hhears htakes
  obtain ⟨_, _, hfallen, -⟩ := lbOf_counterFallen p s
  have hrx : ringGet (counterFallen p s) (lbCfg (counterFallen p s) p).rxRing = ringGet s (lbCfg s p).rxRing := by
    rw [lbCfg_counterFallen]
    exact ringGet_counterFallen hring
  rw [hport, hin, hdropped, frameStored]
  refine ⟨fun hroom => ?_, fun hfull => ?_⟩
  · obtain ⟨hlb, hlx⟩ := storeFrame_room (ts := s.clk.opUs - f.sofAgo) (f := heardFrame p f s) (hrx ▸ hroom) p
    rw [hlb, hlx, if_pos rfl, if_pos rfl, lxOf_counterFallen, hfallen]
    exact ⟨rfl, rfl⟩
  · obtain ⟨hlb, hlx⟩ := storeFrame_full (ts := s.clk.opUs - f.sofAgo) (f := heardFrame p f s) (hrx ▸ hfull) p
    rw [hlb, hlx, if_pos rfl, if_pos rfl, lxOf_counterFallen, hfallen]
    exact ⟨rfl, rfl, rfl⟩

/-- The controller's own counters after a received frame. -/
theorem lbFrame_counters (hhears : lbHears s p = true) (htakes : lbTakes (lbCfg s p) f = true) :
    (lbOf (lbFrame p f s) p).state = (lbOf s p).state ∧ (lbOf (lbFrame p f s) p).tec = (lbOf s p).tec ∧
    ((lbOf s p).state = .listen ∨ (lbOf s p).recCnt = 0 →
      (lbOf (lbFrame p f s) p).recCnt = (lbOf s p).recCnt ∧ (lbOf (lbFrame p f s) p).passive = (lbOf s p).passive) ∧
    ((lbOf s p).state = .normal → (lbOf s p).recCnt ≠ 0 →
      ((lbOf s p).recCnt ≤ 127 → (lbOf (lbFrame p f s) p).recCnt = (lbOf s p).recCnt - 1) ∧
      (127 < (lbOf s p).recCnt → 119 ≤ (lbOf (lbFrame p f s) p).recCnt ∧ (lbOf (lbFrame p f s) p).recCnt ≤ 127) ∧
      (lbOf (lbFrame p f s) p).passive = (decide (127 < (lbOf s p).tec) || decide (127 < (lbOf (lbFrame p f s) p).recCnt))) := by
  obtain ⟨⟨_, _, hport⟩, -, -⟩ := lbFrame_port hhears htakes
  obtain ⟨_, _, hstored⟩ := lbOf_frameStored p f s
  obtain ⟨rec, passive, hfallen, hstands, hfalls⟩ := lbOf_counterFallen p s
  rw [hport, hstored, hfallen]
  refine ⟨rfl, rfl, fun h => hstands (h.imp_left fun hl => by rw [hl]; decide), hfalls⟩

/-! ### A frame of a plain bus in listen-only mode -/

/-- On a bus that is no Beacon bus, and is listening, a frame that is no reference is stored and nothing else. -/
theorem lbFrame_listening (hthere : lbThere s p = true) (hlisten : (lbOf s p).state = .listen) (htakes : lbTakes (lbCfg s p) f = true)
    (hbeacon : (lbCfg s p).beacon = false) (hid : f.id.toNat ≠ (lbCfg s p).refId ∧ f.id.toNat ≠ (lbCfg s p).refId + 1 ∨ f.ide = true) :
    lbFrame p f s = storeFrame p (s.clk.opUs - f.sofAgo) { f with own := false, outOfSlot := false } s := by
  have hno : isBeacon s p = false := by rw [isBeacon, hbeacon, Bool.and_false]
  have hslot : outsideSlot s p (s.clk.opUs - f.sofAgo) f = false := by
    unfold outsideSlot
    split
    · rfl
    · simp [hno]
  have hframe : heardFrame p f s = { f with own := false, outOfSlot := false } := by rw [heardFrame, hslot]
  have hstands : counterFallen p s = s := if_neg (by rw [hlisten]; simp)
  have hstored : frameStored p f s = storeFrame p (s.clk.opUs - f.sofAgo) { f with own := false, outOfSlot := false } s := by
    rw [frameStored, hstands, hframe]
  have hnoStored : isBeacon (frameStored p f s) p = false :=
    (isBeacon_congr ((frameStored_changes p f s).get .pdOn) (cfg_frameStored ..)).trans hno
  have hheard : beaconHeard p (s.clk.opUs - f.sofAgo) (heardFrame p f s) (frameStored p f s) = frameStored p f s :=
    if_pos (by rw [hnoStored]; rfl)
  have hcfg : lbCfg (frameStored p f s) p = lbCfg s p := by rw [lbCfg, cfg_frameStored, lbCfg]
  have href : noteReference p (s.clk.opUs - f.sofAgo) (heardFrame p f s) (frameStored p f s) = frameStored p f s := by
    refine noteReference_other ?_
    rw [hcfg]
    rintro ⟨hide, heq, -⟩
    have hide' : f.ide = false := hide
    have heq' : f.id.toNat = (lbCfg s p).refId ∨ f.id.toNat = (lbCfg s p).refId + 1 := heq
    rw [hide'] at hid
    simp only [Bool.false_eq_true, or_false] at hid
    exact heq'.elim hid.1 hid.2
  rw [lbFrame_eq ((lbHears_iff s p).2 ⟨hthere, .inl hlisten⟩) htakes, hheard, href, ← hstored]
  exact if_pos (.inl (by rw [hnoStored]; rfl))

theorem rxBuffer_bounds (p : Fin 4) (x : Nat) : 0xA00000 ≤ rxBuffer p x ∧ rxBuffer p x + 80 ≤ 0xB00000 := by
  have hp := p.isLt
  have hmod : x % 1024 < 1024 := Nat.mod_lt _ (by decide)
  rw [rxBuffer]
  constructor <;> omega

theorem frameBytes_length (ts : Nat) (f : CanFrame) : (frameBytes ts f).length = 80 := by
  rw [frameBytes]
  simp

/-- What is written to data memory stands there. -/
theorem dataRead_dataWrite {a k : Nat} {bs : Bytes} (hwf : Safety.storesWf s) (hlen : bs.length = k) (hfits : a + k ≤ 0x1000000) :
    dataRead a k (dataWrite a bs s) = bs := by
  have hdata : swf 0 dataSize s.data = true := by
    simp only [Safety.storesWf, Memory.wf, Bool.and_eq_true] at hwf
    exact hwf.1.1
  have hwritten := memRead_memWrite 0 dataSize s.data a bs hdata (by rw [hlen]; exact hfits)
  rwa [hlen] at hwritten

/-- A stored frame stands in its buffer, and its descriptor in the ring. -/
theorem storeFrame_slot {ts : Nat} (hroom : ringFull (ringGet s (lbCfg s p).rxRing) = false) (h2 : (lbCfg s p).rxRing ≠ 2)
    (h3 : (lbCfg s p).rxRing ≠ 3) (hpolicy : (ringGet s (lbCfg s p).rxRing).policy = 1 → (ringGet s (lbCfg s p).rxRing).waiting = []) :
    (ringGet (storeFrame p ts f s) (lbCfg s p).rxRing).pi = (ringGet s (lbCfg s p).rxRing).pi + 1 ∧
    (Safety.storesWf s → (∀ n ∈ [(lbCfg s p).rxRing, 2, 3], (ringGet s n).base + ringDepth (ringGet s n) ≤ 262144) →
      dataRead (rxBuffer p (ringGet s (lbCfg s p).rxRing).pi.toNat) 80 (storeFrame p ts f s) = frameBytes ts f) := by
  have hdepth : ringDepth (ringGet s (lbCfg s p).rxRing) ≠ 0 := fun h => by
    rw [ringFull, h, decide_eq_true (Nat.zero_le _)] at hroom
    cases hroom
  obtain ⟨hlow, hhigh⟩ := rxBuffer_bounds p (ringGet s (lbCfg s p).rxRing).pi.toNat
  let w := dataWrite (rxBuffer p (ringGet s (lbCfg s p).rxRing).pi.toNat) (frameBytes ts f) s
  have hpush : LandBooked [2, 3] (push (lbCfg s p).rxRing (rxDesc p ts f s) w) (storeFrame p ts f s) := by
    rw [storeFrame_of_room hroom]
    exact ((LandBooked.refl _ _).setsLb p _).setsLx p _
  have hall : LandBooked [(lbCfg s p).rxRing, 2, 3] w (storeFrame p ts f s) :=
    (LandBooked.of_booked (Safety.push_booked ..)).trans (hpush.mono (by simp))
  have hwaits : (ringGet w (lbCfg s p).rxRing).policy ≠ 1 ∨ (ringGet w (lbCfg s p).rxRing).waiting = [] :=
    (em _).elim (fun h => .inr (hpolicy h)) .inl
  obtain ⟨hpi, -⟩ := push_place (u := w) ⟨h2, h3⟩ (rxDesc p ts f s) hdepth hroom hwaits hpush
  refine ⟨hpi, fun hwf hfits => ?_⟩
  have hread : dataRead (rxBuffer p (ringGet s (lbCfg s p).rxRing).pi.toNat) 80 w = frameBytes ts f :=
    dataRead_dataWrite hwf (frameBytes_length ts f) (by omega)
  rw [← hread]
  refine dataRead_of_booked hall fun b hb hlt hin => ?_
  obtain ⟨n, hn, -, hhi⟩ := hin
  have hn' : (ringGet s n).base + ringDepth (ringGet s n) ≤ 262144 := hfits n hn
  have hhi' : b < 0x400000 + 16 * ((ringGet s n).base + ringDepth (ringGet s n)) := hhi
  omega

/-- A first record under the repetition rule, with its count. -/
theorem trRepCount_fresh {code sev key : Nat} {items : Nat → Bytes} (hfresh : repeatFind s code key = none)
    (hroom : ringFull (ringGet s 3) = false) :
    ∃ r ∈ (trRepCount code sev key items s).log.trQueue.drop s.log.trQueue.length,
      r.code = BitVec.ofNat 16 code ∧ r.severity = BitVec.ofNat 8 sev ∧ r.items = items 1 := by
  have hgate : repeatGate code key s = (Safety.repeatNoted code key s, some 0) := by rw [repeatGate, hfresh]; rfl
  have heq : trRepCount code sev key items s =
      perform 8 (.tr (recordOf code sev (items 1) 0 (Safety.repeatNoted code key s))) (Safety.repeatNoted code key s) := by
    rw [trRepCount, hgate]
  have hqueued := perform_tr_queued (s := Safety.repeatNoted code key s) 7 (recordOf code sev (items 1) 0 (Safety.repeatNoted code key s)) hroom
  refine ⟨recordOf code sev (items 1) 0 (Safety.repeatNoted code key s), ?_, rfl, rfl, rfl⟩
  obtain ⟨after, hafter⟩ := hqueued
  have hlog : (Safety.repeatNoted code key s).log.trQueue = s.log.trQueue := rfl
  rw [heq, ← hafter, hlog]
  simp

/-- A frame dropped for want of room is recorded, where the trace ring has room. -/
theorem storeFrame_dropped {ts : Nat} (hfull : ringFull (ringGet s (lbCfg s p).rxRing) = true) (h3 : (lbCfg s p).rxRing ≠ 3)
    (hroom : ringFill (ringGet s 3) + 8 ≤ ringDepth (ringGet s 3)) (hfresh : ∀ x ∈ s.log.repeats, x.code ≠ 0x705 ∨ x.key ≠ p.val) :
    ∃ r ∈ (storeFrame p ts f s).log.trQueue.drop s.log.trQueue.length, r.code = 0x705 ∧ r.severity = 1 ∧ r.items = item p ++ item 1 := by
  have hfind : repeatFind s 0x705 p = none := by
    rw [repeatFind, List.find?_eq_none]
    intro x hx
    rcases hfresh x hx with h | h
    · have : x.code.toNat ≠ 0x705 := fun hn => h (BitVec.eq_of_toNat_eq hn)
      simp [this]
    · simp [h]
  have hlater : repeatFind (push (lbCfg s p).rxRing (rxDesc p ts f s) s) 0x705 p = none := repeatFind_perform (by decide) (by decide) 8 _ hfind
  have hgrows := traceGrows_push h3 (rxDesc p ts f s) (s := s) (by rw [traceFill, traceDepth]; omega)
  have hroom' : ringFull (ringGet (push (lbCfg s p).rxRing (rxDesc p ts f s) s) 3) = false := by
    obtain ⟨hdepth, hfill⟩ := hgrows
    rw [traceFill, traceFill] at hfill
    rw [traceDepth, traceDepth] at hdepth
    rw [ringFull, decide_eq_false]
    omega
  have hkept : s.log.trQueue <+: (push (lbCfg s p).rxRing (rxDesc p ts f s) s).log.trQueue := (push_changes ..).get .trGrows
  rw [storeFrame_of_full hfull]
  obtain ⟨r, hr, hcode, hsev, hitems⟩ := trRepCount_fresh (code := 0x705) (sev := 1) (key := p) (items := fun k => item p ++ item k)
    (s := modLx p (fun x => { x with rxDropped := true })
      (modLb p (fun b => { b with rxDrop := satInc b.rxDrop }) (push (lbCfg s p).rxRing (rxDesc p ts f s) s))) hlater hroom'
  refine ⟨r, ?_, hcode, hsev, hitems⟩
  obtain ⟨more, hmore⟩ := hkept
  have hsub : (List.drop (push (lbCfg s p).rxRing (rxDesc p ts f s) s).log.trQueue.length (trRepCount 0x705 1 p (fun k => item p ++ item k)
      (modLx p (fun x => { x with rxDropped := true })
        (modLb p (fun b => { b with rxDrop := satInc b.rxDrop }) (push (lbCfg s p).rxRing (rxDesc p ts f s) s)))).log.trQueue).Sublist
      (List.drop s.log.trQueue.length (trRepCount 0x705 1 p (fun k => item p ++ item k)
        (modLx p (fun x => { x with rxDropped := true })
          (modLb p (fun b => { b with rxDrop := satInc b.rxDrop }) (push (lbCfg s p).rxRing (rxDesc p ts f s) s)))).log.trQueue) := by
    rw [← hmore, List.length_append]
    exact List.drop_sublist_drop_left _ (Nat.le_add_right ..)
  exact hsub.subset hr

end
end Sys2Proof.Machine
end

section
/-! PROOF. POLARITY, errors, recovery and transmission of a landing-bus port (R56, R287 to R291). -/

namespace Sys2Proof.Machine

open Safety (Booked)

section
set_option Elab.async false

variable {s t u v : State} {p : Fin 4}

/-! ### Writes of a port -/

theorem setLb_setLb (p : Nat) (a b : Lb) (s : State) : setLb p a (setLb p b s) = setLb p a s := by
  unfold setLb
  split_ifs <;> rfl

theorem setLb_lb_congr {p : Nat} {b : Lb} (h : t.lb = s.lb) : (setLb p b t).lb = (setLb p b s).lb := by
  unfold setLb
  split_ifs <;> simp [h]

/-! ### The time master's end (R291) -/

theorem tmHalt_of_sent {tm : BitVec 3} (h : (lbOf s p).tm = 1 ∨ (lbOf s p).tm = 2) : tmHalt p tm s = tmStop p tm s := if_pos h
theorem tmHalt_of_quiet {tm : BitVec 3} (h : ¬ ((lbOf s p).tm = 1 ∨ (lbOf s p).tm = 2)) : tmHalt p tm s = s := if_neg h

theorem tmStop_land (p : Nat) (tm : BitVec 3) (s : State) : LandBooked [2, 3] s (tmStop p tm s) := by
  have hset : LandBooked [2, 3] s (modLb p (fun b => { b with tm := tm }) s) := (LandBooked.refl _ s).setsLb p _
  unfold tmStop
  dsimp only
  split
  · exact (hset.trans (drawn_land _)).trans (sj_land ..)
  · exact hset

theorem tmHalt_land (p : Nat) (tm : BitVec 3) (s : State) : LandBooked [2, 3] s (tmHalt p tm s) := by
  unfold tmHalt
  split
  · exact tmStop_land ..
  · exact .refl _ s

theorem tmStop_lb (p : Nat) (tm : BitVec 3) (s : State) : (tmStop p tm s).lb = (modLb p (fun b => { b with tm := tm }) s).lb := by
  unfold tmStop
  dsimp only
  split
  · exact (sj_changes ..).get .lb
  · rfl

/-- What stays of TM as the controller can send no more. -/
def haltedTm (b : Lb) : BitVec 3 := if b.tm = 1 ∨ b.tm = 2 then 0 else b.tm

theorem tmHalt_lb (p : Fin 4) (s : State) : (tmHalt p 0 s).lb = (setLb p { lbOf s p with tm := haltedTm (lbOf s p) } s).lb := by
  by_cases h : (lbOf s p).tm = 1 ∨ (lbOf s p).tm = 2
  · rw [tmHalt_of_sent h, tmStop_lb, haltedTm, if_pos h]
    rfl
  · rw [tmHalt_of_quiet h, haltedTm, if_neg h]
    exact (congrArg State.lb (setLb_self p s)).symm

theorem lbOf_tmHalt (p : Fin 4) (s : State) : lbOf (tmHalt p 0 s) p = { lbOf s p with tm := haltedTm (lbOf s p) } := by
  rw [lbOf_congr (tmHalt_lb p s), lbOf_setLb, if_pos rfl]

theorem lxOf_tmHalt (p : Fin 4) (q : Nat) (s : State) : lxOf (tmHalt p 0 s) q = lxOf s q := by
  rw [lxOf_congr (tmHalt_lb p s), lxOf_setLb]

theorem tmHalt_changes (p : Nat) (tm : BitVec 3) (s : State) : Changes landParts s (tmHalt p tm s) := .ite (tmStop_changes ..).mono (.refl _ s)

/-! ### POLARITY (R56, R287, R291) -/

theorem polarity_idle {on : Bool} (h : ¬ (lbThere s p = true ∧ (lbOf s p).polarity ≠ on)) : polarity p on s = s := if_neg h

/-- The change of POLARITY with its record. -/
def polarityNoted (p : Fin 4) (on : Bool) (s : State) : State :=
  sj 0x704 (if on then 2 else 0) (item p ++ item (b2n !on)) (lbChange p (fun x => { x with polarity := on }) s)

theorem polarity_eq {on : Bool} (hthere : lbThere s p = true) (hpol : (lbOf s p).polarity = !on) :
    polarity p on s = if on then tmHalt p 0 (polarityNoted p on s) else sendWaiting p (polarityNoted p on s) :=
  if_pos ⟨hthere, by rw [hpol]; cases on <;> decide⟩

theorem polarityNoted_changes (p : Fin 4) (on : Bool) (s : State) : Changes landParts s (polarityNoted p on s) :=
  (lbChange_changes ..).trans (sj_changes ..)

/-- POLARITY noted: the bit, the event and SJ 0x0704. -/
theorem polarityNoted_shows (p : Fin 4) (on : Bool) (s : State) : LandBooked [23, 2, 3] s (polarityNoted p on s) ∧
    (polarityNoted p on s).lb = (setLb p { lbOf s p with polarity := on } s).lb ∧
    ∀ t, Changes landParts (polarityNoted p on s) t → Safety.journals 0x704 (if on then 2 else 0) (item p ++ item (b2n !on)) s t := by
  refine ⟨(lbChange_land ..).trans ((sj_land ..).mono (by simp)), ?_, fun t ht => ?_⟩
  · exact ((sj_changes ..).get .lb).trans (lbChange_lb ..)
  · exact journals_of_land (lbChange_changes ..) ht

theorem polarityNoted_event {on : Bool} (hpol : (lbOf s p).polarity = !on) (ht : LandBooked [2, 3] (polarityNoted p on s) t)
    (hlb : lbOf t p = { lbOf s p with polarity := on, tm := (lbOf t p).tm }) : PortEvent p s t := by
  refine lbChange_event (f := fun x => { x with polarity := on }) (.inr (.inr ?_)) ((sj_land ..).trans ht) ?_ ?_ ?_
  · change (lbOf s p).polarity ≠ on
    rw [hpol]
    cases on <;> decide
  · rw [hlb]
  · rw [hlb]
  · rw [hlb]

/-- POLARITY set: what the time master sent stops. -/
theorem polaritySet_shows (hthere : lbThere s p = true) (hpol : (lbOf s p).polarity = false) :
    Booked [2, 3, 23] (setLb p { lbOf s p with polarity := true, tm := haltedTm (lbOf s p) } s) (polarity p true s) ∧
    Safety.journals 0x704 2 (item p ++ item 0) s (polarity p true s) ∧ PortEvent p s (polarity p true s) ∧
    ((lbOf s p).tm = 1 ∨ (lbOf s p).tm = 2 → ∃ cause, Safety.journals 0x711 0 (item p ++ item cause) s (polarity p true s)) := by
  obtain ⟨hland, hlb, hjournals⟩ := polarityNoted_shows p true s
  have heq : polarity p true s = tmHalt p 0 (polarityNoted p true s) := polarity_eq hthere hpol
  have hport : lbOf (polarityNoted p true s) p = { lbOf s p with polarity := true } := by rw [lbOf_congr hlb, lbOf_setLb, if_pos rfl]
  have hhalted : haltedTm { lbOf s p with polarity := true } = haltedTm (lbOf s p) := rfl
  have hfinal : (tmHalt p 0 (polarityNoted p true s)).lb = (setLb p { lbOf s p with polarity := true, tm := haltedTm (lbOf s p) } s).lb := by
    rw [tmHalt_lb, hport, hhalted, setLb_lb_congr hlb, setLb_setLb]
  rw [heq]
  refine ⟨?_, hjournals _ (tmHalt_changes ..), ?_, fun hsent => ?_⟩
  · refine LandBooked.booked ((hland.mono (by simp)).trans ((tmHalt_land ..).mono (by simp))) (setLb_frame ..).1 hfinal
  · refine polarityNoted_event (on := true) hpol (tmHalt_land ..) ?_
    rw [lbOf_congr hfinal, lbOf_setLb, if_pos rfl]
  · refine tmStop_journals (tm := 0) (polarityNoted_changes p true s) (by rw [hport]; exact hsent) ?_
    rw [tmHalt_of_sent (by rw [hport]; exact hsent)]
    exact .refl _ _

/-- POLARITY cleared with nothing held. -/
theorem polarityCleared_shows (hthere : lbThere s p = true) (hpol : (lbOf s p).polarity = true) (hwait : (lxOf s p).refWait = none) :
    Booked [2, 3, 23] (setLb p { lbOf s p with polarity := false } s) (polarity p false s) ∧
    Safety.journals 0x704 0 (item p ++ item 1) s (polarity p false s) ∧ PortEvent p s (polarity p false s) := by
  obtain ⟨hland, hlb, hjournals⟩ := polarityNoted_shows p false s
  have hlx : lxOf (polarityNoted p false s) p = lxOf s p := by rw [lxOf_congr hlb, lxOf_setLb]
  have heq : polarity p false s = polarityNoted p false s := by
    rw [polarity_eq (on := false) hthere hpol, if_neg Bool.false_ne_true, sendWaiting, hlx, hwait]
  rw [heq]
  refine ⟨(hland.mono (by simp)).booked (setLb_frame ..).1 hlb, hjournals _ (.refl _ _), polarityNoted_event (on := false) hpol (.refl _ _) ?_⟩
  rw [lbOf_congr hlb, lbOf_setLb, if_pos rfl]

/-- POLARITY cleared with a reference held: it goes out, unless the port defers. -/
theorem polarityCleared_waiting {w : CanFrame} (hthere : lbThere s p = true) (hpol : (lbOf s p).polarity = true)
    (hwait : (lxOf s p).refWait = some w) :
    (if (lbCfg s p).tmRole = 1 ∧ s.power.role ≠ .pacer ∧ refWithin s p 3 (lxOf s p).refRxUs = true then
        (polarity p false s).out = s.out ∧ (lbOf (polarity p false s) p).tx = (lbOf s p).tx
      else (polarity p false s).out.can = (p.val, w) :: s.out.can ∧ (lbOf (polarity p false s) p).tx = (lbOf s p).tx + 1) ∧
    (lbOf (polarity p false s) p).polarity = false ∧ (lxOf (polarity p false s) p).refWait = none ∧
    Safety.journals 0x704 0 (item p ++ item 1) s (polarity p false s) := by
  obtain ⟨hland, hlb, hjournals⟩ := polarityNoted_shows p false s
  have hport : lbOf (polarityNoted p false s) p = { lbOf s p with polarity := false } := by rw [lbOf_congr hlb, lbOf_setLb, if_pos rfl]
  have hlx : lxOf (polarityNoted p false s) p = lxOf s p := by rw [lxOf_congr hlb, lxOf_setLb]
  have hrole : (polarityNoted p false s).power = s.power := (polarityNoted_changes p false s).power
  have hcfg : lbCfg (polarityNoted p false s) p = lbCfg s p := by rw [lbCfg, hport]; rfl
  have hdefer : deferring (polarityNoted p false s) p = true ↔
      (lbCfg s p).tmRole = 1 ∧ s.power.role ≠ .pacer ∧ refWithin s p 3 (lxOf s p).refRxUs = true := by
    have href : refWithin (polarityNoted p false s) p 3 (lxOf s p).refRxUs = refWithin s p 3 (lxOf s p).refRxUs := by
      unfold refWithin
      rw [hcfg, (polarityNoted_changes p false s).get .opUs]
    rw [deferring, hcfg, hlx, href, hrole]
    simp [and_assoc]
  have hout : (polarityNoted p false s).out = s.out := by
    rw [hland.frame]
  have heq : polarity p false s = if deferring (polarityNoted p false s) p = true then modLx p (fun x => { x with refWait := none }) (polarityNoted p false s)
      else txDone p (polarityNoted p false s).clk.opUs w (modLx p (fun x => { x with refWait := none }) (polarityNoted p false s)) := by
    rw [polarity_eq (on := false) hthere hpol, if_neg Bool.false_ne_true, sendWaiting, hlx, hwait]
  rw [heq]
  by_cases hd : deferring (polarityNoted p false s) p = true
  · rw [if_pos (hdefer.1 hd), if_pos hd, lbOf_modLx, lxOf_modLx, if_pos rfl, out_modLx, hport]
    exact ⟨⟨hout, rfl⟩, rfl, rfl, hjournals _ (modLx_changes ..).mono⟩
  · rw [if_neg (fun h => hd (hdefer.2 h)), if_neg hd]
    obtain ⟨hcan, rx, rxDrop, passive, htx⟩ := txDone_shows p (polarityNoted p false s).clk.opUs w
      (modLx p (fun x => { x with refWait := none }) (polarityNoted p false s))
    obtain ⟨_, _, _, hctx⟩ := storeFrame_ctx p (polarityNoted p false s).clk.opUs w
      (modLx p (fun x => { x with refWait := none }) (polarityNoted p false s))
    refine ⟨⟨?_, ?_⟩, ?_, ?_, hjournals _ ((modLx_changes ..).mono.trans (txDone_changes ..))⟩
    · rw [hcan, out_modLx, hout]
    · rw [htx, lbOf_modLx, hport]
    · rw [htx, lbOf_modLx, hport]
    · rw [txDone, lxOf_lbChange, lxOf_canOut, hctx, lxOf_modLx, if_pos rfl]

/-! ### NORMAL mode (R79, R289) -/

/-- One port's step to NORMAL. -/
def normalStep (t : State) (p : Nat) : State :=
  if !lbThere t p then t
  else match (lbOf t p).state with
    | .listen => lbChange p (fun x => { x with state := .normal }) t
    | .pressing => modLb p (fun x => { x with resumeState := .normal }) t
    | _ => t

/-- A port after entry to NORMAL mode. -/
def normalPort (there : Bool) (b : Lb) : Lb :=
  if there && decide (b.state = .listen) then { b with state := .normal }
  else if there && decide (b.state = .pressing) then { b with resumeState := .normal } else b

theorem normalStep_of_listen (hthere : lbThere s p = true) (hl : (lbOf s p).state = .listen) :
    normalStep s p = lbChange p (fun x => { x with state := .normal }) s := by
  rw [normalStep, hthere, hl]
  rfl

theorem normalStep_cases (p : Fin 4) (t : State) :
    (lbThere t p = true ∧ (lbOf t p).state = .listen ∧ normalStep t p = lbChange p (fun x => { x with state := .normal }) t ∧
      normalPort (lbThere t p) (lbOf t p) = { lbOf t p with state := .normal }) ∨
    ((lbThere t p = false ∨ (lbOf t p).state ≠ .listen) ∧ normalStep t p = setLb p (normalPort (lbThere t p) (lbOf t p)) t) := by
  cases hthere : lbThere t p with
  | false =>
    right
    refine ⟨.inl rfl, ?_⟩
    rw [show normalPort false (lbOf t p) = lbOf t p from rfl, setLb_self]
    exact if_pos (by rw [hthere]; rfl)
  | true =>
    cases hstate : (lbOf t p).state with
    | listen => exact .inl ⟨rfl, rfl, normalStep_of_listen hthere hstate, by rw [normalPort, hstate]; rfl⟩
    | pressing =>
      right
      refine ⟨.inr (by simp), ?_⟩
      have hport : normalPort true (lbOf t p) = { lbOf t p with resumeState := .normal } := by
        rw [normalPort, decide_eq_false (by rw [hstate]; decide), decide_eq_true hstate]
        rfl
      have hstep : normalStep t p = modLb p (fun x => { x with resumeState := .normal }) t := by
        rw [normalStep, hthere, hstate]
        rfl
      rw [hport, hstep]
      rfl
    | absent | normal | busOff | recovering =>
      right
      refine ⟨.inr (by simp), ?_⟩
      have hport : normalPort true (lbOf t p) = lbOf t p := by
        rw [normalPort, decide_eq_false (by rw [hstate]; decide), decide_eq_false (by rw [hstate]; decide)]
        rfl
      have hstep : normalStep t p = t := by
        rw [normalStep, hthere, hstate]
        rfl
      rw [hport, setLb_self, hstep]

theorem normalStep_shows (p : Fin 4) (t : State) : Changes landParts t (normalStep t p) ∧
    (∀ q : Fin 4, lbOf (normalStep t p) q = if q = p then normalPort (lbThere t p) (lbOf t p) else lbOf t q) ∧
    (lbThere t p = false ∨ (lbOf t p).state ≠ .listen → normalStep t p = { t with lb := (normalStep t p).lb }) := by
  rcases normalStep_cases p t with ⟨hthere, hl, heq, hport⟩ | ⟨hnot, heq⟩
  · rw [heq, hport]
    refine ⟨lbChange_changes .., fun q => lbOf_lbChange .., fun h => ?_⟩
    rw [hthere] at h
    exact absurd hl (h.resolve_left (by decide))
  · rw [heq]
    exact ⟨(setLb_changes ..).mono, fun q => lbOf_setLb .., fun _ => (setLb_frame ..).1⟩

theorem lbNormal_eq (h : inRunOrHalt s = true) : lbNormal s = (List.range 4).foldl normalStep s := if_pos h

/-- Changes of the landing buses alone, one after the other. -/
theorem lands_trans (h : t = { s with lb := t.lb }) (k : u = { t with lb := u.lb }) : u = { s with lb := u.lb } :=
  k.trans (congrArg (fun x : State => { x with lb := u.lb }) h)

/-- A run of steps to NORMAL over some ports. -/
theorem foldl_normalStep (l : List (Fin 4)) (hl : l.Nodup) (s : State) : Changes landParts s (l.foldl (fun t p => normalStep t p.val) s) ∧
    (∀ q : Fin 4, lbOf (l.foldl (fun t p => normalStep t p.val) s) q = if q ∈ l then normalPort (lbThere s q) (lbOf s q) else lbOf s q) ∧
    ((∀ p ∈ l, lbThere s p = false ∨ (lbOf s p).state ≠ .listen) →
      l.foldl (fun t p => normalStep t p.val) s = { s with lb := (l.foldl (fun t p => normalStep t p.val) s).lb }) := by
  induction l generalizing s with
  | nil => exact ⟨.refl _ s, fun q => by simp, fun _ => rfl⟩
  | cons p ps ih =>
    obtain ⟨hp, hps⟩ := List.nodup_cons.1 hl
    obtain ⟨hch, hport, hland⟩ := normalStep_shows p s
    obtain ⟨ich, iport, iland⟩ := ih hps (normalStep s p)
    have hthere (q : Fin 4) (hq : q ≠ p) : lbThere (normalStep s p) q = lbThere s q :=
      lbThere_congr (hch.get .pdOn) (by rw [hport, if_neg hq])
    refine ⟨hch.join ich, fun q => ?_, fun hquiet => ?_⟩
    · rw [List.foldl_cons, iport]
      by_cases hq : q = p
      · subst hq
        rw [if_neg hp, if_pos List.mem_cons_self, hport, if_pos rfl]
      · rw [hthere q hq, hport, if_neg hq]
        simp [hq]
    · refine lands_trans (hland (hquiet p List.mem_cons_self)) (iland fun q hq => ?_)
      have hne : q ≠ p := fun h => hp (h ▸ hq)
      rw [hthere q hne, hport, if_neg hne]
      exact hquiet q (List.mem_cons_of_mem _ hq)

theorem lbNormal_fold (h : inRunOrHalt s = true) : lbNormal s = ([0, 1, 2, 3] : List (Fin 4)).foldl (fun t p => normalStep t p.val) s := by
  rw [lbNormal_eq h, foldl_range_four]
  rfl

/-- The run to NORMAL, with one port's step in its place. -/
theorem lbNormal_split (h : inRunOrHalt s = true) (q : Fin 4) : ∃ before after : List (Fin 4), before.Nodup ∧ after.Nodup ∧ q ∉ before ∧ q ∉ after ∧
    lbNormal s = after.foldl (fun t p => normalStep t p.val) (normalStep (before.foldl (fun t p => normalStep t p.val) s) q) := by
  rw [lbNormal_fold h]
  fin_cases q
  · exact ⟨[], [1, 2, 3], by decide, by decide, by decide, by decide, rfl⟩
  · exact ⟨[0], [2, 3], by decide, by decide, by decide, by decide, rfl⟩
  · exact ⟨[0, 1], [3], by decide, by decide, by decide, by decide, rfl⟩
  · exact ⟨[0, 1, 2], [], by decide, by decide, by decide, by decide, rfl⟩

theorem lbOf_lbNormal (h : inRunOrHalt s = true) (q : Fin 4) : lbOf (lbNormal s) q = normalPort (lbThere s q) (lbOf s q) := by
  obtain ⟨-, hport, -⟩ := foldl_normalStep [0, 1, 2, 3] (by decide) s
  rw [lbNormal_fold h, hport, if_pos (by fin_cases q <;> decide)]

theorem PortEvent.of_lands (h : PortEvent p u t) (hframe : u = { s with lb := u.lb }) (hstate : (lbOf u p).state = (lbOf s p).state) :
    PortEvent p s t := by
  have hq : u.queues = s.queues := by rw [hframe]
  have hclk : u.clk = s.clk := by rw [hframe]
  have hwf : Safety.storesWf u ↔ Safety.storesWf s := by rw [hframe]; rfl
  have hring (n : Nat) : ringGet u n = ringGet s n := by rw [ringGet, hq, ringGet]
  have hapart : Safety.ringApart 23 u ↔ Safety.ringApart 23 s := by simp only [Safety.ringApart, Safety.inSlots, hring]
  simp only [PortEvent, hring, hclk, hwf, hapart, hstate] at h
  exact h

theorem normalPort_kept (there : Bool) (b : Lb) : (normalPort there b).cfg = b.cfg ∧ (b.state ≠ .listen → (normalPort there b).state ≠ .listen) := by
  unfold normalPort
  split_ifs <;> simp

/-- A listen-only port becomes NORMAL with its record, and with its event where it is the only one. -/
theorem lbNormal_listen (h : inRunOrHalt s = true) {q : Fin 4} (hthere : lbThere s q = true) (hl : (lbOf s q).state = .listen) :
    Safety.journals 0x701 0 (item q ++ item (lbStateCode (lbOf s q).state) ++ item (lbStateCode (lbOf (lbNormal s) q).state) ++
      item (lbOf (lbNormal s) q).tec ++ item (lbOf (lbNormal s) q).recCnt) s (lbNormal s) ∧
    ((∀ r : Fin 4, r ≠ q → lbThere s r = false ∨ (lbOf s r).state ≠ .listen) → PortEvent q s (lbNormal s)) := by
  obtain ⟨before, after, hb, ha, hqb, hqa, heq⟩ := lbNormal_split h q
  obtain ⟨bch, bport, bland⟩ := foldl_normalStep before hb s
  generalize before.foldl (fun t p => normalStep t p.val) s = a at heq bch bport bland
  have hq : lbOf a q = lbOf s q := by rw [bport, if_neg hqb]
  have hstep := normalStep_of_listen (p := q) (s := a) ((lbThere_congr (bch.get .pdOn) (by rw [hq])).trans hthere) (by rw [hq]; exact hl)
  obtain ⟨sch, sport, -⟩ := normalStep_shows q a
  obtain ⟨ach, -, aland⟩ := foldl_normalStep after ha (normalStep a q)
  have hfinal : lbOf (lbNormal s) q = { lbOf s q with state := .normal } := by
    rw [lbOf_lbNormal h, normalPort, hthere, decide_eq_true hl]
    rfl
  have hchanged : (lbOf a q).state ≠ .normal := by rw [hq, hl]; decide
  rw [← heq] at ach aland
  constructor
  · rw [hstep] at ach
    have hj := lbChange_journals (f := fun x => { x with state := .normal }) bch hchanged ach
    rw [hq] at hj
    rw [hfinal]
    exact hj
  · intro hothers
    have hbefore := bland fun r hr => hothers r fun h => hqb (h ▸ hr)
    have hafter : lbNormal s = { normalStep a q with lb := (lbNormal s).lb } := by
      refine aland fun r hr => ?_
      have hne : r ≠ q := fun h => hqa (h ▸ hr)
      rw [lbThere_congr (s := s) ((bch.join sch).get .pdOn) (by rw [sport, if_neg hne, bport]; split; exact (normalPort_kept ..).1; rfl), sport,
        if_neg hne, bport]
      refine (hothers r hne).imp_right fun hnl => ?_
      split
      · exact (normalPort_kept ..).2 hnl
      · exact hnl
    have hland : LandBooked [2, 3] (lbChange q (fun x => { x with state := .normal }) a) (lbNormal s) := by
      rw [← hstep, hafter]
      exact (LandBooked.refl _ _).lands _
    refine PortEvent.of_lands (lbChange_event (f := fun x => { x with state := .normal }) (.inl hchanged) hland ?_ ?_ ?_) hbefore (by rw [hq])
    · rw [hfinal]
    · rw [hfinal, hq]
    · rw [hfinal, hq]

end
end Sys2Proof.Machine
end

section
/-! PROOF. Errors, recovery and transmission of a landing-bus port, and what it does in all (R56, R79, R279 to R291, R310). -/

namespace Sys2Proof.Machine

open Safety (Booked)

section
set_option Elab.async false

variable {s t u v : State} {p : Fin 4}

/-! ### Errors (R289, R290) -/

/-- The port after an error in NORMAL mode, but for what the time master sent. -/
def errorPort (kind : BitVec 4) (tec rcv : Nat) (x : Lb) : Lb :=
  { x with
    tec := min tec 511, recCnt := rcv, lastErr := kind, passive := decide (tec > 127 ∨ rcv > 127)
    state := if tec > 255 then .busOff else x.state, busOffs := if tec > 255 then satInc x.busOffs else x.busOffs }

/-- The state with the error's counters. -/
def errorNoted (p : Fin 4) (kind : BitVec 4) (tec rcv : Nat) (s : State) : State :=
  lbChange p (errorPort kind tec rcv) (modLb p (fun x => { x with errFrames := satInc x.errFrames }) s)

/-- The state of a bus that has gone bus-off. -/
def busOffNoted (p : Fin 4) (kind : BitVec 4) (s : State) : State :=
  tmHalt p 0 (modLx p (fun x => { x with refWait := none }) (sj 0x702 2 (item p ++ item kind.toNat) s))

/-- A sleep request ends with the bus. -/
def busOffAwake (p : Fin 4) (s : State) : State :=
  if (lxOf s p).phase = .voting ∨ (lxOf s p).phase = .settling then sleepEndsFree p 4 s else s

theorem lbError_idle (h : lbHears s p = false) (kind : BitVec 4) (on : Bool) (cnt : ErrCount) : lbError p kind on cnt s = s :=
  if_pos (by rw [h]; rfl)

theorem lbError_listen (hthere : lbThere s p = true) (hl : (lbOf s p).state = .listen) (kind : BitVec 4) (on : Bool) (cnt : ErrCount) :
    lbError p kind on cnt s = modLb p (fun x => { x with errFrames := satInc x.errFrames }) s := by
  have hhears : lbHears s p = true := (lbHears_iff s p).2 ⟨hthere, .inl hl⟩
  unfold lbError
  dsimp only
  rw [if_neg (by rw [hhears]; decide), if_pos hl]

theorem lbError_normal (hthere : lbThere s p = true) (hn : (lbOf s p).state = .normal) (kind : BitVec 4) (on : Bool) (cnt : ErrCount) :
    let tec := if on then (lbOf s p).tec + errDelta true cnt else (lbOf s p).tec
    let rcv := if on then (lbOf s p).recCnt else min 255 ((lbOf s p).recCnt + errDelta false cnt)
    lbError p kind on cnt s =
      if 255 < tec then busOffAwake p (busOffNoted p kind (errorNoted p kind tec rcv s)) else errorNoted p kind tec rcv s := by
  have hhears : lbHears s p = true := (lbHears_iff s p).2 ⟨hthere, .inr hn⟩
  unfold lbError
  dsimp only
  rw [if_neg (by rw [hhears]; decide), if_neg (by rw [hn]; decide)]
  cases on with
  | true =>
    simp only [if_true, decide_eq_true_eq]
    rfl
  | false =>
    simp only [Bool.false_eq_true, if_false, decide_eq_true_eq]
    rfl

section
variable {kind : BitVec 4} {tec rcv : Nat}

theorem lbOf_errorNoted : lbOf (errorNoted p kind tec rcv s) p = errorPort kind tec rcv { lbOf s p with errFrames := satInc (lbOf s p).errFrames } := by
  rw [errorNoted, lbOf_lbChange, if_pos rfl, lbOf_modLb, if_pos rfl]

theorem errorNoted_changes : Changes landParts s (errorNoted p kind tec rcv s) := (modLb_changes ..).mono.trans (lbChange_changes ..)

theorem busOffNoted_changes : Changes landParts s (busOffNoted p kind s) :=
  ((sj_changes ..).mono.trans (modLx_changes ..)).join (tmHalt_changes ..)

theorem busOffNoted_land : LandBooked [2, 3] s (busOffNoted p kind s) := ((sj_land ..).setsLx p _).trans (tmHalt_land ..)

theorem busOffNoted_ports : lbOf (busOffNoted p kind s) p = { lbOf s p with tm := haltedTm (lbOf s p) } ∧
    lxOf (busOffNoted p kind s) p = { lxOf s p with refWait := none } := by
  constructor
  · rw [busOffNoted, lbOf_tmHalt, lbOf_modLx, lbOf_sj]
  · rw [busOffNoted, lxOf_tmHalt, lxOf_modLx, if_pos rfl, lxOf_sj]

theorem busOffAwake_shows : Changes landParts s (busOffAwake p s) ∧ LandBooked [2, 3] s (busOffAwake p s) ∧ lbOf (busOffAwake p s) p = lbOf s p ∧
    ((lxOf s p).refWait = none → (lxOf (busOffAwake p s) p).refWait = none) ∧
    ((lxOf s p).phase = .voting ∨ (lxOf s p).phase = .settling →
      (lxOf (busOffAwake p s) p).phase = .awake ∧ (lxOf (busOffAwake p s) p).last = 4) := by
  by_cases h : (lxOf s p).phase = .voting ∨ (lxOf s p).phase = .settling
  · rw [busOffAwake, if_pos h, sleepEndsFree, sleepEnds]
    refine ⟨((drawn_changes s).mono.trans (modLx_changes ..)).trans (sj_changes ..), ?_, ?_, ?_, fun _ => ?_⟩
    · exact ((drawn_land s).setsLx p _).trans (sj_land ..)
    · rw [lbOf_sj, lbOf_modLx, lbOf_drawn]
    · rw [lxOf_sj, lxOf_modLx, if_pos rfl]
      exact fun _ => rfl
    · rw [lxOf_sj, lxOf_modLx, if_pos rfl]
      exact ⟨rfl, rfl⟩
  · rw [busOffAwake, if_neg h]
    exact ⟨.refl _ s, .refl _ s, rfl, id, fun hp => absurd hp h⟩

/-- The event of an error that changes the port. -/
theorem errorNoted_event (hn : (lbOf s p).state = .normal) (hchange : 255 < tec ∨ decide (tec > 127 ∨ rcv > 127) ≠ (lbOf s p).passive)
    (ht : LandBooked [2, 3] (errorNoted p kind tec rcv s) t)
    (hlb : lbOf t p = { lbOf (errorNoted p kind tec rcv s) p with tm := (lbOf t p).tm }) : PortEvent p s t := by
  have hmid : lbOf (modLb p (fun x => { x with errFrames := satInc x.errFrames }) s) p =
      { lbOf s p with errFrames := satInc (lbOf s p).errFrames } := by rw [lbOf_modLb, if_pos rfl]
  rw [lbOf_errorNoted, ← hmid] at hlb
  refine PortEvent.of_lands (lbChange_event (f := errorPort kind tec rcv) ?_ ht ?_ ?_ ?_) (setLb_frame ..).1 (by rw [hmid])
  · rw [hmid]
    rcases hchange with h | h
    · refine .inl ?_
      change (lbOf s p).state ≠ if tec > 255 then .busOff else (lbOf s p).state
      rw [if_pos h, hn]
      decide
    · exact .inr (.inl h.symm)
  · rw [hlb]
  · rw [hlb]
  · rw [hlb]

theorem errorPort_quiet (h : tec ≤ 255) (b : Lb) : (errorPort kind tec rcv b).state = b.state := if_neg (Nat.not_lt.2 h)

end

/-- What an error on a NORMAL bus does. -/
theorem lbError_shows (hthere : lbThere s p = true) (hn : (lbOf s p).state = .normal) (kind : BitVec 4) (on : Bool) (cnt : ErrCount) :
    let b := lbOf s p
    let tec := if on then b.tec + errDelta true cnt else b.tec
    let rcv := if on then b.recCnt else min 255 (b.recCnt + errDelta false cnt)
    let t := lbError p kind on cnt s
    lbOf t p = { b with
      errFrames := satInc b.errFrames, tec := min tec 511, recCnt := rcv, lastErr := kind
      passive := decide (127 < tec) || decide (127 < rcv), state := if 255 < tec then .busOff else .normal
      busOffs := if 255 < tec then satInc b.busOffs else b.busOffs
      tm := if 255 < tec ∧ (b.tm = 1 ∨ b.tm = 2) then 0 else b.tm } ∧
    (255 < tec → (lxOf t p).refWait = none ∧ Safety.journals 0x702 2 (item p ++ item kind.toNat) s t ∧
      Safety.journals 0x701 0 (item p ++ item (lbStateCode b.state) ++ item (lbStateCode (lbOf t p).state) ++
        item (lbOf t p).tec ++ item (lbOf t p).recCnt) s t) ∧
    (255 < tec ∨ (lbOf t p).passive ≠ b.passive → PortEvent p s t) ∧
    (tec ≤ 255 → (lbOf t p).passive = b.passive → ringGet t 23 = ringGet s 23) ∧
    (255 < tec → (lxOf s p).phase = .voting ∨ (lxOf s p).phase = .settling → (lxOf t p).phase = .awake ∧ (lxOf t p).last = 4) := by
  intro b tec rcv t
  have heq : t = if 255 < tec then busOffAwake p (busOffNoted p kind (errorNoted p kind tec rcv s)) else errorNoted p kind tec rcv s :=
    lbError_normal hthere hn kind on cnt
  have hpassive : decide (tec > 127 ∨ rcv > 127) = (decide (127 < tec) || decide (127 < rcv)) := by simp [gt_iff_lt]
  have hnoted := lbOf_errorNoted (p := p) (s := s) (kind := kind) (tec := tec) (rcv := rcv)
  have hmid : lbOf (modLb p (fun x => { x with errFrames := satInc x.errFrames }) s) p = { b with errFrames := satInc b.errFrames } := by
    rw [lbOf_modLb, if_pos rfl]
  by_cases hoff : 255 < tec
  · rw [if_pos hoff] at heq
    obtain ⟨hch, hland, hlb, hwait, hphase⟩ := busOffAwake_shows (s := busOffNoted p kind (errorNoted p kind tec rcv s)) (p := p)
    obtain ⟨blb, blx⟩ := busOffNoted_ports (s := errorNoted p kind tec rcv s) (p := p) (kind := kind)
    have hctx : lxOf (errorNoted p kind tec rcv s) p = lxOf s p := by rw [errorNoted, lxOf_lbChange, lxOf_modLb]
    rw [← heq] at hch hland hlb hwait hphase
    have hport : lbOf t p = { errorPort kind tec rcv { b with errFrames := satInc b.errFrames } with tm := haltedTm b } := by
      rw [hlb, blb, hnoted]
      rfl
    have hlbs : lbOf t p = { lbOf (errorNoted p kind tec rcv s) p with tm := (lbOf t p).tm } := by rw [hport, hnoted]
    have hto : Changes landParts (errorNoted p kind tec rcv s) t := busOffNoted_changes.join hch
    refine ⟨?_, fun _ => ⟨hwait (by rw [blx]), ?_, ?_⟩, fun _ => ?_, fun hle => absurd hoff (Nat.not_lt.2 hle), fun _ hp => ?_⟩
    · rw [hport, errorPort, hpassive, haltedTm]
      simp only [gt_iff_lt, hoff, if_true, true_and]
    · exact journals_of_land errorNoted_changes (((modLx_changes ..).mono.join (tmHalt_changes ..)).join hch)
    · have hj := lbChange_journals (r := s) (f := errorPort kind tec rcv) (p := p) (modLb_changes ..).mono
        (by rw [hmid]; change b.state ≠ if tec > 255 then .busOff else b.state; rw [if_pos hoff, show b.state = _ from hn]; decide) hto
      rw [hmid] at hj
      rw [hport]
      exact hj
    · exact errorNoted_event hn (.inl hoff) (busOffNoted_land.trans hland) hlbs
    · exact hphase (by rw [blx, hctx]; exact hp)
  · rw [if_neg hoff] at heq
    have hport : lbOf t p = errorPort kind tec rcv { b with errFrames := satInc b.errFrames } := by rw [heq, hnoted]
    refine ⟨?_, fun h => absurd h hoff, fun h => ?_, fun _ hsame => ?_, fun h => absurd h hoff⟩
    · rw [hport, errorPort, hpassive]
      simp only [gt_iff_lt, hoff, if_false, false_and]
      rw [show b.state = .normal from hn]
    · rw [heq]
      refine errorNoted_event hn (.inr ?_) (.refl _ _) rfl
      rw [hport] at h
      exact h.resolve_left hoff
    · rw [hport] at hsame
      have hkeep : errorNoted p kind tec rcv s = setLb p (errorPort kind tec rcv { b with errFrames := satInc b.errFrames })
          (modLb p (fun x => { x with errFrames := satInc x.errFrames }) s) := by
        rw [errorNoted, lbChange_of_same, hmid]
        rw [hmid, errorPort_quiet (Nat.not_lt.1 hoff)]
        exact ⟨rfl, hsame.symm, rfl⟩
      rw [heq, hkeep]
      exact (((LandBooked.refl [] s).setsLb p _).setsLb p _).ring (by simp)

/-! ### Recovery (R290) -/

theorem recoveryDone_idle (h : (lbOf s p).state ≠ .recovering) : recoveryDone p s = s := if_neg fun hboth => h hboth.2

theorem recoveryDone_shows (hthere : lbThere s p = true) (hr : (lbOf s p).state = .recovering) :
    Booked [2, 3, 23] (setLb p { lbOf s p with state := .normal, passive := false, tec := 0, recCnt := 0 } s) (recoveryDone p s) ∧
    Safety.journals 0x703 0 (item p ++ item (lbOf s p).via.toNat) s (recoveryDone p s) ∧
    Safety.journals 0x701 0 (item p ++ item (lbStateCode (lbOf s p).state) ++ item (lbStateCode (lbOf (recoveryDone p s) p).state) ++
      item (lbOf (recoveryDone p s) p).tec ++ item (lbOf (recoveryDone p s) p).recCnt) s (recoveryDone p s) ∧
    PortEvent p s (recoveryDone p s) := by
  have heq : recoveryDone p s = sj 0x703 0 (item p ++ item (lbOf s p).via.toNat)
      (lbChange p (fun x => { x with state := .normal, passive := false, tec := 0, recCnt := 0 }) s) := if_pos ⟨hthere, hr⟩
  have hlb : (recoveryDone p s).lb = (setLb p { lbOf s p with state := .normal, passive := false, tec := 0, recCnt := 0 } s).lb := by
    rw [heq]
    exact ((sj_changes ..).get .lb).trans (lbChange_lb ..)
  have hport : lbOf (recoveryDone p s) p = { lbOf s p with state := .normal, passive := false, tec := 0, recCnt := 0 } := by
    rw [lbOf_congr hlb, lbOf_setLb, if_pos rfl]
  have hchanged : (lbOf s p).state ≠ .normal := by rw [hr]; decide
  have hland : LandBooked [2, 3] (lbChange p (fun x => { x with state := .normal, passive := false, tec := 0, recCnt := 0 }) s) (recoveryDone p s) := by
    rw [heq]
    exact sj_land ..
  have hto : Changes landParts (lbChange p (fun x => { x with state := .normal, passive := false, tec := 0, recCnt := 0 }) s) (recoveryDone p s) := by
    rw [heq]
    exact (sj_changes ..).mono
  refine ⟨?_, ?_, ?_, ?_⟩
  · exact (((lbChange_land ..).mono (by simp)).trans (hland.mono (by simp))).booked (setLb_frame ..).1 hlb
  · refine journals_of_land (lbChange_changes p (fun x => { x with state := .normal, passive := false, tec := 0, recCnt := 0 }) s) ?_
    rw [heq]
    exact .refl _ _
  · rw [hport]
    exact lbChange_journals (f := fun x => { x with state := .normal, passive := false, tec := 0, recCnt := 0 }) (.refl _ s) hchanged hto
  · refine lbChange_event (f := fun x => { x with state := .normal, passive := false, tec := 0, recCnt := 0 }) (.inl hchanged) hland ?_ ?_ ?_
    · rw [hport]
    · rw [hport]
    · rw [hport]

/-! ### Transmission (R287, R288) -/

theorem lbTransmit_empty (h : lbThere s p = false ∨ ringFill (ringGet s (lbCfg s p).txRing) = 0) (done : Option Nat) : lbTransmit p done s = s := by
  unfold lbTransmit
  dsimp only
  exact if_pos (h.imp_left fun h => by rw [h]; rfl)

/-- The ring's next frame. -/
def txFrame (p : Fin 4) (d : Desc) (s : State) : CanFrame := frameOf (dataRead d.buf.toNat 80 s)

section
variable (hthere : lbThere s p = true) (hfill : ringFill (ringGet s (lbCfg s p).txRing) ≠ 0)
include hthere hfill

theorem lbTransmit_discard (hstate : (lbOf s p).state = .listen ∨ (lbOf s p).state = .busOff ∨ (lbOf s p).state = .recovering) (done : Option Nat) :
    lbTransmit p done s = modLb p (fun x => { x with txDiscard := satInc x.txDiscard }) (drop1 (lbCfg s p).txRing s) := by
  unfold lbTransmit
  dsimp only
  rw [if_neg (by rw [hthere]; simp [hfill]), if_pos hstate]

theorem lbTransmit_waits (hstate : (lbOf s p).state = .normal ∧ ((lbOf s p).polarity = true ∨ (lxOf s p).phase = .settling ∨ (lxOf s p).phase = .asleep) ∨
      (lbOf s p).state = .absent ∨ (lbOf s p).state = .pressing) (done : Option Nat) : lbTransmit p done s = s := by
  unfold lbTransmit
  dsimp only
  rw [if_neg (by rw [hthere]; simp [hfill]), if_neg (by rcases hstate with ⟨h, -⟩ | h | h <;> rw [h] <;> decide)]
  refine if_pos ?_
  rcases hstate with ⟨h, hwait⟩ | h | h
  · exact .inr hwait
  · exact .inl (by rw [h]; decide)
  · exact .inl (by rw [h]; decide)

omit hthere in
theorem ringTake_some (hdepth : ringDepth (ringGet s (lbCfg s p).txRing) ≠ 0) :
    ∃ d, (ringTake (lbCfg s p).txRing s).2 = some d := by
  unfold ringTake
  dsimp only
  rw [if_neg (by simp [hdepth, hfill])]
  exact ⟨_, rfl⟩

theorem lbTransmit_takes (hn : (lbOf s p).state = .normal) (hpol : (lbOf s p).polarity = false) (hset : (lxOf s p).phase ≠ .settling)
    (hsleep : (lxOf s p).phase ≠ .asleep) {d : Desc} (hd : (ringTake (lbCfg s p).txRing s).2 = some d) :
    (s.power.role = .pacer ∧ isBeacon s p = true ∧ isCommandFrame (txFrame p d s) = true →
      ∀ done, lbTransmit p done s = (ringTake (lbCfg s p).txRing s).1) ∧
    (¬ (s.power.role = .pacer ∧ isBeacon s p = true ∧ isCommandFrame (txFrame p d s) = true) → lbTransmit p none s = s ∧
      ∀ k, lbTransmit p (some k) s = txDone p (s.clk.opUs - k) (frameSent (lbCfg s p) (lbOf s p).passive (txFrame p d s)) (ringTake (lbCfg s p).txRing s).1) := by
  have htake : ringTake (lbCfg s p).txRing s = ((ringTake (lbCfg s p).txRing s).1, some d) := by rw [← hd]
  generalize (ringTake (lbCfg s p).txRing s).1 = w at htake
  have hopen (done : Option Nat) : lbTransmit p done s =
      if s.power.role = .pacer ∧ isBeacon s p ∧ isCommandFrame (txFrame p d s) then w
      else match done with
        | none => s
        | some k => txDone p (s.clk.opUs - k) (frameSent (lbCfg s p) (lbOf s p).passive (txFrame p d s)) w := by
    unfold lbTransmit
    dsimp only
    rw [if_neg (by rw [hthere]; simp [hfill]), if_neg (by rw [hn]; decide), if_neg (by rw [hn, hpol]; simp [hset, hsleep]), htake]
    rfl
  refine ⟨fun hbarred done => ?_, fun hsent => ⟨?_, fun k => ?_⟩⟩
  · rw [hopen, if_pos hbarred]
  · rw [hopen, if_neg hsent]
  · rw [hopen, if_neg hsent]

end

end
end Sys2Proof.Machine
end

section
/-! PROOF. The obligation on the ports of the landing buses (R56, R79, R279 to R291, R310). -/

namespace Sys2Proof.Machine

section
set_option Elab.async false

/-- A frame that waited in the transmit ring, once it is sent. -/
theorem txDone_counts (p : Fin 4) (ts : Nat) (f : CanFrame) (w : State) (b : Lb) (hb : lbOf w p = b) :
    (lbOf (txDone p ts f w) p).tx = b.tx + 1 ∧ (lbOf (txDone p ts f w) p).tec = b.tec - 1 ∧
    (lbOf (txDone p ts f w) p).passive = (decide (127 < b.tec - 1) || decide (127 < b.recCnt)) ∧ (lbOf (txDone p ts f w) p).state = b.state ∧
    (ringFull (ringGet w (lbCfg w p).rxRing) = false →
      (lxOf (txDone p ts f w) p).inbox = (lxOf w p).inbox ++ [(ts, f)] ∧ (lbOf (txDone p ts f w) p).rx = b.rx + 1) ∧
    (ringFull (ringGet w (lbCfg w p).rxRing) = true →
      (lxOf (txDone p ts f w) p).rxDropped = true ∧ (lbOf (txDone p ts f w) p).rxDrop = satInc b.rxDrop) := by
  obtain ⟨rx, rxDrop, hstored⟩ := lbOf_storeFrame p ts f w
  have hport : lbOf (txDone p ts f w) p = { lbOf (storeFrame p ts f w) p with
      tx := (lbOf (storeFrame p ts f w) p).tx + 1, tec := (lbOf (storeFrame p ts f w) p).tec - 1
      passive := decide ((lbOf (storeFrame p ts f w) p).tec - 1 > 127 ∨ (lbOf (storeFrame p ts f w) p).recCnt > 127) } := by
    rw [txDone, lbOf_lbChange, if_pos rfl, lbOf_canOut]
  have hctx : lxOf (txDone p ts f w) p = lxOf (storeFrame p ts f w) p := by rw [txDone, lxOf_lbChange, lxOf_canOut]
  rw [hport, hctx]
  refine ⟨by rw [hstored, hb], by rw [hstored, hb], ?_, by rw [hstored, hb], fun hroom => ?_, fun hfull => ?_⟩
  · rw [hstored, hb]
    simp [gt_iff_lt]
  · obtain ⟨hlb, hlx⟩ := storeFrame_room (ts := ts) (f := f) hroom p
    rw [hlb, hlx, if_pos rfl, if_pos rfl, hb]
    exact ⟨rfl, rfl⟩
  · obtain ⟨hlb, hlx⟩ := storeFrame_full (ts := ts) (f := f) hfull p
    rw [hlb, hlx, if_pos rfl, if_pos rfl, hb]
    exact ⟨rfl, rfl⟩

theorem ringTake_lands (n : Nat) (s : State) : (ringTake n s).1.lb = s.lb ∧ (ringTake n s).1.out = s.out := by
  unfold ringTake
  dsimp only
  split <;> exact ⟨rfl, rfl⟩

/-- A port without a controller does nothing. -/
theorem port_absent {p : Fin 4} {s : State} (h : lbThere s p = false) (f : CanFrame) (kind : BitVec 4) (cnt : ErrCount) (on : Bool)
    (done : Option Nat) : ∀ i ∈ [Instr.polaritySet p, .polarityCleared p, .lbFrameReceived p f, .lbError p kind on cnt, .fdFrameSeen p,
      .lbRecoveryDone p, .lbTransmit p done, .tmCycleBoundary p done false], exec i s = .next s := by
  have hno : ¬ lbThere s p = true := by rw [h]; exact Bool.false_ne_true
  have hdeaf : lbHears s p = false := by rw [lbHears, h, Bool.false_and]
  intro i hi
  simp only [List.mem_cons, List.not_mem_nil, or_false] at hi
  rcases hi with rfl | rfl | rfl | rfl | rfl | rfl | rfl | rfl
  · exact congrArg Host.Outcome.next (polarity_idle fun hboth => hno hboth.1)
  · exact congrArg Host.Outcome.next (polarity_idle fun hboth => hno hboth.1)
  · exact congrArg Host.Outcome.next (lbFrame_idle fun hboth => by rw [hdeaf] at hboth; exact Bool.false_ne_true hboth.1)
  · exact congrArg Host.Outcome.next (lbError_idle hdeaf kind on cnt)
  · exact congrArg Host.Outcome.next (if_neg (by rw [hdeaf]; exact Bool.false_ne_true))
  · exact congrArg Host.Outcome.next (if_neg fun hboth => hno hboth.1)
  · exact congrArg Host.Outcome.next (lbTransmit_empty (.inl h) done)
  · exact congrArg Host.Outcome.next (tmBoundary_idle (.inl fun hruns => hno hruns.1) done false)

/-- One that does not receive hears nothing. -/
theorem port_deaf {p : Fin 4} {s : State} (h : ¬ ((lbOf s p).state = .listen ∨ (lbOf s p).state = .normal)) (f : CanFrame) (kind : BitVec 4)
    (cnt : ErrCount) (on : Bool) : ∀ i ∈ [Instr.lbFrameReceived p f, .lbError p kind on cnt, .fdFrameSeen p], exec i s = .next s := by
  have hdeaf : lbHears s p = false := by
    rw [← Bool.not_eq_true, lbHears_iff]
    exact fun hboth => h hboth.2
  intro i hi
  simp only [List.mem_cons, List.not_mem_nil, or_false] at hi
  rcases hi with rfl | rfl | rfl
  · exact congrArg Host.Outcome.next (lbFrame_idle fun hboth => by rw [hdeaf] at hboth; exact Bool.false_ne_true hboth.1)
  · exact congrArg Host.Outcome.next (lbError_idle hdeaf kind on cnt)
  · exact congrArg Host.Outcome.next (if_neg (by rw [hdeaf]; exact Bool.false_ne_true))

/-- Settles O51, command by command. -/
theorem landingBusPortsFollowTheirStates : Obligations.LandingBusPortsFollowTheirStates := by
  intro p f kind cnt on done s b c rx hears r7 event changed
  refine ⟨fun h => port_absent h f kind cnt on done, fun h => port_deaf h f kind cnt on, fun hthere => ⟨fun hpol => ?_, fun hpol => ?_,
    fun hpol => ?_, fun hpol hwait => ?_, fun w hpol hwait => ?_⟩, fun hrun => ?_, ⟨fun hthere htakes => ?_, ?_, ?_, ?_⟩, fun hthere hl => ?_,
    fun hthere hn => ?_, fun hthere hh => ?_, fun hthere => ⟨fun hr => ?_, fun hr => ?_⟩, fun hempty => ?_, fun hthere hfill hdepth => ?_⟩
  · exact congrArg Host.Outcome.next (polarity_idle fun hboth => hboth.2 hpol)
  · exact congrArg Host.Outcome.next (polarity_idle fun hboth => hboth.2 hpol)
  · exact ⟨_, rfl, polaritySet_shows hthere hpol⟩
  · exact ⟨_, rfl, polarityCleared_shows hthere hpol hwait⟩
  · exact ⟨_, rfl, polarityCleared_waiting hthere hpol hwait⟩
  · have hrun' : inRunOrHalt s = true := by simpa [inRunOrHalt, or_iff_not_imp_left] using hrun
    exact ⟨_, rfl, lbOf_lbNormal hrun', fun q hthere hl => (lbNormal_listen hrun' hthere hl).1,
      fun hthere hl hothers => (lbNormal_listen hrun' hthere hl).2 hothers⟩
  · exact congrArg Host.Outcome.next (lbFrame_idle fun hboth => Bool.false_ne_true (htakes.symm.trans hboth.2))
  · rintro ⟨hthere, hl, htakes, hbeacon, hid⟩ hroom
    have heq := lbFrame_listening hthere hl htakes hbeacon hid
    refine ⟨_, congrArg Host.Outcome.next heq, ?_, ?_, fun q hq => ?_, fun h2 h3 hpolicy => storeFrame_slot hroom h2 h3 hpolicy⟩
    · rw [(storeFrame_room hroom p).1, if_pos rfl]
    · rw [(storeFrame_room hroom p).2, if_pos rfl]
    · rw [(storeFrame_room hroom q).1, (storeFrame_room hroom q).2, if_neg hq, if_neg hq]
      exact ⟨rfl, rfl⟩
  · rintro ⟨hthere, hl, htakes, hbeacon, hid⟩ hfull
    have heq := lbFrame_listening hthere hl htakes hbeacon hid
    refine ⟨_, congrArg Host.Outcome.next heq, ?_, ?_, ?_, fun _ h3 hroom hfresh => storeFrame_dropped hfull h3 hroom hfresh⟩
    · rw [(storeFrame_full hfull p).1, if_pos rfl]
    · rw [(storeFrame_full hfull p).2, if_pos rfl]
    · rw [(storeFrame_full hfull p).2, if_pos rfl]
  · intro hthere hh htakes late stored
    have hhears : lbHears s p = true := (lbHears_iff s p).2 ⟨hthere, hh⟩
    obtain ⟨hstate, htec, hquiet, hfalls⟩ := lbFrame_counters hhears htakes
    refine ⟨_, rfl, fun hring => lbFrame_stored hhears htakes hring, hstate, htec, hquiet, hfalls,
      fun hide hid hlen => lbFrame_reference hhears htakes ⟨hide, hid, hlen⟩, fun hother => lbFrame_plain hhears htakes ?_,
      fun hbeacon n hnode => lbFrame_node hhears htakes ?_ hnode⟩
    · rintro ⟨hide, hid, -⟩
      rcases hother with h | ⟨hfirst, hsecond⟩
      · exact Bool.false_ne_true (hide.symm.trans h)
      · exact hid.elim hfirst hsecond
    · rw [isBeacon, hthere, Bool.true_and]
      exact hbeacon
  · exact congrArg Host.Outcome.next (lbError_listen hthere hl kind on cnt)
  · exact ⟨_, rfl, lbError_shows hthere hn kind on cnt⟩
  · refine congrArg Host.Outcome.next ?_
    have hhears : lbHears s p = true := (lbHears_iff s p).2 ⟨hthere, hh⟩
    cases hfd : c.fd with
    | true => exact if_neg (by rw [hhears]; decide)
    | false => exact if_pos (by rw [hhears]; rfl)
  · exact congrArg Host.Outcome.next (recoveryDone_idle hr)
  · exact ⟨_, rfl, recoveryDone_shows hthere hr⟩
  · exact congrArg Host.Outcome.next (lbTransmit_empty (.inr hempty) done)
  · refine ⟨fun hstate => ?_, fun hn hpol hset hsleep => ?_, fun hwaits => ?_⟩
    · refine congrArg Host.Outcome.next ((lbTransmit_discard hthere hfill hstate done).trans ?_)
      rw [modLb, drop1, lbOf_congr (ringTake_lands ..).1]
    · obtain ⟨d, hd⟩ := ringTake_some hfill hdepth
      refine ⟨d, hd, ?_⟩
      intro f barred
      obtain ⟨hdrop, hsend⟩ := lbTransmit_takes hthere hfill hn hpol hset hsleep hd
      have hbarred : (s.power.role = .pacer ∧ isBeacon s p = true ∧ isCommandFrame (txFrame p d s) = true) ↔ barred := by
        rw [isBeacon, hthere, Bool.true_and]
        simp only [isCommandFrame, Bool.and_eq_true, Bool.not_eq_true', decide_eq_true_eq, and_assoc]
        rfl
      refine ⟨fun h => congrArg Host.Outcome.next (hdrop (hbarred.2 h) done), fun h => congrArg Host.Outcome.next (hsend fun h' => h (hbarred.1 h')).1,
        fun k h => ⟨_, congrArg Host.Outcome.next ((hsend fun h' => h (hbarred.1 h')).2 k), ?_⟩⟩
      have hw := ringTake_lands c.txRing s
      have hport : lbOf (ringTake c.txRing s).1 p = b := lbOf_congr hw.1 p
      have hcfg : lbCfg (ringTake c.txRing s).1 p = c := congrArg (fun x : Lb => x.cfg.getD {}) hport
      obtain ⟨htx, htec, hpassive, hstate, hroom, hfull⟩ :=
        txDone_counts p (s.clk.opUs - k) (frameSent c b.passive f) (ringTake c.txRing s).1 b hport
      rw [hcfg, lxOf_congr hw.1] at hroom
      rw [hcfg] at hfull
      intro sent
      refine ⟨?_, htx, htec, hpassive, hstate.trans hn, hroom, hfull⟩
      rw [← hw.2]
      exact (txDone_shows ..).1
    · exact congrArg Host.Outcome.next (lbTransmit_waits hthere hfill hwaits done)

end
end Sys2Proof.Machine
end

section
/-! SUPPORT. What metering changes (R265 to R276). -/

namespace Sys2Proof.Machine

section
set_option Elab.async false

/-! ### What a metering tick changes -/

/-- What metering changes while it runs: its counts, the W area, its log, and what it records. -/
def meterParts : List Part := .mtrRest :: .acq :: .mram :: bookParts

theorem logInterval_changes (flags : Byte) (tariff : Nat) (i : Interval) (count demand : Nat) (s : State) :
    Changes meterParts s (logInterval flags tariff i count demand s) := by
  have hlogged (u : State) (a : Nat) (bs : Bytes) (x : BitVec 10) (y : BitVec 22) (z : Word) :
      Changes meterParts u { mramWrite a bs u with mtr := { (mramWrite a bs u).mtr with logNext := x, logWraps := y, iseq := z } } :=
    (mramWrite_changes a bs u).mono.also [.mtrRest]
  exact .ite ((hlogged ..).trans (sj_changes ..)) (hlogged ..)

theorem closeInterval_changes (flags : Byte) (s : State) : Changes meterParts s (closeInterval flags s) := by
  have hlog := logInterval_changes (s.mtr.interval.flags ||| flags ||| unverifiedNow s) s.mtr.interval.tariff
    { s.mtr.interval with durMs := s.mtr.interval.durMs / 1000 } 1 (demandOf s s.mtr.interval.eImp) s
  exact .ite ((hlog.also [.mtrRest]).trans (tr_changes ..)) hlog

theorem openInterval_changes (flags : Byte) (s : State) : Changes meterParts s (openInterval flags s) := by
  unfold openInterval
  exact .of

theorem meterW_changes (s : State) : Changes meterParts s (meterW s) := by
  unfold meterW wSet
  exact .ite (.refl _ s) .of

theorem applyTariff_changes (new src : Nat) (s : State) : Changes meterParts s (applyTariff new src s) :=
  .ite (.refl _ s) ((((Changes.refl _ s).also [.mtrRest]).join (meterW_changes _)).trans (pushEvent_changes ..) |>.trans (sj_changes ..))

theorem changeTariff_changes (atBoundary : Bool) (new src : Nat) (s : State) :
    Changes meterParts s (changeTariff atBoundary new src s) :=
  .ite (.refl _ s) (.ite ((applyTariff_changes new src s).also [.mtrRest])
    (((closeInterval_changes ..).join (applyTariff_changes ..)).join (openInterval_changes ..)))

theorem addEnergy_changes (t : TickSums) (s : State) : Changes meterParts s (addEnergy t s) := by
  unfold addEnergy
  split
  · exact .refl _ s
  · exact (Changes.refl _ s).also [.mtrRest]

theorem eventsIn_changes (sp g : Span) (coincident : Byte) (s : State) : Changes meterParts s (eventsIn sp g coincident s) := by
  have hdue (c : Bool) : Changes meterParts s (if c then openInterval 0 (closeInterval (flComplete ||| coincident) s) else s) :=
    .ite ((closeInterval_changes ..).join (openInterval_changes ..)) (.refl _ s)
  unfold eventsIn
  dsimp only
  split
  · exact (hdue _).join (changeTariff_changes ..)
  · exact hdue _

theorem sourceTariff_changes (s : State) : Changes meterParts s (sourceTariff s) := by
  unfold sourceTariff
  refine .ite (.refl _ s) ?_
  split
  · exact changeTariff_changes ..
  · exact .refl _ s

theorem clockSetTick_changes (s : State) : Changes meterParts s (clockSetTick s) := by
  have hset : Changes meterParts s (let s1 := openInterval flClockSet (closeInterval flClockSet s)
      { s1 with mtr := { s1.mtr with pendingSet := false } }) :=
    ((closeInterval_changes flClockSet s).join (openInterval_changes flClockSet _)).also [.mtrRest]
  unfold clockSetTick
  refine .ite ?_ (hset.join (sourceTariff_changes ..))
  generalize hu : (let s1 := openInterval flClockSet (closeInterval flClockSet s)
      { s1 with mtr := { s1.mtr with pendingSet := false } }) = u at hset ⊢
  dsimp only
  split
  · rename_i new _
    exact (hset.join (applyTariff_changes new 3 u)).also [.mtrRest]
  · exact hset

theorem outageRecord_changes (sn : Snapshot) (s : State) : Changes meterParts s (outageRecord sn s).1 := by
  unfold outageRecord
  dsimp only
  by_cases htrust : rtcTrusted s = true
  · rw [if_neg (by simp [htrust])]
    generalize min _ 65535 = count
    by_cases hnone : count = 0
    · rw [if_pos hnone]
      exact .refl _ s
    · rw [if_neg hnone]
      dsimp only
      exact (drawn_changes s).mono.join (logInterval_changes ..)
  · rw [if_pos (by simp [htrust])]
    dsimp only
    exact (drawn_changes s).mono.join (logInterval_changes ..)

/-- The interval that an outage cut, closed, with the record of the outage. -/
def outageClosed (sn : Snapshot) (s : State) : State × Nat :=
  outageRecord sn (closeInterval flPartial { s with mtr := { s.mtr with restored := none, interval := sn.run } })

/-- The schedule entry that fell due during an outage, applied. -/
def outageTariff (sn : Snapshot) (s t : State) : State :=
  let outageMin := calMinutes s.rtc.time - calMinutes sn.rtc
  if (mtrCfg s).tariffSrc = 0 ∧ !s.rtc.osf then
    match (if outageMin = 0 then none else latestDue s.rtc.time (min 10080 (outageMin - 1)) (mtrCfg s).sched) with
    | some new => applyTariff new 3 t
    | none => t
  else t

theorem afterOutage_eq (sn : Snapshot) (s : State) : afterOutage sn s = sj 0x623 0 (item sn.seq ++ item (outageClosed sn s).2)
    (sourceTariff (openInterval flPartial (outageTariff sn s (outageClosed sn s).1))) := rfl

theorem outageClosed_changes (sn : Snapshot) (s : State) : Changes meterParts s (outageClosed sn s).1 :=
  (((Changes.refl meterParts s).also [.mtrRest]).join (closeInterval_changes ..)).join (outageRecord_changes ..)

theorem outageTariff_changes (sn : Snapshot) (s t : State) : Changes meterParts t (outageTariff sn s t) := by
  unfold outageTariff
  dsimp only
  generalize (if calMinutes s.rtc.time - calMinutes sn.rtc = 0 then none else latestDue _ _ _) = want
  cases want with
  | some new => exact .ite (applyTariff_changes ..) (.refl _ t)
  | none => exact .ite (.refl _ t) (.refl _ t)

theorem afterOutage_changes (sn : Snapshot) (s : State) : Changes meterParts s (afterOutage sn s) := by
  rw [afterOutage_eq]
  exact ((((outageClosed_changes sn s).join (outageTariff_changes ..)).join (openInterval_changes ..)).join (sourceTariff_changes _)).trans
    (sj_changes ..)

theorem truncatedEvents_changes (n : Nat) (s : State) : Changes meterParts s (truncatedEvents n s) :=
  .ite ((clockSetTick_changes s).join (eventsIn_changes ..)) (eventsIn_changes ..)

theorem truncatedTick_changes (tick : TickSamples) (s : State) : Changes (.frozen :: meterParts) s (truncatedTick tick s) := by
  unfold truncatedTick
  refine .ite ?_ (freezeMeter_changes ..).mono
  dsimp only
  split
  · exact (((afterOutage_changes ..).mono.trans (addEnergy_changes ..)).trans (truncatedEvents_changes ..)).trans (freezeMeter_changes ..)
  · exact ((addEnergy_changes ..).mono.trans (truncatedEvents_changes ..)).trans (freezeMeter_changes ..)

end
end Sys2Proof.Machine
end

section
/-! SUPPORT. What a part that reports ready, or does not, leaves (R70, R71, R439). -/

namespace Sys2Proof.Machine

section
set_option Elab.async false

/-! ### A failure at a load step (R71, R439) -/

/-- A start that a part failed: DEAD with cause 6 (R439). -/
structure FailedStart (part : Nat) (s t : State) : Prop where
  state : t.power.state = .dead
  journal : t.upd.journal = .dead
  cause : t.upd.deadCause = 6
  said : Safety.journals 0xA07 2 (item 6 ++ item part) s t

theorem goDead_upd (cause : Nat) (part : Option Nat) (s : State) : (goDead cause part s).upd = { s.upd with
    headSeq := s.upd.headSeq + 1, journal := .dead, deadCause := BitVec.ofNat 8 cause, accepting := false } := by
  rw [(goDead_tail cause part s).upd, (enterDead_changes _).upd, journalWrite]
  exact (mramWrite_changes ..).upd

theorem goDead_said (part : Nat) (s : State) : Safety.journals 0xA07 2 (item 6 ++ item part) s (goDead 6 (some part) s) := by
  have hentered : Changes (.journal :: .updHead :: .updRest :: deadParts) s (enterDead (journalWrite { s with upd := { s.upd with
      journal := .dead, deadCause := BitVec.ofNat 8 6, accepting := false } })) :=
    (((Changes.refl _ s).also [.journal, .updRest]).trans (journalWrite_changes _)).trans (enterDead_changes _)
  exact Safety.journals_of_sj (hentered.get .sjGrows) (List.prefix_refl _) (by rw [opMs, opMs, hentered.get .opUs]) (hentered.get .pwrCycles)

theorem goDead_failedStart (part : Nat) (s : State) : FailedStart part s (goDead 6 (some part) s) :=
  ⟨goDead_state .., by rw [goDead_upd], by rw [goDead_upd]; rfl, goDead_said part s⟩

theorem FailedStart.of_later {part : Nat} {s u t : State} (h : FailedStart part u t) (hsaid : Changes bookParts s u) : FailedStart part s t := by
  refine ⟨h.state, h.journal, h.cause, ?_⟩
  obtain ⟨r, hr, hcode, hsev, hitems, hms, hcycles⟩ := h.said
  obtain ⟨before, hbefore⟩ := hsaid.get .sjGrows
  refine ⟨r, ?_, hcode, hsev, hitems, by rw [hms, opMs, opMs, hsaid.get .opUs], hcycles.trans (hsaid.get .pwrCycles)⟩
  rw [← hbefore, List.length_append, ← List.drop_drop] at hr
  exact List.mem_of_mem_drop (by rwa [List.drop_drop, Nat.add_comm, ← List.drop_drop] at hr)

theorem sysFails_of_accepting {part : Nat} {s : State} (h : s.upd.accepting = true) : sysFails (some part) s = goDead 6 (some part) s :=
  if_pos h

theorem sysFails_of_not_accepting {part : Nat} {s : State} (h : s.upd.accepting = false) : sysFails (some part) s = safeService 1 part s :=
  if_neg (by rw [h]; simp)

theorem safeService_inSafeService {cause : Nat} (hcause : 0 < cause ∧ cause ≤ 10) (detail : Nat) {s : State} (h : s.power.state = .bringUp) :
    Safety.inSafeService cause (safeService cause detail s) := by
  rw [safeService_of_entry (.inl h)]
  exact enterSafe_inSafeService hcause.1 hcause.2 detail s

theorem safeService_changes (cause detail : Nat) {s : State} (h : s.power.state = .bringUp) :
    Changes safeParts s (safeService cause detail s) := by
  rw [safeService_of_entry (.inl h)]
  exact enterSafe_changes cause detail s

theorem sysFails_partVer (part : Nat) {s : State} (h : s.power.state = .bringUp) : (sysFails (some part) s).upd.partVer = s.upd.partVer := by
  cases haccept : s.upd.accepting with
  | true => rw [sysFails_of_accepting haccept, goDead_upd]
  | false => rw [sysFails_of_not_accepting haccept, (safeService_changes 1 part h).upd]

theorem safeServiceFree_changes (cause : Nat) {s : State} (h : s.power.state = .bringUp) :
    Changes safeParts s (safeServiceFree cause s) :=
  (drawn_changes s).mono.trans (safeService_changes cause (freeWord s).toNat (s := drawn s) h)

/-! ### The rejection of a bank (R443) -/

/-- A pending bank dropped. -/
def bankDropped (check : Option Nat) (s : State) : State :=
  let s0 := if check.isSome then s else drawn s
  { s0 with upd := { s0.upd with pending := false, inUse := false, attempts := 0 } }

/-- What the dropping of a bank changes. -/
theorem bankDropped_changes (check : Option Nat) (s : State) : Changes (.updRest :: bookParts) s (bankDropped check s) := by
  have hdrawn : Changes (.updRest :: bookParts) s (if check.isSome then s else drawn s) := .ite (.refl _ s) (drawn_changes s).mono
  unfold bankDropped
  exact hdrawn.also [.updRest]

theorem bankDropped_partVer (check : Option Nat) (s : State) : (bankDropped check s).upd.partVer = s.upd.partVer := by
  cases check <;> rfl

theorem rejectBank_eq (check : Option Nat) (s : State) : rejectBank check s =
    safeService 9 (check.getD (freeWord s).toNat) (sj 0xA12 2 (item (b2n (!s.upd.active)) ++ item (check.getD (freeWord s).toNat) ++
      item s.upd.attempts) (bankDropped check s)) := rfl

theorem rejectBank_changes (check : Option Nat) {s : State} (h : s.power.state = .bringUp) :
    Changes (.updRest :: safeParts) s (rejectBank check s) := by
  rw [rejectBank_eq]
  generalize check.getD (freeWord s).toNat = c
  have hsaid := (bankDropped_changes check s).trans (sj_changes 0xA12 2 (item (b2n (!s.upd.active)) ++ item c ++ item s.upd.attempts) _)
  exact hsaid.mono.trans (safeService_changes 9 c ((hsaid.get .opState).trans h))

theorem rejectBank_partVer (check : Option Nat) {s : State} (h : s.power.state = .bringUp) :
    (rejectBank check s).upd.partVer = s.upd.partVer := by
  rw [rejectBank_eq]
  generalize check.getD (freeWord s).toNat = c
  have hsaid := sj_changes 0xA12 2 (item (b2n (!s.upd.active)) ++ item c ++ item s.upd.attempts) (bankDropped check s)
  have hstate := (hsaid.get .opState).trans ((bankDropped_changes check s).get .opState)
  rw [(safeService_changes 9 c (hstate.trans h)).upd, hsaid.upd, bankDropped_partVer]

theorem rejectBank_inSafeService (check : Option Nat) {s : State} (h : s.power.state = .bringUp) :
    Safety.inSafeService 9 (rejectBank check s) := by
  rw [rejectBank_eq]
  generalize check.getD (freeWord s).toNat = c
  have hsaid := (bankDropped_changes check s).trans (sj_changes 0xA12 2 (item (b2n (!s.upd.active)) ++ item c ++ item s.upd.attempts) _)
  exact safeService_inSafeService (by decide) c ((hsaid.get .opState).trans h)

theorem appFails_changes (cause : Nat) (code : Option Nat) {s : State} (h : s.power.state = .bringUp) :
    Changes (.updRest :: safeParts) s (appFails cause code s) := by
  refine .ite (rejectBank_changes code h) ?_
  cases code with
  | some c => exact (safeService_changes cause c h).mono
  | none => exact (safeServiceFree_changes cause h).mono

theorem appFails_partVer (cause : Nat) (code : Option Nat) {s : State} (h : s.power.state = .bringUp) :
    (appFails cause code s).upd.partVer = s.upd.partVer := by
  unfold appFails
  by_cases huse : s.upd.inUse = true
  · rw [if_pos huse, rejectBank_partVer code h]
  · rw [if_neg huse]
    cases code with
    | some c => exact congrArg Upd.partVer (safeService_changes cause c h).upd
    | none => exact congrArg Upd.partVer (safeServiceFree_changes cause h).upd

/-- A failed check of an application is its own cause, or 9 while the bank is pending. -/
theorem appFails_inSafeService {cause : Nat} (hcause : 0 < cause ∧ cause ≤ 10) (code : Option Nat) {s : State} (h : s.power.state = .bringUp) :
    Safety.inSafeService (if s.upd.inUse then 9 else cause) (appFails cause code s) := by
  unfold appFails
  by_cases huse : s.upd.inUse = true
  · rw [if_pos huse, if_pos huse]
    exact rejectBank_inSafeService code h
  · rw [if_neg huse, if_neg huse]
    cases code with
    | some c => exact safeService_inSafeService hcause c h
    | none => exact safeService_inSafeService hcause _ (s := drawn s) h

/-! ### What a part brings -/

/-- What a load step changes. -/
def stepParts : List Part := .pdOn :: .pdUs :: .mtrRest :: .metering :: .frozen :: .mram :: .journal :: .updHead :: .updRest :: bookParts ++ resetParts

theorem modPort_changes (p : Nat) (f : Port → Port) (s : State) : Changes [.sw] s (modPort p f s) := by
  unfold modPort
  exact .of

theorem showMrp_changes (s : State) : Changes [.sw] s (showMrp s) := (modPort_changes ..).join (modPort_changes ..)

/-- The role in the ring that a new configuration gives, and the ring's state. -/
def ringConfigured (c : BbswCfg) (s : State) : State × BitVec 2 :=
  if c.mrpRole = 0 then (s, 0)
  else if decide (s.sw.cfg.mrpRole = c.mrpRole) && decide (s.sw.config = 2) then (s, s.sw.ring)
  else if c.mrpRole = 2 then ({ s with sw := { s.sw with ringOpenUs := s.clk.opUs } }, 1)
  else (drawn s, if (freeWord s).getLsbD 0 then 1 else 2)

theorem ringConfigured_changes (c : BbswCfg) (s : State) : Changes [.sw, .freeCount] s (ringConfigured c s).1 := by
  have hdrawn : Changes [.sw, .freeCount] s (drawn s) := by
    unfold drawn
    exact .of
  unfold ringConfigured
  generalize (decide (s.sw.cfg.mrpRole = c.mrpRole) && decide (s.sw.config = 2)) = same
  by_cases hnone : c.mrpRole = 0
  · rw [if_pos hnone]
    exact .refl _ s
  · rw [if_neg hnone]
    cases same with
    | true => exact .refl _ s
    | false =>
      by_cases hmanager : c.mrpRole = 2
      · rw [if_neg Bool.false_ne_true, if_pos hmanager]
        exact .of
      · rw [if_neg Bool.false_ne_true, if_neg hmanager]
        exact hdrawn

/-- The switch with a configuration in its pipes. -/
def pipesConfigured (c : BbswCfg) (s : State) : State :=
  modPipe true (reconfigPipe c.vlans c.seedW) (modPipe false (reconfigPipe c.vlans c.seedE) s)

theorem applyBbsw_later (c : BbswCfg) (s : State) : ∃ (x : Nat) (y : Option LinkChange) (items : Bytes), applyBbsw c s =
    sj 0x806 0 items (showMrp { (ringConfigured c (pipesConfigured c s)).1 with sw := { (ringConfigured c (pipesConfigured c s)).1.sw with
      config := 2, cfg := c, ring := (ringConfigured c (pipesConfigured c s)).2, topoLeft := x, lnk := y } }) := ⟨_, _, _, rfl⟩

theorem applyBbsw_changes (c : BbswCfg) (s : State) : Changes (.sw :: .tbl :: bookParts) s (applyBbsw c s) := by
  obtain ⟨x, y, items, heq⟩ := applyBbsw_later c s
  have hpipes : Changes [.tbl] s (pipesConfigured c s) := (modPipe_changes ..).join (modPipe_changes ..)
  have hring : Changes (.sw :: .tbl :: bookParts) s (ringConfigured c (pipesConfigured c s)).1 :=
    hpipes.mono.trans (ringConfigured_changes ..)
  rw [heq]
  exact ((hring.also [.sw]).trans (showMrp_changes _)).trans (sj_changes ..)

theorem samplingStart_changes (s : State) : Changes [.acq] s (samplingStart s) := by
  unfold samplingStart
  split
  · refine .ite ?_ (.refl _ s)
    unfold mainsW wSet
    exact .of
  · exact .refl _ s

/-- Metering switched on. -/
def meterOn (s : State) : State := { s with mtr := { s.mtr with
    running := true, frozen := false, frozenPfw := false, pendingSet := false, gridUs := s.clk.opUs } }

/-- Metering resumed from a snapshot. -/
def meterResumed (sn : Snapshot) (s : State) : State := { meterOn s with mtr := { (meterOn s).mtr with
    imp := sn.imp, exp := sn.exp, md := sn.md, chg := sn.chg, dis := sn.dis, iseq := sn.iseq, interval := sn.run, restored := some sn } }

/-- Metering started at 0. -/
def meterZero (s : State) : State := { meterOn s with mtr := { (meterOn s).mtr with
    imp := [0, 0, 0, 0], exp := [0, 0, 0, 0], md := [0, 0, 0, 0], chg := 0, dis := 0, restored := none, snapLost := true } }

theorem meterResumed_changes (sn : Snapshot) (s : State) : Changes [.metering, .frozen, .mtrRest] s (meterResumed sn s) := by
  unfold meterResumed meterOn
  exact .of

theorem meterZero_changes (s : State) : Changes [.metering, .frozen, .mtrRest] s (meterZero s) := by
  unfold meterZero meterOn
  exact .of

-- The body is put in place of the name before the state stands: with it, the kernel would evaluate the last snapshot.
theorem startMeter_changes (s : State) : Changes (.metering :: .frozen :: meterParts) s (startMeter s) := by
  obtain ⟨f, hf⟩ : ∃ f, f = startMeter := ⟨_, rfl⟩
  rw [← hf]
  delta startMeter at hf
  subst hf
  beta_reduce
  split
  · next sn _ =>
    exact ((meterResumed_changes sn s).mono.trans (applyTariff_changes sn.tariff 4 _)).trans (meterW_changes _)
  · exact ((((meterZero_changes s).mono.trans (applyTariff_changes _ 4 _)).trans (sj_changes ..)).trans
      (openInterval_changes ..)).trans (meterW_changes _)

theorem accepted_changes (s : State) : Changes (.journal :: .updHead :: .updRest :: .mram :: bookParts) s (accepted s) :=
  .ite ((((Changes.refl _ s).also [.journal, .updRest]).trans (journalWrite_changes _)).trans (sj_changes ..)) (.refl _ s)

theorem accepted_partVer (s : State) : (accepted s).upd.partVer = s.upd.partVer := by
  unfold accepted
  by_cases h : s.upd.accepting = true
  · rw [if_pos h, (sj_changes ..).upd, journalWrite, (mramWrite_changes ..).upd]
  · rw [if_neg h]

end
end Sys2Proof.Machine
end

section
/-! PROOF. The parts load in order up to RUN (R70, R71, R75, R76, R439). -/

namespace Sys2Proof.Machine

section
set_option Elab.async false

/-! ### A part that is ready (R70, R368) -/

/-- The version of a part in the active system manifest. -/
def wantedVersion (p : Sys2Proof.Part) (s : State) : Nat := ((manPart 0 s.upd.manifest (partNo p)).map PartEntry.version).getD 0

/-- The version that a part reports, shown. -/
def versionShown (p : Sys2Proof.Part) (version : Word) (s : State) : State :=
  { s with upd := { s.upd with partVer := s.upd.partVer.set (partNo p) version } }

/-- A bring-up at its next load step. -/
def stepped (p : Sys2Proof.Part) (s : State) : State := { s with power := { s.power with loadStep := nextStep p } }

theorem partReady_eq {p : Sys2Proof.Part} {s : State} (version set : Word) (h : s.power.state = .bringUp) (hstep : s.power.loadStep = partStep p) :
    partReady p version set s =
      if version.toNat ≠ wantedVersion p s then sysFails (some (partNo p))
        (sj 0xA13 2 (item (partNo p) ++ item (wantedVersion p s) ++ item version.toNat) (versionShown p version s))
      else if set.toNat ≠ manSet s.upd.manifest then sysFails (some (partNo p)) (versionShown p version s)
      else partLoads p (versionShown p version s) := by
  unfold partReady
  exact if_pos ⟨h, hstep⟩

/-- The switch with the configuration that the Mould holds. -/
def switchConfigured (s : State) : State :=
  match (mouldOf s).bind Mould.bbsw with
  | some c => if pdIs s 6 then applyBbsw c s else s
  | none => s

theorem switchConfigured_changes (s : State) : Changes (.sw :: .tbl :: bookParts) s (switchConfigured s) := by
  unfold switchConfigured
  split
  · exact .ite (applyBbsw_changes ..) (.refl _ s)
  · exact .refl _ s

theorem pressPorts_changes (ports : List Nat) (m : Mould) (s : State) : Changes [.lb] s (pressPorts ports m s) :=
  .foldl (fun u p => by
    unfold modLb
    exact setLb_changes ..) _ _

theorem pressTerms_changes (ports : List Nat) (m : Mould) (s : State) : Changes [.lb] s (pressTerms ports m s) :=
  .foldl (fun u p => by
    unfold modLb
    exact setLb_changes ..) _ _

/-- The domain that a part's successor needs, and the state in which it is switched on. -/
structure Loaded (d : Nat) (s t : State) : Prop where
  changes : Changes stepParts s t
  version : t.upd.partVer = s.upd.partVer
  domain : domainEnabled s d = true → s.power.pdLocked.getLsbD d = false → t.power.pdOn.getLsbD d = true

theorem Loaded.of_domainOn {d : Nat} {s u : State} (hd : d < 12) (h : Changes stepParts s u)
    (hversion : u.upd.partVer = s.upd.partVer) : Loaded d s (domainOn d u) where
  changes := h.trans (domainOn_changes d u)
  version := by rw [(domainOn_changes d u).upd, hversion]
  domain hen hfree := domainOn_on hd (by rw [domainEnabled_congr (h.get .mld), hen]) (by rw [And.right (h.get .pdTripped), hfree])

theorem switchReady_loaded (s : State) : Loaded 4 s (switchReady s) :=
  .of_domainOn (u := switchConfigured s) (by decide) (switchConfigured_changes s).mono (by rw [(switchConfigured_changes s).upd])

theorem mainsWatchReady_loaded (s : State) : Loaded 11 s (mainsWatchReady s) := by
  have hsampled : Changes stepParts s (samplingStart s) := (samplingStart_changes s).mono
  have hsampledUpd : (samplingStart s).upd = s.upd := (samplingStart_changes s).upd
  have hmetered : Changes stepParts s (if (acqCfg (samplingStart s)).isSome ∧ pdIs (samplingStart s) 8 then startMeter (samplingStart s)
      else samplingStart s) := .ite (hsampled.trans (startMeter_changes _)) hsampled
  have hmeteredUpd : (if (acqCfg (samplingStart s)).isSome ∧ pdIs (samplingStart s) 8 then startMeter (samplingStart s)
      else samplingStart s).upd = s.upd := by
    split_ifs
    · exact (startMeter_changes _).upd.trans hsampledUpd
    · exact hsampledUpd
  unfold mainsWatchReady
  dsimp only
  generalize (if (acqCfg (samplingStart s)).isSome ∧ pdIs (samplingStart s) 8 then startMeter (samplingStart s) else samplingStart s) = u
    at hmetered hmeteredUpd ⊢
  exact .of_domainOn (by decide) (hmetered.trans (accepted_changes u)) (by rw [accepted_partVer, hmeteredUpd])

/-- Lane B's watchdog armed. -/
def laneBArmed (s : State) : State := { s with mgt := { s.mgt with wdB := { armed := true, lastUs := s.clk.wallUs } } }

theorem laneBReady_shows (s : State) : Changes (.watchdogs :: stepParts) s (laneBReady s) ∧ (laneBReady s).upd = s.upd ∧
    (laneBReady s).mgt.wdB = { armed := true, lastUs := s.clk.wallUs } ∧
    (domainEnabled s 7 = true → s.power.pdLocked.getLsbD 7 = false → (laneBReady s).power.pdOn.getLsbD 7 = true) := by
  have hon : Changes stepParts (laneBArmed s) (domainOn 7 (laneBArmed s)) := (domainOn_changes 7 _).mono
  have hlater : Changes [.lb] (domainOn 7 (laneBArmed s)) (laneBReady s) := by
    have heq : laneBReady s = match mouldOf (domainOn 7 (laneBArmed s)) with
      | some m => (if pdIs (domainOn 7 (laneBArmed s)) 7 then pressPorts else pressTerms) [0, 1, 2, 3] m (domainOn 7 (laneBArmed s))
      | none => domainOn 7 (laneBArmed s) := rfl
    rw [heq]
    generalize domainOn 7 (laneBArmed s) = u
    split
    · split_ifs
      · exact pressPorts_changes ..
      · exact pressTerms_changes ..
    · exact .refl _ u
  have hwatch : Part.Same .watchdogs (laneBArmed s) (laneBReady s) := (hon.trans hlater).get .watchdogs
  have harmed : Changes (.watchdogs :: stepParts) s (laneBArmed s) := by
    unfold laneBArmed
    exact .of
  refine ⟨harmed.trans (hon.trans hlater), ?_, hwatch.2, fun hen hfree => ?_⟩
  · rw [hlater.upd, (domainOn_changes 7 _).upd]
    rfl
  · rw [hlater.get .pdOn]
    exact domainOn_on (by decide) hen hfree

/-! ### Lane A with its program (R188, R368) -/

/-- Lane A with a verified program. -/
def laneAArmed (bs : List CodeBlock) (s : State) : State :=
  let s1 := noteVerify none s
  { s1 with
    prog := { s1.prog with blocks := bs, progHash := sha256 (bankProgram (usedBank s) s) }
    edit := { s1.edit with chain := BitVec.ofNat 12 (bankOf (usedBank s) s1).chain.length }
    mgt := { s1.mgt with wdA := { armed := true, lastUs := s1.clk.wallUs } }
    power := { s1.power with loadStep := .laneB } }

theorem domainOn3_changes (s : State) : Changes [.pdOn, .pdUs, .lb] s (domainOn 3 s) :=
  domainOn_changes_of (by simp only [resetDomain]; exact .of)

theorem programRejected_changes (f : VerFail) (source : Nat) (s : State) : Changes (.prog :: bookParts) s (programRejected f source s) := by
  have hnoted : Changes (.prog :: bookParts) s (noteVerify (some f) s) := by
    unfold noteVerify
    exact .of
  exact hnoted.trans (sj_changes ..)

theorem laneAReady_of_ok {bs : List CodeBlock} {s : State}
    (h : verifyProgram (dKib s) (((restOf s).map MouldRest.eventMask).getD 0) (bankProgram (usedBank s) s) = .ok bs) :
    laneAReady s = domainOn 3 (laneAArmed bs s) := by
  unfold laneAReady
  dsimp only
  rw [h]
  rfl

theorem laneAReady_of_error {f : VerFail} {s : State}
    (h : verifyProgram (dKib s) (((restOf s).map MouldRest.eventMask).getD 0) (bankProgram (usedBank s) s) = .error f) :
    laneAReady s = appFails 7 (some f.code) (programRejected f (b2n s.upd.inUse) s) := by
  unfold laneAReady
  dsimp only
  rw [h]

theorem laneAReady_partVer {s : State} (h : s.power.state = .bringUp) : (laneAReady s).upd.partVer = s.upd.partVer := by
  cases hver : verifyProgram (dKib s) (((restOf s).map MouldRest.eventMask).getD 0) (bankProgram (usedBank s) s) with
  | ok bs =>
    rw [laneAReady_of_ok hver, (domainOn3_changes _).upd]
    rfl
  | error f =>
    have hsaid := programRejected_changes f (b2n s.upd.inUse) s
    rw [laneAReady_of_error hver, appFails_partVer 7 _ ((hsaid.get .opState).trans h), hsaid.upd]

/-! ### What a part that is ready leaves -/

/-- The domain that the part behind needs. -/
def nextDomain : List (Sys2Proof.Part × Nat) := [(.p4, 4), (.p3, 2), (.p2, 7), (.p5, 8), (.p6, 11)]

/-- The bring-up with a part loaded. -/
structure PartLoaded (p : Sys2Proof.Part) (s t : State) : Prop where
  state : t.power.state = s.power.state
  step : t.power.loadStep = nextStep p
  domain : ∀ q ∈ nextDomain, q.1 = p → domainEnabled s q.2 = true → s.power.pdLocked.getLsbD q.2 = false →
    t.power.pdOn.getLsbD q.2 = true
  onP0 : p = .p0 → t.mgt.onP0 = true
  wdB : p = .p2 → t.mgt.wdB = { armed := true, lastUs := s.clk.wallUs }
  version : t.upd.partVer = s.upd.partVer

theorem PartLoaded.of_loaded {p : Sys2Proof.Part} {d : Nat} {s t : State} (h : Loaded d (stepped p s) t) (hp0 : p ≠ .p0) (hp2 : p ≠ .p2)
    (hdomain : ∀ q ∈ nextDomain, q.1 = p → q.2 = d) : PartLoaded p s t where
  state := h.changes.get .opState
  step := by
    obtain ⟨_, _, _, _, hstep, _⟩ := h.changes.get .start
    exact hstep
  domain q hq hqp hen hfree := by
    obtain rfl := hdomain q hq hqp
    exact h.domain hen hfree
  onP0 hp := absurd hp hp0
  wdB hp := absurd hp hp2
  version := h.version

theorem partLoads_loaded {p : Sys2Proof.Part} (s : State) (hp1 : p ≠ .p1) : PartLoaded p s (partLoads p s) := by
  cases p with
  | p0 => exact ⟨rfl, rfl, by simp [nextDomain], fun _ => rfl, by simp, rfl⟩
  | p1 => exact absurd rfl hp1
  | p2 =>
    obtain ⟨hchanges, hupd, hwatch, hon⟩ := laneBReady_shows (stepped .p2 s)
    obtain ⟨_, _, _, _, hstep, _⟩ := hchanges.get .start
    refine ⟨hchanges.get .opState, hstep, fun q hq hqp hen hfree => ?_, by simp, fun _ => hwatch, congrArg Upd.partVer hupd⟩
    have hseven : q.2 = 7 := (show ∀ q ∈ nextDomain, q.1 = .p2 → q.2 = 7 by simp [nextDomain]) q hq hqp
    rw [hseven] at hen hfree ⊢
    exact hon hen hfree
  | p3 =>
    exact .of_loaded (.of_domainOn (u := stepped .p3 s) (by decide) (.refl _ _) rfl) (by simp) (by simp) (by simp [nextDomain])
  | p4 => exact .of_loaded (switchReady_loaded (stepped .p4 s)) (by simp) (by simp) (by simp [nextDomain])
  | p5 =>
    exact .of_loaded (.of_domainOn (u := stepped .p5 s) (by decide) (.refl _ _) rfl) (by simp) (by simp) (by simp [nextDomain])
  | p6 => exact .of_loaded (mainsWatchReady_loaded (stepped .p6 s)) (by simp) (by simp) (by simp [nextDomain])

theorem partLoads_partVer (p : Sys2Proof.Part) {s : State} (h : s.power.state = .bringUp) : (partLoads p s).upd.partVer = s.upd.partVer := by
  by_cases hp1 : p = .p1
  · subst hp1
    exact laneAReady_partVer (s := { stepped .p1 s with power := { (stepped .p1 s).power with loadStep := .laneA } }) h
  · exact (partLoads_loaded s hp1).version

theorem partLoads_laneA {bs : List CodeBlock} {s : State}
    (h : verifyProgram (dKib s) (((restOf s).map MouldRest.eventMask).getD 0) (bankProgram (usedBank s) s) = .ok bs) :
    (partLoads .p1 s).power.loadStep = .laneB ∧ (partLoads .p1 s).prog.blocks = bs ∧
      (partLoads .p1 s).mgt.wdA = { armed := true, lastUs := s.clk.wallUs } := by
  have heq : partLoads .p1 s = domainOn 3 (laneAArmed bs { stepped .p1 s with power := { (stepped .p1 s).power with loadStep := .laneA } }) :=
    laneAReady_of_ok h
  have hon := domainOn3_changes (laneAArmed bs { stepped .p1 s with power := { (stepped .p1 s).power with loadStep := .laneA } })
  obtain ⟨_, _, _, _, hstep, _⟩ := hon.get .start
  rw [heq]
  exact ⟨hstep, congrArg Program.blocks (hon.get .prog), And.left (hon.get .watchdogs)⟩

/-! ### A part that is not ready (R71, R369, R439) -/

/-- The Safe Service cause of a part that does not report. -/
def silentCause : Sys2Proof.Part → Nat
  | .p0 => 1
  | .p3 => 5
  | .p1 => 3
  | .p2 => 4
  | _ => 10

/-- The record of a lane that is not ready. -/
def LaneFaultSaid (p : Sys2Proof.Part) (s t : State) : Prop :=
  (p = .p1 → Safety.journals 0x910 2 (item 0 ++ item 4 ++ item 0) s t) ∧
  (p = .p2 → Safety.journals 0x910 2 (item 1 ++ item 4 ++ item 0) s t)

theorem faultEnds_of_accepting {part : Nat} {f : State → State} {s : State} (h : s.power.state = .bringUp) (haccept : s.upd.accepting = true) :
    faultEnds (some part) f s = goDead 6 (some part) s := if_pos ⟨h, haccept⟩

theorem faultEnds_of_not_accepting {part : Nat} {f : State → State} {s : State} (haccept : s.upd.accepting = false) :
    faultEnds (some part) f s = f s := if_neg (by simp [haccept])

theorem goDead_later (cause : Nat) (part : Option Nat) (s : State) : s.log.sjQueue <+: (goDead cause part s).log.sjQueue :=
  (goDead_changes cause part s).get .sjGrows

/-- The record of a fault, in a state that grows from it. -/
theorem journals_of_later {code sev : Nat} {items : Bytes} {s t : State} (h : (sj code sev items s).log.sjQueue <+: t.log.sjQueue) :
    Safety.journals code sev items s t := Safety.journals_of_sj (List.prefix_refl _) h

theorem partSilent_safe {p : Sys2Proof.Part} {s : State} (h : s.power.state = .bringUp) (hstep : s.power.loadStep = partStep p)
    (haccept : s.upd.accepting = false) :
    LaneFaultSaid p s (partSilent p s) ∧ Safety.inSafeService (silentCause p) (partSilent p s) := by
  have hsays (items : Bytes) : (sj 0x910 2 items s).power.state = .bringUp ∧ (sj 0x910 2 items s).upd.accepting = false :=
    ⟨((sj_changes ..).get .opState).trans h, (congrArg Upd.accepting (sj_changes ..).upd).trans haccept⟩
  have hlane (items : Bytes) {cause : Nat} (hcause : 0 < cause ∧ cause ≤ 10) (part : Nat) (t : State)
      (ht : t = faultEnds (some part) (safeService cause 4) (sj 0x910 2 items s)) :
      Safety.journals 0x910 2 items s t ∧ Safety.inSafeService cause t := by
    rw [ht, faultEnds_of_not_accepting (hsays items).2]
    exact ⟨journals_of_later ((safeService_changes cause 4 (hsays items).1).get .sjGrows), safeService_inSafeService hcause 4 (hsays items).1⟩
  have hpart {cause : Nat} (hcause : 0 < cause ∧ cause ≤ 10) (part : Nat) :
      Safety.inSafeService cause (faultEnds (some part) (safeService cause part) s) := by
    rw [faultEnds_of_not_accepting haccept]
    exact safeService_inSafeService hcause part h
  unfold partSilent
  rw [if_pos ⟨h, hstep⟩]
  cases p with
  | p0 => exact ⟨⟨by simp, by simp⟩, hpart (by decide) 0⟩
  | p3 => exact ⟨⟨by simp, by simp⟩, hpart (by decide) 3⟩
  | p1 =>
    obtain ⟨hsaid, hsafe⟩ := hlane (item 0 ++ item 4 ++ item 0) (cause := 3) (by decide) 1 _ rfl
    exact ⟨⟨fun _ => hsaid, by simp⟩, hsafe⟩
  | p2 =>
    obtain ⟨hsaid, hsafe⟩ := hlane (item 1 ++ item 4 ++ item 0) (cause := 4) (by decide) 2 _ rfl
    exact ⟨⟨by simp, fun _ => hsaid⟩, hsafe⟩
  | p4 => exact ⟨⟨by simp, by simp⟩, hpart (by decide) 4⟩
  | p5 => exact ⟨⟨by simp, by simp⟩, hpart (by decide) 5⟩
  | p6 => exact ⟨⟨by simp, by simp⟩, hpart (by decide) 6⟩

theorem partSilent_failed {p : Sys2Proof.Part} {s : State} (h : s.power.state = .bringUp) (hstep : s.power.loadStep = partStep p)
    (haccept : s.upd.accepting = true) :
    LaneFaultSaid p s (partSilent p s) ∧ FailedStart (partNo p) s (partSilent p s) := by
  have hlane (items : Bytes) (part cause : Nat) (t : State) (ht : t = faultEnds (some part) (safeService cause 4) (sj 0x910 2 items s)) :
      Safety.journals 0x910 2 items s t ∧ FailedStart part s t := by
    have hstate := ((sj_changes 0x910 2 items s).get .opState).trans h
    have haccepting := (congrArg Upd.accepting (sj_changes 0x910 2 items s).upd).trans haccept
    rw [ht, faultEnds_of_accepting hstate haccepting]
    exact ⟨journals_of_later (goDead_later ..), (goDead_failedStart part _).of_later (sj_changes ..)⟩
  have hpart (part : Nat) (f : State → State) : FailedStart part s (faultEnds (some part) f s) := by
    rw [faultEnds_of_accepting h haccept]
    exact goDead_failedStart part s
  unfold partSilent
  rw [if_pos ⟨h, hstep⟩]
  cases p with
  | p0 => exact ⟨⟨by simp, by simp⟩, hpart 0 _⟩
  | p3 => exact ⟨⟨by simp, by simp⟩, hpart 3 _⟩
  | p1 =>
    obtain ⟨hsaid, hdead⟩ := hlane (item 0 ++ item 4 ++ item 0) 1 3 _ rfl
    exact ⟨⟨fun _ => hsaid, by simp⟩, hdead⟩
  | p2 =>
    obtain ⟨hsaid, hdead⟩ := hlane (item 1 ++ item 4 ++ item 0) 2 4 _ rfl
    exact ⟨⟨by simp, fun _ => hsaid⟩, hdead⟩
  | p4 => exact ⟨⟨by simp, by simp⟩, hpart 4 _⟩
  | p5 => exact ⟨⟨by simp, by simp⟩, hpart 5 _⟩
  | p6 => exact ⟨⟨by simp, by simp⟩, hpart 6 _⟩

/-! ### The first full lap (R75, R76, R228) -/

theorem plantKeys_changes (m : Bytes) (s : State) : Changes (.keys :: bookParts) s (plantKeys m s) := by
  have hset (a b : Option Bytes) : Changes (.keys :: bookParts) s { s with mgt := { s.mgt with plantCurrent := a, plantNext := b } } := .of
  have hkeys : Changes (.keys :: bookParts) s
      (if s.mgt.plantCurrent.isNone then sj 0xA14 0 ((manSignKey m).take 8) { s with mgt := { s.mgt with plantCurrent := some (manSignKey m) } }
      else if s.mgt.plantNext = some (manSignKey m) then { s with mgt := { s.mgt with plantCurrent := some (manSignKey m), plantNext := none } }
      else s) := by
    split_ifs
    · exact (hset _ s.mgt.plantNext).trans (sj_changes ..)
    · exact hset ..
    · exact .refl _ s
  exact .ite hkeys (hkeys.also [.keys])

/-- The pending bank made the active one. -/
def bankSwitched (s : State) : State := { s with upd := { s.upd with active := !s.upd.active, pending := false, inUse := false } }

/-- The Safe Service table of the bank accepted, in MRAM. -/
def tableCopied (s : State) : State :=
  match manPart 1 (bankManifest (!s.upd.active) s) 0x12 with
  | some e => mramWrite 0x390000 ((bankPart (!s.upd.active) e (bankSwitched s)).take 256) (bankSwitched s)
  | none => bankSwitched s

/-- The bank accepted, with its keys. -/
def bankKeyed (s : State) : State := plantKeys (bankManifest (!s.upd.active) s) (tableCopied s)

theorem acceptBank_of_pending {s : State} (h : s.upd.pending = true ∧ s.upd.inUse = true) : acceptBank s =
    sj 0xA11 0 (item (b2n (!s.upd.active)) ++ item (manSet (bankManifest (!s.upd.active) s)) ++ item s.upd.attempts)
      { bankKeyed s with upd := { (bankKeyed s).upd with attempts := 0 } } := if_pos h

theorem bankKeyed_changes (s : State) : Changes (.updRest :: .mram :: .keys :: bookParts) s (bankKeyed s) := by
  have hswitched : Changes (.updRest :: .mram :: .keys :: bookParts) s (bankSwitched s) := by
    unfold bankSwitched
    exact .of
  have hcopied : Changes (.updRest :: .mram :: .keys :: bookParts) s (tableCopied s) := by
    unfold tableCopied
    split
    · exact hswitched.trans (mramWrite_changes ..)
    · exact hswitched
  exact hcopied.trans (plantKeys_changes ..)

theorem acceptBank_changes (s : State) : Changes (.updRest :: .mram :: .keys :: bookParts) s (acceptBank s) := by
  by_cases h : s.upd.pending = true ∧ s.upd.inUse = true
  · rw [acceptBank_of_pending h]
    exact ((bankKeyed_changes s).also [.updRest]).trans (sj_changes ..)
  · rw [acceptBank, if_neg h]
    exact .refl _ s

/-- The unit in RUN as SOLO, before its records. -/
def runEntered (s : State) : State := setRole .solo { s with power := { s.power with
    state := .run, loadStep := .idle, runEntryUs := s.clk.opUs
    runTimeMs := BitVec.ofNat 16 (min 65535 ((s.clk.opUs - s.power.t0Us) / 1000)) } }

theorem runEntered_changes (s : State) : Changes [.opState, .start, .runEntry, .role, .history] s (runEntered s) := by
  have hset : Changes [.opState, .start, .runEntry, .role, .history] s { s with power := { s.power with
      state := .run, loadStep := .idle, runEntryUs := s.clk.opUs
      runTimeMs := BitVec.ofNat 16 (min 65535 ((s.clk.opUs - s.power.t0Us) / 1000)) } } := .of
  exact hset.trans (setRole_changes ..)

/-- RUN entered, with its records. -/
def runRecorded (s : State) : State :=
  sj 0x104 0 (item ((s.clk.opUs - s.power.t0Us) / 1000) ++ item s.mgt.testedSet.toNat) (sjStateChange .bringUp .run (runEntered s))

theorem enterRun_eq (s : State) : enterRun s =
    { runRecorded s with sby := { (runRecorded s).sby with window := partnerNamed (runRecorded s), cond := .unpaired } } := by
  unfold enterRun runRecorded runEntered
  rfl

theorem enterRun_later (s : State) : Changes (.sby :: bookParts) (runEntered s) (enterRun s) := by
  have hrecorded : Changes (.sby :: bookParts) (runEntered s) (runRecorded s) := (sjStateChange_changes ..).mono.trans (sj_changes ..)
  rw [enterRun_eq]
  exact hrecorded.also [.sby]

/-- The unit in RUN, its bank accepted and the BTP ended. -/
def runTaken (s : State) : State := enterRun (acceptBank { s with saf := { s.saf with btpOn := false } })

/-- The unit that has entered RUN with its first lap to begin. -/
def runBegun (s : State) : State := { runTaken s with
  lap := { (runTaken s).lap with num := 0, nowBase := (runTaken s).clk.opUs }, ctx := { (runTaken s).ctx with firstLap := true } }

theorem runBegun_changes (s : State) : Changes [.lapNum, .lapRest, .ctxRest] (runTaken s) (runBegun s) := by
  unfold runBegun
  exact .of

theorem runBegun_num (s : State) : (runBegun s).lap.num = 0 := rfl

/-- The unit as its reflex networks take over from the BTP. -/
def runHandover (s : State) : State := reflexHandover (pushEventFree 0 2 (lbListen (pairsSafe (subsReset (runBegun s)))))

theorem firstFullLap_eq {s : State} (h : s.power.state = .bringUp) (hstep : s.power.loadStep = .handover) :
    firstFullLap s = ownLap (runHandover s) := if_pos ⟨h, hstep⟩

theorem runHandover_later (s : State) : Changes (.outputs :: .rfx :: .img :: .lb :: .outRest :: subsParts) (runBegun s) (runHandover s) := by
  have hlistened := ((subsReset_changes (runBegun s)).mono (qs := .outputs :: .rfx :: .img :: .lb :: .outRest :: subsParts)).trans
    (pairsSafe_changes _) |>.trans (lbListen_changes _) |>.trans (pushEventFree_changes 0 2 _)
  have hreset (u : State) : Changes [.rfx] u (reflexReset true u) := by
    unfold reflexReset
    exact .of
  exact (hlistened.trans (hreset _)).trans (refreshOutputs_changes _)

theorem runHandover_active (s : State) : (runHandover s).rfx.active = true := by
  rw [runHandover, reflexHandover, (refreshOutputs_changes _).get .rfx]
  rfl

theorem foldl_keeps {α β γ : Type} {f : α → β → α} {g : α → γ} (h : ∀ a x, g (f a x) = g a) (l : List β) (a : α) :
    g (l.foldl f a) = g a := by
  induction l generalizing a with
  | nil => rfl
  | cons x xs ih => rw [List.foldl_cons, ih, h]

theorem pairNotes_btpOn (n dt : Nat) (a b : Bool) (notes : List PairNote) (s : State) : (pairNotes n dt a b notes s).saf.btpOn = s.saf.btpOn := by
  unfold pairNotes
  refine foldl_keeps (g := fun t : State => t.saf.btpOn) (fun u x => ?_) notes s
  cases x with
  | latch =>
    dsimp only
    rw [(sj_changes ..).get .saf]
  | resetFailed =>
    dsimp only
    rw [(sj_changes ..).get .saf]
  | cleared =>
    dsimp only
    rw [(sj_changes ..).get .saf]
  | ackIgnored => rfl

theorem lapWrites_saf (a n : Nat) (i : Images) (s : State) : (lapWrites a n (setImg i s)).saf = s.saf :=
  ((lapWrites_changes ..).get .saf).trans ((setImg_changes i s).get .saf)

theorem pairStep_btpOn (n : Nat) (s : State) : (pairStep n s).1.saf.btpOn = s.saf.btpOn := by
  unfold pairStep
  dsimp only
  split_ifs
  · rfl
  · rw [lapWrites_saf]
  · rw [pairNotes_btpOn, lapWrites_saf]

theorem pairsEval_btpOn (s : State) : (pairsEval s).1.saf.btpOn = s.saf.btpOn := by
  have hall (l : List Nat) := foldl_keeps (g := fun acc : State × Nat => acc.1.saf.btpOn) (f := fun (acc : State × Nat) n =>
      let (t, k) := pairStep n acc.1
      (t, acc.2 + b2n k * 2 ^ n)) (fun acc n => pairStep_btpOn n acc.1) l (s, 0)
  unfold pairsEval
  specialize hall (List.range 16)
  generalize List.foldl _ (s, 0) _ = r at hall ⊢
  exact hall

theorem ownPairs_btpOn (s : State) : (ownPairs s).saf.btpOn = s.saf.btpOn := by
  have heval := pairsEval_btpOn s
  unfold ownPairs
  generalize pairsEval s = r at heval ⊢
  dsimp only
  split_ifs
  · exact heval
  · rw [(addEvent_changes ..).get .saf, heval]

/-- The first lap of a unit that has taken over. -/
theorem ownLap_first {s : State} (hrole : s.power.role = .solo) : ∃ u, Changes readyParts (lapCounted s) u ∧
    u.saf.btpOn = s.saf.btpOn ∧ ownLap s = beginExecution .lap u := by
  have hready := lapReady_changes s
  refine ⟨lapReady s, hready, ?_, by rw [ownLap_eq, leaderDuties_of_solo ((hready.get .role).trans hrole)]⟩
  have hhoused : (lapHoused s).saf = s.saf :=
    ((drainEvents_changes _).get .saf).trans (((captureTime_changes _).get .saf).trans
      (((freezeOwn_changes _).get .saf).trans ((adoptDue_changes _).get .saf)))
  rw [lapReady, ownPairs_btpOn]
  split_ifs
  · rw [(addAdopted_changes _).get .saf, hhoused]
  · rw [hhoused]

/-- What RUN shows as it is entered. -/
theorem enterRun_shows (s : State) : (enterRun s).power.state = .run ∧ (enterRun s).power.role = .solo ∧
    (enterRun s).power.loadStep = .idle ∧ (enterRun s).power.runEntryUs = s.clk.opUs := by
  have hpower : (enterRun s).power = (runEntered s).power := (enterRun_later s).power
  rw [hpower]
  refine ⟨?_, setRole_role .., ?_, ?_⟩
  all_goals
    unfold runEntered setRole
    split_ifs
    · rfl
    · rfl

theorem runTaken_shows (s : State) : (runTaken s).power.state = .run ∧ (runTaken s).power.role = .solo ∧
    (runTaken s).power.loadStep = .idle ∧ (runTaken s).power.runEntryUs = s.clk.opUs ∧ (runTaken s).saf.btpOn = false := by
  have haccepted := acceptBank_changes { s with saf := { s.saf with btpOn := false } }
  have hop : (acceptBank { s with saf := { s.saf with btpOn := false } }).clk.opUs = s.clk.opUs := haccepted.get .opUs
  have hsaf : (acceptBank { s with saf := { s.saf with btpOn := false } }).saf.btpOn = false := congrArg Saf.btpOn (haccepted.get .saf)
  unfold runTaken
  generalize acceptBank { s with saf := { s.saf with btpOn := false } } = u at hop hsaf ⊢
  obtain ⟨hstate, hrole, hidle, hentry⟩ := enterRun_shows u
  exact ⟨hstate, hrole, hidle, hentry.trans hop, by rw [(enterRun_later u).get .saf, (runEntered_changes u).get .saf, hsaf]⟩

theorem firstFullLap_shows {s : State} (h : s.power.state = .bringUp) (hstep : s.power.loadStep = .handover) :
    (firstFullLap s).power.state = .run ∧ (firstFullLap s).power.role = .solo ∧ (firstFullLap s).power.loadStep = .idle ∧
      (firstFullLap s).power.runEntryUs = s.clk.opUs ∧ (firstFullLap s).saf.btpOn = false ∧ (firstFullLap s).lap.num = 1 ∧
      (firstFullLap s).lap.running = .lap ∧ (firstFullLap s).rfx.active = true := by
  obtain ⟨hstate, hrole, hidle, hentry, hbtpOn⟩ := runTaken_shows s
  have hbegun := runBegun_changes s
  have hlater := runHandover_later s
  have hactive := runHandover_active s
  have hnum := (hlater.get .lapNum).trans (runBegun_num s)
  rw [firstFullLap_eq h hstep]
  have hpower : (runHandover s).power = (runTaken s).power := hlater.power.trans hbegun.power
  have hbtp : (runHandover s).saf.btpOn = false := by rw [hlater.get .saf, hbegun.get .saf, hbtpOn]
  generalize runHandover s = t at hactive hnum hpower hbtp ⊢
  obtain ⟨u, hready, hkept, heq⟩ := ownLap_first (s := t) (by rw [hpower, hrole])
  have hran := beginExecution_changes .lap u
  have hended : (beginExecution .lap u).power = (runTaken s).power := hran.power.trans (hready.power.trans hpower)
  rw [heq, hended]
  refine ⟨hstate, hrole, hidle, hentry, ?_, ?_, beginExecution_running .., ?_⟩
  · rw [hran.get .saf, hkept, hbtp]
  · rw [hran.get .lapNum, hready.get .lapNum]
    change t.lap.num + 1 = 1
    rw [hnum]
    rfl
  · rw [hran.get .rfx, hready.get .rfx]
    exact hactive

/-! ### The obligation -/

theorem failedStart_of {p : Sys2Proof.Part} {s t : State} (h : FailedStart (partNo p) s t) :
    t.power.state = .dead ∧ t.upd.journal = .dead ∧ t.upd.deadCause = 6 ∧ Safety.journals 0xA07 2 (item 6 ++ item (partNo p)) s t :=
  ⟨h.state, h.journal, h.cause, h.said⟩

/-- A part that reports what the manifest does not name. -/
structure PartRefused (p : Sys2Proof.Part) (version : Word) (s t : State) : Prop where
  version : t.upd.partVer = s.upd.partVer.set (partNo p) version
  safe : s.upd.accepting = false → Safety.inSafeService 1 t
  failed : s.upd.accepting = true → FailedStart (partNo p) s t

theorem PartRefused.of_said {p : Sys2Proof.Part} {version : Word} {s u : State} (h : s.power.state = .bringUp)
    (hsaid : Changes bookParts (versionShown p version s) u) : PartRefused p version s (sysFails (some (partNo p)) u) := by
  have hstate : u.power.state = .bringUp := (hsaid.get .opState).trans h
  have haccepting : u.upd.accepting = s.upd.accepting := by rw [hsaid.upd, versionShown]
  refine ⟨(sysFails_partVer _ hstate).trans (congrArg Upd.partVer hsaid.upd), fun haccept => ?_, fun haccept => ?_⟩
  · rw [sysFails_of_not_accepting (haccepting.trans haccept)]
    exact safeService_inSafeService (by decide) _ hstate
  · rw [sysFails_of_accepting (haccepting.trans haccept)]
    obtain ⟨hdead, hjournal, hcause, hjournaled⟩ := (goDead_failedStart (partNo p) u).of_later hsaid
    exact ⟨hdead, hjournal, hcause, hjournaled⟩

/-- Settles O23: a part as it loads, or fails the start, and the first full lap. -/
theorem partsLoadInOrderUpToRun : Obligations.PartsLoadInOrderUpToRun := by
  unfold Obligations.PartsLoadInOrderUpToRun
  refine ⟨fun p version set s h hstep => ?_, fun s => ⟨fun haccept => ?_, fun h hstep haccept => ?_, fun hnot => ?_, fun h hstep _ => ?_⟩⟩
  · intro want failedStart laneFault
    have hwant : want = wantedVersion p s := rfl
    clear_value want
    subst hwant
    refine ⟨⟨partReady p version set s, rfl, ?_⟩, fun haccept => ?_, fun haccept => ?_⟩
    · rw [partReady_eq version set h hstep]
      by_cases hversion : version.toNat = wantedVersion p s
      · rw [if_neg (by simpa using hversion)]
        by_cases hset : set.toNat = manSet s.upd.manifest
        · rw [if_neg (by simpa using hset)]
          refine ⟨partLoads_partVer p (s := versionShown p version s) h, fun _ _ hp1 => ?_, fun _ _ hp1 bs hbs => ?_, fun hno => ?_, fun hno => ?_,
            fun hno => absurd hversion hno⟩
          · have hloaded := partLoads_loaded (versionShown p version s) hp1
            exact ⟨hloaded.state.trans h, hloaded.step, hloaded.domain, hloaded.onP0, hloaded.wdB⟩
          · subst hp1
            exact partLoads_laneA (s := versionShown .p1 version s) hbs
          · exact absurd hno (by simp [hversion, hset])
          · exact absurd hno (by simp [hversion, hset])
        · rw [if_pos hset]
          have hrefused : PartRefused p version s _ := .of_said h (.refl _ (versionShown p version s))
          exact ⟨hrefused.version, fun _ heq => absurd heq hset, fun _ heq => absurd heq hset, fun _ => hrefused.safe,
            fun _ haccept => failedStart_of (hrefused.failed haccept), fun hno => absurd hversion hno⟩
      · rw [if_pos hversion]
        have hrefused : PartRefused p version s _ := .of_said h
          (sj_changes 0xA13 2 (item (partNo p) ++ item (wantedVersion p s) ++ item version.toNat) (versionShown p version s))
        refine ⟨hrefused.version, fun heq => absurd heq hversion, fun heq => absurd heq hversion, fun _ => hrefused.safe,
          fun _ haccept => failedStart_of (hrefused.failed haccept), fun _ => ?_⟩
        refine Safety.journals_of_sj (u := versionShown p version s) (List.prefix_refl _) ?_
        generalize hu : sj 0xA13 2 (item (partNo p) ++ item (wantedVersion p s) ++ item version.toNat) (versionShown p version s) = u
        have hstate : u.power.state = .bringUp := by
          rw [← hu]
          exact ((sj_changes ..).get .opState).trans h
        cases haccept : u.upd.accepting with
        | true =>
          rw [sysFails_of_accepting haccept]
          exact goDead_later ..
        | false =>
          rw [sysFails_of_not_accepting haccept]
          exact (safeService_changes _ _ hstate).get .sjGrows
    · obtain ⟨hlane, hsafe⟩ := partSilent_safe h hstep haccept
      refine ⟨partSilent p s, rfl, hlane, ?_⟩
      cases p <;> exact hsafe
    · obtain ⟨hlane, hfailed⟩ := partSilent_failed h hstep haccept
      exact ⟨partSilent p s, rfl, hlane, failedStart_of hfailed⟩
  · exact congrArg Host.Outcome.next (if_neg (by simp [haccept]))
  · have heq : partNotReady .selfTest s = goDead 5 none s := if_pos ⟨h, haccept, hstep⟩
    refine ⟨goDead 5 none s, congrArg Host.Outcome.next heq, goDead_state .., by rw [goDead_upd], by rw [goDead_upd]; rfl⟩
  · refine congrArg Host.Outcome.next (if_neg fun hboth => ?_)
    rcases hnot with hno | hno
    · exact hno hboth.1
    · exact hno hboth.2
  · exact ⟨firstFullLap s, rfl, firstFullLap_shows h hstep⟩

end
end Sys2Proof.Machine
end

section
/-! PROOF. Manifests are verified, and a Mould is pressed (R70, R103, R105, R443, R444). -/

namespace Sys2Proof.Machine

section
set_option Elab.async false

/-! ### The checks of a start (R444) -/

/-- The failing part of a system manifest, where one is named. -/
def sysFailure (s : State) : Option Nat :=
  if !manFormat 0 none s.upd.manifest ∨ !manSigned 0 s.upd.manifest s ∨ !manIssue s.upd.manifest s then none else targetFailure s.upd.manifest s

/-- Does the active system manifest pass its checks? -/
def sysOk (s : State) : Bool :=
  manFormat 0 none s.upd.manifest && manSigned 0 s.upd.manifest s && manIssue s.upd.manifest s && (targetFailure s.upd.manifest s).isNone

theorem startChecks_of_sysBad {s : State} (h : sysOk s = false) : startChecks s = sysFails (sysFailure s) s := by
  unfold startChecks
  dsimp only
  by_cases hbad : !manFormat 0 none s.upd.manifest ∨ !manSigned 0 s.upd.manifest s ∨ !manIssue s.upd.manifest s
  · rw [if_pos hbad, sysFailure, if_pos hbad]
  · rw [if_neg hbad, sysFailure, if_neg hbad]
    cases hpart : targetFailure s.upd.manifest s with
    | some p => rfl
    | none =>
      simp only [sysOk, hpart, Option.isNone_none, Bool.and_true] at h
      simp only [not_or, Bool.not_eq_true, Bool.not_eq_false'] at hbad
      obtain ⟨hformat, hsigned, hissue⟩ := hbad
      rw [hformat, hsigned, hissue] at h
      exact Bool.noConfusion h

/-- The checks of the application, after those of the system manifest. -/
def bankChecks (s : State) : State :=
  if s.upd.pending ∧ !s.upd.inUse then rejectBank none s
  else if !appManifestOk (usedBank s) s then appFails 2 (some 2) s
  else if manSet (bankManifest (usedBank s) s) ≠ manSet s.upd.manifest then appFails 1 (some 8) s
  else if !programChecked (usedBank s) s then appFails 7 none s
  else { s with power := { s.power with loadStep := .p0 } }

theorem startChecks_of_sysOk {s : State} (h : sysOk s = true) : startChecks s = bankChecks s := by
  simp only [sysOk, Bool.and_eq_true, Option.isNone_iff_eq_none] at h
  obtain ⟨⟨⟨hformat, hsigned⟩, hissue⟩, hparts⟩ := h
  unfold startChecks
  simp only [hformat, hsigned, hissue, Bool.not_true, Bool.false_eq_true, or_self, if_false, hparts]
  rfl

theorem sysFails_inSafeService (part : Option Nat) {s : State} (h : s.power.state = .bringUp) (haccept : s.upd.accepting = false) :
    Safety.inSafeService 1 (sysFails part s) := by
  cases part with
  | some p =>
    rw [sysFails_of_not_accepting haccept]
    exact safeService_inSafeService (by decide) p h
  | none =>
    have hfree : sysFails none s = safeServiceFree 1 s := if_neg (by simp [haccept])
    rw [hfree]
    exact safeService_inSafeService (by decide) _ (s := drawn s) h

theorem sysFails_dead (part : Option Nat) {s : State} (haccept : s.upd.accepting = true) : (sysFails part s).power.state = .dead := by
  have hdead : sysFails part s = goDead 6 part s := if_pos haccept
  rw [hdead]
  exact goDead_state ..

/-! ### MANIFESTS_VERIFIED -/

/-- The service of the first load step, with the test word of an acceptance start. -/
def startServed (s : State) : State := if s.upd.accepting then journalTestWord (serviceUp s) else serviceUp s

/-- The state in which the manifests are verified. -/
def startReady (s : State) : State := rewriteTable { startServed s with
  mgt := { (startServed s).mgt with testedSet := BitVec.ofNat 32 (manSet (startServed s).upd.manifest) } }

theorem rewriteTable_changes (s : State) : Changes [.saf, .mram] s (rewriteTable s) := by
  unfold rewriteTable
  dsimp only
  split
  · exact .ite ((mramWrite_changes ..).mono.trans (judgeTable_changes _)) (.refl _ s)
  · exact .refl _ s

theorem startServed_changes (s : State) : Changes (.mram :: .saf :: serviceParts ++ bookParts) s (startServed s) := by
  have hserved : Changes (.mram :: .saf :: serviceParts ++ bookParts) s (serviceUp s) := (serviceUp_changes s).mono
  refine .ite ?_ hserved
  unfold journalTestWord
  exact (hserved.trans (drawn_changes _)).trans (mramWrite_changes ..)

theorem startReady_changes (s : State) : Changes (.testedSet :: .mram :: .saf :: serviceParts ++ bookParts) s (startReady s) :=
  (((startServed_changes s).mono (qs := .testedSet :: .mram :: .saf :: serviceParts ++ bookParts)).also [.testedSet]).trans
    (rewriteTable_changes _)

theorem startReady_mgt (s : State) : (startReady s).mgt = { s.mgt with testedSet := BitVec.ofNat 32 (manSet s.upd.manifest) } := by
  have hserved := startServed_changes s
  rw [startReady, (rewriteTable_changes _).mgt]
  rw [hserved.mgt, hserved.upd]

theorem manifestsVerified_eq {s : State} (h : s.power.state = .bringUp) (hstep : s.power.loadStep = .manifests)
    (hjournal : s.upd.journal ≠ .patching) : manifestsVerified s = startChecks (startReady s) := if_pos ⟨h, hstep, hjournal⟩

theorem serviceUp_power (s : State) : (serviceUp s).power = (serviceOn s).power := by
  unfold serviceUp
  dsimp only
  split_ifs
  · rfl
  · exact (checkTable_changes _).power

theorem domainOn_power (d : Nat) (s : State) :
    (domainOn d s).power = { s.power with pdOn := (domainOn d s).power.pdOn, pdUs := (domainOn d s).power.pdUs } := by
  have hpower : (resetDomain d s).power = s.power := resetDomain_changes_power d s
  unfold domainOn
  split_ifs
  · rfl
  · dsimp only
    rw [hpower]

theorem serviceOn_power (s : State) : (serviceOn s).power = { s.power with
    pdOn := (serviceOn s).power.pdOn, driversOn := (serviceOn s).power.driversOn, pdUs := (serviceOn s).power.pdUs } := by
  unfold serviceOn
  dsimp only
  rw [domainOn_power 6]
  dsimp only
  rw [domainOn_power 5]

/-- PD5 and PD6 are on, and every other domain as it was. -/
theorem serviceOn_pdOn {s : State} (hmould : s.mld.mould = none) (hlocked : s.power.pdLocked = 0) :
    (serviceOn s).power.pdOn = s.power.pdOn ||| 0x060 := by
  have hen (u : State) (hu : u.mld = s.mld) (d : Nat) : domainEnabled u d = true := by simp [domainEnabled, mouldOf, hu, hmould]
  have hfive := domainOn5_changes s
  have hlockedFive : (domainOn 5 s).power.pdLocked = 0 := (And.right (hfive.get .pdTripped)).trans hlocked
  have h5 : (domainOn 5 s).power.pdOn.getLsbD 5 = true := domainOn_on (by decide) (hen s rfl 5) (by simp [hlocked])
  have h6 : (serviceOn s).power.pdOn.getLsbD 6 = true :=
    domainOn_on (s := { domainOn 5 s with power := { (domainOn 5 s).power with driversOn := true } }) (by decide)
      (hen _ (hfive.get .mld) 6) (by simp [hlockedFive])
  refine BitVec.eq_of_getLsbD_eq fun i hi => ?_
  rw [BitVec.getLsbD_or]
  by_cases hisix : i = 6
  · subst hisix
    rw [h6]
    simp
  · have hsix : (serviceOn s).power.pdOn.getLsbD i = (domainOn 5 s).power.pdOn.getLsbD i := domainOn_pdOn_ne (by decide) hisix _
    rw [hsix]
    by_cases hifive : i = 5
    · subst hifive
      rw [h5]
      simp
    · rw [domainOn_pdOn_ne (by decide) hifive]
      have hbit : (0x060 : BitVec 12).getLsbD i = false :=
        (show ∀ j < 12, j ≠ 6 → j ≠ 5 → (0x060 : BitVec 12).getLsbD j = false by decide) i hi hisix hifive
      rw [hbit, Bool.or_false]

theorem startReady_power {s : State} (hmould : s.mld.mould = none) (hlocked : s.power.pdLocked = 0) :
    (startReady s).power = { s.power with pdOn := s.power.pdOn ||| 0x060, driversOn := true, pdUs := (startReady s).power.pdUs } := by
  have hserved : (startReady s).power = (serviceOn s).power := by
    rw [startReady, (rewriteTable_changes _).power]
    change (startServed s).power = _
    unfold startServed
    split_ifs
    · rw [journalTestWord, (mramWrite_changes ..).power]
      exact serviceUp_power s
    · exact serviceUp_power s
  have hon := serviceOn_pdOn hmould hlocked
  have hdrivers : (serviceOn s).power.driversOn = true := And.left (And.right (serviceOn_shows (by simp [hlocked])))
  rw [hserved, ← hon, ← hdrivers]
  exact serviceOn_power s

/-- What each check of the manifests leads to. -/
structure ChecksDone (u t : State) : Prop where
  passed : sysOk u = true → (u.upd.pending && !u.upd.inUse) = false → appManifestOk (usedBank u) u = true →
    manSet (bankManifest (usedBank u) u) = manSet u.upd.manifest → programChecked (usedBank u) u = true →
    t = { u with power := { u.power with loadStep := .p0 } }
  sysFailed : sysOk u = false → u.upd.accepting = false → Safety.inSafeService 1 t
  sysDead : sysOk u = false → u.upd.accepting = true → t.power.state = .dead
  spent : sysOk u = true → (u.upd.pending && !u.upd.inUse) = true → Safety.inSafeService 9 t
  manifest : sysOk u = true → (u.upd.pending && !u.upd.inUse) = false → appManifestOk (usedBank u) u = false →
    Safety.inSafeService (if u.upd.inUse then 9 else 2) t
  testedSet : sysOk u = true → (u.upd.pending && !u.upd.inUse) = false → appManifestOk (usedBank u) u = true →
    manSet (bankManifest (usedBank u) u) ≠ manSet u.upd.manifest → Safety.inSafeService (if u.upd.inUse then 9 else 1) t
  program : sysOk u = true → (u.upd.pending && !u.upd.inUse) = false → appManifestOk (usedBank u) u = true →
    manSet (bankManifest (usedBank u) u) = manSet u.upd.manifest → programChecked (usedBank u) u = false →
    Safety.inSafeService (if u.upd.inUse then 9 else 7) t

theorem startChecks_done {u : State} (h : u.power.state = .bringUp) : ChecksDone u (startChecks u) where
  passed hsys hspent hman hset hprog := by
    rw [startChecks_of_sysOk hsys, bankChecks, if_neg (by simpa using hspent), if_neg (by simp [hman]), if_neg (by simp [hset]),
      if_neg (by simp [hprog])]
  sysFailed hsys haccept := by
    rw [startChecks_of_sysBad hsys]
    exact sysFails_inSafeService _ h haccept
  sysDead hsys haccept := by
    rw [startChecks_of_sysBad hsys]
    exact sysFails_dead _ haccept
  spent hsys hspent := by
    rw [startChecks_of_sysOk hsys, bankChecks, if_pos (by simpa using hspent)]
    exact rejectBank_inSafeService none h
  manifest hsys hspent hman := by
    have hchecks : bankChecks u = appFails 2 (some 2) u := by
      rw [bankChecks, if_neg (by simpa using hspent), if_pos (by simp [hman])]
    rw [startChecks_of_sysOk hsys, hchecks]
    exact appFails_inSafeService (by decide) _ h
  testedSet hsys hspent hman hset := by
    have hchecks : bankChecks u = appFails 1 (some 8) u := by
      rw [bankChecks, if_neg (by simpa using hspent), if_neg (by simp [hman]), if_pos hset]
    rw [startChecks_of_sysOk hsys, hchecks]
    exact appFails_inSafeService (by decide) _ h
  program hsys hspent hman hset hprog := by
    have hchecks : bankChecks u = appFails 7 none u := by
      rw [bankChecks, if_neg (by simpa using hspent), if_neg (by simp [hman]), if_neg (by simp [hset]), if_pos (by simp [hprog])]
    rw [startChecks_of_sysOk hsys, hchecks]
    exact appFails_inSafeService (by decide) _ h

/-! ### A Mould pressed (R103 to R105) -/

theorem restoreAtStart_changes (s : State) : Changes (.img :: .lapRest :: .ctxRest :: bookParts) s (restoreAtStart s) := by
  have hrestored : Changes (.img :: .lapRest :: .ctxRest :: bookParts) s (restoreRetentive s) := (restoreRetentive_changes s).mono
  unfold restoreAtStart
  dsimp only
  exact .ite ((hrestored.also [.lapRest, .ctxRest]).trans (sj_changes ..)) (hrestored.also [.lapRest, .ctxRest])

theorem pressQueues_changes (m : Mould) (s : State) : Changes [.rings, .layout, .poolRest] s (pressQueues m s) := by
  unfold pressQueues
  dsimp only
  exact .of

theorem moveEarly_changes (s : State) : Changes bookParts s (moveEarly s) := by
  unfold moveEarly
  have htaken := takeAll_changes 4096 14 s
  generalize takeAll 4096 14 s = r at htaken ⊢
  exact htaken.join (.foldl (fun u x => (dataWrite_changes ..).mono.join (push_changes ..)) _ _)

theorem pressIomap_changes (m : Mould) (s : State) : Changes [.dioc] s (pressIomap m s) := by
  unfold pressIomap
  exact .of

theorem showReflex_changes (r : MouldRest) (s : State) : Changes [.rfx] s (showReflex r s) := by
  unfold showReflex
  exact .of

/-- PANEL pressed into a locked panel that never locks unlocks it (R420). -/
theorem pressPanel_changes (r : MouldRest) (s : State) : Changes [.keys, .locked] s (pressPanel r s) := by
  unfold pressPanel
  exact .of

/-- The Mould named, with the regions that it uses. -/
def mouldNamed (m : Mould) (r : MouldRest) (s : State) : State := { s with mld := { s.mld with
    mould := some (m, r), regions := (List.range 4).map fun k => if regionUsed m r k then 1 else 0 } }

/-- The domains, the retained data and the rings as the Mould has them. -/
def mouldQueued (m : Mould) (r : MouldRest) (s : State) : State :=
  moveEarly (pressQueues m (restoreAtStart (if m.power.getLsbD 0 then mouldNamed m r s else domainOff 6 (mouldNamed m r s))))

theorem pressMould_eq (m : Mould) (r : MouldRest) (s : State) : pressMould m r s =
    showMould m (pressPanel r (showReflex r (pressTerms [0, 1, 2, 3] m (pressIomap m (mouldQueued m r s))))) := rfl

/-- What a pressed Mould changes but the Mould, its terminations and its inputs and outputs. -/
def pressParts : List Part := .img :: .lapRest :: .ctxRest :: .layout :: .poolRest :: offParts

theorem mouldQueued_changes (m : Mould) (r : MouldRest) (s : State) : Changes pressParts (mouldNamed m r s) (mouldQueued m r s) := by
  have hoff : Changes pressParts (mouldNamed m r s) (if m.power.getLsbD 0 then mouldNamed m r s else domainOff 6 (mouldNamed m r s)) :=
    .ite (.refl _ _) (domainOff_changes ..).mono
  exact ((hoff.trans (restoreAtStart_changes _)).trans (pressQueues_changes m _)).trans (moveEarly_changes _)

theorem pressTerms_term (m : Mould) (s : State) (p : Fin 4) : (lbOf (pressTerms [0, 1, 2, 3] m s) p).term = m.term.getLsbD p := by
  have hone (q : Fin 4) (u : State) : (lbOf (modLb q (fun b => { b with term := m.term.getLsbD q }) u) p).term =
      if p = q then m.term.getLsbD q else (lbOf u p).term := by
    rw [lbOf_modLb]
    split_ifs
    · rfl
    · rfl
  change (lbOf (modLb (3 : Fin 4) (fun b => { b with term := m.term.getLsbD (3 : Fin 4) })
    (modLb (2 : Fin 4) (fun b => { b with term := m.term.getLsbD (2 : Fin 4) })
    (modLb (1 : Fin 4) (fun b => { b with term := m.term.getLsbD (1 : Fin 4) })
    (modLb (0 : Fin 4) (fun b => { b with term := m.term.getLsbD (0 : Fin 4) }) s)))) p).term = _
  rw [hone, hone, hone, hone]
  fin_cases p <;> rfl

theorem pressIomap_doPolicy (m : Mould) (s : State) (n : Fin 16) :
    (pressIomap m s).dioc.doPolicy.getLsbD n = (nth {} m.douts n).policy :=
  getLsbD_ofNat_maskOf _ n.isLt n.isLt

/-- A Mould pressed at a start. -/
structure Pressed (m : Mould) (r : MouldRest) (s t : State) : Prop where
  changes : Changes (.mld :: .lb :: .dioc :: .rfx :: .keys :: .locked :: pressParts) s t
  mould : t.mld.mould = some (m, r)
  build : t.mld.build = m.build
  hash : t.mld.hash = m.digest
  term : ∀ p : Fin 4, (lbOf t p).term = m.term.getLsbD p
  trgPull : t.dioc.trgPull = m.trgPull
  doPolicy : ∀ n : Fin 16, t.dioc.doPolicy.getLsbD n = (nth {} m.douts n).policy

theorem pressMould_pressed (m : Mould) (r : MouldRest) (s : State) : Pressed m r s (pressMould m r s) := by
  have hnamed : Changes [.mld] s (mouldNamed m r s) := by
    unfold mouldNamed
    exact .of
  have hqueued := mouldQueued_changes m r s
  have hmld : (mouldQueued m r s).mld = (mouldNamed m r s).mld := hqueued.get .mld
  rw [pressMould_eq]
  generalize mouldQueued m r s = u at hqueued hmld ⊢
  have hpolicy := pressIomap_doPolicy m u
  have hio := pressIomap_changes m u
  have hpull : (pressIomap m u).dioc.trgPull = m.trgPull := rfl
  generalize pressIomap m u = v at hpolicy hio hpull ⊢
  have hterm := pressTerms_term m v
  have hterms := pressTerms_changes [0, 1, 2, 3] m v
  generalize pressTerms [0, 1, 2, 3] m v = w at hterm hterms ⊢
  have hpanel : Changes [.rfx, .keys, .locked] w (pressPanel r (showReflex r w)) := (showReflex_changes r w).mono.trans (pressPanel_changes r _)
  generalize pressPanel r (showReflex r w) = x at hpanel ⊢
  have hshown : Changes [.mld] x (showMould m x) := by
    unfold showMould
    exact .of
  have hlater : Changes [.lb, .rfx, .keys, .locked, .mld] v (showMould m x) := (hterms.mono.trans hpanel).trans hshown
  have hdioc : (showMould m x).dioc = v.dioc := hlater.get .dioc
  have hx : x.mld = (mouldNamed m r s).mld := (hpanel.get .mld).trans ((hterms.get .mld).trans ((hio.get .mld).trans hmld))
  refine ⟨?_, congrArg Mld.mould hx, rfl, rfl, fun p => ?_, by rw [hdioc, hpull], fun n => by rw [hdioc, hpolicy]⟩
  · exact ((hnamed.mono.trans hqueued).trans hio).trans hlater
  · have hlb : x.lb = w.lb := hpanel.get .lb
    change (lbOf x p).term = _
    rw [lbOf_congr hlb, hterm]

/-! ### A start that the Mould fails (R102, R105) -/

/-- SAFE SERVICE ends a re-press, and leaves the rest of the Mould. -/
theorem enterSafe_mld (cause detail : Nat) (s : State) : (enterSafe cause detail s).mld = { s.mld with repress := none } := by
  rw [(enterSafe_tail cause detail s).get .mld]
  change { (safeServed s).mld with repress := none } = _
  rw [(safeServed_changes s).get .mld, (safeStopped_changes s).get .mld]

/-- A start ended in SAFE SERVICE, with what it leaves of the Mould, the panel and the terminations. -/
structure StartEnded (s t : State) : Prop where
  state : t.power.state = .safeService
  mld : t.mld = { s.mld with repress := none }
  locked : t.pan.locked = s.pan.locked
  lb : t.lb = s.lb

theorem safeService_ended {cause : Nat} (hcause : 0 < cause ∧ cause ≤ 10) (detail : Nat) {s u : State} (h : s.power.state = .bringUp)
    (hsaid : Changes (.updRest :: bookParts) s u) : StartEnded s (safeService cause detail u) := by
  have hstate : u.power.state = .bringUp := (hsaid.get .opState).trans h
  have hsafe := safeService_changes cause detail hstate
  refine ⟨(safeService_inSafeService hcause detail hstate).1, ?_, (hsafe.get .locked).trans (hsaid.get .locked),
    (hsafe.get .lb).trans (hsaid.get .lb)⟩
  rw [safeService_of_entry (.inl hstate), enterSafe_mld, hsaid.get .mld]

theorem appFails_ended {cause code : Nat} (hcause : 0 < cause ∧ cause ≤ 10) {s : State} (h : s.power.state = .bringUp) :
    StartEnded s (appFails cause (some code) s) := by
  unfold appFails
  by_cases huse : s.upd.inUse = true
  · rw [if_pos huse, rejectBank_eq]
    generalize (some code).getD (freeWord s).toNat = c
    exact safeService_ended (by decide) c h ((bankDropped_changes (some code) s).trans (sj_changes ..))
  · rw [if_neg huse]
    exact safeService_ended hcause code h (.refl _ s)

theorem mouldInvalid_changes (f : MouldFail) (via : Nat) (s : State) : Changes (.mld :: bookParts) s (mouldInvalid f via s) := by
  unfold mouldInvalid
  exact ((Changes.refl _ s).also [.mld]).trans (sj_changes ..)

theorem mouldInvalid_mld (f : MouldFail) (via : Nat) (s : State) : (mouldInvalid f via s).mld = { s.mld with
    lastCode := BitVec.ofNat 8 f.code, failSection := BitVec.ofNat 16 f.sect, failOffset := BitVec.ofNat 16 (min 65535 f.off) } := by
  unfold mouldInvalid
  exact (sj_changes ..).get .mld

/-- A Mould without its panel section leaves the panel locked (R423). -/
theorem panelBare_of_none {s : State} (h : restOf s = none) : (panelBare s).pan.locked = true := by
  unfold panelBare
  by_cases hlocked : s.pan.locked = true
  · rw [if_neg (by simp [hlocked]), hlocked]
  · rw [if_pos ⟨by simp [h], by simpa using hlocked⟩]
    exact lockPanel_locked ..

/-! ### The obligation -/

/-- A pressed Mould whose region fails its readback. -/
def readbackFailed (k : Nat) (m : Mould) (r : MouldRest) (s : State) : State :=
  setRegion k 4 { pressMould m r s with mld := { (pressMould m r s).mld with mould := none } }

theorem readbackFailed_changes (k : Nat) (m : Mould) (r : MouldRest) (s : State) :
    Changes [.mld] (pressMould m r s) (readbackFailed k m r s) := by
  unfold readbackFailed setRegion
  exact .of

/-- A Mould pressed, P4 to be loaded. -/
def mouldStepped (m : Mould) (r : MouldRest) (s : State) : State :=
  { pressMould m r s with power := { (pressMould m r s).power with loadStep := .p4 } }

/-- A Mould pressed and shown (R103). -/
def mouldShown (m : Mould) (r : MouldRest) (s : State) : State :=
  sj 0x120 0 (m.digest.take 8 ++ item m.build.toNat ++ item (b2n (usedBank s))) (mouldStepped m r s)

theorem mouldPressed_of_error {bad : Option Nat} {f : MouldFail} {s : State} (h : s.power.state = .bringUp) (hstep : s.power.loadStep = .mould)
    (hf : mouldValidate (mouldCtx (usedBank s) none s) = .error f) :
    mouldPressed bad s = appFails 2 (some f.code) (mouldInvalid f 3 s) := by
  unfold mouldPressed
  rw [if_pos ⟨h, hstep⟩, hf]

theorem mouldPressed_of_ok {bad : Option Nat} {m : Mould} {r : MouldRest} {s : State} (h : s.power.state = .bringUp)
    (hstep : s.power.loadStep = .mould) (hok : mouldValidate (mouldCtx (usedBank s) none s) = .ok (m, r))
    (hnone : bad.filter (fun k => regionUsed m r k) = none) : mouldPressed bad s = mouldShown m r s := by
  unfold mouldPressed
  rw [if_pos ⟨h, hstep⟩, hok]
  dsimp only
  rw [hnone]
  rfl

theorem mouldPressed_of_bad {bad : Option Nat} {k : Nat} {m : Mould} {r : MouldRest} {s : State} (h : s.power.state = .bringUp)
    (hstep : s.power.loadStep = .mould) (hok : mouldValidate (mouldCtx (usedBank s) none s) = .ok (m, r))
    (hbad : bad.filter (fun k => regionUsed m r k) = some k) : mouldPressed bad s =
      appFails 2 (some 13) (mouldInvalid { code := 13, sect := regionSect k } 3 (panelBare (readbackFailed k m r s))) := by
  unfold mouldPressed
  rw [if_pos ⟨h, hstep⟩, hok]
  dsimp only
  rw [hbad]
  rfl

theorem mouldShown_shows (m : Mould) (r : MouldRest) {s : State} (h : s.power.state = .bringUp) :
    (mouldShown m r s).power.state = .bringUp ∧ (mouldShown m r s).power.loadStep = .p4 ∧
      (mouldShown m r s).mld.mould = some (m, r) ∧ (∀ p : Fin 4, (lbOf (mouldShown m r s) p).term = m.term.getLsbD p) ∧
      (mouldShown m r s).mld.build = m.build ∧ (mouldShown m r s).mld.hash = m.digest ∧ (mouldShown m r s).dioc.trgPull = m.trgPull ∧
      (∀ n : Fin 16, (mouldShown m r s).dioc.doPolicy.getLsbD n = (nth {} m.douts n).policy) ∧
      Safety.journals 0x120 0 (m.digest.take 8 ++ item m.build.toNat ++ item (b2n (usedBank s))) s (mouldShown m r s) := by
  obtain ⟨hchanges, hmould, hbuild, hhash, hterm, hpull, hpolicy⟩ := pressMould_pressed m r s
  have hset : Changes [.start] (pressMould m r s) (mouldStepped m r s) := by
    unfold mouldStepped
    exact .of
  have hload : (mouldStepped m r s).power.loadStep = .p4 := rfl
  have hstepped := (hchanges.mono (qs := .start :: .mld :: .lb :: .dioc :: .rfx :: .keys :: .locked :: pressParts)).trans hset
  have hmld : (mouldStepped m r s).mld = (pressMould m r s).mld := hset.get .mld
  have hdioc : (mouldStepped m r s).dioc = (pressMould m r s).dioc := hset.get .dioc
  have hlb : (mouldStepped m r s).lb = (pressMould m r s).lb := hset.get .lb
  unfold mouldShown
  generalize mouldStepped m r s = u at hload hstepped hmld hdioc hlb ⊢
  have hsaid := sj_changes 0x120 0 (m.digest.take 8 ++ item m.build.toNat ++ item (b2n (usedBank s))) u
  have hjournals : Safety.journals 0x120 0 (m.digest.take 8 ++ item m.build.toNat ++ item (b2n (usedBank s))) s
      (sj 0x120 0 (m.digest.take 8 ++ item m.build.toNat ++ item (b2n (usedBank s))) u) :=
    Safety.journals_of_sj (hstepped.get .sjGrows) (List.prefix_refl _) (by rw [opMs, opMs, hstepped.get .opUs]) (hstepped.get .pwrCycles)
  generalize sj 0x120 0 (m.digest.take 8 ++ item m.build.toNat ++ item (b2n (usedBank s))) u = t at hsaid hjournals ⊢
  obtain ⟨_, _, _, _, hstep, _⟩ := hsaid.get .start
  have htmld : t.mld = (pressMould m r s).mld := (hsaid.get .mld).trans hmld
  have htdioc : t.dioc = (pressMould m r s).dioc := (hsaid.get .dioc).trans hdioc
  have htlb : t.lb = (pressMould m r s).lb := (hsaid.get .lb).trans hlb
  refine ⟨(hsaid.get .opState).trans ((hstepped.get .opState).trans h), hstep.trans hload, by rw [htmld, hmould], fun p => ?_,
    by rw [htmld, hbuild], by rw [htmld, hhash], by rw [htdioc, hpull], fun n => by rw [htdioc, hpolicy], hjournals⟩
  rw [lbOf_congr htlb, hterm]

theorem mouldBad_shows (k : Nat) (m : Mould) (r : MouldRest) {s : State} (h : s.power.state = .bringUp) :
    let t := appFails 2 (some 13) (mouldInvalid { code := 13, sect := regionSect k } 3 (panelBare (readbackFailed k m r s)))
    t.power.state = .safeService ∧ t.mld.mould = none ∧ t.pan.locked = true ∧ ∀ p : Fin 4, (lbOf t p).term = m.term.getLsbD p := by
  obtain ⟨hchanges, -, -, -, hterm, -, -⟩ := pressMould_pressed m r s
  have hfailed := readbackFailed_changes k m r s
  have hmould : (readbackFailed k m r s).mld.mould = none := rfl
  have hstate : (readbackFailed k m r s).power.state = .bringUp := (hfailed.get .opState).trans ((hchanges.get .opState).trans h)
  have hlb : (readbackFailed k m r s).lb = (pressMould m r s).lb := hfailed.get .lb
  generalize readbackFailed k m r s = u at hmould hstate hlb ⊢
  have hlocked : (panelBare u).pan.locked = true := panelBare_of_none (by simp [restOf, hmould])
  have hbare := panelBare_changes u
  have hnoted := mouldInvalid_changes { code := 13, sect := regionSect k } 3 (panelBare u)
  have hmld := mouldInvalid_mld { code := 13, sect := regionSect k } 3 (panelBare u)
  have hended := appFails_ended (cause := 2) (code := 13) (by decide) ((hnoted.get .opState).trans ((hbare.get .opState).trans hstate))
  intro t
  refine ⟨hended.state, ?_, ?_, fun p => ?_⟩
  · change t.mld.mould = none
    rw [hended.mld, hmld, hbare.get .mld]
    exact hmould
  · rw [hended.locked, hnoted.get .locked, hlocked]
  · rw [lbOf_congr (hended.lb.trans ((hnoted.get .lb).trans ((hbare.get .lb).trans hlb))), hterm]

/-- Settles O22: the manifests verified at the first load step, and the Mould pressed at its own. -/
theorem manifestsAndMouldAreCheckedAndPressed : Obligations.ManifestsAndMouldAreCheckedAndPressed := by
  unfold Obligations.ManifestsAndMouldAreCheckedAndPressed
  refine ⟨fun s => ⟨fun hnot => ?_, fun h hstep hjournal hmould hlocked => ?_⟩, fun k s => ⟨fun hnot => ?_, fun h hstep => ?_⟩⟩
  · refine congrArg Host.Outcome.next (if_neg fun hall => ?_)
    obtain ⟨hstate, hstep, hjournal⟩ := hall
    rcases hnot with hno | hno | hno
    · exact hno hstate
    · exact hno hstep
    · exact hjournal hno
  · have hready := startReady_changes s
    have hpower := startReady_power hmould hlocked
    have hmgt := startReady_mgt s
    have hupd : (startReady s).upd = s.upd := hready.upd
    refine ⟨startReady s, startChecks (startReady s), congrArg Host.Outcome.next (manifestsVerified_eq h hstep hjournal), hpower, hupd,
      hready.get .flash, hmgt, hready.get .mld, hready.lap, ?_⟩
    have hdone := startChecks_done (u := startReady s) ((hready.get .opState).trans h)
    rw [← hupd]
    exact ⟨hdone.passed, hdone.sysFailed, hdone.sysDead, hdone.spent, hdone.manifest, hdone.testedSet, hdone.program⟩
  · refine congrArg Host.Outcome.next (if_neg fun hboth => ?_)
    rcases hnot with hno | hno
    · exact hno hboth.1
    · exact hno hboth.2
  · refine ⟨mouldPressed (k.map Fin.val) s, rfl, fun m r hok => ⟨fun hnone => ?_, fun j hj hused => ?_⟩, fun f hf => ?_⟩
    · rw [mouldPressed_of_ok h hstep hok (by
        cases k with
        | none => rfl
        | some j => simp [hnone j rfl])]
      exact mouldShown_shows m r h
    · rw [mouldPressed_of_bad (k := j.val) h hstep hok (by simp [hj, hused])]
      exact mouldBad_shows j m r h
    · have hnoted := mouldInvalid_changes f 3 s
      have hended := appFails_ended (cause := 2) (code := f.code) (by decide) ((hnoted.get .opState).trans h)
      rw [mouldPressed_of_error h hstep hf]
      refine ⟨hended.state, ?_⟩
      rw [hended.mld, mouldInvalid_mld]

end
end Sys2Proof.Machine
end

section
/-! SUPPORT. Metering's arithmetic, and where its records stand in MRAM (R265, R269, R270, R273). -/

namespace Sys2Proof.Machine

section
set_option Elab.async false

/-! ### Scaled values (R50, R265, R266) -/

/-- A whole number next to a ratio, above it or below. -/
theorem scaled_near_div (n : Int) {d : Nat} (hd : 0 < d) (up : Bool) :
    ((if n % (d : Int) = 0 then n / (d : Int) else if up then n / (d : Int) + 1 else n / (d : Int)) * (d : Int) - n).natAbs < d := by
  have hsplit := Int.emod_add_mul_ediv n d
  have hlow := Int.emod_nonneg n (b := (d : Int)) (by omega)
  have hhigh := Int.emod_lt_of_pos n (b := (d : Int)) (by omega)
  rw [Int.mul_comm] at hsplit
  split_ifs
  · omega
  · rw [Int.add_mul]
    omega
  · omega

/-- A scaled value is exact to less than one unit (log 14). -/
theorem scaled_near (num e : Int) {den : Nat} (hden : 0 < den) :
    if 0 ≤ e then (scaled num e den * den - num * 2 ^ e.toNat).natAbs < den
    else (scaled num e den * (den * 2 ^ (-e).toNat) - num).natAbs < den * 2 ^ (-e).toNat := by
  by_cases he : 0 ≤ e
  · rw [if_pos he, scaled, if_pos he, if_pos he]
    exact scaled_near_div (num * 2 ^ e.toNat) hden _
  · rw [if_neg he, scaled, if_neg he, if_neg he]
    have hnear := scaled_near_div num (d := den * 2 ^ (-e).toNat) (Nat.mul_pos hden (Nat.two_pow_pos _))
      (Config.roundUp num (den * 2 ^ (-e).toNat))
    push_cast at hnear ⊢
    exact hnear

/-! ### The sums of a tick (R265) -/

/-- Σ of a value over the samples of a tick. -/
def tickTotal (tick : TickSamples) (f : SampleRun → Int) : Int := (tick.runs.map fun r => (r.count : Int) * f r).sum

theorem tickSums_foldl (runs : List SampleRun) (t : TickSums) : runs.foldl addRun t =
    { n := t.n + (runs.map SampleRun.count).sum, dur := t.dur + (runs.map SampleRun.count).sum
      vi0 := t.vi0 + (runs.map fun r => (r.count : Int) * pairOf r.a.c0 r.a.c1).sum
      vi1 := t.vi1 + (runs.map fun r => (r.count : Int) * pairOf r.a.c2 r.a.c3).sum
      vi2 := t.vi2 + (runs.map fun r => (r.count : Int) * pairOf r.b.c0 r.b.c1).sum
      batt := t.batt + (runs.map fun r => (r.count : Int) * aiCode r.b.c2).sum } := by
  induction runs generalizing t with
  | nil => simp
  | cons r runs ih =>
    rw [List.foldl_cons, ih, addRun]
    simp only [List.map_cons, List.sum_cons, Nat.add_assoc, Int.add_assoc]

theorem tickSums_eq (tick : TickSamples) : tickSums tick =
    { n := tick.count, dur := tick.count
      vi0 := tickTotal tick fun r => pairOf r.a.c0 r.a.c1, vi1 := tickTotal tick fun r => pairOf r.a.c2 r.a.c3
      vi2 := tickTotal tick fun r => pairOf r.b.c0 r.b.c1, batt := tickTotal tick fun r => aiCode r.b.c2 } := by
  rw [tickSums, tickSums_foldl]
  simp [tickTotal, TickSamples.count]

/-! ### Fields of a record -/

/-- A field that stands before what is appended. -/
theorem leAt_before {xs ys : Bytes} {a n : Nat} (h : a + n ≤ xs.length) : leAt (xs ++ ys) a n = leAt xs a n := by
  rw [leAt, leAt, slice, slice, List.drop_append_of_le_length (by omega), List.take_append_of_le_length (by rw [List.length_drop]; omega)]

/-- A field that ends a record. -/
theorem leAt_last {xs : Bytes} {a n v : Nat} (h : xs.length = a) : leAt (xs ++ leBytes n v) a n = v % 256 ^ n := by
  rw [leAt_skip (Nat.le_of_eq h), h, Nat.sub_self, leAt_leBytes]

@[simp] theorem timeBytes_length (t : Time) : (timeBytes t).length = 8 := by simp [timeBytes]

theorem slice_before {xs ys : Bytes} {a n : Nat} (h : a + n ≤ xs.length) : slice (xs ++ ys) a n = slice xs a n := by
  rw [slice, slice, List.drop_append_of_le_length (by omega), List.take_append_of_le_length (by rw [List.length_drop]; omega)]

theorem slice_last {xs ys : Bytes} {a n : Nat} (h : xs.length = a) (hn : ys.length = n) : slice (xs ++ ys) a n = ys := by
  rw [slice_append_skip (Nat.le_of_eq h), h, Nat.sub_self, ← hn]
  have hhead := slice_append_head ys []
  rwa [List.append_nil] at hhead

/-- The fields of an interval record (R270). -/
structure IntervalFields (flags : Byte) (tariff : Nat) (i : Interval) (count demand : Nat) (r : Bytes) : Prop where
  flags : leAt r 2 1 = flags.toNat
  tariff : leAt r 3 1 = tariff % 256
  time : slice r 4 8 = timeBytes i.rtc
  duration : leAt r 18 4 = i.durMs % 2 ^ 32
  count : leAt r 22 2 = count % 2 ^ 16
  eImp : leAt r 24 8 = i.eImp / 1000 % 2 ^ 64
  eExp : leAt r 32 8 = i.eExp / 1000 % 2 ^ 64
  demand : leAt r 40 4 = demand % 2 ^ 32

theorem intervalBytes_length (flags : Byte) (tariff : Nat) (i : Interval) (count demand : Nat) (s : State) :
    (intervalBytes flags tariff i count demand s).length = 64 := by
  simp [intervalBytes, withCrcLe, zeros]

theorem intervalBytes_fields (flags : Byte) (tariff : Nat) (i : Interval) (count demand : Nat) (s : State) :
    IntervalFields flags tariff i count demand (intervalBytes flags tariff i count demand s) := by
  unfold intervalBytes withCrcLe
  constructor
  case flags =>
    simp only [List.append_assoc, List.singleton_append, leAt_skip_leBytes (Nat.le_refl 2), Nat.sub_self, leAt_one]
    rfl
  case time =>
    simp only [List.append_assoc]
    rw [slice_append_skip (by simp), slice_append_skip (by simp), slice_append_skip (by simp)]
    simp only [leBytes_length, List.length_singleton, Nat.reduceSub]
    rw [slice_before (by simp)]
    exact slice_last (xs := []) rfl (timeBytes_length _)
  all_goals
    simp only [timeBytes, List.append_assoc, List.cons_append, List.nil_append, leAt_skip_leBytes, leAt_skip_cons, leAt_leBytes_append, Nat.reduceLeDiff,
      Nat.reduceSub, Nat.reducePow]

/-! ### The snapshot's fields (R273) -/

@[simp] theorem runBytes_length (i : Interval) : (runBytes i).length = 48 := by simp [runBytes]

/-- Equal fields, one behind another. -/
theorem leAt_flatMap {f : Nat → Nat} {n w k : Nat} (hk : k < n) (ys : Bytes) :
    leAt ((List.range n).flatMap (fun j => leBytes w (f j)) ++ ys) (w * k) w = f k % 256 ^ w := by
  have hlen (l : List Nat) : (l.flatMap fun j => leBytes w (f j)).length = w * l.length := by
    induction l with
    | nil => rfl
    | cons x xs ih => rw [List.flatMap_cons, List.length_append, ih, leBytes_length, List.length_cons, Nat.mul_succ, Nat.add_comm]
  have hsplit : List.range n = List.range k ++ k :: (List.range' (k + 1) (n - k - 1)) := by
    rw [List.range_eq_range', List.range_eq_range', ← List.range'_succ]
    have happend := List.range'_append_1 (s := 0) (m := k) (n := n - k - 1 + 1)
    rw [Nat.zero_add] at happend
    rw [happend, show k + (n - k - 1 + 1) = n by omega]
  rw [hsplit, List.flatMap_append, List.flatMap_cons, List.append_assoc, leAt_skip (by rw [hlen, List.length_range]), hlen,
    List.length_range, Nat.sub_self, List.append_assoc, leAt_leBytes_append]

theorem fields_length (w n : Nat) (f : Nat → Nat) : ((List.range n).flatMap fun j => leBytes w (f j)).length = w * n := by
  simp [List.length_flatMap, Nat.mul_comm]

theorem leAt_skip_fields {w n a m : Nat} {f : Nat → Nat} {ys : Bytes} (h : w * n ≤ a) :
    leAt ((List.range n).flatMap (fun j => leBytes w (f j)) ++ ys) a m = leAt ys (a - w * n) m := by
  rw [leAt_skip (by rw [fields_length]; exact h), fields_length]

/-- The fields of a snapshot, in the places of log 68. -/
structure SnapFields (n : Snapshot) (b : Bytes) : Prop where
  seq : leAt b 0 8 = n.seq % 2 ^ 64
  imp : ∀ k < 4, leAt b (8 + 12 * k) 12 = nth 0 n.imp k % 2 ^ 96
  exp : ∀ k < 4, leAt b (56 + 12 * k) 12 = nth 0 n.exp k % 2 ^ 96
  md : ∀ k < 4, leAt b (104 + 8 * k) 8 = nth 0 n.md k % 2 ^ 64
  chg : leAt b 136 12 = n.chg % 2 ^ 96
  dis : leAt b 148 12 = n.dis % 2 ^ 96
  tariff : leAt b 160 1 = n.tariff % 256
  crc : leAt b 228 4 = crc32c (b.take 228)

theorem snapBytes_length (n : Snapshot) : (snapBytes n).length = 232 := by
  simp [snapBytes, withCrcLe]

theorem snapBytes_fields (n : Snapshot) : SnapFields n (snapBytes n) := by
  have hcrc : leAt (snapBytes n) 228 4 = crc32c ((snapBytes n).take 228) := by
    unfold snapBytes
    rw [leAt_withCrcLe (by simp), withCrcLe, List.take_left' (by simp)]
  have hplaces (a m : Nat) (h : 8 ≤ a) : leAt (snapBytes n) a m =
      leAt ((List.range 4).flatMap (fun k => leBytes 12 (nth 0 n.imp k)) ++ ((List.range 4).flatMap (fun k => leBytes 12 (nth 0 n.exp k)) ++
        ((List.range 4).flatMap (fun k => leBytes 8 (nth 0 n.md k)) ++ (leBytes 12 n.chg ++ (leBytes 12 n.dis ++ (leBytes 1 n.tariff ++
          (runBytes n.run ++ (leBytes 4 n.iseq.toNat ++ (timeBytes n.rtc ++ (leBytes 6 n.optMs ++ (leBytes 1 (b2n n.osf) ++
            leBytes 4 (crc32c (leBytes 8 n.seq ++ ((List.range 4).flatMap fun k => leBytes 12 (nth 0 n.imp k)) ++
              ((List.range 4).flatMap fun k => leBytes 12 (nth 0 n.exp k)) ++ ((List.range 4).flatMap fun k => leBytes 8 (nth 0 n.md k)) ++
              leBytes 12 n.chg ++ leBytes 12 n.dis ++ leBytes 1 n.tariff ++ runBytes n.run ++ leBytes 4 n.iseq.toNat ++ timeBytes n.rtc ++
              leBytes 6 n.optMs ++ leBytes 1 (b2n n.osf)))))))))))))) (a - 8) m := by
    rw [snapBytes, withCrcLe]
    simp only [List.append_assoc]
    rw [leAt_skip_leBytes h]
  generalize leBytes 4 (crc32c _) = tail at hplaces
  constructor
  case seq =>
    rw [snapBytes, withCrcLe]
    simp only [List.append_assoc]
    rw [leAt_leBytes_append, show (256 : Nat) ^ 8 = 2 ^ 64 by decide]
  case imp =>
    intro k hk
    rw [hplaces _ _ (by omega), Nat.add_sub_cancel_left, leAt_flatMap (f := fun k => nth 0 n.imp k) hk,
      show (256 : Nat) ^ 12 = 2 ^ 96 by decide]
  case exp =>
    intro k hk
    rw [hplaces _ _ (by omega), leAt_skip_fields (f := fun k => nth 0 n.imp k) (by omega), show 56 + 12 * k - 8 - 12 * 4 = 12 * k by omega,
      leAt_flatMap (f := fun k => nth 0 n.exp k) hk, show (256 : Nat) ^ 12 = 2 ^ 96 by decide]
  case md =>
    intro k hk
    rw [hplaces _ _ (by omega), leAt_skip_fields (f := fun k => nth 0 n.imp k) (by omega),
      leAt_skip_fields (f := fun k => nth 0 n.exp k) (by omega), show 104 + 8 * k - 8 - 12 * 4 - 12 * 4 = 8 * k by omega,
      leAt_flatMap (f := fun k => nth 0 n.md k) hk, show (256 : Nat) ^ 8 = 2 ^ 64 by decide]
  case crc => exact hcrc
  all_goals
    rw [hplaces _ _ (by decide), leAt_skip_fields (f := fun k => nth 0 n.imp k) (by decide),
      leAt_skip_fields (f := fun k => nth 0 n.exp k) (by decide), leAt_skip_fields (f := fun k => nth 0 n.md k) (by decide)]
    simp only [leAt_skip_leBytes, leAt_leBytes_append, Nat.reduceLeDiff, Nat.reduceSub, Nat.reduceMul, Nat.reducePow]

end
end Sys2Proof.Machine
end

section
/-! SUPPORT. What each step of metering leaves of its counts and in MRAM (R267 to R275). -/

namespace Sys2Proof.Machine

section
set_option Elab.async false

/-- What the tariffs and intervals of metering leave: the counts, and MRAM before the interval log. -/
structure MeterRuns (s t : State) : Prop where
  changes : Changes meterParts s t
  counts : t.mtr = { s.mtr with
    tariff := t.mtr.tariff, interval := t.mtr.interval, md := t.mtr.md, logNext := t.mtr.logNext, logWraps := t.mtr.logWraps
    iseq := t.mtr.iseq, pendingSet := t.mtr.pendingSet }
  pending : t.mtr.pendingSet = true → s.mtr.pendingSet = true
  low : ∀ x < 0x380800, memGet 0 t.mram x = memGet 0 s.mram x

theorem MeterRuns.refl (s : State) : MeterRuns s s := ⟨.refl _ s, rfl, id, fun _ _ => rfl⟩

theorem MeterRuns.trans {s t u : State} (h : MeterRuns s t) (k : MeterRuns t u) : MeterRuns s u where
  changes := h.changes.join k.changes
  counts := by
    rw [k.counts, h.counts]
  pending hu := h.pending (k.pending hu)
  low x hx := (k.low x hx).trans (h.low x hx)

theorem MeterRuns.of_booked {s t : State} (h : Changes bookParts s t) : MeterRuns s t :=
  ⟨h.mono, by rw [h.mtr], fun hp => by rwa [h.mtr] at hp, fun x _ => by rw [h.get .mram]⟩

theorem MeterRuns.ite {p : Prop} [Decidable p] {s t u : State} (h : MeterRuns s t) (k : MeterRuns s u) :
    MeterRuns s (if p then t else u) := by
  split_ifs
  · exact h
  · exact k

/-! ### The interval log (R270) -/

/-- Where the next interval record goes. -/
def intervalSlot (s : State) : Nat := 0x380800 + 64 * s.mtr.logNext.toNat

/-- Metering with one more interval record. -/
def loggedMtr (s : State) : Mtr := { s.mtr with
  logNext := if s.mtr.logNext.toNat + 1 ≥ 992 then 0 else s.mtr.logNext + 1
  logWraps := if s.mtr.logNext.toNat + 1 ≥ 992 then satInc s.mtr.logWraps else s.mtr.logWraps
  iseq := s.mtr.iseq + 1 }

/-- An interval record in its slot, before its journal record. -/
def slotWritten (bs : Bytes) (s : State) : State := { mramWrite (intervalSlot s) bs s with mtr := loggedMtr s }

theorem logInterval_eq (flags : Byte) (tariff : Nat) (i : Interval) (count demand : Nat) (s : State) :
    logInterval flags tariff i count demand s =
      if flags &&& 12 ≠ 0 then sj 0x621 0 (item flags.toNat ++ item s.mtr.iseq.toNat ++ timeBytes i.rtc)
        (slotWritten (intervalBytes flags tariff i count demand s) s)
      else slotWritten (intervalBytes flags tariff i count demand s) s := by
  unfold logInterval slotWritten loggedMtr intervalSlot
  generalize intervalBytes flags tariff i count demand s = bs
  rfl

theorem slotWritten_changes (bs : Bytes) (s : State) : Changes meterParts s (slotWritten bs s) := by
  unfold slotWritten loggedMtr mramWrite
  exact .of

theorem slotWritten_runs (bs : Bytes) (s : State) : MeterRuns s (slotWritten bs s) where
  changes := slotWritten_changes bs s
  counts := rfl
  pending := id
  low x hx := by
    change memGet 0 (memWrite 0 mramSize s.mram (intervalSlot s) bs) x = _
    exact Safety.memGet_memWrite_outside _ _ _ _ _ _ (.inl (by unfold intervalSlot; omega))

theorem slotWritten_mram (bs : Bytes) (s : State) : (slotWritten bs s).mram = memWrite 0 mramSize s.mram (intervalSlot s) bs := rfl

theorem logInterval_runs (flags : Byte) (tariff : Nat) (i : Interval) (count demand : Nat) (s : State) :
    MeterRuns s (logInterval flags tariff i count demand s) := by
  rw [logInterval_eq]
  exact .ite ((slotWritten_runs ..).trans (.of_booked (sj_changes ..))) (slotWritten_runs ..)

theorem logInterval_mtr (flags : Byte) (tariff : Nat) (i : Interval) (count demand : Nat) (s : State) :
    (logInterval flags tariff i count demand s).mtr = loggedMtr s := by
  rw [logInterval_eq]
  split_ifs
  · exact (sj_changes ..).mtr
  · rfl

theorem logInterval_mram (flags : Byte) (tariff : Nat) (i : Interval) (count demand : Nat) (s : State) :
    (logInterval flags tariff i count demand s).mram =
      memWrite 0 mramSize s.mram (intervalSlot s) (intervalBytes flags tariff i count demand s) := by
  rw [logInterval_eq]
  split_ifs
  · rw [(sj_changes ..).get .mram, slotWritten_mram]
  · rw [slotWritten_mram]

/-- A record with PARTIAL or OUTAGE is said in the journal (R275). -/
theorem logInterval_said {flags : Byte} (hflags : flags &&& 12 ≠ 0) (tariff : Nat) (i : Interval) (count demand : Nat) (s : State) :
    Safety.journals 0x621 0 (item flags.toNat ++ item s.mtr.iseq.toNat ++ timeBytes i.rtc) s (logInterval flags tariff i count demand s) := by
  rw [logInterval_eq, if_pos hflags]
  have hwritten := slotWritten_changes (intervalBytes flags tariff i count demand s) s
  exact Safety.journals_of_sj (hwritten.get .sjGrows) (List.prefix_refl _) (by rw [opMs, opMs, hwritten.get .opUs]) (hwritten.get .pwrCycles)

/-- A slot that was just written reads so. -/
theorem slot_read {a : Nat} {bs : Bytes} {m : Mem} {t : State} (hwf : swf 0 mramSize m = true) (ha : a + 64 ≤ mramSize)
    (hlen : bs.length = 64) (ht : t.mram = memWrite 0 mramSize m a bs) : mramRead a 64 t = bs := by
  have hread := memRead_memWrite 0 mramSize m a bs hwf (by rw [hlen]; exact ha)
  rw [hlen] at hread
  rw [mramRead, ht, hread]

/-! ### The intervals (R269) -/

/-- The flags of the running interval as it closes. -/
def closedFlags (flags : Byte) (s : State) : Byte := s.mtr.interval.flags ||| flags ||| unverifiedNow s

/-- Is the demand of the running interval a new maximum? -/
def demandRises (flags : Byte) (s : State) : Prop :=
  demandCounts (closedFlags flags s) = true ∧ nth 0 s.mtr.md s.mtr.interval.tariff < demandOf s s.mtr.interval.eImp

/-- The record of the running interval as it closes. -/
def closedRecord (flags : Byte) (s : State) : Bytes :=
  intervalBytes (closedFlags flags s) s.mtr.interval.tariff { s.mtr.interval with durMs := s.mtr.interval.durMs / 1000 } 1
    (demandOf s s.mtr.interval.eImp) s

/-- The running interval in the log. -/
def intervalLogged (flags : Byte) (s : State) : State :=
  logInterval (closedFlags flags s) s.mtr.interval.tariff { s.mtr.interval with durMs := s.mtr.interval.durMs / 1000 } 1
    (demandOf s s.mtr.interval.eImp) s

/-- A new maximum demand. -/
def demandSet (tariff demand : Nat) (s : State) : State := { s with mtr := { s.mtr with md := setAt s.mtr.md tariff demand } }

theorem demandSet_runs (tariff demand : Nat) (s : State) : MeterRuns s (demandSet tariff demand s) := by
  have hset : Changes meterParts s (demandSet tariff demand s) := by
    unfold demandSet
    exact .of
  exact ⟨hset, rfl, id, fun _ _ => rfl⟩

/-- What says a new maximum demand. -/
def demandItems (s : State) : Bytes :=
  item s.mtr.interval.tariff ++ item (demandOf s s.mtr.interval.eImp) ++ item s.mtr.iseq.toNat

theorem closeInterval_eq (flags : Byte) (s : State) : closeInterval flags s =
    if demandCounts (closedFlags flags s) ∧ nth 0 s.mtr.md s.mtr.interval.tariff < demandOf s s.mtr.interval.eImp then
      tr 0x625 0 (demandItems s) (demandSet s.mtr.interval.tariff (demandOf s s.mtr.interval.eImp) (intervalLogged flags s))
    else intervalLogged flags s := rfl

/-- A trace record that its ring has room for waits to be written. -/
theorem tr_queued {code sev : Nat} {items : Bytes} {s u : State} (hring : ringGet u 3 = ringGet s 3)
    (hqueue : u.log.trQueue = s.log.trQueue) (hroom : ringFull (ringGet s 3) = false) :
    ∃ x ∈ (tr code sev items u).log.trQueue.drop s.log.trQueue.length, x.code = BitVec.ofNat 16 code ∧ x.items = items := by
  have hqueued := perform_tr_queued (s := u) 7 (recordOf code sev items 0 u) (by rw [hring]; exact hroom)
  rw [hqueue] at hqueued
  exact ⟨_, mem_drop_of_prefix hqueued, rfl, rfl⟩

/-- An interval closed, with its record in the log. -/
structure IntervalClosed (flags : Byte) (s t : State) : Prop where
  runs : MeterRuns s t
  mram : t.mram = memWrite 0 mramSize s.mram (intervalSlot s) (closedRecord flags s)
  same : ¬ demandRises flags s → t.mtr = loggedMtr s
  rises : demandRises flags s →
    t.mtr = { loggedMtr s with md := s.mtr.md.set s.mtr.interval.tariff (demandOf s s.mtr.interval.eImp) }
  said : closedFlags flags s &&& 12 ≠ 0 →
    Safety.journals 0x621 0 (item (closedFlags flags s).toNat ++ item s.mtr.iseq.toNat ++ timeBytes s.mtr.interval.rtc) s t
  traced : demandRises flags s → closedFlags flags s &&& 12 = 0 → ringFull (ringGet s 3) = false →
    ∃ x ∈ t.log.trQueue.drop s.log.trQueue.length, x.code = 0x625 ∧ x.items = demandItems s

theorem intervalLogged_quiet {flags : Byte} {s : State} (h : closedFlags flags s &&& 12 = 0) :
    intervalLogged flags s = slotWritten (closedRecord flags s) s := by
  rw [intervalLogged, logInterval_eq, if_neg (not_not.mpr h), closedRecord]

theorem slotWritten_queues (bs : Bytes) (s : State) : ringGet (slotWritten bs s) 3 = ringGet s 3 ∧
    (slotWritten bs s).log.trQueue = s.log.trQueue := ⟨rfl, rfl⟩

theorem closeInterval_closed (flags : Byte) (s : State) : IntervalClosed flags s (closeInterval flags s) := by
  have hruns : MeterRuns s (intervalLogged flags s) := logInterval_runs ..
  have hmtr : (intervalLogged flags s).mtr = loggedMtr s := logInterval_mtr ..
  have hmram : (intervalLogged flags s).mram = memWrite 0 mramSize s.mram (intervalSlot s) (closedRecord flags s) := by
    rw [intervalLogged, logInterval_mram, closedRecord]
  have hsaid (h : closedFlags flags s &&& 12 ≠ 0) : Safety.journals 0x621 0
      (item (closedFlags flags s).toNat ++ item s.mtr.iseq.toNat ++ timeBytes s.mtr.interval.rtc) s (intervalLogged flags s) := by
    have hlog := logInterval_said h s.mtr.interval.tariff { s.mtr.interval with durMs := s.mtr.interval.durMs / 1000 } 1
      (demandOf s s.mtr.interval.eImp) s
    dsimp only at hlog
    rw [intervalLogged]
    exact hlog
  have hquiet (h : closedFlags flags s &&& 12 = 0) : ringGet (intervalLogged flags s) 3 = ringGet s 3 ∧
      (intervalLogged flags s).log.trQueue = s.log.trQueue := by
    rw [intervalLogged_quiet h]
    exact slotWritten_queues (closedRecord flags s) s
  rw [closeInterval_eq]
  generalize intervalLogged flags s = u at hruns hmtr hmram hsaid hquiet ⊢
  by_cases hrise : demandCounts (closedFlags flags s) = true ∧ nth 0 s.mtr.md s.mtr.interval.tariff < demandOf s s.mtr.interval.eImp
  · rw [if_pos hrise]
    have hset := demandSet_runs s.mtr.interval.tariff (demandOf s s.mtr.interval.eImp) u
    have hsetMtr : (demandSet s.mtr.interval.tariff (demandOf s s.mtr.interval.eImp) u).mtr =
        { u.mtr with md := u.mtr.md.set s.mtr.interval.tariff (demandOf s s.mtr.interval.eImp) } := rfl
    have hsetMram : (demandSet s.mtr.interval.tariff (demandOf s s.mtr.interval.eImp) u).mram = u.mram := rfl
    have hsetRing : ringGet (demandSet s.mtr.interval.tariff (demandOf s s.mtr.interval.eImp) u) 3 = ringGet u 3 := rfl
    have hsetQueue : (demandSet s.mtr.interval.tariff (demandOf s s.mtr.interval.eImp) u).log.trQueue = u.log.trQueue := rfl
    generalize demandSet s.mtr.interval.tariff (demandOf s s.mtr.interval.eImp) u = v at hset hsetMtr hsetMram hsetRing hsetQueue ⊢
    have htraced := tr_changes 0x625 0 (demandItems s) v
    refine ⟨(hruns.trans hset).trans (.of_booked htraced), ?_, fun h => absurd hrise h, fun _ => ?_, fun h => ?_, fun _ hclear hroom => ?_⟩
    · rw [htraced.get .mram, hsetMram, hmram]
    · rw [htraced.mtr, hsetMtr, hmtr]
      rfl
    · exact Safety.journals_mono (hsaid h) ((hset.trans (.of_booked htraced)).changes.get .sjGrows)
    · obtain ⟨hring, hqueue⟩ := hquiet hclear
      exact tr_queued (hsetRing.trans hring) (hsetQueue.trans hqueue) hroom
  · rw [if_neg hrise]
    exact ⟨hruns, hmram, fun _ => hmtr, fun h => absurd h hrise, hsaid, fun h => absurd h hrise⟩

/-- The interval that begins now. -/
def freshInterval (flags : Byte) (s : State) : Interval :=
  { flags := flags ||| unverifiedNow s, tariff := s.mtr.tariff, rtc := s.rtc.time, optMs := opMs s, durMs := 0, eImp := 0, eExp := 0 }

theorem openInterval_eq (flags : Byte) (s : State) : openInterval flags s = { s with mtr := { s.mtr with interval := freshInterval flags s } } := rfl

theorem openInterval_runs (flags : Byte) (s : State) : MeterRuns s (openInterval flags s) :=
  ⟨openInterval_changes flags s, rfl, id, fun _ _ => rfl⟩

/-! ### Tariffs (R267, R269) -/

theorem meterW_runs (s : State) : MeterRuns s (meterW s) ∧ (meterW s).mtr = s.mtr ∧ (meterW s).mram = s.mram := by
  have hmtr : (meterW s).mtr = s.mtr := by
    unfold meterW
    split_ifs <;> rfl
  have hmram : (meterW s).mram = s.mram := by
    unfold meterW
    split_ifs <;> rfl
  exact ⟨⟨meterW_changes s, by rw [hmtr], fun hp => by rwa [hmtr] at hp, fun x _ => by rw [hmram]⟩, hmtr, hmram⟩

/-- A tariff in force, and what says so. -/
structure TariffApplied (new src : Nat) (s t : State) : Prop where
  changes : Changes meterParts s t
  mtr : t.mtr = { s.mtr with tariff := new }
  mram : t.mram = s.mram
  said : new ≠ s.mtr.tariff → Safety.journals 0x620 0 (item s.mtr.tariff ++ item new ++ item src) s t

theorem applyTariff_applied (new src : Nat) (s : State) : TariffApplied new src s (applyTariff new src s) := by
  have hchanges := applyTariff_changes new src s
  by_cases h : new = s.mtr.tariff
  · have hsame : applyTariff new src s = s := if_pos h
    rw [hsame] at hchanges ⊢
    exact ⟨hchanges, by rw [h], rfl, fun hno => absurd h hno⟩
  · have hset : Changes meterParts s { s with mtr := { s.mtr with tariff := new } } := .of
    obtain ⟨hshown, hshownMtr, hshownMram⟩ := meterW_runs { s with mtr := { s.mtr with tariff := new } }
    have hpushed := pushEvent_changes 12 0x0C (BitVec.ofNat 32 (new + 256 * s.mtr.tariff + 65536 * src))
      (meterW { s with mtr := { s.mtr with tariff := new } })
    have heq : applyTariff new src s = sj 0x620 0 (item s.mtr.tariff ++ item new ++ item src)
        (pushEvent 12 0x0C (BitVec.ofNat 32 (new + 256 * s.mtr.tariff + 65536 * src)) (meterW { s with mtr := { s.mtr with tariff := new } })) :=
      if_neg h
    have hbefore := (hset.join hshown.changes).trans hpushed
    refine ⟨hchanges, ?_, ?_, fun _ => ?_⟩
    · rw [heq, (sj_changes ..).mtr, hpushed.mtr, hshownMtr]
    · rw [heq, (sj_changes ..).get .mram, hpushed.get .mram, hshownMram]
    · rw [heq]
      exact Safety.journals_of_sj (hbefore.get .sjGrows) (List.prefix_refl _) (by rw [opMs, opMs, hbefore.get .opUs])
        (hbefore.get .pwrCycles)

theorem TariffApplied.runs {new src : Nat} {s t : State} (h : TariffApplied new src s t) : MeterRuns s t :=
  ⟨h.changes, by rw [h.mtr], fun hp => by rwa [h.mtr] at hp, fun x _ => by rw [h.mram]⟩

/-- At a boundary, or with an interval just begun, a tariff goes to the running interval. -/
theorem changeTariff_atBoundary (new src : Nat) (s : State) : TariffApplied new src s (applyTariff new src s) ∧
    changeTariff true new src s = (if new = s.mtr.tariff then s else
      { applyTariff new src s with mtr := { (applyTariff new src s).mtr with
        interval := { (applyTariff new src s).mtr.interval with tariff := new } } }) :=
  ⟨applyTariff_applied new src s, rfl⟩

/-- What a tariff change at a boundary leaves. -/
structure BoundaryTariff (new src : Nat) (s t : State) : Prop where
  changes : Changes meterParts s t
  mtr : t.mtr = { s.mtr with tariff := new, interval := { s.mtr.interval with
    tariff := if new = s.mtr.tariff then s.mtr.interval.tariff else new } }
  mram : t.mram = s.mram
  said : new ≠ s.mtr.tariff → Safety.journals 0x620 0 (item s.mtr.tariff ++ item new ++ item src) s t

theorem changeTariff_boundary (new src : Nat) (s : State) : BoundaryTariff new src s (changeTariff true new src s) := by
  have happlied := applyTariff_applied new src s
  have hchanges := changeTariff_changes true new src s
  by_cases h : new = s.mtr.tariff
  · have hsame : changeTariff true new src s = s := if_pos h
    rw [hsame] at hchanges ⊢
    exact ⟨hchanges, by rw [if_pos h, h], rfl, fun hno => absurd h hno⟩
  · have heq : changeTariff true new src s = { applyTariff new src s with mtr := { (applyTariff new src s).mtr with
        interval := { (applyTariff new src s).mtr.interval with tariff := new } } } := if_neg h
    rw [heq] at hchanges ⊢
    refine ⟨hchanges, ?_, happlied.mram, fun hno => ?_⟩
    · rw [if_neg h]
      change { (applyTariff new src s).mtr with interval := { (applyTariff new src s).mtr.interval with tariff := new } } = _
      rw [happlied.mtr]
    · obtain ⟨r, hr, hrest⟩ := happlied.said hno
      exact ⟨r, hr, hrest⟩

theorem BoundaryTariff.runs {new src : Nat} {s t : State} (h : BoundaryTariff new src s t) : MeterRuns s t :=
  ⟨h.changes, by rw [h.mtr], fun hp => by rwa [h.mtr] at hp, fun x _ => by rw [h.mram]⟩

/-- Off a boundary the interval is cut (R269). -/
theorem changeTariff_cut {new src : Nat} {s : State} (h : new ≠ s.mtr.tariff) :
    changeTariff false new src s = openInterval 0 (applyTariff new src (closeInterval flTariffCut s)) := if_neg h

theorem changeTariff_runs (atBoundary : Bool) (new src : Nat) (s : State) : MeterRuns s (changeTariff atBoundary new src s) := by
  cases atBoundary with
  | true => exact (changeTariff_boundary new src s).runs
  | false =>
    by_cases h : new = s.mtr.tariff
    · rw [changeTariff, if_pos h]
      exact .refl s
    · rw [changeTariff_cut h]
      exact ((closeInterval_closed flTariffCut s).runs.trans (applyTariff_applied ..).runs).trans (openInterval_runs ..)

theorem sourceTariff_runs (s : State) : MeterRuns s (sourceTariff s) := by
  unfold sourceTariff
  refine .ite (.refl s) ?_
  split
  · exact changeTariff_runs ..
  · exact .refl s

/-- An interval just begun keeps its counts as the source's tariff takes effect. -/
theorem sourceTariff_shows (s : State) : ∃ (x y : Nat), (sourceTariff s).mtr = { s.mtr with tariff := x, interval := { s.mtr.interval with
    tariff := y } } ∧ (sourceTariff s).mram = s.mram ∧ ((mtrCfg s).tariffSrc = 0 → sourceTariff s = s) := by
  unfold sourceTariff
  by_cases hsrc : (mtrCfg s).tariffSrc = 0
  · rw [if_pos hsrc]
    exact ⟨s.mtr.tariff, s.mtr.interval.tariff, rfl, rfl, fun _ => rfl⟩
  · rw [if_neg hsrc]
    split
    · next new _ =>
      have hset := changeTariff_boundary new (mtrCfg s).tariffSrc.toNat s
      exact ⟨_, _, hset.mtr, hset.mram, fun h => absurd h hsrc⟩
    · exact ⟨s.mtr.tariff, s.mtr.interval.tariff, rfl, rfl, fun _ => rfl⟩

end
end Sys2Proof.Machine
end

section
/-! SUPPORT. What a metering tick leaves (R265 to R275). -/

namespace Sys2Proof.Machine

section
set_option Elab.async false

/-! ### What a tick is judged by -/

theorem mtrCfg_congr {s t : State} (h : t.mld = s.mld) : mtrCfg t = mtrCfg s := by rw [mtrCfg, mtrCfg, h]

theorem acqCfg_congr {s t : State} (h : t.mld = s.mld) : acqCfg t = acqCfg s := by rw [acqCfg, acqCfg, h]

theorem tickSpan_congr {s t : State} (h : t.rtc = s.rtc) (nominal : Bool) (n : Nat) : tickSpan nominal n t = tickSpan nominal n s := by
  simp only [tickSpan, todUs, h]

theorem gridSpan_congr {s t : State} (hop : t.clk.opUs = s.clk.opUs) (hgrid : t.mtr.gridUs = s.mtr.gridUs) (nominal : Bool) (n : Nat) :
    gridSpan nominal n t = gridSpan nominal n s := by
  simp only [gridSpan, hop, hgrid]

theorem boundaryIn_congr {s t : State} (hmld : t.mld = s.mld) (hrtc : t.rtc = s.rtc) (sp g : Span) : boundaryIn sp g t = boundaryIn sp g s := by
  simp only [boundaryIn, mtrCfg_congr hmld, hrtc]

theorem tariffIn_congr {s t : State} (hmld : t.mld = s.mld) (hrtc : t.rtc = s.rtc) (hdio : t.dio = s.dio) (hp : t.frz.p = s.frz.p) (sp : Span) :
    tariffIn sp t = tariffIn sp s := by
  simp only [tariffIn, mtrCfg_congr hmld, hrtc, diFiltered_congr hdio, hp]

theorem demandOf_congr {s t : State} (hmld : t.mld = s.mld) (e : Nat) : demandOf t e = demandOf s e := by
  simp only [demandOf, mtrCfg_congr hmld]

theorem tickUsed_dur (tick : TickSamples) (s : State) : (tickUsed tick s).dur = tick.count := by
  unfold tickUsed
  split_ifs
  · rfl
  · rw [tickSums_eq]

/-! ### The energy of a tick (R265, R266) -/

/-- The energies of the phases over a tick. -/
def tickEnergies (c : AcqCfg) (t : TickSums) : List Int := (List.range 3).map fun p => if phaseOn c p then phaseEnergy c t p else 0

/-- What a tick imports, and what it exports. -/
def tickImport (c : AcqCfg) (t : TickSums) : Nat := ((tickEnergies c t).map Int.toNat).sum
def tickExport (c : AcqCfg) (t : TickSums) : Nat := ((tickEnergies c t).map fun e => (-e).toNat).sum

/-- The charge of a tick. -/
def tickCharge (c : AcqCfg) (t : TickSums) (s : State) : Int :=
  if (mtrCfg s).ledger then scaled (t.batt * (gainOf (nth {} c.ch 6).gain).1 * t.dur) (gainOf (nth {} c.ch 6).gain).2 (2880000 * t.n) else 0

/-- The running interval with a tick's energy. -/
def countedInterval (c : AcqCfg) (t : TickSums) (s : State) : Interval := { s.mtr.interval with
  flags := s.mtr.interval.flags ||| unverifiedNow s
  eImp := s.mtr.interval.eImp + tickImport c t
  eExp := s.mtr.interval.eExp + tickExport c t
  durMs := s.mtr.interval.durMs + 4 * t.dur }

theorem addEnergy_mtr {c : AcqCfg} {s : State} (h : acqCfg s = some c) (t : TickSums) : (addEnergy t s).mtr = { s.mtr with
    imp := s.mtr.imp.modify s.mtr.tariff (· + tickImport c t)
    exp := s.mtr.exp.modify s.mtr.tariff (· + tickExport c t)
    power := (List.range 3).map fun p => if phaseOn c p then phasePower c t p else 0
    chg := s.mtr.chg + (tickCharge c t s).toNat
    dis := s.mtr.dis + (-tickCharge c t s).toNat
    interval := countedInterval c t s } := by
  unfold addEnergy
  rw [h]
  rfl

theorem addEnergy_rest (t : TickSums) (s : State) : Changes [.mtrRest] s (addEnergy t s) := by
  unfold addEnergy
  split
  · exact .refl _ s
  · exact .of

/-! ### A boundary, a tariff (R267, R269) -/

/-- The interval that runs closed at a boundary, and another opened. -/
def boundaryPassed (co : Byte) (s : State) : State := openInterval 0 (closeInterval (flComplete ||| co) s)

/-- What a boundary leaves, with the tariff that the source asks for. -/
structure BoundaryDone (co : Byte) (sp : Span) (s t : State) : Prop where
  runs : MeterRuns (closeInterval (flComplete ||| co) s) t
  mram : t.mram = (closeInterval (flComplete ||| co) s).mram
  counted : t.mtr.interval.eImp = 0 ∧ t.mtr.interval.eExp = 0 ∧ t.mtr.interval.durMs = 0
  logged : t.mtr.iseq = (closeInterval (flComplete ||| co) s).mtr.iseq ∧ t.mtr.md = (closeInterval (flComplete ||| co) s).mtr.md
  tariff : ∀ new, tariffIn sp s = some new → new ≠ s.mtr.tariff → t.mtr.tariff = new ∧ t.mtr.interval.tariff = new ∧
    Safety.journals 0x620 0 (item s.mtr.tariff ++ item new ++ item (mtrCfg s).tariffSrc.toNat) s t

theorem closeInterval_tariff (flags : Byte) (s : State) : (closeInterval flags s).mtr.tariff = s.mtr.tariff := by
  have hclosed := closeInterval_closed flags s
  by_cases h : demandRises flags s
  · rw [hclosed.rises h]
    rfl
  · rw [hclosed.same h]
    rfl

theorem eventsIn_due_quiet {sp g : Span} {co : Byte} {s : State} (hdue : boundaryIn sp g s = true) (hwant : tariffIn sp s = none) :
    eventsIn sp g co s = boundaryPassed co s := by
  unfold eventsIn boundaryPassed
  rw [hdue, hwant]
  exact if_pos rfl

theorem eventsIn_due_tariff {sp g : Span} {co : Byte} {new : Nat} {s : State} (hdue : boundaryIn sp g s = true)
    (hwant : tariffIn sp s = some new) :
    eventsIn sp g co s = changeTariff true new ((mtrCfg s).tariffSrc.toNat) (boundaryPassed co s) := by
  unfold eventsIn boundaryPassed
  rw [hdue, hwant]
  exact congrArg (changeTariff true new ((mtrCfg s).tariffSrc.toNat)) (if_pos rfl)

theorem eventsIn_quiet {sp g : Span} {co : Byte} {s : State} (hdue : boundaryIn sp g s = false) (hwant : tariffIn sp s = none) :
    eventsIn sp g co s = s := by
  unfold eventsIn
  rw [hdue, hwant]
  exact if_neg Bool.false_ne_true

theorem eventsIn_tariff {sp g : Span} {co : Byte} {new : Nat} {s : State} (hdue : boundaryIn sp g s = false)
    (hwant : tariffIn sp s = some new) : eventsIn sp g co s = changeTariff false new ((mtrCfg s).tariffSrc.toNat) s := by
  unfold eventsIn
  rw [hdue, hwant]
  exact congrArg (changeTariff false new ((mtrCfg s).tariffSrc.toNat)) (if_neg Bool.false_ne_true)

theorem journals_of_changes {ps : List Part} {code sev : Nat} {items : Bytes} {s u t : State} (h : Changes ps s u)
    (k : Safety.journals code sev items u t) (hsj : apart [.sjGrows] ps = true := by rfl) (hop : apart [.opUs] ps = true := by rfl)
    (hcycles : apart [.pwrCycles] ps = true := by rfl) : Safety.journals code sev items s t := by
  obtain ⟨r, hr, hcode, hsev, hitems, hms, hpwr⟩ := k
  obtain ⟨before, hbefore⟩ := h.get .sjGrows hsj
  refine ⟨r, ?_, hcode, hsev, hitems, ?_, hpwr.trans (h.get .pwrCycles hcycles)⟩
  · rw [← hbefore, List.length_append, ← List.drop_drop] at hr
    exact List.mem_of_mem_drop (by rwa [List.drop_drop, Nat.add_comm, ← List.drop_drop] at hr)
  · have hus : u.clk.opUs = s.clk.opUs := h.get .opUs hop
    rw [hms, opMs, opMs, hus]

theorem eventsIn_boundary {sp g : Span} (co : Byte) {s : State} (hdue : boundaryIn sp g s = true) :
    BoundaryDone co sp s (eventsIn sp g co s) := by
  have hclosed := (closeInterval_closed (flComplete ||| co) s).runs
  have hopened := openInterval_runs 0 (closeInterval (flComplete ||| co) s)
  have hpassed := openInterval_eq 0 (closeInterval (flComplete ||| co) s)
  have htariff := closeInterval_tariff (flComplete ||| co) s
  cases hwant : tariffIn sp s with
  | none =>
    rw [eventsIn_due_quiet hdue hwant, boundaryPassed, hpassed]
    exact ⟨hopened, rfl, ⟨rfl, rfl, rfl⟩, ⟨rfl, rfl⟩, fun _ hno => absurd (hwant.symm.trans hno) (by simp)⟩
  | some new =>
    rw [eventsIn_due_tariff hdue hwant, boundaryPassed]
    have hset := changeTariff_boundary new (mtrCfg s).tariffSrc.toNat (openInterval 0 (closeInterval (flComplete ||| co) s))
    have hmtr : (openInterval 0 (closeInterval (flComplete ||| co) s)).mtr =
      { (closeInterval (flComplete ||| co) s).mtr with interval := freshInterval 0 (closeInterval (flComplete ||| co) s) } := rfl
    have hmram : (openInterval 0 (closeInterval (flComplete ||| co) s)).mram = (closeInterval (flComplete ||| co) s).mram := rfl
    generalize openInterval 0 (closeInterval (flComplete ||| co) s) = u at hopened hset hmtr hmram ⊢
    have hsame : u.mtr.tariff = s.mtr.tariff := by rw [hmtr]; exact htariff
    generalize changeTariff true new (mtrCfg s).tariffSrc.toNat u = t at hset ⊢
    refine ⟨hopened.trans hset.runs, hset.mram.trans hmram, ?_, ?_, fun other hother hne => ?_⟩
    · rw [hset.mtr, hmtr]
      exact ⟨rfl, rfl, rfl⟩
    · rw [hset.mtr, hmtr]
      exact ⟨rfl, rfl⟩
    · obtain rfl : new = other := Option.some.inj (hwant.symm.trans hother)
      have hsaid := hset.said (by rw [hsame]; exact hne)
      rw [hsame] at hsaid
      refine ⟨by rw [hset.mtr], ?_, journals_of_changes (hclosed.trans hopened).changes hsaid⟩
      rw [hset.mtr, hsame, if_neg hne]

/-- Nothing happens within an interval. -/
theorem eventsIn_within {sp g : Span} (co : Byte) {s : State} (hdue : boundaryIn sp g s = false)
    (hwant : tariffIn sp s = none ∨ tariffIn sp s = some s.mtr.tariff) : eventsIn sp g co s = s := by
  rcases hwant with h | h
  · exact eventsIn_quiet hdue h
  · rw [eventsIn_tariff hdue h]
    exact if_pos rfl

/-- A tariff off a boundary. -/
structure TariffCut (new : Nat) (s t : State) : Prop where
  runs : MeterRuns (closeInterval flTariffCut s) t
  mram : t.mram = (closeInterval flTariffCut s).mram
  counted : t.mtr.interval.eImp = 0 ∧ t.mtr.interval.eExp = 0 ∧ t.mtr.interval.durMs = 0
  logged : t.mtr.iseq = (closeInterval flTariffCut s).mtr.iseq ∧ t.mtr.md = (closeInterval flTariffCut s).mtr.md
  tariff : t.mtr.tariff = new ∧ t.mtr.interval.tariff = new
  said : Safety.journals 0x620 0 (item s.mtr.tariff ++ item new ++ item (mtrCfg s).tariffSrc.toNat) s t

theorem eventsIn_cut {sp g : Span} {co : Byte} {new : Nat} {s : State} (hdue : boundaryIn sp g s = false) (hwant : tariffIn sp s = some new)
    (hne : new ≠ s.mtr.tariff) : TariffCut new s (eventsIn sp g co s) := by
  have hclosed := (closeInterval_closed flTariffCut s).runs
  have htariff := closeInterval_tariff flTariffCut s
  have heq : eventsIn sp g co s = openInterval 0 (applyTariff new (mtrCfg s).tariffSrc.toNat (closeInterval flTariffCut s)) := by
    rw [eventsIn_tariff hdue hwant]
    exact changeTariff_cut hne
  rw [heq]
  generalize hu : closeInterval flTariffCut s = u at hclosed htariff ⊢
  have happlied := applyTariff_applied new (mtrCfg s).tariffSrc.toNat u
  generalize applyTariff new (mtrCfg s).tariffSrc.toNat u = v at happlied ⊢
  have hopened := openInterval_runs 0 v
  have hsaid := happlied.said (by rw [htariff]; exact hne)
  rw [htariff] at hsaid
  rw [openInterval_eq] at hopened ⊢
  refine ⟨hu ▸ happlied.runs.trans hopened, hu ▸ happlied.mram, ⟨rfl, rfl, rfl⟩, ?_, ⟨?_, ?_⟩, ?_⟩
  · change v.mtr.iseq = _ ∧ v.mtr.md = _
    rw [happlied.mtr, hu]
    exact ⟨rfl, rfl⟩
  · change v.mtr.tariff = _
    rw [happlied.mtr]
  · change v.mtr.tariff = _
    rw [happlied.mtr]
  · exact Safety.journals_mono (journals_of_changes hclosed.changes hsaid) (hopened.changes.get .sjGrows)

theorem eventsIn_runs (sp g : Span) (co : Byte) (s : State) : MeterRuns s (eventsIn sp g co s) := by
  cases hdue : boundaryIn sp g s with
  | true => exact (closeInterval_closed (flComplete ||| co) s).runs.trans (eventsIn_boundary co hdue).runs
  | false =>
    cases hwant : tariffIn sp s with
    | none =>
      rw [eventsIn_quiet hdue hwant]
      exact .refl s
    | some new =>
      rw [eventsIn_tariff hdue hwant]
      exact changeTariff_runs ..

/-! ### A clock that has been set (R272) -/

/-- The interval closed for a clock that has been set, and another opened. -/
def clockClosed (s : State) : State :=
  { openInterval flClockSet (closeInterval flClockSet s) with
    mtr := { (openInterval flClockSet (closeInterval flClockSet s)).mtr with pendingSet := false } }

theorem clockClosed_runs (s : State) : MeterRuns s (clockClosed s) := by
  have hopened := (closeInterval_closed flClockSet s).runs.trans (openInterval_runs flClockSet _)
  unfold clockClosed
  generalize openInterval flClockSet (closeInterval flClockSet s) = u at hopened ⊢
  refine hopened.trans ⟨?_, rfl, fun h => Bool.noConfusion h, fun _ _ => rfl⟩
  exact .of

theorem clockClosed_interval (s : State) : (clockClosed s).mtr.interval = freshInterval flClockSet (closeInterval flClockSet s) ∧
    (clockClosed s).mtr.pendingSet = false := ⟨rfl, rfl⟩

theorem clockSetTick_later (s : State) : MeterRuns (clockClosed s) (clockSetTick s) ∧ ∃ (x y : Nat), (clockSetTick s).mtr =
    { (clockClosed s).mtr with tariff := x, interval := { (clockClosed s).mtr.interval with tariff := y } } := by
  by_cases hsrc : (mtrCfg s).tariffSrc = 0
  · cases hdue : latestDue s.rtc.time 10080 (mtrCfg s).sched with
    | none =>
      have heq : clockSetTick s = clockClosed s := by
        unfold clockSetTick clockClosed
        rw [if_pos hsrc, hdue]
      rw [heq]
      exact ⟨.refl _, _, _, rfl⟩
    | some t =>
      have heq : clockSetTick s = { applyTariff t 3 (clockClosed s) with mtr := { (applyTariff t 3 (clockClosed s)).mtr with
          interval := { (applyTariff t 3 (clockClosed s)).mtr.interval with tariff := (applyTariff t 3 (clockClosed s)).mtr.tariff } } } := by
        unfold clockSetTick clockClosed
        rw [if_pos hsrc, hdue]
      rw [heq]
      generalize clockClosed s = u
      have happlied := applyTariff_applied t 3 u
      generalize applyTariff t 3 u = v at happlied ⊢
      refine ⟨happlied.runs.trans ⟨.of, rfl, id, fun _ _ => rfl⟩, t, t, ?_⟩
      change { v.mtr with interval := { v.mtr.interval with tariff := v.mtr.tariff } } = _
      rw [happlied.mtr]
  · have heq : clockSetTick s = sourceTariff (clockClosed s) := by
      unfold clockSetTick clockClosed
      rw [if_neg hsrc]
    rw [heq]
    obtain ⟨x, y, hmtr, _⟩ := sourceTariff_shows (clockClosed s)
    exact ⟨sourceTariff_runs _, x, y, hmtr⟩

/-- What a set clock leaves. -/
theorem clockSetTick_shows (s : State) : MeterRuns s (clockSetTick s) ∧ (clockSetTick s).mtr.pendingSet = false ∧
    (clockSetTick s).mtr.interval.eImp = 0 ∧ (clockSetTick s).mtr.interval.eExp = 0 ∧
    (clockSetTick s).mtr.interval.flags.getLsbD 6 = true := by
  obtain ⟨hlater, x, y, hmtr⟩ := clockSetTick_later s
  obtain ⟨hinterval, hpending⟩ := clockClosed_interval s
  have hflags : (freshInterval flClockSet (closeInterval flClockSet s)).flags.getLsbD 6 = true := by
    change (flClockSet ||| unverifiedNow (closeInterval flClockSet s)).getLsbD 6 = true
    rw [BitVec.getLsbD_or]
    rfl
  refine ⟨(clockClosed_runs s).trans hlater, ?_, ?_, ?_, ?_⟩
  · rw [hmtr]
    exact hpending
  · rw [hmtr, hinterval]
    rfl
  · rw [hmtr, hinterval]
    rfl
  · rw [hmtr]
    dsimp only
    rw [hinterval]
    exact hflags

end
end Sys2Proof.Machine
end

section
/-! SUPPORT. The first tick after an outage (R275). -/

namespace Sys2Proof.Machine

section
set_option Elab.async false

/-- Metering with the interval that the outage cut. -/
def outageBegun (sn : Snapshot) (s : State) : State := { s with mtr := { s.mtr with restored := none, interval := sn.run } }

/-- The whole intervals between the cut and the return, by a clock that is trusted. -/
def outageCount (sn : Snapshot) (s : State) : Nat :=
  min (calMinutes s.rtc.time / (mtrCfg s).demandMin - calMinutes sn.rtc / (mtrCfg s).demandMin - 1) 65535

/-- What the OUTAGE record of an outage holds. -/
structure OutageLogged (sn : Snapshot) (flags : Byte) (count : Nat) (s t : State) : Prop where
  mtr : t.mtr = loggedMtr s
  record : ∃ i : Interval, t.mram = memWrite 0 mramSize s.mram (intervalSlot s) (intervalBytes flags 0xFF i count 0 (drawn s)) ∧
    i.eImp = 0 ∧ i.eExp = 0 ∧ (count ≠ 0 → i.durMs = count * (mtrCfg s).demandMin * 60000) ∧
    Safety.journals 0x621 0 (item flags.toNat ++ item s.mtr.iseq.toNat ++ timeBytes i.rtc) s t

theorem outageLogged_of {flags : Byte} (hflags : flags &&& 12 ≠ 0) (sn : Snapshot) {count : Nat} {i : Interval} {s : State}
    (himp : i.eImp = 0) (hexp : i.eExp = 0) (hdur : count ≠ 0 → i.durMs = count * (mtrCfg s).demandMin * 60000) :
    OutageLogged sn flags count s (logInterval flags 0xFF i count 0 (drawn s)) := by
  refine ⟨?_, i, ?_, himp, hexp, hdur, ?_⟩
  · rw [logInterval_mtr]
    rfl
  · rw [logInterval_mram]
    rfl
  · exact journals_of_changes (drawn_changes s) (logInterval_said hflags 0xFF i count 0 (drawn s))

theorem outageRecord_untrusted {sn : Snapshot} {s : State} (h : rtcTrusted s = false) :
    OutageLogged sn 24 0 s (outageRecord sn s).1 ∧ (outageRecord sn s).2 = 0 := by
  have heq : outageRecord sn s = (logInterval (flOutage ||| flUnverified) 0xFF
      { rtc := sn.rtc, optMs := sn.optMs, durMs := (freeWord s).toNat } 0 0 (drawn s), 0) := if_pos (by rw [h]; rfl)
  rw [heq]
  exact ⟨outageLogged_of (flags := 24) (by decide) sn rfl rfl (fun h => absurd rfl h), rfl⟩

theorem outageRecord_none {sn : Snapshot} {s : State} (h : rtcTrusted s = true) (hcount : outageCount sn s = 0) :
    outageRecord sn s = (s, 0) := by
  unfold outageRecord
  exact (if_neg (by rw [h]; exact Bool.false_ne_true)).trans (if_pos hcount)

theorem outageRecord_counted {sn : Snapshot} {s : State} (h : rtcTrusted s = true) (hcount : outageCount sn s ≠ 0) :
    OutageLogged sn 8 (outageCount sn s) s (outageRecord sn s).1 ∧ (outageRecord sn s).2 = outageCount sn s := by
  obtain ⟨i, himp, hexp, hdur, heq⟩ : ∃ i : Interval, i.eImp = 0 ∧ i.eExp = 0 ∧
      i.durMs = outageCount sn s * (mtrCfg s).demandMin * 60000 ∧
      outageRecord sn s = (logInterval flOutage 0xFF i (outageCount sn s) 0 (drawn s), outageCount sn s) := by
    refine ⟨_, ?_, ?_, ?_, (if_neg (by rw [h]; exact Bool.false_ne_true)).trans (if_neg hcount)⟩
    all_goals rfl
  rw [heq]
  exact ⟨outageLogged_of (flags := 8) (by decide) sn himp hexp fun _ => hdur, rfl⟩

theorem outageRecord_runs (sn : Snapshot) (s : State) : MeterRuns s (outageRecord sn s).1 := by
  have hlogged (flags : Byte) (i : Interval) (count : Nat) : MeterRuns s (logInterval flags 0xFF i count 0 (drawn s)) :=
    (MeterRuns.of_booked (drawn_changes s)).trans (logInterval_runs ..)
  unfold outageRecord
  dsimp only
  by_cases htrust : rtcTrusted s = true
  · rw [if_neg (by simp [htrust])]
    generalize min _ 65535 = count
    by_cases hnone : count = 0
    · rw [if_pos hnone]
      exact .refl s
    · rw [if_neg hnone]
      dsimp only
      exact hlogged ..
  · rw [if_pos (by simp [htrust])]
    dsimp only
    exact hlogged ..

theorem outageTariff_runs (sn : Snapshot) (s t : State) : MeterRuns t (outageTariff sn s t) := by
  unfold outageTariff
  dsimp only
  generalize (if calMinutes s.rtc.time - calMinutes sn.rtc = 0 then none else latestDue _ _ _) = want
  cases want with
  | some new => exact .ite (applyTariff_applied ..).runs (.refl t)
  | none => exact .ite (.refl t) (.refl t)

/-- The schedule entry that fell due last in an outage. -/
def outageWant (sn : Snapshot) (s : State) : Option Nat :=
  if calMinutes s.rtc.time - calMinutes sn.rtc = 0 then none
  else latestDue s.rtc.time (min 10080 (calMinutes s.rtc.time - calMinutes sn.rtc - 1)) (mtrCfg s).sched

/-- The tariff after an outage, and that only it changes. -/
theorem outageTariff_mtr (sn : Snapshot) (s t : State) : ∃ x, (outageTariff sn s t).mtr = { t.mtr with tariff := x } ∧
    (outageTariff sn s t).mram = t.mram ∧
    ((mtrCfg s).tariffSrc = 0 → s.rtc.osf = false → x = (outageWant sn s).getD t.mtr.tariff) := by
  unfold outageTariff
  dsimp only
  by_cases h : (mtrCfg s).tariffSrc = 0 ∧ (!s.rtc.osf) = true
  · rw [if_pos h, ← outageWant]
    cases outageWant sn s with
    | none => exact ⟨t.mtr.tariff, rfl, rfl, fun _ _ => rfl⟩
    | some new => exact ⟨new, (applyTariff_applied new 3 t).mtr, (applyTariff_applied new 3 t).mram, fun _ _ => rfl⟩
  · rw [if_neg h]
    exact ⟨t.mtr.tariff, rfl, rfl, fun hsrc hosf => absurd ⟨hsrc, by rw [hosf]; rfl⟩ h⟩

/-- PARTIAL keeps an interval out of the maximum (R269). -/
theorem not_rises_of_partial (s : State) : ¬ demandRises flPartial s := by
  rintro ⟨hcounts, -⟩
  have hbit : (closedFlags flPartial s &&& 0x6C).getLsbD 2 = true := by
    rw [closedFlags, BitVec.getLsbD_and, BitVec.getLsbD_or, BitVec.getLsbD_or]
    simp [flPartial]
  simp only [demandCounts, decide_eq_true_eq] at hcounts
  rw [hcounts.2] at hbit
  exact Bool.noConfusion hbit

theorem partial_said (s : State) : closedFlags flPartial s &&& 12 ≠ 0 := by
  intro h
  have hbit : (closedFlags flPartial s &&& 12).getLsbD 2 = true := by
    rw [closedFlags, BitVec.getLsbD_and, BitVec.getLsbD_or, BitVec.getLsbD_or]
    simp [flPartial]
  rw [h] at hbit
  exact Bool.noConfusion hbit

/-- What the steps after an outage leave. -/
structure OutageDone (sn : Snapshot) (s t : State) : Prop where
  runs : MeterRuns (outageBegun sn s) t
  later : Changes meterParts (outageClosed sn s).1 t
  mram : t.mram = (outageClosed sn s).1.mram
  mtr : t.mtr.logNext = (outageClosed sn s).1.mtr.logNext ∧ t.mtr.md = s.mtr.md
  fresh : t.mtr.interval.eImp = 0 ∧ t.mtr.interval.eExp = 0 ∧ t.mtr.interval.flags.getLsbD 2 = true
  tariff : (mtrCfg s).tariffSrc = 0 → s.rtc.osf = false → t.mtr.tariff = (outageWant sn s).getD s.mtr.tariff
  said : Safety.journals 0x623 0 (item sn.seq ++ item (outageClosed sn s).2) s t

theorem outageRecord_md (sn : Snapshot) (s : State) : (outageRecord sn s).1.mtr.md = s.mtr.md ∧
    (outageRecord sn s).1.mtr.tariff = s.mtr.tariff := by
  cases htrust : rtcTrusted s with
  | false =>
    rw [(outageRecord_untrusted (sn := sn) htrust).1.mtr]
    exact ⟨rfl, rfl⟩
  | true =>
    by_cases hcount : outageCount sn s = 0
    · rw [outageRecord_none htrust hcount]
      exact ⟨rfl, rfl⟩
    · rw [(outageRecord_counted htrust hcount).1.mtr]
      exact ⟨rfl, rfl⟩

theorem outageClosed_runs (sn : Snapshot) (s : State) : MeterRuns (outageBegun sn s) (outageClosed sn s).1 :=
  (closeInterval_closed flPartial (outageBegun sn s)).runs.trans (outageRecord_runs ..)

theorem outageClosed_md (sn : Snapshot) (s : State) : (outageClosed sn s).1.mtr.md = s.mtr.md ∧
    (outageClosed sn s).1.mtr.tariff = s.mtr.tariff := by
  have hclosed := (closeInterval_closed flPartial (outageBegun sn s)).same (not_rises_of_partial _)
  obtain ⟨hmd, htariff⟩ := outageRecord_md sn (closeInterval flPartial (outageBegun sn s))
  refine ⟨hmd.trans ?_, htariff.trans ?_⟩
  · rw [hclosed]
    rfl
  · rw [hclosed]
    rfl

theorem afterOutage_done (sn : Snapshot) (s : State) : OutageDone sn s (afterOutage sn s) := by
  have hbegun : Changes meterParts s (outageBegun sn s) := by
    unfold outageBegun
    exact .of
  have hclosed := outageClosed_runs sn s
  obtain ⟨hmd, hkept⟩ := outageClosed_md sn s
  rw [afterOutage_eq]
  obtain ⟨x, hmtr, hmram, hwant⟩ := outageTariff_mtr sn s (outageClosed sn s).1
  have hset := outageTariff_runs sn s (outageClosed sn s).1
  generalize outageTariff sn s (outageClosed sn s).1 = u at hmtr hmram hset ⊢
  have hopened := openInterval_runs flPartial u
  have hflags : (freshInterval flPartial u).flags.getLsbD 2 = true := by
    change (flPartial ||| unverifiedNow u).getLsbD 2 = true
    rw [BitVec.getLsbD_or]
    rfl
  obtain ⟨y, z, hsource, hsourceMram, hkeeps⟩ := sourceTariff_shows (openInterval flPartial u)
  have hsourced := sourceTariff_runs (openInterval flPartial u)
  have hall : MeterRuns (outageClosed sn s).1 (sourceTariff (openInterval flPartial u)) := (hset.trans hopened).trans hsourced
  have hopenMtr : (openInterval flPartial u).mtr = { u.mtr with interval := freshInterval flPartial u } := rfl
  have hopenMram : (openInterval flPartial u).mram = u.mram := rfl
  have hmld : (openInterval flPartial u).mld = s.mld :=
    ((hset.trans hopened).changes.get .mld).trans ((hclosed.changes.get .mld).trans (hbegun.get .mld))
  generalize openInterval flPartial u = v at hsource hsourceMram hkeeps hsourced hall hopenMtr hopenMram hmld ⊢
  have hsaid := sj_changes 0x623 0 (item sn.seq ++ item (outageClosed sn s).2) (sourceTariff v)
  generalize sourceTariff v = w at hsource hsourceMram hkeeps hsourced hall hsaid ⊢
  have hchanges := (hbegun.join hclosed.changes).join hall.changes
  have hfinal : (sj 0x623 0 (item sn.seq ++ item (outageClosed sn s).2) w).mtr = { v.mtr with tariff := y, interval := { v.mtr.interval with
      tariff := z } } := hsaid.mtr.trans hsource
  refine ⟨hclosed.trans (hall.trans (.of_booked hsaid)), (hall.trans (.of_booked hsaid)).changes, ?_, ?_, ?_, fun hsrc hosf => ?_, ?_⟩
  · rw [hsaid.get .mram, hsourceMram, hopenMram, hmram]
  · rw [hfinal, hopenMtr]
    change u.mtr.logNext = _ ∧ u.mtr.md = _
    rw [hmtr]
    exact ⟨rfl, hmd⟩
  · rw [hfinal, hopenMtr]
    exact ⟨rfl, rfl, hflags⟩
  · have hsame : w = v := hkeeps (by rw [mtrCfg_congr hmld, hsrc])
    rw [hsaid.mtr, hsame, hopenMtr]
    change u.mtr.tariff = _
    rw [hmtr]
    change x = _
    rw [hwant hsrc hosf, hkept]
  · exact Safety.journals_of_sj (hchanges.get .sjGrows) (List.prefix_refl _) (by rw [opMs, opMs, hchanges.get .opUs]) (hchanges.get .pwrCycles)

end
end Sys2Proof.Machine
end

section
/-! PROOF. Metering counts and keeps its counts (R265 to R276). -/

namespace Sys2Proof.Machine

section
set_option Elab.async false

/-! ### The tick -/

/-- A tick's sums kept for the next one. -/
def ticked (used : TickSums) (s : State) : State := { s with mtr := { s.mtr with lastTick := used } }

/-- The tick counted, in the state before it. -/
def tickCounted (tick : TickSamples) (s : State) : State := addEnergy (tickUsed tick s) (ticked (tickUsed tick s) s)

/-- Metering that runs, with a full tick. -/
structure Ticks (tick : TickSamples) (s : State) : Prop where
  running : s.mtr.running = true
  live : s.mtr.frozen = false
  powered : s.power.pdOn.getLsbD 8 = true
  full : tick.count = 2500

theorem meterTick_idle {tick : TickSamples} {s : State}
    (h : s.mtr.running = false ∨ s.mtr.frozen = true ∨ s.power.pdOn.getLsbD 8 = false ∨ tick.count ≠ 2500) : meterTick tick s = s := by
  refine if_pos ?_
  rcases h with h | h | h | h
  · simp [h]
  · simp [h]
  · rw [pdIs, h]
    simp
  · simp [h]

theorem Ticks.guard {tick : TickSamples} {s : State} (h : Ticks tick s) :
    ¬ (!(s.mtr.running && !s.mtr.frozen && pdIs s 8 && decide (tick.count = 2500))) = true := by
  rw [pdIs, h.running, h.live, h.powered, h.full]
  decide

theorem meterTick_ordinary {tick : TickSamples} {s : State} (h : Ticks tick s) (hrestored : s.mtr.restored = none)
    (hpending : s.mtr.pendingSet = false) :
    meterTick tick s = meterW (tickEvents false 2500 0 (tickCounted tick s)) := by
  have hdur : (tickUsed tick s).dur = 2500 := (tickUsed_dur tick s).trans h.full
  unfold meterTick tickCounted ticked
  rw [if_neg h.guard]
  dsimp only
  rw [hrestored, hpending, hdur]
  dsimp only
  rw [if_neg Bool.false_ne_true]

theorem meterTick_clock {tick : TickSamples} {s : State} (h : Ticks tick s) (hrestored : s.mtr.restored = none)
    (hpending : s.mtr.pendingSet = true) : meterTick tick s = meterW (clockSetTick (tickCounted tick s)) := by
  unfold meterTick tickCounted ticked
  rw [if_neg h.guard]
  dsimp only
  rw [hrestored, hpending]
  dsimp only
  rw [if_pos rfl]

/-- The first tick after an outage, counted. -/
def outageCounted (sn : Snapshot) (tick : TickSamples) (s : State) : State :=
  addEnergy (tickUsed tick s) (afterOutage sn (ticked (tickUsed tick s) s))

theorem meterTick_outage {sn : Snapshot} {tick : TickSamples} {s : State} (h : Ticks tick s) (hrestored : s.mtr.restored = some sn) :
    meterTick tick s = meterW (whenever s.mtr.pendingSet clockSetTick (outageCounted sn tick s)) := by
  unfold meterTick outageCounted ticked
  rw [if_neg h.guard]
  dsimp only
  rw [hrestored]

/-! ### What a tick counts (R265, R266) -/

/-- What every tick leaves: its power, its sums, the ledger. -/
structure TickShown (c : AcqCfg) (used : TickSums) (s t : State) : Prop where
  power : t.mtr.power = (List.range 3).map fun p => if phaseOn c p then phasePower c used p else 0
  lastTick : t.mtr.lastTick = used
  chg : t.mtr.chg = s.mtr.chg + (tickCharge c used s).toNat
  dis : t.mtr.dis = s.mtr.dis + (-tickCharge c used s).toNat

/-- The state before a tick's energy. -/
structure TickBase (used : TickSums) (s a : State) : Prop where
  mld : a.mld = s.mld
  lastTick : a.mtr.lastTick = used
  chg : a.mtr.chg = s.mtr.chg
  dis : a.mtr.dis = s.mtr.dis

theorem tickCharge_congr {s t : State} (h : t.mld = s.mld) (c : AcqCfg) (used : TickSums) : tickCharge c used t = tickCharge c used s := by
  simp only [tickCharge, mtrCfg_congr h]

theorem TickBase.shown {c : AcqCfg} {used : TickSums} {s a t : State} (hbase : TickBase used s a) (hacq : acqCfg s = some c)
    (hruns : MeterRuns (addEnergy used a) t) : TickShown c used s t := by
  have henergy := addEnergy_mtr ((acqCfg_congr hbase.mld).trans hacq) used
  rw [tickCharge_congr hbase.mld, hbase.chg, hbase.dis] at henergy
  have hcounts := hruns.counts
  constructor
  · rw [hcounts, henergy]
  · rw [hcounts, henergy]
    exact hbase.lastTick
  · rw [hcounts, henergy]
  · rw [hcounts, henergy]

theorem ticked_base (used : TickSums) (s : State) : TickBase used s (ticked used s) := ⟨rfl, rfl, rfl, rfl⟩

theorem afterOutage_base (sn : Snapshot) (used : TickSums) (s : State) : TickBase used s (afterOutage sn (ticked used s)) := by
  have hdone := (afterOutage_done sn (ticked used s)).runs
  have hcounts := hdone.counts
  refine ⟨hdone.changes.get .mld, ?_, ?_, ?_⟩
  · rw [hcounts]
    rfl
  · rw [hcounts]
    rfl
  · rw [hcounts]
    rfl

/-- A tick counted that no outage came before. -/
structure Counted (c : AcqCfg) (used : TickSums) (s e : State) : Prop where
  changes : Changes (.sens :: .savedMs :: .pfw :: .mtrRest :: bookParts) s e
  mtr : e.mtr = { s.mtr with
    lastTick := e.mtr.lastTick
    imp := s.mtr.imp.modify s.mtr.tariff (· + tickImport c used)
    exp := s.mtr.exp.modify s.mtr.tariff (· + tickExport c used)
    power := e.mtr.power, chg := e.mtr.chg, dis := e.mtr.dis
    interval := countedInterval c used s }

theorem Counted.of_energy {c : AcqCfg} {s w : State} (h : acqCfg s = some c) (used : TickSums)
    (hw : Changes (.sens :: .savedMs :: .pfw :: .mtrRest :: bookParts) s w) (hmtr : w.mtr = { s.mtr with lastTick := w.mtr.lastTick }) :
    Counted c used s (addEnergy used w) where
  changes := hw.trans (addEnergy_rest used w)
  mtr := by
    have henergy := addEnergy_mtr ((acqCfg_congr (hw.get .mld)).trans h) used
    have hinterval : countedInterval c used w = countedInterval c used s := by
      rw [countedInterval, countedInterval, unverifiedNow, unverifiedNow, hw.rtc, hmtr]
    rw [henergy, hinterval, hmtr]

theorem ticked_changes (used : TickSums) (s : State) : Changes [.mtrRest] s (ticked used s) := by
  unfold ticked
  exact .of

theorem tickCounted_changes (tick : TickSamples) (s : State) : Changes [.mtrRest] s (tickCounted tick s) :=
  (ticked_changes _ s).join (addEnergy_rest _ _)

theorem tickCounted_counted {c : AcqCfg} (tick : TickSamples) {s : State} (h : acqCfg s = some c) :
    Counted c (tickUsed tick s) s (tickCounted tick s) := .of_energy h _ (ticked_changes _ s).mono rfl

section
variable {c : AcqCfg} {used : TickSums} {s e : State}

theorem Counted.interval (h : Counted c used s e) : e.mtr.interval = countedInterval c used s := by rw [h.mtr]

/-- What a tick is judged by is not what it counts. -/
theorem Counted.judged (h : Counted c used s e) (nominal : Bool) (n : Nat) :
    boundaryIn (tickSpan nominal n e) (gridSpan nominal n e) e = boundaryDue nominal n s ∧
      tariffIn (tickSpan nominal n e) e = tariffWanted nominal n s := by
  have hchanges := h.changes
  have hgrid : e.mtr.gridUs = s.mtr.gridUs := by rw [h.mtr]
  rw [tickSpan_congr hchanges.rtc, gridSpan_congr (hchanges.get .opUs) hgrid, boundaryIn_congr (hchanges.get .mld) hchanges.rtc,
    tariffIn_congr (hchanges.get .mld) hchanges.rtc hchanges.dio (hchanges.get .frzP)]
  exact ⟨rfl, rfl⟩

theorem Counted.slot (h : Counted c used s e) : intervalSlot e = 0x380800 + 64 * s.mtr.logNext.toNat := by
  rw [intervalSlot, h.mtr]

theorem Counted.demand (h : Counted c used s e) : demandOf e e.mtr.interval.eImp =
    (s.mtr.interval.eImp + tickImport c used) / 1000 * 60 / (1000 * (mtrCfg s).demandMin) := by
  rw [demandOf_congr (h.changes.get .mld), h.interval]
  rfl

end

/-! ### An interval record read back -/

theorem closedRecord_length (flags : Byte) (s : State) : (closedRecord flags s).length = 64 := intervalBytes_length ..

theorem closedRecord_fields (flags : Byte) (s : State) : IntervalFields (closedFlags flags s) s.mtr.interval.tariff
    { s.mtr.interval with durMs := s.mtr.interval.durMs / 1000 } 1 (demandOf s s.mtr.interval.eImp) (closedRecord flags s) :=
  intervalBytes_fields ..

theorem intervalSlot_room {s : State} (h : s.mtr.logNext.toNat < 992) : intervalSlot s + 64 ≤ mramSize := by
  unfold intervalSlot mramSize
  omega

theorem mramWf_of_storesWf {s : State} (h : Safety.storesWf s) : swf 0 mramSize s.mram = true := by
  simp only [Safety.storesWf, Memory.wf, Bool.and_eq_true] at h
  exact h.1.2

theorem closed_read {flags : Byte} {s t : State} (hwf : swf 0 mramSize s.mram = true) (hnext : s.mtr.logNext.toNat < 992)
    (ht : t.mram = (closeInterval flags s).mram) : mramRead (intervalSlot s) 64 t = closedRecord flags s :=
  slot_read hwf (intervalSlot_room hnext) (closedRecord_length flags s) (ht.trans (closeInterval_closed flags s).mram)

theorem closeInterval_iseq (flags : Byte) (s : State) : (closeInterval flags s).mtr.iseq = s.mtr.iseq + 1 := by
  have hclosed := closeInterval_closed flags s
  by_cases h : demandRises flags s
  · rw [hclosed.rises h]
    rfl
  · rw [hclosed.same h]
    rfl

theorem closeInterval_md {flags : Byte} {s : State} (h : ¬ demandRises flags s) : (closeInterval flags s).mtr.md = s.mtr.md := by
  rw [(closeInterval_closed flags s).same h]
  rfl

/-- The flag of a record, bit by bit. -/
theorem closedFlags_testBit (flags : Byte) (s : State) (k : Nat) (h : flags.getLsbD k = true) :
    (closedFlags flags s).toNat.testBit k = true := by
  rw [BitVec.testBit_toNat, closedFlags, BitVec.getLsbD_or, BitVec.getLsbD_or, h]
  simp

/-! ### At a boundary (R269) -/

theorem unverified_masked (s : State) : unverifiedNow s &&& 0x6C = 0 := by
  unfold unverifiedNow
  split_ifs <;> rfl

/-- The flags of an interval that ends at a boundary, but for those that keep it out of the maximum. -/
theorem Counted.masked {c : AcqCfg} {used : TickSums} {s e : State} (h : Counted c used s e) :
    closedFlags (flComplete ||| 0) e &&& 0x6C = s.mtr.interval.flags &&& 0x6C := by
  have hflags : e.mtr.interval.flags = s.mtr.interval.flags ||| unverifiedNow s := by
    rw [h.interval]
    rfl
  rw [closedFlags, hflags]
  have hor (a b : Byte) : (a ||| b) &&& 0x6C = (a &&& 0x6C) ||| (b &&& 0x6C) := by
    refine BitVec.eq_of_getLsbD_eq fun i _ => ?_
    simp only [BitVec.getLsbD_and, BitVec.getLsbD_or, Bool.and_or_distrib_right]
  rw [hor, hor, hor, unverified_masked, unverified_masked]
  have hcomplete : (flComplete ||| 0) &&& (0x6C : Byte) = 0 := by decide
  rw [hcomplete]
  simp

theorem Counted.rises {c : AcqCfg} {used : TickSums} {s e : State} (h : Counted c used s e) :
    demandRises (flComplete ||| 0) e ↔ s.mtr.interval.flags &&& 0x6C = 0 ∧ nth 0 s.mtr.md s.mtr.interval.tariff <
      (s.mtr.interval.eImp + tickImport c used) / 1000 * 60 / (1000 * (mtrCfg s).demandMin) := by
  have hcomplete : closedFlags (flComplete ||| 0) e &&& 1 ≠ 0 := by
    intro hzero
    have hbit : (closedFlags (flComplete ||| 0) e &&& 1).getLsbD 0 = true := by
      rw [closedFlags, BitVec.getLsbD_and, BitVec.getLsbD_or, BitVec.getLsbD_or]
      simp [flComplete]
    rw [hzero] at hbit
    exact Bool.noConfusion hbit
  have hmd : e.mtr.md = s.mtr.md := by rw [h.mtr]
  have htariff : e.mtr.interval.tariff = s.mtr.interval.tariff := by
    rw [h.interval]
    rfl
  unfold demandRises
  simp only [demandCounts, decide_eq_true_eq, h.masked]
  rw [hmd, htariff, h.demand]
  exact ⟨fun hr => ⟨hr.1.2, hr.2⟩, fun hr => ⟨⟨hcomplete, hr.1⟩, hr.2⟩⟩

/-- Flags that count for the maximum say nothing in the journal. -/
theorem quiet_of_masked {f : Byte} (h : f &&& 0x6C = 0) : f &&& 12 = 0 := by
  refine BitVec.eq_of_getLsbD_eq fun i hi => ?_
  have hbit : (f &&& 0x6C).getLsbD i = false := by
    rw [h]
    exact BitVec.getLsbD_zero
  rw [BitVec.getLsbD_and] at hbit ⊢
  have hsub : (12 : Byte).getLsbD i = true → (0x6C : Byte).getLsbD i = true :=
    (show ∀ j < 8, (12 : Byte).getLsbD j = true → (0x6C : Byte).getLsbD j = true by decide) i hi
  cases htwelve : (12 : Byte).getLsbD i with
  | false => simp
  | true =>
    rw [hsub htwelve] at hbit
    simpa using hbit

end
end Sys2Proof.Machine
end

section
/-! PROOF. Metering counts and keeps its counts (R265 to R276). -/

namespace Sys2Proof.Machine

section
set_option Elab.async false

/-! ### The records of a tick -/

section
variable {c : AcqCfg} {used : TickSums} {s e t : State}

/-- What the record of an interval that a tick closes reads. -/
structure TickRecord (c : AcqCfg) (used : TickSums) (flags : Byte) (s : State) (r : Bytes) : Prop where
  flags : leAt r 2 1 = flags.toNat
  tariff : leAt r 3 1 = s.mtr.interval.tariff % 256
  imported : leAt r 24 8 = (s.mtr.interval.eImp + tickImport c used) / 1000 % 2 ^ 64
  exported : leAt r 32 8 = (s.mtr.interval.eExp + tickExport c used) / 1000 % 2 ^ 64
  demand : leAt r 40 4 = (s.mtr.interval.eImp + tickImport c used) / 1000 * 60 / (1000 * (mtrCfg s).demandMin) % 2 ^ 32

theorem Counted.record (h : Counted c used s e) (flags : Byte) : TickRecord c used (closedFlags flags e) s (closedRecord flags e) := by
  have hfields := closedRecord_fields flags e
  have hdemand := h.demand
  have hinterval := h.interval
  refine ⟨hfields.flags, hfields.tariff.trans ?_, hfields.eImp.trans ?_, hfields.eExp.trans ?_, ?_⟩
  · rw [hinterval]
    rfl
  · dsimp only
    rw [hinterval]
    rfl
  · dsimp only
    rw [hinterval]
    rfl
  · rw [hfields.demand, hdemand]

/-- The record of an interval that a tick closed, in its slot. -/
theorem Counted.read (h : Counted c used s e) (hwf : Safety.storesWf s) (hnext : s.mtr.logNext.toNat < 992) {flags : Byte}
    (ht : t.mram = (closeInterval flags e).mram) :
    TickRecord c used (closedFlags flags e) s (mramRead (0x380800 + 64 * s.mtr.logNext.toNat) 64 t) := by
  have hmram : e.mram = s.mram := h.changes.get .mram
  have hnextE : e.mtr.logNext = s.mtr.logNext := by rw [h.mtr]
  rw [← h.slot, closed_read (by rw [hmram]; exact mramWf_of_storesWf hwf) (by rw [hnextE]; exact hnext) ht]
  exact h.record flags

/-- The counts that stand after a tick. -/
theorem Counted.counts (h : Counted c used s e) (k : MeterRuns e t) : t.mtr.imp = s.mtr.imp.modify s.mtr.tariff (· + tickImport c used) ∧
    t.mtr.exp = s.mtr.exp.modify s.mtr.tariff (· + tickExport c used) ∧ (t.mtr.pendingSet = true → s.mtr.pendingSet = true) ∧
    ∀ x < 0x380800, memGet 0 t.mram x = memGet 0 s.mram x := by
  have hmram : e.mram = s.mram := h.changes.get .mram
  have hpending : e.mtr.pendingSet = s.mtr.pendingSet := by rw [h.mtr]
  refine ⟨?_, ?_, fun hp => ?_, fun x hx => ?_⟩
  · rw [k.counts, h.mtr]
  · rw [k.counts, h.mtr]
  · rw [← hpending]
    exact k.pending hp
  · rw [k.low x hx, hmram]

/-- A tick within an interval. -/
theorem Counted.within (h : Counted c used s e) (hmtr : t.mtr = e.mtr) :
    t.mtr.interval.eImp = s.mtr.interval.eImp + tickImport c used ∧ t.mtr.interval.eExp = s.mtr.interval.eExp + tickExport c used ∧
      t.mtr.interval.durMs = s.mtr.interval.durMs + 4 * used.dur ∧ t.mtr.interval.tariff = s.mtr.interval.tariff ∧
      t.mtr.tariff = s.mtr.tariff := by
  rw [hmtr, h.interval]
  refine ⟨rfl, rfl, rfl, rfl, ?_⟩
  rw [h.mtr]

/-- What a boundary, or a cut, leaves of the interval and of the sequence. -/
theorem Counted.closed (h : Counted c used s e) {flags : Byte} (hseq : t.mtr.iseq = (closeInterval flags e).mtr.iseq) :
    t.mtr.iseq = s.mtr.iseq + 1 := by
  rw [hseq, closeInterval_iseq, h.mtr]

/-- The maximum demand at a boundary. -/
theorem Counted.maximum (h : Counted c used s e) (hmd : t.mtr.md = (closeInterval (flComplete ||| 0) e).mtr.md) :
    (¬ demandRises (flComplete ||| 0) e → t.mtr.md = s.mtr.md) ∧
    (demandRises (flComplete ||| 0) e → t.mtr.md = s.mtr.md.set s.mtr.interval.tariff
      ((s.mtr.interval.eImp + tickImport c used) / 1000 * 60 / (1000 * (mtrCfg s).demandMin))) := by
  have hsame : e.mtr.md = s.mtr.md := by rw [h.mtr]
  have htariff : e.mtr.interval.tariff = s.mtr.interval.tariff := by
    rw [h.interval]
    rfl
  refine ⟨fun hno => ?_, fun hrise => ?_⟩
  · rw [hmd, closeInterval_md hno, hsame]
  · rw [hmd, (closeInterval_closed (flComplete ||| 0) e).rises hrise]
    dsimp only
    rw [hsame, htariff, h.demand]

/-- A cut does not raise the maximum. -/
theorem not_rises_of_cut (u : State) : ¬ demandRises flTariffCut u := by
  rintro ⟨hcounts, -⟩
  have hbit : (closedFlags flTariffCut u &&& 0x6C).getLsbD 5 = true := by
    rw [closedFlags, BitVec.getLsbD_and, BitVec.getLsbD_or, BitVec.getLsbD_or]
    simp [flTariffCut]
  simp only [demandCounts, decide_eq_true_eq] at hcounts
  rw [hcounts.2] at hbit
  exact Bool.noConfusion hbit

theorem Counted.tariff (h : Counted c used s e) : e.mtr.tariff = s.mtr.tariff ∧ (mtrCfg e).tariffSrc = (mtrCfg s).tariffSrc := by
  rw [h.mtr, mtrCfg_congr (h.changes.get .mld)]
  exact ⟨rfl, rfl⟩

end

/-! ### The schedule (R267) -/

/-- Does a schedule entry fall in the tick that ends now? -/
def fallsNow (s : State) (e : SchedEntry) : Bool :=
  e.wday.getLsbD 7 && e.wday.getLsbD (s.rtc.time.weekday % 7) &&
    decide (todUs s ≤ (60 * e.hour + e.minute) * 60000000 + 10000) && decide ((60 * e.hour + e.minute) * 60000000 < todUs s)

theorem entryDue_eq {s : State} (hday : todUs s < 86400000000) (e : SchedEntry) :
    entryDue (tickSpan false 2500 s) s.rtc.time.weekday e = fallsNow s e := by
  have hmid : decide ((e.hour * 60 + e.minute) * 60000000 + 86400000000 < todUs s) = false := decide_eq_false (by omega)
  have hlater : spanHas ((e.hour * 60 + e.minute) * 60000000 + 86400000000) (tickSpan false 2500 s) = false := by
    unfold spanHas tickSpan
    simp only [Bool.false_eq_true, if_false, Bool.and_eq_false_iff, decide_eq_false_iff_not]
    exact .inr (by omega)
  have hnow : spanHas ((e.hour * 60 + e.minute) * 60000000) (tickSpan false 2500 s) =
      (decide (todUs s ≤ (60 * e.hour + e.minute) * 60000000 + 10000) && decide ((60 * e.hour + e.minute) * 60000000 < todUs s)) := by
    unfold spanHas tickSpan
    simp only [Bool.false_eq_true, if_false]
    congr 1
    · exact decide_eq_decide.mpr (by omega)
    · exact decide_eq_decide.mpr (by omega)
  unfold entryDue fallsNow
  dsimp only
  rw [hlater, hnow, Bool.and_false, Bool.or_false]
  simp only [Bool.and_assoc]

theorem tariffWanted_schedule {s : State} (hsrc : (mtrCfg s).tariffSrc = 0) (hday : todUs s < 86400000000) :
    tariffWanted false 2500 s = if s.rtc.osf then none else ((mtrCfg s).sched.filter (fallsNow s)).getLast?.map SchedEntry.tariff := by
  unfold tariffWanted tariffIn
  dsimp only
  rw [hsrc, if_neg (by decide), if_neg (by decide), lastMeeting, show entryDue (tickSpan false 2500 s) s.rtc.time.weekday = fallsNow s from
    funext (entryDue_eq hday)]

theorem tariffWanted_di {s : State} (hsrc : (mtrCfg s).tariffSrc = 1) : tariffWanted false 2500 s =
    some (b2n ((diFiltered s).getLsbD (mtrCfg s).tariffDi) + 2 * b2n ((diFiltered s).getLsbD ((mtrCfg s).tariffDi + 1))) := if_pos hsrc

theorem tariffWanted_px {s : State} (hsrc : (mtrCfg s).tariffSrc = 2) : tariffWanted false 2500 s =
    some (b2n (s.frz.p.getLsbD (mtrCfg s).tariffP) + 2 * b2n (s.frz.p.getLsbD ((mtrCfg s).tariffP + 1))) :=
  (if_neg (by rw [hsrc]; decide)).trans (if_pos hsrc)

/-! ### The first tick after an outage (R275) -/

/-- What the OUTAGE record reads, and what says so. -/
def OutageRead (flags : Byte) (count : Nat) (s t : State) : Prop :=
  ∃ (i : Interval) (r : Bytes), mramRead (0x380840 + 64 * s.mtr.logNext.toNat) 64 t = r ∧ IntervalFields flags 0xFF i count 0 r ∧
    i.eImp = 0 ∧ i.eExp = 0 ∧ (count ≠ 0 → i.durMs = count * (mtrCfg s).demandMin * 60000) ∧
    Safety.journals 0x621 0 (item flags.toNat ++ item (s.mtr.iseq + 1).toNat ++ timeBytes i.rtc) s t

/-- What the interval log reads after an outage. -/
structure OutageReads (sn : Snapshot) (s t : State) : Prop where
  cut : IntervalFields (closedFlags flPartial (outageBegun sn s)) sn.run.tariff { sn.run with durMs := sn.run.durMs / 1000 } 1
    (demandOf s sn.run.eImp) (mramRead (0x380800 + 64 * s.mtr.logNext.toNat) 64 t)
  cutSaid : Safety.journals 0x621 0 (item (closedFlags flPartial (outageBegun sn s)).toNat ++ item s.mtr.iseq.toNat ++
    timeBytes sn.run.rtc) s t
  untrusted : rtcTrusted s = false → OutageRead 24 0 s t ∧ (outageClosed sn s).2 = 0
  none : rtcTrusted s = true → outageCount sn s = 0 → (outageClosed sn s).1.mtr.logNext = s.mtr.logNext + 1 ∧ (outageClosed sn s).2 = 0
  counted : rtcTrusted s = true → outageCount sn s ≠ 0 → OutageRead 8 (outageCount sn s) s t ∧ (outageClosed sn s).2 = outageCount sn s

theorem outageBegun_changes (sn : Snapshot) (s : State) : Changes [.mtrRest] s (outageBegun sn s) := by
  unfold outageBegun
  exact .of

theorem OutageLogged.read {sn : Snapshot} {flags : Byte} {count : Nat} {u t : State} {a : Nat} (h : OutageLogged sn flags count u t)
    (hslot : intervalSlot u = a) (hroom : a + 64 ≤ mramSize) (hwf : swf 0 mramSize u.mram = true) {v : State} (hv : v.mram = t.mram) :
    ∃ (i : Interval) (r : Bytes), mramRead a 64 v = r ∧ IntervalFields flags 0xFF i count 0 r ∧ i.eImp = 0 ∧ i.eExp = 0 ∧
      (count ≠ 0 → i.durMs = count * (mtrCfg u).demandMin * 60000) ∧
      Safety.journals 0x621 0 (item flags.toNat ++ item u.mtr.iseq.toNat ++ timeBytes i.rtc) u t ∧
      (∀ b, b + 64 ≤ a → mramRead b 64 v = memRead 0 u.mram b 64) := by
  obtain ⟨i, hmram, himp, hexp, hdur, hsaid⟩ := h.record
  rw [hslot] at hmram
  have hlen := intervalBytes_length flags 0xFF i count 0 (drawn u)
  have hfields := intervalBytes_fields flags 0xFF i count 0 (drawn u)
  generalize intervalBytes flags 0xFF i count 0 (drawn u) = r at hmram hlen hfields
  refine ⟨i, r, slot_read hwf hroom hlen (hv.trans hmram), hfields, himp, hexp, hdur, hsaid, fun b hb => ?_⟩
  rw [mramRead, hv, hmram]
  exact memRead_memWrite_apart 0 mramSize u.mram a r hwf (by rw [hlen]; exact hroom) b 64 (.inl hb)

theorem outageReads_of {sn : Snapshot} {s t : State} (hwf : Safety.storesWf s) (hnext : s.mtr.logNext.toNat < 991)
    (hmram : t.mram = (outageClosed sn s).1.mram) (hlater : Changes meterParts (outageClosed sn s).1 t) : OutageReads sn s t := by
  have hbegun := outageBegun_changes sn s
  have hclosed := closeInterval_closed flPartial (outageBegun sn s)
  have hsame := hclosed.same (not_rises_of_partial _)
  obtain ⟨hslot, hlog⟩ : intervalSlot (closeInterval flPartial (outageBegun sn s)) = 0x380840 + 64 * s.mtr.logNext.toNat ∧
      (closeInterval flPartial (outageBegun sn s)).mtr.logNext = s.mtr.logNext + 1 := by
    have hlog : (closeInterval flPartial (outageBegun sn s)).mtr.logNext = s.mtr.logNext + 1 := by
      rw [hsame]
      exact if_neg (show ¬ s.mtr.logNext.toNat + 1 ≥ 992 by omega)
    refine ⟨?_, hlog⟩
    rw [intervalSlot, hlog, BitVec.toNat_add, show (1 : BitVec 10).toNat = 1 from rfl, Nat.mod_eq_of_lt (by omega)]
    omega
  have hseq : (closeInterval flPartial (outageBegun sn s)).mtr.iseq = s.mtr.iseq + 1 := by
    rw [hsame]
    rfl
  have hfirst : swf 0 mramSize s.mram = true := mramWf_of_storesWf hwf
  have hcutMram : (closeInterval flPartial (outageBegun sn s)).mram =
      memWrite 0 mramSize s.mram (0x380800 + 64 * s.mtr.logNext.toNat) (closedRecord flPartial (outageBegun sn s)) := hclosed.mram
  have hsecond : swf 0 mramSize (closeInterval flPartial (outageBegun sn s)).mram = true := by
    rw [hcutMram]
    exact memWrite_wf _ _ _ _ _ hfirst
  have hroom : 0x380840 + 64 * s.mtr.logNext.toNat + 64 ≤ mramSize := by
    unfold mramSize
    omega
  have hcutRead : memRead 0 (closeInterval flPartial (outageBegun sn s)).mram (0x380800 + 64 * s.mtr.logNext.toNat) 64 =
      closedRecord flPartial (outageBegun sn s) :=
    slot_read (t := closeInterval flPartial (outageBegun sn s)) hfirst (by unfold mramSize; omega) (closedRecord_length ..) hcutMram
  have hfields : IntervalFields (closedFlags flPartial (outageBegun sn s)) sn.run.tariff { sn.run with durMs := sn.run.durMs / 1000 } 1
      (demandOf s sn.run.eImp) (closedRecord flPartial (outageBegun sn s)) := closedRecord_fields flPartial (outageBegun sn s)
  have hcutSaid := hclosed.said (partial_said _)
  have hmiddle : Changes meterParts s (closeInterval flPartial (outageBegun sn s)) := hbegun.mono.join hclosed.runs.changes
  have hmld : (closeInterval flPartial (outageBegun sn s)).mld = s.mld := hmiddle.get .mld
  have hrtc : (closeInterval flPartial (outageBegun sn s)).rtc = s.rtc := hmiddle.rtc
  have htrusted : rtcTrusted (closeInterval flPartial (outageBegun sn s)) = rtcTrusted s := by
    simp only [rtcTrusted, hrtc]
  have hcount : outageCount sn (closeInterval flPartial (outageBegun sn s)) = outageCount sn s := by
    simp only [outageCount, hrtc, mtrCfg_congr hmld]
  have hcfg : mtrCfg (closeInterval flPartial (outageBegun sn s)) = mtrCfg s := mtrCfg_congr hmld
  have hdef : outageClosed sn s = outageRecord sn (closeInterval flPartial (outageBegun sn s)) := rfl
  have hrecord := outageRecord_runs sn (closeInterval flPartial (outageBegun sn s))
  rw [hdef] at hmram hlater
  have hcutHere : Safety.journals 0x621 0 (item (closedFlags flPartial (outageBegun sn s)).toNat ++ item s.mtr.iseq.toNat ++
      timeBytes sn.run.rtc) s t :=
    Safety.journals_mono (journals_of_changes hbegun hcutSaid) ((hrecord.changes.join hlater).get .sjGrows)
  generalize closeInterval flPartial (outageBegun sn s) = u at *
  have hout {flags : Byte} {count : Nat} (h : OutageLogged sn flags count u (outageRecord sn u).1) : OutageRead flags count s t ∧
      mramRead (0x380800 + 64 * s.mtr.logNext.toNat) 64 t = closedRecord flPartial (outageBegun sn s) := by
    obtain ⟨i, r, hread, hf, himp, hexp, hdur, hsaid, hapart⟩ := h.read hslot hroom hsecond hmram
    rw [hseq] at hsaid
    rw [hcfg] at hdur
    refine ⟨⟨i, r, hread, hf, himp, hexp, hdur, ?_⟩, (hapart _ (by omega)).trans hcutRead⟩
    exact Safety.journals_mono (journals_of_changes hmiddle hsaid) (hlater.get .sjGrows)
  have hcut : mramRead (0x380800 + 64 * s.mtr.logNext.toNat) 64 t = closedRecord flPartial (outageBegun sn s) := by
    cases htrust : rtcTrusted s with
    | false => exact (hout (outageRecord_untrusted (htrusted.trans htrust)).1).2
    | true =>
      by_cases hzero : outageCount sn s = 0
      · rw [outageRecord_none (htrusted.trans htrust) (hcount.trans hzero)] at hmram
        rw [mramRead, hmram]
        exact hcutRead
      · exact (hout (outageRecord_counted (htrusted.trans htrust) (by rw [hcount]; exact hzero)).1).2
  refine ⟨?_, hcutHere, fun htrust => ?_, fun htrust hzero => ?_, fun htrust hsome => ?_⟩
  · rw [hcut]
    exact hfields
  · obtain ⟨hlogged, hnone⟩ := outageRecord_untrusted (sn := sn) (htrusted.trans htrust)
    exact ⟨(hout hlogged).1, hdef ▸ hnone⟩
  · rw [hdef, outageRecord_none (htrusted.trans htrust) (hcount.trans hzero)]
    exact ⟨hlog, rfl⟩
  · obtain ⟨hlogged, hsame⟩ := outageRecord_counted (sn := sn) (htrusted.trans htrust) (by rw [hcount]; exact hsome)
    rw [hcount] at hlogged hsame
    exact ⟨(hout hlogged).1, hdef ▸ hsame⟩

end
end Sys2Proof.Machine
end

section
/-! PROOF. Metering counts and keeps its counts (R265 to R276). -/

namespace Sys2Proof.Machine

section
set_option Elab.async false

/-! ### Snapshots (R273) -/

/-- Where the next snapshot goes. -/
def snapSlot (s : State) : Nat := if s.mtr.lastWasB then 0x380000 else 0x380400

theorem snapSlot_eq (s : State) : snapAddr (!s.mtr.lastWasB) = snapSlot s := by
  cases h : s.mtr.lastWasB <;> simp [snapAddr, snapSlot, h]

theorem snapSlot_room (s : State) : snapSlot s + 232 ≤ 0x3804E8 := by
  unfold snapSlot
  split_ifs <;> omega

theorem takeSnapshot_mram (s : State) : (takeSnapshot s).mram = memWrite 0 mramSize s.mram (snapSlot s) (snapBytes (snapshotOf s)) := by
  unfold takeSnapshot
  rw [mramWrite_mram, snapSlot_eq]

theorem takeSnapshot_mtr (s : State) : (takeSnapshot s).mtr = { s.mtr with lastWasB := !s.mtr.lastWasB } := by
  unfold takeSnapshot
  exact (mramWrite_changes ..).mtr

theorem takeSnapshot_outside (s : State) {x : Nat} (h : x < snapSlot s ∨ snapSlot s + 232 ≤ x) :
    memGet 0 (takeSnapshot s).mram x = memGet 0 s.mram x := by
  have hlen := snapBytes_length (snapshotOf s)
  rw [takeSnapshot_mram]
  generalize snapBytes (snapshotOf s) = bs at hlen ⊢
  exact Safety.memGet_memWrite_outside _ _ _ _ _ _ (by rw [hlen]; exact h)

theorem snapshot_read {s t : State} (hwf : swf 0 mramSize s.mram = true) (ht : t.mram = (takeSnapshot s).mram) :
    mramRead (snapSlot s) 232 t = snapBytes (snapshotOf s) := by
  have hlen := snapBytes_length (snapshotOf s)
  rw [takeSnapshot_mram] at ht
  generalize snapBytes (snapshotOf s) = bs at hlen ht ⊢
  have hroom := snapSlot_room s
  have hread := memRead_memWrite 0 mramSize s.mram (snapSlot s) bs hwf (by rw [hlen]; unfold mramSize; omega)
  rw [hlen] at hread
  rw [mramRead, ht, hread]

theorem snapshotOf_counts (s : State) : (snapshotOf s).imp = s.mtr.imp ∧ (snapshotOf s).exp = s.mtr.exp ∧ (snapshotOf s).md = s.mtr.md ∧
    (snapshotOf s).chg = s.mtr.chg ∧ (snapshotOf s).dis = s.mtr.dis ∧ (snapshotOf s).tariff = s.mtr.tariff := by
  unfold snapshotOf
  exact ⟨rfl, rfl, rfl, rfl, rfl, rfl⟩

theorem snapshotOf_seq (s : State) : (snapshotOf s).seq =
    max (((snapCopy false s).map Snapshot.seq).getD 0) (((snapCopy true s).map Snapshot.seq).getD 0) + 1 := by
  unfold snapshotOf
  rfl

/-- The sequence rises over both copies (R273). -/
theorem snapshotOf_rises {s : State} {y : Snapshot} (hy : snapCopy false s = some y ∨ snapCopy true s = some y)
    (hsmall : ∀ z, snapCopy false s = some z ∨ snapCopy true s = some z → z.seq + 1 < 2 ^ 64) :
    y.seq < (snapshotOf s).seq % 2 ^ 64 := by
  rw [snapshotOf_seq]
  generalize snapCopy false s = a at hy hsmall ⊢
  generalize snapCopy true s = b at hy hsmall ⊢
  have hlast : max ((a.map Snapshot.seq).getD 0) ((b.map Snapshot.seq).getD 0) + 1 < 2 ^ 64 := by
    cases a with
    | none =>
      cases b with
      | none => simp
      | some z => simpa using hsmall z (.inr rfl)
    | some x =>
      have hx := hsmall x (.inl rfl)
      cases b with
      | none => simpa using hx
      | some z =>
        have hz := hsmall z (.inr rfl)
        simp only [Option.map_some, Option.getD_some]
        omega
  rw [Nat.mod_eq_of_lt hlast]
  rcases hy with rfl | rfl
  · simp only [Option.map_some, Option.getD_some]
    omega
  · simp only [Option.map_some, Option.getD_some]
    omega

/-! ### The freeze (R274) -/

/-- Metering frozen by PFW. -/
def pfwFrozen (s : State) : State := { s with mtr := { s.mtr with frozen := true, frozenPfw := true } }

theorem freezeMeter_pfw {s : State} (hrun : s.mtr.running = true) (hlive : s.mtr.frozen = false) :
    freezeMeter 0 s = sj 0x622 0 (item 0 ++ item (snapshotOf (pfwFrozen s)).seq) (takeSnapshot (pfwFrozen s)) := by
  unfold freezeMeter
  rw [if_pos ⟨hrun, by rw [hlive]; rfl⟩]
  rfl

/-- What a freeze leaves. -/
structure MeterFrozen (s t : State) : Prop where
  mtr : t.mtr = { s.mtr with frozen := true, frozenPfw := true, lastWasB := !s.mtr.lastWasB }
  high : ∀ x, 0x380800 ≤ x → memGet 0 t.mram x = memGet 0 s.mram x
  grows : Changes (.frozen :: .mram :: bookParts) s t
  snapshot : swf 0 mramSize s.mram = true → ∃ n : Snapshot, mramRead (snapSlot s) 232 t = snapBytes n ∧ n.imp = s.mtr.imp ∧
    n.exp = s.mtr.exp ∧ n.tariff = s.mtr.tariff ∧ Safety.journals 0x622 0 (item 0 ++ item n.seq) s t

theorem freezeMeter_meterFrozen {s : State} (hrun : s.mtr.running = true) (hlive : s.mtr.frozen = false) : MeterFrozen s (freezeMeter 0 s) := by
  have hset : Changes (.frozen :: .mram :: bookParts) s (pfwFrozen s) := by
    unfold pfwFrozen
    exact .of
  have hslot : snapSlot (pfwFrozen s) = snapSlot s := rfl
  have hmramSet : (pfwFrozen s).mram = s.mram := rfl
  have hmtrSet : (pfwFrozen s).mtr = { s.mtr with frozen := true, frozenPfw := true } := rfl
  rw [freezeMeter_pfw hrun hlive]
  generalize pfwFrozen s = u at hset hslot hmramSet hmtrSet ⊢
  have htaken := takeSnapshot_changes u
  have hmtr := takeSnapshot_mtr u
  have houtside (x : Nat) := takeSnapshot_outside u (x := x)
  have hread (v : State) (hv : v.mram = (takeSnapshot u).mram) (hwf : swf 0 mramSize u.mram = true) := snapshot_read hwf hv
  obtain ⟨himp, hexp, -, -, -, htariff⟩ := snapshotOf_counts u
  generalize takeSnapshot u = v at htaken hmtr houtside hread ⊢
  generalize snapshotOf u = n at hread himp hexp htariff ⊢
  have hsaid := sj_changes 0x622 0 (item 0 ++ item n.seq) v
  have hgrows := hset.trans htaken
  refine ⟨?_, fun x hx => ?_, hgrows.trans hsaid, fun hwf => ?_⟩
  · rw [hsaid.mtr, hmtr, hmtrSet]
  · rw [hsaid.get .mram, houtside x (.inr (Nat.le_trans (snapSlot_room u) (by omega))), hmramSet]
  · refine ⟨n, ?_, ?_, ?_, ?_, ?_⟩
    · rw [← hslot]
      exact hread _ (hsaid.get .mram) (by rw [hmramSet]; exact hwf)
    · rw [himp, hmtrSet]
    · rw [hexp, hmtrSet]
    · rw [htariff, hmtrSet]
    · exact Safety.journals_of_sj (hgrows.get .sjGrows) (List.prefix_refl _) (by rw [opMs, opMs, hgrows.get .opUs]) (hgrows.get .pwrCycles)

/-! ### A supply warning (R274) -/

/-- A supply warning in a unit that is awake, before its truncated tick. -/
def supplyWarned (mv : Half) (s : State) : State :=
  pushEventFree 3 1 (sjRep 0x501 1 0 (item mv.toNat) (withFieldEvent raisePfw
    { s with sens := { s.sens with x1 := mv }, clk := { s.clk with savedMs := opMs s } }))

theorem supplyWarn_awake {mv : Half} {tick : TickSamples} {s : State} (hawake : awake s = true) (hpfw : s.power.pfw = false) :
    supplyWarn mv tick s = truncatedTick tick (supplyWarned mv s) := by
  unfold supplyWarn supplyWarned
  dsimp only
  rw [if_neg (by rw [hpfw]; exact Bool.false_ne_true), if_pos hawake]

theorem supplyWarned_changes (mv : Half) (s : State) :
    Changes (.sens :: .savedMs :: .pfw :: .mtrRest :: bookParts) s (supplyWarned mv s) := by
  have hset : Changes (.sens :: .savedMs :: .pfw :: .mtrRest :: bookParts) s
      { s with sens := { s.sens with x1 := mv }, clk := { s.clk with savedMs := opMs s } } := .of
  have hraised (u : State) : Changes (.sens :: .savedMs :: .pfw :: .mtrRest :: bookParts) u (raisePfw u) := by
    unfold raisePfw
    exact .of
  exact ((hset.join (withFieldEvent_changes (hraised _))).trans (sjRep_changes ..)).trans (pushEventFree_changes ..)

theorem supplyWarned_mtr (mv : Half) (s : State) : (supplyWarned mv s).mtr = s.mtr := by
  unfold supplyWarned
  generalize hw : ({ s with sens := { s.sens with x1 := mv }, clk := { s.clk with savedMs := opMs s } } : State) = w
  have hwm : w.mtr = s.mtr := by rw [← hw]
  have hraised : Changes (.pfw :: bookParts) w (withFieldEvent raisePfw w) := withFieldEvent_changes (by unfold raisePfw; exact .of)
  rw [(pushEventFree_changes ..).mtr, (sjRep_changes ..).mtr, hraised.mtr, hwm]

theorem supplyWarned_kept (mv : Half) (s : State) : Kept s (supplyWarned mv s) :=
  pushEventFree_kept (sjRep_kept (withFieldEvent_kept (Kept.refl s).set raisePfw_kept))

theorem truncatedTick_ordinary {tick : TickSamples} {s : State} (hrun : s.mtr.running = true) (hlive : s.mtr.frozen = false)
    (hpower : pdIs s 8 = true) (hrestored : s.mtr.restored = none) :
    truncatedTick tick s = freezeMeter 0 (truncatedEvents tick.count (addEnergy (tickUsed tick s) s)) := by
  have hdur := tickUsed_dur tick s
  unfold truncatedTick
  dsimp only
  rw [if_pos ⟨hrun, by rw [hlive]; rfl, hpower⟩, hrestored, hdur]

/-- What a truncated tick does in its nominal 10 ms, where the clock has not been set. -/
theorem truncatedEvents_ordinary {n : Nat} {s : State} (hpending : s.mtr.pendingSet = false) :
    truncatedEvents n s = tickEvents true n flCoincident s := if_neg (by rw [hpending]; exact Bool.false_ne_true)

theorem tickUsed_congr {s t : State} (hmld : t.mld = s.mld) (hmtr : t.mtr = s.mtr) (tick : TickSamples) : tickUsed tick t = tickUsed tick s := by
  unfold tickUsed mwPressing
  rw [hmld, hmtr]

/-- A supply warning is the tick it cuts short, counted, with what falls in it, and the freeze. -/
theorem supplyWarn_counted {c : AcqCfg} {mv : Half} {tick : TickSamples} {s : State} (hacq : acqCfg s = some c) (hawake : awake s = true)
    (hpfw : s.power.pfw = false) (hrun : s.mtr.running = true) (hlive : s.mtr.frozen = false) (hpower : s.power.pdOn.getLsbD 8 = true)
    (hrestored : s.mtr.restored = none) (hpending : s.mtr.pendingSet = false) :
    ∃ e, Counted c (tickUsed tick s) s e ∧ Kept s e ∧ supplyWarn mv tick s = freezeMeter 0 (tickEvents true tick.count flCoincident e) := by
  have hwarned := supplyWarned_changes mv s
  have hmtr := supplyWarned_mtr mv s
  have hkept := supplyWarned_kept mv s
  rw [supplyWarn_awake hawake hpfw]
  generalize supplyWarned mv s = w at hwarned hmtr hkept ⊢
  rw [truncatedTick_ordinary (by rw [hmtr, hrun]) (by rw [hmtr, hlive]) (by rw [pdIs, hwarned.get .pdOn, hpower])
    (by rw [hmtr, hrestored]), tickUsed_congr (hwarned.get .mld) hmtr]
  have hcounted : Counted c (tickUsed tick s) s (addEnergy (tickUsed tick s) w) := .of_energy hacq _ hwarned (by rw [hmtr])
  refine ⟨_, hcounted, addEnergy_kept hkept, ?_⟩
  rw [truncatedEvents_ordinary (by rw [hcounted.mtr, hpending])]

end
end Sys2Proof.Machine
end

section
/-! PROOF. Metering counts and keeps its counts (R265 to R276). -/

namespace Sys2Proof.Machine

section
set_option Elab.async false

/-! ### A tick that no outage came before -/

section
variable {c : AcqCfg} {tick : TickSamples} {s : State}

/-- What a tick at a boundary leaves, by the record that it writes. -/
structure BoundaryShown (c : AcqCfg) (used : TickSums) (flags : Byte) (s t : State) : Prop where
  counted : t.mtr.interval.eImp = 0 ∧ t.mtr.interval.eExp = 0 ∧ t.mtr.interval.durMs = 0
  iseq : t.mtr.iseq = s.mtr.iseq + 1
  record : TickRecord c used flags s (mramRead (0x380800 + 64 * s.mtr.logNext.toNat) 64 t)

theorem Counted.boundary {used : TickSums} {e t u : State} {co : Byte} {sp : Span} (h : Counted c used s e) (hwf : Safety.storesWf s)
    (hnext : s.mtr.logNext.toNat < 992) (hdone : BoundaryDone co sp e u) (hinterval : t.mtr.interval = u.mtr.interval)
    (hiseq : t.mtr.iseq = u.mtr.iseq) (hread : ∀ a, 0x380800 ≤ a → mramRead a 64 t = mramRead a 64 u) :
    BoundaryShown c used (closedFlags (flComplete ||| co) e) s t := by
  refine ⟨by rw [hinterval]; exact hdone.counted, hiseq.trans (h.closed hdone.logged.1), ?_⟩
  rw [hread _ (by omega)]
  exact h.read hwf hnext hdone.mram

/-- The ordinary tick of a running meter. -/
theorem meterTick_counted (h : Ticks tick s) (hrestored : s.mtr.restored = none) :
    ∃ u, MeterRuns (tickCounted tick s) u ∧ (meterTick tick s).mtr = u.mtr ∧ (meterTick tick s).mram = u.mram ∧
      Changes meterParts u (meterTick tick s) ∧ (s.mtr.pendingSet = false → u = tickEvents false 2500 0 (tickCounted tick s)) ∧
      (s.mtr.pendingSet = true → u.mtr.pendingSet = false) := by
  cases hpending : s.mtr.pendingSet with
  | false =>
    rw [meterTick_ordinary h hrestored hpending]
    obtain ⟨hruns, hmtr, hmram⟩ := meterW_runs (tickEvents false 2500 0 (tickCounted tick s))
    exact ⟨_, eventsIn_runs .., hmtr, hmram, hruns.changes, fun _ => rfl, fun h => Bool.noConfusion h⟩
  | true =>
    rw [meterTick_clock h hrestored hpending]
    obtain ⟨hruns, hmtr, hmram⟩ := meterW_runs (clockSetTick (tickCounted tick s))
    obtain ⟨hset, hnot, -⟩ := clockSetTick_shows (tickCounted tick s)
    exact ⟨_, hset, hmtr, hmram, hruns.changes, fun h => Bool.noConfusion h, fun _ => hnot⟩

theorem mem_none_some {α : Type} {x : Option α} {y : α} (h : x ∈ [none, some y]) : x = none ∨ x = some y := by simpa using h

/-- The demand that the running interval reaches with a tick. -/
def tickDemand (c : AcqCfg) (used : TickSums) (s : State) : Nat :=
  (s.mtr.interval.eImp + tickImport c used) / 1000 * 60 / (1000 * (mtrCfg s).demandMin)

/-- What a tick at a boundary leaves of the maximum demand (R269). -/
structure MaximumShown (c : AcqCfg) (used : TickSums) (s t : State) : Prop where
  same : ¬ (s.mtr.interval.flags &&& 0x6C = 0 ∧ nth 0 s.mtr.md s.mtr.interval.tariff < tickDemand c used s) → t.mtr.md = s.mtr.md
  rises : s.mtr.interval.flags &&& 0x6C = 0 ∧ nth 0 s.mtr.md s.mtr.interval.tariff < tickDemand c used s →
    t.mtr.md = s.mtr.md.set s.mtr.interval.tariff (tickDemand c used s) ∧ (ringFull (ringGet s 3) = false →
      ∃ x ∈ t.log.trQueue.drop s.log.trQueue.length, x.code = 0x625 ∧
        x.items = item s.mtr.interval.tariff ++ item (tickDemand c used s) ++ item s.mtr.iseq.toNat)

theorem mem_drop_of_later {α : Type} {p q : List α} {n : Nat} {x : α} (h : x ∈ p.drop n) (hpq : p <+: q) : x ∈ q.drop n := by
  obtain ⟨tail, rfl⟩ := hpq
  rw [List.drop_append]
  exact List.mem_append_left _ h

/-- The events of an ordinary tick. -/
structure OrdinaryTick (c : AcqCfg) (tick : TickSamples) (s t : State) : Prop where
  within : boundaryDue false 2500 s = false → tariffWanted false 2500 s ∈ [none, some s.mtr.tariff] →
    t.mtr.interval.eImp = s.mtr.interval.eImp + tickImport c (tickUsed tick s) ∧
      t.mtr.interval.eExp = s.mtr.interval.eExp + tickExport c (tickUsed tick s) ∧
      t.mtr.interval.durMs = s.mtr.interval.durMs + 10000 ∧ t.mtr.interval.tariff = s.mtr.interval.tariff ∧ t.mtr.tariff = s.mtr.tariff
  boundary : boundaryDue false 2500 s = true → s.mtr.logNext.toNat < 992 → Safety.storesWf s →
    ∃ flags : Byte, flags.getLsbD 0 = true ∧ BoundaryShown c (tickUsed tick s) flags s t ∧ MaximumShown c (tickUsed tick s) s t
  cut : boundaryDue false 2500 s = false → s.mtr.logNext.toNat < 992 → Safety.storesWf s →
    ∀ new, tariffWanted false 2500 s = some new → new ≠ s.mtr.tariff →
      ∃ flags : Byte, flags.getLsbD 5 = true ∧ BoundaryShown c (tickUsed tick s) flags s t ∧ t.mtr.tariff = new ∧
        t.mtr.interval.tariff = new ∧ t.mtr.md = s.mtr.md ∧
        Safety.journals 0x620 0 (item s.mtr.tariff ++ item new ++ item (mtrCfg s).tariffSrc.toNat) s t

theorem meterTick_events (hacq : acqCfg s = some c) (h : Ticks tick s) (hrestored : s.mtr.restored = none)
    (hpending : s.mtr.pendingSet = false) : OrdinaryTick c tick s (meterTick tick s) := by
  obtain ⟨u, -, hmtr, hmram, hlater, hevents, -⟩ := meterTick_counted h hrestored
  have hu := hevents hpending
  have hcounted := tickCounted_counted tick hacq
  have hchanges := tickCounted_changes tick s
  have hdur : (tickUsed tick s).dur = 2500 := (tickUsed_dur tick s).trans h.full
  generalize meterTick tick s = t at hmtr hmram hlater ⊢
  obtain ⟨htariff, hsrc⟩ := hcounted.tariff
  obtain ⟨hdue, hwant⟩ := hcounted.judged false 2500
  generalize tickCounted tick s = e at hcounted hchanges hu htariff hsrc hdue hwant
  have hread (a : Nat) (_ : 0x380800 ≤ a) : mramRead a 64 t = mramRead a 64 u := by rw [mramRead, mramRead, hmram]
  refine ⟨fun hno hsame => ?_, fun hyes hnext hwf => ?_, fun hno hnext hwf new hnew hne => ?_⟩
  · have hsameE : u = e := by
      rw [hu]
      refine eventsIn_within 0 (hdue.trans hno) ?_
      rw [hwant, htariff]
      exact mem_none_some hsame
    obtain ⟨himp, hexp, hms, hkept, hsame⟩ := hcounted.within (t := t) (by rw [hmtr, hsameE])
    exact ⟨himp, hexp, by rw [hms, hdur], hkept, hsame⟩
  · have hdone : BoundaryDone 0 (tickSpan false 2500 e) e u := by
      rw [hu]
      exact eventsIn_boundary 0 (hdue.trans hyes)
    refine ⟨closedFlags (flComplete ||| 0) e, ?_, hcounted.boundary hwf hnext hdone (by rw [hmtr]) (by rw [hmtr]) hread, ?_⟩
    · rw [← BitVec.testBit_toNat]
      exact closedFlags_testBit _ _ 0 rfl
    · obtain ⟨hsame, hrises⟩ := hcounted.maximum (t := t) (by rw [hmtr]; exact hdone.logged.2)
      refine ⟨fun hno => hsame fun hr => hno (hcounted.rises.mp hr), fun hr => ⟨hrises (hcounted.rises.mpr hr), fun hroom => ?_⟩⟩
      have hclear : closedFlags (flComplete ||| 0) e &&& 12 = 0 := quiet_of_masked (hcounted.masked.trans hr.1)
      have hring : ringFull (ringGet e 3) = false := by
        have hsameRing : ringGet e 3 = ringGet s 3 := by rw [ringGet, ringGet, hchanges.get .rings]
        rw [hsameRing, hroom]
      have hqueue : e.log.trQueue = s.log.trQueue := by rw [hchanges.log]
      obtain ⟨x, hx, hcode, hitems⟩ := (closeInterval_closed (flComplete ||| 0) e).traced (hcounted.rises.mpr hr) hclear hring
      rw [hqueue] at hx
      refine ⟨x, mem_drop_of_later hx ((hdone.runs.changes.join hlater).get .trGrows), hcode, ?_⟩
      rw [hitems, demandItems, hcounted.demand, hcounted.interval]
      have hseq : e.mtr.iseq = s.mtr.iseq := by rw [hcounted.mtr]
      rw [hseq]
      rfl
  · have hcut : TariffCut new e u := by
      rw [hu]
      exact eventsIn_cut (hdue.trans hno) (hwant.trans hnew) (by rw [htariff]; exact hne)
    have hmd : e.mtr.md = s.mtr.md := by rw [hcounted.mtr]
    have hsaid := hcut.said
    rw [htariff, hsrc] at hsaid
    refine ⟨closedFlags flTariffCut e, ?_, ⟨by rw [hmtr]; exact hcut.counted, by rw [hmtr]; exact hcounted.closed hcut.logged.1, ?_⟩,
      by rw [hmtr, hcut.tariff.1], by rw [hmtr, hcut.tariff.2], ?_, ?_⟩
    · rw [← BitVec.testBit_toNat]
      exact closedFlags_testBit _ _ 5 rfl
    · rw [hread _ (by omega)]
      exact hcounted.read hwf hnext hcut.mram
    · rw [hmtr, hcut.logged.2, closeInterval_md (not_rises_of_cut e), hmd]
    · exact Safety.journals_mono (journals_of_changes hchanges hsaid) (hlater.get .sjGrows)

end

end
end Sys2Proof.Machine
end

section
/-! PROOF. Metering counts and keeps its counts (R265 to R276). -/

namespace Sys2Proof.Machine

section
set_option Elab.async false

section
variable {c : AcqCfg} {tick : TickSamples} {s : State}

/-! ### The first tick after an outage (R275) -/

/-- The first tick after an outage, with the steps that come before it. -/
structure OutageTick (c : AcqCfg) (tick : TickSamples) (sn : Snapshot) (s t : State) : Prop where
  shown : TickShown c (tickUsed tick s) s t
  restored : t.mtr.restored = none
  pending : t.mtr.pendingSet = false
  set : s.mtr.pendingSet = true → t.mtr.interval.eImp = 0 ∧ t.mtr.interval.eExp = 0 ∧ t.mtr.interval.flags.getLsbD 6 = true
  counted : s.mtr.pendingSet = false → t.mtr.imp = s.mtr.imp.modify t.mtr.tariff (· + tickImport c (tickUsed tick s)) ∧
    t.mtr.exp = s.mtr.exp.modify t.mtr.tariff (· + tickExport c (tickUsed tick s)) ∧
    t.mtr.interval.eImp = tickImport c (tickUsed tick s) ∧ t.mtr.interval.eExp = tickExport c (tickUsed tick s) ∧
    t.mtr.interval.flags.getLsbD 2 = true ∧ t.mtr.md = s.mtr.md
  later : s.mtr.pendingSet = false → Changes meterParts (outageClosed sn (ticked (tickUsed tick s) s)).1 t ∧
    t.mram = (outageClosed sn (ticked (tickUsed tick s) s)).1.mram ∧
    t.mtr.logNext = (outageClosed sn (ticked (tickUsed tick s) s)).1.mtr.logNext ∧
    ((mtrCfg s).tariffSrc = 0 → s.rtc.osf = false → t.mtr.tariff = (outageWant sn s).getD s.mtr.tariff) ∧
    Safety.journals 0x623 0 (item sn.seq ++ item (outageClosed sn (ticked (tickUsed tick s) s)).2) s t

theorem meterTick_afterOutage {sn : Snapshot} (hacq : acqCfg s = some c) (h : Ticks tick s) (hrestored : s.mtr.restored = some sn) :
    OutageTick c tick sn s (meterTick tick s) := by
  have hbase := afterOutage_base sn (tickUsed tick s) s
  have hdone := afterOutage_done sn (ticked (tickUsed tick s) s)
  have hticked := ticked_changes (tickUsed tick s) s
  rw [meterTick_outage h hrestored, outageCounted]
  generalize afterOutage sn (ticked (tickUsed tick s) s) = a at hbase hdone ⊢
  have hacqA : acqCfg a = some c := (acqCfg_congr hbase.mld).trans hacq
  have henergy := addEnergy_mtr hacqA (tickUsed tick s)
  have hrest := addEnergy_rest (tickUsed tick s) a
  have hshown (t : State) (ht : MeterRuns (addEnergy (tickUsed tick s) a) t) : TickShown c (tickUsed tick s) s t := hbase.shown hacq ht
  generalize addEnergy (tickUsed tick s) a = e at henergy hrest hshown ⊢
  have hcounts := hdone.runs.counts
  have hrestoredE : e.mtr.restored = none := by
    rw [henergy, hcounts]
    rfl
  cases hpending : s.mtr.pendingSet with
  | true =>
    rw [whenever, if_pos rfl]
    obtain ⟨hset, hnot, himp, hexp, hflag⟩ := clockSetTick_shows e
    obtain ⟨hshow, hmtr, hmram⟩ := meterW_runs (clockSetTick e)
    refine ⟨hshown _ (hset.trans hshow), ?_, by rw [hmtr, hnot], fun _ => ?_, fun h => absurd (hpending.symm.trans h) (by decide),
      fun h => absurd (hpending.symm.trans h) (by decide)⟩
    · rw [hmtr, hset.counts, hrestoredE]
    · rw [hmtr]
      exact ⟨himp, hexp, hflag⟩
  | false =>
    rw [whenever, if_neg Bool.false_ne_true]
    obtain ⟨hshow, hmtr, hmram⟩ := meterW_runs e
    have hpendingA : a.mtr.pendingSet = false := by
      cases hp : a.mtr.pendingSet with
      | false => rfl
      | true => exact absurd (hdone.runs.pending hp) (by change ¬ s.mtr.pendingSet = true; rw [hpending]; exact Bool.false_ne_true)
    have himpA : a.mtr.imp = s.mtr.imp := by
      rw [hcounts]
      rfl
    have hexpA : a.mtr.exp = s.mtr.exp := by
      rw [hcounts]
      rfl
    refine ⟨hshown _ hshow, by rw [hmtr, hrestoredE], ?_, fun h => absurd (hpending.symm.trans h) (by decide), fun _ => ?_, fun _ => ⟨?_, ?_, ?_, fun hsrc hosf => ?_, ?_⟩⟩
    · rw [hmtr, henergy]
      exact hpendingA
    · obtain ⟨himp, hexp, hflag⟩ := hdone.fresh
      rw [hmtr, henergy]
      refine ⟨by rw [himpA], by rw [hexpA], ?_, ?_, ?_, hdone.mtr.2⟩
      · change a.mtr.interval.eImp + _ = _
        rw [himp, Nat.zero_add]
      · change a.mtr.interval.eExp + _ = _
        rw [hexp, Nat.zero_add]
      · change (a.mtr.interval.flags ||| unverifiedNow a).getLsbD 2 = true
        rw [BitVec.getLsbD_or, hflag, Bool.true_or]
    · exact (hdone.later.join hrest.mono).join hshow.changes
    · rw [hmram, hrest.get .mram, hdone.mram]
    · rw [hmtr, henergy]
      exact hdone.mtr.1
    · rw [hmtr, henergy]
      exact hdone.tariff hsrc hosf
    · exact Safety.journals_mono (journals_of_changes hticked hdone.said) ((hrest.mono.join hshow.changes).get .sjGrows)

/-! ### The tick that a supply warning cuts short (R274) -/

/-- A tick cut short, with the freeze. -/
structure TruncatedTick (c : AcqCfg) (tick : TickSamples) (s t : State) : Prop where
  frozen : t.mtr.frozen = true ∧ t.mtr.frozenPfw = true ∧ t.mtr.lastWasB = !s.mtr.lastWasB
  counts : t.mtr.imp = s.mtr.imp.modify s.mtr.tariff (· + tickImport c (tickUsed tick s)) ∧
    t.mtr.exp = s.mtr.exp.modify s.mtr.tariff (· + tickExport c (tickUsed tick s))
  within : boundaryDue true tick.count s = false → tariffWanted true tick.count s ∈ [none, some s.mtr.tariff] →
    t.mtr.interval.eImp = s.mtr.interval.eImp + tickImport c (tickUsed tick s) ∧
      t.mtr.interval.eExp = s.mtr.interval.eExp + tickExport c (tickUsed tick s) ∧
      t.mtr.interval.durMs = s.mtr.interval.durMs + 4 * tick.count ∧ t.mtr.tariff = s.mtr.tariff
  boundary : boundaryDue true tick.count s = true → s.mtr.logNext.toNat < 992 → Safety.storesWf s →
    ∃ flags : Byte, flags.getLsbD 0 = true ∧ flags.getLsbD 1 = true ∧ BoundaryShown c (tickUsed tick s) flags s t
  tariff : ∀ new, tariffWanted true tick.count s = some new → new ≠ s.mtr.tariff → t.mtr.tariff = new ∧ t.mtr.interval.tariff = new ∧
    t.mtr.interval.eImp = 0 ∧ t.mtr.interval.eExp = 0 ∧
    Safety.journals 0x620 0 (item s.mtr.tariff ++ item new ++ item (mtrCfg s).tariffSrc.toNat) s t
  snapshot : Safety.storesWf s → ∃ n : Snapshot, mramRead (if s.mtr.lastWasB then 0x380000 else 0x380400) 232 t = snapBytes n ∧
    n.imp = t.mtr.imp ∧ n.exp = t.mtr.exp ∧ n.tariff = t.mtr.tariff ∧ Safety.journals 0x622 0 (item 0 ++ item n.seq) s t

theorem supplyWarn_truncated {mv : Half} (hacq : acqCfg s = some c) (hawake : awake s = true) (hpfw : s.power.pfw = false)
    (hrun : s.mtr.running = true) (hlive : s.mtr.frozen = false) (hpower : s.power.pdOn.getLsbD 8 = true)
    (hrestored : s.mtr.restored = none) (hpending : s.mtr.pendingSet = false) : TruncatedTick c tick s (supplyWarn mv tick s) := by
  obtain ⟨e, hcounted, hkept, heq⟩ := supplyWarn_counted (mv := mv) (tick := tick) hacq hawake hpfw hrun hlive hpower hrestored hpending
  rw [heq]
  have hdur := tickUsed_dur tick s
  obtain ⟨htariff, hsrc⟩ := hcounted.tariff
  obtain ⟨hdue, hwant⟩ := hcounted.judged true tick.count
  have hruns : MeterRuns e (tickEvents true tick.count flCoincident e) := eventsIn_runs ..
  have hwf (h : Safety.storesWf s) : swf 0 mramSize (tickEvents true tick.count flCoincident e).mram = true :=
    mramWf_of_storesWf ((tickEvents_kept hkept).wf h)
  have hevents : tickEvents true tick.count flCoincident e =
      eventsIn (tickSpan true tick.count e) (gridSpan true tick.count e) flCoincident e := rfl
  generalize tickEvents true tick.count flCoincident e = u at hruns hwf hevents ⊢
  have hrunE : e.mtr.running = true ∧ e.mtr.frozen = false ∧ e.mtr.lastWasB = s.mtr.lastWasB := by
    rw [hcounted.mtr]
    exact ⟨hrun, hlive, rfl⟩
  have hrunU : u.mtr.running = true ∧ u.mtr.frozen = false ∧ u.mtr.lastWasB = s.mtr.lastWasB := by
    rw [hruns.counts]
    exact hrunE
  have hfrozen := freezeMeter_meterFrozen hrunU.1 hrunU.2.1
  generalize freezeMeter 0 u = t at hfrozen ⊢
  have hmtr := hfrozen.mtr
  obtain ⟨himp, hexp, -, -⟩ := hcounted.counts hruns
  have hchanges : Changes (.sens :: .savedMs :: .pfw :: meterParts) s u := hcounted.changes.mono.join hruns.changes.mono
  have hread (a : Nat) (ha : 0x380800 ≤ a) : mramRead a 64 t = mramRead a 64 u :=
    memRead_congr fun b hb _ => hfrozen.high b (Nat.le_trans ha hb)
  have hdone (hyes : boundaryDue true tick.count s = true) : BoundaryDone flCoincident (tickSpan true tick.count e) e u := by
    rw [hevents]
    exact eventsIn_boundary _ (hdue.trans hyes)
  refine ⟨?_, ?_, fun hno hsame => ?_, fun hyes hnext hstores => ?_, fun new hnew hne => ?_, fun hstores => ?_⟩
  · rw [hmtr, hrunU.2.2]
    exact ⟨rfl, rfl, rfl⟩
  · rw [hmtr]
    exact ⟨himp, hexp⟩
  · have hsameE : u = e := by
      rw [hevents]
      refine eventsIn_within _ (hdue.trans hno) ?_
      rw [hwant, htariff]
      exact mem_none_some hsame
    obtain ⟨hi, he, hms, -, hsame⟩ := hcounted.within (t := u) (by rw [hsameE])
    rw [hmtr]
    exact ⟨hi, he, by rw [← hdur]; exact hms, hsame⟩
  · refine ⟨closedFlags (flComplete ||| flCoincident) e, ?_, ?_,
      hcounted.boundary hstores hnext (hdone hyes) (by rw [hmtr]) (by rw [hmtr]) hread⟩
    · rw [← BitVec.testBit_toNat]
      exact closedFlags_testBit _ _ 0 rfl
    · rw [← BitVec.testBit_toNat]
      exact closedFlags_testBit _ _ 1 rfl
  · have hshown : u.mtr.tariff = new ∧ u.mtr.interval.tariff = new ∧ u.mtr.interval.eImp = 0 ∧ u.mtr.interval.eExp = 0 ∧
        Safety.journals 0x620 0 (item e.mtr.tariff ++ item new ++ item (mtrCfg e).tariffSrc.toNat) e u := by
      cases hd : boundaryDue true tick.count s with
      | true =>
        obtain ⟨htar, hint, hsaid⟩ := (hdone hd).tariff new (hwant.trans hnew) (by rw [htariff]; exact hne)
        exact ⟨htar, hint, (hdone hd).counted.1, (hdone hd).counted.2.1, hsaid⟩
      | false =>
        have hcut : TariffCut new e u := by
          rw [hevents]
          exact eventsIn_cut (hdue.trans hd) (hwant.trans hnew) (by rw [htariff]; exact hne)
        exact ⟨hcut.tariff.1, hcut.tariff.2, hcut.counted.1, hcut.counted.2.1, hcut.said⟩
    obtain ⟨htar, hint, hi, he, hsaid⟩ := hshown
    rw [htariff, hsrc] at hsaid
    rw [hmtr]
    exact ⟨htar, hint, hi, he, Safety.journals_mono (journals_of_changes hcounted.changes hsaid) (hfrozen.grows.get .sjGrows)⟩
  · obtain ⟨n, hn, hni, hne, hnt, hsaid⟩ := hfrozen.snapshot (hwf hstores)
    rw [snapSlot, hrunU.2.2] at hn
    refine ⟨n, hn, ?_, ?_, ?_, journals_of_changes hchanges hsaid⟩
    · rw [hni, hmtr]
    · rw [hne, hmtr]
    · rw [hnt, hmtr]

end

end
end Sys2Proof.Machine
end

section
/-! PROOF. Metering counts and keeps its counts (R265 to R276). -/

namespace Sys2Proof.Machine

section
set_option Elab.async false

theorem phaseEnergy_near (c : AcqCfg) {used : TickSums} (hn : used.n ≠ 0) (p : Nat) :
    if 0 ≤ (phaseGain c p).2 then
      (phaseEnergy c used p * ((9216000000 * used.n : Nat) : Int) - phaseSum used p * (phaseGain c p).1 * used.dur *
        2 ^ (phaseGain c p).2.toNat).natAbs < 9216000000 * used.n
    else (phaseEnergy c used p * (((9216000000 * used.n : Nat) : Int) * 2 ^ (-(phaseGain c p).2).toNat) -
        phaseSum used p * (phaseGain c p).1 * used.dur).natAbs < 9216000000 * used.n * 2 ^ (-(phaseGain c p).2).toNat :=
  scaled_near _ _ (Nat.mul_pos (by decide) (Nat.pos_of_ne_zero hn))

/-- A record's time, in the words of its slot. -/
theorem OutageRead.said {flags : Byte} {count : Nat} {s t : State} (h : OutageRead flags count s t) :
    leAt (mramRead (0x380840 + 64 * s.mtr.logNext.toNat) 64 t) 2 1 = flags.toNat ∧
    leAt (mramRead (0x380840 + 64 * s.mtr.logNext.toNat) 64 t) 22 2 = count % 2 ^ 16 ∧
    (count ≠ 0 → leAt (mramRead (0x380840 + 64 * s.mtr.logNext.toNat) 64 t) 18 4 = count * (mtrCfg s).demandMin * 60000 % 2 ^ 32) ∧
    leAt (mramRead (0x380840 + 64 * s.mtr.logNext.toNat) 64 t) 24 8 = 0 ∧
    leAt (mramRead (0x380840 + 64 * s.mtr.logNext.toNat) 64 t) 32 8 = 0 ∧
    leAt (mramRead (0x380840 + 64 * s.mtr.logNext.toNat) 64 t) 40 4 = 0 ∧
    Safety.journals 0x621 0 (item (leAt (mramRead (0x380840 + 64 * s.mtr.logNext.toNat) 64 t) 2 1) ++ item (s.mtr.iseq + 1).toNat ++
      slice (mramRead (0x380840 + 64 * s.mtr.logNext.toNat) 64 t) 4 8) s t := by
  obtain ⟨i, r, hr, hfields, himp, hexp, hdur, hsaid⟩ := h
  rw [hr]
  refine ⟨hfields.flags, hfields.count, fun hc => by rw [hfields.duration, hdur hc], ?_, ?_, hfields.demand, ?_⟩
  · rw [hfields.eImp, himp, Nat.zero_div, Nat.zero_mod]
  · rw [hfields.eExp, hexp, Nat.zero_div, Nat.zero_mod]
  · rw [hfields.flags, hfields.time]
    exact hsaid

theorem leBytes_mod {m : Nat} (n v : Nat) (h : n ≤ m) : leBytes n (v % 256 ^ m) = leBytes n v := by
  induction n generalizing m v with
  | zero => rfl
  | succ n ih =>
    obtain ⟨m, rfl⟩ := Nat.exists_eq_succ_of_ne_zero (show m ≠ 0 by omega)
    have hrest : v % 256 ^ (m + 1) / 256 = v / 256 % 256 ^ m := by
      rw [Nat.pow_succ', Nat.mod_mul_right_div_self]
    have hfirst : BitVec.ofNat 8 (v % 256 ^ (m + 1)) = BitVec.ofNat 8 v := by
      refine BitVec.eq_of_toNat_eq ?_
      rw [BitVec.toNat_ofNat, BitVec.toNat_ofNat, Nat.pow_succ']
      exact Nat.mod_mul_right_mod v 256 (256 ^ m)
    rw [leBytes, leBytes, hrest, ih _ (by omega), hfirst]

theorem item_mod (n : Nat) : item (n % 2 ^ 64) = item n := leBytes_mod (m := 8) 4 n (by decide)

/-- A snapshot changes its copy and which of the two is the last. -/
theorem takeSnapshot_frame (s : State) : takeSnapshot s =
    { s with mram := (takeSnapshot s).mram, mtr := { s.mtr with lastWasB := !s.mtr.lastWasB } } := by
  unfold takeSnapshot
  generalize snapBytes (snapshotOf s) = bs
  rfl

/-- Settles O50: a tick's counts, its intervals and tariffs, an outage, a supply warning, and the snapshots. -/
theorem meteringCountsAndKeepsItsCounts : Obligations.MeteringCountsAndKeepsItsCounts := by
  unfold Obligations.MeteringCountsAndKeepsItsCounts
  intro c tick s code total used es imp exp
  have hused : used = tickUsed tick s := by
    rw [tickUsed, tickSums_eq]
    rfl
  clear_value used
  subst hused
  have himp : imp = tickImport c (tickUsed tick s) := rfl
  have hexp : exp = tickExport c (tickUsed tick s) := rfl
  clear_value imp exp
  subst himp hexp
  refine ⟨fun hno => congrArg Host.Outcome.next (meterTick_idle hno), fun hacq hrun hlive hpower hfull => ?_,
    fun mv hacq hawake hpfw hrun hlive hpower hrestored hpending => ?_, fun hrun hlive hpd1 => ?_, fun hno => ?_⟩
  · intro gain near
    have hticks : Ticks tick s := ⟨hrun, hlive, hpower, hfull⟩
    refine ⟨fun hn p _ => phaseEnergy_near c hn p, meterTick tick s, rfl, ?_⟩
    have hshown : TickShown c (tickUsed tick s) s (meterTick tick s) := by
      cases hrestored : s.mtr.restored with
      | none =>
        obtain ⟨u, hruns, hmtr, -, -, -, -⟩ := meterTick_counted hticks hrestored
        have hu := (ticked_base (tickUsed tick s) s).shown hacq hruns
        exact ⟨by rw [hmtr, hu.power], by rw [hmtr, hu.lastTick], by rw [hmtr, hu.chg], by rw [hmtr, hu.dis]⟩
      | some sn => exact (meterTick_afterOutage hacq hticks hrestored).shown
    refine ⟨hshown.power, hshown.lastTick, fun hledger => ?_, fun hledger hn => ⟨tickCharge c (tickUsed tick s) s, ?_, hshown.chg, hshown.dis⟩,
      fun hrestored => ?_, fun hrestored => ?_⟩
    · have hcharge : tickCharge c (tickUsed tick s) s = 0 := if_neg (by rw [hledger]; exact Bool.false_ne_true)
      rw [hshown.chg, hshown.dis, hcharge]
      exact ⟨rfl, rfl⟩
    · have hcharge : tickCharge c (tickUsed tick s) s = scaled ((tickUsed tick s).batt * (gainOf (nth {} c.ch 6).gain).1 *
          (tickUsed tick s).dur) (gainOf (nth {} c.ch 6).gain).2 (2880000 * (tickUsed tick s).n) := if_pos hledger
      rw [hcharge]
      exact scaled_near _ _ (Nat.mul_pos (by decide) (Nat.pos_of_ne_zero hn))
    · obtain ⟨u, hruns, hmtr, hmram, -, -, hclear⟩ := meterTick_counted hticks hrestored
      obtain ⟨himp, hexp, hpend, hlow⟩ := (tickCounted_counted tick hacq).counts hruns
      have hordinary (hpending : s.mtr.pendingSet = false) := meterTick_events hacq hticks hrestored hpending
      refine ⟨by rw [hmtr, himp], by rw [hmtr, hexp], ?_, fun x hx => by rw [hmram, hlow x hx], fun hpending => (hordinary hpending).within,
        fun hpending hdue hnext hwf => ?_, fun hpending hdue hnext hwf new hnew hne => ?_, tariffWanted_di, tariffWanted_px,
        fun hsrc hday => tariffWanted_schedule hsrc hday⟩
      · rw [hmtr]
        cases hpending : s.mtr.pendingSet with
        | true => exact hclear hpending
        | false =>
          cases hp : u.mtr.pendingSet with
          | false => rfl
          | true => exact absurd (hpending.symm.trans (hpend hp)) (by decide)
      · obtain ⟨flags, hcomplete, hshow, hmax⟩ := (hordinary hpending).boundary hdue hnext hwf
        obtain ⟨hi, he, hms⟩ := hshow.counted
        have hrecord := hshow.record
        intro r
        refine ⟨hi, he, hms, hshow.iseq, hrecord.imported, hrecord.exported, hrecord.demand, ?_, hmax.same, fun hr =>
          ⟨(hmax.rises hr).1, fun hroom _ => (hmax.rises hr).2 hroom⟩⟩
        rw [hrecord.flags, BitVec.testBit_toNat]
        exact hcomplete
      · obtain ⟨flags, hcut, hshow, htariff, hint, hmd, hsaid⟩ := (hordinary hpending).cut hdue hnext hwf new hnew hne
        obtain ⟨hi, he, hms⟩ := hshow.counted
        have hrecord := hshow.record
        intro r
        refine ⟨htariff, hint, hi, he, hms, hshow.iseq, hmd, ?_, hrecord.tariff, hrecord.imported, hrecord.exported, hsaid⟩
        rw [hrecord.flags, BitVec.testBit_toNat]
        exact hcut
    · obtain ⟨sn, hsn⟩ := Option.ne_none_iff_exists'.mp hrestored
      have htick := meterTick_afterOutage hacq hticks hsn
      refine ⟨htick.restored, htick.pending, fun hpending => ?_, htick.set⟩
      obtain ⟨ci, ce, hi, he, hflag, hmd⟩ := htick.counted hpending
      obtain ⟨hlater, hmram, hlog, htariff, hresumed⟩ := htick.later hpending
      refine ⟨ci, ce, hi, he, hflag, hmd, fun sn' hsn' hwf hnext => ?_⟩
      obtain rfl : sn = sn' := Option.some.inj (hsn.symm.trans hsn')
      have hreads := outageReads_of (s := ticked (tickUsed tick s) s) hwf hnext hmram hlater
      obtain ⟨hcut, hcutSaid, huntrusted, hnone, hcounted⟩ := hreads
      have hticked := ticked_changes (tickUsed tick s) s
      intro cut out dm count away
      have hcutFlags : leAt cut 2 1 = _ := hcut.flags
      have hcutTime : slice cut 4 8 = _ := hcut.time
      have hout {flags : Byte} {n : Nat} (h : OutageRead flags n (ticked (tickUsed tick s) s) (meterTick tick s)) := h.said
      refine ⟨?_, hcut.tariff, hcut.eImp, hcut.eExp, ?_, fun htrust hzero _ => ?_, fun htrust hsome => ?_, fun htrust => ?_, fun hany => ?_,
        fun hsrc hosf => htariff hsrc hosf, ?_⟩
      · rw [hcutFlags]
        exact closedFlags_testBit _ _ 2 rfl
      · rw [hcutFlags, hcutTime]
        exact journals_of_changes hticked hcutSaid
      · rw [hlog]
        exact (hnone htrust hzero).1
      · obtain ⟨hf, hc, hd, -⟩ := hout (hcounted htrust hsome).1
        have hsmall : count < 2 ^ 16 := Nat.lt_of_le_of_lt (Nat.min_le_right ..) (by decide)
        exact ⟨hf, hc.trans (Nat.mod_eq_of_lt hsmall), hd hsome⟩
      · obtain ⟨hf, hc, -⟩ := hout (huntrusted htrust).1
        exact ⟨hf, hc⟩
      · have hread : ∃ (flags : Byte) (n : Nat), OutageRead flags n (ticked (tickUsed tick s) s) (meterTick tick s) := by
          cases htrust : rtcTrusted s with
          | false => exact ⟨24, 0, (huntrusted htrust).1⟩
          | true => exact ⟨8, _, (hcounted htrust (hany.resolve_left (by rw [htrust]; exact Bool.noConfusion))).1⟩
        obtain ⟨flags, n, hread⟩ := hread
        obtain ⟨-, -, -, hi, he, hd, hsaid⟩ := hout hread
        exact ⟨hi, he, hd, journals_of_changes hticked hsaid⟩
      · have hsame : (outageClosed sn (ticked (tickUsed tick s) s)).2 = if rtcTrusted s = true then count else 0 := by
          cases htrust : rtcTrusted s with
          | false => exact (huntrusted htrust).2
          | true =>
            by_cases hzero : count = 0
            · exact (hnone htrust hzero).2.trans hzero.symm
            · exact (hcounted htrust hzero).2
        rw [← hsame]
        exact hresumed
  · have htick := supplyWarn_truncated (mv := mv) (tick := tick) hacq hawake hpfw hrun hlive hpower hrestored hpending
    obtain ⟨hf, hpf, hb⟩ := htick.frozen
    refine ⟨supplyWarn mv tick s, rfl, hf, hpf, hb, htick.counts.1, htick.counts.2, htick.within, fun hdue hnext hwf => ?_, htick.tariff,
      fun hwf => ?_⟩
    · obtain ⟨flags, hcomplete, hco, hshow⟩ := htick.boundary hdue hnext hwf
      obtain ⟨hi, he, hms⟩ := hshow.counted
      have hrecord := hshow.record
      intro r
      refine ⟨hi, he, hms, hshow.iseq, ?_, ?_, hrecord.tariff, hrecord.imported, hrecord.exported⟩
      · rw [hrecord.flags, BitVec.testBit_toNat]
        exact hcomplete
      · rw [hrecord.flags, BitVec.testBit_toNat]
        exact hco
    · obtain ⟨n, hn, hi, he, ht, hsaid⟩ := htick.snapshot hwf
      have hfields := snapBytes_fields n
      intro b
      have hb : b = snapBytes n := hn
      clear_value b
      subst hb
      refine ⟨fun k hk => ⟨by rw [hfields.imp k hk, hi], by rw [hfields.exp k hk, he]⟩, by rw [hfields.tariff, ht], ?_⟩
      rw [hfields.seq, item_mod]
      exact hsaid
  · intro a
    have hplace : a = snapSlot s := rfl
    clear_value a
    subst hplace
    have hexec : exec .meterSnapshot s = .next (takeSnapshot s) :=
      congrArg Host.Outcome.next (if_pos (by rw [hrun, hlive, pdIs, hpd1]; rfl))
    refine ⟨takeSnapshot s, hexec, takeSnapshot_frame s, fun x hx => takeSnapshot_outside s hx, fun hwf => ?_⟩
    have hfields := snapBytes_fields (snapshotOf s)
    obtain ⟨himp, hexp, hmd, hchg, hdis, htariff⟩ := snapshotOf_counts s
    have hread := snapshot_read (mramWf_of_storesWf hwf) (t := takeSnapshot s) rfl
    intro b
    have hb : b = snapBytes (snapshotOf s) := hread
    clear_value b
    subst hb
    refine ⟨hfields.crc, fun k hk => ⟨by rw [hfields.imp k hk, himp], by rw [hfields.exp k hk, hexp], by rw [hfields.md k hk, hmd]⟩,
      by rw [hfields.chg, hchg], by rw [hfields.dis, hdis], by rw [hfields.tariff, htariff], fun y hy hsmall => ?_⟩
    rw [hfields.seq]
    exact snapshotOf_rises hy hsmall
  · refine congrArg Host.Outcome.next (if_neg ?_)
    rcases hno with h | h
    · simp [h]
    · simp [h]

end
end Sys2Proof.Machine
end

section
/-! SUPPORT. The tables of the backbone switch: entries read after a write, after a change of every valid entry, after a flush and
after a pass of the scrubber. -/

namespace Sys2Proof.Machine

section
set_option Elab.async false

/-! ### Sparse maps with sorted or distinct keys -/

/-- The keys of a sparse map in rising order. -/
def SortedKeys {α : Type} (m : Sparse α) : Prop := (m.map Prod.fst).Pairwise (· < ·)

theorem SortedKeys.tail {α : Type} {x : Nat × α} {m : Sparse α} (h : SortedKeys (x :: m)) : SortedKeys m :=
  (List.pairwise_cons.1 h).2

theorem SortedKeys.head_lt {α : Type} {x : Nat × α} {m : Sparse α} (h : SortedKeys (x :: m)) : ∀ k ∈ m.map Prod.fst, x.1 < k :=
  (List.pairwise_cons.1 h).1

theorem sget_of_not_mem {α : Type} (d : α) {m : Sparse α} {a : Nat} (h : a ∉ m.map Prod.fst) : sget d m a = d := by
  induction m with
  | nil => rfl
  | cons x m ih =>
    obtain ⟨k, v⟩ := x
    rw [List.map_cons, List.mem_cons, not_or] at h
    rw [sget, if_neg fun hk => h.1 hk.symm]
    exact ih h.2

theorem sget_of_mem {α : Type} (d : α) {m : Sparse α} {a : Nat} (h : a ∈ m.map Prod.fst) : (a, sget d m a) ∈ m := by
  induction m with
  | nil => exact absurd h List.not_mem_nil
  | cons x m ih =>
    obtain ⟨k, v⟩ := x
    rw [sget]
    split
    case isTrue hk => rw [hk]; exact List.mem_cons_self
    case isFalse hk =>
      rw [List.map_cons, List.mem_cons] at h
      exact List.mem_cons_of_mem _ (ih (h.resolve_left fun e => hk e.symm))

theorem sput_keys {α : Type} [DecidableEq α] (d : α) (m : Sparse α) (a : Nat) (v : α) :
    ∀ k ∈ (sput d m a v).map Prod.fst, k = a ∨ k ∈ m.map Prod.fst := by
  induction m with
  | nil =>
    intro k hk
    rw [sput] at hk
    split at hk
    · exact absurd hk List.not_mem_nil
    · exact .inl (List.mem_singleton.1 hk)
  | cons x m ih =>
    obtain ⟨j, w⟩ := x
    intro k hk
    rw [sput] at hk
    split_ifs at hk
    · exact .inr hk
    · exact List.mem_cons.1 hk
    · exact .inr (List.mem_cons_of_mem _ hk)
    · exact (List.mem_cons.1 hk).imp id (List.mem_cons_of_mem _)
    · rcases List.mem_cons.1 hk with h | h
      · exact .inr (List.mem_cons.2 (.inl h))
      · exact (ih k h).imp id (List.mem_cons_of_mem _)

theorem sput_sorted {α : Type} [DecidableEq α] (d : α) {m : Sparse α} (a : Nat) (v : α) (h : SortedKeys m) :
    SortedKeys (sput d m a v) := by
  induction m with
  | nil =>
    rw [sput]
    split
    · exact List.Pairwise.nil
    · exact List.pairwise_singleton _ _
  | cons x m ih =>
    obtain ⟨j, w⟩ := x
    have hlt := h.head_lt
    rw [sput]
    split_ifs with hbefore _ hat _
    · exact h
    · refine List.pairwise_cons.2 ⟨fun k hk => ?_, h⟩
      rcases List.mem_cons.1 hk with e | e
      · exact e ▸ hbefore
      · exact Nat.lt_trans hbefore (hlt k e)
    · exact h.tail
    · exact List.pairwise_cons.2 ⟨hat ▸ hlt, h.tail⟩
    · refine List.pairwise_cons.2 ⟨fun k hk => ?_, ih h.tail⟩
      rcases sput_keys d m a v k hk with e | e
      · exact e ▸ (show j < a by omega)
      · exact hlt k e

/-- A written entry is read back: one that is not the default always, the default where the keys are sorted. -/
theorem sget_sput_at {α : Type} [DecidableEq α] (d : α) (m : Sparse α) (a : Nat) (v : α) (h : v ≠ d ∨ SortedKeys m) :
    sget d (sput d m a v) a = v := by
  by_cases hv : v = d
  · have hsorted := h.resolve_left (not_not_intro hv)
    subst hv
    clear h
    induction m with
    | nil => rw [sput, if_pos rfl]; rfl
    | cons x m ih =>
      obtain ⟨j, w⟩ := x
      have hlt := hsorted.head_lt
      rw [sput, if_pos rfl, if_pos rfl]
      split_ifs with hbefore hat
      · exact sget_of_not_mem _ fun hk => by
          rcases List.mem_cons.1 hk with e | e
          · exact absurd e (Nat.ne_of_lt hbefore)
          · exact absurd (hlt a e) (by omega)
      · exact sget_of_not_mem _ fun hk => absurd (hlt a hk) (by omega)
      · rw [sget, if_neg fun e => hat e.symm]
        exact ih hsorted.tail
  · exact Safety.sget_sput_self d m a v hv

/-- Entries rewritten one after another from a list of distinct keys: an index that the list does not name keeps its entry. -/
theorem sget_rewrites_of_not_mem {α : Type} [DecidableEq α] (d : α) (c : Nat × α → Bool) (g : Nat × α → α) (l m : Sparse α) {i : Nat}
    (h : i ∉ l.map Prod.fst) : sget d (l.foldl (fun m x => if c x then sput d m x.1 (g x) else m) m) i = sget d m i := by
  induction l generalizing m with
  | nil => rfl
  | cons x l ih =>
    rw [List.map_cons, List.mem_cons, not_or] at h
    rw [List.foldl_cons, ih _ h.2]
    split
    · exact Safety.sget_sput_ne d m x.1 i _ h.1
    · rfl

theorem sget_rewrites_of_mem {α : Type} [DecidableEq α] (d : α) (c : Nat × α → Bool) (g : Nat × α → α) (l m : Sparse α) {i : Nat} {e : α}
    (hnodup : (l.map Prod.fst).Nodup) (hg : ∀ x, c x = true → g x ≠ d) (h : (i, e) ∈ l) :
    sget d (l.foldl (fun m x => if c x then sput d m x.1 (g x) else m) m) i = if c (i, e) then g (i, e) else sget d m i := by
  induction l generalizing m with
  | nil => exact absurd h List.not_mem_nil
  | cons x l ih =>
    rw [List.map_cons, List.nodup_cons] at hnodup
    rw [List.foldl_cons]
    rcases List.mem_cons.1 h with hx | hl
    · subst hx
      rw [sget_rewrites_of_not_mem d c g l _ hnodup.1]
      split
      case isTrue hc => exact Safety.sget_sput_self d m i _ (hg _ hc)
      case isFalse => rfl
    · have hne : i ≠ x.1 := fun heq => hnodup.1 (heq ▸ List.mem_map_of_mem (f := Prod.fst) hl)
      have hfirst : sget d (if c x then sput d m x.1 (g x) else m) i = sget d m i := by
        split
        · exact Safety.sget_sput_ne d m x.1 i _ hne
        · rfl
      rw [ih _ hnodup.2 hl, hfirst]

/-! ### Pipelines -/

theorem pipeOf_modPipe (w w' : Bool) (f : Pipe → Pipe) (s : State) :
    pipeOf w (modPipe w' f s) = if w = w' then f (pipeOf w s) else pipeOf w s := by
  cases w <;> cases w' <;> rfl

theorem pipeOf_modPipe_self (w : Bool) (f : Pipe → Pipe) (s : State) : pipeOf w (modPipe w f s) = f (pipeOf w s) := by
  rw [pipeOf_modPipe, if_pos rfl]

theorem pipeOf_modPipe_ne {w w' : Bool} (h : w ≠ w') (f : Pipe → Pipe) (s : State) : pipeOf w (modPipe w' f s) = pipeOf w s := by
  rw [pipeOf_modPipe, if_neg h]

theorem pipeOf_congr {s t : State} (h : t.tbl = s.tbl) (w : Bool) : pipeOf w t = pipeOf w s := by
  unfold pipeOf
  rw [h]

/-- A pipeline whose MAC entries have distinct indices. -/
def DistinctMacs (t : Pipe) : Prop := (t.macs.map Prod.fst).Nodup

/-- What a change of every valid entry by `f` leaves of an entry. -/
def remapped (f : MacEntry → MacEntry) (e : MacEntry) : MacEntry :=
  if e.valid && decide (f e ≠ e) then { f e with perr := false, said := false } else e

theorem macAt_mapMacs {t : Pipe} (hdistinct : DistinctMacs t) (f : MacEntry → MacEntry)
    (hf : ∀ e, e.valid = true → f e ≠ e → ({ f e with perr := false, said := false } : MacEntry) ≠ {}) (i : Nat) :
    macAt (mapMacs (fun _ => f) t) i = remapped f (macAt t i) := by
  unfold macAt mapMacs
  dsimp only
  by_cases hi : i ∈ t.macs.map Prod.fst
  · rw [sget_rewrites_of_mem ({} : MacEntry) (fun x => x.2.valid && decide (f x.2 ≠ x.2)) (fun x => { f x.2 with perr := false, said := false })
      t.macs t.macs hdistinct (fun x hx => ?_) (sget_of_mem ({} : MacEntry) hi)]
    · rfl
    · rw [Bool.and_eq_true, decide_eq_true_eq] at hx
      exact hf x.2 hx.1 hx.2
  · rw [sget_rewrites_of_not_mem ({} : MacEntry) (fun x => x.2.valid && decide (f x.2 ≠ x.2))
      (fun x => { f x.2 with perr := false, said := false }) t.macs t.macs hi, sget_of_not_mem _ hi]
    rfl

/-! ### Aging and flushes -/

/-- An entry that a flush invalidates. -/
def cleared (e : MacEntry) : MacEntry := { e with valid := false, perr := false, said := false }

theorem remapped_of_changed {f : MacEntry → MacEntry} {e : MacEntry} (hvalid : e.valid = true) (h : f e ≠ e) :
    remapped f e = { f e with perr := false, said := false } := if_pos (by rw [hvalid, decide_eq_true h]; rfl)

theorem remapped_of_same {f : MacEntry → MacEntry} {e : MacEntry} (h : f e = e) : remapped f e = e :=
  if_neg (by rw [decide_eq_false (not_not_intro h), Bool.and_false]; exact Bool.false_ne_true)

theorem remapped_of_invalid {f : MacEntry → MacEntry} {e : MacEntry} (h : e.valid = false) : remapped f e = e :=
  if_neg (by rw [h]; exact Bool.false_ne_true)

/-- The change that a flush of the entries of `f` makes. -/
def flushes (f : MacEntry → Bool) (e : MacEntry) : MacEntry := if f e then { e with valid := false } else e

theorem remapped_flushes (f : MacEntry → Bool) (e : MacEntry) :
    remapped (flushes f) e = if e.valid && f e then cleared e else e := by
  cases hvalid : e.valid with
  | false => exact remapped_of_invalid hvalid
  | true =>
    cases hf : f e with
    | false => exact remapped_of_same (if_neg (by rw [hf]; exact Bool.false_ne_true))
    | true =>
      have hnew : flushes f e = { e with valid := false } := if_pos hf
      rw [remapped_of_changed hvalid fun h => ?_, hnew]
      · rfl
      · rw [hnew] at h
        exact absurd ((congrArg MacEntry.valid h).trans hvalid) Bool.false_ne_true

theorem macAt_flushPipe {t : Pipe} (hdistinct : DistinctMacs t) {f : MacEntry → Bool} (hf : ∀ e, f e = true → e.ports ≠ 0) (i : Nat) :
    macAt (flushPipe f t) i = if (macAt t i).valid && f (macAt t i) then cleared (macAt t i) else macAt t i := by
  rw [← remapped_flushes]
  refine macAt_mapMacs hdistinct (flushes f) (fun e _ hne h => ?_) i
  have hports : (flushes f e).ports = 0 := congrArg MacEntry.ports h
  cases he : f e with
  | false => exact hne (if_neg (by rw [he]; exact Bool.false_ne_true))
  | true =>
    rw [flushes, if_pos he] at hports
    exact hf e he hports

/-- An entry as an aging tick of a second leaves it. -/
def aged (limit : Nat) (e : MacEntry) : MacEntry :=
  { e with age := min (e.age + 1) (2 ^ 32 - 1), valid := decide (min (e.age + 1) (2 ^ 32 - 1) < limit) }

theorem aged_age_pos (limit : Nat) (e : MacEntry) : 0 < (aged limit e).age := by
  show 0 < min (e.age + 1) (2 ^ 32 - 1)
  omega

/-- The change that an aging tick makes: a static entry and a bad one stay. -/
def ages (limit : Nat) (e : MacEntry) : MacEntry := if e.static || e.perr then e else aged limit e

theorem ages_of_counted {e : MacEntry} (limit : Nat) (hstatic : e.static = false) (hperr : e.perr = false) :
    ages limit e = aged limit e := if_neg (by rw [hstatic, hperr]; exact Bool.false_ne_true)

/-- What an aging tick does to an entry (R320): it counts a learned good entry on and ends its validity. -/
theorem remapped_ages (limit : Nat) (e : MacEntry) :
    remapped (ages limit) e =
      if !e.valid || e.static || e.perr || decide (aged limit e = e) then e else { aged limit e with said := false } := by
  cases hvalid : e.valid with
  | false => exact remapped_of_invalid hvalid
  | true =>
    cases hstatic : e.static with
    | true => exact remapped_of_same (if_pos (by rw [hstatic]; rfl))
    | false =>
      cases hperr : e.perr with
      | true => exact remapped_of_same (if_pos (by rw [hperr, Bool.or_true]))
      | false =>
        have hages := ages_of_counted limit hstatic hperr
        by_cases heq : aged limit e = e
        · rw [remapped_of_same (hages.trans heq), if_pos (by rw [decide_eq_true heq]; rfl)]
        · rw [remapped_of_changed hvalid (by rw [hages]; exact heq), hages, if_neg (by rw [decide_eq_false heq]; exact Bool.false_ne_true)]
          unfold aged
          dsimp only
          rw [hperr]

theorem macAt_agePipe {t : Pipe} (hdistinct : DistinctMacs t) (limit i : Nat) :
    macAt (agePipe limit t) i = (if !(macAt t i).valid || (macAt t i).static || (macAt t i).perr || decide (aged limit (macAt t i) = macAt t i)
      then macAt t i else { aged limit (macAt t i) with said := false }) := by
  rw [← remapped_ages]
  refine macAt_mapMacs hdistinct (ages limit) (fun e _ hne h => ?_) i
  have hage : (ages limit e).age = 0 := congrArg MacEntry.age h
  by_cases hc : (e.static || e.perr) = true
  · exact hne (if_pos hc)
  · rw [ages, if_neg hc] at hage
    exact Nat.pos_iff_ne_zero.1 (aged_age_pos limit e) hage

/-! ### The scrubber -/

theorem macAt_putMac_self (t : Pipe) (i : Nat) (e : MacEntry)
    (h : ({ e with perr := false, said := false } : MacEntry) ≠ {} ∨ SortedKeys t.macs) :
    macAt (putMac i e t) i = { e with perr := false, said := false } := sget_sput_at _ _ _ _ h

theorem macAt_putMac_ne (t : Pipe) {i j : Nat} (e : MacEntry) (h : j ≠ i) : macAt (putMac i e t) j = macAt t j :=
  Safety.sget_sput_ne _ _ _ _ _ h

theorem pfxAt_putPfx_self (t : Pipe) (i : Nat) (x : PfxSlot) (h : SortedKeys t.pfx) :
    pfxAt (putPfx i x t) i = { x with perr := false, said := false } := sget_sput_at _ _ _ _ (.inr h)

theorem pfxAt_putPfx_ne (t : Pipe) {i j : Nat} (x : PfxSlot) (h : j ≠ i) : pfxAt (putPfx i x t) j = pfxAt t j :=
  Safety.sget_sput_ne _ _ _ _ _ h

/-- A pipeline with a bad entry noted. -/
def notedIn (pfx : Bool) (i : Nat) (p : Pipe) : Pipe :=
  if pfx then { p with infoIndex := BitVec.ofNat 13 i, infoPfx := true, perrPfx := satInc p.perrPfx
                       pfx := smod {} p.pfx i fun x => { x with said := true } }
  else { p with infoIndex := BitVec.ofNat 13 i, infoPfx := false, perrMac := satInc p.perrMac
                macs := smod {} p.macs i fun x => { x with said := true } }

theorem perrNote_pipes (w pfx : Bool) (finder i : Nat) (s : State) (w' : Bool) :
    pipeOf w' (perrNote w pfx finder i s) = pipeOf w' s ∨
      w' = w ∧ pipeOf w' (perrNote w pfx finder i s) = notedIn pfx i (pipeOf w' s) ∧ (pfx = false → (macAt (pipeOf w s) i).perr = true) := by
  unfold perrNote
  dsimp only
  generalize hbad : (if pfx = true then (pfxAt (pipeOf w s) i).perr && !(pfxAt (pipeOf w s) i).said
    else (macAt (pipeOf w s) i).perr && !(macAt (pipeOf w s) i).said) = bad
  cases bad with
  | false => exact .inl rfl
  | true =>
    rw [if_pos rfl, pipeOf_congr ((sj_changes ..).get .tbl), pipeOf_modPipe]
    by_cases hw : w' = w
    · rw [if_pos hw]
      refine .inr ⟨hw, by cases pfx <;> rfl, fun hpfx => ?_⟩
      rw [hpfx, if_neg Bool.false_ne_true, Bool.and_eq_true] at hbad
      exact hbad.1
    · exact .inl (if_neg hw)

/-- Where a bad entry is noted, entries keep all but the mark that they have been said. -/
theorem perrNote_macAt (w : Bool) (finder i : Nat) (s : State) (w' : Bool) (j : Nat) :
    cleared (macAt (pipeOf w' (perrNote w false finder i s)) j) = cleared (macAt (pipeOf w' s) j) := by
  rcases perrNote_pipes w false finder i s w' with h | ⟨hw, h, hbad⟩
  · rw [h]
  · have hperr := hbad rfl
    rw [h]
    subst hw
    unfold notedIn
    rw [if_neg Bool.false_ne_true]
    by_cases hj : j = i
    · subst hj
      have hne : ({ macAt (pipeOf w' s) j with said := true } : MacEntry) ≠ {} := fun h =>
        Bool.false_ne_true ((show (macAt (pipeOf w' s) j).perr = false from congrArg MacEntry.perr h).symm.trans hperr)
      show cleared (sget {} (sput {} (pipeOf w' s).macs j { macAt (pipeOf w' s) j with said := true }) j) = _
      rw [sget_sput_at _ _ _ _ (.inl hne)]
      rfl
    · exact congrArg cleared (Safety.sget_sput_ne _ _ _ _ _ hj)

theorem perrNote_sorted (w pfx : Bool) (finder i : Nat) {s : State} {w' : Bool} (h : SortedKeys (pipeOf w' s).macs) :
    SortedKeys (pipeOf w' (perrNote w pfx finder i s)).macs := by
  rcases perrNote_pipes w pfx finder i s w' with hp | ⟨_, hp, _⟩
  · rw [hp]
    exact h
  · rw [hp]
    cases pfx with
    | true => exact h
    | false => exact sput_sorted _ _ _ h

theorem perrNote_pfx_macs (w : Bool) (finder i : Nat) (s : State) (w' : Bool) :
    (pipeOf w' (perrNote w true finder i s)).macs = (pipeOf w' s).macs := by
  rcases perrNote_pipes w true finder i s w' with h | ⟨_, h, _⟩
  · rw [h]
  · rw [h]
    rfl

/-- A bad MAC entry noted and invalidated with fresh parity (R327). -/
def scrubEntry (w : Bool) (s : State) (i : Nat) : State :=
  modPipe w (fun p => putMac i { macAt p i with valid := false } p) (perrNote w false 2 i s)

/-- An entry that is read back after it has been cleared: not the default then, or in a table with sorted keys. -/
def Clearable (t : Pipe) (i : Nat) : Prop := cleared (macAt t i) ≠ {} ∨ SortedKeys t.macs

theorem scrubEntry_self {w : Bool} {s : State} {i : Nat} (h : Clearable (pipeOf w s) i) :
    macAt (pipeOf w (scrubEntry w s i)) i = cleared (macAt (pipeOf w s) i) := by
  unfold scrubEntry
  rw [pipeOf_modPipe_self, macAt_putMac_self]
  · exact perrNote_macAt w 2 i s w i
  · exact h.imp (fun hne he => hne (by rw [← perrNote_macAt w 2 i s w i]; exact he)) (perrNote_sorted w false 2 i)

theorem scrubEntry_cleared (w : Bool) (s : State) (i : Nat) {w' : Bool} {j : Nat} (h : w' ≠ w ∨ j ≠ i) :
    cleared (macAt (pipeOf w' (scrubEntry w s i)) j) = cleared (macAt (pipeOf w' s) j) := by
  unfold scrubEntry
  rw [pipeOf_modPipe]
  split
  case isTrue hw =>
    rw [macAt_putMac_ne _ _ (h.resolve_left (not_not_intro hw))]
    exact perrNote_macAt w 2 i s w' j
  case isFalse => exact perrNote_macAt w 2 i s w' j

theorem scrubEntry_sorted (w : Bool) {s : State} (i : Nat) {w' : Bool} (h : SortedKeys (pipeOf w' s).macs) :
    SortedKeys (pipeOf w' (scrubEntry w s i)).macs := by
  unfold scrubEntry
  rw [pipeOf_modPipe]
  split
  · exact sput_sorted _ _ _ (perrNote_sorted w false 2 i h)
  · exact perrNote_sorted w false 2 i h

end
end Sys2Proof.Machine
end

section
/-! SUPPORT. The tables of the backbone switch by the second and by the pass: aging and the scrubber over both pipelines. -/

namespace Sys2Proof.Machine

section
set_option Elab.async false

/-! ### A pass of the scrubber (R327) -/

theorem perrNote_other {w w' : Bool} (h : w' ≠ w) (pfx : Bool) (finder i : Nat) (s : State) :
    pipeOf w' (perrNote w pfx finder i s) = pipeOf w' s := by
  rcases perrNote_pipes w pfx finder i s w' with hp | ⟨hw, _⟩
  · exact hp
  · exact absurd hw h

theorem perrNote_macAt_ne (w : Bool) (finder : Nat) {i j : Nat} (s : State) (h : j ≠ i) :
    macAt (pipeOf w (perrNote w false finder i s)) j = macAt (pipeOf w s) j := by
  rcases perrNote_pipes w false finder i s w with hp | ⟨_, hp, _⟩
  · rw [hp]
  · rw [hp]
    exact Safety.sget_sput_ne _ _ _ _ _ h

theorem scrubEntry_other {w w' : Bool} (h : w' ≠ w) (s : State) (i : Nat) : pipeOf w' (scrubEntry w s i) = pipeOf w' s :=
  (pipeOf_modPipe_ne h ..).trans (perrNote_other h ..)

theorem scrubEntry_ne (w : Bool) (s : State) {i j : Nat} (h : j ≠ i) : macAt (pipeOf w (scrubEntry w s i)) j = macAt (pipeOf w s) j := by
  unfold scrubEntry
  rw [pipeOf_modPipe_self, macAt_putMac_ne _ _ h]
  exact perrNote_macAt_ne w 2 s h

theorem scrubEntry_clearable {w : Bool} {s : State} {i j : Nat} (h : Clearable (pipeOf w s) j) :
    Clearable (pipeOf w (scrubEntry w s i)) j ∧ cleared (macAt (pipeOf w (scrubEntry w s i)) j) = cleared (macAt (pipeOf w s) j) := by
  have hsame : cleared (macAt (pipeOf w (scrubEntry w s i)) j) = cleared (macAt (pipeOf w s) j) := by
    by_cases hj : j = i
    · subst hj
      rw [scrubEntry_self h]
      rfl
    · rw [scrubEntry_ne w s hj]
  exact ⟨h.imp (fun hne => hsame ▸ hne) (scrubEntry_sorted w i), hsame⟩

theorem scrubEntries_other {w w' : Bool} (h : w' ≠ w) (l : List Nat) (s : State) : pipeOf w' (l.foldl (scrubEntry w) s) = pipeOf w' s := by
  induction l generalizing s with
  | nil => rfl
  | cons i l ih => exact (ih _).trans (scrubEntry_other h s i)

theorem scrubEntries_of_not_mem (w : Bool) {l : List Nat} {j : Nat} (h : j ∉ l) (s : State) :
    macAt (pipeOf w (l.foldl (scrubEntry w) s)) j = macAt (pipeOf w s) j := by
  induction l generalizing s with
  | nil => rfl
  | cons i l ih =>
    rw [List.mem_cons, not_or] at h
    exact (ih h.2 _).trans (scrubEntry_ne w s h.1)

theorem scrubEntries_of_mem {w : Bool} {l : List Nat} {j : Nat} (h : j ∈ l) {s : State} (hclear : Clearable (pipeOf w s) j) :
    macAt (pipeOf w (l.foldl (scrubEntry w) s)) j = cleared (macAt (pipeOf w s) j) := by
  induction l generalizing s with
  | nil => exact absurd h List.not_mem_nil
  | cons i l ih =>
    obtain ⟨hkept, hsame⟩ := scrubEntry_clearable (i := i) hclear
    by_cases hl : j ∈ l
    · exact (ih hl hkept).trans hsame
    · have hj : j = i := (List.mem_cons.1 h).resolve_right hl
      subst hj
      exact (scrubEntries_of_not_mem w hl _).trans (scrubEntry_self hclear)

theorem pfxNotes_macs (w w' : Bool) (l : List Nat) (s : State) :
    (pipeOf w' (l.foldl (fun u i => perrNote w true 2 i u) s)).macs = (pipeOf w' s).macs := by
  induction l generalizing s with
  | nil => rfl
  | cons i l ih => exact (ih _).trans (perrNote_pfx_macs w 2 i s w')

theorem pfxNotes_other {w w' : Bool} (h : w' ≠ w) (l : List Nat) (s : State) :
    pipeOf w' (l.foldl (fun u i => perrNote w true 2 i u) s) = pipeOf w' s := by
  induction l generalizing s with
  | nil => rfl
  | cons i l ih => exact (ih _).trans (perrNote_other h true 2 i s)

theorem macAt_congr {t u : Pipe} (h : t.macs = u.macs) (i : Nat) : macAt t i = macAt u i := by
  unfold macAt
  rw [h]

/-- The bad MAC entries of a pipeline, and the bad slots of its prefixes. -/
def badMacs (t : Pipe) : List Nat := (t.macs.filter fun x => x.2.perr).map Prod.fst
def badSlots (t : Pipe) : List Nat := (t.pfx.filter fun x => x.2.perr).map Prod.fst

theorem scrubPipe_eq (w : Bool) (s : State) : scrubPipe w s =
    (badSlots (pipeOf w s)).foldl (fun u i => perrNote w true 2 i u) ((badMacs (pipeOf w s)).foldl (scrubEntry w) s) := rfl

theorem scrubPipe_other {w w' : Bool} (h : w' ≠ w) (s : State) : pipeOf w' (scrubPipe w s) = pipeOf w' s := by
  rw [scrubPipe_eq, pfxNotes_other h, scrubEntries_other h]

theorem mem_badMacs {t : Pipe} {i : Nat} (h : (macAt t i).perr = true) : i ∈ badMacs t := by
  have hi : i ∈ t.macs.map Prod.fst := by
    by_contra hn
    have hdefault : macAt t i = {} := sget_of_not_mem _ hn
    rw [hdefault] at h
    cases h
  exact List.mem_map.2 ⟨(i, macAt t i), List.mem_filter.2 ⟨sget_of_mem ({} : MacEntry) hi, h⟩, rfl⟩

theorem scrubPipe_self {w : Bool} {s : State} {i : Nat} (hperr : (macAt (pipeOf w s) i).perr = true) (h : Clearable (pipeOf w s) i) :
    macAt (pipeOf w (scrubPipe w s)) i = cleared (macAt (pipeOf w s) i) := by
  rw [scrubPipe_eq, macAt_congr (pfxNotes_macs ..)]
  exact scrubEntries_of_mem (mem_badMacs hperr) h

theorem scrubPipe_only (w : Bool) (s : State) : PipesOnly s (scrubPipe w s) :=
  (PipesOnly.foldl (f := scrubEntry w) (fun _ _ => (perrNote_only ..).trans (modPipe_only ..)) _ s).trans
    (.foldl (fun _ _ => perrNote_only ..) _ _)

/-- Both pipelines scrubbed. -/
theorem scrubBoth_macAt {w : Bool} {s : State} {i : Nat} (hperr : (macAt (pipeOf w s) i).perr = true) (h : Clearable (pipeOf w s) i) :
    macAt (pipeOf w (scrubPipe true (scrubPipe false s))) i = cleared (macAt (pipeOf w s) i) := by
  cases w with
  | false =>
    rw [scrubPipe_other Bool.false_ne_true]
    exact scrubPipe_self hperr h
  | true =>
    have hsame := scrubPipe_other (w := false) (w' := true) (by decide) s
    rw [scrubPipe_self (by rw [hsame]; exact hperr) (by rw [hsame]; exact h), hsame]

/-! ### The passes as commands -/

theorem exec_scrub_idle {s : State} (hpd : s.power.pdOn.getLsbD 6 = true) (h : s.tbl.held = true ∨ s.tbl.rehash.isSome = true) :
    exec (.scrub []) s = .next s := by
  have hrun : exec (.scrub []) s = .next (if s.power.pdOn.getLsbD 6 then scrub [] s else applyUpsets (imageUpsets []) s) := rfl
  have hpause : scrub [] s = s := if_pos h
  rw [hrun, if_pos hpd, hpause]

theorem exec_scrub {s : State} (hpd : s.power.pdOn.getLsbD 6 = true) (hheld : s.tbl.held = false) (hrehash : s.tbl.rehash = none) :
    exec (.scrub []) s = .next (scrubPipe true (scrubPipe false s)) := by
  have hrun : exec (.scrub []) s = .next (if s.power.pdOn.getLsbD 6 then scrub [] s else applyUpsets (imageUpsets []) s) := rfl
  have hpass : scrub [] s = scrubPipe true (scrubPipe false s) := if_neg (by rw [hheld, hrehash]; decide)
  rw [hrun, if_pos hpd, hpass]

theorem clearable_of {t : Pipe} {i : Nat} (h : (macAt t i).mac ≠ 0 ∨ SortedKeys t.macs) : Clearable t i :=
  h.imp_left fun hmac he => hmac (congrArg MacEntry.mac he)

theorem exec_macAging {s : State} (hpd : s.power.pdOn.getLsbD 6 = true) : exec .macAging s = .next (macAging s) :=
  congrArg Host.Outcome.next (if_pos hpd)

theorem macAging_idle {s : State} (h : s.tbl.held = true) : macAging s = s := if_pos h

/-- Aging in one pipeline, paused in its REHASH. -/
def agesIn (w : Bool) (t : State) : State := if rehashing w t then t else modPipe w (agePipe t.sw.cfg.agingS) t

theorem agesIn_eq (w : Bool) {t : State} (h : t.tbl.rehash = none) : agesIn w t = modPipe w (agePipe t.sw.cfg.agingS) t :=
  if_neg (by unfold rehashing; rw [h]; exact Bool.false_ne_true)

/-- Aging with the lock free and no REHASH: both pipelines. -/
theorem macAging_eq {s : State} (hheld : s.tbl.held = false) (hrehash : s.tbl.rehash = none) :
    macAging s = modPipe true (agePipe s.sw.cfg.agingS) (modPipe false (agePipe s.sw.cfg.agingS) s) := by
  have hboth : macAging s = agesIn true (agesIn false s) := if_neg (by rw [hheld]; exact Bool.false_ne_true)
  rw [hboth, agesIn_eq false hrehash, agesIn_eq true (show (modPipe false _ s).tbl.rehash = none from hrehash)]
  rfl

/-- Each pipeline changed in the same way. -/
theorem pipeOf_both (f : Pipe → Pipe) (s : State) (w : Bool) : pipeOf w (modPipe true f (modPipe false f s)) = f (pipeOf w s) := by
  cases w <;> rfl

end
end Sys2Proof.Machine
end

section
/-! SUPPORT. The links and the ring of the backbone switch: what a lost or a new link, a topology change and a change of the ring
leave (R320, R333, R334, R341). -/

namespace Sys2Proof.Machine

section
set_option Elab.async false

/-! ### Ports -/

theorem nth_modify (l : List Port) (i : Nat) (f : Port → Port) (k : Nat) :
    nth {} (l.modify i f) k = if k = i ∧ k < l.length then f (nth {} l k) else nth {} l k := by
  unfold nth
  rw [List.getD_eq_getElem?_getD, List.getD_eq_getElem?_getD, List.getElem?_modify]
  by_cases hk : k < l.length
  · rw [List.getElem?_eq_getElem hk]
    by_cases hi : k = i
    · rw [if_pos ⟨hi, hk⟩]
      show (if i = k then f l[k] else l[k]) = f l[k]
      rw [if_pos hi.symm]
    · rw [if_neg (fun h => hi h.1)]
      show (if i = k then f l[k] else l[k]) = l[k]
      rw [if_neg (fun h : i = k => hi h.symm)]
  · rw [List.getElem?_eq_none (by omega), if_neg (fun h => hk h.2)]
    rfl

theorem linked_congr {s t : State} {k : Nat} (hcfg : t.sw.cfg.portEn = s.sw.cfg.portEn)
    (hport : (nth {} t.sw.ports k).up = (nth {} s.sw.ports k).up) : linked t k = linked s k := by
  unfold linked
  rw [hcfg, hport]

/-- The ring ports of `ps` as they stand in `t`, with the MRP state that `blocked` gives each. -/
def MrpShown (blocked : Nat → Bool) (ps : List Port) (t : State) : Prop :=
  t.sw.ports.length = ps.length ∧ ∀ k, nth {} t.sw.ports k =
    (if k < 2 ∧ k < ps.length then { nth {} ps k with mrp := if blocked k then 1 else 2 } else nth {} ps k)

theorem showMrp_frame (s : State) : showMrp s = { s with sw := { s.sw with ports := (showMrp s).sw.ports } } := rfl

theorem mrpState_blocked {s : State} {k : Nat} (hrole : s.sw.cfg.mrpRole ≠ 0) (hk : k < 2) :
    BitVec.ofNat 2 (mrpState s k) = if mrpBlocked s k then 1 else 2 := by
  unfold mrpState
  rw [if_neg fun h => h.elim hrole fun h1 => absurd h1 (by omega)]
  split <;> rfl

theorem mrpState_modPort (p : Nat) (f : Port → Port) (s : State) (k : Nat) : mrpState (modPort p f s) k = mrpState s k := rfl

theorem showMrp_shown {s : State} (hrole : s.sw.cfg.mrpRole ≠ 0) {blocked : Nat → Bool} (hblocked : ∀ k, mrpBlocked s k = blocked k) :
    MrpShown blocked s.sw.ports (showMrp s) := by
  have hports : (showMrp s).sw.ports = (s.sw.ports.modify 0 fun x => { x with mrp := BitVec.ofNat 2 (mrpState s 0) }).modify 1
      fun x => { x with mrp := BitVec.ofNat 2 (mrpState s 1) } := rfl
  refine ⟨by rw [hports, List.length_modify, List.length_modify], fun k => ?_⟩
  rw [hports, nth_modify, nth_modify, List.length_modify]
  by_cases hlt : k < s.sw.ports.length
  · rcases (show k = 0 ∨ k = 1 ∨ ¬ k < 2 by omega) with h0 | h1 | h2
    · subst h0
      rw [if_neg (fun h => absurd h.1 (by decide)), if_pos ⟨rfl, hlt⟩, if_pos ⟨by decide, hlt⟩, mrpState_blocked hrole (by decide),
        hblocked]
    · subst h1
      rw [if_pos ⟨rfl, hlt⟩, if_neg (fun h => absurd h.1 (by decide)), if_pos ⟨by decide, hlt⟩, mrpState_blocked hrole (by decide),
        hblocked]
    · rw [if_neg (fun h => h2 (by omega)), if_neg (fun h => h2 (by omega)), if_neg (fun h => h2 h.1)]
  · rw [if_neg (fun h => hlt h.2), if_neg (fun h => hlt h.2), if_neg (fun h => hlt h.2)]

/-! ### The link change of a client -/

/-- The change that a client tells its manager over the other ring port. -/
def linkChangeOf (p : Nat) (up : Bool) (s : State) : Option LinkChange :=
  if linked s (1 - p) then some { port := p, up := up, left := 4, atUs := s.clk.opUs } else none

theorem mrpLinkChanged_other {p : Nat} {up : Bool} {s : State} (h : ¬ (s.sw.cfg.mrpRole = 1 ∧ p < 2)) : mrpLinkChanged p up s = s :=
  if_neg h

/-- The link change of a client noted. -/
def lnkTold (p : Nat) (up : Bool) (s : State) : State := { s with sw := { s.sw with lnk := linkChangeOf p up s } }

theorem mrpLinkChanged_client {p : Nat} {up : Bool} {s : State} (h : s.sw.cfg.mrpRole = 1 ∧ p < 2) :
    mrpLinkChanged p up s = showMrp (lnkTold p up s) := if_pos h

theorem mrpBlocked_client {s : State} {p : Nat} {up l : Bool} {us : Nat} (hrole : s.sw.cfg.mrpRole = 1)
    (hlnk : s.sw.lnk = if l then some { port := p, up := up, left := 4, atUs := us } else none) (k : Nat) :
    mrpBlocked s k = (up && decide (k = p) && l) := by
  unfold mrpBlocked
  rw [if_neg (by rw [hrole]; decide), hlnk]
  cases l with
  | false => rw [Bool.and_false]; rfl
  | true =>
    rw [Bool.and_true, hrole]
    show (true && up && decide (p = k)) = _
    rw [Bool.true_and, decide_eq_decide.2 (eq_comm (a := p) (b := k))]

theorem mrpLinkChanged_shown {p : Nat} {up : Bool} {s : State} (h : s.sw.cfg.mrpRole = 1 ∧ p < 2) :
    mrpLinkChanged p up s = { s with sw := { s.sw with ports := (mrpLinkChanged p up s).sw.ports, lnk := linkChangeOf p up s } } ∧
    MrpShown (fun k => up && decide (k = p) && linked s (1 - p)) s.sw.ports (mrpLinkChanged p up s) := by
  rw [mrpLinkChanged_client h]
  have hrole : (lnkTold p up s).sw.cfg.mrpRole = 1 := h.1
  have hlnk : (lnkTold p up s).sw.lnk = if linked s (1 - p) then some { port := p, up := up, left := 4, atUs := s.clk.opUs } else none := rfl
  exact ⟨rfl, showMrp_shown (s := lnkTold p up s) (by rw [hrole]; decide) (mrpBlocked_client hrole hlnk)⟩

/-- What a change of a client's link needs of the state: the ports, and the other ring port's link. -/
theorem linkChangeOf_congr {p : Nat} {up : Bool} {s u : State} {f : Port → Port} (hp : p < 2)
    (hsw : u.sw = { s.sw with ports := s.sw.ports.modify p f }) (hop : u.clk.opUs = s.clk.opUs) :
    linked u (1 - p) = linked s (1 - p) ∧ linkChangeOf p up u = linkChangeOf p up s := by
  have hlinked : linked u (1 - p) = linked s (1 - p) := by
    refine linked_congr (by rw [hsw]) ?_
    rw [hsw]
    dsimp only
    rw [nth_modify, if_neg (fun h => absurd h.1 (by omega))]
  exact ⟨hlinked, by unfold linkChangeOf; rw [hlinked, hop]⟩

/-! ### Links (R320, R341) -/

/-- A port that has lost its link. -/
def portDown (y : Port) : Port := { y with up := false, speed := 0, full := false, queues := ({} : Port).queues, sending := none }

/-- The learned entries of a port. -/
def learnedAt (p : Nat) (e : MacEntry) : Bool := !e.static && decide (e.ports = BitVec.ofNat 5 (2 ^ p))

/-- The lost link recorded, its entries invalidated, before the ring is told. -/
def linkLost (p : Nat) (s : State) : State :=
  sjRep 0x802 1 p (item p) (modPipe (portPipe p) (flushPipe (learnedAt p)) (modPort p portDown s))

theorem linkDown_eq {p : Nat} {s : State} (hpd : s.power.pdOn.getLsbD 6 = true) (hup : (nth {} s.sw.ports p).up = true) :
    linkDown p s = mrpLinkChanged p false (linkLost p s) := if_pos ⟨hpd, hup⟩

theorem linkLost_sw (p : Nat) (s : State) : (linkLost p s).sw = { s.sw with ports := s.sw.ports.modify p portDown } :=
  (sjRep_changes ..).get .sw

theorem linkLost_opUs (p : Nat) (s : State) : (linkLost p s).clk.opUs = s.clk.opUs := (sjRep_changes ..).get .opUs

theorem linkLost_pipes (p : Nat) (s : State) (w : Bool) :
    pipeOf w (linkLost p s) = if w = portPipe p then flushPipe (learnedAt p) (pipeOf w s) else pipeOf w s :=
  (pipeOf_congr ((sjRep_changes ..).get .tbl) w).trans (pipeOf_modPipe ..)

theorem mrpLinkChanged_tbl (p : Nat) (up : Bool) (s : State) : (mrpLinkChanged p up s).tbl = s.tbl := by
  unfold mrpLinkChanged
  split <;> rfl

theorem linkLost_macAt (p : Fin 4) {s : State} {w : Bool} (hdistinct : DistinctMacs (pipeOf w s)) (i : Nat) :
    macAt (pipeOf w (linkLost p s)) i =
      if (macAt (pipeOf w s) i).valid && !(macAt (pipeOf w s) i).static && decide ((macAt (pipeOf w s) i).ports = BitVec.ofNat 5 (2 ^ p.val)) &&
        decide (w = portPipe p) then cleared (macAt (pipeOf w s) i) else macAt (pipeOf w s) i := by
  rw [linkLost_pipes]
  by_cases hw : w = portPipe p
  · rw [if_pos hw, decide_eq_true hw, Bool.and_true, macAt_flushPipe hdistinct (fun e he h => ?_), Bool.and_assoc]
    · rfl
    · unfold learnedAt at he
      rw [h, Bool.and_eq_true, decide_eq_true_eq] at he
      exact absurd he.2 ((show ∀ p : Fin 4, (0 : BitVec 5) ≠ BitVec.ofNat 5 (2 ^ p.val) by decide) p)
  · rw [if_neg hw, decide_eq_false hw, Bool.and_false, if_neg Bool.false_ne_true]

/-- A port whose link has come up. -/
def portUp (speed : BitVec 2) (full mdix : Bool) (y : Port) : Port := { y with up := true, speed := speed, full := full, mdix := mdix }

/-- The new link recorded, before the ring is told. -/
def linkFound (p : Nat) (speed : BitVec 2) (full mdix : Bool) (s : State) : State :=
  sjRep 0x801 0 p (item p ++ item speed.toNat ++ item (b2n full)) (modPort p (portUp speed full mdix) s)

theorem linkFound_sw (p : Nat) (speed : BitVec 2) (full mdix : Bool) (s : State) :
    (linkFound p speed full mdix s).sw = { s.sw with ports := s.sw.ports.modify p (portUp speed full mdix) } := (sjRep_changes ..).get .sw

theorem linkFound_opUs (p : Nat) (speed : BitVec 2) (full mdix : Bool) (s : State) :
    (linkFound p speed full mdix s).clk.opUs = s.clk.opUs := (sjRep_changes ..).get .opUs

theorem linkFound_booked (p : Nat) (speed : BitVec 2) (full mdix : Bool) (s : State) :
    Safety.Booked [2, 3] (modPort p (portUp speed full mdix) s) (linkFound p speed full mdix s) := Safety.sjRep_booked ..

theorem linkMode_fst (cfg : Byte) (speed : BitVec 2) (full : Bool) :
    (linkMode cfg speed full).1 = if cfg = 0 then speed else BitVec.ofNat 2 cfg.toNat := by
  unfold linkMode
  split <;> rfl

theorem linkMode_snd (cfg : Byte) (speed : BitVec 2) (full : Bool) :
    (linkMode cfg speed full).2 = (full || decide (cfg ≠ 0) || decide (speed = 3)) := by
  unfold linkMode
  split
  case isTrue h => rw [decide_eq_false (not_not_intro h), Bool.or_false]
  case isFalse h => rw [decide_eq_true h, Bool.or_true, Bool.true_or]

theorem linkUp_eq {p : Nat} {speed : BitVec 2} {full mdix : Bool} {s : State} (hpd : s.power.pdOn.getLsbD 6 = true)
    (hup : (nth {} s.sw.ports p).up = false) (hen : s.sw.cfg.portEn.getLsbD p = true)
    (hmode : (linkMode (nth 0 s.sw.cfg.speed p) speed full).1 ≠ 0) :
    linkUp p speed full mdix s = mrpLinkChanged p true
      (linkFound p (linkMode (nth 0 s.sw.cfg.speed p) speed full).1 (linkMode (nth 0 s.sw.cfg.speed p) speed full).2 mdix s) :=
  if_pos ⟨hpd, hen, by rw [hup]; rfl, hmode⟩

theorem linkUp_idle {p : Nat} {speed : BitVec 2} {full mdix : Bool} {s : State}
    (h : (nth {} s.sw.ports p).up = true ∨ s.sw.cfg.portEn.getLsbD p = false ∨ (linkMode (nth 0 s.sw.cfg.speed p) speed full).1 = 0) :
    linkUp p speed full mdix s = s := by
  refine if_neg fun hc => ?_
  obtain ⟨_, hen, hup, hmode⟩ := hc
  rcases h with h | h | h
  · rw [h] at hup
    exact absurd hup (by decide)
  · exact absurd (hen.symm.trans h) (by decide)
  · exact hmode h

/-- What is booked stands whatever the switch is in both states. -/
theorem Booked_sw {ns : List Nat} {u t : State} (x : Switch) (h : Safety.Booked ns u t) :
    Safety.Booked ns { u with sw := x } { t with sw := x } where
  frame := by
    have hframe := h.frame
    generalize t.queues = q, t.log = l, t.data = d, t.clk.freeCount = n at hframe ⊢
    rw [hframe]
  logKept := h.logKept
  sjKept := h.sjKept
  trKept := h.trKept
  poolKept := h.poolKept
  layout := h.layout
  ringsKept := h.ringsKept
  bytesKept := h.bytesKept

end
end Sys2Proof.Machine
end

section
/-! SUPPORT. The ring of a manager and a client: the frames of a topology change, and the ring opened and closed (R333, R334). -/

namespace Sys2Proof.Machine

section
set_option Elab.async false

/-! ### Frames of the MRP engine -/

/-- The bytes of an MRP frame of the unit from its addresses on. -/
def mrpFrame (group : Byte) (tlv : Bytes) (s : State) : Bytes :=
  let bs := [0x01, 0x15, 0x4E, 0x00, 0x00, group] ++ macBytes s.sw.mac ++ [0x88, 0xE3, 0x00, 0x01] ++ tlv ++
    [0x01, 0x12] ++ beBytes 2 (s.sw.mrpSeq + 1).toNat ++ padTo 16 s.sw.cfg.mrpDomain ++ [0x00, 0x00]
  bs ++ zeros (60 - bs.length)

theorem mrpSend_eq {p : Nat} {group : Byte} {tlv : Bytes} {s : State} (h : linked s p = true) :
    mrpSend p group tlv s =
      enqueue p 7 (false, mrpFrame group tlv s) { s with sw := { s.sw with mrpSeq := s.sw.mrpSeq + 1 } } := if_pos h

theorem macBytes_length (m : BitVec 48) : (macBytes m).length = 6 := by simp [macBytes, beBytes]

theorem mrpFrame_eq (group : Byte) (tlv : Bytes) (s : State) :
    ∃ rest, mrpFrame group tlv s = [0x01, 0x15, 0x4E, 0x00, 0x00, group] ++ (macBytes s.sw.mac ++ [0x88, 0xE3]) ++ rest := by
  unfold mrpFrame
  dsimp only
  generalize zeros _ = z
  refine ⟨[0x00, 0x01] ++ tlv ++ [0x01, 0x12] ++ beBytes 2 (s.sw.mrpSeq + 1).toNat ++ padTo 16 s.sw.cfg.mrpDomain ++ [0x00, 0x00] ++ z, ?_⟩
  rw [show ([0x88, 0xE3, 0x00, 0x01] : Bytes) = [0x88, 0xE3] ++ [0x00, 0x01] from rfl]
  simp only [List.append_assoc]

theorem mrpFrame_addresses (group : Byte) (tlv : Bytes) (s : State) :
    (mrpFrame group tlv s).take 6 = [0x01, 0x15, 0x4E, 0x00, 0x00, group] ∧
    slice (mrpFrame group tlv s) 6 8 = macBytes s.sw.mac ++ [0x88, 0xE3] := by
  obtain ⟨rest, h⟩ := mrpFrame_eq group tlv s
  rw [h]
  refine ⟨?_, slice_append_behind rfl (by rw [List.length_append, macBytes_length]; rfl)⟩
  rw [List.append_assoc]
  exact List.take_left' rfl

theorem enqueue_port_ne {p k cls : Nat} (h : k ≠ p) (x : Bool × Bytes) (s : State) :
    nth {} (enqueue p cls x s).sw.ports k = nth {} s.sw.ports k := by
  refine (nth_modify s.sw.ports p _ k).trans (if_neg fun hc => h hc.1)

theorem nth_set_self {α : Type} (d : α) (l : List α) {i : Nat} (h : i < l.length) (x : α) : nth d (l.set i x) i = x := by
  unfold nth
  rw [List.getD_eq_getElem?_getD, List.getElem?_set_self h]
  rfl

theorem enqueue_queue {p cls : Nat} {x : Bool × Bytes} {s : State} (hp : p < s.sw.ports.length)
    (hcls : cls < (nth {} s.sw.ports p).queues.length) (hroom : (nth [] (nth {} s.sw.ports p).queues cls).length < 64) :
    nth [] (nth {} (enqueue p cls x s).sw.ports p).queues cls = nth [] (nth {} s.sw.ports p).queues cls ++ [x] := by
  have hport : nth {} (enqueue p cls x s).sw.ports p = { nth {} s.sw.ports p with
      queues := (nth {} s.sw.ports p).queues.set cls (nth [] (nth {} s.sw.ports p).queues cls ++ [x]) } :=
    ((nth_modify s.sw.ports p _ p).trans (if_pos ⟨rfl, hp⟩)).trans (if_neg (by omega))
  rw [hport]
  exact nth_set_self _ _ hcls _

/-- A class queue of a port. -/
def classQueue (s : State) (p : Nat) : List (Bool × Bytes) := nth [] (nth {} s.sw.ports p).queues 7

theorem mrpSend_port_ne {p k : Nat} (h : k ≠ p) (group : Byte) (tlv : Bytes) (s : State) :
    nth {} (mrpSend p group tlv s).sw.ports k = nth {} s.sw.ports k := by
  by_cases hl : linked s p = true
  · rw [mrpSend_eq hl]
    exact enqueue_port_ne h _ _
  · exact congrArg (fun u : State => nth {} u.sw.ports k) (if_neg hl)

theorem mrpSend_mac (p : Nat) (group : Byte) (tlv : Bytes) (s : State) :
    (mrpSend p group tlv s).sw.mac = s.sw.mac ∧ (mrpSend p group tlv s).sw.cfg = s.sw.cfg := by
  obtain ⟨ps, n, h⟩ := mrpSend_frame p group tlv s
  rw [h]
  exact ⟨rfl, rfl⟩

/-- A frame of the engine joins the highest class queue of a ring port with a link. -/
def MrpQueued (p : Nat) (group : Byte) (s t : State) : Prop :=
  ∃ b, classQueue t p = classQueue s p ++ [(false, b)] ∧ b.take 6 = [0x01, 0x15, 0x4E, 0x00, 0x00, group] ∧
    slice b 6 8 = macBytes s.sw.mac ++ [0x88, 0xE3]

theorem mrpSend_queued {p : Nat} {group : Byte} {tlv : Bytes} {s : State} (hl : linked s p = true) (hp : p < s.sw.ports.length)
    (hcls : 7 < (nth {} s.sw.ports p).queues.length) (hroom : (classQueue s p).length < 64) :
    MrpQueued p group s (mrpSend p group tlv s) := by
  obtain ⟨hdst, hsrc⟩ := mrpFrame_addresses group tlv s
  refine ⟨_, ?_, hdst, hsrc⟩
  rw [mrpSend_eq hl]
  exact enqueue_queue (s := { s with sw := { s.sw with mrpSeq := s.sw.mrpSeq + 1 } }) hp hcls hroom

/-- What a port of the switch shows decides its queue and its link. -/
theorem classQueue_congr {s t : State} {p : Nat} (h : nth {} t.sw.ports p = nth {} s.sw.ports p) : classQueue t p = classQueue s p := by
  unfold classQueue
  rw [h]

theorem MrpQueued.congr {p : Nat} {group : Byte} {s t s' t' : State} (h : MrpQueued p group s t)
    (hs : nth {} s'.sw.ports p = nth {} s.sw.ports p) (hmac : s'.sw.mac = s.sw.mac)
    (ht : nth {} t'.sw.ports p = nth {} t.sw.ports p) : MrpQueued p group s' t' := by
  obtain ⟨b, hq, hdst, hsrc⟩ := h
  exact ⟨b, by rw [classQueue_congr hs, classQueue_congr ht, hq], hdst, by rw [hmac, hsrc]⟩

/-! ### A topology change (R334) -/

/-- The state before a manager's first MRP_TopologyChange. -/
def topologyTimed (left : Nat) (s : State) : State :=
  { s with sw := { s.sw with topoLeft := left - 1, topoUs := s.clk.opUs + 1000 * mrpTopo s } }

/-- An MRP_TopologyChange on a ring port. -/
def topologySent (left : Nat) (s : State) (p : Nat) : State :=
  mrpSend p 2 ([0x03, 0x0A] ++ mrpWho s ++ beBytes 2 (left * mrpTopo s)) s

theorem mrpTopology_eq (left : Nat) (s : State) :
    mrpTopology left s = topologySent left (topologySent left (topologyTimed left s) 0) 1 := rfl

theorem mrpTopology_queued (left : Nat) {p : Nat} (hp2 : p < 2) {s : State} (hl : linked s p = true) (hp : p < s.sw.ports.length)
    (hcls : 7 < (nth {} s.sw.ports p).queues.length) (hroom : (classQueue s p).length < 64) :
    MrpQueued p 2 s (mrpTopology left s) := by
  rw [mrpTopology_eq]
  rcases (show p = 0 ∨ p = 1 by omega) with h0 | h1
  · subst h0
    have hsent : MrpQueued 0 2 s (topologySent left (topologyTimed left s) 0) := mrpSend_queued (s := topologyTimed left s) hl hp hcls hroom
    exact hsent.congr rfl rfl (mrpSend_port_ne (by decide) ..)
  · subst h1
    generalize hu : topologySent left (topologyTimed left s) 0 = u
    have hport : nth {} u.sw.ports 1 = nth {} s.sw.ports 1 := by
      rw [← hu]
      exact mrpSend_port_ne (by decide) ..
    obtain ⟨hmac, hcfg⟩ : u.sw.mac = s.sw.mac ∧ u.sw.cfg = s.sw.cfg := by
      rw [← hu]
      exact mrpSend_mac ..
    have hlength : u.sw.ports.length = s.sw.ports.length := by
      rw [← hu]
      unfold topologySent mrpSend
      split
      · exact List.length_modify ..
      · rfl
    have hsent : MrpQueued 1 2 u (topologySent left u 1) :=
      mrpSend_queued ((linked_congr (by rw [hcfg]) (by rw [hport])).trans hl) (by rw [hlength]; exact hp) (by rw [hport]; exact hcls)
        (by rw [classQueue_congr hport]; exact hroom)
    exact hsent.congr hport.symm hmac.symm rfl

theorem mrpTopology_sw (s : State) : ∃ ps n, mrpTopology 3 s = { s with sw := { s.sw with
    ports := ps, mrpSeq := n, topoLeft := 2, topoUs := s.clk.opUs + 1000 * mrpTopo s } } := by
  obtain ⟨ps, n, h⟩ := mrpSends_frame (tlv := fun t _ => [0x03, 0x0A] ++ mrpWho t ++ beBytes 2 (3 * mrpTopo t)) [0, 1] (topologyTimed 3 s)
  exact ⟨ps, n, h⟩

/-- The learned entries of the ring ports flushed in both pipelines. -/
def ringFlushed (s : State) : State := modPipe true (flushPipe onRing) (modPipe false (flushPipe onRing) s)

/-- The ring told of a topology change: by a manager on both ports; at a client a link change ends. -/
def ringTold (s : State) : State :=
  if s.sw.cfg.mrpRole = 2 then mrpTopology 3 s else showMrp { s with sw := { s.sw with lnk := none } }

/-- A topology change counted. -/
def topoCounted (s : State) : State := { s with sw := { s.sw with topo := satInc s.sw.topo } }

theorem topologyChange_eq {s : State} (hpd : s.power.pdOn.getLsbD 6 = true) (hrole : s.sw.cfg.mrpRole ≠ 0) :
    ∃ n, topologyChange s = tr 0x805 0 (item 2 ++ item n) (topoCounted (ringTold (ringFlushed s))) :=
  ⟨_, if_pos (by unfold ringMember; rw [decide_eq_true hrole, Bool.and_true]; exact hpd)⟩

theorem ringTold_tbl (s : State) : (ringTold s).tbl = s.tbl := by
  unfold ringTold
  split
  · obtain ⟨ps, n, h⟩ := mrpTopology_sw s
    rw [h]
  · rfl

/-- A topology change leaves the switch as the ring was told. -/
theorem topologyChange_sw {s : State} (hpd : s.power.pdOn.getLsbD 6 = true) (hrole : s.sw.cfg.mrpRole ≠ 0) :
    (topologyChange s).sw = (topoCounted (ringTold (ringFlushed s))).sw ∧ ∀ w, pipeOf w (topologyChange s) = flushPipe onRing (pipeOf w s) := by
  obtain ⟨n, h⟩ := topologyChange_eq hpd hrole
  rw [h]
  have hrecord := tr_changes 0x805 0 (item 2 ++ item n) (topoCounted (ringTold (ringFlushed s)))
  exact ⟨hrecord.get .sw, fun w => (pipeOf_congr ((hrecord.get .tbl).trans (ringTold_tbl _)) w).trans (pipeOf_both ..)⟩

theorem ringTold_manager {s : State} (h : s.sw.cfg.mrpRole = 2) : ringTold s = mrpTopology 3 s := if_pos h

theorem ringTold_client {s : State} (h : s.sw.cfg.mrpRole ≠ 2) (hrole : s.sw.cfg.mrpRole ≠ 0) :
    ringTold s = { s with sw := { s.sw with lnk := none, ports := (ringTold s).sw.ports } } ∧
    MrpShown (fun _ => false) s.sw.ports (ringTold s) := by
  have heq : ringTold s = showMrp { s with sw := { s.sw with lnk := none } } := if_neg h
  rw [heq]
  generalize hu : ({ s with sw := { s.sw with lnk := none } } : State) = u
  have hrole' : u.sw.cfg.mrpRole = s.sw.cfg.mrpRole := by rw [← hu]
  have hlnk : u.sw.lnk = none := by rw [← hu]
  have hports : u.sw.ports = s.sw.ports := by rw [← hu]
  refine ⟨?_, ?_⟩
  · rw [← hu]
    rfl
  · rw [← hports]
    refine showMrp_shown (by rw [hrole']; exact hrole) fun k => ?_
    unfold mrpBlocked
    rw [if_neg (by rw [hrole']; exact h), hlnk]

theorem onRing_ports {e : MacEntry} (h : onRing e = true) : e.ports ≠ 0 := by
  unfold onRing at h
  intro h0
  rw [h0, Bool.and_eq_true] at h
  exact absurd h.2 (by decide)

/-! ### The ring opened and closed -/

/-- A manager's ring as it opens. -/
def ringOpened (s : State) : State := showMrp { s with sw := { s.sw with
  ring := 1, mrpTrans := s.sw.mrpTrans + 1, opens := satInc s.sw.opens, ringOpenUs := s.clk.opUs } }

/-- A manager's ring as it closes. -/
def ringShut (s : State) : State := showMrp { s with sw := { s.sw with ring := 2, mrpTrans := s.sw.mrpTrans + 1 } }

theorem ringMember_manager {s : State} (hpd : s.power.pdOn.getLsbD 6 = true) (hrole : s.sw.cfg.mrpRole = 2) : ringMember s = true := by
  unfold ringMember
  rw [hrole]
  show (s.power.pdOn.getLsbD 6 && true) = true
  rw [hpd]
  rfl

theorem ringOpen_eq {p : Nat} {s : State} (hpd : s.power.pdOn.getLsbD 6 = true) (hrole : s.sw.cfg.mrpRole = 2) (hring : s.sw.ring = 2) :
    ringOpen p s = sj 0x803 2 (item p) (ringOpened s) := if_pos ⟨ringMember_manager hpd hrole, hrole, hring⟩

theorem ringClosed_eq {s : State} (hpd : s.power.pdOn.getLsbD 6 = true) (hrole : s.sw.cfg.mrpRole = 2) (hring : s.sw.ring = 1) :
    ringClosed s = sj 0x804 0 (item ((s.clk.opUs - s.sw.ringOpenUs) / 1000)) (ringShut s) :=
  if_pos ⟨ringMember_manager hpd hrole, hrole, hring⟩

theorem ringOpen_idle (p : Nat) {s : State} (hring : s.sw.ring ≠ 2) : ringOpen p s = s := if_neg fun h => hring h.2.2
theorem ringClosed_idle {s : State} (hring : s.sw.ring ≠ 1) : ringClosed s = s := if_neg fun h => hring h.2.2

end
end Sys2Proof.Machine
end

section
/-! SUPPORT. The lock, the DMA jobs and the loads of prefixes of the backbone switch (R325, R331, R332). -/

namespace Sys2Proof.Machine

section
set_option Elab.async false

/-! ### Accesses to the lock and the DMA registers -/

theorem exec_tblLockTake {s : State} (hawake : awake s = true) (hpd : s.power.pdOn.getLsbD 6 = true) (agent : Byte) :
    exec (.tblLockTake agent) s = .next (lockTake agent s) := by
  have hrun : exec (.tblLockTake agent) s = .next (if agent = 1 then writeAccess 0x40410030 4 1 s else laneLock (lockTake agent) s) := rfl
  rw [hrun]
  by_cases h1 : agent = 1
  · rw [if_pos h1, writeAccess_of_at 1 (accessOf_at (addr := 0x40410030) hawake rfl rfl hpd), h1]
    rfl
  · rw [if_neg h1]
    unfold laneLock
    rw [if_neg (by rw [hawake]; decide)]
    exact congrArg Host.Outcome.next (if_pos hpd)

theorem exec_tblLockRelease {s : State} (hawake : awake s = true) (hpd : s.power.pdOn.getLsbD 6 = true) (agent : Byte) :
    exec (.tblLockRelease agent) s = .next (lockRelease agent s) := by
  have hrun : exec (.tblLockRelease agent) s = .next (if agent = 1 then writeAccess 0x40410030 4 0 s else laneLock (lockRelease agent) s) := rfl
  rw [hrun]
  by_cases h1 : agent = 1
  · rw [if_pos h1, writeAccess_of_at 0 (accessOf_at (addr := 0x40410030) hawake rfl rfl hpd), h1]
    rfl
  · rw [if_neg h1]
    unfold laneLock
    rw [if_neg (by rw [hawake]; decide)]
    exact congrArg Host.Outcome.next (if_pos hpd)

theorem exec_dmaStart {s : State} (hawake : awake s = true) (hpd : s.power.pdOn.getLsbD 6 = true) (v : Word) :
    exec (.dmaStart v) s = .next (dmaStart (dmaAgent s) v s) := by
  have hrun : exec (.dmaStart v) s = .next (if dmaAgent s = 1 then writeAccess 0x40410034 4 v s
    else laneLock (dmaStart (dmaAgent s) v) s) := rfl
  rw [hrun]
  by_cases h1 : dmaAgent s = 1
  · rw [if_pos h1, writeAccess_of_at v (accessOf_at (addr := 0x40410034) hawake rfl rfl hpd), h1]
    rfl
  · rw [if_neg h1]
    unfold laneLock
    rw [if_neg (by rw [hawake]; decide)]
    exact congrArg Host.Outcome.next (if_pos hpd)

/-- Without PD6 an access to the lock is counted, whoever makes it (R16). -/
theorem lockAccess_missed {s : State} (hawake : awake s = true) (hpd : s.power.pdOn.getLsbD 6 = false) (agent : Byte) (v : Word)
    (f : State → State) : (if agent = 1 then writeAccess 0x40410030 4 v s else laneLock f s) = xdomMiss 0x41 s := by
  by_cases h1 : agent = 1
  · rw [if_pos h1]
    exact writeAccess_of_miss v (accessOf_miss (addr := 0x40410030) hawake rfl rfl hpd)
  · rw [if_neg h1]
    unfold laneLock
    rw [if_neg (by rw [hawake]; decide)]
    exact if_neg (show ¬ s.power.pdOn.getLsbD 6 = true by rw [hpd]; exact Bool.false_ne_true)

/-! ### The lock (R332) -/

/-- The lock taken by an agent. -/
def lockTaken (agent : Byte) (s : State) : State :=
  { s with tbl := { s.tbl with held := true, owner := agent, heldUs := s.clk.wallUs } }

theorem lockTake_free {s : State} (hpd : s.power.pdOn.getLsbD 6 = true) (agent : Byte) (hheld : s.tbl.held = false)
    (hrehash : s.tbl.rehash = none) : lockTake agent s = lockTaken agent s :=
  if_pos ⟨hpd, by rw [hheld]; rfl, by rw [hrehash]; rfl⟩

theorem lockTake_held {s : State} (agent : Byte) (hheld : s.tbl.held = true) : lockTake agent s = s :=
  if_neg fun h => absurd h.2.1 (by rw [hheld]; decide)

theorem lockRelease_other {s : State} {agent : Byte} (h : s.tbl.owner ≠ agent) : lockRelease agent s = s := if_neg fun hc => h hc.2.2

theorem lockRelease_owner {s : State} {agent : Byte} (hpd : s.power.pdOn.getLsbD 6 = true) (hheld : s.tbl.held = true)
    (h : s.tbl.owner = agent) : lockRelease agent s = lockFree s := if_pos ⟨hpd, hheld, h⟩

theorem applyLearned_none {w : Bool} {s : State} (h : (pipeOf w s).queue = []) : applyLearned w s = s := by
  have hsame (p : Pipe) (hp : p.queue = []) : { p with queue := [] } = p := by
    cases p
    subst hp
    rfl
  unfold applyLearned
  rw [h, List.foldl_nil]
  cases w with
  | false => exact congrArg (fun p : Pipe => { s with tbl := { s.tbl with e := p } }) (hsame s.tbl.e h)
  | true => exact congrArg (fun p : Pipe => { s with tbl := { s.tbl with w := p } }) (hsame s.tbl.w h)

theorem lockFree_only (s : State) : PipesOnly { s with tbl := { s.tbl with held := false, owner := 0 } } (lockFree s) :=
  (applyLearned_only false _).trans (applyLearned_only true _)

/-- A lock set free shows so, and with nothing learned in the meantime the pipelines stand. -/
theorem lockFree_none {s : State} (he : s.tbl.e.queue = []) (hw : s.tbl.w.queue = []) :
    lockFree s = { s with tbl := { s.tbl with held := false, owner := 0 } } := by
  have hfirst : applyLearned false { s with tbl := { s.tbl with held := false, owner := 0 } } =
      { s with tbl := { s.tbl with held := false, owner := 0 } } := applyLearned_none he
  unfold lockFree
  rw [hfirst]
  exact applyLearned_none hw

/-- A lock that has timed out, recorded. -/
def lockTimedOut (s : State) : State :=
  { tr 0x813 1 (item s.tbl.owner.toNat) s with tbl := { (tr 0x813 1 (item s.tbl.owner.toNat) s).tbl with timeout := true } }

theorem lockTimeout_eq {s : State} (hheld : s.tbl.held = true) (hdue : s.tbl.heldUs + 1000000 ≤ s.clk.wallUs)
    (hjob : s.tbl.dmaJob = none) : lockTimeout s = lockFree (lockTimedOut s) :=
  if_pos ⟨hheld, hdue, by rw [hjob]; rfl⟩

theorem lockTimeout_idle {s : State} (h : s.tbl.held = false ∨ s.clk.wallUs < s.tbl.heldUs + 1000000 ∨ s.tbl.dmaJob.isSome = true) :
    lockTimeout s = s := by
  refine if_neg fun hc => ?_
  obtain ⟨hheld, hdue, hjob⟩ := hc
  rcases h with h | h | h
  · exact absurd (hheld.symm.trans h) (by decide)
  · omega
  · rw [Option.isNone_iff_eq_none.1 hjob] at h
    cases h

theorem lockTimeout_free {s : State} (hheld : s.tbl.held = true) (hdue : s.tbl.heldUs + 1000000 ≤ s.clk.wallUs)
    (hjob : s.tbl.dmaJob = none) :
    (lockTimeout s).tbl.held = false ∧ (lockTimeout s).tbl.owner = 0 ∧ (lockTimeout s).tbl.timeout = true := by
  rw [lockTimeout_eq hheld hdue hjob]
  have hframe := (lockFree_only (lockTimedOut s)).frame
  exact ⟨congrArg Tbl.held hframe, congrArg Tbl.owner hframe, congrArg Tbl.timeout hframe⟩

/-! ### DMA jobs (R331) -/

/-- The error of a job that is started by the agent that holds the lock. -/
theorem dmaError_holder (pfx : Bool) (s u : State) (h : u.tbl.held = s.tbl.held ∧ u.tbl.owner = s.tbl.owner ∧
    u.tbl.dmaCount = s.tbl.dmaCount ∧ u.tbl.dmaFirst = s.tbl.dmaFirst ∧ u.tbl.dmaAddr = s.tbl.dmaAddr) :
    dmaError (dmaAgent s) pfx u = if s.tbl.held = false then 1
      else if s.tbl.dmaCount.toNat = 0 ∨ (if pfx then 512 else 8192) < s.tbl.dmaFirst.toNat + s.tbl.dmaCount.toNat then 2
      else if 16777216 < s.tbl.dmaAddr.toNat + 16 * s.tbl.dmaCount.toNat then 3 else 0 := by
  obtain ⟨hheld, howner, hcount, hfirst, haddr⟩ := h
  unfold dmaError dmaAgent
  dsimp only
  rw [hheld, howner, hcount, hfirst, haddr, show dataSize = 16777216 from rfl]
  cases s.tbl.held with
  | false => rw [if_pos rfl]; rfl
  | true =>
    rw [if_pos rfl]
    exact (if_neg (by simp)).trans (if_neg (by decide)).symm

theorem exec_dmaDone {s : State} (hpd : s.power.pdOn.getLsbD 6 = true) : exec .dmaDone s = .next (dmaDone s) :=
  congrArg Host.Outcome.next (if_pos hpd)

theorem dmaDone_idle {s : State} (h : s.tbl.dmaJob = none) : dmaDone s = s := by
  unfold dmaDone
  rw [h]

/-- The end of a job. -/
def dmaEnded (s : State) : State := { s with tbl := { s.tbl with dmaJob := none } }

theorem dmaDone_eq {s : State} {j : DmaJob} (h : s.tbl.dmaJob = some j) : dmaDone s = dmaEnded (dmaEntries j j.count s) := by
  unfold dmaDone
  rw [h]
  rfl

theorem dmaEntries_all {j : DmaJob} {n : Nat} (h : n ≤ j.done) (s : State) : dmaEntries j n s = s := by
  unfold dmaEntries
  rw [Nat.sub_eq_zero_of_le h]
  rfl

theorem dmaEntries_first {j : DmaJob} (h : j.done = 0) (s : State) : dmaEntries j 1 s = dmaEntry j s 0 := by
  unfold dmaEntries
  rw [h]
  rfl

theorem dmaEntries_read {j : DmaJob} (hdir : j.dir = false) (n : Nat) (s : State) : (dmaEntries j n s).tbl = s.tbl := by
  obtain ⟨tb, d, i, x, h, _, htbl, _⟩ := dmaMoves_frame j (List.range' j.done (n - j.done)) s
  unfold dmaEntries
  rw [h]
  exact htbl hdir

theorem dmaEntries_write {j : DmaJob} (hdir : j.dir = true) (n : Nat) (s : State) : (dmaEntries j n s).data = s.data := by
  obtain ⟨tb, d, i, x, h, _, _, hmem⟩ := dmaMoves_frame j (List.range' j.done (n - j.done)) s
  unfold dmaEntries
  rw [h]
  exact (hmem hdir).1

theorem macImage_length (e : MacEntry) : (macImage e).length = 16 := by
  unfold macImage
  simp only [List.length_append, macBytes_length, List.length_cons, List.length_nil, leBytes_length]

theorem dataWf_of_storesWf {s : State} (h : Safety.storesWf s) : swf 0 dataSize s.data = true := by
  simp only [Safety.storesWf, Memory.wf, Bool.and_eq_true] at h
  exact h.1.1

/-- An entry that a job reads stands in data memory, outside Lane A's states. -/
theorem dmaEntry_read {j : DmaJob} (hdir : j.dir = false) (htable : j.table = false) {s : State} (hwf : Safety.storesWf s)
    (haddr : j.addr + 16 ≤ 0x800000 ∨ (0x820100 ≤ j.addr ∧ j.addr + 16 ≤ 16777216)) :
    dataRead j.addr 16 (dmaEntry j s 0) = macImage (macAt (pipeOf j.pipe s) j.first) := by
  have hentry : dmaEntry j s 0 = unitWrite j.addr (macImage (macAt (pipeOf j.pipe s) j.first)) s := by
    unfold dmaEntry
    rw [hdir, htable]
    rfl
  have hlength := macImage_length (macAt (pipeOf j.pipe s) j.first)
  generalize macImage (macAt (pipeOf j.pipe s) j.first) = bs at hentry hlength ⊢
  have hwrite : unitWrite j.addr bs s = dataWrite j.addr bs s := if_pos (by rw [hlength]; exact haddr.imp id And.left)
  have hdata := dataWf_of_storesWf hwf
  rw [hentry, hwrite, ← hlength]
  exact memRead_memWrite 0 dataSize s.data j.addr bs hdata (by rw [hlength, show dataSize = 16777216 from rfl]; omega)

theorem dmaEntry_mac {j : DmaJob} (hdir : j.dir = true) (htable : j.table = false) (s : State) :
    dmaEntry j s 0 = modPipe j.pipe (putMac j.first (macParse (unitRead j.addr 16 s))) s := by
  unfold dmaEntry
  rw [hdir, htable]
  rfl

theorem dmaEntry_pfx {j : DmaJob} (hdir : j.dir = true) (htable : j.table = true) (s : State) :
    dmaEntry j s 0 = modPipe j.pipe (putPfx j.first (pfxParse (unitRead j.addr 16 s))) s := by
  unfold dmaEntry
  rw [hdir, htable]
  rfl

theorem dmaEntries_other {j : DmaJob} (hdir : j.dir = true) (hcount : j.count = 1) (s : State) :
    pipeOf (!j.pipe) (dmaEntries j j.count s) = pipeOf (!j.pipe) s := by
  rw [hcount]
  have hne : (!j.pipe) ≠ j.pipe := by cases j.pipe <;> decide
  by_cases hdone : j.done = 0
  · rw [dmaEntries_first hdone]
    cases htable : j.table with
    | false => rw [dmaEntry_mac hdir htable, pipeOf_modPipe_ne hne]
    | true => rw [dmaEntry_pfx hdir htable, pipeOf_modPipe_ne hne]
  · rw [dmaEntries_all (by omega)]

theorem pipeOf_dmaEnded (w : Bool) (s : State) : pipeOf w (dmaEnded s) = pipeOf w s := by cases w <;> rfl

/-! ### Prefix loads (R325) -/

theorem pfxApply_eq {s : State} {bs : Bytes} (hpd : s.power.pdOn.getLsbD 6 = true) (hwait : s.tbl.pfxWait = some bs)
    (hheld : s.tbl.held = false) (hrehash : s.tbl.rehash = none) :
    (pfxApply s).tbl = { s.tbl with pfxWait := none, e := loadPipe (loadSlots bs) s.tbl.e, w := loadPipe (loadSlots bs) s.tbl.w } := by
  have hpd' : pdIs s 6 = true := hpd
  unfold pfxApply
  rw [hwait]
  dsimp only
  rw [if_neg (by rw [hheld, hrehash, hpd']; decide)]
  exact (tr_changes ..).get .tbl

theorem pfxApply_idle {s : State} (h : s.tbl.pfxWait = none ∨ s.tbl.held = true ∨ s.tbl.rehash.isSome = true) : pfxApply s = s := by
  unfold pfxApply
  cases hwait : s.tbl.pfxWait with
  | none => rfl
  | some bs =>
    have hblocked : s.tbl.held = true ∨ s.tbl.rehash.isSome = true := h.resolve_left (by rw [hwait]; exact Option.some_ne_none _)
    exact if_pos (hblocked.imp id .inl)

end
end Sys2Proof.Machine
end

section
/-! PROOF. The tables, links, ring, lock and DMA of the backbone switch (O55). -/

namespace Sys2Proof.Machine

section
set_option Elab.async false

/-- A forced or a negotiated mode that comes up on a port whose ring tells no one, or a client's. -/
theorem linkUp_follows (port : Fin 4) {speed : BitVec 2} {full mdix : Bool} {s : State} (hpd : s.power.pdOn.getLsbD 6 = true)
    (hup : (nth {} s.sw.ports port).up = false) (hen : s.sw.cfg.portEn.getLsbD port = true)
    (hmode : (linkMode (nth 0 s.sw.cfg.speed port) speed full).1 ≠ 0) :
    ∃ t, exec (.linkUp port speed full mdix) s = .next t ∧
      (¬ (s.sw.cfg.mrpRole = 1 ∧ port.val < 2) → Safety.Booked [2, 3] (modPort port (portUp (linkMode (nth 0 s.sw.cfg.speed port) speed full).1
        (linkMode (nth 0 s.sw.cfg.speed port) speed full).2 mdix) s) t) ∧
      (s.sw.cfg.mrpRole = 1 ∧ port.val < 2 →
        Safety.Booked [2, 3] { s with sw := { s.sw with ports := t.sw.ports, lnk := linkChangeOf port true s } } t ∧
        MrpShown (fun k => decide (k = port.val) && linked s (1 - port.val))
          (modPort port (portUp (linkMode (nth 0 s.sw.cfg.speed port) speed full).1
            (linkMode (nth 0 s.sw.cfg.speed port) speed full).2 mdix) s).sw.ports t) := by
  refine ⟨_, congrArg Host.Outcome.next (linkUp_eq hpd hup hen hmode), fun hother => ?_, fun hclient => ?_⟩
  · rw [mrpLinkChanged_other (by rw [linkFound_sw]; exact hother)]
    exact linkFound_booked ..
  · generalize (linkMode (nth 0 s.sw.cfg.speed port) speed full).1 = rate
    generalize (linkMode (nth 0 s.sw.cfg.speed port) speed full).2 = duplex
    have hsw := linkFound_sw port rate duplex mdix s
    obtain ⟨hlinked, hchange⟩ := linkChangeOf_congr (up := true) hclient.2 hsw (linkFound_opUs port rate duplex mdix s)
    have hbooked := linkFound_booked port rate duplex mdix s
    generalize linkFound port rate duplex mdix s = u at hsw hlinked hchange hbooked ⊢
    obtain ⟨heq, hshown⟩ := mrpLinkChanged_shown (up := true) (s := u) (p := port) (by rw [hsw]; exact hclient)
    rw [hlinked, hsw] at hshown
    rw [hchange, hsw] at heq
    refine ⟨?_, hshown⟩
    have hmoved := Booked_sw { s.sw with ports := (mrpLinkChanged port true u).sw.ports, lnk := linkChangeOf port true s } hbooked
    rw [← heq] at hmoved
    exact hmoved

theorem linkDown_follows (port : Fin 4) {s : State} (hpd : s.power.pdOn.getLsbD 6 = true) (hup : (nth {} s.sw.ports port).up = true) :
    ∃ t, exec (.linkDown port) s = .next t ∧
      (¬ (s.sw.cfg.mrpRole = 1 ∧ port.val < 2) → t.sw = { s.sw with ports := s.sw.ports.modify port portDown }) ∧
      (s.sw.cfg.mrpRole = 1 ∧ port.val < 2 → t.sw = { s.sw with ports := t.sw.ports, lnk := linkChangeOf port false s } ∧
        MrpShown (fun _ => false) (s.sw.ports.modify port portDown) t) ∧
      ∀ w, pipeOf w t = pipeOf w (linkLost port s) := by
  refine ⟨_, congrArg Host.Outcome.next (linkDown_eq hpd hup), fun hother => ?_, fun hclient => ?_, pipeOf_congr (mrpLinkChanged_tbl ..)⟩
  · rw [mrpLinkChanged_other (by rw [linkLost_sw]; exact hother), linkLost_sw]
  · have hsw := linkLost_sw port s
    obtain ⟨_, hchange⟩ := linkChangeOf_congr (up := false) hclient.2 hsw (linkLost_opUs port s)
    generalize linkLost port s = u at hsw hchange ⊢
    obtain ⟨heq, hshown⟩ := mrpLinkChanged_shown (up := false) (s := u) (p := port) (by rw [hsw]; exact hclient)
    rw [hsw] at hshown
    rw [hchange, hsw] at heq
    exact ⟨congrArg State.sw heq, hshown⟩

theorem topologyChange_follows {s : State} (hpd : s.power.pdOn.getLsbD 6 = true) (hrole : s.sw.cfg.mrpRole ≠ 0) :
    ∃ t, exec .topologyChange s = .next t ∧
      t.sw = { s.sw with topo := satInc s.sw.topo, ports := t.sw.ports, mrpSeq := t.sw.mrpSeq
                         lnk := if s.sw.cfg.mrpRole = 2 then s.sw.lnk else none
                         topoLeft := if s.sw.cfg.mrpRole = 2 then 2 else s.sw.topoLeft
                         topoUs := if s.sw.cfg.mrpRole = 2 then s.clk.opUs + (if s.sw.cfg.mrpProfile = 0 then 20000 else 10000)
                           else s.sw.topoUs } ∧
      (s.sw.cfg.mrpRole ≠ 2 → MrpShown (fun _ => false) s.sw.ports t ∧ t.sw.mrpSeq = s.sw.mrpSeq) ∧
      (s.sw.cfg.mrpRole = 2 → ∀ p < 2, linked s p = true → p < s.sw.ports.length → 7 < (nth {} s.sw.ports p).queues.length →
        (classQueue s p).length < 64 → MrpQueued p 2 s t) ∧
      ∀ w, pipeOf w t = flushPipe onRing (pipeOf w s) := by
  refine ⟨_, rfl, ?_⟩
  obtain ⟨hsw, hpipes⟩ := topologyChange_sw hpd hrole
  generalize topologyChange s = t at hsw hpipes ⊢
  have hflushed : (ringFlushed s).sw = s.sw ∧ (ringFlushed s).clk = s.clk := ⟨rfl, rfl⟩
  have hqueued (p : Nat) (hp : p < 2) (hl : linked s p = true) := mrpTopology_queued 3 hp (s := ringFlushed s) hl
  obtain ⟨hsame, hclk⟩ := hflushed
  generalize ringFlushed s = u at hsw hqueued hsame hclk
  by_cases hmanager : s.sw.cfg.mrpRole = 2
  · rw [ringTold_manager (by rw [hsame]; exact hmanager)] at hsw
    have hports : t.sw.ports = (mrpTopology 3 u).sw.ports := by
      rw [hsw]
      rfl
    obtain ⟨ps, n, htopology⟩ := mrpTopology_sw u
    refine ⟨?_, fun h => absurd hmanager h, fun _ p hp hl hlen hcls hroom => ?_, hpipes⟩
    · have htimes : 1000 * mrpTopo u = if s.sw.cfg.mrpProfile = 0 then 20000 else 10000 := by
        unfold mrpTopo
        rw [hsame]
        split <;> rfl
      rw [htopology, htimes, hclk] at hsw
      rw [if_pos hmanager, if_pos hmanager, if_pos hmanager, hsw, ← hsame]
      rfl
    · exact (hqueued p hp hl (by rw [hsame]; exact hlen) (by rw [hsame]; exact hcls) (by unfold classQueue; rw [hsame]; exact hroom)).congr
        (by rw [hsame]) (by rw [hsame]) (by rw [hports])
  · obtain ⟨htold, hshown⟩ := ringTold_client (s := u) (by rw [hsame]; exact hmanager) (by rw [hsame]; exact hrole)
    generalize ringTold u = v at hsw htold hshown
    have hv : v.sw = { s.sw with lnk := none, ports := v.sw.ports } := (congrArg State.sw htold).trans (by rw [hsame])
    have hports : t.sw.ports = v.sw.ports := by
      rw [hsw]
      rfl
    refine ⟨?_, fun _ => ⟨?_, ?_⟩, fun h => absurd h hmanager, hpipes⟩
    · rw [if_neg hmanager, if_neg hmanager, if_neg hmanager]
      have ht : t.sw = { v.sw with topo := satInc v.sw.topo } := hsw
      rw [ht, hv]
    · unfold MrpShown at hshown ⊢
      rw [hports, ← hsame]
      exact hshown
    · have hseq : t.sw.mrpSeq = v.sw.mrpSeq := by
        rw [hsw]
        rfl
      rw [hseq, hv]

/-- A record of what has changed in the switch alone. -/
theorem journals_of_shown (code sev : Nat) (items : Bytes) {s u : State} (hlog : u.log = s.log) (hclk : u.clk = s.clk) (hpower : u.power = s.power) :
    Safety.journals code sev items s (sj code sev items u) :=
  Safety.journals_of_sj (u := u) (by rw [hlog]) List.prefix_rfl (by unfold opMs; rw [hclk]) (by rw [hpower])

theorem ringOpen_follows (p : Fin 2) {s : State} (hpd : s.power.pdOn.getLsbD 6 = true) (hrole : s.sw.cfg.mrpRole = 2) (hring : s.sw.ring = 2) :
    ∃ t, exec (.ringOpen p) s = .next t ∧ t.sw.ring = 1 ∧ t.sw.opens = satInc s.sw.opens ∧ t.sw.ringOpenUs = s.clk.opUs ∧
      t.sw.mrpTrans = s.sw.mrpTrans + 1 ∧ t.tbl = s.tbl ∧ Safety.journals 0x803 2 (item p) s t := by
  refine ⟨_, congrArg Host.Outcome.next (ringOpen_eq hpd hrole hring), ?_⟩
  have hrecord := sj_changes 0x803 2 (item p) (ringOpened s)
  have hsw : (sj 0x803 2 (item p) (ringOpened s)).sw = (ringOpened s).sw := hrecord.get .sw
  have htbl : (sj 0x803 2 (item p) (ringOpened s)).tbl = s.tbl := hrecord.get .tbl
  have hjournal := journals_of_shown 0x803 2 (item p) (u := ringOpened s) rfl rfl rfl
  generalize sj 0x803 2 (item p) (ringOpened s) = t at hsw htbl hjournal ⊢
  rw [hsw]
  exact ⟨rfl, rfl, rfl, rfl, htbl, hjournal⟩

theorem ringClosed_follows {s : State} (hpd : s.power.pdOn.getLsbD 6 = true) (hrole : s.sw.cfg.mrpRole = 2) (hring : s.sw.ring = 1) :
    ∃ t, exec .ringClosed s = .next t ∧ t.sw.ring = 2 ∧ t.sw.opens = s.sw.opens ∧
      t.tbl = s.tbl ∧ Safety.journals 0x804 0 (item ((s.clk.opUs - s.sw.ringOpenUs) / 1000)) s t := by
  refine ⟨_, congrArg Host.Outcome.next (ringClosed_eq hpd hrole hring), ?_⟩
  generalize hitems : item ((s.clk.opUs - s.sw.ringOpenUs) / 1000) = items
  have hrecord := sj_changes 0x804 0 items (ringShut s)
  have hsw : (sj 0x804 0 items (ringShut s)).sw = (ringShut s).sw := hrecord.get .sw
  have htbl : (sj 0x804 0 items (ringShut s)).tbl = s.tbl := hrecord.get .tbl
  have hjournal := journals_of_shown 0x804 0 items (u := ringShut s) rfl rfl rfl
  generalize sj 0x804 0 items (ringShut s) = t at hsw htbl hjournal ⊢
  rw [hsw]
  exact ⟨rfl, rfl, htbl, hjournal⟩

/-- A write of TBL.DMA_CTRL by the agent that holds the lock sets its fields, and starts a job where none runs. -/
theorem dmaStart_eq {s : State} (hpd : s.power.pdOn.getLsbD 6 = true) (v : Word) :
    let n := s.tbl.dmaCount.toNat
    let err : BitVec 2 := if s.tbl.held = false then 1
      else if n = 0 ∨ (if v.getLsbD 1 then 512 else 8192) < s.tbl.dmaFirst.toNat + n then 2
      else if 16777216 < s.tbl.dmaAddr.toNat + 16 * n then 3 else 0
    let regs := { s.tbl with dmaTable := v.getLsbD 1, dmaPipe := v.getLsbD 2, dmaDir := v.getLsbD 3 }
    let job : DmaJob := { table := v.getLsbD 1, pipe := v.getLsbD 2, dir := v.getLsbD 3, addr := s.tbl.dmaAddr.toNat
                          first := s.tbl.dmaFirst.toNat, count := n, atUs := s.clk.wallUs }
    dmaStart (dmaAgent s) v s = { s with tbl := if v.getLsbD 0 = true ∧ s.tbl.dmaJob = none then
      { regs with dmaErr := err, dmaJob := if err = 0 then some job else none } else regs } := by
  intro n err regs job
  have herr : dmaError (dmaAgent s) (v.getLsbD 1) { s with tbl := regs } = err := dmaError_holder _ s _ ⟨rfl, rfl, rfl, rfl, rfl⟩
  have hoff : ¬ (!pdIs s 6) = true := by rw [show pdIs s 6 = true from hpd]; decide
  clear_value err
  by_cases hstart : v.getLsbD 0 = true ∧ s.tbl.dmaJob = none
  · have hgo : v.getLsbD 0 = true ∧ s.tbl.dmaJob.isNone = true := ⟨hstart.1, by rw [hstart.2]; rfl⟩
    rw [if_pos hstart, ← herr]
    exact (if_neg hoff).trans (if_pos hgo)
  · rw [if_neg hstart]
    exact (if_neg hoff).trans (if_neg fun h => hstart ⟨h.1, Option.isNone_iff_eq_none.1 h.2⟩)

/-- The end of a job that reads entries: they stand in memory. -/
theorem dmaDone_read {s : State} {j : DmaJob} (hjob : s.tbl.dmaJob = some j) (hdir : j.dir = false) :
    (dmaDone s).tbl = { s.tbl with dmaJob := none } ∧ (j.count = 1 → j.done = 0 → j.table = false → Safety.storesWf s →
      j.addr + 16 ≤ 0x800000 ∨ (0x820100 ≤ j.addr ∧ j.addr + 16 ≤ 16777216) →
      dataRead j.addr 16 (dmaDone s) = macImage (macAt (pipeOf j.pipe s) j.first)) := by
  rw [dmaDone_eq hjob]
  refine ⟨?_, fun hcount hdone htable hwf haddr => ?_⟩
  · show { (dmaEntries j j.count s).tbl with dmaJob := none } = _
    rw [dmaEntries_read hdir]
  · rw [hcount, dmaEntries_first hdone]
    exact dmaEntry_read hdir htable hwf haddr

/-- The end of a job that writes an entry, or a slot. -/
theorem dmaDone_writeMac {s : State} {j : DmaJob} (hjob : s.tbl.dmaJob = some j) (hdir : j.dir = true) (hcount : j.count = 1)
    (hdone : j.done = 0) (htable : j.table = false) (hsorted : SortedKeys (pipeOf j.pipe s).macs) :
    macAt (pipeOf j.pipe (dmaDone s)) j.first = macParse (unitRead j.addr 16 s) ∧ (macAt (pipeOf j.pipe (dmaDone s)) j.first).perr = false ∧
      ∀ i, i ≠ j.first → macAt (pipeOf j.pipe (dmaDone s)) i = macAt (pipeOf j.pipe s) i := by
  rw [dmaDone_eq hjob, hcount, dmaEntries_first hdone, pipeOf_dmaEnded, dmaEntry_mac hdir htable, pipeOf_modPipe_self,
    macAt_putMac_self _ _ _ (.inr hsorted)]
  exact ⟨rfl, rfl, fun i hi => macAt_putMac_ne _ _ hi⟩

theorem dmaDone_writePfx {s : State} {j : DmaJob} (hjob : s.tbl.dmaJob = some j) (hdir : j.dir = true) (hcount : j.count = 1)
    (hdone : j.done = 0) (htable : j.table = true) (hsorted : SortedKeys (pipeOf j.pipe s).pfx) :
    pfxAt (pipeOf j.pipe (dmaDone s)) j.first = pfxParse (unitRead j.addr 16 s) ∧ (pfxAt (pipeOf j.pipe (dmaDone s)) j.first).perr = false ∧
      ∀ i, i ≠ j.first → pfxAt (pipeOf j.pipe (dmaDone s)) i = pfxAt (pipeOf j.pipe s) i := by
  rw [dmaDone_eq hjob, hcount, dmaEntries_first hdone, pipeOf_dmaEnded, dmaEntry_pfx hdir htable, pipeOf_modPipe_self,
    pfxAt_putPfx_self _ _ _ hsorted]
  exact ⟨rfl, rfl, fun i hi => pfxAt_putPfx_ne _ _ hi⟩

theorem tblCmd_busy {s : State} (hawake : awake s = true) (hpd : s.power.pdOn.getLsbD 6 = true) (w : Word) (hrehash : s.tbl.rehash.isSome = true)
    (hgood : tblBad (tblWritten w s) = false) :
    exec (.registerWrite 0x40410000 4 w) s = .next { s with tbl := { s.tbl with status := 0x20 } } := by
  have hblocked : tblBlocked (tblWritten w s) s = some 0x20 := if_pos hrehash
  rw [exec_registerWrite, writeAccess_of_at w (accessOf_at (addr := 0x40410000) hawake rfl rfl hpd)]
  have hwrite : wrTblCmd w s = tblStatus 0x20 s := by
    unfold wrTblCmd
    dsimp only
    rw [if_neg (by rw [hgood]; decide), hblocked]
    rfl
  exact congrArg Host.Outcome.next hwrite

/-- Settles O55: tables, links, ring, lock, DMA jobs and the load of prefixes, each by the rule of its command. -/
theorem backboneTablesLinksAndRing : Obligations.BackboneTablesLinksAndRing := by
  intro port speed full mdix v s
  refine ⟨fun hoff hawake agent => ?missed, fun hpd => ?_⟩
  case missed =>
    simp only [List.forall_mem_cons]
    exact ⟨congrArg Host.Outcome.next (lockAccess_missed hawake hoff agent 1 _),
      congrArg Host.Outcome.next (lockAccess_missed hawake hoff agent 0 _), fun _ h => absurd h List.not_mem_nil⟩
  intro keys flushed
  refine ⟨fun hheld => ?_, fun hheld hrehash => ?_, ?_⟩
  · rw [exec_macAging hpd, macAging_idle hheld]
  · refine ⟨_, (exec_macAging hpd).trans (congrArg _ (macAging_eq hheld hrehash)), rfl, fun w hw i => ?_⟩
    rw [pipeOf_both]
    exact macAt_agePipe hw _ i
  intro client change shows
  refine ⟨fun hup => ?_, fun hup => ?_, ?linkUp, exec_scrub_idle hpd, fun hheld hrehash => ?_, ?_⟩
  case linkUp =>
    intro forced rate
    have hmode : rate = (linkMode forced speed full).1 := (linkMode_fst ..).symm
    refine ⟨fun hup hen hrate => ?_, fun hidle => congrArg Host.Outcome.next (linkUp_idle (hmode ▸ hidle))⟩
    obtain ⟨t, hrun, hother, hclient⟩ := linkUp_follows port (full := full) (mdix := mdix) hpd hup hen (hmode ▸ hrate)
    rw [← hmode, linkMode_snd] at hother hclient
    exact ⟨t, hrun, hother, hclient⟩
  · obtain ⟨t, hrun, hother, hclient, hpipes⟩ := linkDown_follows port hpd hup
    exact ⟨t, hrun, ⟨hother, hclient⟩, fun w hw i => by rw [hpipes]; exact linkLost_macAt port hw i⟩
  · exact congrArg Host.Outcome.next (if_neg fun h => absurd (h.2.symm.trans hup) (by decide))
  · refine ⟨_, exec_scrub hpd hheld hrehash, ?_, fun w i => fun hperr hclear => scrubBoth_macAt hperr (clearable_of hclear)⟩
    exact ((scrubPipe_only false s).trans (scrubPipe_only true _)).changes.get .sw
  refine ⟨fun hrole => ?_, fun hrole => ?_, fun p hrole => ⟨fun hring => ⟨?_, ringOpen_follows p hpd hrole hring⟩,
    fun hring => ⟨?_, ringClosed_follows hpd hrole hring⟩⟩, ?_⟩
  · obtain ⟨t, hrun, hsw, hclient, hmanager, hpipes⟩ := topologyChange_follows hpd hrole
    refine ⟨t, hrun, hsw, hclient, hmanager, fun w hw i => ?_⟩
    rw [hpipes, macAt_flushPipe hw (fun _ h => onRing_ports h), onRing, ← Bool.and_assoc]
    rfl
  · refine congrArg Host.Outcome.next (if_neg fun h => ?_)
    unfold ringMember at h
    rw [hrole, Bool.and_eq_true] at h
    exact absurd h.2 (by decide)
  · exact congrArg Host.Outcome.next (ringClosed_idle (by rw [hring]; decide))
  · exact congrArg Host.Outcome.next (ringOpen_idle _ (by rw [hring]; decide))
  refine ⟨fun hawake agent => ⟨fun hheld hrehash _ => ?_, fun hheld _ => ?_, fun hheld hrehash => ?_, fun hheld howner he hw => ?_,
    fun _ howner _ => ?_⟩, fun hheld hdue hjob => ⟨_, congrArg Host.Outcome.next (if_pos hpd), lockTimeout_free hheld hdue hjob⟩,
    fun hidle => congrArg Host.Outcome.next ((if_pos hpd).trans (lockTimeout_idle hidle)), fun hawake => ?_, fun hjob => ?_, ?_⟩
  · rw [exec_tblLockTake hawake hpd, lockTake_free hpd agent hheld hrehash]
    rfl
  · rw [exec_tblLockTake hawake hpd, lockTake_held agent hheld]
  · exact ⟨_, (exec_tblLockTake hawake hpd 1).trans (congrArg _ (lockTake_free hpd 1 hheld hrehash)), rfl, rfl, rfl, rfl, rfl⟩
  · exact ⟨_, (exec_tblLockRelease hawake hpd agent).trans (congrArg _ ((lockRelease_owner hpd hheld howner).trans (lockFree_none he hw))),
      rfl, rfl, rfl, rfl⟩
  · rw [exec_tblLockRelease hawake hpd, lockRelease_other howner]
  · exact (exec_dmaStart hawake hpd v).trans (congrArg _ (dmaStart_eq hpd v))
  · rw [exec_dmaDone hpd, dmaDone_idle hjob]
  refine ⟨fun j hjob => ⟨_, exec_dmaDone hpd, by rw [dmaDone_eq hjob]; rfl, dmaDone_read hjob, fun hdir => ⟨?_, fun hcount => ⟨?_, ?_, ?_⟩⟩⟩,
    fun j hjob hall => ?_, fun w hrehash hawake hgood => tblCmd_busy hawake hpd w hrehash hgood,
    fun bs hwait hheld hrehash => ⟨_, rfl, pfxApply_eq hpd hwait hheld hrehash⟩, fun hidle => congrArg Host.Outcome.next (pfxApply_idle hidle)⟩
  · rw [dmaDone_eq hjob]
    exact dmaEntries_write hdir j.count s
  · exact fun hdone htable => dmaDone_writeMac hjob hdir hcount hdone htable
  · exact fun hdone htable => dmaDone_writePfx hjob hdir hcount hdone htable
  · rw [dmaDone_eq hjob, pipeOf_dmaEnded]
    exact dmaEntries_other hdir hcount s
  · rw [exec_dmaDone hpd, dmaDone_eq hjob, dmaEntries_all hall]
    rfl

end
end Sys2Proof.Machine
end

section
/-! SUPPORT. Updates: what a start leaves of the update's state, the entry to DEAD with the outputs off, requests that their own rule
turns away, and the restore's requests in DEAD. -/

namespace Sys2Proof.Machine

section
set_option Elab.async false

/-! ### What a start leaves of the update's state (R437, R443) -/

/-- The update's state as a start begins. -/
def updStarted (u : Upd) : Upd :=
  { u with
    running := if u.journal = .patching then 0x0A else 0
    accepting := decide (u.journal = .committed)
    attempts := if u.pending then min 3 (u.attempts + 1) else u.attempts
    inUse := u.pending && decide (u.attempts < 2) }

theorem blocksKept_upd (keep : Bool) (s : State) : (blocksKept keep s).upd = s.upd := (blocksKept_changes keep s).upd

theorem bringUpBegun_upd (kind : StartKind) (src : BitVec 4) (s : State) : (bringUpBegun kind src s).upd = updStarted s.upd := by
  unfold bringUpBegun
  rw [freshBlocks_eq]
  have hkept := blocksKept_upd (decide (kind = .restart)) s
  generalize blocksKept (decide (kind = .restart)) s = v at hkept ⊢
  show updStarted v.upd = _
  rw [hkept]

theorem discardAtRestart_upd (s : State) : (discardAtRestart s).upd = s.upd := (discardAtRestart_changes s).upd

theorem startClosed_upd (s : State) : ∃ A B, (startClosed s).upd = { s.upd with bankA := A, bankB := B } := by
  have hnotes : (notesAtStart s).upd = s.upd := (notesAtStart_changes s).upd
  unfold startClosed
  dsimp only
  generalize notesAtStart s = v at hnotes ⊢
  rw [(lockPanel_changes ..).upd, ← hnotes]
  have hdiscard := discardAtRestart_upd v
  split
  · generalize discardAtRestart v = w at hdiscard ⊢
    rw [← hdiscard]
    unfold emptyInactive
    dsimp only
    split
    · exact ⟨{}, w.upd.bankB, rfl⟩
    · exact ⟨w.upd.bankA, {}, rfl⟩
  · exact ⟨v.upd.bankA, v.upd.bankB, hdiscard⟩

/-- A start that resumes no update leaves the update's state but for the banks that an edit held. -/
theorem beginBringUp_upd (kind : StartKind) (src : BitVec 4) {s : State} (h : resumes s = false) :
    ∃ A B, (beginBringUp kind src s).upd = { updStarted s.upd with bankA := A, bankB := B } := by
  rw [beginBringUp_eq, h, if_neg Bool.false_ne_true]
  unfold started
  have hbegun := bringUpBegun_upd kind src s
  have hrecorded := (startRecorded_changes kind src s.power.state (bringUpBegun kind src s)).upd
  generalize startRecorded kind src s.power.state (bringUpBegun kind src s) = v at hrecorded ⊢
  obtain ⟨A, B, hclosed⟩ := startClosed_upd v
  exact ⟨A, B, by rw [hclosed, hrecorded, hbegun]⟩

theorem beginBringUp_opState (kind : StartKind) (src : BitVec 4) {s : State} (h : resumes s = false) :
    (beginBringUp kind src s).power.state = .bringUp ∧ (beginBringUp kind src s).power.startKind = kind := by
  rw [beginBringUp_eq, h, if_neg Bool.false_ne_true]
  exact ⟨((started_tail kind src s).get .opState).trans (bringUpBegun_shows kind src s).1, (started_started kind src s).startKind⟩

/-! ### DEAD with the outputs off -/

theorem deadStopped_off (s : State) : (deadStopped s).dio.on = 0 := by
  unfold deadStopped
  dsimp only
  generalize hv : stopLap (freezeMeter 1 _) = v
  have hdrivers : v.power.driversOn = false := by
    rw [← hv]
    exact ((stopLap_changes _).get .drivers).trans ((freezeMeter_changes ..).get .drivers)
  clear hv
  have hlast (u : State) (h : u.power.driversOn = false) : (domainOff 5 u).dio.on = 0 := by
    unfold domainOff domainStops
    rw [if_pos rfl]
    exact refreshOutputs_off h
  have hsplit : domainsOff [8, 7, 3, 2, 4, 6, 5] v = domainOff 5 (domainsOff [8, 7, 3, 2, 4, 6] v) := rfl
  rw [hsplit]
  exact hlast _ (((domainsOff_changes _ v).get .drivers).trans hdrivers)

theorem enterDead_off (s : State) : (enterDead s).dio.on = 0 := by
  rw [(enterDead_tail s).dio, (deadState_changes _).dio]
  exact deadStopped_off s

theorem goDead_off (cause : Nat) (part : Option Nat) (s : State) : (goDead cause part s).dio.on = 0 := by
  rw [(goDead_tail cause part s).dio]
  exact enterDead_off _

theorem goDead_records (cause part : Nat) (s : State) : Safety.journals 0xA07 2 (item cause ++ item part) s (goDead cause (some part) s) := by
  let u := journalWrite { s with upd := { s.upd with journal := .dead, deadCause := BitVec.ofNat 8 cause, accepting := false } }
  have hu : Changes [.journal, .updRest, .updHead, .mram] s u := ((Changes.refl _ s).also [.journal, .updRest]).trans (journalWrite_changes _)
  have hdead := enterDead_changes u
  have hgo : goDead cause (some part) s = sj 0xA07 2 (item cause ++ item part) (enterDead u) := rfl
  rw [hgo]
  have hop : (enterDead u).clk.opUs = s.clk.opUs := (hdead.get .opUs).trans (hu.get .opUs)
  have hcycles : (enterDead u).power.pwrCycles = s.power.pwrCycles := (hdead.get .pwrCycles).trans (hu.get .pwrCycles)
  have hgrows : s.log.sjQueue <+: (enterDead u).log.sjQueue := hu.log ▸ hdead.get .sjGrows
  exact Safety.journals_of_sj (u := enterDead u) hgrows List.prefix_rfl (by unfold opMs; rw [hop]) hcycles

/-! ### Requests that their own rule turns away, and the restore's -/

section
variable {via : Via} {code : Nat} {args : Bytes} {a : Asked} {s u : State} {c : Instr} {row : ReqRow} {argsOk : Bytes → Bool}
  {f : Req → State → State} {blockOk : Req → State → Bool}

/-- A request whose rule of its own fails is answered 0x10. -/
theorem exec_of_asks_against (h : Safety.Asks via code args a s u) (hexec : exec c s = .next (request row argsOk f via s blockOk))
    (hcode : row.code = code) (hlen : argLenOk code (leAt args 0 1) args.length = some true)
    (hrules : blockOk { asked := a, body := askBody a args } u = false) (hbyte : code < 256)
    (hop : row.op = none ∨ row.op = some (leAt args 0 1)) (hsmall : args.length < 65536) :
    exec c s = .next (respond a 0x10 [] u) := by
  obtain ⟨hcame, hnamed, hidle⟩ := h
  have hpower := (arrives_changes hcame).power
  have hbody : leAt (askBody a args) 0 1 = row.code := by
    rw [askBody_code, hnamed, hcode]
    simpa using hbyte
  have hbodyLen : bodyLenOk (askBody a args) = true := by
    rw [bodyLenOk, askBody_len a args hsmall, askBody_length, hbody, askBody_op, hcode, hlen]
    simp
  have hopRow : row.op = none ∨ row.op = some (leAt (askBody a args) 8 1) := by rwa [askBody_op]
  rw [hexec, request_of_arrives hcame (rowTakes_of_code hbody (.inr hopRow))]
  exact congrArg Host.Outcome.next (serve_badArgs hbodyLen (.inl (by rw [hpower, hidle])) (.inr (.inr hrules)))

end

/-- A RESTORE with a right operation reaches its function in DEAD (R441). -/
theorem exec_of_restore {via : Via} {a : Asked} {s u : State} {op : Nat} {args : Bytes} (hop : op ≤ 2) (hfirst : leAt args 0 1 = op)
    (hres : leAt args 1 3 = 0) (hlen : 12 ≤ args.length ∧ args.length ≤ 1036) (h : Safety.Asks via 0x20 args a s u) (hdead : s.power.state = .dead)
    {c : Instr} {f : Req → State → State} (hexec : exec c s = .next (request (rowRestore op) restoreArgs f via s)) :
    exec c s = .next (f { asked := a, body := askBody a args } u) := by
  obtain ⟨hcame, hnamed, hidle⟩ := h
  have hpower := (arrives_changes hcame).power
  have hbody : leAt (askBody a args) 0 1 = 0x20 := by rw [askBody_code, hnamed]; rfl
  have hbodyOp : leAt (askBody a args) 8 1 = op := by rw [askBody_op, hfirst]
  have hbodyLen : bodyLenOk (askBody a args) = true := by
    have hok : argLenOk 0x20 op args.length = some true := by
      show some (decide (12 ≤ args.length) && decide (args.length ≤ 1036)) = some true
      rw [decide_eq_true hlen.1, decide_eq_true hlen.2]
      rfl
    rw [bodyLenOk, askBody_len a args (by omega), askBody_length, hbody, hbodyOp, hok]
    simp
  have hknown : codeKnown (leAt (askBody a args) 0 1) u = true := by
    rw [hbody]
    unfold codeKnown
    rw [hpower, hdead]
    rfl
  have hopKnown : opKnown (leAt (askBody a args) 0 1) (leAt (askBody a args) 8 1) = true := by
    rw [hbody, hbodyOp]
    exact (show ∀ op < 3, opKnown 0x20 op = true by decide) op (by omega)
  have hargs : restoreArgs ((askBody a args).drop 8) = true := by
    rw [askBody_drop]
    exact decide_eq_true hres
  have hrowOp : (rowRestore op).op = some (leAt (askBody a args) 8 1) := by rw [hbodyOp]; rfl
  have htakes : rowTakes (rowRestore op) { asked := a, body := askBody a args } s = true :=
    rowTakes_of_code (row := rowRestore op) hbody (.inr (.inr hrowOp))
  rw [hexec, request_of_arrives hcame htakes]
  refine congrArg Host.Outcome.next ?_
  change serve (rowRestore op) restoreArgs _ f { asked := a, body := askBody a args } u = _
  rw [serve_of_free hbodyLen (.inl (by rw [hpower, hidle])), if_neg, legalColumn_dead (by rw [hpower, hdead])]
  · rfl
  · rw [hknown, hopKnown, hargs, askBody_flags]
    simp

end
end Sys2Proof.Machine
end

section
/-! SUPPORT. UPD_STAGE (R427, R428): its arguments, its rules, and what a call leaves in the staging. -/

namespace Sys2Proof.Machine

section
set_option Elab.async false

/-! ### The arguments of UPD_STAGE -/

/-- UPD_STAGE's arguments as the manual lays them out. -/
def stageCall (pkg kind off total : Nat) (data : Bytes) : Bytes :=
  leBytes 4 pkg ++ [BitVec.ofNat 8 kind, 0, 0, 0] ++ leBytes 4 off ++ leBytes 4 total ++ data

theorem leAt_cons_zero (b : Byte) (xs : Bytes) : leAt (b :: xs) 0 1 = b.toNat := by
  rw [leAt_one]
  rfl

/-- What the Marshal reads in a call. -/
structure StageFields (pkg kind off total : Nat) (data args : Bytes) : Prop where
  pkg : leAt args 0 4 = pkg
  kind : leAt args 4 1 = kind
  reserved : leAt args 5 3 = 0
  off : leAt args 8 4 = off
  total : leAt args 12 4 = total
  rest : args.drop 16 = data
  length : args.length = 16 + data.length

theorem stageCall_fields {pkg kind off total : Nat} (data : Bytes) (hpkg : pkg < 2 ^ 32) (hkind : kind < 3) (hoff : off < 2 ^ 32)
    (htotal : total < 2 ^ 32) : StageFields pkg kind off total data (stageCall pkg kind off total data) := by
  have h4 (v : Nat) (hv : v < 2 ^ 32) : v % 256 ^ 4 = v := Nat.mod_eq_of_lt (by omega)
  have hkind' : (BitVec.ofNat 8 kind).toNat = kind := by
    rw [BitVec.toNat_ofNat]
    exact Nat.mod_eq_of_lt (by omega)
  unfold stageCall
  constructor
  case pkg =>
    simp only [List.append_assoc]
    rw [leAt_leBytes_append, h4 pkg hpkg]
  case kind =>
    simp only [List.append_assoc]
    rw [leAt_skip_leBytes (by omega)]
    show leAt (_ :: _) 0 1 = kind
    rw [leAt_cons_zero, hkind']
  case reserved =>
    simp only [List.append_assoc]
    rw [leAt_skip_leBytes (by omega)]
    rfl
  case off =>
    simp only [List.append_assoc]
    rw [leAt_skip_leBytes (by omega), leAt_skip (by simp)]
    exact (leAt_leBytes_append ..).trans (h4 off hoff)
  case total =>
    simp only [List.append_assoc]
    rw [leAt_skip_leBytes (by omega), leAt_skip (by simp), leAt_skip_leBytes (by simp)]
    exact (leAt_leBytes_append ..).trans (h4 total htotal)
  case rest => exact List.drop_left' (by simp)
  case length => simp; omega

/-! ### What a call leaves -/

/-- A package with more of its data. -/
def stagedMore (st : Staged) (data : Bytes) : Staged := { st with received := st.received + data.length, data := st.data ++ data }

theorem stagedOf_setStaged {kind k : Nat} (hkind : kind < 3) (hk : k < 3) (x : Staged) (s : State) :
    stagedOf k (setStaged kind x s) = if k = kind then some x else stagedOf k s := by
  rcases (show kind = 0 ∨ kind = 1 ∨ kind = 2 by omega) with h | h | h <;>
    rcases (show k = 0 ∨ k = 1 ∨ k = 2 by omega) with h' | h' | h' <;> subst h h' <;> rfl

theorem setStaged_nextPkg (kind : Nat) (x : Staged) (s : State) : (setStaged kind x s).upd.nextPkg = s.upd.nextPkg := by
  unfold setStaged
  dsimp only
  split_ifs <;> rfl

theorem stagedOf_congr {s t : State} {n : Word} (h : t.upd = { s.upd with headSeq := n }) (k : Nat) : stagedOf k t = stagedOf k s := by
  unfold stagedOf
  rw [h]

/-- A call's bytes taken into a package, recorded where it is whole, and answered. -/
theorem stageData_eq (r : Req) (kind : Nat) (st : Staged) (data : Bytes) (s : State) : ∃ items results, stageData r kind st data s =
    answerOk r results (if (stagedMore st data).received = (stagedMore st data).total then
      sj 0xA01 0 items (stagingWrite (setStaged kind (stagedMore st data) s)) else stagingWrite (setStaged kind (stagedMore st data) s)) :=
  ⟨_, _, rfl⟩

/-- The bytes of a call stand in the package, and the package in delta staging. -/
theorem stageData_shows (r : Req) (kind : Nat) (st : Staged) (data : Bytes) (s : State) :
    let t := stageData r kind st data s
    t.upd = { (setStaged kind (stagedMore st data) s).upd with headSeq := (setStaged kind (stagedMore st data) s).upd.headSeq + 1 } ∧
    t.flash = memWrite 0xFF flashSize (memErase s.flash 0x6000000 0x1000000) 0x6000000 (stagingBytes t.upd) := by
  have hwrite (v : State) : (stagingWrite v).upd = { v.upd with headSeq := v.upd.headSeq + 1 } ∧
      (stagingWrite v).flash = memWrite 0xFF flashSize (memErase v.flash 0x6000000 0x1000000) 0x6000000 (stagingBytes v.upd) := ⟨rfl, rfl⟩
  have hset : (setStaged kind (stagedMore st data) s).flash = s.flash := rfl
  obtain ⟨hupd, hflash⟩ := hwrite (setStaged kind (stagedMore st data) s)
  rw [hset] at hflash
  obtain ⟨items, results, heq⟩ := stageData_eq r kind st data s
  rw [heq]
  have hbytes : stagingBytes (stagingWrite (setStaged kind (stagedMore st data) s)).upd =
    stagingBytes (setStaged kind (stagedMore st data) s).upd := rfl
  rw [← hbytes] at hflash
  generalize stagingWrite (setStaged kind (stagedMore st data) s) = v at hupd hflash ⊢
  have hrecord : Changes respondParts v (if (stagedMore st data).received = (stagedMore st data).total then sj 0xA01 0 items v else v) :=
    .ite (sj_changes ..).mono (.refl _ v)
  intro t
  have ht : Changes respondParts v t := hrecord.trans (respond_changes ..)
  have htupd : t.upd = v.upd := ht.upd
  exact ⟨htupd.trans hupd, by rw [htupd, ← hflash]; exact ht.get .flash⟩

/-! ### The calls -/

section
variable {via : Via} {a : Asked} {s u : State} {pkg kind off total : Nat} {data args : Bytes}

theorem stage_updBusy (hrunning : s.upd.running = 0) (hu : u.upd = s.upd) : updBusy u = false := by
  unfold updBusy
  rw [hu, hrunning]
  rfl

theorem exec_stage (h : Safety.Asks via 9 args a s u) (hf : StageFields pkg kind off total data args) (hkind : kind < 3)
    (hlen : data.length ≤ 1024) (hworks : works s)
    (hrules : stageRules { asked := a, body := askBody a args } u = true) :
    exec (.updStage via) s = .next (updStage { asked := a, body := askBody a args } u) := by
  refine exec_of_asks h (c := .updStage via) rowUpdStage stageArgs updStage rfl ⟨rfl, by decide, fun _ => rfl⟩ rfl (legal_works hworks)
    ?_ ?_ hrules (by decide) (.inl rfl) (by rw [hf.length]; omega)
  · show some (decide (16 ≤ args.length) && decide (args.length ≤ 1040)) = some true
    rw [hf.length, decide_eq_true (by omega), decide_eq_true (by omega)]
    rfl
  · unfold stageArgs resv
    rw [hf.kind, hf.reserved, decide_eq_true (by omega)]
    rfl

theorem stage_args : ({ asked := a, body := askBody a args } : Req).args = args := askBody_drop a args

theorem stageRules_open (hf : StageFields 0 kind 0 total data args) (hpos : 0 < total) (htotal : total ≤ 16777216)
    (hdata : data.length ≤ total) : stageRules { asked := a, body := askBody a args } u = true := by
  unfold stageRules
  rw [stage_args]
  dsimp only
  rw [hf.pkg, hf.off, hf.total, hf.rest, if_pos rfl, decide_eq_true rfl, decide_eq_true (show total ≠ 0 by omega), decide_eq_true htotal,
    decide_eq_true hdata]
  rfl

theorem stageRules_more (hf : StageFields pkg kind off total data args) (hpkg : pkg ≠ 0) {st : Staged} (hst : stagedOf kind u = some st)
    (hsame : st.pkg.toNat = pkg ∧ st.total = total) (hdata : off + data.length ≤ total) :
    stageRules { asked := a, body := askBody a args } u = decide (st.received = off) := by
  unfold stageRules
  rw [stage_args]
  dsimp only
  rw [hf.pkg, hf.off, hf.total, hf.rest, hf.kind, if_neg hpkg, hst]
  dsimp only
  rw [decide_eq_true hsame.1, decide_eq_true hsame.2, decide_eq_true hdata, Bool.and_true]
  rfl

theorem stageRules_gap (hf : StageFields pkg kind off total data args) (hpkg : pkg ≠ 0) {st : Staged} (hst : stagedOf kind u = some st)
    (hgap : st.received ≠ off) : stageRules { asked := a, body := askBody a args } u = false := by
  unfold stageRules
  rw [stage_args]
  dsimp only
  rw [hf.pkg, hf.off, hf.total, hf.rest, hf.kind, if_neg hpkg, hst]
  dsimp only
  rw [decide_eq_false hgap, Bool.and_false, Bool.false_and]

theorem inUse_congr (h : Changes arrivalParts s u) (kind : Nat) : inUse kind u = inUse kind s := by
  have hbank (b : Bool) : bankOf b u = bankOf b s := by unfold bankOf; rw [h.upd]
  unfold inUse
  simp only [hbank]
  rw [h.upd, h.get .mld, h.get .edit]

theorem stagedOf_arrived (h : Changes arrivalParts s u) (kind : Nat) : stagedOf kind u = stagedOf kind s := by
  unfold stagedOf
  rw [h.upd]

theorem otherTotals_congr (h : Changes arrivalParts s u) (kind : Nat) : otherTotals kind u = otherTotals kind s := by
  unfold otherTotals
  simp only [stagedOf_arrived h]

/-- A staging call leaves the other packages. -/
theorem stageData_others {r : Req} {st : Staged} {v : State} (hkind : kind < 3) (hv : ∀ k, stagedOf k v = stagedOf k s) :
    stagedOf kind (stageData r kind st data v) = some (stagedMore st data) ∧
    (∀ k < 3, k ≠ kind → stagedOf k (stageData r kind st data v) = stagedOf k s) ∧
    (stageData r kind st data v).upd.nextPkg = v.upd.nextPkg := by
  obtain ⟨hupd, -⟩ := stageData_shows r kind st data v
  refine ⟨?_, fun k hk hne => ?_, ?_⟩
  · rw [stagedOf_congr hupd, stagedOf_setStaged hkind hkind, if_pos rfl]
  · rw [stagedOf_congr hupd, stagedOf_setStaged hkind hk, if_neg hne, hv]
  · rw [hupd]
    exact setStaged_nextPkg ..

/-- The first call opens a package under the next PKG. -/
theorem updStage_opens (h : Safety.Asks via 9 args a s u) (hf : StageFields 0 kind 0 total data args) (hkind : kind < 3)
    (hlen : data.length ≤ 1024) (hworks : works s) (hrunning : s.upd.running = 0) (hpos : 0 < total) (htotal : total ≤ 16777216)
    (hdata : data.length ≤ total) (hfree : inUse kind s = false) (hfits : otherTotals kind s + total ≤ 16777216) :
    ∃ t, exec (.updStage via) s = .next t ∧ t.upd.nextPkg = pkgAfter s.upd.nextPkg ∧
      stagedOf kind t = some { pkg := s.upd.nextPkg, total := total, received := data.length, data := data } ∧
      (∀ k < 3, k ≠ kind → stagedOf k t = stagedOf k s) ∧
      ∀ x, (x < 0x6000000 ∨ 0x7000000 ≤ x ∧ 0x6000000 + (stagingBytes t.upd).length ≤ x) →
        memGet 0xFF t.flash x = memGet 0xFF s.flash x := by
  have hu := arrives_changes h.came
  have hserved := exec_stage h hf hkind hlen hworks (stageRules_open hf hpos htotal hdata)
  let r : Req := { asked := a, body := askBody a args }
  let v : State := { u with upd := { u.upd with nextPkg := pkgAfter u.upd.nextPkg } }
  have hopens : updStage r u = stageData r kind { pkg := u.upd.nextPkg, total := total } data v := by
    unfold updStage
    rw [show r.args = args from stage_args]
    dsimp only
    rw [hf.kind, hf.pkg, hf.rest, hf.total, stage_updBusy hrunning hu.upd, if_neg Bool.false_ne_true, if_pos rfl]
    unfold stageOpen
    rw [inUse_congr hu, hfree, if_neg Bool.false_ne_true, otherTotals_congr hu, if_neg (by omega)]
  have hv (k : Nat) : stagedOf k v = stagedOf k s := (show stagedOf k v = stagedOf k u from rfl).trans (stagedOf_arrived hu k)
  obtain ⟨hown, hothers, hnext⟩ := stageData_others (r := r) (st := { pkg := u.upd.nextPkg, total := total }) (data := data) hkind hv
  obtain ⟨-, hflash⟩ := stageData_shows r kind { pkg := u.upd.nextPkg, total := total } data v
  refine ⟨_, hserved.trans (congrArg _ hopens), ?_, ?_, hothers, fun x hx => ?_⟩
  · rw [hnext]
    exact congrArg pkgAfter (congrArg Upd.nextPkg hu.upd)
  · rw [hown, hu.upd]
    simp [stagedMore]
  · rw [hflash, Safety.memGet_memWrite_outside _ _ _ _ _ _ (hx.imp_right And.right), memGet_memErase, if_neg (by omega)]
    exact congrArg (memGet 0xFF · x) (hu.get .flash)

/-- A later call appends its bytes. -/
theorem updStage_appends (h : Safety.Asks via 9 args a s u) (hf : StageFields pkg kind off total data args) (hkind : kind < 3)
    (hlen : data.length ≤ 1024) (hworks : works s) (hrunning : s.upd.running = 0) (hdata : off + data.length ≤ total)
    {st : Staged} (hst : stagedOf kind s = some st) (hpkg : pkg ≠ 0) (hsame : st.pkg.toNat = pkg) (htotal : st.total = total)
    (hoff : st.received = off) :
    ∃ t, exec (.updStage via) s = .next t ∧ stagedOf kind t = some { st with received := off + data.length, data := st.data ++ data } ∧
      (∀ k < 3, k ≠ kind → stagedOf k t = stagedOf k s) ∧ t.upd.nextPkg = s.upd.nextPkg := by
  have hu := arrives_changes h.came
  have hstu : stagedOf kind u = some st := (stagedOf_arrived hu kind).trans hst
  have hserved := exec_stage h hf hkind hlen hworks
    ((stageRules_more hf hpkg hstu ⟨hsame, htotal⟩ hdata).trans (decide_eq_true hoff))
  let r : Req := { asked := a, body := askBody a args }
  have hmore : updStage r u = stageData r kind st data u := by
    unfold updStage
    rw [show r.args = args from stage_args]
    dsimp only
    rw [hf.kind, hf.pkg, hf.rest, stage_updBusy hrunning hu.upd, if_neg Bool.false_ne_true, if_neg hpkg, hstu]
    rfl
  obtain ⟨hown, hothers, hnext⟩ := stageData_others (r := r) (st := st) (data := data) hkind (stagedOf_arrived hu)
  refine ⟨_, hserved.trans (congrArg _ hmore), ?_, hothers, ?_⟩
  · rw [hown, ← hoff]
    rfl
  · rw [hnext, hu.upd]

/-- A call out of step is turned away. -/
theorem updStage_gap (h : Safety.Asks via 9 args a s u) (hf : StageFields pkg kind off total data args) (hlen : data.length ≤ 1024)
    {st : Staged} (hst : stagedOf kind s = some st) (hpkg : pkg ≠ 0) (hgap : st.received ≠ off) :
    exec (.updStage via) s = .next (respond a 0x10 [] u) := by
  have hu := arrives_changes h.came
  refine exec_of_asks_against h (c := .updStage via) (row := rowUpdStage) (argsOk := stageArgs) (f := updStage) (blockOk := stageRules) rfl rfl
    ?_ (stageRules_gap hf hpkg ((stagedOf_arrived hu kind).trans hst) hgap) (by decide) (.inl rfl) (by rw [hf.length]; omega)
  show some (decide (16 ≤ args.length) && decide (args.length ≤ 1040)) = some true
  rw [hf.length, decide_eq_true (by omega), decide_eq_true (by omega)]
  rfl

end

end
end Sys2Proof.Machine
end

section
/-! SUPPORT. UPD_APPLY, BANK_WRITTEN and PATCH_OPERATION (R434 to R437, R442). -/

namespace Sys2Proof.Machine

section
set_option Elab.async false

/-! ### UPD_APPLY -/

theorem legal_nonLeader {s : State} (h : works s) (hrole : s.power.role ≠ .leader) : nth 1 [1, 0, 2, 0, 0, 0, 1] (legalColumn s) = 0 := by
  simp only [works, List.mem_cons, List.not_mem_nil, or_false] at h
  rcases h with h | h | h
  · by_cases hpacer : s.power.role = .pacer
    · rw [legalColumn_pacer h hpacer]
      rfl
    · have hcol : legalColumn s = 1 := by
        rw [legalColumn, h]
        exact (if_neg hrole).trans (if_neg hpacer)
      rw [hcol]
      rfl
  · rw [legalColumn_safe h]
    rfl
  · rw [legalColumn_halt h]
    rfl

theorem leAt_word (w : Word) : leAt (leBytes 4 w.toNat) 0 4 = w.toNat := by
  rw [leAt_leBytes]
  exact Nat.mod_eq_of_lt (by have := w.isLt; omega)

section
variable {via : Via} {a : Asked} {s u : State} {pkg : Word}

/-- A request that names a PKG. -/
def pkgReq (a : Asked) (pkg : Word) : Req := { asked := a, body := askBody a (leBytes 4 pkg.toNat) }

theorem pkgReq_pkg : leAt (pkgReq a pkg).args 0 4 = pkg.toNat := (congrArg (leAt · 0 4) (askBody_drop a _)).trans (leAt_word pkg)

theorem completePkg_arrived (h : Changes arrivalParts s u) (kind pkg : Nat) : completePkg kind pkg u = completePkg kind pkg s := by
  unfold completePkg
  rw [stagedOf_arrived h]

theorem exec_apply (h : Safety.Asks via 0xA (leBytes 4 pkg.toNat) a s u) (hworks : works s) (hrole : s.power.role ≠ .leader)
    (hrules : (completePkg 0 pkg.toNat s).isSome = true ∨ (completePkg 1 pkg.toNat s).isSome = true) :
    exec (.updApply via) s = .next (updApply (pkgReq a pkg) u) := by
  have hu := arrives_changes h.came
  refine exec_of_asks h (c := .updApply via) rowUpdApply noArgs updApply rfl ⟨rfl, by decide, fun _ => rfl⟩ rfl (legal_nonLeader hworks hrole)
    (by rw [leBytes_length]; rfl) rfl ?_ (by decide) (.inl rfl) (by rw [leBytes_length]; decide)
  show applyRules (pkgReq a pkg) u = true
  unfold applyRules
  rw [pkgReq_pkg, completePkg_arrived hu, completePkg_arrived hu, Bool.or_eq_true]
  exact hrules

/-- A failed check shows its code, and the request ends with 0x31. -/
theorem updFailed_shows (pkg : Nat) (f : PkgFail) {s : State} (hshown : Shown 0x0A s) :
    (updFailed pkg f s).upd = { s.upd with code := BitVec.ofNat 8 f.1, part := (updFailed pkg f s).upd.part, running := 0 } ∧
    (updFailed pkg f s).mgt.asyncStatus = 0x31 := by
  let s1 := if f.2.isSome then s else drawn s
  have hs1 : Changes bookParts s s1 := .ite (.refl _ s) (drawn_changes s).mono
  have heq : ∃ items part, updFailed pkg f s = asyncDone 0x0A 0x31 (sj 0xA02 1 items
      { s1 with upd := { s1.upd with code := BitVec.ofNat 8 f.1, part := part, running := 0 } }) := ⟨_, _, rfl⟩
  clear_value s1
  obtain ⟨items, part, heq⟩ := heq
  have hnoted : Changes (.updRest :: bookParts) s1 (sj 0xA02 1 items
      { s1 with upd := { s1.upd with code := BitVec.ofNat 8 f.1, part := part, running := 0 } }) :=
    ((Changes.refl _ s1).also [.updRest]).trans (sj_changes ..)
  have hupd : (updFailed pkg f s).upd = { s.upd with code := BitVec.ofNat 8 f.1, part := part, running := 0 } := by
    rw [heq, (asyncDone_changes ..).upd, (sj_changes ..).upd, hs1.upd]
  refine ⟨?_, ?_⟩
  · rw [hupd]
  · rw [heq]
    exact ((hshown.later hs1).later hnoted).done

theorem accept_upd (r : Req) (s : State) : (accept r s).upd = s.upd := (accept_changes r s).upd

theorem accept_upd_shown (h : a.code = 0x0A) : Shown 0x0A (accept (pkgReq a pkg) u) := by
  have hshown := accept_shown (pkgReq a pkg) u
  rw [show nth 0 (pkgReq a pkg).body 0 = (0x0A : Byte) from h] at hshown
  exact hshown

/-- A system package that passes its checks is taken into PATCHING, and one that fails ends the request. -/
theorem applySys_shows (st : Staged) {v : State} (hshown : Shown 0x0A v) :
    (sysChecks st { v with upd := { v.upd with kind := 0 } } = none →
      (applySys st v).upd.journal = .patching ∧ (applySys st v).upd.opsDone = 0 ∧ (applySys st v).upd.running = 0xA) ∧
    (∀ f, sysChecks st { v with upd := { v.upd with kind := 0 } } = some f →
      (applySys st v).upd.journal = v.upd.journal ∧ (applySys st v).upd.code = BitVec.ofNat 8 f.1 ∧ (applySys st v).mgt.asyncStatus = 0x31) := by
  have hkind : Shown 0x0A { v with upd := { v.upd with kind := 0 } } := hshown.later (ps := [.updRest]) .of
  unfold applySys
  dsimp only
  refine ⟨fun hnone => ?_, fun f hf => ?_⟩
  · rw [hnone]
    dsimp only
    rw [(sj_changes ..).upd]
    exact ⟨rfl, rfl, rfl⟩
  · rw [hf]
    dsimp only
    obtain ⟨hupd, hstatus⟩ := updFailed_shows st.pkg.toNat f hkind
    exact ⟨by rw [hupd], by rw [hupd], hstatus⟩

theorem emptyInactive_upd (s : State) : bankOf (!s.upd.active) (emptyInactive s) = {} ∧
    bankOf s.upd.active (emptyInactive s) = bankOf s.upd.active s ∧ (emptyInactive s).upd.active = s.upd.active ∧
    (emptyInactive s).upd.journal = s.upd.journal := by
  unfold emptyInactive bankOf
  cases h : s.upd.active <;> simp [h]

theorem bankOf_congr {s t : State} (hA : t.upd.bankA = s.upd.bankA) (hB : t.upd.bankB = s.upd.bankB) (b : Bool) : bankOf b t = bankOf b s := by
  unfold bankOf
  rw [hA, hB]

theorem applyApp_shows (st : Staged) {v : State} (hshown : Shown 0x0A v) :
    (applyApp st v).upd.journal = v.upd.journal ∧
    (appChecks st { v with upd := { v.upd with kind := 1 } } = none → (applyApp st v).upd.running = 0xA ∧ (applyApp st v).upd.kind = 1) ∧
    (∀ f, appChecks st { v with upd := { v.upd with kind := 1 } } = some f →
      bankOf (!v.upd.active) (applyApp st v) = {} ∧ (applyApp st v).mgt.asyncStatus = 0x31) := by
  have hkind : Shown 0x0A { v with upd := { v.upd with kind := 1 } } := hshown.later (ps := [.updRest]) .of
  unfold applyApp
  dsimp only
  cases hc : appChecks st { v with upd := { v.upd with kind := 1 } } with
  | none => exact ⟨rfl, fun _ => ⟨rfl, rfl⟩, fun f hf => by cases hf⟩
  | some f =>
    dsimp only
    obtain ⟨hupd, hstatus⟩ := updFailed_shows st.pkg.toNat f (hkind.later (emptyInactive_changes _))
    obtain ⟨hbank, -, -, hjournal⟩ := emptyInactive_upd { v with upd := { v.upd with kind := 1 } }
    refine ⟨by rw [hupd]; exact hjournal, fun hf => absurd hf (Option.some_ne_none f), fun g hg => ?_⟩
    obtain rfl := Option.some.inj hg
    refine ⟨?_, hstatus⟩
    rw [← hbank]
    exact bankOf_congr (by rw [hupd]) (by rw [hupd]) _

theorem updApply_system (h : Safety.Asks via 0xA (leBytes 4 pkg.toNat) a s u) (hworks : works s) (hrole : s.power.role ≠ .leader)
    (hrunning : s.upd.running = 0) {st : Staged} (hst : completePkg 0 pkg.toNat s = some st) (hjournal : s.upd.journal = .idle) :
    exec (.updApply via) s = .next (applySys st (accept (pkgReq a pkg) u)) := by
  have hu := arrives_changes h.came
  rw [exec_apply h hworks hrole (.inl (by rw [hst]; rfl))]
  refine congrArg Host.Outcome.next ?_
  unfold updApply
  dsimp only
  rw [pkgReq_pkg, completePkg_arrived hu, hst, stage_updBusy hrunning hu.upd, if_neg Bool.false_ne_true]
  exact if_neg (by rw [hu.upd, hjournal]; exact not_not_intro rfl)

theorem updApply_application (h : Safety.Asks via 0xA (leBytes 4 pkg.toNat) a s u) (hworks : works s) (hrole : s.power.role ≠ .leader)
    (hrunning : s.upd.running = 0) {st : Staged} (hnone : completePkg 0 pkg.toNat s = none) (hst : completePkg 1 pkg.toNat s = some st)
    (hedit : s.edit.state = .none) (hpress : s.mld.repress = none) (hpending : s.upd.pending = false) :
    exec (.updApply via) s = .next (applyApp st (accept (pkgReq a pkg) u)) := by
  have hu := arrives_changes h.came
  rw [exec_apply h hworks hrole (.inr (by rw [hst]; rfl))]
  refine congrArg Host.Outcome.next ?_
  unfold updApply
  dsimp only
  rw [pkgReq_pkg, completePkg_arrived hu, completePkg_arrived hu, hnone, hst, stage_updBusy hrunning hu.upd, if_neg Bool.false_ne_true]
  refine if_neg ?_
  rw [hu.get .edit, hu.get .mld, hu.upd, hedit, hpress, hpending]
  decide

theorem updApply_unknown (h : Safety.Asks via 0xA (leBytes 4 pkg.toNat) a s u) (hsys : completePkg 0 pkg.toNat s = none)
    (happ : completePkg 1 pkg.toNat s = none) : exec (.updApply via) s = .next (respond a 0x10 [] u) := by
  have hu := arrives_changes h.came
  refine exec_of_asks_against h (c := .updApply via) (row := rowUpdApply) (argsOk := noArgs) (f := updApply) (blockOk := applyRules) rfl rfl
    (by rw [leBytes_length]; rfl) ?_ (by decide) (.inl rfl) (by rw [leBytes_length]; decide)
  show applyRules (pkgReq a pkg) u = false
  unfold applyRules
  rw [pkgReq_pkg, completePkg_arrived hu, completePkg_arrived hu, hsys, happ]
  rfl

end

/-! ### BANK_WRITTEN -/

theorem writeSectors_changes (a : Nat) (bs : Bytes) (s : State) : Changes [.flash] s (writeSectors a bs s) := by
  unfold writeSectors flashWrite flashErase
  exact .of

theorem writeBank_changes (st : Staged) (s : State) : Changes [.flash] s (writeBank st s) :=
  (writeSectors_changes ..).join (.foldl (fun _ _ => writeSectors_changes ..) _ _)

/-- The parts written and read back: the bank holds the package. -/
theorem bankWritten_holds {s : State} {st : Staged} (hst : s.upd.app = some st) (hrunning : s.upd.running = 0xA) (hkind : s.upd.kind = 1) :
    (bankWritten none s).upd.running = 0 ∧ (bankOf (!s.upd.active) (bankWritten none s)).pkg = some st.pkg ∧
    bankOf s.upd.active (bankWritten none s) = bankOf s.upd.active s ∧ (bankWritten none s).flash = (writeBank st s).flash := by
  have hwritten := writeBank_changes st s
  let v (w : State) : State := { setBank (!w.upd.active) { pkg := some st.pkg, set := BitVec.ofNat 32 (manSet st.data) } w with
    upd := { (setBank (!w.upd.active) { pkg := some st.pkg, set := BitVec.ofNat 32 (manSet st.data) } w).upd with running := 0 } }
  have heq : ∃ items, bankWritten none s = asyncDone 0x0A 0 (sj 0xA10 0 items (v (writeBank st s))) := by
    unfold bankWritten
    rw [hst]
    dsimp only
    rw [if_pos ⟨hrunning, hkind⟩]
    exact ⟨_, rfl⟩
  obtain ⟨items, heq⟩ := heq
  have hbank (w : State) : (v w).upd.running = 0 ∧ (bankOf (!w.upd.active) (v w)).pkg = some st.pkg ∧
      bankOf w.upd.active (v w) = bankOf w.upd.active w ∧ (v w).flash = w.flash := by
    simp only [v, setBank, bankOf]
    cases h : w.upd.active <;> simp
  obtain ⟨hrun, hpkg, hactive, hflash⟩ := hbank (writeBank st s)
  have hrecord : Changes (.async :: bookParts) (v (writeBank st s)) (bankWritten none s) := by
    rw [heq]
    exact (sj_changes ..).mono.join (asyncDone_changes ..)
  have hupd := hrecord.upd
  have hsame := hwritten.upd
  rw [hsame] at hpkg hactive
  refine ⟨(congrArg Upd.running hupd).trans hrun, ?_, ?_, (hrecord.get .flash).trans hflash⟩
  · exact (congrArg Bank.pkg (bankOf_congr (congrArg Upd.bankA hupd) (congrArg Upd.bankB hupd) _)).trans hpkg
  · exact ((bankOf_congr (congrArg Upd.bankA hupd) (congrArg Upd.bankB hupd) _).trans hactive).trans
      (bankOf_congr (congrArg Upd.bankA hsame) (congrArg Upd.bankB hsame) _)

/-- A part that is read back otherwise leaves the bank empty. -/
theorem bankWritten_fails {s : State} {st : Staged} (hst : s.upd.app = some st) (hrunning : s.upd.running = 0xA) (hkind : s.upd.kind = 1)
    (i : Nat) : (bankWritten (some i) s).upd.running = 0 ∧ (bankWritten (some i) s).upd.code = 9 ∧
      bankOf (!s.upd.active) (bankWritten (some i) s) = {} := by
  have hwritten := writeBank_changes st s
  have heq : bankWritten (some i) s = updFailed st.pkg.toNat (9, some (0x10 + i)) (emptyInactive (writeBank st s)) := by
    unfold bankWritten
    rw [hst]
    dsimp only
    rw [if_pos ⟨hrunning, hkind⟩]
  obtain ⟨hbank, -, -, -⟩ := emptyInactive_upd (writeBank st s)
  rw [hwritten.upd] at hbank
  generalize emptyInactive (writeBank st s) = w at heq hbank
  have hupd : ∃ part, (updFailed st.pkg.toNat (9, some (0x10 + i)) w).upd = { w.upd with code := 9, part := part, running := 0 } :=
    ⟨_, (asyncDone_changes ..).upd.trans (sj_changes ..).upd⟩
  obtain ⟨part, hupd⟩ := hupd
  rw [← heq] at hupd
  rw [hupd]
  refine ⟨rfl, rfl, ?_⟩
  rw [bankOf_congr (s := w) (by rw [hupd]) (by rw [hupd]), ← hbank]

end
end Sys2Proof.Machine
end

section
/-! SUPPORT. PATCH_OPERATION, UPD_ACTIVATE and RESTORE (R435 to R438, R441, R443). -/

namespace Sys2Proof.Machine

section
set_option Elab.async false

/-! ### PATCH_OPERATION -/

/-- The block of an operation prepared and written. -/
def patchWritten (op : OpRec) (s : State) : State :=
  writeSectors (4096 * op.target) (applyOp op s) (journalPrepared s.upd.opsDone (applyOp op s) s)

/-- The operation counted. -/
def patched (op : OpRec) (s : State) : State :=
  journalWrite { patchWritten op s with upd := { (patchWritten op s).upd with prepared := none, opsDone := s.upd.opsDone + 1 } }

def patchParts : List Part := [.updHead, .updRest, .mram, .flash]

theorem patchWritten_changes (op : OpRec) (s : State) : Changes patchParts s (patchWritten op s) := by
  have hnoted : Changes patchParts s { s with upd := { s.upd with prepared := some (s.upd.opsDone, applyOp op s) } } := .of
  have hprepared : Changes patchParts s (journalPrepared s.upd.opsDone (applyOp op s) s) :=
    ((hnoted.trans (mramWrite_changes ..)).trans (mramWrite_changes ..)).trans (journalWrite_changes _)
  exact hprepared.trans (writeSectors_changes ..)

theorem patched_changes (op : OpRec) (s : State) : Changes patchParts s (patched op s) :=
  ((patchWritten_changes op s).also [.updRest]).trans (journalWrite_changes _)

theorem journalWrite_shows (s : State) :
    (journalWrite s).flash = s.flash ∧ (journalWrite s).upd = { s.upd with headSeq := s.upd.headSeq + 1 } := ⟨rfl, rfl⟩

theorem writeSectors_shows (a : Nat) (bs : Bytes) {s t : State} (h : t.flash = s.flash) :
    (writeSectors a bs t).flash = (writeSectors a bs s).flash ∧ (writeSectors a bs t).upd = t.upd := by
  unfold writeSectors flashWrite flashErase
  dsimp only
  rw [h]
  exact ⟨rfl, rfl⟩

theorem journalPrepared_shows (k : Nat) (blk : Bytes) (s : State) : (journalPrepared k blk s).flash = s.flash ∧
    (journalPrepared k blk s).upd = { s.upd with prepared := some (k, blk), headSeq := s.upd.headSeq + 1 } := by
  unfold journalPrepared
  generalize hv : mramWrite 0x281000 blk (mramWrite 0x280080 _ _) = v
  have hflash : v.flash = s.flash := by rw [← hv]; rfl
  have hupd : v.upd = { s.upd with prepared := some (k, blk) } := by rw [← hv]; rfl
  obtain ⟨hwriteFlash, hwriteUpd⟩ := journalWrite_shows v
  exact ⟨hwriteFlash.trans hflash, by rw [hwriteUpd, hupd]⟩

theorem patchWritten_shows (op : OpRec) (s : State) :
    (patchWritten op s).flash = (writeSectors (4096 * op.target) (applyOp op s) s).flash ∧
    (patchWritten op s).upd = { s.upd with prepared := some (s.upd.opsDone, applyOp op s), headSeq := s.upd.headSeq + 1 } := by
  obtain ⟨hflash, hupd⟩ := journalPrepared_shows s.upd.opsDone (applyOp op s) s
  unfold patchWritten
  generalize applyOp op s = blk at hflash hupd ⊢
  obtain ⟨hsectors, hkept⟩ := writeSectors_shows (4096 * op.target) blk hflash
  exact ⟨hsectors, hkept.trans hupd⟩

theorem patched_shows (op : OpRec) (s : State) :
    (patched op s).flash = (writeSectors (4096 * op.target) (applyOp op s) s).flash ∧
    (patched op s).upd = { s.upd with prepared := none, opsDone := s.upd.opsDone + 1, headSeq := s.upd.headSeq + 1 + 1 } := by
  obtain ⟨hflash, hupd⟩ := patchWritten_shows op s
  unfold patched
  generalize patchWritten op s = v at hflash hupd ⊢
  refine ⟨(journalWrite_shows _).1.trans hflash, (journalWrite_shows _).2.trans ?_⟩
  dsimp only
  rw [hupd]

section
variable {s : State} {st : Staged} {op : OpRec} {first second : Bool}

theorem patchOperation_eq (hst : s.upd.sys = some st) (hjournal : s.upd.journal = .patching) (hawake : awake s = true)
    (hop : ((payloadRecs st.data).getD [])[s.upd.opsDone]? = some op) (hprepared : s.upd.prepared = none) :
    patchOperation first second s = if first || second then
      (if s.upd.opsDone + 1 = s.upd.opsTotal then patchEnds st.data (patched op s) else patched op s)
    else goDead 3 (partOfOp st.data s.upd.opsDone) { patchWritten op s with upd := { (patchWritten op s).upd with running := 0 } } := by
  unfold patchOperation
  rw [hst]
  dsimp only
  rw [hop]
  dsimp only
  rw [if_pos ⟨hjournal, hawake⟩, hprepared]
  rfl

theorem targetFailure_congr {t u : State} (h : t.flash = u.flash) (m : Bytes) : targetFailure m t = targetFailure m u := by
  have hpart (e : PartEntry) : sysPart e t = sysPart e u := by
    unfold sysPart flashRead
    rw [h]
  unfold targetFailure
  simp only [hpart]

/-- A mismatch after the last operation is DEAD with code 9 and the part (R437). -/
theorem patchEnds_fails {m : Bytes} {p : Nat} (h : targetFailure m s = some p) :
    (patchEnds m s).power.state = .dead ∧ (patchEnds m s).dio.on = 0 ∧ (patchEnds m s).flash = s.flash ∧
    (patchEnds m s).upd = { s.upd with headSeq := s.upd.headSeq + 1, code := 9, part := BitVec.ofNat 8 p, running := 0, journal := .dead,
                                       deadCause := 4, accepting := false } ∧
    Safety.journals 0xA07 2 (item 4 ++ item p) s (patchEnds m s) := by
  let v : State := { s with upd := { s.upd with code := 9, part := BitVec.ofNat 8 p, running := 0 } }
  have heq : patchEnds m s = goDead 4 (some p) v := by
    unfold patchEnds
    rw [h]
  have hupd := goDead_upd 4 (some p) v
  have hrecord : Safety.journals 0xA07 2 (item 4 ++ item p) s (goDead 4 (some p) v) := goDead_records 4 p v
  have hstate := goDead_state 4 (some p) v
  have hoff := goDead_off 4 (some p) v
  have hflash : (goDead 4 (some p) v).flash = s.flash := (goDead_changes 4 (some p) v).get .flash
  rw [heq]
  exact ⟨hstate, hoff, hflash, hupd, hrecord⟩

/-- The commit record as it goes to the journal. -/
def committing (m : Bytes) (s : State) : State :=
  { s with upd := { s.upd with
    manifest := m.take (manLength 0), journal := .committed, newSet := BitVec.ofNat 32 (manSet m), running := 0, prepared := none
    active := (bankOfSet (manSet m) s).getD s.upd.active, accepting := decide (s.power.state = .bringUp) } }

theorem journalCommit_changes (s : State) : Changes [.updHead, .updRest, .mram] s (journalCommit s) :=
  ((((Changes.refl _ s).also [.updRest]).trans (mramWrite_changes ..)).trans (mramWrite_changes ..)).trans (journalWrite_changes _)

theorem journalCommit_upd (s : State) : (journalCommit s).upd =
    { s.upd with slot := !s.upd.slot, commits := s.upd.commits + 1, headSeq := s.upd.headSeq + 1 } := rfl

theorem commitSys_eq (m : Bytes) (s : State) : commitSys m s = asyncDone 0x0A 0
    (sj 0xA05 0 (item (manSet s.upd.manifest) ++ item (manSet m)) (journalCommit (committing m s))) := rfl

/-- The commit (R437): the manifest, the bank and COMMITTED, recorded. -/
theorem commitSys_shows (m : Bytes) (s : State) :
    (commitSys m s).power = s.power ∧ (commitSys m s).dio = s.dio ∧ (commitSys m s).flash = s.flash ∧
    (commitSys m s).upd = { (committing m s).upd with slot := !s.upd.slot, commits := s.upd.commits + 1, headSeq := s.upd.headSeq + 1 } ∧
    Safety.journals 0xA05 0 (item (manSet s.upd.manifest) ++ item (manSet m)) s (commitSys m s) := by
  rw [commitSys_eq]
  have hcommit : Changes [.journal, .updHead, .updRest, .mram] s (journalCommit (committing m s)) :=
    (show Changes [.journal, .updHead, .updRest, .mram] s (committing m s) by unfold committing; exact .of).trans (journalCommit_changes _)
  have hupd := journalCommit_upd (committing m s)
  generalize item (manSet s.upd.manifest) ++ item (manSet m) = items
  generalize journalCommit (committing m s) = v at hcommit hupd ⊢
  have hrecord := sj_changes 0xA05 0 items v
  have hdone := asyncDone_changes 0x0A 0 (sj 0xA05 0 items v)
  refine ⟨hdone.power.trans (hrecord.power.trans hcommit.power), hdone.dio.trans (hrecord.dio.trans hcommit.dio),
    (hdone.get .flash).trans ((hrecord.get .flash).trans (hcommit.get .flash)), hdone.upd.trans (hrecord.upd.trans hupd), ?_⟩
  exact Safety.journals_of_sj (u := v) (by rw [hcommit.log]) (hdone.get .sjGrows) (by unfold opMs; rw [hcommit.get .opUs]) (by rw [hcommit.power])

theorem patchEnds_commits {m : Bytes} (h : targetFailure m s = none) : patchEnds m s = commitSys m s := by
  unfold patchEnds
  rw [h]

theorem bankOfSet_congr {t u : State} (hA : t.upd.bankA = u.upd.bankA) (hB : t.upd.bankB = u.upd.bankB)
    (hactive : t.upd.active = u.upd.active) (set : Nat) : bankOfSet set t = bankOfSet set u := by
  have hbank (b : Bool) : bankOf b t = bankOf b u := bankOf_congr hA hB b
  unfold bankOfSet
  simp only [hactive, hbank]

end

/-! ### UPD_ACTIVATE -/

section
variable {via : Via} {a : Asked} {s u : State} {pkg : Word}

theorem exec_activate (h : Safety.Asks via 0xB (leBytes 4 pkg.toNat) a s u) (hworks : works s) (hrole : s.power.role ≠ .leader)
    (hrules : activateRules (pkgReq a pkg) u = true) :
    exec (.updActivate via) s = .next (updActivate (pkgReq a pkg) u) :=
  exec_of_asks h (c := .updActivate via) rowUpdActivate noArgs updActivate rfl ⟨rfl, by decide, fun _ => rfl⟩ rfl (legal_nonLeader hworks hrole)
    (by rw [leBytes_length]; rfl) rfl hrules (by decide) (.inl rfl) (by rw [leBytes_length]; decide)

theorem activateRules_eq (hu : Changes arrivalParts s u) : activateRules (pkgReq a pkg) u =
    ((completePkg 0 pkg.toNat s).isSome || ((completePkg 1 pkg.toNat s).isSome && inactiveHolds pkg.toNat u)) := by
  unfold activateRules
  dsimp only
  rw [pkgReq_pkg, completePkg_arrived hu, completePkg_arrived hu]

theorem updActivate_unknown (h : Safety.Asks via 0xB (leBytes 4 pkg.toNat) a s u) (hsys : completePkg 0 pkg.toNat s = none)
    (happ : completePkg 1 pkg.toNat s = none ∨ inactiveHolds pkg.toNat u = false) :
    exec (.updActivate via) s = .next (respond a 0x10 [] u) := by
  have hu := arrives_changes h.came
  refine exec_of_asks_against h (c := .updActivate via) (row := rowUpdActivate) (argsOk := noArgs) (f := updActivate) (blockOk := activateRules)
    rfl rfl (by rw [leBytes_length]; rfl) ?_ (by decide) (.inl rfl) (by rw [leBytes_length]; decide)
  refine (activateRules_eq hu).trans ?_
  rw [hsys]
  rcases happ with happ | happ
  · rw [happ]
    rfl
  · rw [happ, Bool.and_false]
    rfl

/-- A restart for a request leaves the unit in BRING-UP, and the update's state as a start begins with it. -/
theorem restartFor_shows (r : Req) {v : State} (h : resumes v = false) :
    (restartFor r v).power.state = .bringUp ∧ ∃ A B, (restartFor r v).upd = { updStarted v.upd with bankA := A, bankB := B } := by
  have hleave := sendLeave_changes 1 v
  have hresumes : resumes (sendLeave 1 v) = false := by
    unfold resumes at h ⊢
    rw [hleave.upd]
    exact h
  obtain ⟨hstate, -⟩ := beginBringUp_opState .restart 0 hresumes
  obtain ⟨A, B, hupd⟩ := beginBringUp_upd .restart 0 hresumes
  rw [hleave.upd] at hupd
  have hdone := asyncDone_changes (nth 0 r.body 0) 0 (beginBringUp .restart 0 (sendLeave 1 v))
  exact ⟨(hdone.get .opState).trans hstate, A, B, hdone.upd.trans hupd⟩

theorem updActivate_system (h : Safety.Asks via 0xB (leBytes 4 pkg.toNat) a s u) (hworks : works s) (hrole : s.power.role ≠ .leader)
    (hrunning : s.upd.running = 0) {st : Staged} (hst : completePkg 0 pkg.toNat s = some st) (hjournal : s.upd.journal = .committed) :
    ∃ t, exec (.updActivate via) s = .next t ∧ t.power.state = .bringUp ∧ t.upd.accepting = true ∧ t.upd.journal = .committed := by
  have hu := arrives_changes h.came
  have hrules : activateRules (pkgReq a pkg) u = true := by
    rw [activateRules_eq hu, hst]
    rfl
  have hactivates : updActivate (pkgReq a pkg) u = restartFor (pkgReq a pkg) (accept (pkgReq a pkg) u) := by
    unfold updActivate
    dsimp only
    rw [pkgReq_pkg, completePkg_arrived hu, hst, stage_updBusy hrunning hu.upd, if_neg Bool.false_ne_true]
    exact if_pos (by rw [hu.upd, hjournal])
  have hupd : (accept (pkgReq a pkg) u).upd = s.upd := (accept_upd ..).trans hu.upd
  obtain ⟨hstate, A, B, hshows⟩ := restartFor_shows (pkgReq a pkg) (v := accept (pkgReq a pkg) u)
    (by unfold resumes; rw [hupd, hjournal]; rfl)
  rw [hupd] at hshows
  refine ⟨_, (exec_activate h hworks hrole hrules).trans (congrArg _ hactivates), hstate, ?_, ?_⟩
  · rw [hshows]
    exact decide_eq_true hjournal
  · rw [hshows]
    exact hjournal

theorem updActivate_bank (h : Safety.Asks via 0xB (leBytes 4 pkg.toNat) a s u) (hworks : works s) (hrole : s.power.role ≠ .leader)
    (hrunning : s.upd.running = 0) (hsys : completePkg 0 pkg.toNat s = none) (happ : (completePkg 1 pkg.toNat s).isSome = true)
    (hholds : inactiveHolds pkg.toNat u = true) :
    exec (.updActivate via) s = .next (if bankSetOk (!s.upd.active) u then activateBank (pkgReq a pkg) u
      else respond a 0x31 [8] (setRefused pkg.toNat u)) := by
  have hu := arrives_changes h.came
  have hrules : activateRules (pkgReq a pkg) u = true := by
    rw [activateRules_eq hu, hsys, happ, hholds]
    rfl
  rw [exec_activate h hworks hrole hrules]
  unfold updActivate
  dsimp only
  rw [pkgReq_pkg, completePkg_arrived hu, hsys, stage_updBusy hrunning hu.upd, if_neg Bool.false_ne_true, hu.upd]
  rfl

theorem activateBank_shows {v : State} (r : Req) (h : v.upd.journal = .idle) :
    (activateBank r v).power.state = .bringUp ∧ (activateBank r v).upd.pending = true ∧ (activateBank r v).upd.inUse = true := by
  let w : State := { accept r v with upd := { (accept r v).upd with pending := true, attempts := 0 } }
  have hresumes : resumes w = false := by
    have hjournal : w.upd.journal = .idle := (congrArg Upd.journal (accept_upd r v)).trans h
    unfold resumes
    rw [hjournal]
    rfl
  obtain ⟨hstate, A, B, hupd⟩ := restartFor_shows r hresumes
  have hactivates : activateBank r v = restartFor r w := rfl
  rw [hactivates, hupd]
  exact ⟨hstate, rfl, rfl⟩

end

end
end Sys2Proof.Machine
end

section
/-! PROOF. Updates are staged, applied, activated and restored (O43). -/

namespace Sys2Proof.Machine

section
set_option Elab.async false

/-! ### RESTORE (R441) -/

/-- RESTORE's arguments as the manual lays them out. -/
def restoreCall (op : Byte) (off total : Nat) (data : Bytes) : Bytes := [op, 0, 0, 0] ++ leBytes 4 off ++ leBytes 4 total ++ data

section
variable {via : Via} {a : Asked} {s u : State} {op : Byte} {off total : Nat} {data : Bytes}

theorem restoreCall_length : (restoreCall op off total data).length = 12 + data.length := by simp [restoreCall]; omega

/-- A RESTORE as it is served. -/
def restoreReq (a : Asked) (op : Byte) (off total : Nat) (data : Bytes) : Req := { asked := a, body := askBody a (restoreCall op off total data) }

theorem restoreReq_fields (hoff : off < 2 ^ 32) (htotal : total < 2 ^ 32) : restoreOffset (restoreReq a op off total data) = off ∧
    restoreTotal (restoreReq a op off total data) = total ∧ restoreData_ (restoreReq a op off total data) = data := by
  have h4 (v : Nat) (hv : v < 2 ^ 32) : v % 256 ^ 4 = v := Nat.mod_eq_of_lt (by omega)
  have hargs : (restoreReq a op off total data).args = restoreCall op off total data := askBody_drop a _
  unfold restoreOffset restoreTotal restoreData_
  rw [hargs]
  refine ⟨?_, ?_, List.drop_left' (by simp)⟩
  · simp only [restoreCall, List.append_assoc]
    rw [leAt_skip (by simp)]
    exact (leAt_leBytes_append ..).trans (h4 off hoff)
  · simp only [restoreCall, List.append_assoc]
    rw [leAt_skip (by simp), leAt_skip_leBytes (by simp)]
    exact (leAt_leBytes_append ..).trans (h4 total htotal)

theorem exec_restoreCall {k : Nat} (hk : k ≤ 2) (hop : op.toNat = k) (hlen : data.length ≤ 1024)
    (h : Safety.Asks via 0x20 (restoreCall op off total data) a s u) (hdead : s.power.state = .dead) {c : Instr} {f : Req → State → State}
    (hexec : exec c s = .next (request (rowRestore k) restoreArgs f via s)) :
    exec c s = .next (f (restoreReq a op off total data) u) := by
  refine exec_of_restore hk ?_ rfl ?_ h hdead hexec
  · exact (leAt_cons_zero op _).trans hop
  · rw [restoreCall_length]
    omega

/-- The bytes of the manifest after a call. -/
def restoreAll (off : Nat) (data : Bytes) (s : State) : Bytes := (if off = 0 then [] else s.upd.restore.getD []) ++ data

/-- The manifest taken as far as it has come. -/
def restoreHeld (all : Bytes) (s : State) : State := { s with upd := { s.upd with restore := some all, restoreOk := false } }

/-- A manifest call in step. -/
theorem restoreManifest_eq (hoff : off < 2 ^ 32) (htotal : total = 928) (hstep : (restoreAll off data u).length = off + data.length)
    (hfits : (restoreAll off data u).length ≤ 928) :
    restoreManifest (restoreReq a op off total data) u =
      if (restoreAll off data u).length < 928 then respond a 0 [] (restoreHeld (restoreAll off data u) u)
      else (pkgBasic 0 none (restoreAll off data u) (restoreHeld (restoreAll off data u) u)).elim
        (respond a 0 [] (sj 0xA08 0 (item (manSet (restoreAll off data u)))
          { restoreHeld (restoreAll off data u) u with upd := { (restoreHeld (restoreAll off data u) u).upd with restoreOk := true } }))
        fun e => respond a 0x31 (leBytes 1 e.1) u := by
  obtain ⟨hf1, hf2, hf3⟩ := restoreReq_fields (a := a) (op := op) (data := data) hoff (total := total) (by omega)
  have hhave : (if off = 0 then [] else u.upd.restore.getD []).length = off := by
    unfold restoreAll at hstep
    rw [List.length_append] at hstep
    omega
  unfold restoreManifest
  dsimp only
  rw [hf1, hf2, hf3]
  change (if total ≠ 928 ∨ off ≠ (if off = 0 then [] else u.upd.restore.getD []).length ∨ 928 < (restoreAll off data u).length then _ else _) = _
  rw [if_neg (by rw [hhave]; omega)]
  change (if (restoreAll off data u).length < 928 then respond a 0 [] (restoreHeld (restoreAll off data u) u) else _) = _
  split
  · rfl
  · cases h : pkgBasic 0 none (restoreAll off data u) (restoreHeld (restoreAll off data u) u) with
    | none =>
      change (match pkgBasic 0 none (restoreAll off data u) (restoreHeld (restoreAll off data u) u) with
        | some f => respond a 0x31 (leBytes 1 f.1) u
        | none => _) = _
      rw [h]
      rfl
    | some e =>
      change (match pkgBasic 0 none (restoreAll off data u) (restoreHeld (restoreAll off data u) u) with
        | some f => respond a 0x31 (leBytes 1 f.1) u
        | none => _) = _
      rw [h]
      rfl

theorem restoreMan_of {m : Bytes} (hu : Changes arrivalParts s u) (hm : s.upd.restore = some m) (hok : s.upd.restoreOk = true) :
    restoreMan u = some m := by
  unfold restoreMan
  rw [hu.upd, hok, hm]
  rfl

theorem restoreData_within {m : Bytes} (hu : Changes arrivalParts s u) (hm : s.upd.restore = some m) (hok : s.upd.restoreOk = true)
    (hoff : off < 2 ^ 32) (htotal : total < 2 ^ 32) {e : PartEntry} (he : e ∈ manParts 0 m) (hfrom : 4096 * (extentOf e).1 ≤ off)
    (hto : off + data.length ≤ 4096 * ((extentOf e).1 + (extentOf e).2)) :
    restoreData (restoreReq a op off total data) u = respond a 0 [] (flashWrite off data u) := by
  obtain ⟨hf1, -, hf3⟩ := restoreReq_fields (a := a) (op := op) (data := data) hoff htotal
  unfold restoreData
  rw [hf1, hf3, restoreMan_of hu hm hok]
  exact if_pos (List.any_eq_true.2 ⟨e, he, by rw [decide_eq_true hfrom, decide_eq_true hto]; rfl⟩)

/-- The state that a restore commits. -/
def restoring (m : Bytes) (r : Req) (s : State) : State :=
  { accept r s with upd := { (accept r s).upd with
    manifest := m, journal := .committed, newSet := BitVec.ofNat 32 (manSet m), restore := none, restoreOk := false
    active := (bankOfSet (manSet m) s).getD s.upd.active } }

theorem restoreFinish_shows {m : Bytes} (hu : Changes arrivalParts s u) (hm : s.upd.restore = some m) (hok : s.upd.restoreOk = true)
    (htarget : targetFailure m s = none) (r : Req) :
    (restoreFinish r u).power.state = .bringUp ∧ (restoreFinish r u).power.startKind = .restore ∧
    (restoreFinish r u).upd.journal = .committed ∧ (restoreFinish r u).upd.manifest = m ∧ (restoreFinish r u).upd.accepting = true := by
  have heq : restoreFinish r u = asyncDone 0x20 0 (beginBringUp .restore 0 (sj 0xA09 0 (item (manSet m)) (journalCommit (restoring m r u)))) := by
    unfold restoreFinish
    rw [restoreMan_of hu hm hok]
    dsimp only
    rw [targetFailure_congr (hu.get .flash), htarget]
    rfl
  have hcommit := journalCommit_upd (restoring m r u)
  have hrestoring : (restoring m r u).upd.journal = .committed ∧ (restoring m r u).upd.manifest = m := ⟨rfl, rfl⟩
  generalize journalCommit (restoring m r u) = v at heq hcommit
  have hrecord := (sj_changes 0xA09 0 (item (manSet m)) v).upd
  generalize sj 0xA09 0 (item (manSet m)) v = w at heq hrecord
  have hjournal : w.upd.journal = .committed := by rw [hrecord, hcommit]; exact hrestoring.1
  have hmanifest : w.upd.manifest = m := by rw [hrecord, hcommit]; exact hrestoring.2
  have hresumes : resumes w = false := by
    unfold resumes
    rw [hjournal]
    rfl
  obtain ⟨hstate, hkind⟩ := beginBringUp_opState .restore 0 hresumes
  obtain ⟨A, B, hupd⟩ := beginBringUp_upd .restore 0 hresumes
  have hdone := asyncDone_changes 0x20 0 (beginBringUp .restore 0 w)
  obtain ⟨hdoneKind, -⟩ := hdone.get .start
  rw [heq]
  refine ⟨(hdone.get .opState).trans hstate, hdoneKind.trans hkind, ?_, ?_, ?_⟩
  · rw [hdone.upd, hupd]
    exact hjournal
  · rw [hdone.upd, hupd]
    exact hmanifest
  · rw [hdone.upd, hupd]
    exact decide_eq_true hjournal

end

/-- What one PATCH_OPERATION leaves, by its read-backs and its place. -/
theorem patchOperation_follows {s : State} {st : Staged} {op : OpRec} {first second : Bool} (hst : s.upd.sys = some st)
    (hjournal : s.upd.journal = .patching) (hawake : awake s = true)
    (hop : ((payloadRecs st.data).getD [])[s.upd.opsDone]? = some op) (hprepared : s.upd.prepared = none) : ∃ t,
      exec (.patchOperation first second) s = .next t ∧
      t.flash = (writeSectors (4096 * op.target) (applyOp op s) s).flash ∧
      (first = true ∨ second = true → s.upd.opsDone + 1 ≠ s.upd.opsTotal →
        t.upd = { s.upd with opsDone := s.upd.opsDone + 1, headSeq := s.upd.headSeq + 2 } ∧ t.power = s.power) ∧
      (first = true ∨ second = true → s.upd.opsDone + 1 = s.upd.opsTotal →
        let written : State := { s with flash := t.flash }
        t.upd.opsDone = s.upd.opsTotal ∧ t.upd.running = 0 ∧
        (∀ p, targetFailure st.data written = some p → t.power.state = .dead ∧ t.upd.journal = .dead ∧ t.upd.deadCause = 4 ∧
          t.upd.code = 9 ∧ t.upd.part = BitVec.ofNat 8 p ∧ t.upd.manifest = s.upd.manifest ∧ t.dio.on = 0 ∧
          Safety.journals 0xA07 2 (item 4 ++ item p) s t) ∧
        (targetFailure st.data written = none → t.power = s.power ∧ t.dio = s.dio ∧ t.upd.journal = .committed ∧
          t.upd.manifest = st.data.take 928 ∧ t.upd.active = (bankOfSet (manSet st.data) s).getD s.upd.active ∧
          t.upd.accepting = decide (s.power.state = .bringUp) ∧ t.upd.sys = s.upd.sys ∧
          Safety.journals 0xA05 0 (item (manSet s.upd.manifest) ++ item (manSet st.data)) s t)) ∧
      (first = false → second = false → t.power.state = .dead ∧ t.upd.journal = .dead ∧ t.upd.deadCause = 3 ∧
        t.upd.opsDone = s.upd.opsDone) := by
  refine ⟨_, congrArg Host.Outcome.next (patchOperation_eq hst hjournal hawake hop hprepared), ?_⟩
  obtain ⟨hflash, hupd⟩ := patched_shows op s
  have hchanges := patched_changes op s
  rw [← hprepared] at hupd
  by_cases hread : (first || second) = true
  · rw [if_pos hread]
    have hnot : ¬ (first = false ∧ second = false) := by
      rintro ⟨h1, h2⟩
      rw [h1, h2] at hread
      exact absurd hread (by decide)
    by_cases hlast : s.upd.opsDone + 1 = s.upd.opsTotal
    · rw [if_pos hlast]
      generalize patched op s = w at hflash hupd hchanges ⊢
      have hrecords (code sev : Nat) (items : Bytes) {t : State} (h : Safety.journals code sev items w t) : Safety.journals code sev items s t := by
        obtain ⟨r, hr, hcode, hsev, hitems, hms, hcycles⟩ := h
        refine ⟨r, ?_, hcode, hsev, hitems, hms.trans ?_, hcycles.trans (congrArg Power.pwrCycles hchanges.power)⟩
        · rwa [hchanges.log] at hr
        · unfold opMs
          rw [hchanges.get .opUs]
      cases hfail : targetFailure st.data w with
      | some p =>
        obtain ⟨hdead, hoff, hkept, hended, hsaid⟩ := patchEnds_fails hfail
        generalize patchEnds st.data w = t at hdead hoff hkept hended hsaid ⊢
        have hsame : targetFailure st.data { s with flash := t.flash } = some p :=
          (targetFailure_congr (u := w) hkept st.data).trans hfail
        rw [hupd] at hended
        refine ⟨hkept.trans hflash, fun _ hne => absurd hlast hne, fun _ _ => ⟨?_, ?_, fun q hq => ?_, fun hnone => ?_⟩,
          fun h1 h2 => absurd ⟨h1, h2⟩ hnot⟩
        · rw [hended]
          exact hlast
        · rw [hended]
        · obtain rfl := Option.some.inj (hsame.symm.trans hq)
          rw [hended]
          exact ⟨hdead, rfl, rfl, rfl, rfl, rfl, hoff, hrecords _ _ _ hsaid⟩
        · exact absurd (hsame.symm.trans hnone) (Option.some_ne_none p)
      | none =>
        rw [patchEnds_commits hfail]
        obtain ⟨hpower, hdio, hkept, hended, hsaid⟩ := commitSys_shows st.data w
        generalize commitSys st.data w = t at hpower hdio hkept hended hsaid ⊢
        have hsame : targetFailure st.data { s with flash := t.flash } = none := (targetFailure_congr (u := w) hkept st.data).trans hfail
        have hbank : bankOfSet (manSet st.data) w = bankOfSet (manSet st.data) s :=
          bankOfSet_congr (by rw [hupd]) (by rw [hupd]) (by rw [hupd]) _
        have hmanifest : w.upd.manifest = s.upd.manifest := by rw [hupd]
        have hactive : w.upd.active = s.upd.active := by rw [hupd]
        have hdone : w.upd.opsDone = s.upd.opsDone + 1 := by rw [hupd]
        have hsys : w.upd.sys = s.upd.sys := by rw [hupd]
        rw [hmanifest] at hsaid
        refine ⟨hkept.trans hflash, fun _ hne => absurd hlast hne, fun _ _ => ⟨?_, ?_, fun q hq => ?_, fun _ => ?_⟩,
          fun h1 h2 => absurd ⟨h1, h2⟩ hnot⟩
        · rw [hended]
          exact hdone.trans hlast
        · rw [hended]
          rfl
        · exact absurd (hsame.symm.trans hq) (by simp)
        · refine ⟨hpower.trans hchanges.power, hdio.trans hchanges.dio, ?_, ?_, ?_, ?_, ?_, hrecords _ _ _ hsaid⟩
          · rw [hended]
            rfl
          · rw [hended]
            rfl
          · rw [hended, ← hactive, ← hbank]
            rfl
          · rw [hended, ← hchanges.power]
            rfl
          · rw [hended]
            exact hsys
    · rw [if_neg hlast]
      refine ⟨hflash, fun _ _ => ⟨?_, hchanges.power⟩, fun _ h => absurd h hlast, fun h1 h2 => absurd ⟨h1, h2⟩ hnot⟩
      rw [hupd, add_assoc]
      rfl
  · rw [if_neg hread]
    obtain ⟨hfirst, hsecond⟩ : first = false ∧ second = false := by simpa using hread
    obtain ⟨hwflash, hwupd⟩ := patchWritten_shows op s
    generalize patchWritten op s = w at hwflash hwupd ⊢
    have hdead := goDead_state 3 (partOfOp st.data s.upd.opsDone) { w with upd := { w.upd with running := 0 } }
    have hended := goDead_upd 3 (partOfOp st.data s.upd.opsDone) { w with upd := { w.upd with running := 0 } }
    have hkept : (goDead 3 (partOfOp st.data s.upd.opsDone) { w with upd := { w.upd with running := 0 } }).flash = w.flash :=
      (goDead_changes ..).get .flash
    generalize goDead 3 (partOfOp st.data s.upd.opsDone) { w with upd := { w.upd with running := 0 } } = t at hdead hended hkept ⊢
    have hnot : ¬ (first = true ∨ second = true) := by rw [hfirst, hsecond]; decide
    refine ⟨hkept.trans hwflash, fun h => absurd h hnot, fun h => absurd h hnot, fun _ _ => ⟨hdead, ?_, ?_, ?_⟩⟩
    · rw [hended]
    · rw [hended]
      rfl
    · rw [hended]
      have hdone : w.upd.opsDone = s.upd.opsDone := by rw [hwupd]
      exact hdone

/-- Settles O43: staging, the checks and writes of a package, its patching, activation, and the restore in DEAD, each by what its
function leaves of the update's state. -/
theorem updatesAreStagedAppliedAndRestored : Obligations.UpdatesAreStagedAppliedAndRestored := by
  intro via a s u pkg v accepted isWorking b
  refine ⟨fun kind off total data hworks hrunning hlen htotal hdata h => ?stage, fun h hworks hrole hrunning => ?apply,
    fun st hst hrunning hkind hawake => ?bank, fun st op first second hst hjournal hawake hop hprepared =>
      patchOperation_follows hst hjournal hawake hop hprepared,
    fun h hworks hrole hrunning => ?activate, fun hdead off total data hoff htotal hlen => ?restore⟩
  case stage =>
    have hfields := stageCall_fields (kind := kind) data pkg.isLt kind.isLt (off := off) (total := total) (by omega) (by omega)
    have hname (hpkg : pkg ≠ 0) : pkg.toNat ≠ 0 := fun h0 => hpkg (BitVec.eq_of_toNat_eq h0)
    refine ⟨fun hzero hfirst hpos hfree hfits => ?_, fun st hst hpkg hsame htot hat => ?_, fun st hst hpkg hgap => ?_⟩
    · have h0 : pkg.toNat = 0 := by rw [hzero]; rfl
      rw [h0, hfirst] at hfields
      rw [hfirst] at hdata h
      rw [h0] at h
      exact updStage_opens h hfields kind.isLt hlen hworks hrunning hpos htotal (by omega) hfree hfits
    · exact updStage_appends h hfields kind.isLt hlen hworks hrunning hdata hst (hname hpkg) (by rw [hsame]) htot hat
    · exact updStage_gap h hfields hlen hst (hname hpkg) hgap
  case apply =>
    have hupd : (accept (pkgReq a pkg) u).upd = s.upd := (accept_upd ..).trans (arrives_changes h.came).upd
    have hshown : Shown 0x0A (accept (pkgReq a pkg) u) := accept_upd_shown h.isCode
    refine ⟨fun st hst hjournal => ?_, fun st hnone hst hedit hpress hpending => ?_, updApply_unknown h⟩
    · obtain ⟨hpass, hfail⟩ := applySys_shows st hshown
      refine ⟨_, updApply_system h hworks hrole hrunning hst hjournal, hpass, fun f hf => ?_⟩
      obtain ⟨hstays, hcode, hstatus⟩ := hfail f hf
      exact ⟨hstays.trans (by rw [hupd, hjournal]), hcode, hstatus⟩
    · obtain ⟨hstays, hpass, hfail⟩ := applyApp_shows st hshown
      rw [hupd] at hstays hfail
      exact ⟨_, updApply_application h hworks hrole hrunning hnone hst hedit hpress hpending, hstays, hpass, hfail⟩
  case bank =>
    refine ⟨⟨_, congrArg Host.Outcome.next (if_pos hawake), bankWritten_holds hst hrunning hkind⟩,
      fun i => ⟨_, congrArg Host.Outcome.next (if_pos hawake), bankWritten_fails hst hrunning hkind i⟩⟩
  case activate =>
    refine ⟨fun st hst hjournal => updActivate_system h hworks hrole hrunning hst hjournal, fun hsys happ hholds => ⟨fun hset hjournal => ?_, fun hset => ?_⟩,
      updActivate_unknown h⟩
    · have hrun := updActivate_bank h hworks hrole hrunning hsys happ hholds
      rw [if_pos hset] at hrun
      exact ⟨_, hrun, activateBank_shows _ ((congrArg Upd.journal (arrives_changes h.came).upd).trans hjournal)⟩
    · have hrun := updActivate_bank h hworks hrole hrunning hsys happ hholds
      rw [if_neg (by rw [show bankSetOk (!s.upd.active) u = false from hset]; exact Bool.false_ne_true)] at hrun
      exact hrun
  case restore =>
    intro args all held
    refine ⟨fun h htot hstep => ?_, fun h m hm hok e he hfrom hto => ?_, fun h m hm hok htarget => ?_⟩
    · have hu := arrives_changes h.came
      have hall : restoreAll off data u = all := by
        unfold restoreAll
        rw [hu.upd]
      have hserved := exec_restoreCall (c := .restoreManifest via) (by decide) rfl hlen h hdead rfl
      have heq (hfits : all.length ≤ 928) := restoreManifest_eq (a := a) (op := 0) (u := u) hoff htot (hall ▸ hstep) (hall ▸ hfits)
      rw [hall] at heq
      refine ⟨fun hless => ?_, fun hwhole hbasic => ?_, fun e hwhole hbasic => ?_⟩
      · rw [hserved, heq (by omega), if_pos hless]
        rfl
      · have hbasic' : pkgBasic 0 none all (restoreHeld all u) = none := hbasic
        have hrun := heq (by omega)
        rw [if_neg (by omega), hbasic', Option.elim_none] at hrun
        refine ⟨_, hserved.trans (congrArg _ hrun), ?_⟩
        have hanswer (w : State) := respond_changes a 0 [] w
        have hrecord (w : State) := sj_changes 0xA08 0 (item (manSet all)) w
        rw [(hanswer _).upd, (hrecord _).upd, (hanswer _).power, (hrecord _).power]
        exact ⟨rfl, rfl, hu.power⟩
      · have hbasic' : pkgBasic 0 none all (restoreHeld all u) = some e := hbasic
        rw [hserved, heq (by omega), if_neg (by omega), hbasic', Option.elim_some]
    · rw [exec_restoreCall (c := .restoreData via) (by decide) rfl hlen h hdead rfl,
        restoreData_within (arrives_changes h.came) hm hok hoff htotal he hfrom hto]
    · exact ⟨_, exec_restoreCall (c := .restoreFinish via) (by decide) rfl hlen h hdead rfl,
        restoreFinish_shows (arrives_changes h.came) hm hok htarget _⟩

end
end Sys2Proof.Machine
end

section
/-! PROOF. LOAD_MOULD and REPRESS (R106, R108, R109). -/

namespace Sys2Proof.Machine

section
set_option Elab.async false

section
variable {via : Via} {a : Asked} {s u : State} {pkg : Word}

/-! ### LOAD_MOULD -/

theorem mouldRules_eq (h : Changes arrivalParts s u) : mouldRules (pkgReq a pkg) u =
    (inactiveHolds pkg.toNat u && sameCode s.upd.active (!s.upd.active) u) := by
  unfold mouldRules
  rw [pkgReq_pkg, h.upd]

theorem loadMould_unknown (h : Safety.Asks via 4 (leBytes 4 pkg.toNat) a s u)
    (hbad : inactiveHolds pkg.toNat u = false ∨ sameCode s.upd.active (!s.upd.active) u = false) :
    exec (.loadMould via) s = .next (respond a 0x10 [] u) := by
  refine exec_of_asks_against h (c := .loadMould via) (row := rowLoadMould) (argsOk := noArgs) (f := loadMould) (blockOk := mouldRules) rfl rfl
    (by rw [leBytes_length]; rfl) ?_ (by decide) (.inl rfl) (by rw [leBytes_length]; decide)
  refine (mouldRules_eq (arrives_changes h.came)).trans ?_
  rcases hbad with hbad | hbad
  · rw [hbad, Bool.false_and]
  · rw [hbad, Bool.and_false]

theorem exec_loadMould (h : Safety.Asks via 4 (leBytes 4 pkg.toNat) a s u)
    (hstate : s.power.state = .halt ∨ s.power.state = .safeService ∨ s.power.state = .run ∧ s.power.role = .pacer)
    (hholds : inactiveHolds pkg.toNat u = true) (hsame : sameCode s.upd.active (!s.upd.active) u = true) :
    exec (.loadMould via) s = .next (loadMould (pkgReq a pkg) u) := by
  refine exec_of_asks h (c := .loadMould via) rowLoadMould noArgs loadMould rfl ⟨rfl, by decide, fun _ => rfl⟩ rfl ?_
    (by rw [leBytes_length]; rfl) rfl ?_ (by decide) (.inl rfl) (by rw [leBytes_length]; decide)
  · rcases hstate with hhalt | hsafe | ⟨hrun, hpacer⟩
    · rw [legalColumn_halt hhalt]
      rfl
    · rw [legalColumn_safe hsafe]
      rfl
    · rw [legalColumn_pacer hrun hpacer]
      rfl
  · refine (mouldRules_eq (arrives_changes h.came)).trans ?_
    rw [hholds, hsame]
    rfl

theorem loadMould_invalid {f : MouldFail} (hactive : u.upd = s.upd) (hf : mouldValidate (mouldCtx (!s.upd.active) none u) = .error f) :
    loadMould (pkgReq a pkg) u = respond a 0x31 (leBytes 1 f.code) (mouldInvalid f a.path.toNat u) := by
  unfold loadMould
  dsimp only
  rw [hactive, hf]
  rfl

theorem loadMould_valid {m : Mould × MouldRest} (hactive : u.upd = s.upd) (hm : mouldValidate (mouldCtx (!s.upd.active) none u) = .ok m)
    (hset : bankSetOk (!s.upd.active) u = true) : loadMould (pkgReq a pkg) u = activateBank (pkgReq a pkg) u := by
  unfold loadMould
  dsimp only
  rw [hactive, hm]
  dsimp only
  rw [if_pos hset]

/-- An activated bank is tried by a restart (R443). -/
theorem activateBank_restarts {v : State} (r : Req) (h : v.upd.journal ≠ .patching) :
    (activateBank r v).power.state = .bringUp ∧ (activateBank r v).power.startKind = .restart ∧ (activateBank r v).upd.pending = true ∧
    (activateBank r v).upd.inUse = true ∧ (activateBank r v).upd.active = v.upd.active := by
  let w : State := { accept r v with upd := { (accept r v).upd with pending := true, attempts := 0 } }
  have hactive : w.upd.active = v.upd.active := by
    show (accept r v).upd.active = _
    rw [accept_upd]
  have hresumes : resumes (sendLeave 1 w) = false := by
    have hjournal : w.upd.journal = v.upd.journal := by
      show (accept r v).upd.journal = _
      rw [accept_upd]
    unfold resumes
    rw [(sendLeave_changes 1 w).upd, hjournal]
    exact decide_eq_false h
  obtain ⟨hstate, hkind⟩ := beginBringUp_opState .restart 0 hresumes
  obtain ⟨A, B, hupd⟩ := beginBringUp_upd .restart 0 hresumes
  rw [(sendLeave_changes 1 w).upd] at hupd
  have hdone := asyncDone_changes (nth 0 r.body 0) 0 (beginBringUp .restart 0 (sendLeave 1 w))
  obtain ⟨hkindDone, -⟩ := hdone.get .start
  have hactivates : activateBank r v = asyncDone (nth 0 r.body 0) 0 (beginBringUp .restart 0 (sendLeave 1 w)) := rfl
  rw [hactivates]
  refine ⟨(hdone.get .opState).trans hstate, hkindDone.trans hkind, ?_, ?_, ?_⟩
  · rw [hdone.upd, hupd]
    rfl
  · rw [hdone.upd, hupd]
    rfl
  · rw [hdone.upd, hupd]
    exact hactive

/-! ### REPRESS -/

/-- The arguments of a REPRESS. -/
def repressArg (mask : Nat) (pkg : Word) : Bytes := [BitVec.ofNat 8 (16 * mask), 0, 0, 0] ++ leBytes 4 pkg.toNat

theorem repressArg_mask (mask : Fin 16) : leAt (repressArg mask pkg) 0 1 = 16 * mask.val := by
  have h := mask.isLt
  simp only [repressArg, leAt, slice, leNat, List.cons_append, List.drop_zero, List.take_succ_cons, List.take_zero, BitVec.toNat_ofNat]
  omega

theorem repressArg_pkg (mask : Nat) : leAt (repressArg mask pkg) 4 4 = pkg.toNat := by
  rw [← leAt_drop]
  exact leAt_word pkg

theorem repressArg_length (mask : Nat) : (repressArg mask pkg).length = 8 := by
  rw [repressArg, List.length_append, leBytes_length]
  rfl

/-- A REPRESS that nothing bars starts with the first region of its mask (R108, R109). -/
theorem repress_begins (mask : Fin 16) (h : Safety.Asks via 5 (repressArg mask pkg) a s u)
    (hstate : s.power.state = .halt ∧ s.power.role = .none ∨
      s.power.state = .run ∧ s.power.role = .pacer ∧ s.sby.cond ≠ .resync ∧ s.edit.state ≠ .trial)
    (hpress : s.mld.repress = none) (hholds : inactiveHolds pkg.toNat u = true) (hsame : sameCode s.upd.active (!s.upd.active) u = true)
    {m : Mould} {r : MouldRest} (hm : mouldValidate (mouldCtx (!s.upd.active) ((restOf u).map fun x => (16 * mask.val, x)) u) = .ok (m, r)) :
    exec (.repress via) s =
      .next (beginRepress (16 * mask) (!s.upd.active) m r (accept { asked := a, body := askBody a (repressArg mask pkg) } u)) := by
  have hu := arrives_changes h.came
  have hmask := repressArg_mask (pkg := pkg) mask
  have hnext : exec (.repress via) s = .next (repressReq { asked := a, body := askBody a (repressArg mask pkg) } u) := by
    refine exec_of_asks h (c := .repress via) rowRepress repressArgs repressReq rfl ⟨rfl, by decide, fun _ => rfl⟩ rfl ?_
      (by rw [repressArg_length]; rfl) ?_ ?_ (by decide) (.inl rfl) (by rw [repressArg_length]; decide)
    · rcases hstate with ⟨hhalt, -⟩ | ⟨hrun, hpacer, -⟩
      · rw [legalColumn_halt hhalt]
        rfl
      · rw [legalColumn_pacer hrun hpacer]
        rfl
    · have hres : leAt (repressArg mask pkg) 1 3 = 0 := by
        simp [repressArg, leAt, slice, leNat]
      unfold repressArgs resv
      rw [hmask, hres, decide_eq_true (by omega), decide_eq_true rfl]
      rfl
    · unfold repressRules
      rw [show leAt ({ asked := a, body := askBody a (repressArg mask pkg) } : Req).args 4 4 = pkg.toNat from
        (congrArg (leAt · 4 4) (askBody_drop a _)).trans (repressArg_pkg _)]
      exact hholds
  have hfree : ¬ repressBarred u = true := by
    unfold repressBarred
    rw [hu.get .mld, hu.power, hu.get .sby, hu.get .edit, hpress]
    rcases hstate with ⟨-, hrole⟩ | ⟨-, -, hcond, htrial⟩
    · simp [hrole]
    · simp [hcond, htrial]
  rw [hnext]
  refine congrArg Host.Outcome.next ?_
  unfold repressReq
  dsimp only
  rw [if_neg hfree, show leAt ({ asked := a, body := askBody a (repressArg mask pkg) } : Req).args 0 1 = 16 * mask.val from
    (congrArg (leAt · 0 1) (askBody_drop a _)).trans hmask, hu.upd, hm]
  dsimp only
  rw [if_pos hsame]

end

end
end Sys2Proof.Machine
end

section
/-! PROOF. A re-press region by region (R110 to R113). -/

namespace Sys2Proof.Machine

section
set_option Elab.async false

/-! ### What the function of a region changes as it stops and starts -/

theorem noteAbort_changes (p n : Nat) (s : State) : Changes landParts s (noteAbort p s n) := by
  unfold noteAbort setTests
  exact .of

theorem testAbort_changes (s : State) : Changes landParts s (testAbort s) := by
  unfold testAbort
  split
  · exact .refl _ s
  refine .foldl (fun t p => .ite ?_ (.refl _ t)) _ _
  have hnoted : Changes landParts t ((underTest t p).foldl (noteAbort p) (txPush 3 p (commandFrame 0 3 0xFF 0 0) t)) :=
    (txPush_changes ..).mono.trans (.foldl (fun _ _ => noteAbort_changes ..) _ _)
  dsimp only
  generalize (underTest t p).foldl (noteAbort p) (txPush 3 p (commandFrame 0 3 0xFF 0 0) t) = v at hnoted ⊢
  split
  · exact hnoted.trans (sj_changes ..)
  · exact hnoted.trans ((drawn_changes _).trans (sj_changes ..))

theorem wSet_changes (w : BitVec 256) (s : State) : Changes [.acq] s (wSet w s) := by
  unfold wSet
  exact .of

/-- The mains as an event and a record tell it, and the tests that its failure ends (R255, R302). -/
theorem mainsChanged_changes (c : AcqCfg) (w : BitVec 256) (s : State) : Changes landParts s (mainsChanged c w s) := by
  have hfails (t : State) (b : Prop) [Decidable b] (tag : Word) (items : Bytes) :
      Changes landParts t (if b then sj 0x610 1 items (pushEvent 1 0x0C tag t) else t) :=
    .ite ((pushEvent_changes ..).mono.trans (sj_changes ..)) (.refl _ t)
  have haborts (t : State) (b : Prop) [Decidable b] : Changes landParts t (if b then testAbort t else t) :=
    .ite (testAbort_changes t) (.refl _ t)
  have hreturns (t : State) (b : Prop) [Decidable b] (tag : Word) (us : Option Nat) (items : Bytes) :
      Changes landParts t (if b then sj 0x611 0 items (pushEvent 2 0x0C tag { t with lb := { t.lb with mainsOkUs := us } }) else t) :=
    .ite ((((Changes.refl _ t).also [.lb]).trans (pushEvent_changes ..)).trans (sj_changes ..)) (.refl _ t)
  exact ((hfails ..).trans (haborts ..)).trans (hreturns ..)

theorem rearm_changes (c : AcqCfg) (s : State) : Changes [.acq] s (rearm c s) := by
  unfold rearm
  exact .ite .of .of

/-- What stops and starts with a region: its buses, the sampling, the reflex networks and the outputs that they hold. -/
def regionParts : List Part := .acq :: .rfx :: .outputs :: landParts

theorem samplingResume_changes (s : State) : Changes regionParts s (samplingResume s) := by
  have hcleared (t : State) (x : Acq) : Changes regionParts t { t with acq := x } := .of
  unfold samplingResume
  dsimp only
  split
  · exact ((hcleared ..).trans (mainsChanged_changes ..)).trans (rearm_changes ..)
  · exact hcleared ..

theorem portStop_changes (s : State) (p : Nat) : Changes landParts s (portStop s p) :=
  .ite (((modLx_changes ..).mono.trans (tmHalt_changes ..)).trans (lbChange_changes ..)) (.refl _ s)

theorem portStart_changes (m : Mould) (s : State) (p : Nat) : Changes landParts s (portStart m s p) := by
  have hcycle (t : State) (b : Prop) [Decidable b] (f : LbCtx → LbCtx) : Changes landParts t (if b then modLx p f t else t) :=
    .ite (modLx_changes ..).mono (.refl _ t)
  have hpressed : Changes landParts s (pressPorts [p] m s) := (pressPorts_changes ..).mono
  exact (hpressed.trans (hcycle ..)).trans (.ite (.ite (.refl _ _) (lbChange_changes ..)) (lbChange_changes ..))

/-! ### The state of a region (R110 to R112) -/

/-- A region as the configuration shows it: pressing, in use, or restoring; the Mould's parts that it carries are new or old. -/
structure RegionShown (s t : State) : Prop where
  rest : Changes (.mld :: regionParts) s t
  repress : t.mld.repress = s.mld.repress
  ok : t.mld.okCount = s.mld.okCount
  failed : t.mld.failCount = s.mld.failCount

namespace RegionShown

variable {s t u : State}

theorem refl (s : State) : RegionShown s s := ⟨.refl _ s, rfl, rfl, rfl⟩

theorem trans (h : RegionShown s t) (k : RegionShown t u) : RegionShown s u :=
  ⟨h.rest.trans k.rest, k.repress.trans h.repress, k.ok.trans h.ok, k.failed.trans h.failed⟩

theorem of_changes (h : Changes regionParts s t) : RegionShown s t := by
  have hmld := h.get .mld
  exact ⟨h.mono, by rw [hmld], by rw [hmld], by rw [hmld]⟩

theorem ite {b : Prop} [Decidable b] (h : RegionShown s t) (k : RegionShown s u) : RegionShown s (if b then t else u) := by
  split
  · exact h
  · exact k

end RegionShown

section
variable (k : Nat) (st : BitVec 4) (m : Mould) (r : MouldRest) (s : State)

theorem setRegion_shown : RegionShown s (setRegion k st s) := ⟨by unfold setRegion; exact .of, rfl, rfl, rfl⟩

theorem swapRegion_shown : RegionShown s (swapRegion k m r s) := by
  unfold swapRegion
  split
  · exact .refl s
  · exact ⟨.of, rfl, rfl, rfl⟩

theorem captureDrop_changes : Changes regionParts s (captureDrop s) := .ite .of (.refl _ s)

theorem holdReflex_changes : Changes regionParts s (holdReflex s) := by
  unfold holdReflex holdCommand
  exact .ite .of (.refl _ s)

theorem reflexStart_changes : Changes regionParts s (reflexStart s) := by
  have hreset : Changes regionParts s (reflexReset false s) := by
    unfold reflexReset
    exact .of
  exact hreset.trans (refreshOutputs_changes _)

theorem regionStop_shown : RegionShown s (regionStop k st s) := by
  have hports : Changes regionParts s ([2 * k, 2 * k + 1].foldl portStop s) := .foldl (fun _ _ => (portStop_changes ..).mono) _ _
  have hacq : Changes regionParts s (captureDrop (wSet (wLive s) s)) := (wSet_changes ..).mono.trans (captureDrop_changes _)
  exact .ite ((RegionShown.of_changes hports).trans (setRegion_shown ..))
    (.ite ((RegionShown.of_changes hacq).trans (setRegion_shown ..))
      ((RegionShown.of_changes (holdReflex_changes s)).trans (setRegion_shown ..)))

theorem regionStart_shown : RegionShown s (regionStart k m r s) := by
  have hset := (swapRegion_shown k m r s).trans (setRegion_shown k (if regionUsed m r k then 1 else 0) _)
  unfold regionStart
  dsimp only
  generalize setRegion k (if regionUsed m r k then 1 else 0) (swapRegion k m r s) = v at hset ⊢
  have hports : Changes regionParts v ([2 * k, 2 * k + 1].foldl (portStart m) v) := .foldl (fun _ _ => (portStart_changes ..).mono) _ _
  have hterms : Changes regionParts v (pressTerms [2 * k, 2 * k + 1] m v) := (pressTerms_changes ..).mono
  have hreflex : Changes regionParts v (showReflex r v) := (showReflex_changes ..).mono
  exact hset.trans (.ite (.ite (.of_changes hports) (.of_changes hterms))
    (.ite (.ite (.of_changes (samplingResume_changes v)) (.refl v))
      (.ite (.of_changes (hreflex.trans (reflexStart_changes _))) (.of_changes hreflex))))

end

/-! ### The steps of a re-press -/

theorem editSuperseded_changes (s : State) : Changes trialParts s (editSuperseded s) := by
  have hnone (t : State) : Changes trialParts t (editNone t) := by
    unfold editNone
    exact .of
  exact .ite (((abortTrial_changes ..).trans (hnone _)).trans (sj_changes ..)) (.refl _ s)

/-- The end of a re-press makes its Mould and its bank the ones in use (R111). -/
theorem repressOk_shows (x : Repress) (s : State) : (repressOk x s).mld.mould = some (x.mould, x.rest) ∧ (repressOk x s).mld.repress = none ∧
    (repressOk x s).upd.active = x.bank ∧ (repressOk x s).mld.okCount = satInc s.mld.okCount := by
  let v := showMould x.mould { s with
    upd := { s.upd with active := x.bank }
    mld := { s.mld with mould := some (x.mould, x.rest), repress := none, okCount := satInc s.mld.okCount } }
  have hrest : Changes (.async :: trialParts) v (repressOk x s) :=
    ((sj_changes 0x123 0 (item 0 ++ item 0 ++ item 0) v).mono.trans (editSuperseded_changes _)).trans (asyncDone_changes ..)
  rw [hrest.get .mld, hrest.upd]
  exact ⟨rfl, rfl, rfl, rfl⟩

/-- A re-press that ends with the old Mould counts as failed (R112). -/
theorem repressFailed_shows (k restored : Nat) (s : State) : (repressFailed k restored s).mld.repress = none ∧
    (repressFailed k restored s).mld.failCount = satInc s.mld.failCount := by
  let v : State := { s with mld := { s.mld with repress := none, failCount := satInc s.mld.failCount } }
  have hrest : Changes (.async :: bookParts) v (repressFailed k restored s) :=
    (sj_changes 0x123 2 (item 1 ++ item (4 + k) ++ item restored) v).mono.trans (asyncDoneFree_changes ..)
  rw [hrest.get .mld]
  exact ⟨rfl, rfl⟩

/-- A region that is next keeps the re-press under way. -/
theorem repressNext_goes {x : Repress} {k : Nat} {ks : List Nat} (h : x.todo = k :: ks) (s : State) :
    (repressNext x s).mld.repress = some x := by
  let v : State := { s with mld := { s.mld with repress := some x } }
  unfold repressNext
  rw [h]
  cases x.failed with
  | none => exact (regionStop_shown k 2 v).repress
  | some f => exact ((RegionShown.ite (setRegion_shown k 3 v) (regionStop_shown k 3 v) (b := k = f))).repress

theorem repressNext_ok {x : Repress} (htodo : x.todo = []) (hfailed : x.failed = none) (s : State) : repressNext x s = repressOk x s := by
  unfold repressNext
  rw [htodo, hfailed]

theorem repressNext_failed {x : Repress} {f : Nat} (htodo : x.todo = []) (hfailed : x.failed = some f) (s : State) :
    repressNext x s = repressFailed f x.restored s := by
  unfold repressNext
  rw [htodo, hfailed]

section
variable {s : State} {x : Repress} {k : Nat} {ks : List Nat}

theorem regionPressDone_forward (ok : Bool) (hx : s.mld.repress = some x) (htodo : x.todo = k :: ks) (hfailed : x.failed = none) :
    regionPressDone ok s = if ok then repressNext { x with todo := ks, done := k :: x.done } (regionStart k x.mould x.rest s)
      else repressNext { x with todo := k :: x.done, failed := some k } s := by
  unfold regionPressDone
  rw [hx]
  dsimp only
  rw [htodo, hfailed]

theorem regionPressDone_back {f : Nat} (ok : Bool) (hx : s.mld.repress = some x) (htodo : x.todo = k :: ks) (hfailed : x.failed = some f) :
    regionPressDone ok s = if ok then
        repressNext { x with todo := ks, restored := x.restored + 1 } (regionStart k (oldMould s).1 (oldMould s).2 s)
      else safeService 2 13 (setRegion k 4 (if k = 3 then holdCommand s else s)) := by
  unfold regionPressDone
  rw [hx]
  dsimp only
  rw [htodo, hfailed]

/-- A region that cannot be restored ends in Safe Service (R112). -/
theorem unrestored_safe (hrun : s.power.state = .run) :
    Safety.inSafeService 2 (safeService 2 13 (setRegion k 4 (if k = 3 then holdCommand s else s))) := by
  rw [safeService_of_entry]
  · exact enterSafe_inSafeService (by decide) (by decide) 13 _
  · refine .inr (.inl ?_)
    have hheld : Changes regionParts s (if k = 3 then holdCommand s else s) := by
      unfold holdCommand
      exact .ite .of (.refl _ s)
    exact (((RegionShown.of_changes hheld).trans (setRegion_shown k 4 _)).rest.get .opState).trans hrun

/-- REGION_PRESS_DONE carries a re-press to the new Mould, or back, or to Safe Service. -/
theorem regionPressDone_steps (ok : Bool) (hx : s.mld.repress = some x) (htodo : x.todo = k :: ks) :
    ∃ t, exec (.regionPressDone ok) s = .next t ∧
      (x.failed = none → ok = true → ks = [] → t.mld.mould = some (x.mould, x.rest) ∧ t.mld.repress = none ∧
        t.upd.active = x.bank ∧ t.mld.okCount = satInc s.mld.okCount) ∧
      (x.failed = none → ok = true → ks ≠ [] → t.mld.repress = some { x with todo := ks, done := k :: x.done }) ∧
      (x.failed = none → ok = false → t.mld.repress = some { x with todo := k :: x.done, failed := some k }) ∧
      (∀ j, x.failed = some j → ok = true → ks = [] → t.mld.repress = none ∧ t.mld.failCount = satInc s.mld.failCount) ∧
      (x.failed ≠ none → ok = false → s.power.state = .run → Safety.inSafeService 2 t) := by
  refine ⟨regionPressDone ok s, rfl, fun hnone hok hlast => ?_, fun hnone hok hmore => ?_, fun hnone hok => ?_,
    fun j hj hok hlast => ?_, fun hsome hok hrun => ?_⟩
  · have hstart := regionStart_shown k x.mould x.rest s
    rw [regionPressDone_forward ok hx htodo hnone, if_pos hok, repressNext_ok (x := { x with todo := ks, done := k :: x.done }) hlast hnone]
    obtain ⟨hmould, hrepress, hactive, hcount⟩ := repressOk_shows { x with todo := ks, done := k :: x.done } (regionStart k x.mould x.rest s)
    exact ⟨hmould, hrepress, hactive, hcount.trans (by rw [hstart.ok])⟩
  · obtain ⟨j, js, rfl⟩ := List.exists_cons_of_ne_nil hmore
    rw [regionPressDone_forward ok hx htodo hnone, if_pos hok]
    exact repressNext_goes (x := { x with todo := j :: js, done := k :: x.done }) rfl _
  · rw [regionPressDone_forward ok hx htodo hnone, if_neg (by rw [hok]; decide)]
    exact repressNext_goes (x := { x with todo := k :: x.done, failed := some k }) rfl _
  · have hstart := regionStart_shown k (oldMould s).1 (oldMould s).2 s
    rw [regionPressDone_back ok hx htodo hj, if_pos hok,
      repressNext_failed (x := { x with todo := ks, restored := x.restored + 1 }) hlast hj]
    obtain ⟨hrepress, hcount⟩ := repressFailed_shows j (x.restored + 1) (regionStart k (oldMould s).1 (oldMould s).2 s)
    exact ⟨hrepress, hcount.trans (by rw [hstart.failed])⟩
  · obtain ⟨f, hf⟩ := Option.ne_none_iff_exists'.1 hsome
    rw [regionPressDone_back ok hx htodo hf, if_neg (by rw [hok]; decide)]
    exact unrestored_safe hrun

end

end
end Sys2Proof.Machine
end

section
/-! PROOF. EDIT_LOAD, the trial's requests, EDIT_ADOPT and EDIT_DISCARD (R192 to R203), and all of O42. -/

namespace Sys2Proof.Machine

section
set_option Elab.async false

/-! ### EDIT_LOAD -/

theorem editVerifyNote_blocks (r : Except EditFail (List CodeBlock)) (s : State) :
    (editVerifyNote r s).prog.blocks = s.prog.blocks := by
  have hrejected (v : VerFail) : (programRejected v 2 s).prog.blocks = s.prog.blocks := by
    unfold programRejected
    rw [(sj_changes ..).get .prog]
    rfl
  unfold editVerifyNote
  split
  · rfl
  · split
    · exact hrejected _
    · split <;> rfl

/-- Where no pacer follows, a loaded edit is held at once, and a rejected one is told with its code. -/
theorem editLoadOwn_alone {p : Bytes} {s : State} (hrole : s.power.role = .solo) (hshown : Shown 6 s) :
    (∀ new, editCheck p s = .ok new → (editLoadOwn p s).edit.state = .loaded ∧ (editLoadOwn p s).edit.prog = new ∧
      (editLoadOwn p s).prog.blocks = s.prog.blocks) ∧
    (∀ f, editCheck p s = .error f → (editLoadOwn p s).edit.state = .none ∧
      (editLoadOwn p s).edit.result = BitVec.ofNat 8 f.code ∧ (editLoadOwn p s).mgt.asyncStatus = 0x31) := by
  let u : State := { s with edit := { s.edit with state := .loading } }
  have hloading : Changes [.edit] s { s with edit := { s.edit with state := .loading } } := .of
  refine ⟨fun new hok => ?_, fun f hf => ?_⟩
  · have hnote : Changes (.edit :: .prog :: bookParts) s (editVerifyNote (.ok new) u) :=
      hloading.mono.trans (editVerifyNote_changes ..)
    have hblocks : (editVerifyNote (.ok new) u).prog.blocks = s.prog.blocks := editVerifyNote_blocks _ u
    have halone : leadsPacer (editVerifyNote (.ok new) u) = false := by
      unfold leadsPacer
      rw [hnote.get .role, hrole]
      rfl
    have hloads : editLoadOwn p s = asyncDone 6 0 (editHeldNow p new (editVerifyNote (.ok new) u)) := by
      unfold editLoadOwn
      dsimp only
      rw [hok]
      dsimp only
      rw [if_neg (by rw [halone]; decide)]
    obtain ⟨hstate, hprog⟩ := editHeldNow_shows p new (editVerifyNote (.ok new) u)
    rw [hloads, asyncDone_edit]
    refine ⟨hstate, hprog, ?_⟩
    rw [(asyncDone_changes ..).get .prog]
    unfold editHeldNow
    dsimp only
    rw [(sj_changes ..).get .prog, ← hblocks]
    unfold writeEditBank putEdit bankPut copyBank flashWrite flashErase setBank
    dsimp only
    split <;> rfl
  · have hloads : editLoadOwn p s =
        editRejected f.code ((f.verify.map VerFail.code).getD 0) 0 (editVerifyNote (.error f) u) := by
      unfold editLoadOwn
      dsimp only
      rw [hf]
    obtain ⟨hstate, hresult⟩ :=
      editRejected_shows f.code ((f.verify.map VerFail.code).getD 0) 0 (editVerifyNote (.error f) u)
    rw [hloads]
    refine ⟨hstate, hresult, ?_⟩
    have hnote : Changes (.edit :: .prog :: bookParts) s (editVerifyNote (.error f) u) :=
      hloading.mono.trans (editVerifyNote_changes ..)
    generalize editVerifyNote (.error f) u = v at hnote
    have hdropped : Changes (.edit :: bookParts) v (sj 0x251 1 (item f.code ++ item ((f.verify.map VerFail.code).getD 0) ++ item 0)
        { editNone v with edit := { (editNone v).edit with result := BitVec.ofNat 8 f.code } }) :=
      ((editNone_changes v).mono.also [.edit]).trans (sj_changes ..)
    exact ((hshown.later hnote).later hdropped).done

section
variable {via : Via} {a : Asked} {s u : State} {pkg : Word}

theorem editRules_eq : editRules (pkgReq a pkg) u = (stagedEdit pkg.toNat u).isSome := by
  unfold editRules
  rw [pkgReq_pkg]

theorem editLoad_unstaged (h : Safety.Asks via 6 (leBytes 4 pkg.toNat) a s u) (hnone : stagedEdit pkg.toNat u = none) :
    exec (.editLoad via) s = .next (respond a 0x10 [] u) := by
  refine exec_of_asks_against h (c := .editLoad via) (row := rowEditLoad) (argsOk := noArgs) (f := editLoad) (blockOk := editRules) rfl rfl
    (by rw [leBytes_length]; rfl) ?_ (by decide) (.inl rfl) (by rw [leBytes_length]; decide)
  refine editRules_eq.trans ?_
  rw [hnone]
  rfl

theorem editLoad_loads (h : Safety.Asks via 6 (leBytes 4 pkg.toNat) a s u) (hrun : s.power.state = .run) (hsolo : s.power.role = .solo)
    {st : Staged} (hst : stagedEdit pkg.toNat u = some st) (hedit : s.edit.state = .none) (happ : appUnactivated s = false)
    (hmigrating : s.sbx.migrating = false) (hchain : (bankOf s.upd.active s).chain.length < 255) :
    exec (.editLoad via) s = .next (editLoadOwn st.data (accept (pkgReq a pkg) u)) := by
  have hu := arrives_changes h.came
  have hnext : exec (.editLoad via) s = .next (editLoad (pkgReq a pkg) u) := by
    refine exec_of_asks h (c := .editLoad via) rowEditLoad noArgs editLoad rfl ⟨rfl, by decide, fun _ => rfl⟩ rfl
      (by rw [legalColumn_solo hrun hsolo]; rfl) (by rw [leBytes_length]; rfl) rfl ?_ (by decide) (.inl rfl) (by rw [leBytes_length]; decide)
    refine editRules_eq.trans ?_
    rw [hst]
    rfl
  have hready : ¬ (u.edit.state ≠ .none ∨ appUnactivated u = true ∨ u.sbx.migrating = true) := by
    rw [hu.get .edit, hu.get .sbx, hedit, hmigrating, show appUnactivated u = false by
      rw [← happ]
      unfold appUnactivated bankOf
      rw [hu.upd]]
    decide
  have hroom : ¬ 255 ≤ (bankOf u.upd.active u).chain.length := by
    unfold bankOf at hchain ⊢
    rw [hu.upd]
    exact Nat.not_le_of_lt hchain
  rw [hnext]
  refine congrArg Host.Outcome.next ?_
  unfold editLoad
  rw [pkgReq_pkg, hst]
  dsimp only
  rw [if_neg hready, if_neg hroom]

theorem accept_shown_as {code : Byte} (r : Req) (hcode : nth 0 r.body 0 = code) : Shown code (accept r u) := hcode ▸ accept_shown r u

/-- EDIT_LOAD in a unit that runs alone. -/
theorem editLoad_shows (h : Safety.Asks via 6 (leBytes 4 pkg.toNat) a s u) (hrun : s.power.state = .run) (hsolo : s.power.role = .solo)
    {st : Staged} (hst : stagedEdit pkg.toNat u = some st) (hedit : s.edit.state = .none) (happ : appUnactivated s = false)
    (hmigrating : s.sbx.migrating = false) (hchain : (bankOf s.upd.active s).chain.length < 255) :
    ∃ t, exec (.editLoad via) s = .next t ∧
      (∀ new, editCheck st.data (accept (pkgReq a pkg) u) = .ok new → t.edit.state = .loaded ∧ t.edit.prog = new ∧
        t.prog.blocks = s.prog.blocks) ∧
      (∀ f, editCheck st.data (accept (pkgReq a pkg) u) = .error f → t.edit.state = .none ∧
        t.edit.result = BitVec.ofNat 8 f.code ∧ t.mgt.asyncStatus = 0x31) := by
  have hu := arrives_changes h.came
  have haccept := accept_changes (pkgReq a pkg) u
  have hrole : (accept (pkgReq a pkg) u).power.role = .solo := by rw [haccept.power, hu.power, hsolo]
  have hblocks : (accept (pkgReq a pkg) u).prog.blocks = s.prog.blocks := by rw [haccept.get .prog, hu.get .prog]
  obtain ⟨hok, hbad⟩ := editLoadOwn_alone (p := st.data) hrole (accept_shown_as (code := 6) (pkgReq a pkg) h.isCode)
  rw [hblocks] at hok
  exact ⟨_, editLoad_loads h hrun hsolo hst hedit happ hmigrating hchain, hok, hbad⟩

/-! ### Trials -/

/-- The arguments of EDIT_TRIAL. -/
def trialArg (op : Byte) (slot w : Nat) : Bytes := [op, BitVec.ofNat 8 slot] ++ leBytes 2 w

theorem trialArg_length (op : Byte) (slot w : Nat) : (trialArg op slot w).length = 4 := by
  rw [trialArg, List.length_append, leBytes_length]
  rfl

theorem trialArg_op (op : Byte) (slot w : Nat) : leAt (trialArg op slot w) 0 1 = op.toNat := leAt_cons_zero op _

theorem trialArg_slot (op : Byte) (slot : Fin 16) (w : Nat) : leAt (trialArg op slot w) 1 1 = slot.val := by
  have h := slot.isLt
  refine (leAt_one _ 1).trans ?_
  show (BitVec.ofNat 8 slot.val).toNat = slot.val
  rw [BitVec.toNat_ofNat]
  omega

theorem trialArg_window {w : Nat} (h : w ≤ 10000) (op : Byte) (slot : Nat) : leAt (trialArg op slot w) 2 2 = w := by
  rw [← leAt_drop]
  show leAt (leBytes 2 w) 0 2 = w
  rw [leAt_leBytes]
  omega

/-- A trial's request. -/
def trialReq (a : Asked) (op : Byte) (slot w : Nat) : Req := { asked := a, body := askBody a (trialArg op slot w) }

theorem exec_of_trial {op : Byte} {slot : Fin 16} {w : Nat} (hop : op.toNat ≤ 2) (hw : w ≤ 10000)
    (h : Safety.Asks via 7 (trialArg op slot w) a s u) (hrun : s.power.state = .run) (hleader : s.power.role = .leader)
    {c : Instr} {row : ReqRow} {f : Req → State → State} (hexec : exec c s = .next (request row trialArgs f via s))
    (hrow : row = { code := 7, op := some op.toNat, legal := [1, 2, 0, 2, 1, 1, 1] }) :
    exec c s = .next (f (trialReq a op slot w) u) := by
  subst hrow
  refine exec_of_asks h _ trialArgs f hexec ⟨rfl, (by decide : (7 : Nat) ≠ 0x20), (show ∀ k < 3, opKnown 7 k = true by decide) _ (by omega)⟩ rfl
    (by rw [legalColumn_leader hrun hleader]; rfl) ?_ ?_ rfl (by decide) (.inr (by rw [trialArg_op])) (by rw [trialArg_length]; decide)
  · rw [trialArg_op, trialArg_length]
    exact (show ∀ k < 3, argLenOk 7 k 4 = some true by decide) _ (by omega)
  · unfold trialArgs
    rw [trialArg_slot, trialArg_window hw, decide_eq_true (by omega), decide_eq_true hw]
    rfl

theorem trialReq_args (op : Byte) (slot w : Nat) : (trialReq a op slot w).args = trialArg op slot w := askBody_drop a _

theorem endTrial_counts (reason code : Nat) (s : State) : (endTrial reason code s).edit.trialRun = s.edit.trialRun ∧
    (endTrial reason code s).edit.trialDiff = s.edit.trialDiff ∧ (endTrial reason code s).edit.prog = s.edit.prog := by
  unfold endTrial
  dsimp only
  rw [(sj_changes ..).get .edit]
  exact ⟨rfl, rfl, rfl⟩

theorem trialStart_counts (window first : Nat) (s : State) :
    (trialStart window first s).edit.trialRun = 0 ∧ (trialStart window first s).edit.trialDiff = 0 := by
  unfold trialStart
  dsimp only
  split
  · obtain ⟨hrun, hdiff, -⟩ := endTrial_counts 0 0 { s with edit := { s.edit with
      state := .trial, window := window, trialRun := 0, trialDiff := 0, reports := [], trial := none, aborted := false
      trialFirst := BitVec.ofNat 64 first } }
    exact ⟨hrun, hdiff⟩
  · rw [(sj_changes ..).get .edit]
    exact ⟨rfl, rfl⟩

theorem dKib_arrived (h : Changes arrivalParts s u) : dKib u = dKib s := by
  unfold dKib restOf
  rw [h.get .mld]

theorem answerOk_edit (r : Req) (results : Bytes) (s : State) : (answerOk r results s).edit = s.edit :=
  (respond_changes r.asked 0 results s).get .edit

/-- EDIT_TRIAL START at a leader with a tracking pacer (R195, R197). -/
theorem trialStart_starts {slot : Fin 16} {w : Nat} (hw : w ≤ 10000) (h : Safety.Asks via 7 (trialArg 0 slot w) a s u)
    (hrun : s.power.state = .run) (hleader : s.power.role = .leader) (htrack : tracking s = true) (hedit : s.edit.state = .loaded)
    (hsize : dKib s ≤ 2048) : ∃ t, exec (.editTrialStart via) s = .next t ∧ t.edit.state = (if w = 0 then .ripe else .trial) ∧
      t.edit.window = w ∧ t.edit.trialRun = 0 ∧ t.edit.trialDiff = 0 := by
  have hu := arrives_changes h.came
  have hsettled : s.sbx.rsActive = false := by
    have hparts := htrack
    rw [tracking] at hparts
    simp only [hleader, decide_eq_true_eq] at hparts
    rcases hparts with ⟨hfalse, -⟩ | ⟨-, -, hactive, -⟩
    · cases hfalse
    · exact hactive
  have hready : ¬ (u.edit.state ≠ .loaded ∨ (!tracking u) = true ∨ u.sbx.rsActive = true ∨ 2048 < dKib u) := by
    rw [tracking_congr hu, htrack, hu.get .edit, hedit, hu.get .sbx, hsettled, dKib_arrived hu]
    simp only [ne_eq, not_true_eq_false, Bool.not_true, Bool.false_eq_true, false_or, not_lt]
    exact hsize
  have hnext := exec_of_trial (f := trialStartReq) (by decide) hw h hrun hleader (c := .editTrialStart via) (row := rowTrialStart) rfl rfl
  have hdoes : trialStartReq (trialReq a 0 slot w) u = answerOk (trialReq a 0 slot w) []
      (trialStart w (u.lap.num.toNat + 1) (editCommand (leBytes 1 1 ++ leBytes 2 w) u)) := by
    unfold trialStartReq
    rw [if_neg hready, trialReq_args, trialArg_window hw]
  generalize editCommand (leBytes 1 1 ++ leBytes 2 w) u = v at hdoes
  obtain ⟨hstate, hwindow⟩ := trialStart_shows w (u.lap.num.toNat + 1) v
  obtain ⟨hcount, hdiff⟩ := trialStart_counts w (u.lap.num.toNat + 1) v
  refine ⟨_, hnext.trans (congrArg _ hdoes), ?_⟩
  rw [answerOk_edit]
  exact ⟨hstate, hwindow, hcount, hdiff⟩

/-- EDIT_TRIAL ABORT ends the trial and keeps the edit. -/
theorem trialAbort_ends {slot : Fin 16} {w : Nat} (hw : w ≤ 10000) (h : Safety.Asks via 7 (trialArg 1 slot w) a s u)
    (hrun : s.power.state = .run) (hleader : s.power.role = .leader) (hedit : s.edit.state = .trial) :
    ∃ t, exec (.editTrialAbort via) s = .next t ∧ t.edit.state = .loaded ∧ t.edit.abort = 1 ∧ t.edit.prog = s.edit.prog := by
  have hu := arrives_changes h.came
  have hsent : Changes [.outRest] u (editCommand (leBytes 1 2) u) := syncControl_changes ..
  have hnext := exec_of_trial (f := trialAbortReq) (by decide) hw h hrun hleader (c := .editTrialAbort via) (row := rowTrialAbort) rfl rfl
  have hsame : (editCommand (leBytes 1 2) u).edit = s.edit := (hsent.get .edit).trans (hu.get .edit)
  have hdoes : trialAbortReq (trialReq a 1 slot w) u = answerOk (trialReq a 1 slot w) [] (endTrial 1 0 (editCommand (leBytes 1 2) u)) := by
    unfold trialAbortReq abortTrial
    rw [if_neg (by rw [hu.get .edit, hedit]; decide), if_pos (by rw [hsame, hedit])]
  obtain ⟨hstate, habort, -⟩ := endTrial_shows 1 0 (editCommand (leBytes 1 2) u)
  obtain ⟨-, -, hprog⟩ := endTrial_counts 1 0 (editCommand (leBytes 1 2) u)
  refine ⟨_, hnext.trans (congrArg _ hdoes), ?_⟩
  rw [answerOk_edit]
  exact ⟨hstate, habort, hprog.trans (by rw [hsame])⟩

/-- Where a leader asks its pacer for the report of a slot, and where it holds the reports itself (R199). -/
theorem trialReport_answers {slot : Fin 16} (h : Safety.Asks via 7 (trialArg 2 slot 0) a s u) (hrun : s.power.state = .run)
    (hleader : s.power.role = .leader)
    (hmay : s.edit.state ∈ [.trial, .ripe] ∨ s.edit.state = .loaded ∧ s.edit.aborted = true) :
    (s.sbx.migrating = false → s.edit.reports = [] → exec (.editTrialReport via) s =
      .next (editCommand ([4] ++ [BitVec.ofNat 8 slot]) { u with px := { u.px with reportTo := u.px.reportTo ++ [a] } })) ∧
    (s.sbx.migrating = true ∨ s.edit.reports ≠ [] →
      exec (.editTrialReport via) s = .next (respond a 0 (s.edit.reports.getD slot (zeros 1056)) u)) := by
  have hu := arrives_changes h.came
  have hnext := exec_of_trial (f := trialReportReq) (by decide) (Nat.zero_le _) h hrun hleader (c := .editTrialReport via)
    (row := rowTrialReport) rfl rfl
  have hallowed : ¬ (!(decide (u.edit.state = .trial) || decide (u.edit.state = .ripe) ||
      (decide (u.edit.state = .loaded) && u.edit.aborted))) = true := by
    rw [hu.get .edit]
    simp only [List.mem_cons, List.not_mem_nil, or_false] at hmay
    rcases hmay with (h | h) | ⟨h, ha⟩
    · simp [h]
    · simp [h]
    · simp [h, ha]
  have hleads : leadsPacer u = !s.sbx.migrating := by
    unfold leadsPacer
    rw [hu.power, hleader, hu.get .sbx]
    rfl
  refine ⟨fun hstays hempty => ?_, fun hown => ?_⟩
  · rw [hnext]
    refine congrArg Host.Outcome.next ?_
    unfold trialReportReq
    dsimp only
    rw [if_neg hallowed, if_pos ⟨by rw [hleads, hstays]; rfl, by rw [hu.get .edit, hempty]⟩, trialReq_args, trialArg_slot]
    rfl
  · rw [hnext]
    refine congrArg Host.Outcome.next ?_
    unfold trialReportReq
    dsimp only
    rw [if_neg hallowed, if_neg, trialReq_args, trialArg_slot, reportSlot, hu.get .edit]
    · rfl
    · rw [hleads, hu.get .edit]
      rintro ⟨hstays, hempty⟩
      rcases hown with hmig | hheld
      · rw [hmig] at hstays
        cases hstays
      · exact hheld hempty

end

end
end Sys2Proof.Machine
end

section
/-! PROOF. EDIT_ADOPT and EDIT_DISCARD (R195, R201 to R203), and O42. -/

namespace Sys2Proof.Machine

section
set_option Elab.async false

section
variable {via : Via} {a : Asked} {s u : State} {pkg : Word}

/-- A request of EDIT_ADOPT: its operation and three reserved bytes. -/
def adoptReq (a : Asked) (op : Byte) : Req := { asked := a, body := askBody a [op, 0, 0, 0] }

theorem legalColumn_adopts (hstate : s.power.state = .halt ∨ s.power.state = .run ∧ s.power.role ≠ .pacer) :
    nth 1 [1, 0, 0, 2, 1, 0, 1] (legalColumn s) = 0 := by
  rcases hstate with hhalt | ⟨hrun, hrole⟩
  · rw [legalColumn_halt hhalt]
    rfl
  · by_cases hleader : s.power.role = .leader
    · rw [legalColumn_leader hrun hleader]
      rfl
    · have hcol : legalColumn s = 1 := by
        rw [legalColumn, hrun]
        exact (if_neg hleader).trans (if_neg hrole)
      rw [hcol]
      rfl

theorem exec_editAdopt (h : Safety.Asks via 8 [0, 0, 0, 0] a s u)
    (hstate : s.power.state = .halt ∨ s.power.state = .run ∧ s.power.role ≠ .pacer) :
    exec (.editAdopt via) s = .next (editAdoptReq (adoptReq a 0) u) :=
  exec_of_asks h (c := .editAdopt via) rowEditAdopt adoptArgs editAdoptReq rfl ⟨rfl, by decide, rfl⟩ rfl (legalColumn_adopts hstate)
    rfl rfl rfl (by decide) (.inr rfl) (by decide)

theorem exec_editDiscard (h : Safety.Asks via 8 [1, 0, 0, 0] a s u)
    (hstate : s.power.state = .halt ∨ s.power.state = .run ∧ s.power.role ≠ .pacer) :
    exec (.editDiscard via) s = .next (editDiscardReq (adoptReq a 1) u) :=
  exec_of_asks h (c := .editDiscard via) rowEditDiscard adoptArgs editDiscardReq rfl ⟨rfl, by decide, rfl⟩ rfl (legalColumn_adopts hstate)
    rfl rfl rfl (by decide) (.inr rfl) (by decide)

/-- What the acceptance of an EDIT_ADOPT leaves. -/
theorem adopt_accepted (hu : Changes arrivalParts s u) :
    Changes (.svc :: .pxPending :: .async :: respondParts) s (accept (adoptReq a 0) u) :=
  hu.mono.trans (accept_changes ..)

theorem editAdoptReq_accepts (hu : Changes arrivalParts s u)
    (hwant : s.edit.state = if tracking s then .ripe else .loaded) : ¬ u.edit.state ≠ (if tracking u then .ripe else .loaded) := by
  rw [tracking_congr hu, hu.get .edit, hwant]
  exact not_not_intro rfl

/-- Adoption makes the edited program run from the other bank and ends its request. -/
theorem adoptEdit_shows {v : State} (hshown : Shown 8 v) :
    (adoptEdit v).prog.blocks = v.edit.prog ∧ (adoptEdit v).prog.progHash = v.edit.newHash ∧ (adoptEdit v).upd.active = (!v.upd.active) ∧
    (adoptEdit v).edit.state = .none ∧ (adoptEdit v).mgt.asyncStatus = 0 := by
  have heq : ∃ items w, adoptEdit v = asyncDone 8 0 (sj 0x254 0 items w) ∧ w.prog.blocks = v.edit.prog ∧ w.prog.progHash = v.edit.newHash ∧
      w.upd.active = (!v.upd.active) ∧ w.edit.state = .none ∧ Changes adoptParts v w ∧ w.mgt = v.mgt :=
    ⟨_, _, rfl, rfl, rfl, rfl, rfl, .of, rfl⟩
  obtain ⟨items, w, heq, hblocks, hhash, hactive, hstate, -, hmgt⟩ := heq
  have hnoted := sj_changes 0x254 0 items w
  have hdone := asyncDone_changes 8 0 (sj 0x254 0 items w)
  have hw : Shown 8 w := by
    unfold Shown asyncPath at hshown ⊢
    rw [hmgt]
    exact hshown
  rw [heq]
  refine ⟨?_, ?_, ?_, ?_, (hw.later hnoted).done⟩
  · rw [hdone.get .prog, hnoted.get .prog, hblocks]
  · rw [hdone.get .prog, hnoted.get .prog, hhash]
  · rw [hdone.upd, hnoted.upd, hactive]
  · rw [hdone.get .edit, hnoted.get .edit, hstate]

theorem editAdopt_halt (h : Safety.Asks via 8 [0, 0, 0, 0] a s u) (hhalt : s.power.state = .halt) (htrack : tracking s = false)
    (hedit : s.edit.state = .loaded) : ∃ t, exec (.editAdopt via) s = .next t ∧ t.prog.blocks = s.edit.prog ∧
      t.prog.progHash = s.edit.newHash ∧ t.upd.active = (!s.upd.active) ∧ t.edit.state = .none ∧ t.mgt.asyncStatus = 0 := by
  have hu := arrives_changes h.came
  have haccepted := adopt_accepted (a := a) hu
  have hdoes : editAdoptReq (adoptReq a 0) u = adoptEdit (accept (adoptReq a 0) u) := by
    unfold editAdoptReq
    dsimp only
    rw [if_neg (editAdoptReq_accepts hu (by rw [htrack]; exact hedit)), if_pos (by rw [hu.power, hhalt])]
  have hshows := adoptEdit_shows (accept_shown_as (u := u) (code := 8) (adoptReq a 0) h.isCode)
  rw [haccepted.get .edit, haccepted.upd] at hshows
  exact ⟨_, (exec_editAdopt h (.inl hhalt)).trans (congrArg _ hdoes), hshows⟩

/-- With a tracking pacer the lap of the adoption is agreed first (R201). -/
theorem editAdopt_leader (h : Safety.Asks via 8 [0, 0, 0, 0] a s u) (hrun : s.power.state = .run) (hleader : s.power.role = .leader)
    (htrack : tracking s = true) (hedit : s.edit.state = .ripe) :
    exec (.editAdopt via) s = .next { accept (adoptReq a 0) u with edit := { s.edit with
      state := .adopting, lap := s.lap.num + 3, tries := 0, confirmed := false, acked := false, adoptNow := false } } := by
  have hu := arrives_changes h.came
  have haccepted := adopt_accepted (a := a) hu
  have hedits : (accept (adoptReq a 0) u).edit = s.edit := haccepted.get .edit
  have hnum : (accept (adoptReq a 0) u).lap.num = s.lap.num := haccepted.get .lapNum
  rw [exec_editAdopt h (.inr ⟨hrun, by rw [hleader]; decide⟩)]
  refine congrArg Host.Outcome.next ?_
  unfold editAdoptReq
  dsimp only
  rw [if_neg (editAdoptReq_accepts hu (by rw [htrack]; exact hedit)), if_neg (by rw [hu.power, hrun]; decide),
    if_pos ((tracking_congr hu).trans htrack), hedits, hnum]

/-- Alone the next freeze adopts (R203). -/
theorem editAdopt_solo (h : Safety.Asks via 8 [0, 0, 0, 0] a s u) (hrun : s.power.state = .run) (hsolo : s.power.role = .solo)
    (hedit : s.edit.state = .loaded) :
    exec (.editAdopt via) s = .next { accept (adoptReq a 0) u with edit := { s.edit with
      state := .adopting, adoptNow := true, confirmed := false, lap := s.lap.num + 1 } } := by
  have hu := arrives_changes h.came
  have haccepted := adopt_accepted (a := a) hu
  have hedits : (accept (adoptReq a 0) u).edit = s.edit := haccepted.get .edit
  have hnum : (accept (adoptReq a 0) u).lap.num = s.lap.num := haccepted.get .lapNum
  have halone : tracking s = false := by
    rw [tracking]
    simp [hsolo]
  rw [exec_editAdopt h (.inr ⟨hrun, by rw [hsolo]; decide⟩)]
  refine congrArg Host.Outcome.next ?_
  unfold editAdoptReq
  dsimp only
  rw [if_neg (editAdoptReq_accepts hu (by rw [halone]; exact hedit)), if_neg (by rw [hu.power, hrun]; decide),
    if_neg (by rw [tracking_congr hu, halone]; decide), hedits, hnum]

/-- A discarded edit leaves the running program, and an empty inactive bank (R195). -/
theorem editDiscard_drops (h : Safety.Asks via 8 [1, 0, 0, 0] a s u) (hrun : s.power.state = .run) (hrole : s.power.role ≠ .pacer)
    (hedit : s.edit.state ∈ [.loaded, .trial, .ripe]) : ∃ t, exec (.editDiscard via) s = .next t ∧ t.edit.state = .none ∧
      bankOf (!s.upd.active) t = {} ∧ t.prog = s.prog := by
  have hu := arrives_changes h.came
  let v := abortTrial 1 u
  let w := if leadsPacer v then editCommand (leBytes 1 3) v else v
  have hw : Changes (.svc :: .pxPending :: .outRest :: trialParts) s w :=
    (hu.mono.trans (abortTrial_changes 1 u)).trans (.ite (syncControl_changes ..) (.refl _ v))
  have hheld : u.edit.state = .loaded ∨ u.edit.state = .trial ∨ u.edit.state = .ripe := by
    rw [hu.get .edit]
    simpa using hedit
  have hdoes : editDiscardReq (adoptReq a 1) u = answerOk (adoptReq a 1) [] (editDiscarded 0 w) := by
    unfold editDiscardReq
    rw [if_pos hheld]
  have hanswer : Changes respondParts (editDiscarded 0 w) (answerOk (adoptReq a 1) [] (editDiscarded 0 w)) := respond_changes ..
  have hdropped : Changes (.updRest :: .edit :: bookParts) w (editDiscarded 0 w) :=
    ((emptyInactive_changes w).mono.trans (editNone_changes _)).trans (sj_changes ..)
  obtain ⟨hstate, hbank⟩ := editDiscarded_shows 0 w
  rw [hw.upd] at hbank
  refine ⟨_, (exec_editDiscard h (.inr ⟨hrun, hrole⟩)).trans (congrArg _ hdoes), ?_, ?_, ?_⟩
  · rw [hanswer.get .edit, hstate]
  · exact (bankOf_congr (by rw [hanswer.upd]) (by rw [hanswer.upd]) _).trans hbank
  · rw [hanswer.get .prog, hdropped.get .prog, hw.get .prog]

end

/-- Settles O42: the Mould's requests, the regions of a re-press, and the edit's requests, each by the lemma of its function. -/
theorem mouldsAndEditsAreLoadedTriedAndAdopted : Obligations.MouldsAndEditsAreLoadedTriedAndAdopted := by
  intro via a s u pkg v accepted b
  refine ⟨fun h hstate => ⟨fun hbad => loadMould_unknown h hbad, fun hholds hsame => ⟨fun f hf => ?invalid, fun m hm hset hjournal => ?valid⟩⟩,
    fun mask h hstate hpress hholds hsame m r hm => repress_begins mask h hstate hpress hholds hsame hm,
    fun k ks x ok hx htodo => regionPressDone_steps ok hx htodo,
    fun h hrun hsolo => ⟨fun hnone => editLoad_unstaged h hnone, fun st hst hedit happ hmigrating hchain =>
      editLoad_shows h hrun hsolo hst hedit happ hmigrating hchain⟩,
    fun slot w hw hrun hleader htrack => ⟨fun h hedit hsize => trialStart_starts hw h hrun hleader htrack hedit hsize,
      fun h hedit => trialAbort_ends hw h hrun hleader hedit⟩,
    fun slot h hrun hleader hmay => trialReport_answers h hrun hleader hmay,
    fun h => ⟨fun hhalt htrack hedit => editAdopt_halt h hhalt htrack hedit,
      fun hrun hleader htrack hedit => editAdopt_leader h hrun hleader htrack hedit,
      fun hrun hsolo hedit => editAdopt_solo h hrun hsolo hedit⟩,
    fun h hrun hrole hedit => editDiscard_drops h hrun hrole hedit⟩
  case invalid =>
    rw [exec_loadMould h hstate hholds hsame, loadMould_invalid (arrives_changes h.came).upd hf]
  case valid =>
    have hupd := (arrives_changes h.came).upd
    obtain ⟨hbegun, hkind, hpending, hinUse, hactive⟩ := activateBank_restarts (v := u) (pkgReq a pkg) (by rw [hupd]; exact hjournal)
    refine ⟨_, (exec_loadMould h hstate hholds hsame).trans (congrArg _ (loadMould_valid hupd hm hset)), hbegun, hkind, hpending, hinUse, ?_⟩
    rw [hactive, hupd]

end
end Sys2Proof.Machine
end

section
/-! PROOF. Learning that fails in one pipeline while the other one is rehashed (R319, R330). -/

namespace Sys2Proof.Machine

section
set_option Elab.async false

/-- An entry that stands in the source's bucket, of another station. -/
def strangerEntry (n : Nat) : MacEntry := { mac := BitVec.ofNat 48 (0x100 + n), vid := 1, ports := 4, valid := true }

/-- A switch in operation whose pipeline W is rehashed. In pipeline E the bucket of station 02:00:00:00:00:01 is full, and station
02:00:00:00:00:02 is known at BB1. -/
def rehashingOtherPipeline : State := { State.reset with
  power := { State.reset.power with pdOn := 0x040 }
  sw := { State.reset.sw with ports := [{ up := true }, { up := true }, { up := true }, {}, {}] }
  tbl := { State.reset.tbl with
    rehash := some (true, 0)
    e := { State.reset.tbl.e with macs := [(3072, strangerEntry 0), (3073, strangerEntry 1), (3074, strangerEntry 2), (3075, strangerEntry 3),
      (3468, { mac := 0x020000000002, vid := 1, ports := 2, valid := true })] } } }

/-- A frame from the one station to the other, with its FCS. -/
def frameToKnownStation : Bytes :=
  [0x02, 0, 0, 0, 0, 0x02] ++ [0x02, 0, 0, 0, 0, 0x01] ++ [0x12, 0x34] ++ zeros 50

/-- After an instruction that comes to a next state: how often BB0 has flooded, and where pipeline E finds the station. -/
def nextFlooded : Result → Option (Half × Option Nat)
  | .next t => some ((nth {} t.sw.ports 0).flooded, macFind (pipeOf false t) 0x020000000002 1)
  | _ => none

theorem knownStation_flooded : nextFlooded (exec (.bbFrameReceived 0 true frameToKnownStation 0 []) rehashingOtherPipeline) =
    some (1, some 3468) := by decide +kernel

/-- Refutes O54: its `full` holds only while no REHASH runs at all, but the model defers learning in the pipeline that is rehashed alone.
While the other one is rehashed, learning of a source whose bucket is full fails, and the frame is flooded though its destination
is known. -/
theorem not_backboneFramesAreLearnedAndFlooded : ¬ Obligations.BackboneFramesAreLearnedAndFlooded := by
  intro h
  obtain ⟨-, -, -, -, -, -, hentered, -⟩ := h 0 true frameToKnownStation 0 [] rehashingOtherPipeline
  obtain ⟨-, -, hways, -⟩ := hentered (by decide +kernel) (by decide +kernel) (by decide +kernel) (by decide +kernel) (by decide +kernel)
  obtain ⟨-, hunicast, -⟩ := hways {} (by decide +kernel)
  obtain ⟨t, ht, -, -, hcount⟩ := hunicast (by decide +kernel) (by decide +kernel) (by decide +kernel) (by decide +kernel)
  have hshows := knownStation_flooded
  rw [ht] at hshows
  obtain ⟨hflooded, hfound⟩ := Prod.mk.inj (Option.some.inj hshows)
  have hcounted := hcount (by decide +kernel)
  have hlearning : ¬ (rehashingOtherPipeline.tbl.rehash = none) := by decide
  have hkey : dstOf { innerOf frameToKnownStation with vid := 1 } = 0x020000000002 := by decide +kernel
  rw [if_neg] at hcounted
  · exact absurd (hcounted.symm.trans hflooded) (by decide +kernel)
  · rw [if_neg (fun hfull => hlearning hfull.1.2.2)]
    intro hnone
    have hmissed : macFind (pipeOf false t) (dstOf { innerOf frameToKnownStation with vid := 1 }) 1 = none := Option.map_eq_none_iff.1 hnone
    rw [hkey, hfound] at hmissed
    cases hmissed

end
end Sys2Proof.Machine
end

section
/-! PROOF. The half-cycle windows of Mains Watch (R50, R253 to R255). -/

namespace Sys2Proof.Machine

section
set_option Elab.async false

/-! ### The root of a mean square (R254) -/

/-- The bits of the root found from bit 31 down to bit 32 − j. -/
def rootTo (n j : Nat) : Nat := (List.range j).foldl (fun r i => if (r + 2 ^ (31 - i)) * (r + 2 ^ (31 - i)) ≤ n then r + 2 ^ (31 - i) else r) 0

theorem rootTo_bounds {n : Nat} (h : n < 2 ^ 64) {j : Nat} (hj : j ≤ 32) :
    rootTo n j * rootTo n j ≤ n ∧ n < (rootTo n j + 2 ^ (32 - j)) * (rootTo n j + 2 ^ (32 - j)) := by
  induction j with
  | zero => exact ⟨Nat.zero_le _, by simpa [rootTo] using h⟩
  | succ j ih =>
    obtain ⟨hlow, hhigh⟩ := ih (by omega)
    have hstep : rootTo n (j + 1) = if (rootTo n j + 2 ^ (31 - j)) * (rootTo n j + 2 ^ (31 - j)) ≤ n then rootTo n j + 2 ^ (31 - j)
        else rootTo n j := by
      unfold rootTo
      rw [List.range_succ, List.foldl_append]
      rfl
    have hpow : 2 ^ (32 - j) = 2 ^ (31 - j) + 2 ^ (31 - j) := by
      rw [show 32 - j = 31 - j + 1 by omega, Nat.pow_succ]
      omega
    rw [hstep, show 32 - (j + 1) = 31 - j by omega]
    split
    · next hle => exact ⟨hle, by rw [Nat.add_assoc, ← hpow]; exact hhigh⟩
    · next hgt => exact ⟨hlow, Nat.lt_of_not_le hgt⟩

theorem rootOf_bounds {n : Nat} (h : n < 2 ^ 64) : rootOf n * rootOf n ≤ n ∧ n < (rootOf n + 1) * (rootOf n + 1) :=
  rootTo_bounds h (Nat.le_refl 32)

/-- The root of a quotient, told without the quotient. -/
theorem rootOf_div {m n : Nat} (hn : 0 < n) (h : m / n < 2 ^ 64) :
    rootOf (m / n) * rootOf (m / n) * n ≤ m ∧ m < (rootOf (m / n) + 1) * (rootOf (m / n) + 1) * n := by
  obtain ⟨hlow, hhigh⟩ := rootOf_bounds h
  exact ⟨(Nat.le_div_iff_mul_le hn).1 hlow, (Nat.div_lt_iff_lt_mul hn).1 hhigh⟩

/-- The RMS of a window is the root, or where it is not exact the next value (log 14). -/
theorem windowRms_bounds {sumSq n : Nat} (hn : 0 < n) (h : sumSq * 65536 < n * 2 ^ 48) : ∃ q : Nat, q * q * n ≤ sumSq * 65536 ∧
    sumSq * 65536 < (q + 1) * (q + 1) * n ∧ (windowRms sumSq n = q ∨ windowRms sumSq n = q + 1 ∧ q * q * n ≠ sumSq * 65536) := by
  have hdiv : sumSq * 65536 / n < 2 ^ 64 := Nat.lt_of_lt_of_le ((Nat.div_lt_iff_lt_mul hn).2 (show sumSq * 65536 < 2 ^ 48 * n by omega)) (by decide)
  obtain ⟨hlow, hhigh⟩ := rootOf_div hn hdiv
  refine ⟨rootOf (sumSq * 65536 / n), hlow, hhigh, ?_⟩
  unfold windowRms
  dsimp only
  split
  · exact .inl rfl
  · next hne =>
    split
    · exact .inr ⟨rfl, hne⟩
    · exact .inl rfl

/-! ### The bits that a window leaves (R254, R255) -/

theorem getLsbD_setField_low {w : Nat} (v : BitVec w) (i n x : Nat) {j : Nat} (h : j < i) : (setField v i n x).getLsbD j = v.getLsbD j := by
  unfold setField
  rw [BitVec.getLsbD_or, BitVec.getLsbD_and, BitVec.getLsbD_not, BitVec.getLsbD_ofNat, BitVec.getLsbD_ofNat,
    Nat.testBit_mul_two_pow, Nat.testBit_mul_two_pow, decide_eq_false (Nat.not_le.2 h)]
  by_cases hj : j < w
  · simp [hj]
  · simp [hj, BitVec.getLsbD_of_ge v j (Nat.le_of_not_lt hj)]

/-- What the phases' bits leave of Mains Watch. -/
theorem phaseShown (c : AcqCfg) (p : Nat) (y : Phase) (s : State) : let t := mainsW c (setPhase p y s)
    t.acq.hcRms = s.acq.hcRms ∧ t.acq.wins = s.acq.wins ∧ t.acq.ovrNow = s.acq.ovrNow ∧ t.acq.ovrSeen = s.acq.ovrSeen ∧
    t.acq.capture = s.acq.capture ∧ t.dio = s.dio ∧ ∀ j < 32, t.acq.w.getLsbD j = s.acq.w.getLsbD j := by
  have hset : (setPhase p y s).acq.hcRms = s.acq.hcRms ∧ (setPhase p y s).acq.wins = s.acq.wins ∧ (setPhase p y s).acq.ovrNow = s.acq.ovrNow ∧
      (setPhase p y s).acq.ovrSeen = s.acq.ovrSeen ∧ (setPhase p y s).acq.capture = s.acq.capture ∧ (setPhase p y s).dio = s.dio ∧
      (setPhase p y s).acq.w = s.acq.w := by
    unfold setPhase
    split_ifs <;> exact ⟨rfl, rfl, rfl, rfl, rfl, rfl, rfl⟩
  obtain ⟨hrms, hwins, hnow, hseen, hcapture, hdio, hw⟩ := hset
  refine ⟨hrms, hwins, hnow, hseen, hcapture, hdio, fun j hj => ?_⟩
  unfold mainsW wSet
  dsimp only
  rw [getLsbD_setBit _ _ _ _ (by decide), if_neg (by omega), getLsbD_setBit _ _ _ _ (by decide), if_neg (by omega),
    getLsbD_setField_low _ _ _ _ hj, hw]

theorem phaseOf_setPhase (p : Fin 3) (q : Nat) (hq : q < 3) (y : Phase) (s : State) :
    phaseOf (setPhase q y s) p = if p.val = q then y else phaseOf s p := by
  have hall : ∀ (p : Fin 3) (q : Fin 3), phaseOf (setPhase q y s) p = if p.val = q.val then y else phaseOf s p := by
    intro p q
    fin_cases p <;> fin_cases q <;> rfl
  exact hall p ⟨q, hq⟩

/-- What the end of a window leaves of Mains Watch and the field. -/
structure WindowShown (c : AcqCfg) (ch rms : Nat) (cross ovr : Bool) (s t : State) : Prop where
  wins : t.acq.wins = s.acq.wins
  value : t.acq.hcRms = s.acq.hcRms.set ch (BitVec.ofNat 24 rms)
  low : t.acq.w.getLsbD ch = decide (rms < 256 * (nth {} c.ch ch).lowTh)
  high : t.acq.w.getLsbD (8 + ch) = (decide ((nth {} c.ch ch).highTh ≠ 0) && decide (256 * (nth {} c.ch ch).highTh < rms))
  saturated : t.acq.w.getLsbD (16 + ch) = ovr
  crossed : t.acq.w.getLsbD (24 + ch) = cross
  now : t.acq.ovrNow.getLsbD ch = ovr
  seen : t.acq.ovrSeen.getLsbD ch = (ovr || s.acq.ovrSeen.getLsbD ch)
  phase : ∀ p : Fin 3, phaseOf t p = if phaseOn c p && decide (voltCh c p = ch) then
    phaseStep c rms (nth {} c.ch ch).lowTh (nth {} c.ch ch).retTh (phaseOf s p) else phaseOf s p
  capture : t.acq.capture = s.acq.capture
  dio : t.dio = s.dio

section
variable (c : AcqCfg) {ch : Nat} (rms : Nat) (cross ovr : Bool) (s : State)

/-- The channel's bits, with the phases as they stood. -/
theorem windowBits_shown (hch : ch < 8) : let t := windowBits c ch rms cross ovr s
    t.acq.wins = s.acq.wins ∧ t.acq.hcRms = s.acq.hcRms.set ch (BitVec.ofNat 24 rms) ∧
    t.acq.w.getLsbD ch = decide (rms < 256 * (nth {} c.ch ch).lowTh) ∧
    t.acq.w.getLsbD (8 + ch) = (decide ((nth {} c.ch ch).highTh ≠ 0) && decide (256 * (nth {} c.ch ch).highTh < rms)) ∧
    t.acq.w.getLsbD (16 + ch) = ovr ∧ t.acq.w.getLsbD (24 + ch) = cross ∧ t.acq.ovrNow.getLsbD ch = ovr ∧
    t.acq.ovrSeen.getLsbD ch = (ovr || s.acq.ovrSeen.getLsbD ch) ∧ (∀ p, phaseOf t p = phaseOf s p) ∧ t.acq.capture = s.acq.capture ∧
    t.dio = s.dio := by
  unfold windowBits
  refine ⟨rfl, rfl, ?_, ?_, ?_, ?_, ?_, ?_, fun _ => rfl, rfl, rfl⟩
  · dsimp only
    rw [getLsbD_setBit _ _ _ _ (by omega), if_neg (by omega), getLsbD_setBit _ _ _ _ (by omega), if_neg (by omega),
      getLsbD_setBit _ _ _ _ (by omega), if_neg (by omega), getLsbD_setBit _ _ _ _ (by omega), if_pos rfl]
  · dsimp only
    rw [getLsbD_setBit _ _ _ _ (by omega), if_neg (by omega), getLsbD_setBit _ _ _ _ (by omega), if_neg (by omega),
      getLsbD_setBit _ _ _ _ (by omega), if_pos rfl]
  · dsimp only
    rw [getLsbD_setBit _ _ _ _ (by omega), if_neg (by omega), getLsbD_setBit _ _ _ _ (by omega), if_pos rfl]
  · dsimp only
    rw [getLsbD_setBit _ _ _ _ (by omega), if_pos rfl]
  · dsimp only
    rw [getLsbD_setBit _ _ _ _ hch, if_pos rfl]
  · cases ovr with
    | true =>
      dsimp only
      rw [if_pos rfl, getLsbD_setBit _ _ _ _ hch, if_pos rfl]
      rfl
    | false => rfl

/-- The phase whose voltage a channel carries is that of its pair. -/
theorem voltCh_pair {c : AcqCfg} {p : Nat} (h : voltCh c p = ch) : p = ch / 2 := by
  unfold voltCh b2n at h
  split at h <;> omega

theorem windowEnd_shown (hch : ch < 8) (w : Win) : WindowShown c ch (windowRms w.sumSq w.n) cross w.ovr s (windowEnd c ch w cross s) := by
  have hbits := windowBits_shown c (windowRms w.sumSq w.n) cross w.ovr s hch
  unfold windowEnd
  dsimp only at hbits ⊢
  generalize windowRms w.sumSq w.n = rms at hbits ⊢
  generalize windowBits c ch rms cross w.ovr s = u at hbits ⊢
  obtain ⟨hwins, hrms, hlow, hhigh, hover, hcross, hnow, hseen, hphase, hcapture, hdio⟩ := hbits
  by_cases hmine : ch / 2 < 3 ∧ phaseOn c (ch / 2) = true ∧ voltCh c (ch / 2) = ch
  · rw [if_pos hmine]
    obtain ⟨hthree, hon, hvolt⟩ := hmine
    generalize hy : phaseStep c rms (nth {} c.ch ch).lowTh (nth {} c.ch ch).retTh (phaseOf u (ch / 2)) = y
    obtain ⟨hrms', hwins', hnow', hseen', hcapture', hdio', hw'⟩ := phaseShown c (ch / 2) y u
    have hmains := mainsChanged_changes c u.acq.w (mainsW c (setPhase (ch / 2) y u))
    have hacq := hmains.get .acq
    have hphases (p : Fin 3) : phaseOf (mainsW c (setPhase (ch / 2) y u)) p = if p.val = ch / 2 then y else phaseOf u p :=
      phaseOf_setPhase p (ch / 2) hthree y u
    have hdioEnd : (mainsChanged c u.acq.w (mainsW c (setPhase (ch / 2) y u))).dio = (mainsW c (setPhase (ch / 2) y u)).dio := hmains.dio
    generalize mainsChanged c u.acq.w (mainsW c (setPhase (ch / 2) y u)) = t at hacq hdioEnd ⊢
    refine ⟨by rw [hacq, hwins', hwins], by rw [hacq, hrms', hrms], ?_, ?_, ?_, ?_, by rw [hacq, hnow', hnow], by rw [hacq, hseen', hseen],
      fun p => ?_, by rw [hacq, hcapture', hcapture], by rw [hdioEnd, hdio', hdio]⟩
    · rw [hacq, hw' _ (by omega), hlow]
    · rw [hacq, hw' _ (by omega), hhigh]
    · rw [hacq, hw' _ (by omega), hover]
    · rw [hacq, hw' _ (by omega), hcross]
    · have hsame : phaseOf t p = phaseOf (mainsW c (setPhase (ch / 2) y u)) p := by
        unfold phaseOf
        rw [hacq]
      rw [hsame, hphases]
      by_cases hp : p.val = ch / 2
      · rw [if_pos hp, hp, hon, hvolt, decide_eq_true rfl, Bool.and_self, if_pos rfl, ← hphase, hy]
      · rw [if_neg hp, hphase, decide_eq_false (fun h => hp (voltCh_pair h)), Bool.and_false, if_neg Bool.false_ne_true]
  · rw [if_neg hmine]
    refine ⟨hwins, hrms, hlow, hhigh, hover, hcross, hnow, hseen, fun p => ?_, hcapture, hdio⟩
    have hno : (phaseOn c p && decide (voltCh c p = ch)) = false := by
      by_contra h
      rw [Bool.not_eq_false, Bool.and_eq_true, decide_eq_true_eq] at h
      have hpair := voltCh_pair h.2
      rw [← hpair] at hmine
      exact hmine ⟨p.isLt, h.1, h.2⟩
    rw [hno, if_neg Bool.false_ne_true, hphase]

end

/-! ### One raw sample (R50, R253) -/

section
variable {c : AcqCfg} {ch : Fin 8} {s : State} (hc : acqCfg s = some c) (hruns : mwRuns s = true) (hon : chEnabled c ch = true)
include hc hruns hon

theorem halfCycleEnd_samples (head : List Int) (mid : Int) (reps : Nat) (tail : List Int) : exec (.halfCycleEnd ch head mid reps tail) s =
    .next ((head ++ List.replicate reps mid ++ tail).foldl (rawSample c ch) s) := by
  refine congrArg Host.Outcome.next ?_
  unfold halfCycleEnd
  rw [hc]
  dsimp only
  rw [if_neg]
  rw [hruns, hon]
  decide

theorem halfCycleEnd_one (x : Int) : exec (.halfCycleEnd ch [x] 0 0 []) s = .next (rawSample c ch s x) :=
  halfCycleEnd_samples hc hruns hon [x] 0 0 []

end

section
variable (c : AcqCfg) (ch : Nat) (x : Int) (s : State)

/-- The window with the sample `x`, and whether the sample crosses zero. -/
def sampled : Win := windowAdd (nth {} c.ch ch).hyst (winOf s ch) x
def sampleCrosses : Bool := crosses (nth {} c.ch ch).hyst (winOf s ch) (aiCode x)

theorem rawSample_within (hcross : sampleCrosses c ch x s = false) (hn : (winOf s ch).n + 1 < 250 * (nth {} c.ch ch).hcMax) :
    rawSample c ch s x = setWin ch (sampled c ch x s) s := by
  refine if_neg ?_
  rintro (h | h)
  · exact Bool.false_ne_true (hcross.symm.trans h)
  · exact absurd hn (Nat.not_lt.2 h)

theorem rawSample_ends (h : sampleCrosses c ch x s = true ∨ 250 * (nth {} c.ch ch).hcMax ≤ (winOf s ch).n + 1) :
    rawSample c ch s x = windowEnd c ch (sampled c ch x s) (sampleCrosses c ch x s)
      (setWin ch { side := (sampled c ch x s).side, last := (sampled c ch x s).last } s) := if_pos h

end

end
end Sys2Proof.Machine
end

section
/-! PROOF. The trigger sources of Mains Watch (R256 to R259). -/

namespace Sys2Proof.Machine

section
set_option Elab.async false

variable {c : AcqCfg} {s : State}

/-! ### An input over its range (R50) -/

theorem getLsbD_setBit_byte (b : Byte) (ch k : Fin 8) : (setBit b ch true).getLsbD k = (decide (k = ch) || b.getLsbD k) := by
  rw [getLsbD_setBit _ _ _ _ ch.isLt]
  by_cases h : k = ch
  · rw [if_pos (congrArg Fin.val h), decide_eq_true h, Bool.true_or]
  · rw [if_neg (fun hv => h (Fin.ext hv)), decide_eq_false h, Bool.false_or]

theorem aiOverRange_shows (hc : acqCfg s = some c) (hruns : mwRuns s = true) {ch : Fin 8} (hon : chEnabled c ch = true) (pos : Bool) :
    ∃ t, exec (.aiOverRange ch pos) s = .next t ∧
      Safety.Booked [2, 3] { s with acq := { s.acq with
        ovrNow := t.acq.ovrNow, ovrSeen := t.acq.ovrSeen
        wins := sput {} s.acq.wins ch { winOf s ch with ovr := true, last := if pos then 32767 else -32768 } } } t ∧
      ∀ k : Fin 8, t.acq.ovrNow.getLsbD k = (decide (k = ch) || s.acq.ovrNow.getLsbD k) ∧
        t.acq.ovrSeen.getLsbD k = (decide (k = ch) || s.acq.ovrSeen.getLsbD k) := by
  let u : State := { s with acq := { s.acq with
    wins := sput {} s.acq.wins ch { winOf s ch with ovr := true, last := if pos then 32767 else -32768 }
    ovrNow := setBit s.acq.ovrNow ch true, ovrSeen := setBit s.acq.ovrSeen ch true } }
  have hbooked : Safety.Booked [2, 3] u (sjRep 0x602 1 ch (item ch) u) := Safety.sjRep_booked ..
  have hnow : u.acq.ovrNow = setBit s.acq.ovrNow ch true := rfl
  have hseen : u.acq.ovrSeen = setBit s.acq.ovrSeen ch true := rfl
  have hu : u = { s with acq := { s.acq with
      ovrNow := u.acq.ovrNow, ovrSeen := u.acq.ovrSeen
      wins := sput {} s.acq.wins ch { winOf s ch with ovr := true, last := if pos then 32767 else -32768 } } } := rfl
  have hdoes : exec (.aiOverRange ch pos) s = .next (sjRep 0x602 1 ch (item ch) u) := by
    refine congrArg Host.Outcome.next ?_
    unfold aiOverRange
    rw [hc]
    exact if_pos ⟨hruns, hon⟩
  have hacq : (sjRep 0x602 1 ch (item ch) u).acq = u.acq := by rw [hbooked.frame]
  generalize sjRep 0x602 1 ch (item ch) u = t at hbooked hdoes hacq
  refine ⟨t, hdoes, ?_, fun k => ?_⟩
  · rw [hacq, ← hu]
    exact hbooked
  · rw [hacq, hnow, hseen]
    exact ⟨getLsbD_setBit_byte .., getLsbD_setBit_byte ..⟩

/-! ### A source raised by a command (R256) -/

theorem raiseTrigger_shows (hc : acqCfg s = some c) (hruns : mwRuns s = true) {i : Nat} (h2 : 2 ≤ i) (h6 : i < 6) :
    raiseTrigger i 0 s = { s with acq := { s.acq with raised := (raiseTrigger i 0 s).acq.raised } } ∧
    ∀ k : Fin 6, (raiseTrigger i 0 s).acq.raised.getLsbD k = (s.acq.raised.getLsbD k || (decide (k.val = i) && c.trigEn.getLsbD k)) := by
  unfold raiseTrigger
  rw [hc]
  dsimp only
  by_cases hen : c.trigEn.getLsbD i = true
  · rw [if_pos ⟨hen, hruns⟩]
    refine ⟨?_, fun k => ?_⟩
    · rw [if_neg (fun h => absurd h.1 (by omega)), if_neg (fun h => absurd h.1 (by omega))]
    · dsimp only
      rw [getLsbD_setBit _ _ _ _ h6]
      by_cases hk : k.val = i
      · rw [if_pos hk, decide_eq_true hk, hk, hen]
        simp
      · rw [if_neg hk, decide_eq_false hk, Bool.false_and, Bool.or_false]
  · rw [if_neg (fun h => hen h.1)]
    refine ⟨rfl, fun k => ?_⟩
    by_cases hk : k.val = i
    · rw [hk, Bool.not_eq_true _ |>.mp hen, Bool.and_false, Bool.or_false]
    · rw [decide_eq_false hk, Bool.false_and, Bool.or_false]

theorem mwRuns_powered (h : mwRuns s = true) : s.power.pdOn.getLsbD 8 = true := by
  unfold mwRuns at h
  simp only [Bool.and_eq_true] at h
  exact h.1.1

theorem commands_raise (hc : acqCfg s = some c) (hruns : mwRuns s = true) (hawake : awake s = true) (v : Word) :
    ∀ p ∈ [(Instr.swTrigWrite v, 4, v.getLsbD 0), (.periodicTrigger, 5, true)], ∃ t, exec p.1 s = .next t ∧
      t = { s with acq := { s.acq with raised := t.acq.raised } } ∧
      ∀ i : Fin 6, t.acq.raised.getLsbD i = (s.acq.raised.getLsbD i || (decide (i.val = p.2.1) && p.2.2 && c.trigEn.getLsbD i)) := by
  intro p hp
  simp only [List.mem_cons, List.not_mem_nil, or_false] at hp
  rcases hp with rfl | rfl
  · have hwrites : exec (.swTrigWrite v) s = .next (swTrigger v s) :=
      congrArg Host.Outcome.next (writeAccess_of_at v (accessOf_at (addr := 0x40200004) hawake rfl rfl (mwRuns_powered hruns)))
    refine ⟨_, hwrites, ?_⟩
    unfold swTrigger
    cases hv : v.getLsbD 0 with
    | true =>
      rw [if_pos rfl]
      obtain ⟨hframe, hbits⟩ := raiseTrigger_shows hc hruns (i := 4) (by decide) (by decide)
      exact ⟨hframe, fun k => by rw [hbits, Bool.and_true]⟩
    | false =>
      rw [if_neg Bool.false_ne_true]
      exact ⟨rfl, fun k => by rw [Bool.and_false, Bool.false_and, Bool.or_false]⟩
  · obtain ⟨hframe, hbits⟩ := raiseTrigger_shows hc hruns (i := 5) (by decide) (by decide)
    exact ⟨_, rfl, hframe, fun k => by rw [hbits, Bool.and_true]⟩

/-! ### RECORD_TRIGGER (R256 to R259, R261) -/

/-- The sources that have met their conditions. -/
def metSources (c : AcqCfg) (prev cur : Int) (s : State) : BitVec 6 := (aiSources c prev cur ||| s.acq.raised) &&& c.trigEn

/-- The sources taken, with the free value that stands for a DETAIL that the manual does not state. -/
def sourcesTaken (src : BitVec 6) (s : State) : State :=
  let s0 := if src &&& 15 = 0 then drawn s else s
  { s0 with acq := { s0.acq with raised := 0 } }

theorem sourcesTaken_eq (src : BitVec 6) (s : State) : ∃ n, sourcesTaken src s =
    { s with clk := { s.clk with freeCount := n }, acq := { s.acq with raised := 0 } } := by
  unfold sourcesTaken
  split
  · exact ⟨_, rfl⟩
  · exact ⟨_, rfl⟩

/-- Free values drawn before a change of Mains Watch and the field are free values drawn. -/
theorem booked_of_drawn (ns : List Nat) (s : State) (n : Nat) : Safety.Booked ns s { s with clk := { s.clk with freeCount := n } } :=
  ⟨rfl, rfl, List.prefix_rfl, List.prefix_rfl, rfl, fun _ => ⟨rfl, rfl, rfl, rfl, rfl, rfl⟩, fun _ _ => rfl, fun _ _ => rfl⟩

/-- The capture that a trigger starts in buffer set `set`. -/
def startedCapture (c : AcqCfg) (src : BitVec 6) (detail : Word) (set : Nat) (s : State) : Capture :=
  { trigUs := s.clk.opUs, sources := src, detail := detail, set := set, armedUs := s.acq.armedUs, nextGroup := (mwGroups c).headD 0 }

/-- What enabled sources that have met their conditions do. -/
def triggerTaken (c : AcqCfg) (src : BitVec 6) (detail : Word) (s : State) : State :=
  match s.acq.capture, freeSets c s with
  | some k, _ => { s with acq := { s.acq with extra := satInc s.acq.extra, capture := some { k with extra := satInc k.extra } } }
  | none, [] => triggerLost src 0 s
  | none, k :: _ =>
    if freeSlots c s < (mwGroups c).length then triggerLost src 1 s
    else
      let s2 := { s with acq := { s.acq with capture := some (startedCapture c src detail k s) } }
      if c.trigOut.toNat < 4 then trgDriven c.trigOut.toNat s2 else s2

section
variable {src : BitVec 6} (detail : Word) {u : State}

theorem triggerTaken_during {k : Capture} (h : u.acq.capture = some k) : triggerTaken c src detail u =
    { u with acq := { u.acq with extra := satInc u.acq.extra, capture := some { k with extra := satInc k.extra } } } := by
  unfold triggerTaken
  rw [h]

theorem triggerTaken_lost (h : u.acq.capture = none) (hfree : freeSets c u = [] ∨ freeSlots c u < (mwGroups c).length) :
    triggerTaken c src detail u = triggerLost src 0 u ∨ triggerTaken c src detail u = triggerLost src 1 u := by
  unfold triggerTaken
  rw [h]
  cases hsets : freeSets c u with
  | nil => exact .inl rfl
  | cons k ks => exact .inr (if_pos (hfree.resolve_left (by rw [hsets]; exact List.cons_ne_nil _ _)))

theorem triggerTaken_starts (h : u.acq.capture = none) {k : Nat} {ks : List Nat} (hsets : freeSets c u = k :: ks)
    (hslots : (mwGroups c).length ≤ freeSlots c u) : triggerTaken c src detail u = if c.trigOut.toNat < 4 then
      trgDriven c.trigOut.toNat { u with acq := { u.acq with capture := some (startedCapture c src detail k u) } }
      else { u with acq := { u.acq with capture := some (startedCapture c src detail k u) } } := by
  unfold triggerTaken
  rw [h, hsets]
  exact if_neg (Nat.not_lt.2 hslots)

end

section
variable (prev cur : Int) (hc : acqCfg s = some c)
include hc

theorem recordTrigger_none (h : metSources c prev cur s = 0) : exec (.recordTrigger prev cur) s = .next s := by
  refine congrArg Host.Outcome.next ?_
  unfold recordTrigger
  rw [hc]
  exact if_pos (.inr h)

variable (hruns : mwRuns s = true) (h : metSources c prev cur s ≠ 0)
include hruns h

theorem recordTrigger_takes : exec (.recordTrigger prev cur) s = .next (triggerTaken c (metSources c prev cur s)
    (triggerDetail c (metSources c prev cur s) s) (sourcesTaken (metSources c prev cur s) s)) := by
  have hgoes : ¬ ((!mwRuns s) = true ∨ metSources c prev cur s = 0) := by
    rintro (hno | hzero)
    · rw [hruns] at hno
      cases hno
    · exact h hzero
  have hmet : (aiSources c prev cur ||| s.acq.raised) &&& c.trigEn = metSources c prev cur s := rfl
  refine congrArg Host.Outcome.next ?_
  unfold recordTrigger
  rw [hc]
  dsimp only
  rw [hmet, if_neg hgoes]
  unfold triggerTaken sourcesTaken
  dsimp only
  generalize (if metSources c prev cur s &&& 15 = 0 then drawn s else s) = u
  cases u.acq.capture with
  | some k => rfl
  | none =>
    dsimp only
    generalize hsets : freeSets c _ = sets
    cases sets <;> rfl

theorem recordTrigger_during {k : Capture} (hk : s.acq.capture = some k) : ∃ t, exec (.recordTrigger prev cur) s = .next t ∧ t = { s with
    clk := { s.clk with freeCount := t.clk.freeCount }
    acq := { s.acq with raised := 0, extra := satInc s.acq.extra, capture := some { k with extra := satInc k.extra } } } := by
  obtain ⟨n, hn⟩ := sourcesTaken_eq (metSources c prev cur s) s
  have hdoes := recordTrigger_takes prev cur hc hruns h
  rw [triggerTaken_during _ (k := k) (by rw [hn]; exact hk), hn] at hdoes
  exact ⟨_, hdoes, rfl⟩

theorem recordTrigger_lost (hnone : s.acq.capture = none) (hfree : freeSets c s = [] ∨ freeSlots c s < (mwGroups c).length) :
    ∃ t, exec (.recordTrigger prev cur) s = .next t ∧
      Safety.Booked [2, 3] { s with acq := { s.acq with raised := 0, lost := satInc s.acq.lost } } t := by
  obtain ⟨n, hn⟩ := sourcesTaken_eq (metSources c prev cur s) s
  have hdoes := recordTrigger_takes prev cur hc hruns h
  rw [hn] at hdoes
  generalize triggerDetail c (metSources c prev cur s) s = detail at hdoes
  have hsame : freeSets c { s with clk := { s.clk with freeCount := n }, acq := { s.acq with raised := 0 } } = freeSets c s ∧
      freeSlots c { s with clk := { s.clk with freeCount := n }, acq := { s.acq with raised := 0 } } = freeSlots c s := ⟨rfl, rfl⟩
  have hlost (cause : Nat) : Safety.Booked [2, 3] { s with acq := { s.acq with raised := 0, lost := satInc s.acq.lost } }
      (triggerLost (metSources c prev cur s) cause
        { s with clk := { s.clk with freeCount := n }, acq := { s.acq with raised := 0 } }) := by
    unfold triggerLost
    exact (booked_of_drawn [2, 3] { s with acq := { s.acq with raised := 0, lost := satInc s.acq.lost } } n).trans (Safety.tr_booked ..)
  rcases triggerTaken_lost (src := metSources c prev cur s) detail (c := c)
    (u := { s with clk := { s.clk with freeCount := n }, acq := { s.acq with raised := 0 } }) hnone (by rw [hsame.1, hsame.2]; exact hfree)
    with heq | heq
  · exact ⟨_, hdoes.trans (congrArg _ heq), hlost 0⟩
  · exact ⟨_, hdoes.trans (congrArg _ heq), hlost 1⟩

omit hc hruns h in
/-- A driven TRG line, and the event that tells of it (R131). -/
theorem trgDriven_booked (i : Nat) (u : State) : ∃ t, trgDriven i u = t ∧
    Safety.Booked [30, 2, 3] { u with dioc := { u.dioc with trgDrive := t.dioc.trgDrive } } t ∧ t.dioc.trgDrive = setBit u.dioc.trgDrive i true := by
  refine ⟨_, rfl, ?_⟩
  unfold trgDriven
  dsimp only
  split
  · exact ⟨.refl _ _, rfl⟩
  · have hbooked := Safety.pushEventFree_booked 14 0x0E { u with dioc := { u.dioc with trgDrive := setBit u.dioc.trgDrive i true } }
    have hdioc : (pushEventFree 14 0x0E { u with dioc := { u.dioc with trgDrive := setBit u.dioc.trgDrive i true } }).dioc =
        { u.dioc with trgDrive := setBit u.dioc.trgDrive i true } := by rw [hbooked.frame]
    rw [hdioc]
    exact ⟨hbooked, rfl⟩

omit hruns h hc in
theorem triggerDetail_shows (c : AcqCfg) (src : BitVec 6) (s : State) :
    (src.getLsbD 0 = true → triggerDetail c src s = BitVec.ofNat 32 s.acq.raisedDi) ∧
    (src.getLsbD 0 = false → src.getLsbD 1 = true → triggerDetail c src s = BitVec.ofNat 32 s.acq.raisedTrg) ∧
    (src.getLsbD 0 = false → src.getLsbD 1 = false → src.getLsbD 2 = true ∨ src.getLsbD 3 = true →
      triggerDetail c src s = BitVec.ofNat 32 c.aiCh) := by
  unfold triggerDetail
  refine ⟨fun h0 => if_pos h0, fun h0 h1 => ?_, fun h0 h1 h23 => ?_⟩
  · rw [if_neg (by rw [h0]; decide), if_pos h1]
  · rw [if_neg (by rw [h0]; decide), if_neg (by rw [h1]; decide), if_pos (by simpa using h23)]

theorem recordTrigger_starts (hnone : s.acq.capture = none) {k : Nat} {ks : List Nat} (hsets : freeSets c s = k :: ks)
    (hslots : (mwGroups c).length ≤ freeSlots c s) : ∃ t detail, exec (.recordTrigger prev cur) s = .next t ∧
      Safety.Booked [30, 2, 3] { s with
        acq := { s.acq with raised := 0, capture := some {
          trigUs := s.clk.opUs, sources := metSources c prev cur s, detail := detail, set := k, armedUs := s.acq.armedUs
          nextGroup := (mwGroups c).headD 0 } }
        dioc := { s.dioc with trgDrive := t.dioc.trgDrive } } t ∧
      ((metSources c prev cur s).getLsbD 0 = true → detail = BitVec.ofNat 32 s.acq.raisedDi) ∧
      ((metSources c prev cur s).getLsbD 0 = false → (metSources c prev cur s).getLsbD 1 = true → detail = BitVec.ofNat 32 s.acq.raisedTrg) ∧
      ((metSources c prev cur s).getLsbD 0 = false → (metSources c prev cur s).getLsbD 1 = false →
        (metSources c prev cur s).getLsbD 2 = true ∨ (metSources c prev cur s).getLsbD 3 = true → detail = BitVec.ofNat 32 c.aiCh) ∧
      ∀ i : Fin 4, t.dioc.trgDrive.getLsbD i = (decide (c.trigOut.toNat = i.val) || s.dioc.trgDrive.getLsbD i) := by
  obtain ⟨n, hn⟩ := sourcesTaken_eq (metSources c prev cur s) s
  have hdoes := recordTrigger_takes prev cur hc hruns h
  obtain ⟨hdi, htrg, hch⟩ := triggerDetail_shows c (metSources c prev cur s) s
  rw [hn] at hdoes
  generalize triggerDetail c (metSources c prev cur s) s = detail at hdoes hdi htrg hch
  let v (m : Nat) : State := { s with
    clk := { s.clk with freeCount := m }
    acq := { s.acq with raised := 0, capture := some {
      trigUs := s.clk.opUs, sources := metSources c prev cur s, detail := detail, set := k, armedUs := s.acq.armedUs
      nextGroup := (mwGroups c).headD 0 } } }
  have hstarts := triggerTaken_starts (src := metSources c prev cur s) detail (c := c) (k := k) (ks := ks)
    (u := { s with clk := { s.clk with freeCount := n }, acq := { s.acq with raised := 0 } }) hnone hsets hslots
  have hnext : exec (.recordTrigger prev cur) s = .next (if c.trigOut.toNat < 4 then trgDriven c.trigOut.toNat (v n) else v n) :=
    hdoes.trans (congrArg _ hstarts)
  by_cases hout : c.trigOut.toNat < 4
  · rw [if_pos hout] at hnext
    obtain ⟨t, ht, hbooked, hdrive⟩ := trgDriven_booked c.trigOut.toNat (v n)
    rw [ht] at hnext
    refine ⟨t, detail, hnext, ?_, hdi, htrg, hch, fun i => ?_⟩
    · exact (booked_of_drawn [30, 2, 3] { v s.clk.freeCount with dioc := { s.dioc with trgDrive := t.dioc.trgDrive } } n).trans hbooked
    · rw [hdrive]
      refine (getLsbD_setBit _ _ _ _ hout).trans ?_
      by_cases hi : i.val = c.trigOut.toNat
      · rw [if_pos hi, decide_eq_true hi.symm, Bool.true_or]
      · rw [if_neg hi, decide_eq_false (fun he => hi he.symm), Bool.false_or]
  · rw [if_neg hout] at hnext
    refine ⟨v n, detail, hnext, booked_of_drawn [30, 2, 3] (v s.clk.freeCount) n, hdi, htrg, hch, fun i => ?_⟩
    rw [decide_eq_false (fun he : c.trigOut.toNat = i.val => hout (by omega)), Bool.false_or]

end

end
end Sys2Proof.Machine
end

section
/-! SUPPORT. The measurements of a record: sums that pin, mean, RMS and extremes (R262), and bytes in fields. -/

namespace Sys2Proof.Machine

section
set_option Elab.async false

/-! ### Sums of 56 bits -/

theorem accAdd_pinned (ys : List Int) {a : Acc56} (h : a.pin = true) : ys.foldl accAdd a = a := by
  induction ys with
  | nil => rfl
  | cons y ys ih => rw [List.foldl_cons, show accAdd a y = a from if_pos h, ih]

theorem accAdd_of_range {a y : Int} (hlow : -(2 ^ 55) ≤ a + y) (hhigh : a + y ≤ 2 ^ 55 - 1) : accAdd { sum := a } y = { sum := a + y } := by
  unfold accAdd
  rw [if_neg Bool.false_ne_true]
  dsimp only
  rw [if_neg (by omega), if_neg (by omega)]

theorem accAdd_above {a y : Int} (h : 2 ^ 55 - 1 < a + y) : accAdd { sum := a } y = { sum := 2 ^ 55 - 1, pin := true } := by
  unfold accAdd
  rw [if_neg Bool.false_ne_true]
  exact if_pos h

/-- A sum of terms that are not negative pins exactly where it leaves the range. -/
theorem accAdd_nonneg (ys : List Int) (hpos : ∀ y ∈ ys, 0 ≤ y) {a : Int} (h0 : 0 ≤ a) (h1 : a ≤ 2 ^ 55 - 1) :
    ys.foldl accAdd { sum := a } =
      if 2 ^ 55 - 1 < a + ys.sum then { sum := 2 ^ 55 - 1, pin := true } else { sum := a + ys.sum } := by
  induction ys generalizing a with
  | nil => rw [List.sum_nil, Int.add_zero, if_neg (by omega)]; rfl
  | cons y ys ih =>
    obtain ⟨hy, hys⟩ := List.forall_mem_cons.1 hpos
    have hrest : 0 ≤ ys.sum := List.sum_nonneg hys
    rw [List.foldl_cons, List.sum_cons]
    by_cases hover : 2 ^ 55 - 1 < a + y
    · rw [accAdd_above hover, accAdd_pinned ys rfl, if_pos (by omega)]
    · rw [accAdd_of_range (by omega) (by omega), ih hys (by omega) (by omega), Int.add_assoc]

/-- The sum of the squares. -/
def squareSum (xs : List Int) : Int := (xs.map fun y => y * y).sum

theorem squareSum_nonneg (xs : List Int) : 0 ≤ squareSum xs := by
  refine List.sum_nonneg fun y hy => ?_
  obtain ⟨x, -, rfl⟩ := List.mem_map.1 hy
  exact mul_self_nonneg x

theorem abs_le_square (x : Int) : |x| ≤ x * x := by
  rw [← abs_mul_abs_self x]
  rcases Int.lt_or_le 0 |x| with h | h
  · exact le_mul_of_one_le_right (abs_nonneg x) h
  · rw [le_antisymm h (abs_nonneg x)]
    rfl

/-- A sum of values whose squares stay in range stays in range too. -/
theorem accAdd_within (xs : List Int) {a : Int} (h : |a| + squareSum xs ≤ 2 ^ 55 - 1) :
    xs.foldl accAdd { sum := a } = { sum := a + xs.sum } := by
  induction xs generalizing a with
  | nil => rw [List.sum_nil, Int.add_zero]; rfl
  | cons x xs ih =>
    have hsplit : squareSum (x :: xs) = x * x + squareSum xs := rfl
    have hrest := squareSum_nonneg xs
    have hx := abs_le_square x
    have hsum := abs_add_le a x
    have hrange := abs_le.1 (show |a + x| ≤ 2 ^ 55 - 1 by omega)
    rw [List.foldl_cons, List.sum_cons, accAdd_of_range (by omega) hrange.2, ih (by omega), Int.add_assoc]

theorem squares_fold (xs : List Int) : (xs.map fun x => x * x).foldl accAdd {} =
    if 2 ^ 55 - 1 < squareSum xs then { sum := 2 ^ 55 - 1, pin := true } else { sum := squareSum xs } := by
  have hsq := accAdd_nonneg (xs.map fun x => x * x) (fun y hy => by
    obtain ⟨x, -, rfl⟩ := List.mem_map.1 hy
    exact mul_self_nonneg x) (a := 0) (by decide) (by decide)
  rw [Int.zero_add] at hsq
  exact hsq

/-- The two sums of a channel pin together with that of the squares. -/
theorem sums_pin (xs : List Int) : ((xs.foldl accAdd {}).pin || ((xs.map fun x => x * x).foldl accAdd {}).pin) = decide (2 ^ 55 - 1 < squareSum xs) := by
  rw [squares_fold]
  by_cases hover : 2 ^ 55 - 1 < squareSum xs
  · rw [if_pos hover, decide_eq_true hover, Bool.or_true]
  · rw [if_neg hover, decide_eq_false hover, show xs.foldl accAdd {} = _ from accAdd_within xs (a := 0) (by rw [abs_zero]; omega)]
    rfl

theorem squares_summed (xs : List Int) : ((xs.map fun x => x * x).foldl accAdd {}).sum = min (squareSum xs) (2 ^ 55 - 1) := by
  rw [squares_fold]
  split
  · next h => exact (min_eq_right (Int.le_of_lt h)).symm
  · next h => exact (min_eq_left (Int.not_lt.1 h)).symm

/-! ### Extremes -/

theorem foldl_min_spec (xs : List Int) (a : Int) : (xs.foldl min a = a ∨ xs.foldl min a ∈ xs) ∧ xs.foldl min a ≤ a ∧
    ∀ y ∈ xs, xs.foldl min a ≤ y := by
  induction xs generalizing a with
  | nil => exact ⟨.inl rfl, le_refl a, fun _ h => absurd h (List.not_mem_nil)⟩
  | cons x xs ih =>
    obtain ⟨hmem, hle, hall⟩ := ih (min a x)
    rw [List.foldl_cons]
    refine ⟨?_, hle.trans (min_le_left a x), fun y hy => ?_⟩
    · rcases hmem with h | h
      · rcases min_choice a x with ha | hx
        · exact .inl (h.trans ha)
        · exact .inr (by rw [h, hx]; exact List.mem_cons_self ..)
      · exact .inr (List.mem_cons_of_mem _ h)
    · rcases List.mem_cons.1 hy with rfl | hy
      · exact hle.trans (min_le_right a y)
      · exact hall y hy

theorem foldl_max_spec (xs : List Int) (a : Int) : (xs.foldl max a = a ∨ xs.foldl max a ∈ xs) ∧ a ≤ xs.foldl max a ∧
    ∀ y ∈ xs, y ≤ xs.foldl max a := by
  induction xs generalizing a with
  | nil => exact ⟨.inl rfl, le_refl a, fun _ h => absurd h (List.not_mem_nil)⟩
  | cons x xs ih =>
    obtain ⟨hmem, hle, hall⟩ := ih (max a x)
    rw [List.foldl_cons]
    refine ⟨?_, (le_max_left a x).trans hle, fun y hy => ?_⟩
    · rcases hmem with h | h
      · rcases max_choice a x with ha | hx
        · exact .inl (h.trans ha)
        · exact .inr (by rw [h, hx]; exact List.mem_cons_self ..)
      · exact .inr (List.mem_cons_of_mem _ h)
    · rcases List.mem_cons.1 hy with rfl | hy
      · exact (le_max_right a y).trans hle
      · exact hall y hy

theorem headD_mem {xs : List Int} (h : 0 < xs.length) : xs.headD 0 ∈ xs := by
  cases xs with
  | nil => exact absurd h (Nat.lt_irrefl 0)
  | cons x xs => exact List.mem_cons_self ..

/-! ### Fields of a record -/

/-- Numbers as fields of given widths, and their width together. -/
def fieldBytes (fs : List (Nat × Nat)) : Bytes := fs.flatMap fun x => leBytes x.1 x.2
def fieldWidth (fs : List (Nat × Nat)) : Nat := (fs.map Prod.fst).sum

theorem fieldBytes_length (fs : List (Nat × Nat)) : (fieldBytes fs).length = fieldWidth fs := by
  simp [fieldBytes, fieldWidth, List.length_flatMap]

/-- A field read in its place. -/
theorem leAt_field (fs : List (Nat × Nat)) {i : Nat} (h : i < fs.length) (rest : Bytes) :
    leAt (fieldBytes fs ++ rest) (fieldWidth (fs.take i)) fs[i].1 = fs[i].2 % 256 ^ fs[i].1 := by
  have hsplit : fieldBytes fs = fieldBytes (fs.take i) ++ (leBytes fs[i].1 fs[i].2 ++ fieldBytes (fs.drop (i + 1))) := by
    have hfs : fs = fs.take i ++ fs[i] :: fs.drop (i + 1) := by rw [← List.drop_eq_getElem_cons h, List.take_append_drop]
    refine (congrArg fieldBytes hfs).trans ?_
    unfold fieldBytes
    rw [List.flatMap_append, List.flatMap_cons]
  rw [hsplit, List.append_assoc, leAt_skip (Nat.le_of_eq (fieldBytes_length _)), fieldBytes_length, Nat.sub_self, List.append_assoc,
    leAt_leBytes_append]

theorem leInt_length (n : Nat) (v : Int) : (leInt n v).length = n := by rw [leInt, leBytes_length]

/-- A part of one of equal blocks, read in its place. -/
theorem slice_block (w : Nat) (bs : List Bytes) (hw : ∀ b ∈ bs, b.length = w) {i : Nat} (h : i < bs.length) (rest : Bytes) {o n : Nat}
    (hon : o + n ≤ w) : slice (bs.flatMap id ++ rest) (w * i + o) n = slice bs[i] o n := by
  have hlen (l : List Bytes) (hl : ∀ b ∈ l, b.length = w) : (l.flatMap id).length = w * l.length := by
    induction l with
    | nil => rfl
    | cons b l ih =>
      obtain ⟨hb, hl⟩ := List.forall_mem_cons.1 hl
      rw [List.flatMap_cons, List.length_append, ih hl, List.length_cons, Nat.mul_succ]
      show b.length + _ = _
      omega
  have hsplit : bs.flatMap id = (bs.take i).flatMap id ++ (bs[i] ++ (bs.drop (i + 1)).flatMap id) := by
    have hbs : bs = bs.take i ++ bs[i] :: bs.drop (i + 1) := by rw [← List.drop_eq_getElem_cons h, List.take_append_drop]
    refine (congrArg (List.flatMap id) hbs).trans ?_
    rw [List.flatMap_append, List.flatMap_cons]
    rfl
  have htake : ((bs.take i).flatMap id).length = w * i := by
    rw [hlen _ fun b hb => hw b (List.mem_of_mem_take hb), List.length_take, Nat.min_eq_left (Nat.le_of_lt h)]
  rw [hsplit, List.append_assoc, slice_append_skip (by omega), htake, Nat.add_sub_cancel_left, List.append_assoc,
    slice_before (by rw [hw _ (List.getElem_mem h)]; exact hon)]

/-! ### A channel's measurement block (R262) -/

/-- What a measurement block tells of a channel's valid points. -/
structure MeasureFields (ovr : Bool) (xs : List Int) (b : Bytes) : Prop where
  size : b.length = 32
  sat : (leAt b 30 1).testBit 0 = true ↔ 2 ^ 55 - 1 < squareSum xs
  beyond : (leAt b 30 1).testBit 2 = ovr
  few : (leAt b 30 1).testBit 1 = true → leAt b 20 8 = 0
  mean : 0 < xs.length → squareSum xs ≤ 2 ^ 55 - 1 → slice b 0 4 = leInt 4 (divNearest xs.sum xs.length)
  rms : 0 < xs.length → leAt b 4 4 * leAt b 4 4 * xs.length ≤ (min (squareSum xs) (2 ^ 55 - 1)).toNat ∧
    (min (squareSum xs) (2 ^ 55 - 1)).toNat < (leAt b 4 4 + 1) * (leAt b 4 4 + 1) * xs.length
  extremes : 0 < xs.length → ∃ lo ∈ xs, ∃ hi ∈ xs, (∀ y ∈ xs, lo ≤ y ∧ y ≤ hi) ∧
    slice b 8 12 = leInt 4 lo ++ leInt 4 hi ++ leInt 4 (hi - lo)

/-- The bytes of a block from its period on. -/
def measureTail (sat few ovr : Bool) (period freq total : Nat) : Bytes :=
  fieldBytes [(4, period), (4, freq), (2, total), (1, b2n sat + 2 * b2n few + 4 * b2n ovr), (1, 0)]

/-- The bytes of a block before its period, of a channel that has valid points. -/
def measureHead (xs : List Int) : Bytes :=
  leInt 4 (divNearest (xs.foldl accAdd {}).sum xs.length) ++
    leBytes 4 (rootOf (((xs.map fun x => x * x).foldl accAdd {}).sum.toNat / xs.length)) ++ leInt 4 (xs.foldl min (xs.headD 0)) ++
    leInt 4 (xs.foldl max (xs.headD 0)) ++ leInt 4 (xs.foldl max (xs.headD 0) - xs.foldl min (xs.headD 0))

theorem fiveWords_length (a b c d e : Bytes) (ha : a.length = 4) (hb : b.length = 4) (hc : c.length = 4) (hd : d.length = 4) (he : e.length = 4) :
    (a ++ b ++ c ++ d ++ e).length = 20 := by
  simp only [List.length_append, ha, hb, hc, hd, he]

theorem measure_shape (k hyst : Nat) (ovr : Bool) (xs : List Int) (s : State) : ∃ head period freq total few,
    (few = true → period = 0 ∧ freq = 0) ∧ head.length = 20 ∧ (0 < xs.length → head = measureHead xs) ∧
    (measure k hyst ovr xs s).1 = head ++ measureTail (decide (2 ^ 55 - 1 < squareSum xs)) few ovr period freq total ∧
    (measure k hyst ovr xs s).2.1 = decide (2 ^ 55 - 1 < squareSum xs) ∧
    ∃ n, (measure k hyst ovr xs s).2.2 = { s with clk := { s.clk with freeCount := n } } := by
  unfold measure
  dsimp only
  rw [sums_pin]
  generalize decide (2 ^ 55 - 1 < squareSum xs) = sat
  generalize (xs.zip (List.range xs.length)).foldl _ ({} : Cross) = cr
  have hperiod : decide (cr.rising < 2) = true →
      (if cr.rising < 2 then 0 else (divNearest ((cr.last : Int) - cr.first) (cr.rising - 1)).toNat) = 0 := fun h => if_pos (of_decide_eq_true h)
  generalize (if cr.rising < 2 then 0 else (divNearest ((cr.last : Int) - cr.first) (cr.rising - 1)).toNat) = period at hperiod ⊢
  generalize decide (cr.rising < 2) = few at hperiod ⊢
  have htail : leBytes 4 period ++ leBytes 4 (if period = 0 then 0 else (divNearest (10 ^ 12) period).toNat) ++ leBytes 2 (min 65535 cr.total) ++
      leBytes 1 (b2n sat + 2 * b2n few + 4 * b2n ovr) ++ zeros 1 =
      measureTail sat few ovr period (if period = 0 then 0 else (divNearest (10 ^ 12) period).toNat) (min 65535 cr.total) := by
    unfold measureTail fieldBytes
    simp only [List.flatMap_cons, List.flatMap_nil, List.append_nil, List.append_assoc]
    rfl
  rw [htail]
  have hfreq : few = true → period = 0 ∧ (if period = 0 then 0 else (divNearest (10 ^ 12) period).toNat) = 0 :=
    fun h => ⟨hperiod h, if_pos (hperiod h)⟩
  generalize (if period = 0 then 0 else (divNearest (10 ^ 12) period).toNat) = freq at hfreq ⊢
  by_cases hn : xs.length = 0
  · rw [if_pos hn]
    refine ⟨_, period, freq, min 65535 cr.total, few, hfreq, ?_, fun h => absurd hn (Nat.ne_of_gt h), rfl, rfl, _, rfl⟩
    exact fiveWords_length _ _ _ _ _ (leBytes_length ..) (leBytes_length ..) (leBytes_length ..) (leBytes_length ..) (leBytes_length ..)
  · rw [if_neg hn]
    refine ⟨_, period, freq, min 65535 cr.total, few, hfreq, ?_, fun _ => rfl, rfl, rfl, s.clk.freeCount, rfl⟩
    exact fiveWords_length _ _ _ _ _ (leInt_length ..) (leBytes_length ..) (leInt_length ..) (leInt_length ..) (leInt_length ..)

/-! Bits of a flags byte. -/
theorem flags_bits (a b c : Bool) : let x := (b2n a + 2 * b2n b + 4 * b2n c) % 256
    x.testBit 0 = a ∧ x.testBit 1 = b ∧ x.testBit 2 = c := by
  cases a <;> cases b <;> cases c <;> decide

theorem leAt_head {head tail : Bytes} {l a n : Nat} (h : head.length = l) (ha : l ≤ a) : leAt (head ++ tail) a n = leAt tail (a - l) n := by
  rw [leAt_skip (by omega), h]

theorem measure_fields (k hyst : Nat) (ovr : Bool) (xs : List Int) (s : State) : MeasureFields ovr xs (measure k hyst ovr xs s).1 := by
  obtain ⟨head, period, freq, total, few, hfew, hlen, hhead, hbytes, -, -⟩ := measure_shape k hyst ovr xs s
  rw [hbytes]
  generalize hs : decide (2 ^ 55 - 1 < squareSum xs) = sat
  have htail : (measureTail sat few ovr period freq total).length = 12 := fieldBytes_length _
  have hflags : leAt (head ++ measureTail sat few ovr period freq total) 30 1 = (b2n sat + 2 * b2n few + 4 * b2n ovr) % 256 := by
    have hfield := leAt_field [(4, period), (4, freq), (2, total), (1, b2n sat + 2 * b2n few + 4 * b2n ovr), (1, 0)] (i := 3) (show 3 < 5 by decide) []
    rw [List.append_nil] at hfield
    exact (leAt_head hlen (by decide)).trans hfield
  obtain ⟨hbit0, hbit1, hbit2⟩ := flags_bits sat few ovr
  refine ⟨by rw [List.length_append, hlen, htail], ?_, by rw [hflags, hbit2], ?_, fun hn hsum => ?_, fun hn => ?_, fun hn => ?_⟩
  · rw [hflags, hbit0, ← hs]
    exact decide_eq_true_iff
  · rw [hflags, hbit1]
    intro h
    obtain ⟨hp, hf⟩ := hfew h
    rw [leAt_head hlen (by decide), hp, hf]
    unfold measureTail fieldBytes
    rfl
  · rw [slice_before (by omega), hhead hn]
    unfold measureHead
    rw [accAdd_within xs (a := 0) (by rw [abs_zero]; omega), Int.zero_add, List.append_assoc, List.append_assoc, List.append_assoc,
      slice_before (by rw [leInt_length])]
    have h := slice_append_head (leInt 4 (divNearest xs.sum xs.length)) []
    rwa [leInt_length, List.append_nil] at h
  · have hroot : leAt (head ++ measureTail sat few ovr period freq total) 4 4 =
        rootOf ((min (squareSum xs) (2 ^ 55 - 1)).toNat / xs.length) := by
      rw [leAt_before (by omega), hhead hn]
      unfold measureHead
      rw [squares_summed, List.append_assoc, List.append_assoc, List.append_assoc, leAt_head (leInt_length ..) (Nat.le_refl 4),
        Nat.sub_self, leAt_leBytes_append]
      refine Nat.mod_eq_of_lt ?_
      have hsmall : (min (squareSum xs) (2 ^ 55 - 1)).toNat / xs.length < 2 ^ 56 :=
        Nat.lt_of_le_of_lt (Nat.div_le_self ..) (by omega)
      obtain ⟨hlow, -⟩ := rootOf_bounds (n := (min (squareSum xs) (2 ^ 55 - 1)).toNat / xs.length) (by omega)
      by_contra hbig
      have hbig' : 2 ^ 32 ≤ rootOf ((min (squareSum xs) (2 ^ 55 - 1)).toNat / xs.length) := by omega
      have := Nat.mul_le_mul hbig' hbig'
      omega
    rw [hroot]
    exact rootOf_div hn (Nat.lt_of_le_of_lt (Nat.div_le_self ..) (by omega))
  · obtain ⟨hlo, hlomin, hloall⟩ := foldl_min_spec xs (xs.headD 0)
    obtain ⟨hhi, hhimax, hhiall⟩ := foldl_max_spec xs (xs.headD 0)
    have hmem := headD_mem hn
    refine ⟨_, hlo.elim (fun h => by rw [h]; exact hmem) id, _, hhi.elim (fun h => by rw [h]; exact hmem) id, fun y hy => ⟨hloall y hy, hhiall y hy⟩, ?_⟩
    rw [slice_before (by omega), hhead hn]
    unfold measureHead
    rw [List.append_assoc, List.append_assoc, List.append_assoc, slice_append_skip (by rw [leInt_length]; decide), leInt_length,
      slice_append_skip (by rw [leBytes_length]), leBytes_length]
    have h := slice_append_head (leInt 4 (xs.foldl min (xs.headD 0)) ++ (leInt 4 (xs.foldl max (xs.headD 0)) ++
      leInt 4 (xs.foldl max (xs.headD 0) - xs.foldl min (xs.headD 0)))) []
    rw [List.append_nil] at h
    simp only [List.length_append, leInt_length] at h
    rw [List.append_assoc]
    exact h

end
end Sys2Proof.Machine
end

section
/-! SUPPORT. A record of Mains Watch as it is written: its points and its bytes (R252, R258, R261). -/

namespace Sys2Proof.Machine

section
set_option Elab.async false

/-! ### Output points (R252) -/

/-- Output point `j` of all four channels, and of channel `i`. -/
def pointAt (e : Nat) (raw : List Point) (j : Nat) : Point :=
  let now := (raw.drop (j * 2 ^ e)).take (2 ^ e)
  { c0 := outputPoint e (now.map Point.c0), c1 := outputPoint e (now.map Point.c1)
    c2 := outputPoint e (now.map Point.c2), c3 := outputPoint e (now.map Point.c3) }
def chanPoint (e : Nat) (raw : List Point) (i j : Nat) : Int :=
  (((raw.drop (j * 2 ^ e)).take (2 ^ e)).map fun p => aiCode (nth 0 (pointList p) i)).sum / 2 ^ (e - e / 2)

theorem pointAt_chan (e : Nat) (raw : List Point) (j : Nat) {i : Nat} (hi : i < 4) :
    nth 0 (pointList (pointAt e raw j)) i = chanPoint e raw i j := by
  have hout (f : Point → Int) (ps : List Point) : outputPoint e (ps.map f) = (ps.map fun p => aiCode (f p)).sum / 2 ^ (e - e / 2) := by
    unfold outputPoint
    rw [List.map_map]
    rfl
  unfold chanPoint
  generalize hnow : (raw.drop (j * 2 ^ e)).take (2 ^ e) = now
  have hpoint : pointAt e raw j = { c0 := outputPoint e (now.map Point.c0), c1 := outputPoint e (now.map Point.c1),
                                     c2 := outputPoint e (now.map Point.c2), c3 := outputPoint e (now.map Point.c3) } := by rw [← hnow]; rfl
  rw [hpoint]
  obtain rfl | rfl | rfl | rfl : i = 0 ∨ i = 1 ∨ i = 2 ∨ i = 3 := by omega
  · exact hout Point.c0 now
  · exact hout Point.c1 now
  · exact hout Point.c2 now
  · exact hout Point.c3 now

theorem outputPoints_eq (e len : Nat) (raw : List Point) : outputPoints e len raw = (List.range len).map (pointAt e raw) := by
  induction len generalizing raw with
  | zero => rfl
  | succ len ih =>
    have hlater (j : Nat) : pointAt e (raw.drop (2 ^ e)) j = pointAt e raw (j + 1) := by
      unfold pointAt
      rw [List.drop_drop, Nat.add_comm (2 ^ e), Nat.succ_mul]
    rw [List.range_succ_eq_map, List.map_cons, List.map_map, outputPoints]
    rw [ih, show pointAt e (raw.drop (2 ^ e)) = pointAt e raw ∘ Nat.succ from funext hlater]
    unfold pointAt
    rw [Nat.zero_mul, List.drop_zero]

theorem map_range_drop {α : Type} (f : Nat → α) (n m : Nat) : ((List.range n).map f).drop m = (List.range (n - m)).map fun j => f (m + j) := by
  refine List.ext_getElem (by simp) fun j h1 h2 => ?_
  simp

/-- The valid points of a channel: those from `miss` on. -/
def validPoints (e : Nat) (raw : List Point) (len miss i : Nat) : List Int := (List.range (len - miss)).map fun j => chanPoint e raw i (miss + j)

theorem validPoints_length (e : Nat) (raw : List Point) (len miss i : Nat) : (validPoints e raw len miss i).length = len - miss := by
  simp [validPoints]

theorem validPoints_eq (e : Nat) (raw : List Point) (len miss : Nat) {i : Nat} (hi : i < 4) :
    (((outputPoints e len raw).drop miss).map fun q => nth 0 (pointList q) i) = validPoints e raw len miss i := by
  rw [outputPoints_eq, map_range_drop, List.map_map]
  exact congrArg (fun f => List.map f _) (funext fun j => pointAt_chan e raw (miss + j) hi)

/-! ### The four measurement blocks -/

section
variable (e : Nat) (hyst : Nat → Nat) (ovr : Nat → Bool) (xs : Nat → List Int)

/-- One more channel measured. -/
def blockStep (acc : List Bytes × Nat × State) (i : Nat) : List Bytes × Nat × State :=
  (acc.1 ++ [(measure e (hyst i) (ovr i) (xs i) acc.2.2).1], acc.2.1 + b2n (measure e (hyst i) (ovr i) (xs i) acc.2.2).2.1 * 2 ^ i,
    (measure e (hyst i) (ovr i) (xs i) acc.2.2).2.2)

/-- The blocks of the first `j` channels. -/
structure BlocksMeasured (j : Nat) (s : State) (r : List Bytes × Nat × State) : Prop where
  count : r.1.length = j
  blocks : ∀ i (h : i < r.1.length), MeasureFields (ovr i) (xs i) r.1[i]
  sat : r.2.1 ≠ 0 ↔ ∃ i < j, 2 ^ 55 - 1 < squareSum (xs i)
  state : ∃ n, r.2.2 = { s with clk := { s.clk with freeCount := n } }

theorem blocks_measured (j : Nat) (s : State) :
    BlocksMeasured ovr xs j s ((List.range j).foldl (blockStep e hyst ovr xs) ([], 0, s)) := by
  induction j with
  | zero => exact ⟨rfl, fun _ h => absurd h (Nat.not_lt_zero _), by simp, s.clk.freeCount, rfl⟩
  | succ j ih =>
    rw [List.range_succ, List.foldl_append]
    generalize (List.range j).foldl (blockStep e hyst ovr xs) ([], 0, s) = r at ih ⊢
    obtain ⟨hcount, hblocks, hsat, n, hn⟩ := ih
    obtain ⟨-, -, -, -, -, -, -, -, -, hpin, m, hm⟩ := measure_shape e (hyst j) (ovr j) (xs j) r.2.2
    have hfields := measure_fields e (hyst j) (ovr j) (xs j) r.2.2
    show BlocksMeasured ovr xs (j + 1) s (blockStep e hyst ovr xs r j)
    unfold blockStep
    generalize measure e (hyst j) (ovr j) (xs j) r.2.2 = b at hpin hm hfields ⊢
    refine ⟨by simp [hcount], fun i h => ?_, ?_, m, ?_⟩
    · dsimp only at h ⊢
      rw [List.getElem_append]
      split
      · next hi => exact hblocks i hi
      · next hi =>
        rw [List.length_append, List.length_singleton] at h
        obtain rfl : i = j := by omega
        rw [List.getElem_singleton]
        exact hfields
    · dsimp only
      rw [hpin]
      by_cases hbig : 2 ^ 55 - 1 < squareSum (xs j)
      · rw [decide_eq_true hbig]
        have hpos : 0 < 2 ^ j := Nat.two_pow_pos j
        refine iff_of_true ?_ ⟨j, Nat.lt_succ_self j, hbig⟩
        show r.2.1 + 1 * 2 ^ j ≠ 0
        omega
      · rw [decide_eq_false hbig]
        show r.2.1 + 0 * 2 ^ j ≠ 0 ↔ _
        rw [Nat.zero_mul, Nat.add_zero, hsat]
        refine ⟨fun ⟨i, hi, h⟩ => ⟨i, Nat.lt_succ_of_lt hi, h⟩, fun ⟨i, hi, h⟩ => ⟨i, ?_, h⟩⟩
        rcases Nat.lt_succ_iff_lt_or_eq.1 hi with hlt | rfl
        · exact hlt
        · exact absurd h hbig
    · dsimp only
      rw [hm, hn]

end

/-! ### The record (R261) -/

/-- The fields of a record's header before its CRC. -/
def recordFields (c : AcqCfg) (g e pre trig flags : Nat) (k : Capture) (seq : Word) (s : State) : List (Nat × Nat) :=
  [(2, 0x4D52), (1, g), (1, flags), (4, seq.toNat), (4, recSize c), (1, e), (1, 0), (2, k.sources.toNat), (4, c.recLen), (4, pre), (4, trig),
    (8, k.trigUs), (4, s.power.pwrCycles.toNat), (4, k.detail.toNat), (2, k.extra.toNat), (14, 0)]

/-- The points of a record, 3 bytes for each channel. -/
def pointBytes (ps : List Point) : Bytes := ps.flatMap fun q => (pointList q).flatMap (leInt 3)

/-- A record's bytes. -/
structure RecordShape (c : AcqCfg) (g : Nat) (k : Capture) (raw : List Point) (ovr : BitVec 4) (seq : Word) (pre trig : Nat) (s : State)
    (r : Bytes × Nat × State) : Prop where
  bytes : ∃ blocks : List Bytes, blocks.length = 4 ∧
    (∀ i (h : i < blocks.length), MeasureFields (ovr.getLsbD i) (validPoints (groupK c g) raw c.recLen (trig - pre) i) blocks[i]) ∧
    ∃ head body, head = fieldBytes (recordFields c g (groupK c g) pre trig
        (b2n (decide (r.2.1 ≠ 0)) + 2 * b2n (decide (pre < trig)) + 4 * b2n (decide (ovr ≠ 0))) k seq s) ∧
      body = blocks.flatMap id ++ pointBytes (List.replicate (trig - pre) ({} : Point) ++ (outputPoints (groupK c g) c.recLen raw).drop (trig - pre)) ∧
      r.1 = head ++ leBytes 4 (crc32c (head ++ body)) ++ body
  sat : r.2.1 ≠ 0 ↔ ∃ i < 4, 2 ^ 55 - 1 < squareSum (validPoints (groupK c g) raw c.recLen (trig - pre) i)
  state : ∃ n, r.2.2 = { s with clk := { s.clk with freeCount := n } }

theorem recordBytes_shape (c : AcqCfg) (g : Nat) (k : Capture) (raw : List Point) (ovr : BitVec 4) (seq : Word) (s : State) :
    RecordShape c g k raw ovr seq (preValid c k s) (c.recLen * c.pretrig / 100) s
      (recordBytes c g k (outputPoints (groupK c g) c.recLen raw) ovr seq s) := by
  generalize htrig : c.recLen * c.pretrig / 100 = trig
  generalize hpre : preValid c k s = pre
  let r := (List.range 4).foldl (blockStep (groupK c g) (fun i => (nth {} c.ch (4 * g + i)).hyst) ovr.getLsbD
    fun i => ((outputPoints (groupK c g) c.recLen raw).drop (trig - pre)).map fun q => nth 0 (pointList q) i) ([], 0, s)
  have hmeasured : BlocksMeasured ovr.getLsbD (fun i => ((outputPoints (groupK c g) c.recLen raw).drop (trig - pre)).map fun q => nth 0 (pointList q) i)
    4 s r := blocks_measured ..
  let head := fieldBytes (recordFields c g (groupK c g) pre trig
    (b2n (decide (r.2.1 ≠ 0)) + 2 * b2n (decide (pre < trig)) + 4 * b2n (decide (ovr ≠ 0))) k seq s)
  let body := r.1.flatMap id ++ pointBytes (List.replicate (trig - pre) ({} : Point) ++ (outputPoints (groupK c g) c.recLen raw).drop (trig - pre))
  have heq : recordBytes c g k (outputPoints (groupK c g) c.recLen raw) ovr seq s =
      (head ++ leBytes 4 (crc32c (head ++ body)) ++ body, r.2.1, r.2.2) := by
    have hhead : leBytes 2 0x4D52 ++ leBytes 1 g ++ leBytes 1 (b2n (decide (r.2.1 ≠ 0)) + 2 * b2n (decide (pre < trig)) + 4 * b2n (decide (ovr ≠ 0))) ++
        leBytes 4 seq.toNat ++ leBytes 4 (recSize c) ++ leBytes 1 (groupK c g) ++ zeros 1 ++ leBytes 2 k.sources.toNat ++ leBytes 4 c.recLen ++
        leBytes 4 pre ++ leBytes 4 trig ++ leBytes 8 k.trigUs ++ leBytes 4 s.power.pwrCycles.toNat ++ leBytes 4 k.detail.toNat ++
        leBytes 2 k.extra.toNat ++ zeros 14 = head := by
      unfold head fieldBytes recordFields
      simp only [List.flatMap_cons, List.flatMap_nil, List.append_nil, List.append_assoc]
      rfl
    rw [← hhead]
    unfold recordBytes
    dsimp only
    rw [htrig, hpre]
    rfl
  have hfields (i : Nat) (h : i < r.1.length) :
      MeasureFields (ovr.getLsbD i) (validPoints (groupK c g) raw c.recLen (trig - pre) i) r.1[i] := by
    have hb := hmeasured.blocks i h
    rwa [validPoints_eq _ _ _ _ (by rw [hmeasured.count] at h; exact h)] at hb
  refine ⟨⟨r.1, hmeasured.count, hfields, head, body, ?_, rfl, by rw [heq]⟩, ?_, ?_⟩
  · rw [heq]
  · rw [heq]
    show r.2.1 ≠ 0 ↔ _
    rw [hmeasured.sat]
    refine exists_congr fun i => and_congr_right fun hi => ?_
    rw [validPoints_eq _ _ _ _ hi]
  · rw [heq]
    exact hmeasured.state

end
end Sys2Proof.Machine
end

section
/-! SUPPORT. A record of Mains Watch as it is read: header, CRC, measurement blocks and points in their places (R261). -/

namespace Sys2Proof.Machine

section
set_option Elab.async false

/-! ### Points in their places -/

theorem pointWords_slice (ys : List Int) {i : Nat} (hi : i < ys.length) : slice (ys.flatMap (leInt 3)) (3 * i) 3 = leInt 3 (nth 0 ys i) := by
  have hblock := slice_block 3 (ys.map (leInt 3)) (fun b hb => by
    obtain ⟨y, -, rfl⟩ := List.mem_map.1 hb
    exact leInt_length 3 y) (i := i) (by rw [List.length_map]; exact hi) [] (o := 0) (n := 3) (Nat.le_refl 3)
  rw [List.append_nil, Nat.add_zero, List.flatMap_map, List.getElem_map] at hblock
  refine hblock.trans ?_
  have hword := slice_append_head (leInt 3 ys[i]) []
  rw [List.append_nil, leInt_length] at hword
  rw [hword, nth, List.getD_eq_getElem _ _ hi]

theorem pointWords_length (q : Point) : ((pointList q).flatMap (leInt 3)).length = 12 := by
  simp [pointList, leInt_length]

theorem pointBytes_length (ps : List Point) : (pointBytes ps).length = 12 * ps.length := by
  unfold pointBytes
  rw [List.length_flatMap, List.map_congr_left (fun q _ => pointWords_length q), List.map_const', List.sum_replicate, smul_eq_mul, Nat.mul_comm]

/-- A channel's value of a point, read in its place. -/
theorem pointBytes_slice (ps : List Point) {j : Nat} (hj : j < ps.length) {i : Nat} (hi : i < 4) :
    slice (pointBytes ps) (12 * j + 3 * i) 3 = leInt 3 (nth 0 (pointList ps[j]) i) := by
  have hblock := slice_block 12 (ps.map fun q => (pointList q).flatMap (leInt 3)) (fun b hb => by
    obtain ⟨q, -, rfl⟩ := List.mem_map.1 hb
    exact pointWords_length q) (i := j) (by rw [List.length_map]; exact hj) [] (o := 3 * i) (n := 3) (by omega)
  rw [List.append_nil, List.flatMap_map, List.getElem_map] at hblock
  exact hblock.trans (pointWords_slice (pointList ps[j]) hi)

/-- The points of a record: the first `miss` were never acquired. -/
def recordPoints (e : Nat) (raw : List Point) (len miss : Nat) : List Point :=
  List.replicate miss ({} : Point) ++ (outputPoints e len raw).drop miss

theorem recordPoints_length (e : Nat) (raw : List Point) {len miss : Nat} (h : miss ≤ len) : (recordPoints e raw len miss).length = len := by
  rw [recordPoints, outputPoints_eq, List.length_append, List.length_replicate, List.length_drop, List.length_map, List.length_range]
  omega

theorem recordPoints_chan (e : Nat) (raw : List Point) {len miss j i : Nat} (hi : i < 4) (hj : j < (recordPoints e raw len miss).length) :
    nth 0 (pointList (recordPoints e raw len miss)[j]) i = if j < miss then 0 else chanPoint e raw i j := by
  unfold recordPoints at hj ⊢
  rw [List.getElem_append]
  simp only [List.length_replicate]
  split
  · rw [List.getElem_replicate]
    obtain rfl | rfl | rfl | rfl : i = 0 ∨ i = 1 ∨ i = 2 ∨ i = 3 := by omega
    all_goals rfl
  · next hmiss =>
    simp only [outputPoints_eq, List.getElem_drop, List.getElem_map, List.getElem_range]
    rw [pointAt_chan _ _ _ hi, show miss + (j - miss) = j by omega]

/-! ### The record as it is read -/

/-- What a record's bytes say: its header, CRC and points. -/
structure RecordHead (c : AcqCfg) (g e pre trig sat : Nat) (k : Capture) (ovr : BitVec 4) (seq : Word) (s : State) (b : Bytes) : Prop where
  magic : leAt b 0 2 = 0x4D52
  group : leAt b 2 1 = g % 256 ^ 1
  seq : leAt b 4 4 = seq.toNat
  size : leAt b 8 4 = recSize c % 256 ^ 4
  exponent : leAt b 12 1 = e % 256 ^ 1
  sources : leAt b 14 2 = k.sources.toNat
  len : leAt b 16 4 = c.recLen % 256 ^ 4
  prePoints : leAt b 20 4 = pre % 256 ^ 4
  trigPoints : leAt b 24 4 = trig % 256 ^ 4
  instant : leAt b 28 8 = k.trigUs % 256 ^ 8
  cycles : leAt b 36 4 = s.power.pwrCycles.toNat
  detail : leAt b 40 4 = k.detail.toNat
  extra : leAt b 44 2 = k.extra.toNat
  pinned : (leAt b 3 1).testBit 0 = true ↔ sat ≠ 0
  gap : (leAt b 3 1).testBit 1 = decide (pre < trig)
  beyond : (leAt b 3 1).testBit 2 = true ↔ ovr ≠ 0

/-- The flags byte of a record's header. -/
def recordFlags (sat pre trig : Nat) (ovr : BitVec 4) : Nat := b2n (decide (sat ≠ 0)) + 2 * b2n (decide (pre < trig)) + 4 * b2n (decide (ovr ≠ 0))

/-- The widths of a record's header fields. -/
def recordWidths : List Nat := [2, 1, 1, 4, 4, 1, 1, 2, 4, 4, 4, 8, 4, 4, 2, 14]

theorem recordFields_widths (c : AcqCfg) (g e pre trig flags : Nat) (k : Capture) (seq : Word) (s : State) :
    (recordFields c g e pre trig flags k seq s).map Prod.fst = recordWidths := by
  unfold recordFields recordWidths
  simp only [List.map_cons, List.map_nil]

theorem recordFields_before (c : AcqCfg) (g e pre trig flags : Nat) (k : Capture) (seq : Word) (s : State) (i : Nat) :
    fieldWidth ((recordFields c g e pre trig flags k seq s).take i) = (recordWidths.take i).sum := by
  rw [fieldWidth, List.map_take, recordFields_widths]

theorem recordFields_width (c : AcqCfg) (g e pre trig flags : Nat) (k : Capture) (seq : Word) (s : State) :
    fieldWidth (recordFields c g e pre trig flags k seq s) = 60 := by
  rw [fieldWidth, recordFields_widths]
  decide

theorem recordHead_read (c : AcqCfg) (g e pre trig sat : Nat) (k : Capture) (ovr : BitVec 4) (seq : Word) (s : State) (rest : Bytes) :
    RecordHead c g e pre trig sat k ovr seq s
      (fieldBytes (recordFields c g e pre trig (recordFlags sat pre trig ovr) k seq s) ++ rest) := by
  have hword {n : Nat} (w : BitVec n) {m : Nat} (h : n ≤ 8 * m) : w.toNat % 256 ^ m = w.toNat := by
    refine Nat.mod_eq_of_lt (Nat.lt_of_lt_of_le w.isLt ?_)
    rw [show (256 : Nat) = 2 ^ 8 from rfl, ← Nat.pow_mul]
    exact Nat.pow_le_pow_right (by decide) h
  have hfield (i : Nat) {a n v : Nat} (ha : (recordWidths.take i).sum = a)
      (hv : (recordFields c g e pre trig (recordFlags sat pre trig ovr) k seq s)[i]? = some (n, v)) :
      leAt (fieldBytes (recordFields c g e pre trig (recordFlags sat pre trig ovr) k seq s) ++ rest) a n = v % 256 ^ n := by
    obtain ⟨hi, hget⟩ := List.getElem?_eq_some_iff.1 hv
    have hread := leAt_field _ hi rest
    rwa [recordFields_before, ha, hget] at hread
  obtain ⟨hbit0, hbit1, hbit2⟩ := flags_bits (decide (sat ≠ 0)) (decide (pre < trig)) (decide (ovr ≠ 0))
  have hflags : leAt (fieldBytes (recordFields c g e pre trig (recordFlags sat pre trig ovr) k seq s) ++ rest) 3 1 =
      recordFlags sat pre trig ovr % 256 := (hfield 2 (by decide) rfl).trans (by rw [Nat.pow_one])
  exact {
    magic := hfield 0 (by decide) rfl
    group := hfield 1 (by decide) rfl
    seq := (hfield 3 (by decide) rfl).trans (hword seq (by decide))
    size := hfield 4 (by decide) rfl
    exponent := hfield 5 (by decide) rfl
    sources := (hfield 7 (by decide) rfl).trans (hword k.sources (by decide))
    len := hfield 8 (by decide) rfl
    prePoints := hfield 9 (by decide) rfl
    trigPoints := hfield 10 (by decide) rfl
    instant := hfield 11 (by decide) rfl
    cycles := (hfield 12 (by decide) rfl).trans (hword s.power.pwrCycles (by decide))
    detail := (hfield 13 (by decide) rfl).trans (hword k.detail (by decide))
    extra := (hfield 14 (by decide) rfl).trans (hword k.extra (by decide))
    pinned := by rw [hflags]; exact (Bool.eq_iff_iff.1 hbit0).trans decide_eq_true_iff
    gap := by rw [hflags]; exact hbit1
    beyond := by rw [hflags]; exact (Bool.eq_iff_iff.1 hbit2).trans decide_eq_true_iff }

/-- A record's bytes, read. -/
structure RecordRead (c : AcqCfg) (g e : Nat) (k : Capture) (raw : List Point) (ovr : BitVec 4) (seq : Word) (pre trig : Nat) (s : State)
    (b : Bytes) : Prop where
  length : b.length = recSize c
  head : ∃ sat, (sat ≠ 0 ↔ ∃ i < 4, 2 ^ 55 - 1 < squareSum (validPoints e raw c.recLen (trig - pre) i)) ∧
    RecordHead c g e pre trig sat k ovr seq s b
  crc : leAt b 60 4 = crc32c (b.take 60 ++ b.drop 64)
  points : ∀ j < c.recLen, ∀ i < 4, slice b (192 + 3 * (4 * j + i)) 3 = leInt 3 (if j < trig - pre then 0 else chanPoint e raw i j)
  blocks : ∀ i < 4, ∃ m, MeasureFields (ovr.getLsbD i) (validPoints e raw c.recLen (trig - pre) i) m ∧
    ∀ o n, o + n ≤ 32 → slice b (64 + 32 * i + o) n = slice m o n

theorem recordShape_read {c : AcqCfg} {g : Nat} {k : Capture} {raw : List Point} {ovr : BitVec 4} {seq : Word} {pre trig : Nat} {s : State}
    {r : Bytes × Nat × State} (h : RecordShape c g k raw ovr seq pre trig s r) (hmiss : trig - pre ≤ c.recLen) :
    RecordRead c g (groupK c g) k raw ovr seq pre trig s r.1 := by
  obtain ⟨⟨blocks, hcount, hblocks, head, body, hhead, hbody, hbytes⟩, hsat, -⟩ := h
  have hheadlen : head.length = 60 := by rw [hhead, fieldBytes_length, recordFields_width]
  have hsize (b : Bytes) (hb : b ∈ blocks) : b.length = 32 := by
    obtain ⟨i, hi, rfl⟩ := List.getElem_of_mem hb
    exact (hblocks i hi).size
  have hflat : (blocks.flatMap id).length = 128 := by
    rw [List.length_flatMap, List.map_congr_left (f := fun b : Bytes => (id b).length) (g := fun _ => 32) hsize, List.map_const', List.sum_replicate, hcount]
    rfl
  have hpts := recordPoints_length (groupK c g) raw hmiss
  have hbodylen : body.length = 128 + 12 * c.recLen := by
    rw [hbody, List.length_append, hflat, pointBytes_length]
    exact congrArg (128 + 12 * ·) hpts
  have hcrclen : (head ++ leBytes 4 (crc32c (head ++ body))).length = 64 := by rw [List.length_append, hheadlen, leBytes_length]
  rw [hbytes]
  refine ⟨?_, ⟨r.2.1, hsat, ?_⟩, ?_, fun j hj i hi => ?_, fun i hi => ?_⟩
  · rw [List.length_append, hcrclen, hbodylen, recSize]
    omega
  · rw [List.append_assoc, hhead]
    exact recordHead_read ..
  · have htake : (head ++ leBytes 4 (crc32c (head ++ body)) ++ body).take 60 = head := by
      rw [List.append_assoc, ← hheadlen, List.take_left]
    have hdrop : (head ++ leBytes 4 (crc32c (head ++ body)) ++ body).drop 64 = body := by rw [← hcrclen, List.drop_left]
    rw [htake, hdrop, List.append_assoc, leAt_head hheadlen (Nat.le_refl 60), Nat.sub_self, leAt_leBytes_append]
    exact Nat.mod_eq_of_lt (crc32c_lt _)
  · have hj' : j < (recordPoints (groupK c g) raw c.recLen (trig - pre)).length := hj.trans_eq hpts.symm
    rw [slice_append_skip (by omega), hcrclen, hbody, slice_append_skip (by omega), hflat,
      show 192 + 3 * (4 * j + i) - 64 - 128 = 12 * j + 3 * i by omega, ← recordPoints_chan _ _ hi hj']
    exact pointBytes_slice _ hj' hi
  · have hi' : i < blocks.length := by omega
    refine ⟨blocks[i], hblocks i hi', fun o n hon => ?_⟩
    rw [slice_append_skip (by omega), hcrclen, hbody, show 64 + 32 * i + o - 64 = 32 * i + o by omega]
    exact slice_block 32 blocks hsize hi' _ hon

end
end Sys2Proof.Machine
end

section
/-! SUPPORT. RECORD_STORED: the record in its buffer, its descriptor, and the end of the capture (R258, R259, R261). -/

namespace Sys2Proof.Machine

section
set_option Elab.async false

section
variable (c : AcqCfg) (k : Capture) (raw : List Point) (s : State)

/-- Where the capture's next record stands. -/
def recordPlace : Nat := 0xE00000 + k.set * setSize c + (if decide (k.nextGroup = 1) = true ∧ c.grpEn.getLsbD 0 = true then setSize c / 2 else 0)

/-- The channels beyond full scale in the valid points' samples. -/
def recordOver : BitVec 4 := overChannels (raw.drop ((c.recLen * c.pretrig / 100 - preValid c k s) * 2 ^ groupK c k.nextGroup))

/-- The record's bytes, its pinned channels and the state after the measurements. -/
def recordMeasured : Bytes × Nat × State :=
  recordBytes c k.nextGroup k (outputPoints (groupK c k.nextGroup) c.recLen raw) (recordOver c k raw s) (s.acq.recSeq + 1) s

section
variable (r : Bytes × Nat × State)

/-- The measured record `r` in its buffer. -/
def recordWritten : State :=
  dataWrite (recordPlace c k) r.1 { r.2.2 with acq := { r.2.2.acq with recSeq := s.acq.recSeq + 1 } }

/-- The record's descriptor. -/
def recordDescriptor : Desc :=
  { buf := BitVec.ofNat 32 (recordPlace c k), len := if recSize c < 65536 then BitVec.ofNat 16 (recSize c) else 0, src := 0x0C
    ts := BitVec.ofNat 32 k.trigUs, tag := s.acq.recSeq + 1 }

/-- A trace record tells of pinned sums. -/
def pinnedTraced (seq : Word) (sat : Nat) (t : State) : State := if sat ≠ 0 then tr 0x603 0 (item seq.toNat ++ item sat) t else t

/-- The descriptor of the buffer set goes to Q0027. -/
def setPushed (seq : Word) (t : State) : State :=
  push 27 { buf := freeWord t, src := 0x0C, ts := BitVec.ofNat 32 k.trigUs, tag := seq } (drawn t)

/-- After a record: group B is next, or the capture has ended. -/
def recordClosed (seq : Word) (t : State) : State :=
  if (!decide (k.nextGroup = 1)) = true ∧ c.grpEn.getLsbD 1 = true then { t with acq := { t.acq with capture := some { k with nextGroup := 1 } } }
  else rearm c { setPushed k seq t with acq := { (setPushed k seq t).acq with capture := none } }

/-- The state once the record's descriptor has gone out. -/
def recordPushed : State := push c.ring (recordDescriptor c k s) (recordWritten c k s r)

/-- What the measured record `r` leaves. -/
def recordFinished : State := recordClosed c k (s.acq.recSeq + 1) (pinnedTraced (s.acq.recSeq + 1) r.2.1 (recordPushed c k s r))

end

variable {c k raw s} (hc : acqCfg s = some c) (hk : s.acq.capture = some k) (hruns : mwRuns s = true)
include hc hk hruns

omit hruns in
theorem recordStored_mismatch (h : raw.length ≠ c.recLen * 2 ^ groupK c k.nextGroup) : recordStored raw s = s := by
  unfold recordStored
  rw [hc, hk]
  exact if_pos (.inr h)

theorem recordStored_eq (h : raw.length = c.recLen * 2 ^ groupK c k.nextGroup) :
    recordStored raw s = recordFinished c k s (recordMeasured c k raw s) := by
  unfold recordStored
  rw [hc, hk]
  refine (if_neg (by rw [hruns]; simp [h])).trans ?_
  extract_lets g pts over' seq
  have hmeasured : recordMeasured c k raw s = recordBytes c g k pts over' seq s := rfl
  rw [hmeasured]
  generalize recordBytes c g k pts over' seq s = r
  obtain ⟨bs, sat, s1⟩ := r
  rfl

end

/-! ### What is booked after the record stands in its buffer -/

section
variable (c : AcqCfg) (k : Capture) (s : State)

theorem setPushed_booked (seq : Word) (t : State) : Safety.Booked [27, 2, 3] t (setPushed k seq t) :=
  (Safety.drawn_booked _ t).trans (Safety.push_booked ..)

theorem rearm_arms (t : State) : ∃ w a, rearm c t = { t with acq := { t.acq with armWait := w, armedUs := a } } := by
  unfold rearm
  split
  · exact ⟨true, t.acq.armedUs, rfl⟩
  · exact ⟨false, t.clk.opUs, rfl⟩

theorem recordClosed_booked (seq : Word) (t : State) :
    Safety.Booked [27, 2, 3] { t with acq := (recordClosed c k seq t).acq } (recordClosed c k seq t) := by
  unfold recordClosed
  split
  · exact Safety.Booked.refl ..
  · obtain ⟨w, a, h⟩ := rearm_arms c { setPushed k seq t with acq := { (setPushed k seq t).acq with capture := none } }
    rw [h]
    exact (setPushed_booked k seq t).withAcq _

theorem recordClosed_acq (seq : Word) (t : State) : ∃ w a, (recordClosed c k seq t).acq = { t.acq with
    capture := if k.nextGroup ≠ 1 ∧ c.grpEn.getLsbD 1 = true then some { k with nextGroup := 1 } else none, armWait := w, armedUs := a } := by
  have hgroup : ((!decide (k.nextGroup = 1)) = true ∧ c.grpEn.getLsbD 1 = true) ↔ (k.nextGroup ≠ 1 ∧ c.grpEn.getLsbD 1 = true) := by simp
  unfold recordClosed
  by_cases h : k.nextGroup ≠ 1 ∧ c.grpEn.getLsbD 1 = true
  · rw [if_pos h, if_pos (hgroup.2 h)]
    exact ⟨t.acq.armWait, t.acq.armedUs, rfl⟩
  · obtain ⟨w, a, hrearm⟩ := rearm_arms c { setPushed k seq t with acq := { (setPushed k seq t).acq with capture := none } }
    have hacq : (setPushed k seq t).acq = t.acq := by rw [(setPushed_booked k seq t).frame]
    rw [if_neg h, if_neg (mt hgroup.1 h), hrearm, hacq]
    exact ⟨w, a, rfl⟩

theorem pinnedTraced_booked (seq : Word) (sat : Nat) (t : State) : Safety.Booked [2, 3] t (pinnedTraced seq sat t) := by
  unfold pinnedTraced
  split
  · exact Safety.tr_booked ..
  · exact Safety.Booked.refl ..

variable (r : Bytes × Nat × State)

theorem recordFinished_booked :
    Safety.Booked [27, 2, 3] { recordPushed c k s r with acq := (recordFinished c k s r).acq } (recordFinished c k s r) := by
  have htraced := ((pinnedTraced_booked (s.acq.recSeq + 1) r.2.1 (recordPushed c k s r)).mono (ms := [27, 2, 3]) (by simp)).withAcq
    (recordFinished c k s r).acq
  exact htraced.trans (recordClosed_booked c k (s.acq.recSeq + 1) _)

theorem recordFinished_acq : ∃ w a, (recordFinished c k s r).acq = { (recordWritten c k s r).acq with
    capture := if k.nextGroup ≠ 1 ∧ c.grpEn.getLsbD 1 = true then some { k with nextGroup := 1 } else none, armWait := w, armedUs := a } := by
  obtain ⟨w, a, h⟩ := recordClosed_acq c k (s.acq.recSeq + 1) (pinnedTraced (s.acq.recSeq + 1) r.2.1 (recordPushed c k s r))
  have hpush : Safety.Booked [c.ring, 2, 3] (recordWritten c k s r) (recordPushed c k s r) := Safety.push_booked ..
  have htraced : (pinnedTraced (s.acq.recSeq + 1) r.2.1 (recordPushed c k s r)).acq = (recordWritten c k s r).acq := by
    rw [(pinnedTraced_booked (s.acq.recSeq + 1) r.2.1 (recordPushed c k s r)).frame, hpush.frame]
  rw [htraced] at h
  exact ⟨w, a, h⟩

end

/-! ### The record and its descriptor in data memory -/

section
variable (c : AcqCfg) (k : Capture) (s : State) {r : Bytes × Nat × State} (hr : ∃ n, r.2.2 = { s with clk := { s.clk with freeCount := n } })
  (hsize : r.1.length = recSize c)
include hr

theorem recordWritten_ring (n : Nat) : ringGet (recordWritten c k s r) n = ringGet s n := by
  obtain ⟨m, hm⟩ := hr
  unfold recordWritten
  rw [hm]
  rfl

theorem recordWritten_inSlots (ns : List Nat) (y : Nat) : Safety.inSlots (recordWritten c k s r) ns y ↔ Safety.inSlots s ns y := by
  unfold Safety.inSlots
  simp only [recordWritten_ring c k s hr]

theorem recordWritten_data : (recordWritten c k s r).data = memWrite 0 dataSize s.data (recordPlace c k) r.1 := by
  obtain ⟨m, hm⟩ := hr
  unfold recordWritten
  rw [hm]
  rfl

theorem recordPushed_inSlots (ns : List Nat) (y : Nat) : Safety.inSlots (recordPushed c k s r) ns y ↔ Safety.inSlots s ns y := by
  have hpush : Safety.Booked [c.ring, 2, 3] (recordWritten c k s r) (recordPushed c k s r) := Safety.push_booked ..
  rw [← recordWritten_inSlots c k s hr ns y]
  simp only [Safety.inSlots, ringDepth, (hpush.layout _).1, (hpush.layout _).2.1]

/-- Outside the slots of the rings that take descriptors the data stand as the record was written. -/
theorem recordFinished_byte {y : Nat} (hy : ¬ Safety.inSlots s [c.ring, 27, 2, 3] y) :
    memGet 0 (recordFinished c k s r).data y = memGet 0 (memWrite 0 dataSize s.data (recordPlace c k) r.1) y := by
  have hpush : Safety.Booked [c.ring, 2, 3] (recordWritten c k s r) (recordPushed c k s r) := Safety.push_booked ..
  have hsome {ns : List Nat} (hns : ns ⊆ [c.ring, 27, 2, 3]) : ¬ Safety.inSlots s ns y := fun ⟨n, hn, hin⟩ => hy ⟨n, hns hn, hin⟩
  rw [(recordFinished_booked c k s r).bytesKept y (mt (recordPushed_inSlots c k s hr _ y).1 (hsome (by simp))),
    ← recordWritten_data c k s hr]
  exact hpush.bytesKept y (mt (recordWritten_inSlots c k s hr _ y).1 (hsome (by simp)))

include hsize

theorem recordFinished_elsewhere {y : Nat} (hout : y < recordPlace c k ∨ recordPlace c k + recSize c ≤ y)
    (hy : ¬ Safety.inSlots s [c.ring, 27, 2, 3] y) : memGet 0 (recordFinished c k s r).data y = memGet 0 s.data y := by
  rw [recordFinished_byte c k s hr hy]
  exact Safety.memGet_memWrite_outside _ _ _ _ _ _ (by rw [hsize]; exact hout)

theorem recordFinished_record (hwf : Safety.storesWf s) (hfits : recordPlace c k + recSize c ≤ 16777216)
    (hrings : ∀ m ∈ [c.ring, 27, 2, 3], (ringGet s m).base + ringDepth (ringGet s m) ≤ 262144) :
    dataRead (recordPlace c k) (recSize c) (recordFinished c k s r) = r.1 := by
  have hplace : 14680064 ≤ recordPlace c k := by unfold recordPlace; omega
  have hswf : swf 0 dataSize s.data = true := by
    have h := hwf
    simp only [Safety.storesWf, Memory.wf, Bool.and_eq_true] at h
    exact h.1.1
  have hbytes : dataRead (recordPlace c k) (recSize c) (recordFinished c k s r) =
      memRead 0 (memWrite 0 dataSize s.data (recordPlace c k) r.1) (recordPlace c k) (recSize c) := by
    refine memRead_congr fun y hlow _ => recordFinished_byte c k s hr ?_
    rintro ⟨n, hn, -, hhigh⟩
    have := hrings n hn
    omega
  rw [hbytes, ← hsize]
  exact memRead_memWrite 0 dataSize s.data (recordPlace c k) r.1 hswf (by rw [hsize]; exact hfits)

omit hsize

theorem recordFinished_descriptor (hwf : Safety.storesWf s) (hown : c.ring ∉ [27, 2, 3]) (hapart : Safety.ringApart c.ring s)
    (hsets : ∀ y, Safety.inSlots s [c.ring] y → ¬ Safety.inSlots s [27] y) (hdepth : ringDepth (ringGet s c.ring) ≠ 0)
    (hroom : ringFull (ringGet s c.ring) = false) (hwaits : (ringGet s c.ring).policy = 1 → (ringGet s c.ring).waiting = []) :
    (ringGet (recordFinished c k s r) c.ring).pi = (ringGet s c.ring).pi + 1 ∧
      dataRead (ringAddr (ringGet s c.ring) (ringGet s c.ring).pi) 16 (recordFinished c k s r) = descBytes (recordDescriptor c k s) := by
  have hring := recordWritten_ring c k s hr c.ring
  have hn : c.ring ≠ 2 ∧ c.ring ≠ 3 := by simp at hown; exact hown.2
  have hwf' : Safety.storesWf (recordWritten c k s r) := by
    obtain ⟨m, hm⟩ := hr
    unfold recordWritten
    rw [hm]
    exact dataWrite_wf _ _ _ hwf
  have hapart' : Safety.ringApart c.ring (recordWritten c k s r) := by
    unfold Safety.ringApart
    rw [hring]
    exact ⟨hapart.1, fun y hy => mt (recordWritten_inSlots c k s hr _ y).1 (hapart.2 y ((recordWritten_inSlots c k s hr _ y).1 hy))⟩
  obtain ⟨hpi, hbytes⟩ := push_place (u := recordWritten c k s r) hn (recordDescriptor c k s) (by rw [hring]; exact hdepth)
    (by rw [hring]; exact hroom) (by rw [hring]; exact or_iff_not_imp_left.2 fun h => hwaits (not_not.1 h)) (LandBooked.refl [2, 3] (recordPushed c k s r))
  rw [hring] at hpi hbytes
  have hbooked := recordFinished_booked c k s r
  refine ⟨?_, ?_⟩
  · rw [hbooked.ringsKept c.ring hown]
    exact hpi
  · rw [← hbytes hwf' hapart']
    refine dataRead_of_booked hbooked fun y hlow hhigh hin => ?_
    have hslot : Safety.inSlots s [c.ring] y := ringAddr_inSlots _ hdepth rfl rfl hlow hhigh
    obtain ⟨n, hmem, hn⟩ := (recordPushed_inSlots c k s hr _ y).1 hin
    rcases List.mem_cons.1 hmem with rfl | hmem
    · exact hsets y hslot ⟨27, List.mem_singleton_self 27, hn⟩
    · exact hapart.2 y hslot ⟨n, hmem, hn⟩

end
end
end Sys2Proof.Machine
end

section
/-! SUPPORT. What a stored record says (R261, R262). -/

namespace Sys2Proof.Machine

section
set_option Elab.async false

theorem overChannels_bit (raw : List Point) {i : Nat} (hi : i < 4) :
    (overChannels raw).getLsbD i = raw.any fun p => aiOver (nth 0 (pointList p) i) := getLsbD_ofNat_maskOf _ hi hi

theorem overChannels_some (raw : List Point) : overChannels raw ≠ 0 ↔ ∃ i < 4, (raw.any fun p => aiOver (nth 0 (pointList p) i)) = true := by
  constructor
  · intro h
    by_contra hnone
    refine h (BitVec.eq_of_getLsbD_eq fun i hi => ?_)
    rw [overChannels_bit raw hi, show (0 : BitVec 4).getLsbD i = false from BitVec.getLsbD_zero]
    exact Bool.eq_false_iff.2 fun hbit => hnone ⟨i, hi, hbit⟩
  · rintro ⟨i, hi, hbit⟩ hzero
    rw [← overChannels_bit raw hi, hzero, show (0 : BitVec 4).getLsbD i = false from BitVec.getLsbD_zero] at hbit
    exact Bool.false_ne_true hbit

section
variable {c : AcqCfg} {g e : Nat} {k : Capture} {raw : List Point} {ovr : BitVec 4} {seq : Word} {pre trig : Nat} {s : State} {b : Bytes}

/-- What a record says of one channel. -/
structure ChannelSays (ovr : Bool) (xs : List Int) (n i : Nat) (b : Bytes) : Prop where
  pinned : (leAt b (94 + 32 * i) 1).testBit 0 = true ↔ 2 ^ 55 - 1 < squareSum xs
  beyond : (leAt b (94 + 32 * i) 1).testBit 2 = ovr
  few : (leAt b (94 + 32 * i) 1).testBit 1 = true → leAt b (84 + 32 * i) 8 = 0
  mean : 0 < n → squareSum xs ≤ 2 ^ 55 - 1 → slice b (64 + 32 * i) 4 = leInt 4 (divNearest xs.sum n)
  rms : 0 < n → leAt b (68 + 32 * i) 4 * leAt b (68 + 32 * i) 4 * n ≤ (min (squareSum xs) (2 ^ 55 - 1)).toNat ∧
    (min (squareSum xs) (2 ^ 55 - 1)).toNat < (leAt b (68 + 32 * i) 4 + 1) * (leAt b (68 + 32 * i) 4 + 1) * n
  extremes : 0 < n → ∃ lo ∈ xs, ∃ hi ∈ xs, (∀ y ∈ xs, lo ≤ y ∧ y ≤ hi) ∧
    slice b (72 + 32 * i) 12 = leInt 4 lo ++ leInt 4 hi ++ leInt 4 (hi - lo)

theorem record_channel (h : RecordRead c g e k raw ovr seq pre trig s b) {i : Nat} (hi : i < 4) :
    ChannelSays (ovr.getLsbD i) (validPoints e raw c.recLen (trig - pre) i) (c.recLen - (trig - pre)) i b := by
  obtain ⟨m, hm, hslice⟩ := h.blocks i hi
  have hnum (o n : Nat) (hon : o + n ≤ 32) : leAt b (64 + 32 * i + o) n = leAt m o n := congrArg leNat (hslice o n hon)
  have hflags : leAt b (94 + 32 * i) 1 = leAt m 30 1 := by rw [← hnum 30 1 (by decide)]; congr 1; omega
  have hperiod : leAt b (84 + 32 * i) 8 = leAt m 20 8 := by rw [← hnum 20 8 (by decide)]; congr 1; omega
  have hrms : leAt b (68 + 32 * i) 4 = leAt m 4 4 := by rw [← hnum 4 4 (by decide)]; congr 1; omega
  have hmean : slice b (64 + 32 * i) 4 = slice m 0 4 := hslice 0 4 (by decide)
  have hextremes : slice b (72 + 32 * i) 12 = slice m 8 12 := by rw [← hslice 8 12 (by decide)]; congr 1; omega
  have hlen := validPoints_length e raw c.recLen (trig - pre) i
  generalize validPoints e raw c.recLen (trig - pre) i = xs at hm hlen ⊢
  rw [← hlen]
  refine ⟨?_, ?_, ?_, ?_, ?_, ?_⟩
  · rw [hflags]; exact hm.sat
  · rw [hflags]; exact hm.beyond
  · rw [hflags, hperiod]; exact hm.few
  · rw [hmean]; exact hm.mean
  · rw [hrms]; exact hm.rms
  · rw [hextremes]; exact hm.extremes

end

section
variable {c : AcqCfg} {k : Capture} {raw : List Point} {s : State}

theorem recordPlace_eq (c : AcqCfg) (k : Capture) :
    0xE00000 + k.set * setSize c + (if k.nextGroup = 1 ∧ c.grpEn.getLsbD 0 = true then setSize c / 2 else 0) = recordPlace c k := by
  simp only [recordPlace, decide_eq_true_eq]

theorem recordMeasured_read (hpre : c.pretrig ≤ 100) :
    RecordRead c k.nextGroup (groupK c k.nextGroup) k raw (recordOver c k raw s) (s.acq.recSeq + 1) (preValid c k s) (c.recLen * c.pretrig / 100) s
      (recordMeasured c k raw s).1 := by
  have htrig : c.recLen * c.pretrig / 100 ≤ c.recLen := by
    have := Nat.mul_le_mul_left c.recLen hpre
    omega
  exact recordShape_read (recordBytes_shape c k.nextGroup k raw (recordOver c k raw s) (s.acq.recSeq + 1) s) (by omega)

theorem recordMeasured_state : ∃ n, (recordMeasured c k raw s).2.2 = { s with clk := { s.clk with freeCount := n } } :=
  (recordBytes_shape c k.nextGroup k raw (recordOver c k raw s) (s.acq.recSeq + 1) s).state

theorem recordDescriptor_bytes (c : AcqCfg) (k : Capture) (s : State) : descBytes (recordDescriptor c k s) = leBytes 4 (recordPlace c k) ++
    leBytes 2 (if recSize c < 65536 then recSize c else 0) ++ [0x0C, 0] ++ leBytes 4 k.trigUs ++ leBytes 4 (s.acq.recSeq + 1).toNat := by
  have hlen : leBytes 2 (if recSize c < 65536 then BitVec.ofNat 16 (recSize c) else 0).toNat = leBytes 2 (if recSize c < 65536 then recSize c else 0) := by
    split
    · rw [BitVec.toNat_ofNat]
      exact leBytes_mod 2 (recSize c) (Nat.le_refl 2)
    · rfl
  have hword (v : Nat) : leBytes 4 (BitVec.ofNat 32 v).toNat = leBytes 4 v := by
    rw [BitVec.toNat_ofNat]
    exact leBytes_mod 4 v (Nat.le_refl 4)
  unfold descBytes recordDescriptor
  dsimp only
  rw [hlen, hword, hword]

end

end
end Sys2Proof.Machine
end

section
/-! PROOF. Mains Watch follows the samples and captures records (R50, R252 to R262). -/

namespace Sys2Proof.Machine

section
set_option Elab.async false

section
variable {c : AcqCfg} {ch : Fin 8} {s : State} (hc : acqCfg s = some c)
include hc

/-! ### While no samples flow -/

theorem halfCycleEnd_idle (h : mwRuns s = false ∨ chEnabled c ch = false) (head : List Int) (mid : Int) (reps : Nat) (tail : List Int) :
    exec (.halfCycleEnd ch head mid reps tail) s = .next s := by
  refine congrArg Host.Outcome.next ?_
  unfold halfCycleEnd
  rw [hc]
  exact if_pos (by simpa using h)

theorem commands_idle (hruns : mwRuns s = false) (prev cur : Int) (pos : Bool) (runs : List (Nat × Point)) (pts : List Point) :
    exec (.recordTrigger prev cur) s = .next s ∧ exec .periodicTrigger s = .next s ∧ exec (.recordStored runs pts) s = .next s ∧
    exec (.aiOverRange ch pos) s = .next s := by
  have hno : (!mwRuns s) = true := by rw [hruns]; rfl
  have hoff : ¬ mwRuns s = true := by rw [hruns]; exact Bool.false_ne_true
  refine ⟨congrArg Host.Outcome.next ?_, congrArg Host.Outcome.next ?_, congrArg Host.Outcome.next ?_, congrArg Host.Outcome.next ?_⟩
  · unfold recordTrigger
    rw [hc]
    exact if_pos (.inl hno)
  · unfold raiseTrigger
    rw [hc]
    exact if_neg fun h => hoff h.2
  · unfold recordStored
    rw [hc]
    cases hk : s.acq.capture with
    | none => rfl
    | some k => exact if_pos (.inl hno)
  · unfold aiOverRange
    rw [hc]
    exact if_neg fun h => hoff h.1

end

/-! ### The record, state by state -/

section
variable {c : AcqCfg} {k : Capture} {s : State} (hc : acqCfg s = some c) (hk : s.acq.capture = some k) (hruns : mwRuns s = true)
  {runs : List (Nat × Point)} {pts : List Point}
include hc hk

theorem recordStored_refused (h : (expandRuns runs pts).length ≠ c.recLen * 2 ^ groupK c k.nextGroup) :
    exec (.recordStored runs pts) s = .next s := congrArg Host.Outcome.next (recordStored_mismatch hc hk h)

include hruns

theorem recordStored_does (h : (expandRuns runs pts).length = c.recLen * 2 ^ groupK c k.nextGroup) :
    exec (.recordStored runs pts) s = .next (recordFinished c k s (recordMeasured c k (expandRuns runs pts) s)) :=
  congrArg Host.Outcome.next (recordStored_eq hc hk hruns h)

theorem recordStored_ends (h : (expandRuns runs pts).length = c.recLen * 2 ^ groupK c k.nextGroup) :
    ∃ t, exec (.recordStored runs pts) s = .next t ∧ t.acq.recSeq = s.acq.recSeq + 1 ∧
      t.acq.capture = (if k.nextGroup ≠ 1 ∧ c.grpEn.getLsbD 1 = true then some { k with nextGroup := 1 } else none) ∧
      t.acq.lost = s.acq.lost ∧ t.acq.w = s.acq.w := by
  obtain ⟨w, a, hacq⟩ := recordFinished_acq c k s (recordMeasured c k (expandRuns runs pts) s)
  obtain ⟨n, hn⟩ := recordMeasured_state (c := c) (k := k) (raw := expandRuns runs pts) (s := s)
  have hwritten : (recordWritten c k s (recordMeasured c k (expandRuns runs pts) s)).acq = { s.acq with recSeq := s.acq.recSeq + 1 } := by
    unfold recordWritten
    rw [hn]
    rfl
  rw [hwritten] at hacq
  refine ⟨_, recordStored_does hc hk hruns h, ?_⟩
  rw [hacq]
  exact ⟨rfl, rfl, rfl, rfl⟩

end

/-! ### A window that ends -/

/-- What the last sample of a window leaves. -/
theorem halfCycleEnd_window {c : AcqCfg} {ch : Fin 8} {s : State} (hc : acqCfg s = some c) (hruns : mwRuns s = true)
    (hon : chEnabled c ch = true) {x : Int} (hends : sampleCrosses c ch x s = true ∨ 250 * (nth {} c.ch ch).hcMax ≤ (winOf s ch).n + 1)
    (hlen : s.acq.hcRms.length = 8) (hsum : (sampled c ch x s).sumSq * 65536 < (sampled c ch x s).n * 2 ^ 48) :
    ∃ t, exec (.halfCycleEnd ch [x] 0 0 []) s = .next t ∧
      t.acq.wins = sput {} s.acq.wins ch { side := (sampled c ch x s).side, last := (sampled c ch x s).last } ∧
      ∃ q rms : Nat, q * q * (sampled c ch x s).n ≤ (sampled c ch x s).sumSq * 65536 ∧
        (sampled c ch x s).sumSq * 65536 < (q + 1) * (q + 1) * (sampled c ch x s).n ∧
        (rms = q ∨ rms = q + 1 ∧ q * q * (sampled c ch x s).n ≠ (sampled c ch x s).sumSq * 65536) ∧
        nth 0 t.acq.hcRms ch = BitVec.ofNat 24 rms ∧
        WindowShown c ch rms (sampleCrosses c ch x s) (sampled c ch x s).ovr
          (setWin ch { side := (sampled c ch x s).side, last := (sampled c ch x s).last } s) t := by
  have hshown := windowEnd_shown c (sampleCrosses c ch x s)
    (setWin ch { side := (sampled c ch x s).side, last := (sampled c ch x s).last } s) ch.isLt (sampled c ch x s)
  have hdoes := (halfCycleEnd_one hc hruns hon x).trans (congrArg Host.Outcome.next (rawSample_ends c ch x s hends))
  obtain ⟨q, hlow, hhigh, hrms⟩ := windowRms_bounds (Nat.succ_pos (winOf s ch).n) hsum
  refine ⟨_, hdoes, hshown.wins, q, _, hlow, hhigh, hrms, ?_, hshown⟩
  rw [hshown.value]
  exact nth_set_self 0 _ (by rw [show (setWin _ _ s).acq.hcRms = s.acq.hcRms from rfl, hlen]; exact ch.isLt) _

/-- Settles O49: the sample, trigger and record rules of Mains Watch. -/
theorem mainsWatchFollowsTheSamples : Obligations.MainsWatchFollowsTheSamples := by
  unfold Obligations.MainsWatchFollowsTheSamples
  intro c ch x head mid reps tail prev cur pos v runs pts s hc
  refine ⟨fun hoff => ⟨halfCycleEnd_idle hc (.inl hoff) .., commands_idle hc hoff ..⟩, fun hruns =>
    ⟨fun hno => halfCycleEnd_idle hc (.inr hno) .., fun hon => halfCycleEnd_samples hc hruns hon .., ?_,
      fun hon => aiOverRange_shows hc hruns hon pos, fun hawake => commands_raise hc hruns hawake v, ?_, ?_⟩⟩
  · intro hon
    refine ⟨fun hcross hn => (halfCycleEnd_one hc hruns hon x).trans (congrArg Host.Outcome.next (rawSample_within c ch x s hcross hn)),
      fun hends hlen hsum => ?_⟩
    obtain ⟨t, hdoes, hwins, q, rms, hlow, hhigh, hrms, hvalue, hshown⟩ := halfCycleEnd_window hc hruns hon hends hlen hsum
    exact ⟨t, hdoes, hwins, q, rms, hlow, hhigh, hrms, hvalue, hshown.low, hshown.high, hshown.saturated, hshown.crossed, hshown.now,
      hshown.seen, hshown.phase, hshown.capture, hshown.dio⟩
  · exact ⟨fun h => recordTrigger_none prev cur hc h, fun h k hk => recordTrigger_during prev cur hc hruns h hk,
      fun h hnone hfree => recordTrigger_lost prev cur hc hruns h hnone hfree,
      fun h hnone k ks hsets hslots => recordTrigger_starts prev cur hc hruns h hnone hsets hslots⟩
  · intro k hk
    refine ⟨recordStored_refused hc hk, recordStored_ends hc hk hruns, ?_⟩
    intro g e trig pre miss size a chan code raw point xs n sq beyond hlen hpretrig hwf hfits hrings
    have hplace : a = recordPlace c k := recordPlace_eq c k
    have hread := recordMeasured_read (c := c) (k := k) (raw := raw) (s := s) hpretrig
    have hstate := recordMeasured_state (c := c) (k := k) (raw := raw) (s := s)
    obtain ⟨sat, hsat, hhead⟩ := hread.head
    have hbit (i : Nat) (hi : i < 4) : (recordOver c k raw s).getLsbD i = beyond i := overChannels_bit _ hi
    have hover : recordOver c k raw s ≠ 0 ↔ ∃ i < 4, beyond i = true := overChannels_some _
    rw [hplace] at hfits ⊢
    refine ⟨_, recordStored_does hc hk hruns hlen, fun y hout hin => recordFinished_elsewhere c k s hstate hread.length hout hin, ?_, ?_⟩
    · rw [show size = recSize c from rfl, recordFinished_record c k s hstate hread.length hwf hfits hrings]
      have hlast : recordPlace c k + (192 + 12 * c.recLen) ≤ 16777216 := hfits
      have htrig : c.recLen * c.pretrig / 100 ≤ c.recLen := by
        have := Nat.mul_le_mul_left c.recLen hpretrig
        omega
      have hpre : preValid c k s ≤ c.recLen := (Nat.min_le_left ..).trans htrig
      have hword {m : Nat} (h : m ≤ 192 + 12 * c.recLen) : m % 256 ^ 4 = m := Nat.mod_eq_of_lt (by omega)
      refine ⟨hhead.magic, hhead.group, hhead.seq, hhead.size.trans (hword (Nat.le_refl _)), hhead.exponent, hhead.sources,
        hhead.len.trans (hword (by omega)), hhead.prePoints.trans (hword (by omega)), hhead.trigPoints.trans (hword (by omega)),
        hhead.instant, hhead.cycles, hhead.detail, hhead.extra, hread.crc, hhead.pinned.trans hsat, hhead.gap, hhead.beyond.trans hover,
        hread.points, fun i hi => ?_⟩
      have hchannel := record_channel hread hi
      refine ⟨hchannel.pinned, hchannel.beyond.trans (hbit i hi), hchannel.few, fun hn => ⟨hchannel.mean hn, hchannel.rms hn, hchannel.extremes hn⟩⟩
    · intro r hown hapart hsets hdepth hroom hwaits
      obtain ⟨hpi, hbytes⟩ := recordFinished_descriptor c k s hstate hwf hown hapart hsets hdepth hroom hwaits
      exact ⟨hpi, hbytes.trans (recordDescriptor_bytes c k s)⟩

end
end Sys2Proof.Machine
end
